-- ==== Sys2Proof/Word.lean ====
section
/-! DEFINITION. The word types of the KW1024: 32-bit register words and bytes (00_scope.md R2, R3, R9). -/

namespace Sys2Proof

/-- A 32-bit register word (R9). -/
abbrev Word := BitVec 32

/-- One byte of a memory space or of a packet (R3). -/
abbrev Byte := BitVec 8

end Sys2Proof
end

