-- ==== Sys2Proof/Syntax.lean ====
section
/-! DEFINITION. The commands of the KW1024: one constructor for each row of spec/opcode_table.json, with the row's
operands. What lies outside the device (a comparator reading, a temperature, the verdict of a signature check) comes
with the command as an operand (log entry 2). -/

namespace Sys2Proof

/-- One sequencer instruction, the fields of Table 3.1 (03_sequencer.md R63). -/
structure SeqInstr where
  opcode : BitVec 6 := 0
  tset : BitVec 6 := 0
  pidx : BitVec 4 := 0
  lcnt : BitVec 3 := 0
  ssafe : Bool := false
  strm : Bool := false
  mken : Bool := false
  cfmt : Bool := false
  clrf : Bool := false
  mkid : BitVec 8 := 0
  count : BitVec 32 := 0
  vword : BitVec 16 := 0
  apgop : BitVec 16 := 0
  vseg : BitVec 4 := 0
  target : BitVec 14 := 0
  cond : BitVec 5 := 0
  neg : Bool := false
  csite : BitVec 8 := 0
  rsv : Bool := false
  deriving DecidableEq, Repr

/-- What a request's cryptographic checks need and the model does not compute (13_security.md R312, R316, R317, R326; 11_naljo_engine.md
R283; log entry 5). Keys, digests and tags are computed. `sigOk` says that the ECDSA signature verifies, `certOk` that the parts of R316's
certificate which `certProfile` does not read (issuer, other extensions, the authority's signature) are as they must be. -/
structure Verdict where
  sigOk : Bool := true
  certOk : Bool := true
  deriving DecidableEq, Repr

/-- One Uhleus request as it stands when its routine is about to run (10_uhleus_protocol.md R241 and Table 10.1). `noSlot` says that it
arrived without a command slot, `overrun` that its payload arrived beyond the session's credit (R251). `age` is the order in which the
device has received it (R257), and `part` the packet of an operation whose payload is still arriving (R252). Of a register write, `resets`
is the number of words that have been written when a fault reaction of its block resets that block, where one does so behind the checks
(11_naljo_engine.md R276), and `coincide` names, by address, W1C bits that the hardware has set, or by how many events a programmable counter
has counted, by a command before this one, in the very clock of the write (00_scope.md R7; 18_moraine_counters.md R424). -/
structure Req where
  link : Fin 12 := 0
  session : BitVec 5 := 0
  tag : BitVec 16 := 0
  flags : BitVec 8 := 0
  hver : BitVec 4 := 1
  kind : BitVec 3 := 0
  params : List Word := []
  payload : List Byte := []
  trailerOk : Bool := true
  verdict : Verdict := {}
  noSlot : Bool := false
  overrun : Bool := false
  age : Nat := 0
  part : Option Nat := none
  resets : Option Nat := none
  coincide : List (Nat × Word) := []
  deriving DecidableEq, Repr

/-- The session and tag that name an operation in progress (R257). -/
structure OpRef where
  session : BitVec 5
  tag : BitVec 16
  deriving DecidableEq, Repr

/-- One link-layer frame (12_serial_links.md R290 and Table 12.2); `bytes` are the valid payload bytes, whose words VLEN counts in an EOP frame,
`crc` what a received frame holds in place of the CRC-32C over it where a transmission error has changed one of them, `verdict` the checks on
the packet that an EOP frame ends. -/
structure Frame where
  crc : Option Word := none
  seq : BitVec 12 := 0
  ack : BitVec 12 := 0
  nak : Bool := false
  cls : BitVec 2 := 0
  sop : Bool := false
  eop : Bool := false
  stomp : Bool := false
  crCmd : BitVec 6 := 0
  crRsp : BitVec 6 := 0
  crStrm : BitVec 6 := 0
  bytes : List Byte := []
  verdict : Verdict := {}
  deriving DecidableEq, Repr

/-- What a training attempt or a retrain finds (12_serial_links.md R287, R297, R299, R301): the stamps of the latency probe and of its echo
and the partner's turnaround, in units of 1/256 ns; the AMs received, by lane; `ack` is the ACK that the partner reports after a retrain. -/
structure TrainReport where
  good : BitVec 8
  partnerGood : BitVec 8
  partnerChip : BitVec 14
  partnerLink : BitVec 4
  probe : Nat
  echo : Nat
  turnaround : Nat := 0
  ams : List (Fin 8 × BitVec 64) := []
  ack : BitVec 12 := 0
  deriving DecidableEq, Repr

/-- One calibration measurement of a channel and subject 0 to 4, or of the chip's SYNC deskew, subject 5
(09_calibration.md Table 9.1, R231): `values` are the corrections in the order and units of Table 9.3, and of subject 4 the hits of each
code (R179), and of subject 3 a third value, the latency of the compare path in 1/64 ps (log entry 72); `began` is the system time at which
the measurement began. -/
structure CalMeas where
  chan : Fin 1024
  subj : Fin 6
  values : List Int
  began : Nat := 0
  deriving DecidableEq, Repr

/-- A comparator pair: of a channel or of a sentinel (06_pin_electronics.md R150, R162). -/
inductive CmpUnit where
  | chan (ch : Fin 1024)
  | snt (n : Fin 64)
  deriving DecidableEq, Repr

/-- The fault-reporting blocks (15_safety_faults.md Table 15.3; R414, R432, R450). -/
inductive FltBlk where
  | link (l : Fin 12) | engine | security | safety | power | moraine | mgmt | memctl | core (c : Fin 68)
  deriving DecidableEq, Repr

/-- The fence-mask words (15_safety_faults.md R380). -/
inductive FenceWord where
  | ch (w : Fin 32) | tile (w : Fin 2) | snt (w : Fin 2)
  deriving DecidableEq, Repr

/-- Where a macro lies (14_memories.md Table 14.1): in a tile core, in a firn bank, in the vault, or among the link buffers and patch RAM. -/
inductive DefectAt where
  | core (c : Fin 68) | firn (bank : Fin 8) | vault | shared
  deriving DecidableEq, Repr

/-- A defect that a March element finds (14_memories.md R357): the macro, by its number within its place, and whether a column or a row of
it is defective, with the number of that row or column. In a core macros 0 to 7 are the pattern store, 8 the sequence memory, 9 the
timing-set memory, 10 the scramble store, 11 and 12 the capture store and 13 the profile memory; macros 0 to 23 of the shared memories are
the link buffers and 24 is patch RAM. -/
structure Defect where
  place : DefectAt
  unit : Nat := 0
  column : Bool := false
  line : Nat := 0
  injected : Bool := false
  deriving DecidableEq, Repr

/-- What a LINKCTL block asks for or brings (12_serial_links.md R299, R301, R306): among it a latency probe and its echo, with the pad-to-pad
turnaround, in units of 1/256 ns, of the side that returns it; or a control block of another type. -/
inductive LinkCtlReq where
  | retrain
  | probe (turnaround : Nat)
  | echo (turnaround : Nat)
  | farEndLoop
  | loopRefused
  | other (typ : Byte)
  deriving DecidableEq, Repr

/-- One image slot of the boot flash as the boot ROM finds it (20_startup.md R459): its bytes from the first on, whether the signature of the
image verifies, and whether that of its patch payload does (log entry 5). -/
structure ImageSlot where
  image : List Byte := []
  sigOk : Bool := false
  patchSig : Bool := true
  deriving DecidableEq, Repr

/-- What boot finds on the board and in its self-tests (20_startup.md R460 to R463), and whether the write of the staged moraine records to flash
fails (18_moraine_counters.md R420). -/
structure BootReport where
  slot0 : ImageSlot
  slot1 : ImageSlot
  pufOk : Bool := true
  cert : Option (List Byte) := none
  boardTable : List Byte := []
  badCores : List (Fin 68) := []
  badChans : List (Fin 1024) := []
  badLanes : List (Fin 96) := []
  defects : List Defect := []
  flashFails : Bool := false
  microseconds : Word := 713000
  deriving DecidableEq, Repr

/-- What the internal master does on the boot flash (19_management_ports.md R447, R448): it reads the SFDP header and learns whether the
flash declares 4-byte addressing, reads bytes, programs a page, or erases a sector of 4 KiB. -/
inductive FlashOp where
  | sfdp (wide : Bool)
  | read (addr : BitVec 32) (len : Nat)
  | program (addr : BitVec 32) (data : List Byte)
  | erase (addr : BitVec 32)
  deriving DecidableEq, Repr

/-- How the boot flash answers the internal master: the operation succeeds, and `busy`, the status that it polls, shows an operation that
the host started (19_management_ports.md R449). -/
structure FlashReply where
  ok : Bool
  busy : Bool
  deriving DecidableEq, Repr

/-- A transfer of the internal master, and the flash's answer to it. -/
structure FlashTransfer where
  op : FlashOp
  ok : Bool
  busy : Bool
  deriving DecidableEq, Repr

/-- The slot of a comparator self-check: its channel, and the system time at which it begins (06_pin_electronics.md R155). -/
structure CheckSlot where
  chan : Fin 1024
  clock : Nat
  deriving DecidableEq, Repr

/-- What a stop channel latches (07_time_measurement.md R169, R170): the coarse edge before the stop, numbered from epoch zero, and the
interpolator's code. -/
structure StopLatch where
  edge : Nat
  code : Fin 256
  deriving DecidableEq, Repr

/-- Why a lane loses lock: causes 0 invalid headers among the blocks that the lane receives, 1 clock recovery, 2 AM, 3 BIP errors. -/
structure LockLoss where
  cause : Fin 4
  blocks : List (BitVec 66)
  deriving DecidableEq, Repr

/-- How a link's wait in DOWN ends: by its time, or by a beacon or a training pattern on lane 0 (12_serial_links.md Table 12.3). -/
structure DownWait where
  link : Fin 12
  beacon : Bool
  deriving DecidableEq, Repr

/-- What goes with a write of LINK_CTRL's test fields: the link on which the write arrives, and the raw bits that each lane has received since
the row before (12_serial_links.md R306). -/
structure TestSeen where
  arrival : Option (Fin 12)
  received : List (Fin 8 × List Bool)
  deriving DecidableEq, Repr

/-- A source of a core block (15_safety_faults.md Table 15.3); of source 0 the space and offset of the word that playback met, and of source 1
whether the error was met in the site merge of the core's tile and not in its own paths (R366). -/
structure CoreSource where
  src : Fin 5
  space : Nat := 2
  off : Nat := 0
  merge : Bool := false
  deriving DecidableEq, Repr

/-- What a region test finds (14_memories.md R353, R357), and the errors of all memories that users have met since the last row: corrected ones
as region and bit, and uncorrectable ones as space in bits [7:0] and core in the bits above, with a byte offset (R347). -/
structure RegionTest where
  defects : List Defect := []
  corrected : List (Nat × Nat) := []
  bad : List (Nat × Nat) := []
  deriving DecidableEq, Repr

/-- The commands, in the order of spec/opcode_table.json. -/
inductive Instr where
  -- requests of Table 10.6
  | hello (q : Req) | bye (q : Req) | ping (q : Req) | regRead (q : Req) | regWrite (q : Req) | regSetBits (q : Req)
  | regClearBits (q : Req) | regGather (q : Req) | memWrite (q : Req) | memRead (q : Req) | segWrite (q : Req)
  | segCommit (q : Req)
  | streamPacket (group : BitVec 8) (commit : Bool) (q : Req)
  | streamOpen (q : Req) | streamClose (q : Req) | stepArm (q : Req)
  | stepArmSettled (o : OpRef) (volts : List (Fin 1024 × Int))
  | stepStart (q : Req) | stepStatus (q : Req) | abort (q : Req) | eventWait (q : Req)
  | eventWaitDone (o : OpRef) (timeout : Bool)
  | captureRead (q : Req) | failRead (q : Req) | profileRead (q : Req) | measure (q : Req) | measureReply (ch : Fin 1024)
  | calRun (q : Req) | calRunDone (o : OpRef) (items : List CalMeas) | calCommit (q : Req) | calRead (q : Req)
  | sealLoad (q : Req) | sealPartStaged (o : OpRef) (v : Verdict) | stagingTimeout | attest (q : Req)
  | attestationSigned (o : Option OpRef) | lifecycle (q : Req) | lifecycleTransition (otpOk : Bool) | identity (q : Req)
  | patchLoad (q : Req) | patchActivation (otpOk : Bool) | patchDrainTimeout | selftest (q : Req)
  | selftestDone (o : OpRef) (badCores : List (Fin 68)) (badStores : List (Fin 68)) (badChans : List (Fin 1024))
  | fence (q : Req) | calve (q : Req) | dumpRead (q : Req) | frost (q : Req) | frostSnapshot | powerState (q : Req)
  | powerTransitionDone (t : Fin 64) (pllOk : Bool) | scheduledThaw (t : Fin 64) | inject (q : Req)
  | undefinedOpcode (opcode : BitVec 8) (q : Req)
  -- a step, its cycles and its sequencer
  | stepStartGridPoint (t : Fin 64) | cycleBegin (t : Fin 64) | strobe (ch : Fin 1024) (volts : List Int)
  | nop (t : Fin 64) (i : SeqInstr) | vec (t : Fin 64) (i : SeqInstr) | rpt (t : Fin 64) (i : SeqInstr)
  | hold (t : Fin 64) (i : SeqInstr) | loop (t : Fin 64) (i : SeqInstr) | lend (t : Fin 64) (i : SeqInstr)
  | call (t : Fin 64) (i : SeqInstr) | ret (t : Fin 64) (i : SeqInstr) | jmp (t : Fin 64) (i : SeqInstr)
  | br (t : Fin 64) (i : SeqInstr) | segsw (t : Fin 64) (i : SeqInstr) | mark (t : Fin 64) (i : SeqInstr)
  | period (t : Fin 64) (i : SeqInstr) | wait (t : Fin 64) (i : SeqInstr) | waitRelease (t : Fin 64) (clock : Nat)
  | endStep (t : Fin 64) (i : SeqInstr) | stallResume (t : Fin 64) | stallLimitExpiry (t : Fin 64)
  | tdcStop (ch : Fin 1024) (falling : Bool) (x : StopLatch) | trigTimeReached (t : Fin 64)
  | trigInEdge (n : Fin 4) (arrival : Nat)
  | pmuConversion (ch : Fin 1024) (code : Int) (clamped : Bool) (instant : Nat) (check : Option (Fin 12))
  | maskvFlag (t : Fin 64)
  -- pins, levels, sentinels
  | chModeWrite (ch : Fin 1024) (v : Word) | gateClosed (ch : Fin 1024) | forcedResetEnd (u : CmpUnit) (volt : Int)
  | comparatorKnown (u : CmpUnit) (low : Bool) (volt : Int)
  | cmpSelfCheck (slot : CheckSlot) (ok : Bool)
  | chkLate (slot : CheckSlot) | lvlWrite (ch : Fin 1024) (k : Fin 11) (code : BitVec 16)
  | deglitchHoldEnd (ch : Fin 1024) (k : Fin 11) | levelSettled (ch : Fin 1024) (k : Fin 11)
  | pmuCfgWrite (ch : Fin 1024) (v : Word) (measured : BitVec 16) | rangingEnd (ch : Fin 1024) | lvlClrAssert
  | lvlClrDeassert | pinOverstress (ch : Fin 1024) (overVoltage : Bool) | sntCfgWrite (n : Fin 64) (v : Word)
  | sentinelViolation (n : Fin 64) | sentinelSelfCheck (n : Fin 64) (ok : Bool)
  -- calibration and time
  | backgroundMeasurement (m : CalMeas) | calAutoCommit | refvCheck (p n : Int)
  | syncEdge (u : Nat) | syncArmedLoad | systimeWrap | refCheck (ppm : Int) | refDriftCheck (freq : Int)
  | systimeLoRead (ctx : Fin 33) | timeMessageSend (l : Fin 12) | timeMessageReceive (l : Fin 12) (time arrival : BitVec 64)
  -- links and sessions
  | frameReceive (l : Fin 12) (f : Frame) | nakReceive (l : Fin 12) (ack : BitVec 12) | ackTimer (l : Fin 12)
  | amReceive (l : Fin 12) (lane : Fin 8) (am : Option (BitVec 64)) (since : List (BitVec 64))
  | laneLockLoss (l : Fin 12) (lane : Fin 8) (x : LockLoss)
  | trainingSuccess (l : Fin 12) (r : TrainReport) | trainingTimeout (l : Fin 12) | downWaitExpiry (w : DownWait)
  | retrainComplete (l : Fin 12) (r : TrainReport) | retrainTimeout (l : Fin 12) (noGoodLane : Bool)
  | linkEnable (l : Fin 12) (en : Bool) | linkTest (l : Fin 12) (test prbs : Bool) (loopMode : BitVec 3) (seen : TestSeen)
  | linkRetrainRequest (l : Fin 12) (wmax : Option (BitVec 3)) | laneUnfence (l : Fin 12) (lanes : BitVec 8)
  | laneEqWrite (l : Fin 12) (lane : Fin 8) (hi : Bool) (v : Word)
  | eventMessageReceive (l : Fin 12) (first : BitVec 64) (others : List (BitVec 64)) (arrival skew : Nat)
  | linkevSend (v : Word) | chipIdWrite (id : BitVec 14) | creditEvent (session : BitVec 5) | sessionTimeout (session : BitVec 5)
  | packetSendTimeout (l : Option (Fin 12))
  -- the engine and fault reactions
  | routineDispatch | routineBound | trap (cause : Fin 4) | clockModeChange | engClrstat
  | faultInterrupt (b : FltBlk) (src : Fin 32) | faultClear (b : FltBlk) (inj : Bool) (mask stillPresent : Word) | sfLockSet
  | fenceMaskWrite (w : FenceWord) (v : Word) | channelRetestDone (ch : Fin 1024) (passed : Bool)
  -- self-repair and memories
  | coreFault (c : Fin 68) (src : CoreSource) (inj : Bool) | coreRetestDone (c : Fin 68) (passed : Bool)
  | targetCheckDone (t : Fin 64) (passed : Bool) | migrationStart (t : Fin 64) | migrationComplete (t : Fin 64) (ns : Word)
  | calvingDeskewDone (t : Fin 64) (items : List CalMeas) | spareCoreCheck (c : Fin 68) (passed : Bool) | repairLogWrite
  | softRepairPersist | btRegionTest (r : RegionTest)
  -- power, thermal, supplies, tamper
  | thermalSample (readings : List Int) | throttleEvaluation (milliwatt : Word) | supplyExcursionBegin (rail : Fin 8)
  | supplyExcursionEnd (rail : Fin 8) (ns : Word) | controlledStop (rail : Fin 8) | sf3Release | tamperDetect (src : BitVec 6)
  -- moraine, counters, dump
  | moraineFlush (r : FlashReply) | mrnFlush | mrnClear (session : BitVec 5) | mrnCursorWrite (ctx : Fin 33) (seq : Word)
  | mrnLoadDone (ctx : Fin 33) (macOk : Bool) | mrnWin15Read (ctx : Fin 33) | evcLoRead (ctx : Fin 33) (n : Fin 384) (snapshot : Bool)
  | cntResume | dumpFlashCopyDone | dumpRelease
  -- the Veing chain and the peripheral port
  | mselAssert | veingFrame (edges : Nat) (word : BitVec 32) | veingNop (seq : BitVec 4) | addrLo (seq : BitVec 4) (data : BitVec 16)
  | addrHi (seq : BitVec 4) (data : BitVec 16) | wdataLo (seq : BitVec 4) (data : BitVec 16)
  | veingWrite (seq : BitVec 4) (data : BitVec 16) | veingRead (seq : BitVec 4) | veingBoundaryAccess | rdhi (seq : BitVec 4)
  | setaddr (seq : BitVec 4) (data : BitVec 16) | veingReset (seq : BitVec 4) (data : BitVec 16)
  | veingUndefinedCmd (cmd : BitVec 4) (seq : BitVec 4) | ppTxctlPush (v : Word) | ppEntryExecute (sampled : Word) | ppRxdataRead
  | ppFlush | ppContTimeout | internalTransfer (x : FlashTransfer)
  -- resets, boot, pins, late rows
  | powerOnReset | warmReset | supplyReset (rail : Fin 8) | boot (r : BootReport) | tapInstructionUpdate (ir : BitVec 4)
  | ocxoReadyChange (high : Bool) | linkctlReceive (l : Fin 12) (r : LinkCtlReq) | gateOpened (ch : Fin 1024)
  | sentinelWindowCrossing (n : Fin 64) (volt : Int) | dumpFirnWriteDone | drbgHealthTestFail | operatingTimeTick
  deriving DecidableEq, Repr

end Sys2Proof
end

