-- ==== Sys2Proof/Config.lean ====
section
/-! DEFINITION. What one KW1024 fixes and the manual does not state: constants without a body. A statement about one
holds for every value it could have (log entry 4). -/

namespace Sys2Proof.Config

/-- A free 32-bit value, one for each reading of the counter State.freeCtr (log entry 4). -/
opaque freeWord : Nat → Word

/-- The digest SHA-384 of a byte string (FIPS 180-4), uninterpreted (log entry 5). -/
opaque sha384 : List Byte → BitVec 384

/-- The first block of HKDF-SHA-384 over a key with a salt and an info string (RFC 5869; 13_security.md R314, R323; log entry 5). -/
opaque hkdf : List Byte → List Byte → List Byte → BitVec 384

/-- The seed that the physically unclonable function of this device yields, and the first counter of a key's candidates, which the spec
does not give (13_security.md R314; log entry 84). -/
opaque pufSeed : BitVec 384
opaque keyCounter : Nat

/-- The public key of a P-384 private key in the uncompressed point encoding, the x-coordinate of ECDH of a private and a public key, and
the ECDSA signature of a private key under a byte string with the DRBG's nonce of a number (13_security.md R314, R323, R338; log entry 5). -/
opaque publicKey : Nat → BitVec 776
opaque ecdhX : Nat → List Byte → BitVec 384
opaque sign : Nat → Nat → List Byte → BitVec 768

/-- The digest of the vendor's public key, which the ROM holds (13_security.md R311, R318). -/
opaque vendorDigest : BitVec 384

/-- A byte of the key stream of AES-256-GCM under a key, by initialisation vector and place, and the tag of associated data and a ciphertext
(13_security.md R323, R325, R329; log entry 5). -/
opaque keyStream : List Byte → List Byte → Nat → Byte
opaque gcmTag : List Byte → List Byte → List Byte → List Byte → BitVec 128

/-- The device certificate in boot flash (13_security.md R316; log entry 5). -/
opaque certificate : List Byte

/-- The corrections of epoch 0 that OTP holds, by item and place (09_calibration.md R238; device-specific, log entry 12). -/
opaque otpCal : Nat → Nat → Int

/-- The factory memory repairs of this device, 0 to 1,024 (20_startup.md R494, device-specific). -/
opaque factoryRepairs : BitVec 11

/-- What each of them names: the macro, whether a column or a row of it is defective, its number, and the spare that replaces it (14_memories.md
R356, device-specific). -/
opaque factoryMacro : Nat → Nat
opaque factoryColumn : Nat → Bool
opaque factoryLine : Nat → Nat
opaque factorySpare : Nat → Nat

/-- Lengths in bytes in the ENGINE section of a fatal-error dump that the spec does not give: of one of the four entries of the microcode
stack, and of the microaddress, the microword and the request (18_moraine_counters.md Table 18.5; log entry 44). -/
opaque stackEntry : Nat
opaque requestDump : Nat

/-- What Table 11.2 leaves open of the microwords (11_naljo_engine.md R269, R270; log entry 60): the ROM's words and the first microaddress
of each opcode, the result of an ALU operation on A, B and IMM, which of the register-space operations store, when a condition holds
after a result and a check, the microaddress that SPLIT registers, and the parameters and payload that REPLY and EVENT form. -/
opaque romWord : Nat → Word
opaque romEntry : Nat → Nat
opaque microAlu : Nat → Word → Word → BitVec 12 → Word
opaque microStores : Nat → Bool
opaque microCond : Nat → Word → Bool → Bool
opaque microDone : Word → Nat
opaque microParams : Nat → List Word
opaque microPayload : Nat → List Byte

/-- What the spec leaves open of the blocks that a lane sends (12_serial_links.md R286, R306; log entry 83): the bits above the type of IDLE, 0,
and of a LINKCTL block that asks for 1 a retrain, 2 a probe, 3 an echo, 4 a far-end loop, 5 its refusal, with a turnaround; and the first
31 bits of PRBS31 on each lane. -/
opaque controlBits : Nat → Nat → BitVec 56
opaque prbsSeed : Nat → BitVec 31

/-- The address under which the ZEROED section of a dump lists a store, by space and core, or the vault (18_moraine_counters.md R430, Table 18.5:
no address of the register space; log entry 44). -/
opaque storeAddress : Nat → Nat → Nat

/-- A byte of a fatal-error dump that the spec leaves open, by the dump's number and offset (18_moraine_counters.md R430; log entry 44). -/
opaque dumpByte : Nat → Nat → Byte

end Sys2Proof.Config
end

