-- ==== Sys2Proof/Machine/RegMap.lean ====
section
/-! DEFINITION. The register map (22_register_map.md R484 and the register tables of every chapter): where each register and
each field stands, its access codes and its reset value. -/

namespace Sys2Proof.Machine

/-- A field of a register: the register's byte address and the field's bit range. -/
structure Fld where
  addr : Nat
  hi : Nat
  lo : Nat
  deriving DecidableEq, Repr

/-- How a register word resets where the tables do not print one constant: a constant, its own number (R15, TILE_MAPn), the
tile of a core (16_self_repair.md R396), the selections of Table 15.3, or the factory repairs of R494. -/
inductive Rst where
  | const (w : Word) | unit | coreTile | react | factory
  deriving DecidableEq, Repr

/-- The classes of registers that cannot be read while the tile or site belongs to a bundle, and the policy bit that opens each
(13_security.md R331, R333 and Table 13.10). -/
inductive ReadSeal where
  | none | margin | repair | diag | wave | bundle
  deriving DecidableEq, Repr

/-- One row of the register map: `n` registers from offset `off` at `stride`; the bits of each access code (R5, R6, R7); the
reset value; and the register's own rules: written only with the tile IDLE (`idle`) or with every tile IDLE (`allIdle`),
in Table 13.9 (`sealW`), SHARE_MASK's own sealing (`shSeal`), read sealing, CONFIGURE to write (`cfg`), set and clear
aliases (`aliased`), one copy per context (`ctx`), frozen counters (`cnt`), a nonzero reserved bit refused (`rsvBad`). -/
structure RegDesc where
  off : Nat
  n : Nat
  stride : Nat
  rw : Word := 0
  ro : Word := 0
  w1c : Word := 0
  w1s : Word := 0
  wo : Word := 0
  rst : Rst := .const 0
  idle : Bool := false
  allIdle : Bool := false
  sealW : Bool := false
  shSeal : Bool := false
  rs : ReadSeal := .none
  cfg : Bool := false
  aliased : Bool := false
  ctx : Bool := false
  cnt : Bool := false
  rsvBad : Bool := false
  deriving DecidableEq, Repr

/-! ## Where registers and fields stand: R.NAME is an address, R.NAME_FIELD a field. -/

namespace R


/-! Chip global (chapters 01, 04, 06, 08, 09, 10, 12, 07, 16, 20). -/

def BOOT_STATUS : Nat := 0x0
def BOOT_STATUS_DONE : Fld := ⟨BOOT_STATUS, 7, 7⟩
def BOOT_STATUS_RECOVERY : Fld := ⟨BOOT_STATUS, 6, 6⟩
def BOOT_STATUS_BTBAD : Fld := ⟨BOOT_STATUS, 5, 5⟩
def BOOT_STATUS_SLOT : Fld := ⟨BOOT_STATUS, 4, 4⟩
def BOOT_STATUS_SLOT1BAD : Fld := ⟨BOOT_STATUS, 3, 3⟩
def BOOT_STATUS_SLOT0BAD : Fld := ⟨BOOT_STATUS, 2, 2⟩
def BOOT_STATUS_POSTFAIL : Fld := ⟨BOOT_STATUS, 1, 1⟩
def RESET_CAUSE : Nat := 0x4
def RESET_CAUSE_KIND : Fld := ⟨RESET_CAUSE, 2, 0⟩
def BOOT_TIME : Nat := 0x8
def BOOT_TIME_US : Fld := ⟨BOOT_TIME, 31, 0⟩
def POST_RESULT : Nat := 0xc
def POST_RESULT_CH : Fld := ⟨POST_RESULT, 31, 20⟩
def POST_RESULT_LANES : Fld := ⟨POST_RESULT, 19, 13⟩
def POST_RESULT_CORES : Fld := ⟨POST_RESULT, 12, 6⟩
def POST_RESULT_MEMFAIL : Fld := ⟨POST_RESULT, 0, 0⟩
def IMAGE_VER : Nat := 0x10
def IMAGE_VER_IVER : Fld := ⟨IMAGE_VER, 15, 0⟩
def TILE_MAP (i : Nat) : Nat := 0x400 + i * 4
def TILE_MAP_FENCED (i : Nat) : Fld := ⟨(TILE_MAP i), 17, 17⟩
def TILE_MAP_PENDING (i : Nat) : Fld := ⟨(TILE_MAP i), 16, 16⟩
def TILE_MAP_TARGET (i : Nat) : Fld := ⟨(TILE_MAP i), 14, 8⟩
def TILE_MAP_CORE (i : Nat) : Fld := ⟨(TILE_MAP i), 6, 0⟩
def SHARE_MASK (i : Nat) : Nat := 0x800 + i * 4
def SHARE_MASK_MASK (i : Nat) : Fld := ⟨(SHARE_MASK i), 31, 0⟩
def STRM_CTL (i : Nat) : Nat := 0xa00 + i * 16
def STRM_CTL_OPEN (i : Nat) : Fld := ⟨(STRM_CTL i), 31, 31⟩
def STRM_CTL_SEQERR (i : Nat) : Fld := ⟨(STRM_CTL i), 30, 30⟩
def STRM_CTL_ULINK (i : Nat) : Fld := ⟨(STRM_CTL i), 27, 24⟩
def STRM_CTL_DLINKS (i : Nat) : Fld := ⟨(STRM_CTL i), 19, 8⟩
def STRM_CTL_GROUP (i : Nat) : Fld := ⟨(STRM_CTL i), 7, 0⟩
def STRM_TILES_LO (i : Nat) : Nat := 0xa04 + i * 16
def STRM_TILES_LO_TILES (i : Nat) : Fld := ⟨(STRM_TILES_LO i), 31, 0⟩
def STRM_TILES_HI (i : Nat) : Nat := 0xa08 + i * 16
def STRM_TILES_HI_TILES (i : Nat) : Fld := ⟨(STRM_TILES_HI i), 31, 0⟩
def STRM_NEXT (i : Nat) : Nat := 0xa0c + i * 16
def STRM_NEXT_NEXT (i : Nat) : Fld := ⟨(STRM_NEXT i), 31, 0⟩
def LVL_CLR_STATUS : Nat := 0xc00
def LVL_CLR_STATUS_SEEN : Fld := ⟨LVL_CLR_STATUS, 1, 1⟩
def LVL_CLR_STATUS_ACTIVE : Fld := ⟨LVL_CLR_STATUS, 0, 0⟩
def TRIG_OUT_CFG (i : Nat) : Nat := 0xc10 + i * 4
def TRIG_OUT_CFG_EN (i : Nat) : Fld := ⟨(TRIG_OUT_CFG i), 6, 6⟩
def TRIG_OUT_CFG_TILE (i : Nat) : Fld := ⟨(TRIG_OUT_CFG i), 5, 0⟩
def CAL_CTRL : Nat := 0xe00
def CAL_CTRL_SUBJ : Fld := ⟨CAL_CTRL, 13, 8⟩
def CAL_CTRL_AUTO : Fld := ⟨CAL_CTRL, 1, 1⟩
def CAL_CTRL_BG_EN : Fld := ⟨CAL_CTRL, 0, 0⟩
def CAL_STATUS : Nat := 0xe04
def CAL_STATUS_FAULT : Fld := ⟨CAL_STATUS, 4, 4⟩
def CAL_STATUS_REFV_BAD : Fld := ⟨CAL_STATUS, 3, 3⟩
def CAL_STATUS_RUN : Fld := ⟨CAL_STATUS, 2, 2⟩
def CAL_STATUS_PENDING : Fld := ⟨CAL_STATUS, 1, 1⟩
def CAL_STATUS_SUSP : Fld := ⟨CAL_STATUS, 0, 0⟩
def CAL_EPOCH : Nat := 0xe08
def CAL_EPOCH_EPOCH : Fld := ⟨CAL_EPOCH, 31, 0⟩
def CAL_PEND : Nat := 0xe0c
def CAL_PEND_COUNT : Fld := ⟨CAL_PEND, 31, 0⟩
def REFV_VALUE : Nat := 0xe10
def REFV_VALUE_MICROVOLT : Fld := ⟨REFV_VALUE, 31, 0⟩
def CAL_LIMIT : Nat := 0xe14
def CAL_LIMIT_DTEMP : Fld := ⟨CAL_LIMIT, 23, 16⟩
def CAL_LIMIT_HOURS : Fld := ⟨CAL_LIMIT, 15, 0⟩
def CAL_AUTO : Nat := 0xe18
def CAL_AUTO_INTERVAL : Fld := ⟨CAL_AUTO, 15, 0⟩
def CHIP_ID : Nat := 0x1000
def CHIP_ID_ID : Fld := ⟨CHIP_ID, 13, 0⟩
def PROTO_CFG : Nat := 0x1004
def PROTO_CFG_TIMEOUT : Fld := ⟨PROTO_CFG, 23, 16⟩
def PROTO_CFG_UPLINK : Fld := ⟨PROTO_CFG, 3, 0⟩
def PROTO_HDRERR : Nat := 0x1008
def PROTO_HDRERR_COUNT : Fld := ⟨PROTO_HDRERR, 31, 0⟩
def PROTO_NOROUTE : Nat := 0x100c
def PROTO_NOROUTE_COUNT : Fld := ⟨PROTO_NOROUTE, 31, 0⟩
def PROTO_DISCARD : Nat := 0x1010
def PROTO_DISCARD_COUNT : Fld := ⟨PROTO_DISCARD, 31, 0⟩
def POOL_FREE : Nat := 0x1014
def POOL_FREE_CELLS : Fld := ⟨POOL_FREE, 11, 0⟩
def LINKEV_FWD : Nat := 0x1018
def LINKEV_FWD_LINKS : Fld := ⟨LINKEV_FWD, 11, 0⟩
def LINKEV_SEND : Nat := 0x101c
def LINKEV_SEND_RSV : Fld := ⟨LINKEV_SEND, 31, 21⟩
def LINKEV_SEND_LOCAL : Fld := ⟨LINKEV_SEND, 20, 20⟩
def LINKEV_SEND_LINKS : Fld := ⟨LINKEV_SEND, 19, 8⟩
def LINKEV_SEND_EVENT : Fld := ⟨LINKEV_SEND, 7, 0⟩
def LINKEV_RX : Nat := 0x1020
def LINKEV_RX_COUNT : Fld := ⟨LINKEV_RX, 31, 0⟩
def LINKEV_LOST : Nat := 0x1024
def LINKEV_LOST_COUNT : Fld := ⟨LINKEV_LOST, 31, 0⟩
def SESS_STAT (i : Nat) : Nat := 0x1100 + i * 8
def SESS_STAT_OVERRUN (i : Nat) : Fld := ⟨(SESS_STAT i), 31, 31⟩
def SESS_STAT_EVLOST (i : Nat) : Fld := ⟨(SESS_STAT i), 30, 30⟩
def SESS_STAT_SLOTS (i : Nat) : Fld := ⟨(SESS_STAT i), 19, 16⟩
def SESS_STAT_WIN (i : Nat) : Fld := ⟨(SESS_STAT i), 15, 8⟩
def SESS_STAT_LINK (i : Nat) : Fld := ⟨(SESS_STAT i), 7, 4⟩
def SESS_STAT_PRIV (i : Nat) : Fld := ⟨(SESS_STAT i), 3, 1⟩
def SESS_STAT_OPEN (i : Nat) : Fld := ⟨(SESS_STAT i), 0, 0⟩
def SESS_LOAD (i : Nat) : Nat := 0x1104 + i * 8
def SESS_LOAD_EVQ (i : Nat) : Fld := ⟨(SESS_LOAD i), 22, 16⟩
def SESS_LOAD_PEND (i : Nat) : Fld := ⟨(SESS_LOAD i), 15, 8⟩
def SESS_LOAD_CELLS (i : Nat) : Fld := ⟨(SESS_LOAD i), 7, 0⟩
def ROUTE (i : Nat) : Nat := 0x1200 + i * 4
def ROUTE_EN (i : Nat) : Fld := ⟨(ROUTE i), 31, 31⟩
def ROUTE_LAST (i : Nat) : Fld := ⟨(ROUTE i), 29, 16⟩
def ROUTE_FIRST (i : Nat) : Fld := ⟨(ROUTE i), 13, 0⟩
def MCAST (i : Nat) : Nat := 0x1400 + i * 4
def MCAST_LOCAL (i : Nat) : Fld := ⟨(MCAST i), 12, 12⟩
def MCAST_LINKS (i : Nat) : Fld := ⟨(MCAST i), 11, 0⟩
def SITE_EARLY (i : Nat) : Nat := 0x2000 + i * 32
def SITE_EARLY_VALUE (i : Nat) : Fld := ⟨(SITE_EARLY i), 31, 0⟩
def SITE_LATE (i : Nat) : Nat := 0x2004 + i * 32
def SITE_LATE_VALUE (i : Nat) : Fld := ⟨(SITE_LATE i), 31, 0⟩
def SITE_SETUP (i : Nat) : Nat := 0x2008 + i * 32
def SITE_SETUP_VALUE (i : Nat) : Fld := ⟨(SITE_SETUP i), 31, 0⟩
def SITE_HOLD (i : Nat) : Nat := 0x200c + i * 32
def SITE_HOLD_VALUE (i : Nat) : Fld := ⟨(SITE_HOLD i), 31, 0⟩
def SITE_INWIN (i : Nat) : Nat := 0x2010 + i * 32
def SITE_INWIN_COUNT (i : Nat) : Fld := ⟨(SITE_INWIN i), 31, 0⟩
def SITE_MFLAGS (i : Nat) : Nat := 0x2014 + i * 32
def SITE_MFLAGS_NONE (i : Nat) : Fld := ⟨(SITE_MFLAGS i), 3, 3⟩
def SITE_MFLAGS_WARMUP (i : Nat) : Fld := ⟨(SITE_MFLAGS i), 2, 2⟩
def SITE_MFLAGS_SUSPECT (i : Nat) : Fld := ⟨(SITE_MFLAGS i), 1, 1⟩
def SITE_MFLAGS_SAT (i : Nat) : Fld := ⟨(SITE_MFLAGS i), 0, 0⟩
def REP_LIST (i : Nat) : Nat := 0x4000 + i * 32
def REP_LIST_COUNT (i : Nat) : Fld := ⟨(REP_LIST i), 31, 0⟩
def REP_ROWS (i : Nat) : Nat := 0x4004 + i * 32
def REP_ROWS_COUNT (i : Nat) : Fld := ⟨(REP_ROWS i), 31, 0⟩
def REP_MROWS (i : Nat) : Nat := 0x4008 + i * 32
def REP_MROWS_COUNT (i : Nat) : Fld := ⟨(REP_MROWS i), 31, 0⟩
def REP_COLS (i : Nat) : Nat := 0x400c + i * 32
def REP_COLS_COUNT (i : Nat) : Fld := ⟨(REP_COLS i), 31, 0⟩
def REP_MCOLS (i : Nat) : Nat := 0x4010 + i * 32
def REP_MCOLS_COUNT (i : Nat) : Fld := ⟨(REP_MCOLS i), 31, 0⟩
def REP_OVF (i : Nat) : Nat := 0x4014 + i * 32
def REP_OVF_COUNT (i : Nat) : Fld := ⟨(REP_OVF i), 31, 0⟩
def REP_ABSORB (i : Nat) : Nat := 0x4018 + i * 32
def REP_ABSORB_COUNT (i : Nat) : Fld := ⟨(REP_ABSORB i), 31, 0⟩
def REP_FLAGS (i : Nat) : Nat := 0x401c + i * 32
def REP_FLAGS_MERGED (i : Nat) : Fld := ⟨(REP_FLAGS i), 7, 7⟩
def REP_FLAGS_ACC (i : Nat) : Fld := ⟨(REP_FLAGS i), 6, 6⟩
def REP_FLAGS_CORRUPT (i : Nat) : Fld := ⟨(REP_FLAGS i), 5, 5⟩
def REP_FLAGS_NOREPAIR (i : Nat) : Fld := ⟨(REP_FLAGS i), 4, 4⟩
def REP_FLAGS_OVF_POOL (i : Nat) : Fld := ⟨(REP_FLAGS i), 3, 3⟩
def REP_FLAGS_OVF_COL (i : Nat) : Fld := ⟨(REP_FLAGS i), 2, 2⟩
def REP_FLAGS_OVF_ROW (i : Nat) : Fld := ⟨(REP_FLAGS i), 1, 1⟩
def REP_FLAGS_OVF_LIST (i : Nat) : Fld := ⟨(REP_FLAGS i), 0, 0⟩
def SR_CFG : Nat := 0x6000
def SR_CFG_TRANS_HOURS : Fld := ⟨SR_CFG, 23, 8⟩
def SR_CFG_TRANS_LIMIT : Fld := ⟨SR_CFG, 7, 0⟩
def SR_STATUS : Nat := 0x6004
def SR_STATUS_OTPFULL : Fld := ⟨SR_STATUS, 4, 4⟩
def SR_STATUS_MIGRATING : Fld := ⟨SR_STATUS, 3, 3⟩
def SR_STATUS_SPARES : Fld := ⟨SR_STATUS, 2, 0⟩
def SR_GEN : Nat := 0x6008
def SR_GEN_COUNT : Fld := ⟨SR_GEN, 31, 0⟩
def SR_SPARE0 : Nat := 0x600c
def SR_SPARE0_SPARE : Fld := ⟨SR_SPARE0, 31, 0⟩
def SR_SPARE1 : Nat := 0x6010
def SR_SPARE1_SPARE : Fld := ⟨SR_SPARE1, 31, 0⟩
def SR_SPARE2 : Nat := 0x6014
def SR_SPARE2_SPARE : Fld := ⟨SR_SPARE2, 3, 0⟩
def SR_MIG_LAST : Nat := 0x6018
def SR_MIG_LAST_NEW : Fld := ⟨SR_MIG_LAST, 22, 16⟩
def SR_MIG_LAST_OLD : Fld := ⟨SR_MIG_LAST, 14, 8⟩
def SR_MIG_LAST_TILE : Fld := ⟨SR_MIG_LAST, 5, 0⟩
def SR_MIG_BYTES : Nat := 0x601c
def SR_MIG_BYTES_COUNT : Fld := ⟨SR_MIG_BYTES, 31, 0⟩
def SR_MIG_TIME : Nat := 0x6020
def SR_MIG_TIME_TIME : Fld := ⟨SR_MIG_TIME, 31, 0⟩
def SR_OTP_COUNT : Nat := 0x6024
def SR_OTP_COUNT_USED : Fld := ⟨SR_OTP_COUNT, 6, 0⟩
def SR_OTP_W0 (i : Nat) : Nat := 0x6100 + i * 8
def SR_OTP_W0_UNIT (i : Nat) : Fld := ⟨(SR_OTP_W0 i), 25, 16⟩
def SR_OTP_W0_KIND (i : Nat) : Fld := ⟨(SR_OTP_W0 i), 3, 2⟩
def SR_OTP_W0_REVOKED (i : Nat) : Fld := ⟨(SR_OTP_W0 i), 1, 1⟩
def SR_OTP_W0_VALID (i : Nat) : Fld := ⟨(SR_OTP_W0 i), 0, 0⟩
def SR_OTP_W1 (i : Nat) : Nat := 0x6104 + i * 8
def SR_OTP_W1_HOURS (i : Nat) : Fld := ⟨(SR_OTP_W1 i), 31, 0⟩

/-! System time (chapters 02). -/

def TIME_CTRL : Nat := 0x10000
def TIME_CTRL_LINK_ARM : Fld := ⟨TIME_CTRL, 2, 2⟩
def TIME_CTRL_SYNC_ARM : Fld := ⟨TIME_CTRL, 1, 1⟩
def TIME_CTRL_SRC : Fld := ⟨TIME_CTRL, 0, 0⟩
def TIME_STATUS : Nat := 0x10004
def TIME_STATUS_WRAP : Fld := ⟨TIME_STATUS, 5, 5⟩
def TIME_STATUS_REF_LOST : Fld := ⟨TIME_STATUS, 4, 4⟩
def TIME_STATUS_SLIP : Fld := ⟨TIME_STATUS, 3, 3⟩
def TIME_STATUS_SYNC_REJ : Fld := ⟨TIME_STATUS, 2, 2⟩
def TIME_STATUS_REF_WARM : Fld := ⟨TIME_STATUS, 1, 1⟩
def TIME_STATUS_VALID : Fld := ⟨TIME_STATUS, 0, 0⟩
def SYSTIME_LO : Nat := 0x10008
def SYSTIME_LO_LO : Fld := ⟨SYSTIME_LO, 31, 0⟩
def SYSTIME_HI : Nat := 0x1000c
def SYSTIME_HI_HI : Fld := ⟨SYSTIME_HI, 31, 0⟩
def SYNC_LOAD_LO : Nat := 0x10010
def SYNC_LOAD_LO_LOAD_LO : Fld := ⟨SYNC_LOAD_LO, 31, 0⟩
def SYNC_LOAD_HI : Nat := 0x10014
def SYNC_LOAD_HI_LOAD_HI : Fld := ⟨SYNC_LOAD_HI, 31, 0⟩
def SYNC_DESKEW : Nat := 0x10018
def SYNC_DESKEW_DESKEW : Fld := ⟨SYNC_DESKEW, 15, 0⟩
def SYNC_CHECK : Nat := 0x1001c
def SYNC_CHECK_PHASE : Fld := ⟨SYNC_CHECK, 31, 0⟩
def TIME_LINK_LAT : Nat := 0x10020
def TIME_LINK_LAT_LINK : Fld := ⟨TIME_LINK_LAT, 31, 28⟩
def TIME_LINK_LAT_LATENCY : Fld := ⟨TIME_LINK_LAT, 27, 0⟩
def REF_DRIFT : Nat := 0x10024
def REF_DRIFT_DRIFT : Fld := ⟨REF_DRIFT, 31, 0⟩

/-! Link (chapters 12). -/

def LINK_CTRL (l : Nat) : Nat := 0x20000 + l * 0x1000 + 0x0
def LINK_CTRL_ALLOW_FELB (l : Nat) : Fld := ⟨(LINK_CTRL l), 12, 12⟩
def LINK_CTRL_LOOP (l : Nat) : Fld := ⟨(LINK_CTRL l), 11, 9⟩
def LINK_CTRL_PRBS (l : Nat) : Fld := ⟨(LINK_CTRL l), 8, 8⟩
def LINK_CTRL_TEST (l : Nat) : Fld := ⟨(LINK_CTRL l), 7, 7⟩
def LINK_CTRL_WMAX (l : Nat) : Fld := ⟨(LINK_CTRL l), 6, 4⟩
def LINK_CTRL_TMSG (l : Nat) : Fld := ⟨(LINK_CTRL l), 3, 3⟩
def LINK_CTRL_ROLE (l : Nat) : Fld := ⟨(LINK_CTRL l), 2, 2⟩
def LINK_CTRL_RETRAIN (l : Nat) : Fld := ⟨(LINK_CTRL l), 1, 1⟩
def LINK_CTRL_EN (l : Nat) : Fld := ⟨(LINK_CTRL l), 0, 0⟩
def LINK_STATUS (l : Nat) : Nat := 0x20000 + l * 0x1000 + 0x4
def LINK_STATUS_USED (l : Nat) : Fld := ⟨(LINK_STATUS l), 23, 16⟩
def LINK_STATUS_WIDTH (l : Nat) : Fld := ⟨(LINK_STATUS l), 11, 8⟩
def LINK_STATUS_FELB_REF (l : Nat) : Fld := ⟨(LINK_STATUS l), 3, 3⟩
def LINK_STATUS_STATE (l : Nat) : Fld := ⟨(LINK_STATUS l), 2, 0⟩
def LINK_LANEFENCE (l : Nat) : Nat := 0x20000 + l * 0x1000 + 0x8
def LINK_LANEFENCE_FENCE (l : Nat) : Fld := ⟨(LINK_LANEFENCE l), 7, 0⟩
def LINK_PARTNER (l : Nat) : Nat := 0x20000 + l * 0x1000 + 0xc
def LINK_PARTNER_VALID (l : Nat) : Fld := ⟨(LINK_PARTNER l), 31, 31⟩
def LINK_PARTNER_LINK (l : Nat) : Fld := ⟨(LINK_PARTNER l), 19, 16⟩
def LINK_PARTNER_CHIP (l : Nat) : Fld := ⟨(LINK_PARTNER l), 13, 0⟩
def LINK_RTT (l : Nat) : Nat := 0x20000 + l * 0x1000 + 0x10
def LINK_RTT_RTT (l : Nat) : Fld := ⟨(LINK_RTT l), 27, 0⟩
def LINK_EVT (l : Nat) : Nat := 0x20000 + l * 0x1000 + 0x14
def LINK_EVT_DEGRADED (l : Nat) : Fld := ⟨(LINK_EVT l), 5, 5⟩
def LINK_EVT_REPLAY_LIMIT (l : Nat) : Fld := ⟨(LINK_EVT l), 4, 4⟩
def LINK_EVT_TRAINFAIL (l : Nat) : Fld := ⟨(LINK_EVT l), 3, 3⟩
def LINK_EVT_LANELOSS (l : Nat) : Fld := ⟨(LINK_EVT l), 2, 2⟩
def LINK_EVT_DOWN (l : Nat) : Fld := ⟨(LINK_EVT l), 1, 1⟩
def LINK_EVT_UP (l : Nat) : Fld := ⟨(LINK_EVT l), 0, 0⟩
def LINK_CRCERR (l : Nat) : Nat := 0x20000 + l * 0x1000 + 0x18
def LINK_CRCERR_COUNT (l : Nat) : Fld := ⟨(LINK_CRCERR l), 31, 0⟩
def LINK_REPLAY (l : Nat) : Nat := 0x20000 + l * 0x1000 + 0x1c
def LINK_REPLAY_COUNT (l : Nat) : Fld := ⟨(LINK_REPLAY l), 31, 0⟩
def LINK_RETRAIN (l : Nat) : Nat := 0x20000 + l * 0x1000 + 0x20
def LINK_RETRAIN_COUNT (l : Nat) : Fld := ⟨(LINK_RETRAIN l), 31, 0⟩
def LINK_TRAINFAIL (l : Nat) : Nat := 0x20000 + l * 0x1000 + 0x24
def LINK_TRAINFAIL_COUNT (l : Nat) : Fld := ⟨(LINK_TRAINFAIL l), 31, 0⟩
def LINK_BIPTHR (l : Nat) : Nat := 0x20000 + l * 0x1000 + 0x28
def LINK_BIPTHR_THR (l : Nat) : Fld := ⟨(LINK_BIPTHR l), 31, 0⟩
def LINK_CREDIT (l : Nat) : Nat := 0x20000 + l * 0x1000 + 0x2c
def LINK_CREDIT_STRM (l : Nat) : Fld := ⟨(LINK_CREDIT l), 29, 20⟩
def LINK_CREDIT_RSP (l : Nat) : Fld := ⟨(LINK_CREDIT l), 19, 10⟩
def LINK_CREDIT_CMD (l : Nat) : Fld := ⟨(LINK_CREDIT l), 9, 0⟩
def LANE_EQ_LO (l : Nat) (i : Nat) : Nat := 0x20000 + l * 0x1000 + 0x100 + i * 16
def LANE_EQ_LO_CTLE (l : Nat) (i : Nat) : Fld := ⟨(LANE_EQ_LO l i), 31, 24⟩
def LANE_EQ_LO_POST (l : Nat) (i : Nat) : Fld := ⟨(LANE_EQ_LO l i), 23, 16⟩
def LANE_EQ_LO_MAIN (l : Nat) (i : Nat) : Fld := ⟨(LANE_EQ_LO l i), 15, 8⟩
def LANE_EQ_LO_PRE (l : Nat) (i : Nat) : Fld := ⟨(LANE_EQ_LO l i), 7, 0⟩
def LANE_EQ_HI (l : Nat) (i : Nat) : Nat := 0x20000 + l * 0x1000 + 0x104 + i * 16
def LANE_EQ_HI_RXINV (l : Nat) (i : Nat) : Fld := ⟨(LANE_EQ_HI l i), 25, 25⟩
def LANE_EQ_HI_TXINV (l : Nat) (i : Nat) : Fld := ⟨(LANE_EQ_HI l i), 24, 24⟩
def LANE_EQ_HI_DFE3 (l : Nat) (i : Nat) : Fld := ⟨(LANE_EQ_HI l i), 21, 16⟩
def LANE_EQ_HI_DFE2 (l : Nat) (i : Nat) : Fld := ⟨(LANE_EQ_HI l i), 13, 8⟩
def LANE_EQ_HI_DFE1 (l : Nat) (i : Nat) : Fld := ⟨(LANE_EQ_HI l i), 5, 0⟩
def LANE_STAT (l : Nat) (i : Nat) : Nat := 0x20000 + l * 0x1000 + 0x108 + i * 16
def LANE_STAT_LOWPWR (l : Nat) (i : Nat) : Fld := ⟨(LANE_STAT l i), 2, 2⟩
def LANE_STAT_BLOCK (l : Nat) (i : Nat) : Fld := ⟨(LANE_STAT l i), 1, 1⟩
def LANE_STAT_CDR (l : Nat) (i : Nat) : Fld := ⟨(LANE_STAT l i), 0, 0⟩
def LANE_ERR (l : Nat) (i : Nat) : Nat := 0x20000 + l * 0x1000 + 0x10c + i * 16
def LANE_ERR_COUNT (l : Nat) (i : Nat) : Fld := ⟨(LANE_ERR l i), 31, 0⟩

/-! Naljo engine (chapters 11). -/

def ENG_CTRL : Nat := 0x40000
def ENG_CTRL_CLRSTAT : Fld := ⟨ENG_CTRL, 1, 1⟩
def ENG_CTRL_SLOW : Fld := ⟨ENG_CTRL, 0, 0⟩
def ENG_STATUS : Nat := 0x40004
def ENG_STATUS_HOLDING : Fld := ⟨ENG_STATUS, 17, 17⟩
def ENG_STATUS_SLOW_ACT : Fld := ⟨ENG_STATUS, 16, 16⟩
def ENG_STATUS_SPLIT : Fld := ⟨ENG_STATUS, 8, 0⟩
def MCODE_VERSION : Nat := 0x40008
def MCODE_VERSION_PATCH : Fld := ⟨MCODE_VERSION, 31, 16⟩
def MCODE_VERSION_ROM : Fld := ⟨MCODE_VERSION, 15, 0⟩
def PATCH_FLOOR : Nat := 0x4000c
def PATCH_FLOOR_FLOOR : Fld := ⟨PATCH_FLOOR, 5, 0⟩
def PATCH_DIGEST (i : Nat) : Nat := 0x40010 + i * 4
def PATCH_DIGEST_DIGEST (i : Nat) : Fld := ⟨(PATCH_DIGEST i), 31, 0⟩
def ENG_MAXLEN : Nat := 0x40040
def ENG_MAXLEN_MW : Fld := ⟨ENG_MAXLEN, 12, 0⟩
def ENG_MAXCLK : Nat := 0x40044
def ENG_MAXCLK_CLK : Fld := ⟨ENG_MAXCLK, 16, 0⟩
def ENG_OVR : Nat := 0x40048
def ENG_OVR_COUNT : Fld := ⟨ENG_OVR, 31, 0⟩
def ENG_TRAP : Nat := 0x4004c
def ENG_TRAP_SEEN : Fld := ⟨ENG_TRAP, 31, 31⟩
def ENG_TRAP_CAUSE : Fld := ⟨ENG_TRAP, 7, 0⟩

/-! Security (chapters 13). -/

def LC_STATUS : Nat := 0x50000
def LC_STATUS_LC_COUNT : Fld := ⟨LC_STATUS, 15, 8⟩
def LC_STATUS_PUF_OK : Fld := ⟨LC_STATUS, 7, 7⟩
def LC_STATUS_SEALBLK : Fld := ⟨LC_STATUS, 6, 6⟩
def LC_STATUS_STAGING : Fld := ⟨LC_STATUS, 5, 5⟩
def LC_STATUS_ACCESS : Fld := ⟨LC_STATUS, 4, 2⟩
def LC_STATUS_STATE : Fld := ⟨LC_STATUS, 1, 0⟩
def TAMPER_STATUS : Nat := 0x50004
def TAMPER_STATUS_SRC : Fld := ⟨TAMPER_STATUS, 5, 0⟩
def TAMPER_GEN : Nat := 0x50008
def TAMPER_GEN_GEN : Fld := ⟨TAMPER_GEN, 6, 0⟩
def DEVICE_ID (i : Nat) : Nat := 0x50010 + i * 4
def DEVICE_ID_ID (i : Nat) : Fld := ⟨(DEVICE_ID i), 31, 0⟩
def OWNER_DIGEST (i : Nat) : Nat := 0x50020 + i * 4
def OWNER_DIGEST_DIGEST (i : Nat) : Fld := ⟨(OWNER_DIGEST i), 31, 0⟩
def POLICY_DEFAULT : Nat := 0x50060
def POLICY_DEFAULT_POLICY : Fld := ⟨POLICY_DEFAULT, 31, 0⟩
def SEAL_TILES_LO : Nat := 0x50064
def SEAL_TILES_LO_TILES : Fld := ⟨SEAL_TILES_LO, 31, 0⟩
def SEAL_TILES_HI : Nat := 0x50068
def SEAL_TILES_HI_TILES : Fld := ⟨SEAL_TILES_HI, 31, 0⟩
def ATT_COUNT : Nat := 0x5006c
def ATT_COUNT_COUNT : Fld := ⟨ATT_COUNT, 31, 0⟩
def BUNDLE_CTL (i : Nat) : Nat := 0x50100 + i * 32
def BUNDLE_CTL_VALID (i : Nat) : Fld := ⟨(BUNDLE_CTL i), 31, 31⟩
def BUNDLE_CTL_STEPS (i : Nat) : Fld := ⟨(BUNDLE_CTL i), 15, 0⟩
def BUNDLE_TILES_LO (i : Nat) : Nat := 0x50104 + i * 32
def BUNDLE_TILES_LO_TILES (i : Nat) : Fld := ⟨(BUNDLE_TILES_LO i), 31, 0⟩
def BUNDLE_TILES_HI (i : Nat) : Nat := 0x50108 + i * 32
def BUNDLE_TILES_HI_TILES (i : Nat) : Fld := ⟨(BUNDLE_TILES_HI i), 31, 0⟩
def BUNDLE_ID_LO (i : Nat) : Nat := 0x5010c + i * 32
def BUNDLE_ID_LO_ID (i : Nat) : Fld := ⟨(BUNDLE_ID_LO i), 31, 0⟩
def BUNDLE_ID_HI (i : Nat) : Nat := 0x50110 + i * 32
def BUNDLE_ID_HI_ID (i : Nat) : Fld := ⟨(BUNDLE_ID_HI i), 31, 0⟩
def BUNDLE_POLICY (i : Nat) : Nat := 0x50114 + i * 32
def BUNDLE_POLICY_POLICY (i : Nat) : Fld := ⟨(BUNDLE_POLICY i), 31, 0⟩

/-! Safety and sentinels (chapters 15, 06). -/

def SF_CFG : Nat := 0x60000
def SF_CFG_LOCK : Fld := ⟨SF_CFG, 1, 1⟩
def SF_CFG_SF3_DSE : Fld := ⟨SF_CFG, 0, 0⟩
def SF_STATUS : Nat := 0x60004
def SF_STATUS_FE_OFF : Fld := ⟨SF_STATUS, 8, 8⟩
def SF_STATUS_SF : Fld := ⟨SF_STATUS, 4, 0⟩
def SF_LAST : Nat := 0x60008
def SF_LAST_UNIT : Fld := ⟨SF_LAST, 25, 16⟩
def SF_LAST_SF : Fld := ⟨SF_LAST, 2, 0⟩
def FENCE_CH (i : Nat) : Nat := 0x60100 + i * 4
def FENCE_CH_FENCE (i : Nat) : Fld := ⟨(FENCE_CH i), 31, 0⟩
def FENCE_TILE (i : Nat) : Nat := 0x60180 + i * 4
def FENCE_TILE_FENCE (i : Nat) : Fld := ⟨(FENCE_TILE i), 31, 0⟩
def FENCE_CORE (i : Nat) : Nat := 0x60188 + i * 4
def FENCE_CORE_FENCE (i : Nat) : Fld := ⟨(FENCE_CORE i), 31, 0⟩
def FENCE_CORE2 : Nat := 0x60190
def FENCE_CORE2_FENCE : Fld := ⟨FENCE_CORE2, 3, 0⟩
def FENCE_SNT (i : Nat) : Nat := 0x60198 + i * 4
def FENCE_SNT_FENCE (i : Nat) : Fld := ⟨(FENCE_SNT i), 31, 0⟩
def FENCE_LAST : Nat := 0x601a0
def FENCE_LAST_UNIT : Fld := ⟨FENCE_LAST, 25, 16⟩
def FENCE_LAST_CAUSE : Fld := ⟨FENCE_LAST, 7, 4⟩
def FENCE_LAST_KIND : Fld := ⟨FENCE_LAST, 2, 0⟩
def SNT_CFG (i : Nat) : Nat := 0x61000 + i * 16
def SNT_CFG_DEB (i : Nat) : Fld := ⟨(SNT_CFG i), 11, 6⟩
def SNT_CFG_HYST (i : Nat) : Fld := ⟨(SNT_CFG i), 5, 4⟩
def SNT_CFG_EN (i : Nat) : Fld := ⟨(SNT_CFG i), 0, 0⟩
def SNT_WIN (i : Nat) : Nat := 0x61004 + i * 16
def SNT_WIN_VHI (i : Nat) : Fld := ⟨(SNT_WIN i), 31, 16⟩
def SNT_WIN_VLO (i : Nat) : Fld := ⟨(SNT_WIN i), 15, 0⟩
def SNT_MAP_LO (i : Nat) : Nat := 0x61008 + i * 16
def SNT_MAP_LO_MAP (i : Nat) : Fld := ⟨(SNT_MAP_LO i), 31, 0⟩
def SNT_MAP_HI (i : Nat) : Nat := 0x6100c + i * 16
def SNT_MAP_HI_MAP (i : Nat) : Fld := ⟨(SNT_MAP_HI i), 31, 0⟩
def DSE_EN (i : Nat) : Nat := 0x61400 + i * 4
def DSE_EN_EN (i : Nat) : Fld := ⟨(DSE_EN i), 31, 0⟩
def DSE_OUT (i : Nat) : Nat := 0x61408 + i * 4
def DSE_OUT_OUT (i : Nat) : Fld := ⟨(DSE_OUT i), 31, 0⟩
def SNT_VIOL (i : Nat) : Nat := 0x61410 + i * 4
def SNT_VIOL_VIOL (i : Nat) : Fld := ⟨(SNT_VIOL i), 31, 0⟩
def SNT_KNOWN (i : Nat) : Nat := 0x61418 + i * 4
def SNT_KNOWN_KNOWN (i : Nat) : Fld := ⟨(SNT_KNOWN i), 31, 0⟩
def SNT_FENCED (i : Nat) : Nat := 0x61420 + i * 4
def SNT_FENCED_FENCED (i : Nat) : Fld := ⟨(SNT_FENCED i), 31, 0⟩
def DSE_DROP (i : Nat) : Nat := 0x61428 + i * 4
def DSE_DROP_DROP (i : Nat) : Fld := ⟨(DSE_DROP i), 31, 0⟩

/-! Power and thermal (chapters 17). -/

def PWR_CFG : Nat := 0x70000
def PWR_CFG_BUDGET : Fld := ⟨PWR_CFG, 15, 0⟩
def THR_CFG : Nat := 0x70004
def THR_CFG_RELEASE : Fld := ⟨THR_CFG, 31, 24⟩
def THR_CFG_START : Fld := ⟨THR_CFG, 23, 16⟩
def THR_CFG_FALL : Fld := ⟨THR_CFG, 15, 8⟩
def THR_CFG_RISE : Fld := ⟨THR_CFG, 7, 0⟩
def THR_STATUS : Nat := 0x70008
def THR_STATUS_HOT : Fld := ⟨THR_STATUS, 23, 16⟩
def THR_STATUS_ABORTED : Fld := ⟨THR_STATUS, 8, 8⟩
def THR_STATUS_SUBST_HOT : Fld := ⟨THR_STATUS, 7, 7⟩
def THR_STATUS_RATE_WARN : Fld := ⟨THR_STATUS, 6, 6⟩
def THR_STATUS_STAGES : Fld := ⟨THR_STATUS, 5, 3⟩
def THR_STATUS_LEVEL : Fld := ⟨THR_STATUS, 2, 0⟩
def TJ_MAX : Nat := 0x7000c
def TJ_MAX_SENSOR : Fld := ⟨TJ_MAX, 23, 16⟩
def TJ_MAX_TEMP : Fld := ⟨TJ_MAX, 15, 0⟩
def PWR_MEAS : Nat := 0x70010
def PWR_MEAS_MW : Fld := ⟨PWR_MEAS, 31, 0⟩
def THS_FAIL (i : Nat) : Nat := 0x70020 + i * 4
def THS_FAIL_FAIL (i : Nat) : Fld := ⟨(THS_FAIL i), 31, 0⟩
def SUP_STATUS : Nat := 0x70040
def SUP_STATUS_WINDOW : Fld := ⟨SUP_STATUS, 24, 24⟩
def SUP_STATUS_SEEN : Fld := ⟨SUP_STATUS, 15, 8⟩
def SUP_STATUS_OUT : Fld := ⟨SUP_STATUS, 7, 0⟩
def SUP_EXC : Nat := 0x70044
def SUP_EXC_COUNT : Fld := ⟨SUP_EXC, 31, 0⟩
def SUP_LAST_LO : Nat := 0x70048
def SUP_LAST_LO_TIME : Fld := ⟨SUP_LAST_LO, 31, 0⟩
def SUP_LAST_HI : Nat := 0x7004c
def SUP_LAST_HI_TIME : Fld := ⟨SUP_LAST_HI, 31, 0⟩
def SUP_LAST_LEN : Nat := 0x70050
def SUP_LAST_LEN_NS : Fld := ⟨SUP_LAST_LEN, 31, 0⟩
def SUP_LAST_INFO : Nat := 0x70054
def SUP_LAST_INFO_STOP : Fld := ⟨SUP_LAST_INFO, 3, 3⟩
def SUP_LAST_INFO_RAIL : Fld := ⟨SUP_LAST_INFO, 2, 0⟩
def THS_READ (i : Nat) : Nat := 0x70400 + i * 4
def THS_READ_DISAGREE (i : Nat) : Fld := ⟨(THS_READ i), 17, 17⟩
def THS_READ_SUBST (i : Nat) : Fld := ⟨(THS_READ i), 16, 16⟩
def THS_READ_TEMP (i : Nat) : Fld := ⟨(THS_READ i), 15, 0⟩

/-! Moraine and counters (chapters 18). -/

def MRN_CTRL : Nat := 0x80000
def MRN_CTRL_FLUSH : Fld := ⟨MRN_CTRL, 1, 1⟩
def MRN_CTRL_CLEAR : Fld := ⟨MRN_CTRL, 0, 0⟩
def MRN_STATUS : Nat := 0x80004
def MRN_STATUS_FLASHERR : Fld := ⟨MRN_STATUS, 11, 11⟩
def MRN_STATUS_LOST : Fld := ⟨MRN_STATUS, 10, 10⟩
def MRN_STATUS_AUTHFAIL : Fld := ⟨MRN_STATUS, 9, 9⟩
def MRN_STATUS_FLUSHING : Fld := ⟨MRN_STATUS, 8, 8⟩
def MRN_STATUS_STAGED : Fld := ⟨MRN_STATUS, 7, 0⟩
def MRN_SEQ : Nat := 0x80008
def MRN_SEQ_SEQ : Fld := ⟨MRN_SEQ, 31, 0⟩
def MRN_OLDEST : Nat := 0x8000c
def MRN_OLDEST_SEQ : Fld := ⟨MRN_OLDEST, 31, 0⟩
def MRN_PWRCYC : Nat := 0x80010
def MRN_PWRCYC_COUNT : Fld := ⟨MRN_PWRCYC, 31, 0⟩
def MRN_HOURS : Nat := 0x80014
def MRN_HOURS_HOURS : Fld := ⟨MRN_HOURS, 31, 0⟩
def MRN_LOSTCNT : Nat := 0x80018
def MRN_LOSTCNT_COUNT : Fld := ⟨MRN_LOSTCNT, 31, 0⟩
def MRN_CURSOR : Nat := 0x80020
def MRN_CURSOR_SEQ : Fld := ⟨MRN_CURSOR, 31, 0⟩
def MRN_RSTAT : Nat := 0x80024
def MRN_RSTAT_AUTOINC : Fld := ⟨MRN_RSTAT, 8, 8⟩
def MRN_RSTAT_ABSENT : Fld := ⟨MRN_RSTAT, 5, 4⟩
def MRN_RSTAT_BUSY : Fld := ⟨MRN_RSTAT, 3, 3⟩
def MRN_RSTAT_STAGED : Fld := ⟨MRN_RSTAT, 2, 2⟩
def MRN_RSTAT_VERIFIED : Fld := ⟨MRN_RSTAT, 1, 1⟩
def MRN_RSTAT_VALID : Fld := ⟨MRN_RSTAT, 0, 0⟩
def MRN_WIN (i : Nat) : Nat := 0x80040 + i * 4
def MRN_WIN_WORD (i : Nat) : Fld := ⟨(MRN_WIN i), 31, 0⟩
def CNT_CFG : Nat := 0x80100
def CNT_CFG_RESUME : Fld := ⟨CNT_CFG, 2, 2⟩
def CNT_CFG_FROZEN : Fld := ⟨CNT_CFG, 1, 1⟩
def CNT_CFG_OBS : Fld := ⟨CNT_CFG, 0, 0⟩
def FROST_STATUS : Nat := 0x80104
def FROST_STATUS_VALID : Fld := ⟨FROST_STATUS, 1, 1⟩
def FROST_STATUS_PENDING : Fld := ⟨FROST_STATUS, 0, 0⟩
def FROST_TIME_LO : Nat := 0x80108
def FROST_TIME_LO_TIME : Fld := ⟨FROST_TIME_LO, 31, 0⟩
def FROST_TIME_HI : Nat := 0x8010c
def FROST_TIME_HI_TIME : Fld := ⟨FROST_TIME_HI, 31, 0⟩
def DUMP_CTRL : Nat := 0x80110
def DUMP_CTRL_RELEASE : Fld := ⟨DUMP_CTRL, 0, 0⟩
def DUMP_STATUS : Nat := 0x80114
def DUMP_STATUS_MISSED : Fld := ⟨DUMP_STATUS, 31, 16⟩
def DUMP_STATUS_CAUSE : Fld := ⟨DUMP_STATUS, 15, 8⟩
def DUMP_STATUS_FLASHVALID : Fld := ⟨DUMP_STATUS, 2, 2⟩
def DUMP_STATUS_COPYING : Fld := ⟨DUMP_STATUS, 1, 1⟩
def DUMP_STATUS_HELD : Fld := ⟨DUMP_STATUS, 0, 0⟩
def DUMP_LEN : Nat := 0x80118
def DUMP_LEN_LENGTH : Fld := ⟨DUMP_LEN, 31, 0⟩
def EVC_LO (i : Nat) : Nat := 0x81000 + i * 8
def EVC_LO_LO (i : Nat) : Fld := ⟨(EVC_LO i), 31, 0⟩
def EVC_HI (i : Nat) : Nat := 0x81004 + i * 8
def EVC_HI_HI (i : Nat) : Fld := ⟨(EVC_HI i), 15, 0⟩
def EVS_LO (i : Nat) : Nat := 0x82000 + i * 8
def EVS_LO_LO (i : Nat) : Fld := ⟨(EVS_LO i), 31, 0⟩
def EVS_HI (i : Nat) : Nat := 0x82004 + i * 8
def EVS_HI_HI (i : Nat) : Fld := ⟨(EVS_HI i), 15, 0⟩
def PCNT_CFG (i : Nat) : Nat := 0x83000 + i * 16
def PCNT_CFG_EN (i : Nat) : Fld := ⟨(PCNT_CFG i), 14, 14⟩
def PCNT_CFG_OVFINT (i : Nat) : Fld := ⟨(PCNT_CFG i), 13, 13⟩
def PCNT_CFG_CHAIN (i : Nat) : Fld := ⟨(PCNT_CFG i), 12, 12⟩
def PCNT_CFG_EVENT (i : Nat) : Fld := ⟨(PCNT_CFG i), 8, 0⟩
def PCNT_VAL (i : Nat) : Nat := 0x83004 + i * 16
def PCNT_VAL_VALUE (i : Nat) : Fld := ⟨(PCNT_VAL i), 31, 0⟩
def PCNT_SNAP (i : Nat) : Nat := 0x83008 + i * 16
def PCNT_SNAP_VALUE (i : Nat) : Fld := ⟨(PCNT_SNAP i), 31, 0⟩
def PCNT_SAMP (i : Nat) : Nat := 0x8300c + i * 16
def PCNT_SAMP_SAMPLE (i : Nat) : Fld := ⟨(PCNT_SAMP i), 31, 0⟩
def PCNT_OVF (i : Nat) : Nat := 0x83400 + i * 4
def PCNT_OVF_OVF (i : Nat) : Fld := ⟨(PCNT_OVF i), 31, 0⟩

/-! Management ports (chapters 19). -/

def VG_CFG : Nat := 0x90000
def VG_CFG_AUTOINC : Fld := ⟨VG_CFG, 8, 8⟩
def VG_CFG_ADDR : Fld := ⟨VG_CFG, 7, 0⟩
def VG_STAT : Nat := 0x90004
def VG_STAT_FCAUSE : Fld := ⟨VG_STAT, 7, 6⟩
def VG_STAT_OVERRUN : Fld := ⟨VG_STAT, 5, 5⟩
def VG_STAT_FERR : Fld := ⟨VG_STAT, 4, 4⟩
def VG_STAT_BUSY : Fld := ⟨VG_STAT, 3, 3⟩
def VG_STAT_ACTIVE : Fld := ⟨VG_STAT, 2, 2⟩
def VG_FERR : Nat := 0x90008
def VG_FERR_COUNT : Fld := ⟨VG_FERR, 31, 0⟩
def VG_LATCHED : Nat := 0x9000c
def VG_LATCHED_COUNT : Fld := ⟨VG_LATCHED, 31, 0⟩
def VG_VA : Nat := 0x90010
def VG_VA_VA : Fld := ⟨VG_VA, 31, 0⟩
def PP_CTRL : Nat := 0x90100
def PP_CTRL_FLUSH : Fld := ⟨PP_CTRL, 0, 0⟩
def PP_STAT : Nat := 0x90104
def PP_STAT_RXUNF : Fld := ⟨PP_STAT, 20, 20⟩
def PP_STAT_CONTBRK : Fld := ⟨PP_STAT, 19, 19⟩
def PP_STAT_INTERNAL : Fld := ⟨PP_STAT, 18, 18⟩
def PP_STAT_ACTIVE : Fld := ⟨PP_STAT, 17, 17⟩
def PP_STAT_RXCOUNT : Fld := ⟨PP_STAT, 14, 8⟩
def PP_STAT_QCOUNT : Fld := ⟨PP_STAT, 6, 0⟩
def PP_TXDATA : Nat := 0x90108
def PP_TXDATA_DATA : Fld := ⟨PP_TXDATA, 31, 0⟩
def PP_TXCTL : Nat := 0x9010c
def PP_TXCTL_RSV : Fld := ⟨PP_TXCTL, 31, 15⟩
def PP_TXCTL_SEL : Fld := ⟨PP_TXCTL, 14, 12⟩
def PP_TXCTL_RSV2 : Fld := ⟨PP_TXCTL, 11, 10⟩
def PP_TXCTL_CONT : Fld := ⟨PP_TXCTL, 9, 9⟩
def PP_TXCTL_DIR : Fld := ⟨PP_TXCTL, 8, 8⟩
def PP_TXCTL_RSV3 : Fld := ⟨PP_TXCTL, 7, 6⟩
def PP_TXCTL_LEN : Fld := ⟨PP_TXCTL, 5, 0⟩
def PP_RXDATA : Nat := 0x90110
def PP_RXDATA_DATA : Fld := ⟨PP_RXDATA, 31, 0⟩
def PP_SELCFG (i : Nat) : Nat := 0x90120 + i * 8
def PP_SELCFG_SELMODE (i : Nat) : Fld := ⟨(PP_SELCFG i), 8, 8⟩
def PP_SELCFG_DIV (i : Nat) : Fld := ⟨(PP_SELCFG i), 7, 0⟩
def PP_SELDLY (i : Nat) : Nat := 0x90124 + i * 8
def PP_SELDLY_GAP (i : Nat) : Fld := ⟨(PP_SELDLY i), 31, 24⟩
def PP_SELDLY_POST (i : Nat) : Fld := ⟨(PP_SELDLY i), 23, 16⟩
def PP_SELDLY_PRE (i : Nat) : Fld := ⟨(PP_SELDLY i), 15, 8⟩

/-! Memory control (chapters 14). -/

def MEM_ECC_CORR : Nat := 0xa0000
def MEM_ECC_CORR_COUNT : Fld := ⟨MEM_ECC_CORR, 31, 0⟩
def MEM_ECC_UNC : Nat := 0xa0004
def MEM_ECC_UNC_COUNT : Fld := ⟨MEM_ECC_UNC, 31, 0⟩
def MEM_ECC_LAST : Nat := 0xa0008
def MEM_ECC_LAST_VALID : Fld := ⟨MEM_ECC_LAST, 31, 31⟩
def MEM_ECC_LAST_CORE : Fld := ⟨MEM_ECC_LAST, 13, 8⟩
def MEM_ECC_LAST_SPACE : Fld := ⟨MEM_ECC_LAST, 7, 0⟩
def MEM_ECC_LADDR : Nat := 0xa000c
def MEM_ECC_LADDR_OFFSET : Fld := ⟨MEM_ECC_LADDR, 22, 0⟩
def BT_CFG : Nat := 0xa0010
def BT_CFG_INTERVAL : Fld := ⟨BT_CFG, 31, 16⟩
def BT_CFG_EN : Fld := ⟨BT_CFG, 0, 0⟩
def BT_STATUS : Nat := 0xa0014
def BT_STATUS_SUSP : Fld := ⟨BT_STATUS, 31, 31⟩
def BT_STATUS_REGION : Fld := ⟨BT_STATUS, 19, 0⟩
def BT_PASSES : Nat := 0xa0018
def BT_PASSES_COUNT : Fld := ⟨BT_PASSES, 31, 0⟩
def BT_FAILS : Nat := 0xa001c
def BT_FAILS_COUNT : Fld := ⟨BT_FAILS, 31, 0⟩
def REP_STATUS : Nat := 0xa0020
def REP_STATUS_OTPFULL : Fld := ⟨REP_STATUS, 31, 31⟩
def REP_STATUS_NOSPARE : Fld := ⟨REP_STATUS, 30, 30⟩
def REP_STATUS_PEND : Fld := ⟨REP_STATUS, 8, 0⟩
def REP_OTP : Nat := 0xa0024
def REP_OTP_FACTORY : Fld := ⟨REP_OTP, 26, 16⟩
def REP_OTP_FIELD : Fld := ⟨REP_OTP, 8, 0⟩
def FIRN_RETIRED : Nat := 0xa0028
def FIRN_RETIRED_BANKS : Fld := ⟨FIRN_RETIRED, 7, 0⟩

/-! Logical tile (chapters 03, 02, 04, 05, 06, 07, 08, 09, 17). -/

def SEQ_RANGE (t : Nat) : Nat := 0x100000 + t * 0x10000 + 0x0
def SEQ_RANGE_LAST (t : Nat) : Fld := ⟨(SEQ_RANGE t), 29, 16⟩
def SEQ_RANGE_FIRST (t : Nat) : Fld := ⟨(SEQ_RANGE t), 13, 0⟩
def SEQ_STATUS (t : Nat) : Nat := 0x100000 + t * 0x10000 + 0x4
def SEQ_STATUS_PC (t : Nat) : Fld := ⟨(SEQ_STATUS t), 29, 16⟩
def SEQ_STATUS_SP (t : Nat) : Fld := ⟨(SEQ_STATUS t), 15, 12⟩
def SEQ_STATUS_CAUSE (t : Nat) : Fld := ⟨(SEQ_STATUS t), 11, 8⟩
def SEQ_STATUS_STALLED (t : Nat) : Fld := ⟨(SEQ_STATUS t), 4, 4⟩
def SEQ_STATUS_WAITING (t : Nat) : Fld := ⟨(SEQ_STATUS t), 3, 3⟩
def SEQ_STATUS_STATE (t : Nat) : Fld := ⟨(SEQ_STATUS t), 2, 0⟩
def SEQ_ARMERR (t : Nat) : Nat := 0x100000 + t * 0x10000 + 0x8
def SEQ_ARMERR_REASON (t : Nat) : Fld := ⟨(SEQ_ARMERR t), 20, 16⟩
def SEQ_ARMERR_ADDR (t : Nat) : Fld := ⟨(SEQ_ARMERR t), 13, 0⟩
def COND_FLAGS (t : Nat) : Nat := 0x100000 + t * 0x10000 + 0xc
def COND_FLAGS_TRIG (t : Nat) : Fld := ⟨(COND_FLAGS t), 7, 4⟩
def COND_FLAGS_LINKEV (t : Nat) : Fld := ⟨(COND_FLAGS t), 3, 3⟩
def COND_FLAGS_MASKV (t : Nat) : Fld := ⟨(COND_FLAGS t), 2, 2⟩
def COND_FLAGS_MATCH (t : Nat) : Fld := ⟨(COND_FLAGS t), 1, 1⟩
def COND_FLAGS_FAIL_ANY (t : Nat) : Fld := ⟨(COND_FLAGS t), 0, 0⟩
def HOLD_VEC_LO (t : Nat) : Nat := 0x100000 + t * 0x10000 + 0x10
def HOLD_VEC_LO_HOLD (t : Nat) : Fld := ⟨(HOLD_VEC_LO t), 31, 0⟩
def HOLD_VEC_HI (t : Nat) : Nat := 0x100000 + t * 0x10000 + 0x14
def HOLD_VEC_HI_HOLD (t : Nat) : Fld := ⟨(HOLD_VEC_HI t), 31, 0⟩
def SEQ_TIME_LO (t : Nat) : Nat := 0x100000 + t * 0x10000 + 0x18
def SEQ_TIME_LO_TIME_LO (t : Nat) : Fld := ⟨(SEQ_TIME_LO t), 31, 0⟩
def SEQ_TIME_HI (t : Nat) : Nat := 0x100000 + t * 0x10000 + 0x1c
def SEQ_TIME_HI_TIME_HI (t : Nat) : Fld := ⟨(SEQ_TIME_HI t), 31, 0⟩
def CYCLES_LO (t : Nat) : Nat := 0x100000 + t * 0x10000 + 0x20
def CYCLES_LO_CYCLES (t : Nat) : Fld := ⟨(CYCLES_LO t), 31, 0⟩
def CYCLES_HI (t : Nat) : Nat := 0x100000 + t * 0x10000 + 0x24
def CYCLES_HI_CYCLES (t : Nat) : Fld := ⟨(CYCLES_HI t), 31, 0⟩
def FILL_COUNT (t : Nat) : Nat := 0x100000 + t * 0x10000 + 0x28
def FILL_COUNT_COUNT (t : Nat) : Fld := ⟨(FILL_COUNT t), 31, 0⟩
def FILL_SUM_LO (t : Nat) : Nat := 0x100000 + t * 0x10000 + 0x2c
def FILL_SUM_LO_SUM (t : Nat) : Fld := ⟨(FILL_SUM_LO t), 31, 0⟩
def FILL_SUM_HI (t : Nat) : Nat := 0x100000 + t * 0x10000 + 0x30
def FILL_SUM_HI_SUM (t : Nat) : Fld := ⟨(FILL_SUM_HI t), 31, 0⟩
def FILL_MAX_LO (t : Nat) : Nat := 0x100000 + t * 0x10000 + 0x34
def FILL_MAX_LO_MAX (t : Nat) : Fld := ⟨(FILL_MAX_LO t), 31, 0⟩
def FILL_MAX_HI (t : Nat) : Nat := 0x100000 + t * 0x10000 + 0x38
def FILL_MAX_HI_MAX (t : Nat) : Fld := ⟨(FILL_MAX_HI t), 15, 0⟩
def LOOP (t : Nat) (i : Nat) : Nat := 0x100000 + t * 0x10000 + 0x40 + i * 4
def LOOP_VALUE (t : Nat) (i : Nat) : Fld := ⟨(LOOP t i), 31, 0⟩
def STACK (t : Nat) (i : Nat) : Nat := 0x100000 + t * 0x10000 + 0x60 + i * 4
def STACK_ADDR (t : Nat) (i : Nat) : Fld := ⟨(STACK t i), 13, 0⟩
def LINKEV_FLAG (t : Nat) (i : Nat) : Nat := 0x100000 + t * 0x10000 + 0x80 + i * 4
def LINKEV_FLAG_FLAGS (t : Nat) (i : Nat) : Fld := ⟨(LINKEV_FLAG t i), 31, 0⟩
def APG_CFG (t : Nat) : Nat := 0x100000 + t * 0x10000 + 0x100
def APG_CFG_DFUNC (t : Nat) : Fld := ⟨(APG_CFG t), 22, 20⟩
def APG_CFG_DSCR (t : Nat) : Fld := ⟨(APG_CFG t), 18, 18⟩
def APG_CFG_ASCR_Y (t : Nat) : Fld := ⟨(APG_CFG t), 17, 17⟩
def APG_CFG_ASCR_X (t : Nat) : Fld := ⟨(APG_CFG t), 16, 16⟩
def APG_CFG_YBITS (t : Nat) : Fld := ⟨(APG_CFG t), 12, 8⟩
def APG_CFG_XBITS (t : Nat) : Fld := ⟨(APG_CFG t), 4, 0⟩
def APG_X (t : Nat) : Nat := 0x100000 + t * 0x10000 + 0x104
def APG_X_VALUE (t : Nat) : Fld := ⟨(APG_X t), 23, 0⟩
def APG_Y (t : Nat) : Nat := 0x100000 + t * 0x10000 + 0x108
def APG_Y_VALUE (t : Nat) : Fld := ⟨(APG_Y t), 23, 0⟩
def XBASE0 (t : Nat) : Nat := 0x100000 + t * 0x10000 + 0x10c
def XBASE0_VALUE (t : Nat) : Fld := ⟨(XBASE0 t), 23, 0⟩
def XBASE1 (t : Nat) : Nat := 0x100000 + t * 0x10000 + 0x110
def XBASE1_VALUE (t : Nat) : Fld := ⟨(XBASE1 t), 23, 0⟩
def YBASE0 (t : Nat) : Nat := 0x100000 + t * 0x10000 + 0x114
def YBASE0_VALUE (t : Nat) : Fld := ⟨(YBASE0 t), 23, 0⟩
def YBASE1 (t : Nat) : Nat := 0x100000 + t * 0x10000 + 0x118
def YBASE1_VALUE (t : Nat) : Fld := ⟨(YBASE1 t), 23, 0⟩
def DBASE (t : Nat) : Nat := 0x100000 + t * 0x10000 + 0x11c
def DBASE_VALUE (t : Nat) : Fld := ⟨(DBASE t), 31, 0⟩
def DPOLY (t : Nat) : Nat := 0x100000 + t * 0x10000 + 0x120
def DPOLY_VALUE (t : Nat) : Fld := ⟨(DPOLY t), 31, 0⟩
def LFSR (t : Nat) : Nat := 0x100000 + t * 0x10000 + 0x124
def LFSR_VALUE (t : Nat) : Fld := ⟨(LFSR t), 31, 0⟩
def DCTL (t : Nat) : Nat := 0x100000 + t * 0x10000 + 0x128
def DCTL_DINV (t : Nat) : Fld := ⟨(DCTL t), 0, 0⟩
def ASSIGN (t : Nat) (i : Nat) : Nat := 0x100000 + t * 0x10000 + 0x140 + i * 4
def ASSIGN_ENTRY_HI (t : Nat) (i : Nat) : Fld := ⟨(ASSIGN t i), 31, 16⟩
def ASSIGN_ENTRY_LO (t : Nat) (i : Nat) : Fld := ⟨(ASSIGN t i), 15, 0⟩
def PERIOD_LO (t : Nat) (i : Nat) : Nat := 0x100000 + t * 0x10000 + 0x200 + i * 8
def PERIOD_LO_PERIOD (t : Nat) (i : Nat) : Fld := ⟨(PERIOD_LO t i), 31, 0⟩
def PERIOD_HI (t : Nat) (i : Nat) : Nat := 0x100000 + t * 0x10000 + 0x204 + i * 8
def PERIOD_HI_PERIOD (t : Nat) (i : Nat) : Fld := ⟨(PERIOD_HI t i), 15, 0⟩
def SEG_STATE (t : Nat) (i : Nat) : Nat := 0x100000 + t * 0x10000 + 0x300 + i * 4
def SEG_STATE_SEALED_STATE (t : Nat) (i : Nat) : Fld := ⟨(SEG_STATE t i), 31, 0⟩
def STRM_CFG (t : Nat) : Nat := 0x100000 + t * 0x10000 + 0x308
def STRM_CFG_MEMBER (t : Nat) : Fld := ⟨(STRM_CFG t), 24, 24⟩
def STRM_CFG_GROUP (t : Nat) : Fld := ⟨(STRM_CFG t), 23, 16⟩
def STRM_CFG_LOW_WATER (t : Nat) : Fld := ⟨(STRM_CFG t), 12, 9⟩
def STRM_CFG_RING_LEN (t : Nat) : Fld := ⟨(STRM_CFG t), 8, 4⟩
def STRM_CFG_RING_FIRST (t : Nat) : Fld := ⟨(STRM_CFG t), 3, 0⟩
def STRM_STATUS (t : Nat) : Nat := 0x100000 + t * 0x10000 + 0x30c
def STRM_STATUS_CRCERR (t : Nat) : Fld := ⟨(STRM_STATUS t), 18, 18⟩
def STRM_STATUS_BROKEN (t : Nat) : Fld := ⟨(STRM_STATUS t), 17, 17⟩
def STRM_STATUS_LOW (t : Nat) : Fld := ⟨(STRM_STATUS t), 16, 16⟩
def STRM_STATUS_AHEAD (t : Nat) : Fld := ⟨(STRM_STATUS t), 12, 8⟩
def STRM_STATUS_FILL (t : Nat) : Fld := ⟨(STRM_STATUS t), 7, 4⟩
def STRM_STATUS_CUR (t : Nat) : Fld := ⟨(STRM_STATUS t), 3, 0⟩
def STALL_LIMIT (t : Nat) : Nat := 0x100000 + t * 0x10000 + 0x310
def STALL_LIMIT_LIMIT (t : Nat) : Fld := ⟨(STALL_LIMIT t), 31, 0⟩
def STALL_COUNT (t : Nat) : Nat := 0x100000 + t * 0x10000 + 0x314
def STALL_COUNT_COUNT (t : Nat) : Fld := ⟨(STALL_COUNT t), 31, 0⟩
def STALL_SUM_LO (t : Nat) : Nat := 0x100000 + t * 0x10000 + 0x318
def STALL_SUM_LO_SUM (t : Nat) : Fld := ⟨(STALL_SUM_LO t), 31, 0⟩
def STALL_SUM_HI (t : Nat) : Nat := 0x100000 + t * 0x10000 + 0x31c
def STALL_SUM_HI_SUM (t : Nat) : Fld := ⟨(STALL_SUM_HI t), 31, 0⟩
def STALL_MAX (t : Nat) : Nat := 0x100000 + t * 0x10000 + 0x320
def STALL_MAX_MAX (t : Nat) : Fld := ⟨(STALL_MAX t), 31, 0⟩
def STRM_UNDEL (t : Nat) : Nat := 0x100000 + t * 0x10000 + 0x324
def STRM_UNDEL_UNDEL (t : Nat) : Fld := ⟨(STRM_UNDEL t), 31, 0⟩
def TIM_DROP_COUNT (t : Nat) : Nat := 0x100000 + t * 0x10000 + 0x400
def TIM_DROP_COUNT_COUNT (t : Nat) : Fld := ⟨(TIM_DROP_COUNT t), 31, 0⟩
def TIM_DROP_INFO (t : Nat) : Nat := 0x100000 + t * 0x10000 + 0x404
def TIM_DROP_INFO_EDGE (t : Nat) : Fld := ⟨(TIM_DROP_INFO t), 18, 16⟩
def TIM_DROP_INFO_CAUSE (t : Nat) : Fld := ⟨(TIM_DROP_INFO t), 9, 8⟩
def TIM_DROP_INFO_LANE (t : Nat) : Fld := ⟨(TIM_DROP_INFO t), 3, 0⟩
def TIM_DROP_CYC_LO (t : Nat) : Nat := 0x100000 + t * 0x10000 + 0x408
def TIM_DROP_CYC_LO_CYC (t : Nat) : Fld := ⟨(TIM_DROP_CYC_LO t), 31, 0⟩
def TIM_DROP_CYC_HI (t : Nat) : Nat := 0x100000 + t * 0x10000 + 0x40c
def TIM_DROP_CYC_HI_CYC (t : Nat) : Fld := ⟨(TIM_DROP_CYC_HI t), 31, 0⟩
def TIM_DROP_MASK (t : Nat) : Nat := 0x100000 + t * 0x10000 + 0x410
def TIM_DROP_MASK_LANES (t : Nat) : Fld := ⟨(TIM_DROP_MASK t), 15, 0⟩
def TIM_ARMERR (t : Nat) : Nat := 0x100000 + t * 0x10000 + 0x414
def TIM_ARMERR_SET (t : Nat) : Fld := ⟨(TIM_ARMERR t), 13, 8⟩
def TIM_ARMERR_LANE (t : Nat) : Fld := ⟨(TIM_ARMERR t), 3, 0⟩
def LVL_ARMERR (t : Nat) : Nat := 0x100000 + t * 0x10000 + 0x418
def LVL_ARMERR_SET (t : Nat) : Fld := ⟨(LVL_ARMERR t), 21, 16⟩
def LVL_ARMERR_SUB (t : Nat) : Fld := ⟨(LVL_ARMERR t), 15, 12⟩
def LVL_ARMERR_LANE (t : Nat) : Fld := ⟨(LVL_ARMERR t), 3, 0⟩
def PROF_CTL (t : Nat) : Nat := 0x100000 + t * 0x10000 + 0x500
def PROF_CTL_ACC (t : Nat) : Fld := ⟨(PROF_CTL t), 0, 0⟩
def PROF_STATUS (t : Nat) : Nat := 0x100000 + t * 0x10000 + 0x504
def PROF_STATUS_EPOCHCLR (t : Nat) : Fld := ⟨(PROF_STATUS t), 3, 3⟩
def PROF_STATUS_WARMUP (t : Nat) : Fld := ⟨(PROF_STATUS t), 2, 2⟩
def PROF_STATUS_SUSPECT (t : Nat) : Fld := ⟨(PROF_STATUS t), 1, 1⟩
def PROF_STATUS_BINSAT (t : Nat) : Fld := ⟨(PROF_STATUS t), 0, 0⟩
def PROF_EPOCH (t : Nat) : Nat := 0x100000 + t * 0x10000 + 0x508
def PROF_EPOCH_EPOCH (t : Nat) : Fld := ⟨(PROF_EPOCH t), 31, 0⟩
def CAP_CFG (t : Nat) : Nat := 0x100000 + t * 0x10000 + 0x600
def CAP_CFG_CAPT (t : Nat) : Fld := ⟨(CAP_CFG t), 4, 4⟩
def CAP_CFG_UNK (t : Nat) : Fld := ⟨(CAP_CFG t), 3, 3⟩
def CAP_CFG_FAIL (t : Nat) : Fld := ⟨(CAP_CFG t), 2, 2⟩
def CAP_CFG_MODE (t : Nat) : Fld := ⟨(CAP_CFG t), 1, 1⟩
def CAP_CFG_EN (t : Nat) : Fld := ⟨(CAP_CFG t), 0, 0⟩
def CAP_PRE (t : Nat) : Nat := 0x100000 + t * 0x10000 + 0x604
def CAP_PRE_PRE (t : Nat) : Fld := ⟨(CAP_PRE t), 15, 0⟩
def CAP_POST (t : Nat) : Nat := 0x100000 + t * 0x10000 + 0x608
def CAP_POST_POST (t : Nat) : Fld := ⟨(CAP_POST t), 15, 0⟩
def CAP_HOLD (t : Nat) : Nat := 0x100000 + t * 0x10000 + 0x60c
def CAP_HOLD_KIND (t : Nat) : Fld := ⟨(CAP_HOLD t), 31, 31⟩
def CAP_HOLD_VALUE (t : Nat) : Fld := ⟨(CAP_HOLD t), 30, 0⟩
def CAP_FRAMES (t : Nat) : Nat := 0x100000 + t * 0x10000 + 0x610
def CAP_FRAMES_FRAMES (t : Nat) : Fld := ⟨(CAP_FRAMES t), 15, 0⟩
def TRIG_CFG (t : Nat) : Nat := 0x100000 + t * 0x10000 + 0x614
def TRIG_CFG_SITEQ (t : Nat) : Fld := ⟨(TRIG_CFG t), 19, 19⟩
def TRIG_CFG_DIR (t : Nat) : Fld := ⟨(TRIG_CFG t), 17, 16⟩
def TRIG_CFG_ARG (t : Nat) : Fld := ⟨(TRIG_CFG t), 15, 8⟩
def TRIG_CFG_SRC (t : Nat) : Fld := ⟨(TRIG_CFG t), 3, 0⟩
def TRIG_LEVEL (t : Nat) : Nat := 0x100000 + t * 0x10000 + 0x618
def TRIG_LEVEL_CODE (t : Nat) : Fld := ⟨(TRIG_LEVEL t), 17, 0⟩
def TRIG_HYS (t : Nat) : Nat := 0x100000 + t * 0x10000 + 0x61c
def TRIG_HYS_CODE (t : Nat) : Fld := ⟨(TRIG_HYS t), 17, 0⟩
def TRIG_N (t : Nat) : Nat := 0x100000 + t * 0x10000 + 0x620
def TRIG_N_N (t : Nat) : Fld := ⟨(TRIG_N t), 31, 0⟩
def TRIG_TIME_LO (t : Nat) : Nat := 0x100000 + t * 0x10000 + 0x624
def TRIG_TIME_LO_TIME (t : Nat) : Fld := ⟨(TRIG_TIME_LO t), 31, 0⟩
def TRIG_TIME_HI (t : Nat) : Nat := 0x100000 + t * 0x10000 + 0x628
def TRIG_TIME_HI_TIME (t : Nat) : Fld := ⟨(TRIG_TIME_HI t), 31, 0⟩
def CAP_WR_PTR (t : Nat) : Nat := 0x100000 + t * 0x10000 + 0x62c
def CAP_WR_PTR_VALUE (t : Nat) : Fld := ⟨(CAP_WR_PTR t), 15, 0⟩
def CAP_RD_PTR (t : Nat) : Nat := 0x100000 + t * 0x10000 + 0x630
def CAP_RD_PTR_VALUE (t : Nat) : Fld := ⟨(CAP_RD_PTR t), 15, 0⟩
def CAP_USED (t : Nat) : Nat := 0x100000 + t * 0x10000 + 0x634
def CAP_USED_VALUE (t : Nat) : Fld := ⟨(CAP_USED t), 15, 0⟩
def CAP_STATUS (t : Nat) : Nat := 0x100000 + t * 0x10000 + 0x638
def CAP_STATUS_GAP (t : Nat) : Fld := ⟨(CAP_STATUS t), 20, 20⟩
def CAP_STATUS_STOPPED (t : Nat) : Fld := ⟨(CAP_STATUS t), 19, 19⟩
def CAP_STATUS_DONE (t : Nat) : Fld := ⟨(CAP_STATUS t), 18, 18⟩
def CAP_STATUS_HOLDOFF (t : Nat) : Fld := ⟨(CAP_STATUS t), 17, 17⟩
def CAP_STATUS_POSTING (t : Nat) : Fld := ⟨(CAP_STATUS t), 16, 16⟩
def CAP_STATUS_FRAMES (t : Nat) : Fld := ⟨(CAP_STATUS t), 15, 0⟩
def CAP_LOST (t : Nat) : Nat := 0x100000 + t * 0x10000 + 0x63c
def CAP_LOST_COUNT (t : Nat) : Fld := ⟨(CAP_LOST t), 31, 0⟩
def CAP_CREV (t : Nat) : Nat := 0x100000 + t * 0x10000 + 0x640
def CAP_CREV_COUNT (t : Nat) : Fld := ⟨(CAP_CREV t), 31, 0⟩
def TRIG_IGN (t : Nat) : Nat := 0x100000 + t * 0x10000 + 0x644
def TRIG_IGN_COUNT (t : Nat) : Fld := ⟨(TRIG_IGN t), 31, 0⟩
def WAVE_LANES (t : Nat) : Nat := 0x100000 + t * 0x10000 + 0x648
def WAVE_LANES_LANES (t : Nat) : Fld := ⟨(WAVE_LANES t), 15, 0⟩
def MASK_CFG (t : Nat) : Nat := 0x100000 + t * 0x10000 + 0x64c
def MASK_CFG_EN (t : Nat) : Fld := ⟨(MASK_CFG t), 31, 31⟩
def MASK_CFG_LEN (t : Nat) : Fld := ⟨(MASK_CFG t), 28, 16⟩
def MASK_CFG_MKID (t : Nat) : Fld := ⟨(MASK_CFG t), 15, 8⟩
def MASK_CFG_START (t : Nat) : Fld := ⟨(MASK_CFG t), 7, 6⟩
def MASK_CFG_FLAG (t : Nat) : Fld := ⟨(MASK_CFG t), 5, 5⟩
def MASK_CFG_STOP (t : Nat) : Fld := ⟨(MASK_CFG t), 4, 4⟩
def MASK_CFG_LANE (t : Nat) : Fld := ⟨(MASK_CFG t), 3, 0⟩
def MASK_STATUS (t : Nat) : Nat := 0x100000 + t * 0x10000 + 0x650
def MASK_STATUS_VIOL (t : Nat) : Fld := ⟨(MASK_STATUS t), 31, 31⟩
def MASK_STATUS_SIDE (t : Nat) : Fld := ⟨(MASK_STATUS t), 30, 30⟩
def MASK_STATUS_INDEX (t : Nat) : Fld := ⟨(MASK_STATUS t), 11, 0⟩
def MASK_VCOUNT (t : Nat) : Nat := 0x100000 + t * 0x10000 + 0x654
def MASK_VCOUNT_COUNT (t : Nat) : Fld := ⟨(MASK_VCOUNT t), 31, 0⟩
def ACQ_ARMERR (t : Nat) : Nat := 0x100000 + t * 0x10000 + 0x680
def ACQ_ARMERR_SUB (t : Nat) : Fld := ⟨(ACQ_ARMERR t), 3, 0⟩
def FC_CFG (t : Nat) : Nat := 0x100000 + t * 0x10000 + 0x700
def FC_CFG_POOL (t : Nat) : Fld := ⟨(FC_CFG t), 5, 4⟩
def FC_CFG_EONLY (t : Nat) : Fld := ⟨(FC_CFG t), 2, 2⟩
def FC_CFG_ACC (t : Nat) : Fld := ⟨(FC_CFG t), 1, 1⟩
def FC_CFG_EN (t : Nat) : Fld := ⟨(FC_CFG t), 0, 0⟩
def FC_THR (t : Nat) : Nat := 0x100000 + t * 0x10000 + 0x704
def FC_THR_COL_THR (t : Nat) : Fld := ⟨(FC_THR t), 31, 16⟩
def FC_THR_ROW_THR (t : Nat) : Fld := ⟨(FC_THR t), 15, 0⟩
def FC_RMASK (t : Nat) : Nat := 0x100000 + t * 0x10000 + 0x708
def FC_RMASK_MASK (t : Nat) : Fld := ⟨(FC_RMASK t), 23, 0⟩
def FC_CMASK (t : Nat) : Nat := 0x100000 + t * 0x10000 + 0x70c
def FC_CMASK_MASK (t : Nat) : Fld := ⟨(FC_CMASK t), 23, 0⟩
def FC_POOL (t : Nat) : Nat := 0x100000 + t * 0x10000 + 0x710
def FC_POOL_FREE (t : Nat) : Fld := ⟨(FC_POOL t), 15, 0⟩
def TILE_CAL_EPOCH (t : Nat) : Nat := 0x100000 + t * 0x10000 + 0x800
def TILE_CAL_EPOCH_EPOCH (t : Nat) : Fld := ⟨(TILE_CAL_EPOCH t), 31, 0⟩
def TILE_CAL_FLAGS (t : Nat) : Nat := 0x100000 + t * 0x10000 + 0x804
def TILE_CAL_FLAGS_STALE (t : Nat) : Fld := ⟨(TILE_CAL_FLAGS t), 0, 0⟩
def TILE_PWR (t : Nat) : Nat := 0x100000 + t * 0x10000 + 0x900
def TILE_PWR_SCHED (t : Nat) : Fld := ⟨(TILE_PWR t), 5, 5⟩
def TILE_PWR_BUSY (t : Nat) : Fld := ⟨(TILE_PWR t), 4, 4⟩
def TILE_PWR_TARGET (t : Nat) : Fld := ⟨(TILE_PWR t), 3, 2⟩
def TILE_PWR_STATE (t : Nat) : Fld := ⟨(TILE_PWR t), 1, 0⟩
def TILE_THAW_LO (t : Nat) : Nat := 0x100000 + t * 0x10000 + 0x904
def TILE_THAW_LO_TIME (t : Nat) : Fld := ⟨(TILE_THAW_LO t), 31, 0⟩
def TILE_THAW_HI (t : Nat) : Nat := 0x100000 + t * 0x10000 + 0x908
def TILE_THAW_HI_TIME (t : Nat) : Fld := ⟨(TILE_THAW_HI t), 31, 0⟩

/-! Channel (chapters 03, 05, 06, 07, 09). -/

def CH_SEQ (ch : Nat) : Nat := 0x500000 + ch * 0x400 + 0x0
def CH_SEQ_CMODE (ch : Nat) : Fld := ⟨(CH_SEQ ch), 15, 13⟩
def CH_SEQ_SHGRP (ch : Nat) : Fld := ⟨(CH_SEQ ch), 12, 9⟩
def CH_SEQ_SHARED (ch : Nat) : Fld := ⟨(CH_SEQ ch), 8, 8⟩
def CH_SEQ_SITE (ch : Nat) : Fld := ⟨(CH_SEQ ch), 7, 0⟩
def CH_DSK_CAL (ch : Nat) : Nat := 0x500000 + ch * 0x400 + 0x10
def CH_DSK_CAL_CMP (ch : Nat) : Fld := ⟨(CH_DSK_CAL ch), 31, 16⟩
def CH_DSK_CAL_DRV (ch : Nat) : Fld := ⟨(CH_DSK_CAL ch), 15, 0⟩
def CH_DSK_USER (ch : Nat) : Nat := 0x500000 + ch * 0x400 + 0x14
def CH_DSK_USER_CMP (ch : Nat) : Fld := ⟨(CH_DSK_USER ch), 31, 16⟩
def CH_DSK_USER_DRV (ch : Nat) : Fld := ⟨(CH_DSK_USER ch), 15, 0⟩
def CH_MODE (ch : Nat) : Nat := 0x500000 + ch * 0x400 + 0x40
def CH_MODE_CMP_RST (ch : Nat) : Fld := ⟨(CH_MODE ch), 9, 9⟩
def CH_MODE_ARM_RST (ch : Nat) : Fld := ⟨(CH_MODE ch), 8, 8⟩
def CH_MODE_HYST (ch : Nat) : Fld := ⟨(CH_MODE ch), 5, 4⟩
def CH_MODE_MODE (ch : Nat) : Fld := ⟨(CH_MODE ch), 1, 0⟩
def CH_STATUS (ch : Nat) : Nat := 0x500000 + ch * 0x400 + 0x44
def CH_STATUS_FENCED (ch : Nat) : Fld := ⟨(CH_STATUS ch), 15, 15⟩
def CH_STATUS_SAFE (ch : Nat) : Fld := ⟨(CH_STATUS ch), 14, 14⟩
def CH_STATUS_GATE (ch : Nat) : Fld := ⟨(CH_STATUS ch), 13, 13⟩
def CH_STATUS_RST_BUSY (ch : Nat) : Fld := ⟨(CH_STATUS ch), 12, 12⟩
def CH_STATUS_LVL_BUSY (ch : Nat) : Fld := ⟨(CH_STATUS ch), 11, 11⟩
def CH_STATUS_CLAMP (ch : Nat) : Fld := ⟨(CH_STATUS ch), 10, 10⟩
def CH_STATUS_RANGING (ch : Nat) : Fld := ⟨(CH_STATUS ch), 9, 9⟩
def CH_STATUS_KNOWN_LO (ch : Nat) : Fld := ⟨(CH_STATUS ch), 5, 5⟩
def CH_STATUS_KNOWN_HI (ch : Nat) : Fld := ⟨(CH_STATUS ch), 4, 4⟩
def CH_STATUS_CSTATE (ch : Nat) : Fld := ⟨(CH_STATUS ch), 1, 0⟩
def CH_FAULT (ch : Nat) : Nat := 0x500000 + ch * 0x400 + 0x48
def CH_FAULT_XCHK (ch : Nat) : Fld := ⟨(CH_FAULT ch), 4, 4⟩
def CH_FAULT_CHK_LATE (ch : Nat) : Fld := ⟨(CH_FAULT ch), 3, 3⟩
def CH_FAULT_CHK_FAIL (ch : Nat) : Fld := ⟨(CH_FAULT ch), 2, 2⟩
def CH_FAULT_OVER_V (ch : Nat) : Fld := ⟨(CH_FAULT ch), 1, 1⟩
def CH_FAULT_OVER_I (ch : Nat) : Fld := ⟨(CH_FAULT ch), 0, 0⟩
def CMP_UNK_COUNT (ch : Nat) : Nat := 0x500000 + ch * 0x400 + 0x4c
def CMP_UNK_COUNT_COUNT (ch : Nat) : Fld := ⟨(CMP_UNK_COUNT ch), 31, 0⟩
def CMP_UNK_CYC_LO (ch : Nat) : Nat := 0x500000 + ch * 0x400 + 0x50
def CMP_UNK_CYC_LO_CYC (ch : Nat) : Fld := ⟨(CMP_UNK_CYC_LO ch), 31, 0⟩
def CMP_UNK_CYC_HI (ch : Nat) : Nat := 0x500000 + ch * 0x400 + 0x54
def CMP_UNK_CYC_HI_CYC (ch : Nat) : Fld := ⟨(CMP_UNK_CYC_HI ch), 31, 0⟩
def PMU_CFG (ch : Nat) : Nat := 0x500000 + ch * 0x400 + 0x58
def PMU_CFG_MEN (ch : Nat) : Fld := ⟨(PMU_CFG ch), 12, 12⟩
def PMU_CFG_AVG (ch : Nat) : Fld := ⟨(PMU_CFG ch), 11, 8⟩
def PMU_CFG_DEDIC (ch : Nat) : Fld := ⟨(PMU_CFG ch), 7, 7⟩
def PMU_CFG_MSRC (ch : Nat) : Fld := ⟨(PMU_CFG ch), 6, 6⟩
def PMU_CFG_FORCE (ch : Nat) : Fld := ⟨(PMU_CFG ch), 5, 4⟩
def PMU_CFG_RANGE (ch : Nat) : Fld := ⟨(PMU_CFG ch), 2, 0⟩
def PMU_MEAS (ch : Nat) : Nat := 0x500000 + ch * 0x400 + 0x5c
def PMU_MEAS_VALID (ch : Nat) : Fld := ⟨(PMU_MEAS ch), 31, 31⟩
def PMU_MEAS_OVR (ch : Nat) : Fld := ⟨(PMU_MEAS ch), 30, 30⟩
def PMU_MEAS_RANGING (ch : Nat) : Fld := ⟨(PMU_MEAS ch), 29, 29⟩
def PMU_MEAS_CLAMP (ch : Nat) : Fld := ⟨(PMU_MEAS ch), 28, 28⟩
def PMU_MEAS_CODE (ch : Nat) : Fld := ⟨(PMU_MEAS ch), 17, 0⟩
def LVL (ch : Nat) (i : Nat) : Nat := 0x500000 + ch * 0x400 + 0x80 + i * 4
def LVL_CODE (ch : Nat) (i : Nat) : Fld := ⟨(LVL ch i), 15, 0⟩
def LVL_SAFE (ch : Nat) (i : Nat) : Nat := 0x500000 + ch * 0x400 + 0xc0 + i * 4
def LVL_SAFE_SAFE (ch : Nat) (i : Nat) : Fld := ⟨(LVL_SAFE ch i), 15, 0⟩
def TDC_CFG (ch : Nat) : Nat := 0x500000 + ch * 0x400 + 0x100
def TDC_CFG_CLS (ch : Nat) : Fld := ⟨(TDC_CFG ch), 12, 11⟩
def TDC_CFG_PROF (ch : Nat) : Fld := ⟨(TDC_CFG ch), 10, 10⟩
def TDC_CFG_SAMPLE (ch : Nat) : Fld := ⟨(TDC_CFG ch), 9, 9⟩
def TDC_CFG_ONCMP (ch : Nat) : Fld := ⟨(TDC_CFG ch), 8, 8⟩
def TDC_CFG_SLANE (ch : Nat) : Fld := ⟨(TDC_CFG ch), 7, 4⟩
def TDC_CFG_START (ch : Nat) : Fld := ⟨(TDC_CFG ch), 2, 1⟩
def TDC_CFG_EN (ch : Nat) : Fld := ⟨(TDC_CFG ch), 0, 0⟩
def TDC_WOPEN (ch : Nat) : Nat := 0x500000 + ch * 0x400 + 0x104
def TDC_WOPEN_WOPEN (ch : Nat) : Fld := ⟨(TDC_WOPEN ch), 31, 0⟩
def TDC_WLEN (ch : Nat) : Nat := 0x500000 + ch * 0x400 + 0x108
def TDC_WLEN_WLEN (ch : Nat) : Fld := ⟨(TDC_WLEN ch), 24, 0⟩
def PROF_BIN (ch : Nat) : Nat := 0x500000 + ch * 0x400 + 0x10c
def PROF_BIN_BWSHIFT (ch : Nat) : Fld := ⟨(PROF_BIN ch), 27, 24⟩
def PROF_BIN_ORIGIN (ch : Nat) : Fld := ⟨(PROF_BIN ch), 23, 0⟩
def TDC_STAT (ch : Nat) : Nat := 0x500000 + ch * 0x400 + 0x110
def TDC_STAT_CALREJ (ch : Nat) : Fld := ⟨(TDC_STAT ch), 6, 6⟩
def TDC_STAT_WARMUP (ch : Nat) : Fld := ⟨(TDC_STAT ch), 5, 5⟩
def TDC_STAT_SUSPECT (ch : Nat) : Fld := ⟨(TDC_STAT ch), 4, 4⟩
def TDC_STAT_BINSAT (ch : Nat) : Fld := ⟨(TDC_STAT ch), 3, 3⟩
def TDC_STAT_DERSAT (ch : Nat) : Fld := ⟨(TDC_STAT ch), 2, 2⟩
def TDC_STAT_NOREF (ch : Nat) : Fld := ⟨(TDC_STAT ch), 1, 1⟩
def TDC_ACCEPT (ch : Nat) : Nat := 0x500000 + ch * 0x400 + 0x114
def TDC_ACCEPT_COUNT (ch : Nat) : Fld := ⟨(TDC_ACCEPT ch), 31, 0⟩
def TDC_DEAD (ch : Nat) : Nat := 0x500000 + ch * 0x400 + 0x118
def TDC_DEAD_COUNT (ch : Nat) : Fld := ⟨(TDC_DEAD ch), 31, 0⟩
def TDC_TRUNC (ch : Nat) : Nat := 0x500000 + ch * 0x400 + 0x11c
def TDC_TRUNC_COUNT (ch : Nat) : Fld := ⟨(TDC_TRUNC ch), 31, 0⟩
def EARLY_R (ch : Nat) : Nat := 0x500000 + ch * 0x400 + 0x120
def EARLY_R_VALUE (ch : Nat) : Fld := ⟨(EARLY_R ch), 31, 0⟩
def LATE_R (ch : Nat) : Nat := 0x500000 + ch * 0x400 + 0x124
def LATE_R_VALUE (ch : Nat) : Fld := ⟨(LATE_R ch), 31, 0⟩
def EARLY_F (ch : Nat) : Nat := 0x500000 + ch * 0x400 + 0x128
def EARLY_F_VALUE (ch : Nat) : Fld := ⟨(EARLY_F ch), 31, 0⟩
def LATE_F (ch : Nat) : Nat := 0x500000 + ch * 0x400 + 0x12c
def LATE_F_VALUE (ch : Nat) : Fld := ⟨(LATE_F ch), 31, 0⟩
def SETUP (ch : Nat) : Nat := 0x500000 + ch * 0x400 + 0x130
def SETUP_VALUE (ch : Nat) : Fld := ⟨(SETUP ch), 31, 0⟩
def HOLD (ch : Nat) : Nat := 0x500000 + ch * 0x400 + 0x134
def HOLD_VALUE (ch : Nat) : Fld := ⟨(HOLD ch), 31, 0⟩
def INWIN (ch : Nat) : Nat := 0x500000 + ch * 0x400 + 0x138
def INWIN_COUNT (ch : Nat) : Fld := ⟨(INWIN ch), 31, 0⟩
def CH_CAL_STAT (ch : Nat) : Nat := 0x500000 + ch * 0x400 + 0x180
def CH_CAL_STAT_NOTRACE (ch : Nat) : Fld := ⟨(CH_CAL_STAT ch), 24, 24⟩
def CH_CAL_STAT_REJ (ch : Nat) : Fld := ⟨(CH_CAL_STAT ch), 20, 16⟩
def CH_CAL_STAT_STALE (ch : Nat) : Fld := ⟨(CH_CAL_STAT ch), 12, 8⟩
def CH_CAL_STAT_PEND (ch : Nat) : Fld := ⟨(CH_CAL_STAT ch), 4, 0⟩

/-! Physical core (chapters 16). -/

def CORE_HEALTH (c : Nat) : Nat := 0x900000 + c * 0x1000 + 0x0
def CORE_HEALTH_RESULT (c : Nat) : Fld := ⟨(CORE_HEALTH c), 11, 10⟩
def CORE_HEALTH_RETEST (c : Nat) : Fld := ⟨(CORE_HEALTH c), 9, 9⟩
def CORE_HEALTH_PERM (c : Nat) : Fld := ⟨(CORE_HEALTH c), 8, 8⟩
def CORE_HEALTH_TRANS (c : Nat) : Fld := ⟨(CORE_HEALTH c), 7, 0⟩
def CORE_TILE (c : Nat) : Nat := 0x900000 + c * 0x1000 + 0x4
def CORE_TILE_TILE (c : Nat) : Fld := ⟨(CORE_TILE c), 6, 0⟩

/-! Fault registers, at a block base b (chapters 15). -/

def FLT_REAL (b : Nat) : Nat := b + 0xf00
def FLT_REAL_REAL (b : Nat) : Fld := ⟨(FLT_REAL b), 31, 0⟩
def FLT_INJ (b : Nat) : Nat := b + 0xf04
def FLT_INJ_INJ (b : Nat) : Fld := ⟨(FLT_INJ b), 31, 0⟩
def FLT_COUNT (b : Nat) : Nat := b + 0xf08
def FLT_COUNT_COUNT (b : Nat) : Fld := ⟨(FLT_COUNT b), 31, 0⟩
def FLT_FIRST (b : Nat) : Nat := b + 0xf0c
def FLT_FIRST_VALID (b : Nat) : Fld := ⟨(FLT_FIRST b), 31, 31⟩
def FLT_FIRST_SRC (b : Nat) : Fld := ⟨(FLT_FIRST b), 4, 0⟩
def FLT_REACT (b : Nat) (i : Nat) : Nat := b + 0xf10 + i * 4
def FLT_REACT_REACT (b : Nat) (i : Nat) : Fld := ⟨(FLT_REACT b i), 31, 0⟩

end R

/-! ## The rows of the map, block by block. -/

def chipRegsA : List RegDesc :=
  [ { off := 0x0, n := 1, stride := 4, ro := 0xfe },
    { off := 0x4, n := 1, stride := 4, ro := 0x7 },
    { off := 0x8, n := 1, stride := 4, ro := 0xffffffff },
    { off := 0xc, n := 1, stride := 4, ro := 0xffffffc1 },
    { off := 0x10, n := 1, stride := 4, ro := 0xffff },
    { off := 0x400, n := 64, stride := 4, ro := 0x37f7f, rst := .unit },
    { off := 0x800, n := 128, stride := 4, rw := 0xffffffff, allIdle := true, shSeal := true },
    { off := 0xa00, n := 8, stride := 16, ro := 0x8f0fffff, w1c := 0x40000000, rst := .const 0xf000000 },
    { off := 0xa04, n := 8, stride := 16, ro := 0xffffffff },
    { off := 0xa08, n := 8, stride := 16, ro := 0xffffffff },
    { off := 0xa0c, n := 8, stride := 16, ro := 0xffffffff },
    { off := 0xc00, n := 1, stride := 4, ro := 0x1, w1c := 0x2 },
    { off := 0xc10, n := 4, stride := 4, rw := 0x7f },
    { off := 0xe00, n := 1, stride := 4, rw := 0x3f03, rst := .const 0x3f01 },
    { off := 0xe04, n := 1, stride := 4, ro := 0xf, w1c := 0x10 },
    { off := 0xe08, n := 1, stride := 4, ro := 0xffffffff },
    { off := 0xe0c, n := 1, stride := 4, ro := 0xffffffff },
    { off := 0xe10, n := 1, stride := 4, rw := 0xffffffff, rst := .const 0x4c4b40 },
    { off := 0xe14, n := 1, stride := 4, rw := 0xffffff, rst := .const 0x50018 },
    { off := 0xe18, n := 1, stride := 4, rw := 0xffff, rst := .const 0x258 },
    { off := 0x1000, n := 1, stride := 4, rw := 0x3fff, rst := .const 0x3fff, cfg := true },
    { off := 0x1004, n := 1, stride := 4, rw := 0xff000f, rst := .const 0xf, cfg := true },
    { off := 0x1008, n := 1, stride := 4, ro := 0xffffffff, cfg := true },
    { off := 0x100c, n := 1, stride := 4, ro := 0xffffffff, cfg := true } ]

def chipRegsB : List RegDesc :=
  [ { off := 0x1010, n := 1, stride := 4, ro := 0xffffffff, cfg := true },
    { off := 0x1014, n := 1, stride := 4, ro := 0xfff, rst := .const 0x800, cfg := true },
    { off := 0x1018, n := 1, stride := 4, rw := 0xfff, cfg := true },
    { off := 0x101c, n := 1, stride := 4, wo := 0xffffffff },
    { off := 0x1020, n := 1, stride := 4, ro := 0xffffffff },
    { off := 0x1024, n := 1, stride := 4, ro := 0xffffffff },
    { off := 0x1100, n := 32, stride := 8, ro := 0xfffff, w1c := 0xc0000000, cfg := true },
    { off := 0x1104, n := 32, stride := 8, ro := 0x7fffff, cfg := true },
    { off := 0x1200, n := 12, stride := 4, rw := 0xbfff3fff, cfg := true },
    { off := 0x1400, n := 256, stride := 4, rw := 0x1fff, cfg := true },
    { off := 0x2000, n := 256, stride := 32, ro := 0xffffffff, rst := .const 0x7fffffff, rs := .margin },
    { off := 0x2004, n := 256, stride := 32, ro := 0xffffffff, rst := .const 0x80000000, rs := .margin },
    { off := 0x2008, n := 256, stride := 32, ro := 0xffffffff, rst := .const 0x7fffffff, rs := .margin },
    { off := 0x200c, n := 256, stride := 32, ro := 0xffffffff, rst := .const 0x7fffffff, rs := .margin },
    { off := 0x2010, n := 256, stride := 32, ro := 0xffffffff, rs := .margin },
    { off := 0x2014, n := 256, stride := 32, ro := 0xf, rst := .const 0x8, rs := .margin },
    { off := 0x4000, n := 256, stride := 32, ro := 0xffffffff, rs := .repair },
    { off := 0x4004, n := 256, stride := 32, ro := 0xffffffff, rs := .repair },
    { off := 0x4008, n := 256, stride := 32, ro := 0xffffffff, rs := .repair },
    { off := 0x400c, n := 256, stride := 32, ro := 0xffffffff, rs := .repair },
    { off := 0x4010, n := 256, stride := 32, ro := 0xffffffff, rs := .repair },
    { off := 0x4014, n := 256, stride := 32, ro := 0xffffffff, rs := .repair },
    { off := 0x4018, n := 256, stride := 32, ro := 0xffffffff, rs := .repair },
    { off := 0x401c, n := 256, stride := 32, ro := 0xff, rs := .repair } ]

def chipRegsC : List RegDesc :=
  [ { off := 0x6000, n := 1, stride := 4, rw := 0xffffff, rst := .const 0x1803, cfg := true },
    { off := 0x6004, n := 1, stride := 4, ro := 0x1f, rst := .const 0x4 },
    { off := 0x6008, n := 1, stride := 4, ro := 0xffffffff },
    { off := 0x600c, n := 1, stride := 4, ro := 0xffffffff },
    { off := 0x6010, n := 1, stride := 4, ro := 0xffffffff },
    { off := 0x6014, n := 1, stride := 4, ro := 0xf, rst := .const 0xf },
    { off := 0x6018, n := 1, stride := 4, ro := 0x7f7f3f },
    { off := 0x601c, n := 1, stride := 4, ro := 0xffffffff },
    { off := 0x6020, n := 1, stride := 4, ro := 0xffffffff },
    { off := 0x6024, n := 1, stride := 4, ro := 0x7f },
    { off := 0x6100, n := 64, stride := 8, ro := 0x3ff000f },
    { off := 0x6104, n := 64, stride := 8, ro := 0xffffffff } ]

def chipRegs : List RegDesc := chipRegsA ++ chipRegsB ++ chipRegsC

def timeRegs : List RegDesc :=
  [ { off := 0x0, n := 1, stride := 4, rw := 0x7 },
    { off := 0x4, n := 1, stride := 4, ro := 0x3, w1c := 0x3c, rst := .const 0x2 },
    { off := 0x8, n := 1, stride := 4, ro := 0xffffffff },
    { off := 0xc, n := 1, stride := 4, ro := 0xffffffff },
    { off := 0x10, n := 1, stride := 4, rw := 0xffffffff },
    { off := 0x14, n := 1, stride := 4, rw := 0xffffffff },
    { off := 0x18, n := 1, stride := 4, rw := 0xffff },
    { off := 0x1c, n := 1, stride := 4, ro := 0xffffffff },
    { off := 0x20, n := 1, stride := 4, ro := 0xffffffff },
    { off := 0x24, n := 1, stride := 4, ro := 0xffffffff } ]

def linkRegs : List RegDesc :=
  [ { off := 0x0, n := 1, stride := 4, rw := 0x1ffd, wo := 0x2, rst := .const 0x48 },
    { off := 0x4, n := 1, stride := 4, ro := 0xff0f0f },
    { off := 0x8, n := 1, stride := 4, w1c := 0xff },
    { off := 0xc, n := 1, stride := 4, ro := 0x800f3fff },
    { off := 0x10, n := 1, stride := 4, ro := 0xfffffff },
    { off := 0x14, n := 1, stride := 4, w1c := 0x3f },
    { off := 0x18, n := 1, stride := 4, ro := 0xffffffff },
    { off := 0x1c, n := 1, stride := 4, ro := 0xffffffff },
    { off := 0x20, n := 1, stride := 4, ro := 0xffffffff },
    { off := 0x24, n := 1, stride := 4, ro := 0xffffffff },
    { off := 0x28, n := 1, stride := 4, rw := 0xffffffff },
    { off := 0x2c, n := 1, stride := 4, ro := 0x3fffffff },
    { off := 0x100, n := 8, stride := 16, rw := 0xffffffff, rst := .const 0x3f00, rsvBad := true },
    { off := 0x104, n := 8, stride := 16, rw := 0x33f3f3f, rsvBad := true },
    { off := 0x108, n := 8, stride := 16, ro := 0x7 },
    { off := 0x10c, n := 8, stride := 16, ro := 0xffffffff } ]

def engRegs : List RegDesc :=
  [ { off := 0x0, n := 1, stride := 4, rw := 0x1, wo := 0x2, cfg := true },
    { off := 0x4, n := 1, stride := 4, ro := 0x301ff },
    { off := 0x8, n := 1, stride := 4, ro := 0xffffffff, rst := .const 0x100 },
    { off := 0xc, n := 1, stride := 4, ro := 0x3f },
    { off := 0x10, n := 12, stride := 4, ro := 0xffffffff },
    { off := 0x40, n := 1, stride := 4, ro := 0x1fff },
    { off := 0x44, n := 1, stride := 4, ro := 0x1ffff },
    { off := 0x48, n := 1, stride := 4, ro := 0xffffffff },
    { off := 0x4c, n := 1, stride := 4, ro := 0xff, w1c := 0x80000000 } ]

def secRegs : List RegDesc :=
  [ { off := 0x0, n := 1, stride := 4, ro := 0xffff, rst := .const 0x101 },
    { off := 0x4, n := 1, stride := 4, w1c := 0x3f },
    { off := 0x8, n := 1, stride := 4, ro := 0x7f },
    { off := 0x10, n := 4, stride := 4, ro := 0xffffffff },
    { off := 0x20, n := 12, stride := 4, ro := 0xffffffff },
    { off := 0x60, n := 1, stride := 4, rw := 0xffffffff, cfg := true },
    { off := 0x64, n := 1, stride := 4, ro := 0xffffffff },
    { off := 0x68, n := 1, stride := 4, ro := 0xffffffff },
    { off := 0x6c, n := 1, stride := 4, ro := 0xffffffff },
    { off := 0x100, n := 4, stride := 32, ro := 0x8000ffff },
    { off := 0x104, n := 4, stride := 32, ro := 0xffffffff },
    { off := 0x108, n := 4, stride := 32, ro := 0xffffffff },
    { off := 0x10c, n := 4, stride := 32, ro := 0xffffffff },
    { off := 0x110, n := 4, stride := 32, ro := 0xffffffff },
    { off := 0x114, n := 4, stride := 32, ro := 0xffffffff } ]

def safeRegs : List RegDesc :=
  [ { off := 0x0, n := 1, stride := 4, rw := 0x1, w1s := 0x2, rst := .const 0x1, cfg := true, aliased := true },
    { off := 0x4, n := 1, stride := 4, ro := 0x100, w1c := 0x1f, cfg := true },
    { off := 0x8, n := 1, stride := 4, ro := 0x3ff0007, cfg := true },
    { off := 0x100, n := 32, stride := 4, rw := 0xffffffff, cfg := true, aliased := true },
    { off := 0x180, n := 2, stride := 4, rw := 0xffffffff, cfg := true, aliased := true },
    { off := 0x188, n := 2, stride := 4, ro := 0xffffffff, cfg := true },
    { off := 0x190, n := 1, stride := 4, ro := 0xf, cfg := true },
    { off := 0x198, n := 2, stride := 4, rw := 0xffffffff, cfg := true, aliased := true },
    { off := 0x1a0, n := 1, stride := 4, ro := 0x3ff00f7, cfg := true },
    { off := 0x1000, n := 64, stride := 16, rw := 0xff1 },
    { off := 0x1004, n := 64, stride := 16, rw := 0xffffffff },
    { off := 0x1008, n := 64, stride := 16, rw := 0xffffffff },
    { off := 0x100c, n := 64, stride := 16, rw := 0xffffffff },
    { off := 0x1400, n := 2, stride := 4, rw := 0xffffffff },
    { off := 0x1408, n := 2, stride := 4, ro := 0xffffffff },
    { off := 0x1410, n := 2, stride := 4, w1c := 0xffffffff },
    { off := 0x1418, n := 2, stride := 4, ro := 0xffffffff },
    { off := 0x1420, n := 2, stride := 4, ro := 0xffffffff },
    { off := 0x1428, n := 2, stride := 4, w1c := 0xffffffff } ]

def pwrRegs : List RegDesc :=
  [ { off := 0x0, n := 1, stride := 4, rw := 0xffff, rst := .const 0xf0, cfg := true },
    { off := 0x4, n := 1, stride := 4, rw := 0xffffffff, rst := .const 0x5a5f0a19, cfg := true },
    { off := 0x8, n := 1, stride := 4, ro := 0xff00ff, w1c := 0x100 },
    { off := 0xc, n := 1, stride := 4, ro := 0xffffff },
    { off := 0x10, n := 1, stride := 4, ro := 0xffffffff },
    { off := 0x20, n := 5, stride := 4, w1c := 0xffffffff, cfg := true },
    { off := 0x40, n := 1, stride := 4, ro := 0x10000ff, w1c := 0xff00 },
    { off := 0x44, n := 1, stride := 4, ro := 0xffffffff },
    { off := 0x48, n := 1, stride := 4, ro := 0xffffffff },
    { off := 0x4c, n := 1, stride := 4, ro := 0xffffffff },
    { off := 0x50, n := 1, stride := 4, ro := 0xffffffff },
    { off := 0x54, n := 1, stride := 4, ro := 0xf },
    { off := 0x400, n := 152, stride := 4, ro := 0x3ffff } ]

def morRegsA : List RegDesc :=
  [ { off := 0x0, n := 1, stride := 4, wo := 0x3, cfg := true },
    { off := 0x4, n := 1, stride := 4, ro := 0x1ff, w1c := 0xe00, cfg := true },
    { off := 0x8, n := 1, stride := 4, ro := 0xffffffff, cfg := true },
    { off := 0xc, n := 1, stride := 4, ro := 0xffffffff, cfg := true },
    { off := 0x10, n := 1, stride := 4, ro := 0xffffffff, cfg := true },
    { off := 0x14, n := 1, stride := 4, ro := 0xffffffff, cfg := true },
    { off := 0x18, n := 1, stride := 4, ro := 0xffffffff, cfg := true },
    { off := 0x20, n := 1, stride := 4, rw := 0xffffffff, cfg := true, ctx := true },
    { off := 0x24, n := 1, stride := 4, rw := 0x100, ro := 0x3f, cfg := true, ctx := true },
    { off := 0x40, n := 16, stride := 4, ro := 0xffffffff, cfg := true, ctx := true },
    { off := 0x100, n := 1, stride := 4, rw := 0x1, ro := 0x2, wo := 0x4, rst := .const 0x1, cfg := true },
    { off := 0x104, n := 1, stride := 4, ro := 0x3, cfg := true },
    { off := 0x108, n := 1, stride := 4, ro := 0xffffffff, cfg := true },
    { off := 0x10c, n := 1, stride := 4, ro := 0xffffffff, cfg := true },
    { off := 0x110, n := 1, stride := 4, wo := 0x1, cfg := true },
    { off := 0x114, n := 1, stride := 4, ro := 0xffffff07, cfg := true },
    { off := 0x118, n := 1, stride := 4, ro := 0xffffffff, cfg := true },
    { off := 0x1000, n := 384, stride := 8, ro := 0xffffffff, cfg := true, cnt := true },
    { off := 0x1004, n := 384, stride := 8, ro := 0xffff, cfg := true, cnt := true },
    { off := 0x2000, n := 384, stride := 8, ro := 0xffffffff, cfg := true, cnt := true },
    { off := 0x2004, n := 384, stride := 8, ro := 0xffff, cfg := true, cnt := true },
    { off := 0x3000, n := 64, stride := 16, rw := 0x71ff, cfg := true },
    { off := 0x3004, n := 64, stride := 16, rw := 0xffffffff, cfg := true, cnt := true },
    { off := 0x3008, n := 64, stride := 16, ro := 0xffffffff, cfg := true, cnt := true } ]

def morRegsB : List RegDesc :=
  [ { off := 0x300c, n := 64, stride := 16, ro := 0xffffffff, cfg := true, cnt := true },
    { off := 0x3400, n := 2, stride := 4, w1c := 0xffffffff, cfg := true } ]

def morRegs : List RegDesc := morRegsA ++ morRegsB

def mgtRegs : List RegDesc :=
  [ { off := 0x0, n := 1, stride := 4, rw := 0x1ff },
    { off := 0x4, n := 1, stride := 4, ro := 0xcc, w1c := 0x30 },
    { off := 0x8, n := 1, stride := 4, ro := 0xffffffff },
    { off := 0xc, n := 1, stride := 4, ro := 0xffffffff },
    { off := 0x10, n := 1, stride := 4, ro := 0xffffffff },
    { off := 0x100, n := 1, stride := 4, wo := 0x1, cfg := true },
    { off := 0x104, n := 1, stride := 4, ro := 0x67f7f, w1c := 0x180000, cfg := true },
    { off := 0x108, n := 1, stride := 4, rw := 0xffffffff, cfg := true },
    { off := 0x10c, n := 1, stride := 4, wo := 0xffffffff, cfg := true },
    { off := 0x110, n := 1, stride := 4, ro := 0xffffffff, cfg := true },
    { off := 0x120, n := 8, stride := 8, rw := 0x1ff, rst := .const 0x3, cfg := true },
    { off := 0x124, n := 8, stride := 8, rw := 0xffffff00, rst := .const 0x5010100, cfg := true } ]

def memcRegs : List RegDesc :=
  [ { off := 0x0, n := 1, stride := 4, ro := 0xffffffff },
    { off := 0x4, n := 1, stride := 4, ro := 0xffffffff },
    { off := 0x8, n := 1, stride := 4, ro := 0x80003fff },
    { off := 0xc, n := 1, stride := 4, ro := 0x7fffff },
    { off := 0x10, n := 1, stride := 4, rw := 0xffff0001, rst := .const 0xa0001, cfg := true },
    { off := 0x14, n := 1, stride := 4, ro := 0x800fffff },
    { off := 0x18, n := 1, stride := 4, ro := 0xffffffff },
    { off := 0x1c, n := 1, stride := 4, ro := 0xffffffff },
    { off := 0x20, n := 1, stride := 4, ro := 0x800001ff, w1c := 0x40000000 },
    { off := 0x24, n := 1, stride := 4, ro := 0x7ff01ff, rst := .factory },
    { off := 0x28, n := 1, stride := 4, ro := 0xff } ]

def tileRegsA : List RegDesc :=
  [ { off := 0x0, n := 1, stride := 4, rw := 0x3fff3fff, rst := .const 0x3fff0000, idle := true, sealW := true },
    { off := 0x4, n := 1, stride := 4, ro := 0x3fffff1f },
    { off := 0x8, n := 1, stride := 4, ro := 0x1f3fff },
    { off := 0xc, n := 1, stride := 4, ro := 0xff, rs := .bundle },
    { off := 0x10, n := 1, stride := 4, rw := 0xffffffff, rst := .const 0x55555555, idle := true, sealW := true },
    { off := 0x14, n := 1, stride := 4, rw := 0xffffffff, rst := .const 0x55555555, idle := true, sealW := true },
    { off := 0x18, n := 1, stride := 4, rw := 0xffffffff, idle := true, sealW := true },
    { off := 0x1c, n := 1, stride := 4, rw := 0xffffffff, idle := true, sealW := true },
    { off := 0x20, n := 1, stride := 4, ro := 0xffffffff },
    { off := 0x24, n := 1, stride := 4, ro := 0xffffffff },
    { off := 0x28, n := 1, stride := 4, ro := 0xffffffff },
    { off := 0x2c, n := 1, stride := 4, ro := 0xffffffff },
    { off := 0x30, n := 1, stride := 4, ro := 0xffffffff },
    { off := 0x34, n := 1, stride := 4, ro := 0xffffffff },
    { off := 0x38, n := 1, stride := 4, ro := 0xffff },
    { off := 0x40, n := 8, stride := 4, rw := 0xffffffff, idle := true, sealW := true },
    { off := 0x60, n := 8, stride := 4, ro := 0x3fff, rs := .bundle },
    { off := 0x80, n := 8, stride := 4, ro := 0xffffffff, rs := .bundle },
    { off := 0x100, n := 1, stride := 4, rw := 0x771f1f, rst := .const 0x1818, idle := true, sealW := true },
    { off := 0x104, n := 1, stride := 4, rw := 0xffffff, idle := true, sealW := true },
    { off := 0x108, n := 1, stride := 4, rw := 0xffffff, idle := true, sealW := true },
    { off := 0x10c, n := 1, stride := 4, rw := 0xffffff, idle := true, sealW := true },
    { off := 0x110, n := 1, stride := 4, rw := 0xffffff, idle := true, sealW := true },
    { off := 0x114, n := 1, stride := 4, rw := 0xffffff, idle := true, sealW := true } ]

/-- Registers of a tile. DESIGN CHOICE: the reserved bits of an ASSIGN entry are stored and read back, since Table 3.14 makes ENTRY RW (log
entry 69). -/
def tileRegsB : List RegDesc :=
  [ { off := 0x118, n := 1, stride := 4, rw := 0xffffff, idle := true, sealW := true },
    { off := 0x11c, n := 1, stride := 4, rw := 0xffffffff, idle := true, sealW := true },
    { off := 0x120, n := 1, stride := 4, rw := 0xffffffff, idle := true, sealW := true },
    { off := 0x124, n := 1, stride := 4, rw := 0xffffffff, idle := true, sealW := true },
    { off := 0x128, n := 1, stride := 4, rw := 0x1, idle := true, sealW := true },
    { off := 0x140, n := 32, stride := 4, rw := 0xffffffff, idle := true, sealW := true },
    { off := 0x200, n := 16, stride := 8, rw := 0xffffffff, idle := true, sealW := true },
    { off := 0x204, n := 16, stride := 8, rw := 0xffff, idle := true, sealW := true },
    { off := 0x300, n := 2, stride := 4, ro := 0xffffffff },
    { off := 0x308, n := 1, stride := 4, rw := 0x1fff, ro := 0x1ff0000, idle := true, sealW := true },
    { off := 0x30c, n := 1, stride := 4, ro := 0x21fff, w1c := 0x50000 },
    { off := 0x310, n := 1, stride := 4, rw := 0xffffffff, idle := true, sealW := true },
    { off := 0x314, n := 1, stride := 4, ro := 0xffffffff },
    { off := 0x318, n := 1, stride := 4, ro := 0xffffffff },
    { off := 0x31c, n := 1, stride := 4, ro := 0xffffffff },
    { off := 0x320, n := 1, stride := 4, ro := 0xffffffff },
    { off := 0x324, n := 1, stride := 4, ro := 0xffffffff },
    { off := 0x400, n := 1, stride := 4, ro := 0xffffffff },
    { off := 0x404, n := 1, stride := 4, ro := 0x7030f, rs := .diag },
    { off := 0x408, n := 1, stride := 4, ro := 0xffffffff, rs := .diag },
    { off := 0x40c, n := 1, stride := 4, ro := 0xffffffff, rs := .diag },
    { off := 0x410, n := 1, stride := 4, ro := 0xffff, rs := .diag },
    { off := 0x414, n := 1, stride := 4, ro := 0x3f0f },
    { off := 0x418, n := 1, stride := 4, ro := 0x3ff00f } ]

def tileRegsC : List RegDesc :=
  [ { off := 0x500, n := 1, stride := 4, rw := 0x1, idle := true, sealW := true },
    { off := 0x504, n := 1, stride := 4, ro := 0xf },
    { off := 0x508, n := 1, stride := 4, ro := 0xffffffff },
    { off := 0x600, n := 1, stride := 4, rw := 0x1f, idle := true, sealW := true },
    { off := 0x604, n := 1, stride := 4, rw := 0xffff, idle := true, sealW := true },
    { off := 0x608, n := 1, stride := 4, rw := 0xffff, idle := true, sealW := true },
    { off := 0x60c, n := 1, stride := 4, rw := 0xffffffff, idle := true, sealW := true },
    { off := 0x610, n := 1, stride := 4, rw := 0xffff, idle := true, sealW := true },
    { off := 0x614, n := 1, stride := 4, rw := 0xbff0f, idle := true, sealW := true },
    { off := 0x618, n := 1, stride := 4, rw := 0x3ffff, idle := true, sealW := true },
    { off := 0x61c, n := 1, stride := 4, rw := 0x3ffff, idle := true, sealW := true },
    { off := 0x620, n := 1, stride := 4, rw := 0xffffffff, rst := .const 0x1, idle := true, sealW := true },
    { off := 0x624, n := 1, stride := 4, rw := 0xffffffff, idle := true, sealW := true },
    { off := 0x628, n := 1, stride := 4, rw := 0xffffffff, idle := true, sealW := true },
    { off := 0x62c, n := 1, stride := 4, ro := 0xffff, sealW := true },
    { off := 0x630, n := 1, stride := 4, ro := 0xffff, sealW := true },
    { off := 0x634, n := 1, stride := 4, ro := 0xffff, sealW := true },
    { off := 0x638, n := 1, stride := 4, ro := 0x1fffff, sealW := true },
    { off := 0x63c, n := 1, stride := 4, ro := 0xffffffff, sealW := true },
    { off := 0x640, n := 1, stride := 4, ro := 0xffffffff, sealW := true },
    { off := 0x644, n := 1, stride := 4, ro := 0xffffffff, sealW := true },
    { off := 0x648, n := 1, stride := 4, rw := 0xffff, idle := true, sealW := true },
    { off := 0x64c, n := 1, stride := 4, rw := 0x9fffffff, idle := true, sealW := true },
    { off := 0x650, n := 1, stride := 4, ro := 0xc0000fff } ]

def tileRegsD : List RegDesc :=
  [ { off := 0x654, n := 1, stride := 4, ro := 0xffffffff },
    { off := 0x680, n := 1, stride := 4, ro := 0xf },
    { off := 0x700, n := 1, stride := 4, rw := 0x37, idle := true, sealW := true },
    { off := 0x704, n := 1, stride := 4, rw := 0xffffffff, rst := .const 0xffffffff, idle := true, sealW := true },
    { off := 0x708, n := 1, stride := 4, rw := 0xffffff, idle := true, sealW := true },
    { off := 0x70c, n := 1, stride := 4, rw := 0xffffff, idle := true, sealW := true },
    { off := 0x710, n := 1, stride := 4, ro := 0xffff },
    { off := 0x800, n := 1, stride := 4, ro := 0xffffffff },
    { off := 0x804, n := 1, stride := 4, ro := 0x1 },
    { off := 0x900, n := 1, stride := 4, ro := 0x3f },
    { off := 0x904, n := 1, stride := 4, ro := 0xffffffff },
    { off := 0x908, n := 1, stride := 4, ro := 0xffffffff } ]

def tileRegs : List RegDesc := tileRegsA ++ tileRegsB ++ tileRegsC ++ tileRegsD

/-- Registers of a channel. DESIGN CHOICE: "Tables 7.3 derived values" of Table 13.10 covers TDC_STAT, TDC_ACCEPT, TDC_DEAD and TDC_TRUNC, which are
sealed with the derived registers (log entry 79). -/
def chanRegsA : List RegDesc :=
  [ { off := 0x0, n := 1, stride := 4, rw := 0xffff, idle := true, sealW := true },
    { off := 0x10, n := 1, stride := 4, ro := 0xffffffff },
    { off := 0x14, n := 1, stride := 4, rw := 0xffffffff, idle := true, sealW := true },
    { off := 0x40, n := 1, stride := 4, rw := 0x133, wo := 0x200, rst := .const 0x100, idle := true, sealW := true },
    { off := 0x44, n := 1, stride := 4, ro := 0xfe33, rst := .const 0x4003 },
    { off := 0x48, n := 1, stride := 4, w1c := 0x1f },
    { off := 0x4c, n := 1, stride := 4, ro := 0xffffffff },
    { off := 0x50, n := 1, stride := 4, ro := 0xffffffff, rs := .diag },
    { off := 0x54, n := 1, stride := 4, ro := 0xffffffff, rs := .diag },
    { off := 0x58, n := 1, stride := 4, rw := 0x1ff7, idle := true, sealW := true },
    { off := 0x5c, n := 1, stride := 4, ro := 0xf003ffff, rs := .wave },
    { off := 0x80, n := 11, stride := 4, rw := 0xffff, idle := true, sealW := true },
    { off := 0xc0, n := 11, stride := 4, rw := 0xffff, sealW := true },
    { off := 0x100, n := 1, stride := 4, rw := 0x1ff7, rst := .const 0x1802, idle := true, sealW := true },
    { off := 0x104, n := 1, stride := 4, rw := 0xffffffff, idle := true, sealW := true },
    { off := 0x108, n := 1, stride := 4, rw := 0x1ffffff, rst := .const 0x1, idle := true, sealW := true },
    { off := 0x10c, n := 1, stride := 4, rw := 0xfffffff, idle := true, sealW := true },
    { off := 0x110, n := 1, stride := 4, ro := 0x3e, w1c := 0x40, rs := .margin },
    { off := 0x114, n := 1, stride := 4, ro := 0xffffffff, rs := .margin },
    { off := 0x118, n := 1, stride := 4, ro := 0xffffffff, rs := .margin },
    { off := 0x11c, n := 1, stride := 4, ro := 0xffffffff, rs := .margin },
    { off := 0x120, n := 1, stride := 4, ro := 0xffffffff, rst := .const 0x7fffffff, rs := .margin },
    { off := 0x124, n := 1, stride := 4, ro := 0xffffffff, rst := .const 0x80000000, rs := .margin },
    { off := 0x128, n := 1, stride := 4, ro := 0xffffffff, rst := .const 0x7fffffff, rs := .margin } ]

def chanRegsB : List RegDesc :=
  [ { off := 0x12c, n := 1, stride := 4, ro := 0xffffffff, rst := .const 0x80000000, rs := .margin },
    { off := 0x130, n := 1, stride := 4, ro := 0xffffffff, rst := .const 0x7fffffff, rs := .margin },
    { off := 0x134, n := 1, stride := 4, ro := 0xffffffff, rst := .const 0x7fffffff, rs := .margin },
    { off := 0x138, n := 1, stride := 4, ro := 0xffffffff, rs := .margin },
    { off := 0x180, n := 1, stride := 4, ro := 0x1001f1f, w1c := 0x1f0000, rst := .const 0x1f00 } ]

def chanRegs : List RegDesc := chanRegsA ++ chanRegsB

def coreRegs : List RegDesc :=
  [ { off := 0x0, n := 1, stride := 4, ro := 0xfff },
    { off := 0x4, n := 1, stride := 4, ro := 0x7f, rst := .coreTile } ]

def fltRegs : List RegDesc :=
  [ { off := 0xf00, n := 1, stride := 4, w1c := 0xffffffff, cfg := true },
    { off := 0xf04, n := 1, stride := 4, w1c := 0xffffffff, cfg := true },
    { off := 0xf08, n := 1, stride := 4, ro := 0xffffffff, cfg := true },
    { off := 0xf0c, n := 1, stride := 4, ro := 0x1f, w1c := 0x80000000, cfg := true },
    { off := 0xf10, n := 4, stride := 4, rw := 0xffffffff, rst := .react, cfg := true } ]

/-- The kinds of block of Table 22.1. -/
inductive Blk where
  | chip | time | link | eng | sec | safe | pwr | mor | mgt | memc | tile | chan | core
  deriving DecidableEq, Repr

/-- The registers that a block's own chapters define, and those of Table 15.6 where it has fault registers (R484). -/
def Blk.regs : Blk → List RegDesc
  | .chip => chipRegs | .time => timeRegs | .link => linkRegs ++ fltRegs | .eng => engRegs ++ fltRegs
  | .sec => secRegs ++ fltRegs | .safe => safeRegs ++ fltRegs | .pwr => pwrRegs ++ fltRegs
  | .mor => morRegs ++ fltRegs | .mgt => mgtRegs ++ fltRegs | .memc => memcRegs ++ fltRegs
  | .tile => tileRegs | .chan => chanRegs | .core => coreRegs ++ fltRegs

/-- The offset of a block's last register (Table 22.1). -/
def Blk.last : Blk → Nat
  | .chip => 0x62FC | .time => 0x24 | .safe => 0x142C | .mor => 0x3404 | .tile => 0x908 | .chan => 0x180 | _ => 0xF1C

/-- Which block instance an address lies in, with the instance's number and the offset (Table 22.1, R485). -/
def blockOf (a : Nat) : Option (Blk × Nat × Nat) :=
  let at1 (b : Blk) (base : Nat) : Option (Blk × Nat × Nat) := some (b, 0, a - base)
  let got : Option (Blk × Nat × Nat) :=
    if a < 0x10000 then at1 .chip 0
    else if a < 0x20000 then at1 .time 0x10000
    else if a < 0x2C000 then some (.link, (a - 0x20000) / 0x1000, (a - 0x20000) % 0x1000)
    else if a < 0x40000 then none
    else if a < 0x50000 then at1 .eng 0x40000
    else if a < 0x60000 then at1 .sec 0x50000
    else if a < 0x70000 then at1 .safe 0x60000
    else if a < 0x80000 then at1 .pwr 0x70000
    else if a < 0x90000 then at1 .mor 0x80000
    else if a < 0xA0000 then at1 .mgt 0x90000
    else if a < 0xB0000 then at1 .memc 0xA0000
    else if a < 0x100000 then none
    else if a < 0x500000 then some (.tile, (a - 0x100000) / 0x10000, (a - 0x100000) % 0x10000)
    else if a < 0x600000 then some (.chan, (a - 0x500000) / 0x400, (a - 0x500000) % 0x400)
    else if a < 0x900000 then none
    else if a < 0x944000 then some (.core, (a - 0x900000) / 0x1000, (a - 0x900000) % 0x1000)
    else none
  match got with
  | some (b, i, o) => if o < b.last + 4 then some (b, i, o) else none
  | none => none

/-- A register offset that a row covers. -/
def RegDesc.covers (d : RegDesc) (o : Nat) : Bool :=
  d.off ≤ o && (o - d.off) % d.stride == 0 && (o - d.off) / d.stride < d.n

/-- The register at a word address: its block, instance, number within its row, and row (none: no register is defined there,
which reads 0 and ignores writes, R260). -/
def regAt (a : Nat) : Option (Blk × Nat × Nat × RegDesc) :=
  match blockOf a with
  | none => none
  | some (b, i, o) =>
    match b.regs.find? (fun d => d.covers o) with
    | none => none
    | some d => some (b, i, (o - d.off) / d.stride, d)

/-- The reset selections of FLT_REACT0 to FLT_REACT3 (15_safety_faults.md Table 15.3 and Table 15.4). -/
def reactReset : Blk → Nat → Word
  | .safe, 0 => 0x99999999 | .safe, 1 => 0x00001919
  | .link, 0 => 0x00110110
  | .eng, 0 => 0x00008888
  | .sec, 0 => 0x11111111 | .sec, 1 => 0x00000001
  | .memc, 0 => 0x00001111
  | .core, 0 => 0x00011111
  | .pwr, 0 => 0x00011111
  | .mor, 0 => 0x00001111
  | _, _ => 0

/-- The reset value of the register word at an address: the value the tables print; for values from OTP and from flash, those
of a device as shipped with an erased flash (20_startup.md R494). -/
def regReset (a : Nat) : Word :=
  match regAt a with
  | none => 0
  | some (b, i, k, d) =>
    match d.rst with
    | .const w => w
    | .unit => BitVec.ofNat 32 k
    | .coreTile => if i < 64 then BitVec.ofNat 32 i else 0x7F
    | .react => reactReset b k
    | .factory => (Config.factoryRepairs.setWidth 32) <<< 16

end Sys2Proof.Machine
end

