-- ==== Sys2Proof/Machine/Store.lean ====
section
/-! DEFINITION. Sparse data in one canonical form: a list of key and value pairs with strictly rising keys, none of which
holds what an unlisted key reads as. Equal contents are equal lists. -/

namespace Sys2Proof.Machine

/-- Keys and values. -/
abbrev Store (β : Type) := List (Nat × β)

namespace Store

/-- What key `k` reads as; an unlisted key reads as `d k`. -/
def get {β : Type} (d : Nat → β) : Store β → Nat → β
  | [], k => d k
  | (j, v) :: m, k => if j = k then v else get d m k

/-- The store without key `k`. -/
def erase {β : Type} : Store β → Nat → Store β
  | [], _ => []
  | (j, v) :: m, k => if j = k then erase m k else (j, v) :: erase m k

/-- Insertion of a key at its place. -/
def insert {β : Type} : Store β → Nat → β → Store β
  | [], k, v => [(k, v)]
  | (j, w) :: m, k, v => if k < j then (k, v) :: (j, w) :: m else (j, w) :: insert m k v

/-- Key `k` set to `v`; a value that an unlisted key reads as is not listed. -/
def put {β : Type} [DecidableEq β] (d : Nat → β) (m : Store β) (k : Nat) (v : β) : Store β :=
  if v = d k then erase m k else insert (erase m k) k v

/-- The canonical form: keys strictly rise and no entry equals what an unlisted key reads as. -/
def wf {β : Type} [DecidableEq β] (d : Nat → β) : Store β → Bool
  | [] => true
  | (j, v) :: m => decide (v ≠ d j) && m.all (fun p => decide (j < p.1)) && wf d m

end Store

end Sys2Proof.Machine
end

