-- ==== Sys2Proof/Machine/State.lean ====
section
/-! DEFINITION. The state of one KW1024: its registers, memories, the contexts that no register shows, and the queue of
commands that wait. Instants are integers in units of 2^-16 ps from epoch zero (02_epoch_grid.md R4, R50). -/

namespace Sys2Proof.Machine

/-! ## The tile sequencer (03_sequencer.md) -/

/-- The state of the algorithmic pattern generator (R80, R82). -/
structure Apg where
  x : BitVec 24 := 0
  y : BitVec 24 := 0
  lfsr : Word := 0
  dinv : Bool := false
  deriving DecidableEq, Repr

/-- A period change that waits for the next cycle, with the markers that its PERIOD emits at G (R65, R67). -/
structure PerReq where
  pidx : Nat
  marks : List (BitVec 8)
  deriving DecidableEq, Repr

inductive RunKind where
  | vec | rpt | hold
  deriving DecidableEq, Repr

/-- The cycles that one executed instruction has put into the issue queue and that have not begun (R59, R60). `apg` is the
generator's state in these cycles and `after` its state behind the last of them (R66); `entry` is the stall-safety of
entering the run's segment and `ssafe` that of its crossings (R111); `turned` says that a branch out of its fall-through segment has been
taken right behind it (R115), `switches` how many SEGSW stand behind it (R99). -/
structure Run where
  kind : RunKind
  tset : Nat
  cfmt : Bool := false
  strm : Bool := false
  ssafe : Bool := false
  entry : Bool := false
  seg : Nat := 0
  slot : Nat := 0
  left : Nat
  started : Bool := false
  marks : List (BitVec 8) := []
  per : Option PerReq := none
  turned : Bool := false
  switches : Nat := 0
  apg : Apg := {}
  after : Apg := {}
  deriving DecidableEq, Repr

/-- A condition of Table 3.3 as an instruction names it. -/
structure Cond where
  code : Nat
  neg : Bool
  csite : Nat
  clrf : Bool
  deriving DecidableEq, Repr

/-- A WAIT that has executed (R72); `d` is its decision point once the wait has begun. -/
structure WaitRec where
  cond : Cond
  count : Nat
  target : Nat
  marks : List (BitVec 8)
  d : Option Int := none
  deriving DecidableEq, Repr

/-- What stands behind the queued cycles: nothing, END, a BR or a WAIT that has executed, or an instruction that ends the step with a
status and a cause. -/
inductive Tail where
  | none
  | branching (i : SeqInstr)
  | stopping (status : BitVec 8) (cause : Nat)
  | ending (marks : List (BitVec 8))
  | waiting (w : WaitRec)
  deriving DecidableEq, Repr

/-- The sticky flags that conditions read (R70, R73). -/
inductive CondKey where
  | failAny | failSite (s : Nat) | maskv | trig (n : Nat) | linkev (n : Nat)
  deriving DecidableEq, Repr

/-! ## Edges, strobes, windows (05_timing.md, 07_time_measurement.md) -/

inductive Level where
  | vih | vil | vtt
  deriving DecidableEq, Repr

inductive Enable where
  | on | offLoadOff | offLoadOn
  deriving DecidableEq, Repr

/-- A drive edge of a cycle that ends at `stop`: D0 to D3, its exact instant (02_epoch_grid.md R50), and what it sets (R123, R124). `want` is the
ENABLE of its cycle where it is the enable edge; `inForce` is the ENABLE in force at it, set at `since`, and `enable` is what it sets, none
where these agree. -/
structure Edge where
  at_ : Int
  idx : Nat
  cyc : Nat
  stop : Int
  level : Option Level := none
  want : Option Enable := none
  inForce : Enable := .offLoadOff
  since : Int := 0
  enable : Option Enable := none
  deriving DecidableEq, Repr

inductive Expect where
  | low | high | mid | capture | profile
  deriving DecidableEq, Repr

/-- A compare, capture or profile strobe that its cycle, from `start` to `stop`, has issued and that has not resolved (R125, R126), with its exact
instants. -/
structure Strobe where
  cyc : Nat
  start : Int
  stop : Int
  expect : Expect
  fromE : Bool := false
  mode : Nat := 0
  s0 : Int
  s1 : Int
  px : Nat := 0
  py : Nat := 0
  dbit : Nat := 0
  deriving DecidableEq, Repr

/-- A stop window (R173, R175): its reference, compare window width and span, whether a strobe opens it, whether its opening has been
moved, and whether it has opened. -/
structure Win where
  cyc : Nat
  r : Int
  w : Int
  opens : Int
  closes : Int
  ofStrobe : Bool := true
  moved : Bool := false
  opened : Bool := false
  deriving DecidableEq, Repr

/-- The outputs of a channel's two comparators: high reads above, low reads below (06_pin_electronics.md R150). -/
structure CmpSample where
  hiAbove : Bool
  loBelow : Bool
  deriving DecidableEq, Repr

/-- The compares and captures of one cycle of a tile that have resolved so far, and how many have not (R198, R199, R201). -/
structure CycRec where
  cyc : Nat
  start : Int
  waiting : Nat
  codes : BitVec 64 := 0
  caps : BitVec 64 := 0
  anyFail : Bool := false
  anyUnknown : Bool := false
  anyCapt : Bool := false
  deriving DecidableEq, Repr

/-! ## Acquisition (08_acquisition.md) -/

/-- A record on its way to the ring: type, key instant in system-time units, cycle number where it has one, and the record's
words without the fields its anchor completes. A placeholder stands for a record lost for RATE (R213). -/
structure CapRec where
  typ : Nat
  time : Nat
  cyc : Option Nat := none
  w0 : Word := 0
  w2 : Word := 0
  w3 : Word := 0
  placeholder : Bool := false
  deriving DecidableEq, Repr

structure Gap where
  cause : Nat
  types : Nat
  lost : Nat
  start : Nat
  deriving DecidableEq, Repr

/-- The frame being written or last written, and where it has ended (R201, R206, R207). -/
structure FrameCtx where
  t : Int
  postLeft : Nat
  preHeld : Nat
  stop : Option Int := none
  deriving DecidableEq, Repr

structure HoldOff where
  start : Int
  left : Nat
  deriving DecidableEq, Repr

/-- Capture state of a tile that no register shows (R194, R197, R205 to R213): among it the frame written last, the slots of the records of
the last 1 µs with their key instants (17_power_thermal.md R412), the samples of the mask's lane that a trigger of CROSS may still lie before
(R210), the WAVE records that one of another lane may still have to go before (R197), the trigger instants of events that are to be
registered (R203), and whether the next record meets an uncorrectable error, and the slots whose records have one (R211, R213). -/
structure CapCtx where
  staged : Nat := 0
  stagedAt : Int := 0
  anchor : Option (Nat × Nat) := none
  gap : Option Gap := none
  trigs : Nat := 0
  pre : List CapRec := []
  frame : Option FrameCtx := none
  hold : Option HoldOff := none
  fails : Nat := 0
  prev : Option (Int × Int) := none
  armedUp : Bool := false
  armedDown : Bool := false
  mask : Option (Int × Nat) := none
  maskDue : Option Int := none
  past : Option FrameCtx := none
  recent : List (Nat × Int) := []
  samples : List (Int × Nat × Int) := []
  waves : List CapRec := []
  due : List Int := []
  ecc : Bool := false
  bad : List Nat := []
  deriving DecidableEq, Repr

/-- A fail bit (R214). -/
structure FcBit where
  px : Nat
  py : Nat
  dbit : Nat
  tile : Nat
  lane : Nat
  cyc : Nat
  deriving DecidableEq, Repr

/-- A row key (PX, PY and RMASK; dbit 0) or a column key (PX and CMASK, PY, DBIT) with its count (R214, R215). -/
structure FcKey where
  px : Nat
  py : Nat
  dbit : Nat := 0
  count : Nat
  mr : Bool := false
  deriving DecidableEq, Repr

/-- The compressor state of one site in one tile, or the merged repair data of a site with the calibration epoch of its step (R215, R216;
09_calibration.md R235). -/
structure FcSite where
  bits : List FcBit := []
  rows : List FcKey := []
  cols : List FcKey := []
  ovf : Nat := 0
  absorb : Nat := 0
  ovfList : Bool := false
  ovfRow : Bool := false
  ovfCol : Bool := false
  ovfPool : Bool := false
  noRepair : Bool := false
  corrupt : Bool := false
  epoch : Option Word := none
  deriving DecidableEq, Repr

/-! ## Tile and channel contexts -/

/-- A power-state request of a tile (17_power_thermal.md R400 to R402): the state, the number of the POWER_STATE it belongs to and that
one's session, and the system time of its scheduled thaw. -/
structure PwrReq where
  target : Nat
  op : Option Nat := none
  session : BitVec 5 := 0
  sched : Option Nat := none
  started : Bool := false
  deriving DecidableEq, Repr

/-- A calving that is decided (16_self_repair.md R388 to R393): the numbers of the CALVEs that wait for it, whether a permanent
fault or an injected fault decided it, whether a CALVE did, whether the target has passed its check, and whether the
migration runs. -/
structure Calving where
  ops : List Nat := []
  permanent : Bool := false
  inj : Bool := false
  host : Bool := false
  checked : Bool := false
  moving : Bool := false
  deriving DecidableEq, Repr

/-- What of a tile no register shows. `away` lists the channels that the measurement after a calving has taken to OFF (R392).
`reached` is when a STEP_ARM or a power-state change has reached the tile last, `epoch` the calibration epoch of its latest step
(09_calibration.md R228, R235). `lastE` is the end of the last issued cycle, 0 before the step runs; `endE` is where the next
cycle is due, later than `lastE` behind a wait or a stall (R51, R72, R111), and `fillE` the E of a period change, the end of
the last issued cycle or of a stall (R52, R54). `asked` is the start time that the step's STEP_START
declared (01_architecture.md R21), `execAt` the tile clock of the last executed instruction and `fresh` the number of
cycles at the last start with a full queue (03_sequencer.md R60, R61). `turn` says that a branch out of the fall-through segment is taken at the end
of the last cycle, `placing` that the last executed instruction has cycles that the issue queue does not hold yet, and `closing` that
no cycle follows and the step ends once its compares have their outcomes. `wraps` counts the wraps of the count since the tile runs
on the grid of an old epoch (02_epoch_grid.md R38). `calLost` says that the tile has lost its registers in OFF and has not applied a
calibration state since (09_calibration.md R234). -/
structure TileCtx where
  queue : List Run := []
  pendPer : Option PerReq := none
  pendMarks : List (BitVec 8) := []
  ex : Apg := {}
  execCur : Nat := 0
  boundary : Option (Nat × Bool × Bool) := none
  tail : Tail := .none
  group : Nat := 0
  startAt : Int := 0
  asked : Int := 0
  pidx : Nat := 0
  period : Nat := 0
  endE : Int := 0
  lastE : Int := 0
  fillE : Int := 0
  execAt : Option Int := none
  fresh : Nat := 0
  curC : Int := 0
  grid : List (Nat × Int × Nat) := []
  lastSeg : Option Nat := none
  fall : Option Nat := none
  turn : Bool := false
  placing : Bool := false
  closing : Bool := false
  consumed : List Nat := []
  tc : Store Int := []
  stall : Option (Int × Nat) := none
  conds : List (CondKey × Int) := []
  matches_ : List (Int × Nat × Bool) := []
  siteFail : BitVec 256 := 0
  siteInd : BitVec 256 := 0
  cycs : List CycRec := []
  cap : CapCtx := {}
  fc : Store FcSite := []
  flags : Word := 0
  policy : Word := 0
  failRecs : Nat := 0
  armedBy : Option (BitVec 5) := none
  endStatus : BitVec 8 := 0
  partSeg : Bool := false
  pwr : List PwrReq := []
  thaw : Option (BitVec 5) := none
  calv : Option Calving := none
  deskew : Bool := false
  away : List Nat := []
  reached : Option Int := none
  epoch : Option Word := none
  wraps : Nat := 0
  calLost : Bool := false
  stops : List (Nat × Bool × Int) := []
  deriving DecidableEq, Repr

/-- What of a channel no register shows. `carried` are the drive edges that later cycles may still stand before or conflict with
(05_timing.md R123, R129). `prior` is the drive condition of the last issued cycle while a stall's hold condition stands
(03_sequencer.md R77). Levels in `applied` are the codes that the converters hold (06_pin_electronics.md
R142, R145); `holding` lists the levels inside their 30 µs hold, each with the code at which its output is held, and `settling` those inside
their 60 µs settle window (R143); `safe`
says that a safety reaction or a fence holds the channel as mode OFF does (R136); `retest` is 1 while a retest is due at the
step boundary and 2 while it runs (15_safety_faults.md R379); `inj` that an injected fault caused it (R382); `due`, `checkedAt` and `ran` are
when the next comparator check is due, when the last one ended, and the RUNNING time since then in steps that have ended (R155); `rangedFrom` is the
range before the last change of range or force (R159); `lent` that
a calibration run has taken the channel to OFF and nothing else has reached it since; `reached` when a write to CH_MODE or a reaction has
reached it last (09_calibration.md R228, R239). -/
structure ChanCtx where
  level : Level := .vil
  enable : Enable := .offLoadOff
  prior : Option (Enable × Level) := none
  carried : List Edge := []
  hiAbove : Bool := false
  loBelow : Bool := false
  strobes : List Strobe := []
  wins : List Win := []
  lastStop : Option Int := none
  chkBad : Bool := false
  applied : Store (BitVec 16) := []
  holding : List (Nat × BitVec 16) := []
  settling : List Nat := []
  clearDeferred : Bool := false
  resetQueued : Bool := false
  gateMoving : Bool := false
  forcing : Bool := false
  pmuSum : Int := 0
  pmuN : Nat := 0
  pmuTimes : Nat := 0
  pmuOvr : Bool := false
  pmuClamp : Bool := false
  pmuRanging : Bool := false
  rangedFrom : Nat := 0
  xchk : Store Nat := []
  safe : Bool := false
  retest : Nat := 0
  inj : Bool := false
  due : Int := 0
  checkedAt : Int := 0
  ran : Int := 0
  lent : Bool := false
  reached : Option Int := none
  deriving DecidableEq, Repr

/-- The measurement converter of a quad (06_pin_electronics.md R160): the last of its conversions that has come, counted in intervals of 500 ns,
the lane that a user conversion has served last, and the node, lane × 12 + number, that R146 has checked last. -/
structure Quad where
  slot : Option Nat := none
  lane : Nat := 3
  node : Nat := 47
  deriving DecidableEq, Repr

/-- What of a sentinel no register shows (06_pin_electronics.md R162 to R164). -/
structure SntCtx where
  forcing : Bool := false
  clearDeferred : Bool := false
  knownHi : Bool := false
  knownLo : Bool := false
  hiAbove : Bool := false
  loBelow : Bool := false
  outside : Bool := false
  viol : Bool := false
  deriving DecidableEq, Repr

/-- A fence that is requested and not yet applied (15_safety_faults.md R378, R380; 16_self_repair.md R389): its kind and unit, the
number of the FENCE it belongs to, if any, and its cause: 1 for FENCE and the fence-mask words, 3 or 5 for a tile without a serac. -/
structure FenceReq where
  kind : Nat
  unit : Nat
  op : Option Nat := none
  cause : Nat := 1
  deriving DecidableEq, Repr

/-! ## Calibration (09_calibration.md) -/

/-- One calibration item (Table 9.3) with the Tj and operating time of its measurement (R231, R238); an item of epoch 0 has
no recorded measurement. -/
structure CalItem where
  values : List Int := []
  tj : Int := 0
  hours : Nat := 0
  noTrace : Bool := false
  measured : Bool := false
  deriving DecidableEq, Repr

/-! ## Security (13_security.md) -/

/-- A limit entry of a bundle (R336). -/
structure Limit where
  src : Nat
  site : Nat
  ch : Nat
  lo : Int
  hi : Int
  deriving DecidableEq, Repr

/-- A section of a bundle as staged: type, tiles, offset and data (R325). -/
structure Section where
  typ : Nat
  tilesLo : Word
  tilesHi : Word
  offset : Nat
  data : List Byte
  deriving DecidableEq, Repr

/-- A bundle in its vault slot: digest, key (R323), segment tags, limits, first stream number, and the SHARE_MASK words it wrote. -/
structure Bundle where
  digest : List Byte := []
  key : List Byte := []
  id : List Byte := []
  tags : Store (Option (List Byte)) := []
  limits : List Limit := []
  seq0 : Nat := 0
  shareWords : List Nat := []
  deriving DecidableEq, Repr

/-- A bundle load that is staging (R326, R327). -/
structure Staging where
  session : BitVec 5
  tilesLo : Word
  tilesHi : Word
  nextPart : Nat
  nextIndex : Nat
  nsect : Nat
  bytes : Nat
  policy : Word
  bundle : Bundle
  sectDigest : List Byte
  received : List Byte
  sections : List Section
  at_ : Int := 0
  deriving DecidableEq, Repr

/-- Of a segment that is being written: the ciphertext received so far in order, and the stream sequence number that it belongs to
(R329, R104); and the bytes that writes with a bad trailer have left, as offset and length (10_uhleus_protocol.md R254). -/
structure SegSeal where
  cipher : List Byte := []
  seq : Option Nat := none
  bad : List (Nat × Nat) := []
  deriving DecidableEq, Repr

/-- A step that ended last on its tiles, for its attestation (R335, R338, R339); `gone` are the sites of tiles that were aborted before
they ran, and `aborted` says that an ABORT reached the step. -/
structure StepRec where
  tiles : List Nat
  flags : Word
  bundleDigest : List Byte
  repImages : List Byte
  epoch : Word
  startAt : Int
  endAt : Int
  mrnSeq : Word
  policy : Word
  repGen : Word
  bins : List (Nat × Nat)
  gone : BitVec 256 := 0
  aborted : Bool := false
  deriving DecidableEq, Repr

/-- An image of results that waits for its STEP_START's completion or its automatic attestation (R267, R339). -/
structure Merge where
  group : Nat
  status : BitVec 8
  params : List Word
  record : StepRec
  deriving DecidableEq, Repr

/-! ## Thermal monitor (17_power_thermal.md R405 to R408) -/

/-- For each sensor the samples it has disagreed for and its last 8 contributions; the sensors whose last slope passed 10 °C/s; the
samples since a slope reached 8 °C/s; the evaluations for which the rise and the release condition have held; whether a rise
has named a hot region; and whether the present spell of the rise condition has caused a throttle abort. -/
structure Therm where
  dis : Store Nat := []
  hist : Store (List Int) := []
  steep : List Nat := []
  calm : Nat := 0
  rise : Nat := 0
  fall : Nat := 0
  hot : Bool := false
  aborted : Bool := false
  deriving DecidableEq, Repr

/-! ## The protocol (10_uhleus_protocol.md) -/

/-- A packet of the device: a reply (kind 1), a completion event (2) or a spontaneous event (3), with its opcode, status,
parameter words, payload, and the link it goes out on (R241, R243, R246); `behind` are the packets of the streaming operations whose replies
leave before it (R256), `entry` the microaddress of the completion routine that a patch has registered (11_naljo_engine.md R277). -/
structure Packet where
  kind : Nat
  opcode : BitVec 8
  status : BitVec 8
  session : BitVec 5
  tag : BitVec 16 := 0
  dest : BitVec 14 := 0
  link : Nat := 0
  params : List Word := []
  payload : List Byte := []
  cells : Nat := 0
  slots : Nat := 0
  behind : List Nat := []
  entry : Option Nat := none
  deriving DecidableEq, Repr

/-- A split-phase operation in progress (R256, R257): a number of its own, its opcode, session and tag, QUIET, the parameters and payload of its
request, a stage number and list of numbers that its opcode's rules use, and whether a POWER_STATE has begun a transition; of a
STEP_START, the sites of its tiles that were aborted before they ran, and their calibration epoch; the order in which its request was
received; and the microaddress of its completion routine, where a patch has registered one (11_naljo_engine.md R277). -/
structure Split where
  id : Nat := 0
  opcode : BitVec 8
  session : BitVec 5
  tag : BitVec 16
  quiet : Bool := false
  live : Bool := true
  params : List Word := []
  payload : List Byte := []
  verdict : Verdict := {}
  stage : Nat := 0
  aux : List Nat := []
  begun : Bool := false
  sites : BitVec 256 := 0
  epoch : Word := 0
  age : Nat := 0
  entry : Option Nat := none
  deriving DecidableEq, Repr

/-- A streaming operation whose checks have passed and whose payload is still arriving (R252): the tiles, with the segment of each, that it
writes, the payload bytes that it can apply at most, those that it has applied, and the tile in which its segment has been locked since
(04_pattern_store.md R95). -/
structure Writing where
  op : BitVec 8
  q : Req
  targets : List (Nat × Nat)
  limit : Nat
  done : Nat := 0
  locked : Option Nat := none
  deriving DecidableEq, Repr

/-- A moraine record without its MAC, which `recordMac` gives (18_moraine_counters.md Table 18.1). -/
structure MrnRec where
  hours : Word
  pwrcyc : Word
  time : BitVec 64
  code : BitVec 16
  flags : BitVec 8
  data : List Byte
  deriving DecidableEq, Repr

/-- The private registers of the engine's routine (11_naljo_engine.md R269): the 64 scratch registers, none of them listed while they are
undefined, the call stack of at most 4 microaddresses, the microaddress and the microword fetched last; the microwords issued and their
control clocks; the result and the check that a condition looks at; the mover or unit started last; whether the routine has replied; the
completion event that a completion routine is to send, with what R253 and R255 say of it; and what a trap abandoned: microaddress, opcode,
session and tag. -/
structure Micro where
  scratch : List Word := []
  stack : List Nat := []
  pc : Nat := 0
  word : Word := 0
  issued : Nat := 0
  clocks : Nat := 0
  last : Word := 0
  checked : Bool := true
  unit : Option Word := none
  replied : Bool := false
  event : Option (Packet × Bool × Bool) := none
  trapped : Option (Nat × BitVec 8 × BitVec 5 × BitVec 16) := none
  deriving DecidableEq, Repr

/-- What the dump mover reads at a trap (18_moraine_counters.md R430): the register file with what its views show, the tiles in hold-off,
the tiles that hold a bundle, the sealed segments, the SHARE_MASK words that bundles wrote, the staged moraine records, and the routine's
registers. -/
structure DumpImage where
  regs : Store Word := []
  evc : Store Nat := []
  evs : Store Nat := []
  maxLen : Nat := 0
  maxClk : Nat := 0
  rx : Word := 0
  hold : List Nat := []
  bundled : List Nat := []
  segs : List (Nat × Nat) := []
  shared : List Nat := []
  staged : List (Nat × MrnRec) := []
  micro : Micro := {}
  deriving DecidableEq, Repr

/-- A fatal-error dump: its number, the trap's cause, the SEQ of its TRAP record, its system time, MCODE_VERSION, chip ID and life-cycle
state, the dump's length, whether an injected fault caused the trap, and what its sections show (18_moraine_counters.md R429, Table 18.4). -/
structure Dump where
  id : Nat
  cause : Nat
  seq : Word
  time : BitVec 64
  mcode : Word
  chip : Nat
  lc : Nat
  length : Nat
  inj : Bool := false
  image : DumpImage := {}
  flashOnly : Bool := false
  deriving DecidableEq, Repr

/-- What each of the 33 contexts (sessions 0 to 31, then the Veing port) holds beside its registers (22_register_map.md R490):
EVCHIP of its HELLO (R256), the credits not yet returned (R250), the events dropped since the last EVENTS_LOST, the latched
high words of SYSTIME, EVC and EVS (R57, R423), the moraine cursor, status and window (R421), and
the owner key that an ownership ticket named (13_security.md R311, R319). -/
structure Ctx where
  evchip : Bool := false
  retCells : Nat := 0
  retSlots : Nat := 0
  evLost : Nat := 0
  sysHi : Word := 0
  evcHi : Store Word := []
  evsHi : Store Word := []
  cursor : Word := 0
  rstat : Word := 0
  win : List Word := []
  ticket : List Byte := []
  deriving DecidableEq, Repr

/-- What follows the sending of a completion event: nothing, the tiles of a group become IDLE (01_architecture.md Table 1.3), or every
session closes (13_security.md R318). -/
inductive After where
  | none | idle (group : Nat) | closeAll
  deriving DecidableEq, Repr

/-- Work that waits at the engine's next micro-routine boundary, in the four classes of R33. A completion event is sent unless its session
has closed (`live`, R253) or QUIET suppresses it (`quiet`, R255). -/
inductive Item where
  | trap (cause : Nat)
  | safety (f : Nat) (unit : Nat) (src : Nat)
  | fault (base : Nat) (src : Nat)
  | overflow (m : Nat)
  | completion (p : Packet) (live : Bool := true) (quiet : Bool := false) (after : After := .none)
  | request (opcode : BitVec 8) (q : Req)
  deriving DecidableEq, Repr

/-! ## Links (12_serial_links.md) -/

/-- A packet that is arriving in one class of a link (12_serial_links.md R291, R294): its number, its bytes and frames so far, the links
on which it is being forwarded (10_uhleus_protocol.md R245), whether the device takes it itself, whether the request has been
received from its header (R252), the number of frames, the cells that it counts for in SESS_LOAD (R268), and whether it is a stream packet that is
forwarded while it arrives. -/
structure RxPkt where
  pkt : Nat := 0
  bytes : List Byte := []
  outs : List Nat := []
  mine : Bool := false
  begun : Bool := false
  frames : Nat := 0
  cells : Nat := 0
  through : Bool := false
  deriving DecidableEq, Repr

/-- A frame that waits to be sent: its packet's number, the link it came from, if any, a number that its copies share, and, with the first
frame of a packet of the device, that packet. -/
structure OutFrame where
  frame : Frame
  pkt : Nat
  src : Option Nat := none
  id : Nat := 0
  own : Option Packet := none
  deriving DecidableEq, Repr

/-- The receiver of a lane (12_serial_links.md R285): whether it has block lock, the sync headers of the window it tests and the invalid
ones among them, and the 58 payload bits received last, which descramble the next. -/
structure LaneRx where
  lock : Bool := true
  headers : Nat := 0
  invalid : Nat := 0
  past : BitVec 58 := 0
  deriving DecidableEq, Repr

/-- The transmitter of a lane (12_serial_links.md R285, R287): the last 58 line bits, the newest in bit 57, and the parities of the payload bits
sent since its last AM. -/
structure LaneTx where
  past : BitVec 58 := 0
  bip : BitVec 8 := 0
  deriving DecidableEq, Repr

/-- What a link sends: frames, event and time messages, alignment markers and control blocks (12_serial_links.md R286, R295), and raw bits that
it returns to its partner (R306). -/
inductive Wire where
  | frame (f : Frame)
  | event (ev origin : Nat)
  | time (t : BitVec 64) (chip : Nat)
  | am (lane link : Nat)
  | linkctl (r : LinkCtlReq)
  | bits (l : List (Fin 8 × List Bool))
  deriving DecidableEq, Repr

/-- What of a link no register shows: the next sequence number, the replay buffer with each frame's replays, the frames that wait
for credit, the packet that holds each class, the class served last, the highest sequence number received in order, whether a NAK
stands, the packets that are arriving, the credits to return, the frames received since the last one sent, the failed attempts
since the last success (one drop from ACTIVE or RETRAIN counts as one), whether the replay limit caused the retrain, whether the link
loops the partner's bits back, the event messages held, the ones due, what has been sent in its order, lanes whose last
AM was wrong, the BIP errors of each lane, the FENCE commands that wait for a retrain (R288 to R299, R304), in eighths, the stream
credits that throttle stage 2 lets the device return (04_pattern_store.md R107), the receivers of the lanes,
when the link has entered its state, the multiple of 2^28 of the last time message, the time towards the next alignment marker in 1/33 of
a block, whether the board reverses the lanes, and the equalisation in force (R287, R289, R298 to R300); the good lanes of the last training;
the lane among the active ones that the next block goes to, the transmitters, and the blocks that the lanes have sent (R285, R286); the PRBS31
generators and checkers of the lanes, with the bits that a checker has taken its reference from (R306). -/
structure LinkCtx where
  txNext : Nat := 0
  outst : List (Frame × Nat) := []
  queue : List OutFrame := []
  busy : Store (Option Nat) := []
  turn : Nat := 0
  rxAck : Nat := 4095
  nak : Bool := false
  rx : Store RxPkt := []
  owe : Store Nat := []
  since : Nat := 0
  fails : Nat := 0
  limit : Bool := false
  loop : Bool := false
  held : List (Nat × Nat) := []
  wire : List Wire := []
  events : List (Nat × Nat) := []
  amBad : List Nat := []
  bips : List (Nat × Int) := []
  pendFence : List Nat := []
  pace : Nat := 0
  lanes : Store LaneRx := []
  entered : Option Int := none
  lastTime : Option Nat := none
  amTick : Nat := 0
  reversed : Bool := false
  eq : Store (Word × Word) := []
  good : List Nat := []
  next : Nat := 0
  tx : Store LaneTx := []
  line : List (Nat × BitVec 66) := []
  prbs : Store (BitVec 31) := []
  check : Store (Nat × BitVec 31) := []
  deriving DecidableEq, Repr

/-! ## Broadcast streams (04_pattern_store.md R105 to R108) -/

/-- A stream packet: its group, whether it is a SEG_COMMIT, the request, the frames whose stream credit is owed, and whether it has been
accepted and forwarded while it arrived (12_serial_links.md R294). -/
structure StrmPkt where
  group : Nat
  commit : Bool
  q : Req
  frames : Nat := 0
  through : Bool := false
  deriving DecidableEq, Repr

/-- What of a stream slot no register shows: the session that opened it, and the tiles that have received the present segment from its
first cell on. -/
structure Strm where
  owner : Option (BitVec 5) := none
  cur : List Nat := []
  deriving DecidableEq, Repr

/-! ## The management ports (19_management_ports.md) -/

/-- The Veing port: MSEL, the response that a frame shifts out, the response to offer next, whether the two are the same, the command
that is executing (CMD, SEQ, DATA), the write and the read holding register, and what waits for a response to have been shifted out:
an address and a warm reset (R434 to R443). -/
structure Veing where
  sel : Bool := false
  offered : Word := 0
  resp : Word := 0
  fresh : Bool := false
  cmd : Option (Nat × Nat × Nat) := none
  wh : BitVec 16 := 0
  rh : BitVec 16 := 0
  addr : Option Nat := none
  reset : Bool := false
  deriving DecidableEq, Repr

/-- A single-I/O command on the boot flash: its opcode, address with the number of its bytes, dummy clocks, clock in units of 100 kHz, bytes
read, and bytes written (19_management_ports.md R448). -/
structure FlashCmd where
  opcode : Byte
  addr : Nat := 0
  addrBytes : Nat := 0
  dummy : Nat := 0
  rate : Nat := 500
  reads : Nat := 0
  data : List Byte := []
  deriving DecidableEq, Repr

/-- The peripheral port: queued entries (PP_TXCTL and PP_TXDATA), received words, the select that an entry holds, what out entries
have driven (select, bits, data) (R444 to R447), the commands that the internal master has driven on PCS0, and whether SFDP declared 4-byte
addressing (R448). -/
structure Pp where
  queue : List (Word × Word) := []
  rx : List Word := []
  held : Option Nat := none
  out : List (Nat × Nat × Nat) := []
  flash : List FlashCmd := []
  wide : Bool := false
  deriving DecidableEq, Repr

/-! ## The whole machine -/

/-- Why a step stops. No command of this model ends in one: the operands of every command are drawn from finite types, so no
command names a unit that does not exist. -/
inductive Fault where
  /-- Raised by nothing. It stands for a command that names a unit outside the device; stopping there would be safe. -/
  | noSuchUnit
  deriving DecidableEq, Repr

/-- Why a command has no meaning. -/
inductive Refusal where
  /-- Raised by Dispatch for a row that has no meaning yet; safe. -/
  | notModelled (mnemonic : String)
  deriving DecidableEq, Repr

/-- A repair: in a macro, a failing row or column and the spare that replaces it (14_memories.md R356). -/
structure Repair where
  macro_ : Nat
  column : Bool
  line : Nat
  spare : Nat
  deriving DecidableEq, Repr

/-- The factory entries of OTP. -/
def factoryEntries : List Repair :=
  (List.range Config.factoryRepairs.toNat).map fun i =>
    { macro_ := Config.factoryMacro i, column := Config.factoryColumn i, line := Config.factoryLine i, spare := Config.factorySpare i }

/-- A repair that no field entry holds: the core whose stores it is in, and whether an injected defect caused it (R357, R358). -/
structure SoftRepair where
  core : Option Nat
  injected : Bool
  rep : Repair
  deriving DecidableEq, Repr

/-- A source that has set in a block since its bit was clear: whether injected, when, and the SEQ of its moraine record (R383). -/
structure FaultMark where
  block : Nat
  source : Nat
  inj : Bool
  instant : Int
  seq : Nat
  deriving DecidableEq, Repr

/-- The KW1024. `regs` is the one home of every register but SYSTIME, EVC, EVS, ENG_MAXLEN and ENG_MAXCLK, which are views of
`sysTime`, `evc`, `evs`, `maxLen` and `maxClk`. -/
structure State where
  regs : Store Word := []
  mem : Store Byte := []
  sysTime : BitVec 64 := 0
  tiles : Store TileCtx := []
  chans : Store ChanCtx := []
  ctxs : Store Ctx := []
  evc : Store Nat := []
  evs : Store Nat := []
  held : List (Nat × Nat × Nat) := []
  faultMarks : List FaultMark := []
  calPend : Store (Option CalItem) := []
  calNew : Store CalItem := []
  calApplied : Store CalItem := []
  syncPhases : List Int := []
  syncCount : Nat := 0
  syncD : Int := 0
  ocxo : Bool := false
  warmSecs : Nat := 0
  warmLog : List (Int × Bool) := []
  refvLog : List (Int × Bool) := []
  commitAt : Int := 0
  refFreqs : List Int := []
  bundles : Store Bundle := []
  staging : Option Staging := none
  segSeal : Store SegSeal := []
  ackGen : Nat := 0
  sealForever : Bool := false
  steps : List StepRec := []
  merges : List Merge := []
  windows : List (Int × Int) := []
  excursions : Store (Option Int) := []
  trigOut : Store Int := []
  lvlClr : Bool := false
  vioSel : Option Byte := none
  snts : Store SntCtx := []
  quads : Store Quad := []
  fenceReq : List FenceReq := []
  unfenceReq : List (Nat × Nat) := []
  logDue : List (Nat × Nat) := []
  coreDue : List (Nat × Bool) := []
  corePass : Store (List Nat) := []
  therm : Therm := {}
  syncArmed : Option Nat := none
  links : Store LinkCtx := []
  ids : Nat := 0
  veing : Veing := {}
  pp : Pp := {}
  measures : List Req := []
  measured : List (Req × Word) := []
  writes : List Writing := []
  strms : Store Strm := []
  strmWait : List StrmPkt := []
  rr : Nat := 32
  maxLen : Nat := 0
  maxClk : Nat := 0
  overrides : List (Nat × Nat) := []
  micro : Micro := {}
  trigIn : Store (Option Nat) := []
  armedSites : List Nat := []
  injFence : List (Nat × Nat) := []
  injHeld : List (Nat × Nat × Nat) := []
  soft : List SoftRepair := []
  repairs : List Repair := factoryEntries
  btAt : Option Int := none
  btHead : List Nat := []
  corrections : List ((Nat × Nat) × Int) := []
  eccWords : List (Nat × Nat) := []
  eccReal : List (Nat × Nat) := []
  spareAt : Store Nat := []
  supStop : List Nat := []
  sealStuck : Bool := false
  drbgBad : Bool := false
  eccFrame : Bool := false
  attests : List (Nat × StepRec) := []
  cert : Option (List Byte) := none
  certDigest : Option (List Byte) := none
  certBad : Bool := false
  mrnClear : Nat := 0
  dumping : Option Dump := none
  dump : Option Dump := none
  dumpFlash : Option Dump := none
  tap : BitVec 4 := 2
  groups : Nat := 0
  items : List Item := []
  splits : List Split := []
  txq : List Packet := []
  sent : List Packet := []
  rep : Store FcSite := []
  mrn : Store (Option MrnRec) := []
  staged : List Nat := []
  mrnLost : Nat := 0
  freeCtr : Nat := 0
  answer : Nat := 0
  pending : List Instr := []
  deriving DecidableEq, Repr

/-- The machine right after power-on reset: every register at its reset value (00_scope.md R10), nothing listed in memory, no
command waiting. -/
def State.reset : State := {}

end Sys2Proof.Machine
end

