-- ==== Sys2Proof/Machine/Ops.lean ====
section
/-! DEFINITION. The named operations over registers, memories, contexts, packets, events, the moraine and faults. -/

namespace Sys2Proof.Machine

/-! ## Registers (00_scope.md R5, R9) -/

/-- The register word at a byte address. -/
def State.rget (s : State) (a : Nat) : Word := Store.get regReset s.regs a

/-- The register word at a byte address set, by the hardware. -/
def State.rset (s : State) (a : Nat) (v : Word) : State := { s with regs := Store.put regReset s.regs a v }

/-- A bit field as a number. -/
def field (w : Word) (hi lo : Nat) : Nat := w.toNat / 2 ^ lo % 2 ^ (hi - lo + 1)

/-- A word with the bit field at hi:lo replaced. -/
def setField (w : Word) (hi lo v : Nat) : Word :=
  let m : Word := BitVec.ofNat 32 ((2 ^ (hi - lo + 1) - 1) * 2 ^ lo)
  (w &&& ~~~m) ||| (BitVec.ofNat 32 (v * 2 ^ lo) &&& m)

/-- A register field as a number. -/
def State.fget (s : State) (f : Fld) : Nat := field (s.rget f.addr) f.hi f.lo

/-- A register field set by the hardware, cut to its width. -/
def State.fset (s : State) (f : Fld) (v : Nat) : State := s.rset f.addr (setField (s.rget f.addr) f.hi f.lo v)

/-- Whether a one-bit field is set. -/
def State.flag (s : State) (f : Fld) : Bool := s.fget f != 0

/-- A one-bit field set or cleared. -/
def State.setFlag (s : State) (f : Fld) (b : Bool) : State := s.fset f b.toNat

/-- A count raised by `k`; it saturates at the field's largest value. -/
def State.count (s : State) (f : Fld) (k : Nat := 1) : State := s.fset f (min (s.fget f + k) (2 ^ (f.hi - f.lo + 1) - 1))

/-- A pair of registers as one number. -/
def State.pair (s : State) (lo hi : Nat) : Nat := (s.rget lo).toNat + 2 ^ 32 * (s.rget hi).toNat

/-- A pair of registers set; the value wraps at 64 bits. -/
def State.setPair (s : State) (lo hi : Nat) (v : Nat) : State :=
  (s.rset lo (BitVec.ofNat 32 v)).rset hi (BitVec.ofNat 32 (v / 2 ^ 32))

/-- A number read as a signed field of width `w`. -/
def signed (w v : Nat) : Int := if v < 2 ^ (w - 1) then v else (v : Int) - 2 ^ w

/-- An integer as a two's complement number of width `w`. -/
def unsigned (w : Nat) (v : Int) : Nat := (v % 2 ^ w).toNat

/-- Every register of a predicate back at its reset value. -/
def State.resetRegs (s : State) (p : Nat → Bool) : State := { s with regs := s.regs.filter fun e => !p e.1 }

/-! ## Time (02_epoch_grid.md R37) -/

/-- One system-time unit in units of 2^-16 ps. -/
def unitFs : Int := 256000
/-- 1.25 ns, one tile clock. -/
def tileClock : Int := 81920000
/-- 40 ns, the cutoff of R71. -/
def condDelay : Int := 2621440000
/-- 50 ns, the readiness delay of R110. -/
def readyDelay : Int := 3276800000
/-- 2 µs, the least distance of a scheduled start (R21, R22). -/
def startDelay : Int := 131072000000
/-- 0.25 ps, one edge code. -/
def edgeUnit : Int := 16384

/-- The present instant in units of 2^-16 ps. -/
def State.now (s : State) : Int := s.sysTime.toNat * unitFs

/-- ceil(a / b) for positive b. -/
def ceilDiv (a b : Int) : Int := -((-a) / b)

/-- The first grid point of period `p` at or after an instant (R50, R51). -/
def gridFrom (p : Nat) (i : Int) : Int := ceilDiv i p * p

/-- The first tile clock edge at or after an instant: tile clocks count from epoch zero. -/
def tileEdge (i : Int) : Int := ceilDiv i tileClock * tileClock

/-- The system-time unit an instant lies in. -/
def sysOf (i : Int) : Nat := (i / unitFs).toNat

/-! ## Memories (14_memories.md R345) -/

/-- Where a byte of a memory space stands. The spaces of a tile are the stores of the core that runs it: a migration takes them along, and the
stores of a core that runs no tile, which rests in OFF, hold nothing that a command reads (16_self_repair.md R387, R390; log entry 85). -/
def memKey (space tile off : Nat) : Nat := (space * 64 + tile) * 2 ^ 23 + off

/-- What a byte of memory that nothing has written reads as (log entry 3). -/
def unwritten (_ : Nat) : Byte := 0

def State.mget (s : State) (space tile off : Nat) : Byte := Store.get unwritten s.mem (memKey space tile off)

def State.mset (s : State) (space tile off : Nat) (v : Byte) : State :=
  { s with mem := Store.put unwritten s.mem (memKey space tile off) v }

/-- Bytes written at rising offsets. -/
def State.mwrite (s : State) (space tile off : Nat) : List Byte → State
  | [] => s
  | b :: bs => (s.mset space tile off b).mwrite space tile (off + 1) bs

/-- Words that hold an uncorrectable error, of a space of a core, are good again where bytes `off` to `off + n - 1` are written: each write stores
check bits (R347). -/
def State.eccFresh (s : State) (space core off n : Nat) : State :=
  { s with eccReal := s.eccReal.filter fun w =>
      !(w.1 == core * 256 + space && decide (max w.2 off < min (w.2 + 8) (off + n))) }

def State.mread (s : State) (space tile off n : Nat) : List Byte :=
  (List.range n).map fun i => s.mget space tile (off + i)

/-- Bytes as a number, least significant byte first (R3). -/
def leNat : List Byte → Nat
  | [] => 0
  | b :: bs => b.toNat + 256 * leNat bs

/-- A number as `n` bytes, least significant byte first. -/
def leBytes : Nat → Nat → List Byte
  | 0, _ => []
  | n + 1, v => BitVec.ofNat 8 v :: leBytes n (v / 256)

def wordBytes (w : Word) : List Byte := leBytes 4 w.toNat

/-- The 32-bit word at a byte offset. -/
def State.mword (s : State) (space tile off : Nat) : Word := BitVec.ofNat 32 (leNat (s.mread space tile off 4))

/-- A payload as words. -/
def wordsOf : List Byte → List Word
  | a :: b :: c :: d :: r => BitVec.ofNat 32 (leNat [a, b, c, d]) :: wordsOf r
  | _ => []

/-- Every byte of a range of keys erased: it reads as unwritten memory again. -/
def State.merase (s : State) (p : Nat → Bool) : State := { s with mem := s.mem.filter fun e => !p e.1 }

/-- Every byte of a memory space of a tile erased. -/
def State.eraseSpace (s : State) (space tile : Nat) : State := s.merase fun k => k / 2 ^ 23 == space * 64 + tile

/-- An element goes into a sorted list, before the elements that `lt` puts behind it. -/
def insertBy {β : Type} (lt : β → β → Bool) (x : β) : List β → List β
  | [] => [x]
  | y :: l => if lt x y then x :: y :: l else y :: insertBy lt x l

/-- A list in ascending order. -/
def sortBy {β : Type} (lt : β → β → Bool) : List β → List β
  | [] => []
  | x :: l => insertBy lt x (sortBy lt l)

/-! ## Contexts -/

def State.tile (s : State) (t : Nat) : TileCtx := Store.get (fun _ => {}) s.tiles t
def State.setTile (s : State) (t : Nat) (c : TileCtx) : State := { s with tiles := Store.put (fun _ => {}) s.tiles t c }
def State.modTile (s : State) (t : Nat) (f : TileCtx → TileCtx) : State := s.setTile t (f (s.tile t))

def State.chan (s : State) (c : Nat) : ChanCtx := Store.get (fun _ => {}) s.chans c
def State.setChan (s : State) (c : Nat) (x : ChanCtx) : State := { s with chans := Store.put (fun _ => {}) s.chans c x }
def State.modChan (s : State) (c : Nat) (f : ChanCtx → ChanCtx) : State := s.setChan c (f (s.chan c))

def State.ctx (s : State) (n : Nat) : Ctx := Store.get (fun _ => {}) s.ctxs n
def State.setCtx (s : State) (n : Nat) (x : Ctx) : State := { s with ctxs := Store.put (fun _ => {}) s.ctxs n x }
def State.modCtx (s : State) (n : Nat) (f : Ctx → Ctx) : State := s.setCtx n (f (s.ctx n))

/-- What of a stream slot no register shows. -/
def State.strm (s : State) (n : Nat) : Strm := Store.get (fun _ => {}) s.strms n
def State.setStrm (s : State) (n : Nat) (x : Strm) : State := { s with strms := Store.put (fun _ => {}) s.strms n x }

/-- What the engine's routine holds (11_naljo_engine.md R269). -/
def State.modMicro (s : State) (f : Micro → Micro) : State := { s with micro := f s.micro }

/-- A free value: the counter's next value with the counter advanced (log entry 4). -/
def State.free (s : State) : Word × State := (Config.freeWord s.freeCtr, { s with freeCtr := s.freeCtr + 1 })

/-! ## Tiles and channels -/

/-- The tiles 0 to 63 that a mask of two words names, in ascending order. -/
def tilesOf (lo hi : Word) : List Nat :=
  (List.range 64).filter fun n => if n < 32 then lo.getLsbD n else hi.getLsbD (n - 32)

/-- The mask of two words that names a list of tiles. -/
def tileMask (l : List Nat) : Word × Word :=
  l.foldl (fun m n => if n < 32 then (m.1 ||| BitVec.ofNat 32 (2 ^ n), m.2) else (m.1, m.2 ||| BitVec.ofNat 32 (2 ^ (n - 32)))) (0, 0)

/-- The 16 channels of a tile (R11). -/
def chansOf (t : Nat) : List Nat := (List.range 16).map (t * 16 + ·)

/-- Step states of Table 1.3 as SEQ_STATUS.STATE codes them. -/
def State.stepState (s : State) (t : Nat) : Nat := s.fget (R.SEQ_STATUS_STATE t)
abbrev stIdle : Nat := 0
abbrev stArmed : Nat := 1
abbrev stPending : Nat := 2
abbrev stRunning : Nat := 3
abbrev stEnded : Nat := 4

def State.idle (s : State) (t : Nat) : Bool := s.stepState t == stIdle

/-- The tiles whose SEQ_STATUS is listed and lies in one of the states given; every other tile is IDLE. -/
def State.tilesIn (s : State) (p : Nat → Bool) : List Nat := (List.range 64).filter fun t => p (s.stepState t)

/-- Whether the tile holds a step that has not ended: ARMED, PENDING or RUNNING. -/
def inStep (st : Nat) : Bool := st == stArmed || st == stPending || st == stRunning

/-- Power states as TILE_PWR.STATE codes them: 0 ACTIVE, 1 STANDBY, 2 DORMANT, 3 OFF. -/
def State.power (s : State) (t : Nat) : Nat := s.fget (R.TILE_PWR_STATE t)

def State.tileFenced (s : State) (t : Nat) : Bool := s.flag (R.TILE_MAP_FENCED t)
def State.chanFenced (s : State) (c : Nat) : Bool := s.flag (R.CH_STATUS_FENCED c)

/-- The sites for which a channel counts: its own, or those of its share group's mask (03_sequencer.md R85, R86). -/
def State.sitesOf (s : State) (c : Nat) : BitVec 256 :=
  if s.flag (R.CH_SEQ_SHARED c) then
    BitVec.ofNat 256 (leNat ((List.range 8).flatMap fun w =>
      wordBytes (s.rget (R.SHARE_MASK (s.fget (R.CH_SEQ_SHGRP c) * 8 + w)))))
  else BitVec.ofNat 256 (2 ^ s.fget (R.CH_SEQ_SITE c))

/-- Whether EXTEST, CLAMP or HIGHZ is the current instruction of the test access port (21_electrical_package.md R481, R483). -/
def State.bscan (s : State) : Bool := s.tap == 0 || s.tap == 3 || s.tap == 4

/-! ## Packets and events (10_uhleus_protocol.md R243, R250, R255, R256) -/

namespace St
def ok : BitVec 8 := 0x00
def part : BitVec 8 := 0x01
def accepted : BitVec 8 := 0x02
def badOpcode : BitVec 8 := 0x10
def badParam : BitVec 8 := 0x11
def badLength : BitVec 8 := 0x12
def exceedsWindow : BitVec 8 := 0x13
def badAddress : BitVec 8 := 0x14
def crcError : BitVec 8 := 0x15
def denied : BitVec 8 := 0x20
def isSealed : BitVec 8 := 0x21
def lifecycle : BitVec 8 := 0x22
def busy : BitVec 8 := 0x30
def nothingToAbort : BitVec 8 := 0x31
def aborted : BitVec 8 := 0x32
def starved : BitVec 8 := 0x40
def fenced : BitVec 8 := 0x41
def indeterminate : BitVec 8 := 0x42
def hwFault : BitVec 8 := 0x50
def internal : BitVec 8 := 0x7F
end St

def State.sessOpen (s : State) (n : Nat) : Bool := s.flag (R.SESS_STAT_OPEN n)

/-- Queues a packet for sending. A packet to a session takes the credits that wait to be returned (R250) and the link of the
session's most recent request (R246); DEST is the chip's own ID (R243). -/
def State.send (s : State) (p : Packet) : State :=
  let n := p.session.toNat
  let c := s.ctx n
  let p := { p with dest := BitVec.ofNat 14 (s.fget R.CHIP_ID_ID), cells := p.cells + c.retCells,
                    slots := p.slots + c.retSlots }
  { (s.setCtx n { c with retCells := 0, retSlots := 0 }) with txq := s.txq ++ [p] }

/-- Programmable counters that count an event, and the wraps they chain (18_moraine_counters.md R424, R425). -/
def State.pcntConfigured (s : State) : List (Nat × Word) :=
  s.regs.filterMap fun e =>
    if R.PCNT_CFG 0 ≤ e.1 ∧ e.1 < R.PCNT_CFG 64 ∧ (e.1 - R.PCNT_CFG 0) % 16 = 0 then some ((e.1 - R.PCNT_CFG 0) / 16, e.2)
    else none

/-- A 48-bit event counter raised, without the programmable counters (R423). -/
def State.bumpEvc (s : State) (n k : Nat) : State :=
  { s with evc := Store.put (fun _ => 0) s.evc n ((Store.get (fun _ => 0) s.evc n + k) % 2 ^ 48) }

/-- What an overflow captures: the sample given, or, with none, the microaddress and the opcode of the routine that runs, which are
free values (log entry 4). -/
def State.sampleOf (s : State) (sample : Option Word) : Word × State :=
  match sample with
  | some w => (w, s)
  | none => (s.free.1 &&& 0xFFFFFF, s.free.2)

/-- Programmable counter `m` raised by `k`: on a wrap the next counter counts it if it chains, and with OVFINT the sample is
taken and the overflow interrupt raised (R424, R425). `fuel` bounds the chain by the number of counters left. -/
def State.bumpPcnt (s : State) (m k : Nat) (sample : Option Word) : Nat → State
  | 0 => s
  | fuel + 1 =>
    let v := (s.rget (R.PCNT_VAL m)).toNat + k
    let wraps := v / 2 ^ 32
    let s := s.rset (R.PCNT_VAL m) (BitVec.ofNat 32 v)
    if wraps = 0 then s
    else
      let ovf : Fld := ⟨R.PCNT_OVF (m / 32), m % 32, m % 32⟩
      let s :=
        if s.flag (R.PCNT_CFG_OVFINT m) && !s.flag ovf then
          let (w, s) := s.sampleOf sample
          let s := (s.setFlag ovf true).rset (R.PCNT_SAMP m) w
          { s with items := s.items ++ [.overflow m] }
        else s
      if m + 1 < 64 ∧ s.flag (R.PCNT_CFG_EN (m + 1)) ∧ s.flag (R.PCNT_CFG_CHAIN (m + 1)) then
        s.bumpPcnt (m + 1) wraps sample fuel
      else s

/-- Event `n` of Table 18.3 occurs `k` times (R423, R424); `sample` is what an overflow captures (R425). -/
def State.evCount (s : State) (n : Nat) (k : Nat := 1) (sample : Option Word := none) : State :=
  let s := s.bumpEvc n k
  if s.flag R.CNT_CFG_FROZEN then s
  else s.pcntConfigured.foldl (fun s c =>
    if field c.2 14 14 = 1 ∧ field c.2 12 12 = 0 ∧ field c.2 8 0 = n then s.bumpPcnt c.1 k sample 64 else s) s

/-- Queues a spontaneous event for one session, which holds at most 64 of them; one more is dropped and counted (R256). -/
def State.eventTo (s : State) (n : Nat) (code : Nat) (ps : List Word) : State :=
  let s := { s with splits := s.splits.map fun (x : Split) =>
    if x.opcode = 0x34 ∧ x.session.toNat = n ∧ (x.params.getD 0 0) = 2 ∧
      (x.params.getD 1 0).setWidth 16 = BitVec.ofNat 16 code then { x with stage := 1 } else x }
  if s.fget (R.SESS_LOAD_EVQ n) < 64 then
    (s.count (R.SESS_LOAD_EVQ n)).send
      { kind := 3, opcode := 0xFF, status := St.ok, session := BitVec.ofNat 5 n
        link := s.fget (R.SESS_STAT_LINK n), params := BitVec.ofNat 32 code :: ps }
  else ((s.modCtx n fun c => { c with evLost := c.evLost + 1 }).setFlag (R.SESS_STAT_EVLOST n) true).evCount 7

/-- The sessions whose HELLO set EVCHIP and that are open. -/
def State.chipSessions (s : State) : List Nat := (List.range 32).filter fun n => (s.ctx n).evchip && s.sessOpen n

/-- A chip event, to every session whose HELLO set EVCHIP (R256); with none it is discarded and event 7 counts it. -/
def State.chipEvent (s : State) (code : Nat) (ps : List Word := []) : State :=
  match s.chipSessions with
  | [] => s.evCount 7
  | l => l.foldl (fun s n => s.eventTo n code ps) s

/-- An event for the session that armed a tile or opened a stream, or for the chip's sessions where it has closed (R256). -/
def State.eventFor (s : State) (who : Option (BitVec 5)) (code : Nat) (ps : List Word) : State :=
  match who with
  | some n => if s.sessOpen n.toNat then s.eventTo n.toNat code ps else s.chipEvent code ps
  | none => s.chipEvent code ps

/-- A status that QUIET suppresses (R255). -/
def quietable (st : BitVec 8) : Bool := st == St.ok || st == St.accepted

/-- The streaming operations of a session that were dispatched before a request and still run: their replies leave before its own, but for
the reply of MEASURE (R256). -/
def State.writesBefore (s : State) (op : BitVec 8) (q : Req) : List Nat :=
  if op = 0x43 then []
  else (s.writes.filter fun (w : Writing) => w.q.session == q.session && (q.part.isNone || decide (w.q.age < q.age))).filterMap (·.q.part)

/-- The reply to a request: the slot that it took returns with it (R250), and QUIET suppresses OK and ACCEPTED (R255). -/
def State.reply (s : State) (op : BitVec 8) (q : Req) (st : BitVec 8) (ps : List Word := []) (pl : List Byte := []) : State :=
  let n := q.session.toNat
  let took := s.sessOpen n && op != 0x01 && !q.noSlot
  let back := took.toNat
  let s := if took then s.fset (R.SESS_STAT_SLOTS n) (min 8 (s.fget (R.SESS_STAT_SLOTS n) + 1)) else s
  if q.flags.getLsbD 0 && quietable st then s.modCtx n fun c => { c with retSlots := c.retSlots + back }
  else s.send { kind := 1, opcode := op ||| 0x80, status := st, session := q.session, tag := q.tag, link := q.link.val,
                params := ps, payload := pl, slots := back, behind := s.writesBefore op q }

/-- A routine ends at an error exit (event 9 of Table 18.3) with an error reply: one parameter word and no payload (R243). -/
def State.fail (s : State) (op : BitVec 8) (q : Req) (st : BitVec 8) (p0 : Word := 0) : State := (s.evCount 9).reply op q st [p0]

/-- The completion of a split-phase operation is raised: its routine waits for the engine (R33, R256, R277). With an error status and
nothing stated for P0, its event carries P0 = 0 as an error reply does (R243, log entry 17). -/
def State.complete (s : State) (x : Split) (st : BitVec 8) (ps : List Word := []) (pl : List Byte := []) (after : After := .none) : State :=
  let s := { s with splits := s.splits.filter fun (y : Split) => y.id != x.id }
  let s := s.fset R.ENG_STATUS_SPLIT s.splits.length
  let p : Packet :=
    { kind := 2, opcode := x.opcode ||| 0x80, status := st, session := x.session, tag := x.tag
      params := if ps.isEmpty && !quietable st then [0] else ps, payload := pl, entry := x.entry }
  { s with items := s.items ++ [.completion p x.live x.quiet after] }

/-- The oldest split-phase operation of an opcode, session and tag. -/
def State.split? (s : State) (op : BitVec 8) (o : OpRef) : Option Split :=
  s.splits.find? fun x => x.opcode == op && x.session == o.session && x.tag == o.tag

/-- The split-phase operation with a number. -/
def State.splitOf (s : State) (n : Nat) : Option Split := s.splits.find? fun (x : Split) => x.id == n

/-- A split-phase operation is entered with a number of its own (R256, R277). -/
def State.register (s : State) (op : BitVec 8) (q : Req) (aux : List Nat := []) (stage : Nat := 0) : State :=
  let x : Split :=
    { id := s.ids, stage := stage, opcode := op, session := q.session, tag := q.tag, quiet := q.flags.getLsbD 0
      params := q.params, payload := q.payload, verdict := q.verdict, aux := aux, age := q.age }
  let s := { s with splits := s.splits ++ [x], ids := s.ids + 1 }
  (s.fset R.ENG_STATUS_SPLIT s.splits.length).evCount 3

/-- A split-phase operation starts: it is entered, and ACCEPTED answered (R256). -/
def State.start (s : State) (op : BitVec 8) (q : Req) (aux : List Nat := []) (stage : Nat := 0) : State :=
  (s.register op q aux stage).reply op q St.accepted

/-- A routine of `n` microwords and `c` control clocks is counted by events 0 to 2, and the longest of each is kept (11_naljo_engine.md
R274, R284; 18_moraine_counters.md Table 18.3). -/
def State.ran (s : State) (n c : Nat) : State :=
  let s := ((s.evCount 0).evCount 1 n).evCount 2 c
  { s with maxLen := max s.maxLen n, maxClk := max s.maxClk c }

/-- A routine of the ROM is counted: its microwords, at most 4,096, and its control clocks, at most 16 to a microword, are free values. -/
def State.romRan (s : State) : State :=
  let (w, s) := s.free
  let (v, s) := s.free
  let n := w.toNat % 4096 + 1
  s.ran n (n + v.toNat % (15 * n + 1))

/-- A routine of the ROM runs; its private registers begin undefined (11_naljo_engine.md R269). -/
def State.routine (s : State) : State :=
  let s := s.romRan
  { s with micro := {} }

/-- Replaces a split-phase operation's record. -/
def State.setSplit (s : State) (x : Split) : State :=
  { s with splits := s.splits.map fun (y : Split) => if y.id == x.id then x else y }

/-! ## Cores (16_self_repair.md R387, R396) -/

/-- Bit `n` of a pair of words at `a` and `a + 4`. -/
def bitFld (a n : Nat) : Fld := ⟨a + 4 * (n / 32), n % 32, n % 32⟩

def State.coreOf (s : State) (t : Nat) : Nat := s.fget (R.TILE_MAP_CORE t)
/-- The tile that a core runs. -/
def State.tileOfCore (s : State) (c : Nat) : Option Nat :=
  (List.range 64).find? fun t => !s.tileFenced t && s.coreOf t == c

def spareFld (c : Nat) : Fld := bitFld R.SR_SPARE0 c
def coreFenceFld (c : Nat) : Fld := bitFld (R.FENCE_CORE 0) c
def State.isSpare (s : State) (c : Nat) : Bool := s.flag (spareFld c)

/-- A core becomes spare, or ceases to be; SPARES counts the spare cores (R387). -/
def State.setSpare (s : State) (c : Nat) (b : Bool) : State :=
  let s := s.setFlag (spareFld c) b
  s.fset R.SR_STATUS_SPARES ((List.range 68).filter s.isSpare).length

/-- Whether the crossbar connects a row to a core, be its tile fenced or not (01_architecture.md R12). -/
def State.connected (s : State) (c : Nat) : Bool := (List.range 64).any fun t => s.coreOf t == c

/-- The tile that has reserved a core for its calving. -/
def State.reservedBy (s : State) (c : Nat) : Option Nat :=
  (List.range 64).find? fun t => (s.tile t).calv.isSome && s.fget (R.TILE_MAP_TARGET t) == c

/-- Every core that runs no tile, is not fenced and is not reserved is spare (R387). DESIGN CHOICE: a core whose retest a warm reset has cut
short is among them (log entry 65). -/
def State.respare (s : State) : State :=
  ((List.range 68).filter fun c => !s.flag (coreFenceFld c) && !s.connected c && (s.reservedBy c).isNone && !s.isSpare c).foldl
    (fun s c => s.setSpare c true) s

/-! ## Resets (20_startup.md R456, R457, Table 20.3) -/

/-- Every bit of a register of life-cycle, repair and recorder state that OTP or flash holds (R457, R494). -/
def otpMask (a : Nat) : Word :=
  if a = R.LC_STATUS then 0xFF5F
  else if a = R.TAMPER_GEN ∨ a = R.PATCH_FLOOR ∨ a = R.REP_OTP ∨ a = R.SR_OTP_COUNT then 0xFFFFFFFF
  else if R.OWNER_DIGEST 0 ≤ a ∧ a < R.OWNER_DIGEST 12 then 0xFFFFFFFF
  else if R.SR_OTP_W0 0 ≤ a ∧ a < R.SR_OTP_W0 64 then 0xFFFFFFFF
  else if a = R.SR_STATUS then 0x10
  else if a = R.REP_STATUS then 0x80000000
  else if R.MRN_SEQ ≤ a ∧ a ≤ R.MRN_HOURS then 0xFFFFFFFF
  else if a = R.DUMP_STATUS then 0x4
  else 0

/-- The fault register of a block that an address is, as an offset from +0x0F00 (Table 15.6). -/
def fltOffset (a : Nat) : Option Nat :=
  match blockOf a with
  | some (b, _, o) =>
    if b == .chip || b == .time || b == .tile || b == .chan then none
    else if 0xF00 ≤ o ∧ o < 0xF20 then some (o - 0xF00) else none
  | none => none

/-- What a warm reset keeps of a register (Table 20.3): the bits of the mask. -/
def warmMask (a : Nat) : Word :=
  let all : Word := 0xFFFFFFFF
  if a = R.TIME_STATUS then 0x3
  else if a = R.REF_DRIFT ∨ a = R.CAL_EPOCH ∨ a = R.DUMP_LEN ∨ a = R.SF_CFG ∨ a = R.FENCE_CORE2 ∨ a = R.FIRN_RETIRED then all
  else if a = R.SR_STATUS then 0x17
  else if a = R.SR_SPARE0 ∨ a = R.SR_SPARE1 ∨ a = R.SR_SPARE2 then all
  else if a = R.REP_STATUS then 0x800001FF
  else if a = R.MRN_STATUS then 0xFF
  else if a = R.DUMP_STATUS then 0xFFFFFF07
  else if R.TILE_MAP 0 ≤ a ∧ a < R.TILE_MAP 64 then all
  else if R.THS_FAIL 0 ≤ a ∧ a < R.THS_FAIL 5 then all
  else if R.FENCE_CH 0 ≤ a ∧ a < R.FENCE_LAST then all
  else if R.SNT_FENCED 0 ≤ a ∧ a < R.SNT_FENCED 2 then all
  else if a = R.CHIP_ID ∨ a = R.PROTO_CFG then all
  else if R.ROUTE 0 ≤ a ∧ a < R.ROUTE 12 then all
  else if R.MCAST 0 ≤ a ∧ a < R.MCAST 256 then all
  else if R.VG_CFG ≤ a ∧ a < R.VG_CFG + 0xF00 then all
  else if 0x500000 ≤ a ∧ a < 0x600000 ∧ (a - 0x500000) % 0x400 = 0x44 then 0x8000
  else if 0x20000 ≤ a ∧ a < 0x2C000 ∧ a % 0x1000 = 0x8 then all
  else if 0x900000 ≤ a ∧ a % 0x1000 = 4 then all
  else match fltOffset a with
    | some 8 => 0
    | some _ => all
    | none => otpMask a

/-- What a warm reset keeps of a tile's context: TILE_MAPn is kept, and with it a calving that is decided and the measurement due after
one (Table 20.3; log entry 52). -/
def TileCtx.kept (c : TileCtx) : TileCtx :=
  { calv := c.calv.map fun x => { x with ops := [], checked := false, moving := false }, deskew := c.deskew }

/-- The registers of which only the masked bits survive; the other bits take their reset values. -/
def keepRegs (mask : Nat → Word) (m : Store Word) : Store Word :=
  m.filterMap fun e =>
    let v := (e.2 &&& mask e.1) ||| (regReset e.1 &&& ~~~(mask e.1))
    if v = regReset e.1 then none else some (e.1, v)

/-- A warm reset of kind 1 to 4 (R456, R457): what Table 20.3 names is kept, everything else is as after power-on reset.
Channels and DSE outputs are then in their safe states (R368). -/
def State.warmReset (s : State) (kind : Nat) : State :=
  let kept : State :=
    { regs := keepRegs warmMask s.regs
      tiles := s.tiles.filterMap fun e => if e.2.kept = {} then none else some (e.1, e.2.kept)
      mem := s.mem.filter fun e => decide (0x10 * 64 * 2 ^ 23 + 0x600000 ≤ e.1 ∧ e.1 < 0x10 * 64 * 2 ^ 23 + 0x800000)
      sysTime := s.sysTime
      calNew := s.calNew
      ocxo := s.ocxo
      warmSecs := s.warmSecs
      refFreqs := s.refFreqs
      syncD := s.syncD
      ackGen := s.ackGen
      sealForever := s.sealForever
      sealStuck := s.sealStuck
      drbgBad := s.drbgBad
      cert := s.cert
      certDigest := s.certDigest
      certBad := s.certBad
      mrn := s.mrn
      staged := s.staged
      mrnLost := s.mrnLost
      mrnClear := s.mrnClear
      dump := s.dump
      dumpFlash := s.dumpFlash
      lvlClr := s.lvlClr
      fenceReq := s.fenceReq.map fun (f : FenceReq) => { f with op := none }
      logDue := s.logDue
      injFence := s.injFence
      soft := s.soft
      repairs := s.repairs
      veing := s.veing
      pp := s.pp
      freeCtr := s.freeCtr
      answer := s.answer
      sent := s.sent
      pending := s.pending }
  let kept := (kept.setFlag R.LVL_CLR_STATUS_ACTIVE s.lvlClr).setFlag R.LVL_CLR_STATUS_SEEN s.lvlClr
  (kept.fset R.RESET_CAUSE_KIND kind).respare

/-! ## Fault bits (15_safety_faults.md R370 to R374) -/

/-- The reaction nibble of source `src` of the block whose base is `b` (R371). -/
def State.nibble (s : State) (b src : Nat) : Nat := field (s.rget (R.FLT_REACT b (src / 8))) (4 * (src % 8) + 3) (4 * (src % 8))

/-- Whether the REAL or INJ bit of a source is set. -/
def State.faultSet (s : State) (b src : Nat) (inj : Bool) : Bool :=
  (s.rget (if inj then R.FLT_INJ b else R.FLT_REAL b)).getLsbD src

/-- The bits of a source: REAL or INJ, FLT_COUNT, and FLT_FIRST when it holds none (R372, R373). -/
def State.faultBits (s : State) (b src : Nat) (inj : Bool) : State :=
  let a := if inj then R.FLT_INJ b else R.FLT_REAL b
  let s := (s.rset a (s.rget a ||| BitVec.ofNat 32 (2 ^ src))).count (R.FLT_COUNT_COUNT b)
  if s.flag (R.FLT_FIRST_VALID b) then s else s.rset (R.FLT_FIRST b) (BitVec.ofNat 32 (2 ^ 31 + src))

/-- The ACTION of a source; the codes rise with the strength (R371, R372). -/
def State.actionOf (s : State) (e : Nat × Nat) : Nat := s.nibble e.1 e.2 % 8

/-- Of sources that set in one cycle, in each block the first whose action is the strongest there and is not LOG (R372). -/
def State.strongest (s : State) (l : List (Nat × Nat)) : List (Nat × Nat) :=
  (l.map (·.1)).eraseDups.filterMap fun b =>
    let own := l.filter fun e => e.1 == b
    let top := own.foldl (fun m e => max m (s.actionOf e)) 0
    if top = 0 then none else own.find? fun e => s.actionOf e == top

/-- The actions INT, TRAP and CHIP_RESET of sources that set in one cycle: CHIP_RESET supersedes all others, and the blocks raise one trap
(R372). BLOCK_RESET acts as INT here and the block's own reset is added by the caller. -/
def State.faultActs (s : State) (l : List (Nat × Nat)) : State :=
  let l := s.strongest l
  if l.any fun e => s.actionOf e == 4 then s.warmReset 3
  else
    { s with items := s.items ++ l.map (fun e => .fault e.1 e.2) ++ if l.any fun e => s.actionOf e == 2 then [.trap 16] else [] }

/-- FAULT_N is low: a source with FAULT_N selected has its REAL or INJ bit set in some block (R374), or boot has not
completed its self-test (R464). -/
def State.faultN (s : State) : Bool :=
  !s.flag R.BOOT_STATUS_DONE ||
  ([0x20000, 0x21000, 0x22000, 0x23000, 0x24000, 0x25000, 0x26000, 0x27000, 0x28000, 0x29000, 0x2A000, 0x2B000,
    0x40000, 0x50000, 0x60000, 0x70000, 0x80000, 0x90000, 0xA0000] ++ (List.range 68).map (0x900000 + · * 0x1000)).any fun b =>
    (List.range 32).any fun src => (s.faultSet b src false || s.faultSet b src true) && s.nibble b src / 8 == 1

/-! ## The moraine (18_moraine_counters.md R416 to R420) -/

/-- FLAGS of a record: REAL, INJECTED, TVALID, NOMAC. -/
def State.mrnFlags (s : State) (real inj : Bool) : BitVec 8 :=
  BitVec.ofNat 8 (real.toNat + 2 * inj.toNat + 4 * s.fget R.TIME_STATUS_VALID + 8 * (1 - s.fget R.LC_STATUS_PUF_OK))

/-- MRN_OLDEST: the oldest circulating record present, or MRN_SEQ if there is none (Table 18.7). -/
def State.oldest (s : State) : State :=
  s.fset R.MRN_OLDEST_SEQ (((s.mrn.filter fun e => 512 ≤ e.1).map (·.1)).headD (s.fget R.MRN_SEQ_SEQ))

/-- A record enters the staging RAM, if there is room, and takes its SEQ (R419, R420); one without room is lost, which sets source 1 of the
moraine block, whose action the caller takes. -/
def State.stageOnly (s : State) (code : Nat) (data : List Byte) (real : Bool := true) (inj : Bool := false)
    (time : Option (BitVec 64) := none) : State :=
  if s.staged.length < 128 then
    let seq := s.fget R.MRN_SEQ_SEQ
    let tv := s.flag R.TIME_STATUS_VALID
    let r : MrnRec := { hours := s.rget R.MRN_HOURS, pwrcyc := s.rget R.MRN_PWRCYC,
                        time := if tv then time.getD s.sysTime else 0, code := BitVec.ofNat 16 code,
                        flags := s.mrnFlags real inj, data := data ++ List.replicate (24 - data.length) 0 }
    let mrn := Store.put (fun _ => none) s.mrn seq (some r)
    let mrn := if 2560 ≤ seq then Store.put (fun _ => none) mrn (seq - 2048) none else mrn
    let s := { s with mrn := mrn, staged := s.staged ++ [seq] }
    ((s.fset R.MRN_SEQ_SEQ (seq + 1)).fset R.MRN_STATUS_STAGED s.staged.length).oldest.evCount 86
  else
    let s := ((s.count R.MRN_LOSTCNT_COUNT).setFlag R.MRN_STATUS_LOST true)
    { s with mrnLost := s.mrnLost + 1 }.faultBits 0x80000 1 false

/-- A record with what its loss sets off: the first loss since the source was clear takes the source's action (R372, R373). -/
def State.stage (s : State) (code : Nat) (data : List Byte) (real : Bool := true) (inj : Bool := false)
    (time : Option (BitVec 64) := none) : State :=
  let t := s.stageOnly code data real inj time
  if !s.faultSet 0x80000 1 false && t.faultSet 0x80000 1 false then t.faultActs [(0x80000, 1)] else t

end Sys2Proof.Machine
end

