-- ==== Sys2Proof/Machine/Flags.lean ====
section
/-! DEFINITION. The condition flags of a tile (03_sequencer.md R70 to R73), the suspect flags of a step (13_security.md Table
13.12), SUSPECT intervals (17_power_thermal.md R412), and what compares do to the flags. -/

namespace Sys2Proof.Machine

/-! ## Condition flags -/

/-- The time between two wraps of the count (02_epoch_grid.md R38). -/
def epochLength : Int := 2 ^ 64 * unitFs

/-- The flags that events from outside the tile set, each at the instant at which its event registers (R71). -/
def CondKey.external : CondKey → Bool
  | .trig _ => true
  | .linkev _ => true
  | _ => false

/-- COND_FLAGS and LINKEV_FLAG show the sticky flags that contributions hold set: those of external events from their registration on. -/
def State.syncConds (s : State) (t : Nat) : State :=
  let now := s.now + (s.tile t).wraps * epochLength
  let c := (s.tile t).conds.filter fun e => !e.1.external || decide (e.2 ≤ now)
  let has (k : CondKey) : Bool := c.any fun e => e.1 == k
  let evs := c.filterMap fun e => match e.1 with | .linkev n => some n | _ => none
  let s := ((s.setFlag (R.COND_FLAGS_FAIL_ANY t) (has .failAny)).setFlag (R.COND_FLAGS_MASKV t) (has .maskv)).setFlag
    (R.COND_FLAGS_LINKEV t) (!evs.isEmpty)
  let s := s.fset (R.COND_FLAGS_TRIG t)
    ((List.range 4).foldl (fun v n => v + if has (.trig n) then 2 ^ n else 0) 0)
  (List.range 8).foldl (fun s w =>
    s.rset (R.LINKEV_FLAG t w) (evs.foldl (fun v n => if n / 32 = w then v ||| BitVec.ofNat 32 (2 ^ (n % 32)) else v) 0)) s

/-- A contribution to a sticky flag at an instant (R71, R73). -/
def State.addCond (s : State) (t : Nat) (k : CondKey) (i : Int) : State :=
  (s.modTile t fun c => { c with conds := c.conds ++ [(k, i)] }).syncConds t

/-- Whether a flag is seen at a cutoff: a contribution lies at or before it (R71). -/
def TileCtx.seen (c : TileCtx) (k : CondKey) (cutoff : Int) : Bool := c.conds.any fun e => e.1 == k && decide (e.2 ≤ cutoff)

/-- MATCH as seen at a cutoff: every compare of the most recent cycle that had one passed (Table 3.3). -/
def TileCtx.matchAt (c : TileCtx) (cutoff : Int) : Bool :=
  let l := c.matches_.filter fun e => decide (e.1 ≤ cutoff)
  match l.foldl (fun m e => max m (e.2.1 + 1)) 0 with
  | 0 => false
  | n + 1 => l.all fun e => e.2.1 != n || e.2.2

/-- The condition of an instruction at a cutoff, before NEG (Table 3.3). TIME is taken as an event registered at the instant
that SEQ_TIME holds (log entry 10). -/
def State.condRaw (s : State) (t : Nat) (code csite : Nat) (cutoff : Int) : Bool :=
  let c := s.tile t
  match code with
  | 0 => true
  | 1 => c.seen .failAny cutoff
  | 2 => c.seen (.failSite csite) cutoff
  | 3 => c.matchAt cutoff
  | 4 => c.seen .maskv cutoff
  | 8 => c.seen (.trig 0) cutoff
  | 9 => c.seen (.trig 1) cutoff
  | 10 => c.seen (.trig 2) cutoff
  | 11 => c.seen (.trig 3) cutoff
  | 12 => c.seen (.linkev csite) cutoff
  | 13 => decide (s.pair (R.SEQ_TIME_LO t) (R.SEQ_TIME_HI t) * unitFs ≤ cutoff)
  | _ => false

def State.condHolds (s : State) (t : Nat) (c : Cond) (cutoff : Int) : Bool := s.condRaw t c.code c.csite cutoff != c.neg

/-- The flags that CLRF of a condition clears (R73). -/
def clears (code csite : Nat) (k : CondKey) : Bool :=
  match code, k with
  | 1, .failAny => true
  | 1, .failSite _ => true
  | 2, .failAny => true
  | 2, .failSite _ => true
  | 4, .maskv => true
  | 8, .trig 0 => true
  | 9, .trig 1 => true
  | 10, .trig 2 => true
  | 11, .trig 3 => true
  | 12, .linkev n => n == csite
  | _, _ => false

/-- CLRF: contributions up to the cutoff are cleared, later ones stand (R73). -/
def State.clearCond (s : State) (t : Nat) (c : Cond) (cutoff : Int) : State :=
  if c.clrf then
    (s.modTile t fun x => { x with conds := x.conds.filter fun e => !(clears c.code c.csite e.1 && decide (e.2 ≤ cutoff)) }).syncConds t
  else s

/-! ## Suspect flags (Table 13.12) -/

namespace Sf
def warmup : Nat := 0
def calStale : Nat := 1
def noTrace : Nat := 2
def suspect : Nat := 3
def time : Nat := 4
def tamper : Nat := 5
def starved : Nat := 6
def hwFault : Nat := 7
def aborted : Nat := 8
def unknown : Nat := 9
def drop : Nat := 10
def chkFail : Nat := 11
def corrupt : Nat := 12
def ovf : Nat := 13
def crevasse : Nat := 14
def stall : Nat := 15
def wrap : Nat := 16
def limit : Nat := 17
def injected : Nat := 18
end Sf

/-- A suspect flag of the step that a tile holds. -/
def State.suspectFlag (s : State) (t n : Nat) : State := s.modTile t fun c => { c with flags := c.flags ||| BitVec.ofNat 32 (2 ^ n) }

/-- A suspect flag of every step that a tile holds. -/
def State.suspectAll (s : State) (n : Nat) : State := (s.tilesIn inStep).foldl (fun s t => s.suspectFlag t n) s

/-- Whether an instant lies in a SUSPECT interval (R412): 1 µs before an excursion to 10 µs after it. -/
def State.suspectAt (s : State) (i : Int) : Bool :=
  s.windows.any (fun w => decide (w.1 ≤ i ∧ i ≤ w.2)) || s.excursions.any fun e => match e.2 with
    | some b => decide (b - 65536000000 ≤ i)
    | none => false

/-- Whether a span of instants meets a SUSPECT interval. -/
def State.suspectIn (s : State) (a b : Int) : Bool :=
  s.windows.any (fun w => decide (w.1 ≤ b ∧ a ≤ w.2)) || s.excursions.any fun e => match e.2 with
    | some x => decide (x - 65536000000 ≤ b)
    | none => false

/-- REF_WARM (R47). -/
def State.warm (s : State) : Bool := s.flag R.TIME_STATUS_REF_WARM

/-- What a flag was at an instant, by its changes, newest first, and by what it is now. -/
def flagAt (log : List (Int × Bool)) (now : Bool) (i : Int) : Bool :=
  match log.find? fun e => decide (e.1 ≤ i) with
  | some e => e.2
  | none => match log.getLast? with
    | some e => !e.2
    | none => now

/-- REF_WARM at an instant of the chip, by its latest changes (R48). -/
def State.warmAt (s : State) (i : Int) : Bool :=
  flagAt s.warmLog s.warm i

/-- REF_WARM changes now. -/
def State.warmTo (s : State) (b : Bool) : State :=
  if s.warm = b then s
  else { s with warmLog := ((s.now, b) :: s.warmLog).take 64 }.setFlag R.TIME_STATUS_REF_WARM b

/-! ## Instants of a tile behind a wrap of the count (02_epoch_grid.md R38) -/
/-- An instant of the present epoch as a tile counts it, which keeps the epoch it runs in until its step ends. -/
def State.tileTime (s : State) (t : Nat) (i : Int) : Int := i + (s.tile t).wraps * epochLength

/-- An instant that a tile counts, in the present epoch. -/
def State.chipTime (s : State) (t : Nat) (i : Int) : Int := i - (s.tile t).wraps * epochLength

/-! ## Fails and INDETERMINATE sites -/

/-- The tile reports INDETERMINATE for every site a channel counts for, unless a fail is recorded (R131, R153). -/
def State.indChan (s : State) (ch : Nat) : State :=
  let m := s.sitesOf ch
  s.modTile (ch / 16) fun c => { c with siteInd := c.siteInd ||| m }

/-- The sites of a channel as numbers. -/
def sitesList (m : BitVec 256) : List Nat := (List.range 256).filter fun n => m.getLsbD n

/-- A failing compare sets the tile's fail flag and the flags of its sites at its strobe instant (R70, R86). -/
def State.failChan (s : State) (ch : Nat) (i : Int) : State :=
  let m := s.sitesOf ch
  let l := if s.flag (R.CH_SEQ_SHARED ch) then sitesList m else [s.fget (R.CH_SEQ_SITE ch)]
  let s := s.modTile (ch / 16) fun c =>
    { c with siteFail := c.siteFail ||| m, conds := c.conds ++ ((.failAny, i) :: l.map fun n => (.failSite n, i)) }
  s.syncConds (ch / 16)

/-- The number of a cycle as the tile last issued it: CYCLES minus one. -/
def State.cycles (s : State) (t : Nat) : Nat := s.pair (R.CYCLES_LO t) (R.CYCLES_HI t)

end Sys2Proof.Machine
end

