-- ==== Sys2Proof/Machine/Capture.lean ====
section
/-! DEFINITION. Acquisition (08_acquisition.md): the capture ring, records, triggers, frames, masks and crevasse records. -/

namespace Sys2Proof.Machine

/-! ## Regions of the capture store (R191) -/

def State.maskBytes (s : State) (t : Nat) : Nat := if s.flag (R.MASK_CFG_EN t) then 0x8000 else 0

/-- The size of the compressor pool in bytes (FC_CFG.POOL). -/
def State.poolBytes (s : State) (t : Nat) : Nat :=
  match s.fget (R.FC_CFG_POOL t) with
  | 1 => 0x10000 | 2 => 0x20000 | 3 => 0x40000 | _ => 0

/-- The number of records the ring holds. -/
def State.ringN (s : State) (t : Nat) : Nat := (0x80000 - s.maskBytes t - s.poolBytes t) / 16

def State.ringU (s : State) (t : Nat) : Nat := s.fget (R.CAP_USED_VALUE t)

/-- The slot of the bundle that a tile belongs to (13_security.md R328). -/
def State.bundleOf (s : State) (t : Nat) : Option Nat :=
  (List.range 4).find? fun n => s.flag (R.BUNDLE_CTL_VALID n) &&
    (tilesOf (s.rget (R.BUNDLE_TILES_LO n)) (s.rget (R.BUNDLE_TILES_HI n))).contains t

/-! ## Writing the ring (R192, R195 to R200) -/

/-- Four words at the write index, which advances. -/
def State.ringPut (s : State) (t : Nat) (w0 w1 w2 w3 : Word) : State :=
  let wr := s.fget (R.CAP_WR_PTR_VALUE t)
  let s := s.mwrite 5 t (wr * 16) (wordBytes w0 ++ wordBytes w1 ++ wordBytes w2 ++ wordBytes w3)
  let s := s.modTile t fun c => { c with cap := { c.cap with bad := c.cap.bad.filter (· != wr) } }
  (s.fset (R.CAP_WR_PTR_VALUE t) ((wr + 1) % s.ringN t)).fset (R.CAP_USED_VALUE t) (s.ringU t + 1)

/-- Whether a slot of the ring holds a record that can be read (R192). -/
def State.ringHolds (s : State) (t slot : Nat) : Bool :=
  let n := max 1 (s.ringN t)
  decide (slot < n) && decide ((slot + n - s.fget (R.CAP_RD_PTR_VALUE t)) % n < s.ringU t)

/-- The common flags of a tile's record at bits [7:4] of W0, by its key instant (R48, R196). -/
def State.recFlags (s : State) (t time : Nat) : Nat :=
  let i := s.chipTime t (time * unitFs)
  16 * (s.warmAt i).toNat + 32 * (s.suspectAt i).toNat

/-- The time of a stored ANCHOR, TRIG or CREVASSE record (Tables 8.2 and 8.4). -/
def State.ringTime (s : State) (t slot : Nat) : Nat := (s.mword 5 t (slot * 16 + 8)).toNat + 2 ^ 32 * (s.mword 5 t (slot * 16 + 12)).toNat

def State.ringType (s : State) (t slot : Nat) : Nat := field (s.mword 5 t (slot * 16)) 3 0

/-- The time of a stored crevasse record or of another one that carries its whole key instant; else the instant formed from the most recent
ANCHOR before the record in ring order, 0 where there is none (R197). -/
def State.ringKey (s : State) (t slot : Nat) : Nat :=
  let n := max 1 (s.ringN t)
  let typ := s.ringType t slot
  if typ = 1 ∨ typ = 6 ∨ typ = 7 then s.ringTime t slot
  else
    match ((List.range n).map fun k => (slot + n - 1 - k) % n).find? fun k => s.ringType t k == 1 with
    | some k =>
      let a := s.ringTime t k
      let d := BitVec.ofNat 32 ((s.mword 5 t (slot * 16 + 4)).toNat + 2 ^ 32 - a % 2 ^ 32)
      ((a : Int) + d.toInt).toNat
    | none => 0

/-- A record as CAPTURE_READ returns it: in place of one with an uncorrectable error, a crevasse record of cause 3 and LEN 1. Whether a key
instant can be formed from such a record is open: `formed` is a free value (R213, log entry 16). -/
def State.ringGet (s : State) (t slot : Nat) (formed : Bool) : List Byte :=
  if (s.tile t).cap.bad.contains slot then
    let k := if formed then s.ringKey t slot else 0
    let w0 := 7 + (if formed then s.recFlags t k else 0) + 256 * 3 + 65536 * 2 ^ s.ringType t slot
    wordBytes (BitVec.ofNat 32 w0) ++ wordBytes 1 ++ wordBytes (BitVec.ofNat 32 k) ++ wordBytes (BitVec.ofNat 32 (k / 2 ^ 32))
  else s.mread 5 t (slot * 16) 16

/-- The slot about to be written holds a record with a key instant; those of the last 1 µs are kept (17_power_thermal.md R412). -/
def State.recStamp (s : State) (t time : Nat) : State :=
  let i : Int := time * unitFs
  let wr := s.fget (R.CAP_WR_PTR_VALUE t)
  s.modTile t fun c =>
    let l := c.cap.recent ++ [(wr, i)]
    let newest := l.foldl (fun m e => max m e.2) i
    { c with cap := { c.cap with recent := l.filter fun e => decide (newest - 65536000000 ≤ e.2) } }

/-- SUSPECT of the records in a ring whose key instants lie at or after an instant (R196; 17_power_thermal.md R412). -/
def State.suspectRing (s : State) (t : Nat) (i : Int) : State :=
  ((s.tile t).cap.recent.filter fun e => decide (i ≤ e.2)).foldl (fun s e =>
    let w := s.mword 5 t (e.1 * 16)
    s.mwrite 5 t (e.1 * 16) (wordBytes (w ||| 0x20))) s

/-- The number of the cycle that began last at or before an instant among stretches of cycles, newest first; no cycle of a stretch is
later than the start of the next one. -/
def cycleIn (i : Int) : Option Nat → List (Nat × Int × Nat) → Nat
  | _, [] => 0
  | next, g :: l =>
    if g.2.1 ≤ i then
      let n := g.1 + ((i - g.2.1) / (max g.2.2 1)).toNat
      match next with
      | some m => min n (m - 1)
      | none => n
    else cycleIn i (some g.1) l

/-- The number of the last cycle that began at or before an instant, 0 before the first (R197). -/
def TileCtx.cycleAt (c : TileCtx) (i : Int) : Nat := cycleIn (min i c.curC) none c.grid

/-- An ANCHOR (R197); `step` marks the anchor of the start grid point. -/
def State.putAnchor (s : State) (t cyc time : Nat) (step : Bool) : State :=
  let w0 := 1 + s.recFlags t time + 64 * step.toNat + 256 * (cyc % 2 ^ 24)
  let s := (s.recStamp t time).ringPut t (BitVec.ofNat 32 w0) (BitVec.ofNat 32 (cyc / 2 ^ 24)) (BitVec.ofNat 32 time)
    (BitVec.ofNat 32 (time / 2 ^ 32))
  s.modTile t fun c => { c with cap := { c.cap with anchor := some (cyc, time) } }

/-- The four words of a record as Tables 8.2 and 8.4 lay them out. -/
def State.recWords (s : State) (t : Nat) (r : CapRec) : Word × Word × Word × Word :=
  let w0 := r.w0 ||| BitVec.ofNat 32 (r.typ + s.recFlags t r.time)
  let t0 := BitVec.ofNat 32 r.time
  match r.typ with
  | 6 => (w0, r.w2, t0, BitVec.ofNat 32 (r.time / 2 ^ 32))
  | 8 => (w0, t0, r.w2, r.w3)
  | 5 => (w0, t0, r.w2, r.w3)
  | _ => (w0 ||| BitVec.ofNat 32 (256 * (r.cyc.getD 0 % 2 ^ 24)), t0, r.w2, r.w3)

/-- The crevasse record of a gap (Table 8.4, R212). -/
def State.putCrevasse (s : State) (t : Nat) (g : Gap) : State :=
  let w0 := 7 + s.recFlags t g.start + 256 * g.cause + 65536 * g.types
  let s := (s.recStamp t g.start).ringPut t (BitVec.ofNat 32 w0) (BitVec.ofNat 32 (min g.lost (2 ^ 32 - 1))) (BitVec.ofNat 32 g.start)
    (BitVec.ofNat 32 (g.start / 2 ^ 32))
  ((s.modTile t fun c => { c with cap := { c.cap with anchor := none, gap := none } }).setFlag (R.CAP_STATUS_GAP t) false).count
    (R.CAP_CREV_COUNT t)

/-- A record is lost: a gap opens or grows (R211). -/
def State.lose (s : State) (t : Nat) (r : CapRec) (cause : Nat) : State :=
  let g : Gap := match (s.tile t).cap.gap with
    | some g => { g with lost := g.lost + 1, types := g.types ||| 2 ^ r.typ }
    | none => { cause := cause, types := 2 ^ r.typ, lost := 1, start := r.time }
  (((s.modTile t fun c => { c with cap := { c.cap with gap := some g } }).setFlag (R.CAP_STATUS_GAP t) true).count
    (R.CAP_LOST_COUNT t)).suspectFlag t Sf.crevasse

/-- The cycle number an anchor before a record carries (R197). -/
def State.anchorCyc (s : State) (t : Nat) (r : CapRec) : Nat :=
  match r.cyc with
  | some n => n
  | none => (s.tile t).cycleAt (r.time * unitFs)

/-- Whether a record needs an anchor in front of it (R197). -/
def State.needsAnchor (s : State) (t : Nat) (r : CapRec) : Bool :=
  match (s.tile t).cap.anchor with
  | none => true
  | some (c, i) =>
    let n := s.anchorCyc t r
    decide (2 ^ 22 ≤ max n c - min n c) || decide (2 ^ 30 ≤ max r.time i - min r.time i)

/-- A record is written, with the crevasse record and the anchor it needs, or it is lost: to an uncorrectable error on its way, or to a
full ring (R192, R197, R211, R212). -/
def State.putRecord (s : State) (t : Nat) (r : CapRec) : State :=
  if s.flag (R.CAP_STATUS_STOPPED t) then s
  else if (s.tile t).cap.ecc then (s.modTile t fun c => { c with cap := { c.cap with ecc := false } }).lose t r 3
  else
    let n := s.ringN t
    let u := s.ringU t
    let put (s : State) : State :=
      let w := s.recWords t r
      (s.recStamp t r.time).ringPut t w.1 w.2.1 w.2.2.1 w.2.2.2
    match (s.tile t).cap.gap with
    | some g =>
      if u + 4 ≤ n then put ((s.putCrevasse t g).putAnchor t (s.anchorCyc t r) r.time false) else s.lose t r 1
    | none =>
      if s.needsAnchor t r then
        if u + 2 < n then put (s.putAnchor t (s.anchorCyc t r) r.time false) else s.lose t r 1
      else if u + 1 < n then put s else s.lose t r 1

/-! ## Frames and hold-off (R205 to R207) -/

/-- Whether hold-off has ended for an event or record at an instant (R207). -/
def State.holdOver (s : State) (t : Nat) (i : Int) : Bool :=
  match (s.tile t).cap.hold with
  | none => true
  | some h =>
    if s.flag (R.CAP_HOLD_KIND t) then h.left == 0
    else decide (h.start + s.fget (R.CAP_HOLD_VALUE t) * tileClock ≤ i)

/-- Hold-off begins (R207); VALUE = 0 means none. -/
def State.beginHold (s : State) (t : Nat) (i : Int) : State :=
  let v := s.fget (R.CAP_HOLD_VALUE t)
  s.modTile t fun c => { c with cap := { c.cap with hold := if v = 0 then none else some { start := i, left := v } } }

/-- A frame ends at an instant (R206, R207). -/
def State.endFrame (s : State) (t : Nat) (i : Int) : State :=
  let s := s.modTile t fun c => { c with cap := { c.cap with frame := none, past := c.cap.frame.map ({ · with stop := some i }) } }
  let s := (s.setFlag (R.CAP_STATUS_POSTING t) false).beginHold t i
  let lim := s.fget (R.CAP_FRAMES_FRAMES t)
  if lim ≠ 0 ∧ lim ≤ (s.tile t).cap.trigs then s.setFlag (R.CAP_STATUS_DONE t) true else s

/-- Whether a frame takes a record: a loss counts only then (R213). -/
def State.frameTakes (s : State) (t : Nat) (f : FrameCtx) (r : CapRec) : Bool :=
  if f.t ≤ r.time * unitFs then f.postLeft != 0 else decide (f.preHeld < s.fget (R.CAP_PRE_PRE t))

/-- A record into the frame that is being written: after the trigger instant it is one of the CAP_POST post-trigger records;
before it, a late pre-trigger record if the frame has room (R201, R206). One that was lost for RATE counts as lost (R213). -/
def State.frameRecord (s : State) (t : Nat) (f : FrameCtx) (r : CapRec) : State :=
  if r.placeholder then if s.frameTakes t f r then s.lose t r 2 else s
  else if f.t ≤ r.time * unitFs then
    if f.postLeft = 0 then s
    else
      let s := s.putRecord t r
      let f := { f with postLeft := f.postLeft - 1 }
      let s := s.modTile t fun c => { c with cap := { c.cap with frame := some f } }
      if f.postLeft = 0 then s.endFrame t (r.time * unitFs) else s
  else if f.preHeld < s.fget (R.CAP_PRE_PRE t) then
    (s.putRecord t r).modTile t fun c => { c with cap := { c.cap with frame := some { f with preHeld := f.preHeld + 1 } } }
  else s

/-- A late pre-trigger record of the frame that has ended last (R201). -/
def State.lateRecord (s : State) (t : Nat) (f : FrameCtx) (r : CapRec) : State :=
  if f.preHeld < s.fget (R.CAP_PRE_PRE t) then
    (s.putRecord t r).modTile t fun c => { c with cap := { c.cap with past := some { f with preHeld := f.preHeld + 1 } } }
  else s

/-- The longest time between a trigger instant and its decision, 1,640 ns, in system-time units (Table 8.6). -/
def trigLatency : Nat := 1640 * 256

/-- Pending records of TRIGGERED mode: at most CAP_PRE of those that lie before every instant at which a trigger could still
arrive (R206): that of CROSS lies behind the lane's last sample, `cross`, however long its samples are apart (R204, R208). -/
def trimPending (pre : Nat) (cross : Option Int) (l : List CapRec) : List CapRec :=
  let newest := l.foldl (fun m r => max m r.time) 0
  let early (r : CapRec) : Bool := decide (r.time + trigLatency < newest) && cross.all fun c => decide ((r.time : Int) ≤ c)
  let old := l.filter early
  old.drop (old.length - pre) ++ l.filter fun r => !early r

/-- A record waits for a trigger (R206). -/
def State.pendRecord (s : State) (t : Nat) (r : CapRec) : State :=
  let cross := if s.fget (R.TRIG_CFG_SRC t) = 6 then (s.tile t).cap.prev.map (·.2) else none
  s.modTile t fun c => { c with cap := { c.cap with pre := trimPending (s.fget (R.CAP_PRE_PRE t)) cross (c.cap.pre ++ [r]) } }

/-! ## Sealed steps (13_security.md R333) -/

/-- A FAIL lane code as X_REDACT writes it. -/
def redactCode (c : Nat) : Nat := if c = 0 then 0 else if c ≤ 3 then 1 else if c ≤ 9 then 4 else 0xA

def redactWord (w : Word) : Word :=
  BitVec.ofNat 32 ((List.range 8).foldl (fun v l => v + redactCode (w.toNat / 16 ^ l % 16) * 16 ^ l) 0)

/-- A record as a sealed tile lets it through, if at all; unsealed tiles let every record through unchanged. -/
def State.exposed (s : State) (t : Nat) (r : CapRec) : Option CapRec :=
  if (s.bundleOf t).isNone then some r
  else
    let c := s.tile t
    let p := c.policy
    let cap := field p 31 24 * 256
    match r.typ with
    | 2 => if p.getLsbD 9 && (cap == 0 || decide (c.failRecs < cap)) then
             some (if p.getLsbD 10 then { r with w2 := redactWord r.w2, w3 := redactWord r.w3 } else r)
           else none
    | 3 => if p.getLsbD 11 then some r else none
    | 4 => if p.getLsbD 12 then some r else none
    | 5 => if p.getLsbD 13 then some r else none
    | 6 => if p.getLsbD 13 then some r else none
    | 8 => if p.getLsbD 13 then some r else none
    | _ => some r

/-! ## Records from their sources (R193, R194, R205, R206, R213) -/

/-- A record passes the staging queue of 64 records, which the ring empties at one record per tile clock; `false`: the queue
is full at that instant (R194). -/
def State.stageSlot (s : State) (t : Nat) (i : Int) : State × Bool :=
  let c := (s.tile t).cap
  let gone := (i / tileClock - c.stagedAt / tileClock).toNat
  let n := c.staged - gone
  let n' := if n < 64 then n + 1 else n
  (s.modTile t fun x => { x with cap := { x.cap with staged := n', stagedAt := max i c.stagedAt } }, decide (n < 64))

/-- An ordinary record arrives from its source at an instant. -/
def State.record (s : State) (t : Nat) (r : CapRec) (i : Int) : State :=
  if !s.flag (R.CAP_CFG_EN t) || s.stepState t != stRunning then s
  else match s.exposed t r with
  | none => s
  | some r =>
    let s := if r.typ = 2 then s.modTile t fun c => { c with failRecs := c.failRecs + 1 } else s
    let (s, fits) := s.stageSlot t i
    if !s.flag (R.CAP_CFG_MODE t) then
      if fits then s.putRecord t r else if s.flag (R.CAP_STATUS_STOPPED t) then s else s.lose t r 2
    else if s.flag (R.CAP_STATUS_STOPPED t) then s
    else match (s.tile t).cap.frame, (s.tile t).cap.past with
      | some f, _ => if fits then s.frameRecord t f r else if s.frameTakes t f r then s.lose t r 2 else s
      | none, some f =>
        if r.time * unitFs < f.t then
          if fits then s.lateRecord t f r else if s.frameTakes t f r then s.lose t r 2 else s
        else if s.flag (R.CAP_STATUS_DONE t) then s
        else if s.holdOver t (r.time * unitFs) then s.pendRecord t { r with placeholder := !fits } else s
      | none, none => if s.flag (R.CAP_STATUS_DONE t) then s else s.pendRecord t { r with placeholder := !fits }

/-! ## Triggers (R203, R205, R206, R209) -/

/-- The anchor at the head of a frame that begins with a crevasse record (R197, R206). -/
def State.headAnchor (s : State) (t : Nat) (g : Gap) : State :=
  if (s.tile t).cap.anchor.isSome then s else s.putAnchor t ((s.tile t).cycleAt (g.start * unitFs)) g.start false

/-- A gap that is open already takes up the losses of another (R211, R213). -/
def State.joinGap (s : State) (t : Nat) (g : Gap) : Gap :=
  match (s.tile t).cap.gap with
  | some o => { o with lost := o.lost + g.lost, types := o.types ||| g.types }
  | none => g

/-- The pre-trigger part of a frame: records in order, and at the first placeholder the crevasse record of all of them,
followed by an anchor (R206, R213). -/
def State.putPre (s : State) (t : Nat) (first : Bool) (gap : Option Gap) : List CapRec → State
  | [] => s
  | r :: l =>
    if r.placeholder then
      match first, gap with
      | true, some g => (((s.headAnchor t (s.joinGap t g)).putCrevasse t (s.joinGap t g)).fset (R.CAP_LOST_COUNT t)
          (min (2 ^ 32 - 1) (s.fget (R.CAP_LOST_COUNT t) + g.lost))).putPre t false gap l
      | _, _ => s.putPre t first gap l
    else (s.putRecord t r).putPre t first gap l

/-- The gap that the placeholders of a frame make (R213). -/
def placeholderGap (l : List CapRec) : Option Gap :=
  match l.filter (·.placeholder) with
  | [] => none
  | p :: ps => some { cause := 2, types := (p :: ps).foldl (fun v r => v ||| 2 ^ r.typ) 0, lost := ps.length + 1,
                      start := p.time }

/-- The TRIG record (Table 8.4). -/
def State.trigRecord (s : State) (t : Nat) (i : Int) (pre : Nat) : CapRec :=
  { typ := 6, time := sysOf i, w2 := BitVec.ofNat 32 pre
    w0 := BitVec.ofNat 32 (256 * s.fget (R.TRIG_CFG_SRC t) + 65536 * ((s.tile t).cap.trigs % 65536)) }

/-- The TRIG record passes the staging queue like every record (R194). -/
def State.putTrig (s : State) (t : Nat) (i : Int) (pre : Nat) : State :=
  match s.exposed t (s.trigRecord t i pre) with
  | none => s
  | some r =>
    let (s, fits) := s.stageSlot t i
    if fits then s.putRecord t r else if s.flag (R.CAP_STATUS_STOPPED t) then s else s.lose t r 2

/-- Whether the pre-trigger part of a frame and its TRIG record leave no gap: what it would write is tried out. -/
def State.headFits (s : State) (t : Nat) (i : Int) (kept : List CapRec) : Bool :=
  let s := s.putPre t true (placeholderGap kept) kept
  !((match s.exposed t (s.trigRecord t i 0) with
    | some r => s.putRecord t r
    | none => s).flag (R.CAP_STATUS_GAP t))

/-- The most recent pending records that ring space suffices for (R206). -/
def State.fitPre (s : State) (t : Nat) (i : Int) : List CapRec → List CapRec
  | [] => []
  | r :: l => if s.headFits t i (r :: l) then r :: l else s.fitPre t i l

/-- The pre-trigger part of a frame and its TRIG record are written, and the frame is in progress (R206); with CAP_POST = 0 it ends at once. -/
def State.frameHead (s : State) (t : Nat) (i : Int) (before : List CapRec) : State :=
  let kept := before.drop (before.length - s.fget (R.CAP_PRE_PRE t))
  let s := s.modTile t fun x => { x with cap := { x.cap with pre := [], anchor := none } }
  let kept := s.fitPre t i kept
  let blank := (kept.filter (·.placeholder)).length
  let lost := s.fget (R.CAP_LOST_COUNT t) + blank
  let s := s.putPre t true (placeholderGap kept) kept
  let n := kept.length - blank - (s.fget (R.CAP_LOST_COUNT t) - lost)
  let s := s.putTrig t i n
  let post := s.fget (R.CAP_POST_POST t)
  let s := s.modTile t fun x => { x with cap := { x.cap with frame := some { t := i, postLeft := post, preHeld := n } } }
  if post = 0 then s.endFrame t i else s.setFlag (R.CAP_STATUS_POSTING t) true

/-- TRIG_OUT pins that select the tile pulse (R209). -/
def State.pulseOut (s : State) (t : Nat) (i : Int) : State :=
  (List.range 4).foldl (fun s n =>
    if s.flag (R.TRIG_OUT_CFG_EN n) && s.fget (R.TRIG_OUT_CFG_TILE n) == t then
      { s with trigOut := Store.put (fun _ => 0) s.trigOut n i } else s) s

/-- A sample of the watched lane meets the point of the pass that runs (R210); `last` is the instant of the last conversion averaged
into it. -/
def State.maskMeet (s : State) (t : Nat) (v : Int) (time : Nat) (last : Int) : State :=
  match (s.tile t).cap.mask with
  | none => s
  | some (start, k) =>
    if time * unitFs < start then s
    else
      let s := s.modTile t fun c =>
        { c with cap := { c.cap with mask := if k + 1 < s.fget (R.MASK_CFG_LEN t) then some (start, k + 1) else none } }
      let w0 := s.mword 5 t (0x78000 + 8 * k)
      let upper := signed 18 (field w0 17 0)
      let lower := signed 18 (field (s.mword 5 t (0x78004 + 8 * k)) 17 0)
      if w0.getLsbD 31 = false ∨ (lower ≤ v ∧ v ≤ upper) then s
      else if s.flag (R.MASK_STATUS_VIOL t) then s.count (R.MASK_VCOUNT_COUNT t)
      else
        let side := decide (upper < v)
        let s := s.record t { typ := 8, time := time, w0 := BitVec.ofNat 32 (256 * s.fget (R.MASK_CFG_LANE t) + 4096 * side.toNat)
                              w2 := BitVec.ofNat 32 (unsigned 18 v), w3 := BitVec.ofNat 32 k } (time * unitFs)
        let s := ((s.setFlag (R.MASK_STATUS_VIOL t) true).setFlag (R.MASK_STATUS_SIDE t) side).fset (R.MASK_STATUS_INDEX t) k
        let s :=
          if s.flag (R.MASK_CFG_STOP t) && s.flag (R.CAP_CFG_EN t) then
            let s := s.setFlag (R.CAP_STATUS_STOPPED t) true
            if (s.tile t).cap.frame.isSome then s.endFrame t (time * unitFs) else s
          else s
        if s.flag (R.MASK_CFG_FLAG t) then
          s.modTile t fun c => { c with cap := { c.cap with maskDue := some (last + 640 * 65536000) } }
        else s

/-- The mask takes a sample (R210). Where triggers of CROSS start its passes, the sample waits until none that lies before it can still be
decided (R204). -/
def State.maskSample (s : State) (t lane : Nat) (v : Int) (time : Nat) (last : Int) : State :=
  if !s.flag (R.MASK_CFG_EN t) || s.fget (R.MASK_CFG_LANE t) != lane then s
  else if s.fget (R.TRIG_CFG_SRC t) = 6 ∧ s.fget (R.MASK_CFG_START t) = 0 then
    s.modTile t fun c => { c with cap := { c.cap with samples := c.cap.samples ++ [(v, time, last)] } }
  else s.maskMeet t v time last

/-- The samples that wait and lie no later than `time` meet the pass that runs. -/
def State.maskDecide (s : State) (t : Nat) (time : Int) : State :=
  let l := (s.tile t).cap.samples
  if l.isEmpty then s
  else
    (l.filter fun x => decide ((x.2.1 : Int) ≤ time)).foldl (fun s x => s.maskMeet t x.1 x.2.1 x.2.2)
      (s.modTile t fun c => { c with cap := { c.cap with samples := l.filter fun x => !decide ((x.2.1 : Int) ≤ time) } })

/-- A mask pass starts at an instant when MASK_CFG selects the kind of start (R210). -/
def State.maskStart (s : State) (t kind : Nat) (i : Int) : State :=
  if s.flag (R.MASK_CFG_EN t) && s.fget (R.MASK_CFG_START t) == kind then
    s.modTile t fun c => { c with cap := { c.cap with mask := some (i, 0) } }
  else s

/-- A frame is written (R206). The records and mask samples at or behind the trigger instant that have come before the trigger was decided go
into it, or wait, in order. -/
def State.writeFrame (s : State) (t : Nat) (i : Int) : State :=
  let l := (s.tile t).cap.pre
  let s := (s.frameHead t i (l.filter fun r => decide (r.time * unitFs < i))).maskStart t 0 i
  (l.filter fun r => !decide (r.time * unitFs < i)).foldl (fun s r =>
    let s := s.maskDecide t r.time
    if s.flag (R.CAP_STATUS_STOPPED t) then s
    else match (s.tile t).cap.frame with
      | some f => s.frameRecord t f r
      | none => if s.flag (R.CAP_STATUS_DONE t) || !s.holdOver t (r.time * unitFs) then s else s.pendRecord t r) s

/-- A trigger is taken at an instant (R205, R206). -/
def State.takeTrigger (s : State) (t : Nat) (i : Int) : State :=
  let s := s.modTile t fun c => { c with cap := { c.cap with trigs := c.cap.trigs + 1 } }
  let s := (s.count (R.CAP_STATUS_FRAMES t)).pulseOut t i
  if !s.flag (R.CAP_CFG_EN t) then (s.beginHold t i).maskStart t 0 i
  else if !s.flag (R.CAP_CFG_MODE t) then ((s.putTrig t i 0).beginHold t i).maskStart t 0 i
  else s.writeFrame t i

/-- Whether an instant lies in the post-trigger part of a frame, be it in progress or one that has just ended (R207). -/
def State.inFrame (s : State) (t : Nat) (i : Int) : Bool :=
  let c := (s.tile t).cap
  c.frame.isSome || c.past.any fun f => decide (f.t ≤ i) && f.stop.any fun e => decide (i < e)

/-- A source event at an instant: ignored outside the step, in a frame's post-trigger part and in hold-off, else the trigger
is taken (R203, R207). -/
def State.trigEvent (s : State) (t : Nat) (i : Int) : State :=
  let c := s.tile t
  if s.stepState t != stRunning || decide (i < c.startAt) || (c.closing && decide (c.lastE ≤ i)) then s
  else if s.flag (R.CAP_CFG_EN t) && s.flag (R.CAP_CFG_MODE t) &&
      (s.flag (R.CAP_STATUS_DONE t) || s.flag (R.CAP_STATUS_STOPPED t)) then s
  else if s.inFrame t i then s.count (R.TRIG_IGN_COUNT t)
  else if s.holdOver t i then s.takeTrigger t i
  else
    (s.modTile t fun x =>
      { x with cap := { x.cap with hold := x.cap.hold.map fun h => { h with left := h.left - 1 } } }).count (R.TRIG_IGN_COUNT t)

/-- The events that are to be registered in a tile act as triggers up to an instant (R203); those behind the start of a PENDING tile wait for
it. -/
def State.settleTrigs (s : State) (t : Nat) (i : Int) : State :=
  let c := s.tile t
  let ready (x : Int) : Bool := decide (x ≤ i) && (s.stepState t != stPending || decide (x < c.startAt))
  if c.cap.due.isEmpty then s
  else
    (c.cap.due.filter ready).foldl (fun s x => s.trigEvent t x)
      (s.modTile t fun c => { c with cap := { c.cap with due := c.cap.due.filter fun x => !ready x } })

/-- The registration of an event in a tile at an instant, with the trigger source that it may be (R71, R203). -/
def State.registerEvent (s : State) (t : Nat) (k : CondKey) (i : Int) (trig : Bool) : State :=
  let s := s.addCond t k i
  if trig then
    (s.modTile t fun c => { c with cap := { c.cap with due := c.cap.due ++ [i] } }).settleTrigs t (s.tileTime t s.now)
  else s

/-- What is to be registered in the tiles by now is. -/
def State.registerDue (s : State) : State :=
  (s.tiles.filter fun e => !e.2.cap.due.isEmpty || e.2.conds.any fun x => x.1.external).foldl
    (fun s e => (s.syncConds e.1).settleTrigs e.1 (s.tileTime e.1 s.now)) s

/-- A marker reaches the trigger and mask logic (03_sequencer.md R67, R203, R210). -/
def State.marker (s : State) (t : Nat) (i : Int) (m : BitVec 8) : State :=
  let s := if s.flag (R.MASK_CFG_EN t) && s.fget (R.MASK_CFG_MKID t) == m.toNat then s.maskStart t 1 i else s
  if s.fget (R.TRIG_CFG_SRC t) == 1 && s.fget (R.TRIG_CFG_ARG t) == m.toNat then s.trigEvent t i else s

/-- A failing compare counts for the FAILS trigger (Table 8.5). -/
def State.failsTrigger (s : State) (ch : Nat) (i : Int) : State :=
  let t := ch / 16
  if s.fget (R.TRIG_CFG_SRC t) == 2 &&
      (!s.flag (R.TRIG_CFG_SITEQ t) || (s.sitesOf ch).getLsbD (s.fget (R.TRIG_CFG_ARG t))) then
    let n := (s.tile t).cap.fails + 1
    let s := s.modTile t fun c => { c with cap := { c.cap with fails := n } }
    if n % (max 1 (s.fget (R.TRIG_N_N t))) = 0 then s.trigEvent t i else s
  else s

/-! ## Waveform samples: CROSS and masks (R202, R204, R210) -/

/-- The CROSS detectors take a sample (R204). -/
def State.crossSample (s : State) (t lane : Nat) (v : Int) (time : Int) : State :=
  if s.fget (R.TRIG_CFG_SRC t) != 6 || s.fget (R.TRIG_CFG_ARG t) % 16 != lane then s
  else
    let c := (s.tile t).cap
    let l := signed 18 (s.fget (R.TRIG_LEVEL_CODE t))
    let hy : Int := s.fget (R.TRIG_HYS_CODE t)
    let dir := s.fget (R.TRIG_CFG_DIR t)
    let (up, down, inst) : Bool × Bool × Option Int := match c.prev with
      | none => (false, false, none)
      | some (v0, t0) =>
        if c.armedUp ∧ v0 < l ∧ l ≤ v then
          (true, false, some (t0 + ceilDiv (256 * (l - v0)) (v - v0) * (time - t0) / 256))
        else if c.armedDown ∧ l < v0 ∧ v ≤ l then
          (false, true, some (t0 + ceilDiv (256 * (v0 - l)) (v0 - v) * (time - t0) / 256))
        else (false, false, none)
    let s := s.modTile t fun x => { x with cap := { x.cap with
      prev := some (v, time)
      armedUp := (c.armedUp && !up) || decide (v ≤ l - hy)
      armedDown := (c.armedDown && !down) || decide (l + hy ≤ v) } }
    let s := match inst with
      | some i => if (up && (dir == 0 || dir == 2)) || (down && (dir == 1 || dir == 2)) then
          (s.maskDecide t (i - 1)).trigEvent t (i * unitFs) else s
      | none => s
    s.maskDecide t time

/-- WAVE records are written up to a key instant, in its order (R197). -/
def State.putWaves (s : State) (t : Nat) (bound i : Int) : State :=
  let l := sortBy (fun (a b : CapRec) => decide (a.time ≤ b.time)) (s.tile t).cap.waves
  if l.isEmpty then s
  else
    (l.filter fun r => decide ((r.time : Int) ≤ bound)).foldl (fun s r => s.record t r i)
      (s.modTile t fun c => { c with cap := { c.cap with waves := l.filter fun r => !decide ((r.time : Int) ≤ bound) } })

/-! ## The end of a step (R206, R212) -/

/-- The frame in progress ends, pending records are discarded, and a gap still open takes the reserved slot. -/
def State.endCapture (s : State) (t : Nat) (i : Int) : State :=
  let s := ((s.settleTrigs t (i - 1)).putWaves t (2 ^ 80) i).maskDecide t (2 ^ 80)
  let s := if (s.tile t).cap.frame.isSome then s.endFrame t i else s
  let s := s.modTile t fun c => { c with cap := { c.cap with pre := [], mask := none, maskDue := none } }
  match (s.tile t).cap.gap with
  | some g => if s.ringU t < s.ringN t then s.putCrevasse t g else s
  | none => s

end Sys2Proof.Machine
end

