-- ==== Sys2Proof/Machine/Pins.lean ====
section
/-! DEFINITION. Channels, levels, comparators and sentinels (06_pin_electronics.md), safety reactions on them
(15_safety_faults.md R362 to R368), and the application of calibration states (09_calibration.md R234). -/

namespace Sys2Proof.Machine

/-! ## The channel's mode (R135, R136) -/

/-- The mode a channel acts in: OFF while a safety reaction holds it in the pin safe state (R136). -/
def State.mode (s : State) (ch : Nat) : Nat := if (s.chan ch).safe then 0 else s.fget (R.CH_MODE_MODE ch)

/-- Comparators are enabled once the gate is closed (R137) and powered while the tile is not DORMANT or OFF (Table 6.15). -/
def State.cmpOn (s : State) (ch : Nat) : Bool :=
  s.mode ch != 0 && s.flag (R.CH_STATUS_GATE ch) && decide (s.power (ch / 16) < 2)

/-- CSTATE follows the comparators and their KNOWN flags (R150). -/
def State.syncCmp (s : State) (ch : Nat) : State :=
  let c := s.chan ch
  let hi := s.flag (R.CH_STATUS_KNOWN_HI ch)
  let lo := s.flag (R.CH_STATUS_KNOWN_LO ch)
  s.fset (R.CH_STATUS_CSTATE ch)
    (if hi && c.hiAbove then 2 else if lo && c.loBelow then 0 else if hi && lo then 1 else 3)

/-- KNOWN of the high and of the low comparator set or cleared. -/
def State.setKnown (s : State) (ch : Nat) (hi lo : Bool) : State :=
  ((s.setFlag (R.CH_STATUS_KNOWN_HI ch) hi).setFlag (R.CH_STATUS_KNOWN_LO ch) lo).syncCmp ch

/-- A threshold application or a change of HYST clears KNOWN of the comparators concerned; while a forced reset runs, the
clearing takes effect when it ends (R152). DESIGN CHOICE: one threshold's application during the reset leaves both comparators not KNOWN at
its end, since the rule says that "the reset completes without setting KNOWN" (log entry 63). -/
def State.clearKnown (s : State) (ch : Nat) (hi lo : Bool) : State :=
  if (s.chan ch).forcing then s.modChan ch fun c => { c with clearDeferred := true }
  else s.setKnown ch (s.flag (R.CH_STATUS_KNOWN_HI ch) && !hi) (s.flag (R.CH_STATUS_KNOWN_LO ch) && !lo)

/-- A forced reset of 1 µs begins (R154). -/
def State.forceReset (s : State) (ch : Nat) : State :=
  ((s.modChan ch fun c => { c with forcing := true, clearDeferred := false, resetQueued := false }).setFlag
    (R.CH_STATUS_RST_BUSY ch) true).setKnown ch false false

/-- Driver, load, PMU and comparators off, the gate opening (R136, R137); with the gate already open the channel is in the pin
safe state at once. -/
def State.openGate (s : State) (ch : Nat) : State :=
  let s := s.modChan ch fun c =>
    { c with level := .vil, enable := .offLoadOff, carried := [], forcing := false, clearDeferred := false
             resetQueued := false, gateMoving := s.flag (R.CH_STATUS_GATE ch), pmuRanging := false }
  let s := (((s.setFlag (R.CH_STATUS_RST_BUSY ch) false).setFlag (R.CH_STATUS_RANGING ch) false).setFlag
    (R.CH_STATUS_CLAMP ch) false).setKnown ch false false
  let s := s.setFlag (R.PMU_MEAS_VALID ch) false
  if s.flag (R.CH_STATUS_GATE ch) then s else s.setFlag (R.CH_STATUS_SAFE ch) true

/-- A write to CH_MODE or a reaction reaches a channel: a measurement of it in progress is abandoned (09_calibration.md R228). -/
def State.reach (s : State) (ch : Nat) : State := s.modChan ch fun c => { c with lent := false, reached := some s.now }

/-- A STEP_ARM or a power-state change reaches a tile. -/
def State.reachTile (s : State) (t : Nat) : State := s.modTile t fun c => { c with reached := some s.now }

/-- A safety reaction or a fence places a channel in the pin safe state (R136, R363). -/
def State.chSafe (s : State) (ch : Nat) : State :=
  ((s.reach ch).modChan ch fun c => { c with safe := true }).openGate ch

/-- A channel goes to OFF for a calibration measurement. -/
def State.lend (s : State) (ch : Nat) : State := (s.chSafe ch).modChan ch fun c => { c with lent := true }

/-! ## Level codes (R140, R142, R143, R145) -/

/-- The multiple of LSB_V that a voltage code stands for (R140). -/
def voltOf (c : Nat) : Int := if c < 0xDB6E then c else (c : Int) - 65536

/-- The number that the code of level `k` stands for in multiples of its LSB: a signed fraction for PMU_SET in FI, a magnitude for IOH and
IOL, else a voltage (R139 to R141). -/
def State.levelOf (s : State) (ch k : Nat) (code : BitVec 16) : Int :=
  if k = 6 ∨ k = 7 then code.toNat
  else if k = 10 ∧ s.fget (R.PMU_CFG_FORCE ch) = 2 then code.toInt
  else voltOf code.toNat

/-- A correction of a channel's item: measured, or from OTP (09_calibration.md Table 9.3, R236). -/
def CalItem.value (it : CalItem) (key k : Nat) : Int := if it.measured then it.values.getD k 0 else Config.otpCal key k

def calKey (ch subj : Nat) : Nat := ch * 8 + subj
def State.calOf (s : State) (k : Nat) : CalItem := Store.get (fun _ => {}) s.calApplied k

/-- What the gain and offset of an item of subject 0 add to a level, in units of 2^-24 LSB (R142; Table 9.3). -/
def gainPart (it : CalItem) (key k : Nat) (v : Int) : Int := v * it.value key (2 * k) + it.value key (2 * k + 1) * 2 ^ 20

/-- What a comparator offset, item of subject 1, adds to a threshold, in units of 2^-24 LSB. -/
def thresholdPart (it : CalItem) (key k : Nat) : Int := if k = 3 ∨ k = 4 then it.value key (k - 3) * 2 ^ 20 else 0

/-- What drives the converter of level `k`: the applied code with the corrections of the epoch in force, in units of 2^-24 LSB (R142). -/
def State.driven (s : State) (ch k : Nat) : Int :=
  let v := s.levelOf ch k (Store.get (fun _ => 0) (s.chan ch).applied k)
  v * 2 ^ 24 + gainPart (s.calOf (calKey ch 0)) (calKey ch 0) k v + thresholdPart (s.calOf (calKey ch 1)) (calKey ch 1) k

/-! ## Comparators and load against the pin's voltage (R150 to R156) -/

/-- How far a voltage of `v` µV lies above the voltage that a code stands for, in 1/65,536 µV. -/
def aboveBy (code : Nat) (v : Int) : Int := v * 65536 - voltOf code * 7000000

/-- The hysteresis that a HYST field selects, in µV (R151). -/
def hystUv (f : Nat) : Nat := [0, 5000, 15000, 40000].getD f 0

/-- Whether a comparator reads above for an input, by what it read before (R151). -/
def sideAt (code f : Nat) (v : Int) (was : Bool) : Bool :=
  let h : Int := hystUv f * 32768
  if h < aboveBy code v then true else if aboveBy code v < -h then false else was

/-- The side of the band on which an input lies, none inside it (R151). -/
def outsideBand (code f : Nat) (v : Int) : Option Bool :=
  let w : Int := max (hystUv f * 32768) (2000 * 65536)
  if w < aboveBy code v then some true else if aboveBy code v < -w then some false else none

/-- The side of a threshold on which an input lies, without hysteresis; none within the threshold accuracy of Table 6.11, where the
comparator may resolve to either side (R154). -/
def sideOfVt (code : Nat) (v : Int) : Option Bool :=
  let acc : Int := 3000 * 65536 + (voltOf code).natAbs * 3500
  if acc < aboveBy code v then some true else if aboveBy code v < -acc then some false else none

/-- The code at whose value the output of level `k` stands: the one applied, or inside a hold the one before it (R143). -/
def ChanCtx.output (c : ChanCtx) (k : Nat) : BitVec 16 :=
  ((c.holding.find? (·.1 == k)).map (·.2)).getD (Store.get (fun _ => 0) c.applied k)

/-- The code at whose value the output of a level stands, as a number. -/
def State.threshold (s : State) (ch k : Nat) : Nat := ((s.chan ch).output k).toNat

/-- The comparators' outputs for an input, by those before it. -/
def State.sampled (s : State) (ch : Nat) (x : CmpSample) (v : Int) : CmpSample :=
  let f := s.fget (R.CH_MODE_HYST ch)
  { hiAbove := sideAt (s.threshold ch 3) f v x.hiAbove, loBelow := !sideAt (s.threshold ch 4) f v (!x.loBelow) }

/-- The outputs that a forced reset leaves for an input: where the side is open, a free value each (R154). -/
def State.resolve (s : State) (hi lo : Nat) (v : Int) : CmpSample × State :=
  let (w, s) := s.free
  ({ hiAbove := (sideOfVt hi v).getD (w.getLsbD 0), loBelow := !(sideOfVt lo v).getD (w.getLsbD 1) }, s)

/-- The current out of the ball that the load forces at a pin of `v` µV, in units of 24 mA / 65,536 / (65,536 × 100,000): IOL below VCOM − 50 mV,
minus IOH above VCOM + 50 mV, linear between; none in every drive condition but load on, and in PMU mode (R156). -/
def State.loadCurrent (s : State) (ch : Nat) (v : Int) : Int :=
  let code (k : Nat) : Int := s.threshold ch k
  let band : Int := 50000 * 65536
  let d := max (-band) (min band (aboveBy (s.threshold ch 5) v))
  if s.mode ch = 1 ∧ (s.chan ch).enable = .offLoadOn then code 7 * (2 * band) - (code 6 + code 7) * (d + band) else 0

/-- Where a pin that the device under test leaves at high impedance comes to rest under the load, in 1/65,536 µV; none where the load
forces no current (R156). -/
def State.loadRest (s : State) (ch : Nat) : Option Int :=
  let ioh : Int := s.threshold ch 6
  let iol : Int := s.threshold ch 7
  if s.mode ch = 1 ∧ (s.chan ch).enable = .offLoadOn ∧ ioh + iol ≠ 0 then
    some (voltOf (s.threshold ch 5) * 7000000 - 50000 * 65536 + 100000 * 65536 * iol / (ioh + iol))
  else none

/-- A level code is applied to its converter (R142, R143); a threshold application clears KNOWN (R152). -/
def State.applyLevel (s : State) (ch k : Nat) (code : BitVec 16) : State :=
  let c := s.chan ch
  let old := Store.get (fun _ => 0) c.applied k
  let jump := code.toNat / 1024 != old.toNat / 1024
  let s := s.setChan ch
    { c with applied := Store.put (fun _ => 0) c.applied k code
             holding := if jump then (k, c.output k) :: c.holding.filter (·.1 != k) else c.holding
             settling := k :: c.settling.filter (· != k) }
  let s := s.setFlag (R.CH_STATUS_LVL_BUSY ch) true
  if k = 3 then s.clearKnown ch true false else if k = 4 then s.clearKnown ch false true else s

/-- A converter is driven to its safe code with the deglitch hold bypassed (R145). -/
def State.applySafe (s : State) (ch k : Nat) : State :=
  let s := s.applyLevel ch k ((s.rget (R.LVL_SAFE ch k)).setWidth 16)
  s.modChan ch fun c => { c with holding := c.holding.filter (·.1 != k) }

/-- LVL_k takes a code; it is applied unless LVL_CLR_N is asserted (R142, R145). -/
def State.levelCode (s : State) (ch k : Nat) (code : BitVec 16) : State :=
  let s := s.fset (R.LVL_CODE ch k) code.toNat
  if s.lvlClr then s else s.applyLevel ch k code

/-! ## CH_MODE (R135, R137, R154) -/

/-- A write to CH_MODE that its checks let through; while SF3 holds the front ends off the channel stays in the pin safe state (R365
and Table 15.2). -/
def State.chMode (s : State) (ch : Nat) (v : Word) : State :=
  let s := s.reach ch
  if s.flag R.SF_STATUS_FE_OFF then s.rset (R.CH_MODE ch) (v &&& 0x133)
  else
    let old := s.mode ch
    let new := field v 1 0
    let hyst := s.fget (R.CH_MODE_HYST ch)
    let s := s.rset (R.CH_MODE ch) (v &&& 0x133)
    let s := s.modChan ch fun c => { c with safe := false }
    let s := if field v 5 4 = hyst then s else s.clearKnown ch true true
    if new = 0 then if old = 0 then s.setFlag (R.CH_STATUS_SAFE ch) (!(s.flag (R.CH_STATUS_GATE ch))) else s.openGate ch
    else if old = 0 then
      (s.modChan ch fun c => { c with gateMoving := true, resetQueued := v.getLsbD 9, enable := .offLoadOff, level := .vil }).setFlag
        (R.CH_STATUS_SAFE ch) false |>.setFlag (R.CH_STATUS_GATE ch) false
    else
      let s := if new = old then s
        else (s.modChan ch fun c => { c with enable := .offLoadOff, level := .vil, carried := [] }).setFlag (R.CH_STATUS_CLAMP ch) false
      if v.getLsbD 9 then
        if s.flag (R.CH_STATUS_GATE ch) then s.forceReset ch else s.modChan ch fun c => { c with resetQueued := true }
      else s

/-- The comparators of a channel are enabled: they are due for a check at once (R155). -/
def ChanCtx.checkFrom (c : ChanCtx) (i : Int) : ChanCtx := { c with due := i, checkedAt := i, ran := 0 }

/-- The gate has closed: the comparators are enabled with KNOWN cleared, a queued forced reset begins (R137, R154). -/
def State.gateDone (s : State) (ch : Nat) : State :=
  if s.mode ch = 0 || s.flag (R.CH_STATUS_GATE ch) then s
  else
    let q := (s.chan ch).resetQueued
    let s := ((s.modChan ch fun c => { c with gateMoving := false, resetQueued := false, chkBad := false }.checkFrom s.now).setFlag
      (R.CH_STATUS_GATE ch) true).setKnown ch false false
    if q then s.forceReset ch else s

/-- The gate has opened (R137). -/
def State.gateOpen (s : State) (ch : Nat) : State :=
  if s.mode ch = 0 then
    ((s.modChan ch fun c => { c with gateMoving := false }).setFlag (R.CH_STATUS_GATE ch) false).setFlag (R.CH_STATUS_SAFE ch) true
  else s

/-! ## PMU_CFG (R157 to R159) -/

/-- The full scale of a range in units of 1 µA (Table 6.8). -/
def fullScale (r : Nat) : Nat := match r with | 0 => 2 | 1 => 20 | 2 => 200 | 3 => 2000 | _ => 40000

/-- The current limit in FV in units of 0.1 µA (Table 6.8); while a change of range runs, the larger of the two ranges' (R159). -/
def State.currentLimit (s : State) (ch : Nat) : Nat :=
  let f := fullScale (s.fget (R.PMU_CFG_RANGE ch))
  11 * if s.flag (R.CH_STATUS_RANGING ch) then max f (fullScale (s.chan ch).rangedFrom) else f

/-- Whether the limit or a clamp of a PMU channel acts, as a user conversion of `code` shows: in FV a measured current at the limit, in FI
a measured voltage at a clamp; where the other quantity is measured, none (R158, R161). -/
def State.limited (s : State) (ch : Nat) (code : Int) : Option Bool :=
  let current := s.flag (R.PMU_CFG_MSRC ch)
  match s.fget (R.PMU_CFG_FORCE ch) with
  | 1 => if current then some (decide (s.currentLimit ch * 10000 ≤ code.natAbs * fullScale (s.fget (R.PMU_CFG_RANGE ch)))) else none
  | 2 => if current then none
    else some (decide (0 ≤ aboveBy (s.threshold ch 8) (50 * code) ∨ aboveBy (s.threshold ch 9) (50 * code) ≤ 0))
  | _ => some false

/-- Division rounded to the nearest integer, half away from zero. -/
def roundDiv (a : Int) (b : Nat) : Int := if 0 ≤ a then (2 * a + b) / (2 * b) else -((2 * (-a) + b) / (2 * b))

/-- PMU_SET in FI carried to a new range, saturating at its full scale (R159). -/
def rescale (code : Nat) (r r' : Nat) : BitVec 16 :=
  let v := roundDiv (signed 16 code * fullScale r) (fullScale r')
  BitVec.ofNat 16 (unsigned 16 (max (-32768) (min 32767 v)))

/-- A write to PMU_CFG that its checks let through; `measured` is what the device measures at the write (R159). DESIGN CHOICE: every such write
starts the average of R160 afresh, whatever it changes (log entry 74). -/
def State.pmuCfg (s : State) (ch : Nat) (v : Word) (measured : BitVec 16) : State :=
  let r := s.fget (R.PMU_CFG_RANGE ch)
  let f := s.fget (R.PMU_CFG_FORCE ch)
  let r' := field v 2 0
  let f' := field v 5 4
  let s := s.rset (R.PMU_CFG ch) (v &&& 0x1FF7)
  let s := s.modChan ch fun c => { c with pmuSum := 0, pmuN := 0, pmuTimes := 0, pmuOvr := false, pmuClamp := false, pmuRanging := false }
  let s := if f' = 0 then s.setFlag (R.CH_STATUS_CLAMP ch) false else s
  if s.mode ch != 2 || (r = r' && f = f') then s
  else
    let s := (s.modChan ch fun c => { c with rangedFrom := r }).setFlag (R.CH_STATUS_RANGING ch) true
    if f = 2 ∧ f' = 2 then s.levelCode ch 10 (rescale (s.fget (R.LVL_CODE ch 10)) r r')
    else if (f = 1 ∧ f' = 2) ∨ (f = 2 ∧ f' = 1) then s.levelCode ch 10 measured
    else s

/-! ## Sentinels and DSE outputs (R162 to R164) -/

def State.snt (s : State) (n : Nat) : SntCtx := Store.get (fun _ => {}) s.snts n
def State.modSnt (s : State) (n : Nat) (f : SntCtx → SntCtx) : State :=
  { s with snts := Store.put (fun _ => {}) s.snts n (f (s.snt n)) }

def State.sntFenced (s : State) (n : Nat) : Bool := s.flag (bitFld (R.SNT_FENCED 0) n)

/-- The outputs a sentinel maps, as a 64-bit mask. -/
def State.sntMap (s : State) (n : Nat) : Nat := s.pair (R.SNT_MAP_LO n) (R.SNT_MAP_HI n)

/-- Whether a sentinel holds the outputs it maps low: fenced, or enabled and not KNOWN inside its window (R164, Table 15.5). -/
def State.sntHolds (s : State) (n : Nat) : Bool :=
  s.sntFenced n || (s.flag (R.SNT_CFG_EN n) && (!s.flag (bitFld (R.SNT_KNOWN 0) n) || (s.snt n).outside))

/-- DSE_OUT follows R164. -/
def State.syncDse (s : State) : State :=
  let low := (List.range 64).foldl (fun m n => if s.sntHolds n then m ||| s.sntMap n else m) 0
  let v := s.pair (R.DSE_EN 0) (R.DSE_EN 1) &&& (2 ^ 64 - 1 - (s.pair (R.DSE_DROP 0) (R.DSE_DROP 1) ||| low))
  s.setPair (R.DSE_OUT 0) (R.DSE_OUT 1) v

/-- Drop latches set for a mask of outputs (R163). -/
def State.dseDrop (s : State) (m : Nat) : State :=
  (s.setPair (R.DSE_DROP 0) (R.DSE_DROP 1) (s.pair (R.DSE_DROP 0) (R.DSE_DROP 1) ||| m)).syncDse

/-- Drop latches that writing 1 cannot clear: those of outputs mapped by a sentinel still in violation (R163) or fenced. -/
def State.dseHeld (s : State) : Nat :=
  (List.range 64).foldl (fun m n => if (s.snt n).viol || s.injHeld.contains (0x60000, 7, n) || s.sntFenced n then m ||| s.sntMap n else m) 0

/-- Whether an input lies outside a sentinel's window as its comparators read. -/
def SntCtx.follow (c : SntCtx) : SntCtx := { c with outside := c.hiAbove || c.loBelow }

/-- The thresholds of a sentinel: VHI and VLO (R162). -/
def State.sntCodes (s : State) (n : Nat) : Nat × Nat := (s.fget (R.SNT_WIN_VHI n), s.fget (R.SNT_WIN_VLO n))

/-- A sentinel's KNOWN shows both comparators known; `outside` follows them (R162, R164). -/
def State.sntSync (s : State) (n : Nat) : State :=
  let c := s.snt n
  (s.setFlag (bitFld (R.SNT_KNOWN 0) n) (c.knownHi && c.knownLo)).syncDse

/-- A write to SNT_CFG that its checks let through: enabling starts a forced reset of 1 µs (R162). -/
def State.sntCfg (s : State) (n : Nat) (v : Word) : State :=
  let was := s.flag (R.SNT_CFG_EN n)
  let s := s.rset (R.SNT_CFG n) (v &&& 0xFF1)
  let s := if was == v.getLsbD 0 then s
    else s.modSnt n fun _ => { forcing := v.getLsbD 0 }
  s.sntSync n

/-! ## Safety functions (15_safety_faults.md R362 to R376) -/

/-- The AON clock cycle of an instant, four REFCLK edges long. DESIGN CHOICE: the cycles begin at whole multiples of 40 ns of the count (log
entry 16). -/
def aonCycle (i : Int) : Int := i / (10240 * unitFs)

/-- The real occurrence of a source that sets injected, or the injected one of a source that sets real, in the same AON clock cycle (R383). -/
def State.faultTwin (s : State) (b src : Nat) (inj : Bool) : Option FaultMark :=
  s.faultMarks.find? fun m => m.block == b && m.source == src && m.inj != inj && aonCycle m.instant == aonCycle s.now

/-- Whether a source acts: it sets for the first time since its bit was clear (R373), and its reaction has not run for the other flag in the
same cycle (R383). -/
def State.faultNew (s : State) (inj : Bool) (e : Nat × Nat) : Bool := !s.faultSet e.1 e.2 inj && (s.faultTwin e.1 e.2 inj).isNone

/-- The moraine record of a first occurrence (R373); a real and an injected one of a source in one cycle share theirs (R383). -/
def State.faultRecord (s : State) (b src : Nat) (inj : Bool) : State :=
  match s.faultTwin b src inj with
  | some m =>
    match (Store.get (fun _ => none) s.mrn m.seq : Option MrnRec) with
    | some r => if s.staged.contains m.seq then
        { s with mrn := Store.put (fun _ => none) s.mrn m.seq (some { r with flags := r.flags ||| 3 }) } else s
    | none => s
  | none =>
    let mark : FaultMark := { block := b, source := src, inj := inj, instant := s.now, seq := s.fget R.MRN_SEQ_SEQ }
    let marks := s.faultMarks.filter fun m => aonCycle m.instant == aonCycle s.now
    { s with faultMarks := marks ++ [mark] }.stageOnly 0x10 (wordBytes (BitVec.ofNat 32 (R.FLT_REAL b)) ++ [BitVec.ofNat 8 src]) (!inj) inj

/-- A source sets: its bits, and its record on the first occurrence. -/
def State.faultLog (s : State) (b src : Nat) (inj : Bool := false) : State :=
  let t := s.faultBits b src inj
  if s.faultSet b src inj then t else t.faultRecord b src inj

/-- Sources set in one cycle, without the resets of their blocks (R372): those that are new act, and a lost record with them. Their records take
SEQ by block and source (18_moraine_counters.md R419). -/
def State.faultRaises (s : State) (l : List (Nat × Nat)) (inj : Bool := false) : State :=
  let new := l.filter (s.faultNew inj)
  let t := l.foldl (fun t e => t.faultBits e.1 e.2 inj) s
  let first := sortBy (fun a b => decide (a.1 * 32 + a.2 < b.1 * 32 + b.2)) (l.eraseDups.filter fun e => !s.faultSet e.1 e.2 inj)
  let t := first.foldl (fun t e => t.faultRecord e.1 e.2 inj) t
  t.faultActs (new ++ if !s.faultSet 0x80000 1 false && t.faultSet 0x80000 1 false && !new.contains (0x80000, 1) then [(0x80000, 1)] else [])

/-- A source of a block whose BLOCK_RESET is not selectable. -/
def State.faultRaise (s : State) (b src : Nat) (inj : Bool := false) : State := s.faultRaises [(b, src)] inj

/-- A safety function triggers: SF_STATUS, SF_LAST and the SAFETY event, which the fault routine sends (R376, Table 15.8). `unit` is
0xFFFF for the chip. -/
def State.safetyNote (s : State) (f unit src : Nat) : State :=
  let s := s.rset R.SF_STATUS (s.rget R.SF_STATUS ||| BitVec.ofNat 32 (2 ^ (f - 1)))
  let s := s.rset R.SF_LAST (BitVec.ofNat 32 (65536 * (unit % 1024) + f))
  { s with items := s.items ++ [Item.safety f unit src] }.evCount 83

/-- The steps that an injected trigger touches carry INJECTED (R382). -/
def State.safetyTaint (s : State) (f unit : Nat) (inj : Bool) : State :=
  if !inj then s
  else if f = 3 ∨ f = 5 then s.suspectAll Sf.injected
  else if unit < 1024 ∧ inStep (s.stepState (unit / 16)) then s.suspectFlag (unit / 16) Sf.injected
  else s

/-- A safety function triggers, with its fault source. -/
def State.safety (s : State) (f unit src : Nat) (inj : Bool := false) : State :=
  ((s.safetyNote f unit src).faultRaise 0x60000 src inj).safetyTaint f unit inj

/-- SF1 and SF2 on a channel: its fault bit, the pin safe state, and a retest at the step boundary (R363, R364, R379). -/
def State.pinReaction (s : State) (f : Fld) (fn src ch : Nat) (inj : Bool := false) : State :=
  let s := (s.setFlag f true).chSafe ch
  (s.modChan ch fun c => { c with retest := max c.retest 1, inj := inj }).safety fn ch src inj

/-- SF4 on a channel: the fault bit; every compare UNKNOWN for the rest of the step, its sites without a recorded fail INDETERMINATE, and
the suspect flag CHKFAIL (R155, R366). -/
def State.checkBad (s : State) (f : Fld) (ch : Nat) (retest : Bool) (inj : Bool := false) : State :=
  let s := s.setFlag f true
  let s := s.modChan ch fun c =>
    { c with chkBad := true, retest := if retest then max c.retest 1 else c.retest, inj := if retest then inj else c.inj }
  let s := if inStep (s.stepState (ch / 16)) then (s.indChan ch).suspectFlag (ch / 16) Sf.chkFail else s
  s.safety 4 ch 5 inj

/-! ## Applying a calibration state (09_calibration.md R232, R234) -/

/-- The key of the SYNC item. -/
def syncKey : Nat := 8197

def State.calNewest (s : State) (k : Nat) : CalItem := Store.get (fun _ => {}) s.calNew k

/-- NOTRACE of CH_CAL_STAT: an applied item lacks the REFV trace (Table 9.5). -/
def State.syncTrace (s : State) (ch : Nat) : State :=
  s.setFlag (R.CH_CAL_STAT_NOTRACE ch) ((List.range 5).any fun j => (s.calOf (calKey ch j)).noTrace)

/-- The code of LVL_k with the corrections of the items applied, in units of 2^-24 LSB (R142). -/
def State.corrected (s : State) (ch k : Nat) : Int :=
  let v := s.levelOf ch k ((s.rget (R.LVL ch k)).setWidth 16)
  v * 2 ^ 24 + gainPart (s.calOf (calKey ch 0)) (calKey ch 0) k v + thresholdPart (s.calOf (calKey ch 1)) (calKey ch 1) k

/-- The newest item of a subject becomes the one applied; that of subject 3 goes to the deskew registers. -/
def State.calItem (s : State) (ch subj : Nat) : State :=
  let key := calKey ch subj
  let new := s.calNewest key
  let s := { s with calApplied := Store.put (fun _ => {}) s.calApplied key new }
  if subj = 3 then
    (s.fset (R.CH_DSK_CAL_DRV ch) (unsigned 16 (new.value key 0))).fset (R.CH_DSK_CAL_CMP ch) (unsigned 16 (new.value key 1))
  else s

/-- The newest items of a channel are applied, and with them every level whose corrected code they change (R234). DESIGN CHOICE: corrected
codes are compared to the full resolution of their corrections (log entry 80). -/
def State.calChan (s : State) (ch : Nat) : State :=
  let was := s
  let s := (List.range 5).foldl (fun s j => s.calItem ch j) s
  (List.range 11).foldl (fun s k =>
    if s.lvlClr || s.corrected ch k == was.corrected ch k then s else s.applyLevel ch k ((s.rget (R.LVL ch k)).setWidth 16)) s

/-- Whether a background item of subject 0 to 4 of a channel is stale (R236): `tj` is the row's Tj in units of 0.125 °C. -/
def State.itemStale (s : State) (ch subj : Nat) (tj : Int) : Bool :=
  let it := s.calOf (calKey ch subj)
  !it.measured || decide ((8 * s.fget R.CAL_LIMIT_DTEMP : Int) < (tj - it.tj).natAbs) ||
    decide (s.fget R.CAL_LIMIT_HOURS * 16 ≤ (s.rget R.MRN_HOURS).toNat - it.hours)

/-- Tj of the row of a channel: the contribution of its sensor (17_power_thermal.md R404). -/
def State.rowTj (s : State) (ch : Nat) : Int := signed 16 (s.fget (R.THS_READ_TEMP (80 + ch / 16)))

/-- STALE of CH_CAL_STAT for every subject, and TILE_CAL_FLAGS.STALE and CALSTALE for a step that the channel takes part in
(R236, R237). -/
def State.syncStale (s : State) (ch : Nat) : State :=
  let bits := (List.range 5).foldl (fun v j => v + if s.itemStale ch j (s.rowTj ch) then 2 ^ j else 0) 0
  let s := s.fset (R.CH_CAL_STAT_STALE ch) bits
  if bits != 0 && s.mode ch != 0 && inStep (s.stepState (ch / 16)) then
    (s.setFlag (R.TILE_CAL_FLAGS_STALE (ch / 16)) true).suspectFlag (ch / 16) Sf.calStale
  else s

/-- Every value of the newest committed state goes to a tile. -/
def State.calLoad (s : State) (t : Nat) : State :=
  let s := (chansOf t).foldl (fun s ch => ((s.calChan ch).syncTrace ch).syncStale ch) s
  (s.modTile t fun c => { c with calLost := false }).fset (R.TILE_CAL_EPOCH_EPOCH t) (s.fget R.CAL_EPOCH_EPOCH)

/-- A tile applies the newest committed state (R234). -/
def State.calApply (s : State) (t : Nat) : State :=
  if !(s.tile t).calLost && s.fget (R.TILE_CAL_EPOCH_EPOCH t) == s.fget R.CAL_EPOCH_EPOCH then s else s.calLoad t

end Sys2Proof.Machine
end

