-- ==== Sys2Proof/Machine/Compress.lean ====
section
/-! DEFINITION. The fail compressor, its merge and its readout (08_acquisition.md R214 to R220), and the merge of site margins
(07_time_measurement.md R186). -/

namespace Sys2Proof.Machine

/-! ## Keys and tables (R214, R215) -/

/-- The masks and thresholds of a tile's compressor. -/
structure FcParm where
  rm : Nat
  cm : Nat
  rthr : Nat
  cthr : Nat

def FcBit.inRow (p : FcParm) (b : FcBit) (k : FcKey) : Bool := b.px == k.px && (b.py &&& p.rm) == k.py
def FcBit.inCol (p : FcParm) (b : FcBit) (k : FcKey) : Bool :=
  (b.px &&& p.cm) == k.px && b.py == k.py && b.dbit == k.dbit
def FcBit.row (p : FcParm) (b : FcBit) : FcKey := { px := b.px, py := b.py &&& p.rm, count := 1 }
def FcBit.col (p : FcParm) (b : FcBit) : FcKey := { px := b.px &&& p.cm, py := b.py, dbit := b.dbit, count := 1 }

/-- The same cell of the die: equal PX, PY and DBIT. -/
def FcBit.same (a b : FcBit) : Bool := a.px == b.px && a.py == b.py && a.dbit == b.dbit

/-- A key's count lowered by one, and the key freed at 0, unless it is must-repair. -/
def decKey (hit : FcKey → Bool) (l : List FcKey) : List FcKey :=
  (l.map fun k => if hit k && !k.mr then { k with count := k.count - 1 } else k).filter fun k => k.mr || k.count != 0

/-- make_mr of a row key (R215). -/
def FcSite.mrRow (p : FcParm) (s : FcSite) (hit : FcKey → Bool) : FcSite :=
  match s.rows.find? hit with
  | none => s
  | some k =>
    let gone := s.bits.filter fun b => b.inRow p k
    { s with bits := s.bits.filter fun b => !b.inRow p k
             rows := s.rows.map fun r => if hit r then { r with mr := true } else r
             cols := gone.foldl (fun l b => decKey (b.inCol p) l) s.cols }

/-- make_mr of a column key (R215). -/
def FcSite.mrCol (p : FcParm) (s : FcSite) (hit : FcKey → Bool) : FcSite :=
  match s.cols.find? hit with
  | none => s
  | some k =>
    let gone := s.bits.filter fun b => b.inCol p k
    { s with bits := s.bits.filter fun b => !b.inCol p k
             cols := s.cols.map fun r => if hit r then { r with mr := true } else r
             rows := gone.foldl (fun l b => decKey (b.inRow p) l) s.rows }

/-- A key's count raised, or the key entered while its table of 1,024 and the pool have room: the table, whether it was
counted, and whether the table was full. -/
def incKey (hit : FcKey → Bool) (new : FcKey) (room : Nat) (l : List FcKey) : List FcKey × Bool × Bool :=
  if l.any hit then (l.map fun k => if hit k then { k with count := k.count + 1 } else k, true, false)
  else if 1024 ≤ l.length then (l, false, true)
  else if room = 0 then (l, false, false)
  else (l ++ [new], true, false)

def FcSite.entries (s : FcSite) : Nat := s.bits.length + s.rows.length + s.cols.length

/-- A count above its threshold, which 0xFFFF disables (R215). -/
def overThr (thr : Nat) (hit : FcKey → Bool) (l : List FcKey) : Bool :=
  thr != 0xFFFF && l.any fun k => hit k && decide (thr < k.count)

/-- A fail bit is processed (R215); `free` is what the tile's pool has left. -/
def FcSite.fail (p : FcParm) (free : Nat) (s : FcSite) (b : FcBit) : FcSite :=
  if s.rows.any (fun k => k.mr && b.inRow p k) || s.cols.any (fun k => k.mr && b.inCol p k) then { s with absorb := s.absorb + 1 }
  else if s.bits.any b.same then s
  else
    let used := s.entries
    let room (x : FcSite) : Nat := free - (x.entries - used)
    let s :=
      if 4096 ≤ s.bits.length then { s with ovf := s.ovf + 1, ovfList := true }
      else if room s = 0 then { s with ovf := s.ovf + 1, ovfPool := true }
      else { s with bits := s.bits ++ [b] }
    let r := incKey (b.inRow p) (b.row p) (room s) s.rows
    let s := { s with rows := r.1, ovfRow := s.ovfRow || r.2.2, ovfPool := s.ovfPool || (!r.2.1 && !r.2.2) }
    let c := incKey (b.inCol p) (b.col p) (room s) s.cols
    let s := { s with cols := c.1, ovfCol := s.ovfCol || c.2.2, ovfPool := s.ovfPool || (!c.2.1 && !c.2.2) }
    let s := if overThr p.rthr (b.inRow p) s.rows then s.mrRow p (b.inRow p) else s
    if overThr p.cthr (b.inCol p) s.cols then s.mrCol p (b.inCol p) else s

/-! ## The compressor of a tile -/

def State.fcParm (s : State) (t : Nat) : FcParm :=
  { rm := s.fget (R.FC_RMASK_MASK t), cm := s.fget (R.FC_CMASK_MASK t)
    rthr := s.fget (R.FC_THR_ROW_THR t), cthr := s.fget (R.FC_THR_COL_THR t) }

def State.poolFree (s : State) (t : Nat) : Nat :=
  s.poolBytes t / 8 - (s.tile t).fc.foldl (fun n e => n + e.2.entries) 0

/-- FC_POOL shows the free entries (Table 8.9). -/
def State.syncPool (s : State) (t : Nat) : State := s.fset (R.FC_POOL_FREE t) (s.poolFree t)

/-- A failing compare enters the compressor of its site; one on a shared channel sets NOREPAIR, whatever EONLY lets become a fail bit (R214). -/
def State.fcFail (s : State) (ch : Nat) (b : FcBit) (ofE : Bool) : State :=
  let t := ch / 16
  if !s.flag (R.FC_CFG_EN t) || s.stepState t != stRunning then s
  else if s.flag (R.CH_SEQ_SHARED ch) then
    (sitesList (s.sitesOf ch)).foldl (fun s n => s.modTile t fun c =>
      { c with fc := Store.put (fun _ => {}) c.fc n { Store.get (fun _ => {}) c.fc n with noRepair := true } }) s
  else if s.flag (R.FC_CFG_EONLY t) && !ofE then s
  else
    let n := s.fget (R.CH_SEQ_SITE ch)
    let p := s.fcParm t
    let free := s.poolFree t
    (s.modTile t fun c => { c with fc := Store.put (fun _ => {}) c.fc n ((Store.get (fun _ => {}) c.fc n).fail p free b) }).syncPool t

/-! ## Merge (R216) -/

/-- Two lists united; a combined entry keeps the lowest tile and the earliest first cycle. -/
def uniteBits (a : List FcBit) (b : List FcBit) : List FcBit :=
  b.foldl (fun l x =>
    if l.any x.same then
      l.map fun y => if y.same x then { y with tile := min y.tile x.tile, lane := if x.tile < y.tile then x.lane else y.lane
                                               cyc := min y.cyc x.cyc } else y
    else l ++ [x]) a

/-- Counts of equal keys summed; a key MR in either is MR. -/
def uniteKeys (a b : List FcKey) : List FcKey :=
  b.foldl (fun l x =>
    let eq (y : FcKey) : Bool := y.px == x.px && y.py == x.py && y.dbit == x.dbit
    if l.any eq then l.map fun y => if eq y then { y with count := y.count + x.count, mr := y.mr || x.mr } else y
    else l ++ [x]) a

def FcSite.unite (a b : FcSite) : FcSite :=
  { bits := uniteBits a.bits b.bits, rows := uniteKeys a.rows b.rows, cols := uniteKeys a.cols b.cols
    ovf := a.ovf + b.ovf, absorb := a.absorb + b.absorb, ovfList := a.ovfList || b.ovfList, ovfRow := a.ovfRow || b.ovfRow
    ovfCol := a.ovfCol || b.ovfCol, ovfPool := a.ovfPool || b.ovfPool, noRepair := a.noRepair || b.noRepair
    corrupt := a.corrupt || b.corrupt }

/-- The keys that MR keys of some tile and the thresholds still ask make_mr for, applied until no key changes; `fuel` bounds
the number of keys. -/
def FcSite.settle (p : FcParm) (s : FcSite) : Nat → FcSite
  | 0 => s
  | fuel + 1 =>
    let row := s.rows.find? fun k => (k.mr && s.bits.any fun b => b.inRow p k) || (!k.mr && p.rthr != 0xFFFF && decide (p.rthr < k.count))
    match row with
    | some k => FcSite.settle p (s.mrRow p (· == k)) fuel
    | none =>
      let col := s.cols.find? fun k =>
        (k.mr && s.bits.any fun b => b.inCol p k) || (!k.mr && p.cthr != 0xFFFF && decide (p.cthr < k.count))
      match col with
      | some k => FcSite.settle p (s.mrCol p (· == k)) fuel
      | none => s

/-- The tiles of a list that hold non-shared channels of a site. -/
def State.ownTiles (s : State) (l : List Nat) (site : Nat) : List Nat :=
  l.filter fun t => (chansOf t).any fun ch => !s.flag (R.CH_SEQ_SHARED ch) && s.fget (R.CH_SEQ_SITE ch) == site

/-- The repair data of a site merged over the tiles of a step, and its summary registers (R216, Table 8.10). -/
def State.mergeRepair (s : State) (tiles : List Nat) (site : Nat) : State :=
  let own := s.ownTiles tiles site
  let of (t : Nat) : FcSite := Store.get (fun _ => {}) (s.tile t).fc site
  let all := own.foldl (fun (x : FcSite) t => x.unite (of t)) {}
  let shared := tiles.any fun t => (of t).noRepair
  let p := s.fcParm ((own.find? fun t => s.flag (R.FC_CFG_EN t)).getD (own.headD 0))
  let m := { all with noRepair := all.noRepair || shared }
  let m := { FcSite.settle p m (m.rows.length + m.cols.length + 1) with epoch := tiles.head?.map fun t => s.rget (R.TILE_CAL_EPOCH t) }
  let s := { s with rep := Store.put (fun _ => {}) s.rep site m, armedSites := s.armedSites.filter (· != site) }
  let s := (((s.fset (R.REP_LIST_COUNT site) m.bits.length).fset (R.REP_ROWS_COUNT site) m.rows.length).fset
    (R.REP_MROWS_COUNT site) (m.rows.filter (·.mr)).length)
  let s := (s.fset (R.REP_COLS_COUNT site) m.cols.length).fset (R.REP_MCOLS_COUNT site) (m.cols.filter (·.mr)).length
  let s := (s.fset (R.REP_OVF_COUNT site) (min m.ovf (2 ^ 32 - 1))).fset (R.REP_ABSORB_COUNT site) (min m.absorb (2 ^ 32 - 1))
  let acc := own.any fun t => s.flag (R.FC_CFG_EN t) && s.flag (R.FC_CFG_ACC t)
  s.rset (R.REP_FLAGS site) (BitVec.ofNat 32 (m.ovfList.toNat + 2 * m.ovfRow.toNat + 4 * m.ovfCol.toNat + 8 * m.ovfPool.toNat +
    16 * m.noRepair.toNat + 32 * m.corrupt.toNat + 64 * acc.toNat + 128))

/-! ## FAIL_READ (R218, R220) -/

/-- Three numbers as one, for ordering. -/
def rank (a b c : Nat) : Nat := (a * 2 ^ 24 + b) * 2 ^ 24 + c

/-- The entries of a kind in the order and layout of Table 8.7, as words. -/
def FcSite.entriesOf (m : FcSite) (kind : Nat) : List (List Word) :=
  match kind with
  | 1 => (sortBy (fun a b => decide (rank a.px a.py a.dbit < rank b.px b.py b.dbit)) m.bits).map fun b =>
      [BitVec.ofNat 32 b.px, BitVec.ofNat 32 b.py, BitVec.ofNat 32 (b.dbit + 256 * b.tile + 65536 * b.lane), BitVec.ofNat 32 b.cyc]
  | 2 => (sortBy (fun a b => decide (rank a.px a.py 0 < rank b.px b.py 0)) m.rows).map fun k =>
      [BitVec.ofNat 32 k.px, BitVec.ofNat 32 k.py, BitVec.ofNat 32 (min k.count 65535 + 2 ^ 31 * k.mr.toNat), 0]
  | 3 => (sortBy (fun a b => decide (rank a.py a.dbit a.px < rank b.py b.dbit b.px)) m.cols).map fun k =>
      [BitVec.ofNat 32 k.px, BitVec.ofNat 32 k.py, BitVec.ofNat 32 (min k.count 65535 + 65536 * k.dbit + 2 ^ 31 * k.mr.toNat), 0]
  | _ => []

/-- The eight site registers of Table 8.10. -/
def State.repWords (s : State) (site : Nat) : List Word := (List.range 8).map fun k => s.rget (R.REP_LIST site + 4 * k)

/-- The canonical repair image of a site (R218). -/
def State.repairImage (s : State) (site : Nat) : List Byte :=
  let m := Store.get (fun _ => {}) s.rep site
  ((s.repWords site) ++ [1, 2, 3].flatMap fun k => (m.entriesOf k).flatten).flatMap wordBytes

/-! ## Site margins (07_time_measurement.md R186) -/

/-- The least, or the greatest, of signed words. -/
def minWord (l : List Word) (d : Word) : Word := l.foldl (fun m w => if w.toInt < m.toInt then w else m) d
def maxWord (l : List Word) (d : Word) : Word := l.foldl (fun m w => if m.toInt < w.toInt then w else m) d

/-- The derived values of a site merged over the tiles of a step. -/
def State.mergeMargins (s : State) (tiles : List Nat) (site : Nat) : State :=
  let chs := (tiles.flatMap chansOf).filter fun ch =>
    s.flag (R.TDC_CFG_EN ch) && s.fget (R.TDC_CFG_START ch) == 1 && (s.sitesOf ch).getLsbD site
  let any := chs.any fun ch => s.rget (R.EARLY_R ch) != 0x7FFFFFFF || s.rget (R.LATE_R ch) != 0x80000000 ||
    s.rget (R.EARLY_F ch) != 0x7FFFFFFF || s.rget (R.LATE_F ch) != 0x80000000
  let early := minWord (chs.flatMap fun ch => [s.rget (R.EARLY_R ch), s.rget (R.EARLY_F ch)]) 0x7FFFFFFF
  let late := maxWord (chs.flatMap fun ch => [s.rget (R.LATE_R ch), s.rget (R.LATE_F ch)]) 0x80000000
  let setup := minWord (chs.map fun ch => s.rget (R.SETUP ch)) 0x7FFFFFFF
  let hold := minWord (chs.map fun ch => s.rget (R.HOLD ch)) 0x7FFFFFFF
  let inwin := chs.foldl (fun n ch => n + (s.rget (R.INWIN ch)).toNat) 0
  let f (fld : Nat → Fld) : Bool := chs.any fun ch => s.flag (fld ch)
  let s := ((s.rset (R.SITE_EARLY site) early).rset (R.SITE_LATE site) late).rset (R.SITE_SETUP site) setup
  let s := (s.rset (R.SITE_HOLD site) hold).fset (R.SITE_INWIN_COUNT site) (min inwin (2 ^ 32 - 1))
  s.rset (R.SITE_MFLAGS site) (BitVec.ofNat 32 ((f R.TDC_STAT_DERSAT).toNat + 2 * (f R.TDC_STAT_SUSPECT).toNat +
    4 * (f R.TDC_STAT_WARMUP).toNat + 8 * (!any).toNat))

end Sys2Proof.Machine
end

