-- ==== Sys2Proof/Machine/Segs.lean ====
section
/-! DEFINITION. Segments, the stream ring and readiness (04_pattern_store.md R92 to R113). -/

namespace Sys2Proof.Machine

/-! ## Segment states (R94, Table 4.1) -/

abbrev sgEmpty : Nat := 0
abbrev sgFilling : Nat := 1
abbrev sgValid : Nat := 2
abbrev sgQueued : Nat := 3
abbrev sgPlaying : Nat := 4

def segFld (t i : Nat) : Fld := ⟨R.SEG_STATE t (i / 8), 4 * (i % 8) + 2, 4 * (i % 8)⟩
def sealFld (t i : Nat) : Fld := ⟨R.SEG_STATE t (i / 8), 4 * (i % 8) + 3, 4 * (i % 8) + 3⟩

def State.segSt (s : State) (t i : Nat) : Nat := s.fget (segFld t i)
def State.segSealed (s : State) (t i : Nat) : Bool := s.flag (sealFld t i)
/-- QUEUED or PLAYING (R95). -/
def State.segLocked (s : State) (t i : Nat) : Bool := decide (sgQueued ≤ s.segSt t i)

/-- The bytes of a segment erased (R93: an EMPTY segment reads zeros). -/
def State.segErase (s : State) (t i : Nat) : State :=
  s.merase fun k => decide (memKey 1 t (i * 0x20000) ≤ k ∧ k < memKey 1 t (i * 0x20000) + 0x20000)

def State.segSealOf (s : State) (t i : Nat) : SegSeal := Store.get (fun _ => {}) s.segSeal (t * 16 + i)
def State.setSegSeal (s : State) (t i : Nat) (x : SegSeal) : State :=
  { s with segSeal := Store.put (fun _ => {}) s.segSeal (t * 16 + i) x }

def State.segEmpty (s : State) (t i : Nat) : State :=
  ((s.fset (segFld t i) sgEmpty).segErase t i).setSegSeal t i { s.segSealOf t i with bad := [] }

/-- Intervals (offset, length) without the bytes `a` to `b - 1`. -/
def carve (l : List (Nat × Nat)) (a b : Nat) : List (Nat × Nat) :=
  l.flatMap fun e => [(e.1, min (e.1 + e.2) a - e.1), (max e.1 b, e.1 + e.2 - max e.1 b)].filter (·.2 != 0)

/-- Bytes of a segment stand as a write with a bad trailer has left them, until a good write replaces them (10_uhleus_protocol.md R254; log
entry 58). -/
def State.segBad (s : State) (t i off n : Nat) : State :=
  let x := s.segSealOf t i
  s.setSegSeal t i { x with bad := if n = 0 then x.bad else (off, n) :: x.bad }

/-! ## The stream ring (R98) -/

def State.ringLen (s : State) (t : Nat) : Nat := s.fget (R.STRM_CFG_RING_LEN t)
def State.ringFirst (s : State) (t : Nat) : Nat := s.fget (R.STRM_CFG_RING_FIRST t)
def State.ringCur (s : State) (t : Nat) : Nat := s.fget (R.STRM_STATUS_CUR t)
def State.ringFill (s : State) (t : Nat) : Nat := s.fget (R.STRM_STATUS_FILL t)

def State.inRing (s : State) (t i : Nat) : Bool := decide ((i + 16 - s.ringFirst t) % 16 < s.ringLen t)

/-- The next ring segment after `i`. -/
def State.ringNext (s : State) (t i : Nat) : Nat :=
  (s.ringFirst t + ((i + 16 - s.ringFirst t) % 16 + 1) % max 1 (s.ringLen t)) % 16

/-- The slots of a segment in a format (R74, R75). -/
def slots (cfmt : Bool) : Nat := if cfmt then 32768 else 16384

/-- The segment a run enters behind its present one. -/
def State.segAfter (s : State) (t : Nat) (strm : Bool) (i : Nat) : Nat := if strm then s.ringNext t i else (i + 1) % 16

/-! ## Queuing (R96) and low water (R109) -/

/-- Whether a case of R96 applies to a segment: current stream segment, fall-through of a run that reaches its segment's last
slot, or first slot of an executed instruction in another segment than the last issued slot's. -/
def State.wanted (s : State) (t i : Nat) : Bool :=
  let c := s.tile t
  let st := s.stepState t
  (st == stPending || st == stRunning) &&
    ((s.ringLen t != 0 && s.ringCur t == i) || c.fall == some i ||
      c.queue.any fun r =>
        r.kind != .hold && ((r.seg == i && c.lastSeg != some i) ||
          (r.kind == .vec && decide (slots r.cfmt ≤ r.slot + r.left) && s.segAfter t r.strm r.seg == i)))

/-- AHEAD: the ring segments in VALID or QUEUED other than CUR (R109). -/
def State.ahead (s : State) (t : Nat) : Nat :=
  ((List.range 16).filter fun i => s.inRing t i && i != s.ringCur t &&
    (s.segSt t i == sgValid || s.segSt t i == sgQueued)).length

/-- VALID and QUEUED follow R96; AHEAD follows R109 and raises the low-water event when it falls below LOW_WATER while the tile
is RUNNING. -/
def State.segSync (s : State) (t : Nat) : State :=
  let s := (List.range 16).foldl (fun s i =>
    if s.segSt t i == sgValid && s.wanted t i then s.fset (segFld t i) sgQueued
    else if s.segSt t i == sgQueued && !s.wanted t i then s.fset (segFld t i) sgValid
    else s) s
  let old := s.fget (R.STRM_STATUS_AHEAD t)
  let new := s.ahead t
  let low := s.fget (R.STRM_CFG_LOW_WATER t)
  let s := s.fset (R.STRM_STATUS_AHEAD t) new
  if s.stepState t == stRunning && decide (new < low ∧ low ≤ old) then
    (s.setFlag (R.STRM_STATUS_LOW t) true).eventFor (s.tile t).armedBy 0x10 [BitVec.ofNat 32 t, BitVec.ofNat 32 new]
  else s

/-- The ring advances (R99): CUR moves on and the old CUR is consumed. -/
def State.ringAdvance (s : State) (t : Nat) : State :=
  let old := s.ringCur t
  let s := s.fset (R.STRM_STATUS_CUR t) (s.ringNext t old)
  if s.segSt t old == sgPlaying then s.modTile t fun c => { c with consumed := old :: c.consumed.filter (· != old) }
  else s.segEmpty t old

/-- A slot of a segment issues: the segment plays, and the one left is released (R97). -/
def State.segPlay (s : State) (t i : Nat) : State :=
  let c := s.tile t
  if c.lastSeg = some i then s
  else
    let s := match c.lastSeg with
      | some o =>
        if s.segSt t o == sgPlaying then
          if c.consumed.contains o then
            (s.segEmpty t o).modTile t fun c => { c with consumed := c.consumed.filter (· != o) }
          else s.fset (segFld t o) sgValid
        else s
      | none => s
    (s.fset (segFld t i) sgPlaying).modTile t fun c => { c with lastSeg := some i, fall := none }

/-- Whether a segment is ready at E (R110): committed, and 50 ns past its commit; in a sealed step it also carries the sealed mark
(13_security.md R329). -/
def State.segReady (s : State) (t i : Nat) (e : Int) : Bool :=
  (s.segSt t i == sgValid || s.segSt t i == sgQueued) &&
    decide (Store.get (fun _ => 0) (s.tile t).tc i + readyDelay ≤ e) &&
    ((s.bundleOf t).isNone || s.segSealed t i)

/-- Segments when the step ends (Table 4.2): QUEUED and PLAYING become VALID, a consumed ring segment EMPTY. -/
def State.segEnd (s : State) (t : Nat) : State :=
  let c := s.tile t
  let s := (List.range 16).foldl (fun s i =>
    if s.segLocked t i then if c.consumed.contains i then s.segEmpty t i else s.fset (segFld t i) sgValid else s) s
  s.modTile t fun c => { c with consumed := [], lastSeg := none, fall := none, turn := false, boundary := none }

/-! ## CRC-32C (10_uhleus_protocol.md R242) -/

/-- Eight steps of the reflected CRC-32C. -/
def crcByte (c : Word) (b : Byte) : Word :=
  (List.range 8).foldl (fun (x : Word) _ => if x.getLsbD 0 then (x >>> 1) ^^^ 0x82F63B78 else x >>> 1) (c ^^^ b.setWidth 32)

def crc32c (l : List Byte) : Word := l.foldl crcByte 0xFFFFFFFF ^^^ 0xFFFFFFFF

/-- The CRC register after `n` bytes of `f` from index `i`. -/
def crcFold (f : Nat → Byte) : Nat → Nat → Word → Word
  | 0, _, c => c
  | n + 1, i, c => crcFold f n (i + 1) (crcByte c (f i))

end Sys2Proof.Machine
end

