-- ==== Sys2Proof/Machine/Vector.lean ====
section
/-! DEFINITION. What a cycle does on a channel: vector slots and state codes (03_sequencer.md R74 to R79), the algorithmic
pattern generator (R80 to R84), drive edges and strobes (05_timing.md R119 to R131), stop windows (07_time_measurement.md
R173 to R175). -/

namespace Sys2Proof.Machine

/-! ## The algorithmic pattern generator (R80 to R84) -/

def State.xbits (s : State) (t : Nat) : Nat := s.fget (R.APG_CFG_XBITS t)
def State.ybits (s : State) (t : Nat) : Nat := s.fget (R.APG_CFG_YBITS t)

/-- One address operation of Table 3.6 on a generator of width `w`. -/
def addrOp (w op v base0 base1 : Nat) : Nat :=
  let m := 2 ^ w
  (match op with
    | 1 => v + 1
    | 2 => v + m - 1
    | 3 => base0
    | 4 => base1
    | 5 => m - 1 - v % m
    | _ => v) % m

/-- Whether an increment or decrement wraps (R81): +1, −1 or 0 to carry. -/
def carryOp (w op v : Nat) : Nat := if op = 1 ∧ v + 1 = 2 ^ w then 1 else if op = 2 ∧ v = 0 then 2 else 0

/-- The APG operation of an instruction (R80 to R82). -/
def State.apgOp (s : State) (t : Nat) (a : Apg) (op : BitVec 16) : Apg :=
  let o := op.toNat
  let xw := s.xbits t
  let yw := s.ybits t
  let xop := o % 8
  let yop := o / 8 % 8
  let chain := o / 64 % 4
  let yop := if chain = 1 then carryOp xw xop a.x.toNat else yop
  let xop := if chain = 2 then carryOp yw yop a.y.toNat else xop
  { x := BitVec.ofNat 24 (addrOp xw xop a.x.toNat (s.fget (R.XBASE0_VALUE t)) (s.fget (R.XBASE1_VALUE t)))
    y := BitVec.ofNat 24 (addrOp yw yop a.y.toNat (s.fget (R.YBASE0_VALUE t)) (s.fget (R.YBASE1_VALUE t)))
    dinv := match o / 256 % 8 with | 1 => false | 2 => true | 3 => !a.dinv | _ => a.dinv
    lfsr := if o / 256 % 8 = 4 then (a.lfsr >>> 1) ^^^ (if a.lfsr.getLsbD 0 then s.rget (R.DPOLY t) else 0) else a.lfsr }

/-- The generator's registers show its present state (Table 3.13). -/
def State.showApg (s : State) (t : Nat) (a : Apg) : State :=
  (((s.fset (R.APG_X_VALUE t) a.x.toNat).fset (R.APG_Y_VALUE t) a.y.toNat).rset (R.LFSR t) a.lfsr).setFlag (R.DCTL_DINV t) a.dinv

/-- A physical address (R83): `half` is the byte offset of the address scramble table's half. -/
def State.physical (s : State) (t half w : Nat) (on : Bool) (v : Nat) : Nat :=
  if on then
    let e := leNat (s.mread 4 t (half + 2 * (v % 2048)) 2)
    (v / 2048 * 2048 ||| e) % 2 ^ w
  else v % 2 ^ w

def State.physX (s : State) (t : Nat) (a : Apg) : Nat := s.physical t 0 (s.xbits t) (s.flag (R.APG_CFG_ASCR_X t)) a.x.toNat
def State.physY (s : State) (t : Nat) (a : Apg) : Nat := s.physical t 0x1000 (s.ybits t) (s.flag (R.APG_CFG_ASCR_Y t)) a.y.toNat

/-- The physical data word W (R82). -/
def State.dataWord (s : State) (t : Nat) (a : Apg) : Word :=
  let px := s.physX t a
  let py := s.physY t a
  let d := s.rget (R.DBASE t)
  let ones (b : Bool) : Word := if b then 0xFFFFFFFF else 0
  let l : Word := match s.fget (R.APG_CFG_DFUNC t) with
    | 0 => d
    | 1 => d ^^^ ones (px % 2 != py % 2)
    | 2 => d ^^^ ones (px % 2 == 1)
    | 3 => d ^^^ ones (py % 2 == 1)
    | 4 => d ^^^ BitVec.ofNat 32 (py % 256 * 2 ^ 24 + px % 2 ^ 24)
    | _ => a.lfsr
  let scr : Word := if s.flag (R.APG_CFG_DSCR t) then s.mword 4 t (0x2000 + 4 * (px % 2048)) else 0
  l ^^^ ones a.dinv ^^^ scr

/-- The assignment entry of a lane for a cycle position (R84). -/
def State.assign (s : State) (t lane c : Nat) : Nat :=
  let w := s.rget (R.ASSIGN t (lane * 2 + c / 2))
  if c % 2 = 0 then field w 15 0 else field w 31 16

/-- The data bit and the address bit of a lane in a cycle, and DBIT (R76, R84). -/
def State.apgBits (s : State) (t lane c : Nat) (a : Apg) : Bool × Bool × Nat :=
  let e := s.assign t lane c
  let dbit := e % 32
  let abit := e / 256 % 32
  let addr := if e / 8192 % 2 = 1 then s.physY t a else s.physX t a
  ((s.dataWord t a).getLsbD dbit, addr.testBit abit, dbit)

/-! ## State codes (R74 to R78) -/

/-- Expansion of a compact code (Table 3.5). -/
def expand (cmode code : Nat) : Nat :=
  match code with
  | 2 => 5
  | 3 => 0xD
  | 0 => (match cmode with | 0 => 0 | 1 => 2 | 2 => 8 | 3 => 0xA | 4 => 0xC | 5 => 4 | 6 => 7 | _ => 0xE)
  | _ => (match cmode with | 0 => 1 | 1 => 3 | 2 => 9 | 3 => 0xB | 4 => 0 | 5 => 6 | 6 => 6 | _ => 0xA)

/-- The state code of a lane in a slot of a segment. -/
def State.slotCode (s : State) (t seg slot lane : Nat) (cfmt : Bool) : Nat :=
  if cfmt then
    let b := s.mget 1 t (seg * 0x20000 + slot / 4 * 16 + slot % 4 * 4 + lane / 4)
    expand (s.fget (R.CH_SEQ_CMODE (t * 16 + lane))) (b.toNat / 4 ^ (lane % 4) % 4)
  else
    let b := s.mget 1 t (seg * 0x20000 + slot / 4 * 32 + slot % 4 * 8 + lane / 2)
    b.toNat / 16 ^ (lane % 2) % 16

/-- The state code of a lane in the hold vector (R79). -/
def State.holdCode (s : State) (t lane : Nat) : Nat :=
  let w := s.rget (if lane < 8 then R.HOLD_VEC_LO t else R.HOLD_VEC_HI t)
  w.toNat / 16 ^ (lane % 8) % 16

/-! ## Timing sets (R119 to R121) -/

/-- Word `k` of the entry of a lane in a timing set. -/
def State.tset (s : State) (t set lane k : Nat) : Nat := (s.mword 3 t (set * 0x200 + lane * 0x20 + 4 * k)).toNat

/-- An instant at the nearest edge code, rounded half up (R50). -/
def place (i : Int) : Int := (i + edgeUnit / 2) / edgeUnit * edgeUnit

/-- The drive and the compare deskew of a channel (R122). -/
def State.dskDrv (s : State) (ch : Nat) : Int :=
  (signed 16 (s.fget (R.CH_DSK_CAL_DRV ch)) + signed 16 (s.fget (R.CH_DSK_USER_DRV ch))) * edgeUnit
def State.dskCmp (s : State) (ch : Nat) : Int :=
  (signed 16 (s.fget (R.CH_DSK_CAL_CMP ch)) + signed 16 (s.fget (R.CH_DSK_USER_CMP ch))) * edgeUnit

/-! ## Drops (R128 to R131) -/

inductive DropCause where
  | conflict | hold | range
  deriving DecidableEq

/-- A dropped edge or compare is counted; the first is recorded, of several at one moment in the order of lanes, drive edges and strobes of
a lane (log entry 59); sites become INDETERMINATE unless only a stop window or a capture
was lost (R131, R174). -/
def State.drop (s : State) (ch edge cyc : Nat) (cause : DropCause) (window : Bool := false) : State :=
  let t := ch / 16
  let c := match cause with | .conflict => 1 | .hold => 2 | .range => 3
  let s :=
    if s.fget (R.TIM_DROP_INFO_CAUSE t) = 0 then
      (s.rset (R.TIM_DROP_INFO t) (BitVec.ofNat 32 (65536 * edge + 256 * c + ch % 16))).setPair (R.TIM_DROP_CYC_LO t)
        (R.TIM_DROP_CYC_HI t) cyc
    else s
  let s := (s.count (R.TIM_DROP_COUNT_COUNT t)).rset (R.TIM_DROP_MASK t)
    (s.rget (R.TIM_DROP_MASK t) ||| BitVec.ofNat 32 (2 ^ (ch % 16)))
  let s := s.suspectFlag t Sf.drop
  if window then s else s.indChan ch

/-! ## Drive edges (R123, R124, R129) -/

/-- The classes of Table 5.3: what a state code does with the driver. -/
inductive Drive where
  | bit (b : Bool) | term | off | load | keep
  deriving DecidableEq

def driveOf (code : Nat) (dbit abit : Bool) : Drive :=
  match code with
  | 0 => .bit false
  | 1 => .bit true
  | 6 => .load
  | 8 => .bit dbit
  | 9 => .bit !dbit
  | 0xC => .bit abit
  | 0xD => .keep
  | 0xF => .term
  | _ => .off

/-- The level edges of a cycle in order (Table 5.4). -/
def levelEdges (d : Drive) (fmt : Nat) : List (Nat × Level) :=
  let v (b : Bool) : Level := if b then .vih else .vil
  match d with
  | .term => [(0, .vtt)]
  | .bit b =>
    match fmt with
    | 0 => [(0, v b)]
    | 1 => [(0, v b), (1, .vil)]
    | 2 => [(0, v b), (1, .vih)]
    | _ => [(0, v (!b)), (1, v b), (2, v (!b))]
  | _ => []

/-- The ENABLE that a cycle asks for. -/
def enableOf : Drive → Option Enable
  | .bit _ => some .on
  | .term => some .on
  | .off => some .offLoadOff
  | .load => some .offLoadOn
  | .keep => none

/-- Whether an edge acts: a level edge does, and the enable edge where it changes ENABLE (R123). -/
def Edge.acts (x : Edge) : Bool := x.level.isSome || x.enable.isSome

/-- An edge is judged: the ENABLE in force at it is the one set by the latest enable edge before it that acts, of those that lie behind the one
it was judged by so far (R123). -/
def Edge.judge (l : List Edge) (y : Edge) : Edge :=
  let m := l.foldl (fun (m : Int × Enable) x => match x.enable with
    | some v => if x.at_ < y.at_ ∧ m.1 < x.at_ then (x.at_, v) else m
    | none => m) (y.since, y.inForce)
  { y with since := m.1, inForce := m.2, enable := y.want.filter (· != m.2) }

/-- Edges in the order of their instants are judged, each by those before it. -/
def judgeEdges (l : List Edge) : List Edge := l.foldl (fun acc y => acc ++ [y.judge acc]) []

/-- The drive edges of a cycle on a channel, not judged yet (R122 to R124). -/
def State.driveEdges (s : State) (ch cyc set : Nat) (c e : Int) (d : Drive) : List Edge :=
  let t := ch / 16
  let lane := ch % 16
  let ctrl := s.tset t set lane 6
  let edge (k : Nat) : Edge :=
    { at_ := c + s.tset t set lane k * edgeUnit + s.dskDrv ch, idx := k, cyc := cyc, stop := e
      inForce := (s.chan ch).enable, since := -(2 ^ 80) }
  let levels := (levelEdges d (ctrl % 4)).map fun x => { edge x.1 with level := some x.2 }
  match enableOf d with
  | none => []
  | some want =>
    let k := if ctrl / 4 % 2 = 1 then 3 else 0
    if levels.any fun x => x.idx == k then levels.map fun x => if x.idx = k then { x with want := some want } else x
    else { edge k with want := some want } :: levels

/-- A drive edge acts. -/
def ChanCtx.act (c : ChanCtx) (e : Edge) : ChanCtx :=
  { c with level := e.level.getD c.level, enable := e.enable.getD c.enable }

/-- The first cycle behind a stall: state = takes the drive condition of the last issued cycle again, any other state leaves that of the
hold vector to its own edges (R77). -/
def ChanCtx.unhold (c : ChanCtx) (d : Drive) : ChanCtx :=
  match c.prior with
  | none => c
  | some p => if d = .keep then { c with enable := p.1, level := p.2, prior := none } else { c with prior := none }

/-- 250 ps. -/
def sep : Int := 16384000

/-- Whether an instant of a later cycle lies too near a carried instant `x` (R129): cycle `own + 1` must lie 250 ps behind it, any other
later cycle 250 ps away. -/
def tooNear (own cyc : Nat) (x n : Int) : Bool :=
  if cyc = own + 1 then decide (n < x + sep) else decide (n < x + sep ∧ x < n + sep)

/-- Whether an edge of an earlier cycle is carried into conflict with the acting edges of a cycle. -/
def Edge.conflicts (x : Edge) (cyc : Nat) (new : List Edge) : Bool :=
  x.acts && x.cyc != cyc && decide (x.stop ≤ x.at_) && new.any fun n => tooNear x.cyc cyc x.at_ n.at_

/-- Edges in the order of their instants. -/
def inOrder (l : List Edge) : List Edge := sortBy (fun (a b : Edge) => decide (a.at_ ≤ b.at_)) l

/-- A FUNC channel takes a cycle from C to E: edges of earlier cycles are dropped for RANGE and CONFLICT, and those that no later cycle can
stand before or conflict with act in order (R123, R128, R129). An edge of an earlier cycle is judged again by the edges of this one that lie
before it; an edge that does not act drops out uncounted. -/
def State.driveCycle (s : State) (ch cyc set : Nat) (c e : Int) (d : Drive) : State :=
  let s := s.modChan ch fun (k : ChanCtx) => k.unhold d
  let old := (s.chan ch).carried
  let range (x : Edge) : Bool := x.cyc + 1 == cyc && decide (e ≤ x.at_)
  let all := judgeEdges (inOrder ((old.filter fun x => !range x) ++ s.driveEdges ch cyc set c e d))
  let lost := ((old.filter range).map (Edge.judge all)).filter Edge.acts
  let s := lost.foldl (fun s x => s.drop ch x.idx x.cyc .range) s
  let new := all.filter fun x => x.cyc == cyc && x.acts
  let s := (all.filter fun x => x.conflicts cyc new).foldl (fun s x => s.drop ch x.idx x.cyc .conflict) s
  let all := all.filter fun x => !x.conflicts cyc new
  let last := e + min 0 (s.dskDrv ch) - sep
  s.modChan ch fun k =>
    { (all.filter fun x => decide (x.at_ < last)).foldl ChanCtx.act k with carried := all.filter fun x => decide (last ≤ x.at_) }

/-! ## Strobes (R125, R128, R129) -/

/-- The expectation of a state code; state P strobes only where stop windows are enabled (R173). -/
def expectOf (code : Nat) (dbit pEn : Bool) : Option Expect :=
  match code with
  | 2 => some .low
  | 3 => some .high
  | 4 => some .mid
  | 7 => some .capture
  | 0xA => some (if dbit then .high else .low)
  | 0xB => some (if dbit then .low else .high)
  | 0xE => if pEn then some .profile else none
  | _ => none

/-- The last strobe instant. -/
def Strobe.last (x : Strobe) : Int := if x.mode = 0 then x.s0 else max x.s0 x.s1

/-- The strobe instants of a compare. -/
def Strobe.instants (x : Strobe) : List (Nat × Int) := if x.mode = 0 then [(4, x.s0)] else [(4, x.s0), (5, x.s1)]

/-- A cycle's compare or capture leaves the count of those that have not resolved (R201). -/
def TileCtx.cycLess (c : TileCtx) (cyc : Nat) : TileCtx :=
  { c with cycs := c.cycs.map fun (r : CycRec) => if r.cyc = cyc then { r with waiting := r.waiting - 1 } else r }

/-- The records of the cycles whose compares and captures have all resolved are written, in cycle order: one waits for the cycles before it
(R197 to R199, R201). -/
def State.cycRecords (s : State) (t : Nat) (i : Int) : State :=
  let done := (s.tile t).cycs.takeWhile fun r => r.waiting == 0
  let s := s.modTile t fun c => { c with cycs := c.cycs.dropWhile fun r => r.waiting == 0 }
  done.foldl (fun s (r : CycRec) =>
    let mk (typ : Nat) (v : BitVec 64) : CapRec :=
      { typ := typ, time := sysOf r.start, cyc := some r.cyc, w2 := v.setWidth 32, w3 := (v >>> 32).setWidth 32 }
    let s :=
      if (r.anyFail && s.flag (R.CAP_CFG_FAIL t)) || (r.anyUnknown && s.flag (R.CAP_CFG_UNK t)) then s.record t (mk 2 r.codes) i
      else s
    if r.anyCapt && s.flag (R.CAP_CFG_CAPT t) then s.record t (mk 3 r.caps) i else s) s

/-- A compare or capture is dropped whole (R128 to R131); its stop window, if any, with it (R174). -/
def State.dropStrobe (s : State) (ch : Nat) (x : Strobe) (edge : Nat) (cause : DropCause) : State :=
  let s := s.drop ch edge x.cyc cause (x.expect == .profile || x.expect == .capture)
  let s := s.modChan ch fun c => { c with wins := c.wins.filter fun w => !(w.ofStrobe && w.cyc == x.cyc) }
  if x.expect = .profile then s
  else (s.modTile (ch / 16) fun c => c.cycLess x.cyc).cycRecords (ch / 16) x.s0

/-- The strobes of earlier cycles of a channel meet a cycle that ends at E and strobes at `new` (R128, R129). DESIGN CHOICE: TIM_DROP_INFO.EDGE of
a compare that is dropped whole names its first strobe that breaks the rule, S0 before S1 (log entry 59). -/
def State.judgeStrobes (s : State) (ch cyc : Nat) (e : Int) (new : List Int) : State :=
  let l := (s.chan ch).strobes
  let range (x : Strobe) : Option Nat :=
    if x.cyc + 1 = cyc then (x.instants.find? fun k => decide (e ≤ k.2)).map (·.1) else none
  let conf (x : Strobe) : Option Nat :=
    (x.instants.find? fun k => decide (x.stop ≤ k.2) && new.any fun n => tooNear x.cyc cyc k.2 n).map (·.1)
  l.foldl (fun s x =>
    if x.cyc = cyc then s
    else match range x with
      | some k => (s.modChan ch fun c => { c with strobes := c.strobes.filter (· != x) }).dropStrobe ch x k .range
      | none => match conf x with
        | some k => (s.modChan ch fun c => { c with strobes := c.strobes.filter (· != x) }).dropStrobe ch x k .conflict
        | none => s) s

/-- Whether no later cycle can still drop a strobe for CONFLICT: it has not been carried, or lies 250 ps before every strobe that the next
cycle can have, or the tile does not issue cycles (R129). -/
def State.strobeFirm (s : State) (ch : Nat) (x : Strobe) : Bool :=
  let t := ch / 16
  let c := s.tile t
  decide (x.last < x.stop) || s.stepState t != stRunning || c.stall.isSome || c.closing || s.flag (R.SEQ_STATUS_WAITING t) ||
    decide (x.last + sep ≤ c.endE + min 0 (s.dskCmp ch))

end Sys2Proof.Machine
end

