-- ==== Sys2Proof/Machine/Stops.lean ====
section
/-! DEFINITION. Time measurement (07_time_measurement.md R169 to R187): stop instants, stop windows, stops and what they are attributed to;
and the stop of issue, at which windows close (05_timing.md R130). -/

namespace Sys2Proof.Machine

def State.pc (s : State) (t : Nat) : Nat := s.fget (R.SEQ_STATUS_PC t)

/-- The snapshot of programmable counter `m` raised by `k`, with the carries that chain from it. -/
def State.bumpSnap (s : State) (m k : Nat) : Nat → State
  | 0 => s
  | fuel + 1 =>
    let v := (s.rget (R.PCNT_SNAP m)).toNat + k
    let s := s.rset (R.PCNT_SNAP m) (BitVec.ofNat 32 v)
    if v / 2 ^ 32 ≠ 0 ∧ m + 1 < 64 ∧ s.flag (R.PCNT_CFG_EN (m + 1)) ∧ s.flag (R.PCNT_CFG_CHAIN (m + 1)) then
      s.bumpSnap (m + 1) (v / 2 ^ 32) fuel
    else s

/-- Of `n` occurrences of an event, one a tile clock from the instant `i` on, those before the instant S of the snapshot held. -/
def State.beforeFrost (s : State) (i : Int) (n : Nat) : Nat :=
  if s.flag R.FROST_STATUS_VALID then
    min n (ceilDiv ((s.pair R.FROST_TIME_LO R.FROST_TIME_HI : Int) * unitFs - i) tileClock).toNat
  else 0

/-- An event that lies before S and is registered after it enters the snapshot (18_moraine_counters.md R428). -/
def State.lateEv (s : State) (n k : Nat) : State :=
  if k = 0 then s
  else
    let s := { s with evs := Store.put (fun _ => 0) s.evs n ((Store.get (fun _ => 0) s.evs n + k) % 2 ^ 48) }
    s.pcntConfigured.foldl (fun s c =>
      if field c.2 14 14 = 1 ∧ field c.2 12 12 = 0 ∧ field c.2 8 0 = n then s.bumpSnap c.1 k 64 else s) s

/-- An event of a tile at the instant `i`, or `n` of them at the tile clocks from it on, with the sample that an overflow captures
(18_moraine_counters.md R425, R428, Table 18.3). -/
def State.tileEv (s : State) (t k : Nat) (i : Int) (n : Nat := 1) : State :=
  let pc := if (s.bundleOf t).isSome then 0 else s.pc t
  if n = 0 then s
  else (s.evCount (128 + 4 * t + k) n (some (BitVec.ofNat 32 (2 ^ 31 + pc)))).lateEv (128 + 4 * t + k) (s.beforeFrost (s.chipTime t i) n)

/-! ## The converter (R169, R170) -/

/-- 625 ps. -/
def deadTime : Int := 40960000
/-- 1/64 ps. -/
def stopUnit : Int := 1024
/-- The coarse period, 312.5 ps, in units of 1/64 ps. -/
def coarse : Nat := 20000

/-- The fine position of a code in units of 1/64 ps, rounded half up, by the bin-width table in force for the channel (R170). -/
def State.fine (s : State) (ch code : Nat) : Int :=
  let w (k : Nat) : Int := (s.calOf (calKey ch 4)).value (calKey ch 4) k
  (2 * ((List.range code).foldl (fun m k => m + w k) 0) + w code + 1024) / 2048

/-- The calibrated latency of the compare path in units of 1/64 ps, by the item of subject 3 that the tile has applied (09_calibration.md Table
9.1); CAL_READ does not show it (log entry 72). -/
def State.latency (s : State) (ch : Nat) : Int := (s.calOf (calKey ch 3)).value (calKey ch 3) 2

/-- The stop instant at the user plane in units of 1/64 ps: the coarse edge and the fine position, less the calibrated latency of the compare
path and CH_DSK_USER.CMP (R170). -/
def State.stopInstant (s : State) (ch edge code : Nat) : Int :=
  edge * coarse + s.fine ch code - s.latency ch - 16 * signed 16 (s.fget (R.CH_DSK_USER_CMP ch))

/-! ## Stop windows (R173 to R175) -/

/-- The span of a window of reference `r`; an opening before `limit` is moved there (R173, R175). -/
def State.window (s : State) (ch cyc : Nat) (r w limit : Int) (ofStrobe : Bool) : Win :=
  let o := r + (s.rget (R.TDC_WOPEN ch)).toInt * edgeUnit
  { cyc := cyc, r := r, w := w, opens := max o limit, closes := o + s.fget (R.TDC_WLEN_WLEN ch) * 20480000, ofStrobe := ofStrobe
    moved := decide (o < limit) }

/-- A window opens; a third one closes the oldest that is open (R175). -/
def State.openWindow (s : State) (ch : Nat) (w : Win) : State :=
  let rest := (s.chan ch).wins.erase w
  let live := rest.filter fun x => x.opened && decide (w.opens < x.closes)
  let third := decide (2 ≤ live.length)
  let rest := match live with
    | o :: _ => if third then rest.map fun x => if x = o then { x with closes := w.opens } else x else rest
    | [] => rest
  let s := s.modChan ch fun c => { c with wins := rest ++ [{ w with opened := true }] }
  let s := if w.moved then s.count (R.TDC_TRUNC_COUNT ch) else s
  if third then s.count (R.TDC_TRUNC_COUNT ch) else s

/-- The windows that are to open at or before an instant open, in order. -/
def State.openDue (s : State) (ch : Nat) (i : Int) : State :=
  (sortBy (fun (a b : Win) => decide (a.opens ≤ b.opens)) ((s.chan ch).wins.filter fun w => !w.opened && decide (w.opens ≤ i))).foldl
    (fun s w => s.openWindow ch w) s

/-- Whether no strobe that may still be dropped opens a window (R174). -/
def State.winFirm (s : State) (ch : Nat) (w : Win) : Bool :=
  w.opened || !w.ofStrobe || !(s.chan ch).strobes.any fun (x : Strobe) => x.cyc == w.cyc && !s.strobeFirm ch x

/-- The windows that are to open before an instant open, up to the first whose strobe may still be dropped. -/
def State.openFirm (s : State) (ch : Nat) (i : Int) : State :=
  s.openDue ch ((s.chan ch).wins.foldl (fun m x => if s.winFirm ch x then m else min m x.opens) i - 1)

/-- The windows of a channel stand as they do now, unless stops wait whose windows are not firm: before a register read (R175). -/
def State.windowsNow (s : State) (ch : Nat) : State :=
  if (s.tile (ch / 16)).stops.isEmpty then s.openFirm ch (s.tileTime (ch / 16) s.now + 1) else s

/-- A window is scheduled. Windows whose strobes are firm open up to the cycle that begins at `i`, and those closed 1 µs ago leave. -/
def State.addWindow (s : State) (ch : Nat) (i : Int) (w : Win) : State :=
  let s := if (s.tile (ch / 16)).stops.isEmpty then s.openFirm ch i else s
  s.modChan ch fun c => { c with wins := (c.wins.filter fun x => !x.opened || decide (i < x.closes + 65536000000)) ++ [w] }

/-- Windows still open at E close there; no later one opens (R175, Table 7.1). -/
def State.closeWindows (s : State) (ch : Nat) (e : Int) : State :=
  let s := s.openDue ch (e - 1)
  let live := (s.chan ch).wins.filter fun w => w.opened && decide (e < w.closes)
  let s := s.modChan ch fun c => { c with wins := (c.wins.filter (·.opened)).map fun w => if e < w.closes then { w with closes := e } else w }
  live.foldl (fun s _ => s.count (R.TDC_TRUNC_COUNT ch)) s

/-! ## Attributions (R181 to R187) -/

/-- The histogram bin of a time value (Table of R181), with ORIGIN and BW in units of 1/64 ps. -/
def profBin (t origin bw : Int) : Nat := if t < origin then 0 else (min ((t - origin) / bw) 510).toNat + 1

/-- The histogram counts an attribution (R181, R183). -/
def State.histogram (s : State) (ch cls : Nat) (t i : Int) : State :=
  let tile := ch / 16
  let lane := ch % 16
  let b := profBin t (signed 24 (s.fget (R.PROF_BIN_ORIGIN ch)) * 16) (16 * 2 ^ s.fget (R.PROF_BIN_BWSHIFT ch))
  let off := ((lane * 2 + cls) * 512 + b) * 4
  let n := (s.mword 6 tile off).toNat
  let s := if n = 2 ^ 32 - 1 then (s.setFlag (R.PROF_STATUS_BINSAT tile) true).setFlag (R.TDC_STAT_BINSAT ch) true
    else s.mwrite 6 tile off (leBytes 4 (n + 1))
  let s := if s.warmAt (s.chipTime tile i) then s.setFlag (R.PROF_STATUS_WARMUP tile) true else s
  if s.suspectAt (s.chipTime tile i) then s.setFlag (R.PROF_STATUS_SUSPECT tile) true else s

/-- A derived register takes a value of 1/64 ps units, rounded down to 1/16 ps, if `better` prefers it; values saturate (R185). DESIGN CHOICE:
SETUP and HOLD round −t and t − w down, not t before the sign or the difference is taken (log entry 73). -/
def State.derive (s : State) (ch a : Nat) (v : Int) (better : Int → Int → Bool) : State :=
  let v := v / 4
  let w := max (-(2 ^ 31)) (min (2 ^ 31 - 1) v)
  let s := if w = v then s else s.setFlag (R.TDC_STAT_DERSAT ch) true
  if better w (s.rget a).toInt then s.rset a (BitVec.ofNat 32 (unsigned 32 w)) else s

/-- The derived registers take an attribution (R185). -/
def State.derived (s : State) (ch cls : Nat) (t w : Int) : State :=
  let less (a b : Int) : Bool := decide (a < b)
  let more (a b : Int) : Bool := decide (b < a)
  let s := s.derive ch (if cls = 0 then R.EARLY_R ch else R.EARLY_F ch) t less
  let s := s.derive ch (if cls = 0 then R.LATE_R ch else R.LATE_F ch) t more
  let s := if t < 0 then s.derive ch (R.SETUP ch) (-t) less else s
  let s := if w < t then s.derive ch (R.HOLD ch) (t - w) less else s
  if 0 ≤ t ∧ t ≤ w then s.count (R.INWIN_COUNT ch) else s

/-- A stop is attributed to a window. -/
def State.attribute (s : State) (ch cls : Nat) (u : Int) (win : Win) : State :=
  let i : Int := u * stopUnit
  let t : Int := u - win.r / stopUnit
  let s := if s.warmAt (s.chipTime (ch / 16) i) then s.setFlag (R.TDC_STAT_WARMUP ch) true else s
  let s := if s.suspectAt (s.chipTime (ch / 16) i) then s.setFlag (R.TDC_STAT_SUSPECT ch) true else s
  let s := if s.flag (R.TDC_CFG_PROF ch) then s.histogram ch cls t i else s
  let s := if s.fget (R.TDC_CFG_START ch) = 1 then s.derived ch cls t (win.w / stopUnit) else s
  if s.flag (R.TDC_CFG_SAMPLE ch) then
    let v := unsigned 40 t
    s.record (ch / 16) { typ := 4, time := sysOf i, cyc := some win.cyc, w2 := BitVec.ofNat 32 v
                         w3 := BitVec.ofNat 32 (v / 2 ^ 32 + 256 * (ch % 16) + 4096 * cls) } i
  else s

/-! ## Stops (R172, R173, R176) -/

/-- An accepted stop opens the windows of the channels that it starts (R173, START = 2). -/
def State.stopStarts (s : State) (ch : Nat) (i : Int) : State :=
  let t := ch / 16
  (chansOf t).foldl (fun s c =>
    if s.flag (R.TDC_CFG_EN c) && s.fget (R.TDC_CFG_START c) == 2 && s.fget (R.TDC_CFG_SLANE c) == ch % 16 && s.mode c != 0 then
      (s.modChan c fun k => { k with wins := k.wins ++ [s.window c ((s.tile t).cycleAt i) i 0 (place (s.tile t).startAt) false] }).openFirm c (i + 1)
    else s) s

/-- A stop meets the windows of its channel: accepted into those that are open, or counted or ignored (R172, R176). -/
def State.takeStop (s : State) (ch : Nat) (falling : Bool) (u : Int) : State :=
  let i := u * stopUnit
  let s := s.openDue ch i
  let c := s.chan ch
  let wins := c.wins.filter fun w => w.opened && decide (w.opens ≤ i ∧ i < w.closes)
  let dead := match c.lastStop with
    | some l => decide (i < l + deadTime)
    | none => false
  if wins.isEmpty then s
  else if dead then s.count (R.TDC_DEAD_COUNT ch)
  else if !(s.fget (R.TDC_CFG_CLS ch)).testBit falling.toNat then s
  else
    let s := ((s.modChan ch fun k => { k with lastStop := some i }).count (R.TDC_ACCEPT_COUNT ch)).tileEv (ch / 16) 3 i
    let s := wins.foldl (fun s w => s.attribute ch falling.toNat u w) s
    s.stopStarts ch i

/-- Whether no window that a stop may lie in can still fall to a dropped strobe (R174). -/
def State.stopFirm (s : State) (ch : Nat) (i : Int) : Bool := (s.chan ch).wins.all fun w => decide (i < w.opens) || s.winFirm ch w

/-- The stops that wait in a tile are taken in their order up to the first one that is not firm; all of them where issue has stopped. -/
def State.takeStops (t : Nat) (all : Bool) : List (Nat × Bool × Int) → State → State
  | [], s => s.modTile t fun c => { c with stops := [] }
  | x :: l, s =>
    if all || s.stopFirm x.1 (x.2.2 * stopUnit) then State.takeStops t all l (s.takeStop x.1 x.2.1 x.2.2)
    else s.modTile t fun c => { c with stops := x :: l }

/-- The stops of a tile that have become firm are taken. -/
def State.settleStops (s : State) (t : Nat) (all : Bool := false) : State :=
  if (s.tile t).stops.isEmpty then s else s.takeStops t all (s.tile t).stops

/-- The issue of cycles stops at E: edges and strobes at or after E are dropped, the other edges act, windows close (R130, R175). -/
def State.stopIssue (s : State) (t : Nat) (e : Int) : State :=
  let s := (chansOf t).foldl (fun s ch =>
    let l := (s.chan ch).carried
    let s := (l.filter fun x => x.acts && decide (e ≤ x.at_)).foldl (fun s x => s.drop ch x.idx x.cyc .hold) s
    let s := s.modChan ch fun c => { (l.filter fun x => decide (x.at_ < e)).foldl ChanCtx.act c with carried := [] }
    (s.chan ch).strobes.foldl (fun s x =>
      match x.instants.find? fun k => decide (e ≤ k.2) with
      | some k => (s.modChan ch fun c => { c with strobes := c.strobes.filter (· != x) }).dropStrobe ch x k.1 .hold
      | none => s) s) s
  (chansOf t).foldl (fun s ch => s.closeWindows ch e) (s.settleStops t true)

end Sys2Proof.Machine
end

