-- ==== Sys2Proof/Machine/Operands.lean ====
section
/-! DEFINITION. Operand forms: the layout of a sequencer instruction (03_sequencer.md R62 to R64), and of the parameter words of
requests (10_uhleus_protocol.md R254, R266, R493). -/

namespace Sys2Proof

namespace Machine

/-! ## Sequencer instructions (Table 3.1) -/

/-- Bits hi:lo of a number. -/
def nbits (v hi lo : Nat) : Nat := v / 2 ^ lo % 2 ^ (hi - lo + 1)

/-- The fields of the 128 bits of an instruction. -/
def seqFields (v : Nat) : SeqInstr :=
  { opcode := BitVec.ofNat 6 v, tset := BitVec.ofNat 6 (nbits v 11 6), pidx := BitVec.ofNat 4 (nbits v 15 12)
    lcnt := BitVec.ofNat 3 (nbits v 18 16), ssafe := v.testBit 19, strm := v.testBit 20, mken := v.testBit 21
    cfmt := v.testBit 22, clrf := v.testBit 23, mkid := BitVec.ofNat 8 (nbits v 31 24)
    count := BitVec.ofNat 32 (nbits v 63 32), vword := BitVec.ofNat 16 (nbits v 79 64)
    apgop := BitVec.ofNat 16 (nbits v 95 80), vseg := BitVec.ofNat 4 (nbits v 99 96)
    target := BitVec.ofNat 14 (nbits v 113 100), cond := BitVec.ofNat 5 (nbits v 118 114), neg := v.testBit 119
    csite := BitVec.ofNat 8 (nbits v 127 120) }

/-- Instruction `a` of a tile's sequence memory (R62). -/
def State.seqAt (s : State) (t a : Nat) : SeqInstr := seqFields (leNat (s.mread 2 t (16 * a) 16))

/-! The opcodes of Table 3.2. -/

namespace Op
def nop : Nat := 0x00
def vec : Nat := 0x01
def rpt : Nat := 0x02
def hold : Nat := 0x03
def loop : Nat := 0x08
def lend : Nat := 0x09
def call : Nat := 0x0A
def ret : Nat := 0x0B
def jmp : Nat := 0x0C
def br : Nat := 0x0D
def segsw : Nat := 0x10
def mark : Nat := 0x11
def period : Nat := 0x12
def wait : Nat := 0x13
def end_ : Nat := 0x3F
end Op

def opDefined (o : Nat) : Bool :=
  [Op.nop, Op.vec, Op.rpt, Op.hold, Op.loop, Op.lend, Op.call, Op.ret, Op.jmp, Op.br, Op.segsw, Op.mark, Op.period, Op.wait,
    Op.end_].contains o

/-- Codes of Table 3.3. -/
def condDefined (c : Nat) : Bool := decide (c ≤ 4) || decide (8 ≤ c ∧ c ≤ 13)

/-- Whether an APGOP's XOP, YOP, CHAIN and DOP are defined (Table 3.6). -/
def apgDefined (o : Nat) : Bool :=
  decide (o % 8 ≤ 5) && decide (o / 8 % 8 ≤ 5) && decide (o / 64 % 4 ≤ 2) && decide (o / 256 % 8 ≤ 4)

end Machine

/-- An instruction with the fields that its opcode does not use set to 0 (Table 3.2). -/
def SeqInstr.used (i : SeqInstr) : SeqInstr :=
  let o := i.opcode.toNat
  let z : SeqInstr := { opcode := i.opcode }
  let mk : SeqInstr := { z with mken := i.mken, mkid := i.mkid }
  let apg : SeqInstr := { mk with apgop := i.apgop }
  if o = Machine.Op.vec then { i with pidx := 0, lcnt := 0, clrf := false, target := 0, cond := 0, neg := false, csite := 0, rsv := false }
  else if o = Machine.Op.rpt then
    { i with pidx := 0, lcnt := 0, ssafe := false, clrf := false, target := 0, cond := 0, neg := false, csite := 0, rsv := false }
  else if o = Machine.Op.hold then { apg with tset := i.tset, count := i.count }
  else if o = Machine.Op.loop then { apg with lcnt := i.lcnt, count := i.count, target := i.target }
  else if o = Machine.Op.lend then { apg with lcnt := i.lcnt, target := i.target }
  else if o = Machine.Op.call ∨ o = Machine.Op.jmp then { apg with target := i.target }
  else if o = Machine.Op.br then { apg with target := i.target, cond := i.cond, neg := i.neg, csite := i.csite, clrf := i.clrf }
  else if o = Machine.Op.segsw then { apg with ssafe := i.ssafe }
  else if o = Machine.Op.mark then { z with mkid := i.mkid }
  else if o = Machine.Op.period then { mk with pidx := i.pidx }
  else if o = Machine.Op.wait then
    { apg with count := i.count, target := i.target, cond := i.cond, neg := i.neg, csite := i.csite, clrf := i.clrf }
  else if o = Machine.Op.end_ then mk
  else apg

namespace Machine

/-- Whether an instruction's opcode uses TARGET. -/
def usesTarget (o : Nat) : Bool := [Op.loop, Op.lend, Op.call, Op.jmp, Op.br, Op.wait].contains o

/-- Whether an instruction issues cycles. -/
def issues (o : Nat) : Bool := o == Op.vec || o == Op.rpt || o == Op.hold

/-- The period of a table entry in units of 2^-16 ps (R49). -/
def State.periodOf (s : State) (t n : Nat) : Nat := s.pair (R.PERIOD_LO t n) (R.PERIOD_HI t n)

def periodValid (p : Nat) : Bool := decide (20480000 ≤ p)

/-! ## Requests -/

end Machine

/-- Parameter word `k` of a request, 0 where it carries none. -/
def Req.p (q : Req) (k : Nat) : Word := q.params.getD k 0
def Req.n (q : Req) (k : Nat) : Nat := (q.p k).toNat
/-- The tiles that two parameter words name. -/
def Req.tiles (q : Req) (k : Nat := 0) : List Nat := Machine.tilesOf (q.p k) (q.p (k + 1))

namespace Machine

/-- PCOUNT and PLEN as Table 10.2 accepts them (R493). -/
def lengthOk (op : BitVec 8) (pc pl : Nat) (p1 : Nat) : Bool :=
  let at_ (n : Nat) : Bool := pc == n && pl == 0
  match op.toNat with
  | 0x01 => pc == 1 && decide (pl ≤ 2048)
  | 0x02 => at_ 0
  | 0x03 => pc == 0 && decide (pl ≤ 2048)
  | 0x10 => at_ 3
  | 0x11 => pc == 3 && decide (p1 ≤ 16384) && pl == 4 * p1
  | 0x12 => at_ 2
  | 0x13 => at_ 2
  | 0x14 => decide (1 ≤ pc ∧ pc ≤ 32) && pl == 0
  | 0x20 => pc == 4 && decide (1 ≤ pl ∧ pl ≤ 65536)
  | 0x21 => at_ 3
  | 0x22 => pc == 5 && decide (pl ≤ 65536)
  | 0x23 => at_ 5
  | 0x24 => at_ 4
  | 0x25 => at_ 1
  | 0x30 => at_ 2
  | 0x31 => at_ 4
  | 0x32 => at_ 2
  | 0x33 => at_ 3
  | 0x34 => at_ 4
  | 0x40 => at_ 3
  | 0x41 => at_ 4
  | 0x42 => at_ 4
  | 0x43 => at_ 1
  | 0x50 => at_ 4
  | 0x51 => at_ 0
  | 0x52 => at_ 2
  | 0x60 => pc == 3 && decide (pl ≤ 65536)
  | 0x61 => at_ 6
  | 0x62 => pc == 1 && decide (1 ≤ pl ∧ pl ≤ 65536)
  | 0x63 => at_ 1
  | 0x64 => pc == 0 && decide (1 ≤ pl ∧ pl ≤ 65536)
  | 0x70 => at_ 3
  | 0x71 => at_ 2
  | 0x72 => at_ 1
  | 0x74 => at_ 3
  | 0x75 => at_ 3
  | 0x76 => at_ 5
  | 0x7E => at_ 4
  | _ => false

/-- The opcodes of Table 10.6. -/
def opcodes : List Nat :=
  [0x01, 0x02, 0x03, 0x10, 0x11, 0x12, 0x13, 0x14, 0x20, 0x21, 0x22, 0x23, 0x24, 0x25, 0x30, 0x31, 0x32, 0x33, 0x34, 0x40, 0x41,
    0x42, 0x43, 0x50, 0x51, 0x52, 0x60, 0x61, 0x62, 0x63, 0x64, 0x70, 0x71, 0x72, 0x74, 0x75, 0x76, 0x7E]

/-- The privilege that a request needs at least (Table 10.6): 0 OBSERVE to 4 VENDOR. -/
def minPriv (op : BitVec 8) : Nat :=
  match op.toNat with
  | 0x11 => 1 | 0x12 => 1 | 0x13 => 1 | 0x20 => 1 | 0x22 => 1 | 0x23 => 1
  | 0x24 => 2 | 0x25 => 2
  | 0x30 => 1 | 0x31 => 1 | 0x33 => 1
  | 0x50 => 2 | 0x51 => 2
  | 0x60 => 1 | 0x62 => 3 | 0x64 => 3
  | 0x70 => 2 | 0x71 => 2 | 0x72 => 2 | 0x74 => 2 | 0x75 => 1 | 0x76 => 1
  | 0x7E => 4
  | _ => 0

/-- Opcodes whose payload streams (R252). -/
def streaming (op : BitVec 8) : Bool := op == 0x20 || op == 0x22

/-- Cells that a payload takes (R250). -/
def cellsOf (n : Nat) : Nat := (n + 3) / 4 * 4 / 2048 + (if (n + 3) / 4 * 4 % 2048 = 0 then 0 else 1)

/-- Opcodes whose trailer check 8 of R254 looks at: whole-payload operations and register commands. -/
def trailerFirst (op : BitVec 8) : Bool :=
  [0x01, 0x03, 0x10, 0x11, 0x12, 0x13, 0x14, 0x60, 0x62, 0x64].contains op.toNat

/-- Items 2 to 8 of R254: the first failing check's status, if any. -/
def State.accept (s : State) (op : BitVec 8) (q : Req) : Option (BitVec 8) :=
  let n := q.session.toNat
  if q.hver != 1 || q.kind != 0 || !opcodes.contains op.toNat then some St.badOpcode
  else if op != 0x01 && !s.sessOpen n then some St.denied
  else if !lengthOk op q.params.length q.payload.length (q.n 1) then some St.badLength
  else if q.noSlot || q.overrun || (op != 0x01 && !streaming op && decide (s.fget (R.SESS_STAT_WIN n) < cellsOf q.payload.length)) then
    some St.exceedsWindow
  else if op != 0x01 && decide (s.fget (R.SESS_STAT_PRIV n) < minPriv op) then some St.denied
  else if q.flags.toNat / 2 != 0 then some St.badParam
  else if trailerFirst op && !q.trailerOk then some St.crcError
  else none

/-- A request waits for the engine, undispatched (11_naljo_engine.md R283). -/
def State.hold (s : State) (op : BitVec 8) (q : Req) : State :=
  let n := q.session.toNat
  let s := s.fset (R.SESS_LOAD_CELLS n) (min (s.fget (R.SESS_STAT_WIN n)) (s.fget (R.SESS_LOAD_CELLS n) + cellsOf q.payload.length))
  { s with items := s.items ++ [Item.request op q] }.count (R.SESS_LOAD_PEND n)

/-- The split-phase opcodes (Table 10.6). -/
def splitPhase (op : BitVec 8) : Bool :=
  [0x30, 0x31, 0x34, 0x50, 0x60, 0x61, 0x62, 0x64, 0x70, 0x71, 0x72, 0x75, 0x76].contains op.toNat

/-- The routine of a request runs (R274): one that passes items 2 to 8 of R254 acts; any other is answered with the first failing
check's status. While a patch waits for its activation, a request that would start split-phase work is held (11_naljo_engine.md R283). -/
def State.request (s : State) (op : BitVec 8) (q : Req) (act : State → State) : State :=
  match s.accept op q with
  | some st => s.routine.fail op q st
  | none =>
    if splitPhase op && s.flag R.ENG_STATUS_HOLDING && decide (s.ids < (act s.routine).ids) then s.hold op q else act s.routine

end Machine

end Sys2Proof
end

