-- ==== Sys2Proof/Machine/Crypto.lean ====
section
/-! DEFINITION. Byte strings, digests, keys and seals (13_security.md R314, R316, R317, R323 to R325, R329, R340). The functions of the
standards of Table 13.13 are constants of Config without a body (log entry 5); what they are applied to stands here. -/

namespace Sys2Proof.Machine

/-! ## Byte strings (R3, R324) -/

/-- Bytes `i` to `j` of a payload. -/
def sub (l : List Byte) (i j : Nat) : List Byte := (l.drop i).take (j + 1 - i)

def allZero (l : List Byte) : Bool := l.all (· == 0)

/-- Bytes cut or filled with zeros to a length. -/
def fit (n : Nat) (l : List Byte) : List Byte := (l ++ List.replicate (n - l.length) 0).take n

/-- A number as `n` bytes, most significant byte first. -/
def octets (n v : Nat) : List Byte := (leBytes n v).reverse

/-- A 32-bit integer as four bytes, most significant byte first (R324). -/
def beBytes (v : Nat) : List Byte := octets 4 v

/-- Bytes as a number, most significant byte first. -/
def beNat (l : List Byte) : Nat := leNat l.reverse

/-- A label as its ASCII bytes, with no terminating zero (R324). -/
def ascii (t : String) : List Byte := t.toList.map fun c => BitVec.ofNat 8 c.toNat

/-! ## Digests and keys (R314, R340) -/

/-- The SHA-384 digest, 48 bytes. -/
def digest (l : List Byte) : List Byte := octets 48 (Config.sha384 l).toNat

/-- HKDF-SHA-384 without a salt or with one, and an info string: `n` bytes, at most 48. -/
def hkdf (n : Nat) (ikm salt info : List Byte) : List Byte := (octets 48 (Config.hkdf ikm salt info).toNat).take n

/-- The order of the curve P-384, the prime of its field and its coefficient b (FIPS 186-5). -/
def p384Order : Nat :=
  0xFFFFFFFFFFFFFFFFFFFFFFFFFFFFFFFFFFFFFFFFFFFFFFFFC7634D81F4372DDF581A0DB248B0A77AECEC196ACCC52973
def p384Prime : Nat := 2 ^ 384 - 2 ^ 128 - 2 ^ 96 + 2 ^ 32 - 1
def p384B : Nat := 0xB3312FA7E23EE7E4988E056BE3F82D19181D9C6EFE8141120314088F5013875AC656398D8A2ED19D2A85C8EDD3EC2AEF

/-- Full validation of a public key in the uncompressed point encoding (Table 13.13): a point of the curve, which has prime order. -/
def pointOk (b : List Byte) : Bool :=
  let x := beNat (sub b 1 48)
  let y := beNat (sub b 49 96)
  b.length == 97 && b.getD 0 0 == 4 && decide (x < p384Prime ∧ y < p384Prime) &&
    y * y % p384Prime == (x * x * x + (p384Prime - 3) * x + p384B) % p384Prime

/-- The first candidate that rejection sampling takes, from a counter on (R314; FIPS 186-5): a candidate above the order less 2 is
rejected, and the key is one more than a candidate. `fuel` bounds the counters of 32 bits. -/
def keyFrom (label : String) : Nat → Nat → Nat
  | 0, _ => 0
  | fuel + 1, i =>
    let c := beNat (hkdf 48 (octets 48 Config.pufSeed.toNat) [] (ascii label ++ beBytes i))
    if c ≤ p384Order - 2 then c + 1 else keyFrom label fuel ((i + 1) % 2 ^ 32)

/-- The private keys IDK and KAK, and their public keys, 97 bytes each (R314). -/
def idk : Nat := keyFrom "KW1024-IDK" (2 ^ 32) Config.keyCounter
def kak : Nat := keyFrom "KW1024-KAK" (2 ^ 32) Config.keyCounter
def idkPub : List Byte := octets 97 (Config.publicKey idk).toNat
def kakPub : List Byte := octets 97 (Config.publicKey kak).toNat

/-- The moraine key K, and the MAC of the first 48 bytes of a record (18_moraine_counters.md R418). -/
def moraineKey : List Byte := hkdf 48 (octets 48 Config.pufSeed.toNat) [] (ascii "KW1024-MRK")
def recordMac (l : List Byte) : List Byte := (digest (moraineKey ++ l)).take 16

/-- The signature of IDK under a byte string, drawn with the nonce of a number: r, then s. -/
def idkSigned (nonce : Nat) (l : List Byte) : List Byte := octets 96 (Config.sign idk nonce l).toNat

/-- DEVICE_ID as bytes. -/
def State.deviceId (s : State) : List Byte := (List.range 4).flatMap fun k => wordBytes (s.rget (R.DEVICE_ID k))

/-- The bytes of OWNER_DIGEST. -/
def State.ownerDigest (s : State) : List Byte := (List.range 12).flatMap fun k => wordBytes (s.rget (R.OWNER_DIGEST k))

/-- Whether a key is the one that a digest names, and valid (R317, R340). -/
def keyIs (key dig : List Byte) : Bool := pointOk key && digest key == dig

/-- Whether a key is the owner's, or the vendor's, whose digest the ROM holds. -/
def State.ownerKey (s : State) (key : List Byte) : Bool := keyIs key s.ownerDigest
def vendorKey (key : List Byte) : Bool := keyIs key (octets 48 Config.vendorDigest.toNat)

/-! ## AES-256-GCM (R323, R325, R329) -/

/-- Bytes under the key stream of a key and an initialisation vector, from a place on: enciphered or deciphered. -/
def gcmBytes (key iv : List Byte) (place : Nat) (l : List Byte) : List Byte :=
  (List.range l.length).map fun k => l.getD k 0 ^^^ Config.keyStream key iv (place + k)

/-- The tag of a ciphertext with its associated data. -/
def gcmTag (key iv aad cipher : List Byte) : List Byte := octets 16 (Config.gcmTag key iv aad cipher).toNat

/-- The recipient entries of a part 0, and the one that carries DEVICE_ID (Table 13.6). -/
def recipients (b : List Byte) : Nat := leNat (sub b 408 411)
def State.recipient (s : State) (b : List Byte) : Option (List Byte) :=
  ((List.range (recipients b)).map fun i => (b.drop (416 + 64 * i)).take 64).find? fun e => e.take 16 == s.deviceId

/-- KEK, from part 0 (R323). -/
def State.kek (s : State) (b : List Byte) : List Byte :=
  hkdf 32 (octets 48 (Config.ecdhX kak (sub b 161 257)).toNat) (sub b 8 15) (ascii "KW1024-WRAP" ++ s.deviceId)

/-- The bundle key that part 0 wraps for this device; none where no entry carries DEVICE_ID, EPH_PUB is no valid key, or the unwrap tag
fails. -/
def State.unwrap (s : State) (b : List Byte) : Option (List Byte) :=
  let iv : List Byte := List.replicate 12 0
  (s.recipient b).bind fun e =>
    if pointOk (sub b 161 257) && gcmTag (s.kek b) iv (digest (sub b 0 311)) (sub e 16 47) == sub e 48 63
    then some (gcmBytes (s.kek b) iv 0 (sub e 16 47)) else none

/-! ## The device certificate (R316) -/

/-- Whether a byte string stands in another. -/
def holds (x : List Byte) : List Byte → Bool
  | [] => x.isEmpty
  | b :: l => x.isPrefixOf (b :: l) || holds x l

/-- A positive number in the contents bytes of a DER INTEGER: no leading byte that is not needed. -/
def derInt : List Byte → List Byte
  | [] => [0]
  | b :: l => if b = 0 then (match l with
      | [] => [0]
      | c :: _ => if c.getLsbD 7 then b :: l else derInt l) else if b.getLsbD 7 then 0 :: b :: l else b :: l

def hexDigit (upper : Bool) (n : Nat) : Byte := BitVec.ofNat 8 (if n < 10 then 48 + n else (if upper then 55 else 87) + n)
def hexOf (upper : Bool) (l : List Byte) : List Byte :=
  l.flatMap fun b => [hexDigit upper (b.toNat / 16), hexDigit upper (b.toNat % 16)]

/-- The subject: one serialNumber attribute with DEVICE_ID in hexadecimal. -/
def certSubject (upper : Bool) (id : List Byte) : List Byte :=
  [0x30, 0x2B, 0x31, 0x29, 0x30, 0x27, 0x06, 0x03, 0x55, 0x04, 0x05, 0x13, 0x20] ++ hexOf upper id

/-- The fields of the profile that the device knows, as they stand in the certificate: serialNumber, the algorithm ecdsa-with-SHA384,
notAfter, the public key with id-ecPublicKey and secp384r1, the critical keyUsage digitalSignature, and the subject. Of the issuer, the
other extensions and the signature of the CA the request's verdict speaks (log entry 5). -/
def State.certProfile (s : State) (c : List Byte) : Bool :=
  let id := s.deviceId
  let serial := derInt ((id.headD 0 &&& 0x7F) :: id.drop 1)
  c.length ≤ 1024 && holds ([0x02, BitVec.ofNat 8 serial.length] ++ serial) c &&
    holds [0x30, 0x0A, 0x06, 0x08, 0x2A, 0x86, 0x48, 0xCE, 0x3D, 0x04, 0x03, 0x03] c &&
    holds ([0x18, 0x0F] ++ ascii "99991231235959Z") c &&
    holds ([0x30, 0x76, 0x30, 0x10, 0x06, 0x07, 0x2A, 0x86, 0x48, 0xCE, 0x3D, 0x02, 0x01, 0x06, 0x05, 0x2B, 0x81, 0x04, 0x00, 0x22,
      0x03, 0x62, 0x00] ++ idkPub) c &&
    holds [0x30, 0x0E, 0x06, 0x03, 0x55, 0x1D, 0x0F, 0x01, 0x01, 0xFF, 0x04, 0x04, 0x03, 0x02, 0x07, 0x80] c &&
    (holds (certSubject true id) c || holds (certSubject false id) c)

end Sys2Proof.Machine
end

