-- ==== Sys2Proof/Machine/Bundle.lean ====
section
/-! DEFINITION. What a bundle leaves behind: the registers of Table 13.9 at reset, sealed stores zeroed, and removal
(13_security.md R330, Table 13.14). -/

namespace Sys2Proof.Machine

/-- The bits of a register that stay when the registers of Table 13.9 of a tile and its channels are reset, but those that `p` names: all,
but the writable ones of a register of that table. -/
def sealedMask (t : Nat) (p : Nat → Bool) (a : Nat) : Word :=
  match regAt a with
  | some (b, i, _, d) =>
    if d.sealW && ((b == .tile && i == t) || (b == .chan && i / 16 == t)) && !p a then ~~~d.rw else 0xFFFFFFFF
  | none => 0xFFFFFFFF

/-- The registers of Table 13.9 of a tile, but those that `p` names, take their reset values; the channels go to OFF and changed levels
are applied. -/
def State.resetSealedBut (s : State) (t : Nat) (p : Nat → Bool) : State :=
  let s := (chansOf t).foldl (fun s ch =>
    let s := if s.rget (R.CH_MODE ch) = 0x100 || p (R.CH_MODE ch) then s else s.chMode ch 0x100
    (List.range 11).foldl (fun s k => if s.rget (R.LVL ch k) = 0 || p (R.LVL ch k) then s else s.levelCode ch k 0) s) s
  ({ s with regs := keepRegs (sealedMask t p) s.regs }.syncPool t).segSync t

def State.resetSealed (s : State) (t : Nat) : State := s.resetSealedBut t fun _ => false

/-- The derived registers and counts of a channel (07_time_measurement.md Table 7.3) take their reset values. -/
def State.clearDerived (s : State) (ch : Nat) : State :=
  let s := s.resetRegs fun a => decide (R.TDC_ACCEPT ch ≤ a ∧ a ≤ R.INWIN ch)
  s.rset (R.TDC_STAT ch) (s.rget (R.TDC_STAT ch) &&& 0x42)

/-- The ring of a tile emptied, with all frame, hold-off and gap state (08_acquisition.md R193, R225). -/
def State.clearRing (s : State) (t : Nat) : State :=
  let s := s.modTile t fun c => { c with cap := {}, cycs := [], failRecs := 0 }
  [R.CAP_WR_PTR t, R.CAP_RD_PTR t, R.CAP_USED t, R.CAP_STATUS t, R.CAP_LOST t, R.CAP_CREV t, R.TRIG_IGN t, R.MASK_STATUS t,
    R.MASK_VCOUNT t].foldl (fun s a => s.rset a 0) s

/-- The compressor state of a tile cleared, and with it the repair data of the sites of its own channels (R216, R217). -/
def State.clearFc (s : State) (t : Nat) : State :=
  let s := (s.modTile t fun c => { c with fc := [] }).syncPool t
  let sites := ((chansOf t).filter fun ch => !s.flag (R.CH_SEQ_SHARED ch)).map fun ch => s.fget (R.CH_SEQ_SITE ch)
  sites.foldl (fun s n =>
    let s := { s with rep := Store.put (fun _ => {}) s.rep n {} }
    s.resetRegs fun a => decide (R.REP_LIST n ≤ a ∧ a ≤ R.REP_FLAGS n)) s

/-- Profile memory, its status and the derived values of a tile's channels cleared (07_time_measurement.md R182). -/
def State.clearProfile (s : State) (t : Nat) : State :=
  ((chansOf t).foldl (fun s ch => s.clearDerived ch) (s.eraseSpace 6 t)).rset (R.PROF_STATUS t) 0

/-- Sealed contents of a tile zeroed: stores, mask table, sealed segments, ring, profiles, compressor, Table 13.9 (R330). -/
def State.zeroTile (s : State) (t : Nat) : State :=
  let s := ((s.eraseSpace 2 t).eraseSpace 3 t).eraseSpace 4 t
  let s := s.eraseSpace 5 t
  let s := (List.range 16).foldl (fun s i =>
    if s.segSealed t i then
      { ((s.segEmpty t i).setFlag (sealFld t i) false) with segSeal := Store.put (fun _ => {}) s.segSeal (t * 16 + i) {} }
    else s) s
  (((s.clearRing t).clearFc t).clearProfile t).resetSealed t

/-- SEAL_TILES shows the tiles that hold a bundle. -/
def State.syncSeal (s : State) : State :=
  let m := (List.range 4).foldl (fun (m : Word × Word) n =>
    if s.flag (R.BUNDLE_CTL_VALID n) then (m.1 ||| s.rget (R.BUNDLE_TILES_LO n), m.2 ||| s.rget (R.BUNDLE_TILES_HI n)) else m) (0, 0)
  (s.rset R.SEAL_TILES_LO m.1).rset R.SEAL_TILES_HI m.2

/-- The bundle of a slot is removed with a cause: 1 replaced, 2 unloaded, 3 OFF, 4 vault wipe (R330, R342). -/
def State.bundleRemove (s : State) (n cause : Nat) : State :=
  if s.flag (R.BUNDLE_CTL_VALID n) then
    let b := Store.get (fun _ => {}) s.bundles n
    let s := (tilesOf (s.rget (R.BUNDLE_TILES_LO n)) (s.rget (R.BUNDLE_TILES_HI n))).foldl (fun s t => s.zeroTile t) s
    let s := b.shareWords.foldl (fun s a => s.rset a (regReset a)) s
    let s := [R.BUNDLE_CTL n, R.BUNDLE_TILES_LO n, R.BUNDLE_TILES_HI n, R.BUNDLE_ID_LO n, R.BUNDLE_ID_HI n,
      R.BUNDLE_POLICY n].foldl (fun s a => s.rset a 0) s
    ({ s with bundles := Store.put (fun _ => {}) s.bundles n {} }.syncSeal).chipEvent 0x403
      [BitVec.ofNat 32 n, BitVec.ofNat 32 cause]
  else s

/-- A fenced tile loses its sealed contents; its bundle stays on the other tiles (Table 13.14). -/
def State.unsealTile (s : State) (t : Nat) : State :=
  match s.bundleOf t with
  | none => s
  | some n =>
    let s := s.zeroTile t
    let m := tileMask [t]
    ((s.rset (R.BUNDLE_TILES_LO n) (s.rget (R.BUNDLE_TILES_LO n) &&& ~~~m.1)).rset (R.BUNDLE_TILES_HI n)
      (s.rget (R.BUNDLE_TILES_HI n) &&& ~~~m.2)).syncSeal

end Sys2Proof.Machine
end

