-- ==== Sys2Proof/Machine/Arm.lean ====
section
/-! DEFINITION. Arming: the checks of STEP_ARM in their order (03_sequencer.md R88; 05_timing.md R127; 06_pin_electronics.md
R165; 07_time_measurement.md R178; 08_acquisition.md R224; 13_security.md R329) and what a completed STEP_ARM sets. -/

namespace Sys2Proof.Machine

/-- What a failing check records: SEQ_ARMERR and the registers beside it. -/
structure ArmErr where
  reason : Nat := 0
  addr : Nat := 0
  set : Nat := 0
  lane : Nat := 0
  sub : Nat := 0

/-! ## The program (Table 3.8) -/

/-- The lowest reason among 1 to 8 that an instruction gives. -/
def State.instrReason (s : State) (t first last a : Nat) (i : SeqInstr) : Nat :=
  let o := i.opcode.toNat
  let apg := i.used.apgop.toNat
  if a = first ∧ o ≠ Op.period then 1
  else if !opDefined o || !condDefined i.used.cond.toNat || !apgDefined apg then 2
  else if i != i.used || decide (2048 ≤ i.apgop.toNat) then 3
  else if issues o ∧ i.count = 0 then 4
  else if o = Op.period ∧ !periodValid (s.periodOf t i.pidx.toNat) then 5
  else if usesTarget o ∧ (i.target.toNat < first ∨ last < i.target.toNat) then 6
  else if (o = Op.vec ∨ o = Op.rpt) ∧ slots i.cfmt ≤ i.vword.toNat then 7
  else if (apg / 64 % 4 = 1 ∧ apg / 8 % 8 ≠ 0) ∨ (apg / 64 % 4 = 2 ∧ apg % 8 ≠ 0) then 8
  else 0

/-- States that HOLD_VEC may hold (R79). -/
def holdOk (c : Nat) : Bool := [0, 1, 5, 6, 0xD, 0xF].contains c

/-- The addresses of the program, FIRST to LAST. -/
def State.progAddrs (s : State) (t : Nat) : List Nat :=
  let f := s.fget (R.SEQ_RANGE_FIRST t)
  (List.range (s.fget (R.SEQ_RANGE_LAST t) + 1 - f)).map (f + ·)

/-- Reasons 10, 11, 9, then 1 to 8 in address order (R88). -/
def State.seqErr (s : State) (t : Nat) : Option ArmErr :=
  let f := s.fget (R.SEQ_RANGE_FIRST t)
  let l := s.fget (R.SEQ_RANGE_LAST t)
  let w (n : Nat) : Bool := decide (1 ≤ n ∧ n ≤ 24)
  if l < f then some { reason := 10 }
  else if !w (s.xbits t) || !w (s.ybits t) || decide (5 < s.fget (R.APG_CFG_DFUNC t)) then some { reason := 11 }
  else if (List.range 16).any fun n => !holdOk (s.holdCode t n) then some { reason := 9 }
  else
    (s.progAddrs t).findSome? fun a =>
      match s.instrReason t f l a (s.seqAt t a) with
      | 0 => none
      | r => some { reason := r, addr := a }

/-! ## Timing sets (Table 5.5) -/

/-- The timing sets that the TSET fields of the program's instructions name, each with the lowest address naming it, by set (R127). -/
def State.setsOf (s : State) (t : Nat) : List (Nat × Nat) :=
  let l := (s.progAddrs t).map fun a => ((s.seqAt t a).tset.toNat, a)
  (List.range 64).filterMap fun n => l.find? fun e => e.1 == n

/-- The level edges that a format uses (Table 5.4). -/
def fmtEdges (fmt : Nat) : List Nat := if fmt = 0 then [0] else if fmt = 3 then [0, 1, 2] else [0, 1]

/-- The lowest reason among 12 to 14 that an entry gives: `w k` are its words. -/
def entryReason (w : Nat → Nat) : Nat :=
  let ctrl := w 6
  let lv := (fmtEdges (ctrl % 4)).map w
  let ordered := (lv.zip (lv.drop 1)).all fun p => decide (p.1 + 1000 ≤ p.2)
  let far (x : Nat) : Bool := decide (x + 1000 ≤ w 3 ∨ w 3 + 1000 ≤ x)
  if !ordered || (ctrl / 4 % 2 == 1 && !lv.all far) then 12
  else if (ctrl / 16 % 4 = 1 ∨ ctrl / 16 % 4 = 2) ∧ w 5 < w 4 + 1000 then 13
  else if ctrl / 16 % 4 = 3 ∨ ctrl / 64 ≠ 0 ∨ ctrl / 8 % 2 = 1 ∨ w 7 ≠ 0 then 14
  else 0

def State.timErr (s : State) (t : Nat) : Option ArmErr :=
  (s.setsOf t).findSome? fun e => (List.range 16).findSome? fun lane =>
    match entryReason (s.tset t e.1 lane) with
    | 0 => none
    | r => some { reason := r, addr := e.2, set := e.1, lane := lane }

/-! ## Levels (R148, Table 6.9) -/

/-- The shortest period that a PERIOD of the program names. -/
def State.minPeriod (s : State) (t : Nat) : Nat :=
  ((s.progAddrs t).filterMap fun a =>
    let i := s.seqAt t a
    if i.opcode.toNat = Op.period then some (s.periodOf t i.pidx.toNat) else none).foldl min (2 ^ 48)

/-- Tmin of a lane in units of 2^-16 ps, and the timing set that yields it (R148, R165). -/
def State.tmin (s : State) (t lane : Nat) : Int × Nat :=
  let p : Int := s.minPeriod t
  let sets := s.setsOf t
  sets.foldl (fun (m : Int × Nat) e =>
    let lv := (fmtEdges (s.tset t e.1 lane 6 % 4)).map fun k => (s.tset t e.1 lane k : Int) * edgeUnit
    let gaps := (lv.zip (lv.drop 1)).map fun x => x.2 - x.1
    let c := gaps.foldl min (p - (lv.getLastD 0 - lv.headD 0))
    if c < m.1 then (c, e.1) else m) (p, (sets.headD (0, 0)).1)

/-- The largest swing of Table 6.4 in units of 0.1 V. -/
def swingLimit (tmin : Int) : Int :=
  if tmin < 16384000 then 0 else if tmin < 20480000 then 8 else if tmin < 40960000 then 12 else if tmin < 81920000 then 30 else 70

def State.lvlVolt (s : State) (ch k : Nat) : Int := voltOf (s.fget (R.LVL_CODE ch k))

/-- The lowest SUB of Table 6.9 that a channel breaks. -/
def State.lvlSub (s : State) (ch : Nat) (tmin : Int) : Nat :=
  let v := s.lvlVolt ch
  let swing := max (v 0) (max (v 1) (v 2)) - min (v 0) (min (v 1) (v 2))
  if s.mode ch = 1 ∧ swingLimit tmin * 65536 < swing * 70 then 1
  else if v 3 < v 4 then 2
  else if s.mode ch = 2 ∧ s.fget (R.PMU_CFG_FORCE ch) = 2 ∧ v 8 ≤ v 9 then 3
  else 0

def State.lvlErr (s : State) (t : Nat) : Option ArmErr :=
  (chansOf t).findSome? fun ch =>
    if s.mode ch = 0 then none
    else
      let m := s.tmin t (ch % 16)
      match s.lvlSub ch m.1 with
      | 0 => none
      | 1 => some { reason := 15, sub := 1, lane := ch % 16, set := m.2
                    addr := ((s.setsOf t).find? fun e => e.1 == m.2).elim 0 (·.2) }
      | k => some { reason := 15, sub := k, lane := ch % 16 }

/-! ## Time measurement (R178) and acquisition (R224) -/

def State.tdcErr (s : State) (t : Nat) : Option ArmErr :=
  (chansOf t).findSome? fun ch =>
    let start := t * 16 + s.fget (R.TDC_CFG_SLANE ch)
    if s.flag (R.TDC_CFG_EN ch) && s.fget (R.TDC_CFG_START ch) == 2 &&
        (decide ((s.rget (R.TDC_WOPEN ch)).toInt < 0) || !s.flag (R.TDC_CFG_EN start) || s.mode start == 0) then
      some { reason := 16, addr := ch % 16 }
    else none

/-- The lowest SUB of R224 that a tile breaks; `tiles` are the tiles armed together, and a tile that is ARMED counts for SUB 5 too. -/
def State.acqSub (s : State) (tiles : List Nat) (t : Nat) : Nat :=
  let blind (lane : Nat) : Bool := !s.flag (R.PMU_CFG_MEN (t * 16 + lane))
  let bad (lane : Nat) : Bool := blind lane || s.mode (t * 16 + lane) == 0
  let len := s.fget (R.MASK_CFG_LEN t)
  let fc (u : Nat) : Word × Nat × Nat := (s.rget (R.FC_THR u), s.fget (R.FC_RMASK_MASK u), s.fget (R.FC_CMASK_MASK u))
  if s.flag (R.CAP_CFG_MODE t) ∧ s.ringN t < s.fget (R.CAP_PRE_PRE t) + s.fget (R.CAP_POST_POST t) + 4 then 1
  else if s.flag (R.MASK_CFG_EN t) ∧ (len = 0 ∨ 4096 < len) then 2
  else if (s.fget (R.TRIG_CFG_SRC t) = 6 ∧ bad (s.fget (R.TRIG_CFG_ARG t) % 16)) ∨
      (s.flag (R.MASK_CFG_EN t) ∧ bad (s.fget (R.MASK_CFG_LANE t))) then 3
  else if (List.range 16).any fun n => (s.fget (R.WAVE_LANES_LANES t)).testBit n && blind n then 4
  else if s.flag (R.FC_CFG_EN t) && (tiles ++ s.tilesIn (· == stArmed)).any (fun u => s.flag (R.FC_CFG_EN u) && fc u != fc t) then 5
  else if 6 < s.fget (R.TRIG_CFG_SRC t) ∨ s.fget (R.TRIG_CFG_DIR t) = 3 then 6
  else 0

def State.acqErr (s : State) (tiles : List Nat) (t : Nat) : Option ArmErr :=
  match s.acqSub tiles t with
  | 0 => none
  | n => some { reason := 17, sub := n }

/-- The segments that an instruction names statically: its own, and those that its slots run into. -/
def staticSegs (i : SeqInstr) : List Nat :=
  if i.strm then []
  else if i.opcode.toNat = Op.rpt then [i.vseg.toNat]
  else if i.opcode.toNat = Op.vec then
    (List.range (min 15 ((i.vword.toNat + i.count.toNat - 1) / slots i.cfmt) + 1)).map fun k => (i.vseg.toNat + k) % 16
  else []

/-- A sealed tile whose program names an unsealed segment statically (R329); it has no reason code. -/
def State.sealErr (s : State) (t : Nat) : Option ArmErr :=
  if (s.bundleOf t).isSome && (s.progAddrs t).any fun a => (staticSegs (s.seqAt t a)).any fun g => !s.segSealed t g then some {}
  else none

/-- The first violation among the tiles of an arming, with its tile: each table is checked on every named tile once the one before it has
passed (R88, R127, R165, R178, R224). -/
def State.armErr (s : State) (tiles : List Nat) : Option (Nat × ArmErr) :=
  [s.seqErr, s.timErr, s.lvlErr, s.tdcErr, s.acqErr tiles, s.sealErr].findSome? fun (check : Nat → Option ArmErr) =>
    tiles.findSome? fun t => (check t).map fun e => (t, e)

/-- A failing check is recorded in the tile's registers. -/
def State.recordErr (s : State) (t : Nat) (e : ArmErr) : State :=
  if e.reason = 0 then s
  else
    let s := s.rset (R.SEQ_ARMERR t) (BitVec.ofNat 32 (65536 * e.reason + e.addr))
    if 12 ≤ e.reason ∧ e.reason ≤ 14 then s.rset (R.TIM_ARMERR t) (BitVec.ofNat 32 (256 * e.set + e.lane))
    else if e.reason = 15 then s.rset (R.LVL_ARMERR t) (BitVec.ofNat 32 (65536 * e.set + 4096 * e.sub + e.lane))
    else if e.reason = 17 then s.rset (R.ACQ_ARMERR t) (BitVec.ofNat 32 e.sub)
    else s

/-! ## The end of arming -/

/-- A STEP_ARM whose checks have passed: its levels settle (stage 1), or its forced resets run (stage 2). -/
def Split.arming (x : Split) : Bool := x.opcode == 0x30 && x.stage != 0

/-- The tiles of the STEP_ARM operations whose checks have passed and that have not completed (R234). -/
def State.armingTiles (s : State) : List Nat :=
  (s.splits.filter Split.arming).flatMap fun (x : Split) => tilesOf (x.params.getD 0 0) (x.params.getD 1 0)

/-- R182: profile memory under PROF_CTL.ACC and the epoch. DESIGN CHOICE: an arming that clears nothing leaves EPOCHCLR as it is (log entry
76). -/
def State.armProfile (s : State) (t : Nat) : State :=
  let keep := s.flag (R.PROF_CTL_ACC t) && s.rget (R.PROF_EPOCH t) == s.rget (R.TILE_CAL_EPOCH t)
  let s := if keep then s
    else
      let clr := s.flag (R.PROF_CTL_ACC t)
      (s.clearProfile t).setFlag (R.PROF_STATUS_EPOCHCLR t) clr
  s.rset (R.PROF_EPOCH t) (s.rget (R.TILE_CAL_EPOCH t))

/-- The registers that STEP_ARM completing OK clears or loads in a tile's own blocks (R80, R82, R88, R100, R134, R168, R225); with a ring
segment its sealed mark clears too (log entry 58). -/
def State.armRegs (s : State) (t : Nat) : State :=
  let s := [R.SEQ_ARMERR t, R.ACQ_ARMERR t, R.CYCLES_LO t, R.CYCLES_HI t, R.FILL_COUNT t, R.FILL_SUM_LO t, R.FILL_SUM_HI t,
    R.FILL_MAX_LO t, R.FILL_MAX_HI t, R.STALL_COUNT t, R.STALL_SUM_LO t, R.STALL_SUM_HI t, R.STALL_MAX t, R.STRM_UNDEL t,
    R.TIM_DROP_COUNT t, R.TIM_DROP_INFO t, R.TIM_DROP_CYC_LO t, R.TIM_DROP_CYC_HI t, R.TIM_DROP_MASK t, R.COND_FLAGS t,
    R.TILE_CAL_FLAGS t].foldl (fun s a => s.rset a 0) s
  let s := (List.range 8).foldl (fun s k => (s.rset (R.STACK t k) 0).rset (R.LINKEV_FLAG t k) 0) s
  let s := (s.rset (R.LFSR t) (s.rget (R.DBASE t))).fset (R.SEQ_STATUS_SP t) 0
  let s := (s.fset (R.APG_X_VALUE t) (s.fget (R.APG_X_VALUE t) % 2 ^ s.xbits t)).fset (R.APG_Y_VALUE t)
    (s.fget (R.APG_Y_VALUE t) % 2 ^ s.ybits t)
  let s := ((List.range 16).filter (s.inRing t)).foldl (fun s i =>
    { ((s.segEmpty t i).setFlag (sealFld t i) false) with segSeal := Store.put (fun _ => {}) s.segSeal (t * 16 + i) {} }) s
  let s := (s.fset (R.STRM_STATUS_CUR t) (s.ringFirst t)).fset (R.STRM_STATUS_FILL t) (s.ringFirst t)
  (s.fset (R.STRM_STATUS_AHEAD t) 0).setFlag (R.STRM_STATUS_BROKEN t) false

/-- A channel of a tile that arms: driver off and load off in FUNC (R138), nothing carried, UNKNOWN counts cleared (R168). -/
def State.armChan (s : State) (ch : Nat) : State :=
  let s := if s.mode ch = 1 then s.modChan ch fun c => { c with enable := .offLoadOff } else s
  let s := s.modChan ch fun c =>
    { c with carried := [], strobes := [], wins := [], lastStop := none, chkBad := false, prior := none }
  ((s.rset (R.CMP_UNK_COUNT ch) 0).rset (R.CMP_UNK_CYC_LO ch) 0).rset (R.CMP_UNK_CYC_HI ch) 0

/-- A channel that takes part in a step with an applied NOTRACE item (R229). -/
def State.noTrace (s : State) (t : Nat) : Bool :=
  (chansOf t).any fun ch => s.mode ch != 0 && s.flag (R.CH_CAL_STAT_NOTRACE ch)

/-- A tile enters ARMED in group `g` (R88, R100, R182, R193, R217, R225, R234, R332). -/
def State.armTile (s : State) (t g : Nat) (by_ : BitVec 5) : State :=
  let policy : Word := match s.bundleOf t with
    | some n => s.rget (R.BUNDLE_POLICY n)
    | none => s.rget R.POLICY_DEFAULT &&& 0xF
  let s := (chansOf t).foldl (fun s ch => s.armChan ch) ((s.armRegs t).clearRing t)
  let s := if s.flag (R.FC_CFG_ACC t) then s else s.clearFc t
  let s := s.armProfile t
  let apg : Apg := { x := BitVec.ofNat 24 (s.fget (R.APG_X_VALUE t)), y := BitVec.ofNat 24 (s.fget (R.APG_Y_VALUE t))
                     lfsr := s.rget (R.LFSR t), dinv := s.flag (R.DCTL_DINV t) }
  let s := s.modTile t fun c =>
    { ex := apg, group := g, policy := policy, armedBy := some by_, fc := c.fc, cap := { due := c.cap.due }
      conds := c.conds.filter fun e => e.1.external && decide (s.tileTime t s.now < e.2)
      tc := c.tc, pwr := c.pwr, calv := c.calv, deskew := c.deskew, away := c.away, reached := c.reached
      epoch := some (s.rget (R.TILE_CAL_EPOCH t)) }
  let s := s.fset (R.SEQ_STATUS_STATE t) stArmed
  let s := (chansOf t).foldl (fun s ch => s.syncStale ch) s
  let s := if s.noTrace t then s.suspectFlag t Sf.noTrace else s
  let s := if s.suspectAt s.now then s.suspectFlag t Sf.suspect else s
  let own := (chansOf t).filterMap fun ch => if s.flag (R.CH_SEQ_SHARED ch) then none else some (s.fget (R.CH_SEQ_SITE ch))
  { s with steps := s.steps.filter fun (r : StepRec) => !r.tiles.contains t
           armedSites := s.armedSites ++ (own.eraseDups.filter fun n => !s.armedSites.contains n) }

/-- The named tiles enter ARMED together, as one group. -/
def State.armTiles (s : State) (l : List Nat) (by_ : BitVec 5) : State :=
  let g := s.groups + 1
  l.foldl (fun s t => s.armTile t g by_) { s with groups := g }

/-- Whether a channel needs the forced reset of arming (R154). -/
def State.armReset (s : State) (ch : Nat) : Bool :=
  s.mode ch != 0 && s.flag (R.CH_MODE_ARM_RST ch) &&
    !(s.flag (R.CH_STATUS_KNOWN_HI ch) && s.flag (R.CH_STATUS_KNOWN_LO ch))

/-- Whether the levels, gates and power states of the tiles of an arming have settled (R144, R399); a power-state request that comes later
waits. -/
def State.armSettled (s : State) (l : List Nat) : Bool :=
  l.all fun t => s.power t == 0 && !(s.tile t).pwr.any (·.started) && (chansOf t).all fun ch => !s.flag (R.CH_STATUS_LVL_BUSY ch)

/-- The tiles that a STEP_ARM names. -/
def Split.tiles (x : Split) : List Nat := tilesOf (x.params.getD 0 0) (x.params.getD 1 0)

/-- The forced resets of a STEP_ARM whose levels and power states have settled begin (R144, R154). -/
def State.armForce (s : State) : State :=
  let due (x : Split) : Bool := x.opcode == 0x30 && x.stage == 1 && s.armSettled x.tiles
  ((((s.splits.filter due).flatMap Split.tiles).flatMap chansOf).filter s.armReset).foldl (fun s ch => s.forceReset ch)
    { s with splits := s.splits.map fun (x : Split) => if due x then { x with stage := 2 } else x }

end Sys2Proof.Machine
end

