-- ==== Sys2Proof/Machine/Boundary.lean ====
section
/-! DEFINITION. Fencing (15_safety_faults.md R377 to R380), calving decisions (16_self_repair.md R388, R389), power-state
requests (17_power_thermal.md R400 to R402), and the actions of a step boundary in their order (01_architecture.md R29). -/

namespace Sys2Proof.Machine

/-! ## Applying fences (R377) -/

/-- What every fence records: FENCE_LAST, the repair generation, the FENCED event and its moraine record (R376, R391). A fence
with cause 2 of a core or a channel waits to be logged (R395). -/
def State.fenceNote (s : State) (kind unit cause : Nat) : State :=
  let s := s.rset R.FENCE_LAST (BitVec.ofNat 32 (65536 * (unit % 1024) + 16 * cause + kind))
  let s := s.count R.SR_GEN_COUNT
  let s := s.chipEvent 0x102 [BitVec.ofNat 32 kind, BitVec.ofNat 32 unit, BitVec.ofNat 32 cause]
  let s := s.stage 0x41 [BitVec.ofNat 8 kind, 0, BitVec.ofNat 8 unit, BitVec.ofNat 8 (unit / 256), BitVec.ofNat 8 cause]
    (cause != 5) (cause == 5)
  let s := { s with injFence := s.injFence.filter (· != (kind, unit)) ++ if cause = 5 then [(kind, unit)] else [] }
  if cause = 2 ∧ (kind = 0 ∨ kind = 4) then { s with logDue := s.logDue ++ [(kind, unit)] } else s

def State.fenceChan (s : State) (ch cause : Nat) : State :=
  (((s.setFlag (R.CH_STATUS_FENCED ch) true).setFlag (bitFld (R.FENCE_CH 0) ch) true).chSafe ch).fenceNote 0 ch cause

def State.fenceCore (s : State) (c cause : Nat) : State :=
  let s := (s.setFlag (coreFenceFld c) true).setSpare c false
  (s.fset (R.CORE_TILE_TILE c) 0x7F).fenceNote 4 c cause

def State.fenceSnt (s : State) (n cause : Nat) : State :=
  let s := (s.setFlag (bitFld (R.SNT_FENCED 0) n) true).setFlag (bitFld (R.FENCE_SNT 0) n) true
  (s.dseDrop (s.sntMap n)).fenceNote 3 n cause

def State.fenceBank (s : State) (n cause : Nat) : State := (s.setFlag (bitFld R.FIRN_RETIRED n) true).fenceNote 5 n cause

/-- A pending calving is dropped: PENDING clears and the target is spare again; the CALVEs that wait for it end with `st`. -/
def State.dropCalving (s : State) (t : Nat) (st : BitVec 8) : State :=
  match (s.tile t).calv with
  | none => s
  | some c =>
    let s := s.setSpare (s.fget (R.TILE_MAP_TARGET t)) true
    let s := (s.setFlag (R.TILE_MAP_PENDING t) false).fset (R.TILE_MAP_TARGET t) 0
    let s := s.modTile t fun x => { x with calv := none }
    c.ops.foldl (fun s o => match s.splitOf o with
      | some x => s.complete x st
      | none => s) s

/-- A tile is fenced; a pending calving of it is dropped (R378). -/
def State.fenceTile (s : State) (t cause : Nat) : State :=
  let s := s.dropCalving t St.fenced
  let s := ((s.setFlag (R.TILE_MAP_FENCED t) true).setFlag (bitFld (R.FENCE_TILE 0) t) true).unsealTile t
  ((chansOf t).foldl (fun s ch => s.chSafe ch) s).fenceNote 1 t cause

def State.unitFenced (s : State) (kind unit : Nat) : Bool :=
  match kind with
  | 0 => s.chanFenced unit
  | 1 => s.tileFenced unit
  | _ => s.sntFenced unit

/-- The FENCE commands of a unit complete OK (R378). -/
def State.fenceDone (s : State) (kind unit : Nat) : State :=
  (s.fenceReq.filter fun (f : FenceReq) => f.kind == kind && f.unit == unit).foldl (fun s f =>
    match f.op with
    | some o => match s.splitOf o with
      | some x => s.complete x St.ok
      | none => s
    | none => s) { s with fenceReq := s.fenceReq.filter fun (f : FenceReq) => !(f.kind == kind && f.unit == unit) }

/-- A requested fence is applied; a unit already fenced is not changed. With a tile that no serac can serve its core is fenced too,
with cause 2, or 5 where an injected fault caused it (16_self_repair.md R389, R394). -/
def State.fenceApply (s : State) (kind unit cause : Nat) : State :=
  let s := if s.unitFenced kind unit then s
    else match kind with
      | 0 => s.fenceChan unit cause
      | 1 =>
        let s := s.fenceTile unit cause
        if cause = 1 then s else s.fenceCore (s.coreOf unit) (if cause = 5 then 5 else 2)
      | _ => s.fenceSnt unit cause
  s.fenceDone kind unit

/-! ## Unfencing (R380, R395) -/

/-- The log entry of a unit is marked REVOKED. -/
def State.revoke (s : State) (kind unit : Nat) : State :=
  let k := if kind = 4 then 1 else 0
  (List.range 64).foldl (fun s n =>
    if s.flag (R.SR_OTP_W0_VALID n) && s.fget (R.SR_OTP_W0_KIND n) == k && s.fget (R.SR_OTP_W0_UNIT n) == unit then
      s.setFlag (R.SR_OTP_W0_REVOKED n) true else s) { s with logDue := s.logDue.filter (· != (kind, unit)) }

def State.unfence (s : State) (kind unit : Nat) : State :=
  let s := { s with unfenceReq := s.unfenceReq.filter (· != (kind, unit)), injFence := s.injFence.filter (· != (kind, unit)) }
  let s := match kind with
    | 0 => ((s.setFlag (R.CH_STATUS_FENCED unit) false).setFlag (bitFld (R.FENCE_CH 0) unit) false).revoke 0 unit
    | 1 =>
      let c := s.coreOf unit
      let s := (s.setFlag (R.TILE_MAP_FENCED unit) false).setFlag (bitFld (R.FENCE_TILE 0) unit) false
      if s.flag (coreFenceFld c) then ((s.setFlag (coreFenceFld c) false).fset (R.CORE_TILE_TILE c) unit).revoke 4 c else s
    | _ => ((s.setFlag (bitFld (R.SNT_FENCED 0) unit) false).setFlag (bitFld (R.FENCE_SNT 0) unit) false).syncDse
  s.chipEvent 0x103 [BitVec.ofNat 32 kind, BitVec.ofNat 32 unit]

/-! ## Calving (R388, R389) -/

/-- The core reserved for a calving: the one named, or the lowest-numbered spare core. -/
def State.pickSpare (s : State) (named : Option Nat) : Option Nat :=
  match named with
  | some c => if s.isSpare c then some c else none
  | none => (List.range 68).find? s.isSpare

/-- A calving of a tile is decided, or joins the one pending; with no spare core left the tile and its core are fenced at
the step boundary. -/
def State.decideCalving (s : State) (t : Nat) (op : Option Nat) (named : Option Nat) (permanent inj : Bool) : State :=
  match (s.tile t).calv with
  | some c =>
    let c : Calving := { c with ops := c.ops ++ op.toList, permanent := c.permanent || permanent, inj := c.inj || inj
                                host := c.host || op.isSome }
    s.modTile t fun x => { x with calv := some c }
  | none =>
    match s.pickSpare named with
    | some c =>
      let s := s.setSpare c false
      let s := (s.fset (R.TILE_MAP_TARGET t) c).setFlag (R.TILE_MAP_PENDING t) true
      s.modTile t fun x => { x with calv := some { ops := op.toList, permanent := permanent, inj := inj, host := op.isSome } }
    | none => { s with fenceReq := s.fenceReq ++ [{ kind := 1, unit := t, cause := if inj then 5 else 3 }] }

/-! ## Power-state requests (R400 to R402) -/

/-- A tile's request of a POWER_STATE ends: `how` 0 reached, 1 superseded, 2 failed. The command completes with its last tile:
HW_FAULT if one failed, ABORTED if one was superseded, OK otherwise. -/
def State.pwrResolve (s : State) (o t how : Nat) : State :=
  match s.splitOf o with
  | none => s
  | some x =>
    let x := { x with aux := x.aux.filter (· != t), stage := max x.stage how }
    if x.aux.isEmpty then
      s.complete x (if x.stage = 2 then St.hwFault else if x.stage = 1 then St.aborted else St.ok)
    else s.setSplit x

/-- TILE_PWR.TARGET and BUSY follow the requests of a tile. -/
def State.syncPwr (s : State) (t : Nat) : State :=
  let l := (s.tile t).pwr
  (s.fset (R.TILE_PWR_TARGET t) ((l.getLast?.map (·.target)).getD (s.power t))).setFlag (R.TILE_PWR_BUSY t)
    (l.any (·.started))

/-- The wake times of Table 17.1 in system-time units. -/
def wakeTime (st : Nat) : Nat := match st with | 1 => 64000 | 2 => 7680000 | 3 => 384000000 | _ => 0

/-- A scheduled thaw of a tile is set or cancelled (R401, R402). -/
def State.setThaw (s : State) (t : Nat) (p : Option (Nat × BitVec 5)) : State :=
  let s := s.modTile t fun c => { c with thaw := p.map (·.2) }
  (s.setFlag (R.TILE_PWR_SCHED t) p.isSome).setPair (R.TILE_THAW_LO t) (R.TILE_THAW_HI t) ((p.map (·.1)).getD 0)

/-- A thaw to ACTIVE begins at once, for arming or at a scheduled time. -/
def State.beginThaw (s : State) (t : Nat) : State :=
  ((s.reachTile t).modTile t fun c => { c with pwr := [{ target := 0, started := true }] }).syncPwr t

/-- A tile has reached the state of its oldest request; a thaw whose instant has passed begins at once (R401). -/
def State.pwrReached (s : State) (t : Nat) (r : PwrReq) : State :=
  let rest := (s.tile t).pwr.drop 1
  let s := (s.modTile t fun c => { c with pwr := rest }).syncPwr t
  let s := match r.sched, rest with
    | some at_, [] =>
      if at_ ≤ s.sysTime.toNat + wakeTime (s.power t) then (s.modTile t fun c => { c with thaw := some r.session }).beginThaw t
      else s.setThaw t (some (at_, r.session))
    | _, _ => s
  match r.op with
  | some o => s.pwrResolve o t 0
  | none => s

/-- Item 4 of R29: requests whose state is already reached end, and the first other one begins. -/
def State.pwrBegin (s : State) (t : Nat) : Nat → State
  | 0 => s
  | fuel + 1 =>
    match (s.tile t).pwr with
    | [] => s
    | r :: l =>
      if r.started then s
      else if r.target = s.power t then (s.pwrReached t r).pwrBegin t fuel
      else
        let s := match r.op.bind s.splitOf with
          | some x => s.setSplit { x with begun := true }
          | none => s
        ((s.reachTile t).modTile t fun c => { c with pwr := { r with started := true } :: l }).syncPwr t

/-! ## Arming behind the other actions (R20, R29, R145, R234) -/

/-- Whether a boundary action of a tile is running: a retest, a migration, the deskew measurement after it, or a transition. -/
def State.acting (s : State) (t : Nat) : Bool :=
  let c := s.tile t
  (chansOf t).any (fun ch => (s.chan ch).retest == 2) || s.flag (R.CORE_HEALTH_RETEST (s.coreOf t)) ||
    (c.calv.map (·.moving)).getD false || c.deskew || c.pwr.any (·.started)

/-- Whether items 1 to 4 of R29 are complete for a tile. -/
def State.clean (s : State) (t : Nat) : Bool :=
  let c := s.tile t
  s.idle t && !s.acting t && c.calv.isNone && c.pwr.isEmpty &&
    !(chansOf t).any fun ch => (s.chan ch).retest != 0

/-- The tiles of running CAL_RUN and SELFTEST operations, whose arming completes with BUSY (R239, R465). -/
def State.underTest (s : State) : List Nat :=
  s.splits.flatMap fun (x : Split) =>
    if (x.opcode = 0x50 ∧ x.params.getD 0 0 ≠ 0x20) ∨ x.opcode = 0x70 then tilesOf (x.params.getD 1 0) (x.params.getD 2 0) else []

/-- The refusals of STEP_ARM that do not depend on the program (R20, R145, R234, R239, R392, R465), with the tile at fault. DESIGN CHOICE:
BAD_PARAM of R20 comes before BUSY of R145 and the others (log entry 63). -/
def State.armRefused (s : State) (l : List Nat) : Option (BitVec 8 × Nat) :=
  match l.find? fun t => !s.idle t || s.tileFenced t || s.power t == 3 with
  | some t => some (St.badParam, t)
  | none =>
    if s.lvlClr then some (St.busy, 0)
    else (l.find? fun t => (s.tile t).calv.isSome || (s.tile t).deskew || s.underTest.contains t).map fun t => (St.busy, t)

/-- The checks of an arming begin: the tiles apply the newest state, then the first violation decides (R20, R234). -/
def State.armChecks (s : State) (l : List Nat) : State × Option Nat :=
  let s := l.foldl (fun s t => (s.reachTile t).calApply t) s
  match s.armErr l with
  | some (t, e) => (s.recordErr t e, some t)
  | none =>
    (l.foldl (fun s t =>
      let s := if s.flag (R.TILE_PWR_SCHED t) then s.setThaw t none else s
      if s.power t = 0 then s else s.beginThaw t) s, none)

/-- The STEP_ARM operations that wait for a tile (stage 0). -/
def State.waitingArm (s : State) (t : Nat) : Option Split :=
  s.splits.find? fun (x : Split) => x.opcode == 0x30 && x.stage == 0 && (tilesOf (x.params.getD 0 0) (x.params.getD 1 0)).contains t

/-- A STEP_ARM that ends before its tiles arm: they apply the newest state committed at that instant (R234). -/
def State.armRelease (s : State) (l : List Nat) : State :=
  l.foldl (fun s t =>
    if s.idle t && decide (s.power t < 2) && !s.armingTiles.contains t && (s.waitingArm t).isNone then s.calApply t else s) s

/-- A STEP_ARM that waits for a tile whose calving is decided, or whose measurement after one is due, waits no longer (item 5 of R29). -/
def State.armBusy (s : State) (t : Nat) : State :=
  if (s.tile t).calv.isSome || (s.tile t).deskew then
    match s.waitingArm t with
    | some x => (s.complete x St.busy [BitVec.ofNat 32 t]).armRelease (tilesOf (x.params.getD 0 0) (x.params.getD 1 0))
    | none => s
  else s

/-- A waiting STEP_ARM whose tiles have all completed items 1 to 4 begins (item 5 of R29). -/
def State.armResume (s : State) (t : Nat) : State :=
  match s.waitingArm t with
  | none => s
  | some x =>
    let l := tilesOf (x.params.getD 0 0) (x.params.getD 1 0)
    match s.armRefused l with
    | some (st, u) => (s.complete x st [BitVec.ofNat 32 u]).armRelease l
    | none =>
      if l.all s.clean then
        match s.armChecks l with
        | (s, some u) => s.complete x St.badParam [BitVec.ofNat 32 u]
        | (s, none) => (s.setSplit { x with stage := 1 }).armForce
      else s

/-! ## The step boundary (R29) -/

/-- Whether CH_FAULT of a channel that is not fenced shows OVER_I, OVER_V, CHK_FAIL or XCHK (R379). -/
def State.retestShown (s : State) (ch : Nat) : Bool := (s.rget (R.CH_FAULT ch) &&& 0x17) != 0 && !s.chanFenced ch

/-- Soft repairs of a tile core's stores are written to OTP field entries while there are any (14_memories.md R358, R359). -/
def State.persistRepairs (s : State) (p : Option Nat → Bool) : State :=
  let go := s.soft.filter fun (e : SoftRepair) => p e.core && !e.injected
  let used := s.fget R.REP_OTP_FIELD
  let n := min go.length (256 - used)
  if n = 0 then s
  else
    let s := { s with
      soft := (go.take n).foldl (fun l e => l.erase e) s.soft
      repairs := s.repairs ++ (go.take n).map fun (e : SoftRepair) => e.rep }
    let s := (s.fset R.REP_OTP_FIELD (used + n)).fset R.REP_STATUS_PEND s.soft.length
    if used + n = 256 then
      let reset := !s.faultSet 0xA0000 2 false && s.nibble 0xA0000 2 % 8 == 3
      let s := (s.setFlag R.REP_STATUS_OTPFULL true).faultRaise 0xA0000 2
      if reset then s.fset R.BT_STATUS_REGION 0 else s
    else s

/-- A retest of a channel begins: it uses the die side of the open gate, so the channel is in the pin safe state from now on (R379). -/
def State.retestBegin (s : State) (ch : Nat) : State := (s.chSafe ch).modChan ch fun c => { c with retest := 2 }

/-- Item 1: requested fences, then the retests that are due (R378, R379, R385). -/
def State.boundaryFence (s : State) (t : Nat) : State :=
  if s.acting t then s
  else
    let mine (f : FenceReq) : Bool := (f.kind == 0 && f.unit / 16 == t) || (f.kind == 1 && f.unit == t)
    let s := (s.fenceReq.filter mine).foldl (fun s f => s.fenceApply f.kind f.unit f.cause) s
    let s := (chansOf t).foldl (fun s ch =>
      let asked := s.unfenceReq.contains (0, ch)
      if asked then s.retestBegin ch
      else if (s.chan ch).retest = 1 then if s.retestShown ch then s.retestBegin ch else s.modChan ch fun c => { c with retest := 0 }
      else s) s
    let core := s.coreOf t
    if s.coreDue.any (fun e => e.1 == core) || s.unfenceReq.contains (1, t) then s.setFlag (R.CORE_HEALTH_RETEST core) true else s

/-- The actions of a tile's step boundary that can be taken now; each waits for the one before it, and a power-state change for an arming
that has begun (R29). -/
def State.boundary (s : State) (t : Nat) : State :=
  let mine (c : Option Nat) : Bool := c == some (s.coreOf t)
  if s.stepState t = stEnded then (s.persistRepairs mine).boundaryFence t
  else if s.idle t then
    let s := ((s.armBusy t).persistRepairs mine).boundaryFence t
    if s.acting t || (s.tile t).calv.isSome then s
    else
      let s := if s.armingTiles.contains t || (s.waitingArm t).isSome || decide (2 ≤ s.power t) then s else s.calApply t
      let s := if s.armingTiles.contains t then s else s.pwrBegin t (s.tile t).pwr.length
      if s.acting t then s else (s.armResume t).armForce
  else s

end Sys2Proof.Machine
end

