-- ==== Sys2Proof/Machine/StepEnd.lean ====
section
/-! DEFINITION. The end of a step: the end of a tile's step (01_architecture.md R24, R25, R259), the merge of site results (R26;
13_security.md R335 to R337), the completion of STEP_START (10_uhleus_protocol.md R267), and the way back to IDLE. -/

namespace Sys2Proof.Machine

/-! ## Sites -/

/-- The sites for which a channel of a tile counts. -/
def State.tileSites (s : State) (t : Nat) : BitVec 256 := (chansOf t).foldl (fun m ch => m ||| s.sitesOf ch) 0

/-- Whether a condition of R335 applies to a tile's step: SUSPECT, TIME, TAMPER, INJECTED, or WARMUP, CALSTALE or NOTRACE that
its policy does not allow. -/
def TileCtx.forced (c : TileCtx) : Bool :=
  let f (n : Nat) : Bool := c.flags.getLsbD n
  f Sf.suspect || f Sf.time || f Sf.tamper || f Sf.injected || (f Sf.warmup && !c.policy.getLsbD 1) ||
    (f Sf.calStale && !c.policy.getLsbD 2) || (f Sf.noTrace && !c.policy.getLsbD 3)

/-- The value of a limit entry's source for a site: none where it reads NONE, SAT, CORRUPT or VALID = 0 (R336). -/
def State.limitValue (s : State) (l : Limit) (site : Nat) : Option Int :=
  let margin (a : Nat) : Option Int :=
    if s.flag (R.SITE_MFLAGS_NONE site) || s.flag (R.SITE_MFLAGS_SAT site) then none else some (s.rget a).toInt
  let rep (a : Nat) : Option Int := if s.flag (R.REP_FLAGS_CORRUPT site) then none else some (s.rget a).toNat
  match l.src with
  | 0 => margin (R.SITE_SETUP site)
  | 1 => margin (R.SITE_HOLD site)
  | 2 => margin (R.SITE_EARLY site)
  | 3 => margin (R.SITE_LATE site)
  | 4 => (margin (R.SITE_INWIN site)).map fun _ => ((s.rget (R.SITE_INWIN site)).toNat : Int)
  | 5 => rep (R.REP_MROWS site)
  | 6 => rep (R.REP_MCOLS site)
  | 7 => rep (R.REP_LIST site)
  | 8 => if s.flag (R.PMU_MEAS_VALID l.ch) then some (signed 18 (s.fget (R.PMU_MEAS_CODE l.ch))) else none
  | _ => none

/-- The first limit entry that decides a site, from entry `n` on: the bin, and whether LIMIT sets (R336, R337). -/
def State.limitBin (s : State) (site : Nat) : Nat → List Limit → Nat × Bool
  | _, [] => (0, false)
  | n, l :: r =>
    if l.site = 0xFF ∨ l.site = site then
      match s.limitValue l site with
      | none => (2, true)
      | some v => if v < l.lo ∨ l.hi < v then (0x10 + n, false) else s.limitBin site (n + 1) r
    else s.limitBin site (n + 1) r

/-- The bin of a site over the tiles of a step (R26, R335 to R337), and whether LIMIT sets; `gone` are the sites of tiles that were
aborted before they ran. -/
def State.siteBin (s : State) (tiles : List Nat) (gone : BitVec 256) (limits : List Limit) (site : Nat) : Nat × Bool :=
  if tiles.any fun t => (s.tile t).siteFail.getLsbD site then (1, false)
  else if gone.getLsbD site then (2, false)
  else if tiles.any fun t => (s.tile t).siteInd.getLsbD site then (2, false)
  else if tiles.any fun t => (s.tile t).forced then (2, false)
  else s.limitBin site 0 limits

/-! ## The merge -/

/-- The tiles of a group that have not returned to IDLE. -/
def State.members (s : State) (g : Nat) : List Nat := (List.range 64).filter fun t => (s.tile t).group == g && !s.idle t

/-- The STEP_START of a group, if one was accepted. -/
def State.startOf (s : State) (g : Nat) : Option Split :=
  s.splits.find? fun (x : Split) => x.opcode == 0x31 && x.aux == [g]

/-- The status of the completion event (R267). -/
def State.stepStatus (s : State) (tiles : List Nat) (aborted : Bool) : BitVec 8 :=
  let has (st : BitVec 8) : Bool := tiles.any fun t => (s.tile t).endStatus == st
  if has St.hwFault then St.hwFault
  else if aborted || has St.aborted then St.aborted
  else if has St.starved then St.starved
  else St.ok

/-- The tiles of a finished step return to IDLE, and their step boundaries go on (Table 1.3). -/
def State.toIdle (s : State) (tiles : List Nat) : State :=
  let s := tiles.foldl (fun s t =>
    let s := (s.fset (R.SEQ_STATUS_STATE t) stIdle).modTile t fun c => { c with group := 0, cycs := [] }
    (chansOf t).foldl (fun s ch => s.modChan ch fun c => { c with strobes := [], wins := [] }) s) s
  tiles.foldl (fun s t => s.boundary t) s

/-- A merged step reports its end, with the attestation as payload if there is one: its tiles become IDLE once the completion event of
its STEP_START has been sent, or at once if none was accepted (Table 1.3). -/
def State.finishStep (s : State) (m : Merge) (payload : List Byte) : State :=
  let s := { s with merges := s.merges.filter fun (y : Merge) => y.group != m.group }
  match s.startOf m.group with
  | some x => s.complete x m.status m.params payload (.idle m.group)
  | none => s.toIdle m.record.tiles

/-- Two free words as the system time of an instant that the spec leaves open (log entry 4). -/
def State.freeTime (s : State) : Int × State :=
  let (lo, s) := s.free
  let (hi, s) := s.free
  (((lo.toNat + 2 ^ 32 * hi.toNat : Nat) : Int) * unitFs, s)

/-- An instant, or free values in its place (log entry 4). -/
def State.timeOr (s : State) (open_ : Bool) (i : Int) : Int × State := if open_ then s.freeTime else (i, s)

/-- The instants of a step's first cycle and of the end of its last issued one; free values where the tiles have none (R267, R338). -/
def State.stepTimes (s : State) (tiles : List Nat) : Int × Int × State :=
  let began := tiles.filter fun t => (s.tile t).startAt != 0
  let ran := tiles.filter fun t => s.cycles t != 0
  let first := began.foldl (fun (m : Int) t => if m = 0 then (s.tile t).startAt else min m (s.tile t).startAt) 0
  let last := ran.foldl (fun (m : Int) t => max m (s.tile t).lastE) 0
  let (first, s) := s.timeOr began.isEmpty first
  let (last, s) := s.timeOr ran.isEmpty last
  (first, last, s)

/-- The sites of a step: those of its tiles, and those of tiles that were aborted before they ran. -/
def State.stepSites (s : State) (tiles : List Nat) (gone : BitVec 256) : List Nat :=
  sitesList (tiles.foldl (fun m t => m ||| s.tileSites t) gone)

/-- The results of a step whose repair and margin data have been merged (R26, R267, R335 to R337). -/
def State.mergeOf (s : State) (g : Nat) (tiles : List Nat) (gone : BitVec 256) (aborted : Bool) : Merge × State :=
  let sites := s.stepSites tiles gone
  let t0 := tiles.headD 0
  let slot := tiles.findSome? s.bundleOf
  let bundle : Bundle := (slot.map fun n => Store.get (fun _ => {}) s.bundles n).getD {}
  let bins := sites.map fun n => (n, s.siteBin tiles gone bundle.limits n)
  let union := tiles.foldl (fun (f : Word) t => f ||| (s.tile t).flags) 0
  let bit (b : Bool) (n : Nat) : Word := if b then BitVec.ofNat 32 (2 ^ n) else 0
  let flags := union ||| bit (sites.any fun n => s.flag (R.REP_FLAGS_CORRUPT n)) Sf.corrupt |||
    bit (sites.any fun n => s.flag (R.REP_FLAGS_OVF_LIST n)) Sf.ovf ||| bit (bins.any (·.2.2)) Sf.limit ||| bit aborted 8
  let (startAt, endAt, s) := s.stepTimes tiles
  let n (p : Nat → Bool) : Word := BitVec.ofNat 32 (bins.filter fun b => p b.2.1).length
  let e := sysOf endAt
  let m : Merge :=
    { group := g, status := s.stepStatus tiles aborted
      params := [n (· == 0), n (fun b => b == 1 || decide (16 ≤ b)), n (· == 2), s.rget (R.TILE_CAL_EPOCH t0),
        BitVec.ofNat 32 e, BitVec.ofNat 32 (e / 2 ^ 32)]
      record :=
        { tiles := tiles, flags := flags, bundleDigest := bundle.digest, repImages := sites.flatMap s.repairImage
          epoch := s.rget (R.TILE_CAL_EPOCH t0), startAt := startAt, endAt := endAt, mrnSeq := s.rget R.MRN_SEQ
          policy := (s.tile t0).policy, repGen := s.rget R.SR_GEN, bins := bins.map fun b => (b.1, b.2.1)
          gone := gone, aborted := aborted } }
  (m, s)

/-- The merge of a step when its last tile has ended (R26, R186, R216, R267, R335 to R337). -/
def State.merge (s : State) (g : Nat) (tiles : List Nat) : State :=
  let start := s.startOf g
  let gone := (start.map (·.sites)).getD 0
  let s := (s.stepSites tiles gone).foldl (fun s n => (s.mergeRepair tiles n).mergeMargins tiles n) s
  let (m, s) := s.mergeOf g tiles gone (start.any (·.stage == 1))
  let s := { s with steps := s.steps ++ [m.record] }
  let s := match tiles.findSome? s.bundleOf with
    | some k => if tiles.any fun t => (s.tile t).lastE != 0 then s.count (R.BUNDLE_CTL_STEPS k) else s
    | none => s
  let sign := tiles.any (fun t => (s.tile t).policy.getLsbD 0) && start.isSome && s.flag R.LC_STATUS_PUF_OK
  if sign then { s with merges := s.merges ++ [m] } else s.finishStep m []

/-- The STEP_START of a group whose tiles have all been aborted before they ran: the sites are INDETERMINATE (R26, R259, R267). -/
def State.abortedStart (s : State) (x : Split) : State :=
  let (e, s) := s.freeTime
  let n := (sitesList x.sites).length
  s.complete x St.aborted
    [0, 0, BitVec.ofNat 32 n, x.epoch, BitVec.ofNat 32 (sysOf e), BitVec.ofNat 32 (sysOf e / 2 ^ 32)]

/-- Whether a group's results have been merged and wait to be reported. -/
def State.merged (s : State) (g : Nat) : Bool :=
  s.merges.any (fun (m : Merge) => m.group == g) || s.items.any fun i => match i with
    | .completion _ _ _ a => a == .idle g
    | _ => false

/-- The results of a group that wait to be reported are formed again, after a fault that belongs to the ending step (R31). -/
def State.mergeAgain (s : State) (g : Nat) : State :=
  match s.steps.find? fun (r : StepRec) => s.merged g && r.tiles == s.members g with
  | none => s
  | some r =>
    let (m, s) := s.mergeOf g r.tiles r.gone r.aborted
    { s with steps := s.steps.map fun (y : StepRec) => if y.tiles == r.tiles then m.record else y
             merges := s.merges.map fun (y : Merge) => if y.group == g then m else y
             items := s.items.map fun i => match i with
               | .completion p live quiet a =>
                 if a = .idle g then .completion { p with status := m.status, params := m.params } live quiet a else i
               | _ => i }

/-- A group whose last tile has ended merges; one whose tiles have all been aborted before they ran completes its STEP_START
with ABORTED (R258, R259). -/
def State.groupCheck (s : State) (g : Nat) : State :=
  let l := s.members g
  if g = 0 ∨ l.any (fun t => s.stepState t != stEnded) then s
  else if l.isEmpty then
    match s.startOf g with
    | some x => s.abortedStart x
    | none => s
  else if s.merged g then s
  else s.merge g l

/-! ## The end of a tile's step -/

/-- The suspect flag that an end status brings. -/
def endFlag (st : BitVec 8) : Word :=
  if st = St.starved then 0x40 else if st = St.hwFault then 0x80 else if st = St.aborted then 0x100 else 0

/-- A tile receives nothing more of the stream segments that are partly delivered (04_pattern_store.md R106). -/
def State.strmLeave (s : State) (t : Nat) : State :=
  (List.range 8).foldl (fun s n => s.setStrm n { s.strm n with cur := (s.strm n).cur.filter (· != t) }) s

/-- A tile that holds a step enters ENDED with a status and a cause (R19, R24, R25, R259); a retest is due for every channel that
shows a fault (15_safety_faults.md R379). -/
def State.endTile (s : State) (t : Nat) (st : BitVec 8) (cause : Nat) : State :=
  let c := s.tile t
  let e := c.lastE
  let s := if s.stepState t = stRunning then (s.stopIssue t e).endCapture t e else s
  let ind := if st = St.ok then 0 else s.tileSites t
  let s := (chansOf t).foldl (fun s ch =>
    if s.retestShown ch then s.modChan ch fun x => { x with retest := max x.retest 1 } else s) s
  let s := if s.stepState t = stRunning then (chansOf t).foldl (fun s ch =>
      if s.cmpOn ch then s.modChan ch fun x => { x with ran := x.ran + max 0 (e - max c.startAt (s.tileTime t x.checkedAt)) } else s) s
    else s
  let s := if s.stepState t = stRunning then s.showApg t (match c.queue with | [] => c.ex | r :: _ => r.apg) else s
  let s := ((s.segEnd t).strmLeave t).modTile t fun x =>
    { x with queue := [], placing := false, closing := false, pendPer := none, pendMarks := [], tail := .none, stall := none, endStatus := st
             flags := x.flags ||| endFlag st, siteInd := x.siteInd ||| ind }
  let s := (s.fset (R.SEQ_STATUS_CAUSE t) cause).setFlag (R.SEQ_STATUS_STALLED t) false
  ((s.setFlag (R.SEQ_STATUS_WAITING t) false).fset (R.SEQ_STATUS_STATE t) stEnded).segSync t

/-- Whether the present instant lies no later than the tile clock in which a tile's step has ended, so that a fault belongs to that step
(R31; log entry 53). -/
def State.ending (s : State) (t : Nat) : Bool :=
  let c := s.tile t
  s.stepState t == stEnded && decide (s.tileTime t s.now < (max c.lastE c.endE / tileClock + 1) * tileClock)

/-- Whether a fault that is found now belongs to the step of a tile. -/
def State.faultable (s : State) (t : Nat) : Bool := inStep (s.stepState t) || s.ending t

/-- A step-ending fault in the tile clock of a tile's end of step: the step ends with it (R31). -/
def State.endLate (s : State) (t : Nat) (st : BitVec 8) (cause : Nat) : State :=
  if st = St.hwFault && s.ending t && (s.tile t).endStatus != st then
    let ind := s.tileSites t
    let s := s.modTile t fun x => { x with endStatus := st, flags := x.flags ||| endFlag st, siteInd := x.siteInd ||| ind }
    (s.fset (R.SEQ_STATUS_CAUSE t) cause).mergeAgain (s.tile t).group
  else s

/-- The step of a tile ends; its boundary begins, and the last tile of a group merges. -/
def State.endStep (s : State) (t : Nat) (st : BitVec 8) (cause : Nat) : State :=
  if inStep (s.stepState t) then
    let s := (s.endTile t st cause).boundary t
    s.groupCheck (s.tile t).group
  else s.endLate t st cause

/-- The steps of several tiles end together, before any merge. -/
def State.endSteps (s : State) (l : List Nat) (st : BitVec 8) (cause : Nat) : State :=
  let s := l.foldl (fun s t => s.endLate t st cause) s
  let l := l.filter fun t => inStep (s.stepState t)
  let s := l.foldl (fun s t => s.endTile t st cause) s
  let s := l.foldl (fun s t => s.boundary t) s
  l.foldl (fun s t => s.groupCheck (s.tile t).group) s

/-- A tile aborted in ARMED or PENDING returns to IDLE without a cycle (R259). -/
def State.abortHeld (s : State) (t : Nat) : State :=
  let g := (s.tile t).group
  let s := match s.startOf g with
    | some x => s.setSplit { x with stage := 1, sites := x.sites ||| s.tileSites t
                                    epoch := if x.stage = 1 then x.epoch else s.rget (R.TILE_CAL_EPOCH t) }
    | none => s
  ((s.endTile t St.aborted 3).toIdle [t]).groupCheck g

/-- An ABORT reaches the step of a tile (R257 to R259). -/
def State.abortStep (s : State) (t : Nat) : State :=
  if s.stepState t = stRunning then s.endStep t St.aborted 3
  else if inStep (s.stepState t) then s.abortHeld t
  else s

end Sys2Proof.Machine
end

