-- ==== Sys2Proof/Machine/Idle.lean ====
section
/-! DEFINITION. One edge of REFCLK: the count advances (02_epoch_grid.md R37, R38), packets of the device leave (10_uhleus_protocol.md
R241 to R243, R246, R256), and each ACTIVE link sends a frame (12_serial_links.md R290 to R293). -/

namespace Sys2Proof.Machine

/-! ## The count -/

/-- Instants on record moved with the count. -/
def State.shiftSpans (s : State) (d : Int) : State :=
  { s with windows := s.windows.map fun (w : Int × Int) => (w.1 + d, w.2 + d)
           excursions := s.excursions.map fun (e : Nat × Option Int) => (e.1, e.2.map (· + d))
           warmLog := s.warmLog.map fun (w : Int × Bool) => (w.1 + d, w.2)
           refvLog := s.refvLog.map fun (w : Int × Bool) => (w.1 + d, w.2)
           faultMarks := s.faultMarks.map fun (m : FaultMark) => { m with instant := m.instant + d }
           commitAt := s.commitAt + d
           btAt := s.btAt.map (· + d)
           corrections := s.corrections.map fun (e : (Nat × Nat) × Int) => (e.1, e.2 + d)
           staging := s.staging.map fun (g : Staging) => { g with at_ := g.at_ + d }
           links := s.links.map fun (e : Nat × LinkCtx) =>
             (e.1, { e.2 with entered := e.2.entered.map (· + d), bips := e.2.bips.map fun b => (b.1, b.2 + d) })
           quads := s.quads.map fun (e : Nat × Quad) => (e.1, { e.2 with slot := none })
           chans := s.chans.map fun (e : Nat × ChanCtx) =>
             (e.1, { e.2 with reached := e.2.reached.map (· + d), due := e.2.due + d, checkedAt := e.2.checkedAt + d })
           tiles := s.tiles.map fun (e : Nat × TileCtx) => (e.1, { e.2 with reached := e.2.reached.map (· + d) }) }

/-- The events registered in a tile move with the count. -/
def TileCtx.shiftEvents (c : TileCtx) (d : Int) : TileCtx :=
  { c with conds := c.conds.map fun e => (e.1, e.2 + d), cap := { c.cap with due := c.cap.due.map (· + d) } }

/-- A tile's context in the state `st` at a wrap: a RUNNING or ENDED tile keeps the old epoch, a PENDING one starts at the first grid
point of the new epoch at or after the start time that was declared, and its commits lie before the wrap (R38; log entry 67). -/
def TileCtx.wrap (c : TileCtx) (st : Nat) : TileCtx :=
  if st = stRunning ∨ st = stEnded then { c with wraps := c.wraps + 1 }
  else if st = stPending then
    let i := gridFrom c.period (max 0 (c.asked - epochLength))
    { c.shiftEvents (-epochLength) with
      tc := c.tc.map fun e => (e.1, e.2 - epochLength)
      startAt := i, asked := c.asked - epochLength, endE := i, fillE := i }
  else { c.shiftEvents (-epochLength) with tc := [] }

/-- The count wraps to `v`: running tiles stay on the old grid and carry WRAP, the other instants move to the new epoch (R38). -/
def State.wrapTo (s : State) (v : BitVec 64) : State :=
  let s := { s with sysTime := v }.setFlag R.TIME_STATUS_WRAP true
  let s := (s.tilesIn (· == stRunning)).foldl (fun s t => s.suspectFlag t Sf.wrap) s
  let moved (e : Nat × TileCtx) : Option (Nat × TileCtx) :=
    let c := e.2.wrap (s.stepState e.1)
    if c = {} then none else some (e.1, c)
  { s with tiles := s.tiles.filterMap moved }.shiftSpans (-epochLength)

/-- SUP_STATUS.WINDOW: a SUSPECT interval is open (17_power_thermal.md R412). -/
def State.syncWindow (s : State) : State :=
  let v := s.excursions.any (fun e => e.2.isSome) || s.windows.any fun w => decide (s.now ≤ w.2)
  if s.flag R.SUP_STATUS_WINDOW == v then s else s.setFlag R.SUP_STATUS_WINDOW v

/-- The count after one REFCLK edge. -/
def State.tick (s : State) : State :=
  (if s.sysTime.toNat + 2560 < 2 ^ 64 then { s with sysTime := s.sysTime + 2560 } else s.wrapTo (s.sysTime + 2560)).syncWindow.registerDue

/-! ## Packets on the wire (Table 10.1, R242) -/

/-- CRC-16 of R242 over a byte. -/
def crc16Byte (c : BitVec 16) (b : Byte) : BitVec 16 :=
  (List.range 8).foldl (fun (x : BitVec 16) _ => if x.getLsbD 15 then (x <<< 1) ^^^ 0x1021 else x <<< 1)
    (c ^^^ (b.setWidth 16 <<< 8))

def crc16 (l : List Byte) : BitVec 16 := l.foldl crc16Byte 0xFFFF

/-- A payload with its pad bytes. -/
def padded (l : List Byte) : List Byte := l ++ List.replicate ((4 - l.length % 4) % 4) 0

/-- The bytes of a packet of the device: header, parameter words, payload, trailer. -/
def Packet.bytes (p : Packet) : List Byte :=
  let w0 := p.opcode.toNat + 256 * p.status.toNat + 65536 * p.session.toNat + 2 ^ 21 * p.kind + 2 ^ 28
  let w1 := p.tag.toNat + 65536 * p.dest.toNat + 2 ^ 30 * 3
  let w2 := p.params.length + 256 * p.payload.length
  let head := leBytes 4 w0 ++ leBytes 4 w1 ++ leBytes 4 w2 ++ leBytes 2 (p.cells % 4096 + 4096 * (p.slots % 16))
  let body := p.params.flatMap wordBytes ++ padded p.payload
  let trail : Word := if body.isEmpty then 0 else crc32c body
  head ++ leBytes 2 (crc16 head).toNat ++ body ++ wordBytes trail

/-- Bytes cut into frames of a class (R290, R291); `fuel` bounds the number of frames. -/
def framesOf (cls : Nat) (first : Bool) (l : List Byte) : Nat → List Frame
  | 0 => []
  | fuel + 1 =>
    let last := decide (l.length ≤ 224)
    { cls := BitVec.ofNat 2 cls, sop := first, eop := last, bytes := l.take 224 } ::
      if last then [] else framesOf cls false (l.drop 224) fuel

/-! ## Blocks on the lanes (12_serial_links.md R285 to R287, R290) -/

def crc8Bit (c : BitVec 8) : BitVec 8 := if c.getLsbD 7 then (c <<< 1) ^^^ 0x07 else c <<< 1

def crc8Byte (c b : BitVec 8) : BitVec 8 := Nat.repeat crc8Bit 8 (c ^^^ b)

/-- The CRC-8 with polynomial 0x07 over bytes, from an initial value (R304; 19_management_ports.md R437). -/
def crc8 (init : BitVec 8) (l : List (BitVec 8)) : BitVec 8 := l.foldl crc8Byte init

/-- A payload through the scrambler x^58 + x^39 + 1, bit 0 first, behind the last 58 line bits, the newest in bit 57 (R285). -/
def scramble (past : BitVec 58) (x : BitVec 64) : BitVec 64 :=
  let low : BitVec 39 := x.extractLsb' 0 39 ^^^ past.extractLsb' 19 39 ^^^ past.extractLsb' 0 39
  let z : BitVec 97 := low ++ past
  let high : BitVec 25 := x.extractLsb' 39 25 ^^^ z.extractLsb' 58 25 ^^^ z.extractLsb' 39 25
  high ++ low

/-- The BIP-8 of the scrambled payloads that a lane has carried since an AM (R287). -/
def bip8 (l : List (BitVec 64)) : BitVec 8 :=
  l.foldl (fun p b => (List.range 8).foldl (fun p k => p ^^^ b.extractLsb' (8 * k) 8) p) 0

/-- The lane `j` sends a block: the sync header, 0b01 of a data block and 0b10 of a control block, then the scrambled payload (R285). -/
def LinkCtx.lay (c : LinkCtx) (j : Nat) (control : Bool) (payload : BitVec 64) : LinkCtx :=
  let x : LaneTx := Store.get (fun _ => {}) c.tx j
  let y := scramble x.past payload
  { c with tx := Store.put (fun _ => {}) c.tx j { past := y.extractLsb' 6 58, bip := x.bip ^^^ bip8 [y] }
           line := c.line ++ [(j, y ++ (if control then 2 else 1 : BitVec 2))] }

/-- A block goes to the next of the active lanes (R286). -/
def LinkCtx.stripe (c : LinkCtx) (lanes : List Nat) (b : Bool × BitVec 64) : LinkCtx :=
  match lanes with
  | [] => c
  | _ => { c.lay (lanes.getD (c.next % lanes.length) 0) b.1 b.2 with next := (c.next + 1) % lanes.length }

/-- Bytes as the payload of blocks, 8 to a block. -/
def dataBlocks (b : List Byte) (n : Nat) : List (BitVec 64) := (List.range n).map fun k => BitVec.ofNat 64 (leNat ((b.drop (8 * k)).take 8))

end Machine

/-- The FRAME block (Table 12.2). -/
def Frame.head (f : Frame) : BitVec 64 :=
  let vlen := if f.eop then (f.bytes.length + 3) / 4 else 0
  BitVec.ofNat 64 (0x33 + 2 ^ 8 * f.seq.toNat + 2 ^ 20 * f.ack.toNat + 2 ^ 32 * f.nak.toNat + 2 ^ 33 * f.cls.toNat + 2 ^ 35 * f.sop.toNat +
    2 ^ 36 * f.eop.toNat + 2 ^ 37 * f.stomp.toNat + 2 ^ 38 * vlen + 2 ^ 44 * f.crCmd.toNat + 2 ^ 50 * f.crRsp.toNat + 2 ^ 56 * f.crStrm.toNat)

/-- The payload of a frame with the unused part of its 224 bytes, which the model fills with 0; CLASS 0 has none (log entry 83). -/
def Frame.data (f : Frame) : List Byte := if f.cls = 0 then [] else f.bytes ++ List.replicate (224 - f.bytes.length) 0

/-- The CRC-32C over bytes 1 to 7 of the FRAME block and the payload (R290). -/
def Frame.crc32 (f : Frame) : Word := Machine.crc32c ((Machine.leBytes 8 f.head.toNat).drop 1 ++ f.data)

/-- Whether a received frame's CRC is right. -/
def Frame.intact (f : Frame) : Bool := f.crc.all (· == f.crc32)

/-- The blocks of a frame: the FRAME block, 28 data blocks, none in CLASS 0, and the block of the CRC (R290). -/
def Frame.blocks (f : Frame) : List (Bool × BitVec 64) :=
  (true, f.head) :: ((Machine.dataBlocks f.data (f.data.length / 8)).map fun b => (false, b)) ++ [(false, f.crc32.setWidth 64)]

namespace Machine

/-- A control block of a type, with the bits above it that the spec leaves open. -/
def openBlock (typ : Nat) (kind turnaround : Nat) : BitVec 64 := Config.controlBits kind turnaround ++ BitVec.ofNat 8 typ

def ctlBlock : LinkCtlReq → BitVec 64
  | .retrain => openBlock 0x4B 1 0
  | .probe _ => openBlock 0x4B 2 0
  | .echo t => openBlock 0x4B 3 t
  | .farEndLoop => openBlock 0x4B 4 0
  | .loopRefused => openBlock 0x4B 5 0
  | .other typ => openBlock typ.toNat 0 0

/-- An event message with its CRC-8 (R304). -/
def eventOf (ev origin : Nat) : BitVec 64 :=
  let low : BitVec 56 := BitVec.ofNat 56 (0x78 + 2 ^ 8 * (ev % 256) + 2 ^ 16 * (origin % 2 ^ 14))
  crc8 0 ((List.range 7).map fun k => low.extractLsb' (8 * k) 8) ++ low

/-- An alignment marker of a lane, with the BIP-8 of what the lane has sent since the one before (R287). -/
def amOf (lane link : Nat) (bip : BitVec 8) : BitVec 64 := BitVec.ofNat 64 (0x87 + 2 ^ 8 * (lane % 8) + 2 ^ 11 * (link % 16) + 2 ^ 16 * bip.toNat)

/-- What a link sends goes onto its active lanes: frames and LINKCTL blocks striped, a time message on the lowest lane, an event message on each
lane, an AM on its own (R286, R287, R300, R304). -/
def LinkCtx.emit (c : LinkCtx) (lanes : List Nat) : Wire → LinkCtx
  | .frame f => f.blocks.foldl (fun c b => c.stripe lanes b) c
  | .linkctl r => c.stripe lanes (true, ctlBlock r)
  | .event ev origin => lanes.foldl (fun c j => c.lay j true (eventOf ev origin)) c
  | .time t chip =>
    match lanes with
    | [] => c
    | j :: _ =>
      (c.lay j true (BitVec.ofNat 64 (0x66 + 2 ^ 8 * (t.toNat / 2 ^ 32) + 2 ^ 40 * (chip % 2 ^ 14)))).lay j true
        (BitVec.ofNat 64 (0x69 + 2 ^ 8 * (t.toNat % 2 ^ 32)))
  | .am j l =>
    let c := c.lay j true (amOf j l (Store.get (fun _ => {}) c.tx j : LaneTx).bip)
    { c with tx := Store.put (fun _ => {}) c.tx j { (Store.get (fun _ => {}) c.tx j : LaneTx) with bip := 0 } }
  | .bits _ => c

/-! ## Links -/

def State.link (s : State) (l : Nat) : LinkCtx := Store.get (fun _ => {}) s.links l
def State.setLink (s : State) (l : Nat) (c : LinkCtx) : State := { s with links := Store.put (fun _ => {}) s.links l c }
def State.modLink (s : State) (l : Nat) (f : LinkCtx → LinkCtx) : State := s.setLink l (f (s.link l))

/-- Link states of Table 12.3. -/
def State.linkState (s : State) (l : Nat) : Nat := s.fget (R.LINK_STATUS_STATE l)
abbrev lkOff : Nat := 0
abbrev lkDown : Nat := 1
abbrev lkTraining : Nat := 2
abbrev lkActive : Nat := 3
abbrev lkRetrain : Nat := 4
abbrev lkTest : Nat := 5

/-- The lanes that a link sends on: in ACTIVE those in use, else those that are not fenced. -/
def State.lanesOf (s : State) (l : Nat) : List Nat :=
  (List.range 8).filter fun j =>
    if s.linkState l = lkActive then (s.fget (R.LINK_STATUS_USED l)).testBit j else !(s.fget (R.LINK_LANEFENCE_FENCE l)).testBit j

/-- A link sends something. -/
def State.sendWire (s : State) (l : Nat) (w : Wire) : State :=
  let lanes := s.lanesOf l
  s.modLink l fun c => { c.emit lanes w with wire := c.wire ++ [w] }

/-- The credit field of a class. -/
def creditFld (l cls : Nat) : Fld :=
  match cls with
  | 1 => R.LINK_CREDIT_CMD l
  | 2 => R.LINK_CREDIT_RSP l
  | _ => R.LINK_CREDIT_STRM l

/-- Throttle stage 2 (17_power_thermal.md Table 17.4). -/
def State.stage2 (s : State) : Bool := s.fget R.THR_STATUS_STAGES / 2 % 2 == 1

/-- The time of one frame passes on a link: under throttle stage 2 the device may return (8 − L) / 8 of a stream credit more, where it owes
one (04_pattern_store.md R107). -/
def State.paceOn (s : State) (l : Nat) : State :=
  if s.stage2 && Store.get (fun _ => 0) (s.link l).owe 3 != 0 then
    let k := 8 - s.fget R.THR_STATUS_LEVEL
    s.modLink l fun c => { c with pace := min 8 (c.pace + k) }
  else s

/-- A frame with the acknowledgement and the credits that the receiver returns (R292; 04_pattern_store.md R107). -/
def State.stamp (s : State) (l : Nat) (f : Frame) : Frame :=
  let c := s.link l
  let owed (k : Nat) : Nat := min 63 (Store.get (fun _ => 0) c.owe k)
  let strm := if s.stage2 then min (owed 3) (c.pace / 8) else owed 3
  { f with ack := BitVec.ofNat 12 c.rxAck, nak := c.nak, crCmd := BitVec.ofNat 6 (owed 1), crRsp := BitVec.ofNat 6 (owed 2)
           crStrm := BitVec.ofNat 6 strm }

/-- What a frame that is sent has returned is no longer owed. -/
def LinkCtx.returned (c : LinkCtx) (f : Frame) : LinkCtx :=
  let less (m : Store Nat) (k v : Nat) : Store Nat := Store.put (fun _ => 0) m k (Store.get (fun _ => 0) m k - v)
  { c with owe := less (less (less c.owe 1 f.crCmd.toNat) 2 f.crRsp.toNat) 3 f.crStrm.toNat
           since := 0, pace := c.pace - 8 * f.crStrm.toNat }

/-- Credits of a class that the receiver owes its partner (R292). -/
def State.oweTo (s : State) (l cls n : Nat) : State :=
  s.modLink l fun c => { c with owe := Store.put (fun _ => 0) c.owe cls (Store.get (fun _ => 0) c.owe cls + n) }

/-- The event messages that are due leave ahead of frames (R295, R304). -/
def State.eventsEdge (s : State) (l : Nat) : State :=
  if s.linkState l != lkActive || (s.link l).events.isEmpty then s
  else (s.link l).events.foldl (fun s e => s.sendWire l (.event e.1 e.2)) (s.modLink l fun c => { c with events := [] })

/-- A CLASS 0 frame carries acknowledgement and credits, behind the event messages that are due (R290, R292, R295). -/
def State.sendAck (s : State) (l : Nat) : State :=
  let s := s.eventsEdge l
  let f := s.stamp l {}
  ((s.modLink l fun c => c.returned f).sendWire l (.frame f)).evCount (16 + 4 * l)

/-- A frame of CLASS 1 to 3 leaves: it takes a sequence number and a credit, and stays in the replay buffer (R292, R293). -/
def State.sendFrame (s : State) (l : Nat) (f : Frame) : State :=
  let c := s.link l
  let f := s.stamp l { f with seq := BitVec.ofNat 12 c.txNext }
  let s := s.fset (creditFld l f.cls.toNat) (s.fget (creditFld l f.cls.toNat) - 1)
  ((s.modLink l fun c =>
    { (c.returned f) with txNext := (c.txNext + 1) % 4096, outst := c.outst ++ [(f, 0)], turn := f.cls.toNat }).sendWire l (.frame f)).evCount
    (16 + 4 * l)

/-- EVENTS_LOST follows once the queue of a session has room (R256). -/
def State.eventsLost (s : State) (n : Nat) : State :=
  let c := s.ctx n
  if c.evLost = 0 ∨ 64 ≤ s.fget (R.SESS_LOAD_EVQ n) then s
  else (s.modCtx n fun c => { c with evLost := 0 }).eventTo n 2 [BitVec.ofNat 32 c.evLost]

/-- A packet of the device leaves with its first frame (R256; 18_moraine_counters.md Table 18.3). -/
def State.packetSent (s : State) (p : Packet) : State :=
  let s := { s with sent := s.sent ++ [p] }.evCount (if p.kind = 1 then 5 else 6)
  let n := p.session.toNat
  if p.kind = 3 then (s.fset (R.SESS_LOAD_EVQ n) (s.fget (R.SESS_LOAD_EVQ n) - 1)).eventsLost n else s

/-- The next frame of a class: of the packet that holds the class, or the first that waits (R291, R294). -/
def LinkCtx.ready (c : LinkCtx) (k : Nat) : Option OutFrame :=
  let l := c.queue.filter fun (e : OutFrame) => e.frame.cls.toNat == k
  match Store.get (fun _ => none) c.busy k with
  | some p => l.find? fun (e : OutFrame) => e.pkt == p
  | none => l.head?

/-- The frame that an ACTIVE link sends next: classes take turns, and a class needs a frame and a credit (R292, R295). -/
def State.nextFrame (s : State) (l : Nat) : Option OutFrame :=
  let c := s.link l
  if s.linkState l != lkActive || c.loop || decide (512 ≤ c.outst.length) then none
  else
    ([1, 2, 3].map fun k => (c.turn + k - 1) % 3 + 1).findSome? fun k =>
      if s.fget (creditFld l k) = 0 then none else c.ready k

/-- A frame has left a queue: with its last copy, its credit goes back to the link it came from (R292). -/
def State.frameGone (s : State) (e : OutFrame) : State :=
  match e.src with
  | none => s
  | some l =>
    if (List.range 12).any fun k => (s.link k).queue.any fun (x : OutFrame) => x.id == e.id then s
    else s.oweTo l e.frame.cls.toNat 1

/-- The time of one frame passes towards the next alignment markers: after 16,384 blocks of each lane while ACTIVE, 1,024 in training and
retrain; 160/33 blocks pass a lane in 10 ns (R285, R287). -/
def State.amEdge (s : State) (l : Nat) : State :=
  let st := s.linkState l
  if st < lkTraining ∨ lkRetrain < st then s
  else
    let limit := (if st = lkActive then 16384 else 1024) * 33
    let n := (s.link l).amTick + 160
    if n < limit then s.modLink l fun c => { c with amTick := n }
    else
      (s.lanesOf l).foldl (fun s j => s.sendWire l (.am j l)) (s.modLink l fun c => { c with amTick := n - limit })

/-- One bit of PRBS31, x^31 + x^28 + 1, behind the 31 before it, the newest in bit 0 (R306). -/
def prbsNext (p : BitVec 31) : Bool := p.getLsbD 30 ^^ p.getLsbD 27

def prbsStep (p : BitVec 31) : BitVec 31 := (p <<< 1) ||| BitVec.ofNat 31 (prbsNext p).toNat

/-- In TEST with PRBS = 1 each lane sends 320 bits of PRBS31 in 10 ns. -/
def State.prbsEdge (s : State) (l : Nat) : State :=
  if s.linkState l != lkTest || !s.flag (R.LINK_CTRL_PRBS l) then s
  else (s.lanesOf l).foldl (fun s j => s.modLink l fun c =>
    { c with prbs := Store.put Config.prbsSeed c.prbs j (Nat.repeat prbsStep 320 (Store.get Config.prbsSeed c.prbs j)) }) s

/-- IDLE on each lane of an ACTIVE link that has sent nothing else at an edge (R295; log entry 83). -/
def State.idleOut (s : State) (l sent : Nat) : State :=
  if s.linkState l != lkActive || (s.link l).wire.length != sent then s
  else
    let lanes := s.lanesOf l
    s.modLink l fun c => lanes.foldl (fun c j => c.lay j true (openBlock 0x1E 0 0)) c

/-- One edge of a link: what is due in the order of R295, then one frame, if it can send one, else IDLE. -/
def State.linkEdge (s : State) (l : Nat) : State :=
  let sent := (s.link l).wire.length
  let s := (((s.paceOn l).amEdge l).eventsEdge l).prbsEdge l
  match s.nextFrame l with
  | none => s.idleOut l sent
  | some e =>
    let hold := if e.frame.eop then none else some e.pkt
    let s := s.modLink l fun c =>
      { c with queue := c.queue.erase e, busy := Store.put (fun _ => none) c.busy e.frame.cls.toNat hold }
    let s := (s.sendFrame l e.frame).frameGone e
    match e.own with
    | some p => s.packetSent p
    | none => s

/-- A number that no packet and no frame has yet. -/
def State.newId (s : State) : Nat × State := (s.ids, { s with ids := s.ids + 1 })

/-- A frame of packet `pkt` waits on each of the links given. -/
def State.frameOut (s : State) (outs : List Nat) (f : Frame) (pkt : Nat) (src : Option Nat) (own : Option Packet := none) : State :=
  let (id, s) := s.newId
  outs.foldl (fun s l => s.modLink l fun c =>
    { c with queue := c.queue ++ [{ frame := f, pkt := pkt, src := src, id := id, own := own }] }) s

/-- The bytes of a packet wait on each of the links given, in frames of a class; the first frame keeps a packet of the device. -/
def State.bytesOut (s : State) (outs : List Nat) (cls : Nat) (b : List Byte) (own : Option Packet := none) : State :=
  let (p, s) := s.newId
  (framesOf cls true b (b.length / 224 + 1)).foldl (fun s f => s.frameOut outs f p none (if f.sop then own else none)) s

/-! ## The device's packets -/

/-- A packet goes to its link in frames of the class RSP. -/
def State.packetOut (s : State) (p : Packet) : State := s.bytesOut [p.link] 2 p.bytes (some p)

/-- The link of a packet to a session: that of the session's most recent request, open or closed; a reply to HELLO goes back on HELLO's own
(R246, R248). -/
def State.linkOf (s : State) (p : Packet) : Nat :=
  if p.kind = 1 ∧ p.opcode = 0x81 then p.link else s.fget (R.SESS_STAT_LINK p.session.toNat)

/-- Whether a reply waits for that of a streaming operation (R256). -/
def State.behindWrite (s : State) (p : Packet) : Bool :=
  p.behind.any fun k => s.writes.any fun (w : Writing) => w.q.part == some k

/-- The packets whose link is ACTIVE go out in their order; the others wait (R246, R256). -/
def State.transmit (s : State) : State :=
  let up (p : Packet) : Bool := s.linkState (s.linkOf p) == lkActive && !s.behindWrite p
  (s.txq.filter up).foldl (fun s p => s.packetOut { p with link := s.linkOf p }) { s with txq := s.txq.filter fun p => !up p }

/-- The number under which the frames of UP packets wait while UPLINK is 0xF. -/
def noUplink : Nat := 15

/-- UP packets that wait for UPLINK go to it once it names a link (R246). -/
def State.upMove (s : State) : State :=
  let up := s.fget R.PROTO_CFG_UPLINK
  let q := (s.link noUplink).queue
  if q.isEmpty || decide (12 ≤ up) then s
  else (s.modLink noUplink fun c => { c with queue := [], busy := [] }).modLink up fun c => { c with queue := c.queue ++ q }

/-- What packets and links do at an edge of REFCLK. -/
def State.linkEdges (s : State) : State := (List.range 12).foldl (fun s l => s.linkEdge l) s.upMove.transmit.tick

end Sys2Proof.Machine
end

