-- ==== Sys2Proof/Machine/Calib.lean ====
section
/-! DEFINITION. Background calibration (09_calibration.md R226 to R239): measurements, the pending set, commits, forced runs and
readback, and the check of REFV. -/

namespace Sys2Proof.Machine

/-! ## Pending set (R230, R231) -/

/-- The bin widths that the hits of each code give, with what has come before them (R179): the cumulated share of the coarse period,
rounded down, less the share before it. -/
def widthsFrom (sum prev : Nat) : List Int → List Int
  | [] => []
  | h :: l =>
    let sum := sum + h.toNat
    let cum : Nat := sum * 20480000 / 2 ^ 22
    ((cum : Int) - (prev : Int)) :: widthsFrom sum cum l

/-- The hits of a code-density run of 2^22 edges (R179). -/
def hitsWhole (l : List Int) : Bool :=
  decide (l.length = 256) && l.all (fun h => decide (0 ≤ h)) && l.foldl (· + ·) 0 == 2 ^ 22

/-- What a measurement corrects by: of subject 4 the bin widths of its hits. -/
def measResult (m : CalMeas) : List Int := if m.subj.val = 4 then widthsFrom 0 0 m.values else m.values

/-- The key of an item: a channel's, or the chip's SYNC item. -/
def calMeasKey (m : CalMeas) : Nat := if m.subj.val = 5 then syncKey else calKey m.chan.val m.subj.val

/-- Levels of subject 0 whose gain lies beyond ±2 %, whose offset lies beyond ±30 mV, or whose offset tracking finds more than 5 mV from the
committed value while the channel is in use (R230); the offsets of all eleven are in 1/16 of LSB_V, 7 V / 65,536 (Table 9.3). -/
def State.badLevels (s : State) (m : CalMeas) : List Nat :=
  let ch := m.chan.val
  let g (k : Nat) : Nat := (m.values.getD (2 * k) 0).natAbs
  let o (k : Nat) : Int := m.values.getD (2 * k + 1) 0
  let old (k : Nat) : Int := (s.calNewest (calKey ch 0)).value (calKey ch 0) (2 * k + 1)
  let far (d : Int) (mv : Nat) : Bool := decide (mv * 65536 * 16 < d.natAbs * 7000)
  (List.range 11).filter fun k => decide (2 * 2 ^ 24 < 100 * g k) || far (o k) 30 || (s.mode ch != 0 && far (o k - old k) 5)

/-- Whether a measured item lies outside the range that its correction can apply (R180, R230). -/
def State.calRejected (s : State) (m : CalMeas) : Bool :=
  let v (k : Nat) : Int := (measResult m).getD k 0
  match m.subj.val with
  | 0 => !(s.badLevels m).isEmpty
  | 1 => [0, 1].any fun k => decide (30 * 65536 * 16 < (v k).natAbs * 7000)
  | 2 => decide (v 1 < 45000 ∨ 55000 < v 1)
  | 3 => [0, 1].any fun k => decide (v k < -32768 ∨ 32767 < v k)
  | 4 => (measResult m).any (fun w => decide (320000 < w)) || decide (8 < ((measResult m).filter (· == 0)).length)
  | _ => decide (v 0 < -32768 ∨ 32767 < v 0)

/-- CAL_PEND and CAL_STATUS.PENDING follow the pending set. -/
def State.syncPending (s : State) : State :=
  (s.fset R.CAL_PEND_COUNT s.calPend.length).setFlag R.CAL_STATUS_PENDING (!s.calPend.isEmpty)

/-- Disagreements of a level node of a channel, raised by one: the second in a row, and each one behind it, triggers SF2, whose
condition is present until the node agrees again (R373;
06_pin_electronics.md R146; 15_safety_faults.md R364). -/
def State.disagree (s : State) (ch k : Nat) (inj : Bool := false) : State :=
  let n := Store.get (fun _ => 0) (s.chan ch).xchk k + 1
  let s := s.modChan ch fun c => { c with xchk := Store.put (fun _ => 0) c.xchk k n }
  let key := (0x60000, 2, ch)
  let s := if 2 ≤ n ∧ !inj ∧ !s.held.contains key then { s with held := s.held ++ [key] } else s
  if 2 ≤ n then (s.pinReaction (R.CH_FAULT_XCHK ch) 2 2 ch inj).boundary (ch / 16) else s

/-- An item is rejected (R230). -/
def State.calReject (s : State) (ch subj : Nat) (nodes : List Nat) (inj : Bool) : State :=
  let s := s.setFlag R.CAL_STATUS_FAULT true
  let s := if subj < 5 then s.rset (R.CH_CAL_STAT ch) (s.rget (R.CH_CAL_STAT ch) ||| BitVec.ofNat 32 (2 ^ (16 + subj))) else s
  let s := if subj = 4 then s.setFlag (R.TDC_STAT_CALREJ ch) true else s
  let s := s.faultRaise 0x60000 11 inj
  if subj = 0 ∧ s.mode ch ≠ 0 then nodes.foldl (fun s k => s.disagree ch k inj) s else s

/-- Whether REFV_BAD was set when the measurement of an item began (R229). -/
def State.refvBadAt (s : State) (m : CalMeas) : Bool := flagAt s.refvLog (s.flag R.CAL_STATUS_REFV_BAD) (m.began * unitFs)

/-- A measured item enters the pending set or is rejected; `tj` and the operating time are those at its completion (R231). DESIGN CHOICE: the
measurements of a run complete at its end (log entry 81). -/
def State.calEnter (s : State) (m : CalMeas) (tj : Int) : State :=
  let ch := m.chan.val
  let subj := m.subj.val
  if s.calRejected m then s.calReject ch subj (s.badLevels m) false
  else
    let it : CalItem := { values := measResult m, tj := tj, hours := (s.rget R.MRN_HOURS).toNat, measured := true
                          noTrace := s.refvBadAt m && decide (subj ≤ 1) }
    let s := { s with calPend := Store.put (fun _ => none) s.calPend (calMeasKey m) (some it) }
    let s := if subj < 5 then s.rset (R.CH_CAL_STAT ch) (s.rget (R.CH_CAL_STAT ch) ||| BitVec.ofNat 32 (2 ^ subj)) else s
    s.syncPending

/-- Whether subject `subj` may be measured on a channel (R227): not where it is fenced, its tile fenced, DORMANT or OFF; subjects 0
to 3 in an IDLE tile with the channel in OFF, its gate open, and not in a safety safe state. -/
def State.calAllowed (s : State) (ch subj : Nat) : Bool :=
  let t := ch / 16
  !s.chanFenced ch && !s.tileFenced t && decide (s.power t < 2) &&
    (subj == 4 || (s.idle t && s.fget (R.CH_MODE_MODE ch) == 0 && !s.flag (R.CH_STATUS_GATE ch) &&
      !(s.chan ch).safe && decide ((s.chan ch).retest = 0)))

/-- Whether a stop window of a channel is open: no code-density hit is taken then (R179). -/
def State.windowOpen (s : State) (ch : Nat) : Bool :=
  let i := s.tileTime (ch / 16) s.now
  (s.chan ch).wins.any fun w => decide (w.opens ≤ i ∧ i < w.closes)

/-- Whether nothing has reached a channel since its measurement began (R228); a measurement of subject 4 is whole with its last hit, which
lies outside every window (R179). -/
def State.undisturbed (s : State) (m : CalMeas) : Bool :=
  let ch := m.chan.val
  let quiet (r : Option Int) : Bool := r.all fun i => decide (i ≤ m.began * unitFs)
  quiet (s.chan ch).reached && quiet (s.tile (ch / 16)).reached &&
    (m.subj.val != 4 || (hitsWhole m.values && !s.windowOpen ch))

/-- The tracking of level offsets runs on any channel in use (Table 9.1). -/
def State.calTracks (s : State) (ch subj : Nat) : Bool :=
  subj == 0 && s.mode ch != 0 && !s.chanFenced ch && decide (s.power (ch / 16) < 2)

/-! ## The SYNC item (02_epoch_grid.md R41; R239) -/

/-- The item that the latest 64 unarmed edges give: SYNC_DESKEW of the load in force minus their mean PHASE. -/
def State.syncItem (s : State) : Option Int :=
  if s.syncPhases.length < 64 then none
  else some (roundDiv (64 * s.syncD - (s.syncPhases.take 64).foldl (· + ·) 0) 64)

/-- The SYNC item enters the pending set; no row belongs to it, so its Tj is a free value (log entry 4). -/
def State.syncEnter (s : State) : State :=
  match s.syncItem with
  | none => s
  | some v =>
    let (w, s) := s.free
    s.calEnter { chan := 0, subj := 5, values := [v] } (w.setWidth 16).toInt

/-- Throttle stage 1, which suspends background calibration (17_power_thermal.md R410). -/
def State.stage1 (s : State) : Bool := s.fget R.THR_STATUS_STAGES % 2 == 1

/-- CAL_STATUS.SUSP shows stage 1 (R240); BT_STATUS.SUSP that stage 1 or the slow control clock suspends the background memory test
(14_memories.md R355). -/
def State.syncSusp (s : State) : State :=
  (s.setFlag R.CAL_STATUS_SUSP s.stage1).setFlag R.BT_STATUS_SUSP (s.stage1 || s.flag R.ENG_STATUS_SLOW_ACT)

def State.calBackground (s : State) (subj : Nat) : Bool :=
  s.flag R.CAL_CTRL_BG_EN && (s.fget R.CAL_CTRL_SUBJ).testBit subj && !s.stage1

/-! ## Commit (R232 to R234) -/

/-- A commit: the new state, the epoch, SYNC_DESKEW, and the tiles that are IDLE apply it at once. -/
def State.commit (s : State) : State :=
  if s.calPend.isEmpty then s
  else
    let items := s.calPend
    let s := items.foldl (fun s e => match e.2 with
      | some it => { s with calNew := Store.put (fun _ => {}) s.calNew e.1 it }
      | none => s) { s with calPend := [], commitAt := s.now }
    let s := items.foldl (fun s e =>
      if e.1 = syncKey then s else s.fset (R.CH_CAL_STAT_PEND (e.1 / 8)) 0) s
    let s := s.fset R.CAL_EPOCH_EPOCH (s.fget R.CAL_EPOCH_EPOCH + 1)
    let s := match Store.get (fun _ => none) items syncKey with
      | some it => s.fset R.SYNC_DESKEW_DESKEW (unsigned 16 (it.values.getD 0 0))
      | none => s
    (List.range 64).foldl (fun s t => if s.idle t then s.boundary t else s) s.syncPending

/-- Subject 5 apart, whether an item is stale for the present Tj and operating time (R236). -/
def State.staleItem (s : State) (it : CalItem) (subj ch : Nat) : Bool :=
  !it.measured || decide (s.fget R.CAL_LIMIT_HOURS * 16 ≤ (s.rget R.MRN_HOURS).toNat - it.hours) ||
    (subj != 5 && decide ((8 * s.fget R.CAL_LIMIT_DTEMP : Int) < (s.rowTj ch - it.tj).natAbs))

/-! ## The commands -/

/-- The item of level offsets that tracking finds: the gains are those of the newest measurement (Table 9.1). -/
def State.tracked (s : State) (m : CalMeas) : CalMeas :=
  let key := calKey m.chan.val 0
  let it := (Store.get (fun _ => none) s.calPend key).getD (s.calNewest key)
  { m with values := (List.range 22).map fun j => if j % 2 = 0 then it.value key j else m.values.getD j 0 }

/-- BACKGROUND_MEASUREMENT: a measurement completes; one that its conditions no longer allow, or during which a write, an arming, a
power-state change or a reaction has reached the channel, has been abandoned (R227, R228). The SYNC item forms with the 64th edge itself
(R239). -/
def doBackgroundMeasurement (m : CalMeas) (s : State) : State :=
  let ch := m.chan.val
  let enter (m : CalMeas) : State := s.calEnter m (s.rowTj ch)
  if !s.calBackground m.subj.val || m.subj.val == 5 || !s.undisturbed m then s
  else if s.calAllowed ch m.subj.val then enter m
  else if s.calTracks ch m.subj.val then enter (s.tracked m)
  else s

def execBackgroundMeasurement (m : CalMeas) (s : State) : Host.Outcome State Fault Refusal := .next (doBackgroundMeasurement m s)

/-- Whether CAL_AUTO.INTERVAL has passed since the last commit or the end of boot (R233). -/
def State.autoDue (s : State) : Bool := decide (s.commitAt + s.fget R.CAL_AUTO_INTERVAL * 65536000000000000 ≤ s.now)

/-- CAL_AUTO_COMMIT: the device commits where AUTO, the interval and the pending set allow it. -/
def doCalAutoCommit (s : State) : State := if s.flag R.CAL_CTRL_AUTO && !s.stage1 && s.autoDue then s.commit else s

def execCalAutoCommit (s : State) : Host.Outcome State Fault Refusal := .next (doCalAutoCommit s)

/-- The check of REFV, in µV as the internal reference measures it, against its certified value and its limits (R229). -/
def doRefvCheck (microvolt : Int) (s : State) : State :=
  let v := (s.rget R.REFV_VALUE).toNat
  let far := decide (5 * v < 1000 * (microvolt - v).natAbs)
  let bad := far || decide (microvolt < 4000000 ∨ 5500000 < microvolt)
  if s.flag R.CAL_STATUS_REFV_BAD == bad then s
  else { s with refvLog := ((s.now, bad) :: s.refvLog).take 64 }.setFlag R.CAL_STATUS_REFV_BAD bad

/-- REFV_CHECK, once per second: REFV is the difference of its two balls (09_calibration.md R226; 21_electrical_package.md Table 21.6). -/
def execRefvCheck (p n : Int) (s : State) : Host.Outcome State Fault Refusal := .next (doRefvCheck (p - n) s)

/-- CAL_COMMIT (R232, R233, R238). -/
def doCalCommit (q : Req) (s : State) : State :=
  s.request 0x51 q fun s =>
    if s.stage1 then s.fail 0x51 q St.busy
    else
      let s := s.commit
      s.reply 0x51 q St.ok [s.rget R.CAL_EPOCH]

/-- The values of an item as CAL_READ returns them (Table 9.3); those of an item from OTP are the device's own (log entry 12). -/
def calPayload (k subj : Nat) (it : CalItem) : List Byte :=
  let n := match subj with | 0 => 22 | 4 => 256 | 5 => 1 | _ => 2
  (List.range n).flatMap fun j =>
    let v := unsigned 32 (it.value k j)
    leBytes 4 (if subj = 2 ∧ j = 0 then v % 64 else v)

/-- CAL_READ (R238). A commit writes the SYNC item to SYNC_DESKEW (R232), so the one applied is the newest committed. -/
def doCalRead (q : Req) (s : State) : State :=
  s.request 0x52 q fun s =>
    let ch := q.n 0
    let subj := q.n 1 % 8
    let which := q.n 1 / 16 % 4
    if 1024 ≤ ch ∨ 64 ≤ q.n 1 ∨ q.n 1 / 8 % 2 = 1 ∨ 5 < subj ∨ which = 3 then s.fail 0x52 q St.badParam
    else
      let k := if subj = 5 then syncKey else calKey ch subj
      let rej := subj != 5 && (s.fget (R.CH_CAL_STAT_REJ ch)).testBit subj
      let answer (epoch : Word) (it : CalItem) : State :=
        let f := (s.staleItem it subj ch).toNat + 4 * it.noTrace.toNat + 8 * rej.toNat
        s.reply 0x52 q St.ok [epoch, BitVec.ofNat 32 f, BitVec.ofNat 32 (unsigned 32 it.tj), BitVec.ofNat 32 it.hours]
          (calPayload k subj it)
      match which with
      | 0 => if subj = 5 then answer (s.rget R.CAL_EPOCH) (s.calNewest k)
        else answer (s.rget (R.TILE_CAL_EPOCH (ch / 16))) (s.calOf k)
      | 1 => answer (s.rget R.CAL_EPOCH) (s.calNewest k)
      | _ => match Store.get (fun _ => none) s.calPend k with
        | some it => answer 0xFFFFFFFF it
        | none => s.reply 0x52 q St.ok [0xFFFFFFFF, BitVec.ofNat 32 (2 + 8 * rej.toNat), 0, 0]

/-! ## Forced runs (R239) -/

/-- The channels of the named tiles that are neither DORMANT nor OFF. -/
def State.runChans (s : State) (l : List Nat) : List Nat := (l.filter fun t => decide (s.power t < 2)).flatMap chansOf

/-- The channels that DISTURB takes to OFF: in FUNC or PMU and not in a safety safe state. -/
def State.disturbed (s : State) (l : List Nat) : List Nat := (s.runChans l).filter fun ch => s.mode ch != 0 && !s.chanFenced ch

/-- The channels of the named tiles that a run skips for some selected subject. -/
def State.skipped (s : State) (l : List Nat) (subj : Nat) (disturb : Bool) : List Nat :=
  (l.flatMap chansOf).filter fun ch =>
    s.chanFenced ch || decide (2 ≤ s.power (ch / 16)) ||
      (subj % 16 != 0 && ((s.chan ch).safe || (s.fget (R.CH_MODE_MODE ch) != 0 && !disturb)))

/-- CAL_RUN: its checks, and the DISTURB channels go to OFF. -/
def doCalRun (q : Req) (s : State) : State :=
  s.request 0x50 q fun s =>
    let subj := q.n 0
    let l := if subj % 32 = 0 then [] else q.tiles 1
    let disturb := q.n 3 % 2 == 1
    if 64 ≤ subj ∨ subj = 0 ∨ 4 ≤ q.n 3 then s.fail 0x50 q St.badParam
    else match l.find? s.tileFenced with
    | some t => s.fail 0x50 q St.fenced (BitVec.ofNat 32 t)
    | none => match l.find? fun t => !s.idle t with
      | some t => s.fail 0x50 q St.busy (BitVec.ofNat 32 t)
      | none =>
        if s.flag R.CAL_STATUS_RUN || decide (256 ≤ s.splits.length) then s.fail 0x50 q St.busy
        else
          let away := if disturb && subj % 16 != 0 then s.disturbed l else []
          let skip := if subj % 32 = 0 then [] else s.skipped l subj disturb
          let s := away.foldl (fun s ch => s.lend ch) s
          (s.setFlag R.CAL_STATUS_RUN true).start 0x50 q (skip.length :: away)

/-- A DISTURB channel returns to its mode under R137 with KNOWN cleared, unless a write or a reaction has reached it since. -/
def State.calReturn (s : State) (ch : Nat) : State :=
  if (s.chan ch).lent then
    let m := s.rget (R.CH_MODE ch)
    ((s.fset (R.CH_MODE_MODE ch) 0).modChan ch fun c => { c with safe := false }).chMode ch m
  else s

/-- A run ends: its channels return, and no run is in progress. -/
def State.calRunEnd (s : State) (x : Split) : State :=
  (x.aux.drop 1).foldl (fun s ch => s.calReturn ch) (s.setFlag R.CAL_STATUS_RUN false)

/-- Whether a channel may be measured for a subject, or has been taken to OFF for it (R227, R239). -/
def State.calFree (s : State) (ch subj : Nat) : Bool :=
  s.calAllowed ch subj || ((s.chan ch).lent && !s.flag (R.CH_STATUS_GATE ch) && decide (s.power (ch / 16) < 2))

/-- Whether an item belongs to a run: one that something has reached since it began is discarded (R228). -/
def State.inRun (s : State) (x : Split) (m : CalMeas) : Bool :=
  let subj := (x.params.getD 0 0).toNat
  let l := tilesOf (x.params.getD 1 0) (x.params.getD 2 0)
  m.subj.val != 5 && subj.testBit m.subj.val && l.contains (m.chan.val / 16) && s.undisturbed m && s.calFree m.chan.val m.subj.val

/-- The items of a list whose channel and subject do not come again behind them: a newer measurement replaces the older (R231). -/
def lastItems : List CalMeas → List CalMeas
  | [] => []
  | m :: l => if l.any fun n => calMeasKey n == calMeasKey m then lastItems l else m :: lastItems l

/-- Whether a run has measured each of its subjects on every channel that can be measured for it (R239). -/
def State.runWhole (s : State) (x : Split) (items : List CalMeas) : Bool :=
  let subj := (x.params.getD 0 0).toNat
  (List.range 5).all fun j => !subj.testBit j ||
    ((tilesOf (x.params.getD 1 0) (x.params.getD 2 0)).flatMap chansOf).all fun ch =>
      !s.calFree ch j || items.any fun m => m.chan.val == ch && m.subj.val == j

/-- CAL_RUN_DONE: the items enter the pending set, the channels return, the run completes, and with COMMIT a commit follows. Throttle
stage 1 pauses the run, which does not end then, nor before every channel has been measured. -/
def doCalRunDone (o : OpRef) (items : List CalMeas) (s : State) : State :=
  match s.split? 0x50 o with
  | none => s
  | some x =>
    if s.stage1 || !s.runWhole x items then s
    else
    let wants5 := (x.params.getD 0 0).getLsbD 5
    let mine := lastItems (items.filter (s.inRun x))
    let bad := (mine.filter s.calRejected).length
    let five := if wants5 then s.syncItem else none
    let s := mine.foldl (fun s m => s.calEnter m (s.rowTj m.chan.val)) s
    let s := (if wants5 then s.syncEnter else s).calRunEnd x
    let commit := (x.params.getD 3 0).getLsbD 1
    let s := if commit then s.commit else s
    let skip := x.aux.headD 0
    let bad5 := match five with
      | some v => decide (v < -32768 ∨ 32767 < v)
      | none => false
    let bad := bad + bad5.toNat
    let st := if skip ≠ 0 ∨ bad ≠ 0 ∨ (wants5 ∧ five.isNone) then St.part else St.ok
    s.complete x st [BitVec.ofNat 32 (mine.length + five.isSome.toNat), BitVec.ofNat 32 skip, BitVec.ofNat 32 bad]

def execCalRunDone (o : OpRef) (items : List CalMeas) (s : State) : Host.Outcome State Fault Refusal :=
  .next (doCalRunDone o items s)

/-- CALVING_DESKEW_DONE: subject 3 of the row, measured on the new core, is committed and applied before the tile's next step
(R234; 16_self_repair.md R392). The tile waits until an item of every channel that can be measured has been accepted. -/
def doCalvingDeskewDone (t : Fin 64) (items : List CalMeas) (s : State) : State :=
  if !(s.tile t.val).deskew || s.stage1 then s
  else
    let mine := items.filter fun m => m.subj.val == 3 && m.chan.val / 16 == t.val && s.undisturbed m && s.calFree m.chan.val 3
    let good := mine.filter fun m => !s.calRejected m
    let whole := (chansOf t.val).all fun ch => !s.calFree ch 3 || good.any fun m => m.chan.val == ch
    let s := mine.foldl (fun s m => s.calEnter m (s.rowTj m.chan.val)) s
    if !whole then s
    else
      let s := (s.tile t.val).away.foldl (fun s ch => s.calReturn ch) s
      let s := s.modTile t.val fun c => { c with deskew := false, away := [] }
      s.commit.boundary t.val

def execCalvingDeskewDone (t : Fin 64) (items : List CalMeas) (s : State) : Host.Outcome State Fault Refusal :=
  .next (doCalvingDeskewDone t items s)

end Sys2Proof.Machine
end

