-- ==== Sys2Proof/Machine/React.lean ====
section
/-! DEFINITION. Fault reactions (15_safety_faults.md R370 to R376): the block resets of Table 15.3, the wipe of the vault
(13_security.md R319), and how a split-phase operation ends before its commit point (10_uhleus_protocol.md R257, R258). -/

namespace Sys2Proof.Machine

/-! ## A link leaves ACTIVE or RETRAIN (12_serial_links.md R294, R299, R304) -/

/-- The payload of an operation's packet as far as it has arrived. -/
def State.arrivedOf (s : State) (q : Req) : Option (List Byte) :=
  let x : RxPkt := Store.get (fun _ => {}) (s.link q.link).rx 1
  if q.part = some x.pkt ∧ x.frames ≠ 0 then some ((x.bytes.drop (16 + 4 * q.params.length)).take q.payload.length) else none

/-- The cells of a request that count against its session's window while it waits. -/
def State.heldCells (s : State) (op : BitVec 8) (q : Req) : Nat :=
  let n := if q.part.isSome then (s.arrivedOf q).elim 0 (·.length / 2048) else cellsOf q.payload.length
  let win := s.fget (R.SESS_STAT_WIN q.session.toNat)
  if op = 0x01 ∨ q.noSlot ∨ q.overrun ∨ (!streaming op ∧ win < cellsOf q.payload.length) then 0 else min n win

/-- Cells of a session are free again, and wait to be returned (R250). -/
def State.freeCells (s : State) (n k : Nat) : State :=
  if k = 0 then s else s.modCtx n fun c => { c with retCells := c.retCells + k }

/-- A request leaves the queue for its routine, or for none: its cells are free again. -/
def State.taken (s : State) (op : BitVec 8) (q : Req) : State :=
  let n := q.session.toNat
  if op = 0x01 ∨ !s.sessOpen n then s
  else
    let held := s.heldCells op q
    let s := s.fset (R.SESS_LOAD_PEND n) (s.fget (R.SESS_LOAD_PEND n) - 1)
    let s := s.fset (R.SESS_LOAD_CELLS n) (s.fget (R.SESS_LOAD_CELLS n) - held)
    s.freeCells n (if held = 0 then 0 else if q.part.isSome then held else cellsOf q.payload.length)

/-- The session that the header of a packet names. -/
def RxPkt.session (p : RxPkt) : Nat := (p.bytes.getD 2 0).toNat % 32

/-- A packet counts for no cells any more. -/
def State.uncount (s : State) (p : RxPkt) : State :=
  s.fset (R.SESS_LOAD_CELLS p.session) (s.fget (R.SESS_LOAD_CELLS p.session) - p.cells)

/-- The cells of a packet that will not arrive whole are discarded and free (R250). -/
def State.cellsBack (s : State) (p : RxPkt) : State :=
  if p.cells = 0 ∨ !s.sessOpen p.session then s else (s.uncount p).freeCells p.session p.cells

/-- What has arrived of a SEG_WRITE of a stream that was accepted and will not arrive whole: it leaves its segments FILLING, with bytes that
SEG_COMMIT does not accept (R294). -/
def strmCut (l : Nat) (p : RxPkt) : Option StrmPkt :=
  let b := p.bytes
  if !p.through || b.getD 0 0 != 0x22 then none
  else
    let pc := (b.getD 8 0).toNat
    let got := (b.drop (16 + 4 * pc)).take (leNat ((b.drop 9).take 3))
    some { group := leNat ((b.drop 6).take 2) % 256, commit := false, through := true
           q := { link := Fin.ofNat 12 l, params := wordsOf ((b.drop 16).take (4 * pc)), payload := got.take (got.length / 32 * 32)
                  trailerOk := false } }

/-- A packet that is arriving ends on every output with a STOMP frame. -/
def State.stompRx (s : State) (l : Nat) : State :=
  let cut := (s.link l).rx.filterMap fun e => if e.1 = 3 then strmCut l e.2 else none
  let s := { s with strmWait := s.strmWait ++ cut }
  let s := (s.link l).rx.foldl (fun s e =>
    let f : Frame := { cls := BitVec.ofNat 2 e.1, eop := true, stomp := true, bytes := List.replicate 4 0 }
    (s.cellsBack e.2).frameOut e.2.outs f e.2.pkt none) s
  s.modLink l fun c => { c with rx := [] }

/-- A streaming operation ends with a status; the cells that it has applied stand (R251, R254, R258). With a bad trailer its segments keep
what SEG_COMMIT does not accept. -/
def State.writeEnd (s : State) (w : Writing) (st : BitVec 8) : State :=
  let s := { s with writes := s.writes.filter fun (x : Writing) => x.q.part != w.q.part || x.q.link != w.q.link }
  let s := if st = St.crcError ∧ w.op = 0x22 then w.targets.foldl (fun s e => s.segBad e.1 e.2 (w.q.n 3) w.done) s else s
  let n := BitVec.ofNat 32 w.done
  if st = St.ok ∧ w.locked ≠ none then s.fail w.op w.q St.busy (BitVec.ofNat 32 (w.locked.getD 0))
  else if st = St.ok then s.reply w.op w.q (if w.done = w.q.payload.length then St.ok else St.part) [n]
  else s.fail w.op w.q st (if st = St.crcError then n else 0)

/-- A link loses the rest of the packets that are arriving: a streaming operation ends as one whose trailer does not match (log entry 58),
and one that waits for the engine has not been received: its slot returns. -/
def State.writeLost (s : State) (l : Nat) : State :=
  let s := (s.writes.filter fun (w : Writing) => w.q.link.val == l && w.q.part.isSome).foldl (fun s w => s.writeEnd w St.crcError) s
  let lost (i : Item) : Bool := match i with
    | .request op q => q.link.val == l && q.part.isSome && streaming op
    | _ => false
  let gone := s.items.filter lost
  gone.foldl (fun s (i : Item) => match i with
    | .request op q =>
      let n := q.session.toNat
      let s := s.taken op q
      if q.noSlot || !s.sessOpen n then s
      else (s.fset (R.SESS_STAT_SLOTS n) (min 8 (s.fget (R.SESS_STAT_SLOTS n) + 1))).modCtx n fun c => { c with retSlots := c.retSlots + 1 }
    | _ => s) { s with items := s.items.filter fun i => !lost i }

/-- Frames that wait on a link are discarded; what of their packets is still arriving is not forwarded there (R291, R292). -/
def State.dropFrames (s : State) (l : Nat) (p : OutFrame → Bool) : State :=
  let gone := (s.link l).queue.filter p
  let named (k : Nat) : Bool := gone.any fun (e : OutFrame) => e.pkt == k
  let s := s.modLink l fun c => { c with queue := c.queue.filter fun e => !p e }
  let s := (List.range 12).foldl (fun s k => s.modLink k fun c =>
    { c with rx := c.rx.map fun e => (e.1, if named e.2.pkt then { e.2 with outs := e.2.outs.filter (· != l) } else e.2) }) s
  gone.foldl (fun s e => s.frameGone e) s

/-- The frames that wait on a link are discarded. -/
def State.flushQueue (s : State) (l : Nat) : State :=
  (s.dropFrames l fun _ => true).modLink l fun c => { c with busy := [] }

/-- The packets that hold the classes of a link. -/
def LinkCtx.begun (c : LinkCtx) : List Nat := c.busy.filterMap (·.2)

/-- A link that stops carrying frames has cut the packets that have begun on it: they are discarded and counted (log entry 82). Of the others
the device's own go back to where they wait for a link (R246). -/
def State.cutPackets (s : State) (l : Nat) : State :=
  let c := s.link l
  let cut := c.begun
  let own := c.queue.filterMap fun (e : OutFrame) => if cut.contains e.pkt then none else e.own
  let mine (k : Nat) : Bool := c.queue.any fun (e : OutFrame) => e.pkt == k && e.own.isSome
  let s := (List.range 12).foldl (fun s k => s.modLink k fun c =>
    { c with rx := c.rx.map fun e => (e.1, if cut.contains e.2.pkt then { e.2 with outs := e.2.outs.filter (· != l) } else e.2) }) s
  let s := (s.dropFrames l fun e => cut.contains e.pkt).modLink l fun c =>
    { c with queue := c.queue.filter fun e => !mine e.pkt, busy := [] }
  let s := s.count R.PROTO_DISCARD_COUNT cut.length
  { s with txq := own ++ s.txq }

/-- The receive buffers of a link empty: what it has received and the device has not yet forwarded is gone. A packet that has begun on an
output ends there with a STOMP frame (R294, R299). -/
def State.emptyBuffers (s : State) (l : Nat) : State :=
  let purge (c : LinkCtx) : LinkCtx :=
    let pkts := ((c.queue.filter fun (e : OutFrame) => e.src == some l).map fun e => (e.frame.cls, e.pkt)).eraseDups
    let rest := c.queue.filter fun (e : OutFrame) =>
      e.src != some l && !(pkts.any fun k => k.2 == e.pkt && !c.begun.contains e.pkt)
    let stomps := (pkts.filter fun k => c.begun.contains k.2 && !rest.any fun (e : OutFrame) => e.pkt == k.2).map fun k =>
      ({ frame := { cls := k.1, eop := true, stomp := true, bytes := List.replicate 4 0 }, pkt := k.2 } : OutFrame)
    { c with queue := rest ++ stomps }
  let s := (List.range 16).foldl (fun s k => s.modLink k purge) s
  { s with strmWait := s.strmWait.filter fun (p : StrmPkt) => p.through || p.q.link.val != l }

/-- Event messages that a link holds, or that are due on it, are discarded and counted (R304). -/
def State.dropHeld (s : State) (l : Nat) : State :=
  let c := s.link l
  (s.count R.LINKEV_LOST_COUNT (c.held.length + c.events.length)).modLink l fun c => { c with held := [], events := [] }

/-- The FENCE commands that wait for a link's retrain complete. -/
def State.fenceLaneDone (s : State) (l : Nat) : State :=
  (s.link l).pendFence.foldl (fun s o => match s.splitOf o with
    | some x => s.complete x St.ok
    | none => s) (s.modLink l fun c => { c with pendFence := [] })

/-- The link stops carrying frames: its buffers empty, and it takes the state `st`. Lanes go to low power, or off in OFF. -/
def State.linkStop (s : State) (l st : Nat) : State :=
  let s := (((((s.writeLost l).stompRx l).dropHeld l).fenceLaneDone l).emptyBuffers l).cutPackets l
  let s := s.modLink l fun c => 
    { c with
      good := [], outst := [], limit := false, loop := false, owe := [], since := 0, nak := false, amBad := [], bips := [], pace := 0
      entered := some s.now, amTick := 0 }
  let s := ((s.fset (R.LINK_STATUS_STATE l) st).fset (R.LINK_STATUS_WIDTH l) 0).fset (R.LINK_STATUS_USED l) 0
  (List.range 8).foldl (fun s j => s.rset (R.LANE_STAT l j) (if st = lkOff then 0 else 4)) s

/-- The link enters DOWN from ACTIVE or RETRAIN with the cause of Table 12.5, without the fault report of LINK_EVT. -/
def State.linkDown (s : State) (l cause : Nat) : State :=
  let s := ((s.linkStop l lkDown).modLink l fun c => { c with fails := 1 }).setFlag (R.LINK_EVT_DOWN l) true
  s.chipEvent 0x301 [BitVec.ofNat 32 l, BitVec.ofNat 32 cause]

/-! ## The vault (13_security.md R319, R321, R327) -/

/-- The staging of a bundle load is discarded; a part that is being staged ends with `st`. -/
def State.stagingDrop (s : State) (st : BitVec 8) : State :=
  let s := { s with staging := none }.setFlag R.LC_STATUS_STAGING false
  (s.splits.filter fun (x : Split) => x.opcode == 0x60).foldl (fun s x => s.complete x st) s

/-- A vault wipe: the keys are zeroised, every bundle is removed, the staging is discarded. -/
def State.vaultWipe (s : State) : State :=
  let s := { s with ctxs := s.ctxs.map fun (e : Nat × Ctx) => (e.1, { e.2 with ticket := [] }) }
  let s := (List.range 4).foldl (fun s n => s.bundleRemove n 4) s
  if s.staging.isSome then s.stagingDrop St.hwFault else s

/-! ## Ending split-phase operations -/

/-- A patch that waits for its activation is given up: the requests held are released (11_naljo_engine.md R283). -/
def State.patchRelease (s : State) : State := s.setFlag R.ENG_STATUS_HOLDING false

/-- A split-phase operation ends with `st` before its commit point: what it has prepared is undone. -/
def State.cancelSplit (s : State) (x : Split) (st : BitVec 8) : State :=
  let o := x.id
  match x.opcode.toNat with
  | 0x30 =>
    let s := s.complete x st
    (tilesOf (x.params.getD 0 0) (x.params.getD 1 0)).foldl (fun s t => s.boundary t) s
  | 0x50 => (s.calRunEnd x).complete x st
  | 0x60 => s.stagingDrop st
  | 0x62 => s.vaultWipe.complete x st
  | 0x64 => s.patchRelease.complete x st
  | 0x71 =>
    let gone := s.fenceReq.filter fun (f : FenceReq) => f.op == some o
    let s := { s with fenceReq := s.fenceReq.filter fun (f : FenceReq) => f.op != some o }
    let s := gone.foldl (fun s (f : FenceReq) =>
      if s.fenceReq.any fun (g : FenceReq) => g.kind == f.kind && g.unit == f.unit then s
      else s.setFlag (bitFld (match f.kind with | 0 => R.FENCE_CH 0 | 1 => R.FENCE_TILE 0 | _ => R.FENCE_SNT 0) f.unit) false) s
    s.complete x st
  | 0x72 =>
    let t := (x.params.getD 0 0).toNat % 64
    match (s.tile t).calv with
    | some c =>
      let rest := c.ops.filter (· != o)
      let s := s.complete x st
      if rest.isEmpty && !c.permanent then s.dropCalving t st
      else s.modTile t fun y => { y with calv := some { c with ops := rest } }
    | none => s.complete x st
  | 0x75 => (s.setFlag R.FROST_STATUS_PENDING false).complete x st
  | 0x76 =>
    let s := x.aux.foldl (fun s t =>
      (s.modTile t fun c => { c with pwr := c.pwr.filter fun (r : PwrReq) => r.started || r.op != some o }).syncPwr t) s
    s.complete x st
  | _ => s.complete x st

/-! ## Block resets (Table 15.3) -/

/-- Engine restart: patch RAM and overrides are emptied, every split-phase operation completes INTERNAL and is recorded
(11_naljo_engine.md R273; 18_moraine_counters.md Table 18.2). -/
def State.engineRestart (s : State) : State :=
  let s := s.splits.foldl (fun s (x : Split) =>
    (s.stage 0x12 ([x.opcode, BitVec.ofNat 8 x.session.toNat] ++ leBytes 2 x.tag.toNat)).cancelSplit x St.internal) s
  let s := { s with overrides := [], rr := 32, micro := {} }.eraseSpace 0x12 0
  let s := (List.range 12).foldl (fun s k => s.rset (R.PATCH_DIGEST k) 0) s
  (s.fset R.MCODE_VERSION_PATCH 0).patchRelease

/-- The peripheral queue and FIFO are emptied and every select deasserted (19_management_ports.md R447, R450). -/
def State.ppEmpty (s : State) : State :=
  let s := { s with pp := { s.pp with queue := [], rx := [], held := none } }
  ((s.fset R.PP_STAT_QCOUNT 0).fset R.PP_STAT_RXCOUNT 0).setFlag R.PP_STAT_ACTIVE false

/-- What BLOCK_RESET does in the block whose base is `b` (Table 15.3, R450). -/
def State.blockReset (s : State) (b : Nat) : State :=
  if 0x20000 ≤ b ∧ b < 0x2C000 then
    let l := (b - 0x20000) / 0x1000
    let st := s.linkState l
    if st = lkActive ∨ st = lkRetrain then (s.linkDown l 1).faultLog b 1
    else if st = lkTraining then s.linkStop l lkDown
    else s
  else if b = 0x40000 then s.engineRestart
  else if b = 0x50000 then s.vaultWipe
  else if b = 0x90000 then s.ppEmpty
  else if b = 0xA0000 then s.fset R.BT_STATUS_REGION 0
  else if 0x900000 ≤ b then
    match s.tileOfCore ((b - 0x900000) / 0x1000) with
    | some t => s.endStep t St.hwFault 5
    | none => s
  else s

/-- Sources set in one cycle: bits, one moraine record on each first occurrence, the strongest action of each block, and its reset where that
is BLOCK_RESET and no block carries out CHIP_RESET (R372, R373). -/
def State.raises (s : State) (l : List (Nat × Nat)) (inj : Bool := false) : State :=
  let acts := s.strongest (l.filter (s.faultNew inj))
  let resets := if acts.any fun e => s.actionOf e == 4 then [] else acts.filter fun e => s.actionOf e == 3
  resets.foldl (fun s e => s.blockReset e.1) (s.faultRaises l inj)

/-- A source of a block sets. -/
def State.raise (s : State) (b src : Nat) (inj : Bool := false) : State := s.raises [(b, src)] inj

/-- Flags of LINK_EVT set together, and with them the link block's sources (12_serial_links.md Table 12.4). -/
def State.linkEvts (s : State) (l : Nat) (bits : List Nat) (inj : Bool := false) : State :=
  (s.rset (R.LINK_EVT l) (bits.foldl (fun (w : Word) b => w ||| BitVec.ofNat 32 (2 ^ b)) (s.rget (R.LINK_EVT l)))).raises
    (bits.map fun b => (0x20000 + l * 0x1000, b)) inj

def State.linkEvt (s : State) (l bit : Nat) (inj : Bool := false) : State := s.linkEvts l [bit] inj

/-- The reporting blocks' bases (Table 15.3). -/
def fltBase : FltBlk → Nat
  | .link l => 0x20000 + l.val * 0x1000
  | .engine => 0x40000
  | .security => 0x50000
  | .safety => 0x60000
  | .power => 0x70000
  | .moraine => 0x80000
  | .mgmt => 0x90000
  | .memctl => 0xA0000
  | .core c => 0x900000 + c.val * 0x1000

/-! ## The commands of fault reporting -/

/-- The interrupt routine of a source of the block whose base is `b` sends the FAULT event (R372, R376). -/
def State.faultRoutine (s : State) (b src : Nat) : State :=
  let f := (s.faultSet b src false).toNat + 2 * (s.faultSet b src true).toNat
  s.routine.chipEvent 0x100 [BitVec.ofNat 32 (R.FLT_REAL b), BitVec.ofNat 32 src, BitVec.ofNat 32 f]

/-- FAULT_CLEAR: a W1C write to FLT_REAL or FLT_INJ; the bits whose condition is still present stay 1 (R373, R374). -/
def doFaultClear (b : FltBlk) (inj : Bool) (mask stillPresent : Word) (s : State) : State :=
  let base := fltBase b
  let a := if inj then R.FLT_INJ base else R.FLT_REAL base
  let held := (if inj then s.injHeld else s.held).foldl (fun (m : Word) h => if h.1 = base then m ||| BitVec.ofNat 32 (2 ^ h.2.1) else m) 0
  s.rset a (s.rget a &&& ~~~(mask &&& ~~~stillPresent &&& ~~~held))

def execFaultClear (b : FltBlk) (inj : Bool) (mask stillPresent : Word) (s : State) : Host.Outcome State Fault Refusal :=
  .next (doFaultClear b inj mask stillPresent s)

/-- SF_LOCK_SET: LOCK is set and stays set until power-on reset (R375). -/
def doSfLockSet (s : State) : State := s.setFlag R.SF_CFG_LOCK true

def execSfLockSet (s : State) : Host.Outcome State Fault Refusal := .next (doSfLockSet s)

end Sys2Proof.Machine
end

