-- ==== Sys2Proof/Machine/Time.lean ====
section
/-! DEFINITION. System time (02_epoch_grid.md R37 to R48, R57; 12_serial_links.md R300, R302): the commands that load, check and
read the count. -/

namespace Sys2Proof.Machine

/-! ## Loading the count (R39 to R42) -/

/-- Whether the chip holds a step, which refuses a load (R40). -/
def State.holdsStep (s : State) : Bool := !(s.tilesIn inStep).isEmpty

/-- The count is loaded: VALID sets, and instants on record move with the count. -/
def State.loadTime (s : State) (v : BitVec 64) (deskew : Int) : State :=
  let d : Int := (v.toNat : Int) - s.sysTime.toNat
  let clear (e : Nat × TileCtx) : Option (Nat × TileCtx) :=
    let m := e.2.shiftEvents (d * unitFs)
    let c : TileCtx := { m with tc := [], lastE := m.lastE + d * unitFs, endE := m.endE + d * unitFs }
    let c : TileCtx := if s.stepState e.1 = stEnded then c else { m with tc := [] }
    if c = {} then none else some (e.1, c)
  let s := { s with sysTime := v, syncD := deskew, syncPhases := [], syncCount := 0, tiles := s.tiles.filterMap clear }
  (s.shiftSpans (d * unitFs)).setFlag R.TIME_STATUS_VALID true

/-- An unarmed SYNC edge is measured (R41), and after every 64 of them the SYNC item is formed (09_calibration.md R239). -/
def State.syncMeasure (s : State) (u : Nat) : State :=
  let load := s.pair R.SYNC_LOAD_LO R.SYNC_LOAD_HI
  let ph : Int := ((u : Int) - load + 1280) % 2560 - 1280
  let s := s.rset R.SYNC_CHECK (BitVec.ofNat 32 (unsigned 32 ph))
  let s := { s with syncPhases := (ph :: s.syncPhases).take 64, syncCount := s.syncCount + 1 }
  if s.syncCount % 64 = 0 && s.calBackground 5 then s.syncEnter else s

def State.syncArmedNow (s : State) : Bool := !s.flag R.TIME_CTRL_SRC && s.flag R.TIME_CTRL_SYNC_ARM

/-- SYNC_EDGE: with the load armed the edge waits for its second REFCLK edge, otherwise it is measured; `u` is the count at which
it crosses the threshold. -/
def doSyncEdge (u : Nat) (s : State) : State :=
  if s.syncArmedNow && s.syncArmed.isNone then { s with syncArmed := some u } else s.syncMeasure u

def execSyncEdge (u : Nat) (s : State) : Host.Outcome State Fault Refusal := .next (doSyncEdge u s)

/-- SYNC_ARMED_LOAD: the load takes effect, or is refused while the chip holds a step and the edge counts as unarmed (R40, R41). An edge
whose SYNC_ARM has been cleared or SRC set between sampling and load is measured as unarmed (DESIGN CHOICE, log entry 54). -/
def doSyncArmedLoad (s : State) : State :=
  match s.syncArmed with
  | none => s
  | some u =>
    let s := { s with syncArmed := none }
    if !s.syncArmedNow then s.syncMeasure u
    else if s.holdsStep then (s.setFlag R.TIME_STATUS_SYNC_REJ true).syncMeasure u
    else
      let d := signed 16 (s.fget R.SYNC_DESKEW_DESKEW)
      let v := BitVec.ofNat 64 (unsigned 64 ((s.pair R.SYNC_LOAD_LO R.SYNC_LOAD_HI : Int) + d))
      (s.loadTime v d).setFlag R.TIME_CTRL_SYNC_ARM false

def execSyncArmedLoad (s : State) : Host.Outcome State Fault Refusal := .next (doSyncArmedLoad s)

/-- SYSTIME_WRAP: the REFCLK edge at which the count wraps (R38). -/
def doSystimeWrap (s : State) : State :=
  s.wrapTo (if s.sysTime.toNat + 2560 < 2 ^ 64 then 0 else s.sysTime + 2560)

def execSystimeWrap (s : State) : Host.Outcome State Fault Refusal := .next (doSystimeWrap s)

/-! ## REFCLK and the oven (R46, R47) -/

/-- REF_CHECK: a deviation of more than 100 ppm over the 1 ms gate; the condition lasts until a gate finds REFCLK back (R46). -/
def doRefCheck (ppm : Int) (s : State) : State :=
  let k := (0x60000, 10, 0)
  if ppm.natAbs ≤ 100 then { s with held := s.held.filter (· != k) }
  else
    let s := (s.setFlag R.TIME_STATUS_REF_LOST true).setFlag R.TIME_STATUS_VALID false
    let s := s.endSteps (List.range 64) St.hwFault 9
    if s.held.contains k then s else { s with held := s.held ++ [k] }.raise 0x60000 10

def execRefCheck (ppm : Int) (s : State) : Host.Outcome State Fault Refusal := .next (doRefCheck ppm s)

/-- REF_WARM sets, and the running steps carry WARMUP (R48). -/
def State.setWarm (s : State) : State :=
  let s := { s with warmSecs := 0 }.warmTo true
  (s.tilesIn (· == stRunning)).foldl (fun s t => s.suspectFlag t Sf.warmup) s

/-- The drift at a measured frequency, both in units of 0.001 ppm: the change since the measurement of 60 s before, or since the oldest
one while fewer than 60 s have been measured (R47; log entry 55). -/
def State.driftOf (s : State) (freq : Int) : Int := freq - (s.refFreqs.take 60).getLastD freq

/-- REF_DRIFT_CHECK: the measurement and evaluation of once per second; `freq` is the deviation of REFCLK from the crystal in units of
0.001 ppm. Sixty seconds lie between the first and the sixty-first evaluation at which both conditions hold. -/
def doRefDriftCheck (freq : Int) (s : State) : State :=
  let drift := s.driftOf freq
  let s := { s with refFreqs := (freq :: s.refFreqs).take 60 }.rset R.REF_DRIFT (BitVec.ofNat 32 (unsigned 32 drift))
  if 50 ≤ drift.natAbs then s.setWarm
  else if !s.ocxo then { s with warmSecs := 0 }
  else
    let s := { s with warmSecs := min 61 (s.warmSecs + 1) }
    if s.warmSecs = 61 then s.warmTo false else s

def execRefDriftCheck (freq : Int) (s : State) : Host.Outcome State Fault Refusal := .next (doRefDriftCheck freq s)

/-- OCXO_READY_CHANGE: the input's level; when it falls, REF_WARM sets again and the 60 s begin afresh. -/
def doOcxoReadyChange (high : Bool) (s : State) : State :=
  if high then if s.ocxo then s else { s with ocxo := true, warmSecs := 0 }
  else { s with ocxo := false }.setWarm

def execOcxoReadyChange (high : Bool) (s : State) : Host.Outcome State Fault Refusal := .next (doOcxoReadyChange high s)

/-! ## Reading the count (R57) -/

/-- SYSTIME_LO_READ: the high word is latched for the reading context. -/
def doSystimeLoRead (ctx : Fin 33) (s : State) : State :=
  s.modCtx ctx.val fun c => { c with sysHi := (s.sysTime >>> 32).setWidth 32 }

def execSystimeLoRead (ctx : Fin 33) (s : State) : Host.Outcome State Fault Refusal := .next (doSystimeLoRead ctx s)

/-! ## Time messages (R42, R43; 12_serial_links.md R300, R302) -/

/-- Whether a time message is due: the first one within 10 µs of entering ACTIVE, then one at the REFCLK edge at or next behind every system
time that is a multiple of 2^28 units (R300). -/
def State.timeDue (s : State) (l : Nat) : Bool :=
  match (s.link l).lastTime with
  | none => (s.link l).entered.all fun i => decide (s.now ≤ i + 10 * 65536000000)
  | some n => decide (s.sysTime.toNat % 2 ^ 28 < 2560) && n != s.sysTime.toNat / 2 ^ 28

/-- TIME_MESSAGE_SEND: an ACTIVE link with ROLE = DOWN and TMSG = 1 sends the count with the chip's ID while it is valid. -/
def doTimeMessageSend (l : Fin 12) (s : State) : State :=
  if s.flag (R.LINK_CTRL_ROLE l.val) && s.flag (R.LINK_CTRL_TMSG l.val) && s.linkState l.val == lkActive &&
      s.flag R.TIME_STATUS_VALID && s.timeDue l.val then
    (s.modLink l.val fun c => { c with lastTime := some (s.sysTime.toNat / 2 ^ 28) }).sendWire l.val (.time s.sysTime (s.fget R.CHIP_ID_ID))
  else s

def execTimeMessageSend (l : Fin 12) (s : State) : Host.Outcome State Fault Refusal := .next (doTimeMessageSend l s)

/-- The time-source link: the lowest-numbered ACTIVE link with ROLE = UP (R302). -/
def State.timeSource (s : State) : Option Nat :=
  (List.range 12).find? fun l => s.linkState l == lkActive && !s.flag (R.LINK_CTRL_ROLE l)

/-- Half of a round trip in whole units; which way an odd one rounds is open (log entry 4). -/
def State.halfRtt (s : State) (l : Nat) : Nat × State :=
  let r := s.fget (R.LINK_RTT_RTT l)
  if r % 2 = 0 then (r / 2, s)
  else
    let (w, s) := s.free
    (r / 2 + w.toNat % 2, s)

/-- The difference of two counts modulo 2^64, as a signed number. -/
def countDiff (a b : Int) : Int := (a - b + 2 ^ 63) % 2 ^ 64 - 2 ^ 63

/-- TIME_MESSAGE_RECEIVE: on the time-source link the message loads the count when armed, otherwise it is checked against the count;
`arrival` is the device's count at the arrival. A message that loads the count is not compared with the old count (R43 leaves it open;
DESIGN CHOICE, log entry 54). -/
def doTimeMessageReceive (l : Fin 12) (time arrival : BitVec 64) (s : State) : State :=
  if s.timeSource != some l.val then s
  else
    let armed := s.flag R.TIME_CTRL_SRC && s.flag R.TIME_CTRL_LINK_ARM
    let check (s : State) : State :=
      let d := countDiff (time.toNat : Int) arrival.toNat * 2 + s.fget (R.LINK_RTT_RTT l.val)
      if s.flag R.TIME_STATUS_VALID && decide (256 < d.natAbs) then
        ((s.setFlag R.TIME_STATUS_SLIP true).suspectAll Sf.time).raise 0x60000 9
      else s
    if !armed then check s
    else if s.holdsStep then check (s.setFlag R.TIME_STATUS_SYNC_REJ true)
    else
      let (lat, s) := s.halfRtt l.val
      let s := s.rset R.TIME_LINK_LAT (BitVec.ofNat 32 (2 ^ 28 * l.val + lat))
      (s.loadTime (time + BitVec.ofNat 64 lat) 0).setFlag R.TIME_CTRL_LINK_ARM false

def execTimeMessageReceive (l : Fin 12) (time arrival : BitVec 64) (s : State) : Host.Outcome State Fault Refusal :=
  .next (doTimeMessageReceive l time arrival s)

end Sys2Proof.Machine
end

