-- ==== Sys2Proof/Machine/Pattern.lean ====
section
/-! DEFINITION. Writing and committing segments, and broadcast streams (04_pattern_store.md R99 to R109; 13_security.md R329). -/

namespace Sys2Proof.Machine

/-! ## The packet of Table 4.3 -/

def segStrm (q : Req) : Bool := (q.p 2).getLsbD 6
def segSealedOp (q : Req) : Bool := (q.p 2).getLsbD 5
def segRing (q : Req) : Bool := (q.p 2).getLsbD 4

/-- The segment that a packet acts on in a tile. -/
def State.segNamed (s : State) (t : Nat) (q : Req) : Nat := if segRing q then s.ringFill t else q.n 2 % 16

/-- Whether the parameters of a SEG_WRITE or SEG_COMMIT break the limits of R101 that do not depend on a tile. -/
def segLimits (commit : Bool) (q : Req) : Bool :=
  let len := q.payload.length
  decide (128 ≤ q.n 2) || (segRing q && q.n 2 % 16 != 0) ||
    (if segStrm q then !segRing q || q.p 0 != 0 || q.p 1 != 0 else q.p 4 != 0 || (q.tiles 0).isEmpty) ||
    (!commit && (q.n 3 % 32 != 0 || len % 32 != 0 || decide (len < 32) || decide (65536 < len) || decide (131072 < q.n 3 + len)))

/-! ## Sealed segments (13_security.md R329) -/

/-- The initialisation vector of a segment: by its number, or by its stream sequence number. -/
def segIv (b : Bundle) (seg : Nat) (seq : Option Nat) : List Byte :=
  b.id ++ beBytes (match seq with
    | none => 0x40000000 + seg
    | some n => (0x80000000 + (n + 2 ^ 32 - b.seq0) % 2 ^ 32) % 2 ^ 32)

/-- The authentication tag that the bundle's table holds for a segment, if any. -/
def segTag (b : Bundle) (seg : Nat) (seq : Option Nat) : Option (List Byte) :=
  Store.get (fun _ => none) b.tags (match seq with
    | none => seg
    | some n => 16 + (n + 2 ^ 32 - b.seq0) % 2 ^ 32)

/-- The bundle that a tile holds. -/
def State.bundleAt (s : State) (t : Nat) : Bundle :=
  match s.bundleOf t with
  | some n => Store.get (fun _ => {}) s.bundles n
  | none => {}

/-- The offset at which the next ciphertext of a segment must begin, beside a fresh start at 0. -/
def State.segNext (s : State) (t i : Nat) : Nat :=
  if s.segSt t i = sgFilling ∧ s.segSealed t i then (s.segSealOf t i).cipher.length else 0

/-- Whether a sealed write would break the ascending order of its segment. -/
def State.segOrder (s : State) (t i off : Nat) : Bool := off == 0 || off == s.segNext t i

/-! ## One tile's write and commit -/

/-- Payload of a SEG_WRITE enters a segment at an offset; the segment is FILLING from its first cell on. Only the bytes named change (R103),
but for a plain write to a sealed segment, which zeroes it first (R104). -/
def State.segStore (s : State) (t i off : Nat) (enc : Bool) (seq : Option Nat) (payload : List Byte) : State :=
  let base := i * 0x20000
  let bad := carve (s.segSealOf t i).bad off (off + payload.length)
  let s := s.eccFresh 1 (s.coreOf t) (base + off) payload.length
  if enc then
    let old : List Byte := if off = 0 then [] else (s.segSealOf t i).cipher
    let b := s.bundleAt t
    let iv := segIv b i seq
    let plain := gcmBytes b.key iv off payload
    let s := (s.setFlag (sealFld t i) true).setSegSeal t i { cipher := old ++ payload, seq := seq, bad := bad }
    ((s.mwrite 1 t (base + off) plain).fset (segFld t i) sgFilling).segSync t
  else
    let s := if s.segSealed t i then ((s.segErase t i).setFlag (sealFld t i) false).setSegSeal t i {} else s.setSegSeal t i { bad := bad }
    ((s.mwrite 1 t (base + off) payload).fset (segFld t i) sgFilling).segSync t

/-- CRC-32C over the 131,072 bytes of a segment; of a sealed segment, over the ciphertext as received. -/
def State.segCrc (s : State) (t i : Nat) : Word :=
  let c := (s.segSealOf t i).cipher
  let f (k : Nat) : Byte := if s.segSealed t i then c.getD k 0 else s.mget 1 t (i * 0x20000 + k)
  crcFold f 131072 0 0xFFFFFFFF ^^^ 0xFFFFFFFF

/-- Whether the contents of a segment pass the checks of a SEG_COMMIT: the CRC, for a sealed segment the tag and ciphertext for all its bytes,
so that none of its plain contents from before plays (R104; log entry 28), and no bad trailer. -/
def State.segMatches (s : State) (t i : Nat) (crc : Word) : Bool :=
  let x := s.segSealOf t i
  let b := s.bundleAt t
  s.segCrc t i == crc &&
    (!s.segSealed t i || (decide (131072 ≤ x.cipher.length) &&
      segTag b i x.seq == some (gcmTag b.key (segIv b i x.seq) [] x.cipher))) &&
    !(s.segSt t i == sgFilling && !x.bad.isEmpty)

/-- A FILLING segment becomes VALID; FILL moves on if it is the FILL segment (R99, R101). -/
def State.segValid (s : State) (t i : Nat) : State :=
  let s := s.fset (segFld t i) sgValid
  let now := s.tileTime t s.now
  let s := s.modTile t fun c => { c with tc := Store.put (fun _ => 0) c.tc i now }
  let s := if s.ringLen t != 0 && s.ringFill t == i then s.fset (R.STRM_STATUS_FILL t) (s.ringNext t i) else s
  s.segSync t

/-- What a SEG_COMMIT does in one tile: the state, the failing status if any, and whether the tile committed. -/
def State.segCommit1 (s : State) (t i : Nat) (crc : Word) : State × Option (BitVec 8) × Bool :=
  let st := s.segSt t i
  if st = sgEmpty then (s, some St.badParam, false)
  else if !s.segMatches t i crc then (s, some St.crcError, false)
  else if st = sgFilling then (s.segValid t i, none, true)
  else (s, none, false)

/-! ## SEG_WRITE and SEG_COMMIT (R101) -/

/-- Whether a tile is a member of an open stream and a write would reach its ring. -/
def State.ringHeld (s : State) (t : Nat) (q : Req) : Bool :=
  s.flag (R.STRM_CFG_MEMBER t) && (segRing q || s.inRing t (q.n 2 % 16))

/-- The status of a SEG_WRITE that may not write, with the tile at fault. -/
def State.segRefused (s : State) (q : Req) : Option (BitVec 8 × Nat) :=
  let l := q.tiles 0
  let first (st : BitVec 8) (p : Nat → Bool) : Option (BitVec 8 × Nat) := (l.find? p).map fun t => (st, t)
  (first St.badParam fun t => (segRing q && s.ringLen t == 0) || (segSealedOp q && (s.bundleOf t).isNone)) |>.or <|
  (first St.fenced s.tileFenced) |>.or <|
  (first St.busy fun t =>
    let i := s.segNamed t q
    s.segLocked t i || (segRing q && decide (sgFilling < s.segSt t i)) || s.ringHeld t q) |>.or <|
  first St.badParam fun t => segSealedOp q && !s.segOrder t (s.segNamed t q) (q.n 3)

/-- A packet of a stream that is not addressed to an open group is discarded and counted (10_uhleus_protocol.md R245). -/
def State.discard (s : State) : State := s.count R.PROTO_DISCARD_COUNT

/-! ## Streaming operations (10_uhleus_protocol.md R252) -/

/-- Payload bytes of a streaming operation behind those applied are written in every target. -/
def State.writeCells (s : State) (w : Writing) (data : List Byte) : State :=
  if w.op = 0x22 then w.targets.foldl (fun s e => s.segStore e.1 e.2 (w.q.n 3 + w.done) (segSealedOp w.q) none data) s
  else w.targets.foldl (fun s e =>
    (s.mwrite (w.q.n 0) e.1 (w.q.n 1 + w.done) data).eccFresh (w.q.n 0) (if w.q.n 0 < 0x10 then s.coreOf e.1 else 0) (w.q.n 1 + w.done)
      data.length) s

/-- The progress of a streaming operation on record. -/
def State.setWriting (s : State) (w v : Writing) : State × Writing :=
  ({ s with writes := s.writes.map fun (x : Writing) => if x = w then v else x }, v)

/-- The whole cells that have arrived are applied; with the last cell, all. A SEG_WRITE whose segment another commit has locked since writes
no more of it, and completes with BUSY (R95; DESIGN CHOICE, log entry 71). -/
def State.writeOn (s : State) (w : Writing) (got : List Byte) (final : Bool) : State × Writing :=
  let n := min w.limit (if final then got.length else got.length / 2048 * 2048)
  if n ≤ w.done then (s, w)
  else match if w.op = 0x22 then w.targets.find? fun e => s.segLocked e.1 e.2 else none with
    | some e => s.setWriting w { w with limit := w.done, locked := some e.1 }
    | none => (s.writeCells w ((got.take n).drop w.done)).setWriting w { w with done := n }

/-- A streaming operation acts behind its checks: on its payload where that has arrived, else cell by cell as it arrives. -/
def State.writeBegin (s : State) (w : Writing) : State :=
  if w.q.part.isNone then
    let r := s.writeOn w w.q.payload true
    r.1.writeEnd r.2 (if w.q.trailerOk then St.ok else St.crcError)
  else match s.arrivedOf w.q with
    | some got => ({ s with writes := s.writes ++ [w] }.writeOn w got false).1
    | none => s.writeEnd w St.crcError

/-- SEG_WRITE of a session. -/
def doSegWrite (q : Req) (s : State) : State :=
  if segStrm q then s.discard
  else s.request 0x22 q fun s =>
    if segLimits false q then s.fail 0x22 q St.badParam
    else match s.segRefused q with
    | some (st, t) => s.fail 0x22 q st (BitVec.ofNat 32 t)
    | none =>
      s.writeBegin { op := 0x22, q := q, targets := (q.tiles 0).map fun t => (t, s.segNamed t q), limit := q.payload.length }

/-- SEG_COMMIT in each named tile, in tile order: the first failing status and the tiles that committed. -/
def State.segCommits (s : State) (q : Req) : List Nat → State × Option (BitVec 8) × List Nat
  | [] => (s, none, [])
  | t :: l =>
    let r := s.segCommit1 t (s.segNamed t q) (q.p 3)
    let rest := r.1.segCommits q l
    (rest.1, r.2.1.or rest.2.1, if r.2.2 then t :: rest.2.2 else rest.2.2)

/-- SEG_COMMIT of a session; every reply carries the mask of the tiles that committed. One with SEALED = 1 that names a tile without a
bundle is answered as a SEG_WRITE is (log entry 58). -/
def doSegCommit (q : Req) (s : State) : State :=
  if segStrm q then s.discard
  else s.request 0x23 q fun s =>
    if segLimits true q || (segRing q && (q.tiles 0).any fun t => s.ringLen t == 0) ||
        (segSealedOp q && (q.tiles 0).any fun t => (s.bundleOf t).isNone) then
      s.reply 0x23 q St.badParam [0, 0]
    else
      let r := s.segCommits q (q.tiles 0)
      let m := tileMask r.2.2
      r.1.reply 0x23 q (r.2.1.getD St.ok) [m.1, m.2]

/-! ## Streams (R105 to R108) -/

/-- The slot of an open group. -/
def State.strmSlot (s : State) (g : Nat) : Option Nat :=
  (List.range 8).find? fun n => s.flag (R.STRM_CTL_OPEN n) && s.fget (R.STRM_CTL_GROUP n) == g

/-- The member tiles of a slot: those it names that have not left the stream with their registers, in OFF. -/
def State.strmTiles (s : State) (n : Nat) : List Nat :=
  (tilesOf (s.rget (R.STRM_TILES_LO n)) (s.rget (R.STRM_TILES_HI n))).filter fun t =>
    s.flag (R.STRM_CFG_MEMBER t) && s.fget (R.STRM_CFG_GROUP t) == s.fget (R.STRM_CTL_GROUP n)

/-- The replication links of a slot. -/
def State.strmLinks (s : State) (n : Nat) : List Nat :=
  (List.range 12).filter fun l => (s.fget (R.STRM_CTL_DLINKS n)).testBit l

/-- A link carries frames, or is about to again (12_serial_links.md Table 12.3). -/
def State.trained (s : State) (l : Nat) : Bool := s.linkState l == lkActive || s.linkState l == lkRetrain

/-- Whether a member tile is receiving (R106). -/
def State.receiving (s : State) (t : Nat) : Bool :=
  inStep (s.stepState t) && decide (s.power t < 2) && !s.flag (R.STRM_STATUS_BROKEN t)

/-- Tiles become BROKEN; the session that opened the stream hears of it. -/
def State.strmBreak (s : State) (n g : Nat) (l : List Nat) : State :=
  if l.isEmpty then s
  else
    let m := tileMask l
    (l.foldl (fun s t => s.setFlag (R.STRM_STATUS_BROKEN t) true) s).eventFor (s.strm n).owner 0x13 [BitVec.ofNat 32 g, m.1, m.2]

/-- Whether the first cell of a stream segment is accepted (R107); any other packet is. -/
def State.strmReady (s : State) (n : Nat) (p : StrmPkt) : Bool :=
  p.through || p.commit || p.q.p 3 != 0 ||
    (((s.strmTiles n).filter s.receiving).all (fun t => s.segSt t (s.ringFill t) == sgEmpty) &&
      (s.strmLinks n).all fun l => s.fget (creditFld l 3) != 0)

/-- The bytes of a request packet to a group (10_uhleus_protocol.md Table 10.1). -/
def groupBytes (op : Nat) (q : Req) (g : Nat) : List Byte :=
  let w0 := op + 256 * q.flags.toNat + 65536 * q.session.toNat + 2 ^ 21 * q.kind.toNat + 2 ^ 28 * q.hver.toNat
  let w1 := q.tag.toNat + 65536 * g + 2 ^ 30
  let head := leBytes 4 w0 ++ leBytes 4 w1 ++ leBytes 4 (q.params.length + 256 * q.payload.length) ++ leBytes 2 0
  let body := q.params.flatMap wordBytes ++ padded q.payload
  let crc : Word := if body.isEmpty then 0 else crc32c body
  head ++ leBytes 2 (crc16 head).toNat ++ body ++ wordBytes (if q.trailerOk then crc else ~~~crc)

/-- A copy of a stream packet on each replication link but the one it arrived on (R106); one that has been forwarded while it arrived has its
copies. -/
def State.strmForward (s : State) (n : Nat) (p : StrmPkt) : State :=
  let outs := (s.strmLinks n).filter (· != p.q.link.val)
  if outs.isEmpty || p.through then s
  else (s.bytesOut outs 3 (groupBytes (if p.commit then 0x23 else 0x22) p.q p.group)).evCount (97 + 4 * n)

/-- A SEG_WRITE of a stream reaches the FILL segments of the tiles that receive the segment; one that some receiving tile cannot take
reaches none (log entry 58). -/
def State.strmWrite (s : State) (n : Nat) (q : Req) : State :=
  let x := s.strm n
  let here := (s.strmTiles n).filter s.receiving
  let cur := if q.p 3 = 0 then here else x.cur.filter here.contains
  let s := s.setStrm n { x with cur := cur }
  let enc := segSealedOp q
  if segLimits false q || cur.any (fun t => decide (sgFilling < s.segSt t (s.ringFill t))) ||
      (enc && cur.any fun t => (s.bundleOf t).isNone || !s.segOrder t (s.ringFill t) (q.n 3)) then s
  else
    let s := if cur.isEmpty then s else s.evCount (96 + 4 * n)
    cur.foldl (fun s t =>
      let i := s.ringFill t
      let s := s.segStore t i (q.n 3) enc (some (q.n 4)) q.payload
      if q.trailerOk then s else s.segBad t i (q.n 3) q.payload.length) s

/-- The FILL segments of several tiles committed, with the tiles whose commit fails. -/
def State.strmCommits (s : State) (crc : Word) : List Nat → State × List Nat
  | [] => (s, [])
  | t :: l =>
    let c := s.segCommit1 t (s.ringFill t) crc
    let rest := c.1.strmCommits crc l
    (rest.1, if c.2.2 then rest.2 else t :: rest.2)

/-- A SEG_COMMIT of a stream: the segment ends in every member tile, delivered or not (R106, R108). -/
def State.strmCommit (s : State) (n g : Nat) (q : Req) : State :=
  let x := s.strm n
  let cur := x.cur.filter s.receiving
  let missed := (s.strmTiles n).filter fun t => !cur.contains t
  let r := s.strmCommits (q.p 3) cur
  let s := missed.foldl (fun s t => s.count (R.STRM_UNDEL_UNDEL t)) r.1
  let s := if cur.isEmpty then s else s.evCount (96 + 4 * n)
  let s := if r.2.length < cur.length then s.evCount (98 + 4 * n) else s
  let s := if missed.isEmpty then s else s.evCount (99 + 4 * n)
  let s := (s.rset (R.STRM_NEXT n) (s.rget (R.STRM_NEXT n) + 1)).setStrm n { x with cur := [] }
  if r.2.isEmpty then s
  else
    let m := tileMask r.2
    let s := r.2.foldl (fun s t => s.setFlag (R.STRM_STATUS_CRCERR t) true) s
    (s.eventFor x.owner 0x12 [BitVec.ofNat 32 g, m.1, m.2]).strmBreak n g r.2

/-- An accepted stream packet: forwarded, and delivered if its SEQ is NEXT (R106, R108); its stream credit is returned. -/
def State.strmTake (s : State) (n : Nat) (p : StrmPkt) : State :=
  let l := p.q.link.val
  let s := (s.strmForward n p).fset (R.STRM_CTL_ULINK n) l
  let s := s.oweTo l 3 p.frames
  if p.q.p 4 != s.rget (R.STRM_NEXT n) then
    let s := (s.setFlag (R.STRM_CTL_SEQERR n) true).eventFor (s.strm n).owner 0x11
      [BitVec.ofNat 32 p.group, p.q.p 4, s.rget (R.STRM_NEXT n)]
    s.strmBreak n p.group ((s.strmTiles n).filter s.receiving)
  else if p.commit then if segLimits true p.q then s else s.strmCommit n p.group p.q
  else s.strmWrite n p.q

/-- The stream packets that wait are taken in order, each group up to its first packet that is not accepted; `fuel` bounds
their number. -/
def State.strmDrain (s : State) (blocked : List Nat) (done : List StrmPkt) : List StrmPkt → State
  | [] => { s with strmWait := done }
  | p :: l =>
    if blocked.contains p.group then s.strmDrain blocked (done ++ [p]) l
    else match s.strmSlot p.group with
      | none => (s.discard.oweTo p.q.link 3 p.frames).strmDrain blocked done l
      | some n =>
        if s.strmReady n p then (s.strmTake n p).strmDrain blocked done l
        else s.strmDrain (p.group :: blocked) (done ++ [p]) l

/-- The packets that wait are looked at again. -/
def State.strmPump (s : State) : State := if s.strmWait.isEmpty then s else s.strmDrain [] [] s.strmWait

/-- A stream packet arrives behind those that wait. -/
def State.strmArrive (s : State) (p : StrmPkt) : State := { s with strmWait := s.strmWait ++ [p] }.strmPump

/-- STREAM_PACKET: a SEG_WRITE or SEG_COMMIT with STRM = 1. -/
def doStreamPacket (group : BitVec 8) (commit : Bool) (q : Req) (s : State) : State :=
  s.strmArrive { group := group.toNat, commit := commit, q := q }

def execStreamPacket (group : BitVec 8) (commit : Bool) (q : Req) (s : State) : Host.Outcome State Fault Refusal :=
  .next (doStreamPacket group commit q s)

/-- The engine runs at full control clock again (11_naljo_engine.md R276). -/
def State.wakeEngine (s : State) : State := (s.setFlag R.ENG_STATUS_SLOW_ACT false).syncSusp

/-- STREAM_OPEN. -/
def doStreamOpen (q : Req) (s : State) : State :=
  s.wakeEngine.request 0x24 q fun s =>
    let g := q.n 0 % 256
    let links := nbits (q.n 0) 19 8
    let l := q.tiles 1
    let free := (List.range 8).find? fun n => !s.flag (R.STRM_CTL_OPEN n)
    let bad := decide (2 ^ 20 ≤ q.n 0) || (s.strmSlot g).isSome ||
      ((List.range 12).any fun k => links.testBit k && !s.trained k) ||
      l.any fun t => s.tileFenced t || s.ringLen t == 0 || s.flag (R.STRM_CFG_MEMBER t)
    match bad, free with
    | false, some n =>
      if s.flag R.BOOT_STATUS_RECOVERY then s.fail 0x24 q St.busy else
      let s := s.rset (R.STRM_CTL n) (BitVec.ofNat 32 (2 ^ 31 + 0xF000000 + 256 * links + g))
      let s := ((s.rset (R.STRM_TILES_LO n) (q.p 1)).rset (R.STRM_TILES_HI n) (q.p 2)).rset (R.STRM_NEXT n) (q.p 3)
      let s := l.foldl (fun s t => (s.setFlag (R.STRM_CFG_MEMBER t) true).fset (R.STRM_CFG_GROUP t) g) s
      (s.setStrm n { owner := some q.session }).reply 0x24 q St.ok
    | _, _ => s.fail 0x24 q St.badParam

/-- STREAM_CLOSE. -/
def doStreamClose (q : Req) (s : State) : State :=
  s.request 0x25 q fun s =>
    match if q.n 0 < 256 then s.strmSlot (q.n 0) else none with
    | none => s.fail 0x25 q St.badParam
    | some n =>
      let s := (s.strmTiles n).foldl (fun s t => (s.setFlag (R.STRM_CFG_MEMBER t) false).fset (R.STRM_CFG_GROUP t) 0) s
      let s := ((s.setFlag (R.STRM_CTL_OPEN n) false).rset (R.STRM_TILES_LO n) 0).rset (R.STRM_TILES_HI n) 0
      (s.setStrm n {}).strmPump.reply 0x25 q St.ok

end Sys2Proof.Machine
end

