-- ==== Sys2Proof/Machine/Links.lean ====
section
/-! DEFINITION. Link states, lanes, replay and event messages (12_serial_links.md R285 to R308). -/

namespace Sys2Proof.Machine

def linkBase (l : Nat) : Nat := 0x20000 + l * 0x1000
def lnk (l : Nat) : Word := BitVec.ofNat 32 l

/-! ## Replay (R293, R299) -/

/-- Frames that an ACK covers leave the replay buffer. -/
def State.ackIn (s : State) (l : Nat) (ack : BitVec 12) : State :=
  let c := s.link l
  match c.outst.findIdx? fun e => e.1.seq == ack with
  | some i => s.setLink l { c with outst := c.outst.drop (i + 1) }
  | none => s

/-- RETRAIN begins on a link that is ACTIVE, which asks its partner for it (R299). -/
def State.enterRetrain (s : State) (l : Nat) : State :=
  if s.linkState l = lkActive then
    let s := (s.modLink l fun c => { c with entered := some s.now, amTick := 0 }).sendWire l (.linkctl .retrain)
    (s.fset (R.LINK_STATUS_STATE l) lkRetrain).count (R.LINK_RETRAIN_COUNT l)
  else s

/-- The outstanding frames are sent again in order; a frame that has been replayed 8 times makes the link retrain. -/
def State.replay (s : State) (l : Nat) : State :=
  let c := s.link l
  let again := c.outst.map fun e => (e.1, e.2 + 1)
  let n := again.length
  let s := again.foldl (fun s e => s.sendWire l (.frame { e.1 with ack := BitVec.ofNat 12 c.rxAck, nak := c.nak }))
    (s.setLink l { c with outst := again })
  let s := if n = 0 then s else ((s.count (R.LINK_REPLAY_COUNT l) n).evCount (16 + 4 * l) n).evCount (18 + 4 * l) n
  if again.any fun e => decide (8 ≤ e.2) then
    let s := s.modLink l fun c => { c with limit := true, outst := c.outst.map fun e => (e.1, 0) }
    (s.linkEvt l 4).enterRetrain l
  else s

/-! ## Lanes (R288, R289, R299) -/

/-- The fenced lanes of a link, as a mask of bits. -/
def State.fencedLanes (s : State) (l : Nat) : Nat := s.fget (R.LINK_LANEFENCE_FENCE l)

/-- A lane is fenced with a cause of Table 12.5, before the link block reports it. The moraine records it as kind 2 (log entry 13). -/
def State.laneFenced (s : State) (l j cause : Nat) (inj : Bool := false) : State :=
  let s := s.fset (R.LINK_LANEFENCE_FENCE l) (s.fencedLanes l ||| 2 ^ j)
  let s := (s.rset (R.LANE_STAT l j) 0).count R.SR_GEN_COUNT
  let (w, s) := s.free
  let c : Byte := if inj then 5 else if cause = 4 then 1 else w.setWidth 8
  let s := s.stage 0x41 [2, 0, BitVec.ofNat 8 (8 * l + j), 0, c] (!inj) inj
  s.chipEvent 0x302 [BitVec.ofNat 32 (8 * l + j), BitVec.ofNat 32 cause]

/-- The flags of LINK_EVT that a fenced lane sets: LANELOSS, and DEGRADED where BIP errors caused it. -/
def laneBits (cause : Nat) : List Nat := if cause = 3 then [2, 5] else [2]

/-- A lane is fenced, with the link block's sources. -/
def State.fenceLane (s : State) (l j cause : Nat) (inj : Bool := false) : State :=
  (s.laneFenced l j cause inj).linkEvts l (laneBits cause) inj

/-- The link enters DOWN with its fault report. -/
def State.goDown (s : State) (l cause : Nat) (inj : Bool := false) : State := (s.linkDown l cause).raise (linkBase l) 1 inj

/-- A lane of an ACTIVE or retraining link is lost; the 50 µs of a retrain begin again (R288, R299). -/
def State.loseLane (s : State) (l j cause : Nat) (inj : Bool := false) : State :=
  let st := s.linkState l
  let uses := (s.fget (R.LINK_STATUS_USED l)).testBit j
  if (st = lkActive ∧ uses) ∨ (st = lkRetrain ∧ !(s.fencedLanes l).testBit j) then
    let s := s.laneFenced l j cause inj
    let s := if st = lkRetrain then s.modLink l fun c => { c with entered := some s.now } else s
    if s.fencedLanes l = 0xFF then (s.linkDown l 4).linkEvts l (laneBits cause ++ [1]) inj
    else (s.enterRetrain l).linkEvts l (laneBits cause) inj
  else s

/-- A scrambled payload descrambled, behind the last 58 line bits. -/
def descramble (past : BitVec 58) (y : BitVec 64) : BitVec 64 :=
  let z : BitVec 122 := y ++ past
  y ^^^ z.extractLsb' 19 64 ^^^ z.extractLsb' 0 64

/-- What a received block holds: whether it is a control block (none: an invalid sync header), and its payload. -/
def blockIn (b : BitVec 66) (p : BitVec 58) : Option Bool × BitVec 64 :=
  ((match (b.extractLsb' 0 2).toNat with | 1 => some false | 2 => some true | _ => none),
    descramble p (b.extractLsb' 2 64))

/-- The block-lock state machine of IEEE 802.3 Clause 49 (R285; log entry 61): lock after 64 valid sync headers in succession, lost at the
16th invalid one of a window of 64. -/
def LaneRx.block (r : LaneRx) (b : BitVec 66) : LaneRx :=
  let bad := (blockIn b r.past).1.isNone
  let past := b.extractLsb' 8 58
  let n := r.headers + 1
  let k := r.invalid + bad.toNat
  if r.lock then
    if 16 ≤ k then { lock := false, past := past }
    else if n = 64 then { past := past }
    else { headers := n, invalid := k, past := past }
  else if bad then { lock := false, past := past }
  else if n = 64 then { past := past }
  else { lock := false, headers := n, past := past }

/-- LANE_LOCK_LOSS: causes 0 invalid headers among the blocks that the lane receives, 1 clock recovery, 2 AM, 3 BIP errors, which cost no lock
while LINK_BIPTHR is 0. A lane without lock takes it again after 64 valid headers. -/
def doLaneLockLoss (l : Fin 12) (lane : Fin 8) (cause : Fin 4) (blocks : List (BitVec 66)) (s : State) : State :=
  let j := lane.val
  if cause = 0 then
    let had : LaneRx := Store.get (fun _ => {}) (s.link l.val).lanes j
    let locks := blocks.scanl LaneRx.block had
    let s := s.modLink l.val fun (c : LinkCtx) => { c with lanes := Store.put (fun _ => {}) c.lanes j (locks.getLastD {}) }
    if !had.lock || locks.all (·.lock) then s else s.loseLane l.val j 1
  else if cause = 3 ∧ s.fget (R.LINK_BIPTHR_THR l.val) = 0 then s
  else s.loseLane l.val j (match cause.val with | 2 => 2 | 3 => 3 | _ => 1)

def execLaneLockLoss (l : Fin 12) (lane : Fin 8) (x : LockLoss) (s : State) : Host.Outcome State Fault Refusal :=
  .next (doLaneLockLoss l lane x.cause x.blocks s)

/-- One second in units of 2^-16 ps. -/
def oneSecond : Int := 65536000000000000

/-- A BIP mismatch of a lane of an ACTIVE link: counted, and the lane fenced beyond LINK_BIPTHR errors in 1 s. -/
def State.bipError (s : State) (l j : Nat) : State :=
  let s := s.count (R.LANE_ERR_COUNT l j)
  let now := s.now
  let recent := ((s.link l).bips.filter fun e => decide (now - oneSecond < e.2)) ++ [(j, now)]
  let s := s.modLink l fun c => { c with bips := recent }
  let thr := s.fget (R.LINK_BIPTHR_THR l)
  if thr ≠ 0 ∧ thr < (recent.filter fun e => e.1 == j).length then
    (s.modLink l fun c => { c with bips := c.bips.filter fun e => e.1 != j }).loseLane l j 3
  else s

/-- Whether an AM carries the number of the lane that it has been sent on; a board may reverse the order of the lanes (R287). -/
def State.amLane (s : State) (l j : Nat) (am : BitVec 64) : Bool :=
  am.extractLsb' 0 8 == 0x87 && (am.extractLsb' 8 3).toNat == if (s.link l).reversed then 7 - j else j

/-- AM_RECEIVE: an AM of a lane, none where it is missing, with the scrambled payloads since the one before: a BIP-8 that mismatches counts, and
the second AM in succession that is missing or has the wrong lane number loses the lane (R287, R288). -/
def doAmReceive (l : Fin 12) (lane : Fin 8) (am : Option (BitVec 64)) (since : List (BitVec 64)) (s : State) : State :=
  let l := l.val
  let j := lane.val
  let laneOk := am.any (s.amLane l j)
  let bipOk := am.all fun w => w.extractLsb' 16 8 == bip8 since
  if (s.linkState l != lkActive && s.linkState l != lkRetrain) || !(s.lanesOf l).contains j then s
  else
  let s := if bipOk then s else s.bipError l j
  if laneOk then s.modLink l fun c => { c with amBad := c.amBad.filter (· != j) }
  else if (s.link l).amBad.contains j then
    (s.modLink l fun c => { c with amBad := c.amBad.filter (· != j) }).loseLane l j 2
  else s.modLink l fun c => { c with amBad := j :: c.amBad }

def execAmReceive (l : Fin 12) (lane : Fin 8) (am : Option (BitVec 64)) (since : List (BitVec 64)) (s : State) :
    Host.Outcome State Fault Refusal := .next (doAmReceive l lane am since s)

/-! ## Training and retrain (R297 to R299) -/

/-- The lanes that a report finds good at both ends, in ascending order. -/
def State.goodLanes (s : State) (l : Nat) (r : TrainReport) : List Nat :=
  (List.range 8).filter fun j => r.good.getLsbD j && r.partnerGood.getLsbD j && !(s.fencedLanes l).testBit j

/-- The width of WMAX's code. -/
def widthCode (c : Nat) : Nat := match c with | 0 => 1 | 1 => 2 | 2 => 4 | 3 => 6 | _ => 8

/-- The largest width of R297 that `n` good lanes and WMAX allow. -/
def State.width (s : State) (l n : Nat) : Nat :=
  let m := min n (widthCode (s.fget (R.LINK_CTRL_WMAX l)))
  if 8 ≤ m then 8 else if 6 ≤ m then 6 else if 4 ≤ m then 4 else if 2 ≤ m then 2 else m

/-- Whether the lane numbers of the AMs received show a board that reverses the order of the lanes (R287). -/
def amsReversed (l : List (Fin 8 × BitVec 64)) : Bool := !l.isEmpty && l.all fun e => (e.2.extractLsb' 8 3).toNat == 7 - e.1.val

/-- What an attempt that succeeds agrees on: width, lanes, partner, round trip, for which the link has sent a probe (R297, R301). The good lanes
hold lock. -/
def State.agree (s : State) (l : Nat) (r : TrainReport) (good : List Nat) : State :=
  let w := s.width l good.length
  let used := good.take w
  let s := (s.fset (R.LINK_STATUS_WIDTH l) w).fset (R.LINK_STATUS_USED l) (used.foldl (fun m j => m + 2 ^ j) 0)
  let s := (List.range 8).foldl (fun s j => s.rset (R.LANE_STAT l j) (if used.contains j then 3 else 4)) s
  let s := s.rset (R.LINK_PARTNER l) (BitVec.ofNat 32 (2 ^ 31 + 65536 * r.partnerLink.toNat + r.partnerChip.toNat))
  let rtt := (r.echo - r.probe - r.turnaround) % 2 ^ 28
  ((s.rset (R.LINK_RTT l) (BitVec.ofNat 32 rtt)).modLink l fun c =>
    { c with fails := 0, amBad := [], bips := [], reversed := amsReversed r.ams, good := good, next := 0
             lanes := c.lanes.filter fun e => !good.contains e.1 }).sendWire l (.linkctl (.probe 0))

/-- The link is ACTIVE: the event messages held are sent (R304); with TEST set it goes on to TEST (Table 12.3). -/
def State.activate (s : State) (l : Nat) : State :=
  let s := s.fset (R.LINK_STATUS_STATE l) lkActive
  s.modLink l fun c =>
    { c with events := c.events ++ c.held, held := [], limit := false, entered := some s.now, amTick := 0, lastTime := none }

/-- TEST begins: no frames, LANE_ERR cleared (R306). -/
def State.enterTest (s : State) (l : Nat) : State :=
  (List.range 8).foldl (fun s j => (s.rset (R.LANE_ERR l j) 0).rset (R.LANE_STAT l j) 0)
    ((s.linkStop l lkTest).modLink l fun c => { c with prbs := [], check := [] })

def State.testIfAsked (s : State) (l : Nat) : State :=
  if s.flag (R.LINK_CTRL_TEST l) && s.linkState l == lkActive then s.enterTest l else s

/-- TRAINING_SUCCESS. -/
def doTrainingSuccess (l : Fin 12) (r : TrainReport) (s : State) : State :=
  let l := l.val
  let good := s.goodLanes l r
  if s.linkState l != lkTraining || good.isEmpty then s
  else
    let s := ((s.agree l r good).rset (R.LINK_CREDIT l) (BitVec.ofNat 32 (384 * (1 + 1024 + 1048576)))).modLink l fun c =>
      { c with txNext := 0, rxAck := 4095, nak := false }
    let s := (s.activate l).chipEvent 0x300 [lnk l, BitVec.ofNat 32 (s.fget (R.LINK_STATUS_WIDTH l)), r.partnerChip.setWidth 32]
    (s.linkEvt l 0).testIfAsked l

def execTrainingSuccess (l : Fin 12) (r : TrainReport) (s : State) : Host.Outcome State Fault Refusal :=
  .next (doTrainingSuccess l r s)

/-- Whether a time in µs or longer has passed since a link has entered its state. -/
def State.linkWaited (s : State) (l : Nat) (us : Nat) : Bool := (s.link l).entered.all fun i => decide (i + us * 65536000000 ≤ s.now)

/-- TRAINING_TIMEOUT: 20 ms have passed and the attempt has failed (R298). -/
def doTrainingTimeout (l : Fin 12) (s : State) : State :=
  let l := l.val
  if s.linkState l != lkTraining || !s.linkWaited l 20000 then s
  else
    let s := (s.linkStop l lkDown).count (R.LINK_TRAINFAIL_COUNT l)
    (s.modLink l fun c => { c with fails := min 8 (c.fails + 1) }).linkEvt l 3

def execTrainingTimeout (l : Fin 12) (s : State) : Host.Outcome State Fault Refusal := .next (doTrainingTimeout l s)

/-- The equalisation registers of a link that hold other than reset values. -/
def State.laneEqs (s : State) (l : Nat) : Store (Word × Word) :=
  (List.range 8).foldl (fun m j => Store.put (fun _ => (0x3F00, 0)) m j (s.rget (R.LANE_EQ_LO l j), s.rget (R.LANE_EQ_HI l j))) []

/-- TRAINING begins, with the equalisation that the registers hold (R289). -/
def State.train (s : State) (l : Nat) : State :=
  let s := s.modLink l fun c => { c with loop := false, entered := some s.now, amTick := 0, eq := s.laneEqs l }
  (List.range 8).foldl (fun s j => s.rset (R.LANE_STAT l j) 0) (s.fset (R.LINK_STATUS_STATE l) lkTraining)

/-- The wait before the next attempt in µs, behind a number of failed ones (R298). -/
def downWait (fails : Nat) : Nat := if 8 ≤ fails then 1000000 else 10000 * 2 ^ (fails - 1)

/-- DOWN_WAIT_EXPIRY: the wait has ended, or a beacon or a training pattern is detected on lane 0 (Table 12.3). -/
def doDownWaitExpiry (l : Fin 12) (beacon : Bool) (s : State) : State :=
  if s.linkState l.val = lkDown ∧ (beacon || s.linkWaited l.val (downWait (s.link l.val).fails)) then s.train l.val else s

def execDownWaitExpiry (w : DownWait) (s : State) : Host.Outcome State Fault Refusal := .next (doDownWaitExpiry w.link w.beacon s)

/-- RETRAIN_COMPLETE: back to ACTIVE, where the link reports its ACK and replays from the partner's ACK + 1 (R299). -/
def doRetrainComplete (l : Fin 12) (r : TrainReport) (s : State) : State :=
  let l := l.val
  let good := s.goodLanes l r
  if s.linkState l != lkRetrain then s
  else if good.isEmpty then s.goDown l 4
  else
    let old := s.fget (R.LINK_STATUS_WIDTH l)
    let s := s.agree l r good
    let new := s.fget (R.LINK_STATUS_WIDTH l)
    let s := (((s.activate l).sendAck l).ackIn l r.ack).replay l
    let s := if new = old then s else s.chipEvent 0x303 [lnk l, BitVec.ofNat 32 old, BitVec.ofNat 32 new]
    (s.fenceLaneDone l).testIfAsked l

def execRetrainComplete (l : Fin 12) (r : TrainReport) (s : State) : Host.Outcome State Fault Refusal :=
  .next (doRetrainComplete l r s)

/-- RETRAIN_TIMEOUT: 50 µs have passed, or no good lane is left (R299). -/
def doRetrainTimeout (l : Fin 12) (noGoodLane : Bool) (s : State) : State :=
  let l := l.val
  if s.linkState l != lkRetrain || !(noGoodLane || s.linkWaited l 50) then s
  else s.goDown l (if noGoodLane then 4 else if (s.link l).limit then 3 else 1)

def execRetrainTimeout (l : Fin 12) (noGoodLane : Bool) (s : State) : Host.Outcome State Fault Refusal :=
  .next (doRetrainTimeout l noGoodLane s)

/-! ## Writes to the link registers -/

/-- The status of a register write that a row stands for. -/
def State.answered (s : State) (st : BitVec 8) : State := { s with answer := st.toNat }

/-- EN written (Table 12.3, Table 12.5). -/
def State.linkEn (s : State) (l : Nat) (en : Bool) : State :=
  let st := s.linkState l
  let s := s.setFlag (R.LINK_CTRL_EN l) en
  if en then if st = lkOff then s.train l else s
  else if st = lkOff then s
  else
    let s := s.linkStop l lkOff
    if st = lkActive ∨ st = lkRetrain then s.chipEvent 0x301 [lnk l, 2] else s

def doLinkEnable (l : Fin 12) (en : Bool) (s : State) : State := (s.linkEn l.val en).answered St.ok

def execLinkEnable (l : Fin 12) (en : Bool) (s : State) : Host.Outcome State Fault Refusal := .next (doLinkEnable l en s)

/-- Whether a write of TEST, PRBS and LOOP is refused, and with which status (R306). -/
def State.testRefused (s : State) (l : Nat) (test prbs : Bool) (loopMode : Nat) (arrival : Option Nat) : Option (BitVec 8) :=
  if test && arrival == some l then some St.busy
  else if decide (4 ≤ loopMode) || ((prbs || loopMode != 0) && !s.flag (R.LINK_CTRL_TEST l)) then some St.badParam
  else none

/-- TEST, PRBS and LOOP written; far-end loop-back is asked of the partner (R306). -/
def State.linkTestSet (s : State) (l : Nat) (test prbs : Bool) (loopMode : Nat) : State :=
  let was := s.flag (R.LINK_CTRL_TEST l)
  let s := s.setFlag (R.LINK_CTRL_TEST l) test
  let s := (s.setFlag (R.LINK_CTRL_PRBS l) (test && prbs)).fset (R.LINK_CTRL_LOOP l) (if test then loopMode else 0)
  let s := if test && loopMode == 3 then s.sendWire l (.linkctl .farEndLoop) else s
  if test then s.testIfAsked l
  else if was && s.linkState l == lkTest then s.train l
  else s

/-- A received bit at a PRBS31 checker, which takes its reference from the first 31: the checker behind it, and the bit error. -/
def prbsBit (c : (Nat × BitVec 31) × Nat) (b : Bool) : (Nat × BitVec 31) × Nat :=
  if c.1.1 < 31 then ((c.1.1 + 1, (c.1.2 <<< 1) ||| BitVec.ofNat 31 b.toNat), c.2)
  else ((31, prbsStep c.1.2), c.2 + (b != prbsNext c.1.2).toNat)

/-- Raw bits that lanes of a link in TEST with PRBS = 1 receive: bit errors count in LANE_ERR. A near-end loop, LOOP = 1 or 2, ignores the RX
balls: the lanes receive what they send. A link that its partner has looped returns what it receives (R306). -/
def State.rawBits (s : State) (l : Nat) (bits : List (Fin 8 × List Bool)) : State :=
  let mode := s.fget (R.LINK_CTRL_LOOP l)
  if (s.link l).loop && !bits.isEmpty then s.sendWire l (.bits bits)
  else if s.linkState l != lkTest || !s.flag (R.LINK_CTRL_PRBS l) || mode == 1 || mode == 2 then s
  else bits.foldl (fun s e =>
    if !(s.lanesOf l).contains e.1.val then s
    else
      let r := e.2.foldl prbsBit (Store.get (fun _ => (0, 0)) (s.link l).check e.1.val, 0)
      (s.modLink l fun c => { c with check := Store.put (fun _ => (0, 0)) c.check e.1.val r.1 }).count (R.LANE_ERR_COUNT l e.1.val) r.2) s

/-- LINK_TEST: a write of TEST, PRBS and LOOP; `received` are the raw bits of each lane since the one before. -/
def doLinkTest (l : Fin 12) (test prbs : Bool) (loopMode : BitVec 3) (arrival : Option (Fin 12)) (received : List (Fin 8 × List Bool))
    (s : State) : State :=
  let s := s.rawBits l.val received
  match s.testRefused l.val test prbs loopMode.toNat (arrival.map (·.val)) with
  | some st => s.answered st
  | none => (s.linkTestSet l.val test prbs loopMode.toNat).answered St.ok

def execLinkTest (l : Fin 12) (test prbs : Bool) (loopMode : BitVec 3) (seen : TestSeen) (s : State) : Host.Outcome State Fault Refusal :=
  .next (doLinkTest l test prbs loopMode seen.arrival seen.received s)

/-- WMAX written; a change while ACTIVE starts RETRAIN. -/
def State.linkWmax (s : State) (l w : Nat) : State :=
  if s.fget (R.LINK_CTRL_WMAX l) = w then s else (s.fset (R.LINK_CTRL_WMAX l) w).enterRetrain l

/-- LINK_RETRAIN_REQUEST: RETRAIN written with 1, or WMAX written. -/
def doLinkRetrainRequest (l : Fin 12) (wmax : Option (BitVec 3)) (s : State) : State :=
  match wmax with
  | none => (s.enterRetrain l.val).answered St.ok
  | some w => if 4 < w.toNat then s.answered St.badParam else (s.linkWmax l.val w.toNat).answered St.ok

def execLinkRetrainRequest (l : Fin 12) (wmax : Option (BitVec 3)) (s : State) : Host.Outcome State Fault Refusal :=
  .next (doLinkRetrainRequest l wmax s)

/-- LINK_LANEFENCE written with 1: the lanes are unfenced and tried again (R299). -/
def State.unfenceLanes (s : State) (l lanes : Nat) : State :=
  let old := s.fencedLanes l
  if old &&& lanes = 0 then s
  else (s.fset (R.LINK_LANEFENCE_FENCE l) (old - (old &&& lanes))).enterRetrain l

def doLaneUnfence (l : Fin 12) (lanes : BitVec 8) (s : State) : State := (s.unfenceLanes l.val lanes.toNat).answered St.ok

def execLaneUnfence (l : Fin 12) (lanes : BitVec 8) (s : State) : Host.Outcome State Fault Refusal :=
  .next (doLaneUnfence l lanes s)

/-- An equalisation entry that R289 calls invalid, by its two words. -/
def eqBad (lo hi : Word) : Bool :=
  let pre := field lo 7 0
  let post := field lo 23 16
  decide (15 < pre ∨ 31 < post ∨ 63 < pre + field lo 15 8 + post ∨ 15 < field lo 31 24) || hi &&& ~~~(0x033F3F3F : Word) != 0

/-- A write to LANE_EQ_LO or LANE_EQ_HI: accepted while the link is OFF or DOWN (R289). -/
def State.laneEqRefused (s : State) (l j : Nat) (hi : Bool) (v : Word) : Option (BitVec 8) :=
  if 1 < s.linkState l then some St.busy
  else if (if hi then eqBad (s.rget (R.LANE_EQ_LO l j)) v else eqBad v (s.rget (R.LANE_EQ_HI l j))) then some St.badParam
  else none

def doLaneEqWrite (l : Fin 12) (lane : Fin 8) (hi : Bool) (v : Word) (s : State) : State :=
  match s.laneEqRefused l.val lane.val hi v with
  | some st => s.answered st
  | none => (s.rset (if hi then R.LANE_EQ_HI l.val lane.val else R.LANE_EQ_LO l.val lane.val) v).answered St.ok

def execLaneEqWrite (l : Fin 12) (lane : Fin 8) (hi : Bool) (v : Word) (s : State) : Host.Outcome State Fault Refusal :=
  .next (doLaneEqWrite l lane hi v s)

/-- Whether a link carries the session of a host. -/
def State.carriesHost (s : State) (l : Nat) : Bool := (List.range 32).any fun n => s.sessOpen n && s.fget (R.SESS_STAT_LINK n) == l

/-- The control block types of Table 12.1. -/
def controlTypes : List Byte := [0x1E, 0x33, 0x4B, 0x66, 0x69, 0x87, 0x78]

/-- LINKCTL_RECEIVE: a retrain request, a latency probe, which is echoed, or the echo of one, whose arrival TRAINING_SUCCESS and
RETRAIN_COMPLETE report, a request for far-end loop-back, the partner's refusal of one (R299, R301, R306), or a control block of another
type (R286). -/
def doLinkctlReceive (l : Fin 12) (r : LinkCtlReq) (s : State) : State :=
  let l := l.val
  let st := s.linkState l
  match r with
  | .retrain => s.enterRetrain l
  | .farEndLoop =>
    if s.flag (R.LINK_CTRL_ALLOW_FELB l) && !s.carriesHost l then s.modLink l fun c => { c with loop := true }
    else s.sendWire l (.linkctl .loopRefused)
  | .probe turnaround => if st = lkTraining ∨ st = lkRetrain ∨ st = lkActive then s.sendWire l (.linkctl (.echo turnaround)) else s
  | .echo _ => s
  | .other typ => if controlTypes.contains typ then s else s.count (R.LINK_CRCERR_COUNT l)
  | .loopRefused => if s.fget (R.LINK_CTRL_LOOP l) = 3 then s.setFlag (R.LINK_STATUS_FELB_REF l) true else s

def execLinkctlReceive (l : Fin 12) (r : LinkCtlReq) (s : State) : Host.Outcome State Fault Refusal :=
  .next (doLinkctlReceive l r s)

/-! ## Acknowledgement (R292, R293) -/

/-- NAK_RECEIVE: frames up to ACK are acknowledged and the rest replayed. -/
def doNakReceive (l : Fin 12) (ack : BitVec 12) (s : State) : State :=
  if s.linkState l.val = lkActive then (s.ackIn l.val ack).replay l.val else s

def execNakReceive (l : Fin 12) (ack : BitVec 12) (s : State) : Host.Outcome State Fault Refusal := .next (doNakReceive l ack s)

/-- ACK_TIMER: a CLASS 0 frame returns ACK and credits. -/
def doAckTimer (l : Fin 12) (s : State) : State := if s.linkState l.val = lkActive then s.sendAck l.val else s

def execAckTimer (l : Fin 12) (s : State) : Host.Outcome State Fault Refusal := .next (doAckTimer l s)

/-! ## Event messages (R304) -/

/-- An event message is sent on a link, held, or discarded. -/
def State.eventOut (s : State) (l ev origin : Nat) : State :=
  let st := s.linkState l
  if st = lkActive then s.modLink l fun c => { c with events := c.events ++ [(ev, origin)] }
  else if (st = lkTraining ∨ st = lkRetrain) ∧ (s.link l).held.length < 16 then
    s.modLink l fun c => { c with held := c.held ++ [(ev, origin)] }
  else s.count R.LINKEV_LOST_COUNT

/-- An event registers in every tile that is not OFF: its flag, and the LINKEV trigger. -/
def State.linkEvent (s : State) (ev : Nat) (i : Int) : State :=
  ((List.range 64).filter fun t => s.power t != 3).foldl (fun s t =>
    s.registerEvent t (.linkev ev) (s.tileTime t i) (s.fget (R.TRIG_CFG_SRC t) == 4 && s.fget (R.TRIG_CFG_ARG t) == ev)) s

/-- Whether a block is an event message whose CRC-8 is right. -/
def eventBlock (b : BitVec 64) : Bool :=
  b.extractLsb' 0 8 == 0x78 && crc8 0 ((List.range 7).map fun k => b.extractLsb' (8 * k) 8) == b.extractLsb' 56 8

/-- The copies of an event message arrive, one of each active lane; `arrival` is the instant, in units of 1/256 ns, at which the last bit of
the last copy arrives (R304). -/
def doEventMessageReceive (l : Fin 12) (copies : List (BitVec 64)) (arrival : Nat) (s : State) : State :=
  match copies.find? eventBlock with
  | none => s
  | some b =>
    if s.linkState l.val != lkActive then s
    else
      let ev := (b.extractLsb' 8 8).toNat
      let s := (s.count R.LINKEV_RX_COUNT).linkEvent ev (tileEdge ((arrival : Int) * unitFs + 20 * 65536000))
      ((List.range 12).filter fun k => k != l.val && (s.fget R.LINKEV_FWD_LINKS).testBit k).foldl
        (fun s k => s.eventOut k ev (b.extractLsb' 16 14).toNat) s

/-- EVENT_MESSAGE_RECEIVE: `first` is one lane's copy, whose last bit arrives at `arrival`, `others` are the other lanes', and the last of
them ends `skew` units later. -/
def execEventMessageReceive (l : Fin 12) (first : BitVec 64) (others : List (BitVec 64)) (arrival skew : Nat) (s : State) :
    Host.Outcome State Fault Refusal := .next (doEventMessageReceive l (first :: others) (arrival + skew) s)

/-- A write to LINKEV_SEND. -/
def State.linkevSend (s : State) (v : Word) : State :=
  let ev := field v 7 0
  let s := ((List.range 12).filter fun k => (field v 19 8).testBit k).foldl
    (fun s k => s.eventOut k ev (s.fget R.CHIP_ID_ID)) s
  if v.getLsbD 20 then s.linkEvent ev (tileEdge (s.now + 20 * 65536000)) else s

def doLinkevSend (v : Word) (s : State) : State := (s.linkevSend v).answered St.ok

def execLinkevSend (v : Word) (s : State) : Host.Outcome State Fault Refusal := .next (doLinkevSend v s)

/-- CHIP_ID_WRITE: the new ID, in effect behind the reply to the write (R244). -/
def doChipIdWrite (id : BitVec 14) (s : State) : State := (s.fset R.CHIP_ID_ID id.toNat).answered St.ok

def execChipIdWrite (id : BitVec 14) (s : State) : Host.Outcome State Fault Refusal := .next (doChipIdWrite id s)

/-! ## Packets that wait (R246, R250) -/

/-- CREDIT_EVENT: credits that no packet has taken travel in a CREDIT event. -/
def doCreditEvent (session : BitVec 5) (s : State) : State :=
  let n := session.toNat
  if s.sessOpen n && ((s.ctx n).retCells != 0 || (s.ctx n).retSlots != 0) then s.eventTo n 1 [] else s

def execCreditEvent (session : BitVec 5) (s : State) : Host.Outcome State Fault Refusal := .next (doCreditEvent session s)

/-- The packets that wait on a link are discarded and counted; credits that they were to return wait for another packet (R250). -/
def State.sendTimeout (s : State) (l : Nat) : State :=
  let mine (p : Packet) : Bool := s.linkOf p == l
  let own := s.txq.filter mine
  let s := { s with txq := s.txq.filter fun p => !mine p }
  let s := own.foldl (fun s (p : Packet) =>
    let n := p.session.toNat
    let s := s.discard
    let s := if s.sessOpen n then s.modCtx n fun c => { c with retCells := c.retCells + p.cells, retSlots := c.retSlots + p.slots } else s
    if p.kind = 3 then s.fset (R.SESS_LOAD_EVQ n) (s.fget (R.SESS_LOAD_EVQ n) - 1) else s) s
  let s := own.foldl (fun s (p : Packet) => if p.kind = 3 then s.eventsLost p.session.toNat else s) s
  let waits := ((s.link l).queue.filter fun (e : OutFrame) => e.frame.sop).length
  (s.count R.PROTO_DISCARD_COUNT waits).flushQueue l

/-- PACKET_SEND_TIMEOUT: the packets that wait for a link that is neither ACTIVE nor in RETRAIN, or for UPLINK while it is 0xF, have waited 10 ms
(R246). -/
def doPacketSendTimeout (l : Option (Fin 12)) (s : State) : State :=
  match l with
  | some l => if s.trained l then s else s.sendTimeout l
  | none => s.sendTimeout noUplink

def execPacketSendTimeout (l : Option (Fin 12)) (s : State) : Host.Outcome State Fault Refusal := .next (doPacketSendTimeout l s)

end Sys2Proof.Machine
end

