-- ==== Sys2Proof/Machine/Sessions.lean ====
section
/-! DEFINITION. Sessions (10_uhleus_protocol.md R247 to R253), credentials (13_security.md R317, R318), and the arrival of frames and
requests (10_uhleus_protocol.md R244 to R246, R250, R251; 12_serial_links.md R290 to R294). -/

namespace Sys2Proof.Machine

/-! ## Credentials -/

/-- What Table 13.3 asks for. -/
inductive Need where
  | none | owner | ticket | vendor | refused
  deriving DecidableEq

/-- Table 13.3: 0 BLANK, 1 PROVISIONED, 2 OWNED, 3 SCRAPPED. -/
def State.need (s : State) (priv : Nat) : Need :=
  let lc := s.fget R.LC_STATUS_STATE
  if priv ≤ 2 then if lc = 2 ∧ (s.fget R.LC_STATUS_ACCESS).testBit priv then .owner else .none
  else if priv = 3 then (match lc with | 1 => .ticket | 2 => .owner | _ => .refused)
  else if lc = 2 then .refused else .vendor

/-- Whether the key that signs a credential is the one Table 13.3 asks for. -/
def State.credentialKey (s : State) (n : Need) (key : List Byte) : Bool :=
  if n = .owner then s.ownerKey key else vendorKey key

/-- Whether the device accepts a credential for a privilege (R317); the result of its signature check is an input (log entry 5). -/
def State.credentialOk (s : State) (n : Need) (priv : Nat) (c : List Byte) (v : Verdict) : Bool :=
  let b := leNat (sub c 24 31)
  let e := leNat (sub c 32 39)
  let now := s.sysTime.toNat
  c.length == 336 && leNat (sub c 0 3) == 1 && decide (priv ≤ (c.getD 4 0).toNat) && decide ((c.getD 4 0).toNat ≤ 4) &&
    (n != .ticket || ((c.getD 4 0).toNat == 3 && !allZero (sub c 40 136))) &&
    (allZero (sub c 8 23) || sub c 8 23 == s.deviceId) && s.credentialKey n (sub c 137 233) && v.sigOk &&
    ((b == 0 && e == 2 ^ 64 - 1) || (s.flag R.TIME_STATUS_VALID && decide (b ≤ now ∧ now ≤ e)))

/-! ## Opening and closing -/

/-- HELLO that its checks let through (R248 to R250). -/
def State.openSession (s : State) (q : Req) (n : Nat) (priv win : Nat) (ticket : List Byte) : State :=
  let free := s.fget R.POOL_FREE_CELLS
  let g := min win free
  let s := s.fset R.POOL_FREE_CELLS (free - g)
  let s := s.setCtx n { evchip := (q.p 0).getLsbD 22, ticket := ticket }
  let keep := s.rget (R.SESS_STAT n) &&& 0xC0000000
  let s := s.rset (R.SESS_STAT n) (keep ||| BitVec.ofNat 32 (8 * 65536 + g * 256 + q.link.val * 16 + priv * 2 + 1))
  let s := s.rset (R.SESS_LOAD n) 0
  s.reply 0x01 { q with session := BitVec.ofNat 5 n } St.ok [BitVec.ofNat 32 g, s.rget R.CHIP_ID]

/-- HELLO. -/
def doHello (q : Req) (s : State) : State :=
  s.request 0x01 q fun s =>
    let w := q.n 0
    let priv := w % 8
    let win := nbits w 15 8
    let need := s.need priv
    let slot := if (q.p 0).getLsbD 21 then (List.range 32).find? fun k => !s.sessOpen k
      else if s.sessOpen (nbits w 20 16) then none else some (nbits w 20 16)
    if w / 8 % 32 ≠ 0 ∨ 2 ^ 23 ≤ w ∨ 4 < priv ∨ win < 8 ∨ 128 < win then s.fail 0x01 q St.badParam
    else match slot with
    | none => s.fail 0x01 q St.busy
    | some n =>
      if s.fget R.POOL_FREE_CELLS < 8 then s.fail 0x01 q St.busy
      else if need = .refused ∨ (need ≠ .none ∧ !s.credentialOk need priv q.payload q.verdict) then s.fail 0x01 q St.denied
      else s.openSession q n priv win (if need = .ticket then sub q.payload 40 136 else [])

/-- A session closes: its cells return to the pool, its split-phase operations go on without it, its completion events that wait are
discarded, a bundle load of it that is staging is discarded (13_security.md R327), and its tile and stream events go to the chip's
sessions from now on (R253, R256). -/
def State.closeSession (s : State) (n : Nat) : State :=
  let s := s.fset R.POOL_FREE_CELLS (s.fget R.POOL_FREE_CELLS + s.fget (R.SESS_STAT_WIN n))
  let s := s.rset (R.SESS_STAT n) (s.rget (R.SESS_STAT n) &&& 0xC00000F0)
  let s := (s.fset (R.SESS_LOAD_PEND n) 0).fset (R.SESS_LOAD_CELLS n) 0
  let me := BitVec.ofNat 5 n
  let gone (b : Option (BitVec 5)) : Option (BitVec 5) := if b = some me then none else b
  let fresh : TileCtx := {}
  let s := { s with splits := s.splits.map fun (x : Split) => if x.session = me then { x with live := false } else x
                    items := s.items.map fun (i : Item) => match i with
                      | .completion p live quiet a => .completion p (live && p.session != me) quiet a
                      | _ => i }
  let s := if s.staging.any fun (g : Staging) => g.session == me then s.stagingDrop St.aborted else s
  let s := { s with tiles := s.tiles.filterMap fun (e : Nat × TileCtx) =>
    let c : TileCtx := { e.2 with armedBy := gone e.2.armedBy }
    if c = fresh then none else some (e.1, c) }
  let s := (List.range 8).foldl (fun s k => s.setStrm k { s.strm k with owner := gone (s.strm k).owner }) s
  s.setCtx n {}

/-- The requests of a session that wait for dispatch. -/
def State.waiting (s : State) (n : Nat) : List (BitVec 8 × Req) :=
  s.items.filterMap fun i => match i with
    | .request op q => if op != 0x01 && q.session.toNat == n then some (op, q) else none
    | _ => none

/-- The requests of a session that wait for dispatch never run: they complete with ABORTED. -/
def State.abortWaiting (s : State) (n : Nat) (l : List (BitVec 8 × Req)) : State :=
  let s := { s with items := s.items.filter fun i => match i with
    | .request op q => !(q.session.toNat == n && l.contains (op, q))
    | _ => true }
  l.foldl (fun s e => (s.taken e.1 e.2).reply e.1 e.2 St.aborted [0]) s

/-- BYE; `early` are the requests of the session that were received before it and have not been dispatched. -/
def State.bye (s : State) (q : Req) (early : List (BitVec 8 × Req)) : State :=
  s.request 0x02 q fun s => ((s.abortWaiting q.session.toNat early).reply 0x02 q St.ok).closeSession q.session.toNat

def doBye (q : Req) (s : State) : State := s.bye q (s.waiting q.session.toNat)

/-- SESSION_TIMEOUT: no request of the session for TIMEOUT seconds. -/
def doSessionTimeout (session : BitVec 5) (s : State) : State :=
  let n := session.toNat
  if s.fget R.PROTO_CFG_TIMEOUT = 0 ∨ !s.sessOpen n then s
  else (s.abortWaiting n (s.waiting n)).closeSession n

def execSessionTimeout (session : BitVec 5) (s : State) : Host.Outcome State Fault Refusal := .next (doSessionTimeout session s)

/-- PING. -/
def doPing (q : Req) (s : State) : State :=
  s.request 0x03 q fun s => s.reply 0x03 q St.ok [s.sysTime.setWidth 32, (s.sysTime >>> 32).setWidth 32] q.payload

/-! ## A request arrives (R246, R248, R250, R251) -/

/-- A request that the device takes itself waits for the engine. Of cells beyond the session's credit none is returned. -/
def State.deliver (s : State) (op : BitVec 8) (q : Req) : State :=
  let n := q.session.toNat
  let (id, s) := (s.evCount 4).newId
  let q := { q with age := id + 1 }
  if op = 0x01 then
    if s.items.any (fun i => match i with | .request o r => o == 0x01 && r.link == q.link | _ => false) then s.discard
    else { s with items := s.items ++ [.request op q] }
  else
    let s := s.fset (R.SESS_STAT_LINK n) q.link.val
    if !s.sessOpen n then { s with items := s.items ++ [.request op q] }
    else
      let cells := if q.part.isSome then 0 else cellsOf q.payload.length
      let used := s.fget (R.SESS_LOAD_CELLS n)
      let win := s.fget (R.SESS_STAT_WIN n)
      let noSlot := decide (s.fget (R.SESS_STAT_SLOTS n) = 0)
      let whole := !streaming op && decide (win < cells)
      let excess := !noSlot && !whole && decide (cells ≠ 0) &&
        (if streaming op then decide (win ≤ used) else decide (win < used + cells))
      let q := { q with noSlot := noSlot, overrun := excess }
      let s := if noSlot || excess then s.setFlag (R.SESS_STAT_OVERRUN n) true else s
      let s := if noSlot then s else s.fset (R.SESS_STAT_SLOTS n) (s.fget (R.SESS_STAT_SLOTS n) - 1)
      let s := if noSlot || whole then s.freeCells n cells else if excess then s.freeCells n (min cells (win - used)) else s
      let s := s.fset (R.SESS_LOAD_CELLS n) (min win (used + s.heldCells op q))
      (({ s with items := s.items ++ [Item.request op q] }).count (R.SESS_LOAD_PEND n))

/-! ## Cells of a streaming operation (R251, R252) -/

/-- Whether two requests are of one packet. -/
def samePacket (a b : Req) : Bool := a.part == b.part && a.link == b.link

/-- Cells of a streaming operation that waits for the engine arrive: they take credit, or the operation is to end for want of it. -/
def State.cellsWait (s : State) (q : Req) (before new : Nat) : State :=
  let n := q.session.toNat
  let used := s.fget (R.SESS_LOAD_CELLS n)
  if q.noSlot then s.freeCells n new
  else if q.overrun then s
  else if used + new ≤ s.fget (R.SESS_STAT_WIN n) then s.fset (R.SESS_LOAD_CELLS n) (used + new)
  else
    let s := ((s.setFlag (R.SESS_STAT_OVERRUN n) true).fset (R.SESS_LOAD_CELLS n) (used - before)).freeCells n before
    { s with items := s.items.map fun i => match i with
      | .request o r => if samePacket r q then Item.request o { r with overrun := true } else i
      | _ => i }

/-- The streaming request of a packet that waits for the engine. -/
def State.partWaiting (s : State) (q : Req) : Option Req :=
  s.items.findSome? fun i => match i with
    | .request op r => if samePacket r q && streaming op then some r else none
    | _ => none

/-- Cells of a streaming operation arrive (R251, R252): one that runs applies and frees them, or ends for want of credit; of one that has
ended, and of a request larger than its window, they are discarded and freed. -/
def State.cellsIn (s : State) (q : Req) (got : List Byte) (before : Nat) (final : Bool) : State :=
  let n := q.session.toNat
  let new := (if final then cellsOf got.length else got.length / 2048) - before
  match s.writes.find? fun (w : Writing) => samePacket w.q q with
  | some w =>
    if new ≠ 0 ∧ s.fget (R.SESS_STAT_WIN n) < s.fget (R.SESS_LOAD_CELLS n) + 1 then
      (s.setFlag (R.SESS_STAT_OVERRUN n) true).writeEnd w St.exceedsWindow
    else ((s.freeCells n new).writeOn w got final).1
  | none => match s.partWaiting q with
    | some r => if new = 0 then s else s.cellsWait r before new
    | none => s.freeCells n new

/-- The last byte of a streaming operation's packet has arrived: one that runs ends; one that waits has its whole payload. -/
def State.cellsEnd (s : State) (q : Req) : State :=
  match s.writes.find? fun (w : Writing) => samePacket w.q q with
  | some w => s.writeEnd w (if q.trailerOk then St.ok else St.crcError)
  | none => { s with items := s.items.map fun i => match i with
      | .request o r =>
        if samePacket r q then .request o { r with payload := q.payload, trailerOk := q.trailerOk, verdict := q.verdict, part := none } else i
      | _ => i }

/-! ## Packets from frames (Table 10.1, R242 to R246) -/

def pkOpcode (b : List Byte) : BitVec 8 := b.getD 0 0
def pkDest (b : List Byte) : Nat := leNat (sub b 6 7) % 2 ^ 14
def pkRoute (b : List Byte) : Nat := leNat (sub b 6 7) / 2 ^ 14
def pkHeaderOk (b : List Byte) : Bool := decide (16 ≤ b.length) && leNat (sub b 14 15) == (crc16 (b.take 14)).toNat

/-- Whether the third parameter word of a packet has STRM set and the opcode is SEG_WRITE or SEG_COMMIT. -/
def pkStream (b : List Byte) : Bool :=
  (pkOpcode b == 0x22 || pkOpcode b == 0x23) && decide (3 ≤ (b.getD 8 0).toNat) && (leNat (sub b 24 27)).testBit 6

/-- The request that the bytes of a packet hold. Where PCOUNT and PLEN do not agree with the packet's length, check 4 of R254 is to
fail: the request takes more parameter words than any opcode has. -/
def pkReq (l : Fin 12) (v : Verdict) (b : List Byte) : Req :=
  let pc := (b.getD 8 0).toNat
  let pl := leNat (sub b 9 11)
  let body := (b.drop 16).take (4 * pc + (pl + 3) / 4 * 4)
  let fits := b.length == 16 + 4 * pc + (pl + 3) / 4 * 4 + 4
  let crc : Word := if body.isEmpty then 0 else crc32c body
  { link := l, session := (b.getD 2 0).setWidth 5, tag := BitVec.ofNat 16 (leNat (sub b 4 5)), flags := b.getD 1 0
    hver := ((b.getD 3 0) >>> 4).setWidth 4, kind := ((b.getD 2 0) >>> 5).setWidth 3
    params := if fits then wordsOf (body.take (4 * pc)) else List.replicate 255 0
    payload := (body.drop (4 * pc)).take pl
    trailerOk := leNat (b.drop (b.length - 4)) == crc.toNat, verdict := v }

/-- Where a request packet goes: the links that it is forwarded on, and whether the device takes it (R244, R245). -/
def State.route (s : State) (l : Nat) (b : List Byte) : List Nat × Bool :=
  let d := pkDest b
  let me := s.fget R.CHIP_ID_ID
  match pkRoute b with
  | 0 =>
    if d = 0x3FFF then
      ((List.range 12).filter fun k => k != l && s.trained k && s.flag (R.ROUTE_EN k), true)
    else if d = me then ([], true)
    else (((List.range 12).find? fun k =>
      s.flag (R.ROUTE_EN k) && decide (s.fget (R.ROUTE_FIRST k) ≤ d ∧ d ≤ s.fget (R.ROUTE_LAST k))).toList, false)
  | 1 =>
    if 256 ≤ d then ([], false)
    else ((List.range 12).filter fun k => k != l && (s.fget (R.MCAST_LINKS d)).testBit k, s.flag (R.MCAST_LOCAL d))
  | 2 => ([], true)
  | _ => ([], false)

/-- The first frame of a stream packet: one that is accepted at once is forwarded while it arrives (R294; 04_pattern_store.md R106, R107); any
other waits whole. -/
def State.beginStrm (s : State) (l : Nat) (b : List Byte) (p : RxPkt) : State × RxPkt :=
  let g := pkDest b
  let pc := (b.getD 8 0).toNat
  let q : Req := { link := Fin.ofNat 12 l, params := wordsOf ((b.drop 16).take (4 * pc)) }
  let x : StrmPkt := { group := g, commit := pkOpcode b == 0x23, q := q }
  if !pkHeaderOk b || !pkStream b || pkRoute b != 1 || s.strmWait.any fun (w : StrmPkt) => w.group == g then (s, p)
  else match s.strmSlot g with
  | none => (s, p)
  | some n =>
    let outs := (s.strmLinks n).filter (· != l)
    if outs.isEmpty || !s.strmReady n x then (s, p) else (s.evCount (97 + 4 * n), { p with outs := outs, through := true })

/-- The first frame of a packet: where its bytes go, and what is counted at once (R245, R246, R254). -/
def State.beginPkt (s : State) (l cls : Nat) (b : List Byte) : State × RxPkt :=
  let (id, s) := s.newId
  let p : RxPkt := { pkt := id }
  if cls = 3 then s.beginStrm l b { p with mine := true }
  else if !pkHeaderOk b then (s.count R.PROTO_HDRERR_COUNT, p)
  else if cls = 2 then
    let up := s.fget R.PROTO_CFG_UPLINK
    if pkRoute b = 3 ∧ up ≠ l then (s, { p with outs := [if up < 12 then up else noUplink] }) else (s.discard, p)
  else if pkRoute b = 3 then (s.discard, p)
  else
    let r := s.route l b
    (s, { p with outs := r.1, mine := r.2 || (pkRoute b == 0 && r.1.isEmpty) })

/-- A UNICAST request that the chip neither delivers nor forwards is answered BAD_ADDRESS (R245). -/
def State.noRoute (s : State) (q : Req) (op : BitVec 8) (dest : Nat) : State :=
  let s := (s.count R.PROTO_NOROUTE_COUNT).fset (R.SESS_STAT_LINK q.session.toNat) q.link.val
  s.send { kind := 1, opcode := op ||| 0x80, status := St.badAddress, session := q.session, tag := q.tag
           link := q.link.val, params := [BitVec.ofNat 32 dest] }

/-- The last frame of a packet that the device takes. -/
def State.endPkt (s : State) (l : Fin 12) (cls : Nat) (p : RxPkt) (v : Verdict) : State :=
  let b := p.bytes
  let q := pkReq l v b
  if cls = 3 then
    if !pkHeaderOk b then (s.count R.PROTO_HDRERR_COUNT).oweTo l.val 3 p.frames
    else if pkStream b && pkRoute b == 1 then
      s.strmArrive { group := pkDest b, commit := pkOpcode b == 0x23, q := q, frames := if p.through then 0 else p.frames, through := p.through }
    else s.discard.oweTo l.val 3 p.frames
  else if (s.route l.val b).2 then s.deliver (pkOpcode b) q
  else s.noRoute q (pkOpcode b) (pkDest b)

/-- Whether a packet that is arriving is a streaming operation whose header and parameters are complete. -/
def RxPkt.streams (p : RxPkt) (cls : Nat) : Bool :=
  let b := p.bytes
  p.mine && cls == 1 && streaming (pkOpcode b) && !pkStream b && decide (16 + 4 * (b.getD 8 0).toNat ≤ b.length)

/-- Whether a packet that is arriving is a request whose whole payload the engine waits for, of an open session with a slot. -/
def State.whole (s : State) (p : RxPkt) (cls : Nat) : Bool :=
  let op := pkOpcode p.bytes
  p.mine && cls == 1 && !p.begun && op != 0x01 && !streaming op && s.sessOpen p.session && s.fget (R.SESS_STAT_SLOTS p.session) != 0

/-- The payload bytes that a packet has brought so far. -/
def RxPkt.payload (p : RxPkt) : List Byte := (p.bytes.drop (16 + 4 * (p.bytes.getD 8 0).toNat)).take (leNat (sub p.bytes 9 11))

/-- Whether such a request needs more cells than its session's window: that is decided at its header (R252). -/
def State.exceeds (s : State) (p : RxPkt) (cls : Nat) : Bool :=
  s.whole p cls && decide (16 + 4 * (p.bytes.getD 8 0).toNat ≤ p.bytes.length) &&
    decide (s.fget (R.SESS_STAT_WIN p.session) < cellsOf (leNat (sub p.bytes 9 11)))

/-- The cells of a packet that is arriving count in SESS_LOAD (R268). -/
def State.countCells (s : State) (p : RxPkt) (cls : Nat) : State × RxPkt :=
  if !s.whole p cls || s.exceeds p cls then (s, p)
  else
    let used := s.fget (R.SESS_LOAD_CELLS p.session)
    let k := min (p.payload.length / 2048 - p.cells) (s.fget (R.SESS_STAT_WIN p.session) - used)
    (s.fset (R.SESS_LOAD_CELLS p.session) (used + k), { p with cells := p.cells + k })

/-- The request of a streaming operation whose payload is still arriving: PLEN bytes stand for it. -/
def partReq (l : Fin 12) (p : RxPkt) : Req :=
  let b := p.bytes
  let pc := (b.getD 8 0).toNat
  { pkReq l {} b with params := wordsOf ((b.drop 16).take (4 * pc)), payload := List.replicate (leNat (sub b 9 11)) 0
                      trailerOk := true, part := some p.pkt }

/-- A packet of a streaming operation, or of a request larger than its session's window, goes on: the request is received with its header,
and cells as they arrive (R252); a packet that holds whole in one frame is a request like any other. -/
def State.streamOn (s : State) (l : Fin 12) (cls : Nat) (old p : RxPkt) (f : Frame) : State :=
  let q := partReq l p
  let k := l.val
  let from_ := 16 + 4 * q.params.length
  let got (b : List Byte) : List Byte := (b.drop from_).take q.payload.length
  if !p.begun then
    if f.eop || !(p.streams cls || s.exceeds p cls) || !(s.route k p.bytes).2 then s
    else
      let s := s.modLink k fun c => { c with rx := Store.put (fun _ => {}) c.rx cls { p with begun := true } }
      s.deliver (pkOpcode p.bytes) q
  else if f.stomp then s.writeLost k
  else
    let whole := pkReq l f.verdict p.bytes
    let s := s.cellsIn q (got p.bytes) ((got old.bytes).length / 2048) f.eop
    if f.eop then s.cellsEnd { q with payload := whole.payload, trailerOk := whole.trailerOk, verdict := f.verdict } else s

/-- A stream packet that ends with a STOMP frame: of one that has been accepted, the cells received leave its segments FILLING (R294). -/
def State.strmStomped (s : State) (l : Fin 12) (p : RxPkt) : State :=
  if !p.through then s.oweTo l.val 3 p.frames
  else match strmCut l.val p with
    | some x => s.strmArrive x
    | none => s

/-- The packet that a frame belongs to: its first frame begins one. -/
def State.packetAt (s : State) (l cls : Nat) (f : Frame) (old : RxPkt) : State × RxPkt :=
  if f.sop then s.beginPkt l cls f.bytes else (s, old)

/-- An intact frame of CLASS 1 to 3 in order (R291, R294). A frame's credit returns when its last copy has been sent, at once where it is
not forwarded, and behind R107 for a stream packet. -/
def State.acceptFrame (s : State) (l : Fin 12) (f : Frame) : State :=
  let cls := f.cls.toNat
  let k := l.val
  let old : RxPkt := Store.get (fun _ => {}) (s.link k).rx cls
  let drop (s : State) : State := s.modLink k fun c => { c with rx := Store.put (fun _ => {}) c.rx cls {} }
  if !f.sop && old.frames == 0 then s.oweTo k cls 1
  else
    let (s, p) := s.packetAt k cls f old
    let (s, p) := s.countCells { p with bytes := p.bytes ++ f.bytes, frames := p.frames + 1 } cls
    let s := s.modLink k fun c => { c with rx := Store.put (fun _ => {}) c.rx cls p }
    let s := if p.outs.isEmpty then (if cls = 3 then s else s.oweTo k cls 1)
      else s.frameOut p.outs { cls := f.cls, sop := f.sop, eop := f.eop, stomp := f.stomp, bytes := f.bytes } p.pkt (some k)
    let s := s.streamOn l cls old p f
    if !f.eop then s
    else
      let s := drop s
      if f.stomp then if cls = 3 then s.strmStomped l { p with bytes := old.bytes } else s.cellsBack p
      else if p.mine && !p.begun then (if p.cells = 0 then s else s.uncount p).endPkt l cls p f.verdict
      else s

/-- Credits that a frame returns (R292). -/
def State.creditIn (s : State) (l : Nat) (f : Frame) : State :=
  let add (s : State) (cls : Nat) (n : BitVec 6) : State :=
    s.fset (creditFld l cls) (min 1023 (s.fget (creditFld l cls) + n.toNat))
  add (add (add s 1 f.crCmd) 2 f.crRsp) 3 f.crStrm

/-- FRAME_RECEIVE (R293); a link that its partner has looped returns the frame as it is (R306). A frame that meets an uncorrectable error in
the link buffers is as one that fails its CRC (14_memories.md Table 14.4). -/
def doFrameReceive (l : Fin 12) (f : Frame) (s : State) : State :=
  let k := l.val
  if s.linkState k != lkActive then s
  else if (s.link k).loop then s.sendWire k (.frame f)
  else if !f.intact || s.eccFrame then
    let s := ({ s with eccFrame := false }.count (R.LINK_CRCERR_COUNT k)).evCount (19 + 4 * k)
    (s.modLink k fun c => { c with nak := true }).sendAck k
  else
    let s := (s.evCount (17 + 4 * k)).ackIn k f.ack
    let s := s.modLink k fun c => { c with since := c.since + 1 }
    let inOrder := f.seq.toNat == ((s.link k).rxAck + 1) % 4096
    let s := if f.cls = 0 || inOrder then s.creditIn k f else s
    let s :=
      if f.cls = 0 || !inOrder then s
      else (s.modLink k fun c => { c with rxAck := f.seq.toNat, nak := false }).acceptFrame l f
    let s := if f.nak then s.replay k else s
    if 32 ≤ (s.link k).since ∧ s.linkState k = lkActive then s.sendAck k else s

def execFrameReceive (l : Fin 12) (f : Frame) (s : State) : Host.Outcome State Fault Refusal := .next (doFrameReceive l f s)

/-- What happens at an edge of REFCLK with no command waiting (log entry 1). -/
def State.idleEdge (s : State) : State := s.linkEdges.strmPump

end Sys2Proof.Machine
end

