-- ==== Sys2Proof/Machine/Steps.lean ====
section
/-! DEFINITION. Arming, starting, aborting and watching steps (01_architecture.md R19 to R24; 02_epoch_grid.md R44, R51;
06_pin_electronics.md R144, R154; 10_uhleus_protocol.md R257 to R259, R266). -/

namespace Sys2Proof.Machine

/-! ## STEP_ARM (R20) -/

/-- The tiles that an unfinished STEP_ARM names. -/
def State.armWaiting (s : State) : List Nat :=
  (s.splits.filter fun (x : Split) => x.opcode == 0x30).flatMap fun (x : Split) => tilesOf (x.params.getD 0 0) (x.params.getD 1 0)

def doStepArm (q : Req) (s : State) : State :=
  s.wakeEngine.request 0x30 q fun s =>
    let l := q.tiles 0
    if l.isEmpty then s.fail 0x30 q St.badParam
    else if s.flag R.BOOT_STATUS_RECOVERY || s.bscan then s.fail 0x30 q St.busy
    else match s.armRefused l with
    | some (st, t) => s.fail 0x30 q st (BitVec.ofNat 32 t)
    | none =>
      if l.any s.armWaiting.contains || decide (256 ≤ s.splits.length) || s.flag R.ENG_STATUS_HOLDING then s.fail 0x30 q St.busy
      else if !l.all s.clean then s.start 0x30 q
      else match s.armChecks l with
        | (s, some t) => s.fail 0x30 q St.badParam (BitVec.ofNat 32 t)
        | (s, none) => (s.start 0x30 q [] 1).armForce

/-- A forced reset ends with a voltage on the pin: each comparator is KNOWN on the side of its threshold on which the input lies (R154),
unless a clearing waited for the end (R152). With no voltage given the outputs stay. -/
def State.forcedEnd (s : State) (ch : Nat) (v : Option Int) : State :=
  let (x, s) : CmpSample × State := match v with
    | some v => s.resolve (s.threshold ch 3) (s.threshold ch 4) v
    | none => (⟨(s.chan ch).hiAbove, (s.chan ch).loBelow⟩, s)
  let c := s.chan ch
  let s := s.setChan ch { c with forcing := false, clearDeferred := false, hiAbove := x.hiAbove, loBelow := x.loBelow }
  let k := !c.clearDeferred
  (s.setFlag (R.CH_STATUS_RST_BUSY ch) false).setKnown ch k k

/-- A STEP_ARM that fails after its checks: its tiles stay IDLE, and their boundary actions go on. -/
def State.armFail (s : State) (x : Split) (l : List Nat) (st : BitVec 8) (t : Nat) : State :=
  l.foldl (fun s t => s.boundary t) (s.complete x st [BitVec.ofNat 32 t])

/-- Whether a tile's run, self-test or calving makes an arming complete with BUSY (R234, R239, R392, R465). -/
def State.armBarred (s : State) (t : Nat) : Bool := s.underTest.contains t || (s.tile t).calv.isSome || (s.tile t).deskew

/-- The oldest STEP_ARM of a session and tag that has begun and whose tiles have settled, or cannot be armed any more. -/
def State.settling? (s : State) (o : OpRef) : Option Split :=
  s.splits.find? fun (x : Split) =>
    let l := tilesOf (x.params.getD 0 0) (x.params.getD 1 0)
    x.arming && x.session == o.session && x.tag == o.tag &&
      (s.lvlClr || l.any (fun t => !s.idle t || s.tileFenced t || s.armBarred t) || (s.armSettled l && !l.any s.acting))

/-- STEP_ARM_SETTLED: levels, gates and power states of the named tiles have settled and the forced resets have ended; a boundary
action of a named tile that runs completes first (R29). -/
def doStepArmSettled (o : OpRef) (volts : List (Fin 1024 × Int)) (s : State) : State :=
  match s.settling? o with
  | none => s
  | some x =>
    let l := tilesOf (x.params.getD 0 0) (x.params.getD 1 0)
    match l.find? fun t => !s.idle t || s.tileFenced t with
    | some t => s.armFail x l St.badParam t
    | none =>
      if s.lvlClr || l.any s.armBarred then s.armFail x l St.busy 0
      else
        let s := (l.flatMap chansOf).foldl (fun s ch =>
          if s.armReset ch || (s.chan ch).forcing then s.forcedEnd ch ((volts.find? fun e => e.1.val == ch).map (·.2)) else s) s
        (s.armTiles l x.session).complete x St.ok

def execStepArmSettled (o : OpRef) (volts : List (Fin 1024 × Int)) (s : State) : Host.Outcome State Fault Refusal :=
  .next (doStepArmSettled o volts s)

/-! ## STEP_START (R21 to R23, R44) -/

/-- The period of a tile's first instruction (R65). -/
def State.firstPidx (s : State) (t : Nat) : Nat := (s.seqAt t (s.fget (R.SEQ_RANGE_FIRST t))).pidx.toNat
def State.firstPeriod (s : State) (t : Nat) : Nat := s.periodOf t (s.firstPidx t)

/-- The instant that a declared start time names, 0 for the earliest. -/
def State.startAsked (s : State) (declared : Nat) : Int := if declared = 0 then s.now + startDelay else declared * unitFs

/-- The start grid point of a tile for a declared start time. -/
def State.startPoint (s : State) (t declared : Nat) : Int := gridFrom (s.firstPeriod t) (s.startAsked declared)

/-- A tile's start is scheduled. -/
def State.schedule (s : State) (t g : Nat) (asked at_ : Int) : State :=
  let p := s.firstPeriod t
  let i := s.firstPidx t
  let s := s.modTile t fun c =>
    { c with group := g, startAt := at_, asked := asked, pidx := i, period := p, endE := at_, fillE := at_, execCur := s.ringCur t }
  ((s.fset (R.SEQ_STATUS_PC t) (s.fget (R.SEQ_RANGE_FIRST t))).fset (R.SEQ_STATUS_STATE t) stPending).segSync t

def doStepStart (q : Req) (s : State) : State :=
  s.request 0x31 q fun s =>
    let l := q.tiles 0
    let declared := q.n 2 + 2 ^ 32 * q.n 3
    let bad := l.find? fun t => s.stepState t != stArmed || decide (s.startPoint t declared < s.now + startDelay)
    match bad with
    | some t => s.fail 0x31 q St.badParam (BitVec.ofNat 32 t)
    | none =>
      if l.isEmpty || !s.flag R.TIME_STATUS_VALID then s.fail 0x31 q St.badParam
      else if 256 ≤ s.splits.length then s.fail 0x31 q St.busy
      else
        let g := s.groups + 1
        let points := l.map fun t => (t, s.startPoint t declared)
        let left := (l.map fun t => (s.tile t).group).eraseDups
        let s := points.foldl (fun s e => s.schedule e.1 g (s.startAsked declared) e.2) { s with groups := g }
        left.foldl (fun s g => s.groupCheck g) (s.start 0x31 q [g])

/-- Throttle stage 3 holds new starts (17_power_thermal.md Table 17.4). -/
def State.holdStarts (s : State) : Bool := s.fget R.THR_STATUS_STAGES / 4 % 2 == 1

/-- The held start of a group: its PENDING tiles return to ARMED, and STEP_START completes with BUSY, no site merged and no cycle issued
(R23, R267). DESIGN CHOICE: so do they where another tile of the group, whose grid point came before the hold, already runs (log entry 66). -/
def State.heldStart (s : State) (g : Nat) : State :=
  let l := (s.members g).filter fun t => s.stepState t == stPending
  let s := l.foldl (fun s t =>
    ((s.fset (R.SEQ_STATUS_STATE t) stArmed).modTile t fun c =>
      { c with queue := [], placing := false, pendPer := none, pendMarks := [], tail := .none, boundary := none, execCur := 0 }).segSync t) s
  match s.startOf g with
  | some x =>
    let (e, s) := s.freeTime
    s.complete x St.busy [0, 0, 0, s.rget (R.TILE_CAL_EPOCH (l.headD 0)), BitVec.ofNat 32 (sysOf e), BitVec.ofNat 32 (sysOf e / 2 ^ 32)]
  | none => s

/-- STEP_START_GRID_POINT: the tile enters RUNNING; its first cycle begins at this instant, by CYCLE_BEGIN. -/
def doStepStartGridPoint (t : Fin 64) (s : State) : State :=
  let t := t.val
  let c := s.tile t
  if s.stepState t != stPending then s
  else if s.holdStarts then s.heldStart c.group
  else
    let i := c.startAt
    let s := (s.fset (R.SEQ_STATUS_STATE t) stRunning).modTile t fun c => { c with lastE := i }
    let s := if s.warm then s.suspectFlag t Sf.warmup else s
    let s := if s.suspectAt i then s.suspectFlag t Sf.suspect else s
    let s := if s.flag (R.CAP_CFG_EN t) && !s.flag (R.CAP_CFG_MODE t) then s.putAnchor t 0 (sysOf i) true else s
    (s.maskStart t 2 i).segSync t

def execStepStartGridPoint (t : Fin 64) (s : State) : Host.Outcome State Fault Refusal := .next (doStepStartGridPoint t s)

/-! ## STEP_STATUS -/

/-- SEQ_STATUS as a read returns it: PC and SP of a sealed tile read 0 (13_security.md Table 13.10). -/
def State.seqStatus (s : State) (t : Nat) : Word :=
  let w := s.rget (R.SEQ_STATUS t)
  if (s.bundleOf t).isSome then
    let pc := R.SEQ_STATUS_PC t
    let sp := R.SEQ_STATUS_SP t
    setField (setField w pc.hi pc.lo 0) sp.hi sp.lo 0
  else w

def doStepStatus (q : Req) (s : State) : State :=
  s.request 0x32 q fun s => s.reply 0x32 q St.ok [] ((q.tiles 0).flatMap fun t => wordBytes (s.seqStatus t))

/-! ## ABORT (R257 to R259) -/

/-- Whether a split-phase operation is before its commit point (Table 10.6). -/
def State.beforeCommit (s : State) (x : Split) : Bool :=
  match x.opcode.toNat with
  | 0x31 => (x.aux.flatMap s.members).any fun t => inStep (s.stepState t)
  | 0x72 =>
    match (s.tile ((x.params.getD 0 0).toNat % 64)).calv with
    | some c => !c.moving
    | none => false
  | 0x76 => !x.begun
  | 0x71 => s.fenceReq.any fun (f : FenceReq) => f.op == some x.id
  | _ => true

/-- An ABORT reaches a split-phase operation before its commit point. -/
def State.abortSplit (s : State) (x : Split) : State :=
  if x.opcode = 0x31 then
    (x.aux.flatMap s.members).foldl (fun s t => s.abortStep t) s
  else s.cancelSplit x St.aborted

/-- An operation of a session that has been received and has not completed. -/
inductive Target where
  | split (x : Split) | measure (q : Req) | write (w : Writing) | waiting (op : BitVec 8) (q : Req)

def Target.age : Target → Nat
  | .split x => x.age
  | .measure q => q.age
  | .write w => w.q.age
  | .waiting _ q => q.age

/-- The oldest of several operations. -/
def oldestOf : List Target → Option Target
  | [] => none
  | x :: l => match oldestOf l with
    | none => some x
    | some y => some (if y.age < x.age then y else x)

/-- The oldest operation of a session with a tag (R257). -/
def State.targetOf (s : State) (n : Nat) (tag : BitVec 16) : Option Target :=
  let mine (k : BitVec 5) (g : BitVec 16) : Bool := k.toNat == n && g == tag
  oldestOf (((s.splits.filter fun (x : Split) => mine x.session x.tag).map Target.split) ++
    ((s.writes.filter fun (w : Writing) => mine w.q.session w.q.tag).map Target.write) ++
    (((s.measures ++ s.measured.map (·.1)).filter fun (m : Req) => mine m.session m.tag).map Target.measure) ++
    (((s.waiting n).filter fun e => e.2.tag == tag).map fun e => Target.waiting e.1 e.2))

/-- Whether a streaming operation has applied its last cell, its commit point (Table 10.6). -/
def Writing.committed (w : Writing) : Bool := w.locked.isNone && decide (w.limit ≤ w.done)

/-- ABORT of an operation: done, or nothing to abort. A streaming operation stops behind the cells that it has applied, and a MEASURE has
passed its commit point with the update (R258). -/
def State.abortOp (s : State) (n : Nat) (tag : BitVec 16) : Option State :=
  match s.targetOf n tag with
  | some (.split x) => if s.beforeCommit x then some (s.abortSplit x) else none
  | some (.write w) => if w.committed then none else some (s.writeEnd w St.aborted)
  | some (.measure m) =>
    if s.measures.contains m then some ({ s with measures := s.measures.erase m }.reply 0x43 m St.aborted [0]) else none
  | some (.waiting op q) => if op = 0x33 then none else some (s.abortWaiting n [(op, q)])
  | none => none

def doAbort (q : Req) (s : State) : State :=
  s.request 0x33 q fun s =>
    match q.n 0 with
    | 0 =>
      let n := nbits (q.n 1) 20 16
      let me := q.session.toNat
      if 2 ^ 21 ≤ q.n 1 then s.fail 0x33 q St.badParam
      else if n ≠ me ∧ (s.fget (R.SESS_STAT_PRIV me) < 2 ∨ s.fget (R.SESS_STAT_PRIV me) < s.fget (R.SESS_STAT_PRIV n)) then
        s.fail 0x33 q St.denied
      else match s.abortOp n ((q.p 1).setWidth 16) with
        | some s => s.reply 0x33 q St.ok
        | none => s.fail 0x33 q St.nothingToAbort
    | 1 =>
      let l := (q.tiles 1).filter fun t => inStep (s.stepState t)
      if l.isEmpty then s.fail 0x33 q St.nothingToAbort
      else
        let m := tileMask l
        (l.foldl (fun s t => s.abortStep t) s).reply 0x33 q St.ok [m.1, m.2]
    | _ => s.fail 0x33 q St.badParam

/-! ## EVENT_WAIT (R266) -/

def doEventWait (q : Req) (s : State) : State :=
  s.request 0x34 q fun s =>
    if 3 ≤ q.n 0 ∨ (q.n 0 = 2 ∧ 65536 ≤ q.n 1) then s.fail 0x34 q St.badParam
    else if 16 ≤ (s.splits.filter fun (x : Split) => x.opcode == 0x34).length ∨ 256 ≤ s.splits.length then s.fail 0x34 q St.busy
    else s.start 0x34 q

/-- Whether what an EVENT_WAIT waits for has come: a system time, the named tiles IDLE, or the event raised for its session. -/
def State.waitMet (s : State) (x : Split) : Bool :=
  let p (k : Nat) : Word := x.params.getD k 0
  match (p 0).toNat with
  | 0 => decide ((p 1).toNat + 2 ^ 32 * (p 2).toNat ≤ s.sysTime.toNat)
  | 1 => (tilesOf (p 1) (p 2)).all s.idle
  | _ => x.stage == 1

/-- EVENT_WAIT_DONE: the wait is met, or its timeout of P3 µs has run out. -/
def doEventWaitDone (o : OpRef) (timeout : Bool) (s : State) : State :=
  match s.splits.find? fun (x : Split) => x.opcode == 0x34 && x.session == o.session && x.tag == o.tag &&
      (s.waitMet x || (timeout && x.params.getD 3 0 != 0)) with
  | none => s
  | some x => s.complete x St.ok [if s.waitMet x then 1 else 0]

def execEventWaitDone (o : OpRef) (timeout : Bool) (s : State) : Host.Outcome State Fault Refusal := .next (doEventWaitDone o timeout s)

end Sys2Proof.Machine
end

