-- ==== Sys2Proof/Machine/Sequencer.lean ====
section
/-! DEFINITION. The instructions of the tile sequencer (03_sequencer.md R59 to R73, R98, R99, R111, R115). Each is a command of
its own whose operand is the instruction; the cycles that it issues wait in the tile's queue until CYCLE_BEGIN. -/

namespace Sys2Proof.Machine

/-! ## Execution (R60) -/

/-- The cycles that executed instructions have produced and that have not begun. -/
def TileCtx.queued (c : TileCtx) : Nat := (c.queue.map (·.left)).sum

/-- Whether a tile executes instructions: it is PENDING or RUNNING, nothing stands behind its queued cycles, and the issue queue holds
them all. -/
def State.fetching (s : State) (t : Nat) : Bool :=
  (s.stepState t == stPending || s.stepState t == stRunning) && (s.tile t).tail == .none && decide ((s.tile t).queued ≤ 32)

/-- The beginning of a cycle that has been issued. -/
def TileCtx.beginOf (c : TileCtx) (n : Nat) : Int :=
  match c.grid.find? fun g => decide (g.1 ≤ n) with
  | some g => g.2.1 + ((n : Int) - g.1) * g.2.2
  | none => 0

/-- The tile clock at which the next instruction executes: the one after the last instruction's, when the queue has room for every cycle
before it. Within the full queue of a fresh start it is earlier than any cycle (R60, R61). -/
def State.execClock (s : State) (t : Nat) : Option Int :=
  let c := s.tile t
  let n := s.cycles t + c.queued
  if n ≤ c.fresh + 32 then none
  else
    let room := tileEdge (c.beginOf (n - 33))
    some (match c.execAt with
      | some x => max room (x + tileClock)
      | none => room)

/-- The queue is taken as full again: a start, or the end of a wait, a stall or a filler interval (R61). -/
def State.freshStart (s : State) (t : Nat) : State :=
  let n := s.cycles t
  s.modTile t fun c => { c with execAt := none, fresh := n }

/-- The end of the queued cycles: the decision point of a branch (R71). -/
def State.queueEnd (s : State) (t : Nat) : Int :=
  let c := s.tile t
  (c.queue.foldl (fun (m : Int × Nat) r =>
    let p := match r.per with
      | some q => s.periodOf t q.pidx
      | none => m.2
    (gridFrom p m.1 + (r.left : Int) * p, p)) (c.endE, c.period)).1

/-- The instant at which the cycle behind the queued ones must begin, at the earliest. -/
def State.nextDue (s : State) (t : Nat) : Int :=
  match (s.tile t).pendPer with
  | some q => gridFrom (s.periodOf t q.pidx) (s.queueEnd t)
  | none => s.queueEnd t

/-- Execution continues at an address. -/
def State.goto (s : State) (t a : Nat) : State := s.fset (R.SEQ_STATUS_PC t) a
/-- Execution continues at the next instruction. LAST stops nothing, and behind address 16,383 stands address 0 (log entry 56). -/
def State.seqNext (s : State) (t : Nat) : State := s.goto t ((s.pc t + 1) % 16384)

/-- The last run of a queue changed. -/
def lastRun (f : Run → Run) (q : List Run) : List Run := q.dropLast ++ (q.getLast?.map f).toList

/-- The `k`-th ring segment after `i` (R98). -/
def State.ringAhead (s : State) (t i k : Nat) : Nat :=
  (s.ringFirst t + ((i + 16 - s.ringFirst t) % 16 + k) % max 1 (s.ringLen t)) % 16

/-- The segment that a run of a VEC leaves its position in (R98). -/
def State.runEnd (s : State) (t : Nat) (r : Run) : Nat :=
  let hops := (r.slot + r.left) / slots r.cfmt
  if r.strm then s.ringAhead t r.seg hops else (r.seg + hops) % 16

/-- A branch is taken to a target whose first slot lies in segment `g`, if that is known. Right behind a run, at the end of its last cycle, any
other fall-through segment of a static run is no longer wanted (04_pattern_store.md R115). -/
def State.turnTo (s : State) (t : Nat) (g : Option Nat) : State :=
  s.modTile t fun c =>
    if c.queue.isEmpty then { c with turn := c.turn || (c.fall.isSome && c.fall != g) }
    else { c with queue := lastRun (fun (r : Run) => { r with turned := r.turned || !(r.strm || g == some (s.runEnd t r)) }) c.queue }

/-- The last cycle has ended: a branch taken right behind it lets its fall-through segment go (R115). -/
def State.takeTurn (s : State) (t : Nat) : State :=
  if (s.tile t).turn then (s.modTile t fun c => { c with fall := none, turn := false }).segSync t else s

/-- The static segment of the first slot behind an address: the program is followed, with the loop counters and the stack of `s`, up to an
instruction with a slot or one whose outcome is not known yet (a BR or WAIT with a condition). -/
def State.firstSeg (s : State) (t a : Nat) : Nat → Option Nat
  | 0 => none
  | fuel + 1 =>
    let i := s.seqAt t a
    let next := (a + 1) % 16384
    let loop := s.rget (R.LOOP t i.lcnt.toNat)
    let sp := s.fget (R.SEQ_STATUS_SP t)
    match i.opcode.toNat with
    | 0x01 => if i.count = 0 then s.firstSeg t next fuel else if i.strm then none else some i.vseg.toNat
    | 0x02 => if i.count = 0 then s.firstSeg t next fuel else if i.strm then none else some i.vseg.toNat
    | 0x08 => (s.rset (R.LOOP t i.lcnt.toNat) i.count).firstSeg t (if i.count = 0 then i.target.toNat else next) fuel
    | 0x09 =>
      (s.rset (R.LOOP t i.lcnt.toNat) (if loop = 0 then 0 else loop - 1)).firstSeg t (if loop.toNat < 2 then next else i.target.toNat) fuel
    | 0x0A =>
      if 8 ≤ sp then none
      else ((s.fset (R.STACK_ADDR t sp) next).fset (R.SEQ_STATUS_SP t) (sp + 1)).firstSeg t i.target.toNat fuel
    | 0x0B => if sp = 0 then none else (s.fset (R.SEQ_STATUS_SP t) (sp - 1)).firstSeg t (s.fget (R.STACK_ADDR t (sp - 1))) fuel
    | 0x0C => s.firstSeg t i.target.toNat fuel
    | 0x0D => if i.cond = 0 then s.firstSeg t (if i.neg then next else i.target.toNat) fuel else none
    | 0x13 => none
    | 0x3F => none
    | _ => s.firstSeg t next fuel

/-- Execution continues elsewhere: the fall-through segment of a static run is no longer wanted unless the target's first slot lies in it
(R32, R115), and the stall-safety of the run's end no longer counts (R111). -/
def State.jump (s : State) (t a : Nat) : State :=
  (((s.turnTo t (s.firstSeg t a 32)).modTile t fun c => { c with boundary := c.boundary.filter (·.2.2) }).goto t a).segSync t

/-- Whether the last issued cycle may still be running: no wait and no stall stands behind it. -/
def State.inCycle (s : State) (t : Nat) : Bool := s.cycles t != 0 && (s.tile t).endE == (s.tile t).lastE

/-- The APG operation of a zero-cycle instruction (R66); the registers show it behind the cycles before it. -/
def State.apgStep (s : State) (t : Nat) (op : BitVec 16) : State :=
  let ex := s.apgOp t (s.tile t).ex op
  let s := s.modTile t fun c => { c with ex := ex }
  if (s.tile t).queue.isEmpty && !s.inCycle t then s.showApg t ex else s

/-- The marker that an instruction emits, if any. -/
def SeqInstrMarks (i : SeqInstr) : List (BitVec 8) := if i.mken then [i.mkid] else []

/-- The APG operation and the marker of a zero-cycle instruction; the marker waits for the next cycle (R66, R67). -/
def State.zeroCycle (s : State) (t : Nat) (i : SeqInstr) : State :=
  (s.apgStep t i.apgop).modTile t fun c => { c with pendMarks := c.pendMarks ++ SeqInstrMarks i }

/-! ## What stands behind the queued cycles -/

/-- Markers emitted at an instant (R67). -/
def State.markers (s : State) (t : Nat) (i : Int) (l : List (BitVec 8)) : State := l.foldl (fun s m => s.marker t i m) s

/-- The markers of END fall at the end of the step: they start a mask pass, and no trigger takes them (08_acquisition.md R203). -/
def State.endMarkers (s : State) (t : Nat) (i : Int) (l : List (BitVec 8)) : State :=
  l.foldl (fun s m => if s.flag (R.MASK_CFG_EN t) && s.fget (R.MASK_CFG_MKID t) == m.toNat then s.maskStart t 1 i else s) s

/-- Whether a compare of a tile has its last strobe at or before a cutoff and no outcome yet (R71). -/
def State.unseen (s : State) (t : Nat) (cutoff : Int) : Bool :=
  (chansOf t).any fun ch => (s.chan ch).strobes.any fun (x : Strobe) =>
    x.expect != .profile && x.expect != .capture && decide (x.last ≤ cutoff)

/-- The markers of a period change that a wait stands behind are emitted at G (R52, R67). -/
def State.waitPeriod (s : State) (t : Nat) : State :=
  match (s.tile t).pendPer with
  | none => s
  | some q =>
    (s.markers t (gridFrom (s.periodOf t q.pidx) (s.tile t).fillE) q.marks).modTile t fun c =>
      { c with pendPer := some { q with marks := [] } }

/-- A wait begins at D: edges and strobes carried past D are dropped (05_timing.md R130), and the wait ends there at once where the
condition holds (R72, R73). It begins once every compare that it sees has its outcome. D of a WAIT behind another is the end of that
one (DESIGN CHOICE, log entry 68). -/
def State.beginWait (s : State) (t : Nat) (w : WaitRec) : State :=
  let d := (s.tile t).endE
  if s.unseen t (d - condDelay) then s
  else
    let s := ((s.showApg t (s.tile t).ex).markers t d w.marks).stopIssue t d
    if s.condHolds t w.cond (d - condDelay) then
      ((s.clearCond t w.cond (d - condDelay)).modTile t fun c => { c with tail := .none }).seqNext t
    else ((s.waitPeriod t).modTile t fun c => { c with tail := .waiting { w with d := some d } }).setFlag (R.SEQ_STATUS_WAITING t) true

/-- The condition that an instruction names. -/
def SeqInstrCond (i : SeqInstr) : Cond := { code := i.cond.toNat, neg := i.neg, csite := i.csite.toNat, clrf := i.clrf }

/-- A branch decides at D (R66, R71, R73). -/
def State.decideBr (s : State) (t : Nat) (i : SeqInstr) (d : Int) : State :=
  let taken := s.condHolds t (SeqInstrCond i) (d - condDelay)
  let s := ((s.clearCond t (SeqInstrCond i) (d - condDelay)).zeroCycle t i).modTile t fun c => { c with tail := .none }
  if taken then s.jump t i.target.toNat else s.seqNext t

/-- Whether a compare or a capture of a tile has no outcome yet. -/
def State.unresolved (s : State) (t : Nat) : Bool := (chansOf t).any fun ch => (s.chan ch).strobes.any fun (x : Strobe) => x.expect != .profile

/-- The step ends behind the last issued cycle: issue stops there, and the tile ends once the compares of its cycles have their outcomes
(R24, R60, R67, R69; 05_timing.md R130). -/
def State.finish (s : State) (t : Nat) (x : Tail) : State :=
  let e := (s.tile t).lastE
  let s :=
    if (s.tile t).closing then s
    else
      let s := match x with
        | .ending l => s.endMarkers t e l
        | _ => s
      (s.stopIssue t e).modTile t fun c => { c with tail := x, closing := true }
  if s.unresolved t then s
  else match x with
    | .ending _ => s.endStep t St.ok 1
    | .stopping st cause => s.endStep t st cause
    | _ => s

/-- The queue of a RUNNING tile is empty at the end of the last cycle: the step ends, a branch decides, a wait begins, or the tile
underruns (R24, R60, R69, R71, R72). D of a branch behind a wait is the end of the wait, and a period change that waits does not move it
(DESIGN CHOICE, log entry 68). -/
def State.runTail (s : State) (t : Nat) : State :=
  let c := s.tile t
  match c.tail with
  | .none => s.finish t (.stopping St.hwFault 6)
  | .branching i => if s.unseen t (c.endE - condDelay) then s else (s.decideBr t i c.endE).takeTurn t
  | .waiting w => if w.d.isSome then s else s.beginWait t w
  | x => s.finish t x

/-- What an instruction puts behind the queued cycles acts where the last of them has ended; else CYCLE_BEGIN comes to it. -/
def State.putTail (s : State) (t : Nat) (x : Tail) : State :=
  let s := s.modTile t fun c => { c with tail := x }
  if s.stepState t == stRunning && (s.tile t).queue.isEmpty && decide ((s.tile t).endE ≤ s.tileTime t s.now) then s.runTail t else s

/-- An instruction acts where the tile executes instructions; where it would execute only after the cycle behind it must have begun, the
tile underruns instead (R60). -/
def State.seq (s : State) (t : Nat) (act : State → State) : State :=
  if !s.fetching t then s
  else
    let x := s.execClock t
    if s.stepState t == stRunning && x.any (fun x => decide (s.nextDue t < x)) then s.putTail t (.stopping St.hwFault 6)
    else act (s.modTile t fun c => { c with execAt := x })

/-- END and WAIT act where the tile executes instructions: no cycle begins behind them (log entry 57). -/
def State.seqLast (s : State) (t : Nat) (act : State → State) : State := if s.fetching t then act s else s

/-! ## Instructions that issue cycles (VEC, RPT, HOLD) -/

/-- The stall-safety of entering a run's segment (R111): that of the boundary before it, if it enters the segment of that boundary,
else its own. -/
def entrySafe (b : Option (Nat × Bool × Bool)) (seg : Nat) (strm own : Bool) : Bool :=
  match b with
  | some (g, safe, ring) => if g = seg ∧ (ring = false ∨ strm = true) then safe else own
  | none => own

/-- Whether a run's segment, with its fall-through segment, leaves at most four segments locked (04_pattern_store.md R95); behind queued
cycles an instruction waits for it. -/
def State.lockRoom (s : State) (t : Nat) (i : SeqInstr) : Bool :=
  let c := s.tile t
  let seg := if i.strm then c.execCur else i.vseg.toNat
  let ends := i.opcode = 1 && decide (slots i.cfmt ≤ i.vword.toNat + i.count.toNat)
  c.queue.isEmpty || decide (((List.range 16).filter fun n => s.wanted t n || c.lastSeg == some n || n == seg ||
    (ends && n == s.segAfter t i.strm seg)).length ≤ 4)

/-- The cycles of an instruction enter the queue. -/
def State.enqueue (s : State) (t : Nat) (kind : RunKind) (i : SeqInstr) : State :=
  let c := s.tile t
  let slotted := kind != .hold
  if slotted && i.strm && s.ringLen t == 0 then s.putTail t (.stopping St.starved 2)
  else if i.count = 0 then s.seqNext t
  else
    let vec := kind == .vec
    let seg := if i.strm then c.execCur else i.vseg.toNat
    let stop := i.vword.toNat + i.count.toNat
    let after := s.apgOp t c.ex i.apgop
    let r : Run :=
      { kind := kind, tset := i.tset.toNat, cfmt := i.cfmt, strm := i.strm, ssafe := i.ssafe, seg := seg, slot := i.vword.toNat
        entry := entrySafe c.boundary seg i.strm (vec && i.ssafe), left := i.count.toNat, per := c.pendPer
        marks := c.pendMarks ++ SeqInstrMarks i, apg := c.ex, after := after }
    let follow := if vec then s.runEnd t r else seg
    let boundary :=
      if !slotted then c.boundary else if vec && stop % slots i.cfmt == 0 then some (follow, i.ssafe, i.strm) else none
    let s := s.modTile t fun c =>
      { c with queue := c.queue ++ [r], pendPer := none, pendMarks := [], ex := after, boundary := boundary
               execCur := if vec && i.strm then follow else c.execCur }
    (if 32 < (s.tile t).queued then s.modTile t fun c => { c with placing := true } else s.seqNext t).segSync t

def doVec (t : Fin 64) (i : SeqInstr) (s : State) : State := if s.lockRoom t i then s.seq t fun s => s.enqueue t .vec i else s
def execVec (t : Fin 64) (i : SeqInstr) (s : State) : Host.Outcome State Fault Refusal := .next (doVec t i s)

def doRpt (t : Fin 64) (i : SeqInstr) (s : State) : State := if s.lockRoom t i then s.seq t fun s => s.enqueue t .rpt i else s
def execRpt (t : Fin 64) (i : SeqInstr) (s : State) : Host.Outcome State Fault Refusal := .next (doRpt t i s)

def doHold (t : Fin 64) (i : SeqInstr) (s : State) : State := s.seq t fun s => s.enqueue t .hold i
def execHold (t : Fin 64) (i : SeqInstr) (s : State) : Host.Outcome State Fault Refusal := .next (doHold t i s)

/-! ## Zero-cycle instructions -/

def doNop (t : Fin 64) (i : SeqInstr) (s : State) : State := s.seq t fun s => (s.zeroCycle t i).seqNext t
def execNop (t : Fin 64) (i : SeqInstr) (s : State) : Host.Outcome State Fault Refusal := .next (doNop t i s)

/-- LOOP (R68). -/
def doLoop (t : Fin 64) (i : SeqInstr) (s : State) : State :=
  s.seq t fun s =>
    let s := (s.zeroCycle t i).rset (R.LOOP t i.lcnt.toNat) i.count
    if i.count = 0 then s.jump t i.target.toNat else s.seqNext t
def execLoop (t : Fin 64) (i : SeqInstr) (s : State) : Host.Outcome State Fault Refusal := .next (doLoop t i s)

/-- LEND (R68). -/
def doLend (t : Fin 64) (i : SeqInstr) (s : State) : State :=
  s.seq t fun s =>
    let n := s.rget (R.LOOP t i.lcnt.toNat)
    let s := s.zeroCycle t i
    if n = 0 then s.seqNext t
    else
      let s := s.rset (R.LOOP t i.lcnt.toNat) (n - 1)
      if n = 1 then s.seqNext t else s.jump t i.target.toNat
def execLend (t : Fin 64) (i : SeqInstr) (s : State) : Host.Outcome State Fault Refusal := .next (doLend t i s)

def State.stackSp (s : State) (t : Nat) : Nat := s.fget (R.SEQ_STATUS_SP t)

/-- CALL (R69). One that ends the step with a stack fault applies no APG operation and emits no marker (log entry 56). -/
def doCall (t : Fin 64) (i : SeqInstr) (s : State) : State :=
  s.seq t fun s =>
    let n := s.stackSp t
    if 8 ≤ n then s.putTail t (.stopping St.hwFault 7)
    else
      let s := (s.zeroCycle t i).fset (R.STACK_ADDR t n) ((s.pc t + 1) % 16384)
      (s.fset (R.SEQ_STATUS_SP t) (n + 1)).jump t i.target.toNat
def execCall (t : Fin 64) (i : SeqInstr) (s : State) : Host.Outcome State Fault Refusal := .next (doCall t i s)

/-- RET (R69). The popped STACKn reads 0; one that ends the step with a stack fault applies no APG operation and emits no marker (log
entry 56). -/
def doRet (t : Fin 64) (i : SeqInstr) (s : State) : State :=
  s.seq t fun s =>
    match s.stackSp t with
    | 0 => s.putTail t (.stopping St.hwFault 8)
    | n + 1 =>
      let a := s.fget (R.STACK_ADDR t n)
      (((s.zeroCycle t i).fset (R.STACK_ADDR t n) 0).fset (R.SEQ_STATUS_SP t) n).jump t a
def execRet (t : Fin 64) (i : SeqInstr) (s : State) : Host.Outcome State Fault Refusal := .next (doRet t i s)

def doJmp (t : Fin 64) (i : SeqInstr) (s : State) : State := s.seq t fun s => (s.zeroCycle t i).jump t i.target.toNat
def execJmp (t : Fin 64) (i : SeqInstr) (s : State) : Host.Outcome State Fault Refusal := .next (doJmp t i s)

/-- The last executed instruction has placed all its cycles: PC names the next one (R60, Table 3.10). -/
def State.placed (s : State) (t : Nat) : State :=
  if (s.tile t).placing && decide ((s.tile t).queued ≤ 32) then (s.modTile t fun c => { c with placing := false }).seqNext t else s

/-- BR (R66, R71, R73): ALWAYS decides when it executes, any other condition at the end of the queued cycles. -/
def doBr (t : Fin 64) (i : SeqInstr) (s : State) : State :=
  s.seq t fun s => if i.cond = 0 then s.decideBr t i (s.queueEnd t) else s.putTail t (.branching i)
def execBr (t : Fin 64) (i : SeqInstr) (s : State) : Host.Outcome State Fault Refusal := .next (doBr t i s)

/-- SEGSW (R98, R99, R111); the ring advances behind the queued cycles. -/
def doSegsw (t : Fin 64) (i : SeqInstr) (s : State) : State :=
  s.seq t fun s =>
    if s.ringLen t = 0 then s.putTail t (.stopping St.starved 2)
    else
      let s := s.zeroCycle t i
      let cur := s.ringAhead t (s.tile t).execCur 1
      let s := s.modTile t fun c => { c with execCur := cur, boundary := some (cur, i.ssafe, true) }
      let s := if (s.tile t).queue.isEmpty then s.ringAdvance t
        else s.modTile t fun c => { c with queue := lastRun (fun (r : Run) => { r with switches := r.switches + 1 }) c.queue }
      (s.seqNext t).segSync t
def execSegsw (t : Fin 64) (i : SeqInstr) (s : State) : Host.Outcome State Fault Refusal := .next (doSegsw t i s)

/-- MARK (R67). -/
def doMark (t : Fin 64) (i : SeqInstr) (s : State) : State :=
  s.seq t fun s => (s.modTile t fun c => { c with pendMarks := c.pendMarks ++ [i.mkid] }).seqNext t
def execMark (t : Fin 64) (i : SeqInstr) (s : State) : Host.Outcome State Fault Refusal := .next (doMark t i s)

/-- PERIOD (R65): of two requests with no cycle between them the later one counts. -/
def doPeriod (t : Fin 64) (i : SeqInstr) (s : State) : State :=
  s.seq t fun s =>
    let old := ((s.tile t).pendPer.map (·.marks)).getD []
    (s.modTile t fun c => { c with pendPer := some ⟨i.pidx.toNat, old ++ SeqInstrMarks i⟩ }).seqNext t
def execPeriod (t : Fin 64) (i : SeqInstr) (s : State) : Host.Outcome State Fault Refusal := .next (doPeriod t i s)

/-- WAIT (R72). -/
def doWait (t : Fin 64) (i : SeqInstr) (s : State) : State :=
  s.seqLast t fun s =>
    (s.apgStep t i.apgop).putTail t
      (.waiting { cond := SeqInstrCond i, count := i.count.toNat, target := i.target.toNat, marks := SeqInstrMarks i })
def execWait (t : Fin 64) (i : SeqInstr) (s : State) : Host.Outcome State Fault Refusal := .next (doWait t i s)

/-- END (R24, R67). -/
def doEndStep (t : Fin 64) (i : SeqInstr) (s : State) : State := s.seqLast t fun s => s.putTail t (.ending (SeqInstrMarks i))
def execEndStep (t : Fin 64) (i : SeqInstr) (s : State) : Host.Outcome State Fault Refusal := .next (doEndStep t i s)

/-- The instants from which on a tile sees another value of a condition: 40 ns behind its contributions, its MATCH values and SEQ_TIME. -/
def State.condTurns (s : State) (t : Nat) : List Int :=
  let c := s.tile t
  (s.pair (R.SEQ_TIME_LO t) (R.SEQ_TIME_HI t) * unitFs :: (c.conds.map (·.2) ++ c.matches_.map (·.1))).map (· + condDelay)

/-- The first tile clock from `a` to `b` at which a tile sees that a condition holds (R72). -/
def State.firstHold (s : State) (t : Nat) (k : Cond) (a b : Int) : Option Int :=
  (a :: (s.condTurns t).map tileEdge).foldl (fun (m : Option Int) i =>
    if a ≤ i ∧ i ≤ b ∧ s.condHolds t k (i - condDelay) then some (match m with | some x => min x i | none => i) else m) none

/-- WAIT_RELEASE: by tile clock `clock`, counted from the first edge of the tile clock at or after D, the condition has held, and the next
instruction follows the first clock at which it did; where it has not held within COUNT tile clocks from D, the wait ends at that
limit, and execution continues at TARGET (R16, R72). The clock is reached once every compare that it sees has its outcome. -/
def doWaitRelease (t : Fin 64) (clock : Nat) (s : State) : State :=
  match (s.tile t).tail with
  | .waiting w =>
    match w.d with
    | none => s
    | some d =>
      let lim := d + w.count * tileClock
      let here := tileEdge d + clock * tileClock
      let late := w.count != 0 && decide (lim ≤ here)
      let stop := if late then lim else here
      let hold := s.firstHold t w.cond (tileEdge d) stop
      if s.stepState t != stRunning || !(hold.isSome || late) || s.unseen t (stop - condDelay) then s
      else
        let i := hold.getD lim
        let s := (s.clearCond t w.cond (i - condDelay)).freshStart t
        let s := (s.modTile t fun c => { c with tail := .none, endE := i }).setFlag (R.SEQ_STATUS_WAITING t) false
        if hold.isSome then s.seqNext t else s.jump t w.target
  | _ => s
def execWaitRelease (t : Fin 64) (clock : Nat) (s : State) : Host.Outcome State Fault Refusal := .next (doWaitRelease t clock s)

end Sys2Proof.Machine
end

