-- ==== Sys2Proof/Machine/Play.lean ====
section
/-! DEFINITION. The cycles of a tile: their beginning, the filler rule, starvation, compares and captures
(02_epoch_grid.md R50 to R55; 03_sequencer.md R59, R60; 04_pattern_store.md R97, R110 to R114; 05_timing.md R122 to R131;
06_pin_electronics.md R153; 07_time_measurement.md R169 to R174). -/

namespace Sys2Proof.Machine

/-! ## The filler rule (R52 to R55, R65) -/

/-- A filler interval enters the step record. -/
def State.fillRecord (s : State) (t : Nat) (f : Int) : State :=
  let f := f.toNat
  let s := s.count (R.FILL_COUNT_COUNT t)
  let s := s.setPair (R.FILL_SUM_LO t) (R.FILL_SUM_HI t) (s.pair (R.FILL_SUM_LO t) (R.FILL_SUM_HI t) + f)
  s.setPair (R.FILL_MAX_LO t) (R.FILL_MAX_HI t) (max f (s.pair (R.FILL_MAX_LO t) (R.FILL_MAX_HI t)))

/-- The period change that the next cycle carries takes effect at G, the first grid point at or after the end of the last issued cycle, or
of a stall (R52, R54); a wait that has stood behind that cycle moves neither. -/
def State.filler (s : State) (t : Nat) (q : PerReq) : State :=
  let c := s.tile t
  let p := s.periodOf t q.pidx
  let g := gridFrom p c.fillE
  if p = c.period then s.markers t g q.marks
  else
    let s := s.fillRecord t (g - c.fillE)
    let s := if c.fillE < g then (s.stopIssue t c.fillE).freshStart t else s
    (s.modTile t fun c => { c with period := p, pidx := q.pidx, endE := max c.endE g }).markers t g q.marks

/-! ## Starvation (R110 to R114) -/

/-- A channel takes the drive condition of its hold-vector state; that of the last issued cycle is kept for state = (R77, R79, R111). -/
def State.holdDrive (s : State) (t lane : Nat) : State :=
  let ch := t * 16 + lane
  if s.mode ch != 1 then s
  else
    let s := s.modChan ch fun c => { c with prior := c.prior.or (some (c.enable, c.level)) }
    match driveOf (s.holdCode t lane) false false with
    | .bit b => s.modChan ch fun c => { c with enable := .on, level := if b then .vih else .vil }
    | .term => s.modChan ch fun c => { c with enable := .on, level := .vtt }
    | .off => s.modChan ch fun c => { c with enable := .offLoadOff }
    | .load => s.modChan ch fun c => { c with enable := .offLoadOn }
    | .keep => s

/-- A stall begins at E (R111). -/
def State.beginStall (s : State) (t seg : Nat) : State :=
  let e := (s.tile t).endE
  let s := ((s.stopIssue t e).suspectFlag t Sf.stall).setFlag (R.SEQ_STATUS_STALLED t) true
  let s := (List.range 16).foldl (fun s lane => s.holdDrive t lane) s
  s.modTile t fun c => { c with stall := some (e, seg) }

/-- The limit of a stall in units of 2^-16 ps, 0 for none (R112). -/
def State.stallLimit (s : State) (t : Nat) : Int := s.fget (R.STALL_LIMIT_LIMIT t) * 65536000000

/-- STALL_RESUME: the tile resumes at the first grid point at or after the commit instant plus 50 ns, unless the stall has reached
its limit first (R111, R112). DESIGN CHOICE: each stall's length is cut to whole units of 1/256 ns before it is added (log entry 70). -/
def doStallResume (t : Fin 64) (s : State) : State :=
  let c := s.tile t
  match c.stall with
  | none => s
  | some (e, seg) =>
    let at_ := gridFrom c.period (max e (Store.get (fun _ => 0) c.tc seg + readyDelay))
    let lim := s.stallLimit t
    if !s.segReady t seg at_ then s
    else if lim != 0 && decide (e + lim ≤ at_) then (s.tileEv t 2 e (lim / tileClock).toNat).endStep t St.starved 2
    else
      let u := ((at_ - e) / unitFs).toNat
      let s := s.count (R.STALL_COUNT_COUNT t)
      let s := s.setPair (R.STALL_SUM_LO t) (R.STALL_SUM_HI t) (s.pair (R.STALL_SUM_LO t) (R.STALL_SUM_HI t) + u)
      let s := s.fset (R.STALL_MAX_MAX t) (max (s.fget (R.STALL_MAX_MAX t)) (min u (2 ^ 32 - 1)))
      let s := s.tileEv t 2 e ((at_ - e) / tileClock).toNat
      ((s.setFlag (R.SEQ_STATUS_STALLED t) false).modTile t fun (c : TileCtx) => { c with stall := none, endE := at_, fillE := at_ }).freshStart t

def execStallResume (t : Fin 64) (s : State) : Host.Outcome State Fault Refusal := .next (doStallResume t s)

/-- STALL_LIMIT_EXPIRY: the stall reaches its limit by the next REFCLK edge (R112). -/
def doStallLimitExpiry (t : Fin 64) (s : State) : State :=
  match (s.tile t).stall with
  | none => s
  | some (e, _) =>
    let lim := s.stallLimit t
    if lim != 0 && decide (e + lim < s.tileTime t s.now + 2560 * unitFs) then
      (s.tileEv t 2 e (lim / tileClock).toNat).endStep t St.starved 2
    else s

def execStallLimitExpiry (t : Fin 64) (s : State) : Host.Outcome State Fault Refusal := .next (doStallLimitExpiry t s)

/-! ## One cycle (R59, R76, R77, R122 to R129, R173) -/

/-- The compare or capture strobe of a cycle (R125). -/
def State.strobeOf (s : State) (ch cyc set : Nat) (c e : Int) (code : Nat) (a : Apg) (dbit : Bool) (dnum : Nat) : Option Strobe :=
  let t := ch / 16
  let lane := ch % 16
  (expectOf code dbit (s.flag (R.TDC_CFG_EN ch))).map fun x =>
    let smode := s.tset t set lane 6 / 16 % 4
    let at_ (k : Nat) : Int := c + s.tset t set lane k * edgeUnit + s.dskCmp ch
    { cyc := cyc, start := c, stop := e, expect := x, fromE := code == 0xA || code == 0xB, s0 := at_ 4, s1 := at_ 5
      mode := if x = .capture ∨ x = .profile then 0 else smode
      px := s.physX t a, py := s.physY t a, dbit := dnum }

/-- The stop window that a cycle opens (R173, R174). -/
def State.cycleWindow (s : State) (ch : Nat) (x : Strobe) : State :=
  let start := s.fget (R.TDC_CFG_START ch)
  let opens := x.expect == .profile || (x.expect != .capture && s.flag (R.TDC_CFG_ONCMP ch))
  if (s.mode ch = 1 ∨ s.mode ch = 2) ∧ s.flag (R.TDC_CFG_EN ch) ∧ start < 2 ∧ opens then
    let r := if start = 0 then place x.start else place x.s0 - signed 16 (s.fget (R.CH_DSK_USER_CMP ch)) * edgeUnit
    s.addWindow ch x.start
      (s.window ch x.cyc r (if x.mode = 0 then 0 else x.s1 - x.s0) (place (max x.start (s.tile (ch / 16)).startAt)) true)
  else s

/-- A lane takes a cycle from C to E. -/
def State.cycleLane (s : State) (t lane cyc : Nat) (r : Run) (c e : Int) : State :=
  let ch := t * 16 + lane
  let pos := if r.kind == .hold then 0 else r.slot % 4
  let code := if r.kind == .hold then s.holdCode t lane else s.slotCode t r.seg r.slot lane r.cfmt
  let (dbit, abit, dnum) := s.apgBits t lane pos r.apg
  let x := s.strobeOf ch cyc r.tset c e code r.apg dbit dnum
  let s := s.judgeStrobes ch cyc e ((x.map fun (x : Strobe) => x.instants.map (·.2)).getD [])
  let s := s.modChan ch fun k => { k with strobes := k.strobes.filter fun (y : Strobe) => y.expect != .profile || !s.strobeFirm ch y }
  let s := if s.mode ch = 1 then s.driveCycle ch cyc r.tset c e (driveOf code dbit abit) else s
  match x with
  | none => s
  | some x =>
    let s := s.modChan ch fun k => { k with strobes := k.strobes ++ [x] }
    let s := if x.expect = .profile then s
      else s.modTile t fun k =>
        if k.cycs.any fun (y : CycRec) => y.cyc == cyc then
          { k with cycs := k.cycs.map fun (y : CycRec) => if y.cyc = cyc then { y with waiting := y.waiting + 1 } else y }
        else { k with cycs := k.cycs ++ [{ cyc := cyc, start := c, waiting := 1 }] }
    s.cycleWindow ch x

/-- The queue behind one cycle of its first run: the run advances, crosses, or ends (R89, R99, R66). -/
def State.runAdvance (s : State) (t : Nat) (r : Run) (rest : List Run) : State :=
  let vec := r.kind == .vec
  let full := vec && r.slot + 1 == slots r.cfmt
  let follow := s.segAfter t r.strm r.seg
  let s := if full && r.strm && r.seg == s.ringCur t then s.ringAdvance t else s
  if r.left ≤ 1 then
    let s := s.modTile t fun c => { c with queue := rest, fall := if full then some follow else none, turn := full && r.turned }
    (List.range r.switches).foldl (fun s _ => s.ringAdvance t) s
  else
    let r := { r with left := r.left - 1, started := true, marks := [], per := none
                      seg := if full then follow else r.seg, slot := if full then 0 else if vec then r.slot + 1 else r.slot }
    s.modTile t fun c => { c with queue := r :: rest }

/-- A cycle of the queue's first run begins on the grid (R51, R59, R97). -/
def State.issueCycle (s : State) (t : Nat) (r : Run) (rest : List Run) : State :=
  let k := s.tile t
  let c := gridFrom k.period k.endE
  let e := c + k.period
  let n := s.cycles t
  let joined := match k.grid with
    | g :: _ => g.2.2 == k.period && g.2.1 + ((n : Int) - g.1) * k.period == c
    | [] => false
  let s := s.modTile t fun k =>
    { k with curC := c, endE := e, lastE := e, fillE := e, grid := if joined then k.grid else (n, c, k.period) :: k.grid }
  let s := (s.showApg t r.apg).markers t c r.marks
  let s := if r.kind = .hold then s else (s.segPlay t r.seg).modTile t fun k => { k with fall := none }
  let s := (s.setPair (R.CYCLES_LO t) (R.CYCLES_HI t) (n + 1)).tileEv t 0 c
  let s := (List.range 16).foldl (fun s lane => s.cycleLane t lane n r c e) s
  (((s.runAdvance t r rest).placed t).segSync t).settleStops t

/-- CYCLE_BEGIN: the next cycle of a running tile begins, or what stands in its place does (R51 to R55, R60, R110 to R114). -/
def doCycleBegin (t : Fin 64) (s : State) : State :=
  let t := t.val
  if s.stepState t != stRunning || (s.tile t).stall.isSome then s
  else if (s.tile t).closing then s.finish t (s.tile t).tail
  else
    let s := s.takeTurn t
    let c := s.tile t
    match c.queue with
    | [] => s.runTail t
    | r :: rest =>
      if r.kind != .hold && (c.lastSeg != some r.seg || (r.strm && c.consumed.contains r.seg)) && !s.segReady t r.seg c.endE then
        if (if r.started then r.ssafe else r.entry) then (s.showApg t r.apg).beginStall t r.seg
        else s.finish t (.stopping St.starved 2)
      else
        let s := match r.per with
          | some q => s.filler t q
          | none => s
        s.issueCycle t r rest

def execCycleBegin (t : Fin 64) (s : State) : Host.Outcome State Fault Refusal := .next (doCycleBegin t s)

/-! ## Compares and captures (R125, R150, R153, R198, R199) -/

/-- The comparator state of a channel for the outputs of a sample, coded 0 L, 1 M, 2 H, 3 X (R150). -/
def State.cstate (s : State) (ch : Nat) (x : CmpSample) : Nat :=
  let hi := s.flag (R.CH_STATUS_KNOWN_HI ch)
  let lo := s.flag (R.CH_STATUS_KNOWN_LO ch)
  if hi && x.hiAbove then 2 else if lo && x.loBelow then 0 else if hi && lo then 1 else 3

/-- The outcome of one sample against an expectation (Table 6.5): 0 PASS, 1 FAIL, 2 UNKNOWN. -/
def State.outcome (s : State) (ch : Nat) (e : Expect) (x : CmpSample) : Nat :=
  let hi := s.flag (R.CH_STATUS_KNOWN_HI ch)
  let lo := s.flag (R.CH_STATUS_KNOWN_LO ch)
  if s.mode ch = 0 || (s.chan ch).chkBad then 2
  else match e with
    | .high => if hi then (if x.hiAbove then 0 else 1) else 2
    | .low => if lo then (if x.loBelow then 0 else 1) else 2
    | _ => if (hi && x.hiAbove) || (lo && x.loBelow) then 1 else if hi && lo then 0 else 2

/-- The outcome of all samples of a compare, with the first failing one (R125, R153). -/
def State.outcomes (s : State) (ch : Nat) (e : Expect) (l : List CmpSample) : Nat × Option CmpSample :=
  match l.find? fun x => s.outcome ch e x == 1 with
  | some x => (1, some x)
  | none => (if l.any fun x => s.outcome ch e x == 2 then 2 else 0, none)

/-- The lane code of a compare (Table 8.3) by its outcome and, for a FAIL, the actual state. -/
def laneCode (e : Expect) (out actual : Nat) : Nat :=
  let k := match e with | .low => 0 | .high => 2 | _ => 1
  match out with
  | 0 => k + 1
  | 2 => 0xA + k
  | _ => match e with
    | .low => if actual = 2 then 5 else 4
    | .high => if actual = 0 then 8 else 9
    | _ => if actual = 2 then 7 else 6

/-- The actual state that a FAIL records: that of its first failing sample; where the other comparator is not KNOWN, one of the two
states that the failure leaves (log entry 4). -/
def State.actual (s : State) (ch : Nat) (e : Expect) (x : CmpSample) : Nat × State :=
  match s.cstate ch x with
  | 3 =>
    let (v, s) := s.free
    (if v.getLsbD 0 then 1 else if e = .low then 2 else 0, s)
  | k => (k, s)

/-- The actual state of a compare's first failing sample, if it has one. -/
def State.actualOf (s : State) (ch : Nat) (e : Expect) (x : Option CmpSample) : Nat × State :=
  match x with
  | some x => s.actual ch e x
  | none => (0, s)

/-- A failing compare (R70, R86, R203, R214). -/
def State.strobeFail (s : State) (ch : Nat) (x : Strobe) : State :=
  let s := (s.failChan ch x.last).tileEv (ch / 16) 1 x.last
  let b : FcBit := { px := x.px, py := x.py, dbit := x.dbit, tile := ch / 16, lane := ch % 16, cyc := x.cyc }
  (s.fcFail ch b x.fromE).failsTrigger ch x.last

/-- An UNKNOWN compare (R153). -/
def State.strobeUnknown (s : State) (ch : Nat) (x : Strobe) : State :=
  let s := if s.rget (R.CMP_UNK_COUNT ch) = 0 then s.setPair (R.CMP_UNK_CYC_LO ch) (R.CMP_UNK_CYC_HI ch) x.cyc else s
  ((s.count (R.CMP_UNK_COUNT_COUNT ch)).indChan ch).suspectFlag (ch / 16) Sf.unknown

/-- MATCH as it stands (Table 3.11). -/
def State.showMatch (s : State) (t : Nat) : State := s.setFlag (R.COND_FLAGS_MATCH t) ((s.tile t).matchAt (2 ^ 100))

/-- A compare has its outcome. -/
def State.compareDone (s : State) (ch : Nat) (x : Strobe) (l : List CmpSample) : State :=
  let t := ch / 16
  let (out, bad) := s.outcomes ch x.expect l
  let (actual, s) := s.actualOf ch x.expect bad
  let code := laneCode x.expect out actual
  let s := (s.modTile t fun c =>
    { c with matches_ := c.matches_ ++ [(x.last, x.cyc, out == 0)]
             cycs := c.cycs.map fun (r : CycRec) =>
               if r.cyc = x.cyc then
                 { r with codes := r.codes ||| BitVec.ofNat 64 (code * 16 ^ (ch % 16))
                          anyFail := r.anyFail || out == 1, anyUnknown := r.anyUnknown || out == 2 }
               else r }).showMatch t
  match out with
  | 1 => s.strobeFail ch x
  | 2 => s.strobeUnknown ch x
  | _ => s

/-- A capture records the comparator state (R199). -/
def State.captureDone (s : State) (ch : Nat) (x : Strobe) (l : List CmpSample) : State :=
  let v := 8 + s.cstate ch (l.headD ⟨false, false⟩)
  s.modTile (ch / 16) fun c =>
    { c with cycs := c.cycs.map fun (r : CycRec) =>
               if r.cyc = x.cyc then { r with caps := r.caps ||| BitVec.ofNat 64 (v * 16 ^ (ch % 16)), anyCapt := true } else r }

/-- The comparators' outputs at each of a list of voltages on the pin, one behind another. -/
def State.samples (s : State) (ch : Nat) : CmpSample → List Int → List CmpSample
  | _, [] => []
  | x, v :: l => s.sampled ch x v :: s.samples ch (s.sampled ch x v) l

/-- STROBE: the oldest compare or capture of a channel that has not resolved meets the comparators with the voltages in µV that lie on the
pin at its samples; without a sample the outputs stand. One that the next cycle may still drop waits for that cycle (R129). Behind the
last cycle of a step the last outcome ends it. -/
def doStrobe (ch : Fin 1024) (volts : List Int) (s : State) : State :=
  let ch := ch.val
  let c := s.chan ch
  match c.strobes.find? fun (x : Strobe) => x.expect != .profile with
  | none => s
  | some x =>
    if !s.strobeFirm ch x then s else
    let was : CmpSample := ⟨c.hiAbove, c.loBelow⟩
    let l := if volts.isEmpty then [was] else s.samples ch was volts
    let now := l.getLastD was
    let s := (s.setChan ch { c with strobes := c.strobes.erase x, hiAbove := now.hiAbove, loBelow := now.loBelow }).syncCmp ch
    let s := if x.expect = .capture then s.captureDone ch x l else s.compareDone ch x l
    let s := (s.modTile (ch / 16) fun k => k.cycLess x.cyc).cycRecords (ch / 16) x.last
    if (s.tile (ch / 16)).closing then s.finish (ch / 16) (s.tile (ch / 16)).tail else s

def execStrobe (ch : Fin 1024) (volts : List Int) (s : State) : Host.Outcome State Fault Refusal := .next (doStrobe ch volts s)

/-! ## Stops (07_time_measurement.md R169 to R172) -/

/-- TDC_STOP: a comparator's output changes: the input crosses VOH rising, and lies above VOL, or crosses VOL falling, and lies below VOH (R151,
R172). The interpolator gives the coarse edge before it, numbered from epoch zero, and the code. The stop waits until no window that it may
lie in can still be dropped (R174). -/
def doTdcStop (ch : Fin 1024) (falling : Bool) (edge : Nat) (code : Fin 256) (s : State) : State :=
  let ch := ch.val
  let t := ch / 16
  let known := s.flag (if falling then R.CH_STATUS_KNOWN_LO ch else R.CH_STATUS_KNOWN_HI ch)
  let s := (s.modChan ch fun c => { c with hiAbove := !falling, loBelow := falling }).syncCmp ch
  if s.stepState t != stRunning || s.mode ch == 0 || !s.flag (R.TDC_CFG_EN ch) || !known then s
  else
    let u := s.stopInstant ch edge code + (s.tile t).wraps * (epochLength / stopUnit)
    (s.modTile t fun c => { c with stops := c.stops ++ [(ch, falling, u)] }).settleStops t

def execTdcStop (ch : Fin 1024) (falling : Bool) (x : StopLatch) (s : State) : Host.Outcome State Fault Refusal :=
  .next (doTdcStop ch falling x.edge x.code s)

end Sys2Proof.Machine
end

