-- ==== Sys2Proof/Machine/Acquire.lean ====
section
/-! DEFINITION. The readout of acquisition (08_acquisition.md R218 to R222; 07_time_measurement.md R184), the measurement converter
(06_pin_electronics.md R146, R158 to R161), and external triggers (08_acquisition.md R203; 21_electrical_package.md R477). -/

namespace Sys2Proof.Machine

/-- Whether a tile holds a bundle whose policy grants none of the exposures given (13_security.md R331, R332). -/
def State.hidden (s : State) (t : Nat) (bits : List Nat) : Bool :=
  match s.bundleOf t with
  | some n => !bits.any fun b => (s.rget (R.BUNDLE_POLICY n)).getLsbD b
  | none => false

/-! ## Readout -/

/-- The calibration epoch that a tile's step data carry: that of the tile's latest step (09_calibration.md R235). -/
def State.dataEpoch (s : State) (t : Nat) : Word := (s.tile t).epoch.getD (s.rget (R.TILE_CAL_EPOCH t))

/-- Whether the readout meets each bad record whole is a free bit; with none stored none is drawn (R213, log entry 16). -/
def State.badRead (s : State) (t : Nat) : Word × State := if (s.tile t).cap.bad.isEmpty then (0, s) else s.free

/-- CAPTURE_READ (R219, R222, R235). -/
def doCaptureRead (q : Req) (s : State) : State :=
  s.request 0x40 q fun s =>
    let t := q.n 0
    if 64 ≤ t ∨ q.n 1 = 0 ∨ 4096 < q.n 1 ∨ 2 ≤ q.n 2 then s.fail 0x40 q St.badParam
    else if s.tileFenced t then s.fail 0x40 q St.fenced
    else if s.hidden t [9, 10, 11, 12, 13] then s.fail 0x40 q St.isSealed
    else
      let u := s.ringU t
      let n := min (q.n 1) u
      let rd := s.fget (R.CAP_RD_PTR_VALUE t)
      let size := max 1 (s.ringN t)
      let (w, s) := s.badRead t
      let data := (List.range n).flatMap fun k => s.ringGet t ((rd + k) % size) (w.getLsbD 0)
      let s := if (q.p 2).getLsbD 0 then s
        else (s.fset (R.CAP_RD_PTR_VALUE t) ((rd + n) % size)).fset (R.CAP_USED_VALUE t) (u - n)
      s.reply 0x40 q St.ok [BitVec.ofNat 32 n, BitVec.ofNat 32 (s.ringU t), s.dataEpoch t] data

/-- The tiles with a channel that counts for a site. -/
def State.siteTiles (s : State) (site : Nat) : List Nat :=
  (List.range 64).filter fun t => (chansOf t).any fun ch => (s.sitesOf ch).getLsbD site

/-- FAIL_READ (R220, R222, R235). -/
def doFailRead (q : Req) (s : State) : State :=
  s.request 0x41 q fun s =>
    let site := q.n 0
    let kind := q.n 1
    if 256 ≤ site ∨ 4 ≤ kind ∨ (kind ≠ 0 ∧ (q.n 3 = 0 ∨ 4096 < q.n 3)) then s.fail 0x41 q St.badParam
    else
      let tiles := s.siteTiles site
      if tiles.any fun t => s.hidden t [8] then s.fail 0x41 q St.isSealed
      else if ((s.ownTiles tiles site).any fun t => inStep (s.stepState t)) || s.armedSites.contains site then s.fail 0x41 q St.busy
      else
        let epoch := (Store.get (fun _ => {}) s.rep site : FcSite).epoch.getD (s.dataEpoch (tiles.headD 0))
        if kind = 0 then s.reply 0x41 q St.ok [8, 8, epoch] ((s.repWords site).flatMap wordBytes)
        else
          let all := (Store.get (fun _ => {}) s.rep site : FcSite).entriesOf kind
          let l := (all.drop (q.n 2)).take (q.n 3)
          s.reply 0x41 q St.ok [BitVec.ofNat 32 l.length, BitVec.ofNat 32 all.length, epoch] (l.flatten.flatMap wordBytes)

/-- PROFILE_READ (R184). -/
def doProfileRead (q : Req) (s : State) : State :=
  s.request 0x42 q fun s =>
    let t := q.n 0
    let n := q.n 3
    if 64 ≤ t ∨ 32 ≤ q.n 1 ∨ 512 ≤ q.n 2 ∨ n = 0 ∨ 512 < n then s.fail 0x42 q St.badParam
    else if s.hidden t [14] then s.fail 0x42 q St.isSealed
    else
      let k := min n (512 - q.n 2)
      let off := ((q.n 1 % 16 * 2 + q.n 1 / 16) * 512 + q.n 2) * 4
      s.reply 0x42 q (if k = n then St.ok else St.part)
        [BitVec.ofNat 32 k, s.rget (R.PROF_STATUS t), s.rget (R.PROF_EPOCH t)] (s.mread 6 t off (4 * k))

/-- MEASURE waits for the next update of a channel (R221, R222). -/
def doMeasure (q : Req) (s : State) : State :=
  s.request 0x43 q fun s =>
    let ch := q.n 0
    if 1024 ≤ ch then s.fail 0x43 q St.badParam
    else if s.hidden (ch / 16) [13] then s.fail 0x43 q St.isSealed
    else if s.mode ch = 0 then s.fail 0x43 q St.badParam
    else { s with measures := s.measures ++ [q] }

/-- MEASURE_REPLY: every MEASURE that waited for the channel's update is answered with the value of that update (R221). -/
def doMeasureReply (ch : Fin 1024) (s : State) : State :=
  let l := s.measured.filter fun (m : Req × Word) => m.1.n 0 == ch.val
  l.foldl (fun s (m : Req × Word) => if s.hidden (ch.val / 16) [13] then s.fail 0x43 m.1 St.isSealed else s.reply 0x43 m.1 St.ok [m.2])
    { s with measured := s.measured.filter fun (m : Req × Word) => m.1.n 0 != ch.val }

def execMeasureReply (ch : Fin 1024) (s : State) : Host.Outcome State Fault Refusal := .next (doMeasureReply ch s)

/-! ## The measurement converter -/

/-- Whether a measured node agrees with what its code and the epoch predict: within 20 mV for a voltage, `code` in units of 50 µV, and
within 2 % of full scale for a current, `code` in units of FS / 100,000 (R146, R161). The corrections make a node stand at the value of its
code; node 11, the force output of the PMU, stands at that of PMU_SET. -/
def State.agrees (s : State) (ch node : Nat) (code : Int) : Bool :=
  let k := min node 10
  let v := s.levelOf ch k (Store.get (fun _ => 0) (s.chan ch).applied k)
  if k = 6 ∨ k = 7 then decide ((code * 65536 - v * 100000).natAbs ≤ 2000 * 65536)
  else if k = 10 ∧ s.fget (R.PMU_CFG_FORCE ch) = 2 then decide ((code * 32768 - v * 100000).natAbs ≤ 2000 * 32768)
  else decide ((code * 50 * 65536 - v * 7000000).natAbs ≤ 20000 * 65536)

/-- Whether a check round takes a level node (R146): nodes 0 to 10 are the levels of Table 6.2, node 11 the force output of the PMU. -/
def State.inRound (s : State) (ch node : Nat) : Bool :=
  let c := s.chan ch
  s.power (ch / 16) != 3 && if node = 11 then
      s.mode ch == 2 && !s.flag (R.CH_STATUS_CLAMP ch) && s.fget (R.PMU_CFG_FORCE ch) != 0 && !c.settling.contains 10
    else !c.settling.contains node

/-- The cross-check of a level node (R146); an injected disagreement may be held (15_safety_faults.md R381). -/
def State.levelCheck (s : State) (ch node : Nat) (code : Int) : State :=
  let c := s.chan ch
  let key := (0x60000, 2, ch)
  if s.injHeld.contains key then s.disagree ch node true
  else if s.agrees ch node code then
    let x := Store.put (fun _ => 0) c.xchk node 0
    let s := s.setChan ch { c with xchk := x }
    if x.any fun e => decide (2 ≤ e.2) then s else { s with held := s.held.filter (· != key) }
  else s.disagree ch node

/-- Whether a user conversion can serve a channel (R160): every one goes to the channel of the quad with DEDIC = 1, if there is one, else to
those with MEN = 1. -/
def State.converts (s : State) (ch : Nat) : Bool :=
  let quad := (List.range 4).map (ch / 4 * 4 + ·)
  s.mode ch != 0 && decide (s.power (ch / 16) < 2) &&
    if quad.any fun k => s.flag (R.PMU_CFG_DEDIC k) then s.flag (R.PMU_CFG_DEDIC ch) else s.flag (R.PMU_CFG_MEN ch)

/-- A waveform sample: PMU_MEAS, the WAVE record, CROSS and the mask (R160, R161, R202). DESIGN CHOICE: WAVE.MSRC copies PMU_CFG.MSRC, in FUNC mode
too, where voltage is measured whatever MSRC says (log entry 77). -/
def State.waveSample (s : State) (ch : Nat) (last : Nat) : State :=
  let t := ch / 16
  let lane := ch % 16
  let c := s.chan ch
  let v := roundDiv c.pmuSum (max 1 c.pmuN)
  let time := c.pmuTimes / max 1 c.pmuN
  let s := s.setChan ch { c with pmuSum := 0, pmuN := 0, pmuTimes := 0, pmuOvr := false, pmuClamp := false, pmuRanging := false }
  let flags := 2 ^ 31 + 2 ^ 30 * c.pmuOvr.toNat + 2 ^ 29 * c.pmuRanging.toNat + 2 ^ 28 * c.pmuClamp.toNat
  let meas := BitVec.ofNat 32 (flags + unsigned 18 v)
  let due := s.measures.filter fun (m : Req) => m.n 0 == ch
  let s : State := { s with measures := s.measures.filter fun (m : Req) => m.n 0 != ch
                            measured := s.measured ++ due.map fun (m : Req) => (m, meas) }
  let s := s.rset (R.PMU_MEAS ch) meas
  if s.stepState t != stRunning || decide ((time : Int) * unitFs < (s.tile t).startAt) then s
  else
    let w0 := 256 * lane + 4096 * s.fget (R.PMU_CFG_MSRC ch) + 8192 * c.pmuOvr.toNat + 16384 * c.pmuClamp.toNat +
      32768 * c.pmuRanging.toNat + 65536 * s.fget (R.PMU_CFG_RANGE ch)
    let s := if (s.fget (R.WAVE_LANES_LANES t)).testBit lane then
        s.modTile t fun x => { x with cap := { x.cap with waves :=
          x.cap.waves ++ [{ typ := 5, time := time, w0 := BitVec.ofNat 32 w0, w2 := BitVec.ofNat 32 (unsigned 18 v) }] } }
      else s
    (s.maskSample t lane v time (last * unitFs)).crossSample t lane v time

/-- The key instant before which no lane of a tile can still have a WAVE record, behind a conversion at `now`: an average that is running cannot
come to lie earlier than all its other conversions at `now` would make it (R197, R202). -/
def State.waveBound (s : State) (t now : Nat) : Nat :=
  (List.range 16).foldl (fun m lane =>
    let ch := t * 16 + lane
    let c := s.chan ch
    let n := 2 ^ s.fget (R.PMU_CFG_AVG ch)
    if (s.fget (R.WAVE_LANES_LANES t)).testBit lane && s.converts ch && c.pmuN != 0 then
      min m ((c.pmuTimes + (n - c.pmuN) * now) / n)
    else m) now

def State.quad (s : State) (q : Nat) : Quad := Store.get (fun _ => {}) s.quads q

/-- The converter of a channel's quad behind a conversion that serves the channel, or checks one of its nodes, at a system time; none where it
does not: one conversion in each 500 ns, every twentieth a check, user conversions in lane order, checks in the order of lanes and nodes
(R146, R160). DESIGN CHOICE: the intervals of 500 ns count from count 0, the last of each twenty is the check's, and that order is the fixed
order of the nodes (log entry 78). -/
def State.converter (s : State) (ch instant : Nat) (check : Option Nat) : Option Quad :=
  let q := s.quad (ch / 4)
  let n := instant / 128000
  let at_ (j : Nat) : Nat := ch / 4 * 4 + j
  if q.slot.any (fun m => decide (n ≤ m)) || (n % 20 == 19) != check.isSome then none
  else match check with
    | some node =>
      let next := ((List.range 48).map fun d => (q.node + 1 + d) % 48).find? fun j => s.inRound (at_ (j / 12)) (j % 12)
      if next = some (ch % 4 * 12 + node) then some { q with slot := some n, node := ch % 4 * 12 + node } else none
    | none =>
      let next := ((List.range 4).map fun d => (q.lane + 1 + d) % 4).find? fun j => s.converts (at_ j)
      if next = some (ch % 4) then some { q with slot := some n, lane := ch % 4 } else none

/-- PMU_CONVERSION: a conversion of `code` at a system time, or the check of a level node. `clamped` says whether a limit or clamp acts on the
channel where the conversion itself does not show it; CH_STATUS.CLAMP follows (R158). -/
def doPmuConversion (ch : Fin 1024) (code : Int) (clamped : Bool) (instant : Nat) (check : Option (Fin 12)) (s : State) : State :=
  let ch := ch.val
  match s.converter ch instant (check.map (·.val)) with
  | none => s
  | some q =>
    let s := { s with quads := Store.put (fun _ => {}) s.quads (ch / 4) q }
    let clamped := if check.isSome then clamped else (s.limited ch code).getD clamped
    let clamped := clamped && s.mode ch == 2 && s.fget (R.PMU_CFG_FORCE ch) != 0
    let s := if s.mode ch = 2 ∧ s.power (ch / 16) < 2 then s.setFlag (R.CH_STATUS_CLAMP ch) clamped else s
    match check with
    | some node => s.levelCheck ch node.val code
    | none =>
      let t := ch / 16
      let at_ := (s.tileTime t (instant * unitFs) / unitFs).toNat
      let v := max (-131071) (min 131071 code)
      let s := s.modChan ch fun c =>
        { c with pmuSum := c.pmuSum + v, pmuN := c.pmuN + 1, pmuTimes := c.pmuTimes + at_, pmuOvr := c.pmuOvr || v != code
                 pmuClamp := c.pmuClamp || clamped, pmuRanging := c.pmuRanging || s.flag (R.CH_STATUS_RANGING ch) }
      let s := if 2 ^ s.fget (R.PMU_CFG_AVG ch) ≤ (s.chan ch).pmuN then s.waveSample ch at_ else s
      s.putWaves t (s.waveBound t at_) (at_ * unitFs)

def execPmuConversion (ch : Fin 1024) (code : Int) (clamped : Bool) (instant : Nat) (check : Option (Fin 12)) (s : State) :
    Host.Outcome State Fault Refusal := .next (doPmuConversion ch code clamped instant check s)

/-- MASKV_FLAG: the mask-violation flag is registered (R210). -/
def doMaskvFlag (t : Fin 64) (s : State) : State :=
  match (s.tile t).cap.maskDue with
  | some i => (s.modTile t fun c => { c with cap := { c.cap with maskDue := none } }).addCond t .maskv i
  | none => s

def execMaskvFlag (t : Fin 64) (s : State) : Host.Outcome State Fault Refusal := .next (doMaskvFlag t s)

/-! ## Trigger sources -/

/-- TRIG_TIME_REACHED (Table 8.5). -/
def doTrigTimeReached (t : Fin 64) (s : State) : State :=
  if s.fget (R.TRIG_CFG_SRC t) = 5 then s.trigEvent t (s.pair (R.TRIG_TIME_LO t) (R.TRIG_TIME_HI t) * unitFs) else s

def execTrigTimeReached (t : Fin 64) (s : State) : Host.Outcome State Fault Refusal := .next (doTrigTimeReached t s)

/-- TRIG_IN_EDGE: a rising edge that arrives at `arrival` (units of 1/256 ns) is registered in every tile at the first tile clock edge
20 ns or more after it (R477). -/
def doTrigInEdge (n : Fin 4) (arrival : Nat) (s : State) : State :=
  let close := match Store.get (fun _ => none) s.trigIn n.val with
    | some a => decide (arrival < a + 1280)
    | none => false
  let s := { s with trigIn := Store.put (fun _ => none) s.trigIn n.val (some arrival) }
  if close then s
  else
    let i : Int := ((arrival + 5120 + 319) / 320 * 320 : Nat) * unitFs
    (List.range 64).foldl (fun s t =>
      if 2 ≤ s.power t then s
      else s.registerEvent t (.trig n.val) (s.tileTime t i) (s.fget (R.TRIG_CFG_SRC t) == 3 && s.fget (R.TRIG_CFG_ARG t) % 4 == n.val)) s

def execTrigInEdge (n : Fin 4) (arrival : Nat) (s : State) : Host.Outcome State Fault Refusal := .next (doTrigInEdge n arrival s)

end Sys2Proof.Machine
end

