-- ==== Sys2Proof/Machine/PinRows.lean ====
section
/-! DEFINITION. What the state of a unit says to a register write (10_uhleus_protocol.md R261; 13_security.md R331; 22_register_map.md
R492), and the commands of pins, levels, the PMU and sentinels (06_pin_electronics.md R135 to R165; 15_safety_faults.md R362 to R367). -/

namespace Sys2Proof.Machine

/-! ## Register writes and the state of their unit -/

/-- A write to a sealed word: a register of Table 13.9 of a tile that holds a bundle, or a SHARE_MASK word that a bundle wrote (R331). -/
def State.sealedWrite (s : State) (a : Nat) : Bool :=
  match regAt a with
  | some (.tile, t, _, d) => d.sealW && (s.bundleOf t).isSome
  | some (.chan, ch, _, d) => d.sealW && (s.bundleOf (ch / 16)).isSome
  | some (.chip, _, _, d) => d.shSeal &&
      (List.range 4).any fun n => s.flag (R.BUNDLE_CTL_VALID n) && (Store.get (fun _ => {}) s.bundles n : Bundle).shareWords.contains a
  | _ => false

/-- FENCED or BUSY of a register of a tile or of one of its channels (R492). -/
def State.tileRule (s : State) (t : Nat) (idle : Bool) : Option (BitVec 8) :=
  if s.tileFenced t then some St.fenced
  else if s.power t == 3 || (idle && !s.idle t) then some St.busy
  else none

/-- SEALED, FENCED and BUSY of a register write (R261, R331, R492). -/
def State.unitRule (s : State) (a : Nat) : Option (BitVec 8) :=
  if s.sealedWrite a then some St.isSealed
  else match regAt a with
    | some (.tile, t, _, d) => s.tileRule t d.idle
    | some (.chan, ch, _, d) => s.tileRule (ch / 16) d.idle
    | some (.core, c, _, _) => if s.flag (coreFenceFld c) then some St.fenced else none
    | some (_, _, _, d) => if d.allIdle && !(s.tilesIn (· != stIdle)).isEmpty then some St.busy else none
    | none => none

/-- A register write of its own: refused with a status, or carried out. -/
def State.writeRow (s : State) (refused : Option (BitVec 8)) (act : State → State) : State :=
  match refused with
  | some st => s.answered st
  | none => (act s).answered St.ok

/-! ## Channels (R135 to R138, R152 to R155) -/

/-- The status that refuses a write to CH_MODE, in the order of R135. -/
def State.chModeRule (s : State) (ch : Nat) (v : Word) : Option (BitVec 8) :=
  if s.sealedWrite (R.CH_MODE ch) then some St.isSealed
  else if s.chanFenced ch then some St.fenced
  else (s.tileRule (ch / 16) true).or (if field v 1 0 = 3 then some St.badParam else none)

def doChModeWrite (ch : Fin 1024) (v : Word) (s : State) : State := s.writeRow (s.chModeRule ch v) fun s => s.chMode ch v

def execChModeWrite (ch : Fin 1024) (v : Word) (s : State) : Host.Outcome State Fault Refusal := .next (doChModeWrite ch v s)

/-- An over-current or over-voltage that an INJECT holds acts again once the gate of its channel has closed (15_safety_faults.md R363, R381). -/
def State.heldOverstress (s : State) (ch : Nat) : State :=
  if !s.flag (R.CH_STATUS_GATE ch) || s.mode ch = 0 then s
  else if s.injHeld.contains (0x60000, 0, ch) then (s.pinReaction (R.CH_FAULT_OVER_I ch) 1 0 ch true).boundary (ch / 16)
  else if s.injHeld.contains (0x60000, 1, ch) then (s.pinReaction (R.CH_FAULT_OVER_V ch) 1 1 ch true).boundary (ch / 16)
  else s

/-- GATE_CLOSED (R137). -/
def doGateClosed (ch : Fin 1024) (s : State) : State := (s.gateDone ch).heldOverstress ch

def execGateClosed (ch : Fin 1024) (s : State) : Host.Outcome State Fault Refusal := .next (doGateClosed ch s)

def execGateOpened (ch : Fin 1024) (s : State) : Host.Outcome State Fault Refusal := .next (s.gateOpen ch)

/-- FORCED_RESET_END: 1 µs has passed with `volt` µV on the pin (R154, R162). -/
def doForcedResetEnd (u : CmpUnit) (volt : Int) (s : State) : State :=
  match u with
  | .chan ch => if (s.chan ch).forcing then s.forcedEnd ch (some volt) else s
  | .snt n =>
    if (s.snt n).forcing then
      let k := !(s.snt n).clearDeferred
      let (side, s) := s.resolve (s.sntCodes n).1 (s.sntCodes n).2 volt
      (s.modSnt n fun c =>
        { c with forcing := false, clearDeferred := false, knownHi := k, knownLo := k, hiAbove := side.hiAbove
                 loBelow := side.loBelow }.follow).sntSync n
    else s

def execForcedResetEnd (u : CmpUnit) (volt : Int) (s : State) : Host.Outcome State Fault Refusal := .next (doForcedResetEnd u volt s)

/-- COMPARATOR_KNOWN: the input has been `volt` µV for 20 ns, which makes a comparator KNOWN if it lies outside its band (R151, R152). -/
def doComparatorKnown (u : CmpUnit) (low : Bool) (volt : Int) (s : State) : State :=
  match u with
  | .chan ch =>
    match outsideBand (s.threshold ch (if low then 4 else 3)) (s.fget (R.CH_MODE_HYST ch)) volt with
    | none => s
    | some above =>
    if !s.cmpOn ch || (s.chan ch).forcing then s
    else
      let s := s.modChan ch fun c => if low then { c with loBelow := !above } else { c with hiAbove := above }
      s.setKnown ch (s.flag (R.CH_STATUS_KNOWN_HI ch) || !low) (s.flag (R.CH_STATUS_KNOWN_LO ch) || low)
  | .snt n =>
    match outsideBand (if low then (s.sntCodes n).2 else (s.sntCodes n).1) (s.fget (R.SNT_CFG_HYST n)) volt with
    | none => s
    | some above =>
    if !s.flag (R.SNT_CFG_EN n) || (s.snt n).forcing then s
    else (s.modSnt n fun c =>
      (if low then { c with loBelow := !above, knownLo := true } else { c with hiAbove := above, knownHi := true } : SntCtx).follow).sntSync n

def execComparatorKnown (u : CmpUnit) (low : Bool) (volt : Int) (s : State) : Host.Outcome State Fault Refusal :=
  .next (doComparatorKnown u low volt s)

/-- 200 ns, 1 ms and 10 ms in units of 2^-16 ps (R155). -/
def slotTime : Int := 13107200000
def dueTime : Int := 65536000000000
def lateTime : Int := 655360000000000

/-- Whether a comparator check of a channel may begin at an instant: its comparators are enabled and due, no stop window is open and, while
the tile is RUNNING, no strobe lies within the 200 ns (R155, R188). -/
def State.checkSlot (s : State) (ch : Nat) (start : Int) : Bool :=
  let c := s.chan ch
  let i := s.tileTime (ch / 16) start
  s.cmpOn ch && decide (c.due ≤ start) && c.wins.all (fun w => decide (i + slotTime ≤ w.opens ∨ w.closes ≤ i)) &&
    (s.stepState (ch / 16) != stRunning ||
      c.strobes.all fun (x : Strobe) => x.instants.all fun k => decide (k.2 < i ∨ i + slotTime ≤ k.2))

/-- CMP_SELF_CHECK: a check of the channel's comparators that began at the system time `start` completes (R155, R366). -/
def doCmpSelfCheck (ch : Fin 1024) (ok : Bool) (start : Nat) (s : State) : State :=
  let i : Int := start * unitFs
  if !s.checkSlot ch i then s
  else
    let s := s.modChan ch fun c => { c with due := i + slotTime + dueTime, checkedAt := i + slotTime, ran := 0 }
    let held := s.injHeld.contains (0x60000, 5, ch.val)
    if ok && !held then s else (s.checkBad (R.CH_FAULT_CHK_FAIL ch) ch true (ok && held)).boundary (ch / 16)

def execCmpSelfCheck (slot : CheckSlot) (ok : Bool) (s : State) : Host.Outcome State Fault Refusal :=
  .next (doCmpSelfCheck slot.chan ok slot.clock s)

/-- The RUNNING time of a channel's tile since the channel's last completed check, at an instant of its step (R155). -/
def State.checkAge (s : State) (ch : Nat) (i : Int) : Int :=
  (s.chan ch).ran + max 0 (i - max (s.tile (ch / 16)).startAt (s.tileTime (ch / 16) (s.chan ch).checkedAt))

/-- CHK_LATE: at the system time `instant` the tile has been RUNNING for 10 ms without a completed check (R155, R379). -/
def doChkLate (ch : Fin 1024) (instant : Nat) (s : State) : State :=
  if s.cmpOn ch && s.stepState (ch / 16) == stRunning && decide (lateTime ≤ s.checkAge ch (s.tileTime (ch / 16) (instant * unitFs))) then
    s.checkBad (R.CH_FAULT_CHK_LATE ch) ch false
  else s

def execChkLate (slot : CheckSlot) (s : State) : Host.Outcome State Fault Refusal := .next (doChkLate slot.chan slot.clock s)

/-- PIN_OVERSTRESS: OVER_I or OVER_V in mode FUNC or PMU (R363). -/
def doPinOverstress (ch : Fin 1024) (overVoltage : Bool) (s : State) : State :=
  if s.mode ch = 0 then s
  else if overVoltage then (s.pinReaction (R.CH_FAULT_OVER_V ch) 1 1 ch).boundary (ch / 16)
  else (s.pinReaction (R.CH_FAULT_OVER_I ch) 1 0 ch).boundary (ch / 16)

def execPinOverstress (ch : Fin 1024) (overVoltage : Bool) (s : State) : Host.Outcome State Fault Refusal :=
  .next (doPinOverstress ch overVoltage s)

/-! ## Levels (R142 to R145) -/

def doLvlWrite (ch : Fin 1024) (k : Fin 11) (code : BitVec 16) (s : State) : State :=
  s.writeRow (s.unitRule (R.LVL ch k)) fun s => s.levelCode ch k code

def execLvlWrite (ch : Fin 1024) (k : Fin 11) (code : BitVec 16) (s : State) : Host.Outcome State Fault Refusal :=
  .next (doLvlWrite ch k code s)

/-- DEGLITCH_HOLD_END (R143). -/
def doDeglitchHoldEnd (ch : Fin 1024) (k : Fin 11) (s : State) : State :=
  s.modChan ch fun c => { c with holding := c.holding.filter (·.1 != k.val) }

def execDeglitchHoldEnd (ch : Fin 1024) (k : Fin 11) (s : State) : Host.Outcome State Fault Refusal := .next (doDeglitchHoldEnd ch k s)

/-- LEVEL_SETTLED: 60 µs have passed since a level's latest application (R143). -/
def doLevelSettled (ch : Fin 1024) (k : Fin 11) (s : State) : State :=
  let s := s.modChan ch fun c => { c with holding := c.holding.filter (·.1 != k.val), settling := c.settling.filter (· != k.val) }
  (s.setFlag (R.CH_STATUS_LVL_BUSY ch) (!(s.chan ch).settling.isEmpty)).armForce

def execLevelSettled (ch : Fin 1024) (k : Fin 11) (s : State) : Host.Outcome State Fault Refusal := .next (doLevelSettled ch k s)

/-- The channels whose converters have power: every tile but those in OFF (Table 6.15). -/
def State.poweredChans (s : State) : List Nat := (List.range 1024).filter fun ch => s.power (ch / 16) != 3

/-- LVL_CLR_ASSERT (R145). -/
def doLvlClrAssert (s : State) : State :=
  if s.lvlClr then s
  else
    let s := ({ s with lvlClr := true }.setFlag R.LVL_CLR_STATUS_ACTIVE true).setFlag R.LVL_CLR_STATUS_SEEN true
    let s := s.poweredChans.foldl (fun s ch => (List.range 11).foldl (fun s k => s.applySafe ch k) s) s
    s.endSteps (List.range 64) St.hwFault 10

def execLvlClrAssert (s : State) : Host.Outcome State Fault Refusal := .next (doLvlClrAssert s)

/-- LVL_CLR_DEASSERT (R145). -/
def doLvlClrDeassert (s : State) : State :=
  if !s.lvlClr then s
  else
    let s := { s with lvlClr := false }.setFlag R.LVL_CLR_STATUS_ACTIVE false
    s.poweredChans.foldl (fun s ch =>
      (List.range 11).foldl (fun s k => s.applyLevel ch k ((s.rget (R.LVL ch k)).setWidth 16)) s) s

def execLvlClrDeassert (s : State) : Host.Outcome State Fault Refusal := .next (doLvlClrDeassert s)

/-! ## The PMU (R157 to R159) -/

/-- A value that PMU_CFG refuses. -/
def State.pmuCfgBad (s : State) (ch : Nat) (v : Word) : Bool :=
  let other := (List.range 4).any fun k => ch / 4 * 4 + k != ch && s.flag (R.PMU_CFG_DEDIC (ch / 4 * 4 + k))
  decide (5 ≤ field v 2 0) || field v 5 4 == 3 || decide (8 < field v 11 8) || (v.getLsbD 7 && other)

/-- The status that refuses a write to PMU_CFG. -/
def State.pmuCfgRule (s : State) (ch : Nat) (v : Word) : Option (BitVec 8) :=
  (s.unitRule (R.PMU_CFG ch)).or (if s.pmuCfgBad ch v then some St.badParam else none)

def doPmuCfgWrite (ch : Fin 1024) (v : Word) (measured : BitVec 16) (s : State) : State :=
  s.writeRow (s.pmuCfgRule ch v) fun s => s.pmuCfg ch v measured

def execPmuCfgWrite (ch : Fin 1024) (v : Word) (measured : BitVec 16) (s : State) : Host.Outcome State Fault Refusal :=
  .next (doPmuCfgWrite ch v measured s)

/-- RANGING_END: 20 µs after a change of range or force (R159). -/
def execRangingEnd (ch : Fin 1024) (s : State) : Host.Outcome State Fault Refusal := .next (s.setFlag (R.CH_STATUS_RANGING ch) false)

/-! ## Sentinels (R162 to R164, R367, R380) -/

/-- The status that refuses a write to SNT_CFG. -/
def State.sntCfgRule (s : State) (n : Nat) (v : Word) : Option (BitVec 8) :=
  if s.flag (R.SNT_CFG_EN n) && (v &&& 0xFF0) != (s.rget (R.SNT_CFG n) &&& 0xFF0) then some St.busy
  else if v.getLsbD 0 ∧ voltOf (s.fget (R.SNT_WIN_VHI n)) < voltOf (s.fget (R.SNT_WIN_VLO n)) then some St.badParam
  else none

def doSntCfgWrite (n : Fin 64) (v : Word) (s : State) : State := s.writeRow (s.sntCfgRule n v) fun s => s.sntCfg n v

def execSntCfgWrite (n : Fin 64) (v : Word) (s : State) : Host.Outcome State Fault Refusal := .next (doSntCfgWrite n v s)

/-- A sentinel's violation acts (R163, R367). -/
def State.sntViolate (s : State) (n : Nat) (inj : Bool := false) : State :=
  let s := s.setFlag (bitFld (R.SNT_VIOL 0) n) true
  let s := if inj then s
    else
      { s.modSnt n fun c => { c with viol := true } with
        held := if s.held.contains (0x60000, 7, n) then s.held else s.held ++ [(0x60000, 7, n)] }
  ((s.dseDrop (s.sntMap n)).endSteps (List.range 64) St.hwFault 13).safety 5 n 7 inj

/-- SENTINEL_VIOLATION: an enabled, KNOWN sentinel's input has lain outside the window for the debounce. -/
def doSentinelViolation (n : Fin 64) (s : State) : State :=
  let c := s.snt n
  if s.flag (R.SNT_CFG_EN n) && c.knownHi && c.knownLo && c.outside && !c.viol then s.sntViolate n else s

def execSentinelViolation (n : Fin 64) (s : State) : Host.Outcome State Fault Refusal := .next (doSentinelViolation n s)

/-- SENTINEL_WINDOW_CROSSING: the input becomes `volt` µV; its comparators follow with their hysteresis, and the input enters or leaves the
window, or stays (R151, R162, R163). -/
def doSentinelWindowCrossing (n : Fin 64) (volt : Int) (s : State) : State :=
  let f := s.fget (R.SNT_CFG_HYST n)
  let s := s.modSnt n fun c =>
    { c with hiAbove := sideAt (s.sntCodes n).1 f volt c.hiAbove, loBelow := !sideAt (s.sntCodes n).2 f volt (!c.loBelow) }.follow
  let s := s.modSnt n fun c => { c with viol := c.viol && c.outside }
  let s := if !(s.snt n).outside then { s with held := s.held.filter (· != (0x60000, 7, n.val)) } else s
  s.sntSync n

def execSentinelWindowCrossing (n : Fin 64) (volt : Int) (s : State) : Host.Outcome State Fault Refusal :=
  .next (doSentinelWindowCrossing n volt s)

/-- The event that reports a retest (Table 15.4). -/
def State.retestEvent (s : State) (kind unit : Nat) (failed : Bool) : State :=
  s.chipEvent 0x104 [BitVec.ofNat 32 kind, BitVec.ofNat 32 unit, BitVec.ofNat 32 failed.toNat]

/-- SENTINEL_SELF_CHECK: a failed check fences the sentinel; one that passes lifts its fence if an unfence was requested. -/
def doSentinelSelfCheck (n : Fin 64) (ok : Bool) (s : State) : State :=
  let n := n.val
  if s.unfenceReq.contains (3, n) then
    let s := s.retestEvent 3 n (!ok)
    if ok then s.unfence 3 n
    else ({ s with unfenceReq := s.unfenceReq.filter (· != (3, n)) }.setFlag (bitFld (R.FENCE_SNT 0) n) true)
  else if ok || s.sntFenced n then s
  else ((s.fenceSnt n 4).faultRaise 0x60000 8).fenceDone 3 n

def execSentinelSelfCheck (n : Fin 64) (ok : Bool) (s : State) : Host.Outcome State Fault Refusal := .next (doSentinelSelfCheck n ok s)

end Sys2Proof.Machine
end

