-- ==== Sys2Proof/Machine/Fencing.lean ====
section
/-! DEFINITION. Fencing by command, retests of channels, and the release of SF3 (15_safety_faults.md R365, R377 to R380). -/

namespace Sys2Proof.Machine

/-- The number of units of a kind (R378). -/
def kindRange (kind : Nat) : Nat := match kind with | 0 => 1024 | 1 => 64 | 2 => 96 | _ => 64

/-- The fence-mask bit of a channel, tile or sentinel. -/
def fenceBit (kind unit : Nat) : Fld := bitFld (match kind with | 0 => R.FENCE_CH 0 | 1 => R.FENCE_TILE 0 | _ => R.FENCE_SNT 0) unit

/-- A fence of a unit that is not fenced is requested; it is applied at the time Table 15.5 gives. -/
def State.askFence (s : State) (kind unit : Nat) (op : Option Nat) : State :=
  let f : FenceReq := { kind := kind, unit := unit, op := op }
  let s := { s with fenceReq := s.fenceReq ++ [f] }.setFlag (fenceBit kind unit) true
  match kind with
  | 0 => s.boundary (unit / 16)
  | 1 => s.boundary unit
  | _ => s.fenceApply 3 unit 1

/-- Whether a link has no good lane beside one: of the lanes that its last training has found good, or of those not fenced where it is not
trained (12_serial_links.md R299). -/
def State.lastGood (s : State) (l j : Nat) : Bool :=
  let lanes := if s.trained l then (s.link l).good else List.range 8
  lanes.all fun k => k == j || (s.fencedLanes l).testBit k

/-- FENCE of a lane (12_serial_links.md R299): one that leaves no good lane completes BUSY; on a link that is ACTIVE or in RETRAIN it
completes with the retrain. -/
def State.askLane (s : State) (q : Req) (unit : Nat) : State :=
  let l := unit / 8
  let j := unit % 8
  let o := s.ids
  let st := s.linkState l
  if (s.fencedLanes l).testBit j then
    match (s.start 0x71 q).splitOf o with
    | some x => (s.start 0x71 q).complete x St.ok
    | none => s
  else if s.lastGood l j then s.fail 0x71 q St.busy
  else
    let s := (s.start 0x71 q).fenceLane l j 4
    if st = lkActive ∨ st = lkRetrain then
      (s.modLink l fun c => { c with pendFence := c.pendFence ++ [o] }).enterRetrain l
    else match s.splitOf o with
      | some x => s.complete x St.ok
      | none => s

/-- FENCE (R378). -/
def doFence (q : Req) (s : State) : State :=
  s.request 0x71 q fun s =>
    let kind := q.n 0
    let unit := q.n 1
    let o := s.ids
    if 4 ≤ kind ∨ kindRange kind ≤ unit then s.fail 0x71 q St.badParam
    else if 256 ≤ s.splits.length then s.fail 0x71 q St.busy
    else if kind = 2 then s.askLane q unit
    else
      let s := s.start 0x71 q
      if s.unitFenced kind unit then
        match s.splitOf o with
        | some x => s.complete x St.ok
        | none => s
      else s.askFence kind unit (some o)

/-! ## Fence-mask words (R380) -/

/-- The kind, first unit and address of a fence-mask word. -/
def fenceWord (w : FenceWord) : Nat × Nat × Nat :=
  match w with
  | .ch k => (0, 32 * k.val, R.FENCE_CH k.val)
  | .tile k => (1, 32 * k.val, R.FENCE_TILE k.val)
  | .snt k => (3, 32 * k.val, R.FENCE_SNT k.val)

/-- A bit of a fence-mask word is written 0: an unfence of a fenced unit is requested, a request of a mask write is withdrawn. -/
def State.clearFence (s : State) (kind unit : Nat) : State :=
  if s.unitFenced kind unit then
    let s := if s.unfenceReq.contains (kind, unit) then s else { s with unfenceReq := s.unfenceReq ++ [(kind, unit)] }
    match kind with
    | 0 => s.boundary (unit / 16)
    | 1 => s.boundary unit
    | _ => s
  else
    let s := { s with fenceReq := s.fenceReq.filter fun (f : FenceReq) =>
      !(f.kind == kind && f.unit == unit && f.op.isNone && f.cause == 1) }
    s.setFlag (fenceBit kind unit) (s.fenceReq.any fun (f : FenceReq) => f.kind == kind && f.unit == unit)

/-- A fence-mask word takes a value: bits that rise request fences, bits that fall request unfences or withdraw. -/
def State.fenceMask (s : State) (w : FenceWord) (v : Word) : State :=
  let (kind, base, a) := fenceWord w
  let old := s.rget a
  (List.range 32).foldl (fun s b =>
    if v.getLsbD b == old.getLsbD b then s
    else if v.getLsbD b then s.askFence kind (base + b) none
    else s.clearFence kind (base + b)) s

/-- FENCE_MASK_WRITE. -/
def doFenceMaskWrite (w : FenceWord) (v : Word) (s : State) : State := (s.fenceMask w v).answered St.ok

def execFenceMaskWrite (w : FenceWord) (v : Word) (s : State) : Host.Outcome State Fault Refusal := .next (doFenceMaskWrite w v s)

/-! ## Retests of channels (R379, R380, R383) -/

/-- Whether an injected condition of a channel is held (R381). -/
def State.chanInjected (s : State) (ch : Nat) : Bool := s.injHeld.any fun h => h.1 == 0x60000 && h.2.2 == ch && decide (h.2.1 ≤ 5)

/-- A retest that fails fences the channel with cause 2, or 5 where an injected fault caused it; a fence with cause 5 becomes real. -/
def State.retestFailed (s : State) (ch : Nat) : State :=
  let s := { s with unfenceReq := s.unfenceReq.filter (· != (0, ch)) }
  if !s.chanFenced ch then s.fenceChan ch (if (s.chan ch).inj then 5 else 2)
  else
    let s := s.setFlag (fenceBit 0 ch) true
    if s.injFence.contains (0, ch) && !s.chanInjected ch then s.fenceNote 0 ch 2 else s

/-- CHANNEL_RETEST_DONE. -/
def doChannelRetestDone (ch : Fin 1024) (passed : Bool) (s : State) : State :=
  let ch := ch.val
  if (s.chan ch).retest ≠ 2 then s
  else
    let s := (s.modChan ch fun c => { c with retest := 0 }).retestEvent 0 ch (!passed)
    let s := if !passed then s.retestFailed ch else if s.unfenceReq.contains (0, ch) then s.unfence 0 ch else s
    let s := s.modChan ch fun c => { c with inj := false }
    s.boundary (ch / 16)

def execChannelRetestDone (ch : Fin 1024) (passed : Bool) (s : State) : Host.Outcome State Fault Refusal :=
  .next (doChannelRetestDone ch passed s)

/-! ## SF3 (R365) -/

/-- SF3_RELEASE: the front ends power up again once every sensor reads below 100 °C, an injected excess that is held
among them, and SF_STATUS.SF3 is clear. -/
def doSf3Release (s : State) : State :=
  if (List.range 152).all (fun n => decide (signed 16 (s.fget (R.THS_READ_TEMP n)) < 800)) && !(s.rget R.SF_STATUS).getLsbD 2 &&
      !s.injHeld.contains (0x60000, 3, 0) then
    s.setFlag R.SF_STATUS_FE_OFF false
  else s

def execSf3Release (s : State) : Host.Outcome State Fault Refusal := .next (doSf3Release s)

end Sys2Proof.Machine
end

