-- ==== Sys2Proof/Machine/Repair.lean ====
section
/-! DEFINITION. Self-repair: core faults and retests, calving, migration, spare cores and the repair log (16_self_repair.md). -/

namespace Sys2Proof.Machine

def coreBase (c : Nat) : Nat := 0x900000 + c * 0x1000
def State.coreFenced (s : State) (c : Nat) : Bool := s.flag (coreFenceFld c)

/-! ## Permanent faults (R386, R388, R389) -/

/-- MIGRATING: a migration is running. -/
def State.syncMigrating (s : State) : State :=
  s.setFlag R.SR_STATUS_MIGRATING (s.tiles.any fun e => (e.2.calv.map (·.moving)).getD false)

/-- The target of a calving fails: it is fenced, and the next spare core is reserved in its place. With none left a permanent
fault fences the tile; a calving of CALVE alone is given up. DESIGN CHOICE: a target that fails while the migration to it runs counts as one
that fails its check, and the migration starts again (log entry 65). -/
def State.targetFailed (s : State) (t cause : Nat) : State :=
  match (s.tile t).calv with
  | none => s
  | some c =>
    let s := s.fenceCore (s.fget (R.TILE_MAP_TARGET t)) cause
    match s.pickSpare none with
    | some n =>
      (((s.setSpare n false).fset (R.TILE_MAP_TARGET t) n).modTile t fun x =>
        { x with calv := some { c with checked := false, moving := false } }).syncMigrating
    | none =>
      let s := (s.setFlag (R.TILE_MAP_PENDING t) false).fset (R.TILE_MAP_TARGET t) 0
      let s := (s.modTile t fun x => { x with calv := none }).syncMigrating
      let s := c.ops.foldl (fun s o => match s.splitOf o with
        | some x => s.complete x (if c.permanent then St.fenced else St.hwFault)
        | none => s) s
      let f : FenceReq := { kind := 1, unit := t, cause := if c.inj then 5 else 3 }
      (if c.permanent then { s with fenceReq := s.fenceReq ++ [f] } else s).boundary t

/-- A core fault is declared permanent: a core that runs a tile decides its calving, any other is fenced. -/
def State.permanent (s : State) (c : Nat) (inj : Bool) : State :=
  let s := { s with coreDue := s.coreDue.filter fun e => e.1 != c }.setFlag (R.CORE_HEALTH_PERM c) true
  match s.tileOfCore c with
  | some t => (s.decideCalving t none none true inj).boundary t
  | none =>
    let cause := if inj then 5 else 2
    match s.reservedBy c with
    | some t => s.targetFailed t cause
    | none => if s.coreFenced c then s else s.fenceCore c cause

/-- A fault in a core that can affect results ends the step of its tile (01_architecture.md R25; R394). -/
def State.coreEnds (s : State) (c : Nat) (inj : Bool) : State :=
  match s.tileOfCore c with
  | some t =>
    let s := if inj && s.faultable t then s.suspectFlag t Sf.injected else s
    s.endStep t St.hwFault 5
  | none => s

/-- Whether an error on a path of a core touches results: its tile has a step (15_safety_faults.md R366). -/
def State.resultPath (s : State) (c : Nat) : Bool := (s.tileOfCore c).any s.faultable

/-- A core source sets, in one cycle with the sources `also` of other blocks (R385, R386; 01_architecture.md R25). An error on a path that carries
results triggers SF4 (15_safety_faults.md R362, R366). -/
def State.coreSource (s : State) (c src : Nat) (inj : Bool) (also : List (Nat × Nat) := []) : State :=
  if s.coreFenced c then s
  else if 3 ≤ src then
    let s := (if s.flag (R.CORE_HEALTH_PERM c) then s else s.permanent c inj).coreEnds c inj
    s.raises ((if src = 4 then [(coreBase c, 4), (coreBase c, 3)] else [(coreBase c, 3)]) ++ also) inj
  else
    let path := src = 1 ∧ s.resultPath c
    let due := !s.flag (R.CORE_HEALTH_PERM c) && !s.coreDue.any fun e => e.1 == c
    let s := if due then { s with coreDue := s.coreDue ++ [(c, inj)] } else s
    let s := match s.tileOfCore c with
      | some t => (s.coreEnds c inj).boundary t
      | none => if due then s.setFlag (R.CORE_HEALTH_RETEST c) true else s
    let s := if path then s.safetyNote 4 0xFFFF 6 else s
    s.raises (([(0x60000, 6)].filter fun _ => path) ++ [(coreBase c, src)] ++ also) inj

/-- An uncorrectable error in the site merge of a core's tile: the step ends, and SF4 triggers (15_safety_faults.md R366). -/
def State.mergeError (s : State) (c : Nat) (inj : Bool) : State :=
  if s.coreFenced c || !s.resultPath c then s else (s.coreEnds c inj).safety 4 0xFFFF 6 inj

/-- Cores have now run all parts of Table 16.1 as spare cores (R387). -/
def State.spareChecked (s : State) (l : List Nat) : State :=
  { s with spareAt := l.foldl (fun m c => Store.put (fun _ => 0) m c (s.rget R.MRN_HOURS).toNat) s.spareAt }

/-! ## The end of a retest (R386, R391; 15_safety_faults.md R380) -/

/-- The passed retests of a core within the last TRANS_HOURS hours. -/
def State.passes (s : State) (c : Nat) : Nat :=
  ((Store.get (fun _ => []) s.corePass c : List Nat).filter fun h =>
    decide ((s.rget R.MRN_HOURS).toNat ≤ h + 16 * s.fget R.SR_CFG_TRANS_HOURS)).length

/-- CORE_HEALTH.TRANS counts them. -/
def State.syncTrans (s : State) (c : Nat) : State := s.fset (R.CORE_HEALTH_TRANS c) (min 255 (s.passes c))

/-- A fenced tile whose unfence waits for a retest of its core. -/
def State.unfencing (s : State) (c : Nat) : Option Nat :=
  (List.range 64).find? fun t => s.unfenceReq.contains (1, t) && s.coreOf t == c

/-- The retest that an unfence of a tile asked for ends. -/
def State.tileRetested (s : State) (t c : Nat) (bad : Bool) : State :=
  let s := s.retestEvent 1 t bad
  if !bad then s.unfence 1 t
  else
    let s := { s with unfenceReq := s.unfenceReq.filter (· != (1, t)) }.setFlag (fenceBit 1 t) true
    let real := !s.injHeld.any fun h => h.1 == coreBase c
    let s := s.setFlag (R.CORE_HEALTH_PERM c) true
    let s := if !s.coreFenced c then s.fenceCore c 2 else if s.injFence.contains (4, c) && real then s.fenceNote 4 c 2 else s
    s.raise (coreBase c) 3 (!real)

/-- CORE_RETEST_DONE. -/
def doCoreRetestDone (c : Fin 68) (passed : Bool) (s : State) : State :=
  let c := c.val
  if !s.flag (R.CORE_HEALTH_RETEST c) then s
  else
    let inj := s.coreDue.contains (c, true)
    let s := (s.setFlag (R.CORE_HEALTH_RETEST c) false).fset (R.CORE_HEALTH_RESULT c) (if passed then 1 else 2)
    let s := { s with coreDue := s.coreDue.filter fun e => e.1 != c }.retestEvent 4 c (!passed)
    let past : List Nat := Store.get (fun _ => []) s.corePass c
    let s := if passed then
        { s with corePass := Store.put (fun _ => []) s.corePass c (past ++ [(s.rget R.MRN_HOURS).toNat]) }.syncTrans c
      else s
    let limit := s.fget R.SR_CFG_TRANS_LIMIT
    let bad := !passed || (limit != 0 && decide (limit ≤ s.passes c))
    match s.unfencing c with
    | some t => (s.tileRetested t c bad).boundary t
    | none =>
      if bad then (s.permanent c inj).raise (coreBase c) 3 inj
      else match s.tileOfCore c with
        | some t => s.boundary t
        | none =>
          if s.coreFenced c || s.isSpare c || s.connected c || (s.reservedBy c).isSome then s
          else (s.setSpare c true).spareChecked [c]

def execCoreRetestDone (c : Fin 68) (passed : Bool) (s : State) : Host.Outcome State Fault Refusal := .next (doCoreRetestDone c passed s)

/-! ## Calving (R388 to R393) -/

/-- TARGET_CHECK_DONE. -/
def doTargetCheckDone (t : Fin 64) (passed : Bool) (s : State) : State :=
  match (s.tile t.val).calv with
  | none => s
  | some c =>
    if c.checked then s
    else if passed then s.modTile t.val fun x => { x with calv := some { c with checked := true } }
    else s.targetFailed t.val 2

def execTargetCheckDone (t : Fin 64) (passed : Bool) (s : State) : Host.Outcome State Fault Refusal := .next (doTargetCheckDone t passed s)

/-- MIGRATION_START: the commit point of a calving (R390). -/
def doMigrationStart (t : Fin 64) (s : State) : State :=
  let t := t.val
  match (s.tile t).calv with
  | none => s
  | some c =>
    if s.idle t && c.checked && !c.moving && !s.acting t then
      (s.modTile t fun x => { x with calv := some { c with moving := true } }).syncMigrating
    else s

def execMigrationStart (t : Fin 64) (s : State) : Host.Outcome State Fault Refusal := .next (doMigrationStart t s)

/-- The bytes that a migration copies. -/
def State.migBytes (s : State) (t : Nat) : Nat :=
  ((List.range 16).filter fun i => s.segSt t i != sgEmpty).length * 131072 + 901120 + 4096

/-- Stored errors of a core reach the same place in another (R390); those of EMPTY segments of its tile are not copied. -/
def State.eccMove (s : State) (t old new : Nat) : State :=
  let copied (w : Nat × Nat) : Bool := w.1 % 256 != 1 || s.segSt t (w.2 / 0x20000) != sgEmpty
  { s with eccReal := (s.eccReal.filter fun w =>
      decide (0x10 ≤ w.1 % 256) || (w.1 / 256 != new && (w.1 / 256 != old || copied w))).map fun w =>
      (if w.1 / 256 = old ∧ w.1 % 256 < 0x10 then new * 256 + w.1 % 256 else w.1, w.2) }

/-- MIGRATION_COMPLETE: the switch of R391, with stored errors at the same place in the target, and the measurement of R392 begins; `ns` is
the duration of the copy. -/
def doMigrationComplete (t : Fin 64) (ns : Word) (s : State) : State :=
  let t := t.val
  match (s.tile t).calv with
  | none => s
  | some c =>
    if !c.moving then s
    else
      let old := s.coreOf t
      let new := s.fget (R.TILE_MAP_TARGET t)
      let s := s.rset R.SR_MIG_BYTES (BitVec.ofNat 32 (s.migBytes t))
      let s := (s.rset R.SR_MIG_TIME ns).rset R.SR_MIG_LAST (BitVec.ofNat 32 (65536 * new + 256 * old + t))
      let s := (s.fset (R.TILE_MAP_CORE t) new).setFlag (R.TILE_MAP_PENDING t) false
      let s := ((s.fset (R.TILE_MAP_TARGET t) 0).fset (R.CORE_TILE_TILE new) t).fset (R.CORE_TILE_TILE old) 0x7F
      let s := s.eccMove t old new
      let away := s.disturbed [t]
      let s := (s.modTile t fun x => { x with calv := none, deskew := true, away := away }).syncMigrating
      let s := away.foldl (fun s ch => s.lend ch) s
      let s := (s.count R.SR_GEN_COUNT).stage 0x40 [BitVec.ofNat 8 t, BitVec.ofNat 8 old, BitVec.ofNat 8 new] (!c.inj) c.inj
      let s := s.chipEvent 0x105 [BitVec.ofNat 32 t, BitVec.ofNat 32 old, BitVec.ofNat 32 new,
        BitVec.ofNat 32 (c.inj.toNat + 2 * c.host.toNat)]
      let s := if c.permanent then s.fenceCore old (if c.inj then 5 else 2)
        else { s with coreDue := s.coreDue ++ [(old, false)] }.setFlag (R.CORE_HEALTH_RETEST old) true
      let s := c.ops.foldl (fun s o => match s.splitOf o with
        | some x => s.complete x St.ok
        | none => s) s
      s.boundary t

def execMigrationComplete (t : Fin 64) (ns : Word) (s : State) : Host.Outcome State Fault Refusal := .next (doMigrationComplete t ns s)

/-- CALVE (R393). -/
def doCalve (q : Req) (s : State) : State :=
  s.request 0x72 q fun s =>
    let t := q.n 0 % 64
    let core := nbits (q.n 0) 14 8
    let named := if core = 0x7F then none else some core
    if 2 ^ 15 ≤ q.n 0 ∨ q.n 0 / 64 % 4 ≠ 0 then s.fail 0x72 q St.badParam
    else if core ≠ 0x7F ∧ (core < 64 ∨ 67 < core ∨ !s.isSpare core) then s.fail 0x72 q St.badParam
    else if (s.pickSpare none).isNone ∨ 2 ≤ s.power t ∨ 256 ≤ s.splits.length then s.fail 0x72 q St.busy
    else if s.tileFenced t then s.fail 0x72 q St.fenced
    else (s.start 0x72 q).decideCalving t (some s.ids) named false false

/-! ## Spare cores and the repair log (R387, R395) -/

/-- Whether 24 hours of operating time have passed since the last check of a spare core (R387). -/
def State.spareDue (s : State) (c : Nat) : Bool :=
  decide (Store.get (fun _ => 0) s.spareAt c + 384 ≤ (s.rget R.MRN_HOURS).toNat)

/-- SPARE_CORE_CHECK: throttle stage 1 defers it. -/
def doSpareCoreCheck (c : Fin 68) (passed : Bool) (s : State) : State :=
  if !s.isSpare c.val || s.stage1 || !s.spareDue c.val then s
  else
    let s := s.spareChecked [c.val]
    if passed then s else s.fenceCore c.val 2

def execSpareCoreCheck (c : Fin 68) (passed : Bool) (s : State) : Host.Outcome State Fault Refusal := .next (doSpareCoreCheck c passed s)

/-- The chip is in an idle period: every tile IDLE, no SEAL_LOAD and no PATCH_LOAD in progress (01_architecture.md R27). -/
def State.chipIdle (s : State) : Bool :=
  (s.tilesIn (· != stIdle)).isEmpty && s.staging.isNone && !s.splits.any fun (x : Split) => x.opcode == 0x60 || x.opcode == 0x64

/-- An entry of the repair log; with 64 used, the fence holds until power-off only. -/
def State.logEntry (s : State) (kind unit : Nat) : State :=
  let n := s.fget R.SR_OTP_COUNT_USED
  if 64 ≤ n then s
  else
    let s := s.rset (R.SR_OTP_W0 n) (BitVec.ofNat 32 (65536 * unit + 4 * (if kind = 4 then 1 else 0) + 1))
    let s := (s.rset (R.SR_OTP_W1 n) (s.rget R.MRN_HOURS)).fset R.SR_OTP_COUNT_USED (n + 1)
    if n = 63 then s.setFlag R.SR_STATUS_OTPFULL true else s

/-- REPAIR_LOG_WRITE. -/
def doRepairLogWrite (s : State) : State :=
  if s.chipIdle then s.logDue.foldl (fun s u => s.logEntry u.1 u.2) { s with logDue := [] } else s

def execRepairLogWrite (s : State) : Host.Outcome State Fault Refusal := .next (doRepairLogWrite s)

end Sys2Proof.Machine
end

