-- ==== Sys2Proof/Machine/Memory.lean ====
section
/-! DEFINITION. Memory commands and the background memory test (14_memories.md; 10_uhleus_protocol.md R265). -/

namespace Sys2Proof.Machine

/-! ## Spaces (R345, R346) -/

/-- The size of a space (Table 14.2). -/
def spaceSize (space : Nat) : Option Nat :=
  match space with
  | 1 => some 0x200000 | 2 => some 0x40000 | 3 => some 0x8000 | 4 => some 0x4000 | 5 => some 0x80000 | 6 => some 0x10000
  | 0x10 => some 0x800000 | 0x11 => some 0x100000
  | _ => none

/-- A space of the chip, not of a tile. -/
def chipSpace (space : Nat) : Bool := space == 0x10 || space == 0x11

/-- Bytes `a` to `b - 1` and bytes `c` to `d - 1` have one in common. -/
def meet (a b c d : Nat) : Bool := decide (max a c < min b d)

/-- What refuses an access to bytes `a` to `b - 1` of the firn: the first region or retired bank that it meets (R346, R359). -/
def State.firnRefused (s : State) (a b : Nat) : Option (BitVec 8) :=
  (List.range 8).findSome? fun k =>
    if !meet a b (k * 0x100000) ((k + 1) * 0x100000) then none
    else if k = 4 ∨ k = 5 then some St.isSealed
    else if 2 ≤ k then some St.badAddress
    else if s.flag (bitFld R.FIRN_RETIRED k) then some St.hwFault
    else none

/-- What refuses a read of bytes `a` to `b - 1` of a tile's space (R93, R191, R194, R222, R331). A sealed mark refuses it in every segment
state, EMPTY too (log entry 58). -/
def State.readRefused (s : State) (space t a b : Nat) : Option (BitVec 8) :=
  match space with
  | 1 => if (List.range 16).any fun i => meet a b (i * 0x20000) ((i + 1) * 0x20000) && s.segSealed t i then some St.isSealed else none
  | 5 =>
    let mask := 0x80000 - s.maskBytes t
    let pool := mask - s.poolBytes t
    if meet a b pool mask then some St.badAddress
    else if meet a b mask 0x80000 && (s.bundleOf t).isSome then some St.isSealed
    else if meet a b 0 pool && s.hidden t [9, 10, 11, 12, 13] then some St.isSealed
    else none
  | 6 => if s.hidden t [14] then some St.isSealed else none
  | _ => if (s.bundleOf t).isSome then some St.isSealed else none

/-- The first byte of a retired bank that an access meets. -/
def State.retiredAt (s : State) (a : Nat) : Nat :=
  if s.flag (bitFld R.FIRN_RETIRED (a / 0x100000)) then a else (a / 0x100000 + 1) * 0x100000

/-- The offset of the ECC word that a byte of a space lies in: 8 bytes, 4 in the vault and in patch RAM (Table 14.1). -/
def eccAlign (space off : Nat) : Nat := if space = 0x11 ∨ space = 0xF1 then off / 4 * 4 else off / 8 * 8

/-- The first word with an uncorrectable error that a read of a space meets, and whether an INJECT holds the error (R347; 15_safety_faults.md
R381). -/
def State.eccMet (s : State) (space core off n : Nat) : Option ((Nat × Nat) × Bool) :=
  let here (w : Nat × Nat) : Bool :=
    w.1 % 256 == space && (chipSpace space || w.1 / 256 == core) && meet (eccAlign space w.2) (eccAlign space w.2 + 8) off (off + n)
  ((s.eccReal.filter here).map (·, false) ++ (s.eccWords.filter here).map (·, true)).foldl
    (fun (m : Option ((Nat × Nat) × Bool)) w =>
      match m with
      | some v => if eccAlign space w.1.2 < eccAlign space v.1.2 then some w else some v
      | none => some w) none

/-- The registers and the source of an uncorrectable error, of the word at offset `w.2` of the space in bits [7:0] of `w.1` and of the core
in the bits above (R347, Table 14.6). -/
def State.eccNote (s : State) (w : Nat × Nat) : State :=
  let s := (s.count R.MEM_ECC_UNC_COUNT).evCount 65
  let s := s.rset R.MEM_ECC_LAST (BitVec.ofNat 32 (2 ^ 31 + (if w.1 % 256 < 0x10 then w.1 / 256 % 64 * 256 else 0) + w.1 % 256))
  s.rset R.MEM_ECC_LADDR (BitVec.ofNat 32 (eccAlign (w.1 % 256) w.2))

/-- MEM_READ meets such a word. -/
def State.eccMeet (s : State) (w : (Nat × Nat) × Bool) : State := (s.eccNote w.1).raise 0xA0000 0 w.2

/-- CORE_FAULT: of source 0 the word that playback met is recorded too, and holds its error until it is written (14_memories.md R347). -/
def doCoreFault (c : Fin 68) (x : CoreSource) (inj : Bool) (s : State) : State :=
  if s.coreFenced c.val then s
  else if x.src = 0 then
    let w := (c.val * 256 + x.space % 256, eccAlign (x.space % 256) x.off)
    ({ s with eccReal := if inj || s.eccReal.contains w then s.eccReal else s.eccReal ++ [w] }.eccNote w).coreSource c.val 0 inj
      [(0xA0000, 0)]
  else if x.src = 1 ∧ x.merge then s.mergeError c.val inj
  else s.coreSource c.val x.src.val inj

def execCoreFault (c : Fin 68) (src : CoreSource) (inj : Bool) (s : State) : Host.Outcome State Fault Refusal :=
  .next (doCoreFault c src inj s)

/-- MEM_READ. -/
def doMemRead (q : Req) (s : State) : State :=
  s.request 0x21 q fun s =>
    let space := q.n 0 % 256
    let t := q.n 0 / 256
    let off := q.n 1
    let len := q.n 2
    if 2 ^ 14 ≤ q.n 0 ∨ len = 0 ∨ 65536 < len then s.fail 0x21 q St.badParam
    else match spaceSize space with
    | none => s.fail 0x21 q St.badAddress
    | some size =>
      let n := min len (size - off)
      let t := if chipSpace space then 0 else t
      let no := if space = 0x11 then some St.isSealed
        else if size ≤ off then some St.badAddress
        else if space = 0x10 then s.firnRefused off (off + n)
        else s.readRefused space t off (off + n)
      match no with
      | some st => s.fail 0x21 q st (if st = St.hwFault then BitVec.ofNat 32 (s.retiredAt off) else 0)
      | none =>
        match s.eccMet space (s.coreOf t) off n with
        | some w => (s.eccMeet w).fail 0x21 q St.hwFault (BitVec.ofNat 32 (eccAlign space w.1.2))
        | none => s.reply 0x21 q (if n = len then St.ok else St.part) [BitVec.ofNat 32 n] (s.mread space t off n)

/-- What refuses a write of bytes `a` to `b - 1` of a space of the named tiles, with the tile at fault (R62, R83, R119, R184, R194, R265,
R331). -/
def State.writeRefused (s : State) (space a b : Nat) (l : List Nat) : Option (BitVec 8 × Nat) :=
  let first (st : BitVec 8) (p : Nat → Bool) : Option (BitVec 8 × Nat) := (l.find? p).map fun t => (st, t)
  (first St.badAddress fun t => space == 5 && meet a b 0 (0x80000 - s.maskBytes t)) |>.or <|
  (first St.isSealed fun t => space != 6 && (s.bundleOf t).isSome) |>.or <|
  (first St.fenced s.tileFenced) |>.or <|
  first St.busy fun t => !s.idle t

/-- MEM_WRITE. -/
def doMemWrite (q : Req) (s : State) : State :=
  s.request 0x20 q fun s =>
    let space := q.n 0
    let off := q.n 1
    let l := q.tiles 2
    if 256 ≤ space ∨ (chipSpace space ∧ !l.isEmpty) then s.fail 0x20 q St.badParam
    else match spaceSize space with
    | none => s.fail 0x20 q St.badAddress
    | some size =>
      let n := min q.payload.length (size - off)
      let no : Option (BitVec 8 × Nat) := if space = 0x11 then some (St.isSealed, 0)
        else if space = 1 ∨ size ≤ off then some (St.badAddress, 0)
        else if space = 0x10 then (s.firnRefused off (off + n)).map fun st => (st, if st = St.hwFault then s.retiredAt off else 0)
        else if l.isEmpty then some (St.badParam, 0)
        else s.writeRefused space off (off + n) l
      match no with
      | some (st, p) => s.fail 0x20 q st (BitVec.ofNat 32 p)
      | none =>
        s.writeBegin { op := 0x20, q := q, targets := if chipSpace space then [(0, 0)] else l.map (·, 0), limit := n }

/-! ## The background memory test (R353 to R359) -/

/-- The macro of Table 14.1 that a defect lies in: its number in its place, and how many the place has. -/
def placeUnits (p : DefectAt) : Nat :=
  match p with | .core _ => 14 | .firn _ => 4 | .vault => 4 | .shared => 25

/-- Whether a macro is a small one. -/
def smallMacro (p : DefectAt) (u : Nat) : Bool :=
  match p with
  | .core _ => u == 9 || u == 10 || u == 13
  | .shared => u == 24
  | _ => false

/-- The spare rows, or columns, of a macro (R344). -/
def spareCount (p : DefectAt) (u : Nat) (column : Bool) : Nat :=
  match smallMacro p u, column with
  | true, true => 1 | true, false => 2 | false, true => 2 | false, false => 8

/-- The number of a macro among all macros: those of 68 cores, 8 firn banks, the vault, and the shared memories. -/
def macroOf (p : DefectAt) (u : Nat) : Nat :=
  match p with | .core c => 14 * c.val + u | .firn b => 952 + 4 * b.val + u | .vault => 984 + u | .shared => 988 + u

/-- The repairs in force: the entries of OTP, and the soft ones (R356, R357). -/
def State.repairsNow (s : State) : List Repair := s.repairs ++ s.soft.map fun (e : SoftRepair) => e.rep

/-- The spare rows, or columns, of a macro that a repair in force uses. -/
def State.sparesUsed (s : State) (m : Nat) (column : Bool) : List Nat :=
  (s.repairsNow.filter fun (r : Repair) => r.macro_ == m && r.column == column).map fun (r : Repair) => r.spare

/-- The free spare that a repair takes: the lowest-numbered one (DESIGN CHOICE, log entry 86). -/
def State.freeSpare (s : State) (d : Defect) : Option Nat :=
  (List.range (spareCount d.place d.unit d.column)).find? fun n => !(s.sparesUsed (macroOf d.place d.unit) d.column).contains n

/-- Whether the macro of a defect has a free spare of the kind needed. -/
def State.spareFree (s : State) (d : Defect) : Bool := (s.freeSpare d).isSome

/-- The 256-byte regions of the memories of Table 14.1. -/
def btRegions : Nat := 858112

/-- The memories in the order of Table 14.1: what numbers their places, the first of their macros there, their places, and the macros and
regions per macro of each. -/
def btMemories : List ((Nat → DefectAt) × Nat × Nat × Nat × Nat) :=
  let core (n : Nat) : DefectAt := .core (Fin.ofNat 68 n)
  let bank (n : Nat) : DefectAt := .firn (Fin.ofNat 8 n)
  [(core, 0, 68, 8, 1024), (core, 8, 68, 1, 1024), (core, 9, 68, 1, 128), (core, 10, 68, 1, 64), (core, 11, 68, 2, 1024),
    (core, 13, 68, 1, 256), (bank, 0, 8, 4, 1024), (fun _ => .vault, 0, 1, 4, 1024), (fun _ => .shared, 0, 1, 24, 1024),
    (fun _ => .shared, 24, 1, 1, 256)]

/-- The macro that a region lies in, in ascending macro and address order (R353; log entry 64). -/
def btPlace (r : Nat) : List ((Nat → DefectAt) × Nat × Nat × Nat × Nat) → DefectAt × Nat
  | [] => (.shared, 24)
  | (f, u, places, macros, regions) :: l =>
    if r < places * macros * regions then (f (r / (macros * regions)), u + r / regions % macros)
    else btPlace (r - places * macros * regions) l

/-- Whether the test runs at all (R353, R355). -/
def State.btRuns (s : State) : Bool := s.flag R.BT_CFG_EN && !s.stage1 && !s.flag R.ENG_STATUS_SLOW_ACT

/-- Whether the test runs in a memory (R355): not in cores of DORMANT or OFF tiles, spare cores, which rest in OFF, fenced cores, retired banks.
The core of a fenced tile and the thawed target of a calving run it. -/
def State.btReaches (s : State) (p : DefectAt) : Bool :=
  match p with
  | .core c => !s.coreFenced c && !s.isSpare c && ((List.range 64).filter fun t => s.coreOf t == c.val).all fun t => decide (s.power t < 2)
  | .firn b => !s.flag (bitFld R.FIRN_RETIRED b)
  | _ => true

/-- A defect in a macro without a free spare (R359). A firn bank's fence has no cause of Table 15.7; it is a free value (log entry 4). -/
def State.noSpare (s : State) (p : DefectAt) (inj : Bool) : State :=
  let s := s.setFlag R.REP_STATUS_NOSPARE true
  match p with
  | .core c => if s.coreFenced c then s.raise 0xA0000 1 inj else s.coreSource c 4 inj [(0xA0000, 1)]
  | .firn b =>
    let (w, s) := s.free
    (s.fenceBank b (if inj then 5 else field w 3 0)).raises [(0xA0000, 1), (0xA0000, 3)] inj
  | .vault => { s with sealForever := true }.raises [(0xA0000, 1), (0x50000, 8)] inj
  | .shared => s.raise 0xA0000 1 inj

/-- The core that a macro lies in. -/
def coreAt (p : DefectAt) : Option Nat :=
  match p with
  | .core c => some c.val
  | _ => none

/-- A spare takes the place of a defective row or column, softly (R357). -/
def State.takeSpare (s : State) (d : Defect) : State :=
  match s.freeSpare d with
  | none => s
  | some n =>
    let r : Repair := { macro_ := macroOf d.place d.unit, column := d.column, line := d.line, spare := n }
    { s with soft := s.soft ++ [{ core := coreAt d.place, injected := d.injected, rep := r }] }

/-- Whether some of these defects finds no free spare. -/
def State.unrepaired (s : State) : List Defect → Bool
  | [] => false
  | d :: l => !s.spareFree d || (s.takeSpare d).unrepaired l

/-- A defect is repaired with a spare, or has none (R357, R359). -/
def State.defect (s : State) (d : Defect) : State :=
  let s := (s.count R.BT_FAILS_COUNT).evCount 67
  if !s.spareFree d then s.noSpare d.place d.injected
  else
    let s := s.takeSpare d
    let s := s.fset R.REP_STATUS_PEND (min 511 s.soft.length)
    match (coreAt d.place).bind s.tileOfCore with
    | some t => s.boundary t
    | none => s

/-- Corrected errors: each counts, and a bit of a word corrected twice within 1 s places its region at the head of the test (R347). -/
def State.correct (s : State) (l : List (Nat × Nat)) : State :=
  l.foldl (fun (s : State) (e : Nat × Nat) =>
    let s := (s.count R.MEM_ECC_CORR_COUNT).evCount 64
    let recent := s.corrections.filter fun c => decide (s.now ≤ c.2 + 256000000000 * unitFs)
    let again := (recent.any fun c => c.1 == e) && !s.btHead.contains e.1
    { s with
      corrections := (e, s.now) :: recent.filter fun c => c.1 != e
      btHead := (if again then [e.1] else []) ++ s.btHead }) s

/-- Whether INTERVAL µs have passed since the start of the last region test. -/
def State.btDue (s : State) : Bool :=
  (s.btAt.map fun a => decide (a + 256000 * unitFs * s.fget R.BT_CFG_INTERVAL ≤ s.now)).getD true

/-- The region that is tested next: the head of the test, or the next of the pass. -/
def State.btRegion (s : State) : Nat := s.btHead.headD (s.fget R.BT_STATUS_REGION)

/-- The test passes to the region after it. -/
def State.btAdvance (s : State) : State :=
  match s.btHead with
  | _ :: l => { s with btHead := l }
  | [] =>
    let next := s.fget R.BT_STATUS_REGION + 1
    if next = btRegions then (s.fset R.BT_STATUS_REGION 0).count R.BT_PASSES_COUNT else s.fset R.BT_STATUS_REGION next

/-- SOFT_REPAIR_PERSIST: repairs of shared memories, at an idle period of the chip (R358). -/
def doSoftRepairPersist (s : State) : State := if s.chipIdle then s.persistRepairs (· == none) else s

def execSoftRepairPersist (s : State) : Host.Outcome State Fault Refusal := .next (doSoftRepairPersist s)

end Sys2Proof.Machine
end

