-- ==== Sys2Proof/Machine/Power.lean ====
section
/-! DEFINITION. Power states and thaws (17_power_thermal.md R397 to R402). -/

namespace Sys2Proof.Machine

/-! ## POWER_STATE (R400 to R402) -/

/-- A request that a later POWER_STATE finds before its command's commit point is superseded. -/
def State.supersede (s : State) (t : Nat) : State :=
  let early (r : PwrReq) : Bool := !r.started && match r.op.bind s.splitOf with
    | some x => !x.begun
    | none => false
  let gone := (s.tile t).pwr.filter early
  let s := s.modTile t fun c => { c with pwr := c.pwr.filter fun r => !early r }
  gone.foldl (fun s (r : PwrReq) => match r.op with
    | some o => s.pwrResolve o t 1
    | none => s) s

/-- A tile takes a power-state request; a scheduled thaw is cancelled. -/
def State.askPower (s : State) (t : Nat) (r : PwrReq) : State :=
  let s := if s.flag (R.TILE_PWR_SCHED t) then s.setThaw t none else s
  ((s.supersede t).modTile t fun c => { c with pwr := c.pwr ++ [r] }).syncPwr t

/-- POWER_STATE. -/
def doPowerState (q : Req) (s : State) : State :=
  s.request 0x76 q fun s =>
    let l := q.tiles 0
    let sched := (q.p 2).getLsbD 8
    let st := q.n 2 % 4
    if (q.p 2 &&& ~~~0x103) ≠ 0 ∨ l.isEmpty ∨ (sched ∧ (st = 0 ∨ !s.flag R.TIME_STATUS_VALID)) then s.fail 0x76 q St.badParam
    else match l.find? s.tileFenced with
    | some t => s.fail 0x76 q St.fenced (BitVec.ofNat 32 t)
    | none =>
      if 256 ≤ s.splits.length then s.fail 0x76 q St.busy
      else
        let r : PwrReq := { target := st, op := some s.ids, session := q.session, sched := if sched then some (q.n 3 + 2 ^ 32 * q.n 4) else none }
        let s := l.foldl (fun s t => s.askPower t r) (s.start 0x76 q l)
        l.foldl (fun s t => s.boundary t) s

/-! ## Transitions (Table 17.1, R398; 06_pin_electronics.md Table 6.15) -/

/-- The stores of a tile lose their contents. -/
def State.eraseStores (s : State) (t : Nat) : State :=
  let core := s.coreOf t
  [1, 2, 3, 4, 5, 6].foldl (fun s k => s.eraseSpace k t)
    { s with eccReal := s.eccReal.filter fun w => w.1 / 256 != core || decide (0x10 ≤ w.1 % 256) }

/-- A register of a tile or of its channels that its power gate covers. -/
def gated (t a : Nat) : Bool :=
  (decide (R.SEQ_RANGE t ≤ a ∧ a < R.SEQ_RANGE t + 0x10000) && a != R.TILE_PWR t && a != R.TILE_THAW_LO t && a != R.TILE_THAW_HI t) ||
    decide (0x500000 + t * 0x4000 ≤ a ∧ a < 0x500000 + (t + 1) * 0x4000)

/-- What a tile loses in OFF: stores, registers and contexts; fenced channels stay fenced. -/
def State.offReset (s : State) (t : Nat) : State :=
  let fenced := (chansOf t).filter s.chanFenced
  let s := (s.eraseStores t).resetRegs (gated t)
  let s := fenced.foldl (fun s ch => s.setFlag (R.CH_STATUS_FENCED ch) true) s
  let s := (chansOf t).foldl (fun s ch => s.setChan ch { safe := fenced.contains ch }) s
  let s := s.modTile t fun c => { pwr := c.pwr, thaw := c.thaw, armedBy := c.armedBy, calv := c.calv, deskew := c.deskew, calLost := true }
  { s with segSeal := s.segSeal.filter fun e => e.1 / 16 != t
           calApplied := s.calApplied.filter fun e => e.1 / 128 != t || e.1 == syncKey }

/-- A tile enters OFF: its bundle is removed, and it loses what OFF does not keep. -/
def State.enterOff (s : State) (t : Nat) : State :=
  (match s.bundleOf t with
    | some n => s.bundleRemove n 3
    | none => s).offReset t

/-- A tile leaves OFF: its stores hold contents that the manual does not define (log entry 3), its segments are EMPTY, and its registers hold
their reset values, whatever has reached them in OFF (R90, R117; 06_pin_electronics.md Table 6.15). DEDUCED: of Tables 6.16 and 6.17 these are the
registers of the tile and its channels; LVL_CLR_STATUS and the sentinels belong to no tile and keep their values (log entry 75). -/
def State.leaveOff (s : State) (t : Nat) : State :=
  let s := s.offReset t
  if s.lvlClr then (chansOf t).foldl (fun s ch => (List.range 11).foldl (fun s k => s.applySafe ch k) s) s else s

/-- A tile enters DORMANT: driver and load off, comparators without power. -/
def State.enterDormant (s : State) (t : Nat) : State :=
  (chansOf t).foldl (fun s ch =>
    ((s.modChan ch fun c =>
      { c with level := .vil, enable := .offLoadOff, carried := [], forcing := false, clearDeferred := false }).setFlag
      (R.CH_STATUS_RST_BUSY ch) false).setKnown ch false false) s

/-- The forced reset of a thaw from DORMANT: every comparator in use is KNOWN, on a side that no operand gives (log entry 4). -/
def State.wakeComparators (s : State) (t : Nat) : State :=
  let (w, s) := s.free
  (chansOf t).foldl (fun s ch =>
    if s.cmpOn ch then
      (s.modChan ch fun c =>
        { c with hiAbove := w.getLsbD (ch % 16), loBelow := !w.getLsbD (ch % 16) && w.getLsbD (16 + ch % 16) }.checkFrom
          s.now).setKnown ch true true
    else s) s

/-- A thaw fails because the tile's PLL does not lock: the transition, and an arming that waits for it, complete with HW_FAULT. -/
def State.thawFailed (s : State) (t : Nat) (r : PwrReq) : State :=
  let s := (s.modTile t fun c => { c with pwr := c.pwr.drop 1, thaw := none }).syncPwr t
  let s := match r.op with
    | some o => s.pwrResolve o t 2
    | none => s
  let arm := s.splits.find? fun (x : Split) =>
    x.arming && (tilesOf (x.params.getD 0 0) (x.params.getD 1 0)).contains t
  let s := match arm with
    | some x => s.armFail x (tilesOf (x.params.getD 0 0) (x.params.getD 1 0)) St.hwFault t
    | none => s
  (s.boundary t).coreSource (s.coreOf t) 2 false

/-- TILE_THAWED, to the session that scheduled the thaw (R401). -/
def State.thawed (s : State) (t : Nat) : State :=
  let s := s.evCount 85
  match (s.tile t).thaw with
  | none => s
  | some n => (s.modTile t fun c => { c with thaw := none }).eventFor (some n) 0x205
      [BitVec.ofNat 32 t, s.sysTime.setWidth 32, (s.sysTime >>> 32).setWidth 32]

/-- A tile arrives in a power state. -/
def State.arrive (s : State) (t new : Nat) : State :=
  let old := s.power t
  let s := if old = 3 then s.leaveOff t else s
  let s := if new = 3 then s.enterOff t else if new = 2 ∧ old < 2 then s.enterDormant t else s
  let s := (s.fset (R.TILE_PWR_STATE t) new).reachTile t
  let s := if old = 2 ∧ new < 2 then s.wakeComparators t else s
  let s := if 2 ≤ old ∧ new < 2 ∧ !s.armingTiles.contains t then s.calApply t else s
  if new = 0 then s.thawed t else s

/-- POWER_TRANSITION_DONE. -/
def doPowerTransitionDone (t : Fin 64) (pllOk : Bool) (s : State) : State :=
  let t := t.val
  match (s.tile t).pwr with
  | [] => s
  | r :: _ =>
    if !r.started then s
    else if 2 ≤ s.power t ∧ r.target < 2 ∧ !pllOk then s.thawFailed t r
    else ((s.arrive t r.target).pwrReached t r).boundary t

def execPowerTransitionDone (t : Fin 64) (pllOk : Bool) (s : State) : Host.Outcome State Fault Refusal :=
  .next (doPowerTransitionDone t pllOk s)

/-- Whether the wake time before the scheduled instant of a tile is reached by the next REFCLK edge. -/
def State.thawDue (s : State) (t : Nat) : Bool :=
  decide (s.pair (R.TILE_THAW_LO t) (R.TILE_THAW_HI t) < s.sysTime.toNat + wakeTime (s.power t) + 2560)

/-- SCHEDULED_THAW: the thaw begins; TILE_THAW no longer holds its time (R401). -/
def doScheduledThaw (t : Fin 64) (s : State) : State :=
  let t := t.val
  if s.flag (R.TILE_PWR_SCHED t) && s.thawDue t then
    let who := (s.tile t).thaw
    (((s.setThaw t none).modTile t fun c => { c with thaw := who }).beginThaw t)
  else s

def execScheduledThaw (t : Fin 64) (s : State) : Host.Outcome State Fault Refusal := .next (doScheduledThaw t s)

end Sys2Proof.Machine
end

