-- ==== Sys2Proof/Machine/Thermal.lean ====
section
/-! DEFINITION. Thermal sensors, SF3, the throttle, and the supply monitors (17_power_thermal.md R404 to R414). -/

namespace Sys2Proof.Machine

/-! ## Sensors (R404, R405) -/

/-- The first sensor of a sensor's group and the first behind it. -/
def group (n : Nat) : Nat × Nat :=
  if n < 68 then (0, 68) else if n < 80 then (68, 80)
  else if n < 144 then (80 + (n - 80) / 16 * 16, 96 + (n - 80) / 16 * 16) else (144, 152)

def neighbours (n : Nat) : List Nat :=
  let g := group n
  (List.range 152).filter fun k => k != n && decide (g.1 ≤ k ∧ k < g.2 ∧ k ≤ n + 3 ∧ n ≤ k + 3)

/-- The die a sensor stands on: 0 to 3 the front ends, 4 the logic die. -/
def sensorDie (n : Nat) : Nat := if 80 ≤ n ∧ n < 144 then (n - 80) / 16 else 4

def State.sensorFailed (s : State) (n : Nat) : Bool := s.flag ⟨R.THS_FAIL (n / 32), n % 32, n % 32⟩

def insertInt (x : Int) : List Int → List Int
  | [] => [x]
  | y :: l => if x ≤ y then x :: y :: l else y :: insertInt x l

/-- Twice the median of a list that is not empty. -/
def median2 (l : List Int) : Int :=
  let m := l.foldr insertInt []
  m.getD (m.length / 2) 0 + m.getD ((m.length - 1) / 2) 0

/-- What a sample makes of a sensor: its contribution, whether it disagrees, is replaced, is declared failed now, the samples it
has disagreed for, and the median. -/
structure Sense where
  value : Int
  disagree : Bool := false
  subst : Bool := false
  declared : Bool := false
  dis : Nat := 0
  med : Int := 0

/-- The substitute of a failed sensor: `unknown` where no sensor of its die is healthy. -/
def State.substitute (s : State) (r : List Int) (n : Nat) (near : List Int) (unknown : Int) : Int :=
  if !near.isEmpty then median2 near / 2 + 40
  else
    let die := (List.range 152).filter fun k => k != n && sensorDie k == sensorDie n && !s.sensorFailed k
    match die.map fun k => r.getD k 0 with
    | [] => unknown
    | x :: l => l.foldl max x + 40

/-- A sample of one sensor. A sensor that has disagreed at 12 samples in a row has disagreed for more than 10 ms. -/
def State.sense (s : State) (r : List Int) (unknown : Int) (n : Nat) : Sense :=
  let near := ((neighbours n).filter fun k => !s.sensorFailed k).map fun k => r.getD k 0
  let v := r.getD n 0
  let m := median2 near
  if s.sensorFailed n then { value := s.substitute r n near unknown, subst := true }
  else if near.length < 3 then { value := v }
  else if (2 * v - m).natAbs ≤ 128 then { value := v, med := m / 2 }
  else
    let d := Store.get (fun _ => 0) s.therm.dis n + 1
    if 12 ≤ d then { value := s.substitute r n near unknown, subst := true, declared := true, med := m / 2 }
    else { value := max v (m / 2), disagree := true, dis := d, med := m / 2 }

/-! ## Slopes (R406) -/

/-- 42 times the least-squares slope of eight contributions, in units of 0.125 °C per 2 ms; none before there are eight. -/
def slope (h : List Int) : Option Int :=
  if h.length < 8 then none
  else some (((List.range 8).map fun (i : Nat) => (2 * (i : Int) - 7) * h.getD i 0).foldl (· + ·) 0)

/-- Whether a slope exceeds a rate in °C/s. -/
def steeper (h : List Int) (rate : Int) : Bool :=
  match slope h with
  | some n => decide (8 * rate * 84 < 1000 * n)
  | none => false

/-- A sensor's contribution enters its registers and its history. -/
def State.senseStore (s : State) (n : Nat) (x : Sense) : State :=
  let s := s.rset (R.THS_READ n) (BitVec.ofNat 32 (unsigned 16 x.value + 65536 * x.subst.toNat + 131072 * x.disagree.toNat))
  let h : List Int := Store.get (fun _ => []) s.therm.hist n
  let h := (h ++ [x.value]).drop (h.length - 7)
  { s with therm := { s.therm with hist := Store.put (fun _ => []) s.therm.hist n h
                                   dis := Store.put (fun _ => 0) s.therm.dis n x.dis } }

/-- The rate warning: the sensor that sets it now, if one does, and whether it stands. -/
def State.rateWarn (s : State) : State × Option Nat :=
  let h (n : Nat) : List Int := Store.get (fun _ => []) s.therm.hist n
  let now := (List.range 152).filter fun n => steeper (h n) 10
  let first := now.find? s.therm.steep.contains
  let calm := if (List.range 152).all fun n => match slope (h n) with
      | some k => decide (1000 * k < 8 * 8 * 84)
      | none => true
    then s.therm.calm + 1 else 0
  let was := s.flag R.THR_STATUS_RATE_WARN
  let s := { s with therm := { s.therm with steep := now, calm := min 101 calm } }
  if first.isSome then (s.setFlag R.THR_STATUS_RATE_WARN true, if was then none else first)
  else (s.setFlag R.THR_STATUS_RATE_WARN (was && decide (calm < 101)), none)

/-! ## SF3 (15_safety_faults.md R365) -/

/-- SF3 triggers: source 3 for temperature, 4 for the rate, or both in one cycle; with them the sources `also` of other blocks set. -/
def State.sf3 (s : State) (srcs : List Nat) (also : List (Nat × Nat)) (inj : Bool := false) : State :=
  let s := s.endSteps (List.range 64) St.hwFault 12
  let s := (List.range 1024).foldl (fun s ch => s.chSafe ch) s
  let s := if s.flag R.SF_CFG_SF3_DSE then s.dseDrop (2 ^ 64 - 1) else s
  let s := srcs.foldl (fun s k => s.safetyNote 3 0xFFFF k) (s.setFlag R.SF_STATUS_FE_OFF true)
  (s.raises (srcs.map (fun k => (0x60000, k)) ++ also) inj).safetyTaint 3 0xFFFF inj

/-- Which conditions of SF3 begin, of those that hold now: the function triggers when one begins, and its fault bit stays while it holds
(R373). -/
def State.sf3Begin (s : State) (l : List (Nat × Bool)) : List Nat × State :=
  let key (e : Nat × Bool) : Nat × Nat × Nat := (0x60000, e.1, 0xFFFF)
  let new := l.filter fun e => e.2 && !s.held.contains (key e)
  (new.map (·.1), { s with held := (s.held.filter fun h => !l.any fun e => !e.2 && key e == h) ++ new.map key })

/-- THERMAL_SAMPLE: the readings of the 152 sensors in units of 0.125 °C. -/
def doThermalSample (readings : List Int) (s : State) : State :=
  let (w, s) := s.free
  let l := (List.range 152).map fun n => (n, s.sense readings (w.setWidth 16).toInt n)
  let s := l.foldl (fun s e => s.senseStore e.1 e.2) s
  let declared := l.filter fun e => e.2.declared
  let s := declared.foldl (fun s e => s.setFlag ⟨R.THS_FAIL (e.1 / 32), e.1 % 32, e.1 % 32⟩ true) s
  let top := l.foldl (fun m e => if m.2 < e.2.value then (e.1, e.2.value) else m) (0, (l.headD (0, { value := 0 })).2.value)
  let s := s.rset R.TJ_MAX (BitVec.ofNat 32 (65536 * top.1 + unsigned 16 top.2))
  let (s, warn) := s.rateWarn
  let hist := s.therm.hist
  let s := (List.range 1024).foldl (fun s ch => if s.power (ch / 16) = 3 then s else s.syncStale ch) s
  let (trip, s) := s.sf3Begin [(3, decide (920 < top.2)), (4, (List.range 152).any fun n => steeper (Store.get (fun _ => []) hist n) 25)]
  let s := declared.foldl (fun s e =>
    (s.evCount 84).chipEvent 0x202 [BitVec.ofNat 32 e.1, BitVec.ofNat 32 (unsigned 32 (readings.getD e.1 0)),
      BitVec.ofNat 32 (unsigned 32 e.2.med)]) s
  let s := match warn with
    | none => s
    | some n =>
      let k := (slope (Store.get (fun _ => []) hist n)).getD 0
      s.chipEvent 0x203 [BitVec.ofNat 32 n, BitVec.ofNat 32 (unsigned 32 (1000 * k / 84))]
  let also := declared.map (fun _ => (0x70000, 0)) ++ if warn.isSome then [(0x70000, 1)] else []
  if trip.isEmpty then s.raises also else s.sf3 trip also

def execThermalSample (readings : List Int) (s : State) : Host.Outcome State Fault Refusal := .next (doThermalSample readings s)

/-! ## The throttle (R407 to R410) -/

/-- Whether a power in mW exceeds the cap of a level. -/
def State.overCap (s : State) (mw level : Nat) : Bool := decide (s.fget R.PWR_CFG_BUDGET * 1000 * (8 - level) < 8 * mw)

/-- The sensors of the hot region, once a rise has named one (R408). -/
def State.hotRegion (s : State) : List Nat :=
  let h := s.fget R.THR_STATUS_HOT
  if s.therm.hot then h :: neighbours h else []

/-- The release condition. -/
def State.releases (s : State) (mw : Nat) : Bool :=
  let level := s.fget R.THR_STATUS_LEVEL
  let limit : Int := 8 * s.fget R.THR_CFG_RELEASE
  let cool := (neighbours (s.fget R.THR_STATUS_HOT)).filter fun k =>
    !s.sensorFailed k && decide (signed 16 (s.fget (R.THS_READ_TEMP k)) < limit)
  decide (level ≠ 0) && decide (signed 16 (s.fget R.TJ_MAX_TEMP) < limit) && !s.flag R.THR_STATUS_RATE_WARN &&
    !s.overCap mw (level - 1) && (!s.hotRegion.any s.sensorFailed || decide (2 ≤ cool.length))

/-- The level changes: stages, event and moraine record (Table 17.4, R410). -/
def State.throttleTo (s : State) (new : Nat) (real : Bool := true) : State :=
  let old := s.fget R.THR_STATUS_LEVEL
  let s := s.fset R.THR_STATUS_LEVEL new
  let s := (s.fset R.THR_STATUS_STAGES ((if 1 ≤ new then 1 else 0) + (if 3 ≤ new then 2 else 0) + (if 5 ≤ new then 4 else 0))).syncSusp
  let hot := s.fget R.THR_STATUS_HOT
  let tj := s.fget R.TJ_MAX_TEMP
  let s := (s.evCount 81).stage 0x30 [BitVec.ofNat 8 new, BitVec.ofNat 8 old, BitVec.ofNat 8 hot, 0, BitVec.ofNat 8 tj,
    BitVec.ofNat 8 (tj / 256)] real (!real)
  s.chipEvent 0x200 [BitVec.ofNat 32 new, BitVec.ofNat 32 old, BitVec.ofNat 32 hot]

/-- The throttle abort (R409; 01_architecture.md R35). -/
def State.throttleAbort (s : State) (inj : Bool := false) : State :=
  let l := s.tilesIn (· == stRunning)
  let m := tileMask l
  let s := if inj then l.foldl (fun s t => s.suspectFlag t Sf.injected) s else s
  let s := (s.setFlag R.THR_STATUS_ABORTED true).endSteps l St.aborted 4
  (s.chipEvent 0x201 [m.1, m.2]).raise 0x70000 2 inj

/-- THROTTLE_EVALUATION, every 10 ms; `milliwatt` is the power of the last millisecond. -/
def doThrottleEvaluation (milliwatt : Word) (s : State) : State :=
  let mw := milliwatt.toNat
  let level := s.fget R.THR_STATUS_LEVEL
  let s := s.rset R.PWR_MEAS milliwatt
  let s := if level = 0 then s else s.evCount 80 250000
  let up := decide (8 * (s.fget R.THR_CFG_START : Int) ≤ signed 16 (s.fget R.TJ_MAX_TEMP)) || s.flag R.THR_STATUS_RATE_WARN ||
    s.overCap mw level
  let rise := if up then s.therm.rise + 1 else 0
  let fall := if s.releases mw then s.therm.fall + 1 else 0
  let s := { s with therm := { s.therm with rise := rise, fall := fall, aborted := s.therm.aborted && up } }
  let s :=
    if s.fget R.THR_CFG_RISE < rise then
      if level = 7 then
        if s.therm.aborted then s else { s with therm := { s.therm with aborted := true } }.throttleAbort
      else
        let s := { s with therm := { s.therm with rise := 1, fall := 0, hot := true } }
        (s.fset R.THR_STATUS_HOT (s.fget R.TJ_MAX_SENSOR)).throttleTo (level + 1)
    else if 10 * s.fget R.THR_CFG_FALL < fall then
      { s with therm := { s.therm with rise := 0, fall := 1 } }.throttleTo (level - 1)
    else s
  s.setFlag R.THR_STATUS_SUBST_HOT (s.hotRegion.any s.sensorFailed)

def execThrottleEvaluation (milliwatt : Word) (s : State) : Host.Outcome State Fault Refusal := .next (doThrottleEvaluation milliwatt s)

/-! ## Supplies (R411 to R413) -/

def nsFs : Int := 65536000

/-- When the excursion of a rail began. -/
def State.excursion (s : State) (rail : Nat) : Option Int := Store.get (fun _ => none) s.excursions rail

/-- Whether a rail's monitor works: that of VIO waits for the board table, which selects its nominal (20_startup.md R460). -/
def State.monitored (s : State) (r : Nat) : Bool := r != 5 || s.vioSel.isSome

/-- What a tile has recorded and accumulated since an instant is suspect: its records (08_acquisition.md R196), and the profile and derived
values of channels with an attribution since then (07_time_measurement.md R183). -/
def State.suspectSince (s : State) (t : Nat) (i : Int) : State :=
  let s := s.suspectRing t (s.tileTime t i)
  ((chansOf t).filter fun ch => (s.chan ch).lastStop.any fun l => decide (i ≤ s.chipTime t l)).foldl (fun s ch =>
    let s := s.setFlag (R.TDC_STAT_SUSPECT ch) true
    if s.flag (R.TDC_CFG_PROF ch) then s.setFlag (R.PROF_STATUS_SUSPECT t) true else s) s

/-- SUPPLY_EXCURSION_BEGIN: the SUSPECT interval opens 1 µs before it. -/
def doSupplyExcursionBegin (rail : Fin 8) (s : State) : State :=
  let r := rail.val
  if (s.excursion r).isSome || !s.monitored r then s
  else
    let b := s.now
    let s := { s with excursions := Store.put (fun _ => none) s.excursions r (some b) }.syncWindow
    let s := s.rset R.SUP_STATUS (s.rget R.SUP_STATUS ||| BitVec.ofNat 32 (2 ^ r + 2 ^ (8 + r)))
    let late := (s.tilesIn (· == stEnded)).filter fun t => decide (b - 1000 * nsFs ≤ (s.tile t).lastE)
    let s := late.foldl (fun s t => s.suspectFlag t Sf.suspect) s
    let s := (List.range 64).foldl (fun s t => s.suspectSince t (b - 1000 * nsFs)) s
    (((s.suspectAll Sf.suspect).count R.SUP_EXC_COUNT).evCount 82)

def execSupplyExcursionBegin (rail : Fin 8) (s : State) : Host.Outcome State Fault Refusal := .next (doSupplyExcursionBegin rail s)

/-- An excursion of `ns` ends: its registers, record, event and fault, and the SUSPECT interval that runs on for 10 µs. -/
def State.excursionEnd (s : State) (r : Nat) (b : Int) (ns : Word) (inj : Bool := false) : State :=
  let stop := s.supStop.contains r
  let e := b + ns.toNat * nsFs
  let start := sysOf b
  let s := { s with excursions := Store.put (fun _ => none) s.excursions r none
                    windows := s.windows ++ [(b - 1000 * nsFs, e + 10000 * nsFs)], supStop := s.supStop.filter (· != r) }.syncWindow
  let s := s.rset R.SUP_STATUS (s.rget R.SUP_STATUS &&& ~~~(BitVec.ofNat 32 (2 ^ r)))
  let s := (s.setPair R.SUP_LAST_LO R.SUP_LAST_HI start).rset R.SUP_LAST_LEN ns
  let s := s.rset R.SUP_LAST_INFO (BitVec.ofNat 32 (8 * stop.toNat + r))
  let s := s.stage 0x31 ([BitVec.ofNat 8 r, 0, 0, 0] ++ wordBytes ns ++ [BitVec.ofNat 8 stop.toNat]) (!inj) inj (some (BitVec.ofNat 64 start))
  (s.chipEvent 0x204 [BitVec.ofNat 32 r, ns, BitVec.ofNat 32 stop.toNat]).raise 0x70000 3 inj

/-- SUPPLY_EXCURSION_END. -/
def doSupplyExcursionEnd (rail : Fin 8) (ns : Word) (s : State) : State :=
  match s.excursion rail.val with
  | some b => s.excursionEnd rail.val b ns
  | none => s

def execSupplyExcursionEnd (rail : Fin 8) (ns : Word) (s : State) : Host.Outcome State Fault Refusal :=
  .next (doSupplyExcursionEnd rail ns s)

/-- A controlled stop (R413). -/
def State.controlledStop (s : State) (inj : Bool := false) : State :=
  let l := s.tilesIn inStep
  let s := if inj then l.foldl (fun s t => s.suspectFlag t Sf.injected) s else s
  (s.endSteps l St.hwFault 14).raise 0x70000 4 inj

/-- Whether an excursion that began at the instant `b` can have lasted 20 µs by the next REFCLK edge. -/
def State.longExcursion (s : State) (b : Int) : Bool := decide (b + 20000 * nsFs < s.now + 10 * nsFs)

/-- CONTROLLED_STOP: an excursion has lasted longer than 20 µs. -/
def doControlledStop (rail : Fin 8) (s : State) : State :=
  let r := rail.val
  if !(s.excursion r).any s.longExcursion || s.supStop.contains r then s
  else { s with supStop := s.supStop ++ [r] }.controlledStop

def execControlledStop (rail : Fin 8) (s : State) : Host.Outcome State Fault Refusal := .next (doControlledStop rail s)

end Sys2Proof.Machine
end

