-- ==== Sys2Proof/Machine/TileRegs.lean ====
section
/-! DEFINITION. Writes to the registers of tiles and channels: what their chapters refuse and what a write does beside storing
(00_scope.md R5 to R7; 04_pattern_store.md R118; 06_pin_electronics.md R135, R142, R159; 07_time_measurement.md R178;
08_acquisition.md R203). -/

namespace Sys2Proof.Machine

/-- What a register word holds behind a write, by its access codes (R5 to R7). -/
def RegDesc.stored (d : RegDesc) (old v : Word) : Word :=
  (((old &&& ~~~d.rw) ||| (v &&& d.rw)) &&& ~~~(v &&& d.w1c)) ||| (v &&& d.w1s)

/-- A value that the tile register at an offset refuses with BAD_PARAM. -/
def tileBad (o : Nat) (v : Word) : Bool := (o == 0x308 && decide (16 < field v 8 4)) || (o == 0x620 && v == 0)

/-- A value that the channel register at an offset refuses with BAD_PARAM. -/
def State.chanBad (s : State) (ch o : Nat) (v : Word) : Bool :=
  if o = 0x40 then field v 1 0 == 3
  else if o = 0x58 then s.pmuCfgBad ch v
  else if o = 0x100 then field v 2 1 == 3 || (field v 2 1 == 2 && field v 7 4 == ch % 16)
  else if o = 0x108 then field v 24 0 == 0 || decide (0x1000000 < field v 24 0)
  else false

/-- A write to a tile register that its checks let through. -/
def State.tileWrite (s : State) (t o : Nat) (d : RegDesc) (v : Word) : State :=
  let a := 0x100000 + t * 0x10000 + o
  let s := s.rset a (d.stored (s.rget a) v)
  if o = 0x308 then s.segSync t else if o = 0x700 then s.syncPool t else s

/-- A write to a channel register that its checks let through. What the device measures at a write to PMU_CFG is a free value (log
entry 4). -/
def State.chanWrite (s : State) (ch o : Nat) (d : RegDesc) (v : Word) : State :=
  if o = 0x40 then s.chMode ch v
  else if o = 0x58 then
    let (w, s) := s.free
    s.pmuCfg ch v (w.setWidth 16)
  else if 0x80 ≤ o ∧ o ≤ 0xA8 then s.levelCode ch ((o - 0x80) / 4) (v.setWidth 16)
  else
    let a := 0x500000 + ch * 0x400 + o
    s.rset a (d.stored (s.rget a) v)

end Sys2Proof.Machine
end

