-- ==== Sys2Proof/Machine/Security.lean ====
section
/-! DEFINITION. Sealed bundles, attestations, the life cycle, identity and tamper (13_security.md). The results of signature checks, and
of the certificate's beyond its profile, come with the commands (log entry 5). -/

namespace Sys2Proof.Machine

/-! ## Signing (R314, R338 to R340) -/

/-- Whether the device can sign, which draws a nonce: behind a failed health test of the noise source only once a reseed has passed, and
whether one has is a free value (log entry 4). -/
def State.signable (s : State) : Bool × State :=
  let (w, s) := s.free
  if s.drbgBad then (w.getLsbD 0, { s with drbgBad := !w.getLsbD 0 }) else (true, s)

/-- An attestation, signed now (Table 13.11). -/
def State.attestation (s : State) (r : StepRec) (nonce : List Byte) : List Byte :=
  let m := tileMask r.tiles
  let sites := r.bins.flatMap fun b => [BitVec.ofNat 8 b.1, BitVec.ofNat 8 b.2]
  let body := leBytes 4 1 ++ wordBytes r.flags ++ leBytes 2 (s.fget R.CHIP_ID_ID) ++
    [BitVec.ofNat 8 (s.fget R.LC_STATUS_STATE), 0] ++ s.deviceId ++ fit 48 r.bundleDigest ++ digest r.repImages ++
      wordBytes m.1 ++ wordBytes m.2 ++ wordBytes r.epoch ++ leBytes 8 (sysOf r.startAt) ++
    leBytes 8 (sysOf r.endAt) ++ leBytes 8 s.sysTime.toNat ++ wordBytes r.mrnSeq ++ wordBytes (s.rget R.MCODE_VERSION) ++
    ((List.range 12).flatMap fun k => wordBytes (s.rget (R.PATCH_DIGEST k))) ++ wordBytes r.policy ++ wordBytes r.repGen ++
    nonce ++ leBytes 2 r.bins.length ++ [0, 0] ++ sites ++ List.replicate (sites.length % 4) 0
  body ++ idkSigned s.freeCtr body

/-- ATTEST (R339). -/
def doAttest (q : Req) (s : State) : State :=
  s.request 0x61 q fun s =>
    let l := q.tiles 0
    if s.fget R.LC_STATUS_STATE = 3 then s.fail 0x61 q St.lifecycle
    else if !s.flag R.LC_STATUS_PUF_OK then s.fail 0x61 q St.hwFault
    else match s.steps.find? fun (r : StepRec) => r.tiles == l && l.all s.idle with
    | none => s.fail 0x61 q St.badParam
    | some r =>
      if 256 ≤ s.splits.length then s.fail 0x61 q St.busy
      else
        let old := s.attests.filter fun e => (s.splitOf e.1).isSome
        { s with attests := (s.ids, r) :: old }.start 0x61 q

/-- ATTESTATION_SIGNED: the signature of an ATTEST, or of the automatic attestation of the step that merged first. -/
def doAttestationSigned (o : Option OpRef) (s : State) : State :=
  match o with
  | none =>
    match s.merges with
    | [] => s
    | m :: _ =>
      let (ok, s) := s.signable
      if ok then (s.count R.ATT_COUNT_COUNT).finishStep m (s.attestation m.record (List.replicate 16 0)) else s
  | some o =>
    match s.split? 0x61 o with
    | none => s
    | some x => match s.attests.find? fun e => e.1 == x.id with
    | some e =>
      let (ok, s) := s.signable
      if ok then
        let nonce := (x.params.drop 2).flatMap wordBytes
        ({ s with attests := s.attests.filter fun y => y.1 != x.id }.count R.ATT_COUNT_COUNT).complete x St.ok []
          (s.attestation e.2 (fit 16 nonce))
      else s
    | none => s

def execAttestationSigned (o : Option OpRef) (s : State) : Host.Outcome State Fault Refusal := .next (doAttestationSigned o s)

/-- DRBG_HEALTH_TEST_FAIL (Table 13.13). -/
def doDrbgHealthTestFail (s : State) : State := { s with drbgBad := true }.raise 0x50000 7

def execDrbgHealthTestFail (s : State) : Host.Outcome State Fault Refusal := .next (doDrbgHealthTestFail s)

/-- IDENTITY (R315, R316). -/
def doIdentity (q : Req) (s : State) : State :=
  s.request 0x63 q fun s =>
    if 3 ≤ q.n 0 then s.fail 0x63 q St.badParam
    else if !s.flag R.LC_STATUS_PUF_OK then s.fail 0x63 q St.hwFault
    else match q.n 0 with
    | 0 =>
      if s.certBad || s.fget R.LC_STATUS_STATE == 0 then s.fail 0x63 q St.hwFault
      else s.reply 0x63 q St.ok [] (s.cert.getD Config.certificate)
    | 1 => s.reply 0x63 q St.ok [] idkPub
    | _ =>
      let (ok, s) := s.signable
      let lc := s.fget R.LC_STATUS_STATE
      let body := s.deviceId ++ idkPub ++ kakPub ++
        [BitVec.ofNat 8 lc, BitVec.ofNat 8 (s.fget R.LC_STATUS_LC_COUNT)] ++
        (if lc = 2 then s.ownerDigest else List.replicate 48 0) ++ List.replicate 4 0
      if ok then s.reply 0x63 q St.ok [] (body ++ idkSigned s.freeCtr body) else s.fail 0x63 q St.hwFault

/-! ## Tamper (R320, R321) -/

/-- SEALBLK follows TAMPER_GEN and the generation acknowledged. -/
def State.syncSealBlk (s : State) : State :=
  s.setFlag R.LC_STATUS_SEALBLK (s.sealStuck || decide (s.ackGen < s.fget R.TAMPER_GEN_GEN))

/-- A tamper detector acts: the steps end at detection, then the vault is wiped. -/
def State.tamper (s : State) (src : BitVec 6) (inj : Bool := false) : State :=
  if src = 0 then s
  else
    let s := if inj then s.suspectAll Sf.injected else s
    let s := s.rset R.TAMPER_STATUS (s.rget R.TAMPER_STATUS ||| src.setWidth 32)
    let s := (s.suspectAll Sf.tamper).endSteps (List.range 64) St.hwFault 11
    let s := s.vaultWipe
    let gen := s.fget R.TAMPER_GEN_GEN
    let s := if s.fget R.LC_STATUS_STATE != 2 then s
      else if gen < 64 then s.fset R.TAMPER_GEN_GEN (gen + 1)
      else { s with sealStuck := true }
    let s := s.syncSealBlk
    let s := s.stage 0x20 [src.setWidth 8, BitVec.ofNat 8 (s.fget R.TAMPER_GEN_GEN)] (!inj) inj
    let s := s.chipEvent 0x400 [src.setWidth 32]
    s.raises (((List.range 6).filter fun k => src.getLsbD k).map fun k => (0x50000, k)) inj

/-- TAMPER_DETECT. -/
def doTamperDetect (src : BitVec 6) (s : State) : State := s.tamper src

def execTamperDetect (src : BitVec 6) (s : State) : Host.Outcome State Fault Refusal := .next (doTamperDetect src s)

/-! ## Bundles (R322 to R330) -/

/-- Whether part 0 has the layout of Table 13.6 and names the given tiles. -/
def part0Ok (b : List Byte) (lo hi : Word) : Bool :=
  decide (416 ≤ b.length) && leNat (sub b 0 3) == 1 && decide (1 ≤ leNat (sub b 4 7) ∧ leNat (sub b 4 7) ≤ 4096) &&
    sub b 16 23 == wordBytes lo ++ wordBytes hi && decide (leNat (sub b 32 35) ≤ 13312) &&
    decide (1 ≤ recipients b ∧ recipients b ≤ 1017) && b.length == 416 + 64 * recipients b &&
    allZero (sub b 36 63) && allZero (sub b 258 263) && allZero (sub b 412 415)

/-- The bundles that a mask of tiles meets, and those that do not lie within it. -/
def State.bundlesMeet (s : State) (l : List Nat) : List Nat :=
  (List.range 4).filter fun n => s.flag (R.BUNDLE_CTL_VALID n) &&
    (tilesOf (s.rget (R.BUNDLE_TILES_LO n)) (s.rget (R.BUNDLE_TILES_HI n))).any l.contains
def State.bundlesOutside (s : State) (l : List Nat) : List Nat :=
  (List.range 4).filter fun n => s.flag (R.BUNDLE_CTL_VALID n) &&
    !(tilesOf (s.rget (R.BUNDLE_TILES_LO n)) (s.rget (R.BUNDLE_TILES_HI n))).all l.contains

/-- The bundle that a part 0 begins, with its key. -/
def newBundle (b key : List Byte) : Bundle :=
  { digest := digest (sub b 0 311), key := key, id := sub b 8 15, seq0 := leNat (sub b 28 31) }

/-- The bytes that the staging region holds (14_memories.md Table 14.3, R359). -/
def State.stagingRoom (s : State) : Nat := ([4, 5].filter fun k => !s.flag (bitFld R.FIRN_RETIRED k)).length * 0x100000

/-- SEAL_LOAD of part 0: checks 3 to 7 of R326. -/
def State.sealPart0 (s : State) (q : Req) : State :=
  let l := q.tiles 0
  let b := q.payload
  if l.any s.tileFenced then s.fail 0x60 q St.fenced
  else if s.staging.isSome || l.any (fun t => !s.idle t || decide (2 ≤ s.power t)) then s.fail 0x60 q St.busy
  else if !part0Ok b (q.p 0) (q.p 1) then s.fail 0x60 q St.badParam
  else if !s.ownerKey (sub b 64 160) || !q.verdict.sigOk || (s.unwrap b).isNone then s.fail 0x60 q St.denied
  else if (s.bundlesOutside l).length = 4 ∨ 256 ≤ s.splits.length then s.fail 0x60 q St.busy
  else
    let g : Staging :=
      { session := q.session, tilesLo := q.p 0, tilesHi := q.p 1, nextPart := 0, nextIndex := 1, nsect := leNat (sub b 4 7)
        bytes := 0, policy := BitVec.ofNat 32 (leNat (sub b 24 27)), bundle := newBundle b ((s.unwrap b).getD []), sectDigest := sub b 264 311
        received := [], sections := [], at_ := s.now }
    ({ s with staging := some g }.setFlag R.LC_STATUS_STAGING true).start 0x60 q

/-- SEAL_LOAD of a later part (R326, R346). -/
def State.sealPart (s : State) (q : Req) : State :=
  match s.staging with
  | none => s.fail 0x60 q St.badParam
  | some g =>
    if g.session != q.session then s.fail 0x60 q St.badParam
    else if g.nextPart ≠ q.n 2 % 256 ∨ g.tilesLo ≠ q.p 0 ∨ g.tilesHi ≠ q.p 1 then (s.fail 0x60 q St.badParam).stagingDrop St.badParam
    else if s.stagingRoom < g.bytes + q.payload.length then (s.fail 0x60 q St.busy).stagingDrop St.busy
    else if 256 ≤ s.splits.length then s.fail 0x60 q St.busy
    else { s with staging := some { g with bytes := g.bytes + q.payload.length } }.start 0x60 q

/-- SEAL_LOAD with PART 0, LAST = 1 and no payload: the bundles of the named tiles are removed (R330). -/
def State.unload (s : State) (q : Req) : State :=
  let l := q.tiles 0
  let hit := s.bundlesMeet l
  let busy := hit.any fun n => (tilesOf (s.rget (R.BUNDLE_TILES_LO n)) (s.rget (R.BUNDLE_TILES_HI n))).any fun t => !s.idle t
  if l.any s.tileFenced then s.fail 0x60 q St.fenced
  else if busy || s.staging.isSome || l.any (fun t => !s.idle t || decide (2 ≤ s.power t)) then s.fail 0x60 q St.busy
  else if hit.isEmpty then s.fail 0x60 q St.badParam
  else (hit.foldl (fun s n => s.bundleRemove n 2) s).reply 0x60 q St.ok

/-- SEAL_LOAD. -/
def doSealLoad (q : Req) (s : State) : State :=
  s.wakeEngine.request 0x60 q fun s =>
    let part := q.n 2 % 256
    let last := (q.p 2).getLsbD 8
    if 512 ≤ q.n 2 then s.fail 0x60 q St.badParam
    else if s.flag R.BOOT_STATUS_RECOVERY then s.fail 0x60 q St.busy
    else if s.fget R.LC_STATUS_STATE ≠ 2 ∨ s.flag R.LC_STATUS_SEALBLK then s.fail 0x60 q St.lifecycle
    else if !s.flag R.LC_STATUS_PUF_OK || s.sealForever then s.fail 0x60 q St.hwFault
    else if s.flag R.ENG_STATUS_HOLDING then s.fail 0x60 q St.busy
    else if part = 0 ∧ last ∧ q.payload.isEmpty then s.unload q
    else if part = 0 then s.sealPart0 q
    else s.sealPart q

/-! ## Sections (R325) -/

/-- A section as received: header, header fields, ciphertext and tag. -/
structure RawSect where
  head : List Byte
  typ : Nat
  index : Nat
  lo : Word
  hi : Word
  cipher : List Byte
  tag : List Byte

/-- The whole sections of a part; none where they do not fill it. `fuel` bounds their number. -/
def rawSects : Nat → List Byte → Option (List RawSect)
  | _, [] => some []
  | 0, _ => none
  | fuel + 1, b =>
    let n := leNat (sub b 4 7)
    if b.length < 32 + n then none
    else
      let w (i : Nat) : Word := BitVec.ofNat 32 (leNat (sub b i (i + 3)))
      (rawSects fuel (b.drop (32 + n))).map fun r =>
        { head := b.take 16, tag := (b.drop (16 + n)).take 16, typ := leNat (sub b 0 1), index := leNat (sub b 2 3)
          lo := w 8, hi := w 12, cipher := (b.drop 16).take n } :: r

/-- Whether the headers of a part's sections run on from `index` and keep to the bundle's tiles and types. -/
def headersOk (g : Staging) : Nat → List RawSect → Bool
  | _, [] => true
  | index, r :: l =>
    r.index == index && decide (index ≤ g.nsect) && decide (1 ≤ r.typ ∧ r.typ ≤ 7) && decide (8 ≤ r.cipher.length) &&
      (r.lo &&& ~~~g.tilesLo) == 0 && (r.hi &&& ~~~g.tilesHi) == 0 && headersOk g (index + 1) l

/-- The initialisation vector of a section (R324). -/
def sectIv (g : Staging) (r : RawSect) : List Byte := g.bundle.id ++ beBytes r.index

/-- Whether the tag of a section is that of its header and ciphertext. -/
def tagOk (g : Staging) (r : RawSect) : Bool := gcmTag g.bundle.key (sectIv g r) r.head r.cipher == r.tag

/-- A section decrypted: OFFSET and data of its plaintext. -/
def openSect (g : Staging) (r : RawSect) : Section :=
  let plain := gcmBytes g.bundle.key (sectIv g r) 0 r.cipher
  { typ := r.typ, tilesLo := r.lo, tilesHi := r.hi, offset := leNat (plain.take 4), data := plain.drop 8 }

/-- The address and value pairs of a REGS section. -/
def regPairs : List Word → List (Nat × Word)
  | a :: v :: r => (a.toNat, v) :: regPairs r
  | _ => []

def Section.tiles (x : Section) : List Nat := tilesOf x.tilesLo x.tilesHi

/-- Whether a REGS section may name an address: a register of Table 13.9 on its tiles or their channels, or a SHARE_MASK word. -/
def regsMayName (l : List Nat) (a : Nat) : Bool :=
  a % 4 == 0 && match regAt a with
    | some (b, i, _, d) =>
      (d.sealW && ((b == .tile && l.contains i) || (b == .chan && l.contains (i / 16)))) || (b == .chip && d.shSeal)
    | none => false

/-- Whether a section's contents fit its target (Table 13.7). -/
def sectOk (x : Section) : Bool :=
  let stop := x.offset + x.data.length
  match x.typ with
  | 1 => decide (stop ≤ 0x40000)
  | 2 => decide (stop ≤ 0x4000)
  | 3 => decide (stop ≤ 0x8000)
  | 4 => x.offset == 0 && x.data.length % 8 == 0 && (regPairs (wordsOf x.data)).all fun e => regsMayName x.tiles e.1
  | 5 => decide (stop ≤ 0x8000)
  | 6 => x.data.length % 16 == 0 && decide (x.offset + x.data.length / 16 ≤ 13312)
  | _ => x.offset == 0 && x.data.length % 16 == 0 && decide (x.data.length ≤ 1024)

/-! ## Staging and installation (R327, R328) -/

/-- Chunks of 16 bytes. -/
def chunks16 (l : List Byte) : List (List Byte) := (List.range (l.length / 16)).map fun i => (l.drop (16 * i)).take 16

/-- A limit entry (R336). -/
def limitOf (b : List Byte) : Limit :=
  { src := leNat (sub b 0 0), site := leNat (sub b 1 1), ch := leNat (sub b 2 3) % 1024
    lo := signed 32 (leNat (sub b 4 7)), hi := signed 32 (leNat (sub b 8 11)) }

/-- What a section leaves in the vault: tags, limits, and the SHARE_MASK words it writes. -/
def Bundle.enter (b : Bundle) (x : Section) : Bundle :=
  match x.typ with
  | 4 => { b with shareWords := b.shareWords ++ (((regPairs (wordsOf x.data)).map (·.1)).filter fun a =>
      decide (a < 0x10000) && !b.shareWords.contains a) }
  | 6 =>
    let l := (chunks16 x.data).zip (List.range (x.data.length / 16))
    { b with tags := l.foldl (fun m e => Store.put (fun _ => none) m (x.offset + e.2) (some e.1)) b.tags }
  | 7 => { b with limits := (b.limits ++ (chunks16 x.data).map limitOf).take 64 }
  | _ => b

/-- Whether a register refuses the value of a REGS pair, which then is not written: its own rule, or a mode for a fenced channel. -/
def State.sectRefused (s : State) (e : Nat × Word) : Bool :=
  match regAt e.1 with
  | some (.tile, _, _, _) => tileBad ((e.1 - 0x100000) % 0x10000) e.2
  | some (.chan, ch, _, _) =>
    let o := (e.1 - 0x500000) % 0x400
    s.chanBad ch o e.2 || (o == 0x40 && s.chanFenced ch)
  | _ => false

/-- A pair of a REGS section is written. -/
def State.sectReg (s : State) (e : Nat × Word) : State :=
  if s.sectRefused e then s
  else match regAt e.1 with
  | some (.tile, t, _, d) => s.tileWrite t ((e.1 - 0x100000) % 0x10000) d e.2
  | some (.chan, ch, _, d) => s.chanWrite ch ((e.1 - 0x500000) % 0x400) d e.2
  | some (.chip, _, _, _) => s.rset e.1 e.2
  | _ => s

/-- A section is written into its tiles. -/
def State.sectWrite (s : State) (x : Section) : State :=
  let into (space base : Nat) : State := x.tiles.foldl (fun s t =>
    (s.mwrite space t (base + x.offset) x.data).eccFresh space (s.coreOf t) (base + x.offset) x.data.length) s
  match x.typ with
  | 1 => into 2 0
  | 2 => into 4 0
  | 3 => into 3 0
  | 4 => (regPairs (wordsOf x.data)).foldl (fun s e => s.sectReg e) s
  | 5 => into 5 0x78000
  | _ => s

/-- The bundle of a finished staging is installed (R328). -/
def State.install (s : State) (g : Staging) (x : Split) : State :=
  let l := tilesOf g.tilesLo g.tilesHi
  let s := { s with staging := none }.setFlag R.LC_STATUS_STAGING false
  let s := (s.bundlesMeet l).foldl (fun s n => s.bundleRemove n 1) s
  let named := ((g.sections.filter fun (y : Section) => y.typ == 4).flatMap fun (y : Section) => regPairs (wordsOf y.data)).filterMap
    fun e => if s.sectRefused e then none else some e.1
  let s := l.foldl (fun s t => s.resetSealedBut t named.contains) s
  let s := g.sections.foldl (fun s (y : Section) => s.sectWrite y) s
  match (List.range 4).find? fun n => !s.flag (R.BUNDLE_CTL_VALID n) with
  | none => s.complete x St.busy
  | some n =>
    let b := g.sections.foldl Bundle.enter g.bundle
    let s := { s with bundles := Store.put (fun _ => {}) s.bundles n b }
    let s := (((s.rset (R.BUNDLE_CTL n) 0x80000000).rset (R.BUNDLE_TILES_LO n) g.tilesLo).rset (R.BUNDLE_TILES_HI n) g.tilesHi).rset
      (R.BUNDLE_POLICY n) g.policy
    let s := (s.rset (R.BUNDLE_ID_LO n) (BitVec.ofNat 32 (leNat (b.id.take 4)))).rset (R.BUNDLE_ID_HI n)
      (BitVec.ofNat 32 (leNat (b.id.drop 4)))
    (s.syncSeal.chipEvent 0x402 [BitVec.ofNat 32 n, g.tilesLo, g.tilesHi]).complete x St.ok [BitVec.ofNat 32 n]

/-- The end of a part's staging: an ordinary part completes; the last one is checked and installed. -/
def State.partStaged (s : State) (g : Staging) (x : Split) (last : Bool) : State :=
  let g := { g with nextPart := g.nextPart + 1, at_ := s.now }
  let s := { s with staging := some g }
  if !last then s.complete x St.ok
  else if g.nextIndex ≠ g.nsect + 1 ∨ digest g.received ≠ g.sectDigest then s.stagingDrop St.crcError
  else if (tilesOf g.tilesLo g.tilesHi).any fun t => !s.idle t then s.stagingDrop St.busy
  else s.install g x

/-- SEAL_PART_STAGED. -/
def doSealPartStaged (o : OpRef) (s : State) : State :=
  match s.split? 0x60 o, s.staging with
  | some x, some g =>
    let p := (x.params.getD 2 0)
    let last := p.getLsbD 8
    if p.toNat % 256 = 0 then s.partStaged g x last
    else match rawSects x.payload.length x.payload with
      | none => s.stagingDrop St.badParam
      | some l =>
        if l.isEmpty || !headersOk g g.nextIndex l then s.stagingDrop St.badParam
        else if !l.all (tagOk g) then s.stagingDrop St.crcError
        else
          let new := l.map (openSect g)
          if !new.all sectOk then s.stagingDrop St.badParam
          else s.partStaged { g with nextIndex := g.nextIndex + l.length, received := g.received ++ x.payload
                                     sections := g.sections ++ new } x last
  | _, _ => s

/-- The row's verdict decides nothing: the tags of the part are computed. -/
def execSealPartStaged (o : OpRef) (_ : Verdict) (s : State) : Host.Outcome State Fault Refusal := .next (doSealPartStaged o s)

/-- Whether 10 s have passed since the last part was staged. -/
def State.stagingOld (s : State) : Bool := s.staging.any fun (g : Staging) => decide (g.at_ + 10 * 65536000000000000 ≤ s.now)

/-- STAGING_TIMEOUT: 10 s with no next part; none runs out while a part is being staged. -/
def doStagingTimeout (s : State) : State :=
  if !s.stagingOld || s.splits.any fun (x : Split) => x.opcode == 0x60 then s else s.stagingDrop St.aborted

def execStagingTimeout (s : State) : Host.Outcome State Fault Refusal := .next (doStagingTimeout s)

/-! ## The life cycle (R310 to R313) -/

/-- Table 13.1: whether a transition exists, and the privilege it needs. -/
def lcNeeds (old new : Nat) : Option Nat :=
  match old, new with
  | 0, 1 => some 4
  | 1, 2 => some 3
  | 2, 2 => some 3
  | 2, 1 => some 3
  | 2, 3 => some 3
  | 0, 3 => some 4
  | 1, 3 => some 4
  | _, _ => none

/-- Whether an authorisation has the layout of Table 13.2 for a target. -/
def authLayout (b : List Byte) (target : Nat) : Bool :=
  let acc := (b.getD 6 0).toNat
  let n := leNat (sub b 224 227)
  leNat (sub b 0 3) == 1 && (b.getD 4 0).toNat == target && (if target = 2 then decide (acc < 8) else acc == 0) &&
    b.getD 7 0 == 0 && allZero (sub b 121 127) &&
    (if target = 1 then decide (228 ≤ b.length) && decide (1 ≤ n ∧ n ≤ 1024) && b.length == 228 + n else b.length == 224)

/-- Whether the signer of an authorisation is the key that Table 13.1 asks for: in OWNED the owner's, for a first ownership the one that the
session's ticket names, else the vendor's. -/
def State.signerOk (s : State) (q : Req) : Bool :=
  let key := sub q.payload 24 120
  if s.fget R.LC_STATUS_STATE = 2 then s.ownerKey key
  else if s.fget R.LC_STATUS_STATE = 1 ∧ q.n 0 = 2 then pointOk key && key == (s.ctx q.session.toNat).ticket
  else vendorKey key

/-- LIFECYCLE (R312). -/
def doLifecycle (q : Req) (s : State) : State :=
  s.request 0x62 q fun s =>
    let b := q.payload
    if 16 ≤ q.n 0 then s.fail 0x62 q St.badParam
    else if 32 ≤ s.fget R.LC_STATUS_LC_COUNT then s.fail 0x62 q St.lifecycle
    else match lcNeeds (s.fget R.LC_STATUS_STATE) (q.n 0) with
    | none => s.fail 0x62 q St.lifecycle
    | some priv =>
      if s.fget (R.SESS_STAT_PRIV q.session.toNat) < priv then s.fail 0x62 q St.denied
      else if !(s.tilesIn (· != stIdle)).isEmpty || s.staging.isSome then s.fail 0x62 q St.busy
      else if !authLayout b (q.n 0) then s.fail 0x62 q St.badParam
      else if allZero (sub b 8 23) || sub b 8 23 != s.deviceId || (b.getD 5 0).toNat != s.fget R.LC_STATUS_LC_COUNT ||
          !s.signerOk q || !q.verdict.sigOk then s.fail 0x62 q St.denied
      else if q.n 0 = 1 ∧ !(q.verdict.certOk && s.certProfile (b.drop 228)) then s.fail 0x62 q St.badParam
      else if 256 ≤ s.splits.length ∨ s.splits.any fun (x : Split) => x.opcode == 0x62 then s.fail 0x62 q St.busy
      else s.start 0x62 q

/-- The device leaves BLANK: every injection setting and every INJECTED bit is cleared (R313). -/
def State.leaveBlank (s : State) : State :=
  { s with injHeld := [], eccWords := [] }.resetRegs fun a => fltOffset a == some 4

/-- Every session closes without a reply. -/
def State.closeAll (s : State) : State :=
  let s := { s with items := s.items.filter fun i => match i with
    | .request op _ => op == 0x01
    | _ => true }
  (List.range 32).foldl (fun s n => if s.sessOpen n then s.closeSession n else s) s

/-- The new life-cycle record takes effect. -/
def State.lcRecord (s : State) (b : List Byte) (new : Nat) : State :=
  let old := s.fget R.LC_STATUS_STATE
  let s := (s.fset R.LC_STATUS_STATE new).fset R.LC_STATUS_LC_COUNT (s.fget R.LC_STATUS_LC_COUNT + 1)
  let s := s.fset R.LC_STATUS_ACCESS (if new = 2 then (b.getD 6 0).toNat else 0)
  let owner := if new = 2 then digest (sub b 24 120) else List.replicate 48 0
  let s := (List.range 12).foldl (fun s k =>
    s.rset (R.OWNER_DIGEST k) (BitVec.ofNat 32 (leNat (sub owner (4 * k) (4 * k + 3))))) s
  let s := { s with ackGen := s.fget R.TAMPER_GEN_GEN }.syncSealBlk
  let s := if new = 1 then { s with cert := some (b.drop 228), certDigest := some (digest (b.drop 228)), certBad := false } else s
  let s := if old = 0 then s.leaveBlank else s
  let s := s.stage 0x21 [BitVec.ofNat 8 old, BitVec.ofNat 8 new, BitVec.ofNat 8 (s.fget R.LC_STATUS_LC_COUNT)]
  s.chipEvent 0x401 [BitVec.ofNat 32 old, BitVec.ofNat 32 new]

/-- LIFECYCLE_TRANSITION: the vault is wiped and the record written; once the completion event has been sent, every session closes. -/
def doLifecycleTransition (otpOk : Bool) (s : State) : State :=
  match s.splits.find? fun (x : Split) => x.opcode == 0x62 with
  | none => s
  | some x =>
    let s := s.vaultWipe
    let new := (x.params.getD 0 0).toNat % 16
    if otpOk then
      let s := if new = 2 then { s with tap := 2 } else s
      (s.lcRecord x.payload new).complete x St.ok [] [] .closeAll
    else s.complete x St.hwFault

def execLifecycleTransition (otpOk : Bool) (s : State) : Host.Outcome State Fault Refusal := .next (doLifecycleTransition otpOk s)

end Sys2Proof.Machine
end

