-- ==== Sys2Proof/Machine/Moraine.lean ====
section
/-! DEFINITION. The moraine, event counters, frost and the fatal-error dump (18_moraine_counters.md). -/

namespace Sys2Proof.Machine

/-! ## Flushing and clearing (R420, R422) -/

/-- Staged records have been written to flash; a LOST record follows if records were lost. -/
def State.flushed (s : State) : State :=
  let s := ({ s with staged := [] }.fset R.MRN_STATUS_STAGED 0).setFlag R.MRN_STATUS_FLUSHING false
  let n := s.mrnLost
  if n = 0 then s
  else ({ s with mrnLost := 0 }.stage 0x02 (leBytes 4 n)).chipEvent 0x502 [BitVec.ofNat 32 n]

/-- MORAINE_FLUSH; a write that fails is retried, and the records stay staged, as they do while boundary scan holds the balls
(21_electrical_package.md R483) and while the flash is `busy` with an operation that the host started (19_management_ports.md R449). -/
def doMoraineFlush (ok busy : Bool) (s : State) : State :=
  if s.bscan || busy then s
  else if ok then s.flushed else (s.setFlag R.MRN_STATUS_FLASHERR true).raise 0x80000 2

def execMoraineFlush (r : FlashReply) (s : State) : Host.Outcome State Fault Refusal := .next (doMoraineFlush r.ok r.busy s)

/-- MRN_FLUSH: the flush runs from the write of 1 to FLUSH until MORAINE_FLUSH. -/
def doMrnFlush (s : State) : State := (s.setFlag R.MRN_STATUS_FLUSHING true).answered St.ok

def execMrnFlush (s : State) : Host.Outcome State Fault Refusal := .next (doMrnFlush s)

/-- Every circulating record is marked cleared, and a CLEARED record follows. -/
def State.mrnCleared (s : State) (session : Nat) : State :=
  let next := s.fget R.MRN_SEQ_SEQ
  let first := s.fget R.MRN_OLDEST_SEQ
  let last := (next + 2 ^ 32 - 1) % 2 ^ 32
  let s := { s with mrn := s.mrn.filter fun e => decide (e.1 < 512), mrnClear := next }.oldest
  (s.stage 0x03 (leBytes 4 first ++ leBytes 4 last ++ [BitVec.ofNat 8 session])).chipEvent 0x503
    [BitVec.ofNat 32 first, BitVec.ofNat 32 last]

/-- The privilege that clears the moraine. -/
def State.clearPriv (s : State) : Nat := if s.fget R.LC_STATUS_STATE = 2 then 3 else 4

/-- MRN_CLEAR. -/
def doMrnClear (session : BitVec 5) (s : State) : State :=
  let n := session.toNat
  if !s.sessOpen n || decide (s.fget (R.SESS_STAT_PRIV n) < s.clearPriv) then s.answered St.denied
  else (s.mrnCleared n).answered St.ok

def execMrnClear (session : BitVec 5) (s : State) : Host.Outcome State Fault Refusal := .next (doMrnClear session s)

/-! ## The window (R421, Table 18.7) -/

/-- A record's 64 bytes; without a PUF key the MAC is zeros (Table 18.1, R418). -/
def mrnBytes (seq : Nat) (r : MrnRec) : List Byte :=
  let b := leBytes 4 seq ++ wordBytes r.hours ++ wordBytes r.pwrcyc ++ leBytes 8 r.time.toNat ++ leBytes 2 r.code.toNat ++
    [r.flags, 0] ++ fit 24 r.data
  b ++ (if r.flags.getLsbD 3 then List.replicate 16 0 else recordMac b)

/-- The load of the record that the cursor names starts. -/
def State.mrnLoad (s : State) (c : Nat) (seq : Word) : State :=
  s.modCtx c fun x => { x with cursor := seq, rstat := (x.rstat &&& 0x100) ||| 0x8 }

/-- MRN_CURSOR_WRITE. -/
def doMrnCursorWrite (ctx : Fin 33) (seq : Word) (s : State) : State := (s.mrnLoad ctx.val seq).answered St.ok

def execMrnCursorWrite (ctx : Fin 33) (seq : Word) (s : State) : Host.Outcome State Fault Refusal := .next (doMrnCursorWrite ctx seq s)

/-- Why a record is absent: 1 not yet written, 2 overwritten, 3 cleared. -/
def State.absence (s : State) (seq : Nat) : Nat :=
  let next := s.fget R.MRN_SEQ_SEQ
  if next ≤ seq then 1 else if 512 ≤ seq ∧ seq + 2048 < next then 2 else 3

/-- MRN_LOAD_DONE; `macOk` is the result of the check of the record's MAC. -/
def doMrnLoadDone (ctx : Fin 33) (macOk : Bool) (s : State) : State :=
  let c := ctx.val
  let x := s.ctx c
  let seq := x.cursor.toNat
  let keep := x.rstat &&& 0x100
  if !x.rstat.getLsbD 3 then s
  else match Store.get (fun _ => none) s.mrn seq with
  | none =>
    s.setCtx c { x with rstat := keep ||| BitVec.ofNat 32 (16 * s.absence seq), win := List.replicate 16 0 }
  | some r =>
    let bits : Word := BitVec.ofNat 32 (1 + 2 * macOk.toNat + 4 * (s.staged.contains seq).toNat)
    let s := s.setCtx c { x with rstat := keep ||| bits, win := wordsOf (mrnBytes seq r) }
    if macOk then s else (s.setFlag R.MRN_STATUS_AUTHFAIL true).raise 0x80000 0

def execMrnLoadDone (ctx : Fin 33) (macOk : Bool) (s : State) : Host.Outcome State Fault Refusal := .next (doMrnLoadDone ctx macOk s)

/-- MRN_WIN15_READ: with AUTOINC = 1 the cursor advances and the next load starts; a read while a load runs has no effect. -/
def doMrnWin15Read (ctx : Fin 33) (s : State) : State :=
  let x := s.ctx ctx.val
  if x.rstat.getLsbD 8 && !x.rstat.getLsbD 3 then s.mrnLoad ctx.val (x.cursor + 1) else s

def execMrnWin15Read (ctx : Fin 33) (s : State) : Host.Outcome State Fault Refusal := .next (doMrnWin15Read ctx s)

/-- OPERATING_TIME_TICK: HOURS advances by 1/16 h, and what depends on it follows (R417; 09_calibration.md R236, R237; 16_self_repair.md
R386). -/
def doOperatingTimeTick (s : State) : State :=
  let s := s.rset R.MRN_HOURS (s.rget R.MRN_HOURS + 1)
  let s := (List.range 68).foldl (fun s c => s.syncTrans c) s
  (List.range 1024).foldl (fun s ch => if s.power (ch / 16) = 3 then s else s.syncStale ch) s

def execOperatingTimeTick (s : State) : Host.Outcome State Fault Refusal := .next (doOperatingTimeTick s)

/-! ## Event counters and frost (R423, R427, R428) -/

def State.evcOf (s : State) (snapshot : Bool) (n : Nat) : Nat := Store.get (fun _ => 0) (if snapshot then s.evs else s.evc) n

/-- A read of EVC_LOn or EVS_LOn latches bits [47:32] for a context. -/
def State.evcLatch (s : State) (c n : Nat) (snapshot : Bool) : State :=
  let hi : Word := BitVec.ofNat 32 (s.evcOf snapshot n / 2 ^ 32)
  s.modCtx c fun x =>
    if snapshot then { x with evsHi := Store.put (fun _ => 0) x.evsHi n hi }
    else { x with evcHi := Store.put (fun _ => 0) x.evcHi n hi }

/-- EVC_LO_READ. -/
def doEvcLoRead (ctx : Fin 33) (n : Fin 384) (snapshot : Bool) (s : State) : State := s.evcLatch ctx.val n.val snapshot

def execEvcLoRead (ctx : Fin 33) (n : Fin 384) (snapshot : Bool) (s : State) : Host.Outcome State Fault Refusal :=
  .next (doEvcLoRead ctx n snapshot s)

/-- CNT_RESUME. -/
def doCntResume (s : State) : State := (s.setFlag R.CNT_CFG_FROZEN false).answered St.ok

def execCntResume (s : State) : Host.Outcome State Fault Refusal := .next (doCntResume s)

/-- The snapshot at S. -/
def State.frost (s : State) (at_ : Nat) : State :=
  let s := (List.range 64).foldl (fun s m => s.rset (R.PCNT_SNAP m) (s.rget (R.PCNT_VAL m))) { s with evs := s.evc }
  ((s.setPair R.FROST_TIME_LO R.FROST_TIME_HI at_).setFlag R.CNT_CFG_FROZEN true).setFlag R.FROST_STATUS_VALID true

/-- The first REFCLK edge at or after a system time (02_epoch_grid.md R37). -/
def State.refEdge (s : State) (t : Nat) : Nat := s.sysTime.toNat + (t - s.sysTime.toNat + 2559) / 2560 * 2560

/-- FROST. -/
def doFrost (q : Req) (s : State) : State :=
  s.request 0x75 q fun s =>
    let t := q.n 1 + 2 ^ 32 * q.n 2
    let edge := s.refEdge t
    if 2 ≤ q.n 0 then s.fail 0x75 q St.badParam
    else if q.n 0 = 0 then (s.frost s.sysTime.toNat).reply 0x75 q St.ok
    else if !s.flag R.TIME_STATUS_VALID || decide (edge < s.sysTime.toNat + 512000) then s.fail 0x75 q St.badParam
    else if s.flag R.FROST_STATUS_PENDING || decide (256 ≤ s.splits.length) then s.fail 0x75 q St.busy
    else (s.setFlag R.FROST_STATUS_PENDING true).start 0x75 q [edge]

/-- FROST_SNAPSHOT: the edge S of the timed FROST that waits. -/
def doFrostSnapshot (s : State) : State :=
  match s.splits.find? fun (x : Split) => x.opcode == 0x75 with
  | none => s
  | some x =>
    if s.sysTime.toNat < x.aux.headD 0 then s
    else ((s.frost (x.aux.headD 0)).setFlag R.FROST_STATUS_PENDING false).complete x St.ok

def execFrostSnapshot (s : State) : Host.Outcome State Fault Refusal := .next (doFrostSnapshot s)

/-! ## The fatal-error dump (R429 to R431) -/

/-- Bytes 0 to 59 of a dump's header (Table 18.4). -/
def dumpHead (d : Dump) : List Byte :=
  leBytes 4 1 ++ leBytes 4 d.length ++ [BitVec.ofNat 8 d.cause, 0, 0, 0] ++ wordBytes d.seq ++ leBytes 8 d.time.toNat ++
    wordBytes d.mcode ++ leBytes 2 d.chip ++ [BitVec.ofNat 8 d.lc, 0] ++ leBytes 4 5 ++ List.replicate 24 0

/-- The block instances of Table 22.1 in ascending base address: base, number of instances, stride, kind. -/
def dumpBlocks : List (Nat × Nat × Nat × Blk) :=
  [(0, 1, 0, .chip), (0x10000, 1, 0, .time), (0x20000, 12, 0x1000, .link), (0x40000, 1, 0, .eng), (0x50000, 1, 0, .sec),
    (0x60000, 1, 0, .safe), (0x70000, 1, 0, .pwr), (0x80000, 1, 0, .mor), (0x90000, 1, 0, .mgt), (0xA0000, 1, 0, .memc),
    (0x100000, 64, 0x10000, .tile), (0x500000, 1024, 0x400, .chan), (0x900000, 68, 0x1000, .core)]

def blockWords (b : Blk) : Nat := b.last / 4 + 1

/-- Word `w` of section REGISTERS: each block with its base and word count before its words, which `f` gives by address. -/
def regSect (f : Nat → Option Word) : List (Nat × Nat × Nat × Blk) → Nat → Option Word
  | [], _ => none
  | (base, n, stride, b) :: l, w =>
    let size := blockWords b + 2
    if w < n * size then
      let first := base + w / size * stride
      match w % size with
      | 0 => some (BitVec.ofNat 32 first)
      | 1 => some (BitVec.ofNat 32 (blockWords b))
      | k + 2 => f (first + 4 * k)
    else regSect f l (w - n * size)

/-- A register as the dump mover reads it, raw and without latches (R429); none for a word of which every session has its own. Registers
of Table 13.9 on a tile that holds a bundle are zeros (R430). -/
def DumpImage.word (m : DumpImage) (time : BitVec 64) (a : Nat) : Option Word :=
  match regAt a with
  | none => some 0
  | some (b, i, _, d) =>
    let w := Store.get regReset m.regs a &&& (d.rw ||| d.ro ||| d.w1c ||| d.w1s)
    let counter := b == .mor && decide (0x81000 ≤ a ∧ a < 0x83000)
    if d.sealW && ((b == .tile && m.bundled.contains i) || (b == .chan && m.bundled.contains (i / 16))) || m.shared.contains a then some 0
    else if d.ctx || a == R.SYSTIME_HI || (counter && a % 8 == 4) then none
    else if counter then some (BitVec.ofNat 32 (Store.get (fun _ => 0) (if 0x82000 ≤ a then m.evs else m.evc) (a % 0x1000 / 8)))
    else if a = R.SYSTIME_LO then some (time.setWidth 32)
    else if a = R.PP_RXDATA then some m.rx
    else if a = R.ENG_MAXLEN then some (BitVec.ofNat 32 m.maxLen)
    else if a = R.ENG_MAXCLK then some (BitVec.ofNat 32 m.maxClk)
    else if a = R.CAP_STATUS i ∧ b = .tile then some (setField w 17 17 (m.hold.contains i).toNat)
    else if a = R.TDC_STAT i ∧ b = .chan then
      some (setField w 1 1 (if field (Store.get regReset m.regs (R.TDC_CFG i)) 2 1 = 1 then 0 else 1))
    else some w

/-- The runs of words of Table 13.9 in a block: offset and length in bytes. -/
def sealedRuns (b : Blk) : List (Nat × Nat) :=
  ((List.range (blockWords b)).foldl (fun (l : List (Nat × Nat)) k =>
    if b.regs.any fun d => d.sealW && d.covers (4 * k) then
      match l with
      | (o, n) :: rest => if o + n = 4 * k then (o, n + 4) :: rest else (4 * k, 4) :: l
      | [] => [(4 * k, 4)]
    else l) []).reverse

/-- The stores of a sealed tile: sequence memory, timing-set memory, scramble store and the mask table of the capture store, by space and length
(R328). -/
def sealedStores : List (Nat × Nat) := [(2, 0x40000), (3, 0x8000), (4, 0x4000), (5, 0x8000)]

/-- The zeroed ranges: address and length (Table 18.5). The vault and every store marked sealed are listed too (R430), of each sealed segment
its space 1 and its number behind its tile's. -/
def DumpImage.zeroed (m : DumpImage) : List (Nat × Nat) :=
  [(Config.storeAddress 0x11 0, 0x100000)] ++ m.bundled.flatMap (fun t => sealedStores.map fun e => (Config.storeAddress e.1 t, e.2)) ++
    m.segs.map (fun e => (Config.storeAddress 1 (e.1 * 16 + e.2), 0x20000)) ++ m.shared.map (fun a => (a, 4)) ++
    m.bundled.flatMap (fun t => (sealedRuns .tile).map fun r => (0x100000 + t * 0x10000 + r.1, r.2)) ++
    (m.bundled.flatMap chansOf).flatMap fun ch => (sealedRuns .chan).map fun r => (0x500000 + ch * 0x400 + r.1, r.2)

/-- Where the patch digest lies in ENGINE, behind the 64 scratch registers, the four stack entries and the request. -/
def DumpImage.digestAt : Nat := 256 + 4 * Config.stackEntry + Config.requestDump

/-- The lengths of the five sections in bytes. -/
def DumpImage.lengths (m : DumpImage) : List Nat :=
  [DumpImage.digestAt + 48, 32 * 8 + 256 * 16, 4 * (dumpBlocks.map fun e => e.2.1 * (blockWords e.2.2.2 + 2)).sum, 128 * 64,
    8 * m.zeroed.length]

/-- Where section `k` begins: behind the header and the directory of five entries. -/
def DumpImage.start (m : DumpImage) (k : Nat) : Nat := 144 + (m.lengths.take k).sum

def DumpImage.size (m : DumpImage) : Nat := m.start 5

/-- Word `w` of the directory: ID, offset, length and FLAGS of each section; REGISTERS is the one that may have zeroed ranges. -/
def DumpImage.directory (m : DumpImage) (w : Nat) : Word :=
  let k := w / 4
  BitVec.ofNat 32 (match w % 4 with
    | 0 => k + 1
    | 1 => m.start k
    | 2 => m.lengths.getD k 0
    | _ => (k == 2 && !m.zeroed.isEmpty).toNat)

/-- A word of a dump, where the spec gives one: of ENGINE the scratch registers and its last 48 bytes, of SESSIONS the registers, REGISTERS, and
ZEROED. The operand is a section and an offset in it. -/
def Dump.sectWord (d : Dump) (k o : Nat) : Option Word :=
  let m := d.image
  match k with
  | 0 => if DumpImage.digestAt ≤ o then m.word d.time (R.PATCH_DIGEST ((o - DumpImage.digestAt) / 4)) else m.micro.scratch[o / 4]?
  | 1 => if o < 256 then m.word d.time (R.SESS_STAT 0 + o / 4 * 4) else none
  | 2 => regSect (m.word d.time) dumpBlocks (o / 4)
  | _ =>
    let r := m.zeroed.getD (o / 8) (0, 0)
    some (BitVec.ofNat 32 (if o % 8 < 4 then r.1 else r.2))

/-- A byte behind the header and its CRC; what the spec leaves open is a free byte (log entry 44). -/
def dumpBody (d : Dump) (i : Nat) : Byte :=
  let m := d.image
  let free := Config.dumpByte d.id i
  let part (w : Option Word) (n : Nat) : Byte := match w with
    | some v => (wordBytes v).getD n 0
    | none => free
  if i < 144 then part (some (m.directory ((i - 64) / 4))) (i % 4)
  else match (List.range 5).find? fun k => decide (i < m.start (k + 1)) with
    | none => free
    | some k =>
      let o := i - m.start k
      if k = 0 then part (d.sectWord 0 o) (if o < 256 then o % 4 else (o - DumpImage.digestAt) % 4)
      else if k = 3 then
        match m.staged[o / 64]? with
        | some r => (mrnBytes r.1 r.2).getD (o % 64) 0
        | none => free
      else part (d.sectWord k o) (o % 4)

/-- A byte of a dump: header, CRC-32C of the rest, directory and sections. -/
def dumpAt (d : Dump) (i : Nat) : Byte :=
  let head := dumpHead d
  if i < 60 then head.getD i 0
  else if i < 64 then
    let c := crcFold (dumpBody d) (d.length - 64) 64 (head.foldl crcByte 0xFFFFFFFF)
    (wordBytes (c ^^^ 0xFFFFFFFF)).getD (i - 60) 0
  else dumpBody d i

/-- What the mover reads of the state. -/
def State.dumpImage (s : State) : DumpImage :=
  { regs := s.regs, evc := s.evc, evs := s.evs, maxLen := s.maxLen, maxClk := s.maxClk, rx := s.pp.rx.headD 0
    hold := (List.range 64).filter fun t => !s.holdOver t (s.tileTime t s.now)
    bundled := (List.range 64).filter fun t => (s.bundleOf t).isSome
    segs := (List.range 64).flatMap fun t => ((List.range 16).filter fun i => s.segSealed t i).map fun i => (t, i)
    shared := ((List.range 128).map R.SHARE_MASK).filter fun a => s.sealedWrite a
    staged := s.staged.filterMap fun n => (Store.get (fun _ => none) s.mrn n : Option MrnRec).map fun r => (n, r)
    micro := s.micro }

/-- DUMP_READ. -/
def doDumpRead (q : Req) (s : State) : State :=
  s.request 0x74 q fun s =>
    let len := q.n 2
    let src := if q.n 0 = 0 then s.dump else s.dumpFlash
    let held := if q.n 0 = 0 then s.flag R.DUMP_STATUS_HELD else s.flag R.DUMP_STATUS_FLASHVALID
    if 2 ≤ q.n 0 ∨ len = 0 ∨ 65536 < len then s.fail 0x74 q St.badParam
    else if q.n 0 = 1 ∧ s.flag R.DUMP_STATUS_COPYING then s.fail 0x74 q St.busy
    else match held, src with
    | true, some d =>
      if d.length ≤ q.n 1 then s.fail 0x74 q St.badAddress
      else
        let n := min len (d.length - q.n 1)
        s.reply 0x74 q (if n = len then St.ok else St.part) [BitVec.ofNat 32 n]
          ((List.range n).map fun i => dumpAt d (q.n 1 + i))
    | _, _ => s.fail 0x74 q St.badParam

/-- The dump region of the firn without its retired banks (14_memories.md Table 14.3, R359). -/
def State.dumpRoom (s : State) : Nat := ([6, 7].filter fun k => !s.flag (bitFld R.FIRN_RETIRED k)).length * 0x100000

/-- The chip-level reaction to a trap of causes 1 to 4: that of the engine block's matching source (11_naljo_engine.md R280). -/
def State.trapReact (s : State) (cause : Nat) (inj : Bool := false) : State :=
  if 1 ≤ cause ∧ cause ≤ 4 then s.raise 0x40000 (cause - 1) inj else s

/-- A dump that cannot be written is missed. -/
def State.dumpMissed (s : State) (inj : Bool := false) : State := (s.count R.DUMP_STATUS_MISSED).raise 0x80000 3 inj

/-- The trap routine (R280, R429): the record, the start of the dump, and the reaction where no dump is written. The record names the
routine that the trap abandoned; with none, those fields are free values (log entry 4). -/
def State.trapRoutine (s : State) (cause : Nat) (inj : Bool := false) : State :=
  let s := (s.romRan.rset R.ENG_TRAP (BitVec.ofNat 32 (2 ^ 31 + cause))).evCount 8
  let (w, s) := s.free
  let (v, s) := s.free
  let seq := s.rget R.MRN_SEQ
  let doing : List Byte := match s.micro.trapped with
    | some (pc, op, n, tag) => if cause ≤ 4 then leBytes 2 pc ++ [op, BitVec.ofNat 8 n.toNat] ++ leBytes 2 tag.toNat
        else leBytes 2 w.toNat ++ wordBytes v
    | none => leBytes 2 w.toNat ++ wordBytes v
  let s := s.stage 0x11 ([BitVec.ofNat 8 cause] ++ [0] ++ doing) (!inj) inj
  let s := s.modMicro fun m => { m with trapped := none }
  if s.flag R.DUMP_STATUS_HELD || s.dumping.isSome then s.dumpMissed.trapReact cause inj
  else
    let d : Dump :=
      { id := s.freeCtr, cause := cause, seq := seq, time := s.sysTime, mcode := s.rget R.MCODE_VERSION
        chip := s.fget R.CHIP_ID_ID, lc := s.fget R.LC_STATUS_STATE
        inj := inj, length := min s.dumpRoom s.dumpImage.size, image := s.dumpImage }
    { s with dumping := some d, freeCtr := s.freeCtr + 1 }

/-- A dump is recorded and reported: 1 firn, 2 flash. -/
def State.dumpWritten (s : State) (d : Dump) (place : Nat) : State :=
  (s.stage 0x50 ([BitVec.ofNat 8 d.cause, BitVec.ofNat 8 place, 0, 0] ++ leBytes 4 d.length)).chipEvent 0x500
    [BitVec.ofNat 32 d.cause, BitVec.ofNat 32 place, BitVec.ofNat 32 d.length]

/-- DUMP_FIRN_WRITE_DONE: the copy to flash begins, which leaves the flash slot without a valid dump until its header is written.
After an uncorrectable error in the dump region the firn holds no dump (14_memories.md Table 14.4). -/
def doDumpFirnWriteDone (s : State) : State :=
  match s.dumping with
  | none => s
  | some d =>
    let s := { s with dumping := none, dump := some d }
    let s := (s.setFlag R.DUMP_STATUS_COPYING true).setFlag R.DUMP_STATUS_FLASHVALID false
    if d.flashOnly then s.trapReact d.cause d.inj
    else
      let s := ((s.setFlag R.DUMP_STATUS_HELD true).fset R.DUMP_STATUS_CAUSE d.cause).rset R.DUMP_LEN (BitVec.ofNat 32 d.length)
      (s.dumpWritten d 1).trapReact d.cause d.inj

def execDumpFirnWriteDone (s : State) : Host.Outcome State Fault Refusal := .next (doDumpFirnWriteDone s)

/-- DUMP_FLASH_COPY_DONE. -/
def doDumpFlashCopyDone (s : State) : State :=
  match s.flag R.DUMP_STATUS_COPYING, s.dump with
  | true, some d =>
    let s := ({ s with dumpFlash := some d }.setFlag R.DUMP_STATUS_COPYING false).setFlag R.DUMP_STATUS_FLASHVALID true
    s.dumpWritten d 2
  | _, _ => s

def execDumpFlashCopyDone (s : State) : Host.Outcome State Fault Refusal := .next (doDumpFlashCopyDone s)

/-- DUMP_RELEASE. -/
def doDumpRelease (s : State) : State :=
  if s.flag R.DUMP_STATUS_COPYING then s.answered St.busy
  else ({ s with dump := none }.setFlag R.DUMP_STATUS_HELD false).answered St.ok

def execDumpRelease (s : State) : Host.Outcome State Fault Refusal := .next (doDumpRelease s)

end Sys2Proof.Machine
end

