-- ==== Sys2Proof/Machine/Engine.lean ====
section
/-! DEFINITION. The Naljo engine (11_naljo_engine.md): patches and the control clock. -/

namespace Sys2Proof.Machine

/-! ## Patches (R282, R283) -/

/-- A patch payload read by Table 11.3. -/
structure Patch where
  romver : Nat
  pver : Nat
  rb : Nat
  bodyWords : Nat
  overrides : List (Nat × Nat)
  body : List Byte
  signed : List Byte

def patchOf (b : List Byte) : Patch :=
  let words := leNat (sub b 8 11)
  let n := leNat (sub b 12 15)
  { romver := leNat (sub b 0 1), pver := leNat (sub b 2 3), rb := leNat (sub b 4 4), bodyWords := words
    overrides := (List.range n).map fun i =>
      (leNat (sub b (64 + 4 * i) (64 + 4 * i)), leNat (sub b (66 + 4 * i) (67 + 4 * i)))
    body := (b.drop (64 + 4 * n)).take (4 * words), signed := b.take (b.length - 96) }

/-- The digest of R282. -/
def Patch.digest (p : Patch) : List Byte := Machine.digest p.signed

/-- Whether a payload has the layout of Table 11.3. -/
def patchLayout (b : List Byte) : Bool :=
  let words := leNat (sub b 8 11)
  let n := leNat (sub b 12 15)
  decide (160 ≤ b.length) && decide (1 ≤ words ∧ words ≤ 16384) && decide (n ≤ 256) && b.length == 160 + 4 * n + 4 * words &&
    decide (1 ≤ leNat (sub b 2 3)) && decide (leNat (sub b 4 4) < 64) && allZero (sub b 5 7) && allZero (sub b 16 63) &&
    (List.range n).all fun i => b.getD (65 + 4 * i) 0 == 0

/-- Whether no opcode is named twice and every override lies in the body. -/
def Patch.overridesOk (p : Patch) : Bool :=
  p.overrides.all (fun e => decide (0xC000 ≤ e.2 ∧ e.2 < 0xC000 + p.bodyWords)) &&
    (p.overrides.map (·.1)).eraseDups.length == p.overrides.length

/-- Items 3 to 7 of R283: the first that fails, with its P0. -/
def State.patchRefused (s : State) (b : List Byte) (sigOk : Bool) : Option (BitVec 8 × Nat) :=
  let p := patchOf b
  if !patchLayout b then some (St.badParam, 1)
  else if p.romver ≠ s.fget R.MCODE_VERSION_ROM then some (St.badParam, 2)
  else if p.rb < s.fget R.PATCH_FLOOR_FLOOR then some (St.badParam, 3)
  else if !sigOk then some (St.denied, 4)
  else if !p.overridesOk then some (St.badParam, 5)
  else none

/-- PATCH_LOAD. -/
def doPatchLoad (q : Req) (s : State) : State :=
  s.wakeEngine.request 0x64 q fun s =>
    if s.flag R.BOOT_STATUS_RECOVERY then s.fail 0x64 q St.busy
    else if s.fget R.LC_STATUS_STATE = 3 then s.fail 0x64 q St.lifecycle
    else if !(s.tilesIn (· != stIdle)).isEmpty then s.fail 0x64 q St.busy
    else match s.patchRefused q.payload q.verdict.sigOk with
    | some (st, p) => s.fail 0x64 q st (BitVec.ofNat 32 p)
    | none =>
      if 256 ≤ s.splits.length then s.fail 0x64 q St.busy
      else (s.setFlag R.ENG_STATUS_HOLDING true).start 0x64 q

/-- A patch replaces the one before it (R283; 20_startup.md R459). -/
def State.patchIn (s : State) (p : Patch) : State :=
  let s := { s with overrides := p.overrides }.eraseSpace 0x12 0
  let s := (s.mwrite 0x12 0 0 p.body).fset R.MCODE_VERSION_PATCH p.pver
  let digest := p.digest
  (List.range 12).foldl (fun s k =>
    s.rset (R.PATCH_DIGEST k) (BitVec.ofNat 32 (leNat (sub digest (4 * k) (4 * k + 3))))) s

/-- A patch is activated, and the activation recorded. -/
def State.patchActive (s : State) (p : Patch) : State :=
  let digest := p.digest
  (s.patchIn p).stage 0x22 (leBytes 2 p.romver ++ leBytes 2 p.pver ++ [BitVec.ofNat 8 p.rb, 0, 0, 0] ++ digest.take 16)

/-- The patch load that waits for its activation. -/
def State.patchSplit (s : State) : Option Split := s.splits.find? fun (x : Split) => x.opcode == 0x64

/-- PATCH_ACTIVATION: no other split-phase operation is outstanding; `otpOk` is the result of raising the floor. -/
def doPatchActivation (otpOk : Bool) (s : State) : State :=
  match s.patchSplit with
  | none => s
  | some x =>
    let p := patchOf x.payload
    let rise := decide (s.fget R.PATCH_FLOOR_FLOOR < p.rb)
    if 1 < s.splits.length then s
    else if rise && !otpOk then s.patchRelease.complete x St.hwFault
    else
      let s := if rise then s.fset R.PATCH_FLOOR_FLOOR p.rb else s
      let s := (s.patchActive p).patchRelease
      s.complete x St.ok [s.rget R.MCODE_VERSION]

def execPatchActivation (otpOk : Bool) (s : State) : Host.Outcome State Fault Refusal := .next (doPatchActivation otpOk s)

/-- PATCH_DRAIN_TIMEOUT: 100 ms pass and other split-phase operations are still outstanding. -/
def doPatchDrainTimeout (s : State) : State :=
  match s.patchSplit with
  | none => s
  | some x => if 1 < s.splits.length then s.patchRelease.complete x St.busy else s

def execPatchDrainTimeout (s : State) : Host.Outcome State Fault Refusal := .next (doPatchDrainTimeout s)

/-! ## Control clock and registers (R281, R284) -/

/-- Whether slow mode may begin. -/
def State.maySlow (s : State) : Bool :=
  s.flag R.ENG_CTRL_SLOW && (s.tilesIn inStep).isEmpty && s.splits.isEmpty &&
    (List.range 8).all fun n => !s.flag (R.STRM_CTL_OPEN n)

/-- CLOCK_MODE_CHANGE: into slow mode once the conditions hold, out of it once SLOW is 0. -/
def doClockModeChange (s : State) : State :=
  if s.flag R.ENG_STATUS_SLOW_ACT then
    if s.flag R.ENG_CTRL_SLOW then s else s.wakeEngine
  else if s.maySlow then (s.setFlag R.ENG_STATUS_SLOW_ACT true).syncSusp
  else s

def execClockModeChange (s : State) : Host.Outcome State Fault Refusal := .next (doClockModeChange s)

/-- ENG_CLRSTAT. -/
def doEngClrstat (s : State) : State := { s with maxLen := 0, maxClk := 0 }.answered St.ok

def execEngClrstat (s : State) : Host.Outcome State Fault Refusal := .next (doEngClrstat s)

/-- UNDEFINED_OPCODE: a request that fails check 2 of R254; one that passes it is another row's. -/
def doUndefinedOpcode (opcode : BitVec 8) (q : Req) (s : State) : State :=
  if s.accept opcode q = some St.badOpcode then s.routine.fail opcode q St.badOpcode else s

end Sys2Proof.Machine
end

