-- ==== Sys2Proof/Machine/Ports.lean ====
section
/-! DEFINITION. The peripheral master port, and the commands of the Veing management chain that access no register
(19_management_ports.md R434 to R451). -/

namespace Sys2Proof.Machine

/-! ## The peripheral port (R444 to R447) -/

/-- The status that refuses a push: `ahead` pushes of the same command come before it (R444; 10_uhleus_protocol.md R261). -/
def State.pushRefused (s : State) (v : Word) (ahead : Nat := 0) : Option (BitVec 8) :=
  if 64 ≤ s.pp.queue.length + ahead then some St.busy
  else if v &&& 0xFFFF8CC0 != 0 || decide (field v 5 0 < 4 ∨ 32 < field v 5 0) then some St.badParam
  else none

/-- QCOUNT and RXCOUNT follow the queue and the receive FIFO. -/
def State.syncPp (s : State) : State :=
  ((s.fset R.PP_STAT_QCOUNT s.pp.queue.length).fset R.PP_STAT_RXCOUNT s.pp.rx.length).setFlag R.PP_STAT_ACTIVE s.pp.held.isSome

/-- An entry is pushed: PP_TXCTL with the value that PP_TXDATA holds. -/
def State.ppPush (s : State) (v : Word) : State :=
  if 64 ≤ s.pp.queue.length then s else { s with pp := { s.pp with queue := s.pp.queue ++ [(v, s.rget R.PP_TXDATA)] } }.syncPp

/-- PP_TXCTL_PUSH. -/
def doPpTxctlPush (v : Word) (s : State) : State := s.writeRow (s.pushRefused v) fun s => s.ppPush v

def execPpTxctlPush (v : Word) (s : State) : Host.Outcome State Fault Refusal := .next (doPpTxctlPush v s)

/-- A held select is deasserted and CONTBRK sets (R446). -/
def State.contBreak (s : State) (inj : Bool := false) : State :=
  (({ s with pp := { s.pp with held := none } }.syncPp).setFlag R.PP_STAT_CONTBRK true).raise 0x90000 2 inj

/-- One entry leaves the queue and is carried out (R445, R446): `sampled` holds the bits on PDIO of an in entry. -/
def State.ppEntry (s : State) (c d sampled : Word) : State :=
  let sel := field c 14 12
  let len := field c 5 0
  let s := if s.pp.held.isSome && s.pp.held != some sel then s.contBreak else s
  let held := if s.flag (R.PP_SELCFG_SELMODE sel) && c.getLsbD 9 then some sel else none
  let pp := { s.pp with queue := s.pp.queue.drop 1, held := held }
  let pp := if c.getLsbD 8 then { pp with rx := pp.rx ++ [BitVec.ofNat 32 (sampled.toNat % 2 ^ len)] }
    else { pp with out := pp.out ++ [(sel, len, d.toNat % 2 ^ len)] }
  { s with pp := pp }.syncPp

/-- PP_ENTRY_EXECUTE: the entry at the front of the queue; an in entry waits while the FIFO is full, and every entry while boundary
scan holds the balls (21_electrical_package.md R483). -/
def doPpEntryExecute (sampled : Word) (s : State) : State :=
  match s.pp.queue with
  | [] => s
  | e :: _ => if s.bscan || (e.1.getLsbD 8 && decide (64 ≤ s.pp.rx.length)) then s else s.ppEntry e.1 e.2 sampled

def execPpEntryExecute (sampled : Word) (s : State) : Host.Outcome State Fault Refusal := .next (doPpEntryExecute sampled s)

/-- A read of PP_RXDATA pops one word, or sets RXUNF (R445). -/
def State.rxPop (s : State) : State :=
  match s.pp.rx with
  | [] => s.setFlag R.PP_STAT_RXUNF true
  | _ :: l => { s with pp := { s.pp with rx := l } }.syncPp

/-- PP_RXDATA_READ. -/
def doPpRxdataRead (s : State) : State := s.rxPop

def execPpRxdataRead (s : State) : Host.Outcome State Fault Refusal := .next (doPpRxdataRead s)

/-- PP_FLUSH. -/
def doPpFlush (s : State) : State := s.ppEmpty.answered St.ok

def execPpFlush (s : State) : Host.Outcome State Fault Refusal := .next (doPpFlush s)

/-- PP_CONT_TIMEOUT: a select is held and the queue has stayed empty for 1 ms. -/
def doPpContTimeout (s : State) : State := if s.pp.held.isSome && s.pp.queue.isEmpty then s.contBreak else s

def execPpContTimeout (s : State) : Host.Outcome State Fault Refusal := .next (doPpContTimeout s)

/-- The single-I/O commands of an operation of the internal master (R448); those with an address of 4 bytes once SFDP has declared it. A
write is enabled first and polled for its end. -/
def flashCmds (wide : Bool) : FlashOp → List FlashCmd
  | .sfdp _ => [{ opcode := 0x5A, addrBytes := 3, dummy := 8, rate := 125, reads := 16 }]
  | .read a n => [{ opcode := if wide then 0x0C else 0x0B, addr := a.toNat, addrBytes := if wide then 4 else 3, dummy := 8, reads := n }]
  | .program a d => [{ opcode := 0x06 },
      { opcode := if wide then 0x12 else 0x02, addr := a.toNat, addrBytes := if wide then 4 else 3, data := d },
      { opcode := 0x05, reads := 1 }]
  | .erase a => [{ opcode := 0x06 }, { opcode := if wide then 0x21 else 0x20, addr := a.toNat, addrBytes := if wide then 4 else 3 },
      { opcode := 0x05, reads := 1 }]

def flashWrites : FlashOp → Bool
  | .program _ _ | .erase _ => true
  | _ => false

/-- The internal master drives an operation on the pins. -/
def State.flashRun (s : State) (op : FlashOp) : State :=
  { s with pp := { s.pp with flash := s.pp.flash ++ flashCmds s.pp.wide op
                             wide := match op with | .sfdp w => w | _ => s.pp.wide } }

/-- INTERNAL_TRANSFER: at the end of a transfer the internal master takes the pins, and the row is its whole operation (log entry 11);
one that fails raises source 3 (R447, R450). It waits while a select is held or boundary scan holds the balls; a write waits while the
flash is `busy` with an operation that the host started (R449): only its status is read. -/
def doInternalTransfer (op : FlashOp) (ok busy : Bool) (s : State) : State :=
  if s.pp.held.isSome || s.bscan then s
  else if flashWrites op && busy then { s with pp := { s.pp with flash := s.pp.flash ++ [{ opcode := 0x05, reads := 1 }] } }
  else if ok then s.flashRun op
  else (s.flashRun op).raise 0x90000 3

def execInternalTransfer (x : FlashTransfer) (s : State) : Host.Outcome State Fault Refusal := .next (doInternalTransfer x.op x.ok x.busy s)

/-! ## Veing frames (R434 to R437, R442, R443) -/

/-- The CRC of a command or response word, by the device's chain address. -/
def State.veingCrc (s : State) (w : Word) : BitVec 8 :=
  crc8 (BitVec.ofNat 8 (s.fget R.VG_CFG_ADDR)) [BitVec.ofNat 8 (field w 31 24), BitVec.ofNat 8 (field w 23 16), BitVec.ofNat 8 (field w 15 8)]

/-- A word with its CRC. -/
def State.sealVeing (s : State) (w : Word) : Word := (w &&& 0xFFFFFF00) ||| (s.veingCrc w).setWidth 32

/-- MSEL_ASSERT: the response is loaded, or the last one offered again with UNDERRUN while a command executes (R442). -/
def doMselAssert (s : State) : State :=
  let v := s.veing
  let s := s.setFlag R.VG_STAT_ACTIVE true
  let busy := v.cmd.isSome
  let w := if busy then v.offered ||| 0x80000000 else v.resp
  { s with veing := { v with sel := true, fresh := !busy, offered := s.sealVeing w } }

def execMselAssert (s : State) : Host.Outcome State Fault Refusal := .next (doMselAssert s)

/-- A frame error: 1 SHORT, 2 CRC, 3 OVERRUN (R435, R443). An overrun is source 1 of the block, the others source 0. -/
def State.frameError (s : State) (cause : Nat) (inj : Bool := false) : State :=
  let s := ((s.count R.VG_FERR_COUNT).setFlag R.VG_STAT_FERR true).fset R.VG_STAT_FCAUSE cause
  if cause = 3 then (s.setFlag R.VG_STAT_OVERRUN true).raise 0x90000 1 inj else s.raise 0x90000 0 inj

/-- A word whose CRC matches: a command is latched, or meets one that is executing. -/
def State.veingLatch (s : State) (w : Word) : State :=
  let cmd := field w 31 28
  let s := s.count R.VG_LATCHED_COUNT
  if s.veing.cmd.isSome then (if cmd = 0 then s else s.frameError 3)
  else { s with veing := { s.veing with cmd := some (cmd, field w 27 24, field w 23 8) } }.setFlag R.VG_STAT_BUSY true

/-- What waited for its response to have been shifted out takes effect: an address, a warm reset (R438, R443). -/
def State.veingShifted (s : State) : State :=
  let s := match s.veing.addr with
    | some a => { s with veing := { s.veing with addr := none } }.fset R.VG_CFG_ADDR a
    | none => s
  if s.veing.reset then { s with veing := { s.veing with reset := false } }.warmReset 4 else s

/-- VEING_FRAME: MSEL is released behind `edges` rising MCK edges with `word` in the shift register. While boundary scan holds the
balls, MCK is ignored (21_electrical_package.md R483). -/
def doVeingFrame (edges : Nat) (word : Word) (s : State) : State :=
  if !s.veing.sel then s
  else
    let full := decide (32 ≤ edges) && !s.bscan
    let out := full && s.veing.fresh
    let s := { s with veing := { s.veing with sel := false, fresh := false } }.setFlag R.VG_STAT_ACTIVE false
    let s := if !full then s.frameError 1
      else if (s.veingCrc word).toNat ≠ field word 7 0 then s.frameError 2
      else s.veingLatch word
    if out then s.veingShifted else s

def execVeingFrame (edges : Nat) (word : BitVec 32) (s : State) : Host.Outcome State Fault Refusal := .next (doVeingFrame edges word s)

/-! ## Veing commands (R438) -/

/-- The response to a command, and the command's end. RSTAT as Table 19.1 codes it. -/
def State.veingDone (s : State) (rstat seq data : Nat) : State :=
  let w : Word := BitVec.ofNat 32 (rstat % 8 * 2 ^ 28 + seq % 16 * 2 ^ 24 + data % 65536 * 256)
  { s with veing := { s.veing with cmd := none, fresh := false, resp := s.sealVeing w } }.setFlag R.VG_STAT_BUSY false

/-- Whether a command may execute: no other is executing (R443), and one that a frame has latched carries the DATA latched. -/
def State.veingFree (s : State) (cmd seq : Nat) (data : Option Nat := none) : Bool :=
  match s.veing.cmd with
  | none => true
  | some c => c.1 == cmd && c.2.1 == seq && data.all (· == c.2.2)

def doVeingNop (seq : BitVec 4) (s : State) : State :=
  if s.veingFree 0 seq.toNat then s.veingDone 0 seq.toNat (s.rget R.VG_STAT).toNat else s

def execVeingNop (seq : BitVec 4) (s : State) : Host.Outcome State Fault Refusal := .next (doVeingNop seq s)

def doAddrLo (seq : BitVec 4) (data : BitVec 16) (s : State) : State :=
  if s.veingFree 1 seq.toNat data.toNat then (s.rset R.VG_VA (setField (s.rget R.VG_VA) 15 0 data.toNat)).veingDone 0 seq.toNat data.toNat else s

def execAddrLo (seq : BitVec 4) (data : BitVec 16) (s : State) : Host.Outcome State Fault Refusal := .next (doAddrLo seq data s)

def doAddrHi (seq : BitVec 4) (data : BitVec 16) (s : State) : State :=
  if s.veingFree 2 seq.toNat data.toNat then (s.rset R.VG_VA (setField (s.rget R.VG_VA) 31 16 data.toNat)).veingDone 0 seq.toNat data.toNat else s

def execAddrHi (seq : BitVec 4) (data : BitVec 16) (s : State) : Host.Outcome State Fault Refusal := .next (doAddrHi seq data s)

def doWdataLo (seq : BitVec 4) (data : BitVec 16) (s : State) : State :=
  if s.veingFree 3 seq.toNat data.toNat then { s with veing := { s.veing with wh := data } }.veingDone 0 seq.toNat data.toNat else s

def execWdataLo (seq : BitVec 4) (data : BitVec 16) (s : State) : Host.Outcome State Fault Refusal := .next (doWdataLo seq data s)

/-- A READ or WRITE waits for the next routine boundary (R441). -/
def State.veingWait (s : State) (cmd seq : Nat) (data : Option Nat) : State :=
  if s.veingFree cmd seq data then { s with veing := { s.veing with cmd := some (cmd, seq, data.getD 0) } }.setFlag R.VG_STAT_BUSY true else s

def doVeingWrite (seq : BitVec 4) (data : BitVec 16) (s : State) : State := s.veingWait 4 seq.toNat data.toNat

def execVeingWrite (seq : BitVec 4) (data : BitVec 16) (s : State) : Host.Outcome State Fault Refusal := .next (doVeingWrite seq data s)

def doVeingRead (seq : BitVec 4) (s : State) : State := s.veingWait 5 seq.toNat none

def execVeingRead (seq : BitVec 4) (s : State) : Host.Outcome State Fault Refusal := .next (doVeingRead seq s)

def doRdhi (seq : BitVec 4) (s : State) : State := if s.veingFree 6 seq.toNat then s.veingDone 0 seq.toNat s.veing.rh.toNat else s

def execRdhi (seq : BitVec 4) (s : State) : Host.Outcome State Fault Refusal := .next (doRdhi seq s)

/-- SETADDR; a set bit of DATA[15:8] gives BADCMD. -/
def doSetaddr (seq : BitVec 4) (data : BitVec 16) (s : State) : State :=
  if !s.veingFree 7 seq.toNat data.toNat then s
  else
    let old := s.fget R.VG_CFG_ADDR
    if 256 ≤ data.toNat then s.veingDone 1 seq.toNat old
    else { s with veing := { s.veing with addr := some data.toNat } }.veingDone 0 seq.toNat old

def execSetaddr (seq : BitVec 4) (data : BitVec 16) (s : State) : Host.Outcome State Fault Refusal := .next (doSetaddr seq data s)

def doVeingReset (seq : BitVec 4) (data : BitVec 16) (s : State) : State :=
  if !s.veingFree 8 seq.toNat data.toNat then s
  else if data = 0xA5C3 then { s with veing := { s.veing with reset := true } }.veingDone 0 seq.toNat 0
  else s.veingDone 1 seq.toNat 0

def execVeingReset (seq : BitVec 4) (data : BitVec 16) (s : State) : Host.Outcome State Fault Refusal := .next (doVeingReset seq data s)

/-- VEING_UNDEFINED_CMD: CMD 0x9 to 0xF; any other code is another row's. -/
def doVeingUndefinedCmd (cmd seq : BitVec 4) (s : State) : State :=
  if 9 ≤ cmd.toNat && s.veingFree cmd.toNat seq.toNat then s.veingDone 1 seq.toNat 0 else s

def execVeingUndefinedCmd (cmd : BitVec 4) (seq : BitVec 4) (s : State) : Host.Outcome State Fault Refusal :=
  .next (doVeingUndefinedCmd cmd seq s)

end Sys2Proof.Machine
end

