-- ==== Sys2Proof/Machine/Regs.lean ====
section
/-! DEFINITION. Register access (00_scope.md R5 to R9; 10_uhleus_protocol.md R260 to R264; 22_register_map.md R484 to R492): what a read or
a write of one word is refused with, what it returns and does, and the five requests that access registers. -/

namespace Sys2Proof.Machine

/-! ## Addresses (R260, R484 to R486) -/

/-- Whether a word has atomic aliases (R486). -/
def aliased (a : Nat) : Bool :=
  a == R.FLT_REACT 0x60000 0 || a == R.FLT_REACT 0x60000 1 ||
    match regAt a with
    | some (.safe, _, _, d) => d.aliased
    | _ => false

/-- The word that an address stands for, and the sense of its alias: set or clear. -/
def aliasOf (a : Nat) : Nat × Option Bool :=
  if 0x68000 ≤ a ∧ a < 0x6C000 ∧ aliased (a - 0x8000) then (a - 0x8000, some true)
  else if 0x6C000 ≤ a ∧ a < 0x70000 ∧ aliased (a - 0xC000) then (a - 0xC000, some false)
  else (a, none)

/-- How many words a command may access from an address on; none where the address is no word of a block. -/
def wordsFrom (a : Nat) : Option Nat :=
  if a % 4 ≠ 0 then none
  else if (aliasOf a).2.isSome then some 1
  else (blockOf a).map fun x => (x.1.last - x.2.2) / 4 + 1

/-- The addresses that COUNT words from an address take (R261). -/
def wordAddrs (a count : Nat) (noInc : Bool) (room : Nat) : List Nat :=
  if noInc then List.replicate count a else (List.range (min count room)).map (a + 4 * ·)

/-- The access codes of the word at an address: none of them where no register is defined. -/
def descAt (a : Nat) : RegDesc :=
  match regAt a with
  | some (_, _, _, d) => d
  | none => { off := 0, n := 1, stride := 4 }

/-- Who accesses: the context, its privilege (none: below OBSERVE), and the link that the command arrived on. -/
structure Who where
  ctx : Nat
  priv : Option Nat
  link : Option Nat := none

def Who.atLeast (w : Who) (p : Nat) : Bool :=
  match w.priv with
  | some n => decide (p ≤ n)
  | none => false

/-- A session's request as it accesses registers. -/
def State.whoOf (s : State) (q : Req) : Who :=
  { ctx := q.session.toNat, priv := some (s.fget (R.SESS_STAT_PRIV q.session.toNat)), link := some q.link.val }

/-- The words that the Veing port may access in every state (19_management_ports.md R440). -/
def openToAll (a : Nat) : Bool := decide (0x90000 ≤ a ∧ a < 0x90100) || a == R.LC_STATUS

/-! ## Sealing (R262; 13_security.md Table 13.10) -/

/-- Whether programmable counter `m` counts an event of a sealed tile that hides its counters, or chains from such a counter. -/
def State.pcntHidden (s : State) (m : Nat) : Nat → Bool
  | 0 => false
  | fuel + 1 =>
    if s.flag (R.PCNT_CFG_CHAIN m) then decide (0 < m) && s.pcntHidden (m - 1) fuel
    else
      let n := s.fget (R.PCNT_CFG_EVENT m)
      decide (128 ≤ n) && s.hidden ((n - 128) / 4 % 64) [16]

/-- The policy bit that opens a class. -/
def ReadSeal.bits : ReadSeal → List Nat
  | .none => [] | .margin => [15] | .repair => [8] | .diag => [17] | .wave => [13] | .bundle => []

/-- Whether a word is sealed. -/
def State.wordSealed (s : State) (a : Nat) : Bool :=
  s.sealedWrite a ||
    match regAt a with
    | some (.tile, t, _, d) => d.rs != .none && s.hidden t d.rs.bits
    | some (.chan, ch, _, d) => d.rs != .none && s.hidden (ch / 16) d.rs.bits
    | some (.chip, _, k, d) => d.rs != .none && (s.siteTiles k).any fun t => s.hidden t d.rs.bits
    | some (.mor, _, k, d) =>
      if d.cnt then
        if a < 0x83000 then decide (128 ≤ k) && s.hidden ((k - 128) / 4) [16] else s.pcntHidden k 64
      else false
    | _ => false

/-! ## Reads (R488, R489) -/

def winWord (a : Nat) : Bool := decide (R.MRN_WIN 0 ≤ a ∧ a < R.MRN_WIN 16)

/-- What refuses a read of a word of a block (R488). -/
def State.readWordRefused (s : State) (w : Who) (a : Nat) : Option (BitVec 8) :=
  if !(w.atLeast 0 || openToAll a) then some St.denied
  else if s.wordSealed a then some St.isSealed
  else if (descAt a).cnt && !s.flag R.CNT_CFG_OBS && !w.atLeast 2 then some St.denied
  else if winWord a && (s.ctx w.ctx).rstat.getLsbD 3 then some St.busy
  else none

/-- A register of a tile as a read returns it: HOLDOFF shows whether hold-off lasts (R207), and fields that a bundle hides read 0
(Table 13.10). -/
def State.tileValue (s : State) (t o : Nat) (w : Word) : Word :=
  if o = 0x638 then setField w 17 17 (!s.holdOver t (s.tileTime t s.now)).toNat
  else if (s.bundleOf t).isNone then w
  else if o = 0x4 then s.seqStatus t
  else if o = 0x8 then setField w 13 0 0
  else if o = 0x414 then w &&& ~~~(0x3F0F : Word)
  else if o = 0x418 then w &&& ~~~(0x3F000F : Word)
  else w

/-- A register of the moraine block that is held per context, or is a view of a counter. -/
def State.morValue (s : State) (c a : Nat) (w : Word) : Word :=
  let x := s.ctx c
  if a = R.MRN_CURSOR then x.cursor
  else if a = R.MRN_RSTAT then x.rstat
  else if winWord a then x.win.getD ((a - R.MRN_WIN 0) / 4) 0
  else if 0x81000 ≤ a ∧ a < 0x83000 then
    let n := a % 0x1000 / 8
    let snap := decide (0x82000 ≤ a)
    if a % 8 = 0 then BitVec.ofNat 32 (s.evcOf snap n)
    else if snap then Store.get (fun _ => 0) x.evsHi n else Store.get (fun _ => 0) x.evcHi n
  else w

/-- What a read of a word returns to a context. -/
def State.readValue (s : State) (c a : Nat) : Word :=
  let d := descAt a
  let w := s.rget a &&& (d.rw ||| d.ro ||| d.w1c ||| d.w1s)
  if a = R.SYSTIME_LO then s.sysTime.setWidth 32
  else if a = R.SYSTIME_HI then (s.ctx c).sysHi
  else if a = R.PP_RXDATA then s.pp.rx.headD 0
  else if a = R.ENG_MAXLEN then BitVec.ofNat 32 s.maxLen
  else if a = R.ENG_MAXCLK then BitVec.ofNat 32 s.maxClk
  else match blockOf a with
    | some (.tile, t, o) => s.tileValue t o w
    | some (.mor, _, _) => s.morValue c a w
    | some (.chan, ch, o) => if o = 0x110 then setField w 1 1 (if s.fget (R.TDC_CFG_START ch) = 1 then 0 else 1) else w
    | _ => w

/-- What a read of a word does besides (R489). -/
def State.readEffect (s : State) (c a : Nat) : State :=
  if a = R.SYSTIME_LO then s.modCtx c fun x => { x with sysHi := (s.sysTime >>> 32).setWidth 32 }
  else if 0x81000 ≤ a ∧ a < 0x83000 ∧ a % 8 = 0 ∧ (regAt a).isSome then s.evcLatch c (a % 0x1000 / 8) (decide (0x82000 ≤ a))
  else if a = R.PP_RXDATA then s.rxPop
  else if a = R.MRN_WIN 15 ∧ (s.ctx c).rstat.getLsbD 8 then s.mrnLoad c ((s.ctx c).cursor + 1)
  else s

/-- A read of TDC_TRUNC sees the stop windows that have opened by then (07_time_measurement.md R175). -/
def State.current (s : State) (a : Nat) : State :=
  match blockOf a with
  | some (.chan, ch, _) => if a = R.TDC_TRUNC ch then s.windowsNow ch else s
  | _ => s

/-- The words of a read, in order, each with its effect; the moraine cursor advances once the reply has been formed (R421). -/
def State.readWords (s : State) (c : Nat) (l : List Nat) : List Word × State :=
  let real := l.map fun a => (aliasOf a).1
  let now := real.foldl (fun (r : List Word × State) a =>
    let s := r.2.current a
    (r.1 ++ [s.readValue c a], if winWord a then s else s.readEffect c a)) ([], s)
  (now.1, (real.filter winWord).foldl (fun s a => s.readEffect c a) now.2)

/-! ## Writes (R8, R261, R492) -/

/-- The privilege that a write of a value to a word needs: OPERATE, CONFIGURE, or what R422 and R426 of 18_moraine_counters.md ask for. -/
def State.writePriv (s : State) (a : Nat) (v : Word) : Nat :=
  if a = R.MRN_CTRL ∧ v.getLsbD 0 then s.clearPriv
  else if a = R.CNT_CFG ∧ v.getLsbD 0 ≠ s.flag R.CNT_CFG_OBS ∧ s.fget R.LC_STATUS_STATE = 2 then 3
  else if (descAt a).cfg then 2
  else 1

/-- The number of sources of the block whose base is `b` (15_safety_faults.md Table 15.3; R414, R432, R450). -/
def sources (b : Nat) : Nat :=
  if b < 0x40000 then 6
  else if 0x900000 ≤ b then 5
  else match b / 0x10000 with
  | 4 => 4 | 5 => 9 | 6 => 12 | 7 => 5 | 8 => 4 | 9 => 4 | _ => 4

/-- A word of reactions that R371 refuses. -/
def reactBad (b k : Nat) (v : Word) : Bool :=
  (List.range 8).any fun i =>
    let n := field v (4 * i + 3) (4 * i)
    decide (5 ≤ n % 8) || (decide (sources b ≤ 8 * k + i) && n != 0) ||
      (n % 8 == 3 && (b == 0x60000 || b == 0x70000 || b == 0x80000)) || (b == 0x40000 && (n % 8 == 1 || n % 8 == 2))

/-- A programmable counter's selection that R424 refuses. -/
def pcntBad (m : Nat) (v : Word) : Bool :=
  let n := field v 8 0
  (m == 0 && v.getLsbD 12) || decide (383 < n) || decide (10 ≤ n ∧ n ≤ 15) || decide (73 ≤ n ∧ n ≤ 79) || decide (87 ≤ n ∧ n ≤ 95)

/-- A thermal configuration that 17_power_thermal.md refuses. -/
def thrBad (v : Word) : Bool := field v 7 0 == 0 || field v 15 8 == 0 || decide (field v 23 16 ≤ field v 31 24)

/-- The words that SF_CFG.LOCK locks (R375). -/
def lockable (a : Nat) : Bool := a == R.SF_CFG || a == R.FLT_REACT 0x60000 0 || a == R.FLT_REACT 0x60000 1

/-- The status with which the registers of a link refuse a value. -/
def State.linkRegRefused (s : State) (w : Who) (l o : Nat) (v : Word) : Option (BitVec 8) :=
  if o = 0 then
    (s.testRefused l (v.getLsbD 7) (v.getLsbD 8) (field v 11 9) w.link).or (if 4 < field v 6 4 then some St.badParam else none)
  else if 0x100 ≤ o ∧ o % 16 < 8 then s.laneEqRefused l ((o - 0x100) / 16) (o % 16 == 4) v
  else none

/-- The status with which the registers of sentinels refuse a value (06_pin_electronics.md R162). -/
def State.sntRegRefused (s : State) (o : Nat) (a : Nat) (v : Word) : Option (BitVec 8) :=
  let n := (o - 0x1000) / 16
  if o % 16 = 0 then s.sntCfgRule n v else if s.flag (R.SNT_CFG_EN n) && v != s.rget a then some St.busy else none

/-- The status with which a register's own rules refuse a value; `ahead` counts the earlier words of the command that push an entry
onto the peripheral queue. -/
def State.ownRefused (s : State) (w : Who) (a : Nat) (v : Word) (ahead : Nat) : Option (BitVec 8) :=
  if lockable a && s.flag R.SF_CFG_LOCK then some St.denied
  else match fltOffset a, blockOf a with
  | some k, some (_, _, o) => if 0x10 ≤ k ∧ reactBad (a - o) ((k - 0x10) / 4) v then some St.badParam else none
  | _, some (.link, l, o) => if (regAt a).isNone then none else s.linkRegRefused w l o v
  | _, some (.safe, _, o) => if 0x1000 ≤ o ∧ o < 0x1400 then s.sntRegRefused o a v else none
  | _, some (.pwr, _, o) => if o = 4 ∧ thrBad v then some St.badParam else none
  | _, some (.mor, _, o) =>
    if o = 0x110 ∧ v.getLsbD 0 ∧ s.flag R.DUMP_STATUS_COPYING then some St.busy
    else if 0x3000 ≤ o ∧ o < 0x3400 ∧ o % 16 = 0 ∧ pcntBad ((o - 0x3000) / 16) v then some St.badParam
    else none
  | _, some (.mgt, _, o) => if o = 0x10C then s.pushRefused v ahead else none
  | _, some (.tile, t, o) =>
    if o = 0x308 ∧ s.flag (R.STRM_CFG_MEMBER t) then some St.busy else if tileBad o v then some St.badParam else none
  | _, some (.chan, ch, o) => if s.chanBad ch o v then some St.badParam else none
  | _, _ => none

/-- What refuses a write of a value to a word of a block (R261). -/
def State.writeWordRefused (s : State) (w : Who) (a : Nat) (v : Word) (ahead : Nat) : Option (BitVec 8) :=
  if !(w.atLeast (s.writePriv a v) || (openToAll a && w.ctx == 32)) then some St.denied
  else if s.wordSealed a then some St.isSealed
  else
    let fenced := match blockOf a with
      | some (.chan, ch, o) => o == 0x40 && s.chanFenced ch
      | _ => false
    if fenced then some St.fenced else (s.unitRule a).or (s.ownRefused w a v ahead)

/-- A write to LINK_CTRL (12_serial_links.md R297 to R299, R306). -/
def State.linkCtrl (s : State) (l : Nat) (v : Word) : State :=
  let plain : Word := 0x100C
  let s := s.rset (R.LINK_CTRL l) ((s.rget (R.LINK_CTRL l) &&& ~~~plain) ||| (v &&& plain))
  let s := s.linkTestSet l (v.getLsbD 7) (v.getLsbD 8) (field v 11 9)
  let s := if v.getLsbD 0 = s.flag (R.LINK_CTRL_EN l) then s else s.linkEn l (v.getLsbD 0)
  let s := s.linkWmax l (field v 6 4)
  if v.getLsbD 1 then s.enterRetrain l else s

/-- A write to a register of the chip global block. -/
def State.chipWrite (s : State) (a : Nat) (d : RegDesc) (v : Word) : State :=
  let set := s.rset a (d.stored (s.rget a) v)
  if a = R.LINKEV_SEND then s.linkevSend v
  else if a = R.SR_CFG then (List.range 68).foldl (fun s c => s.syncTrans c) set
  else if a = R.CAL_LIMIT then (List.range 1024).foldl (fun s ch => if s.power (ch / 16) = 3 then s else s.syncStale ch) set
  else set

/-- A write to a register of the safety block. -/
def State.safeWrite (s : State) (o a : Nat) (d : RegDesc) (v : Word) : State :=
  let set := s.rset a (d.stored (s.rget a) v)
  if h : 0x100 ≤ o ∧ o < 0x180 then s.fenceMask (.ch ⟨(o - 0x100) / 4, by omega⟩) v
  else if h : 0x180 ≤ o ∧ o < 0x188 then s.fenceMask (.tile ⟨(o - 0x180) / 4, by omega⟩) v
  else if h : 0x198 ≤ o ∧ o < 0x1A0 then s.fenceMask (.snt ⟨(o - 0x198) / 4, by omega⟩) v
  else if 0x1000 ≤ o ∧ o < 0x1400 then (if o % 16 = 0 then s.sntCfg ((o - 0x1000) / 16) v else set.syncDse)
  else if 0x1428 ≤ o then
    let held : Word := BitVec.ofNat 32 (s.dseHeld / 2 ^ (8 * (o - 0x1428)))
    (s.rset a (s.rget a &&& ~~~(v &&& ~~~held))).syncDse
  else if 0x1400 ≤ o ∧ o < 0x1408 then set.syncDse
  else set

/-- A write to a register of the moraine block by a context. -/
def State.morWrite (s : State) (c a : Nat) (d : RegDesc) (v : Word) : State :=
  let on (b : Bool) (f : State → State) (s : State) : State := if b then f s else s
  if a = R.MRN_CTRL then
    on (v.getLsbD 0) (fun s => s.mrnCleared c) (on (v.getLsbD 1) (fun s => s.setFlag R.MRN_STATUS_FLUSHING true) s)
  else if a = R.MRN_CURSOR then s.mrnLoad c v
  else if a = R.MRN_RSTAT then s.modCtx c fun x => { x with rstat := (x.rstat &&& ~~~(0x100 : Word)) ||| (v &&& 0x100) }
  else if a = R.CNT_CFG then on (v.getLsbD 2) (fun s => s.setFlag R.CNT_CFG_FROZEN false) (s.setFlag R.CNT_CFG_OBS (v.getLsbD 0))
  else if a = R.DUMP_CTRL then on (v.getLsbD 0) (fun s => { s with dump := none }.setFlag R.DUMP_STATUS_HELD false) s
  else s.rset a (d.stored (s.rget a) v)

/-- A write to a fault register: bits whose condition is present stay, VALID clears FLT_FIRST (R373, Table 15.6). -/
def State.fltWrite (s : State) (a k : Nat) (d : RegDesc) (v : Word) : State :=
  let base := a - 0xF00 - k
  let held (l : List (Nat × Nat × Nat)) : Word :=
    l.foldl (fun (m : Word) h => if h.1 = base then m ||| BitVec.ofNat 32 (2 ^ h.2.1) else m) 0
  if k = 0 then s.rset a (s.rget a &&& ~~~(v &&& ~~~held s.held))
  else if k = 4 then s.rset a (s.rget a &&& ~~~(v &&& ~~~held s.injHeld))
  else if k = 0xC then (if v.getLsbD 31 then s.rset a 0 else s)
  else s.rset a (d.stored (s.rget a) v)

/-- A word takes a written value, which its checks have let through. -/
def State.writeWord (s : State) (c a : Nat) (v : Word) : State :=
  match fltOffset a, regAt a, blockOf a with
  | some k, some (_, _, _, d), _ => s.fltWrite a k d v
  | none, some (b, i, _, d), some (_, _, o) =>
    let set := s.rset a (d.stored (s.rget a) v)
    match b with
    | .chip => s.chipWrite a d v
    | .time =>
      let v := if o = 4 && s.held.contains (0x60000, 10, 0) then v &&& ~~~(0x10 : Word) else v
      s.rset a (d.stored (s.rget a) v)
    | .link => if o = 0 then s.linkCtrl i v else if o = 8 then s.unfenceLanes i (field v 7 0) else set
    | .eng =>
      let set := if o = 0 ∧ v.getLsbD 1 then { set with maxLen := 0, maxClk := 0 } else set
      set
    | .safe => s.safeWrite o a d v
    | .pwr =>
      if 0x20 ≤ o ∧ o < 0x34 then
        { set with therm := { set.therm with dis := set.therm.dis.filter fun e =>
          !(e.1 / 32 == (o - 0x20) / 4 && v.getLsbD (e.1 % 32)) } }
      else set
    | .mor => s.morWrite c a d v
    | .mgt =>
      if o = 0x100 then (if v.getLsbD 0 then s.ppEmpty else s) else if o = 0x10C then s.ppPush v else set
    | .tile => s.tileWrite i o d v
    | .chan => s.chanWrite i o d v
    | _ => set
  | _, _, _ => s

/-! ## The senses of set and clear (R263, R352) -/

/-- The value that setting the bits of a mask writes: RW fields take old OR mask, the others receive the mask. -/
def setSense (d : RegDesc) (old mask : Word) : Word := ((old ||| mask) &&& d.rw) ||| (mask &&& ~~~d.rw)

/-- The value that clearing the bits of a mask writes: RW fields take old AND NOT mask, the others receive 0. -/
def clearSense (d : RegDesc) (old mask : Word) : Word := old &&& ~~~mask &&& d.rw

/-- The word and value that a write of `v` to an address stands for. -/
def State.sensed (s : State) (c a : Nat) (v : Word) : Nat × Word :=
  match aliasOf a with
  | (a, none) => (a, v)
  | (a, some true) => (a, setSense (descAt a) (s.readValue c a) v)
  | (a, some false) => (a, clearSense (descAt a) (s.readValue c a) v)

/-! ## The requests (R260 to R264) -/

/-- The first word of a list that a check refuses, with its place. -/
def firstRefused (p : Nat → Option (BitVec 8)) : Nat → List Nat → Option (BitVec 8 × Nat)
  | _, [] => none
  | i, a :: l =>
    match p a with
    | some st => some (st, i)
    | none => firstRefused p (i + 1) l

def State.failAt (s : State) (op : BitVec 8) (q : Req) (r : BitVec 8 × Nat) : State := s.fail op q r.1 (BitVec.ofNat 32 r.2)

/-- Whether P1 and P2 of REG_READ and REG_WRITE lie outside their ranges (R266). -/
def countBad (q : Req) : Bool := q.n 1 == 0 || decide (4096 < q.n 1 ∨ 1 < q.n 2)

/-- REG_READ. -/
def doRegRead (q : Req) (s : State) : State :=
  s.request 0x10 q fun s =>
    if countBad q then s.fail 0x10 q St.badParam
    else match wordsFrom (q.n 0) with
    | none => s.fail 0x10 q St.badAddress
    | some room =>
      let w := s.whoOf q
      let l := wordAddrs (q.n 0) (q.n 1) (q.n 2 == 1) room
      match firstRefused (fun a => s.readWordRefused w (aliasOf a).1) 0 l with
      | some r => s.failAt 0x10 q r
      | none =>
        let (ws, s) := s.readWords w.ctx l
        s.reply 0x10 q (if l.length = q.n 1 then St.ok else St.part) [BitVec.ofNat 32 l.length] (ws.flatMap wordBytes)

/-- The pushes onto the peripheral queue that the words before place `i` make. -/
def pushesBefore (l : List (Nat × Word)) (i : Nat) : Nat := ((l.take i).filter fun e => e.1 == R.PP_TXCTL).length

/-- The first word of a write that its checks refuse, with its place: the write is checked whole before any word changes. -/
def State.writesRefused (s : State) (w : Who) (l : List (Nat × Word)) : Option (BitVec 8 × Nat) :=
  (List.range l.length).findSome? fun i =>
    match l[i]? with
    | some e =>
      let x := s.sensed w.ctx e.1 e.2
      (s.writeWordRefused w x.1 x.2 (pushesBefore l i)).map fun st => (st, i)
    | none => none

/-- What the hardware does to a word in the clock of its write stands behind the write: W1C bits that it sets read 1 (00_scope.md R7), and a
programmable counter holds the written value plus the events of that clock (18_moraine_counters.md R424). -/
def State.coincident (s : State) (hw : List (Nat × Word)) (a : Nat) : State :=
  (hw.filter fun e => e.1 == a).foldl (fun s e =>
    s.rset a ((s.rget a ||| (e.2 &&& (descAt a).w1c)) + if (List.range 64).any fun m => a == R.PCNT_VAL m then e.2 else 0)) s

/-- The words of a write, in order. -/
def State.writeWords (s : State) (c : Nat) (l : List (Nat × Word)) (hw : List (Nat × Word) := []) : State :=
  l.foldl (fun s e =>
    let x := s.sensed c e.1 e.2
    (s.writeWord c x.1 x.2).coincident hw x.1) s

/-- A reply that carries `id` as its source: the one to a write that changes CHIP_ID carries the old one (R244). -/
def State.replyAs (s : State) (id : Nat) (op : BitVec 8) (q : Req) (st : BitVec 8) (ps : List Word) : State :=
  if s.fget R.CHIP_ID_ID = id then s.reply op q st ps
  else ((s.fset R.CHIP_ID_ID id).reply op q st ps).fset R.CHIP_ID_ID (s.fget R.CHIP_ID_ID)

/-- REG_WRITE. Where a fault reaction resets the block behind the checks, the next word is refused and the words before it stand
(11_naljo_engine.md R276). -/
def doRegWrite (q : Req) (s : State) : State :=
  s.request 0x11 q fun s =>
    if countBad q then s.fail 0x11 q St.badParam
    else match wordsFrom (q.n 0) with
    | none => s.fail 0x11 q St.badAddress
    | some room =>
      let w := s.whoOf q
      let l := (wordAddrs (q.n 0) (q.n 1) (q.n 2 == 1) room).zip (wordsOf q.payload)
      match s.writesRefused w l with
      | some r => s.failAt 0x11 q r
      | none =>
        match q.resets.filter fun i => decide (i < l.length) with
        | some i => (s.writeWords w.ctx (l.take i) q.coincide).failAt 0x11 q (St.hwFault, i)
        | none =>
          (s.writeWords w.ctx l q.coincide).replyAs (s.fget R.CHIP_ID_ID) 0x11 q (if l.length = q.n 1 then St.ok else St.part)
            [BitVec.ofNat 32 l.length]

/-- REG_SET_BITS and REG_CLEAR_BITS: one read and write of the word, whichever of its addresses is named (R263, R352). -/
def State.bitRequest (s : State) (op : BitVec 8) (q : Req) (sense : RegDesc → Word → Word → Word) : State :=
  s.request op q fun s =>
    if (wordsFrom (q.n 0)).isNone then s.fail op q St.badAddress
    else
      let w := s.whoOf q
      let a := (aliasOf (q.n 0)).1
      let old := s.readValue w.ctx a
      let v := sense (descAt a) old (q.p 1)
      match s.writeWordRefused w a v 0 with
      | some st => s.fail op q st
      | none =>
        let id := s.fget R.CHIP_ID_ID
        let s := (s.writeWord w.ctx a v).coincident q.coincide a
        s.replyAs id op q St.ok [old, s.readValue w.ctx a]

/-- REG_SET_BITS. -/
def doRegSetBits (q : Req) (s : State) : State := s.bitRequest 0x12 q setSense

/-- REG_CLEAR_BITS. -/
def doRegClearBits (q : Req) (s : State) : State := s.bitRequest 0x13 q clearSense

/-- REG_GATHER. -/
def doRegGather (q : Req) (s : State) : State :=
  s.request 0x14 q fun s =>
    let w := s.whoOf q
    let l := q.params.map (·.toNat)
    let check (a : Nat) : Option (BitVec 8) :=
      if (wordsFrom a).isNone then some St.badAddress else s.readWordRefused w (aliasOf a).1
    match firstRefused check 0 l with
    | some r => s.failAt 0x14 q r
    | none =>
      let (ws, s) := s.readWords w.ctx l
      s.reply 0x14 q St.ok [] (ws.flatMap wordBytes)

/-! ## The Veing port's access (19_management_ports.md R439 to R441) -/

/-- The privilege of the port. -/
def State.portPriv (s : State) : Option Nat :=
  if s.need 2 matches .none then some 2 else if s.need 0 matches .none then some 0 else none

/-- RSTAT of a status (Table 19.1). For BAD_PARAM and FENCED the table has no code: a free value that is not OK (log entry 4). -/
def State.rstatOf (s : State) (st : BitVec 8) : Nat × State :=
  if st = St.ok then (0, s)
  else if st = St.denied then (2, s)
  else if st = St.busy then (3, s)
  else if st = St.badAddress then (4, s)
  else if st = St.isSealed then (5, s)
  else if st = St.lifecycle then (6, s)
  else if st = St.hwFault then (7, s)
  else
    let (w, s) := s.free
    (1 + w.toNat % 7, s)

/-- VA advances behind an access that is OK. -/
def State.vaNext (s : State) : State :=
  if s.flag R.VG_CFG_AUTOINC then s.rset R.VG_VA (s.rget R.VG_VA + 4) else s

/-- What refuses the port's access to VA, with the value a WRITE carries. -/
def State.portRefused (s : State) (w : Who) (a : Nat) (v : Option Word) : Option (BitVec 8) :=
  if (wordsFrom a).isNone then some St.badAddress
  else match v with
  | some v =>
    let x := s.sensed 32 a v
    s.writeWordRefused w x.1 x.2 0
  | none => s.readWordRefused w (aliasOf a).1

/-- VEING_BOUNDARY_ACCESS: the READ or WRITE that waits. -/
def doVeingBoundaryAccess (s : State) : State :=
  let a := (s.rget R.VG_VA).toNat
  let w : Who := { ctx := 32, priv := s.portPriv }
  match s.veing.cmd with
  | some (4, seq, data) =>
    let v : Word := BitVec.ofNat 32 (65536 * data + s.veing.wh.toNat)
    match s.portRefused w a (some v) with
    | some st =>
      let (r, s) := s.rstatOf st
      s.veingDone r seq 0
    | none =>
      let x := s.sensed 32 a v
      ((s.vaNext).writeWord 32 x.1 x.2).veingDone 0 seq 0
  | some (5, seq, _) =>
    match s.portRefused w a none with
    | some st =>
      let (r, s) := s.rstatOf st
      s.veingDone r seq 0
    | none =>
      let a := (aliasOf a).1
      let s := s.current a
      let v := s.readValue 32 a
      let s := { s.readEffect 32 a with veing := { s.veing with rh := (v >>> 16).setWidth 16 } }.vaNext
      s.veingDone 0 seq (field v 15 0)
  | _ => s

def execVeingBoundaryAccess (s : State) : Host.Outcome State Fault Refusal := .next (doVeingBoundaryAccess s)

end Sys2Proof.Machine
end

