-- ==== Sys2Proof/Machine/Inject.lean ====
section
/-! DEFINITION. Rime mode: INJECT (15_safety_faults.md R381 to R383). An injection acts as its source's detector does, with its bit in
FLT_INJ. What P2 and P3 name for each source is this model's choice where the manual leaves it open (log entry 16). -/

namespace Sys2Proof.Machine

/-- Whether a number is the address of a FLT_REAL register (Table 22.1). -/
def fltReal (a : Nat) : Bool := fltOffset a == some 0

/-- The number of units that a source has: P2 names one below it; 1 where the source has a single unit, which takes no P2. -/
def unitsOf (b src : Nat) : Nat :=
  if b = 0x60000 then (match src with | 0 => 1024 | 1 => 1024 | 2 => 1024 | 5 => 1024 | 6 => 64 | 7 => 64 | 8 => 64 | 11 => 1024 | _ => 1)
  else if b < 0x40000 then (if src = 2 then 8 else 1)
  else if b = 0x70000 then (match src with | 0 => 152 | 1 => 152 | 3 => 8 | _ => 1)
  else if b = 0xA0000 then (match src with | 0 => 2 ^ 32 | 1 => 78 | 3 => 8 | _ => 1)
  else 1

/-- The unit that P2 names. -/
def unitOf (b src p2 : Nat) : Nat := if unitsOf b src = 1 then 0 else p2

/-! ## Uncorrectable errors (14_memories.md R347, Table 14.4) -/

/-- An ECC word as P2 and P3 name it: space in P2 [7:0], core in P2 [14:8], and the byte offset in P3. -/
def eccSize (space : Nat) : Nat := match space with | 0xF0 => 0x600000 | 0xF1 => 0x10000 | _ => (spaceSize space).getD 0

def eccBad (p2 p3 : Nat) : Bool :=
  decide (eccSize (p2 % 256) ≤ p3) || decide (0x8000 ≤ p2) || decide (68 ≤ p2 / 256)

/-- An error met by playback of a step that runs (01_architecture.md R25). -/
def State.eccPlayback (s : State) (c : Nat) (inj : Bool) : State :=
  match s.tileOfCore c with
  | some t => if s.stepState t = stRunning then s.coreSource c 0 inj else s
  | none => s

/-- The effect of Table 14.4 where the error is met. In the capture ring it is a stored record where the slot holds one that can be read;
elsewhere it is met by the next record on its way to the ring (08_acquisition.md R211, R213). -/
def State.eccEffect (s : State) (space c off : Nat) (inj : Bool) : State :=
  let taint (s : State) (t : Nat) : State := if inj && inStep (s.stepState t) then s.suspectFlag t Sf.injected else s
  match space with
  | 5 =>
    match s.tileOfCore c with
    | none => s
    | some t =>
      let top := 0x80000 - s.maskBytes t
      let s := taint s t
      if top ≤ off then s
      else if top - s.poolBytes t ≤ off then
        let s := s.modTile t fun x => { x with fc := x.fc.map fun (e : Nat × FcSite) => (e.1, { e.2 with corrupt := true }) }
        if inStep (s.stepState t) then s.suspectFlag t Sf.corrupt else s
      else if s.ringHolds t (off / 16) then
        s.modTile t fun x => { x with cap := { x.cap with bad := off / 16 :: x.cap.bad.filter (· != off / 16) } }
      else if s.stepState t = stRunning ∧ s.flag (R.CAP_CFG_EN t) ∧ !s.flag (R.CAP_STATUS_STOPPED t) then
        s.modTile t fun x => { x with cap := { x.cap with ecc := true } }
      else s
  | 6 =>
    match s.tileOfCore c with
    | none => s
    | some t =>
      let s := s.mwrite 6 t (off / 4 * 4) [0xFF, 0xFF, 0xFF, 0xFF]
      let s := (s.setFlag (R.TDC_STAT_BINSAT (16 * t + off / 4096)) true).setFlag (R.PROF_STATUS_BINSAT t) true
      taint s t
  | 0x10 =>
    if 0x400000 ≤ off ∧ off < 0x600000 ∧ s.staging.isSome then s.stagingDrop St.hwFault
    else if 0x600000 ≤ off ∧ off < 0x800000 then
      { s with dumping := s.dumping.map fun (d : Dump) => { d with flashOnly := true } }
    else s
  | 0x11 => s.vaultWipe.raise 0x50000 8 inj
  | 0xF0 => { s with eccFrame := true }
  | 0xF1 => s.trapRoutine 1 inj
  | _ => s.eccPlayback c inj

/-- An uncorrectable error: its registers, its effect, and source 0 of the memory control block. The word holds a real one until it is written
again, as profile memory's is at once. -/
def State.eccError (s : State) (p2 off : Nat) (inj : Bool) : State :=
  let w := (p2, eccAlign (p2 % 256) off)
  let s := if inj || p2 % 256 = 6 || s.eccReal.contains w then s else { s with eccReal := s.eccReal ++ [w] }
  ((s.eccNote w).eccEffect (p2 % 256) (p2 / 256) off inj).raise 0xA0000 0 inj

/-! ## The background test (R353 to R357) -/

/-- BT_REGION_TEST: one region is tested; its contents are as before (R354). `found` are defects that it finds, in the macro of that region,
`corrected` and `bad` the corrected and the uncorrectable errors that users of all memories have met since the last row. -/
def doBtRegionTest (found : List Defect) (corrected bad : List (Nat × Nat)) (s : State) : State :=
  let s := bad.foldl (fun s e => s.eccError e.1 e.2 false) (s.correct corrected)
  if !s.btRuns || !s.btDue then s
  else
    let p := btPlace s.btRegion btMemories
    let s := { s with btAt := some s.now }.btAdvance
    if !s.btReaches p.1 then s
    else (found.filter fun d => d.place = p.1 ∧ d.unit = p.2).foldl (fun s d => s.defect d) (s.evCount 66)

def execBtRegionTest (r : RegionTest) (s : State) : Host.Outcome State Fault Refusal :=
  .next (doBtRegionTest r.defects r.corrected r.bad s)

/-! ## The detectors of each block -/

/-- Where a defect without spare lies: cores 0 to 67, firn banks, vault, another shared memory. -/
def placeOf (u : Nat) : DefectAt :=
  if h : u < 68 then .core ⟨u, h⟩
  else if h : u - 68 < 8 then .firn ⟨u - 68, h⟩
  else if u = 76 then .vault else .shared

def State.injSafety (s : State) (src u p3 : Nat) : State :=
  let pin (f : Fld) (fn : Nat) : State := (s.pinReaction f fn src u true).boundary (u / 16)
  match src with
  | 0 => pin (R.CH_FAULT_OVER_I u) 1
  | 1 => pin (R.CH_FAULT_OVER_V u) 1
  | 2 => pin (R.CH_FAULT_XCHK u) 2
  | 3 => if 920 < p3 then s.sf3 [3] [] true else s
  | 4 => s.sf3 [4] [] true
  | 5 => (s.checkBad (R.CH_FAULT_CHK_FAIL u) u true true).boundary (u / 16)
  | 6 =>
    let s := if s.faultable u then (s.suspectFlag u Sf.injected).endStep u St.hwFault 5 else s
    s.safety 4 0xFFFF 6 true
  | 7 => s.sntViolate u true
  | 8 => if s.sntFenced u then s.faultRaise 0x60000 8 true else ((s.fenceSnt u 5).faultRaise 0x60000 8 true).fenceDone 3 u
  | 9 => (((s.setFlag R.TIME_STATUS_SLIP true).suspectAll Sf.time).suspectAll Sf.injected).raise 0x60000 9 true
  | 10 =>
    let s := ((s.setFlag R.TIME_STATUS_REF_LOST true).setFlag R.TIME_STATUS_VALID false).suspectAll Sf.injected
    (s.endSteps (List.range 64) St.hwFault 9).raise 0x60000 10 true
  | _ =>
    let (w, s) := s.free
    let s := if inStep (s.stepState (u / 16)) then s.suspectFlag (u / 16) Sf.injected else s
    s.calReject u (p3 % 8) [w.toNat % 11] true

def State.injLink (s : State) (l src u : Nat) : State :=
  let st := s.linkState l
  match src with
  | 1 => if st = lkActive ∨ st = lkRetrain then s.goDown l 1 true else s.linkEvt l 1 true
  | 2 => if st = lkActive ∨ st = lkRetrain then s.loseLane l u 1 true else s.linkEvt l 2 true
  | 3 =>
    if st = lkTraining then
      let s := (s.linkStop l lkDown).count (R.LINK_TRAINFAIL_COUNT l)
      (s.modLink l fun c => { c with fails := min 8 (c.fails + 1) }).linkEvt l 3 true
    else s.linkEvt l 3 true
  | 4 =>
    if st = lkActive then ((s.modLink l fun c => { c with limit := true }).linkEvt l 4 true).enterRetrain l
    else s.linkEvt l 4 true
  | _ => s.linkEvt l src true

def State.injSecurity (s : State) (src : Nat) : State :=
  match src with
  | 6 => ((s.setFlag R.LC_STATUS_PUF_OK false).chipEvent 0x404).raise 0x50000 6 true
  | 7 => { s with drbgBad := true }.raise 0x50000 7 true
  | 8 => s.vaultWipe.raise 0x50000 8 true
  | k => s.tamper (BitVec.ofNat 6 (2 ^ k)) true

def State.injMemory (s : State) (src u p3 : Nat) : State :=
  match src with
  | 0 => s.eccError u p3 true
  | 1 => s.noSpare (placeOf u) true
  | 2 => s.raise 0xA0000 2 true
  | _ => s.noSpare (placeOf (68 + u)) true

def State.injPower (s : State) (src u : Nat) (p3 : Word) : State :=
  match src with
  | 0 =>
    let near := ((neighbours u).filter fun k => !s.sensorFailed k).map fun k => signed 16 (s.fget (R.THS_READ_TEMP k))
    let med := if near.isEmpty then 0 else median2 near / 2
    let s := (s.setFlag ⟨R.THS_FAIL (u / 32), u % 32, u % 32⟩ true).evCount 84
    (s.chipEvent 0x202 [BitVec.ofNat 32 u, p3, BitVec.ofNat 32 (unsigned 32 med)]).raise 0x70000 0 true
  | 1 => ((s.setFlag R.THR_STATUS_RATE_WARN true).chipEvent 0x203 [BitVec.ofNat 32 u, p3]).raise 0x70000 1 true
  | 2 => s.throttleAbort true
  | 3 =>
    if h : u < 8 then
      if (s.excursion u).isSome then s.raise 0x70000 3 true
      else
        let b := s.now
        ((doSupplyExcursionBegin ⟨u, h⟩ s).suspectAll Sf.injected).excursionEnd u b p3 true
    else s
  | _ => s.controlledStop true

def State.injMoraine (s : State) (src : Nat) : State :=
  match src with
  | 0 => (s.setFlag R.MRN_STATUS_AUTHFAIL true).raise 0x80000 0 true
  | 1 =>
    let s := (s.count R.MRN_LOSTCNT_COUNT).setFlag R.MRN_STATUS_LOST true
    { s with mrnLost := s.mrnLost + 1 }.raise 0x80000 1 true
  | 2 => (s.setFlag R.MRN_STATUS_FLASHERR true).raise 0x80000 2 true
  | _ => s.dumpMissed true

def State.injPorts (s : State) (src : Nat) : State :=
  match src with
  | 0 => s.frameError 1 true
  | 1 => s.frameError 3 true
  | 2 => s.contBreak true
  | _ => s.raise 0x90000 3 true

/-- One injected occurrence of a source. -/
def State.injectAt (s : State) (b src u : Nat) (p3 : Word) : State :=
  if b = 0x60000 then s.injSafety src u p3.toNat
  else if b < 0x40000 then s.injLink ((b - 0x20000) / 0x1000) src u
  else if b = 0x40000 then s.trapRoutine (src + 1) true
  else if b = 0x50000 then s.injSecurity src
  else if b = 0x70000 then s.injPower src u p3
  else if b = 0x80000 then s.injMoraine src
  else if b = 0x90000 then s.injPorts src
  else if b = 0xA0000 then s.injMemory src u p3.toNat
  else s.coreSource ((b - 0x900000) / 0x1000) src true

/-- Whether P0 to P3 of INJECT lie outside their ranges (R381). -/
def injectBad (q : Req) : Bool :=
  let b := q.n 0 - 0xF00
  let src := q.n 1 % 32
  !fltReal (q.n 0) || decide (sources b ≤ src) || q.p 1 &&& 0xFFFFFCE0 != 0 ||
    (unitsOf b src != 1 && decide (unitsOf b src ≤ q.n 2)) || (b == 0xA0000 && src == 0 && eccBad (q.n 2) (q.n 3)) ||
    (b == 0x60000 && src == 11 && decide (6 ≤ q.n 3))

/-- INJECT. -/
def doInject (q : Req) (s : State) : State :=
  s.request 0x7E q fun s =>
    if injectBad q then s.fail 0x7E q St.badParam
    else if s.fget R.LC_STATUS_STATE ≠ 0 then s.fail 0x7E q St.lifecycle
    else
      let b := q.n 0 - 0xF00
      let src := q.n 1 % 32
      let u := unitOf b src (q.n 2)
      let rest := s.injHeld.filter (· != (b, src, u))
      let ecc := b == 0xA0000 && src == 0
      let s := if ecc then { s with eccWords := s.eccWords.filter (·.1 != u) } else s
      if (q.p 1).getLsbD 9 then { s with injHeld := rest }.reply 0x7E q St.ok
      else
        let s := if (q.p 1).getLsbD 8 then { s with injHeld := rest ++ [(b, src, u)] } else s
        let s := if ecc && (q.p 1).getLsbD 8 then { s with eccWords := s.eccWords ++ [(u, q.n 3)] } else s
        (s.reply 0x7E q St.ok).injectAt b src u (q.p 3)

end Sys2Proof.Machine
end

