-- ==== Sys2Proof/Machine/Startup.lean ====
section
/-! DEFINITION. Resets, boot, the test access port and self-test on request (20_startup.md R452 to R466; 21_electrical_package.md R481 to
R483). -/

namespace Sys2Proof.Machine

/-! ## Resets (R454 to R457, Table 20.3) -/

/-- A power-on reset: what OTP and flash hold is kept. Whether VDD_AON stayed up, so that staged records survive, is a free value (log
entry 4). -/
def State.powerOn (s : State) : State :=
  let (w, s) := s.free
  let up := w.getLsbD 0
  let seq := s.fget R.MRN_SEQ_SEQ
  let kept : State :=
    { regs := keepRegs otpMask s.regs
      ackGen := s.ackGen
      sealStuck := s.sealStuck
      repairs := s.repairs
      cert := s.cert
      certDigest := s.certDigest
      mrn := if up then s.mrn else s.mrn.filter fun e => !s.staged.contains e.1
      staged := if up then s.staged else []
      mrnLost := if up then s.mrnLost else 0
      mrnClear := s.mrnClear
      dumpFlash := s.dumpFlash
      ocxo := s.ocxo
      lvlClr := s.lvlClr
      freeCtr := s.freeCtr
      answer := s.answer
      sent := s.sent
      pending := s.pending }
  let kept := kept.fset R.MRN_SEQ_SEQ (if up then seq else seq - s.staged.length)
  let kept := (kept.fset R.MRN_STATUS_STAGED kept.staged.length).oldest
  let kept := (kept.setFlag R.LVL_CLR_STATUS_ACTIVE s.lvlClr).setFlag R.LVL_CLR_STATUS_SEEN s.lvlClr
  kept.count R.MRN_PWRCYC_COUNT

/-- POWER_ON_RESET. -/
def doPowerOnReset (s : State) : State := s.powerOn

def execPowerOnReset (s : State) : Host.Outcome State Fault Refusal := .next (doPowerOnReset s)

/-- WARM_RESET: WARMRST_N asserts. -/
def doWarmReset (s : State) : State := s.warmReset 2

def execWarmReset (s : State) : Host.Outcome State Fault Refusal := .next (doWarmReset s)

/-- SUPPLY_RESET: a rail of Table 17.5 falls below its reset level; VDDC, VDD_AON and VDDS reset as PORST_N does. -/
def doSupplyReset (rail : Fin 8) (s : State) : State :=
  if rail.val < 3 then s.powerOn else if s.monitored rail.val then s.warmReset 1 else s

def execSupplyReset (rail : Fin 8) (s : State) : Host.Outcome State Fault Refusal := .next (doSupplyReset rail s)

/-! ## Cores and channels at boot (R462; 16_self_repair.md R387, R395) -/

/-- A tile whose core is fenced at boot runs on the lowest spare core, or is fenced. -/
def State.rehome (s : State) (t : Nat) : State :=
  match s.pickSpare none with
  | some n => ((s.setSpare n false).fset (R.TILE_MAP_CORE t) n).fset (R.CORE_TILE_TILE n) t
  | none => s.fenceTile t 6

/-- Cores are fenced, each with its cause, and then their tiles re-homed. -/
def State.bootCores (s : State) (l : List (Nat × Nat)) : State :=
  let l := l.filter fun e => !s.coreFenced e.1
  let homes := l.filterMap fun e => s.tileOfCore e.1
  homes.foldl (fun s t => s.rehome t) (l.foldl (fun s e => s.fenceCore e.1 e.2) s)

/-- The units that valid entries of the repair log name: kind 0 channels, kind 1 cores. -/
def State.logged (s : State) (kind : Nat) : List Nat :=
  (List.range 64).filterMap fun k =>
    let w := s.rget (R.SR_OTP_W0 k)
    if w.getLsbD 0 && !w.getLsbD 1 && field w 3 2 == kind then some (field w 25 16) else none

def State.bootChans (s : State) (l : List Nat) (cause : Nat) : State :=
  l.foldl (fun s ch => if s.chanFenced ch then s else s.fenceChan ch cause) s

/-! ## Images (R459) -/

/-- The number in bytes `i` to `j` of an image (Table 20.5). -/
def imageNat (x : ImageSlot) (i j : Nat) : Nat := leNat (sub x.image i j)

def imageVer (x : ImageSlot) : Nat := imageNat x 6 7

/-- The patch payload of an image, where it has one. -/
def imagePatch (x : ImageSlot) : Option (List Byte) :=
  let n := imageNat x 16 19
  if n = 0 then none else some ((x.image.drop (imageNat x 12 15)).take n)

/-- Whether a slot's header is well formed and applies to this revision, whose ROM version is 0x0100 (11_naljo_engine.md R284). DEDUCED: a
well-formed header has FORMAT 1, an IVER other than 0, reserved bytes of 0, and a LENGTH and a patch that the layout has room for (log entry 9). -/
def imageListed (x : ImageSlot) : Bool :=
  let n := imageNat x 8 11
  let off := imageNat x 12 15
  let len := imageNat x 16 19
  decide (64 ≤ x.image.length) && imageNat x 0 3 == 1 && imageNat x 4 5 == 0x0100 && imageVer x != 0 && allZero (sub x.image 20 63) &&
    decide (160 ≤ n ∧ n ≤ 0x400000) && (len == 0 || decide (64 ≤ off ∧ off + len + 96 ≤ n))

/-- Whether a slot's image verifies, and its patch passes the checks of R283 from item 3 onwards. -/
def State.imageOk (s : State) (x : ImageSlot) : Bool :=
  decide (imageNat x 8 11 ≤ x.image.length) && x.sigOk && match imagePatch x with
    | some p => (s.patchRefused p x.patchSig).isNone
    | none => true

/-- Which slot boots, and the slots found invalid: the candidate is verified first, the other only where it fails. -/
def pickImage (ok : ImageSlot → Bool) (a b : ImageSlot) : Option Bool × Bool × Bool :=
  let la := imageListed a
  let lb := imageListed b
  let second := lb && (!la || decide (imageVer a < imageVer b))
  if second then
    if ok b then (some true, !la, false)
    else if la && ok a then (some false, false, true) else (none, true, true)
  else if la then
    if ok a then (some false, false, !lb)
    else if lb && ok b then (some true, true, false) else (none, true, true)
  else (none, true, true)

/-- The image that boots: its version and its patch. -/
def State.bootImage (s : State) (r : BootReport) : State :=
  let (pick, bad0, bad1) := pickImage s.imageOk r.slot0 r.slot1
  let s := (s.setFlag R.BOOT_STATUS_SLOT0BAD bad0).setFlag R.BOOT_STATUS_SLOT1BAD bad1
  match pick with
  | none => s.setFlag R.BOOT_STATUS_RECOVERY true
  | some k =>
    let x := if k then r.slot1 else r.slot0
    let s := (s.setFlag R.BOOT_STATUS_SLOT k).fset R.IMAGE_VER_IVER (imageVer x)
    match imagePatch x with
    | none => s
    | some p => s.patchIn (patchOf p)

/-! ## Board table (R460; 12_serial_links.md R289) -/

/-- Whether a board table is valid. -/
def tableOk (b : List Byte) : Bool :=
  b.length == 788 && leNat (sub b 0 3) == 1 && allZero (sub b 10 15) &&
    leNat (sub b 784 787) == (((b.take 784).foldl crcByte 0xFFFFFFFF) ^^^ 0xFFFFFFFF).toNat

def tableEq (b : List Byte) (n : Nat) : Word × Word :=
  (BitVec.ofNat 32 (leNat (sub b (16 + 8 * n) (19 + 8 * n))), BitVec.ofNat 32 (leNat (sub b (20 + 8 * n) (23 + 8 * n))))

/-- The lanes whose entry is invalid. -/
def badEq (b : List Byte) : List Nat := (List.range 96).filter fun n => eqBad (tableEq b n).1 (tableEq b n).2

/-- The board table is loaded: enables, roles, UPLINK, the nominal of the VIO monitor, equalisation. -/
def State.loadTable (s : State) (b : List Byte) : State :=
  if !tableOk b then s.setFlag R.BOOT_STATUS_BTBAD true
  else
    let en := leNat (sub b 4 5)
    let role := leNat (sub b 6 7)
    let s := (List.range 12).foldl (fun s l =>
      (s.setFlag (R.LINK_CTRL_EN l) (en.testBit l)).setFlag (R.LINK_CTRL_ROLE l) (role.testBit l)) s
    let s := { s with vioSel := b[9]? }.fset R.PROTO_CFG_UPLINK (leNat (sub b 8 8))
    (List.range 96).foldl (fun s n =>
      let e := tableEq b n
      if eqBad e.1 e.2 then s
      else (s.rset (R.LANE_EQ_LO (n / 8) (n % 8)) e.1).rset (R.LANE_EQ_HI (n / 8) (n % 8)) e.2) s

/-! ## Boot (R461 to R463) -/

/-- What the self-tests found, in BOOT_STATUS and POST_RESULT: channels, lanes and cores that they fence. -/
def State.postResult (s : State) (r : BootReport) (chans lanes cores : Nat) : State :=
  let mem := s.unrepaired r.defects
  let s := ((s.fset R.POST_RESULT_CH chans).fset R.POST_RESULT_LANES lanes).fset R.POST_RESULT_CORES cores
  let s := s.setFlag ⟨R.POST_RESULT, 0, 0⟩ mem
  s.setFlag R.BOOT_STATUS_POSTFAIL (!r.defects.isEmpty || decide (0 < chans + lanes + cores))

/-- What the pins and the committed correction state ask of the tiles when boot begins (R464; 06_pin_electronics.md R145; 09_calibration.md
R234). -/
def State.bootPins (s : State) : State :=
  let s := (List.range 64).foldl (fun s t => s.calLoad t) s
  let s := if (s.calNewest syncKey).measured then
      s.fset R.SYNC_DESKEW_DESKEW (unsigned 16 ((s.calNewest syncKey).values.getD 0 0))
    else s
  if s.lvlClr then (List.range 1024).foldl (fun s ch => (List.range 11).foldl (fun s k => s.applySafe ch k) s) s else s

/-- DEVICE_ID: the first 16 bytes of the SHA-384 digest of the IDK public key (13_security.md R314). -/
def State.identify (s : State) : State :=
  let id := (digest idkPub).take 16
  (List.range 4).foldl (fun s k => s.rset (R.DEVICE_ID k) (BitVec.ofNat 32 (leNat (sub id (4 * k) (4 * k + 3))))) s

/-- The certificate in flash, as boot finds it, is checked against the digest in the life-cycle record (13_security.md R312, R316); the one
that the device left the factory with matches its record. -/
def State.checkCert (s : State) (found : Option (List Byte)) : State :=
  let s := { s with cert := found.or s.cert }
  { s with certBad := match s.cert, s.certDigest with
      | none, none => false
      | c, d => digest (c.getD Config.certificate) != d.getD (digest Config.certificate) }

/-- BOOT: from the release of a reset to DONE. Faults that boot finds are raised last, since a reaction may reset the chip. -/
def doBoot (r : BootReport) (s : State) : State :=
  if s.flag R.BOOT_STATUS_DONE then s
  else
    let s := ({ s with tap := 2 }.checkCert r.cert).setFlag R.LC_STATUS_PUF_OK r.pufOk
    let s := if r.pufOk then s.identify else s
    let s := s.syncSealBlk.bootPins.bootImage r
    let s := s.loadTable r.boardTable
    let cores := (r.badCores.map (·.val)).eraseDups.filter fun c => !s.coreFenced c
    let chans := (r.badChans.map (·.val)).eraseDups.filter fun ch => !s.chanFenced ch
    let lanes := (r.badLanes.map (·.val)).eraseDups
    let s := s.postResult r chans.length lanes.length cores.length
    let logged := (s.logged 1).eraseDups.filter fun c => !cores.contains c
    let s := s.bootCores (cores.map (·, 2) ++ logged.map (·, 6))
    let s := (s.bootChans chans 4).bootChans (s.logged 0) 6
    let s := s.fenceReq.foldl (fun s (f : FenceReq) => s.fenceApply f.kind f.unit f.cause) s
    let bad := lanes.map (·, 1) ++ if s.flag R.BOOT_STATUS_BTBAD then [] else (badEq r.boardTable).map (·, 5)
    let s := bad.foldl (fun s e => s.fset (R.LINK_LANEFENCE_FENCE (e.1 / 8)) (s.fencedLanes (e.1 / 8) ||| 2 ^ (e.1 % 8))) s
    let s := s.stage 0x01 ([BitVec.ofNat 8 (s.fget R.RESET_CAUSE_KIND), BitVec.ofNat 8 (s.fget R.LC_STATUS_STATE)] ++
      leBytes 2 (s.fget R.MCODE_VERSION_ROM))
    let s := (if r.flashFails then s else s.flushed).spareChecked (List.range 68)
    let s := ({ s with commitAt := s.now }.rset R.BOOT_TIME r.microseconds).setFlag R.BOOT_STATUS_DONE true
    let s := (List.range 12).foldl (fun s l => if s.flag (R.LINK_CTRL_EN l) then s.train l else s) s
    let s := bad.foldl (fun s e => s.fenceLane (e.1 / 8) (e.1 % 8) e.2) s
    let s := (r.defects.filter fun d => decide (d.unit < placeUnits d.place)).foldl (fun s d => s.defect d) s
    let s := if r.flashFails then (s.setFlag R.MRN_STATUS_FLASHERR true).raise 0x80000 2 else s
    if r.pufOk then s else (s.chipEvent 0x404).raise 0x50000 6

def execBoot (r : BootReport) (s : State) : Host.Outcome State Fault Refusal := .next (doBoot r s)

/-! ## The test access port (R481 to R483) -/

/-- The instruction that a value selects. -/
def State.tapSelect (s : State) (ir : BitVec 4) : BitVec 4 :=
  if 4 < ir.toNat then 0xF else if s.fget R.LC_STATUS_STATE = 2 ∧ ir ≠ 2 then 0xF else ir

/-- TAP_INSTRUCTION_UPDATE: EXTEST, CLAMP and HIGHZ end the steps held, and an arming that waits. During boot the port is held in
Test-Logic-Reset. -/
def doTapInstructionUpdate (ir : BitVec 4) (s : State) : State :=
  if !s.flag R.BOOT_STATUS_DONE then s
  else
    let s := { s with tap := s.tapSelect ir }
    if !s.bscan then s
    else
      let s := (s.splits.filter fun (x : Split) => x.opcode == 0x30).foldl (fun s x => s.cancelSplit x St.busy) s
      s.endSteps (List.range 64) St.hwFault 15

def execTapInstructionUpdate (ir : BitVec 4) (s : State) : Host.Outcome State Fault Refusal := .next (doTapInstructionUpdate ir s)

/-! ## Self-test on request (R465) -/

/-- SELFTEST. -/
def doSelftest (q : Req) (s : State) : State :=
  s.request 0x70 q fun s =>
    if q.n 0 = 0 ∨ 8 ≤ q.n 0 then s.fail 0x70 q St.badParam
    else if (q.tiles 1).any fun t => !s.idle t then s.fail 0x70 q St.busy
    else if 256 ≤ s.splits.length then s.fail 0x70 q St.busy
    else s.start 0x70 q

/-- SELFTEST_DONE: the cores that failed parts 1 to 3, those that failed part 4, and the channels that failed their retest, of the
named tiles and the tests selected. A failed core part is a failed retest (16_self_repair.md R386). -/
def doSelftestDone (o : OpRef) (badCores badStores : List (Fin 68)) (badChans : List (Fin 1024)) (s : State) : State :=
  match s.split? 0x70 o with
  | none => s
  | some x =>
    let tiles := tilesOf (x.params.getD 1 0) (x.params.getD 2 0)
    let tests := x.params.getD 0 0
    let named (l : List (Fin 68)) : List Nat := (l.map (·.val)).filter fun c => tiles.any fun t => s.coreOf t == c
    let a := if tests.getLsbD 0 then named badCores else []
    let b := if tests.getLsbD 1 then named badStores else []
    let c := if tests.getLsbD 2 then
        (badChans.map (·.val)).filter fun ch => tiles.contains (ch / 16) && s.fget (R.CH_MODE_MODE ch) == 0
      else []
    let failed := (!a.isEmpty).toNat + 2 * (!b.isEmpty).toNat + 4 * (!c.isEmpty).toNat
    let s := (s.bootChans c 2).complete x (if failed = 0 then St.ok else St.hwFault) [BitVec.ofNat 32 failed]
    let s := (a ++ b).eraseDups.foldl (fun s k =>
      ((s.fset (R.CORE_HEALTH_RESULT k) 2).permanent k false).raise (coreBase k) 3) s
    tiles.foldl (fun s t => s.boundary t) s

def execSelftestDone (o : OpRef) (badCores badStores : List (Fin 68)) (badChans : List (Fin 1024)) (s : State) :
    Host.Outcome State Fault Refusal := .next (doSelftestDone o badCores badStores badChans s)

end Sys2Proof.Machine
end

