-- ==== Sys2Proof/Machine/Microcode.lean ====
section
/-! DEFINITION. The microcode of the Naljo engine (11_naljo_engine.md R269, R270, R272, R274): the microword, the operations of Table 11.2,
and the routine that a patch puts in the place of a ROM routine. What the tables leave open of an operation is a constant of Config (log
entry 60). -/

namespace Sys2Proof.Machine

/-! ## The microword (R269) -/

/-- The fields of Table 11.1; COND and TARGET are those of the branch forms. -/
structure Microword where
  op : Nat
  clen : Nat
  a : Nat
  b : Nat
  imm : BitVec 12
  cond : Nat
  target : Nat
  deriving DecidableEq, Repr

def microOf (w : Word) : Microword :=
  { op := field w 31 26, clen := field w 25 24, a := field w 23 18, b := field w 17 12, imm := w.extractLsb' 0 12
    cond := field w 23 20, target := field w 15 0 }

/-- The control clocks that CLEN gives. -/
def Microword.clocks (i : Microword) : Nat := [1, 2, 4, 16].getD i.clen 1

/-- The status in IMM. -/
def Microword.status (i : Microword) : BitVec 8 := i.imm.setWidth 8

/-- The microword at a microaddress: of the ROM, or from 0xC000 of the patch RAM (R272). -/
def State.microAt (s : State) (pc : Nat) : Word :=
  if pc < 0xC000 then Config.romWord pc else s.mword 0x12 0 (4 * (pc - 0xC000))

/-! ## One microword (R270) -/

/-- How a routine goes on behind a microword: at a microaddress, to its end, or into a trap of Table 11.5. -/
inductive MicroNext where
  | goto (pc : Nat)
  | ends
  | trap (cause : Nat)
  deriving DecidableEq, Repr

def State.scratch (s : State) (k : Nat) : Word := s.micro.scratch.getD k 0

def State.setScratch (s : State) (k : Nat) (v : Word) : State := s.modMicro fun m => { m with scratch := m.scratch.set k v }

/-- Whether the microword at a microaddress has an uncorrectable error: in rime mode, one that an INJECT holds in patch RAM (R270;
14_memories.md R347). -/
def State.microBad (s : State) (pc : Nat) : Bool :=
  decide (0xC000 ≤ pc) && s.eccWords.any fun w => w.1 % 256 == 0xF1 && w.2 / 8 == (pc - 0xC000) / 2

/-- A register word of the register space is loaded, with what its read does; where none is defined the value is free. -/
def State.microLoad (s : State) (c a : Nat) : Word × State :=
  if a % 4 = 0 ∧ (regAt a).isSome then
    let r := s.readWords c [a]
    (r.1.headD 0, r.2)
  else s.free

def State.microStore (s : State) (c a : Nat) (v : Word) : State :=
  if a % 4 = 0 ∧ (regAt a).isSome then s.writeWord c a v else s

/-- Up to 4 words of the register write that the request asks for, from word `k` on. -/
def pendingWords (q : Req) (k n : Nat) : List (Nat × Word) :=
  match wordsFrom (q.n 0) with
  | none => []
  | some room => (((wordAddrs (q.n 0) (q.n 1) (q.n 2 == 1) room).zip (wordsOf q.payload)).drop k).take n

/-- A completion event is sent, unless its session has closed or QUIET suppresses it (R253, R255, R256). -/
def State.sendEvent (s : State) (p : Packet) (live quiet : Bool) : State :=
  if live && !(quiet && quietable p.status) then s.send { p with link := s.fget (R.SESS_STAT_LINK p.session.toNat), entry := none } else s

/-- An event with free contents (EVENT): the completion event that a completion routine is to send, the completion of the request's
split-phase operation, or a chip event. -/
def State.microEvent (s : State) (op : BitVec 8) (q : Req) : State :=
  let k := s.freeCtr
  let (w, s) := s.free
  let (v, s) := s.free
  match s.micro.event with
  | some (p, live, quiet) =>
    if w.getLsbD 0 then
      (s.modMicro fun m => { m with event := none, replied := true }).sendEvent
        { p with status := v.setWidth 8, params := Config.microParams k } live quiet
    else s.chipEvent v.toNat (Config.microParams k)
  | none =>
  match s.split? op { session := q.session, tag := q.tag } with
  | some x => if w.getLsbD 0 then s.complete x (v.setWidth 8) (Config.microParams k) else s.chipEvent v.toNat (Config.microParams k)
  | none => s.chipEvent v.toNat (Config.microParams k)

/-- The reply to the request, with free parameters and payload; an error carries one word and no payload (R243). -/
def State.microReply (s : State) (op : BitVec 8) (q : Req) (st : BitVec 8) : State :=
  let k := s.freeCtr
  let s := { s with freeCtr := k + 1 }.modMicro fun m => { m with replied := true }
  if quietable st then s.reply op q st (Config.microParams k) (Config.microPayload k)
  else s.reply op q st [(Config.microParams k).headD 0]

/-- What a microword below opcode 0x20 does: it computes, reads or stores, checks, writes, or starts a unit. One that would access
register space with CLEN 0 or 1 accesses none (R271). -/
def State.microData (s : State) (q : Req) (i : Microword) : State :=
  let c := q.session.toNat
  let a := s.scratch i.a
  let b := s.scratch i.b
  let words := pendingWords q a.toNat (i.imm.toNat % 4 + 1)
  if 0x10 ≤ i.op ∧ i.op < 0x16 ∧ i.clen < 2 then s
  else if i.op < 0x10 then
    let v := Config.microAlu i.op a b i.imm
    (s.setScratch i.a v).modMicro fun m => { m with last := v }
  else if i.op < 0x14 then
    if Config.microStores i.op then s.microStore c a.toNat b
    else
      let (v, s) := s.microLoad c a.toNat
      s.setScratch i.b v
  else if i.op = 0x14 then
    let ok := (s.writesRefused (s.whoOf q) words).isNone
    s.modMicro fun m => { m with checked := ok }
  else if i.op = 0x15 then s.writeWords c words
  else if 0x18 ≤ i.op ∧ i.op < 0x20 then s.modMicro fun m => { m with unit := some m.word }
  else s

/-- SPLIT: the operation is entered, with the microaddress of its completion routine (R277). -/
def State.microSplit (s : State) (op : BitVec 8) (q : Req) : State :=
  let k := s.ids
  let s := s.register op q
  match s.splitOf k with
  | some x => s.setSplit { x with entry := some (Config.microDone s.micro.word % 2 ^ 16) }
  | none => s

/-- What a microword from opcode 0x20 on does: the stack of CALL and RET, replies, events, operations, and the error exit. -/
def State.microFlow (s : State) (op : BitVec 8) (q : Req) (pc : Nat) (i : Microword) : State :=
  match i.op with
  | 0x21 => if 4 ≤ s.micro.stack.length then s else s.modMicro fun m => { m with stack := ((pc + 1) % 2 ^ 16) :: m.stack }
  | 0x22 => s.modMicro fun m => { m with stack := m.stack.tail }
  | 0x30 => s.microReply op q i.status
  | 0x31 => s.microEvent op q
  | 0x32 => s.microSplit op q
  | 0x3E => (s.fail op q i.status).modMicro fun m => { m with replied := true }
  | _ => s

/-- How the routine goes on after a microword fetched from `pc`. -/
def State.microNext (s : State) (pc : Nat) (i : Microword) : MicroNext :=
  let next := MicroNext.goto ((pc + 1) % 2 ^ 16)
  match i.op with
  | 0x20 => if Config.microCond i.cond s.micro.last s.micro.checked then .goto i.target else next
  | 0x21 => if 4 ≤ s.micro.stack.length then .trap 4 else .goto i.target
  | 0x22 => match s.micro.stack with
    | [] => .trap 4
    | r :: _ => .goto r
  | 0x30 => next
  | 0x31 => next
  | 0x32 => next
  | 0x3E => .ends
  | 0x3F => .ends
  | k => if k < 0x16 ∨ (0x18 ≤ k ∧ k < 0x20) then next else .trap 3

/-- The effect of a microword that has been fetched from `pc`, and how the routine goes on. -/
def State.microRun (s : State) (op : BitVec 8) (q : Req) (pc : Nat) (i : Microword) : State × MicroNext :=
  (if i.op < 0x20 then s.microData q i else s.microFlow op q pc i, s.microNext pc i)

/-! ## A routine (R274, R280) -/

/-- At most `n` more microwords from `pc` on: none where the routine has not ended by then, else the trap that ends it, 0 with none. -/
def State.microLoop (op : BitVec 8) (q : Req) : Nat → Nat → State → State × Option Nat
  | 0, _, s => (s, none)
  | n + 1, pc, s =>
    let w := s.microAt pc
    let i := microOf w
    let bad := s.microBad pc
    let s := s.modMicro fun m => { m with pc := pc, word := w, issued := m.issued + 1, clocks := m.clocks + i.clocks }
    if bad then (s, some 1) else
    match s.microRun op q pc i with
    | (s, .goto pc) => State.microLoop op q n pc s
    | (s, .ends) => (s, some 0)
    | (s, .trap c) => (s, some c)

/-- What a trap leaves of a routine: the operation reports INTERNAL, by its reply or, once that has been sent, by its completion; a completion
routine's by its completion event. The trap waits for the boundary. -/
def State.microTrap (s : State) (op : BitVec 8) (q : Req) (cause : Nat) : State :=
  let s := s.modMicro fun m => { m with trapped := some (m.pc, op, q.session, q.tag) }
  let s := match s.micro.event with
    | some (p, live, quiet) => s.sendEvent { p with status := St.internal, params := [0], payload := [] } live quiet
    | none =>
    if s.micro.replied then match s.split? op { session := q.session, tag := q.tag } with
      | some x => s.complete x St.internal
      | none => s
    else s.fail op q St.internal
  { s with items := s.items ++ [.trap cause] }

/-- The routine at a microaddress runs for a request: its scratch registers begin undefined, it issues at most 4,096 microwords, and one that
has not ended by then is ended by the bound. A completion routine has a completion event to send. -/
def State.microRoutine (s : State) (op : BitVec 8) (q : Req) (entry : Nat) (event : Option (Packet × Bool × Bool) := none) : State :=
  let k := s.freeCtr
  let s := { s with freeCtr := k + 64
                    micro := { scratch := (List.range 64).map fun i => Config.freeWord (k + i), event := event, replied := event.isSome } }
  let (r, e) := s.microLoop op q 4096 entry
  let r := r.ran r.micro.issued r.micro.clocks
  match e with
  | some 0 => r
  | some c => r.microTrap op q c
  | none => (r.count R.ENG_OVR_COUNT).microTrap op q 2

/-- The completion routine that a patch has registered runs at the completion of its unit (R277). -/
def State.microCompletion (s : State) (p : Packet) (live quiet : Bool) (entry : Nat) : State :=
  s.microRoutine (p.opcode &&& 0x7F) { session := p.session, tag := p.tag } entry (some (p, live, quiet))

end Sys2Proof.Machine
end

