-- ==== Sys2Proof/Machine/Routine.lean ====
section
/-! DEFINITION. The micro-routine boundary of the Naljo engine (01_architecture.md R33; 11_naljo_engine.md R277, R278, R283): which of
the items that wait is taken, and its routine. -/

namespace Sys2Proof.Machine

/-! ## Classes 1 to 3 -/

/-- The rank of an item of classes 1 and 2: traps by cause, then interrupts by the reporting block and within it by source; the
overflow interrupts stand behind the moraine block's sources. -/
def itemRank : Item → Option Nat
  | .trap c => some c
  | .safety _ _ src => some (2 ^ 10 + 0x60000 * 128 + src)
  | .fault b src => some (2 ^ 10 + b * 128 + src)
  | .overflow m => some (2 ^ 10 + 0x80000 * 128 + 32 + m)
  | _ => none

/-- The first of the items with the least rank. -/
def firstItem : List Item → Option Item
  | [] => none
  | i :: l =>
    match itemRank i, firstItem l with
    | none, r => r
    | some _, none => some i
    | some k, some j => if k ≤ (itemRank j).getD 0 then some i else some j

/-- Whether a trap of cause 16 comes from injected faults alone. -/
def State.trapInjected (s : State) (c : Nat) : Bool :=
  c == 16 && s.items.all fun i => match i with
    | .fault b src => s.nibble b src % 8 != 2 || (s.faultSet b src true && !s.faultSet b src false)
    | _ => true

/-- What follows the sending of a completion event. -/
def State.afterwards (s : State) : After → State
  | .none => s
  | .idle g => s.toIdle (s.members g)
  | .closeAll => s.closeAll

/-- The routine of an item of classes 1 to 3, which has left the queue (R256, R280, R376; 18_moraine_counters.md R425). -/
def State.itemRoutine (s : State) (inj : Bool) : Item → State
  | .trap c => s.trapRoutine c inj
  | .safety f unit src => s.routine.chipEvent 0x101 [BitVec.ofNat 32 f, BitVec.ofNat 32 unit, BitVec.ofNat 32 src]
  | .fault b src => s.faultRoutine b src
  | .overflow m => s.routine.chipEvent 0x501 [BitVec.ofNat 32 m, s.rget (R.PCNT_SAMP m)]
  | .completion p live quiet a =>
    (match p.entry with
      | some e => s.microCompletion p live quiet e
      | none => s.routine.sendEvent p live quiet).afterwards a
  | .request _ _ => s

def isCompletion : Item → Bool
  | .completion _ _ _ _ => true
  | _ => false

/-! ## Class 4 -/

/-- The dispatch table (R272): the first microaddress of an opcode's routine, in the patch RAM where an active patch overrides the entry. -/
def State.dispatchEntry (s : State) (op : BitVec 8) : Nat :=
  match s.overrides.find? fun e => e.1 == op.toNat with
  | some e => e.2
  | none => Config.romEntry op.toNat

/-- The ROM routine that an opcode dispatches to (R272, Table 10.6). -/
def romRoutine (op : BitVec 8) (q : Req) (s : State) : State :=
  match op.toNat with
  | 0x01 => doHello q s
  | 0x02 => s.bye q []
  | 0x03 => doPing q s
  | 0x10 => doRegRead q s
  | 0x11 => doRegWrite q s
  | 0x12 => doRegSetBits q s
  | 0x13 => doRegClearBits q s
  | 0x14 => doRegGather q s
  | 0x20 => doMemWrite q s
  | 0x21 => doMemRead q s
  | 0x22 => doSegWrite q s
  | 0x23 => doSegCommit q s
  | 0x24 => doStreamOpen q s
  | 0x25 => doStreamClose q s
  | 0x30 => doStepArm q s
  | 0x31 => doStepStart q s
  | 0x32 => doStepStatus q s
  | 0x33 => doAbort q s
  | 0x34 => doEventWait q s
  | 0x40 => doCaptureRead q s
  | 0x41 => doFailRead q s
  | 0x42 => doProfileRead q s
  | 0x43 => doMeasure q s
  | 0x50 => doCalRun q s
  | 0x51 => doCalCommit q s
  | 0x52 => doCalRead q s
  | 0x60 => doSealLoad q s
  | 0x61 => doAttest q s
  | 0x62 => doLifecycle q s
  | 0x63 => doIdentity q s
  | 0x64 => doPatchLoad q s
  | 0x70 => doSelftest q s
  | 0x71 => doFence q s
  | 0x72 => doCalve q s
  | 0x74 => doDumpRead q s
  | 0x75 => doFrost q s
  | 0x76 => doPowerState q s
  | 0x7E => doInject q s
  | _ => doUndefinedOpcode op q s

/-- Whether an active patch overrides the entry of an opcode. A stream packet is no request of the engine (10_uhleus_protocol.md R245). -/
def State.overridden (s : State) (op : BitVec 8) (q : Req) : Bool :=
  (s.overrides.any fun e => e.1 == op.toNat) && !((op == 0x22 || op == 0x23) && segStrm q)

/-- The requests that return the control clock to 400 MHz before their routine runs (R281). -/
def wakes (op : BitVec 8) : Bool := op == 0x24 || op == 0x30 || op == 0x60 || op == 0x64

/-- The routine of a patch runs for a request. One that enters a split-phase operation is held while a patch waits for its activation, and
completes with BUSY and no side effect while 256 are outstanding (R277, R283). -/
def State.patched (s : State) (op : BitVec 8) (q : Req) : State :=
  let s := if wakes op then s.wakeEngine else s
  let r := s.microRoutine op q (s.dispatchEntry op)
  if s.ids < r.ids then
    if s.flag R.ENG_STATUS_HOLDING then s.hold op q else if 256 ≤ s.splits.length then s.routine.fail op q St.busy else r
  else r

/-- The dispatch of a request (R272): to the routine of an active patch, or to that of the ROM. -/
def State.byTable (s : State) (op : BitVec 8) (q : Req) (rom : State → State) : State :=
  if s.overridden op q then s.patched op q else rom s

/-- Whether a request runs the ROM's routine and passes items 2 to 8 of R254. -/
def State.runs (s : State) (op : BitVec 8) (q : Req) : Bool := !s.overridden op q && (s.accept op q).isNone

/-- The routine that an opcode dispatches to. -/
def routineOf (op : BitVec 8) (q : Req) (s : State) : State := s.byTable op q (romRoutine op q)

/-- A request leaves the queue and its routine runs. Its packets leave on the link of its session's most recent request (R246). -/
def State.runRequest (s : State) (op : BitVec 8) (q : Req) : State :=
  let s := { s with items := s.items.erase (.request op q) }.taken op q
  let k := s.fget (R.SESS_STAT_LINK q.session.toNat)
  let q : Req := if h : op ≠ 0x01 ∧ k < 12 then { q with link := ⟨k, h.2⟩ } else q
  routineOf op q s

/-- The waiting request of a member of the round robin that comes first: the sessions by arrival, the HELLO buffers, member 32, by
link. -/
def State.nextOf (s : State) (n : Nat) : Option (BitVec 8 × Req) :=
  if n = 32 then
    (List.range 12).findSome? fun l => s.items.findSome? fun i => match i with
      | .request op q => if op = 0x01 ∧ q.link.val = l then some (op, q) else none
      | _ => none
  else (s.waiting n).head?

/-- The requests in the queue that are one and the same as a given one. -/
def State.copies (s : State) (op : BitVec 8) (q : Req) : Nat :=
  s.items.countP fun i => match i with
    | .request o r => o == op && r.session == q.session && r.tag == q.tag && r.age == q.age
    | _ => false

/-- What a member's turn does; one whose request is held while a patch waits for its activation passes (R283). -/
def State.turn (s : State) (n : Nat) : Option State :=
  match s.nextOf n with
  | none => none
  | some e =>
    let r := s.runRequest e.1 e.2
    if s.copies e.1 e.2 ≤ r.copies e.1 e.2 then none else some { r with rr := n }

/-- The first item of classes 1 and 2 is taken, and its routine runs. -/
def State.takeFirst (s : State) (i : Item) : State :=
  { s with items := s.items.erase i }.itemRoutine (match i with | .trap c => s.trapInjected c | _ => false) i

/-- ROUTINE_DISPATCH: a Veing access that waits is carried out (19_management_ports.md R441), then the first item that waits is taken and
its routine runs. An ABORT leaves the round robin where it is. -/
def doRoutineDispatch (s : State) : State :=
  let s := doVeingBoundaryAccess s
  match firstItem s.items with
  | some i => s.takeFirst i
  | none =>
    match s.items.find? isCompletion with
    | some i => { s with items := s.items.erase i }.itemRoutine false i
    | none =>
      match s.items.findSome? fun i => match i with
        | .request op q => if op = 0x33 then some q else none
        | _ => none with
      | some q => s.runRequest 0x33 q
      | none => (((List.range 33).map fun k => (s.rr + 1 + k) % 33).findSome? fun n => s.turn n).getD s

/-- FAULT_INTERRUPT: at the boundary, behind a Veing access that waits, the interrupt routine of the source named runs, once no trap and no
source before it waits (R33, R278, R441). -/
def doFaultInterrupt (b : FltBlk) (src : Fin 32) (s : State) : State :=
  let it := Item.fault (fltBase b) src.val
  if !s.items.contains it then s
  else
    let s := doVeingBoundaryAccess s
    if firstItem s.items = some it then s.takeFirst it else s

def execFaultInterrupt (b : FltBlk) (src : Fin 32) (s : State) : Host.Outcome State Fault Refusal := .next (doFaultInterrupt b src s)

/-! ## Traps and the routine bound (R280) -/

/-- The item that the engine takes next; a request that is held while a patch waits for its activation is not taken (R283). -/
def State.nextItem (s : State) : Option Item :=
  match firstItem s.items with
  | some i => some i
  | none =>
    match s.items.find? isCompletion with
    | some i => some i
    | none =>
      match s.items.find? fun i => match i with | .request op _ => op == 0x33 | _ => false with
      | some i => some i
      | none =>
        let taken (n : Nat) : Option (BitVec 8 × Req) := if (s.turn n).isSome then s.nextOf n else none
        (((List.range 33).map fun k => (s.rr + 1 + k) % 33).findSome? taken).map fun e => .request e.1 e.2

/-- The fields that a trap record takes of an abandoned routine; its microaddress is a free value, and its private registers are undefined. -/
def State.trapAt (s : State) (op : BitVec 8) (n : BitVec 5) (tag : BitVec 16) : State :=
  let (w, s) := s.free
  { s with micro := { trapped := some (w.toNat % 2 ^ 16, op, n, tag) } }

/-- The routine in progress is abandoned: that of the item taken last, before its first effect (log entry 62). Its operation reports
INTERNAL. -/
def State.abandon (s : State) : State :=
  match s.nextItem with
  | none => s
  | some i =>
    let r := { s with items := s.items.erase i }
    match i with
    | .request op q => ((r.taken op q).fail op q St.internal).trapAt op q.session q.tag
    | .completion p live quiet a =>
      ((r.sendEvent { p with status := St.internal, params := [0], payload := [] } live quiet).afterwards a).trapAt p.opcode p.session p.tag
    | _ => r

/-- ROUTINE_BOUND: the routine is ended after its 4,096th microword, and trap cause 2 waits for the boundary. -/
def doRoutineBound (s : State) : State :=
  let (v, s) := (s.abandon).free
  let s := (s.count R.ENG_OVR_COUNT).ran 4096 (4096 + v.toNat % (15 * 4096 + 1))
  { s with items := s.items ++ [.trap 2] }

def execRoutineBound (s : State) : Host.Outcome State Fault Refusal := .next (doRoutineBound s)

/-- TRAP of cause 1 to 4: the routine in progress is abandoned, unless the trap was raised before and has abandoned its own; then, behind a
Veing access that waits, the trap routine of the first trap runs (R33, R278, R441). -/
def doTrap (cause : Fin 4) (s : State) : State :=
  let c := cause.val + 1
  let s := if s.items.contains (.trap c) then s
    else
      let s := s.abandon
      { s with items := s.items ++ [.trap c] }
  let s := doVeingBoundaryAccess s
  match firstItem s.items with
  | some i => s.takeFirst i
  | none => s

def execTrap (cause : Fin 4) (s : State) : Host.Outcome State Fault Refusal := .next (doTrap cause s)

def execRoutineDispatch (s : State) : Host.Outcome State Fault Refusal := .next (doRoutineDispatch s)

end Sys2Proof.Machine
end

