-- ==== Sys2Proof/Machine/Requests.lean ====
section
/-! DEFINITION. The rows of the requests (10_uhleus_protocol.md Table 10.6): each dispatches its request by the table of 11_naljo_engine.md
R272, to the ROM's routine of its opcode or to that of an active patch. -/

namespace Sys2Proof.Machine

/-- HELLO, opcode 0x01. -/
def execHello (q : Req) (s : State) : Host.Outcome State Fault Refusal := .next (s.byTable 0x01 q (doHello q))

/-- BYE, opcode 0x02. -/
def execBye (q : Req) (s : State) : Host.Outcome State Fault Refusal := .next (s.byTable 0x02 q (doBye q))

/-- PING, opcode 0x03. -/
def execPing (q : Req) (s : State) : Host.Outcome State Fault Refusal := .next (s.byTable 0x03 q (doPing q))

/-- REG_READ, opcode 0x10. -/
def execRegRead (q : Req) (s : State) : Host.Outcome State Fault Refusal := .next (s.byTable 0x10 q (doRegRead q))

/-- REG_WRITE, opcode 0x11. -/
def execRegWrite (q : Req) (s : State) : Host.Outcome State Fault Refusal := .next (s.byTable 0x11 q (doRegWrite q))

/-- REG_SET_BITS, opcode 0x12. -/
def execRegSetBits (q : Req) (s : State) : Host.Outcome State Fault Refusal := .next (s.byTable 0x12 q (doRegSetBits q))

/-- REG_CLEAR_BITS, opcode 0x13. -/
def execRegClearBits (q : Req) (s : State) : Host.Outcome State Fault Refusal := .next (s.byTable 0x13 q (doRegClearBits q))

/-- REG_GATHER, opcode 0x14. -/
def execRegGather (q : Req) (s : State) : Host.Outcome State Fault Refusal := .next (s.byTable 0x14 q (doRegGather q))

/-- MEM_WRITE, opcode 0x20. -/
def execMemWrite (q : Req) (s : State) : Host.Outcome State Fault Refusal := .next (s.byTable 0x20 q (doMemWrite q))

/-- MEM_READ, opcode 0x21. -/
def execMemRead (q : Req) (s : State) : Host.Outcome State Fault Refusal := .next (s.byTable 0x21 q (doMemRead q))

/-- SEG_WRITE, opcode 0x22. -/
def execSegWrite (q : Req) (s : State) : Host.Outcome State Fault Refusal := .next (s.byTable 0x22 q (doSegWrite q))

/-- SEG_COMMIT, opcode 0x23. -/
def execSegCommit (q : Req) (s : State) : Host.Outcome State Fault Refusal := .next (s.byTable 0x23 q (doSegCommit q))

/-- STREAM_OPEN, opcode 0x24. -/
def execStreamOpen (q : Req) (s : State) : Host.Outcome State Fault Refusal := .next (s.byTable 0x24 q (doStreamOpen q))

/-- STREAM_CLOSE, opcode 0x25. -/
def execStreamClose (q : Req) (s : State) : Host.Outcome State Fault Refusal := .next (s.byTable 0x25 q (doStreamClose q))

/-- STEP_ARM, opcode 0x30. -/
def execStepArm (q : Req) (s : State) : Host.Outcome State Fault Refusal := .next (s.byTable 0x30 q (doStepArm q))

/-- STEP_START, opcode 0x31. -/
def execStepStart (q : Req) (s : State) : Host.Outcome State Fault Refusal := .next (s.byTable 0x31 q (doStepStart q))

/-- STEP_STATUS, opcode 0x32. -/
def execStepStatus (q : Req) (s : State) : Host.Outcome State Fault Refusal := .next (s.byTable 0x32 q (doStepStatus q))

/-- ABORT, opcode 0x33. -/
def execAbort (q : Req) (s : State) : Host.Outcome State Fault Refusal := .next (s.byTable 0x33 q (doAbort q))

/-- EVENT_WAIT, opcode 0x34. -/
def execEventWait (q : Req) (s : State) : Host.Outcome State Fault Refusal := .next (s.byTable 0x34 q (doEventWait q))

/-- CAPTURE_READ, opcode 0x40. -/
def execCaptureRead (q : Req) (s : State) : Host.Outcome State Fault Refusal := .next (s.byTable 0x40 q (doCaptureRead q))

/-- FAIL_READ, opcode 0x41. -/
def execFailRead (q : Req) (s : State) : Host.Outcome State Fault Refusal := .next (s.byTable 0x41 q (doFailRead q))

/-- PROFILE_READ, opcode 0x42. -/
def execProfileRead (q : Req) (s : State) : Host.Outcome State Fault Refusal := .next (s.byTable 0x42 q (doProfileRead q))

/-- MEASURE, opcode 0x43. -/
def execMeasure (q : Req) (s : State) : Host.Outcome State Fault Refusal := .next (s.byTable 0x43 q (doMeasure q))

/-- CAL_RUN, opcode 0x50. -/
def execCalRun (q : Req) (s : State) : Host.Outcome State Fault Refusal := .next (s.byTable 0x50 q (doCalRun q))

/-- CAL_COMMIT, opcode 0x51. -/
def execCalCommit (q : Req) (s : State) : Host.Outcome State Fault Refusal := .next (s.byTable 0x51 q (doCalCommit q))

/-- CAL_READ, opcode 0x52. -/
def execCalRead (q : Req) (s : State) : Host.Outcome State Fault Refusal := .next (s.byTable 0x52 q (doCalRead q))

/-- SEAL_LOAD, opcode 0x60. -/
def execSealLoad (q : Req) (s : State) : Host.Outcome State Fault Refusal := .next (s.byTable 0x60 q (doSealLoad q))

/-- ATTEST, opcode 0x61. -/
def execAttest (q : Req) (s : State) : Host.Outcome State Fault Refusal := .next (s.byTable 0x61 q (doAttest q))

/-- LIFECYCLE, opcode 0x62. -/
def execLifecycle (q : Req) (s : State) : Host.Outcome State Fault Refusal := .next (s.byTable 0x62 q (doLifecycle q))

/-- IDENTITY, opcode 0x63. -/
def execIdentity (q : Req) (s : State) : Host.Outcome State Fault Refusal := .next (s.byTable 0x63 q (doIdentity q))

/-- PATCH_LOAD, opcode 0x64. -/
def execPatchLoad (q : Req) (s : State) : Host.Outcome State Fault Refusal := .next (s.byTable 0x64 q (doPatchLoad q))

/-- SELFTEST, opcode 0x70. -/
def execSelftest (q : Req) (s : State) : Host.Outcome State Fault Refusal := .next (s.byTable 0x70 q (doSelftest q))

/-- FENCE, opcode 0x71. -/
def execFence (q : Req) (s : State) : Host.Outcome State Fault Refusal := .next (s.byTable 0x71 q (doFence q))

/-- CALVE, opcode 0x72. -/
def execCalve (q : Req) (s : State) : Host.Outcome State Fault Refusal := .next (s.byTable 0x72 q (doCalve q))

/-- DUMP_READ, opcode 0x74. -/
def execDumpRead (q : Req) (s : State) : Host.Outcome State Fault Refusal := .next (s.byTable 0x74 q (doDumpRead q))

/-- FROST, opcode 0x75. -/
def execFrost (q : Req) (s : State) : Host.Outcome State Fault Refusal := .next (s.byTable 0x75 q (doFrost q))

/-- POWER_STATE, opcode 0x76. -/
def execPowerState (q : Req) (s : State) : Host.Outcome State Fault Refusal := .next (s.byTable 0x76 q (doPowerState q))

/-- INJECT, opcode 0x7E. -/
def execInject (q : Req) (s : State) : Host.Outcome State Fault Refusal := .next (s.byTable 0x7E q (doInject q))

/-- A request with an opcode of no row, or one that fails check 2 of R254 otherwise. -/
def execUndefinedOpcode (opcode : BitVec 8) (q : Req) (s : State) : Host.Outcome State Fault Refusal :=
  .next (s.byTable opcode q (doUndefinedOpcode opcode q))

end Sys2Proof.Machine
end

