-- ==== Sys2Proof/Machine/Dispatch.lean ====
section
/-! DEFINITION. The meaning of each command: one arm per row of spec/opcode_table.json. -/

namespace Sys2Proof.Machine

def exec (i : Instr) (s : State) : Host.Outcome State Fault Refusal :=
  match i with
  | .hello q => Sys2Proof.Machine.execHello q s
  | .bye q => Sys2Proof.Machine.execBye q s
  | .ping q => Sys2Proof.Machine.execPing q s
  | .regRead q => Sys2Proof.Machine.execRegRead q s
  | .regWrite q => Sys2Proof.Machine.execRegWrite q s
  | .regSetBits q => Sys2Proof.Machine.execRegSetBits q s
  | .regClearBits q => Sys2Proof.Machine.execRegClearBits q s
  | .regGather q => Sys2Proof.Machine.execRegGather q s
  | .memWrite q => Sys2Proof.Machine.execMemWrite q s
  | .memRead q => Sys2Proof.Machine.execMemRead q s
  | .segWrite q => Sys2Proof.Machine.execSegWrite q s
  | .segCommit q => Sys2Proof.Machine.execSegCommit q s
  | .streamPacket group commit q => Sys2Proof.Machine.execStreamPacket group commit q s
  | .streamOpen q => Sys2Proof.Machine.execStreamOpen q s
  | .streamClose q => Sys2Proof.Machine.execStreamClose q s
  | .stepArm q => Sys2Proof.Machine.execStepArm q s
  | .stepArmSettled o volts => Sys2Proof.Machine.execStepArmSettled o volts s
  | .stepStart q => Sys2Proof.Machine.execStepStart q s
  | .stepStatus q => Sys2Proof.Machine.execStepStatus q s
  | .abort q => Sys2Proof.Machine.execAbort q s
  | .eventWait q => Sys2Proof.Machine.execEventWait q s
  | .eventWaitDone o timeout => Sys2Proof.Machine.execEventWaitDone o timeout s
  | .captureRead q => Sys2Proof.Machine.execCaptureRead q s
  | .failRead q => Sys2Proof.Machine.execFailRead q s
  | .profileRead q => Sys2Proof.Machine.execProfileRead q s
  | .measure q => Sys2Proof.Machine.execMeasure q s
  | .measureReply ch => Sys2Proof.Machine.execMeasureReply ch s
  | .calRun q => Sys2Proof.Machine.execCalRun q s
  | .calRunDone o items => Sys2Proof.Machine.execCalRunDone o items s
  | .calCommit q => Sys2Proof.Machine.execCalCommit q s
  | .calRead q => Sys2Proof.Machine.execCalRead q s
  | .sealLoad q => Sys2Proof.Machine.execSealLoad q s
  | .sealPartStaged o v => Sys2Proof.Machine.execSealPartStaged o v s
  | .stagingTimeout => Sys2Proof.Machine.execStagingTimeout s
  | .attest q => Sys2Proof.Machine.execAttest q s
  | .attestationSigned o => Sys2Proof.Machine.execAttestationSigned o s
  | .lifecycle q => Sys2Proof.Machine.execLifecycle q s
  | .lifecycleTransition otpOk => Sys2Proof.Machine.execLifecycleTransition otpOk s
  | .identity q => Sys2Proof.Machine.execIdentity q s
  | .patchLoad q => Sys2Proof.Machine.execPatchLoad q s
  | .patchActivation otpOk => Sys2Proof.Machine.execPatchActivation otpOk s
  | .patchDrainTimeout => Sys2Proof.Machine.execPatchDrainTimeout s
  | .selftest q => Sys2Proof.Machine.execSelftest q s
  | .selftestDone o badCores badStores badChans => Sys2Proof.Machine.execSelftestDone o badCores badStores badChans s
  | .fence q => Sys2Proof.Machine.execFence q s
  | .calve q => Sys2Proof.Machine.execCalve q s
  | .dumpRead q => Sys2Proof.Machine.execDumpRead q s
  | .frost q => Sys2Proof.Machine.execFrost q s
  | .frostSnapshot => Sys2Proof.Machine.execFrostSnapshot s
  | .powerState q => Sys2Proof.Machine.execPowerState q s
  | .powerTransitionDone t pllOk => Sys2Proof.Machine.execPowerTransitionDone t pllOk s
  | .scheduledThaw t => Sys2Proof.Machine.execScheduledThaw t s
  | .inject q => Sys2Proof.Machine.execInject q s
  | .undefinedOpcode opcode q => Sys2Proof.Machine.execUndefinedOpcode opcode q s
  | .stepStartGridPoint t => Sys2Proof.Machine.execStepStartGridPoint t s
  | .cycleBegin t => Sys2Proof.Machine.execCycleBegin t s
  | .strobe ch volts => Sys2Proof.Machine.execStrobe ch volts s
  | .nop t inst => Sys2Proof.Machine.execNop t inst s
  | .vec t inst => Sys2Proof.Machine.execVec t inst s
  | .rpt t inst => Sys2Proof.Machine.execRpt t inst s
  | .hold t inst => Sys2Proof.Machine.execHold t inst s
  | .loop t inst => Sys2Proof.Machine.execLoop t inst s
  | .lend t inst => Sys2Proof.Machine.execLend t inst s
  | .call t inst => Sys2Proof.Machine.execCall t inst s
  | .ret t inst => Sys2Proof.Machine.execRet t inst s
  | .jmp t inst => Sys2Proof.Machine.execJmp t inst s
  | .br t inst => Sys2Proof.Machine.execBr t inst s
  | .segsw t inst => Sys2Proof.Machine.execSegsw t inst s
  | .mark t inst => Sys2Proof.Machine.execMark t inst s
  | .period t inst => Sys2Proof.Machine.execPeriod t inst s
  | .wait t inst => Sys2Proof.Machine.execWait t inst s
  | .waitRelease t clock => Sys2Proof.Machine.execWaitRelease t clock s
  | .endStep t inst => Sys2Proof.Machine.execEndStep t inst s
  | .stallResume t => Sys2Proof.Machine.execStallResume t s
  | .stallLimitExpiry t => Sys2Proof.Machine.execStallLimitExpiry t s
  | .tdcStop ch falling x => Sys2Proof.Machine.execTdcStop ch falling x s
  | .trigTimeReached t => Sys2Proof.Machine.execTrigTimeReached t s
  | .trigInEdge n arrival => Sys2Proof.Machine.execTrigInEdge n arrival s
  | .pmuConversion ch code clamped instant check => Sys2Proof.Machine.execPmuConversion ch code clamped instant check s
  | .maskvFlag t => Sys2Proof.Machine.execMaskvFlag t s
  | .chModeWrite ch v => Sys2Proof.Machine.execChModeWrite ch v s
  | .gateClosed ch => Sys2Proof.Machine.execGateClosed ch s
  | .forcedResetEnd u volt => Sys2Proof.Machine.execForcedResetEnd u volt s
  | .comparatorKnown u low volt => Sys2Proof.Machine.execComparatorKnown u low volt s
  | .cmpSelfCheck slot ok => Sys2Proof.Machine.execCmpSelfCheck slot ok s
  | .chkLate slot => Sys2Proof.Machine.execChkLate slot s
  | .lvlWrite ch k code => Sys2Proof.Machine.execLvlWrite ch k code s
  | .deglitchHoldEnd ch k => Sys2Proof.Machine.execDeglitchHoldEnd ch k s
  | .levelSettled ch k => Sys2Proof.Machine.execLevelSettled ch k s
  | .pmuCfgWrite ch v measured => Sys2Proof.Machine.execPmuCfgWrite ch v measured s
  | .rangingEnd ch => Sys2Proof.Machine.execRangingEnd ch s
  | .lvlClrAssert => Sys2Proof.Machine.execLvlClrAssert s
  | .lvlClrDeassert => Sys2Proof.Machine.execLvlClrDeassert s
  | .pinOverstress ch overVoltage => Sys2Proof.Machine.execPinOverstress ch overVoltage s
  | .sntCfgWrite n v => Sys2Proof.Machine.execSntCfgWrite n v s
  | .sentinelViolation n => Sys2Proof.Machine.execSentinelViolation n s
  | .sentinelSelfCheck n ok => Sys2Proof.Machine.execSentinelSelfCheck n ok s
  | .backgroundMeasurement m => Sys2Proof.Machine.execBackgroundMeasurement m s
  | .calAutoCommit => Sys2Proof.Machine.execCalAutoCommit s
  | .refvCheck p n => Sys2Proof.Machine.execRefvCheck p n s
  | .syncEdge u => Sys2Proof.Machine.execSyncEdge u s
  | .syncArmedLoad => Sys2Proof.Machine.execSyncArmedLoad s
  | .systimeWrap => Sys2Proof.Machine.execSystimeWrap s
  | .refCheck ppm => Sys2Proof.Machine.execRefCheck ppm s
  | .refDriftCheck freq => Sys2Proof.Machine.execRefDriftCheck freq s
  | .systimeLoRead ctx => Sys2Proof.Machine.execSystimeLoRead ctx s
  | .timeMessageSend l => Sys2Proof.Machine.execTimeMessageSend l s
  | .timeMessageReceive l time arrival => Sys2Proof.Machine.execTimeMessageReceive l time arrival s
  | .frameReceive l f => Sys2Proof.Machine.execFrameReceive l f s
  | .nakReceive l ack => Sys2Proof.Machine.execNakReceive l ack s
  | .ackTimer l => Sys2Proof.Machine.execAckTimer l s
  | .amReceive l lane am since => Sys2Proof.Machine.execAmReceive l lane am since s
  | .laneLockLoss l lane x => Sys2Proof.Machine.execLaneLockLoss l lane x s
  | .trainingSuccess l r => Sys2Proof.Machine.execTrainingSuccess l r s
  | .trainingTimeout l => Sys2Proof.Machine.execTrainingTimeout l s
  | .downWaitExpiry w => Sys2Proof.Machine.execDownWaitExpiry w s
  | .retrainComplete l r => Sys2Proof.Machine.execRetrainComplete l r s
  | .retrainTimeout l noGoodLane => Sys2Proof.Machine.execRetrainTimeout l noGoodLane s
  | .linkEnable l en => Sys2Proof.Machine.execLinkEnable l en s
  | .linkTest l test prbs loopMode seen => Sys2Proof.Machine.execLinkTest l test prbs loopMode seen s
  | .linkRetrainRequest l wmax => Sys2Proof.Machine.execLinkRetrainRequest l wmax s
  | .laneUnfence l lanes => Sys2Proof.Machine.execLaneUnfence l lanes s
  | .laneEqWrite l lane hi v => Sys2Proof.Machine.execLaneEqWrite l lane hi v s
  | .eventMessageReceive l first others arrival skew => Sys2Proof.Machine.execEventMessageReceive l first others arrival skew s
  | .linkevSend v => Sys2Proof.Machine.execLinkevSend v s
  | .chipIdWrite id => Sys2Proof.Machine.execChipIdWrite id s
  | .creditEvent session => Sys2Proof.Machine.execCreditEvent session s
  | .sessionTimeout session => Sys2Proof.Machine.execSessionTimeout session s
  | .packetSendTimeout l => Sys2Proof.Machine.execPacketSendTimeout l s
  | .routineDispatch => Sys2Proof.Machine.execRoutineDispatch s
  | .routineBound => Sys2Proof.Machine.execRoutineBound s
  | .trap cause => Sys2Proof.Machine.execTrap cause s
  | .clockModeChange => Sys2Proof.Machine.execClockModeChange s
  | .engClrstat => Sys2Proof.Machine.execEngClrstat s
  | .faultInterrupt b src => Sys2Proof.Machine.execFaultInterrupt b src s
  | .faultClear b inj mask stillPresent => Sys2Proof.Machine.execFaultClear b inj mask stillPresent s
  | .sfLockSet => Sys2Proof.Machine.execSfLockSet s
  | .fenceMaskWrite w v => Sys2Proof.Machine.execFenceMaskWrite w v s
  | .channelRetestDone ch passed => Sys2Proof.Machine.execChannelRetestDone ch passed s
  | .coreFault c src inj => Sys2Proof.Machine.execCoreFault c src inj s
  | .coreRetestDone c passed => Sys2Proof.Machine.execCoreRetestDone c passed s
  | .targetCheckDone t passed => Sys2Proof.Machine.execTargetCheckDone t passed s
  | .migrationStart t => Sys2Proof.Machine.execMigrationStart t s
  | .migrationComplete t ns => Sys2Proof.Machine.execMigrationComplete t ns s
  | .calvingDeskewDone t items => Sys2Proof.Machine.execCalvingDeskewDone t items s
  | .spareCoreCheck c passed => Sys2Proof.Machine.execSpareCoreCheck c passed s
  | .repairLogWrite => Sys2Proof.Machine.execRepairLogWrite s
  | .softRepairPersist => Sys2Proof.Machine.execSoftRepairPersist s
  | .btRegionTest r => Sys2Proof.Machine.execBtRegionTest r s
  | .thermalSample readings => Sys2Proof.Machine.execThermalSample readings s
  | .throttleEvaluation milliwatt => Sys2Proof.Machine.execThrottleEvaluation milliwatt s
  | .supplyExcursionBegin rail => Sys2Proof.Machine.execSupplyExcursionBegin rail s
  | .supplyExcursionEnd rail ns => Sys2Proof.Machine.execSupplyExcursionEnd rail ns s
  | .controlledStop rail => Sys2Proof.Machine.execControlledStop rail s
  | .sf3Release => Sys2Proof.Machine.execSf3Release s
  | .tamperDetect src => Sys2Proof.Machine.execTamperDetect src s
  | .moraineFlush r => Sys2Proof.Machine.execMoraineFlush r s
  | .mrnFlush => Sys2Proof.Machine.execMrnFlush s
  | .mrnClear session => Sys2Proof.Machine.execMrnClear session s
  | .mrnCursorWrite ctx seq => Sys2Proof.Machine.execMrnCursorWrite ctx seq s
  | .mrnLoadDone ctx macOk => Sys2Proof.Machine.execMrnLoadDone ctx macOk s
  | .mrnWin15Read ctx => Sys2Proof.Machine.execMrnWin15Read ctx s
  | .evcLoRead ctx n snapshot => Sys2Proof.Machine.execEvcLoRead ctx n snapshot s
  | .cntResume => Sys2Proof.Machine.execCntResume s
  | .dumpFlashCopyDone => Sys2Proof.Machine.execDumpFlashCopyDone s
  | .dumpRelease => Sys2Proof.Machine.execDumpRelease s
  | .mselAssert => Sys2Proof.Machine.execMselAssert s
  | .veingFrame edges word => Sys2Proof.Machine.execVeingFrame edges word s
  | .veingNop seq => Sys2Proof.Machine.execVeingNop seq s
  | .addrLo seq data => Sys2Proof.Machine.execAddrLo seq data s
  | .addrHi seq data => Sys2Proof.Machine.execAddrHi seq data s
  | .wdataLo seq data => Sys2Proof.Machine.execWdataLo seq data s
  | .veingWrite seq data => Sys2Proof.Machine.execVeingWrite seq data s
  | .veingRead seq => Sys2Proof.Machine.execVeingRead seq s
  | .veingBoundaryAccess => Sys2Proof.Machine.execVeingBoundaryAccess s
  | .rdhi seq => Sys2Proof.Machine.execRdhi seq s
  | .setaddr seq data => Sys2Proof.Machine.execSetaddr seq data s
  | .veingReset seq data => Sys2Proof.Machine.execVeingReset seq data s
  | .veingUndefinedCmd cmd seq => Sys2Proof.Machine.execVeingUndefinedCmd cmd seq s
  | .ppTxctlPush v => Sys2Proof.Machine.execPpTxctlPush v s
  | .ppEntryExecute sampled => Sys2Proof.Machine.execPpEntryExecute sampled s
  | .ppRxdataRead => Sys2Proof.Machine.execPpRxdataRead s
  | .ppFlush => Sys2Proof.Machine.execPpFlush s
  | .ppContTimeout => Sys2Proof.Machine.execPpContTimeout s
  | .internalTransfer x => Sys2Proof.Machine.execInternalTransfer x s
  | .powerOnReset => Sys2Proof.Machine.execPowerOnReset s
  | .warmReset => Sys2Proof.Machine.execWarmReset s
  | .supplyReset rail => Sys2Proof.Machine.execSupplyReset rail s
  | .boot r => Sys2Proof.Machine.execBoot r s
  | .tapInstructionUpdate ir => Sys2Proof.Machine.execTapInstructionUpdate ir s
  | .ocxoReadyChange high => Sys2Proof.Machine.execOcxoReadyChange high s
  | .linkctlReceive l r => Sys2Proof.Machine.execLinkctlReceive l r s
  | .gateOpened ch => Sys2Proof.Machine.execGateOpened ch s
  | .sentinelWindowCrossing n volt => Sys2Proof.Machine.execSentinelWindowCrossing n volt s
  | .dumpFirnWriteDone => Sys2Proof.Machine.execDumpFirnWriteDone s
  | .drbgHealthTestFail => Sys2Proof.Machine.execDrbgHealthTestFail s
  | .operatingTimeTick => Sys2Proof.Machine.execOperatingTimeTick s

end Sys2Proof.Machine
end

