-- ==== Sys2Proof/Safety.lean ====
section
/-! DEFINITION. What counts as a safe state of the block, and the vocabulary of the claims: canonical forms, frames, and the packets
that answer a command. -/

namespace Sys2Proof.Machine

/-- The canonical form of memory (log entry 3): addresses rise and no entry holds what an unwritten byte reads as. -/
def Memory.wf (m : Store Byte) : Bool := Store.wf unwritten m

/-- The canonical form of the register file: addresses rise and no entry holds its reset value. -/
def Regs.wf (m : Store Word) : Bool := Store.wf regReset m

/-! ## Frames -/

/-- Every register outside `p` is unchanged. -/
def RegsSame (p : Nat → Bool) (s t : State) : Prop := ∀ a, p a = false → t.rget a = s.rget a

/-- Every byte of every memory space is unchanged. -/
def MemSame (s t : State) : Prop := ∀ space tile off, t.mget space tile off = s.mget space tile off

/-- PCNT_VAL, PCNT_SAMP and PCNT_OVF: what a counted event may change (18_moraine_counters.md R424, R425). -/
def counting (a : Nat) : Bool :=
  decide ((0x83000 ≤ a ∧ a < 0x83400 ∧ a % 8 = 4) ∨ (0x83400 ≤ a ∧ a < 0x83408))

/-- The registers of a channel, and of a tile apart from its channels' (22_register_map.md Table 22.1). -/
def inChan (ch a : Nat) : Bool := decide (0x500000 + ch * 0x400 ≤ a ∧ a < 0x500000 + (ch + 1) * 0x400)
def inTile (u a : Nat) : Bool := decide (0x100000 + u * 0x10000 ≤ a ∧ a < 0x100000 + (u + 1) * 0x10000)

/-- The registers of the 4 KiB block at `b` (22_register_map.md Table 22.1). -/
def inBlock (b a : Nat) : Bool := decide (b ≤ a ∧ a < b + 0x1000)

/-- The registers that show the records of the moraine (18_moraine_counters.md R419, Table 18.7). -/
def recordReg (a : Nat) : Bool := a == R.MRN_SEQ || a == R.MRN_STATUS || a == R.MRN_OLDEST

/-- SESS_STAT and SESS_LOAD, which an event to a session may change (10_uhleus_protocol.md R256). -/
def sessReg (a : Nat) : Bool := (List.range 32).any fun n => a == R.SESS_STAT n || a == R.SESS_LOAD n

/-- The moraine's staging RAM has room, and the action selected for a fault source is neither BLOCK_RESET nor CHIP_RESET
(15_safety_faults.md R372). -/
def Mild (s : State) (b src : Nat) : Prop := s.staged.length < 120 ∧ s.nibble b src % 8 < 3

/-- Nothing is due at the step boundary of a tile (01_architecture.md R29): no repair, fence, unfence, retest, power request or STEP_ARM
waits, none settles, and the tile has applied the newest calibration. -/
def Calm (s : State) (u : Nat) : Prop :=
  s.soft = [] ∧ s.fenceReq = [] ∧ s.unfenceReq = [] ∧ s.coreDue = [] ∧ (∀ ch ∈ chansOf u, (s.chan ch).retest = 0) ∧ (s.tile u).pwr = [] ∧
    s.waitingArm u = none ∧ (∀ x ∈ s.splits, x.opcode = 0x30 → x.stage ≠ 1) ∧ s.fget (R.TILE_CAL_EPOCH_EPOCH u) = s.fget R.CAL_EPOCH_EPOCH

/-- The next instruction of a RUNNING tile executes before the cycle behind it must begin (03_sequencer.md R60). -/
def OnTime (s : State) (u : Nat) : Prop := s.stepState u = stRunning → ∀ x, s.execClock u = some x → x ≤ s.nextDue u

/-- A tile is ARMED, PENDING or RUNNING, so that no action of its step boundary is taken (01_architecture.md R29). -/
def Busy (s : State) (u : Nat) : Prop := inStep (s.stepState u) = true

/-- What counting events and running a routine of the ROM do to a state and no more: event counters, overflow interrupts, the engine's longest
routine and its private registers, and the reading of free values. -/
structure Counts (s t : State) : Prop where
  same : { t with regs := s.regs, evc := s.evc, items := s.items, freeCtr := s.freeCtr, maxLen := s.maxLen, maxClk := s.maxClk, micro := s.micro } = s
  regs : RegsSame counting s t
  items : ∃ l, t.items = s.items ++ l ∧ ∀ i ∈ l, ∃ m, i = .overflow m

/-! ## Packets -/

/-- The reply to a request waits to be sent; QUIET suppresses OK and ACCEPTED (10_uhleus_protocol.md R243, R255). -/
def Answered (t : State) (op : BitVec 8) (q : Req) (st : BitVec 8) (ps : List Word) (pl : List Byte) : Prop :=
  (q.flags.getLsbD 0 && quietable st) = false →
    ∃ p ∈ t.txq, p.kind = 1 ∧ p.opcode = op ||| 0x80 ∧ p.status = st ∧ p.session = q.session ∧ p.tag = q.tag ∧ p.params = ps ∧
      p.payload = pl

/-- A split-phase operation is in progress and its ACCEPTED waits to be sent (R256). -/
def Begun (t : State) (op : BitVec 8) (q : Req) : Prop :=
  (∃ x ∈ t.splits, x.opcode = op ∧ x.session = q.session ∧ x.tag = q.tag ∧ x.params = q.params) ∧
    Answered t op q St.accepted [] []

/-- The completion of an operation of a session that is still open waits for the engine, whose routine sends its event unless QUIET
suppresses it (R255, R256; 11_naljo_engine.md R277). -/
def Completed (t : State) (x : Split) (st : BitVec 8) : Prop :=
  x.live = true →
    ∃ p after, Item.completion p true x.quiet after ∈ t.items ∧ p.kind = 2 ∧ p.opcode = x.opcode ||| 0x80 ∧ p.status = st ∧
      p.session = x.session ∧ p.tag = x.tag

/-- The operation is no longer in progress: none in progress has its number. -/
def Over (t : State) (x : Split) : Prop := ∀ y ∈ t.splits, y.id ≠ x.id

end Sys2Proof.Machine
end

