-- ==== Sys2Proof/Certificates/Slice0/Obligations.lean ====
section
/-! DEFINITION. The statements for the provers: what the numbered rules say a command does, which commands complete, what they leave
unchanged, and the invariants of a step. A request is called accepted where no active patch overrides its opcode and it passes items 2 to 8 of
10_uhleus_protocol.md R254 (State.runs). -/

open Sys2Proof Sys2Proof.Machine

/-- Every step keeps memory and the register file canonical. For every state and every command, and for an idle edge: if memory and the register
file are in canonical form (no two entries for one byte or word, none that holds what an unlisted one reads as) before a step that answers a next
state, they are in that form after it. That an unwritten byte reads 0 is the model's choice (log entry 3). (00_scope.md, 14_memories.md,
22_register_map.md) -/
def Obligations.KeepsCanonicalForm : Prop :=
  ∀ s t : State, Memory.wf s.mem = true → Regs.wf s.regs = true → step s = .next t → Memory.wf t.mem = true ∧ Regs.wf t.regs = true

/-- The machine after reset is in canonical form with no command waiting. State.reset satisfies the invariant of KeepsCanonicalForm, its queue is
empty, every register reads its reset value and every byte of memory reads as unwritten memory (R10; the fill of unwritten memory is the model's
choice, log entry 3). (00_scope.md) -/
def Obligations.ResetIsCanonical : Prop :=
  Memory.wf State.reset.mem = true ∧ Regs.wf State.reset.regs = true ∧ State.reset.pending = [] ∧ (∀ a, State.reset.rget a = regReset a) ∧
    ∀ space tile off, State.reset.mget space tile off = unwritten (memKey space tile off)

/-- Reset values of registers as the tables print them. After power-on reset TILE_MAPn names core n for tile n, SEQ_RANGE is 0x3FFF0000, CH_MODE
0x100 and CH_STATUS 0x4003, MCODE_VERSION.ROM 0x0100, FLT_REACT0 of the safety block 0x99999999, and no session is open. (00_scope.md,
02_epoch_grid.md, 10_uhleus_protocol.md, 15_safety_faults.md, 06_pin_electronics.md) -/
def Obligations.ResetValues : Prop :=
  (∀ n : Fin 64, State.reset.fget (R.TILE_MAP_CORE n) = n.val) ∧
    (∀ n : Fin 64, State.reset.rget (R.SEQ_RANGE n) = 0x3FFF0000) ∧
    (∀ c : Fin 1024, State.reset.rget (R.CH_MODE c) = 0x100 ∧ State.reset.rget (R.CH_STATUS c) = 0x4003) ∧
    State.reset.fget R.MCODE_VERSION_ROM = 0x100 ∧ State.reset.rget (R.FLT_REACT 0x60000 0) = 0x99999999 ∧
    ∀ n : Fin 32, State.reset.sessOpen n = false

/-- A step runs the command at the front of the queue. With a command c at the front of the queue, step is exec of c at the state with the queue's
rest. (10_uhleus_protocol.md) -/
def Obligations.StepRunsFront : Prop :=
  ∀ (c : Instr) (rest : List Instr) (s : State), s.pending = c :: rest → step s = exec c { s with pending := rest }

/-- A command answers a next state and leaves the queue as it is. Every command completes at every state: exec answers a next state, whose queue of
waiting commands is the queue before. (10_uhleus_protocol.md) -/
def Obligations.ExecLeavesQueue : Prop :=
  ∀ (c : Instr) (s : State), ∃ t, exec c s = .next t ∧ t.pending = s.pending

/-- With no command waiting one edge of REFCLK passes. On an empty queue a step answers a next state with an empty queue; where no stream packet
waits and no trigger is still to register, every byte of memory is as before and the system time advances by one period of REFCLK, 10 ns. That a
step on an empty queue passes one edge of REFCLK is the model's choice (log entry 1). (02_epoch_grid.md, 12_serial_links.md) -/
def Obligations.IdleEdge : Prop :=
  ∀ s : State, s.pending = [] → ∃ t, step s = .next t ∧ t.pending = [] ∧
    (s.strmWait = [] → (∀ u, (s.tile u).cap.due = []) → MemSame s t ∧ (s.sysTime.toNat + 2560 < 2 ^ 64 → t.sysTime = s.sysTime + 2560))

/-- A request that fails a check of R254 is answered with the first failing status and changes nothing else. A request PING, REG_WRITE, MEM_WRITE,
SEG_COMMIT, STEP_START, CAPTURE_READ, CAL_READ, FAIL_READ or EVENT_WAIT that no active patch overrides and that fails one of items 2 to 8 of R254 is
answered with that status, one parameter word 0 and no payload; no register but the session's slot count and the event counters changes, and no byte
of memory. (10_uhleus_protocol.md R254, 10_uhleus_protocol.md R243) -/
def Obligations.RequestRefused : Prop :=
  ∀ (q : Req) (s : State) (op : BitVec 8) (c : Instr) (st : BitVec 8),
    (op, c) ∈ [(0x03, .ping q), (0x11, .regWrite q), (0x20, .memWrite q), (0x23, .segCommit q), (0x31, .stepStart q),
      (0x40, .captureRead q), (0x41, .failRead q), (0x52, .calRead q), (0x34, .eventWait q)] →
    (op = 0x23 → segStrm q = false) → s.overridden op q = false → s.accept op q = some st →
    ∃ t, exec c s = .next t ∧ Answered t op q st [0] [] ∧ MemSame s t ∧
      RegsSame (fun a => counting a || a == R.SESS_STAT q.session.toNat) s t

/-- The order of the checks on an arriving request. Items 2 to 8 of R254 in their order: a bad version, kind or opcode is BAD_OPCODE whatever else
is wrong; else a closed session is DENIED; else a PCOUNT or PLEN outside Table 10.2 is BAD_LENGTH; else no slot or too much payload EXCEEDS_WINDOW;
else too little privilege DENIED; else a reserved FLAGS bit BAD_PARAM; else, of an operation that takes its payload whole or a register command, a
bad trailer CRC_ERROR. (10_uhleus_protocol.md R254, 10_uhleus_protocol.md R255) -/
def Obligations.AcceptOrder : Prop :=
  ∀ (s : State) (op : BitVec 8) (q : Req),
    let n := q.session.toNat
    let badOp := q.hver ≠ 1 ∨ q.kind ≠ 0 ∨ op.toNat ∉ opcodes
    let closed := op ≠ 0x01 ∧ s.sessOpen n = false
    let badLen := lengthOk op q.params.length q.payload.length (q.n 1) = false
    let tooMuch := q.noSlot = true ∨ q.overrun = true ∨
      (op ≠ 0x01 ∧ streaming op = false ∧ s.fget (R.SESS_STAT_WIN n) < cellsOf q.payload.length)
    let low := op ≠ 0x01 ∧ s.fget (R.SESS_STAT_PRIV n) < minPriv op
    let badFlags := 2 ≤ q.flags.toNat
    let badTrailer := trailerFirst op = true ∧ q.trailerOk = false
    (s.accept op q = some St.badOpcode ↔ badOp) ∧
    (s.accept op q = some St.badLength ↔ ¬badOp ∧ ¬closed ∧ badLen) ∧
    (s.accept op q = some St.exceedsWindow ↔ ¬badOp ∧ ¬closed ∧ ¬badLen ∧ tooMuch) ∧
    (s.accept op q = some St.denied ↔ ¬badOp ∧ (closed ∨ (¬badLen ∧ ¬tooMuch ∧ low))) ∧
    (s.accept op q = some St.badParam ↔ ¬badOp ∧ ¬closed ∧ ¬badLen ∧ ¬tooMuch ∧ ¬low ∧ badFlags) ∧
    (s.accept op q = some St.crcError ↔ ¬badOp ∧ ¬closed ∧ ¬badLen ∧ ¬tooMuch ∧ ¬low ∧ ¬badFlags ∧ badTrailer) ∧
    (s.accept op q = none ↔ ¬badOp ∧ ¬closed ∧ ¬badLen ∧ ¬tooMuch ∧ ¬low ∧ ¬badFlags ∧ ¬badTrailer)

/-- HELLO opens a session with its grant, BYE and SESSION_TIMEOUT close it. HELLO that is accepted and names a closed session (its own or the lowest
free one), with legal fields, at least 8 free cells and the credential that its privilege needs, opens the session: SESS_STAT shows OPEN, the
privilege, the link, 8 slots and the granted window min(WIN, free cells), which leaves the pool, and the reply carries the grant and CHIP_ID. An
accepted BYE is answered OK and closes its session; SESSION_TIMEOUT closes an open session while PROTO_CFG.TIMEOUT is not 0. (10_uhleus_protocol.md
R248, 10_uhleus_protocol.md R249, 10_uhleus_protocol.md R250, 10_uhleus_protocol.md R253, 13_security.md R317) -/
def Obligations.SessionsOpenClose : Prop :=
  (∀ (q : Req) (s : State) (n : Nat), s.runs 0x01 q = true → n < 32 → s.sessOpen n = false →
      (((q.p 0).getLsbD 21 = false ∧ n = nbits (q.n 0) 20 16) ∨ ((q.p 0).getLsbD 21 = true ∧ ∀ k < n, s.sessOpen k = true)) →
      q.n 0 < 2 ^ 23 → q.n 0 / 8 % 32 = 0 → q.n 0 % 8 ≤ 4 → 8 ≤ nbits (q.n 0) 15 8 → nbits (q.n 0) 15 8 ≤ 128 →
      8 ≤ s.fget R.POOL_FREE_CELLS →
      (s.need (q.n 0 % 8) = .none ∨ (s.need (q.n 0 % 8) ≠ .refused ∧
        s.credentialOk (s.need (q.n 0 % 8)) (q.n 0 % 8) q.payload q.verdict = true)) →
      ∃ t, exec (.hello q) s = .next t ∧ t.sessOpen n = true ∧ t.fget (R.SESS_STAT_PRIV n) = q.n 0 % 8 ∧
        t.fget (R.SESS_STAT_LINK n) = q.link.val ∧ t.fget (R.SESS_STAT_SLOTS n) = 8 ∧
        t.fget (R.SESS_STAT_WIN n) = min (nbits (q.n 0) 15 8) (s.fget R.POOL_FREE_CELLS) ∧
        t.fget R.POOL_FREE_CELLS = s.fget R.POOL_FREE_CELLS - min (nbits (q.n 0) 15 8) (s.fget R.POOL_FREE_CELLS) ∧
        (t.ctx n).evchip = (q.p 0).getLsbD 22 ∧
        Answered t 0x01 { q with session := BitVec.ofNat 5 n } St.ok
          [BitVec.ofNat 32 (min (nbits (q.n 0) 15 8) (s.fget R.POOL_FREE_CELLS)), s.rget R.CHIP_ID] [] ∧
        RegsSame (fun a => counting a || a == R.SESS_STAT n || a == R.SESS_LOAD n || a == R.POOL_FREE) s t ∧ MemSame s t) ∧
    (∀ (q : Req) (s : State), s.runs 0x02 q = true → ∃ t, exec (.bye q) s = .next t ∧
      t.sessOpen q.session.toNat = false ∧ Answered t 0x02 q St.ok [] [] ∧ t.ctx q.session.toNat = {}) ∧
    (∀ (k : BitVec 5) (s : State), s.fget R.PROTO_CFG_TIMEOUT ≠ 0 → s.sessOpen k.toNat = true →
      ∃ t, exec (.sessionTimeout k) s = .next t ∧ t.sessOpen k.toNat = false ∧ t.ctx k.toNat = {})

/-- PING answers with the system time and echoes its payload. An accepted PING is answered OK with the system time as two parameter words and its
payload; with QUIET no packet is queued. No byte of memory and no register but the session's slot count and the event counters changes.
(10_uhleus_protocol.md Table 10.6, 10_uhleus_protocol.md R255) -/
def Obligations.PingEchoes : Prop :=
  ∀ (q : Req) (s : State), s.runs 0x03 q = true → ∃ t, exec (.ping q) s = .next t ∧
      Answered t 0x03 q St.ok [s.sysTime.setWidth 32, (s.sysTime >>> 32).setWidth 32] q.payload ∧
      (q.flags.getLsbD 0 = true → t.txq = s.txq) ∧ t.sysTime = s.sysTime ∧ MemSame s t ∧
      RegsSame (fun a => counting a || a == R.SESS_STAT q.session.toNat) s t

/-- A register command at an address that is not a multiple of 4 is BAD_ADDRESS and changes nothing. A REG_READ or REG_WRITE that is accepted, with
COUNT and NOINC in range, and a REG_SET_BITS, REG_CLEAR_BITS or REG_GATHER that is accepted, at a (first) address that is not a multiple of 4
completes with BAD_ADDRESS; no register but the session's slot count and the event counters changes, and no byte of memory. (00_scope.md R9) -/
def Obligations.MisalignedRegisterCommand : Prop :=
  ∀ (q : Req) (s : State) (op : BitVec 8) (c : Instr),
    ((op, c) ∈ [(0x10, .regRead q), (0x11, .regWrite q)] ∧ countBad q = false) ∨
        (op, c) ∈ [(0x12, .regSetBits q), (0x13, .regClearBits q), (0x14, .regGather q)] →
    s.runs op q = true → q.n 0 % 4 ≠ 0 →
    ∃ t, exec c s = .next t ∧ Answered t op q St.badAddress [0] [] ∧ MemSame s t ∧
      RegsSame (fun a => counting a || a == R.SESS_STAT q.session.toNat) s t

/-- REG_READ and REG_GATHER return the words they name. Where no word of the list is refused, an accepted REG_READ answers OK, or PART where the
block ends first, with the number of words read and the words, and an accepted REG_GATHER OK with the words, each as it reads when its turn comes. A
REG_READ of one word and a REG_GATHER of words of the chip, link, security, safety, supply, memory or core blocks, which no policy seals, are
answered OK with the bits that the words hold where a field is defined; no register but the session's slot count and the event counters, and no byte
of memory, changes. (10_uhleus_protocol.md R261, 10_uhleus_protocol.md R264, 22_register_map.md R488) -/
def Obligations.RegisterReads : Prop :=
  (∀ (q : Req) (s : State) (room : Nat), s.runs 0x10 q = true → countBad q = false → wordsFrom (q.n 0) = some room →
      let r := s.routine
      let l := wordAddrs (q.n 0) (q.n 1) (q.n 2 == 1) room
      firstRefused (fun a => r.readWordRefused (r.whoOf q) (aliasOf a).1) 0 l = none →
      ∃ t, exec (.regRead q) s = .next t ∧ Answered t 0x10 q (if l.length = q.n 1 then St.ok else St.part) [BitVec.ofNat 32 l.length]
        ((r.readWords q.session.toNat l).1.flatMap wordBytes)) ∧
    (∀ (q : Req) (s : State), s.runs 0x14 q = true →
      let r := s.routine
      let l := q.params.map (·.toNat)
      (∀ a ∈ l, (wordsFrom a).isSome = true ∧ r.readWordRefused (r.whoOf q) (aliasOf a).1 = none) →
      ∃ t, exec (.regGather q) s = .next t ∧ Answered t 0x14 q St.ok [] ((r.readWords q.session.toNat l).1.flatMap wordBytes)) ∧
    (∀ (q : Req) (s : State),
      let plain (a : Nat) : Bool := !s.wordSealed a && (regAt a).any fun x => [Blk.chip, .link, .sec, .safe, .pwr, .memc, .core].contains x.1
      let bits (a : Nat) : Word := s.rget a &&& ((descAt a).rw ||| (descAt a).ro ||| (descAt a).w1c ||| (descAt a).w1s)
      (s.runs 0x10 q = true → q.n 1 = 1 → q.n 2 ≤ 1 → plain (q.n 0) = true →
        ∃ t, exec (.regRead q) s = .next t ∧ Answered t 0x10 q St.ok [1] (wordBytes (bits (q.n 0))) ∧ MemSame s t ∧
          RegsSame (fun a => counting a || a == R.SESS_STAT q.session.toNat) s t) ∧
      (s.runs 0x14 q = true → (∀ w ∈ q.params, plain w.toNat = true) →
        ∃ t, exec (.regGather q) s = .next t ∧ Answered t 0x14 q St.ok [] (q.params.flatMap fun w => wordBytes (bits w.toNat)) ∧ MemSame s t ∧
          RegsSame (fun a => counting a || a == R.SESS_STAT q.session.toNat) s t))

/-- REG_WRITE, REG_SET_BITS and REG_CLEAR_BITS of one word of the chip block. An accepted write of one word of the chip global block that no check
refuses and behind whose checks no fault reaction resets the block, other than LINKEV_SEND, SR_CFG, CAL_LIMIT and the requesting session's own
SESS_STAT, stores the value by the access codes of its bits: RW bits take it, W1C bits written 1 are cleared unless the hardware sets them in the
same clock, other bits stay. Where no such set coincides, REG_SET_BITS writes old OR mask and REG_CLEAR_BITS old AND NOT mask to RW bits. The write
is answered OK with one word written, the bit requests with the old and the new value. Every other register but the session's slot count and the
event counters, and every byte of memory, is unchanged. (10_uhleus_protocol.md R261, 10_uhleus_protocol.md R263, 00_scope.md R6, 00_scope.md R7) -/
def Obligations.RegisterWrites : Prop :=
  ∀ (q : Req) (s : State) (i k : Nat) (d : RegDesc),
    let a := q.n 0
    let r := s.routine
    let n := q.session.toNat
    let old := r.readValue n a
    regAt a = some (.chip, i, k, d) → a ∉ [R.LINKEV_SEND, R.SR_CFG, R.CAL_LIMIT, R.SESS_STAT n] → q.resets = none →
    (let v := BitVec.ofNat 32 (leNat q.payload);
      s.runs 0x11 q = true → q.n 1 = 1 → q.n 2 ≤ 1 → r.writeWordRefused (r.whoOf q) a v 0 = none →
      ∀ hw : Word, (q.coincide = [] ∧ hw = 0) ∨ q.coincide = [(a, hw)] →
      ∃ t, exec (.regWrite q) s = .next t ∧ t.rget a = d.stored (s.rget a) v ||| (hw &&& d.w1c) ∧ Answered t 0x11 q St.ok [1] [] ∧ MemSame s t ∧
        RegsSame (fun b => counting b || b == a || b == R.SESS_STAT n) s t) ∧
    (let v := ((old ||| q.p 1) &&& d.rw) ||| (q.p 1 &&& ~~~d.rw);
      s.runs 0x12 q = true → q.coincide = [] → r.writeWordRefused (r.whoOf q) a v 0 = none →
      ∃ t, exec (.regSetBits q) s = .next t ∧ t.rget a = d.stored (s.rget a) v ∧ Answered t 0x12 q St.ok [old, (r.writeWord n a v).readValue n a] [] ∧
        MemSame s t ∧ RegsSame (fun b => counting b || b == a || b == R.SESS_STAT n) s t) ∧
    (let v := old &&& ~~~q.p 1 &&& d.rw;
      s.runs 0x13 q = true → q.coincide = [] → r.writeWordRefused (r.whoOf q) a v 0 = none →
      ∃ t, exec (.regClearBits q) s = .next t ∧ t.rget a = d.stored (s.rget a) v ∧
          Answered t 0x13 q St.ok [old, (r.writeWord n a v).readValue n a] [] ∧
        MemSame s t ∧ RegsSame (fun b => counting b || b == a || b == R.SESS_STAT n) s t)

/-- MEM_READ returns the bytes of the space. An accepted MEM_READ of 1 to 65,536 bytes from an offset inside a space that nothing refuses and that
meets no word with an uncorrectable error is answered OK, or PART where the space ends first, with the number of bytes and the bytes; a tile's space
is read in the tile that bits 13:8 of its first parameter name. Memory and every register but the session's slot count and the event counters are
unchanged. (10_uhleus_protocol.md R265, 14_memories.md R345) -/
def Obligations.MemoryReads : Prop :=
  ∀ (q : Req) (s : State) (size : Nat), s.runs 0x21 q = true → q.n 0 < 2 ^ 14 → 1 ≤ q.n 2 → q.n 2 ≤ 65536 →
    spaceSize (q.n 0 % 256) = some size → q.n 0 % 256 ≠ 0x11 → q.n 1 < size →
    let n := min (q.n 2) (size - q.n 1)
    let u := if q.n 0 % 256 = 0x10 then 0 else q.n 0 / 256
    (if q.n 0 % 256 = 0x10 then s.routine.firnRefused (q.n 1) (q.n 1 + n)
      else s.routine.readRefused (q.n 0 % 256) u (q.n 1) (q.n 1 + n)) = none →
    s.eccMet (q.n 0 % 256) (s.fget (R.TILE_MAP_CORE u)) (q.n 1) n = none →
    ∃ t, exec (.memRead q) s = .next t ∧ Answered t 0x21 q (if n = q.n 2 then St.ok else St.part) [BitVec.ofNat 32 n]
        ((List.range n).map fun i => s.mget (q.n 0 % 256) u (q.n 1 + i)) ∧
      MemSame s t ∧ RegsSame (fun a => counting a || a == R.SESS_STAT q.session.toNat) s t

/-- MEM_WRITE stores its payload in every tile it names and nowhere else. An accepted MEM_WRITE that has arrived whole with a good trailer and that
nothing refuses stores the bytes of its payload that fit the space from its offset on, in the space of each named tile or in the firn, and answers
OK, or PART where the space ends first, with the number stored. Every other byte of every space, and every register but the session's slot count and
the event counters, is unchanged. (10_uhleus_protocol.md R265, 14_memories.md R345) -/
def Obligations.MemoryWrites : Prop :=
  ∀ (q : Req) (s : State) (size : Nat), s.runs 0x20 q = true → q.trailerOk = true → q.part = none → q.n 0 < 256 → spaceSize (q.n 0) = some size →
    q.n 1 < size → q.n 0 ≠ 0x11 → q.n 0 ≠ 1 →
    let n := min q.payload.length (size - q.n 1)
    let l := if q.n 0 = 0x10 then [0] else q.tiles 2
    (if q.n 0 = 0x10 then q.tiles 2 = [] ∧ s.routine.firnRefused (q.n 1) (q.n 1 + n) = none
      else q.tiles 2 ≠ [] ∧ s.routine.writeRefused (q.n 0) (q.n 1) (q.n 1 + n) l = none) →
    ∃ t, exec (.memWrite q) s = .next t ∧
      Answered t 0x20 q (if n = q.payload.length then St.ok else St.part) [BitVec.ofNat 32 n] [] ∧
      (∀ u ∈ l, ∀ i < n, t.mget (q.n 0) u (q.n 1 + i) = q.payload.getD i 0) ∧
      (∀ space u off, u < 64 → off < 2 ^ 23 → ¬(space = q.n 0 ∧ u ∈ l ∧ q.n 1 ≤ off ∧ off < q.n 1 + n) →
        t.mget space u off = s.mget space u off) ∧
      RegsSame (fun a => counting a || a == R.SESS_STAT q.session.toNat) s t

/-- SEG_WRITE fills a segment and changes only the cells it names. An accepted unsealed SEG_WRITE of a session that has arrived whole with a good
trailer and breaks no limit, and that no named tile refuses, where the segment holds no sealed contents: in each named tile the segment that it
names, by number or as the FILL segment of its ring, is FILLING and holds the payload from OFFSET on; every other byte of every space is unchanged,
and the reply carries the payload length. (04_pattern_store.md R101, 04_pattern_store.md R103, 04_pattern_store.md R94) -/
def Obligations.SegmentWrites : Prop :=
  ∀ (q : Req) (s : State), segStrm q = false → segSealedOp q = false → q.trailerOk = true → q.part = none → s.runs 0x22 q = true →
    segLimits false q = false → s.routine.segRefused q = none → (∀ u ∈ q.tiles 0, s.segSealed u (s.segNamed u q) = false) →
    ∃ t, exec (.segWrite q) s = .next t ∧ Answered t 0x22 q St.ok [BitVec.ofNat 32 q.payload.length] [] ∧
      (∀ u ∈ q.tiles 0, t.segSt u (s.segNamed u q) = sgFilling ∧
        ∀ i < q.payload.length, t.mget 1 u (s.segNamed u q * 0x20000 + q.n 3 + i) = q.payload.getD i 0) ∧
      ∀ space u off, u < 64 → off < 2 ^ 23 →
        ¬(space = 1 ∧ u ∈ q.tiles 0 ∧ s.segNamed u q * 0x20000 + q.n 3 ≤ off ∧
          off < s.segNamed u q * 0x20000 + q.n 3 + q.payload.length) → t.mget space u off = s.mget space u off

/-- SEG_COMMIT makes a FILLING segment with the right CRC VALID. An accepted SEG_COMMIT of a session that breaks no limit and names one tile whose
segment is FILLING and passes the checks of a commit makes the segment VALID, or QUEUED at once where the tile's step waits for it, and answers OK
with the mask of that tile; with a CRC that does not match the segment stays FILLING and the answer is CRC_ERROR with an empty mask. No byte of
memory changes. (04_pattern_store.md R101, 04_pattern_store.md R94) -/
def Obligations.SegmentCommits : Prop :=
  ∀ (q : Req) (s : State) (u : Nat), segStrm q = false → s.runs 0x23 q = true → segLimits true q = false → q.tiles 0 = [u] →
    (segRing q = true → s.ringLen u ≠ 0) → (segSealedOp q = true → (s.bundleOf u).isSome = true) →
    s.segSt u (s.segNamed u q) = sgFilling →
    (s.routine.segMatches u (s.segNamed u q) (q.p 3) = true →
      ∃ t, exec (.segCommit q) s = .next t ∧
        (t.segSt u (s.segNamed u q) = sgValid ∨ (s.idle u = false ∧ t.segSt u (s.segNamed u q) = sgQueued)) ∧
        Answered t 0x23 q St.ok [(tileMask [u]).1, (tileMask [u]).2] [] ∧ MemSame s t) ∧
    (s.routine.segMatches u (s.segNamed u q) (q.p 3) = false →
      ∃ t, exec (.segCommit q) s = .next t ∧ t.segSt u (s.segNamed u q) = sgFilling ∧ Answered t 0x23 q St.crcError [0, 0] [] ∧ MemSame s t)

/-- STREAM_OPEN enters a group and its members, STREAM_CLOSE removes them, and STREAM_PACKET reaches the receiving members. An accepted STREAM_OPEN
outside recovery with a free slot, a group that is not open, trained links and members that have a ring, belong to no stream and are not fenced
takes the lowest free slot: the group is OPEN with NEXT equal to FIRST_SEQ, and each named tile is a member. An accepted STREAM_CLOSE of an open
group, with no stream packet waiting, closes it and its members leave. With none waiting, an accepted STREAM_PACKET with the SEQ that its group
expects completes: the first write of a segment, unsealed and with a good trailer, stands in the FILL segment of each receiving member and nowhere
else, and that segment is FILLING; a commit advances NEXT by one and changes no byte of memory. A packet for a group that is not open raises
PROTO_DISCARD by one, and one whose SEQ is not NEXT sets SEQERR of its group. (04_pattern_store.md R105, 04_pattern_store.md R106,
04_pattern_store.md R107, 04_pattern_store.md R108, 10_uhleus_protocol.md R245) -/
def Obligations.StreamsOpenClose : Prop :=
  (∀ (q : Req) (s : State) (n : Nat), s.wakeEngine.runs 0x24 q = true → s.flag R.BOOT_STATUS_RECOVERY = false → q.n 0 < 2 ^ 20 →
      (List.range 8).find? (fun n => !s.flag (R.STRM_CTL_OPEN n)) = some n → s.strmSlot (q.n 0 % 256) = none →
      (∀ k < 12, (nbits (q.n 0) 19 8).testBit k = true → s.trained k = true) →
      (∀ u ∈ q.tiles 1, s.tileFenced u = false ∧ s.ringLen u ≠ 0 ∧ s.flag (R.STRM_CFG_MEMBER u) = false) →
      ∃ t, exec (.streamOpen q) s = .next t ∧ t.flag (R.STRM_CTL_OPEN n) = true ∧ t.fget (R.STRM_CTL_GROUP n) = q.n 0 % 256 ∧
        t.fget (R.STRM_CTL_DLINKS n) = nbits (q.n 0) 19 8 ∧
        t.rget (R.STRM_TILES_LO n) = q.p 1 ∧ t.rget (R.STRM_TILES_HI n) = q.p 2 ∧ t.rget (R.STRM_NEXT n) = q.p 3 ∧
        (∀ u ∈ q.tiles 1, t.flag (R.STRM_CFG_MEMBER u) = true ∧ t.fget (R.STRM_CFG_GROUP u) = q.n 0 % 256) ∧
        Answered t 0x24 q St.ok [] [] ∧ MemSame s t) ∧
    (∀ (q : Req) (s : State) (n : Nat), s.runs 0x25 q = true → q.n 0 < 256 → s.strmSlot (q.n 0) = some n → s.strmWait = [] →
      ∃ t, exec (.streamClose q) s = .next t ∧ t.flag (R.STRM_CTL_OPEN n) = false ∧
        (∀ u ∈ s.strmTiles n, t.flag (R.STRM_CFG_MEMBER u) = false) ∧ Answered t 0x25 q St.ok [] [] ∧ MemSame s t) ∧
    (∀ (g : BitVec 8) (commit : Bool) (q : Req) (s : State), s.strmWait = [] →
      (s.strmSlot g.toNat = none → s.fget R.PROTO_DISCARD_COUNT < 0xFFFFFFFF →
        ∃ t, exec (.streamPacket g commit q) s = .next t ∧ t.fget R.PROTO_DISCARD_COUNT = s.fget R.PROTO_DISCARD_COUNT + 1 ∧ t.strmWait = [] ∧
          RegsSame (fun a => a == R.PROTO_DISCARD) s t ∧ MemSame s t) ∧
      ∀ n, s.strmSlot g.toNat = some n → s.strmReady n { group := g.toNat, commit := commit, q := q } = true → q.p 4 ≠ s.rget (R.STRM_NEXT n) →
        ∃ t, exec (.streamPacket g commit q) s = .next t ∧ t.flag (R.STRM_CTL_SEQERR n) = true ∧ MemSame s t) ∧
    (∀ (g : BitVec 8) (q : Req) (s : State) (n : Nat), s.strmWait = [] → s.strmSlot g.toNat = some n → q.p 4 = s.rget (R.STRM_NEXT n) →
      (segLimits true q = false → ∃ t, exec (.streamPacket g true q) s = .next t ∧ t.rget (R.STRM_NEXT n) = s.rget (R.STRM_NEXT n) + 1 ∧
        t.strmWait = [] ∧ MemSame s t) ∧
      (let here := (s.strmTiles n).filter s.receiving;
        segLimits false q = false → segSealedOp q = false → q.n 3 = 0 → q.trailerOk = true →
        s.strmReady n { group := g.toNat, commit := false, q := q } = true → (∀ u ∈ here, s.segSealed u (s.ringFill u) = false) →
        ∃ t, exec (.streamPacket g false q) s = .next t ∧ t.strmWait = [] ∧
          (∀ u ∈ here, t.segSt u (s.ringFill u) = sgFilling ∧
            ∀ i < q.payload.length, t.mget 1 u (s.ringFill u * 0x20000 + i) = q.payload.getD i 0) ∧
          ∀ space u off, u < 64 → off < 2 ^ 23 →
            ¬(space = 1 ∧ u ∈ here ∧ s.ringFill u * 0x20000 ≤ off ∧ off < s.ringFill u * 0x20000 + q.payload.length) →
              t.mget space u off = s.mget space u off))

/-- STEP_ARM is accepted and its tiles become ARMED when they have settled. An accepted STEP_ARM that names at least one tile, outside recovery and
boundary scan, that no tile refuses, that overlaps no waiting STEP_ARM, with room for a split-phase operation and no patch waiting, is ACCEPTED
where a boundary action is still due on one of its tiles or the arming checks of R88 pass. STEP_ARM_SETTLED of such an operation, with the tiles
idle, unfenced, settled, not under test, with no calving and no boundary action, and LVL_CLR_N not asserted, brings every tile to ARMED for its
session and completes OK. (01_architecture.md R20, 01_architecture.md R19, 03_sequencer.md R88) -/
def Obligations.StepsArm : Prop :=
  (∀ (q : Req) (s : State), s.wakeEngine.runs 0x30 q = true → q.tiles 0 ≠ [] → s.flag R.BOOT_STATUS_RECOVERY = false → s.bscan = false →
      let r := s.wakeEngine.routine
      r.armRefused (q.tiles 0) = none → (∀ u ∈ q.tiles 0, u ∉ r.armWaiting) → s.splits.length < 256 → s.flag R.ENG_STATUS_HOLDING = false →
      ((q.tiles 0).all r.clean = false ∨ (r.armChecks (q.tiles 0)).2 = none) →
      ∃ t, exec (.stepArm q) s = .next t ∧ Begun t 0x30 q) ∧
    (∀ (o : OpRef) (volts : List (Fin 1024 × Int)) (s : State) (x : Split),
      s.splits.find? (fun (x : Split) => x.arming && x.session == o.session && x.tag == o.tag) = some x →
      let l := x.tiles
      (∀ u ∈ l, s.idle u = true ∧ s.tileFenced u = false ∧ s.armBarred u = false ∧ s.acting u = false) → s.lvlClr = false →
      s.armSettled l = true →
      ∃ t, exec (.stepArmSettled o volts) s = .next t ∧ (∀ u ∈ l, t.stepState u = stArmed ∧ (t.tile u).armedBy = some x.session) ∧
        Over t x ∧ Completed t x St.ok)

/-- A chip without valid time rejects STEP_START. With TIME_STATUS.VALID 0 an accepted STEP_START is answered BAD_PARAM, and every tile stays in its
state. (02_epoch_grid.md R44) -/
def Obligations.StartNeedsTime : Prop :=
  ∀ (q : Req) (s : State), s.runs 0x31 q = true → s.flag R.TIME_STATUS_VALID = false →
    ∃ t p0, exec (.stepStart q) s = .next t ∧ Answered t 0x31 q St.badParam [p0] [] ∧ (∀ u, u < 64 → t.stepState u = s.stepState u) ∧
      t.splits = s.splits ∧ MemSame s t ∧ RegsSame (fun a => counting a || a == R.SESS_STAT q.session.toNat) s t

/-- STEP_START schedules its tiles and the start grid point runs them. An accepted STEP_START with valid time, no patch waiting and room for a
split-phase operation whose tiles are all ARMED, none of their groups started and no tile of them ENDED, is ACCEPTED where each tile's start grid
point, the first one of the period of its first instruction at or after the declared start time, or after now plus 2 µs, is at least 2 µs ahead.
Each tile is then PENDING with its start and the end of the cycles issued so far at that grid point and its PC at SEQ_RANGE.FIRST, and no byte of
memory has changed. At the start grid point of a PENDING tile with no throttle hold the tile is RUNNING, and its step counts from that instant;
STEP_START_GRID_POINT of a tile in another state changes nothing. (01_architecture.md R21, 01_architecture.md R19, 02_epoch_grid.md R51,
10_uhleus_protocol.md R257) -/
def Obligations.StepsStart : Prop :=
  (∀ (q : Req) (s : State),
      let l := q.tiles 0
      let d : Nat := q.n 2 + 2 ^ 32 * q.n 3
      let period (u : Nat) : Nat := s.periodOf u (s.seqAt u (s.fget (R.SEQ_RANGE_FIRST u))).pidx.toNat
      let point (u : Nat) : Int := gridFrom (period u) (if d = 0 then s.now + startDelay else d * unitFs)
      s.runs 0x31 q = true → s.flag R.TIME_STATUS_VALID = true → s.splits.length < 256 → s.flag R.ENG_STATUS_HOLDING = false → l ≠ [] →
      (∀ u ∈ l, s.stepState u = stArmed ∧ s.now + startDelay ≤ point u ∧ s.startOf (s.tile u).group = none ∧
        ∀ v, v < 64 → (s.tile v).group = (s.tile u).group → s.stepState v ≠ stEnded) →
      ∃ t, exec (.stepStart q) s = .next t ∧ Begun t 0x31 q ∧ MemSame s t ∧
        ∀ u ∈ l, t.stepState u = stPending ∧ (t.tile u).startAt = point u ∧ (t.tile u).endE = point u ∧
          t.fget (R.SEQ_STATUS_PC u) = s.fget (R.SEQ_RANGE_FIRST u)) ∧
    (∀ (u : Fin 64) (s : State), s.stepState u = stPending → s.holdStarts = false →
      ∃ t, exec (.stepStartGridPoint u) s = .next t ∧ t.stepState u = stRunning ∧ (t.tile u).lastE = (s.tile u).startAt) ∧
    (∀ (u : Fin 64) (s : State), s.stepState u ≠ stPending → exec (.stepStartGridPoint u) s = .next s)

/-- A start grid point under a throttle hold returns the tiles to ARMED. With throttle stage 3 holding new steps, the start grid point of a PENDING
tile returns every PENDING tile of its group to ARMED, with its start dropped from the queue, and the STEP_START of the group completes with BUSY.
(01_architecture.md R23) -/
def Obligations.ThrottleHoldsStart : Prop :=
  ∀ (u : Fin 64) (s : State), s.stepState u = stPending → s.holdStarts = true →
    ∃ t, exec (.stepStartGridPoint u) s = .next t ∧
      (∀ v ∈ s.members (s.tile u).group, s.stepState v = stPending → t.stepState v = stArmed ∧ (t.tile v).queue = []) ∧
      (∀ v, v < 64 → t.stepState v = stRunning → s.stepState v = stRunning) ∧
      ∀ x, s.startOf (s.tile u).group = some x → Over t x ∧ Completed t x St.busy

/-- STEP_STATUS returns SEQ_STATUS of the tiles it names. An accepted STEP_STATUS is answered OK with the word SEQ_STATUS of each named tile in
ascending order, PC and SP reading 0 where the tile belongs to a bundle. No register but the session's slot count and the event counters, and no
byte of memory, changes. (10_uhleus_protocol.md Table 10.6, 13_security.md Table 13.10) -/
def Obligations.StepStatusReads : Prop :=
  ∀ (q : Req) (s : State), s.runs 0x32 q = true → ∃ t, exec (.stepStatus q) s = .next t ∧
    Answered t 0x32 q St.ok [] ((q.tiles 0).flatMap fun u => wordBytes (if s.bundleOf u = none then s.rget (R.SEQ_STATUS u)
      else setField (setField (s.rget (R.SEQ_STATUS u)) 29 16 0) 15 12 0)) ∧
    MemSame s t ∧ RegsSame (fun a => counting a || a == R.SESS_STAT q.session.toNat) s t

/-- EVENT_WAIT waits, completes when it is met or times out, and ABORT ends it. An accepted EVENT_WAIT of a defined kind, with fewer than 16 of them
and 256 split-phase operations and no patch waiting, is ACCEPTED. EVENT_WAIT_DONE completes it OK when what it waits for has come, or when a timeout
that is not 0 has run out. An accepted ABORT whose target, the oldest operation of its own session with the tag, is an EVENT_WAIT ends it with
ABORTED and is answered OK; an ABORT of steps is answered OK with the mask of the named tiles that held a step. (10_uhleus_protocol.md R266,
10_uhleus_protocol.md R257, 10_uhleus_protocol.md R258) -/
def Obligations.AbortAndWait : Prop :=
  (∀ (q : Req) (s : State), s.runs 0x34 q = true → q.n 0 < 3 → (q.n 0 = 2 → q.n 1 < 65536) →
      (s.splits.filter fun (x : Split) => x.opcode == 0x34).length < 16 → s.splits.length < 256 → s.flag R.ENG_STATUS_HOLDING = false →
      ∃ t, exec (.eventWait q) s = .next t ∧ Begun t 0x34 q ∧ MemSame s t ∧
        RegsSame (fun a => counting a || a == R.SESS_STAT q.session.toNat || a == R.ENG_STATUS) s t) ∧
    (∀ (o : OpRef) (timeout : Bool) (s : State) (x : Split), s.split? 0x34 o = some x →
      (s.waitMet x = true ∨ (timeout = true ∧ x.params.getD 3 0 ≠ 0)) →
      ∃ t, exec (.eventWaitDone o timeout) s = .next t ∧ Over t x ∧ Completed t x St.ok ∧ MemSame s t ∧
        RegsSame (fun a => a == R.ENG_STATUS) s t) ∧
    (∀ (q : Req) (s : State) (x : Split), s.runs 0x33 q = true → q.n 0 = 0 → q.n 1 < 2 ^ 21 → nbits (q.n 1) 20 16 = q.session.toNat →
      s.targetOf q.session.toNat ((q.p 1).setWidth 16) = some (.split x) → x.opcode = 0x34 →
      ∃ t, exec (.abort q) s = .next t ∧ Answered t 0x33 q St.ok [] [] ∧ Over t x ∧ Completed t x St.aborted) ∧
    (∀ (q : Req) (s : State), s.runs 0x33 q = true → q.n 0 = 1 →
      let l := (q.tiles 1).filter fun u => inStep (s.stepState u)
      l ≠ [] → ∃ t, exec (.abort q) s = .next t ∧ Answered t 0x33 q St.ok [(tileMask l).1, (tileMask l).2] [])

/-- CAPTURE_READ and PROFILE_READ return records and bins, FAIL_READ repair data. An accepted CAPTURE_READ of 1 to 4,096 records of a tile that is
not fenced, hides nothing and holds no record with an uncorrectable error returns the oldest min(COUNT, USED) records of the ring, their number, how
many remain and the calibration epoch of the tile's step data; unless it peeks, the read pointer moves past them and USED falls by their number. An
accepted PROFILE_READ returns the bins asked for that exist with PROF_STATUS and PROF_EPOCH, an accepted FAIL_READ the eight words of a site's
repair data or the entries of a list, with the calibration epoch of the step they come from. No byte of memory changes. (08_acquisition.md R219,
08_acquisition.md R220, 07_time_measurement.md R184) -/
def Obligations.CaptureReads : Prop :=
  (∀ (q : Req) (s : State), s.runs 0x40 q = true → q.n 0 < 64 → 1 ≤ q.n 1 → q.n 1 ≤ 4096 → q.n 2 < 2 → s.tileFenced (q.n 0) = false →
      s.hidden (q.n 0) [9, 10, 11, 12, 13] = false → (s.tile (q.n 0)).cap.bad = [] →
      let u := q.n 0
      let n := min (q.n 1) (s.ringU u)
      let size := max 1 (s.ringN u)
      let rd := s.fget (R.CAP_RD_PTR_VALUE u)
      let left := if q.n 2 = 1 then s.ringU u else s.ringU u - n
      ∃ t, exec (.captureRead q) s = .next t ∧
        Answered t 0x40 q St.ok [BitVec.ofNat 32 n, BitVec.ofNat 32 left, s.dataEpoch u]
          ((List.range n).flatMap fun k => s.mread 5 u ((rd + k) % size * 16) 16) ∧
        t.ringU u = left ∧ t.fget (R.CAP_RD_PTR_VALUE u) = (if q.n 2 = 1 then rd else (rd + n) % size) ∧ MemSame s t ∧
        RegsSame (fun a => counting a || a == R.SESS_STAT q.session.toNat || a == R.CAP_RD_PTR u || a == R.CAP_USED u) s t) ∧
    (∀ (q : Req) (s : State), s.runs 0x42 q = true → q.n 0 < 64 → q.n 1 < 32 → q.n 2 < 512 → 1 ≤ q.n 3 → q.n 3 ≤ 512 → s.hidden (q.n 0) [14] = false →
      let k := min (q.n 3) (512 - q.n 2)
      ∃ t, exec (.profileRead q) s = .next t ∧
        Answered t 0x42 q (if k = q.n 3 then St.ok else St.part)
          [BitVec.ofNat 32 k, s.rget (R.PROF_STATUS (q.n 0)), s.rget (R.PROF_EPOCH (q.n 0))]
          (s.mread 6 (q.n 0) (((q.n 1 % 16 * 2 + q.n 1 / 16) * 512 + q.n 2) * 4) (4 * k)) ∧
        MemSame s t ∧ RegsSame (fun a => counting a || a == R.SESS_STAT q.session.toNat) s t) ∧
    (∀ (q : Req) (s : State), s.runs 0x41 q = true → q.n 0 < 256 → q.n 1 < 4 → (q.n 1 ≠ 0 → 1 ≤ q.n 3 ∧ q.n 3 ≤ 4096) →
      let r := s.routine
      let tiles := r.siteTiles (q.n 0)
      (∀ u ∈ tiles, r.hidden u [8] = false) → (∀ u ∈ r.ownTiles tiles (q.n 0), inStep (r.stepState u) = false) → q.n 0 ∉ s.armedSites →
      let all := (Store.get (fun _ => {}) s.rep (q.n 0) : FcSite).entriesOf (q.n 1)
      let l := (all.drop (q.n 2)).take (q.n 3)
      let epoch := (Store.get (fun _ => {}) s.rep (q.n 0) : FcSite).epoch.getD (r.dataEpoch (tiles.headD 0))
      ∃ t, exec (.failRead q) s = .next t ∧ MemSame s t ∧ RegsSame (fun a => counting a || a == R.SESS_STAT q.session.toNat) s t ∧
        (q.n 1 = 0 → Answered t 0x41 q St.ok [8, 8, epoch] ((r.repWords (q.n 0)).flatMap wordBytes)) ∧
        (q.n 1 ≠ 0 → Answered t 0x41 q St.ok [BitVec.ofNat 32 l.length, BitVec.ofNat 32 all.length, epoch] (l.flatten.flatMap wordBytes)))

/-- MEASURE waits for the next update of its channel, conversions average, MEASURE_REPLY answers. An accepted MEASURE of a channel that is not OFF
and not hidden waits. MEASURE_REPLY answers every MEASURE whose update has come with the value of that update, or with SEALED where a bundle hides
the channel since, and none waits for its reply any more. A user conversion that the converter of the channel's quad takes, where no WAVE record of
the tile still waits, adds its code, limited to ±131,071, to the sum while fewer than 2^AVG have been taken; the last one of an average writes
PMU_MEAS with NEW, OVR, RANGING and CLAMP, which CH_STATUS shows in PMU mode, of the average and its rounded value (of a tile that is not RUNNING),
and that is the update of every MEASURE that waits for the channel. (08_acquisition.md R221, 06_pin_electronics.md R160, 06_pin_electronics.md R161)
-/
def Obligations.Measures : Prop :=
  (∀ (q : Req) (s : State), s.runs 0x43 q = true → q.n 0 < 1024 → s.hidden (q.n 0 / 16) [13] = false → s.mode (q.n 0) ≠ 0 →
      ∃ t, exec (.measure q) s = .next t ∧ t.measures = s.measures ++ [q] ∧ MemSame s t ∧ RegsSame counting s t) ∧
    (∀ (ch : Fin 1024) (s : State), ∃ t, exec (.measureReply ch) s = .next t ∧
      t.measured = s.measured.filter (fun m => m.1.n 0 != ch.val) ∧ t.measures = s.measures ∧
      (∀ m ∈ s.measured, m.1.n 0 = ch.val → if s.hidden (ch / 16) [13] = true then Answered t 0x43 m.1 St.isSealed [0] []
        else Answered t 0x43 m.1 St.ok [m.2] []) ∧ MemSame s t) ∧
    (∀ (ch : Fin 1024) (code : Int) (clamped : Bool) (i : Nat) (s : State), s.converter ch i none ≠ none → (s.tile (ch / 16)).cap.waves = [] →
      let v := max (-131071) (min 131071 code)
      let c := s.chan ch
      let cl := (s.limited ch code).getD clamped && s.mode ch == 2 && s.fget (R.PMU_CFG_FORCE ch) != 0
      ((s.chan ch).pmuN + 1 < 2 ^ s.fget (R.PMU_CFG_AVG ch) →
        ∃ t, exec (.pmuConversion ch code clamped i none) s = .next t ∧ (t.chan ch).pmuSum = c.pmuSum + v ∧ (t.chan ch).pmuN = c.pmuN + 1 ∧
          (s.mode ch = 2 → s.power (ch / 16) < 2 → t.flag (R.CH_STATUS_CLAMP ch) = cl) ∧
          t.rget (R.PMU_MEAS ch) = s.rget (R.PMU_MEAS ch) ∧ MemSame s t) ∧
      (2 ^ s.fget (R.PMU_CFG_AVG ch) ≤ (s.chan ch).pmuN + 1 → s.stepState (ch / 16) ≠ stRunning →
        ∃ t, exec (.pmuConversion ch code clamped i none) s = .next t ∧ (t.chan ch).pmuN = 0 ∧
          t.rget (R.PMU_MEAS ch) = BitVec.ofNat 32 (2 ^ 31 + 2 ^ 30 * (c.pmuOvr || v != code).toNat +
            2 ^ 29 * (c.pmuRanging || s.flag (R.CH_STATUS_RANGING ch)).toNat + 2 ^ 28 * (c.pmuClamp || cl).toNat +
            unsigned 18 (roundDiv (c.pmuSum + v) (c.pmuN + 1))) ∧
          (∀ m ∈ s.measures, m.n 0 = ch.val → m ∉ t.measures ∧ (m, t.rget (R.PMU_MEAS ch)) ∈ t.measured) ∧ MemSame s t))

/-- Mask violations, trigger times and trigger edges register in the tiles. MASKV_FLAG with a violation due sets COND_FLAGS.MASKV of the tile with a
contribution at its instant and nothing is due any more. TRIG_IN_EDGE 1,280 units or more behind the edge before it registers in every tile that is
ACTIVE or STANDBY, where no tile takes its triggers from TRIG_IN, a contribution to the trigger's flag at the first tile clock edge 20 ns or more
behind its arrival. TRIG_TIME_REACHED is a trigger event at the declared instant in a RUNNING tile whose source is TIME: behind the start of the
step, with issue not stopped, it is taken and counted in CAP_STATUS.FRAMES where no frame is written, none has been and no hold-off lasts, and
counted in TRIG_IGN while a frame is written; it does nothing in any other tile. (03_sequencer.md R70, 03_sequencer.md R71, 08_acquisition.md R203,
08_acquisition.md R210, 21_electrical_package.md R477) -/
def Obligations.EventsRegister : Prop :=
  (∀ (u : Fin 64) (i : Int) (s : State), (s.tile u).cap.maskDue = some i →
      ∃ t, exec (.maskvFlag u) s = .next t ∧ t.flag (R.COND_FLAGS_MASKV u) = true ∧ (t.tile u).cap.maskDue = none ∧
        (.maskv, i) ∈ (t.tile u).conds ∧ MemSame s t) ∧
    (∀ (n : Fin 4) (arrival : Nat) (s : State),
      (∀ a, Store.get (fun _ => none) s.trigIn n.val = some a → a + 1280 ≤ arrival) →
      ∃ t, exec (.trigInEdge n arrival) s = .next t ∧ Store.get (fun _ => none) t.trigIn n.val = some arrival ∧
        ((∀ u, u < 64 → s.fget (R.TRIG_CFG_SRC u) ≠ 3) → ∀ u, u < 64 → s.power u < 2 →
          (CondKey.trig n, s.tileTime u ((((arrival + 5120 + 319) / 320 * 320 : Nat) : Int) * unitFs)) ∈ (t.tile u).conds)) ∧
    (∀ (u : Fin 64) (s : State),
      (s.fget (R.TRIG_CFG_SRC u) = 5 → exec (.trigTimeReached u) s =
        .next (s.trigEvent u (s.pair (R.TRIG_TIME_LO u) (R.TRIG_TIME_HI u) * unitFs))) ∧
      (s.fget (R.TRIG_CFG_SRC u) ≠ 5 ∨ s.stepState u ≠ stRunning → exec (.trigTimeReached u) s = .next s) ∧
      (s.fget (R.TRIG_CFG_SRC u) = 5 → s.stepState u = stRunning → (s.tile u).cap.frame.isSome = true → (s.tile u).closing = false →
        (s.tile u).startAt ≤ s.pair (R.TRIG_TIME_LO u) (R.TRIG_TIME_HI u) * unitFs → s.flag (R.CAP_CFG_MODE u) = false →
        s.fget (R.TRIG_IGN_COUNT u) < 2 ^ 32 - 1 →
        ∃ t, exec (.trigTimeReached u) s = .next t ∧ t.fget (R.TRIG_IGN_COUNT u) = s.fget (R.TRIG_IGN_COUNT u) + 1 ∧ MemSame s t) ∧
      (let i : Int := s.pair (R.TRIG_TIME_LO u) (R.TRIG_TIME_HI u) * unitFs;
       s.fget (R.TRIG_CFG_SRC u) = 5 → s.stepState u = stRunning → (s.tile u).cap.frame = none → (s.tile u).cap.past = none →
        s.holdOver u i = true → (s.tile u).closing = false → (s.tile u).startAt ≤ i → s.flag (R.CAP_CFG_EN u) = false →
        s.fget (R.CAP_STATUS_FRAMES u) < 0xFFFF →
        ∃ t, exec (.trigTimeReached u) s = .next t ∧ t.fget (R.CAP_STATUS_FRAMES u) = s.fget (R.CAP_STATUS_FRAMES u) + 1 ∧
          (t.tile u).cap.trigs = (s.tile u).cap.trigs + 1 ∧ MemSame s t))

/-- Measured items enter the pending set and a commit brings them into force. A BACKGROUND_MEASUREMENT of subject 0 to 4 that its conditions allow,
that nothing has disturbed and that is not rejected enters, with its row's Tj and the operating time, the pending set as the newest item of its
channel and subject, marks CH_CAL_STAT and sets CAL_STATUS.PENDING. With a pending item, no throttle stage 1 and no tile IDLE or ENDED,
CAL_AUTO_COMMIT with AUTO = 1 behind its interval and an accepted CAL_COMMIT empty the pending set, make each pending item the newest of its key and
raise CAL_EPOCH by one; CAL_COMMIT is answered OK with the epoch then in force. (09_calibration.md R227, 09_calibration.md R231, 09_calibration.md
R232, 09_calibration.md R233) -/
def Obligations.CalibrationItems : Prop :=
  (∀ (m : CalMeas) (s : State), s.calBackground m.subj.val = true → m.subj.val ≠ 5 → s.undisturbed m = true →
      (s.calAllowed m.chan.val m.subj.val = true ∨ s.calTracks m.chan.val m.subj.val = true) →
      let n := if s.calAllowed m.chan.val m.subj.val then m else s.tracked m
      s.calRejected n = false →
      ∃ t it, exec (.backgroundMeasurement m) s = .next t ∧ Store.get (fun _ => none) t.calPend (calKey m.chan m.subj) = some it ∧
        it.values = measResult n ∧ it.tj = s.rowTj m.chan ∧ it.hours = (s.rget R.MRN_HOURS).toNat ∧ it.measured = true ∧
        (t.rget (R.CH_CAL_STAT m.chan)).getLsbD m.subj.val = true ∧ t.flag R.CAL_STATUS_PENDING = true ∧ MemSame s t ∧
        RegsSame (fun a => a == R.CH_CAL_STAT m.chan || a == R.CAL_PEND || a == R.CAL_STATUS) s t) ∧
    (∀ (s : State), s.calPend ≠ [] → s.stage1 = false → (∀ u, u < 64 → s.idle u = false) → Store.wf (fun _ => none) s.calPend = true →
      (s.flag R.CAL_CTRL_AUTO = true → s.autoDue = true → ∃ t, exec .calAutoCommit s = .next t ∧ t.calPend = [] ∧ MemSame s t ∧
        t.rget R.CAL_EPOCH = s.rget R.CAL_EPOCH + 1 ∧
        ∀ k it, Store.get (fun _ => none) s.calPend k = some it → t.calNewest k = it) ∧
      ∀ q : Req, s.runs 0x51 q = true → ∃ t, exec (.calCommit q) s = .next t ∧ t.calPend = [] ∧ MemSame s t ∧
        t.rget R.CAL_EPOCH = s.rget R.CAL_EPOCH + 1 ∧ Answered t 0x51 q St.ok [s.rget R.CAL_EPOCH + 1] [] ∧
        ∀ k it, Store.get (fun _ => none) s.calPend k = some it → t.calNewest k = it)

/-- CAL_RUN is accepted and completes with its items, CAL_READ returns an item, REFV_CHECK judges the reference. An accepted CAL_RUN of subjects 0
to 5 with defined flags, whose tiles are neither fenced nor in a step, while no run is in progress and no patch waits, is ACCEPTED and sets
CAL_STATUS.RUN. CAL_RUN_DONE of a run without SYNC item that skipped no channel, with an item of each of its subjects of every channel that can be
measured and none of them rejected, completes it OK, without throttle stage 1; before every channel has been measured it does nothing. An accepted
CAL_READ returns the applied, the newest or the pending item. REFV_CHECK sets CAL_STATUS.REFV_BAD exactly if the reference lies outside 4.0 V to 5.5
V or differs from REFV_VALUE by more than 0.5 %. CALVING_DESKEW_DONE of a tile that waits for no measurement does nothing; with a good item of every
channel that can be measured it ends the wait and commits. (09_calibration.md R239, 09_calibration.md R238, 09_calibration.md R229) -/
def Obligations.CalibrationRuns : Prop :=
  (∀ (q : Req) (s : State), s.runs 0x50 q = true → q.n 0 < 64 → q.n 0 ≠ 0 → q.n 3 < 4 →
      (q.n 0 % 32 ≠ 0 → ∀ u ∈ q.tiles 1, s.tileFenced u = false ∧ s.idle u = true) →
      s.flag R.CAL_STATUS_RUN = false → s.splits.length < 256 → s.flag R.ENG_STATUS_HOLDING = false →
      ∃ t, exec (.calRun q) s = .next t ∧ Begun t 0x50 q ∧ t.flag R.CAL_STATUS_RUN = true) ∧
    (∀ (o : OpRef) (items : List CalMeas) (s : State) (x : Split), s.split? 0x50 o = some x → (x.params.getD 0 0).getLsbD 5 = false →
      x.aux.headD 0 = 0 → s.stage1 = false →
      let ready (j ch : Nat) : Bool := !(x.params.getD 0 0).toNat.testBit j || !s.calFree ch j || items.any fun m => m.chan.val == ch &&
          m.subj.val == j
      let all := (tilesOf (x.params.getD 1 0) (x.params.getD 2 0)).flatMap chansOf
      ((∀ m ∈ items, s.calRejected m = false) → (∀ j < 5, ∀ ch ∈ all, ready j ch = true) →
        ∃ t, exec (.calRunDone o items) s = .next t ∧ Over t x ∧ Completed t x St.ok ∧ MemSame s t) ∧
      ((∃ j < 5, ∃ ch ∈ all, ready j ch = false) → exec (.calRunDone o items) s = .next s)) ∧
    (∀ (q : Req) (s : State), s.runs 0x52 q = true → q.n 0 < 1024 → q.n 1 < 64 → q.n 1 / 8 % 2 = 0 → q.n 1 % 8 ≤ 5 → q.n 1 / 16 % 4 ≠ 3 →
      let k := if q.n 1 % 8 = 5 then syncKey else calKey (q.n 0) (q.n 1 % 8)
      let rej := q.n 1 % 8 != 5 && (s.fget (R.CH_CAL_STAT_REJ (q.n 0))).testBit (q.n 1 % 8)
      let found (epoch : Word) (it : CalItem) (t : State) : Prop := ∃ stale : Bool, Answered t 0x52 q St.ok
        [epoch, BitVec.ofNat 32 (stale.toNat + 4 * it.noTrace.toNat + 8 * rej.toNat), BitVec.ofNat 32 (unsigned 32 it.tj), BitVec.ofNat 32 it.hours]
        (calPayload k (q.n 1 % 8) it)
      ∃ t, exec (.calRead q) s = .next t ∧ MemSame s t ∧ RegsSame (fun a => counting a || a == R.SESS_STAT q.session.toNat) s t ∧
        (q.n 1 / 16 = 0 → found (if q.n 1 % 8 = 5 then s.rget R.CAL_EPOCH else s.rget (R.TILE_CAL_EPOCH (q.n 0 / 16)))
          (if q.n 1 % 8 = 5 then s.calNewest k else s.calOf k) t) ∧
        (q.n 1 / 16 = 1 → found (s.rget R.CAL_EPOCH) (s.calNewest k) t) ∧
        (q.n 1 / 16 = 2 → ∀ it, Store.get (fun _ => none) s.calPend k = some it → found 0xFFFFFFFF it t) ∧
        (q.n 1 / 16 = 2 → Store.get (fun _ => none) s.calPend k = none →
          Answered t 0x52 q St.ok [0xFFFFFFFF, BitVec.ofNat 32 (2 + 8 * rej.toNat), 0, 0] [])) ∧
    (∀ (p n : Int) (s : State), ∃ t, exec (.refvCheck p n) s = .next t ∧
      (t.flag R.CAL_STATUS_REFV_BAD = true ↔
        5 * (s.rget R.REFV_VALUE).toNat < 1000 * ((p - n) - (s.rget R.REFV_VALUE).toNat).natAbs ∨ p - n < 4000000 ∨ 5500000 < p - n) ∧ MemSame s t ∧
      RegsSame (fun a => a == R.CAL_STATUS) s t) ∧
    (∀ (u : Fin 64) (items : List CalMeas) (s : State), (s.tile u).deskew = false → exec (.calvingDeskewDone u items) s = .next s) ∧
    (∀ (u : Fin 64) (items : List CalMeas) (s : State), (s.tile u).deskew = true → s.stage1 = false →
      (∀ ch ∈ chansOf u, s.calFree ch 3 = true → ∃ m ∈ items, m.chan.val = ch ∧ m.subj.val = 3 ∧ s.undisturbed m = true ∧ s.calRejected m = false) →
      ∃ t, exec (.calvingDeskewDone u items) s = .next t ∧ (t.tile u).deskew = false ∧ (t.tile u).away = [] ∧ t.calPend = [])

/-- The count is loaded by an armed SYNC edge or time message, refused while a step is held. An unarmed SYNC_EDGE writes SYNC_CHECK with its PHASE,
in −1,280 to 1,279; an armed one waits for its load. SYNC_ARMED_LOAD with the load still armed and no step held loads SYNC_LOAD plus SYNC_DESKEW,
sets VALID and disarms; while the chip holds a step the count stays and SYNC_REJ is set. A time message on the time-source link with the link load
armed, no step held and an even round trip loads the message's time plus half of the round trip, sets VALID and disarms; on any other link it does
nothing. (02_epoch_grid.md R39, 02_epoch_grid.md R40, 02_epoch_grid.md R42, 02_epoch_grid.md R41) -/
def Obligations.TimeLoads : Prop :=
  (∀ (u : Nat) (s : State), s.syncArmedNow = false → s.calBackground 5 = false →
      ∃ t, exec (.syncEdge u) s = .next t ∧ t.sysTime = s.sysTime ∧
        t.rget R.SYNC_CHECK = BitVec.ofInt 32 (((u : Int) - s.pair R.SYNC_LOAD_LO R.SYNC_LOAD_HI + 1280) % 2560 - 1280) ∧
        RegsSame (fun a => a == R.SYNC_CHECK) s t ∧ MemSame s t) ∧
    (∀ (u : Nat) (s : State), s.syncArmedNow = true → s.syncArmed = none →
      ∃ t, exec (.syncEdge u) s = .next t ∧ t.syncArmed = some u ∧ t.sysTime = s.sysTime ∧ RegsSame (fun _ => false) s t ∧ MemSame s t) ∧
    (∀ (u : Nat) (s : State), s.syncArmed = some u → s.syncArmedNow = true → s.holdsStep = false →
      ∃ t, exec .syncArmedLoad s = .next t ∧
        t.sysTime = BitVec.ofInt 64 ((s.pair R.SYNC_LOAD_LO R.SYNC_LOAD_HI : Int) + signed 16 (s.fget R.SYNC_DESKEW_DESKEW)) ∧
        t.flag R.TIME_STATUS_VALID = true ∧ t.flag R.TIME_CTRL_SYNC_ARM = false ∧ t.syncArmed = none ∧ MemSame s t) ∧
    (∀ (u : Nat) (s : State), s.syncArmed = some u → s.syncArmedNow = true → s.holdsStep = true → s.calBackground 5 = false →
      ∃ t, exec .syncArmedLoad s = .next t ∧ t.sysTime = s.sysTime ∧ t.flag R.TIME_STATUS_SYNC_REJ = true ∧
        t.flag R.TIME_CTRL_SYNC_ARM = true ∧ MemSame s t) ∧
    (∀ (l : Fin 12) (time arrival : BitVec 64) (s : State), s.timeSource = some l.val → s.flag R.TIME_CTRL_SRC = true →
      s.flag R.TIME_CTRL_LINK_ARM = true → s.holdsStep = false → s.fget (R.LINK_RTT_RTT l) % 2 = 0 →
      ∃ t, exec (.timeMessageReceive l time arrival) s = .next t ∧ t.sysTime = time + BitVec.ofNat 64 (s.fget (R.LINK_RTT_RTT l) / 2) ∧
        t.flag R.TIME_STATUS_VALID = true ∧ t.flag R.TIME_CTRL_LINK_ARM = false ∧ MemSame s t) ∧
    (∀ (l : Fin 12) (time arrival : BitVec 64) (s : State), s.timeSource ≠ some l.val → exec (.timeMessageReceive l time arrival) s = .next s)

/-- The wrap of the count, the checks of REFCLK and of its oven, and what reads and messages take of the count. SYSTIME_WRAP brings the count past
2^64 and sets WRAP. REF_CHECK within 100 ppm ends the condition; beyond, with no step held or just ended and the condition already present, it sets
REF_LOST and clears VALID. REF_DRIFT_CHECK writes REF_DRIFT, the change since the measurement of 60 s before (log entry 55 says what it is earlier),
and at 0.05 ppm/min or more REF_WARM is set and the 60 s begin again. OCXO_READY falling sets REF_WARM. SYSTIME_LO_READ latches the high word of the
count for the reading context. TIME_MESSAGE_SEND on an ACTIVE link with ROLE = DOWN and TMSG = 1 sends the valid count with the chip's ID when one
is due, and on any other nothing. (02_epoch_grid.md R38, 02_epoch_grid.md R46, 02_epoch_grid.md R47, 02_epoch_grid.md R57, 02_epoch_grid.md R43) -/
def Obligations.TimeChecks : Prop :=
  (∀ (s : State), 2 ^ 64 ≤ s.sysTime.toNat + 2560 → ∃ t, exec .systimeWrap s = .next t ∧ t.sysTime = s.sysTime + 2560 ∧
      t.flag R.TIME_STATUS_WRAP = true ∧ MemSame s t) ∧
    (∀ (ppm : Int) (s : State), ppm.natAbs ≤ 100 → ∃ t, exec (.refCheck ppm) s = .next t ∧ (0x60000, 10, 0) ∉ t.held ∧
      RegsSame (fun _ => false) s t ∧ MemSame s t) ∧
    (∀ (ppm : Int) (s : State), 100 < ppm.natAbs → s.holdsStep = false → (∀ u, u < 64 → s.ending u = false) → (0x60000, 10, 0) ∈ s.held →
      ∃ t, exec (.refCheck ppm) s = .next t ∧ t.flag R.TIME_STATUS_REF_LOST = true ∧ t.flag R.TIME_STATUS_VALID = false ∧
        RegsSame (fun a => a == R.TIME_STATUS) s t ∧ MemSame s t) ∧
    (∀ (freq : Int) (s : State), let d := s.driftOf freq; ∃ t, exec (.refDriftCheck freq) s = .next t ∧ t.rget R.REF_DRIFT = BitVec.ofInt 32 d ∧
      t.refFreqs = (freq :: s.refFreqs).take 60 ∧ (s.refFreqs.length = 60 → d = freq - s.refFreqs.getLastD freq) ∧
      (50 ≤ d.natAbs → t.flag R.TIME_STATUS_REF_WARM = true ∧ t.warmSecs = 0) ∧
      (d.natAbs < 50 → s.ocxo = true → s.warmSecs = 60 → t.flag R.TIME_STATUS_REF_WARM = false) ∧
      RegsSame (fun a => a == R.REF_DRIFT || a == R.TIME_STATUS) s t ∧ MemSame s t) ∧
    (∀ (s : State), ∃ t, exec (.ocxoReadyChange false) s = .next t ∧ t.flag R.TIME_STATUS_REF_WARM = true ∧ t.ocxo = false ∧ MemSame s t) ∧
    (∀ (s : State), ∃ t, exec (.ocxoReadyChange true) s = .next t ∧ t.ocxo = true ∧ RegsSame (fun _ => false) s t ∧ MemSame s t) ∧
    (∀ (c : Fin 33) (s : State), ∃ t, exec (.systimeLoRead c) s = .next t ∧ (t.ctx c).sysHi = (s.sysTime >>> 32).setWidth 32 ∧
      (∀ k, k ≠ c.val → t.ctx k = s.ctx k) ∧ RegsSame (fun _ => false) s t ∧ MemSame s t) ∧
    (∀ (l : Fin 12) (s : State),
      let sends := s.flag (R.LINK_CTRL_ROLE l) = true ∧ s.flag (R.LINK_CTRL_TMSG l) = true ∧ s.linkState l = lkActive ∧
        s.flag R.TIME_STATUS_VALID = true ∧ s.timeDue l = true
      (sends → ∃ t, exec (.timeMessageSend l) s = .next t ∧ (t.link l).wire = (s.link l).wire ++ [.time s.sysTime (s.fget R.CHIP_ID_ID)] ∧
        RegsSame (fun _ => false) s t ∧ MemSame s t) ∧
      (¬sends → exec (.timeMessageSend l) s = .next s))

/-- CH_MODE, the gate and the forced reset of a channel. A write to CH_MODE that no check refuses stores bits 8, 5:4 and 1:0 and answers OK; with
the front ends on, a channel leaving OFF begins to close its gate. A refused write changes nothing but its answer. A gate that has closed on a
channel that is not OFF and on which no INJECT holds an overstress shows GATE with both comparators not KNOWN, and a queued forced reset begins; a
gate that has opened in OFF leaves the channel in the pin safe state. A forced reset that ends sets KNOWN, unless a clearing was deferred, with each
comparator on the side of its threshold on which the pin's voltage lies where that is decided. No register outside the channel's own and no byte of
memory changes. (06_pin_electronics.md R135, 06_pin_electronics.md R136, 06_pin_electronics.md R137, 06_pin_electronics.md R154) -/
def Obligations.ChannelModes : Prop :=
  (∀ (ch : Fin 1024) (v : Word) (s : State) (st : BitVec 8), s.chModeRule ch v = some st →
      ∃ t, exec (.chModeWrite ch v) s = .next t ∧ t.answer = st.toNat ∧ t.chan ch = s.chan ch ∧ RegsSame (fun _ => false) s t ∧ MemSame s t) ∧
    (∀ (ch : Fin 1024) (v : Word) (s : State), s.chModeRule ch v = none → ∃ t, exec (.chModeWrite ch v) s = .next t ∧
      t.answer = St.ok.toNat ∧ t.rget (R.CH_MODE ch) = v &&& 0x133 ∧
      (s.flag R.SF_STATUS_FE_OFF = false → s.mode ch = 0 → field v 1 0 ≠ 0 →
        (t.chan ch).gateMoving = true ∧ t.flag (R.CH_STATUS_SAFE ch) = false ∧ t.flag (R.CH_STATUS_GATE ch) = false) ∧
      RegsSame (inChan ch) s t ∧ MemSame s t) ∧
    (∀ (ch : Fin 1024) (s : State), s.mode ch ≠ 0 → s.flag (R.CH_STATUS_GATE ch) = false → (∀ k < 2, (0x60000, k, ch.val) ∉ s.injHeld) →
        ∃ t, exec (.gateClosed ch) s = .next t ∧
      t.flag (R.CH_STATUS_GATE ch) = true ∧ t.flag (R.CH_STATUS_KNOWN_HI ch) = false ∧ t.flag (R.CH_STATUS_KNOWN_LO ch) = false ∧
      ((s.chan ch).resetQueued = true → (t.chan ch).forcing = true ∧ t.flag (R.CH_STATUS_RST_BUSY ch) = true) ∧
      RegsSame (inChan ch) s t ∧ MemSame s t) ∧
    (∀ (ch : Fin 1024) (s : State), s.mode ch = 0 → ∃ t, exec (.gateOpened ch) s = .next t ∧
      t.flag (R.CH_STATUS_GATE ch) = false ∧ t.flag (R.CH_STATUS_SAFE ch) = true ∧ RegsSame (inChan ch) s t ∧ MemSame s t) ∧
    (∀ (ch : Fin 1024) (volt : Int) (s : State), (s.chan ch).forcing = true → ∃ t, exec (.forcedResetEnd (.chan ch) volt) s = .next t ∧
      t.flag (R.CH_STATUS_RST_BUSY ch) = false ∧ t.flag (R.CH_STATUS_KNOWN_HI ch) = !(s.chan ch).clearDeferred ∧
      t.flag (R.CH_STATUS_KNOWN_LO ch) = !(s.chan ch).clearDeferred ∧
      (∀ b, sideOfVt (s.threshold ch 3) volt = some b → (t.chan ch).hiAbove = b) ∧
      (∀ b, sideOfVt (s.threshold ch 4) volt = some b → (t.chan ch).loBelow = !b) ∧ RegsSame (inChan ch) s t ∧ MemSame s t) ∧
    (∀ (n : Fin 64) (volt : Int) (s : State), (s.snt n).forcing = true → ∃ t, exec (.forcedResetEnd (.snt n) volt) s = .next t ∧
      (t.snt n).forcing = false ∧ (t.snt n).knownHi = !(s.snt n).clearDeferred ∧
      (∀ a b, sideOfVt (s.sntCodes n).1 volt = some a → sideOfVt (s.sntCodes n).2 volt = some b → (t.snt n).outside = (a || !b)) ∧ MemSame s t)

/-- Comparators become KNOWN on the side they read, and their checks and overstress react. COMPARATOR_KNOWN with the pin outside the band of a
comparator that is on and not held in reset sets its KNOWN flag and its side; inside the band it does nothing. A check that does not fit its slot
does nothing; one that passes, with no failure held by an INJECT, makes the next due 1 ms behind its slot and changes no register; one that fails,
with its fault record possible and the tile in a step, sets CHK_FAIL, takes every compare of the channel as UNKNOWN, and triggers SF4; CHK_LATE of a
tile that has been RUNNING for 10 ms without a check sets CHK_LATE and triggers SF4. PIN_OVERSTRESS of a channel that is not OFF, under the same
conditions, sets OVER_V or OVER_I, takes driver and load off, and triggers SF1. (06_pin_electronics.md R152, 06_pin_electronics.md R155,
15_safety_faults.md R363, 15_safety_faults.md R366) -/
def Obligations.Comparators : Prop :=
  (∀ (ch : Fin 1024) (low above : Bool) (volt : Int) (s : State), s.cmpOn ch = true → (s.chan ch).forcing = false →
      outsideBand (s.threshold ch (if low then 4 else 3)) (s.fget (R.CH_MODE_HYST ch)) volt = some above →
      ∃ t, exec (.comparatorKnown (.chan ch) low volt) s = .next t ∧
        (low = true → t.flag (R.CH_STATUS_KNOWN_LO ch) = true ∧ (t.chan ch).loBelow = !above ∧
          t.flag (R.CH_STATUS_KNOWN_HI ch) = s.flag (R.CH_STATUS_KNOWN_HI ch)) ∧
        (low = false → t.flag (R.CH_STATUS_KNOWN_HI ch) = true ∧ (t.chan ch).hiAbove = above ∧
          t.flag (R.CH_STATUS_KNOWN_LO ch) = s.flag (R.CH_STATUS_KNOWN_LO ch)) ∧
        RegsSame (inChan ch) s t ∧ MemSame s t) ∧
    (∀ (ch : Fin 1024) (low : Bool) (volt : Int) (s : State),
      outsideBand (s.threshold ch (if low then 4 else 3)) (s.fget (R.CH_MODE_HYST ch)) volt = none →
      exec (.comparatorKnown (.chan ch) low volt) s = .next s) ∧
    (∀ (n : Fin 64) (low above : Bool) (volt : Int) (s : State), s.flag (R.SNT_CFG_EN n) = true → (s.snt n).forcing = false →
      outsideBand (if low then (s.sntCodes n).2 else (s.sntCodes n).1) (s.fget (R.SNT_CFG_HYST n)) volt = some above →
      ∃ t, exec (.comparatorKnown (.snt n) low volt) s = .next t ∧ (low = true → (t.snt n).knownLo = true ∧ (t.snt n).loBelow = !above) ∧
        (low = false → (t.snt n).knownHi = true ∧ (t.snt n).hiAbove = above) ∧ MemSame s t) ∧
    (∀ (ch : Fin 1024) (ok : Bool) (start : Nat) (s : State), s.checkSlot ch (start * unitFs) = false →
      exec (.cmpSelfCheck ⟨ch, start⟩ ok) s = .next s) ∧
    (∀ (ch : Fin 1024) (start : Nat) (s : State), s.checkSlot ch (start * unitFs) = true → (0x60000, 5, ch.val) ∉ s.injHeld →
      ∃ t, exec (.cmpSelfCheck ⟨ch, start⟩ true) s = .next t ∧ (t.chan ch).due = start * unitFs + slotTime + dueTime ∧
        (t.chan ch).ran = 0 ∧ (t.chan ch).chkBad = (s.chan ch).chkBad ∧ RegsSame (fun _ => false) s t ∧ MemSame s t) ∧
    (∀ (ch : Fin 1024) (start : Nat) (s : State), s.checkSlot ch (start * unitFs) = true → Mild s 0x60000 5 →
      inStep (s.stepState (ch / 16)) = true → ∃ t, exec (.cmpSelfCheck ⟨ch, start⟩ false) s = .next t ∧ t.flag (R.CH_FAULT_CHK_FAIL ch) = true ∧
          (t.chan ch).chkBad = true ∧
        (t.rget R.SF_STATUS).getLsbD 3 = true ∧ (t.rget (R.FLT_REAL 0x60000)).getLsbD 5 = true ∧ MemSame s t) ∧
    (∀ (ch : Fin 1024) (i : Nat) (s : State), s.cmpOn ch = true → Mild s 0x60000 5 → s.stepState (ch / 16) = stRunning →
      lateTime ≤ s.checkAge ch (s.tileTime (ch / 16) (i * unitFs)) → ∃ t, exec (.chkLate ⟨ch, i⟩) s = .next t ∧
          t.flag (R.CH_FAULT_CHK_LATE ch) = true ∧ (t.rget R.SF_STATUS).getLsbD 3 = true ∧
        (t.rget (R.FLT_REAL 0x60000)).getLsbD 5 = true ∧ MemSame s t) ∧
    (∀ (ch : Fin 1024) (v : Bool) (s : State), s.mode ch ≠ 0 → Mild s 0x60000 (if v then 1 else 0) → inStep (s.stepState (ch / 16)) = true →
      ∃ t, exec (.pinOverstress ch v) s = .next t ∧ t.flag (if v then R.CH_FAULT_OVER_V ch else R.CH_FAULT_OVER_I ch) = true ∧
        (t.chan ch).safe = true ∧ (t.chan ch).enable = .offLoadOff ∧ 1 ≤ (t.chan ch).retest ∧ (t.rget R.SF_STATUS).getLsbD 0 = true ∧ MemSame s t)

/-- Level codes, their holds and settling, and the clearing of all levels. A write to LVL_k that no check refuses stores the code and answers OK,
and unless LVL_CLR_N is asserted applies it and sets LVL_BUSY, the output staying where it was while the deglitch hold of a change of bits 15 to 10
lasts. DEGLITCH_HOLD_END ends the hold of a level, whose output then stands at its code; LEVEL_SETTLED ends its settling, with no STEP_ARM settling
touches the channel's registers only, and LVL_BUSY shows whether any level of the channel still settles. LVL_CLR_ASSERT with no tile in a step
drives every converter of a powered channel to its safe code and shows ACTIVE and SEEN; LVL_CLR_DEASSERT brings every one back to its code.
(06_pin_electronics.md R142, 06_pin_electronics.md R143, 06_pin_electronics.md R145) -/
def Obligations.Levels : Prop :=
  (∀ (ch : Fin 1024) (k : Fin 11) (code : BitVec 16) (s : State), s.unitRule (R.LVL ch k) = none →
      ∃ t, exec (.lvlWrite ch k code) s = .next t ∧ t.answer = St.ok.toNat ∧ t.fget (R.LVL_CODE ch k) = code.toNat ∧
        (s.lvlClr = false → Store.get (fun _ => 0) (t.chan ch).applied k = code ∧ t.flag (R.CH_STATUS_LVL_BUSY ch) = true) ∧
        (s.lvlClr = false → code.toNat / 1024 ≠ (Store.get (fun _ => 0) (s.chan ch).applied k : BitVec 16).toNat / 1024 →
            (t.chan ch).output k = (s.chan ch).output k) ∧
        (s.lvlClr = true → t.chan ch = s.chan ch) ∧ RegsSame (inChan ch) s t ∧ MemSame s t) ∧
    (∀ (ch : Fin 1024) (k : Fin 11) (s : State), ∃ t, exec (.deglitchHoldEnd ch k) s = .next t ∧
        (t.chan ch).output k = Store.get (fun _ => 0) (s.chan ch).applied k ∧
      (∀ j, j ≠ k.val → (t.chan ch).output j = (s.chan ch).output j) ∧ RegsSame (fun _ => false) s t ∧ MemSame s t) ∧
    (∀ (ch : Fin 1024) (k : Fin 11) (s : State), ∃ t, exec (.levelSettled ch k) s = .next t ∧ k.val ∉ (t.chan ch).settling ∧
      (t.flag (R.CH_STATUS_LVL_BUSY ch) = true ↔ ∃ j ∈ (s.chan ch).settling, j ≠ k.val) ∧
      ((∀ x ∈ s.splits, x.opcode = 0x30 → x.stage ≠ 1) → RegsSame (inChan ch) s t) ∧ MemSame s t) ∧
    (∀ (s : State), s.lvlClr = false → s.holdsStep = false → ∃ t, exec .lvlClrAssert s = .next t ∧ t.lvlClr = true ∧
      t.flag R.LVL_CLR_STATUS_ACTIVE = true ∧ t.flag R.LVL_CLR_STATUS_SEEN = true ∧ MemSame s t ∧
      ∀ ch k, ch < 1024 → k < 11 → s.power (ch / 16) ≠ 3 →
        Store.get (fun _ => 0) (t.chan ch).applied k = (s.rget (R.LVL_SAFE ch k)).setWidth 16) ∧
    (∀ (s : State), s.lvlClr = true → ∃ t, exec .lvlClrDeassert s = .next t ∧ t.lvlClr = false ∧
      t.flag R.LVL_CLR_STATUS_ACTIVE = false ∧ MemSame s t ∧
      ∀ ch k, ch < 1024 → k < 11 → s.power (ch / 16) ≠ 3 →
        Store.get (fun _ => 0) (t.chan ch).applied k = (s.rget (R.LVL ch k)).setWidth 16)

/-- PMU_CFG and the sentinels. A write to PMU_CFG that no check refuses stores its bits and answers OK; in PMU mode a change of range or force sets
RANGING, which RANGING_END clears. A write to SNT_CFG that no check refuses stores its bits, and enabling begins a forced reset. A violation of an
enabled, KNOWN sentinel with no tile in a step and its fault record possible sets its SNT_VIOL bit, drops the outputs it maps and triggers SF5. A
sentinel's window crossing sets where its input lies, by its comparators with their hysteresis. A failed self-check fences the sentinel; one that
passes changes nothing. (06_pin_electronics.md R157, 06_pin_electronics.md R159, 06_pin_electronics.md R162, 06_pin_electronics.md R163,
15_safety_faults.md R367) -/
def Obligations.PmuAndSentinels : Prop :=
  (∀ (ch : Fin 1024) (v : Word) (m : BitVec 16) (s : State), s.pmuCfgRule ch v = none → ∃ t, exec (.pmuCfgWrite ch v m) s = .next t ∧
      t.answer = St.ok.toNat ∧ t.rget (R.PMU_CFG ch) = v &&& 0x1FF7 ∧ (t.chan ch).pmuN = 0 ∧
      (s.mode ch = 2 → ¬(s.fget (R.PMU_CFG_RANGE ch) = field v 2 0 ∧ s.fget (R.PMU_CFG_FORCE ch) = field v 5 4) →
        t.flag (R.CH_STATUS_RANGING ch) = true) ∧ RegsSame (inChan ch) s t ∧ MemSame s t) ∧
    (∀ (ch : Fin 1024) (s : State), ∃ t, exec (.rangingEnd ch) s = .next t ∧ t.flag (R.CH_STATUS_RANGING ch) = false ∧
      RegsSame (fun a => a == R.CH_STATUS ch) s t ∧ MemSame s t) ∧
    (∀ (n : Fin 64) (v : Word) (s : State), s.sntCfgRule n v = none → ∃ t, exec (.sntCfgWrite n v) s = .next t ∧
      t.answer = St.ok.toNat ∧ t.rget (R.SNT_CFG n) = v &&& 0xFF1 ∧
      (s.flag (R.SNT_CFG_EN n) = false → v.getLsbD 0 = true → (t.snt n).forcing = true ∧ (t.snt n).knownHi = false) ∧ MemSame s t) ∧
    (∀ (n : Fin 64) (s : State), s.flag (R.SNT_CFG_EN n) = true → (s.snt n).knownHi = true → (s.snt n).knownLo = true →
      (s.snt n).outside = true → (s.snt n).viol = false → s.holdsStep = false → Mild s 0x60000 7 →
      ∃ t, exec (.sentinelViolation n) s = .next t ∧ t.flag (bitFld (R.SNT_VIOL 0) n) = true ∧ (t.snt n).viol = true ∧
        (∀ k < 64, (s.sntMap n).testBit k = true → (t.pair (R.DSE_DROP 0) (R.DSE_DROP 1)).testBit k = true) ∧
        (t.rget R.SF_STATUS).getLsbD 4 = true ∧ MemSame s t) ∧
    (∀ (n : Fin 64) (volt : Int) (s : State),
      let f := s.fget (R.SNT_CFG_HYST n)
      let out := sideAt (s.sntCodes n).1 f volt (s.snt n).hiAbove || !sideAt (s.sntCodes n).2 f volt (!(s.snt n).loBelow)
      ∃ t, exec (.sentinelWindowCrossing n volt) s = .next t ∧ (t.snt n).outside = out ∧
        ((t.snt n).viol = true ↔ (s.snt n).viol = true ∧ out = true) ∧ MemSame s t) ∧
    (∀ (n : Fin 64) (s : State), (3, n.val) ∉ s.unfenceReq → exec (.sentinelSelfCheck n true) s = .next s) ∧
    (∀ (n : Fin 64) (s : State), (3, n.val) ∉ s.unfenceReq → s.sntFenced n = false → s.fenceReq = [] → Mild s 0x60000 8 →
      ∃ t, exec (.sentinelSelfCheck n false) s = .next t ∧ t.sntFenced n = true ∧ MemSame s t)

/-- VEC, RPT and HOLD put their cycles into the issue queue. In a tile that executes instructions, in time for the next cycle, a VEC or RPT (from
the ring only where the tile has one, and with room among the locked segments) and a HOLD with COUNT not 0 put COUNT cycles of their timing set,
format and slot behind the queued ones, which do not change, with the markers and the period change that wait, and execution continues at the next
instruction once the issue queue holds them all, until when PC names the instruction and none executes; with COUNT 0 none of them issues a cycle and
execution continues at the next instruction at once. Memory, every channel and every register outside the tile's own, the sessions' and the event
counters are unchanged. In a tile that does not execute instructions all fifteen instructions do nothing. (03_sequencer.md R59, 03_sequencer.md R60,
03_sequencer.md R65) -/
def Obligations.CyclesQueue : Prop :=
  (∀ (u : Fin 64) (i : SeqInstr) (s : State) (k : RunKind) (c : Instr), (k, c) ∈ [(.vec, .vec u i), (.rpt, .rpt u i), (.hold, .hold u i)] →
      s.fetching u = true → OnTime s u → (k ≠ .hold → s.lockRoom u i = true) → i.count ≠ 0 → (k ≠ .hold → i.strm = true → s.ringLen u ≠ 0) →
      ∃ t r, exec c s = .next t ∧ (t.tile u).queue = (s.tile u).queue ++ [r] ∧ r.kind = k ∧ r.left = i.count.toNat ∧ r.tset = i.tset.toNat ∧
        r.cfmt = i.cfmt ∧ r.slot = i.vword.toNat ∧ r.seg = (if i.strm then (s.tile u).execCur else i.vseg.toNat) ∧
        r.marks = (s.tile u).pendMarks ++ SeqInstrMarks i ∧ r.per = (s.tile u).pendPer ∧ r.apg = (s.tile u).ex ∧
        (t.tile u).ex = s.apgOp u (s.tile u).ex i.apgop ∧ (t.tile u).pendPer = none ∧ (t.tile u).pendMarks = [] ∧
        t.pc u = (if (s.tile u).queued + i.count.toNat ≤ 32 then (s.pc u + 1) % 16384 else s.pc u) ∧
        t.fetching u = decide ((s.tile u).queued + i.count.toNat ≤ 32) ∧ MemSame s t ∧ (∀ ch, t.chan ch = s.chan ch) ∧
        RegsSame (fun a => inTile u a || counting a || sessReg a) s t) ∧
    (∀ (u : Fin 64) (i : SeqInstr) (s : State) (k : RunKind) (c : Instr), (k, c) ∈ [(.vec, .vec u i), (.rpt, .rpt u i), (.hold, .hold u i)] →
      s.fetching u = true → OnTime s u → (k ≠ .hold → s.lockRoom u i = true) → i.count = 0 → (k ≠ .hold → i.strm = true → s.ringLen u ≠ 0) →
      ∃ t, exec c s = .next t ∧ t.tile u = { s.tile u with execAt := s.execClock u } ∧ t.pc u = (s.pc u + 1) % 16384 ∧ MemSame s t ∧
        RegsSame (fun a => a == R.SEQ_STATUS u) s t) ∧
    (∀ (u : Fin 64) (i : SeqInstr) (s : State) (c : Instr), c ∈ [.vec u i, .rpt u i, .hold u i, .nop u i, .loop u i, .lend u i, .call u i, .ret u i,
      .jmp u i, .br u i, .segsw u i, .mark u i, .period u i, .wait u i, .endStep u i] → s.fetching u = false → exec c s = .next s)

/-- Loops, calls, returns, jumps and branches of the sequencer. In a tile that executes instructions, in time for the next cycle: LOOP loads its
counter with COUNT and continues at the next instruction, at TARGET if COUNT is 0; LEND at 0 continues at the next instruction, otherwise it lowers
its counter by one and continues at TARGET until the counter reaches 0; CALL with room pushes the next address and continues at TARGET; with eight
entries it stops the step behind the queued cycles with HW_FAULT and cause 7; RET pops the address it continues at, and on an empty stack stops the
step with cause 8; JMP continues at TARGET; BR ALWAYS continues at TARGET, or with NEG at the next instruction, and any other BR decides at the end
of the queued cycles, by itself where none is queued and the last one has ended, else by CYCLE_BEGIN, and continues at TARGET exactly if its
condition is seen there; NOP continues at the next instruction. Each of them that goes on applies its APG operation, issues no cycle, and changes no
byte of memory, no channel and no register outside the tile's own, the sessions' and the event counters. (03_sequencer.md R66, 03_sequencer.md R68,
03_sequencer.md R69, 03_sequencer.md R71) -/
def Obligations.ControlFlow : Prop :=
  (∀ (u : Fin 64) (i : SeqInstr) (s : State), s.fetching u = true → OnTime s u →
    let next := (s.pc u + 1) % 16384
    let goes (t : State) (a : Nat) : Prop := t.pc u = a ∧ (t.tile u).queue.length = (s.tile u).queue.length ∧
      (t.tile u).ex = s.apgOp u (s.tile u).ex i.apgop ∧ (t.tile u).pendMarks = (s.tile u).pendMarks ++ SeqInstrMarks i ∧
      MemSame s t ∧ (∀ ch, t.chan ch = s.chan ch) ∧ RegsSame (fun a => inTile u a || counting a || sessReg a) s t
    (∃ t, exec (.nop u i) s = .next t ∧ goes t next) ∧
    (∃ t, exec (.loop u i) s = .next t ∧ goes t (if i.count = 0 then i.target.toNat else next) ∧ t.rget (R.LOOP u i.lcnt.toNat) = i.count) ∧
    (∃ t, exec (.lend u i) s = .next t ∧ goes t (if 2 ≤ (s.rget (R.LOOP u i.lcnt.toNat)).toNat then i.target.toNat else next) ∧
      (t.rget (R.LOOP u i.lcnt.toNat)).toNat = (s.rget (R.LOOP u i.lcnt.toNat)).toNat - 1) ∧
    (s.stackSp u < 8 → ∃ t, exec (.call u i) s = .next t ∧ goes t i.target.toNat ∧ t.stackSp u = s.stackSp u + 1 ∧
      t.fget (R.STACK_ADDR u (s.stackSp u)) = next) ∧
    (8 ≤ s.stackSp u → (s.tile u).queue ≠ [] → ∃ t, exec (.call u i) s = .next t ∧ (t.tile u).tail = .stopping St.hwFault 7) ∧
    (∀ n, s.stackSp u = n + 1 → ∃ t, exec (.ret u i) s = .next t ∧ goes t (s.fget (R.STACK_ADDR u n)) ∧ t.stackSp u = n) ∧
    (s.stackSp u = 0 → (s.tile u).queue ≠ [] → ∃ t, exec (.ret u i) s = .next t ∧ (t.tile u).tail = .stopping St.hwFault 8) ∧
    (∃ t, exec (.jmp u i) s = .next t ∧ goes t i.target.toNat) ∧
    (i.cond = 0 → ∃ t, exec (.br u i) s = .next t ∧ goes t (if i.neg then next else i.target.toNat)) ∧
    (i.cond ≠ 0 → (s.tile u).queue ≠ [] ∨ s.stepState u = stPending ∨ s.tileTime u s.now < (s.tile u).endE →
      ∃ t, exec (.br u i) s = .next t ∧ (t.tile u).tail = .branching i ∧ t.fetching u = false ∧ RegsSame (fun _ => false) s t ∧ MemSame s t) ∧
    (i.cond ≠ 0 → (s.tile u).queue = [] → s.stepState u = stRunning → (s.tile u).endE ≤ s.tileTime u s.now →
        s.unseen u ((s.tile u).endE - condDelay) = false →
      ∃ t, exec (.br u i) s = .next t ∧
        goes t (if s.condHolds u (SeqInstrCond i) ((s.tile u).endE - condDelay) then i.target.toNat else next))) ∧
    (∀ (u : Fin 64) (i : SeqInstr) (s : State), s.stepState u = stRunning → (s.tile u).stall = none → (s.tile u).closing = false →
        (s.tile u).queue = [] →
      (s.tile u).tail = .branching i → s.unseen u ((s.tile u).endE - condDelay) = false →
      ∃ t, exec (.cycleBegin u) s = .next t ∧ (t.tile u).tail = .none ∧
        t.pc u = (if s.condHolds u (SeqInstrCond i) ((s.tile u).endE - condDelay) then i.target.toNat else (s.pc u + 1) % 16384))

/-- MARK, PERIOD, SEGSW, WAIT and END of the sequencer. In a tile that executes instructions, in time for the next cycle: MARK adds its marker and
PERIOD its period to what the next cycle takes; SEGSW with a ring moves execution to the next ring segment, and the ring advances behind the queued
cycles, at once if there are none; WAIT and END stand behind the queued cycles, or behind a cycle that runs, and nothing is fetched behind them; at
the end of the last cycle, with the outcome of every compare and capture, no action of a step boundary due and another tile of the group still
running, CYCLE_BEGIN ends the step behind an END that emits no marker: the tile is ENDED with OK and cause 1. WAIT_RELEASE of a RUNNING tile, at a
tile clock by which the condition has held or the limit of COUNT tile clocks has come, with the outcome of every compare that it sees, ends the wait
at the first tile clock at which the condition held, and execution continues at the next instruction; where it has not held, at the limit, and
execution continues at TARGET. (03_sequencer.md R67, 03_sequencer.md R65, 03_sequencer.md R72, 01_architecture.md R24, 04_pattern_store.md R99) -/
def Obligations.MarksPeriodsWaits : Prop :=
  (∀ (u : Fin 64) (i : SeqInstr) (s : State), s.fetching u = true → OnTime s u →
      let next := (s.pc u + 1) % 16384
      (∃ t, exec (.mark u i) s = .next t ∧ t.pc u = next ∧ (t.tile u).pendMarks = (s.tile u).pendMarks ++ [i.mkid] ∧
        RegsSame (fun a => a == R.SEQ_STATUS u) s t ∧ MemSame s t) ∧
      (∃ t p, exec (.period u i) s = .next t ∧ t.pc u = next ∧ (t.tile u).pendPer = some p ∧ p.pidx = i.pidx.toNat ∧
        RegsSame (fun a => a == R.SEQ_STATUS u) s t ∧ MemSame s t) ∧
      (s.ringLen u ≠ 0 → ∃ t, exec (.segsw u i) s = .next t ∧ t.pc u = next ∧ (t.tile u).execCur = s.ringAhead u (s.tile u).execCur 1 ∧
        (t.tile u).boundary = some (s.ringAhead u (s.tile u).execCur 1, i.ssafe, true) ∧
        t.ringCur u = if (s.tile u).queue = [] then s.ringNext u (s.ringCur u) else s.ringCur u) ∧
      ((s.tile u).queue ≠ [] ∨ s.stepState u = stPending ∨ s.tileTime u s.now < (s.tile u).endE →
        (∃ t, exec (.wait u i) s = .next t ∧ MemSame s t ∧ t.fetching u = false ∧ (t.tile u).tail =
          .waiting { cond := SeqInstrCond i, count := i.count.toNat, target := i.target.toNat, marks := SeqInstrMarks i }) ∧
        (∃ t, exec (.endStep u i) s = .next t ∧ (t.tile u).tail = .ending (SeqInstrMarks i) ∧ t.fetching u = false ∧ RegsSame (fun _ => false) s t ∧
          MemSame s t))) ∧
    (∀ (u v : Fin 64) (s : State), s.stepState u = stRunning → (s.tile u).stall = none → (s.tile u).queue = [] → (s.tile u).tail = .ending [] →
      s.unresolved u = false → (s.tile u).group ≠ 0 → (s.tile v).group = (s.tile u).group → s.stepState v = stRunning → u ≠ v →
      s.soft = [] → s.fenceReq = [] → s.unfenceReq = [] → s.coreDue = [] →
      ∃ t, exec (.cycleBegin u) s = .next t ∧ t.stepState u = stEnded ∧ (t.tile u).endStatus = St.ok ∧ t.fget (R.SEQ_STATUS_CAUSE u) = 1) ∧
    (∀ (u : Fin 64) (k : Nat) (s : State) (w : WaitRec) (d : Int), (s.tile u).tail = .waiting w → w.d = some d → s.stepState u = stRunning →
      let lim := d + w.count * tileClock
      let here := tileEdge d + k * tileClock
      let late : Prop := w.count ≠ 0 ∧ lim ≤ here
      let stop := if late then lim else here
      let hold := s.firstHold u w.cond (tileEdge d) stop
      (hold.isSome = true ∨ late) → s.unseen u (stop - condDelay) = false →
      ∃ t, exec (.waitRelease u k) s = .next t ∧ (t.tile u).tail = .none ∧ (t.tile u).endE = hold.getD lim ∧ t.flag (R.SEQ_STATUS_WAITING u) = false ∧
        (∀ i, hold = some i → s.condHolds u w.cond (i - condDelay) = true ∧ tileEdge d ≤ i ∧ i ≤ stop) ∧
        t.pc u = (if hold.isSome then (s.pc u + 1) % 16384 else w.target % 16384) ∧ MemSame s t)

/-- A cycle begins on the grid behind the last one, or the tile stalls. In a RUNNING tile that is not stalled and has issued no last cycle yet,
whose next queued cycle carries no period change and needs no new segment, a consumed one again among them, or one that is ready, CYCLE_BEGIN issues
that cycle: it begins at the first grid point at or after the end of the last one, lasts one period, and CYCLES rises by one. Where the segment is
not ready and the boundary is stall-safe the tile stalls: STALLED is set, no cycle is issued, and with no strobe or stop outstanding no byte of
memory changes. In a tile that is not RUNNING or is stalled nothing happens. (02_epoch_grid.md R51, 03_sequencer.md R59, 04_pattern_store.md R110,
04_pattern_store.md R111) -/
def Obligations.CyclesBegin : Prop :=
  (∀ (u : Fin 64) (s : State) (r : Run) (rest : List Run), s.stepState u = stRunning → (s.tile u).stall = none → (s.tile u).closing = false →
      (s.tile u).queue = r :: rest → (r.kind = .hold ∨ ((s.tile u).lastSeg = some r.seg ∧ (r.strm = true → r.seg ∉ (s.tile u).consumed)) ∨
        s.segReady u r.seg (s.tile u).endE = true) → r.per = none → s.cycles u + 1 < 2 ^ 64 →
      let c := gridFrom (s.tile u).period (s.tile u).endE
      ∃ t, exec (.cycleBegin u) s = .next t ∧ t.cycles u = s.cycles u + 1 ∧ (t.tile u).curC = c ∧
        (t.tile u).endE = c + (s.tile u).period ∧ (t.tile u).lastE = c + (s.tile u).period) ∧
    (∀ (u : Fin 64) (s : State) (r : Run) (rest : List Run), s.stepState u = stRunning → (s.tile u).stall = none → (s.tile u).closing = false →
      (s.tile u).queue = r :: rest → r.kind ≠ .hold → ((s.tile u).lastSeg ≠ some r.seg ∨ (r.strm = true ∧ r.seg ∈ (s.tile u).consumed)) →
          s.segReady u r.seg (s.tile u).endE = false → (if r.started then r.ssafe else r.entry) = true →
      ∃ t, exec (.cycleBegin u) s = .next t ∧ t.flag (R.SEQ_STATUS_STALLED u) = true ∧ (t.tile u).stall = some ((s.tile u).endE, r.seg) ∧
        (t.tile u).queue = r :: rest ∧ t.cycles u = s.cycles u ∧
        ((s.tile u).stops = [] → (∀ ch ∈ chansOf u, (s.chan ch).strobes = []) → MemSame s t)) ∧
    (∀ (u : Fin 64) (s : State), s.stepState u ≠ stRunning ∨ (s.tile u).stall.isSome = true → exec (.cycleBegin u) s = .next s)

/-- A stall resumes behind the commit or ends the step at its limit. STALL_RESUME of a stalled tile whose segment is ready at the first grid point
at or after the boundary, 50 ns or more behind its commit, before any limit, ends the stall there: STALLED clears, no byte of memory changes,
STALL_COUNT rises by one, STALL_SUM by the stall's length in units of 1/256 ns and STALL_MAX takes that length if it is longer (a part of a unit is
dropped: log entry 70). With no frost snapshot held, only registers of the tile and the event counters change. STALL_LIMIT_EXPIRY of a stalled tile
that reaches its limit by the next REFCLK edge, while another tile of its group still runs and no repair, fence or retest waits, ends its step: the
tile is ENDED with STARVED and cause 2. (04_pattern_store.md R111, 04_pattern_store.md R112) -/
def Obligations.StallsEnd : Prop :=
  (∀ (u : Fin 64) (s : State) (e : Int) (seg : Nat), (s.tile u).stall = some (e, seg) →
      let i := gridFrom (s.tile u).period (max e (Store.get (fun _ => 0) (s.tile u).tc seg + readyDelay))
      s.segReady u seg i = true → (s.stallLimit u = 0 ∨ i < e + s.stallLimit u) → s.fget (R.STALL_COUNT_COUNT u) < 2 ^ 32 - 1 →
      ∃ t, exec (.stallResume u) s = .next t ∧ (t.tile u).stall = none ∧ (t.tile u).endE = i ∧ t.flag (R.SEQ_STATUS_STALLED u) = false ∧
        t.fget (R.STALL_COUNT_COUNT u) = s.fget (R.STALL_COUNT_COUNT u) + 1 ∧
        t.pair (R.STALL_SUM_LO u) (R.STALL_SUM_HI u) = (s.pair (R.STALL_SUM_LO u) (R.STALL_SUM_HI u) + ((i - e) / unitFs).toNat) % 2 ^ 64 ∧
        t.fget (R.STALL_MAX_MAX u) = max (s.fget (R.STALL_MAX_MAX u)) (min ((i - e) / unitFs).toNat (2 ^ 32 - 1)) ∧ MemSame s t ∧
        (s.flag R.FROST_STATUS_VALID = false → RegsSame (fun a => inTile u a || counting a) s t)) ∧
    (∀ (u v : Fin 64) (s : State), u ≠ v → (∃ e seg, (s.tile u).stall = some (e, seg) ∧ e + s.stallLimit u < s.tileTime u s.now + 2560 * unitFs) →
      s.stallLimit u ≠ 0 → s.stepState u = stRunning →
      (s.tile u).group ≠ 0 → (s.tile v).group = (s.tile u).group → s.stepState v = stRunning →
      s.soft = [] → s.fenceReq = [] → s.unfenceReq = [] → s.coreDue = [] →
      ∃ t, exec (.stallLimitExpiry u) s = .next t ∧ t.stepState u = stEnded ∧ (t.tile u).endStatus = St.starved ∧
        t.fget (R.SEQ_STATUS_CAUSE u) = 2)

/-- A strobe meets the comparator outputs, a stop is accepted or falls into the dead time. STROBE resolves the oldest compare or capture of the
channel, in a tile whose last cycle has not yet been issued, if no later cycle can drop it: it leaves the list and the comparator outputs are those
of its last sample, by the voltages on the pin; a compare with a failing sample contributes to the fail flag at its instant. A channel without one,
or with one that may still be dropped, is left alone. TDC_STOP of a KNOWN comparator in an open window of a RUNNING, enabled channel, with no stop
waiting and no window still to open or to be dropped at its instant, is counted in TDC_DEAD inside the dead time; outside it, with its class
enabled, it is accepted at the instant that the edge, the bin-width table in force, the compare latency in force and CH_DSK_USER.CMP give, and
counted in TDC_ACCEPT. (05_timing.md R125, 06_pin_electronics.md R153, 03_sequencer.md R70, 07_time_measurement.md R172, 07_time_measurement.md
R175) -/
def Obligations.StrobesAndStops : Prop :=
  (∀ (ch : Fin 1024) (volts : List Int) (s : State) (x : Strobe),
      (s.chan ch).strobes.find? (fun (y : Strobe) => y.expect != .profile) = some x → s.strobeFirm ch x = true → volts ≠ [] →
          (s.tile (ch / 16)).closing = false →
      let l := s.samples ch ⟨(s.chan ch).hiAbove, (s.chan ch).loBelow⟩ volts
      ∃ t, exec (.strobe ch volts) s = .next t ∧ (t.chan ch).strobes = (s.chan ch).strobes.erase x ∧
        (t.chan ch).hiAbove = (l.getLastD ⟨false, false⟩).hiAbove ∧ (t.chan ch).loBelow = (l.getLastD ⟨false, false⟩).loBelow ∧
        (x.expect ≠ .capture → (∃ y ∈ l, s.outcome ch x.expect y = 1) → (CondKey.failAny, x.last) ∈ (t.tile (ch / 16)).conds)) ∧
    (∀ (ch : Fin 1024) (volts : List Int) (s : State), (∀ x, (s.chan ch).strobes.find? (fun (y : Strobe) => y.expect != .profile) = some x →
        s.strobeFirm ch x = false) →
      exec (.strobe ch volts) s = .next s) ∧
    (∀ (ch : Fin 1024) (f : Bool) (edge : Nat) (code : Fin 256) (s : State),
      let i : Int := (s.stopInstant ch edge code + (s.tile (ch / 16)).wraps * (epochLength / stopUnit)) * stopUnit
      s.stepState (ch / 16) = stRunning → s.mode ch ≠ 0 → s.flag (R.TDC_CFG_EN ch) = true →
      s.flag (if f then R.CH_STATUS_KNOWN_LO ch else R.CH_STATUS_KNOWN_HI ch) = true → (∃ w ∈ (s.chan ch).wins, w.opened = true ∧ w.opens ≤ i ∧
          i < w.closes) →
      (∀ w ∈ (s.chan ch).wins, w.opened = false → i < w.opens) → s.stopFirm ch i = true → (s.tile (ch / 16)).stops = [] →
      ((∃ l, (s.chan ch).lastStop = some l ∧ i < l + deadTime) → s.fget (R.TDC_DEAD_COUNT ch) < 2 ^ 32 - 1 →
        ∃ t, exec (.tdcStop ch f ⟨edge, code⟩) s = .next t ∧ t.fget (R.TDC_DEAD_COUNT ch) = s.fget (R.TDC_DEAD_COUNT ch) + 1 ∧
          (t.chan ch).lastStop = (s.chan ch).lastStop ∧ RegsSame (inChan ch) s t ∧ MemSame s t) ∧
      ((∀ l, (s.chan ch).lastStop = some l → l + deadTime ≤ i) → (s.fget (R.TDC_CFG_CLS ch)).testBit f.toNat = true →
          s.fget (R.TDC_ACCEPT_COUNT ch) < 2 ^ 32 - 1 →
        ∃ t, exec (.tdcStop ch f ⟨edge, code⟩) s = .next t ∧ t.fget (R.TDC_ACCEPT_COUNT ch) = s.fget (R.TDC_ACCEPT_COUNT ch) + 1 ∧
          (t.chan ch).lastStop = some i))

/-- Training, retrain and the lanes of a link. Where the moraine has room and no fault action resets: TRAINING_SUCCESS of a link in TRAINING with a
good lane brings it to ACTIVE with the width of its good lanes, 384 credits of each class, no frame expected but sequence number 0, and UP;
TRAINING_TIMEOUT, 20 ms later or more, brings it to DOWN, counted, with TRAINFAIL and one more failed attempt; DOWN_WAIT_EXPIRY behind the wait of
R298, 10 ms behind the first failure and twice as long behind each further one up to the seventh, 1 s behind more, or on a beacon, begins TRAINING.
RETRAIN_COMPLETE with a good lane and nothing to replay returns it to ACTIVE, where it reports its acknowledgement in a CLASS 0 frame;
RETRAIN_TIMEOUT, 50 us later or with no good lane, brings it to DOWN with one failed attempt. Blocks that keep block lock lose no lane; losing a
lane that an ACTIVE link uses, but not its last, fences the lane, sets LANELOSS and begins RETRAIN, which the link asks its partner for. In ACTIVE
and RETRAIN a good alignment marker changes no register, a BIP error counts in LANE_ERR, one bad marker is only remembered, and on an ACTIVE link
the second missing one in succession fences the lane. (12_serial_links.md R297, 12_serial_links.md R298, 12_serial_links.md R299, 12_serial_links.md
R288, 12_serial_links.md R287) -/
def Obligations.LinksTrain : Prop :=
  (∀ (l : Fin 12) (r : TrainReport) (s : State), s.linkState l = lkTraining → s.goodLanes l r ≠ [] → s.flag (R.LINK_CTRL_TEST l) = false →
      Mild s (linkBase l) 0 → ∃ t, exec (.trainingSuccess l r) s = .next t ∧ t.linkState l = lkActive ∧
        t.fget (R.LINK_STATUS_WIDTH l) = s.width l (s.goodLanes l r).length ∧ (∀ k, t.fget (creditFld l k) = 384) ∧
        (t.link l).txNext = 0 ∧ (t.link l).rxAck = 4095 ∧ t.flag (R.LINK_EVT_UP l) = true ∧ MemSame s t ∧
        RegsSame (fun a => inBlock (linkBase l) a || counting a || sessReg a || recordReg a) s t) ∧
    (∀ (l : Fin 12) (s : State), s.linkState l = lkTraining → s.linkWaited l 20000 = true → Mild s (linkBase l) 3 →
        s.fget (R.LINK_TRAINFAIL_COUNT l) < 2 ^ 32 - 1 →
      ∃ t, exec (.trainingTimeout l) s = .next t ∧ t.linkState l = lkDown ∧
          t.fget (R.LINK_TRAINFAIL_COUNT l) = s.fget (R.LINK_TRAINFAIL_COUNT l) + 1 ∧
        t.flag (R.LINK_EVT_TRAINFAIL l) = true ∧ (t.link l).fails = min 8 ((s.link l).fails + 1) ∧ t.fget (R.LINK_STATUS_WIDTH l) = 0 ∧ MemSame s t) ∧
    (∀ (l : Fin 12) (beacon : Bool) (s : State), s.linkState l = lkDown →
      beacon = true ∨ s.linkWaited l (match (s.link l).fails with | 0 | 1 => 10000 | 2 => 20000 | 3 => 40000 | 4 => 80000 | 5 => 160000 | 6 => 320000 | 7 => 640000 | _ => 1000000) = true →
      ∃ t, exec (.downWaitExpiry ⟨l, beacon⟩) s = .next t ∧ t.linkState l = lkTraining ∧ MemSame s t ∧
      RegsSame (inBlock (linkBase l)) s t) ∧
    (∀ (l : Fin 12) (beacon : Bool) (s : State), (s.linkState l ≠ lkDown → exec (.downWaitExpiry ⟨l, beacon⟩) s = .next s) ∧
      (beacon = false → s.linkWaited l (downWait (s.link l).fails) = false → exec (.downWaitExpiry ⟨l, beacon⟩) s = .next s) ∧
      (s.linkWaited l 20000 = false → exec (.trainingTimeout l) s = .next s) ∧
      (s.linkWaited l 50 = false → exec (.retrainTimeout l false) s = .next s)) ∧
    (∀ (l : Fin 12) (r : TrainReport) (s : State), s.linkState l = lkRetrain → s.goodLanes l r ≠ [] → s.flag (R.LINK_CTRL_TEST l) = false →
      (s.link l).outst = [] → ∃ t, exec (.retrainComplete l r) s = .next t ∧ t.linkState l = lkActive ∧
        t.fget (R.LINK_STATUS_WIDTH l) = s.width l (s.goodLanes l r).length ∧ MemSame s t ∧
        ∃ g, Wire.frame g ∈ (t.link l).wire.drop (s.link l).wire.length ∧ g.cls = 0 ∧ g.ack = BitVec.ofNat 12 (s.link l).rxAck) ∧
    (∀ (l : Fin 12) (b : Bool) (s : State), s.linkState l = lkRetrain → b = true ∨ s.linkWaited l 50 = true → Mild s (linkBase l) 1 →
      ∃ t, exec (.retrainTimeout l b) s = .next t ∧ t.linkState l = lkDown ∧ t.flag (R.LINK_EVT_DOWN l) = true ∧ (t.link l).fails = 1 ∧ MemSame s t) ∧
    (∀ (l : Fin 12) (j : Fin 8) (c : Fin 4) (blocks : List (BitVec 66)) (s : State),
      let had : LaneRx := Store.get (fun _ => {}) (s.link l).lanes j
      let locks := blocks.scanl LaneRx.block had
      (c = 0 → locks.all (·.lock) = true → ∃ t, exec (.laneLockLoss l j ⟨c, blocks⟩) s = .next t ∧ t.linkState l = s.linkState l ∧
        RegsSame (fun _ => false) s t ∧ MemSame s t) ∧
      (s.linkState l = lkActive → (s.fget (R.LINK_STATUS_USED l)).testBit j = true →
      s.fencedLanes l ||| 2 ^ j.val ≠ 0xFF → (c = 0 → had.lock = true ∧ locks.all (·.lock) = false) → (c = 3 → s.fget (R.LINK_BIPTHR_THR l) ≠ 0) →
          Mild s (linkBase l) 2 → Mild s (linkBase l) 5 →
      ∃ t, exec (.laneLockLoss l j ⟨c, blocks⟩) s = .next t ∧ t.linkState l = lkRetrain ∧ t.fencedLanes l = s.fencedLanes l ||| 2 ^ j.val ∧
        t.flag (R.LINK_EVT_LANELOSS l) = true ∧ Wire.linkctl .retrain ∈ (t.link l).wire.drop (s.link l).wire.length ∧ MemSame s t)) ∧
    (∀ (l : Fin 12) (j : Fin 8) (w : BitVec 64) (since : List (BitVec 64)) (s : State), s.linkState l = lkActive ∨ s.linkState l = lkRetrain →
      j.val ∈ s.lanesOf l → s.amLane l j w = true →
      let bip := w.extractLsb' 16 8 == bip8 since
      (bip = true ∨ s.fget (R.LINK_BIPTHR_THR l) = 0) → s.fget (R.LANE_ERR_COUNT l j) < 2 ^ 32 - 1 →
      ∃ t, exec (.amReceive l j (some w) since) s = .next t ∧ j.val ∉ (t.link l).amBad ∧
        t.fget (R.LANE_ERR_COUNT l j) = s.fget (R.LANE_ERR_COUNT l j) + (!bip).toNat ∧ RegsSame (fun a => a == R.LANE_ERR l j) s t ∧ MemSame s t) ∧
    (∀ (l : Fin 12) (j : Fin 8) (am : Option (BitVec 64)) (since : List (BitVec 64)) (s : State), s.linkState l = lkActive ∨
        s.linkState l = lkRetrain →
      j.val ∈ s.lanesOf l → am.any (s.amLane l j) = false → am.all (fun w => w.extractLsb' 16 8 == bip8 since) = true → j.val ∉ (s.link l).amBad →
      ∃ t, exec (.amReceive l j am since) s = .next t ∧ j.val ∈ (t.link l).amBad ∧ t.linkState l = s.linkState l ∧
        RegsSame (fun _ => false) s t ∧ MemSame s t) ∧
    (∀ (l : Fin 12) (j : Fin 8) (since : List (BitVec 64)) (s : State), s.linkState l = lkActive → (s.fget (R.LINK_STATUS_USED l)).testBit j = true →
      j.val ∈ (s.link l).amBad → s.fencedLanes l ||| 2 ^ j.val ≠ 0xFF → Mild s (linkBase l) 2 →
      ∃ t, exec (.amReceive l j none since) s = .next t ∧ t.linkState l = lkRetrain ∧ t.fencedLanes l = s.fencedLanes l ||| 2 ^ j.val ∧
        t.flag (R.LINK_EVT_LANELOSS l) = true ∧ MemSame s t)

/-- Frames, acknowledgements and replay of an ACTIVE link. An ACTIVE link that its partner has looped returns the frame it receives. On one that
loops nothing back: a frame whose CRC-32C over its FRAME block and payload fails, or that meets an uncorrectable error in the link buffers, is
counted in CRCERR and answered by a CLASS 0 frame with NAK, behind the event messages that are due; an intact frame that is not a NAK, and comes
before 31 others have gone unanswered, returns its credits if it is CLASS 0 or in order, up to 1,023; one in order (not the last of a stream packet,
and with no streaming operation running) becomes the acknowledged one and clears NAK, one of CLASS 1 to 3 out of order changes neither. A NAK takes
the frames that its ACK covers from the replay buffer, and sends the others again where none has been replayed 7 times. The timer sends the event
messages that are due and one CLASS 0 frame that carries the acknowledgement. On a link that is not ACTIVE none of them does anything.
(12_serial_links.md R292, 12_serial_links.md R293, 12_serial_links.md R291) -/
def Obligations.LinksCarryFrames : Prop :=
  (∀ (l : Fin 12) (f : Frame) (s : State), s.linkState l = lkActive → (s.link l).loop = true →
      ∃ t, exec (.frameReceive l f) s = .next t ∧ (t.link l).wire = (s.link l).wire ++ [.frame f] ∧ RegsSame (fun _ => false) s t ∧ MemSame s t) ∧
    (∀ (l : Fin 12) (f : Frame) (s : State), s.linkState l = lkActive → (s.link l).loop = false → (∃ c, f.crc = some c ∧ c ≠ f.crc32) ∨
        s.eccFrame = true →
      s.fget (R.LINK_CRCERR_COUNT l) < 2 ^ 32 - 1 →
      ∃ t g, exec (.frameReceive l f) s = .next t ∧ t.fget (R.LINK_CRCERR_COUNT l) = s.fget (R.LINK_CRCERR_COUNT l) + 1 ∧
        (t.link l).nak = true ∧
        (t.link l).wire = (s.link l).wire ++ (s.link l).events.map (fun e => .event e.1 e.2) ++ [.frame g] ∧ (t.link l).events = [] ∧ g.cls = 0 ∧
            g.nak = true ∧ (t.link l).rxAck = (s.link l).rxAck ∧
        RegsSame (fun a => counting a || a == R.LINK_CRCERR l) s t ∧ MemSame s t) ∧
    (∀ (l : Fin 12) (f : Frame) (s : State), s.linkState l = lkActive → (s.link l).loop = false → f.crc = none ∨ f.crc = some f.crc32 →
        s.eccFrame = false → f.nak = false →
      (s.link l).since + 1 < 32 →
      let inOrder := f.seq.toNat = ((s.link l).rxAck + 1) % 4096
      (f.cls = 0 → ∃ t, exec (.frameReceive l f) s = .next t ∧ (t.link l).rxAck = (s.link l).rxAck ∧
        t.fget (R.LINK_CREDIT_CMD l) = min 1023 (s.fget (R.LINK_CREDIT_CMD l) + f.crCmd.toNat) ∧
        t.fget (R.LINK_CREDIT_RSP l) = min 1023 (s.fget (R.LINK_CREDIT_RSP l) + f.crRsp.toNat) ∧
        t.fget (R.LINK_CREDIT_STRM l) = min 1023 (s.fget (R.LINK_CREDIT_STRM l) + f.crStrm.toNat) ∧
        RegsSame (fun a => counting a || a == R.LINK_CREDIT l) s t ∧ MemSame s t) ∧
      (f.cls ≠ 0 → ¬inOrder → ∃ t, exec (.frameReceive l f) s = .next t ∧ (t.link l).rxAck = (s.link l).rxAck ∧
        (t.link l).nak = (s.link l).nak ∧ RegsSame counting s t ∧ MemSame s t) ∧
      (f.cls ≠ 0 → inOrder → f.cls ≠ 3 ∨ f.eop = false → s.writes = [] → ∃ t, exec (.frameReceive l f) s = .next t ∧ (t.link l).rxAck = f.seq.toNat ∧
        (t.link l).nak = false ∧ t.fget (R.LINK_CREDIT_CMD l) = min 1023 (s.fget (R.LINK_CREDIT_CMD l) + f.crCmd.toNat) ∧ MemSame s t)) ∧
    (∀ (l : Fin 12) (ack : BitVec 12) (s : State), s.linkState l = lkActive →
      let r := ((s.ackIn l ack).link l).outst
      (∀ e ∈ r, e.2 < 7) → ∃ t, exec (.nakReceive l ack) s = .next t ∧ (t.link l).outst = r.map (fun e => (e.1, e.2 + 1)) ∧
        (t.link l).wire.length = (s.link l).wire.length + r.length ∧ t.linkState l = lkActive ∧
        RegsSame (fun a => counting a || a == R.LINK_REPLAY l) s t ∧ MemSame s t) ∧
    (∀ (l : Fin 12) (s : State), s.linkState l = lkActive → ∃ t g, exec (.ackTimer l) s = .next t ∧
      (t.link l).wire = (s.link l).wire ++ (s.link l).events.map (fun e => .event e.1 e.2) ++ [.frame g] ∧ (t.link l).events = [] ∧
      g.cls = 0 ∧ g.ack = BitVec.ofNat 12 (s.link l).rxAck ∧ g.nak = (s.link l).nak ∧ RegsSame counting s t ∧ MemSame s t) ∧
    (∀ (l : Fin 12) (f : Frame) (ack : BitVec 12) (s : State), s.linkState l ≠ lkActive →
      exec (.frameReceive l f) s = .next s ∧ exec (.nakReceive l ack) s = .next s ∧ exec (.ackTimer l) s = .next s)

/-- Writes to the registers of a link, its control messages, event messages and waiting packets. EN = 1 in OFF begins TRAINING and EN = 0 brings any
other state to OFF; TEST = 1 that is not refused brings an ACTIVE link to TEST, TEST = 0 from TEST to TRAINING; a retrain request, written or
received, brings ACTIVE to RETRAIN, which the link asks its partner for; fenced lanes written with 1 are unfenced; an equalisation word is stored
unless it is refused; the bits that a lane of a link in TEST with PRBS and no near-end loop receives are checked against PRBS31, whose bits count no
error, and bit errors count in LANE_ERR; a near-end loop, whose lanes receive what they send, counts none. A latency probe is echoed with the
turnaround. A request for far-end loop-back is obeyed only if ALLOW_FELB and no host is carried, and is refused by a message otherwise; the
partner's refusal sets FELB_REF; a control block of a type that Table 12.1 does not list counts in CRCERR. An event message of which a copy is
intact is counted on an ACTIVE link and registers in every tile that is not OFF; LINKEV_SEND sends it on the ACTIVE links it names. CHIP_ID takes
its new value. CREDIT_EVENT sends the credits that wait to their session, and PACKET_SEND_TIMEOUT drops the packets that wait for a link that is
neither ACTIVE nor in RETRAIN, or for UPLINK while there is none; only EVENTS_LOST may follow them. (12_serial_links.md R289, 12_serial_links.md
R299, 12_serial_links.md R306, 12_serial_links.md R304, 12_serial_links.md Table 12.3, 10_uhleus_protocol.md R246, 10_uhleus_protocol.md R250) -/
def Obligations.LinkRegisters : Prop :=
  (∀ (l : Fin 12) (s : State),
      (s.linkState l = lkOff → ∃ t, exec (.linkEnable l true) s = .next t ∧ t.answer = St.ok.toNat ∧ t.linkState l = lkTraining ∧
        t.flag (R.LINK_CTRL_EN l) = true ∧ RegsSame (inBlock (linkBase l)) s t ∧ MemSame s t) ∧
      (∃ t, exec (.linkEnable l false) s = .next t ∧ t.answer = St.ok.toNat ∧ (s.linkState l ≠ lkOff → t.linkState l = lkOff) ∧
        t.flag (R.LINK_CTRL_EN l) = false ∧ MemSame s t)) ∧
    (∀ (l : Fin 12) (test prbs : Bool) (loop : BitVec 3) (arrival : Option (Fin 12))
      (rx : List (Fin 8 × List Bool)) (s : State),
      (∀ st, s.testRefused l test prbs loop.toNat (arrival.map (·.val)) = some st →
        ∃ t, exec (.linkTest l test prbs loop ⟨arrival, rx⟩) s = .next t ∧ t.answer = st.toNat ∧ MemSame s t ∧
          RegsSame (fun a => s.linkState l == lkTest && (List.range 8).any fun j => a == R.LANE_ERR l j) s t) ∧
      (s.testRefused l test prbs loop.toNat (arrival.map (·.val)) = none → ∃ t, exec (.linkTest l test prbs loop ⟨arrival, rx⟩) s = .next t ∧
        t.answer = St.ok.toNat ∧ t.flag (R.LINK_CTRL_TEST l) = test ∧ MemSame s t ∧
        (test = true → s.linkState l = lkActive → t.linkState l = lkTest ∧ ∀ j, j < 8 → t.rget (R.LANE_ERR l j) = 0) ∧
        (∀ (j : Fin 8) (bits : List Bool), rx = [(j, bits)] → s.linkState l = lkTest → s.flag (R.LINK_CTRL_PRBS l) = true → (s.link l).loop = false →
          let n := (bits.foldl prbsBit (Store.get (fun _ => (0, 0)) (s.link l).check j, 0)).2
          (s.fget (R.LINK_CTRL_LOOP l) ∉ [1, 2] → (s.fencedLanes l).testBit j = false → s.fget (R.LANE_ERR_COUNT l j) + n < 2 ^ 32 →
            t.fget (R.LANE_ERR_COUNT l j) = s.fget (R.LANE_ERR_COUNT l j) + n) ∧
          ((s.link l).check = [] → (∀ i, i + 31 < bits.length → bits.getD (i + 31) false = (bits.getD i false ^^ bits.getD (i + 3) false)) → n = 0) ∧
          (s.fget (R.LINK_CTRL_LOOP l) ∈ [1, 2] → t.fget (R.LANE_ERR_COUNT l j) = s.fget (R.LANE_ERR_COUNT l j))) ∧
        (test = false → s.linkState l = lkTest → s.flag (R.LINK_CTRL_TEST l) = true → t.linkState l = lkTraining))) ∧
    (∀ (l : Fin 12) (s : State), s.linkState l = lkActive → s.fget (R.LINK_RETRAIN_COUNT l) < 2 ^ 32 - 1 →
      ∃ t, exec (.linkRetrainRequest l none) s = .next t ∧ t.answer = St.ok.toNat ∧ t.linkState l = lkRetrain ∧
        t.fget (R.LINK_RETRAIN_COUNT l) = s.fget (R.LINK_RETRAIN_COUNT l) + 1 ∧ (t.link l).wire = (s.link l).wire ++ [.linkctl .retrain] ∧
            RegsSame (inBlock (linkBase l)) s t ∧ MemSame s t) ∧
    (∀ (l : Fin 12) (w : BitVec 3) (s : State), ∃ t, exec (.linkRetrainRequest l (some w)) s = .next t ∧ MemSame s t ∧
      (4 < w.toNat → t.answer = St.badParam.toNat ∧ RegsSame (fun _ => false) s t) ∧
      (w.toNat ≤ 4 → t.answer = St.ok.toNat ∧ t.fget (R.LINK_CTRL_WMAX l) = w.toNat ∧
        (s.linkState l = lkActive → s.fget (R.LINK_CTRL_WMAX l) ≠ w.toNat → t.linkState l = lkRetrain))) ∧
    (∀ (l : Fin 12) (m : BitVec 8) (s : State), ∃ t, exec (.laneUnfence l m) s = .next t ∧ t.answer = St.ok.toNat ∧ MemSame s t ∧
      (∀ j, j < 8 → (t.fencedLanes l).testBit j = ((s.fencedLanes l).testBit j && !m.getLsbD j)) ∧ RegsSame (inBlock (linkBase l)) s t) ∧
    (∀ (l : Fin 12) (j : Fin 8) (hi : Bool) (v : Word) (s : State), ∃ t, exec (.laneEqWrite l j hi v) s = .next t ∧ MemSame s t ∧
      (s.laneEqRefused l j hi v = none → t.answer = St.ok.toNat ∧ t.rget (if hi then R.LANE_EQ_HI l j else R.LANE_EQ_LO l j) = v ∧
        RegsSame (fun a => a == if hi then R.LANE_EQ_HI l j else R.LANE_EQ_LO l j) s t) ∧
      ∀ st, s.laneEqRefused l j hi v = some st → t.answer = st.toNat ∧ RegsSame (fun _ => false) s t) ∧
    (∀ (l : Fin 12) (s : State),
      (s.linkState l = lkActive → ∃ t, exec (.linkctlReceive l .retrain) s = .next t ∧ t.linkState l = lkRetrain ∧
        RegsSame (inBlock (linkBase l)) s t ∧ MemSame s t) ∧
      (s.flag (R.LINK_CTRL_ALLOW_FELB l) = true → s.carriesHost l = false → ∃ t, exec (.linkctlReceive l .farEndLoop) s = .next t ∧
        (t.link l).loop = true ∧ RegsSame (fun _ => false) s t ∧ MemSame s t) ∧
      (s.flag (R.LINK_CTRL_ALLOW_FELB l) = false ∨ s.carriesHost l = true → ∃ t, exec (.linkctlReceive l .farEndLoop) s = .next t ∧
        (t.link l).loop = (s.link l).loop ∧ (t.link l).wire = (s.link l).wire ++ [.linkctl .loopRefused] ∧
        RegsSame (fun _ => false) s t ∧ MemSame s t) ∧
      (s.fget (R.LINK_CTRL_LOOP l) = 3 → ∃ t, exec (.linkctlReceive l .loopRefused) s = .next t ∧ t.flag (R.LINK_STATUS_FELB_REF l) = true ∧
        RegsSame (fun a => a == R.LINK_STATUS l) s t ∧ MemSame s t) ∧
      (∀ n, s.linkState l = lkTraining ∨ s.linkState l = lkActive ∨ s.linkState l = lkRetrain → ∃ t, exec (.linkctlReceive l (.probe n)) s = .next t ∧
        (t.link l).wire = (s.link l).wire ++ [.linkctl (.echo n)] ∧ RegsSame (fun _ => false) s t ∧ MemSame s t) ∧
      (∀ n, exec (.linkctlReceive l (.echo n)) s = .next s) ∧
      (∀ typ, typ ∈ controlTypes → exec (.linkctlReceive l (.other typ)) s = .next s) ∧
      (∀ typ, typ ∉ controlTypes → s.fget (R.LINK_CRCERR_COUNT l) < 2 ^ 32 - 1 → ∃ t, exec (.linkctlReceive l (.other typ)) s = .next t ∧
        t.fget (R.LINK_CRCERR_COUNT l) = s.fget (R.LINK_CRCERR_COUNT l) + 1 ∧ RegsSame (fun a => a == R.LINK_CRCERR l) s t ∧ MemSame s t)) ∧
    (∀ (l : Fin 12) (first b : BitVec 64) (others : List (BitVec 64)) (arrival skew : Nat) (s : State), s.linkState l = lkActive →
      (first :: others).find? eventBlock = some b → s.fget R.LINKEV_RX_COUNT < 2 ^ 32 - 1 → (∀ u, u < 64 → s.fget (R.TRIG_CFG_SRC u) ≠ 4) →
      ∃ t, exec (.eventMessageReceive l first others arrival skew) s = .next t ∧ t.fget R.LINKEV_RX_COUNT = s.fget R.LINKEV_RX_COUNT + 1 ∧
          MemSame s t ∧
        ∀ u, u < 64 → s.power u ≠ 3 → 
          (CondKey.linkev (b.extractLsb' 8 8).toNat, s.tileTime u (tileEdge (((arrival + skew : Nat) : Int) * unitFs + 20 * 65536000))) ∈
            (t.tile u).conds) ∧
    (∀ (l : Fin 12) (first : BitVec 64) (others : List (BitVec 64)) (arrival skew : Nat) (s : State), (first :: others).find? eventBlock = none →
      exec (.eventMessageReceive l first others arrival skew) s = .next s) ∧
    (∀ (v : Word) (s : State), ∃ t, exec (.linkevSend v) s = .next t ∧ t.answer = St.ok.toNat ∧
      ((∀ u, u < 64 → s.fget (R.TRIG_CFG_SRC u) ≠ 4) → MemSame s t) ∧
      ∀ k, k < 12 → (field v 19 8).testBit k = true → s.linkState k = lkActive →
        (t.link k).events = (s.link k).events ++ [(field v 7 0, s.fget R.CHIP_ID_ID)]) ∧
    (∀ (id : BitVec 14) (s : State), ∃ t, exec (.chipIdWrite id) s = .next t ∧ t.answer = St.ok.toNat ∧ t.fget R.CHIP_ID_ID = id.toNat ∧
      RegsSame (fun a => a == R.CHIP_ID) s t ∧ MemSame s t) ∧
    (∀ (k : BitVec 5) (s : State), s.sessOpen k.toNat = true → (s.ctx k.toNat).retCells ≠ 0 → s.fget (R.SESS_LOAD_EVQ k.toNat) < 64 →
      ∃ t p, exec (.creditEvent k) s = .next t ∧ t.txq = s.txq ++ [p] ∧ p.kind = 3 ∧ p.session = k ∧ p.params = [1] ∧
        p.cells = (s.ctx k.toNat).retCells ∧ p.slots = (s.ctx k.toNat).retSlots ∧ (t.ctx k.toNat).retCells = 0 ∧ MemSame s t ∧
        RegsSame sessReg s t) ∧
    (∀ (l : Option (Fin 12)) (s : State), (∀ k, l = some k → s.linkState k ≠ lkActive ∧ s.linkState k ≠ lkRetrain) →
      let n := l.elim noUplink (·.val)
      ∃ t extra, exec (.packetSendTimeout l) s = .next t ∧ t.txq = s.txq.filter (fun p => s.linkOf p != n) ++ extra ∧
        (∀ p ∈ extra, p.kind = 3 ∧ p.params.headD 0 = 2) ∧ (t.link n).queue = [] ∧ MemSame s t ∧
        RegsSame (fun a => sessReg a || a == R.PROTO_DISCARD) s t) ∧
    (∀ (l : Fin 12) (s : State), s.linkState l = lkActive ∨ s.linkState l = lkRetrain → exec (.packetSendTimeout (some l)) s = .next s)

/-- SEAL_LOAD stages a bundle, ATTEST and IDENTITY answer. An accepted first part of a SEAL_LOAD in OWNED that passes the checks of R326, with no
staging in progress and tiles that are idle and not fenced, is ACCEPTED and opens the staging for its tiles, with the key that the entry of this
device wraps. The end of its staging completes it OK, and part 1 is expected next; with no part in progress and 10 s passed since the last,
STAGING_TIMEOUT discards the staging, before that it does nothing. An accepted ATTEST whose tiles are those of a step on record and idle, outside
RETIRED and with the identity intact, is ACCEPTED; ATTESTATION_SIGNED completes it OK while the noise source is good and counts it. An accepted
IDENTITY of item 0 or 1 returns the certificate or the public identity key, one of item 2, while the noise source is good, the signed record of
DEVICE_ID, both public keys, the life cycle, its count and in OWNED the owner's digest; one of an undefined item is BAD_PARAM. (13_security.md R326,
13_security.md R327, 13_security.md R339, 13_security.md R315, 13_security.md R316) -/
def Obligations.BundlesAndAttestations : Prop :=
  (∀ (q : Req) (s : State), s.wakeEngine.runs 0x60 q = true → q.n 2 = 0 → s.flag R.BOOT_STATUS_RECOVERY = false → s.fget R.LC_STATUS_STATE = 2 →
      s.flag R.LC_STATUS_SEALBLK = false → s.flag R.LC_STATUS_PUF_OK = true → s.sealForever = false → s.flag R.ENG_STATUS_HOLDING = false →
      s.staging = none → (∀ u ∈ q.tiles 0, s.tileFenced u = false ∧ s.idle u = true ∧ s.power u < 2) → part0Ok q.payload (q.p 0) (q.p 1) = true →
      s.ownerKey (sub q.payload 64 160) = true → q.verdict.sigOk = true → (s.unwrap q.payload).isSome = true →
          (s.bundlesOutside (q.tiles 0)).length ≠ 4 →
      s.splits.length < 256 → ∃ t g, exec (.sealLoad q) s = .next t ∧ Begun t 0x60 q ∧ t.flag R.LC_STATUS_STAGING = true ∧ t.staging = some g ∧
        g.session = q.session ∧ g.tilesLo = q.p 0 ∧ g.tilesHi = q.p 1 ∧ g.nextPart = 0 ∧ some g.bundle.key = s.unwrap q.payload ∧ MemSame s t) ∧
    (∀ (o : OpRef) (v : Verdict) (s : State) (x : Split) (g : Staging), s.split? 0x60 o = some x → s.staging = some g →
      (x.params.getD 2 0).toNat = 0 → ∃ t, exec (.sealPartStaged o v) s = .next t ∧
          t.staging = some { g with nextPart := g.nextPart + 1, at_ := s.now } ∧
        Over t x ∧ Completed t x St.ok ∧ MemSame s t ∧ RegsSame (fun a => a == R.ENG_STATUS) s t) ∧
    (∀ (s : State), s.stagingOld = true → (∀ x ∈ s.splits, x.opcode ≠ 0x60) → ∃ t, exec .stagingTimeout s = .next t ∧ t.staging = none ∧
      t.flag R.LC_STATUS_STAGING = false ∧ t.splits = s.splits ∧ RegsSame (fun a => a == R.LC_STATUS) s t ∧ MemSame s t) ∧
    (∀ (s : State), s.stagingOld = false → exec .stagingTimeout s = .next s) ∧
    (∀ (q : Req) (s : State) (r : StepRec), s.runs 0x61 q = true → s.flag R.ENG_STATUS_HOLDING = false → s.fget R.LC_STATUS_STATE ≠ 3 →
        s.flag R.LC_STATUS_PUF_OK = true →
      s.steps.find? (fun (r : StepRec) => r.tiles == q.tiles 0 && (q.tiles 0).all s.idle) = some r → s.splits.length < 256 →
      ∃ t, exec (.attest q) s = .next t ∧ Begun t 0x61 q ∧ (s.ids, r) ∈ t.attests ∧ MemSame s t ∧
        RegsSame (fun a => counting a || a == R.SESS_STAT q.session.toNat || a == R.ENG_STATUS) s t) ∧
    (∀ (o : OpRef) (s : State) (x : Split), s.split? 0x61 o = some x → (∃ e ∈ s.attests, e.1 = x.id) → s.drbgBad = false →
      s.fget R.ATT_COUNT_COUNT < 2 ^ 32 - 1 → ∃ t, exec (.attestationSigned (some o)) s = .next t ∧ Over t x ∧ Completed t x St.ok ∧
        t.fget R.ATT_COUNT_COUNT = s.fget R.ATT_COUNT_COUNT + 1 ∧ MemSame s t) ∧
    (∀ (s : State), s.merges = [] → exec (.attestationSigned none) s = .next s) ∧
    (∀ (q : Req) (s : State), s.runs 0x63 q = true → ∃ t, exec (.identity q) s = .next t ∧ MemSame s t ∧
      RegsSame (fun a => counting a || a == R.SESS_STAT q.session.toNat) s t ∧
      (3 ≤ q.n 0 → Answered t 0x63 q St.badParam [0] []) ∧
      (q.n 0 < 3 → s.flag R.LC_STATUS_PUF_OK = false → Answered t 0x63 q St.hwFault [0] []) ∧
      (q.n 0 = 0 → s.flag R.LC_STATUS_PUF_OK = true → s.certBad = false → s.fget R.LC_STATUS_STATE ≠ 0 →
        Answered t 0x63 q St.ok [] (s.cert.getD Config.certificate)) ∧
      (q.n 0 = 1 → s.flag R.LC_STATUS_PUF_OK = true → Answered t 0x63 q St.ok [] idkPub) ∧
      (q.n 0 = 2 → s.flag R.LC_STATUS_PUF_OK = true → s.drbgBad = false → ∃ n,
        let body := s.deviceId ++ idkPub ++ kakPub ++ [BitVec.ofNat 8 (s.fget R.LC_STATUS_STATE), BitVec.ofNat 8 (s.fget R.LC_STATUS_LC_COUNT)] ++
          (if s.fget R.LC_STATUS_STATE = 2 then s.ownerDigest else List.replicate 48 0) ++ List.replicate 4 0
        Answered t 0x63 q St.ok [] (body ++ idkSigned n body)))

/-- The life cycle moves as Table 13.1 allows, a tamper detection wipes the vault. An accepted LIFECYCLE for a transition that Table 13.1 does not
have is answered LIFECYCLE; one that passes every check is ACCEPTED. LIFECYCLE_TRANSITION, with room in the moraine and no sealed share mask to
clear, puts the life cycle into the target state, counts the transition, wipes the vault and completes OK, and once the engine has sent that
completion event every session is closed; where OTP fails the state stays and the operation completes HW_FAULT. TAMPER_DETECT, with no step held and
none that has ended in this tile clock, room in the moraine and no fault action that resets, records the detectors, removes every bundle, staging
and ticket, and in OWNED raises TAMPER_GEN. A failed health test of the noise source sets its fault source. (13_security.md R310, 13_security.md
R312, 13_security.md R313, 13_security.md R319, 13_security.md R320, 13_security.md R321) -/
def Obligations.LifeCycleAndTamper : Prop :=
  (∀ (q : Req) (s : State), s.runs 0x62 q = true → s.flag R.ENG_STATUS_HOLDING = false → q.n 0 < 16 →
      (lcNeeds (s.fget R.LC_STATUS_STATE) (q.n 0) = none → ∃ t, exec (.lifecycle q) s = .next t ∧ Answered t 0x62 q St.lifecycle [0] [] ∧
        MemSame s t ∧ RegsSame (fun a => counting a || a == R.SESS_STAT q.session.toNat) s t) ∧
      ∀ p, lcNeeds (s.fget R.LC_STATUS_STATE) (q.n 0) = some p → p ≤ s.fget (R.SESS_STAT_PRIV q.session.toNat) → s.fget R.LC_STATUS_LC_COUNT < 32 →
        (∀ u, u < 64 → s.idle u = true) → s.staging = none → authLayout q.payload (q.n 0) = true → allZero (sub q.payload 8 23) = false →
        sub q.payload 8 23 = s.deviceId → (q.payload.getD 5 0).toNat = s.fget R.LC_STATUS_LC_COUNT → s.signerOk q = true → q.verdict.sigOk = true →
        (q.n 0 = 1 → q.verdict.certOk = true ∧ s.certProfile (q.payload.drop 228) = true) → s.splits.length < 256 →
            (∀ x ∈ s.splits, x.opcode ≠ 0x62) →
        ∃ t, exec (.lifecycle q) s = .next t ∧ Begun t 0x62 q ∧ t.fget R.LC_STATUS_STATE = s.fget R.LC_STATUS_STATE ∧ MemSame s t) ∧
    (∀ (s : State) (x : Split), s.splits.find? (fun (x : Split) => x.opcode == 0x62) = some x → s.staged.length < 120 →
      (∀ n, n < 4 → (Store.get (fun _ => {}) s.bundles n).shareWords = []) →
      (∀ new, new ∈ [1, 2, 3] → (x.params.getD 0 0).toNat = new → s.fget R.LC_STATUS_LC_COUNT < 32 →
        ∃ t, exec (.lifecycleTransition true) s = .next t ∧ t.fget R.LC_STATUS_STATE = new ∧
          t.fget R.LC_STATUS_LC_COUNT = s.fget R.LC_STATUS_LC_COUNT + 1 ∧ Over t x ∧
          (∃ p, Item.completion p x.live x.quiet .closeAll ∈ t.items ∧ p.status = St.ok) ∧
          (∀ n, n < 4 → t.flag (R.BUNDLE_CTL_VALID n) = false) ∧ t.staging = none) ∧
      ∃ t, exec (.lifecycleTransition false) s = .next t ∧ t.fget R.LC_STATUS_STATE = s.fget R.LC_STATUS_STATE ∧ Over t x ∧
        Completed t x St.hwFault ∧ (∀ n, n < 4 → t.flag (R.BUNDLE_CTL_VALID n) = false)) ∧
    (∀ (p : Packet) (live quiet : Bool) (s : State), s.items = [.completion p live quiet .closeAll] → s.veing.cmd = none →
      ∃ t, exec .routineDispatch s = .next t ∧ ∀ n, n < 32 → t.sessOpen n = false) ∧
    (∀ (src : BitVec 6) (s : State), src ≠ 0 → s.holdsStep = false → (∀ u, u < 64 → s.ending u = false) → (∀ k, k < 6 → Mild s 0x50000 k) →
      (∀ n, n < 4 → (Store.get (fun _ => {}) s.bundles n).shareWords = []) →
      ∃ t, exec (.tamperDetect src) s = .next t ∧ t.rget R.TAMPER_STATUS = s.rget R.TAMPER_STATUS ||| src.setWidth 32 ∧
        (∀ n, n < 4 → t.flag (R.BUNDLE_CTL_VALID n) = false) ∧ t.staging = none ∧ (∀ n, (t.ctx n).ticket = []) ∧
        (∀ k, k < 6 → src.getLsbD k = true → (t.rget (R.FLT_REAL 0x50000)).getLsbD k = true) ∧
        (s.fget R.LC_STATUS_STATE = 2 → s.fget R.TAMPER_GEN_GEN < 64 → t.fget R.TAMPER_GEN_GEN = s.fget R.TAMPER_GEN_GEN + 1) ∧
        (s.fget R.LC_STATUS_STATE ≠ 2 → t.fget R.TAMPER_GEN_GEN = s.fget R.TAMPER_GEN_GEN)) ∧
    (∀ (s : State), exec (.tamperDetect 0) s = .next s) ∧
    (∀ (s : State), Mild s 0x50000 7 → ∃ t, exec .drbgHealthTestFail s = .next t ∧ t.drbgBad = true ∧
      (t.rget (R.FLT_REAL 0x50000)).getLsbD 7 = true ∧ MemSame s t ∧
      RegsSame (fun a => inBlock 0x50000 a || counting a || recordReg a) s t)

/-- The engine dispatches what waits, traps, bounds its routines and changes its clock. ROUTINE_DISPATCH with nothing waiting does nothing; a
completion event that waits alone, of an operation that a ROM routine has entered, is sent to the link of its session, unless the session has closed
or QUIET suppresses it; a request that waits alone and that its routine does not hold runs the routine of its opcode and gives its session the turn,
which an ABORT does not. A trap of cause 1 to 4, before which no other waits, with no Veing access waiting, room in the moraine and no dump held or
being written shows its cause in ENG_TRAP and begins a dump. ROUTINE_BOUND counts in ENG_OVR, reaches 4,096 in the longest routine, and leaves trap
2 waiting. Both abandon the routine of the request that is taken next, which is answered INTERNAL (which routine is in progress is the model's
choice, log entry 62). CLOCK_MODE_CHANGE enters slow mode if it may and leaves it if SLOW is 0, else nothing. ENG_CLRSTAT clears the longest
routine. UNDEFINED_OPCODE of a request that no active patch overrides and that fails the second check is answered BAD_OPCODE. (11_naljo_engine.md
R277, 11_naljo_engine.md R278, 11_naljo_engine.md R280, 11_naljo_engine.md R281, 11_naljo_engine.md R284, 10_uhleus_protocol.md R254) -/
def Obligations.EngineWorks : Prop :=
  (∀ (s : State), s.items = [] → s.veing.cmd = none → exec .routineDispatch s = .next s) ∧
    (∀ (p : Packet) (quiet : Bool) (s : State), s.items = [.completion p true quiet .none] → p.entry = none → (quiet && quietable p.status) = false →
      s.veing.cmd = none → ∃ t x, exec .routineDispatch s = .next t ∧ t.txq = s.txq ++ [x] ∧ x.kind = p.kind ∧
      x.opcode = p.opcode ∧ x.status = p.status ∧ x.session = p.session ∧ x.tag = p.tag ∧ x.params = p.params ∧ x.payload = p.payload ∧
      x.link = s.fget (R.SESS_STAT_LINK p.session.toNat) ∧ (.completion p true quiet .none) ∉ t.items ∧ MemSame s t ∧
      RegsSame counting s t) ∧
    (∀ (p : Packet) (live quiet : Bool) (s : State), s.items = [.completion p live quiet .none] → p.entry = none → live = false ∨ (quiet &&
        quietable p.status) = true →
      s.veing.cmd = none → ∃ t, exec .routineDispatch s = .next t ∧ t.txq = s.txq ∧ (.completion p live quiet .none) ∉ t.items ∧ MemSame s t ∧
      RegsSame counting s t) ∧
    (∀ (op : BitVec 8) (q : Req) (s : State), s.items = [.request op q] → s.veing.cmd = none → (s.runRequest op q).copies op q = 0 →
      (op ≠ 0x33 → op ≠ 0x01 → exec .routineDispatch s = .next { s.runRequest op q with rr := q.session.toNat }) ∧
      (op = 0x01 → exec .routineDispatch s = .next { s.runRequest op q with rr := 32 }) ∧
      (op = 0x33 → exec .routineDispatch s = .next (s.runRequest op q))) ∧
    (∀ (c : Fin 4) (s : State), s.items = [] ∨ (.trap (c.val + 1) ∈ s.items ∧ ∀ k, .trap k ∈ s.items → c.val + 1 ≤ k) → s.veing.cmd = none →
        s.staged.length < 120 → s.flag R.DUMP_STATUS_HELD = false → s.dumping = none →
      ∃ t d, exec (.trap c) s = .next t ∧ t.rget R.ENG_TRAP = BitVec.ofNat 32 (2 ^ 31 + (c.val + 1)) ∧ t.dumping = some d ∧ d.cause = c.val + 1 ∧
        MemSame s t ∧ RegsSame (fun a => counting a || recordReg a || a == R.ENG_TRAP) s t) ∧
    (∀ (c : Fin 4) (op : BitVec 8) (q : Req) (s : State), s.items = [.request op q] → (s.runRequest op q).copies op q = 0 → s.veing.cmd = none →
        s.staged.length < 120 →
      s.flag R.DUMP_STATUS_HELD = false → s.dumping = none → ∃ t, exec (.trap c) s = .next t ∧
        t.rget R.ENG_TRAP = BitVec.ofNat 32 (2 ^ 31 + (c.val + 1)) ∧ Answered t op q St.internal [0] [] ∧ (.request op q) ∉ t.items ∧ MemSame s t) ∧
    (∀ (s : State), s.items = [] → s.fget R.ENG_OVR_COUNT < 2 ^ 32 - 1 → ∃ t l, exec .routineBound s = .next t ∧ t.items = l ++ [.trap 2] ∧
      (∀ i ∈ l, ∃ m, i = .overflow m) ∧ t.fget R.ENG_OVR_COUNT = s.fget R.ENG_OVR_COUNT + 1 ∧ t.maxLen = max s.maxLen 4096 ∧
      RegsSame (fun a => counting a || a == R.ENG_OVR) s t ∧ MemSame s t) ∧
    (∀ (op : BitVec 8) (q : Req) (s : State), s.items = [.request op q] → (s.runRequest op q).copies op q = 0 →
        ∃ t, exec .routineBound s = .next t ∧ .trap 2 ∈ t.items ∧
      (.request op q) ∉ t.items ∧ Answered t op q St.internal [0] [] ∧ MemSame s t) ∧
    (∀ (s : State), ∃ t, exec .clockModeChange s = .next t ∧ MemSame s t ∧ RegsSame (fun a => a == R.ENG_STATUS || a == R.BT_STATUS ||
        a == R.CAL_STATUS) s t ∧
      (s.flag R.ENG_STATUS_SLOW_ACT = true → s.flag R.ENG_CTRL_SLOW = false → t.flag R.ENG_STATUS_SLOW_ACT = false) ∧
      (s.flag R.ENG_STATUS_SLOW_ACT = true → s.flag R.ENG_CTRL_SLOW = true → t = s) ∧
      (s.flag R.ENG_STATUS_SLOW_ACT = false → s.maySlow = true → t.flag R.ENG_STATUS_SLOW_ACT = true ∧ t.flag R.BT_STATUS_SUSP = true) ∧
      (s.flag R.ENG_STATUS_SLOW_ACT = false → s.maySlow = false → t = s)) ∧
    (∀ (s : State), ∃ t, exec .engClrstat s = .next t ∧ t.answer = St.ok.toNat ∧ t.maxLen = 0 ∧ t.maxClk = 0 ∧
      RegsSame (fun _ => false) s t ∧ MemSame s t) ∧
    (∀ (op : BitVec 8) (q : Req) (s : State), s.overridden op q = false →
      (s.accept op q = some St.badOpcode → ∃ t, exec (.undefinedOpcode op q) s = .next t ∧ Answered t op q St.badOpcode [0] [] ∧ MemSame s t ∧
        RegsSame (fun a => counting a || a == R.SESS_STAT q.session.toNat) s t) ∧
      (s.accept op q ≠ some St.badOpcode → exec (.undefinedOpcode op q) s = .next s))

/-- A patch is accepted, holds requests until it is active, and replaces what the engine runs. An accepted PATCH_LOAD outside recovery and RETIRED,
with every tile idle, is answered with the first of items 3 to 7 of R283 that fails and its number; one that fails none, while no other waits, is
ACCEPTED and HOLDING is set. PATCH_ACTIVATION with no other split-phase operation, no failure of the OTP and room in the moraine puts the body of
the patch into the patch RAM, its overrides and version in force, raises the floor, ends HOLDING and completes OK; where OTP fails to raise the
floor it completes HW_FAULT and the old patch stays. PATCH_DRAIN_TIMEOUT with another one outstanding completes BUSY. The row of a request of an
opcode that the active patch overrides runs the patch's routine from its microaddress, in place of the ROM's: one that begins with the error exit is
answered with its status, one whose first microword has an uncorrectable error is answered INTERNAL and leaves trap 1 waiting. (11_naljo_engine.md
R282, 11_naljo_engine.md R283, 11_naljo_engine.md R272, 11_naljo_engine.md Table 11.2) -/
def Obligations.PatchesLoad : Prop :=
  (∀ (q : Req) (s : State), s.wakeEngine.runs 0x64 q = true → s.flag R.BOOT_STATUS_RECOVERY = false → s.fget R.LC_STATUS_STATE ≠ 3 →
      (∀ u, u < 64 → s.idle u = true) →
      (∀ st p, s.patchRefused q.payload q.verdict.sigOk = some (st, p) → ∃ t, exec (.patchLoad q) s = .next t ∧
        Answered t 0x64 q st [BitVec.ofNat 32 p] [] ∧ t.splits = s.splits ∧ MemSame s t) ∧
      (s.patchRefused q.payload q.verdict.sigOk = none → s.flag R.ENG_STATUS_HOLDING = false → s.splits.length < 256 →
        ∃ t, exec (.patchLoad q) s = .next t ∧ Begun t 0x64 q ∧ t.flag R.ENG_STATUS_HOLDING = true ∧ MemSame s t)) ∧
    (∀ (ok : Bool) (s : State) (x : Split), s.patchSplit = some x → s.splits.length = 1 →
      let p := patchOf x.payload
      p.rb < 64 →
      (ok = true ∨ p.rb ≤ s.fget R.PATCH_FLOOR_FLOOR → s.staged.length < 120 →
        ∃ t, exec (.patchActivation ok) s = .next t ∧ Over t x ∧ Completed t x St.ok ∧ t.flag R.ENG_STATUS_HOLDING = false ∧
          t.overrides = p.overrides ∧ t.fget R.MCODE_VERSION_PATCH = p.pver % 65536 ∧
          t.fget R.PATCH_FLOOR_FLOOR = max (s.fget R.PATCH_FLOOR_FLOOR) p.rb ∧
          ∀ i, i < p.body.length → i < 2 ^ 23 → t.mget 0x12 0 i = p.body.getD i 0) ∧
      (ok = false → s.fget R.PATCH_FLOOR_FLOOR < p.rb → ∃ t, exec (.patchActivation ok) s = .next t ∧ Over t x ∧ Completed t x St.hwFault ∧
        t.flag R.ENG_STATUS_HOLDING = false ∧ t.overrides = s.overrides ∧ MemSame s t ∧ RegsSame (fun a => a == R.ENG_STATUS) s t)) ∧
    (∀ (s : State) (x : Split), s.patchSplit = some x → 1 < s.splits.length → ∃ t, exec .patchDrainTimeout s = .next t ∧ Over t x ∧
      Completed t x St.busy ∧ t.flag R.ENG_STATUS_HOLDING = false ∧ MemSame s t ∧ RegsSame (fun a => a == R.ENG_STATUS) s t) ∧
    (∀ (ok : Bool) (s : State), s.patchSplit = none → exec (.patchActivation ok) s = .next s ∧ exec .patchDrainTimeout s = .next s) ∧
    (∀ (op : BitVec 8) (q : Req) (s : State) (e : Nat × Nat), s.overrides.find? (fun e => e.1 == op.toNat) = some e → s.overridden op q = true →
      (∀ c : Instr, (op, c) ∈ [
        (0x01, .hello q), (0x02, .bye q), (0x03, .ping q), (0x10, .regRead q), (0x11, .regWrite q), (0x12, .regSetBits q), (0x13,
        .regClearBits q), (0x14, .regGather q), (0x20, .memWrite q), (0x21, .memRead q), (0x22, .segWrite q), (0x23, .segCommit q), (0x24,
        .streamOpen q), (0x25, .streamClose q), (0x30, .stepArm q), (0x31, .stepStart q), (0x32, .stepStatus q), (0x33, .abort q), (0x34,
        .eventWait q), (0x40, .captureRead q), (0x41, .failRead q), (0x42, .profileRead q), (0x43, .measure q), (0x50, .calRun q), (0x51,
        .calCommit q), (0x52, .calRead q), (0x60, .sealLoad q), (0x61, .attest q), (0x62, .lifecycle q), (0x63, .identity q), (0x64,
        .patchLoad q), (0x70, .selftest q), (0x71, .fence q), (0x72, .calve q), (0x74, .dumpRead q), (0x75, .frost q), (0x76, .powerState
        q), (0x7E, .inject q)] → exec c s = .next (s.patched op q)) ∧
      exec (.undefinedOpcode op q) s = .next (s.patched op q) ∧
      (s.microBad e.2 = false → (microOf (s.microAt e.2)).op = 0x3E → Answered (s.patched op q) op q (microOf (s.microAt e.2)).status [0] []) ∧
      (s.microBad e.2 = true → Answered (s.patched op q) op q St.internal [0] [] ∧ .trap 1 ∈ (s.patched op q).items))

/-- Fault interrupts, the clearing of fault bits, the lock, injection and self-test. FAULT_INTERRUPT of a source that waits, before which no trap
and no other source waits, sends the FAULT event to every chip session with room; of one that does not wait, or that another one stands before, it
does nothing while no Veing access waits. FAULT_CLEAR clears the bits written 1 of FLT_REAL or FLT_INJ whose condition is not present. SF_LOCK_SET
sets LOCK. An accepted INJECT is BAD_PARAM outside its ranges, LIFECYCLE outside BLANK; CLEAR ends a held injection; injecting the slip of the time
block, with no fault action that resets, sets SLIP and the INJECTED bit only. An accepted SELFTEST of defined tests on idle tiles is ACCEPTED, and
SELFTEST_DONE without a failure, with nothing due on its tiles, completes it OK. (15_safety_faults.md R372, 15_safety_faults.md R373,
15_safety_faults.md R374, 15_safety_faults.md R375, 15_safety_faults.md R381, 20_startup.md R465) -/
def Obligations.FaultsReport : Prop :=
  (∀ (b : FltBlk) (src : Fin 32) (s : State), .fault (fltBase b) src.val ∉ s.items → exec (.faultInterrupt b src) s = .next s) ∧
    (∀ (b : FltBlk) (src : Fin 32) (s : State), s.veing.cmd = none → firstItem s.items ≠ some (.fault (fltBase b) src.val) →
      exec (.faultInterrupt b src) s = .next s) ∧
    (∀ (b : FltBlk) (src : Fin 32) (l : List Item), .fault (fltBase b) src.val ∈ l → fltBase b ≠ 0x60000 → (∀ c, .trap c ∉ l) →
      (∀ i ∈ l, ∀ k, itemRank i = some k → 2 ^ 10 + fltBase b * 128 + src.val ≤ k) → firstItem l = some (.fault (fltBase b) src.val)) ∧
    (∀ (b : FltBlk) (src : Fin 32) (c : Nat) (l : List Item), .trap c ∈ l → c < 2 ^ 10 → firstItem l ≠ some (.fault (fltBase b) src.val)) ∧
    (∀ (b : FltBlk) (src : Fin 32) (s : State), firstItem s.items = some (.fault (fltBase b) src.val) → s.veing.cmd = none →
      ∃ t, exec (.faultInterrupt b src) s = .next t ∧ MemSame s t ∧
      RegsSame (fun a => counting a || sessReg a) s t ∧
      ∀ n ∈ s.chipSessions, s.fget (R.SESS_LOAD_EVQ n) < 64 → ∃ p ∈ t.txq, p.kind = 3 ∧ p.session = BitVec.ofNat 5 n ∧
        p.params = [0x100, BitVec.ofNat 32 (R.FLT_REAL (fltBase b)), BitVec.ofNat 32 src.val,
          BitVec.ofNat 32 ((s.faultSet (fltBase b) src.val false).toNat + 2 * (s.faultSet (fltBase b) src.val true).toNat)]) ∧
    (∀ (b : FltBlk) (inj : Bool) (mask still : Word) (s : State),
      let a := if inj then R.FLT_INJ (fltBase b) else R.FLT_REAL (fltBase b)
      let held := if inj then s.injHeld else s.held
      ∃ t, exec (.faultClear b inj mask still) s = .next t ∧ RegsSame (fun x => x == a) s t ∧ MemSame s t ∧
        ((∀ h ∈ held, h.1 ≠ fltBase b) → t.rget a = s.rget a &&& ~~~(mask &&& ~~~still)) ∧
        ∀ h ∈ held, h.1 = fltBase b → h.2.1 < 32 → (t.rget a).getLsbD h.2.1 = (s.rget a).getLsbD h.2.1) ∧
    (∀ (s : State), ∃ t, exec .sfLockSet s = .next t ∧ t.flag R.SF_CFG_LOCK = true ∧ RegsSame (fun a => a == R.SF_CFG) s t ∧ MemSame s t) ∧
    (∀ (q : Req) (s : State), s.runs 0x7E q = true →
      (injectBad q = true → ∃ t, exec (.inject q) s = .next t ∧ Answered t 0x7E q St.badParam [0] [] ∧ MemSame s t ∧
        RegsSame (fun a => counting a || a == R.SESS_STAT q.session.toNat) s t) ∧
      (injectBad q = false → s.fget R.LC_STATUS_STATE ≠ 0 → ∃ t, exec (.inject q) s = .next t ∧ Answered t 0x7E q St.lifecycle [0] [] ∧ MemSame s t ∧
        RegsSame (fun a => counting a || a == R.SESS_STAT q.session.toNat) s t) ∧
      (injectBad q = false → s.fget R.LC_STATUS_STATE = 0 → (q.p 1).getLsbD 9 = true → ∃ t, exec (.inject q) s = .next t ∧
        Answered t 0x7E q St.ok [] [] ∧ t.injHeld = s.injHeld.filter (· != (q.n 0 - 0xF00, q.n 1 % 32, unitOf (q.n 0 - 0xF00) (q.n 1 % 32) (q.n 2))) ∧
        MemSame s t ∧ RegsSame (fun a => counting a || a == R.SESS_STAT q.session.toNat) s t) ∧
      (q.n 0 = 0x60F00 → q.n 1 = 9 → s.fget R.LC_STATUS_STATE = 0 → Mild s 0x60000 9 → ∃ t, exec (.inject q) s = .next t ∧
        Answered t 0x7E q St.ok [] [] ∧ t.flag R.TIME_STATUS_SLIP = true ∧ (t.rget (R.FLT_INJ 0x60000)).getLsbD 9 = true ∧
        t.rget (R.FLT_REAL 0x60000) = s.rget (R.FLT_REAL 0x60000) ∧ MemSame s t)) ∧
    (∀ (q : Req) (s : State), s.runs 0x70 q = true → s.flag R.ENG_STATUS_HOLDING = false → q.n 0 ≠ 0 → q.n 0 < 8 →
        (∀ u ∈ q.tiles 1, s.idle u = true) → s.splits.length < 256 →
      ∃ t, exec (.selftest q) s = .next t ∧ Begun t 0x70 q ∧ MemSame s t ∧
        RegsSame (fun a => counting a || a == R.SESS_STAT q.session.toNat || a == R.ENG_STATUS) s t) ∧
    (∀ (o : OpRef) (s : State) (x : Split), s.split? 0x70 o = some x → (∀ u ∈ tilesOf (x.params.getD 1 0) (x.params.getD 2 0), Calm s u) →
      ∃ t, exec (.selftestDone o [] [] []) s = .next t ∧ Over t x ∧ Completed t x St.ok ∧ MemSame s t ∧ RegsSame (fun a => a == R.ENG_STATUS) s t)

/-- Fences by command and by mask, and retests of channels. An accepted FENCE outside its ranges is BAD_PARAM. One of a lane of an ACTIVE link is
BUSY where it leaves no good lane, else it is ACCEPTED, fences the lane and begins RETRAIN. One of a channel or tile whose tile is in a step, and
that is not fenced, is ACCEPTED, shows in the fence mask, and fences nothing yet; one of a sentinel, with room in the moraine and no other request,
fences it at once, and is ACCEPTED and over. A write to FENCE_CH with both tiles in a step stores its bits where none was set; a write of the value
that a fence-mask word has changes nothing. CHANNEL_RETEST_DONE of a channel under retest with its tile in a step ends the retest; a failed one
fences the channel. Without a retest it does nothing. (15_safety_faults.md R377, 15_safety_faults.md R378, 15_safety_faults.md R379,
15_safety_faults.md R380) -/
def Obligations.UnitsFence : Prop :=
  (∀ (q : Req) (s : State), s.runs 0x71 q = true →
      (4 ≤ q.n 0 ∨ kindRange (q.n 0) ≤ q.n 1 → ∃ t, exec (.fence q) s = .next t ∧ Answered t 0x71 q St.badParam [0] [] ∧ MemSame s t ∧
        RegsSame (fun a => counting a || a == R.SESS_STAT q.session.toNat) s t) ∧
      (∀ u, (q.n 0 = 0 ∧ q.n 1 < 1024 ∧ u = q.n 1 / 16) ∨ (q.n 0 = 1 ∧ q.n 1 < 64 ∧ u = q.n 1) → Busy s u → s.unitFenced (q.n 0) (q.n 1) = false →
        s.flag R.ENG_STATUS_HOLDING = false → s.splits.length < 256 → ∃ t, exec (.fence q) s = .next t ∧ Begun t 0x71 q ∧
            t.flag (fenceBit (q.n 0) (q.n 1)) = true ∧
          t.unitFenced (q.n 0) (q.n 1) = false ∧ MemSame s t ∧
          RegsSame (fun a => counting a || a == R.SESS_STAT q.session.toNat || a == R.ENG_STATUS || a == (fenceBit (q.n 0) (q.n 1)).addr) s t) ∧
      (q.n 0 = 3 → s.flag R.ENG_STATUS_HOLDING = false → q.n 1 < 64 → s.sntFenced (q.n 1) = false → s.fenceReq = [] → s.staged.length < 120 →
          s.splits.length < 256 →
        ∃ t, exec (.fence q) s = .next t ∧ Answered t 0x71 q St.accepted [] [] ∧ t.sntFenced (q.n 1) = true ∧
          t.rget R.FENCE_LAST = BitVec.ofNat 32 (65536 * q.n 1 + 16 + 3) ∧
          (∀ y ∈ t.splits, y.id ≠ s.ids) ∧ MemSame s t)) ∧
    (∀ (q : Req) (s : State) (l : Fin 12) (j : Fin 8), s.runs 0x71 q = true → q.n 0 = 2 → q.n 1 = 8 * l.val + j.val →
        s.flag R.ENG_STATUS_HOLDING = false →
      s.splits.length < 256 → (s.fencedLanes l).testBit j = false → s.linkState l = lkActive →
      ((∀ k ∈ (s.link l).good, k = j.val ∨ (s.fencedLanes l).testBit k = true) → ∃ t, exec (.fence q) s = .next t ∧ Answered t 0x71 q St.busy [0] [] ∧
        t.splits = s.splits ∧ MemSame s t ∧ RegsSame (fun a => counting a || a == R.SESS_STAT q.session.toNat) s t) ∧
      ((∃ k ∈ (s.link l).good, k ≠ j.val ∧ (s.fencedLanes l).testBit k = false) → Mild s (linkBase l) 2 → ∃ t, exec (.fence q) s = .next t ∧
        Begun t 0x71 q ∧ t.fencedLanes l = s.fencedLanes l ||| 2 ^ j.val ∧ t.linkState l = lkRetrain ∧ s.ids ∈ (t.link l).pendFence ∧ MemSame s t)) ∧
    (∀ (w : FenceWord) (s : State), ∃ t, exec (.fenceMaskWrite w (s.rget (fenceWord w).2.2)) s = .next t ∧ t.answer = St.ok.toNat ∧
      RegsSame (fun _ => false) s t ∧ MemSame s t) ∧
    (∀ (k : Fin 32) (v : Word) (s : State), s.rget (R.FENCE_CH k) = 0 → Busy s (2 * k.val) → Busy s (2 * k.val + 1) →
      ∃ t, exec (.fenceMaskWrite (.ch k) v) s = .next t ∧ t.answer = St.ok.toNat ∧ t.rget (R.FENCE_CH k) = v ∧
        RegsSame (fun a => a == R.FENCE_CH k) s t ∧ MemSame s t) ∧
    (∀ (ch : Fin 1024) (b : Bool) (s : State), (s.chan ch).retest ≠ 2 → exec (.channelRetestDone ch b) s = .next s) ∧
    (∀ (ch : Fin 1024) (s : State), (s.chan ch).retest = 2 → Busy s (ch / 16) → (0, ch.val) ∉ s.unfenceReq →
      (∃ t, exec (.channelRetestDone ch true) s = .next t ∧ (t.chan ch).retest = 0 ∧ (t.chan ch).inj = false ∧
        RegsSame (fun a => counting a || sessReg a) s t ∧ MemSame s t) ∧
      (s.chanFenced ch = false → s.staged.length < 120 → ∃ t, exec (.channelRetestDone ch false) s = .next t ∧ (t.chan ch).retest = 0 ∧
        t.chanFenced ch = true ∧ (t.chan ch).safe = true ∧
        t.rget R.FENCE_LAST = BitVec.ofNat 32 (65536 * ch.val + 16 * (if (s.chan ch).inj then 5 else 2)) ∧ MemSame s t))

/-- Core faults and retests, spare cores, the repair log, and the background memory test. With room in the moraine and no fault action that resets:
a source of sub-block 0 to 2 of a core that runs no tile and is not fenced makes a retest due and sets its REAL bit; in a core whose tile is in a
step beside another tile of its group it ends the tile's step with HW_FAULT and cause 5, and an error on the path that carries the results, or in
the site merge, triggers SF4 as source 6 of the safety block. An uncorrectable ECC error that playback meets is counted, and its word shown and
recorded as source 0 of the memory control block. A fenced core's source does nothing. A passed retest clears RETEST, shows RESULT 1, and a core
that no crossbar row connects is spare, or reserved. The check of a spare core that is due every 24 hours is recorded when it passes, and fences the
core when it fails; one that is not due does nothing. An uncorrectable error of the firn is counted, shown and kept until the word is written. A
corrected error is counted, and a second one of the same bit within 1 s places its region at the head of the test. In an idle period an entry that
waits for the repair log takes the next place. The test of a region, when it is due, advances the region, and counts a pass behind the last; a
defect with a free spare of its macro takes one, is counted and waits to be made permanent, which SOFT_REPAIR_PERSIST does in an idle period with an
entry that keeps the macro, the failing line and its spare. (16_self_repair.md R385, 16_self_repair.md R386, 16_self_repair.md R387,
16_self_repair.md R395, 14_memories.md R353, 14_memories.md R357, 14_memories.md R358) -/
def Obligations.CoresRepair : Prop :=
  (∀ (c : Fin 68) (x : CoreSource) (inj : Bool) (s : State), s.coreFenced c = true → exec (.coreFault c x inj) s = .next s) ∧
    (∀ (c : Fin 68) (x : CoreSource) (s : State), s.coreFenced c = false → x.src.val < 3 → s.flag (R.CORE_HEALTH_PERM c) = false → s.coreDue = [] →
      (x.src = 1 → x.merge = false) → Mild s (coreBase c) x.src → (x.src = 0 → Mild s 0xA0000 0) → (x.src = 1 → Mild s 0x60000 6) →
      (s.tileOfCore c = none → ∃ t, exec (.coreFault c x false) s = .next t ∧ t.flag (R.CORE_HEALTH_RETEST c) = true ∧ (c.val, false) ∈ t.coreDue ∧
        (t.rget (R.FLT_REAL (coreBase c))).getLsbD x.src = true ∧ MemSame s t ∧
        (x.src = 0 → s.fget R.MEM_ECC_UNC_COUNT < 2 ^ 32 - 1 → x.space % 256 ≠ 0x11 → x.space % 256 ≠ 0xF1 → x.off < 2 ^ 32 →
          t.fget R.MEM_ECC_UNC_COUNT = s.fget R.MEM_ECC_UNC_COUNT + 1 ∧ (t.rget R.MEM_ECC_LADDR).toNat = x.off / 8 * 8 ∧
          (t.rget (R.FLT_REAL 0xA0000)).getLsbD 0 = true) ∧
        RegsSame (fun a => inBlock (coreBase c) a || (x.src.val == 0 && inBlock 0xA0000 a) || counting a || recordReg a) s t) ∧
      (∀ (u v : Fin 64), s.tileOfCore c = some u.val → u ≠ v → Busy s u → (s.tile u).group ≠ 0 → (s.tile v).group = (s.tile u).group →
        s.stepState v = stRunning → s.soft = [] → s.fenceReq = [] → s.unfenceReq = [] →
        ∃ t, exec (.coreFault c x false) s = .next t ∧ t.stepState u = stEnded ∧ (t.tile u).endStatus = St.hwFault ∧
          t.fget (R.SEQ_STATUS_CAUSE u) = 5 ∧
          (x.src = 1 → (t.rget R.SF_STATUS).getLsbD 3 = true ∧ (t.rget (R.FLT_REAL 0x60000)).getLsbD 6 = true))) ∧
    (∀ (c : Fin 68) (u v : Fin 64) (x : CoreSource) (s : State), s.coreFenced c = false → x.src = 1 → x.merge = true → Mild s 0x60000 6 →
      s.tileOfCore c = some u.val → u ≠ v → Busy s u → (s.tile u).group ≠ 0 → (s.tile v).group = (s.tile u).group → s.stepState v = stRunning →
      s.soft = [] → s.fenceReq = [] → s.unfenceReq = [] → s.coreDue = [] →
      ∃ t, exec (.coreFault c x false) s = .next t ∧ t.stepState u = stEnded ∧ (t.tile u).endStatus = St.hwFault ∧
        t.fget (R.SEQ_STATUS_CAUSE u) = 5 ∧ (t.rget R.SF_STATUS).getLsbD 3 = true ∧ (t.rget (R.FLT_REAL 0x60000)).getLsbD 6 = true) ∧
    (∀ (c : Fin 68) (x : CoreSource) (inj : Bool) (s : State), x.src = 1 → x.merge = true → s.tileOfCore c = none →
      exec (.coreFault c x inj) s = .next s) ∧
    (∀ (c : Fin 68) (b : Bool) (s : State), s.flag (R.CORE_HEALTH_RETEST c) = false → exec (.coreRetestDone c b) s = .next s) ∧
    (∀ (c : Fin 68) (s : State), s.flag (R.CORE_HEALTH_RETEST c) = true → s.unfencing c = none → s.fget R.SR_CFG_TRANS_LIMIT = 0 →
      (∀ u, s.tileOfCore c = some u → Busy s u) → ∃ t, exec (.coreRetestDone c true) s = .next t ∧ t.flag (R.CORE_HEALTH_RETEST c) = false ∧
        t.fget (R.CORE_HEALTH_RESULT c) = 1 ∧ (∀ e ∈ t.coreDue, e.1 ≠ c.val) ∧ MemSame s t ∧
        (s.tileOfCore c = none → s.coreFenced c = false → t.isSpare c = true ∨ (s.reservedBy c).isSome = true ∨
          s.connected c = true)) ∧
    (∀ (c : Fin 68) (b : Bool) (s : State), s.isSpare c = false ∨ s.stage1 = true ∨ s.spareDue c = false → exec (.spareCoreCheck c b) s = .next s) ∧
    (∀ (c : Fin 68) (s : State), s.isSpare c = true → s.stage1 = false → s.spareDue c = true →
      (∃ t, exec (.spareCoreCheck c true) s = .next t ∧ t.spareDue c = false ∧ RegsSame (fun _ => false) s t ∧ MemSame s t) ∧
      (s.staged.length < 120 → ∃ t, exec (.spareCoreCheck c false) s = .next t ∧ t.coreFenced c = true ∧
        t.isSpare c = false ∧ t.rget R.FENCE_LAST = BitVec.ofNat 32 (65536 * c.val + 16 * 2 + 4) ∧ MemSame s t)) ∧
    (∀ (k u : Nat) (s : State), s.chipIdle = true → s.logDue = [(k, u)] → k = 0 ∨ k = 4 → u < 1024 →
      let n := s.fget R.SR_OTP_COUNT_USED
      n < 63 → ∃ t, exec .repairLogWrite s = .next t ∧ t.logDue = [] ∧ t.fget R.SR_OTP_COUNT_USED = n + 1 ∧
        t.rget (R.SR_OTP_W0 n) = BitVec.ofNat 32 (65536 * u + k + 1) ∧ t.rget (R.SR_OTP_W1 n) = s.rget R.MRN_HOURS ∧ MemSame s t ∧
        RegsSame (fun a => a == R.SR_OTP_COUNT || a == R.SR_OTP_W0 n || a == R.SR_OTP_W1 n) s t) ∧
    (∀ (s : State), s.chipIdle = false → exec .repairLogWrite s = .next s ∧ exec .softRepairPersist s = .next s) ∧
    (∀ (e : SoftRepair) (s : State), s.chipIdle = true → e.core = none → s.soft = [e] → s.fget R.REP_OTP_FIELD < 255 →
      ∃ t, exec .softRepairPersist s = .next t ∧ MemSame s t ∧ RegsSame (fun a => a == R.REP_OTP || a == R.REP_STATUS) s t ∧
        (e.injected = true → t.soft = s.soft ∧ t.repairs = s.repairs ∧ t.fget R.REP_OTP_FIELD = s.fget R.REP_OTP_FIELD) ∧
        (e.injected = false → t.soft = [] ∧ t.repairs = s.repairs ++ [e.rep] ∧ t.fget R.REP_OTP_FIELD = s.fget R.REP_OTP_FIELD + 1 ∧
          t.fget R.REP_STATUS_PEND = 0)) ∧
    (∀ (l : List Defect) (s : State), s.btRuns = false ∨ s.btDue = false → exec (.btRegionTest ⟨l, [], []⟩) s = .next s) ∧
    (∀ (off : Nat) (s : State), s.btRuns = false → off < 0x200000 → s.fget R.MEM_ECC_UNC_COUNT < 2 ^ 32 - 1 → Mild s 0xA0000 0 →
      ∃ t, exec (.btRegionTest ⟨[], [], [(0x10, off)]⟩) s = .next t ∧ t.fget R.MEM_ECC_UNC_COUNT = s.fget R.MEM_ECC_UNC_COUNT + 1 ∧
        t.rget R.MEM_ECC_LAST = 0x80000010 ∧ (t.rget R.MEM_ECC_LADDR).toNat = off / 8 * 8 ∧ (0x10, off / 8 * 8) ∈ t.eccReal ∧
        (t.rget (R.FLT_REAL 0xA0000)).getLsbD 0 = true ∧ MemSame s t ∧
        RegsSame (fun a => inBlock 0xA0000 a || counting a || recordReg a) s t) ∧
    (∀ (e : Nat × Nat) (s : State), s.btRuns = false → s.fget R.MEM_ECC_CORR_COUNT < 2 ^ 32 - 1 →
        ∃ t, exec (.btRegionTest ⟨[], [e], []⟩) s = .next t ∧
      t.fget R.MEM_ECC_CORR_COUNT = s.fget R.MEM_ECC_CORR_COUNT + 1 ∧ (e, s.now) ∈ t.corrections ∧
      ((∃ c ∈ s.corrections, c.1 = e ∧ s.now ≤ c.2 + 256000000000 * unitFs) → e.1 ∈ t.btHead) ∧
      RegsSame (fun a => counting a || a == R.MEM_ECC_CORR) s t ∧ MemSame s t) ∧
    (∀ (s : State), s.btRuns = true → s.btDue = true → s.btHead = [] → s.fget R.BT_STATUS_REGION < btRegions →
      (∃ t, exec (.btRegionTest ⟨[], [], []⟩) s = .next t ∧ t.btAt = some s.now ∧
        t.fget R.BT_STATUS_REGION = (if s.fget R.BT_STATUS_REGION + 1 = btRegions then 0 else s.fget R.BT_STATUS_REGION + 1) ∧
        (s.fget R.BT_STATUS_REGION + 1 = btRegions → s.fget R.BT_PASSES_COUNT < 2 ^ 32 - 1 →
          t.fget R.BT_PASSES_COUNT = s.fget R.BT_PASSES_COUNT + 1) ∧ MemSame s t ∧
        RegsSame (fun a => counting a || a == R.BT_STATUS || a == R.BT_PASSES) s t) ∧
      (∀ (d : Defect), btPlace s.btRegion btMemories = (d.place, d.unit) → s.btReaches d.place = true → (∀ c, d.place ≠ .core c) →
        s.spareFree d = true → s.fget R.BT_FAILS_COUNT < 2 ^ 32 - 1 →
        ∃ t n, exec (.btRegionTest ⟨[d], [], []⟩) s = .next t ∧ n < spareCount d.place d.unit d.column ∧
          (∀ r ∈ s.repairs ++ s.soft.map (fun e => e.rep), r.macro_ = macroOf d.place d.unit → r.column = d.column → r.spare ≠ n) ∧
          t.soft = s.soft ++ [⟨none, d.injected, ⟨macroOf d.place d.unit, d.column, d.line, n⟩⟩] ∧
          t.fget R.BT_FAILS_COUNT = s.fget R.BT_FAILS_COUNT + 1 ∧ t.fget R.REP_STATUS_PEND = min 511 (s.soft.length + 1) ∧ MemSame s t))

/-- CALVE reserves a spare core, the migration moves the tile to it. An accepted CALVE of a tile that is ACTIVE or STANDBY, not fenced and not yet
to be calved, naming a spare core or none, is ACCEPTED: the spare core is reserved, and the tile's map shows it as TARGET with PENDING. A target
that passes its check is marked checked; MIGRATION_START of an IDLE tile whose target is checked and which runs no other boundary action begins the
migration, else nothing. MIGRATION_COMPLETE with room in the moraine and no repair to persist gives the tile the target core, ends PENDING, records
the duration, and takes the old core away: fenced behind a permanent fault, to be retested otherwise. (16_self_repair.md R388, 16_self_repair.md
R390, 16_self_repair.md R391, 16_self_repair.md R393) -/
def Obligations.CalvingMoves : Prop :=
  (∀ (q : Req) (s : State) (c : Nat), s.runs 0x72 q = true → s.flag R.ENG_STATUS_HOLDING = false → q.n 0 < 2 ^ 15 → q.n 0 / 64 % 4 = 0 →
      let u := q.n 0 % 64
      let core := nbits (q.n 0) 14 8
      (core = 0x7F ∧ s.pickSpare none = some c) ∨ (64 ≤ core ∧ core ≤ 67 ∧ core = c ∧ s.isSpare c = true) → s.power u < 2 → s.splits.length < 256 →
      s.tileFenced u = false → (s.tile u).calv = none → ∃ t, exec (.calve q) s = .next t ∧ Begun t 0x72 q ∧ t.isSpare c = false ∧
        t.fget (R.TILE_MAP_TARGET u) = c ∧ t.flag (R.TILE_MAP_PENDING u) = true ∧ t.fget (R.TILE_MAP_CORE u) = s.fget (R.TILE_MAP_CORE u) ∧
            MemSame s t ∧
        RegsSame (fun a => counting a || a == R.SESS_STAT q.session.toNat || a == R.ENG_STATUS || a == R.TILE_MAP u || a == (spareFld c).addr ||
          a == R.SR_STATUS) s t) ∧
    (∀ (u : Fin 64) (s : State) (c : Calving), (s.tile u).calv = some c → c.checked = false → ∃ t, exec (.targetCheckDone u true) s = .next t ∧
      (t.tile u).calv = some { c with checked := true } ∧ RegsSame (fun _ => false) s t ∧ MemSame s t) ∧
    (∀ (u : Fin 64) (b : Bool) (s : State), (s.tile u).calv = none → exec (.targetCheckDone u b) s = .next s) ∧
    (∀ (u : Fin 64) (s : State) (c : Calving), (s.tile u).calv = some c → c.checked = true → c.moving = false → s.idle u = true → s.acting u = false →
      ∃ t, exec (.migrationStart u) s = .next t ∧ (t.tile u).calv = some { c with moving := true } ∧ t.flag R.SR_STATUS_MIGRATING = true ∧
        RegsSame (fun a => a == R.SR_STATUS) s t ∧ MemSame s t) ∧
    (∀ (u : Fin 64) (s : State), s.idle u = false ∨ s.acting u = true → exec (.migrationStart u) s = .next s) ∧
    (∀ (u : Fin 64) (ns : Word) (s : State) (c : Calving), (s.tile u).calv = some c → c.moving = true → s.soft = [] → s.staged.length < 120 →
      let old := s.fget (R.TILE_MAP_CORE u)
      let new := s.fget (R.TILE_MAP_TARGET u)
      ∃ t, exec (.migrationComplete u ns) s = .next t ∧ t.fget (R.TILE_MAP_CORE u) = new ∧ t.flag (R.TILE_MAP_PENDING u) = false ∧
        (t.tile u).calv = none ∧ (t.tile u).deskew = true ∧ t.rget R.SR_MIG_TIME = ns ∧
        t.rget R.SR_MIG_LAST = BitVec.ofNat 32 (65536 * new + 256 * old + u) ∧
        (c.permanent = true → old < 68 → t.coreFenced old = true) ∧
        (c.permanent = false → t.flag (R.CORE_HEALTH_RETEST old) = true ∧ (old, false) ∈ t.coreDue) ∧ MemSame s t) ∧
    (∀ (u : Fin 64) (ns : Word) (s : State), (∀ c, (s.tile u).calv = some c → c.moving = false) → exec (.migrationComplete u ns) s = .next s)

/-- POWER_STATE asks, a transition arrives, a scheduled thaw begins. An accepted unscheduled POWER_STATE whose reserved bits are 0, of one tile that
is not fenced, has no request and nothing due, is ACCEPTED; in an IDLE tile with no boundary action or calving the transition to another state
begins at once. A transition between ACTIVE and STANDBY that has begun brings the tile to its target and, where its command waits for no other tile,
completes it OK; one to OFF loses the tile's stores. SCHEDULED_THAW, once the wake time before its instant is reached, begins a transition to
ACTIVE. With nothing begun, scheduled or due neither does anything. (17_power_thermal.md R400, 17_power_thermal.md R401, 17_power_thermal.md R397,
17_power_thermal.md R398) -/
def Obligations.PowerStates : Prop :=
  (∀ (q : Req) (s : State) (u : Nat), s.runs 0x76 q = true → s.flag R.ENG_STATUS_HOLDING = false → q.n 2 < 4 → q.tiles 0 = [u] →
      s.tileFenced u = false → s.splits.length < 256 →
      s.flag (R.TILE_PWR_SCHED u) = false → Calm s u →
      (Busy s u → ∃ t, exec (.powerState q) s = .next t ∧ Begun t 0x76 q ∧ t.fget (R.TILE_PWR_TARGET u) = q.n 2 ∧
        t.flag (R.TILE_PWR_BUSY u) = false ∧ t.power u = s.power u ∧ MemSame s t) ∧
      (s.idle u = true → s.acting u = false → (s.tile u).calv = none → q.n 2 ≠ s.power u → (∀ y ∈ s.splits, y.id ≠ s.ids) →
        ∃ t, exec (.powerState q) s = .next t ∧ Begun t 0x76 q ∧ t.fget (R.TILE_PWR_TARGET u) = q.n 2 ∧
          t.flag (R.TILE_PWR_BUSY u) = true ∧ t.power u = s.power u ∧ MemSame s t)) ∧
    (∀ (u : Fin 64) (b : Bool) (s : State) (r : PwrReq), (s.tile u).pwr = [r] → r.started = true → r.sched = none → r.target < 2 → s.power u < 2 →
      (s.tile u).thaw = none → Calm (s.modTile u fun c => { c with pwr := [] }) u →
      ∃ t, exec (.powerTransitionDone u b) s = .next t ∧ t.power u = r.target ∧ (t.tile u).pwr = [] ∧ t.flag (R.TILE_PWR_BUSY u) = false ∧
        MemSame s t ∧ ∀ x, r.op = some x.id → s.splitOf x.id = some x → x.aux = [u.val] → x.stage = 0 → Over t x ∧ Completed t x St.ok) ∧
    (∀ (u : Fin 64) (b : Bool) (s : State) (r : PwrReq), (s.tile u).pwr = [r] → r.started = true → r.sched = none → r.target = 3 →
      s.power u < 2 → s.bundleOf u = none → Calm (s.modTile u fun c => { c with pwr := [] }) u →
      ∃ t, exec (.powerTransitionDone u b) s = .next t ∧ t.power u = 3 ∧ (t.tile u).pwr = [] ∧
        ∀ k off, 1 ≤ k → k ≤ 6 → off < 2 ^ 23 → t.mget k u off = unwritten (memKey k u off)) ∧
    (∀ (u : Fin 64) (b : Bool) (s : State), (∀ r ∈ (s.tile u).pwr, r.started = false) → exec (.powerTransitionDone u b) s = .next s) ∧
    (∀ (u : Fin 64) (s : State), s.flag (R.TILE_PWR_SCHED u) = true → s.thawDue u = true → ∃ t, exec (.scheduledThaw u) s = .next t ∧
      (t.tile u).pwr = [{ target := 0, started := true }] ∧ (t.tile u).thaw = (s.tile u).thaw ∧ t.flag (R.TILE_PWR_SCHED u) = false ∧
      t.flag (R.TILE_PWR_BUSY u) = true ∧ t.fget (R.TILE_PWR_TARGET u) = 0 ∧ MemSame s t ∧
      RegsSame (fun a => a == R.TILE_PWR u || a == R.TILE_THAW_LO u || a == R.TILE_THAW_HI u) s t) ∧
    (∀ (u : Fin 64) (s : State), s.flag (R.TILE_PWR_SCHED u) = false ∨ s.thawDue u = false → exec (.scheduledThaw u) s = .next s)

/-- Thermal samples, SF3, its release, and throttle evaluations complete. With no sensor failed and no history, a sample at which every sensor
agrees with its neighbours shows each reading in its THS_READ and the highest in TJ_MAX; at most 115 °C the front ends keep their power, and above,
with no step held and the fault record possible, SF3 triggers. SF3_RELEASE powers the front ends up again once every sensor reads below 100 °C, no
injected excess is held and SF3 is clear, else nothing. A throttle evaluation writes PWR_MEAS (with no step held and no fault action that resets,
whatever the level); one at which the rise condition has held for more than THR_CFG.RISE evaluations raises a level below 7 by one, with the hottest
sensor as the hot region; one at which no condition holds leaves the level. (17_power_thermal.md R404, 17_power_thermal.md R407, 17_power_thermal.md
R408, 15_safety_faults.md R365) -/
def Obligations.SensorsAndThrottle : Prop :=
  (∀ (l : List Int) (v : Int) (s : State), (∀ n, n < 152 → -32768 ≤ l.getD n 0 ∧ l.getD n 0 ≤ v ∧ v < 32768) → (∃ n, n < 152 ∧ l.getD n 0 = v) →
      s.therm.hist = [] → s.therm.steep = [] →
      (∀ n, n < 152 → s.sensorFailed n = false ∧ (s.sense l 0 n).disagree = false ∧ (s.sense l 0 n).declared = false) →
      (v ≤ 920 → ∃ t, exec (.thermalSample l) s = .next t ∧ (∀ n, n < 152 → signed 16 (t.fget (R.THS_READ_TEMP n)) = l.getD n 0) ∧
        signed 16 (t.fget R.TJ_MAX_TEMP) = v ∧ t.flag R.SF_STATUS_FE_OFF = s.flag R.SF_STATUS_FE_OFF ∧ t.rget R.SF_STATUS = s.rget R.SF_STATUS ∧
            MemSame s t) ∧
      (920 < v → s.holdsStep = false → (∀ u, u < 64 → s.ending u = false) → (0x60000, 3, 0xFFFF) ∉ s.held → Mild s 0x60000 3 →
        ∃ t, exec (.thermalSample l) s = .next t ∧ (∀ n, n < 152 → signed 16 (t.fget (R.THS_READ_TEMP n)) = l.getD n 0) ∧
          signed 16 (t.fget R.TJ_MAX_TEMP) = v ∧ t.flag R.SF_STATUS_FE_OFF = true ∧
          (t.rget R.SF_STATUS).getLsbD 2 = true ∧ (t.rget (R.FLT_REAL 0x60000)).getLsbD 3 = true ∧
          (∀ ch, ch < 1024 → (t.chan ch).safe = true) ∧ MemSame s t)) ∧
    (∀ (s : State), (∀ n, n < 152 → signed 16 (s.fget (R.THS_READ_TEMP n)) < 800) → (s.rget R.SF_STATUS).getLsbD 2 = false →
        (0x60000, 3, 0) ∉ s.injHeld →
      ∃ t, exec .sf3Release s = .next t ∧ t.flag R.SF_STATUS_FE_OFF = false ∧ RegsSame (fun a => a == R.SF_STATUS) s t ∧ MemSame s t) ∧
    (∀ (s : State), (∃ n, n < 152 ∧ 800 ≤ signed 16 (s.fget (R.THS_READ_TEMP n))) ∨ (s.rget R.SF_STATUS).getLsbD 2 = true ∨
        (0x60000, 3, 0) ∈ s.injHeld → exec .sf3Release s = .next s) ∧
    (∀ (mw : Word) (s : State), s.holdsStep = false → Mild s 0x70000 2 → ∃ t, exec (.throttleEvaluation mw) s = .next t ∧ t.rget R.PWR_MEAS = mw ∧
      MemSame s t) ∧
    (∀ (mw : Word) (s : State),
      let level := s.fget R.THR_STATUS_LEVEL
      let up := (8 * (s.fget R.THR_CFG_START : Int) ≤ signed 16 (s.fget R.TJ_MAX_TEMP)) ∨ s.flag R.THR_STATUS_RATE_WARN = true ∨
        s.overCap mw.toNat level = true
      (up → s.fget R.THR_CFG_RISE ≤ s.therm.rise → level < 7 → s.staged.length < 120 → ∃ t, exec (.throttleEvaluation mw) s = .next t ∧
        t.rget R.PWR_MEAS = mw ∧ t.fget R.THR_STATUS_LEVEL = level + 1 ∧ t.fget R.THR_STATUS_HOT = s.fget R.TJ_MAX_SENSOR ∧ MemSame s t) ∧
      (up → s.therm.rise < s.fget R.THR_CFG_RISE → s.releases mw.toNat = false → ∃ t, exec (.throttleEvaluation mw) s = .next t ∧
        t.rget R.PWR_MEAS = mw ∧ t.fget R.THR_STATUS_LEVEL = level ∧ t.therm.rise = s.therm.rise + 1 ∧ MemSame s t ∧
        RegsSame (fun a => counting a || a == R.PWR_MEAS || a == R.THR_STATUS) s t) ∧
      (¬up → s.releases mw.toNat = false → ∃ t, exec (.throttleEvaluation mw) s = .next t ∧ t.rget R.PWR_MEAS = mw ∧
        t.fget R.THR_STATUS_LEVEL = level ∧ t.therm.rise = 0 ∧ t.therm.fall = 0 ∧ MemSame s t ∧
        RegsSame (fun a => counting a || a == R.PWR_MEAS || a == R.THR_STATUS) s t) ∧
      (¬up → s.releases mw.toNat = true → 10 * s.fget R.THR_CFG_FALL ≤ s.therm.fall → s.staged.length < 120 →
        ∃ t, exec (.throttleEvaluation mw) s = .next t ∧ t.fget R.THR_STATUS_LEVEL = level - 1 ∧ MemSame s t))

/-- Supply excursions are recorded and a long one stops the steps. An excursion of a monitored rail that begins sets the rail's two bits of
SUP_STATUS and is counted; one that ends, with room in the moraine and no fault action that resets, clears the first of them, leaves its length in
SUP_LAST_LEN and sets source 3 of the power block. A controlled stop of an excursion that lasts longer than 20 us, with no step held, sets source 4.
Without an excursion the last two do nothing. Where no record is in reach of the SUSPECT interval, memory is as before. (17_power_thermal.md R411,
17_power_thermal.md R412, 17_power_thermal.md R413) -/
def Obligations.SuppliesWatched : Prop :=
  (∀ (r : Fin 8) (s : State), s.excursion r = none → s.monitored r = true → s.fget R.SUP_EXC_COUNT < 2 ^ 32 - 1 →
      ∃ t, exec (.supplyExcursionBegin r) s = .next t ∧ ((∀ u, u < 64 → (s.tile u).cap.recent = []) → MemSame s t) ∧ t.excursion r = some s.now ∧
          t.fget R.SUP_EXC_COUNT = s.fget R.SUP_EXC_COUNT + 1 ∧
        (t.fget R.SUP_STATUS_OUT).testBit r = true ∧ (t.fget R.SUP_STATUS_SEEN).testBit r = true) ∧
    (∀ (r : Fin 8) (s : State), (s.excursion r).isSome = true ∨ s.monitored r = false → exec (.supplyExcursionBegin r) s = .next s) ∧
    (∀ (r : Fin 8) (ns : Word) (s : State) (b : Int), s.excursion r = some b → Mild s 0x70000 3 → ∃ t, exec (.supplyExcursionEnd r ns) s = .next t ∧
      t.excursion r = none ∧ (t.fget R.SUP_STATUS_OUT).testBit r = false ∧ t.rget R.SUP_LAST_LEN = ns ∧
      (t.rget (R.FLT_REAL 0x70000)).getLsbD 3 = true ∧ MemSame s t ∧
      RegsSame (fun a => inBlock 0x70000 a || counting a || sessReg a || recordReg a) s t) ∧
    (∀ (r : Fin 8) (b : Int) (s : State), s.excursion r = some b → s.longExcursion b = false → exec (.controlledStop r) s = .next s) ∧
    (∀ (r : Fin 8) (b : Int) (s : State), s.excursion r = some b → s.longExcursion b = true → r.val ∉ s.supStop → s.holdsStep = false →
        Mild s 0x70000 4 →
      ∃ t, exec (.controlledStop r) s = .next t ∧ r.val ∈ t.supStop ∧ (t.rget (R.FLT_REAL 0x70000)).getLsbD 4 = true ∧ MemSame s t ∧
        RegsSame (fun a => inBlock 0x70000 a || counting a || recordReg a) s t) ∧
    (∀ (r : Fin 8) (ns : Word) (s : State), s.excursion r = none → exec (.supplyExcursionEnd r ns) s = .next s ∧ exec (.controlledStop r) s = .next s)

/-- The moraine is flushed, cleared and read. A flush that succeeds, with no lost record to note, leaves nothing staged; one that fails, with its
fault record possible, sets FLASHERR; while boundary scan holds the balls or the flash is busy none is made. MRN_FLUSH shows FLUSHING. MRN_CLEAR of
a session without the privilege is DENIED and changes nothing; with it, the CLEARED record is the oldest circulating one. A write to the cursor
starts a load for its context; a load that ends shows the record and its validity, or why it is absent; a read of the last window word advances the
cursor with AUTOINC. HOURS advances by one at each tick. (18_moraine_counters.md R417, 18_moraine_counters.md R420, 18_moraine_counters.md R421,
18_moraine_counters.md R422) -/
def Obligations.MoraineKeeps : Prop :=
  (∀ (b : Bool) (s : State),
      (∀ busy, s.bscan = true ∨ busy = true → exec (.moraineFlush ⟨b, busy⟩) s = .next s) ∧
      (s.bscan = false → s.mrnLost = 0 → ∃ t, exec (.moraineFlush ⟨true, false⟩) s = .next t ∧ t.staged = [] ∧ t.mrn = s.mrn ∧
          t.fget R.MRN_STATUS_STAGED = 0 ∧
        t.flag R.MRN_STATUS_FLUSHING = false ∧ RegsSame (fun a => a == R.MRN_STATUS) s t ∧ MemSame s t) ∧
      (s.bscan = false → Mild s 0x80000 2 → ∃ t, exec (.moraineFlush ⟨false, false⟩) s = .next t ∧ t.flag R.MRN_STATUS_FLASHERR = true ∧
        (t.rget (R.FLT_REAL 0x80000)).getLsbD 2 = true ∧ (∀ e ∈ s.staged, e ∈ t.staged) ∧ MemSame s t)) ∧
    (∀ (s : State), ∃ t, exec .mrnFlush s = .next t ∧ t.flag R.MRN_STATUS_FLUSHING = true ∧ t.answer = St.ok.toNat ∧
      RegsSame (fun a => a == R.MRN_STATUS) s t ∧ MemSame s t) ∧
    (∀ (k : BitVec 5) (s : State),
      (s.sessOpen k.toNat = false ∨ s.fget (R.SESS_STAT_PRIV k.toNat) < s.clearPriv → ∃ t, exec (.mrnClear k) s = .next t ∧
          t.answer = St.denied.toNat ∧
        t.mrn = s.mrn ∧ RegsSame (fun _ => false) s t ∧ MemSame s t) ∧
      (s.sessOpen k.toNat = true → s.clearPriv ≤ s.fget (R.SESS_STAT_PRIV k.toNat) → s.staged.length < 120 → 512 ≤ s.fget R.MRN_SEQ_SEQ →
        s.fget R.MRN_SEQ_SEQ < 2 ^ 32 - 1 → ∃ t, exec (.mrnClear k) s = .next t ∧ t.answer = St.ok.toNat ∧
          t.fget R.MRN_OLDEST_SEQ = s.fget R.MRN_SEQ_SEQ ∧ t.fget R.MRN_SEQ_SEQ = s.fget R.MRN_SEQ_SEQ + 1 ∧ t.mrnClear = s.fget R.MRN_SEQ_SEQ ∧
              MemSame s t ∧
          RegsSame (fun a => counting a || sessReg a || recordReg a) s t)) ∧
    (∀ (c : Fin 33) (v : Word) (s : State), ∃ t, exec (.mrnCursorWrite c v) s = .next t ∧ t.answer = St.ok.toNat ∧ (t.ctx c).cursor = v ∧
      (t.ctx c).rstat.getLsbD 3 = true ∧ (∀ k, k ≠ c.val → t.ctx k = s.ctx k) ∧ RegsSame (fun _ => false) s t ∧ MemSame s t) ∧
    (∀ (c : Fin 33) (b : Bool) (s : State),
      let x := s.ctx c
      let keep := x.rstat &&& 0x100
      (x.rstat.getLsbD 3 = false → exec (.mrnLoadDone c b) s = .next s) ∧
      (x.rstat.getLsbD 3 = true → Store.get (fun _ => none) s.mrn x.cursor.toNat = none → ∃ t, exec (.mrnLoadDone c b) s = .next t ∧
        (t.ctx c).rstat = keep ||| BitVec.ofNat 32 (16 * s.absence x.cursor.toNat) ∧ (t.ctx c).win = List.replicate 16 0 ∧
        RegsSame (fun _ => false) s t ∧ MemSame s t) ∧
      ∀ r, x.rstat.getLsbD 3 = true → Store.get (fun _ => none) s.mrn x.cursor.toNat = some r → (b = false → Mild s 0x80000 0) →
        ∃ t, exec (.mrnLoadDone c b) s = .next t ∧ (t.ctx c).win = wordsOf (mrnBytes x.cursor.toNat r) ∧
          (t.ctx c).rstat = keep ||| BitVec.ofNat 32 (1 + 2 * b.toNat + 4 * (s.staged.contains x.cursor.toNat).toNat) ∧ MemSame s t ∧
          (b = true → RegsSame (fun _ => false) s t) ∧ (b = false → t.flag R.MRN_STATUS_AUTHFAIL = true)) ∧
    (∀ (c : Fin 33) (s : State),
      ((s.ctx c).rstat.getLsbD 8 = true → (s.ctx c).rstat.getLsbD 3 = false → ∃ t, exec (.mrnWin15Read c) s = .next t ∧
        (t.ctx c).cursor = (s.ctx c).cursor + 1 ∧ (t.ctx c).rstat.getLsbD 3 = true ∧ RegsSame (fun _ => false) s t ∧ MemSame s t) ∧
      ((s.ctx c).rstat.getLsbD 8 = false ∨ (s.ctx c).rstat.getLsbD 3 = true → exec (.mrnWin15Read c) s = .next s)) ∧
    (∀ (s : State), ∃ t, exec .operatingTimeTick s = .next t ∧ t.rget R.MRN_HOURS = s.rget R.MRN_HOURS + 1 ∧ MemSame s t)

/-- Counter latches, frost snapshots and the fatal-error dump. A read of a counter's low word latches its high bits for the reader. An accepted
FROST at once takes the snapshot, freezes the programmable counters and is answered OK; one at a valid time at least 2 µs ahead is ACCEPTED and
PENDING, and FROST_SNAPSHOT at that time, not before, takes the snapshot and completes it OK. CNT_RESUME ends the freeze. A dump written to the
firn, with room in the moraine and no fault action that resets, is HELD and its copy begins, or, behind an uncorrectable error in its region, is
only copied; a finished copy is valid in flash; DUMP_RELEASE is BUSY while the copy runs and otherwise lets go of the dump. An accepted DUMP_READ
returns the bytes of a dump that is held, or valid in flash. (18_moraine_counters.md R423, 18_moraine_counters.md R427, 18_moraine_counters.md R428,
18_moraine_counters.md R429, 18_moraine_counters.md R430, 18_moraine_counters.md R431) -/
def Obligations.CountersAndDumps : Prop :=
  (∀ (c : Fin 33) (n : Fin 384) (s : State), ∃ t u, exec (.evcLoRead c n false) s = .next t ∧ exec (.evcLoRead c n true) s = .next u ∧
      Store.get (fun _ => 0) (t.ctx c).evcHi n.val = BitVec.ofNat 32 (s.evcOf false n / 2 ^ 32) ∧
      Store.get (fun _ => 0) (u.ctx c).evsHi n.val = BitVec.ofNat 32 (s.evcOf true n / 2 ^ 32) ∧
      RegsSame (fun _ => false) s t ∧ RegsSame (fun _ => false) s u ∧ MemSame s t ∧ MemSame s u) ∧
    (∀ (s : State), ∃ t, exec .cntResume s = .next t ∧ t.flag R.CNT_CFG_FROZEN = false ∧ t.answer = St.ok.toNat ∧
      RegsSame (fun a => a == R.CNT_CFG) s t ∧ MemSame s t) ∧
    (∀ (q : Req) (s : State), s.runs 0x75 q = true →
      let r := s.routine
      let edge := s.refEdge (q.n 1 + 2 ^ 32 * q.n 2)
      (q.n 0 = 0 → ∃ t, exec (.frost q) s = .next t ∧ Answered t 0x75 q St.ok [] [] ∧ t.evs = r.evc ∧
        (∀ m, m < 64 → t.rget (R.PCNT_SNAP m) = r.rget (R.PCNT_VAL m)) ∧ t.pair R.FROST_TIME_LO R.FROST_TIME_HI = s.sysTime.toNat ∧
        t.flag R.CNT_CFG_FROZEN = true ∧ t.flag R.FROST_STATUS_VALID = true ∧ MemSame s t) ∧
      (q.n 0 = 1 → s.flag R.TIME_STATUS_VALID = true → s.sysTime.toNat + 512000 ≤ edge → s.flag R.FROST_STATUS_PENDING = false →
        s.flag R.ENG_STATUS_HOLDING = false → s.splits.length < 256 → ∃ t, exec (.frost q) s = .next t ∧ Begun t 0x75 q ∧
            t.flag R.FROST_STATUS_PENDING = true ∧ t.evs = s.evs ∧ MemSame s t)) ∧
    (∀ (s : State) (x : Split), s.splits.find? (fun (x : Split) => x.opcode == 0x75) = some x →
      (s.sysTime.toNat < x.aux.headD 0 → exec .frostSnapshot s = .next s) ∧
      (x.aux.headD 0 ≤ s.sysTime.toNat → ∃ t, exec .frostSnapshot s = .next t ∧ Over t x ∧ Completed t x St.ok ∧ t.evs = s.evc ∧
          t.pair R.FROST_TIME_LO R.FROST_TIME_HI = x.aux.headD 0 ∧
        t.flag R.FROST_STATUS_PENDING = false ∧ (∀ m, m < 64 → t.rget (R.PCNT_SNAP m) = s.rget (R.PCNT_VAL m)) ∧ MemSame s t)) ∧
    (∀ (s : State), s.splits.find? (fun (x : Split) => x.opcode == 0x75) = none → exec .frostSnapshot s = .next s) ∧
    (∀ (s : State) (d : Dump), s.dumping = some d → d.flashOnly = false → d.cause ≤ 16 → s.staged.length < 120 → (∀ k, k < 4 → d.cause = k + 1 →
        Mild s 0x40000 k) →
      ∃ t, exec .dumpFirnWriteDone s = .next t ∧ t.dumping = none ∧ t.dump = some d ∧ t.flag R.DUMP_STATUS_HELD = true ∧
        t.flag R.DUMP_STATUS_COPYING = true ∧ t.flag R.DUMP_STATUS_FLASHVALID = false ∧ t.fget R.DUMP_STATUS_CAUSE = d.cause ∧
        t.rget R.DUMP_LEN = BitVec.ofNat 32 d.length ∧ MemSame s t) ∧
    (∀ (s : State) (d : Dump), s.dumping = some d → d.flashOnly = true → (∀ k, k < 4 → d.cause = k + 1 → Mild s 0x40000 k) →
      ∃ t, exec .dumpFirnWriteDone s = .next t ∧ t.dumping = none ∧ t.flag R.DUMP_STATUS_HELD = s.flag R.DUMP_STATUS_HELD ∧
        t.flag R.DUMP_STATUS_COPYING = true ∧ MemSame s t) ∧
    (∀ (s : State) (d : Dump), s.flag R.DUMP_STATUS_COPYING = true → s.dump = some d → s.staged.length < 120 →
      ∃ t, exec .dumpFlashCopyDone s = .next t ∧ t.dumpFlash = some d ∧ t.dump = some d ∧ t.flag R.DUMP_STATUS_COPYING = false ∧
        t.flag R.DUMP_STATUS_FLASHVALID = true ∧ MemSame s t) ∧
    (∀ (s : State), s.flag R.DUMP_STATUS_COPYING = false → exec .dumpFlashCopyDone s = .next s) ∧
    (∀ (s : State), ∃ t, exec .dumpRelease s = .next t ∧ RegsSame (fun a => a == R.DUMP_STATUS) s t ∧ MemSame s t ∧
      (s.flag R.DUMP_STATUS_COPYING = true → t.answer = St.busy.toNat ∧ t.dump = s.dump ∧ t.rget R.DUMP_STATUS = s.rget R.DUMP_STATUS) ∧
      (s.flag R.DUMP_STATUS_COPYING = false → t.answer = St.ok.toNat ∧ t.dump = none ∧ t.flag R.DUMP_STATUS_HELD = false)) ∧
    (∀ (q : Req) (s : State) (d : Dump), s.runs 0x74 q = true → 1 ≤ q.n 2 → q.n 2 ≤ 65536 →
      (q.n 0 = 0 ∧ s.flag R.DUMP_STATUS_HELD = true ∧ s.dump = some d) ∨
        (q.n 0 = 1 ∧ s.flag R.DUMP_STATUS_COPYING = false ∧ s.flag R.DUMP_STATUS_FLASHVALID = true ∧ s.dumpFlash = some d) →
      let n := min (q.n 2) (d.length - q.n 1)
      ∃ t, exec (.dumpRead q) s = .next t ∧ MemSame s t ∧ RegsSame (fun a => counting a || a == R.SESS_STAT q.session.toNat) s t ∧
        (q.n 1 < d.length → Answered t 0x74 q (if n = q.n 2 then St.ok else St.part) [BitVec.ofNat 32 n]
          ((List.range n).map fun i => dumpAt d (q.n 1 + i))) ∧
        (d.length ≤ q.n 1 → Answered t 0x74 q St.badAddress [0] []))

/-- Frames and commands of the Veing chain. MSEL asserted offers the response that waits, with its CRC. A frame of at least 32 edges whose CRC
matches, outside boundary scan and with no response to shift out, latches its command where none is executing; with a wrong CRC it is counted as a
frame error of cause 2, a shorter one of cause 1 (with their fault record possible). Each command that may execute gives its response with its own
RSTAT, sequence number and data, and leaves no command in execution: NOP the status, ADDR_LO and ADDR_HI their half of VA, WDATA_LO the low half of
the next write, RDHI the high half of the last read, SETADDR the old address with the new one to follow, RESET with its key, and an undefined code
BADCMD. WRITE and READ wait for the routine boundary; there a refused access changes no register but the port's, a write stores into the register of
the chip block that it names, and a read returns the word. (19_management_ports.md R435, 19_management_ports.md R437, 19_management_ports.md R438,
19_management_ports.md R439, 19_management_ports.md R441, 19_management_ports.md R442, 19_management_ports.md R443) -/
def Obligations.VeingCommands : Prop :=
  (let ends (s t : State) (rstat : Nat) (seq : BitVec 4) (data : Nat) : Prop := t.veing.cmd = none ∧ t.flag R.VG_STAT_BUSY = false ∧
        t.veing.resp = s.sealVeing (BitVec.ofNat 32 (rstat * 2 ^ 28 + seq.toNat * 2 ^ 24 + data % 65536 * 256)) ∧ MemSame s t
    ∀ (s : State),
      (∃ t, exec .mselAssert s = .next t ∧ t.veing.sel = true ∧ t.flag R.VG_STAT_ACTIVE = true ∧ (s.veing.cmd = none →
          t.veing.offered = s.sealVeing s.veing.resp) ∧
        RegsSame (fun a => a == R.VG_STAT) s t ∧ MemSame s t) ∧
      (∀ n w, s.veing.sel = false → exec (.veingFrame n w) s = .next s) ∧
      (∀ n w, s.veing.sel = true → 32 ≤ n → s.bscan = false → s.veing.fresh = false → (s.veingCrc w).toNat = field w 7 0 → s.veing.cmd = none →
        s.fget R.VG_LATCHED_COUNT < 2 ^ 32 - 1 → ∃ t, exec (.veingFrame n w) s = .next t ∧ t.veing.sel = false ∧
          t.veing.cmd = some (field w 31 28, field w 27 24, field w 23 8) ∧ t.flag R.VG_STAT_BUSY = true ∧
          t.fget R.VG_LATCHED_COUNT = s.fget R.VG_LATCHED_COUNT + 1 ∧ RegsSame (fun a => a == R.VG_STAT || a == R.VG_LATCHED) s t ∧ MemSame s t) ∧
      (∀ n w, s.veing.sel = true → s.veing.fresh = false → Mild s 0x90000 0 → (n < 32 ∨ (s.bscan = false ∧ (s.veingCrc w).toNat ≠ field w 7 0)) →
        s.fget R.VG_FERR_COUNT < 2 ^ 32 - 1 → ∃ t, exec (.veingFrame n w) s = .next t ∧ t.fget R.VG_FERR_COUNT = s.fget R.VG_FERR_COUNT + 1 ∧
          t.fget R.VG_STAT_FCAUSE = (if n < 32 then 1 else 2) ∧ t.veing.cmd = s.veing.cmd ∧ MemSame s t) ∧
      (∀ seq, s.veingFree 0 seq.toNat = true → ∃ t, exec (.veingNop seq) s = .next t ∧ ends s t 0 seq (s.rget R.VG_STAT).toNat ∧
        RegsSame (fun a => a == R.VG_STAT) s t) ∧
      (∀ seq d, s.veingFree 1 seq.toNat (some d.toNat) = true → ∃ t, exec (.addrLo seq d) s = .next t ∧ ends s t 0 seq d.toNat ∧
        (t.rget R.VG_VA).setWidth 16 = d ∧ t.rget R.VG_VA >>> 16 = s.rget R.VG_VA >>> 16 ∧ RegsSame (fun a => a == R.VG_STAT || a == R.VG_VA) s t) ∧
      (∀ seq d, s.veingFree 2 seq.toNat (some d.toNat) = true → ∃ t, exec (.addrHi seq d) s = .next t ∧ ends s t 0 seq d.toNat ∧
        (t.rget R.VG_VA >>> 16).setWidth 16 = d ∧ (t.rget R.VG_VA).setWidth 16 = (s.rget R.VG_VA).setWidth 16 ∧
        RegsSame (fun a => a == R.VG_STAT || a == R.VG_VA) s t) ∧
      (∀ seq d, s.veingFree 3 seq.toNat (some d.toNat) = true → ∃ t, exec (.wdataLo seq d) s = .next t ∧ ends s t 0 seq d.toNat ∧ t.veing.wh = d ∧
        RegsSame (fun a => a == R.VG_STAT) s t) ∧
      (∀ seq d, s.veingFree 4 seq.toNat (some d.toNat) = true → ∃ t, exec (.veingWrite seq d) s = .next t ∧
          t.veing.cmd = some (4, seq.toNat, d.toNat) ∧
        t.flag R.VG_STAT_BUSY = true ∧ RegsSame (fun a => a == R.VG_STAT) s t ∧ MemSame s t) ∧
      (∀ seq, s.veingFree 5 seq.toNat = true → ∃ t, exec (.veingRead seq) s = .next t ∧ t.veing.cmd = some (5, seq.toNat, 0) ∧
        t.flag R.VG_STAT_BUSY = true ∧ RegsSame (fun a => a == R.VG_STAT) s t ∧ MemSame s t) ∧
      (∀ seq, s.veingFree 6 seq.toNat = true → ∃ t, exec (.rdhi seq) s = .next t ∧ ends s t 0 seq s.veing.rh.toNat ∧
          RegsSame (fun a => a == R.VG_STAT) s t) ∧
      (∀ seq d, s.veingFree 7 seq.toNat (some d.toNat) = true → ∃ t, exec (.setaddr seq d) s = .next t ∧
        ends s t (if d.toNat < 256 then 0 else 1) seq (s.fget R.VG_CFG_ADDR) ∧ t.veing.addr = (if d.toNat < 256 then some d.toNat else s.veing.addr) ∧
        RegsSame (fun a => a == R.VG_STAT) s t) ∧
      (∀ seq d, s.veingFree 8 seq.toNat (some d.toNat) = true → ∃ t, exec (.veingReset seq d) s = .next t ∧
          ends s t (if d = 0xA5C3 then 0 else 1) seq 0 ∧
        t.veing.reset = (if d = 0xA5C3 then true else s.veing.reset) ∧ RegsSame (fun a => a == R.VG_STAT) s t) ∧
      (∀ cmd seq, 9 ≤ cmd.toNat → s.veingFree cmd.toNat seq.toNat = true → ∃ t, exec (.veingUndefinedCmd cmd seq) s = .next t ∧ ends s t 1 seq 0 ∧
        RegsSame (fun a => a == R.VG_STAT) s t) ∧
      (let a := (s.rget R.VG_VA).toNat
       let w : Who := { ctx := 32, priv := s.portPriv }
       (∀ (seq : BitVec 4) (d : Nat), s.veing.cmd = some (4, seq.toNat, d) →
          let v : Word := BitVec.ofNat 32 (65536 * d + s.veing.wh.toNat)
          (s.portRefused w a (some v) = some St.badAddress → ∃ t, exec .veingBoundaryAccess s = .next t ∧ ends s t 4 seq 0 ∧
            RegsSame (fun x => x == R.VG_STAT) s t) ∧
          ∀ i k r, regAt a = some (.chip, i, k, r) → a ∉ [R.LINKEV_SEND, R.SR_CFG, R.CAL_LIMIT] → s.portRefused w a (some v) = none →
            ∃ t, exec .veingBoundaryAccess s = .next t ∧ ends s t 0 seq 0 ∧ t.rget a = r.stored (s.rget a) v ∧
              RegsSame (fun x => x == R.VG_STAT || x == R.VG_VA || x == a) s t) ∧
       (∀ (seq : BitVec 4) (d : Nat), s.veing.cmd = some (5, seq.toNat, d) → s.portRefused w a none = none →
          let v := s.readValue 32 (aliasOf a).1
          ∃ t, exec .veingBoundaryAccess s = .next t ∧ ends s t 0 seq (field v 15 0) ∧ t.veing.rh = (v >>> 16).setWidth 16)))

/-- The peripheral master port queues, transfers and reports. A push that is refused answers its status and changes nothing else; one that is not
joins the queue with PP_TXDATA and answers OK. An out entry at the front with no select held leaves the queue and drives its bits; an in entry with
room in the FIFO leaves it and its sampled bits join the FIFO; with an empty queue, or under boundary scan, nothing happens. A read of PP_RXDATA
pops the oldest word, or sets RXUNF. FLUSH empties queue and FIFO. A select held beyond 1 ms is let go with CONTBRK, where the fault record is
possible. An internal transfer drives the commands of its operation, polls only where it writes and the flash is busy, sets source 3 if it fails,
and waits while a select is held or boundary scan holds the balls. (19_management_ports.md R444, 19_management_ports.md R445, 19_management_ports.md
R446, 19_management_ports.md R447, 19_management_ports.md R448, 19_management_ports.md R449, 19_management_ports.md R450) -/
def Obligations.PeripheralPort : Prop :=
  (∀ (v : Word) (s : State),
      (∀ st, s.pushRefused v = some st → ∃ t, exec (.ppTxctlPush v) s = .next t ∧ t.answer = st.toNat ∧ t.pp = s.pp ∧
          RegsSame (fun _ => false) s t ∧ MemSame s t) ∧
      (s.pushRefused v = none → ∃ t, exec (.ppTxctlPush v) s = .next t ∧ t.answer = St.ok.toNat ∧
        t.pp.queue = s.pp.queue ++ [(v, s.rget R.PP_TXDATA)] ∧ t.fget R.PP_STAT_QCOUNT = s.pp.queue.length + 1 ∧
        RegsSame (fun a => a == R.PP_STAT) s t ∧ MemSame s t)) ∧
    (∀ (x c d : Word) (l : List (Word × Word)) (s : State), s.pp.queue = (c, d) :: l → s.bscan = false → s.pp.held = none →
      let n := field c 5 0
      (c.getLsbD 8 = false → ∃ t, exec (.ppEntryExecute x) s = .next t ∧ t.pp.queue = l ∧ t.pp.rx = s.pp.rx ∧
        t.pp.out = s.pp.out ++ [(field c 14 12, n, d.toNat % 2 ^ n)] ∧ RegsSame (fun a => a == R.PP_STAT) s t ∧ MemSame s t) ∧
      (c.getLsbD 8 = true → s.pp.rx.length < 64 → ∃ t, exec (.ppEntryExecute x) s = .next t ∧ t.pp.queue = l ∧ t.pp.out = s.pp.out ∧
        t.pp.rx = s.pp.rx ++ [BitVec.ofNat 32 (x.toNat % 2 ^ n)] ∧ RegsSame (fun a => a == R.PP_STAT) s t ∧ MemSame s t) ∧
      (c.getLsbD 8 = true → 64 ≤ s.pp.rx.length → exec (.ppEntryExecute x) s = .next s)) ∧
    (∀ (x : Word) (s : State), s.pp.queue = [] ∨ s.bscan = true → exec (.ppEntryExecute x) s = .next s) ∧
    (∀ (s : State), (s.pp.rx = [] → ∃ t, exec .ppRxdataRead s = .next t ∧ t.flag R.PP_STAT_RXUNF = true ∧ t.pp = s.pp ∧
        RegsSame (fun a => a == R.PP_STAT) s t ∧ MemSame s t) ∧
      ∀ w l, s.pp.rx = w :: l → ∃ t, exec .ppRxdataRead s = .next t ∧ t.pp.rx = l ∧ t.fget R.PP_STAT_RXCOUNT = l.length % 128 ∧
        RegsSame (fun a => a == R.PP_STAT) s t ∧ MemSame s t) ∧
    (∀ (s : State), ∃ t, exec .ppFlush s = .next t ∧ t.answer = St.ok.toNat ∧ t.pp.queue = [] ∧ t.pp.rx = [] ∧ t.pp.held = none ∧
      t.fget R.PP_STAT_QCOUNT = 0 ∧ RegsSame (fun a => a == R.PP_STAT) s t ∧ MemSame s t) ∧
    (∀ (s : State), (s.pp.held ≠ none → s.pp.queue = [] → Mild s 0x90000 2 → ∃ t, exec .ppContTimeout s = .next t ∧ t.pp.held = none ∧
        t.flag R.PP_STAT_CONTBRK = true ∧ (t.rget (R.FLT_REAL 0x90000)).getLsbD 2 = true ∧ MemSame s t) ∧
      (s.pp.held = none ∨ s.pp.queue ≠ [] → exec .ppContTimeout s = .next s)) ∧
    (∀ (op : FlashOp) (busy : Bool) (s : State),
      (∀ ok, s.pp.held ≠ none ∨ s.bscan = true → exec (.internalTransfer ⟨op, ok, busy⟩) s = .next s) ∧
      (∀ ok, s.pp.held = none → s.bscan = false → flashWrites op = true → busy = true → ∃ t, exec (.internalTransfer ⟨op, ok, busy⟩) s = .next t ∧
        t.pp.flash = s.pp.flash ++ [{ opcode := 0x05, reads := 1 }] ∧ RegsSame (fun _ => false) s t ∧ MemSame s t) ∧
      (s.pp.held = none → s.bscan = false → flashWrites op = false ∨ busy = false → ∃ t, exec (.internalTransfer ⟨op, true, busy⟩) s = .next t ∧
        t.pp.flash = s.pp.flash ++ flashCmds s.pp.wide op ∧ t.pp.queue = s.pp.queue ∧ RegsSame (fun _ => false) s t ∧ MemSame s t) ∧
      (s.pp.held = none → s.bscan = false → flashWrites op = false ∨ busy = false → Mild s 0x90000 3 →
      ∃ t, exec (.internalTransfer ⟨op, false, busy⟩) s = .next t ∧ (t.rget (R.FLT_REAL 0x90000)).getLsbD 3 = true ∧ MemSame s t ∧
        RegsSame (fun a => inBlock 0x90000 a || counting a || recordReg a) s t))

/-- What a reset keeps, what boot leaves, and the test access port. A power-on reset leaves every register of which OTP and flash hold no bit, but
for those of the moraine and of LVL_CLR_N, at its reset value, memory unwritten and nothing in progress; a warm reset keeps the system time and
every register of which Table 20.3 keeps all bits, and resets those of which it keeps none, with RESET_CAUSE the kind. The loss of one of the first
three supplies acts as a power-on reset, that of another monitored one as a warm reset of kind 1. A boot that finds no defect, with room in the
moraine and no unit to fence, sets DONE, its duration and DEVICE_ID, writes the staged records to flash and trains every enabled link; a chip that
has booted does not boot again. An instruction of the test access port takes effect once boot is done, OWNED accepts IDCODE and BYPASS only.
(20_startup.md R454, 20_startup.md R456, 20_startup.md R457, 20_startup.md R461, 20_startup.md Table 20.3, 21_electrical_package.md R481) -/
def Obligations.ResetsAndBoot : Prop :=
  (∀ (s : State), ∃ t, exec .powerOnReset s = .next t ∧ t.mem = [] ∧ t.splits = [] ∧ t.items = [] ∧ t.tiles = [] ∧ t.sysTime = 0 ∧
      t.pending = s.pending ∧
      ∀ a, otpMask a = 0 → a ∉ [R.MRN_SEQ, R.MRN_STATUS, R.MRN_OLDEST, R.MRN_PWRCYC, R.LVL_CLR_STATUS] → t.rget a = regReset a) ∧
    (∀ (s : State), ∃ t, exec .warmReset s = .next t ∧ t.fget R.RESET_CAUSE_KIND = 2 ∧ t.sysTime = s.sysTime ∧ t.splits = [] ∧ t.items = [] ∧
      (∀ a, warmMask a = 0 → a ∉ [R.RESET_CAUSE, R.LVL_CLR_STATUS] → t.rget a = regReset a) ∧
      (Regs.wf s.regs = true → ∀ a, warmMask a = 0xFFFFFFFF → t.rget a = s.rget a)) ∧
    (∀ (r : Fin 8) (s : State), (r.val < 3 → exec (.supplyReset r) s = exec .powerOnReset s) ∧
      (3 ≤ r.val → s.monitored r = true → ∃ t, exec (.supplyReset r) s = .next t ∧ t.fget R.RESET_CAUSE_KIND = 1 ∧ t.sysTime = s.sysTime) ∧
      (3 ≤ r.val → s.monitored r = false → exec (.supplyReset r) s = .next s)) ∧
    (∀ (r : BootReport) (s : State), s.flag R.BOOT_STATUS_DONE = true → exec (.boot r) s = .next s) ∧
    (∀ (r : BootReport) (s : State), s.flag R.BOOT_STATUS_DONE = false → s.flag R.BOOT_STATUS_RECOVERY = false → r.pufOk = true → r.badCores = [] →
        r.badChans = [] →
      r.badLanes = [] → r.defects = [] → r.flashFails = false → badEq r.boardTable = [] ∨ tableOk r.boardTable = false → s.fenceReq = [] →
          s.staged.length < 120 →
      (∀ k, k < 64 → (s.rget (R.SR_OTP_W0 k)).getLsbD 0 = false) →
      ∃ t, exec (.boot r) s = .next t ∧ t.flag R.BOOT_STATUS_DONE = true ∧ t.rget R.BOOT_TIME = r.microseconds ∧
          t.flag R.BOOT_STATUS_POSTFAIL = false ∧
        t.flag R.LC_STATUS_PUF_OK = true ∧ t.tap = 2 ∧ (∀ k, k < 4 →
            wordBytes (t.rget (R.DEVICE_ID k)) = sub ((digest idkPub).take 16) (4 * k) (4 * k + 3)) ∧
        (t.flag R.BOOT_STATUS_RECOVERY = true ↔ (pickImage s.imageOk r.slot0 r.slot1).1 = none) ∧
        (tableOk r.boardTable = false → t.flag R.BOOT_STATUS_BTBAD = true) ∧
        (∀ l, l < 12 → t.flag (R.LINK_CTRL_EN l) = true → t.linkState l = lkTraining) ∧
        (s.mrnLost = 0 → t.staged = []) ∧ (imagePatch r.slot0 = none → imagePatch r.slot1 = none → MemSame s t)) ∧
    (∀ (ir : BitVec 4) (s : State),
      (s.flag R.BOOT_STATUS_DONE = false → exec (.tapInstructionUpdate ir) s = .next s) ∧
      (s.flag R.BOOT_STATUS_DONE = true → s.holdsStep = false → (∀ u, u < 64 → s.ending u = false) →
        (∀ x ∈ s.splits, x.opcode ≠ 0x30) → ∃ t, exec (.tapInstructionUpdate ir) s = .next t ∧
        t.tap = (if 4 < ir.toNat then 0xF else if s.fget R.LC_STATUS_STATE = 2 ∧ ir ≠ 2 then 0xF else ir) ∧ RegsSame (fun _ => false) s t ∧
            MemSame s t))
end

