-- ==== Sys2Proof/Laws/Store.lean ====
section
/-! SUPPORT. What a sparse store reads as after an update, and that every update keeps its canonical form. -/

namespace Sys2Proof.Machine.Store

variable {β : Type} {d : Nat → β}

/-! ## Reading after an update -/

@[simp] theorem get_nil (k : Nat) : get d [] k = d k := rfl

@[simp] theorem get_erase_same (m : Store β) (k : Nat) : get d (erase m k) k = d k := by
  induction m with
  | nil => rfl
  | cons e m ih =>
    rcases e with ⟨j, v⟩
    by_cases h : j = k
    · simpa [erase, h] using ih
    · simpa [erase, get, h] using ih

theorem get_erase_other (m : Store β) {k k' : Nat} (h : k' ≠ k) : get d (erase m k) k' = get d m k' := by
  induction m with
  | nil => rfl
  | cons e m ih =>
    rcases e with ⟨j, v⟩
    by_cases hj : j = k
    · subst hj
      simpa [erase, get, Ne.symm h] using ih
    · by_cases hk : j = k'
      · simp [erase, get, hk, h]
      · simpa [erase, get, hj, hk] using ih

@[simp] theorem get_insert_same (m : Store β) (k : Nat) (v : β) (h : ∀ e ∈ m, e.1 ≠ k) : get d (insert m k v) k = v := by
  induction m with
  | nil => simp [insert, get]
  | cons e m ih =>
    rcases e with ⟨j, w⟩
    have hj : j ≠ k := h (j, w) (by simp)
    by_cases hk : k < j
    · simp [insert, get, hk]
    · simpa [insert, get, hk, hj] using ih fun e he => h e (by simp [he])

theorem get_insert_other (m : Store β) {k k' : Nat} (v : β) (h : k' ≠ k) : get d (insert m k v) k' = get d m k' := by
  induction m with
  | nil => simp [insert, get, Ne.symm h]
  | cons e m ih =>
    rcases e with ⟨j, w⟩
    by_cases hk : k < j
    · simp [insert, get, hk, Ne.symm h]
    · simp only [insert, hk, if_false, get, ih]

theorem mem_erase {m : Store β} {k : Nat} {e : Nat × β} : e ∈ erase m k ↔ e ∈ m ∧ e.1 ≠ k := by
  induction m with
  | nil => simp [erase]
  | cons f m ih =>
    rcases f with ⟨j, v⟩
    by_cases hj : j = k
    · subst hj
      simp only [erase, if_true, ih, List.mem_cons]
      constructor
      · rintro ⟨h, n⟩; exact ⟨.inr h, n⟩
      · rintro ⟨rfl | h, n⟩
        · exact absurd rfl n
        · exact ⟨h, n⟩
    · simp only [erase, hj, if_false, List.mem_cons, ih]
      constructor
      · rintro (rfl | ⟨h, n⟩)
        · exact ⟨.inl rfl, hj⟩
        · exact ⟨.inr h, n⟩
      · rintro ⟨rfl | h, n⟩
        · exact .inl rfl
        · exact .inr ⟨h, n⟩

theorem mem_insert {m : Store β} {k : Nat} {v : β} {e : Nat × β} (h : e ∈ insert m k v) : e = (k, v) ∨ e ∈ m := by
  induction m with
  | nil => exact .inl (by simpa [insert] using h)
  | cons f m ih =>
    rcases f with ⟨j, w⟩
    by_cases hk : k < j
    · simp only [insert, hk, if_true, List.mem_cons] at h
      rcases h with h | h | h
      · exact .inl h
      · exact .inr (by simp [h])
      · exact .inr (by simp [h])
    · simp only [insert, hk, if_false, List.mem_cons] at h
      rcases h with h | h
      · exact .inr (by simp [h])
      · exact (ih h).imp id fun h => by simp [h]

/-- A key reads as what was put there. -/
@[simp] theorem get_put_same [DecidableEq β] (m : Store β) (k : Nat) (v : β) : get d (put d m k v) k = v := by
  unfold put
  split
  · next h => rw [get_erase_same, h]
  · exact get_insert_same _ _ _ fun e he => (mem_erase.1 he).2

/-- Every other key reads as before. -/
theorem get_put_other [DecidableEq β] (m : Store β) {k k' : Nat} (v : β) (h : k' ≠ k) :
    get d (put d m k v) k' = get d m k' := by
  unfold put
  split
  · exact get_erase_other m h
  · rw [get_insert_other _ _ h, get_erase_other m h]

/-- What a key reads as after a put. -/
theorem get_put [DecidableEq β] (m : Store β) (k k' : Nat) (v : β) :
    get d (put d m k v) k' = if k' = k then v else get d m k' := by
  split
  · next h => rw [h, get_put_same]
  · next h => exact get_put_other m v h

/-! ## The canonical form -/

variable [DecidableEq β]

theorem wf_cons {j : Nat} {v : β} {m : Store β} :
    wf d ((j, v) :: m) = true ↔ v ≠ d j ∧ (∀ e ∈ m, j < e.1) ∧ wf d m = true := by
  simp [wf, and_assoc]

theorem wf_erase {m : Store β} (k : Nat) (h : wf d m = true) : wf d (erase m k) = true := by
  induction m with
  | nil => rfl
  | cons e m ih =>
    rcases e with ⟨j, v⟩
    obtain ⟨hv, hl, hm⟩ := wf_cons.1 h
    by_cases hj : j = k
    · simpa [erase, hj] using ih hm
    · simp only [erase, hj, if_false]
      exact wf_cons.2 ⟨hv, fun e he => hl e (mem_erase.1 he).1, ih hm⟩

theorem wf_insert {m : Store β} {k : Nat} {v : β} (hv : v ≠ d k) (hk : ∀ e ∈ m, e.1 ≠ k) (h : wf d m = true) :
    wf d (insert m k v) = true := by
  induction m with
  | nil => exact wf_cons.2 ⟨hv, by simp, rfl⟩
  | cons f m ih =>
    rcases f with ⟨j, w⟩
    obtain ⟨hw, hl, hm⟩ := wf_cons.1 h
    by_cases hj : k < j
    · simp only [insert, hj, if_true]
      refine wf_cons.2 ⟨hv, ?_, h⟩
      intro e he
      rcases List.mem_cons.1 he with rfl | he
      · exact hj
      · exact hj.trans (hl e he)
    · simp only [insert, hj, if_false]
      have hne : j ≠ k := hk (j, w) (by simp)
      refine wf_cons.2 ⟨hw, ?_, ih (fun e he => hk e (by simp [he])) hm⟩
      intro e he
      rcases mem_insert he with rfl | he
      · exact Nat.lt_of_le_of_ne (Nat.le_of_not_lt hj) hne
      · exact hl e he

/-- A put keeps the canonical form. -/
theorem wf_put {m : Store β} (k : Nat) (v : β) (h : wf d m = true) : wf d (put d m k v) = true := by
  unfold put
  split
  · exact wf_erase k h
  · next hv => exact wf_insert hv (fun e he => (mem_erase.1 he).2) (wf_erase k h)

/-- A part of a canonical store is canonical. -/
theorem wf_filter {m : Store β} (p : Nat × β → Bool) (h : wf d m = true) : wf d (m.filter p) = true := by
  induction m with
  | nil => rfl
  | cons e m ih =>
    rcases e with ⟨j, v⟩
    obtain ⟨hv, hl, hm⟩ := wf_cons.1 h
    by_cases hp : p (j, v) = true
    · rw [List.filter_cons_of_pos hp]
      exact wf_cons.2 ⟨hv, fun e he => hl e (List.mem_filter.1 he).1, ih hm⟩
    · rw [List.filter_cons_of_neg hp]
      exact ih hm

/-- Entries changed in place, or dropped where they come to hold what an unlisted key reads as. -/
theorem wf_filterMap {m : Store β} (f : Nat × β → Option (Nat × β))
    (hf : ∀ e e', f e = some e' → e'.1 = e.1 ∧ e'.2 ≠ d e.1) (h : wf d m = true) : wf d (m.filterMap f) = true := by
  induction m with
  | nil => rfl
  | cons e m ih =>
    obtain ⟨_, hl, hm⟩ := wf_cons.1 h
    cases he : f e with
    | none => rw [List.filterMap_cons_none he]; exact ih hm
    | some e' =>
      rw [List.filterMap_cons_some he]
      obtain ⟨h1, h2⟩ := hf e e' he
      rcases e' with ⟨j, v⟩
      simp only at h1 h2
      subst h1
      refine wf_cons.2 ⟨h2, ?_, ih hm⟩
      intro x hx
      obtain ⟨y, hy, hyx⟩ := List.mem_filterMap.1 hx
      rw [(hf y x hyx).1]
      exact hl y hy

/-- Two canonical stores that read alike are equal. -/
theorem eq_of_get {m n : Store β} (hm : wf d m = true) (hn : wf d n = true) (h : ∀ k, get d m k = get d n k) : m = n := by
  have listed : ∀ {m : Store β}, wf d m = true → ∀ e ∈ m, get d m e.1 = e.2 ∧ e.2 ≠ d e.1 := by
    intro m
    induction m with
    | nil => simp
    | cons f m ih =>
      intro hw e he
      rcases f with ⟨j, v⟩
      obtain ⟨hv, hl, hm⟩ := wf_cons.1 hw
      rcases List.mem_cons.1 he with rfl | he
      · exact ⟨by simp [get], hv⟩
      · have hlt := hl e he
        have := ih hm e he
        exact ⟨by simp [get, Nat.ne_of_lt hlt, this.1], this.2⟩
  have unlisted : ∀ {m : Store β} {k : Nat}, (∀ e ∈ m, k < e.1) → get d m k = d k := by
    intro m
    induction m with
    | nil => intros; rfl
    | cons f m ih =>
      intro k hk
      have := hk f (by simp)
      simp [get, Nat.ne_of_gt this, ih fun e he => hk e (by simp [he])]
  induction m generalizing n with
  | nil =>
    cases n with
    | nil => rfl
    | cons f n =>
      have := listed hn f (by simp)
      exact absurd ((h f.1).trans this.1).symm (by simpa [get] using this.2)
  | cons e m ih =>
    cases n with
    | nil =>
      have := listed hm e (by simp)
      exact absurd ((h e.1).symm.trans this.1).symm (by simpa [get] using this.2)
    | cons f n =>
      rcases e with ⟨j, v⟩
      rcases f with ⟨k, w⟩
      obtain ⟨hv, hl, hm'⟩ := wf_cons.1 hm
      obtain ⟨hw, hl', hn'⟩ := wf_cons.1 hn
      have key : j = k := by
        rcases Nat.lt_trichotomy j k with hlt | heq | hgt
        · have h1 := h j
          rw [unlisted (m := (k, w) :: n) (by
            intro e he
            rcases List.mem_cons.1 he with rfl | he
            · exact hlt
            · exact hlt.trans (hl' e he))] at h1
          exact absurd (by simpa [get] using h1) hv
        · exact heq
        · have h1 := h k
          rw [unlisted (m := (j, v) :: m) (by
            intro e he
            rcases List.mem_cons.1 he with rfl | he
            · exact hgt
            · exact hgt.trans (hl e he))] at h1
          exact absurd (by simpa [get] using h1.symm) hw
      subst key
      have val : v = w := by simpa [get] using h j
      subst val
      rw [ih hm' hn' fun i => ?_]
      by_cases hi : j = i
      · subst hi
        rw [unlisted fun e he => hl e he, unlisted fun e he => hl' e he]
      · simpa [get, hi] using h i

end Sys2Proof.Machine.Store
end

