-- ==== Sys2Proof/Laws/Keeps.lean ====
section
/-! SUPPORT. The relation that every operation of the block keeps between the state before and after it, and the operations of
Machine/Ops.lean. -/

namespace Sys2Proof.Machine

/-- The queue is the same, and the memory and the register file keep their canonical form. -/
structure Keeps (s t : State) : Prop where
  pending : t.pending = s.pending
  mem : Memory.wf s.mem = true → Memory.wf t.mem = true
  regs : Regs.wf s.regs = true → Regs.wf t.regs = true

theorem Keeps.refl (s : State) : Keeps s s := ⟨rfl, id, id⟩

theorem Keeps.trans {a b c : State} (h : Keeps a b) (k : Keeps b c) : Keeps a c :=
  ⟨k.pending.trans h.pending, k.mem ∘ h.mem, k.regs ∘ h.regs⟩

/-- An update of other fields. -/
theorem Keeps.upd {a b : State} (p : b.pending = a.pending) (m : b.mem = a.mem) (r : b.regs = a.regs) : Keeps a b :=
  ⟨p, m ▸ id, r ▸ id⟩

/-- A name for an intermediate state. -/
theorem Keeps.cut {s x t : State} (h : Keeps s x) (k : Keeps s x → Keeps s t) : Keeps s t := k h

theorem Keeps.foldl {α : Type} {f : State → α → State} {l : List α} {s₀ s : State} (k : Keeps s₀ s)
    (h : ∀ {s₁ s : State} (a : α), Keeps s₁ s → Keeps s₁ (f s a)) : Keeps s₀ (l.foldl f s) := by
  induction l generalizing s with
  | nil => exact k
  | cons a l ih => exact ih (h a k)

/-- A state literal that takes the queue, the memory and the registers of another state. -/
theorem Keeps.lit {s x : State}
    {sysTime : BitVec 64} {tiles : Store TileCtx} {chans : Store ChanCtx} {ctxs : Store Ctx} {evc : Store Nat} {evs :
    Store Nat} {held : List (Nat × Nat × Nat)} {faultMarks : List FaultMark} {calPend : Store (Option CalItem)}
    {calNew : Store CalItem} {calApplied : Store CalItem} {syncPhases : List Int} {syncCount : Nat} {syncD : Int}
    {ocxo : Bool} {warmSecs : Nat} {warmLog : List (Int × Bool)} {refvLog : List (Int × Bool)} {commitAt : Int}
    {refFreqs : List Int} {bundles : Store Bundle} {staging : Option Staging} {segSeal : Store SegSeal} {ackGen : Nat}
    {sealForever : Bool} {steps : List StepRec} {merges : List Merge} {windows : List (Int × Int)} {excursions : Store
    (Option Int)} {trigOut : Store Int} {lvlClr : Bool} {vioSel : Option Byte} {snts : Store SntCtx} {quads : Store
    Quad} {fenceReq : List FenceReq} {unfenceReq : List (Nat × Nat)} {logDue : List (Nat × Nat)} {coreDue : List (Nat
    × Bool)} {corePass : Store (List Nat)} {therm : Therm} {syncArmed : Option Nat} {links : Store LinkCtx} {ids :
    Nat} {veing : Veing} {pp : Pp} {measures : List Req} {measured : List (Req × Word)} {writes : List Writing} {strms
    : Store Strm} {strmWait : List StrmPkt} {rr : Nat} {maxLen : Nat} {maxClk : Nat} {overrides : List (Nat × Nat)}
    {micro : Micro} {trigIn : Store (Option Nat)} {armedSites : List Nat} {injFence : List (Nat × Nat)} {injHeld :
    List (Nat × Nat × Nat)} {soft : List SoftRepair} {repairs : List Repair} {btAt : Option Int} {btHead : List Nat}
    {corrections : List ((Nat × Nat) × Int)} {eccWords : List (Nat × Nat)} {eccReal : List (Nat × Nat)} {spareAt :
    Store Nat} {supStop : List Nat} {sealStuck : Bool} {drbgBad : Bool} {eccFrame : Bool} {attests : List (Nat ×
    StepRec)} {cert : Option (List Byte)} {certDigest : Option (List Byte)} {certBad : Bool} {mrnClear : Nat} {dumping
    : Option Dump} {dump : Option Dump} {dumpFlash : Option Dump} {tap : BitVec 4} {groups : Nat} {items : List Item}
    {splits : List Split} {txq : List Packet} {sent : List Packet} {rep : Store FcSite} {mrn : Store (Option MrnRec)}
    {staged : List Nat} {mrnLost : Nat} {freeCtr : Nat} {answer : Nat} :
    Keeps s ⟨x.regs, x.mem, sysTime, tiles, chans, ctxs, evc, evs, held, faultMarks, calPend, calNew, calApplied,
    syncPhases, syncCount, syncD, ocxo, warmSecs, warmLog, refvLog, commitAt, refFreqs, bundles, staging, segSeal,
    ackGen, sealForever, steps, merges, windows, excursions, trigOut, lvlClr, vioSel, snts, quads, fenceReq,
    unfenceReq, logDue, coreDue, corePass, therm, syncArmed, links, ids, veing, pp, measures, measured, writes, strms,
    strmWait, rr, maxLen, maxClk, overrides, micro, trigIn, armedSites, injFence, injHeld, soft, repairs, btAt,
    btHead, corrections, eccWords, eccReal, spareAt, supStop, sealStuck, drbgBad, eccFrame, attests, cert, certDigest,
    certBad, mrnClear, dumping, dump, dumpFlash, tap, groups, items, splits, txq, sent, rep, mrn, staged, mrnLost,
    freeCtr, answer, x.pending⟩ = Keeps s x :=
  propext ⟨fun h => h.trans (.upd rfl rfl rfl), fun h => h.trans (.upd rfl rfl rfl)⟩

theorem State.rset_keeps {s₀ s : State} {a : Nat} {v : Word} (k : Keeps s₀ s) : Keeps s₀ (State.rset s a v) :=
  k.trans ⟨rfl, id, Store.wf_put a v⟩

theorem State.fset_keeps {s₀ s : State} {f : Fld} {v : Nat} (kp : Keeps s₀ s) : Keeps s₀ (State.fset s f v) := by
  unfold State.fset
  repeat' first
    | with_reducible exact Keeps.refl _ | with_reducible assumption | with_reducible apply State.rset_keeps

theorem State.setFlag_keeps {s₀ s : State} {f : Fld} {b : Bool} (kp : Keeps s₀ s) : Keeps s₀ (State.setFlag s f b) := by
  unfold State.setFlag
  repeat' first
    | with_reducible exact Keeps.refl _ | with_reducible assumption | with_reducible apply State.fset_keeps

theorem State.count_keeps {s₀ s : State} {f : Fld} {k : Nat} (kp : Keeps s₀ s) : Keeps s₀ (State.count s f k) := by
  unfold State.count
  repeat' first
    | with_reducible exact Keeps.refl _ | with_reducible assumption | with_reducible apply State.fset_keeps

theorem State.setPair_keeps {s₀ s : State} {lo hi v : Nat} (kp : Keeps s₀ s) : Keeps s₀ (State.setPair s lo hi v) := by
  unfold State.setPair
  repeat' first
    | with_reducible exact Keeps.refl _ | with_reducible assumption | with_reducible apply State.rset_keeps

theorem State.resetRegs_keeps {s₀ s : State} {p : Nat → Bool} (k : Keeps s₀ s) : Keeps s₀ (State.resetRegs s p) :=
  k.trans ⟨rfl, id, Store.wf_filter _⟩

theorem State.mset_keeps {s₀ s : State} {space tile off : Nat} {v : Byte} (k : Keeps s₀ s) :
    Keeps s₀ (State.mset s space tile off v) :=
  k.trans ⟨rfl, Store.wf_put _ v, id⟩

theorem State.mwrite_keeps {s₀ s : State} {space tile off : Nat} {l : List Byte} (k : Keeps s₀ s) :
    Keeps s₀ (State.mwrite s space tile off l) := by
  induction l generalizing s off with
  | nil => exact k
  | cons b l ih => exact ih (State.mset_keeps k)

theorem State.eccFresh_keeps {s₀ s : State} {space core off n : Nat} (kp : Keeps s₀ s) : Keeps s₀ (State.eccFresh s space core
    off n) := by
  unfold State.eccFresh
  repeat' first
    | with_reducible exact Keeps.refl _ | with_reducible assumption | (simp -zeta only [↓Keeps.lit]) | (intro)

theorem State.merase_keeps {s₀ s : State} {p : Nat → Bool} (k : Keeps s₀ s) : Keeps s₀ (State.merase s p) :=
  k.trans ⟨rfl, Store.wf_filter _, id⟩

theorem State.eraseSpace_keeps {s₀ s : State} {space tile : Nat} (kp : Keeps s₀ s) : Keeps s₀ (State.eraseSpace s space tile)
    := by
  unfold State.eraseSpace
  repeat' first
    | with_reducible exact Keeps.refl _ | with_reducible assumption | with_reducible apply State.merase_keeps | (intro)

theorem State.setTile_keeps {s₀ s : State} {t : Nat} {c : TileCtx} (kp : Keeps s₀ s) : Keeps s₀ (State.setTile s t c) := by
  unfold State.setTile
  repeat' first
    | with_reducible exact Keeps.refl _ | with_reducible assumption | (simp -zeta only [↓Keeps.lit]) | (intro)

theorem State.modTile_keeps {s₀ s : State} {t : Nat} {f : TileCtx → TileCtx} (kp : Keeps s₀ s) : Keeps s₀ (State.modTile s t
    f) := by
  unfold State.modTile
  repeat' first
    | with_reducible exact Keeps.refl _ | with_reducible assumption | with_reducible apply State.setTile_keeps

theorem State.setChan_keeps {s₀ s : State} {c : Nat} {x : ChanCtx} (kp : Keeps s₀ s) : Keeps s₀ (State.setChan s c x) := by
  unfold State.setChan
  repeat' first
    | with_reducible exact Keeps.refl _ | with_reducible assumption | (simp -zeta only [↓Keeps.lit]) | (intro)

theorem State.modChan_keeps {s₀ s : State} {c : Nat} {f : ChanCtx → ChanCtx} (kp : Keeps s₀ s) : Keeps s₀ (State.modChan s c
    f) := by
  unfold State.modChan
  repeat' first
    | with_reducible exact Keeps.refl _ | with_reducible assumption | with_reducible apply State.setChan_keeps

theorem State.setCtx_keeps {s₀ s : State} {n : Nat} {x : Ctx} (kp : Keeps s₀ s) : Keeps s₀ (State.setCtx s n x) := by
  unfold State.setCtx
  repeat' first
    | with_reducible exact Keeps.refl _ | with_reducible assumption | (simp -zeta only [↓Keeps.lit]) | (intro)

theorem State.modCtx_keeps {s₀ s : State} {n : Nat} {f : Ctx → Ctx} (kp : Keeps s₀ s) : Keeps s₀ (State.modCtx s n f) := by
  unfold State.modCtx
  repeat' first
    | with_reducible exact Keeps.refl _ | with_reducible assumption | with_reducible apply State.setCtx_keeps

theorem State.setStrm_keeps {s₀ s : State} {n : Nat} {x : Strm} (kp : Keeps s₀ s) : Keeps s₀ (State.setStrm s n x) := by
  unfold State.setStrm
  repeat' first
    | with_reducible exact Keeps.refl _ | with_reducible assumption | (simp -zeta only [↓Keeps.lit]) | (intro)

theorem State.modMicro_keeps {s₀ s : State} {f : Micro → Micro} (kp : Keeps s₀ s) : Keeps s₀ (State.modMicro s f) := by
  unfold State.modMicro
  repeat' first
    | with_reducible exact Keeps.refl _ | with_reducible assumption | (simp -zeta only [↓Keeps.lit])

theorem State.free_keeps {s₀ s : State} (kp : Keeps s₀ s) : Keeps s₀ (State.free s).2 := by
  unfold State.free
  repeat' first
    | with_reducible exact Keeps.refl _ | with_reducible assumption | (simp -zeta only [↓Keeps.lit])

theorem State.free_keepsEq {s₀ s : State} {r1 : Word} {t_ : State} (h : State.free s = (r1, t_)) (kp : Keeps s₀ s) : Keeps s₀
    t_ := by
  have k := State.free_keeps (s₀ := s₀) (s := s) kp
  rwa [h] at k

theorem State.send_keeps {s₀ s : State} {p : Packet} (kp : Keeps s₀ s) : Keeps s₀ (State.send s p) := by
  unfold State.send
  repeat' first
    | with_reducible exact Keeps.refl _ | with_reducible assumption
    | (extract_lets +onlyGivenNames x; refine Keeps.cut (x := x) ?_ ?_ <;> [subst x; (intro; rename' x => y)])
    | (extract_lets +onlyGivenNames x; subst x; try beta_reduce) | (simp -zeta only [↓Keeps.lit])
    | with_reducible apply State.setCtx_keeps

theorem State.bumpEvc_keeps {s₀ s : State} {n k : Nat} (kp : Keeps s₀ s) : Keeps s₀ (State.bumpEvc s n k) := by
  unfold State.bumpEvc
  repeat' first
    | with_reducible exact Keeps.refl _ | with_reducible assumption | (simp -zeta only [↓Keeps.lit]) | (intro)

theorem State.sampleOf_keeps {s₀ s : State} {sample : Option Word} (kp : Keeps s₀ s) : Keeps s₀ (State.sampleOf s sample).2 :=
    by
  unfold State.sampleOf
  repeat' first
    | with_reducible exact Keeps.refl _ | with_reducible assumption | with_reducible apply State.free_keeps
    | (refine State.free_keepsEq (by with_reducible assumption) ?_) | split

theorem State.sampleOf_keepsEq {s₀ s : State} {sample : Option Word} {r1 : Word} {t_ : State} (h : State.sampleOf s sample =
    (r1, t_)) (kp : Keeps s₀ s) : Keeps s₀ t_ := by
  have k := State.sampleOf_keeps (s₀ := s₀) (s := s) (sample := sample) kp
  rwa [h] at k

theorem State.bumpPcnt_keeps {s₀ s : State} {m k : Nat} {sample : Option Word} {fuel : Nat} (kp : Keeps s₀ s) :
    Keeps s₀ (State.bumpPcnt s m k sample fuel) := by
  induction fuel generalizing s m k with
  | zero => exact kp
  | succ fuel ih =>
    unfold State.bumpPcnt
    repeat' first
      | with_reducible exact Keeps.refl _ | with_reducible assumption
      | (extract_lets +onlyGivenNames x; refine Keeps.cut (x := x) ?_ ?_ <;> [subst x; (intro; rename' x => y)])
      | (extract_lets +onlyGivenNames x; subst x; try beta_reduce) | (simp -zeta only [↓Keeps.lit]) | with_reducible apply ih
      | with_reducible apply State.rset_keeps | with_reducible apply State.setFlag_keeps
      | with_reducible apply State.sampleOf_keeps | with_reducible apply Keeps.foldl | split

theorem State.evCount_keeps {s₀ s : State} {n k : Nat} {sample : Option Word} (kp : Keeps s₀ s) : Keeps s₀ (State.evCount s n
    k sample) := by
  unfold State.evCount
  repeat' first
    | with_reducible exact Keeps.refl _ | with_reducible assumption
    | (extract_lets +onlyGivenNames x; refine Keeps.cut (x := x) ?_ ?_ <;> [subst x; (intro; rename' x => y)])
    | (extract_lets +onlyGivenNames x; subst x; try beta_reduce) | with_reducible apply State.bumpEvc_keeps
    | with_reducible apply State.bumpPcnt_keeps | with_reducible apply Keeps.foldl | split | (intro)

theorem State.eventTo_keeps {s₀ s : State} {n code : Nat} {ps : List Word} (kp : Keeps s₀ s) : Keeps s₀ (State.eventTo s n
    code ps) := by
  unfold State.eventTo
  repeat' first
    | with_reducible exact Keeps.refl _ | with_reducible assumption
    | (extract_lets +onlyGivenNames x; refine Keeps.cut (x := x) ?_ ?_ <;> [subst x; (intro; rename' x => y)])
    | (extract_lets +onlyGivenNames x; subst x; try beta_reduce) | (simp -zeta only [↓Keeps.lit])
    | with_reducible apply State.setFlag_keeps | with_reducible apply State.count_keeps
    | with_reducible apply State.modCtx_keeps | with_reducible apply State.send_keeps
    | with_reducible apply State.evCount_keeps | split | (intro)

theorem State.chipEvent_keeps {s₀ s : State} {code : Nat} {ps : List Word} (kp : Keeps s₀ s) : Keeps s₀ (State.chipEvent s
    code ps) := by
  unfold State.chipEvent
  repeat' first
    | with_reducible exact Keeps.refl _ | with_reducible assumption | with_reducible apply State.evCount_keeps
    | with_reducible apply State.eventTo_keeps | with_reducible apply Keeps.foldl | split | (intro)

theorem State.eventFor_keeps {s₀ s : State} {who : Option (BitVec 5)} {code : Nat} {ps : List Word} (kp : Keeps s₀ s) : Keeps
    s₀ (State.eventFor s who code ps) := by
  unfold State.eventFor
  repeat' first
    | with_reducible exact Keeps.refl _ | with_reducible assumption | with_reducible apply State.eventTo_keeps
    | with_reducible apply State.chipEvent_keeps | split

theorem State.reply_keeps {s₀ s : State} {op : BitVec 8} {q : Req} {st : BitVec 8} {ps : List Word} {pl : List Byte} (kp :
    Keeps s₀ s) : Keeps s₀ (State.reply s op q st ps pl) := by
  unfold State.reply
  repeat' first
    | with_reducible exact Keeps.refl _ | with_reducible assumption
    | (extract_lets +onlyGivenNames x; refine Keeps.cut (x := x) ?_ ?_ <;> [subst x; (intro; rename' x => y)])
    | (extract_lets +onlyGivenNames x; subst x; try beta_reduce) | (simp -zeta only [↓Keeps.lit])
    | with_reducible apply State.fset_keeps | with_reducible apply State.modCtx_keeps | with_reducible apply State.send_keeps
    | split | (intro)

theorem State.fail_keeps {s₀ s : State} {op : BitVec 8} {q : Req} {st : BitVec 8} {p0 : Word} (kp : Keeps s₀ s) : Keeps s₀
    (State.fail s op q st p0) := by
  unfold State.fail
  repeat' first
    | with_reducible exact Keeps.refl _ | with_reducible assumption | with_reducible apply State.evCount_keeps
    | with_reducible apply State.reply_keeps

theorem State.complete_keeps {s₀ s : State} {x : Split} {st : BitVec 8} {ps : List Word} {pl : List Byte} {after : After} (kp
    : Keeps s₀ s) : Keeps s₀ (State.complete s x st ps pl after) := by
  unfold State.complete
  repeat' first
    | with_reducible exact Keeps.refl _ | with_reducible assumption
    | (extract_lets +onlyGivenNames x; refine Keeps.cut (x := x) ?_ ?_ <;> [subst x; (intro; rename' x => y)])
    | (extract_lets +onlyGivenNames x; subst x; try beta_reduce) | (simp -zeta only [↓Keeps.lit])
    | with_reducible apply State.fset_keeps | split | (intro)

theorem State.register_keeps {s₀ s : State} {op : BitVec 8} {q : Req} {aux : List Nat} {stage : Nat} (kp : Keeps s₀ s) : Keeps
    s₀ (State.register s op q aux stage) := by
  unfold State.register
  repeat' first
    | with_reducible exact Keeps.refl _ | with_reducible assumption
    | (extract_lets +onlyGivenNames x; refine Keeps.cut (x := x) ?_ ?_ <;> [subst x; (intro; rename' x => y)])
    | (extract_lets +onlyGivenNames x; subst x; try beta_reduce) | (simp -zeta only [↓Keeps.lit])
    | with_reducible apply State.fset_keeps | with_reducible apply State.evCount_keeps

theorem State.start_keeps {s₀ s : State} {op : BitVec 8} {q : Req} {aux : List Nat} {stage : Nat} (kp : Keeps s₀ s) : Keeps s₀
    (State.start s op q aux stage) := by
  unfold State.start
  repeat' first
    | with_reducible exact Keeps.refl _ | with_reducible assumption | with_reducible apply State.reply_keeps
    | with_reducible apply State.register_keeps

theorem State.ran_keeps {s₀ s : State} {n c : Nat} (kp : Keeps s₀ s) : Keeps s₀ (State.ran s n c) := by
  unfold State.ran
  repeat' first
    | with_reducible exact Keeps.refl _ | with_reducible assumption
    | (extract_lets +onlyGivenNames x; refine Keeps.cut (x := x) ?_ ?_ <;> [subst x; (intro; rename' x => y)])
    | (extract_lets +onlyGivenNames x; subst x; try beta_reduce) | (simp -zeta only [↓Keeps.lit])
    | with_reducible apply State.evCount_keeps

theorem State.romRan_keeps {s₀ s : State} (kp : Keeps s₀ s) : Keeps s₀ (State.romRan s) := by
  unfold State.romRan
  repeat' first
    | with_reducible exact Keeps.refl _ | with_reducible assumption
    | (extract_lets +onlyGivenNames x; refine Keeps.cut (x := x) ?_ ?_ <;> [subst x; (intro; rename' x => y)])
    | (extract_lets +onlyGivenNames x; subst x; try beta_reduce) | with_reducible apply State.free_keeps
    | (refine State.free_keepsEq (by with_reducible assumption) ?_) | with_reducible apply State.ran_keeps | split

theorem State.routine_keeps {s₀ s : State} (kp : Keeps s₀ s) : Keeps s₀ (State.routine s) := by
  unfold State.routine
  repeat' first
    | with_reducible exact Keeps.refl _ | with_reducible assumption
    | (extract_lets +onlyGivenNames x; refine Keeps.cut (x := x) ?_ ?_ <;> [subst x; (intro; rename' x => y)])
    | (extract_lets +onlyGivenNames x; subst x; try beta_reduce) | (simp -zeta only [↓Keeps.lit])
    | with_reducible apply State.romRan_keeps

theorem State.setSplit_keeps {s₀ s : State} {x : Split} (kp : Keeps s₀ s) : Keeps s₀ (State.setSplit s x) := by
  unfold State.setSplit
  repeat' first
    | with_reducible exact Keeps.refl _ | with_reducible assumption | (simp -zeta only [↓Keeps.lit]) | split | (intro)

theorem State.setSpare_keeps {s₀ s : State} {c : Nat} {b : Bool} (kp : Keeps s₀ s) : Keeps s₀ (State.setSpare s c b) := by
  unfold State.setSpare
  repeat' first
    | with_reducible exact Keeps.refl _ | with_reducible assumption
    | (extract_lets +onlyGivenNames x; refine Keeps.cut (x := x) ?_ ?_ <;> [subst x; (intro; rename' x => y)])
    | (extract_lets +onlyGivenNames x; subst x; try beta_reduce) | with_reducible apply State.fset_keeps
    | with_reducible apply State.setFlag_keeps

theorem State.respare_keeps {s₀ s : State} (kp : Keeps s₀ s) : Keeps s₀ (State.respare s) := by
  unfold State.respare
  repeat' first
    | with_reducible exact Keeps.refl _ | with_reducible assumption | with_reducible apply State.setSpare_keeps
    | with_reducible apply Keeps.foldl | (intro)

/-- The registers that a mask keeps are in canonical form. -/
theorem keepRegs_wf (mask : Nat → Word) {m : Store Word} (h : Regs.wf m = true) : Regs.wf (keepRegs mask m) = true := by
  refine Store.wf_filterMap _ ?_ h
  intro e e' he
  simp only at he
  split at he
  · cases he
  · next hv => cases he; exact ⟨rfl, hv⟩

theorem State.warmReset_keeps {s₀ s : State} {kind : Nat} (k : Keeps s₀ s) : Keeps s₀ (State.warmReset s kind) := by
  unfold State.warmReset
  extract_lets k0 k1
  have h : Keeps s k0 := ⟨rfl, Store.wf_filter _, keepRegs_wf _⟩
  exact State.respare_keeps (State.fset_keeps (State.setFlag_keeps (State.setFlag_keeps (k.trans h))))

theorem State.faultBits_keeps {s₀ s : State} {b src : Nat} {inj : Bool} (kp : Keeps s₀ s) : Keeps s₀ (State.faultBits s b src
    inj) := by
  unfold State.faultBits
  repeat' first
    | with_reducible exact Keeps.refl _ | with_reducible assumption
    | (extract_lets +onlyGivenNames x; refine Keeps.cut (x := x) ?_ ?_ <;> [subst x; (intro; rename' x => y)])
    | (extract_lets +onlyGivenNames x; subst x; try beta_reduce) | with_reducible apply State.rset_keeps
    | with_reducible apply State.count_keeps | split

theorem State.faultActs_keeps {s₀ s : State} {l : List (Nat × Nat)} (kp : Keeps s₀ s) : Keeps s₀ (State.faultActs s l) := by
  unfold State.faultActs
  repeat' first
    | with_reducible exact Keeps.refl _ | with_reducible assumption
    | (extract_lets +onlyGivenNames x; refine Keeps.cut (x := x) ?_ ?_ <;> [subst x; (intro; rename' x => y)])
    | (extract_lets +onlyGivenNames x; subst x; try beta_reduce) | (simp -zeta only [↓Keeps.lit])
    | with_reducible apply State.warmReset_keeps | split | (intro)

theorem State.oldest_keeps {s₀ s : State} (kp : Keeps s₀ s) : Keeps s₀ (State.oldest s) := by
  unfold State.oldest
  repeat' first
    | with_reducible exact Keeps.refl _ | with_reducible assumption | with_reducible apply State.fset_keeps | (intro)

theorem State.stageOnly_keeps {s₀ s : State} {code : Nat} {data : List Byte} {real inj : Bool} {time : Option (BitVec 64)} (kp
    : Keeps s₀ s) : Keeps s₀ (State.stageOnly s code data real inj time) := by
  unfold State.stageOnly
  repeat' first
    | with_reducible exact Keeps.refl _ | with_reducible assumption
    | (extract_lets +onlyGivenNames x; refine Keeps.cut (x := x) ?_ ?_ <;> [subst x; (intro; rename' x => y)])
    | (extract_lets +onlyGivenNames x; subst x; try beta_reduce) | (simp -zeta only [↓Keeps.lit])
    | with_reducible apply State.fset_keeps | with_reducible apply State.setFlag_keeps
    | with_reducible apply State.count_keeps | with_reducible apply State.evCount_keeps
    | with_reducible apply State.faultBits_keeps | with_reducible apply State.oldest_keeps | split | (intro)

theorem State.stage_keeps {s₀ s : State} {code : Nat} {data : List Byte} {real inj : Bool} {time : Option (BitVec 64)} (kp :
    Keeps s₀ s) : Keeps s₀ (State.stage s code data real inj time) := by
  unfold State.stage
  repeat' first
    | with_reducible exact Keeps.refl _ | with_reducible assumption
    | (extract_lets +onlyGivenNames x; refine Keeps.cut (x := x) ?_ ?_ <;> [subst x; (intro; rename' x => y)])
    | (extract_lets +onlyGivenNames x; subst x; try beta_reduce) | with_reducible apply State.faultActs_keeps
    | with_reducible apply State.stageOnly_keeps | split

end Sys2Proof.Machine
end

