-- ==== Sys2Proof/Laws/KeepsPins.lean ====
section
/-! SUPPORT. The operations of conditions, acquisition, pins, repair data, segments, patterns and requests keep the relation of Keeps.lean. -/

namespace Sys2Proof.Machine

theorem State.syncConds_keeps {s₀ s : State} {t : Nat} (kp : Keeps s₀ s) : Keeps s₀ (State.syncConds s t) := by
  unfold State.syncConds
  repeat' first
    | with_reducible exact Keeps.refl _ | with_reducible assumption
    | (extract_lets +onlyGivenNames x; refine Keeps.cut (x := x) ?_ ?_ <;> [subst x; (intro; rename' x => y)])
    | (extract_lets +onlyGivenNames x; subst x; try beta_reduce) | with_reducible apply State.rset_keeps
    | with_reducible apply State.fset_keeps | with_reducible apply State.setFlag_keeps | with_reducible apply Keeps.foldl
    | split | (intro)

theorem State.addCond_keeps {s₀ s : State} {t : Nat} {k : CondKey} {i : Int} (kp : Keeps s₀ s) : Keeps s₀ (State.addCond s t k
    i) := by
  unfold State.addCond
  repeat' first
    | with_reducible exact Keeps.refl _ | with_reducible assumption | (simp -zeta only [↓Keeps.lit])
    | with_reducible apply State.modTile_keeps | with_reducible apply State.syncConds_keeps | (intro)

theorem State.clearCond_keeps {s₀ s : State} {t : Nat} {c : Cond} {cutoff : Int} (kp : Keeps s₀ s) : Keeps s₀ (State.clearCond
    s t c cutoff) := by
  unfold State.clearCond
  repeat' first
    | with_reducible exact Keeps.refl _ | with_reducible assumption | (simp -zeta only [↓Keeps.lit])
    | with_reducible apply State.modTile_keeps | with_reducible apply State.syncConds_keeps | split | (intro)

theorem State.suspectFlag_keeps {s₀ s : State} {t n : Nat} (kp : Keeps s₀ s) : Keeps s₀ (State.suspectFlag s t n) := by
  unfold State.suspectFlag
  repeat' first
    | with_reducible exact Keeps.refl _ | with_reducible assumption | (simp -zeta only [↓Keeps.lit])
    | with_reducible apply State.modTile_keeps | (intro)

theorem State.suspectAll_keeps {s₀ s : State} {n : Nat} (kp : Keeps s₀ s) : Keeps s₀ (State.suspectAll s n) := by
  unfold State.suspectAll
  repeat' first
    | with_reducible exact Keeps.refl _ | with_reducible assumption | with_reducible apply State.suspectFlag_keeps
    | with_reducible apply Keeps.foldl | (intro)

theorem State.warmTo_keeps {s₀ s : State} {b : Bool} (kp : Keeps s₀ s) : Keeps s₀ (State.warmTo s b) := by
  unfold State.warmTo
  repeat' first
    | with_reducible exact Keeps.refl _ | with_reducible assumption | (simp -zeta only [↓Keeps.lit])
    | with_reducible apply State.setFlag_keeps | split

theorem State.indChan_keeps {s₀ s : State} {ch : Nat} (kp : Keeps s₀ s) : Keeps s₀ (State.indChan s ch) := by
  unfold State.indChan
  repeat' first
    | with_reducible exact Keeps.refl _ | with_reducible assumption
    | (extract_lets +onlyGivenNames x; refine Keeps.cut (x := x) ?_ ?_ <;> [subst x; (intro; rename' x => y)])
    | (extract_lets +onlyGivenNames x; subst x; try beta_reduce) | (simp -zeta only [↓Keeps.lit])
    | with_reducible apply State.modTile_keeps | (intro)

theorem State.failChan_keeps {s₀ s : State} {ch : Nat} {i : Int} (kp : Keeps s₀ s) : Keeps s₀ (State.failChan s ch i) := by
  unfold State.failChan
  repeat' first
    | with_reducible exact Keeps.refl _ | with_reducible assumption
    | (extract_lets +onlyGivenNames x; refine Keeps.cut (x := x) ?_ ?_ <;> [subst x; (intro; rename' x => y)])
    | (extract_lets +onlyGivenNames x; subst x; try beta_reduce) | (simp -zeta only [↓Keeps.lit])
    | with_reducible apply State.modTile_keeps | with_reducible apply State.syncConds_keeps | split | (intro)

theorem State.ringPut_keeps {s₀ s : State} {t : Nat} {w0 w1 w2 w3 : Word} (kp : Keeps s₀ s) : Keeps s₀ (State.ringPut s t w0
    w1 w2 w3) := by
  unfold State.ringPut
  repeat' first
    | with_reducible exact Keeps.refl _ | with_reducible assumption
    | (extract_lets +onlyGivenNames x; refine Keeps.cut (x := x) ?_ ?_ <;> [subst x; (intro; rename' x => y)])
    | (extract_lets +onlyGivenNames x; subst x; try beta_reduce) | (simp -zeta only [↓Keeps.lit])
    | with_reducible apply State.fset_keeps | with_reducible apply State.mwrite_keeps
    | with_reducible apply State.modTile_keeps | (intro)

theorem State.recStamp_keeps {s₀ s : State} {t time : Nat} (kp : Keeps s₀ s) : Keeps s₀ (State.recStamp s t time) := by
  unfold State.recStamp
  repeat' first
    | with_reducible exact Keeps.refl _ | with_reducible assumption
    | (extract_lets +onlyGivenNames x; refine Keeps.cut (x := x) ?_ ?_ <;> [subst x; (intro; rename' x => y)])
    | (extract_lets +onlyGivenNames x; subst x; try beta_reduce) | (simp -zeta only [↓Keeps.lit])
    | with_reducible apply State.modTile_keeps | with_reducible apply Keeps.foldl | (intro)

theorem State.suspectRing_keeps {s₀ s : State} {t : Nat} {i : Int} (kp : Keeps s₀ s) : Keeps s₀ (State.suspectRing s t i) :=
    by
  unfold State.suspectRing
  repeat' first
    | with_reducible exact Keeps.refl _ | with_reducible assumption
    | (extract_lets +onlyGivenNames x; refine Keeps.cut (x := x) ?_ ?_ <;> [subst x; (intro; rename' x => y)])
    | (extract_lets +onlyGivenNames x; subst x; try beta_reduce) | with_reducible apply State.mwrite_keeps
    | with_reducible apply Keeps.foldl | (intro)

theorem State.putAnchor_keeps {s₀ s : State} {t cyc time : Nat} {step : Bool} (kp : Keeps s₀ s) : Keeps s₀ (State.putAnchor s
    t cyc time step) := by
  unfold State.putAnchor
  repeat' first
    | with_reducible exact Keeps.refl _ | with_reducible assumption
    | (extract_lets +onlyGivenNames x; refine Keeps.cut (x := x) ?_ ?_ <;> [subst x; (intro; rename' x => y)])
    | (extract_lets +onlyGivenNames x; subst x; try beta_reduce) | (simp -zeta only [↓Keeps.lit])
    | with_reducible apply State.modTile_keeps | with_reducible apply State.ringPut_keeps
    | with_reducible apply State.recStamp_keeps | (intro)

theorem State.putCrevasse_keeps {s₀ s : State} {t : Nat} {g : Gap} (kp : Keeps s₀ s) : Keeps s₀ (State.putCrevasse s t g) :=
    by
  unfold State.putCrevasse
  repeat' first
    | with_reducible exact Keeps.refl _ | with_reducible assumption
    | (extract_lets +onlyGivenNames x; refine Keeps.cut (x := x) ?_ ?_ <;> [subst x; (intro; rename' x => y)])
    | (extract_lets +onlyGivenNames x; subst x; try beta_reduce) | (simp -zeta only [↓Keeps.lit])
    | with_reducible apply State.setFlag_keeps | with_reducible apply State.count_keeps
    | with_reducible apply State.modTile_keeps | with_reducible apply State.start_keeps
    | with_reducible apply State.ringPut_keeps | with_reducible apply State.recStamp_keeps | (intro)

theorem State.lose_keeps {s₀ s : State} {t : Nat} {r : CapRec} {cause : Nat} (kp : Keeps s₀ s) : Keeps s₀ (State.lose s t r
    cause) := by
  unfold State.lose
  repeat' first
    | with_reducible exact Keeps.refl _ | with_reducible assumption
    | (extract_lets +onlyGivenNames x; refine Keeps.cut (x := x) ?_ ?_ <;> [subst x; (intro; rename' x => y)])
    | (extract_lets +onlyGivenNames x; subst x; try beta_reduce) | (simp -zeta only [↓Keeps.lit])
    | with_reducible apply State.setFlag_keeps | with_reducible apply State.count_keeps
    | with_reducible apply State.modTile_keeps | with_reducible apply State.suspectFlag_keeps | split | (intro)

theorem State.putRecord_keeps {s₀ s : State} {t : Nat} {r : CapRec} (kp : Keeps s₀ s) : Keeps s₀ (State.putRecord s t r) := by
  unfold State.putRecord
  repeat' first
    | with_reducible exact Keeps.refl _ | with_reducible assumption
    | (extract_lets +onlyGivenNames x; refine Keeps.cut (x := x) ?_ ?_ <;> [subst x; (intro; rename' x => y)])
    | (extract_lets +onlyGivenNames x; subst x; try beta_reduce) | (simp -zeta only [↓Keeps.lit])
    | with_reducible apply State.modTile_keeps | with_reducible apply State.ringPut_keeps
    | with_reducible apply State.recStamp_keeps | with_reducible apply State.putAnchor_keeps
    | with_reducible apply State.putCrevasse_keeps | with_reducible apply State.lose_keeps | split | (intro)

theorem State.beginHold_keeps {s₀ s : State} {t : Nat} {i : Int} (kp : Keeps s₀ s) : Keeps s₀ (State.beginHold s t i) := by
  unfold State.beginHold
  repeat' first
    | with_reducible exact Keeps.refl _ | with_reducible assumption
    | (extract_lets +onlyGivenNames x; refine Keeps.cut (x := x) ?_ ?_ <;> [subst x; (intro; rename' x => y)])
    | (extract_lets +onlyGivenNames x; subst x; try beta_reduce) | (simp -zeta only [↓Keeps.lit])
    | with_reducible apply State.modTile_keeps | split | (intro)

theorem State.endFrame_keeps {s₀ s : State} {t : Nat} {i : Int} (kp : Keeps s₀ s) : Keeps s₀ (State.endFrame s t i) := by
  unfold State.endFrame
  repeat' first
    | with_reducible exact Keeps.refl _ | with_reducible assumption
    | (extract_lets +onlyGivenNames x; refine Keeps.cut (x := x) ?_ ?_ <;> [subst x; (intro; rename' x => y)])
    | (extract_lets +onlyGivenNames x; subst x; try beta_reduce) | (simp -zeta only [↓Keeps.lit])
    | with_reducible apply State.setFlag_keeps | with_reducible apply State.modTile_keeps
    | with_reducible apply State.beginHold_keeps | split | (intro)

theorem State.frameRecord_keeps {s₀ s : State} {t : Nat} {f : FrameCtx} {r : CapRec} (kp : Keeps s₀ s) : Keeps s₀
    (State.frameRecord s t f r) := by
  unfold State.frameRecord
  repeat' first
    | with_reducible exact Keeps.refl _ | with_reducible assumption
    | (extract_lets +onlyGivenNames x; refine Keeps.cut (x := x) ?_ ?_ <;> [subst x; (intro; rename' x => y)])
    | (extract_lets +onlyGivenNames x; subst x; try beta_reduce) | (simp -zeta only [↓Keeps.lit])
    | with_reducible apply State.modTile_keeps | with_reducible apply State.lose_keeps
    | with_reducible apply State.putRecord_keeps | with_reducible apply State.endFrame_keeps | split | (intro)

theorem State.lateRecord_keeps {s₀ s : State} {t : Nat} {f : FrameCtx} {r : CapRec} (kp : Keeps s₀ s) : Keeps s₀
    (State.lateRecord s t f r) := by
  unfold State.lateRecord
  repeat' first
    | with_reducible exact Keeps.refl _ | with_reducible assumption | (simp -zeta only [↓Keeps.lit])
    | with_reducible apply State.modTile_keeps | with_reducible apply State.putRecord_keeps | split | (intro)

theorem State.pendRecord_keeps {s₀ s : State} {t : Nat} {r : CapRec} (kp : Keeps s₀ s) : Keeps s₀ (State.pendRecord s t r) :=
    by
  unfold State.pendRecord
  repeat' first
    | with_reducible exact Keeps.refl _ | with_reducible assumption
    | (extract_lets +onlyGivenNames x; refine Keeps.cut (x := x) ?_ ?_ <;> [subst x; (intro; rename' x => y)])
    | (extract_lets +onlyGivenNames x; subst x; try beta_reduce) | (simp -zeta only [↓Keeps.lit])
    | with_reducible apply State.modTile_keeps | split | (intro)

theorem State.stageSlot_keeps {s₀ s : State} {t : Nat} {i : Int} (kp : Keeps s₀ s) : Keeps s₀ (State.stageSlot s t i).1 := by
  unfold State.stageSlot
  repeat' first
    | with_reducible exact Keeps.refl _ | with_reducible assumption
    | (extract_lets +onlyGivenNames x; refine Keeps.cut (x := x) ?_ ?_ <;> [subst x; (intro; rename' x => y)])
    | (extract_lets +onlyGivenNames x; subst x; try beta_reduce) | (simp -zeta only [↓Keeps.lit])
    | with_reducible apply State.modTile_keeps | split | (intro)

theorem State.stageSlot_keepsEq {s₀ s : State} {t : Nat} {i : Int} {r2 : Bool} {t_ : State} (h : State.stageSlot s t i = (t_,
    r2)) (kp : Keeps s₀ s) : Keeps s₀ t_ := by
  have k := State.stageSlot_keeps (s₀ := s₀) (s := s) (t := t) (i := i) kp
  rwa [h] at k

theorem State.record_keeps {s₀ s : State} {t : Nat} {r : CapRec} {i : Int} (kp : Keeps s₀ s) : Keeps s₀ (State.record s t r i)
    := by
  unfold State.record
  repeat' first
    | with_reducible exact Keeps.refl _ | with_reducible assumption
    | (extract_lets +onlyGivenNames x; refine Keeps.cut (x := x) ?_ ?_ <;> [subst x; (intro; rename' x => y)])
    | (extract_lets +onlyGivenNames x; subst x; try beta_reduce) | (simp -zeta only [↓Keeps.lit])
    | with_reducible apply State.modTile_keeps | with_reducible apply State.lose_keeps
    | with_reducible apply State.putRecord_keeps | with_reducible apply State.frameRecord_keeps
    | with_reducible apply State.lateRecord_keeps | with_reducible apply State.pendRecord_keeps
    | with_reducible apply State.stageSlot_keeps | (refine State.stageSlot_keepsEq (by with_reducible assumption) ?_) | split
    | (intro)

theorem State.headAnchor_keeps {s₀ s : State} {t : Nat} {g : Gap} (kp : Keeps s₀ s) : Keeps s₀ (State.headAnchor s t g) := by
  unfold State.headAnchor
  repeat' first
    | with_reducible exact Keeps.refl _ | with_reducible assumption | with_reducible apply State.start_keeps
    | with_reducible apply State.putAnchor_keeps | split

theorem State.putPre_keeps {s₀ s : State} {t : Nat} {first : Bool} {gap : Option Gap} {l : List CapRec} (kp : Keeps s₀ s) :
    Keeps s₀ (State.putPre s t first gap l) := by
  induction l generalizing s first gap with
  | nil => exact kp
  | cons r l ih =>
    unfold State.putPre
    repeat' first
      | with_reducible exact Keeps.refl _ | with_reducible assumption | (simp -zeta only [↓Keeps.lit])
      | with_reducible apply ih | with_reducible apply State.fset_keeps | with_reducible apply State.putCrevasse_keeps
      | with_reducible apply State.headAnchor_keeps | with_reducible apply State.putRecord_keeps | with_reducible apply Keeps.foldl | split

theorem State.putTrig_keeps {s₀ s : State} {t : Nat} {i : Int} {pre : Nat} (kp : Keeps s₀ s) : Keeps s₀ (State.putTrig s t i
    pre) := by
  unfold State.putTrig
  repeat' first
    | with_reducible exact Keeps.refl _ | with_reducible assumption
    | (extract_lets +onlyGivenNames x; refine Keeps.cut (x := x) ?_ ?_ <;> [subst x; (intro; rename' x => y)])
    | (extract_lets +onlyGivenNames x; subst x; try beta_reduce) | with_reducible apply State.lose_keeps
    | with_reducible apply State.putRecord_keeps | with_reducible apply State.stageSlot_keeps
    | (refine State.stageSlot_keepsEq (by with_reducible assumption) ?_) | split

theorem State.frameHead_keeps {s₀ s : State} {t : Nat} {i : Int} {before : List CapRec} (kp : Keeps s₀ s) : Keeps s₀
    (State.frameHead s t i before) := by
  unfold State.frameHead
  repeat' first
    | with_reducible exact Keeps.refl _ | with_reducible assumption
    | (extract_lets +onlyGivenNames x; refine Keeps.cut (x := x) ?_ ?_ <;> [subst x; (intro; rename' x => y)])
    | (extract_lets +onlyGivenNames x; subst x; try beta_reduce) | (simp -zeta only [↓Keeps.lit])
    | with_reducible apply State.setFlag_keeps | with_reducible apply State.modTile_keeps
    | with_reducible apply State.endFrame_keeps | with_reducible apply State.putPre_keeps
    | with_reducible apply State.putTrig_keeps | split | (intro)

theorem State.pulseOut_keeps {s₀ s : State} {t : Nat} {i : Int} (kp : Keeps s₀ s) : Keeps s₀ (State.pulseOut s t i) := by
  unfold State.pulseOut
  repeat' first
    | with_reducible exact Keeps.refl _ | with_reducible assumption | (simp -zeta only [↓Keeps.lit])
    | with_reducible apply Keeps.foldl | split | (intro)

theorem State.maskMeet_keeps {s₀ s : State} {t : Nat} {v : Int} {time : Nat} {last : Int} (kp : Keeps s₀ s) : Keeps s₀
    (State.maskMeet s t v time last) := by
  unfold State.maskMeet
  repeat' first
    | with_reducible exact Keeps.refl _ | with_reducible assumption
    | (extract_lets +onlyGivenNames x; refine Keeps.cut (x := x) ?_ ?_ <;> [subst x; (intro; rename' x => y)])
    | (extract_lets +onlyGivenNames x; subst x; try beta_reduce) | (simp -zeta only [↓Keeps.lit])
    | with_reducible apply State.fset_keeps | with_reducible apply State.setFlag_keeps
    | with_reducible apply State.count_keeps | with_reducible apply State.modTile_keeps
    | with_reducible apply State.endFrame_keeps | with_reducible apply State.record_keeps | split | (intro)

theorem State.maskSample_keeps {s₀ s : State} {t lane : Nat} {v : Int} {time : Nat} {last : Int} (kp : Keeps s₀ s) : Keeps s₀
    (State.maskSample s t lane v time last) := by
  unfold State.maskSample
  repeat' first
    | with_reducible exact Keeps.refl _ | with_reducible assumption | (simp -zeta only [↓Keeps.lit])
    | with_reducible apply State.modTile_keeps | with_reducible apply State.maskMeet_keeps | split | (intro)

theorem State.maskDecide_keeps {s₀ s : State} {t : Nat} {time : Int} (kp : Keeps s₀ s) : Keeps s₀ (State.maskDecide s t time)
    := by
  unfold State.maskDecide
  repeat' first
    | with_reducible exact Keeps.refl _ | with_reducible assumption
    | (extract_lets +onlyGivenNames x; refine Keeps.cut (x := x) ?_ ?_ <;> [subst x; (intro; rename' x => y)])
    | (extract_lets +onlyGivenNames x; subst x; try beta_reduce) | (simp -zeta only [↓Keeps.lit])
    | with_reducible apply State.modTile_keeps | with_reducible apply State.maskMeet_keeps | with_reducible apply Keeps.foldl
    | split | (intro)

theorem State.maskStart_keeps {s₀ s : State} {t kind : Nat} {i : Int} (kp : Keeps s₀ s) : Keeps s₀ (State.maskStart s t kind
    i) := by
  unfold State.maskStart
  repeat' first
    | with_reducible exact Keeps.refl _ | with_reducible assumption | (simp -zeta only [↓Keeps.lit])
    | with_reducible apply State.modTile_keeps | split | (intro)

theorem State.writeFrame_keeps {s₀ s : State} {t : Nat} {i : Int} (kp : Keeps s₀ s) : Keeps s₀ (State.writeFrame s t i) := by
  unfold State.writeFrame
  repeat' first
    | with_reducible exact Keeps.refl _ | with_reducible assumption
    | (extract_lets +onlyGivenNames x; refine Keeps.cut (x := x) ?_ ?_ <;> [subst x; (intro; rename' x => y)])
    | (extract_lets +onlyGivenNames x; subst x; try beta_reduce) | with_reducible apply State.frameRecord_keeps
    | with_reducible apply State.pendRecord_keeps | with_reducible apply State.frameHead_keeps
    | with_reducible apply State.maskDecide_keeps | with_reducible apply State.maskStart_keeps
    | with_reducible apply Keeps.foldl | split | (intro)

theorem State.takeTrigger_keeps {s₀ s : State} {t : Nat} {i : Int} (kp : Keeps s₀ s) : Keeps s₀ (State.takeTrigger s t i) :=
    by
  unfold State.takeTrigger
  repeat' first
    | with_reducible exact Keeps.refl _ | with_reducible assumption
    | (extract_lets +onlyGivenNames x; refine Keeps.cut (x := x) ?_ ?_ <;> [subst x; (intro; rename' x => y)])
    | (extract_lets +onlyGivenNames x; subst x; try beta_reduce) | (simp -zeta only [↓Keeps.lit])
    | with_reducible apply State.count_keeps | with_reducible apply State.modTile_keeps
    | with_reducible apply State.beginHold_keeps | with_reducible apply State.putTrig_keeps
    | with_reducible apply State.pulseOut_keeps | with_reducible apply State.maskStart_keeps
    | with_reducible apply State.writeFrame_keeps | split | (intro)

theorem State.trigEvent_keeps {s₀ s : State} {t : Nat} {i : Int} (kp : Keeps s₀ s) : Keeps s₀ (State.trigEvent s t i) := by
  unfold State.trigEvent
  repeat' first
    | with_reducible exact Keeps.refl _ | with_reducible assumption
    | (extract_lets +onlyGivenNames x; refine Keeps.cut (x := x) ?_ ?_ <;> [subst x; (intro; rename' x => y)])
    | (extract_lets +onlyGivenNames x; subst x; try beta_reduce) | (simp -zeta only [↓Keeps.lit])
    | with_reducible apply State.count_keeps | with_reducible apply State.modTile_keeps
    | with_reducible apply State.takeTrigger_keeps | split | (intro)

theorem State.settleTrigs_keeps {s₀ s : State} {t : Nat} {i : Int} (kp : Keeps s₀ s) : Keeps s₀ (State.settleTrigs s t i) :=
    by
  unfold State.settleTrigs
  repeat' first
    | with_reducible exact Keeps.refl _ | with_reducible assumption
    | (extract_lets +onlyGivenNames x; refine Keeps.cut (x := x) ?_ ?_ <;> [subst x; (intro; rename' x => y)])
    | (extract_lets +onlyGivenNames x; subst x; try beta_reduce) | (simp -zeta only [↓Keeps.lit])
    | with_reducible apply State.modTile_keeps | with_reducible apply State.trigEvent_keeps | with_reducible apply Keeps.foldl
    | split | (intro)

theorem State.registerEvent_keeps {s₀ s : State} {t : Nat} {k : CondKey} {i : Int} {trig : Bool} (kp : Keeps s₀ s) : Keeps s₀
    (State.registerEvent s t k i trig) := by
  unfold State.registerEvent
  repeat' first
    | with_reducible exact Keeps.refl _ | with_reducible assumption
    | (extract_lets +onlyGivenNames x; refine Keeps.cut (x := x) ?_ ?_ <;> [subst x; (intro; rename' x => y)])
    | (extract_lets +onlyGivenNames x; subst x; try beta_reduce) | (simp -zeta only [↓Keeps.lit])
    | with_reducible apply State.modTile_keeps | with_reducible apply State.addCond_keeps
    | with_reducible apply State.settleTrigs_keeps | split | (intro)

theorem State.registerDue_keeps {s₀ s : State} (kp : Keeps s₀ s) : Keeps s₀ (State.registerDue s) := by
  unfold State.registerDue
  repeat' first
    | with_reducible exact Keeps.refl _ | with_reducible assumption | with_reducible apply State.syncConds_keeps
    | with_reducible apply State.settleTrigs_keeps | with_reducible apply Keeps.foldl | (intro)

theorem State.marker_keeps {s₀ s : State} {t : Nat} {i : Int} {m : BitVec 8} (kp : Keeps s₀ s) : Keeps s₀ (State.marker s t i
    m) := by
  unfold State.marker
  repeat' first
    | with_reducible exact Keeps.refl _ | with_reducible assumption
    | (extract_lets +onlyGivenNames x; refine Keeps.cut (x := x) ?_ ?_ <;> [subst x; (intro; rename' x => y)])
    | (extract_lets +onlyGivenNames x; subst x; try beta_reduce) | with_reducible apply State.maskStart_keeps
    | with_reducible apply State.trigEvent_keeps | split

theorem State.failsTrigger_keeps {s₀ s : State} {ch : Nat} {i : Int} (kp : Keeps s₀ s) : Keeps s₀ (State.failsTrigger s ch i)
    := by
  unfold State.failsTrigger
  repeat' first
    | with_reducible exact Keeps.refl _ | with_reducible assumption
    | (extract_lets +onlyGivenNames x; refine Keeps.cut (x := x) ?_ ?_ <;> [subst x; (intro; rename' x => y)])
    | (extract_lets +onlyGivenNames x; subst x; try beta_reduce) | (simp -zeta only [↓Keeps.lit])
    | with_reducible apply State.modTile_keeps | with_reducible apply State.trigEvent_keeps | split | (intro)

theorem State.crossSample_keeps {s₀ s : State} {t lane : Nat} {v time : Int} (kp : Keeps s₀ s) : Keeps s₀ (State.crossSample s
    t lane v time) := by
  unfold State.crossSample
  repeat' first
    | with_reducible exact Keeps.refl _ | with_reducible assumption
    | (extract_lets +onlyGivenNames x; refine Keeps.cut (x := x) ?_ ?_ <;> [subst x; (intro; rename' x => y)])
    | (extract_lets +onlyGivenNames x; subst x; try beta_reduce) | (simp -zeta only [↓Keeps.lit])
    | with_reducible apply State.modTile_keeps | with_reducible apply State.maskDecide_keeps
    | with_reducible apply State.trigEvent_keeps | split | (intro)

theorem State.putWaves_keeps {s₀ s : State} {t : Nat} {bound i : Int} (kp : Keeps s₀ s) : Keeps s₀ (State.putWaves s t bound
    i) := by
  unfold State.putWaves
  repeat' first
    | with_reducible exact Keeps.refl _ | with_reducible assumption
    | (extract_lets +onlyGivenNames x; refine Keeps.cut (x := x) ?_ ?_ <;> [subst x; (intro; rename' x => y)])
    | (extract_lets +onlyGivenNames x; subst x; try beta_reduce) | (simp -zeta only [↓Keeps.lit])
    | with_reducible apply State.modTile_keeps | with_reducible apply State.record_keeps | with_reducible apply Keeps.foldl
    | split | (intro)

theorem State.endCapture_keeps {s₀ s : State} {t : Nat} {i : Int} (kp : Keeps s₀ s) : Keeps s₀ (State.endCapture s t i) := by
  unfold State.endCapture
  repeat' first
    | with_reducible exact Keeps.refl _ | with_reducible assumption
    | (extract_lets +onlyGivenNames x; refine Keeps.cut (x := x) ?_ ?_ <;> [subst x; (intro; rename' x => y)])
    | (extract_lets +onlyGivenNames x; subst x; try beta_reduce) | (simp -zeta only [↓Keeps.lit])
    | with_reducible apply State.modTile_keeps | with_reducible apply State.putCrevasse_keeps
    | with_reducible apply State.endFrame_keeps | with_reducible apply State.maskDecide_keeps
    | with_reducible apply State.settleTrigs_keeps | with_reducible apply State.putWaves_keeps | split | (intro)

theorem State.syncCmp_keeps {s₀ s : State} {ch : Nat} (kp : Keeps s₀ s) : Keeps s₀ (State.syncCmp s ch) := by
  unfold State.syncCmp
  repeat' first
    | with_reducible exact Keeps.refl _ | with_reducible assumption
    | (extract_lets +onlyGivenNames x; refine Keeps.cut (x := x) ?_ ?_ <;> [subst x; (intro; rename' x => y)])
    | (extract_lets +onlyGivenNames x; subst x; try beta_reduce) | with_reducible apply State.fset_keeps | split

theorem State.setKnown_keeps {s₀ s : State} {ch : Nat} {hi lo : Bool} (kp : Keeps s₀ s) : Keeps s₀ (State.setKnown s ch hi lo)
    := by
  unfold State.setKnown
  repeat' first
    | with_reducible exact Keeps.refl _ | with_reducible assumption | with_reducible apply State.setFlag_keeps
    | with_reducible apply State.syncCmp_keeps

theorem State.clearKnown_keeps {s₀ s : State} {ch : Nat} {hi lo : Bool} (kp : Keeps s₀ s) : Keeps s₀ (State.clearKnown s ch hi
    lo) := by
  unfold State.clearKnown
  repeat' first
    | with_reducible exact Keeps.refl _ | with_reducible assumption | (simp -zeta only [↓Keeps.lit])
    | with_reducible apply State.modChan_keeps | with_reducible apply State.setKnown_keeps | split | (intro)

theorem State.forceReset_keeps {s₀ s : State} {ch : Nat} (kp : Keeps s₀ s) : Keeps s₀ (State.forceReset s ch) := by
  unfold State.forceReset
  repeat' first
    | with_reducible exact Keeps.refl _ | with_reducible assumption | (simp -zeta only [↓Keeps.lit])
    | with_reducible apply State.setFlag_keeps | with_reducible apply State.modChan_keeps
    | with_reducible apply State.setKnown_keeps | (intro)

theorem State.openGate_keeps {s₀ s : State} {ch : Nat} (kp : Keeps s₀ s) : Keeps s₀ (State.openGate s ch) := by
  unfold State.openGate
  repeat' first
    | with_reducible exact Keeps.refl _ | with_reducible assumption
    | (extract_lets +onlyGivenNames x; refine Keeps.cut (x := x) ?_ ?_ <;> [subst x; (intro; rename' x => y)])
    | (extract_lets +onlyGivenNames x; subst x; try beta_reduce) | (simp -zeta only [↓Keeps.lit])
    | with_reducible apply State.setFlag_keeps | with_reducible apply State.modChan_keeps
    | with_reducible apply State.setKnown_keeps | split | (intro)

theorem State.reach_keeps {s₀ s : State} {ch : Nat} (kp : Keeps s₀ s) : Keeps s₀ (State.reach s ch) := by
  unfold State.reach
  repeat' first
    | with_reducible exact Keeps.refl _ | with_reducible assumption | (simp -zeta only [↓Keeps.lit])
    | with_reducible apply State.modChan_keeps | (intro)

theorem State.reachTile_keeps {s₀ s : State} {t : Nat} (kp : Keeps s₀ s) : Keeps s₀ (State.reachTile s t) := by
  unfold State.reachTile
  repeat' first
    | with_reducible exact Keeps.refl _ | with_reducible assumption | (simp -zeta only [↓Keeps.lit])
    | with_reducible apply State.modTile_keeps | (intro)

theorem State.chSafe_keeps {s₀ s : State} {ch : Nat} (kp : Keeps s₀ s) : Keeps s₀ (State.chSafe s ch) := by
  unfold State.chSafe
  repeat' first
    | with_reducible exact Keeps.refl _ | with_reducible assumption | (simp -zeta only [↓Keeps.lit])
    | with_reducible apply State.modChan_keeps | with_reducible apply State.openGate_keeps
    | with_reducible apply State.reach_keeps | (intro)

theorem State.lend_keeps {s₀ s : State} {ch : Nat} (kp : Keeps s₀ s) : Keeps s₀ (State.lend s ch) := by
  unfold State.lend
  repeat' first
    | with_reducible exact Keeps.refl _ | with_reducible assumption | (simp -zeta only [↓Keeps.lit])
    | with_reducible apply State.modChan_keeps | with_reducible apply State.chSafe_keeps | (intro)

theorem State.resolve_keeps {s₀ s : State} {hi lo : Nat} {v : Int} (kp : Keeps s₀ s) : Keeps s₀ (State.resolve s hi lo v).2 :=
    by
  unfold State.resolve
  repeat' first
    | with_reducible exact Keeps.refl _ | with_reducible assumption
    | (extract_lets +onlyGivenNames x; refine Keeps.cut (x := x) ?_ ?_ <;> [subst x; (intro; rename' x => y)])
    | (extract_lets +onlyGivenNames x; subst x; try beta_reduce) | (simp -zeta only [↓Keeps.lit])
    | with_reducible apply State.free_keeps | (refine State.free_keepsEq (by with_reducible assumption) ?_) | split

theorem State.resolve_keepsEq {s₀ s : State} {hi lo : Nat} {v : Int} {r1 : CmpSample} {t_ : State} (h : State.resolve s hi lo
    v = (r1, t_)) (kp : Keeps s₀ s) : Keeps s₀ t_ := by
  have k := State.resolve_keeps (s₀ := s₀) (s := s) (hi := hi) (lo := lo) (v := v) kp
  rwa [h] at k

theorem State.applyLevel_keeps {s₀ s : State} {ch k : Nat} {code : BitVec 16} (kp : Keeps s₀ s) : Keeps s₀ (State.applyLevel s
    ch k code) := by
  unfold State.applyLevel
  repeat' first
    | with_reducible exact Keeps.refl _ | with_reducible assumption
    | (extract_lets +onlyGivenNames x; refine Keeps.cut (x := x) ?_ ?_ <;> [subst x; (intro; rename' x => y)])
    | (extract_lets +onlyGivenNames x; subst x; try beta_reduce) | (simp -zeta only [↓Keeps.lit])
    | with_reducible apply State.setFlag_keeps | with_reducible apply State.setChan_keeps
    | with_reducible apply State.clearKnown_keeps | split | (intro)

theorem State.applySafe_keeps {s₀ s : State} {ch k : Nat} (kp : Keeps s₀ s) : Keeps s₀ (State.applySafe s ch k) := by
  unfold State.applySafe
  repeat' first
    | with_reducible exact Keeps.refl _ | with_reducible assumption
    | (extract_lets +onlyGivenNames x; refine Keeps.cut (x := x) ?_ ?_ <;> [subst x; (intro; rename' x => y)])
    | (extract_lets +onlyGivenNames x; subst x; try beta_reduce) | (simp -zeta only [↓Keeps.lit])
    | with_reducible apply State.modChan_keeps | with_reducible apply State.applyLevel_keeps | (intro)

theorem State.levelCode_keeps {s₀ s : State} {ch k : Nat} {code : BitVec 16} (kp : Keeps s₀ s) : Keeps s₀ (State.levelCode s
    ch k code) := by
  unfold State.levelCode
  repeat' first
    | with_reducible exact Keeps.refl _ | with_reducible assumption
    | (extract_lets +onlyGivenNames x; refine Keeps.cut (x := x) ?_ ?_ <;> [subst x; (intro; rename' x => y)])
    | (extract_lets +onlyGivenNames x; subst x; try beta_reduce) | with_reducible apply State.fset_keeps
    | with_reducible apply State.applyLevel_keeps | split

theorem State.chMode_keeps {s₀ s : State} {ch : Nat} {v : Word} (kp : Keeps s₀ s) : Keeps s₀ (State.chMode s ch v) := by
  unfold State.chMode
  repeat' first
    | with_reducible exact Keeps.refl _ | with_reducible assumption
    | (extract_lets +onlyGivenNames x; refine Keeps.cut (x := x) ?_ ?_ <;> [subst x; (intro; rename' x => y)])
    | (extract_lets +onlyGivenNames x; subst x; try beta_reduce) | (simp -zeta only [↓Keeps.lit])
    | with_reducible apply State.rset_keeps | with_reducible apply State.setFlag_keeps
    | with_reducible apply State.modChan_keeps | with_reducible apply State.clearKnown_keeps
    | with_reducible apply State.forceReset_keeps | with_reducible apply State.openGate_keeps
    | with_reducible apply State.reach_keeps | split | (intro)

theorem State.gateDone_keeps {s₀ s : State} {ch : Nat} (kp : Keeps s₀ s) : Keeps s₀ (State.gateDone s ch) := by
  unfold State.gateDone
  repeat' first
    | with_reducible exact Keeps.refl _ | with_reducible assumption
    | (extract_lets +onlyGivenNames x; refine Keeps.cut (x := x) ?_ ?_ <;> [subst x; (intro; rename' x => y)])
    | (extract_lets +onlyGivenNames x; subst x; try beta_reduce) | (simp -zeta only [↓Keeps.lit])
    | with_reducible apply State.setFlag_keeps | with_reducible apply State.modChan_keeps
    | with_reducible apply State.setKnown_keeps | with_reducible apply State.forceReset_keeps | split | (intro)

theorem State.gateOpen_keeps {s₀ s : State} {ch : Nat} (kp : Keeps s₀ s) : Keeps s₀ (State.gateOpen s ch) := by
  unfold State.gateOpen
  repeat' first
    | with_reducible exact Keeps.refl _ | with_reducible assumption | (simp -zeta only [↓Keeps.lit])
    | with_reducible apply State.setFlag_keeps | with_reducible apply State.modChan_keeps | split | (intro)

theorem State.pmuCfg_keeps {s₀ s : State} {ch : Nat} {v : Word} {measured : BitVec 16} (kp : Keeps s₀ s) : Keeps s₀
    (State.pmuCfg s ch v measured) := by
  unfold State.pmuCfg
  repeat' first
    | with_reducible exact Keeps.refl _ | with_reducible assumption
    | (extract_lets +onlyGivenNames x; refine Keeps.cut (x := x) ?_ ?_ <;> [subst x; (intro; rename' x => y)])
    | (extract_lets +onlyGivenNames x; subst x; try beta_reduce) | (simp -zeta only [↓Keeps.lit])
    | with_reducible apply State.rset_keeps | with_reducible apply State.setFlag_keeps
    | with_reducible apply State.modChan_keeps | with_reducible apply State.levelCode_keeps | split | (intro)

theorem State.modSnt_keeps {s₀ s : State} {n : Nat} {f : SntCtx → SntCtx} (kp : Keeps s₀ s) : Keeps s₀ (State.modSnt s n f) :=
    by
  unfold State.modSnt
  repeat' first
    | with_reducible exact Keeps.refl _ | with_reducible assumption | (simp -zeta only [↓Keeps.lit]) | (intro)

theorem State.syncDse_keeps {s₀ s : State} (kp : Keeps s₀ s) : Keeps s₀ (State.syncDse s) := by
  unfold State.syncDse
  repeat' first
    | with_reducible exact Keeps.refl _ | with_reducible assumption
    | (extract_lets +onlyGivenNames x; refine Keeps.cut (x := x) ?_ ?_ <;> [subst x; (intro; rename' x => y)])
    | (extract_lets +onlyGivenNames x; subst x; try beta_reduce) | with_reducible apply State.setPair_keeps
    | with_reducible apply Keeps.foldl | split | (intro)

theorem State.dseDrop_keeps {s₀ s : State} {m : Nat} (kp : Keeps s₀ s) : Keeps s₀ (State.dseDrop s m) := by
  unfold State.dseDrop
  repeat' first
    | with_reducible exact Keeps.refl _ | with_reducible assumption | with_reducible apply State.setPair_keeps
    | with_reducible apply State.syncDse_keeps

theorem State.sntSync_keeps {s₀ s : State} {n : Nat} (kp : Keeps s₀ s) : Keeps s₀ (State.sntSync s n) := by
  unfold State.sntSync
  repeat' first
    | with_reducible exact Keeps.refl _ | with_reducible assumption
    | (extract_lets +onlyGivenNames x; refine Keeps.cut (x := x) ?_ ?_ <;> [subst x; (intro; rename' x => y)])
    | (extract_lets +onlyGivenNames x; subst x; try beta_reduce) | with_reducible apply State.setFlag_keeps
    | with_reducible apply State.syncDse_keeps

theorem State.sntCfg_keeps {s₀ s : State} {n : Nat} {v : Word} (kp : Keeps s₀ s) : Keeps s₀ (State.sntCfg s n v) := by
  unfold State.sntCfg
  repeat' first
    | with_reducible exact Keeps.refl _ | with_reducible assumption
    | (extract_lets +onlyGivenNames x; refine Keeps.cut (x := x) ?_ ?_ <;> [subst x; (intro; rename' x => y)])
    | (extract_lets +onlyGivenNames x; subst x; try beta_reduce) | (simp -zeta only [↓Keeps.lit])
    | with_reducible apply State.rset_keeps | with_reducible apply State.modSnt_keeps
    | with_reducible apply State.sntSync_keeps | split | (intro)

theorem State.faultRecord_keeps {s₀ s : State} {b src : Nat} {inj : Bool} (kp : Keeps s₀ s) : Keeps s₀ (State.faultRecord s b
    src inj) := by
  unfold State.faultRecord
  repeat' first
    | with_reducible exact Keeps.refl _ | with_reducible assumption
    | (extract_lets +onlyGivenNames x; refine Keeps.cut (x := x) ?_ ?_ <;> [subst x; (intro; rename' x => y)])
    | (extract_lets +onlyGivenNames x; subst x; try beta_reduce) | (simp -zeta only [↓Keeps.lit])
    | with_reducible apply State.stageOnly_keeps | split | (intro)

theorem State.faultLog_keeps {s₀ s : State} {b src : Nat} {inj : Bool} (kp : Keeps s₀ s) : Keeps s₀ (State.faultLog s b src
    inj) := by
  unfold State.faultLog
  repeat' first
    | with_reducible exact Keeps.refl _ | with_reducible assumption
    | (extract_lets +onlyGivenNames x; refine Keeps.cut (x := x) ?_ ?_ <;> [subst x; (intro; rename' x => y)])
    | (extract_lets +onlyGivenNames x; subst x; try beta_reduce) | with_reducible apply State.faultBits_keeps
    | with_reducible apply State.faultRecord_keeps | split

theorem State.faultRaises_keeps {s₀ s : State} {l : List (Nat × Nat)} {inj : Bool} (kp : Keeps s₀ s) : Keeps s₀
    (State.faultRaises s l inj) := by
  unfold State.faultRaises
  repeat' first
    | with_reducible exact Keeps.refl _ | with_reducible assumption
    | (extract_lets +onlyGivenNames x; refine Keeps.cut (x := x) ?_ ?_ <;> [subst x; (intro; rename' x => y)])
    | (extract_lets +onlyGivenNames x; subst x; try beta_reduce) | with_reducible apply State.faultBits_keeps
    | with_reducible apply State.faultActs_keeps | with_reducible apply State.faultRecord_keeps
    | with_reducible apply Keeps.foldl | split | (intro)

theorem State.faultRaise_keeps {s₀ s : State} {b src : Nat} {inj : Bool} (kp : Keeps s₀ s) : Keeps s₀ (State.faultRaise s b
    src inj) := by
  unfold State.faultRaise
  repeat' first
    | with_reducible exact Keeps.refl _ | with_reducible assumption | with_reducible apply State.faultRaises_keeps

theorem State.safetyNote_keeps {s₀ s : State} {f unit src : Nat} (kp : Keeps s₀ s) : Keeps s₀ (State.safetyNote s f unit src)
    := by
  unfold State.safetyNote
  repeat' first
    | with_reducible exact Keeps.refl _ | with_reducible assumption
    | (extract_lets +onlyGivenNames x; refine Keeps.cut (x := x) ?_ ?_ <;> [subst x; (intro; rename' x => y)])
    | (extract_lets +onlyGivenNames x; subst x; try beta_reduce) | (simp -zeta only [↓Keeps.lit])
    | with_reducible apply State.rset_keeps | with_reducible apply State.evCount_keeps

theorem State.safetyTaint_keeps {s₀ s : State} {f unit : Nat} {inj : Bool} (kp : Keeps s₀ s) : Keeps s₀ (State.safetyTaint s f
    unit inj) := by
  unfold State.safetyTaint
  repeat' first
    | with_reducible exact Keeps.refl _ | with_reducible assumption | with_reducible apply State.suspectFlag_keeps
    | with_reducible apply State.suspectAll_keeps | split

theorem State.safety_keeps {s₀ s : State} {f unit src : Nat} {inj : Bool} (kp : Keeps s₀ s) : Keeps s₀ (State.safety s f unit
    src inj) := by
  unfold State.safety
  repeat' first
    | with_reducible exact Keeps.refl _ | with_reducible assumption | with_reducible apply State.faultRaise_keeps
    | with_reducible apply State.safetyNote_keeps | with_reducible apply State.safetyTaint_keeps

theorem State.pinReaction_keeps {s₀ s : State} {f : Fld} {fn src ch : Nat} {inj : Bool} (kp : Keeps s₀ s) : Keeps s₀
    (State.pinReaction s f fn src ch inj) := by
  unfold State.pinReaction
  repeat' first
    | with_reducible exact Keeps.refl _ | with_reducible assumption
    | (extract_lets +onlyGivenNames x; refine Keeps.cut (x := x) ?_ ?_ <;> [subst x; (intro; rename' x => y)])
    | (extract_lets +onlyGivenNames x; subst x; try beta_reduce) | (simp -zeta only [↓Keeps.lit])
    | with_reducible apply State.setFlag_keeps | with_reducible apply State.modChan_keeps
    | with_reducible apply State.chSafe_keeps | with_reducible apply State.safety_keeps | (intro)

theorem State.checkBad_keeps {s₀ s : State} {f : Fld} {ch : Nat} {retest inj : Bool} (kp : Keeps s₀ s) : Keeps s₀
    (State.checkBad s f ch retest inj) := by
  unfold State.checkBad
  repeat' first
    | with_reducible exact Keeps.refl _ | with_reducible assumption
    | (extract_lets +onlyGivenNames x; refine Keeps.cut (x := x) ?_ ?_ <;> [subst x; (intro; rename' x => y)])
    | (extract_lets +onlyGivenNames x; subst x; try beta_reduce) | (simp -zeta only [↓Keeps.lit])
    | with_reducible apply State.setFlag_keeps | with_reducible apply State.modChan_keeps
    | with_reducible apply State.suspectFlag_keeps | with_reducible apply State.indChan_keeps
    | with_reducible apply State.safety_keeps | split | (intro)

theorem State.syncTrace_keeps {s₀ s : State} {ch : Nat} (kp : Keeps s₀ s) : Keeps s₀ (State.syncTrace s ch) := by
  unfold State.syncTrace
  repeat' first
    | with_reducible exact Keeps.refl _ | with_reducible assumption | with_reducible apply State.setFlag_keeps | (intro)

theorem State.calItem_keeps {s₀ s : State} {ch subj : Nat} (kp : Keeps s₀ s) : Keeps s₀ (State.calItem s ch subj) := by
  unfold State.calItem
  repeat' first
    | with_reducible exact Keeps.refl _ | with_reducible assumption
    | (extract_lets +onlyGivenNames x; refine Keeps.cut (x := x) ?_ ?_ <;> [subst x; (intro; rename' x => y)])
    | (extract_lets +onlyGivenNames x; subst x; try beta_reduce) | (simp -zeta only [↓Keeps.lit])
    | with_reducible apply State.fset_keeps | split | (intro)

theorem State.calChan_keeps {s₀ s : State} {ch : Nat} (kp : Keeps s₀ s) : Keeps s₀ (State.calChan s ch) := by
  unfold State.calChan
  repeat' first
    | with_reducible exact Keeps.refl _ | with_reducible assumption
    | (extract_lets +onlyGivenNames x; refine Keeps.cut (x := x) ?_ ?_ <;> [subst x; (intro; rename' x => y)])
    | (extract_lets +onlyGivenNames x; subst x; try beta_reduce) | with_reducible apply State.applyLevel_keeps
    | with_reducible apply State.calItem_keeps | with_reducible apply Keeps.foldl | split | (intro)

theorem State.syncStale_keeps {s₀ s : State} {ch : Nat} (kp : Keeps s₀ s) : Keeps s₀ (State.syncStale s ch) := by
  unfold State.syncStale
  repeat' first
    | with_reducible exact Keeps.refl _ | with_reducible assumption
    | (extract_lets +onlyGivenNames x; refine Keeps.cut (x := x) ?_ ?_ <;> [subst x; (intro; rename' x => y)])
    | (extract_lets +onlyGivenNames x; subst x; try beta_reduce) | with_reducible apply State.fset_keeps
    | with_reducible apply State.setFlag_keeps | with_reducible apply State.suspectFlag_keeps
    | with_reducible apply Keeps.foldl | split | (intro)

theorem State.calLoad_keeps {s₀ s : State} {t : Nat} (kp : Keeps s₀ s) : Keeps s₀ (State.calLoad s t) := by
  unfold State.calLoad
  repeat' first
    | with_reducible exact Keeps.refl _ | with_reducible assumption
    | (extract_lets +onlyGivenNames x; refine Keeps.cut (x := x) ?_ ?_ <;> [subst x; (intro; rename' x => y)])
    | (extract_lets +onlyGivenNames x; subst x; try beta_reduce) | (simp -zeta only [↓Keeps.lit])
    | with_reducible apply State.fset_keeps | with_reducible apply State.modTile_keeps
    | with_reducible apply State.syncTrace_keeps | with_reducible apply State.calChan_keeps
    | with_reducible apply State.syncStale_keeps | with_reducible apply Keeps.foldl | (intro)

theorem State.calApply_keeps {s₀ s : State} {t : Nat} (kp : Keeps s₀ s) : Keeps s₀ (State.calApply s t) := by
  unfold State.calApply
  repeat' first
    | with_reducible exact Keeps.refl _ | with_reducible assumption | with_reducible apply State.calLoad_keeps | split

theorem State.syncPool_keeps {s₀ s : State} {t : Nat} (kp : Keeps s₀ s) : Keeps s₀ (State.syncPool s t) := by
  unfold State.syncPool
  repeat' first
    | with_reducible exact Keeps.refl _ | with_reducible assumption | with_reducible apply State.fset_keeps

theorem State.fcFail_keeps {s₀ s : State} {ch : Nat} {b : FcBit} {ofE : Bool} (kp : Keeps s₀ s) : Keeps s₀ (State.fcFail s ch
    b ofE) := by
  unfold State.fcFail
  repeat' first
    | with_reducible exact Keeps.refl _ | with_reducible assumption
    | (extract_lets +onlyGivenNames x; refine Keeps.cut (x := x) ?_ ?_ <;> [subst x; (intro; rename' x => y)])
    | (extract_lets +onlyGivenNames x; subst x; try beta_reduce) | (simp -zeta only [↓Keeps.lit])
    | with_reducible apply State.modTile_keeps | with_reducible apply State.fail_keeps
    | with_reducible apply State.syncPool_keeps | with_reducible apply Keeps.foldl | split | (intro)

theorem State.mergeRepair_keeps {s₀ s : State} {tiles : List Nat} {site : Nat} (kp : Keeps s₀ s) : Keeps s₀ (State.mergeRepair
    s tiles site) := by
  unfold State.mergeRepair
  repeat' first
    | with_reducible exact Keeps.refl _ | with_reducible assumption
    | (extract_lets +onlyGivenNames x; refine Keeps.cut (x := x) ?_ ?_ <;> [subst x; (intro; rename' x => y)])
    | (extract_lets +onlyGivenNames x; subst x; try beta_reduce) | (simp -zeta only [↓Keeps.lit])
    | with_reducible apply State.rset_keeps | with_reducible apply State.fset_keeps | with_reducible apply Keeps.foldl
    | (intro)

theorem State.mergeMargins_keeps {s₀ s : State} {tiles : List Nat} {site : Nat} (kp : Keeps s₀ s) : Keeps s₀
    (State.mergeMargins s tiles site) := by
  unfold State.mergeMargins
  repeat' first
    | with_reducible exact Keeps.refl _ | with_reducible assumption
    | (extract_lets +onlyGivenNames x; refine Keeps.cut (x := x) ?_ ?_ <;> [subst x; (intro; rename' x => y)])
    | (extract_lets +onlyGivenNames x; subst x; try beta_reduce) | with_reducible apply State.rset_keeps
    | with_reducible apply State.fset_keeps | with_reducible apply Keeps.foldl | (intro)

theorem State.segErase_keeps {s₀ s : State} {t i : Nat} (kp : Keeps s₀ s) : Keeps s₀ (State.segErase s t i) := by
  unfold State.segErase
  repeat' first
    | with_reducible exact Keeps.refl _ | with_reducible assumption | with_reducible apply State.merase_keeps | (intro)

theorem State.setSegSeal_keeps {s₀ s : State} {t i : Nat} {x : SegSeal} (kp : Keeps s₀ s) : Keeps s₀ (State.setSegSeal s t i
    x) := by
  unfold State.setSegSeal
  repeat' first
    | with_reducible exact Keeps.refl _ | with_reducible assumption | (simp -zeta only [↓Keeps.lit]) | (intro)

theorem State.segEmpty_keeps {s₀ s : State} {t i : Nat} (kp : Keeps s₀ s) : Keeps s₀ (State.segEmpty s t i) := by
  unfold State.segEmpty
  repeat' first
    | with_reducible exact Keeps.refl _ | with_reducible assumption | (simp -zeta only [↓Keeps.lit])
    | with_reducible apply State.fset_keeps | with_reducible apply State.segErase_keeps
    | with_reducible apply State.setSegSeal_keeps

theorem State.segBad_keeps {s₀ s : State} {t i off n : Nat} (kp : Keeps s₀ s) : Keeps s₀ (State.segBad s t i off n) := by
  unfold State.segBad
  repeat' first
    | with_reducible exact Keeps.refl _ | with_reducible assumption
    | (extract_lets +onlyGivenNames x; refine Keeps.cut (x := x) ?_ ?_ <;> [subst x; (intro; rename' x => y)])
    | (extract_lets +onlyGivenNames x; subst x; try beta_reduce) | (simp -zeta only [↓Keeps.lit])
    | with_reducible apply State.setSegSeal_keeps | split

theorem State.segSync_keeps {s₀ s : State} {t : Nat} (kp : Keeps s₀ s) : Keeps s₀ (State.segSync s t) := by
  unfold State.segSync
  repeat' first
    | with_reducible exact Keeps.refl _ | with_reducible assumption
    | (extract_lets +onlyGivenNames x; refine Keeps.cut (x := x) ?_ ?_ <;> [subst x; (intro; rename' x => y)])
    | (extract_lets +onlyGivenNames x; subst x; try beta_reduce) | with_reducible apply State.fset_keeps
    | with_reducible apply State.setFlag_keeps | with_reducible apply State.eventFor_keeps | with_reducible apply Keeps.foldl
    | split | (intro)

theorem State.ringAdvance_keeps {s₀ s : State} {t : Nat} (kp : Keeps s₀ s) : Keeps s₀ (State.ringAdvance s t) := by
  unfold State.ringAdvance
  repeat' first
    | with_reducible exact Keeps.refl _ | with_reducible assumption
    | (extract_lets +onlyGivenNames x; refine Keeps.cut (x := x) ?_ ?_ <;> [subst x; (intro; rename' x => y)])
    | (extract_lets +onlyGivenNames x; subst x; try beta_reduce) | (simp -zeta only [↓Keeps.lit])
    | with_reducible apply State.fset_keeps | with_reducible apply State.modTile_keeps
    | with_reducible apply State.segEmpty_keeps | split | (intro)

theorem State.segPlay_keeps {s₀ s : State} {t i : Nat} (kp : Keeps s₀ s) : Keeps s₀ (State.segPlay s t i) := by
  unfold State.segPlay
  repeat' first
    | with_reducible exact Keeps.refl _ | with_reducible assumption
    | (extract_lets +onlyGivenNames x; refine Keeps.cut (x := x) ?_ ?_ <;> [subst x; (intro; rename' x => y)])
    | (extract_lets +onlyGivenNames x; subst x; try beta_reduce) | (simp -zeta only [↓Keeps.lit])
    | with_reducible apply State.fset_keeps | with_reducible apply State.modTile_keeps
    | with_reducible apply State.segEmpty_keeps | split | (intro)

theorem State.segEnd_keeps {s₀ s : State} {t : Nat} (kp : Keeps s₀ s) : Keeps s₀ (State.segEnd s t) := by
  unfold State.segEnd
  repeat' first
    | with_reducible exact Keeps.refl _ | with_reducible assumption
    | (extract_lets +onlyGivenNames x; refine Keeps.cut (x := x) ?_ ?_ <;> [subst x; (intro; rename' x => y)])
    | (extract_lets +onlyGivenNames x; subst x; try beta_reduce) | (simp -zeta only [↓Keeps.lit])
    | with_reducible apply State.fset_keeps | with_reducible apply State.modTile_keeps
    | with_reducible apply State.segEmpty_keeps | with_reducible apply Keeps.foldl | split | (intro)

theorem State.showApg_keeps {s₀ s : State} {t : Nat} {a : Apg} (kp : Keeps s₀ s) : Keeps s₀ (State.showApg s t a) := by
  unfold State.showApg
  repeat' first
    | with_reducible exact Keeps.refl _ | with_reducible assumption | with_reducible apply State.rset_keeps
    | with_reducible apply State.fset_keeps | with_reducible apply State.setFlag_keeps

theorem State.drop_keeps {s₀ s : State} {ch edge cyc : Nat} {cause : DropCause} {window : Bool} (kp : Keeps s₀ s) : Keeps s₀
    (State.drop s ch edge cyc cause window) := by
  unfold State.drop
  repeat' first
    | with_reducible exact Keeps.refl _ | with_reducible assumption
    | (extract_lets +onlyGivenNames x; refine Keeps.cut (x := x) ?_ ?_ <;> [subst x; (intro; rename' x => y)])
    | (extract_lets +onlyGivenNames x; subst x; try beta_reduce) | with_reducible apply State.rset_keeps
    | with_reducible apply State.count_keeps | with_reducible apply State.setPair_keeps
    | with_reducible apply State.suspectFlag_keeps | with_reducible apply State.indChan_keeps | split

theorem State.driveCycle_keeps {s₀ s : State} {ch cyc set : Nat} {c e : Int} {d : Drive} (kp : Keeps s₀ s) : Keeps s₀
    (State.driveCycle s ch cyc set c e d) := by
  unfold State.driveCycle
  repeat' first
    | with_reducible exact Keeps.refl _ | with_reducible assumption
    | (extract_lets +onlyGivenNames x; refine Keeps.cut (x := x) ?_ ?_ <;> [subst x; (intro; rename' x => y)])
    | (extract_lets +onlyGivenNames x; subst x; try beta_reduce) | (simp -zeta only [↓Keeps.lit])
    | with_reducible apply State.modChan_keeps | with_reducible apply State.drop_keeps | with_reducible apply Keeps.foldl
    | (intro)

theorem State.cycRecords_keeps {s₀ s : State} {t : Nat} {i : Int} (kp : Keeps s₀ s) : Keeps s₀ (State.cycRecords s t i) := by
  unfold State.cycRecords
  repeat' first
    | with_reducible exact Keeps.refl _ | with_reducible assumption
    | (extract_lets +onlyGivenNames x; refine Keeps.cut (x := x) ?_ ?_ <;> [subst x; (intro; rename' x => y)])
    | (extract_lets +onlyGivenNames x; subst x; try beta_reduce) | (simp -zeta only [↓Keeps.lit])
    | with_reducible apply State.modTile_keeps | with_reducible apply State.start_keeps
    | with_reducible apply State.record_keeps | with_reducible apply Keeps.foldl | split | (intro)

theorem State.dropStrobe_keeps {s₀ s : State} {ch : Nat} {x : Strobe} {edge : Nat} {cause : DropCause} (kp : Keeps s₀ s) :
    Keeps s₀ (State.dropStrobe s ch x edge cause) := by
  unfold State.dropStrobe
  repeat' first
    | with_reducible exact Keeps.refl _ | with_reducible assumption
    | (extract_lets +onlyGivenNames x; refine Keeps.cut (x := x) ?_ ?_ <;> [subst x; (intro; rename' x => y)])
    | (extract_lets +onlyGivenNames x; subst x; try beta_reduce) | (simp -zeta only [↓Keeps.lit])
    | with_reducible apply State.modTile_keeps | with_reducible apply State.modChan_keeps
    | with_reducible apply State.drop_keeps | with_reducible apply State.cycRecords_keeps | split | (intro)

theorem State.judgeStrobes_keeps {s₀ s : State} {ch cyc : Nat} {e : Int} {new : List Int} (kp : Keeps s₀ s) : Keeps s₀
    (State.judgeStrobes s ch cyc e new) := by
  unfold State.judgeStrobes
  repeat' first
    | with_reducible exact Keeps.refl _ | with_reducible assumption
    | (extract_lets +onlyGivenNames x; refine Keeps.cut (x := x) ?_ ?_ <;> [subst x; (intro; rename' x => y)])
    | (extract_lets +onlyGivenNames x; subst x; try beta_reduce) | (simp -zeta only [↓Keeps.lit])
    | with_reducible apply State.modChan_keeps | with_reducible apply State.dropStrobe_keeps
    | with_reducible apply Keeps.foldl | split | (intro)

theorem State.bumpSnap_keeps {s₀ s : State} {m k fuel : Nat} (kp : Keeps s₀ s) : Keeps s₀ (State.bumpSnap s m k fuel) := by
  induction fuel generalizing s m k with
  | zero => exact kp
  | succ fuel ih =>
    unfold State.bumpSnap
    extract_lets v s₁
    have h : Keeps s₀ s₁ := State.rset_keeps kp
    split
    · exact ih h
    · exact h

theorem State.lateEv_keeps {s₀ s : State} {n k : Nat} (kp : Keeps s₀ s) : Keeps s₀ (State.lateEv s n k) := by
  unfold State.lateEv
  repeat' first
    | with_reducible exact Keeps.refl _ | with_reducible assumption
    | (extract_lets +onlyGivenNames x; refine Keeps.cut (x := x) ?_ ?_ <;> [subst x; (intro; rename' x => y)])
    | (extract_lets +onlyGivenNames x; subst x; try beta_reduce) | (simp -zeta only [↓Keeps.lit])
    | with_reducible apply State.bumpSnap_keeps | with_reducible apply Keeps.foldl | split | (intro)

theorem State.tileEv_keeps {s₀ s : State} {t k : Nat} {i : Int} {n : Nat} (kp : Keeps s₀ s) : Keeps s₀ (State.tileEv s t k i
    n) := by
  unfold State.tileEv
  repeat' first
    | with_reducible exact Keeps.refl _ | with_reducible assumption
    | (extract_lets +onlyGivenNames x; refine Keeps.cut (x := x) ?_ ?_ <;> [subst x; (intro; rename' x => y)])
    | (extract_lets +onlyGivenNames x; subst x; try beta_reduce) | with_reducible apply State.evCount_keeps
    | with_reducible apply State.lateEv_keeps | split

theorem State.openWindow_keeps {s₀ s : State} {ch : Nat} {w : Win} (kp : Keeps s₀ s) : Keeps s₀ (State.openWindow s ch w) :=
    by
  unfold State.openWindow
  repeat' first
    | with_reducible exact Keeps.refl _ | with_reducible assumption
    | (extract_lets +onlyGivenNames x; refine Keeps.cut (x := x) ?_ ?_ <;> [subst x; (intro; rename' x => y)])
    | (extract_lets +onlyGivenNames x; subst x; try beta_reduce) | (simp -zeta only [↓Keeps.lit])
    | with_reducible apply State.count_keeps | with_reducible apply State.modChan_keeps | split | (intro)

theorem State.openDue_keeps {s₀ s : State} {ch : Nat} {i : Int} (kp : Keeps s₀ s) : Keeps s₀ (State.openDue s ch i) := by
  unfold State.openDue
  repeat' first
    | with_reducible exact Keeps.refl _ | with_reducible assumption | with_reducible apply State.openWindow_keeps
    | with_reducible apply Keeps.foldl | (intro)

theorem State.openFirm_keeps {s₀ s : State} {ch : Nat} {i : Int} (kp : Keeps s₀ s) : Keeps s₀ (State.openFirm s ch i) := by
  unfold State.openFirm
  repeat' first
    | with_reducible exact Keeps.refl _ | with_reducible assumption | with_reducible apply State.openDue_keeps
    | with_reducible apply Keeps.foldl | split | (intro)

theorem State.windowsNow_keeps {s₀ s : State} {ch : Nat} (kp : Keeps s₀ s) : Keeps s₀ (State.windowsNow s ch) := by
  unfold State.windowsNow
  repeat' first
    | with_reducible exact Keeps.refl _ | with_reducible assumption | with_reducible apply State.openFirm_keeps | split

theorem State.addWindow_keeps {s₀ s : State} {ch : Nat} {i : Int} {w : Win} (kp : Keeps s₀ s) : Keeps s₀ (State.addWindow s ch
    i w) := by
  unfold State.addWindow
  repeat' first
    | with_reducible exact Keeps.refl _ | with_reducible assumption
    | (extract_lets +onlyGivenNames x; refine Keeps.cut (x := x) ?_ ?_ <;> [subst x; (intro; rename' x => y)])
    | (extract_lets +onlyGivenNames x; subst x; try beta_reduce) | (simp -zeta only [↓Keeps.lit])
    | with_reducible apply State.modChan_keeps | with_reducible apply State.openFirm_keeps | split | (intro)

theorem State.closeWindows_keeps {s₀ s : State} {ch : Nat} {e : Int} (kp : Keeps s₀ s) : Keeps s₀ (State.closeWindows s ch e)
    := by
  unfold State.closeWindows
  repeat' first
    | with_reducible exact Keeps.refl _ | with_reducible assumption
    | (extract_lets +onlyGivenNames x; refine Keeps.cut (x := x) ?_ ?_ <;> [subst x; (intro; rename' x => y)])
    | (extract_lets +onlyGivenNames x; subst x; try beta_reduce) | (simp -zeta only [↓Keeps.lit])
    | with_reducible apply State.count_keeps | with_reducible apply State.modChan_keeps
    | with_reducible apply State.openDue_keeps | with_reducible apply Keeps.foldl | split | (intro)

theorem State.histogram_keeps {s₀ s : State} {ch cls : Nat} {t i : Int} (kp : Keeps s₀ s) : Keeps s₀ (State.histogram s ch cls
    t i) := by
  unfold State.histogram
  repeat' first
    | with_reducible exact Keeps.refl _ | with_reducible assumption
    | (extract_lets +onlyGivenNames x; refine Keeps.cut (x := x) ?_ ?_ <;> [subst x; (intro; rename' x => y)])
    | (extract_lets +onlyGivenNames x; subst x; try beta_reduce) | with_reducible apply State.setFlag_keeps
    | with_reducible apply State.mwrite_keeps | split

theorem State.derive_keeps {s₀ s : State} {ch a : Nat} {v : Int} {better : Int → Int → Bool} (kp : Keeps s₀ s) : Keeps s₀
    (State.derive s ch a v better) := by
  unfold State.derive
  repeat' first
    | with_reducible exact Keeps.refl _ | with_reducible assumption
    | (extract_lets +onlyGivenNames x; refine Keeps.cut (x := x) ?_ ?_ <;> [subst x; (intro; rename' x => y)])
    | (extract_lets +onlyGivenNames x; subst x; try beta_reduce) | with_reducible apply State.rset_keeps
    | with_reducible apply State.setFlag_keeps | split

theorem State.derived_keeps {s₀ s : State} {ch cls : Nat} {t w : Int} (kp : Keeps s₀ s) : Keeps s₀ (State.derived s ch cls t
    w) := by
  unfold State.derived
  repeat' first
    | with_reducible exact Keeps.refl _ | with_reducible assumption
    | (extract_lets +onlyGivenNames x; refine Keeps.cut (x := x) ?_ ?_ <;> [subst x; (intro; rename' x => y)])
    | (extract_lets +onlyGivenNames x; subst x; try beta_reduce) | with_reducible apply State.count_keeps
    | with_reducible apply State.derive_keeps | split

theorem State.attribute_keeps {s₀ s : State} {ch cls : Nat} {u : Int} {win : Win} (kp : Keeps s₀ s) : Keeps s₀
    (State.attribute s ch cls u win) := by
  unfold State.attribute
  repeat' first
    | with_reducible exact Keeps.refl _ | with_reducible assumption
    | (extract_lets +onlyGivenNames x; refine Keeps.cut (x := x) ?_ ?_ <;> [subst x; (intro; rename' x => y)])
    | (extract_lets +onlyGivenNames x; subst x; try beta_reduce) | (simp -zeta only [↓Keeps.lit])
    | with_reducible apply State.setFlag_keeps | with_reducible apply State.record_keeps
    | with_reducible apply State.histogram_keeps | with_reducible apply State.derived_keeps | split

theorem State.stopStarts_keeps {s₀ s : State} {ch : Nat} {i : Int} (kp : Keeps s₀ s) : Keeps s₀ (State.stopStarts s ch i) :=
    by
  unfold State.stopStarts
  repeat' first
    | with_reducible exact Keeps.refl _ | with_reducible assumption
    | (extract_lets +onlyGivenNames x; refine Keeps.cut (x := x) ?_ ?_ <;> [subst x; (intro; rename' x => y)])
    | (extract_lets +onlyGivenNames x; subst x; try beta_reduce) | (simp -zeta only [↓Keeps.lit])
    | with_reducible apply State.modChan_keeps | with_reducible apply State.openFirm_keeps | with_reducible apply Keeps.foldl
    | split | (intro)

theorem State.takeStop_keeps {s₀ s : State} {ch : Nat} {falling : Bool} {u : Int} (kp : Keeps s₀ s) : Keeps s₀ (State.takeStop
    s ch falling u) := by
  unfold State.takeStop
  repeat' first
    | with_reducible exact Keeps.refl _ | with_reducible assumption
    | (extract_lets +onlyGivenNames x; refine Keeps.cut (x := x) ?_ ?_ <;> [subst x; (intro; rename' x => y)])
    | (extract_lets +onlyGivenNames x; subst x; try beta_reduce) | (simp -zeta only [↓Keeps.lit])
    | with_reducible apply State.count_keeps | with_reducible apply State.modChan_keeps
    | with_reducible apply State.tileEv_keeps | with_reducible apply State.openDue_keeps
    | with_reducible apply State.attribute_keeps | with_reducible apply State.stopStarts_keeps
    | with_reducible apply Keeps.foldl | split | (intro)

theorem State.takeStops_keeps {s₀ s : State} {t : Nat} {all : Bool} {l : List (Nat × Bool × Int)} (kp : Keeps s₀ s) :
    Keeps s₀ (State.takeStops t all l s) := by
  induction l generalizing s with
  | nil => exact State.modTile_keeps kp
  | cons x l ih =>
    unfold State.takeStops
    split
    · exact ih (State.takeStop_keeps kp)
    · exact State.modTile_keeps kp

theorem State.settleStops_keeps {s₀ s : State} {t : Nat} {all : Bool} (kp : Keeps s₀ s) : Keeps s₀ (State.settleStops s t all)
    := by
  unfold State.settleStops
  repeat' first
    | with_reducible exact Keeps.refl _ | with_reducible assumption | with_reducible apply State.takeStops_keeps | split

theorem State.stopIssue_keeps {s₀ s : State} {t : Nat} {e : Int} (kp : Keeps s₀ s) : Keeps s₀ (State.stopIssue s t e) := by
  unfold State.stopIssue
  repeat' first
    | with_reducible exact Keeps.refl _ | with_reducible assumption
    | (extract_lets +onlyGivenNames x; refine Keeps.cut (x := x) ?_ ?_ <;> [subst x; (intro; rename' x => y)])
    | (extract_lets +onlyGivenNames x; subst x; try beta_reduce) | (simp -zeta only [↓Keeps.lit])
    | with_reducible apply State.modChan_keeps | with_reducible apply State.drop_keeps
    | with_reducible apply State.dropStrobe_keeps | with_reducible apply State.closeWindows_keeps
    | with_reducible apply State.settleStops_keeps | with_reducible apply Keeps.foldl | split | (intro)

theorem State.hold_keeps {s₀ s : State} {op : BitVec 8} {q : Req} (kp : Keeps s₀ s) : Keeps s₀ (State.hold s op q) := by
  unfold State.hold
  repeat' first
    | with_reducible exact Keeps.refl _ | with_reducible assumption
    | (extract_lets +onlyGivenNames x; refine Keeps.cut (x := x) ?_ ?_ <;> [subst x; (intro; rename' x => y)])
    | (extract_lets +onlyGivenNames x; subst x; try beta_reduce) | (simp -zeta only [↓Keeps.lit])
    | with_reducible apply State.fset_keeps | with_reducible apply State.count_keeps

theorem State.request_keeps {s₀ s : State} {op : BitVec 8} {q : Req} {act : State → State} (kp : Keeps s₀ s)
    (h : ∀ {s₁ s : State}, Keeps s₁ s → Keeps s₁ (act s)) : Keeps s₀ (State.request s op q act) := by
  unfold State.request
  repeat' first
    | with_reducible exact Keeps.refl _ | with_reducible assumption | (simp -zeta only [↓Keeps.lit])
    | with_reducible apply h | with_reducible apply State.routine_keeps | with_reducible apply State.fail_keeps
    | with_reducible apply State.hold_keeps | with_reducible apply Keeps.foldl | split

theorem State.resetSealedBut_keeps {s₀ s : State} {t : Nat} {p : Nat → Bool} (kp : Keeps s₀ s) :
    Keeps s₀ (State.resetSealedBut s t p) := by
  unfold State.resetSealedBut
  extract_lets s1
  have h1 : Keeps s₀ s1 := by
    subst s1
    repeat' first
      | with_reducible exact Keeps.refl _ | with_reducible assumption
      | (extract_lets +onlyGivenNames x; subst x; try beta_reduce) | (simp -zeta only [↓Keeps.lit])
      | with_reducible apply State.chMode_keeps | with_reducible apply State.levelCode_keeps | with_reducible apply Keeps.foldl
      | split | (intro)
  clear_value s1
  have h2 : Keeps s1 { s1 with regs := keepRegs (sealedMask t p) s1.regs } := ⟨rfl, id, keepRegs_wf _⟩
  exact State.segSync_keeps (State.syncPool_keeps (h1.trans h2))

theorem State.resetSealed_keeps {s₀ s : State} {t : Nat} (kp : Keeps s₀ s) : Keeps s₀ (State.resetSealed s t) := by
  unfold State.resetSealed
  repeat' first
    | with_reducible exact Keeps.refl _ | with_reducible assumption | with_reducible apply State.resetSealedBut_keeps
    | (intro)

theorem State.clearDerived_keeps {s₀ s : State} {ch : Nat} (kp : Keeps s₀ s) : Keeps s₀ (State.clearDerived s ch) := by
  unfold State.clearDerived
  repeat' first
    | with_reducible exact Keeps.refl _ | with_reducible assumption
    | (extract_lets +onlyGivenNames x; refine Keeps.cut (x := x) ?_ ?_ <;> [subst x; (intro; rename' x => y)])
    | (extract_lets +onlyGivenNames x; subst x; try beta_reduce) | with_reducible apply State.rset_keeps
    | with_reducible apply State.resetRegs_keeps | (intro)

theorem State.clearRing_keeps {s₀ s : State} {t : Nat} (kp : Keeps s₀ s) : Keeps s₀ (State.clearRing s t) := by
  unfold State.clearRing
  repeat' first
    | with_reducible exact Keeps.refl _ | with_reducible assumption
    | (extract_lets +onlyGivenNames x; refine Keeps.cut (x := x) ?_ ?_ <;> [subst x; (intro; rename' x => y)])
    | (extract_lets +onlyGivenNames x; subst x; try beta_reduce) | (simp -zeta only [↓Keeps.lit])
    | with_reducible apply State.rset_keeps | with_reducible apply State.modTile_keeps | with_reducible apply Keeps.foldl
    | (intro)

theorem State.clearFc_keeps {s₀ s : State} {t : Nat} (kp : Keeps s₀ s) : Keeps s₀ (State.clearFc s t) := by
  unfold State.clearFc
  repeat' first
    | with_reducible exact Keeps.refl _ | with_reducible assumption
    | (extract_lets +onlyGivenNames x; refine Keeps.cut (x := x) ?_ ?_ <;> [subst x; (intro; rename' x => y)])
    | (extract_lets +onlyGivenNames x; subst x; try beta_reduce) | (simp -zeta only [↓Keeps.lit])
    | with_reducible apply State.resetRegs_keeps | with_reducible apply State.modTile_keeps
    | with_reducible apply State.syncPool_keeps | with_reducible apply Keeps.foldl | (intro)

theorem State.clearProfile_keeps {s₀ s : State} {t : Nat} (kp : Keeps s₀ s) : Keeps s₀ (State.clearProfile s t) := by
  unfold State.clearProfile
  repeat' first
    | with_reducible exact Keeps.refl _ | with_reducible assumption | with_reducible apply State.rset_keeps
    | with_reducible apply State.eraseSpace_keeps | with_reducible apply State.clearDerived_keeps
    | with_reducible apply Keeps.foldl | (intro)

theorem State.zeroTile_keeps {s₀ s : State} {t : Nat} (kp : Keeps s₀ s) : Keeps s₀ (State.zeroTile s t) := by
  unfold State.zeroTile
  repeat' first
    | with_reducible exact Keeps.refl _ | with_reducible assumption
    | (extract_lets +onlyGivenNames x; refine Keeps.cut (x := x) ?_ ?_ <;> [subst x; (intro; rename' x => y)])
    | (extract_lets +onlyGivenNames x; subst x; try beta_reduce) | (simp -zeta only [↓Keeps.lit])
    | with_reducible apply State.setFlag_keeps | with_reducible apply State.eraseSpace_keeps
    | with_reducible apply State.segEmpty_keeps | with_reducible apply State.resetSealed_keeps
    | with_reducible apply State.clearRing_keeps | with_reducible apply State.clearFc_keeps
    | with_reducible apply State.clearProfile_keeps | with_reducible apply Keeps.foldl | split | (intro)

theorem State.syncSeal_keeps {s₀ s : State} (kp : Keeps s₀ s) : Keeps s₀ (State.syncSeal s) := by
  unfold State.syncSeal
  repeat' first
    | with_reducible exact Keeps.refl _ | with_reducible assumption
    | (extract_lets +onlyGivenNames x; refine Keeps.cut (x := x) ?_ ?_ <;> [subst x; (intro; rename' x => y)])
    | (extract_lets +onlyGivenNames x; subst x; try beta_reduce) | with_reducible apply State.rset_keeps
    | with_reducible apply Keeps.foldl | split | (intro)

theorem State.bundleRemove_keeps {s₀ s : State} {n cause : Nat} (kp : Keeps s₀ s) : Keeps s₀ (State.bundleRemove s n cause) :=
    by
  unfold State.bundleRemove
  repeat' first
    | with_reducible exact Keeps.refl _ | with_reducible assumption
    | (extract_lets +onlyGivenNames x; refine Keeps.cut (x := x) ?_ ?_ <;> [subst x; (intro; rename' x => y)])
    | (extract_lets +onlyGivenNames x; subst x; try beta_reduce) | (simp -zeta only [↓Keeps.lit])
    | with_reducible apply State.rset_keeps | with_reducible apply State.chipEvent_keeps
    | with_reducible apply State.zeroTile_keeps | with_reducible apply State.syncSeal_keeps | with_reducible apply Keeps.foldl
    | split | (intro)

theorem State.unsealTile_keeps {s₀ s : State} {t : Nat} (kp : Keeps s₀ s) : Keeps s₀ (State.unsealTile s t) := by
  unfold State.unsealTile
  repeat' first
    | with_reducible exact Keeps.refl _ | with_reducible assumption
    | (extract_lets +onlyGivenNames x; refine Keeps.cut (x := x) ?_ ?_ <;> [subst x; (intro; rename' x => y)])
    | (extract_lets +onlyGivenNames x; subst x; try beta_reduce) | with_reducible apply State.rset_keeps
    | with_reducible apply State.zeroTile_keeps | with_reducible apply State.syncSeal_keeps | split

end Sys2Proof.Machine
end

