-- ==== Sys2Proof/Laws/KeepsSteps.lean ====
section
/-! SUPPORT. The operations of arming, boundaries, ends of steps, the idle edge, calibration and faults keep the relation of Keeps.lean. -/

namespace Sys2Proof.Machine

theorem State.recordErr_keeps {s₀ s : State} {t : Nat} {e : ArmErr} (kp : Keeps s₀ s) : Keeps s₀ (State.recordErr s t e) := by
  unfold State.recordErr
  repeat' first
    | with_reducible exact Keeps.refl _ | with_reducible assumption
    | (extract_lets +onlyGivenNames x; refine Keeps.cut (x := x) ?_ ?_ <;> [subst x; (intro; rename' x => y)])
    | (extract_lets +onlyGivenNames x; subst x; try beta_reduce) | with_reducible apply State.rset_keeps | split

theorem State.armProfile_keeps {s₀ s : State} {t : Nat} (kp : Keeps s₀ s) : Keeps s₀ (State.armProfile s t) := by
  unfold State.armProfile
  repeat' first
    | with_reducible exact Keeps.refl _ | with_reducible assumption
    | (extract_lets +onlyGivenNames x; refine Keeps.cut (x := x) ?_ ?_ <;> [subst x; (intro; rename' x => y)])
    | (extract_lets +onlyGivenNames x; subst x; try beta_reduce) | with_reducible apply State.rset_keeps
    | with_reducible apply State.setFlag_keeps | with_reducible apply State.clearProfile_keeps | split

theorem State.armRegs_keeps {s₀ s : State} {t : Nat} (kp : Keeps s₀ s) : Keeps s₀ (State.armRegs s t) := by
  unfold State.armRegs
  repeat' first
    | with_reducible exact Keeps.refl _ | with_reducible assumption
    | (extract_lets +onlyGivenNames x; refine Keeps.cut (x := x) ?_ ?_ <;> [subst x; (intro; rename' x => y)])
    | (extract_lets +onlyGivenNames x; subst x; try beta_reduce) | (simp -zeta only [↓Keeps.lit])
    | with_reducible apply State.rset_keeps | with_reducible apply State.fset_keeps | with_reducible apply State.setFlag_keeps
    | with_reducible apply State.segEmpty_keeps | with_reducible apply Keeps.foldl | (intro)

theorem State.armChan_keeps {s₀ s : State} {ch : Nat} (kp : Keeps s₀ s) : Keeps s₀ (State.armChan s ch) := by
  unfold State.armChan
  repeat' first
    | with_reducible exact Keeps.refl _ | with_reducible assumption
    | (extract_lets +onlyGivenNames x; refine Keeps.cut (x := x) ?_ ?_ <;> [subst x; (intro; rename' x => y)])
    | (extract_lets +onlyGivenNames x; subst x; try beta_reduce) | (simp -zeta only [↓Keeps.lit])
    | with_reducible apply State.rset_keeps | with_reducible apply State.modChan_keeps | split | (intro)

theorem State.armTile_keeps {s₀ s : State} {t g : Nat} {by_ : BitVec 5} (kp : Keeps s₀ s) : Keeps s₀ (State.armTile s t g by_)
    := by
  unfold State.armTile
  repeat' first
    | with_reducible exact Keeps.refl _ | with_reducible assumption
    | (extract_lets +onlyGivenNames x; refine Keeps.cut (x := x) ?_ ?_ <;> [subst x; (intro; rename' x => y)])
    | (extract_lets +onlyGivenNames x; subst x; try beta_reduce) | (simp -zeta only [↓Keeps.lit])
    | with_reducible apply State.fset_keeps | with_reducible apply State.modTile_keeps
    | with_reducible apply State.suspectFlag_keeps | with_reducible apply State.syncStale_keeps
    | with_reducible apply State.clearRing_keeps | with_reducible apply State.clearFc_keeps
    | with_reducible apply State.armProfile_keeps | with_reducible apply State.armRegs_keeps
    | with_reducible apply State.armChan_keeps | with_reducible apply Keeps.foldl | split | (intro)

theorem State.armTiles_keeps {s₀ s : State} {l : List Nat} {by_ : BitVec 5} (kp : Keeps s₀ s) : Keeps s₀ (State.armTiles s l
    by_) := by
  unfold State.armTiles
  repeat' first
    | with_reducible exact Keeps.refl _ | with_reducible assumption
    | (extract_lets +onlyGivenNames x; refine Keeps.cut (x := x) ?_ ?_ <;> [subst x; (intro; rename' x => y)])
    | (extract_lets +onlyGivenNames x; subst x; try beta_reduce) | (simp -zeta only [↓Keeps.lit])
    | with_reducible apply State.armTile_keeps | with_reducible apply Keeps.foldl | (intro)

theorem State.armForce_keeps {s₀ s : State} (kp : Keeps s₀ s) : Keeps s₀ (State.armForce s) := by
  unfold State.armForce
  repeat' first
    | with_reducible exact Keeps.refl _ | with_reducible assumption
    | (extract_lets +onlyGivenNames x; refine Keeps.cut (x := x) ?_ ?_ <;> [subst x; (intro; rename' x => y)])
    | (extract_lets +onlyGivenNames x; subst x; try beta_reduce) | (simp -zeta only [↓Keeps.lit])
    | with_reducible apply State.stage_keeps | with_reducible apply State.forceReset_keeps | with_reducible apply Keeps.foldl
    | split | (intro)

theorem State.fenceNote_keeps {s₀ s : State} {kind unit cause : Nat} (kp : Keeps s₀ s) : Keeps s₀ (State.fenceNote s kind unit
    cause) := by
  unfold State.fenceNote
  repeat' first
    | with_reducible exact Keeps.refl _ | with_reducible assumption
    | (extract_lets +onlyGivenNames x; refine Keeps.cut (x := x) ?_ ?_ <;> [subst x; (intro; rename' x => y)])
    | (extract_lets +onlyGivenNames x; subst x; try beta_reduce) | (simp -zeta only [↓Keeps.lit])
    | with_reducible apply State.rset_keeps | with_reducible apply State.count_keeps
    | with_reducible apply State.chipEvent_keeps | with_reducible apply State.stage_keeps | split

theorem State.fenceChan_keeps {s₀ s : State} {ch cause : Nat} (kp : Keeps s₀ s) : Keeps s₀ (State.fenceChan s ch cause) := by
  unfold State.fenceChan
  repeat' first
    | with_reducible exact Keeps.refl _ | with_reducible assumption | with_reducible apply State.setFlag_keeps
    | with_reducible apply State.chSafe_keeps | with_reducible apply State.fenceNote_keeps

theorem State.fenceCore_keeps {s₀ s : State} {c cause : Nat} (kp : Keeps s₀ s) : Keeps s₀ (State.fenceCore s c cause) := by
  unfold State.fenceCore
  repeat' first
    | with_reducible exact Keeps.refl _ | with_reducible assumption
    | (extract_lets +onlyGivenNames x; refine Keeps.cut (x := x) ?_ ?_ <;> [subst x; (intro; rename' x => y)])
    | (extract_lets +onlyGivenNames x; subst x; try beta_reduce) | with_reducible apply State.fset_keeps
    | with_reducible apply State.setFlag_keeps | with_reducible apply State.setSpare_keeps
    | with_reducible apply State.fenceNote_keeps

theorem State.fenceSnt_keeps {s₀ s : State} {n cause : Nat} (kp : Keeps s₀ s) : Keeps s₀ (State.fenceSnt s n cause) := by
  unfold State.fenceSnt
  repeat' first
    | with_reducible exact Keeps.refl _ | with_reducible assumption
    | (extract_lets +onlyGivenNames x; refine Keeps.cut (x := x) ?_ ?_ <;> [subst x; (intro; rename' x => y)])
    | (extract_lets +onlyGivenNames x; subst x; try beta_reduce) | with_reducible apply State.setFlag_keeps
    | with_reducible apply State.dseDrop_keeps | with_reducible apply State.fenceNote_keeps

theorem State.fenceBank_keeps {s₀ s : State} {n cause : Nat} (kp : Keeps s₀ s) : Keeps s₀ (State.fenceBank s n cause) := by
  unfold State.fenceBank
  repeat' first
    | with_reducible exact Keeps.refl _ | with_reducible assumption | with_reducible apply State.setFlag_keeps
    | with_reducible apply State.fenceNote_keeps

theorem State.dropCalving_keeps {s₀ s : State} {t : Nat} {st : BitVec 8} (kp : Keeps s₀ s) : Keeps s₀ (State.dropCalving s t
    st) := by
  unfold State.dropCalving
  repeat' first
    | with_reducible exact Keeps.refl _ | with_reducible assumption
    | (extract_lets +onlyGivenNames x; refine Keeps.cut (x := x) ?_ ?_ <;> [subst x; (intro; rename' x => y)])
    | (extract_lets +onlyGivenNames x; subst x; try beta_reduce) | (simp -zeta only [↓Keeps.lit])
    | with_reducible apply State.fset_keeps | with_reducible apply State.setFlag_keeps
    | with_reducible apply State.modTile_keeps | with_reducible apply State.complete_keeps
    | with_reducible apply State.setSpare_keeps | with_reducible apply Keeps.foldl | split | (intro)

theorem State.fenceTile_keeps {s₀ s : State} {t cause : Nat} (kp : Keeps s₀ s) : Keeps s₀ (State.fenceTile s t cause) := by
  unfold State.fenceTile
  repeat' first
    | with_reducible exact Keeps.refl _ | with_reducible assumption
    | (extract_lets +onlyGivenNames x; refine Keeps.cut (x := x) ?_ ?_ <;> [subst x; (intro; rename' x => y)])
    | (extract_lets +onlyGivenNames x; subst x; try beta_reduce) | with_reducible apply State.setFlag_keeps
    | with_reducible apply State.chSafe_keeps | with_reducible apply State.unsealTile_keeps
    | with_reducible apply State.fenceNote_keeps | with_reducible apply State.dropCalving_keeps
    | with_reducible apply Keeps.foldl | (intro)

theorem State.fenceDone_keeps {s₀ s : State} {kind unit : Nat} (kp : Keeps s₀ s) : Keeps s₀ (State.fenceDone s kind unit) :=
    by
  unfold State.fenceDone
  repeat' first
    | with_reducible exact Keeps.refl _ | with_reducible assumption | (simp -zeta only [↓Keeps.lit])
    | with_reducible apply State.complete_keeps | with_reducible apply Keeps.foldl | split | (intro)

theorem State.fenceApply_keeps {s₀ s : State} {kind unit cause : Nat} (kp : Keeps s₀ s) : Keeps s₀ (State.fenceApply s kind
    unit cause) := by
  unfold State.fenceApply
  repeat' first
    | with_reducible exact Keeps.refl _ | with_reducible assumption
    | (extract_lets +onlyGivenNames x; refine Keeps.cut (x := x) ?_ ?_ <;> [subst x; (intro; rename' x => y)])
    | (extract_lets +onlyGivenNames x; subst x; try beta_reduce) | with_reducible apply State.fenceChan_keeps
    | with_reducible apply State.fenceCore_keeps | with_reducible apply State.fenceSnt_keeps
    | with_reducible apply State.fenceTile_keeps | with_reducible apply State.fenceDone_keeps | split

theorem State.revoke_keeps {s₀ s : State} {kind unit : Nat} (kp : Keeps s₀ s) : Keeps s₀ (State.revoke s kind unit) := by
  unfold State.revoke
  repeat' first
    | with_reducible exact Keeps.refl _ | with_reducible assumption
    | (extract_lets +onlyGivenNames x; refine Keeps.cut (x := x) ?_ ?_ <;> [subst x; (intro; rename' x => y)])
    | (extract_lets +onlyGivenNames x; subst x; try beta_reduce) | (simp -zeta only [↓Keeps.lit])
    | with_reducible apply State.setFlag_keeps | with_reducible apply Keeps.foldl | split | (intro)

theorem State.unfence_keeps {s₀ s : State} {kind unit : Nat} (kp : Keeps s₀ s) : Keeps s₀ (State.unfence s kind unit) := by
  unfold State.unfence
  repeat' first
    | with_reducible exact Keeps.refl _ | with_reducible assumption
    | (extract_lets +onlyGivenNames x; refine Keeps.cut (x := x) ?_ ?_ <;> [subst x; (intro; rename' x => y)])
    | (extract_lets +onlyGivenNames x; subst x; try beta_reduce) | (simp -zeta only [↓Keeps.lit])
    | with_reducible apply State.fset_keeps | with_reducible apply State.setFlag_keeps
    | with_reducible apply State.chipEvent_keeps | with_reducible apply State.syncDse_keeps
    | with_reducible apply State.revoke_keeps | split

theorem State.decideCalving_keeps {s₀ s : State} {t : Nat} {op named : Option Nat} {permanent inj : Bool} (kp : Keeps s₀ s) :
    Keeps s₀ (State.decideCalving s t op named permanent inj) := by
  unfold State.decideCalving
  repeat' first
    | with_reducible exact Keeps.refl _ | with_reducible assumption
    | (extract_lets +onlyGivenNames x; refine Keeps.cut (x := x) ?_ ?_ <;> [subst x; (intro; rename' x => y)])
    | (extract_lets +onlyGivenNames x; subst x; try beta_reduce) | (simp -zeta only [↓Keeps.lit])
    | with_reducible apply State.fset_keeps | with_reducible apply State.setFlag_keeps
    | with_reducible apply State.modTile_keeps | with_reducible apply State.setSpare_keeps | split | (intro)

theorem State.pwrResolve_keeps {s₀ s : State} {o t how : Nat} (kp : Keeps s₀ s) : Keeps s₀ (State.pwrResolve s o t how) := by
  unfold State.pwrResolve
  repeat' first
    | with_reducible exact Keeps.refl _ | with_reducible assumption
    | (extract_lets +onlyGivenNames x; refine Keeps.cut (x := x) ?_ ?_ <;> [subst x; (intro; rename' x => y)])
    | (extract_lets +onlyGivenNames x; subst x; try beta_reduce) | (simp -zeta only [↓Keeps.lit])
    | with_reducible apply State.complete_keeps | with_reducible apply State.setSplit_keeps
    | with_reducible apply State.stage_keeps | split

theorem State.syncPwr_keeps {s₀ s : State} {t : Nat} (kp : Keeps s₀ s) : Keeps s₀ (State.syncPwr s t) := by
  unfold State.syncPwr
  repeat' first
    | with_reducible exact Keeps.refl _ | with_reducible assumption
    | (extract_lets +onlyGivenNames x; refine Keeps.cut (x := x) ?_ ?_ <;> [subst x; (intro; rename' x => y)])
    | (extract_lets +onlyGivenNames x; subst x; try beta_reduce) | with_reducible apply State.fset_keeps
    | with_reducible apply State.setFlag_keeps

theorem State.setThaw_keeps {s₀ s : State} {t : Nat} {p : Option (Nat × BitVec 5)} (kp : Keeps s₀ s) : Keeps s₀ (State.setThaw
    s t p) := by
  unfold State.setThaw
  repeat' first
    | with_reducible exact Keeps.refl _ | with_reducible assumption
    | (extract_lets +onlyGivenNames x; refine Keeps.cut (x := x) ?_ ?_ <;> [subst x; (intro; rename' x => y)])
    | (extract_lets +onlyGivenNames x; subst x; try beta_reduce) | (simp -zeta only [↓Keeps.lit])
    | with_reducible apply State.setFlag_keeps | with_reducible apply State.setPair_keeps
    | with_reducible apply State.modTile_keeps | (intro)

theorem State.beginThaw_keeps {s₀ s : State} {t : Nat} (kp : Keeps s₀ s) : Keeps s₀ (State.beginThaw s t) := by
  unfold State.beginThaw
  repeat' first
    | with_reducible exact Keeps.refl _ | with_reducible assumption | (simp -zeta only [↓Keeps.lit])
    | with_reducible apply State.modTile_keeps | with_reducible apply State.reachTile_keeps
    | with_reducible apply State.syncPwr_keeps | (intro)

theorem State.pwrReached_keeps {s₀ s : State} {t : Nat} {r : PwrReq} (kp : Keeps s₀ s) : Keeps s₀ (State.pwrReached s t r) :=
    by
  unfold State.pwrReached
  repeat' first
    | with_reducible exact Keeps.refl _ | with_reducible assumption
    | (extract_lets +onlyGivenNames x; refine Keeps.cut (x := x) ?_ ?_ <;> [subst x; (intro; rename' x => y)])
    | (extract_lets +onlyGivenNames x; subst x; try beta_reduce) | (simp -zeta only [↓Keeps.lit])
    | with_reducible apply State.modTile_keeps | with_reducible apply State.drop_keeps
    | with_reducible apply State.pwrResolve_keeps | with_reducible apply State.syncPwr_keeps
    | with_reducible apply State.setThaw_keeps | with_reducible apply State.beginThaw_keeps | split | (intro)

theorem State.pwrBegin_keeps {s₀ s : State} {t fuel : Nat} (kp : Keeps s₀ s) : Keeps s₀ (State.pwrBegin s t fuel) := by
  induction fuel generalizing s with
  | zero => exact kp
  | succ fuel ih =>
    unfold State.pwrBegin
    repeat' first
      | with_reducible exact Keeps.refl _ | with_reducible assumption
      | (extract_lets +onlyGivenNames x; refine Keeps.cut (x := x) ?_ ?_ <;> [subst x; (intro; rename' x => y)])
      | (simp -zeta only [↓Keeps.lit]) | with_reducible apply ih | with_reducible apply State.pwrReached_keeps
      | with_reducible apply State.setSplit_keeps | with_reducible apply State.syncPwr_keeps
      | with_reducible apply State.modTile_keeps | with_reducible apply State.reachTile_keeps | with_reducible apply Keeps.foldl
      | split

theorem State.armChecks_keeps {s₀ s : State} {l : List Nat} (kp : Keeps s₀ s) : Keeps s₀ (State.armChecks s l).1 := by
  unfold State.armChecks
  repeat' first
    | with_reducible exact Keeps.refl _ | with_reducible assumption
    | (extract_lets +onlyGivenNames x; refine Keeps.cut (x := x) ?_ ?_ <;> [subst x; (intro; rename' x => y)])
    | (extract_lets +onlyGivenNames x; subst x; try beta_reduce) | with_reducible apply State.reachTile_keeps
    | with_reducible apply State.calApply_keeps | with_reducible apply State.recordErr_keeps
    | with_reducible apply State.setThaw_keeps | with_reducible apply State.beginThaw_keeps | with_reducible apply Keeps.foldl
    | split | (intro)

theorem State.armChecks_keepsEq {s₀ s : State} {l : List Nat} {r2 : Option Nat} {t_ : State} (h : State.armChecks s l = (t_,
    r2)) (kp : Keeps s₀ s) : Keeps s₀ t_ := by
  have k := State.armChecks_keeps (s₀ := s₀) (s := s) (l := l) kp
  rwa [h] at k

theorem State.armRelease_keeps {s₀ s : State} {l : List Nat} (kp : Keeps s₀ s) : Keeps s₀ (State.armRelease s l) := by
  unfold State.armRelease
  repeat' first
    | with_reducible exact Keeps.refl _ | with_reducible assumption | with_reducible apply State.calApply_keeps
    | with_reducible apply Keeps.foldl | split | (intro)

theorem State.armBusy_keeps {s₀ s : State} {t : Nat} (kp : Keeps s₀ s) : Keeps s₀ (State.armBusy s t) := by
  unfold State.armBusy
  repeat' first
    | with_reducible exact Keeps.refl _ | with_reducible assumption | with_reducible apply State.complete_keeps
    | with_reducible apply State.armRelease_keeps | split

theorem State.armResume_keeps {s₀ s : State} {t : Nat} (kp : Keeps s₀ s) : Keeps s₀ (State.armResume s t) := by
  unfold State.armResume
  repeat' first
    | with_reducible exact Keeps.refl _ | with_reducible assumption
    | (extract_lets +onlyGivenNames x; refine Keeps.cut (x := x) ?_ ?_ <;> [subst x; (intro; rename' x => y)])
    | (extract_lets +onlyGivenNames x; subst x; try beta_reduce) | (simp -zeta only [↓Keeps.lit])
    | with_reducible apply State.complete_keeps | with_reducible apply State.setSplit_keeps
    | with_reducible apply State.armForce_keeps | with_reducible apply State.armChecks_keeps
    | (refine State.armChecks_keepsEq (by with_reducible assumption) ?_) | with_reducible apply State.armRelease_keeps | split

theorem State.persistRepairs_keeps {s₀ s : State} {p : Option Nat → Bool} (kp : Keeps s₀ s) : Keeps s₀ (State.persistRepairs s
    p) := by
  unfold State.persistRepairs
  repeat' first
    | with_reducible exact Keeps.refl _ | with_reducible assumption
    | (extract_lets +onlyGivenNames x; refine Keeps.cut (x := x) ?_ ?_ <;> [subst x; (intro; rename' x => y)])
    | (extract_lets +onlyGivenNames x; subst x; try beta_reduce) | (simp -zeta only [↓Keeps.lit])
    | with_reducible apply State.fset_keeps | with_reducible apply State.setFlag_keeps
    | with_reducible apply State.faultRaise_keeps | with_reducible apply Keeps.foldl | split | (intro)

theorem State.retestBegin_keeps {s₀ s : State} {ch : Nat} (kp : Keeps s₀ s) : Keeps s₀ (State.retestBegin s ch) := by
  unfold State.retestBegin
  repeat' first
    | with_reducible exact Keeps.refl _ | with_reducible assumption | (simp -zeta only [↓Keeps.lit])
    | with_reducible apply State.modChan_keeps | with_reducible apply State.chSafe_keeps | (intro)

theorem State.boundaryFence_keeps {s₀ s : State} {t : Nat} (kp : Keeps s₀ s) : Keeps s₀ (State.boundaryFence s t) := by
  unfold State.boundaryFence
  repeat' first
    | with_reducible exact Keeps.refl _ | with_reducible assumption
    | (extract_lets +onlyGivenNames x; refine Keeps.cut (x := x) ?_ ?_ <;> [subst x; (intro; rename' x => y)])
    | (extract_lets +onlyGivenNames x; subst x; try beta_reduce) | (simp -zeta only [↓Keeps.lit])
    | with_reducible apply State.setFlag_keeps | with_reducible apply State.modChan_keeps
    | with_reducible apply State.fenceApply_keeps | with_reducible apply State.retestBegin_keeps
    | with_reducible apply Keeps.foldl | split | (intro)

theorem State.boundary_keeps {s₀ s : State} {t : Nat} (kp : Keeps s₀ s) : Keeps s₀ (State.boundary s t) := by
  unfold State.boundary
  repeat' first
    | with_reducible exact Keeps.refl _ | with_reducible assumption
    | (extract_lets +onlyGivenNames x; refine Keeps.cut (x := x) ?_ ?_ <;> [subst x; (intro; rename' x => y)])
    | (extract_lets +onlyGivenNames x; subst x; try beta_reduce) | with_reducible apply State.calApply_keeps
    | with_reducible apply State.armForce_keeps | with_reducible apply State.pwrBegin_keeps
    | with_reducible apply State.armBusy_keeps | with_reducible apply State.armResume_keeps
    | with_reducible apply State.persistRepairs_keeps | with_reducible apply State.boundaryFence_keeps | split

theorem State.toIdle_keeps {s₀ s : State} {tiles : List Nat} (kp : Keeps s₀ s) : Keeps s₀ (State.toIdle s tiles) := by
  unfold State.toIdle
  repeat' first
    | with_reducible exact Keeps.refl _ | with_reducible assumption
    | (extract_lets +onlyGivenNames x; refine Keeps.cut (x := x) ?_ ?_ <;> [subst x; (intro; rename' x => y)])
    | (extract_lets +onlyGivenNames x; subst x; try beta_reduce) | (simp -zeta only [↓Keeps.lit])
    | with_reducible apply State.fset_keeps | with_reducible apply State.modTile_keeps
    | with_reducible apply State.modChan_keeps | with_reducible apply State.boundary_keeps | with_reducible apply Keeps.foldl
    | (intro)

theorem State.finishStep_keeps {s₀ s : State} {m : Merge} {payload : List Byte} (kp : Keeps s₀ s) : Keeps s₀ (State.finishStep
    s m payload) := by
  unfold State.finishStep
  repeat' first
    | with_reducible exact Keeps.refl _ | with_reducible assumption
    | (extract_lets +onlyGivenNames x; refine Keeps.cut (x := x) ?_ ?_ <;> [subst x; (intro; rename' x => y)])
    | (extract_lets +onlyGivenNames x; subst x; try beta_reduce) | (simp -zeta only [↓Keeps.lit])
    | with_reducible apply State.complete_keeps | with_reducible apply State.record_keeps
    | with_reducible apply State.toIdle_keeps | split | (intro)

theorem State.freeTime_keeps {s₀ s : State} (kp : Keeps s₀ s) : Keeps s₀ (State.freeTime s).2 := by
  unfold State.freeTime
  repeat' first
    | with_reducible exact Keeps.refl _ | with_reducible assumption
    | (extract_lets +onlyGivenNames x; refine Keeps.cut (x := x) ?_ ?_ <;> [subst x; (intro; rename' x => y)])
    | (extract_lets +onlyGivenNames x; subst x; try beta_reduce) | with_reducible apply State.free_keeps
    | (refine State.free_keepsEq (by with_reducible assumption) ?_) | split

theorem State.freeTime_keepsEq {s₀ s : State} {r1 : Int} {t_ : State} (h : State.freeTime s = (r1, t_)) (kp : Keeps s₀ s) :
    Keeps s₀ t_ := by
  have k := State.freeTime_keeps (s₀ := s₀) (s := s) kp
  rwa [h] at k

theorem State.timeOr_keeps {s₀ s : State} {open_ : Bool} {i : Int} (kp : Keeps s₀ s) : Keeps s₀ (State.timeOr s open_ i).2 :=
    by
  unfold State.timeOr
  repeat' first
    | with_reducible exact Keeps.refl _ | with_reducible assumption | with_reducible apply State.freeTime_keeps
    | (refine State.freeTime_keepsEq (by with_reducible assumption) ?_) | split

theorem State.timeOr_keepsEq {s₀ s : State} {open_ : Bool} {i : Int} {r1 : Int} {t_ : State} (h : State.timeOr s open_ i =
    (r1, t_)) (kp : Keeps s₀ s) : Keeps s₀ t_ := by
  have k := State.timeOr_keeps (s₀ := s₀) (s := s) (open_ := open_) (i := i) kp
  rwa [h] at k

theorem State.stepTimes_keeps {s₀ s : State} {tiles : List Nat} (kp : Keeps s₀ s) : Keeps s₀ (State.stepTimes s tiles).2.2 :=
    by
  unfold State.stepTimes
  repeat' first
    | with_reducible exact Keeps.refl _ | with_reducible assumption
    | (extract_lets +onlyGivenNames x; refine Keeps.cut (x := x) ?_ ?_ <;> [subst x; (intro; rename' x => y)])
    | (extract_lets +onlyGivenNames x; subst x; try beta_reduce) | with_reducible apply State.timeOr_keeps
    | (refine State.timeOr_keepsEq (by with_reducible assumption) ?_) | with_reducible apply Keeps.foldl | split | (intro)

theorem State.stepTimes_keepsEq {s₀ s : State} {tiles : List Nat} {r1 : Int} {r2 : Int} {t_ : State} (h : State.stepTimes s
    tiles = (r1, r2, t_)) (kp : Keeps s₀ s) : Keeps s₀ t_ := by
  have k := State.stepTimes_keeps (s₀ := s₀) (s := s) (tiles := tiles) kp
  rwa [h] at k

theorem State.mergeOf_keeps {s₀ s : State} {g : Nat} {tiles : List Nat} {gone : BitVec 256} {aborted : Bool} (kp : Keeps s₀ s)
    : Keeps s₀ (State.mergeOf s g tiles gone aborted).2 := by
  unfold State.mergeOf
  repeat' first
    | with_reducible exact Keeps.refl _ | with_reducible assumption
    | (extract_lets +onlyGivenNames x; refine Keeps.cut (x := x) ?_ ?_ <;> [subst x; (intro; rename' x => y)])
    | (extract_lets +onlyGivenNames x; subst x; try beta_reduce) | (simp -zeta only [↓Keeps.lit])
    | with_reducible apply State.stepTimes_keeps | (refine State.stepTimes_keepsEq (by with_reducible assumption) ?_)
    | with_reducible apply Keeps.foldl | split | (intro)

theorem State.mergeOf_keepsEq {s₀ s : State} {g : Nat} {tiles : List Nat} {gone : BitVec 256} {aborted : Bool} {r1 : Merge}
    {t_ : State} (h : State.mergeOf s g tiles gone aborted = (r1, t_)) (kp : Keeps s₀ s) : Keeps s₀ t_ := by
  have k := State.mergeOf_keeps (s₀ := s₀) (s := s) (g := g) (tiles := tiles) (gone := gone) (aborted := aborted) kp
  rwa [h] at k

theorem State.merge_keeps {s₀ s : State} {g : Nat} {tiles : List Nat} (kp : Keeps s₀ s) : Keeps s₀ (State.merge s g tiles) :=
    by
  unfold State.merge
  repeat' first
    | with_reducible exact Keeps.refl _ | with_reducible assumption
    | (extract_lets +onlyGivenNames x; refine Keeps.cut (x := x) ?_ ?_ <;> [subst x; (intro; rename' x => y)])
    | (extract_lets +onlyGivenNames x; subst x; try beta_reduce) | (simp -zeta only [↓Keeps.lit])
    | with_reducible apply State.count_keeps | with_reducible apply State.start_keeps | with_reducible apply State.stage_keeps
    | with_reducible apply State.record_keeps | with_reducible apply State.mergeRepair_keeps
    | with_reducible apply State.mergeMargins_keeps | with_reducible apply State.finishStep_keeps
    | with_reducible apply State.mergeOf_keeps | (refine State.mergeOf_keepsEq (by with_reducible assumption) ?_)
    | with_reducible apply Keeps.foldl | split | (intro)

theorem State.abortedStart_keeps {s₀ s : State} {x : Split} (kp : Keeps s₀ s) : Keeps s₀ (State.abortedStart s x) := by
  unfold State.abortedStart
  repeat' first
    | with_reducible exact Keeps.refl _ | with_reducible assumption
    | (extract_lets +onlyGivenNames x; refine Keeps.cut (x := x) ?_ ?_ <;> [subst x; (intro; rename' x => y)])
    | (extract_lets +onlyGivenNames x; subst x; try beta_reduce) | with_reducible apply State.complete_keeps
    | with_reducible apply State.freeTime_keeps | (refine State.freeTime_keepsEq (by with_reducible assumption) ?_) | split

theorem State.mergeAgain_keeps {s₀ s : State} {g : Nat} (kp : Keeps s₀ s) : Keeps s₀ (State.mergeAgain s g) := by
  unfold State.mergeAgain
  repeat' first
    | with_reducible exact Keeps.refl _ | with_reducible assumption
    | (extract_lets +onlyGivenNames x; refine Keeps.cut (x := x) ?_ ?_ <;> [subst x; (intro; rename' x => y)])
    | (extract_lets +onlyGivenNames x; subst x; try beta_reduce) | (simp -zeta only [↓Keeps.lit])
    | with_reducible apply State.record_keeps | with_reducible apply State.mergeOf_keeps
    | (refine State.mergeOf_keepsEq (by with_reducible assumption) ?_) | split | (intro)

theorem State.groupCheck_keeps {s₀ s : State} {g : Nat} (kp : Keeps s₀ s) : Keeps s₀ (State.groupCheck s g) := by
  unfold State.groupCheck
  repeat' first
    | with_reducible exact Keeps.refl _ | with_reducible assumption
    | (extract_lets +onlyGivenNames x; refine Keeps.cut (x := x) ?_ ?_ <;> [subst x; (intro; rename' x => y)])
    | (extract_lets +onlyGivenNames x; subst x; try beta_reduce) | with_reducible apply State.merge_keeps
    | with_reducible apply State.abortedStart_keeps | split | (intro)

theorem State.strmLeave_keeps {s₀ s : State} {t : Nat} (kp : Keeps s₀ s) : Keeps s₀ (State.strmLeave s t) := by
  unfold State.strmLeave
  repeat' first
    | with_reducible exact Keeps.refl _ | with_reducible assumption | (simp -zeta only [↓Keeps.lit])
    | with_reducible apply State.setStrm_keeps | with_reducible apply Keeps.foldl | (intro)

theorem State.endTile_keeps {s₀ s : State} {t : Nat} {st : BitVec 8} {cause : Nat} (kp : Keeps s₀ s) : Keeps s₀ (State.endTile
    s t st cause) := by
  unfold State.endTile
  repeat' first
    | with_reducible exact Keeps.refl _ | with_reducible assumption
    | (extract_lets +onlyGivenNames x; refine Keeps.cut (x := x) ?_ ?_ <;> [subst x; (intro; rename' x => y)])
    | (extract_lets +onlyGivenNames x; subst x; try beta_reduce) | (simp -zeta only [↓Keeps.lit])
    | with_reducible apply State.fset_keeps | with_reducible apply State.setFlag_keeps
    | with_reducible apply State.modTile_keeps | with_reducible apply State.modChan_keeps
    | with_reducible apply State.ran_keeps | with_reducible apply State.endCapture_keeps
    | with_reducible apply State.segSync_keeps | with_reducible apply State.segEnd_keeps
    | with_reducible apply State.showApg_keeps | with_reducible apply State.stopIssue_keeps
    | with_reducible apply State.strmLeave_keeps | with_reducible apply Keeps.foldl | split | (intro)

theorem State.endLate_keeps {s₀ s : State} {t : Nat} {st : BitVec 8} {cause : Nat} (kp : Keeps s₀ s) : Keeps s₀ (State.endLate
    s t st cause) := by
  unfold State.endLate
  repeat' first
    | with_reducible exact Keeps.refl _ | with_reducible assumption
    | (extract_lets +onlyGivenNames x; refine Keeps.cut (x := x) ?_ ?_ <;> [subst x; (intro; rename' x => y)])
    | (extract_lets +onlyGivenNames x; subst x; try beta_reduce) | (simp -zeta only [↓Keeps.lit])
    | with_reducible apply State.fset_keeps | with_reducible apply State.modTile_keeps
    | with_reducible apply State.mergeAgain_keeps | split | (intro)

theorem State.endStep_keeps {s₀ s : State} {t : Nat} {st : BitVec 8} {cause : Nat} (kp : Keeps s₀ s) : Keeps s₀ (State.endStep
    s t st cause) := by
  unfold State.endStep
  repeat' first
    | with_reducible exact Keeps.refl _ | with_reducible assumption
    | (extract_lets +onlyGivenNames x; refine Keeps.cut (x := x) ?_ ?_ <;> [subst x; (intro; rename' x => y)])
    | (extract_lets +onlyGivenNames x; subst x; try beta_reduce) | with_reducible apply State.boundary_keeps
    | with_reducible apply State.groupCheck_keeps | with_reducible apply State.endTile_keeps
    | with_reducible apply State.endLate_keeps | split

theorem State.endSteps_keeps {s₀ s : State} {l : List Nat} {st : BitVec 8} {cause : Nat} (kp : Keeps s₀ s) : Keeps s₀
    (State.endSteps s l st cause) := by
  unfold State.endSteps
  repeat' first
    | with_reducible exact Keeps.refl _ | with_reducible assumption
    | (extract_lets +onlyGivenNames x; refine Keeps.cut (x := x) ?_ ?_ <;> [subst x; (intro; rename' x => y)])
    | (extract_lets +onlyGivenNames x; subst x; try beta_reduce) | with_reducible apply State.boundary_keeps
    | with_reducible apply State.groupCheck_keeps | with_reducible apply State.endTile_keeps
    | with_reducible apply State.endLate_keeps | with_reducible apply Keeps.foldl | (intro)

theorem State.abortHeld_keeps {s₀ s : State} {t : Nat} (kp : Keeps s₀ s) : Keeps s₀ (State.abortHeld s t) := by
  unfold State.abortHeld
  repeat' first
    | with_reducible exact Keeps.refl _ | with_reducible assumption
    | (extract_lets +onlyGivenNames x; refine Keeps.cut (x := x) ?_ ?_ <;> [subst x; (intro; rename' x => y)])
    | (extract_lets +onlyGivenNames x; subst x; try beta_reduce) | (simp -zeta only [↓Keeps.lit])
    | with_reducible apply State.setSplit_keeps | with_reducible apply State.stage_keeps
    | with_reducible apply State.toIdle_keeps | with_reducible apply State.groupCheck_keeps
    | with_reducible apply State.endTile_keeps | split

theorem State.abortStep_keeps {s₀ s : State} {t : Nat} (kp : Keeps s₀ s) : Keeps s₀ (State.abortStep s t) := by
  unfold State.abortStep
  repeat' first
    | with_reducible exact Keeps.refl _ | with_reducible assumption | with_reducible apply State.endStep_keeps
    | with_reducible apply State.abortHeld_keeps | split

theorem State.shiftSpans_keeps {s₀ s : State} {d : Int} (kp : Keeps s₀ s) : Keeps s₀ (State.shiftSpans s d) := by
  unfold State.shiftSpans
  repeat' first
    | with_reducible exact Keeps.refl _ | with_reducible assumption | (simp -zeta only [↓Keeps.lit]) | (intro)

theorem State.wrapTo_keeps {s₀ s : State} {v : BitVec 64} (kp : Keeps s₀ s) : Keeps s₀ (State.wrapTo s v) := by
  unfold State.wrapTo
  repeat' first
    | with_reducible exact Keeps.refl _ | with_reducible assumption
    | (extract_lets +onlyGivenNames x; refine Keeps.cut (x := x) ?_ ?_ <;> [subst x; (intro; rename' x => y)])
    | (extract_lets +onlyGivenNames x; subst x; try beta_reduce) | (simp -zeta only [↓Keeps.lit])
    | with_reducible apply State.setFlag_keeps | with_reducible apply State.suspectFlag_keeps
    | with_reducible apply State.shiftSpans_keeps | with_reducible apply Keeps.foldl | split | (intro)

theorem State.syncWindow_keeps {s₀ s : State} (kp : Keeps s₀ s) : Keeps s₀ (State.syncWindow s) := by
  unfold State.syncWindow
  repeat' first
    | with_reducible exact Keeps.refl _ | with_reducible assumption
    | (extract_lets +onlyGivenNames x; refine Keeps.cut (x := x) ?_ ?_ <;> [subst x; (intro; rename' x => y)])
    | (extract_lets +onlyGivenNames x; subst x; try beta_reduce) | with_reducible apply State.setFlag_keeps | split | (intro)

theorem State.tick_keeps {s₀ s : State} (kp : Keeps s₀ s) : Keeps s₀ (State.tick s) := by
  unfold State.tick
  repeat' first
    | with_reducible exact Keeps.refl _ | with_reducible assumption | (simp -zeta only [↓Keeps.lit])
    | with_reducible apply State.registerDue_keeps | with_reducible apply State.wrapTo_keeps
    | with_reducible apply State.syncWindow_keeps | split

theorem State.setLink_keeps {s₀ s : State} {l : Nat} {c : LinkCtx} (kp : Keeps s₀ s) : Keeps s₀ (State.setLink s l c) := by
  unfold State.setLink
  repeat' first
    | with_reducible exact Keeps.refl _ | with_reducible assumption | (simp -zeta only [↓Keeps.lit]) | (intro)

theorem State.modLink_keeps {s₀ s : State} {l : Nat} {f : LinkCtx → LinkCtx} (kp : Keeps s₀ s) : Keeps s₀ (State.modLink s l
    f) := by
  unfold State.modLink
  repeat' first
    | with_reducible exact Keeps.refl _ | with_reducible assumption | with_reducible apply State.setLink_keeps

theorem State.sendWire_keeps {s₀ s : State} {l : Nat} {w : Wire} (kp : Keeps s₀ s) : Keeps s₀ (State.sendWire s l w) := by
  unfold State.sendWire
  repeat' first
    | with_reducible exact Keeps.refl _ | with_reducible assumption
    | (extract_lets +onlyGivenNames x; refine Keeps.cut (x := x) ?_ ?_ <;> [subst x; (intro; rename' x => y)])
    | (extract_lets +onlyGivenNames x; subst x; try beta_reduce) | (simp -zeta only [↓Keeps.lit])
    | with_reducible apply State.modLink_keeps | (intro)

theorem State.paceOn_keeps {s₀ s : State} {l : Nat} (kp : Keeps s₀ s) : Keeps s₀ (State.paceOn s l) := by
  unfold State.paceOn
  repeat' first
    | with_reducible exact Keeps.refl _ | with_reducible assumption
    | (extract_lets +onlyGivenNames x; refine Keeps.cut (x := x) ?_ ?_ <;> [subst x; (intro; rename' x => y)])
    | (extract_lets +onlyGivenNames x; subst x; try beta_reduce) | (simp -zeta only [↓Keeps.lit])
    | with_reducible apply State.modLink_keeps | split | (intro)

theorem State.oweTo_keeps {s₀ s : State} {l cls n : Nat} (kp : Keeps s₀ s) : Keeps s₀ (State.oweTo s l cls n) := by
  unfold State.oweTo
  repeat' first
    | with_reducible exact Keeps.refl _ | with_reducible assumption | (simp -zeta only [↓Keeps.lit])
    | with_reducible apply State.modLink_keeps | (intro)

theorem State.eventsEdge_keeps {s₀ s : State} {l : Nat} (kp : Keeps s₀ s) : Keeps s₀ (State.eventsEdge s l) := by
  unfold State.eventsEdge
  repeat' first
    | with_reducible exact Keeps.refl _ | with_reducible assumption | (simp -zeta only [↓Keeps.lit])
    | with_reducible apply State.modLink_keeps | with_reducible apply State.sendWire_keeps | with_reducible apply Keeps.foldl
    | split | (intro)

theorem State.sendAck_keeps {s₀ s : State} {l : Nat} (kp : Keeps s₀ s) : Keeps s₀ (State.sendAck s l) := by
  unfold State.sendAck
  repeat' first
    | with_reducible exact Keeps.refl _ | with_reducible assumption
    | (extract_lets +onlyGivenNames x; refine Keeps.cut (x := x) ?_ ?_ <;> [subst x; (intro; rename' x => y)])
    | (extract_lets +onlyGivenNames x; subst x; try beta_reduce) | (simp -zeta only [↓Keeps.lit])
    | with_reducible apply State.evCount_keeps | with_reducible apply State.modLink_keeps
    | with_reducible apply State.sendWire_keeps | with_reducible apply State.eventsEdge_keeps | (intro)

theorem State.sendFrame_keeps {s₀ s : State} {l : Nat} {f : Frame} (kp : Keeps s₀ s) : Keeps s₀ (State.sendFrame s l f) := by
  unfold State.sendFrame
  repeat' first
    | with_reducible exact Keeps.refl _ | with_reducible assumption
    | (extract_lets +onlyGivenNames x; refine Keeps.cut (x := x) ?_ ?_ <;> [subst x; (intro; rename' x => y)])
    | (extract_lets +onlyGivenNames x; subst x; try beta_reduce) | (simp -zeta only [↓Keeps.lit])
    | with_reducible apply State.fset_keeps | with_reducible apply State.evCount_keeps
    | with_reducible apply State.modLink_keeps | with_reducible apply State.sendWire_keeps | (intro)

theorem State.eventsLost_keeps {s₀ s : State} {n : Nat} (kp : Keeps s₀ s) : Keeps s₀ (State.eventsLost s n) := by
  unfold State.eventsLost
  repeat' first
    | with_reducible exact Keeps.refl _ | with_reducible assumption
    | (extract_lets +onlyGivenNames x; refine Keeps.cut (x := x) ?_ ?_ <;> [subst x; (intro; rename' x => y)])
    | (extract_lets +onlyGivenNames x; subst x; try beta_reduce) | (simp -zeta only [↓Keeps.lit])
    | with_reducible apply State.modCtx_keeps | with_reducible apply State.eventTo_keeps | split | (intro)

theorem State.packetSent_keeps {s₀ s : State} {p : Packet} (kp : Keeps s₀ s) : Keeps s₀ (State.packetSent s p) := by
  unfold State.packetSent
  repeat' first
    | with_reducible exact Keeps.refl _ | with_reducible assumption
    | (extract_lets +onlyGivenNames x; refine Keeps.cut (x := x) ?_ ?_ <;> [subst x; (intro; rename' x => y)])
    | (extract_lets +onlyGivenNames x; subst x; try beta_reduce) | (simp -zeta only [↓Keeps.lit])
    | with_reducible apply State.fset_keeps | with_reducible apply State.evCount_keeps
    | with_reducible apply State.eventsLost_keeps | split

theorem State.frameGone_keeps {s₀ s : State} {e : OutFrame} (kp : Keeps s₀ s) : Keeps s₀ (State.frameGone s e) := by
  unfold State.frameGone
  repeat' first
    | with_reducible exact Keeps.refl _ | with_reducible assumption | with_reducible apply State.oweTo_keeps | split | (intro)

theorem State.amEdge_keeps {s₀ s : State} {l : Nat} (kp : Keeps s₀ s) : Keeps s₀ (State.amEdge s l) := by
  unfold State.amEdge
  repeat' first
    | with_reducible exact Keeps.refl _ | with_reducible assumption
    | (extract_lets +onlyGivenNames x; refine Keeps.cut (x := x) ?_ ?_ <;> [subst x; (intro; rename' x => y)])
    | (extract_lets +onlyGivenNames x; subst x; try beta_reduce) | (simp -zeta only [↓Keeps.lit])
    | with_reducible apply State.modLink_keeps | with_reducible apply State.sendWire_keeps | with_reducible apply Keeps.foldl
    | split | (intro)

theorem State.prbsEdge_keeps {s₀ s : State} {l : Nat} (kp : Keeps s₀ s) : Keeps s₀ (State.prbsEdge s l) := by
  unfold State.prbsEdge
  repeat' first
    | with_reducible exact Keeps.refl _ | with_reducible assumption | (simp -zeta only [↓Keeps.lit])
    | with_reducible apply State.modLink_keeps | with_reducible apply Keeps.foldl | split | (intro)

theorem State.idleOut_keeps {s₀ s : State} {l sent : Nat} (kp : Keeps s₀ s) : Keeps s₀ (State.idleOut s l sent) := by
  unfold State.idleOut
  repeat' first
    | with_reducible exact Keeps.refl _ | with_reducible assumption
    | (extract_lets +onlyGivenNames x; refine Keeps.cut (x := x) ?_ ?_ <;> [subst x; (intro; rename' x => y)])
    | (extract_lets +onlyGivenNames x; subst x; try beta_reduce) | with_reducible apply State.modLink_keeps
    | with_reducible apply Keeps.foldl | split | (intro)

theorem State.linkEdge_keeps {s₀ s : State} {l : Nat} (kp : Keeps s₀ s) : Keeps s₀ (State.linkEdge s l) := by
  unfold State.linkEdge
  repeat' first
    | with_reducible exact Keeps.refl _ | with_reducible assumption
    | (extract_lets +onlyGivenNames x; refine Keeps.cut (x := x) ?_ ?_ <;> [subst x; (intro; rename' x => y)])
    | (extract_lets +onlyGivenNames x; subst x; try beta_reduce) | (simp -zeta only [↓Keeps.lit])
    | with_reducible apply State.modLink_keeps | with_reducible apply State.paceOn_keeps
    | with_reducible apply State.eventsEdge_keeps | with_reducible apply State.sendFrame_keeps
    | with_reducible apply State.packetSent_keeps | with_reducible apply State.frameGone_keeps
    | with_reducible apply State.amEdge_keeps | with_reducible apply State.prbsEdge_keeps
    | with_reducible apply State.idleOut_keeps | split | (intro)

theorem State.newId_keeps {s₀ s : State} (kp : Keeps s₀ s) : Keeps s₀ (State.newId s).2 := by
  unfold State.newId
  repeat' first
    | with_reducible exact Keeps.refl _ | with_reducible assumption | (simp -zeta only [↓Keeps.lit])

theorem State.newId_keepsEq {s₀ s : State} {r1 : Nat} {t_ : State} (h : State.newId s = (r1, t_)) (kp : Keeps s₀ s) : Keeps s₀
    t_ := by
  have k := State.newId_keeps (s₀ := s₀) (s := s) kp
  rwa [h] at k

theorem State.frameOut_keeps {s₀ s : State} {outs : List Nat} {f : Frame} {pkt : Nat} {src : Option Nat} {own : Option Packet}
    (kp : Keeps s₀ s) : Keeps s₀ (State.frameOut s outs f pkt src own) := by
  unfold State.frameOut
  repeat' first
    | with_reducible exact Keeps.refl _ | with_reducible assumption
    | (extract_lets +onlyGivenNames x; refine Keeps.cut (x := x) ?_ ?_ <;> [subst x; (intro; rename' x => y)])
    | (extract_lets +onlyGivenNames x; subst x; try beta_reduce) | (simp -zeta only [↓Keeps.lit])
    | with_reducible apply State.modLink_keeps | with_reducible apply State.newId_keeps
    | (refine State.newId_keepsEq (by with_reducible assumption) ?_) | with_reducible apply Keeps.foldl | split | (intro)

theorem State.bytesOut_keeps {s₀ s : State} {outs : List Nat} {cls : Nat} {b : List Byte} {own : Option Packet} (kp : Keeps s₀
    s) : Keeps s₀ (State.bytesOut s outs cls b own) := by
  unfold State.bytesOut
  repeat' first
    | with_reducible exact Keeps.refl _ | with_reducible assumption
    | (extract_lets +onlyGivenNames x; refine Keeps.cut (x := x) ?_ ?_ <;> [subst x; (intro; rename' x => y)])
    | (extract_lets +onlyGivenNames x; subst x; try beta_reduce) | with_reducible apply State.newId_keeps
    | (refine State.newId_keepsEq (by with_reducible assumption) ?_) | with_reducible apply State.frameOut_keeps
    | with_reducible apply Keeps.foldl | split | (intro)

theorem State.packetOut_keeps {s₀ s : State} {p : Packet} (kp : Keeps s₀ s) : Keeps s₀ (State.packetOut s p) := by
  unfold State.packetOut
  repeat' first
    | with_reducible exact Keeps.refl _ | with_reducible assumption | with_reducible apply State.bytesOut_keeps

theorem State.transmit_keeps {s₀ s : State} (kp : Keeps s₀ s) : Keeps s₀ (State.transmit s) := by
  unfold State.transmit
  repeat' first
    | with_reducible exact Keeps.refl _ | with_reducible assumption
    | (extract_lets +onlyGivenNames x; refine Keeps.cut (x := x) ?_ ?_ <;> [subst x; (intro; rename' x => y)])
    | (extract_lets +onlyGivenNames x; subst x; try beta_reduce) | (simp -zeta only [↓Keeps.lit])
    | with_reducible apply State.packetOut_keeps | with_reducible apply Keeps.foldl | (intro)

theorem State.upMove_keeps {s₀ s : State} (kp : Keeps s₀ s) : Keeps s₀ (State.upMove s) := by
  unfold State.upMove
  repeat' first
    | with_reducible exact Keeps.refl _ | with_reducible assumption
    | (extract_lets +onlyGivenNames x; refine Keeps.cut (x := x) ?_ ?_ <;> [subst x; (intro; rename' x => y)])
    | (extract_lets +onlyGivenNames x; subst x; try beta_reduce) | (simp -zeta only [↓Keeps.lit])
    | with_reducible apply State.modLink_keeps | split | (intro)

theorem State.linkEdges_keeps {s₀ s : State} (kp : Keeps s₀ s) : Keeps s₀ (State.linkEdges s) := by
  unfold State.linkEdges
  repeat' first
    | with_reducible exact Keeps.refl _ | with_reducible assumption | with_reducible apply State.tick_keeps
    | with_reducible apply State.linkEdge_keeps | with_reducible apply State.transmit_keeps
    | with_reducible apply State.upMove_keeps | with_reducible apply Keeps.foldl | (intro)

theorem State.syncPending_keeps {s₀ s : State} (kp : Keeps s₀ s) : Keeps s₀ (State.syncPending s) := by
  unfold State.syncPending
  repeat' first
    | with_reducible exact Keeps.refl _ | with_reducible assumption | with_reducible apply State.fset_keeps
    | with_reducible apply State.setFlag_keeps

theorem State.disagree_keeps {s₀ s : State} {ch k : Nat} {inj : Bool} (kp : Keeps s₀ s) : Keeps s₀ (State.disagree s ch k inj)
    := by
  unfold State.disagree
  repeat' first
    | with_reducible exact Keeps.refl _ | with_reducible assumption
    | (extract_lets +onlyGivenNames x; refine Keeps.cut (x := x) ?_ ?_ <;> [subst x; (intro; rename' x => y)])
    | (extract_lets +onlyGivenNames x; subst x; try beta_reduce) | (simp -zeta only [↓Keeps.lit])
    | with_reducible apply State.modChan_keeps | with_reducible apply State.pinReaction_keeps
    | with_reducible apply State.boundary_keeps | split | (intro)

theorem State.calReject_keeps {s₀ s : State} {ch subj : Nat} {nodes : List Nat} {inj : Bool} (kp : Keeps s₀ s) : Keeps s₀
    (State.calReject s ch subj nodes inj) := by
  unfold State.calReject
  repeat' first
    | with_reducible exact Keeps.refl _ | with_reducible assumption
    | (extract_lets +onlyGivenNames x; refine Keeps.cut (x := x) ?_ ?_ <;> [subst x; (intro; rename' x => y)])
    | (extract_lets +onlyGivenNames x; subst x; try beta_reduce) | with_reducible apply State.rset_keeps
    | with_reducible apply State.setFlag_keeps | with_reducible apply State.faultRaise_keeps
    | with_reducible apply State.disagree_keeps | with_reducible apply Keeps.foldl | split | (intro)

theorem State.calEnter_keeps {s₀ s : State} {m : CalMeas} {tj : Int} (kp : Keeps s₀ s) : Keeps s₀ (State.calEnter s m tj) :=
    by
  unfold State.calEnter
  repeat' first
    | with_reducible exact Keeps.refl _ | with_reducible assumption
    | (extract_lets +onlyGivenNames x; refine Keeps.cut (x := x) ?_ ?_ <;> [subst x; (intro; rename' x => y)])
    | (extract_lets +onlyGivenNames x; subst x; try beta_reduce) | (simp -zeta only [↓Keeps.lit])
    | with_reducible apply State.rset_keeps | with_reducible apply State.syncPending_keeps
    | with_reducible apply State.calReject_keeps | split | (intro)

theorem State.syncEnter_keeps {s₀ s : State} (kp : Keeps s₀ s) : Keeps s₀ (State.syncEnter s) := by
  unfold State.syncEnter
  repeat' first
    | with_reducible exact Keeps.refl _ | with_reducible assumption
    | (extract_lets +onlyGivenNames x; refine Keeps.cut (x := x) ?_ ?_ <;> [subst x; (intro; rename' x => y)])
    | (extract_lets +onlyGivenNames x; subst x; try beta_reduce) | (simp -zeta only [↓Keeps.lit])
    | with_reducible apply State.free_keeps | (refine State.free_keepsEq (by with_reducible assumption) ?_)
    | with_reducible apply State.calEnter_keeps | split

theorem State.syncSusp_keeps {s₀ s : State} (kp : Keeps s₀ s) : Keeps s₀ (State.syncSusp s) := by
  unfold State.syncSusp
  repeat' first
    | with_reducible exact Keeps.refl _ | with_reducible assumption | with_reducible apply State.setFlag_keeps

theorem State.commit_keeps {s₀ s : State} (kp : Keeps s₀ s) : Keeps s₀ (State.commit s) := by
  unfold State.commit
  repeat' first
    | with_reducible exact Keeps.refl _ | with_reducible assumption
    | (extract_lets +onlyGivenNames x; refine Keeps.cut (x := x) ?_ ?_ <;> [subst x; (intro; rename' x => y)])
    | (extract_lets +onlyGivenNames x; subst x; try beta_reduce) | (simp -zeta only [↓Keeps.lit])
    | with_reducible apply State.fset_keeps | with_reducible apply State.boundary_keeps
    | with_reducible apply State.syncPending_keeps | with_reducible apply Keeps.foldl | split | (intro)

theorem doBackgroundMeasurement_keeps {m : CalMeas} {s₀ s : State} (kp : Keeps s₀ s) : Keeps s₀ (doBackgroundMeasurement m s)
    := by
  unfold doBackgroundMeasurement
  repeat' first
    | with_reducible exact Keeps.refl _ | with_reducible assumption
    | (extract_lets +onlyGivenNames x; refine Keeps.cut (x := x) ?_ ?_ <;> [subst x; (intro; rename' x => y)])
    | (extract_lets +onlyGivenNames x; subst x; try beta_reduce) | with_reducible apply State.calEnter_keeps | split

theorem doCalAutoCommit_keeps {s₀ s : State} (kp : Keeps s₀ s) : Keeps s₀ (doCalAutoCommit s) := by
  unfold doCalAutoCommit
  repeat' first
    | with_reducible exact Keeps.refl _ | with_reducible assumption | with_reducible apply State.commit_keeps | split

theorem doRefvCheck_keeps {microvolt : Int} {s₀ s : State} (kp : Keeps s₀ s) : Keeps s₀ (doRefvCheck microvolt s) := by
  unfold doRefvCheck
  repeat' first
    | with_reducible exact Keeps.refl _ | with_reducible assumption
    | (extract_lets +onlyGivenNames x; refine Keeps.cut (x := x) ?_ ?_ <;> [subst x; (intro; rename' x => y)])
    | (extract_lets +onlyGivenNames x; subst x; try beta_reduce) | (simp -zeta only [↓Keeps.lit])
    | with_reducible apply State.setFlag_keeps | split

theorem doCalCommit_keeps {q : Req} {s₀ s : State} (kp : Keeps s₀ s) : Keeps s₀ (doCalCommit q s) := by
  unfold doCalCommit
  repeat' first
    | with_reducible exact Keeps.refl _ | with_reducible assumption
    | (extract_lets +onlyGivenNames x; refine Keeps.cut (x := x) ?_ ?_ <;> [subst x; (intro; rename' x => y)])
    | (extract_lets +onlyGivenNames x; subst x; try beta_reduce) | with_reducible apply State.reply_keeps
    | with_reducible apply State.fail_keeps | with_reducible apply State.request_keeps
    | with_reducible apply State.commit_keeps | split | (intro)

theorem doCalRead_keeps {q : Req} {s₀ s : State} (kp : Keeps s₀ s) : Keeps s₀ (doCalRead q s) := by
  unfold doCalRead
  repeat' first
    | with_reducible exact Keeps.refl _ | with_reducible assumption
    | (extract_lets +onlyGivenNames x; refine Keeps.cut (x := x) ?_ ?_ <;> [subst x; (intro; rename' x => y)])
    | (extract_lets +onlyGivenNames x; subst x; try beta_reduce) | with_reducible apply State.reply_keeps
    | with_reducible apply State.fail_keeps | with_reducible apply State.request_keeps | split | (intro)

theorem doCalRun_keeps {q : Req} {s₀ s : State} (kp : Keeps s₀ s) : Keeps s₀ (doCalRun q s) := by
  unfold doCalRun
  repeat' first
    | with_reducible exact Keeps.refl _ | with_reducible assumption
    | (extract_lets +onlyGivenNames x; refine Keeps.cut (x := x) ?_ ?_ <;> [subst x; (intro; rename' x => y)])
    | (extract_lets +onlyGivenNames x; subst x; try beta_reduce) | with_reducible apply State.setFlag_keeps
    | with_reducible apply State.fail_keeps | with_reducible apply State.start_keeps | with_reducible apply State.lend_keeps
    | with_reducible apply State.request_keeps | with_reducible apply Keeps.foldl | split | (intro)

theorem State.calReturn_keeps {s₀ s : State} {ch : Nat} (kp : Keeps s₀ s) : Keeps s₀ (State.calReturn s ch) := by
  unfold State.calReturn
  repeat' first
    | with_reducible exact Keeps.refl _ | with_reducible assumption
    | (extract_lets +onlyGivenNames x; refine Keeps.cut (x := x) ?_ ?_ <;> [subst x; (intro; rename' x => y)])
    | (extract_lets +onlyGivenNames x; subst x; try beta_reduce) | (simp -zeta only [↓Keeps.lit])
    | with_reducible apply State.fset_keeps | with_reducible apply State.modChan_keeps
    | with_reducible apply State.chMode_keeps | split | (intro)

theorem State.calRunEnd_keeps {s₀ s : State} {x : Split} (kp : Keeps s₀ s) : Keeps s₀ (State.calRunEnd s x) := by
  unfold State.calRunEnd
  repeat' first
    | with_reducible exact Keeps.refl _ | with_reducible assumption | with_reducible apply State.setFlag_keeps
    | with_reducible apply State.drop_keeps | with_reducible apply State.calReturn_keeps | with_reducible apply Keeps.foldl
    | (intro)

theorem doCalRunDone_keeps {o : OpRef} {items : List CalMeas} {s₀ s : State} (kp : Keeps s₀ s) : Keeps s₀ (doCalRunDone o
    items s) := by
  unfold doCalRunDone
  repeat' first
    | with_reducible exact Keeps.refl _ | with_reducible assumption
    | (extract_lets +onlyGivenNames x; refine Keeps.cut (x := x) ?_ ?_ <;> [subst x; (intro; rename' x => y)])
    | (extract_lets +onlyGivenNames x; subst x; try beta_reduce) | with_reducible apply State.complete_keeps
    | with_reducible apply State.calEnter_keeps | with_reducible apply State.syncEnter_keeps
    | with_reducible apply State.commit_keeps | with_reducible apply State.calRunEnd_keeps | with_reducible apply Keeps.foldl
    | split | (intro)

theorem doCalvingDeskewDone_keeps {t : Fin 64} {items : List CalMeas} {s₀ s : State} (kp : Keeps s₀ s) : Keeps s₀
    (doCalvingDeskewDone t items s) := by
  unfold doCalvingDeskewDone
  repeat' first
    | with_reducible exact Keeps.refl _ | with_reducible assumption
    | (extract_lets +onlyGivenNames x; refine Keeps.cut (x := x) ?_ ?_ <;> [subst x; (intro; rename' x => y)])
    | (extract_lets +onlyGivenNames x; subst x; try beta_reduce) | (simp -zeta only [↓Keeps.lit])
    | with_reducible apply State.modTile_keeps | with_reducible apply State.boundary_keeps
    | with_reducible apply State.calEnter_keeps | with_reducible apply State.commit_keeps
    | with_reducible apply State.calReturn_keeps | with_reducible apply Keeps.foldl | split | (intro)

theorem State.freeCells_keeps {s₀ s : State} {n k : Nat} (kp : Keeps s₀ s) : Keeps s₀ (State.freeCells s n k) := by
  unfold State.freeCells
  repeat' first
    | with_reducible exact Keeps.refl _ | with_reducible assumption | (simp -zeta only [↓Keeps.lit])
    | with_reducible apply State.modCtx_keeps | split | (intro)

theorem State.taken_keeps {s₀ s : State} {op : BitVec 8} {q : Req} (kp : Keeps s₀ s) : Keeps s₀ (State.taken s op q) := by
  unfold State.taken
  repeat' first
    | with_reducible exact Keeps.refl _ | with_reducible assumption
    | (extract_lets +onlyGivenNames x; refine Keeps.cut (x := x) ?_ ?_ <;> [subst x; (intro; rename' x => y)])
    | (extract_lets +onlyGivenNames x; subst x; try beta_reduce) | with_reducible apply State.fset_keeps
    | with_reducible apply State.freeCells_keeps | split

theorem State.uncount_keeps {s₀ s : State} {p : RxPkt} (kp : Keeps s₀ s) : Keeps s₀ (State.uncount s p) := by
  unfold State.uncount
  repeat' first
    | with_reducible exact Keeps.refl _ | with_reducible assumption | with_reducible apply State.fset_keeps

theorem State.cellsBack_keeps {s₀ s : State} {p : RxPkt} (kp : Keeps s₀ s) : Keeps s₀ (State.cellsBack s p) := by
  unfold State.cellsBack
  repeat' first
    | with_reducible exact Keeps.refl _ | with_reducible assumption | with_reducible apply State.freeCells_keeps
    | with_reducible apply State.uncount_keeps | split

theorem State.stompRx_keeps {s₀ s : State} {l : Nat} (kp : Keeps s₀ s) : Keeps s₀ (State.stompRx s l) := by
  unfold State.stompRx
  repeat' first
    | with_reducible exact Keeps.refl _ | with_reducible assumption
    | (extract_lets +onlyGivenNames x; refine Keeps.cut (x := x) ?_ ?_ <;> [subst x; (intro; rename' x => y)])
    | (extract_lets +onlyGivenNames x; subst x; try beta_reduce) | (simp -zeta only [↓Keeps.lit])
    | with_reducible apply State.modLink_keeps | with_reducible apply State.frameOut_keeps
    | with_reducible apply State.cellsBack_keeps | with_reducible apply Keeps.foldl | split | (intro)

theorem State.writeEnd_keeps {s₀ s : State} {w : Writing} {st : BitVec 8} (kp : Keeps s₀ s) : Keeps s₀ (State.writeEnd s w st)
    := by
  unfold State.writeEnd
  repeat' first
    | with_reducible exact Keeps.refl _ | with_reducible assumption
    | (extract_lets +onlyGivenNames x; refine Keeps.cut (x := x) ?_ ?_ <;> [subst x; (intro; rename' x => y)])
    | (extract_lets +onlyGivenNames x; subst x; try beta_reduce) | (simp -zeta only [↓Keeps.lit])
    | with_reducible apply State.reply_keeps | with_reducible apply State.fail_keeps | with_reducible apply State.segBad_keeps
    | with_reducible apply Keeps.foldl | split | (intro)

theorem State.writeLost_keeps {s₀ s : State} {l : Nat} (kp : Keeps s₀ s) : Keeps s₀ (State.writeLost s l) := by
  unfold State.writeLost
  repeat' first
    | with_reducible exact Keeps.refl _ | with_reducible assumption
    | (extract_lets +onlyGivenNames x; refine Keeps.cut (x := x) ?_ ?_ <;> [subst x; (intro; rename' x => y)])
    | (extract_lets +onlyGivenNames x; subst x; try beta_reduce) | (simp -zeta only [↓Keeps.lit])
    | with_reducible apply State.fset_keeps | with_reducible apply State.modCtx_keeps
    | with_reducible apply State.request_keeps | with_reducible apply State.taken_keeps
    | with_reducible apply State.writeEnd_keeps | with_reducible apply Keeps.foldl | split | (intro)

theorem State.dropFrames_keeps {s₀ s : State} {l : Nat} {p : OutFrame → Bool} (kp : Keeps s₀ s) : Keeps s₀ (State.dropFrames s
    l p) := by
  unfold State.dropFrames
  repeat' first
    | with_reducible exact Keeps.refl _ | with_reducible assumption
    | (extract_lets +onlyGivenNames x; refine Keeps.cut (x := x) ?_ ?_ <;> [subst x; (intro; rename' x => y)])
    | (extract_lets +onlyGivenNames x; subst x; try beta_reduce) | (simp -zeta only [↓Keeps.lit])
    | with_reducible apply State.modLink_keeps | with_reducible apply State.frameGone_keeps | with_reducible apply Keeps.foldl
    | split | (intro)

theorem State.flushQueue_keeps {s₀ s : State} {l : Nat} (kp : Keeps s₀ s) : Keeps s₀ (State.flushQueue s l) := by
  unfold State.flushQueue
  repeat' first
    | with_reducible exact Keeps.refl _ | with_reducible assumption | (simp -zeta only [↓Keeps.lit])
    | with_reducible apply State.modLink_keeps | with_reducible apply State.dropFrames_keeps | (intro)

theorem State.cutPackets_keeps {s₀ s : State} {l : Nat} (kp : Keeps s₀ s) : Keeps s₀ (State.cutPackets s l) := by
  unfold State.cutPackets
  repeat' first
    | with_reducible exact Keeps.refl _ | with_reducible assumption
    | (extract_lets +onlyGivenNames x; refine Keeps.cut (x := x) ?_ ?_ <;> [subst x; (intro; rename' x => y)])
    | (extract_lets +onlyGivenNames x; subst x; try beta_reduce) | (simp -zeta only [↓Keeps.lit])
    | with_reducible apply State.count_keeps | with_reducible apply State.modLink_keeps
    | with_reducible apply State.dropFrames_keeps | with_reducible apply Keeps.foldl | split | (intro)

theorem State.emptyBuffers_keeps {s₀ s : State} {l : Nat} (kp : Keeps s₀ s) : Keeps s₀ (State.emptyBuffers s l) := by
  unfold State.emptyBuffers
  repeat' first
    | with_reducible exact Keeps.refl _ | with_reducible assumption
    | (extract_lets +onlyGivenNames x; refine Keeps.cut (x := x) ?_ ?_ <;> [subst x; (intro; rename' x => y)])
    | (extract_lets +onlyGivenNames x; subst x; try beta_reduce) | (simp -zeta only [↓Keeps.lit])
    | with_reducible apply State.modLink_keeps | with_reducible apply Keeps.foldl | (intro)

theorem State.dropHeld_keeps {s₀ s : State} {l : Nat} (kp : Keeps s₀ s) : Keeps s₀ (State.dropHeld s l) := by
  unfold State.dropHeld
  repeat' first
    | with_reducible exact Keeps.refl _ | with_reducible assumption
    | (extract_lets +onlyGivenNames x; refine Keeps.cut (x := x) ?_ ?_ <;> [subst x; (intro; rename' x => y)])
    | (extract_lets +onlyGivenNames x; subst x; try beta_reduce) | (simp -zeta only [↓Keeps.lit])
    | with_reducible apply State.count_keeps | with_reducible apply State.modLink_keeps | (intro)

theorem State.fenceLaneDone_keeps {s₀ s : State} {l : Nat} (kp : Keeps s₀ s) : Keeps s₀ (State.fenceLaneDone s l) := by
  unfold State.fenceLaneDone
  repeat' first
    | with_reducible exact Keeps.refl _ | with_reducible assumption | (simp -zeta only [↓Keeps.lit])
    | with_reducible apply State.complete_keeps | with_reducible apply State.modLink_keeps | with_reducible apply Keeps.foldl
    | split | (intro)

theorem State.linkStop_keeps {s₀ s : State} {l st : Nat} (kp : Keeps s₀ s) : Keeps s₀ (State.linkStop s l st) := by
  unfold State.linkStop
  repeat' first
    | with_reducible exact Keeps.refl _ | with_reducible assumption
    | (extract_lets +onlyGivenNames x; refine Keeps.cut (x := x) ?_ ?_ <;> [subst x; (intro; rename' x => y)])
    | (extract_lets +onlyGivenNames x; subst x; try beta_reduce) | (simp -zeta only [↓Keeps.lit])
    | with_reducible apply State.rset_keeps | with_reducible apply State.fset_keeps | with_reducible apply State.modLink_keeps
    | with_reducible apply State.stompRx_keeps | with_reducible apply State.writeLost_keeps
    | with_reducible apply State.cutPackets_keeps | with_reducible apply State.emptyBuffers_keeps
    | with_reducible apply State.dropHeld_keeps | with_reducible apply State.fenceLaneDone_keeps
    | with_reducible apply Keeps.foldl | split | (intro)

theorem State.linkDown_keeps {s₀ s : State} {l cause : Nat} (kp : Keeps s₀ s) : Keeps s₀ (State.linkDown s l cause) := by
  unfold State.linkDown
  repeat' first
    | with_reducible exact Keeps.refl _ | with_reducible assumption
    | (extract_lets +onlyGivenNames x; refine Keeps.cut (x := x) ?_ ?_ <;> [subst x; (intro; rename' x => y)])
    | (extract_lets +onlyGivenNames x; subst x; try beta_reduce) | (simp -zeta only [↓Keeps.lit])
    | with_reducible apply State.setFlag_keeps | with_reducible apply State.chipEvent_keeps
    | with_reducible apply State.modLink_keeps | with_reducible apply State.linkStop_keeps | (intro)

theorem State.stagingDrop_keeps {s₀ s : State} {st : BitVec 8} (kp : Keeps s₀ s) : Keeps s₀ (State.stagingDrop s st) := by
  unfold State.stagingDrop
  repeat' first
    | with_reducible exact Keeps.refl _ | with_reducible assumption
    | (extract_lets +onlyGivenNames x; refine Keeps.cut (x := x) ?_ ?_ <;> [subst x; (intro; rename' x => y)])
    | (extract_lets +onlyGivenNames x; subst x; try beta_reduce) | (simp -zeta only [↓Keeps.lit])
    | with_reducible apply State.setFlag_keeps | with_reducible apply State.complete_keeps | with_reducible apply Keeps.foldl
    | (intro)

theorem State.vaultWipe_keeps {s₀ s : State} (kp : Keeps s₀ s) : Keeps s₀ (State.vaultWipe s) := by
  unfold State.vaultWipe
  repeat' first
    | with_reducible exact Keeps.refl _ | with_reducible assumption
    | (extract_lets +onlyGivenNames x; refine Keeps.cut (x := x) ?_ ?_ <;> [subst x; (intro; rename' x => y)])
    | (extract_lets +onlyGivenNames x; subst x; try beta_reduce) | (simp -zeta only [↓Keeps.lit])
    | with_reducible apply State.bundleRemove_keeps | with_reducible apply State.stagingDrop_keeps
    | with_reducible apply Keeps.foldl | split | (intro)

theorem State.patchRelease_keeps {s₀ s : State} (kp : Keeps s₀ s) : Keeps s₀ (State.patchRelease s) := by
  unfold State.patchRelease
  repeat' first
    | with_reducible exact Keeps.refl _ | with_reducible assumption | with_reducible apply State.setFlag_keeps

theorem State.cancelSplit_keeps {s₀ s : State} {x : Split} {st : BitVec 8} (kp : Keeps s₀ s) : Keeps s₀ (State.cancelSplit s x
    st) := by
  unfold State.cancelSplit
  repeat' first
    | with_reducible exact Keeps.refl _ | with_reducible assumption
    | (extract_lets +onlyGivenNames x; refine Keeps.cut (x := x) ?_ ?_ <;> [subst x; (intro; rename' x => y)])
    | (extract_lets +onlyGivenNames x; subst x; try beta_reduce) | (simp -zeta only [↓Keeps.lit])
    | with_reducible apply State.setFlag_keeps | with_reducible apply State.modTile_keeps
    | with_reducible apply State.complete_keeps | with_reducible apply State.dropCalving_keeps
    | with_reducible apply State.syncPwr_keeps | with_reducible apply State.boundary_keeps
    | with_reducible apply State.calRunEnd_keeps | with_reducible apply State.stagingDrop_keeps
    | with_reducible apply State.vaultWipe_keeps | with_reducible apply State.patchRelease_keeps
    | with_reducible apply Keeps.foldl | split | (intro)

theorem State.engineRestart_keeps {s₀ s : State} (kp : Keeps s₀ s) : Keeps s₀ (State.engineRestart s) := by
  unfold State.engineRestart
  repeat' first
    | with_reducible exact Keeps.refl _ | with_reducible assumption
    | (extract_lets +onlyGivenNames x; refine Keeps.cut (x := x) ?_ ?_ <;> [subst x; (intro; rename' x => y)])
    | (extract_lets +onlyGivenNames x; subst x; try beta_reduce) | (simp -zeta only [↓Keeps.lit])
    | with_reducible apply State.rset_keeps | with_reducible apply State.fset_keeps
    | with_reducible apply State.eraseSpace_keeps | with_reducible apply State.stage_keeps
    | with_reducible apply State.patchRelease_keeps | with_reducible apply State.cancelSplit_keeps
    | with_reducible apply Keeps.foldl | (intro)

theorem State.ppEmpty_keeps {s₀ s : State} (kp : Keeps s₀ s) : Keeps s₀ (State.ppEmpty s) := by
  unfold State.ppEmpty
  repeat' first
    | with_reducible exact Keeps.refl _ | with_reducible assumption
    | (extract_lets +onlyGivenNames x; refine Keeps.cut (x := x) ?_ ?_ <;> [subst x; (intro; rename' x => y)])
    | (extract_lets +onlyGivenNames x; subst x; try beta_reduce) | (simp -zeta only [↓Keeps.lit])
    | with_reducible apply State.fset_keeps | with_reducible apply State.setFlag_keeps

theorem State.blockReset_keeps {s₀ s : State} {b : Nat} (kp : Keeps s₀ s) : Keeps s₀ (State.blockReset s b) := by
  unfold State.blockReset
  repeat' first
    | with_reducible exact Keeps.refl _ | with_reducible assumption
    | (extract_lets +onlyGivenNames x; refine Keeps.cut (x := x) ?_ ?_ <;> [subst x; (intro; rename' x => y)])
    | (extract_lets +onlyGivenNames x; subst x; try beta_reduce) | with_reducible apply State.fset_keeps
    | with_reducible apply State.faultLog_keeps | with_reducible apply State.endStep_keeps
    | with_reducible apply State.linkStop_keeps | with_reducible apply State.linkDown_keeps
    | with_reducible apply State.vaultWipe_keeps | with_reducible apply State.engineRestart_keeps
    | with_reducible apply State.ppEmpty_keeps | split

theorem State.raises_keeps {s₀ s : State} {l : List (Nat × Nat)} {inj : Bool} (kp : Keeps s₀ s) : Keeps s₀ (State.raises s l
    inj) := by
  unfold State.raises
  repeat' first
    | with_reducible exact Keeps.refl _ | with_reducible assumption
    | (extract_lets +onlyGivenNames x; refine Keeps.cut (x := x) ?_ ?_ <;> [subst x; (intro; rename' x => y)])
    | (extract_lets +onlyGivenNames x; subst x; try beta_reduce) | with_reducible apply State.faultRaises_keeps
    | with_reducible apply State.blockReset_keeps | with_reducible apply Keeps.foldl | split | (intro)

theorem State.raise_keeps {s₀ s : State} {b src : Nat} {inj : Bool} (kp : Keeps s₀ s) : Keeps s₀ (State.raise s b src inj) :=
    by
  unfold State.raise
  repeat' first
    | with_reducible exact Keeps.refl _ | with_reducible assumption | with_reducible apply State.raises_keeps

theorem State.linkEvts_keeps {s₀ s : State} {l : Nat} {bits : List Nat} {inj : Bool} (kp : Keeps s₀ s) : Keeps s₀
    (State.linkEvts s l bits inj) := by
  unfold State.linkEvts
  repeat' first
    | with_reducible exact Keeps.refl _ | with_reducible assumption | with_reducible apply State.rset_keeps
    | with_reducible apply State.raises_keeps | with_reducible apply Keeps.foldl | (intro)

theorem State.linkEvt_keeps {s₀ s : State} {l bit : Nat} {inj : Bool} (kp : Keeps s₀ s) : Keeps s₀ (State.linkEvt s l bit inj)
    := by
  unfold State.linkEvt
  repeat' first
    | with_reducible exact Keeps.refl _ | with_reducible assumption | with_reducible apply State.linkEvts_keeps

theorem State.faultRoutine_keeps {s₀ s : State} {b src : Nat} (kp : Keeps s₀ s) : Keeps s₀ (State.faultRoutine s b src) := by
  unfold State.faultRoutine
  repeat' first
    | with_reducible exact Keeps.refl _ | with_reducible assumption
    | (extract_lets +onlyGivenNames x; refine Keeps.cut (x := x) ?_ ?_ <;> [subst x; (intro; rename' x => y)])
    | (extract_lets +onlyGivenNames x; subst x; try beta_reduce) | with_reducible apply State.chipEvent_keeps
    | with_reducible apply State.routine_keeps

theorem doFaultClear_keeps {b : FltBlk} {inj : Bool} {mask stillPresent : Word} {s₀ s : State} (kp : Keeps s₀ s) : Keeps s₀
    (doFaultClear b inj mask stillPresent s) := by
  unfold doFaultClear
  repeat' first
    | with_reducible exact Keeps.refl _ | with_reducible assumption
    | (extract_lets +onlyGivenNames x; refine Keeps.cut (x := x) ?_ ?_ <;> [subst x; (intro; rename' x => y)])
    | (extract_lets +onlyGivenNames x; subst x; try beta_reduce) | with_reducible apply State.rset_keeps
    | with_reducible apply Keeps.foldl | split | (intro)

theorem doSfLockSet_keeps {s₀ s : State} (kp : Keeps s₀ s) : Keeps s₀ (doSfLockSet s) := by
  unfold doSfLockSet
  repeat' first
    | with_reducible exact Keeps.refl _ | with_reducible assumption | with_reducible apply State.setFlag_keeps

theorem State.loadTime_keeps {s₀ s : State} {v : BitVec 64} {deskew : Int} (kp : Keeps s₀ s) : Keeps s₀ (State.loadTime s v
    deskew) := by
  unfold State.loadTime
  repeat' first
    | with_reducible exact Keeps.refl _ | with_reducible assumption
    | (extract_lets +onlyGivenNames x; refine Keeps.cut (x := x) ?_ ?_ <;> [subst x; (intro; rename' x => y)])
    | (extract_lets +onlyGivenNames x; subst x; try beta_reduce) | (simp -zeta only [↓Keeps.lit])
    | with_reducible apply State.setFlag_keeps | with_reducible apply State.shiftSpans_keeps | split

theorem State.syncMeasure_keeps {s₀ s : State} {u : Nat} (kp : Keeps s₀ s) : Keeps s₀ (State.syncMeasure s u) := by
  unfold State.syncMeasure
  repeat' first
    | with_reducible exact Keeps.refl _ | with_reducible assumption
    | (extract_lets +onlyGivenNames x; refine Keeps.cut (x := x) ?_ ?_ <;> [subst x; (intro; rename' x => y)])
    | (extract_lets +onlyGivenNames x; subst x; try beta_reduce) | (simp -zeta only [↓Keeps.lit])
    | with_reducible apply State.rset_keeps | with_reducible apply State.syncEnter_keeps | split

theorem doSyncEdge_keeps {u : Nat} {s₀ s : State} (kp : Keeps s₀ s) : Keeps s₀ (doSyncEdge u s) := by
  unfold doSyncEdge
  repeat' first
    | with_reducible exact Keeps.refl _ | with_reducible assumption | (simp -zeta only [↓Keeps.lit])
    | with_reducible apply State.syncMeasure_keeps | split

theorem doSyncArmedLoad_keeps {s₀ s : State} (kp : Keeps s₀ s) : Keeps s₀ (doSyncArmedLoad s) := by
  unfold doSyncArmedLoad
  repeat' first
    | with_reducible exact Keeps.refl _ | with_reducible assumption
    | (extract_lets +onlyGivenNames x; refine Keeps.cut (x := x) ?_ ?_ <;> [subst x; (intro; rename' x => y)])
    | (extract_lets +onlyGivenNames x; subst x; try beta_reduce) | (simp -zeta only [↓Keeps.lit])
    | with_reducible apply State.setFlag_keeps | with_reducible apply State.loadTime_keeps
    | with_reducible apply State.syncMeasure_keeps | split

theorem doSystimeWrap_keeps {s₀ s : State} (kp : Keeps s₀ s) : Keeps s₀ (doSystimeWrap s) := by
  unfold doSystimeWrap
  repeat' first
    | with_reducible exact Keeps.refl _ | with_reducible assumption | with_reducible apply State.wrapTo_keeps | split

theorem doRefCheck_keeps {ppm : Int} {s₀ s : State} (kp : Keeps s₀ s) : Keeps s₀ (doRefCheck ppm s) := by
  unfold doRefCheck
  repeat' first
    | with_reducible exact Keeps.refl _ | with_reducible assumption
    | (extract_lets +onlyGivenNames x; refine Keeps.cut (x := x) ?_ ?_ <;> [subst x; (intro; rename' x => y)])
    | (extract_lets +onlyGivenNames x; subst x; try beta_reduce) | (simp -zeta only [↓Keeps.lit])
    | with_reducible apply State.setFlag_keeps | with_reducible apply State.endSteps_keeps
    | with_reducible apply State.raise_keeps | split

theorem State.setWarm_keeps {s₀ s : State} (kp : Keeps s₀ s) : Keeps s₀ (State.setWarm s) := by
  unfold State.setWarm
  repeat' first
    | with_reducible exact Keeps.refl _ | with_reducible assumption
    | (extract_lets +onlyGivenNames x; refine Keeps.cut (x := x) ?_ ?_ <;> [subst x; (intro; rename' x => y)])
    | (extract_lets +onlyGivenNames x; subst x; try beta_reduce) | (simp -zeta only [↓Keeps.lit])
    | with_reducible apply State.suspectFlag_keeps | with_reducible apply State.warmTo_keeps
    | with_reducible apply Keeps.foldl | (intro)

theorem doRefDriftCheck_keeps {freq : Int} {s₀ s : State} (kp : Keeps s₀ s) : Keeps s₀ (doRefDriftCheck freq s) := by
  unfold doRefDriftCheck
  repeat' first
    | with_reducible exact Keeps.refl _ | with_reducible assumption
    | (extract_lets +onlyGivenNames x; refine Keeps.cut (x := x) ?_ ?_ <;> [subst x; (intro; rename' x => y)])
    | (extract_lets +onlyGivenNames x; subst x; try beta_reduce) | (simp -zeta only [↓Keeps.lit])
    | with_reducible apply State.rset_keeps | with_reducible apply State.warmTo_keeps
    | with_reducible apply State.setWarm_keeps | split

theorem doOcxoReadyChange_keeps {high : Bool} {s₀ s : State} (kp : Keeps s₀ s) : Keeps s₀ (doOcxoReadyChange high s) := by
  unfold doOcxoReadyChange
  repeat' first
    | with_reducible exact Keeps.refl _ | with_reducible assumption | (simp -zeta only [↓Keeps.lit])
    | with_reducible apply State.setWarm_keeps | split

theorem doSystimeLoRead_keeps {ctx : Fin 33} {s₀ s : State} (kp : Keeps s₀ s) : Keeps s₀ (doSystimeLoRead ctx s) := by
  unfold doSystimeLoRead
  repeat' first
    | with_reducible exact Keeps.refl _ | with_reducible assumption | (simp -zeta only [↓Keeps.lit])
    | with_reducible apply State.modCtx_keeps | (intro)

theorem doTimeMessageSend_keeps {l : Fin 12} {s₀ s : State} (kp : Keeps s₀ s) : Keeps s₀ (doTimeMessageSend l s) := by
  unfold doTimeMessageSend
  repeat' first
    | with_reducible exact Keeps.refl _ | with_reducible assumption | (simp -zeta only [↓Keeps.lit])
    | with_reducible apply State.modLink_keeps | with_reducible apply State.sendWire_keeps | split | (intro)

theorem State.halfRtt_keeps {s₀ s : State} {l : Nat} (kp : Keeps s₀ s) : Keeps s₀ (State.halfRtt s l).2 := by
  unfold State.halfRtt
  repeat' first
    | with_reducible exact Keeps.refl _ | with_reducible assumption
    | (extract_lets +onlyGivenNames x; refine Keeps.cut (x := x) ?_ ?_ <;> [subst x; (intro; rename' x => y)])
    | (extract_lets +onlyGivenNames x; subst x; try beta_reduce) | with_reducible apply State.free_keeps
    | (refine State.free_keepsEq (by with_reducible assumption) ?_) | split

theorem State.halfRtt_keepsEq {s₀ s : State} {l : Nat} {r1 : Nat} {t_ : State} (h : State.halfRtt s l = (r1, t_)) (kp : Keeps
    s₀ s) : Keeps s₀ t_ := by
  have k := State.halfRtt_keeps (s₀ := s₀) (s := s) (l := l) kp
  rwa [h] at k

theorem doTimeMessageReceive_keeps {l : Fin 12} {time arrival : BitVec 64} {s₀ s : State} (kp : Keeps s₀ s) : Keeps s₀
    (doTimeMessageReceive l time arrival s) := by
  unfold doTimeMessageReceive
  repeat' first
    | with_reducible exact Keeps.refl _ | with_reducible assumption
    | (extract_lets +onlyGivenNames x; refine Keeps.cut (x := x) ?_ ?_ <;> [subst x; (intro; rename' x => y)])
    | (extract_lets +onlyGivenNames x; subst x; try beta_reduce) | with_reducible apply State.rset_keeps
    | with_reducible apply State.setFlag_keeps | with_reducible apply State.suspectAll_keeps
    | with_reducible apply State.raise_keeps | with_reducible apply State.loadTime_keeps
    | with_reducible apply State.halfRtt_keeps | (refine State.halfRtt_keepsEq (by with_reducible assumption) ?_) | split

end Sys2Proof.Machine
end

