-- ==== Sys2Proof/Laws/KeepsProtocol.lean ====
section
/-! SUPPORT. Time, pattern store, link, session and step commands keep the relation of Keeps.lean. -/

namespace Sys2Proof.Machine

theorem State.segStore_keeps {s₀ s : State} {t i off : Nat} {enc : Bool} {seq : Option Nat} {payload : List Byte} (kp : Keeps
    s₀ s) : Keeps s₀ (State.segStore s t i off enc seq payload) := by
  unfold State.segStore
  repeat' first
    | with_reducible exact Keeps.refl _ | with_reducible assumption
    | (extract_lets +onlyGivenNames x; refine Keeps.cut (x := x) ?_ ?_ <;> [subst x; (intro; rename' x => y)])
    | (extract_lets +onlyGivenNames x; subst x; try beta_reduce) | (simp -zeta only [↓Keeps.lit])
    | with_reducible apply State.fset_keeps | with_reducible apply State.setFlag_keeps
    | with_reducible apply State.mwrite_keeps | with_reducible apply State.eccFresh_keeps
    | with_reducible apply State.segErase_keeps | with_reducible apply State.setSegSeal_keeps
    | with_reducible apply State.segSync_keeps | split

theorem State.segValid_keeps {s₀ s : State} {t i : Nat} (kp : Keeps s₀ s) : Keeps s₀ (State.segValid s t i) := by
  unfold State.segValid
  repeat' first
    | with_reducible exact Keeps.refl _ | with_reducible assumption
    | (extract_lets +onlyGivenNames x; refine Keeps.cut (x := x) ?_ ?_ <;> [subst x; (intro; rename' x => y)])
    | (extract_lets +onlyGivenNames x; subst x; try beta_reduce) | (simp -zeta only [↓Keeps.lit])
    | with_reducible apply State.fset_keeps | with_reducible apply State.modTile_keeps
    | with_reducible apply State.segSync_keeps | split | (intro)

theorem State.segCommit1_keeps {s₀ s : State} {t i : Nat} {crc : Word} (kp : Keeps s₀ s) : Keeps s₀ (State.segCommit1 s t i
    crc).1 := by
  unfold State.segCommit1
  repeat' first
    | with_reducible exact Keeps.refl _ | with_reducible assumption
    | (extract_lets +onlyGivenNames x; refine Keeps.cut (x := x) ?_ ?_ <;> [subst x; (intro; rename' x => y)])
    | (extract_lets +onlyGivenNames x; subst x; try beta_reduce) | with_reducible apply State.segValid_keeps | split

theorem State.segCommit1_keepsEq {s₀ s : State} {t i : Nat} {crc : Word} {r2 : Option (BitVec 8)} {r3 : Bool} {t_ : State} (h
    : State.segCommit1 s t i crc = (t_, r2, r3)) (kp : Keeps s₀ s) : Keeps s₀ t_ := by
  have k := State.segCommit1_keeps (s₀ := s₀) (s := s) (t := t) (i := i) (crc := crc) kp
  rwa [h] at k

theorem State.discard_keeps {s₀ s : State} (kp : Keeps s₀ s) : Keeps s₀ (State.discard s) := by
  unfold State.discard
  repeat' first
    | with_reducible exact Keeps.refl _ | with_reducible assumption | with_reducible apply State.count_keeps

theorem State.writeCells_keeps {s₀ s : State} {w : Writing} {data : List Byte} (kp : Keeps s₀ s) : Keeps s₀ (State.writeCells
    s w data) := by
  unfold State.writeCells
  repeat' first
    | with_reducible exact Keeps.refl _ | with_reducible assumption | with_reducible apply State.mwrite_keeps
    | with_reducible apply State.eccFresh_keeps | with_reducible apply State.segStore_keeps | with_reducible apply Keeps.foldl
    | split | (intro)

theorem State.setWriting_keeps {s₀ s : State} {w v : Writing} (kp : Keeps s₀ s) : Keeps s₀ (State.setWriting s w v).1 := by
  unfold State.setWriting
  repeat' first
    | with_reducible exact Keeps.refl _ | with_reducible assumption | (simp -zeta only [↓Keeps.lit]) | split | (intro)

theorem State.setWriting_keepsEq {s₀ s : State} {w v : Writing} {r2 : Writing} {t_ : State} (h : State.setWriting s w v = (t_,
    r2)) (kp : Keeps s₀ s) : Keeps s₀ t_ := by
  have k := State.setWriting_keeps (s₀ := s₀) (s := s) (w := w) (v := v) kp
  rwa [h] at k

theorem State.writeOn_keeps {s₀ s : State} {w : Writing} {got : List Byte} {final : Bool} (kp : Keeps s₀ s) : Keeps s₀
    (State.writeOn s w got final).1 := by
  unfold State.writeOn
  repeat' first
    | with_reducible exact Keeps.refl _ | with_reducible assumption
    | (extract_lets +onlyGivenNames x; refine Keeps.cut (x := x) ?_ ?_ <;> [subst x; (intro; rename' x => y)])
    | (extract_lets +onlyGivenNames x; subst x; try beta_reduce) | (simp -zeta only [↓Keeps.lit])
    | with_reducible apply State.drop_keeps | with_reducible apply State.writeCells_keeps
    | with_reducible apply State.setWriting_keeps | (refine State.setWriting_keepsEq (by with_reducible assumption) ?_)
    | split | (intro)

theorem State.writeOn_keepsEq {s₀ s : State} {w : Writing} {got : List Byte} {final : Bool} {r2 : Writing} {t_ : State} (h :
    State.writeOn s w got final = (t_, r2)) (kp : Keeps s₀ s) : Keeps s₀ t_ := by
  have k := State.writeOn_keeps (s₀ := s₀) (s := s) (w := w) (got := got) (final := final) kp
  rwa [h] at k

theorem State.writeBegin_keeps {s₀ s : State} {w : Writing} (kp : Keeps s₀ s) : Keeps s₀ (State.writeBegin s w) := by
  unfold State.writeBegin
  repeat' first
    | with_reducible exact Keeps.refl _ | with_reducible assumption
    | (extract_lets +onlyGivenNames x; refine Keeps.cut (x := x) ?_ ?_ <;> [subst x; (intro; rename' x => y)])
    | (extract_lets +onlyGivenNames x; subst x; try beta_reduce) | (simp -zeta only [↓Keeps.lit])
    | with_reducible apply State.writeEnd_keeps | with_reducible apply State.writeOn_keeps
    | (refine State.writeOn_keepsEq (by with_reducible assumption) ?_) | split

theorem doSegWrite_keeps {q : Req} {s₀ s : State} (kp : Keeps s₀ s) : Keeps s₀ (doSegWrite q s) := by
  unfold doSegWrite
  repeat' first
    | with_reducible exact Keeps.refl _ | with_reducible assumption | (simp -zeta only [↓Keeps.lit])
    | with_reducible apply State.fail_keeps | with_reducible apply State.request_keeps
    | with_reducible apply State.discard_keeps | with_reducible apply State.writeBegin_keeps | split | (intro)

theorem State.segCommits_keeps {s₀ s : State} {q : Req} {l : List Nat} (kp : Keeps s₀ s) :
    Keeps s₀ (State.segCommits s q l).1 := by
  induction l generalizing s with
  | nil => exact kp
  | cons t l ih => exact ih (State.segCommit1_keeps kp)

theorem doSegCommit_keeps {q : Req} {s₀ s : State} (kp : Keeps s₀ s) : Keeps s₀ (doSegCommit q s) := by
  unfold doSegCommit
  repeat' first
    | with_reducible exact Keeps.refl _ | with_reducible assumption
    | (extract_lets +onlyGivenNames x; refine Keeps.cut (x := x) ?_ ?_ <;> [subst x; (intro; rename' x => y)])
    | (extract_lets +onlyGivenNames x; subst x; try beta_reduce) | with_reducible apply State.reply_keeps
    | with_reducible apply State.request_keeps | with_reducible apply State.discard_keeps
    | with_reducible apply State.segCommits_keeps | split | (intro)

theorem State.strmBreak_keeps {s₀ s : State} {n g : Nat} {l : List Nat} (kp : Keeps s₀ s) : Keeps s₀ (State.strmBreak s n g l)
    := by
  unfold State.strmBreak
  repeat' first
    | with_reducible exact Keeps.refl _ | with_reducible assumption
    | (extract_lets +onlyGivenNames x; refine Keeps.cut (x := x) ?_ ?_ <;> [subst x; (intro; rename' x => y)])
    | (extract_lets +onlyGivenNames x; subst x; try beta_reduce) | with_reducible apply State.setFlag_keeps
    | with_reducible apply State.eventFor_keeps | with_reducible apply Keeps.foldl | split | (intro)

theorem State.strmForward_keeps {s₀ s : State} {n : Nat} {p : StrmPkt} (kp : Keeps s₀ s) : Keeps s₀ (State.strmForward s n p)
    := by
  unfold State.strmForward
  repeat' first
    | with_reducible exact Keeps.refl _ | with_reducible assumption
    | (extract_lets +onlyGivenNames x; refine Keeps.cut (x := x) ?_ ?_ <;> [subst x; (intro; rename' x => y)])
    | (extract_lets +onlyGivenNames x; subst x; try beta_reduce) | with_reducible apply State.evCount_keeps
    | with_reducible apply State.bytesOut_keeps | with_reducible apply State.commit_keeps | split

theorem State.strmWrite_keeps {s₀ s : State} {n : Nat} {q : Req} (kp : Keeps s₀ s) : Keeps s₀ (State.strmWrite s n q) := by
  unfold State.strmWrite
  repeat' first
    | with_reducible exact Keeps.refl _ | with_reducible assumption
    | (extract_lets +onlyGivenNames x; refine Keeps.cut (x := x) ?_ ?_ <;> [subst x; (intro; rename' x => y)])
    | (extract_lets +onlyGivenNames x; subst x; try beta_reduce) | (simp -zeta only [↓Keeps.lit])
    | with_reducible apply State.setStrm_keeps | with_reducible apply State.evCount_keeps
    | with_reducible apply State.segBad_keeps | with_reducible apply State.segStore_keeps | with_reducible apply Keeps.foldl
    | split | (intro)

theorem State.strmCommits_keeps {s₀ s : State} {crc : Word} {l : List Nat} (kp : Keeps s₀ s) :
    Keeps s₀ (State.strmCommits s crc l).1 := by
  induction l generalizing s with
  | nil => exact kp
  | cons t l ih => exact ih (State.segCommit1_keeps kp)

theorem State.strmCommit_keeps {s₀ s : State} {n g : Nat} {q : Req} (kp : Keeps s₀ s) : Keeps s₀ (State.strmCommit s n g q) :=
    by
  unfold State.strmCommit
  repeat' first
    | with_reducible exact Keeps.refl _ | with_reducible assumption
    | (extract_lets +onlyGivenNames x; refine Keeps.cut (x := x) ?_ ?_ <;> [subst x; (intro; rename' x => y)])
    | (extract_lets +onlyGivenNames x; subst x; try beta_reduce) | (simp -zeta only [↓Keeps.lit])
    | with_reducible apply State.rset_keeps | with_reducible apply State.setFlag_keeps
    | with_reducible apply State.count_keeps | with_reducible apply State.setStrm_keeps
    | with_reducible apply State.evCount_keeps | with_reducible apply State.eventFor_keeps
    | with_reducible apply State.strmBreak_keeps | with_reducible apply State.strmCommits_keeps
    | with_reducible apply Keeps.foldl | split | (intro)

theorem State.strmTake_keeps {s₀ s : State} {n : Nat} {p : StrmPkt} (kp : Keeps s₀ s) : Keeps s₀ (State.strmTake s n p) := by
  unfold State.strmTake
  repeat' first
    | with_reducible exact Keeps.refl _ | with_reducible assumption
    | (extract_lets +onlyGivenNames x; refine Keeps.cut (x := x) ?_ ?_ <;> [subst x; (intro; rename' x => y)])
    | (extract_lets +onlyGivenNames x; subst x; try beta_reduce) | with_reducible apply State.fset_keeps
    | with_reducible apply State.setFlag_keeps | with_reducible apply State.eventFor_keeps
    | with_reducible apply State.oweTo_keeps | with_reducible apply State.commit_keeps
    | with_reducible apply State.strmBreak_keeps | with_reducible apply State.strmForward_keeps
    | with_reducible apply State.strmWrite_keeps | with_reducible apply State.strmCommit_keeps | split

theorem State.strmDrain_keeps {s₀ s : State} {blocked : List Nat} {done l : List StrmPkt} (kp : Keeps s₀ s) :
    Keeps s₀ (State.strmDrain s blocked done l) := by
  induction l generalizing s blocked done with
  | nil => exact kp.trans (.upd rfl rfl rfl)
  | cons p l ih =>
    unfold State.strmDrain
    repeat' first
      | with_reducible exact Keeps.refl _ | with_reducible assumption | (simp -zeta only [↓Keeps.lit])
      | with_reducible apply ih | with_reducible apply State.discard_keeps | with_reducible apply State.strmTake_keeps
      | with_reducible apply State.oweTo_keeps | with_reducible apply Keeps.foldl | split

theorem State.strmPump_keeps {s₀ s : State} (kp : Keeps s₀ s) : Keeps s₀ (State.strmPump s) := by
  unfold State.strmPump
  repeat' first
    | with_reducible exact Keeps.refl _ | with_reducible assumption | with_reducible apply State.strmDrain_keeps | split

theorem State.strmArrive_keeps {s₀ s : State} {p : StrmPkt} (kp : Keeps s₀ s) : Keeps s₀ (State.strmArrive s p) := by
  unfold State.strmArrive
  repeat' first
    | with_reducible exact Keeps.refl _ | with_reducible assumption | (simp -zeta only [↓Keeps.lit])
    | with_reducible apply State.strmPump_keeps

theorem doStreamPacket_keeps {group : BitVec 8} {commit : Bool} {q : Req} {s₀ s : State} (kp : Keeps s₀ s) : Keeps s₀
    (doStreamPacket group commit q s) := by
  unfold doStreamPacket
  repeat' first
    | with_reducible exact Keeps.refl _ | with_reducible assumption | (simp -zeta only [↓Keeps.lit])
    | with_reducible apply State.strmArrive_keeps

theorem State.wakeEngine_keeps {s₀ s : State} (kp : Keeps s₀ s) : Keeps s₀ (State.wakeEngine s) := by
  unfold State.wakeEngine
  repeat' first
    | with_reducible exact Keeps.refl _ | with_reducible assumption | with_reducible apply State.setFlag_keeps
    | with_reducible apply State.syncSusp_keeps

theorem doStreamOpen_keeps {q : Req} {s₀ s : State} (kp : Keeps s₀ s) : Keeps s₀ (doStreamOpen q s) := by
  unfold doStreamOpen
  repeat' first
    | with_reducible exact Keeps.refl _ | with_reducible assumption
    | (extract_lets +onlyGivenNames x; refine Keeps.cut (x := x) ?_ ?_ <;> [subst x; (intro; rename' x => y)])
    | (extract_lets +onlyGivenNames x; subst x; try beta_reduce) | (simp -zeta only [↓Keeps.lit])
    | with_reducible apply State.rset_keeps | with_reducible apply State.fset_keeps | with_reducible apply State.setFlag_keeps
    | with_reducible apply State.setStrm_keeps | with_reducible apply State.reply_keeps
    | with_reducible apply State.fail_keeps | with_reducible apply State.request_keeps
    | with_reducible apply State.wakeEngine_keeps | with_reducible apply Keeps.foldl | split | (intro)

theorem doStreamClose_keeps {q : Req} {s₀ s : State} (kp : Keeps s₀ s) : Keeps s₀ (doStreamClose q s) := by
  unfold doStreamClose
  repeat' first
    | with_reducible exact Keeps.refl _ | with_reducible assumption
    | (extract_lets +onlyGivenNames x; refine Keeps.cut (x := x) ?_ ?_ <;> [subst x; (intro; rename' x => y)])
    | (extract_lets +onlyGivenNames x; subst x; try beta_reduce) | (simp -zeta only [↓Keeps.lit])
    | with_reducible apply State.rset_keeps | with_reducible apply State.fset_keeps | with_reducible apply State.setFlag_keeps
    | with_reducible apply State.setStrm_keeps | with_reducible apply State.reply_keeps
    | with_reducible apply State.fail_keeps | with_reducible apply State.request_keeps
    | with_reducible apply State.strmPump_keeps | with_reducible apply Keeps.foldl | split | (intro)

theorem State.ackIn_keeps {s₀ s : State} {l : Nat} {ack : BitVec 12} (kp : Keeps s₀ s) : Keeps s₀ (State.ackIn s l ack) := by
  unfold State.ackIn
  repeat' first
    | with_reducible exact Keeps.refl _ | with_reducible assumption
    | (extract_lets +onlyGivenNames x; refine Keeps.cut (x := x) ?_ ?_ <;> [subst x; (intro; rename' x => y)])
    | (extract_lets +onlyGivenNames x; subst x; try beta_reduce) | (simp -zeta only [↓Keeps.lit])
    | with_reducible apply State.drop_keeps | with_reducible apply State.setLink_keeps | split | (intro)

theorem State.enterRetrain_keeps {s₀ s : State} {l : Nat} (kp : Keeps s₀ s) : Keeps s₀ (State.enterRetrain s l) := by
  unfold State.enterRetrain
  repeat' first
    | with_reducible exact Keeps.refl _ | with_reducible assumption
    | (extract_lets +onlyGivenNames x; refine Keeps.cut (x := x) ?_ ?_ <;> [subst x; (intro; rename' x => y)])
    | (extract_lets +onlyGivenNames x; subst x; try beta_reduce) | (simp -zeta only [↓Keeps.lit])
    | with_reducible apply State.fset_keeps | with_reducible apply State.count_keeps
    | with_reducible apply State.modLink_keeps | with_reducible apply State.sendWire_keeps | split | (intro)

theorem State.replay_keeps {s₀ s : State} {l : Nat} (kp : Keeps s₀ s) : Keeps s₀ (State.replay s l) := by
  unfold State.replay
  repeat' first
    | with_reducible exact Keeps.refl _ | with_reducible assumption
    | (extract_lets +onlyGivenNames x; refine Keeps.cut (x := x) ?_ ?_ <;> [subst x; (intro; rename' x => y)])
    | (extract_lets +onlyGivenNames x; subst x; try beta_reduce) | (simp -zeta only [↓Keeps.lit])
    | with_reducible apply State.count_keeps | with_reducible apply State.evCount_keeps
    | with_reducible apply State.setLink_keeps | with_reducible apply State.modLink_keeps
    | with_reducible apply State.sendWire_keeps | with_reducible apply State.linkEvt_keeps
    | with_reducible apply State.enterRetrain_keeps | with_reducible apply Keeps.foldl | split | (intro)

theorem State.laneFenced_keeps {s₀ s : State} {l j cause : Nat} {inj : Bool} (kp : Keeps s₀ s) : Keeps s₀ (State.laneFenced s
    l j cause inj) := by
  unfold State.laneFenced
  repeat' first
    | with_reducible exact Keeps.refl _ | with_reducible assumption
    | (extract_lets +onlyGivenNames x; refine Keeps.cut (x := x) ?_ ?_ <;> [subst x; (intro; rename' x => y)])
    | (extract_lets +onlyGivenNames x; subst x; try beta_reduce) | with_reducible apply State.rset_keeps
    | with_reducible apply State.fset_keeps | with_reducible apply State.count_keeps | with_reducible apply State.free_keeps
    | (refine State.free_keepsEq (by with_reducible assumption) ?_) | with_reducible apply State.chipEvent_keeps
    | with_reducible apply State.stage_keeps | split

theorem State.fenceLane_keeps {s₀ s : State} {l j cause : Nat} {inj : Bool} (kp : Keeps s₀ s) : Keeps s₀ (State.fenceLane s l
    j cause inj) := by
  unfold State.fenceLane
  repeat' first
    | with_reducible exact Keeps.refl _ | with_reducible assumption | with_reducible apply State.linkEvts_keeps
    | with_reducible apply State.laneFenced_keeps

theorem State.goDown_keeps {s₀ s : State} {l cause : Nat} {inj : Bool} (kp : Keeps s₀ s) : Keeps s₀ (State.goDown s l cause
    inj) := by
  unfold State.goDown
  repeat' first
    | with_reducible exact Keeps.refl _ | with_reducible assumption | with_reducible apply State.linkDown_keeps
    | with_reducible apply State.raise_keeps

theorem State.loseLane_keeps {s₀ s : State} {l j cause : Nat} {inj : Bool} (kp : Keeps s₀ s) : Keeps s₀ (State.loseLane s l j
    cause inj) := by
  unfold State.loseLane
  repeat' first
    | with_reducible exact Keeps.refl _ | with_reducible assumption
    | (extract_lets +onlyGivenNames x; refine Keeps.cut (x := x) ?_ ?_ <;> [subst x; (intro; rename' x => y)])
    | (extract_lets +onlyGivenNames x; subst x; try beta_reduce) | (simp -zeta only [↓Keeps.lit])
    | with_reducible apply State.modLink_keeps | with_reducible apply State.linkDown_keeps
    | with_reducible apply State.linkEvts_keeps | with_reducible apply State.enterRetrain_keeps
    | with_reducible apply State.laneFenced_keeps | split | (intro)

theorem doLaneLockLoss_keeps {l : Fin 12} {lane : Fin 8} {cause : Fin 4} {blocks : List (BitVec 66)} {s₀ s : State} (kp :
    Keeps s₀ s) : Keeps s₀ (doLaneLockLoss l lane cause blocks s) := by
  unfold doLaneLockLoss
  repeat' first
    | with_reducible exact Keeps.refl _ | with_reducible assumption
    | (extract_lets +onlyGivenNames x; refine Keeps.cut (x := x) ?_ ?_ <;> [subst x; (intro; rename' x => y)])
    | (extract_lets +onlyGivenNames x; subst x; try beta_reduce) | (simp -zeta only [↓Keeps.lit])
    | with_reducible apply State.modLink_keeps | with_reducible apply State.loseLane_keeps | split | (intro)

theorem State.bipError_keeps {s₀ s : State} {l j : Nat} (kp : Keeps s₀ s) : Keeps s₀ (State.bipError s l j) := by
  unfold State.bipError
  repeat' first
    | with_reducible exact Keeps.refl _ | with_reducible assumption
    | (extract_lets +onlyGivenNames x; refine Keeps.cut (x := x) ?_ ?_ <;> [subst x; (intro; rename' x => y)])
    | (extract_lets +onlyGivenNames x; subst x; try beta_reduce) | (simp -zeta only [↓Keeps.lit])
    | with_reducible apply State.count_keeps | with_reducible apply State.modLink_keeps
    | with_reducible apply State.loseLane_keeps | split | (intro)

theorem doAmReceive_keeps {l : Fin 12} {lane : Fin 8} {am : Option (BitVec 64)} {since : List (BitVec 64)} {s₀ s : State} (kp
    : Keeps s₀ s) : Keeps s₀ (doAmReceive l lane am since s) := by
  unfold doAmReceive
  repeat' first
    | with_reducible exact Keeps.refl _ | with_reducible assumption
    | (extract_lets +onlyGivenNames x; refine Keeps.cut (x := x) ?_ ?_ <;> [subst x; (intro; rename' x => y)])
    | (extract_lets +onlyGivenNames x; subst x; try beta_reduce) | (simp -zeta only [↓Keeps.lit])
    | with_reducible apply State.modLink_keeps | with_reducible apply State.loseLane_keeps
    | with_reducible apply State.bipError_keeps | split | (intro)

theorem State.agree_keeps {s₀ s : State} {l : Nat} {r : TrainReport} {good : List Nat} (kp : Keeps s₀ s) : Keeps s₀
    (State.agree s l r good) := by
  unfold State.agree
  repeat' first
    | with_reducible exact Keeps.refl _ | with_reducible assumption
    | (extract_lets +onlyGivenNames x; refine Keeps.cut (x := x) ?_ ?_ <;> [subst x; (intro; rename' x => y)])
    | (extract_lets +onlyGivenNames x; subst x; try beta_reduce) | (simp -zeta only [↓Keeps.lit])
    | with_reducible apply State.rset_keeps | with_reducible apply State.fset_keeps | with_reducible apply State.modLink_keeps
    | with_reducible apply State.sendWire_keeps | with_reducible apply Keeps.foldl | split | (intro)

theorem State.activate_keeps {s₀ s : State} {l : Nat} (kp : Keeps s₀ s) : Keeps s₀ (State.activate s l) := by
  unfold State.activate
  repeat' first
    | with_reducible exact Keeps.refl _ | with_reducible assumption
    | (extract_lets +onlyGivenNames x; refine Keeps.cut (x := x) ?_ ?_ <;> [subst x; (intro; rename' x => y)])
    | (extract_lets +onlyGivenNames x; subst x; try beta_reduce) | (simp -zeta only [↓Keeps.lit])
    | with_reducible apply State.fset_keeps | with_reducible apply State.modLink_keeps | (intro)

theorem State.enterTest_keeps {s₀ s : State} {l : Nat} (kp : Keeps s₀ s) : Keeps s₀ (State.enterTest s l) := by
  unfold State.enterTest
  repeat' first
    | with_reducible exact Keeps.refl _ | with_reducible assumption | (simp -zeta only [↓Keeps.lit])
    | with_reducible apply State.rset_keeps | with_reducible apply State.modLink_keeps
    | with_reducible apply State.linkStop_keeps | with_reducible apply Keeps.foldl | (intro)

theorem State.testIfAsked_keeps {s₀ s : State} {l : Nat} (kp : Keeps s₀ s) : Keeps s₀ (State.testIfAsked s l) := by
  unfold State.testIfAsked
  repeat' first
    | with_reducible exact Keeps.refl _ | with_reducible assumption | with_reducible apply State.enterTest_keeps | split

theorem doTrainingSuccess_keeps {l : Fin 12} {r : TrainReport} {s₀ s : State} (kp : Keeps s₀ s) : Keeps s₀ (doTrainingSuccess
    l r s) := by
  unfold doTrainingSuccess
  repeat' first
    | with_reducible exact Keeps.refl _ | with_reducible assumption
    | (extract_lets +onlyGivenNames x; refine Keeps.cut (x := x) ?_ ?_ <;> [subst x; (intro; rename' x => y)])
    | (extract_lets +onlyGivenNames x; subst x; try beta_reduce) | (simp -zeta only [↓Keeps.lit])
    | with_reducible apply State.rset_keeps | with_reducible apply State.chipEvent_keeps
    | with_reducible apply State.modLink_keeps | with_reducible apply State.linkEvt_keeps
    | with_reducible apply State.agree_keeps | with_reducible apply State.activate_keeps
    | with_reducible apply State.testIfAsked_keeps | split | (intro)

theorem doTrainingTimeout_keeps {l : Fin 12} {s₀ s : State} (kp : Keeps s₀ s) : Keeps s₀ (doTrainingTimeout l s) := by
  unfold doTrainingTimeout
  repeat' first
    | with_reducible exact Keeps.refl _ | with_reducible assumption
    | (extract_lets +onlyGivenNames x; refine Keeps.cut (x := x) ?_ ?_ <;> [subst x; (intro; rename' x => y)])
    | (extract_lets +onlyGivenNames x; subst x; try beta_reduce) | (simp -zeta only [↓Keeps.lit])
    | with_reducible apply State.count_keeps | with_reducible apply State.modLink_keeps
    | with_reducible apply State.linkStop_keeps | with_reducible apply State.linkEvt_keeps | split | (intro)

theorem State.train_keeps {s₀ s : State} {l : Nat} (kp : Keeps s₀ s) : Keeps s₀ (State.train s l) := by
  unfold State.train
  repeat' first
    | with_reducible exact Keeps.refl _ | with_reducible assumption
    | (extract_lets +onlyGivenNames x; refine Keeps.cut (x := x) ?_ ?_ <;> [subst x; (intro; rename' x => y)])
    | (extract_lets +onlyGivenNames x; subst x; try beta_reduce) | (simp -zeta only [↓Keeps.lit])
    | with_reducible apply State.rset_keeps | with_reducible apply State.fset_keeps | with_reducible apply State.modLink_keeps
    | with_reducible apply Keeps.foldl | (intro)

theorem doDownWaitExpiry_keeps {l : Fin 12} {beacon : Bool} {s₀ s : State} (kp : Keeps s₀ s) : Keeps s₀ (doDownWaitExpiry l
    beacon s) := by
  unfold doDownWaitExpiry
  repeat' first
    | with_reducible exact Keeps.refl _ | with_reducible assumption | with_reducible apply State.train_keeps | split

theorem doRetrainComplete_keeps {l : Fin 12} {r : TrainReport} {s₀ s : State} (kp : Keeps s₀ s) : Keeps s₀ (doRetrainComplete
    l r s) := by
  unfold doRetrainComplete
  repeat' first
    | with_reducible exact Keeps.refl _ | with_reducible assumption
    | (extract_lets +onlyGivenNames x; refine Keeps.cut (x := x) ?_ ?_ <;> [subst x; (intro; rename' x => y)])
    | (extract_lets +onlyGivenNames x; subst x; try beta_reduce) | with_reducible apply State.chipEvent_keeps
    | with_reducible apply State.sendAck_keeps | with_reducible apply State.fenceLaneDone_keeps
    | with_reducible apply State.ackIn_keeps | with_reducible apply State.replay_keeps
    | with_reducible apply State.goDown_keeps | with_reducible apply State.agree_keeps
    | with_reducible apply State.activate_keeps | with_reducible apply State.testIfAsked_keeps | split

theorem doRetrainTimeout_keeps {l : Fin 12} {noGoodLane : Bool} {s₀ s : State} (kp : Keeps s₀ s) : Keeps s₀ (doRetrainTimeout
    l noGoodLane s) := by
  unfold doRetrainTimeout
  repeat' first
    | with_reducible exact Keeps.refl _ | with_reducible assumption
    | (extract_lets +onlyGivenNames x; refine Keeps.cut (x := x) ?_ ?_ <;> [subst x; (intro; rename' x => y)])
    | (extract_lets +onlyGivenNames x; subst x; try beta_reduce) | with_reducible apply State.goDown_keeps | split

theorem State.answered_keeps {s₀ s : State} {st : BitVec 8} (kp : Keeps s₀ s) : Keeps s₀ (State.answered s st) := by
  unfold State.answered
  repeat' first
    | with_reducible exact Keeps.refl _ | with_reducible assumption | (simp -zeta only [↓Keeps.lit])

theorem State.linkEn_keeps {s₀ s : State} {l : Nat} {en : Bool} (kp : Keeps s₀ s) : Keeps s₀ (State.linkEn s l en) := by
  unfold State.linkEn
  repeat' first
    | with_reducible exact Keeps.refl _ | with_reducible assumption
    | (extract_lets +onlyGivenNames x; refine Keeps.cut (x := x) ?_ ?_ <;> [subst x; (intro; rename' x => y)])
    | (extract_lets +onlyGivenNames x; subst x; try beta_reduce) | with_reducible apply State.setFlag_keeps
    | with_reducible apply State.chipEvent_keeps | with_reducible apply State.linkStop_keeps
    | with_reducible apply State.train_keeps | split

theorem doLinkEnable_keeps {l : Fin 12} {en : Bool} {s₀ s : State} (kp : Keeps s₀ s) : Keeps s₀ (doLinkEnable l en s) := by
  unfold doLinkEnable
  repeat' first
    | with_reducible exact Keeps.refl _ | with_reducible assumption | with_reducible apply State.answered_keeps
    | with_reducible apply State.linkEn_keeps

theorem State.linkTestSet_keeps {s₀ s : State} {l : Nat} {test prbs : Bool} {loopMode : Nat} (kp : Keeps s₀ s) : Keeps s₀
    (State.linkTestSet s l test prbs loopMode) := by
  unfold State.linkTestSet
  repeat' first
    | with_reducible exact Keeps.refl _ | with_reducible assumption
    | (extract_lets +onlyGivenNames x; refine Keeps.cut (x := x) ?_ ?_ <;> [subst x; (intro; rename' x => y)])
    | (extract_lets +onlyGivenNames x; subst x; try beta_reduce) | with_reducible apply State.fset_keeps
    | with_reducible apply State.setFlag_keeps | with_reducible apply State.sendWire_keeps
    | with_reducible apply State.testIfAsked_keeps | with_reducible apply State.train_keeps | split

theorem State.rawBits_keeps {s₀ s : State} {l : Nat} {bits : List (Fin 8 × List Bool)} (kp : Keeps s₀ s) : Keeps s₀
    (State.rawBits s l bits) := by
  unfold State.rawBits
  repeat' first
    | with_reducible exact Keeps.refl _ | with_reducible assumption
    | (extract_lets +onlyGivenNames x; refine Keeps.cut (x := x) ?_ ?_ <;> [subst x; (intro; rename' x => y)])
    | (extract_lets +onlyGivenNames x; subst x; try beta_reduce) | (simp -zeta only [↓Keeps.lit])
    | with_reducible apply State.count_keeps | with_reducible apply State.modLink_keeps
    | with_reducible apply State.sendWire_keeps | with_reducible apply Keeps.foldl | split | (intro)

theorem doLinkTest_keeps {l : Fin 12} {test prbs : Bool} {loopMode : BitVec 3} {arrival : Option (Fin 12)} {received : List
    (Fin 8 × List Bool)} {s₀ s : State} (kp : Keeps s₀ s) : Keeps s₀ (doLinkTest l test prbs loopMode arrival received s) :=
    by
  unfold doLinkTest
  repeat' first
    | with_reducible exact Keeps.refl _ | with_reducible assumption
    | (extract_lets +onlyGivenNames x; refine Keeps.cut (x := x) ?_ ?_ <;> [subst x; (intro; rename' x => y)])
    | (extract_lets +onlyGivenNames x; subst x; try beta_reduce) | with_reducible apply State.answered_keeps
    | with_reducible apply State.linkTestSet_keeps | with_reducible apply State.rawBits_keeps | split

theorem State.linkWmax_keeps {s₀ s : State} {l w : Nat} (kp : Keeps s₀ s) : Keeps s₀ (State.linkWmax s l w) := by
  unfold State.linkWmax
  repeat' first
    | with_reducible exact Keeps.refl _ | with_reducible assumption | with_reducible apply State.fset_keeps
    | with_reducible apply State.enterRetrain_keeps | split

theorem doLinkRetrainRequest_keeps {l : Fin 12} {wmax : Option (BitVec 3)} {s₀ s : State} (kp : Keeps s₀ s) : Keeps s₀
    (doLinkRetrainRequest l wmax s) := by
  unfold doLinkRetrainRequest
  repeat' first
    | with_reducible exact Keeps.refl _ | with_reducible assumption | with_reducible apply State.enterRetrain_keeps
    | with_reducible apply State.answered_keeps | with_reducible apply State.linkWmax_keeps | split

theorem State.unfenceLanes_keeps {s₀ s : State} {l lanes : Nat} (kp : Keeps s₀ s) : Keeps s₀ (State.unfenceLanes s l lanes) :=
    by
  unfold State.unfenceLanes
  repeat' first
    | with_reducible exact Keeps.refl _ | with_reducible assumption
    | (extract_lets +onlyGivenNames x; refine Keeps.cut (x := x) ?_ ?_ <;> [subst x; (intro; rename' x => y)])
    | (extract_lets +onlyGivenNames x; subst x; try beta_reduce) | with_reducible apply State.fset_keeps
    | with_reducible apply State.enterRetrain_keeps | split

theorem doLaneUnfence_keeps {l : Fin 12} {lanes : BitVec 8} {s₀ s : State} (kp : Keeps s₀ s) : Keeps s₀ (doLaneUnfence l lanes
    s) := by
  unfold doLaneUnfence
  repeat' first
    | with_reducible exact Keeps.refl _ | with_reducible assumption | with_reducible apply State.answered_keeps
    | with_reducible apply State.unfenceLanes_keeps

theorem doLaneEqWrite_keeps {l : Fin 12} {lane : Fin 8} {hi : Bool} {v : Word} {s₀ s : State} (kp : Keeps s₀ s) : Keeps s₀
    (doLaneEqWrite l lane hi v s) := by
  unfold doLaneEqWrite
  repeat' first
    | with_reducible exact Keeps.refl _ | with_reducible assumption | with_reducible apply State.rset_keeps
    | with_reducible apply State.answered_keeps | split

theorem doLinkctlReceive_keeps {l : Fin 12} {r : LinkCtlReq} {s₀ s : State} (kp : Keeps s₀ s) : Keeps s₀ (doLinkctlReceive l r
    s) := by
  unfold doLinkctlReceive
  repeat' first
    | with_reducible exact Keeps.refl _ | with_reducible assumption
    | (extract_lets +onlyGivenNames x; refine Keeps.cut (x := x) ?_ ?_ <;> [subst x; (intro; rename' x => y)])
    | (extract_lets +onlyGivenNames x; subst x; try beta_reduce) | (simp -zeta only [↓Keeps.lit])
    | with_reducible apply State.setFlag_keeps | with_reducible apply State.count_keeps
    | with_reducible apply State.modLink_keeps | with_reducible apply State.sendWire_keeps
    | with_reducible apply State.enterRetrain_keeps | split | (intro)

theorem doNakReceive_keeps {l : Fin 12} {ack : BitVec 12} {s₀ s : State} (kp : Keeps s₀ s) : Keeps s₀ (doNakReceive l ack s)
    := by
  unfold doNakReceive
  repeat' first
    | with_reducible exact Keeps.refl _ | with_reducible assumption | with_reducible apply State.ackIn_keeps
    | with_reducible apply State.replay_keeps | split

theorem doAckTimer_keeps {l : Fin 12} {s₀ s : State} (kp : Keeps s₀ s) : Keeps s₀ (doAckTimer l s) := by
  unfold doAckTimer
  repeat' first
    | with_reducible exact Keeps.refl _ | with_reducible assumption | with_reducible apply State.sendAck_keeps | split

theorem State.eventOut_keeps {s₀ s : State} {l ev origin : Nat} (kp : Keeps s₀ s) : Keeps s₀ (State.eventOut s l ev origin) :=
    by
  unfold State.eventOut
  repeat' first
    | with_reducible exact Keeps.refl _ | with_reducible assumption
    | (extract_lets +onlyGivenNames x; refine Keeps.cut (x := x) ?_ ?_ <;> [subst x; (intro; rename' x => y)])
    | (extract_lets +onlyGivenNames x; subst x; try beta_reduce) | (simp -zeta only [↓Keeps.lit])
    | with_reducible apply State.count_keeps | with_reducible apply State.modLink_keeps | split | (intro)

theorem State.linkEvent_keeps {s₀ s : State} {ev : Nat} {i : Int} (kp : Keeps s₀ s) : Keeps s₀ (State.linkEvent s ev i) := by
  unfold State.linkEvent
  repeat' first
    | with_reducible exact Keeps.refl _ | with_reducible assumption | with_reducible apply State.registerEvent_keeps
    | with_reducible apply Keeps.foldl | (intro)

theorem doEventMessageReceive_keeps {l : Fin 12} {copies : List (BitVec 64)} {arrival : Nat} {s₀ s : State} (kp : Keeps s₀ s)
    : Keeps s₀ (doEventMessageReceive l copies arrival s) := by
  unfold doEventMessageReceive
  repeat' first
    | with_reducible exact Keeps.refl _ | with_reducible assumption
    | (extract_lets +onlyGivenNames x; refine Keeps.cut (x := x) ?_ ?_ <;> [subst x; (intro; rename' x => y)])
    | (extract_lets +onlyGivenNames x; subst x; try beta_reduce) | with_reducible apply State.count_keeps
    | with_reducible apply State.eventOut_keeps | with_reducible apply State.linkEvent_keeps
    | with_reducible apply Keeps.foldl | split | (intro)

theorem State.linkevSend_keeps {s₀ s : State} {v : Word} (kp : Keeps s₀ s) : Keeps s₀ (State.linkevSend s v) := by
  unfold State.linkevSend
  repeat' first
    | with_reducible exact Keeps.refl _ | with_reducible assumption
    | (extract_lets +onlyGivenNames x; refine Keeps.cut (x := x) ?_ ?_ <;> [subst x; (intro; rename' x => y)])
    | (extract_lets +onlyGivenNames x; subst x; try beta_reduce) | with_reducible apply State.eventOut_keeps
    | with_reducible apply State.linkEvent_keeps | with_reducible apply Keeps.foldl | split | (intro)

theorem doLinkevSend_keeps {v : Word} {s₀ s : State} (kp : Keeps s₀ s) : Keeps s₀ (doLinkevSend v s) := by
  unfold doLinkevSend
  repeat' first
    | with_reducible exact Keeps.refl _ | with_reducible assumption | with_reducible apply State.answered_keeps
    | with_reducible apply State.linkevSend_keeps

theorem doChipIdWrite_keeps {id : BitVec 14} {s₀ s : State} (kp : Keeps s₀ s) : Keeps s₀ (doChipIdWrite id s) := by
  unfold doChipIdWrite
  repeat' first
    | with_reducible exact Keeps.refl _ | with_reducible assumption | with_reducible apply State.fset_keeps
    | with_reducible apply State.answered_keeps

theorem doCreditEvent_keeps {session : BitVec 5} {s₀ s : State} (kp : Keeps s₀ s) : Keeps s₀ (doCreditEvent session s) := by
  unfold doCreditEvent
  repeat' first
    | with_reducible exact Keeps.refl _ | with_reducible assumption
    | (extract_lets +onlyGivenNames x; refine Keeps.cut (x := x) ?_ ?_ <;> [subst x; (intro; rename' x => y)])
    | (extract_lets +onlyGivenNames x; subst x; try beta_reduce) | with_reducible apply State.eventTo_keeps | split

theorem State.sendTimeout_keeps {s₀ s : State} {l : Nat} (kp : Keeps s₀ s) : Keeps s₀ (State.sendTimeout s l) := by
  unfold State.sendTimeout
  repeat' first
    | with_reducible exact Keeps.refl _ | with_reducible assumption
    | (extract_lets +onlyGivenNames x; refine Keeps.cut (x := x) ?_ ?_ <;> [subst x; (intro; rename' x => y)])
    | (extract_lets +onlyGivenNames x; subst x; try beta_reduce) | (simp -zeta only [↓Keeps.lit])
    | with_reducible apply State.fset_keeps | with_reducible apply State.count_keeps | with_reducible apply State.modCtx_keeps
    | with_reducible apply State.eventsLost_keeps | with_reducible apply State.flushQueue_keeps
    | with_reducible apply State.discard_keeps | with_reducible apply Keeps.foldl | split | (intro)

theorem doPacketSendTimeout_keeps {l : Option (Fin 12)} {s₀ s : State} (kp : Keeps s₀ s) : Keeps s₀ (doPacketSendTimeout l s)
    := by
  unfold doPacketSendTimeout
  repeat' first
    | with_reducible exact Keeps.refl _ | with_reducible assumption | with_reducible apply State.sendTimeout_keeps | split

theorem State.openSession_keeps {s₀ s : State} {q : Req} {n priv win : Nat} {ticket : List Byte} (kp : Keeps s₀ s) : Keeps s₀
    (State.openSession s q n priv win ticket) := by
  unfold State.openSession
  repeat' first
    | with_reducible exact Keeps.refl _ | with_reducible assumption
    | (extract_lets +onlyGivenNames x; refine Keeps.cut (x := x) ?_ ?_ <;> [subst x; (intro; rename' x => y)])
    | (extract_lets +onlyGivenNames x; subst x; try beta_reduce) | (simp -zeta only [↓Keeps.lit])
    | with_reducible apply State.rset_keeps | with_reducible apply State.fset_keeps | with_reducible apply State.setCtx_keeps
    | with_reducible apply State.reply_keeps

theorem doHello_keeps {q : Req} {s₀ s : State} (kp : Keeps s₀ s) : Keeps s₀ (doHello q s) := by
  unfold doHello
  repeat' first
    | with_reducible exact Keeps.refl _ | with_reducible assumption
    | (extract_lets +onlyGivenNames x; refine Keeps.cut (x := x) ?_ ?_ <;> [subst x; (intro; rename' x => y)])
    | (extract_lets +onlyGivenNames x; subst x; try beta_reduce) | with_reducible apply State.fail_keeps
    | with_reducible apply State.request_keeps | with_reducible apply State.openSession_keeps | split | (intro)

theorem State.closeSession_keeps {s₀ s : State} {n : Nat} (kp : Keeps s₀ s) : Keeps s₀ (State.closeSession s n) := by
  unfold State.closeSession
  repeat' first
    | with_reducible exact Keeps.refl _ | with_reducible assumption
    | (extract_lets +onlyGivenNames x; refine Keeps.cut (x := x) ?_ ?_ <;> [subst x; (intro; rename' x => y)])
    | (extract_lets +onlyGivenNames x; subst x; try beta_reduce) | (simp -zeta only [↓Keeps.lit])
    | with_reducible apply State.rset_keeps | with_reducible apply State.fset_keeps | with_reducible apply State.setCtx_keeps
    | with_reducible apply State.setStrm_keeps | with_reducible apply State.stagingDrop_keeps
    | with_reducible apply Keeps.foldl | split | (intro)

theorem State.abortWaiting_keeps {s₀ s : State} {n : Nat} {l : List (BitVec 8 × Req)} (kp : Keeps s₀ s) : Keeps s₀
    (State.abortWaiting s n l) := by
  unfold State.abortWaiting
  repeat' first
    | with_reducible exact Keeps.refl _ | with_reducible assumption
    | (extract_lets +onlyGivenNames x; refine Keeps.cut (x := x) ?_ ?_ <;> [subst x; (intro; rename' x => y)])
    | (extract_lets +onlyGivenNames x; subst x; try beta_reduce) | (simp -zeta only [↓Keeps.lit])
    | with_reducible apply State.reply_keeps | with_reducible apply State.request_keeps
    | with_reducible apply State.taken_keeps | with_reducible apply Keeps.foldl | split | (intro)

theorem State.bye_keeps {s₀ s : State} {q : Req} {early : List (BitVec 8 × Req)} (kp : Keeps s₀ s) : Keeps s₀ (State.bye s q
    early) := by
  unfold State.bye
  repeat' first
    | with_reducible exact Keeps.refl _ | with_reducible assumption | with_reducible apply State.reply_keeps
    | with_reducible apply State.request_keeps | with_reducible apply State.closeSession_keeps
    | with_reducible apply State.abortWaiting_keeps | (intro)

theorem doBye_keeps {q : Req} {s₀ s : State} (kp : Keeps s₀ s) : Keeps s₀ (doBye q s) := by
  unfold doBye
  repeat' first
    | with_reducible exact Keeps.refl _ | with_reducible assumption | with_reducible apply State.bye_keeps

theorem doSessionTimeout_keeps {session : BitVec 5} {s₀ s : State} (kp : Keeps s₀ s) : Keeps s₀ (doSessionTimeout session s)
    := by
  unfold doSessionTimeout
  repeat' first
    | with_reducible exact Keeps.refl _ | with_reducible assumption
    | (extract_lets +onlyGivenNames x; refine Keeps.cut (x := x) ?_ ?_ <;> [subst x; (intro; rename' x => y)])
    | (extract_lets +onlyGivenNames x; subst x; try beta_reduce) | with_reducible apply State.closeSession_keeps
    | with_reducible apply State.abortWaiting_keeps | split

theorem doPing_keeps {q : Req} {s₀ s : State} (kp : Keeps s₀ s) : Keeps s₀ (doPing q s) := by
  unfold doPing
  repeat' first
    | with_reducible exact Keeps.refl _ | with_reducible assumption | with_reducible apply State.reply_keeps
    | with_reducible apply State.request_keeps | (intro)

theorem State.deliver_keeps {s₀ s : State} {op : BitVec 8} {q : Req} (kp : Keeps s₀ s) : Keeps s₀ (State.deliver s op q) := by
  unfold State.deliver
  repeat' first
    | with_reducible exact Keeps.refl _ | with_reducible assumption
    | (extract_lets +onlyGivenNames x; refine Keeps.cut (x := x) ?_ ?_ <;> [subst x; (intro; rename' x => y)])
    | (extract_lets +onlyGivenNames x; subst x; try beta_reduce) | (simp -zeta only [↓Keeps.lit])
    | with_reducible apply State.fset_keeps | with_reducible apply State.setFlag_keeps
    | with_reducible apply State.count_keeps | with_reducible apply State.evCount_keeps
    | with_reducible apply State.request_keeps | with_reducible apply State.newId_keeps
    | (refine State.newId_keepsEq (by with_reducible assumption) ?_) | with_reducible apply State.freeCells_keeps
    | with_reducible apply State.discard_keeps | split | (intro)

theorem State.cellsWait_keeps {s₀ s : State} {q : Req} {before new : Nat} (kp : Keeps s₀ s) : Keeps s₀ (State.cellsWait s q
    before new) := by
  unfold State.cellsWait
  repeat' first
    | with_reducible exact Keeps.refl _ | with_reducible assumption
    | (extract_lets +onlyGivenNames x; refine Keeps.cut (x := x) ?_ ?_ <;> [subst x; (intro; rename' x => y)])
    | (extract_lets +onlyGivenNames x; subst x; try beta_reduce) | (simp -zeta only [↓Keeps.lit])
    | with_reducible apply State.fset_keeps | with_reducible apply State.setFlag_keeps
    | with_reducible apply State.request_keeps | with_reducible apply State.freeCells_keeps | split | (intro)

theorem State.cellsIn_keeps {s₀ s : State} {q : Req} {got : List Byte} {before : Nat} {final : Bool} (kp : Keeps s₀ s) : Keeps
    s₀ (State.cellsIn s q got before final) := by
  unfold State.cellsIn
  repeat' first
    | with_reducible exact Keeps.refl _ | with_reducible assumption
    | (extract_lets +onlyGivenNames x; refine Keeps.cut (x := x) ?_ ?_ <;> [subst x; (intro; rename' x => y)])
    | (extract_lets +onlyGivenNames x; subst x; try beta_reduce) | with_reducible apply State.setFlag_keeps
    | with_reducible apply State.freeCells_keeps | with_reducible apply State.writeEnd_keeps
    | with_reducible apply State.writeOn_keeps | (refine State.writeOn_keepsEq (by with_reducible assumption) ?_)
    | with_reducible apply State.cellsWait_keeps | split | (intro)

theorem State.cellsEnd_keeps {s₀ s : State} {q : Req} (kp : Keeps s₀ s) : Keeps s₀ (State.cellsEnd s q) := by
  unfold State.cellsEnd
  repeat' first
    | with_reducible exact Keeps.refl _ | with_reducible assumption | (simp -zeta only [↓Keeps.lit])
    | with_reducible apply State.request_keeps | with_reducible apply State.writeEnd_keeps | split | (intro)

theorem State.beginStrm_keeps {s₀ s : State} {l : Nat} {b : List Byte} {p : RxPkt} (kp : Keeps s₀ s) : Keeps s₀
    (State.beginStrm s l b p).1 := by
  unfold State.beginStrm
  repeat' first
    | with_reducible exact Keeps.refl _ | with_reducible assumption
    | (extract_lets +onlyGivenNames x; refine Keeps.cut (x := x) ?_ ?_ <;> [subst x; (intro; rename' x => y)])
    | (extract_lets +onlyGivenNames x; subst x; try beta_reduce) | (simp -zeta only [↓Keeps.lit])
    | with_reducible apply State.evCount_keeps | with_reducible apply State.drop_keeps | split | (intro)

theorem State.beginStrm_keepsEq {s₀ s : State} {l : Nat} {b : List Byte} {p : RxPkt} {r2 : RxPkt} {t_ : State} (h :
    State.beginStrm s l b p = (t_, r2)) (kp : Keeps s₀ s) : Keeps s₀ t_ := by
  have k := State.beginStrm_keeps (s₀ := s₀) (s := s) (l := l) (b := b) (p := p) kp
  rwa [h] at k

theorem State.beginPkt_keeps {s₀ s : State} {l cls : Nat} {b : List Byte} (kp : Keeps s₀ s) : Keeps s₀ (State.beginPkt s l cls
    b).1 := by
  unfold State.beginPkt
  repeat' first
    | with_reducible exact Keeps.refl _ | with_reducible assumption
    | (extract_lets +onlyGivenNames x; refine Keeps.cut (x := x) ?_ ?_ <;> [subst x; (intro; rename' x => y)])
    | (extract_lets +onlyGivenNames x; subst x; try beta_reduce) | (simp -zeta only [↓Keeps.lit])
    | with_reducible apply State.count_keeps | with_reducible apply State.newId_keeps
    | (refine State.newId_keepsEq (by with_reducible assumption) ?_) | with_reducible apply State.discard_keeps
    | with_reducible apply State.beginStrm_keeps | (refine State.beginStrm_keepsEq (by with_reducible assumption) ?_) | split

theorem State.beginPkt_keepsEq {s₀ s : State} {l cls : Nat} {b : List Byte} {r2 : RxPkt} {t_ : State} (h : State.beginPkt s l
    cls b = (t_, r2)) (kp : Keeps s₀ s) : Keeps s₀ t_ := by
  have k := State.beginPkt_keeps (s₀ := s₀) (s := s) (l := l) (cls := cls) (b := b) kp
  rwa [h] at k

theorem State.noRoute_keeps {s₀ s : State} {q : Req} {op : BitVec 8} {dest : Nat} (kp : Keeps s₀ s) : Keeps s₀ (State.noRoute
    s q op dest) := by
  unfold State.noRoute
  repeat' first
    | with_reducible exact Keeps.refl _ | with_reducible assumption
    | (extract_lets +onlyGivenNames x; refine Keeps.cut (x := x) ?_ ?_ <;> [subst x; (intro; rename' x => y)])
    | (extract_lets +onlyGivenNames x; subst x; try beta_reduce) | (simp -zeta only [↓Keeps.lit])
    | with_reducible apply State.fset_keeps | with_reducible apply State.count_keeps | with_reducible apply State.send_keeps

theorem State.endPkt_keeps {s₀ s : State} {l : Fin 12} {cls : Nat} {p : RxPkt} {v : Verdict} (kp : Keeps s₀ s) : Keeps s₀
    (State.endPkt s l cls p v) := by
  unfold State.endPkt
  repeat' first
    | with_reducible exact Keeps.refl _ | with_reducible assumption
    | (extract_lets +onlyGivenNames x; refine Keeps.cut (x := x) ?_ ?_ <;> [subst x; (intro; rename' x => y)])
    | (extract_lets +onlyGivenNames x; subst x; try beta_reduce) | (simp -zeta only [↓Keeps.lit])
    | with_reducible apply State.count_keeps | with_reducible apply State.oweTo_keeps
    | with_reducible apply State.discard_keeps | with_reducible apply State.strmArrive_keeps
    | with_reducible apply State.deliver_keeps | with_reducible apply State.noRoute_keeps | split

theorem State.countCells_keeps {s₀ s : State} {p : RxPkt} {cls : Nat} (kp : Keeps s₀ s) : Keeps s₀ (State.countCells s p
    cls).1 := by
  unfold State.countCells
  repeat' first
    | with_reducible exact Keeps.refl _ | with_reducible assumption
    | (extract_lets +onlyGivenNames x; refine Keeps.cut (x := x) ?_ ?_ <;> [subst x; (intro; rename' x => y)])
    | (extract_lets +onlyGivenNames x; subst x; try beta_reduce) | (simp -zeta only [↓Keeps.lit])
    | with_reducible apply State.fset_keeps | split

theorem State.countCells_keepsEq {s₀ s : State} {p : RxPkt} {cls : Nat} {r2 : RxPkt} {t_ : State} (h : State.countCells s p
    cls = (t_, r2)) (kp : Keeps s₀ s) : Keeps s₀ t_ := by
  have k := State.countCells_keeps (s₀ := s₀) (s := s) (p := p) (cls := cls) kp
  rwa [h] at k

theorem State.streamOn_keeps {s₀ s : State} {l : Fin 12} {cls : Nat} {old p : RxPkt} {f : Frame} (kp : Keeps s₀ s) : Keeps s₀
    (State.streamOn s l cls old p f) := by
  unfold State.streamOn
  repeat' first
    | with_reducible exact Keeps.refl _ | with_reducible assumption
    | (extract_lets +onlyGivenNames x; refine Keeps.cut (x := x) ?_ ?_ <;> [subst x; (intro; rename' x => y)])
    | (extract_lets +onlyGivenNames x; subst x; try beta_reduce) | (simp -zeta only [↓Keeps.lit])
    | with_reducible apply State.drop_keeps | with_reducible apply State.modLink_keeps
    | with_reducible apply State.writeLost_keeps | with_reducible apply State.deliver_keeps
    | with_reducible apply State.cellsIn_keeps | with_reducible apply State.cellsEnd_keeps | split | (intro)

theorem State.strmStomped_keeps {s₀ s : State} {l : Fin 12} {p : RxPkt} (kp : Keeps s₀ s) : Keeps s₀ (State.strmStomped s l p)
    := by
  unfold State.strmStomped
  repeat' first
    | with_reducible exact Keeps.refl _ | with_reducible assumption | with_reducible apply State.oweTo_keeps
    | with_reducible apply State.strmArrive_keeps | split

theorem State.packetAt_keeps {s₀ s : State} {l cls : Nat} {f : Frame} {old : RxPkt} (kp : Keeps s₀ s) : Keeps s₀
    (State.packetAt s l cls f old).1 := by
  unfold State.packetAt
  repeat' first
    | with_reducible exact Keeps.refl _ | with_reducible assumption | with_reducible apply State.beginPkt_keeps
    | (refine State.beginPkt_keepsEq (by with_reducible assumption) ?_) | split

theorem State.packetAt_keepsEq {s₀ s : State} {l cls : Nat} {f : Frame} {old : RxPkt} {r2 : RxPkt} {t_ : State} (h :
    State.packetAt s l cls f old = (t_, r2)) (kp : Keeps s₀ s) : Keeps s₀ t_ := by
  have k := State.packetAt_keeps (s₀ := s₀) (s := s) (l := l) (cls := cls) (f := f) (old := old) kp
  rwa [h] at k

theorem State.acceptFrame_keeps {s₀ s : State} {l : Fin 12} {f : Frame} (kp : Keeps s₀ s) : Keeps s₀ (State.acceptFrame s l f)
    := by
  unfold State.acceptFrame
  repeat' first
    | with_reducible exact Keeps.refl _ | with_reducible assumption
    | (extract_lets +onlyGivenNames x; refine Keeps.cut (x := x) ?_ ?_ <;> [subst x; (intro; rename' x => y)])
    | (extract_lets +onlyGivenNames x; subst x; try beta_reduce) | (simp -zeta only [↓Keeps.lit])
    | with_reducible apply State.modLink_keeps | with_reducible apply State.oweTo_keeps
    | with_reducible apply State.frameOut_keeps | with_reducible apply State.uncount_keeps
    | with_reducible apply State.cellsBack_keeps | with_reducible apply State.endPkt_keeps
    | with_reducible apply State.countCells_keeps | (refine State.countCells_keepsEq (by with_reducible assumption) ?_)
    | with_reducible apply State.streamOn_keeps | with_reducible apply State.strmStomped_keeps
    | with_reducible apply State.packetAt_keeps | (refine State.packetAt_keepsEq (by with_reducible assumption) ?_) | split
    | (intro)

theorem State.creditIn_keeps {s₀ s : State} {l : Nat} {f : Frame} (kp : Keeps s₀ s) : Keeps s₀ (State.creditIn s l f) := by
  unfold State.creditIn
  repeat' first
    | with_reducible exact Keeps.refl _ | with_reducible assumption
    | (extract_lets +onlyGivenNames x; refine Keeps.cut (x := x) ?_ ?_ <;> [subst x; (intro; rename' x => y)])
    | (extract_lets +onlyGivenNames x; subst x; try beta_reduce) | with_reducible apply State.fset_keeps

theorem doFrameReceive_keeps {l : Fin 12} {f : Frame} {s₀ s : State} (kp : Keeps s₀ s) : Keeps s₀ (doFrameReceive l f s) := by
  unfold doFrameReceive
  repeat' first
    | with_reducible exact Keeps.refl _ | with_reducible assumption
    | (extract_lets +onlyGivenNames x; refine Keeps.cut (x := x) ?_ ?_ <;> [subst x; (intro; rename' x => y)])
    | (extract_lets +onlyGivenNames x; subst x; try beta_reduce) | (simp -zeta only [↓Keeps.lit])
    | with_reducible apply State.count_keeps | with_reducible apply State.evCount_keeps
    | with_reducible apply State.modLink_keeps | with_reducible apply State.sendWire_keeps
    | with_reducible apply State.sendAck_keeps | with_reducible apply State.ackIn_keeps
    | with_reducible apply State.replay_keeps | with_reducible apply State.acceptFrame_keeps
    | with_reducible apply State.creditIn_keeps | split | (intro)

theorem State.idleEdge_keeps {s₀ s : State} (kp : Keeps s₀ s) : Keeps s₀ (State.idleEdge s) := by
  unfold State.idleEdge
  repeat' first
    | with_reducible exact Keeps.refl _ | with_reducible assumption | with_reducible apply State.linkEdges_keeps
    | with_reducible apply State.strmPump_keeps

theorem doStepArm_keeps {q : Req} {s₀ s : State} (kp : Keeps s₀ s) : Keeps s₀ (doStepArm q s) := by
  unfold doStepArm
  repeat' first
    | with_reducible exact Keeps.refl _ | with_reducible assumption
    | (extract_lets +onlyGivenNames x; refine Keeps.cut (x := x) ?_ ?_ <;> [subst x; (intro; rename' x => y)])
    | (extract_lets +onlyGivenNames x; subst x; try beta_reduce) | with_reducible apply State.fail_keeps
    | with_reducible apply State.start_keeps | with_reducible apply State.request_keeps
    | with_reducible apply State.armForce_keeps | with_reducible apply State.armChecks_keeps
    | (refine State.armChecks_keepsEq (by with_reducible assumption) ?_) | with_reducible apply State.wakeEngine_keeps | split
    | (intro)

theorem State.forcedEnd_keeps {s₀ s : State} {ch : Nat} {v : Option Int} (kp : Keeps s₀ s) : Keeps s₀ (State.forcedEnd s ch v)
    := by
  unfold State.forcedEnd
  repeat' first
    | with_reducible exact Keeps.refl _ | with_reducible assumption
    | (extract_lets +onlyGivenNames x; refine Keeps.cut (x := x) ?_ ?_ <;> [subst x; (intro; rename' x => y)])
    | (extract_lets +onlyGivenNames x; subst x; try beta_reduce) | (simp -zeta only [↓Keeps.lit])
    | with_reducible apply State.setFlag_keeps | with_reducible apply State.setChan_keeps
    | with_reducible apply State.setKnown_keeps | with_reducible apply State.resolve_keeps
    | (refine State.resolve_keepsEq (by with_reducible assumption) ?_) | split

theorem State.armFail_keeps {s₀ s : State} {x : Split} {l : List Nat} {st : BitVec 8} {t : Nat} (kp : Keeps s₀ s) : Keeps s₀
    (State.armFail s x l st t) := by
  unfold State.armFail
  repeat' first
    | with_reducible exact Keeps.refl _ | with_reducible assumption | with_reducible apply State.complete_keeps
    | with_reducible apply State.boundary_keeps | with_reducible apply Keeps.foldl | (intro)

theorem doStepArmSettled_keeps {o : OpRef} {volts : List (Fin 1024 × Int)} {s₀ s : State} (kp : Keeps s₀ s) : Keeps s₀
    (doStepArmSettled o volts s) := by
  unfold doStepArmSettled
  repeat' first
    | with_reducible exact Keeps.refl _ | with_reducible assumption
    | (extract_lets +onlyGivenNames x; refine Keeps.cut (x := x) ?_ ?_ <;> [subst x; (intro; rename' x => y)])
    | (extract_lets +onlyGivenNames x; subst x; try beta_reduce) | with_reducible apply State.complete_keeps
    | with_reducible apply State.armTiles_keeps | with_reducible apply State.forcedEnd_keeps
    | with_reducible apply State.armFail_keeps | with_reducible apply Keeps.foldl | split | (intro)

theorem State.schedule_keeps {s₀ s : State} {t g : Nat} {asked at_ : Int} (kp : Keeps s₀ s) : Keeps s₀ (State.schedule s t g
    asked at_) := by
  unfold State.schedule
  repeat' first
    | with_reducible exact Keeps.refl _ | with_reducible assumption
    | (extract_lets +onlyGivenNames x; refine Keeps.cut (x := x) ?_ ?_ <;> [subst x; (intro; rename' x => y)])
    | (extract_lets +onlyGivenNames x; subst x; try beta_reduce) | (simp -zeta only [↓Keeps.lit])
    | with_reducible apply State.fset_keeps | with_reducible apply State.modTile_keeps
    | with_reducible apply State.segSync_keeps | (intro)

theorem doStepStart_keeps {q : Req} {s₀ s : State} (kp : Keeps s₀ s) : Keeps s₀ (doStepStart q s) := by
  unfold doStepStart
  repeat' first
    | with_reducible exact Keeps.refl _ | with_reducible assumption
    | (extract_lets +onlyGivenNames x; refine Keeps.cut (x := x) ?_ ?_ <;> [subst x; (intro; rename' x => y)])
    | (extract_lets +onlyGivenNames x; subst x; try beta_reduce) | (simp -zeta only [↓Keeps.lit])
    | with_reducible apply State.fail_keeps | with_reducible apply State.start_keeps
    | with_reducible apply State.request_keeps | with_reducible apply State.groupCheck_keeps
    | with_reducible apply State.schedule_keeps | with_reducible apply Keeps.foldl | split | (intro)

theorem State.heldStart_keeps {s₀ s : State} {g : Nat} (kp : Keeps s₀ s) : Keeps s₀ (State.heldStart s g) := by
  unfold State.heldStart
  repeat' first
    | with_reducible exact Keeps.refl _ | with_reducible assumption
    | (extract_lets +onlyGivenNames x; refine Keeps.cut (x := x) ?_ ?_ <;> [subst x; (intro; rename' x => y)])
    | (extract_lets +onlyGivenNames x; subst x; try beta_reduce) | (simp -zeta only [↓Keeps.lit])
    | with_reducible apply State.fset_keeps | with_reducible apply State.modTile_keeps
    | with_reducible apply State.complete_keeps | with_reducible apply State.segSync_keeps
    | with_reducible apply State.freeTime_keeps | (refine State.freeTime_keepsEq (by with_reducible assumption) ?_)
    | with_reducible apply Keeps.foldl | split | (intro)

theorem doStepStartGridPoint_keeps {t : Fin 64} {s₀ s : State} (kp : Keeps s₀ s) : Keeps s₀ (doStepStartGridPoint t s) := by
  unfold doStepStartGridPoint
  repeat' first
    | with_reducible exact Keeps.refl _ | with_reducible assumption
    | (extract_lets +onlyGivenNames x; refine Keeps.cut (x := x) ?_ ?_ <;> [subst x; (intro; rename' x => y)])
    | (extract_lets +onlyGivenNames x; subst x; try beta_reduce) | (simp -zeta only [↓Keeps.lit])
    | with_reducible apply State.fset_keeps | with_reducible apply State.modTile_keeps
    | with_reducible apply State.suspectFlag_keeps | with_reducible apply State.putAnchor_keeps
    | with_reducible apply State.maskStart_keeps | with_reducible apply State.segSync_keeps
    | with_reducible apply State.heldStart_keeps | split | (intro)

theorem doStepStatus_keeps {q : Req} {s₀ s : State} (kp : Keeps s₀ s) : Keeps s₀ (doStepStatus q s) := by
  unfold doStepStatus
  repeat' first
    | with_reducible exact Keeps.refl _ | with_reducible assumption | with_reducible apply State.reply_keeps
    | with_reducible apply State.request_keeps | (intro)

theorem State.abortSplit_keeps {s₀ s : State} {x : Split} (kp : Keeps s₀ s) : Keeps s₀ (State.abortSplit s x) := by
  unfold State.abortSplit
  repeat' first
    | with_reducible exact Keeps.refl _ | with_reducible assumption | with_reducible apply State.abortStep_keeps
    | with_reducible apply State.cancelSplit_keeps | with_reducible apply Keeps.foldl | split | (intro)

theorem State.abortOp_keepsEq {s₀ s t : State} {n : Nat} {tag : BitVec 16} (h : State.abortOp s n tag = some t)
    (kp : Keeps s₀ s) : Keeps s₀ t := by
  unfold State.abortOp at h
  repeat' split at h
  all_goals first
    | cases h; done
    | (cases h; exact State.abortSplit_keeps kp)
    | (cases h; exact State.writeEnd_keeps kp)
    | (cases h; exact State.abortWaiting_keeps kp)
    | (cases h; exact State.reply_keeps (kp.trans (.upd rfl rfl rfl)))

theorem doAbort_keeps {q : Req} {s₀ s : State} (kp : Keeps s₀ s) : Keeps s₀ (doAbort q s) := by
  unfold doAbort
  repeat' first
    | with_reducible exact Keeps.refl _ | with_reducible assumption
    | (extract_lets +onlyGivenNames x; refine Keeps.cut (x := x) ?_ ?_ <;> [subst x; (intro; rename' x => y)])
    | (extract_lets +onlyGivenNames x; subst x; try beta_reduce) | with_reducible apply State.reply_keeps
    | with_reducible apply State.fail_keeps | with_reducible apply State.request_keeps
    | with_reducible apply State.abortStep_keeps | (refine State.abortOp_keepsEq (by with_reducible assumption) ?_)
    | with_reducible apply Keeps.foldl | split | (intro)

theorem doEventWait_keeps {q : Req} {s₀ s : State} (kp : Keeps s₀ s) : Keeps s₀ (doEventWait q s) := by
  unfold doEventWait
  repeat' first
    | with_reducible exact Keeps.refl _ | with_reducible assumption | with_reducible apply State.fail_keeps
    | with_reducible apply State.start_keeps | with_reducible apply State.request_keeps | split | (intro)

theorem doEventWaitDone_keeps {o : OpRef} {timeout : Bool} {s₀ s : State} (kp : Keeps s₀ s) : Keeps s₀ (doEventWaitDone o
    timeout s) := by
  unfold doEventWaitDone
  repeat' first
    | with_reducible exact Keeps.refl _ | with_reducible assumption | with_reducible apply State.complete_keeps | split
    | (intro)

theorem State.freshStart_keeps {s₀ s : State} {t : Nat} (kp : Keeps s₀ s) : Keeps s₀ (State.freshStart s t) := by
  unfold State.freshStart
  repeat' first
    | with_reducible exact Keeps.refl _ | with_reducible assumption
    | (extract_lets +onlyGivenNames x; refine Keeps.cut (x := x) ?_ ?_ <;> [subst x; (intro; rename' x => y)])
    | (extract_lets +onlyGivenNames x; subst x; try beta_reduce) | (simp -zeta only [↓Keeps.lit])
    | with_reducible apply State.modTile_keeps | (intro)

theorem State.goto_keeps {s₀ s : State} {t a : Nat} (kp : Keeps s₀ s) : Keeps s₀ (State.goto s t a) := by
  unfold State.goto
  repeat' first
    | with_reducible exact Keeps.refl _ | with_reducible assumption | with_reducible apply State.fset_keeps

theorem State.seqNext_keeps {s₀ s : State} {t : Nat} (kp : Keeps s₀ s) : Keeps s₀ (State.seqNext s t) := by
  unfold State.seqNext
  repeat' first
    | with_reducible exact Keeps.refl _ | with_reducible assumption | with_reducible apply State.goto_keeps

theorem State.turnTo_keeps {s₀ s : State} {t : Nat} {g : Option Nat} (kp : Keeps s₀ s) : Keeps s₀ (State.turnTo s t g) := by
  unfold State.turnTo
  repeat' first
    | with_reducible exact Keeps.refl _ | with_reducible assumption | (simp -zeta only [↓Keeps.lit])
    | with_reducible apply State.modTile_keeps | split | (intro)

theorem State.takeTurn_keeps {s₀ s : State} {t : Nat} (kp : Keeps s₀ s) : Keeps s₀ (State.takeTurn s t) := by
  unfold State.takeTurn
  repeat' first
    | with_reducible exact Keeps.refl _ | with_reducible assumption | (simp -zeta only [↓Keeps.lit])
    | with_reducible apply State.modTile_keeps | with_reducible apply State.segSync_keeps | split | (intro)

theorem State.jump_keeps {s₀ s : State} {t a : Nat} (kp : Keeps s₀ s) : Keeps s₀ (State.jump s t a) := by
  unfold State.jump
  repeat' first
    | with_reducible exact Keeps.refl _ | with_reducible assumption | (simp -zeta only [↓Keeps.lit])
    | with_reducible apply State.modTile_keeps | with_reducible apply State.segSync_keeps
    | with_reducible apply State.boundary_keeps | with_reducible apply State.goto_keeps
    | with_reducible apply State.turnTo_keeps | (intro)

theorem State.apgStep_keeps {s₀ s : State} {t : Nat} {op : BitVec 16} (kp : Keeps s₀ s) : Keeps s₀ (State.apgStep s t op) :=
    by
  unfold State.apgStep
  repeat' first
    | with_reducible exact Keeps.refl _ | with_reducible assumption
    | (extract_lets +onlyGivenNames x; refine Keeps.cut (x := x) ?_ ?_ <;> [subst x; (intro; rename' x => y)])
    | (extract_lets +onlyGivenNames x; subst x; try beta_reduce) | (simp -zeta only [↓Keeps.lit])
    | with_reducible apply State.modTile_keeps | with_reducible apply State.showApg_keeps | split | (intro)

theorem State.zeroCycle_keeps {s₀ s : State} {t : Nat} {i : SeqInstr} (kp : Keeps s₀ s) : Keeps s₀ (State.zeroCycle s t i) :=
    by
  unfold State.zeroCycle
  repeat' first
    | with_reducible exact Keeps.refl _ | with_reducible assumption | (simp -zeta only [↓Keeps.lit])
    | with_reducible apply State.modTile_keeps | with_reducible apply State.apgStep_keeps | (intro)

theorem State.markers_keeps {s₀ s : State} {t : Nat} {i : Int} {l : List (BitVec 8)} (kp : Keeps s₀ s) : Keeps s₀
    (State.markers s t i l) := by
  unfold State.markers
  repeat' first
    | with_reducible exact Keeps.refl _ | with_reducible assumption | with_reducible apply State.marker_keeps
    | with_reducible apply Keeps.foldl | (intro)

theorem State.endMarkers_keeps {s₀ s : State} {t : Nat} {i : Int} {l : List (BitVec 8)} (kp : Keeps s₀ s) : Keeps s₀
    (State.endMarkers s t i l) := by
  unfold State.endMarkers
  repeat' first
    | with_reducible exact Keeps.refl _ | with_reducible assumption | with_reducible apply State.maskStart_keeps
    | with_reducible apply Keeps.foldl | split | (intro)

theorem State.waitPeriod_keeps {s₀ s : State} {t : Nat} (kp : Keeps s₀ s) : Keeps s₀ (State.waitPeriod s t) := by
  unfold State.waitPeriod
  repeat' first
    | with_reducible exact Keeps.refl _ | with_reducible assumption | (simp -zeta only [↓Keeps.lit])
    | with_reducible apply State.modTile_keeps | with_reducible apply State.markers_keeps | split | (intro)

theorem State.beginWait_keeps {s₀ s : State} {t : Nat} {w : WaitRec} (kp : Keeps s₀ s) : Keeps s₀ (State.beginWait s t w) :=
    by
  unfold State.beginWait
  repeat' first
    | with_reducible exact Keeps.refl _ | with_reducible assumption
    | (extract_lets +onlyGivenNames x; refine Keeps.cut (x := x) ?_ ?_ <;> [subst x; (intro; rename' x => y)])
    | (extract_lets +onlyGivenNames x; subst x; try beta_reduce) | (simp -zeta only [↓Keeps.lit])
    | with_reducible apply State.setFlag_keeps | with_reducible apply State.modTile_keeps
    | with_reducible apply State.clearCond_keeps | with_reducible apply State.showApg_keeps
    | with_reducible apply State.stopIssue_keeps | with_reducible apply State.seqNext_keeps
    | with_reducible apply State.markers_keeps | with_reducible apply State.waitPeriod_keeps | split | (intro)

theorem State.decideBr_keeps {s₀ s : State} {t : Nat} {i : SeqInstr} {d : Int} (kp : Keeps s₀ s) : Keeps s₀ (State.decideBr s
    t i d) := by
  unfold State.decideBr
  repeat' first
    | with_reducible exact Keeps.refl _ | with_reducible assumption
    | (extract_lets +onlyGivenNames x; refine Keeps.cut (x := x) ?_ ?_ <;> [subst x; (intro; rename' x => y)])
    | (extract_lets +onlyGivenNames x; subst x; try beta_reduce) | (simp -zeta only [↓Keeps.lit])
    | with_reducible apply State.modTile_keeps | with_reducible apply State.clearCond_keeps
    | with_reducible apply State.seqNext_keeps | with_reducible apply State.jump_keeps
    | with_reducible apply State.zeroCycle_keeps | split | (intro)

theorem State.finish_keeps {s₀ s : State} {t : Nat} {x : Tail} (kp : Keeps s₀ s) : Keeps s₀ (State.finish s t x) := by
  unfold State.finish
  repeat' first
    | with_reducible exact Keeps.refl _ | with_reducible assumption
    | (extract_lets +onlyGivenNames x; refine Keeps.cut (x := x) ?_ ?_ <;> [subst x; (intro; rename' x => y)])
    | (extract_lets +onlyGivenNames x; subst x; try beta_reduce) | (simp -zeta only [↓Keeps.lit])
    | with_reducible apply State.modTile_keeps | with_reducible apply State.stopIssue_keeps
    | with_reducible apply State.endStep_keeps | with_reducible apply State.endMarkers_keeps | split | (intro)

theorem State.runTail_keeps {s₀ s : State} {t : Nat} (kp : Keeps s₀ s) : Keeps s₀ (State.runTail s t) := by
  unfold State.runTail
  repeat' first
    | with_reducible exact Keeps.refl _ | with_reducible assumption
    | (extract_lets +onlyGivenNames x; refine Keeps.cut (x := x) ?_ ?_ <;> [subst x; (intro; rename' x => y)])
    | (extract_lets +onlyGivenNames x; subst x; try beta_reduce) | with_reducible apply State.takeTurn_keeps
    | with_reducible apply State.beginWait_keeps | with_reducible apply State.decideBr_keeps
    | with_reducible apply State.finish_keeps | split

theorem State.putTail_keeps {s₀ s : State} {t : Nat} {x : Tail} (kp : Keeps s₀ s) : Keeps s₀ (State.putTail s t x) := by
  unfold State.putTail
  repeat' first
    | with_reducible exact Keeps.refl _ | with_reducible assumption
    | (extract_lets +onlyGivenNames x; refine Keeps.cut (x := x) ?_ ?_ <;> [subst x; (intro; rename' x => y)])
    | (extract_lets +onlyGivenNames x; subst x; try beta_reduce) | (simp -zeta only [↓Keeps.lit])
    | with_reducible apply State.modTile_keeps | with_reducible apply State.runTail_keeps | split | (intro)

theorem State.seq_keeps {s₀ s : State} {t : Nat} {act : State → State} (kp : Keeps s₀ s) (h_act : ∀ {s₁ s : State}, Keeps s₁ s
    → Keeps s₁ (act s)) : Keeps s₀ (State.seq s t act) := by
  unfold State.seq
  repeat' first
    | with_reducible exact Keeps.refl _ | with_reducible assumption
    | (extract_lets +onlyGivenNames x; refine Keeps.cut (x := x) ?_ ?_ <;> [subst x; (intro; rename' x => y)])
    | (extract_lets +onlyGivenNames x; subst x; try beta_reduce) | (simp -zeta only [↓Keeps.lit]) | with_reducible apply h_act
    | with_reducible apply State.modTile_keeps | with_reducible apply State.putTail_keeps | split | (intro)

theorem State.seqLast_keeps {s₀ s : State} {t : Nat} {act : State → State} (kp : Keeps s₀ s) (h_act : ∀ {s₁ s : State}, Keeps
    s₁ s → Keeps s₁ (act s)) : Keeps s₀ (State.seqLast s t act) := by
  unfold State.seqLast
  repeat' first
    | with_reducible exact Keeps.refl _ | with_reducible assumption | with_reducible apply h_act | split

theorem State.enqueue_keeps {s₀ s : State} {t : Nat} {kind : RunKind} {i : SeqInstr} (kp : Keeps s₀ s) : Keeps s₀
    (State.enqueue s t kind i) := by
  unfold State.enqueue
  repeat' first
    | with_reducible exact Keeps.refl _ | with_reducible assumption
    | (extract_lets +onlyGivenNames x; refine Keeps.cut (x := x) ?_ ?_ <;> [subst x; (intro; rename' x => y)])
    | (extract_lets +onlyGivenNames x; subst x; try beta_reduce) | (simp -zeta only [↓Keeps.lit])
    | with_reducible apply State.count_keeps | with_reducible apply State.modTile_keeps
    | with_reducible apply State.segSync_keeps | with_reducible apply State.hold_keeps
    | with_reducible apply State.boundary_keeps | with_reducible apply State.seqNext_keeps
    | with_reducible apply State.putTail_keeps | split | (intro)

theorem doVec_keeps {t : Fin 64} {i : SeqInstr} {s₀ s : State} (kp : Keeps s₀ s) : Keeps s₀ (doVec t i s) := by
  unfold doVec
  repeat' first
    | with_reducible exact Keeps.refl _ | with_reducible assumption | with_reducible apply State.seq_keeps
    | with_reducible apply State.enqueue_keeps | split | (intro)

theorem doRpt_keeps {t : Fin 64} {i : SeqInstr} {s₀ s : State} (kp : Keeps s₀ s) : Keeps s₀ (doRpt t i s) := by
  unfold doRpt
  repeat' first
    | with_reducible exact Keeps.refl _ | with_reducible assumption | with_reducible apply State.seq_keeps
    | with_reducible apply State.enqueue_keeps | split | (intro)

theorem doHold_keeps {t : Fin 64} {i : SeqInstr} {s₀ s : State} (kp : Keeps s₀ s) : Keeps s₀ (doHold t i s) := by
  unfold doHold
  repeat' first
    | with_reducible exact Keeps.refl _ | with_reducible assumption | with_reducible apply State.hold_keeps
    | with_reducible apply State.seq_keeps | with_reducible apply State.enqueue_keeps | (intro)

theorem doNop_keeps {t : Fin 64} {i : SeqInstr} {s₀ s : State} (kp : Keeps s₀ s) : Keeps s₀ (doNop t i s) := by
  unfold doNop
  repeat' first
    | with_reducible exact Keeps.refl _ | with_reducible assumption | with_reducible apply State.seqNext_keeps
    | with_reducible apply State.zeroCycle_keeps | with_reducible apply State.seq_keeps | (intro)

theorem doLoop_keeps {t : Fin 64} {i : SeqInstr} {s₀ s : State} (kp : Keeps s₀ s) : Keeps s₀ (doLoop t i s) := by
  unfold doLoop
  repeat' first
    | with_reducible exact Keeps.refl _ | with_reducible assumption
    | (extract_lets +onlyGivenNames x; refine Keeps.cut (x := x) ?_ ?_ <;> [subst x; (intro; rename' x => y)])
    | (extract_lets +onlyGivenNames x; subst x; try beta_reduce) | with_reducible apply State.rset_keeps
    | with_reducible apply State.count_keeps | with_reducible apply State.seqNext_keeps
    | with_reducible apply State.jump_keeps | with_reducible apply State.zeroCycle_keeps
    | with_reducible apply State.seq_keeps | split | (intro)

theorem doLend_keeps {t : Fin 64} {i : SeqInstr} {s₀ s : State} (kp : Keeps s₀ s) : Keeps s₀ (doLend t i s) := by
  unfold doLend
  repeat' first
    | with_reducible exact Keeps.refl _ | with_reducible assumption
    | (extract_lets +onlyGivenNames x; refine Keeps.cut (x := x) ?_ ?_ <;> [subst x; (intro; rename' x => y)])
    | (extract_lets +onlyGivenNames x; subst x; try beta_reduce) | with_reducible apply State.rset_keeps
    | with_reducible apply State.seqNext_keeps | with_reducible apply State.jump_keeps
    | with_reducible apply State.zeroCycle_keeps | with_reducible apply State.seq_keeps | split | (intro)

theorem doCall_keeps {t : Fin 64} {i : SeqInstr} {s₀ s : State} (kp : Keeps s₀ s) : Keeps s₀ (doCall t i s) := by
  unfold doCall
  repeat' first
    | with_reducible exact Keeps.refl _ | with_reducible assumption
    | (extract_lets +onlyGivenNames x; refine Keeps.cut (x := x) ?_ ?_ <;> [subst x; (intro; rename' x => y)])
    | (extract_lets +onlyGivenNames x; subst x; try beta_reduce) | with_reducible apply State.fset_keeps
    | with_reducible apply State.jump_keeps | with_reducible apply State.zeroCycle_keeps
    | with_reducible apply State.putTail_keeps | with_reducible apply State.seq_keeps | split | (intro)

theorem doRet_keeps {t : Fin 64} {i : SeqInstr} {s₀ s : State} (kp : Keeps s₀ s) : Keeps s₀ (doRet t i s) := by
  unfold doRet
  repeat' first
    | with_reducible exact Keeps.refl _ | with_reducible assumption
    | (extract_lets +onlyGivenNames x; refine Keeps.cut (x := x) ?_ ?_ <;> [subst x; (intro; rename' x => y)])
    | (extract_lets +onlyGivenNames x; subst x; try beta_reduce) | with_reducible apply State.fset_keeps
    | with_reducible apply State.jump_keeps | with_reducible apply State.zeroCycle_keeps
    | with_reducible apply State.putTail_keeps | with_reducible apply State.seq_keeps | split | (intro)

theorem doJmp_keeps {t : Fin 64} {i : SeqInstr} {s₀ s : State} (kp : Keeps s₀ s) : Keeps s₀ (doJmp t i s) := by
  unfold doJmp
  repeat' first
    | with_reducible exact Keeps.refl _ | with_reducible assumption | with_reducible apply State.jump_keeps
    | with_reducible apply State.zeroCycle_keeps | with_reducible apply State.seq_keeps | (intro)

theorem State.placed_keeps {s₀ s : State} {t : Nat} (kp : Keeps s₀ s) : Keeps s₀ (State.placed s t) := by
  unfold State.placed
  repeat' first
    | with_reducible exact Keeps.refl _ | with_reducible assumption | (simp -zeta only [↓Keeps.lit])
    | with_reducible apply State.modTile_keeps | with_reducible apply State.seqNext_keeps | split | (intro)

theorem doBr_keeps {t : Fin 64} {i : SeqInstr} {s₀ s : State} (kp : Keeps s₀ s) : Keeps s₀ (doBr t i s) := by
  unfold doBr
  repeat' first
    | with_reducible exact Keeps.refl _ | with_reducible assumption | with_reducible apply State.decideBr_keeps
    | with_reducible apply State.putTail_keeps | with_reducible apply State.seq_keeps | split | (intro)

theorem doSegsw_keeps {t : Fin 64} {i : SeqInstr} {s₀ s : State} (kp : Keeps s₀ s) : Keeps s₀ (doSegsw t i s) := by
  unfold doSegsw
  repeat' first
    | with_reducible exact Keeps.refl _ | with_reducible assumption
    | (extract_lets +onlyGivenNames x; refine Keeps.cut (x := x) ?_ ?_ <;> [subst x; (intro; rename' x => y)])
    | (extract_lets +onlyGivenNames x; subst x; try beta_reduce) | (simp -zeta only [↓Keeps.lit])
    | with_reducible apply State.modTile_keeps | with_reducible apply State.segSync_keeps
    | with_reducible apply State.ringAdvance_keeps | with_reducible apply State.seqNext_keeps
    | with_reducible apply State.zeroCycle_keeps | with_reducible apply State.putTail_keeps
    | with_reducible apply State.seq_keeps | split | (intro)

theorem doMark_keeps {t : Fin 64} {i : SeqInstr} {s₀ s : State} (kp : Keeps s₀ s) : Keeps s₀ (doMark t i s) := by
  unfold doMark
  repeat' first
    | with_reducible exact Keeps.refl _ | with_reducible assumption | (simp -zeta only [↓Keeps.lit])
    | with_reducible apply State.modTile_keeps | with_reducible apply State.seqNext_keeps
    | with_reducible apply State.seq_keeps | (intro)

theorem doPeriod_keeps {t : Fin 64} {i : SeqInstr} {s₀ s : State} (kp : Keeps s₀ s) : Keeps s₀ (doPeriod t i s) := by
  unfold doPeriod
  repeat' first
    | with_reducible exact Keeps.refl _ | with_reducible assumption
    | (extract_lets +onlyGivenNames x; refine Keeps.cut (x := x) ?_ ?_ <;> [subst x; (intro; rename' x => y)])
    | (extract_lets +onlyGivenNames x; subst x; try beta_reduce) | (simp -zeta only [↓Keeps.lit])
    | with_reducible apply State.modTile_keeps | with_reducible apply State.seqNext_keeps
    | with_reducible apply State.seq_keeps | (intro)

theorem doWait_keeps {t : Fin 64} {i : SeqInstr} {s₀ s : State} (kp : Keeps s₀ s) : Keeps s₀ (doWait t i s) := by
  unfold doWait
  repeat' first
    | with_reducible exact Keeps.refl _ | with_reducible assumption | (simp -zeta only [↓Keeps.lit])
    | with_reducible apply State.count_keeps | with_reducible apply State.apgStep_keeps
    | with_reducible apply State.putTail_keeps | with_reducible apply State.seqLast_keeps | (intro)

theorem doEndStep_keeps {t : Fin 64} {i : SeqInstr} {s₀ s : State} (kp : Keeps s₀ s) : Keeps s₀ (doEndStep t i s) := by
  unfold doEndStep
  repeat' first
    | with_reducible exact Keeps.refl _ | with_reducible assumption | with_reducible apply State.putTail_keeps
    | with_reducible apply State.seqLast_keeps | (intro)

theorem doWaitRelease_keeps {t : Fin 64} {clock : Nat} {s₀ s : State} (kp : Keeps s₀ s) : Keeps s₀ (doWaitRelease t clock s)
    := by
  unfold doWaitRelease
  repeat' first
    | with_reducible exact Keeps.refl _ | with_reducible assumption
    | (extract_lets +onlyGivenNames x; refine Keeps.cut (x := x) ?_ ?_ <;> [subst x; (intro; rename' x => y)])
    | (extract_lets +onlyGivenNames x; subst x; try beta_reduce) | (simp -zeta only [↓Keeps.lit])
    | with_reducible apply State.setFlag_keeps | with_reducible apply State.count_keeps
    | with_reducible apply State.modTile_keeps | with_reducible apply State.clearCond_keeps
    | with_reducible apply State.freshStart_keeps | with_reducible apply State.seqNext_keeps
    | with_reducible apply State.jump_keeps | split | (intro)

theorem State.fillRecord_keeps {s₀ s : State} {t : Nat} {f : Int} (kp : Keeps s₀ s) : Keeps s₀ (State.fillRecord s t f) := by
  unfold State.fillRecord
  repeat' first
    | with_reducible exact Keeps.refl _ | with_reducible assumption
    | (extract_lets +onlyGivenNames x; refine Keeps.cut (x := x) ?_ ?_ <;> [subst x; (intro; rename' x => y)])
    | (extract_lets +onlyGivenNames x; subst x; try beta_reduce) | with_reducible apply State.count_keeps
    | with_reducible apply State.setPair_keeps

theorem State.filler_keeps {s₀ s : State} {t : Nat} {q : PerReq} (kp : Keeps s₀ s) : Keeps s₀ (State.filler s t q) := by
  unfold State.filler
  repeat' first
    | with_reducible exact Keeps.refl _ | with_reducible assumption
    | (extract_lets +onlyGivenNames x; refine Keeps.cut (x := x) ?_ ?_ <;> [subst x; (intro; rename' x => y)])
    | (extract_lets +onlyGivenNames x; subst x; try beta_reduce) | (simp -zeta only [↓Keeps.lit])
    | with_reducible apply State.modTile_keeps | with_reducible apply State.stopIssue_keeps
    | with_reducible apply State.freshStart_keeps | with_reducible apply State.markers_keeps
    | with_reducible apply State.fillRecord_keeps | split | (intro)

theorem State.holdDrive_keeps {s₀ s : State} {t lane : Nat} (kp : Keeps s₀ s) : Keeps s₀ (State.holdDrive s t lane) := by
  unfold State.holdDrive
  repeat' first
    | with_reducible exact Keeps.refl _ | with_reducible assumption
    | (extract_lets +onlyGivenNames x; refine Keeps.cut (x := x) ?_ ?_ <;> [subst x; (intro; rename' x => y)])
    | (extract_lets +onlyGivenNames x; subst x; try beta_reduce) | (simp -zeta only [↓Keeps.lit])
    | with_reducible apply State.modChan_keeps | split | (intro)

theorem State.beginStall_keeps {s₀ s : State} {t seg : Nat} (kp : Keeps s₀ s) : Keeps s₀ (State.beginStall s t seg) := by
  unfold State.beginStall
  repeat' first
    | with_reducible exact Keeps.refl _ | with_reducible assumption
    | (extract_lets +onlyGivenNames x; refine Keeps.cut (x := x) ?_ ?_ <;> [subst x; (intro; rename' x => y)])
    | (extract_lets +onlyGivenNames x; subst x; try beta_reduce) | (simp -zeta only [↓Keeps.lit])
    | with_reducible apply State.setFlag_keeps | with_reducible apply State.modTile_keeps
    | with_reducible apply State.suspectFlag_keeps | with_reducible apply State.stopIssue_keeps
    | with_reducible apply State.holdDrive_keeps | with_reducible apply Keeps.foldl | (intro)

theorem doStallResume_keeps {t : Fin 64} {s₀ s : State} (kp : Keeps s₀ s) : Keeps s₀ (doStallResume t s) := by
  unfold doStallResume
  repeat' first
    | with_reducible exact Keeps.refl _ | with_reducible assumption
    | (extract_lets +onlyGivenNames x; refine Keeps.cut (x := x) ?_ ?_ <;> [subst x; (intro; rename' x => y)])
    | (extract_lets +onlyGivenNames x; subst x; try beta_reduce) | (simp -zeta only [↓Keeps.lit])
    | with_reducible apply State.fset_keeps | with_reducible apply State.setFlag_keeps
    | with_reducible apply State.count_keeps | with_reducible apply State.setPair_keeps
    | with_reducible apply State.modTile_keeps | with_reducible apply State.tileEv_keeps
    | with_reducible apply State.endStep_keeps | with_reducible apply State.freshStart_keeps | split | (intro)

theorem doStallLimitExpiry_keeps {t : Fin 64} {s₀ s : State} (kp : Keeps s₀ s) : Keeps s₀ (doStallLimitExpiry t s) := by
  unfold doStallLimitExpiry
  repeat' first
    | with_reducible exact Keeps.refl _ | with_reducible assumption
    | (extract_lets +onlyGivenNames x; refine Keeps.cut (x := x) ?_ ?_ <;> [subst x; (intro; rename' x => y)])
    | (extract_lets +onlyGivenNames x; subst x; try beta_reduce) | with_reducible apply State.tileEv_keeps
    | with_reducible apply State.endStep_keeps | split

theorem State.cycleWindow_keeps {s₀ s : State} {ch : Nat} {x : Strobe} (kp : Keeps s₀ s) : Keeps s₀ (State.cycleWindow s ch x)
    := by
  unfold State.cycleWindow
  repeat' first
    | with_reducible exact Keeps.refl _ | with_reducible assumption
    | (extract_lets +onlyGivenNames x; refine Keeps.cut (x := x) ?_ ?_ <;> [subst x; (intro; rename' x => y)])
    | (extract_lets +onlyGivenNames x; subst x; try beta_reduce) | with_reducible apply State.start_keeps
    | with_reducible apply State.addWindow_keeps | split

theorem State.cycleLane_keeps {s₀ s : State} {t lane cyc : Nat} {r : Run} {c e : Int} (kp : Keeps s₀ s) : Keeps s₀
    (State.cycleLane s t lane cyc r c e) := by
  unfold State.cycleLane
  repeat' first
    | with_reducible exact Keeps.refl _ | with_reducible assumption
    | (extract_lets +onlyGivenNames x; refine Keeps.cut (x := x) ?_ ?_ <;> [subst x; (intro; rename' x => y)])
    | (extract_lets +onlyGivenNames x; subst x; try beta_reduce) | (simp -zeta only [↓Keeps.lit])
    | with_reducible apply State.modTile_keeps | with_reducible apply State.modChan_keeps
    | with_reducible apply State.driveCycle_keeps | with_reducible apply State.judgeStrobes_keeps
    | with_reducible apply State.hold_keeps | with_reducible apply State.cycleWindow_keeps | split | (intro)

theorem State.runAdvance_keeps {s₀ s : State} {t : Nat} {r : Run} {rest : List Run} (kp : Keeps s₀ s) : Keeps s₀
    (State.runAdvance s t r rest) := by
  unfold State.runAdvance
  repeat' first
    | with_reducible exact Keeps.refl _ | with_reducible assumption
    | (extract_lets +onlyGivenNames x; refine Keeps.cut (x := x) ?_ ?_ <;> [subst x; (intro; rename' x => y)])
    | (extract_lets +onlyGivenNames x; subst x; try beta_reduce) | (simp -zeta only [↓Keeps.lit])
    | with_reducible apply State.modTile_keeps | with_reducible apply State.ringAdvance_keeps
    | with_reducible apply Keeps.foldl | split | (intro)

theorem State.issueCycle_keeps {s₀ s : State} {t : Nat} {r : Run} {rest : List Run} (kp : Keeps s₀ s) : Keeps s₀
    (State.issueCycle s t r rest) := by
  unfold State.issueCycle
  repeat' first
    | with_reducible exact Keeps.refl _ | with_reducible assumption
    | (extract_lets +onlyGivenNames x; refine Keeps.cut (x := x) ?_ ?_ <;> [subst x; (intro; rename' x => y)])
    | (extract_lets +onlyGivenNames x; subst x; try beta_reduce) | (simp -zeta only [↓Keeps.lit])
    | with_reducible apply State.setPair_keeps | with_reducible apply State.modTile_keeps
    | with_reducible apply State.segSync_keeps | with_reducible apply State.segPlay_keeps
    | with_reducible apply State.showApg_keeps | with_reducible apply State.tileEv_keeps
    | with_reducible apply State.settleStops_keeps | with_reducible apply State.hold_keeps
    | with_reducible apply State.markers_keeps | with_reducible apply State.placed_keeps
    | with_reducible apply State.cycleLane_keeps | with_reducible apply State.runAdvance_keeps
    | with_reducible apply Keeps.foldl | split | (intro)

theorem doCycleBegin_keeps {t : Fin 64} {s₀ s : State} (kp : Keeps s₀ s) : Keeps s₀ (doCycleBegin t s) := by
  unfold doCycleBegin
  repeat' first
    | with_reducible exact Keeps.refl _ | with_reducible assumption
    | (extract_lets +onlyGivenNames x; refine Keeps.cut (x := x) ?_ ?_ <;> [subst x; (intro; rename' x => y)])
    | (extract_lets +onlyGivenNames x; subst x; try beta_reduce) | with_reducible apply State.showApg_keeps
    | with_reducible apply State.hold_keeps | with_reducible apply State.takeTurn_keeps
    | with_reducible apply State.finish_keeps | with_reducible apply State.runTail_keeps
    | with_reducible apply State.filler_keeps | with_reducible apply State.beginStall_keeps
    | with_reducible apply State.issueCycle_keeps | split

theorem State.actual_keeps {s₀ s : State} {ch : Nat} {e : Expect} {x : CmpSample} (kp : Keeps s₀ s) : Keeps s₀ (State.actual s
    ch e x).2 := by
  unfold State.actual
  repeat' first
    | with_reducible exact Keeps.refl _ | with_reducible assumption
    | (extract_lets +onlyGivenNames x; refine Keeps.cut (x := x) ?_ ?_ <;> [subst x; (intro; rename' x => y)])
    | (extract_lets +onlyGivenNames x; subst x; try beta_reduce) | with_reducible apply State.free_keeps
    | (refine State.free_keepsEq (by with_reducible assumption) ?_) | split

theorem State.actual_keepsEq {s₀ s : State} {ch : Nat} {e : Expect} {x : CmpSample} {r1 : Nat} {t_ : State} (h : State.actual
    s ch e x = (r1, t_)) (kp : Keeps s₀ s) : Keeps s₀ t_ := by
  have k := State.actual_keeps (s₀ := s₀) (s := s) (ch := ch) (e := e) (x := x) kp
  rwa [h] at k

theorem State.actualOf_keeps {s₀ s : State} {ch : Nat} {e : Expect} {x : Option CmpSample} (kp : Keeps s₀ s) : Keeps s₀
    (State.actualOf s ch e x).2 := by
  unfold State.actualOf
  repeat' first
    | with_reducible exact Keeps.refl _ | with_reducible assumption | with_reducible apply State.actual_keeps
    | (refine State.actual_keepsEq (by with_reducible assumption) ?_) | split

theorem State.actualOf_keepsEq {s₀ s : State} {ch : Nat} {e : Expect} {x : Option CmpSample} {r1 : Nat} {t_ : State} (h :
    State.actualOf s ch e x = (r1, t_)) (kp : Keeps s₀ s) : Keeps s₀ t_ := by
  have k := State.actualOf_keeps (s₀ := s₀) (s := s) (ch := ch) (e := e) (x := x) kp
  rwa [h] at k

theorem State.strobeFail_keeps {s₀ s : State} {ch : Nat} {x : Strobe} (kp : Keeps s₀ s) : Keeps s₀ (State.strobeFail s ch x)
    := by
  unfold State.strobeFail
  repeat' first
    | with_reducible exact Keeps.refl _ | with_reducible assumption
    | (extract_lets +onlyGivenNames x; refine Keeps.cut (x := x) ?_ ?_ <;> [subst x; (intro; rename' x => y)])
    | (extract_lets +onlyGivenNames x; subst x; try beta_reduce) | (simp -zeta only [↓Keeps.lit])
    | with_reducible apply State.failChan_keeps | with_reducible apply State.failsTrigger_keeps
    | with_reducible apply State.fcFail_keeps | with_reducible apply State.tileEv_keeps

theorem State.strobeUnknown_keeps {s₀ s : State} {ch : Nat} {x : Strobe} (kp : Keeps s₀ s) : Keeps s₀ (State.strobeUnknown s
    ch x) := by
  unfold State.strobeUnknown
  repeat' first
    | with_reducible exact Keeps.refl _ | with_reducible assumption
    | (extract_lets +onlyGivenNames x; refine Keeps.cut (x := x) ?_ ?_ <;> [subst x; (intro; rename' x => y)])
    | (extract_lets +onlyGivenNames x; subst x; try beta_reduce) | with_reducible apply State.count_keeps
    | with_reducible apply State.setPair_keeps | with_reducible apply State.suspectFlag_keeps
    | with_reducible apply State.indChan_keeps | split

theorem State.showMatch_keeps {s₀ s : State} {t : Nat} (kp : Keeps s₀ s) : Keeps s₀ (State.showMatch s t) := by
  unfold State.showMatch
  repeat' first
    | with_reducible exact Keeps.refl _ | with_reducible assumption | with_reducible apply State.setFlag_keeps

theorem State.compareDone_keeps {s₀ s : State} {ch : Nat} {x : Strobe} {l : List CmpSample} (kp : Keeps s₀ s) : Keeps s₀
    (State.compareDone s ch x l) := by
  unfold State.compareDone
  repeat' first
    | with_reducible exact Keeps.refl _ | with_reducible assumption
    | (extract_lets +onlyGivenNames x; refine Keeps.cut (x := x) ?_ ?_ <;> [subst x; (intro; rename' x => y)])
    | (extract_lets +onlyGivenNames x; subst x; try beta_reduce) | (simp -zeta only [↓Keeps.lit])
    | with_reducible apply State.modTile_keeps | with_reducible apply State.actual_keeps
    | (refine State.actual_keepsEq (by with_reducible assumption) ?_) | with_reducible apply State.actualOf_keeps
    | (refine State.actualOf_keepsEq (by with_reducible assumption) ?_) | with_reducible apply State.strobeFail_keeps
    | with_reducible apply State.strobeUnknown_keeps | with_reducible apply State.showMatch_keeps | split | (intro)

theorem State.captureDone_keeps {s₀ s : State} {ch : Nat} {x : Strobe} {l : List CmpSample} (kp : Keeps s₀ s) : Keeps s₀
    (State.captureDone s ch x l) := by
  unfold State.captureDone
  repeat' first
    | with_reducible exact Keeps.refl _ | with_reducible assumption
    | (extract_lets +onlyGivenNames x; refine Keeps.cut (x := x) ?_ ?_ <;> [subst x; (intro; rename' x => y)])
    | (extract_lets +onlyGivenNames x; subst x; try beta_reduce) | (simp -zeta only [↓Keeps.lit])
    | with_reducible apply State.modTile_keeps | split | (intro)

theorem doStrobe_keeps {ch : Fin 1024} {volts : List Int} {s₀ s : State} (kp : Keeps s₀ s) : Keeps s₀ (doStrobe ch volts s) :=
    by
  unfold doStrobe
  repeat' first
    | with_reducible exact Keeps.refl _ | with_reducible assumption
    | (extract_lets +onlyGivenNames x; refine Keeps.cut (x := x) ?_ ?_ <;> [subst x; (intro; rename' x => y)])
    | (extract_lets +onlyGivenNames x; subst x; try beta_reduce) | (simp -zeta only [↓Keeps.lit])
    | with_reducible apply State.modTile_keeps | with_reducible apply State.setChan_keeps
    | with_reducible apply State.syncCmp_keeps | with_reducible apply State.cycRecords_keeps
    | with_reducible apply State.finish_keeps | with_reducible apply State.compareDone_keeps
    | with_reducible apply State.captureDone_keeps | split | (intro)

theorem doTdcStop_keeps {ch : Fin 1024} {falling : Bool} {edge : Nat} {code : Fin 256} {s₀ s : State} (kp : Keeps s₀ s) :
    Keeps s₀ (doTdcStop ch falling edge code s) := by
  unfold doTdcStop
  repeat' first
    | with_reducible exact Keeps.refl _ | with_reducible assumption
    | (extract_lets +onlyGivenNames x; refine Keeps.cut (x := x) ?_ ?_ <;> [subst x; (intro; rename' x => y)])
    | (extract_lets +onlyGivenNames x; subst x; try beta_reduce) | (simp -zeta only [↓Keeps.lit])
    | with_reducible apply State.modTile_keeps | with_reducible apply State.modChan_keeps
    | with_reducible apply State.syncCmp_keeps | with_reducible apply State.settleStops_keeps | split | (intro)

end Sys2Proof.Machine
end

