-- ==== Sys2Proof/Laws/KeepsTiles.lean ====
section
/-! SUPPORT. Sequencer, playback, acquisition and pin commands keep the relation of Keeps.lean. -/

namespace Sys2Proof.Machine

theorem State.badRead_keeps {s₀ s : State} {t : Nat} (kp : Keeps s₀ s) : Keeps s₀ (State.badRead s t).2 := by
  unfold State.badRead
  repeat' first
    | with_reducible exact Keeps.refl _ | with_reducible assumption | with_reducible apply State.free_keeps
    | (refine State.free_keepsEq (by with_reducible assumption) ?_) | split

theorem State.badRead_keepsEq {s₀ s : State} {t : Nat} {r1 : Word} {t_ : State} (h : State.badRead s t = (r1, t_)) (kp : Keeps
    s₀ s) : Keeps s₀ t_ := by
  have k := State.badRead_keeps (s₀ := s₀) (s := s) (t := t) kp
  rwa [h] at k

theorem doCaptureRead_keeps {q : Req} {s₀ s : State} (kp : Keeps s₀ s) : Keeps s₀ (doCaptureRead q s) := by
  unfold doCaptureRead
  repeat' first
    | with_reducible exact Keeps.refl _ | with_reducible assumption
    | (extract_lets +onlyGivenNames x; refine Keeps.cut (x := x) ?_ ?_ <;> [subst x; (intro; rename' x => y)])
    | (extract_lets +onlyGivenNames x; subst x; try beta_reduce) | with_reducible apply State.fset_keeps
    | with_reducible apply State.reply_keeps | with_reducible apply State.fail_keeps
    | with_reducible apply State.request_keeps | with_reducible apply State.badRead_keeps
    | (refine State.badRead_keepsEq (by with_reducible assumption) ?_) | split | (intro)

theorem doFailRead_keeps {q : Req} {s₀ s : State} (kp : Keeps s₀ s) : Keeps s₀ (doFailRead q s) := by
  unfold doFailRead
  repeat' first
    | with_reducible exact Keeps.refl _ | with_reducible assumption
    | (extract_lets +onlyGivenNames x; refine Keeps.cut (x := x) ?_ ?_ <;> [subst x; (intro; rename' x => y)])
    | (extract_lets +onlyGivenNames x; subst x; try beta_reduce) | (simp -zeta only [↓Keeps.lit])
    | with_reducible apply State.reply_keeps | with_reducible apply State.fail_keeps | with_reducible apply State.drop_keeps
    | with_reducible apply State.request_keeps | split | (intro)

theorem doProfileRead_keeps {q : Req} {s₀ s : State} (kp : Keeps s₀ s) : Keeps s₀ (doProfileRead q s) := by
  unfold doProfileRead
  repeat' first
    | with_reducible exact Keeps.refl _ | with_reducible assumption
    | (extract_lets +onlyGivenNames x; refine Keeps.cut (x := x) ?_ ?_ <;> [subst x; (intro; rename' x => y)])
    | (extract_lets +onlyGivenNames x; subst x; try beta_reduce) | with_reducible apply State.reply_keeps
    | with_reducible apply State.fail_keeps | with_reducible apply State.request_keeps | split | (intro)

theorem doMeasure_keeps {q : Req} {s₀ s : State} (kp : Keeps s₀ s) : Keeps s₀ (doMeasure q s) := by
  unfold doMeasure
  repeat' first
    | with_reducible exact Keeps.refl _ | with_reducible assumption
    | (extract_lets +onlyGivenNames x; refine Keeps.cut (x := x) ?_ ?_ <;> [subst x; (intro; rename' x => y)])
    | (extract_lets +onlyGivenNames x; subst x; try beta_reduce) | (simp -zeta only [↓Keeps.lit])
    | with_reducible apply State.fail_keeps | with_reducible apply State.request_keeps | split | (intro)

theorem doMeasureReply_keeps {ch : Fin 1024} {s₀ s : State} (kp : Keeps s₀ s) : Keeps s₀ (doMeasureReply ch s) := by
  unfold doMeasureReply
  repeat' first
    | with_reducible exact Keeps.refl _ | with_reducible assumption
    | (extract_lets +onlyGivenNames x; refine Keeps.cut (x := x) ?_ ?_ <;> [subst x; (intro; rename' x => y)])
    | (extract_lets +onlyGivenNames x; subst x; try beta_reduce) | (simp -zeta only [↓Keeps.lit])
    | with_reducible apply State.reply_keeps | with_reducible apply State.fail_keeps | with_reducible apply Keeps.foldl
    | split | (intro)

theorem State.levelCheck_keeps {s₀ s : State} {ch node : Nat} {code : Int} (kp : Keeps s₀ s) : Keeps s₀ (State.levelCheck s ch
    node code) := by
  unfold State.levelCheck
  repeat' first
    | with_reducible exact Keeps.refl _ | with_reducible assumption
    | (extract_lets +onlyGivenNames x; refine Keeps.cut (x := x) ?_ ?_ <;> [subst x; (intro; rename' x => y)])
    | (extract_lets +onlyGivenNames x; subst x; try beta_reduce) | (simp -zeta only [↓Keeps.lit])
    | with_reducible apply State.setChan_keeps | with_reducible apply State.disagree_keeps | split | (intro)

theorem State.waveSample_keeps {s₀ s : State} {ch last : Nat} (kp : Keeps s₀ s) : Keeps s₀ (State.waveSample s ch last) := by
  unfold State.waveSample
  repeat' first
    | with_reducible exact Keeps.refl _ | with_reducible assumption
    | (extract_lets +onlyGivenNames x; refine Keeps.cut (x := x) ?_ ?_ <;> [subst x; (intro; rename' x => y)])
    | (extract_lets +onlyGivenNames x; subst x; try beta_reduce) | (simp -zeta only [↓Keeps.lit])
    | with_reducible apply State.rset_keeps | with_reducible apply State.modTile_keeps
    | with_reducible apply State.setChan_keeps | with_reducible apply State.maskSample_keeps
    | with_reducible apply State.crossSample_keeps | split | (intro)

theorem doPmuConversion_keeps {ch : Fin 1024} {code : Int} {clamped : Bool} {instant : Nat} {check : Option (Fin 12)} {s₀ s :
    State} (kp : Keeps s₀ s) : Keeps s₀ (doPmuConversion ch code clamped instant check s) := by
  unfold doPmuConversion
  repeat' first
    | with_reducible exact Keeps.refl _ | with_reducible assumption
    | (extract_lets +onlyGivenNames x; refine Keeps.cut (x := x) ?_ ?_ <;> [subst x; (intro; rename' x => y)])
    | (extract_lets +onlyGivenNames x; subst x; try beta_reduce) | (simp -zeta only [↓Keeps.lit])
    | with_reducible apply State.setFlag_keeps | with_reducible apply State.modChan_keeps
    | with_reducible apply State.putWaves_keeps | with_reducible apply State.levelCheck_keeps
    | with_reducible apply State.waveSample_keeps | split | (intro)

theorem doMaskvFlag_keeps {t : Fin 64} {s₀ s : State} (kp : Keeps s₀ s) : Keeps s₀ (doMaskvFlag t s) := by
  unfold doMaskvFlag
  repeat' first
    | with_reducible exact Keeps.refl _ | with_reducible assumption | (simp -zeta only [↓Keeps.lit])
    | with_reducible apply State.modTile_keeps | with_reducible apply State.addCond_keeps | split | (intro)

theorem doTrigTimeReached_keeps {t : Fin 64} {s₀ s : State} (kp : Keeps s₀ s) : Keeps s₀ (doTrigTimeReached t s) := by
  unfold doTrigTimeReached
  repeat' first
    | with_reducible exact Keeps.refl _ | with_reducible assumption | with_reducible apply State.trigEvent_keeps | split

theorem doTrigInEdge_keeps {n : Fin 4} {arrival : Nat} {s₀ s : State} (kp : Keeps s₀ s) : Keeps s₀ (doTrigInEdge n arrival s)
    := by
  unfold doTrigInEdge
  repeat' first
    | with_reducible exact Keeps.refl _ | with_reducible assumption
    | (extract_lets +onlyGivenNames x; refine Keeps.cut (x := x) ?_ ?_ <;> [subst x; (intro; rename' x => y)])
    | (extract_lets +onlyGivenNames x; subst x; try beta_reduce) | (simp -zeta only [↓Keeps.lit])
    | with_reducible apply State.registerEvent_keeps | with_reducible apply Keeps.foldl | split | (intro)

theorem State.writeRow_keeps {s₀ s : State} {refused : Option (BitVec 8)} {act : State → State} (kp : Keeps s₀ s) (h_act : ∀
    {s₁ s : State}, Keeps s₁ s → Keeps s₁ (act s)) : Keeps s₀ (State.writeRow s refused act) := by
  unfold State.writeRow
  repeat' first
    | with_reducible exact Keeps.refl _ | with_reducible assumption | with_reducible apply h_act
    | with_reducible apply State.answered_keeps | split

theorem doChModeWrite_keeps {ch : Fin 1024} {v : Word} {s₀ s : State} (kp : Keeps s₀ s) : Keeps s₀ (doChModeWrite ch v s) :=
    by
  unfold doChModeWrite
  repeat' first
    | with_reducible exact Keeps.refl _ | with_reducible assumption | with_reducible apply State.chMode_keeps
    | with_reducible apply State.writeRow_keeps | (intro)

theorem State.heldOverstress_keeps {s₀ s : State} {ch : Nat} (kp : Keeps s₀ s) : Keeps s₀ (State.heldOverstress s ch) := by
  unfold State.heldOverstress
  repeat' first
    | with_reducible exact Keeps.refl _ | with_reducible assumption | with_reducible apply State.pinReaction_keeps
    | with_reducible apply State.boundary_keeps | split

theorem doGateClosed_keeps {ch : Fin 1024} {s₀ s : State} (kp : Keeps s₀ s) : Keeps s₀ (doGateClosed ch s) := by
  unfold doGateClosed
  repeat' first
    | with_reducible exact Keeps.refl _ | with_reducible assumption | with_reducible apply State.gateDone_keeps
    | with_reducible apply State.heldOverstress_keeps

theorem doForcedResetEnd_keeps {u : CmpUnit} {volt : Int} {s₀ s : State} (kp : Keeps s₀ s) : Keeps s₀ (doForcedResetEnd u volt
    s) := by
  unfold doForcedResetEnd
  repeat' first
    | with_reducible exact Keeps.refl _ | with_reducible assumption
    | (extract_lets +onlyGivenNames x; refine Keeps.cut (x := x) ?_ ?_ <;> [subst x; (intro; rename' x => y)])
    | (extract_lets +onlyGivenNames x; subst x; try beta_reduce) | (simp -zeta only [↓Keeps.lit])
    | with_reducible apply State.resolve_keeps | (refine State.resolve_keepsEq (by with_reducible assumption) ?_)
    | with_reducible apply State.modSnt_keeps | with_reducible apply State.sntSync_keeps
    | with_reducible apply State.forcedEnd_keeps | split | (intro)

theorem doComparatorKnown_keeps {u : CmpUnit} {low : Bool} {volt : Int} {s₀ s : State} (kp : Keeps s₀ s) : Keeps s₀
    (doComparatorKnown u low volt s) := by
  unfold doComparatorKnown
  repeat' first
    | with_reducible exact Keeps.refl _ | with_reducible assumption
    | (extract_lets +onlyGivenNames x; refine Keeps.cut (x := x) ?_ ?_ <;> [subst x; (intro; rename' x => y)])
    | (extract_lets +onlyGivenNames x; subst x; try beta_reduce) | (simp -zeta only [↓Keeps.lit])
    | with_reducible apply State.modChan_keeps | with_reducible apply State.setKnown_keeps
    | with_reducible apply State.modSnt_keeps | with_reducible apply State.sntSync_keeps | split | (intro)

theorem doCmpSelfCheck_keeps {ch : Fin 1024} {ok : Bool} {start : Nat} {s₀ s : State} (kp : Keeps s₀ s) : Keeps s₀
    (doCmpSelfCheck ch ok start s) := by
  unfold doCmpSelfCheck
  repeat' first
    | with_reducible exact Keeps.refl _ | with_reducible assumption
    | (extract_lets +onlyGivenNames x; refine Keeps.cut (x := x) ?_ ?_ <;> [subst x; (intro; rename' x => y)])
    | (extract_lets +onlyGivenNames x; subst x; try beta_reduce) | (simp -zeta only [↓Keeps.lit])
    | with_reducible apply State.modChan_keeps | with_reducible apply State.checkBad_keeps
    | with_reducible apply State.boundary_keeps | split | (intro)

theorem doChkLate_keeps {ch : Fin 1024} {instant : Nat} {s₀ s : State} (kp : Keeps s₀ s) : Keeps s₀ (doChkLate ch instant s)
    := by
  unfold doChkLate
  repeat' first
    | with_reducible exact Keeps.refl _ | with_reducible assumption | with_reducible apply State.checkBad_keeps | split

theorem doPinOverstress_keeps {ch : Fin 1024} {overVoltage : Bool} {s₀ s : State} (kp : Keeps s₀ s) : Keeps s₀
    (doPinOverstress ch overVoltage s) := by
  unfold doPinOverstress
  repeat' first
    | with_reducible exact Keeps.refl _ | with_reducible assumption | with_reducible apply State.pinReaction_keeps
    | with_reducible apply State.boundary_keeps | split

theorem doLvlWrite_keeps {ch : Fin 1024} {k : Fin 11} {code : BitVec 16} {s₀ s : State} (kp : Keeps s₀ s) : Keeps s₀
    (doLvlWrite ch k code s) := by
  unfold doLvlWrite
  repeat' first
    | with_reducible exact Keeps.refl _ | with_reducible assumption | with_reducible apply State.levelCode_keeps
    | with_reducible apply State.writeRow_keeps | (intro)

theorem doDeglitchHoldEnd_keeps {ch : Fin 1024} {k : Fin 11} {s₀ s : State} (kp : Keeps s₀ s) : Keeps s₀ (doDeglitchHoldEnd ch
    k s) := by
  unfold doDeglitchHoldEnd
  repeat' first
    | with_reducible exact Keeps.refl _ | with_reducible assumption | (simp -zeta only [↓Keeps.lit])
    | with_reducible apply State.modChan_keeps | (intro)

theorem doLevelSettled_keeps {ch : Fin 1024} {k : Fin 11} {s₀ s : State} (kp : Keeps s₀ s) : Keeps s₀ (doLevelSettled ch k s)
    := by
  unfold doLevelSettled
  repeat' first
    | with_reducible exact Keeps.refl _ | with_reducible assumption
    | (extract_lets +onlyGivenNames x; refine Keeps.cut (x := x) ?_ ?_ <;> [subst x; (intro; rename' x => y)])
    | (extract_lets +onlyGivenNames x; subst x; try beta_reduce) | (simp -zeta only [↓Keeps.lit])
    | with_reducible apply State.setFlag_keeps | with_reducible apply State.modChan_keeps
    | with_reducible apply State.armForce_keeps | (intro)

theorem doLvlClrAssert_keeps {s₀ s : State} (kp : Keeps s₀ s) : Keeps s₀ (doLvlClrAssert s) := by
  unfold doLvlClrAssert
  repeat' first
    | with_reducible exact Keeps.refl _ | with_reducible assumption
    | (extract_lets +onlyGivenNames x; refine Keeps.cut (x := x) ?_ ?_ <;> [subst x; (intro; rename' x => y)])
    | (extract_lets +onlyGivenNames x; subst x; try beta_reduce) | (simp -zeta only [↓Keeps.lit])
    | with_reducible apply State.setFlag_keeps | with_reducible apply State.applySafe_keeps
    | with_reducible apply State.endSteps_keeps | with_reducible apply Keeps.foldl | split | (intro)

theorem doLvlClrDeassert_keeps {s₀ s : State} (kp : Keeps s₀ s) : Keeps s₀ (doLvlClrDeassert s) := by
  unfold doLvlClrDeassert
  repeat' first
    | with_reducible exact Keeps.refl _ | with_reducible assumption
    | (extract_lets +onlyGivenNames x; refine Keeps.cut (x := x) ?_ ?_ <;> [subst x; (intro; rename' x => y)])
    | (extract_lets +onlyGivenNames x; subst x; try beta_reduce) | (simp -zeta only [↓Keeps.lit])
    | with_reducible apply State.setFlag_keeps | with_reducible apply State.applyLevel_keeps
    | with_reducible apply Keeps.foldl | split | (intro)

theorem doPmuCfgWrite_keeps {ch : Fin 1024} {v : Word} {measured : BitVec 16} {s₀ s : State} (kp : Keeps s₀ s) : Keeps s₀
    (doPmuCfgWrite ch v measured s) := by
  unfold doPmuCfgWrite
  repeat' first
    | with_reducible exact Keeps.refl _ | with_reducible assumption | with_reducible apply State.pmuCfg_keeps
    | with_reducible apply State.writeRow_keeps | (intro)

theorem doSntCfgWrite_keeps {n : Fin 64} {v : Word} {s₀ s : State} (kp : Keeps s₀ s) : Keeps s₀ (doSntCfgWrite n v s) := by
  unfold doSntCfgWrite
  repeat' first
    | with_reducible exact Keeps.refl _ | with_reducible assumption | with_reducible apply State.sntCfg_keeps
    | with_reducible apply State.writeRow_keeps | (intro)

theorem State.sntViolate_keeps {s₀ s : State} {n : Nat} {inj : Bool} (kp : Keeps s₀ s) : Keeps s₀ (State.sntViolate s n inj)
    := by
  unfold State.sntViolate
  repeat' first
    | with_reducible exact Keeps.refl _ | with_reducible assumption
    | (extract_lets +onlyGivenNames x; refine Keeps.cut (x := x) ?_ ?_ <;> [subst x; (intro; rename' x => y)])
    | (extract_lets +onlyGivenNames x; subst x; try beta_reduce) | (simp -zeta only [↓Keeps.lit])
    | with_reducible apply State.setFlag_keeps | with_reducible apply State.modSnt_keeps
    | with_reducible apply State.dseDrop_keeps | with_reducible apply State.safety_keeps
    | with_reducible apply State.endSteps_keeps | split | (intro)

theorem doSentinelViolation_keeps {n : Fin 64} {s₀ s : State} (kp : Keeps s₀ s) : Keeps s₀ (doSentinelViolation n s) := by
  unfold doSentinelViolation
  repeat' first
    | with_reducible exact Keeps.refl _ | with_reducible assumption
    | (extract_lets +onlyGivenNames x; refine Keeps.cut (x := x) ?_ ?_ <;> [subst x; (intro; rename' x => y)])
    | (extract_lets +onlyGivenNames x; subst x; try beta_reduce) | with_reducible apply State.sntViolate_keeps | split

theorem doSentinelWindowCrossing_keeps {n : Fin 64} {volt : Int} {s₀ s : State} (kp : Keeps s₀ s) : Keeps s₀
    (doSentinelWindowCrossing n volt s) := by
  unfold doSentinelWindowCrossing
  repeat' first
    | with_reducible exact Keeps.refl _ | with_reducible assumption
    | (extract_lets +onlyGivenNames x; refine Keeps.cut (x := x) ?_ ?_ <;> [subst x; (intro; rename' x => y)])
    | (extract_lets +onlyGivenNames x; subst x; try beta_reduce) | (simp -zeta only [↓Keeps.lit])
    | with_reducible apply State.modSnt_keeps | with_reducible apply State.sntSync_keeps | split | (intro)

theorem State.retestEvent_keeps {s₀ s : State} {kind unit : Nat} {failed : Bool} (kp : Keeps s₀ s) : Keeps s₀
    (State.retestEvent s kind unit failed) := by
  unfold State.retestEvent
  repeat' first
    | with_reducible exact Keeps.refl _ | with_reducible assumption | with_reducible apply State.chipEvent_keeps

theorem doSentinelSelfCheck_keeps {n : Fin 64} {ok : Bool} {s₀ s : State} (kp : Keeps s₀ s) : Keeps s₀ (doSentinelSelfCheck n
    ok s) := by
  unfold doSentinelSelfCheck
  repeat' first
    | with_reducible exact Keeps.refl _ | with_reducible assumption
    | (extract_lets +onlyGivenNames x; refine Keeps.cut (x := x) ?_ ?_ <;> [subst x; (intro; rename' x => y)])
    | (extract_lets +onlyGivenNames x; subst x; try beta_reduce) | (simp -zeta only [↓Keeps.lit])
    | with_reducible apply State.setFlag_keeps | with_reducible apply State.faultRaise_keeps
    | with_reducible apply State.fenceSnt_keeps | with_reducible apply State.fenceDone_keeps
    | with_reducible apply State.unfence_keeps | with_reducible apply State.retestEvent_keeps | split

theorem State.askFence_keeps {s₀ s : State} {kind unit : Nat} {op : Option Nat} (kp : Keeps s₀ s) : Keeps s₀ (State.askFence s
    kind unit op) := by
  unfold State.askFence
  repeat' first
    | with_reducible exact Keeps.refl _ | with_reducible assumption
    | (extract_lets +onlyGivenNames x; refine Keeps.cut (x := x) ?_ ?_ <;> [subst x; (intro; rename' x => y)])
    | (extract_lets +onlyGivenNames x; subst x; try beta_reduce) | (simp -zeta only [↓Keeps.lit])
    | with_reducible apply State.setFlag_keeps | with_reducible apply State.fenceApply_keeps
    | with_reducible apply State.boundary_keeps | split

theorem State.askLane_keeps {s₀ s : State} {q : Req} {unit : Nat} (kp : Keeps s₀ s) : Keeps s₀ (State.askLane s q unit) := by
  unfold State.askLane
  repeat' first
    | with_reducible exact Keeps.refl _ | with_reducible assumption
    | (extract_lets +onlyGivenNames x; refine Keeps.cut (x := x) ?_ ?_ <;> [subst x; (intro; rename' x => y)])
    | (extract_lets +onlyGivenNames x; subst x; try beta_reduce) | (simp -zeta only [↓Keeps.lit])
    | with_reducible apply State.fail_keeps | with_reducible apply State.complete_keeps
    | with_reducible apply State.start_keeps | with_reducible apply State.modLink_keeps
    | with_reducible apply State.enterRetrain_keeps | with_reducible apply State.fenceLane_keeps | split | (intro)

theorem doFence_keeps {q : Req} {s₀ s : State} (kp : Keeps s₀ s) : Keeps s₀ (doFence q s) := by
  unfold doFence
  repeat' first
    | with_reducible exact Keeps.refl _ | with_reducible assumption
    | (extract_lets +onlyGivenNames x; refine Keeps.cut (x := x) ?_ ?_ <;> [subst x; (intro; rename' x => y)])
    | (extract_lets +onlyGivenNames x; subst x; try beta_reduce) | with_reducible apply State.fail_keeps
    | with_reducible apply State.complete_keeps | with_reducible apply State.start_keeps
    | with_reducible apply State.request_keeps | with_reducible apply State.askFence_keeps
    | with_reducible apply State.askLane_keeps | split | (intro)

theorem State.clearFence_keeps {s₀ s : State} {kind unit : Nat} (kp : Keeps s₀ s) : Keeps s₀ (State.clearFence s kind unit) :=
    by
  unfold State.clearFence
  repeat' first
    | with_reducible exact Keeps.refl _ | with_reducible assumption
    | (extract_lets +onlyGivenNames x; refine Keeps.cut (x := x) ?_ ?_ <;> [subst x; (intro; rename' x => y)])
    | (extract_lets +onlyGivenNames x; subst x; try beta_reduce) | (simp -zeta only [↓Keeps.lit])
    | with_reducible apply State.setFlag_keeps | with_reducible apply State.boundary_keeps | split | (intro)

theorem State.fenceMask_keeps {s₀ s : State} {w : FenceWord} {v : Word} (kp : Keeps s₀ s) : Keeps s₀ (State.fenceMask s w v)
    := by
  unfold State.fenceMask
  repeat' first
    | with_reducible exact Keeps.refl _ | with_reducible assumption
    | (extract_lets +onlyGivenNames x; refine Keeps.cut (x := x) ?_ ?_ <;> [subst x; (intro; rename' x => y)])
    | (extract_lets +onlyGivenNames x; subst x; try beta_reduce) | with_reducible apply State.askFence_keeps
    | with_reducible apply State.clearFence_keeps | with_reducible apply Keeps.foldl | split | (intro)

theorem doFenceMaskWrite_keeps {w : FenceWord} {v : Word} {s₀ s : State} (kp : Keeps s₀ s) : Keeps s₀ (doFenceMaskWrite w v s)
    := by
  unfold doFenceMaskWrite
  repeat' first
    | with_reducible exact Keeps.refl _ | with_reducible assumption | with_reducible apply State.answered_keeps
    | with_reducible apply State.fenceMask_keeps

theorem State.retestFailed_keeps {s₀ s : State} {ch : Nat} (kp : Keeps s₀ s) : Keeps s₀ (State.retestFailed s ch) := by
  unfold State.retestFailed
  repeat' first
    | with_reducible exact Keeps.refl _ | with_reducible assumption
    | (extract_lets +onlyGivenNames x; refine Keeps.cut (x := x) ?_ ?_ <;> [subst x; (intro; rename' x => y)])
    | (extract_lets +onlyGivenNames x; subst x; try beta_reduce) | (simp -zeta only [↓Keeps.lit])
    | with_reducible apply State.setFlag_keeps | with_reducible apply State.fenceNote_keeps
    | with_reducible apply State.fenceChan_keeps | split

theorem doChannelRetestDone_keeps {ch : Fin 1024} {passed : Bool} {s₀ s : State} (kp : Keeps s₀ s) : Keeps s₀
    (doChannelRetestDone ch passed s) := by
  unfold doChannelRetestDone
  repeat' first
    | with_reducible exact Keeps.refl _ | with_reducible assumption
    | (extract_lets +onlyGivenNames x; refine Keeps.cut (x := x) ?_ ?_ <;> [subst x; (intro; rename' x => y)])
    | (extract_lets +onlyGivenNames x; subst x; try beta_reduce) | (simp -zeta only [↓Keeps.lit])
    | with_reducible apply State.modChan_keeps | with_reducible apply State.unfence_keeps
    | with_reducible apply State.boundary_keeps | with_reducible apply State.retestEvent_keeps
    | with_reducible apply State.retestFailed_keeps | split | (intro)

theorem doSf3Release_keeps {s₀ s : State} (kp : Keeps s₀ s) : Keeps s₀ (doSf3Release s) := by
  unfold doSf3Release
  repeat' first
    | with_reducible exact Keeps.refl _ | with_reducible assumption | with_reducible apply State.setFlag_keeps | split
    | (intro)

theorem State.syncMigrating_keeps {s₀ s : State} (kp : Keeps s₀ s) : Keeps s₀ (State.syncMigrating s) := by
  unfold State.syncMigrating
  repeat' first
    | with_reducible exact Keeps.refl _ | with_reducible assumption | with_reducible apply State.setFlag_keeps | (intro)

theorem State.targetFailed_keeps {s₀ s : State} {t cause : Nat} (kp : Keeps s₀ s) : Keeps s₀ (State.targetFailed s t cause) :=
    by
  unfold State.targetFailed
  repeat' first
    | with_reducible exact Keeps.refl _ | with_reducible assumption
    | (extract_lets +onlyGivenNames x; refine Keeps.cut (x := x) ?_ ?_ <;> [subst x; (intro; rename' x => y)])
    | (extract_lets +onlyGivenNames x; subst x; try beta_reduce) | (simp -zeta only [↓Keeps.lit])
    | with_reducible apply State.fset_keeps | with_reducible apply State.setFlag_keeps
    | with_reducible apply State.modTile_keeps | with_reducible apply State.complete_keeps
    | with_reducible apply State.setSpare_keeps | with_reducible apply State.fenceCore_keeps
    | with_reducible apply State.boundary_keeps | with_reducible apply State.syncMigrating_keeps
    | with_reducible apply Keeps.foldl | split | (intro)

theorem State.permanent_keeps {s₀ s : State} {c : Nat} {inj : Bool} (kp : Keeps s₀ s) : Keeps s₀ (State.permanent s c inj) :=
    by
  unfold State.permanent
  repeat' first
    | with_reducible exact Keeps.refl _ | with_reducible assumption
    | (extract_lets +onlyGivenNames x; refine Keeps.cut (x := x) ?_ ?_ <;> [subst x; (intro; rename' x => y)])
    | (extract_lets +onlyGivenNames x; subst x; try beta_reduce) | (simp -zeta only [↓Keeps.lit])
    | with_reducible apply State.setFlag_keeps | with_reducible apply State.fenceCore_keeps
    | with_reducible apply State.decideCalving_keeps | with_reducible apply State.boundary_keeps
    | with_reducible apply State.targetFailed_keeps | split | (intro)

theorem State.coreEnds_keeps {s₀ s : State} {c : Nat} {inj : Bool} (kp : Keeps s₀ s) : Keeps s₀ (State.coreEnds s c inj) := by
  unfold State.coreEnds
  repeat' first
    | with_reducible exact Keeps.refl _ | with_reducible assumption
    | (extract_lets +onlyGivenNames x; refine Keeps.cut (x := x) ?_ ?_ <;> [subst x; (intro; rename' x => y)])
    | (extract_lets +onlyGivenNames x; subst x; try beta_reduce) | with_reducible apply State.suspectFlag_keeps
    | with_reducible apply State.endStep_keeps | split

theorem State.coreSource_keeps {s₀ s : State} {c src : Nat} {inj : Bool} {also : List (Nat × Nat)} (kp : Keeps s₀ s) : Keeps
    s₀ (State.coreSource s c src inj also) := by
  unfold State.coreSource
  repeat' first
    | with_reducible exact Keeps.refl _ | with_reducible assumption
    | (extract_lets +onlyGivenNames x; refine Keeps.cut (x := x) ?_ ?_ <;> [subst x; (intro; rename' x => y)])
    | (extract_lets +onlyGivenNames x; subst x; try beta_reduce) | (simp -zeta only [↓Keeps.lit])
    | with_reducible apply State.setFlag_keeps | with_reducible apply State.safetyNote_keeps
    | with_reducible apply State.boundary_keeps | with_reducible apply State.raises_keeps
    | with_reducible apply State.permanent_keeps | with_reducible apply State.coreEnds_keeps | split | (intro)

theorem State.mergeError_keeps {s₀ s : State} {c : Nat} {inj : Bool} (kp : Keeps s₀ s) : Keeps s₀ (State.mergeError s c inj)
    := by
  unfold State.mergeError
  repeat' first
    | with_reducible exact Keeps.refl _ | with_reducible assumption | with_reducible apply State.safety_keeps
    | with_reducible apply State.coreEnds_keeps | split

theorem State.spareChecked_keeps {s₀ s : State} {l : List Nat} (kp : Keeps s₀ s) : Keeps s₀ (State.spareChecked s l) := by
  unfold State.spareChecked
  repeat' first
    | with_reducible exact Keeps.refl _ | with_reducible assumption | (simp -zeta only [↓Keeps.lit])
    | with_reducible apply Keeps.foldl | (intro)

theorem State.syncTrans_keeps {s₀ s : State} {c : Nat} (kp : Keeps s₀ s) : Keeps s₀ (State.syncTrans s c) := by
  unfold State.syncTrans
  repeat' first
    | with_reducible exact Keeps.refl _ | with_reducible assumption | with_reducible apply State.fset_keeps

theorem State.tileRetested_keeps {s₀ s : State} {t c : Nat} {bad : Bool} (kp : Keeps s₀ s) : Keeps s₀ (State.tileRetested s t
    c bad) := by
  unfold State.tileRetested
  repeat' first
    | with_reducible exact Keeps.refl _ | with_reducible assumption
    | (extract_lets +onlyGivenNames x; refine Keeps.cut (x := x) ?_ ?_ <;> [subst x; (intro; rename' x => y)])
    | (extract_lets +onlyGivenNames x; subst x; try beta_reduce) | (simp -zeta only [↓Keeps.lit])
    | with_reducible apply State.setFlag_keeps | with_reducible apply State.fenceNote_keeps
    | with_reducible apply State.fenceCore_keeps | with_reducible apply State.unfence_keeps
    | with_reducible apply State.raise_keeps | with_reducible apply State.retestEvent_keeps | split | (intro)

theorem doCoreRetestDone_keeps {c : Fin 68} {passed : Bool} {s₀ s : State} (kp : Keeps s₀ s) : Keeps s₀ (doCoreRetestDone c
    passed s) := by
  unfold doCoreRetestDone
  repeat' first
    | with_reducible exact Keeps.refl _ | with_reducible assumption
    | (extract_lets +onlyGivenNames x; refine Keeps.cut (x := x) ?_ ?_ <;> [subst x; (intro; rename' x => y)])
    | (extract_lets +onlyGivenNames x; subst x; try beta_reduce) | (simp -zeta only [↓Keeps.lit])
    | with_reducible apply State.fset_keeps | with_reducible apply State.setFlag_keeps
    | with_reducible apply State.setSpare_keeps | with_reducible apply State.boundary_keeps
    | with_reducible apply State.raise_keeps | with_reducible apply State.retestEvent_keeps
    | with_reducible apply State.permanent_keeps | with_reducible apply State.spareChecked_keeps
    | with_reducible apply State.syncTrans_keeps | with_reducible apply State.tileRetested_keeps | split | (intro)

theorem doTargetCheckDone_keeps {t : Fin 64} {passed : Bool} {s₀ s : State} (kp : Keeps s₀ s) : Keeps s₀ (doTargetCheckDone t
    passed s) := by
  unfold doTargetCheckDone
  repeat' first
    | with_reducible exact Keeps.refl _ | with_reducible assumption | (simp -zeta only [↓Keeps.lit])
    | with_reducible apply State.modTile_keeps | with_reducible apply State.targetFailed_keeps | split | (intro)

theorem doMigrationStart_keeps {t : Fin 64} {s₀ s : State} (kp : Keeps s₀ s) : Keeps s₀ (doMigrationStart t s) := by
  unfold doMigrationStart
  repeat' first
    | with_reducible exact Keeps.refl _ | with_reducible assumption
    | (extract_lets +onlyGivenNames x; refine Keeps.cut (x := x) ?_ ?_ <;> [subst x; (intro; rename' x => y)])
    | (extract_lets +onlyGivenNames x; subst x; try beta_reduce) | (simp -zeta only [↓Keeps.lit])
    | with_reducible apply State.modTile_keeps | with_reducible apply State.syncMigrating_keeps | split | (intro)

theorem State.eccMove_keeps {s₀ s : State} {t old new : Nat} (kp : Keeps s₀ s) : Keeps s₀ (State.eccMove s t old new) := by
  unfold State.eccMove
  repeat' first
    | with_reducible exact Keeps.refl _ | with_reducible assumption
    | (extract_lets +onlyGivenNames x; refine Keeps.cut (x := x) ?_ ?_ <;> [subst x; (intro; rename' x => y)])
    | (extract_lets +onlyGivenNames x; subst x; try beta_reduce) | (simp -zeta only [↓Keeps.lit]) | split | (intro)

theorem doMigrationComplete_keeps {t : Fin 64} {ns : Word} {s₀ s : State} (kp : Keeps s₀ s) : Keeps s₀ (doMigrationComplete t
    ns s) := by
  unfold doMigrationComplete
  repeat' first
    | with_reducible exact Keeps.refl _ | with_reducible assumption
    | (extract_lets +onlyGivenNames x; refine Keeps.cut (x := x) ?_ ?_ <;> [subst x; (intro; rename' x => y)])
    | (extract_lets +onlyGivenNames x; subst x; try beta_reduce) | (simp -zeta only [↓Keeps.lit])
    | with_reducible apply State.rset_keeps | with_reducible apply State.fset_keeps | with_reducible apply State.setFlag_keeps
    | with_reducible apply State.count_keeps | with_reducible apply State.modTile_keeps
    | with_reducible apply State.chipEvent_keeps | with_reducible apply State.complete_keeps
    | with_reducible apply State.stage_keeps | with_reducible apply State.lend_keeps
    | with_reducible apply State.fenceCore_keeps | with_reducible apply State.boundary_keeps
    | with_reducible apply State.syncMigrating_keeps | with_reducible apply State.permanent_keeps
    | with_reducible apply State.eccMove_keeps | with_reducible apply Keeps.foldl | split | (intro)

theorem doCalve_keeps {q : Req} {s₀ s : State} (kp : Keeps s₀ s) : Keeps s₀ (doCalve q s) := by
  unfold doCalve
  repeat' first
    | with_reducible exact Keeps.refl _ | with_reducible assumption
    | (extract_lets +onlyGivenNames x; refine Keeps.cut (x := x) ?_ ?_ <;> [subst x; (intro; rename' x => y)])
    | (extract_lets +onlyGivenNames x; subst x; try beta_reduce) | with_reducible apply State.fail_keeps
    | with_reducible apply State.start_keeps | with_reducible apply State.request_keeps
    | with_reducible apply State.decideCalving_keeps | split | (intro)

theorem doSpareCoreCheck_keeps {c : Fin 68} {passed : Bool} {s₀ s : State} (kp : Keeps s₀ s) : Keeps s₀ (doSpareCoreCheck c
    passed s) := by
  unfold doSpareCoreCheck
  repeat' first
    | with_reducible exact Keeps.refl _ | with_reducible assumption
    | (extract_lets +onlyGivenNames x; refine Keeps.cut (x := x) ?_ ?_ <;> [subst x; (intro; rename' x => y)])
    | (extract_lets +onlyGivenNames x; subst x; try beta_reduce) | with_reducible apply State.fenceCore_keeps
    | with_reducible apply State.spareChecked_keeps | split

theorem State.logEntry_keeps {s₀ s : State} {kind unit : Nat} (kp : Keeps s₀ s) : Keeps s₀ (State.logEntry s kind unit) := by
  unfold State.logEntry
  repeat' first
    | with_reducible exact Keeps.refl _ | with_reducible assumption
    | (extract_lets +onlyGivenNames x; refine Keeps.cut (x := x) ?_ ?_ <;> [subst x; (intro; rename' x => y)])
    | (extract_lets +onlyGivenNames x; subst x; try beta_reduce) | with_reducible apply State.rset_keeps
    | with_reducible apply State.fset_keeps | with_reducible apply State.setFlag_keeps | split

theorem doRepairLogWrite_keeps {s₀ s : State} (kp : Keeps s₀ s) : Keeps s₀ (doRepairLogWrite s) := by
  unfold doRepairLogWrite
  repeat' first
    | with_reducible exact Keeps.refl _ | with_reducible assumption | (simp -zeta only [↓Keeps.lit])
    | with_reducible apply State.logEntry_keeps | with_reducible apply Keeps.foldl | split | (intro)

end Sys2Proof.Machine
end

