-- ==== Sys2Proof/Laws/KeepsHealth.lean ====
section
/-! SUPPORT. Fencing, repair, memory, power and thermal commands keep the relation of Keeps.lean. -/

namespace Sys2Proof.Machine

theorem State.eccNote_keeps {s₀ s : State} {w : Nat × Nat} (kp : Keeps s₀ s) : Keeps s₀ (State.eccNote s w) := by
  unfold State.eccNote
  repeat' first
    | with_reducible exact Keeps.refl _ | with_reducible assumption
    | (extract_lets +onlyGivenNames x; refine Keeps.cut (x := x) ?_ ?_ <;> [subst x; (intro; rename' x => y)])
    | (extract_lets +onlyGivenNames x; subst x; try beta_reduce) | with_reducible apply State.rset_keeps
    | with_reducible apply State.count_keeps | with_reducible apply State.evCount_keeps | split

theorem State.eccMeet_keeps {s₀ s : State} {w : (Nat × Nat) × Bool} (kp : Keeps s₀ s) : Keeps s₀ (State.eccMeet s w) := by
  unfold State.eccMeet
  repeat' first
    | with_reducible exact Keeps.refl _ | with_reducible assumption | with_reducible apply State.raise_keeps
    | with_reducible apply State.eccNote_keeps

theorem doCoreFault_keeps {c : Fin 68} {x : CoreSource} {inj : Bool} {s₀ s : State} (kp : Keeps s₀ s) : Keeps s₀ (doCoreFault
    c x inj s) := by
  unfold doCoreFault
  repeat' first
    | with_reducible exact Keeps.refl _ | with_reducible assumption
    | (extract_lets +onlyGivenNames x; refine Keeps.cut (x := x) ?_ ?_ <;> [subst x; (intro; rename' x => y)])
    | (extract_lets +onlyGivenNames x; subst x; try beta_reduce) | (simp -zeta only [↓Keeps.lit])
    | with_reducible apply State.merge_keeps | with_reducible apply State.coreSource_keeps
    | with_reducible apply State.mergeError_keeps | with_reducible apply State.eccNote_keeps | split

theorem doMemRead_keeps {q : Req} {s₀ s : State} (kp : Keeps s₀ s) : Keeps s₀ (doMemRead q s) := by
  unfold doMemRead
  repeat' first
    | with_reducible exact Keeps.refl _ | with_reducible assumption
    | (extract_lets +onlyGivenNames x; refine Keeps.cut (x := x) ?_ ?_ <;> [subst x; (intro; rename' x => y)])
    | (extract_lets +onlyGivenNames x; subst x; try beta_reduce) | with_reducible apply State.reply_keeps
    | with_reducible apply State.fail_keeps | with_reducible apply State.request_keeps
    | with_reducible apply State.eccMeet_keeps | split | (intro)

theorem doMemWrite_keeps {q : Req} {s₀ s : State} (kp : Keeps s₀ s) : Keeps s₀ (doMemWrite q s) := by
  unfold doMemWrite
  repeat' first
    | with_reducible exact Keeps.refl _ | with_reducible assumption
    | (extract_lets +onlyGivenNames x; refine Keeps.cut (x := x) ?_ ?_ <;> [subst x; (intro; rename' x => y)])
    | (extract_lets +onlyGivenNames x; subst x; try beta_reduce) | (simp -zeta only [↓Keeps.lit])
    | with_reducible apply State.fail_keeps | with_reducible apply State.request_keeps
    | with_reducible apply State.writeBegin_keeps | split | (intro)

theorem State.noSpare_keeps {s₀ s : State} {p : DefectAt} {inj : Bool} (kp : Keeps s₀ s) : Keeps s₀ (State.noSpare s p inj) :=
    by
  unfold State.noSpare
  repeat' first
    | with_reducible exact Keeps.refl _ | with_reducible assumption
    | (extract_lets +onlyGivenNames x; refine Keeps.cut (x := x) ?_ ?_ <;> [subst x; (intro; rename' x => y)])
    | (extract_lets +onlyGivenNames x; subst x; try beta_reduce) | (simp -zeta only [↓Keeps.lit])
    | with_reducible apply State.setFlag_keeps | with_reducible apply State.free_keeps
    | (refine State.free_keepsEq (by with_reducible assumption) ?_) | with_reducible apply State.fenceBank_keeps
    | with_reducible apply State.raises_keeps | with_reducible apply State.raise_keeps
    | with_reducible apply State.coreSource_keeps | split

theorem State.takeSpare_keeps {s₀ s : State} {d : Defect} (kp : Keeps s₀ s) : Keeps s₀ (State.takeSpare s d) := by
  unfold State.takeSpare
  repeat' first
    | with_reducible exact Keeps.refl _ | with_reducible assumption
    | (extract_lets +onlyGivenNames x; refine Keeps.cut (x := x) ?_ ?_ <;> [subst x; (intro; rename' x => y)])
    | (extract_lets +onlyGivenNames x; subst x; try beta_reduce) | (simp -zeta only [↓Keeps.lit]) | split

theorem State.defect_keeps {s₀ s : State} {d : Defect} (kp : Keeps s₀ s) : Keeps s₀ (State.defect s d) := by
  unfold State.defect
  repeat' first
    | with_reducible exact Keeps.refl _ | with_reducible assumption
    | (extract_lets +onlyGivenNames x; refine Keeps.cut (x := x) ?_ ?_ <;> [subst x; (intro; rename' x => y)])
    | (extract_lets +onlyGivenNames x; subst x; try beta_reduce) | with_reducible apply State.fset_keeps
    | with_reducible apply State.count_keeps | with_reducible apply State.evCount_keeps
    | with_reducible apply State.boundary_keeps | with_reducible apply State.noSpare_keeps
    | with_reducible apply State.takeSpare_keeps | split

theorem State.correct_keeps {s₀ s : State} {l : List (Nat × Nat)} (kp : Keeps s₀ s) : Keeps s₀ (State.correct s l) := by
  unfold State.correct
  repeat' first
    | with_reducible exact Keeps.refl _ | with_reducible assumption
    | (extract_lets +onlyGivenNames x; refine Keeps.cut (x := x) ?_ ?_ <;> [subst x; (intro; rename' x => y)])
    | (extract_lets +onlyGivenNames x; subst x; try beta_reduce) | (simp -zeta only [↓Keeps.lit])
    | with_reducible apply State.count_keeps | with_reducible apply State.evCount_keeps | with_reducible apply Keeps.foldl
    | split | (intro)

theorem State.btAdvance_keeps {s₀ s : State} (kp : Keeps s₀ s) : Keeps s₀ (State.btAdvance s) := by
  unfold State.btAdvance
  repeat' first
    | with_reducible exact Keeps.refl _ | with_reducible assumption
    | (extract_lets +onlyGivenNames x; refine Keeps.cut (x := x) ?_ ?_ <;> [subst x; (intro; rename' x => y)])
    | (extract_lets +onlyGivenNames x; subst x; try beta_reduce) | (simp -zeta only [↓Keeps.lit])
    | with_reducible apply State.fset_keeps | with_reducible apply State.count_keeps | split

theorem doSoftRepairPersist_keeps {s₀ s : State} (kp : Keeps s₀ s) : Keeps s₀ (doSoftRepairPersist s) := by
  unfold doSoftRepairPersist
  repeat' first
    | with_reducible exact Keeps.refl _ | with_reducible assumption | with_reducible apply State.persistRepairs_keeps | split

theorem State.supersede_keeps {s₀ s : State} {t : Nat} (kp : Keeps s₀ s) : Keeps s₀ (State.supersede s t) := by
  unfold State.supersede
  repeat' first
    | with_reducible exact Keeps.refl _ | with_reducible assumption
    | (extract_lets +onlyGivenNames x; refine Keeps.cut (x := x) ?_ ?_ <;> [subst x; (intro; rename' x => y)])
    | (extract_lets +onlyGivenNames x; subst x; try beta_reduce) | (simp -zeta only [↓Keeps.lit])
    | with_reducible apply State.modTile_keeps | with_reducible apply State.pwrResolve_keeps
    | with_reducible apply Keeps.foldl | split | (intro)

theorem State.askPower_keeps {s₀ s : State} {t : Nat} {r : PwrReq} (kp : Keeps s₀ s) : Keeps s₀ (State.askPower s t r) := by
  unfold State.askPower
  repeat' first
    | with_reducible exact Keeps.refl _ | with_reducible assumption
    | (extract_lets +onlyGivenNames x; refine Keeps.cut (x := x) ?_ ?_ <;> [subst x; (intro; rename' x => y)])
    | (extract_lets +onlyGivenNames x; subst x; try beta_reduce) | (simp -zeta only [↓Keeps.lit])
    | with_reducible apply State.modTile_keeps | with_reducible apply State.syncPwr_keeps
    | with_reducible apply State.setThaw_keeps | with_reducible apply State.supersede_keeps | split | (intro)

theorem doPowerState_keeps {q : Req} {s₀ s : State} (kp : Keeps s₀ s) : Keeps s₀ (doPowerState q s) := by
  unfold doPowerState
  repeat' first
    | with_reducible exact Keeps.refl _ | with_reducible assumption
    | (extract_lets +onlyGivenNames x; refine Keeps.cut (x := x) ?_ ?_ <;> [subst x; (intro; rename' x => y)])
    | (extract_lets +onlyGivenNames x; subst x; try beta_reduce) | (simp -zeta only [↓Keeps.lit])
    | with_reducible apply State.fail_keeps | with_reducible apply State.start_keeps
    | with_reducible apply State.request_keeps | with_reducible apply State.boundary_keeps
    | with_reducible apply State.askPower_keeps | with_reducible apply Keeps.foldl | split | (intro)

theorem State.eraseStores_keeps {s₀ s : State} {t : Nat} (kp : Keeps s₀ s) : Keeps s₀ (State.eraseStores s t) := by
  unfold State.eraseStores
  repeat' first
    | with_reducible exact Keeps.refl _ | with_reducible assumption
    | (extract_lets +onlyGivenNames x; refine Keeps.cut (x := x) ?_ ?_ <;> [subst x; (intro; rename' x => y)])
    | (extract_lets +onlyGivenNames x; subst x; try beta_reduce) | (simp -zeta only [↓Keeps.lit])
    | with_reducible apply State.eraseSpace_keeps | with_reducible apply Keeps.foldl | (intro)

theorem State.offReset_keeps {s₀ s : State} {t : Nat} (kp : Keeps s₀ s) : Keeps s₀ (State.offReset s t) := by
  unfold State.offReset
  repeat' first
    | with_reducible exact Keeps.refl _ | with_reducible assumption
    | (extract_lets +onlyGivenNames x; refine Keeps.cut (x := x) ?_ ?_ <;> [subst x; (intro; rename' x => y)])
    | (extract_lets +onlyGivenNames x; subst x; try beta_reduce) | (simp -zeta only [↓Keeps.lit])
    | with_reducible apply State.setFlag_keeps | with_reducible apply State.resetRegs_keeps
    | with_reducible apply State.modTile_keeps | with_reducible apply State.setChan_keeps
    | with_reducible apply State.eraseStores_keeps | with_reducible apply Keeps.foldl | (intro)

theorem State.enterOff_keeps {s₀ s : State} {t : Nat} (kp : Keeps s₀ s) : Keeps s₀ (State.enterOff s t) := by
  unfold State.enterOff
  repeat' first
    | with_reducible exact Keeps.refl _ | with_reducible assumption | with_reducible apply State.bundleRemove_keeps
    | with_reducible apply State.offReset_keeps | split

theorem State.leaveOff_keeps {s₀ s : State} {t : Nat} (kp : Keeps s₀ s) : Keeps s₀ (State.leaveOff s t) := by
  unfold State.leaveOff
  repeat' first
    | with_reducible exact Keeps.refl _ | with_reducible assumption
    | (extract_lets +onlyGivenNames x; refine Keeps.cut (x := x) ?_ ?_ <;> [subst x; (intro; rename' x => y)])
    | (extract_lets +onlyGivenNames x; subst x; try beta_reduce) | with_reducible apply State.applySafe_keeps
    | with_reducible apply State.offReset_keeps | with_reducible apply Keeps.foldl | split | (intro)

theorem State.enterDormant_keeps {s₀ s : State} {t : Nat} (kp : Keeps s₀ s) : Keeps s₀ (State.enterDormant s t) := by
  unfold State.enterDormant
  repeat' first
    | with_reducible exact Keeps.refl _ | with_reducible assumption | (simp -zeta only [↓Keeps.lit])
    | with_reducible apply State.setFlag_keeps | with_reducible apply State.modChan_keeps
    | with_reducible apply State.setKnown_keeps | with_reducible apply Keeps.foldl | (intro)

theorem State.wakeComparators_keeps {s₀ s : State} {t : Nat} (kp : Keeps s₀ s) : Keeps s₀ (State.wakeComparators s t) := by
  unfold State.wakeComparators
  repeat' first
    | with_reducible exact Keeps.refl _ | with_reducible assumption
    | (extract_lets +onlyGivenNames x; refine Keeps.cut (x := x) ?_ ?_ <;> [subst x; (intro; rename' x => y)])
    | (extract_lets +onlyGivenNames x; subst x; try beta_reduce) | (simp -zeta only [↓Keeps.lit])
    | with_reducible apply State.modChan_keeps | with_reducible apply State.free_keeps
    | (refine State.free_keepsEq (by with_reducible assumption) ?_) | with_reducible apply State.setKnown_keeps
    | with_reducible apply Keeps.foldl | split | (intro)

theorem State.thawFailed_keeps {s₀ s : State} {t : Nat} {r : PwrReq} (kp : Keeps s₀ s) : Keeps s₀ (State.thawFailed s t r) :=
    by
  unfold State.thawFailed
  repeat' first
    | with_reducible exact Keeps.refl _ | with_reducible assumption
    | (extract_lets +onlyGivenNames x; refine Keeps.cut (x := x) ?_ ?_ <;> [subst x; (intro; rename' x => y)])
    | (extract_lets +onlyGivenNames x; subst x; try beta_reduce) | (simp -zeta only [↓Keeps.lit])
    | with_reducible apply State.modTile_keeps | with_reducible apply State.drop_keeps
    | with_reducible apply State.pwrResolve_keeps | with_reducible apply State.syncPwr_keeps
    | with_reducible apply State.boundary_keeps | with_reducible apply State.armFail_keeps
    | with_reducible apply State.coreSource_keeps | split | (intro)

theorem State.thawed_keeps {s₀ s : State} {t : Nat} (kp : Keeps s₀ s) : Keeps s₀ (State.thawed s t) := by
  unfold State.thawed
  repeat' first
    | with_reducible exact Keeps.refl _ | with_reducible assumption
    | (extract_lets +onlyGivenNames x; refine Keeps.cut (x := x) ?_ ?_ <;> [subst x; (intro; rename' x => y)])
    | (extract_lets +onlyGivenNames x; subst x; try beta_reduce) | (simp -zeta only [↓Keeps.lit])
    | with_reducible apply State.modTile_keeps | with_reducible apply State.evCount_keeps
    | with_reducible apply State.eventFor_keeps | split | (intro)

theorem State.arrive_keeps {s₀ s : State} {t new : Nat} (kp : Keeps s₀ s) : Keeps s₀ (State.arrive s t new) := by
  unfold State.arrive
  repeat' first
    | with_reducible exact Keeps.refl _ | with_reducible assumption
    | (extract_lets +onlyGivenNames x; refine Keeps.cut (x := x) ?_ ?_ <;> [subst x; (intro; rename' x => y)])
    | (extract_lets +onlyGivenNames x; subst x; try beta_reduce) | with_reducible apply State.fset_keeps
    | with_reducible apply State.reachTile_keeps | with_reducible apply State.calApply_keeps
    | with_reducible apply State.enterOff_keeps | with_reducible apply State.leaveOff_keeps
    | with_reducible apply State.enterDormant_keeps | with_reducible apply State.wakeComparators_keeps
    | with_reducible apply State.thawed_keeps | split

theorem doPowerTransitionDone_keeps {t : Fin 64} {pllOk : Bool} {s₀ s : State} (kp : Keeps s₀ s) : Keeps s₀
    (doPowerTransitionDone t pllOk s) := by
  unfold doPowerTransitionDone
  repeat' first
    | with_reducible exact Keeps.refl _ | with_reducible assumption
    | (extract_lets +onlyGivenNames x; refine Keeps.cut (x := x) ?_ ?_ <;> [subst x; (intro; rename' x => y)])
    | (extract_lets +onlyGivenNames x; subst x; try beta_reduce) | with_reducible apply State.pwrReached_keeps
    | with_reducible apply State.boundary_keeps | with_reducible apply State.thawFailed_keeps
    | with_reducible apply State.arrive_keeps | split

theorem doScheduledThaw_keeps {t : Fin 64} {s₀ s : State} (kp : Keeps s₀ s) : Keeps s₀ (doScheduledThaw t s) := by
  unfold doScheduledThaw
  repeat' first
    | with_reducible exact Keeps.refl _ | with_reducible assumption
    | (extract_lets +onlyGivenNames x; refine Keeps.cut (x := x) ?_ ?_ <;> [subst x; (intro; rename' x => y)])
    | (extract_lets +onlyGivenNames x; subst x; try beta_reduce) | (simp -zeta only [↓Keeps.lit])
    | with_reducible apply State.modTile_keeps | with_reducible apply State.setThaw_keeps
    | with_reducible apply State.beginThaw_keeps | split | (intro)

theorem State.senseStore_keeps {s₀ s : State} {n : Nat} {x : Sense} (kp : Keeps s₀ s) : Keeps s₀ (State.senseStore s n x) :=
    by
  unfold State.senseStore
  repeat' first
    | with_reducible exact Keeps.refl _ | with_reducible assumption
    | (extract_lets +onlyGivenNames x; refine Keeps.cut (x := x) ?_ ?_ <;> [subst x; (intro; rename' x => y)])
    | (extract_lets +onlyGivenNames x; subst x; try beta_reduce) | (simp -zeta only [↓Keeps.lit])
    | with_reducible apply State.rset_keeps | with_reducible apply State.drop_keeps
    | with_reducible apply State.disagree_keeps | (intro)

theorem State.rateWarn_keeps {s₀ s : State} (kp : Keeps s₀ s) : Keeps s₀ (State.rateWarn s).1 := by
  unfold State.rateWarn
  repeat' first
    | with_reducible exact Keeps.refl _ | with_reducible assumption
    | (extract_lets +onlyGivenNames x; refine Keeps.cut (x := x) ?_ ?_ <;> [subst x; (intro; rename' x => y)])
    | (extract_lets +onlyGivenNames x; subst x; try beta_reduce) | (simp -zeta only [↓Keeps.lit])
    | with_reducible apply State.setFlag_keeps | split | (intro)

theorem State.rateWarn_keepsEq {s₀ s : State} {r2 : Option Nat} {t_ : State} (h : State.rateWarn s = (t_, r2)) (kp : Keeps s₀
    s) : Keeps s₀ t_ := by
  have k := State.rateWarn_keeps (s₀ := s₀) (s := s) kp
  rwa [h] at k

theorem State.sf3_keeps {s₀ s : State} {srcs : List Nat} {also : List (Nat × Nat)} {inj : Bool} (kp : Keeps s₀ s) : Keeps s₀
    (State.sf3 s srcs also inj) := by
  unfold State.sf3
  repeat' first
    | with_reducible exact Keeps.refl _ | with_reducible assumption
    | (extract_lets +onlyGivenNames x; refine Keeps.cut (x := x) ?_ ?_ <;> [subst x; (intro; rename' x => y)])
    | (extract_lets +onlyGivenNames x; subst x; try beta_reduce) | with_reducible apply State.setFlag_keeps
    | with_reducible apply State.chSafe_keeps | with_reducible apply State.dseDrop_keeps
    | with_reducible apply State.safetyNote_keeps | with_reducible apply State.safetyTaint_keeps
    | with_reducible apply State.endSteps_keeps | with_reducible apply State.raises_keeps | with_reducible apply Keeps.foldl
    | split | (intro)

theorem State.sf3Begin_keeps {s₀ s : State} {l : List (Nat × Bool)} (kp : Keeps s₀ s) : Keeps s₀ (State.sf3Begin s l).2 := by
  unfold State.sf3Begin
  repeat' first
    | with_reducible exact Keeps.refl _ | with_reducible assumption
    | (extract_lets +onlyGivenNames x; refine Keeps.cut (x := x) ?_ ?_ <;> [subst x; (intro; rename' x => y)])
    | (extract_lets +onlyGivenNames x; subst x; try beta_reduce) | (simp -zeta only [↓Keeps.lit]) | (intro)

theorem State.sf3Begin_keepsEq {s₀ s : State} {l : List (Nat × Bool)} {r1 : List Nat} {t_ : State} (h : State.sf3Begin s l =
    (r1, t_)) (kp : Keeps s₀ s) : Keeps s₀ t_ := by
  have k := State.sf3Begin_keeps (s₀ := s₀) (s := s) (l := l) kp
  rwa [h] at k

theorem doThermalSample_keeps {readings : List Int} {s₀ s : State} (kp : Keeps s₀ s) : Keeps s₀ (doThermalSample readings s)
    := by
  unfold doThermalSample
  repeat' first
    | with_reducible exact Keeps.refl _ | with_reducible assumption
    | (extract_lets +onlyGivenNames x; refine Keeps.cut (x := x) ?_ ?_ <;> [subst x; (intro; rename' x => y)])
    | (extract_lets +onlyGivenNames x; subst x; try beta_reduce) | (simp -zeta only [↓Keeps.lit])
    | with_reducible apply State.rset_keeps | with_reducible apply State.setFlag_keeps | with_reducible apply State.free_keeps
    | (refine State.free_keepsEq (by with_reducible assumption) ?_) | with_reducible apply State.evCount_keeps
    | with_reducible apply State.chipEvent_keeps | with_reducible apply State.syncStale_keeps
    | with_reducible apply State.raises_keeps | with_reducible apply State.senseStore_keeps
    | with_reducible apply State.rateWarn_keeps | (refine State.rateWarn_keepsEq (by with_reducible assumption) ?_)
    | with_reducible apply State.sf3_keeps | with_reducible apply State.sf3Begin_keeps
    | (refine State.sf3Begin_keepsEq (by with_reducible assumption) ?_) | with_reducible apply Keeps.foldl | split | (intro)

theorem State.throttleTo_keeps {s₀ s : State} {new : Nat} {real : Bool} (kp : Keeps s₀ s) : Keeps s₀ (State.throttleTo s new
    real) := by
  unfold State.throttleTo
  repeat' first
    | with_reducible exact Keeps.refl _ | with_reducible assumption
    | (extract_lets +onlyGivenNames x; refine Keeps.cut (x := x) ?_ ?_ <;> [subst x; (intro; rename' x => y)])
    | (extract_lets +onlyGivenNames x; subst x; try beta_reduce) | with_reducible apply State.fset_keeps
    | with_reducible apply State.evCount_keeps | with_reducible apply State.chipEvent_keeps
    | with_reducible apply State.stage_keeps | with_reducible apply State.syncSusp_keeps | split

theorem State.throttleAbort_keeps {s₀ s : State} {inj : Bool} (kp : Keeps s₀ s) : Keeps s₀ (State.throttleAbort s inj) := by
  unfold State.throttleAbort
  repeat' first
    | with_reducible exact Keeps.refl _ | with_reducible assumption
    | (extract_lets +onlyGivenNames x; refine Keeps.cut (x := x) ?_ ?_ <;> [subst x; (intro; rename' x => y)])
    | (extract_lets +onlyGivenNames x; subst x; try beta_reduce) | with_reducible apply State.setFlag_keeps
    | with_reducible apply State.chipEvent_keeps | with_reducible apply State.suspectFlag_keeps
    | with_reducible apply State.endSteps_keeps | with_reducible apply State.raise_keeps | with_reducible apply Keeps.foldl
    | split | (intro)

theorem doThrottleEvaluation_keeps {milliwatt : Word} {s₀ s : State} (kp : Keeps s₀ s) : Keeps s₀ (doThrottleEvaluation
    milliwatt s) := by
  unfold doThrottleEvaluation
  repeat' first
    | with_reducible exact Keeps.refl _ | with_reducible assumption
    | (extract_lets +onlyGivenNames x; refine Keeps.cut (x := x) ?_ ?_ <;> [subst x; (intro; rename' x => y)])
    | (extract_lets +onlyGivenNames x; subst x; try beta_reduce) | (simp -zeta only [↓Keeps.lit])
    | with_reducible apply State.rset_keeps | with_reducible apply State.fset_keeps | with_reducible apply State.setFlag_keeps
    | with_reducible apply State.evCount_keeps | with_reducible apply State.throttleTo_keeps
    | with_reducible apply State.throttleAbort_keeps | split

theorem State.suspectSince_keeps {s₀ s : State} {t : Nat} {i : Int} (kp : Keeps s₀ s) : Keeps s₀ (State.suspectSince s t i) :=
    by
  unfold State.suspectSince
  repeat' first
    | with_reducible exact Keeps.refl _ | with_reducible assumption
    | (extract_lets +onlyGivenNames x; refine Keeps.cut (x := x) ?_ ?_ <;> [subst x; (intro; rename' x => y)])
    | (extract_lets +onlyGivenNames x; subst x; try beta_reduce) | with_reducible apply State.setFlag_keeps
    | with_reducible apply State.suspectRing_keeps | with_reducible apply Keeps.foldl | split | (intro)

theorem doSupplyExcursionBegin_keeps {rail : Fin 8} {s₀ s : State} (kp : Keeps s₀ s) : Keeps s₀ (doSupplyExcursionBegin rail
    s) := by
  unfold doSupplyExcursionBegin
  repeat' first
    | with_reducible exact Keeps.refl _ | with_reducible assumption
    | (extract_lets +onlyGivenNames x; refine Keeps.cut (x := x) ?_ ?_ <;> [subst x; (intro; rename' x => y)])
    | (extract_lets +onlyGivenNames x; subst x; try beta_reduce) | (simp -zeta only [↓Keeps.lit])
    | with_reducible apply State.rset_keeps | with_reducible apply State.count_keeps
    | with_reducible apply State.evCount_keeps | with_reducible apply State.suspectFlag_keeps
    | with_reducible apply State.suspectAll_keeps | with_reducible apply State.syncWindow_keeps
    | with_reducible apply State.suspectSince_keeps | with_reducible apply Keeps.foldl | split | (intro)

theorem State.excursionEnd_keeps {s₀ s : State} {r : Nat} {b : Int} {ns : Word} {inj : Bool} (kp : Keeps s₀ s) : Keeps s₀
    (State.excursionEnd s r b ns inj) := by
  unfold State.excursionEnd
  repeat' first
    | with_reducible exact Keeps.refl _ | with_reducible assumption
    | (extract_lets +onlyGivenNames x; refine Keeps.cut (x := x) ?_ ?_ <;> [subst x; (intro; rename' x => y)])
    | (extract_lets +onlyGivenNames x; subst x; try beta_reduce) | (simp -zeta only [↓Keeps.lit])
    | with_reducible apply State.rset_keeps | with_reducible apply State.setPair_keeps
    | with_reducible apply State.chipEvent_keeps | with_reducible apply State.stage_keeps
    | with_reducible apply State.syncWindow_keeps | with_reducible apply State.raise_keeps | (intro)

theorem doSupplyExcursionEnd_keeps {rail : Fin 8} {ns : Word} {s₀ s : State} (kp : Keeps s₀ s) : Keeps s₀
    (doSupplyExcursionEnd rail ns s) := by
  unfold doSupplyExcursionEnd
  repeat' first
    | with_reducible exact Keeps.refl _ | with_reducible assumption | with_reducible apply State.excursionEnd_keeps | split

theorem State.controlledStop_keeps {s₀ s : State} {inj : Bool} (kp : Keeps s₀ s) : Keeps s₀ (State.controlledStop s inj) := by
  unfold State.controlledStop
  repeat' first
    | with_reducible exact Keeps.refl _ | with_reducible assumption
    | (extract_lets +onlyGivenNames x; refine Keeps.cut (x := x) ?_ ?_ <;> [subst x; (intro; rename' x => y)])
    | (extract_lets +onlyGivenNames x; subst x; try beta_reduce) | with_reducible apply State.suspectFlag_keeps
    | with_reducible apply State.endSteps_keeps | with_reducible apply State.raise_keeps | with_reducible apply Keeps.foldl
    | split | (intro)

theorem doControlledStop_keeps {rail : Fin 8} {s₀ s : State} (kp : Keeps s₀ s) : Keeps s₀ (doControlledStop rail s) := by
  unfold doControlledStop
  repeat' first
    | with_reducible exact Keeps.refl _ | with_reducible assumption
    | (extract_lets +onlyGivenNames x; refine Keeps.cut (x := x) ?_ ?_ <;> [subst x; (intro; rename' x => y)])
    | (extract_lets +onlyGivenNames x; subst x; try beta_reduce) | (simp -zeta only [↓Keeps.lit])
    | with_reducible apply State.controlledStop_keeps | split

theorem State.tileWrite_keeps {s₀ s : State} {t o : Nat} {d : RegDesc} {v : Word} (kp : Keeps s₀ s) : Keeps s₀
    (State.tileWrite s t o d v) := by
  unfold State.tileWrite
  repeat' first
    | with_reducible exact Keeps.refl _ | with_reducible assumption
    | (extract_lets +onlyGivenNames x; refine Keeps.cut (x := x) ?_ ?_ <;> [subst x; (intro; rename' x => y)])
    | (extract_lets +onlyGivenNames x; subst x; try beta_reduce) | with_reducible apply State.rset_keeps
    | with_reducible apply State.syncPool_keeps | with_reducible apply State.segSync_keeps | split

theorem State.chanWrite_keeps {s₀ s : State} {ch o : Nat} {d : RegDesc} {v : Word} (kp : Keeps s₀ s) : Keeps s₀
    (State.chanWrite s ch o d v) := by
  unfold State.chanWrite
  repeat' first
    | with_reducible exact Keeps.refl _ | with_reducible assumption
    | (extract_lets +onlyGivenNames x; refine Keeps.cut (x := x) ?_ ?_ <;> [subst x; (intro; rename' x => y)])
    | (extract_lets +onlyGivenNames x; subst x; try beta_reduce) | with_reducible apply State.rset_keeps
    | with_reducible apply State.free_keeps | (refine State.free_keepsEq (by with_reducible assumption) ?_)
    | with_reducible apply State.levelCode_keeps | with_reducible apply State.chMode_keeps
    | with_reducible apply State.pmuCfg_keeps | split

theorem State.signable_keeps {s₀ s : State} (kp : Keeps s₀ s) : Keeps s₀ (State.signable s).2 := by
  unfold State.signable
  repeat' first
    | with_reducible exact Keeps.refl _ | with_reducible assumption
    | (extract_lets +onlyGivenNames x; refine Keeps.cut (x := x) ?_ ?_ <;> [subst x; (intro; rename' x => y)])
    | (extract_lets +onlyGivenNames x; subst x; try beta_reduce) | (simp -zeta only [↓Keeps.lit])
    | with_reducible apply State.free_keeps | (refine State.free_keepsEq (by with_reducible assumption) ?_) | split

theorem State.signable_keepsEq {s₀ s : State} {r1 : Bool} {t_ : State} (h : State.signable s = (r1, t_)) (kp : Keeps s₀ s) :
    Keeps s₀ t_ := by
  have k := State.signable_keeps (s₀ := s₀) (s := s) kp
  rwa [h] at k

theorem doAttest_keeps {q : Req} {s₀ s : State} (kp : Keeps s₀ s) : Keeps s₀ (doAttest q s) := by
  unfold doAttest
  repeat' first
    | with_reducible exact Keeps.refl _ | with_reducible assumption
    | (extract_lets +onlyGivenNames x; refine Keeps.cut (x := x) ?_ ?_ <;> [subst x; (intro; rename' x => y)])
    | (extract_lets +onlyGivenNames x; subst x; try beta_reduce) | (simp -zeta only [↓Keeps.lit])
    | with_reducible apply State.fail_keeps | with_reducible apply State.start_keeps
    | with_reducible apply State.request_keeps | split | (intro)

theorem doAttestationSigned_keeps {o : Option OpRef} {s₀ s : State} (kp : Keeps s₀ s) : Keeps s₀ (doAttestationSigned o s) :=
    by
  unfold doAttestationSigned
  repeat' first
    | with_reducible exact Keeps.refl _ | with_reducible assumption
    | (extract_lets +onlyGivenNames x; refine Keeps.cut (x := x) ?_ ?_ <;> [subst x; (intro; rename' x => y)])
    | (extract_lets +onlyGivenNames x; subst x; try beta_reduce) | (simp -zeta only [↓Keeps.lit])
    | with_reducible apply State.count_keeps | with_reducible apply State.complete_keeps
    | with_reducible apply State.record_keeps | with_reducible apply State.drop_keeps
    | with_reducible apply State.finishStep_keeps | with_reducible apply State.signable_keeps
    | (refine State.signable_keepsEq (by with_reducible assumption) ?_) | split | (intro)

theorem doDrbgHealthTestFail_keeps {s₀ s : State} (kp : Keeps s₀ s) : Keeps s₀ (doDrbgHealthTestFail s) := by
  unfold doDrbgHealthTestFail
  repeat' first
    | with_reducible exact Keeps.refl _ | with_reducible assumption | (simp -zeta only [↓Keeps.lit])
    | with_reducible apply State.raise_keeps

theorem doIdentity_keeps {q : Req} {s₀ s : State} (kp : Keeps s₀ s) : Keeps s₀ (doIdentity q s) := by
  unfold doIdentity
  repeat' first
    | with_reducible exact Keeps.refl _ | with_reducible assumption
    | (extract_lets +onlyGivenNames x; refine Keeps.cut (x := x) ?_ ?_ <;> [subst x; (intro; rename' x => y)])
    | (extract_lets +onlyGivenNames x; subst x; try beta_reduce) | with_reducible apply State.reply_keeps
    | with_reducible apply State.fail_keeps | with_reducible apply State.request_keeps
    | with_reducible apply State.signable_keeps | (refine State.signable_keepsEq (by with_reducible assumption) ?_) | split
    | (intro)

theorem State.syncSealBlk_keeps {s₀ s : State} (kp : Keeps s₀ s) : Keeps s₀ (State.syncSealBlk s) := by
  unfold State.syncSealBlk
  repeat' first
    | with_reducible exact Keeps.refl _ | with_reducible assumption | with_reducible apply State.setFlag_keeps

theorem State.tamper_keeps {s₀ s : State} {src : BitVec 6} {inj : Bool} (kp : Keeps s₀ s) : Keeps s₀ (State.tamper s src inj)
    := by
  unfold State.tamper
  repeat' first
    | with_reducible exact Keeps.refl _ | with_reducible assumption
    | (extract_lets +onlyGivenNames x; refine Keeps.cut (x := x) ?_ ?_ <;> [subst x; (intro; rename' x => y)])
    | (extract_lets +onlyGivenNames x; subst x; try beta_reduce) | (simp -zeta only [↓Keeps.lit])
    | with_reducible apply State.rset_keeps | with_reducible apply State.fset_keeps
    | with_reducible apply State.chipEvent_keeps | with_reducible apply State.stage_keeps
    | with_reducible apply State.suspectAll_keeps | with_reducible apply State.endSteps_keeps
    | with_reducible apply State.vaultWipe_keeps | with_reducible apply State.raises_keeps
    | with_reducible apply State.syncSealBlk_keeps | split | (intro)

theorem doTamperDetect_keeps {src : BitVec 6} {s₀ s : State} (kp : Keeps s₀ s) : Keeps s₀ (doTamperDetect src s) := by
  unfold doTamperDetect
  repeat' first
    | with_reducible exact Keeps.refl _ | with_reducible assumption | with_reducible apply State.tamper_keeps

theorem State.sealPart0_keeps {s₀ s : State} {q : Req} (kp : Keeps s₀ s) : Keeps s₀ (State.sealPart0 s q) := by
  unfold State.sealPart0
  repeat' first
    | with_reducible exact Keeps.refl _ | with_reducible assumption
    | (extract_lets +onlyGivenNames x; refine Keeps.cut (x := x) ?_ ?_ <;> [subst x; (intro; rename' x => y)])
    | (extract_lets +onlyGivenNames x; subst x; try beta_reduce) | (simp -zeta only [↓Keeps.lit])
    | with_reducible apply State.setFlag_keeps | with_reducible apply State.fail_keeps
    | with_reducible apply State.start_keeps | split | (intro)

theorem State.sealPart_keeps {s₀ s : State} {q : Req} (kp : Keeps s₀ s) : Keeps s₀ (State.sealPart s q) := by
  unfold State.sealPart
  repeat' first
    | with_reducible exact Keeps.refl _ | with_reducible assumption | (simp -zeta only [↓Keeps.lit])
    | with_reducible apply State.fail_keeps | with_reducible apply State.start_keeps
    | with_reducible apply State.stagingDrop_keeps | split

theorem State.unload_keeps {s₀ s : State} {q : Req} (kp : Keeps s₀ s) : Keeps s₀ (State.unload s q) := by
  unfold State.unload
  repeat' first
    | with_reducible exact Keeps.refl _ | with_reducible assumption
    | (extract_lets +onlyGivenNames x; refine Keeps.cut (x := x) ?_ ?_ <;> [subst x; (intro; rename' x => y)])
    | (extract_lets +onlyGivenNames x; subst x; try beta_reduce) | with_reducible apply State.reply_keeps
    | with_reducible apply State.fail_keeps | with_reducible apply State.bundleRemove_keeps | with_reducible apply Keeps.foldl
    | split | (intro)

theorem doSealLoad_keeps {q : Req} {s₀ s : State} (kp : Keeps s₀ s) : Keeps s₀ (doSealLoad q s) := by
  unfold doSealLoad
  repeat' first
    | with_reducible exact Keeps.refl _ | with_reducible assumption
    | (extract_lets +onlyGivenNames x; refine Keeps.cut (x := x) ?_ ?_ <;> [subst x; (intro; rename' x => y)])
    | (extract_lets +onlyGivenNames x; subst x; try beta_reduce) | with_reducible apply State.fail_keeps
    | with_reducible apply State.request_keeps | with_reducible apply State.wakeEngine_keeps
    | with_reducible apply State.sealPart0_keeps | with_reducible apply State.sealPart_keeps
    | with_reducible apply State.unload_keeps | split | (intro)

theorem State.sectReg_keeps {s₀ s : State} {e : Nat × Word} (kp : Keeps s₀ s) : Keeps s₀ (State.sectReg s e) := by
  unfold State.sectReg
  repeat' first
    | with_reducible exact Keeps.refl _ | with_reducible assumption | with_reducible apply State.rset_keeps
    | with_reducible apply State.tileWrite_keeps | with_reducible apply State.chanWrite_keeps | split

theorem State.sectWrite_keeps {s₀ s : State} {x : Section} (kp : Keeps s₀ s) : Keeps s₀ (State.sectWrite s x) := by
  unfold State.sectWrite
  repeat' first
    | with_reducible exact Keeps.refl _ | with_reducible assumption
    | (extract_lets +onlyGivenNames x; refine Keeps.cut (x := x) ?_ ?_ <;> [subst x; (intro; rename' x => y)])
    | (extract_lets +onlyGivenNames x; subst x; try beta_reduce) | with_reducible apply State.mwrite_keeps
    | with_reducible apply State.eccFresh_keeps | with_reducible apply State.sectReg_keeps | with_reducible apply Keeps.foldl
    | split | (intro)

theorem State.install_keeps {s₀ s : State} {g : Staging} {x : Split} (kp : Keeps s₀ s) : Keeps s₀ (State.install s g x) := by
  unfold State.install
  repeat' first
    | with_reducible exact Keeps.refl _ | with_reducible assumption
    | (extract_lets +onlyGivenNames x; refine Keeps.cut (x := x) ?_ ?_ <;> [subst x; (intro; rename' x => y)])
    | (extract_lets +onlyGivenNames x; subst x; try beta_reduce) | (simp -zeta only [↓Keeps.lit])
    | with_reducible apply State.rset_keeps | with_reducible apply State.setFlag_keeps
    | with_reducible apply State.chipEvent_keeps | with_reducible apply State.complete_keeps
    | with_reducible apply State.drop_keeps | with_reducible apply State.resetSealedBut_keeps
    | with_reducible apply State.syncSeal_keeps | with_reducible apply State.bundleRemove_keeps
    | with_reducible apply State.sectWrite_keeps | with_reducible apply Keeps.foldl | split | (intro)

theorem State.partStaged_keeps {s₀ s : State} {g : Staging} {x : Split} {last : Bool} (kp : Keeps s₀ s) : Keeps s₀
    (State.partStaged s g x last) := by
  unfold State.partStaged
  repeat' first
    | with_reducible exact Keeps.refl _ | with_reducible assumption
    | (extract_lets +onlyGivenNames x; refine Keeps.cut (x := x) ?_ ?_ <;> [subst x; (intro; rename' x => y)])
    | (extract_lets +onlyGivenNames x; subst x; try beta_reduce) | (simp -zeta only [↓Keeps.lit])
    | with_reducible apply State.complete_keeps | with_reducible apply State.stagingDrop_keeps
    | with_reducible apply State.install_keeps | split | (intro)

theorem doSealPartStaged_keeps {o : OpRef} {s₀ s : State} (kp : Keeps s₀ s) : Keeps s₀ (doSealPartStaged o s) := by
  unfold doSealPartStaged
  repeat' first
    | with_reducible exact Keeps.refl _ | with_reducible assumption
    | (extract_lets +onlyGivenNames x; refine Keeps.cut (x := x) ?_ ?_ <;> [subst x; (intro; rename' x => y)])
    | (extract_lets +onlyGivenNames x; subst x; try beta_reduce) | (simp -zeta only [↓Keeps.lit])
    | with_reducible apply State.stagingDrop_keeps | with_reducible apply State.partStaged_keeps | split

theorem doStagingTimeout_keeps {s₀ s : State} (kp : Keeps s₀ s) : Keeps s₀ (doStagingTimeout s) := by
  unfold doStagingTimeout
  repeat' first
    | with_reducible exact Keeps.refl _ | with_reducible assumption | with_reducible apply State.stagingDrop_keeps | split
    | (intro)

theorem doLifecycle_keeps {q : Req} {s₀ s : State} (kp : Keeps s₀ s) : Keeps s₀ (doLifecycle q s) := by
  unfold doLifecycle
  repeat' first
    | with_reducible exact Keeps.refl _ | with_reducible assumption
    | (extract_lets +onlyGivenNames x; refine Keeps.cut (x := x) ?_ ?_ <;> [subst x; (intro; rename' x => y)])
    | (extract_lets +onlyGivenNames x; subst x; try beta_reduce) | with_reducible apply State.fail_keeps
    | with_reducible apply State.start_keeps | with_reducible apply State.drop_keeps
    | with_reducible apply State.request_keeps | split | (intro)

theorem State.leaveBlank_keeps {s₀ s : State} (kp : Keeps s₀ s) : Keeps s₀ (State.leaveBlank s) := by
  unfold State.leaveBlank
  repeat' first
    | with_reducible exact Keeps.refl _ | with_reducible assumption | (simp -zeta only [↓Keeps.lit])
    | with_reducible apply State.resetRegs_keeps | (intro)

theorem State.closeAll_keeps {s₀ s : State} (kp : Keeps s₀ s) : Keeps s₀ (State.closeAll s) := by
  unfold State.closeAll
  repeat' first
    | with_reducible exact Keeps.refl _ | with_reducible assumption
    | (extract_lets +onlyGivenNames x; refine Keeps.cut (x := x) ?_ ?_ <;> [subst x; (intro; rename' x => y)])
    | (extract_lets +onlyGivenNames x; subst x; try beta_reduce) | (simp -zeta only [↓Keeps.lit])
    | with_reducible apply State.request_keeps | with_reducible apply State.closeSession_keeps
    | with_reducible apply Keeps.foldl | split | (intro)

theorem State.lcRecord_keeps {s₀ s : State} {b : List Byte} {new : Nat} (kp : Keeps s₀ s) : Keeps s₀ (State.lcRecord s b new)
    := by
  unfold State.lcRecord
  repeat' first
    | with_reducible exact Keeps.refl _ | with_reducible assumption
    | (extract_lets +onlyGivenNames x; refine Keeps.cut (x := x) ?_ ?_ <;> [subst x; (intro; rename' x => y)])
    | (extract_lets +onlyGivenNames x; subst x; try beta_reduce) | (simp -zeta only [↓Keeps.lit])
    | with_reducible apply State.rset_keeps | with_reducible apply State.fset_keeps
    | with_reducible apply State.chipEvent_keeps | with_reducible apply State.stage_keeps
    | with_reducible apply State.drop_keeps | with_reducible apply State.syncSealBlk_keeps
    | with_reducible apply State.leaveBlank_keeps | with_reducible apply Keeps.foldl | split | (intro)

theorem doLifecycleTransition_keeps {otpOk : Bool} {s₀ s : State} (kp : Keeps s₀ s) : Keeps s₀ (doLifecycleTransition otpOk s)
    := by
  unfold doLifecycleTransition
  repeat' first
    | with_reducible exact Keeps.refl _ | with_reducible assumption
    | (extract_lets +onlyGivenNames x; refine Keeps.cut (x := x) ?_ ?_ <;> [subst x; (intro; rename' x => y)])
    | (extract_lets +onlyGivenNames x; subst x; try beta_reduce) | (simp -zeta only [↓Keeps.lit])
    | with_reducible apply State.complete_keeps | with_reducible apply State.vaultWipe_keeps
    | with_reducible apply State.closeAll_keeps | with_reducible apply State.lcRecord_keeps | split | (intro)

theorem State.flushed_keeps {s₀ s : State} (kp : Keeps s₀ s) : Keeps s₀ (State.flushed s) := by
  unfold State.flushed
  repeat' first
    | with_reducible exact Keeps.refl _ | with_reducible assumption
    | (extract_lets +onlyGivenNames x; refine Keeps.cut (x := x) ?_ ?_ <;> [subst x; (intro; rename' x => y)])
    | (extract_lets +onlyGivenNames x; subst x; try beta_reduce) | (simp -zeta only [↓Keeps.lit])
    | with_reducible apply State.fset_keeps | with_reducible apply State.setFlag_keeps
    | with_reducible apply State.chipEvent_keeps | with_reducible apply State.stage_keeps | split

theorem doMoraineFlush_keeps {ok busy : Bool} {s₀ s : State} (kp : Keeps s₀ s) : Keeps s₀ (doMoraineFlush ok busy s) := by
  unfold doMoraineFlush
  repeat' first
    | with_reducible exact Keeps.refl _ | with_reducible assumption | with_reducible apply State.setFlag_keeps
    | with_reducible apply State.raise_keeps | with_reducible apply State.flushed_keeps | split

theorem doMrnFlush_keeps {s₀ s : State} (kp : Keeps s₀ s) : Keeps s₀ (doMrnFlush s) := by
  unfold doMrnFlush
  repeat' first
    | with_reducible exact Keeps.refl _ | with_reducible assumption | with_reducible apply State.setFlag_keeps
    | with_reducible apply State.answered_keeps

theorem State.mrnCleared_keeps {s₀ s : State} {session : Nat} (kp : Keeps s₀ s) : Keeps s₀ (State.mrnCleared s session) := by
  unfold State.mrnCleared
  repeat' first
    | with_reducible exact Keeps.refl _ | with_reducible assumption
    | (extract_lets +onlyGivenNames x; refine Keeps.cut (x := x) ?_ ?_ <;> [subst x; (intro; rename' x => y)])
    | (extract_lets +onlyGivenNames x; subst x; try beta_reduce) | (simp -zeta only [↓Keeps.lit])
    | with_reducible apply State.chipEvent_keeps | with_reducible apply State.oldest_keeps
    | with_reducible apply State.stage_keeps | (intro)

theorem doMrnClear_keeps {session : BitVec 5} {s₀ s : State} (kp : Keeps s₀ s) : Keeps s₀ (doMrnClear session s) := by
  unfold doMrnClear
  repeat' first
    | with_reducible exact Keeps.refl _ | with_reducible assumption
    | (extract_lets +onlyGivenNames x; refine Keeps.cut (x := x) ?_ ?_ <;> [subst x; (intro; rename' x => y)])
    | (extract_lets +onlyGivenNames x; subst x; try beta_reduce) | with_reducible apply State.answered_keeps
    | with_reducible apply State.mrnCleared_keeps | split

theorem State.mrnLoad_keeps {s₀ s : State} {c : Nat} {seq : Word} (kp : Keeps s₀ s) : Keeps s₀ (State.mrnLoad s c seq) := by
  unfold State.mrnLoad
  repeat' first
    | with_reducible exact Keeps.refl _ | with_reducible assumption | (simp -zeta only [↓Keeps.lit])
    | with_reducible apply State.modCtx_keeps | (intro)

theorem doMrnCursorWrite_keeps {ctx : Fin 33} {seq : Word} {s₀ s : State} (kp : Keeps s₀ s) : Keeps s₀ (doMrnCursorWrite ctx
    seq s) := by
  unfold doMrnCursorWrite
  repeat' first
    | with_reducible exact Keeps.refl _ | with_reducible assumption | with_reducible apply State.answered_keeps
    | with_reducible apply State.mrnLoad_keeps

theorem doMrnLoadDone_keeps {ctx : Fin 33} {macOk : Bool} {s₀ s : State} (kp : Keeps s₀ s) : Keeps s₀ (doMrnLoadDone ctx macOk
    s) := by
  unfold doMrnLoadDone
  repeat' first
    | with_reducible exact Keeps.refl _ | with_reducible assumption
    | (extract_lets +onlyGivenNames x; refine Keeps.cut (x := x) ?_ ?_ <;> [subst x; (intro; rename' x => y)])
    | (extract_lets +onlyGivenNames x; subst x; try beta_reduce) | (simp -zeta only [↓Keeps.lit])
    | with_reducible apply State.setFlag_keeps | with_reducible apply State.setCtx_keeps
    | with_reducible apply State.raise_keeps | split | (intro)

theorem doMrnWin15Read_keeps {ctx : Fin 33} {s₀ s : State} (kp : Keeps s₀ s) : Keeps s₀ (doMrnWin15Read ctx s) := by
  unfold doMrnWin15Read
  repeat' first
    | with_reducible exact Keeps.refl _ | with_reducible assumption
    | (extract_lets +onlyGivenNames x; refine Keeps.cut (x := x) ?_ ?_ <;> [subst x; (intro; rename' x => y)])
    | (extract_lets +onlyGivenNames x; subst x; try beta_reduce) | with_reducible apply State.mrnLoad_keeps | split

theorem doOperatingTimeTick_keeps {s₀ s : State} (kp : Keeps s₀ s) : Keeps s₀ (doOperatingTimeTick s) := by
  unfold doOperatingTimeTick
  repeat' first
    | with_reducible exact Keeps.refl _ | with_reducible assumption
    | (extract_lets +onlyGivenNames x; refine Keeps.cut (x := x) ?_ ?_ <;> [subst x; (intro; rename' x => y)])
    | (extract_lets +onlyGivenNames x; subst x; try beta_reduce) | with_reducible apply State.rset_keeps
    | with_reducible apply State.syncStale_keeps | with_reducible apply State.syncTrans_keeps
    | with_reducible apply Keeps.foldl | split | (intro)

theorem State.evcLatch_keeps {s₀ s : State} {c n : Nat} {snapshot : Bool} (kp : Keeps s₀ s) : Keeps s₀ (State.evcLatch s c n
    snapshot) := by
  unfold State.evcLatch
  repeat' first
    | with_reducible exact Keeps.refl _ | with_reducible assumption
    | (extract_lets +onlyGivenNames x; refine Keeps.cut (x := x) ?_ ?_ <;> [subst x; (intro; rename' x => y)])
    | (extract_lets +onlyGivenNames x; subst x; try beta_reduce) | (simp -zeta only [↓Keeps.lit])
    | with_reducible apply State.modCtx_keeps | split | (intro)

theorem doEvcLoRead_keeps {ctx : Fin 33} {n : Fin 384} {snapshot : Bool} {s₀ s : State} (kp : Keeps s₀ s) : Keeps s₀
    (doEvcLoRead ctx n snapshot s) := by
  unfold doEvcLoRead
  repeat' first
    | with_reducible exact Keeps.refl _ | with_reducible assumption | with_reducible apply State.evcLatch_keeps

theorem doCntResume_keeps {s₀ s : State} (kp : Keeps s₀ s) : Keeps s₀ (doCntResume s) := by
  unfold doCntResume
  repeat' first
    | with_reducible exact Keeps.refl _ | with_reducible assumption | with_reducible apply State.setFlag_keeps
    | with_reducible apply State.answered_keeps

theorem State.frost_keeps {s₀ s : State} {at_ : Nat} (kp : Keeps s₀ s) : Keeps s₀ (State.frost s at_) := by
  unfold State.frost
  repeat' first
    | with_reducible exact Keeps.refl _ | with_reducible assumption
    | (extract_lets +onlyGivenNames x; refine Keeps.cut (x := x) ?_ ?_ <;> [subst x; (intro; rename' x => y)])
    | (extract_lets +onlyGivenNames x; subst x; try beta_reduce) | (simp -zeta only [↓Keeps.lit])
    | with_reducible apply State.rset_keeps | with_reducible apply State.setFlag_keeps
    | with_reducible apply State.setPair_keeps | with_reducible apply Keeps.foldl | (intro)

theorem doFrost_keeps {q : Req} {s₀ s : State} (kp : Keeps s₀ s) : Keeps s₀ (doFrost q s) := by
  unfold doFrost
  repeat' first
    | with_reducible exact Keeps.refl _ | with_reducible assumption
    | (extract_lets +onlyGivenNames x; refine Keeps.cut (x := x) ?_ ?_ <;> [subst x; (intro; rename' x => y)])
    | (extract_lets +onlyGivenNames x; subst x; try beta_reduce) | with_reducible apply State.setFlag_keeps
    | with_reducible apply State.reply_keeps | with_reducible apply State.fail_keeps | with_reducible apply State.start_keeps
    | with_reducible apply State.request_keeps | with_reducible apply State.frost_keeps | split | (intro)

theorem doFrostSnapshot_keeps {s₀ s : State} (kp : Keeps s₀ s) : Keeps s₀ (doFrostSnapshot s) := by
  unfold doFrostSnapshot
  repeat' first
    | with_reducible exact Keeps.refl _ | with_reducible assumption | with_reducible apply State.setFlag_keeps
    | with_reducible apply State.complete_keeps | with_reducible apply State.frost_keeps | split | (intro)

theorem doDumpRead_keeps {q : Req} {s₀ s : State} (kp : Keeps s₀ s) : Keeps s₀ (doDumpRead q s) := by
  unfold doDumpRead
  repeat' first
    | with_reducible exact Keeps.refl _ | with_reducible assumption
    | (extract_lets +onlyGivenNames x; refine Keeps.cut (x := x) ?_ ?_ <;> [subst x; (intro; rename' x => y)])
    | (extract_lets +onlyGivenNames x; subst x; try beta_reduce) | with_reducible apply State.reply_keeps
    | with_reducible apply State.fail_keeps | with_reducible apply State.request_keeps | split | (intro)

theorem State.trapReact_keeps {s₀ s : State} {cause : Nat} {inj : Bool} (kp : Keeps s₀ s) : Keeps s₀ (State.trapReact s cause
    inj) := by
  unfold State.trapReact
  repeat' first
    | with_reducible exact Keeps.refl _ | with_reducible assumption | with_reducible apply State.raise_keeps | split

theorem State.dumpMissed_keeps {s₀ s : State} {inj : Bool} (kp : Keeps s₀ s) : Keeps s₀ (State.dumpMissed s inj) := by
  unfold State.dumpMissed
  repeat' first
    | with_reducible exact Keeps.refl _ | with_reducible assumption | with_reducible apply State.count_keeps
    | with_reducible apply State.raise_keeps

theorem State.trapRoutine_keeps {s₀ s : State} {cause : Nat} {inj : Bool} (kp : Keeps s₀ s) : Keeps s₀ (State.trapRoutine s
    cause inj) := by
  unfold State.trapRoutine
  repeat' first
    | with_reducible exact Keeps.refl _ | with_reducible assumption
    | (extract_lets +onlyGivenNames x; refine Keeps.cut (x := x) ?_ ?_ <;> [subst x; (intro; rename' x => y)])
    | (extract_lets +onlyGivenNames x; subst x; try beta_reduce) | (simp -zeta only [↓Keeps.lit])
    | with_reducible apply State.rset_keeps | with_reducible apply State.modMicro_keeps
    | with_reducible apply State.free_keeps | (refine State.free_keepsEq (by with_reducible assumption) ?_)
    | with_reducible apply State.evCount_keeps | with_reducible apply State.romRan_keeps
    | with_reducible apply State.stage_keeps | with_reducible apply State.trapReact_keeps
    | with_reducible apply State.dumpMissed_keeps | split | (intro)

theorem State.dumpWritten_keeps {s₀ s : State} {d : Dump} {place : Nat} (kp : Keeps s₀ s) : Keeps s₀ (State.dumpWritten s d
    place) := by
  unfold State.dumpWritten
  repeat' first
    | with_reducible exact Keeps.refl _ | with_reducible assumption | with_reducible apply State.chipEvent_keeps
    | with_reducible apply State.stage_keeps

theorem doDumpFirnWriteDone_keeps {s₀ s : State} (kp : Keeps s₀ s) : Keeps s₀ (doDumpFirnWriteDone s) := by
  unfold doDumpFirnWriteDone
  repeat' first
    | with_reducible exact Keeps.refl _ | with_reducible assumption
    | (extract_lets +onlyGivenNames x; refine Keeps.cut (x := x) ?_ ?_ <;> [subst x; (intro; rename' x => y)])
    | (extract_lets +onlyGivenNames x; subst x; try beta_reduce) | (simp -zeta only [↓Keeps.lit])
    | with_reducible apply State.rset_keeps | with_reducible apply State.fset_keeps | with_reducible apply State.setFlag_keeps
    | with_reducible apply State.trapReact_keeps | with_reducible apply State.dumpWritten_keeps | split

theorem doDumpFlashCopyDone_keeps {s₀ s : State} (kp : Keeps s₀ s) : Keeps s₀ (doDumpFlashCopyDone s) := by
  unfold doDumpFlashCopyDone
  repeat' first
    | with_reducible exact Keeps.refl _ | with_reducible assumption
    | (extract_lets +onlyGivenNames x; refine Keeps.cut (x := x) ?_ ?_ <;> [subst x; (intro; rename' x => y)])
    | (extract_lets +onlyGivenNames x; subst x; try beta_reduce) | (simp -zeta only [↓Keeps.lit])
    | with_reducible apply State.setFlag_keeps | with_reducible apply State.dumpWritten_keeps | split

theorem doDumpRelease_keeps {s₀ s : State} (kp : Keeps s₀ s) : Keeps s₀ (doDumpRelease s) := by
  unfold doDumpRelease
  repeat' first
    | with_reducible exact Keeps.refl _ | with_reducible assumption | (simp -zeta only [↓Keeps.lit])
    | with_reducible apply State.setFlag_keeps | with_reducible apply State.answered_keeps | split

end Sys2Proof.Machine
end

