-- ==== Sys2Proof/Laws/KeepsChip.lean ====
section
/-! SUPPORT. Security, moraine, engine, port, register, injection, startup and dispatch commands keep the relation of Keeps.lean. -/

namespace Sys2Proof.Machine

theorem doPatchLoad_keeps {q : Req} {s₀ s : State} (kp : Keeps s₀ s) : Keeps s₀ (doPatchLoad q s) := by
  unfold doPatchLoad
  repeat' first
    | with_reducible exact Keeps.refl _ | with_reducible assumption | with_reducible apply State.setFlag_keeps
    | with_reducible apply State.fail_keeps | with_reducible apply State.start_keeps
    | with_reducible apply State.request_keeps | with_reducible apply State.wakeEngine_keeps | split | (intro)

theorem State.patchIn_keeps {s₀ s : State} {p : Patch} (kp : Keeps s₀ s) : Keeps s₀ (State.patchIn s p) := by
  unfold State.patchIn
  repeat' first
    | with_reducible exact Keeps.refl _ | with_reducible assumption
    | (extract_lets +onlyGivenNames x; refine Keeps.cut (x := x) ?_ ?_ <;> [subst x; (intro; rename' x => y)])
    | (extract_lets +onlyGivenNames x; subst x; try beta_reduce) | (simp -zeta only [↓Keeps.lit])
    | with_reducible apply State.rset_keeps | with_reducible apply State.fset_keeps | with_reducible apply State.mwrite_keeps
    | with_reducible apply State.eraseSpace_keeps | with_reducible apply Keeps.foldl | (intro)

theorem State.patchActive_keeps {s₀ s : State} {p : Patch} (kp : Keeps s₀ s) : Keeps s₀ (State.patchActive s p) := by
  unfold State.patchActive
  repeat' first
    | with_reducible exact Keeps.refl _ | with_reducible assumption
    | (extract_lets +onlyGivenNames x; refine Keeps.cut (x := x) ?_ ?_ <;> [subst x; (intro; rename' x => y)])
    | (extract_lets +onlyGivenNames x; subst x; try beta_reduce) | with_reducible apply State.stage_keeps
    | with_reducible apply State.patchIn_keeps

theorem doPatchActivation_keeps {otpOk : Bool} {s₀ s : State} (kp : Keeps s₀ s) : Keeps s₀ (doPatchActivation otpOk s) := by
  unfold doPatchActivation
  repeat' first
    | with_reducible exact Keeps.refl _ | with_reducible assumption
    | (extract_lets +onlyGivenNames x; refine Keeps.cut (x := x) ?_ ?_ <;> [subst x; (intro; rename' x => y)])
    | (extract_lets +onlyGivenNames x; subst x; try beta_reduce) | with_reducible apply State.fset_keeps
    | with_reducible apply State.complete_keeps | with_reducible apply State.patchRelease_keeps
    | with_reducible apply State.patchActive_keeps | split

theorem doPatchDrainTimeout_keeps {s₀ s : State} (kp : Keeps s₀ s) : Keeps s₀ (doPatchDrainTimeout s) := by
  unfold doPatchDrainTimeout
  repeat' first
    | with_reducible exact Keeps.refl _ | with_reducible assumption | with_reducible apply State.complete_keeps
    | with_reducible apply State.patchRelease_keeps | split

theorem doClockModeChange_keeps {s₀ s : State} (kp : Keeps s₀ s) : Keeps s₀ (doClockModeChange s) := by
  unfold doClockModeChange
  repeat' first
    | with_reducible exact Keeps.refl _ | with_reducible assumption | with_reducible apply State.setFlag_keeps
    | with_reducible apply State.syncSusp_keeps | with_reducible apply State.wakeEngine_keeps | split

theorem doEngClrstat_keeps {s₀ s : State} (kp : Keeps s₀ s) : Keeps s₀ (doEngClrstat s) := by
  unfold doEngClrstat
  repeat' first
    | with_reducible exact Keeps.refl _ | with_reducible assumption | (simp -zeta only [↓Keeps.lit])
    | with_reducible apply State.answered_keeps

theorem doUndefinedOpcode_keeps {opcode : BitVec 8} {q : Req} {s₀ s : State} (kp : Keeps s₀ s) : Keeps s₀ (doUndefinedOpcode
    opcode q s) := by
  unfold doUndefinedOpcode
  repeat' first
    | with_reducible exact Keeps.refl _ | with_reducible assumption | with_reducible apply State.fail_keeps
    | with_reducible apply State.routine_keeps | split

theorem State.syncPp_keeps {s₀ s : State} (kp : Keeps s₀ s) : Keeps s₀ (State.syncPp s) := by
  unfold State.syncPp
  repeat' first
    | with_reducible exact Keeps.refl _ | with_reducible assumption | with_reducible apply State.fset_keeps
    | with_reducible apply State.setFlag_keeps

theorem State.ppPush_keeps {s₀ s : State} {v : Word} (kp : Keeps s₀ s) : Keeps s₀ (State.ppPush s v) := by
  unfold State.ppPush
  repeat' first
    | with_reducible exact Keeps.refl _ | with_reducible assumption | (simp -zeta only [↓Keeps.lit])
    | with_reducible apply State.syncPp_keeps | split

theorem doPpTxctlPush_keeps {v : Word} {s₀ s : State} (kp : Keeps s₀ s) : Keeps s₀ (doPpTxctlPush v s) := by
  unfold doPpTxctlPush
  repeat' first
    | with_reducible exact Keeps.refl _ | with_reducible assumption | with_reducible apply State.writeRow_keeps
    | with_reducible apply State.ppPush_keeps | (intro)

theorem State.contBreak_keeps {s₀ s : State} {inj : Bool} (kp : Keeps s₀ s) : Keeps s₀ (State.contBreak s inj) := by
  unfold State.contBreak
  repeat' first
    | with_reducible exact Keeps.refl _ | with_reducible assumption | (simp -zeta only [↓Keeps.lit])
    | with_reducible apply State.setFlag_keeps | with_reducible apply State.raise_keeps
    | with_reducible apply State.syncPp_keeps

theorem State.ppEntry_keeps {s₀ s : State} {c d sampled : Word} (kp : Keeps s₀ s) : Keeps s₀ (State.ppEntry s c d sampled) :=
    by
  unfold State.ppEntry
  repeat' first
    | with_reducible exact Keeps.refl _ | with_reducible assumption
    | (extract_lets +onlyGivenNames x; refine Keeps.cut (x := x) ?_ ?_ <;> [subst x; (intro; rename' x => y)])
    | (extract_lets +onlyGivenNames x; subst x; try beta_reduce) | (simp -zeta only [↓Keeps.lit])
    | with_reducible apply State.drop_keeps | with_reducible apply State.syncPp_keeps
    | with_reducible apply State.contBreak_keeps | split

theorem doPpEntryExecute_keeps {sampled : Word} {s₀ s : State} (kp : Keeps s₀ s) : Keeps s₀ (doPpEntryExecute sampled s) := by
  unfold doPpEntryExecute
  repeat' first
    | with_reducible exact Keeps.refl _ | with_reducible assumption | with_reducible apply State.ppEntry_keeps | split

theorem State.rxPop_keeps {s₀ s : State} (kp : Keeps s₀ s) : Keeps s₀ (State.rxPop s) := by
  unfold State.rxPop
  repeat' first
    | with_reducible exact Keeps.refl _ | with_reducible assumption | (simp -zeta only [↓Keeps.lit])
    | with_reducible apply State.setFlag_keeps | with_reducible apply State.syncPp_keeps | split

theorem doPpRxdataRead_keeps {s₀ s : State} (kp : Keeps s₀ s) : Keeps s₀ (doPpRxdataRead s) := by
  unfold doPpRxdataRead
  repeat' first
    | with_reducible exact Keeps.refl _ | with_reducible assumption | with_reducible apply State.rxPop_keeps

theorem doPpFlush_keeps {s₀ s : State} (kp : Keeps s₀ s) : Keeps s₀ (doPpFlush s) := by
  unfold doPpFlush
  repeat' first
    | with_reducible exact Keeps.refl _ | with_reducible assumption | with_reducible apply State.ppEmpty_keeps
    | with_reducible apply State.answered_keeps

theorem doPpContTimeout_keeps {s₀ s : State} (kp : Keeps s₀ s) : Keeps s₀ (doPpContTimeout s) := by
  unfold doPpContTimeout
  repeat' first
    | with_reducible exact Keeps.refl _ | with_reducible assumption | with_reducible apply State.contBreak_keeps | split

theorem State.flashRun_keeps {s₀ s : State} {op : FlashOp} (kp : Keeps s₀ s) : Keeps s₀ (State.flashRun s op) := by
  unfold State.flashRun
  repeat' first
    | with_reducible exact Keeps.refl _ | with_reducible assumption | (simp -zeta only [↓Keeps.lit]) | split

theorem doInternalTransfer_keeps {op : FlashOp} {ok busy : Bool} {s₀ s : State} (kp : Keeps s₀ s) : Keeps s₀
    (doInternalTransfer op ok busy s) := by
  unfold doInternalTransfer
  repeat' first
    | with_reducible exact Keeps.refl _ | with_reducible assumption | (simp -zeta only [↓Keeps.lit])
    | with_reducible apply State.raise_keeps | with_reducible apply State.flashRun_keeps | split

theorem doMselAssert_keeps {s₀ s : State} (kp : Keeps s₀ s) : Keeps s₀ (doMselAssert s) := by
  unfold doMselAssert
  repeat' first
    | with_reducible exact Keeps.refl _ | with_reducible assumption
    | (extract_lets +onlyGivenNames x; refine Keeps.cut (x := x) ?_ ?_ <;> [subst x; (intro; rename' x => y)])
    | (extract_lets +onlyGivenNames x; subst x; try beta_reduce) | (simp -zeta only [↓Keeps.lit])
    | with_reducible apply State.setFlag_keeps | split

theorem State.frameError_keeps {s₀ s : State} {cause : Nat} {inj : Bool} (kp : Keeps s₀ s) : Keeps s₀ (State.frameError s
    cause inj) := by
  unfold State.frameError
  repeat' first
    | with_reducible exact Keeps.refl _ | with_reducible assumption
    | (extract_lets +onlyGivenNames x; refine Keeps.cut (x := x) ?_ ?_ <;> [subst x; (intro; rename' x => y)])
    | (extract_lets +onlyGivenNames x; subst x; try beta_reduce) | with_reducible apply State.fset_keeps
    | with_reducible apply State.setFlag_keeps | with_reducible apply State.count_keeps
    | with_reducible apply State.raise_keeps | split

theorem State.veingLatch_keeps {s₀ s : State} {w : Word} (kp : Keeps s₀ s) : Keeps s₀ (State.veingLatch s w) := by
  unfold State.veingLatch
  repeat' first
    | with_reducible exact Keeps.refl _ | with_reducible assumption
    | (extract_lets +onlyGivenNames x; refine Keeps.cut (x := x) ?_ ?_ <;> [subst x; (intro; rename' x => y)])
    | (extract_lets +onlyGivenNames x; subst x; try beta_reduce) | (simp -zeta only [↓Keeps.lit])
    | with_reducible apply State.setFlag_keeps | with_reducible apply State.count_keeps
    | with_reducible apply State.frameError_keeps | split

theorem State.veingShifted_keeps {s₀ s : State} (kp : Keeps s₀ s) : Keeps s₀ (State.veingShifted s) := by
  unfold State.veingShifted
  repeat' first
    | with_reducible exact Keeps.refl _ | with_reducible assumption
    | (extract_lets +onlyGivenNames x; refine Keeps.cut (x := x) ?_ ?_ <;> [subst x; (intro; rename' x => y)])
    | (extract_lets +onlyGivenNames x; subst x; try beta_reduce) | (simp -zeta only [↓Keeps.lit])
    | with_reducible apply State.fset_keeps | with_reducible apply State.warmReset_keeps | split

theorem doVeingFrame_keeps {edges : Nat} {word : Word} {s₀ s : State} (kp : Keeps s₀ s) : Keeps s₀ (doVeingFrame edges word s)
    := by
  unfold doVeingFrame
  repeat' first
    | with_reducible exact Keeps.refl _ | with_reducible assumption
    | (extract_lets +onlyGivenNames x; refine Keeps.cut (x := x) ?_ ?_ <;> [subst x; (intro; rename' x => y)])
    | (extract_lets +onlyGivenNames x; subst x; try beta_reduce) | (simp -zeta only [↓Keeps.lit])
    | with_reducible apply State.setFlag_keeps | with_reducible apply State.frameError_keeps
    | with_reducible apply State.veingLatch_keeps | with_reducible apply State.veingShifted_keeps | split

theorem State.veingDone_keeps {s₀ s : State} {rstat seq data : Nat} (kp : Keeps s₀ s) : Keeps s₀ (State.veingDone s rstat seq
    data) := by
  unfold State.veingDone
  repeat' first
    | with_reducible exact Keeps.refl _ | with_reducible assumption
    | (extract_lets +onlyGivenNames x; refine Keeps.cut (x := x) ?_ ?_ <;> [subst x; (intro; rename' x => y)])
    | (extract_lets +onlyGivenNames x; subst x; try beta_reduce) | (simp -zeta only [↓Keeps.lit])
    | with_reducible apply State.setFlag_keeps

theorem doVeingNop_keeps {seq : BitVec 4} {s₀ s : State} (kp : Keeps s₀ s) : Keeps s₀ (doVeingNop seq s) := by
  unfold doVeingNop
  repeat' first
    | with_reducible exact Keeps.refl _ | with_reducible assumption | with_reducible apply State.veingDone_keeps | split

theorem doAddrLo_keeps {seq : BitVec 4} {data : BitVec 16} {s₀ s : State} (kp : Keeps s₀ s) : Keeps s₀ (doAddrLo seq data s)
    := by
  unfold doAddrLo
  repeat' first
    | with_reducible exact Keeps.refl _ | with_reducible assumption | with_reducible apply State.rset_keeps
    | with_reducible apply State.veingDone_keeps | split

theorem doAddrHi_keeps {seq : BitVec 4} {data : BitVec 16} {s₀ s : State} (kp : Keeps s₀ s) : Keeps s₀ (doAddrHi seq data s)
    := by
  unfold doAddrHi
  repeat' first
    | with_reducible exact Keeps.refl _ | with_reducible assumption | with_reducible apply State.rset_keeps
    | with_reducible apply State.veingDone_keeps | split

theorem doWdataLo_keeps {seq : BitVec 4} {data : BitVec 16} {s₀ s : State} (kp : Keeps s₀ s) : Keeps s₀ (doWdataLo seq data s)
    := by
  unfold doWdataLo
  repeat' first
    | with_reducible exact Keeps.refl _ | with_reducible assumption | (simp -zeta only [↓Keeps.lit])
    | with_reducible apply State.veingDone_keeps | split

theorem State.veingWait_keeps {s₀ s : State} {cmd seq : Nat} {data : Option Nat} (kp : Keeps s₀ s) : Keeps s₀ (State.veingWait
    s cmd seq data) := by
  unfold State.veingWait
  repeat' first
    | with_reducible exact Keeps.refl _ | with_reducible assumption | (simp -zeta only [↓Keeps.lit])
    | with_reducible apply State.setFlag_keeps | split

theorem doVeingWrite_keeps {seq : BitVec 4} {data : BitVec 16} {s₀ s : State} (kp : Keeps s₀ s) : Keeps s₀ (doVeingWrite seq
    data s) := by
  unfold doVeingWrite
  repeat' first
    | with_reducible exact Keeps.refl _ | with_reducible assumption | with_reducible apply State.veingWait_keeps

theorem doVeingRead_keeps {seq : BitVec 4} {s₀ s : State} (kp : Keeps s₀ s) : Keeps s₀ (doVeingRead seq s) := by
  unfold doVeingRead
  repeat' first
    | with_reducible exact Keeps.refl _ | with_reducible assumption | with_reducible apply State.veingWait_keeps

theorem doRdhi_keeps {seq : BitVec 4} {s₀ s : State} (kp : Keeps s₀ s) : Keeps s₀ (doRdhi seq s) := by
  unfold doRdhi
  repeat' first
    | with_reducible exact Keeps.refl _ | with_reducible assumption | with_reducible apply State.veingDone_keeps | split

theorem doSetaddr_keeps {seq : BitVec 4} {data : BitVec 16} {s₀ s : State} (kp : Keeps s₀ s) : Keeps s₀ (doSetaddr seq data s)
    := by
  unfold doSetaddr
  repeat' first
    | with_reducible exact Keeps.refl _ | with_reducible assumption
    | (extract_lets +onlyGivenNames x; refine Keeps.cut (x := x) ?_ ?_ <;> [subst x; (intro; rename' x => y)])
    | (extract_lets +onlyGivenNames x; subst x; try beta_reduce) | (simp -zeta only [↓Keeps.lit])
    | with_reducible apply State.veingDone_keeps | split

theorem doVeingReset_keeps {seq : BitVec 4} {data : BitVec 16} {s₀ s : State} (kp : Keeps s₀ s) : Keeps s₀ (doVeingReset seq
    data s) := by
  unfold doVeingReset
  repeat' first
    | with_reducible exact Keeps.refl _ | with_reducible assumption | (simp -zeta only [↓Keeps.lit])
    | with_reducible apply State.veingDone_keeps | split

theorem doVeingUndefinedCmd_keeps {cmd seq : BitVec 4} {s₀ s : State} (kp : Keeps s₀ s) : Keeps s₀ (doVeingUndefinedCmd cmd
    seq s) := by
  unfold doVeingUndefinedCmd
  repeat' first
    | with_reducible exact Keeps.refl _ | with_reducible assumption | with_reducible apply State.veingDone_keeps | split

theorem State.readEffect_keeps {s₀ s : State} {c a : Nat} (kp : Keeps s₀ s) : Keeps s₀ (State.readEffect s c a) := by
  unfold State.readEffect
  repeat' first
    | with_reducible exact Keeps.refl _ | with_reducible assumption | (simp -zeta only [↓Keeps.lit])
    | with_reducible apply State.modCtx_keeps | with_reducible apply State.mrnLoad_keeps
    | with_reducible apply State.evcLatch_keeps | with_reducible apply State.rxPop_keeps | split | (intro)

theorem State.current_keeps {s₀ s : State} {a : Nat} (kp : Keeps s₀ s) : Keeps s₀ (State.current s a) := by
  unfold State.current
  repeat' first
    | with_reducible exact Keeps.refl _ | with_reducible assumption | with_reducible apply State.windowsNow_keeps | split

theorem State.readWords_keeps {s₀ s : State} {c : Nat} {l : List Nat} (kp : Keeps s₀ s) :
    Keeps s₀ (State.readWords s c l).2 := by
  have fold : ∀ (m : List Nat) (r : List Word × State), Keeps s₀ r.2 →
      Keeps s₀ (m.foldl (fun (r : List Word × State) a =>
        let s := r.2.current a
        (r.1 ++ [s.readValue c a], if winWord a then s else s.readEffect c a)) r).2 := by
    intro m
    induction m with
    | nil => exact fun r h => h
    | cons a m ih =>
      intro r h
      refine ih _ ?_
      dsimp only
      split
      · exact State.current_keeps h
      · exact State.readEffect_keeps (State.current_keeps h)
  unfold State.readWords
  extract_lets real now
  exact Keeps.foldl (fold real _ kp) fun a h => State.readEffect_keeps h

theorem State.readWords_keepsEq {s₀ s : State} {c : Nat} {l : List Nat} {r : List Word} {t_ : State}
    (h : State.readWords s c l = (r, t_)) (kp : Keeps s₀ s) : Keeps s₀ t_ := by
  have k := State.readWords_keeps (s₀ := s₀) (s := s) (c := c) (l := l) kp
  rwa [h] at k

theorem State.linkCtrl_keeps {s₀ s : State} {l : Nat} {v : Word} (kp : Keeps s₀ s) : Keeps s₀ (State.linkCtrl s l v) := by
  unfold State.linkCtrl
  repeat' first
    | with_reducible exact Keeps.refl _ | with_reducible assumption
    | (extract_lets +onlyGivenNames x; refine Keeps.cut (x := x) ?_ ?_ <;> [subst x; (intro; rename' x => y)])
    | (extract_lets +onlyGivenNames x; subst x; try beta_reduce) | with_reducible apply State.rset_keeps
    | with_reducible apply State.enterRetrain_keeps | with_reducible apply State.linkEn_keeps
    | with_reducible apply State.linkTestSet_keeps | with_reducible apply State.linkWmax_keeps | split

theorem State.chipWrite_keeps {s₀ s : State} {a : Nat} {d : RegDesc} {v : Word} (kp : Keeps s₀ s) : Keeps s₀ (State.chipWrite
    s a d v) := by
  unfold State.chipWrite
  repeat' first
    | with_reducible exact Keeps.refl _ | with_reducible assumption
    | (extract_lets +onlyGivenNames x; refine Keeps.cut (x := x) ?_ ?_ <;> [subst x; (intro; rename' x => y)])
    | (extract_lets +onlyGivenNames x; subst x; try beta_reduce) | with_reducible apply State.rset_keeps
    | with_reducible apply State.syncStale_keeps | with_reducible apply State.linkevSend_keeps
    | with_reducible apply State.syncTrans_keeps | with_reducible apply Keeps.foldl | split | (intro)

theorem State.safeWrite_keeps {s₀ s : State} {o a : Nat} {d : RegDesc} {v : Word} (kp : Keeps s₀ s) : Keeps s₀
    (State.safeWrite s o a d v) := by
  unfold State.safeWrite
  repeat' first
    | with_reducible exact Keeps.refl _ | with_reducible assumption
    | (extract_lets +onlyGivenNames x; refine Keeps.cut (x := x) ?_ ?_ <;> [subst x; (intro; rename' x => y)])
    | (extract_lets +onlyGivenNames x; subst x; try beta_reduce) | with_reducible apply State.rset_keeps
    | with_reducible apply State.syncDse_keeps | with_reducible apply State.sntCfg_keeps
    | with_reducible apply State.fenceMask_keeps | split

theorem State.morWrite_keeps {s₀ s : State} {c a : Nat} {d : RegDesc} {v : Word} (kp : Keeps s₀ s) : Keeps s₀ (State.morWrite
    s c a d v) := by
  unfold State.morWrite
  repeat' first
    | with_reducible exact Keeps.refl _ | with_reducible assumption
    | (extract_lets +onlyGivenNames x; refine Keeps.cut (x := x) ?_ ?_ <;> [subst x; (intro; rename' x => y)])
    | (extract_lets +onlyGivenNames x; subst x; try beta_reduce) | (simp -zeta only [↓Keeps.lit])
    | with_reducible apply State.rset_keeps | with_reducible apply State.setFlag_keeps
    | with_reducible apply State.modCtx_keeps | with_reducible apply State.mrnCleared_keeps
    | with_reducible apply State.mrnLoad_keeps | split | (intro)

theorem State.fltWrite_keeps {s₀ s : State} {a k : Nat} {d : RegDesc} {v : Word} (kp : Keeps s₀ s) : Keeps s₀ (State.fltWrite
    s a k d v) := by
  unfold State.fltWrite
  repeat' first
    | with_reducible exact Keeps.refl _ | with_reducible assumption
    | (extract_lets +onlyGivenNames x; refine Keeps.cut (x := x) ?_ ?_ <;> [subst x; (intro; rename' x => y)])
    | (extract_lets +onlyGivenNames x; subst x; try beta_reduce) | with_reducible apply State.rset_keeps
    | with_reducible apply Keeps.foldl | split | (intro)

theorem State.writeWord_keeps {s₀ s : State} {c a : Nat} {v : Word} (kp : Keeps s₀ s) : Keeps s₀ (State.writeWord s c a v) :=
    by
  unfold State.writeWord
  repeat' first
    | with_reducible exact Keeps.refl _ | with_reducible assumption
    | (extract_lets +onlyGivenNames x; refine Keeps.cut (x := x) ?_ ?_ <;> [subst x; (intro; rename' x => y)])
    | (extract_lets +onlyGivenNames x; subst x; try beta_reduce) | (simp -zeta only [↓Keeps.lit])
    | with_reducible apply State.rset_keeps | with_reducible apply State.ppEmpty_keeps
    | with_reducible apply State.unfenceLanes_keeps | with_reducible apply State.tileWrite_keeps
    | with_reducible apply State.chanWrite_keeps | with_reducible apply State.ppPush_keeps
    | with_reducible apply State.linkCtrl_keeps | with_reducible apply State.chipWrite_keeps
    | with_reducible apply State.safeWrite_keeps | with_reducible apply State.morWrite_keeps
    | with_reducible apply State.fltWrite_keeps | split | (intro)

theorem State.failAt_keeps {s₀ s : State} {op : BitVec 8} {q : Req} {r : BitVec 8 × Nat} (kp : Keeps s₀ s) : Keeps s₀
    (State.failAt s op q r) := by
  unfold State.failAt
  repeat' first
    | with_reducible exact Keeps.refl _ | with_reducible assumption | with_reducible apply State.fail_keeps

theorem doRegRead_keeps {q : Req} {s₀ s : State} (kp : Keeps s₀ s) : Keeps s₀ (doRegRead q s) := by
  unfold doRegRead
  repeat' first
    | with_reducible exact Keeps.refl _ | with_reducible assumption
    | (extract_lets +onlyGivenNames x; refine Keeps.cut (x := x) ?_ ?_ <;> [subst x; (intro; rename' x => y)])
    | (extract_lets +onlyGivenNames x; subst x; try beta_reduce) | with_reducible apply State.reply_keeps
    | with_reducible apply State.fail_keeps | with_reducible apply State.request_keeps
    | with_reducible apply State.readWords_keeps | (refine State.readWords_keepsEq (by with_reducible assumption) ?_)
    | with_reducible apply State.failAt_keeps | split | (intro)

theorem State.coincident_keeps {s₀ s : State} {hw : List (Nat × Word)} {a : Nat} (kp : Keeps s₀ s) : Keeps s₀
    (State.coincident s hw a) := by
  unfold State.coincident
  repeat' first
    | with_reducible exact Keeps.refl _ | with_reducible assumption | with_reducible apply State.rset_keeps
    | with_reducible apply Keeps.foldl | split | (intro)

theorem State.writeWords_keeps {s₀ s : State} {c : Nat} {l hw : List (Nat × Word)} (kp : Keeps s₀ s) : Keeps s₀
    (State.writeWords s c l hw) := by
  unfold State.writeWords
  repeat' first
    | with_reducible exact Keeps.refl _ | with_reducible assumption
    | (extract_lets +onlyGivenNames x; refine Keeps.cut (x := x) ?_ ?_ <;> [subst x; (intro; rename' x => y)])
    | (extract_lets +onlyGivenNames x; subst x; try beta_reduce) | with_reducible apply State.writeWord_keeps
    | with_reducible apply State.coincident_keeps | with_reducible apply Keeps.foldl | (intro)

theorem State.replyAs_keeps {s₀ s : State} {id : Nat} {op : BitVec 8} {q : Req} {st : BitVec 8} {ps : List Word} (kp : Keeps
    s₀ s) : Keeps s₀ (State.replyAs s id op q st ps) := by
  unfold State.replyAs
  repeat' first
    | with_reducible exact Keeps.refl _ | with_reducible assumption | with_reducible apply State.fset_keeps
    | with_reducible apply State.reply_keeps | split

theorem doRegWrite_keeps {q : Req} {s₀ s : State} (kp : Keeps s₀ s) : Keeps s₀ (doRegWrite q s) := by
  unfold doRegWrite
  repeat' first
    | with_reducible exact Keeps.refl _ | with_reducible assumption
    | (extract_lets +onlyGivenNames x; refine Keeps.cut (x := x) ?_ ?_ <;> [subst x; (intro; rename' x => y)])
    | (extract_lets +onlyGivenNames x; subst x; try beta_reduce) | with_reducible apply State.fail_keeps
    | with_reducible apply State.request_keeps | with_reducible apply State.failAt_keeps
    | with_reducible apply State.writeWords_keeps | with_reducible apply State.replyAs_keeps | split | (intro)

theorem State.bitRequest_keeps {s₀ s : State} {op : BitVec 8} {q : Req} {sense : RegDesc → Word → Word → Word} (kp : Keeps s₀
    s) : Keeps s₀ (State.bitRequest s op q sense) := by
  unfold State.bitRequest
  repeat' first
    | with_reducible exact Keeps.refl _ | with_reducible assumption
    | (extract_lets +onlyGivenNames x; refine Keeps.cut (x := x) ?_ ?_ <;> [subst x; (intro; rename' x => y)])
    | (extract_lets +onlyGivenNames x; subst x; try beta_reduce) | with_reducible apply State.fail_keeps
    | with_reducible apply State.request_keeps | with_reducible apply State.writeWord_keeps
    | with_reducible apply State.coincident_keeps | with_reducible apply State.replyAs_keeps | split | (intro)

theorem doRegSetBits_keeps {q : Req} {s₀ s : State} (kp : Keeps s₀ s) : Keeps s₀ (doRegSetBits q s) := by
  unfold doRegSetBits
  repeat' first
    | with_reducible exact Keeps.refl _ | with_reducible assumption | with_reducible apply State.bitRequest_keeps

theorem doRegClearBits_keeps {q : Req} {s₀ s : State} (kp : Keeps s₀ s) : Keeps s₀ (doRegClearBits q s) := by
  unfold doRegClearBits
  repeat' first
    | with_reducible exact Keeps.refl _ | with_reducible assumption | with_reducible apply State.bitRequest_keeps

theorem doRegGather_keeps {q : Req} {s₀ s : State} (kp : Keeps s₀ s) : Keeps s₀ (doRegGather q s) := by
  unfold doRegGather
  repeat' first
    | with_reducible exact Keeps.refl _ | with_reducible assumption
    | (extract_lets +onlyGivenNames x; refine Keeps.cut (x := x) ?_ ?_ <;> [subst x; (intro; rename' x => y)])
    | (extract_lets +onlyGivenNames x; subst x; try beta_reduce) | with_reducible apply State.reply_keeps
    | with_reducible apply State.request_keeps | with_reducible apply State.readWords_keeps
    | (refine State.readWords_keepsEq (by with_reducible assumption) ?_) | with_reducible apply State.failAt_keeps | split
    | (intro)

theorem State.rstatOf_keeps {s₀ s : State} {st : BitVec 8} (kp : Keeps s₀ s) : Keeps s₀ (State.rstatOf s st).2 := by
  unfold State.rstatOf
  repeat' first
    | with_reducible exact Keeps.refl _ | with_reducible assumption
    | (extract_lets +onlyGivenNames x; refine Keeps.cut (x := x) ?_ ?_ <;> [subst x; (intro; rename' x => y)])
    | (extract_lets +onlyGivenNames x; subst x; try beta_reduce) | with_reducible apply State.free_keeps
    | (refine State.free_keepsEq (by with_reducible assumption) ?_) | split

theorem State.rstatOf_keepsEq {s₀ s : State} {st : BitVec 8} {r1 : Nat} {t_ : State} (h : State.rstatOf s st = (r1, t_)) (kp :
    Keeps s₀ s) : Keeps s₀ t_ := by
  have k := State.rstatOf_keeps (s₀ := s₀) (s := s) (st := st) kp
  rwa [h] at k

theorem State.vaNext_keeps {s₀ s : State} (kp : Keeps s₀ s) : Keeps s₀ (State.vaNext s) := by
  unfold State.vaNext
  repeat' first
    | with_reducible exact Keeps.refl _ | with_reducible assumption | with_reducible apply State.rset_keeps | split

theorem doVeingBoundaryAccess_keeps {s₀ s : State} (kp : Keeps s₀ s) : Keeps s₀ (doVeingBoundaryAccess s) := by
  unfold doVeingBoundaryAccess
  repeat' first
    | with_reducible exact Keeps.refl _ | with_reducible assumption
    | (extract_lets +onlyGivenNames x; refine Keeps.cut (x := x) ?_ ?_ <;> [subst x; (intro; rename' x => y)])
    | (extract_lets +onlyGivenNames x; subst x; try beta_reduce) | (simp -zeta only [↓Keeps.lit])
    | with_reducible apply State.veingDone_keeps | with_reducible apply State.readEffect_keeps
    | with_reducible apply State.current_keeps | with_reducible apply State.writeWord_keeps
    | with_reducible apply State.rstatOf_keeps | (refine State.rstatOf_keepsEq (by with_reducible assumption) ?_)
    | with_reducible apply State.vaNext_keeps | split

theorem State.eccPlayback_keeps {s₀ s : State} {c : Nat} {inj : Bool} (kp : Keeps s₀ s) : Keeps s₀ (State.eccPlayback s c inj)
    := by
  unfold State.eccPlayback
  repeat' first
    | with_reducible exact Keeps.refl _ | with_reducible assumption | with_reducible apply State.coreSource_keeps | split

theorem State.eccEffect_keeps {s₀ s : State} {space c off : Nat} {inj : Bool} (kp : Keeps s₀ s) : Keeps s₀ (State.eccEffect s
    space c off inj) := by
  unfold State.eccEffect
  repeat' first
    | with_reducible exact Keeps.refl _ | with_reducible assumption
    | (extract_lets +onlyGivenNames x; refine Keeps.cut (x := x) ?_ ?_ <;> [subst x; (intro; rename' x => y)])
    | (extract_lets +onlyGivenNames x; subst x; try beta_reduce) | (simp -zeta only [↓Keeps.lit])
    | with_reducible apply State.setFlag_keeps | with_reducible apply State.mwrite_keeps
    | with_reducible apply State.modTile_keeps | with_reducible apply State.suspectFlag_keeps
    | with_reducible apply State.stagingDrop_keeps | with_reducible apply State.vaultWipe_keeps
    | with_reducible apply State.raise_keeps | with_reducible apply State.trapRoutine_keeps
    | with_reducible apply State.eccPlayback_keeps | split | (intro)

theorem State.eccError_keeps {s₀ s : State} {p2 off : Nat} {inj : Bool} (kp : Keeps s₀ s) : Keeps s₀ (State.eccError s p2 off
    inj) := by
  unfold State.eccError
  repeat' first
    | with_reducible exact Keeps.refl _ | with_reducible assumption
    | (extract_lets +onlyGivenNames x; refine Keeps.cut (x := x) ?_ ?_ <;> [subst x; (intro; rename' x => y)])
    | (extract_lets +onlyGivenNames x; subst x; try beta_reduce) | (simp -zeta only [↓Keeps.lit])
    | with_reducible apply State.raise_keeps | with_reducible apply State.eccNote_keeps
    | with_reducible apply State.eccEffect_keeps | split

theorem doBtRegionTest_keeps {found : List Defect} {corrected bad : List (Nat × Nat)} {s₀ s : State} (kp : Keeps s₀ s) : Keeps
    s₀ (doBtRegionTest found corrected bad s) := by
  unfold doBtRegionTest
  repeat' first
    | with_reducible exact Keeps.refl _ | with_reducible assumption
    | (extract_lets +onlyGivenNames x; refine Keeps.cut (x := x) ?_ ?_ <;> [subst x; (intro; rename' x => y)])
    | (extract_lets +onlyGivenNames x; subst x; try beta_reduce) | (simp -zeta only [↓Keeps.lit])
    | with_reducible apply State.evCount_keeps | with_reducible apply State.defect_keeps
    | with_reducible apply State.correct_keeps | with_reducible apply State.btAdvance_keeps
    | with_reducible apply State.eccError_keeps | with_reducible apply Keeps.foldl | split | (intro)

theorem State.injSafety_keeps {s₀ s : State} {src u p3 : Nat} (kp : Keeps s₀ s) : Keeps s₀ (State.injSafety s src u p3) := by
  unfold State.injSafety
  repeat' first
    | with_reducible exact Keeps.refl _ | with_reducible assumption
    | (extract_lets +onlyGivenNames x; refine Keeps.cut (x := x) ?_ ?_ <;> [subst x; (intro; rename' x => y)])
    | (extract_lets +onlyGivenNames x; subst x; try beta_reduce) | with_reducible apply State.setFlag_keeps
    | with_reducible apply State.free_keeps | (refine State.free_keepsEq (by with_reducible assumption) ?_)
    | with_reducible apply State.suspectFlag_keeps | with_reducible apply State.suspectAll_keeps
    | with_reducible apply State.faultRaise_keeps | with_reducible apply State.safety_keeps
    | with_reducible apply State.pinReaction_keeps | with_reducible apply State.checkBad_keeps
    | with_reducible apply State.fenceSnt_keeps | with_reducible apply State.fenceDone_keeps
    | with_reducible apply State.boundary_keeps | with_reducible apply State.endStep_keeps
    | with_reducible apply State.endSteps_keeps | with_reducible apply State.calReject_keeps
    | with_reducible apply State.raise_keeps | with_reducible apply State.sntViolate_keeps
    | with_reducible apply State.sf3_keeps | split

theorem State.injLink_keeps {s₀ s : State} {l src u : Nat} (kp : Keeps s₀ s) : Keeps s₀ (State.injLink s l src u) := by
  unfold State.injLink
  repeat' first
    | with_reducible exact Keeps.refl _ | with_reducible assumption
    | (extract_lets +onlyGivenNames x; refine Keeps.cut (x := x) ?_ ?_ <;> [subst x; (intro; rename' x => y)])
    | (extract_lets +onlyGivenNames x; subst x; try beta_reduce) | (simp -zeta only [↓Keeps.lit])
    | with_reducible apply State.count_keeps | with_reducible apply State.modLink_keeps
    | with_reducible apply State.linkStop_keeps | with_reducible apply State.linkEvt_keeps
    | with_reducible apply State.enterRetrain_keeps | with_reducible apply State.goDown_keeps
    | with_reducible apply State.loseLane_keeps | split | (intro)

theorem State.injSecurity_keeps {s₀ s : State} {src : Nat} (kp : Keeps s₀ s) : Keeps s₀ (State.injSecurity s src) := by
  unfold State.injSecurity
  repeat' first
    | with_reducible exact Keeps.refl _ | with_reducible assumption | (simp -zeta only [↓Keeps.lit])
    | with_reducible apply State.setFlag_keeps | with_reducible apply State.chipEvent_keeps
    | with_reducible apply State.vaultWipe_keeps | with_reducible apply State.raise_keeps
    | with_reducible apply State.tamper_keeps | split

theorem State.injMemory_keeps {s₀ s : State} {src u p3 : Nat} (kp : Keeps s₀ s) : Keeps s₀ (State.injMemory s src u p3) := by
  unfold State.injMemory
  repeat' first
    | with_reducible exact Keeps.refl _ | with_reducible assumption | with_reducible apply State.raise_keeps
    | with_reducible apply State.noSpare_keeps | with_reducible apply State.eccError_keeps | split

theorem State.injPower_keeps {s₀ s : State} {src u : Nat} {p3 : Word} (kp : Keeps s₀ s) : Keeps s₀ (State.injPower s src u p3)
    := by
  unfold State.injPower
  repeat' first
    | with_reducible exact Keeps.refl _ | with_reducible assumption
    | (extract_lets +onlyGivenNames x; refine Keeps.cut (x := x) ?_ ?_ <;> [subst x; (intro; rename' x => y)])
    | (extract_lets +onlyGivenNames x; subst x; try beta_reduce) | with_reducible apply State.setFlag_keeps
    | with_reducible apply State.evCount_keeps | with_reducible apply State.chipEvent_keeps
    | with_reducible apply State.suspectAll_keeps | with_reducible apply State.raise_keeps
    | with_reducible apply State.throttleAbort_keeps | with_reducible apply doSupplyExcursionBegin_keeps
    | with_reducible apply State.excursionEnd_keeps | with_reducible apply State.controlledStop_keeps | split | (intro)

theorem State.injMoraine_keeps {s₀ s : State} {src : Nat} (kp : Keeps s₀ s) : Keeps s₀ (State.injMoraine s src) := by
  unfold State.injMoraine
  repeat' first
    | with_reducible exact Keeps.refl _ | with_reducible assumption
    | (extract_lets +onlyGivenNames x; refine Keeps.cut (x := x) ?_ ?_ <;> [subst x; (intro; rename' x => y)])
    | (extract_lets +onlyGivenNames x; subst x; try beta_reduce) | (simp -zeta only [↓Keeps.lit])
    | with_reducible apply State.setFlag_keeps | with_reducible apply State.count_keeps
    | with_reducible apply State.raise_keeps | with_reducible apply State.dumpMissed_keeps | split

theorem State.injPorts_keeps {s₀ s : State} {src : Nat} (kp : Keeps s₀ s) : Keeps s₀ (State.injPorts s src) := by
  unfold State.injPorts
  repeat' first
    | with_reducible exact Keeps.refl _ | with_reducible assumption | with_reducible apply State.raise_keeps
    | with_reducible apply State.contBreak_keeps | with_reducible apply State.frameError_keeps | split

theorem State.injectAt_keeps {s₀ s : State} {b src u : Nat} {p3 : Word} (kp : Keeps s₀ s) : Keeps s₀ (State.injectAt s b src u
    p3) := by
  unfold State.injectAt
  repeat' first
    | with_reducible exact Keeps.refl _ | with_reducible assumption | with_reducible apply State.coreSource_keeps
    | with_reducible apply State.trapRoutine_keeps | with_reducible apply State.injSafety_keeps
    | with_reducible apply State.injLink_keeps | with_reducible apply State.injSecurity_keeps
    | with_reducible apply State.injMemory_keeps | with_reducible apply State.injPower_keeps
    | with_reducible apply State.injMoraine_keeps | with_reducible apply State.injPorts_keeps | split

theorem doInject_keeps {q : Req} {s₀ s : State} (kp : Keeps s₀ s) : Keeps s₀ (doInject q s) := by
  unfold doInject
  repeat' first
    | with_reducible exact Keeps.refl _ | with_reducible assumption
    | (extract_lets +onlyGivenNames x; refine Keeps.cut (x := x) ?_ ?_ <;> [subst x; (intro; rename' x => y)])
    | (extract_lets +onlyGivenNames x; subst x; try beta_reduce) | (simp -zeta only [↓Keeps.lit])
    | with_reducible apply State.reply_keeps | with_reducible apply State.fail_keeps
    | with_reducible apply State.request_keeps | with_reducible apply State.injectAt_keeps | split | (intro)

/-- A state with the registers that a mask keeps and nothing in memory. -/
theorem Keeps.reset {s₀ x t : State} {mask : Nat → Word} (k : Keeps s₀ x) (p : t.pending = x.pending) (m : t.mem = [])
    (r : t.regs = keepRegs mask x.regs) : Keeps s₀ t :=
  k.trans ⟨p, fun _ => by rw [m]; rfl, fun h => by rw [r]; exact keepRegs_wf mask h⟩

theorem State.powerOn_keeps {s₀ s : State} (kp : Keeps s₀ s) : Keeps s₀ (State.powerOn s) := by
  unfold State.powerOn
  repeat' first
    | with_reducible exact Keeps.refl _ | with_reducible assumption
    | exact Keeps.reset (x := s.free.2) (mask := otpMask) (State.free_keeps kp) rfl rfl rfl
    | (extract_lets +onlyGivenNames x; refine Keeps.cut (x := x) ?_ ?_ <;> [subst x; (intro; rename' x => y)])
    | (extract_lets +onlyGivenNames x; subst x; try beta_reduce) | with_reducible apply State.fset_keeps
    | with_reducible apply State.oldest_keeps | with_reducible apply State.setFlag_keeps | with_reducible apply State.count_keeps

theorem doPowerOnReset_keeps {s₀ s : State} (kp : Keeps s₀ s) : Keeps s₀ (doPowerOnReset s) := by
  unfold doPowerOnReset
  repeat' first
    | with_reducible exact Keeps.refl _ | with_reducible assumption | with_reducible apply State.powerOn_keeps

theorem doWarmReset_keeps {s₀ s : State} (kp : Keeps s₀ s) : Keeps s₀ (doWarmReset s) := by
  unfold doWarmReset
  repeat' first
    | with_reducible exact Keeps.refl _ | with_reducible assumption | with_reducible apply State.warmReset_keeps

theorem doSupplyReset_keeps {rail : Fin 8} {s₀ s : State} (kp : Keeps s₀ s) : Keeps s₀ (doSupplyReset rail s) := by
  unfold doSupplyReset
  repeat' first
    | with_reducible exact Keeps.refl _ | with_reducible assumption | with_reducible apply State.warmReset_keeps
    | with_reducible apply State.powerOn_keeps | split

theorem State.rehome_keeps {s₀ s : State} {t : Nat} (kp : Keeps s₀ s) : Keeps s₀ (State.rehome s t) := by
  unfold State.rehome
  repeat' first
    | with_reducible exact Keeps.refl _ | with_reducible assumption | with_reducible apply State.fset_keeps
    | with_reducible apply State.setSpare_keeps | with_reducible apply State.fenceTile_keeps | split

theorem State.bootCores_keeps {s₀ s : State} {l : List (Nat × Nat)} (kp : Keeps s₀ s) : Keeps s₀ (State.bootCores s l) := by
  unfold State.bootCores
  repeat' first
    | with_reducible exact Keeps.refl _ | with_reducible assumption
    | (extract_lets +onlyGivenNames x; refine Keeps.cut (x := x) ?_ ?_ <;> [subst x; (intro; rename' x => y)])
    | (extract_lets +onlyGivenNames x; subst x; try beta_reduce) | with_reducible apply State.fenceCore_keeps
    | with_reducible apply State.rehome_keeps | with_reducible apply Keeps.foldl | (intro)

theorem State.bootChans_keeps {s₀ s : State} {l : List Nat} {cause : Nat} (kp : Keeps s₀ s) : Keeps s₀ (State.bootChans s l
    cause) := by
  unfold State.bootChans
  repeat' first
    | with_reducible exact Keeps.refl _ | with_reducible assumption | with_reducible apply State.fenceChan_keeps
    | with_reducible apply Keeps.foldl | split | (intro)

theorem State.bootImage_keeps {s₀ s : State} {r : BootReport} (kp : Keeps s₀ s) : Keeps s₀ (State.bootImage s r) := by
  unfold State.bootImage
  repeat' first
    | with_reducible exact Keeps.refl _ | with_reducible assumption
    | (extract_lets +onlyGivenNames x; refine Keeps.cut (x := x) ?_ ?_ <;> [subst x; (intro; rename' x => y)])
    | (extract_lets +onlyGivenNames x; subst x; try beta_reduce) | with_reducible apply State.fset_keeps
    | with_reducible apply State.setFlag_keeps | with_reducible apply State.patchIn_keeps | split

theorem State.loadTable_keeps {s₀ s : State} {b : List Byte} (kp : Keeps s₀ s) : Keeps s₀ (State.loadTable s b) := by
  unfold State.loadTable
  repeat' first
    | with_reducible exact Keeps.refl _ | with_reducible assumption
    | (extract_lets +onlyGivenNames x; refine Keeps.cut (x := x) ?_ ?_ <;> [subst x; (intro; rename' x => y)])
    | (extract_lets +onlyGivenNames x; subst x; try beta_reduce) | (simp -zeta only [↓Keeps.lit])
    | with_reducible apply State.rset_keeps | with_reducible apply State.fset_keeps | with_reducible apply State.setFlag_keeps
    | with_reducible apply Keeps.foldl | split | (intro)

theorem State.postResult_keeps {s₀ s : State} {r : BootReport} {chans lanes cores : Nat} (kp : Keeps s₀ s) : Keeps s₀
    (State.postResult s r chans lanes cores) := by
  unfold State.postResult
  repeat' first
    | with_reducible exact Keeps.refl _ | with_reducible assumption
    | (extract_lets +onlyGivenNames x; refine Keeps.cut (x := x) ?_ ?_ <;> [subst x; (intro; rename' x => y)])
    | (extract_lets +onlyGivenNames x; subst x; try beta_reduce) | with_reducible apply State.fset_keeps
    | with_reducible apply State.setFlag_keeps

theorem State.bootPins_keeps {s₀ s : State} (kp : Keeps s₀ s) : Keeps s₀ (State.bootPins s) := by
  unfold State.bootPins
  repeat' first
    | with_reducible exact Keeps.refl _ | with_reducible assumption
    | (extract_lets +onlyGivenNames x; refine Keeps.cut (x := x) ?_ ?_ <;> [subst x; (intro; rename' x => y)])
    | (extract_lets +onlyGivenNames x; subst x; try beta_reduce) | with_reducible apply State.fset_keeps
    | with_reducible apply State.applySafe_keeps | with_reducible apply State.calLoad_keeps | with_reducible apply Keeps.foldl
    | split | (intro)

theorem State.identify_keeps {s₀ s : State} (kp : Keeps s₀ s) : Keeps s₀ (State.identify s) := by
  unfold State.identify
  repeat' first
    | with_reducible exact Keeps.refl _ | with_reducible assumption
    | (extract_lets +onlyGivenNames x; refine Keeps.cut (x := x) ?_ ?_ <;> [subst x; (intro; rename' x => y)])
    | (extract_lets +onlyGivenNames x; subst x; try beta_reduce) | with_reducible apply State.rset_keeps
    | with_reducible apply Keeps.foldl | (intro)

theorem State.checkCert_keeps {s₀ s : State} {found : Option (List Byte)} (kp : Keeps s₀ s) : Keeps s₀ (State.checkCert s
    found) := by
  unfold State.checkCert
  repeat' first
    | with_reducible exact Keeps.refl _ | with_reducible assumption
    | (extract_lets +onlyGivenNames x; refine Keeps.cut (x := x) ?_ ?_ <;> [subst x; (intro; rename' x => y)])
    | (extract_lets +onlyGivenNames x; subst x; try beta_reduce) | (simp -zeta only [↓Keeps.lit]) | split

theorem doBoot_keeps {r : BootReport} {s₀ s : State} (kp : Keeps s₀ s) : Keeps s₀ (doBoot r s) := by
  unfold doBoot
  repeat' first
    | with_reducible exact Keeps.refl _ | with_reducible assumption
    | (extract_lets +onlyGivenNames x; refine Keeps.cut (x := x) ?_ ?_ <;> [subst x; (intro; rename' x => y)])
    | (extract_lets +onlyGivenNames x; subst x; try beta_reduce) | (simp -zeta only [↓Keeps.lit])
    | with_reducible apply State.rset_keeps | with_reducible apply State.fset_keeps | with_reducible apply State.setFlag_keeps
    | with_reducible apply State.chipEvent_keeps | with_reducible apply State.stage_keeps
    | with_reducible apply State.fenceApply_keeps | with_reducible apply State.raise_keeps
    | with_reducible apply State.fenceLane_keeps | with_reducible apply State.train_keeps
    | with_reducible apply State.spareChecked_keeps | with_reducible apply State.defect_keeps
    | with_reducible apply State.syncSealBlk_keeps | with_reducible apply State.flushed_keeps
    | with_reducible apply State.bootCores_keeps | with_reducible apply State.bootChans_keeps
    | with_reducible apply State.bootImage_keeps | with_reducible apply State.loadTable_keeps
    | with_reducible apply State.postResult_keeps | with_reducible apply State.bootPins_keeps
    | with_reducible apply State.identify_keeps | with_reducible apply State.checkCert_keeps
    | with_reducible apply Keeps.foldl | split | (intro)

theorem doTapInstructionUpdate_keeps {ir : BitVec 4} {s₀ s : State} (kp : Keeps s₀ s) : Keeps s₀ (doTapInstructionUpdate ir s)
    := by
  unfold doTapInstructionUpdate
  repeat' first
    | with_reducible exact Keeps.refl _ | with_reducible assumption
    | (extract_lets +onlyGivenNames x; refine Keeps.cut (x := x) ?_ ?_ <;> [subst x; (intro; rename' x => y)])
    | (extract_lets +onlyGivenNames x; subst x; try beta_reduce) | (simp -zeta only [↓Keeps.lit])
    | with_reducible apply State.endSteps_keeps | with_reducible apply State.cancelSplit_keeps
    | with_reducible apply Keeps.foldl | split | (intro)

theorem doSelftest_keeps {q : Req} {s₀ s : State} (kp : Keeps s₀ s) : Keeps s₀ (doSelftest q s) := by
  unfold doSelftest
  repeat' first
    | with_reducible exact Keeps.refl _ | with_reducible assumption | with_reducible apply State.fail_keeps
    | with_reducible apply State.start_keeps | with_reducible apply State.request_keeps | split | (intro)

theorem doSelftestDone_keeps {o : OpRef} {badCores badStores : List (Fin 68)} {badChans : List (Fin 1024)} {s₀ s : State} (kp
    : Keeps s₀ s) : Keeps s₀ (doSelftestDone o badCores badStores badChans s) := by
  unfold doSelftestDone
  repeat' first
    | with_reducible exact Keeps.refl _ | with_reducible assumption
    | (extract_lets +onlyGivenNames x; refine Keeps.cut (x := x) ?_ ?_ <;> [subst x; (intro; rename' x => y)])
    | (extract_lets +onlyGivenNames x; subst x; try beta_reduce) | with_reducible apply State.fset_keeps
    | with_reducible apply State.complete_keeps | with_reducible apply State.boundary_keeps
    | with_reducible apply State.raise_keeps | with_reducible apply State.permanent_keeps
    | with_reducible apply State.bootChans_keeps | with_reducible apply Keeps.foldl | split | (intro)

theorem State.setScratch_keeps {s₀ s : State} {k : Nat} {v : Word} (kp : Keeps s₀ s) : Keeps s₀ (State.setScratch s k v) := by
  unfold State.setScratch
  repeat' first
    | with_reducible exact Keeps.refl _ | with_reducible assumption | (simp -zeta only [↓Keeps.lit])
    | with_reducible apply State.modMicro_keeps | (intro)

theorem State.microLoad_keeps {s₀ s : State} {c a : Nat} (kp : Keeps s₀ s) : Keeps s₀ (State.microLoad s c a).2 := by
  unfold State.microLoad
  repeat' first
    | with_reducible exact Keeps.refl _ | with_reducible assumption
    | (extract_lets +onlyGivenNames x; refine Keeps.cut (x := x) ?_ ?_ <;> [subst x; (intro; rename' x => y)])
    | (extract_lets +onlyGivenNames x; subst x; try beta_reduce) | with_reducible apply State.free_keeps
    | (refine State.free_keepsEq (by with_reducible assumption) ?_) | with_reducible apply State.readWords_keeps
    | (refine State.readWords_keepsEq (by with_reducible assumption) ?_) | split

theorem State.microLoad_keepsEq {s₀ s : State} {c a : Nat} {r1 : Word} {t_ : State} (h : State.microLoad s c a = (r1, t_)) (kp
    : Keeps s₀ s) : Keeps s₀ t_ := by
  have k := State.microLoad_keeps (s₀ := s₀) (s := s) (c := c) (a := a) kp
  rwa [h] at k

theorem State.microStore_keeps {s₀ s : State} {c a : Nat} {v : Word} (kp : Keeps s₀ s) : Keeps s₀ (State.microStore s c a v)
    := by
  unfold State.microStore
  repeat' first
    | with_reducible exact Keeps.refl _ | with_reducible assumption | with_reducible apply State.writeWord_keeps | split

theorem State.sendEvent_keeps {s₀ s : State} {p : Packet} {live quiet : Bool} (kp : Keeps s₀ s) : Keeps s₀ (State.sendEvent s
    p live quiet) := by
  unfold State.sendEvent
  repeat' first
    | with_reducible exact Keeps.refl _ | with_reducible assumption | (simp -zeta only [↓Keeps.lit])
    | with_reducible apply State.send_keeps | split

theorem State.microEvent_keeps {s₀ s : State} {op : BitVec 8} {q : Req} (kp : Keeps s₀ s) : Keeps s₀ (State.microEvent s op q)
    := by
  unfold State.microEvent
  repeat' first
    | with_reducible exact Keeps.refl _ | with_reducible assumption
    | (extract_lets +onlyGivenNames x; refine Keeps.cut (x := x) ?_ ?_ <;> [subst x; (intro; rename' x => y)])
    | (extract_lets +onlyGivenNames x; subst x; try beta_reduce) | (simp -zeta only [↓Keeps.lit])
    | with_reducible apply State.modMicro_keeps | with_reducible apply State.free_keeps
    | (refine State.free_keepsEq (by with_reducible assumption) ?_) | with_reducible apply State.chipEvent_keeps
    | with_reducible apply State.complete_keeps | with_reducible apply State.sendEvent_keeps | split | (intro)

theorem State.microReply_keeps {s₀ s : State} {op : BitVec 8} {q : Req} {st : BitVec 8} (kp : Keeps s₀ s) : Keeps s₀
    (State.microReply s op q st) := by
  unfold State.microReply
  repeat' first
    | with_reducible exact Keeps.refl _ | with_reducible assumption
    | (extract_lets +onlyGivenNames x; refine Keeps.cut (x := x) ?_ ?_ <;> [subst x; (intro; rename' x => y)])
    | (extract_lets +onlyGivenNames x; subst x; try beta_reduce) | (simp -zeta only [↓Keeps.lit])
    | with_reducible apply State.modMicro_keeps | with_reducible apply State.reply_keeps | split | (intro)

theorem State.microData_keeps {s₀ s : State} {q : Req} {i : Microword} (kp : Keeps s₀ s) : Keeps s₀ (State.microData s q i) :=
    by
  unfold State.microData
  repeat' first
    | with_reducible exact Keeps.refl _ | with_reducible assumption
    | (extract_lets +onlyGivenNames x; refine Keeps.cut (x := x) ?_ ?_ <;> [subst x; (intro; rename' x => y)])
    | (extract_lets +onlyGivenNames x; subst x; try beta_reduce) | (simp -zeta only [↓Keeps.lit])
    | with_reducible apply State.modMicro_keeps | with_reducible apply State.writeWords_keeps
    | with_reducible apply State.setScratch_keeps | with_reducible apply State.microLoad_keeps
    | (refine State.microLoad_keepsEq (by with_reducible assumption) ?_) | with_reducible apply State.microStore_keeps | split
    | (intro)

theorem State.microSplit_keeps {s₀ s : State} {op : BitVec 8} {q : Req} (kp : Keeps s₀ s) : Keeps s₀ (State.microSplit s op q)
    := by
  unfold State.microSplit
  repeat' first
    | with_reducible exact Keeps.refl _ | with_reducible assumption
    | (extract_lets +onlyGivenNames x; refine Keeps.cut (x := x) ?_ ?_ <;> [subst x; (intro; rename' x => y)])
    | (extract_lets +onlyGivenNames x; subst x; try beta_reduce) | (simp -zeta only [↓Keeps.lit])
    | with_reducible apply State.register_keeps | with_reducible apply State.setSplit_keeps | split

theorem State.microFlow_keeps {s₀ s : State} {op : BitVec 8} {q : Req} {pc : Nat} {i : Microword} (kp : Keeps s₀ s) : Keeps s₀
    (State.microFlow s op q pc i) := by
  unfold State.microFlow
  repeat' first
    | with_reducible exact Keeps.refl _ | with_reducible assumption | (simp -zeta only [↓Keeps.lit])
    | with_reducible apply State.modMicro_keeps | with_reducible apply State.fail_keeps
    | with_reducible apply State.microEvent_keeps | with_reducible apply State.microReply_keeps
    | with_reducible apply State.microSplit_keeps | split | (intro)

theorem State.microRun_keeps {s₀ s : State} {op : BitVec 8} {q : Req} {pc : Nat} {i : Microword} (kp : Keeps s₀ s) :
    Keeps s₀ (State.microRun s op q pc i).1 := by
  unfold State.microRun
  dsimp only
  split
  · exact State.microData_keeps kp
  · exact State.microFlow_keeps kp

theorem State.microRun_keepsEq {s₀ s : State} {op : BitVec 8} {q : Req} {pc : Nat} {i : Microword} {r2 : MicroNext} {t_ : State}
    (h : State.microRun s op q pc i = (t_, r2)) (kp : Keeps s₀ s) : Keeps s₀ t_ := by
  have k := State.microRun_keeps (s₀ := s₀) (s := s) (op := op) (q := q) (pc := pc) (i := i) kp
  rwa [h] at k

theorem State.microLoop_keeps {s₀ s : State} {op : BitVec 8} {q : Req} {n pc : Nat} (kp : Keeps s₀ s) :
    Keeps s₀ (State.microLoop op q n pc s).1 := by
  induction n generalizing s pc with
  | zero => exact kp
  | succ n ih =>
    unfold State.microLoop
    extract_lets w i bad s₁
    have h : Keeps s₀ s₁ := State.modMicro_keeps kp
    split
    · exact h
    split
    · next e => exact ih (State.microRun_keepsEq e h)
    · next e => exact State.microRun_keepsEq e h
    · next e => exact State.microRun_keepsEq e h

theorem State.microLoop_keepsEq {s₀ s : State} {op : BitVec 8} {q : Req} {n pc : Nat} {r : Option Nat} {t_ : State}
    (h : State.microLoop op q n pc s = (t_, r)) (kp : Keeps s₀ s) : Keeps s₀ t_ := by
  have k := State.microLoop_keeps (s₀ := s₀) (s := s) (op := op) (q := q) (n := n) (pc := pc) kp
  rwa [h] at k

theorem State.microTrap_keeps {s₀ s : State} {op : BitVec 8} {q : Req} {cause : Nat} (kp : Keeps s₀ s) : Keeps s₀
    (State.microTrap s op q cause) := by
  unfold State.microTrap
  repeat' first
    | with_reducible exact Keeps.refl _ | with_reducible assumption
    | (extract_lets +onlyGivenNames x; refine Keeps.cut (x := x) ?_ ?_ <;> [subst x; (intro; rename' x => y)])
    | (extract_lets +onlyGivenNames x; subst x; try beta_reduce) | (simp -zeta only [↓Keeps.lit])
    | with_reducible apply State.modMicro_keeps | with_reducible apply State.fail_keeps
    | with_reducible apply State.complete_keeps | with_reducible apply State.sendEvent_keeps | split | (intro)

theorem State.microRoutine_keeps {s₀ s : State} {op : BitVec 8} {q : Req} {entry : Nat} {event : Option (Packet × Bool ×
    Bool)} (kp : Keeps s₀ s) : Keeps s₀ (State.microRoutine s op q entry event) := by
  unfold State.microRoutine
  repeat' first
    | with_reducible exact Keeps.refl _ | with_reducible assumption
    | (extract_lets +onlyGivenNames x; refine Keeps.cut (x := x) ?_ ?_ <;> [subst x; (intro; rename' x => y)])
    | (extract_lets +onlyGivenNames x; subst x; try beta_reduce) | (simp -zeta only [↓Keeps.lit])
    | with_reducible apply State.count_keeps | with_reducible apply State.ran_keeps
    | with_reducible apply State.microLoop_keeps | (refine State.microLoop_keepsEq (by with_reducible assumption) ?_)
    | with_reducible apply State.microTrap_keeps | split | (intro)

theorem State.microCompletion_keeps {s₀ s : State} {p : Packet} {live quiet : Bool} {entry : Nat} (kp : Keeps s₀ s) : Keeps s₀
    (State.microCompletion s p live quiet entry) := by
  unfold State.microCompletion
  repeat' first
    | with_reducible exact Keeps.refl _ | with_reducible assumption | (simp -zeta only [↓Keeps.lit])
    | with_reducible apply State.microRoutine_keeps

theorem State.afterwards_keeps {s₀ s : State} {x_ : After} (kp : Keeps s₀ s) : Keeps s₀ (State.afterwards s x_) := by
  unfold State.afterwards
  repeat' first
    | with_reducible exact Keeps.refl _ | with_reducible assumption | with_reducible apply State.toIdle_keeps
    | with_reducible apply State.closeAll_keeps | split

theorem State.itemRoutine_keeps {s₀ s : State} {inj : Bool} {x_ : Item} (kp : Keeps s₀ s) : Keeps s₀ (State.itemRoutine s inj
    x_) := by
  unfold State.itemRoutine
  repeat' first
    | with_reducible exact Keeps.refl _ | with_reducible assumption | with_reducible apply State.chipEvent_keeps
    | with_reducible apply State.routine_keeps | with_reducible apply State.safety_keeps
    | with_reducible apply State.request_keeps | with_reducible apply State.faultRoutine_keeps
    | with_reducible apply State.trapRoutine_keeps | with_reducible apply State.sendEvent_keeps
    | with_reducible apply State.microCompletion_keeps | with_reducible apply State.afterwards_keeps | split

theorem romRoutine_keeps {op : BitVec 8} {q : Req} {s₀ s : State} (kp : Keeps s₀ s) : Keeps s₀ (romRoutine op q s) := by
  unfold romRoutine
  repeat' first
    | with_reducible exact Keeps.refl _ | with_reducible assumption | with_reducible apply doCalCommit_keeps
    | with_reducible apply doCalRead_keeps | with_reducible apply doCalRun_keeps | with_reducible apply doSegWrite_keeps
    | with_reducible apply doSegCommit_keeps | with_reducible apply doStreamOpen_keeps
    | with_reducible apply doStreamClose_keeps | with_reducible apply doHello_keeps | with_reducible apply State.bye_keeps
    | with_reducible apply doPing_keeps | with_reducible apply doStepArm_keeps | with_reducible apply doStepStart_keeps
    | with_reducible apply doStepStatus_keeps | with_reducible apply doAbort_keeps | with_reducible apply doEventWait_keeps
    | with_reducible apply doCaptureRead_keeps | with_reducible apply doFailRead_keeps
    | with_reducible apply doProfileRead_keeps | with_reducible apply doMeasure_keeps | with_reducible apply doFence_keeps
    | with_reducible apply doCalve_keeps | with_reducible apply doMemRead_keeps | with_reducible apply doMemWrite_keeps
    | with_reducible apply doPowerState_keeps | with_reducible apply doAttest_keeps | with_reducible apply doIdentity_keeps
    | with_reducible apply doSealLoad_keeps | with_reducible apply doLifecycle_keeps | with_reducible apply doFrost_keeps
    | with_reducible apply doDumpRead_keeps | with_reducible apply doPatchLoad_keeps
    | with_reducible apply doUndefinedOpcode_keeps | with_reducible apply doRegRead_keeps
    | with_reducible apply doRegWrite_keeps | with_reducible apply doRegSetBits_keeps
    | with_reducible apply doRegClearBits_keeps | with_reducible apply doRegGather_keeps | with_reducible apply doInject_keeps
    | with_reducible apply doSelftest_keeps | split

theorem State.patched_keeps {s₀ s : State} {op : BitVec 8} {q : Req} (kp : Keeps s₀ s) : Keeps s₀ (State.patched s op q) := by
  unfold State.patched
  repeat' first
    | with_reducible exact Keeps.refl _ | with_reducible assumption
    | (extract_lets +onlyGivenNames x; refine Keeps.cut (x := x) ?_ ?_ <;> [subst x; (intro; rename' x => y)])
    | (extract_lets +onlyGivenNames x; subst x; try beta_reduce) | with_reducible apply State.fail_keeps
    | with_reducible apply State.routine_keeps | with_reducible apply State.hold_keeps
    | with_reducible apply State.wakeEngine_keeps | with_reducible apply State.microRoutine_keeps | split

theorem State.byTable_keeps {s₀ s : State} {op : BitVec 8} {q : Req} {rom : State → State} (kp : Keeps s₀ s) (h_rom : ∀ {s₁ s
    : State}, Keeps s₁ s → Keeps s₁ (rom s)) : Keeps s₀ (State.byTable s op q rom) := by
  unfold State.byTable
  repeat' first
    | with_reducible exact Keeps.refl _ | with_reducible assumption | with_reducible apply h_rom
    | with_reducible apply State.patched_keeps | split

theorem routineOf_keeps {op : BitVec 8} {q : Req} {s₀ s : State} (kp : Keeps s₀ s) : Keeps s₀ (routineOf op q s) := by
  unfold routineOf
  repeat' first
    | with_reducible exact Keeps.refl _ | with_reducible assumption | with_reducible apply romRoutine_keeps
    | with_reducible apply State.byTable_keeps

theorem State.runRequest_keeps {s₀ s : State} {op : BitVec 8} {q : Req} (kp : Keeps s₀ s) : Keeps s₀ (State.runRequest s op q)
    := by
  unfold State.runRequest
  repeat' first
    | with_reducible exact Keeps.refl _ | with_reducible assumption
    | (extract_lets +onlyGivenNames x; refine Keeps.cut (x := x) ?_ ?_ <;> [subst x; (intro; rename' x => y)])
    | (extract_lets +onlyGivenNames x; subst x; try beta_reduce) | (simp -zeta only [↓Keeps.lit])
    | with_reducible apply State.request_keeps | with_reducible apply State.taken_keeps | with_reducible apply routineOf_keeps
    | split

theorem State.turn_keepsEq {s₀ s t : State} {n : Nat} (h : State.turn s n = some t) (kp : Keeps s₀ s) : Keeps s₀ t := by
  unfold State.turn at h
  split at h
  · cases h
  · extract_lets r at h
    split at h
    · cases h
    · cases h
      exact (State.runRequest_keeps kp).trans (.upd rfl rfl rfl)

theorem State.takeFirst_keeps {s₀ s : State} {i : Item} (kp : Keeps s₀ s) : Keeps s₀ (State.takeFirst s i) := by
  unfold State.takeFirst
  repeat' first
    | with_reducible exact Keeps.refl _ | with_reducible assumption | (simp -zeta only [↓Keeps.lit])
    | with_reducible apply State.itemRoutine_keeps | split

theorem doRoutineDispatch_keeps {s₀ s : State} (kp : Keeps s₀ s) : Keeps s₀ (doRoutineDispatch s) := by
  unfold doRoutineDispatch
  extract_lets s₁
  have k₁ : Keeps s₀ s₁ := doVeingBoundaryAccess_keeps kp
  clear_value s₁
  have turns : ∀ l : List Nat, Keeps s₀ ((l.findSome? fun n => State.turn s₁ n).getD s₁) := by
    intro l
    cases h : l.findSome? fun n => State.turn s₁ n with
    | none => exact k₁
    | some t =>
      obtain ⟨n, _, hn⟩ := List.exists_of_findSome?_eq_some h
      exact State.turn_keepsEq hn k₁
  repeat' first
    | with_reducible exact Keeps.refl _ | with_reducible assumption | (simp -zeta only [↓Keeps.lit])
    | with_reducible apply State.takeFirst_keeps | with_reducible apply State.itemRoutine_keeps
    | with_reducible apply State.runRequest_keeps | with_reducible apply turns
    | with_reducible apply Keeps.foldl | split

theorem doFaultInterrupt_keeps {b : FltBlk} {src : Fin 32} {s₀ s : State} (kp : Keeps s₀ s) : Keeps s₀ (doFaultInterrupt b src
    s) := by
  unfold doFaultInterrupt
  repeat' first
    | with_reducible exact Keeps.refl _ | with_reducible assumption
    | (extract_lets +onlyGivenNames x; refine Keeps.cut (x := x) ?_ ?_ <;> [subst x; (intro; rename' x => y)])
    | (extract_lets +onlyGivenNames x; subst x; try beta_reduce) | with_reducible apply doVeingBoundaryAccess_keeps
    | with_reducible apply State.takeFirst_keeps | split

theorem State.trapAt_keeps {s₀ s : State} {op : BitVec 8} {n : BitVec 5} {tag : BitVec 16} (kp : Keeps s₀ s) : Keeps s₀
    (State.trapAt s op n tag) := by
  unfold State.trapAt
  repeat' first
    | with_reducible exact Keeps.refl _ | with_reducible assumption
    | (extract_lets +onlyGivenNames x; refine Keeps.cut (x := x) ?_ ?_ <;> [subst x; (intro; rename' x => y)])
    | (extract_lets +onlyGivenNames x; subst x; try beta_reduce) | (simp -zeta only [↓Keeps.lit])
    | with_reducible apply State.free_keeps | (refine State.free_keepsEq (by with_reducible assumption) ?_) | split

theorem State.abandon_keeps {s₀ s : State} (kp : Keeps s₀ s) : Keeps s₀ (State.abandon s) := by
  unfold State.abandon
  repeat' first
    | with_reducible exact Keeps.refl _ | with_reducible assumption
    | (extract_lets +onlyGivenNames x; refine Keeps.cut (x := x) ?_ ?_ <;> [subst x; (intro; rename' x => y)])
    | (extract_lets +onlyGivenNames x; subst x; try beta_reduce) | (simp -zeta only [↓Keeps.lit])
    | with_reducible apply State.fail_keeps | with_reducible apply State.request_keeps
    | with_reducible apply State.taken_keeps | with_reducible apply State.sendEvent_keeps
    | with_reducible apply State.afterwards_keeps | with_reducible apply State.trapAt_keeps | split

theorem doRoutineBound_keeps {s₀ s : State} (kp : Keeps s₀ s) : Keeps s₀ (doRoutineBound s) := by
  unfold doRoutineBound
  repeat' first
    | with_reducible exact Keeps.refl _ | with_reducible assumption
    | (extract_lets +onlyGivenNames x; refine Keeps.cut (x := x) ?_ ?_ <;> [subst x; (intro; rename' x => y)])
    | (extract_lets +onlyGivenNames x; subst x; try beta_reduce) | (simp -zeta only [↓Keeps.lit])
    | with_reducible apply State.count_keeps | with_reducible apply State.free_keeps
    | (refine State.free_keepsEq (by with_reducible assumption) ?_) | with_reducible apply State.ran_keeps
    | with_reducible apply State.abandon_keeps | split

theorem doTrap_keeps {cause : Fin 4} {s₀ s : State} (kp : Keeps s₀ s) : Keeps s₀ (doTrap cause s) := by
  unfold doTrap
  repeat' first
    | with_reducible exact Keeps.refl _ | with_reducible assumption
    | (extract_lets +onlyGivenNames x; refine Keeps.cut (x := x) ?_ ?_ <;> [subst x; (intro; rename' x => y)])
    | (extract_lets +onlyGivenNames x; subst x; try beta_reduce) | (simp -zeta only [↓Keeps.lit])
    | with_reducible apply doVeingBoundaryAccess_keeps | with_reducible apply State.takeFirst_keeps
    | with_reducible apply State.abandon_keeps | split

end Sys2Proof.Machine
end

