-- ==== Sys2Proof/Laws/State.lean ====
section
/-! SUPPORT. One lemma for each field of the state and each update of registers, memory and contexts, and what a read behind an update
returns. -/

namespace Sys2Proof.Machine

/-! ## Registers -/

@[simp] theorem State.rget_rset (s : State) (a b : Nat) (v : Word) : (s.rset a v).rget b = if b = a then v else s.rget b :=
  Store.get_put ..

theorem State.rget_rset_same (s : State) (a : Nat) (v : Word) : (s.rset a v).rget a = v := by simp

theorem State.rget_rset_other (s : State) {a b : Nat} (v : Word) (h : b ≠ a) : (s.rset a v).rget b = s.rget b := by simp [h]

/-- Equal register files read alike. -/
theorem State.rget_congr {s t : State} (h : t.regs = s.regs) (a : Nat) : t.rget a = s.rget a := by rw [State.rget, h]; rfl

theorem field_setField (w : Word) {hi lo : Nat} (v : Nat) (h : lo ≤ hi) (k : hi < 32) :
    field (setField w hi lo v) hi lo = v % 2 ^ (hi - lo + 1) := by
  obtain ⟨d, rfl⟩ := Nat.exists_eq_add_of_le h
  have e : lo + d - lo + 1 = d + 1 := by omega
  simp only [field, setField, e]
  apply Nat.eq_of_testBit_eq
  intro i
  simp only [Nat.testBit_mod_two_pow, Nat.testBit_div_two_pow, ← BitVec.getLsbD.eq_1]
  by_cases hi : i < d + 1
  · have b : i + lo < 32 := by omega
    simp [hi, b, BitVec.getLsbD_or, BitVec.getLsbD_and, BitVec.getLsbD_not, BitVec.getLsbD_ofNat, Nat.testBit_mul_two_pow,
      Nat.testBit_two_pow_sub_one, -BitVec.getLsbD_eq_getElem]
  · simp [hi]

@[simp] theorem State.fget_fset_same (s : State) {f : Fld} (v : Nat) (h : f.lo ≤ f.hi) (k : f.hi < 32) :
    (s.fset f v).fget f = v % 2 ^ (f.hi - f.lo + 1) := by
  simp [State.fset, State.fget, field_setField _ _ h k]

theorem State.rget_fset_other (s : State) {f : Fld} {a : Nat} (v : Nat) (h : a ≠ f.addr) : (s.fset f v).rget a = s.rget a := by
  simp [State.fset, h]

theorem State.fget_fset_addr (s : State) {f g : Fld} (v : Nat) (h : g.addr ≠ f.addr) : (s.fset f v).fget g = s.fget g := by
  simp [State.fget, s.rget_fset_other v h]

/-! ## Memory -/

@[simp] theorem State.mget_mset (s : State) (p t o p' t' o' : Nat) (v : Byte) :
    (s.mset p t o v).mget p' t' o' = if memKey p' t' o' = memKey p t o then v else s.mget p' t' o' := Store.get_put ..

theorem State.mset_wf {s : State} (p t o : Nat) (v : Byte) (h : Memory.wf s.mem = true) : Memory.wf (s.mset p t o v).mem = true :=
  Store.wf_put _ _ h

theorem State.merase_wf {s : State} (p : Nat → Bool) (h : Memory.wf s.mem = true) : Memory.wf (s.merase p).mem = true :=
  Store.wf_filter _ h

theorem State.mwrite_wf {s : State} (p t o : Nat) (l : List Byte) (h : Memory.wf s.mem = true) :
    Memory.wf (s.mwrite p t o l).mem = true := by
  induction l generalizing s o with
  | nil => exact h
  | cons b l ih => exact ih _ (State.mset_wf _ _ _ _ h)

/-- Equal memories read alike. -/
theorem State.mget_congr {s t : State} (h : t.mem = s.mem) (p n o : Nat) : t.mget p n o = s.mget p n o := by
  rw [State.mget, h]; rfl

/-! ## Contexts -/

@[simp] theorem State.tile_setTile (s : State) (t u : Nat) (c : TileCtx) : (s.setTile t c).tile u = if u = t then c else s.tile u :=
  Store.get_put ..

@[simp] theorem State.tile_modTile (s : State) (t u : Nat) (f : TileCtx → TileCtx) :
    (s.modTile t f).tile u = if u = t then f (s.tile t) else s.tile u := Store.get_put ..

@[simp] theorem State.chan_setChan (s : State) (n u : Nat) (c : ChanCtx) : (s.setChan n c).chan u = if u = n then c else s.chan u :=
  Store.get_put ..

@[simp] theorem State.chan_modChan (s : State) (n u : Nat) (f : ChanCtx → ChanCtx) :
    (s.modChan n f).chan u = if u = n then f (s.chan n) else s.chan u := Store.get_put ..

@[simp] theorem State.ctx_setCtx (s : State) (n u : Nat) (c : Ctx) : (s.setCtx n c).ctx u = if u = n then c else s.ctx u :=
  Store.get_put ..

@[simp] theorem State.ctx_modCtx (s : State) (n u : Nat) (f : Ctx → Ctx) :
    (s.modCtx n f).ctx u = if u = n then f (s.ctx n) else s.ctx u := Store.get_put ..

/-! ## The other fields -/

variable (s : State)

theorem State.mwrite_eq (p t o : Nat) (l : List Byte) : { s with mem := (s.mwrite p t o l).mem } = s.mwrite p t o l := by
  induction l generalizing s o with
  | nil => rfl
  | cons b l ih => exact ih (s.mset p t o b) (o + 1)

@[simp] theorem State.rset_mem (a : Nat) (v : Word) : (s.rset a v).mem = s.mem := rfl
@[simp] theorem State.rset_sysTime (a : Nat) (v : Word) : (s.rset a v).sysTime = s.sysTime := rfl
@[simp] theorem State.rset_tiles (a : Nat) (v : Word) : (s.rset a v).tiles = s.tiles := rfl
@[simp] theorem State.rset_chans (a : Nat) (v : Word) : (s.rset a v).chans = s.chans := rfl
@[simp] theorem State.rset_ctxs (a : Nat) (v : Word) : (s.rset a v).ctxs = s.ctxs := rfl
@[simp] theorem State.rset_evc (a : Nat) (v : Word) : (s.rset a v).evc = s.evc := rfl
@[simp] theorem State.rset_evs (a : Nat) (v : Word) : (s.rset a v).evs = s.evs := rfl
@[simp] theorem State.rset_held (a : Nat) (v : Word) : (s.rset a v).held = s.held := rfl
@[simp] theorem State.rset_faultMarks (a : Nat) (v : Word) : (s.rset a v).faultMarks = s.faultMarks := rfl
@[simp] theorem State.rset_calPend (a : Nat) (v : Word) : (s.rset a v).calPend = s.calPend := rfl
@[simp] theorem State.rset_calNew (a : Nat) (v : Word) : (s.rset a v).calNew = s.calNew := rfl
@[simp] theorem State.rset_calApplied (a : Nat) (v : Word) : (s.rset a v).calApplied = s.calApplied := rfl
@[simp] theorem State.rset_syncPhases (a : Nat) (v : Word) : (s.rset a v).syncPhases = s.syncPhases := rfl
@[simp] theorem State.rset_syncCount (a : Nat) (v : Word) : (s.rset a v).syncCount = s.syncCount := rfl
@[simp] theorem State.rset_syncD (a : Nat) (v : Word) : (s.rset a v).syncD = s.syncD := rfl
@[simp] theorem State.rset_ocxo (a : Nat) (v : Word) : (s.rset a v).ocxo = s.ocxo := rfl
@[simp] theorem State.rset_warmSecs (a : Nat) (v : Word) : (s.rset a v).warmSecs = s.warmSecs := rfl
@[simp] theorem State.rset_warmLog (a : Nat) (v : Word) : (s.rset a v).warmLog = s.warmLog := rfl
@[simp] theorem State.rset_refvLog (a : Nat) (v : Word) : (s.rset a v).refvLog = s.refvLog := rfl
@[simp] theorem State.rset_commitAt (a : Nat) (v : Word) : (s.rset a v).commitAt = s.commitAt := rfl
@[simp] theorem State.rset_refFreqs (a : Nat) (v : Word) : (s.rset a v).refFreqs = s.refFreqs := rfl
@[simp] theorem State.rset_bundles (a : Nat) (v : Word) : (s.rset a v).bundles = s.bundles := rfl
@[simp] theorem State.rset_staging (a : Nat) (v : Word) : (s.rset a v).staging = s.staging := rfl
@[simp] theorem State.rset_segSeal (a : Nat) (v : Word) : (s.rset a v).segSeal = s.segSeal := rfl
@[simp] theorem State.rset_ackGen (a : Nat) (v : Word) : (s.rset a v).ackGen = s.ackGen := rfl
@[simp] theorem State.rset_sealForever (a : Nat) (v : Word) : (s.rset a v).sealForever = s.sealForever := rfl
@[simp] theorem State.rset_steps (a : Nat) (v : Word) : (s.rset a v).steps = s.steps := rfl
@[simp] theorem State.rset_merges (a : Nat) (v : Word) : (s.rset a v).merges = s.merges := rfl
@[simp] theorem State.rset_windows (a : Nat) (v : Word) : (s.rset a v).windows = s.windows := rfl
@[simp] theorem State.rset_excursions (a : Nat) (v : Word) : (s.rset a v).excursions = s.excursions := rfl
@[simp] theorem State.rset_trigOut (a : Nat) (v : Word) : (s.rset a v).trigOut = s.trigOut := rfl
@[simp] theorem State.rset_lvlClr (a : Nat) (v : Word) : (s.rset a v).lvlClr = s.lvlClr := rfl
@[simp] theorem State.rset_vioSel (a : Nat) (v : Word) : (s.rset a v).vioSel = s.vioSel := rfl
@[simp] theorem State.rset_snts (a : Nat) (v : Word) : (s.rset a v).snts = s.snts := rfl
@[simp] theorem State.rset_quads (a : Nat) (v : Word) : (s.rset a v).quads = s.quads := rfl
@[simp] theorem State.rset_fenceReq (a : Nat) (v : Word) : (s.rset a v).fenceReq = s.fenceReq := rfl
@[simp] theorem State.rset_unfenceReq (a : Nat) (v : Word) : (s.rset a v).unfenceReq = s.unfenceReq := rfl
@[simp] theorem State.rset_logDue (a : Nat) (v : Word) : (s.rset a v).logDue = s.logDue := rfl
@[simp] theorem State.rset_coreDue (a : Nat) (v : Word) : (s.rset a v).coreDue = s.coreDue := rfl
@[simp] theorem State.rset_corePass (a : Nat) (v : Word) : (s.rset a v).corePass = s.corePass := rfl
@[simp] theorem State.rset_therm (a : Nat) (v : Word) : (s.rset a v).therm = s.therm := rfl
@[simp] theorem State.rset_syncArmed (a : Nat) (v : Word) : (s.rset a v).syncArmed = s.syncArmed := rfl
@[simp] theorem State.rset_links (a : Nat) (v : Word) : (s.rset a v).links = s.links := rfl
@[simp] theorem State.rset_ids (a : Nat) (v : Word) : (s.rset a v).ids = s.ids := rfl
@[simp] theorem State.rset_veing (a : Nat) (v : Word) : (s.rset a v).veing = s.veing := rfl
@[simp] theorem State.rset_pp (a : Nat) (v : Word) : (s.rset a v).pp = s.pp := rfl
@[simp] theorem State.rset_measures (a : Nat) (v : Word) : (s.rset a v).measures = s.measures := rfl
@[simp] theorem State.rset_measured (a : Nat) (v : Word) : (s.rset a v).measured = s.measured := rfl
@[simp] theorem State.rset_writes (a : Nat) (v : Word) : (s.rset a v).writes = s.writes := rfl
@[simp] theorem State.rset_strms (a : Nat) (v : Word) : (s.rset a v).strms = s.strms := rfl
@[simp] theorem State.rset_strmWait (a : Nat) (v : Word) : (s.rset a v).strmWait = s.strmWait := rfl
@[simp] theorem State.rset_rr (a : Nat) (v : Word) : (s.rset a v).rr = s.rr := rfl
@[simp] theorem State.rset_maxLen (a : Nat) (v : Word) : (s.rset a v).maxLen = s.maxLen := rfl
@[simp] theorem State.rset_maxClk (a : Nat) (v : Word) : (s.rset a v).maxClk = s.maxClk := rfl
@[simp] theorem State.rset_overrides (a : Nat) (v : Word) : (s.rset a v).overrides = s.overrides := rfl
@[simp] theorem State.rset_micro (a : Nat) (v : Word) : (s.rset a v).micro = s.micro := rfl
@[simp] theorem State.rset_trigIn (a : Nat) (v : Word) : (s.rset a v).trigIn = s.trigIn := rfl
@[simp] theorem State.rset_armedSites (a : Nat) (v : Word) : (s.rset a v).armedSites = s.armedSites := rfl
@[simp] theorem State.rset_injFence (a : Nat) (v : Word) : (s.rset a v).injFence = s.injFence := rfl
@[simp] theorem State.rset_injHeld (a : Nat) (v : Word) : (s.rset a v).injHeld = s.injHeld := rfl
@[simp] theorem State.rset_soft (a : Nat) (v : Word) : (s.rset a v).soft = s.soft := rfl
@[simp] theorem State.rset_repairs (a : Nat) (v : Word) : (s.rset a v).repairs = s.repairs := rfl
@[simp] theorem State.rset_btAt (a : Nat) (v : Word) : (s.rset a v).btAt = s.btAt := rfl
@[simp] theorem State.rset_btHead (a : Nat) (v : Word) : (s.rset a v).btHead = s.btHead := rfl
@[simp] theorem State.rset_corrections (a : Nat) (v : Word) : (s.rset a v).corrections = s.corrections := rfl
@[simp] theorem State.rset_eccWords (a : Nat) (v : Word) : (s.rset a v).eccWords = s.eccWords := rfl
@[simp] theorem State.rset_eccReal (a : Nat) (v : Word) : (s.rset a v).eccReal = s.eccReal := rfl
@[simp] theorem State.rset_spareAt (a : Nat) (v : Word) : (s.rset a v).spareAt = s.spareAt := rfl
@[simp] theorem State.rset_supStop (a : Nat) (v : Word) : (s.rset a v).supStop = s.supStop := rfl
@[simp] theorem State.rset_sealStuck (a : Nat) (v : Word) : (s.rset a v).sealStuck = s.sealStuck := rfl
@[simp] theorem State.rset_drbgBad (a : Nat) (v : Word) : (s.rset a v).drbgBad = s.drbgBad := rfl
@[simp] theorem State.rset_eccFrame (a : Nat) (v : Word) : (s.rset a v).eccFrame = s.eccFrame := rfl
@[simp] theorem State.rset_attests (a : Nat) (v : Word) : (s.rset a v).attests = s.attests := rfl
@[simp] theorem State.rset_cert (a : Nat) (v : Word) : (s.rset a v).cert = s.cert := rfl
@[simp] theorem State.rset_certDigest (a : Nat) (v : Word) : (s.rset a v).certDigest = s.certDigest := rfl
@[simp] theorem State.rset_certBad (a : Nat) (v : Word) : (s.rset a v).certBad = s.certBad := rfl
@[simp] theorem State.rset_mrnClear (a : Nat) (v : Word) : (s.rset a v).mrnClear = s.mrnClear := rfl
@[simp] theorem State.rset_dumping (a : Nat) (v : Word) : (s.rset a v).dumping = s.dumping := rfl
@[simp] theorem State.rset_dump (a : Nat) (v : Word) : (s.rset a v).dump = s.dump := rfl
@[simp] theorem State.rset_dumpFlash (a : Nat) (v : Word) : (s.rset a v).dumpFlash = s.dumpFlash := rfl
@[simp] theorem State.rset_tap (a : Nat) (v : Word) : (s.rset a v).tap = s.tap := rfl
@[simp] theorem State.rset_groups (a : Nat) (v : Word) : (s.rset a v).groups = s.groups := rfl
@[simp] theorem State.rset_items (a : Nat) (v : Word) : (s.rset a v).items = s.items := rfl
@[simp] theorem State.rset_splits (a : Nat) (v : Word) : (s.rset a v).splits = s.splits := rfl
@[simp] theorem State.rset_txq (a : Nat) (v : Word) : (s.rset a v).txq = s.txq := rfl
@[simp] theorem State.rset_sent (a : Nat) (v : Word) : (s.rset a v).sent = s.sent := rfl
@[simp] theorem State.rset_rep (a : Nat) (v : Word) : (s.rset a v).rep = s.rep := rfl
@[simp] theorem State.rset_mrn (a : Nat) (v : Word) : (s.rset a v).mrn = s.mrn := rfl
@[simp] theorem State.rset_staged (a : Nat) (v : Word) : (s.rset a v).staged = s.staged := rfl
@[simp] theorem State.rset_mrnLost (a : Nat) (v : Word) : (s.rset a v).mrnLost = s.mrnLost := rfl
@[simp] theorem State.rset_freeCtr (a : Nat) (v : Word) : (s.rset a v).freeCtr = s.freeCtr := rfl
@[simp] theorem State.rset_answer (a : Nat) (v : Word) : (s.rset a v).answer = s.answer := rfl
@[simp] theorem State.rset_pending (a : Nat) (v : Word) : (s.rset a v).pending = s.pending := rfl

@[simp] theorem State.fset_mem (f : Fld) (v : Nat) : (s.fset f v).mem = s.mem := rfl
@[simp] theorem State.fset_sysTime (f : Fld) (v : Nat) : (s.fset f v).sysTime = s.sysTime := rfl
@[simp] theorem State.fset_tiles (f : Fld) (v : Nat) : (s.fset f v).tiles = s.tiles := rfl
@[simp] theorem State.fset_chans (f : Fld) (v : Nat) : (s.fset f v).chans = s.chans := rfl
@[simp] theorem State.fset_ctxs (f : Fld) (v : Nat) : (s.fset f v).ctxs = s.ctxs := rfl
@[simp] theorem State.fset_evc (f : Fld) (v : Nat) : (s.fset f v).evc = s.evc := rfl
@[simp] theorem State.fset_evs (f : Fld) (v : Nat) : (s.fset f v).evs = s.evs := rfl
@[simp] theorem State.fset_held (f : Fld) (v : Nat) : (s.fset f v).held = s.held := rfl
@[simp] theorem State.fset_faultMarks (f : Fld) (v : Nat) : (s.fset f v).faultMarks = s.faultMarks := rfl
@[simp] theorem State.fset_calPend (f : Fld) (v : Nat) : (s.fset f v).calPend = s.calPend := rfl
@[simp] theorem State.fset_calNew (f : Fld) (v : Nat) : (s.fset f v).calNew = s.calNew := rfl
@[simp] theorem State.fset_calApplied (f : Fld) (v : Nat) : (s.fset f v).calApplied = s.calApplied := rfl
@[simp] theorem State.fset_syncPhases (f : Fld) (v : Nat) : (s.fset f v).syncPhases = s.syncPhases := rfl
@[simp] theorem State.fset_syncCount (f : Fld) (v : Nat) : (s.fset f v).syncCount = s.syncCount := rfl
@[simp] theorem State.fset_syncD (f : Fld) (v : Nat) : (s.fset f v).syncD = s.syncD := rfl
@[simp] theorem State.fset_ocxo (f : Fld) (v : Nat) : (s.fset f v).ocxo = s.ocxo := rfl
@[simp] theorem State.fset_warmSecs (f : Fld) (v : Nat) : (s.fset f v).warmSecs = s.warmSecs := rfl
@[simp] theorem State.fset_warmLog (f : Fld) (v : Nat) : (s.fset f v).warmLog = s.warmLog := rfl
@[simp] theorem State.fset_refvLog (f : Fld) (v : Nat) : (s.fset f v).refvLog = s.refvLog := rfl
@[simp] theorem State.fset_commitAt (f : Fld) (v : Nat) : (s.fset f v).commitAt = s.commitAt := rfl
@[simp] theorem State.fset_refFreqs (f : Fld) (v : Nat) : (s.fset f v).refFreqs = s.refFreqs := rfl
@[simp] theorem State.fset_bundles (f : Fld) (v : Nat) : (s.fset f v).bundles = s.bundles := rfl
@[simp] theorem State.fset_staging (f : Fld) (v : Nat) : (s.fset f v).staging = s.staging := rfl
@[simp] theorem State.fset_segSeal (f : Fld) (v : Nat) : (s.fset f v).segSeal = s.segSeal := rfl
@[simp] theorem State.fset_ackGen (f : Fld) (v : Nat) : (s.fset f v).ackGen = s.ackGen := rfl
@[simp] theorem State.fset_sealForever (f : Fld) (v : Nat) : (s.fset f v).sealForever = s.sealForever := rfl
@[simp] theorem State.fset_steps (f : Fld) (v : Nat) : (s.fset f v).steps = s.steps := rfl
@[simp] theorem State.fset_merges (f : Fld) (v : Nat) : (s.fset f v).merges = s.merges := rfl
@[simp] theorem State.fset_windows (f : Fld) (v : Nat) : (s.fset f v).windows = s.windows := rfl
@[simp] theorem State.fset_excursions (f : Fld) (v : Nat) : (s.fset f v).excursions = s.excursions := rfl
@[simp] theorem State.fset_trigOut (f : Fld) (v : Nat) : (s.fset f v).trigOut = s.trigOut := rfl
@[simp] theorem State.fset_lvlClr (f : Fld) (v : Nat) : (s.fset f v).lvlClr = s.lvlClr := rfl
@[simp] theorem State.fset_vioSel (f : Fld) (v : Nat) : (s.fset f v).vioSel = s.vioSel := rfl
@[simp] theorem State.fset_snts (f : Fld) (v : Nat) : (s.fset f v).snts = s.snts := rfl
@[simp] theorem State.fset_quads (f : Fld) (v : Nat) : (s.fset f v).quads = s.quads := rfl
@[simp] theorem State.fset_fenceReq (f : Fld) (v : Nat) : (s.fset f v).fenceReq = s.fenceReq := rfl
@[simp] theorem State.fset_unfenceReq (f : Fld) (v : Nat) : (s.fset f v).unfenceReq = s.unfenceReq := rfl
@[simp] theorem State.fset_logDue (f : Fld) (v : Nat) : (s.fset f v).logDue = s.logDue := rfl
@[simp] theorem State.fset_coreDue (f : Fld) (v : Nat) : (s.fset f v).coreDue = s.coreDue := rfl
@[simp] theorem State.fset_corePass (f : Fld) (v : Nat) : (s.fset f v).corePass = s.corePass := rfl
@[simp] theorem State.fset_therm (f : Fld) (v : Nat) : (s.fset f v).therm = s.therm := rfl
@[simp] theorem State.fset_syncArmed (f : Fld) (v : Nat) : (s.fset f v).syncArmed = s.syncArmed := rfl
@[simp] theorem State.fset_links (f : Fld) (v : Nat) : (s.fset f v).links = s.links := rfl
@[simp] theorem State.fset_ids (f : Fld) (v : Nat) : (s.fset f v).ids = s.ids := rfl
@[simp] theorem State.fset_veing (f : Fld) (v : Nat) : (s.fset f v).veing = s.veing := rfl
@[simp] theorem State.fset_pp (f : Fld) (v : Nat) : (s.fset f v).pp = s.pp := rfl
@[simp] theorem State.fset_measures (f : Fld) (v : Nat) : (s.fset f v).measures = s.measures := rfl
@[simp] theorem State.fset_measured (f : Fld) (v : Nat) : (s.fset f v).measured = s.measured := rfl
@[simp] theorem State.fset_writes (f : Fld) (v : Nat) : (s.fset f v).writes = s.writes := rfl
@[simp] theorem State.fset_strms (f : Fld) (v : Nat) : (s.fset f v).strms = s.strms := rfl
@[simp] theorem State.fset_strmWait (f : Fld) (v : Nat) : (s.fset f v).strmWait = s.strmWait := rfl
@[simp] theorem State.fset_rr (f : Fld) (v : Nat) : (s.fset f v).rr = s.rr := rfl
@[simp] theorem State.fset_maxLen (f : Fld) (v : Nat) : (s.fset f v).maxLen = s.maxLen := rfl
@[simp] theorem State.fset_maxClk (f : Fld) (v : Nat) : (s.fset f v).maxClk = s.maxClk := rfl
@[simp] theorem State.fset_overrides (f : Fld) (v : Nat) : (s.fset f v).overrides = s.overrides := rfl
@[simp] theorem State.fset_micro (f : Fld) (v : Nat) : (s.fset f v).micro = s.micro := rfl
@[simp] theorem State.fset_trigIn (f : Fld) (v : Nat) : (s.fset f v).trigIn = s.trigIn := rfl
@[simp] theorem State.fset_armedSites (f : Fld) (v : Nat) : (s.fset f v).armedSites = s.armedSites := rfl
@[simp] theorem State.fset_injFence (f : Fld) (v : Nat) : (s.fset f v).injFence = s.injFence := rfl
@[simp] theorem State.fset_injHeld (f : Fld) (v : Nat) : (s.fset f v).injHeld = s.injHeld := rfl
@[simp] theorem State.fset_soft (f : Fld) (v : Nat) : (s.fset f v).soft = s.soft := rfl
@[simp] theorem State.fset_repairs (f : Fld) (v : Nat) : (s.fset f v).repairs = s.repairs := rfl
@[simp] theorem State.fset_btAt (f : Fld) (v : Nat) : (s.fset f v).btAt = s.btAt := rfl
@[simp] theorem State.fset_btHead (f : Fld) (v : Nat) : (s.fset f v).btHead = s.btHead := rfl
@[simp] theorem State.fset_corrections (f : Fld) (v : Nat) : (s.fset f v).corrections = s.corrections := rfl
@[simp] theorem State.fset_eccWords (f : Fld) (v : Nat) : (s.fset f v).eccWords = s.eccWords := rfl
@[simp] theorem State.fset_eccReal (f : Fld) (v : Nat) : (s.fset f v).eccReal = s.eccReal := rfl
@[simp] theorem State.fset_spareAt (f : Fld) (v : Nat) : (s.fset f v).spareAt = s.spareAt := rfl
@[simp] theorem State.fset_supStop (f : Fld) (v : Nat) : (s.fset f v).supStop = s.supStop := rfl
@[simp] theorem State.fset_sealStuck (f : Fld) (v : Nat) : (s.fset f v).sealStuck = s.sealStuck := rfl
@[simp] theorem State.fset_drbgBad (f : Fld) (v : Nat) : (s.fset f v).drbgBad = s.drbgBad := rfl
@[simp] theorem State.fset_eccFrame (f : Fld) (v : Nat) : (s.fset f v).eccFrame = s.eccFrame := rfl
@[simp] theorem State.fset_attests (f : Fld) (v : Nat) : (s.fset f v).attests = s.attests := rfl
@[simp] theorem State.fset_cert (f : Fld) (v : Nat) : (s.fset f v).cert = s.cert := rfl
@[simp] theorem State.fset_certDigest (f : Fld) (v : Nat) : (s.fset f v).certDigest = s.certDigest := rfl
@[simp] theorem State.fset_certBad (f : Fld) (v : Nat) : (s.fset f v).certBad = s.certBad := rfl
@[simp] theorem State.fset_mrnClear (f : Fld) (v : Nat) : (s.fset f v).mrnClear = s.mrnClear := rfl
@[simp] theorem State.fset_dumping (f : Fld) (v : Nat) : (s.fset f v).dumping = s.dumping := rfl
@[simp] theorem State.fset_dump (f : Fld) (v : Nat) : (s.fset f v).dump = s.dump := rfl
@[simp] theorem State.fset_dumpFlash (f : Fld) (v : Nat) : (s.fset f v).dumpFlash = s.dumpFlash := rfl
@[simp] theorem State.fset_tap (f : Fld) (v : Nat) : (s.fset f v).tap = s.tap := rfl
@[simp] theorem State.fset_groups (f : Fld) (v : Nat) : (s.fset f v).groups = s.groups := rfl
@[simp] theorem State.fset_items (f : Fld) (v : Nat) : (s.fset f v).items = s.items := rfl
@[simp] theorem State.fset_splits (f : Fld) (v : Nat) : (s.fset f v).splits = s.splits := rfl
@[simp] theorem State.fset_txq (f : Fld) (v : Nat) : (s.fset f v).txq = s.txq := rfl
@[simp] theorem State.fset_sent (f : Fld) (v : Nat) : (s.fset f v).sent = s.sent := rfl
@[simp] theorem State.fset_rep (f : Fld) (v : Nat) : (s.fset f v).rep = s.rep := rfl
@[simp] theorem State.fset_mrn (f : Fld) (v : Nat) : (s.fset f v).mrn = s.mrn := rfl
@[simp] theorem State.fset_staged (f : Fld) (v : Nat) : (s.fset f v).staged = s.staged := rfl
@[simp] theorem State.fset_mrnLost (f : Fld) (v : Nat) : (s.fset f v).mrnLost = s.mrnLost := rfl
@[simp] theorem State.fset_freeCtr (f : Fld) (v : Nat) : (s.fset f v).freeCtr = s.freeCtr := rfl
@[simp] theorem State.fset_answer (f : Fld) (v : Nat) : (s.fset f v).answer = s.answer := rfl
@[simp] theorem State.fset_pending (f : Fld) (v : Nat) : (s.fset f v).pending = s.pending := rfl

@[simp] theorem State.setFlag_mem (f : Fld) (b : Bool) : (s.setFlag f b).mem = s.mem := rfl
@[simp] theorem State.setFlag_sysTime (f : Fld) (b : Bool) : (s.setFlag f b).sysTime = s.sysTime := rfl
@[simp] theorem State.setFlag_tiles (f : Fld) (b : Bool) : (s.setFlag f b).tiles = s.tiles := rfl
@[simp] theorem State.setFlag_chans (f : Fld) (b : Bool) : (s.setFlag f b).chans = s.chans := rfl
@[simp] theorem State.setFlag_ctxs (f : Fld) (b : Bool) : (s.setFlag f b).ctxs = s.ctxs := rfl
@[simp] theorem State.setFlag_evc (f : Fld) (b : Bool) : (s.setFlag f b).evc = s.evc := rfl
@[simp] theorem State.setFlag_evs (f : Fld) (b : Bool) : (s.setFlag f b).evs = s.evs := rfl
@[simp] theorem State.setFlag_held (f : Fld) (b : Bool) : (s.setFlag f b).held = s.held := rfl
@[simp] theorem State.setFlag_faultMarks (f : Fld) (b : Bool) : (s.setFlag f b).faultMarks = s.faultMarks := rfl
@[simp] theorem State.setFlag_calPend (f : Fld) (b : Bool) : (s.setFlag f b).calPend = s.calPend := rfl
@[simp] theorem State.setFlag_calNew (f : Fld) (b : Bool) : (s.setFlag f b).calNew = s.calNew := rfl
@[simp] theorem State.setFlag_calApplied (f : Fld) (b : Bool) : (s.setFlag f b).calApplied = s.calApplied := rfl
@[simp] theorem State.setFlag_syncPhases (f : Fld) (b : Bool) : (s.setFlag f b).syncPhases = s.syncPhases := rfl
@[simp] theorem State.setFlag_syncCount (f : Fld) (b : Bool) : (s.setFlag f b).syncCount = s.syncCount := rfl
@[simp] theorem State.setFlag_syncD (f : Fld) (b : Bool) : (s.setFlag f b).syncD = s.syncD := rfl
@[simp] theorem State.setFlag_ocxo (f : Fld) (b : Bool) : (s.setFlag f b).ocxo = s.ocxo := rfl
@[simp] theorem State.setFlag_warmSecs (f : Fld) (b : Bool) : (s.setFlag f b).warmSecs = s.warmSecs := rfl
@[simp] theorem State.setFlag_warmLog (f : Fld) (b : Bool) : (s.setFlag f b).warmLog = s.warmLog := rfl
@[simp] theorem State.setFlag_refvLog (f : Fld) (b : Bool) : (s.setFlag f b).refvLog = s.refvLog := rfl
@[simp] theorem State.setFlag_commitAt (f : Fld) (b : Bool) : (s.setFlag f b).commitAt = s.commitAt := rfl
@[simp] theorem State.setFlag_refFreqs (f : Fld) (b : Bool) : (s.setFlag f b).refFreqs = s.refFreqs := rfl
@[simp] theorem State.setFlag_bundles (f : Fld) (b : Bool) : (s.setFlag f b).bundles = s.bundles := rfl
@[simp] theorem State.setFlag_staging (f : Fld) (b : Bool) : (s.setFlag f b).staging = s.staging := rfl
@[simp] theorem State.setFlag_segSeal (f : Fld) (b : Bool) : (s.setFlag f b).segSeal = s.segSeal := rfl
@[simp] theorem State.setFlag_ackGen (f : Fld) (b : Bool) : (s.setFlag f b).ackGen = s.ackGen := rfl
@[simp] theorem State.setFlag_sealForever (f : Fld) (b : Bool) : (s.setFlag f b).sealForever = s.sealForever := rfl
@[simp] theorem State.setFlag_steps (f : Fld) (b : Bool) : (s.setFlag f b).steps = s.steps := rfl
@[simp] theorem State.setFlag_merges (f : Fld) (b : Bool) : (s.setFlag f b).merges = s.merges := rfl
@[simp] theorem State.setFlag_windows (f : Fld) (b : Bool) : (s.setFlag f b).windows = s.windows := rfl
@[simp] theorem State.setFlag_excursions (f : Fld) (b : Bool) : (s.setFlag f b).excursions = s.excursions := rfl
@[simp] theorem State.setFlag_trigOut (f : Fld) (b : Bool) : (s.setFlag f b).trigOut = s.trigOut := rfl
@[simp] theorem State.setFlag_lvlClr (f : Fld) (b : Bool) : (s.setFlag f b).lvlClr = s.lvlClr := rfl
@[simp] theorem State.setFlag_vioSel (f : Fld) (b : Bool) : (s.setFlag f b).vioSel = s.vioSel := rfl
@[simp] theorem State.setFlag_snts (f : Fld) (b : Bool) : (s.setFlag f b).snts = s.snts := rfl
@[simp] theorem State.setFlag_quads (f : Fld) (b : Bool) : (s.setFlag f b).quads = s.quads := rfl
@[simp] theorem State.setFlag_fenceReq (f : Fld) (b : Bool) : (s.setFlag f b).fenceReq = s.fenceReq := rfl
@[simp] theorem State.setFlag_unfenceReq (f : Fld) (b : Bool) : (s.setFlag f b).unfenceReq = s.unfenceReq := rfl
@[simp] theorem State.setFlag_logDue (f : Fld) (b : Bool) : (s.setFlag f b).logDue = s.logDue := rfl
@[simp] theorem State.setFlag_coreDue (f : Fld) (b : Bool) : (s.setFlag f b).coreDue = s.coreDue := rfl
@[simp] theorem State.setFlag_corePass (f : Fld) (b : Bool) : (s.setFlag f b).corePass = s.corePass := rfl
@[simp] theorem State.setFlag_therm (f : Fld) (b : Bool) : (s.setFlag f b).therm = s.therm := rfl
@[simp] theorem State.setFlag_syncArmed (f : Fld) (b : Bool) : (s.setFlag f b).syncArmed = s.syncArmed := rfl
@[simp] theorem State.setFlag_links (f : Fld) (b : Bool) : (s.setFlag f b).links = s.links := rfl
@[simp] theorem State.setFlag_ids (f : Fld) (b : Bool) : (s.setFlag f b).ids = s.ids := rfl
@[simp] theorem State.setFlag_veing (f : Fld) (b : Bool) : (s.setFlag f b).veing = s.veing := rfl
@[simp] theorem State.setFlag_pp (f : Fld) (b : Bool) : (s.setFlag f b).pp = s.pp := rfl
@[simp] theorem State.setFlag_measures (f : Fld) (b : Bool) : (s.setFlag f b).measures = s.measures := rfl
@[simp] theorem State.setFlag_measured (f : Fld) (b : Bool) : (s.setFlag f b).measured = s.measured := rfl
@[simp] theorem State.setFlag_writes (f : Fld) (b : Bool) : (s.setFlag f b).writes = s.writes := rfl
@[simp] theorem State.setFlag_strms (f : Fld) (b : Bool) : (s.setFlag f b).strms = s.strms := rfl
@[simp] theorem State.setFlag_strmWait (f : Fld) (b : Bool) : (s.setFlag f b).strmWait = s.strmWait := rfl
@[simp] theorem State.setFlag_rr (f : Fld) (b : Bool) : (s.setFlag f b).rr = s.rr := rfl
@[simp] theorem State.setFlag_maxLen (f : Fld) (b : Bool) : (s.setFlag f b).maxLen = s.maxLen := rfl
@[simp] theorem State.setFlag_maxClk (f : Fld) (b : Bool) : (s.setFlag f b).maxClk = s.maxClk := rfl
@[simp] theorem State.setFlag_overrides (f : Fld) (b : Bool) : (s.setFlag f b).overrides = s.overrides := rfl
@[simp] theorem State.setFlag_micro (f : Fld) (b : Bool) : (s.setFlag f b).micro = s.micro := rfl
@[simp] theorem State.setFlag_trigIn (f : Fld) (b : Bool) : (s.setFlag f b).trigIn = s.trigIn := rfl
@[simp] theorem State.setFlag_armedSites (f : Fld) (b : Bool) : (s.setFlag f b).armedSites = s.armedSites := rfl
@[simp] theorem State.setFlag_injFence (f : Fld) (b : Bool) : (s.setFlag f b).injFence = s.injFence := rfl
@[simp] theorem State.setFlag_injHeld (f : Fld) (b : Bool) : (s.setFlag f b).injHeld = s.injHeld := rfl
@[simp] theorem State.setFlag_soft (f : Fld) (b : Bool) : (s.setFlag f b).soft = s.soft := rfl
@[simp] theorem State.setFlag_repairs (f : Fld) (b : Bool) : (s.setFlag f b).repairs = s.repairs := rfl
@[simp] theorem State.setFlag_btAt (f : Fld) (b : Bool) : (s.setFlag f b).btAt = s.btAt := rfl
@[simp] theorem State.setFlag_btHead (f : Fld) (b : Bool) : (s.setFlag f b).btHead = s.btHead := rfl
@[simp] theorem State.setFlag_corrections (f : Fld) (b : Bool) : (s.setFlag f b).corrections = s.corrections := rfl
@[simp] theorem State.setFlag_eccWords (f : Fld) (b : Bool) : (s.setFlag f b).eccWords = s.eccWords := rfl
@[simp] theorem State.setFlag_eccReal (f : Fld) (b : Bool) : (s.setFlag f b).eccReal = s.eccReal := rfl
@[simp] theorem State.setFlag_spareAt (f : Fld) (b : Bool) : (s.setFlag f b).spareAt = s.spareAt := rfl
@[simp] theorem State.setFlag_supStop (f : Fld) (b : Bool) : (s.setFlag f b).supStop = s.supStop := rfl
@[simp] theorem State.setFlag_sealStuck (f : Fld) (b : Bool) : (s.setFlag f b).sealStuck = s.sealStuck := rfl
@[simp] theorem State.setFlag_drbgBad (f : Fld) (b : Bool) : (s.setFlag f b).drbgBad = s.drbgBad := rfl
@[simp] theorem State.setFlag_eccFrame (f : Fld) (b : Bool) : (s.setFlag f b).eccFrame = s.eccFrame := rfl
@[simp] theorem State.setFlag_attests (f : Fld) (b : Bool) : (s.setFlag f b).attests = s.attests := rfl
@[simp] theorem State.setFlag_cert (f : Fld) (b : Bool) : (s.setFlag f b).cert = s.cert := rfl
@[simp] theorem State.setFlag_certDigest (f : Fld) (b : Bool) : (s.setFlag f b).certDigest = s.certDigest := rfl
@[simp] theorem State.setFlag_certBad (f : Fld) (b : Bool) : (s.setFlag f b).certBad = s.certBad := rfl
@[simp] theorem State.setFlag_mrnClear (f : Fld) (b : Bool) : (s.setFlag f b).mrnClear = s.mrnClear := rfl
@[simp] theorem State.setFlag_dumping (f : Fld) (b : Bool) : (s.setFlag f b).dumping = s.dumping := rfl
@[simp] theorem State.setFlag_dump (f : Fld) (b : Bool) : (s.setFlag f b).dump = s.dump := rfl
@[simp] theorem State.setFlag_dumpFlash (f : Fld) (b : Bool) : (s.setFlag f b).dumpFlash = s.dumpFlash := rfl
@[simp] theorem State.setFlag_tap (f : Fld) (b : Bool) : (s.setFlag f b).tap = s.tap := rfl
@[simp] theorem State.setFlag_groups (f : Fld) (b : Bool) : (s.setFlag f b).groups = s.groups := rfl
@[simp] theorem State.setFlag_items (f : Fld) (b : Bool) : (s.setFlag f b).items = s.items := rfl
@[simp] theorem State.setFlag_splits (f : Fld) (b : Bool) : (s.setFlag f b).splits = s.splits := rfl
@[simp] theorem State.setFlag_txq (f : Fld) (b : Bool) : (s.setFlag f b).txq = s.txq := rfl
@[simp] theorem State.setFlag_sent (f : Fld) (b : Bool) : (s.setFlag f b).sent = s.sent := rfl
@[simp] theorem State.setFlag_rep (f : Fld) (b : Bool) : (s.setFlag f b).rep = s.rep := rfl
@[simp] theorem State.setFlag_mrn (f : Fld) (b : Bool) : (s.setFlag f b).mrn = s.mrn := rfl
@[simp] theorem State.setFlag_staged (f : Fld) (b : Bool) : (s.setFlag f b).staged = s.staged := rfl
@[simp] theorem State.setFlag_mrnLost (f : Fld) (b : Bool) : (s.setFlag f b).mrnLost = s.mrnLost := rfl
@[simp] theorem State.setFlag_freeCtr (f : Fld) (b : Bool) : (s.setFlag f b).freeCtr = s.freeCtr := rfl
@[simp] theorem State.setFlag_answer (f : Fld) (b : Bool) : (s.setFlag f b).answer = s.answer := rfl
@[simp] theorem State.setFlag_pending (f : Fld) (b : Bool) : (s.setFlag f b).pending = s.pending := rfl

@[simp] theorem State.count_mem (f : Fld) (k : Nat) : (s.count f k).mem = s.mem := rfl
@[simp] theorem State.count_sysTime (f : Fld) (k : Nat) : (s.count f k).sysTime = s.sysTime := rfl
@[simp] theorem State.count_tiles (f : Fld) (k : Nat) : (s.count f k).tiles = s.tiles := rfl
@[simp] theorem State.count_chans (f : Fld) (k : Nat) : (s.count f k).chans = s.chans := rfl
@[simp] theorem State.count_ctxs (f : Fld) (k : Nat) : (s.count f k).ctxs = s.ctxs := rfl
@[simp] theorem State.count_evc (f : Fld) (k : Nat) : (s.count f k).evc = s.evc := rfl
@[simp] theorem State.count_evs (f : Fld) (k : Nat) : (s.count f k).evs = s.evs := rfl
@[simp] theorem State.count_held (f : Fld) (k : Nat) : (s.count f k).held = s.held := rfl
@[simp] theorem State.count_faultMarks (f : Fld) (k : Nat) : (s.count f k).faultMarks = s.faultMarks := rfl
@[simp] theorem State.count_calPend (f : Fld) (k : Nat) : (s.count f k).calPend = s.calPend := rfl
@[simp] theorem State.count_calNew (f : Fld) (k : Nat) : (s.count f k).calNew = s.calNew := rfl
@[simp] theorem State.count_calApplied (f : Fld) (k : Nat) : (s.count f k).calApplied = s.calApplied := rfl
@[simp] theorem State.count_syncPhases (f : Fld) (k : Nat) : (s.count f k).syncPhases = s.syncPhases := rfl
@[simp] theorem State.count_syncCount (f : Fld) (k : Nat) : (s.count f k).syncCount = s.syncCount := rfl
@[simp] theorem State.count_syncD (f : Fld) (k : Nat) : (s.count f k).syncD = s.syncD := rfl
@[simp] theorem State.count_ocxo (f : Fld) (k : Nat) : (s.count f k).ocxo = s.ocxo := rfl
@[simp] theorem State.count_warmSecs (f : Fld) (k : Nat) : (s.count f k).warmSecs = s.warmSecs := rfl
@[simp] theorem State.count_warmLog (f : Fld) (k : Nat) : (s.count f k).warmLog = s.warmLog := rfl
@[simp] theorem State.count_refvLog (f : Fld) (k : Nat) : (s.count f k).refvLog = s.refvLog := rfl
@[simp] theorem State.count_commitAt (f : Fld) (k : Nat) : (s.count f k).commitAt = s.commitAt := rfl
@[simp] theorem State.count_refFreqs (f : Fld) (k : Nat) : (s.count f k).refFreqs = s.refFreqs := rfl
@[simp] theorem State.count_bundles (f : Fld) (k : Nat) : (s.count f k).bundles = s.bundles := rfl
@[simp] theorem State.count_staging (f : Fld) (k : Nat) : (s.count f k).staging = s.staging := rfl
@[simp] theorem State.count_segSeal (f : Fld) (k : Nat) : (s.count f k).segSeal = s.segSeal := rfl
@[simp] theorem State.count_ackGen (f : Fld) (k : Nat) : (s.count f k).ackGen = s.ackGen := rfl
@[simp] theorem State.count_sealForever (f : Fld) (k : Nat) : (s.count f k).sealForever = s.sealForever := rfl
@[simp] theorem State.count_steps (f : Fld) (k : Nat) : (s.count f k).steps = s.steps := rfl
@[simp] theorem State.count_merges (f : Fld) (k : Nat) : (s.count f k).merges = s.merges := rfl
@[simp] theorem State.count_windows (f : Fld) (k : Nat) : (s.count f k).windows = s.windows := rfl
@[simp] theorem State.count_excursions (f : Fld) (k : Nat) : (s.count f k).excursions = s.excursions := rfl
@[simp] theorem State.count_trigOut (f : Fld) (k : Nat) : (s.count f k).trigOut = s.trigOut := rfl
@[simp] theorem State.count_lvlClr (f : Fld) (k : Nat) : (s.count f k).lvlClr = s.lvlClr := rfl
@[simp] theorem State.count_vioSel (f : Fld) (k : Nat) : (s.count f k).vioSel = s.vioSel := rfl
@[simp] theorem State.count_snts (f : Fld) (k : Nat) : (s.count f k).snts = s.snts := rfl
@[simp] theorem State.count_quads (f : Fld) (k : Nat) : (s.count f k).quads = s.quads := rfl
@[simp] theorem State.count_fenceReq (f : Fld) (k : Nat) : (s.count f k).fenceReq = s.fenceReq := rfl
@[simp] theorem State.count_unfenceReq (f : Fld) (k : Nat) : (s.count f k).unfenceReq = s.unfenceReq := rfl
@[simp] theorem State.count_logDue (f : Fld) (k : Nat) : (s.count f k).logDue = s.logDue := rfl
@[simp] theorem State.count_coreDue (f : Fld) (k : Nat) : (s.count f k).coreDue = s.coreDue := rfl
@[simp] theorem State.count_corePass (f : Fld) (k : Nat) : (s.count f k).corePass = s.corePass := rfl
@[simp] theorem State.count_therm (f : Fld) (k : Nat) : (s.count f k).therm = s.therm := rfl
@[simp] theorem State.count_syncArmed (f : Fld) (k : Nat) : (s.count f k).syncArmed = s.syncArmed := rfl
@[simp] theorem State.count_links (f : Fld) (k : Nat) : (s.count f k).links = s.links := rfl
@[simp] theorem State.count_ids (f : Fld) (k : Nat) : (s.count f k).ids = s.ids := rfl
@[simp] theorem State.count_veing (f : Fld) (k : Nat) : (s.count f k).veing = s.veing := rfl
@[simp] theorem State.count_pp (f : Fld) (k : Nat) : (s.count f k).pp = s.pp := rfl
@[simp] theorem State.count_measures (f : Fld) (k : Nat) : (s.count f k).measures = s.measures := rfl
@[simp] theorem State.count_measured (f : Fld) (k : Nat) : (s.count f k).measured = s.measured := rfl
@[simp] theorem State.count_writes (f : Fld) (k : Nat) : (s.count f k).writes = s.writes := rfl
@[simp] theorem State.count_strms (f : Fld) (k : Nat) : (s.count f k).strms = s.strms := rfl
@[simp] theorem State.count_strmWait (f : Fld) (k : Nat) : (s.count f k).strmWait = s.strmWait := rfl
@[simp] theorem State.count_rr (f : Fld) (k : Nat) : (s.count f k).rr = s.rr := rfl
@[simp] theorem State.count_maxLen (f : Fld) (k : Nat) : (s.count f k).maxLen = s.maxLen := rfl
@[simp] theorem State.count_maxClk (f : Fld) (k : Nat) : (s.count f k).maxClk = s.maxClk := rfl
@[simp] theorem State.count_overrides (f : Fld) (k : Nat) : (s.count f k).overrides = s.overrides := rfl
@[simp] theorem State.count_micro (f : Fld) (k : Nat) : (s.count f k).micro = s.micro := rfl
@[simp] theorem State.count_trigIn (f : Fld) (k : Nat) : (s.count f k).trigIn = s.trigIn := rfl
@[simp] theorem State.count_armedSites (f : Fld) (k : Nat) : (s.count f k).armedSites = s.armedSites := rfl
@[simp] theorem State.count_injFence (f : Fld) (k : Nat) : (s.count f k).injFence = s.injFence := rfl
@[simp] theorem State.count_injHeld (f : Fld) (k : Nat) : (s.count f k).injHeld = s.injHeld := rfl
@[simp] theorem State.count_soft (f : Fld) (k : Nat) : (s.count f k).soft = s.soft := rfl
@[simp] theorem State.count_repairs (f : Fld) (k : Nat) : (s.count f k).repairs = s.repairs := rfl
@[simp] theorem State.count_btAt (f : Fld) (k : Nat) : (s.count f k).btAt = s.btAt := rfl
@[simp] theorem State.count_btHead (f : Fld) (k : Nat) : (s.count f k).btHead = s.btHead := rfl
@[simp] theorem State.count_corrections (f : Fld) (k : Nat) : (s.count f k).corrections = s.corrections := rfl
@[simp] theorem State.count_eccWords (f : Fld) (k : Nat) : (s.count f k).eccWords = s.eccWords := rfl
@[simp] theorem State.count_eccReal (f : Fld) (k : Nat) : (s.count f k).eccReal = s.eccReal := rfl
@[simp] theorem State.count_spareAt (f : Fld) (k : Nat) : (s.count f k).spareAt = s.spareAt := rfl
@[simp] theorem State.count_supStop (f : Fld) (k : Nat) : (s.count f k).supStop = s.supStop := rfl
@[simp] theorem State.count_sealStuck (f : Fld) (k : Nat) : (s.count f k).sealStuck = s.sealStuck := rfl
@[simp] theorem State.count_drbgBad (f : Fld) (k : Nat) : (s.count f k).drbgBad = s.drbgBad := rfl
@[simp] theorem State.count_eccFrame (f : Fld) (k : Nat) : (s.count f k).eccFrame = s.eccFrame := rfl
@[simp] theorem State.count_attests (f : Fld) (k : Nat) : (s.count f k).attests = s.attests := rfl
@[simp] theorem State.count_cert (f : Fld) (k : Nat) : (s.count f k).cert = s.cert := rfl
@[simp] theorem State.count_certDigest (f : Fld) (k : Nat) : (s.count f k).certDigest = s.certDigest := rfl
@[simp] theorem State.count_certBad (f : Fld) (k : Nat) : (s.count f k).certBad = s.certBad := rfl
@[simp] theorem State.count_mrnClear (f : Fld) (k : Nat) : (s.count f k).mrnClear = s.mrnClear := rfl
@[simp] theorem State.count_dumping (f : Fld) (k : Nat) : (s.count f k).dumping = s.dumping := rfl
@[simp] theorem State.count_dump (f : Fld) (k : Nat) : (s.count f k).dump = s.dump := rfl
@[simp] theorem State.count_dumpFlash (f : Fld) (k : Nat) : (s.count f k).dumpFlash = s.dumpFlash := rfl
@[simp] theorem State.count_tap (f : Fld) (k : Nat) : (s.count f k).tap = s.tap := rfl
@[simp] theorem State.count_groups (f : Fld) (k : Nat) : (s.count f k).groups = s.groups := rfl
@[simp] theorem State.count_items (f : Fld) (k : Nat) : (s.count f k).items = s.items := rfl
@[simp] theorem State.count_splits (f : Fld) (k : Nat) : (s.count f k).splits = s.splits := rfl
@[simp] theorem State.count_txq (f : Fld) (k : Nat) : (s.count f k).txq = s.txq := rfl
@[simp] theorem State.count_sent (f : Fld) (k : Nat) : (s.count f k).sent = s.sent := rfl
@[simp] theorem State.count_rep (f : Fld) (k : Nat) : (s.count f k).rep = s.rep := rfl
@[simp] theorem State.count_mrn (f : Fld) (k : Nat) : (s.count f k).mrn = s.mrn := rfl
@[simp] theorem State.count_staged (f : Fld) (k : Nat) : (s.count f k).staged = s.staged := rfl
@[simp] theorem State.count_mrnLost (f : Fld) (k : Nat) : (s.count f k).mrnLost = s.mrnLost := rfl
@[simp] theorem State.count_freeCtr (f : Fld) (k : Nat) : (s.count f k).freeCtr = s.freeCtr := rfl
@[simp] theorem State.count_answer (f : Fld) (k : Nat) : (s.count f k).answer = s.answer := rfl
@[simp] theorem State.count_pending (f : Fld) (k : Nat) : (s.count f k).pending = s.pending := rfl

@[simp] theorem State.setPair_mem (a b v : Nat) : (s.setPair a b v).mem = s.mem := rfl
@[simp] theorem State.setPair_sysTime (a b v : Nat) : (s.setPair a b v).sysTime = s.sysTime := rfl
@[simp] theorem State.setPair_tiles (a b v : Nat) : (s.setPair a b v).tiles = s.tiles := rfl
@[simp] theorem State.setPair_chans (a b v : Nat) : (s.setPair a b v).chans = s.chans := rfl
@[simp] theorem State.setPair_ctxs (a b v : Nat) : (s.setPair a b v).ctxs = s.ctxs := rfl
@[simp] theorem State.setPair_evc (a b v : Nat) : (s.setPair a b v).evc = s.evc := rfl
@[simp] theorem State.setPair_evs (a b v : Nat) : (s.setPair a b v).evs = s.evs := rfl
@[simp] theorem State.setPair_held (a b v : Nat) : (s.setPair a b v).held = s.held := rfl
@[simp] theorem State.setPair_faultMarks (a b v : Nat) : (s.setPair a b v).faultMarks = s.faultMarks := rfl
@[simp] theorem State.setPair_calPend (a b v : Nat) : (s.setPair a b v).calPend = s.calPend := rfl
@[simp] theorem State.setPair_calNew (a b v : Nat) : (s.setPair a b v).calNew = s.calNew := rfl
@[simp] theorem State.setPair_calApplied (a b v : Nat) : (s.setPair a b v).calApplied = s.calApplied := rfl
@[simp] theorem State.setPair_syncPhases (a b v : Nat) : (s.setPair a b v).syncPhases = s.syncPhases := rfl
@[simp] theorem State.setPair_syncCount (a b v : Nat) : (s.setPair a b v).syncCount = s.syncCount := rfl
@[simp] theorem State.setPair_syncD (a b v : Nat) : (s.setPair a b v).syncD = s.syncD := rfl
@[simp] theorem State.setPair_ocxo (a b v : Nat) : (s.setPair a b v).ocxo = s.ocxo := rfl
@[simp] theorem State.setPair_warmSecs (a b v : Nat) : (s.setPair a b v).warmSecs = s.warmSecs := rfl
@[simp] theorem State.setPair_warmLog (a b v : Nat) : (s.setPair a b v).warmLog = s.warmLog := rfl
@[simp] theorem State.setPair_refvLog (a b v : Nat) : (s.setPair a b v).refvLog = s.refvLog := rfl
@[simp] theorem State.setPair_commitAt (a b v : Nat) : (s.setPair a b v).commitAt = s.commitAt := rfl
@[simp] theorem State.setPair_refFreqs (a b v : Nat) : (s.setPair a b v).refFreqs = s.refFreqs := rfl
@[simp] theorem State.setPair_bundles (a b v : Nat) : (s.setPair a b v).bundles = s.bundles := rfl
@[simp] theorem State.setPair_staging (a b v : Nat) : (s.setPair a b v).staging = s.staging := rfl
@[simp] theorem State.setPair_segSeal (a b v : Nat) : (s.setPair a b v).segSeal = s.segSeal := rfl
@[simp] theorem State.setPair_ackGen (a b v : Nat) : (s.setPair a b v).ackGen = s.ackGen := rfl
@[simp] theorem State.setPair_sealForever (a b v : Nat) : (s.setPair a b v).sealForever = s.sealForever := rfl
@[simp] theorem State.setPair_steps (a b v : Nat) : (s.setPair a b v).steps = s.steps := rfl
@[simp] theorem State.setPair_merges (a b v : Nat) : (s.setPair a b v).merges = s.merges := rfl
@[simp] theorem State.setPair_windows (a b v : Nat) : (s.setPair a b v).windows = s.windows := rfl
@[simp] theorem State.setPair_excursions (a b v : Nat) : (s.setPair a b v).excursions = s.excursions := rfl
@[simp] theorem State.setPair_trigOut (a b v : Nat) : (s.setPair a b v).trigOut = s.trigOut := rfl
@[simp] theorem State.setPair_lvlClr (a b v : Nat) : (s.setPair a b v).lvlClr = s.lvlClr := rfl
@[simp] theorem State.setPair_vioSel (a b v : Nat) : (s.setPair a b v).vioSel = s.vioSel := rfl
@[simp] theorem State.setPair_snts (a b v : Nat) : (s.setPair a b v).snts = s.snts := rfl
@[simp] theorem State.setPair_quads (a b v : Nat) : (s.setPair a b v).quads = s.quads := rfl
@[simp] theorem State.setPair_fenceReq (a b v : Nat) : (s.setPair a b v).fenceReq = s.fenceReq := rfl
@[simp] theorem State.setPair_unfenceReq (a b v : Nat) : (s.setPair a b v).unfenceReq = s.unfenceReq := rfl
@[simp] theorem State.setPair_logDue (a b v : Nat) : (s.setPair a b v).logDue = s.logDue := rfl
@[simp] theorem State.setPair_coreDue (a b v : Nat) : (s.setPair a b v).coreDue = s.coreDue := rfl
@[simp] theorem State.setPair_corePass (a b v : Nat) : (s.setPair a b v).corePass = s.corePass := rfl
@[simp] theorem State.setPair_therm (a b v : Nat) : (s.setPair a b v).therm = s.therm := rfl
@[simp] theorem State.setPair_syncArmed (a b v : Nat) : (s.setPair a b v).syncArmed = s.syncArmed := rfl
@[simp] theorem State.setPair_links (a b v : Nat) : (s.setPair a b v).links = s.links := rfl
@[simp] theorem State.setPair_ids (a b v : Nat) : (s.setPair a b v).ids = s.ids := rfl
@[simp] theorem State.setPair_veing (a b v : Nat) : (s.setPair a b v).veing = s.veing := rfl
@[simp] theorem State.setPair_pp (a b v : Nat) : (s.setPair a b v).pp = s.pp := rfl
@[simp] theorem State.setPair_measures (a b v : Nat) : (s.setPair a b v).measures = s.measures := rfl
@[simp] theorem State.setPair_measured (a b v : Nat) : (s.setPair a b v).measured = s.measured := rfl
@[simp] theorem State.setPair_writes (a b v : Nat) : (s.setPair a b v).writes = s.writes := rfl
@[simp] theorem State.setPair_strms (a b v : Nat) : (s.setPair a b v).strms = s.strms := rfl
@[simp] theorem State.setPair_strmWait (a b v : Nat) : (s.setPair a b v).strmWait = s.strmWait := rfl
@[simp] theorem State.setPair_rr (a b v : Nat) : (s.setPair a b v).rr = s.rr := rfl
@[simp] theorem State.setPair_maxLen (a b v : Nat) : (s.setPair a b v).maxLen = s.maxLen := rfl
@[simp] theorem State.setPair_maxClk (a b v : Nat) : (s.setPair a b v).maxClk = s.maxClk := rfl
@[simp] theorem State.setPair_overrides (a b v : Nat) : (s.setPair a b v).overrides = s.overrides := rfl
@[simp] theorem State.setPair_micro (a b v : Nat) : (s.setPair a b v).micro = s.micro := rfl
@[simp] theorem State.setPair_trigIn (a b v : Nat) : (s.setPair a b v).trigIn = s.trigIn := rfl
@[simp] theorem State.setPair_armedSites (a b v : Nat) : (s.setPair a b v).armedSites = s.armedSites := rfl
@[simp] theorem State.setPair_injFence (a b v : Nat) : (s.setPair a b v).injFence = s.injFence := rfl
@[simp] theorem State.setPair_injHeld (a b v : Nat) : (s.setPair a b v).injHeld = s.injHeld := rfl
@[simp] theorem State.setPair_soft (a b v : Nat) : (s.setPair a b v).soft = s.soft := rfl
@[simp] theorem State.setPair_repairs (a b v : Nat) : (s.setPair a b v).repairs = s.repairs := rfl
@[simp] theorem State.setPair_btAt (a b v : Nat) : (s.setPair a b v).btAt = s.btAt := rfl
@[simp] theorem State.setPair_btHead (a b v : Nat) : (s.setPair a b v).btHead = s.btHead := rfl
@[simp] theorem State.setPair_corrections (a b v : Nat) : (s.setPair a b v).corrections = s.corrections := rfl
@[simp] theorem State.setPair_eccWords (a b v : Nat) : (s.setPair a b v).eccWords = s.eccWords := rfl
@[simp] theorem State.setPair_eccReal (a b v : Nat) : (s.setPair a b v).eccReal = s.eccReal := rfl
@[simp] theorem State.setPair_spareAt (a b v : Nat) : (s.setPair a b v).spareAt = s.spareAt := rfl
@[simp] theorem State.setPair_supStop (a b v : Nat) : (s.setPair a b v).supStop = s.supStop := rfl
@[simp] theorem State.setPair_sealStuck (a b v : Nat) : (s.setPair a b v).sealStuck = s.sealStuck := rfl
@[simp] theorem State.setPair_drbgBad (a b v : Nat) : (s.setPair a b v).drbgBad = s.drbgBad := rfl
@[simp] theorem State.setPair_eccFrame (a b v : Nat) : (s.setPair a b v).eccFrame = s.eccFrame := rfl
@[simp] theorem State.setPair_attests (a b v : Nat) : (s.setPair a b v).attests = s.attests := rfl
@[simp] theorem State.setPair_cert (a b v : Nat) : (s.setPair a b v).cert = s.cert := rfl
@[simp] theorem State.setPair_certDigest (a b v : Nat) : (s.setPair a b v).certDigest = s.certDigest := rfl
@[simp] theorem State.setPair_certBad (a b v : Nat) : (s.setPair a b v).certBad = s.certBad := rfl
@[simp] theorem State.setPair_mrnClear (a b v : Nat) : (s.setPair a b v).mrnClear = s.mrnClear := rfl
@[simp] theorem State.setPair_dumping (a b v : Nat) : (s.setPair a b v).dumping = s.dumping := rfl
@[simp] theorem State.setPair_dump (a b v : Nat) : (s.setPair a b v).dump = s.dump := rfl
@[simp] theorem State.setPair_dumpFlash (a b v : Nat) : (s.setPair a b v).dumpFlash = s.dumpFlash := rfl
@[simp] theorem State.setPair_tap (a b v : Nat) : (s.setPair a b v).tap = s.tap := rfl
@[simp] theorem State.setPair_groups (a b v : Nat) : (s.setPair a b v).groups = s.groups := rfl
@[simp] theorem State.setPair_items (a b v : Nat) : (s.setPair a b v).items = s.items := rfl
@[simp] theorem State.setPair_splits (a b v : Nat) : (s.setPair a b v).splits = s.splits := rfl
@[simp] theorem State.setPair_txq (a b v : Nat) : (s.setPair a b v).txq = s.txq := rfl
@[simp] theorem State.setPair_sent (a b v : Nat) : (s.setPair a b v).sent = s.sent := rfl
@[simp] theorem State.setPair_rep (a b v : Nat) : (s.setPair a b v).rep = s.rep := rfl
@[simp] theorem State.setPair_mrn (a b v : Nat) : (s.setPair a b v).mrn = s.mrn := rfl
@[simp] theorem State.setPair_staged (a b v : Nat) : (s.setPair a b v).staged = s.staged := rfl
@[simp] theorem State.setPair_mrnLost (a b v : Nat) : (s.setPair a b v).mrnLost = s.mrnLost := rfl
@[simp] theorem State.setPair_freeCtr (a b v : Nat) : (s.setPair a b v).freeCtr = s.freeCtr := rfl
@[simp] theorem State.setPair_answer (a b v : Nat) : (s.setPair a b v).answer = s.answer := rfl
@[simp] theorem State.setPair_pending (a b v : Nat) : (s.setPair a b v).pending = s.pending := rfl

@[simp] theorem State.mset_regs (p t o : Nat) (v : Byte) : (s.mset p t o v).regs = s.regs := rfl
@[simp] theorem State.mset_sysTime (p t o : Nat) (v : Byte) : (s.mset p t o v).sysTime = s.sysTime := rfl
@[simp] theorem State.mset_tiles (p t o : Nat) (v : Byte) : (s.mset p t o v).tiles = s.tiles := rfl
@[simp] theorem State.mset_chans (p t o : Nat) (v : Byte) : (s.mset p t o v).chans = s.chans := rfl
@[simp] theorem State.mset_ctxs (p t o : Nat) (v : Byte) : (s.mset p t o v).ctxs = s.ctxs := rfl
@[simp] theorem State.mset_evc (p t o : Nat) (v : Byte) : (s.mset p t o v).evc = s.evc := rfl
@[simp] theorem State.mset_evs (p t o : Nat) (v : Byte) : (s.mset p t o v).evs = s.evs := rfl
@[simp] theorem State.mset_held (p t o : Nat) (v : Byte) : (s.mset p t o v).held = s.held := rfl
@[simp] theorem State.mset_faultMarks (p t o : Nat) (v : Byte) : (s.mset p t o v).faultMarks = s.faultMarks := rfl
@[simp] theorem State.mset_calPend (p t o : Nat) (v : Byte) : (s.mset p t o v).calPend = s.calPend := rfl
@[simp] theorem State.mset_calNew (p t o : Nat) (v : Byte) : (s.mset p t o v).calNew = s.calNew := rfl
@[simp] theorem State.mset_calApplied (p t o : Nat) (v : Byte) : (s.mset p t o v).calApplied = s.calApplied := rfl
@[simp] theorem State.mset_syncPhases (p t o : Nat) (v : Byte) : (s.mset p t o v).syncPhases = s.syncPhases := rfl
@[simp] theorem State.mset_syncCount (p t o : Nat) (v : Byte) : (s.mset p t o v).syncCount = s.syncCount := rfl
@[simp] theorem State.mset_syncD (p t o : Nat) (v : Byte) : (s.mset p t o v).syncD = s.syncD := rfl
@[simp] theorem State.mset_ocxo (p t o : Nat) (v : Byte) : (s.mset p t o v).ocxo = s.ocxo := rfl
@[simp] theorem State.mset_warmSecs (p t o : Nat) (v : Byte) : (s.mset p t o v).warmSecs = s.warmSecs := rfl
@[simp] theorem State.mset_warmLog (p t o : Nat) (v : Byte) : (s.mset p t o v).warmLog = s.warmLog := rfl
@[simp] theorem State.mset_refvLog (p t o : Nat) (v : Byte) : (s.mset p t o v).refvLog = s.refvLog := rfl
@[simp] theorem State.mset_commitAt (p t o : Nat) (v : Byte) : (s.mset p t o v).commitAt = s.commitAt := rfl
@[simp] theorem State.mset_refFreqs (p t o : Nat) (v : Byte) : (s.mset p t o v).refFreqs = s.refFreqs := rfl
@[simp] theorem State.mset_bundles (p t o : Nat) (v : Byte) : (s.mset p t o v).bundles = s.bundles := rfl
@[simp] theorem State.mset_staging (p t o : Nat) (v : Byte) : (s.mset p t o v).staging = s.staging := rfl
@[simp] theorem State.mset_segSeal (p t o : Nat) (v : Byte) : (s.mset p t o v).segSeal = s.segSeal := rfl
@[simp] theorem State.mset_ackGen (p t o : Nat) (v : Byte) : (s.mset p t o v).ackGen = s.ackGen := rfl
@[simp] theorem State.mset_sealForever (p t o : Nat) (v : Byte) : (s.mset p t o v).sealForever = s.sealForever := rfl
@[simp] theorem State.mset_steps (p t o : Nat) (v : Byte) : (s.mset p t o v).steps = s.steps := rfl
@[simp] theorem State.mset_merges (p t o : Nat) (v : Byte) : (s.mset p t o v).merges = s.merges := rfl
@[simp] theorem State.mset_windows (p t o : Nat) (v : Byte) : (s.mset p t o v).windows = s.windows := rfl
@[simp] theorem State.mset_excursions (p t o : Nat) (v : Byte) : (s.mset p t o v).excursions = s.excursions := rfl
@[simp] theorem State.mset_trigOut (p t o : Nat) (v : Byte) : (s.mset p t o v).trigOut = s.trigOut := rfl
@[simp] theorem State.mset_lvlClr (p t o : Nat) (v : Byte) : (s.mset p t o v).lvlClr = s.lvlClr := rfl
@[simp] theorem State.mset_vioSel (p t o : Nat) (v : Byte) : (s.mset p t o v).vioSel = s.vioSel := rfl
@[simp] theorem State.mset_snts (p t o : Nat) (v : Byte) : (s.mset p t o v).snts = s.snts := rfl
@[simp] theorem State.mset_quads (p t o : Nat) (v : Byte) : (s.mset p t o v).quads = s.quads := rfl
@[simp] theorem State.mset_fenceReq (p t o : Nat) (v : Byte) : (s.mset p t o v).fenceReq = s.fenceReq := rfl
@[simp] theorem State.mset_unfenceReq (p t o : Nat) (v : Byte) : (s.mset p t o v).unfenceReq = s.unfenceReq := rfl
@[simp] theorem State.mset_logDue (p t o : Nat) (v : Byte) : (s.mset p t o v).logDue = s.logDue := rfl
@[simp] theorem State.mset_coreDue (p t o : Nat) (v : Byte) : (s.mset p t o v).coreDue = s.coreDue := rfl
@[simp] theorem State.mset_corePass (p t o : Nat) (v : Byte) : (s.mset p t o v).corePass = s.corePass := rfl
@[simp] theorem State.mset_therm (p t o : Nat) (v : Byte) : (s.mset p t o v).therm = s.therm := rfl
@[simp] theorem State.mset_syncArmed (p t o : Nat) (v : Byte) : (s.mset p t o v).syncArmed = s.syncArmed := rfl
@[simp] theorem State.mset_links (p t o : Nat) (v : Byte) : (s.mset p t o v).links = s.links := rfl
@[simp] theorem State.mset_ids (p t o : Nat) (v : Byte) : (s.mset p t o v).ids = s.ids := rfl
@[simp] theorem State.mset_veing (p t o : Nat) (v : Byte) : (s.mset p t o v).veing = s.veing := rfl
@[simp] theorem State.mset_pp (p t o : Nat) (v : Byte) : (s.mset p t o v).pp = s.pp := rfl
@[simp] theorem State.mset_measures (p t o : Nat) (v : Byte) : (s.mset p t o v).measures = s.measures := rfl
@[simp] theorem State.mset_measured (p t o : Nat) (v : Byte) : (s.mset p t o v).measured = s.measured := rfl
@[simp] theorem State.mset_writes (p t o : Nat) (v : Byte) : (s.mset p t o v).writes = s.writes := rfl
@[simp] theorem State.mset_strms (p t o : Nat) (v : Byte) : (s.mset p t o v).strms = s.strms := rfl
@[simp] theorem State.mset_strmWait (p t o : Nat) (v : Byte) : (s.mset p t o v).strmWait = s.strmWait := rfl
@[simp] theorem State.mset_rr (p t o : Nat) (v : Byte) : (s.mset p t o v).rr = s.rr := rfl
@[simp] theorem State.mset_maxLen (p t o : Nat) (v : Byte) : (s.mset p t o v).maxLen = s.maxLen := rfl
@[simp] theorem State.mset_maxClk (p t o : Nat) (v : Byte) : (s.mset p t o v).maxClk = s.maxClk := rfl
@[simp] theorem State.mset_overrides (p t o : Nat) (v : Byte) : (s.mset p t o v).overrides = s.overrides := rfl
@[simp] theorem State.mset_micro (p t o : Nat) (v : Byte) : (s.mset p t o v).micro = s.micro := rfl
@[simp] theorem State.mset_trigIn (p t o : Nat) (v : Byte) : (s.mset p t o v).trigIn = s.trigIn := rfl
@[simp] theorem State.mset_armedSites (p t o : Nat) (v : Byte) : (s.mset p t o v).armedSites = s.armedSites := rfl
@[simp] theorem State.mset_injFence (p t o : Nat) (v : Byte) : (s.mset p t o v).injFence = s.injFence := rfl
@[simp] theorem State.mset_injHeld (p t o : Nat) (v : Byte) : (s.mset p t o v).injHeld = s.injHeld := rfl
@[simp] theorem State.mset_soft (p t o : Nat) (v : Byte) : (s.mset p t o v).soft = s.soft := rfl
@[simp] theorem State.mset_repairs (p t o : Nat) (v : Byte) : (s.mset p t o v).repairs = s.repairs := rfl
@[simp] theorem State.mset_btAt (p t o : Nat) (v : Byte) : (s.mset p t o v).btAt = s.btAt := rfl
@[simp] theorem State.mset_btHead (p t o : Nat) (v : Byte) : (s.mset p t o v).btHead = s.btHead := rfl
@[simp] theorem State.mset_corrections (p t o : Nat) (v : Byte) : (s.mset p t o v).corrections = s.corrections := rfl
@[simp] theorem State.mset_eccWords (p t o : Nat) (v : Byte) : (s.mset p t o v).eccWords = s.eccWords := rfl
@[simp] theorem State.mset_eccReal (p t o : Nat) (v : Byte) : (s.mset p t o v).eccReal = s.eccReal := rfl
@[simp] theorem State.mset_spareAt (p t o : Nat) (v : Byte) : (s.mset p t o v).spareAt = s.spareAt := rfl
@[simp] theorem State.mset_supStop (p t o : Nat) (v : Byte) : (s.mset p t o v).supStop = s.supStop := rfl
@[simp] theorem State.mset_sealStuck (p t o : Nat) (v : Byte) : (s.mset p t o v).sealStuck = s.sealStuck := rfl
@[simp] theorem State.mset_drbgBad (p t o : Nat) (v : Byte) : (s.mset p t o v).drbgBad = s.drbgBad := rfl
@[simp] theorem State.mset_eccFrame (p t o : Nat) (v : Byte) : (s.mset p t o v).eccFrame = s.eccFrame := rfl
@[simp] theorem State.mset_attests (p t o : Nat) (v : Byte) : (s.mset p t o v).attests = s.attests := rfl
@[simp] theorem State.mset_cert (p t o : Nat) (v : Byte) : (s.mset p t o v).cert = s.cert := rfl
@[simp] theorem State.mset_certDigest (p t o : Nat) (v : Byte) : (s.mset p t o v).certDigest = s.certDigest := rfl
@[simp] theorem State.mset_certBad (p t o : Nat) (v : Byte) : (s.mset p t o v).certBad = s.certBad := rfl
@[simp] theorem State.mset_mrnClear (p t o : Nat) (v : Byte) : (s.mset p t o v).mrnClear = s.mrnClear := rfl
@[simp] theorem State.mset_dumping (p t o : Nat) (v : Byte) : (s.mset p t o v).dumping = s.dumping := rfl
@[simp] theorem State.mset_dump (p t o : Nat) (v : Byte) : (s.mset p t o v).dump = s.dump := rfl
@[simp] theorem State.mset_dumpFlash (p t o : Nat) (v : Byte) : (s.mset p t o v).dumpFlash = s.dumpFlash := rfl
@[simp] theorem State.mset_tap (p t o : Nat) (v : Byte) : (s.mset p t o v).tap = s.tap := rfl
@[simp] theorem State.mset_groups (p t o : Nat) (v : Byte) : (s.mset p t o v).groups = s.groups := rfl
@[simp] theorem State.mset_items (p t o : Nat) (v : Byte) : (s.mset p t o v).items = s.items := rfl
@[simp] theorem State.mset_splits (p t o : Nat) (v : Byte) : (s.mset p t o v).splits = s.splits := rfl
@[simp] theorem State.mset_txq (p t o : Nat) (v : Byte) : (s.mset p t o v).txq = s.txq := rfl
@[simp] theorem State.mset_sent (p t o : Nat) (v : Byte) : (s.mset p t o v).sent = s.sent := rfl
@[simp] theorem State.mset_rep (p t o : Nat) (v : Byte) : (s.mset p t o v).rep = s.rep := rfl
@[simp] theorem State.mset_mrn (p t o : Nat) (v : Byte) : (s.mset p t o v).mrn = s.mrn := rfl
@[simp] theorem State.mset_staged (p t o : Nat) (v : Byte) : (s.mset p t o v).staged = s.staged := rfl
@[simp] theorem State.mset_mrnLost (p t o : Nat) (v : Byte) : (s.mset p t o v).mrnLost = s.mrnLost := rfl
@[simp] theorem State.mset_freeCtr (p t o : Nat) (v : Byte) : (s.mset p t o v).freeCtr = s.freeCtr := rfl
@[simp] theorem State.mset_answer (p t o : Nat) (v : Byte) : (s.mset p t o v).answer = s.answer := rfl
@[simp] theorem State.mset_pending (p t o : Nat) (v : Byte) : (s.mset p t o v).pending = s.pending := rfl

@[simp] theorem State.merase_regs (p : Nat → Bool) : (s.merase p).regs = s.regs := rfl
@[simp] theorem State.merase_sysTime (p : Nat → Bool) : (s.merase p).sysTime = s.sysTime := rfl
@[simp] theorem State.merase_tiles (p : Nat → Bool) : (s.merase p).tiles = s.tiles := rfl
@[simp] theorem State.merase_chans (p : Nat → Bool) : (s.merase p).chans = s.chans := rfl
@[simp] theorem State.merase_ctxs (p : Nat → Bool) : (s.merase p).ctxs = s.ctxs := rfl
@[simp] theorem State.merase_evc (p : Nat → Bool) : (s.merase p).evc = s.evc := rfl
@[simp] theorem State.merase_evs (p : Nat → Bool) : (s.merase p).evs = s.evs := rfl
@[simp] theorem State.merase_held (p : Nat → Bool) : (s.merase p).held = s.held := rfl
@[simp] theorem State.merase_faultMarks (p : Nat → Bool) : (s.merase p).faultMarks = s.faultMarks := rfl
@[simp] theorem State.merase_calPend (p : Nat → Bool) : (s.merase p).calPend = s.calPend := rfl
@[simp] theorem State.merase_calNew (p : Nat → Bool) : (s.merase p).calNew = s.calNew := rfl
@[simp] theorem State.merase_calApplied (p : Nat → Bool) : (s.merase p).calApplied = s.calApplied := rfl
@[simp] theorem State.merase_syncPhases (p : Nat → Bool) : (s.merase p).syncPhases = s.syncPhases := rfl
@[simp] theorem State.merase_syncCount (p : Nat → Bool) : (s.merase p).syncCount = s.syncCount := rfl
@[simp] theorem State.merase_syncD (p : Nat → Bool) : (s.merase p).syncD = s.syncD := rfl
@[simp] theorem State.merase_ocxo (p : Nat → Bool) : (s.merase p).ocxo = s.ocxo := rfl
@[simp] theorem State.merase_warmSecs (p : Nat → Bool) : (s.merase p).warmSecs = s.warmSecs := rfl
@[simp] theorem State.merase_warmLog (p : Nat → Bool) : (s.merase p).warmLog = s.warmLog := rfl
@[simp] theorem State.merase_refvLog (p : Nat → Bool) : (s.merase p).refvLog = s.refvLog := rfl
@[simp] theorem State.merase_commitAt (p : Nat → Bool) : (s.merase p).commitAt = s.commitAt := rfl
@[simp] theorem State.merase_refFreqs (p : Nat → Bool) : (s.merase p).refFreqs = s.refFreqs := rfl
@[simp] theorem State.merase_bundles (p : Nat → Bool) : (s.merase p).bundles = s.bundles := rfl
@[simp] theorem State.merase_staging (p : Nat → Bool) : (s.merase p).staging = s.staging := rfl
@[simp] theorem State.merase_segSeal (p : Nat → Bool) : (s.merase p).segSeal = s.segSeal := rfl
@[simp] theorem State.merase_ackGen (p : Nat → Bool) : (s.merase p).ackGen = s.ackGen := rfl
@[simp] theorem State.merase_sealForever (p : Nat → Bool) : (s.merase p).sealForever = s.sealForever := rfl
@[simp] theorem State.merase_steps (p : Nat → Bool) : (s.merase p).steps = s.steps := rfl
@[simp] theorem State.merase_merges (p : Nat → Bool) : (s.merase p).merges = s.merges := rfl
@[simp] theorem State.merase_windows (p : Nat → Bool) : (s.merase p).windows = s.windows := rfl
@[simp] theorem State.merase_excursions (p : Nat → Bool) : (s.merase p).excursions = s.excursions := rfl
@[simp] theorem State.merase_trigOut (p : Nat → Bool) : (s.merase p).trigOut = s.trigOut := rfl
@[simp] theorem State.merase_lvlClr (p : Nat → Bool) : (s.merase p).lvlClr = s.lvlClr := rfl
@[simp] theorem State.merase_vioSel (p : Nat → Bool) : (s.merase p).vioSel = s.vioSel := rfl
@[simp] theorem State.merase_snts (p : Nat → Bool) : (s.merase p).snts = s.snts := rfl
@[simp] theorem State.merase_quads (p : Nat → Bool) : (s.merase p).quads = s.quads := rfl
@[simp] theorem State.merase_fenceReq (p : Nat → Bool) : (s.merase p).fenceReq = s.fenceReq := rfl
@[simp] theorem State.merase_unfenceReq (p : Nat → Bool) : (s.merase p).unfenceReq = s.unfenceReq := rfl
@[simp] theorem State.merase_logDue (p : Nat → Bool) : (s.merase p).logDue = s.logDue := rfl
@[simp] theorem State.merase_coreDue (p : Nat → Bool) : (s.merase p).coreDue = s.coreDue := rfl
@[simp] theorem State.merase_corePass (p : Nat → Bool) : (s.merase p).corePass = s.corePass := rfl
@[simp] theorem State.merase_therm (p : Nat → Bool) : (s.merase p).therm = s.therm := rfl
@[simp] theorem State.merase_syncArmed (p : Nat → Bool) : (s.merase p).syncArmed = s.syncArmed := rfl
@[simp] theorem State.merase_links (p : Nat → Bool) : (s.merase p).links = s.links := rfl
@[simp] theorem State.merase_ids (p : Nat → Bool) : (s.merase p).ids = s.ids := rfl
@[simp] theorem State.merase_veing (p : Nat → Bool) : (s.merase p).veing = s.veing := rfl
@[simp] theorem State.merase_pp (p : Nat → Bool) : (s.merase p).pp = s.pp := rfl
@[simp] theorem State.merase_measures (p : Nat → Bool) : (s.merase p).measures = s.measures := rfl
@[simp] theorem State.merase_measured (p : Nat → Bool) : (s.merase p).measured = s.measured := rfl
@[simp] theorem State.merase_writes (p : Nat → Bool) : (s.merase p).writes = s.writes := rfl
@[simp] theorem State.merase_strms (p : Nat → Bool) : (s.merase p).strms = s.strms := rfl
@[simp] theorem State.merase_strmWait (p : Nat → Bool) : (s.merase p).strmWait = s.strmWait := rfl
@[simp] theorem State.merase_rr (p : Nat → Bool) : (s.merase p).rr = s.rr := rfl
@[simp] theorem State.merase_maxLen (p : Nat → Bool) : (s.merase p).maxLen = s.maxLen := rfl
@[simp] theorem State.merase_maxClk (p : Nat → Bool) : (s.merase p).maxClk = s.maxClk := rfl
@[simp] theorem State.merase_overrides (p : Nat → Bool) : (s.merase p).overrides = s.overrides := rfl
@[simp] theorem State.merase_micro (p : Nat → Bool) : (s.merase p).micro = s.micro := rfl
@[simp] theorem State.merase_trigIn (p : Nat → Bool) : (s.merase p).trigIn = s.trigIn := rfl
@[simp] theorem State.merase_armedSites (p : Nat → Bool) : (s.merase p).armedSites = s.armedSites := rfl
@[simp] theorem State.merase_injFence (p : Nat → Bool) : (s.merase p).injFence = s.injFence := rfl
@[simp] theorem State.merase_injHeld (p : Nat → Bool) : (s.merase p).injHeld = s.injHeld := rfl
@[simp] theorem State.merase_soft (p : Nat → Bool) : (s.merase p).soft = s.soft := rfl
@[simp] theorem State.merase_repairs (p : Nat → Bool) : (s.merase p).repairs = s.repairs := rfl
@[simp] theorem State.merase_btAt (p : Nat → Bool) : (s.merase p).btAt = s.btAt := rfl
@[simp] theorem State.merase_btHead (p : Nat → Bool) : (s.merase p).btHead = s.btHead := rfl
@[simp] theorem State.merase_corrections (p : Nat → Bool) : (s.merase p).corrections = s.corrections := rfl
@[simp] theorem State.merase_eccWords (p : Nat → Bool) : (s.merase p).eccWords = s.eccWords := rfl
@[simp] theorem State.merase_eccReal (p : Nat → Bool) : (s.merase p).eccReal = s.eccReal := rfl
@[simp] theorem State.merase_spareAt (p : Nat → Bool) : (s.merase p).spareAt = s.spareAt := rfl
@[simp] theorem State.merase_supStop (p : Nat → Bool) : (s.merase p).supStop = s.supStop := rfl
@[simp] theorem State.merase_sealStuck (p : Nat → Bool) : (s.merase p).sealStuck = s.sealStuck := rfl
@[simp] theorem State.merase_drbgBad (p : Nat → Bool) : (s.merase p).drbgBad = s.drbgBad := rfl
@[simp] theorem State.merase_eccFrame (p : Nat → Bool) : (s.merase p).eccFrame = s.eccFrame := rfl
@[simp] theorem State.merase_attests (p : Nat → Bool) : (s.merase p).attests = s.attests := rfl
@[simp] theorem State.merase_cert (p : Nat → Bool) : (s.merase p).cert = s.cert := rfl
@[simp] theorem State.merase_certDigest (p : Nat → Bool) : (s.merase p).certDigest = s.certDigest := rfl
@[simp] theorem State.merase_certBad (p : Nat → Bool) : (s.merase p).certBad = s.certBad := rfl
@[simp] theorem State.merase_mrnClear (p : Nat → Bool) : (s.merase p).mrnClear = s.mrnClear := rfl
@[simp] theorem State.merase_dumping (p : Nat → Bool) : (s.merase p).dumping = s.dumping := rfl
@[simp] theorem State.merase_dump (p : Nat → Bool) : (s.merase p).dump = s.dump := rfl
@[simp] theorem State.merase_dumpFlash (p : Nat → Bool) : (s.merase p).dumpFlash = s.dumpFlash := rfl
@[simp] theorem State.merase_tap (p : Nat → Bool) : (s.merase p).tap = s.tap := rfl
@[simp] theorem State.merase_groups (p : Nat → Bool) : (s.merase p).groups = s.groups := rfl
@[simp] theorem State.merase_items (p : Nat → Bool) : (s.merase p).items = s.items := rfl
@[simp] theorem State.merase_splits (p : Nat → Bool) : (s.merase p).splits = s.splits := rfl
@[simp] theorem State.merase_txq (p : Nat → Bool) : (s.merase p).txq = s.txq := rfl
@[simp] theorem State.merase_sent (p : Nat → Bool) : (s.merase p).sent = s.sent := rfl
@[simp] theorem State.merase_rep (p : Nat → Bool) : (s.merase p).rep = s.rep := rfl
@[simp] theorem State.merase_mrn (p : Nat → Bool) : (s.merase p).mrn = s.mrn := rfl
@[simp] theorem State.merase_staged (p : Nat → Bool) : (s.merase p).staged = s.staged := rfl
@[simp] theorem State.merase_mrnLost (p : Nat → Bool) : (s.merase p).mrnLost = s.mrnLost := rfl
@[simp] theorem State.merase_freeCtr (p : Nat → Bool) : (s.merase p).freeCtr = s.freeCtr := rfl
@[simp] theorem State.merase_answer (p : Nat → Bool) : (s.merase p).answer = s.answer := rfl
@[simp] theorem State.merase_pending (p : Nat → Bool) : (s.merase p).pending = s.pending := rfl

@[simp] theorem State.eraseSpace_regs (p t : Nat) : (s.eraseSpace p t).regs = s.regs := rfl
@[simp] theorem State.eraseSpace_sysTime (p t : Nat) : (s.eraseSpace p t).sysTime = s.sysTime := rfl
@[simp] theorem State.eraseSpace_tiles (p t : Nat) : (s.eraseSpace p t).tiles = s.tiles := rfl
@[simp] theorem State.eraseSpace_chans (p t : Nat) : (s.eraseSpace p t).chans = s.chans := rfl
@[simp] theorem State.eraseSpace_ctxs (p t : Nat) : (s.eraseSpace p t).ctxs = s.ctxs := rfl
@[simp] theorem State.eraseSpace_evc (p t : Nat) : (s.eraseSpace p t).evc = s.evc := rfl
@[simp] theorem State.eraseSpace_evs (p t : Nat) : (s.eraseSpace p t).evs = s.evs := rfl
@[simp] theorem State.eraseSpace_held (p t : Nat) : (s.eraseSpace p t).held = s.held := rfl
@[simp] theorem State.eraseSpace_faultMarks (p t : Nat) : (s.eraseSpace p t).faultMarks = s.faultMarks := rfl
@[simp] theorem State.eraseSpace_calPend (p t : Nat) : (s.eraseSpace p t).calPend = s.calPend := rfl
@[simp] theorem State.eraseSpace_calNew (p t : Nat) : (s.eraseSpace p t).calNew = s.calNew := rfl
@[simp] theorem State.eraseSpace_calApplied (p t : Nat) : (s.eraseSpace p t).calApplied = s.calApplied := rfl
@[simp] theorem State.eraseSpace_syncPhases (p t : Nat) : (s.eraseSpace p t).syncPhases = s.syncPhases := rfl
@[simp] theorem State.eraseSpace_syncCount (p t : Nat) : (s.eraseSpace p t).syncCount = s.syncCount := rfl
@[simp] theorem State.eraseSpace_syncD (p t : Nat) : (s.eraseSpace p t).syncD = s.syncD := rfl
@[simp] theorem State.eraseSpace_ocxo (p t : Nat) : (s.eraseSpace p t).ocxo = s.ocxo := rfl
@[simp] theorem State.eraseSpace_warmSecs (p t : Nat) : (s.eraseSpace p t).warmSecs = s.warmSecs := rfl
@[simp] theorem State.eraseSpace_warmLog (p t : Nat) : (s.eraseSpace p t).warmLog = s.warmLog := rfl
@[simp] theorem State.eraseSpace_refvLog (p t : Nat) : (s.eraseSpace p t).refvLog = s.refvLog := rfl
@[simp] theorem State.eraseSpace_commitAt (p t : Nat) : (s.eraseSpace p t).commitAt = s.commitAt := rfl
@[simp] theorem State.eraseSpace_refFreqs (p t : Nat) : (s.eraseSpace p t).refFreqs = s.refFreqs := rfl
@[simp] theorem State.eraseSpace_bundles (p t : Nat) : (s.eraseSpace p t).bundles = s.bundles := rfl
@[simp] theorem State.eraseSpace_staging (p t : Nat) : (s.eraseSpace p t).staging = s.staging := rfl
@[simp] theorem State.eraseSpace_segSeal (p t : Nat) : (s.eraseSpace p t).segSeal = s.segSeal := rfl
@[simp] theorem State.eraseSpace_ackGen (p t : Nat) : (s.eraseSpace p t).ackGen = s.ackGen := rfl
@[simp] theorem State.eraseSpace_sealForever (p t : Nat) : (s.eraseSpace p t).sealForever = s.sealForever := rfl
@[simp] theorem State.eraseSpace_steps (p t : Nat) : (s.eraseSpace p t).steps = s.steps := rfl
@[simp] theorem State.eraseSpace_merges (p t : Nat) : (s.eraseSpace p t).merges = s.merges := rfl
@[simp] theorem State.eraseSpace_windows (p t : Nat) : (s.eraseSpace p t).windows = s.windows := rfl
@[simp] theorem State.eraseSpace_excursions (p t : Nat) : (s.eraseSpace p t).excursions = s.excursions := rfl
@[simp] theorem State.eraseSpace_trigOut (p t : Nat) : (s.eraseSpace p t).trigOut = s.trigOut := rfl
@[simp] theorem State.eraseSpace_lvlClr (p t : Nat) : (s.eraseSpace p t).lvlClr = s.lvlClr := rfl
@[simp] theorem State.eraseSpace_vioSel (p t : Nat) : (s.eraseSpace p t).vioSel = s.vioSel := rfl
@[simp] theorem State.eraseSpace_snts (p t : Nat) : (s.eraseSpace p t).snts = s.snts := rfl
@[simp] theorem State.eraseSpace_quads (p t : Nat) : (s.eraseSpace p t).quads = s.quads := rfl
@[simp] theorem State.eraseSpace_fenceReq (p t : Nat) : (s.eraseSpace p t).fenceReq = s.fenceReq := rfl
@[simp] theorem State.eraseSpace_unfenceReq (p t : Nat) : (s.eraseSpace p t).unfenceReq = s.unfenceReq := rfl
@[simp] theorem State.eraseSpace_logDue (p t : Nat) : (s.eraseSpace p t).logDue = s.logDue := rfl
@[simp] theorem State.eraseSpace_coreDue (p t : Nat) : (s.eraseSpace p t).coreDue = s.coreDue := rfl
@[simp] theorem State.eraseSpace_corePass (p t : Nat) : (s.eraseSpace p t).corePass = s.corePass := rfl
@[simp] theorem State.eraseSpace_therm (p t : Nat) : (s.eraseSpace p t).therm = s.therm := rfl
@[simp] theorem State.eraseSpace_syncArmed (p t : Nat) : (s.eraseSpace p t).syncArmed = s.syncArmed := rfl
@[simp] theorem State.eraseSpace_links (p t : Nat) : (s.eraseSpace p t).links = s.links := rfl
@[simp] theorem State.eraseSpace_ids (p t : Nat) : (s.eraseSpace p t).ids = s.ids := rfl
@[simp] theorem State.eraseSpace_veing (p t : Nat) : (s.eraseSpace p t).veing = s.veing := rfl
@[simp] theorem State.eraseSpace_pp (p t : Nat) : (s.eraseSpace p t).pp = s.pp := rfl
@[simp] theorem State.eraseSpace_measures (p t : Nat) : (s.eraseSpace p t).measures = s.measures := rfl
@[simp] theorem State.eraseSpace_measured (p t : Nat) : (s.eraseSpace p t).measured = s.measured := rfl
@[simp] theorem State.eraseSpace_writes (p t : Nat) : (s.eraseSpace p t).writes = s.writes := rfl
@[simp] theorem State.eraseSpace_strms (p t : Nat) : (s.eraseSpace p t).strms = s.strms := rfl
@[simp] theorem State.eraseSpace_strmWait (p t : Nat) : (s.eraseSpace p t).strmWait = s.strmWait := rfl
@[simp] theorem State.eraseSpace_rr (p t : Nat) : (s.eraseSpace p t).rr = s.rr := rfl
@[simp] theorem State.eraseSpace_maxLen (p t : Nat) : (s.eraseSpace p t).maxLen = s.maxLen := rfl
@[simp] theorem State.eraseSpace_maxClk (p t : Nat) : (s.eraseSpace p t).maxClk = s.maxClk := rfl
@[simp] theorem State.eraseSpace_overrides (p t : Nat) : (s.eraseSpace p t).overrides = s.overrides := rfl
@[simp] theorem State.eraseSpace_micro (p t : Nat) : (s.eraseSpace p t).micro = s.micro := rfl
@[simp] theorem State.eraseSpace_trigIn (p t : Nat) : (s.eraseSpace p t).trigIn = s.trigIn := rfl
@[simp] theorem State.eraseSpace_armedSites (p t : Nat) : (s.eraseSpace p t).armedSites = s.armedSites := rfl
@[simp] theorem State.eraseSpace_injFence (p t : Nat) : (s.eraseSpace p t).injFence = s.injFence := rfl
@[simp] theorem State.eraseSpace_injHeld (p t : Nat) : (s.eraseSpace p t).injHeld = s.injHeld := rfl
@[simp] theorem State.eraseSpace_soft (p t : Nat) : (s.eraseSpace p t).soft = s.soft := rfl
@[simp] theorem State.eraseSpace_repairs (p t : Nat) : (s.eraseSpace p t).repairs = s.repairs := rfl
@[simp] theorem State.eraseSpace_btAt (p t : Nat) : (s.eraseSpace p t).btAt = s.btAt := rfl
@[simp] theorem State.eraseSpace_btHead (p t : Nat) : (s.eraseSpace p t).btHead = s.btHead := rfl
@[simp] theorem State.eraseSpace_corrections (p t : Nat) : (s.eraseSpace p t).corrections = s.corrections := rfl
@[simp] theorem State.eraseSpace_eccWords (p t : Nat) : (s.eraseSpace p t).eccWords = s.eccWords := rfl
@[simp] theorem State.eraseSpace_eccReal (p t : Nat) : (s.eraseSpace p t).eccReal = s.eccReal := rfl
@[simp] theorem State.eraseSpace_spareAt (p t : Nat) : (s.eraseSpace p t).spareAt = s.spareAt := rfl
@[simp] theorem State.eraseSpace_supStop (p t : Nat) : (s.eraseSpace p t).supStop = s.supStop := rfl
@[simp] theorem State.eraseSpace_sealStuck (p t : Nat) : (s.eraseSpace p t).sealStuck = s.sealStuck := rfl
@[simp] theorem State.eraseSpace_drbgBad (p t : Nat) : (s.eraseSpace p t).drbgBad = s.drbgBad := rfl
@[simp] theorem State.eraseSpace_eccFrame (p t : Nat) : (s.eraseSpace p t).eccFrame = s.eccFrame := rfl
@[simp] theorem State.eraseSpace_attests (p t : Nat) : (s.eraseSpace p t).attests = s.attests := rfl
@[simp] theorem State.eraseSpace_cert (p t : Nat) : (s.eraseSpace p t).cert = s.cert := rfl
@[simp] theorem State.eraseSpace_certDigest (p t : Nat) : (s.eraseSpace p t).certDigest = s.certDigest := rfl
@[simp] theorem State.eraseSpace_certBad (p t : Nat) : (s.eraseSpace p t).certBad = s.certBad := rfl
@[simp] theorem State.eraseSpace_mrnClear (p t : Nat) : (s.eraseSpace p t).mrnClear = s.mrnClear := rfl
@[simp] theorem State.eraseSpace_dumping (p t : Nat) : (s.eraseSpace p t).dumping = s.dumping := rfl
@[simp] theorem State.eraseSpace_dump (p t : Nat) : (s.eraseSpace p t).dump = s.dump := rfl
@[simp] theorem State.eraseSpace_dumpFlash (p t : Nat) : (s.eraseSpace p t).dumpFlash = s.dumpFlash := rfl
@[simp] theorem State.eraseSpace_tap (p t : Nat) : (s.eraseSpace p t).tap = s.tap := rfl
@[simp] theorem State.eraseSpace_groups (p t : Nat) : (s.eraseSpace p t).groups = s.groups := rfl
@[simp] theorem State.eraseSpace_items (p t : Nat) : (s.eraseSpace p t).items = s.items := rfl
@[simp] theorem State.eraseSpace_splits (p t : Nat) : (s.eraseSpace p t).splits = s.splits := rfl
@[simp] theorem State.eraseSpace_txq (p t : Nat) : (s.eraseSpace p t).txq = s.txq := rfl
@[simp] theorem State.eraseSpace_sent (p t : Nat) : (s.eraseSpace p t).sent = s.sent := rfl
@[simp] theorem State.eraseSpace_rep (p t : Nat) : (s.eraseSpace p t).rep = s.rep := rfl
@[simp] theorem State.eraseSpace_mrn (p t : Nat) : (s.eraseSpace p t).mrn = s.mrn := rfl
@[simp] theorem State.eraseSpace_staged (p t : Nat) : (s.eraseSpace p t).staged = s.staged := rfl
@[simp] theorem State.eraseSpace_mrnLost (p t : Nat) : (s.eraseSpace p t).mrnLost = s.mrnLost := rfl
@[simp] theorem State.eraseSpace_freeCtr (p t : Nat) : (s.eraseSpace p t).freeCtr = s.freeCtr := rfl
@[simp] theorem State.eraseSpace_answer (p t : Nat) : (s.eraseSpace p t).answer = s.answer := rfl
@[simp] theorem State.eraseSpace_pending (p t : Nat) : (s.eraseSpace p t).pending = s.pending := rfl

@[simp] theorem State.setTile_regs (t : Nat) (c : TileCtx) : (s.setTile t c).regs = s.regs := rfl
@[simp] theorem State.setTile_mem (t : Nat) (c : TileCtx) : (s.setTile t c).mem = s.mem := rfl
@[simp] theorem State.setTile_sysTime (t : Nat) (c : TileCtx) : (s.setTile t c).sysTime = s.sysTime := rfl
@[simp] theorem State.setTile_chans (t : Nat) (c : TileCtx) : (s.setTile t c).chans = s.chans := rfl
@[simp] theorem State.setTile_ctxs (t : Nat) (c : TileCtx) : (s.setTile t c).ctxs = s.ctxs := rfl
@[simp] theorem State.setTile_evc (t : Nat) (c : TileCtx) : (s.setTile t c).evc = s.evc := rfl
@[simp] theorem State.setTile_evs (t : Nat) (c : TileCtx) : (s.setTile t c).evs = s.evs := rfl
@[simp] theorem State.setTile_held (t : Nat) (c : TileCtx) : (s.setTile t c).held = s.held := rfl
@[simp] theorem State.setTile_faultMarks (t : Nat) (c : TileCtx) : (s.setTile t c).faultMarks = s.faultMarks := rfl
@[simp] theorem State.setTile_calPend (t : Nat) (c : TileCtx) : (s.setTile t c).calPend = s.calPend := rfl
@[simp] theorem State.setTile_calNew (t : Nat) (c : TileCtx) : (s.setTile t c).calNew = s.calNew := rfl
@[simp] theorem State.setTile_calApplied (t : Nat) (c : TileCtx) : (s.setTile t c).calApplied = s.calApplied := rfl
@[simp] theorem State.setTile_syncPhases (t : Nat) (c : TileCtx) : (s.setTile t c).syncPhases = s.syncPhases := rfl
@[simp] theorem State.setTile_syncCount (t : Nat) (c : TileCtx) : (s.setTile t c).syncCount = s.syncCount := rfl
@[simp] theorem State.setTile_syncD (t : Nat) (c : TileCtx) : (s.setTile t c).syncD = s.syncD := rfl
@[simp] theorem State.setTile_ocxo (t : Nat) (c : TileCtx) : (s.setTile t c).ocxo = s.ocxo := rfl
@[simp] theorem State.setTile_warmSecs (t : Nat) (c : TileCtx) : (s.setTile t c).warmSecs = s.warmSecs := rfl
@[simp] theorem State.setTile_warmLog (t : Nat) (c : TileCtx) : (s.setTile t c).warmLog = s.warmLog := rfl
@[simp] theorem State.setTile_refvLog (t : Nat) (c : TileCtx) : (s.setTile t c).refvLog = s.refvLog := rfl
@[simp] theorem State.setTile_commitAt (t : Nat) (c : TileCtx) : (s.setTile t c).commitAt = s.commitAt := rfl
@[simp] theorem State.setTile_refFreqs (t : Nat) (c : TileCtx) : (s.setTile t c).refFreqs = s.refFreqs := rfl
@[simp] theorem State.setTile_bundles (t : Nat) (c : TileCtx) : (s.setTile t c).bundles = s.bundles := rfl
@[simp] theorem State.setTile_staging (t : Nat) (c : TileCtx) : (s.setTile t c).staging = s.staging := rfl
@[simp] theorem State.setTile_segSeal (t : Nat) (c : TileCtx) : (s.setTile t c).segSeal = s.segSeal := rfl
@[simp] theorem State.setTile_ackGen (t : Nat) (c : TileCtx) : (s.setTile t c).ackGen = s.ackGen := rfl
@[simp] theorem State.setTile_sealForever (t : Nat) (c : TileCtx) : (s.setTile t c).sealForever = s.sealForever := rfl
@[simp] theorem State.setTile_steps (t : Nat) (c : TileCtx) : (s.setTile t c).steps = s.steps := rfl
@[simp] theorem State.setTile_merges (t : Nat) (c : TileCtx) : (s.setTile t c).merges = s.merges := rfl
@[simp] theorem State.setTile_windows (t : Nat) (c : TileCtx) : (s.setTile t c).windows = s.windows := rfl
@[simp] theorem State.setTile_excursions (t : Nat) (c : TileCtx) : (s.setTile t c).excursions = s.excursions := rfl
@[simp] theorem State.setTile_trigOut (t : Nat) (c : TileCtx) : (s.setTile t c).trigOut = s.trigOut := rfl
@[simp] theorem State.setTile_lvlClr (t : Nat) (c : TileCtx) : (s.setTile t c).lvlClr = s.lvlClr := rfl
@[simp] theorem State.setTile_vioSel (t : Nat) (c : TileCtx) : (s.setTile t c).vioSel = s.vioSel := rfl
@[simp] theorem State.setTile_snts (t : Nat) (c : TileCtx) : (s.setTile t c).snts = s.snts := rfl
@[simp] theorem State.setTile_quads (t : Nat) (c : TileCtx) : (s.setTile t c).quads = s.quads := rfl
@[simp] theorem State.setTile_fenceReq (t : Nat) (c : TileCtx) : (s.setTile t c).fenceReq = s.fenceReq := rfl
@[simp] theorem State.setTile_unfenceReq (t : Nat) (c : TileCtx) : (s.setTile t c).unfenceReq = s.unfenceReq := rfl
@[simp] theorem State.setTile_logDue (t : Nat) (c : TileCtx) : (s.setTile t c).logDue = s.logDue := rfl
@[simp] theorem State.setTile_coreDue (t : Nat) (c : TileCtx) : (s.setTile t c).coreDue = s.coreDue := rfl
@[simp] theorem State.setTile_corePass (t : Nat) (c : TileCtx) : (s.setTile t c).corePass = s.corePass := rfl
@[simp] theorem State.setTile_therm (t : Nat) (c : TileCtx) : (s.setTile t c).therm = s.therm := rfl
@[simp] theorem State.setTile_syncArmed (t : Nat) (c : TileCtx) : (s.setTile t c).syncArmed = s.syncArmed := rfl
@[simp] theorem State.setTile_links (t : Nat) (c : TileCtx) : (s.setTile t c).links = s.links := rfl
@[simp] theorem State.setTile_ids (t : Nat) (c : TileCtx) : (s.setTile t c).ids = s.ids := rfl
@[simp] theorem State.setTile_veing (t : Nat) (c : TileCtx) : (s.setTile t c).veing = s.veing := rfl
@[simp] theorem State.setTile_pp (t : Nat) (c : TileCtx) : (s.setTile t c).pp = s.pp := rfl
@[simp] theorem State.setTile_measures (t : Nat) (c : TileCtx) : (s.setTile t c).measures = s.measures := rfl
@[simp] theorem State.setTile_measured (t : Nat) (c : TileCtx) : (s.setTile t c).measured = s.measured := rfl
@[simp] theorem State.setTile_writes (t : Nat) (c : TileCtx) : (s.setTile t c).writes = s.writes := rfl
@[simp] theorem State.setTile_strms (t : Nat) (c : TileCtx) : (s.setTile t c).strms = s.strms := rfl
@[simp] theorem State.setTile_strmWait (t : Nat) (c : TileCtx) : (s.setTile t c).strmWait = s.strmWait := rfl
@[simp] theorem State.setTile_rr (t : Nat) (c : TileCtx) : (s.setTile t c).rr = s.rr := rfl
@[simp] theorem State.setTile_maxLen (t : Nat) (c : TileCtx) : (s.setTile t c).maxLen = s.maxLen := rfl
@[simp] theorem State.setTile_maxClk (t : Nat) (c : TileCtx) : (s.setTile t c).maxClk = s.maxClk := rfl
@[simp] theorem State.setTile_overrides (t : Nat) (c : TileCtx) : (s.setTile t c).overrides = s.overrides := rfl
@[simp] theorem State.setTile_micro (t : Nat) (c : TileCtx) : (s.setTile t c).micro = s.micro := rfl
@[simp] theorem State.setTile_trigIn (t : Nat) (c : TileCtx) : (s.setTile t c).trigIn = s.trigIn := rfl
@[simp] theorem State.setTile_armedSites (t : Nat) (c : TileCtx) : (s.setTile t c).armedSites = s.armedSites := rfl
@[simp] theorem State.setTile_injFence (t : Nat) (c : TileCtx) : (s.setTile t c).injFence = s.injFence := rfl
@[simp] theorem State.setTile_injHeld (t : Nat) (c : TileCtx) : (s.setTile t c).injHeld = s.injHeld := rfl
@[simp] theorem State.setTile_soft (t : Nat) (c : TileCtx) : (s.setTile t c).soft = s.soft := rfl
@[simp] theorem State.setTile_repairs (t : Nat) (c : TileCtx) : (s.setTile t c).repairs = s.repairs := rfl
@[simp] theorem State.setTile_btAt (t : Nat) (c : TileCtx) : (s.setTile t c).btAt = s.btAt := rfl
@[simp] theorem State.setTile_btHead (t : Nat) (c : TileCtx) : (s.setTile t c).btHead = s.btHead := rfl
@[simp] theorem State.setTile_corrections (t : Nat) (c : TileCtx) : (s.setTile t c).corrections = s.corrections := rfl
@[simp] theorem State.setTile_eccWords (t : Nat) (c : TileCtx) : (s.setTile t c).eccWords = s.eccWords := rfl
@[simp] theorem State.setTile_eccReal (t : Nat) (c : TileCtx) : (s.setTile t c).eccReal = s.eccReal := rfl
@[simp] theorem State.setTile_spareAt (t : Nat) (c : TileCtx) : (s.setTile t c).spareAt = s.spareAt := rfl
@[simp] theorem State.setTile_supStop (t : Nat) (c : TileCtx) : (s.setTile t c).supStop = s.supStop := rfl
@[simp] theorem State.setTile_sealStuck (t : Nat) (c : TileCtx) : (s.setTile t c).sealStuck = s.sealStuck := rfl
@[simp] theorem State.setTile_drbgBad (t : Nat) (c : TileCtx) : (s.setTile t c).drbgBad = s.drbgBad := rfl
@[simp] theorem State.setTile_eccFrame (t : Nat) (c : TileCtx) : (s.setTile t c).eccFrame = s.eccFrame := rfl
@[simp] theorem State.setTile_attests (t : Nat) (c : TileCtx) : (s.setTile t c).attests = s.attests := rfl
@[simp] theorem State.setTile_cert (t : Nat) (c : TileCtx) : (s.setTile t c).cert = s.cert := rfl
@[simp] theorem State.setTile_certDigest (t : Nat) (c : TileCtx) : (s.setTile t c).certDigest = s.certDigest := rfl
@[simp] theorem State.setTile_certBad (t : Nat) (c : TileCtx) : (s.setTile t c).certBad = s.certBad := rfl
@[simp] theorem State.setTile_mrnClear (t : Nat) (c : TileCtx) : (s.setTile t c).mrnClear = s.mrnClear := rfl
@[simp] theorem State.setTile_dumping (t : Nat) (c : TileCtx) : (s.setTile t c).dumping = s.dumping := rfl
@[simp] theorem State.setTile_dump (t : Nat) (c : TileCtx) : (s.setTile t c).dump = s.dump := rfl
@[simp] theorem State.setTile_dumpFlash (t : Nat) (c : TileCtx) : (s.setTile t c).dumpFlash = s.dumpFlash := rfl
@[simp] theorem State.setTile_tap (t : Nat) (c : TileCtx) : (s.setTile t c).tap = s.tap := rfl
@[simp] theorem State.setTile_groups (t : Nat) (c : TileCtx) : (s.setTile t c).groups = s.groups := rfl
@[simp] theorem State.setTile_items (t : Nat) (c : TileCtx) : (s.setTile t c).items = s.items := rfl
@[simp] theorem State.setTile_splits (t : Nat) (c : TileCtx) : (s.setTile t c).splits = s.splits := rfl
@[simp] theorem State.setTile_txq (t : Nat) (c : TileCtx) : (s.setTile t c).txq = s.txq := rfl
@[simp] theorem State.setTile_sent (t : Nat) (c : TileCtx) : (s.setTile t c).sent = s.sent := rfl
@[simp] theorem State.setTile_rep (t : Nat) (c : TileCtx) : (s.setTile t c).rep = s.rep := rfl
@[simp] theorem State.setTile_mrn (t : Nat) (c : TileCtx) : (s.setTile t c).mrn = s.mrn := rfl
@[simp] theorem State.setTile_staged (t : Nat) (c : TileCtx) : (s.setTile t c).staged = s.staged := rfl
@[simp] theorem State.setTile_mrnLost (t : Nat) (c : TileCtx) : (s.setTile t c).mrnLost = s.mrnLost := rfl
@[simp] theorem State.setTile_freeCtr (t : Nat) (c : TileCtx) : (s.setTile t c).freeCtr = s.freeCtr := rfl
@[simp] theorem State.setTile_answer (t : Nat) (c : TileCtx) : (s.setTile t c).answer = s.answer := rfl
@[simp] theorem State.setTile_pending (t : Nat) (c : TileCtx) : (s.setTile t c).pending = s.pending := rfl

@[simp] theorem State.modTile_regs (t : Nat) (f : TileCtx → TileCtx) : (s.modTile t f).regs = s.regs := rfl
@[simp] theorem State.modTile_mem (t : Nat) (f : TileCtx → TileCtx) : (s.modTile t f).mem = s.mem := rfl
@[simp] theorem State.modTile_sysTime (t : Nat) (f : TileCtx → TileCtx) : (s.modTile t f).sysTime = s.sysTime := rfl
@[simp] theorem State.modTile_chans (t : Nat) (f : TileCtx → TileCtx) : (s.modTile t f).chans = s.chans := rfl
@[simp] theorem State.modTile_ctxs (t : Nat) (f : TileCtx → TileCtx) : (s.modTile t f).ctxs = s.ctxs := rfl
@[simp] theorem State.modTile_evc (t : Nat) (f : TileCtx → TileCtx) : (s.modTile t f).evc = s.evc := rfl
@[simp] theorem State.modTile_evs (t : Nat) (f : TileCtx → TileCtx) : (s.modTile t f).evs = s.evs := rfl
@[simp] theorem State.modTile_held (t : Nat) (f : TileCtx → TileCtx) : (s.modTile t f).held = s.held := rfl
@[simp] theorem State.modTile_faultMarks (t : Nat) (f : TileCtx → TileCtx) : (s.modTile t f).faultMarks = s.faultMarks := rfl
@[simp] theorem State.modTile_calPend (t : Nat) (f : TileCtx → TileCtx) : (s.modTile t f).calPend = s.calPend := rfl
@[simp] theorem State.modTile_calNew (t : Nat) (f : TileCtx → TileCtx) : (s.modTile t f).calNew = s.calNew := rfl
@[simp] theorem State.modTile_calApplied (t : Nat) (f : TileCtx → TileCtx) : (s.modTile t f).calApplied = s.calApplied := rfl
@[simp] theorem State.modTile_syncPhases (t : Nat) (f : TileCtx → TileCtx) : (s.modTile t f).syncPhases = s.syncPhases := rfl
@[simp] theorem State.modTile_syncCount (t : Nat) (f : TileCtx → TileCtx) : (s.modTile t f).syncCount = s.syncCount := rfl
@[simp] theorem State.modTile_syncD (t : Nat) (f : TileCtx → TileCtx) : (s.modTile t f).syncD = s.syncD := rfl
@[simp] theorem State.modTile_ocxo (t : Nat) (f : TileCtx → TileCtx) : (s.modTile t f).ocxo = s.ocxo := rfl
@[simp] theorem State.modTile_warmSecs (t : Nat) (f : TileCtx → TileCtx) : (s.modTile t f).warmSecs = s.warmSecs := rfl
@[simp] theorem State.modTile_warmLog (t : Nat) (f : TileCtx → TileCtx) : (s.modTile t f).warmLog = s.warmLog := rfl
@[simp] theorem State.modTile_refvLog (t : Nat) (f : TileCtx → TileCtx) : (s.modTile t f).refvLog = s.refvLog := rfl
@[simp] theorem State.modTile_commitAt (t : Nat) (f : TileCtx → TileCtx) : (s.modTile t f).commitAt = s.commitAt := rfl
@[simp] theorem State.modTile_refFreqs (t : Nat) (f : TileCtx → TileCtx) : (s.modTile t f).refFreqs = s.refFreqs := rfl
@[simp] theorem State.modTile_bundles (t : Nat) (f : TileCtx → TileCtx) : (s.modTile t f).bundles = s.bundles := rfl
@[simp] theorem State.modTile_staging (t : Nat) (f : TileCtx → TileCtx) : (s.modTile t f).staging = s.staging := rfl
@[simp] theorem State.modTile_segSeal (t : Nat) (f : TileCtx → TileCtx) : (s.modTile t f).segSeal = s.segSeal := rfl
@[simp] theorem State.modTile_ackGen (t : Nat) (f : TileCtx → TileCtx) : (s.modTile t f).ackGen = s.ackGen := rfl
@[simp] theorem State.modTile_sealForever (t : Nat) (f : TileCtx → TileCtx) : (s.modTile t f).sealForever = s.sealForever := rfl
@[simp] theorem State.modTile_steps (t : Nat) (f : TileCtx → TileCtx) : (s.modTile t f).steps = s.steps := rfl
@[simp] theorem State.modTile_merges (t : Nat) (f : TileCtx → TileCtx) : (s.modTile t f).merges = s.merges := rfl
@[simp] theorem State.modTile_windows (t : Nat) (f : TileCtx → TileCtx) : (s.modTile t f).windows = s.windows := rfl
@[simp] theorem State.modTile_excursions (t : Nat) (f : TileCtx → TileCtx) : (s.modTile t f).excursions = s.excursions := rfl
@[simp] theorem State.modTile_trigOut (t : Nat) (f : TileCtx → TileCtx) : (s.modTile t f).trigOut = s.trigOut := rfl
@[simp] theorem State.modTile_lvlClr (t : Nat) (f : TileCtx → TileCtx) : (s.modTile t f).lvlClr = s.lvlClr := rfl
@[simp] theorem State.modTile_vioSel (t : Nat) (f : TileCtx → TileCtx) : (s.modTile t f).vioSel = s.vioSel := rfl
@[simp] theorem State.modTile_snts (t : Nat) (f : TileCtx → TileCtx) : (s.modTile t f).snts = s.snts := rfl
@[simp] theorem State.modTile_quads (t : Nat) (f : TileCtx → TileCtx) : (s.modTile t f).quads = s.quads := rfl
@[simp] theorem State.modTile_fenceReq (t : Nat) (f : TileCtx → TileCtx) : (s.modTile t f).fenceReq = s.fenceReq := rfl
@[simp] theorem State.modTile_unfenceReq (t : Nat) (f : TileCtx → TileCtx) : (s.modTile t f).unfenceReq = s.unfenceReq := rfl
@[simp] theorem State.modTile_logDue (t : Nat) (f : TileCtx → TileCtx) : (s.modTile t f).logDue = s.logDue := rfl
@[simp] theorem State.modTile_coreDue (t : Nat) (f : TileCtx → TileCtx) : (s.modTile t f).coreDue = s.coreDue := rfl
@[simp] theorem State.modTile_corePass (t : Nat) (f : TileCtx → TileCtx) : (s.modTile t f).corePass = s.corePass := rfl
@[simp] theorem State.modTile_therm (t : Nat) (f : TileCtx → TileCtx) : (s.modTile t f).therm = s.therm := rfl
@[simp] theorem State.modTile_syncArmed (t : Nat) (f : TileCtx → TileCtx) : (s.modTile t f).syncArmed = s.syncArmed := rfl
@[simp] theorem State.modTile_links (t : Nat) (f : TileCtx → TileCtx) : (s.modTile t f).links = s.links := rfl
@[simp] theorem State.modTile_ids (t : Nat) (f : TileCtx → TileCtx) : (s.modTile t f).ids = s.ids := rfl
@[simp] theorem State.modTile_veing (t : Nat) (f : TileCtx → TileCtx) : (s.modTile t f).veing = s.veing := rfl
@[simp] theorem State.modTile_pp (t : Nat) (f : TileCtx → TileCtx) : (s.modTile t f).pp = s.pp := rfl
@[simp] theorem State.modTile_measures (t : Nat) (f : TileCtx → TileCtx) : (s.modTile t f).measures = s.measures := rfl
@[simp] theorem State.modTile_measured (t : Nat) (f : TileCtx → TileCtx) : (s.modTile t f).measured = s.measured := rfl
@[simp] theorem State.modTile_writes (t : Nat) (f : TileCtx → TileCtx) : (s.modTile t f).writes = s.writes := rfl
@[simp] theorem State.modTile_strms (t : Nat) (f : TileCtx → TileCtx) : (s.modTile t f).strms = s.strms := rfl
@[simp] theorem State.modTile_strmWait (t : Nat) (f : TileCtx → TileCtx) : (s.modTile t f).strmWait = s.strmWait := rfl
@[simp] theorem State.modTile_rr (t : Nat) (f : TileCtx → TileCtx) : (s.modTile t f).rr = s.rr := rfl
@[simp] theorem State.modTile_maxLen (t : Nat) (f : TileCtx → TileCtx) : (s.modTile t f).maxLen = s.maxLen := rfl
@[simp] theorem State.modTile_maxClk (t : Nat) (f : TileCtx → TileCtx) : (s.modTile t f).maxClk = s.maxClk := rfl
@[simp] theorem State.modTile_overrides (t : Nat) (f : TileCtx → TileCtx) : (s.modTile t f).overrides = s.overrides := rfl
@[simp] theorem State.modTile_micro (t : Nat) (f : TileCtx → TileCtx) : (s.modTile t f).micro = s.micro := rfl
@[simp] theorem State.modTile_trigIn (t : Nat) (f : TileCtx → TileCtx) : (s.modTile t f).trigIn = s.trigIn := rfl
@[simp] theorem State.modTile_armedSites (t : Nat) (f : TileCtx → TileCtx) : (s.modTile t f).armedSites = s.armedSites := rfl
@[simp] theorem State.modTile_injFence (t : Nat) (f : TileCtx → TileCtx) : (s.modTile t f).injFence = s.injFence := rfl
@[simp] theorem State.modTile_injHeld (t : Nat) (f : TileCtx → TileCtx) : (s.modTile t f).injHeld = s.injHeld := rfl
@[simp] theorem State.modTile_soft (t : Nat) (f : TileCtx → TileCtx) : (s.modTile t f).soft = s.soft := rfl
@[simp] theorem State.modTile_repairs (t : Nat) (f : TileCtx → TileCtx) : (s.modTile t f).repairs = s.repairs := rfl
@[simp] theorem State.modTile_btAt (t : Nat) (f : TileCtx → TileCtx) : (s.modTile t f).btAt = s.btAt := rfl
@[simp] theorem State.modTile_btHead (t : Nat) (f : TileCtx → TileCtx) : (s.modTile t f).btHead = s.btHead := rfl
@[simp] theorem State.modTile_corrections (t : Nat) (f : TileCtx → TileCtx) : (s.modTile t f).corrections = s.corrections := rfl
@[simp] theorem State.modTile_eccWords (t : Nat) (f : TileCtx → TileCtx) : (s.modTile t f).eccWords = s.eccWords := rfl
@[simp] theorem State.modTile_eccReal (t : Nat) (f : TileCtx → TileCtx) : (s.modTile t f).eccReal = s.eccReal := rfl
@[simp] theorem State.modTile_spareAt (t : Nat) (f : TileCtx → TileCtx) : (s.modTile t f).spareAt = s.spareAt := rfl
@[simp] theorem State.modTile_supStop (t : Nat) (f : TileCtx → TileCtx) : (s.modTile t f).supStop = s.supStop := rfl
@[simp] theorem State.modTile_sealStuck (t : Nat) (f : TileCtx → TileCtx) : (s.modTile t f).sealStuck = s.sealStuck := rfl
@[simp] theorem State.modTile_drbgBad (t : Nat) (f : TileCtx → TileCtx) : (s.modTile t f).drbgBad = s.drbgBad := rfl
@[simp] theorem State.modTile_eccFrame (t : Nat) (f : TileCtx → TileCtx) : (s.modTile t f).eccFrame = s.eccFrame := rfl
@[simp] theorem State.modTile_attests (t : Nat) (f : TileCtx → TileCtx) : (s.modTile t f).attests = s.attests := rfl
@[simp] theorem State.modTile_cert (t : Nat) (f : TileCtx → TileCtx) : (s.modTile t f).cert = s.cert := rfl
@[simp] theorem State.modTile_certDigest (t : Nat) (f : TileCtx → TileCtx) : (s.modTile t f).certDigest = s.certDigest := rfl
@[simp] theorem State.modTile_certBad (t : Nat) (f : TileCtx → TileCtx) : (s.modTile t f).certBad = s.certBad := rfl
@[simp] theorem State.modTile_mrnClear (t : Nat) (f : TileCtx → TileCtx) : (s.modTile t f).mrnClear = s.mrnClear := rfl
@[simp] theorem State.modTile_dumping (t : Nat) (f : TileCtx → TileCtx) : (s.modTile t f).dumping = s.dumping := rfl
@[simp] theorem State.modTile_dump (t : Nat) (f : TileCtx → TileCtx) : (s.modTile t f).dump = s.dump := rfl
@[simp] theorem State.modTile_dumpFlash (t : Nat) (f : TileCtx → TileCtx) : (s.modTile t f).dumpFlash = s.dumpFlash := rfl
@[simp] theorem State.modTile_tap (t : Nat) (f : TileCtx → TileCtx) : (s.modTile t f).tap = s.tap := rfl
@[simp] theorem State.modTile_groups (t : Nat) (f : TileCtx → TileCtx) : (s.modTile t f).groups = s.groups := rfl
@[simp] theorem State.modTile_items (t : Nat) (f : TileCtx → TileCtx) : (s.modTile t f).items = s.items := rfl
@[simp] theorem State.modTile_splits (t : Nat) (f : TileCtx → TileCtx) : (s.modTile t f).splits = s.splits := rfl
@[simp] theorem State.modTile_txq (t : Nat) (f : TileCtx → TileCtx) : (s.modTile t f).txq = s.txq := rfl
@[simp] theorem State.modTile_sent (t : Nat) (f : TileCtx → TileCtx) : (s.modTile t f).sent = s.sent := rfl
@[simp] theorem State.modTile_rep (t : Nat) (f : TileCtx → TileCtx) : (s.modTile t f).rep = s.rep := rfl
@[simp] theorem State.modTile_mrn (t : Nat) (f : TileCtx → TileCtx) : (s.modTile t f).mrn = s.mrn := rfl
@[simp] theorem State.modTile_staged (t : Nat) (f : TileCtx → TileCtx) : (s.modTile t f).staged = s.staged := rfl
@[simp] theorem State.modTile_mrnLost (t : Nat) (f : TileCtx → TileCtx) : (s.modTile t f).mrnLost = s.mrnLost := rfl
@[simp] theorem State.modTile_freeCtr (t : Nat) (f : TileCtx → TileCtx) : (s.modTile t f).freeCtr = s.freeCtr := rfl
@[simp] theorem State.modTile_answer (t : Nat) (f : TileCtx → TileCtx) : (s.modTile t f).answer = s.answer := rfl
@[simp] theorem State.modTile_pending (t : Nat) (f : TileCtx → TileCtx) : (s.modTile t f).pending = s.pending := rfl

@[simp] theorem State.setChan_regs (n : Nat) (c : ChanCtx) : (s.setChan n c).regs = s.regs := rfl
@[simp] theorem State.setChan_mem (n : Nat) (c : ChanCtx) : (s.setChan n c).mem = s.mem := rfl
@[simp] theorem State.setChan_sysTime (n : Nat) (c : ChanCtx) : (s.setChan n c).sysTime = s.sysTime := rfl
@[simp] theorem State.setChan_tiles (n : Nat) (c : ChanCtx) : (s.setChan n c).tiles = s.tiles := rfl
@[simp] theorem State.setChan_ctxs (n : Nat) (c : ChanCtx) : (s.setChan n c).ctxs = s.ctxs := rfl
@[simp] theorem State.setChan_evc (n : Nat) (c : ChanCtx) : (s.setChan n c).evc = s.evc := rfl
@[simp] theorem State.setChan_evs (n : Nat) (c : ChanCtx) : (s.setChan n c).evs = s.evs := rfl
@[simp] theorem State.setChan_held (n : Nat) (c : ChanCtx) : (s.setChan n c).held = s.held := rfl
@[simp] theorem State.setChan_faultMarks (n : Nat) (c : ChanCtx) : (s.setChan n c).faultMarks = s.faultMarks := rfl
@[simp] theorem State.setChan_calPend (n : Nat) (c : ChanCtx) : (s.setChan n c).calPend = s.calPend := rfl
@[simp] theorem State.setChan_calNew (n : Nat) (c : ChanCtx) : (s.setChan n c).calNew = s.calNew := rfl
@[simp] theorem State.setChan_calApplied (n : Nat) (c : ChanCtx) : (s.setChan n c).calApplied = s.calApplied := rfl
@[simp] theorem State.setChan_syncPhases (n : Nat) (c : ChanCtx) : (s.setChan n c).syncPhases = s.syncPhases := rfl
@[simp] theorem State.setChan_syncCount (n : Nat) (c : ChanCtx) : (s.setChan n c).syncCount = s.syncCount := rfl
@[simp] theorem State.setChan_syncD (n : Nat) (c : ChanCtx) : (s.setChan n c).syncD = s.syncD := rfl
@[simp] theorem State.setChan_ocxo (n : Nat) (c : ChanCtx) : (s.setChan n c).ocxo = s.ocxo := rfl
@[simp] theorem State.setChan_warmSecs (n : Nat) (c : ChanCtx) : (s.setChan n c).warmSecs = s.warmSecs := rfl
@[simp] theorem State.setChan_warmLog (n : Nat) (c : ChanCtx) : (s.setChan n c).warmLog = s.warmLog := rfl
@[simp] theorem State.setChan_refvLog (n : Nat) (c : ChanCtx) : (s.setChan n c).refvLog = s.refvLog := rfl
@[simp] theorem State.setChan_commitAt (n : Nat) (c : ChanCtx) : (s.setChan n c).commitAt = s.commitAt := rfl
@[simp] theorem State.setChan_refFreqs (n : Nat) (c : ChanCtx) : (s.setChan n c).refFreqs = s.refFreqs := rfl
@[simp] theorem State.setChan_bundles (n : Nat) (c : ChanCtx) : (s.setChan n c).bundles = s.bundles := rfl
@[simp] theorem State.setChan_staging (n : Nat) (c : ChanCtx) : (s.setChan n c).staging = s.staging := rfl
@[simp] theorem State.setChan_segSeal (n : Nat) (c : ChanCtx) : (s.setChan n c).segSeal = s.segSeal := rfl
@[simp] theorem State.setChan_ackGen (n : Nat) (c : ChanCtx) : (s.setChan n c).ackGen = s.ackGen := rfl
@[simp] theorem State.setChan_sealForever (n : Nat) (c : ChanCtx) : (s.setChan n c).sealForever = s.sealForever := rfl
@[simp] theorem State.setChan_steps (n : Nat) (c : ChanCtx) : (s.setChan n c).steps = s.steps := rfl
@[simp] theorem State.setChan_merges (n : Nat) (c : ChanCtx) : (s.setChan n c).merges = s.merges := rfl
@[simp] theorem State.setChan_windows (n : Nat) (c : ChanCtx) : (s.setChan n c).windows = s.windows := rfl
@[simp] theorem State.setChan_excursions (n : Nat) (c : ChanCtx) : (s.setChan n c).excursions = s.excursions := rfl
@[simp] theorem State.setChan_trigOut (n : Nat) (c : ChanCtx) : (s.setChan n c).trigOut = s.trigOut := rfl
@[simp] theorem State.setChan_lvlClr (n : Nat) (c : ChanCtx) : (s.setChan n c).lvlClr = s.lvlClr := rfl
@[simp] theorem State.setChan_vioSel (n : Nat) (c : ChanCtx) : (s.setChan n c).vioSel = s.vioSel := rfl
@[simp] theorem State.setChan_snts (n : Nat) (c : ChanCtx) : (s.setChan n c).snts = s.snts := rfl
@[simp] theorem State.setChan_quads (n : Nat) (c : ChanCtx) : (s.setChan n c).quads = s.quads := rfl
@[simp] theorem State.setChan_fenceReq (n : Nat) (c : ChanCtx) : (s.setChan n c).fenceReq = s.fenceReq := rfl
@[simp] theorem State.setChan_unfenceReq (n : Nat) (c : ChanCtx) : (s.setChan n c).unfenceReq = s.unfenceReq := rfl
@[simp] theorem State.setChan_logDue (n : Nat) (c : ChanCtx) : (s.setChan n c).logDue = s.logDue := rfl
@[simp] theorem State.setChan_coreDue (n : Nat) (c : ChanCtx) : (s.setChan n c).coreDue = s.coreDue := rfl
@[simp] theorem State.setChan_corePass (n : Nat) (c : ChanCtx) : (s.setChan n c).corePass = s.corePass := rfl
@[simp] theorem State.setChan_therm (n : Nat) (c : ChanCtx) : (s.setChan n c).therm = s.therm := rfl
@[simp] theorem State.setChan_syncArmed (n : Nat) (c : ChanCtx) : (s.setChan n c).syncArmed = s.syncArmed := rfl
@[simp] theorem State.setChan_links (n : Nat) (c : ChanCtx) : (s.setChan n c).links = s.links := rfl
@[simp] theorem State.setChan_ids (n : Nat) (c : ChanCtx) : (s.setChan n c).ids = s.ids := rfl
@[simp] theorem State.setChan_veing (n : Nat) (c : ChanCtx) : (s.setChan n c).veing = s.veing := rfl
@[simp] theorem State.setChan_pp (n : Nat) (c : ChanCtx) : (s.setChan n c).pp = s.pp := rfl
@[simp] theorem State.setChan_measures (n : Nat) (c : ChanCtx) : (s.setChan n c).measures = s.measures := rfl
@[simp] theorem State.setChan_measured (n : Nat) (c : ChanCtx) : (s.setChan n c).measured = s.measured := rfl
@[simp] theorem State.setChan_writes (n : Nat) (c : ChanCtx) : (s.setChan n c).writes = s.writes := rfl
@[simp] theorem State.setChan_strms (n : Nat) (c : ChanCtx) : (s.setChan n c).strms = s.strms := rfl
@[simp] theorem State.setChan_strmWait (n : Nat) (c : ChanCtx) : (s.setChan n c).strmWait = s.strmWait := rfl
@[simp] theorem State.setChan_rr (n : Nat) (c : ChanCtx) : (s.setChan n c).rr = s.rr := rfl
@[simp] theorem State.setChan_maxLen (n : Nat) (c : ChanCtx) : (s.setChan n c).maxLen = s.maxLen := rfl
@[simp] theorem State.setChan_maxClk (n : Nat) (c : ChanCtx) : (s.setChan n c).maxClk = s.maxClk := rfl
@[simp] theorem State.setChan_overrides (n : Nat) (c : ChanCtx) : (s.setChan n c).overrides = s.overrides := rfl
@[simp] theorem State.setChan_micro (n : Nat) (c : ChanCtx) : (s.setChan n c).micro = s.micro := rfl
@[simp] theorem State.setChan_trigIn (n : Nat) (c : ChanCtx) : (s.setChan n c).trigIn = s.trigIn := rfl
@[simp] theorem State.setChan_armedSites (n : Nat) (c : ChanCtx) : (s.setChan n c).armedSites = s.armedSites := rfl
@[simp] theorem State.setChan_injFence (n : Nat) (c : ChanCtx) : (s.setChan n c).injFence = s.injFence := rfl
@[simp] theorem State.setChan_injHeld (n : Nat) (c : ChanCtx) : (s.setChan n c).injHeld = s.injHeld := rfl
@[simp] theorem State.setChan_soft (n : Nat) (c : ChanCtx) : (s.setChan n c).soft = s.soft := rfl
@[simp] theorem State.setChan_repairs (n : Nat) (c : ChanCtx) : (s.setChan n c).repairs = s.repairs := rfl
@[simp] theorem State.setChan_btAt (n : Nat) (c : ChanCtx) : (s.setChan n c).btAt = s.btAt := rfl
@[simp] theorem State.setChan_btHead (n : Nat) (c : ChanCtx) : (s.setChan n c).btHead = s.btHead := rfl
@[simp] theorem State.setChan_corrections (n : Nat) (c : ChanCtx) : (s.setChan n c).corrections = s.corrections := rfl
@[simp] theorem State.setChan_eccWords (n : Nat) (c : ChanCtx) : (s.setChan n c).eccWords = s.eccWords := rfl
@[simp] theorem State.setChan_eccReal (n : Nat) (c : ChanCtx) : (s.setChan n c).eccReal = s.eccReal := rfl
@[simp] theorem State.setChan_spareAt (n : Nat) (c : ChanCtx) : (s.setChan n c).spareAt = s.spareAt := rfl
@[simp] theorem State.setChan_supStop (n : Nat) (c : ChanCtx) : (s.setChan n c).supStop = s.supStop := rfl
@[simp] theorem State.setChan_sealStuck (n : Nat) (c : ChanCtx) : (s.setChan n c).sealStuck = s.sealStuck := rfl
@[simp] theorem State.setChan_drbgBad (n : Nat) (c : ChanCtx) : (s.setChan n c).drbgBad = s.drbgBad := rfl
@[simp] theorem State.setChan_eccFrame (n : Nat) (c : ChanCtx) : (s.setChan n c).eccFrame = s.eccFrame := rfl
@[simp] theorem State.setChan_attests (n : Nat) (c : ChanCtx) : (s.setChan n c).attests = s.attests := rfl
@[simp] theorem State.setChan_cert (n : Nat) (c : ChanCtx) : (s.setChan n c).cert = s.cert := rfl
@[simp] theorem State.setChan_certDigest (n : Nat) (c : ChanCtx) : (s.setChan n c).certDigest = s.certDigest := rfl
@[simp] theorem State.setChan_certBad (n : Nat) (c : ChanCtx) : (s.setChan n c).certBad = s.certBad := rfl
@[simp] theorem State.setChan_mrnClear (n : Nat) (c : ChanCtx) : (s.setChan n c).mrnClear = s.mrnClear := rfl
@[simp] theorem State.setChan_dumping (n : Nat) (c : ChanCtx) : (s.setChan n c).dumping = s.dumping := rfl
@[simp] theorem State.setChan_dump (n : Nat) (c : ChanCtx) : (s.setChan n c).dump = s.dump := rfl
@[simp] theorem State.setChan_dumpFlash (n : Nat) (c : ChanCtx) : (s.setChan n c).dumpFlash = s.dumpFlash := rfl
@[simp] theorem State.setChan_tap (n : Nat) (c : ChanCtx) : (s.setChan n c).tap = s.tap := rfl
@[simp] theorem State.setChan_groups (n : Nat) (c : ChanCtx) : (s.setChan n c).groups = s.groups := rfl
@[simp] theorem State.setChan_items (n : Nat) (c : ChanCtx) : (s.setChan n c).items = s.items := rfl
@[simp] theorem State.setChan_splits (n : Nat) (c : ChanCtx) : (s.setChan n c).splits = s.splits := rfl
@[simp] theorem State.setChan_txq (n : Nat) (c : ChanCtx) : (s.setChan n c).txq = s.txq := rfl
@[simp] theorem State.setChan_sent (n : Nat) (c : ChanCtx) : (s.setChan n c).sent = s.sent := rfl
@[simp] theorem State.setChan_rep (n : Nat) (c : ChanCtx) : (s.setChan n c).rep = s.rep := rfl
@[simp] theorem State.setChan_mrn (n : Nat) (c : ChanCtx) : (s.setChan n c).mrn = s.mrn := rfl
@[simp] theorem State.setChan_staged (n : Nat) (c : ChanCtx) : (s.setChan n c).staged = s.staged := rfl
@[simp] theorem State.setChan_mrnLost (n : Nat) (c : ChanCtx) : (s.setChan n c).mrnLost = s.mrnLost := rfl
@[simp] theorem State.setChan_freeCtr (n : Nat) (c : ChanCtx) : (s.setChan n c).freeCtr = s.freeCtr := rfl
@[simp] theorem State.setChan_answer (n : Nat) (c : ChanCtx) : (s.setChan n c).answer = s.answer := rfl
@[simp] theorem State.setChan_pending (n : Nat) (c : ChanCtx) : (s.setChan n c).pending = s.pending := rfl

@[simp] theorem State.modChan_regs (n : Nat) (f : ChanCtx → ChanCtx) : (s.modChan n f).regs = s.regs := rfl
@[simp] theorem State.modChan_mem (n : Nat) (f : ChanCtx → ChanCtx) : (s.modChan n f).mem = s.mem := rfl
@[simp] theorem State.modChan_sysTime (n : Nat) (f : ChanCtx → ChanCtx) : (s.modChan n f).sysTime = s.sysTime := rfl
@[simp] theorem State.modChan_tiles (n : Nat) (f : ChanCtx → ChanCtx) : (s.modChan n f).tiles = s.tiles := rfl
@[simp] theorem State.modChan_ctxs (n : Nat) (f : ChanCtx → ChanCtx) : (s.modChan n f).ctxs = s.ctxs := rfl
@[simp] theorem State.modChan_evc (n : Nat) (f : ChanCtx → ChanCtx) : (s.modChan n f).evc = s.evc := rfl
@[simp] theorem State.modChan_evs (n : Nat) (f : ChanCtx → ChanCtx) : (s.modChan n f).evs = s.evs := rfl
@[simp] theorem State.modChan_held (n : Nat) (f : ChanCtx → ChanCtx) : (s.modChan n f).held = s.held := rfl
@[simp] theorem State.modChan_faultMarks (n : Nat) (f : ChanCtx → ChanCtx) : (s.modChan n f).faultMarks = s.faultMarks := rfl
@[simp] theorem State.modChan_calPend (n : Nat) (f : ChanCtx → ChanCtx) : (s.modChan n f).calPend = s.calPend := rfl
@[simp] theorem State.modChan_calNew (n : Nat) (f : ChanCtx → ChanCtx) : (s.modChan n f).calNew = s.calNew := rfl
@[simp] theorem State.modChan_calApplied (n : Nat) (f : ChanCtx → ChanCtx) : (s.modChan n f).calApplied = s.calApplied := rfl
@[simp] theorem State.modChan_syncPhases (n : Nat) (f : ChanCtx → ChanCtx) : (s.modChan n f).syncPhases = s.syncPhases := rfl
@[simp] theorem State.modChan_syncCount (n : Nat) (f : ChanCtx → ChanCtx) : (s.modChan n f).syncCount = s.syncCount := rfl
@[simp] theorem State.modChan_syncD (n : Nat) (f : ChanCtx → ChanCtx) : (s.modChan n f).syncD = s.syncD := rfl
@[simp] theorem State.modChan_ocxo (n : Nat) (f : ChanCtx → ChanCtx) : (s.modChan n f).ocxo = s.ocxo := rfl
@[simp] theorem State.modChan_warmSecs (n : Nat) (f : ChanCtx → ChanCtx) : (s.modChan n f).warmSecs = s.warmSecs := rfl
@[simp] theorem State.modChan_warmLog (n : Nat) (f : ChanCtx → ChanCtx) : (s.modChan n f).warmLog = s.warmLog := rfl
@[simp] theorem State.modChan_refvLog (n : Nat) (f : ChanCtx → ChanCtx) : (s.modChan n f).refvLog = s.refvLog := rfl
@[simp] theorem State.modChan_commitAt (n : Nat) (f : ChanCtx → ChanCtx) : (s.modChan n f).commitAt = s.commitAt := rfl
@[simp] theorem State.modChan_refFreqs (n : Nat) (f : ChanCtx → ChanCtx) : (s.modChan n f).refFreqs = s.refFreqs := rfl
@[simp] theorem State.modChan_bundles (n : Nat) (f : ChanCtx → ChanCtx) : (s.modChan n f).bundles = s.bundles := rfl
@[simp] theorem State.modChan_staging (n : Nat) (f : ChanCtx → ChanCtx) : (s.modChan n f).staging = s.staging := rfl
@[simp] theorem State.modChan_segSeal (n : Nat) (f : ChanCtx → ChanCtx) : (s.modChan n f).segSeal = s.segSeal := rfl
@[simp] theorem State.modChan_ackGen (n : Nat) (f : ChanCtx → ChanCtx) : (s.modChan n f).ackGen = s.ackGen := rfl
@[simp] theorem State.modChan_sealForever (n : Nat) (f : ChanCtx → ChanCtx) : (s.modChan n f).sealForever = s.sealForever := rfl
@[simp] theorem State.modChan_steps (n : Nat) (f : ChanCtx → ChanCtx) : (s.modChan n f).steps = s.steps := rfl
@[simp] theorem State.modChan_merges (n : Nat) (f : ChanCtx → ChanCtx) : (s.modChan n f).merges = s.merges := rfl
@[simp] theorem State.modChan_windows (n : Nat) (f : ChanCtx → ChanCtx) : (s.modChan n f).windows = s.windows := rfl
@[simp] theorem State.modChan_excursions (n : Nat) (f : ChanCtx → ChanCtx) : (s.modChan n f).excursions = s.excursions := rfl
@[simp] theorem State.modChan_trigOut (n : Nat) (f : ChanCtx → ChanCtx) : (s.modChan n f).trigOut = s.trigOut := rfl
@[simp] theorem State.modChan_lvlClr (n : Nat) (f : ChanCtx → ChanCtx) : (s.modChan n f).lvlClr = s.lvlClr := rfl
@[simp] theorem State.modChan_vioSel (n : Nat) (f : ChanCtx → ChanCtx) : (s.modChan n f).vioSel = s.vioSel := rfl
@[simp] theorem State.modChan_snts (n : Nat) (f : ChanCtx → ChanCtx) : (s.modChan n f).snts = s.snts := rfl
@[simp] theorem State.modChan_quads (n : Nat) (f : ChanCtx → ChanCtx) : (s.modChan n f).quads = s.quads := rfl
@[simp] theorem State.modChan_fenceReq (n : Nat) (f : ChanCtx → ChanCtx) : (s.modChan n f).fenceReq = s.fenceReq := rfl
@[simp] theorem State.modChan_unfenceReq (n : Nat) (f : ChanCtx → ChanCtx) : (s.modChan n f).unfenceReq = s.unfenceReq := rfl
@[simp] theorem State.modChan_logDue (n : Nat) (f : ChanCtx → ChanCtx) : (s.modChan n f).logDue = s.logDue := rfl
@[simp] theorem State.modChan_coreDue (n : Nat) (f : ChanCtx → ChanCtx) : (s.modChan n f).coreDue = s.coreDue := rfl
@[simp] theorem State.modChan_corePass (n : Nat) (f : ChanCtx → ChanCtx) : (s.modChan n f).corePass = s.corePass := rfl
@[simp] theorem State.modChan_therm (n : Nat) (f : ChanCtx → ChanCtx) : (s.modChan n f).therm = s.therm := rfl
@[simp] theorem State.modChan_syncArmed (n : Nat) (f : ChanCtx → ChanCtx) : (s.modChan n f).syncArmed = s.syncArmed := rfl
@[simp] theorem State.modChan_links (n : Nat) (f : ChanCtx → ChanCtx) : (s.modChan n f).links = s.links := rfl
@[simp] theorem State.modChan_ids (n : Nat) (f : ChanCtx → ChanCtx) : (s.modChan n f).ids = s.ids := rfl
@[simp] theorem State.modChan_veing (n : Nat) (f : ChanCtx → ChanCtx) : (s.modChan n f).veing = s.veing := rfl
@[simp] theorem State.modChan_pp (n : Nat) (f : ChanCtx → ChanCtx) : (s.modChan n f).pp = s.pp := rfl
@[simp] theorem State.modChan_measures (n : Nat) (f : ChanCtx → ChanCtx) : (s.modChan n f).measures = s.measures := rfl
@[simp] theorem State.modChan_measured (n : Nat) (f : ChanCtx → ChanCtx) : (s.modChan n f).measured = s.measured := rfl
@[simp] theorem State.modChan_writes (n : Nat) (f : ChanCtx → ChanCtx) : (s.modChan n f).writes = s.writes := rfl
@[simp] theorem State.modChan_strms (n : Nat) (f : ChanCtx → ChanCtx) : (s.modChan n f).strms = s.strms := rfl
@[simp] theorem State.modChan_strmWait (n : Nat) (f : ChanCtx → ChanCtx) : (s.modChan n f).strmWait = s.strmWait := rfl
@[simp] theorem State.modChan_rr (n : Nat) (f : ChanCtx → ChanCtx) : (s.modChan n f).rr = s.rr := rfl
@[simp] theorem State.modChan_maxLen (n : Nat) (f : ChanCtx → ChanCtx) : (s.modChan n f).maxLen = s.maxLen := rfl
@[simp] theorem State.modChan_maxClk (n : Nat) (f : ChanCtx → ChanCtx) : (s.modChan n f).maxClk = s.maxClk := rfl
@[simp] theorem State.modChan_overrides (n : Nat) (f : ChanCtx → ChanCtx) : (s.modChan n f).overrides = s.overrides := rfl
@[simp] theorem State.modChan_micro (n : Nat) (f : ChanCtx → ChanCtx) : (s.modChan n f).micro = s.micro := rfl
@[simp] theorem State.modChan_trigIn (n : Nat) (f : ChanCtx → ChanCtx) : (s.modChan n f).trigIn = s.trigIn := rfl
@[simp] theorem State.modChan_armedSites (n : Nat) (f : ChanCtx → ChanCtx) : (s.modChan n f).armedSites = s.armedSites := rfl
@[simp] theorem State.modChan_injFence (n : Nat) (f : ChanCtx → ChanCtx) : (s.modChan n f).injFence = s.injFence := rfl
@[simp] theorem State.modChan_injHeld (n : Nat) (f : ChanCtx → ChanCtx) : (s.modChan n f).injHeld = s.injHeld := rfl
@[simp] theorem State.modChan_soft (n : Nat) (f : ChanCtx → ChanCtx) : (s.modChan n f).soft = s.soft := rfl
@[simp] theorem State.modChan_repairs (n : Nat) (f : ChanCtx → ChanCtx) : (s.modChan n f).repairs = s.repairs := rfl
@[simp] theorem State.modChan_btAt (n : Nat) (f : ChanCtx → ChanCtx) : (s.modChan n f).btAt = s.btAt := rfl
@[simp] theorem State.modChan_btHead (n : Nat) (f : ChanCtx → ChanCtx) : (s.modChan n f).btHead = s.btHead := rfl
@[simp] theorem State.modChan_corrections (n : Nat) (f : ChanCtx → ChanCtx) : (s.modChan n f).corrections = s.corrections := rfl
@[simp] theorem State.modChan_eccWords (n : Nat) (f : ChanCtx → ChanCtx) : (s.modChan n f).eccWords = s.eccWords := rfl
@[simp] theorem State.modChan_eccReal (n : Nat) (f : ChanCtx → ChanCtx) : (s.modChan n f).eccReal = s.eccReal := rfl
@[simp] theorem State.modChan_spareAt (n : Nat) (f : ChanCtx → ChanCtx) : (s.modChan n f).spareAt = s.spareAt := rfl
@[simp] theorem State.modChan_supStop (n : Nat) (f : ChanCtx → ChanCtx) : (s.modChan n f).supStop = s.supStop := rfl
@[simp] theorem State.modChan_sealStuck (n : Nat) (f : ChanCtx → ChanCtx) : (s.modChan n f).sealStuck = s.sealStuck := rfl
@[simp] theorem State.modChan_drbgBad (n : Nat) (f : ChanCtx → ChanCtx) : (s.modChan n f).drbgBad = s.drbgBad := rfl
@[simp] theorem State.modChan_eccFrame (n : Nat) (f : ChanCtx → ChanCtx) : (s.modChan n f).eccFrame = s.eccFrame := rfl
@[simp] theorem State.modChan_attests (n : Nat) (f : ChanCtx → ChanCtx) : (s.modChan n f).attests = s.attests := rfl
@[simp] theorem State.modChan_cert (n : Nat) (f : ChanCtx → ChanCtx) : (s.modChan n f).cert = s.cert := rfl
@[simp] theorem State.modChan_certDigest (n : Nat) (f : ChanCtx → ChanCtx) : (s.modChan n f).certDigest = s.certDigest := rfl
@[simp] theorem State.modChan_certBad (n : Nat) (f : ChanCtx → ChanCtx) : (s.modChan n f).certBad = s.certBad := rfl
@[simp] theorem State.modChan_mrnClear (n : Nat) (f : ChanCtx → ChanCtx) : (s.modChan n f).mrnClear = s.mrnClear := rfl
@[simp] theorem State.modChan_dumping (n : Nat) (f : ChanCtx → ChanCtx) : (s.modChan n f).dumping = s.dumping := rfl
@[simp] theorem State.modChan_dump (n : Nat) (f : ChanCtx → ChanCtx) : (s.modChan n f).dump = s.dump := rfl
@[simp] theorem State.modChan_dumpFlash (n : Nat) (f : ChanCtx → ChanCtx) : (s.modChan n f).dumpFlash = s.dumpFlash := rfl
@[simp] theorem State.modChan_tap (n : Nat) (f : ChanCtx → ChanCtx) : (s.modChan n f).tap = s.tap := rfl
@[simp] theorem State.modChan_groups (n : Nat) (f : ChanCtx → ChanCtx) : (s.modChan n f).groups = s.groups := rfl
@[simp] theorem State.modChan_items (n : Nat) (f : ChanCtx → ChanCtx) : (s.modChan n f).items = s.items := rfl
@[simp] theorem State.modChan_splits (n : Nat) (f : ChanCtx → ChanCtx) : (s.modChan n f).splits = s.splits := rfl
@[simp] theorem State.modChan_txq (n : Nat) (f : ChanCtx → ChanCtx) : (s.modChan n f).txq = s.txq := rfl
@[simp] theorem State.modChan_sent (n : Nat) (f : ChanCtx → ChanCtx) : (s.modChan n f).sent = s.sent := rfl
@[simp] theorem State.modChan_rep (n : Nat) (f : ChanCtx → ChanCtx) : (s.modChan n f).rep = s.rep := rfl
@[simp] theorem State.modChan_mrn (n : Nat) (f : ChanCtx → ChanCtx) : (s.modChan n f).mrn = s.mrn := rfl
@[simp] theorem State.modChan_staged (n : Nat) (f : ChanCtx → ChanCtx) : (s.modChan n f).staged = s.staged := rfl
@[simp] theorem State.modChan_mrnLost (n : Nat) (f : ChanCtx → ChanCtx) : (s.modChan n f).mrnLost = s.mrnLost := rfl
@[simp] theorem State.modChan_freeCtr (n : Nat) (f : ChanCtx → ChanCtx) : (s.modChan n f).freeCtr = s.freeCtr := rfl
@[simp] theorem State.modChan_answer (n : Nat) (f : ChanCtx → ChanCtx) : (s.modChan n f).answer = s.answer := rfl
@[simp] theorem State.modChan_pending (n : Nat) (f : ChanCtx → ChanCtx) : (s.modChan n f).pending = s.pending := rfl

@[simp] theorem State.setCtx_regs (n : Nat) (c : Ctx) : (s.setCtx n c).regs = s.regs := rfl
@[simp] theorem State.setCtx_mem (n : Nat) (c : Ctx) : (s.setCtx n c).mem = s.mem := rfl
@[simp] theorem State.setCtx_sysTime (n : Nat) (c : Ctx) : (s.setCtx n c).sysTime = s.sysTime := rfl
@[simp] theorem State.setCtx_tiles (n : Nat) (c : Ctx) : (s.setCtx n c).tiles = s.tiles := rfl
@[simp] theorem State.setCtx_chans (n : Nat) (c : Ctx) : (s.setCtx n c).chans = s.chans := rfl
@[simp] theorem State.setCtx_evc (n : Nat) (c : Ctx) : (s.setCtx n c).evc = s.evc := rfl
@[simp] theorem State.setCtx_evs (n : Nat) (c : Ctx) : (s.setCtx n c).evs = s.evs := rfl
@[simp] theorem State.setCtx_held (n : Nat) (c : Ctx) : (s.setCtx n c).held = s.held := rfl
@[simp] theorem State.setCtx_faultMarks (n : Nat) (c : Ctx) : (s.setCtx n c).faultMarks = s.faultMarks := rfl
@[simp] theorem State.setCtx_calPend (n : Nat) (c : Ctx) : (s.setCtx n c).calPend = s.calPend := rfl
@[simp] theorem State.setCtx_calNew (n : Nat) (c : Ctx) : (s.setCtx n c).calNew = s.calNew := rfl
@[simp] theorem State.setCtx_calApplied (n : Nat) (c : Ctx) : (s.setCtx n c).calApplied = s.calApplied := rfl
@[simp] theorem State.setCtx_syncPhases (n : Nat) (c : Ctx) : (s.setCtx n c).syncPhases = s.syncPhases := rfl
@[simp] theorem State.setCtx_syncCount (n : Nat) (c : Ctx) : (s.setCtx n c).syncCount = s.syncCount := rfl
@[simp] theorem State.setCtx_syncD (n : Nat) (c : Ctx) : (s.setCtx n c).syncD = s.syncD := rfl
@[simp] theorem State.setCtx_ocxo (n : Nat) (c : Ctx) : (s.setCtx n c).ocxo = s.ocxo := rfl
@[simp] theorem State.setCtx_warmSecs (n : Nat) (c : Ctx) : (s.setCtx n c).warmSecs = s.warmSecs := rfl
@[simp] theorem State.setCtx_warmLog (n : Nat) (c : Ctx) : (s.setCtx n c).warmLog = s.warmLog := rfl
@[simp] theorem State.setCtx_refvLog (n : Nat) (c : Ctx) : (s.setCtx n c).refvLog = s.refvLog := rfl
@[simp] theorem State.setCtx_commitAt (n : Nat) (c : Ctx) : (s.setCtx n c).commitAt = s.commitAt := rfl
@[simp] theorem State.setCtx_refFreqs (n : Nat) (c : Ctx) : (s.setCtx n c).refFreqs = s.refFreqs := rfl
@[simp] theorem State.setCtx_bundles (n : Nat) (c : Ctx) : (s.setCtx n c).bundles = s.bundles := rfl
@[simp] theorem State.setCtx_staging (n : Nat) (c : Ctx) : (s.setCtx n c).staging = s.staging := rfl
@[simp] theorem State.setCtx_segSeal (n : Nat) (c : Ctx) : (s.setCtx n c).segSeal = s.segSeal := rfl
@[simp] theorem State.setCtx_ackGen (n : Nat) (c : Ctx) : (s.setCtx n c).ackGen = s.ackGen := rfl
@[simp] theorem State.setCtx_sealForever (n : Nat) (c : Ctx) : (s.setCtx n c).sealForever = s.sealForever := rfl
@[simp] theorem State.setCtx_steps (n : Nat) (c : Ctx) : (s.setCtx n c).steps = s.steps := rfl
@[simp] theorem State.setCtx_merges (n : Nat) (c : Ctx) : (s.setCtx n c).merges = s.merges := rfl
@[simp] theorem State.setCtx_windows (n : Nat) (c : Ctx) : (s.setCtx n c).windows = s.windows := rfl
@[simp] theorem State.setCtx_excursions (n : Nat) (c : Ctx) : (s.setCtx n c).excursions = s.excursions := rfl
@[simp] theorem State.setCtx_trigOut (n : Nat) (c : Ctx) : (s.setCtx n c).trigOut = s.trigOut := rfl
@[simp] theorem State.setCtx_lvlClr (n : Nat) (c : Ctx) : (s.setCtx n c).lvlClr = s.lvlClr := rfl
@[simp] theorem State.setCtx_vioSel (n : Nat) (c : Ctx) : (s.setCtx n c).vioSel = s.vioSel := rfl
@[simp] theorem State.setCtx_snts (n : Nat) (c : Ctx) : (s.setCtx n c).snts = s.snts := rfl
@[simp] theorem State.setCtx_quads (n : Nat) (c : Ctx) : (s.setCtx n c).quads = s.quads := rfl
@[simp] theorem State.setCtx_fenceReq (n : Nat) (c : Ctx) : (s.setCtx n c).fenceReq = s.fenceReq := rfl
@[simp] theorem State.setCtx_unfenceReq (n : Nat) (c : Ctx) : (s.setCtx n c).unfenceReq = s.unfenceReq := rfl
@[simp] theorem State.setCtx_logDue (n : Nat) (c : Ctx) : (s.setCtx n c).logDue = s.logDue := rfl
@[simp] theorem State.setCtx_coreDue (n : Nat) (c : Ctx) : (s.setCtx n c).coreDue = s.coreDue := rfl
@[simp] theorem State.setCtx_corePass (n : Nat) (c : Ctx) : (s.setCtx n c).corePass = s.corePass := rfl
@[simp] theorem State.setCtx_therm (n : Nat) (c : Ctx) : (s.setCtx n c).therm = s.therm := rfl
@[simp] theorem State.setCtx_syncArmed (n : Nat) (c : Ctx) : (s.setCtx n c).syncArmed = s.syncArmed := rfl
@[simp] theorem State.setCtx_links (n : Nat) (c : Ctx) : (s.setCtx n c).links = s.links := rfl
@[simp] theorem State.setCtx_ids (n : Nat) (c : Ctx) : (s.setCtx n c).ids = s.ids := rfl
@[simp] theorem State.setCtx_veing (n : Nat) (c : Ctx) : (s.setCtx n c).veing = s.veing := rfl
@[simp] theorem State.setCtx_pp (n : Nat) (c : Ctx) : (s.setCtx n c).pp = s.pp := rfl
@[simp] theorem State.setCtx_measures (n : Nat) (c : Ctx) : (s.setCtx n c).measures = s.measures := rfl
@[simp] theorem State.setCtx_measured (n : Nat) (c : Ctx) : (s.setCtx n c).measured = s.measured := rfl
@[simp] theorem State.setCtx_writes (n : Nat) (c : Ctx) : (s.setCtx n c).writes = s.writes := rfl
@[simp] theorem State.setCtx_strms (n : Nat) (c : Ctx) : (s.setCtx n c).strms = s.strms := rfl
@[simp] theorem State.setCtx_strmWait (n : Nat) (c : Ctx) : (s.setCtx n c).strmWait = s.strmWait := rfl
@[simp] theorem State.setCtx_rr (n : Nat) (c : Ctx) : (s.setCtx n c).rr = s.rr := rfl
@[simp] theorem State.setCtx_maxLen (n : Nat) (c : Ctx) : (s.setCtx n c).maxLen = s.maxLen := rfl
@[simp] theorem State.setCtx_maxClk (n : Nat) (c : Ctx) : (s.setCtx n c).maxClk = s.maxClk := rfl
@[simp] theorem State.setCtx_overrides (n : Nat) (c : Ctx) : (s.setCtx n c).overrides = s.overrides := rfl
@[simp] theorem State.setCtx_micro (n : Nat) (c : Ctx) : (s.setCtx n c).micro = s.micro := rfl
@[simp] theorem State.setCtx_trigIn (n : Nat) (c : Ctx) : (s.setCtx n c).trigIn = s.trigIn := rfl
@[simp] theorem State.setCtx_armedSites (n : Nat) (c : Ctx) : (s.setCtx n c).armedSites = s.armedSites := rfl
@[simp] theorem State.setCtx_injFence (n : Nat) (c : Ctx) : (s.setCtx n c).injFence = s.injFence := rfl
@[simp] theorem State.setCtx_injHeld (n : Nat) (c : Ctx) : (s.setCtx n c).injHeld = s.injHeld := rfl
@[simp] theorem State.setCtx_soft (n : Nat) (c : Ctx) : (s.setCtx n c).soft = s.soft := rfl
@[simp] theorem State.setCtx_repairs (n : Nat) (c : Ctx) : (s.setCtx n c).repairs = s.repairs := rfl
@[simp] theorem State.setCtx_btAt (n : Nat) (c : Ctx) : (s.setCtx n c).btAt = s.btAt := rfl
@[simp] theorem State.setCtx_btHead (n : Nat) (c : Ctx) : (s.setCtx n c).btHead = s.btHead := rfl
@[simp] theorem State.setCtx_corrections (n : Nat) (c : Ctx) : (s.setCtx n c).corrections = s.corrections := rfl
@[simp] theorem State.setCtx_eccWords (n : Nat) (c : Ctx) : (s.setCtx n c).eccWords = s.eccWords := rfl
@[simp] theorem State.setCtx_eccReal (n : Nat) (c : Ctx) : (s.setCtx n c).eccReal = s.eccReal := rfl
@[simp] theorem State.setCtx_spareAt (n : Nat) (c : Ctx) : (s.setCtx n c).spareAt = s.spareAt := rfl
@[simp] theorem State.setCtx_supStop (n : Nat) (c : Ctx) : (s.setCtx n c).supStop = s.supStop := rfl
@[simp] theorem State.setCtx_sealStuck (n : Nat) (c : Ctx) : (s.setCtx n c).sealStuck = s.sealStuck := rfl
@[simp] theorem State.setCtx_drbgBad (n : Nat) (c : Ctx) : (s.setCtx n c).drbgBad = s.drbgBad := rfl
@[simp] theorem State.setCtx_eccFrame (n : Nat) (c : Ctx) : (s.setCtx n c).eccFrame = s.eccFrame := rfl
@[simp] theorem State.setCtx_attests (n : Nat) (c : Ctx) : (s.setCtx n c).attests = s.attests := rfl
@[simp] theorem State.setCtx_cert (n : Nat) (c : Ctx) : (s.setCtx n c).cert = s.cert := rfl
@[simp] theorem State.setCtx_certDigest (n : Nat) (c : Ctx) : (s.setCtx n c).certDigest = s.certDigest := rfl
@[simp] theorem State.setCtx_certBad (n : Nat) (c : Ctx) : (s.setCtx n c).certBad = s.certBad := rfl
@[simp] theorem State.setCtx_mrnClear (n : Nat) (c : Ctx) : (s.setCtx n c).mrnClear = s.mrnClear := rfl
@[simp] theorem State.setCtx_dumping (n : Nat) (c : Ctx) : (s.setCtx n c).dumping = s.dumping := rfl
@[simp] theorem State.setCtx_dump (n : Nat) (c : Ctx) : (s.setCtx n c).dump = s.dump := rfl
@[simp] theorem State.setCtx_dumpFlash (n : Nat) (c : Ctx) : (s.setCtx n c).dumpFlash = s.dumpFlash := rfl
@[simp] theorem State.setCtx_tap (n : Nat) (c : Ctx) : (s.setCtx n c).tap = s.tap := rfl
@[simp] theorem State.setCtx_groups (n : Nat) (c : Ctx) : (s.setCtx n c).groups = s.groups := rfl
@[simp] theorem State.setCtx_items (n : Nat) (c : Ctx) : (s.setCtx n c).items = s.items := rfl
@[simp] theorem State.setCtx_splits (n : Nat) (c : Ctx) : (s.setCtx n c).splits = s.splits := rfl
@[simp] theorem State.setCtx_txq (n : Nat) (c : Ctx) : (s.setCtx n c).txq = s.txq := rfl
@[simp] theorem State.setCtx_sent (n : Nat) (c : Ctx) : (s.setCtx n c).sent = s.sent := rfl
@[simp] theorem State.setCtx_rep (n : Nat) (c : Ctx) : (s.setCtx n c).rep = s.rep := rfl
@[simp] theorem State.setCtx_mrn (n : Nat) (c : Ctx) : (s.setCtx n c).mrn = s.mrn := rfl
@[simp] theorem State.setCtx_staged (n : Nat) (c : Ctx) : (s.setCtx n c).staged = s.staged := rfl
@[simp] theorem State.setCtx_mrnLost (n : Nat) (c : Ctx) : (s.setCtx n c).mrnLost = s.mrnLost := rfl
@[simp] theorem State.setCtx_freeCtr (n : Nat) (c : Ctx) : (s.setCtx n c).freeCtr = s.freeCtr := rfl
@[simp] theorem State.setCtx_answer (n : Nat) (c : Ctx) : (s.setCtx n c).answer = s.answer := rfl
@[simp] theorem State.setCtx_pending (n : Nat) (c : Ctx) : (s.setCtx n c).pending = s.pending := rfl

@[simp] theorem State.modCtx_regs (n : Nat) (f : Ctx → Ctx) : (s.modCtx n f).regs = s.regs := rfl
@[simp] theorem State.modCtx_mem (n : Nat) (f : Ctx → Ctx) : (s.modCtx n f).mem = s.mem := rfl
@[simp] theorem State.modCtx_sysTime (n : Nat) (f : Ctx → Ctx) : (s.modCtx n f).sysTime = s.sysTime := rfl
@[simp] theorem State.modCtx_tiles (n : Nat) (f : Ctx → Ctx) : (s.modCtx n f).tiles = s.tiles := rfl
@[simp] theorem State.modCtx_chans (n : Nat) (f : Ctx → Ctx) : (s.modCtx n f).chans = s.chans := rfl
@[simp] theorem State.modCtx_evc (n : Nat) (f : Ctx → Ctx) : (s.modCtx n f).evc = s.evc := rfl
@[simp] theorem State.modCtx_evs (n : Nat) (f : Ctx → Ctx) : (s.modCtx n f).evs = s.evs := rfl
@[simp] theorem State.modCtx_held (n : Nat) (f : Ctx → Ctx) : (s.modCtx n f).held = s.held := rfl
@[simp] theorem State.modCtx_faultMarks (n : Nat) (f : Ctx → Ctx) : (s.modCtx n f).faultMarks = s.faultMarks := rfl
@[simp] theorem State.modCtx_calPend (n : Nat) (f : Ctx → Ctx) : (s.modCtx n f).calPend = s.calPend := rfl
@[simp] theorem State.modCtx_calNew (n : Nat) (f : Ctx → Ctx) : (s.modCtx n f).calNew = s.calNew := rfl
@[simp] theorem State.modCtx_calApplied (n : Nat) (f : Ctx → Ctx) : (s.modCtx n f).calApplied = s.calApplied := rfl
@[simp] theorem State.modCtx_syncPhases (n : Nat) (f : Ctx → Ctx) : (s.modCtx n f).syncPhases = s.syncPhases := rfl
@[simp] theorem State.modCtx_syncCount (n : Nat) (f : Ctx → Ctx) : (s.modCtx n f).syncCount = s.syncCount := rfl
@[simp] theorem State.modCtx_syncD (n : Nat) (f : Ctx → Ctx) : (s.modCtx n f).syncD = s.syncD := rfl
@[simp] theorem State.modCtx_ocxo (n : Nat) (f : Ctx → Ctx) : (s.modCtx n f).ocxo = s.ocxo := rfl
@[simp] theorem State.modCtx_warmSecs (n : Nat) (f : Ctx → Ctx) : (s.modCtx n f).warmSecs = s.warmSecs := rfl
@[simp] theorem State.modCtx_warmLog (n : Nat) (f : Ctx → Ctx) : (s.modCtx n f).warmLog = s.warmLog := rfl
@[simp] theorem State.modCtx_refvLog (n : Nat) (f : Ctx → Ctx) : (s.modCtx n f).refvLog = s.refvLog := rfl
@[simp] theorem State.modCtx_commitAt (n : Nat) (f : Ctx → Ctx) : (s.modCtx n f).commitAt = s.commitAt := rfl
@[simp] theorem State.modCtx_refFreqs (n : Nat) (f : Ctx → Ctx) : (s.modCtx n f).refFreqs = s.refFreqs := rfl
@[simp] theorem State.modCtx_bundles (n : Nat) (f : Ctx → Ctx) : (s.modCtx n f).bundles = s.bundles := rfl
@[simp] theorem State.modCtx_staging (n : Nat) (f : Ctx → Ctx) : (s.modCtx n f).staging = s.staging := rfl
@[simp] theorem State.modCtx_segSeal (n : Nat) (f : Ctx → Ctx) : (s.modCtx n f).segSeal = s.segSeal := rfl
@[simp] theorem State.modCtx_ackGen (n : Nat) (f : Ctx → Ctx) : (s.modCtx n f).ackGen = s.ackGen := rfl
@[simp] theorem State.modCtx_sealForever (n : Nat) (f : Ctx → Ctx) : (s.modCtx n f).sealForever = s.sealForever := rfl
@[simp] theorem State.modCtx_steps (n : Nat) (f : Ctx → Ctx) : (s.modCtx n f).steps = s.steps := rfl
@[simp] theorem State.modCtx_merges (n : Nat) (f : Ctx → Ctx) : (s.modCtx n f).merges = s.merges := rfl
@[simp] theorem State.modCtx_windows (n : Nat) (f : Ctx → Ctx) : (s.modCtx n f).windows = s.windows := rfl
@[simp] theorem State.modCtx_excursions (n : Nat) (f : Ctx → Ctx) : (s.modCtx n f).excursions = s.excursions := rfl
@[simp] theorem State.modCtx_trigOut (n : Nat) (f : Ctx → Ctx) : (s.modCtx n f).trigOut = s.trigOut := rfl
@[simp] theorem State.modCtx_lvlClr (n : Nat) (f : Ctx → Ctx) : (s.modCtx n f).lvlClr = s.lvlClr := rfl
@[simp] theorem State.modCtx_vioSel (n : Nat) (f : Ctx → Ctx) : (s.modCtx n f).vioSel = s.vioSel := rfl
@[simp] theorem State.modCtx_snts (n : Nat) (f : Ctx → Ctx) : (s.modCtx n f).snts = s.snts := rfl
@[simp] theorem State.modCtx_quads (n : Nat) (f : Ctx → Ctx) : (s.modCtx n f).quads = s.quads := rfl
@[simp] theorem State.modCtx_fenceReq (n : Nat) (f : Ctx → Ctx) : (s.modCtx n f).fenceReq = s.fenceReq := rfl
@[simp] theorem State.modCtx_unfenceReq (n : Nat) (f : Ctx → Ctx) : (s.modCtx n f).unfenceReq = s.unfenceReq := rfl
@[simp] theorem State.modCtx_logDue (n : Nat) (f : Ctx → Ctx) : (s.modCtx n f).logDue = s.logDue := rfl
@[simp] theorem State.modCtx_coreDue (n : Nat) (f : Ctx → Ctx) : (s.modCtx n f).coreDue = s.coreDue := rfl
@[simp] theorem State.modCtx_corePass (n : Nat) (f : Ctx → Ctx) : (s.modCtx n f).corePass = s.corePass := rfl
@[simp] theorem State.modCtx_therm (n : Nat) (f : Ctx → Ctx) : (s.modCtx n f).therm = s.therm := rfl
@[simp] theorem State.modCtx_syncArmed (n : Nat) (f : Ctx → Ctx) : (s.modCtx n f).syncArmed = s.syncArmed := rfl
@[simp] theorem State.modCtx_links (n : Nat) (f : Ctx → Ctx) : (s.modCtx n f).links = s.links := rfl
@[simp] theorem State.modCtx_ids (n : Nat) (f : Ctx → Ctx) : (s.modCtx n f).ids = s.ids := rfl
@[simp] theorem State.modCtx_veing (n : Nat) (f : Ctx → Ctx) : (s.modCtx n f).veing = s.veing := rfl
@[simp] theorem State.modCtx_pp (n : Nat) (f : Ctx → Ctx) : (s.modCtx n f).pp = s.pp := rfl
@[simp] theorem State.modCtx_measures (n : Nat) (f : Ctx → Ctx) : (s.modCtx n f).measures = s.measures := rfl
@[simp] theorem State.modCtx_measured (n : Nat) (f : Ctx → Ctx) : (s.modCtx n f).measured = s.measured := rfl
@[simp] theorem State.modCtx_writes (n : Nat) (f : Ctx → Ctx) : (s.modCtx n f).writes = s.writes := rfl
@[simp] theorem State.modCtx_strms (n : Nat) (f : Ctx → Ctx) : (s.modCtx n f).strms = s.strms := rfl
@[simp] theorem State.modCtx_strmWait (n : Nat) (f : Ctx → Ctx) : (s.modCtx n f).strmWait = s.strmWait := rfl
@[simp] theorem State.modCtx_rr (n : Nat) (f : Ctx → Ctx) : (s.modCtx n f).rr = s.rr := rfl
@[simp] theorem State.modCtx_maxLen (n : Nat) (f : Ctx → Ctx) : (s.modCtx n f).maxLen = s.maxLen := rfl
@[simp] theorem State.modCtx_maxClk (n : Nat) (f : Ctx → Ctx) : (s.modCtx n f).maxClk = s.maxClk := rfl
@[simp] theorem State.modCtx_overrides (n : Nat) (f : Ctx → Ctx) : (s.modCtx n f).overrides = s.overrides := rfl
@[simp] theorem State.modCtx_micro (n : Nat) (f : Ctx → Ctx) : (s.modCtx n f).micro = s.micro := rfl
@[simp] theorem State.modCtx_trigIn (n : Nat) (f : Ctx → Ctx) : (s.modCtx n f).trigIn = s.trigIn := rfl
@[simp] theorem State.modCtx_armedSites (n : Nat) (f : Ctx → Ctx) : (s.modCtx n f).armedSites = s.armedSites := rfl
@[simp] theorem State.modCtx_injFence (n : Nat) (f : Ctx → Ctx) : (s.modCtx n f).injFence = s.injFence := rfl
@[simp] theorem State.modCtx_injHeld (n : Nat) (f : Ctx → Ctx) : (s.modCtx n f).injHeld = s.injHeld := rfl
@[simp] theorem State.modCtx_soft (n : Nat) (f : Ctx → Ctx) : (s.modCtx n f).soft = s.soft := rfl
@[simp] theorem State.modCtx_repairs (n : Nat) (f : Ctx → Ctx) : (s.modCtx n f).repairs = s.repairs := rfl
@[simp] theorem State.modCtx_btAt (n : Nat) (f : Ctx → Ctx) : (s.modCtx n f).btAt = s.btAt := rfl
@[simp] theorem State.modCtx_btHead (n : Nat) (f : Ctx → Ctx) : (s.modCtx n f).btHead = s.btHead := rfl
@[simp] theorem State.modCtx_corrections (n : Nat) (f : Ctx → Ctx) : (s.modCtx n f).corrections = s.corrections := rfl
@[simp] theorem State.modCtx_eccWords (n : Nat) (f : Ctx → Ctx) : (s.modCtx n f).eccWords = s.eccWords := rfl
@[simp] theorem State.modCtx_eccReal (n : Nat) (f : Ctx → Ctx) : (s.modCtx n f).eccReal = s.eccReal := rfl
@[simp] theorem State.modCtx_spareAt (n : Nat) (f : Ctx → Ctx) : (s.modCtx n f).spareAt = s.spareAt := rfl
@[simp] theorem State.modCtx_supStop (n : Nat) (f : Ctx → Ctx) : (s.modCtx n f).supStop = s.supStop := rfl
@[simp] theorem State.modCtx_sealStuck (n : Nat) (f : Ctx → Ctx) : (s.modCtx n f).sealStuck = s.sealStuck := rfl
@[simp] theorem State.modCtx_drbgBad (n : Nat) (f : Ctx → Ctx) : (s.modCtx n f).drbgBad = s.drbgBad := rfl
@[simp] theorem State.modCtx_eccFrame (n : Nat) (f : Ctx → Ctx) : (s.modCtx n f).eccFrame = s.eccFrame := rfl
@[simp] theorem State.modCtx_attests (n : Nat) (f : Ctx → Ctx) : (s.modCtx n f).attests = s.attests := rfl
@[simp] theorem State.modCtx_cert (n : Nat) (f : Ctx → Ctx) : (s.modCtx n f).cert = s.cert := rfl
@[simp] theorem State.modCtx_certDigest (n : Nat) (f : Ctx → Ctx) : (s.modCtx n f).certDigest = s.certDigest := rfl
@[simp] theorem State.modCtx_certBad (n : Nat) (f : Ctx → Ctx) : (s.modCtx n f).certBad = s.certBad := rfl
@[simp] theorem State.modCtx_mrnClear (n : Nat) (f : Ctx → Ctx) : (s.modCtx n f).mrnClear = s.mrnClear := rfl
@[simp] theorem State.modCtx_dumping (n : Nat) (f : Ctx → Ctx) : (s.modCtx n f).dumping = s.dumping := rfl
@[simp] theorem State.modCtx_dump (n : Nat) (f : Ctx → Ctx) : (s.modCtx n f).dump = s.dump := rfl
@[simp] theorem State.modCtx_dumpFlash (n : Nat) (f : Ctx → Ctx) : (s.modCtx n f).dumpFlash = s.dumpFlash := rfl
@[simp] theorem State.modCtx_tap (n : Nat) (f : Ctx → Ctx) : (s.modCtx n f).tap = s.tap := rfl
@[simp] theorem State.modCtx_groups (n : Nat) (f : Ctx → Ctx) : (s.modCtx n f).groups = s.groups := rfl
@[simp] theorem State.modCtx_items (n : Nat) (f : Ctx → Ctx) : (s.modCtx n f).items = s.items := rfl
@[simp] theorem State.modCtx_splits (n : Nat) (f : Ctx → Ctx) : (s.modCtx n f).splits = s.splits := rfl
@[simp] theorem State.modCtx_txq (n : Nat) (f : Ctx → Ctx) : (s.modCtx n f).txq = s.txq := rfl
@[simp] theorem State.modCtx_sent (n : Nat) (f : Ctx → Ctx) : (s.modCtx n f).sent = s.sent := rfl
@[simp] theorem State.modCtx_rep (n : Nat) (f : Ctx → Ctx) : (s.modCtx n f).rep = s.rep := rfl
@[simp] theorem State.modCtx_mrn (n : Nat) (f : Ctx → Ctx) : (s.modCtx n f).mrn = s.mrn := rfl
@[simp] theorem State.modCtx_staged (n : Nat) (f : Ctx → Ctx) : (s.modCtx n f).staged = s.staged := rfl
@[simp] theorem State.modCtx_mrnLost (n : Nat) (f : Ctx → Ctx) : (s.modCtx n f).mrnLost = s.mrnLost := rfl
@[simp] theorem State.modCtx_freeCtr (n : Nat) (f : Ctx → Ctx) : (s.modCtx n f).freeCtr = s.freeCtr := rfl
@[simp] theorem State.modCtx_answer (n : Nat) (f : Ctx → Ctx) : (s.modCtx n f).answer = s.answer := rfl
@[simp] theorem State.modCtx_pending (n : Nat) (f : Ctx → Ctx) : (s.modCtx n f).pending = s.pending := rfl

@[simp] theorem State.bumpEvc_regs (n k : Nat) : (s.bumpEvc n k).regs = s.regs := rfl
@[simp] theorem State.bumpEvc_mem (n k : Nat) : (s.bumpEvc n k).mem = s.mem := rfl
@[simp] theorem State.bumpEvc_sysTime (n k : Nat) : (s.bumpEvc n k).sysTime = s.sysTime := rfl
@[simp] theorem State.bumpEvc_tiles (n k : Nat) : (s.bumpEvc n k).tiles = s.tiles := rfl
@[simp] theorem State.bumpEvc_chans (n k : Nat) : (s.bumpEvc n k).chans = s.chans := rfl
@[simp] theorem State.bumpEvc_ctxs (n k : Nat) : (s.bumpEvc n k).ctxs = s.ctxs := rfl
@[simp] theorem State.bumpEvc_evs (n k : Nat) : (s.bumpEvc n k).evs = s.evs := rfl
@[simp] theorem State.bumpEvc_held (n k : Nat) : (s.bumpEvc n k).held = s.held := rfl
@[simp] theorem State.bumpEvc_faultMarks (n k : Nat) : (s.bumpEvc n k).faultMarks = s.faultMarks := rfl
@[simp] theorem State.bumpEvc_calPend (n k : Nat) : (s.bumpEvc n k).calPend = s.calPend := rfl
@[simp] theorem State.bumpEvc_calNew (n k : Nat) : (s.bumpEvc n k).calNew = s.calNew := rfl
@[simp] theorem State.bumpEvc_calApplied (n k : Nat) : (s.bumpEvc n k).calApplied = s.calApplied := rfl
@[simp] theorem State.bumpEvc_syncPhases (n k : Nat) : (s.bumpEvc n k).syncPhases = s.syncPhases := rfl
@[simp] theorem State.bumpEvc_syncCount (n k : Nat) : (s.bumpEvc n k).syncCount = s.syncCount := rfl
@[simp] theorem State.bumpEvc_syncD (n k : Nat) : (s.bumpEvc n k).syncD = s.syncD := rfl
@[simp] theorem State.bumpEvc_ocxo (n k : Nat) : (s.bumpEvc n k).ocxo = s.ocxo := rfl
@[simp] theorem State.bumpEvc_warmSecs (n k : Nat) : (s.bumpEvc n k).warmSecs = s.warmSecs := rfl
@[simp] theorem State.bumpEvc_warmLog (n k : Nat) : (s.bumpEvc n k).warmLog = s.warmLog := rfl
@[simp] theorem State.bumpEvc_refvLog (n k : Nat) : (s.bumpEvc n k).refvLog = s.refvLog := rfl
@[simp] theorem State.bumpEvc_commitAt (n k : Nat) : (s.bumpEvc n k).commitAt = s.commitAt := rfl
@[simp] theorem State.bumpEvc_refFreqs (n k : Nat) : (s.bumpEvc n k).refFreqs = s.refFreqs := rfl
@[simp] theorem State.bumpEvc_bundles (n k : Nat) : (s.bumpEvc n k).bundles = s.bundles := rfl
@[simp] theorem State.bumpEvc_staging (n k : Nat) : (s.bumpEvc n k).staging = s.staging := rfl
@[simp] theorem State.bumpEvc_segSeal (n k : Nat) : (s.bumpEvc n k).segSeal = s.segSeal := rfl
@[simp] theorem State.bumpEvc_ackGen (n k : Nat) : (s.bumpEvc n k).ackGen = s.ackGen := rfl
@[simp] theorem State.bumpEvc_sealForever (n k : Nat) : (s.bumpEvc n k).sealForever = s.sealForever := rfl
@[simp] theorem State.bumpEvc_steps (n k : Nat) : (s.bumpEvc n k).steps = s.steps := rfl
@[simp] theorem State.bumpEvc_merges (n k : Nat) : (s.bumpEvc n k).merges = s.merges := rfl
@[simp] theorem State.bumpEvc_windows (n k : Nat) : (s.bumpEvc n k).windows = s.windows := rfl
@[simp] theorem State.bumpEvc_excursions (n k : Nat) : (s.bumpEvc n k).excursions = s.excursions := rfl
@[simp] theorem State.bumpEvc_trigOut (n k : Nat) : (s.bumpEvc n k).trigOut = s.trigOut := rfl
@[simp] theorem State.bumpEvc_lvlClr (n k : Nat) : (s.bumpEvc n k).lvlClr = s.lvlClr := rfl
@[simp] theorem State.bumpEvc_vioSel (n k : Nat) : (s.bumpEvc n k).vioSel = s.vioSel := rfl
@[simp] theorem State.bumpEvc_snts (n k : Nat) : (s.bumpEvc n k).snts = s.snts := rfl
@[simp] theorem State.bumpEvc_quads (n k : Nat) : (s.bumpEvc n k).quads = s.quads := rfl
@[simp] theorem State.bumpEvc_fenceReq (n k : Nat) : (s.bumpEvc n k).fenceReq = s.fenceReq := rfl
@[simp] theorem State.bumpEvc_unfenceReq (n k : Nat) : (s.bumpEvc n k).unfenceReq = s.unfenceReq := rfl
@[simp] theorem State.bumpEvc_logDue (n k : Nat) : (s.bumpEvc n k).logDue = s.logDue := rfl
@[simp] theorem State.bumpEvc_coreDue (n k : Nat) : (s.bumpEvc n k).coreDue = s.coreDue := rfl
@[simp] theorem State.bumpEvc_corePass (n k : Nat) : (s.bumpEvc n k).corePass = s.corePass := rfl
@[simp] theorem State.bumpEvc_therm (n k : Nat) : (s.bumpEvc n k).therm = s.therm := rfl
@[simp] theorem State.bumpEvc_syncArmed (n k : Nat) : (s.bumpEvc n k).syncArmed = s.syncArmed := rfl
@[simp] theorem State.bumpEvc_links (n k : Nat) : (s.bumpEvc n k).links = s.links := rfl
@[simp] theorem State.bumpEvc_ids (n k : Nat) : (s.bumpEvc n k).ids = s.ids := rfl
@[simp] theorem State.bumpEvc_veing (n k : Nat) : (s.bumpEvc n k).veing = s.veing := rfl
@[simp] theorem State.bumpEvc_pp (n k : Nat) : (s.bumpEvc n k).pp = s.pp := rfl
@[simp] theorem State.bumpEvc_measures (n k : Nat) : (s.bumpEvc n k).measures = s.measures := rfl
@[simp] theorem State.bumpEvc_measured (n k : Nat) : (s.bumpEvc n k).measured = s.measured := rfl
@[simp] theorem State.bumpEvc_writes (n k : Nat) : (s.bumpEvc n k).writes = s.writes := rfl
@[simp] theorem State.bumpEvc_strms (n k : Nat) : (s.bumpEvc n k).strms = s.strms := rfl
@[simp] theorem State.bumpEvc_strmWait (n k : Nat) : (s.bumpEvc n k).strmWait = s.strmWait := rfl
@[simp] theorem State.bumpEvc_rr (n k : Nat) : (s.bumpEvc n k).rr = s.rr := rfl
@[simp] theorem State.bumpEvc_maxLen (n k : Nat) : (s.bumpEvc n k).maxLen = s.maxLen := rfl
@[simp] theorem State.bumpEvc_maxClk (n k : Nat) : (s.bumpEvc n k).maxClk = s.maxClk := rfl
@[simp] theorem State.bumpEvc_overrides (n k : Nat) : (s.bumpEvc n k).overrides = s.overrides := rfl
@[simp] theorem State.bumpEvc_micro (n k : Nat) : (s.bumpEvc n k).micro = s.micro := rfl
@[simp] theorem State.bumpEvc_trigIn (n k : Nat) : (s.bumpEvc n k).trigIn = s.trigIn := rfl
@[simp] theorem State.bumpEvc_armedSites (n k : Nat) : (s.bumpEvc n k).armedSites = s.armedSites := rfl
@[simp] theorem State.bumpEvc_injFence (n k : Nat) : (s.bumpEvc n k).injFence = s.injFence := rfl
@[simp] theorem State.bumpEvc_injHeld (n k : Nat) : (s.bumpEvc n k).injHeld = s.injHeld := rfl
@[simp] theorem State.bumpEvc_soft (n k : Nat) : (s.bumpEvc n k).soft = s.soft := rfl
@[simp] theorem State.bumpEvc_repairs (n k : Nat) : (s.bumpEvc n k).repairs = s.repairs := rfl
@[simp] theorem State.bumpEvc_btAt (n k : Nat) : (s.bumpEvc n k).btAt = s.btAt := rfl
@[simp] theorem State.bumpEvc_btHead (n k : Nat) : (s.bumpEvc n k).btHead = s.btHead := rfl
@[simp] theorem State.bumpEvc_corrections (n k : Nat) : (s.bumpEvc n k).corrections = s.corrections := rfl
@[simp] theorem State.bumpEvc_eccWords (n k : Nat) : (s.bumpEvc n k).eccWords = s.eccWords := rfl
@[simp] theorem State.bumpEvc_eccReal (n k : Nat) : (s.bumpEvc n k).eccReal = s.eccReal := rfl
@[simp] theorem State.bumpEvc_spareAt (n k : Nat) : (s.bumpEvc n k).spareAt = s.spareAt := rfl
@[simp] theorem State.bumpEvc_supStop (n k : Nat) : (s.bumpEvc n k).supStop = s.supStop := rfl
@[simp] theorem State.bumpEvc_sealStuck (n k : Nat) : (s.bumpEvc n k).sealStuck = s.sealStuck := rfl
@[simp] theorem State.bumpEvc_drbgBad (n k : Nat) : (s.bumpEvc n k).drbgBad = s.drbgBad := rfl
@[simp] theorem State.bumpEvc_eccFrame (n k : Nat) : (s.bumpEvc n k).eccFrame = s.eccFrame := rfl
@[simp] theorem State.bumpEvc_attests (n k : Nat) : (s.bumpEvc n k).attests = s.attests := rfl
@[simp] theorem State.bumpEvc_cert (n k : Nat) : (s.bumpEvc n k).cert = s.cert := rfl
@[simp] theorem State.bumpEvc_certDigest (n k : Nat) : (s.bumpEvc n k).certDigest = s.certDigest := rfl
@[simp] theorem State.bumpEvc_certBad (n k : Nat) : (s.bumpEvc n k).certBad = s.certBad := rfl
@[simp] theorem State.bumpEvc_mrnClear (n k : Nat) : (s.bumpEvc n k).mrnClear = s.mrnClear := rfl
@[simp] theorem State.bumpEvc_dumping (n k : Nat) : (s.bumpEvc n k).dumping = s.dumping := rfl
@[simp] theorem State.bumpEvc_dump (n k : Nat) : (s.bumpEvc n k).dump = s.dump := rfl
@[simp] theorem State.bumpEvc_dumpFlash (n k : Nat) : (s.bumpEvc n k).dumpFlash = s.dumpFlash := rfl
@[simp] theorem State.bumpEvc_tap (n k : Nat) : (s.bumpEvc n k).tap = s.tap := rfl
@[simp] theorem State.bumpEvc_groups (n k : Nat) : (s.bumpEvc n k).groups = s.groups := rfl
@[simp] theorem State.bumpEvc_items (n k : Nat) : (s.bumpEvc n k).items = s.items := rfl
@[simp] theorem State.bumpEvc_splits (n k : Nat) : (s.bumpEvc n k).splits = s.splits := rfl
@[simp] theorem State.bumpEvc_txq (n k : Nat) : (s.bumpEvc n k).txq = s.txq := rfl
@[simp] theorem State.bumpEvc_sent (n k : Nat) : (s.bumpEvc n k).sent = s.sent := rfl
@[simp] theorem State.bumpEvc_rep (n k : Nat) : (s.bumpEvc n k).rep = s.rep := rfl
@[simp] theorem State.bumpEvc_mrn (n k : Nat) : (s.bumpEvc n k).mrn = s.mrn := rfl
@[simp] theorem State.bumpEvc_staged (n k : Nat) : (s.bumpEvc n k).staged = s.staged := rfl
@[simp] theorem State.bumpEvc_mrnLost (n k : Nat) : (s.bumpEvc n k).mrnLost = s.mrnLost := rfl
@[simp] theorem State.bumpEvc_freeCtr (n k : Nat) : (s.bumpEvc n k).freeCtr = s.freeCtr := rfl
@[simp] theorem State.bumpEvc_answer (n k : Nat) : (s.bumpEvc n k).answer = s.answer := rfl
@[simp] theorem State.bumpEvc_pending (n k : Nat) : (s.bumpEvc n k).pending = s.pending := rfl

@[simp] theorem State.mwrite_regs (p t o : Nat) (l : List Byte) : (s.mwrite p t o l).regs = s.regs := (s.mwrite_eq p t o l) ▸ rfl
@[simp] theorem State.mwrite_sysTime (p t o : Nat) (l : List Byte) : (s.mwrite p t o l).sysTime = s.sysTime := (s.mwrite_eq p t o l) ▸ rfl
@[simp] theorem State.mwrite_tiles (p t o : Nat) (l : List Byte) : (s.mwrite p t o l).tiles = s.tiles := (s.mwrite_eq p t o l) ▸ rfl
@[simp] theorem State.mwrite_chans (p t o : Nat) (l : List Byte) : (s.mwrite p t o l).chans = s.chans := (s.mwrite_eq p t o l) ▸ rfl
@[simp] theorem State.mwrite_ctxs (p t o : Nat) (l : List Byte) : (s.mwrite p t o l).ctxs = s.ctxs := (s.mwrite_eq p t o l) ▸ rfl
@[simp] theorem State.mwrite_evc (p t o : Nat) (l : List Byte) : (s.mwrite p t o l).evc = s.evc := (s.mwrite_eq p t o l) ▸ rfl
@[simp] theorem State.mwrite_evs (p t o : Nat) (l : List Byte) : (s.mwrite p t o l).evs = s.evs := (s.mwrite_eq p t o l) ▸ rfl
@[simp] theorem State.mwrite_held (p t o : Nat) (l : List Byte) : (s.mwrite p t o l).held = s.held := (s.mwrite_eq p t o l) ▸ rfl
@[simp] theorem State.mwrite_faultMarks (p t o : Nat) (l : List Byte) : (s.mwrite p t o l).faultMarks = s.faultMarks := (s.mwrite_eq p t o l) ▸ rfl
@[simp] theorem State.mwrite_calPend (p t o : Nat) (l : List Byte) : (s.mwrite p t o l).calPend = s.calPend := (s.mwrite_eq p t o l) ▸ rfl
@[simp] theorem State.mwrite_calNew (p t o : Nat) (l : List Byte) : (s.mwrite p t o l).calNew = s.calNew := (s.mwrite_eq p t o l) ▸ rfl
@[simp] theorem State.mwrite_calApplied (p t o : Nat) (l : List Byte) : (s.mwrite p t o l).calApplied = s.calApplied := (s.mwrite_eq p t o l) ▸ rfl
@[simp] theorem State.mwrite_syncPhases (p t o : Nat) (l : List Byte) : (s.mwrite p t o l).syncPhases = s.syncPhases := (s.mwrite_eq p t o l) ▸ rfl
@[simp] theorem State.mwrite_syncCount (p t o : Nat) (l : List Byte) : (s.mwrite p t o l).syncCount = s.syncCount := (s.mwrite_eq p t o l) ▸ rfl
@[simp] theorem State.mwrite_syncD (p t o : Nat) (l : List Byte) : (s.mwrite p t o l).syncD = s.syncD := (s.mwrite_eq p t o l) ▸ rfl
@[simp] theorem State.mwrite_ocxo (p t o : Nat) (l : List Byte) : (s.mwrite p t o l).ocxo = s.ocxo := (s.mwrite_eq p t o l) ▸ rfl
@[simp] theorem State.mwrite_warmSecs (p t o : Nat) (l : List Byte) : (s.mwrite p t o l).warmSecs = s.warmSecs := (s.mwrite_eq p t o l) ▸ rfl
@[simp] theorem State.mwrite_warmLog (p t o : Nat) (l : List Byte) : (s.mwrite p t o l).warmLog = s.warmLog := (s.mwrite_eq p t o l) ▸ rfl
@[simp] theorem State.mwrite_refvLog (p t o : Nat) (l : List Byte) : (s.mwrite p t o l).refvLog = s.refvLog := (s.mwrite_eq p t o l) ▸ rfl
@[simp] theorem State.mwrite_commitAt (p t o : Nat) (l : List Byte) : (s.mwrite p t o l).commitAt = s.commitAt := (s.mwrite_eq p t o l) ▸ rfl
@[simp] theorem State.mwrite_refFreqs (p t o : Nat) (l : List Byte) : (s.mwrite p t o l).refFreqs = s.refFreqs := (s.mwrite_eq p t o l) ▸ rfl
@[simp] theorem State.mwrite_bundles (p t o : Nat) (l : List Byte) : (s.mwrite p t o l).bundles = s.bundles := (s.mwrite_eq p t o l) ▸ rfl
@[simp] theorem State.mwrite_staging (p t o : Nat) (l : List Byte) : (s.mwrite p t o l).staging = s.staging := (s.mwrite_eq p t o l) ▸ rfl
@[simp] theorem State.mwrite_segSeal (p t o : Nat) (l : List Byte) : (s.mwrite p t o l).segSeal = s.segSeal := (s.mwrite_eq p t o l) ▸ rfl
@[simp] theorem State.mwrite_ackGen (p t o : Nat) (l : List Byte) : (s.mwrite p t o l).ackGen = s.ackGen := (s.mwrite_eq p t o l) ▸ rfl
@[simp] theorem State.mwrite_sealForever (p t o : Nat) (l : List Byte) : (s.mwrite p t o l).sealForever = s.sealForever := (s.mwrite_eq p t o l) ▸ rfl
@[simp] theorem State.mwrite_steps (p t o : Nat) (l : List Byte) : (s.mwrite p t o l).steps = s.steps := (s.mwrite_eq p t o l) ▸ rfl
@[simp] theorem State.mwrite_merges (p t o : Nat) (l : List Byte) : (s.mwrite p t o l).merges = s.merges := (s.mwrite_eq p t o l) ▸ rfl
@[simp] theorem State.mwrite_windows (p t o : Nat) (l : List Byte) : (s.mwrite p t o l).windows = s.windows := (s.mwrite_eq p t o l) ▸ rfl
@[simp] theorem State.mwrite_excursions (p t o : Nat) (l : List Byte) : (s.mwrite p t o l).excursions = s.excursions := (s.mwrite_eq p t o l) ▸ rfl
@[simp] theorem State.mwrite_trigOut (p t o : Nat) (l : List Byte) : (s.mwrite p t o l).trigOut = s.trigOut := (s.mwrite_eq p t o l) ▸ rfl
@[simp] theorem State.mwrite_lvlClr (p t o : Nat) (l : List Byte) : (s.mwrite p t o l).lvlClr = s.lvlClr := (s.mwrite_eq p t o l) ▸ rfl
@[simp] theorem State.mwrite_vioSel (p t o : Nat) (l : List Byte) : (s.mwrite p t o l).vioSel = s.vioSel := (s.mwrite_eq p t o l) ▸ rfl
@[simp] theorem State.mwrite_snts (p t o : Nat) (l : List Byte) : (s.mwrite p t o l).snts = s.snts := (s.mwrite_eq p t o l) ▸ rfl
@[simp] theorem State.mwrite_quads (p t o : Nat) (l : List Byte) : (s.mwrite p t o l).quads = s.quads := (s.mwrite_eq p t o l) ▸ rfl
@[simp] theorem State.mwrite_fenceReq (p t o : Nat) (l : List Byte) : (s.mwrite p t o l).fenceReq = s.fenceReq := (s.mwrite_eq p t o l) ▸ rfl
@[simp] theorem State.mwrite_unfenceReq (p t o : Nat) (l : List Byte) : (s.mwrite p t o l).unfenceReq = s.unfenceReq := (s.mwrite_eq p t o l) ▸ rfl
@[simp] theorem State.mwrite_logDue (p t o : Nat) (l : List Byte) : (s.mwrite p t o l).logDue = s.logDue := (s.mwrite_eq p t o l) ▸ rfl
@[simp] theorem State.mwrite_coreDue (p t o : Nat) (l : List Byte) : (s.mwrite p t o l).coreDue = s.coreDue := (s.mwrite_eq p t o l) ▸ rfl
@[simp] theorem State.mwrite_corePass (p t o : Nat) (l : List Byte) : (s.mwrite p t o l).corePass = s.corePass := (s.mwrite_eq p t o l) ▸ rfl
@[simp] theorem State.mwrite_therm (p t o : Nat) (l : List Byte) : (s.mwrite p t o l).therm = s.therm := (s.mwrite_eq p t o l) ▸ rfl
@[simp] theorem State.mwrite_syncArmed (p t o : Nat) (l : List Byte) : (s.mwrite p t o l).syncArmed = s.syncArmed := (s.mwrite_eq p t o l) ▸ rfl
@[simp] theorem State.mwrite_links (p t o : Nat) (l : List Byte) : (s.mwrite p t o l).links = s.links := (s.mwrite_eq p t o l) ▸ rfl
@[simp] theorem State.mwrite_ids (p t o : Nat) (l : List Byte) : (s.mwrite p t o l).ids = s.ids := (s.mwrite_eq p t o l) ▸ rfl
@[simp] theorem State.mwrite_veing (p t o : Nat) (l : List Byte) : (s.mwrite p t o l).veing = s.veing := (s.mwrite_eq p t o l) ▸ rfl
@[simp] theorem State.mwrite_pp (p t o : Nat) (l : List Byte) : (s.mwrite p t o l).pp = s.pp := (s.mwrite_eq p t o l) ▸ rfl
@[simp] theorem State.mwrite_measures (p t o : Nat) (l : List Byte) : (s.mwrite p t o l).measures = s.measures := (s.mwrite_eq p t o l) ▸ rfl
@[simp] theorem State.mwrite_measured (p t o : Nat) (l : List Byte) : (s.mwrite p t o l).measured = s.measured := (s.mwrite_eq p t o l) ▸ rfl
@[simp] theorem State.mwrite_writes (p t o : Nat) (l : List Byte) : (s.mwrite p t o l).writes = s.writes := (s.mwrite_eq p t o l) ▸ rfl
@[simp] theorem State.mwrite_strms (p t o : Nat) (l : List Byte) : (s.mwrite p t o l).strms = s.strms := (s.mwrite_eq p t o l) ▸ rfl
@[simp] theorem State.mwrite_strmWait (p t o : Nat) (l : List Byte) : (s.mwrite p t o l).strmWait = s.strmWait := (s.mwrite_eq p t o l) ▸ rfl
@[simp] theorem State.mwrite_rr (p t o : Nat) (l : List Byte) : (s.mwrite p t o l).rr = s.rr := (s.mwrite_eq p t o l) ▸ rfl
@[simp] theorem State.mwrite_maxLen (p t o : Nat) (l : List Byte) : (s.mwrite p t o l).maxLen = s.maxLen := (s.mwrite_eq p t o l) ▸ rfl
@[simp] theorem State.mwrite_maxClk (p t o : Nat) (l : List Byte) : (s.mwrite p t o l).maxClk = s.maxClk := (s.mwrite_eq p t o l) ▸ rfl
@[simp] theorem State.mwrite_overrides (p t o : Nat) (l : List Byte) : (s.mwrite p t o l).overrides = s.overrides := (s.mwrite_eq p t o l) ▸ rfl
@[simp] theorem State.mwrite_micro (p t o : Nat) (l : List Byte) : (s.mwrite p t o l).micro = s.micro := (s.mwrite_eq p t o l) ▸ rfl
@[simp] theorem State.mwrite_trigIn (p t o : Nat) (l : List Byte) : (s.mwrite p t o l).trigIn = s.trigIn := (s.mwrite_eq p t o l) ▸ rfl
@[simp] theorem State.mwrite_armedSites (p t o : Nat) (l : List Byte) : (s.mwrite p t o l).armedSites = s.armedSites := (s.mwrite_eq p t o l) ▸ rfl
@[simp] theorem State.mwrite_injFence (p t o : Nat) (l : List Byte) : (s.mwrite p t o l).injFence = s.injFence := (s.mwrite_eq p t o l) ▸ rfl
@[simp] theorem State.mwrite_injHeld (p t o : Nat) (l : List Byte) : (s.mwrite p t o l).injHeld = s.injHeld := (s.mwrite_eq p t o l) ▸ rfl
@[simp] theorem State.mwrite_soft (p t o : Nat) (l : List Byte) : (s.mwrite p t o l).soft = s.soft := (s.mwrite_eq p t o l) ▸ rfl
@[simp] theorem State.mwrite_repairs (p t o : Nat) (l : List Byte) : (s.mwrite p t o l).repairs = s.repairs := (s.mwrite_eq p t o l) ▸ rfl
@[simp] theorem State.mwrite_btAt (p t o : Nat) (l : List Byte) : (s.mwrite p t o l).btAt = s.btAt := (s.mwrite_eq p t o l) ▸ rfl
@[simp] theorem State.mwrite_btHead (p t o : Nat) (l : List Byte) : (s.mwrite p t o l).btHead = s.btHead := (s.mwrite_eq p t o l) ▸ rfl
@[simp] theorem State.mwrite_corrections (p t o : Nat) (l : List Byte) : (s.mwrite p t o l).corrections = s.corrections := (s.mwrite_eq p t o l) ▸ rfl
@[simp] theorem State.mwrite_eccWords (p t o : Nat) (l : List Byte) : (s.mwrite p t o l).eccWords = s.eccWords := (s.mwrite_eq p t o l) ▸ rfl
@[simp] theorem State.mwrite_eccReal (p t o : Nat) (l : List Byte) : (s.mwrite p t o l).eccReal = s.eccReal := (s.mwrite_eq p t o l) ▸ rfl
@[simp] theorem State.mwrite_spareAt (p t o : Nat) (l : List Byte) : (s.mwrite p t o l).spareAt = s.spareAt := (s.mwrite_eq p t o l) ▸ rfl
@[simp] theorem State.mwrite_supStop (p t o : Nat) (l : List Byte) : (s.mwrite p t o l).supStop = s.supStop := (s.mwrite_eq p t o l) ▸ rfl
@[simp] theorem State.mwrite_sealStuck (p t o : Nat) (l : List Byte) : (s.mwrite p t o l).sealStuck = s.sealStuck := (s.mwrite_eq p t o l) ▸ rfl
@[simp] theorem State.mwrite_drbgBad (p t o : Nat) (l : List Byte) : (s.mwrite p t o l).drbgBad = s.drbgBad := (s.mwrite_eq p t o l) ▸ rfl
@[simp] theorem State.mwrite_eccFrame (p t o : Nat) (l : List Byte) : (s.mwrite p t o l).eccFrame = s.eccFrame := (s.mwrite_eq p t o l) ▸ rfl
@[simp] theorem State.mwrite_attests (p t o : Nat) (l : List Byte) : (s.mwrite p t o l).attests = s.attests := (s.mwrite_eq p t o l) ▸ rfl
@[simp] theorem State.mwrite_cert (p t o : Nat) (l : List Byte) : (s.mwrite p t o l).cert = s.cert := (s.mwrite_eq p t o l) ▸ rfl
@[simp] theorem State.mwrite_certDigest (p t o : Nat) (l : List Byte) : (s.mwrite p t o l).certDigest = s.certDigest := (s.mwrite_eq p t o l) ▸ rfl
@[simp] theorem State.mwrite_certBad (p t o : Nat) (l : List Byte) : (s.mwrite p t o l).certBad = s.certBad := (s.mwrite_eq p t o l) ▸ rfl
@[simp] theorem State.mwrite_mrnClear (p t o : Nat) (l : List Byte) : (s.mwrite p t o l).mrnClear = s.mrnClear := (s.mwrite_eq p t o l) ▸ rfl
@[simp] theorem State.mwrite_dumping (p t o : Nat) (l : List Byte) : (s.mwrite p t o l).dumping = s.dumping := (s.mwrite_eq p t o l) ▸ rfl
@[simp] theorem State.mwrite_dump (p t o : Nat) (l : List Byte) : (s.mwrite p t o l).dump = s.dump := (s.mwrite_eq p t o l) ▸ rfl
@[simp] theorem State.mwrite_dumpFlash (p t o : Nat) (l : List Byte) : (s.mwrite p t o l).dumpFlash = s.dumpFlash := (s.mwrite_eq p t o l) ▸ rfl
@[simp] theorem State.mwrite_tap (p t o : Nat) (l : List Byte) : (s.mwrite p t o l).tap = s.tap := (s.mwrite_eq p t o l) ▸ rfl
@[simp] theorem State.mwrite_groups (p t o : Nat) (l : List Byte) : (s.mwrite p t o l).groups = s.groups := (s.mwrite_eq p t o l) ▸ rfl
@[simp] theorem State.mwrite_items (p t o : Nat) (l : List Byte) : (s.mwrite p t o l).items = s.items := (s.mwrite_eq p t o l) ▸ rfl
@[simp] theorem State.mwrite_splits (p t o : Nat) (l : List Byte) : (s.mwrite p t o l).splits = s.splits := (s.mwrite_eq p t o l) ▸ rfl
@[simp] theorem State.mwrite_txq (p t o : Nat) (l : List Byte) : (s.mwrite p t o l).txq = s.txq := (s.mwrite_eq p t o l) ▸ rfl
@[simp] theorem State.mwrite_sent (p t o : Nat) (l : List Byte) : (s.mwrite p t o l).sent = s.sent := (s.mwrite_eq p t o l) ▸ rfl
@[simp] theorem State.mwrite_rep (p t o : Nat) (l : List Byte) : (s.mwrite p t o l).rep = s.rep := (s.mwrite_eq p t o l) ▸ rfl
@[simp] theorem State.mwrite_mrn (p t o : Nat) (l : List Byte) : (s.mwrite p t o l).mrn = s.mrn := (s.mwrite_eq p t o l) ▸ rfl
@[simp] theorem State.mwrite_staged (p t o : Nat) (l : List Byte) : (s.mwrite p t o l).staged = s.staged := (s.mwrite_eq p t o l) ▸ rfl
@[simp] theorem State.mwrite_mrnLost (p t o : Nat) (l : List Byte) : (s.mwrite p t o l).mrnLost = s.mrnLost := (s.mwrite_eq p t o l) ▸ rfl
@[simp] theorem State.mwrite_freeCtr (p t o : Nat) (l : List Byte) : (s.mwrite p t o l).freeCtr = s.freeCtr := (s.mwrite_eq p t o l) ▸ rfl
@[simp] theorem State.mwrite_answer (p t o : Nat) (l : List Byte) : (s.mwrite p t o l).answer = s.answer := (s.mwrite_eq p t o l) ▸ rfl
@[simp] theorem State.mwrite_pending (p t o : Nat) (l : List Byte) : (s.mwrite p t o l).pending = s.pending := (s.mwrite_eq p t o l) ▸ rfl

end Sys2Proof.Machine
end

