-- ==== Sys2Proof/Laws/Ops.lean ====
section
/-! SUPPORT. What the shared operations of Machine/Ops.lean do, said once: counting events, running a routine, sending a packet,
answering a request, starting and completing a split-phase operation. -/

namespace Sys2Proof.Machine

/-! ## Counting -/

theorem Counts.refl (s : State) : Counts s s := ⟨rfl, fun _ _ => rfl, [], by simp⟩

theorem Counts.trans {a b c : State} (h : Counts a b) (k : Counts b c) : Counts a c := by
  obtain ⟨l, hl, ho⟩ := h.items
  obtain ⟨m, hm, hp⟩ := k.items
  refine ⟨?_, fun x hx => (k.regs x hx).trans (h.regs x hx), l ++ m, by rw [hm, hl, List.append_assoc], ?_⟩
  · exact (congrArg (fun x : State =>
      ({ x with
            regs := a.regs, evc := a.evc, items := a.items, freeCtr := a.freeCtr, maxLen := a.maxLen, maxClk := a.maxClk,
            micro := a.micro } : State))
      k.same).trans h.same
  · intro i hi
    rcases List.mem_append.1 hi with hi | hi
    · exact ho i hi
    · exact hp i hi

theorem Counts.rset (s : State) {a : Nat} (v : Word) (h : counting a = true) : Counts s (s.rset a v) :=
  ⟨rfl, fun b hb => by simp [show b ≠ a by rintro rfl; simp [h] at hb], [], by simp⟩

theorem counting_val (m : Nat) (h : m < 64) : counting (R.PCNT_VAL m) = true := by
  refine decide_eq_true ?_; unfold R.PCNT_VAL; omega

theorem counting_samp (m : Nat) (h : m < 64) : counting (R.PCNT_SAMP m) = true := by
  refine decide_eq_true ?_; unfold R.PCNT_SAMP; omega

theorem counting_ovf (m : Nat) (h : m < 64) : counting (R.PCNT_OVF (m / 32)) = true := by
  refine decide_eq_true ?_; unfold R.PCNT_OVF; omega

theorem State.sampleOf_counts (s : State) (x : Option Word) : Counts s (s.sampleOf x).2 := by
  cases x
  · exact ⟨rfl, fun _ _ => rfl, [], by simp [State.sampleOf, State.free]⟩
  · exact .refl s

theorem Counts.overflow (s : State) (m : Nat) : Counts s { s with items := s.items ++ [.overflow m] } :=
  ⟨rfl, fun _ _ => rfl, [.overflow m], rfl, by simp⟩

theorem State.bumpPcnt_counts (s : State) (m k : Nat) (x : Option Word) (fuel : Nat) (h : m < 64) :
    Counts s (s.bumpPcnt m k x fuel) := by
  induction fuel generalizing s m k with
  | zero => exact .refl s
  | succ fuel ih =>
    unfold State.bumpPcnt
    extract_lets v wraps s₁ ovf s₂
    have h₁ : Counts s s₁ := .rset _ _ (counting_val m h)
    have h₂ : Counts s s₂ := by
      unfold s₂
      split
      · exact h₁.trans ((State.sampleOf_counts ..).trans
          ((Counts.rset _ _ (counting_ovf m h)).trans ((Counts.rset _ _ (counting_samp m h)).trans (.overflow ..))))
      · exact h₁
    split
    · exact h₁
    split
    · exact h₂.trans (ih _ _ _ (by omega))
    · exact h₂

theorem State.pcntConfigured_lt {s : State} {c : Nat × Word} (h : c ∈ s.pcntConfigured) : c.1 < 64 := by
  obtain ⟨e, -, he⟩ := List.mem_filterMap.1 h
  split at he
  · cases he
    rename_i k
    simp only [R.PCNT_CFG] at k ⊢
    omega
  · cases he

theorem State.evCount_counts (s : State) (n k : Nat) (x : Option Word) : Counts s (s.evCount n k x) := by
  unfold State.evCount
  extract_lets s₁
  have h₁ : Counts s s₁ := ⟨rfl, fun _ _ => rfl, [], by simp [s₁]⟩
  split
  · exact h₁
  · have : ∀ (l : List (Nat × Word)) (t : State), (∀ c ∈ l, c.1 < 64) → Counts s t → Counts s (l.foldl (fun s c =>
        if field c.2 14 14 = 1 ∧ field c.2 12 12 = 0 ∧ field c.2 8 0 = n then s.bumpPcnt c.1 k x 64 else s) t) := by
      intro l
      induction l with
      | nil => exact fun t _ h => h
      | cons c l ih =>
        intro t hl ht
        refine ih _ (fun d hd => hl d (List.mem_cons_of_mem _ hd)) ?_
        beta_reduce
        split
        · exact ht.trans (State.bumpPcnt_counts _ _ _ _ _ (hl c List.mem_cons_self))
        · exact ht
    exact this _ _ (fun _ => State.pcntConfigured_lt) h₁

theorem State.free_counts {s t : State} {w : Word} (h : s.free = (w, t)) : Counts s t := by
  cases h
  exact ⟨rfl, fun _ _ => rfl, [], by simp⟩

theorem State.ran_counts (s : State) (n c : Nat) : Counts s (s.ran n c) := by
  unfold State.ran
  extract_lets s₁
  have h₁ : Counts s s₁ := ((State.evCount_counts ..).trans (State.evCount_counts ..)).trans (State.evCount_counts ..)
  clear_value s₁
  exact h₁.trans ⟨rfl, fun _ _ => rfl, [], by simp⟩

theorem State.romRan_counts (s : State) : Counts s s.romRan := by
  unfold State.romRan
  split
  rename_i s₁ h₁
  split
  rename_i s₂ h₂
  exact ((State.free_counts h₁).trans (State.free_counts h₂)).trans (State.ran_counts ..)

theorem State.routine_counts (s : State) : Counts s s.routine := by
  exact (State.romRan_counts s).trans ⟨rfl, fun _ _ => rfl, [], (List.append_nil _).symm, fun e he => nomatch he⟩

theorem Counts.mem {s t : State} (h : Counts s t) : t.mem = s.mem := (congrArg State.mem h.same :)
theorem Counts.sysTime {s t : State} (h : Counts s t) : t.sysTime = s.sysTime := (congrArg State.sysTime h.same :)
theorem Counts.tiles {s t : State} (h : Counts s t) : t.tiles = s.tiles := (congrArg State.tiles h.same :)
theorem Counts.chans {s t : State} (h : Counts s t) : t.chans = s.chans := (congrArg State.chans h.same :)
theorem Counts.ctxs {s t : State} (h : Counts s t) : t.ctxs = s.ctxs := (congrArg State.ctxs h.same :)
theorem Counts.evs {s t : State} (h : Counts s t) : t.evs = s.evs := (congrArg State.evs h.same :)
theorem Counts.held {s t : State} (h : Counts s t) : t.held = s.held := (congrArg State.held h.same :)
theorem Counts.calPend {s t : State} (h : Counts s t) : t.calPend = s.calPend := (congrArg State.calPend h.same :)
theorem Counts.calNew {s t : State} (h : Counts s t) : t.calNew = s.calNew := (congrArg State.calNew h.same :)
theorem Counts.calApplied {s t : State} (h : Counts s t) : t.calApplied = s.calApplied := (congrArg State.calApplied h.same :)
theorem Counts.syncPhases {s t : State} (h : Counts s t) : t.syncPhases = s.syncPhases := (congrArg State.syncPhases h.same :)
theorem Counts.syncCount {s t : State} (h : Counts s t) : t.syncCount = s.syncCount := (congrArg State.syncCount h.same :)
theorem Counts.syncD {s t : State} (h : Counts s t) : t.syncD = s.syncD := (congrArg State.syncD h.same :)
theorem Counts.ocxo {s t : State} (h : Counts s t) : t.ocxo = s.ocxo := (congrArg State.ocxo h.same :)
theorem Counts.warmSecs {s t : State} (h : Counts s t) : t.warmSecs = s.warmSecs := (congrArg State.warmSecs h.same :)
theorem Counts.bundles {s t : State} (h : Counts s t) : t.bundles = s.bundles := (congrArg State.bundles h.same :)
theorem Counts.staging {s t : State} (h : Counts s t) : t.staging = s.staging := (congrArg State.staging h.same :)
theorem Counts.segSeal {s t : State} (h : Counts s t) : t.segSeal = s.segSeal := (congrArg State.segSeal h.same :)
theorem Counts.ackGen {s t : State} (h : Counts s t) : t.ackGen = s.ackGen := (congrArg State.ackGen h.same :)
theorem Counts.sealForever {s t : State} (h : Counts s t) : t.sealForever = s.sealForever := (congrArg State.sealForever h.same :)
theorem Counts.steps {s t : State} (h : Counts s t) : t.steps = s.steps := (congrArg State.steps h.same :)
theorem Counts.merges {s t : State} (h : Counts s t) : t.merges = s.merges := (congrArg State.merges h.same :)
theorem Counts.windows {s t : State} (h : Counts s t) : t.windows = s.windows := (congrArg State.windows h.same :)
theorem Counts.excursions {s t : State} (h : Counts s t) : t.excursions = s.excursions := (congrArg State.excursions h.same :)
theorem Counts.trigOut {s t : State} (h : Counts s t) : t.trigOut = s.trigOut := (congrArg State.trigOut h.same :)
theorem Counts.lvlClr {s t : State} (h : Counts s t) : t.lvlClr = s.lvlClr := (congrArg State.lvlClr h.same :)
theorem Counts.snts {s t : State} (h : Counts s t) : t.snts = s.snts := (congrArg State.snts h.same :)
theorem Counts.fenceReq {s t : State} (h : Counts s t) : t.fenceReq = s.fenceReq := (congrArg State.fenceReq h.same :)
theorem Counts.unfenceReq {s t : State} (h : Counts s t) : t.unfenceReq = s.unfenceReq := (congrArg State.unfenceReq h.same :)
theorem Counts.logDue {s t : State} (h : Counts s t) : t.logDue = s.logDue := (congrArg State.logDue h.same :)
theorem Counts.coreDue {s t : State} (h : Counts s t) : t.coreDue = s.coreDue := (congrArg State.coreDue h.same :)
theorem Counts.corePass {s t : State} (h : Counts s t) : t.corePass = s.corePass := (congrArg State.corePass h.same :)
theorem Counts.therm {s t : State} (h : Counts s t) : t.therm = s.therm := (congrArg State.therm h.same :)
theorem Counts.syncArmed {s t : State} (h : Counts s t) : t.syncArmed = s.syncArmed := (congrArg State.syncArmed h.same :)
theorem Counts.links {s t : State} (h : Counts s t) : t.links = s.links := (congrArg State.links h.same :)
theorem Counts.ids {s t : State} (h : Counts s t) : t.ids = s.ids := (congrArg State.ids h.same :)
theorem Counts.veing {s t : State} (h : Counts s t) : t.veing = s.veing := (congrArg State.veing h.same :)
theorem Counts.pp {s t : State} (h : Counts s t) : t.pp = s.pp := (congrArg State.pp h.same :)
theorem Counts.measures {s t : State} (h : Counts s t) : t.measures = s.measures := (congrArg State.measures h.same :)
theorem Counts.strms {s t : State} (h : Counts s t) : t.strms = s.strms := (congrArg State.strms h.same :)
theorem Counts.strmWait {s t : State} (h : Counts s t) : t.strmWait = s.strmWait := (congrArg State.strmWait h.same :)
theorem Counts.rr {s t : State} (h : Counts s t) : t.rr = s.rr := (congrArg State.rr h.same :)
theorem Counts.overrides {s t : State} (h : Counts s t) : t.overrides = s.overrides := (congrArg State.overrides h.same :)
theorem Counts.trigIn {s t : State} (h : Counts s t) : t.trigIn = s.trigIn := (congrArg State.trigIn h.same :)
theorem Counts.armedSites {s t : State} (h : Counts s t) : t.armedSites = s.armedSites := (congrArg State.armedSites h.same :)
theorem Counts.injFence {s t : State} (h : Counts s t) : t.injFence = s.injFence := (congrArg State.injFence h.same :)
theorem Counts.injHeld {s t : State} (h : Counts s t) : t.injHeld = s.injHeld := (congrArg State.injHeld h.same :)
theorem Counts.soft {s t : State} (h : Counts s t) : t.soft = s.soft := (congrArg State.soft h.same :)
theorem Counts.supStop {s t : State} (h : Counts s t) : t.supStop = s.supStop := (congrArg State.supStop h.same :)
theorem Counts.sealStuck {s t : State} (h : Counts s t) : t.sealStuck = s.sealStuck := (congrArg State.sealStuck h.same :)
theorem Counts.drbgBad {s t : State} (h : Counts s t) : t.drbgBad = s.drbgBad := (congrArg State.drbgBad h.same :)
theorem Counts.attests {s t : State} (h : Counts s t) : t.attests = s.attests := (congrArg State.attests h.same :)
theorem Counts.cert {s t : State} (h : Counts s t) : t.cert = s.cert := (congrArg State.cert h.same :)
theorem Counts.certBad {s t : State} (h : Counts s t) : t.certBad = s.certBad := (congrArg State.certBad h.same :)
theorem Counts.mrnClear {s t : State} (h : Counts s t) : t.mrnClear = s.mrnClear := (congrArg State.mrnClear h.same :)
theorem Counts.dumping {s t : State} (h : Counts s t) : t.dumping = s.dumping := (congrArg State.dumping h.same :)
theorem Counts.dump {s t : State} (h : Counts s t) : t.dump = s.dump := (congrArg State.dump h.same :)
theorem Counts.dumpFlash {s t : State} (h : Counts s t) : t.dumpFlash = s.dumpFlash := (congrArg State.dumpFlash h.same :)
theorem Counts.tap {s t : State} (h : Counts s t) : t.tap = s.tap := (congrArg State.tap h.same :)
theorem Counts.groups {s t : State} (h : Counts s t) : t.groups = s.groups := (congrArg State.groups h.same :)
theorem Counts.splits {s t : State} (h : Counts s t) : t.splits = s.splits := (congrArg State.splits h.same :)
theorem Counts.txq {s t : State} (h : Counts s t) : t.txq = s.txq := (congrArg State.txq h.same :)
theorem Counts.sent {s t : State} (h : Counts s t) : t.sent = s.sent := (congrArg State.sent h.same :)
theorem Counts.rep {s t : State} (h : Counts s t) : t.rep = s.rep := (congrArg State.rep h.same :)
theorem Counts.mrn {s t : State} (h : Counts s t) : t.mrn = s.mrn := (congrArg State.mrn h.same :)
theorem Counts.staged {s t : State} (h : Counts s t) : t.staged = s.staged := (congrArg State.staged h.same :)
theorem Counts.mrnLost {s t : State} (h : Counts s t) : t.mrnLost = s.mrnLost := (congrArg State.mrnLost h.same :)
theorem Counts.answer {s t : State} (h : Counts s t) : t.answer = s.answer := (congrArg State.answer h.same :)
theorem Counts.pending {s t : State} (h : Counts s t) : t.pending = s.pending := (congrArg State.pending h.same :)
theorem Counts.warmLog {s t : State} (h : Counts s t) : t.warmLog = s.warmLog := (congrArg State.warmLog h.same :)
theorem Counts.commitAt {s t : State} (h : Counts s t) : t.commitAt = s.commitAt := (congrArg State.commitAt h.same :)
theorem Counts.refFreqs {s t : State} (h : Counts s t) : t.refFreqs = s.refFreqs := (congrArg State.refFreqs h.same :)
theorem Counts.measured {s t : State} (h : Counts s t) : t.measured = s.measured := (congrArg State.measured h.same :)
theorem Counts.writes {s t : State} (h : Counts s t) : t.writes = s.writes := (congrArg State.writes h.same :)
theorem Counts.btAt {s t : State} (h : Counts s t) : t.btAt = s.btAt := (congrArg State.btAt h.same :)
theorem Counts.btHead {s t : State} (h : Counts s t) : t.btHead = s.btHead := (congrArg State.btHead h.same :)
theorem Counts.corrections {s t : State} (h : Counts s t) : t.corrections = s.corrections := (congrArg State.corrections h.same :)
theorem Counts.eccWords {s t : State} (h : Counts s t) : t.eccWords = s.eccWords := (congrArg State.eccWords h.same :)
theorem Counts.spareAt {s t : State} (h : Counts s t) : t.spareAt = s.spareAt := (congrArg State.spareAt h.same :)
theorem Counts.eccFrame {s t : State} (h : Counts s t) : t.eccFrame = s.eccFrame := (congrArg State.eccFrame h.same :)
theorem Counts.refvLog {s t : State} (h : Counts s t) : t.refvLog = s.refvLog := (congrArg State.refvLog h.same :)
theorem Counts.quads {s t : State} (h : Counts s t) : t.quads = s.quads := (congrArg State.quads h.same :)
theorem Counts.repairs {s t : State} (h : Counts s t) : t.repairs = s.repairs := (congrArg State.repairs h.same :)
theorem Counts.eccReal {s t : State} (h : Counts s t) : t.eccReal = s.eccReal := (congrArg State.eccReal h.same :)
theorem Counts.certDigest {s t : State} (h : Counts s t) : t.certDigest = s.certDigest := (congrArg State.certDigest h.same :)

/-! ## Sending -/

/-- What sending packets to a session does: packets join the queue, and the session's credits that wait go with them. -/
structure Sends (s t : State) : Prop where
  same : { t with ctxs := s.ctxs, txq := s.txq } = s
  txq : ∃ l, t.txq = s.txq ++ l

theorem Sends.regs {s t : State} (h : Sends s t) : t.regs = s.regs := (congrArg State.regs h.same :)
theorem Sends.mem {s t : State} (h : Sends s t) : t.mem = s.mem := (congrArg State.mem h.same :)
theorem Sends.sysTime {s t : State} (h : Sends s t) : t.sysTime = s.sysTime := (congrArg State.sysTime h.same :)
theorem Sends.tiles {s t : State} (h : Sends s t) : t.tiles = s.tiles := (congrArg State.tiles h.same :)
theorem Sends.chans {s t : State} (h : Sends s t) : t.chans = s.chans := (congrArg State.chans h.same :)
theorem Sends.evc {s t : State} (h : Sends s t) : t.evc = s.evc := (congrArg State.evc h.same :)
theorem Sends.evs {s t : State} (h : Sends s t) : t.evs = s.evs := (congrArg State.evs h.same :)
theorem Sends.held {s t : State} (h : Sends s t) : t.held = s.held := (congrArg State.held h.same :)
theorem Sends.calPend {s t : State} (h : Sends s t) : t.calPend = s.calPend := (congrArg State.calPend h.same :)
theorem Sends.calNew {s t : State} (h : Sends s t) : t.calNew = s.calNew := (congrArg State.calNew h.same :)
theorem Sends.calApplied {s t : State} (h : Sends s t) : t.calApplied = s.calApplied := (congrArg State.calApplied h.same :)
theorem Sends.syncPhases {s t : State} (h : Sends s t) : t.syncPhases = s.syncPhases := (congrArg State.syncPhases h.same :)
theorem Sends.syncCount {s t : State} (h : Sends s t) : t.syncCount = s.syncCount := (congrArg State.syncCount h.same :)
theorem Sends.syncD {s t : State} (h : Sends s t) : t.syncD = s.syncD := (congrArg State.syncD h.same :)
theorem Sends.ocxo {s t : State} (h : Sends s t) : t.ocxo = s.ocxo := (congrArg State.ocxo h.same :)
theorem Sends.warmSecs {s t : State} (h : Sends s t) : t.warmSecs = s.warmSecs := (congrArg State.warmSecs h.same :)
theorem Sends.bundles {s t : State} (h : Sends s t) : t.bundles = s.bundles := (congrArg State.bundles h.same :)
theorem Sends.staging {s t : State} (h : Sends s t) : t.staging = s.staging := (congrArg State.staging h.same :)
theorem Sends.segSeal {s t : State} (h : Sends s t) : t.segSeal = s.segSeal := (congrArg State.segSeal h.same :)
theorem Sends.ackGen {s t : State} (h : Sends s t) : t.ackGen = s.ackGen := (congrArg State.ackGen h.same :)
theorem Sends.sealForever {s t : State} (h : Sends s t) : t.sealForever = s.sealForever := (congrArg State.sealForever h.same :)
theorem Sends.steps {s t : State} (h : Sends s t) : t.steps = s.steps := (congrArg State.steps h.same :)
theorem Sends.merges {s t : State} (h : Sends s t) : t.merges = s.merges := (congrArg State.merges h.same :)
theorem Sends.windows {s t : State} (h : Sends s t) : t.windows = s.windows := (congrArg State.windows h.same :)
theorem Sends.excursions {s t : State} (h : Sends s t) : t.excursions = s.excursions := (congrArg State.excursions h.same :)
theorem Sends.trigOut {s t : State} (h : Sends s t) : t.trigOut = s.trigOut := (congrArg State.trigOut h.same :)
theorem Sends.lvlClr {s t : State} (h : Sends s t) : t.lvlClr = s.lvlClr := (congrArg State.lvlClr h.same :)
theorem Sends.snts {s t : State} (h : Sends s t) : t.snts = s.snts := (congrArg State.snts h.same :)
theorem Sends.fenceReq {s t : State} (h : Sends s t) : t.fenceReq = s.fenceReq := (congrArg State.fenceReq h.same :)
theorem Sends.unfenceReq {s t : State} (h : Sends s t) : t.unfenceReq = s.unfenceReq := (congrArg State.unfenceReq h.same :)
theorem Sends.logDue {s t : State} (h : Sends s t) : t.logDue = s.logDue := (congrArg State.logDue h.same :)
theorem Sends.coreDue {s t : State} (h : Sends s t) : t.coreDue = s.coreDue := (congrArg State.coreDue h.same :)
theorem Sends.corePass {s t : State} (h : Sends s t) : t.corePass = s.corePass := (congrArg State.corePass h.same :)
theorem Sends.therm {s t : State} (h : Sends s t) : t.therm = s.therm := (congrArg State.therm h.same :)
theorem Sends.syncArmed {s t : State} (h : Sends s t) : t.syncArmed = s.syncArmed := (congrArg State.syncArmed h.same :)
theorem Sends.links {s t : State} (h : Sends s t) : t.links = s.links := (congrArg State.links h.same :)
theorem Sends.ids {s t : State} (h : Sends s t) : t.ids = s.ids := (congrArg State.ids h.same :)
theorem Sends.veing {s t : State} (h : Sends s t) : t.veing = s.veing := (congrArg State.veing h.same :)
theorem Sends.pp {s t : State} (h : Sends s t) : t.pp = s.pp := (congrArg State.pp h.same :)
theorem Sends.measures {s t : State} (h : Sends s t) : t.measures = s.measures := (congrArg State.measures h.same :)
theorem Sends.strms {s t : State} (h : Sends s t) : t.strms = s.strms := (congrArg State.strms h.same :)
theorem Sends.strmWait {s t : State} (h : Sends s t) : t.strmWait = s.strmWait := (congrArg State.strmWait h.same :)
theorem Sends.rr {s t : State} (h : Sends s t) : t.rr = s.rr := (congrArg State.rr h.same :)
theorem Sends.maxLen {s t : State} (h : Sends s t) : t.maxLen = s.maxLen := (congrArg State.maxLen h.same :)
theorem Sends.maxClk {s t : State} (h : Sends s t) : t.maxClk = s.maxClk := (congrArg State.maxClk h.same :)
theorem Sends.overrides {s t : State} (h : Sends s t) : t.overrides = s.overrides := (congrArg State.overrides h.same :)
theorem Sends.trigIn {s t : State} (h : Sends s t) : t.trigIn = s.trigIn := (congrArg State.trigIn h.same :)
theorem Sends.armedSites {s t : State} (h : Sends s t) : t.armedSites = s.armedSites := (congrArg State.armedSites h.same :)
theorem Sends.injFence {s t : State} (h : Sends s t) : t.injFence = s.injFence := (congrArg State.injFence h.same :)
theorem Sends.injHeld {s t : State} (h : Sends s t) : t.injHeld = s.injHeld := (congrArg State.injHeld h.same :)
theorem Sends.soft {s t : State} (h : Sends s t) : t.soft = s.soft := (congrArg State.soft h.same :)
theorem Sends.supStop {s t : State} (h : Sends s t) : t.supStop = s.supStop := (congrArg State.supStop h.same :)
theorem Sends.sealStuck {s t : State} (h : Sends s t) : t.sealStuck = s.sealStuck := (congrArg State.sealStuck h.same :)
theorem Sends.drbgBad {s t : State} (h : Sends s t) : t.drbgBad = s.drbgBad := (congrArg State.drbgBad h.same :)
theorem Sends.attests {s t : State} (h : Sends s t) : t.attests = s.attests := (congrArg State.attests h.same :)
theorem Sends.cert {s t : State} (h : Sends s t) : t.cert = s.cert := (congrArg State.cert h.same :)
theorem Sends.certBad {s t : State} (h : Sends s t) : t.certBad = s.certBad := (congrArg State.certBad h.same :)
theorem Sends.mrnClear {s t : State} (h : Sends s t) : t.mrnClear = s.mrnClear := (congrArg State.mrnClear h.same :)
theorem Sends.dumping {s t : State} (h : Sends s t) : t.dumping = s.dumping := (congrArg State.dumping h.same :)
theorem Sends.dump {s t : State} (h : Sends s t) : t.dump = s.dump := (congrArg State.dump h.same :)
theorem Sends.dumpFlash {s t : State} (h : Sends s t) : t.dumpFlash = s.dumpFlash := (congrArg State.dumpFlash h.same :)
theorem Sends.tap {s t : State} (h : Sends s t) : t.tap = s.tap := (congrArg State.tap h.same :)
theorem Sends.groups {s t : State} (h : Sends s t) : t.groups = s.groups := (congrArg State.groups h.same :)
theorem Sends.items {s t : State} (h : Sends s t) : t.items = s.items := (congrArg State.items h.same :)
theorem Sends.splits {s t : State} (h : Sends s t) : t.splits = s.splits := (congrArg State.splits h.same :)
theorem Sends.sent {s t : State} (h : Sends s t) : t.sent = s.sent := (congrArg State.sent h.same :)
theorem Sends.rep {s t : State} (h : Sends s t) : t.rep = s.rep := (congrArg State.rep h.same :)
theorem Sends.mrn {s t : State} (h : Sends s t) : t.mrn = s.mrn := (congrArg State.mrn h.same :)
theorem Sends.staged {s t : State} (h : Sends s t) : t.staged = s.staged := (congrArg State.staged h.same :)
theorem Sends.mrnLost {s t : State} (h : Sends s t) : t.mrnLost = s.mrnLost := (congrArg State.mrnLost h.same :)
theorem Sends.freeCtr {s t : State} (h : Sends s t) : t.freeCtr = s.freeCtr := (congrArg State.freeCtr h.same :)
theorem Sends.answer {s t : State} (h : Sends s t) : t.answer = s.answer := (congrArg State.answer h.same :)
theorem Sends.pending {s t : State} (h : Sends s t) : t.pending = s.pending := (congrArg State.pending h.same :)
theorem Sends.warmLog {s t : State} (h : Sends s t) : t.warmLog = s.warmLog := (congrArg State.warmLog h.same :)
theorem Sends.commitAt {s t : State} (h : Sends s t) : t.commitAt = s.commitAt := (congrArg State.commitAt h.same :)
theorem Sends.refFreqs {s t : State} (h : Sends s t) : t.refFreqs = s.refFreqs := (congrArg State.refFreqs h.same :)
theorem Sends.measured {s t : State} (h : Sends s t) : t.measured = s.measured := (congrArg State.measured h.same :)
theorem Sends.writes {s t : State} (h : Sends s t) : t.writes = s.writes := (congrArg State.writes h.same :)
theorem Sends.micro {s t : State} (h : Sends s t) : t.micro = s.micro := (congrArg State.micro h.same :)
theorem Sends.btAt {s t : State} (h : Sends s t) : t.btAt = s.btAt := (congrArg State.btAt h.same :)
theorem Sends.btHead {s t : State} (h : Sends s t) : t.btHead = s.btHead := (congrArg State.btHead h.same :)
theorem Sends.corrections {s t : State} (h : Sends s t) : t.corrections = s.corrections := (congrArg State.corrections h.same :)
theorem Sends.eccWords {s t : State} (h : Sends s t) : t.eccWords = s.eccWords := (congrArg State.eccWords h.same :)
theorem Sends.spareAt {s t : State} (h : Sends s t) : t.spareAt = s.spareAt := (congrArg State.spareAt h.same :)
theorem Sends.eccFrame {s t : State} (h : Sends s t) : t.eccFrame = s.eccFrame := (congrArg State.eccFrame h.same :)
theorem Sends.refvLog {s t : State} (h : Sends s t) : t.refvLog = s.refvLog := (congrArg State.refvLog h.same :)
theorem Sends.quads {s t : State} (h : Sends s t) : t.quads = s.quads := (congrArg State.quads h.same :)
theorem Sends.repairs {s t : State} (h : Sends s t) : t.repairs = s.repairs := (congrArg State.repairs h.same :)
theorem Sends.eccReal {s t : State} (h : Sends s t) : t.eccReal = s.eccReal := (congrArg State.eccReal h.same :)
theorem Sends.certDigest {s t : State} (h : Sends s t) : t.certDigest = s.certDigest := (congrArg State.certDigest h.same :)

theorem State.send_sends (s : State) (p : Packet) : Sends s (s.send p) := ⟨rfl, _, rfl⟩

/-- The packet that `send` queues. -/
theorem State.send_packet (s : State) (p : Packet) : ∃ x ∈ (s.send p).txq, x.kind = p.kind ∧ x.opcode = p.opcode ∧
    x.status = p.status ∧ x.session = p.session ∧ x.tag = p.tag ∧ x.params = p.params ∧ x.payload = p.payload ∧ x.link = p.link :=
  ⟨_, List.mem_append_right _ (List.mem_singleton_self _), rfl, rfl, rfl, rfl, rfl, rfl, rfl, rfl⟩

/-! ## Replies -/

/-- What a reply to a session does: its slot is free again and a packet may join the queue. -/
structure Replies (n : Nat) (s t : State) : Prop where
  same : { t with regs := s.regs, ctxs := s.ctxs, txq := s.txq } = s
  regs : ∀ a, a ≠ R.SESS_STAT n → t.rget a = s.rget a
  txq : ∃ l, t.txq = s.txq ++ l

theorem Replies.mem {n : Nat} {s t : State} (h : Replies n s t) : t.mem = s.mem := (congrArg State.mem h.same :)
theorem Replies.sysTime {n : Nat} {s t : State} (h : Replies n s t) : t.sysTime = s.sysTime := (congrArg State.sysTime h.same :)
theorem Replies.tiles {n : Nat} {s t : State} (h : Replies n s t) : t.tiles = s.tiles := (congrArg State.tiles h.same :)
theorem Replies.chans {n : Nat} {s t : State} (h : Replies n s t) : t.chans = s.chans := (congrArg State.chans h.same :)
theorem Replies.evc {n : Nat} {s t : State} (h : Replies n s t) : t.evc = s.evc := (congrArg State.evc h.same :)
theorem Replies.evs {n : Nat} {s t : State} (h : Replies n s t) : t.evs = s.evs := (congrArg State.evs h.same :)
theorem Replies.held {n : Nat} {s t : State} (h : Replies n s t) : t.held = s.held := (congrArg State.held h.same :)
theorem Replies.calPend {n : Nat} {s t : State} (h : Replies n s t) : t.calPend = s.calPend := (congrArg State.calPend h.same :)
theorem Replies.calNew {n : Nat} {s t : State} (h : Replies n s t) : t.calNew = s.calNew := (congrArg State.calNew h.same :)
theorem Replies.calApplied {n : Nat} {s t : State} (h : Replies n s t) : t.calApplied = s.calApplied := (congrArg State.calApplied h.same :)
theorem Replies.syncPhases {n : Nat} {s t : State} (h : Replies n s t) : t.syncPhases = s.syncPhases := (congrArg State.syncPhases h.same :)
theorem Replies.syncCount {n : Nat} {s t : State} (h : Replies n s t) : t.syncCount = s.syncCount := (congrArg State.syncCount h.same :)
theorem Replies.syncD {n : Nat} {s t : State} (h : Replies n s t) : t.syncD = s.syncD := (congrArg State.syncD h.same :)
theorem Replies.ocxo {n : Nat} {s t : State} (h : Replies n s t) : t.ocxo = s.ocxo := (congrArg State.ocxo h.same :)
theorem Replies.warmSecs {n : Nat} {s t : State} (h : Replies n s t) : t.warmSecs = s.warmSecs := (congrArg State.warmSecs h.same :)
theorem Replies.bundles {n : Nat} {s t : State} (h : Replies n s t) : t.bundles = s.bundles := (congrArg State.bundles h.same :)
theorem Replies.staging {n : Nat} {s t : State} (h : Replies n s t) : t.staging = s.staging := (congrArg State.staging h.same :)
theorem Replies.segSeal {n : Nat} {s t : State} (h : Replies n s t) : t.segSeal = s.segSeal := (congrArg State.segSeal h.same :)
theorem Replies.ackGen {n : Nat} {s t : State} (h : Replies n s t) : t.ackGen = s.ackGen := (congrArg State.ackGen h.same :)
theorem Replies.sealForever {n : Nat} {s t : State} (h : Replies n s t) : t.sealForever = s.sealForever := (congrArg State.sealForever h.same :)
theorem Replies.steps {n : Nat} {s t : State} (h : Replies n s t) : t.steps = s.steps := (congrArg State.steps h.same :)
theorem Replies.merges {n : Nat} {s t : State} (h : Replies n s t) : t.merges = s.merges := (congrArg State.merges h.same :)
theorem Replies.windows {n : Nat} {s t : State} (h : Replies n s t) : t.windows = s.windows := (congrArg State.windows h.same :)
theorem Replies.excursions {n : Nat} {s t : State} (h : Replies n s t) : t.excursions = s.excursions := (congrArg State.excursions h.same :)
theorem Replies.trigOut {n : Nat} {s t : State} (h : Replies n s t) : t.trigOut = s.trigOut := (congrArg State.trigOut h.same :)
theorem Replies.lvlClr {n : Nat} {s t : State} (h : Replies n s t) : t.lvlClr = s.lvlClr := (congrArg State.lvlClr h.same :)
theorem Replies.snts {n : Nat} {s t : State} (h : Replies n s t) : t.snts = s.snts := (congrArg State.snts h.same :)
theorem Replies.fenceReq {n : Nat} {s t : State} (h : Replies n s t) : t.fenceReq = s.fenceReq := (congrArg State.fenceReq h.same :)
theorem Replies.unfenceReq {n : Nat} {s t : State} (h : Replies n s t) : t.unfenceReq = s.unfenceReq := (congrArg State.unfenceReq h.same :)
theorem Replies.logDue {n : Nat} {s t : State} (h : Replies n s t) : t.logDue = s.logDue := (congrArg State.logDue h.same :)
theorem Replies.coreDue {n : Nat} {s t : State} (h : Replies n s t) : t.coreDue = s.coreDue := (congrArg State.coreDue h.same :)
theorem Replies.corePass {n : Nat} {s t : State} (h : Replies n s t) : t.corePass = s.corePass := (congrArg State.corePass h.same :)
theorem Replies.therm {n : Nat} {s t : State} (h : Replies n s t) : t.therm = s.therm := (congrArg State.therm h.same :)
theorem Replies.syncArmed {n : Nat} {s t : State} (h : Replies n s t) : t.syncArmed = s.syncArmed := (congrArg State.syncArmed h.same :)
theorem Replies.links {n : Nat} {s t : State} (h : Replies n s t) : t.links = s.links := (congrArg State.links h.same :)
theorem Replies.ids {n : Nat} {s t : State} (h : Replies n s t) : t.ids = s.ids := (congrArg State.ids h.same :)
theorem Replies.veing {n : Nat} {s t : State} (h : Replies n s t) : t.veing = s.veing := (congrArg State.veing h.same :)
theorem Replies.pp {n : Nat} {s t : State} (h : Replies n s t) : t.pp = s.pp := (congrArg State.pp h.same :)
theorem Replies.measures {n : Nat} {s t : State} (h : Replies n s t) : t.measures = s.measures := (congrArg State.measures h.same :)
theorem Replies.strms {n : Nat} {s t : State} (h : Replies n s t) : t.strms = s.strms := (congrArg State.strms h.same :)
theorem Replies.strmWait {n : Nat} {s t : State} (h : Replies n s t) : t.strmWait = s.strmWait := (congrArg State.strmWait h.same :)
theorem Replies.rr {n : Nat} {s t : State} (h : Replies n s t) : t.rr = s.rr := (congrArg State.rr h.same :)
theorem Replies.maxLen {n : Nat} {s t : State} (h : Replies n s t) : t.maxLen = s.maxLen := (congrArg State.maxLen h.same :)
theorem Replies.maxClk {n : Nat} {s t : State} (h : Replies n s t) : t.maxClk = s.maxClk := (congrArg State.maxClk h.same :)
theorem Replies.overrides {n : Nat} {s t : State} (h : Replies n s t) : t.overrides = s.overrides := (congrArg State.overrides h.same :)
theorem Replies.trigIn {n : Nat} {s t : State} (h : Replies n s t) : t.trigIn = s.trigIn := (congrArg State.trigIn h.same :)
theorem Replies.armedSites {n : Nat} {s t : State} (h : Replies n s t) : t.armedSites = s.armedSites := (congrArg State.armedSites h.same :)
theorem Replies.injFence {n : Nat} {s t : State} (h : Replies n s t) : t.injFence = s.injFence := (congrArg State.injFence h.same :)
theorem Replies.injHeld {n : Nat} {s t : State} (h : Replies n s t) : t.injHeld = s.injHeld := (congrArg State.injHeld h.same :)
theorem Replies.soft {n : Nat} {s t : State} (h : Replies n s t) : t.soft = s.soft := (congrArg State.soft h.same :)
theorem Replies.supStop {n : Nat} {s t : State} (h : Replies n s t) : t.supStop = s.supStop := (congrArg State.supStop h.same :)
theorem Replies.sealStuck {n : Nat} {s t : State} (h : Replies n s t) : t.sealStuck = s.sealStuck := (congrArg State.sealStuck h.same :)
theorem Replies.drbgBad {n : Nat} {s t : State} (h : Replies n s t) : t.drbgBad = s.drbgBad := (congrArg State.drbgBad h.same :)
theorem Replies.attests {n : Nat} {s t : State} (h : Replies n s t) : t.attests = s.attests := (congrArg State.attests h.same :)
theorem Replies.cert {n : Nat} {s t : State} (h : Replies n s t) : t.cert = s.cert := (congrArg State.cert h.same :)
theorem Replies.certBad {n : Nat} {s t : State} (h : Replies n s t) : t.certBad = s.certBad := (congrArg State.certBad h.same :)
theorem Replies.mrnClear {n : Nat} {s t : State} (h : Replies n s t) : t.mrnClear = s.mrnClear := (congrArg State.mrnClear h.same :)
theorem Replies.dumping {n : Nat} {s t : State} (h : Replies n s t) : t.dumping = s.dumping := (congrArg State.dumping h.same :)
theorem Replies.dump {n : Nat} {s t : State} (h : Replies n s t) : t.dump = s.dump := (congrArg State.dump h.same :)
theorem Replies.dumpFlash {n : Nat} {s t : State} (h : Replies n s t) : t.dumpFlash = s.dumpFlash := (congrArg State.dumpFlash h.same :)
theorem Replies.tap {n : Nat} {s t : State} (h : Replies n s t) : t.tap = s.tap := (congrArg State.tap h.same :)
theorem Replies.groups {n : Nat} {s t : State} (h : Replies n s t) : t.groups = s.groups := (congrArg State.groups h.same :)
theorem Replies.items {n : Nat} {s t : State} (h : Replies n s t) : t.items = s.items := (congrArg State.items h.same :)
theorem Replies.splits {n : Nat} {s t : State} (h : Replies n s t) : t.splits = s.splits := (congrArg State.splits h.same :)
theorem Replies.sent {n : Nat} {s t : State} (h : Replies n s t) : t.sent = s.sent := (congrArg State.sent h.same :)
theorem Replies.rep {n : Nat} {s t : State} (h : Replies n s t) : t.rep = s.rep := (congrArg State.rep h.same :)
theorem Replies.mrn {n : Nat} {s t : State} (h : Replies n s t) : t.mrn = s.mrn := (congrArg State.mrn h.same :)
theorem Replies.staged {n : Nat} {s t : State} (h : Replies n s t) : t.staged = s.staged := (congrArg State.staged h.same :)
theorem Replies.mrnLost {n : Nat} {s t : State} (h : Replies n s t) : t.mrnLost = s.mrnLost := (congrArg State.mrnLost h.same :)
theorem Replies.freeCtr {n : Nat} {s t : State} (h : Replies n s t) : t.freeCtr = s.freeCtr := (congrArg State.freeCtr h.same :)
theorem Replies.answer {n : Nat} {s t : State} (h : Replies n s t) : t.answer = s.answer := (congrArg State.answer h.same :)
theorem Replies.pending {n : Nat} {s t : State} (h : Replies n s t) : t.pending = s.pending := (congrArg State.pending h.same :)
theorem Replies.warmLog {n : Nat} {s t : State} (h : Replies n s t) : t.warmLog = s.warmLog := (congrArg State.warmLog h.same :)
theorem Replies.commitAt {n : Nat} {s t : State} (h : Replies n s t) : t.commitAt = s.commitAt := (congrArg State.commitAt h.same :)
theorem Replies.refFreqs {n : Nat} {s t : State} (h : Replies n s t) : t.refFreqs = s.refFreqs := (congrArg State.refFreqs h.same :)
theorem Replies.measured {n : Nat} {s t : State} (h : Replies n s t) : t.measured = s.measured := (congrArg State.measured h.same :)
theorem Replies.writes {n : Nat} {s t : State} (h : Replies n s t) : t.writes = s.writes := (congrArg State.writes h.same :)
theorem Replies.micro {n : Nat} {s t : State} (h : Replies n s t) : t.micro = s.micro := (congrArg State.micro h.same :)
theorem Replies.btAt {n : Nat} {s t : State} (h : Replies n s t) : t.btAt = s.btAt := (congrArg State.btAt h.same :)
theorem Replies.btHead {n : Nat} {s t : State} (h : Replies n s t) : t.btHead = s.btHead := (congrArg State.btHead h.same :)
theorem Replies.corrections {n : Nat} {s t : State} (h : Replies n s t) : t.corrections = s.corrections := (congrArg State.corrections h.same :)
theorem Replies.eccWords {n : Nat} {s t : State} (h : Replies n s t) : t.eccWords = s.eccWords := (congrArg State.eccWords h.same :)
theorem Replies.spareAt {n : Nat} {s t : State} (h : Replies n s t) : t.spareAt = s.spareAt := (congrArg State.spareAt h.same :)
theorem Replies.eccFrame {n : Nat} {s t : State} (h : Replies n s t) : t.eccFrame = s.eccFrame := (congrArg State.eccFrame h.same :)
theorem Replies.refvLog {n : Nat} {s t : State} (h : Replies n s t) : t.refvLog = s.refvLog := (congrArg State.refvLog h.same :)
theorem Replies.quads {n : Nat} {s t : State} (h : Replies n s t) : t.quads = s.quads := (congrArg State.quads h.same :)
theorem Replies.repairs {n : Nat} {s t : State} (h : Replies n s t) : t.repairs = s.repairs := (congrArg State.repairs h.same :)
theorem Replies.eccReal {n : Nat} {s t : State} (h : Replies n s t) : t.eccReal = s.eccReal := (congrArg State.eccReal h.same :)
theorem Replies.certDigest {n : Nat} {s t : State} (h : Replies n s t) : t.certDigest = s.certDigest := (congrArg State.certDigest h.same :)

theorem State.reply_replies (s : State) (op : BitVec 8) (q : Req) (st : BitVec 8) (ps : List Word) (pl : List Byte) :
    Replies q.session.toNat s (s.reply op q st ps pl) := by
  unfold State.reply
  extract_lets n took back s₁
  have h₁ : Replies n s s₁ := by
    unfold s₁
    split
    · exact ⟨rfl, fun a h => State.rget_fset_other _ _ h, [], by simp⟩
    · exact ⟨rfl, fun _ _ => rfl, [], by simp⟩
  clear_value s₁ back
  have e : State.mk = State.mk := rfl
  split
  · exact ⟨(congrArg (fun x : State => ({ x with ctxs := s.ctxs } : State)) h₁.same), h₁.regs, h₁.txq⟩
  · obtain ⟨l, hl⟩ := h₁.txq
    exact ⟨h₁.same, h₁.regs, _, by rw [show (State.send s₁ _).txq = s₁.txq ++ _ from rfl, hl, List.append_assoc]⟩

theorem State.reply_answered (s : State) (op : BitVec 8) (q : Req) (st : BitVec 8) (ps : List Word) (pl : List Byte) :
    Answered (s.reply op q st ps pl) op q st ps pl := by
  intro h
  unfold State.reply
  extract_lets n took back s₁
  rw [if_neg (by rw [h]; simp)]
  obtain ⟨x, hx, h1, h2, h3, h4, h5, h6, h7, -⟩ := State.send_packet s₁
    { kind := 1, opcode := op ||| 0x80, status := st, session := q.session, tag := q.tag, link := q.link.val,
      params := ps, payload := pl, slots := back, behind := s₁.writesBefore op q }
  exact ⟨x, hx, h1, h2, h3, h4, h5, h6, h7⟩

/-- An answer stays while packets are only added. -/
theorem Answered.mono {s t : State} {op : BitVec 8} {q : Req} {st : BitVec 8} {ps : List Word} {pl : List Byte}
    (h : Answered s op q st ps pl) (k : ∀ p ∈ s.txq, p ∈ t.txq) : Answered t op q st ps pl := fun hq =>
  (h hq).imp fun p ⟨hp, e⟩ => ⟨k p hp, e⟩

/-! ## Split-phase operations -/

theorem State.start_begun (s : State) (op : BitVec 8) (q : Req) (aux : List Nat) (stage : Nat) :
    Begun (s.start op q aux stage) op q := by
  unfold State.start State.register
  extract_lets x s₁
  refine ⟨⟨x, ?_, rfl, rfl, rfl, rfl⟩, State.reply_answered _ op q St.accepted [] []⟩
  rw [(State.reply_replies ..).splits, (State.evCount_counts ..).splits]
  exact List.mem_append_right _ (List.mem_singleton_self _)

/-- What a completion does: the operation ends and its completion event waits for the engine. -/
structure Completes (s t : State) : Prop where
  same : { t with regs := s.regs, splits := s.splits, items := s.items } = s
  regs : ∀ a, a ≠ R.ENG_STATUS → t.rget a = s.rget a
  items : ∃ l, t.items = s.items ++ l

theorem Completes.mem {s t : State} (h : Completes s t) : t.mem = s.mem := (congrArg State.mem h.same :)
theorem Completes.sysTime {s t : State} (h : Completes s t) : t.sysTime = s.sysTime := (congrArg State.sysTime h.same :)
theorem Completes.tiles {s t : State} (h : Completes s t) : t.tiles = s.tiles := (congrArg State.tiles h.same :)
theorem Completes.chans {s t : State} (h : Completes s t) : t.chans = s.chans := (congrArg State.chans h.same :)
theorem Completes.ctxs {s t : State} (h : Completes s t) : t.ctxs = s.ctxs := (congrArg State.ctxs h.same :)
theorem Completes.evc {s t : State} (h : Completes s t) : t.evc = s.evc := (congrArg State.evc h.same :)
theorem Completes.evs {s t : State} (h : Completes s t) : t.evs = s.evs := (congrArg State.evs h.same :)
theorem Completes.held {s t : State} (h : Completes s t) : t.held = s.held := (congrArg State.held h.same :)
theorem Completes.calPend {s t : State} (h : Completes s t) : t.calPend = s.calPend := (congrArg State.calPend h.same :)
theorem Completes.calNew {s t : State} (h : Completes s t) : t.calNew = s.calNew := (congrArg State.calNew h.same :)
theorem Completes.calApplied {s t : State} (h : Completes s t) : t.calApplied = s.calApplied := (congrArg State.calApplied h.same :)
theorem Completes.syncPhases {s t : State} (h : Completes s t) : t.syncPhases = s.syncPhases := (congrArg State.syncPhases h.same :)
theorem Completes.syncCount {s t : State} (h : Completes s t) : t.syncCount = s.syncCount := (congrArg State.syncCount h.same :)
theorem Completes.syncD {s t : State} (h : Completes s t) : t.syncD = s.syncD := (congrArg State.syncD h.same :)
theorem Completes.ocxo {s t : State} (h : Completes s t) : t.ocxo = s.ocxo := (congrArg State.ocxo h.same :)
theorem Completes.warmSecs {s t : State} (h : Completes s t) : t.warmSecs = s.warmSecs := (congrArg State.warmSecs h.same :)
theorem Completes.bundles {s t : State} (h : Completes s t) : t.bundles = s.bundles := (congrArg State.bundles h.same :)
theorem Completes.staging {s t : State} (h : Completes s t) : t.staging = s.staging := (congrArg State.staging h.same :)
theorem Completes.segSeal {s t : State} (h : Completes s t) : t.segSeal = s.segSeal := (congrArg State.segSeal h.same :)
theorem Completes.ackGen {s t : State} (h : Completes s t) : t.ackGen = s.ackGen := (congrArg State.ackGen h.same :)
theorem Completes.sealForever {s t : State} (h : Completes s t) : t.sealForever = s.sealForever := (congrArg State.sealForever h.same :)
theorem Completes.steps {s t : State} (h : Completes s t) : t.steps = s.steps := (congrArg State.steps h.same :)
theorem Completes.merges {s t : State} (h : Completes s t) : t.merges = s.merges := (congrArg State.merges h.same :)
theorem Completes.windows {s t : State} (h : Completes s t) : t.windows = s.windows := (congrArg State.windows h.same :)
theorem Completes.excursions {s t : State} (h : Completes s t) : t.excursions = s.excursions := (congrArg State.excursions h.same :)
theorem Completes.trigOut {s t : State} (h : Completes s t) : t.trigOut = s.trigOut := (congrArg State.trigOut h.same :)
theorem Completes.lvlClr {s t : State} (h : Completes s t) : t.lvlClr = s.lvlClr := (congrArg State.lvlClr h.same :)
theorem Completes.snts {s t : State} (h : Completes s t) : t.snts = s.snts := (congrArg State.snts h.same :)
theorem Completes.fenceReq {s t : State} (h : Completes s t) : t.fenceReq = s.fenceReq := (congrArg State.fenceReq h.same :)
theorem Completes.unfenceReq {s t : State} (h : Completes s t) : t.unfenceReq = s.unfenceReq := (congrArg State.unfenceReq h.same :)
theorem Completes.logDue {s t : State} (h : Completes s t) : t.logDue = s.logDue := (congrArg State.logDue h.same :)
theorem Completes.coreDue {s t : State} (h : Completes s t) : t.coreDue = s.coreDue := (congrArg State.coreDue h.same :)
theorem Completes.corePass {s t : State} (h : Completes s t) : t.corePass = s.corePass := (congrArg State.corePass h.same :)
theorem Completes.therm {s t : State} (h : Completes s t) : t.therm = s.therm := (congrArg State.therm h.same :)
theorem Completes.syncArmed {s t : State} (h : Completes s t) : t.syncArmed = s.syncArmed := (congrArg State.syncArmed h.same :)
theorem Completes.links {s t : State} (h : Completes s t) : t.links = s.links := (congrArg State.links h.same :)
theorem Completes.ids {s t : State} (h : Completes s t) : t.ids = s.ids := (congrArg State.ids h.same :)
theorem Completes.veing {s t : State} (h : Completes s t) : t.veing = s.veing := (congrArg State.veing h.same :)
theorem Completes.pp {s t : State} (h : Completes s t) : t.pp = s.pp := (congrArg State.pp h.same :)
theorem Completes.measures {s t : State} (h : Completes s t) : t.measures = s.measures := (congrArg State.measures h.same :)
theorem Completes.strms {s t : State} (h : Completes s t) : t.strms = s.strms := (congrArg State.strms h.same :)
theorem Completes.strmWait {s t : State} (h : Completes s t) : t.strmWait = s.strmWait := (congrArg State.strmWait h.same :)
theorem Completes.rr {s t : State} (h : Completes s t) : t.rr = s.rr := (congrArg State.rr h.same :)
theorem Completes.maxLen {s t : State} (h : Completes s t) : t.maxLen = s.maxLen := (congrArg State.maxLen h.same :)
theorem Completes.maxClk {s t : State} (h : Completes s t) : t.maxClk = s.maxClk := (congrArg State.maxClk h.same :)
theorem Completes.overrides {s t : State} (h : Completes s t) : t.overrides = s.overrides := (congrArg State.overrides h.same :)
theorem Completes.trigIn {s t : State} (h : Completes s t) : t.trigIn = s.trigIn := (congrArg State.trigIn h.same :)
theorem Completes.armedSites {s t : State} (h : Completes s t) : t.armedSites = s.armedSites := (congrArg State.armedSites h.same :)
theorem Completes.injFence {s t : State} (h : Completes s t) : t.injFence = s.injFence := (congrArg State.injFence h.same :)
theorem Completes.injHeld {s t : State} (h : Completes s t) : t.injHeld = s.injHeld := (congrArg State.injHeld h.same :)
theorem Completes.soft {s t : State} (h : Completes s t) : t.soft = s.soft := (congrArg State.soft h.same :)
theorem Completes.supStop {s t : State} (h : Completes s t) : t.supStop = s.supStop := (congrArg State.supStop h.same :)
theorem Completes.sealStuck {s t : State} (h : Completes s t) : t.sealStuck = s.sealStuck := (congrArg State.sealStuck h.same :)
theorem Completes.drbgBad {s t : State} (h : Completes s t) : t.drbgBad = s.drbgBad := (congrArg State.drbgBad h.same :)
theorem Completes.attests {s t : State} (h : Completes s t) : t.attests = s.attests := (congrArg State.attests h.same :)
theorem Completes.cert {s t : State} (h : Completes s t) : t.cert = s.cert := (congrArg State.cert h.same :)
theorem Completes.certBad {s t : State} (h : Completes s t) : t.certBad = s.certBad := (congrArg State.certBad h.same :)
theorem Completes.mrnClear {s t : State} (h : Completes s t) : t.mrnClear = s.mrnClear := (congrArg State.mrnClear h.same :)
theorem Completes.dumping {s t : State} (h : Completes s t) : t.dumping = s.dumping := (congrArg State.dumping h.same :)
theorem Completes.dump {s t : State} (h : Completes s t) : t.dump = s.dump := (congrArg State.dump h.same :)
theorem Completes.dumpFlash {s t : State} (h : Completes s t) : t.dumpFlash = s.dumpFlash := (congrArg State.dumpFlash h.same :)
theorem Completes.tap {s t : State} (h : Completes s t) : t.tap = s.tap := (congrArg State.tap h.same :)
theorem Completes.groups {s t : State} (h : Completes s t) : t.groups = s.groups := (congrArg State.groups h.same :)
theorem Completes.txq {s t : State} (h : Completes s t) : t.txq = s.txq := (congrArg State.txq h.same :)
theorem Completes.sent {s t : State} (h : Completes s t) : t.sent = s.sent := (congrArg State.sent h.same :)
theorem Completes.rep {s t : State} (h : Completes s t) : t.rep = s.rep := (congrArg State.rep h.same :)
theorem Completes.mrn {s t : State} (h : Completes s t) : t.mrn = s.mrn := (congrArg State.mrn h.same :)
theorem Completes.staged {s t : State} (h : Completes s t) : t.staged = s.staged := (congrArg State.staged h.same :)
theorem Completes.mrnLost {s t : State} (h : Completes s t) : t.mrnLost = s.mrnLost := (congrArg State.mrnLost h.same :)
theorem Completes.freeCtr {s t : State} (h : Completes s t) : t.freeCtr = s.freeCtr := (congrArg State.freeCtr h.same :)
theorem Completes.answer {s t : State} (h : Completes s t) : t.answer = s.answer := (congrArg State.answer h.same :)
theorem Completes.pending {s t : State} (h : Completes s t) : t.pending = s.pending := (congrArg State.pending h.same :)
theorem Completes.warmLog {s t : State} (h : Completes s t) : t.warmLog = s.warmLog := (congrArg State.warmLog h.same :)
theorem Completes.commitAt {s t : State} (h : Completes s t) : t.commitAt = s.commitAt := (congrArg State.commitAt h.same :)
theorem Completes.refFreqs {s t : State} (h : Completes s t) : t.refFreqs = s.refFreqs := (congrArg State.refFreqs h.same :)
theorem Completes.measured {s t : State} (h : Completes s t) : t.measured = s.measured := (congrArg State.measured h.same :)
theorem Completes.writes {s t : State} (h : Completes s t) : t.writes = s.writes := (congrArg State.writes h.same :)
theorem Completes.micro {s t : State} (h : Completes s t) : t.micro = s.micro := (congrArg State.micro h.same :)
theorem Completes.btAt {s t : State} (h : Completes s t) : t.btAt = s.btAt := (congrArg State.btAt h.same :)
theorem Completes.btHead {s t : State} (h : Completes s t) : t.btHead = s.btHead := (congrArg State.btHead h.same :)
theorem Completes.corrections {s t : State} (h : Completes s t) : t.corrections = s.corrections := (congrArg State.corrections h.same :)
theorem Completes.eccWords {s t : State} (h : Completes s t) : t.eccWords = s.eccWords := (congrArg State.eccWords h.same :)
theorem Completes.spareAt {s t : State} (h : Completes s t) : t.spareAt = s.spareAt := (congrArg State.spareAt h.same :)
theorem Completes.eccFrame {s t : State} (h : Completes s t) : t.eccFrame = s.eccFrame := (congrArg State.eccFrame h.same :)
theorem Completes.refvLog {s t : State} (h : Completes s t) : t.refvLog = s.refvLog := (congrArg State.refvLog h.same :)
theorem Completes.quads {s t : State} (h : Completes s t) : t.quads = s.quads := (congrArg State.quads h.same :)
theorem Completes.repairs {s t : State} (h : Completes s t) : t.repairs = s.repairs := (congrArg State.repairs h.same :)
theorem Completes.eccReal {s t : State} (h : Completes s t) : t.eccReal = s.eccReal := (congrArg State.eccReal h.same :)
theorem Completes.certDigest {s t : State} (h : Completes s t) : t.certDigest = s.certDigest := (congrArg State.certDigest h.same :)

theorem State.complete_completes (s : State) (x : Split) (st : BitVec 8) (ps : List Word) (pl : List Byte) (after : After) :
    Completes s (s.complete x st ps pl after) := by
  unfold State.complete
  extract_lets s₁ s₂ p
  have r : ∀ a, a ≠ R.ENG_STATUS → s₂.rget a = s.rget a := fun a h => State.rget_fset_other _ _ h
  clear_value p
  exact ⟨rfl, r, [.completion p x.live x.quiet after], rfl⟩

theorem State.complete_over (s : State) (x : Split) (st : BitVec 8) (ps : List Word) (pl : List Byte) (after : After) :
    Over (s.complete x st ps pl after) x := by
  intro y hy
  have : y ∈ s.splits.filter fun (y : Split) => y.id != x.id := hy
  have := (List.mem_filter.1 this).2
  simpa using this

theorem State.complete_completed (s : State) (x : Split) (st : BitVec 8) (ps : List Word) (pl : List Byte) (after : After) :
    Completed (s.complete x st ps pl after) x st := by
  intro hl
  unfold State.complete
  extract_lets s₁ s₂ p
  exact ⟨p, after, List.mem_append_right _ (hl ▸ List.mem_singleton_self _), rfl, rfl, rfl, rfl, rfl⟩

end Sys2Proof.Machine
end

