-- ==== Sys2Proof/WellFormed.lean ====
section
/-! DEFINITION. Which commands are well-formed: a frame carries no more payload than a frame holds (12_serial_links.md R290), a
request no more than its header can say (10_uhleus_protocol.md Table 10.1), and every other operand is bounded by its type. -/

namespace Sys2Proof

/-- A frame of CLASS 1 to 3 carries at most 224 bytes, a frame of CLASS 0 none; only EOP frames may be shorter or stomped
(Table 12.2). -/
def Frame.wf (f : Frame) : Bool :=
  if f.cls = 0 then f.bytes.isEmpty && !f.sop && !f.eop
  else decide (f.bytes.length ≤ 224) && (f.eop || decide (f.bytes.length = 224)) && (f.eop || !f.stomp) &&
    f.bytes.length % 4 == 0

/-- The header's PCOUNT (8 bits) and PLEN (24 bits) can name at most 255 parameter words and 2^24 - 1 payload bytes (10_uhleus_protocol.md
Table 10.1). A request that exceeds a limit of the protocol below these is well-formed and is refused by Phase 1. -/
def Req.wf (q : Req) : Bool := decide (q.params.length ≤ 255) && decide (q.payload.length < 2 ^ 24)

/-- The request that a command carries, if it is one. -/
def Instr.req? : Instr → Option Req
  | .streamPacket _ _ q => some q | .hello q => some q | .bye q => some q | .ping q => some q | .regRead q => some q | .regWrite q => some q
  | .regSetBits q => some q | .regClearBits q => some q | .regGather q => some q | .memWrite q => some q
  | .memRead q => some q | .segWrite q => some q | .segCommit q => some q | .streamOpen q => some q
  | .streamClose q => some q | .stepArm q => some q | .stepStart q => some q | .stepStatus q => some q
  | .abort q => some q | .eventWait q => some q | .captureRead q => some q | .failRead q => some q
  | .profileRead q => some q | .measure q => some q | .calRun q => some q | .calCommit q => some q
  | .calRead q => some q | .sealLoad q => some q | .attest q => some q | .lifecycle q => some q
  | .identity q => some q | .patchLoad q => some q | .selftest q => some q | .fence q => some q | .calve q => some q
  | .dumpRead q => some q | .frost q => some q | .powerState q => some q | .inject q => some q
  | .undefinedOpcode _ q => some q
  | _ => none

/-- A command is well-formed: what it carries fits the packets and frames that carry it. -/
def Instr.wellFormed (i : Instr) : Bool :=
  match i with
  | .frameReceive _ f => f.wf
  | i => (i.req?.map Req.wf).getD true

end Sys2Proof
end

