-- ==== Sys2Proof/Tests/Slice0.lean ====
section
/-! SUPPORT. Tests on fixed values. `witness_<Name>` shows, for each clause of the statement <Name> that has hypotheses, a state and operands
that meet all of them together; the other tests take their expected values from the manual's worked examples and check values. -/

namespace Sys2Proof.Tests

open Sys2Proof Sys2Proof.Machine

set_option Elab.async false

/-- The state after reset with some register fields set. -/
def st (l : List (Fld × Nat)) : State := l.foldl (fun s e => s.fset e.1 e.2) State.reset

/-- The same with session 0 open at the highest privilege, seven of its slots held. -/
def op (l : List (Fld × Nat)) : State :=
  st ([(R.SESS_STAT_OPEN 0, 1), (R.SESS_STAT_PRIV 0, 4), (R.SESS_STAT_WIN 0, 128), (R.SESS_STAT_SLOTS 0, 7)] ++ l)

/-- A request of session 0. -/
def rq (ps : List Word) (pl : List Byte := []) : Req := { params := ps, payload := pl }

/-- `n` bytes, zero but where listed. -/
def pl (n : Nat) (l : List (Nat × Nat)) : List Byte :=
  (List.range n).map fun i => BitVec.ofNat 8 (((l.find? fun e => e.1 == i).map (·.2)).getD 0)

/-- The descriptor of the register at an address. -/
def dsc (a : Nat) : RegDesc := ((regAt a).map (·.2.2.2)).getD { off := 0, n := 0, stride := 0 }

def pingCompletion : Packet := { kind := 2, opcode := 0xB0, status := 0, session := 0, tag := 7 }

/-! ## A device in OWNED, and a bundle for it, with cryptographic functions that are uninterpreted -/
/-- The base point of P-384 in the uncompressed point encoding (FIPS 186-5): a valid public key. -/
def point384 : List Byte :=
  4 :: octets 48 0xAA87CA22BE8B05378EB1C71EF320AD746E1D3B628BA79B9859F741E082542A385502F25DBF55296C3A545E3872760AB7 ++
    octets 48 0x3617DE4A96262C6F5D9E98BF9292DC29F8F41DBD289A147CE9DA3113B5F0B8C00A60B1CE1D7E819D7A431D7C90EA0E5F

/-- A device in OWNED whose owner's key is that point, whatever its digest is. -/
def owned : State :=
  let s := op [(R.LC_STATUS_STATE, 2), (R.LC_STATUS_PUF_OK, 1)]
  { s with regs := s.regs ++ (List.range 12).map fun k => (R.OWNER_DIGEST k, BitVec.ofNat 32 (leNat (((digest point384).drop (4 * k)).take 4))) }

/-- A part 0 of one section for tile 0 and one recipient, up to its recipient entry. -/
def part0 : List Byte := pl 64 [(0, 1), (4, 1), (16, 1)] ++ point384 ++ point384 ++ pl 158 [(150, 1)]

/-- The same with its recipient entry, for a device identity of zeros: a wrapped key of zeros under its tag. -/
def sealPart0 : List Byte :=
  part0 ++ (List.replicate 48 0 ++ gcmTag (owned.kek part0) (List.replicate 12 0) (digest (sub part0 0 311)) (List.replicate 32 0))

theorem bytes_of_word (l : List Byte) (h : l.length = 4) : wordBytes (BitVec.ofNat 32 (leNat l)) = l := by
  match l, h with
  | [a, b, c, d], _ =>
    have := a.isLt; have := b.isLt; have := c.isLt; have := d.isLt
    simp only [wordBytes, leBytes, leNat, BitVec.toNat_ofNat]
    refine congr (congrArg _ ?_) (congr (congrArg _ ?_) (congr (congrArg _ ?_) (congr (congrArg _ ?_) rfl))) <;>
      (apply BitVec.eq_of_toNat_eq; rw [BitVec.toNat_ofNat]; omega)

theorem bytes_of_words (l : List Byte) (n : Nat) (h : 4 * n ≤ l.length) :
    ((List.range n).flatMap fun k => wordBytes (BitVec.ofNat 32 (leNat ((l.drop (4 * k)).take 4)))) = l.take (4 * n) := by
  induction n with
  | zero => rfl
  | succ n ih =>
    rw [List.range_succ, List.flatMap_append, ih (by omega), List.flatMap_cons, List.flatMap_nil, List.append_nil,
      bytes_of_word _ (by rw [List.length_take, List.length_drop]; omega), Nat.mul_succ, List.take_add]

theorem leBytes_length (n v : Nat) : (leBytes n v).length = n := by
  induction n generalizing v with
  | zero => rfl
  | succ n ih => simp [leBytes, ih]

theorem owned_key : owned.ownerKey (sub sealPart0 64 160) = true := by
  have key : sub sealPart0 64 160 = point384 := by decide +kernel
  have valid : pointOk point384 = true := by decide +kernel
  have len : (digest point384).length = 48 := by simp [digest, octets, leBytes_length]
  have dig : owned.ownerDigest = digest point384 := by
    have h := bytes_of_words (digest point384) 12 (by omega)
    rw [List.take_of_length_le (by omega)] at h
    exact h
  simp [State.ownerKey, keyIs, key, valid, dig]

theorem owned_unwrap : (owned.unwrap sealPart0).isSome = true := by
  have n : recipients sealPart0 = 1 := by decide +kernel
  have len : part0.length = 416 := by decide +kernel
  have eph : sub sealPart0 161 257 = point384 := by decide +kernel
  have eph' : sub part0 161 257 = point384 := by decide +kernel
  have salt : sub sealPart0 8 15 = sub part0 8 15 := by decide +kernel
  have head : sub sealPart0 0 311 = sub part0 0 311 := by decide +kernel
  have valid : pointOk point384 = true := by decide +kernel
  have id : owned.deviceId = List.replicate 16 0 := by decide +kernel
  have kek : owned.kek sealPart0 = owned.kek part0 := by simp only [State.kek, eph, eph', salt]
  have tagLen : ∀ k i a c, (gcmTag k i a c).length = 16 := fun _ _ _ _ => by simp [gcmTag, octets, leBytes_length]
  have e : (sealPart0.drop 416).take 64 = List.replicate 48 0 ++
      gcmTag (owned.kek part0) (List.replicate 12 0) (digest (sub part0 0 311)) (List.replicate 32 0) := by
    rw [sealPart0, List.drop_left' len, List.take_of_length_le]
    rw [List.length_append, tagLen, List.length_replicate]
  have found : owned.recipient sealPart0 = some ((sealPart0.drop 416).take 64) := by
    rw [State.recipient, n, id]
    exact List.find?_cons_of_pos (by decide +kernel)
  have key : sub ((sealPart0.drop 416).take 64) 16 47 = List.replicate 32 0 := by decide +kernel
  have tag : sub ((sealPart0.drop 416).take 64) 48 63 =
      gcmTag (owned.kek part0) (List.replicate 12 0) (digest (sub part0 0 311)) (List.replicate 32 0) := by
    rw [e, sub, List.drop_left' (by rw [List.length_replicate]), List.take_of_length_le (by rw [tagLen])]
  rw [State.unwrap, found]
  simp only [Option.bind_some, kek, head, key, tag, eph, valid, beq_self_eq_true, Bool.and_self, if_true, Option.isSome_some]

/-! ## Witnesses -/
def filling : State := op [(segFld 0 0, sgFilling)]

theorem filling_matches : filling.routine.segMatches 0 (filling.segNamed 0 (rq [1, 0, 0, filling.segCrc 0 0, 0])) (filling.segCrc 0 0) = true := by
  have h : filling.segNamed 0 (rq [1, 0, 0, filling.segCrc 0 0, 0]) = 0 := by decide +kernel
  have c : filling.routine.segCrc 0 0 = filling.segCrc 0 0 := rfl
  have x : (!filling.routine.segSealed 0 0) = true ∧ (filling.routine.segSealOf 0 0).bad.isEmpty = true := by decide +kernel
  simp only [h, State.segMatches, c, x.1, x.2, beq_self_eq_true, Bool.true_or, Bool.and_false, Bool.not_false, Bool.and_true, Bool.not_true]

theorem filling_mismatch : filling.routine.segMatches 0 (filling.segNamed 0 (rq [1, 0, 0, ~~~filling.segCrc 0 0, 0])) (~~~filling.segCrc 0 0) = false := by
  have h : filling.segNamed 0 (rq [1, 0, 0, ~~~filling.segCrc 0 0, 0]) = 0 := by decide +kernel
  have c : filling.routine.segCrc 0 0 = filling.segCrc 0 0 := rfl
  have n : ∀ v : Word, (v == ~~~v) = false := fun v => beq_eq_false_iff_ne.2 fun e => by
    have := congrArg (fun w : Word => w.getLsbD 0) e
    simp at this
  simp only [h, State.segMatches, c, n, Bool.false_and]


theorem witness_KeepsCanonicalForm :
    (∃ (s : State) (t : State), (Memory.wf s.mem = true) ∧ (Regs.wf s.regs = true) ∧ (step s = .next t)) :=
  ⟨State.reset, _, rfl, rfl, rfl⟩

theorem witness_StepRunsFront :
    (∃ (c : Instr) (rest : List Instr) (s : State), (s.pending = c :: rest)) :=
  ⟨.ppFlush, [], { State.reset with pending := [.ppFlush] }, by decide +kernel⟩

theorem witness_IdleEdge :
    (∃ (s : State), (s.pending = [])) :=
  ⟨State.reset, by decide +kernel⟩

theorem witness_RequestRefused :
    (∃ (q : Req) (s : State) (op : BitVec 8) (c : Instr) (st : BitVec 8), ((op, c) ∈ [(0x03, .ping q), (0x11, .regWrite q), (0x20, .memWrite
    q), (0x23, .segCommit q), (0x31, .stepStart q), (0x40, .captureRead q), (0x41, .failRead q), (0x52, .calRead q), (0x34, .eventWait
    q)]) ∧ ((op = 0x23 → segStrm q = false)) ∧ (s.overridden op q = false) ∧ (s.accept op q = some st)) :=
  ⟨rq [0], op [], 0x03, .ping (rq [0]), St.badLength, by decide +kernel⟩

theorem witness_SessionsOpenClose :
    (∃ (q : Req) (s : State) (n : Nat), (s.runs 0x01 q = true) ∧ (n < 32) ∧ (s.sessOpen n = false) ∧ ((((q.p 0).getLsbD 21 = false ∧ n = nbits
    (q.n 0) 20 16) ∨ ((q.p 0).getLsbD 21 = true ∧ ∀ k < n, s.sessOpen k = true))) ∧ (q.n 0 < 2 ^ 23) ∧ (q.n 0 / 8 % 32 = 0) ∧ (q.n 0 % 8 ≤
    4) ∧ (8 ≤ nbits (q.n 0) 15 8) ∧ (nbits (q.n 0) 15 8 ≤ 128) ∧ (8 ≤ s.fget R.POOL_FREE_CELLS) ∧ ((s.need (q.n 0 % 8) = .none ∨ (s.need
    (q.n 0 % 8) ≠ .refused ∧ s.credentialOk (s.need (q.n 0 % 8)) (q.n 0 % 8) q.payload q.verdict = true)))) ∧
    (∃ (q : Req) (s : State), (s.runs 0x02 q = true)) ∧
    (∃ (k : BitVec 5) (s : State), (s.fget R.PROTO_CFG_TIMEOUT ≠ 0) ∧ (s.sessOpen k.toNat = true)) :=
  ⟨⟨rq [0x001F0800], op [], 31, by decide +kernel⟩,
    ⟨rq [], op [], by decide +kernel⟩,
    ⟨0, op [(R.PROTO_CFG_TIMEOUT, 5)], by decide +kernel⟩⟩

theorem witness_PingEchoes :
    (∃ (q : Req) (s : State), (s.runs 0x03 q = true)) :=
  ⟨rq [], op [], by decide +kernel⟩

theorem witness_MisalignedRegisterCommand :
    (∃ (q : Req) (s : State) (op : BitVec 8) (c : Instr), (((op, c) ∈ [(0x10, .regRead q), (0x11, .regWrite q)] ∧ countBad q = false) ∨ (op,
    c) ∈ [(0x12, .regSetBits q), (0x13, .regClearBits q), (0x14, .regGather q)]) ∧ (s.runs op q = true) ∧ (q.n 0 % 4 ≠ 0)) :=
  ⟨rq [2,1,0], op [], 0x10, .regRead (rq [2,1,0]), by decide +kernel⟩

theorem witness_RegisterReads :
    (∃ (q : Req) (s : State) (room : Nat), (s.runs 0x10 q = true) ∧ (countBad q = false) ∧ (wordsFrom (q.n 0) = some room) ∧
      let r := s.routine;
      let l := wordAddrs (q.n 0) (q.n 1) (q.n 2 == 1) room;
      (firstRefused (fun a => r.readWordRefused (r.whoOf q) (aliasOf a).1) 0 l = none)) ∧
    (∃ (q : Req) (s : State), (s.runs 0x14 q = true) ∧
      let r := s.routine;
      let l := q.params.map (·.toNat);
      ((∀ a ∈ l, (wordsFrom a).isSome = true ∧ r.readWordRefused (r.whoOf q) (aliasOf a).1 = none))) ∧
    (∃ (q : Req) (s : State),
      let plain (a : Nat) : Bool := !s.wordSealed a && (regAt a).any fun x => [Blk.chip, .link, .sec, .safe, .pwr, .memc, .core].contains x.1;
      (s.runs 0x10 q = true) ∧ (q.n 1 = 1) ∧ (q.n 2 ≤ 1) ∧ (plain (q.n 0) = true)) ∧
    (∃ (q : Req) (s : State),
      let plain (a : Nat) : Bool := !s.wordSealed a && (regAt a).any fun x => [Blk.chip, .link, .sec, .safe, .pwr, .memc, .core].contains x.1;
      (s.runs 0x14 q = true) ∧ ((∀ w ∈ q.params, plain w.toNat = true))) :=
  ⟨⟨rq [0,1,0], op [], 6336, by decide +kernel⟩,
    ⟨rq [0,4,8], op [], by decide +kernel⟩,
    ⟨rq [0x62FC,1,0], op [], by decide +kernel⟩,
    ⟨rq [0x62FC,0x91B000], op [], by decide +kernel, List.forall_mem_cons.2 ⟨by decide +kernel, List.forall_mem_singleton.2 (by
      decide +kernel)⟩⟩⟩

theorem witness_RegisterWrites :
    (∃ (q : Req) (s : State) (i : Nat) (k : Nat) (d : RegDesc) (hw : Word),
      let a := q.n 0;
      let r := s.routine;
      let n := q.session.toNat;
      (regAt a = some (.chip, i, k, d)) ∧ (a ∉ [R.LINKEV_SEND, R.SR_CFG, R.CAL_LIMIT, R.SESS_STAT n]) ∧ (q.resets = none) ∧
      let v := BitVec.ofNat 32 (leNat q.payload);
      (s.runs 0x11 q = true) ∧ (q.n 1 = 1) ∧ (q.n 2 ≤ 1) ∧ (r.writeWordRefused (r.whoOf q) a v 0 = none) ∧ ((q.coincide = [] ∧ hw = 0) ∨
    q.coincide = [(a, hw)])) ∧
    (∃ (q : Req) (s : State) (i : Nat) (k : Nat) (d : RegDesc),
      let a := q.n 0;
      let r := s.routine;
      let n := q.session.toNat;
      let old := r.readValue n a;
      (regAt a = some (.chip, i, k, d)) ∧ (a ∉ [R.LINKEV_SEND, R.SR_CFG, R.CAL_LIMIT, R.SESS_STAT n]) ∧ (q.resets = none) ∧
      let v := ((old ||| q.p 1) &&& d.rw) ||| (q.p 1 &&& ~~~d.rw);
      (s.runs 0x12 q = true) ∧ (q.coincide = []) ∧ (r.writeWordRefused (r.whoOf q) a v 0 = none)) ∧
    (∃ (q : Req) (s : State) (i : Nat) (k : Nat) (d : RegDesc),
      let a := q.n 0;
      let r := s.routine;
      let n := q.session.toNat;
      let old := r.readValue n a;
      (regAt a = some (.chip, i, k, d)) ∧ (a ∉ [R.LINKEV_SEND, R.SR_CFG, R.CAL_LIMIT, R.SESS_STAT n]) ∧ (q.resets = none) ∧
      let v := old &&& ~~~q.p 1 &&& d.rw;
      (s.runs 0x13 q = true) ∧ (q.coincide = []) ∧ (r.writeWordRefused (r.whoOf q) a v 0 = none)) :=
  ⟨⟨rq [R.PROTO_CFG,1,0] [1,0,0,0], op [], 0, 0, dsc R.PROTO_CFG, 0, by decide +kernel⟩,
    ⟨rq [R.PROTO_CFG,1], op [], 0, 0, dsc R.PROTO_CFG, by decide +kernel⟩,
    ⟨rq [R.PROTO_CFG,1], op [], 0, 0, dsc R.PROTO_CFG, by decide +kernel⟩⟩

theorem witness_MemoryReads :
    (∃ (q : Req) (s : State) (size : Nat), (s.runs 0x21 q = true) ∧ (q.n 0 < 2 ^ 14) ∧ (1 ≤ q.n 2) ∧ (q.n 2 ≤ 65536) ∧ (spaceSize (q.n 0 %
    256) = some size) ∧ (q.n 0 % 256 ≠ 0x11) ∧ (q.n 1 < size) ∧
      let n := min (q.n 2) (size - q.n 1);
      let u := if q.n 0 % 256 = 0x10 then 0 else q.n 0 / 256;
      ((if q.n 0 % 256 = 0x10 then s.routine.firnRefused (q.n 1) (q.n 1 + n) else s.routine.readRefused (q.n 0 % 256) u (q.n 1) (q.n 1 +
    n)) = none) ∧ (s.eccMet (q.n 0 % 256) (s.fget (R.TILE_MAP_CORE u)) (q.n 1) n = none)) :=
  ⟨rq [0x3F01,0,4], op [], 0x200000, by decide +kernel⟩

theorem witness_MemoryWrites :
    (∃ (q : Req) (s : State) (size : Nat), (s.runs 0x20 q = true) ∧ (q.trailerOk = true) ∧ (q.part = none) ∧ (q.n 0 < 256) ∧ (spaceSize (q.n
    0) = some size) ∧ (q.n 1 < size) ∧ (q.n 0 ≠ 0x11) ∧ (q.n 0 ≠ 1) ∧
      let n := min q.payload.length (size - q.n 1);
      let l := if q.n 0 = 0x10 then [0] else q.tiles 2;
      ((if q.n 0 = 0x10 then q.tiles 2 = [] ∧ s.routine.firnRefused (q.n 1) (q.n 1 + n) = none else q.tiles 2 ≠ [] ∧
    s.routine.writeRefused (q.n 0) (q.n 1) (q.n 1 + n) l = none))) :=
  ⟨rq [2,0,1,0] [9,8,7], op [], 262144, by decide +kernel⟩

theorem witness_SegmentWrites :
    (∃ (q : Req) (s : State), (segStrm q = false) ∧ (segSealedOp q = false) ∧ (q.trailerOk = true) ∧ (q.part = none) ∧ (s.runs 0x22 q = true)
    ∧ (segLimits false q = false) ∧ (s.routine.segRefused q = none) ∧ ((∀ u ∈ q.tiles 0, s.segSealed u (s.segNamed u q) = false))) :=
  ⟨rq [1,0,0,0,0] (List.replicate 32 7), op [], by decide +kernel⟩

theorem witness_SegmentCommits :
    (∃ (q : Req) (s : State) (u : Nat), (segStrm q = false) ∧ (s.runs 0x23 q = true) ∧ (segLimits true q = false) ∧ (q.tiles 0 = [u]) ∧
    ((segRing q = true → s.ringLen u ≠ 0)) ∧ ((segSealedOp q = true → (s.bundleOf u).isSome = true)) ∧ (s.segSt u (s.segNamed u q) =
    sgFilling) ∧ (s.routine.segMatches u (s.segNamed u q) (q.p 3) = true)) ∧
    (∃ (q : Req) (s : State) (u : Nat), (segStrm q = false) ∧ (s.runs 0x23 q = true) ∧ (segLimits true q = false) ∧ (q.tiles 0 = [u]) ∧
    ((segRing q = true → s.ringLen u ≠ 0)) ∧ ((segSealedOp q = true → (s.bundleOf u).isSome = true)) ∧ (s.segSt u (s.segNamed u q) =
    sgFilling) ∧ (s.routine.segMatches u (s.segNamed u q) (q.p 3) = false)) :=
  ⟨⟨rq [1, 0, 0, filling.segCrc 0 0, 0], filling, 0, by decide +kernel, by decide +kernel, by decide +kernel, by decide +kernel, by
      decide +kernel, by decide +kernel, by decide +kernel, filling_matches⟩,
    ⟨rq [1, 0, 0, ~~~filling.segCrc 0 0, 0], filling, 0, by decide +kernel, by decide +kernel, by decide +kernel, by decide +kernel, by
      decide +kernel, by decide +kernel, by decide +kernel, filling_mismatch⟩⟩

theorem witness_StreamsOpenClose :
    (∃ (q : Req) (s : State) (n : Nat), (s.wakeEngine.runs 0x24 q = true) ∧ (s.flag R.BOOT_STATUS_RECOVERY = false) ∧ (q.n 0 < 2 ^ 20) ∧
    ((List.range 8).find? (fun n => !s.flag (R.STRM_CTL_OPEN n)) = some n) ∧ (s.strmSlot (q.n 0 % 256) = none) ∧ ((∀ k < 12, (nbits (q.n
    0) 19 8).testBit k = true → s.trained k = true)) ∧ ((∀ u ∈ q.tiles 1, s.tileFenced u = false ∧ s.ringLen u ≠ 0 ∧ s.flag
    (R.STRM_CFG_MEMBER u) = false))) ∧
    (∃ (q : Req) (s : State) (n : Nat), (s.runs 0x25 q = true) ∧ (q.n 0 < 256) ∧ (s.strmSlot (q.n 0) = some n) ∧ (s.strmWait = [])) ∧
    (∃ (g : BitVec 8) (s : State), (s.strmWait = []) ∧ (s.strmSlot g.toNat = none) ∧ (s.fget R.PROTO_DISCARD_COUNT < 0xFFFFFFFF)) ∧
    (∃ (g : BitVec 8) (commit : Bool) (q : Req) (s : State) (n : Nat), (s.strmWait = []) ∧ (s.strmSlot g.toNat = some n) ∧ (s.strmReady n
    { group := g.toNat, commit := commit, q := q } = true) ∧ (q.p 4 ≠ s.rget (R.STRM_NEXT n))) ∧
    (∃ (g : BitVec 8) (q : Req) (s : State) (n : Nat), (s.strmWait = []) ∧ (s.strmSlot g.toNat = some n) ∧ (q.p 4 = s.rget (R.STRM_NEXT n)) ∧
    (segLimits true q = false)) ∧
    (∃ (g : BitVec 8) (q : Req) (s : State) (n : Nat), (s.strmWait = []) ∧ (s.strmSlot g.toNat = some n) ∧ (q.p 4 = s.rget (R.STRM_NEXT n)) ∧
      let here := (s.strmTiles n).filter s.receiving;
      (segLimits false q = false) ∧ (segSealedOp q = false) ∧ (q.n 3 = 0) ∧ (q.trailerOk = true) ∧ (s.strmReady n
    { group := g.toNat, commit := false, q := q } = true) ∧ ((∀ u ∈ here, s.segSealed u (s.ringFill u) = false))) :=
  ⟨⟨rq [5,1,0,9], op [(R.STRM_CFG_RING_LEN 0, 4)], 0, by decide +kernel⟩,
    ⟨rq [5], op [(R.STRM_CTL_OPEN 2, 1),(R.STRM_CTL_GROUP 2, 5),(bitFld (R.STRM_TILES_LO 2) 1, 1),(R.STRM_CFG_MEMBER 1, 1)], 2, by
      decide +kernel⟩,
    ⟨6, op [(R.STRM_CTL_OPEN 2, 1),(R.STRM_CTL_GROUP 2, 5),(bitFld (R.STRM_TILES_LO 2) 1, 1),(R.STRM_CFG_MEMBER 1, 1)], by
      decide +kernel⟩,
    ⟨5, false, rq [0,0,0x50,64,7] (List.replicate 32 1), op [(R.STRM_CTL_OPEN 2, 1),(R.STRM_CTL_GROUP 2, 5),(bitFld (R.STRM_TILES_LO 2) 1,
      1),(R.STRM_CFG_MEMBER 1, 1)], 2, by decide +kernel⟩,
    ⟨5, rq [0,0,0x50,0,0], op [(R.STRM_CTL_OPEN 2, 1),(R.STRM_CTL_GROUP 2, 5),(bitFld (R.STRM_TILES_LO 2) 1, 1),(R.STRM_CFG_MEMBER 1, 1)],
      2, by decide +kernel⟩,
    ⟨5, rq [0,0,0x50,0,0] (List.replicate 32 1), op [(R.STRM_CTL_OPEN 2, 1),(R.STRM_CTL_GROUP 2, 5),(bitFld (R.STRM_TILES_LO 2) 1,
      1),(R.STRM_CFG_MEMBER 1, 1),(R.STRM_CFG_RING_LEN 1, 4),(R.SEQ_STATUS_STATE 1, 1)], 2, by decide +kernel⟩⟩

theorem witness_StepsArm :
    (∃ (q : Req) (s : State), (s.wakeEngine.runs 0x30 q = true) ∧ (q.tiles 0 ≠ []) ∧ (s.flag R.BOOT_STATUS_RECOVERY = false) ∧ (s.bscan =
    false) ∧
      let r := s.wakeEngine.routine;
      (r.armRefused (q.tiles 0) = none) ∧ ((∀ u ∈ q.tiles 0, u ∉ r.armWaiting)) ∧ (s.splits.length < 256) ∧ (s.flag R.ENG_STATUS_HOLDING =
    false) ∧ (((q.tiles 0).all r.clean = false ∨ (r.armChecks (q.tiles 0)).2 = none))) ∧
    (∃ (o : OpRef) (s : State) (x : Split), (s.splits.find? (fun (x : Split) => x.arming && x.session == o.session && x.tag == o.tag) = some
    x) ∧
      let l := x.tiles;
      ((∀ u ∈ l, s.idle u = true ∧ s.tileFenced u = false ∧ s.armBarred u = false ∧ s.acting u = false)) ∧ (s.lvlClr = false) ∧
    (s.armSettled l = true)) :=
  ⟨⟨rq [1,0], (op []).modTile 0 fun c => { c with pwr := [{ target := 1 }] }, by decide +kernel⟩,
    ⟨⟨0,7⟩, { op [] with splits := [({ id := 5, opcode := 0x30, session := 0, tag := 7, params := [3,0], stage := 1 } : Split)] },
      ({ id := 5, opcode := 0x30, session := 0, tag := 7, params := [3,0], stage := 1 } : Split), by decide +kernel⟩⟩

theorem witness_StartNeedsTime :
    (∃ (q : Req) (s : State), (s.runs 0x31 q = true) ∧ (s.flag R.TIME_STATUS_VALID = false)) :=
  ⟨rq [1,0,0,0], op [], by decide +kernel⟩

theorem witness_StepsStart :
    (∃ (q : Req) (s : State),
      let l := q.tiles 0;
      let d : Nat := q.n 2 + 2 ^ 32 * q.n 3;
      let period (u : Nat) : Nat := s.periodOf u (s.seqAt u (s.fget (R.SEQ_RANGE_FIRST u))).pidx.toNat;
      let point (u : Nat) : Int := gridFrom (period u) (if d = 0 then s.now + startDelay else d * unitFs);
      (s.runs 0x31 q = true) ∧ (s.flag R.TIME_STATUS_VALID = true) ∧ (s.splits.length < 256) ∧ (s.flag R.ENG_STATUS_HOLDING = false) ∧ (l
    ≠ []) ∧ ((∀ u ∈ l, s.stepState u = stArmed ∧ s.now + startDelay ≤ point u ∧ s.startOf (s.tile u).group = none ∧ ∀ v, v < 64 → (s.tile
    v).group = (s.tile u).group → s.stepState v ≠ stEnded))) ∧
    (∃ (u : Fin 64) (s : State), (s.stepState u = stPending) ∧ (s.holdStarts = false)) ∧
    (∃ (u : Fin 64) (s : State), (s.stepState u ≠ stPending)) :=
  ⟨⟨rq [1,0x80000000,0,0], op [(R.TIME_STATUS_VALID,1),(R.SEQ_STATUS_STATE 0,1),(R.SEQ_STATUS_STATE 63,1),(R.PERIOD_LO_PERIOD 0
      0,81920000),(R.PERIOD_LO_PERIOD 63 0,20480000)], by decide +kernel⟩,
    ⟨63, (op [(R.SEQ_STATUS_STATE 63,2)]).modTile 63 fun c => { c with startAt := 4096, group := 1 }, by decide +kernel⟩,
    ⟨3, (op [(R.SEQ_STATUS_STATE 63,2)]).modTile 63 fun c => { c with startAt := 4096, group := 1 }, by decide +kernel⟩⟩

theorem witness_ThrottleHoldsStart :
    (∃ (u : Fin 64) (s : State), (s.stepState u = stPending) ∧ (s.holdStarts = true)) :=
  ⟨0,
      { (op [(R.SEQ_STATUS_STATE 0,2),(R.SEQ_STATUS_STATE 1,2),(R.SEQ_STATUS_STATE 2,3),(R.THR_STATUS_STAGES,7)]) with splits := [({ id := 5, opcode := 0x31, session := 0, tag := 7, params := [3,0,0,0], aux := [0] } : Split)] },
      by decide +kernel⟩

theorem witness_StepStatusReads :
    (∃ (q : Req) (s : State), (s.runs 0x32 q = true)) :=
  ⟨rq [0x80000001,5], op [(R.SEQ_STATUS_STATE 0,2)], by decide +kernel⟩

theorem witness_AbortAndWait :
    (∃ (q : Req) (s : State), (s.runs 0x34 q = true) ∧ (q.n 0 < 3) ∧ ((q.n 0 = 2 → q.n 1 < 65536)) ∧ ((s.splits.filter fun (x : Split) =>
    x.opcode == 0x34).length < 16) ∧ (s.splits.length < 256) ∧ (s.flag R.ENG_STATUS_HOLDING = false)) ∧
    (∃ (o : OpRef) (timeout : Bool) (s : State) (x : Split), (s.split? 0x34 o = some x) ∧ ((s.waitMet x = true ∨ (timeout = true ∧
    x.params.getD 3 0 ≠ 0)))) ∧
    (∃ (q : Req) (s : State) (x : Split), (s.runs 0x33 q = true) ∧ (q.n 0 = 0) ∧ (q.n 1 < 2 ^ 21) ∧ (nbits (q.n 1) 20 16 = q.session.toNat) ∧
    (s.targetOf q.session.toNat ((q.p 1).setWidth 16) = some (.split x)) ∧ (x.opcode = 0x34)) ∧
    (∃ (q : Req) (s : State), (s.runs 0x33 q = true) ∧ (q.n 0 = 1) ∧
      let l := (q.tiles 1).filter fun u => inStep (s.stepState u);
      (l ≠ [])) :=
  ⟨⟨rq [2,65535,0,4], op [], by decide +kernel⟩,
    ⟨⟨0,7⟩, false, { op [] with splits := [({ id := 5, opcode := 0x34, session := 0, tag := 7, params := [1,1,0,0] } : Split)] },
      ({ id := 5, opcode := 0x34, session := 0, tag := 7, params := [1,1,0,0] } : Split), by decide +kernel⟩,
    ⟨rq [0,7,0], { op [] with splits := [({ id := 5, opcode := 0x34, session := 0, tag := 7, params := [2,1,0,9] } : Split)] },
      ({ id := 5, opcode := 0x34, session := 0, tag := 7, params := [2,1,0,9] } : Split), by decide +kernel, by decide +kernel, by
      decide +kernel, by decide +kernel, rfl, by decide +kernel⟩,
    ⟨rq [1,1,0], op [(R.SEQ_STATUS_STATE 0,3),(R.SEQ_STATUS_STATE 1,1)], by decide +kernel⟩⟩

theorem witness_CaptureReads :
    (∃ (q : Req) (s : State), (s.runs 0x40 q = true) ∧ (q.n 0 < 64) ∧ (1 ≤ q.n 1) ∧ (q.n 1 ≤ 4096) ∧ (q.n 2 < 2) ∧ (s.tileFenced (q.n 0) =
    false) ∧ (s.hidden (q.n 0) [9, 10, 11, 12, 13] = false) ∧ ((s.tile (q.n 0)).cap.bad = [])) ∧
    (∃ (q : Req) (s : State), (s.runs 0x42 q = true) ∧ (q.n 0 < 64) ∧ (q.n 1 < 32) ∧ (q.n 2 < 512) ∧ (1 ≤ q.n 3) ∧ (q.n 3 ≤ 512) ∧ (s.hidden
    (q.n 0) [14] = false)) ∧
    (∃ (q : Req) (s : State), (s.runs 0x41 q = true) ∧ (q.n 0 < 256) ∧ (q.n 1 < 4) ∧ ((q.n 1 ≠ 0 → 1 ≤ q.n 3 ∧ q.n 3 ≤ 4096)) ∧
      let r := s.routine;
      let tiles := r.siteTiles (q.n 0);
      ((∀ u ∈ tiles, r.hidden u [8] = false)) ∧ ((∀ u ∈ r.ownTiles tiles (q.n 0), inStep (r.stepState u) = false)) ∧ (q.n 0 ∉
    s.armedSites)) :=
  ⟨⟨rq [3,4096,0], (op [(R.CAP_USED_VALUE 3,5),(R.CAP_RD_PTR_VALUE 3,6)]).mset 5 3 100 9, by decide +kernel⟩,
    ⟨rq [63,31,511,512], (op [(R.CAP_USED_VALUE 3,5),(R.CAP_RD_PTR_VALUE 3,6)]).mset 5 3 100 9, by decide +kernel⟩,
    ⟨rq [0,0,0,0], (op [(R.CAP_USED_VALUE 3,5),(R.CAP_RD_PTR_VALUE 3,6)]).mset 5 3 100 9, by decide +kernel⟩⟩

theorem witness_Measures :
    (∃ (q : Req) (s : State), (s.runs 0x43 q = true) ∧ (q.n 0 < 1024) ∧ (s.hidden (q.n 0 / 16) [13] = false) ∧ (s.mode (q.n 0) ≠ 0)) ∧
    (∃ (ch : Fin 1024) (i : Nat) (s : State), (s.converter ch i none ≠ none) ∧ ((s.tile (ch / 16)).cap.waves = []) ∧ ((s.chan ch).pmuN + 1 < 2
    ^ s.fget (R.PMU_CFG_AVG ch))) ∧
    (∃ (ch : Fin 1024) (i : Nat) (s : State), (s.converter ch i none ≠ none) ∧ ((s.tile (ch / 16)).cap.waves = []) ∧ (2 ^ s.fget
    (R.PMU_CFG_AVG ch) ≤ (s.chan ch).pmuN + 1) ∧ (s.stepState (ch / 16) ≠ stRunning)) :=
  ⟨⟨rq [1023], op [(R.CH_MODE_MODE 1023,1)], by decide +kernel⟩,
    ⟨1023, 55, op [(R.CH_MODE_MODE 1023,2),(R.PMU_CFG_MEN 1023,1),(R.PMU_CFG_AVG 1023,1)], by decide +kernel⟩,
    ⟨1023, 55, op [(R.CH_MODE_MODE 1023,2),(R.PMU_CFG_MEN 1023,1)], by decide +kernel⟩⟩

theorem witness_EventsRegister :
    (∃ (u : Fin 64) (i : Int) (s : State), ((s.tile u).cap.maskDue = some i)) ∧
    (∃ (n : Fin 4) (arrival : Nat) (s : State), ((∀ a, Store.get (fun _ => none) s.trigIn n.val = some a → a + 1280 ≤ arrival))) ∧
    (∃ (u : Fin 64) (s : State), (s.fget (R.TRIG_CFG_SRC u) = 5)) ∧
    (∃ (u : Fin 64) (s : State), (s.fget (R.TRIG_CFG_SRC u) ≠ 5 ∨ s.stepState u ≠ stRunning)) ∧
    (∃ (u : Fin 64) (s : State), (s.fget (R.TRIG_CFG_SRC u) = 5) ∧ (s.stepState u = stRunning) ∧ ((s.tile u).cap.frame.isSome = true) ∧
    ((s.tile u).closing = false) ∧ ((s.tile u).startAt ≤ s.pair (R.TRIG_TIME_LO u) (R.TRIG_TIME_HI u) * unitFs) ∧ (s.flag (R.CAP_CFG_MODE
    u) = false) ∧ (s.fget (R.TRIG_IGN_COUNT u) < 2 ^ 32 - 1)) ∧
    (∃ (u : Fin 64) (s : State),
      let i : Int := s.pair (R.TRIG_TIME_LO u) (R.TRIG_TIME_HI u) * unitFs;
      (s.fget (R.TRIG_CFG_SRC u) = 5) ∧ (s.stepState u = stRunning) ∧ ((s.tile u).cap.frame = none) ∧ ((s.tile u).cap.past = none) ∧
    (s.holdOver u i = true) ∧ ((s.tile u).closing = false) ∧ ((s.tile u).startAt ≤ i) ∧ (s.flag (R.CAP_CFG_EN u) = false) ∧ (s.fget
    (R.CAP_STATUS_FRAMES u) < 0xFFFF)) :=
  ⟨⟨3, 77, op [] |>.modTile 3 fun c => { c with cap := { c.cap with maskDue := some 77 } }, by decide +kernel⟩,
    ⟨3, 1280, { op [] with trigIn := [(3, some 0)] }, fun a h => by have h : some 0 = some a := h; cases h; decide⟩,
    ⟨3, op [(R.TRIG_CFG_SRC 3,5),(R.SEQ_STATUS_STATE 3,3)], by decide +kernel⟩,
    ⟨3, op [(R.TRIG_CFG_SRC 3,5)], by decide +kernel⟩,
    ⟨3, (op [(R.TRIG_CFG_SRC 3,5),(R.SEQ_STATUS_STATE 3,3)]).modTile 3 fun c =>
      { c with cap := { c.cap with frame := some ⟨0,4,0,none⟩ } }, by decide +kernel⟩,
    ⟨3, op [(R.TRIG_CFG_SRC 3,5),(R.SEQ_STATUS_STATE 3,3)], by decide +kernel⟩⟩

theorem witness_CalibrationItems :
    (∃ (m : CalMeas) (s : State), (s.calBackground m.subj.val = true) ∧ (m.subj.val ≠ 5) ∧ (s.undisturbed m = true) ∧ ((s.calAllowed
    m.chan.val m.subj.val = true ∨ s.calTracks m.chan.val m.subj.val = true)) ∧
      let n := if s.calAllowed m.chan.val m.subj.val then m else s.tracked m;
      (s.calRejected n = false)) ∧
    (∃ (s : State), (s.calPend ≠ []) ∧ (s.stage1 = false) ∧ ((∀ u, u < 64 → s.idle u = false)) ∧ (Store.wf (fun _ => none) s.calPend = true) ∧
    (s.flag R.CAL_CTRL_AUTO = true) ∧ (s.autoDue = true)) ∧
    (∃ (s : State) (q : Req), (s.calPend ≠ []) ∧ (s.stage1 = false) ∧ ((∀ u, u < 64 → s.idle u = false)) ∧ (Store.wf (fun _ => none) s.calPend
    = true) ∧ (s.runs 0x51 q = true)) :=
  ⟨⟨{ chan := 9, subj := 0, values := [1,2] }, op [(R.CH_MODE_MODE 9,0)], by decide +kernel⟩,
    ⟨let it : CalItem := { values := [1], measured := true };
      { (op ([(R.CAL_CTRL_AUTO,1)] ++ (List.range 64).map fun u => (R.SEQ_STATUS_STATE u, 1))) with calPend := [(calKey 9 0, some it)], sysTime := 2^60 },
      by decide +kernel⟩,
    ⟨let it : CalItem := { values := [1], measured := true };
      { (op ([(R.CAL_CTRL_AUTO,1)] ++ (List.range 64).map fun u => (R.SEQ_STATUS_STATE u, 1))) with calPend := [(calKey 9 0, some it)], sysTime := 2^60 },
      rq [], by decide +kernel⟩⟩

theorem witness_CalibrationRuns :
    (∃ (q : Req) (s : State), (s.runs 0x50 q = true) ∧ (q.n 0 < 64) ∧ (q.n 0 ≠ 0) ∧ (q.n 3 < 4) ∧ ((q.n 0 % 32 ≠ 0 → ∀ u ∈ q.tiles 1,
    s.tileFenced u = false ∧ s.idle u = true)) ∧ (s.flag R.CAL_STATUS_RUN = false) ∧ (s.splits.length < 256) ∧ (s.flag
    R.ENG_STATUS_HOLDING = false)) ∧
    (∃ (o : OpRef) (items : List CalMeas) (s : State) (x : Split), (s.split? 0x50 o = some x) ∧ ((x.params.getD 0 0).getLsbD 5 = false) ∧
    (x.aux.headD 0 = 0) ∧ (s.stage1 = false) ∧
      let ready (j ch : Nat) : Bool := !(x.params.getD 0 0).toNat.testBit j || !s.calFree ch j || items.any fun m => m.chan.val == ch && m.subj.val == j;
      let all := (tilesOf (x.params.getD 1 0) (x.params.getD 2 0)).flatMap chansOf;
      ((∀ m ∈ items, s.calRejected m = false)) ∧ ((∀ j < 5, ∀ ch ∈ all, ready j ch = true))) ∧
    (∃ (o : OpRef) (items : List CalMeas) (s : State) (x : Split), (s.split? 0x50 o = some x) ∧ ((x.params.getD 0 0).getLsbD 5 = false) ∧
    (x.aux.headD 0 = 0) ∧ (s.stage1 = false) ∧
      let ready (j ch : Nat) : Bool := !(x.params.getD 0 0).toNat.testBit j || !s.calFree ch j || items.any fun m => m.chan.val == ch && m.subj.val == j;
      let all := (tilesOf (x.params.getD 1 0) (x.params.getD 2 0)).flatMap chansOf;
      ((∃ j < 5, ∃ ch ∈ all, ready j ch = false))) ∧
    (∃ (q : Req) (s : State), (s.runs 0x52 q = true) ∧ (q.n 0 < 1024) ∧ (q.n 1 < 64) ∧ (q.n 1 / 8 % 2 = 0) ∧ (q.n 1 % 8 ≤ 5) ∧ (q.n 1 / 16 % 4
    ≠ 3)) ∧
    (∃ (u : Fin 64) (s : State), ((s.tile u).deskew = false)) ∧
    (∃ (u : Fin 64) (items : List CalMeas) (s : State), ((s.tile u).deskew = true) ∧ (s.stage1 = false) ∧ ((∀ ch ∈ chansOf u, s.calFree ch 3 =
    true → ∃ m ∈ items, m.chan.val = ch ∧ m.subj.val = 3 ∧ s.undisturbed m = true ∧ s.calRejected m = false))) :=
  ⟨⟨rq [63,0x80000001,3,3], op [], by decide +kernel⟩,
    ⟨⟨0,7⟩, (List.finRange 16).map fun (i : Fin 16) => { chan := ⟨i.val, by omega⟩, subj := 0, values := [1,2] },
      { op [] with splits := [({ id := 5, opcode := 0x50, session := 0, tag := 7, params := [1,1,0,0] } : Split)] },
      ({ id := 5, opcode := 0x50, session := 0, tag := 7, params := [1,1,0,0] } : Split), by decide +kernel⟩,
    ⟨⟨0,7⟩, [], { op [] with splits := [({ id := 5, opcode := 0x50, session := 0, tag := 7, params := [1,1,0,0] } : Split)] },
      ({ id := 5, opcode := 0x50, session := 0, tag := 7, params := [1,1,0,0] } : Split), by decide +kernel⟩,
    ⟨rq [1023,5], op [], by decide +kernel⟩,
    ⟨63, op [], by decide +kernel⟩,
    ⟨63, [], (op [(R.SEQ_STATUS_STATE 63,1)]).modTile 63 fun c => { c with deskew := true }, by decide +kernel⟩⟩

theorem witness_TimeLoads :
    (∃ (s : State), (s.syncArmedNow = false) ∧ (s.calBackground 5 = false)) ∧
    (∃ (s : State), (s.syncArmedNow = true) ∧ (s.syncArmed = none)) ∧
    (∃ (u : Nat) (s : State), (s.syncArmed = some u) ∧ (s.syncArmedNow = true) ∧ (s.holdsStep = false)) ∧
    (∃ (u : Nat) (s : State), (s.syncArmed = some u) ∧ (s.syncArmedNow = true) ∧ (s.holdsStep = true) ∧ (s.calBackground 5 = false)) ∧
    (∃ (l : Fin 12) (s : State), (s.timeSource = some l.val) ∧ (s.flag R.TIME_CTRL_SRC = true) ∧ (s.flag R.TIME_CTRL_LINK_ARM = true) ∧
    (s.holdsStep = false) ∧ (s.fget (R.LINK_RTT_RTT l) % 2 = 0)) ∧
    (∃ (l : Fin 12) (s : State), (s.timeSource ≠ some l.val)) :=
  ⟨⟨op [(R.CAL_CTRL_BG_EN,0)], by decide +kernel⟩,
    ⟨op [(R.TIME_CTRL_SYNC_ARM,1)], by decide +kernel⟩,
    ⟨2^64-1, { op [(R.TIME_CTRL_SYNC_ARM,1),(R.SYNC_DESKEW_DESKEW,0xFFFF)] with syncArmed := some (2^64-1), sysTime := 7 }, by
      decide +kernel⟩,
    ⟨2^64-1,
      { op [(R.TIME_CTRL_SYNC_ARM,1),(R.SEQ_STATUS_STATE 9,1),(R.CAL_CTRL_BG_EN,0)] with syncArmed := some (2^64-1), sysTime := 7 },
      by decide +kernel⟩,
    ⟨11, op [(R.TIME_CTRL_SRC,1),(R.TIME_CTRL_LINK_ARM,1),(R.LINK_CTRL_EN 11,1),(R.LINK_STATUS_STATE 11,lkActive),(R.LINK_RTT_RTT 11,4)],
      by decide +kernel⟩,
    ⟨11, op [], by decide +kernel⟩⟩

theorem witness_TimeChecks :
    (∃ (s : State), (2 ^ 64 ≤ s.sysTime.toNat + 2560)) ∧
    (∃ (ppm : Int), (ppm.natAbs ≤ 100)) ∧
    (∃ (ppm : Int) (s : State), (100 < ppm.natAbs) ∧ (s.holdsStep = false) ∧ ((∀ u, u < 64 → s.ending u = false)) ∧ ((0x60000, 10, 0) ∈
    s.held)) ∧
    (∃ (l : Fin 12) (s : State),
      let sends := s.flag (R.LINK_CTRL_ROLE l) = true ∧ s.flag (R.LINK_CTRL_TMSG l) = true ∧ s.linkState l = lkActive ∧ s.flag R.TIME_STATUS_VALID = true ∧ s.timeDue l = true;
      (sends)) ∧
    (∃ (l : Fin 12) (s : State),
      let sends := s.flag (R.LINK_CTRL_ROLE l) = true ∧ s.flag (R.LINK_CTRL_TMSG l) = true ∧ s.linkState l = lkActive ∧ s.flag R.TIME_STATUS_VALID = true ∧ s.timeDue l = true;
      (¬sends)) :=
  ⟨⟨{ op [] with sysTime := 0xFFFFFFFFFFFFF600 }, by decide +kernel⟩,
    ⟨-100, by decide +kernel⟩,
    ⟨-101, { op [] with held := [(0x60000,10,0)] }, by decide +kernel⟩,
    ⟨3,
      { op [(R.LINK_CTRL_ROLE 3,1),(R.LINK_CTRL_TMSG 3,1),(R.LINK_STATUS_STATE 3,lkActive),(R.TIME_STATUS_VALID,1)] with sysTime := 77 },
      by decide +kernel⟩,
    ⟨3, op [], by decide +kernel⟩⟩

theorem witness_ChannelModes :
    (∃ (ch : Fin 1024) (v : Word) (s : State) (st : BitVec 8), (s.chModeRule ch v = some st)) ∧
    (∃ (ch : Fin 1024) (v : Word) (s : State), (s.chModeRule ch v = none)) ∧
    (∃ (ch : Fin 1024) (s : State), (s.mode ch ≠ 0) ∧ (s.flag (R.CH_STATUS_GATE ch) = false) ∧ ((∀ k < 2, (0x60000, k, ch.val) ∉ s.injHeld))) ∧
    (∃ (ch : Fin 1024) (s : State), (s.mode ch = 0)) ∧
    (∃ (ch : Fin 1024) (s : State), ((s.chan ch).forcing = true)) ∧
    (∃ (n : Fin 64) (s : State), ((s.snt n).forcing = true)) :=
  ⟨⟨1023, 3, op [], St.badParam, by decide +kernel⟩,
    ⟨1023, 1, op [], by decide +kernel⟩,
    ⟨1023, op [(R.CH_MODE_MODE 1023,1)], by decide +kernel⟩,
    ⟨1023, op [], by decide +kernel⟩,
    ⟨1023, (op [(R.CH_MODE_MODE 1023,1)]).modChan 1023 fun c => { c with forcing := true }, by decide +kernel⟩,
    ⟨63, { op [(R.SNT_CFG_EN 63,1)] with snts := [(63,{ forcing := true })] }, by decide +kernel⟩⟩

theorem witness_Comparators :
    (∃ (ch : Fin 1024) (low : Bool) (above : Bool) (volt : Int) (s : State), (s.cmpOn ch = true) ∧ ((s.chan ch).forcing = false) ∧
    (outsideBand (s.threshold ch (if low then 4 else 3)) (s.fget (R.CH_MODE_HYST ch)) volt = some above)) ∧
    (∃ (ch : Fin 1024) (low : Bool) (volt : Int) (s : State), (outsideBand (s.threshold ch (if low then 4 else 3)) (s.fget (R.CH_MODE_HYST
    ch)) volt = none)) ∧
    (∃ (n : Fin 64) (low : Bool) (above : Bool) (volt : Int) (s : State), (s.flag (R.SNT_CFG_EN n) = true) ∧ ((s.snt n).forcing = false) ∧
    (outsideBand (if low then (s.sntCodes n).2 else (s.sntCodes n).1) (s.fget (R.SNT_CFG_HYST n)) volt = some above)) ∧
    (∃ (ch : Fin 1024) (start : Nat) (s : State), (s.checkSlot ch (start * unitFs) = false)) ∧
    (∃ (ch : Fin 1024) (start : Nat) (s : State), (s.checkSlot ch (start * unitFs) = true) ∧ ((0x60000, 5, ch.val) ∉ s.injHeld)) ∧
    (∃ (ch : Fin 1024) (start : Nat) (s : State), (s.checkSlot ch (start * unitFs) = true) ∧ (Mild s 0x60000 5) ∧ (inStep (s.stepState (ch /
    16)) = true)) ∧
    (∃ (ch : Fin 1024) (i : Nat) (s : State), (s.cmpOn ch = true) ∧ (Mild s 0x60000 5) ∧ (s.stepState (ch / 16) = stRunning) ∧ (lateTime ≤
    s.checkAge ch (s.tileTime (ch / 16) (i * unitFs)))) ∧
    (∃ (ch : Fin 1024) (v : Bool) (s : State), (s.mode ch ≠ 0) ∧ (Mild s 0x60000 (if v then 1 else 0)) ∧ (inStep (s.stepState (ch / 16)) =
    true)) :=
  ⟨⟨17, true, true, 100000000, op [(R.CH_MODE_MODE 17,1),(R.CH_STATUS_GATE 17,1)], by decide +kernel⟩,
    ⟨17, false, 0, (op [(R.CH_MODE_MODE 17,1),(R.CH_STATUS_GATE 17,1),(R.CH_MODE_HYST 17,3)]) |>.modTile 3 id, by decide +kernel⟩,
    ⟨63, true, true, 100000000, op [(R.SNT_CFG_EN 63,1)], by decide +kernel⟩,
    ⟨17, 0, op [], by decide +kernel⟩,
    ⟨17, 0, op [(R.CH_MODE_MODE 17,1),(R.CH_STATUS_GATE 17,1),(R.SEQ_STATUS_STATE 1,1)], by decide +kernel⟩,
    ⟨17, 0, op [(R.CH_MODE_MODE 17,1),(R.CH_STATUS_GATE 17,1),(R.SEQ_STATUS_STATE 1,3)], by unfold Mild; decide +kernel⟩,
    ⟨17, 6553600000000, op [(R.CH_MODE_MODE 17,1),(R.CH_STATUS_GATE 17,1),(R.SEQ_STATUS_STATE 1,3)], by unfold Mild; decide +kernel⟩,
    ⟨17, true, op [(R.CH_MODE_MODE 17,1),(R.CH_STATUS_GATE 17,1),(R.SEQ_STATUS_STATE 1,3)], by unfold Mild; decide +kernel⟩⟩

theorem witness_Levels :
    (∃ (ch : Fin 1024) (k : Fin 11) (s : State), (s.unitRule (R.LVL ch k) = none)) ∧
    (∃ (s : State), (s.lvlClr = false) ∧ (s.holdsStep = false)) ∧
    (∃ (s : State), (s.lvlClr = true)) :=
  ⟨⟨1023, 10, op [], by decide +kernel⟩,
    ⟨op [(R.TILE_PWR_STATE 3,3),(R.CH_MODE_MODE 0,1)], by decide +kernel⟩,
    ⟨{ op [(R.TILE_PWR_STATE 3,3),(R.CH_MODE_MODE 0,1)] with lvlClr := true }, by decide +kernel⟩⟩

theorem witness_PmuAndSentinels :
    (∃ (ch : Fin 1024) (v : Word) (s : State), (s.pmuCfgRule ch v = none)) ∧
    (∃ (n : Fin 64) (v : Word) (s : State), (s.sntCfgRule n v = none)) ∧
    (∃ (n : Fin 64) (s : State), (s.flag (R.SNT_CFG_EN n) = true) ∧ ((s.snt n).knownHi = true) ∧ ((s.snt n).knownLo = true) ∧ ((s.snt
    n).outside = true) ∧ ((s.snt n).viol = false) ∧ (s.holdsStep = false) ∧ (Mild s 0x60000 7)) ∧
    (∃ (n : Fin 64) (s : State), ((3, n.val) ∉ s.unfenceReq)) ∧
    (∃ (n : Fin 64) (s : State), ((3, n.val) ∉ s.unfenceReq) ∧ (s.sntFenced n = false) ∧ (s.fenceReq = []) ∧ (Mild s 0x60000 8)) :=
  ⟨⟨1023, 0x14, op [(R.CH_MODE_MODE 1023,2)], by decide +kernel⟩,
    ⟨63, 1, op [], by decide +kernel⟩,
    ⟨63, { op [(R.SNT_CFG_EN 63,1),(R.SNT_MAP_LO_MAP 63,5)] with snts := [(63,{ knownHi := true, knownLo := true, outside := true })] },
      by unfold Mild; decide +kernel⟩,
    ⟨63, { op [(R.SNT_CFG_EN 63,1),(R.SNT_MAP_LO_MAP 63,5)] with snts := [(63,{ knownHi := true, knownLo := true, outside := true })] },
      by decide +kernel⟩,
    ⟨63, op [(R.SNT_CFG_EN 63,1)], by unfold Mild; decide +kernel⟩⟩

theorem witness_CyclesQueue :
    (∃ (u : Fin 64) (i : SeqInstr) (s : State) (k : RunKind) (c : Instr), ((k, c) ∈ [(.vec, .vec u i), (.rpt, .rpt u i), (.hold, .hold u i)])
    ∧ (s.fetching u = true) ∧ (OnTime s u) ∧ ((k ≠ .hold → s.lockRoom u i = true)) ∧ (i.count ≠ 0) ∧ ((k ≠ .hold → i.strm = true →
    s.ringLen u ≠ 0))) ∧
    (∃ (u : Fin 64) (i : SeqInstr) (s : State) (k : RunKind) (c : Instr), ((k, c) ∈ [(.vec, .vec u i), (.rpt, .rpt u i), (.hold, .hold u i)])
    ∧ (s.fetching u = true) ∧ (OnTime s u) ∧ ((k ≠ .hold → s.lockRoom u i = true)) ∧ (i.count = 0) ∧ ((k ≠ .hold → i.strm = true →
    s.ringLen u ≠ 0))) ∧
    (∃ (u : Fin 64) (i : SeqInstr) (s : State) (c : Instr), (c ∈ [.vec u i, .rpt u i, .hold u i, .nop u i, .loop u i, .lend u i, .call u i,
    .ret u i, .jmp u i, .br u i, .segsw u i, .mark u i, .period u i, .wait u i, .endStep u i]) ∧ (s.fetching u = false)) :=
  ⟨⟨3,
      { count := 5, tset := 2, cfmt := true, vword := 77, vseg := 15, mken := true, mkid := 9, apgop := 0x1234, lcnt := 7, target := 16000, pidx := 3, cond := 1 },
      op [(R.SEQ_STATUS_STATE 3,3),(R.SEQ_STATUS_PC 3,16383)], .vec, .vec 3
      { count := 5, tset := 2, cfmt := true, vword := 77, vseg := 15, mken := true, mkid := 9, apgop := 0x1234, lcnt := 7, target := 16000, pidx := 3, cond := 1 },
      by unfold OnTime; decide +kernel⟩,
    ⟨3, { count := 0, tset := 2, lcnt := 7, target := 16000 }, (op [(R.SEQ_STATUS_STATE 3,3),(R.SEQ_STATUS_PC
      3,16383),(R.STRM_CFG_RING_LEN 3,4)]).modTile 3 fun c => { c with pendMarks := [1], pendPer := some ⟨5, []⟩ }, .vec, .vec 3
      { count := 0, tset := 2, lcnt := 7, target := 16000 }, by unfold OnTime; decide +kernel⟩,
    ⟨3, { count := 0, tset := 2, lcnt := 7, target := 16000 }, op [], .hold 3 { count := 0, tset := 2, lcnt := 7, target := 16000 }, by
      decide +kernel⟩⟩

theorem witness_ControlFlow :
    (∃ (u : Fin 64) (s : State), (s.fetching u = true) ∧ (OnTime s u)) ∧
    (∃ (u : Fin 64) (s : State), (s.fetching u = true) ∧ (OnTime s u) ∧ (s.stackSp u < 8)) ∧
    (∃ (u : Fin 64) (s : State), (s.fetching u = true) ∧ (OnTime s u) ∧ (8 ≤ s.stackSp u) ∧ ((s.tile u).queue ≠ [])) ∧
    (∃ (u : Fin 64) (s : State) (n : Nat), (s.fetching u = true) ∧ (OnTime s u) ∧ (s.stackSp u = n + 1)) ∧
    (∃ (u : Fin 64) (s : State), (s.fetching u = true) ∧ (OnTime s u) ∧ (s.stackSp u = 0) ∧ ((s.tile u).queue ≠ [])) ∧
    (∃ (u : Fin 64) (i : SeqInstr) (s : State), (s.fetching u = true) ∧ (OnTime s u) ∧ (i.cond = 0)) ∧
    (∃ (u : Fin 64) (i : SeqInstr) (s : State), (s.fetching u = true) ∧ (OnTime s u) ∧ (i.cond ≠ 0) ∧ ((s.tile u).queue ≠ [] ∨ s.stepState u =
    stPending ∨ s.tileTime u s.now < (s.tile u).endE)) ∧
    (∃ (u : Fin 64) (i : SeqInstr) (s : State), (s.fetching u = true) ∧ (OnTime s u) ∧ (i.cond ≠ 0) ∧ ((s.tile u).queue = []) ∧ (s.stepState u
    = stRunning) ∧ ((s.tile u).endE ≤ s.tileTime u s.now) ∧ (s.unseen u ((s.tile u).endE - condDelay) = false)) ∧
    (∃ (u : Fin 64) (i : SeqInstr) (s : State), (s.stepState u = stRunning) ∧ ((s.tile u).stall = none) ∧ ((s.tile u).closing = false) ∧
    ((s.tile u).queue = []) ∧ ((s.tile u).tail = .branching i) ∧ (s.unseen u ((s.tile u).endE - condDelay) = false)) :=
  ⟨⟨3, op [(R.SEQ_STATUS_STATE 3,3),(R.SEQ_STATUS_PC 3,16383)], by unfold OnTime; decide +kernel⟩,
    ⟨3, op [(R.SEQ_STATUS_STATE 3,3),(R.SEQ_STATUS_PC 3,16383)], by unfold OnTime; decide +kernel⟩,
    ⟨3, op [(R.SEQ_STATUS_STATE 3,3),(R.SEQ_STATUS_PC 3,16383),(R.SEQ_STATUS_SP 3,8)] |>.modTile 3 fun c =>
      { c with queue := [{ kind := .hold, tset := 0, left := 4 }] }, by unfold OnTime; decide +kernel⟩,
    ⟨3, op [(R.SEQ_STATUS_STATE 3,3),(R.SEQ_STATUS_PC 3,16383),(R.SEQ_STATUS_SP 3,8),(R.STACK_ADDR 3 7,99)], 7, by
      unfold OnTime; decide +kernel⟩,
    ⟨3, op [(R.SEQ_STATUS_STATE 3,3),(R.SEQ_STATUS_PC 3,16383)] |>.modTile 3 fun c =>
      { c with queue := [{ kind := .hold, tset := 0, left := 4 }] }, by unfold OnTime; decide +kernel⟩,
    ⟨3, { count := 0, tset := 2, lcnt := 7, target := 16000 }, op [(R.SEQ_STATUS_STATE 3,3),(R.SEQ_STATUS_PC 3,16383)], by
      unfold OnTime; decide +kernel⟩,
    ⟨3,
      { count := 5, tset := 2, cfmt := true, vword := 77, vseg := 15, mken := true, mkid := 9, apgop := 0x1234, lcnt := 7, target := 16000, pidx := 3, cond := 1 },
      op [(R.SEQ_STATUS_STATE 3,3),(R.SEQ_STATUS_PC 3,16383)] |>.modTile 3 fun c =>
      { c with queue := [{ kind := .hold, tset := 0, left := 4 }] }, by unfold OnTime; decide +kernel⟩,
    ⟨3,
      { count := 5, tset := 2, cfmt := true, vword := 77, vseg := 15, mken := true, mkid := 9, apgop := 0x1234, lcnt := 7, target := 16000, pidx := 3, cond := 1 },
      { op [(R.SEQ_STATUS_STATE 3,3),(R.SEQ_STATUS_PC 3,16383)] with sysTime := 2^40 }, by unfold OnTime; decide +kernel⟩,
    ⟨3,
      { count := 5, tset := 2, cfmt := true, vword := 77, vseg := 15, mken := true, mkid := 9, apgop := 0x1234, lcnt := 7, target := 16000, pidx := 3, cond := 1 },
      (op [(R.SEQ_STATUS_STATE 3,3),(R.SEQ_STATUS_PC 3,16383)]).modTile 3 fun c =>
      { c with endE := 2^60, tail := .branching { count := 5, tset := 2, cfmt := true, vword := 77, vseg := 15, mken := true, mkid := 9, apgop := 0x1234, lcnt := 7, target := 16000, pidx := 3, cond := 1 } },
      by decide +kernel⟩⟩

theorem witness_MarksPeriodsWaits :
    (∃ (u : Fin 64) (s : State), (s.fetching u = true) ∧ (OnTime s u)) ∧
    (∃ (u : Fin 64) (s : State), (s.fetching u = true) ∧ (OnTime s u) ∧ (s.ringLen u ≠ 0)) ∧
    (∃ (u : Fin 64) (s : State), (s.fetching u = true) ∧ (OnTime s u) ∧ ((s.tile u).queue ≠ [] ∨ s.stepState u = stPending ∨ s.tileTime u
    s.now < (s.tile u).endE)) ∧
    (∃ (u : Fin 64) (v : Fin 64) (s : State), (s.stepState u = stRunning) ∧ ((s.tile u).stall = none) ∧ ((s.tile u).queue = []) ∧ ((s.tile
    u).tail = .ending []) ∧ (s.unresolved u = false) ∧ ((s.tile u).group ≠ 0) ∧ ((s.tile v).group = (s.tile u).group) ∧ (s.stepState v =
    stRunning) ∧ (u ≠ v) ∧ (s.soft = []) ∧ (s.fenceReq = []) ∧ (s.unfenceReq = []) ∧ (s.coreDue = [])) ∧
    (∃ (u : Fin 64) (k : Nat) (s : State) (w : WaitRec) (d : Int), ((s.tile u).tail = .waiting w) ∧ (w.d = some d) ∧ (s.stepState u =
    stRunning) ∧
      let lim := d + w.count * tileClock;
      let here := tileEdge d + k * tileClock;
      let late : Prop := w.count ≠ 0 ∧ lim ≤ here;
      let stop := if late then lim else here;
      let hold := s.firstHold u w.cond (tileEdge d) stop;
      ((hold.isSome = true ∨ late)) ∧ (s.unseen u (stop - condDelay) = false)) :=
  ⟨⟨3, op [(R.SEQ_STATUS_STATE 3,3),(R.SEQ_STATUS_PC 3,16383)], by unfold OnTime; decide +kernel⟩,
    ⟨3, op [(R.SEQ_STATUS_STATE 3,3),(R.SEQ_STATUS_PC 3,16383),(R.STRM_CFG_RING_LEN 3,4),(R.STRM_CFG_RING_FIRST 3,14),(R.STRM_STATUS_CUR
      3,1)], by unfold OnTime; decide +kernel⟩,
    ⟨3, op [(R.SEQ_STATUS_STATE 3,3),(R.SEQ_STATUS_PC 3,16383)] |>.modTile 3 fun c =>
      { c with queue := [{ kind := .hold, tset := 0, left := 4 }] }, by unfold OnTime; decide +kernel⟩,
    ⟨3, 63, ((op [(R.SEQ_STATUS_STATE 3,3),(R.SEQ_STATUS_STATE 63,3)]).modTile 3 fun c =>
      { c with tail := .ending [], group := 2 }).modTile 63 fun c => { c with group := 2 }, by decide +kernel⟩,
    ⟨3, 3, (op [(R.SEQ_STATUS_STATE 3,3),(R.SEQ_STATUS_PC 3,16383),(R.SEQ_STATUS_WAITING 3,1)]).modTile 3 fun c =>
      { c with tail := .waiting { cond := ⟨0,false,0,false⟩, count := 3, target := 16383, marks := [], d := some 5 } },
      { cond := ⟨0,false,0,false⟩, count := 3, target := 16383, marks := [], d := some 5 }, 5, by decide +kernel⟩⟩

theorem witness_CyclesBegin :
    (∃ (u : Fin 64) (s : State) (r : Run) (rest : List Run), (s.stepState u = stRunning) ∧ ((s.tile u).stall = none) ∧ ((s.tile u).closing =
    false) ∧ ((s.tile u).queue = r :: rest) ∧ ((r.kind = .hold ∨ ((s.tile u).lastSeg = some r.seg ∧ (r.strm = true → r.seg ∉ (s.tile
    u).consumed)) ∨ s.segReady u r.seg (s.tile u).endE = true)) ∧ (r.per = none) ∧ (s.cycles u + 1 < 2 ^ 64)) ∧
    (∃ (u : Fin 64) (s : State) (r : Run) (rest : List Run), (s.stepState u = stRunning) ∧ ((s.tile u).stall = none) ∧ ((s.tile u).closing =
    false) ∧ ((s.tile u).queue = r :: rest) ∧ (r.kind ≠ .hold) ∧ (((s.tile u).lastSeg ≠ some r.seg ∨ (r.strm = true ∧ r.seg ∈ (s.tile
    u).consumed))) ∧ (s.segReady u r.seg (s.tile u).endE = false) ∧ ((if r.started then r.ssafe else r.entry) = true)) ∧
    (∃ (u : Fin 64) (s : State), (s.stepState u ≠ stRunning ∨ (s.tile u).stall.isSome = true)) :=
  ⟨⟨3, (op [(R.SEQ_STATUS_STATE 3,3)]).modTile 3 fun c =>
      { c with queue := [{ kind := .hold, tset := 0, left := 1 }], period := 81920000, endE := 81920001, lastE := 81920001  },
      { kind := .hold, tset := 0, left := 1 }, [], by decide +kernel⟩,
    ⟨3, (op [(R.SEQ_STATUS_STATE 3,3)]).modTile 3 fun c =>
      { c with queue := [{ kind := .vec, tset := 0, seg := 15, left := 4, entry := true }], period := 81920000, endE := 81920001, lastE := 81920001  },
      { kind := .vec, tset := 0, seg := 15, left := 4, entry := true }, [], by decide +kernel⟩,
    ⟨3, op [], by decide +kernel⟩⟩

theorem witness_StallsEnd :
    (∃ (u : Fin 64) (s : State) (e : Int) (seg : Nat), ((s.tile u).stall = some (e, seg)) ∧
      let i := gridFrom (s.tile u).period (max e (Store.get (fun _ => 0) (s.tile u).tc seg + readyDelay));
      (s.segReady u seg i = true) ∧ ((s.stallLimit u = 0 ∨ i < e + s.stallLimit u)) ∧ (s.fget (R.STALL_COUNT_COUNT u) < 2 ^ 32 - 1)) ∧
    (∃ (u : Fin 64) (v : Fin 64) (s : State), (u ≠ v) ∧ ((∃ e seg, (s.tile u).stall = some (e, seg) ∧ e + s.stallLimit u < s.tileTime u s.now
    + 2560 * unitFs)) ∧ (s.stallLimit u ≠ 0) ∧ (s.stepState u = stRunning) ∧ ((s.tile u).group ≠ 0) ∧ ((s.tile v).group = (s.tile
    u).group) ∧ (s.stepState v = stRunning) ∧ (s.soft = []) ∧ (s.fenceReq = []) ∧ (s.unfenceReq = []) ∧ (s.coreDue = [])) :=
  ⟨⟨3, (op [(R.SEQ_STATUS_STATE 3,3),(segFld 3 15,2),(R.SEQ_STATUS_STALLED 3,1)]).modTile 3 fun c =>
      { c with stall := some (5,15), period := 81920000 }, 5, 15, by decide +kernel⟩,
    ⟨3, 63,
      (({ op [(R.SEQ_STATUS_STATE 3,3),(R.SEQ_STATUS_STATE 63,3),(R.STALL_LIMIT_LIMIT 3,1),(R.SEQ_STATUS_STALLED 3,1)] with sysTime := 2^40 }).modTile
      3 fun c => { c with stall := some (5,15), period := 81920000, group := 2 }).modTile 63 fun c => { c with group := 2 }, by
      decide +kernel, ⟨5, 15, by decide +kernel⟩, by decide +kernel, by decide +kernel, by decide +kernel, by decide +kernel, by
      decide +kernel, by decide +kernel, by decide +kernel, by decide +kernel, by decide +kernel⟩⟩

theorem witness_StrobesAndStops :
    (∃ (ch : Fin 1024) (volts : List Int) (s : State) (x : Strobe), ((s.chan ch).strobes.find? (fun (y : Strobe) => y.expect != .profile) =
    some x) ∧ (s.strobeFirm ch x = true) ∧ (volts ≠ []) ∧ ((s.tile (ch / 16)).closing = false)) ∧
    (∃ (ch : Fin 1024) (s : State), ((∀ x, (s.chan ch).strobes.find? (fun (y : Strobe) => y.expect != .profile) = some x → s.strobeFirm ch x =
    false))) ∧
    (∃ (ch : Fin 1024) (f : Bool) (edge : Nat) (code : Fin 256) (s : State),
      let i : Int := (s.stopInstant ch edge code + (s.tile (ch / 16)).wraps * (epochLength / stopUnit)) * stopUnit;
      (s.stepState (ch / 16) = stRunning) ∧ (s.mode ch ≠ 0) ∧ (s.flag (R.TDC_CFG_EN ch) = true) ∧ (s.flag (if f then R.CH_STATUS_KNOWN_LO
    ch else R.CH_STATUS_KNOWN_HI ch) = true) ∧ ((∃ w ∈ (s.chan ch).wins, w.opened = true ∧ w.opens ≤ i ∧ i < w.closes)) ∧ ((∀ w ∈ (s.chan
    ch).wins, w.opened = false → i < w.opens)) ∧ (s.stopFirm ch i = true) ∧ ((s.tile (ch / 16)).stops = []) ∧ ((∃ l, (s.chan ch).lastStop
    = some l ∧ i < l + deadTime)) ∧ (s.fget (R.TDC_DEAD_COUNT ch) < 2 ^ 32 - 1)) ∧
    (∃ (ch : Fin 1024) (f : Bool) (edge : Nat) (code : Fin 256) (s : State),
      let i : Int := (s.stopInstant ch edge code + (s.tile (ch / 16)).wraps * (epochLength / stopUnit)) * stopUnit;
      (s.stepState (ch / 16) = stRunning) ∧ (s.mode ch ≠ 0) ∧ (s.flag (R.TDC_CFG_EN ch) = true) ∧ (s.flag (if f then R.CH_STATUS_KNOWN_LO
    ch else R.CH_STATUS_KNOWN_HI ch) = true) ∧ ((∃ w ∈ (s.chan ch).wins, w.opened = true ∧ w.opens ≤ i ∧ i < w.closes)) ∧ ((∀ w ∈ (s.chan
    ch).wins, w.opened = false → i < w.opens)) ∧ (s.stopFirm ch i = true) ∧ ((s.tile (ch / 16)).stops = []) ∧ ((∀ l, (s.chan ch).lastStop
    = some l → l + deadTime ≤ i)) ∧ ((s.fget (R.TDC_CFG_CLS ch)).testBit f.toNat = true) ∧ (s.fget (R.TDC_ACCEPT_COUNT ch) < 2 ^ 32 - 1)) :=
  ⟨⟨17, [3000000], (op [(R.CH_MODE_MODE 17,1),(R.CH_STATUS_KNOWN_HI 17,1),(R.SEQ_STATUS_STATE 1,3)]).modChan 17 fun c =>
      { c with strobes := [{ cyc := 0, start := 0, stop := 10, expect := .high, s0 := 9, s1 := 9 }] },
      { cyc := 0, start := 0, stop := 10, expect := .high, s0 := 9, s1 := 9 }, by decide +kernel⟩,
    ⟨17, op [], by decide +kernel⟩,
    ⟨17, true, 1, 17,
      ({ op [(R.CH_MODE_MODE 17,1),(R.CH_STATUS_KNOWN_LO 17,1),(R.SEQ_STATUS_STATE 1,3),(R.TDC_CFG_EN 17,1)] with calApplied := [(calKey 17 3, ({ values := [0, 0, 7], measured := true } : CalItem)), (calKey 17 4, ({ values := List.replicate 256 0, measured := true } : CalItem))] }).modChan
      17 fun c => { c with wins := [{ cyc := 0, r := 0, w := 0, opens := 0, closes := 2^40, opened := true }], lastStop := some 3 },
      by decide +kernel⟩,
    ⟨17, true, 1, 17,
      ({ op [(R.CH_MODE_MODE 17,1),(R.CH_STATUS_KNOWN_LO 17,1),(R.SEQ_STATUS_STATE 1,3),(R.TDC_CFG_EN 17,1),(R.TDC_CFG_CLS 17,2)] with calApplied := [(calKey 17 3, ({ values := [0, 0, 7], measured := true } : CalItem)), (calKey 17 4, ({ values := List.replicate 256 0, measured := true } : CalItem))] }).modChan
      17 fun c => { c with wins := [{ cyc := 0, r := 0, w := 0, opens := 0, closes := 2^40, opened := true }], lastStop := none }, by
      decide +kernel⟩⟩

theorem witness_LinksTrain :
    (∃ (l : Fin 12) (r : TrainReport) (s : State), (s.linkState l = lkTraining) ∧ (s.goodLanes l r ≠ []) ∧ (s.flag (R.LINK_CTRL_TEST l) =
    false) ∧ (Mild s (linkBase l) 0)) ∧
    (∃ (l : Fin 12) (s : State), (s.linkState l = lkTraining) ∧ (s.linkWaited l 20000 = true) ∧ (Mild s (linkBase l) 3) ∧ (s.fget
    (R.LINK_TRAINFAIL_COUNT l) < 2 ^ 32 - 1)) ∧
    (∃ (l : Fin 12) (beacon : Bool) (s : State), (s.linkState l = lkDown) ∧ (beacon = true ∨ s.linkWaited l
    (match (s.link l).fails with | 0 | 1 => 10000 | 2 => 20000 | 3 => 40000 | 4 => 80000 | 5 => 160000 | 6 => 320000 | 7 => 640000 | _ => 1000000)
    = true)) ∧
    (∃ (l : Fin 12) (s : State), (s.linkState l ≠ lkDown)) ∧
    (∃ (l : Fin 12) (beacon : Bool) (s : State), (beacon = false) ∧ (s.linkWaited l (downWait (s.link l).fails) = false)) ∧
    (∃ (l : Fin 12) (s : State), (s.linkWaited l 20000 = false)) ∧
    (∃ (l : Fin 12) (s : State), (s.linkWaited l 50 = false)) ∧
    (∃ (l : Fin 12) (r : TrainReport) (s : State), (s.linkState l = lkRetrain) ∧ (s.goodLanes l r ≠ []) ∧ (s.flag (R.LINK_CTRL_TEST l) =
    false) ∧ ((s.link l).outst = [])) ∧
    (∃ (l : Fin 12) (b : Bool) (s : State), (s.linkState l = lkRetrain) ∧ (b = true ∨ s.linkWaited l 50 = true) ∧ (Mild s (linkBase l) 1)) ∧
    (∃ (l : Fin 12) (j : Fin 8) (c : Fin 4) (blocks : List (BitVec 66)) (s : State),
      let had : LaneRx := Store.get (fun _ => {}) (s.link l).lanes j;
      let locks := blocks.scanl LaneRx.block had;
      (c = 0) ∧ (locks.all (·.lock) = true)) ∧
    (∃ (l : Fin 12) (j : Fin 8) (c : Fin 4) (blocks : List (BitVec 66)) (s : State),
      let had : LaneRx := Store.get (fun _ => {}) (s.link l).lanes j;
      let locks := blocks.scanl LaneRx.block had;
      (s.linkState l = lkActive) ∧ ((s.fget (R.LINK_STATUS_USED l)).testBit j = true) ∧ (s.fencedLanes l ||| 2 ^ j.val ≠ 0xFF) ∧ ((c = 0 →
    had.lock = true ∧ locks.all (·.lock) = false)) ∧ ((c = 3 → s.fget (R.LINK_BIPTHR_THR l) ≠ 0)) ∧ (Mild s (linkBase l) 2) ∧ (Mild s
    (linkBase l) 5)) ∧
    (∃ (l : Fin 12) (j : Fin 8) (w : BitVec 64) (since : List (BitVec 64)) (s : State), (s.linkState l = lkActive ∨ s.linkState l = lkRetrain)
    ∧ (j.val ∈ s.lanesOf l) ∧ (s.amLane l j w = true) ∧
      let bip := w.extractLsb' 16 8 == bip8 since;
      ((bip = true ∨ s.fget (R.LINK_BIPTHR_THR l) = 0)) ∧ (s.fget (R.LANE_ERR_COUNT l j) < 2 ^ 32 - 1)) ∧
    (∃ (l : Fin 12) (j : Fin 8) (am : Option (BitVec 64)) (since : List (BitVec 64)) (s : State), (s.linkState l = lkActive ∨ s.linkState l =
    lkRetrain) ∧ (j.val ∈ s.lanesOf l) ∧ (am.any (s.amLane l j) = false) ∧ (am.all (fun w => w.extractLsb' 16 8 == bip8 since) = true) ∧
    (j.val ∉ (s.link l).amBad)) ∧
    (∃ (l : Fin 12) (j : Fin 8) (s : State), (s.linkState l = lkActive) ∧ ((s.fget (R.LINK_STATUS_USED l)).testBit j = true) ∧ (j.val ∈
    (s.link l).amBad) ∧ (s.fencedLanes l ||| 2 ^ j.val ≠ 0xFF) ∧ (Mild s (linkBase l) 2)) :=
  ⟨⟨11, { good := 0xFF, partnerGood := 0x7E, partnerChip := 9, partnerLink := 3, probe := 10, echo := 1000, turnaround := 5 }, op
      [(R.LINK_STATUS_STATE 11,lkTraining),(R.LINK_CTRL_EN 11,1),(R.LINK_CTRL_WMAX 11,4)], by unfold Mild; decide +kernel⟩,
    ⟨11, op [(R.LINK_STATUS_STATE 11,lkTraining)], by unfold Mild; decide +kernel⟩,
    ⟨11, true, op [(R.LINK_STATUS_STATE 11,lkDown)], by decide +kernel⟩,
    ⟨11, op [], by decide +kernel⟩,
    ⟨11, false, (op [(R.LINK_STATUS_STATE 11,lkDown)]).modLink 11 fun c => { c with entered := some 0, fails := 1 }, by decide +kernel⟩,
    ⟨11, (op [(R.LINK_STATUS_STATE 11,lkTraining)]).modLink 11 fun c => { c with entered := some 0 }, by decide +kernel⟩,
    ⟨11, (op [(R.LINK_STATUS_STATE 11,lkRetrain)]).modLink 11 fun c => { c with entered := some 0 }, by decide +kernel⟩,
    ⟨11, { good := 0xFF, partnerGood := 0x7E, partnerChip := 9, partnerLink := 3, probe := 10, echo := 1000, turnaround := 5 }, op
      [(R.LINK_STATUS_STATE 11,lkRetrain),(R.LINK_CTRL_WMAX 11,4)], by decide +kernel⟩,
    ⟨11, true, op [(R.LINK_STATUS_STATE 11,lkRetrain)], by unfold Mild; decide +kernel⟩,
    ⟨11, 7, 0, List.replicate 70 (BitVec.ofNat 66 1), (op [(R.LINK_STATUS_STATE 11,lkActive),(R.LINK_STATUS_USED 11,0xFF)]).modLink 11 fun
      c => { c with lanes := [(7,{ lock := true })] }, by decide +kernel⟩,
    ⟨11, 7, 1, [], op [(R.LINK_STATUS_STATE 11,lkActive),(R.LINK_STATUS_USED 11,0xFF)], by unfold Mild; decide +kernel⟩,
    ⟨11, 7, 0x010787, [1], op [(R.LINK_STATUS_STATE 11,lkActive),(R.LINK_STATUS_USED 11,0xFF)], by decide +kernel⟩,
    ⟨11, 7, none, [1], op [(R.LINK_STATUS_STATE 11,lkActive),(R.LINK_STATUS_USED 11,0xFF)], by decide +kernel⟩,
    ⟨11, 7, (op [(R.LINK_STATUS_STATE 11,lkActive),(R.LINK_STATUS_USED 11,0xFF)]).modLink 11 fun c => { c with amBad := [7] }, by
      unfold Mild; decide +kernel⟩⟩

theorem witness_LinksCarryFrames :
    (∃ (l : Fin 12) (s : State), (s.linkState l = lkActive) ∧ ((s.link l).loop = true)) ∧
    (∃ (l : Fin 12) (f : Frame) (s : State), (s.linkState l = lkActive) ∧ ((s.link l).loop = false) ∧ ((∃ c, f.crc = some c ∧ c ≠ f.crc32) ∨
    s.eccFrame = true) ∧ (s.fget (R.LINK_CRCERR_COUNT l) < 2 ^ 32 - 1)) ∧
    (∃ (l : Fin 12) (f : Frame) (s : State), (s.linkState l = lkActive) ∧ ((s.link l).loop = false) ∧ (f.crc = none ∨ f.crc = some f.crc32) ∧
    (s.eccFrame = false) ∧ (f.nak = false) ∧ ((s.link l).since + 1 < 32) ∧ (f.cls = 0)) ∧
    (∃ (l : Fin 12) (f : Frame) (s : State), (s.linkState l = lkActive) ∧ ((s.link l).loop = false) ∧ (f.crc = none ∨ f.crc = some f.crc32) ∧
    (s.eccFrame = false) ∧ (f.nak = false) ∧ ((s.link l).since + 1 < 32) ∧
      let inOrder := f.seq.toNat = ((s.link l).rxAck + 1) % 4096;
      (f.cls ≠ 0) ∧ (¬inOrder)) ∧
    (∃ (l : Fin 12) (f : Frame) (s : State), (s.linkState l = lkActive) ∧ ((s.link l).loop = false) ∧ (f.crc = none ∨ f.crc = some f.crc32) ∧
    (s.eccFrame = false) ∧ (f.nak = false) ∧ ((s.link l).since + 1 < 32) ∧
      let inOrder := f.seq.toNat = ((s.link l).rxAck + 1) % 4096;
      (f.cls ≠ 0) ∧ (inOrder) ∧ (f.cls ≠ 3 ∨ f.eop = false) ∧ (s.writes = [])) ∧
    (∃ (l : Fin 12) (ack : BitVec 12) (s : State), (s.linkState l = lkActive) ∧
      let r := ((s.ackIn l ack).link l).outst;
      ((∀ e ∈ r, e.2 < 7))) ∧
    (∃ (l : Fin 12) (s : State), (s.linkState l = lkActive)) ∧
    (∃ (l : Fin 12) (s : State), (s.linkState l ≠ lkActive)) :=
  ⟨⟨11, (op [(R.LINK_STATUS_STATE 11,lkActive),(R.LINK_STATUS_USED 11,0xFF)]).modLink 11 fun c => { c with loop := true }, by
      decide +kernel⟩,
    ⟨11, { crc := some 5 }, op [(R.LINK_STATUS_STATE 11,lkActive),(R.LINK_STATUS_USED 11,0xFF)], by decide +kernel, by decide +kernel,
      Or.inl ⟨5, rfl, by decide +kernel⟩, by decide +kernel⟩,
    ⟨11, { cls := 0, crCmd := 63, crRsp := 1, crStrm := 2 }, op [(R.LINK_STATUS_STATE 11,lkActive),(R.LINK_STATUS_USED
      11,0xFF),(R.LINK_CREDIT_CMD 11,1000)], by decide +kernel⟩,
    ⟨11, { cls := 1, seq := 5 }, op [(R.LINK_STATUS_STATE 11,lkActive),(R.LINK_STATUS_USED 11,0xFF),(R.LINK_CREDIT_CMD 11,1000)], by
      decide +kernel⟩,
    ⟨11, { cls := 1, seq := 0, sop := true, bytes := List.replicate 224 0, crCmd := 63 }, op [(R.LINK_STATUS_STATE
      11,lkActive),(R.LINK_STATUS_USED 11,0xFF),(R.LINK_CREDIT_CMD 11,1000)], by decide +kernel⟩,
    ⟨11, 3, (op [(R.LINK_STATUS_STATE 11,lkActive),(R.LINK_STATUS_USED 11,0xFF)]).modLink 11 fun c =>
      { c with outst := [({ cls := 1, seq := 3 },6),({ cls := 1, seq := 4 },6)], txNext := 5 }, by decide +kernel⟩,
    ⟨11, op [(R.LINK_STATUS_STATE 11,lkActive),(R.LINK_STATUS_USED 11,0xFF)], by decide +kernel⟩,
    ⟨11, op [], by decide +kernel⟩⟩

theorem witness_LinkRegisters :
    (∃ (l : Fin 12) (s : State), (s.linkState l = lkOff)) ∧
    (∃ (l : Fin 12) (test : Bool) (prbs : Bool) (loop : BitVec 3) (arrival : Option (Fin 12)) (s : State) (st : _), (s.testRefused l test prbs
    loop.toNat (arrival.map (·.val)) = some st)) ∧
    (∃ (l : Fin 12) (test : Bool) (prbs : Bool) (loop : BitVec 3) (arrival : Option (Fin 12)) (s : State), (s.testRefused l test prbs
    loop.toNat (arrival.map (·.val)) = none)) ∧
    (∃ (l : Fin 12) (s : State), (s.linkState l = lkActive) ∧ (s.fget (R.LINK_RETRAIN_COUNT l) < 2 ^ 32 - 1)) ∧
    (∃ (l : Fin 12) (s : State), (s.linkState l = lkActive)) ∧
    (∃ (l : Fin 12) (s : State), (s.flag (R.LINK_CTRL_ALLOW_FELB l) = true) ∧ (s.carriesHost l = false)) ∧
    (∃ (l : Fin 12) (s : State), (s.flag (R.LINK_CTRL_ALLOW_FELB l) = false ∨ s.carriesHost l = true)) ∧
    (∃ (l : Fin 12) (s : State), (s.fget (R.LINK_CTRL_LOOP l) = 3)) ∧
    (∃ (l : Fin 12) (s : State), (s.linkState l = lkTraining ∨ s.linkState l = lkActive ∨ s.linkState l = lkRetrain)) ∧
    (∃ (typ : _), (typ ∈ controlTypes)) ∧
    (∃ (l : Fin 12) (s : State) (typ : _), (typ ∉ controlTypes) ∧ (s.fget (R.LINK_CRCERR_COUNT l) < 2 ^ 32 - 1)) ∧
    (∃ (l : Fin 12) (first : BitVec 64) (b : BitVec 64) (others : List (BitVec 64)) (s : State), (s.linkState l = lkActive) ∧ ((first ::
    others).find? eventBlock = some b) ∧ (s.fget R.LINKEV_RX_COUNT < 2 ^ 32 - 1) ∧ ((∀ u, u < 64 → s.fget (R.TRIG_CFG_SRC u) ≠ 4))) ∧
    (∃ (first : BitVec 64) (others : List (BitVec 64)), ((first :: others).find? eventBlock = none)) ∧
    (∃ (k : BitVec 5) (s : State), (s.sessOpen k.toNat = true) ∧ ((s.ctx k.toNat).retCells ≠ 0) ∧ (s.fget (R.SESS_LOAD_EVQ k.toNat) < 64)) ∧
    (∃ (l : Option (Fin 12)) (s : State), ((∀ k, l = some k → s.linkState k ≠ lkActive ∧ s.linkState k ≠ lkRetrain))) ∧
    (∃ (l : Fin 12) (s : State), (s.linkState l = lkActive ∨ s.linkState l = lkRetrain)) :=
  ⟨⟨11, op [], by decide +kernel⟩,
    ⟨11, true, false, 0, some 11, op [], St.busy, by decide +kernel⟩,
    ⟨11, true, false, 0, none, op [(R.LINK_STATUS_STATE 11,lkActive),(R.LINK_STATUS_USED 11,0xFF),(R.LANE_ERR_COUNT 11 3,5)], by
      decide +kernel⟩,
    ⟨11, op [(R.LINK_STATUS_STATE 11,lkActive),(R.LINK_STATUS_USED 11,0xFF)], by decide +kernel⟩,
    ⟨11, op [(R.LINK_STATUS_STATE 11,lkActive),(R.LINK_STATUS_USED 11,0xFF)], by decide +kernel⟩,
    ⟨11, op [(R.LINK_CTRL_ALLOW_FELB 11,1)], by decide +kernel⟩,
    ⟨11, op [], by decide +kernel⟩,
    ⟨11, op [(R.LINK_CTRL_LOOP 11,3)], by decide +kernel⟩,
    ⟨11, op [(R.LINK_STATUS_STATE 11,lkTraining)], by decide +kernel⟩,
    ⟨0x4B, by decide +kernel⟩,
    ⟨11, op [], 0x4C, by decide +kernel⟩,
    ⟨11, 0x78, 0x090000000009FF78, [0x090000000009FF78], op [(R.LINK_STATUS_STATE 11,lkActive),(R.LINK_STATUS_USED
      11,0xFF),(R.TILE_PWR_STATE 5,3)], by decide +kernel⟩,
    ⟨0x78, [0], by decide +kernel⟩,
    ⟨0, (op []).modCtx 0 fun c => { c with retCells := 3, retSlots := 1 }, by decide +kernel⟩,
    ⟨some 11, (op []).modLink 11 fun c => { c with queue := [{ frame := {}, pkt := 1 }] }, by decide +kernel⟩,
    ⟨11, op [(R.LINK_STATUS_STATE 11,lkActive),(R.LINK_STATUS_USED 11,0xFF)], by decide +kernel⟩⟩

theorem witness_BundlesAndAttestations :
    (∃ (q : Req) (s : State), (s.wakeEngine.runs 0x60 q = true) ∧ (q.n 2 = 0) ∧ (s.flag R.BOOT_STATUS_RECOVERY = false) ∧ (s.fget
    R.LC_STATUS_STATE = 2) ∧ (s.flag R.LC_STATUS_SEALBLK = false) ∧ (s.flag R.LC_STATUS_PUF_OK = true) ∧ (s.sealForever = false) ∧ (s.flag
    R.ENG_STATUS_HOLDING = false) ∧ (s.staging = none) ∧ ((∀ u ∈ q.tiles 0, s.tileFenced u = false ∧ s.idle u = true ∧ s.power u < 2)) ∧
    (part0Ok q.payload (q.p 0) (q.p 1) = true) ∧ (s.ownerKey (sub q.payload 64 160) = true) ∧ (q.verdict.sigOk = true) ∧ ((s.unwrap
    q.payload).isSome = true) ∧ ((s.bundlesOutside (q.tiles 0)).length ≠ 4) ∧ (s.splits.length < 256)) ∧
    (∃ (o : OpRef) (s : State) (x : Split) (g : Staging), (s.split? 0x60 o = some x) ∧ (s.staging = some g) ∧ ((x.params.getD 2 0).toNat = 0)) ∧
    (∃ (s : State), (s.stagingOld = true) ∧ ((∀ x ∈ s.splits, x.opcode ≠ 0x60))) ∧
    (∃ (s : State), (s.stagingOld = false)) ∧
    (∃ (q : Req) (s : State) (r : StepRec), (s.runs 0x61 q = true) ∧ (s.flag R.ENG_STATUS_HOLDING = false) ∧ (s.fget R.LC_STATUS_STATE ≠ 3) ∧
    (s.flag R.LC_STATUS_PUF_OK = true) ∧ (s.steps.find? (fun (r : StepRec) => r.tiles == q.tiles 0 && (q.tiles 0).all s.idle) = some r) ∧
    (s.splits.length < 256)) ∧
    (∃ (o : OpRef) (s : State) (x : Split), (s.split? 0x61 o = some x) ∧ ((∃ e ∈ s.attests, e.1 = x.id)) ∧ (s.drbgBad = false) ∧ (s.fget
    R.ATT_COUNT_COUNT < 2 ^ 32 - 1)) ∧
    (∃ (s : State), (s.merges = [])) ∧
    (∃ (q : Req) (s : State), (s.runs 0x63 q = true)) :=
  ⟨⟨rq [1,0,0] sealPart0, owned, by decide +kernel, by decide +kernel, by decide +kernel, by decide +kernel, by decide +kernel, by
      decide +kernel, by decide +kernel, by decide +kernel, by decide +kernel, by decide +kernel, by decide +kernel, owned_key, rfl,
      owned_unwrap, by decide +kernel, by decide +kernel⟩,
    ⟨⟨0,7⟩,
      { op [] with splits := [({ id := 5, opcode := 0x60, session := 0, tag := 7, params := [1,0,0] } : Split)], staging := some { session := 0, tilesLo := 1, tilesHi := 0, nextPart := 0, nextIndex := 1, nsect := 1, bytes := 0, policy := 0, bundle := {}, sectDigest := [], received := [], sections := [] } },
      ({ id := 5, opcode := 0x60, session := 0, tag := 7, params := [1,0,0] } : Split),
      { session := 0, tilesLo := 1, tilesHi := 0, nextPart := 0, nextIndex := 1, nsect := 1, bytes := 0, policy := 0, bundle := {}, sectDigest := [], received := [], sections := [] },
      by decide +kernel⟩,
    ⟨{ op [(R.LC_STATUS_STAGING,1)] with staging := some { session := 0, tilesLo := 1, tilesHi := 0, nextPart := 0, nextIndex := 1, nsect := 1, bytes := 0, policy := 0, bundle := {}, sectDigest := [], received := [], sections := [] }, sysTime := 2^60 },
      by decide +kernel⟩,
    ⟨{ op [(R.LC_STATUS_STAGING,1)] with staging := some { session := 0, tilesLo := 1, tilesHi := 0, nextPart := 0, nextIndex := 1, nsect := 1, bytes := 0, policy := 0, bundle := {}, sectDigest := [], received := [], sections := [] } },
      by decide +kernel⟩,
    ⟨rq [1,0x80000000,0,0,0,0],
      { op [(R.LC_STATUS_STATE,2),(R.LC_STATUS_PUF_OK,1)] with steps := [({ tiles := [0,63], flags := 0, bundleDigest := [], repImages := [], epoch := 1, startAt := 0, endAt := 9, mrnSeq := 0, policy := 0, repGen := 0, bins := [(0,1)] } : StepRec)], ids := 9 },
      ({ tiles := [0,63], flags := 0, bundleDigest := [], repImages := [], epoch := 1, startAt := 0, endAt := 9, mrnSeq := 0, policy := 0, repGen := 0, bins := [(0,1)] }
      : StepRec), by decide +kernel⟩,
    ⟨⟨0,7⟩,
      { op [] with splits := [({ id := 5, opcode := 0x61, session := 0, tag := 7, params := [1,0x80000000,1,2,3,4] } : Split)], attests := [(5,({ tiles := [0,63], flags := 0, bundleDigest := [], repImages := [], epoch := 1, startAt := 0, endAt := 9, mrnSeq := 0, policy := 0, repGen := 0, bins := [(0,1)] } : StepRec))] },
      ({ id := 5, opcode := 0x61, session := 0, tag := 7, params := [1,0x80000000,1,2,3,4] } : Split), by decide +kernel⟩,
    ⟨op [], by decide +kernel⟩,
    ⟨rq [3], op [], by decide +kernel⟩⟩

theorem witness_LifeCycleAndTamper :
    (∃ (q : Req) (s : State), (s.runs 0x62 q = true) ∧ (s.flag R.ENG_STATUS_HOLDING = false) ∧ (q.n 0 < 16) ∧ (lcNeeds (s.fget
    R.LC_STATUS_STATE) (q.n 0) = none)) ∧
    (∃ (q : Req) (s : State) (p : _), (s.runs 0x62 q = true) ∧ (s.flag R.ENG_STATUS_HOLDING = false) ∧ (q.n 0 < 16) ∧ (lcNeeds (s.fget
    R.LC_STATUS_STATE) (q.n 0) = some p) ∧ (p ≤ s.fget (R.SESS_STAT_PRIV q.session.toNat)) ∧ (s.fget R.LC_STATUS_LC_COUNT < 32) ∧ ((∀ u, u
    < 64 → s.idle u = true)) ∧ (s.staging = none) ∧ (authLayout q.payload (q.n 0) = true) ∧ (allZero (sub q.payload 8 23) = false) ∧ (sub
    q.payload 8 23 = s.deviceId) ∧ ((q.payload.getD 5 0).toNat = s.fget R.LC_STATUS_LC_COUNT) ∧ (s.signerOk q = true) ∧ (q.verdict.sigOk =
    true) ∧ ((q.n 0 = 1 → q.verdict.certOk = true ∧ s.certProfile (q.payload.drop 228) = true)) ∧ (s.splits.length < 256) ∧ ((∀ x ∈
    s.splits, x.opcode ≠ 0x62))) ∧
    (∃ (s : State) (x : Split) (new : _), (s.splits.find? (fun (x : Split) => x.opcode == 0x62) = some x) ∧ (s.staged.length < 120) ∧ ((∀ n, n
    < 4 → (Store.get (fun _ => {}) s.bundles n).shareWords = [])) ∧ (new ∈ [1, 2, 3]) ∧ ((x.params.getD 0 0).toNat = new) ∧ (s.fget
    R.LC_STATUS_LC_COUNT < 32)) ∧
    (∃ (s : State) (x : Split), (s.splits.find? (fun (x : Split) => x.opcode == 0x62) = some x) ∧ (s.staged.length < 120) ∧ ((∀ n, n < 4 →
    (Store.get (fun _ => {}) s.bundles n).shareWords = []))) ∧
    (∃ (p : Packet) (live : Bool) (quiet : Bool) (s : State), (s.items = [.completion p live quiet .closeAll]) ∧ (s.veing.cmd = none)) ∧
    (∃ (src : BitVec 6) (s : State), (src ≠ 0) ∧ (s.holdsStep = false) ∧ ((∀ u, u < 64 → s.ending u = false)) ∧ ((∀ k, k < 6 → Mild s 0x50000
    k)) ∧ ((∀ n, n < 4 → (Store.get (fun _ => {}) s.bundles n).shareWords = []))) ∧
    (∃ (s : State), (Mild s 0x50000 7)) :=
  ⟨⟨rq [1] [1], op [], by decide +kernel⟩,
    ⟨rq [2] (pl 24 [(0,1),(4,2),(8,5)] ++ point384 ++ pl 103 []), (op [(⟨R.DEVICE_ID
      0,7,0⟩,5),(R.LC_STATUS_STATE,1),(R.LC_STATUS_LC_COUNT,0)]).modCtx 0 fun c => { c with ticket := point384 }, 3, by
      decide +kernel⟩,
    ⟨{ op [(⟨R.DEVICE_ID 0,7,0⟩,5),(R.LC_STATUS_STATE,0),(R.LC_STATUS_LC_COUNT,0)] with splits := [({ id := 5, opcode := 0x62, session := 0, tag := 7, params := [1], payload := (pl 232 [(0,1),(4,1),(8,5),(224,4)]) } : Split)] },
      ({ id := 5, opcode := 0x62, session := 0, tag := 7, params := [1], payload := (pl 232 [(0,1),(4,1),(8,5),(224,4)]) } : Split),
      1, by decide +kernel⟩,
    ⟨{ op [(⟨R.DEVICE_ID 0,7,0⟩,5),(R.LC_STATUS_STATE,0),(R.LC_STATUS_LC_COUNT,0)] with splits := [({ id := 5, opcode := 0x62, session := 0, tag := 7, params := [1], payload := (pl 232 [(0,1),(4,1),(8,5),(224,4)]) } : Split)] },
      ({ id := 5, opcode := 0x62, session := 0, tag := 7, params := [1], payload := (pl 232 [(0,1),(4,1),(8,5),(224,4)]) } : Split),
      by decide +kernel⟩,
    ⟨({ kind := 2, opcode := 0xB0, status := 0, session := 0, tag := 7 } : Packet), true, false,
      { op [] with items := [.completion ({ kind := 2, opcode := 0xB0, status := 0, session := 0, tag := 7 } : Packet) true false .closeAll] },
      by decide +kernel⟩,
    ⟨0x3F, op [(R.LC_STATUS_STATE,2),(R.LC_STATUS_PUF_OK,1)], by unfold Mild; decide +kernel⟩,
    ⟨op [(R.PCNT_CFG_EN 5,1),(R.PCNT_CFG_EVENT 5,64)], by unfold Mild; decide +kernel⟩⟩

theorem witness_EngineWorks :
    (∃ (s : State), (s.items = []) ∧ (s.veing.cmd = none)) ∧
    (∃ (p : Packet) (quiet : Bool) (s : State), (s.items = [.completion p true quiet .none]) ∧ (p.entry = none) ∧ ((quiet && quietable
    p.status) = false) ∧ (s.veing.cmd = none)) ∧
    (∃ (p : Packet) (live : Bool) (quiet : Bool) (s : State), (s.items = [.completion p live quiet .none]) ∧ (p.entry = none) ∧ (live = false
    ∨ (quiet && quietable p.status) = true) ∧ (s.veing.cmd = none)) ∧
    (∃ (op : BitVec 8) (q : Req) (s : State), (s.items = [.request op q]) ∧ (s.veing.cmd = none) ∧ ((s.runRequest op q).copies op q = 0) ∧ (op
    ≠ 0x33) ∧ (op ≠ 0x01)) ∧
    (∃ (op : BitVec 8) (q : Req) (s : State), (s.items = [.request op q]) ∧ (s.veing.cmd = none) ∧ ((s.runRequest op q).copies op q = 0) ∧ (op
    = 0x01)) ∧
    (∃ (op : BitVec 8) (q : Req) (s : State), (s.items = [.request op q]) ∧ (s.veing.cmd = none) ∧ ((s.runRequest op q).copies op q = 0) ∧ (op
    = 0x33)) ∧
    (∃ (c : Fin 4) (s : State), (s.items = [] ∨ (.trap (c.val + 1) ∈ s.items ∧ ∀ k, .trap k ∈ s.items → c.val + 1 ≤ k)) ∧ (s.veing.cmd = none)
    ∧ (s.staged.length < 120) ∧ (s.flag R.DUMP_STATUS_HELD = false) ∧ (s.dumping = none)) ∧
    (∃ (op : BitVec 8) (q : Req) (s : State), (s.items = [.request op q]) ∧ ((s.runRequest op q).copies op q = 0) ∧ (s.veing.cmd = none) ∧
    (s.staged.length < 120) ∧ (s.flag R.DUMP_STATUS_HELD = false) ∧ (s.dumping = none)) ∧
    (∃ (s : State), (s.items = []) ∧ (s.fget R.ENG_OVR_COUNT < 2 ^ 32 - 1)) ∧
    (∃ (op : BitVec 8) (q : Req) (s : State), (s.items = [.request op q]) ∧ ((s.runRequest op q).copies op q = 0)) ∧
    (∃ (op : BitVec 8) (q : Req) (s : State), (s.overridden op q = false) ∧ (s.accept op q = some St.badOpcode)) ∧
    (∃ (op : BitVec 8) (q : Req) (s : State), (s.overridden op q = false) ∧ (s.accept op q ≠ some St.badOpcode)) :=
  ⟨⟨op [], by decide +kernel⟩,
    ⟨({ kind := 2, opcode := 0xB0, status := 0, session := 0, tag := 7 } : Packet), false,
      { op [] with items := [.completion ({ kind := 2, opcode := 0xB0, status := 0, session := 0, tag := 7 } : Packet) true false .none] },
      by decide +kernel⟩,
    ⟨({ kind := 2, opcode := 0xB0, status := 0, session := 0, tag := 7 } : Packet), false, false,
      { op [] with items := [.completion ({ kind := 2, opcode := 0xB0, status := 0, session := 0, tag := 7 } : Packet) false false .none] },
      by decide +kernel⟩,
    ⟨0x03, rq [], { op [] with items := [.request 0x03 (rq [])] }, by decide +kernel⟩,
    ⟨0x01, rq [0x0800], { op [] with items := [.request 0x01 (rq [0x0800])] }, by decide +kernel⟩,
    ⟨0x33, rq [0,0,0], { op [] with items := [.request 0x33 (rq [0,0,0])] }, by decide +kernel⟩,
    ⟨3, op [], Or.inl rfl, by decide +kernel, by decide +kernel, by decide +kernel, by decide +kernel⟩,
    ⟨0x03, rq [], { op [] with items := [.request 0x03 (rq [])] }, by decide +kernel⟩,
    ⟨op [], by decide +kernel⟩,
    ⟨0x03, rq [], { op [] with items := [.request 0x03 (rq [])] }, by decide +kernel⟩,
    ⟨0x04, rq [], op [], by decide +kernel⟩,
    ⟨0x03, rq [], State.reset, by decide +kernel⟩⟩

theorem witness_PatchesLoad :
    (∃ (q : Req) (s : State) (st : _) (p : _), (s.wakeEngine.runs 0x64 q = true) ∧ (s.flag R.BOOT_STATUS_RECOVERY = false) ∧ (s.fget
    R.LC_STATUS_STATE ≠ 3) ∧ ((∀ u, u < 64 → s.idle u = true)) ∧ (s.patchRefused q.payload q.verdict.sigOk = some (st, p))) ∧
    (∃ (q : Req) (s : State), (s.wakeEngine.runs 0x64 q = true) ∧ (s.flag R.BOOT_STATUS_RECOVERY = false) ∧ (s.fget R.LC_STATUS_STATE ≠ 3) ∧
    ((∀ u, u < 64 → s.idle u = true)) ∧ (s.patchRefused q.payload q.verdict.sigOk = none) ∧ (s.flag R.ENG_STATUS_HOLDING = false) ∧
    (s.splits.length < 256)) ∧
    (∃ (ok : Bool) (s : State) (x : Split), (s.patchSplit = some x) ∧ (s.splits.length = 1) ∧
      let p := patchOf x.payload;
      (p.rb < 64) ∧ (ok = true ∨ p.rb ≤ s.fget R.PATCH_FLOOR_FLOOR) ∧ (s.staged.length < 120)) ∧
    (∃ (ok : Bool) (s : State) (x : Split), (s.patchSplit = some x) ∧ (s.splits.length = 1) ∧
      let p := patchOf x.payload;
      (p.rb < 64) ∧ (ok = false) ∧ (s.fget R.PATCH_FLOOR_FLOOR < p.rb)) ∧
    (∃ (s : State) (x : Split), (s.patchSplit = some x) ∧ (1 < s.splits.length)) ∧
    (∃ (s : State), (s.patchSplit = none)) ∧
    (∃ (op : BitVec 8) (q : Req) (s : State) (e : Nat × Nat) (c : Instr), (s.overrides.find? (fun e => e.1 == op.toNat) = some e) ∧
    (s.overridden op q = true) ∧ ((op, c) ∈ [ (0x01, .hello q), (0x02, .bye q), (0x03, .ping q), (0x10, .regRead q), (0x11, .regWrite q),
    (0x12, .regSetBits q), (0x13, .regClearBits q), (0x14, .regGather q), (0x20, .memWrite q), (0x21, .memRead q), (0x22, .segWrite q),
    (0x23, .segCommit q), (0x24, .streamOpen q), (0x25, .streamClose q), (0x30, .stepArm q), (0x31, .stepStart q), (0x32, .stepStatus q),
    (0x33, .abort q), (0x34, .eventWait q), (0x40, .captureRead q), (0x41, .failRead q), (0x42, .profileRead q), (0x43, .measure q),
    (0x50, .calRun q), (0x51, .calCommit q), (0x52, .calRead q), (0x60, .sealLoad q), (0x61, .attest q), (0x62, .lifecycle q), (0x63,
    .identity q), (0x64, .patchLoad q), (0x70, .selftest q), (0x71, .fence q), (0x72, .calve q), (0x74, .dumpRead q), (0x75, .frost q),
    (0x76, .powerState q), (0x7E, .inject q)])) ∧
    (∃ (op : BitVec 8) (q : Req) (s : State) (e : Nat × Nat), (s.overrides.find? (fun e => e.1 == op.toNat) = some e) ∧ (s.overridden op q =
    true)) ∧
    (∃ (op : BitVec 8) (q : Req) (s : State) (e : Nat × Nat), (s.overrides.find? (fun e => e.1 == op.toNat) = some e) ∧ (s.overridden op q =
    true) ∧ (s.microBad e.2 = false) ∧ ((microOf (s.microAt e.2)).op = 0x3E)) ∧
    (∃ (op : BitVec 8) (q : Req) (s : State) (e : Nat × Nat), (s.overrides.find? (fun e => e.1 == op.toNat) = some e) ∧ (s.overridden op q =
    true) ∧ (s.microBad e.2 = true)) :=
  ⟨⟨rq [] (pl 164 [(1,1),(2,9),(4,3),(8,1),(64,0xAB)]), op [(R.PATCH_FLOOR_FLOOR,4)], St.badParam, 3, by decide +kernel⟩,
    ⟨rq [] (pl 164 [(1,1),(2,9),(4,3),(8,1),(64,0xAB)]), op [], by decide +kernel⟩,
    ⟨true,
      { op [(R.ENG_STATUS_HOLDING,1)] with splits := [({ id := 5, opcode := 0x64, session := 0, tag := 7, params := [], payload := (pl 164 [(1,1),(2,9),(4,3),(8,1),(64,0xAB)]) } : Split)] },
      ({ id := 5, opcode := 0x64, session := 0, tag := 7, params := [], payload := (pl 164 [(1,1),(2,9),(4,3),(8,1),(64,0xAB)]) } :
      Split), by decide +kernel⟩,
    ⟨false,
      { op [(R.PATCH_FLOOR_FLOOR,2),(R.ENG_STATUS_HOLDING,1)] with splits := [({ id := 5, opcode := 0x64, session := 0, tag := 7, params := [], payload := (pl 164 [(1,1),(2,9),(4,3),(8,1),(64,0xAB)]) } : Split)] },
      ({ id := 5, opcode := 0x64, session := 0, tag := 7, params := [], payload := (pl 164 [(1,1),(2,9),(4,3),(8,1),(64,0xAB)]) } :
      Split), by decide +kernel⟩,
    ⟨{ op [(R.ENG_STATUS_HOLDING,1)] with splits := [({ id := 5, opcode := 0x64, session := 0, tag := 7, params := [], payload := (pl 164 [(1,1),(2,9),(4,3),(8,1),(64,0xAB)]) } : Split),({ id := 6, opcode := 0x34, session := 0, tag := 7, params := [1,1,0,0] } : Split)] },
      ({ id := 5, opcode := 0x64, session := 0, tag := 7, params := [], payload := (pl 164 [(1,1),(2,9),(4,3),(8,1),(64,0xAB)]) } :
      Split), by decide +kernel⟩,
    ⟨op [], by decide +kernel⟩,
    ⟨0x03, rq [], ({ op [] with overrides := [(3,0xC001)] }).mwrite 0x12 0 4 [2,0,0,0xF8], (3,0xC001), .ping (rq []), by decide +kernel⟩,
    ⟨0x03, rq [], ({ op [] with overrides := [(3,0xC001)] }).mwrite 0x12 0 4 [2,0,0,0xF8], (3,0xC001), by decide +kernel⟩,
    ⟨0x03, rq [], ({ op [] with overrides := [(3,0xC001)] }).mwrite 0x12 0 4 [2,0,0,0xF8], (3,0xC001), by decide +kernel⟩,
    ⟨0x03, rq [], { op [] with overrides := [(3,0xC001)], eccWords := [(0xF1,0)] }, (3,0xC001), by decide +kernel⟩⟩

theorem witness_FaultsReport :
    (∃ (b : FltBlk) (src : Fin 32) (s : State), (.fault (fltBase b) src.val ∉ s.items)) ∧
    (∃ (b : FltBlk) (src : Fin 32) (s : State), (s.veing.cmd = none) ∧ (firstItem s.items ≠ some (.fault (fltBase b) src.val))) ∧
    (∃ (b : FltBlk) (src : Fin 32) (l : List Item), (.fault (fltBase b) src.val ∈ l) ∧ (fltBase b ≠ 0x60000) ∧ ((∀ c, .trap c ∉ l)) ∧ ((∀ i ∈
    l, ∀ k, itemRank i = some k → 2 ^ 10 + fltBase b * 128 + src.val ≤ k))) ∧
    (∃ (c : Nat) (l : List Item), (.trap c ∈ l) ∧ (c < 2 ^ 10)) ∧
    (∃ (b : FltBlk) (src : Fin 32) (s : State), (firstItem s.items = some (.fault (fltBase b) src.val)) ∧ (s.veing.cmd = none)) ∧
    (∃ (q : Req) (s : State), (s.runs 0x7E q = true) ∧ (injectBad q = true)) ∧
    (∃ (q : Req) (s : State), (s.runs 0x7E q = true) ∧ (injectBad q = false) ∧ (s.fget R.LC_STATUS_STATE ≠ 0)) ∧
    (∃ (q : Req) (s : State), (s.runs 0x7E q = true) ∧ (injectBad q = false) ∧ (s.fget R.LC_STATUS_STATE = 0) ∧ ((q.p 1).getLsbD 9 = true)) ∧
    (∃ (q : Req) (s : State), (s.runs 0x7E q = true) ∧ (q.n 0 = 0x60F00) ∧ (q.n 1 = 9) ∧ (s.fget R.LC_STATUS_STATE = 0) ∧ (Mild s 0x60000 9)) ∧
    (∃ (q : Req) (s : State), (s.runs 0x70 q = true) ∧ (s.flag R.ENG_STATUS_HOLDING = false) ∧ (q.n 0 ≠ 0) ∧ (q.n 0 < 8) ∧ ((∀ u ∈ q.tiles 1,
    s.idle u = true)) ∧ (s.splits.length < 256)) ∧
    (∃ (o : OpRef) (s : State) (x : Split), (s.split? 0x70 o = some x) ∧ ((∀ u ∈ tilesOf (x.params.getD 1 0) (x.params.getD 2 0), Calm s u))) :=
  ⟨⟨.safety, 9, op [], by decide +kernel⟩,
    ⟨.safety, 9, op [], by decide +kernel⟩,
    ⟨.link 3, 9, [.request 3 (rq []), .fault 0x90000 2, .fault (fltBase (.link 3)) 9], by decide +kernel, by decide +kernel, fun c h => by
      simp at h, by simp [itemRank, fltBase]⟩,
    ⟨16, [.fault 0x60000 9, .trap 16], by decide +kernel⟩,
    ⟨.safety, 9, { (op []).modCtx 0 fun c => { c with evchip := true } with items := [.fault 0x60000 9] }, by decide +kernel⟩,
    ⟨rq [0x60F00,12,0,0], op [], by decide +kernel⟩,
    ⟨rq [0x60F00,9,0,0], op [(R.LC_STATUS_STATE,2)], by decide +kernel⟩,
    ⟨rq [0x60F00,0x20A,0,0], { op [(R.LC_STATUS_STATE,0)] with injHeld := [(0x60000,10,0),(0x60000,9,0)] }, by decide +kernel⟩,
    ⟨rq [0x60F00,9,0,0], op [(R.LC_STATUS_STATE,0)], by unfold Mild; decide +kernel⟩,
    ⟨rq [7,0x80000001,0], op [], by decide +kernel⟩,
    ⟨⟨0,7⟩, { op [] with splits := [({ id := 5, opcode := 0x70, session := 0, tag := 7, params := [7,1,0] } : Split)] },
      ({ id := 5, opcode := 0x70, session := 0, tag := 7, params := [7,1,0] } : Split), by unfold Calm; decide +kernel⟩⟩

theorem witness_UnitsFence :
    (∃ (q : Req) (s : State), (s.runs 0x71 q = true) ∧ (4 ≤ q.n 0 ∨ kindRange (q.n 0) ≤ q.n 1)) ∧
    (∃ (q : Req) (s : State) (u : _), (s.runs 0x71 q = true) ∧ ((q.n 0 = 0 ∧ q.n 1 < 1024 ∧ u = q.n 1 / 16) ∨ (q.n 0 = 1 ∧ q.n 1 < 64 ∧ u =
    q.n 1)) ∧ (Busy s u) ∧ (s.unitFenced (q.n 0) (q.n 1) = false) ∧ (s.flag R.ENG_STATUS_HOLDING = false) ∧ (s.splits.length < 256)) ∧
    (∃ (q : Req) (s : State), (s.runs 0x71 q = true) ∧ (q.n 0 = 3) ∧ (s.flag R.ENG_STATUS_HOLDING = false) ∧ (q.n 1 < 64) ∧ (s.sntFenced (q.n
    1) = false) ∧ (s.fenceReq = []) ∧ (s.staged.length < 120) ∧ (s.splits.length < 256)) ∧
    (∃ (q : Req) (s : State) (l : Fin 12) (j : Fin 8), (s.runs 0x71 q = true) ∧ (q.n 0 = 2) ∧ (q.n 1 = 8 * l.val + j.val) ∧ (s.flag
    R.ENG_STATUS_HOLDING = false) ∧ (s.splits.length < 256) ∧ ((s.fencedLanes l).testBit j = false) ∧ (s.linkState l = lkActive) ∧ ((∀ k ∈
    (s.link l).good, k = j.val ∨ (s.fencedLanes l).testBit k = true))) ∧
    (∃ (q : Req) (s : State) (l : Fin 12) (j : Fin 8), (s.runs 0x71 q = true) ∧ (q.n 0 = 2) ∧ (q.n 1 = 8 * l.val + j.val) ∧ (s.flag
    R.ENG_STATUS_HOLDING = false) ∧ (s.splits.length < 256) ∧ ((s.fencedLanes l).testBit j = false) ∧ (s.linkState l = lkActive) ∧ ((∃ k ∈
    (s.link l).good, k ≠ j.val ∧ (s.fencedLanes l).testBit k = false)) ∧ (Mild s (linkBase l) 2)) ∧
    (∃ (k : Fin 32) (s : State), (s.rget (R.FENCE_CH k) = 0) ∧ (Busy s (2 * k.val)) ∧ (Busy s (2 * k.val + 1))) ∧
    (∃ (ch : Fin 1024) (s : State), ((s.chan ch).retest ≠ 2)) ∧
    (∃ (ch : Fin 1024) (s : State), ((s.chan ch).retest = 2) ∧ (Busy s (ch / 16)) ∧ ((0, ch.val) ∉ s.unfenceReq)) ∧
    (∃ (ch : Fin 1024) (s : State), ((s.chan ch).retest = 2) ∧ (Busy s (ch / 16)) ∧ ((0, ch.val) ∉ s.unfenceReq) ∧ (s.chanFenced ch = false) ∧
    (s.staged.length < 120)) :=
  ⟨⟨rq [4,0], op [], by decide +kernel⟩,
    ⟨rq [0,1023], op [(R.SEQ_STATUS_STATE 63,3)], 63, by unfold Busy; decide +kernel⟩,
    ⟨rq [3,63], op [(R.SEQ_STATUS_STATE 63,3)], by decide +kernel⟩,
    ⟨rq [2,95], (op [(R.LINK_STATUS_STATE 11,lkActive),(R.LINK_STATUS_USED 11,0xFF)]).modLink 11 fun c => { c with good := [7] }, 11, 7,
      by decide +kernel⟩,
    ⟨rq [2,95], (op [(R.LINK_STATUS_STATE 11,lkActive),(R.LINK_STATUS_USED 11,0xFF)]).modLink 11 fun c => { c with good := List.range 8 },
      11, 7, by unfold Mild; decide +kernel⟩,
    ⟨31, op [(R.SEQ_STATUS_STATE 63,3),(R.SEQ_STATUS_STATE 62,1)], by unfold Busy; decide +kernel⟩,
    ⟨1023, op [], by decide +kernel⟩,
    ⟨1023, (op [(R.SEQ_STATUS_STATE 63,3)]).modChan 1023 fun c => { c with retest := 2 }, by unfold Busy; decide +kernel⟩,
    ⟨1023, (op [(R.SEQ_STATUS_STATE 63,3)]).modChan 1023 fun c => { c with retest := 2 }, by unfold Busy; decide +kernel⟩⟩

theorem witness_CoresRepair :
    (∃ (c : Fin 68) (s : State), (s.coreFenced c = true)) ∧
    (∃ (c : Fin 68) (x : CoreSource) (s : State), (s.coreFenced c = false) ∧ (x.src.val < 3) ∧ (s.flag (R.CORE_HEALTH_PERM c) = false) ∧
    (s.coreDue = []) ∧ ((x.src = 1 → x.merge = false)) ∧ (Mild s (coreBase c) x.src) ∧ ((x.src = 0 → Mild s 0xA0000 0)) ∧ ((x.src = 1 →
    Mild s 0x60000 6)) ∧ (s.tileOfCore c = none)) ∧
    (∃ (c : Fin 68) (x : CoreSource) (s : State) (u : Fin 64) (v : Fin 64), (s.coreFenced c = false) ∧ (x.src.val < 3) ∧ (s.flag
    (R.CORE_HEALTH_PERM c) = false) ∧ (s.coreDue = []) ∧ ((x.src = 1 → x.merge = false)) ∧ (Mild s (coreBase c) x.src) ∧ ((x.src = 0 →
    Mild s 0xA0000 0)) ∧ ((x.src = 1 → Mild s 0x60000 6)) ∧ (s.tileOfCore c = some u.val) ∧ (u ≠ v) ∧ (Busy s u) ∧ ((s.tile u).group ≠ 0)
    ∧ ((s.tile v).group = (s.tile u).group) ∧ (s.stepState v = stRunning) ∧ (s.soft = []) ∧ (s.fenceReq = []) ∧ (s.unfenceReq = [])) ∧
    (∃ (c : Fin 68) (u : Fin 64) (v : Fin 64) (x : CoreSource) (s : State), (s.coreFenced c = false) ∧ (x.src = 1) ∧ (x.merge = true) ∧ (Mild
    s 0x60000 6) ∧ (s.tileOfCore c = some u.val) ∧ (u ≠ v) ∧ (Busy s u) ∧ ((s.tile u).group ≠ 0) ∧ ((s.tile v).group = (s.tile u).group) ∧
    (s.stepState v = stRunning) ∧ (s.soft = []) ∧ (s.fenceReq = []) ∧ (s.unfenceReq = []) ∧ (s.coreDue = [])) ∧
    (∃ (c : Fin 68) (x : CoreSource) (s : State), (x.src = 1) ∧ (x.merge = true) ∧ (s.tileOfCore c = none)) ∧
    (∃ (c : Fin 68) (s : State), (s.flag (R.CORE_HEALTH_RETEST c) = false)) ∧
    (∃ (c : Fin 68) (s : State), (s.flag (R.CORE_HEALTH_RETEST c) = true) ∧ (s.unfencing c = none) ∧ (s.fget R.SR_CFG_TRANS_LIMIT = 0) ∧ ((∀
    u, s.tileOfCore c = some u → Busy s u))) ∧
    (∃ (c : Fin 68) (s : State), (s.isSpare c = false ∨ s.stage1 = true ∨ s.spareDue c = false)) ∧
    (∃ (c : Fin 68) (s : State), (s.isSpare c = true) ∧ (s.stage1 = false) ∧ (s.spareDue c = true)) ∧
    (∃ (c : Fin 68) (s : State), (s.isSpare c = true) ∧ (s.stage1 = false) ∧ (s.spareDue c = true) ∧ (s.staged.length < 120)) ∧
    (∃ (k : Nat) (u : Nat) (s : State), (s.chipIdle = true) ∧ (s.logDue = [(k, u)]) ∧ (k = 0 ∨ k = 4) ∧ (u < 1024) ∧
      let n := s.fget R.SR_OTP_COUNT_USED;
      (n < 63)) ∧
    (∃ (s : State), (s.chipIdle = false)) ∧
    (∃ (e : SoftRepair) (s : State), (s.chipIdle = true) ∧ (e.core = none) ∧ (s.soft = [e]) ∧ (s.fget R.REP_OTP_FIELD < 255)) ∧
    (∃ (s : State), (s.btRuns = false ∨ s.btDue = false)) ∧
    (∃ (off : Nat) (s : State), (s.btRuns = false) ∧ (off < 0x200000) ∧ (s.fget R.MEM_ECC_UNC_COUNT < 2 ^ 32 - 1) ∧ (Mild s 0xA0000 0)) ∧
    (∃ (s : State), (s.btRuns = false) ∧ (s.fget R.MEM_ECC_CORR_COUNT < 2 ^ 32 - 1)) ∧
    (∃ (s : State), (s.btRuns = true) ∧ (s.btDue = true) ∧ (s.btHead = []) ∧ (s.fget R.BT_STATUS_REGION < btRegions)) ∧
    (∃ (s : State) (d : Defect), (s.btRuns = true) ∧ (s.btDue = true) ∧ (s.btHead = []) ∧ (s.fget R.BT_STATUS_REGION < btRegions) ∧ (btPlace
    s.btRegion btMemories = (d.place, d.unit)) ∧ (s.btReaches d.place = true) ∧ ((∀ c, d.place ≠ .core c)) ∧ (s.spareFree d = true) ∧
    (s.fget R.BT_FAILS_COUNT < 2 ^ 32 - 1)) :=
  ⟨⟨67, op [(coreFenceFld 67,1)], by decide +kernel⟩,
    ⟨67, ⟨2,2,0,false⟩, op [], by unfold Mild; decide +kernel⟩,
    ⟨63, ⟨0,2,0x1004,false⟩, ((op [(R.SEQ_STATUS_STATE 63,3),(R.SEQ_STATUS_STATE 0,3)]).modTile 63 fun c => { c with group := 1 }).modTile
      0 fun c => { c with group := 1 }, 63, 0, by unfold Busy Mild; decide +kernel⟩,
    ⟨63, 63, 0, ⟨1,2,0,true⟩, ((op [(R.SEQ_STATUS_STATE 63,3),(R.SEQ_STATUS_STATE 0,3)]).modTile 63 fun c =>
      { c with group := 1 }).modTile 0 fun c => { c with group := 1 }, by unfold Busy Mild; decide +kernel⟩,
    ⟨67, ⟨1,2,0,true⟩, op [], by decide +kernel⟩,
    ⟨67, op [], by decide +kernel⟩,
    ⟨67, op [(R.CORE_HEALTH_RETEST 67,1),(R.SR_CFG_TRANS_LIMIT,0)], by unfold Busy; decide +kernel⟩,
    ⟨67, op [], by decide +kernel⟩,
    ⟨67, op [(R.MRN_HOURS_HOURS,384)], by decide +kernel⟩,
    ⟨67, op [(R.MRN_HOURS_HOURS,384)], by decide +kernel⟩,
    ⟨4, 67, { op [(R.SR_OTP_COUNT_USED,62)] with logDue := [(4,67)] }, by decide +kernel⟩,
    ⟨op [(R.SEQ_STATUS_STATE 5,1)], by decide +kernel⟩,
    ⟨⟨none,true,⟨0,false,5,2⟩⟩, { op [] with soft := [⟨none,true,⟨0,false,5,2⟩⟩], regs := [(R.REP_OTP,254)] }, by decide +kernel⟩,
    ⟨op [(R.BT_CFG_EN,0)], by decide +kernel⟩,
    ⟨0x1FFFFF, op [(R.BT_CFG_EN,0)], by unfold Mild; decide +kernel⟩,
    ⟨op [(R.BT_CFG_EN,0)], by decide +kernel⟩,
    ⟨op [(R.BT_CFG_EN,1)], by decide +kernel⟩,
    ⟨{ op [(R.BT_CFG_EN,1),(R.BT_STATUS_REGION,829184)] with repairs := [] }, { place := .vault, unit := 0, injected := true }, by
      decide +kernel⟩⟩

theorem witness_CalvingMoves :
    (∃ (q : Req) (s : State) (c : Nat), (s.runs 0x72 q = true) ∧ (s.flag R.ENG_STATUS_HOLDING = false) ∧ (q.n 0 < 2 ^ 15) ∧ (q.n 0 / 64 % 4 =
    0) ∧
      let u := q.n 0 % 64;
      let core := nbits (q.n 0) 14 8;
      ((core = 0x7F ∧ s.pickSpare none = some c) ∨ (64 ≤ core ∧ core ≤ 67 ∧ core = c ∧ s.isSpare c = true)) ∧ (s.power u < 2) ∧
    (s.splits.length < 256) ∧ (s.tileFenced u = false) ∧ ((s.tile u).calv = none)) ∧
    (∃ (u : Fin 64) (s : State) (c : Calving), ((s.tile u).calv = some c) ∧ (c.checked = false)) ∧
    (∃ (u : Fin 64) (s : State), ((s.tile u).calv = none)) ∧
    (∃ (u : Fin 64) (s : State) (c : Calving), ((s.tile u).calv = some c) ∧ (c.checked = true) ∧ (c.moving = false) ∧ (s.idle u = true) ∧
    (s.acting u = false)) ∧
    (∃ (u : Fin 64) (s : State), (s.idle u = false ∨ s.acting u = true)) ∧
    (∃ (u : Fin 64) (s : State) (c : Calving), ((s.tile u).calv = some c) ∧ (c.moving = true) ∧ (s.soft = []) ∧ (s.staged.length < 120)) ∧
    (∃ (u : Fin 64) (s : State), ((∀ c, (s.tile u).calv = some c → c.moving = false))) :=
  ⟨⟨rq [0x7F3F], op [], 64, by decide +kernel⟩,
    ⟨63, (op []).modTile 63 fun c =>
      { c with calv := some { ops := [], permanent := false, host := true, checked := false, moving := false } },
      { ops := [], permanent := false, host := true, checked := false, moving := false }, by decide +kernel⟩,
    ⟨63, op [], by decide +kernel⟩,
    ⟨63, (op []).modTile 63 fun c =>
      { c with calv := some { ops := [], permanent := false, host := true, checked := true, moving := false } },
      { ops := [], permanent := false, host := true, checked := true, moving := false }, by decide +kernel⟩,
    ⟨63, op [(R.SEQ_STATUS_STATE 63,1)], by decide +kernel⟩,
    ⟨63, (op [(R.TILE_MAP_PENDING 63,1),(R.TILE_MAP_TARGET 63,67)]).modTile 63 fun c =>
      { c with calv := some { ops := [], permanent := true, host := true, checked := true, moving := true } },
      { ops := [], permanent := true, host := true, checked := true, moving := true }, by decide +kernel⟩,
    ⟨63, op [], fun c h => nomatch (show none = some c from h)⟩⟩

theorem witness_PowerStates :
    (∃ (q : Req) (s : State) (u : Nat), (s.runs 0x76 q = true) ∧ (s.flag R.ENG_STATUS_HOLDING = false) ∧ (q.n 2 < 4) ∧ (q.tiles 0 = [u]) ∧
    (s.tileFenced u = false) ∧ (s.splits.length < 256) ∧ (s.flag (R.TILE_PWR_SCHED u) = false) ∧ (Calm s u) ∧ (Busy s u)) ∧
    (∃ (q : Req) (s : State) (u : Nat), (s.runs 0x76 q = true) ∧ (s.flag R.ENG_STATUS_HOLDING = false) ∧ (q.n 2 < 4) ∧ (q.tiles 0 = [u]) ∧
    (s.tileFenced u = false) ∧ (s.splits.length < 256) ∧ (s.flag (R.TILE_PWR_SCHED u) = false) ∧ (Calm s u) ∧ (s.idle u = true) ∧
    (s.acting u = false) ∧ ((s.tile u).calv = none) ∧ (q.n 2 ≠ s.power u) ∧ ((∀ y ∈ s.splits, y.id ≠ s.ids))) ∧
    (∃ (u : Fin 64) (s : State) (r : PwrReq), ((s.tile u).pwr = [r]) ∧ (r.started = true) ∧ (r.sched = none) ∧ (r.target < 2) ∧ (s.power u <
    2) ∧ ((s.tile u).thaw = none) ∧ (Calm (s.modTile u fun c => { c with pwr := [] }) u)) ∧
    (∃ (u : Fin 64) (s : State) (r : PwrReq), ((s.tile u).pwr = [r]) ∧ (r.started = true) ∧ (r.sched = none) ∧ (r.target = 3) ∧ (s.power u <
    2) ∧ (s.bundleOf u = none) ∧ (Calm (s.modTile u fun c => { c with pwr := [] }) u)) ∧
    (∃ (u : Fin 64) (s : State), ((∀ r ∈ (s.tile u).pwr, r.started = false))) ∧
    (∃ (u : Fin 64) (s : State), (s.flag (R.TILE_PWR_SCHED u) = true) ∧ (s.thawDue u = true)) ∧
    (∃ (u : Fin 64) (s : State), (s.flag (R.TILE_PWR_SCHED u) = false ∨ s.thawDue u = false)) :=
  ⟨⟨rq [0,0x80000000,3,0,0], op [(R.SEQ_STATUS_STATE 63,3)], 63, by unfold Calm Busy; decide +kernel⟩,
    ⟨rq [0,0x80000000,3,0,0], op [], 63, by unfold Calm; decide +kernel⟩,
    ⟨63,
      ({ op [(R.TILE_PWR_BUSY 63,1)] with splits := [({ id := 5, opcode := 0x76, session := 0, tag := 7, params := [0,0x80000000,1,0,0], aux := [63] } : Split)] }).modTile
      63 fun c => { c with pwr := [{ target := 1, op := some 5, started := true }] }, { target := 1, op := some 5, started := true },
      by unfold Calm; decide +kernel⟩,
    ⟨63, ((op [(R.TILE_PWR_BUSY 63,1)]).modTile 63 fun c => { c with pwr := [{ target := 3, started := true }] }).mset 3 63 5 9,
      { target := 3, started := true }, by unfold Calm; decide +kernel⟩,
    ⟨63, op [], by decide +kernel⟩,
    ⟨63, op [(R.TILE_PWR_SCHED 63,1),(R.TILE_PWR_STATE 63,2)], by decide +kernel⟩,
    ⟨63, op [], by decide +kernel⟩⟩

theorem witness_SensorsAndThrottle :
    (∃ (l : List Int) (v : Int) (s : State), ((∀ n, n < 152 → -32768 ≤ l.getD n 0 ∧ l.getD n 0 ≤ v ∧ v < 32768)) ∧ ((∃ n, n < 152 ∧ l.getD n 0
    = v)) ∧ (s.therm.hist = []) ∧ (s.therm.steep = []) ∧ ((∀ n, n < 152 → s.sensorFailed n = false ∧ (s.sense l 0 n).disagree = false ∧
    (s.sense l 0 n).declared = false)) ∧ (v ≤ 920)) ∧
    (∃ (l : List Int) (v : Int) (s : State), ((∀ n, n < 152 → -32768 ≤ l.getD n 0 ∧ l.getD n 0 ≤ v ∧ v < 32768)) ∧ ((∃ n, n < 152 ∧ l.getD n 0
    = v)) ∧ (s.therm.hist = []) ∧ (s.therm.steep = []) ∧ ((∀ n, n < 152 → s.sensorFailed n = false ∧ (s.sense l 0 n).disagree = false ∧
    (s.sense l 0 n).declared = false)) ∧ (920 < v) ∧ (s.holdsStep = false) ∧ ((∀ u, u < 64 → s.ending u = false)) ∧ ((0x60000, 3, 0xFFFF)
    ∉ s.held) ∧ (Mild s 0x60000 3)) ∧
    (∃ (s : State), ((∀ n, n < 152 → signed 16 (s.fget (R.THS_READ_TEMP n)) < 800)) ∧ ((s.rget R.SF_STATUS).getLsbD 2 = false) ∧ ((0x60000, 3,
    0) ∉ s.injHeld)) ∧
    (∃ (s : State), ((∃ n, n < 152 ∧ 800 ≤ signed 16 (s.fget (R.THS_READ_TEMP n))) ∨ (s.rget R.SF_STATUS).getLsbD 2 = true ∨ (0x60000, 3, 0) ∈
    s.injHeld)) ∧
    (∃ (s : State), (s.holdsStep = false) ∧ (Mild s 0x70000 2)) ∧
    (∃ (mw : Word) (s : State),
      let level := s.fget R.THR_STATUS_LEVEL;
      let up := (8 * (s.fget R.THR_CFG_START : Int) ≤ signed 16 (s.fget R.TJ_MAX_TEMP)) ∨ s.flag R.THR_STATUS_RATE_WARN = true ∨ s.overCap mw.toNat level = true;
      (up) ∧ (s.fget R.THR_CFG_RISE ≤ s.therm.rise) ∧ (level < 7) ∧ (s.staged.length < 120)) ∧
    (∃ (mw : Word) (s : State),
      let level := s.fget R.THR_STATUS_LEVEL;
      let up := (8 * (s.fget R.THR_CFG_START : Int) ≤ signed 16 (s.fget R.TJ_MAX_TEMP)) ∨ s.flag R.THR_STATUS_RATE_WARN = true ∨ s.overCap mw.toNat level = true;
      (up) ∧ (s.therm.rise < s.fget R.THR_CFG_RISE) ∧ (s.releases mw.toNat = false)) ∧
    (∃ (mw : Word) (s : State),
      let level := s.fget R.THR_STATUS_LEVEL;
      let up := (8 * (s.fget R.THR_CFG_START : Int) ≤ signed 16 (s.fget R.TJ_MAX_TEMP)) ∨ s.flag R.THR_STATUS_RATE_WARN = true ∨ s.overCap mw.toNat level = true;
      (¬up) ∧ (s.releases mw.toNat = false)) ∧
    (∃ (mw : Word) (s : State),
      let level := s.fget R.THR_STATUS_LEVEL;
      let up := (8 * (s.fget R.THR_CFG_START : Int) ≤ signed 16 (s.fget R.TJ_MAX_TEMP)) ∨ s.flag R.THR_STATUS_RATE_WARN = true ∨ s.overCap mw.toNat level = true;
      (¬up) ∧ (s.releases mw.toNat = true) ∧ (10 * s.fget R.THR_CFG_FALL ≤ s.therm.fall) ∧ (s.staged.length < 120)) :=
  ⟨⟨List.replicate 152 (-300), -300, op [], by decide +kernel⟩,
    ⟨List.replicate 152 921, 921, op [], by unfold Mild; decide +kernel⟩,
    ⟨op [(R.SF_STATUS_FE_OFF,1)], by decide +kernel⟩,
    ⟨op [(R.THS_READ_TEMP 100,800)], by decide +kernel⟩,
    ⟨op [(⟨R.SF_STATUS,2,2⟩,1)], by unfold Mild; decide +kernel⟩,
    ⟨0,
      { op [(R.TJ_MAX_TEMP,900),(R.TJ_MAX_SENSOR,77),(R.THR_STATUS_LEVEL,6)] with therm := { rise := State.reset.fget R.THR_CFG_RISE } },
      by decide +kernel⟩,
    ⟨0, op [(R.TJ_MAX_TEMP,900)], by decide +kernel⟩,
    ⟨5, op [(R.TJ_MAX_TEMP,759)], by decide +kernel⟩,
    ⟨0, { op [(R.TJ_MAX_TEMP,200),(R.THR_STATUS_LEVEL,3)] with therm := { fall := 10 * State.reset.fget R.THR_CFG_FALL } }, by
      decide +kernel⟩⟩

theorem witness_SuppliesWatched :
    (∃ (r : Fin 8) (s : State), (s.excursion r = none) ∧ (s.monitored r = true) ∧ (s.fget R.SUP_EXC_COUNT < 2 ^ 32 - 1)) ∧
    (∃ (r : Fin 8) (s : State), ((s.excursion r).isSome = true ∨ s.monitored r = false)) ∧
    (∃ (r : Fin 8) (s : State) (b : Int), (s.excursion r = some b) ∧ (Mild s 0x70000 3)) ∧
    (∃ (r : Fin 8) (b : Int) (s : State), (s.excursion r = some b) ∧ (s.longExcursion b = false)) ∧
    (∃ (r : Fin 8) (b : Int) (s : State), (s.excursion r = some b) ∧ (s.longExcursion b = true) ∧ (r.val ∉ s.supStop) ∧ (s.holdsStep = false)
    ∧ (Mild s 0x70000 4)) ∧
    (∃ (r : Fin 8) (s : State), (s.excursion r = none)) :=
  ⟨⟨0, op [], by decide +kernel⟩,
    ⟨0, { op [] with excursions := [(0,some 5)] }, by decide +kernel⟩,
    ⟨0, { op [] with excursions := [(0,some 5)] }, 5, by unfold Mild; decide +kernel⟩,
    ⟨0, 5, { op [] with excursions := [(0,some 5)] }, by decide +kernel⟩,
    ⟨0, 5, { op [] with excursions := [(0,some 5)], sysTime := 2^40 }, by unfold Mild; decide +kernel⟩,
    ⟨0, op [], by decide +kernel⟩⟩

theorem witness_MoraineKeeps :
    (∃ (s : State) (busy : _), (s.bscan = true ∨ busy = true)) ∧
    (∃ (s : State), (s.bscan = false) ∧ (s.mrnLost = 0)) ∧
    (∃ (s : State), (s.bscan = false) ∧ (Mild s 0x80000 2)) ∧
    (∃ (k : BitVec 5) (s : State), (s.sessOpen k.toNat = false ∨ s.fget (R.SESS_STAT_PRIV k.toNat) < s.clearPriv)) ∧
    (∃ (k : BitVec 5) (s : State), (s.sessOpen k.toNat = true) ∧ (s.clearPriv ≤ s.fget (R.SESS_STAT_PRIV k.toNat)) ∧ (s.staged.length < 120) ∧
    (512 ≤ s.fget R.MRN_SEQ_SEQ) ∧ (s.fget R.MRN_SEQ_SEQ < 2 ^ 32 - 1)) ∧
    (∃ (c : Fin 33) (s : State),
      let x := s.ctx c;
      (x.rstat.getLsbD 3 = false)) ∧
    (∃ (c : Fin 33) (s : State),
      let x := s.ctx c;
      (x.rstat.getLsbD 3 = true) ∧ (Store.get (fun _ => none) s.mrn x.cursor.toNat = none)) ∧
    (∃ (c : Fin 33) (b : Bool) (s : State) (r : MrnRec),
      let x := s.ctx c;
      (x.rstat.getLsbD 3 = true) ∧ (Store.get (fun _ => none) s.mrn x.cursor.toNat = some r) ∧ ((b = false → Mild s 0x80000 0))) ∧
    (∃ (c : Fin 33) (s : State), ((s.ctx c).rstat.getLsbD 8 = true) ∧ ((s.ctx c).rstat.getLsbD 3 = false)) ∧
    (∃ (c : Fin 33) (s : State), ((s.ctx c).rstat.getLsbD 8 = false ∨ (s.ctx c).rstat.getLsbD 3 = true)) :=
  ⟨⟨{ op [] with tap := 0 }, false, by decide +kernel⟩,
    ⟨{ op [(R.MRN_STATUS_STAGED,2),(R.MRN_STATUS_FLUSHING,1)] with staged := [3,4] }, by decide +kernel⟩,
    ⟨{ op [(R.MRN_STATUS_STAGED,2),(R.MRN_STATUS_FLUSHING,1)] with staged := [3,4] }, by unfold Mild; decide +kernel⟩,
    ⟨31, op [], by decide +kernel⟩,
    ⟨0, op [(R.MRN_SEQ_SEQ,512),(R.MRN_OLDEST_SEQ,3)], by decide +kernel⟩,
    ⟨32, op [(R.MRN_SEQ_SEQ,512),(R.MRN_OLDEST_SEQ,3)], by decide +kernel⟩,
    ⟨32, (op []).modCtx 32 fun c => { c with rstat := 0x108, cursor := 77 }, by decide +kernel⟩,
    ⟨32, true,
      { (op []).modCtx 32 fun c => { c with rstat := 0x108, cursor := 77 } with mrn := [(77,some { hours := 1, pwrcyc := 2, time := 3, code := 4, flags := 5, data := [] })], staged := [77] },
      { hours := 1, pwrcyc := 2, time := 3, code := 4, flags := 5, data := [] }, by unfold Mild; decide +kernel⟩,
    ⟨32, (op []).modCtx 32 fun c => { c with rstat := 0x101, cursor := 77 }, by decide +kernel⟩,
    ⟨32, op [], by decide +kernel⟩⟩

theorem witness_CountersAndDumps :
    (∃ (q : Req) (s : State), (s.runs 0x75 q = true) ∧ (q.n 0 = 0)) ∧
    (∃ (q : Req) (s : State), (s.runs 0x75 q = true) ∧
      let edge := s.refEdge (q.n 1 + 2 ^ 32 * q.n 2);
      (q.n 0 = 1) ∧ (s.flag R.TIME_STATUS_VALID = true) ∧ (s.sysTime.toNat + 512000 ≤ edge) ∧ (s.flag R.FROST_STATUS_PENDING = false) ∧
    (s.flag R.ENG_STATUS_HOLDING = false) ∧ (s.splits.length < 256)) ∧
    (∃ (s : State) (x : Split), (s.splits.find? (fun (x : Split) => x.opcode == 0x75) = some x) ∧ (s.sysTime.toNat < x.aux.headD 0)) ∧
    (∃ (s : State) (x : Split), (s.splits.find? (fun (x : Split) => x.opcode == 0x75) = some x) ∧ (x.aux.headD 0 ≤ s.sysTime.toNat)) ∧
    (∃ (s : State), (s.splits.find? (fun (x : Split) => x.opcode == 0x75) = none)) ∧
    (∃ (s : State) (d : Dump), (s.dumping = some d) ∧ (d.flashOnly = false) ∧ (d.cause ≤ 16) ∧ (s.staged.length < 120) ∧ ((∀ k, k < 4 →
    d.cause = k + 1 → Mild s 0x40000 k))) ∧
    (∃ (s : State) (d : Dump), (s.dumping = some d) ∧ (d.flashOnly = true) ∧ ((∀ k, k < 4 → d.cause = k + 1 → Mild s 0x40000 k))) ∧
    (∃ (s : State) (d : Dump), (s.flag R.DUMP_STATUS_COPYING = true) ∧ (s.dump = some d) ∧ (s.staged.length < 120)) ∧
    (∃ (s : State), (s.flag R.DUMP_STATUS_COPYING = false)) ∧
    (∃ (q : Req) (s : State) (d : Dump), (s.runs 0x74 q = true) ∧ (1 ≤ q.n 2) ∧ (q.n 2 ≤ 65536) ∧ ((q.n 0 = 0 ∧ s.flag R.DUMP_STATUS_HELD =
    true ∧ s.dump = some d) ∨ (q.n 0 = 1 ∧ s.flag R.DUMP_STATUS_COPYING = false ∧ s.flag R.DUMP_STATUS_FLASHVALID = true ∧ s.dumpFlash =
    some d))) :=
  ⟨⟨rq [0,0,0], { op [(R.PCNT_VAL_VALUE 63,9)] with evc := [(3,7)] }, by decide +kernel⟩,
    ⟨rq [1,512000,0], op [(R.TIME_STATUS_VALID,1)], by decide +kernel⟩,
    ⟨{ op [(R.FROST_STATUS_PENDING,1),(R.PCNT_VAL_VALUE 63,9)] with splits := [({ id := 5, opcode := 0x75, session := 0, tag := 7, params := [1,512000,0], aux := [512000] } : Split)] },
      ({ id := 5, opcode := 0x75, session := 0, tag := 7, params := [1,512000,0], aux := [512000] } : Split), by decide +kernel⟩,
    ⟨{ { op [(R.FROST_STATUS_PENDING,1),(R.PCNT_VAL_VALUE 63,9)] with sysTime := 512000 } with splits := [({ id := 5, opcode := 0x75, session := 0, tag := 7, params := [1,512000,0], aux := [512000] } : Split)] },
      ({ id := 5, opcode := 0x75, session := 0, tag := 7, params := [1,512000,0], aux := [512000] } : Split), by decide +kernel⟩,
    ⟨op [], by decide +kernel⟩,
    ⟨{ op [] with dumping := some { id := 1, cause := 4, seq := 5, time := 6, mcode := 7, chip := 8, lc := 2, length := 1000 } },
      { id := 1, cause := 4, seq := 5, time := 6, mcode := 7, chip := 8, lc := 2, length := 1000 }, by unfold Mild; decide +kernel⟩,
    ⟨{ op [(R.DUMP_STATUS_HELD,1)] with dumping := some { id := 1, cause := 4, seq := 5, time := 6, mcode := 7, chip := 8, lc := 2, length := 1000 , flashOnly := true } },
      { id := 1, cause := 4, seq := 5, time := 6, mcode := 7, chip := 8, lc := 2, length := 1000 , flashOnly := true }, by
      unfold Mild; decide +kernel⟩,
    ⟨{ op [(R.DUMP_STATUS_COPYING,1)] with dump := some { id := 1, cause := 4, seq := 5, time := 6, mcode := 7, chip := 8, lc := 2, length := 1000 } },
      { id := 1, cause := 4, seq := 5, time := 6, mcode := 7, chip := 8, lc := 2, length := 1000 }, by decide +kernel⟩,
    ⟨op [], by decide +kernel⟩,
    ⟨rq [0,999,65536],
      { op [(R.DUMP_STATUS_HELD,1)] with dump := some { id := 1, cause := 4, seq := 5, time := 6, mcode := 7, chip := 8, lc := 2, length := 1000 } },
      { id := 1, cause := 4, seq := 5, time := 6, mcode := 7, chip := 8, lc := 2, length := 1000 }, by decide +kernel⟩⟩

theorem witness_VeingCommands :
    (∃ (s : State), (s.veing.sel = false)) ∧
    (∃ (s : State) (n : Nat) (w : Word), (s.veing.sel = true) ∧ (32 ≤ n) ∧ (s.bscan = false) ∧ (s.veing.fresh = false) ∧ ((s.veingCrc w).toNat
    = field w 7 0) ∧ (s.veing.cmd = none) ∧ (s.fget R.VG_LATCHED_COUNT < 2 ^ 32 - 1)) ∧
    (∃ (s : State) (n : Nat) (w : Word), (s.veing.sel = true) ∧ (s.veing.fresh = false) ∧ (Mild s 0x90000 0) ∧ ((n < 32 ∨ (s.bscan = false ∧
    (s.veingCrc w).toNat ≠ field w 7 0))) ∧ (s.fget R.VG_FERR_COUNT < 2 ^ 32 - 1)) ∧
    (∃ (s : State) (seq : BitVec 4), (s.veingFree 0 seq.toNat = true)) ∧
    (∃ (s : State) (seq : BitVec 4) (d : BitVec 16), (s.veingFree 1 seq.toNat (some d.toNat) = true)) ∧
    (∃ (s : State) (seq : BitVec 4) (d : BitVec 16), (s.veingFree 2 seq.toNat (some d.toNat) = true)) ∧
    (∃ (s : State) (seq : BitVec 4) (d : BitVec 16), (s.veingFree 3 seq.toNat (some d.toNat) = true)) ∧
    (∃ (s : State) (seq : BitVec 4) (d : BitVec 16), (s.veingFree 4 seq.toNat (some d.toNat) = true)) ∧
    (∃ (s : State) (seq : BitVec 4), (s.veingFree 5 seq.toNat = true)) ∧
    (∃ (s : State) (seq : BitVec 4), (s.veingFree 6 seq.toNat = true)) ∧
    (∃ (s : State) (seq : BitVec 4) (d : BitVec 16), (s.veingFree 7 seq.toNat (some d.toNat) = true)) ∧
    (∃ (s : State) (seq : BitVec 4) (d : BitVec 16), (s.veingFree 8 seq.toNat (some d.toNat) = true)) ∧
    (∃ (s : State) (cmd : BitVec 8) (seq : BitVec 4), (9 ≤ cmd.toNat) ∧ (s.veingFree cmd.toNat seq.toNat = true)) ∧
    (∃ (s : State) (seq : BitVec 4) (d : Nat),
      let a := (s.rget R.VG_VA).toNat;
      let w : Who := { ctx := 32, priv := s.portPriv };
      (s.veing.cmd = some (4, seq.toNat, d)) ∧
      let v : Word := BitVec.ofNat 32 (65536 * d + s.veing.wh.toNat);
      (s.portRefused w a (some v) = some St.badAddress)) ∧
    (∃ (s : State) (seq : BitVec 4) (d : Nat) (i : Nat) (k : Nat) (r : RegDesc),
      let a := (s.rget R.VG_VA).toNat;
      let w : Who := { ctx := 32, priv := s.portPriv };
      (s.veing.cmd = some (4, seq.toNat, d)) ∧
      let v : Word := BitVec.ofNat 32 (65536 * d + s.veing.wh.toNat);
      (regAt a = some (.chip, i, k, r)) ∧ (a ∉ [R.LINKEV_SEND, R.SR_CFG, R.CAL_LIMIT]) ∧ (s.portRefused w a (some v) = none)) ∧
    (∃ (s : State) (seq : BitVec 4) (d : Nat),
      let a := (s.rget R.VG_VA).toNat;
      let w : Who := { ctx := 32, priv := s.portPriv };
      (s.veing.cmd = some (5, seq.toNat, d)) ∧ (s.portRefused w a none = none)) :=
  ⟨⟨{ op [] with veing := { wh := 0x1234, rh := 0x5678 } }, by decide +kernel⟩,
    ⟨{ op [] with veing := { sel := true } }, 32, (let w0 : Word := 0x11100000; w0 ||| BitVec.ofNat 32 ((op []).veingCrc w0).toNat), by
      decide +kernel⟩,
    ⟨{ op [] with veing := { sel := true } }, 31, (let w0 : Word := 0x11100000; w0 ||| BitVec.ofNat 32 ((op []).veingCrc w0).toNat), by
      unfold Mild; decide +kernel⟩,
    ⟨{ op [] with veing := { wh := 0x1234, rh := 0x5678 } }, 15, by decide +kernel⟩,
    ⟨{ op [] with veing := { wh := 0x1234, rh := 0x5678 } }, 15, 0xFFFF, by decide +kernel⟩,
    ⟨{ op [] with veing := { wh := 0x1234, rh := 0x5678 } }, 15, 0xFFFF, by decide +kernel⟩,
    ⟨{ op [] with veing := { wh := 0x1234, rh := 0x5678 } }, 15, 0xFFFF, by decide +kernel⟩,
    ⟨{ op [] with veing := { wh := 0x1234, rh := 0x5678 } }, 15, 0xFFFF, by decide +kernel⟩,
    ⟨{ op [] with veing := { wh := 0x1234, rh := 0x5678 } }, 15, by decide +kernel⟩,
    ⟨{ op [] with veing := { wh := 0x1234, rh := 0x5678 } }, 15, by decide +kernel⟩,
    ⟨{ op [] with veing := { wh := 0x1234, rh := 0x5678 } }, 15, 255, by decide +kernel⟩,
    ⟨{ op [] with veing := { wh := 0x1234, rh := 0x5678 } }, 15, 0xA5C3, by decide +kernel⟩,
    ⟨{ op [] with veing := { wh := 0x1234, rh := 0x5678 } }, 15, 15, by decide +kernel⟩,
    ⟨{ op [(R.VG_STAT_BUSY,1),(⟨R.VG_VA,31,0⟩,1)] with veing := { cmd := some (4,3,5), wh := 0x1234, rh := 0x5678 } }, 3, 5, by
      decide +kernel⟩,
    ⟨{ op [(R.VG_STAT_BUSY,1),(⟨R.VG_VA,31,0⟩,R.PROTO_CFG)] with veing := { cmd := some (4,3,0), wh := 1, rh := 0x5678 } }, 3, 0, 0, 0,
      dsc R.PROTO_CFG, by decide +kernel⟩,
    ⟨{ op [(R.VG_STAT_BUSY,1),(⟨R.VG_VA,31,0⟩,R.SYNC_CHECK)] with veing := { cmd := some (5,3,0), wh := 0x1234, rh := 0x5678 } }, 3, 0, by
      decide +kernel⟩⟩

theorem witness_PeripheralPort :
    (∃ (v : Word) (s : State) (st : _), (s.pushRefused v = some st)) ∧
    (∃ (v : Word) (s : State), (s.pushRefused v = none)) ∧
    (∃ (c : Word) (d : Word) (l : List (Word × Word)) (s : State), (s.pp.queue = (c, d) :: l) ∧ (s.bscan = false) ∧ (s.pp.held = none) ∧
    (c.getLsbD 8 = false)) ∧
    (∃ (c : Word) (d : Word) (l : List (Word × Word)) (s : State), (s.pp.queue = (c, d) :: l) ∧ (s.bscan = false) ∧ (s.pp.held = none) ∧
    (c.getLsbD 8 = true) ∧ (s.pp.rx.length < 64)) ∧
    (∃ (c : Word) (d : Word) (l : List (Word × Word)) (s : State), (s.pp.queue = (c, d) :: l) ∧ (s.bscan = false) ∧ (s.pp.held = none) ∧
    (c.getLsbD 8 = true) ∧ (64 ≤ s.pp.rx.length)) ∧
    (∃ (s : State), (s.pp.queue = [] ∨ s.bscan = true)) ∧
    (∃ (s : State), (s.pp.rx = [])) ∧
    (∃ (s : State) (w : Word) (l : _), (s.pp.rx = w :: l)) ∧
    (∃ (s : State), (s.pp.held ≠ none) ∧ (s.pp.queue = []) ∧ (Mild s 0x90000 2)) ∧
    (∃ (s : State), (s.pp.held = none ∨ s.pp.queue ≠ [])) ∧
    (∃ (s : State), (s.pp.held ≠ none ∨ s.bscan = true)) ∧
    (∃ (op : FlashOp) (busy : Bool) (s : State), (s.pp.held = none) ∧ (s.bscan = false) ∧ (flashWrites op = true) ∧ (busy = true)) ∧
    (∃ (op : FlashOp) (busy : Bool) (s : State), (s.pp.held = none) ∧ (s.bscan = false) ∧ (flashWrites op = false ∨ busy = false)) ∧
    (∃ (op : FlashOp) (busy : Bool) (s : State), (s.pp.held = none) ∧ (s.bscan = false) ∧ (flashWrites op = false ∨ busy = false) ∧ (Mild s
    0x90000 3)) :=
  ⟨⟨33, op [], St.badParam, by decide +kernel⟩,
    ⟨8, op [(⟨R.PP_TXDATA,31,0⟩,77)], by decide +kernel⟩,
    ⟨0x3020, 0xFFFFFFFF, [(1,2)], { op [(R.PP_STAT_QCOUNT,2)] with pp := { queue := [(0x3020,0xFFFFFFFF),(1,2)] } }, by decide +kernel⟩,
    ⟨0x3108, 0xFFFFFFFF, [(1,2)],
      { op [(R.PP_STAT_QCOUNT,2)] with pp := { queue := [(0x3108,0xFFFFFFFF),(1,2)], rx := List.replicate 63 9 } }, by
      decide +kernel⟩,
    ⟨0x3108, 0xFFFFFFFF, [(1,2)], { op [] with pp := { queue := [(0x3108,0xFFFFFFFF),(1,2)], rx := List.replicate 64 9 } }, by
      decide +kernel⟩,
    ⟨op [], by decide +kernel⟩,
    ⟨op [], by decide +kernel⟩,
    ⟨{ op [(R.PP_STAT_RXCOUNT,64)] with pp := { rx := List.replicate 64 9 } }, 9, List.replicate 63 9, by decide +kernel⟩,
    ⟨{ op [] with pp := { held := some 3 } }, by unfold Mild; decide +kernel⟩,
    ⟨op [], by decide +kernel⟩,
    ⟨{ op [] with pp := { held := some 3 } }, by decide +kernel⟩,
    ⟨.erase 65536, true, op [], by decide +kernel⟩,
    ⟨.erase 65536, false, op [], by decide +kernel⟩,
    ⟨.sfdp true, true, op [], by unfold Mild; decide +kernel⟩⟩

theorem witness_ResetsAndBoot :
    (∃ (r : Fin 8), (r.val < 3)) ∧
    (∃ (r : Fin 8) (s : State), (3 ≤ r.val) ∧ (s.monitored r = true)) ∧
    (∃ (r : Fin 8) (s : State), (3 ≤ r.val) ∧ (s.monitored r = false)) ∧
    (∃ (s : State), (s.flag R.BOOT_STATUS_DONE = true)) ∧
    (∃ (r : BootReport) (s : State), (s.flag R.BOOT_STATUS_DONE = false) ∧ (s.flag R.BOOT_STATUS_RECOVERY = false) ∧ (r.pufOk = true) ∧
    (r.badCores = []) ∧ (r.badChans = []) ∧ (r.badLanes = []) ∧ (r.defects = []) ∧ (r.flashFails = false) ∧ (badEq r.boardTable = [] ∨
    tableOk r.boardTable = false) ∧ (s.fenceReq = []) ∧ (s.staged.length < 120) ∧ ((∀ k, k < 64 → (s.rget (R.SR_OTP_W0 k)).getLsbD 0 =
    false))) ∧
    (∃ (s : State), (s.flag R.BOOT_STATUS_DONE = false)) ∧
    (∃ (s : State), (s.flag R.BOOT_STATUS_DONE = true) ∧ (s.holdsStep = false) ∧ ((∀ u, u < 64 → s.ending u = false)) ∧ ((∀ x ∈ s.splits,
    x.opcode ≠ 0x30))) :=
  ⟨⟨2, by decide +kernel⟩,
    ⟨3, op [], by decide +kernel⟩,
    ⟨5, { op [] with vioSel := none }, by decide +kernel⟩,
    ⟨op [(R.BOOT_STATUS_DONE,1)], by decide +kernel⟩,
    ⟨{ slot0 := { image := [1,0,0,0,0,1,255,255,160,0,0,0] ++ List.replicate 148 0, sigOk := true }, slot1 := { image := [1,0,0,0,0,1,1,0,160,0,0,0] ++ List.replicate 148 0, sigOk := true } },
      op [(R.BOOT_STATUS_DONE,0)], by decide +kernel⟩,
    ⟨op [(R.BOOT_STATUS_DONE,0)], by decide +kernel⟩,
    ⟨op [(R.BOOT_STATUS_DONE,1)], by decide +kernel⟩⟩

/-! ## Well-formed commands: each check refuses a term that breaks only it -/

theorem test_wf_frame : (Frame.wf { cls := 1, eop := true, bytes := [1, 2, 3, 4] } && Frame.wf {}) = true := by decide
theorem test_wf_class0_bytes : Frame.wf { cls := 0, bytes := [1, 2, 3, 4] } = false := by decide
theorem test_wf_class0_sop : Frame.wf { cls := 0, sop := true } = false := by decide
theorem test_wf_class0_eop : Frame.wf { cls := 0, eop := true } = false := by decide
theorem test_wf_frame_too_long : Frame.wf { cls := 1, eop := true, bytes := List.replicate 228 0 } = false := by decide +kernel
theorem test_wf_short_without_eop : Frame.wf { cls := 1, bytes := List.replicate 220 0 } = false := by decide +kernel
theorem test_wf_stomp_without_eop : Frame.wf { cls := 1, stomp := true, bytes := List.replicate 224 0 } = false := by decide +kernel
theorem test_wf_odd_bytes : Frame.wf { cls := 1, eop := true, bytes := [1, 2, 3] } = false := by decide
theorem test_wf_request : (Instr.ping (rq [1])).wellFormed = true := by decide
theorem test_wf_params : (Instr.ping (rq (List.replicate 256 0))).wellFormed = false := by decide +kernel
theorem test_wf_payload (l : List Byte) (h : 2 ^ 24 ≤ l.length) : (Instr.ping (rq [] l)).wellFormed = false := by
  have : ¬ l.length < 2 ^ 24 := by omega
  simp [Instr.wellFormed, Instr.req?, Req.wf, rq]
  omega

/-! ## Check values and worked examples of the manual -/

/-- The ASCII bytes "123456789" that both check values are stated over. -/
def ascii19 : List Byte := [0x31, 0x32, 0x33, 0x34, 0x35, 0x36, 0x37, 0x38, 0x39]

/-- 19_management_ports.md R437: the check value is 0xF4. -/
theorem test_crc8_check : crc8 0 ascii19 = 0xF4 := by decide +kernel

/-- 10_uhleus_protocol.md R242: the check value is 0xE3069283. -/
theorem test_crc32c_check : crc32c ascii19 = 0xE3069283 := by decide +kernel

/-- 19_management_ports.md, worked example: the word 0x1110_009E is latched as ADDR_LO, SEQ 1, DATA 0x1000. -/
theorem test_veing_latched :
    (doVeingFrame 32 0x1110009E (doMselAssert State.reset)).veing.cmd = some (1, 1, 0x1000) := by decide +kernel

/-- The same example: VA becomes 0x0000_1000, and the response is 0x0110_00 before its CRC. -/
theorem test_veing_addr_lo :
    let t := doAddrLo 1 0x1000 State.reset
    t.rget R.VG_VA = 0x1000 ∧ t.veing.resp.toNat / 256 = 0x011000 := by decide +kernel

/-- 22_register_map.md, worked example: a REG_READ at 0x002B_08F0 with COUNT 16 returns seven words with PART. -/
theorem test_reg_read_stops_at_hole :
    let t := doRegRead (rq [0x2B08F0, 16, 0]) (op [])
    (t.txq.map fun p => (p.status, p.params, p.payload.length)) = [(St.part, [7], 28)] := by decide +kernel

/-- 00_scope.md, worked example: the addresses of channel 437, tile 27, core 27 and link 6. -/
theorem test_addresses_of_blocks :
    ([0x56D400, 0x2B0000, 0x91B000, 0x26000].map fun a => (regAt a).map fun e => (e.1, e.2.1)) =
      [some (.chan, 437), some (.tile, 27), some (.core, 27), some (.link, 6)] := by decide +kernel

/-- 18_moraine_counters.md Table 18.5 with 22_register_map.md Table 22.1: behind the 6,336 words of the chip global block and their two
words of heading comes the system time block, base 0x0001_0000, with 10 words. -/
theorem test_dump_registers :
    ([6338, 6339].map (regSect (fun _ => none) dumpBlocks)) = [some 0x10000, some 10] := by decide +kernel

end Sys2Proof.Tests
end

section
/-! SUPPORT. A request that its own checks refuse behind R254: the routine of the ROM runs, ends at an error exit, and changes no register
but the session's slot count and the event counters, and no byte of memory. -/

namespace Sys2Proof.Machine

/-! ## The dispatch of an accepted request -/

theorem State.byTable_of_runs {s : State} {op : BitVec 8} {q : Req} (h : s.runs op q = true) (rom : State → State) :
    s.byTable op q rom = rom s := by
  obtain ⟨hov, -⟩ : s.overridden op q = false ∧ s.accept op q = none := by simpa [State.runs] using h
  simp [State.byTable, hov]

/-- An accepted request that starts no split-phase work is never held. -/
theorem State.request_of_runs {s : State} {op : BitVec 8} {q : Req} (h : s.runs op q = true) (hs : splitPhase op = false)
    (act : State → State) : s.request op q act = act s.routine := by
  obtain ⟨-, hacc⟩ : s.overridden op q = false ∧ s.accept op q = none := by simpa [State.runs] using h
  simp [State.request, hacc, hs]

/-! ## An error exit -/

theorem MemSame.of_mem {s t : State} (h : t.mem = s.mem) : MemSame s t := State.mget_congr h

theorem State.fail_mem (s : State) (op : BitVec 8) (q : Req) (st : BitVec 8) (p0 : Word) : (s.fail op q st p0).mem = s.mem :=
  (State.reply_replies ..).mem.trans (State.evCount_counts ..).mem

theorem State.fail_regsSame (s : State) (op : BitVec 8) (q : Req) (st : BitVec 8) (p0 : Word) :
    RegsSame (fun a => counting a || a == R.SESS_STAT q.session.toNat) s (s.fail op q st p0) := by
  intro a ha
  obtain ⟨hcnt, hstat⟩ : counting a = false ∧ a ≠ R.SESS_STAT q.session.toNat := by simpa using ha
  exact ((State.reply_replies ..).regs a hstat).trans ((State.evCount_counts ..).regs a hcnt)

/-- A command whose routine does nothing but fail answers the status with P0 = `p0`, within the frame of an error exit. -/
theorem State.routine_fail_completes (s : State) (op : BitVec 8) (q : Req) (st : BitVec 8) (p0 : Word) :
    Answered (s.routine.fail op q st p0) op q st [p0] [] ∧ MemSame s (s.routine.fail op q st p0) ∧
      RegsSame (fun a => counting a || a == R.SESS_STAT q.session.toNat) s (s.routine.fail op q st p0) := by
  have hr : Counts s s.routine := State.routine_counts s
  refine ⟨State.reply_answered _ op q st [p0] [], .of_mem ((State.fail_mem ..).trans hr.mem), fun a ha => ?_⟩
  exact (State.fail_regsSame _ op q st p0 a ha).trans (hr.regs a (Bool.or_eq_false_iff.1 ha).1)

end Sys2Proof.Machine
end

section
/-! SUPPORT. Register commands at an address that is not a multiple of 4 (00_scope.md R9). -/

namespace Sys2Proof.Machine

theorem wordsFrom_misaligned {a : Nat} (h : a % 4 ≠ 0) : wordsFrom a = none := if_pos h

theorem doRegRead_misaligned {q : Req} {s : State} (h : s.runs 0x10 q = true) (hc : countBad q = false) (ha : q.n 0 % 4 ≠ 0) :
    doRegRead q s = s.routine.fail 0x10 q St.badAddress := by
  rw [doRegRead, State.request_of_runs h rfl]
  simp [hc, wordsFrom_misaligned ha]

theorem doRegWrite_misaligned {q : Req} {s : State} (h : s.runs 0x11 q = true) (hc : countBad q = false) (ha : q.n 0 % 4 ≠ 0) :
    doRegWrite q s = s.routine.fail 0x11 q St.badAddress := by
  rw [doRegWrite, State.request_of_runs h rfl]
  simp [hc, wordsFrom_misaligned ha]

theorem State.bitRequest_misaligned {s : State} {op : BitVec 8} {q : Req} (h : s.runs op q = true) (hs : splitPhase op = false)
    (ha : q.n 0 % 4 ≠ 0) (sense : RegDesc → Word → Word → Word) :
    s.bitRequest op q sense = s.routine.fail op q St.badAddress := by
  rw [State.bitRequest, State.request_of_runs h hs]
  simp [wordsFrom_misaligned ha]

/-- A parameter word that is absent reads as 0, which is a multiple of 4: a misaligned P0 is there. -/
theorem Req.params_eq_cons_of_misaligned {q : Req} (ha : q.n 0 % 4 ≠ 0) : ∃ l, q.params = q.p 0 :: l := by
  cases hp : q.params with
  | nil => exact absurd (by simp [Req.n, Req.p, hp]) ha
  | cons w l => exact ⟨l, by simp [Req.p, hp]⟩

/-- The first word of the list is the first that is refused: P0 of the reply is its place, 0. -/
theorem doRegGather_misaligned {q : Req} {s : State} (h : s.runs 0x14 q = true) (ha : q.n 0 % 4 ≠ 0) :
    doRegGather q s = s.routine.fail 0x14 q St.badAddress := by
  obtain ⟨l, hl⟩ := Req.params_eq_cons_of_misaligned ha
  have hw : wordsFrom (q.p 0).toNat = none := wordsFrom_misaligned ha
  rw [doRegGather, State.request_of_runs h rfl]
  simp [hl, firstRefused, hw, State.failAt]

/-- Settles O11: each of the five routines ends at the error exit of its address check. -/
theorem misalignedRegisterCommand : Obligations.MisalignedRegisterCommand := by
  unfold Obligations.MisalignedRegisterCommand
  intro q s op c hcmd hruns ha
  obtain ⟨rom, hexec, hrom⟩ : ∃ rom, exec c s = .next (s.byTable op q rom) ∧ rom s = s.routine.fail op q St.badAddress := by
    simp only [List.mem_cons, List.not_mem_nil, or_false, Prod.mk.injEq] at hcmd
    rcases hcmd with ⟨⟨rfl, rfl⟩ | ⟨rfl, rfl⟩, hc⟩ | ⟨rfl, rfl⟩ | ⟨rfl, rfl⟩ | ⟨rfl, rfl⟩
    · exact ⟨doRegRead q, rfl, doRegRead_misaligned hruns hc ha⟩
    · exact ⟨doRegWrite q, rfl, doRegWrite_misaligned hruns hc ha⟩
    · exact ⟨doRegSetBits q, rfl, State.bitRequest_misaligned hruns rfl ha setSense⟩
    · exact ⟨doRegClearBits q, rfl, State.bitRequest_misaligned hruns rfl ha clearSense⟩
    · exact ⟨doRegGather q, rfl, doRegGather_misaligned hruns ha⟩
  rw [State.byTable_of_runs hruns, hrom] at hexec
  exact ⟨_, hexec, State.routine_fail_completes s op q St.badAddress 0⟩

end Sys2Proof.Machine
end

section
/-! SUPPORT. What leaves the step of a tile alone: updates of other registers and of the rest of the tile's context, the events of a session,
and the segment queue behind it. -/

namespace Sys2Proof.Machine

/-! ## Fields and registers -/

/-- A field keeps its value when another field of the same word is set. -/
theorem field_setField_disjoint (w : Word) {hi lo hi' lo' : Nat} (v : Nat) (h : hi' < lo ∨ hi < lo') (k : lo ≤ hi) (k' : lo' ≤ hi') :
    field (setField w hi lo v) hi' lo' = field w hi' lo' := by
  obtain ⟨d, rfl⟩ := Nat.exists_eq_add_of_le k
  have e : lo + d - lo + 1 = d + 1 := by omega
  simp only [field, setField, e]
  apply Nat.eq_of_testBit_eq
  intro i
  simp only [Nat.testBit_mod_two_pow, Nat.testBit_div_two_pow, ← BitVec.getLsbD.eq_1]
  by_cases hi : i < hi' - lo' + 1
  · have out : ¬(lo ≤ i + lo' ∧ i + lo' - lo < d + 1) := by omega
    have mask : ((2 ^ (d + 1) - 1) * 2 ^ lo).testBit (i + lo') = false := by
      rw [Nat.testBit_mul_two_pow, Nat.testBit_two_pow_sub_one]
      simpa using out
    by_cases b : i + lo' < 32
    · simp [BitVec.getLsbD_or, BitVec.getLsbD_and, BitVec.getLsbD_not, BitVec.getLsbD_ofNat, mask, b, -BitVec.getLsbD_eq_getElem]
    · simp [BitVec.getLsbD_of_ge _ _ (Nat.le_of_not_lt b)]
  · simp [hi]

/-- A field keeps its value when a field that shares no bit with it is set. -/
theorem State.fget_fset_disjoint (s : State) {f g : Fld} (v : Nat) (h : g.hi < f.lo ∨ f.hi < g.lo) (kf : f.lo ≤ f.hi) (kg : g.lo ≤ g.hi) :
    (s.fset f v).fget g = s.fget g := by
  by_cases ha : g.addr = f.addr
  · simp [State.fget, State.fset, ha, field_setField_disjoint _ v h kf kg]
  · exact s.fget_fset_addr v ha

theorem field_lt (w : Word) (hi lo : Nat) : field w hi lo < 2 ^ (hi - lo + 1) := Nat.mod_lt _ (Nat.two_pow_pos _)

theorem Store.get_filter {β : Type} {d : Nat → β} (m : Store β) {p : Nat → Bool} {k : Nat} (h : p k = false) :
    Store.get d (m.filter fun e => !p e.1) k = Store.get d m k := by
  induction m with
  | nil => rfl
  | cons e m ih =>
    obtain ⟨j, v⟩ := e
    by_cases hj : j = k
    · subst hj
      simp [h, Store.get]
    · cases hp : p j <;> simp [hp, Store.get, hj, ih]

theorem State.rget_resetRegs (s : State) {p : Nat → Bool} {a : Nat} (h : p a = false) : (s.resetRegs p).rget a = s.rget a :=
  Store.get_filter _ h

/-- Equal stores of contexts read alike. -/
theorem State.tile_congr {s t : State} (h : t.tiles = s.tiles) (u : Nat) : t.tile u = s.tile u := by rw [State.tile, h]; rfl

theorem State.fget_congr {s t : State} {f : Fld} (h : t.rget f.addr = s.rget f.addr) : t.fget f = s.fget f := by
  rw [State.fget, h]; rfl

theorem State.flag_congr {s t : State} {f : Fld} (h : t.rget f.addr = s.rget f.addr) : t.flag f = s.flag f := by
  rw [State.flag, State.fget_congr h]; rfl

theorem tilesOf_lt {lo hi : Word} {u : Nat} (h : u ∈ tilesOf lo hi) : u < 64 := List.mem_range.1 (List.mem_filter.1 h).1

/-! ## Where SEQ_STATUS is not -/

theorem tileReg_ne_status {t u o : Nat} (h : o ≠ 4) (ho : o < 0x10000) : 0x100000 + t * 0x10000 + o ≠ R.SEQ_STATUS u := by
  unfold R.SEQ_STATUS; omega

theorem otherTile_ne_status {t u o : Nat} (h : u ≠ t) (ho : o < 0x10000) : 0x100000 + t * 0x10000 + o ≠ R.SEQ_STATUS u := by
  unfold R.SEQ_STATUS; omega

theorem chipReg_ne_status {a u : Nat} (h : a < 0x100000) : a ≠ R.SEQ_STATUS u := by
  unfold R.SEQ_STATUS; omega

theorem chanReg_ne_status {ch u o : Nat} (h : u < 64) : 0x500000 + ch * 0x400 + o ≠ R.SEQ_STATUS u := by
  unfold R.SEQ_STATUS; omega

theorem segState_ne_status {t u i : Nat} (h : i < 16) : R.SEG_STATE t (i / 8) ≠ R.SEQ_STATUS u := by
  unfold R.SEG_STATE R.SEQ_STATUS; omega

theorem sessReg_ne_status {n u : Nat} (h : n < 32) : R.SESS_STAT n ≠ R.SEQ_STATUS u ∧ R.SESS_LOAD n ≠ R.SEQ_STATUS u := by
  unfold R.SESS_STAT R.SESS_LOAD R.SEQ_STATUS; omega

theorem counting_lt {a : Nat} (h : counting a = true) : a < 0x100000 := by
  have := of_decide_eq_true h
  omega

theorem counting_of_ge {a : Nat} (h : 0x100000 ≤ a) : counting a = false := by
  cases k : counting a
  · rfl
  · exact absurd (counting_lt k) (by omega)

/-! ## The step of a tile is left alone -/

/-- The part of a tile's context that arming, scheduling and starting its step set. -/
def TileCtx.stepPart (c : TileCtx) : List Run × Nat × Option (BitVec 5) × Int × Int × Int :=
  (c.queue, c.group, c.armedBy, c.startAt, c.endE, c.lastE)

/-- The step of tile `u` is left alone: the word SEQ_STATUS and the part of its context that belongs to the step. -/
structure StepSame (u : Nat) (s t : State) : Prop where
  status : t.rget (R.SEQ_STATUS u) = s.rget (R.SEQ_STATUS u)
  ctx : (t.tile u).stepPart = (s.tile u).stepPart

namespace StepSame

variable {u : Nat} {s₀ s t : State}

theorem refl (s : State) : StepSame u s s := ⟨rfl, rfl⟩

theorem trans (h : StepSame u s₀ s) (k : StepSame u s t) : StepSame u s₀ t :=
  ⟨k.status.trans h.status, k.ctx.trans h.ctx⟩

theorem stepState (h : StepSame u s t) : t.stepState u = s.stepState u := State.fget_congr h.status

theorem group (h : StepSame u s t) : (t.tile u).group = (s.tile u).group := (congrArg (·.2.1) h.ctx :)
theorem queue (h : StepSame u s t) : (t.tile u).queue = (s.tile u).queue := (congrArg (·.1) h.ctx :)
theorem armedBy (h : StepSame u s t) : (t.tile u).armedBy = (s.tile u).armedBy := (congrArg (·.2.2.1) h.ctx :)
theorem startAt (h : StepSame u s t) : (t.tile u).startAt = (s.tile u).startAt := (congrArg (·.2.2.2.1) h.ctx :)
theorem endE (h : StepSame u s t) : (t.tile u).endE = (s.tile u).endE := (congrArg (·.2.2.2.2.1) h.ctx :)
theorem lastE (h : StepSame u s t) : (t.tile u).lastE = (s.tile u).lastE := (congrArg (·.2.2.2.2.2) h.ctx :)

/-- An update of fields other than the registers and the tiles' contexts. -/
theorem upd (h : StepSame u s₀ s) (hr : t.regs = s.regs) (ht : t.tiles = s.tiles) : StepSame u s₀ t :=
  h.trans ⟨State.rget_congr hr _, congrArg _ (State.tile_congr ht u)⟩

theorem rset (h : StepSame u s₀ s) {a : Nat} (ha : a ≠ R.SEQ_STATUS u) (v : Word) : StepSame u s₀ (s.rset a v) :=
  h.trans ⟨State.rget_rset_other _ _ ha.symm, rfl⟩

theorem fset (h : StepSame u s₀ s) {f : Fld} (hf : f.addr ≠ R.SEQ_STATUS u) (v : Nat) : StepSame u s₀ (s.fset f v) := h.rset hf _

theorem setFlag (h : StepSame u s₀ s) {f : Fld} (hf : f.addr ≠ R.SEQ_STATUS u) (b : Bool) : StepSame u s₀ (s.setFlag f b) := h.fset hf _

theorem resetRegs (h : StepSame u s₀ s) {p : Nat → Bool} (hp : p (R.SEQ_STATUS u) = false) : StepSame u s₀ (s.resetRegs p) :=
  h.trans ⟨State.rget_resetRegs _ hp, rfl⟩

theorem modTile_other (h : StepSame u s₀ s) {n : Nat} (hn : u ≠ n) (f : TileCtx → TileCtx) : StepSame u s₀ (s.modTile n f) :=
  h.trans ⟨rfl, by rw [State.tile_modTile, if_neg hn]⟩

/-- An update of the rest of a tile's context. -/
theorem modTile (h : StepSame u s₀ s) (n : Nat) {f : TileCtx → TileCtx} (hf : ∀ c, (f c).stepPart = c.stepPart) :
    StepSame u s₀ (s.modTile n f) :=
  h.trans ⟨rfl, by rw [State.tile_modTile]; split <;> simp [*]⟩

theorem ite {c : Prop} [Decidable c] {a b : State} (ha : StepSame u s a) (hb : StepSame u s b) : StepSame u s (if c then a else b) := by
  split
  · exact ha
  · exact hb

theorem foldl {α : Type} {l : List α} {f : State → α → State} (h : StepSame u s₀ s)
    (step : ∀ s, ∀ a ∈ l, StepSame u s (f s a)) : StepSame u s₀ (l.foldl f s) :=
  List.foldlRecOn l f h fun _ hb a ha => hb.trans (step _ a ha)

theorem rsets (h : StepSame u s₀ s) {l : List Nat} (hl : ∀ a ∈ l, a ≠ R.SEQ_STATUS u) (v : Word) :
    StepSame u s₀ (l.foldl (fun s a => s.rset a v) s) :=
  h.foldl fun s a ha => (refl s).rset (hl a ha) v

theorem suspectFlag (h : StepSame u s₀ s) (n k : Nat) : StepSame u s₀ (s.suspectFlag n k) := h.modTile n fun _ => rfl

theorem of_counts (h : Counts s t) : StepSame u s t :=
  ⟨h.regs _ (counting_of_ge (by unfold R.SEQ_STATUS; omega)), congrArg _ (State.tile_congr h.tiles u)⟩

theorem of_completes (h : Completes s t) : StepSame u s t :=
  ⟨h.regs _ (chipReg_ne_status (by decide)).symm, congrArg _ (State.tile_congr h.tiles u)⟩

theorem of_replies {n : Nat} (hn : n < 32) (h : Replies n s t) : StepSame u s t :=
  ⟨h.regs _ (sessReg_ne_status hn).1.symm, congrArg _ (State.tile_congr h.tiles u)⟩

end StepSame

/-! ## Events -/

theorem State.eventTo_stepSame {u : Nat} (s : State) {n : Nat} (hn : n < 32) (code : Nat) (ps : List Word) :
    StepSame u s (s.eventTo n code ps) := by
  obtain ⟨hstat, hload⟩ := sessReg_ne_status (u := u) hn
  unfold State.eventTo
  extract_lets s₁
  have h₁ : StepSame u s s₁ := (StepSame.refl s).upd rfl rfl
  split
  · exact (h₁.fset hload _).upd rfl rfl
  · exact ((h₁.upd (t := s₁.modCtx n _) rfl rfl).setFlag hstat _).trans (.of_counts (State.evCount_counts ..))

theorem State.chipEvent_stepSame {u : Nat} (s : State) (code : Nat) (ps : List Word) : StepSame u s (s.chipEvent code ps) := by
  unfold State.chipEvent
  split
  · exact .of_counts (State.evCount_counts ..)
  · exact (StepSame.refl s).foldl fun s n hn => s.eventTo_stepSame (List.mem_range.1 (List.mem_filter.1 hn).1) code ps

theorem State.eventFor_stepSame {u : Nat} (s : State) (who : Option (BitVec 5)) (code : Nat) (ps : List Word) :
    StepSame u s (s.eventFor who code ps) := by
  unfold State.eventFor
  split
  · split
    · exact s.eventTo_stepSame (BitVec.isLt _) code ps
    · exact s.chipEvent_stepSame code ps
  · exact s.chipEvent_stepSame code ps

/-! ## The segment queue of a tile (04_pattern_store.md R96, R109) -/

/-- Nothing but registers changes, and of them only those that `p` names. -/
structure RegsOnly (p : Nat → Bool) (s t : State) : Prop where
  same : { t with regs := s.regs } = s
  regs : RegsSame p s t

namespace RegsOnly

variable {p : Nat → Bool} {s₀ s t : State}

theorem refl (s : State) : RegsOnly p s s := ⟨rfl, fun _ _ => rfl⟩

theorem fset (h : RegsOnly p s₀ s) {f : Fld} (hf : p f.addr = true) (v : Nat) : RegsOnly p s₀ (s.fset f v) :=
  ⟨h.same, fun a ha => (State.rget_fset_other _ _ (by rintro rfl; simp [hf] at ha)).trans (h.regs a ha)⟩

theorem tiles (h : RegsOnly p s t) : t.tiles = s.tiles := (congrArg State.tiles h.same :)
theorem mem (h : RegsOnly p s t) : t.mem = s.mem := (congrArg State.mem h.same :)
theorem splits (h : RegsOnly p s t) : t.splits = s.splits := (congrArg State.splits h.same :)

theorem stepSame (h : RegsOnly p s t) {u : Nat} (hu : p (R.SEQ_STATUS u) = false) : StepSame u s t :=
  ⟨h.regs _ hu, congrArg _ (State.tile_congr h.tiles u)⟩

end RegsOnly

/-- SEG_STATE and STRM_STATUS of a tile. -/
def segReg (t a : Nat) : Bool := a == R.SEG_STATE t 0 || a == R.SEG_STATE t 1 || a == R.STRM_STATUS t

theorem segReg_segFld {t i : Nat} (h : i < 16) : segReg t (segFld t i).addr = true := by
  have : i / 8 = 0 ∨ i / 8 = 1 := by omega
  rcases this with e | e <;> simp [segReg, segFld, e]

theorem segReg_status (t u : Nat) : segReg t (R.SEQ_STATUS u) = false := by
  simp [segReg, R.SEQ_STATUS, R.SEG_STATE, R.STRM_STATUS]; omega

/-- What the segment queue of a tile does: its registers follow, and a RUNNING tile may raise the low-water event. -/
theorem State.segSync_cases (s : State) (t : Nat) : ∃ s₁, RegsOnly (segReg t) s s₁ ∧ (s.segSync t = s₁ ∨
    s.stepState t = stRunning ∧ ∃ who ps, s.segSync t = s₁.eventFor who 0x10 ps) := by
  unfold State.segSync
  extract_lets s₁ old new low s₂
  have h₁ : RegsOnly (segReg t) s s₁ := by
    refine List.foldlRecOn _ _ (.refl s) fun s' hs' i hi => ?_
    have hi := segReg_segFld (t := t) (List.mem_range.1 hi)
    split
    · exact hs'.fset hi _
    split
    · exact hs'.fset hi _
    · exact hs'
  have hlow : segReg t (R.STRM_STATUS t) = true := by simp [segReg]
  have h₂ : RegsOnly (segReg t) s s₂ := h₁.fset (f := R.STRM_STATUS_AHEAD t) hlow _
  clear_value s₁ s₂
  split
  · next hrun =>
    have hrun : s₂.stepState t = stRunning := beq_iff_eq.1 (Bool.and_eq_true_iff.1 hrun).1
    have h₃ : RegsOnly (segReg t) s (s₂.setFlag (R.STRM_STATUS_LOW t) true) :=
      h₂.fset (f := R.STRM_STATUS_LOW t) hlow _
    exact ⟨_, h₃, .inr ⟨(h₂.stepSame (segReg_status t t)).stepState.symm.trans hrun, _, _, rfl⟩⟩
  · exact ⟨s₂, h₂, .inl rfl⟩

theorem State.segSync_stepSame (s : State) (t u : Nat) : StepSame u s (s.segSync t) := by
  obtain ⟨s₁, h₁, e | ⟨-, who, ps, e⟩⟩ := s.segSync_cases t
  · exact e ▸ h₁.stepSame (segReg_status t u)
  · exact e ▸ (h₁.stepSame (segReg_status t u)).trans (State.eventFor_stepSame ..)

/-- Of a tile that is not RUNNING only the registers of the segment queue follow. -/
theorem State.segSync_regsOnly {s : State} {t : Nat} (h : s.stepState t ≠ stRunning) : RegsOnly (segReg t) s (s.segSync t) := by
  obtain ⟨s₁, h₁, e | ⟨hrun, -⟩⟩ := s.segSync_cases t
  · exact e ▸ h₁
  · exact absurd hrun h

/-! ## One tile after another -/

/-- Where an operation on each tile of a list establishes a fact about that tile, and leaves those of the other tiles, the fact holds for every
tile of the list in the end. -/
theorem foldl_establishes {f : State → Nat → State} {I : State → Prop} {P : Nat → State → Prop} {l : List Nat} {s : State} (init : I s)
    (inv : ∀ s, ∀ n ∈ l, I s → I (f s n)) (own : ∀ s, ∀ n ∈ l, I s → P n (f s n))
    (keep : ∀ s, ∀ u ∈ l, ∀ n ∈ l, u ≠ n → I s → P u s → P u (f s n)) : ∀ u ∈ l, P u (l.foldl f s) := by
  suffices ∀ (m : List Nat) (s : State), (∀ n ∈ m, n ∈ l) → I s → ∀ u ∈ l, (u ∈ m ∨ P u s) → P u (m.foldl f s) from
    fun u hu => this l s (fun _ => id) init u hu (.inl hu)
  intro m
  induction m with
  | nil => intro s _ _ u _ h; simpa using h
  | cons n m ih =>
    intro s hm hs u hu h
    have hn : n ∈ l := hm n List.mem_cons_self
    refine ih (f s n) (fun k hk => hm k (List.mem_cons_of_mem _ hk)) (inv s n hn hs) u hu ?_
    by_cases e : u = n
    · exact .inr (e ▸ own s n hn hs)
    · rcases h with h | h
      · exact .inl ((List.mem_cons.1 h).resolve_left e)
      · exact .inr (keep s u hu n hn e hs h)

end Sys2Proof.Machine
end

section
/-! SUPPORT. The start grid point of a step: the tile runs, or throttle stage 3 returns its group to ARMED (01_architecture.md R22, R23). -/

namespace Sys2Proof.Machine

/-! ## A tile changes its step state -/

theorem State.fset_state_own (s : State) (t : Nat) {v : Nat} (hv : v < 8) : (s.fset (R.SEQ_STATUS_STATE t) v).stepState t = v := by
  rw [State.stepState, State.fget_fset_same _ _ (Nat.zero_le _) (show 2 < 32 by decide)]
  exact Nat.mod_eq_of_lt hv

/-- The step state of one tile leaves every other tile's step alone. -/
theorem StepSame.fset_state {u t : Nat} {s₀ s : State} (h : StepSame u s₀ s) (hn : u ≠ t) (v : Nat) :
    StepSame u s₀ (s.fset (R.SEQ_STATUS_STATE t) v) :=
  h.fset (otherTile_ne_status hn (by decide)) v

/-- Tiles that return to ARMED one after another: no operation ends, each is ARMED with what `f` leaves of its context, and the step of every
other tile is left alone. -/
theorem foldl_rearm {f : TileCtx → TileCtx} (hf : ∀ c, (f c).queue = []) (l : List Nat) (s : State) :
    let t := l.foldl (fun s n => ((s.fset (R.SEQ_STATUS_STATE n) stArmed).modTile n f).segSync n) s
    t.splits = s.splits ∧ (∀ v ∈ l, t.stepState v = stArmed ∧ (t.tile v).queue = []) ∧ ∀ v, v ∉ l → StepSame v s t := by
  have armed (s : State) (n : Nat) : ((s.fset (R.SEQ_STATUS_STATE n) stArmed).modTile n f).stepState n = stArmed :=
    s.fset_state_own n (by decide)
  have other (s : State) {v n : Nat} (h : v ≠ n) :
      StepSame v s (((s.fset (R.SEQ_STATUS_STATE n) stArmed).modTile n f).segSync n) :=
    (((StepSame.refl s).fset_state h _).modTile_other h f).trans (State.segSync_stepSame ..)
  refine ⟨?_, ?_, fun v hv => (StepSame.refl s).foldl fun s n hn => other s fun e => hv (e ▸ hn)⟩
  · refine List.foldlRecOn (motive := fun t : State => t.splits = s.splits) _ _ rfl fun t ht n _ => ?_
    exact (State.segSync_regsOnly (by rw [armed]; decide)).splits.trans ht
  · refine foldl_establishes (I := fun _ => True) (P := fun v t => t.stepState v = stArmed ∧ (t.tile v).queue = []) trivial
      (fun _ _ _ _ => trivial) (fun t n _ _ => ?_) fun t u _ n _ hn _ hu => ?_
    · have same := State.segSync_stepSame ((t.fset (R.SEQ_STATUS_STATE n) stArmed).modTile n f) n n
      exact ⟨same.stepState.trans (armed t n), same.queue.trans (by simp [hf])⟩
    · exact ⟨(other t hn).stepState.trans hu.1, (other t hn).queue.trans hu.2⟩

/-! ## The hold of throttle stage 3 (R23) -/

/-- The PENDING tiles of a group return to ARMED with an empty queue, no other step is touched, and the group's STEP_START completes with BUSY. -/
theorem State.heldStart_rearms (s : State) (g : Nat) :
    let l := (s.members g).filter fun t => s.stepState t == stPending
    (∀ v ∈ l, (s.heldStart g).stepState v = stArmed ∧ ((s.heldStart g).tile v).queue = []) ∧
      (∀ v, v ∉ l → StepSame v s (s.heldStart g)) ∧
      ∀ x, s.startOf g = some x → Over (s.heldStart g) x ∧ Completed (s.heldStart g) x St.busy := by
  unfold State.heldStart
  extract_lets l s₁
  obtain ⟨hsplits, hown, hother⟩ : s₁.splits = s.splits ∧ (∀ v ∈ l, s₁.stepState v = stArmed ∧ (s₁.tile v).queue = []) ∧
    ∀ v, v ∉ l → StepSame v s s₁ := foldl_rearm (fun _ => rfl) l s
  clear_value s₁ l
  have hstart : s₁.startOf g = s.startOf g := by rw [State.startOf, hsplits]; rfl
  cases hx : s₁.startOf g with
  | none => exact ⟨hown, hother, fun x h => by simp [← hstart, hx] at h⟩
  | some x =>
    dsimp only
    have same (v : Nat) (st : BitVec 8) (ps : List Word) : StepSame v s₁ (s₁.freeTime.2.complete x st ps) :=
      ((StepSame.refl s₁).upd (t := s₁.freeTime.2) rfl rfl).trans (.of_completes (State.complete_completes ..))
    refine ⟨fun v hv => ?_, fun v hv => (hother v hv).trans (same v _ _), fun y hy => ?_⟩
    · exact ⟨(same v _ _).stepState.trans (hown v hv).1, (same v _ _).queue.trans (hown v hv).2⟩
    · obtain rfl : x = y := Option.some.inj (hx.symm.trans (hstart.trans hy))
      exact ⟨State.complete_over _ _ _ _ _ _, State.complete_completed _ _ _ _ _ _⟩

theorem doStepStartGridPoint_held {u : Fin 64} {s : State} (hp : s.stepState u = stPending) (hh : s.holdStarts = true) :
    doStepStartGridPoint u s = s.heldStart (s.tile u).group := by
  simp [doStepStartGridPoint, hp, hh]

/-- Settles O22: the held start returns the PENDING members to ARMED one by one; no tile comes to run. -/
theorem throttleHoldsStart : Obligations.ThrottleHoldsStart := by
  unfold Obligations.ThrottleHoldsStart
  intro u s hp hh
  obtain ⟨hown, hother, hstart⟩ := s.heldStart_rearms (s.tile u).group
  have hexec : exec (.stepStartGridPoint u) s = .next (s.heldStart (s.tile u).group) :=
    congrArg Host.Outcome.next (doStepStartGridPoint_held hp hh)
  refine ⟨_, hexec, fun v hv hpend => hown v (List.mem_filter.2 ⟨hv, beq_iff_eq.2 hpend⟩), fun v _ hrun => ?_, hstart⟩
  by_cases hv : v ∈ (s.members (s.tile u).group).filter fun t => s.stepState t == stPending
  · exact absurd ((hown v hv).1.symm.trans hrun) (by decide)
  · exact (hother v hv).stepState.symm.trans hrun

end Sys2Proof.Machine
end

section
/-! SUPPORT. STEP_START: the tiles are scheduled, their old groups are not touched, and at the start grid point each tile runs
(01_architecture.md R21, R22; 02_epoch_grid.md R51). -/

namespace Sys2Proof.Machine

/-! ## The start grid point -/

theorem State.ringPut_stepSame {u : Nat} (s : State) (t : Nat) (w0 w1 w2 w3 : Word) : StepSame u s (s.ringPut t w0 w1 w2 w3) := by
  unfold State.ringPut
  extract_lets wr s₁ s₂
  have h₁ : StepSame u s s₁ := (StepSame.refl s).upd (State.mwrite_regs ..) (State.mwrite_tiles ..)
  have h₂ : StepSame u s s₂ := h₁.modTile t fun _ => rfl
  exact (h₂.fset (tileReg_ne_status (by decide) (by decide)) _).fset (tileReg_ne_status (by decide) (by decide)) _

theorem State.putAnchor_stepSame {u : Nat} (s : State) (t cyc time : Nat) (step : Bool) : StepSame u s (s.putAnchor t cyc time step) := by
  unfold State.putAnchor
  extract_lets w0 s₁
  have hstamp : StepSame u s (s.recStamp t time) := by
    unfold State.recStamp
    exact (StepSame.refl s).modTile t fun _ => rfl
  have h₁ : StepSame u s s₁ := hstamp.trans (State.ringPut_stepSame ..)
  exact h₁.modTile t fun _ => rfl

theorem State.maskStart_stepSame {u : Nat} (s : State) (t kind : Nat) (i : Int) : StepSame u s (s.maskStart t kind i) := by
  unfold State.maskStart
  exact .ite ((StepSame.refl s).modTile t fun _ => rfl) (.refl s)

theorem doStepStartGridPoint_runs {u : Fin 64} {s : State} (hp : s.stepState u = stPending) (hh : s.holdStarts = false) :
    (doStepStartGridPoint u s).stepState u = stRunning ∧ ((doStepStartGridPoint u s).tile u).lastE = (s.tile u).startAt := by
  unfold doStepStartGridPoint
  extract_lets n c i s₁ s₂ s₃ s₄
  rw [if_neg (by simp [n, hp]), if_neg (by simp [hh])]
  have h₂ : StepSame n s₁ s₂ := .ite ((StepSame.refl s₁).suspectFlag ..) (.refl s₁)
  have h₃ : StepSame n s₂ s₃ := .ite ((StepSame.refl s₂).suspectFlag ..) (.refl s₂)
  have h₄ : StepSame n s₃ s₄ := .ite (State.putAnchor_stepSame ..) (.refl s₃)
  have same := (((h₂.trans h₃).trans h₄).trans (State.maskStart_stepSame s₄ n 2 i)).trans (State.segSync_stepSame _ n n)
  refine ⟨same.stepState.trans (s.fset_state_own n (by decide)), same.lastE.trans ?_⟩
  simp [s₁, i, c, n]

/-! ## Scheduling -/

/-- What scheduling a tile's start does to the tile. -/
structure Scheduled (u : Nat) (g first : Nat) (at_ : Int) (t : State) : Prop where
  state : t.stepState u = stPending
  pc : t.fget (R.SEQ_STATUS_PC u) = first
  group : (t.tile u).group = g
  startAt : (t.tile u).startAt = at_
  endE : (t.tile u).endE = at_

theorem Scheduled.mono {u g first : Nat} {at_ : Int} {s t : State} (h : Scheduled u g first at_ s) (k : StepSame u s t) :
    Scheduled u g first at_ t :=
  ⟨k.stepState.trans h.state, (State.fget_congr k.status).trans h.pc, k.group.trans h.group, k.startAt.trans h.startAt, k.endE.trans h.endE⟩

theorem State.pc_of_fset_state (s : State) (t v first : Nat) (h : first < 2 ^ 14) :
    ((s.fset (R.SEQ_STATUS_PC t) first).fset (R.SEQ_STATUS_STATE t) v).fget (R.SEQ_STATUS_PC t) = first := by
  rw [State.fget_fset_disjoint _ _ (.inr (show 2 < 16 by decide)) (Nat.zero_le _) (show 16 ≤ 29 by decide),
    State.fget_fset_same _ _ (show 16 ≤ 29 by decide) (show 29 < 32 by decide)]
  exact Nat.mod_eq_of_lt h

/-- Scheduling one tile: it waits for its start grid point, every other tile's step is left alone, and of the rest only registers of that tile
change. -/
theorem State.schedule_scheduled (s : State) (n g : Nat) (asked at_ : Int) :
    let t := s.schedule n g asked at_
    Scheduled n g (s.fget (R.SEQ_RANGE_FIRST n)) at_ t ∧ (∀ u, u ≠ n → StepSame u s t) ∧ t.mem = s.mem ∧ t.splits = s.splits ∧
      ∀ a, a ≠ R.SEQ_STATUS n → segReg n a = false → t.rget a = s.rget a := by
  unfold State.schedule
  extract_lets p i s₁ t
  have hpend := (s₁.fset (R.SEQ_STATUS_PC n) (s₁.fget (R.SEQ_RANGE_FIRST n))).fset_state_own n (v := stPending) (by decide)
  have only := State.segSync_regsOnly (t := n) (hpend.trans_ne (by decide))
  have same := State.segSync_stepSame
    ((s₁.fset (R.SEQ_STATUS_PC n) (s₁.fget (R.SEQ_RANGE_FIRST n))).fset (R.SEQ_STATUS_STATE n) stPending) n
  refine ⟨.mono ⟨hpend, State.pc_of_fset_state s₁ n _ _ (field_lt ..), ?_, ?_, ?_⟩ (same n), fun u hu => .trans ?_ (same u), only.mem,
    only.splits, fun a ha hseg => (only.regs a hseg).trans ?_⟩
  · change (s₁.tile n).group = g
    simp [s₁]
  · change (s₁.tile n).startAt = at_
    simp [s₁]
  · change (s₁.tile n).endE = at_
    simp [s₁]
  · exact ((((StepSame.refl s).modTile_other hu _).fset (otherTile_ne_status hu (by decide)) _).fset_state hu _)
  · rw [State.rget_fset_other _ _ ha, State.rget_fset_other _ _ ha]
    rfl

theorem segReg_range (t u : Nat) : segReg t (R.SEQ_RANGE u) = false := by
  simp [segReg, R.SEQ_RANGE, R.SEG_STATE, R.STRM_STATUS]; omega

/-- Scheduling a list of tiles, each at its own instant. -/
theorem foldl_schedule (l : List Nat) (g : Nat) (asked : State → Int) (at_ : Nat → Int) (s : State) :
    let t := l.foldl (fun s n => s.schedule n g (asked s) (at_ n)) s
    (∀ u ∈ l, Scheduled u g (s.fget (R.SEQ_RANGE_FIRST u)) (at_ u) t) ∧ (∀ u, u ∉ l → StepSame u s t) ∧ t.mem = s.mem ∧
      t.splits = s.splits := by
  have range (r : State) (n u : Nat) (asked at_ : Int) : (r.schedule n g asked at_).rget (R.SEQ_RANGE u) = r.rget (R.SEQ_RANGE u) :=
    (r.schedule_scheduled n g asked at_).2.2.2.2 _ (by unfold R.SEQ_RANGE R.SEQ_STATUS; omega) (segReg_range n u)
  refine ⟨?_, fun u hu => (StepSame.refl s).foldl fun r n hn => (r.schedule_scheduled ..).2.1 u fun e => hu (e ▸ hn), ?_, ?_⟩
  · refine foldl_establishes (I := fun r => ∀ u, r.rget (R.SEQ_RANGE u) = s.rget (R.SEQ_RANGE u)) (fun _ => rfl)
      (fun r n _ hr u => (range ..).trans (hr u)) (fun r n _ hr => ?_) fun r u _ n _ hn _ hu => hu.mono ((r.schedule_scheduled ..).2.1 u hn)
    exact State.fget_congr (f := R.SEQ_RANGE_FIRST n) (hr n) ▸ (r.schedule_scheduled ..).1
  · exact List.foldlRecOn (motive := fun t : State => t.mem = s.mem) _ _ rfl fun r hr n _ => (r.schedule_scheduled ..).2.2.1.trans hr
  · exact List.foldlRecOn (motive := fun t : State => t.splits = s.splits) _ _ rfl fun r hr n _ =>
      (r.schedule_scheduled ..).2.2.2.1.trans hr

/-! ## The new operation and the groups that the tiles leave -/

/-- An accepted request of split-phase work, with no patch waiting, runs its routine at once. -/
theorem State.request_of_runs_free {s : State} {op : BitVec 8} {q : Req} (h : s.runs op q = true)
    (hh : s.flag R.ENG_STATUS_HOLDING = false) (act : State → State) : s.request op q act = act s.routine := by
  obtain ⟨-, hacc⟩ : s.overridden op q = false ∧ s.accept op q = none := by simpa [State.runs] using h
  simp [State.request, hacc, hh]

/-- Starting an operation adds it to those in progress and leaves every step and the memory alone. -/
theorem State.start_adds (s : State) (op : BitVec 8) (q : Req) (aux : List Nat) (stage : Nat) :
    let t := s.start op q aux stage
    (∀ u, StepSame u s t) ∧ t.mem = s.mem ∧ ∃ x, t.splits = s.splits ++ [x] ∧ x.aux = aux := by
  unfold State.start State.register
  extract_lets x s₁ t
  have hcount := State.evCount_counts (s₁.fset R.ENG_STATUS_SPLIT s₁.splits.length) 3 1 none
  have hreply : Replies q.session.toNat _ t := State.reply_replies ..
  refine ⟨fun u => ?_, hreply.mem.trans hcount.mem, x, hreply.splits.trans hcount.splits, rfl⟩
  have h₁ : StepSame u s s₁ := (StepSame.refl s).upd rfl rfl
  exact ((h₁.fset (chipReg_ne_status (by decide)) _).trans (.of_counts hcount)).trans (.of_replies (BitVec.isLt _) hreply)

/-- A group with no ENDED member, and without a STEP_START where it has no member left, is not merged. -/
theorem State.groupCheck_eq_self {s : State} {g : Nat} (hm : ∀ u ∈ s.members g, s.stepState u ≠ stEnded)
    (hs : s.members g = [] → s.startOf g = none) : s.groupCheck g = s := by
  unfold State.groupCheck
  extract_lets l
  split
  · rfl
  · next hg =>
    have hl : l = [] := by
      refine List.eq_nil_iff_forall_not_mem.2 fun u hu => hg (.inr (List.any_eq_true.2 ⟨u, hu, ?_⟩))
      simpa using hm u hu
    rw [if_pos (by simp [hl]), hs hl]

/-! ## The start grid point that is declared -/

theorem State.seqAt_congr {s t : State} (h : t.mem = s.mem) (n a : Nat) : t.seqAt n a = s.seqAt n a := by
  simp [State.seqAt, State.mread, State.mget, h]

/-- Counting events moves no start grid point. -/
theorem Counts.startPoint {s t : State} (h : Counts s t) (u d : Nat) : t.startPoint u d = s.startPoint u d := by
  have regs (a : Nat) : t.rget (0x100000 + u * 0x10000 + a) = s.rget (0x100000 + u * 0x10000 + a) :=
    h.regs _ (counting_of_ge (by omega))
  have hfirst : t.fget (R.SEQ_RANGE_FIRST u) = s.fget (R.SEQ_RANGE_FIRST u) := State.fget_congr (regs 0)
  have hidx : t.firstPidx u = s.firstPidx u := by rw [State.firstPidx, hfirst, State.seqAt_congr h.mem]; rfl
  have hperiod : t.firstPeriod u = s.firstPeriod u := by
    have lo (n : Nat) : t.rget (R.PERIOD_LO u n) = s.rget (R.PERIOD_LO u n) := h.regs _ (counting_of_ge (by unfold R.PERIOD_LO; omega))
    have hi (n : Nat) : t.rget (R.PERIOD_HI u n) = s.rget (R.PERIOD_HI u n) := h.regs _ (counting_of_ge (by unfold R.PERIOD_HI; omega))
    simp only [State.firstPeriod, State.periodOf, State.pair, lo, hi, hidx]
  simp only [State.startPoint, State.startAsked, State.now, hperiod, h.sysTime]

/-! ## STEP_START -/

/-- The start time that a STEP_START declares. -/
def declaredStart (q : Req) : Nat := q.n 2 + 2 ^ 32 * q.n 3

/-- The tiles of a STEP_START scheduled as a new group. -/
def State.scheduleAll (r : State) (l : List Nat) (d : Nat) : State :=
  l.foldl (fun (s : State) u => s.schedule u (r.groups + 1) (s.startAsked d) (r.startPoint u d)) { r with groups := r.groups + 1 }

/-- A STEP_START whose checks pass: its tiles are scheduled, the operation starts, and the groups left behind are looked at. -/
theorem doStepStart_schedules {q : Req} {s : State} (hruns : s.runs 0x31 q = true) (hhold : s.flag R.ENG_STATUS_HOLDING = false)
    (hready : ∀ u ∈ q.tiles 0, s.routine.stepState u = stArmed ∧ s.routine.now + startDelay ≤ s.routine.startPoint u (declaredStart q))
    (hl : q.tiles 0 ≠ []) (hvalid : s.routine.flag R.TIME_STATUS_VALID = true) (hlen : s.routine.splits.length < 256) :
    doStepStart q s = ((q.tiles 0).map fun u => (s.routine.tile u).group).eraseDups.foldl (fun s g => s.groupCheck g)
      ((s.routine.scheduleAll (q.tiles 0) (declaredStart q)).start 0x31 q [s.routine.groups + 1]) := by
  rw [doStepStart, State.request_of_runs_free hruns hhold]
  generalize s.routine = r at *
  extract_lets l declared bad g points left s₁
  have hbad : bad = none := by
    refine List.find?_eq_none.2 fun u hu => ?_
    obtain ⟨harmed, hahead⟩ := hready u hu
    have hnot : ¬r.startPoint u declared < r.now + startDelay := Int.not_lt.2 hahead
    simp [harmed, hnot]
  have hsched : s₁ = r.scheduleAll l (declaredStart q) := List.foldl_map
  rw [hbad]
  dsimp only
  rw [if_neg (by simp [l, hl, hvalid]), if_neg (by omega), hsched]

/-- The tiles of a STEP_START that has been accepted wait for their grid points; every other step and the memory are left alone, and its
operation carries the number of the new group. -/
theorem State.scheduleAll_start (r : State) (q : Req) (l : List Nat) (d : Nat) :
    let t := (r.scheduleAll l d).start 0x31 q [r.groups + 1]
    (∀ u ∈ l, Scheduled u (r.groups + 1) (r.fget (R.SEQ_RANGE_FIRST u)) (r.startPoint u d) t) ∧ (∀ u, u ∉ l → StepSame u r t) ∧
      t.mem = r.mem ∧ ∃ x, t.splits = r.splits ++ [x] ∧ x.aux = [r.groups + 1] := by
  obtain ⟨hown, hother, hmem, hsplits⟩ := foldl_schedule l (r.groups + 1) (fun s => s.startAsked d) (fun u => r.startPoint u d)
    { r with groups := r.groups + 1 }
  obtain ⟨same, smem, x, ssplits, haux⟩ := (r.scheduleAll l d).start_adds 0x31 q [r.groups + 1] 0
  have numbered (u : Nat) : StepSame u r { r with groups := r.groups + 1 } := .upd (.refl r) rfl rfl
  exact ⟨fun u hu => (hown u hu).mono (same u), fun u hu => ((numbered u).trans (hother u hu)).trans (same u), smem.trans hmem, x,
    ssplits.trans (congrArg (· ++ [x]) hsplits), haux⟩

/-- A group that a tile of the STEP_START leaves is not merged: none of its tiles has ENDED, and it has no STEP_START. -/
theorem State.groupCheck_scheduleAll {r : State} {q : Req} {l : List Nat} {d u : Nat} (hu : u ∈ l) (h64 : u < 64)
    (hstart : r.startOf (r.tile u).group = none)
    (hended : ∀ v, v < 64 → (r.tile v).group = (r.tile u).group → r.stepState v ≠ stEnded) :
    ((r.scheduleAll l d).start 0x31 q [r.groups + 1]).groupCheck (r.tile u).group =
      (r.scheduleAll l d).start 0x31 q [r.groups + 1] := by
  obtain ⟨hown, hother, -, x, hsplits, haux⟩ := r.scheduleAll_start q l d
  generalize (r.scheduleAll l d).start 0x31 q [r.groups + 1] = t at *
  refine State.groupCheck_eq_self (fun v hv => ?_) fun hnone => ?_
  · obtain ⟨hv64, hgroup⟩ : v < 64 ∧ (t.tile v).group = (r.tile u).group := by
      simpa using (List.mem_filter.1 hv).imp_right fun h => (Bool.and_eq_true_iff.1 h).1
    by_cases hvl : v ∈ l
    · exact (hown v hvl).state.trans_ne (by decide)
    · have same := hother v hvl
      exact same.stepState.trans_ne (hended v hv64 (same.group.symm.trans hgroup))
  · have hg : r.groups + 1 ≠ (r.tile u).group := fun e => by
      have hmem : u ∈ t.members (r.tile u).group := List.mem_filter.2 ⟨List.mem_range.2 h64, by
        simp [(hown u hu).group, e, State.idle, (hown u hu).state]⟩
      simp [hnone] at hmem
    rw [State.startOf] at hstart ⊢
    rw [hsplits, List.find?_append, hstart]
    simp [haux, hg]

/-- Settles O21: the start grid points are those of the state before the routine, and the groups that the tiles leave are not touched. -/
theorem stepsStart : Obligations.StepsStart := by
  unfold Obligations.StepsStart
  refine ⟨?_, fun u s hp hh => ⟨_, rfl, doStepStartGridPoint_runs hp hh⟩, fun u s hp => ?_⟩
  · intro q s l d period point hruns hvalid hlen hhold hl hready
    have hr : Counts s s.routine := State.routine_counts s
    have hpoint (u : Nat) : s.routine.startPoint u (declaredStart q) = point u := hr.startPoint u _
    have hsame (u : Nat) : StepSame u s s.routine := .of_counts hr
    have hdo := doStepStart_schedules hruns hhold
      (fun u hu => ⟨(hsame u).stepState.trans (hready u hu).1, by
        rw [hpoint, State.now, hr.sysTime]
        exact (hready u hu).2.1⟩)
      hl ((State.flag_congr (hr.regs _ (by decide))).trans hvalid) (by rwa [hr.splits])
    have hgroups : ∀ g ∈ (l.map fun u => (s.routine.tile u).group).eraseDups,
        ((s.routine.scheduleAll l (declaredStart q)).start 0x31 q [s.routine.groups + 1]).groupCheck g =
          (s.routine.scheduleAll l (declaredStart q)).start 0x31 q [s.routine.groups + 1] := by
      intro g hg
      obtain ⟨u, hu, rfl⟩ := List.mem_map.1 (List.mem_eraseDups.1 hg)
      obtain ⟨-, -, hstart, hended⟩ := hready u hu
      refine State.groupCheck_scheduleAll hu (tilesOf_lt hu) ?_ fun v hv hgrp => ?_
      · rw [State.startOf, hr.splits, (hsame u).group]
        exact hstart
      · rw [(hsame v).group, (hsame u).group] at hgrp
        exact (hsame v).stepState.trans_ne (hended v hv hgrp)
    have hexec : exec (.stepStart q) s = .next ((s.routine.scheduleAll l (declaredStart q)).start 0x31 q [s.routine.groups + 1]) :=
      congrArg Host.Outcome.next <| (State.byTable_of_runs hruns _).trans <| hdo.trans <|
        List.foldlRecOn (motive := (· = _)) _ _ rfl fun _ e g hg => e ▸ hgroups g hg
    obtain ⟨hown, -, hmem, -⟩ := s.routine.scheduleAll_start q l (declaredStart q)
    refine ⟨_, hexec, State.start_begun .., .of_mem (hmem.trans hr.mem), fun u hu => ?_⟩
    have hu := hown u hu
    exact ⟨hu.state, hu.startAt.trans (hpoint u), hu.endE.trans (hpoint u),
      hu.pc.trans (State.fget_congr (hr.regs _ (counting_of_ge (show 0x100000 ≤ 0x100000 + u * 0x10000 + 0 by omega))))⟩
  · exact congrArg Host.Outcome.next (by simp [doStepStartGridPoint, hp])

end Sys2Proof.Machine
end

section
/-! SUPPORT. STEP_ARM: it is accepted, and its tiles become ARMED when they have settled (01_architecture.md R19, R20; 03_sequencer.md R88). -/

namespace Sys2Proof.Machine

/-! ## Acceptance -/

/-- A forced reset begins on each of a list of channels. -/
theorem foldl_forceReset (l : List Nat) (s : State) :
    (l.foldl (fun (s : State) ch => s.forceReset ch) s).splits = s.splits ∧
      (l.foldl (fun (s : State) ch => s.forceReset ch) s).txq = s.txq :=
  List.foldlRecOn (motive := fun t : State => t.splits = s.splits ∧ t.txq = s.txq) _ _ ⟨rfl, rfl⟩ fun _ ht _ _ => ht

/-- The forced resets of an arming leave the operations in progress, but for the stage of a STEP_ARM, and the packets that wait. -/
theorem State.armForce_begun {s : State} {op : BitVec 8} {q : Req} (h : Begun s op q) : Begun s.armForce op q := by
  obtain ⟨⟨x, hx, hop, hsess, htag, hpar⟩, hans⟩ := h
  unfold State.armForce
  extract_lets due
  obtain ⟨hsplits, htxq⟩ := foldl_forceReset ((((s.splits.filter due).flatMap Split.tiles).flatMap chansOf).filter s.armReset)
    { s with splits := s.splits.map fun (x : Split) => if due x then { x with stage := 2 } else x }
  refine ⟨⟨if due x then { x with stage := 2 } else x, hsplits ▸ List.mem_map_of_mem hx, ?_⟩, hans.mono fun p hp => by rwa [htxq]⟩
  split <;> exact ⟨hop, hsess, htag, hpar⟩

/-- Waking the engine touches only SLOW_ACT and the SUSP bits. -/
theorem State.wakeEngine_flag (s : State) {f : Fld} (h : f.addr ≠ R.ENG_STATUS) (hc : f.addr ≠ R.CAL_STATUS) (hb : f.addr ≠ R.BT_STATUS) :
    s.wakeEngine.flag f = s.flag f := by
  refine State.flag_congr ?_
  unfold State.wakeEngine State.syncSusp State.setFlag
  exact (State.rget_fset_other _ _ hb).trans ((State.rget_fset_other _ _ hc).trans (State.rget_fset_other _ _ h))

theorem State.wakeEngine_holding (s : State) : s.wakeEngine.flag R.ENG_STATUS_HOLDING = s.flag R.ENG_STATUS_HOLDING := by
  have h : (s.setFlag R.ENG_STATUS_SLOW_ACT false).fget R.ENG_STATUS_HOLDING = s.fget R.ENG_STATUS_HOLDING :=
    State.fget_fset_disjoint _ _ (.inr (by decide)) (by decide) (by decide)
  refine (State.flag_congr ?_).trans (congrArg (· != 0) h)
  unfold State.wakeEngine State.syncSusp State.setFlag
  exact (State.rget_fset_other _ _ (by decide)).trans (State.rget_fset_other _ _ (by decide))

/-- STEP_ARM whose tiles are not refused starts, at once or behind the boundary actions that are due. -/
theorem doStepArm_begun {q : Req} {s : State} (hruns : s.wakeEngine.runs 0x30 q = true)
    (hhold : s.wakeEngine.flag R.ENG_STATUS_HOLDING = false) (hl : q.tiles 0 ≠ [])
    (hrec : s.wakeEngine.routine.flag R.BOOT_STATUS_RECOVERY = false) (hscan : s.wakeEngine.routine.bscan = false)
    (hrefused : s.wakeEngine.routine.armRefused (q.tiles 0) = none) (hwait : ∀ u ∈ q.tiles 0, u ∉ s.wakeEngine.routine.armWaiting)
    (hlen : s.wakeEngine.routine.splits.length < 256) (hhold' : s.wakeEngine.routine.flag R.ENG_STATUS_HOLDING = false)
    (hclean : (q.tiles 0).all s.wakeEngine.routine.clean = false ∨ (s.wakeEngine.routine.armChecks (q.tiles 0)).2 = none) :
    Begun (doStepArm q s) 0x30 q := by
  rw [doStepArm, State.request_of_runs_free hruns hhold]
  generalize s.wakeEngine.routine = r at *
  extract_lets l
  have hany : l.any r.armWaiting.contains = false := by simpa using hwait
  rw [if_neg (by simpa [l] using hl), if_neg (by simp [hrec, hscan]), hrefused]
  dsimp only
  rw [if_neg (by simp [hany, hhold', hlen])]
  split
  · exact State.start_begun ..
  · next hall =>
    have hnone := hclean.resolve_left (by simpa using hall)
    split
    · next h => simp [l, h] at hnone
    · exact State.armForce_begun (State.start_begun ..)

end Sys2Proof.Machine
end

section
/-! SUPPORT. A tile enters ARMED, and no other tile's step is touched (03_sequencer.md R88; 08_acquisition.md R193, R217, R225). -/

namespace Sys2Proof.Machine

variable {u : Nat}

/-! ## What arming clears -/

/-- The registers and segments that arming clears are those of its tile. -/
theorem State.armRegs_stepSame (s : State) {t : Nat} (h : u ≠ t) : StepSame u s (s.armRegs t) := by
  have tileReg {o : Nat} (ho : o < 0x10000) : 0x100000 + t * 0x10000 + o ≠ R.SEQ_STATUS u := otherTile_ne_status h ho
  have indexed {o k : Nat} (ho : o + k * 4 < 0x10000) : 0x100000 + t * 0x10000 + o + k * 4 ≠ R.SEQ_STATUS u := by
    have := tileReg ho; omega
  unfold State.armRegs
  extract_lets s₁ s₂ s₃ s₄ s₅ s₆
  have h₁ : StepSame u s s₁ := (StepSame.refl s).rsets (by
    simp only [List.forall_mem_cons, List.not_mem_nil, false_imp_iff, implies_true, and_true]
    and_intros <;> exact tileReg (by decide)) 0
  have h₂ : StepSame u s₁ s₂ := (StepSame.refl s₁).foldl fun s k hk => by
    have hk := List.mem_range.1 hk
    exact ((StepSame.refl s).rset (indexed (by omega)) 0).rset (indexed (by omega)) 0
  have h₃ : StepSame u s₂ s₃ := ((StepSame.refl s₂).rset (tileReg (by decide)) _).fset (tileReg (by decide)) 0
  have h₄ : StepSame u s₃ s₄ := ((StepSame.refl s₃).fset (tileReg (by decide)) _).fset (tileReg (by decide)) _
  have h₅ : StepSame u s₄ s₅ := (StepSame.refl s₄).foldl fun s i hi => by
    have hi : i < 16 := List.mem_range.1 (List.mem_filter.1 hi).1
    have hempty : StepSame u s (s.segEmpty t i) :=
      ((StepSame.refl s).fset (f := segFld t i) (segState_ne_status hi) sgEmpty).upd rfl rfl
    exact (hempty.setFlag (f := sealFld t i) (segState_ne_status hi) false).upd rfl rfl
  have h₆ : StepSame u s₅ s₆ := ((StepSame.refl s₅).fset (tileReg (by decide)) _).fset (tileReg (by decide)) _
  exact ((((((h₁.trans h₂).trans h₃).trans h₄).trans h₅).trans h₆).fset (tileReg (by decide)) _).setFlag (tileReg (by decide)) _

theorem State.clearRing_stepSame (s : State) (t : Nat) : StepSame u s (s.clearRing t) := by
  unfold State.clearRing
  extract_lets s₁
  have h₁ : StepSame u s s₁ := (StepSame.refl s).modTile t fun _ => rfl
  refine h₁.rsets ?_ 0
  simp only [List.forall_mem_cons, List.not_mem_nil, false_imp_iff, implies_true, and_true]
  and_intros <;> exact tileReg_ne_status (by decide) (by decide)

theorem State.clearFc_stepSame (s : State) (t : Nat) : StepSame u s (s.clearFc t) := by
  unfold State.clearFc
  extract_lets s₁ sites
  have hmod : StepSame u s (s.modTile t fun c => { c with fc := [] }) := (StepSame.refl s).modTile t fun _ => rfl
  have h₁ : StepSame u s s₁ := hmod.fset (tileReg_ne_status (by decide) (by decide)) _
  refine h₁.foldl fun r n hn => ?_
  obtain ⟨ch, -, rfl⟩ := List.mem_map.1 hn
  have hsite : s₁.fget (R.CH_SEQ_SITE ch) < 2 ^ 8 := field_lt ..
  extract_lets r₁
  have h₂ : StepSame u r r₁ := .upd (.refl r) rfl rfl
  refine h₂.resetRegs (decide_eq_false ?_)
  unfold R.REP_LIST R.REP_FLAGS R.SEQ_STATUS
  omega

theorem State.armProfile_stepSame (hu : u < 64) (s : State) (t : Nat) : StepSame u s (s.armProfile t) := by
  have tileReg {o : Nat} (h : o ≠ 4) (ho : o < 0x10000) : 0x100000 + t * 0x10000 + o ≠ R.SEQ_STATUS u := tileReg_ne_status h ho
  have hderived (r : State) (ch : Nat) : StepSame u r (r.clearDerived ch) := by
    refine ((StepSame.refl r).resetRegs (decide_eq_false ?_)).rset (chanReg_ne_status hu) _
    unfold R.TDC_ACCEPT R.SEQ_STATUS
    omega
  have hclear : StepSame u s (s.clearProfile t) :=
    ((StepSame.upd (.refl s) (State.eraseSpace_regs ..) (State.eraseSpace_tiles ..)).foldl fun r ch _ => hderived r ch).rset
      (tileReg (by decide) (by decide)) 0
  unfold State.armProfile
  extract_lets keep clr s₁
  have h₁ : StepSame u s s₁ := .ite (.refl s) (hclear.setFlag (tileReg (by decide) (by decide)) clr)
  exact h₁.rset (tileReg (by decide) (by decide)) _

theorem State.armChan_stepSame (hu : u < 64) (s : State) (ch : Nat) : StepSame u s (s.armChan ch) := by
  unfold State.armChan
  extract_lets s₁ s₂
  have h₁ : StepSame u s s₁ := .ite (StepSame.upd (.refl s) rfl rfl) (.refl s)
  have h₂ : StepSame u s s₂ := h₁.upd rfl rfl
  exact ((h₂.rset (chanReg_ne_status hu) 0).rset (chanReg_ne_status hu) 0).rset (chanReg_ne_status hu) 0

theorem State.syncStale_stepSame (hu : u < 64) (s : State) (ch : Nat) : StepSame u s (s.syncStale ch) := by
  unfold State.syncStale
  extract_lets bits s₁
  have h₁ : StepSame u s s₁ := (StepSame.refl s).fset (chanReg_ne_status hu) bits
  exact .ite ((h₁.setFlag (tileReg_ne_status (by decide) (by decide)) true).suspectFlag ..) h₁

/-! ## A tile enters ARMED -/

/-- The tile is ARMED for the session, and the step of every other tile is left alone. -/
theorem State.armTile_armed (s : State) {t g : Nat} {by_ : BitVec 5} :
    (t < 64 → (s.armTile t g by_).stepState t = stArmed ∧ ((s.armTile t g by_).tile t).armedBy = some by_) ∧
      ∀ u < 64, u ≠ t → StepSame u s (s.armTile t g by_) := by
  unfold State.armTile
  extract_lets policy s₁ s₂ s₃ apg s₄ s₅ s₆ s₇ s₈ own
  have before {u : Nat} (hu : u < 64) (hn : u ≠ t) : StepSame u s s₃ := by
    have h₁ : StepSame u s s₁ := ((s.armRegs_stepSame hn).trans (State.clearRing_stepSame ..)).foldl fun r ch _ => r.armChan_stepSame hu ch
    have h₂ : StepSame u s₁ s₂ := .ite (.refl s₁) (s₁.clearFc_stepSame t)
    exact (h₁.trans h₂).trans (s₂.armProfile_stepSame hu t)
  have enter {u : Nat} (hu : u < 64) (hn : u ≠ t) : StepSame u s s₄ := (before hu hn).modTile_other hn _
  have after {u : Nat} (hu : u < 64) : StepSame u s₅ s₈ := by
    have h₆ : StepSame u s₅ s₆ := (StepSame.refl s₅).foldl fun r ch _ => r.syncStale_stepSame hu ch
    have h₇ : StepSame u s₆ s₇ := .ite ((StepSame.refl s₆).suspectFlag ..) (.refl s₆)
    have h₈ : StepSame u s₇ s₈ := .ite ((StepSame.refl s₇).suspectFlag ..) (.refl s₇)
    exact (h₆.trans h₇).trans h₈
  have harmed : (s₄.tile t).armedBy = some by_ := by simp [s₄]
  clear_value own s₈ s₄
  refine ⟨fun ht => ?_, fun u hu hn => ?_⟩
  · have same := (after ht).upd (t := { s₈ with steps := _, armedSites := _ }) rfl rfl
    refine ⟨same.stepState.trans (s₄.fset_state_own t (by decide)), same.armedBy.trans harmed⟩
  · exact (((enter hu hn).fset_state hn _).trans (after hu)).upd rfl rfl

/-- Every tile of a STEP_ARM enters ARMED for its session. -/
theorem State.armTiles_armed (s : State) {l : List Nat} (hl : ∀ u ∈ l, u < 64) (by_ : BitVec 5) :
    ∀ u ∈ l, (s.armTiles l by_).stepState u = stArmed ∧ ((s.armTiles l by_).tile u).armedBy = some by_ := by
  refine foldl_establishes (I := fun _ => True) (P := fun u t => t.stepState u = stArmed ∧ (t.tile u).armedBy = some by_) trivial
    (fun _ _ _ _ => trivial) (fun r n hn _ => r.armTile_armed.1 (hl n hn)) fun r u hu n _ hne _ ⟨hst, hby⟩ => ?_
  have same := (r.armTile_armed (g := s.groups + 1) (by_ := by_)).2 u (hl u hu) hne
  exact ⟨same.stepState.trans hst, same.armedBy.trans hby⟩

end Sys2Proof.Machine
end

section
/-! SUPPORT. STEP_ARM_SETTLED finds the oldest STEP_ARM whose tiles have settled, and both phases of STEP_ARM together (01_architecture.md R20). -/

namespace Sys2Proof.Machine

/-- The oldest STEP_ARM of a session and tag that has begun is the one that settles, once its tiles have. -/
theorem State.settling_eq_some {s : State} {o : OpRef} {x : Split}
    (hx : s.splits.find? (fun (x : Split) => x.arming && x.session == o.session && x.tag == o.tag) = some x)
    (hset : s.armSettled x.tiles = true) (hact : x.tiles.any s.acting = false) : s.settling? o = some x := by
  obtain ⟨hp, before, after, hs, hb⟩ := List.find?_eq_some_iff_append.1 hx
  have htiles : tilesOf (x.params.getD 0 0) (x.params.getD 1 0) = x.tiles := rfl
  refine List.find?_eq_some_iff_append.2 ⟨?_, before, after, hs, fun y hy => ?_⟩
  · simp only [htiles, hp, hset, hact]
    simp
  · have hy : (y.arming && y.session == o.session && y.tag == o.tag) = false := by
      simpa only [Bool.not_eq_true'] using hb y hy
    simp only [hy, Bool.false_and, Bool.not_false]

/-- A settled arming whose tiles are still fit ends the forced resets, in a state `r`, and arms the tiles there. -/
theorem doStepArmSettled_arms {o : OpRef} {volts : List (Fin 1024 × Int)} {s : State} {x : Split} (hx : s.settling? o = some x)
    (hl : ∀ u ∈ x.tiles, s.idle u = true ∧ s.tileFenced u = false ∧ s.armBarred u = false) (hclr : s.lvlClr = false) :
    ∃ r : State, doStepArmSettled o volts s = (r.armTiles x.tiles x.session).complete x St.ok := by
  have htiles : tilesOf (x.params.getD 0 0) (x.params.getD 1 0) = x.tiles := rfl
  have hfind : x.tiles.find? (fun t => !s.idle t || s.tileFenced t) = none :=
    List.find?_eq_none.2 fun u hu => by simp [(hl u hu).1, (hl u hu).2.1]
  have hbar : x.tiles.any s.armBarred = false := List.any_eq_false.2 fun u hu => by simp [(hl u hu).2.2]
  unfold doStepArmSettled
  rw [hx]
  dsimp only
  rw [htiles, hfind]
  dsimp only
  rw [if_neg (by simp [hclr, hbar])]
  exact ⟨_, rfl⟩

theorem State.overridden_of_runs {s : State} {op : BitVec 8} {q : Req} (h : s.runs op q = true) : s.overridden op q = false := by
  have h : s.overridden op q = false ∧ s.accept op q = none := by simpa [State.runs] using h
  exact h.1

/-- Settles O19: the checks of STEP_ARM leave its start as the one way on, and a settled arming ends in `armTiles`. -/
theorem stepsArm : Obligations.StepsArm := by
  unfold Obligations.StepsArm
  refine ⟨?_, ?_⟩
  · intro q s hruns hl hrec hscan r hrefused hwait hlen hhold hclean
    have hr : Counts s.wakeEngine r := State.routine_counts _
    have hhold₁ : s.wakeEngine.flag R.ENG_STATUS_HOLDING = false := s.wakeEngine_holding.trans hhold
    have hrec₁ : s.wakeEngine.flag R.BOOT_STATUS_RECOVERY = false :=
      (s.wakeEngine_flag (by decide) (by decide) (by decide)).trans hrec
    have hbegun := doStepArm_begun hruns hhold₁ hl ((State.flag_congr (hr.regs _ (by decide))).trans hrec₁)
      (by rw [State.bscan, hr.tap]; exact hscan) hrefused hwait (by rw [hr.splits]; exact hlen)
      ((State.flag_congr (hr.regs _ (by decide))).trans hhold₁) hclean
    have hexec : exec (.stepArm q) s = .next (doStepArm q s) :=
      congrArg Host.Outcome.next (if_neg (Bool.eq_false_iff.1 (State.overridden_of_runs hruns)))
    exact ⟨_, hexec, hbegun⟩
  · intro o volts s x hx l hl hclr hset
    have hact : l.any s.acting = false := List.any_eq_false.2 fun u hu => by simp [(hl u hu).2.2.2]
    obtain ⟨r, hr⟩ := doStepArmSettled_arms (volts := volts) (State.settling_eq_some hx hset hact)
      (fun u hu => ⟨(hl u hu).1, (hl u hu).2.1, (hl u hu).2.2.1⟩) hclr
    have hexec : exec (.stepArmSettled o volts) s = .next ((r.armTiles l x.session).complete x St.ok) :=
      congrArg Host.Outcome.next hr
    refine ⟨_, hexec, fun u hu => ?_, State.complete_over _ _ _ _ _ _, State.complete_completed _ _ _ _ _ _⟩
    have same : StepSame u _ _ := .of_completes ((r.armTiles l x.session).complete_completes x St.ok [] [] .none)
    obtain ⟨hst, hby⟩ := r.armTiles_armed (fun _ => tilesOf_lt) x.session u hu
    exact ⟨same.stepState.trans hst, same.armedBy.trans hby⟩

end Sys2Proof.Machine
end

section
/-! SUPPORT. STEP_START on a chip without valid time: its routine ends at an error exit and enters no operation (02_epoch_grid.md R44). -/

namespace Sys2Proof.Machine

/-- An accepted request whose routine does nothing but fail enters no operation, so it is never held (11_naljo_engine.md R283). -/
theorem State.request_of_runs_of_fail {s : State} {op : BitVec 8} {q : Req} {act : State → State} {st : BitVec 8} {p0 : Word}
    (h : s.runs op q = true) (hfail : act s.routine = s.routine.fail op q st p0) : s.request op q act = s.routine.fail op q st p0 := by
  obtain ⟨-, hacc⟩ : s.overridden op q = false ∧ s.accept op q = none := by simpa [State.runs] using h
  have hids : (s.routine.fail op q st p0).ids = s.ids :=
    ((State.reply_replies ..).ids.trans (State.evCount_counts ..).ids).trans (State.routine_counts s).ids
  simp [State.request, hacc, hfail, hids]

theorem State.routine_fail_splits (s : State) (op : BitVec 8) (q : Req) (st : BitVec 8) (p0 : Word) :
    (s.routine.fail op q st p0).splits = s.splits :=
  ((State.reply_replies ..).splits.trans (State.evCount_counts ..).splits).trans (State.routine_counts s).splits

theorem State.routine_fail_stepSame (s : State) (op : BitVec 8) (q : Req) (st : BitVec 8) (p0 : Word) (u : Nat) :
    StepSame u s (s.routine.fail op q st p0) :=
  ((StepSame.of_counts (State.routine_counts s)).trans (.of_counts (State.evCount_counts ..))).trans
    (.of_replies (BitVec.isLt _) (State.reply_replies ..))

/-- P0 names the first tile that cannot start; where all could, it is 0. -/
theorem doStepStart_invalid {q : Req} {s : State} (hruns : s.runs 0x31 q = true) (hv : s.flag R.TIME_STATUS_VALID = false) :
    ∃ p0, doStepStart q s = s.routine.fail 0x31 q St.badParam p0 := by
  have hv : s.routine.flag R.TIME_STATUS_VALID = false := (State.flag_congr ((State.routine_counts s).regs _ (by decide))).trans hv
  refine Exists.imp (fun p0 => State.request_of_runs_of_fail hruns) ?_
  dsimp only
  split
  · exact ⟨_, rfl⟩
  · exact ⟨0, if_pos (by simp [hv])⟩

/-- Settles O20: whether a tile cannot start or the time is not valid, the routine of STEP_START ends at an error exit. -/
theorem startNeedsTime : Obligations.StartNeedsTime := by
  unfold Obligations.StartNeedsTime
  intro q s hruns hv
  obtain ⟨p0, hdo⟩ := doStepStart_invalid hruns hv
  obtain ⟨hans, hmem, hregs⟩ := s.routine_fail_completes 0x31 q St.badParam p0
  have hexec : exec (.stepStart q) s = .next (s.routine.fail 0x31 q St.badParam p0) :=
    congrArg Host.Outcome.next ((State.byTable_of_runs hruns _).trans hdo)
  exact ⟨_, p0, hexec, hans, fun u _ => (State.routine_fail_stepSame ..).stepState, State.routine_fail_splits .., hmem, hregs⟩

end Sys2Proof.Machine
end

section
/-! SUPPORT. The count is loaded by a SYNC edge or a time message, and an unarmed SYNC edge is measured (02_epoch_grid.md R39 to R42). -/

namespace Sys2Proof.Machine

/-! ## Flags and words -/

theorem State.flag_setFlag_same (s : State) {f : Fld} (b : Bool) (h : f.lo ≤ f.hi) (k : f.hi < 32) : (s.setFlag f b).flag f = b := by
  have hb : b.toNat < 2 ^ (f.hi - f.lo + 1) := by
    have := Nat.pow_le_pow_right (n := 2) (by decide) (show 1 ≤ f.hi - f.lo + 1 by omega)
    have := b.toNat_lt
    omega
  rw [State.flag, State.setFlag, State.fget_fset_same _ _ h k, Nat.mod_eq_of_lt hb]
  cases b <;> rfl

/-- A flag keeps its value when another flag of the same word is set. -/
theorem State.flag_setFlag_disjoint (s : State) {f g : Fld} (b : Bool) (h : g.hi < f.lo ∨ f.hi < g.lo) (kf : f.lo ≤ f.hi) (kg : g.lo ≤ g.hi) :
    (s.setFlag f b).flag g = s.flag g :=
  congrArg (· != 0) (s.fget_fset_disjoint b.toNat h kf kg)

theorem State.flag_setFlag_addr (s : State) {f g : Fld} (b : Bool) (h : g.addr ≠ f.addr) : (s.setFlag f b).flag g = s.flag g :=
  congrArg (· != 0) (s.fget_fset_addr b.toNat h)

theorem ofNat_unsigned (w : Nat) (v : Int) : BitVec.ofNat w (unsigned w v) = BitVec.ofInt w v := by
  have h : (0 : Int) ≤ v % 2 ^ w := Int.emod_nonneg _ (by positivity)
  have k : v % 2 ^ w < (2 ^ w : Nat) := by simpa using Int.emod_lt_of_pos v (show (0 : Int) < 2 ^ w by positivity)
  apply BitVec.eq_of_toNat_eq
  rw [BitVec.toNat_ofNat, BitVec.toNat_ofInt, unsigned, Nat.mod_eq_of_lt ((Int.toNat_lt h).2 k)]
  norm_cast

theorem RegsSame.rset (s : State) {p : Nat → Bool} {a : Nat} (h : p a = true) (v : Word) : RegsSame p s (s.rset a v) :=
  fun b hb => State.rget_rset_other _ _ (by rintro rfl; simp [h] at hb)

/-! ## An unarmed SYNC edge (R41) -/

theorem State.calBackground_congr {s t : State} {subj : Nat} (hc : t.rget R.CAL_CTRL = s.rget R.CAL_CTRL)
    (ht : t.rget R.THR_STATUS = s.rget R.THR_STATUS) : t.calBackground subj = s.calBackground subj := by
  have hbg : t.flag R.CAL_CTRL_BG_EN = s.flag R.CAL_CTRL_BG_EN := State.flag_congr hc
  have hsubj : t.fget R.CAL_CTRL_SUBJ = s.fget R.CAL_CTRL_SUBJ := State.fget_congr hc
  have hstages : t.fget R.THR_STATUS_STAGES = s.fget R.THR_STATUS_STAGES := State.fget_congr ht
  simp only [State.calBackground, State.stage1, hbg, hsubj, hstages]

/-- PHASE of a SYNC edge that crosses at count `u`. -/
def State.syncPhase (s : State) (u : Nat) : Int := ((u : Int) - s.pair R.SYNC_LOAD_LO R.SYNC_LOAD_HI + 1280) % 2560 - 1280

/-- Without background calibration of the SYNC deskew an unarmed edge is put on record in SYNC_CHECK and the list of phases only. -/
theorem State.syncMeasure_eq {s : State} (u : Nat) (h : s.calBackground 5 = false) :
    s.syncMeasure u = { s.rset R.SYNC_CHECK (BitVec.ofInt 32 (s.syncPhase u)) with
      syncPhases := (s.syncPhase u :: s.syncPhases).take 64, syncCount := s.syncCount + 1 } := by
  unfold State.syncMeasure
  extract_lets load ph s₁ s₂
  have hbg : s₂.calBackground 5 = false :=
    (State.calBackground_congr (State.rget_rset_other _ _ (by decide)) (State.rget_rset_other _ _ (by decide))).trans h
  rw [if_neg (by simp [hbg])]
  simp only [s₂, s₁, ofNat_unsigned]
  rfl

theorem execSyncEdge_unarmed {u : Nat} {s : State} (harm : s.syncArmedNow = false) : exec (.syncEdge u) s = .next (s.syncMeasure u) :=
  congrArg Host.Outcome.next (if_neg (by simp [harm]))

/-! ## A load (R39, R40, R42) -/

/-- A load disarmed by the flag `f`: the count and VALID are set, and no byte of memory changes. -/
theorem State.loadTime_disarmed (s : State) (v : BitVec 64) (deskew : Int) {f : Fld} (hf : f.addr ≠ R.TIME_STATUS) (h : f.lo ≤ f.hi)
    (k : f.hi < 32) :
    let t := (s.loadTime v deskew).setFlag f false
    t.sysTime = v ∧ t.flag R.TIME_STATUS_VALID = true ∧ t.flag f = false ∧ t.syncArmed = s.syncArmed ∧ MemSame s t :=
  ⟨rfl, (State.flag_setFlag_addr _ _ hf.symm).trans (State.flag_setFlag_same _ _ (by decide) (by decide)),
    State.flag_setFlag_same _ _ h k, rfl, .of_mem rfl⟩

theorem doSyncArmedLoad_loads {u : Nat} {s : State} (hu : s.syncArmed = some u) (harm : s.syncArmedNow = true)
    (hstep : s.holdsStep = false) :
    let d := signed 16 (s.fget R.SYNC_DESKEW_DESKEW)
    doSyncArmedLoad s = (({ s with syncArmed := none } : State).loadTime
      (BitVec.ofInt 64 ((s.pair R.SYNC_LOAD_LO R.SYNC_LOAD_HI : Int) + d)) d).setFlag R.TIME_CTRL_SYNC_ARM false := by
  have harm' : ({ s with syncArmed := none } : State).syncArmedNow = true := harm
  have hstep' : ({ s with syncArmed := none } : State).holdsStep = false := hstep
  unfold doSyncArmedLoad
  rw [hu]
  simp only [harm', hstep', ofNat_unsigned]
  rfl

/-- A load refused while the chip holds a step sets SYNC_REJ, and its edge is measured as an unarmed one (R40). -/
theorem doSyncArmedLoad_refused {u : Nat} {s : State} (hu : s.syncArmed = some u) (harm : s.syncArmedNow = true)
    (hstep : s.holdsStep = true) :
    doSyncArmedLoad s = (({ s with syncArmed := none } : State).setFlag R.TIME_STATUS_SYNC_REJ true).syncMeasure u := by
  have harm' : ({ s with syncArmed := none } : State).syncArmedNow = true := harm
  have hstep' : ({ s with syncArmed := none } : State).holdsStep = true := hstep
  unfold doSyncArmedLoad
  rw [hu]
  simp only [harm', hstep']
  rfl

theorem doTimeMessageReceive_loads {l : Fin 12} {time arrival : BitVec 64} {s : State} (hl : s.timeSource = some l.val)
    (hsrc : s.flag R.TIME_CTRL_SRC = true) (harm : s.flag R.TIME_CTRL_LINK_ARM = true) (hstep : s.holdsStep = false)
    (heven : s.fget (R.LINK_RTT_RTT l) % 2 = 0) :
    ∃ lat, doTimeMessageReceive l time arrival s =
      ((s.rset R.TIME_LINK_LAT lat).loadTime (time + BitVec.ofNat 64 (s.fget (R.LINK_RTT_RTT l) / 2)) 0).setFlag R.TIME_CTRL_LINK_ARM false := by
  have hhalf : s.halfRtt l.val = (s.fget (R.LINK_RTT_RTT l) / 2, s) := if_pos heven
  unfold doTimeMessageReceive
  rw [if_neg (by simp [hl])]
  simp only [hsrc, harm, hstep, hhalf]
  exact ⟨_, rfl⟩

/-! ## The statement -/

/-- Settles O30: an edge that does not load is measured; an armed one and a time message end in the same load. -/
theorem timeLoads : Obligations.TimeLoads := by
  unfold Obligations.TimeLoads
  refine ⟨?_, ?_, ?_, ?_, ?_, ?_⟩
  · intro u s harm hbg
    have hexec := execSyncEdge_unarmed (u := u) harm
    rw [s.syncMeasure_eq u hbg] at hexec
    exact ⟨_, hexec, rfl, State.rget_rset_same .., RegsSame.rset s (by decide) _, .of_mem rfl⟩
  · intro u s harm hnone
    have hexec : exec (.syncEdge u) s = .next { s with syncArmed := some u } :=
      congrArg Host.Outcome.next (if_pos (by simp [harm, hnone]))
    exact ⟨_, hexec, rfl, rfl, fun _ _ => rfl, .of_mem rfl⟩
  · intro u s hu harm hstep
    have hexec : exec .syncArmedLoad s = .next _ := congrArg Host.Outcome.next (doSyncArmedLoad_loads hu harm hstep)
    obtain ⟨htime, hvalid, hdis, hnone, hmem⟩ := ({ s with syncArmed := none } : State).loadTime_disarmed
      (BitVec.ofInt 64 ((s.pair R.SYNC_LOAD_LO R.SYNC_LOAD_HI : Int) + signed 16 (s.fget R.SYNC_DESKEW_DESKEW)))
      (signed 16 (s.fget R.SYNC_DESKEW_DESKEW)) (f := R.TIME_CTRL_SYNC_ARM) (by decide) (by decide) (by decide)
    exact ⟨_, hexec, htime, hvalid, hdis, hnone, hmem⟩
  · intro u s hu harm hstep hbg
    have hbg' : (({ s with syncArmed := none } : State).setFlag R.TIME_STATUS_SYNC_REJ true).calBackground 5 = false :=
      (State.calBackground_congr (State.rget_fset_other _ _ (by decide)) (State.rget_fset_other _ _ (by decide))).trans hbg
    have hexec : exec .syncArmedLoad s = .next _ :=
      congrArg Host.Outcome.next ((doSyncArmedLoad_refused hu harm hstep).trans (State.syncMeasure_eq u hbg'))
    have harmed : s.flag R.TIME_CTRL_SYNC_ARM = true := (Bool.and_eq_true_iff.1 harm).2
    refine ⟨_, hexec, rfl, ?_, ?_, .of_mem rfl⟩
    · exact (State.flag_congr (State.rget_rset_other _ _ (by decide))).trans (State.flag_setFlag_same _ _ (by decide) (by decide))
    · exact (State.flag_congr (State.rget_rset_other _ _ (by decide))).trans ((State.flag_setFlag_addr _ _ (by decide)).trans harmed)
  · intro l time arrival s hl hsrc harm hstep heven
    obtain ⟨lat, hdo⟩ := doTimeMessageReceive_loads (arrival := arrival) (time := time) hl hsrc harm hstep heven
    have hexec : exec (.timeMessageReceive l time arrival) s = .next _ := congrArg Host.Outcome.next hdo
    obtain ⟨htime, hvalid, hdis, -, hmem⟩ := (s.rset R.TIME_LINK_LAT lat).loadTime_disarmed
      (time + BitVec.ofNat 64 (s.fget (R.LINK_RTT_RTT l) / 2)) 0 (f := R.TIME_CTRL_LINK_ARM) (by decide) (by decide) (by decide)
    exact ⟨_, hexec, htime, hvalid, hdis, hmem⟩
  · intro l time arrival s hl
    exact congrArg Host.Outcome.next (if_pos (by simpa using hl))

end Sys2Proof.Machine
end

section
/-! SUPPORT. The wrap of the count, the checks of REFCLK and its oven, and what reads and messages take of the count (02_epoch_grid.md R38, R43,
R46, R47, R57). -/

namespace Sys2Proof.Machine

/-! ## Suspect flags -/

/-- Nothing changes but contexts of tiles. -/
structure TilesOnly (s t : State) : Prop where
  same : { t with tiles := s.tiles } = s

theorem TilesOnly.regs {s t : State} (h : TilesOnly s t) : t.regs = s.regs := (congrArg State.regs h.same :)
theorem TilesOnly.mem {s t : State} (h : TilesOnly s t) : t.mem = s.mem := (congrArg State.mem h.same :)
theorem TilesOnly.sysTime {s t : State} (h : TilesOnly s t) : t.sysTime = s.sysTime := (congrArg State.sysTime h.same :)
theorem TilesOnly.warmSecs {s t : State} (h : TilesOnly s t) : t.warmSecs = s.warmSecs := (congrArg State.warmSecs h.same :)
theorem TilesOnly.refFreqs {s t : State} (h : TilesOnly s t) : t.refFreqs = s.refFreqs := (congrArg State.refFreqs h.same :)
theorem TilesOnly.ocxo {s t : State} (h : TilesOnly s t) : t.ocxo = s.ocxo := (congrArg State.ocxo h.same :)

/-- A suspect flag for each of a list of tiles. -/
theorem foldl_suspectFlag (l : List Nat) (s : State) (n : Nat) : TilesOnly s (l.foldl (fun s t => s.suspectFlag t n) s) :=
  ⟨List.foldlRecOn (motive := fun t : State => { t with tiles := s.tiles } = s) _ _ rfl fun _ h _ _ => h⟩

/-! ## The wrap (R38) -/

theorem State.wrapTo_wraps (s : State) (v : BitVec 64) :
    (s.wrapTo v).sysTime = v ∧ (s.wrapTo v).flag R.TIME_STATUS_WRAP = true ∧ (s.wrapTo v).mem = s.mem := by
  unfold State.wrapTo
  extract_lets s₁ s₂ moved
  have only : TilesOnly s₁ s₂ := foldl_suspectFlag ..
  have hwrap : s₂.flag R.TIME_STATUS_WRAP = true :=
    (State.flag_congr (State.rget_congr only.regs _)).trans (State.flag_setFlag_same _ _ (by decide) (by decide))
  exact ⟨only.sysTime, hwrap, only.mem⟩

/-! ## REFCLK (R46) -/

/-- Where no tile holds a step or has just ended one, a step-ending fault ends none. -/
theorem State.endSteps_eq_self {s : State} {st : BitVec 8} {cause : Nat} (hstep : s.holdsStep = false)
    (hend : ∀ u, u < 64 → s.ending u = false) : s.endSteps (List.range 64) st cause = s := by
  have hlate : (List.range 64).foldl (fun s t => s.endLate t st cause) s = s :=
    List.foldlRecOn (motive := (· = s)) _ _ rfl fun _ e u hu => by
      rw [e]
      exact if_neg (by simp [hend u (List.mem_range.1 hu)])
  have hnone : (List.range 64).filter (fun t => inStep (s.stepState t)) = [] := by simpa [State.holdsStep, State.tilesIn] using hstep
  simp only [State.endSteps, hlate, hnone, List.foldl_nil]

theorem State.holdsStep_congr {s t : State} (h : ∀ u, t.stepState u = s.stepState u) : t.holdsStep = s.holdsStep := by
  simp only [State.holdsStep, State.tilesIn, h]

theorem State.stepState_setFlag_addr (s : State) {f : Fld} (b : Bool) (h : f.addr < 0x100000) (u : Nat) :
    (s.setFlag f b).stepState u = s.stepState u :=
  s.fget_fset_addr (g := R.SEQ_STATUS_STATE u) _ (chipReg_ne_status h).symm

/-- A step's state and end are read in SEQ_STATUS, the tile's context and the count. -/
theorem State.ending_congr {s t : State} {u : Nat} (hs : t.stepState u = s.stepState u) (ht : t.tiles = s.tiles) (hn : t.sysTime = s.sysTime) :
    t.ending u = s.ending u := by
  rw [Bool.eq_iff_iff]
  simp only [State.ending, Bool.and_eq_true, decide_eq_true_eq]
  simp only [State.tileTime, State.now, State.tile_congr ht, hs, hn]

/-- A deviation found again while its condition stands, with no step to end, sets two flags. -/
theorem doRefCheck_lost {ppm : Int} {s : State} (hppm : 100 < ppm.natAbs) (hstep : s.holdsStep = false)
    (hend : ∀ u, u < 64 → s.ending u = false) (hheld : (0x60000, 10, 0) ∈ s.held) :
    doRefCheck ppm s = (s.setFlag R.TIME_STATUS_REF_LOST true).setFlag R.TIME_STATUS_VALID false := by
  have hstate (u : Nat) : ((s.setFlag R.TIME_STATUS_REF_LOST true).setFlag R.TIME_STATUS_VALID false).stepState u = s.stepState u :=
    (State.stepState_setFlag_addr _ _ (by decide) u).trans (State.stepState_setFlag_addr _ _ (by decide) u)
  have hsteps := State.endSteps_eq_self (st := St.hwFault) (cause := 9) ((State.holdsStep_congr hstate).trans hstep)
    fun u hu => (State.ending_congr (hstate u) rfl rfl).trans (hend u hu)
  unfold doRefCheck
  extract_lets k s₁ s₂
  rw [if_neg (by omega), if_pos (List.contains_iff_mem.2 ?_)]
  · exact hsteps
  · rw [show s₂ = s₁ from hsteps]
    exact hheld

/-! ## The oven (R47) -/

/-- An update of REF_WARM and what follows it: of the registers TIME_STATUS, and neither memory nor the measurements of the drift. -/
structure WarmOnly (s t : State) : Prop where
  regs : RegsSame (fun a => a == R.TIME_STATUS) s t
  mem : t.mem = s.mem
  ocxo : t.ocxo = s.ocxo
  refFreqs : t.refFreqs = s.refFreqs

theorem WarmOnly.trans {a b c : State} (h : WarmOnly a b) (k : WarmOnly b c) : WarmOnly a c :=
  ⟨fun x hx => (k.regs x hx).trans (h.regs x hx), k.mem.trans h.mem, k.ocxo.trans h.ocxo, k.refFreqs.trans h.refFreqs⟩

/-- The seconds since both conditions hold are counted in no register. -/
theorem WarmOnly.secs (s : State) (n : Nat) : WarmOnly s { s with warmSecs := n } := ⟨fun _ _ => rfl, rfl, rfl, rfl⟩

theorem TilesOnly.warmOnly {s t : State} (h : TilesOnly s t) : WarmOnly s t :=
  ⟨fun a _ => State.rget_congr h.regs a, h.mem, h.ocxo, h.refFreqs⟩

theorem State.warmTo_warm (s : State) (b : Bool) : (s.warmTo b).flag R.TIME_STATUS_REF_WARM = b := by
  unfold State.warmTo
  split
  · assumption
  · exact State.flag_setFlag_same _ _ (by decide) (by decide)

theorem State.warmTo_only (s : State) (b : Bool) : WarmOnly s (s.warmTo b) ∧ (s.warmTo b).warmSecs = s.warmSecs := by
  unfold State.warmTo
  split
  · exact ⟨.secs s s.warmSecs, rfl⟩
  · exact ⟨⟨RegsSame.rset _ (by decide) _, rfl, rfl, rfl⟩, rfl⟩

/-- REF_WARM sets and the 60 s begin again. -/
theorem State.setWarm_warm (s : State) :
    s.setWarm.flag R.TIME_STATUS_REF_WARM = true ∧ s.setWarm.warmSecs = 0 ∧ WarmOnly s s.setWarm := by
  unfold State.setWarm
  extract_lets s₁
  obtain ⟨only₁, hsecs⟩ : WarmOnly _ s₁ ∧ s₁.warmSecs = 0 := ({ s with warmSecs := 0 } : State).warmTo_only true
  have only : TilesOnly s₁ _ := foldl_suspectFlag (s₁.tilesIn (· == stRunning)) s₁ Sf.warmup
  exact ⟨(State.flag_congr (State.rget_congr only.regs _)).trans (State.warmTo_warm _ _), only.warmSecs.trans hsecs,
    ((WarmOnly.secs s 0).trans only₁).trans only.warmOnly⟩

/-- A measurement of REFCLK is recorded, before its drift is judged. -/
def State.driftRecorded (s : State) (freq : Int) : State :=
  { s with refFreqs := (freq :: s.refFreqs).take 60 }.rset R.REF_DRIFT (BitVec.ofInt 32 (s.driftOf freq))

theorem doRefDriftCheck_eq (freq : Int) (s : State) :
    doRefDriftCheck freq s =
      if 50 ≤ (s.driftOf freq).natAbs then (s.driftRecorded freq).setWarm
      else if !s.ocxo then { s.driftRecorded freq with warmSecs := 0 }
      else if min 61 (s.warmSecs + 1) = 61 then ({ s.driftRecorded freq with warmSecs := min 61 (s.warmSecs + 1) } : State).warmTo false
      else { s.driftRecorded freq with warmSecs := min 61 (s.warmSecs + 1) } := by
  simp only [State.driftRecorded, ← ofNat_unsigned]
  rfl

theorem doRefDriftCheck_warmOnly (freq : Int) (s : State) : WarmOnly (s.driftRecorded freq) (doRefDriftCheck freq s) := by
  rw [doRefDriftCheck_eq]
  split
  · exact (State.setWarm_warm _).2.2
  split
  · exact .secs ..
  split
  · exact (WarmOnly.secs ..).trans (State.warmTo_only ..).1
  · exact .secs ..

/-- An evaluation of the drift changes REF_DRIFT and TIME_STATUS, and REF_DRIFT holds the drift. -/
theorem doRefDriftCheck_drift (freq : Int) (s : State) :
    (doRefDriftCheck freq s).rget R.REF_DRIFT = BitVec.ofInt 32 (s.driftOf freq) ∧
      RegsSame (fun a => a == R.REF_DRIFT || a == R.TIME_STATUS) s (doRefDriftCheck freq s) := by
  have only := doRefDriftCheck_warmOnly freq s
  refine ⟨(only.regs _ (by decide)).trans (State.rget_rset_same ..), fun a ha => ?_⟩
  obtain ⟨hdrift, hstatus⟩ := Bool.or_eq_false_iff.1 ha
  exact (only.regs a hstatus).trans (State.rget_rset_other _ _ (by simpa using hdrift))

theorem doRefDriftCheck_warms {freq : Int} {s : State} (h : 50 ≤ (s.driftOf freq).natAbs) :
    (doRefDriftCheck freq s).flag R.TIME_STATUS_REF_WARM = true ∧ (doRefDriftCheck freq s).warmSecs = 0 := by
  rw [doRefDriftCheck_eq, if_pos h]
  obtain ⟨hflag, hsecs, -⟩ := (s.driftRecorded freq).setWarm_warm
  exact ⟨hflag, hsecs⟩

theorem doRefDriftCheck_cools {freq : Int} {s : State} (h : (s.driftOf freq).natAbs < 50) (ho : s.ocxo = true) (hw : s.warmSecs = 60) :
    (doRefDriftCheck freq s).flag R.TIME_STATUS_REF_WARM = false := by
  rw [doRefDriftCheck_eq, if_neg (by omega), if_neg (by simp [ho]), if_pos (by omega)]
  exact State.warmTo_warm ..

/-! ## The time message (R43) -/

theorem State.link_modLink_same (s : State) (l : Nat) (f : LinkCtx → LinkCtx) : (s.modLink l f).link l = f (s.link l) :=
  (Store.get_put ..).trans (if_pos rfl)

/-- What a link sends follows what it has sent. -/
theorem State.wire_sendWire (s : State) (l : Nat) (w : Wire) : ((s.sendWire l w).link l).wire = (s.link l).wire ++ [w] :=
  congrArg LinkCtx.wire (s.link_modLink_same l _)

theorem doTimeMessageSend_wire {l : Fin 12} {s : State}
    (h : s.flag (R.LINK_CTRL_ROLE l) = true ∧ s.flag (R.LINK_CTRL_TMSG l) = true ∧ s.linkState l = lkActive ∧
      s.flag R.TIME_STATUS_VALID = true ∧ s.timeDue l = true) :
    ((doTimeMessageSend l s).link l).wire = (s.link l).wire ++ [.time s.sysTime (s.fget R.CHIP_ID_ID)] ∧
      (doTimeMessageSend l s).regs = s.regs ∧ (doTimeMessageSend l s).mem = s.mem := by
  obtain ⟨hrole, htmsg, hactive, hvalid, hdue⟩ := h
  unfold doTimeMessageSend
  rw [if_pos (by simp [hrole, htmsg, hactive, hvalid, hdue])]
  exact ⟨(State.wire_sendWire ..).trans (by rw [State.link_modLink_same]), rfl, rfl⟩

/-! ## The statement -/

/-- Settles O31: each check is what it leaves of its own registers, and an evaluation of the drift is taken apart by its branches. -/
theorem timeChecks : Obligations.TimeChecks := by
  unfold Obligations.TimeChecks
  refine ⟨?_, ?_, ?_, ?_, ?_, ?_, ?_, ?_⟩
  · intro s hwraps
    have hexec : exec .systimeWrap s = .next (s.wrapTo (s.sysTime + 2560)) :=
      congrArg (fun v => Host.Outcome.next (s.wrapTo v)) (if_neg (by omega))
    obtain ⟨htime, hflag, hmem⟩ := s.wrapTo_wraps (s.sysTime + 2560)
    exact ⟨_, hexec, htime, hflag, .of_mem hmem⟩
  · intro ppm s hppm
    have hexec : exec (.refCheck ppm) s = .next { s with held := s.held.filter (· != (0x60000, 10, 0)) } :=
      congrArg Host.Outcome.next (if_pos hppm)
    exact ⟨_, hexec, by simp, fun _ _ => rfl, .of_mem rfl⟩
  · intro ppm s hppm hstep hend hheld
    have hexec : exec (.refCheck ppm) s = .next _ := congrArg Host.Outcome.next (doRefCheck_lost hppm hstep hend hheld)
    refine ⟨_, hexec, ?_, State.flag_setFlag_same _ _ (by decide) (by decide), fun a ha => ?_, .of_mem rfl⟩
    · exact (State.flag_setFlag_disjoint _ _ (.inr (by decide)) (by decide) (by decide)).trans
        (State.flag_setFlag_same _ _ (by decide) (by decide))
    · have ha : a ≠ R.TIME_STATUS := by simpa using ha
      exact (State.rget_fset_other _ _ ha).trans (State.rget_fset_other _ _ ha)
  · intro freq s d
    have only := doRefDriftCheck_warmOnly freq s
    obtain ⟨hdrift, hregs⟩ := doRefDriftCheck_drift freq s
    refine ⟨_, rfl, hdrift, only.refFreqs, fun hlen => ?_, doRefDriftCheck_warms, doRefDriftCheck_cools, hregs, .of_mem only.mem⟩
    simp only [d, State.driftOf, ← hlen, List.take_length]
  · intro s
    obtain ⟨hflag, -, only⟩ := ({ s with ocxo := false } : State).setWarm_warm
    exact ⟨_, rfl, hflag, only.ocxo, .of_mem only.mem⟩
  · intro s
    refine ⟨doOcxoReadyChange true s, rfl, ?_⟩
    unfold doOcxoReadyChange
    rw [if_pos rfl]
    split
    · next ho => exact ⟨ho, fun _ _ => rfl, .of_mem rfl⟩
    · exact ⟨rfl, fun _ _ => rfl, .of_mem rfl⟩
  · intro c s
    exact ⟨_, rfl, by simp [doSystimeLoRead], fun k hk => by simp [doSystimeLoRead, hk], fun _ _ => rfl, .of_mem rfl⟩
  · intro l s sends
    refine ⟨fun h => ?_, fun h => congrArg Host.Outcome.next (if_neg ?_)⟩
    · obtain ⟨hwire, hregs, hmem⟩ := doTimeMessageSend_wire h
      exact ⟨_, rfl, hwire, fun a _ => State.rget_congr hregs a, .of_mem hmem⟩
    · simpa [sends, and_assoc] using h

end Sys2Proof.Machine
end

section
/-! SUPPORT. CYCLE_BEGIN where a queued run names a segment that the device does not have: the model reads the state of that segment in
STRM_STATUS, and a branch taken right behind the last cycle brings AHEAD up to date before the cycle begins (04_pattern_store.md R109, R115). -/

namespace Sys2Proof.Machine

/-- A run of one cycle in segment 26; a tile has the segments 0 to 15 (04_pattern_store.md R92). -/
def strayRun : Run := { kind := .vec, tset := 0, entry := true, seg := 26, left := 1 }

/-- Tile 0 is RUNNING without a stream ring, with the stray run queued behind a branch taken. AHEAD, where a segment 26 has its state, reads 2, the
code of VALID, until the tile's segments are looked at again. -/
def strayTile : State :=
  { regs := [(R.SEQ_STATUS 0, 3), (R.STRM_STATUS 0, 0x200)]
    tiles := [(0, { queue := [strayRun], turn := true, endE := readyDelay })] }

/-- The segment counts as ready until the branch has been taken; then AHEAD is 0, the code of EMPTY. -/
theorem strayTile_ready :
    strayTile.segReady 0 26 readyDelay = true ∧ (strayTile.takeTurn 0).segReady 0 26 readyDelay = false := by
  decide +kernel

theorem strayTile_stalls :
    ((doCycleBegin 0 strayTile).tile 0).stall = some (readyDelay, 26) ∧ (doCycleBegin 0 strayTile).cycles 0 = 0 := by
  decide +kernel

/-- Refutes O39: the statement ranges over runs in segments that no tile has. The state of segment 26 is read in AHEAD, which changes as a branch is
taken, so the tile stalls at a segment that was ready before the command. -/
theorem not_cyclesBegin : ¬ Obligations.CyclesBegin := by
  unfold Obligations.CyclesBegin
  rintro ⟨hissues, -⟩
  obtain ⟨hready, -⟩ := strayTile_ready
  obtain ⟨-, hcycles⟩ := strayTile_stalls
  obtain ⟨t, hexec, hrises, -⟩ := hissues 0 strayTile strayRun [] (by decide) rfl rfl rfl (.inr (.inr hready)) rfl (by decide)
  obtain rfl : doCycleBegin 0 strayTile = t := Host.Outcome.next.inj hexec
  exact absurd (hcycles.symm.trans hrises) (by decide)

end Sys2Proof.Machine
end

section
/-! SUPPORT. What the instructions of the sequencer share: the registers and the context of a tile that they write, the events and the segment
queue behind them, and an instruction that a tile takes in time (03_sequencer.md R60, R63, R66). -/

namespace Sys2Proof.Machine

/-! ## Events of sessions -/

theorem sessReg_stat {n : Nat} (h : n < 32) : sessReg (R.SESS_STAT n) = true :=
  List.any_eq_true.2 ⟨n, List.mem_range.2 h, by simp⟩

theorem sessReg_load {n : Nat} (h : n < 32) : sessReg (R.SESS_LOAD n) = true :=
  List.any_eq_true.2 ⟨n, List.mem_range.2 h, by simp⟩

theorem sessReg_of_ge {a : Nat} (h : 0x100000 ≤ a) : sessReg a = false := by
  refine List.any_eq_false.2 fun n hn => ?_
  have := List.mem_range.1 hn
  simp [R.SESS_STAT, R.SESS_LOAD]
  omega

/-- What raising events for sessions does: of the registers only those that `p` names, the sessions' and the event counters change, and beside
them operations that wait for the event, packets and credits, and what counting an event changes. -/
structure Reports (p : Nat → Bool) (s t : State) : Prop where
  same : { t with regs := s.regs, splits := s.splits, ctxs := s.ctxs, txq := s.txq, evc := s.evc, items := s.items, freeCtr := s.freeCtr,
                  maxLen := s.maxLen, maxClk := s.maxClk, micro := s.micro } = s
  regs : RegsSame (fun a => p a || counting a || sessReg a) s t

namespace Reports

variable {p : Nat → Bool} {s₀ s t : State}

theorem refl (s : State) : Reports p s s := ⟨rfl, fun _ _ => rfl⟩

theorem trans (h : Reports p s₀ s) (k : Reports p s t) : Reports p s₀ t := by
  refine ⟨?_, fun a ha => (k.regs a ha).trans (h.regs a ha)⟩
  exact (congrArg (fun x : State =>
    ({ x with regs := s₀.regs, splits := s₀.splits, ctxs := s₀.ctxs, txq := s₀.txq, evc := s₀.evc, items := s₀.items,
              freeCtr := s₀.freeCtr, maxLen := s₀.maxLen, maxClk := s₀.maxClk, micro := s₀.micro } : State)) k.same).trans h.same

theorem tiles (h : Reports p s t) : t.tiles = s.tiles := (congrArg State.tiles h.same :)
theorem chans (h : Reports p s t) : t.chans = s.chans := (congrArg State.chans h.same :)
theorem mem (h : Reports p s t) : t.mem = s.mem := (congrArg State.mem h.same :)
theorem sysTime (h : Reports p s t) : t.sysTime = s.sysTime := (congrArg State.sysTime h.same :)

/-- A register of a tile that `p` does not name is unchanged. -/
theorem rget (h : Reports p s t) {a : Nat} (ha : 0x100000 ≤ a) (hp : p a = false) : t.rget a = s.rget a :=
  h.regs a (by simp [hp, counting_of_ge ha, sessReg_of_ge ha])

theorem of_counts (h : Counts s t) : Reports p s t := by
  refine ⟨?_, fun a ha => h.regs a (by simp at ha; exact ha.1.2)⟩
  have e := h.splits
  have f := h.ctxs
  have g := h.txq
  obtain ⟨hs, -, -⟩ := h
  rw [← e, ← f, ← g]
  exact hs

theorem of_sends (h : Sends s t) : Reports p s t := by
  refine ⟨?_, fun a _ => State.rget_congr h.regs a⟩
  rw [← h.regs, ← h.splits, ← h.evc, ← h.items, ← h.freeCtr, ← h.maxLen, ← h.maxClk, ← h.micro]
  exact h.same

theorem of_regsOnly (h : RegsOnly p s t) : Reports p s t := by
  refine ⟨?_, fun a ha => h.regs a (by simp at ha; exact ha.1.1)⟩
  have e := h.same
  cases t
  cases s
  simp_all

/-- A register of a session that the hardware sets. -/
theorem fset_sess (h : Reports p s₀ s) {f : Fld} (hf : sessReg f.addr = true) (v : Nat) : Reports p s₀ (s.fset f v) :=
  h.trans ⟨rfl, fun a ha => State.rget_fset_other _ _ (by rintro rfl; simp [hf] at ha)⟩

end Reports

theorem State.eventTo_reports (p : Nat → Bool) (s : State) {n : Nat} (hn : n < 32) (code : Nat) (ps : List Word) :
    Reports p s (s.eventTo n code ps) := by
  unfold State.eventTo
  extract_lets s₁
  have h₁ : Reports p s s₁ := ⟨rfl, fun _ _ => rfl⟩
  split
  · exact (h₁.fset_sess (f := R.SESS_LOAD_EVQ n) (sessReg_load hn) _).trans (.of_sends (State.send_sends ..))
  · have h₂ : Reports p s (s₁.modCtx n fun c => { c with evLost := c.evLost + 1 }) := h₁.trans ⟨rfl, fun _ _ => rfl⟩
    exact (h₂.fset_sess (f := R.SESS_STAT_EVLOST n) (sessReg_stat hn) _).trans (.of_counts (State.evCount_counts ..))

theorem State.chipEvent_reports (p : Nat → Bool) (s : State) (code : Nat) (ps : List Word) : Reports p s (s.chipEvent code ps) := by
  unfold State.chipEvent
  split
  · exact .of_counts (State.evCount_counts ..)
  · refine List.foldlRecOn (motive := Reports p s) _ _ (.refl s) fun r hr n hn => hr.trans (r.eventTo_reports p ?_ code ps)
    exact List.mem_range.1 (List.mem_filter.1 hn).1

theorem State.eventFor_reports (p : Nat → Bool) (s : State) (who : Option (BitVec 5)) (code : Nat) (ps : List Word) :
    Reports p s (s.eventFor who code ps) := by
  unfold State.eventFor
  split
  · split
    · exact s.eventTo_reports p (BitVec.isLt _) code ps
    · exact s.chipEvent_reports p code ps
  · exact s.chipEvent_reports p code ps

/-- What the segment queue of a tile does: SEG_STATE and STRM_STATUS follow, and the low-water event may be raised. -/
theorem State.segSync_reports (s : State) (t : Nat) : Reports (segReg t) s (s.segSync t) := by
  obtain ⟨s₁, h₁, e | ⟨-, who, ps, e⟩⟩ := s.segSync_cases t
  · exact e ▸ .of_regsOnly h₁
  · exact e ▸ (Reports.of_regsOnly h₁).trans (s₁.eventFor_reports _ who 0x10 ps)

theorem State.tile_segSync (s : State) (t u : Nat) : (s.segSync t).tile u = s.tile u := State.tile_congr (s.segSync_reports t).tiles u

theorem State.status_segSync (s : State) (t u : Nat) : (s.segSync t).rget (R.SEQ_STATUS u) = s.rget (R.SEQ_STATUS u) :=
  (s.segSync_stepSame t u).status

/-! ## The frame of an instruction -/

/-- The registers of a tile that its sequencer's instructions write: SEQ_STATUS, COND_FLAGS, the loop counters, the stack and LINKEV_FLAG, the
generator's state, SEG_STATE and STRM_STATUS (03_sequencer.md Tables 3.10, 3.11, 3.13). -/
def seqReg (u a : Nat) : Bool :=
  let b := 0x100000 + u * 0x10000
  decide (a = b + 4 ∨ a = b + 0xC ∨ (b + 0x40 ≤ a ∧ a < b + 0xA0) ∨ a = b + 0x104 ∨ a = b + 0x108 ∨ a = b + 0x124 ∨ a = b + 0x128 ∨
    a = b + 0x300 ∨ a = b + 0x304 ∨ a = b + 0x30C)

theorem inTile_of_seqReg {u a : Nat} (h : seqReg u a = true) : inTile u a = true := by
  have := of_decide_eq_true h
  exact decide_eq_true (by omega)

theorem seqReg_status (u : Nat) : seqReg u (R.SEQ_STATUS u) = true := decide_eq_true (by unfold R.SEQ_STATUS; omega)

theorem seqReg_of_segReg {u a : Nat} (h : segReg u a = true) : seqReg u a = true := by
  simp only [segReg, R.SEG_STATE, R.STRM_STATUS, Bool.or_eq_true, beq_iff_eq] at h
  exact decide_eq_true (by omega)

/-- The frame of the sequencer's instructions: no byte of memory, no channel, not the time, and of the registers only those that they write, the
sessions' and the event counters change. -/
structure SeqFrame (u : Nat) (s t : State) : Prop where
  mem : t.mem = s.mem
  chans : t.chans = s.chans
  sysTime : t.sysTime = s.sysTime
  regs : RegsSame (fun a => seqReg u a || counting a || sessReg a) s t

namespace SeqFrame

variable {u : Nat} {s₀ s t : State}

theorem refl (s : State) : SeqFrame u s s := ⟨rfl, rfl, rfl, fun _ _ => rfl⟩

theorem trans (h : SeqFrame u s₀ s) (k : SeqFrame u s t) : SeqFrame u s₀ t :=
  ⟨k.mem.trans h.mem, k.chans.trans h.chans, k.sysTime.trans h.sysTime, fun a ha => (k.regs a ha).trans (h.regs a ha)⟩

theorem modTile (h : SeqFrame u s₀ s) (n : Nat) (f : TileCtx → TileCtx) : SeqFrame u s₀ (s.modTile n f) :=
  h.trans ⟨rfl, rfl, rfl, fun _ _ => rfl⟩

theorem rset (h : SeqFrame u s₀ s) {a : Nat} (ha : seqReg u a = true) (v : Word) : SeqFrame u s₀ (s.rset a v) :=
  h.trans ⟨rfl, rfl, rfl, RegsSame.rset s (by simp [ha]) v⟩

theorem fset (h : SeqFrame u s₀ s) {f : Fld} (hf : seqReg u f.addr = true) (v : Nat) : SeqFrame u s₀ (s.fset f v) := h.rset hf _

theorem of_reports {p : Nat → Bool} (h : Reports p s t) (hp : ∀ a, p a = true → seqReg u a = true) : SeqFrame u s t := by
  refine ⟨h.mem, h.chans, h.sysTime, fun a ha => h.regs a ?_⟩
  obtain ⟨⟨hseq, hcnt⟩, hsess⟩ : (seqReg u a = false ∧ counting a = false) ∧ sessReg a = false := by simpa using ha
  have hpa : p a = false := Bool.eq_false_iff.2 fun e => by simp [hp a e] at hseq
  simp [hpa, hcnt, hsess]

theorem segSync (h : SeqFrame u s₀ s) : SeqFrame u s₀ (s.segSync u) :=
  h.trans (.of_reports (s.segSync_reports u) fun _ => seqReg_of_segReg)

theorem memSame (h : SeqFrame u s t) : MemSame s t := .of_mem h.mem

theorem chan (h : SeqFrame u s t) (ch : Nat) : t.chan ch = s.chan ch := by rw [State.chan, h.chans]; rfl

theorem regsSame (h : SeqFrame u s t) : RegsSame (fun a => inTile u a || counting a || sessReg a) s t := by
  intro a ha
  obtain ⟨⟨htile, hcnt⟩, hsess⟩ : (inTile u a = false ∧ counting a = false) ∧ sessReg a = false := by simpa using ha
  have hseq : seqReg u a = false := Bool.eq_false_iff.2 fun e => by simp [inTile_of_seqReg e] at htile
  exact h.regs a (by simp [hseq, hcnt, hsess])

/-- A register of a tile that the sequencer's instructions do not write is unchanged. -/
theorem rget (h : SeqFrame u s t) {a : Nat} (ha : 0x100000 ≤ a) (hp : seqReg u a = false) : t.rget a = s.rget a :=
  h.regs a (by simp [hp, counting_of_ge ha, sessReg_of_ge ha])

theorem now (h : SeqFrame u s t) : t.now = s.now := by rw [State.now, h.sysTime]; rfl

end SeqFrame

/-! ## Taking an instruction in time (R60) -/

/-- The instruction executes at its tile clock. -/
def State.executing (s : State) (u : Nat) : State := s.modTile u fun c => { c with execAt := s.execClock u }

theorem State.tile_executing (s : State) (u : Nat) : (s.executing u).tile u = { s.tile u with execAt := s.execClock u } := by
  simp [State.executing]

theorem State.executing_frame (s : State) (u : Nat) : SeqFrame u s (s.executing u) := (SeqFrame.refl s).modTile ..

theorem State.seq_onTime {s : State} {u : Nat} (hf : s.fetching u = true) (ht : OnTime s u) (act : State → State) :
    s.seq u act = act (s.executing u) := by
  have late : (s.stepState u == stRunning && (s.execClock u).any fun x => decide (s.nextDue u < x)) = false := by
    refine Bool.eq_false_iff.2 fun e => ?_
    obtain ⟨hrun, x, hx, hlt⟩ : s.stepState u = stRunning ∧ ∃ x, s.execClock u = some x ∧ s.nextDue u < x := by
      simpa [Option.any_eq_true] using e
    exact absurd (ht hrun x hx) (Int.not_le.2 hlt)
  unfold State.seq
  rw [if_neg (by simp [hf])]
  exact if_neg (by simp [late])

theorem State.seq_not_fetching {s : State} {u : Nat} (hf : s.fetching u = false) (act : State → State) : s.seq u act = s :=
  if_pos (by simp [hf])

theorem State.seqLast_not_fetching {s : State} {u : Nat} (hf : s.fetching u = false) (act : State → State) : s.seqLast u act = s :=
  if_neg (by simp [hf])

/-- What executes instructions is PENDING or RUNNING, with nothing behind its queued cycles, which the issue queue holds. -/
theorem State.fetching_iff {s : State} {u : Nat} : s.fetching u = true ↔
    (s.stepState u = stPending ∨ s.stepState u = stRunning) ∧ (s.tile u).tail = .none ∧ (s.tile u).queued ≤ 32 := by
  simp [State.fetching, and_assoc]

/-! ## Where execution continues -/

theorem State.pc_goto (s : State) (u a : Nat) : (s.goto u a).pc u = a % 16384 :=
  s.fget_fset_same a (show 16 ≤ 29 by decide) (show 29 < 32 by decide)

theorem State.pc_congr {s t : State} {u : Nat} (h : t.rget (R.SEQ_STATUS u) = s.rget (R.SEQ_STATUS u)) : t.pc u = s.pc u :=
  State.fget_congr (f := R.SEQ_STATUS_PC u) h

theorem State.pc_seqNext (s : State) (u : Nat) : (s.seqNext u).pc u = (s.pc u + 1) % 16384 :=
  (s.pc_goto u _).trans (Nat.mod_mod _ _)

/-- The other fields of SEQ_STATUS stand where execution continues elsewhere. -/
theorem State.fget_goto (s : State) (u a : Nat) {f : Fld} (hf : f.hi < 16 ∨ 29 < f.lo) (hle : f.lo ≤ f.hi) : (s.goto u a).fget f = s.fget f :=
  s.fget_fset_disjoint a hf (show 16 ≤ 29 by decide) hle

theorem State.rget_goto (s : State) (u a : Nat) {b : Nat} (hb : b ≠ R.SEQ_STATUS u) : (s.goto u a).rget b = s.rget b :=
  s.rget_fset_other _ hb

theorem State.stepState_goto (s : State) (u v a : Nat) : (s.goto u a).stepState v = s.stepState v :=
  s.fget_goto u a (.inl (show 2 < 16 by decide)) (show 0 ≤ 2 by decide)

theorem State.goto_frame (s : State) (u a : Nat) : SeqFrame u s (s.goto u a) := (SeqFrame.refl s).fset (seqReg_status u) _

/-! ## The generator (R66, R80) -/

/-- The registers that show the generator's state (03_sequencer.md Table 3.13). -/
def apgReg (u a : Nat) : Bool := a == R.APG_X u || a == R.APG_Y u || a == R.LFSR u || a == R.DCTL u

theorem seqReg_of_apgReg {u a : Nat} (h : apgReg u a = true) : seqReg u a = true := by
  simp only [apgReg, R.APG_X, R.APG_Y, R.LFSR, R.DCTL, Bool.or_eq_true, beq_iff_eq] at h
  exact decide_eq_true (by omega)

theorem RegsOnly.rset {p : Nat → Bool} {s₀ s : State} (h : RegsOnly p s₀ s) {a : Nat} (ha : p a = true) (v : Word) :
    RegsOnly p s₀ (s.rset a v) :=
  ⟨h.same, fun b hb => (State.rget_rset_other _ _ (by rintro rfl; simp [ha] at hb)).trans (h.regs b hb)⟩

theorem State.showApg_regsOnly (s : State) (u : Nat) (x : Apg) : RegsOnly (apgReg u) s (s.showApg u x) := by
  have hx : apgReg u (R.APG_X_VALUE u).addr = true := by simp [apgReg, R.APG_X_VALUE]
  have hy : apgReg u (R.APG_Y_VALUE u).addr = true := by simp [apgReg, R.APG_Y_VALUE]
  have hl : apgReg u (R.LFSR u) = true := by simp [apgReg]
  have hd : apgReg u (R.DCTL_DINV u).addr = true := by simp [apgReg, R.DCTL_DINV]
  exact ((((RegsOnly.refl s).fset hx _).fset hy _).rset hl _).fset hd _

/-- The generator's operations read APG_CFG, its bases and DPOLY, which no instruction writes. -/
theorem State.apgOp_congr {s t : State} {u : Nat} (h : SeqFrame u s t) (x : Apg) (op : BitVec 16) : t.apgOp u x op = s.apgOp u x op := by
  have own {o : Nat} (ho : o = 0x100 ∨ (0x10C ≤ o ∧ o ≤ 0x120)) : t.rget (0x100000 + u * 0x10000 + o) = s.rget (0x100000 + u * 0x10000 + o) :=
    h.rget (by omega) (decide_eq_false (by omega))
  have hx0 : t.fget (R.XBASE0_VALUE u) = s.fget (R.XBASE0_VALUE u) := State.fget_congr (own (o := 0x10C) (by omega))
  have hx1 : t.fget (R.XBASE1_VALUE u) = s.fget (R.XBASE1_VALUE u) := State.fget_congr (own (o := 0x110) (by omega))
  have hy0 : t.fget (R.YBASE0_VALUE u) = s.fget (R.YBASE0_VALUE u) := State.fget_congr (own (o := 0x114) (by omega))
  have hy1 : t.fget (R.YBASE1_VALUE u) = s.fget (R.YBASE1_VALUE u) := State.fget_congr (own (o := 0x118) (by omega))
  have hxb : t.xbits u = s.xbits u := State.fget_congr (f := R.APG_CFG_XBITS u) (own (o := 0x100) (by omega))
  have hyb : t.ybits u = s.ybits u := State.fget_congr (f := R.APG_CFG_YBITS u) (own (o := 0x100) (by omega))
  have hpoly : t.rget (R.DPOLY u) = s.rget (R.DPOLY u) := own (o := 0x120) (by omega)
  simp only [State.apgOp, hx0, hx1, hy0, hy1, hxb, hyb, hpoly]

theorem State.tile_showApg (s : State) (u : Nat) (x : Apg) (n : Nat) : (s.showApg u x).tile n = s.tile n :=
  State.tile_congr (s.showApg_regsOnly u x).tiles n

/-- A zero-cycle instruction's APG operation: the context takes the new state, which at most the generator's registers show. -/
theorem State.apgStep_spec (s : State) (u : Nat) (op : BitVec 16) :
    (s.apgStep u op).tile u = { s.tile u with ex := s.apgOp u (s.tile u).ex op } ∧ SeqFrame u s (s.apgStep u op) ∧
      RegsSame (apgReg u) s (s.apgStep u op) := by
  unfold State.apgStep
  extract_lets ex s₁
  have ht : s₁.tile u = { s.tile u with ex := ex } := by simp [s₁]
  have h₁ : SeqFrame u s s₁ := (SeqFrame.refl s).modTile ..
  split
  · have hshow := s₁.showApg_regsOnly u ex
    exact ⟨(s₁.tile_showApg u ex u).trans ht, h₁.trans (.of_reports (.of_regsOnly hshow) fun _ => seqReg_of_apgReg), hshow.regs⟩
  · exact ⟨ht, h₁, fun _ _ => rfl⟩

theorem State.zeroCycle_spec (s : State) (u : Nat) (i : SeqInstr) :
    (s.zeroCycle u i).tile u =
        { s.tile u with ex := s.apgOp u (s.tile u).ex i.apgop, pendMarks := (s.tile u).pendMarks ++ SeqInstrMarks i } ∧
      SeqFrame u s (s.zeroCycle u i) ∧ RegsSame (apgReg u) s (s.zeroCycle u i) := by
  obtain ⟨ht, hframe, hregs⟩ := s.apgStep_spec u i.apgop
  exact ⟨by simp [State.zeroCycle, ht], hframe.modTile .., hregs⟩

end Sys2Proof.Machine
end

section
/-! SUPPORT. Loops, calls, returns, jumps and branches of the sequencer (03_sequencer.md R66, R68, R69, R71). -/

namespace Sys2Proof.Machine

/-! ## Conditions (R70, R71, R73) -/

/-- COND_FLAGS and LINKEV_FLAG of a tile. -/
def condReg (u a : Nat) : Bool :=
  let b := 0x100000 + u * 0x10000
  decide (a = b + 0xC ∨ (b + 0x80 ≤ a ∧ a < b + 0xA0))

theorem seqReg_of_condReg {u a : Nat} (h : condReg u a = true) : seqReg u a = true := by
  have := of_decide_eq_true h
  exact decide_eq_true (by omega)

theorem condReg_status (t u : Nat) : condReg t (R.SEQ_STATUS u) = false :=
  decide_eq_false (by unfold R.SEQ_STATUS; omega)

theorem State.syncConds_regsOnly (s : State) (t : Nat) : RegsOnly (condReg t) s (s.syncConds t) := by
  unfold State.syncConds
  extract_lets now c has evs s₁ s₂
  have flag {f : Fld} (hf : f.addr = R.COND_FLAGS t) : condReg t f.addr = true :=
    hf ▸ decide_eq_true (.inl rfl)
  have h₁ : RegsOnly (condReg t) s s₁ := (((RegsOnly.refl s).fset (f := R.COND_FLAGS_FAIL_ANY t) (flag rfl) _).fset
    (f := R.COND_FLAGS_MASKV t) (flag rfl) _).fset (f := R.COND_FLAGS_LINKEV t) (flag rfl) _
  have h₂ : RegsOnly (condReg t) s s₂ := h₁.fset (f := R.COND_FLAGS_TRIG t) (flag rfl) _
  refine List.foldlRecOn (motive := RegsOnly (condReg t) s) _ _ h₂ fun r hr w hw => hr.rset ?_ _
  have := List.mem_range.1 hw
  exact decide_eq_true (by unfold R.LINKEV_FLAG; omega)

/-- CLRF clears contributions to the flags and nothing else of the tile's context. -/
theorem State.clearCond_spec (s : State) (u : Nat) (k : Cond) (cutoff : Int) :
    (∃ l, (s.clearCond u k cutoff).tile u = { s.tile u with conds := l }) ∧ SeqFrame u s (s.clearCond u k cutoff) ∧
      RegsSame (condReg u) s (s.clearCond u k cutoff) := by
  unfold State.clearCond
  split
  · have hsync := (s.modTile u fun x => { x with conds := x.conds.filter fun e =>
      !(clears k.code k.csite e.1 && decide (e.2 ≤ cutoff)) }).syncConds_regsOnly u
    exact ⟨⟨_, (State.tile_congr hsync.tiles u).trans ((State.tile_modTile ..).trans (if_pos rfl))⟩,
      ((SeqFrame.refl s).modTile ..).trans (.of_reports (.of_regsOnly hsync) fun _ => seqReg_of_condReg), hsync.regs⟩
  · exact ⟨⟨_, rfl⟩, .refl s, fun _ _ => rfl⟩

/-- A condition is seen by the contributions, the values of MATCH and SEQ_TIME. -/
theorem State.condHolds_congr {s t : State} {u : Nat} (hc : (t.tile u).conds = (s.tile u).conds)
    (hm : (t.tile u).matches_ = (s.tile u).matches_) (h : SeqFrame u s t) (k : Cond) (cutoff : Int) :
    t.condHolds u k cutoff = s.condHolds u k cutoff := by
  have hlo : t.rget (R.SEQ_TIME_LO u) = s.rget (R.SEQ_TIME_LO u) :=
    h.rget (by unfold R.SEQ_TIME_LO; omega) (decide_eq_false (by unfold R.SEQ_TIME_LO; omega))
  have hhi : t.rget (R.SEQ_TIME_HI u) = s.rget (R.SEQ_TIME_HI u) :=
    h.rget (by unfold R.SEQ_TIME_HI; omega) (decide_eq_false (by unfold R.SEQ_TIME_HI; omega))
  have hseen (f : CondKey) : (t.tile u).seen f cutoff = (s.tile u).seen f cutoff := by simp only [TileCtx.seen, hc]
  have hmatch : (t.tile u).matchAt cutoff = (s.tile u).matchAt cutoff := by simp only [TileCtx.matchAt, hm]
  have htime : t.pair (R.SEQ_TIME_LO u) (R.SEQ_TIME_HI u) = s.pair (R.SEQ_TIME_LO u) (R.SEQ_TIME_HI u) := by
    simp only [State.pair, hlo, hhi]
  simp only [State.condHolds, State.condRaw, hseen, hmatch, htime]

/-- ALWAYS holds, and with NEG it never does (Table 3.3). -/
theorem State.condHolds_always (s : State) (u : Nat) {i : SeqInstr} (h : i.cond = 0) (cutoff : Int) :
    s.condHolds u (SeqInstrCond i) cutoff = !i.neg := by
  simp [State.condHolds, SeqInstrCond, h, State.condRaw]

theorem State.unseen_congr {s t : State} (h : t.chans = s.chans) (u : Nat) (cutoff : Int) : t.unseen u cutoff = s.unseen u cutoff := by
  simp only [State.unseen, State.chan, h]

/-! ## An instruction on its way -/

/-- An instruction has brought state `s` to `t`: execution stands at `a`, no cycle has been issued, the generator's state is `x`, the markers `m`
wait, and the rest is within the frame. -/
structure Along (u : Nat) (s t : State) (a : Nat) (x : Apg) (m : List (BitVec 8)) : Prop where
  pc : t.pc u = a
  queue : (t.tile u).queue.length = (s.tile u).queue.length
  ex : (t.tile u).ex = x
  marks : (t.tile u).pendMarks = m
  frame : SeqFrame u s t

theorem lastRun_length (f : Run → Run) (q : List Run) : (lastRun f q).length = q.length := by
  rcases q.eq_nil_or_concat with rfl | ⟨l, r, rfl⟩ <;> simp [lastRun]

namespace Along

variable {u : Nat} {s t : State} {a : Nat} {x : Apg} {m : List (BitVec 8)}

theorem executing (s : State) (u : Nat) : Along u s (s.executing u) (s.pc u) (s.tile u).ex (s.tile u).pendMarks :=
  ⟨rfl, by rw [s.tile_executing], by rw [s.tile_executing], by rw [s.tile_executing], s.executing_frame u⟩

theorem refl (s : State) (u : Nat) : Along u s s (s.pc u) (s.tile u).ex (s.tile u).pendMarks := ⟨rfl, rfl, rfl, rfl, .refl s⟩

/-- An operation that changes neither what has been issued nor where execution stands. -/
theorem step (h : Along u s t a x m) {r : State} (hs : r.rget (R.SEQ_STATUS u) = t.rget (R.SEQ_STATUS u))
    (ht : (r.tile u).queue.length = (t.tile u).queue.length ∧ (r.tile u).ex = (t.tile u).ex ∧ (r.tile u).pendMarks = (t.tile u).pendMarks)
    (hf : SeqFrame u t r) : Along u s r a x m := by
  obtain ⟨hq, hx, hm⟩ := ht
  exact ⟨(State.pc_congr hs).trans h.pc, hq.trans h.queue, hx.trans h.ex, hm.trans h.marks, h.frame.trans hf⟩

theorem modTile (h : Along u s t a x m) {f : TileCtx → TileCtx} (hq : (f (t.tile u)).queue.length = (t.tile u).queue.length)
    (hx : (f (t.tile u)).ex = (t.tile u).ex) (hm : (f (t.tile u)).pendMarks = (t.tile u).pendMarks) : Along u s (t.modTile u f) a x m :=
  h.step rfl (by simp [hq, hx, hm]) ((SeqFrame.refl t).modTile ..)

theorem rset (h : Along u s t a x m) {b : Nat} (hb : seqReg u b = true) (hs : b ≠ R.SEQ_STATUS u) (v : Word) : Along u s (t.rset b v) a x m :=
  h.step (State.rget_rset_other _ _ hs.symm) ⟨rfl, rfl, rfl⟩ ((SeqFrame.refl t).rset hb v)

/-- A field of SEQ_STATUS beside PC is set. -/
theorem fset_status (h : Along u s t a x m) {f : Fld} (hf : f.addr = R.SEQ_STATUS u) (hp : f.hi < 16) (hle : f.lo ≤ f.hi) (v : Nat) :
    Along u s (t.fset f v) a x m :=
  ⟨(t.fget_fset_disjoint v (g := R.SEQ_STATUS_PC u) (.inr hp) hle (show 16 ≤ 29 by decide)).trans h.pc, h.queue, h.ex, h.marks,
    h.frame.fset (hf ▸ seqReg_status u) v⟩

theorem goto (h : Along u s t a x m) (b : Nat) : Along u s (t.goto u b) (b % 16384) x m :=
  ⟨t.pc_goto u b, h.queue, h.ex, h.marks, h.frame.trans (t.goto_frame u b)⟩

theorem seqNext (h : Along u s t a x m) : Along u s (t.seqNext u) ((a + 1) % 16384) x m :=
  ⟨(t.pc_seqNext u).trans (by rw [h.pc]), h.queue, h.ex, h.marks, h.frame.trans (t.goto_frame u _)⟩

theorem segSync (h : Along u s t a x m) : Along u s (t.segSync u) a x m :=
  h.step (t.status_segSync u u) (by simp [t.tile_segSync]) (SeqFrame.refl t).segSync

theorem turnTo (h : Along u s t a x m) (g : Option Nat) : Along u s (t.turnTo u g) a x m := by
  unfold State.turnTo
  refine h.modTile ?_ ?_ ?_ <;> split
  · rfl
  · exact lastRun_length ..
  all_goals rfl

theorem jump (h : Along u s t a x m) (b : Nat) : Along u s (t.jump u b) (b % 16384) x m :=
  (((h.turnTo _).modTile rfl rfl rfl).goto b).segSync

theorem zeroCycle (h : Along u s t a x m) (i : SeqInstr) :
    Along u s (t.zeroCycle u i) a (s.apgOp u x i.apgop) (m ++ SeqInstrMarks i) := by
  obtain ⟨htile, hframe, hregs⟩ := t.zeroCycle_spec u i
  have hstatus : apgReg u (R.SEQ_STATUS u) = false := by simp [apgReg, R.APG_X, R.APG_Y, R.LFSR, R.DCTL, R.SEQ_STATUS]
  refine ⟨(State.pc_congr (hregs _ hstatus)).trans h.pc, ?_, ?_, ?_, h.frame.trans hframe⟩
  · rw [htile]; exact h.queue
  · rw [htile, ← h.ex]; exact State.apgOp_congr h.frame _ _
  · rw [htile, ← h.marks]

theorem clearCond (h : Along u s t a x m) (k : Cond) (cutoff : Int) : Along u s (t.clearCond u k cutoff) a x m := by
  obtain ⟨⟨l, htile⟩, hframe, hregs⟩ := t.clearCond_spec u k cutoff
  exact h.step (hregs _ (condReg_status u u)) (by simp [htile]) hframe

theorem takeTurn (h : Along u s t a x m) : Along u s (t.takeTurn u) a x m := by
  unfold State.takeTurn
  split
  · exact (h.modTile rfl rfl rfl).segSync
  · exact h

/-- A branch goes to TARGET exactly if its condition is seen. -/
theorem decideBr (h : Along u s t a x m) (i : SeqInstr) (d : Int) :
    Along u s (t.decideBr u i d) (if t.condHolds u (SeqInstrCond i) (d - condDelay) then i.target.toNat else (a + 1) % 16384)
      (s.apgOp u x i.apgop) (m ++ SeqInstrMarks i) := by
  unfold State.decideBr
  extract_lets taken r
  have hr : Along u s r a (s.apgOp u x i.apgop) (m ++ SeqInstrMarks i) := ((h.clearCond _ _).zeroCycle i).modTile rfl rfl rfl
  clear_value r
  split
  · simpa [Nat.mod_eq_of_lt i.target.isLt] using hr.jump i.target.toNat
  · exact hr.seqNext

end Along

/-! ## What an instruction leaves behind where execution continues elsewhere -/

/-- Registers of a tile beside SEQ_STATUS, SEG_STATE and STRM_STATUS stand where execution jumps. -/
theorem State.rget_jump (s : State) (u a : Nat) {b : Nat} (hb : 0x100000 ≤ b) (hs : b ≠ R.SEQ_STATUS u) (hg : segReg u b = false) :
    (s.jump u a).rget b = s.rget b := by
  unfold State.jump
  rw [(State.segSync_reports _ u).rget hb hg, State.rget_goto _ _ _ hs]
  rfl

/-- The fields of SEQ_STATUS beside PC stand. -/
theorem State.fget_jump (s : State) (u a : Nat) {f : Fld} (hf : f.addr = R.SEQ_STATUS u) (hp : f.hi < 16) (hle : f.lo ≤ f.hi) :
    (s.jump u a).fget f = s.fget f := by
  unfold State.jump
  refine (State.fget_congr (hf ▸ State.status_segSync ..)).trans ((State.fget_goto _ u a (.inl hp) hle).trans ?_)
  rfl

theorem State.stackSp_jump (s : State) (u a : Nat) : (s.jump u a).stackSp u = s.stackSp u :=
  s.fget_jump u a rfl (show 15 < 16 by decide) (show 12 ≤ 15 by decide)

theorem State.stackSp_set (s : State) (u : Nat) {n : Nat} (hn : n < 16) : (s.fset (R.SEQ_STATUS_SP u) n).stackSp u = n :=
  (s.fget_fset_same n (show 12 ≤ 15 by decide) (show 15 < 32 by decide)).trans (Nat.mod_eq_of_lt hn)

theorem State.stackSp_lt (s : State) (u : Nat) : s.stackSp u < 16 := field_lt ..

section
variable (u : Nat) {n : Nat}

/-- The loop counters and the stack are registers that instructions write, in places of their own. STACKn is followed by LINKEV_FLAG. -/
theorem loop_place (h : n < 8) : seqReg u (R.LOOP u n) = true ∧ R.LOOP u n ≠ R.SEQ_STATUS u ∧ segReg u (R.LOOP u n) = false ∧
    apgReg u (R.LOOP u n) = false := by
  refine ⟨decide_eq_true ?_, ?_, ?_, ?_⟩
  · unfold R.LOOP; omega
  · unfold R.LOOP R.SEQ_STATUS; omega
  · simp [segReg, R.LOOP, R.SEG_STATE, R.STRM_STATUS]; omega
  · simp [apgReg, R.LOOP, R.APG_X, R.APG_Y, R.LFSR, R.DCTL]; omega

theorem stack_place (h : n < 16) : seqReg u (R.STACK u n) = true ∧ R.STACK u n ≠ R.SEQ_STATUS u ∧ segReg u (R.STACK u n) = false ∧
    apgReg u (R.STACK u n) = false := by
  refine ⟨decide_eq_true ?_, ?_, ?_, ?_⟩
  · unfold R.STACK; omega
  · unfold R.STACK R.SEQ_STATUS; omega
  · simp [segReg, R.STACK, R.SEG_STATE, R.STRM_STATUS]; omega
  · simp [apgReg, R.STACK, R.APG_X, R.APG_Y, R.LFSR, R.DCTL]; omega

theorem loop_ge : 0x100000 ≤ R.LOOP u n := by unfold R.LOOP; omega
theorem stack_ge : 0x100000 ≤ R.STACK u n := by unfold R.STACK; omega

end

end Sys2Proof.Machine
end

section
/-! SUPPORT. The zero-cycle instructions that move execution, one by one, and the decision of a branch (03_sequencer.md R66, R68, R69, R71). -/

namespace Sys2Proof.Machine

/-! ## Contexts behind a jump and behind a branch taken -/

/-- A jump touches of the tile's context what a branch out of a fall-through segment does and the stall-safety of the boundary. -/
theorem State.tile_jump (s : State) (u a : Nat) : ∃ q b n, (s.jump u a).tile u = { s.tile u with queue := q, boundary := b, turn := n } := by
  unfold State.jump
  rw [State.tile_segSync]
  have hgoto (r : State) : (r.goto u a).tile u = r.tile u := rfl
  rw [hgoto, State.tile_modTile, if_pos rfl, State.turnTo, State.tile_modTile, if_pos rfl]
  split
  · exact ⟨_, _, _, rfl⟩
  · exact ⟨_, _, _, rfl⟩

theorem State.takeTurn_spec (s : State) (u : Nat) :
    (∃ f n, (s.takeTurn u).tile u = { s.tile u with fall := f, turn := n }) ∧ SeqFrame u s (s.takeTurn u) := by
  unfold State.takeTurn
  split
  · exact ⟨⟨_, _, (State.tile_segSync ..).trans ((State.tile_modTile ..).trans (if_pos rfl))⟩, ((SeqFrame.refl s).modTile ..).segSync⟩
  · exact ⟨⟨_, _, rfl⟩, .refl s⟩

/-- Nothing stands behind the queued cycles once a branch has decided. -/
theorem State.decideBr_tail (s : State) (u : Nat) (i : SeqInstr) (d : Int) : (((s.decideBr u i d).takeTurn u).tile u).tail = .none := by
  obtain ⟨⟨f, n, hturn⟩, -⟩ := (s.decideBr u i d).takeTurn_spec u
  rw [hturn]
  unfold State.decideBr
  extract_lets taken r
  have hr : (r.tile u).tail = .none := by simp [r]
  clear_value r
  change ((if taken then r.jump u i.target.toNat else r.seqNext u).tile u).tail = .none
  split
  · obtain ⟨q, b, n, hjump⟩ := r.tile_jump u i.target.toNat
    rw [hjump]
    exact hr
  · exact hr

/-! ## What stands behind the queued cycles -/

/-- Behind cycles that have not ended an instruction only takes its place. -/
theorem State.putTail_waits {s : State} {u : Nat}
    (h : (s.tile u).queue ≠ [] ∨ s.stepState u = stPending ∨ s.tileTime u s.now < (s.tile u).endE) (x : Tail) :
    s.putTail u x = s.modTile u fun c => { c with tail := x } := by
  refine if_neg fun e => ?_
  obtain ⟨⟨hrun, hq⟩, hend⟩ : (s.stepState u = stRunning ∧ (s.tile u).queue = []) ∧ (s.tile u).endE ≤ s.tileTime u s.now := by
    simpa [State.tileTime, State.stepState, State.fget, State.rget, State.now] using e
  rcases h with h | h | h
  · exact h hq
  · exact absurd (h.symm.trans hrun) (by decide)
  · exact absurd hend (Int.not_le.2 h)

/-- Where the last cycle has ended it acts at once. -/
theorem State.putTail_runs {s : State} {u : Nat} (hq : (s.tile u).queue = []) (hrun : s.stepState u = stRunning)
    (hend : (s.tile u).endE ≤ s.tileTime u s.now) (x : Tail) :
    s.putTail u x = (s.modTile u fun c => { c with tail := x }).runTail u := by
  refine if_pos ?_
  have hrun' : (s.modTile u fun c => { c with tail := x }).stepState u = stRunning := hrun
  have hnow : (s.modTile u fun c => { c with tail := x }).now = s.now := rfl
  simpa [hrun', hq, hnow, State.tileTime] using hend

theorem State.runTail_branching {s : State} {u : Nat} {i : SeqInstr} (ht : (s.tile u).tail = .branching i)
    (hs : s.unseen u ((s.tile u).endE - condDelay) = false) : s.runTail u = (s.decideBr u i (s.tile u).endE).takeTurn u := by
  simp only [State.runTail, ht, hs]
  rfl

theorem State.not_fetching_of_tail {s : State} {u : Nat} (h : (s.tile u).tail ≠ .none) : s.fetching u = false :=
  Bool.eq_false_iff.2 fun e => h (State.fetching_iff.1 e).2.1

/-! ## The instructions -/

/-- An instruction of zero cycles has executed: it has applied its APG operation and its marker waits. -/
abbrev Goes (u : Nat) (i : SeqInstr) (s t : State) (a : Nat) : Prop :=
  Along u s t a (s.apgOp u (s.tile u).ex i.apgop) ((s.tile u).pendMarks ++ SeqInstrMarks i)

/-- The state in which an instruction of zero cycles has applied its APG operation and its marker waits. -/
def State.zeroed (s : State) (u : Nat) (i : SeqInstr) : State := (s.executing u).zeroCycle u i

theorem State.zeroed_goes (s : State) (u : Nat) (i : SeqInstr) : Goes u i s (s.zeroed u i) (s.pc u) := (Along.executing s u).zeroCycle i

/-- A register that does not show the generator stands. -/
theorem State.rget_zeroed (s : State) (u : Nat) (i : SeqInstr) {a : Nat} (h : apgReg u a = false) : (s.zeroed u i).rget a = s.rget a :=
  ((s.executing u).zeroCycle_spec u i).2.2 a h

/-- Execution continues at `a` if a condition holds, else at the next instruction. -/
def State.jumpIf (s : State) (u : Nat) (c : Prop) [Decidable c] (a : Nat) : State := if c then s.jump u a else s.seqNext u

theorem State.rget_jumpIf (s : State) (u : Nat) (c : Prop) [Decidable c] (a : Nat) {b : Nat} (hb : 0x100000 ≤ b) (hs : b ≠ R.SEQ_STATUS u)
    (hg : segReg u b = false) : (s.jumpIf u c a).rget b = s.rget b := by
  unfold State.jumpIf
  split
  · exact s.rget_jump u a hb hs hg
  · exact s.rget_goto u _ hs

section
variable {u : Fin 64} {i : SeqInstr} {s : State}

/-- What the statements say of an instruction of zero cycles. -/
theorem Along.goes {u : Nat} {t : State} {a : Nat} {x : Apg} {m : List (BitVec 8)} (h : Along u s t a x m) :
    t.pc u = a ∧ (t.tile u).queue.length = (s.tile u).queue.length ∧ (t.tile u).ex = x ∧ (t.tile u).pendMarks = m ∧ MemSame s t ∧
      (∀ ch, t.chan ch = s.chan ch) ∧ RegsSame (fun a => inTile u a || counting a || sessReg a) s t :=
  ⟨h.pc, h.queue, h.ex, h.marks, h.frame.memSame, h.frame.chan, h.frame.regsSame⟩

theorem Along.jump_target {u : Nat} {t : State} {a : Nat} {x : Apg} {m : List (BitVec 8)} (h : Along u s t a x m) (b : BitVec 14) :
    Along u s (t.jump u b.toNat) b.toNat x m := by
  simpa [Nat.mod_eq_of_lt b.isLt] using h.jump b.toNat

theorem Along.jumpIf {u : Nat} {t : State} {a : Nat} {x : Apg} {m : List (BitVec 8)} (h : Along u s t a x m) (c : Prop) [Decidable c]
    (b : BitVec 14) : Along u s (t.jumpIf u c b.toNat) (if c then b.toNat else (a + 1) % 16384) x m := by
  unfold State.jumpIf
  split
  · exact h.jump_target b
  · exact h.seqNext

/-- A stack fault stops the step behind the queued cycles. -/
theorem stops_behind (hq : (s.tile u).queue ≠ []) (st : BitVec 8) (cause : Nat) :
    (((s.executing u).putTail u (.stopping st cause)).tile u).tail = .stopping st cause := by
  rw [State.putTail_waits (.inl (by rwa [s.tile_executing]))]
  simp

variable (hf : s.fetching u = true) (ht : OnTime s u)
include hf ht

theorem doNop_goes : Goes u i s (doNop u i s) ((s.pc u + 1) % 16384) := by
  rw [doNop, State.seq_onTime hf ht]
  exact (s.zeroed_goes u i).seqNext

theorem doJmp_goes : Goes u i s (doJmp u i s) i.target.toNat := by
  rw [doJmp, State.seq_onTime hf ht]
  exact (s.zeroed_goes u i).jump_target i.target

theorem doLoop_goes : Goes u i s (doLoop u i s) (if i.count = 0 then i.target.toNat else (s.pc u + 1) % 16384) ∧
    (doLoop u i s).rget (R.LOOP u i.lcnt.toNat) = i.count := by
  obtain ⟨hseq, hstatus, hseg, -⟩ := loop_place u i.lcnt.isLt
  have hr : Goes u i s ((s.zeroed u i).rset (R.LOOP u i.lcnt.toNat) i.count) (s.pc u) := (s.zeroed_goes u i).rset hseq hstatus _
  have hdo : doLoop u i s = ((s.zeroed u i).rset (R.LOOP u i.lcnt.toNat) i.count).jumpIf u (i.count = 0) i.target.toNat :=
    State.seq_onTime hf ht _
  rw [hdo]
  exact ⟨hr.jumpIf _ _, (State.rget_jumpIf _ _ _ _ (loop_ge u) hstatus hseg).trans (State.rget_rset_same ..)⟩

/-- LEND lowers its counter and jumps where it was 2 or more; it stays at 0. -/
theorem doLend_goes : Goes u i s (doLend u i s)
      (if 2 ≤ (s.rget (R.LOOP u i.lcnt.toNat)).toNat then i.target.toNat else (s.pc u + 1) % 16384) ∧
    ((doLend u i s).rget (R.LOOP u i.lcnt.toNat)).toNat = (s.rget (R.LOOP u i.lcnt.toNat)).toNat - 1 := by
  obtain ⟨hseq, hstatus, hseg, hapg⟩ := loop_place u i.lcnt.isLt
  have hz := s.zeroed_goes u i
  have hsame : (s.zeroed u i).rget (R.LOOP u i.lcnt.toNat) = s.rget (R.LOOP u i.lcnt.toNat) := s.rget_zeroed u i hapg
  generalize hn : s.rget (R.LOOP u i.lcnt.toNat) = n at *
  have hdo : doLend u i s = if n = 0 then (s.zeroed u i).seqNext u
      else if n = 1 then ((s.zeroed u i).rset (R.LOOP u i.lcnt.toNat) (n - 1)).seqNext u
      else ((s.zeroed u i).rset (R.LOOP u i.lcnt.toNat) (n - 1)).jump u i.target.toNat := by
    rw [← hn]
    exact State.seq_onTime hf ht _
  by_cases h0 : n = 0
  · rw [hdo, if_pos h0, if_neg (by simp [h0])]
    refine ⟨hz.seqNext, ?_⟩
    rw [State.seqNext, State.rget_goto _ _ _ hstatus, hsame, h0]
    rfl
  · have hjump : doLend u i s = ((s.zeroed u i).rset (R.LOOP u i.lcnt.toNat) (n - 1)).jumpIf u (2 ≤ n.toNat) i.target.toNat := by
      by_cases h1 : n = 1
      · rw [hdo, if_neg h0, if_pos h1, State.jumpIf, if_neg (by simp [h1])]
      · rw [hdo, if_neg h0, if_neg h1, State.jumpIf, if_pos (by bv_omega)]
    rw [hjump]
    refine ⟨(hz.rset hseq hstatus _).jumpIf _ _, ?_⟩
    rw [State.rget_jumpIf _ _ _ _ (loop_ge u) hstatus hseg, State.rget_rset_same]
    bv_omega

theorem doCall_goes (hsp : s.stackSp u < 8) : Goes u i s (doCall u i s) i.target.toNat ∧ (doCall u i s).stackSp u = s.stackSp u + 1 ∧
    (doCall u i s).fget (R.STACK_ADDR u (s.stackSp u)) = (s.pc u + 1) % 16384 := by
  obtain ⟨hseq, hstatus, hseg, -⟩ := stack_place u (n := s.stackSp u) (by omega)
  have hz := s.zeroed_goes u i
  have hdo : doCall u i s = (((s.zeroed u i).fset (R.STACK_ADDR u (s.stackSp u)) ((s.pc u + 1) % 16384)).fset (R.SEQ_STATUS_SP u)
      (s.stackSp u + 1)).jump u i.target.toNat := by
    rw [doCall, State.seq_onTime hf ht]
    exact if_neg (Nat.not_le.2 hsp)
  have hpush : Goes u i s ((s.zeroed u i).fset (R.STACK_ADDR u (s.stackSp u)) ((s.pc u + 1) % 16384)) (s.pc u) := hz.rset hseq hstatus _
  rw [hdo]
  refine ⟨(hpush.fset_status rfl (show 15 < 16 by decide) (show 12 ≤ 15 by decide) _).jump_target _, ?_, ?_⟩
  · rw [State.stackSp_jump, State.stackSp_set _ _ (by omega)]
  · have hread (r : State) : ((r.fset (R.SEQ_STATUS_SP u) (s.stackSp u + 1)).jump u i.target.toNat).fget (R.STACK_ADDR u (s.stackSp u)) =
        r.fget (R.STACK_ADDR u (s.stackSp u)) :=
      State.fget_congr ((State.rget_jump _ _ _ (stack_ge u) hstatus hseg).trans (State.rget_fset_other _ _ hstatus))
    rw [hread, State.fget_fset_same _ _ (show 0 ≤ 13 by decide) (show 13 < 32 by decide)]
    exact Nat.mod_mod _ _

theorem doRet_goes {n : Nat} (hsp : s.stackSp u = n + 1) :
    Goes u i s (doRet u i s) (s.fget (R.STACK_ADDR u n)) ∧ (doRet u i s).stackSp u = n := by
  have hlt := s.stackSp_lt u
  obtain ⟨hseq, hstatus, -, -⟩ := stack_place u (n := n) (by omega)
  have haddr : s.fget (R.STACK_ADDR u n) < 16384 := field_lt ..
  have hdo : doRet u i s = (((s.zeroed u i).fset (R.STACK_ADDR u n) 0).fset (R.SEQ_STATUS_SP u) n).jump u (s.fget (R.STACK_ADDR u n)) := by
    have hsp' : (s.executing u).stackSp u = n + 1 := hsp
    rw [doRet, State.seq_onTime hf ht]
    dsimp only
    rw [hsp']
    rfl
  have hpop : Goes u i s ((s.zeroed u i).fset (R.STACK_ADDR u n) 0) (s.pc u) := (s.zeroed_goes u i).rset hseq hstatus _
  rw [hdo]
  refine ⟨?_, ?_⟩
  · have hgoes := (hpop.fset_status (f := R.SEQ_STATUS_SP u) rfl (show 15 < 16 by decide) (show 12 ≤ 15 by decide) n).jump
      (s.fget (R.STACK_ADDR u n))
    rwa [Nat.mod_eq_of_lt haddr] at hgoes
  · rw [State.stackSp_jump, State.stackSp_set _ _ (by omega)]

theorem doCall_full (hsp : 8 ≤ s.stackSp u) (hq : (s.tile u).queue ≠ []) : ((doCall u i s).tile u).tail = .stopping St.hwFault 7 := by
  have hdo : doCall u i s = (s.executing u).putTail u (.stopping St.hwFault 7) := by
    rw [doCall, State.seq_onTime hf ht]
    exact if_pos hsp
  rw [hdo]
  exact stops_behind hq ..

theorem doRet_empty (hsp : s.stackSp u = 0) (hq : (s.tile u).queue ≠ []) : ((doRet u i s).tile u).tail = .stopping St.hwFault 8 := by
  have hdo : doRet u i s = (s.executing u).putTail u (.stopping St.hwFault 8) := by
    have hsp' : (s.executing u).stackSp u = 0 := hsp
    rw [doRet, State.seq_onTime hf ht]
    dsimp only
    rw [hsp']
  rw [hdo]
  exact stops_behind hq ..

theorem doBr_always (hc : i.cond = 0) : Goes u i s (doBr u i s) (if i.neg then (s.pc u + 1) % 16384 else i.target.toNat) := by
  have hdo : doBr u i s = (s.executing u).decideBr u i ((s.executing u).queueEnd u) := by
    rw [doBr, State.seq_onTime hf ht]
    exact if_pos hc
  have hgoes := (Along.executing s u).decideBr i ((s.executing u).queueEnd u)
  rw [State.condHolds_always _ _ hc] at hgoes
  rw [hdo]
  cases hneg : i.neg <;> simpa [hneg] using hgoes

theorem doBr_waits (hc : i.cond ≠ 0) (hw : (s.tile u).queue ≠ [] ∨ s.stepState u = stPending ∨ s.tileTime u s.now < (s.tile u).endE) :
    doBr u i s = (s.executing u).modTile u fun c => { c with tail := .branching i } := by
  have hw' : ((s.executing u).tile u).queue ≠ [] ∨ (s.executing u).stepState u = stPending ∨
      (s.executing u).tileTime u (s.executing u).now < ((s.executing u).tile u).endE := by
    rw [State.tileTime, s.tile_executing]
    exact hw
  rw [doBr, State.seq_onTime hf ht]
  exact (if_neg hc).trans (State.putTail_waits hw' _)

theorem doBr_decides (hc : i.cond ≠ 0) (hq : (s.tile u).queue = []) (hrun : s.stepState u = stRunning)
    (hend : (s.tile u).endE ≤ s.tileTime u s.now) (hs : s.unseen u ((s.tile u).endE - condDelay) = false) :
    Goes u i s (doBr u i s)
      (if s.condHolds u (SeqInstrCond i) ((s.tile u).endE - condDelay) then i.target.toNat else (s.pc u + 1) % 16384) := by
  have htile : ((s.executing u).modTile u fun c => { c with tail := .branching i }).tile u =
      { s.tile u with execAt := s.execClock u, tail := .branching i } := by
    simp [s.tile_executing]
  have hdo : doBr u i s =
      (((s.executing u).modTile u fun c => { c with tail := .branching i }).decideBr u i (s.tile u).endE).takeTurn u := by
    have hend' : ((s.executing u).tile u).endE ≤ (s.executing u).tileTime u (s.executing u).now := by
      rw [State.tileTime, s.tile_executing]
      exact hend
    have hq' : ((s.executing u).tile u).queue = [] := by
      rw [s.tile_executing]
      exact hq
    have hrun' : (s.executing u).stepState u = stRunning := hrun
    rw [doBr, State.seq_onTime hf ht]
    refine (if_neg hc).trans ((State.putTail_runs hq' hrun' hend' _).trans ?_)
    rw [State.runTail_branching (i := i) (by rw [htile]) (by rw [htile]; exact hs), htile]
  have hat : Along u s ((s.executing u).modTile u fun c => { c with tail := .branching i }) (s.pc u) (s.tile u).ex (s.tile u).pendMarks :=
    (Along.executing s u).modTile rfl rfl rfl
  have hgoes := (hat.decideBr i (s.tile u).endE).takeTurn
  rw [State.condHolds_congr (by rw [htile]) (by rw [htile]) hat.frame] at hgoes
  rwa [hdo]

end

/-! ## The statement -/

/-- A branch that CYCLE_BEGIN comes to, at the end of the last cycle. -/
theorem doCycleBegin_branching {u : Fin 64} {i : SeqInstr} {s : State} (hrun : s.stepState u = stRunning) (hstall : (s.tile u).stall = none)
    (hcl : (s.tile u).closing = false) (hq : (s.tile u).queue = []) (htail : (s.tile u).tail = .branching i)
    (hs : s.unseen u ((s.tile u).endE - condDelay) = false) :
    ((doCycleBegin u s).tile u).tail = .none ∧ (doCycleBegin u s).pc u =
      if s.condHolds u (SeqInstrCond i) ((s.tile u).endE - condDelay) then i.target.toNat else (s.pc u + 1) % 16384 := by
  obtain ⟨⟨f, n, hturn⟩, hframe⟩ := s.takeTurn_spec u
  have hdo : doCycleBegin u s = ((s.takeTurn u).decideBr u i (s.tile u).endE).takeTurn u := by
    have hs' : (s.takeTurn u).unseen u (((s.takeTurn u).tile u).endE - condDelay) = false := by
      rw [State.unseen_congr hframe.chans, hturn]
      exact hs
    have hrest : (s.takeTurn u).runTail u = ((s.takeTurn u).decideBr u i (s.tile u).endE).takeTurn u := by
      rw [State.runTail_branching (by rw [hturn]; exact htail) hs', hturn]
    unfold doCycleBegin
    extract_lets v r c
    rw [if_neg (by simp [v, hrun, hstall]), if_neg (by simp [v, hcl])]
    have hqueue : c.queue = [] := by
      simp only [c, r, v, hturn]
      exact hq
    rw [hqueue]
    exact hrest
  have hgoes := ((Along.refl s u).takeTurn.decideBr i (s.tile u).endE).takeTurn
  rw [State.condHolds_congr (by rw [hturn]) (by rw [hturn]) hframe] at hgoes
  rw [hdo]
  exact ⟨State.decideBr_tail .., hgoes.pc⟩

/-- Settles O37: every instruction that goes on applies its APG operation and its marker first, then moves execution; a stack fault and a branch
with a condition take their place behind the queued cycles, and the branch decides once the last of them has ended. -/
theorem controlFlow : Obligations.ControlFlow := by
  unfold Obligations.ControlFlow
  refine ⟨fun u i s hf ht => ?_, fun u i s hrun hstall hcl hq htail hs => ⟨_, rfl, doCycleBegin_branching hrun hstall hcl hq htail hs⟩⟩
  intro next goes
  refine ⟨⟨_, rfl, (doNop_goes hf ht).goes⟩, ?_, ?_, ?_, ?_, ?_, ?_, ⟨_, rfl, (doJmp_goes hf ht).goes⟩, ?_, ?_, ?_⟩
  · obtain ⟨hgoes, hloop⟩ := doLoop_goes (i := i) hf ht
    exact ⟨_, rfl, hgoes.goes, hloop⟩
  · obtain ⟨hgoes, hloop⟩ := doLend_goes (i := i) hf ht
    exact ⟨_, rfl, hgoes.goes, hloop⟩
  · intro hsp
    obtain ⟨hgoes, hpush⟩ := doCall_goes (i := i) hf ht hsp
    exact ⟨_, rfl, hgoes.goes, hpush⟩
  · exact fun hsp hq => ⟨_, rfl, doCall_full hf ht hsp hq⟩
  · intro n hsp
    obtain ⟨hgoes, hpop⟩ := doRet_goes (i := i) hf ht hsp
    exact ⟨_, rfl, hgoes.goes, hpop⟩
  · exact fun hsp hq => ⟨_, rfl, doRet_empty hf ht hsp hq⟩
  · exact fun hc => ⟨_, rfl, (doBr_always hf ht hc).goes⟩
  · intro hc hw
    have htail : ((doBr u i s).tile u).tail = .branching i := by
      rw [doBr_waits hf ht hc hw]
      simp
    refine ⟨_, rfl, htail, State.not_fetching_of_tail (by simp [htail]), ?_, ?_⟩
    · rw [doBr_waits hf ht hc hw]
      exact fun _ _ => rfl
    · rw [doBr_waits hf ht hc hw]
      exact .of_mem rfl
  · exact fun hc hq hrun hend hs => ⟨_, rfl, (doBr_decides hf ht hc hq hrun hend hs).goes⟩

end Sys2Proof.Machine
end

section
/-! SUPPORT. The instructions that issue cycles: VEC, RPT and HOLD put theirs behind the queued ones, and none where COUNT is 0
(03_sequencer.md R59, R60, R65). -/

namespace Sys2Proof.Machine

/-- VEC, RPT and HOLD with the kind of their cycles. -/
def issuing (u : Fin 64) (i : SeqInstr) : List (RunKind × Instr) := [(.vec, .vec u i), (.rpt, .rpt u i), (.hold, .hold u i)]

/-- Each of them puts cycles of its kind into the queue; VEC and RPT wait for room among the locked segments. -/
theorem exec_issuing {u : Fin 64} {i : SeqInstr} {s : State} {k : RunKind} {c : Instr} (h : (k, c) ∈ issuing u i)
    (hroom : k ≠ .hold → s.lockRoom u i = true) : exec c s = .next (s.seq u fun s => s.enqueue u k i) := by
  simp only [issuing, List.mem_cons, List.not_mem_nil, or_false, Prod.mk.injEq] at h
  rcases h with ⟨rfl, rfl⟩ | ⟨rfl, rfl⟩ | ⟨rfl, rfl⟩
  · exact congrArg Host.Outcome.next (if_pos (hroom (by decide)))
  · exact congrArg Host.Outcome.next (if_pos (hroom (by decide)))
  · rfl

/-- A run that an instruction has produced in state `s`: COUNT cycles of its timing set, format and slot, with the markers, the period change and
the generator's state that wait for them. -/
structure Produced (s : State) (u : Nat) (k : RunKind) (i : SeqInstr) (r : Run) : Prop where
  kind : r.kind = k
  left : r.left = i.count.toNat
  tset : r.tset = i.tset.toNat
  cfmt : r.cfmt = i.cfmt
  slot : r.slot = i.vword.toNat
  seg : r.seg = if i.strm then (s.tile u).execCur else i.vseg.toNat
  marks : r.marks = (s.tile u).pendMarks ++ SeqInstrMarks i
  per : r.per = (s.tile u).pendPer
  apg : r.apg = (s.tile u).ex

/-- A run enters the queue of a tile, which takes up all that waited for it. -/
def TileCtx.take (c : TileCtx) (r : Run) (ex : Apg) (boundary : Option (Nat × Bool × Bool)) (cur : Nat) : TileCtx :=
  { c with queue := c.queue ++ [r], pendPer := none, pendMarks := [], ex := ex, boundary := boundary, execCur := cur }

theorem TileCtx.queued_take (c : TileCtx) (r : Run) (ex : Apg) (boundary : Option (Nat × Bool × Bool)) (cur : Nat) :
    (c.take r ex boundary cur).queued = c.queued + r.left := by
  simp [TileCtx.take, TileCtx.queued]

/-- PC moves on where the issue queue holds all cycles; else the instruction has cycles still to place. -/
def State.placeOrNext (s : State) (u : Nat) : State :=
  if 32 < (s.tile u).queued then s.modTile u fun c => { c with placing := true } else s.seqNext u

theorem State.placeOrNext_spec (s : State) (u : Nat) :
    (∃ b, (s.placeOrNext u).tile u = { s.tile u with placing := b }) ∧ SeqFrame u s (s.placeOrNext u) ∧
      (s.placeOrNext u).stepState u = s.stepState u ∧
      (s.placeOrNext u).pc u = if (s.tile u).queued ≤ 32 then (s.pc u + 1) % 16384 else s.pc u := by
  unfold State.placeOrNext
  split
  · next h => exact ⟨⟨_, (State.tile_modTile ..).trans (if_pos rfl)⟩, (SeqFrame.refl s).modTile .., rfl, (if_neg (Nat.not_le.2 h)).symm⟩
  · next h =>
    exact ⟨⟨_, rfl⟩, s.goto_frame u _, s.stepState_goto u u _, (s.pc_seqNext u).trans (if_pos (Nat.not_lt.1 h)).symm⟩

/-- Where the tile has a ring wherever cycles come from it, none of them starves at once. -/
theorem ring_present {k : RunKind} {strm : Bool} {n : Nat} (h : k ≠ .hold → strm = true → n ≠ 0) :
    ((k != .hold) && strm && n == 0) = false := by
  refine Bool.eq_false_iff.2 fun e => ?_
  obtain ⟨⟨hk, hs⟩, hn⟩ : (k ≠ .hold ∧ strm = true) ∧ n = 0 := by simpa using e
  exact h hk hs hn

theorem State.enqueue_eq {s : State} {u : Nat} {k : RunKind} {i : SeqInstr} (hc : i.count ≠ 0)
    (hring : k ≠ .hold → i.strm = true → s.ringLen u ≠ 0) : ∃ r boundary cur, Produced s u k i r ∧
      s.enqueue u k i = ((s.modTile u fun c => c.take r (s.apgOp u (s.tile u).ex i.apgop) boundary cur).placeOrNext u).segSync u := by
  unfold State.enqueue
  extract_lets c slotted vec seg stop after r follow boundary s₁
  rw [if_neg (Bool.eq_false_iff.1 (ring_present hring)), if_neg hc]
  exact ⟨r, boundary, _, ⟨rfl, rfl, rfl, rfl, rfl, rfl, rfl, rfl, rfl⟩, rfl⟩

theorem State.enqueue_none {s : State} {u : Nat} {k : RunKind} {i : SeqInstr} (hc : i.count = 0)
    (hring : k ≠ .hold → i.strm = true → s.ringLen u ≠ 0) : s.enqueue u k i = s.seqNext u := by
  unfold State.enqueue
  extract_lets c slotted
  rw [if_neg (Bool.eq_false_iff.1 (ring_present hring)), if_pos hc]

/-- A run has entered the queue of a tile that executes instructions. -/
theorem State.enqueue_spec {s : State} {u : Nat} {k : RunKind} {i : SeqInstr} (hf : s.fetching u = true) (hc : i.count ≠ 0)
    (hring : k ≠ .hold → i.strm = true → s.ringLen u ≠ 0) :
    let e := s.executing u
    let t := e.enqueue u k i
    ∃ r boundary cur b, Produced s u k i r ∧
      t.tile u = { (e.tile u).take r (s.apgOp u (s.tile u).ex i.apgop) boundary cur with placing := b } ∧
      t.pc u = (if (s.tile u).queued + i.count.toNat ≤ 32 then (s.pc u + 1) % 16384 else s.pc u) ∧
      t.fetching u = decide ((s.tile u).queued + i.count.toNat ≤ 32) ∧ SeqFrame u s t := by
  intro e t
  obtain ⟨r, boundary, cur, hr, heq⟩ := State.enqueue_eq (s := e) hc hring
  have hctx : e.tile u = { s.tile u with execAt := s.execClock u } := s.tile_executing u
  have hprod : Produced s u k i r := by
    obtain ⟨hkind, hleft, htset, hcfmt, hslot, hseg, hmarks, hper, hapg⟩ := hr
    rw [hctx] at hseg hmarks hper hapg
    exact ⟨hkind, hleft, htset, hcfmt, hslot, hseg, hmarks, hper, hapg⟩
  have hex : e.apgOp u (e.tile u).ex i.apgop = s.apgOp u (s.tile u).ex i.apgop := by
    rw [State.apgOp_congr (s.executing_frame u), hctx]
  rw [hex] at heq
  generalize hr₁ : e.modTile u (fun c => c.take r (s.apgOp u (s.tile u).ex i.apgop) boundary cur) = r₁ at heq
  have htile₁ : r₁.tile u = (e.tile u).take r (s.apgOp u (s.tile u).ex i.apgop) boundary cur := by simp [← hr₁]
  have hqueued : (r₁.tile u).queued = (s.tile u).queued + i.count.toNat := by
    rw [htile₁, TileCtx.queued_take, hprod.left, hctx]
    rfl
  have hframe₁ : SeqFrame u s r₁ := hr₁ ▸ (s.executing_frame u).modTile ..
  have hpc₁ : r₁.pc u = s.pc u := by rw [← hr₁]; rfl
  have hstate₁ : r₁.stepState u = s.stepState u := by rw [← hr₁]; rfl
  obtain ⟨⟨b, htile⟩, hframe, hstate, hpc⟩ := r₁.placeOrNext_spec u
  have ht : t.tile u = { (e.tile u).take r (s.apgOp u (s.tile u).ex i.apgop) boundary cur with placing := b } := by
    rw [show t = _ from heq, State.tile_segSync, htile, htile₁]
  have hstatus : t.rget (R.SEQ_STATUS u) = (r₁.placeOrNext u).rget (R.SEQ_STATUS u) := by
    rw [show t = _ from heq, State.status_segSync]
  refine ⟨r, boundary, cur, b, hprod, ht, ?_, ?_, ?_⟩
  · rw [State.pc_congr hstatus, hpc, hqueued, hpc₁]
  · have hstep : t.stepState u = s.stepState u := (State.fget_congr (f := R.SEQ_STATUS_STATE u) hstatus).trans (hstate.trans hstate₁)
    have hq : (t.tile u).queued = (s.tile u).queued + i.count.toNat := by
      rw [← hqueued, htile₁, ht]
      rfl
    obtain ⟨hst, htail, -⟩ := State.fetching_iff.1 hf
    have htail' : (t.tile u).tail = .none := by
      rw [ht, hctx]
      exact htail
    rw [State.fetching, hstep, hq, htail']
    rcases hst with hst | hst <;> simp [hst]
  · rw [show t = _ from heq]
    exact (hframe₁.trans hframe).segSync

/-- Settles O36: the three instructions share one way into the queue, which moves PC once the issue queue holds all their cycles. -/
theorem cyclesQueue : Obligations.CyclesQueue := by
  unfold Obligations.CyclesQueue
  refine ⟨fun u i s k c hk hf ht hroom hc hring => ?_, fun u i s k c hk hf ht hroom hc hring => ?_, fun u i s c hcmd hf => ?_⟩
  · obtain ⟨r, boundary, cur, b, hr, htile, hpc, hfetch, hframe⟩ := State.enqueue_spec hf hc hring
    have hexec : exec c s = .next ((s.executing u).enqueue u k i) := by rw [exec_issuing hk hroom, State.seq_onTime hf ht]
    have hctx : (s.executing u).tile u = { s.tile u with execAt := s.execClock u } := s.tile_executing u
    refine ⟨_, r, hexec, ?_, hr.kind, hr.left, hr.tset, hr.cfmt, hr.slot, hr.seg, hr.marks, hr.per, hr.apg, ?_, ?_, ?_, hpc, hfetch,
      hframe.memSame, hframe.chan, hframe.regsSame⟩
    all_goals
      rw [htile, hctx]
      rfl
  · have hexec : exec c s = .next ((s.executing u).seqNext u) := by
      rw [exec_issuing hk hroom, State.seq_onTime hf ht, State.enqueue_none (s := s.executing u) hc hring]
    exact ⟨_, hexec, s.tile_executing u, (s.executing u).pc_seqNext u, .of_mem rfl, fun a ha =>
      State.rget_goto _ _ _ (by simpa using ha)⟩
  · simp only [List.mem_cons, List.not_mem_nil, or_false] at hcmd
    have hseq (act : State → State) : s.seq u act = s := State.seq_not_fetching hf act
    have hlast (act : State → State) : s.seqLast u act = s := State.seqLast_not_fetching hf act
    have hroom (act : State → State) : (if s.lockRoom u i then s.seq u act else s) = s := by rw [hseq, ite_self]
    rcases hcmd with rfl | rfl | rfl | rfl | rfl | rfl | rfl | rfl | rfl | rfl | rfl | rfl | rfl | rfl | rfl
    · exact congrArg Host.Outcome.next (hroom _)
    · exact congrArg Host.Outcome.next (hroom _)
    iterate 11 exact congrArg Host.Outcome.next (hseq _)
    · exact congrArg Host.Outcome.next (hlast _)
    · exact congrArg Host.Outcome.next (hlast _)

end Sys2Proof.Machine
end

section
/-! SUPPORT. MARK, PERIOD, SEGSW, WAIT and END as they execute, and the end of a wait (03_sequencer.md R65, R67, R72;
04_pattern_store.md R98, R99). -/

namespace Sys2Proof.Machine

/-! ## The stream ring (R98, R99) -/

theorem State.ringCur_modTile (s : State) (t n : Nat) (f : TileCtx → TileCtx) : (s.modTile n f).ringCur t = s.ringCur t := rfl

theorem State.ringNext_lt (s : State) (t i : Nat) : s.ringNext t i < 16 := Nat.mod_lt _ (by decide)

/-- CUR stands where the segment queue follows: AHEAD and LOW are other fields of its register. -/
theorem State.ringCur_segSync (s : State) (t : Nat) : (s.segSync t).ringCur t = s.ringCur t := by
  unfold State.segSync
  extract_lets s₁ old new low s₂
  have h₁ : s₁.ringCur t = s.ringCur t := by
    refine List.foldlRecOn (motive := fun r : State => r.ringCur t = s.ringCur t) _ _ rfl fun r hr i hi => ?_
    have hi := List.mem_range.1 hi
    have hne : (R.STRM_STATUS_CUR t).addr ≠ (segFld t i).addr := by
      simp only [R.STRM_STATUS_CUR, R.STRM_STATUS, segFld, R.SEG_STATE]
      omega
    split
    · exact (r.fget_fset_addr _ hne).trans hr
    split
    · exact (r.fget_fset_addr _ hne).trans hr
    · exact hr
  have h₂ : s₂.ringCur t = s.ringCur t :=
    (s₁.fget_fset_disjoint _ (.inl (show 3 < 8 by decide)) (show 8 ≤ 12 by decide) (show 0 ≤ 3 by decide)).trans h₁
  split
  · refine (State.fget_congr (f := R.STRM_STATUS_CUR t) ((State.eventFor_reports (fun _ => false) _ _ _ _).rget ?_ rfl)).trans ?_
    · unfold R.STRM_STATUS_CUR R.STRM_STATUS
      dsimp only
      omega
    · exact (s₂.fget_fset_disjoint _ (f := R.STRM_STATUS_LOW t) (g := R.STRM_STATUS_CUR t) (.inl (show 3 < 16 by decide)) (Nat.le_refl 16)
        (show 0 ≤ 3 by decide)).trans h₂
  · exact h₂

/-- The ring advances: CUR moves on, and at most the tile's list of consumed segments changes in its context. -/
theorem State.ringAdvance_spec (s : State) (t : Nat) :
    (s.ringAdvance t).ringCur t = s.ringNext t (s.ringCur t) ∧ (∃ l, (s.ringAdvance t).tile t = { s.tile t with consumed := l }) ∧
      (s.ringAdvance t).rget (R.SEQ_STATUS t) = s.rget (R.SEQ_STATUS t) := by
  unfold State.ringAdvance
  extract_lets old s₁
  have hcur : s₁.ringCur t = s.ringNext t old :=
    (s.fget_fset_same _ (show 0 ≤ 3 by decide) (show 3 < 32 by decide)).trans (Nat.mod_eq_of_lt (s.ringNext_lt t old))
  have hstatus : s₁.rget (R.SEQ_STATUS t) = s.rget (R.SEQ_STATUS t) :=
    s.rget_fset_other _ (by simp only [R.STRM_STATUS_CUR, R.STRM_STATUS, R.SEQ_STATUS]; omega)
  have htile : s₁.tile t = s.tile t := State.tile_congr (State.fset_tiles ..) t
  clear_value s₁
  split
  · exact ⟨(s₁.ringCur_modTile t t _).trans hcur, ⟨_, by rw [State.tile_modTile, if_pos rfl, htile]⟩, hstatus⟩
  · have hold : old < 16 := field_lt ..
    have hread {a : Nat} (ha : a ≠ (segFld t old).addr) : (s₁.segEmpty t old).rget a = s₁.rget a := s₁.rget_fset_other _ ha
    have hcur' : (s₁.segEmpty t old).ringCur t = s₁.ringCur t := by
      refine State.fget_congr (f := R.STRM_STATUS_CUR t) (hread ?_)
      simp only [R.STRM_STATUS_CUR, R.STRM_STATUS, segFld, R.SEG_STATE]
      omega
    have hempty : (s₁.segEmpty t old).tile t = s₁.tile t := rfl
    exact ⟨hcur'.trans hcur, ⟨(s.tile t).consumed, hempty.trans htile⟩, (hread (segState_ne_status hold).symm).trans hstatus⟩

theorem State.ringFirst_congr {s t : State} {u : Nat} (h : SeqFrame u s t) : t.ringFirst u = s.ringFirst u ∧ t.ringLen u = s.ringLen u := by
  have hcfg : t.rget (R.STRM_CFG u) = s.rget (R.STRM_CFG u) :=
    h.rget (by unfold R.STRM_CFG; omega) (decide_eq_false (by unfold R.STRM_CFG; omega))
  exact ⟨State.fget_congr (f := R.STRM_CFG_RING_FIRST u) hcfg, State.fget_congr (f := R.STRM_CFG_RING_LEN u) hcfg⟩

theorem State.ringAhead_congr {s t : State} {u : Nat} (h : SeqFrame u s t) (a k : Nat) : t.ringAhead u a k = s.ringAhead u a k := by
  obtain ⟨hfirst, hlen⟩ := State.ringFirst_congr h
  simp only [State.ringAhead, hfirst, hlen]

theorem State.ringNext_congr {s t : State} {u : Nat} (h : SeqFrame u s t) (a : Nat) : t.ringNext u a = s.ringNext u a := by
  obtain ⟨hfirst, hlen⟩ := State.ringFirst_congr h
  simp only [State.ringNext, hfirst, hlen]

/-- Execution moves to ring segment `cur`, and the ring advances behind the queued cycles, at once where there are none (R98, R99). -/
def State.switch (s : State) (u cur : Nat) (safe : Bool) : State :=
  let s := s.modTile u fun c => { c with execCur := cur, boundary := some (cur, safe, true) }
  if (s.tile u).queue.isEmpty then s.ringAdvance u
  else s.modTile u fun c => { c with queue := lastRun (fun (r : Run) => { r with switches := r.switches + 1 }) c.queue }

theorem State.switch_spec (s : State) (u cur : Nat) (safe : Bool) :
    ((s.switch u cur safe).tile u).execCur = cur ∧ ((s.switch u cur safe).tile u).boundary = some (cur, safe, true) ∧
      (s.switch u cur safe).rget (R.SEQ_STATUS u) = s.rget (R.SEQ_STATUS u) ∧
      (s.switch u cur safe).ringCur u = if (s.tile u).queue = [] then s.ringNext u (s.ringCur u) else s.ringCur u := by
  unfold State.switch
  extract_lets s₁
  have htile : s₁.tile u = { s.tile u with execCur := cur, boundary := some (cur, safe, true) } := by simp [s₁]
  have hqueue : (s₁.tile u).queue = (s.tile u).queue := by rw [htile]
  split
  · next hq =>
    obtain ⟨hcur, ⟨l, hctx⟩, hstatus⟩ := s₁.ringAdvance_spec u
    have hempty : (s.tile u).queue = [] := by rw [← hqueue]; exact List.isEmpty_iff.1 hq
    exact ⟨by rw [hctx, htile], by rw [hctx, htile], hstatus, hcur.trans (if_pos hempty).symm⟩
  · next hq =>
    have hne : (s.tile u).queue ≠ [] := by rw [← hqueue]; exact fun e => hq (List.isEmpty_iff.2 e)
    refine ⟨?_, ?_, rfl, (s₁.ringCur_modTile u u _).trans (if_neg hne).symm⟩
    · rw [State.tile_modTile, if_pos rfl, htile]
    · rw [State.tile_modTile, if_pos rfl, htile]

/-! ## The instructions -/

section
variable {u : Fin 64} {i : SeqInstr} {s : State}

theorem State.tile_seqNext (s : State) (u n : Nat) : (s.seqNext u).tile n = s.tile n := rfl

theorem regsSame_seqNext (s : State) (u : Nat) : RegsSame (fun a => a == R.SEQ_STATUS u) s (s.seqNext u) :=
  fun _ ha => s.rget_goto u _ (by simpa using ha)

theorem State.tile_zeroed (s : State) (u : Nat) (i : SeqInstr) : ∃ x m, (s.zeroed u i).tile u =
    { s.tile u with execAt := s.execClock u, ex := x, pendMarks := m } := by
  refine ⟨(s.executing u).apgOp u (s.tile u).ex i.apgop, (s.tile u).pendMarks ++ SeqInstrMarks i, ?_⟩
  rw [State.zeroed, ((s.executing u).zeroCycle_spec u i).1, s.tile_executing]

/-- The wait that a WAIT asks for. -/
def SeqInstrWait (i : SeqInstr) : WaitRec :=
  { cond := SeqInstrCond i, count := i.count.toNat, target := i.target.toNat, marks := SeqInstrMarks i }

/-- WAIT and END take their place behind cycles that have not ended. -/
theorem seqLast_waits {f : State → State} {x : Tail} (hf : s.fetching u = true)
    (hctx : ∃ y, (f s).tile u = { s.tile u with ex := y }) (hstate : (f s).stepState u = s.stepState u) (hnow : (f s).now = s.now)
    (h : (s.tile u).queue ≠ [] ∨ s.stepState u = stPending ∨ s.tileTime u s.now < (s.tile u).endE) :
    s.seqLast u (fun s => (f s).putTail u x) = (f s).modTile u fun c => { c with tail := x } := by
  obtain ⟨y, hctx⟩ := hctx
  refine (if_pos hf).trans (State.putTail_waits ?_ x)
  rw [State.tileTime, hnow, hstate, hctx]
  exact h

theorem doWait_waits (hf : s.fetching u = true)
    (h : (s.tile u).queue ≠ [] ∨ s.stepState u = stPending ∨ s.tileTime u s.now < (s.tile u).endE) :
    doWait u i s = (s.apgStep u i.apgop).modTile u fun c => { c with tail := .waiting (SeqInstrWait i) } := by
  obtain ⟨htile, hframe, hregs⟩ := s.apgStep_spec u i.apgop
  have hstatus : apgReg u (R.SEQ_STATUS u) = false := by simp [apgReg, R.APG_X, R.APG_Y, R.LFSR, R.DCTL, R.SEQ_STATUS]
  exact seqLast_waits (f := fun s => s.apgStep u i.apgop) hf ⟨_, htile⟩
    (State.fget_congr (f := R.SEQ_STATUS_STATE u) (hregs _ hstatus)) hframe.now h

theorem doEndStep_waits (hf : s.fetching u = true)
    (h : (s.tile u).queue ≠ [] ∨ s.stepState u = stPending ∨ s.tileTime u s.now < (s.tile u).endE) :
    doEndStep u i s = s.modTile u fun c => { c with tail := .ending (SeqInstrMarks i) } :=
  seqLast_waits (f := id) hf ⟨_, rfl⟩ rfl rfl h

variable (hf : s.fetching u = true) (ht : OnTime s u)
include hf ht

/-- SEGSW moves execution to the next ring segment; the ring advances at once where no cycle is queued. -/
theorem doSegsw_spec (hring : s.ringLen u ≠ 0) :
    (doSegsw u i s).pc u = (s.pc u + 1) % 16384 ∧
      ((doSegsw u i s).tile u).execCur = s.ringAhead u (s.tile u).execCur 1 ∧
      ((doSegsw u i s).tile u).boundary = some (s.ringAhead u (s.tile u).execCur 1, i.ssafe, true) ∧
      (doSegsw u i s).ringCur u = if (s.tile u).queue = [] then s.ringNext u (s.ringCur u) else s.ringCur u := by
  have hring' : (s.executing u).ringLen u ≠ 0 := hring
  obtain ⟨x, m, hz⟩ := s.tile_zeroed u i
  have hgoes := s.zeroed_goes u i
  have hcur : (s.zeroed u i).ringCur u = s.ringCur u := State.fget_congr (f := R.STRM_STATUS_CUR u) (s.rget_zeroed u i (by
    simp [apgReg, R.STRM_STATUS_CUR, R.STRM_STATUS, R.APG_X, R.APG_Y, R.LFSR, R.DCTL]))
  have hahead : (s.zeroed u i).ringAhead u ((s.zeroed u i).tile u).execCur 1 = s.ringAhead u (s.tile u).execCur 1 := by
    rw [State.ringAhead_congr hgoes.frame, hz]
  have hdo : doSegsw u i s = (((s.zeroed u i).switch u (s.ringAhead u (s.tile u).execCur 1) i.ssafe).seqNext u).segSync u := by
    rw [← hahead, doSegsw, State.seq_onTime hf ht]
    exact if_neg hring'
  obtain ⟨hexec, hbound, hstatus, hnext⟩ := (s.zeroed u i).switch_spec u (s.ringAhead u (s.tile u).execCur 1) i.ssafe
  generalize (s.zeroed u i).switch u (s.ringAhead u (s.tile u).execCur 1) i.ssafe = r at *
  have hpc : r.pc u = s.pc u := (State.pc_congr hstatus).trans hgoes.pc
  rw [hdo, State.pc_congr (State.status_segSync ..), State.pc_seqNext, hpc, State.tile_segSync, State.tile_seqNext, State.ringCur_segSync]
  refine ⟨rfl, hexec, hbound, ?_⟩
  have hgoto : (r.seqNext u).ringCur u = r.ringCur u := State.fget_congr (f := R.STRM_STATUS_CUR u) (State.rget_goto _ _ _ (by
    simp only [R.STRM_STATUS_CUR, R.STRM_STATUS, R.SEQ_STATUS]; omega))
  rw [hgoto, hnext, hcur, State.ringNext_congr hgoes.frame, hz]

end

/-! ## The end of a wait (R72) -/

/-- What `firstHold` finds is a tile clock within its bounds at which the condition is seen. -/
theorem State.firstHold_spec {s : State} {u : Nat} {k : Cond} {a b i : Int} (h : s.firstHold u k a b = some i) :
    s.condHolds u k (i - condDelay) = true ∧ a ≤ i ∧ i ≤ b := by
  unfold State.firstHold at h
  refine List.foldlRecOn (motive := fun m : Option Int => ∀ i, m = some i → s.condHolds u k (i - condDelay) = true ∧ a ≤ i ∧ i ≤ b)
    _ _ (fun _ h => absurd h (Option.some_ne_none _).symm) (fun m hm j _ i hi => ?_) i h
  split at hi
  · next hj =>
    obtain ⟨haj, hjb, hseen⟩ := hj
    cases m with
    | none => exact Option.some.inj hi ▸ ⟨hseen, haj, hjb⟩
    | some x =>
      have hi : min x j = i := Option.some.inj hi
      rcases min_choice x j with e | e
      · rw [← hi, e]
        exact hm x rfl
      · rw [← hi, e]
        exact ⟨hseen, haj, hjb⟩
  · exact hm i hi

/-- A wait has ended at `i`: CLRF has acted, the queue is taken as full, and nothing stands behind the queued cycles any more. -/
def State.released (s : State) (u : Nat) (k : Cond) (i : Int) : State :=
  (((s.clearCond u k (i - condDelay)).freshStart u).modTile u fun c => { c with tail := .none, endE := i }).setFlag (R.SEQ_STATUS_WAITING u) false

theorem State.released_spec (s : State) (u : Nat) (k : Cond) (i : Int) :
    Along u s (s.released u k i) (s.pc u) (s.tile u).ex (s.tile u).pendMarks ∧ ((s.released u k i).tile u).tail = .none ∧
      ((s.released u k i).tile u).endE = i ∧ (s.released u k i).flag (R.SEQ_STATUS_WAITING u) = false := by
  have hfresh : Along u s ((s.clearCond u k (i - condDelay)).freshStart u) (s.pc u) (s.tile u).ex (s.tile u).pendMarks := by
    unfold State.freshStart
    exact ((Along.refl s u).clearCond k (i - condDelay)).modTile rfl rfl rfl
  have hends : Along u s (((s.clearCond u k (i - condDelay)).freshStart u).modTile u fun c => { c with tail := .none, endE := i })
    (s.pc u) (s.tile u).ex (s.tile u).pendMarks := hfresh.modTile rfl rfl rfl
  have htile : (s.released u k i).tile u = { ((s.clearCond u k (i - condDelay)).freshStart u).tile u with tail := .none, endE := i } :=
    (State.tile_modTile ((s.clearCond u k (i - condDelay)).freshStart u) u u fun c => { c with tail := .none, endE := i }).trans (if_pos rfl)
  exact ⟨hends.fset_status rfl (show 3 < 16 by decide) (Nat.le_refl 3) _, by rw [htile], by rw [htile],
    State.flag_setFlag_same _ _ (Nat.le_refl 3) (show 3 < 32 by decide)⟩

/-- WAIT_RELEASE of a RUNNING tile by a clock at which the wait can end. -/
theorem doWaitRelease_releases {u : Fin 64} {clock : Nat} {s : State} {w : WaitRec} {d stop : Int} (htail : (s.tile u).tail = .waiting w)
    (hd : w.d = some d) (hrun : s.stepState u = stRunning)
    (hstop : stop = if w.count ≠ 0 ∧ d + w.count * tileClock ≤ tileEdge d + clock * tileClock then d + w.count * tileClock
      else tileEdge d + clock * tileClock)
    (hends : (s.firstHold u w.cond (tileEdge d) stop).isSome = true ∨
      (w.count ≠ 0 ∧ d + w.count * tileClock ≤ tileEdge d + clock * tileClock))
    (hs : s.unseen u (stop - condDelay) = false) :
    let hold := s.firstHold u w.cond (tileEdge d) stop
    let r := s.released u w.cond (hold.getD (d + w.count * tileClock))
    doWaitRelease u clock s = if hold.isSome then r.seqNext u else r.jump u w.target := by
  unfold doWaitRelease
  rw [htail]
  dsimp only
  rw [hd]
  dsimp only
  have hlate : (w.count != 0 && decide (d + w.count * tileClock ≤ tileEdge d + clock * tileClock)) =
      decide (w.count ≠ 0 ∧ d + w.count * tileClock ≤ tileEdge d + clock * tileClock) := by
    rw [Bool.eq_iff_iff]
    simp
  rw [hlate]
  simp only [decide_eq_true_eq, ← hstop]
  rw [if_neg]
  · rfl
  · rcases hends with h | h <;> simp [hrun, hs, h]

end Sys2Proof.Machine
end
section
/-! SUPPORT. What capture, triggers, masks, stops and the end of issue leave alone: the step of every tile, what waits for a step boundary, and the
strobes of every channel, of which none is added (05_timing.md R130; 07_time_measurement.md R172 to R187; 08_acquisition.md R192 to R213). -/

namespace Sys2Proof.Machine

/-- An address that no tile has its SEQ_STATUS at. -/
def OffStatus (a : Nat) : Prop := ∀ u, u < 64 → a ≠ R.SEQ_STATUS u

theorem OffStatus.tile {t o : Nat} (h : o ≠ 4 ∧ o < 0x10000) : OffStatus (0x100000 + t * 0x10000 + o) :=
  fun _ _ => tileReg_ne_status h.1 h.2

theorem OffStatus.chan {ch o : Nat} : OffStatus (0x500000 + ch * 0x400 + o) := fun _ hu => chanReg_ne_status hu

theorem OffStatus.chip {a : Nat} (h : a < 0x100000) : OffStatus a := fun _ _ => chipReg_ne_status h

theorem OffStatus.seg {t i : Nat} (h : i < 16) : OffStatus (R.SEG_STATE t (i / 8)) := fun _ _ => segState_ne_status h

/-- What waits for a step boundary, and the last edges of TRIG_IN. -/
def State.awaited (s : State) : List SoftRepair × List FenceReq × List (Nat × Nat) × List (Nat × Bool) × Store (Option Nat) :=
  (s.soft, s.fenceReq, s.unfenceReq, s.coreDue, s.trigIn)

@[simp] theorem State.awaited_modTile (s : State) (n : Nat) (f : TileCtx → TileCtx) : (s.modTile n f).awaited = s.awaited := rfl

/-- The tiles play on: no tile's step and no end status changes, nothing more waits for a step boundary, and no channel has a new strobe. -/
structure PlaysOn (s t : State) : Prop where
  step : ∀ u, u < 64 → StepSame u s t
  endStatus : ∀ u, (t.tile u).endStatus = (s.tile u).endStatus
  awaited : t.awaited = s.awaited
  strobes : ∀ ch, (t.chan ch).strobes ⊆ (s.chan ch).strobes

namespace PlaysOn

variable {s₀ s t : State}

theorem refl (s : State) : PlaysOn s s := ⟨fun _ _ => .refl s, fun _ => rfl, rfl, fun _ => List.Subset.refl _⟩

theorem trans (h : PlaysOn s₀ s) (k : PlaysOn s t) : PlaysOn s₀ t :=
  ⟨fun u hu => (h.step u hu).trans (k.step u hu), fun u => (k.endStatus u).trans (h.endStatus u), k.awaited.trans h.awaited,
    fun ch _ hx => h.strobes ch (k.strobes ch hx)⟩

/-- An update of the registers, the memory and other fields that no step rests on. -/
theorem upd (h : PlaysOn s₀ s) (ht : t.tiles = s.tiles) (hc : t.chans = s.chans) (hw : t.awaited = s.awaited)
    (hs : ∀ u, u < 64 → t.rget (R.SEQ_STATUS u) = s.rget (R.SEQ_STATUS u)) : PlaysOn s₀ t :=
  have hchan (ch : Nat) : t.chan ch = s.chan ch := by
    rw [State.chan, hc]
    rfl
  h.trans ⟨fun u hu => ⟨hs u hu, congrArg _ (State.tile_congr ht u)⟩, fun u => congrArg _ (State.tile_congr ht u), hw,
    fun ch => hchan ch ▸ List.Subset.refl _⟩

theorem of_counts (h : PlaysOn s₀ s) (k : Counts s t) : PlaysOn s₀ t :=
  h.upd k.tiles k.chans (congrArg State.awaited k.same :) fun _ _ => (StepSame.of_counts k).status

theorem of_reports {p : Nat → Bool} (h : PlaysOn s₀ s) (k : Reports p s t) (hp : ∀ u, p (R.SEQ_STATUS u) = false) : PlaysOn s₀ t :=
  h.upd k.tiles k.chans (congrArg State.awaited k.same :) fun u _ => k.rget (by unfold R.SEQ_STATUS; omega) (hp u)

theorem ite {c : Prop} [Decidable c] {a b : State} (ha : PlaysOn s a) (hb : PlaysOn s b) : PlaysOn s (if c then a else b) := by
  split
  · exact ha
  · exact hb

/-- What is done only on a condition. -/
theorem when {c : Prop} [Decidable c] (h : PlaysOn s₀ s) (step : PlaysOn s₀ s → PlaysOn s₀ t) : PlaysOn s₀ (if c then t else s) :=
  .ite (step h) h

theorem foldl {α : Type} {l : List α} {f : State → α → State} (h : PlaysOn s₀ s)
    (step : ∀ {s}, ∀ a ∈ l, PlaysOn s₀ s → PlaysOn s₀ (f s a)) : PlaysOn s₀ (l.foldl f s) :=
  List.foldlRecOn l f h fun _ hb a ha => step a ha hb

theorem rset (h : PlaysOn s₀ s) {a : Nat} (ha : OffStatus a) (v : Word) : PlaysOn s₀ (s.rset a v) :=
  h.upd rfl rfl rfl fun u hu => State.rget_rset_other _ _ (ha u hu).symm

theorem fset (h : PlaysOn s₀ s) {f : Fld} (hf : OffStatus f.addr) (v : Nat) : PlaysOn s₀ (s.fset f v) := h.rset hf _

theorem setFlag (h : PlaysOn s₀ s) {f : Fld} (hf : OffStatus f.addr) (b : Bool) : PlaysOn s₀ (s.setFlag f b) := h.fset hf _

theorem count (h : PlaysOn s₀ s) {f : Fld} (hf : OffStatus f.addr) (k : Nat) : PlaysOn s₀ (s.count f k) := h.fset hf _

theorem setPair (h : PlaysOn s₀ s) {lo hi : Nat} (hl : OffStatus lo) (hh : OffStatus hi) (v : Nat) : PlaysOn s₀ (s.setPair lo hi v) :=
  (h.rset hl _).rset hh _

theorem modTile (h : PlaysOn s₀ s) (n : Nat) {f : TileCtx → TileCtx}
    (hf : ∀ c, ((f c).stepPart, (f c).endStatus) = (c.stepPart, c.endStatus)) : PlaysOn s₀ (s.modTile n f) := by
  refine h.trans ⟨fun _ _ => (StepSame.refl s).modTile n fun c => congrArg Prod.fst (hf c), fun u => ?_, rfl, fun _ => List.Subset.refl _⟩
  rw [State.tile_modTile]
  split
  · next e => exact e ▸ congrArg Prod.snd (hf _)
  · rfl

theorem modChan_subset (h : PlaysOn s₀ s) (n : Nat) {f : ChanCtx → ChanCtx} (hf : ∀ c, (f c).strobes ⊆ c.strobes) :
    PlaysOn s₀ (s.modChan n f) := by
  refine h.trans ⟨fun _ _ => ⟨rfl, rfl⟩, fun _ => rfl, rfl, fun ch => ?_⟩
  rw [State.chan_modChan]
  split
  · next e => exact e ▸ hf _
  · exact List.Subset.refl _

theorem modChan (h : PlaysOn s₀ s) (n : Nat) {f : ChanCtx → ChanCtx} (hf : ∀ c, (f c).strobes = c.strobes) : PlaysOn s₀ (s.modChan n f) :=
  h.modChan_subset n fun c _ hx => hf c ▸ hx

theorem mwrite (h : PlaysOn s₀ s) (p n o : Nat) (l : List Byte) : PlaysOn s₀ (s.mwrite p n o l) :=
  h.upd (by simp) (by simp) (by simp [State.awaited]) fun _ _ => State.rget_congr (by simp) _

theorem suspectFlag (h : PlaysOn s₀ s) (n k : Nat) : PlaysOn s₀ (s.suspectFlag n k) := h.modTile n fun _ => by rfl

theorem indChan (h : PlaysOn s₀ s) (ch : Nat) : PlaysOn s₀ (s.indChan ch) := by
  unfold State.indChan
  exact h.modTile (ch / 16) fun _ => by rfl

/-! ## Records (R192 to R201, R211 to R213) -/

theorem recStamp (h : PlaysOn s₀ s) (n time : Nat) : PlaysOn s₀ (s.recStamp n time) := by
  unfold State.recStamp
  exact h.modTile n fun _ => by rfl

theorem ringPut (h : PlaysOn s₀ s) (n : Nat) (w0 w1 w2 w3 : Word) : PlaysOn s₀ (s.ringPut n w0 w1 w2 w3) := by
  unfold State.ringPut
  exact (((h.mwrite ..).modTile n fun _ => by rfl).fset (.tile (by decide)) _).fset (.tile (by decide)) _

theorem putAnchor (h : PlaysOn s₀ s) (n cyc time : Nat) (step : Bool) : PlaysOn s₀ (s.putAnchor n cyc time step) := by
  unfold State.putAnchor
  exact ((h.recStamp n time).ringPut n _ _ _ _).modTile n fun _ => by rfl

theorem putCrevasse (h : PlaysOn s₀ s) (n : Nat) (g : Gap) : PlaysOn s₀ (s.putCrevasse n g) := by
  unfold State.putCrevasse
  exact ((((h.recStamp n g.start).ringPut n _ _ _ _).modTile n fun _ => by rfl).setFlag (.tile (by decide)) _).count (.tile (by decide)) _

theorem lose (h : PlaysOn s₀ s) (n : Nat) (r : CapRec) (cause : Nat) : PlaysOn s₀ (s.lose n r cause) := by
  unfold State.lose
  exact (((h.modTile n fun _ => by rfl).setFlag (.tile (by decide)) _).count (.tile (by decide)) _).suspectFlag n _

theorem putRecord (h : PlaysOn s₀ s) (n : Nat) (r : CapRec) : PlaysOn s₀ (s.putRecord n r) := by
  have put {x : State} (k : PlaysOn s₀ x) (w : Word × Word × Word × Word) :
      PlaysOn s₀ ((x.recStamp n r.time).ringPut n w.1 w.2.1 w.2.2.1 w.2.2.2) := (k.recStamp n r.time).ringPut n _ _ _ _
  unfold State.putRecord
  refine .ite h (.ite ((h.modTile n fun _ => by rfl).lose n r 3) ?_)
  dsimp only
  split
  · exact .ite (put ((h.putCrevasse n _).putAnchor n _ _ _) _) (h.lose n r 1)
  · exact .ite (.ite (put (h.putAnchor n _ _ _) _) (h.lose n r 1)) (.ite (put h _) (h.lose n r 1))

theorem beginHold (h : PlaysOn s₀ s) (n : Nat) (i : Int) : PlaysOn s₀ (s.beginHold n i) := by
  unfold State.beginHold
  exact h.modTile n fun _ => by rfl

theorem endFrame (h : PlaysOn s₀ s) (n : Nat) (i : Int) : PlaysOn s₀ (s.endFrame n i) := by
  unfold State.endFrame
  extract_lets s₁ s₂ lim
  have h₂ : PlaysOn s₀ s₂ := ((h.modTile n fun _ => by rfl).setFlag (.tile (by decide)) _).beginHold n i
  exact .ite (h₂.setFlag (.tile (by decide)) _) h₂

theorem frameRecord (h : PlaysOn s₀ s) (n : Nat) (f : FrameCtx) (r : CapRec) : PlaysOn s₀ (s.frameRecord n f r) := by
  unfold State.frameRecord
  have hput := (h.putRecord n r).modTile n (f := fun c => { c with cap := { c.cap with frame := some { f with postLeft := f.postLeft - 1 } } })
    fun _ => rfl
  exact .ite (.ite (h.lose n r 2) h) (.ite (.ite h (.ite (hput.endFrame n _) hput)) (.ite ((h.putRecord n r).modTile n fun _ => by rfl) h))

theorem lateRecord (h : PlaysOn s₀ s) (n : Nat) (f : FrameCtx) (r : CapRec) : PlaysOn s₀ (s.lateRecord n f r) :=
  .ite ((h.putRecord n r).modTile n fun _ => by rfl) h

theorem pendRecord (h : PlaysOn s₀ s) (n : Nat) (r : CapRec) : PlaysOn s₀ (s.pendRecord n r) := by
  unfold State.pendRecord
  exact h.modTile n fun _ => by rfl

theorem stageSlot (h : PlaysOn s₀ s) (n : Nat) (i : Int) : PlaysOn s₀ (s.stageSlot n i).1 := by
  unfold State.stageSlot
  dsimp only
  exact h.modTile n fun _ => by rfl

theorem record (h : PlaysOn s₀ s) (n : Nat) (r : CapRec) (i : Int) : PlaysOn s₀ (s.record n r i) := by
  unfold State.record
  refine .ite h ?_
  split
  · exact h
  · next r _ =>
    extract_lets s₁
    have h₁ : PlaysOn s₀ s₁ := .ite (h.modTile n fun _ => by rfl) h
    have h₂ := h₁.stageSlot n i
    refine .ite (.ite (h₂.putRecord n r) (.ite h₂ (h₂.lose n r 2))) (.ite h₂ ?_)
    split
    · exact .ite (h₂.frameRecord n _ r) (.ite (h₂.lose n r 2) h₂)
    · exact .ite (.ite (h₂.lateRecord n _ r) (.ite (h₂.lose n r 2) h₂)) (.ite h₂ (.ite (h₂.pendRecord n _) h₂))
    · exact .ite h₂ (h₂.pendRecord n _)

/-! ## Frames and triggers (R203 to R210) -/

theorem headAnchor (h : PlaysOn s₀ s) (n : Nat) (g : Gap) : PlaysOn s₀ (s.headAnchor n g) := .ite h (h.putAnchor n _ _ _)

theorem putPre (h : PlaysOn s₀ s) (n : Nat) (first : Bool) (gap : Option Gap) (l : List CapRec) : PlaysOn s₀ (s.putPre n first gap l) := by
  induction l generalizing s first gap with
  | nil => exact h
  | cons r l ih =>
    unfold State.putPre
    refine .ite ?_ (ih (h.putRecord n r) _ _)
    split
    · exact ih (((h.headAnchor n _).putCrevasse n _).fset (.tile (by decide)) _) _ _
    · exact ih h _ _

theorem putTrig (h : PlaysOn s₀ s) (n : Nat) (i : Int) (pre : Nat) : PlaysOn s₀ (s.putTrig n i pre) := by
  unfold State.putTrig
  split
  · exact h
  · have h₁ := h.stageSlot n i
    exact .ite (h₁.putRecord n _) (.ite h₁ (h₁.lose n _ 2))

theorem frameHead (h : PlaysOn s₀ s) (n : Nat) (i : Int) (before : List CapRec) : PlaysOn s₀ (s.frameHead n i before) := by
  unfold State.frameHead
  extract_lets _ s₁ kept blank lost s₂ m s₃ post s₄
  have h₁ : PlaysOn s₀ s₁ := h.modTile n fun _ => by rfl
  have h₂ : PlaysOn s₀ s₂ := h₁.putPre n true _ kept
  have h₃ : PlaysOn s₀ s₃ := h₂.putTrig n i m
  have h₄ : PlaysOn s₀ s₄ := h₃.modTile n fun _ => by rfl
  exact .ite (h₄.endFrame n i) (h₄.setFlag (.tile (by decide)) _)

theorem pulseOut (h : PlaysOn s₀ s) (n : Nat) (i : Int) : PlaysOn s₀ (s.pulseOut n i) :=
  h.foldl fun _ _ k => .ite (k.upd rfl rfl rfl fun _ _ => rfl) k

theorem maskMeet (h : PlaysOn s₀ s) (n : Nat) (v : Int) (time : Nat) (last : Int) : PlaysOn s₀ (s.maskMeet n v time last) := by
  unfold State.maskMeet
  split
  · exact h
  · refine .ite h ?_
    extract_lets s₁ w0 upper lower side s₂ s₃ s₄ s₅
    have h₁ : PlaysOn s₀ s₁ := h.modTile n fun _ => by rfl
    have h₂ : PlaysOn s₀ s₂ := h₁.record n _ _
    have h₃ : PlaysOn s₀ s₃ := ((h₂.setFlag (.tile (by decide)) _).setFlag (.tile (by decide)) _).fset (.tile (by decide)) _
    have h₄ : PlaysOn s₀ s₄ := h₃.setFlag (.tile (by decide)) _
    have h₅ : PlaysOn s₀ s₅ := .ite (.ite (h₄.endFrame n _) h₄) h₃
    exact .ite h₁ (.ite (h₁.count (.tile (by decide)) _) (.ite (h₅.modTile n fun _ => by rfl) h₅))

theorem maskDecide (h : PlaysOn s₀ s) (n : Nat) (time : Int) : PlaysOn s₀ (s.maskDecide n time) :=
  .ite h ((h.modTile n fun _ => by rfl).foldl fun x _ k => k.maskMeet n x.1 x.2.1 x.2.2)

theorem maskStart (h : PlaysOn s₀ s) (n kind : Nat) (i : Int) : PlaysOn s₀ (s.maskStart n kind i) := .ite (h.modTile n fun _ => by rfl) h

theorem writeFrame (h : PlaysOn s₀ s) (n : Nat) (i : Int) : PlaysOn s₀ (s.writeFrame n i) := by
  unfold State.writeFrame
  refine ((h.frameHead n i _).maskStart n 0 i).foldl fun r _ k => ?_
  have k := k.maskDecide n r.time
  refine .ite k ?_
  split
  · exact k.frameRecord n _ r
  · exact .ite k (k.pendRecord n r)

theorem takeTrigger (h : PlaysOn s₀ s) (n : Nat) (i : Int) : PlaysOn s₀ (s.takeTrigger n i) := by
  unfold State.takeTrigger
  have hcount := ((h.modTile n (f := fun c => { c with cap := { c.cap with trigs := c.cap.trigs + 1 } })
    fun _ => rfl).count
    (f := R.CAP_STATUS_FRAMES n) (.tile (by decide)) 1).pulseOut n i
  exact .ite ((hcount.beginHold n i).maskStart n 0 i) (.ite (((hcount.putTrig n i 0).beginHold n i).maskStart n 0 i) (hcount.writeFrame n i))

theorem trigEvent (h : PlaysOn s₀ s) (n : Nat) (i : Int) : PlaysOn s₀ (s.trigEvent n i) := by
  unfold State.trigEvent
  exact .ite h (.ite h (.ite (h.count (.tile (by decide)) _) (.ite (h.takeTrigger n i) ((h.modTile n fun _ => by rfl).count (.tile (by decide)) _))))

theorem settleTrigs (h : PlaysOn s₀ s) (n : Nat) (i : Int) : PlaysOn s₀ (s.settleTrigs n i) :=
  .ite h ((h.modTile n fun _ => by rfl).foldl fun x _ k => k.trigEvent n x)

theorem putWaves (h : PlaysOn s₀ s) (n : Nat) (bound i : Int) : PlaysOn s₀ (s.putWaves n bound i) :=
  .ite h ((h.modTile n fun _ => by rfl).foldl fun r _ k => k.record n r i)

theorem endCapture (h : PlaysOn s₀ s) (n : Nat) (i : Int) : PlaysOn s₀ (s.endCapture n i) := by
  unfold State.endCapture
  extract_lets s₁ s₂ s₃
  have h₁ : PlaysOn s₀ s₁ := ((h.settleTrigs n _).putWaves n _ i).maskDecide n _
  have h₂ : PlaysOn s₀ s₂ := .ite (h₁.endFrame n i) h₁
  have h₃ : PlaysOn s₀ s₃ := h₂.modTile n fun _ => by rfl
  split
  · exact .ite (h₃.putCrevasse n _) h₃
  · exact h₃

end PlaysOn
end Sys2Proof.Machine
end
section
/-! SUPPORT. The end of issue leaves every tile's step alone and takes strobes only away: drops, stop windows, stops and their attributions
(05_timing.md R128 to R131; 07_time_measurement.md R172 to R187). -/

namespace Sys2Proof.Machine.PlaysOn

variable {s₀ s t : State}

/-! ## Events (18_moraine_counters.md R425, R428) -/

theorem bumpSnap (h : PlaysOn s₀ s) {m : Nat} (hm : m < 64) (k fuel : Nat) : PlaysOn s₀ (s.bumpSnap m k fuel) := by
  induction fuel generalizing s m k with
  | zero => exact h
  | succ fuel ih =>
    unfold State.bumpSnap
    have hset := h.rset (a := R.PCNT_SNAP m) (.chip (by unfold R.PCNT_SNAP; omega)) (BitVec.ofNat 32 ((s.rget (R.PCNT_SNAP m)).toNat + k))
    dsimp only
    split
    · next hc => exact ih hset hc.2.1 _
    · exact hset

theorem lateEv (h : PlaysOn s₀ s) (n k : Nat) : PlaysOn s₀ (s.lateEv n k) := by
  unfold State.lateEv
  refine .ite h ?_
  extract_lets s₁
  have h₁ : PlaysOn s₀ s₁ := h.upd rfl rfl rfl fun _ _ => rfl
  refine h₁.foldl fun c hc k => ?_
  exact .when k fun k => k.bumpSnap (State.pcntConfigured_lt hc) _ _

theorem tileEv (h : PlaysOn s₀ s) (n k : Nat) (i : Int) (m : Nat) : PlaysOn s₀ (s.tileEv n k i m) := by
  unfold State.tileEv
  exact .ite h ((h.of_counts (State.evCount_counts ..)).lateEv _ _)

/-! ## Drops (05_timing.md R128 to R131) -/

theorem drop (h : PlaysOn s₀ s) (ch edge cyc : Nat) (cause : DropCause) (window : Bool) : PlaysOn s₀ (s.drop ch edge cyc cause window) := by
  unfold State.drop
  extract_lets n c s₁ s₂ s₃
  have h₁ : PlaysOn s₀ s₁ := .ite ((h.rset (.tile (by decide)) _).setPair (.tile (by decide)) (.tile (by decide)) _) h
  have h₂ : PlaysOn s₀ s₂ := (h₁.count (.tile (by decide)) 1).rset (.tile (by decide)) _
  have h₃ : PlaysOn s₀ s₃ := h₂.suspectFlag n _
  exact .ite h₃ (h₃.indChan ch)

theorem cycRecords (h : PlaysOn s₀ s) (n : Nat) (i : Int) : PlaysOn s₀ (s.cycRecords n i) := by
  unfold State.cycRecords
  exact (h.modTile n fun _ => by rfl).foldl fun r _ k => .when (.when k fun k => k.record n _ i) fun k => k.record n _ i

theorem dropStrobe (h : PlaysOn s₀ s) (ch : Nat) (x : Strobe) (edge : Nat) (cause : DropCause) : PlaysOn s₀ (s.dropStrobe ch x edge cause) := by
  unfold State.dropStrobe
  have hdrop := (h.drop ch edge x.cyc cause (x.expect == .profile || x.expect == .capture)).modChan ch
    (f := fun c => { c with wins := c.wins.filter fun w => !(w.ofStrobe && w.cyc == x.cyc) }) fun _ => rfl
  exact .ite hdrop ((hdrop.modTile (ch / 16) fun _ => by rfl).cycRecords _ _)

/-! ## Stop windows (07_time_measurement.md R173 to R175) -/

theorem openWindow (h : PlaysOn s₀ s) (ch : Nat) (w : Win) : PlaysOn s₀ (s.openWindow ch w) := by
  unfold State.openWindow
  extract_lets rest live third rest' s₁ s₂
  have h₁ : PlaysOn s₀ s₁ := h.modChan ch fun _ => by rfl
  have h₂ : PlaysOn s₀ s₂ := .ite (h₁.count .chan 1) h₁
  exact .ite (h₂.count .chan 1) h₂

theorem openDue (h : PlaysOn s₀ s) (ch : Nat) (i : Int) : PlaysOn s₀ (s.openDue ch i) := h.foldl fun w _ k => k.openWindow ch w

theorem closeWindows (h : PlaysOn s₀ s) (ch : Nat) (e : Int) : PlaysOn s₀ (s.closeWindows ch e) := by
  unfold State.closeWindows
  exact ((h.openDue ch _).modChan ch fun _ => by rfl).foldl fun _ _ k => k.count .chan 1

/-! ## Attributions and stops (07_time_measurement.md R172, R176, R181 to R187) -/

theorem histogram (h : PlaysOn s₀ s) (ch cls : Nat) (x i : Int) : PlaysOn s₀ (s.histogram ch cls x i) := by
  unfold State.histogram
  extract_lets n lane b off m s₁ s₂
  have h₁ : PlaysOn s₀ s₁ := .ite ((h.setFlag (.tile (by decide)) _).setFlag .chan _) (h.mwrite ..)
  have h₂ : PlaysOn s₀ s₂ := .ite (h₁.setFlag (.tile (by decide)) _) h₁
  exact .ite (h₂.setFlag (.tile (by decide)) _) h₂

theorem derive (h : PlaysOn s₀ s) (ch : Nat) {a : Nat} (ha : OffStatus a) (v : Int) (better : Int → Int → Bool) :
    PlaysOn s₀ (s.derive ch a v better) := by
  unfold State.derive
  extract_lets v w s₁
  have h₁ : PlaysOn s₀ s₁ := .ite h (h.setFlag .chan _)
  exact .ite (h₁.rset ha _) h₁

theorem derived (h : PlaysOn s₀ s) (ch cls : Nat) (x w : Int) : PlaysOn s₀ (s.derived ch cls x w) := by
  have pick (o o' : Nat) : OffStatus (if cls = 0 then 0x500000 + ch * 0x400 + o else 0x500000 + ch * 0x400 + o') := by
    split
    · exact .chan
    · exact .chan
  unfold State.derived
  extract_lets less more s₁ s₂ s₃ s₄
  have h₁ : PlaysOn s₀ s₁ := h.derive ch (pick _ _) x less
  have h₂ : PlaysOn s₀ s₂ := h₁.derive ch (pick _ _) x more
  have h₃ : PlaysOn s₀ s₃ := .ite (h₂.derive ch .chan _ less) h₂
  have h₄ : PlaysOn s₀ s₄ := .ite (h₃.derive ch .chan _ less) h₃
  exact .ite (h₄.count .chan 1) h₄

theorem stopStarts (h : PlaysOn s₀ s) (ch : Nat) (i : Int) : PlaysOn s₀ (s.stopStarts ch i) :=
  h.foldl fun c _ k => .ite ((k.modChan c fun _ => by rfl).openDue c _) k

theorem takeStop (h : PlaysOn s₀ s) (ch : Nat) (falling : Bool) (u : Int) : PlaysOn s₀ (s.takeStop ch falling u) := by
  unfold State.takeStop
  extract_lets i s₁ c wins dead s₂ s₃
  have h₁ : PlaysOn s₀ s₁ := h.openDue ch i
  have h₂ : PlaysOn s₀ s₂ := ((h₁.modChan ch fun _ => by rfl).count .chan 1).tileEv _ 3 i 1
  have h₃ : PlaysOn s₀ s₃ := h₂.foldl fun w _ k =>
    .when (.when (.when (.when (.when k fun k => k.setFlag .chan _) fun k => k.setFlag .chan _) fun k => k.histogram ch _ _ i)
      fun k => k.derived ch _ _ _) fun k => k.record _ _ i
  exact .ite h₁ (.ite (h₁.count .chan 1) (.ite h₁ (h₃.stopStarts ch i)))

theorem takeStops (h : PlaysOn s₀ s) (n : Nat) (all : Bool) (l : List (Nat × Bool × Int)) : PlaysOn s₀ (State.takeStops n all l s) := by
  induction l generalizing s with
  | nil => exact h.modTile n fun _ => by rfl
  | cons x l ih => exact .ite (ih (h.takeStop x.1 x.2.1 x.2.2)) (h.modTile n fun _ => by rfl)

theorem settleStops (h : PlaysOn s₀ s) (n : Nat) (all : Bool) : PlaysOn s₀ (s.settleStops n all) := .ite h (h.takeStops n all _)

theorem strobes_act (c : ChanCtx) (l : List Edge) : (l.foldl ChanCtx.act c).strobes = c.strobes :=
  List.foldlRecOn (motive := fun x => x.strobes = c.strobes) l ChanCtx.act rfl fun x hc e _ =>
    (rfl : (x.act e).strobes = x.strobes).trans hc

theorem stopIssue (h : PlaysOn s₀ s) (n : Nat) (e : Int) : PlaysOn s₀ (s.stopIssue n e) := by
  unfold State.stopIssue
  refine ((h.foldl fun ch _ k => ?_).settleStops n true).foldl fun ch _ k => k.closeWindows ch e
  extract_lets l s₁ s₂
  have h₁ : PlaysOn s₀ s₁ := k.foldl fun x _ k => k.drop ch x.idx x.cyc .hold false
  have h₂ : PlaysOn s₀ s₂ := h₁.modChan ch fun c => strobes_act c _
  refine h₂.foldl fun x _ k => ?_
  split
  · exact (k.modChan_subset ch fun c => List.filter_sublist.subset).dropStrobe ch x _ .hold
  · exact k

/-! ## The end of a tile's step (01_architecture.md R24; 06_pin_electronics.md R136; 15_safety_faults.md R379) -/

theorem showApg (h : PlaysOn s₀ s) (n : Nat) (x : Apg) : PlaysOn s₀ (s.showApg n x) := by
  unfold State.showApg
  exact (((h.fset (.tile (by decide)) _).fset (.tile (by decide)) _).rset (.tile (by decide)) _).setFlag (.tile (by decide)) _

theorem segSync (h : PlaysOn s₀ s) (n : Nat) : PlaysOn s₀ (s.segSync n) := h.of_reports (s.segSync_reports n) (segReg_status n)

theorem segEnd (h : PlaysOn s₀ s) (n : Nat) : PlaysOn s₀ (s.segEnd n) := by
  unfold State.segEnd
  refine PlaysOn.modTile (h.foldl fun i hi k => ?_) n fun _ => rfl
  have hoff : OffStatus (segFld n i).addr := .seg (List.mem_range.1 hi)
  exact .ite (.ite ((k.fset hoff _).upd rfl rfl rfl fun _ _ => rfl) (k.fset hoff _)) k

theorem strmLeave (h : PlaysOn s₀ s) (n : Nat) : PlaysOn s₀ (s.strmLeave n) := h.foldl fun _ _ k => k.upd rfl rfl rfl fun _ _ => rfl

theorem setKnown (h : PlaysOn s₀ s) (ch : Nat) (hi lo : Bool) : PlaysOn s₀ (s.setKnown ch hi lo) := by
  unfold State.setKnown State.syncCmp
  exact ((h.setFlag .chan _).setFlag .chan _).fset .chan _

theorem chSafe (h : PlaysOn s₀ s) (ch : Nat) : PlaysOn s₀ (s.chSafe ch) := by
  unfold State.chSafe State.reach State.openGate
  extract_lets s₁ s₂ s₃
  have h₁ : PlaysOn s₀ s₁ := ((h.modChan ch fun _ => by rfl).modChan ch fun _ => by rfl).modChan ch fun _ => by rfl
  have h₂ : PlaysOn s₀ s₂ := (((h₁.setFlag .chan _).setFlag .chan _).setFlag .chan _).setKnown ch _ _
  have h₃ : PlaysOn s₀ s₃ := h₂.setFlag .chan _
  exact .ite h₃ (h₃.setFlag .chan _)

end Sys2Proof.Machine.PlaysOn
end
section
/-! SUPPORT. The end of a tile's step behind its last cycle, while another tile of its group runs (01_architecture.md R24; 03_sequencer.md R69). -/

namespace Sys2Proof.Machine

variable {s t : State}

/-- A tile's step has ended: what its context and its registers show then. -/
structure Ended (u : Nat) (st : BitVec 8) (cause : Nat) (s t : State) : Prop where
  state : t.stepState u = stEnded
  endStatus : (t.tile u).endStatus = st
  cause : t.fget (R.SEQ_STATUS_CAUSE u) = cause
  group : (t.tile u).group = (s.tile u).group
  other : ∀ v, v < 64 → v ≠ u → StepSame v s t
  awaited : t.awaited = s.awaited

theorem Ended.of_playsOn {u : Nat} (hu : u < 64) {st : BitVec 8} {cause : Nat} {s₀ : State} (h : Ended u st cause s₀ s) (k : PlaysOn s t) :
    Ended u st cause s₀ t where
  state := (k.step u hu).stepState.trans h.state
  endStatus := (k.endStatus u).trans h.endStatus
  cause := (State.fget_congr (k.step u hu).status).trans h.cause
  group := (k.step u hu).group.trans h.group
  other v hv hne := (h.other v hv hne).trans (k.step v hv)
  awaited := k.awaited.trans h.awaited

/-- The registers of a tile show that its step has ended. -/
def State.showEnded (s : State) (u cause : Nat) : State :=
  (((s.fset (R.SEQ_STATUS_CAUSE u) cause).setFlag (R.SEQ_STATUS_STALLED u) false).setFlag (R.SEQ_STATUS_WAITING u) false).fset
    (R.SEQ_STATUS_STATE u) stEnded

theorem State.tile_showEnded (s : State) (u cause n : Nat) : (s.showEnded u cause).tile n = s.tile n := rfl

theorem State.awaited_showEnded (s : State) (u cause : Nat) : (s.showEnded u cause).awaited = s.awaited := rfl

theorem State.cause_showEnded (s : State) (u : Nat) {cause : Nat} (hc : cause < 16) :
    (s.showEnded u cause).fget (R.SEQ_STATUS_CAUSE u) = cause := by
  unfold State.showEnded
  have hle : (R.SEQ_STATUS_CAUSE u).lo ≤ (R.SEQ_STATUS_CAUSE u).hi := show 8 ≤ 11 by decide
  calc _ = _ := State.fget_fset_disjoint _ _ (.inr (show 2 < 8 by decide)) (Nat.zero_le 2) hle
    _ = _ := State.fget_fset_disjoint _ _ (.inr (show 3 < 8 by decide)) (Nat.le_refl 3) hle
    _ = _ := State.fget_fset_disjoint _ _ (.inr (show 4 < 8 by decide)) (Nat.le_refl 4) hle
    _ = cause % 2 ^ 4 := State.fget_fset_same _ _ hle (show 11 < 32 by decide)
    _ = cause := Nat.mod_eq_of_lt hc

theorem StepSame.showEnded {s₀ : State} {u v : Nat} (h : StepSame v s₀ s) (hne : v ≠ u) (cause : Nat) :
    StepSame v s₀ (s.showEnded u cause) := by
  have haddr : R.SEQ_STATUS u ≠ R.SEQ_STATUS v := by unfold R.SEQ_STATUS; omega
  have hstalled := (h.fset (f := R.SEQ_STATUS_CAUSE u) haddr cause).setFlag (f := R.SEQ_STATUS_STALLED u) haddr false
  exact (hstalled.setFlag (f := R.SEQ_STATUS_WAITING u) haddr false).fset haddr stEnded

theorem Ended.behind {u : Nat} (hu : u < 64) {st : BitVec 8} {cause : Nat} {s₀ : State} (h : PlaysOn s₀ s) (k : Ended u st cause s t) :
    Ended u st cause s₀ t :=
  { k with
    group := k.group.trans (h.step u hu).group
    other := fun v hv hne => (h.step v hv).trans (k.other v hv hne)
    awaited := k.awaited.trans h.awaited }

theorem State.endTile_ended {u : Nat} (hu : u < 64) (s : State) (st : BitVec 8) {cause : Nat} (hc : cause < 16) :
    Ended u st cause s (s.endTile u st cause) := by
  unfold State.endTile
  extract_lets c e s₁ ind s₂ s₃ s₄ s₅ s₆
  have h₁ : PlaysOn s s₁ := .when (.refl s) fun k => (k.stopIssue u e).endCapture u e
  have h₂ : PlaysOn s s₂ := h₁.foldl fun ch _ k => .when k fun k => k.modChan ch fun _ => by rfl
  have h₃ : PlaysOn s s₃ := .when h₂ fun k => k.foldl fun ch _ k => .when k fun k => k.modChan ch fun _ => by rfl
  have h₄ : PlaysOn s s₄ := .when h₃ fun k => k.showApg u _
  have h₅ : PlaysOn s ((s₄.segEnd u).strmLeave u) := (h₄.segEnd u).strmLeave u
  have htile (f : TileCtx → TileCtx) :
      (((s₄.segEnd u).strmLeave u).modTile u f).tile u = f (((s₄.segEnd u).strmLeave u).tile u) :=
    (State.tile_modTile ..).trans (if_pos rfl)
  have hends : Ended u st cause s (s₅.showEnded u cause) :=
    { state := State.fset_state_own _ _ (by decide)
      endStatus := (congrArg TileCtx.endStatus (s₅.tile_showEnded u cause u)).trans (congrArg TileCtx.endStatus (htile _))
      cause := s₅.cause_showEnded u hc
      group := (congrArg TileCtx.group (s₅.tile_showEnded u cause u)).trans
        ((congrArg TileCtx.group (htile _)).trans (h₅.step u hu).group)
      other := fun v hv hne => ((h₅.step v hv).modTile_other hne _).showEnded hne cause
      awaited := (s₅.awaited_showEnded u cause).trans ((State.awaited_modTile ..).trans h₅.awaited) }
  exact hends.of_playsOn hu ((PlaysOn.refl _).segSync u)

/-! ## The boundary behind it (01_architecture.md R29) -/

/-- No repair waits to be persisted, no fence to be applied or removed, and no core to be retested. -/
def State.undue (s : State) : Prop := ∃ e, s.awaited = ([], [], [], [], e)

theorem State.undue_iff : s.undue ↔ s.soft = [] ∧ s.fenceReq = [] ∧ s.unfenceReq = [] ∧ s.coreDue = [] := by
  simp [State.undue, State.awaited]

theorem State.undue_congr (h : t.awaited = s.awaited) (k : s.undue) : t.undue := k.imp fun _ he => h.trans he

theorem State.boundaryFence_playsOn (u : Nat) (h : s.undue) : PlaysOn s (s.boundaryFence u) := by
  obtain ⟨-, hfence, -, -⟩ := State.undue_iff.1 h
  unfold State.boundaryFence
  refine .ite (.refl s) ?_
  extract_lets mine s₁ s₂ core
  have h₁ : s₁ = s := by simp [s₁, hfence]
  have h₂ : PlaysOn s s₂ := by
    refine (h₁ ▸ .refl s : PlaysOn s s₁).foldl fun ch _ k => ?_
    have hretest : PlaysOn s (State.retestBegin _ ch) := (k.chSafe ch).modChan ch fun _ => by rfl
    exact .ite hretest (.when k fun k => .ite hretest (k.modChan ch fun _ => by rfl))
  obtain ⟨-, -, hunfence, hcore⟩ := State.undue_iff.1 (State.undue_congr h₂.awaited h)
  rw [if_neg (by simp [hunfence, hcore])]
  exact h₂

theorem State.boundary_playsOn {u : Nat} (hend : s.stepState u = stEnded) (h : s.undue) : PlaysOn s (s.boundary u) := by
  obtain ⟨hsoft, -, -, -⟩ := State.undue_iff.1 h
  have hpersist (p : Option Nat → Bool) : s.persistRepairs p = s := by simp [State.persistRepairs, hsoft]
  unfold State.boundary
  dsimp only
  rw [if_pos hend, hpersist]
  exact s.boundaryFence_playsOn u h

/-! ## The step ends (01_architecture.md R24, R26) -/

/-- A group of which a tile still runs does not merge. -/
theorem State.groupCheck_runs {v g : Nat} (hv : v < 64) (hg : (s.tile v).group = g) (hrun : s.stepState v = stRunning) :
    s.groupCheck g = s := by
  have hmem : v ∈ s.members g := List.mem_filter.2 ⟨List.mem_range.2 hv, by simp [hg, State.idle, hrun]⟩
  unfold State.groupCheck
  extract_lets l
  exact if_pos (.inr (List.any_eq_true.2 ⟨v, hmem, by simp [hrun]⟩))

theorem State.unresolved_anti {u : Nat} (h : PlaysOn s t) (hs : s.unresolved u = false) : t.unresolved u = false := by
  simp only [State.unresolved, List.any_eq_false] at hs ⊢
  intro ch hch hany
  obtain ⟨x, hx, hp⟩ := List.any_eq_true.1 hany
  exact hs ch hch (List.any_eq_true.2 ⟨x, h.strobes ch hx, hp⟩)

theorem PlaysOn.takeTurn {s₀ : State} (h : PlaysOn s₀ s) (u : Nat) : PlaysOn s₀ (s.takeTurn u) :=
  .when h fun k => (k.modTile u fun _ => by rfl).segSync u

/-- A tile whose step can end alone: it is RUNNING, another tile of its group is, no action of a step boundary is due, and every compare and
capture has its outcome. -/
structure EndsAlone (u v : Nat) (s : State) : Prop where
  run : s.stepState u = stRunning
  other : s.stepState v = stRunning
  group : (s.tile v).group = (s.tile u).group
  undue : s.undue
  resolved : s.unresolved u = false

theorem EndsAlone.of_playsOn {u v : Nat} (hu : u < 64) (hv : v < 64) (h : EndsAlone u v s) (k : PlaysOn s t) : EndsAlone u v t where
  run := (k.step u hu).stepState.trans h.run
  other := (k.step v hv).stepState.trans h.other
  group := (k.step v hv).group.trans (h.group.trans (k.step u hu).group.symm)
  undue := State.undue_congr k.awaited h.undue
  resolved := State.unresolved_anti k h.resolved

theorem State.endStep_ended {u v : Nat} (hu : u < 64) (hv : v < 64) (hne : v ≠ u) (h : EndsAlone u v s) (st : BitVec 8) {cause : Nat}
    (hc : cause < 16) : Ended u st cause s (s.endStep u st cause) := by
  have htile := s.endTile_ended hu st hc
  have hend := htile.of_playsOn hu (State.boundary_playsOn htile.state (State.undue_congr htile.awaited h.undue))
  unfold State.endStep
  rw [if_pos (by rw [h.run]; rfl)]
  dsimp only
  have hstep := hend.other v hv hne
  rw [State.groupCheck_runs hv (hstep.group.trans (h.group.trans hend.group.symm)) (hstep.stepState.trans h.other)]
  exact hend

/-- Behind the last cycle the step of a tile ends with OK and cause 1. -/
theorem State.finish_ended {u v : Nat} (hu : u < 64) (hv : v < 64) (hne : v ≠ u) (h : EndsAlone u v s) :
    Ended u St.ok 1 s (s.finish u (.ending [])) := by
  unfold State.finish
  extract_lets e s₀ s₁
  have h₁ : PlaysOn s s₁ := .ite (.refl s) (((PlaysOn.refl s).stopIssue u e).modTile u fun _ => by rfl)
  have halone := h.of_playsOn hu hv h₁
  rw [if_neg (by simp [halone.resolved])]
  exact .behind hu h₁ (State.endStep_ended hu hv hne halone St.ok (by decide))

theorem State.runTail_ending {u : Nat} {l : List (BitVec 8)} (h : (s.tile u).tail = .ending l) : s.runTail u = s.finish u (.ending l) := by
  unfold State.runTail
  dsimp only
  rw [h]

theorem doCycleBegin_ended {u v : Fin 64} (hne : v ≠ u) (h : EndsAlone u v s) (hstall : (s.tile u).stall = none)
    (hq : (s.tile u).queue = []) (htail : (s.tile u).tail = .ending []) : Ended u St.ok 1 s (doCycleBegin u s) := by
  have hne : v.val ≠ u.val := fun e => hne (Fin.ext e)
  have hturn := (PlaysOn.refl s).takeTurn u
  obtain ⟨⟨f, n, htile⟩, -⟩ := s.takeTurn_spec u
  unfold doCycleBegin
  rw [if_neg (by simp [h.run, hstall])]
  split
  · rw [htail]
    exact State.finish_ended u.isLt v.isLt hne h
  · have htail' : ((s.takeTurn u).tile u).tail = .ending [] := (congrArg TileCtx.tail htile).trans htail
    have hq' : ((s.takeTurn u).tile u).queue = [] := (congrArg TileCtx.queue htile).trans hq
    dsimp only
    rw [hq']
    dsimp only
    rw [State.runTail_ending htail']
    exact .behind u.isLt hturn (State.finish_ended u.isLt v.isLt hne (h.of_playsOn u.isLt v.isLt hturn))

end Sys2Proof.Machine
end
section
/-! SUPPORT. MARK, PERIOD, SEGSW, WAIT and END: what they add to the next cycle, and what stands behind the queued cycles (03_sequencer.md R65, R67,
R72; 01_architecture.md R24; 04_pattern_store.md R99). -/

namespace Sys2Proof.Machine

variable {u : Fin 64} {i : SeqInstr} {s : State}

/-- An update of a tile's context, with execution going on at the next instruction. -/
theorem State.modTile_seqNext_spec (s : State) (u : Nat) (f : TileCtx → TileCtx) :
    (((s.executing u).modTile u f).seqNext u).pc u = (s.pc u + 1) % 16384 ∧
      (((s.executing u).modTile u f).seqNext u).tile u = f { s.tile u with execAt := s.execClock u } ∧
      RegsSame (fun a => a == R.SEQ_STATUS u) s (((s.executing u).modTile u f).seqNext u) ∧
      MemSame s (((s.executing u).modTile u f).seqNext u) := by
  refine ⟨State.pc_seqNext .., ?_, regsSame_seqNext ((s.executing u).modTile u f) u, .of_mem rfl⟩
  rw [State.tile_seqNext, State.tile_modTile, if_pos rfl, State.tile_executing]

section
variable (hf : s.fetching u = true) (ht : OnTime s u)
include hf ht

theorem doMark_spec : ((doMark u i s).pc u = (s.pc u + 1) % 16384 ∧ ((doMark u i s).tile u).pendMarks = (s.tile u).pendMarks ++ [i.mkid]) ∧
    RegsSame (fun a => a == R.SEQ_STATUS u) s (doMark u i s) ∧ MemSame s (doMark u i s) := by
  obtain ⟨hpc, htile, hregs, hmem⟩ := s.modTile_seqNext_spec u fun c => { c with pendMarks := c.pendMarks ++ [i.mkid] }
  rw [doMark, State.seq_onTime hf ht]
  exact ⟨⟨hpc, congrArg TileCtx.pendMarks htile⟩, hregs, hmem⟩

theorem doPeriod_spec : (doPeriod u i s).pc u = (s.pc u + 1) % 16384 ∧
    (∃ p, ((doPeriod u i s).tile u).pendPer = some p ∧ p.pidx = i.pidx.toNat) ∧
      RegsSame (fun a => a == R.SEQ_STATUS u) s (doPeriod u i s) ∧ MemSame s (doPeriod u i s) := by
  rw [doPeriod, State.seq_onTime hf ht]
  extract_lets old
  obtain ⟨hpc, htile, hregs, hmem⟩ := s.modTile_seqNext_spec u fun c => { c with pendPer := some ⟨i.pidx.toNat, old ++ SeqInstrMarks i⟩ }
  exact ⟨hpc, ⟨_, congrArg TileCtx.pendPer htile, rfl⟩, hregs, hmem⟩

end

/-- A wait that has ended continues at the next instruction where the condition has held, else at TARGET. -/
def State.resume (s : State) (u : Nat) (c : Prop) [Decidable c] (a : Nat) : State := if c then s.seqNext u else s.jump u a

theorem State.resume_spec (s : State) (u : Nat) (c : Prop) [Decidable c] (a : Nat) :
    ((s.resume u c a).tile u).tail = (s.tile u).tail ∧ ((s.resume u c a).tile u).endE = (s.tile u).endE ∧
      (s.resume u c a).flag (R.SEQ_STATUS_WAITING u) = s.flag (R.SEQ_STATUS_WAITING u) := by
  unfold State.resume
  split
  · exact ⟨rfl, rfl, congrArg (· != 0) (s.fget_goto u _ (.inl (show 3 < 16 by decide)) (Nat.le_refl 3))⟩
  · obtain ⟨q, b, n, hjump⟩ := s.tile_jump u a
    rw [hjump]
    exact ⟨rfl, rfl, congrArg (· != 0) (s.fget_jump u a (f := R.SEQ_STATUS_WAITING u) rfl (show 3 < 16 by decide) (Nat.le_refl 3))⟩

theorem Along.resume {t : State} {u b : Nat} {x : Apg} {m : List (BitVec 8)} (h : Along u s t b x m) (c : Prop) [Decidable c] (a : Nat) :
    Along u s (t.resume u c a) (if c then (b + 1) % 16384 else a % 16384) x m := by
  unfold State.resume
  split
  · exact h.seqNext
  · exact h.jump a

/-- Settles O38: markers and periods go to the next cycle, SEGSW moves execution along the ring, WAIT and END stand behind the queued cycles; END
ends the step once every outcome is there, and a wait ends at the first tile clock at which its condition has held, or at its limit. -/
theorem marksPeriodsWaits : Obligations.MarksPeriodsWaits := by
  unfold Obligations.MarksPeriodsWaits
  refine ⟨fun u i s hf ht => ⟨?_, ?_, fun hring => ⟨_, rfl, doSegsw_spec hf ht hring⟩, fun h => ⟨?_, ?_⟩⟩, ?_, ?_⟩
  · obtain ⟨⟨hpc, hmarks⟩, hregs, hmem⟩ := doMark_spec (i := i) hf ht
    exact ⟨_, rfl, hpc, hmarks, hregs, hmem⟩
  · obtain ⟨hpc, ⟨p, hper, hpidx⟩, hregs, hmem⟩ := doPeriod_spec (i := i) hf ht
    exact ⟨_, p, rfl, hpc, hper, hpidx, hregs, hmem⟩
  · have htail : ((doWait u i s).tile u).tail = .waiting (SeqInstrWait i) := by
      rw [doWait_waits hf h]
      simp
    have hmem : MemSame s (doWait u i s) := by
      rw [doWait_waits hf h]
      exact (s.apgStep_spec u i.apgop).2.1.memSame
    exact ⟨_, rfl, hmem, State.not_fetching_of_tail (by simp [htail]), htail⟩
  · have htail : ((doEndStep u i s).tile u).tail = .ending (SeqInstrMarks i) := by
      rw [doEndStep_waits hf h]
      simp
    have hsame : RegsSame (fun _ => false) s (doEndStep u i s) ∧ MemSame s (doEndStep u i s) := by
      rw [doEndStep_waits hf h]
      exact ⟨fun _ _ => rfl, .of_mem rfl⟩
    exact ⟨_, rfl, htail, State.not_fetching_of_tail (by simp [htail]), hsame⟩
  · intro u v s hrun hstall hq htail hs _ hgroup hother hne hsoft hfence hunfence hcore
    have halone : EndsAlone u v s := ⟨hrun, hother, hgroup, State.undue_iff.2 ⟨hsoft, hfence, hunfence, hcore⟩, hs⟩
    have hend := doCycleBegin_ended hne.symm halone hstall hq htail
    exact ⟨_, rfl, hend.state, hend.endStatus, hend.cause⟩
  · intro u k s w d htail hd hrun lim here late stop hold hends hs
    obtain ⟨halong, htail', hend, hwait⟩ := s.released_spec u w.cond (hold.getD lim)
    have hdo : doWaitRelease u k s = (s.released u w.cond (hold.getD lim)).resume u (hold.isSome = true) w.target :=
      doWaitRelease_releases htail hd hrun rfl hends hs
    obtain ⟨hrtail, hrend, hrwait⟩ := (s.released u w.cond (hold.getD lim)).resume_spec u (hold.isSome = true) w.target
    have hgoes := halong.resume (hold.isSome = true) w.target
    rw [← hdo] at hrtail hrend hrwait hgoes
    exact ⟨_, rfl, hrtail.trans htail', hrend.trans hend, hrwait.trans hwait, fun i hi => State.firstHold_spec hi, hgoes.pc, hgoes.frame.memSame⟩

end Sys2Proof.Machine
end
section
/-! SUPPORT. The registration of events in the tiles: contributions to the sticky flags, edges of TRIG_IN, and trigger times (03_sequencer.md R70,
R71; 08_acquisition.md R203, R207, R210; 21_electrical_package.md R477). -/

namespace Sys2Proof.Machine

variable {s t : State}

/-! ## Contributions to the sticky flags (R71) -/

/-- MASKV shows a contribution of a mask violation. -/
theorem State.maskv_syncConds {u : Nat} {i : Int} (h : (.maskv, i) ∈ (s.tile u).conds) : (s.syncConds u).flag (R.COND_FLAGS_MASKV u) = true := by
  unfold State.syncConds
  extract_lets now c has evs s₁ s₂
  have hhas : has .maskv = true := List.any_eq_true.2 ⟨(.maskv, i), List.mem_filter.2 ⟨h, rfl⟩, beq_self_eq_true _⟩
  have h₁ : s₁.flag (R.COND_FLAGS_MASKV u) = true := by
    refine (State.flag_setFlag_disjoint _ _ (.inl (show 2 < 3 by decide)) (Nat.le_refl 3) (Nat.le_refl 2)).trans ?_
    rw [State.flag_setFlag_same _ _ (Nat.le_refl 2) (show 2 < 32 by decide), hhas]
  have h₂ : s₂.flag (R.COND_FLAGS_MASKV u) = true :=
    (congrArg (· != 0) (State.fget_fset_disjoint _ _ (.inl (show 2 < 4 by decide)) (show 4 ≤ 7 by decide) (Nat.le_refl 2))).trans h₁
  refine List.foldlRecOn (motive := fun r : State => r.flag (R.COND_FLAGS_MASKV u) = true) _ _ h₂ fun r hr w _ => ?_
  have hother : R.COND_FLAGS u ≠ R.LINKEV_FLAG u w := by unfold R.COND_FLAGS R.LINKEV_FLAG; omega
  exact (congrArg (· != 0) (State.fget_congr (f := R.COND_FLAGS_MASKV u) (State.rget_rset_other _ _ hother))).trans hr

theorem State.addCond_regsOnly (s : State) (n : Nat) (k : CondKey) (i : Int) :
    RegsOnly (condReg n) (s.modTile n fun c => { c with conds := c.conds ++ [(k, i)] }) (s.addCond n k i) := State.syncConds_regsOnly ..

theorem State.tile_addCond (s : State) (n : Nat) (k : CondKey) (i : Int) (u : Nat) :
    (s.addCond n k i).tile u = if u = n then { s.tile n with conds := (s.tile n).conds ++ [(k, i)] } else s.tile u :=
  (State.tile_congr (s.addCond_regsOnly n k i).tiles u).trans (State.tile_modTile ..)

theorem doMaskvFlag_registers {u : Fin 64} {i : Int} (h : (s.tile u).cap.maskDue = some i) :
    (doMaskvFlag u s).flag (R.COND_FLAGS_MASKV u) = true ∧ ((doMaskvFlag u s).tile u).cap.maskDue = none ∧
      (.maskv, i) ∈ ((doMaskvFlag u s).tile u).conds ∧ MemSame s (doMaskvFlag u s) := by
  have hdo : doMaskvFlag u s = (s.modTile u fun c => { c with cap := { c.cap with maskDue := none } }).addCond u .maskv i := by
    unfold doMaskvFlag
    rw [h]
  rw [hdo, State.tile_addCond, if_pos rfl, State.tile_modTile, if_pos rfl]
  refine ⟨State.maskv_syncConds (i := i) ?_, rfl, List.mem_append_right _ (List.mem_singleton.2 rfl), .of_mem ?_⟩
  · rw [State.tile_modTile, if_pos rfl]
    exact List.mem_append_right _ (List.mem_singleton.2 rfl)
  · exact (State.addCond_regsOnly ..).mem

/-! ## Edges of TRIG_IN (21_electrical_package.md R477) -/

/-- Contributions are only added, and what an edge's registration rests on stays. -/
structure Gathers (s t : State) : Prop where
  source : ∀ u, t.fget (R.TRIG_CFG_SRC u) = s.fget (R.TRIG_CFG_SRC u)
  power : ∀ u, t.power u = s.power u
  wraps : ∀ u, (t.tile u).wraps = (s.tile u).wraps
  conds : ∀ u, (s.tile u).conds ⊆ (t.tile u).conds

theorem Gathers.refl (s : State) : Gathers s s := ⟨fun _ => rfl, fun _ => rfl, fun _ => rfl, fun _ => List.Subset.refl _⟩

theorem Gathers.addCond {s₀ : State} (h : Gathers s₀ s) (n : Nat) (k : CondKey) (i : Int) : Gathers s₀ (s.addCond n k i) := by
  have hreg (u : Nat) {o : Nat} (ho : 0xA0 ≤ o) (ho' : o < 0x10000) :
      (s.addCond n k i).rget (0x100000 + u * 0x10000 + o) = s.rget (0x100000 + u * 0x10000 + o) :=
    (s.addCond_regsOnly n k i).regs _ (decide_eq_false (by omega))
  refine ⟨fun u => ?_, fun u => ?_, fun u => ?_, fun u => ?_⟩
  · exact (State.fget_congr (f := R.TRIG_CFG_SRC u) (hreg u (by decide) (by decide))).trans (h.source u)
  · exact (State.fget_congr (f := R.TILE_PWR_STATE u) (hreg u (by decide) (by decide))).trans (h.power u)
  · rw [← h.wraps u, State.tile_addCond]
    split
    · next e => rw [e]
    · rfl
  · rw [State.tile_addCond]
    split
    · next e => exact e ▸ fun x hx => List.mem_append_left _ (h.conds u hx)
    · exact h.conds u

theorem PlaysOn.addCond {s₀ : State} (h : PlaysOn s₀ s) (n : Nat) (k : CondKey) (i : Int) : PlaysOn s₀ (s.addCond n k i) :=
  (h.modTile n fun _ => by rfl).of_reports (.of_regsOnly (s.addCond_regsOnly n k i)) (condReg_status n)

theorem PlaysOn.registerEvent {s₀ : State} (h : PlaysOn s₀ s) (n : Nat) (k : CondKey) (i : Int) (trig : Bool) :
    PlaysOn s₀ (s.registerEvent n k i trig) :=
  .when (h.addCond n k i) fun k => (k.modTile n fun _ => by rfl).settleTrigs n _

/-- Whether the edges of a TRIG_IN pin are the triggers of a tile. -/
def State.takesEdge (s : State) (u n : Nat) : Bool := s.fget (R.TRIG_CFG_SRC u) == 3 && s.fget (R.TRIG_CFG_ARG u) % 4 == n

/-- An edge of a TRIG_IN pin is registered in every tile that is ACTIVE or STANDBY. -/
def State.edgeIn (s : State) (n : Nat) (i : Int) : State :=
  (List.range 64).foldl (fun s u => if 2 ≤ s.power u then s else s.registerEvent u (.trig n) (s.tileTime u i) (s.takesEdge u n)) s

theorem State.edgeIn_playsOn (s : State) (n : Nat) (i : Int) : PlaysOn s (s.edgeIn n i) :=
  (PlaysOn.refl s).foldl fun u _ k => .ite k (k.registerEvent u _ _ _)

theorem PlaysOn.trigIn (h : PlaysOn s t) : t.trigIn = s.trigIn := (congrArg (·.2.2.2.2) h.awaited :)

theorem State.edgeIn_registers (s : State) (n : Nat) (i : Int) (hsrc : ∀ u, u < 64 → s.fget (R.TRIG_CFG_SRC u) ≠ 3) :
    ∀ u, u < 64 → s.power u < 2 → (.trig n, s.tileTime u i) ∈ ((s.edgeIn n i).tile u).conds := by
  have hstep {r : State} (hr : Gathers s r) {u : Nat} (hu : u ∈ List.range 64) :
      r.registerEvent u (.trig n) (r.tileTime u i) (r.takesEdge u n) = r.addCond u (.trig n) (r.tileTime u i) := by
    have hno : r.takesEdge u n = false := by simp [State.takesEdge, hr.source, hsrc u (List.mem_range.1 hu)]
    rw [hno]
    rfl
  have hgathers {r r₀ : State} (hr : Gathers s r) (k : Gathers r₀ r) {u : Nat} (hu : u ∈ List.range 64) :
      Gathers r₀ (if 2 ≤ r.power u then r else r.registerEvent u (.trig n) (r.tileTime u i) (r.takesEdge u n)) := by
    rw [hstep hr hu]
    split
    · exact k
    · exact k.addCond ..
  refine fun u hu => foldl_establishes (I := Gathers s) (P := fun u r => s.power u < 2 → (.trig n, s.tileTime u i) ∈ (r.tile u).conds) (.refl s)
    (fun r u hu hr => hgathers hr hr hu) (fun r u hu hr hp => ?_) (fun r u _ v hv _ hr hmem hp => ?_) u (List.mem_range.2 hu)
  · have htime : r.tileTime u i = s.tileTime u i := by rw [State.tileTime, hr.wraps, State.tileTime]
    rw [if_neg (by rw [hr.power]; omega), hstep hr hu, State.tile_addCond, if_pos rfl, htime]
    exact List.mem_append_right _ (List.mem_singleton.2 rfl)
  · have hgrow := (hgathers hr (.refl r) hv).conds u
    exact hgrow (hmem hp)

/-- The last edge of a TRIG_IN pin. -/
def State.lastEdge (s : State) (n arrival : Nat) : State := { s with trigIn := Store.put (fun _ => none) s.trigIn n (some arrival) }

theorem State.trigIn_lastEdge (s : State) (n arrival : Nat) : Store.get (fun _ => none) (s.lastEdge n arrival).trigIn n = some arrival := by
  simp [State.lastEdge]

/-- The first tile clock edge 20 ns or more behind an arrival. -/
def edgeInstant (arrival : Nat) : Int := (((arrival + 5120 + 319) / 320 * 320 : Nat) : Int) * unitFs

theorem doTrigInEdge_apart {n : Fin 4} {arrival : Nat} (h : ∀ a, Store.get (fun _ => none) s.trigIn n.val = some a → a + 1280 ≤ arrival) :
    doTrigInEdge n arrival s = (s.lastEdge n arrival).edgeIn n (edgeInstant arrival) := by
  unfold doTrigInEdge
  extract_lets close s₁ i
  have hclose : close = false := by
    simp only [close]
    split
    · next a ha => exact decide_eq_false (Nat.not_lt.2 (h a ha))
    · rfl
  rw [hclose]
  rfl

theorem doTrigInEdge_registers {n : Fin 4} {arrival : Nat} (h : ∀ a, Store.get (fun _ => none) s.trigIn n.val = some a → a + 1280 ≤ arrival) :
    Store.get (fun _ => none) (doTrigInEdge n arrival s).trigIn n.val = some arrival ∧
      ((∀ u, u < 64 → s.fget (R.TRIG_CFG_SRC u) ≠ 3) → ∀ u, u < 64 → s.power u < 2 →
        (.trig n, s.tileTime u (edgeInstant arrival)) ∈ ((doTrigInEdge n arrival s).tile u).conds) := by
  rw [doTrigInEdge_apart h]
  refine ⟨?_, (s.lastEdge n arrival).edgeIn_registers n _⟩
  rw [((s.lastEdge n arrival).edgeIn_playsOn n _).trigIn]
  exact s.trigIn_lastEdge n arrival

/-! ## Trigger times (08_acquisition.md R203, R205, R207) -/

/-- A counter below its maximum rises by one. -/
theorem State.fget_count_of_lt {f : Fld} (hle : f.lo ≤ f.hi) (hhi : f.hi < 32) (h : s.fget f < 2 ^ (f.hi - f.lo + 1) - 1) :
    (s.count f).fget f = s.fget f + 1 := by
  rw [State.count, State.fget_fset_same _ _ hle hhi, Nat.min_eq_left (by omega)]
  exact Nat.mod_eq_of_lt (by omega)

/-- Registers, memory and the number of triggers of a tile are left alone. -/
structure QuietTrigger (u : Nat) (s t : State) : Prop where
  regs : t.regs = s.regs
  mem : t.mem = s.mem
  trigs : (t.tile u).cap.trigs = (s.tile u).cap.trigs

theorem QuietTrigger.trans {u : Nat} {s₀ : State} (h : QuietTrigger u s₀ s) (k : QuietTrigger u s t) : QuietTrigger u s₀ t :=
  ⟨k.regs.trans h.regs, k.mem.trans h.mem, k.trigs.trans h.trigs⟩

theorem QuietTrigger.modTile (s : State) (u : Nat) {f : TileCtx → TileCtx} (hf : ∀ c, (f c).cap.trigs = c.cap.trigs) :
    QuietTrigger u s (s.modTile u f) :=
  ⟨rfl, rfl, by rw [State.tile_modTile, if_pos rfl, hf]⟩

theorem State.pulseOut_quiet (s : State) (u : Nat) (i : Int) : QuietTrigger u s (s.pulseOut u i) := by
  refine List.foldlRecOn (motive := QuietTrigger u s) _ _ ⟨rfl, rfl, rfl⟩ fun r hr n _ => ?_
  split
  · exact hr.trans ⟨rfl, rfl, rfl⟩
  · exact hr

theorem State.beginHold_quiet (s : State) (u : Nat) (i : Int) : QuietTrigger u s (s.beginHold u i) := by
  unfold State.beginHold
  exact .modTile s u fun _ => rfl

theorem State.maskStart_quiet (s : State) (u kind : Nat) (i : Int) : QuietTrigger u s (s.maskStart u kind i) := by
  unfold State.maskStart
  split
  · exact .modTile s u fun _ => rfl
  · exact ⟨rfl, rfl, rfl⟩

section
variable {u : Nat} {i : Int} (hrun : s.stepState u = stRunning) (hcl : (s.tile u).closing = false) (hstart : (s.tile u).startAt ≤ i)
  (hgo : (s.flag (R.CAP_CFG_EN u) && s.flag (R.CAP_CFG_MODE u)) = false)
include hrun hcl hstart hgo

/-- In a frame's post-trigger part an event of the source is ignored. -/
theorem State.trigEvent_ignored (hframe : (s.tile u).cap.frame.isSome = true) : s.trigEvent u i = s.count (R.TRIG_IGN_COUNT u) := by
  unfold State.trigEvent
  extract_lets c
  rw [if_neg (by simp [c, hrun, hcl, hstart]), if_neg (by simp [hgo]), if_pos (by simp [State.inFrame, hframe])]

/-- Outside frames and hold-off it is the trigger. -/
theorem State.trigEvent_taken (hframe : (s.tile u).cap.frame = none) (hpast : (s.tile u).cap.past = none) (hhold : s.holdOver u i = true) :
    s.trigEvent u i = s.takeTrigger u i := by
  unfold State.trigEvent
  extract_lets c
  rw [if_neg (by simp [c, hrun, hcl, hstart]), if_neg (by simp [hgo]), if_neg (by simp [State.inFrame, hframe, hpast]), if_pos hhold]

end

/-- A trigger that writes nothing is counted. -/
theorem State.takeTrigger_counts {u : Nat} {i : Int} (hen : s.flag (R.CAP_CFG_EN u) = false) (hfew : s.fget (R.CAP_STATUS_FRAMES u) < 0xFFFF) :
    (s.takeTrigger u i).fget (R.CAP_STATUS_FRAMES u) = s.fget (R.CAP_STATUS_FRAMES u) + 1 ∧
      ((s.takeTrigger u i).tile u).cap.trigs = (s.tile u).cap.trigs + 1 ∧ MemSame s (s.takeTrigger u i) := by
  unfold State.takeTrigger
  extract_lets s₁ s₂
  have hpulse : QuietTrigger u (s₁.count (R.CAP_STATUS_FRAMES u)) s₂ := State.pulseOut_quiet ..
  have hen₂ : s₂.flag (R.CAP_CFG_EN u) = false := by
    have haddr : (R.CAP_CFG_EN u).addr ≠ (R.CAP_STATUS_FRAMES u).addr := by
      simp only [R.CAP_CFG_EN, R.CAP_CFG, R.CAP_STATUS_FRAMES, R.CAP_STATUS]
      omega
    have hcfg := (State.rget_congr hpulse.regs (R.CAP_CFG_EN u).addr).trans (State.rget_fset_other _ _ haddr)
    exact (congrArg (· != 0) (State.fget_congr (f := R.CAP_CFG_EN u) hcfg)).trans hen
  rw [if_pos (by simp [hen₂])]
  have hquiet := hpulse.trans ((s₂.beginHold_quiet u i).trans (State.maskStart_quiet _ u 0 i))
  refine ⟨?_, hquiet.trigs.trans ?_, .of_mem (hquiet.mem.trans (State.count_mem ..))⟩
  · exact (State.fget_congr (f := R.CAP_STATUS_FRAMES u) (State.rget_congr hquiet.regs _)).trans
      (State.fget_count_of_lt (s := s₁) (Nat.zero_le 15) (show 15 < 32 by decide) hfew)
  · have htile : (s₁.tile u).cap.trigs = (s.tile u).cap.trigs + 1 := by simp [s₁]
    rw [State.tile_congr (State.count_tiles ..) u]
    exact htile

/-- Settles O27: a contribution is added at the event's instant in each tile that it reaches, and a trigger time acts as an event of its source. -/
theorem eventsRegister : Obligations.EventsRegister := by
  unfold Obligations.EventsRegister
  refine ⟨fun u i s h => ⟨_, rfl, doMaskvFlag_registers h⟩, fun n arrival s h => ⟨_, rfl, doTrigInEdge_registers h⟩,
    fun u s => ⟨fun hsrc => congrArg Host.Outcome.next (if_pos hsrc), fun h => congrArg Host.Outcome.next ?_, ?_, ?_⟩⟩
  · by_cases hsrc : s.fget (R.TRIG_CFG_SRC u) = 5
    · have hrun : s.stepState u ≠ stRunning := h.resolve_left (not_not_intro hsrc)
      exact (if_pos hsrc).trans (if_pos (by simp [hrun]))
    · exact if_neg hsrc
  · intro hsrc hrun hframe hcl hstart hmode hfew
    have hdo : doTrigTimeReached u s = s.count (R.TRIG_IGN_COUNT u) :=
      (if_pos hsrc).trans (State.trigEvent_ignored hrun hcl hstart (by simp [hmode]) hframe)
    refine ⟨doTrigTimeReached u s, rfl, ?_, ?_⟩
    · rw [hdo]
      exact State.fget_count_of_lt (Nat.zero_le 31) (show 31 < 32 by decide) (by simpa [R.TRIG_IGN_COUNT] using hfew)
    · rw [hdo]
      exact .of_mem (State.count_mem ..)
  · intro i hsrc hrun hframe hpast hhold hcl hstart hen hfew
    have hdo : doTrigTimeReached u s = s.takeTrigger u i :=
      (if_pos hsrc).trans (State.trigEvent_taken hrun hcl hstart (by simp [hen]) hframe hpast hhold)
    refine ⟨doTrigTimeReached u s, rfl, ?_⟩
    rw [hdo]
    exact State.takeTrigger_counts hen hfew

end Sys2Proof.Machine
end

section
/-! SUPPORT. Segments: fields that share no bit, and what the segment queue makes of a segment's state (04_pattern_store.md R94, R96, R109). -/

namespace Sys2Proof.Machine

/-! ## Fields that share no bit -/

/-- Two fields share no bit of a register. -/
def Fld.Apart (f g : Fld) : Prop := (g.addr = f.addr → g.hi < f.lo ∨ f.hi < g.lo) ∧ f.lo ≤ f.hi ∧ g.lo ≤ g.hi

theorem State.fget_fset_apart (s : State) {f g : Fld} (v : Nat) (h : f.Apart g) : (s.fset f v).fget g = s.fget g := by
  obtain ⟨hbits, hf, hg⟩ := h
  by_cases ha : g.addr = f.addr
  · exact s.fget_fset_disjoint v (hbits ha) hf hg
  · exact s.fget_fset_addr v ha

theorem State.flag_fset_apart (s : State) {f g : Fld} (v : Nat) (h : f.Apart g) : (s.fset f v).flag g = s.flag g :=
  congrArg (· != 0) (s.fget_fset_apart v h)

theorem segFld_apart {t i u j : Nat} (h : u ≠ t ∨ j ≠ i) (_hi : i < 16) (_hj : j < 16) : (segFld t i).Apart (segFld u j) := by
  simp only [Fld.Apart, segFld, R.SEG_STATE]
  omega

theorem segFld_apart_seal {t i u j : Nat} (_hi : i < 16) (_hj : j < 16) : (segFld t i).Apart (sealFld u j) := by
  simp only [Fld.Apart, segFld, sealFld, R.SEG_STATE]
  omega

/-- A field of STRM_STATUS is apart from the fields of SEG_STATE. -/
theorem segFld_apart_status {t i u : Nat} {g : Fld} (hi : i < 16) (hg : g.addr = R.STRM_STATUS u) (hle : g.lo ≤ g.hi) : (segFld t i).Apart g := by
  simp only [Fld.Apart, segFld, hg, R.SEG_STATE, R.STRM_STATUS]
  omega

theorem segFld_place (t : Nat) {i : Nat} (hi : i < 16) : 0x100000 ≤ (segFld t i).addr ∧ (segFld t i).addr ≠ R.STRM_STATUS t := by
  simp only [segFld, R.SEG_STATE, R.STRM_STATUS]
  omega

theorem State.segSt_fset_same (s : State) (t : Nat) {i v : Nat} (hv : v < 8) : (s.fset (segFld t i) v).segSt t i = v := by
  have hbits : 4 * (i % 8) ≤ 4 * (i % 8) + 2 ∧ 4 * (i % 8) + 2 < 32 := by omega
  rw [State.segSt, State.fget_fset_same _ _ hbits.1 hbits.2]
  simp only [segFld]
  rw [show 4 * (i % 8) + 2 - 4 * (i % 8) + 1 = 3 by omega]
  exact Nat.mod_eq_of_lt hv

theorem State.segSt_fset_other (s : State) {t i u j : Nat} (v : Nat) (h : u ≠ t ∨ j ≠ i) (hi : i < 16) (hj : j < 16) :
    (s.fset (segFld t i) v).segSt u j = s.segSt u j :=
  s.fget_fset_apart v (segFld_apart h hi hj)

theorem State.ringFill_lt (s : State) (t : Nat) : s.ringFill t < 16 := field_lt ..

/-! ## The segment queue and the state of a segment -/

/-- VALID and QUEUED follow R96 in each segment of a tile. -/
def State.segFollow (s : State) (t : Nat) : State :=
  (List.range 16).foldl (fun s i =>
    if s.segSt t i == sgValid && s.wanted t i then s.fset (segFld t i) sgQueued
    else if s.segSt t i == sgQueued && !s.wanted t i then s.fset (segFld t i) sgValid
    else s) s

/-- A field of a tile's register apart from AHEAD and LOW reads behind the segment queue as behind its first part. -/
theorem State.fget_segSync (s : State) (t : Nat) {g : Fld} (hg : 0x100000 ≤ g.addr) (ha : (R.STRM_STATUS_AHEAD t).Apart g)
    (hl : (R.STRM_STATUS_LOW t).Apart g) : (s.segSync t).fget g = (s.segFollow t).fget g := by
  unfold State.segSync
  extract_lets s₁ old new low s₂
  have h₂ : s₂.fget g = s₁.fget g := s₁.fget_fset_apart new ha
  have hfollow : s₁ = s.segFollow t := rfl
  rw [← hfollow]
  clear_value s₂ s₁
  split
  · have hevent := State.eventFor_reports (fun _ => false) (s₂.setFlag (R.STRM_STATUS_LOW t) true) (s₂.tile t).armedBy 0x10
      [BitVec.ofNat 32 t, BitVec.ofNat 32 new]
    exact (State.fget_congr (hevent.rget hg rfl)).trans ((s₂.fget_fset_apart _ hl).trans h₂)
  · exact h₂

theorem State.fget_segFollow (s : State) (t : Nat) {g : Fld} (hg : ∀ i < 16, (segFld t i).Apart g) : (s.segFollow t).fget g = s.fget g := by
  refine List.foldlRecOn (motive := fun r : State => r.fget g = s.fget g) _ _ rfl fun r hr i hi => ?_
  have hi := hg i (List.mem_range.1 hi)
  split
  · exact (r.fget_fset_apart _ hi).trans hr
  split
  · exact (r.fget_fset_apart _ hi).trans hr
  · exact hr

/-- What R96 makes of a segment's state, by whether one of its cases applies. -/
def Follows (wanted : Bool) (x y : Nat) : Prop :=
  y = x ∨ ((x = sgValid ∨ x = sgQueued) ∧ (y = sgValid ∨ (wanted = true ∧ y = sgQueued)))

/-- Whether a case of R96 applies does not depend on the states of segments. -/
theorem State.wanted_fset_seg (s : State) (t : Nat) {i : Nat} (j v : Nat) (hi : i < 16) : (s.fset (segFld t i) v).wanted t j = s.wanted t j := by
  have hstatus : (s.fset (segFld t i) v).stepState t = s.stepState t := s.fget_fset_addr v (segState_ne_status hi).symm
  have hcur : (s.fset (segFld t i) v).ringCur t = s.ringCur t := s.fget_fset_apart v (segFld_apart_status hi rfl (show 0 ≤ 3 by decide))
  have hcfg : R.STRM_CFG t ≠ (segFld t i).addr := by
    simp only [R.STRM_CFG, segFld, R.SEG_STATE]
    omega
  have hlen : (s.fset (segFld t i) v).ringLen t = s.ringLen t := s.fget_fset_addr (g := R.STRM_CFG_RING_LEN t) v hcfg
  have hfirst : (s.fset (segFld t i) v).ringFirst t = s.ringFirst t := s.fget_fset_addr (g := R.STRM_CFG_RING_FIRST t) v hcfg
  have htile : (s.fset (segFld t i) v).tile t = s.tile t := rfl
  simp only [State.wanted, State.segAfter, State.ringNext, hstatus, hcur, hlen, hfirst, htile]

theorem State.segSt_segFollow (s : State) (t : Nat) {i : Nat} (hi : i < 16) :
    Follows (s.wanted t i) (s.segSt t i) ((s.segFollow t).segSt t i) := by
  suffices ((s.segFollow t).wanted t i = s.wanted t i ∧ Follows (s.wanted t i) (s.segSt t i) ((s.segFollow t).segSt t i)) from this.2
  refine List.foldlRecOn (motive := fun r : State => r.wanted t i = s.wanted t i ∧ Follows (s.wanted t i) (s.segSt t i) (r.segSt t i))
    _ _ ⟨rfl, .inl rfl⟩ fun r ⟨hw, hr⟩ j hj => ?_
  have hj := List.mem_range.1 hj
  have hset (v : Nat) : (r.fset (segFld t j) v).wanted t i = s.wanted t i := (r.wanted_fset_seg t i v hj).trans hw
  by_cases e : i = j
  · subst e
    split
    · next h =>
      obtain ⟨hvalid, hwant⟩ : r.segSt t i = sgValid ∧ r.wanted t i = true := by simpa using h
      refine ⟨hset _, .inr ⟨?_, .inr ⟨hw ▸ hwant, r.segSt_fset_same t (by decide)⟩⟩⟩
      rcases hr with hr | ⟨hr, -⟩
      · exact .inl (hr.symm.trans hvalid)
      · exact hr
    split
    · next h =>
      obtain ⟨hqueued, -⟩ : r.segSt t i = sgQueued ∧ r.wanted t i = false := by simpa using h
      refine ⟨hset _, .inr ⟨?_, .inl (r.segSt_fset_same t (by decide))⟩⟩
      rcases hr with hr | ⟨hr, -⟩
      · exact .inr (hr.symm.trans hqueued)
      · exact hr
    · exact ⟨hw, hr⟩
  · have hkeep (v : Nat) : (r.fset (segFld t j) v).segSt t i = r.segSt t i := r.segSt_fset_other v (.inr e) hj hi
    split
    · exact ⟨hset _, (hkeep _).symm ▸ hr⟩
    split
    · exact ⟨hset _, (hkeep _).symm ▸ hr⟩
    · exact ⟨hw, hr⟩

theorem status_apart_seg {t u i : Nat} {f : Fld} (hi : i < 16) (hf : f.addr = R.STRM_STATUS t) (hle : f.lo ≤ f.hi) : f.Apart (segFld u i) := by
  simp only [Fld.Apart, segFld, hf, R.SEG_STATE, R.STRM_STATUS]
  omega

theorem status_apart_seal {t u i : Nat} {f : Fld} (hi : i < 16) (hf : f.addr = R.STRM_STATUS t) (hle : f.lo ≤ f.hi) : f.Apart (sealFld u i) := by
  simp only [Fld.Apart, sealFld, hf, R.SEG_STATE, R.STRM_STATUS]
  omega

/-- The state of a segment of the tile follows R96. -/
theorem State.segSt_segSync (s : State) (t : Nat) {i : Nat} (hi : i < 16) :
    Follows (s.wanted t i) (s.segSt t i) ((s.segSync t).segSt t i) := by
  have hsync : (s.segSync t).segSt t i = (s.segFollow t).segSt t i :=
    s.fget_segSync t (segFld_place t hi).1 (status_apart_seg hi rfl (show 8 ≤ 12 by decide)) (status_apart_seg hi rfl (Nat.le_refl 16))
  rw [hsync]
  exact s.segSt_segFollow t hi

/-- The states of other tiles' segments stand. -/
theorem State.segSt_segSync_other (s : State) {t u i : Nat} (h : u ≠ t) (hi : i < 16) : (s.segSync t).segSt u i = s.segSt u i :=
  (s.fget_segSync t (segFld_place u hi).1 (status_apart_seg hi rfl (show 8 ≤ 12 by decide)) (status_apart_seg hi rfl (Nat.le_refl 16))).trans
    (s.fget_segFollow t fun _ hj => segFld_apart (.inl h) hj hi)

theorem State.segSealed_segSync (s : State) (t u : Nat) {i : Nat} (hi : i < 16) : (s.segSync t).segSealed u i = s.segSealed u i := by
  have hplace : 0x100000 ≤ (sealFld u i).addr := (segFld_place u hi).1
  exact congrArg (· != 0) <|
    (s.fget_segSync t hplace (status_apart_seal hi rfl (show 8 ≤ 12 by decide)) (status_apart_seal hi rfl (Nat.le_refl 16))).trans
      (s.fget_segFollow t fun _ hj => segFld_apart_seal hj hi)

theorem State.ringFill_segSync (s : State) (t u : Nat) : (s.segSync t).ringFill u = s.ringFill u := by
  have hplace : 0x100000 ≤ (R.STRM_STATUS_FILL u).addr := by
    simp only [R.STRM_STATUS_FILL, R.STRM_STATUS]
    omega
  have hahead : (R.STRM_STATUS_AHEAD t).Apart (R.STRM_STATUS_FILL u) := ⟨fun _ => .inl (show 7 < 8 by decide), show 8 ≤ 12 by decide, show 4 ≤ 7 by decide⟩
  have hlow : (R.STRM_STATUS_LOW t).Apart (R.STRM_STATUS_FILL u) := ⟨fun _ => .inl (show 7 < 16 by decide), Nat.le_refl 16, show 4 ≤ 7 by decide⟩
  exact (s.fget_segSync t hplace hahead hlow).trans (s.fget_segFollow t fun _ hj => segFld_apart_status hj rfl (show 4 ≤ 7 by decide))

end Sys2Proof.Machine
end

section
/-! SUPPORT. SEG_WRITE: a plain write in one tile, in a list of tiles, and the request around it (04_pattern_store.md R94, R101, R103). -/

namespace Sys2Proof.Machine

/-! ## Bytes written at rising offsets -/

theorem memKey_inj {p t o p' t' o' : Nat} (ht : t < 64) (ht' : t' < 64) (ho : o < 2 ^ 23) (ho' : o' < 2 ^ 23)
    (h : memKey p t o = memKey p' t' o') : p = p' ∧ t = t' ∧ o = o' := by
  unfold memKey at h
  omega

/-- Bytes have been written from an offset on: they read as such, and every other byte stands. -/
structure Wrote (p t o : Nat) (l : List Byte) (s r : State) : Prop where
  same : ∀ k < l.length, r.mget p t (o + k) = l.getD k 0
  other : ∀ p' t' o', (∀ k < l.length, memKey p' t' o' ≠ memKey p t (o + k)) → r.mget p' t' o' = s.mget p' t' o'

theorem State.mwrite_wrote (s : State) (p t o : Nat) (l : List Byte) : Wrote p t o l s (s.mwrite p t o l) := by
  induction l generalizing s o with
  | nil => exact ⟨fun k hk => absurd hk (Nat.not_lt_zero k), fun _ _ _ _ => rfl⟩
  | cons b l ih =>
    obtain ⟨hsame, hother⟩ := ih (s.mset p t o b) (o + 1)
    refine ⟨fun k hk => ?_, fun p' t' o' h => ?_⟩
    · cases k with
      | zero =>
        refine (hother p t o fun k _ => ?_).trans (by simp)
        unfold memKey
        omega
      | succ k => exact Nat.add_right_comm o 1 k ▸ hsame k (Nat.lt_of_succ_lt_succ hk)
    · refine (hother p' t' o' fun k hk => ?_).trans ?_
      · exact Nat.add_right_comm o 1 k ▸ h (k + 1) (Nat.succ_lt_succ hk)
      · rw [State.mget_mset]
        exact if_neg (h 0 (Nat.succ_pos _))

theorem Wrote.of_mem {p t o : Nat} {l : List Byte} {s s' r' r : State} (h : Wrote p t o l s' r') (hs : s'.mem = s.mem) (hr : r.mem = r'.mem) :
    Wrote p t o l s r :=
  ⟨fun k hk => (State.mget_congr hr ..).trans (h.same k hk),
    fun p' t' o' hk => (State.mget_congr hr ..).trans ((h.other p' t' o' hk).trans (State.mget_congr hs ..))⟩

/-! ## A plain write in one tile -/

/-- What writing and committing segments leaves alone in every tile: which segments are sealed, and the packets of streams that wait. -/
structure SegFrame (s t : State) : Prop where
  sealed : ∀ u, ∀ i < 16, t.segSealed u i = s.segSealed u i
  fill : ∀ u, t.ringFill u = s.ringFill u
  strmWait : t.strmWait = s.strmWait

theorem SegFrame.refl (s : State) : SegFrame s s := ⟨fun _ _ _ => rfl, fun _ => rfl, rfl⟩

theorem SegFrame.trans {s r t : State} (h : SegFrame s r) (k : SegFrame r t) : SegFrame s t :=
  ⟨fun u i hi => (k.sealed u i hi).trans (h.sealed u i hi), fun u => (k.fill u).trans (h.fill u), k.strmWait.trans h.strmWait⟩

theorem Reports.strmWait {p : Nat → Bool} {s t : State} (h : Reports p s t) : t.strmWait = s.strmWait := (congrArg State.strmWait h.same :)

/-- A segment becomes FILLING, and the segment queue of its tile follows. -/
theorem State.fillSeg_spec (s : State) (t : Nat) {i : Nat} (hi : i < 16) :
    let r := (s.fset (segFld t i) sgFilling).segSync t
    SegFrame s r ∧ r.segSt t i = sgFilling ∧ (∀ u, u ≠ t → ∀ j < 16, r.segSt u j = s.segSt u j) ∧ r.mem = s.mem := by
  have hreports := (s.fset (segFld t i) sgFilling).segSync_reports t
  refine ⟨⟨fun u j hj => ?_, fun u => ?_, hreports.strmWait⟩, ?_, fun u hu j hj => ?_, hreports.mem⟩
  · exact (State.segSealed_segSync _ t u hj).trans (s.flag_fset_apart _ (segFld_apart_seal hi hj))
  · exact (State.ringFill_segSync _ t u).trans (s.fget_fset_apart _ (segFld_apart_status hi rfl (show 4 ≤ 7 by decide)))
  · have hset := s.segSt_fset_same t (i := i) (v := sgFilling) (by decide)
    rcases (s.fset (segFld t i) sgFilling).segSt_segSync t hi with h | ⟨h, -⟩
    · exact h.trans hset
    · rw [hset] at h
      exact absurd h (by decide)
  · exact (State.segSt_segSync_other _ hu hj).trans (s.segSt_fset_other _ (.inl hu) hi hj)

theorem State.segStore_eq {s : State} {t i : Nat} (hs : s.segSealed t i = false) (off : Nat) (seq : Option Nat) (payload : List Byte) :
    s.segStore t i off false seq payload =
      ((((s.eccFresh 1 (s.coreOf t) (i * 0x20000 + off) payload.length).setSegSeal t i
        { bad := carve (s.segSealOf t i).bad off (off + payload.length) }).mwrite 1 t (i * 0x20000 + off) payload).fset
          (segFld t i) sgFilling).segSync t := by
  have hfresh : (s.eccFresh 1 (s.coreOf t) (i * 0x20000 + off) payload.length).segSealed t i = false := hs
  simp [State.segStore, hfresh]

/-- A plain write to a segment that holds no sealed contents: the segment is FILLING, and of the memory the bytes named are those of the payload. -/
theorem State.segStore_plain {s : State} {t i : Nat} (hi : i < 16) (hs : s.segSealed t i = false) (off : Nat) (seq : Option Nat)
    (payload : List Byte) :
    let r := s.segStore t i off false seq payload
    SegFrame s r ∧ r.segSt t i = sgFilling ∧ (∀ u, u ≠ t → ∀ j < 16, r.segSt u j = s.segSt u j) ∧
      Wrote 1 t (i * 0x20000 + off) payload s r := by
  rw [State.segStore_eq hs]
  generalize hx : (s.eccFresh 1 (s.coreOf t) (i * 0x20000 + off) payload.length).setSegSeal t i _ = x
  obtain ⟨hframe, hstate, hother, hmem⟩ := (x.mwrite 1 t (i * 0x20000 + off) payload).fillSeg_spec t hi
  have hregs : (x.mwrite 1 t (i * 0x20000 + off) payload).regs = s.regs := (State.mwrite_regs ..).trans (hx ▸ rfl)
  have hwait : (x.mwrite 1 t (i * 0x20000 + off) payload).strmWait = s.strmWait := (State.mwrite_strmWait ..).trans (hx ▸ rfl)
  have hread (f : Fld) : (x.mwrite 1 t (i * 0x20000 + off) payload).fget f = s.fget f := State.fget_congr (State.rget_congr hregs _)
  exact ⟨SegFrame.trans ⟨fun u j _ => congrArg (· != 0) (hread _), fun u => hread _, hwait⟩ hframe, hstate,
    fun u hu j hj => (hother u hu j hj).trans (hread _),
    (x.mwrite_wrote 1 t (i * 0x20000 + off) payload).of_mem (hx ▸ rfl) hmem⟩

/-! ## A plain write in a list of tiles -/

/-- Where each step of a loop writes one tile of a list, each of its segments is FILLING and holds the payload in the end, and no other byte has
changed. -/
theorem foldl_segStore {l : List Nat} {i : Nat → Nat} {off : Nat} {payload : List Byte} {f : State → Nat → State} {s : State}
    (hl : ∀ u ∈ l, u < 64) (hi : ∀ u ∈ l, i u < 16) (hfit : off + payload.length ≤ 0x20000) (hs : ∀ u ∈ l, s.segSealed u (i u) = false)
    (hf : ∀ r, SegFrame s r → ∀ u ∈ l, ∃ seq, f r u = r.segStore u (i u) off false seq payload) :
    let r := l.foldl f s
    SegFrame s r ∧
      (∀ u ∈ l, r.segSt u (i u) = sgFilling ∧ ∀ k < payload.length, r.mget 1 u (i u * 0x20000 + off + k) = payload.getD k 0) ∧
      ∀ space u o, u < 64 → o < 2 ^ 23 →
        ¬(space = 1 ∧ u ∈ l ∧ i u * 0x20000 + off ≤ o ∧ o < i u * 0x20000 + off + payload.length) → r.mget space u o = s.mget space u o := by
  have store (r : State) (hr : SegFrame s r) (u : Nat) (hu : u ∈ l) : SegFrame s (f r u) ∧ (f r u).segSt u (i u) = sgFilling ∧
      (∀ v, v ≠ u → ∀ j < 16, (f r u).segSt v j = r.segSt v j) ∧ Wrote 1 u (i u * 0x20000 + off) payload r (f r u) := by
    obtain ⟨seq, e⟩ := hf r hr u hu
    have hsealed : r.segSealed u (i u) = false := (hr.sealed u _ (hi u hu)).trans (hs u hu)
    obtain ⟨hframe, hstate, hother, hwrote⟩ := State.segStore_plain (hi u hu) hsealed off seq payload
    exact e ▸ ⟨hr.trans hframe, hstate, hother, hwrote⟩
  refine ⟨List.foldlRecOn _ _ (.refl s) fun r hr u hu => (store r hr u hu).1, ?_, ?_⟩
  · refine foldl_establishes (I := SegFrame s) (P := fun u r => r.segSt u (i u) = sgFilling ∧
      ∀ k < payload.length, r.mget 1 u (i u * 0x20000 + off + k) = payload.getD k 0) (.refl s) (fun r u hu hr => (store r hr u hu).1)
      (fun r u hu hr => ?_) fun r u hu n hn hne hr hp => ?_
    · obtain ⟨-, hstate, -, hwrote⟩ := store r hr u hu
      exact ⟨hstate, hwrote.same⟩
    · obtain ⟨-, -, hother, hwrote⟩ := store r hr n hn
      have hu16 := hi u hu
      have hn16 := hi n hn
      refine ⟨(hother u hne _ hu16).trans hp.1, fun k hk => (hwrote.other _ _ _ fun j hj e => ?_).trans (hp.2 k hk)⟩
      exact hne (memKey_inj (hl u hu) (hl n hn) (by omega) (by omega) e).2.1
  · intro space u o hu ho hout
    suffices SegFrame s (l.foldl f s) ∧ (l.foldl f s).mget space u o = s.mget space u o from this.2
    refine List.foldlRecOn (motive := fun r : State => SegFrame s r ∧ r.mget space u o = s.mget space u o) _ _ ⟨.refl s, rfl⟩
      fun r ⟨hr, hsame⟩ n hn => ?_
    obtain ⟨hframe, -, -, hwrote⟩ := store r hr n hn
    have hn16 := hi n hn
    refine ⟨hframe, (hwrote.other _ _ _ fun k hk e => hout ?_).trans hsame⟩
    obtain ⟨hspace, rfl, rfl⟩ := memKey_inj hu (hl n hn) ho (by omega) e
    exact ⟨hspace, hn, by omega, by omega⟩

/-! ## The request -/

theorem segNamed_lt (s : State) (u : Nat) (q : Req) : s.segNamed u q < 16 := by
  unfold State.segNamed
  split
  · exact s.ringFill_lt u
  · exact Nat.mod_lt _ (by decide)

theorem segNamed_congr {s t : State} {u : Nat} (q : Req) (h : t.ringFill u = s.ringFill u) : t.segNamed u q = s.segNamed u q := by
  simp only [State.segNamed, h]

/-- A payload within the limits of R101 is not empty and stays within its segment. -/
theorem segLimits_fits {q : Req} (h : segLimits false q = false) : 32 ≤ q.payload.length ∧ q.n 3 + q.payload.length ≤ 0x20000 := by
  simp only [segLimits, Bool.not_false, Bool.true_and, Bool.or_eq_false_iff, decide_eq_false_iff_not, Nat.not_lt] at h
  omega

/-- A SEG_WRITE that no tile refuses names no locked segment (R95). -/
theorem segLocked_of_not_refused {s : State} {q : Req} (h : s.segRefused q = none) : ∀ u ∈ q.tiles 0, s.segLocked u (s.segNamed u q) = false := by
  simp only [State.segRefused, Option.or_eq_none_iff, Option.map_eq_none_iff, List.find?_eq_none] at h
  obtain ⟨-, -, hbusy, -⟩ := h
  intro u hu
  have := hbusy u hu
  simp at this
  exact this.1.1

/-- A streaming SEG_WRITE that has arrived whole writes its payload in its targets, if none is locked, and is answered with its length. -/
theorem State.writeBegin_whole {s : State} {w : Writing} (hop : w.op = 0x22) (hpart : w.q.part = none) (htrailer : w.q.trailerOk = true)
    (hlimit : w.limit = w.q.payload.length) (hdone : w.done = 0) (hlocked : w.locked = none) (hpos : 0 < w.q.payload.length)
    (hfree : ∀ e ∈ w.targets, s.segLocked e.1 e.2 = false) :
    ∃ ws, s.writeBegin w =
      { s.writeCells w w.q.payload with writes := ws }.reply 0x22 w.q St.ok [BitVec.ofNat 32 w.q.payload.length] := by
  have hfind : (w.targets.find? fun e => s.segLocked e.1 e.2) = none :=
    List.find?_eq_none.2 fun e he => by simp [hfree e he]
  have hon : s.writeOn w w.q.payload true = (s.writeCells w w.q.payload).setWriting w { w with done := w.q.payload.length } := by
    unfold State.writeOn
    simp only [hlimit, hdone, if_true, Nat.min_self, if_neg (Nat.not_le.2 hpos), if_pos hop, hfind, List.take_length, List.drop_zero]
  unfold State.writeBegin
  rw [if_pos (by simp [hpart]), hon, htrailer]
  unfold State.setWriting State.writeEnd
  simp only [if_true, hop, hlocked]
  exact ⟨_, rfl⟩

/-- An accepted SEG_WRITE that no tile refuses writes in each named tile, from the state that its routine finds. -/
theorem doSegWrite_writes {q : Req} {s : State} (hstrm : segStrm q = false) (hplain : segSealedOp q = false) (htrailer : q.trailerOk = true)
    (hpart : q.part = none) (hruns : s.runs 0x22 q = true) (hlim : segLimits false q = false) (hfree : s.routine.segRefused q = none) :
    ∃ ws, doSegWrite q s =
      { (q.tiles 0).foldl (fun (r : State) u => r.segStore u (s.routine.segNamed u q) (q.n 3) false none q.payload) s.routine with
        writes := ws }.reply 0x22 q St.ok [BitVec.ofNat 32 q.payload.length] := by
  obtain ⟨hlen, -⟩ := segLimits_fits hlim
  rw [doSegWrite, if_neg (by simp [hstrm]), State.request_of_runs hruns rfl, if_neg (by simp [hlim]), hfree]
  obtain ⟨ws, hdo⟩ := State.writeBegin_whole (s := s.routine)
    (w := { op := 0x22, q := q, targets := (q.tiles 0).map fun t => (t, s.routine.segNamed t q), limit := q.payload.length })
    rfl hpart htrailer rfl rfl rfl (show 0 < q.payload.length by omega) (by simpa using segLocked_of_not_refused hfree)
  refine ⟨ws, hdo.trans ?_⟩
  rw [State.writeCells, if_pos rfl, List.foldl_map, hplain]
  rfl

/-- Counting events leaves every segment alone. -/
theorem Counts.segFrame {s t : State} (h : Counts s t) : SegFrame s t where
  sealed u i hi := State.flag_congr (h.regs _ (counting_of_ge (segFld_place u hi).1))
  fill u := State.fget_congr (h.regs _ (counting_of_ge (by simp only [R.STRM_STATUS_FILL, R.STRM_STATUS]; omega)))
  strmWait := h.strmWait

/-- Settles O16: each named tile is written in turn, in the segment that it named when the routine began. -/
theorem segmentWrites : Obligations.SegmentWrites := by
  unfold Obligations.SegmentWrites
  intro q s hstrm hplain htrailer hpart hruns hlim hfree hsealed
  obtain ⟨ws, hdo⟩ := doSegWrite_writes hstrm hplain htrailer hpart hruns hlim hfree
  have hr : Counts s s.routine := State.routine_counts s
  have hnamed (u : Nat) : s.routine.segNamed u q = s.segNamed u q := segNamed_congr q (hr.segFrame.fill u)
  simp only [hnamed] at hdo
  obtain ⟨-, hown, hother⟩ := foldl_segStore (l := q.tiles 0) (i := fun u => s.segNamed u q) (off := q.n 3) (payload := q.payload)
    (f := fun r u => r.segStore u (s.segNamed u q) (q.n 3) false none q.payload) (s := s.routine) (fun _ => tilesOf_lt)
    (fun u _ => segNamed_lt s u q) (segLimits_fits hlim).2
    (fun u hu => (hr.segFrame.sealed u _ (segNamed_lt s u q)).trans (hsealed u hu)) fun _ _ _ _ => ⟨none, rfl⟩
  generalize hr' : (q.tiles 0).foldl _ s.routine = r at hdo hown hother
  have hreply : Replies q.session.toNat _ _ :=
    State.reply_replies { r with writes := ws } 0x22 q St.ok [BitVec.ofNat 32 q.payload.length] []
  have hmem (space u o : Nat) : State.mget (State.reply { r with writes := ws } 0x22 q St.ok [BitVec.ofNat 32 q.payload.length]) space u o =
      r.mget space u o := State.mget_congr hreply.mem ..
  have hexec : exec (.segWrite q) s = .next (State.reply { r with writes := ws } 0x22 q St.ok [BitVec.ofNat 32 q.payload.length]) :=
    congrArg Host.Outcome.next ((State.byTable_of_runs hruns _).trans hdo)
  refine ⟨_, hexec, State.reply_answered _ _ _ _ _ _, fun u hu => ⟨?_, fun k hk => ?_⟩, fun space u o hu ho hout => ?_⟩
  · refine Eq.trans (State.fget_congr (hreply.regs _ ?_)) (hown u hu).1
    have := (segFld_place u (segNamed_lt s u q)).1
    have := q.session.isLt
    unfold R.SESS_STAT
    omega
  · exact (hmem ..).trans ((hown u hu).2 k hk)
  · exact (hmem ..).trans ((hother space u o hu ho hout).trans (State.mget_congr hr.mem ..))

end Sys2Proof.Machine
end

section
/-! SUPPORT. SEG_COMMIT: the commit in one tile, what it leaves alone, and the request that names one tile (04_pattern_store.md R94, R96, R99,
R101). -/

namespace Sys2Proof.Machine

/-! ## The registers of the chip -/

/-- No byte of memory, no stream packet that waits and none of the chip's registers changes, but for the sessions' and the event counters. -/
structure ChipSame (s t : State) : Prop where
  mem : t.mem = s.mem
  strmWait : t.strmWait = s.strmWait
  regs : RegsSame (fun a => decide (0x100000 ≤ a) || counting a || sessReg a) s t

namespace ChipSame

variable {s₀ s t : State}

theorem refl (s : State) : ChipSame s s := ⟨rfl, rfl, fun _ _ => rfl⟩

theorem trans (h : ChipSame s₀ s) (k : ChipSame s t) : ChipSame s₀ t :=
  ⟨k.mem.trans h.mem, k.strmWait.trans h.strmWait, fun a ha => (k.regs a ha).trans (h.regs a ha)⟩

/-- An update of other fields. -/
theorem upd (h : ChipSame s₀ s) (hm : t.mem = s.mem) (hw : t.strmWait = s.strmWait) (hr : t.regs = s.regs) : ChipSame s₀ t :=
  h.trans ⟨hm, hw, fun a _ => State.rget_congr hr a⟩

theorem fset (h : ChipSame s₀ s) {f : Fld} (hf : 0x100000 ≤ f.addr) (v : Nat) : ChipSame s₀ (s.fset f v) :=
  h.trans ⟨rfl, rfl, RegsSame.rset s (by simp [hf]) _⟩

theorem setFlag (h : ChipSame s₀ s) {f : Fld} (hf : 0x100000 ≤ f.addr) (b : Bool) : ChipSame s₀ (s.setFlag f b) := h.fset hf _

theorem reports (h : ChipSame s₀ s) {p : Nat → Bool} (k : Reports p s t) (hp : ∀ a, p a = true → 0x100000 ≤ a) : ChipSame s₀ t := by
  refine h.trans ⟨k.mem, k.strmWait, fun a ha => k.regs a ?_⟩
  obtain ⟨⟨hchip, hcnt⟩, hsess⟩ : (a < 0x100000 ∧ counting a = false) ∧ sessReg a = false := by simpa using ha
  have hpa : p a = false := Bool.eq_false_iff.2 fun e => absurd (hp a e) (Nat.not_le.2 hchip)
  simp [hpa, hcnt, hsess]

theorem counts (h : ChipSame s₀ s) (k : Counts s t) : ChipSame s₀ t :=
  h.reports (p := fun _ => false) (.of_counts k) fun _ e => nomatch e

theorem eventFor (h : ChipSame s₀ s) (who : Option (BitVec 5)) (code : Nat) (ps : List Word) : ChipSame s₀ (s.eventFor who code ps) :=
  h.reports (s.eventFor_reports (fun _ => false) who code ps) fun _ e => nomatch e

theorem segSync (h : ChipSame s₀ s) (n : Nat) : ChipSame s₀ (s.segSync n) := by
  refine h.reports (s.segSync_reports n) fun a ha => ?_
  simp only [segReg, R.SEG_STATE, R.STRM_STATUS, Bool.or_eq_true, beq_iff_eq] at ha
  omega

theorem modTile (h : ChipSame s₀ s) (n : Nat) (f : TileCtx → TileCtx) : ChipSame s₀ (s.modTile n f) := h.upd rfl rfl rfl

theorem ite {c : Prop} [Decidable c] {a b : State} (ha : ChipSame s a) (hb : ChipSame s b) : ChipSame s (if c then a else b) := by
  split
  · exact ha
  · exact hb

theorem foldl {α : Type} {l : List α} {f : State → α → State} (h : ChipSame s₀ s) (step : ∀ {r : State}, ∀ a ∈ l, ChipSame s₀ r → ChipSame s₀ (f r a)) :
    ChipSame s₀ (l.foldl f s) :=
  List.foldlRecOn l f h fun _ hr a ha => step a ha hr

theorem memSame (h : ChipSame s t) : MemSame s t := .of_mem h.mem

/-- A register of the chip that shows neither a session nor a counted event is unchanged. -/
theorem rget (h : ChipSame s t) {a : Nat} (ha : a < 0x100000) (hc : counting a = false) (hs : sessReg a = false) : t.rget a = s.rget a :=
  h.regs a (by simp [ha, hc, hs])

end ChipSame

/-! ## The commit in one tile -/

/-- A case of R96 applies in a tile that is PENDING or RUNNING only. -/
theorem State.not_idle_of_wanted {s : State} {t i : Nat} (h : s.wanted t i = true) : s.idle t = false := by
  have hstep : s.stepState t = stPending ∨ s.stepState t = stRunning := by
    simp only [State.wanted, Bool.and_eq_true, Bool.or_eq_true, beq_iff_eq] at h
    exact h.1
  rcases hstep with e | e <;> simp [State.idle, e]

/-- FILL moves on behind the FILL segment of a ring (R99). -/
def State.fillOn (s : State) (t i : Nat) : State :=
  if s.ringLen t != 0 && s.ringFill t == i then s.fset (R.STRM_STATUS_FILL t) (s.ringNext t i) else s

theorem State.fillOn_spec (s : State) (t i : Nat) {j : Nat} (hj : j < 16) :
    (s.fillOn t i).segSt t j = s.segSt t j ∧ (s.fillOn t i).stepState t = s.stepState t ∧ ChipSame s (s.fillOn t i) := by
  unfold State.fillOn
  split
  · refine ⟨s.fget_fset_apart _ (status_apart_seg hj rfl (show 4 ≤ 7 by decide)), s.fget_fset_addr _ ?_, (ChipSame.refl s).fset ?_ _⟩ <;>
      simp only [R.SEQ_STATUS_STATE, R.STRM_STATUS_FILL, R.SEQ_STATUS, R.STRM_STATUS] <;> omega
  · exact ⟨rfl, rfl, .refl s⟩

/-- The commit instant of a segment is on record. -/
def State.stampSeg (s : State) (t i : Nat) : State :=
  s.modTile t fun c => { c with tc := Store.put (fun _ => 0) c.tc i (s.tileTime t s.now) }

theorem State.stampSeg_rget (s : State) (t i a : Nat) : (s.stampSeg t i).rget a = s.rget a := rfl

theorem ChipSame.stampSeg {s₀ s : State} (h : ChipSame s₀ s) (t i : Nat) : ChipSame s₀ (s.stampSeg t i) := h.modTile ..

/-- The segment is VALID, its commit instant is on record, and FILL moves on. -/
def State.validated (s : State) (t i : Nat) : State := ((s.fset (segFld t i) sgValid).stampSeg t i).fillOn t i

theorem State.segValid_eq (s : State) (t i : Nat) : s.segValid t i = (s.validated t i).segSync t := rfl

theorem State.validated_spec (s : State) (t : Nat) {i : Nat} (hi : i < 16) :
    (s.validated t i).segSt t i = sgValid ∧ (s.validated t i).idle t = s.idle t ∧ ChipSame s (s.validated t i) := by
  have hvalid : ChipSame s (s.fset (segFld t i) sgValid) := (ChipSame.refl s).fset (segFld_place t hi).1 _
  have hstep : (s.fset (segFld t i) sgValid).stepState t = s.stepState t := s.fget_fset_addr _ (segState_ne_status hi).symm
  have hstate : (s.fset (segFld t i) sgValid).segSt t i = sgValid := s.segSt_fset_same t (by decide)
  obtain ⟨hseg, hfill, hchip⟩ := ((s.fset (segFld t i) sgValid).stampSeg t i).fillOn_spec t i hi
  refine ⟨(hseg.trans (State.fget_congr (State.stampSeg_rget ..))).trans hstate, congrArg (· == stIdle) ?_, (hvalid.stampSeg t i).trans hchip⟩
  exact (hfill.trans (State.fget_congr (State.stampSeg_rget ..))).trans hstep

/-- A committed segment is VALID, or QUEUED where the tile's step waits for it. -/
theorem State.segValid_spec (s : State) (t : Nat) {i : Nat} (hi : i < 16) :
    ((s.segValid t i).segSt t i = sgValid ∨ (s.idle t = false ∧ (s.segValid t i).segSt t i = sgQueued)) ∧ ChipSame s (s.segValid t i) := by
  obtain ⟨hvalid, hidle, hchip⟩ := s.validated_spec t hi
  rw [State.segValid_eq]
  refine ⟨?_, hchip.segSync t⟩
  rcases (s.validated t i).segSt_segSync t hi with h | ⟨-, h | ⟨hw, h⟩⟩
  · exact .inl (h.trans hvalid)
  · exact .inl h
  · exact .inr ⟨hidle ▸ State.not_idle_of_wanted hw, h⟩

theorem State.segCommit1_chipSame (s : State) (t : Nat) {i : Nat} (hi : i < 16) (crc : Word) : ChipSame s (s.segCommit1 t i crc).1 := by
  unfold State.segCommit1
  extract_lets st
  split
  · exact .refl s
  split
  · exact .refl s
  split
  · exact (s.segValid_spec t hi).2
  · exact .refl s

theorem State.segCommit1_filling {s : State} {t i : Nat} {crc : Word} (h : s.segSt t i = sgFilling) :
    s.segCommit1 t i crc = if s.segMatches t i crc then (s.segValid t i, none, true) else (s, some St.crcError, false) := by
  cases hm : s.segMatches t i crc <;> simp [State.segCommit1, h, hm]

/-! ## The request -/

/-- The answer to a SEG_COMMIT that names one tile and breaks no limit. -/
theorem doSegCommit_one {q : Req} {s : State} {u : Nat} (hstrm : segStrm q = false) (hruns : s.runs 0x23 q = true)
    (hlim : segLimits true q = false) (hl : q.tiles 0 = [u]) (hring : segRing q = true → s.routine.ringLen u ≠ 0)
    (hbundle : segSealedOp q = true → (s.routine.bundleOf u).isSome = true) :
    let c := s.routine.segCommit1 u (s.routine.segNamed u q) (q.p 3)
    let m := tileMask (if c.2.2 then [u] else [])
    doSegCommit q s = c.1.reply 0x23 q (c.2.1.getD St.ok) [m.1, m.2] := by
  have hring' : (segRing q && (q.tiles 0).any fun t => s.routine.ringLen t == 0) = false := by
    cases h : segRing q <;> simp_all
  have hbundle' : (segSealedOp q && (q.tiles 0).any fun t => (s.routine.bundleOf t).isNone) = false := by
    cases h : segSealedOp q <;> simp_all
  rw [doSegCommit, if_neg (by simp [hstrm]), State.request_of_runs hruns rfl, if_neg (by simp [hlim, hring', hbundle'])]
  simp [hl, State.segCommits]

/-- Counting events moves no bundle. -/
theorem Counts.bundleOf {s t : State} (h : Counts s t) (u : Nat) : t.bundleOf u = s.bundleOf u := by
  refine List.find?_congr fun n hn => ?_
  have hn := List.mem_range.1 hn
  have hreg {a : Nat} (ha : a < 0x83000) : t.rget a = s.rget a := h.regs a (decide_eq_false (by omega))
  have hvalid : t.flag (R.BUNDLE_CTL_VALID n) = s.flag (R.BUNDLE_CTL_VALID n) :=
    State.flag_congr (hreg (by simp only [R.BUNDLE_CTL_VALID, R.BUNDLE_CTL]; omega))
  rw [hvalid, hreg (a := R.BUNDLE_TILES_LO n) (by unfold R.BUNDLE_TILES_LO; omega),
    hreg (a := R.BUNDLE_TILES_HI n) (by unfold R.BUNDLE_TILES_HI; omega)]

theorem Counts.ringLen {s t : State} (h : Counts s t) (u : Nat) : t.ringLen u = s.ringLen u :=
  State.fget_congr (h.regs _ (counting_of_ge (by simp only [R.STRM_CFG_RING_LEN, R.STRM_CFG]; omega)))

theorem Counts.segSt {s t : State} (h : Counts s t) (u : Nat) {i : Nat} (hi : i < 16) : t.segSt u i = s.segSt u i :=
  State.fget_congr (h.regs _ (counting_of_ge (segFld_place u hi).1))

/-- A reply moves no segment. -/
theorem Replies.segSt {n : Nat} {s t : State} (h : Replies n s t) (hn : n < 32) (u : Nat) {i : Nat} (hi : i < 16) : t.segSt u i = s.segSt u i := by
  refine State.fget_congr (h.regs _ ?_)
  have := (segFld_place u hi).1
  unfold R.SESS_STAT
  omega

/-- Settles O17: the one tile's segment is committed if its contents match, and stands as it was if they do not. -/
theorem segmentCommits : Obligations.SegmentCommits := by
  unfold Obligations.SegmentCommits
  intro q s u hstrm hruns hlim hl hring hbundle hfill
  have hr : Counts s s.routine := State.routine_counts s
  have hi := segNamed_lt s u q
  have hdo := doSegCommit_one hstrm hruns hlim hl (fun h => hr.ringLen u ▸ hring h) fun h => hr.bundleOf u ▸ hbundle h
  have hexec : exec (.segCommit q) s = .next (doSegCommit q s) := congrArg Host.Outcome.next (State.byTable_of_runs hruns _)
  rw [segNamed_congr q (hr.segFrame.fill u), State.segCommit1_filling ((hr.segSt u hi).trans hfill)] at hdo
  have hreply (r : State) (st : BitVec 8) (ps : List Word) := State.reply_replies r 0x23 q st ps []
  refine ⟨fun hm => ?_, fun hm => ?_⟩
  · obtain ⟨hstate, hchip⟩ := s.routine.segValid_spec u hi
    rw [if_pos hm] at hdo
    rw [hdo] at hexec
    refine ⟨_, hexec, ?_, State.reply_answered _ _ _ _ _ _, .of_mem ((hreply ..).mem.trans (hchip.mem.trans hr.mem))⟩
    have hidle : s.routine.idle u = s.idle u := congrArg (· == stIdle) (StepSame.of_counts (u := u) hr).stepState
    rw [(hreply ..).segSt q.session.isLt u hi, ← hidle]
    exact hstate
  · rw [if_neg (by simp [hm])] at hdo
    rw [hdo] at hexec
    exact ⟨_, hexec, ((hreply ..).segSt q.session.isLt u hi).trans ((hr.segSt u hi).trans hfill), State.reply_answered _ _ _ _ _ _,
      .of_mem ((hreply ..).mem.trans hr.mem)⟩

end Sys2Proof.Machine
end

section
/-! SUPPORT. A stream packet that finds none waiting: it is discarded, out of sequence, a commit, or the first write of a segment
(04_pattern_store.md R106, R107, R108; 10_uhleus_protocol.md R245). -/

namespace Sys2Proof.Machine

/-! ## Copies and credits -/

/-- The registers, the memory and the stream packets that wait are the same. -/
structure CoreSame (s t : State) : Prop where
  regs : t.regs = s.regs
  mem : t.mem = s.mem
  strmWait : t.strmWait = s.strmWait

namespace CoreSame

variable {s₀ s t : State}

theorem refl (s : State) : CoreSame s s := ⟨rfl, rfl, rfl⟩

/-- A frame waits on links. -/
theorem frameOut (h : CoreSame s₀ s) (outs : List Nat) (f : Frame) (pkt : Nat) (src : Option Nat) (own : Option Packet) :
    CoreSame s₀ (s.frameOut outs f pkt src own) :=
  List.foldlRecOn (motive := CoreSame s₀) outs _ ⟨h.regs, h.mem, h.strmWait⟩ fun _ hr _ _ => ⟨hr.regs, hr.mem, hr.strmWait⟩

/-- The bytes of a packet wait on links. -/
theorem bytesOut (h : CoreSame s₀ s) (outs : List Nat) (cls : Nat) (b : List Byte) : CoreSame s₀ (s.bytesOut outs cls b) :=
  List.foldlRecOn (motive := CoreSame s₀) _ _ ⟨h.regs, h.mem, h.strmWait⟩ fun _ hr f _ => hr.frameOut outs f _ none _

end CoreSame

/-- An accepted packet is forwarded, its link is on record, and its credit is owed (R106, R107). -/
def State.strmReceive (s : State) (n : Nat) (p : StrmPkt) : State :=
  ((s.strmForward n p).fset (R.STRM_CTL_ULINK n) p.q.link.val).oweTo p.q.link.val 3 p.frames

theorem strmCtl_lt {n : Nat} (hn : n < 8) : R.STRM_CTL n < 0x1000 := by
  unfold R.STRM_CTL
  omega

theorem counting_of_lt {a : Nat} (h : a < 0x83000) : counting a = false := decide_eq_false (by omega)

theorem sessReg_of_lt {a : Nat} (h : a < 0x1100) : sessReg a = false := by
  refine List.any_eq_false.2 fun n _ => ?_
  simp [R.SESS_STAT, R.SESS_LOAD]
  omega

/-- What receiving a packet leaves alone: the memory, the packets that wait, and every register but the event counters and ULINK of the slot. -/
structure Received (n : Nat) (s t : State) : Prop where
  mem : t.mem = s.mem
  strmWait : t.strmWait = s.strmWait
  regs : RegsSame (fun a => counting a || a == R.STRM_CTL n) s t
  ctl : ∀ f : Fld, f.addr = R.STRM_CTL n → (R.STRM_CTL_ULINK n).Apart f → t.fget f = s.fget f

theorem State.strmReceive_received (s : State) {n : Nat} (hn : n < 8) (p : StrmPkt) : Received n s (s.strmReceive n p) := by
  obtain ⟨r, hlinks, hcounts⟩ : ∃ r, CoreSame s r ∧ Counts r (s.strmForward n p) := by
    unfold State.strmForward
    extract_lets outs
    split
    · exact ⟨s, .refl s, .refl s⟩
    · exact ⟨_, (CoreSame.refl s).bytesOut outs 3 _, State.evCount_counts ..⟩
  have hread {a : Nat} (ha : counting a = false) : (s.strmForward n p).rget a = s.rget a :=
    (hcounts.regs a ha).trans (State.rget_congr hlinks.regs a)
  refine ⟨hcounts.mem.trans hlinks.mem, hcounts.strmWait.trans hlinks.strmWait, fun a ha => ?_, fun f hf hapart => ?_⟩
  · obtain ⟨hcnt, hne⟩ : counting a = false ∧ a ≠ R.STRM_CTL n := by simpa using ha
    exact (State.rget_fset_other _ _ hne).trans (hread hcnt)
  · refine (State.fget_fset_apart _ _ hapart).trans (State.fget_congr (hread ?_))
    have := strmCtl_lt hn
    exact counting_of_lt (by omega)

namespace Received

variable {n : Nat} {s t : State}

theorem rget_tile (h : Received n s t) (hn : n < 8) {a : Nat} (ha : 0x100000 ≤ a) : t.rget a = s.rget a := by
  have := strmCtl_lt hn
  exact h.regs a (by simp [counting_of_ge ha]; omega)

theorem rget_next (h : Received n s t) (hn : n < 8) : t.rget (R.STRM_NEXT n) = s.rget (R.STRM_NEXT n) := by
  have hcnt : counting (R.STRM_NEXT n) = false := counting_of_lt (by unfold R.STRM_NEXT; omega)
  have hne : R.STRM_NEXT n ≠ R.STRM_CTL n := by simp [R.STRM_NEXT, R.STRM_CTL]
  exact h.regs _ (by simp [hcnt, hne])

theorem segFrame (h : Received n s t) (hn : n < 8) : SegFrame s t where
  sealed u i hi := State.flag_congr (h.rget_tile hn (segFld_place u hi).1)
  fill u := State.fget_congr (h.rget_tile hn (by simp only [R.STRM_STATUS_FILL, R.STRM_STATUS]; omega))
  strmWait := h.strmWait

end Received

/-! ## Members -/

/-- The member tiles of a slot are read in its registers and in those of the tiles. -/
theorem State.strmTiles_congr {s t : State} {n : Nat} (hlo : t.rget (R.STRM_TILES_LO n) = s.rget (R.STRM_TILES_LO n))
    (hhi : t.rget (R.STRM_TILES_HI n) = s.rget (R.STRM_TILES_HI n)) (hgroup : t.fget (R.STRM_CTL_GROUP n) = s.fget (R.STRM_CTL_GROUP n))
    (htile : ∀ a, 0x100000 ≤ a → t.rget a = s.rget a) : t.strmTiles n = s.strmTiles n := by
  have hcfg (u : Nat) : t.rget (R.STRM_CFG u) = s.rget (R.STRM_CFG u) := htile _ (by unfold R.STRM_CFG; omega)
  have hmember (u : Nat) : t.flag (R.STRM_CFG_MEMBER u) = s.flag (R.STRM_CFG_MEMBER u) := State.flag_congr (hcfg u)
  have hof (u : Nat) : t.fget (R.STRM_CFG_GROUP u) = s.fget (R.STRM_CFG_GROUP u) := State.fget_congr (hcfg u)
  simp only [State.strmTiles, hlo, hhi, hgroup, hmember, hof]

theorem State.receiving_congr {s t : State} (htile : ∀ a, 0x100000 ≤ a → t.rget a = s.rget a) : t.receiving = s.receiving := by
  funext u
  have hstep : t.stepState u = s.stepState u := State.fget_congr (htile _ (by simp only [R.SEQ_STATUS_STATE, R.SEQ_STATUS]; omega))
  have hpower : t.power u = s.power u := State.fget_congr (htile _ (by simp only [R.TILE_PWR_STATE, R.TILE_PWR]; omega))
  have hbroken : t.flag (R.STRM_STATUS_BROKEN u) = s.flag (R.STRM_STATUS_BROKEN u) :=
    State.flag_congr (htile _ (by simp only [R.STRM_STATUS_BROKEN, R.STRM_STATUS]; omega))
  simp only [State.receiving, hstep, hpower, hbroken]

/-- The members of a slot that receive (R106). -/
def State.strmHere (s : State) (n : Nat) : List Nat := (s.strmTiles n).filter s.receiving

theorem State.strmHere_lt {s : State} {n u : Nat} (h : u ∈ s.strmHere n) : u < 64 :=
  tilesOf_lt (List.mem_filter.1 (List.mem_filter.1 h).1).1

theorem Received.strmHere {n : Nat} {s t : State} (h : Received n s t) (hn : n < 8) : t.strmHere n = s.strmHere n := by
  have htile (a : Nat) (ha : 0x100000 ≤ a) : t.rget a = s.rget a := h.rget_tile hn ha
  have hslot {a : Nat} (hlt : a < 0x83000) (hne : a ≠ R.STRM_CTL n) : t.rget a = s.rget a := h.regs a (by simp [counting_of_lt hlt, hne])
  have hlo : t.rget (R.STRM_TILES_LO n) = s.rget (R.STRM_TILES_LO n) := hslot (by unfold R.STRM_TILES_LO; omega) (by simp [R.STRM_TILES_LO, R.STRM_CTL])
  have hhi : t.rget (R.STRM_TILES_HI n) = s.rget (R.STRM_TILES_HI n) := hslot (by unfold R.STRM_TILES_HI; omega) (by simp [R.STRM_TILES_HI, R.STRM_CTL])
  have hgroup : t.fget (R.STRM_CTL_GROUP n) = s.fget (R.STRM_CTL_GROUP n) :=
    h.ctl (R.STRM_CTL_GROUP n) rfl ⟨fun _ => .inl (show 7 < 24 by decide), show 24 ≤ 27 by decide, show 0 ≤ 7 by decide⟩
  rw [State.strmHere, State.strmTiles_congr hlo hhi hgroup htile, State.receiving_congr htile, State.strmHere]

/-- Tiles that become BROKEN show it in their own registers. -/
theorem ChipSame.strmBreak {s₀ s : State} (h : ChipSame s₀ s) (n g : Nat) (l : List Nat) : ChipSame s₀ (s.strmBreak n g l) := by
  unfold State.strmBreak
  refine .ite h (ChipSame.eventFor (.foldl h fun u _ hr => hr.setFlag ?_ true) ..)
  simp only [R.STRM_STATUS_BROKEN, R.STRM_STATUS]
  omega

/-! ## A commit (R106, R108) -/

theorem State.strmCommits_chipSame (s : State) (crc : Word) (l : List Nat) : ChipSame s (s.strmCommits crc l).1 := by
  induction l generalizing s with
  | nil => exact .refl s
  | cons t l ih => exact (s.segCommit1_chipSame t (s.ringFill_lt t) crc).trans (ih _)

theorem slotReg_place {n : Nat} (hn : n < 8) : R.STRM_NEXT n < 0x100000 ∧ counting (R.STRM_NEXT n) = false ∧ sessReg (R.STRM_NEXT n) = false := by
  have h : R.STRM_NEXT n < 0x1100 := by unfold R.STRM_NEXT; omega
  exact ⟨by omega, counting_of_lt (by omega), sessReg_of_lt h⟩

/-- A commit of a stream raises NEXT by one and changes no byte of memory. -/
theorem State.strmCommit_next (s : State) {n : Nat} (hn : n < 8) (g : Nat) (q : Req) :
    (s.strmCommit n g q).rget (R.STRM_NEXT n) = s.rget (R.STRM_NEXT n) + 1 ∧ (s.strmCommit n g q).mem = s.mem := by
  obtain ⟨hchip, hcnt, hsess⟩ := slotReg_place hn
  unfold State.strmCommit
  extract_lets x cur missed r s₁ s₂ s₃ s₄ s₅ m s₆
  have hundel (u : Nat) : 0x100000 ≤ (R.STRM_UNDEL_UNDEL u).addr := by
    simp only [R.STRM_UNDEL_UNDEL, R.STRM_UNDEL]
    omega
  have h₁ : ChipSame s s₁ := ChipSame.foldl (s.strmCommits_chipSame (q.p 3) cur) fun u _ hr => hr.fset (hundel u) _
  have h₂ : ChipSame s s₂ := .ite h₁ (h₁.counts (State.evCount_counts ..))
  have h₃ : ChipSame s s₃ := .ite (h₂.counts (State.evCount_counts ..)) h₂
  have h₄ : ChipSame s s₄ := .ite h₃ (h₃.counts (State.evCount_counts ..))
  clear_value s₄
  have hset (r : State) (w : Word) (y : Strm) : ((r.rset (R.STRM_NEXT n) w).setStrm n y).rget (R.STRM_NEXT n) = w := r.rget_rset_same _ w
  have hnext : s₅.rget (R.STRM_NEXT n) = s.rget (R.STRM_NEXT n) + 1 := (hset ..).trans (congrArg (· + 1) (h₄.rget hchip hcnt hsess))
  have hmem : s₅.mem = s.mem := h₄.mem
  clear_value s₅
  split
  · exact ⟨hnext, hmem⟩
  · have hcrc (u : Nat) : 0x100000 ≤ (R.STRM_STATUS_CRCERR u).addr := by
      simp only [R.STRM_STATUS_CRCERR, R.STRM_STATUS]
      omega
    have h₆ : ChipSame s₅ s₆ := .foldl (.refl s₅) fun u _ hr => hr.setFlag (hcrc u) true
    have hbreak := (h₆.eventFor x.owner 0x12 [BitVec.ofNat 32 g, m.1, m.2]).strmBreak n g r.2
    exact ⟨(hbreak.rget hchip hcnt hsess).trans hnext, hbreak.mem.trans hmem⟩

/-! ## The first write of a segment (R106, R107) -/

/-- Where every receiving member can take it, the first write of a segment is stored in the FILL segment of each. -/
theorem State.strmWrite_stores {s : State} {n : Nat} {q : Req} (hfirst : q.n 3 = 0) (hlim : segLimits false q = false)
    (hplain : segSealedOp q = false) (htrailer : q.trailerOk = true) (hempty : ∀ u ∈ s.strmHere n, s.segSt u (s.ringFill u) = sgEmpty) :
    ∃ r, SegFrame s r ∧ r.mem = s.mem ∧ s.strmWrite n q =
      (s.strmHere n).foldl (fun r u => r.segStore u (r.ringFill u) (q.n 3) false (some (q.n 4)) q.payload) r := by
  have hp : q.p 3 = 0 := BitVec.eq_of_toNat_eq hfirst
  unfold State.strmWrite
  extract_lets x here cur s₁ enc s₂
  have hcur : cur = s.strmHere n := if_pos hp
  have henc : enc = false := hplain
  have hnone : (cur.any fun t => decide (sgFilling < s₁.segSt t (s₁.ringFill t))) = false := by
    refine List.any_eq_false.2 fun u hu => ?_
    have hst : s₁.segSt u (s₁.ringFill u) = sgEmpty := hempty u (hcur ▸ hu)
    simp [hst]
  have hs₁ : SegFrame s s₁ := ⟨fun _ _ _ => rfl, fun _ => rfl, rfl⟩
  have hs₂ : SegFrame s s₂ ∧ s₂.mem = s.mem := by
    unfold s₂
    split
    · exact ⟨hs₁, rfl⟩
    · have hcounts := s₁.evCount_counts (96 + 4 * n) 1 none
      exact ⟨hs₁.trans hcounts.segFrame, hcounts.mem⟩
  rw [if_neg (by simp [hlim, hnone, henc])]
  simp only [hcur, henc, htrailer, if_true]
  exact ⟨s₂, hs₂.1, hs₂.2, rfl⟩

/-! ## A packet taken -/

/-- What a packet that is not the next does: SEQERR is set, and the members that receive become BROKEN. -/
def State.strmOutOfSeq (s : State) (n : Nat) (p : StrmPkt) : State :=
  let r := (s.setFlag (R.STRM_CTL_SEQERR n) true).eventFor (s.strm n).owner 0x11 [BitVec.ofNat 32 p.group, p.q.p 4, s.rget (R.STRM_NEXT n)]
  r.strmBreak n p.group (r.strmHere n)

/-- A packet that has been received is carried out if it is the next. -/
theorem State.strmTake_eq (s : State) {n : Nat} (hn : n < 8) (p : StrmPkt) :
    s.strmTake n p = if p.q.p 4 = s.rget (R.STRM_NEXT n) then
        if p.commit then if segLimits true p.q then s.strmReceive n p else (s.strmReceive n p).strmCommit n p.group p.q
        else (s.strmReceive n p).strmWrite n p.q
      else (s.strmReceive n p).strmOutOfSeq n p := by
  have hdo : s.strmTake n p = if p.q.p 4 != (s.strmReceive n p).rget (R.STRM_NEXT n) then (s.strmReceive n p).strmOutOfSeq n p
      else if p.commit then if segLimits true p.q then s.strmReceive n p else (s.strmReceive n p).strmCommit n p.group p.q
      else (s.strmReceive n p).strmWrite n p.q := rfl
  rw [hdo, (s.strmReceive_received hn p).rget_next hn]
  by_cases h : p.q.p 4 = s.rget (R.STRM_NEXT n)
  · rw [if_pos h, if_neg (by simp [h])]
  · rw [if_neg h, if_pos (by simp [h])]

/-- A packet that is not the next sets SEQERR of its group, and changes no byte of memory. -/
theorem State.strmTake_seqErr {s : State} {n : Nat} (hn : n < 8) {p : StrmPkt} (hseq : p.q.p 4 ≠ s.rget (R.STRM_NEXT n)) :
    (s.strmTake n p).flag (R.STRM_CTL_SEQERR n) = true ∧ (s.strmTake n p).mem = s.mem := by
  have hctl := strmCtl_lt hn
  have hr := s.strmReceive_received hn p
  rw [s.strmTake_eq hn p, if_neg hseq]
  generalize s.strmReceive n p = r at hr
  unfold State.strmOutOfSeq
  extract_lets r₁
  have h₁ : ChipSame (r.setFlag (R.STRM_CTL_SEQERR n) true) r₁ := (ChipSame.refl _).eventFor ..
  have h₂ := h₁.strmBreak n p.group (r₁.strmHere n)
  have hctl₂ := h₂.rget (a := R.STRM_CTL n) (by omega) (counting_of_lt (by omega)) (sessReg_of_lt (by omega))
  exact ⟨(State.flag_congr (f := R.STRM_CTL_SEQERR n) hctl₂).trans (State.flag_setFlag_same _ _ (Nat.le_refl 30) (show 30 < 32 by decide)),
    h₂.mem.trans hr.mem⟩

/-- A commit that is the next advances NEXT by one, and changes no byte of memory. -/
theorem State.strmTake_commits {s : State} {n : Nat} (hn : n < 8) {p : StrmPkt} (hseq : p.q.p 4 = s.rget (R.STRM_NEXT n))
    (hcommit : p.commit = true) (hlim : segLimits true p.q = false) :
    (s.strmTake n p).rget (R.STRM_NEXT n) = s.rget (R.STRM_NEXT n) + 1 ∧ (s.strmTake n p).mem = s.mem := by
  have hr := s.strmReceive_received hn p
  obtain ⟨hnext, hmem⟩ := (s.strmReceive n p).strmCommit_next hn p.group p.q
  rw [s.strmTake_eq hn p, if_pos hseq, if_pos hcommit, if_neg (by simp [hlim])]
  exact ⟨hnext.trans (congrArg (· + 1) (hr.rget_next hn)), hmem.trans hr.mem⟩

/-- The first cell of a segment is accepted where the FILL segment of every receiving member is EMPTY (R107). -/
theorem State.strmReady_first {s : State} {n : Nat} {p : StrmPkt} (hthrough : p.through = false) (hwrite : p.commit = false)
    (hfirst : p.q.n 3 = 0) (h : s.strmReady n p = true) : ∀ u ∈ s.strmHere n, s.segSt u (s.ringFill u) = sgEmpty := by
  have hp : p.q.p 3 = 0 := BitVec.eq_of_toNat_eq hfirst
  have hall : (s.strmHere n).all (fun t => s.segSt t (s.ringFill t) == sgEmpty) = true := by
    simp only [State.strmReady, hthrough, hwrite, hp, bne_self_eq_false, Bool.false_or, Bool.and_eq_true] at h
    exact h.1
  intro u hu
  simpa using List.all_eq_true.1 hall u hu

/-- The first write of a segment stands in the FILL segment of each receiving member, which is FILLING, and nowhere else. -/
theorem State.strmTake_stores {s : State} {n : Nat} (hn : n < 8) {p : StrmPkt} (hseq : p.q.p 4 = s.rget (R.STRM_NEXT n))
    (hthrough : p.through = false) (hwrite : p.commit = false) (hfirst : p.q.n 3 = 0) (hlim : segLimits false p.q = false)
    (hplain : segSealedOp p.q = false) (htrailer : p.q.trailerOk = true) (hready : s.strmReady n p = true)
    (hsealed : ∀ u ∈ s.strmHere n, s.segSealed u (s.ringFill u) = false) :
    let t := s.strmTake n p
    (∀ u ∈ s.strmHere n, t.segSt u (s.ringFill u) = sgFilling ∧
      ∀ k < p.q.payload.length, t.mget 1 u (s.ringFill u * 0x20000 + k) = p.q.payload.getD k 0) ∧
    ∀ space u o, u < 64 → o < 2 ^ 23 →
      ¬(space = 1 ∧ u ∈ s.strmHere n ∧ s.ringFill u * 0x20000 ≤ o ∧ o < s.ringFill u * 0x20000 + p.q.payload.length) →
        t.mget space u o = s.mget space u o := by
  have hr := s.strmReceive_received hn p
  have hframe := hr.segFrame hn
  have hfill (u : Nat) := hframe.fill u
  have hempty : ∀ u ∈ (s.strmReceive n p).strmHere n, (s.strmReceive n p).segSt u ((s.strmReceive n p).ringFill u) = sgEmpty := by
    intro u hu
    rw [hr.strmHere hn] at hu
    rw [hfill]
    exact (State.fget_congr (hr.rget_tile hn (segFld_place u (s.ringFill_lt u)).1)).trans
      (State.strmReady_first hthrough hwrite hfirst hready u hu)
  obtain ⟨r, hsame, hmem, hstores⟩ := State.strmWrite_stores hfirst hlim hplain htrailer hempty
  rw [s.strmTake_eq hn p, if_pos hseq, if_neg (by simp [hwrite]), hstores, hr.strmHere hn]
  have hfill_r (r' : State) (h : SegFrame r r') (u : Nat) : r'.ringFill u = s.ringFill u :=
    (h.fill u).trans ((hsame.fill u).trans (hfill u))
  obtain ⟨-, hown, hother⟩ := foldl_segStore (l := s.strmHere n) (i := s.ringFill) (off := 0) (payload := p.q.payload)
    (f := fun r u => r.segStore u (r.ringFill u) (p.q.n 3) false (some (p.q.n 4)) p.q.payload) (s := r) (fun _ => State.strmHere_lt)
    (fun u _ => s.ringFill_lt u) (by have := (segLimits_fits hlim).2; omega)
    (fun u hu => (hsame.sealed u _ (s.ringFill_lt u)).trans ((hframe.sealed u _ (s.ringFill_lt u)).trans (hsealed u hu)))
    fun r' h u _ => ⟨some (p.q.n 4), by rw [hfill_r r' h u, hfirst]⟩
  simp only [Nat.add_zero] at hown hother
  exact ⟨hown, fun space u o hu ho hout => (hother space u o hu ho hout).trans (State.mget_congr (hmem.trans hr.mem) ..)⟩

/-! ## One packet -/

theorem State.strmSlot_lt {s : State} {g n : Nat} (h : s.strmSlot g = some n) : n < 8 := List.mem_range.1 (List.mem_of_find?_eq_some h)

/-- The packet of a STREAM_PACKET. -/
abbrev strmPkt (g : BitVec 8) (commit : Bool) (q : Req) : StrmPkt := { group := g.toNat, commit := commit, q := q }

/-- One packet waits. -/
def State.holding (s : State) (p : StrmPkt) : State := { s with strmWait := [p] }

theorem State.strmHere_holding (s : State) (p : StrmPkt) (n : Nat) : (s.holding p).strmHere n = s.strmHere n := rfl

theorem State.strmSlot_holding (s : State) (p : StrmPkt) (g : Nat) : (s.holding p).strmSlot g = s.strmSlot g := rfl

theorem State.strmReady_holding (s : State) (p x : StrmPkt) (n : Nat) : (s.holding p).strmReady n x = s.strmReady n x := rfl

theorem State.ringFill_holding (s : State) (p : StrmPkt) (u : Nat) : (s.holding p).ringFill u = s.ringFill u := rfl

theorem State.mget_holding (s : State) (p : StrmPkt) (space u o : Nat) : (s.holding p).mget space u o = s.mget space u o := rfl

/-- A packet that finds none waiting is looked at alone. -/
theorem execStreamPacket_alone {s : State} (hwait : s.strmWait = []) (g : BitVec 8) (commit : Bool) (q : Req) :
    exec (.streamPacket g commit q) s = .next ((s.holding (strmPkt g commit q)).strmDrain [] [] [strmPkt g commit q]) := by
  have harrive (p : StrmPkt) : s.strmArrive p = (s.holding p).strmDrain [] [] [p] := by
    rw [State.strmArrive, hwait]
    rfl
  exact congrArg Host.Outcome.next (harrive _)

/-- For a group that is not open it is discarded. -/
theorem execStreamPacket_discards {s : State} {g : BitVec 8} {commit : Bool} {q : Req} (hwait : s.strmWait = [])
    (hslot : s.strmSlot g.toNat = none) :
    ∃ t, exec (.streamPacket g commit q) s = .next t ∧ t.strmWait = [] ∧ t.regs = s.discard.regs ∧ t.mem = s.mem := by
  rw [execStreamPacket_alone hwait, State.strmDrain, if_neg (by simp), State.strmSlot_holding, hslot]
  exact ⟨_, rfl, rfl, rfl, rfl⟩

/-- For an open group that accepts it, it is taken. -/
theorem execStreamPacket_takes {s : State} {g : BitVec 8} {commit : Bool} {q : Req} {n : Nat} (hwait : s.strmWait = [])
    (hslot : s.strmSlot g.toNat = some n) (hready : s.strmReady n (strmPkt g commit q) = true) :
    ∃ t, exec (.streamPacket g commit q) s = .next t ∧ t.strmWait = [] ∧
      t.regs = ((s.holding (strmPkt g commit q)).strmTake n (strmPkt g commit q)).regs ∧
      t.mem = ((s.holding (strmPkt g commit q)).strmTake n (strmPkt g commit q)).mem := by
  rw [execStreamPacket_alone hwait, State.strmDrain, if_neg (by simp), State.strmSlot_holding, hslot]
  dsimp only
  rw [if_pos ((s.strmReady_holding ..).trans hready)]
  generalize (s.holding (strmPkt g commit q)).strmTake n (strmPkt g commit q) = r
  exact ⟨_, rfl, rfl, rfl, rfl⟩

end Sys2Proof.Machine
end

section
/-! SUPPORT. STREAM_OPEN and STREAM_CLOSE: the registers of a slot and of its members (04_pattern_store.md R105). -/

namespace Sys2Proof.Machine

/-! ## Members enter and leave -/

/-- Tiles become members of a group, or members of none. -/
def State.strmJoin (s : State) (l : List Nat) (member : Bool) (g : Nat) : State :=
  l.foldl (fun s t => (s.setFlag (R.STRM_CFG_MEMBER t) member).fset (R.STRM_CFG_GROUP t) g) s

theorem State.strmJoin_spec (s : State) (l : List Nat) (member : Bool) {g : Nat} (hg : g < 256) :
    (∀ u ∈ l, (s.strmJoin l member g).flag (R.STRM_CFG_MEMBER u) = member ∧ (s.strmJoin l member g).fget (R.STRM_CFG_GROUP u) = g) ∧
      ChipSame s (s.strmJoin l member g) := by
  have hplace (u : Nat) : 0x100000 ≤ R.STRM_CFG u := by
    unfold R.STRM_CFG
    omega
  refine ⟨foldl_establishes (I := fun _ => True)
      (P := fun u r => r.flag (R.STRM_CFG_MEMBER u) = member ∧ r.fget (R.STRM_CFG_GROUP u) = g) trivial (fun _ _ _ _ => trivial)
      (fun r u _ _ => ⟨?_, ?_⟩) fun r u _ n _ hne _ hu => ?_,
    (ChipSame.refl s).foldl fun u _ hr => (hr.setFlag (f := R.STRM_CFG_MEMBER u) (hplace u) _).fset (f := R.STRM_CFG_GROUP u) (hplace u) _⟩
  · refine (State.flag_fset_apart _ _ ⟨fun _ => .inr (show 23 < 24 by decide), show 16 ≤ 23 by decide, Nat.le_refl 24⟩).trans ?_
    exact r.flag_setFlag_same _ (Nat.le_refl 24) (show 24 < 32 by decide)
  · refine (State.fget_fset_same _ _ (show 16 ≤ 23 by decide) (show 23 < 32 by decide)).trans ?_
    exact Nat.mod_eq_of_lt hg
  · have haddr : R.STRM_CFG u ≠ R.STRM_CFG n := by
      unfold R.STRM_CFG
      omega
    have hcfg : ((r.setFlag (R.STRM_CFG_MEMBER n) member).fset (R.STRM_CFG_GROUP n) g).rget (R.STRM_CFG u) = r.rget (R.STRM_CFG u) :=
      (State.rget_fset_other _ _ haddr).trans (State.rget_fset_other _ _ haddr)
    exact ⟨(State.flag_congr (f := R.STRM_CFG_MEMBER u) hcfg).trans hu.1, (State.fget_congr (f := R.STRM_CFG_GROUP u) hcfg).trans hu.2⟩

/-! ## The registers of a slot -/

/-- A slot is open for a group, with the replication links and the members given. -/
def State.strmEnter (s : State) (n links g : Nat) (lo hi next : Word) : State :=
  (((s.rset (R.STRM_CTL n) (BitVec.ofNat 32 (2 ^ 31 + 0xF000000 + 256 * links + g))).rset (R.STRM_TILES_LO n) lo).rset
    (R.STRM_TILES_HI n) hi).rset (R.STRM_NEXT n) next

theorem State.strmEnter_reads (s : State) (n links g : Nat) (lo hi next : Word) :
    let t := s.strmEnter n links g lo hi next
    t.rget (R.STRM_CTL n) = BitVec.ofNat 32 (2 ^ 31 + 0xF000000 + 256 * links + g) ∧ t.rget (R.STRM_TILES_LO n) = lo ∧
      t.rget (R.STRM_TILES_HI n) = hi ∧ t.rget (R.STRM_NEXT n) = next := by
  simp [State.strmEnter, R.STRM_CTL, R.STRM_TILES_LO, R.STRM_TILES_HI, R.STRM_NEXT]

/-- The control word of an open slot. -/
theorem strmCtl_fields {links g : Nat} (hl : links < 4096) (hg : g < 256) :
    let w : Word := BitVec.ofNat 32 (2 ^ 31 + 0xF000000 + 256 * links + g)
    field w 31 31 = 1 ∧ field w 7 0 = g ∧ field w 19 8 = links := by
  simp only [field, BitVec.toNat_ofNat]
  omega

/-! ## STREAM_OPEN -/

/-- Slots are read in their control words. -/
theorem State.strmSlot_congr {s t : State} (h : ∀ n < 8, t.rget (R.STRM_CTL n) = s.rget (R.STRM_CTL n)) (g : Nat) :
    t.strmSlot g = s.strmSlot g := by
  refine List.find?_congr fun n hn => ?_
  have hctl := h n (List.mem_range.1 hn)
  rw [State.flag_congr (f := R.STRM_CTL_OPEN n) hctl, State.fget_congr (f := R.STRM_CTL_GROUP n) hctl]

/-- Waking the engine and running a routine leave the other registers, the memory and the packets that wait. -/
theorem State.wakeEngine_routine (s : State) : s.wakeEngine.routine.mem = s.mem ∧
    ∀ a, counting a = false → a ≠ R.ENG_STATUS → a ≠ R.CAL_STATUS → a ≠ R.BT_STATUS → s.wakeEngine.routine.rget a = s.rget a := by
  have hr := State.routine_counts s.wakeEngine
  refine ⟨hr.mem, fun a ha he hc hb => (hr.regs a ha).trans ?_⟩
  unfold State.wakeEngine State.syncSusp State.setFlag
  exact (State.rget_fset_other _ _ hb).trans ((State.rget_fset_other _ _ hc).trans (State.rget_fset_other _ _ he))

/-- What a STREAM_OPEN asks for can be had: a free slot `n`, a group that is not open, links that carry frames, and tiles that can become
members. -/
structure Openable (s : State) (q : Req) (n : Nat) : Prop where
  free : (List.range 8).find? (fun n => !s.flag (R.STRM_CTL_OPEN n)) = some n
  group : s.strmSlot (q.n 0 % 256) = none
  links : ∀ k < 12, (nbits (q.n 0) 19 8).testBit k = true → s.trained k = true
  tiles : ∀ u ∈ q.tiles 1, s.tileFenced u = false ∧ s.ringLen u ≠ 0 ∧ s.flag (R.STRM_CFG_MEMBER u) = false
  recovery : s.flag R.BOOT_STATUS_RECOVERY = false

theorem Openable.congr {s t : State} {q : Req} {n : Nat} (h : Openable s q n)
    (hreg : ∀ a, counting a = false → a ≠ R.ENG_STATUS → a ≠ R.CAL_STATUS → a ≠ R.BT_STATUS → t.rget a = s.rget a) : Openable t q n := by
  have hlow {a : Nat} (ha : a < 0x40000) : t.rget a = s.rget a ∨ a = R.CAL_STATUS := by
    by_cases hc : a = R.CAL_STATUS
    · exact .inr hc
    · exact .inl (hreg a (counting_of_lt (by omega)) (by unfold R.ENG_STATUS; omega) hc (by unfold R.BT_STATUS; omega))
  have hchip {a : Nat} (ha : a < 0x40000) (hne : a ≠ R.CAL_STATUS) : t.rget a = s.rget a := (hlow ha).resolve_right hne
  have htile {a : Nat} (ha : 0x100000 ≤ a) : t.rget a = s.rget a :=
    hreg a (counting_of_ge ha) (by unfold R.ENG_STATUS; omega) (by unfold R.CAL_STATUS; omega) (by unfold R.BT_STATUS; omega)
  have hctl (n : Nat) (hn : n < 8) : t.rget (R.STRM_CTL n) = s.rget (R.STRM_CTL n) := by
    have := strmCtl_lt hn
    exact hchip (by omega) (by simp only [R.STRM_CTL, R.CAL_STATUS]; omega)
  refine ⟨?_, (State.strmSlot_congr hctl _).trans h.group, fun k hk hbit => ?_, fun u hu => ?_, ?_⟩
  · refine (List.find?_congr fun n hn => ?_).trans h.free
    rw [State.flag_congr (f := R.STRM_CTL_OPEN n) (hctl n (List.mem_range.1 hn))]
  · have hstate : t.linkState k = s.linkState k := State.fget_congr (f := R.LINK_STATUS_STATE k)
      (hchip (by simp only [R.LINK_STATUS_STATE, R.LINK_STATUS]; omega) (by simp only [R.LINK_STATUS_STATE, R.LINK_STATUS, R.CAL_STATUS]; omega))
    rw [State.trained, hstate]
    exact h.links k hk hbit
  · obtain ⟨hfenced, hring, hmember⟩ := h.tiles u hu
    have hu64 := tilesOf_lt hu
    have hmap : t.rget (R.TILE_MAP u) = s.rget (R.TILE_MAP u) :=
      hchip (by unfold R.TILE_MAP; omega) (by simp only [R.TILE_MAP, R.CAL_STATUS]; omega)
    have hcfg : t.rget (R.STRM_CFG u) = s.rget (R.STRM_CFG u) := htile (by unfold R.STRM_CFG; omega)
    exact ⟨(State.flag_congr (f := R.TILE_MAP_FENCED u) hmap).trans hfenced,
      (State.fget_congr (f := R.STRM_CFG_RING_LEN u) hcfg).trans_ne hring, (State.flag_congr (f := R.STRM_CFG_MEMBER u) hcfg).trans hmember⟩
  · exact (State.flag_congr (f := R.BOOT_STATUS_RECOVERY) (hchip (by decide) (by decide))).trans h.recovery

/-- A STREAM_OPEN whose checks pass enters its slot and its members. -/
theorem doStreamOpen_opens {q : Req} {s : State} {n : Nat} (hruns : s.wakeEngine.runs 0x24 q = true) (hlt : q.n 0 < 2 ^ 20)
    (hopen : Openable s.wakeEngine.routine q n) :
    doStreamOpen q s = (((s.wakeEngine.routine.strmEnter n (nbits (q.n 0) 19 8) (q.n 0 % 256) (q.p 1) (q.p 2) (q.p 3)).strmJoin (q.tiles 1) true
      (q.n 0 % 256)).setStrm n { owner := some q.session }).reply 0x24 q St.ok := by
  rw [doStreamOpen, State.request_of_runs hruns rfl]
  generalize s.wakeEngine.routine = r at hopen
  extract_lets g links l free bad
  have hlinks : ((List.range 12).any fun k => links.testBit k && !r.trained k) = false := by
    refine List.any_eq_false.2 fun k hk => ?_
    have := hopen.links k (List.mem_range.1 hk)
    simpa using this
  have htiles : (l.any fun t => r.tileFenced t || r.ringLen t == 0 || r.flag (R.STRM_CFG_MEMBER t)) = false := by
    refine List.any_eq_false.2 fun u hu => ?_
    obtain ⟨hfenced, hring, hmember⟩ := hopen.tiles u hu
    simp [hfenced, hring, hmember]
  have hgroup : (r.strmSlot g).isSome = false := by simp [g, hopen.group]
  have hbad : bad = false := by
    simp only [bad, hlinks, htiles, hgroup, Bool.or_false, decide_eq_false_iff_not]
    omega
  have hfree : free = some n := hopen.free
  rw [hbad, hfree]
  exact if_neg (by simp [hopen.recovery])

/-! ## STREAM_CLOSE -/

/-- The members of a slot leave, and the slot is closed. -/
def State.strmShut (s : State) (n : Nat) : State :=
  ((((s.strmJoin (s.strmTiles n) false 0).setFlag (R.STRM_CTL_OPEN n) false).rset (R.STRM_TILES_LO n) 0).rset (R.STRM_TILES_HI n) 0).setStrm n {}

theorem doStreamClose_closes {q : Req} {s : State} {n : Nat} (hruns : s.runs 0x25 q = true) (hlt : q.n 0 < 256)
    (hslot : s.routine.strmSlot (q.n 0) = some n) (hwait : s.routine.strmWait = []) :
    doStreamClose q s = (s.routine.strmShut n).reply 0x25 q St.ok := by
  rw [doStreamClose, State.request_of_runs hruns rfl]
  generalize s.routine = r at hslot hwait
  have hfind : (if q.n 0 < 256 then r.strmSlot (q.n 0) else none) = some n := (if_pos hlt).trans hslot
  have hshut : (r.strmShut n).strmWait = [] := by
    have hjoin : (r.strmJoin (r.strmTiles n) false 0).strmWait = r.strmWait := (r.strmJoin_spec _ false (by decide)).2.strmWait
    exact hjoin.trans hwait
  have hpump : (r.strmShut n).strmPump = r.strmShut n := if_pos (by simp [hshut])
  dsimp only
  rw [hfind]
  exact congrArg (fun x : State => x.reply 0x25 q St.ok) hpump

theorem State.strmShut_spec (s : State) {n : Nat} (hn : n < 8) : (s.strmShut n).flag (R.STRM_CTL_OPEN n) = false ∧
    (∀ u ∈ s.strmTiles n, (s.strmShut n).flag (R.STRM_CFG_MEMBER u) = false) ∧ (s.strmShut n).mem = s.mem := by
  obtain ⟨hmembers, hchip⟩ := s.strmJoin_spec (s.strmTiles n) false (g := 0) (by decide)
  have hread {a : Nat} (hlo : a ≠ R.STRM_TILES_LO n) (hhi : a ≠ R.STRM_TILES_HI n) : (s.strmShut n).rget a =
      ((s.strmJoin (s.strmTiles n) false 0).setFlag (R.STRM_CTL_OPEN n) false).rget a :=
    (State.rget_rset_other _ _ hhi).trans (State.rget_rset_other _ _ hlo)
  refine ⟨?_, fun u hu => ?_, hchip.mem⟩
  · refine (State.flag_congr (f := R.STRM_CTL_OPEN n) (hread ?_ ?_)).trans
      (State.flag_setFlag_same _ _ (Nat.le_refl 31) (show 31 < 32 by decide)) <;>
      simp [R.STRM_CTL_OPEN, R.STRM_CTL, R.STRM_TILES_LO, R.STRM_TILES_HI]
  · have hplace : R.STRM_CFG u ≠ R.STRM_TILES_LO n ∧ R.STRM_CFG u ≠ R.STRM_TILES_HI n ∧ R.STRM_CFG u ≠ R.STRM_CTL n := by
      simp only [R.STRM_CFG, R.STRM_TILES_LO, R.STRM_TILES_HI, R.STRM_CTL]
      omega
    obtain ⟨hlo, hhi, hctl⟩ := hplace
    exact ((State.flag_congr (f := R.STRM_CFG_MEMBER u) (hread hlo hhi)).trans (State.flag_setFlag_addr _ _ hctl)).trans (hmembers u hu).1

/-! ## The statement -/

/-- A reply leaves the registers of streams alone. -/
theorem Replies.rget {n : Nat} {s t : State} (h : Replies n s t) (hn : n < 32) {a : Nat} (ha : a < 0x1100 ∨ 0x100000 ≤ a) : t.rget a = s.rget a :=
  h.regs a (by unfold R.SESS_STAT; omega)

/-- What an accepted STREAM_OPEN whose checks pass leaves. -/
theorem doStreamOpen_spec {q : Req} {s : State} {n : Nat} (hruns : s.wakeEngine.runs 0x24 q = true) (hlt : q.n 0 < 2 ^ 20) (h : Openable s q n) :
    let t := doStreamOpen q s
    t.flag (R.STRM_CTL_OPEN n) = true ∧ t.fget (R.STRM_CTL_GROUP n) = q.n 0 % 256 ∧ t.fget (R.STRM_CTL_DLINKS n) = nbits (q.n 0) 19 8 ∧
      t.rget (R.STRM_TILES_LO n) = q.p 1 ∧ t.rget (R.STRM_TILES_HI n) = q.p 2 ∧ t.rget (R.STRM_NEXT n) = q.p 3 ∧
      (∀ u ∈ q.tiles 1, t.flag (R.STRM_CFG_MEMBER u) = true ∧ t.fget (R.STRM_CFG_GROUP u) = q.n 0 % 256) ∧ Answered t 0x24 q St.ok [] [] ∧
      MemSame s t := by
  obtain ⟨hmem, hreg⟩ := s.wakeEngine_routine
  rw [doStreamOpen_opens hruns hlt (h.congr hreg)]
  generalize s.wakeEngine.routine = r at hmem
  have hn : n < 8 := List.mem_range.1 (List.mem_of_find?_eq_some h.free)
  have hg : q.n 0 % 256 < 256 := Nat.mod_lt _ (by decide)
  have hlinks : nbits (q.n 0) 19 8 < 4096 := Nat.mod_lt _ (by decide)
  obtain ⟨hctl, hlo, hhi, hnext⟩ := r.strmEnter_reads n (nbits (q.n 0) 19 8) (q.n 0 % 256) (q.p 1) (q.p 2) (q.p 3)
  obtain ⟨hopen, hgroup, hdlinks⟩ := strmCtl_fields hlinks hg
  have henter : (r.strmEnter n (nbits (q.n 0) 19 8) (q.n 0 % 256) (q.p 1) (q.p 2) (q.p 3)).mem = r.mem := rfl
  generalize r.strmEnter n (nbits (q.n 0) 19 8) (q.n 0 % 256) (q.p 1) (q.p 2) (q.p 3) = r₁ at *
  obtain ⟨hmembers, hchip⟩ := r₁.strmJoin_spec (q.tiles 1) true hg
  generalize r₁.strmJoin (q.tiles 1) true (q.n 0 % 256) = r₂ at *
  have hreply := State.reply_replies (r₂.setStrm n { owner := some q.session }) 0x24 q St.ok [] []
  have hslot {a : Nat} (ha : a < 0x1100) :
      ((r₂.setStrm n { owner := some q.session }).reply 0x24 q St.ok).rget a = r₁.rget a :=
    (hreply.rget q.session.isLt (.inl ha)).trans (hchip.rget (by omega) (counting_of_lt (by omega)) (sessReg_of_lt ha))
  have hcfg (u : Nat) : ((r₂.setStrm n { owner := some q.session }).reply 0x24 q St.ok).rget (R.STRM_CFG u) = r₂.rget (R.STRM_CFG u) :=
    hreply.rget q.session.isLt (.inr (by unfold R.STRM_CFG; omega))
  have hword := (hslot (a := R.STRM_CTL n) (by unfold R.STRM_CTL; omega)).trans hctl
  refine ⟨?_, ?_, ?_, (hslot (by unfold R.STRM_TILES_LO; omega)).trans hlo, (hslot (by unfold R.STRM_TILES_HI; omega)).trans hhi,
    (hslot (by unfold R.STRM_NEXT; omega)).trans hnext, fun u hu => ?_, State.reply_answered _ _ _ _ _ _,
    .of_mem (hreply.mem.trans (hchip.mem.trans (henter.trans hmem)))⟩
  · simp only [State.flag, State.fget, R.STRM_CTL_OPEN, hword, hopen]
    decide
  · simp only [State.fget, R.STRM_CTL_GROUP, hword, hgroup]
  · simp only [State.fget, R.STRM_CTL_DLINKS, hword, hdlinks]
  · exact ⟨(State.flag_congr (f := R.STRM_CFG_MEMBER u) (hcfg u)).trans (hmembers u hu).1,
      (State.fget_congr (f := R.STRM_CFG_GROUP u) (hcfg u)).trans (hmembers u hu).2⟩

/-- What an accepted STREAM_CLOSE of an open group leaves, with no stream packet waiting. -/
theorem doStreamClose_spec {q : Req} {s : State} {n : Nat} (hruns : s.runs 0x25 q = true) (hlt : q.n 0 < 256)
    (hslot : s.strmSlot (q.n 0) = some n) (hwait : s.strmWait = []) :
    let t := doStreamClose q s
    t.flag (R.STRM_CTL_OPEN n) = false ∧ (∀ u ∈ s.strmTiles n, t.flag (R.STRM_CFG_MEMBER u) = false) ∧ Answered t 0x25 q St.ok [] [] ∧
      MemSame s t := by
  have hn := State.strmSlot_lt hslot
  have hr : Counts s s.routine := State.routine_counts s
  have hchip {a : Nat} (ha : a < 0x83000) : s.routine.rget a = s.rget a := hr.regs a (counting_of_lt ha)
  have hctl (n : Nat) (hn : n < 8) : s.routine.rget (R.STRM_CTL n) = s.rget (R.STRM_CTL n) := hchip (by unfold R.STRM_CTL; omega)
  have htiles : s.routine.strmTiles n = s.strmTiles n := State.strmTiles_congr (hchip (by unfold R.STRM_TILES_LO; omega))
    (hchip (by unfold R.STRM_TILES_HI; omega)) (State.fget_congr (f := R.STRM_CTL_GROUP n) (hctl n hn)) fun a ha => hr.regs a (counting_of_ge ha)
  obtain ⟨hopen, hmembers, hmem⟩ := s.routine.strmShut_spec hn
  rw [doStreamClose_closes hruns hlt ((State.strmSlot_congr hctl _).trans hslot) (hr.strmWait.trans hwait)]
  have hreply := State.reply_replies (s.routine.strmShut n) 0x25 q St.ok [] []
  refine ⟨?_, fun u hu => ?_, State.reply_answered _ _ _ _ _ _, .of_mem (hreply.mem.trans (hmem.trans hr.mem))⟩
  · have := strmCtl_lt hn
    exact (State.flag_congr (f := R.STRM_CTL_OPEN n) (hreply.rget q.session.isLt (.inl (by simp only [R.STRM_CTL_OPEN]; omega)))).trans hopen
  · refine (State.flag_congr (f := R.STRM_CFG_MEMBER u) (hreply.rget q.session.isLt (.inr ?_))).trans (hmembers u (htiles ▸ hu))
    simp only [R.STRM_CFG_MEMBER, R.STRM_CFG]
    omega

/-- Settles O18: the requests write the registers of a slot and of its members, and a packet that finds none waiting is discarded or taken. -/
theorem streamsOpenClose : Obligations.StreamsOpenClose := by
  unfold Obligations.StreamsOpenClose
  refine ⟨?_, ?_, ?_, ?_⟩
  · intro q s n hruns hrec hlt hfree hgroup hlinks htiles
    have hexec : exec (.streamOpen q) s = .next (doStreamOpen q s) :=
      congrArg Host.Outcome.next (if_neg (Bool.eq_false_iff.1 (State.overridden_of_runs hruns)))
    exact ⟨_, hexec, doStreamOpen_spec hruns hlt ⟨hfree, hgroup, hlinks, htiles, hrec⟩⟩
  · intro q s n hruns hlt hslot hwait
    have hexec : exec (.streamClose q) s = .next (doStreamClose q s) := congrArg Host.Outcome.next (State.byTable_of_runs hruns _)
    exact ⟨_, hexec, doStreamClose_spec hruns hlt hslot hwait⟩
  · intro g commit q s hwait
    refine ⟨fun hslot hfew => ?_, fun n hslot hready hseq => ?_⟩
    · obtain ⟨t, hexec, hnone, hregs, hmem⟩ := execStreamPacket_discards (commit := commit) (q := q) hwait hslot
      refine ⟨t, hexec, ?_, hnone, fun a ha => ?_, .of_mem hmem⟩
      · exact (State.fget_congr (State.rget_congr hregs _)).trans (State.fget_count_of_lt (Nat.zero_le 31) (show 31 < 32 by decide) hfew)
      · exact (State.rget_congr hregs a).trans (s.rget_fset_other _ (by simpa [R.PROTO_DISCARD_COUNT] using ha))
    · obtain ⟨t, hexec, -, hregs, hmem⟩ := execStreamPacket_takes hwait hslot hready
      obtain ⟨hflag, hsame⟩ := State.strmTake_seqErr (s := s.holding (strmPkt g commit q)) (State.strmSlot_lt hslot)
        (p := strmPkt g commit q) hseq
      exact ⟨t, hexec, (State.flag_congr (State.rget_congr hregs _)).trans hflag, .of_mem (hmem.trans hsame)⟩
  · intro g q s n hwait hslot hseq
    have hn := State.strmSlot_lt hslot
    refine ⟨fun hlim => ?_, fun hlim hplain hfirst htrailer hready hsealed => ?_⟩
    · obtain ⟨t, hexec, hnone, hregs, hmem⟩ := execStreamPacket_takes (commit := true) (q := q) hwait hslot rfl
      obtain ⟨hnext, hsame⟩ := State.strmTake_commits (s := s.holding (strmPkt g true q)) hn (p := strmPkt g true q) hseq rfl hlim
      exact ⟨t, hexec, (State.rget_congr hregs _).trans hnext, hnone, .of_mem (hmem.trans hsame)⟩
    · obtain ⟨t, hexec, hnone, hregs, hmem⟩ := execStreamPacket_takes hwait hslot hready
      obtain ⟨hown, hother⟩ := State.strmTake_stores (s := s.holding (strmPkt g false q)) hn (p := strmPkt g false q) hseq rfl rfl hfirst hlim
        hplain htrailer hready hsealed
      simp only [State.strmHere_holding, State.ringFill_holding, State.mget_holding] at hown hother
      refine ⟨t, hexec, hnone, fun u hu => ?_, fun space u o hu ho hout => (State.mget_congr hmem ..).trans (hother space u o hu ho hout)⟩
      obtain ⟨hfill, hbytes⟩ := hown u hu
      exact ⟨(State.fget_congr (State.rget_congr hregs _)).trans hfill, fun k hk => (State.mget_congr hmem ..).trans (hbytes k hk)⟩

end Sys2Proof.Machine
end

section
/-! SUPPORT. A stall ends: the tile resumes behind the commit, or its step ends at the limit (04_pattern_store.md R111, R112). -/

namespace Sys2Proof.Machine

variable {s t : State}

/-! ## The stall registers of a tile -/

/-- STALL_COUNT, STALL_SUM and STALL_MAX of a tile. -/
def stallReg (u a : Nat) : Bool := a == R.STALL_COUNT u || a == R.STALL_SUM_LO u || a == R.STALL_SUM_HI u || a == R.STALL_MAX u

theorem inTile_of_stallReg {u a : Nat} (h : stallReg u a = true) : inTile u a = true := by
  simp only [stallReg, R.STALL_COUNT, R.STALL_SUM_LO, R.STALL_SUM_HI, R.STALL_MAX, Bool.or_eq_true, beq_iff_eq] at h
  exact decide_eq_true (by omega)

theorem stallReg_ge {u a : Nat} (h : stallReg u a = true) : 0x100000 ≤ a := by
  have := of_decide_eq_true (inTile_of_stallReg h)
  omega

theorem State.pair_setPair (s : State) {lo hi : Nat} (h : lo ≠ hi) (v : Nat) : (s.setPair lo hi v).pair lo hi = v % 2 ^ 64 := by
  have hlo : (s.setPair lo hi v).rget lo = BitVec.ofNat 32 v := (State.rget_rset_other _ _ h).trans (State.rget_rset_same ..)
  have hhi : (s.setPair lo hi v).rget hi = BitVec.ofNat 32 (v / 2 ^ 32) := State.rget_rset_same ..
  simp only [State.pair, hlo, hhi, BitVec.toNat_ofNat]
  omega

theorem State.rget_setPair_other (s : State) {lo hi a : Nat} (v : Nat) (hl : a ≠ lo) (hh : a ≠ hi) : (s.setPair lo hi v).rget a = s.rget a :=
  (State.rget_rset_other _ _ hh).trans (State.rget_rset_other _ _ hl)

theorem State.pair_congr {lo hi : Nat} (hl : t.rget lo = s.rget lo) (hh : t.rget hi = s.rget hi) : t.pair lo hi = s.pair lo hi := by
  simp only [State.pair, hl, hh]

theorem RegsOnly.setPair {p : Nat → Bool} {s₀ : State} (h : RegsOnly p s₀ s) {lo hi : Nat} (hl : p lo = true) (hh : p hi = true) (v : Nat) :
    RegsOnly p s₀ (s.setPair lo hi v) :=
  (h.rset hl _).rset hh _

/-- A stall of `n` units of 1/256 ns enters the registers of its tile (R111; log entry 70). -/
def State.bookStall (s : State) (u n : Nat) : State :=
  let s := s.count (R.STALL_COUNT_COUNT u)
  let s := s.setPair (R.STALL_SUM_LO u) (R.STALL_SUM_HI u) (s.pair (R.STALL_SUM_LO u) (R.STALL_SUM_HI u) + n)
  s.fset (R.STALL_MAX_MAX u) (max (s.fget (R.STALL_MAX_MAX u)) (min n (2 ^ 32 - 1)))

theorem State.bookStall_spec (s : State) (u n : Nat) (hfew : s.fget (R.STALL_COUNT_COUNT u) < 2 ^ 32 - 1) :
    (s.bookStall u n).fget (R.STALL_COUNT_COUNT u) = s.fget (R.STALL_COUNT_COUNT u) + 1 ∧
      (s.bookStall u n).pair (R.STALL_SUM_LO u) (R.STALL_SUM_HI u) = (s.pair (R.STALL_SUM_LO u) (R.STALL_SUM_HI u) + n) % 2 ^ 64 ∧
      (s.bookStall u n).fget (R.STALL_MAX_MAX u) = max (s.fget (R.STALL_MAX_MAX u)) (min n (2 ^ 32 - 1)) ∧
      RegsOnly (stallReg u) s (s.bookStall u n) := by
  have hold : s.fget (R.STALL_MAX_MAX u) < 2 ^ 32 := field_lt ..
  have hnew : max (s.fget (R.STALL_MAX_MAX u)) (min n (2 ^ 32 - 1)) < 2 ^ 32 := by omega
  have hsm : R.STALL_SUM_LO u ≠ R.STALL_MAX u ∧ R.STALL_SUM_HI u ≠ R.STALL_MAX u := by simp [R.STALL_SUM_LO, R.STALL_SUM_HI, R.STALL_MAX]
  have hcm : R.STALL_COUNT u ≠ R.STALL_MAX u := by simp [R.STALL_COUNT, R.STALL_MAX]
  have hcs : R.STALL_COUNT u ≠ R.STALL_SUM_LO u ∧ R.STALL_COUNT u ≠ R.STALL_SUM_HI u := by simp [R.STALL_COUNT, R.STALL_SUM_LO, R.STALL_SUM_HI]
  have hss : R.STALL_SUM_LO u ≠ R.STALL_SUM_HI u := by simp [R.STALL_SUM_LO, R.STALL_SUM_HI]
  unfold State.bookStall
  extract_lets s₁ s₂
  have hcount : s₁.fget (R.STALL_COUNT_COUNT u) = s.fget (R.STALL_COUNT_COUNT u) + 1 :=
    State.fget_count_of_lt (Nat.zero_le 31) (show 31 < 32 by decide) hfew
  have hother {a : Nat} (ha : a ≠ R.STALL_COUNT u) : s₁.rget a = s.rget a := s.rget_fset_other _ ha
  have h₁ : RegsOnly (stallReg u) s s₁ := (RegsOnly.refl s).fset (f := R.STALL_COUNT_COUNT u) (by simp [stallReg, R.STALL_COUNT_COUNT]) _
  clear_value s₁
  have hpair : s₂.pair (R.STALL_SUM_LO u) (R.STALL_SUM_HI u) = _ := s₁.pair_setPair hss _
  have hkeep {a : Nat} (hl : a ≠ R.STALL_SUM_LO u) (hh : a ≠ R.STALL_SUM_HI u) : s₂.rget a = s₁.rget a := s₁.rget_setPair_other _ hl hh
  have h₂ : RegsOnly (stallReg u) s s₂ := h₁.setPair (by simp [stallReg]) (by simp [stallReg]) _
  clear_value s₂
  have hmax : s₂.fget (R.STALL_MAX_MAX u) = s.fget (R.STALL_MAX_MAX u) :=
    State.fget_congr (f := R.STALL_MAX_MAX u) ((hkeep hsm.1.symm hsm.2.symm).trans (hother hcm.symm))
  refine ⟨?_, ?_, ?_, h₂.fset (by simp [stallReg, R.STALL_MAX_MAX]) _⟩
  · exact (State.fget_congr (f := R.STALL_COUNT_COUNT u) ((State.rget_fset_other _ _ hcm).trans (hkeep hcs.1 hcs.2))).trans hcount
  · rw [State.pair_congr (State.rget_fset_other _ _ hsm.1) (State.rget_fset_other _ _ hsm.2), hpair,
      State.pair_congr (hother hcs.1.symm) (hother hcs.2.symm)]
  · rw [State.fget_fset_same _ _ (Nat.zero_le 31) (show 31 < 32 by decide), hmax]
    exact Nat.mod_eq_of_lt hnew

/-! ## The stalled tile clocks are counted (18_moraine_counters.md R425, R428) -/

/-- What counting an event of a tile does: no byte of memory and no context of a tile changes, and of the registers only those of the
programmable counters and their snapshots. -/
structure Tallies (s t : State) : Prop where
  mem : t.mem = s.mem
  tiles : t.tiles = s.tiles
  regs : RegsSame (fun a => decide (0x83000 ≤ a ∧ a < 0x83408)) s t

namespace Tallies

variable {s₀ : State}

theorem trans (h : Tallies s₀ s) (k : Tallies s t) : Tallies s₀ t :=
  ⟨k.mem.trans h.mem, k.tiles.trans h.tiles, fun a ha => (k.regs a ha).trans (h.regs a ha)⟩

theorem of_counts (h : Counts s t) : Tallies s t := by
  refine ⟨h.mem, h.tiles, fun a ha => h.regs a (decide_eq_false ?_)⟩
  have := of_decide_eq_false ha
  omega

theorem bumpSnap (h : Tallies s₀ s) {m : Nat} (hm : m < 64) (k fuel : Nat) : Tallies s₀ (s.bumpSnap m k fuel) := by
  induction fuel generalizing s m k with
  | zero => exact h
  | succ fuel ih =>
    unfold State.bumpSnap
    have hplace : decide (0x83000 ≤ R.PCNT_SNAP m ∧ R.PCNT_SNAP m < 0x83408) = true := decide_eq_true (by unfold R.PCNT_SNAP; omega)
    have hset : Tallies s₀ (s.rset (R.PCNT_SNAP m) (BitVec.ofNat 32 ((s.rget (R.PCNT_SNAP m)).toNat + k))) :=
      h.trans ⟨rfl, rfl, RegsSame.rset s hplace _⟩
    dsimp only
    split
    · next hc => exact ih hset hc.2.1 _
    · exact hset

theorem lateEv (h : Tallies s₀ s) (n k : Nat) : Tallies s₀ (s.lateEv n k) := by
  unfold State.lateEv
  split
  · exact h
  · refine List.foldlRecOn (motive := Tallies s₀) _ _ ⟨h.mem, h.tiles, h.regs⟩ fun r hr c hc => ?_
    beta_reduce
    split
    · exact hr.bumpSnap (State.pcntConfigured_lt hc) _ _
    · exact hr

end Tallies

theorem State.tileEv_tallies (s : State) (u k : Nat) (i : Int) (n : Nat) : Tallies s (s.tileEv u k i n) := by
  unfold State.tileEv
  extract_lets pc
  split
  · exact ⟨rfl, rfl, fun _ _ => rfl⟩
  · exact (Tallies.of_counts (State.evCount_counts ..)).lateEv _ _

/-- With no frost snapshot held only the event counters change. -/
theorem State.tileEv_counting (hfrost : s.flag R.FROST_STATUS_VALID = false) (u k : Nat) (i : Int) (n : Nat) :
    RegsSame counting s (s.tileEv u k i n) := by
  have hnone : s.beforeFrost (s.chipTime u i) n = 0 := if_neg (by simp [hfrost])
  unfold State.tileEv
  extract_lets pc
  split
  · exact fun _ _ => rfl
  · rw [hnone, State.lateEv, if_pos rfl]
    exact (State.evCount_counts ..).regs

/-! ## STALL_RESUME -/

/-- The stall of a tile is over, and its cycles begin afresh at `i`. -/
def State.endStall (s : State) (u : Nat) (i : Int) : State :=
  ((s.setFlag (R.SEQ_STATUS_STALLED u) false).modTile u fun (c : TileCtx) => { c with stall := none, endE := i, fillE := i }).freshStart u

theorem State.endStall_spec (s : State) (u : Nat) (i : Int) : ((s.endStall u i).tile u).stall = none ∧ ((s.endStall u i).tile u).endE = i ∧
    (s.endStall u i).flag (R.SEQ_STATUS_STALLED u) = false ∧ (s.endStall u i).mem = s.mem ∧ RegsSame (fun a => a == R.SEQ_STATUS u) s (s.endStall u i) := by
  have htile : (s.endStall u i).tile u =
      { s.tile u with stall := none, endE := i, fillE := i, execAt := none, fresh := (s.setFlag (R.SEQ_STATUS_STALLED u) false).cycles u } := by
    unfold State.endStall State.freshStart
    rw [State.tile_modTile, if_pos rfl, State.tile_modTile, if_pos rfl]
    rfl
  have hregs (a : Nat) : (s.endStall u i).rget a = (s.setFlag (R.SEQ_STATUS_STALLED u) false).rget a := rfl
  refine ⟨by rw [htile], by rw [htile], ?_, rfl, fun a ha => (hregs a).trans (s.rget_fset_other _ (by simpa [R.SEQ_STATUS_STALLED] using ha))⟩
  exact (State.flag_congr (hregs _)).trans (State.flag_setFlag_same _ _ (Nat.le_refl 4) (show 4 < 32 by decide))

/-- A stalled tile whose segment is ready at the grid point `i`, before any limit, resumes there. -/
theorem doStallResume_resumes {u : Fin 64} {e i : Int} {seg : Nat} (hstall : (s.tile u).stall = some (e, seg))
    (hi : i = gridFrom (s.tile u).period (max e (Store.get (fun _ => 0) (s.tile u).tc seg + readyDelay))) (hready : s.segReady u seg i = true)
    (hlim : s.stallLimit u = 0 ∨ i < e + s.stallLimit u) :
    doStallResume u s = ((s.bookStall u ((i - e) / unitFs).toNat).tileEv u 2 e ((i - e) / tileClock).toNat).endStall u i := by
  have hlim' : (s.stallLimit u != 0 && decide (e + s.stallLimit u ≤ i)) = false := by
    rcases hlim with h | h
    · simp [h]
    · simp [Int.not_le.2 h]
  unfold doStallResume
  dsimp only
  rw [hstall]
  dsimp only
  rw [← hi, if_neg (by simp [hready]), if_neg (by rw [hlim']; decide)]
  rfl

/-! ## STALL_LIMIT_EXPIRY -/

/-- A step ends with a status, whether or not a compare still waits for its outcome, while another tile of the group runs. -/
theorem State.endStep_stops {u v : Nat} (hu : u < 64) (hv : v < 64) (hne : v ≠ u) (hrun : s.stepState u = stRunning)
    (hother : s.stepState v = stRunning) (hgroup : (s.tile v).group = (s.tile u).group) (hundue : s.undue) (st : BitVec 8) {cause : Nat}
    (hc : cause < 16) : Ended u st cause s (s.endStep u st cause) := by
  have htile := s.endTile_ended hu st hc
  have hend := htile.of_playsOn hu (State.boundary_playsOn htile.state (State.undue_congr htile.awaited hundue))
  have hstep := hend.other v hv hne
  have hmerge := State.groupCheck_runs hv (hstep.group.trans (hgroup.trans hend.group.symm)) (hstep.stepState.trans hother)
  unfold State.endStep
  rw [if_pos (by rw [hrun]; rfl)]
  dsimp only
  rw [hmerge]
  exact hend

theorem doStallLimitExpiry_ends {u : Fin 64} {e : Int} {seg : Nat} (hstall : (s.tile u).stall = some (e, seg)) (hlim : s.stallLimit u ≠ 0)
    (hreach : e + s.stallLimit u < s.tileTime u s.now + 2560 * unitFs) :
    doStallLimitExpiry u s = (s.tileEv u 2 e (s.stallLimit u / tileClock).toNat).endStep u St.starved 2 := by
  unfold doStallLimitExpiry
  rw [hstall]
  exact if_pos (by simp [hlim, hreach])

/-! ## The statement -/

/-- Settles O40: the stall is booked, its tile clocks are counted and the tile goes on; or its clocks are counted and its step ends. -/
theorem stallsEnd : Obligations.StallsEnd := by
  unfold Obligations.StallsEnd
  refine ⟨?_, ?_⟩
  · intro u s e seg hstall i hready hlim hfew
    obtain ⟨hcount, hsum, hmax, hbooked⟩ := s.bookStall_spec u ((i - e) / unitFs).toNat hfew
    have hdo := doStallResume_resumes hstall rfl hready hlim
    have hexec : exec (.stallResume u) s = .next (doStallResume u s) := rfl
    rw [hdo] at hexec
    generalize s.bookStall u ((i - e) / unitFs).toNat = b at *
    have htally := b.tileEv_tallies u 2 e ((i - e) / tileClock).toNat
    have hfrost : s.flag R.FROST_STATUS_VALID = false → RegsSame counting b (b.tileEv u 2 e ((i - e) / tileClock).toNat) := by
      intro h
      have hstatus : stallReg u R.FROST_STATUS = false := Bool.eq_false_iff.2 fun k => absurd (stallReg_ge k) (by decide)
      exact State.tileEv_counting ((State.flag_congr (f := R.FROST_STATUS_VALID) (hbooked.regs _ hstatus)).trans h) _ _ _ _
    generalize b.tileEv u 2 e ((i - e) / tileClock).toNat = r at *
    obtain ⟨hnone, hend, hstalled, hmem, hregs⟩ := r.endStall_spec u i
    have hread {a : Nat} (ha : stallReg u a = true) : (r.endStall u i).rget a = b.rget a := by
      have hge := stallReg_ge ha
      refine (hregs a ?_).trans (htally.regs a (decide_eq_false (by omega)))
      simp only [stallReg, R.STALL_COUNT, R.STALL_SUM_LO, R.STALL_SUM_HI, R.STALL_MAX, Bool.or_eq_true, beq_iff_eq] at ha
      simp only [R.SEQ_STATUS, beq_eq_false_iff_ne]
      omega
    refine ⟨_, hexec, hnone, hend, hstalled, ?_, ?_, ?_, .of_mem (hmem.trans (htally.mem.trans hbooked.mem)), fun hvalid a ha => ?_⟩
    · exact (State.fget_congr (f := R.STALL_COUNT_COUNT u) (hread (by simp [stallReg, R.STALL_COUNT_COUNT]))).trans hcount
    · exact (State.pair_congr (hread (by simp [stallReg])) (hread (by simp [stallReg]))).trans hsum
    · exact (State.fget_congr (f := R.STALL_MAX_MAX u) (hread (by simp [stallReg, R.STALL_MAX_MAX]))).trans hmax
    · obtain ⟨htile, hcnt⟩ : inTile u a = false ∧ counting a = false := by simpa using ha
      have hstatus : (a == R.SEQ_STATUS u) = false := by
        have := of_decide_eq_false htile
        simp only [R.SEQ_STATUS, beq_eq_false_iff_ne]
        omega
      have hstall : stallReg u a = false := Bool.eq_false_iff.2 fun k => by simp [inTile_of_stallReg k] at htile
      exact (hregs a hstatus).trans ((hfrost hvalid a hcnt).trans (hbooked.regs a hstall))
  · intro u v s hne ⟨e, seg, hstall, hreach⟩ hlim hrun _ hgroup hother hsoft hfence hunfence hcore
    have hplays := (PlaysOn.refl s).tileEv u 2 e (s.stallLimit u / tileClock).toNat
    have hexec : exec (.stallLimitExpiry u) s = .next (doStallLimitExpiry u s) := rfl
    rw [doStallLimitExpiry_ends hstall hlim hreach] at hexec
    generalize s.tileEv u 2 e (s.stallLimit u / tileClock).toNat = r at *
    have hu := hplays.step u u.isLt
    have hv := hplays.step v v.isLt
    have hends := State.endStep_stops u.isLt v.isLt (fun k => hne (Fin.ext k.symm)) (hu.stepState.trans hrun) (hv.stepState.trans hother)
      (hv.group.trans (hgroup.trans hu.group.symm)) (State.undue_congr hplays.awaited (State.undue_iff.2 ⟨hsoft, hfence, hunfence, hcore⟩))
      St.starved (cause := 2) (by decide)
    exact ⟨_, hexec, hends.state, hends.endStatus, hends.cause⟩

end Sys2Proof.Machine
end

section
/-! SUPPORT. What acquisition leaves alone: of every channel all but its stop windows, the contributions to the condition flags of every tile, of
which none is taken away, and the stops that each channel has accepted (07_time_measurement.md R172 to R187; 08_acquisition.md R192 to R217). -/

namespace Sys2Proof.Machine

/-- A channel but for its stop windows. -/
def ChanCtx.butWins (c : ChanCtx) : ChanCtx := { c with wins := [] }

/-- An address that no channel has its TDC_ACCEPT at. -/
def OffAccept (a : Nat) : Prop := ∀ ch, a ≠ R.TDC_ACCEPT ch

theorem OffAccept.tile {t o : Nat} (h : o % 0x400 ≠ 0x114) : OffAccept (0x100000 + t * 0x10000 + o) := by
  unfold OffAccept R.TDC_ACCEPT
  omega

theorem OffAccept.chan {ch o : Nat} (h : o < 0x400 ∧ o ≠ 0x114) : OffAccept (0x500000 + ch * 0x400 + o) := by
  unfold OffAccept R.TDC_ACCEPT
  omega

theorem OffAccept.chip {a : Nat} (h : a < 0x500000) : OffAccept a := by
  unfold OffAccept R.TDC_ACCEPT
  omega

/-- Acquisition goes on: channels keep all but their stop windows, tiles keep what contributes to their condition flags, and no further stop is
accepted. -/
structure Acquires (s t : State) : Prop where
  chans : ∀ ch, (t.chan ch).butWins = (s.chan ch).butWins
  closing : ∀ u, (t.tile u).closing = (s.tile u).closing
  conds : ∀ u, (s.tile u).conds ⊆ (t.tile u).conds
  accept : ∀ ch, t.rget (R.TDC_ACCEPT ch) = s.rget (R.TDC_ACCEPT ch)

namespace Acquires

variable {s₀ s t : State}

theorem refl (s : State) : Acquires s s := ⟨fun _ => rfl, fun _ => rfl, fun _ => List.Subset.refl _, fun _ => rfl⟩

theorem trans (h : Acquires s₀ s) (k : Acquires s t) : Acquires s₀ t :=
  ⟨fun ch => (k.chans ch).trans (h.chans ch), fun u => (k.closing u).trans (h.closing u), fun u _ hx => k.conds u (h.conds u hx),
    fun ch => (k.accept ch).trans (h.accept ch)⟩

theorem strobes (h : Acquires s t) (ch : Nat) : (t.chan ch).strobes = (s.chan ch).strobes := (congrArg ChanCtx.strobes (h.chans ch) :)
theorem hiAbove (h : Acquires s t) (ch : Nat) : (t.chan ch).hiAbove = (s.chan ch).hiAbove := (congrArg ChanCtx.hiAbove (h.chans ch) :)
theorem loBelow (h : Acquires s t) (ch : Nat) : (t.chan ch).loBelow = (s.chan ch).loBelow := (congrArg ChanCtx.loBelow (h.chans ch) :)
theorem lastStop (h : Acquires s t) (ch : Nat) : (t.chan ch).lastStop = (s.chan ch).lastStop := (congrArg ChanCtx.lastStop (h.chans ch) :)

/-- An update of the registers and of fields other than the contexts of tiles and channels. -/
theorem upd (h : Acquires s₀ s) (ht : t.tiles = s.tiles) (hc : t.chans = s.chans)
    (hr : ∀ ch, t.rget (R.TDC_ACCEPT ch) = s.rget (R.TDC_ACCEPT ch)) : Acquires s₀ t := by
  have hchan (ch : Nat) : t.chan ch = s.chan ch := by
    rw [State.chan, hc]
    rfl
  refine h.trans ⟨fun ch => congrArg _ (hchan ch), fun u => congrArg _ (State.tile_congr ht u), fun u => ?_, hr⟩
  rw [State.tile_congr ht]
  exact List.Subset.refl _

theorem of_counts (h : Acquires s₀ s) (k : Counts s t) : Acquires s₀ t :=
  h.upd k.tiles k.chans fun _ => k.regs _ (counting_of_ge (by unfold R.TDC_ACCEPT; omega))

theorem of_regsOnly {p : Nat → Bool} (h : Acquires s₀ s) (k : RegsOnly p s t) (hp : ∀ ch, p (R.TDC_ACCEPT ch) = false) : Acquires s₀ t :=
  h.upd k.tiles (congrArg State.chans k.same :) fun ch => k.regs _ (hp ch)

theorem ite {c : Prop} [Decidable c] {a b : State} (ha : Acquires s a) (hb : Acquires s b) : Acquires s (if c then a else b) := by
  split
  · exact ha
  · exact hb

/-- What is done only on a condition. -/
theorem when {c : Prop} [Decidable c] (h : Acquires s₀ s) (step : Acquires s₀ s → Acquires s₀ t) : Acquires s₀ (if c then t else s) :=
  .ite (step h) h

theorem foldl {α : Type} {l : List α} {f : State → α → State} (h : Acquires s₀ s)
    (step : ∀ {s}, ∀ a ∈ l, Acquires s₀ s → Acquires s₀ (f s a)) : Acquires s₀ (l.foldl f s) :=
  List.foldlRecOn l f h fun _ hb a ha => step a ha hb

theorem rset (h : Acquires s₀ s) {a : Nat} (ha : OffAccept a) (v : Word) : Acquires s₀ (s.rset a v) :=
  h.upd rfl rfl fun ch => State.rget_rset_other _ _ (ha ch).symm

theorem fset (h : Acquires s₀ s) {f : Fld} (hf : OffAccept f.addr) (v : Nat) : Acquires s₀ (s.fset f v) := h.rset hf _

theorem setFlag (h : Acquires s₀ s) {f : Fld} (hf : OffAccept f.addr) (b : Bool) : Acquires s₀ (s.setFlag f b) := h.fset hf _

theorem count (h : Acquires s₀ s) {f : Fld} (hf : OffAccept f.addr) (k : Nat) : Acquires s₀ (s.count f k) := h.fset hf _

theorem setPair (h : Acquires s₀ s) {lo hi : Nat} (hl : OffAccept lo) (hh : OffAccept hi) (v : Nat) : Acquires s₀ (s.setPair lo hi v) :=
  (h.rset hl _).rset hh _

/-- An update of a tile that may add contributions. -/
theorem modTile_adds (h : Acquires s₀ s) (n : Nat) {f : TileCtx → TileCtx} (hf : ∀ c, (f c).closing = c.closing)
    (hc : ∀ c, c.conds ⊆ (f c).conds) : Acquires s₀ (s.modTile n f) := by
  refine h.trans ⟨fun _ => rfl, fun u => ?_, fun u => ?_, fun _ => rfl⟩
  · rw [State.tile_modTile]
    split
    · next e => exact e ▸ hf _
    · rfl
  · rw [State.tile_modTile]
    split
    · next e => exact e ▸ hc _
    · exact List.Subset.refl _

theorem modTile (h : Acquires s₀ s) (n : Nat) {f : TileCtx → TileCtx} (hf : ∀ c, ((f c).closing, (f c).conds) = (c.closing, c.conds)) :
    Acquires s₀ (s.modTile n f) :=
  h.modTile_adds n (fun c => (Prod.mk.inj (hf c)).1) fun c => (Prod.mk.inj (hf c)).2 ▸ List.Subset.refl _

/-- An update of the stop windows of a channel. -/
theorem modChan (h : Acquires s₀ s) (n : Nat) {f : ChanCtx → ChanCtx} (hf : ∀ c, (f c).butWins = c.butWins) :
    Acquires s₀ (s.modChan n f) := by
  refine h.trans ⟨fun ch => ?_, fun _ => rfl, fun _ => List.Subset.refl _, fun _ => rfl⟩
  rw [State.chan_modChan]
  split
  · next e => exact e ▸ hf _
  · rfl

theorem mwrite (h : Acquires s₀ s) (p n o : Nat) (l : List Byte) : Acquires s₀ (s.mwrite p n o l) :=
  h.upd (by simp) (by simp) fun _ => State.rget_congr (by simp) _

theorem suspectFlag (h : Acquires s₀ s) (n k : Nat) : Acquires s₀ (s.suspectFlag n k) := h.modTile n fun _ => by rfl

theorem indChan (h : Acquires s₀ s) (ch : Nat) : Acquires s₀ (s.indChan ch) := by
  unfold State.indChan
  exact h.modTile (ch / 16) fun _ => by rfl

/-! ## Records (08_acquisition.md R192 to R201, R211 to R213) -/

theorem recStamp (h : Acquires s₀ s) (n time : Nat) : Acquires s₀ (s.recStamp n time) := by
  unfold State.recStamp
  exact h.modTile n fun _ => by rfl

theorem ringPut (h : Acquires s₀ s) (n : Nat) (w0 w1 w2 w3 : Word) : Acquires s₀ (s.ringPut n w0 w1 w2 w3) := by
  unfold State.ringPut
  exact (((h.mwrite ..).modTile n fun _ => by rfl).fset (.tile (by decide)) _).fset (.tile (by decide)) _

theorem putAnchor (h : Acquires s₀ s) (n cyc time : Nat) (step : Bool) : Acquires s₀ (s.putAnchor n cyc time step) := by
  unfold State.putAnchor
  exact ((h.recStamp n time).ringPut n _ _ _ _).modTile n fun _ => by rfl

theorem putCrevasse (h : Acquires s₀ s) (n : Nat) (g : Gap) : Acquires s₀ (s.putCrevasse n g) := by
  unfold State.putCrevasse
  exact ((((h.recStamp n g.start).ringPut n _ _ _ _).modTile n fun _ => by rfl).setFlag (.tile (by decide)) _).count (.tile (by decide)) _

theorem lose (h : Acquires s₀ s) (n : Nat) (r : CapRec) (cause : Nat) : Acquires s₀ (s.lose n r cause) := by
  unfold State.lose
  exact (((h.modTile n fun _ => by rfl).setFlag (.tile (by decide)) _).count (.tile (by decide)) _).suspectFlag n _

theorem putRecord (h : Acquires s₀ s) (n : Nat) (r : CapRec) : Acquires s₀ (s.putRecord n r) := by
  have put {x : State} (k : Acquires s₀ x) (w : Word × Word × Word × Word) :
      Acquires s₀ ((x.recStamp n r.time).ringPut n w.1 w.2.1 w.2.2.1 w.2.2.2) := (k.recStamp n r.time).ringPut n _ _ _ _
  unfold State.putRecord
  refine .ite h (.ite ((h.modTile n fun _ => by rfl).lose n r 3) ?_)
  dsimp only
  split
  · exact .ite (put ((h.putCrevasse n _).putAnchor n _ _ _) _) (h.lose n r 1)
  · exact .ite (.ite (put (h.putAnchor n _ _ _) _) (h.lose n r 1)) (.ite (put h _) (h.lose n r 1))

theorem beginHold (h : Acquires s₀ s) (n : Nat) (i : Int) : Acquires s₀ (s.beginHold n i) := by
  unfold State.beginHold
  exact h.modTile n fun _ => by rfl

theorem endFrame (h : Acquires s₀ s) (n : Nat) (i : Int) : Acquires s₀ (s.endFrame n i) := by
  unfold State.endFrame
  extract_lets s₁ s₂ lim
  have h₂ : Acquires s₀ s₂ := ((h.modTile n fun _ => by rfl).setFlag (.tile (by decide)) _).beginHold n i
  exact h₂.when fun k => k.setFlag (.tile (by decide)) _

theorem frameRecord (h : Acquires s₀ s) (n : Nat) (f : FrameCtx) (r : CapRec) : Acquires s₀ (s.frameRecord n f r) := by
  unfold State.frameRecord
  have hput := (h.putRecord n r).modTile n (f := fun c => { c with cap := { c.cap with frame := some { f with postLeft := f.postLeft - 1 } } })
    fun _ => rfl
  exact .ite (h.when fun k => k.lose n r 2)
    (.ite (.ite h (hput.when fun k => k.endFrame n _)) (h.when fun k => (k.putRecord n r).modTile n fun _ => by rfl))

theorem lateRecord (h : Acquires s₀ s) (n : Nat) (f : FrameCtx) (r : CapRec) : Acquires s₀ (s.lateRecord n f r) :=
  h.when fun k => (k.putRecord n r).modTile n fun _ => by rfl

theorem pendRecord (h : Acquires s₀ s) (n : Nat) (r : CapRec) : Acquires s₀ (s.pendRecord n r) := by
  unfold State.pendRecord
  exact h.modTile n fun _ => by rfl

theorem stageSlot (h : Acquires s₀ s) (n : Nat) (i : Int) : Acquires s₀ (s.stageSlot n i).1 := by
  unfold State.stageSlot
  dsimp only
  exact h.modTile n fun _ => by rfl

theorem record (h : Acquires s₀ s) (n : Nat) (r : CapRec) (i : Int) : Acquires s₀ (s.record n r i) := by
  unfold State.record
  refine .ite h ?_
  split
  · exact h
  · next r _ =>
    extract_lets s₁
    have h₁ : Acquires s₀ s₁ := h.when fun k => k.modTile n fun _ => by rfl
    have h₂ := h₁.stageSlot n i
    refine .ite (.ite (h₂.putRecord n r) (.ite h₂ (h₂.lose n r 2))) (.ite h₂ ?_)
    split
    · exact .ite (h₂.frameRecord n _ r) (h₂.when fun k => k.lose n r 2)
    · exact .ite (.ite (h₂.lateRecord n _ r) (h₂.when fun k => k.lose n r 2)) (.ite h₂ (h₂.when fun k => k.pendRecord n _))
    · exact .ite h₂ (h₂.pendRecord n _)

theorem cycRecords (h : Acquires s₀ s) (n : Nat) (i : Int) : Acquires s₀ (s.cycRecords n i) := by
  unfold State.cycRecords
  exact (h.modTile n fun _ => by rfl).foldl fun r _ k => .when (.when k fun k => k.record n _ i) fun k => k.record n _ i

/-! ## Frames, masks and triggers (08_acquisition.md R203 to R210) -/

theorem headAnchor (h : Acquires s₀ s) (n : Nat) (g : Gap) : Acquires s₀ (s.headAnchor n g) := .ite h (h.putAnchor n _ _ _)

theorem putPre (h : Acquires s₀ s) (n : Nat) (first : Bool) (gap : Option Gap) (l : List CapRec) : Acquires s₀ (s.putPre n first gap l) := by
  induction l generalizing s first gap with
  | nil => exact h
  | cons r l ih =>
    unfold State.putPre
    refine .ite ?_ (ih (h.putRecord n r) _ _)
    split
    · exact ih (((h.headAnchor n _).putCrevasse n _).fset (.tile (by decide)) _) _ _
    · exact ih h _ _

theorem putTrig (h : Acquires s₀ s) (n : Nat) (i : Int) (pre : Nat) : Acquires s₀ (s.putTrig n i pre) := by
  unfold State.putTrig
  split
  · exact h
  · have h₁ := h.stageSlot n i
    exact .ite (h₁.putRecord n _) (.ite h₁ (h₁.lose n _ 2))

theorem frameHead (h : Acquires s₀ s) (n : Nat) (i : Int) (before : List CapRec) : Acquires s₀ (s.frameHead n i before) := by
  unfold State.frameHead
  extract_lets _ s₁ kept blank lost s₂ m s₃ post s₄
  have h₂ : Acquires s₀ s₂ := (h.modTile n fun _ => by rfl).putPre n true _ kept
  have h₄ : Acquires s₀ s₄ := (h₂.putTrig n i m).modTile n fun _ => by rfl
  exact .ite (h₄.endFrame n i) (h₄.setFlag (.tile (by decide)) _)

theorem pulseOut (h : Acquires s₀ s) (n : Nat) (i : Int) : Acquires s₀ (s.pulseOut n i) :=
  h.foldl fun _ _ k => k.when fun k => k.upd rfl rfl fun _ => rfl

theorem maskMeet (h : Acquires s₀ s) (n : Nat) (v : Int) (time : Nat) (last : Int) : Acquires s₀ (s.maskMeet n v time last) := by
  unfold State.maskMeet
  split
  · exact h
  · extract_lets s₁ w0 upper lower side s₂ s₃ s₄ s₅
    have h₁ : Acquires s₀ s₁ := h.modTile n fun _ => by rfl
    have h₃ : Acquires s₀ s₃ :=
      (((h₁.record n _ _).setFlag (.tile (by decide)) _).setFlag (.tile (by decide)) _).fset (.tile (by decide)) _
    have h₅ : Acquires s₀ s₅ := h₃.when fun k => (k.setFlag (.tile (by decide)) _).when fun k => k.endFrame n _
    exact .ite h (.ite h₁ (.ite (h₁.count (.tile (by decide)) _) (h₅.when fun k => k.modTile n fun _ => by rfl)))

theorem maskDecide (h : Acquires s₀ s) (n : Nat) (time : Int) : Acquires s₀ (s.maskDecide n time) :=
  .ite h ((h.modTile n fun _ => by rfl).foldl fun x _ k => k.maskMeet n x.1 x.2.1 x.2.2)

theorem maskStart (h : Acquires s₀ s) (n kind : Nat) (i : Int) : Acquires s₀ (s.maskStart n kind i) :=
  h.when fun k => k.modTile n fun _ => by rfl

theorem writeFrame (h : Acquires s₀ s) (n : Nat) (i : Int) : Acquires s₀ (s.writeFrame n i) := by
  unfold State.writeFrame
  refine ((h.frameHead n i _).maskStart n 0 i).foldl fun r _ k => ?_
  have k := k.maskDecide n r.time
  refine .ite k ?_
  split
  · exact k.frameRecord n _ r
  · exact .ite k (k.pendRecord n r)

theorem takeTrigger (h : Acquires s₀ s) (n : Nat) (i : Int) : Acquires s₀ (s.takeTrigger n i) := by
  unfold State.takeTrigger
  have hcount := ((h.modTile n (f := fun c => { c with cap := { c.cap with trigs := c.cap.trigs + 1 } }) fun _ => rfl).count
    (f := R.CAP_STATUS_FRAMES n) (.tile (by decide)) 1).pulseOut n i
  exact .ite ((hcount.beginHold n i).maskStart n 0 i) (.ite (((hcount.putTrig n i 0).beginHold n i).maskStart n 0 i) (hcount.writeFrame n i))

theorem trigEvent (h : Acquires s₀ s) (n : Nat) (i : Int) : Acquires s₀ (s.trigEvent n i) := by
  unfold State.trigEvent
  exact .ite h (.ite h (.ite (h.count (.tile (by decide)) _) (.ite (h.takeTrigger n i) ((h.modTile n fun _ => by rfl).count (.tile (by decide)) _))))

theorem failsTrigger (h : Acquires s₀ s) (ch : Nat) (i : Int) : Acquires s₀ (s.failsTrigger ch i) :=
  h.when fun k => (k.modTile (ch / 16) fun _ => by rfl).when fun k => k.trigEvent _ i

/-! ## Events of tiles, and the fail compressor (08_acquisition.md R214; 18_moraine_counters.md R425, R428) -/

theorem bumpSnap (h : Acquires s₀ s) {m : Nat} (hm : m < 64) (k fuel : Nat) : Acquires s₀ (s.bumpSnap m k fuel) := by
  induction fuel generalizing s m k with
  | zero => exact h
  | succ fuel ih =>
    unfold State.bumpSnap
    have hset := h.rset (a := R.PCNT_SNAP m) (.chip (by unfold R.PCNT_SNAP; omega)) (BitVec.ofNat 32 ((s.rget (R.PCNT_SNAP m)).toNat + k))
    dsimp only
    split
    · next hc => exact ih hset hc.2.1 _
    · exact hset

theorem lateEv (h : Acquires s₀ s) (n k : Nat) : Acquires s₀ (s.lateEv n k) := by
  unfold State.lateEv
  refine .ite h ?_
  extract_lets s₁
  have h₁ : Acquires s₀ s₁ := h.upd rfl rfl fun _ => rfl
  exact h₁.foldl fun c hc k => k.when fun k => k.bumpSnap (State.pcntConfigured_lt hc) _ _

theorem tileEv (h : Acquires s₀ s) (n k : Nat) (i : Int) (m : Nat) : Acquires s₀ (s.tileEv n k i m) := by
  unfold State.tileEv
  exact .ite h ((h.of_counts (State.evCount_counts ..)).lateEv _ _)

theorem fcFail (h : Acquires s₀ s) (ch : Nat) (b : FcBit) (ofE : Bool) : Acquires s₀ (s.fcFail ch b ofE) := by
  unfold State.fcFail State.syncPool
  exact .ite h (.ite (h.foldl fun _ _ k => k.modTile _ fun _ => by rfl)
    (.ite h ((h.modTile _ fun _ => by rfl).fset (.tile (by decide)) _)))

/-! ## Stop windows (07_time_measurement.md R173 to R175) -/

theorem openWindow (h : Acquires s₀ s) (ch : Nat) (w : Win) : Acquires s₀ (s.openWindow ch w) := by
  unfold State.openWindow
  extract_lets rest live third rest' s₁ s₂
  have h₁ : Acquires s₀ s₁ := h.modChan ch fun _ => by rfl
  have h₂ : Acquires s₀ s₂ := h₁.when fun k => k.count (.chan (by decide)) 1
  exact h₂.when fun k => k.count (.chan (by decide)) 1

theorem openDue (h : Acquires s₀ s) (ch : Nat) (i : Int) : Acquires s₀ (s.openDue ch i) := h.foldl fun w _ k => k.openWindow ch w

/-! ## Attributions (07_time_measurement.md R173, R181 to R187) -/

theorem histogram (h : Acquires s₀ s) (ch cls : Nat) (x i : Int) : Acquires s₀ (s.histogram ch cls x i) := by
  unfold State.histogram
  extract_lets n lane b off m s₁ s₂
  have h₁ : Acquires s₀ s₁ := .ite ((h.setFlag (.tile (by decide)) _).setFlag (.chan (by decide)) _) (h.mwrite ..)
  have h₂ : Acquires s₀ s₂ := h₁.when fun k => k.setFlag (.tile (by decide)) _
  exact h₂.when fun k => k.setFlag (.tile (by decide)) _

theorem derive (h : Acquires s₀ s) (ch : Nat) {a : Nat} (ha : OffAccept a) (v : Int) (better : Int → Int → Bool) :
    Acquires s₀ (s.derive ch a v better) := by
  unfold State.derive
  extract_lets v w s₁
  have h₁ : Acquires s₀ s₁ := .ite h (h.setFlag (.chan (by decide)) _)
  exact h₁.when fun k => k.rset ha _

theorem derived (h : Acquires s₀ s) (ch cls : Nat) (x w : Int) : Acquires s₀ (s.derived ch cls x w) := by
  have pick {o o' : Nat} (ho : (o < 0x400 ∧ o ≠ 0x114) ∧ o' < 0x400 ∧ o' ≠ 0x114) :
      OffAccept (if cls = 0 then 0x500000 + ch * 0x400 + o else 0x500000 + ch * 0x400 + o') := by
    split
    · exact .chan ho.1
    · exact .chan ho.2
  unfold State.derived
  extract_lets less more s₁ s₂ s₃ s₄
  have h₂ : Acquires s₀ s₂ := (h.derive ch (pick (by decide)) x less).derive ch (pick (by decide)) x more
  have h₃ : Acquires s₀ s₃ := h₂.when fun k => k.derive ch (.chan (by decide)) _ less
  have h₄ : Acquires s₀ s₄ := h₃.when fun k => k.derive ch (.chan (by decide)) _ less
  exact h₄.when fun k => k.count (.chan (by decide)) 1

theorem stopStarts (h : Acquires s₀ s) (ch : Nat) (i : Int) : Acquires s₀ (s.stopStarts ch i) :=
  h.foldl fun c _ k => k.when fun k => (k.modChan c fun _ => by rfl).openDue c _

end Acquires
end Sys2Proof.Machine
end

section
/-! SUPPORT. STROBE and TDC_STOP: a compare or capture meets the comparators of its channel, and a stop the open windows
(05_timing.md R125; 06_pin_electronics.md R150, R153; 07_time_measurement.md R172, R174, R175). -/

namespace Sys2Proof.Machine

variable {s t : State}

/-! ## The outputs of a channel's comparators (06_pin_electronics.md R150, R153) -/

/-- An update of a channel's context, which CSTATE follows. -/
def State.senses (s : State) (ch : Nat) (f : ChanCtx → ChanCtx) : State := (s.modChan ch f).syncCmp ch

namespace State

variable (s : State) (ch : Nat) (f : ChanCtx → ChanCtx)

theorem chan_senses : (s.senses ch f).chan ch = f (s.chan ch) := (State.chan_modChan ..).trans (if_pos rfl)

theorem mem_senses : (s.senses ch f).mem = s.mem := rfl

theorem rget_senses {a : Nat} (ha : a ≠ R.CH_STATUS ch) : (s.senses ch f).rget a = s.rget a := State.rget_fset_other _ _ ha

/-- Every field but CSTATE is unchanged. -/
theorem fget_senses {g : Fld} (hg : g.addr ≠ R.CH_STATUS ch ∨ 1 < g.lo) (hle : g.lo ≤ g.hi) : (s.senses ch f).fget g = s.fget g := by
  rcases hg with hg | hg
  · exact State.fget_congr (s.rget_senses ch f hg)
  · exact State.fget_fset_disjoint _ _ (.inr hg) (Nat.zero_le 1) hle

theorem flag_senses {g : Fld} (hg : g.addr ≠ R.CH_STATUS ch ∨ 1 < g.lo) (hle : g.lo ≤ g.hi) : (s.senses ch f).flag g = s.flag g :=
  congrArg (· != 0) (s.fget_senses ch f hg hle)

theorem known_senses (lo : Bool) :
    (s.senses ch f).flag (if lo then R.CH_STATUS_KNOWN_LO ch else R.CH_STATUS_KNOWN_HI ch) =
      s.flag (if lo then R.CH_STATUS_KNOWN_LO ch else R.CH_STATUS_KNOWN_HI ch) := by
  cases lo
  · exact s.flag_senses ch f (.inr (show 1 < 4 by decide)) (Nat.le_refl 4)
  · exact s.flag_senses ch f (.inr (show 1 < 5 by decide)) (Nat.le_refl 5)

theorem stepState_senses (u : Nat) : (s.senses ch f).stepState u = s.stepState u :=
  s.fget_senses ch f (.inl (by simp only [R.SEQ_STATUS_STATE, R.SEQ_STATUS, R.CH_STATUS]; omega)) (by simp [R.SEQ_STATUS_STATE])

theorem mode_senses (hf : (f (s.chan ch)).safe = (s.chan ch).safe) : (s.senses ch f).mode ch = s.mode ch := by
  have hmode : (s.senses ch f).fget (R.CH_MODE_MODE ch) = s.fget (R.CH_MODE_MODE ch) :=
    s.fget_senses ch f (.inl (by simp [R.CH_MODE_MODE, R.CH_MODE, R.CH_STATUS])) (by simp [R.CH_MODE_MODE])
  simp only [State.mode, chan_senses, hf, hmode]

theorem outcome_senses (hf : ((f (s.chan ch)).safe, (f (s.chan ch)).chkBad) = ((s.chan ch).safe, (s.chan ch).chkBad)) (e : Expect) (x : CmpSample) :
    (s.senses ch f).outcome ch e x = s.outcome ch e x := by
  obtain ⟨hsafe, hbad⟩ := Prod.mk.inj hf
  have hhi := s.known_senses ch f false
  have hlo := s.known_senses ch f true
  simp only [Bool.false_eq_true, if_false, if_true] at hhi hlo
  simp only [State.outcome, hhi, hlo, s.mode_senses ch f hsafe, chan_senses, hbad]

theorem stopInstant_senses (edge code : Nat) : (s.senses ch f).stopInstant ch edge code = s.stopInstant ch edge code := by
  have huser : (s.senses ch f).fget (R.CH_DSK_USER_CMP ch) = s.fget (R.CH_DSK_USER_CMP ch) :=
    s.fget_senses ch f (.inl (by simp [R.CH_DSK_USER_CMP, R.CH_DSK_USER, R.CH_STATUS])) (by simp [R.CH_DSK_USER_CMP])
  unfold State.stopInstant
  rw [huser]
  rfl

end State

/-! ## STROBE (05_timing.md R125; 08_acquisition.md R197 to R201) -/

/-- A failing compare contributes to the fail flag at its instant. -/
theorem State.failChan_contributes (s : State) (ch : Nat) (i : Int) : (CondKey.failAny, i) ∈ ((s.failChan ch i).tile (ch / 16)).conds := by
  unfold State.failChan
  rw [State.tile_congr (State.syncConds_regsOnly ..).tiles, State.tile_modTile, if_pos rfl]
  exact List.mem_append_right _ List.mem_cons_self

theorem condReg_accept (u ch : Nat) : condReg u (R.TDC_ACCEPT ch) = false := decide_eq_false (by unfold R.TDC_ACCEPT; omega)

namespace Acquires

variable {s₀ : State}

theorem failChan (h : Acquires s₀ s) (ch : Nat) (i : Int) : Acquires s₀ (s.failChan ch i) := by
  unfold State.failChan
  extract_lets m l s₁
  have h₁ : Acquires s₀ s₁ := h.modTile_adds (ch / 16) (fun _ => rfl) fun _ => List.subset_append_left ..
  exact h₁.of_regsOnly (State.syncConds_regsOnly ..) (condReg_accept _)

/-- Behind the contributions of a failing compare. -/
theorem strobeFail (s : State) (ch : Nat) (x : Strobe) : Acquires (s.failChan ch x.last) (s.strobeFail ch x) :=
  (((refl _).tileEv _ 1 _ 1).fcFail ch _ _).failsTrigger ch _

theorem strobeUnknown (h : Acquires s₀ s) (ch : Nat) (x : Strobe) : Acquires s₀ (s.strobeUnknown ch x) := by
  unfold State.strobeUnknown
  exact (((h.when fun k => k.setPair (.chan (by decide)) (.chan (by decide)) _).count (.chan (by decide)) 1).indChan ch).suspectFlag _ _

theorem actualOf (h : Acquires s₀ s) (ch : Nat) (e : Expect) (x : Option CmpSample) : Acquires s₀ (s.actualOf ch e x).2 := by
  unfold State.actualOf State.actual
  split
  · split
    · exact h.upd rfl rfl fun _ => rfl
    · exact h
  · exact h

theorem captureDone (h : Acquires s₀ s) (ch : Nat) (x : Strobe) (l : List CmpSample) : Acquires s₀ (s.captureDone ch x l) := by
  unfold State.captureDone
  exact h.modTile _ fun _ => by rfl

end Acquires

/-- A compare is booked in the context of its tile, and then fails, is UNKNOWN, or passes, by the outcomes of its samples. -/
theorem State.compareDone_cases (s : State) (ch : Nat) (x : Strobe) (l : List CmpSample) : ∃ r, Acquires s r ∧
    (s.compareDone ch x l = r.strobeFail ch x ∨
      (s.outcomes ch x.expect l).1 ≠ 1 ∧ (s.compareDone ch x l = r.strobeUnknown ch x ∨ s.compareDone ch x l = r)) := by
  unfold State.compareDone State.showMatch
  obtain ⟨out, bad⟩ := s.outcomes ch x.expect l
  have hactual := (Acquires.refl s).actualOf ch x.expect bad
  dsimp -zeta only
  extract_lets u code s₂
  have h₂ : Acquires s s₂ := (hactual.modTile u fun _ => by rfl).setFlag (.tile (by decide)) _
  refine ⟨s₂, h₂, ?_⟩
  split
  · exact .inl rfl
  · exact .inr ⟨by decide, .inl rfl⟩
  · next hne _ => exact .inr ⟨hne, .inr rfl⟩

/-- A compare of which a sample fails contributes to the fail flag at its instant. -/
theorem State.compareDone_spec (s : State) (ch : Nat) (x : Strobe) (l : List CmpSample) : Acquires s (s.compareDone ch x l) ∧
    ((∃ y ∈ l, s.outcome ch x.expect y = 1) → (CondKey.failAny, x.last) ∈ ((s.compareDone ch x l).tile (ch / 16)).conds) := by
  have hfails : (∃ y ∈ l, s.outcome ch x.expect y = 1) → (s.outcomes ch x.expect l).1 = 1 := by
    rintro ⟨y, hy, hout⟩
    unfold State.outcomes
    split
    · rfl
    · next hnone => exact absurd hout (by simpa using List.find?_eq_none.1 hnone y hy)
  obtain ⟨r, hr, hfail | ⟨hne, hunknown | hpass⟩⟩ := s.compareDone_cases ch x l
  · rw [hfail]
    have hbehind := Acquires.strobeFail r ch x
    exact ⟨(hr.failChan ch x.last).trans hbehind, fun _ => hbehind.conds _ (r.failChan_contributes ch x.last)⟩
  · exact ⟨hunknown ▸ hr.strobeUnknown ch x, fun h => absurd (hfails h) hne⟩
  · exact ⟨hpass ▸ hr, fun h => absurd (hfails h) hne⟩

/-- A compare or capture that has met the comparators has its outcome. -/
def State.resolved (s : State) (ch : Nat) (x : Strobe) (l : List CmpSample) : State :=
  if x.expect = .capture then s.captureDone ch x l else s.compareDone ch x l

/-- It has left the count of its cycle, whose records are written if it was the last. -/
def State.strobeDone (s : State) (ch : Nat) (x : Strobe) (l : List CmpSample) : State :=
  ((s.resolved ch x l).modTile (ch / 16) fun c => c.cycLess x.cyc).cycRecords (ch / 16) x.last

theorem State.strobeDone_spec (s : State) (ch : Nat) (x : Strobe) (l : List CmpSample) : Acquires s (s.strobeDone ch x l) ∧
    (x.expect ≠ .capture → (∃ y ∈ l, s.outcome ch x.expect y = 1) →
      (CondKey.failAny, x.last) ∈ ((s.strobeDone ch x l).tile (ch / 16)).conds) := by
  obtain ⟨hcompare, hconds⟩ := s.compareDone_spec ch x l
  have hresolved : Acquires s (s.resolved ch x l) := .ite ((Acquires.refl s).captureDone ch x l) hcompare
  have hdone : Acquires (s.resolved ch x l) (s.strobeDone ch x l) := ((Acquires.refl _).modTile _ fun _ => by rfl).cycRecords _ _
  refine ⟨hresolved.trans hdone, fun hx hfails => hdone.conds _ ?_⟩
  rw [State.resolved, if_neg hx]
  exact hconds hfails

/-- A channel's strobe `x` leaves the list, and its comparators stand at `now`. -/
def ChanCtx.sensed (c : ChanCtx) (x : Strobe) (now : CmpSample) : ChanCtx :=
  { c with strobes := c.strobes.erase x, hiAbove := now.hiAbove, loBelow := now.loBelow }

/-- The oldest compare or capture of a channel resolves, if no later cycle can drop it and the tile's last cycle has not been issued. -/
theorem doStrobe_resolves {ch : Fin 1024} {volts : List Int} {x : Strobe} {l : List CmpSample}
    (hx : (s.chan ch).strobes.find? (fun (y : Strobe) => y.expect != .profile) = some x) (hfirm : s.strobeFirm ch x = true)
    (hl : l = s.samples ch ⟨(s.chan ch).hiAbove, (s.chan ch).loBelow⟩ volts) (hvolts : volts ≠ []) (hcl : (s.tile (ch / 16)).closing = false) :
    doStrobe ch volts s = (s.senses ch fun c => c.sensed x (l.getLastD ⟨(s.chan ch).hiAbove, (s.chan ch).loBelow⟩)).strobeDone ch x l := by
  obtain ⟨hacq, -⟩ := (s.senses ch fun c => c.sensed x (l.getLastD ⟨(s.chan ch).hiAbove, (s.chan ch).loBelow⟩)).strobeDone_spec ch x l
  have hopen := (hacq.closing (ch / 16)).trans hcl
  unfold doStrobe
  dsimp only
  rw [hx]
  dsimp only
  rw [if_neg (show ¬(!s.strobeFirm ch x) = true by simp [hfirm]), if_neg (show ¬volts.isEmpty = true by simpa using hvolts), ← hl]
  exact if_neg (Bool.eq_false_iff.1 hopen)

theorem doStrobe_waits {ch : Fin 1024} (volts : List Int)
    (h : ∀ x, (s.chan ch).strobes.find? (fun (y : Strobe) => y.expect != .profile) = some x → s.strobeFirm ch x = false) :
    doStrobe ch volts s = s := by
  unfold doStrobe
  dsimp only
  split
  · rfl
  · next x hx => exact if_pos (by rw [h x hx]; rfl)

/-! ## TDC_STOP (07_time_measurement.md R170, R172, R174) -/

/-- Whether a strobe is firm rests on its tile and on the deskew of its channel. -/
theorem State.strobeFirm_congr {ch : Nat} (x : Strobe) (hstatus : t.rget (R.SEQ_STATUS (ch / 16)) = s.rget (R.SEQ_STATUS (ch / 16)))
    (htile : ((t.tile (ch / 16)).stall, (t.tile (ch / 16)).closing, (t.tile (ch / 16)).endE) =
      ((s.tile (ch / 16)).stall, (s.tile (ch / 16)).closing, (s.tile (ch / 16)).endE)) (hdsk : t.dskCmp ch = s.dskCmp ch) :
    t.strobeFirm ch x = s.strobeFirm ch x := by
  obtain ⟨hstall, hclosing, hend⟩ : _ ∧ _ ∧ _ := by simpa using htile
  have hstep : t.stepState (ch / 16) = s.stepState (ch / 16) := State.fget_congr hstatus
  have hwaits : t.flag (R.SEQ_STATUS_WAITING (ch / 16)) = s.flag (R.SEQ_STATUS_WAITING (ch / 16)) := State.flag_congr hstatus
  simp only [State.strobeFirm, hstep, hwaits, hstall, hclosing, hend, hdsk]

/-- The comparators' outputs behind a stop: a rising one leaves the input above both thresholds, a falling one below both (R151, R172). -/
def ChanCtx.toggled (falling : Bool) (c : ChanCtx) : ChanCtx := { c with hiAbove := !falling, loBelow := falling }

/-- A comparator changes, and its stop waits in the tile at the instant `u`. -/
def State.stopWaits (s : State) (ch : Nat) (falling : Bool) (u : Int) : State :=
  (s.senses ch (ChanCtx.toggled falling)).modTile (ch / 16) fun c => { c with stops := c.stops ++ [(ch, falling, u)] }

section
variable (s : State) (ch : Nat) (falling : Bool) (u : Int)

theorem State.chan_stopWaits : (s.stopWaits ch falling u).chan ch = ChanCtx.toggled falling (s.chan ch) :=
  s.chan_senses ch (ChanCtx.toggled falling)

theorem State.tile_stopWaits :
    (s.stopWaits ch falling u).tile (ch / 16) = { s.tile (ch / 16) with stops := (s.tile (ch / 16)).stops ++ [(ch, falling, u)] } :=
  (State.tile_modTile ..).trans (if_pos rfl)

theorem State.rget_stopWaits {a : Nat} (ha : a ≠ R.CH_STATUS ch) : (s.stopWaits ch falling u).rget a = s.rget a := s.rget_senses ch _ ha

theorem State.stopFirm_stopWaits (i : Int) : (s.stopWaits ch falling u).stopFirm ch i = s.stopFirm ch i := by
  have hreg {a : Nat} (ha : a ≠ R.CH_STATUS ch) := s.rget_stopWaits ch falling u ha
  have hdsk : (s.stopWaits ch falling u).dskCmp ch = s.dskCmp ch := by
    have hcal := State.fget_congr (f := R.CH_DSK_CAL_CMP ch) (hreg (by simp [R.CH_DSK_CAL_CMP, R.CH_DSK_CAL, R.CH_STATUS]))
    have huser := State.fget_congr (f := R.CH_DSK_USER_CMP ch) (hreg (by simp [R.CH_DSK_USER_CMP, R.CH_DSK_USER, R.CH_STATUS]))
    simp only [State.dskCmp, hcal, huser]
  have hstrobe (x : Strobe) : (s.stopWaits ch falling u).strobeFirm ch x = s.strobeFirm ch x :=
    State.strobeFirm_congr x (hreg (by unfold R.SEQ_STATUS R.CH_STATUS; omega)) (by rw [tile_stopWaits]) hdsk
  simp only [State.stopFirm, State.winFirm, chan_stopWaits, ChanCtx.toggled, hstrobe]

end

/-- The one stop that waits in a tile is taken if it is firm. -/
theorem State.settleStops_one {n ch : Nat} {falling : Bool} {u : Int} (hone : (s.tile n).stops = [(ch, falling, u)])
    (hfirm : s.stopFirm ch (u * stopUnit) = true) :
    s.settleStops n = (s.takeStop ch falling u).modTile n fun c => { c with stops := [] } := by
  rw [State.settleStops, hone]
  exact if_pos hfirm

/-- A stop of a KNOWN comparator of a RUNNING, enabled channel, with none waiting, is taken at once if no window can be dropped at its instant. -/
theorem doTdcStop_takes {ch : Fin 1024} {falling : Bool} {edge : Nat} {code : Fin 256} {u : Int}
    (hu : u = s.stopInstant ch edge code + (s.tile (ch / 16)).wraps * (epochLength / stopUnit))
    (hrun : s.stepState (ch / 16) = stRunning) (hmode : s.mode ch ≠ 0) (hen : s.flag (R.TDC_CFG_EN ch) = true)
    (hknown : s.flag (if falling then R.CH_STATUS_KNOWN_LO ch else R.CH_STATUS_KNOWN_HI ch) = true) (hfirm : s.stopFirm ch (u * stopUnit) = true)
    (hstops : (s.tile (ch / 16)).stops = []) :
    doTdcStop ch falling edge code s = ((s.stopWaits ch falling u).takeStop ch falling u).modTile (ch / 16) fun c => { c with stops := [] } := by
  have hwaits : ((s.stopWaits ch falling u).tile (ch / 16)).stops = [(ch.val, falling, u)] := by simp [State.tile_stopWaits, hstops]
  have htaken := State.settleStops_one hwaits ((s.stopFirm_stopWaits ch falling u _).trans hfirm)
  refine Eq.trans ?_ htaken
  have hmode' : (s.senses ch (ChanCtx.toggled falling)).mode ch ≠ 0 := (s.mode_senses ch _ rfl).trans_ne hmode
  have hen' : (s.senses ch (ChanCtx.toggled falling)).flag (R.TDC_CFG_EN ch) = true :=
    (s.flag_senses ch _ (.inl (by simp [R.TDC_CFG_EN, R.TDC_CFG, R.CH_STATUS])) (Nat.le_refl 0)).trans hen
  unfold doTdcStop State.stopWaits
  rw [hu, ← s.stopInstant_senses ch (ChanCtx.toggled falling)]
  refine if_neg (Bool.eq_false_iff.1 ?_)
  simp only [Bool.or_eq_false_iff]
  refine ⟨⟨⟨?_, ?_⟩, ?_⟩, ?_⟩
  · exact bne_eq_false_iff_eq.2 ((s.stepState_senses ch _ _).trans hrun)
  · exact beq_eq_false_iff_ne.2 hmode'
  · exact congrArg (!·) hen'
  · exact congrArg (!·) hknown

theorem State.chan_count (s : State) (f : Fld) (k ch : Nat) : (s.count f k).chan ch = s.chan ch := by
  rw [State.chan, State.count_chans]
  rfl

/-! ## A stop and the windows of its channel (07_time_measurement.md R172, R176) -/

/-- No window is still to open at an instant. -/
theorem State.openDue_none {ch : Nat} {i : Int} (h : ∀ w ∈ (s.chan ch).wins, w.opened = false → i < w.opens) : s.openDue ch i = s := by
  have hnone : (s.chan ch).wins.filter (fun w => !w.opened && decide (w.opens ≤ i)) = [] := by
    refine List.filter_eq_nil_iff.2 fun w hw => ?_
    simpa using h w hw
  unfold State.openDue
  rw [hnone]
  rfl

/-- The windows of a channel that are open at an instant. -/
def State.openAt (s : State) (ch : Nat) (i : Int) : List Win := (s.chan ch).wins.filter fun w => w.opened && decide (w.opens ≤ i ∧ i < w.closes)

theorem State.openAt_nonempty {ch : Nat} {i : Int} (h : ∃ w ∈ (s.chan ch).wins, w.opened = true ∧ w.opens ≤ i ∧ i < w.closes) :
    (s.openAt ch i).isEmpty = false := by
  obtain ⟨w, hw, hopen⟩ := h
  exact List.isEmpty_eq_false_iff.2 (List.ne_nil_of_mem (List.mem_filter.2 ⟨hw, by simpa using hopen⟩))

section
variable {ch : Nat} {falling : Bool} {u : Int}
  (hdue : ∀ w ∈ (s.chan ch).wins, w.opened = false → u * stopUnit < w.opens)
  (hwin : ∃ w ∈ (s.chan ch).wins, w.opened = true ∧ w.opens ≤ u * stopUnit ∧ u * stopUnit < w.closes)
include hdue hwin

theorem State.takeStop_dead (hdead : ∃ l, (s.chan ch).lastStop = some l ∧ u * stopUnit < l + deadTime) :
    s.takeStop ch falling u = s.count (R.TDC_DEAD_COUNT ch) := by
  obtain ⟨l, hl, hlt⟩ := hdead
  unfold State.takeStop
  extract_lets i s₁ c wins dead s₂ s₃
  have hs : s₁ = s := State.openDue_none hdue
  have hne : wins.isEmpty = false := by
    simp only [wins, c, hs]
    exact State.openAt_nonempty hwin
  have hdead : dead = true := by simp only [dead, c, hs, hl]; exact decide_eq_true hlt
  rw [hne, hdead, hs]
  rfl

/-- Outside the dead time, with its class enabled, it is accepted at its instant. -/
theorem State.takeStop_accepts (hlive : ∀ l, (s.chan ch).lastStop = some l → l + deadTime ≤ u * stopUnit)
    (hcls : (s.fget (R.TDC_CFG_CLS ch)).testBit falling.toNat = true) :
    Acquires ((s.modChan ch fun k => { k with lastStop := some (u * stopUnit) }).count (R.TDC_ACCEPT_COUNT ch)) (s.takeStop ch falling u) := by
  unfold State.takeStop
  extract_lets i s₁ c wins dead s₂ s₃
  have hs : s₁ = s := State.openDue_none hdue
  have hne : wins.isEmpty = false := by
    simp only [wins, c, hs]
    exact State.openAt_nonempty hwin
  have hdead : dead = false := by
    simp only [dead, c, hs]
    split
    · next l hl => exact decide_eq_false (Int.not_lt.2 (hlive l hl))
    · rfl
  rw [hne, hdead, hs, hcls]
  have h₂ : Acquires ((s.modChan ch fun k => { k with lastStop := some i }).count (R.TDC_ACCEPT_COUNT ch)) s₂ := by
    simp only [s₂, hs]
    exact (Acquires.refl _).tileEv _ 3 i 1
  -- each window that the stop lies in takes its attribution: flags, histogram, derived values and sample
  have h₃ : Acquires _ s₃ := h₂.foldl fun w _ k =>
    .when (.when (.when (.when (.when k fun k => k.setFlag (.chan (by decide)) _) fun k => k.setFlag (.chan (by decide)) _)
      fun k => k.histogram ch _ _ i) fun k => k.derived ch _ _ _) fun k => k.record _ _ i
  exact h₃.stopStarts ch i

/-- Inside the dead time a stop that waits is counted in TDC_DEAD, and nothing but registers of its channel changes. -/
theorem State.stopWaits_dead (hdead : ∃ l, (s.chan ch).lastStop = some l ∧ u * stopUnit < l + deadTime)
    (hfew : s.fget (R.TDC_DEAD_COUNT ch) < 2 ^ 32 - 1) :
    ∃ t, (s.stopWaits ch falling u).takeStop ch falling u = t ∧ t.fget (R.TDC_DEAD_COUNT ch) = s.fget (R.TDC_DEAD_COUNT ch) + 1 ∧
      (t.chan ch).lastStop = (s.chan ch).lastStop ∧ RegsSame (inChan ch) s t ∧ t.mem = s.mem := by
  have hchan := s.chan_stopWaits ch falling u
  have hreg {a : Nat} (ha : a ≠ R.CH_STATUS ch) := s.rget_stopWaits ch falling u ha
  have hmem : (s.stopWaits ch falling u).mem = s.mem := s.mem_senses ch (ChanCtx.toggled falling)
  generalize s.stopWaits ch falling u = r at hchan hreg hmem ⊢
  have hwins : (r.chan ch).wins = (s.chan ch).wins := (congrArg ChanCtx.wins hchan :)
  have hlast : (r.chan ch).lastStop = (s.chan ch).lastStop := (congrArg ChanCtx.lastStop hchan :)
  have hcount : r.fget (R.TDC_DEAD_COUNT ch) = s.fget (R.TDC_DEAD_COUNT ch) :=
    State.fget_congr (hreg (by simp [R.TDC_DEAD_COUNT, R.TDC_DEAD, R.CH_STATUS]))
  have htaken := State.takeStop_dead (falling := falling) (hwins ▸ hdue) (hwins ▸ hwin) (hlast ▸ hdead)
  refine ⟨_, htaken, ?_, ?_, fun a ha => ?_, (State.count_mem ..).trans hmem⟩
  · exact (State.fget_count_of_lt (s := r) (Nat.zero_le 31) (show 31 < 32 by decide) (hcount ▸ hfew)).trans (congrArg (· + 1) hcount)
  · rw [State.chan_count, hlast]
  · have hout := of_decide_eq_false ha
    refine (State.rget_fset_other _ _ ?_).trans (hreg ?_)
    · simp only [R.TDC_DEAD_COUNT, R.TDC_DEAD]
      omega
    · unfold R.CH_STATUS
      omega

/-- Outside the dead time, with its class enabled, a stop that waits is the last accepted one, counted in TDC_ACCEPT. -/
theorem State.stopWaits_accepts (hlive : ∀ l, (s.chan ch).lastStop = some l → l + deadTime ≤ u * stopUnit)
    (hcls : (s.fget (R.TDC_CFG_CLS ch)).testBit falling.toNat = true) (hfew : s.fget (R.TDC_ACCEPT_COUNT ch) < 2 ^ 32 - 1) :
    ∃ t, (s.stopWaits ch falling u).takeStop ch falling u = t ∧ t.fget (R.TDC_ACCEPT_COUNT ch) = s.fget (R.TDC_ACCEPT_COUNT ch) + 1 ∧
      (t.chan ch).lastStop = some (u * stopUnit) := by
  have hchan := s.chan_stopWaits ch falling u
  have hreg {a : Nat} (ha : a ≠ R.CH_STATUS ch) := s.rget_stopWaits ch falling u ha
  generalize s.stopWaits ch falling u = r at hchan hreg ⊢
  have hwins : (r.chan ch).wins = (s.chan ch).wins := (congrArg ChanCtx.wins hchan :)
  have hlast : (r.chan ch).lastStop = (s.chan ch).lastStop := (congrArg ChanCtx.lastStop hchan :)
  have hclass : r.fget (R.TDC_CFG_CLS ch) = s.fget (R.TDC_CFG_CLS ch) :=
    State.fget_congr (hreg (by simp [R.TDC_CFG_CLS, R.TDC_CFG, R.CH_STATUS]))
  have hcount : r.fget (R.TDC_ACCEPT_COUNT ch) = s.fget (R.TDC_ACCEPT_COUNT ch) :=
    State.fget_congr (hreg (by simp [R.TDC_ACCEPT_COUNT, R.TDC_ACCEPT, R.CH_STATUS]))
  have hacq := State.takeStop_accepts (hwins ▸ hdue) (hwins ▸ hwin) (hlast ▸ hlive) (hclass ▸ hcls)
  refine ⟨_, rfl, (State.fget_congr (f := R.TDC_ACCEPT_COUNT ch) (hacq.accept ch)).trans ?_, (hacq.lastStop ch).trans ?_⟩
  · have hrises := State.fget_count_of_lt (s := r.modChan ch fun k => { k with lastStop := some (u * stopUnit) }) (f := R.TDC_ACCEPT_COUNT ch)
      (Nat.zero_le 31) (show 31 < 32 by decide) (hcount ▸ hfew)
    exact hrises.trans (congrArg (· + 1) hcount)
  · rw [State.chan_count, State.chan_modChan, if_pos rfl]

end

/-! ## The statement -/

theorem exec_strobe (ch : Fin 1024) (volts : List Int) (s : State) : exec (.strobe ch volts) s = .next (doStrobe ch volts s) := rfl

theorem exec_tdcStop (ch : Fin 1024) (falling : Bool) (x : StopLatch) (s : State) :
    exec (.tdcStop ch falling x) s = .next (doTdcStop ch falling x.edge x.code s) := rfl

/-- Settles O41: behind the comparators' new outputs STROBE only goes on with acquisition; TDC_STOP takes its stop at once, which meets the open
windows of its channel inside or outside the dead time. That a resolved strobe's last sample becomes the outputs is the model's choice (log entry
15), as is the latency of the compare path in the stop's instant (log entry 72). -/
theorem strobesAndStops : Obligations.StrobesAndStops := by
  unfold Obligations.StrobesAndStops
  refine ⟨?_, fun ch volts s h => (exec_strobe ch volts s).trans (congrArg _ (doStrobe_waits volts h)), ?_⟩
  · intro ch volts s x hx hfirm hvolts hcl l
    have hdo := doStrobe_resolves (l := l) hx hfirm rfl hvolts hcl
    have hlast : l.getLastD ⟨(s.chan ch).hiAbove, (s.chan ch).loBelow⟩ = l.getLastD ⟨false, false⟩ := by
      obtain ⟨v, vs, rfl⟩ := List.exists_cons_of_ne_nil hvolts
      simp only [l, State.samples, List.getLastD_cons]
    rw [hlast] at hdo
    obtain ⟨hacq, hcond⟩ := (s.senses ch fun c => c.sensed x (l.getLastD ⟨false, false⟩)).strobeDone_spec ch x l
    have hexec := exec_strobe ch volts s
    rw [hdo] at hexec
    have hchan := s.chan_senses ch fun c => c.sensed x (l.getLastD ⟨false, false⟩)
    refine ⟨_, hexec, (hacq.strobes ch).trans (congrArg ChanCtx.strobes hchan :), (hacq.hiAbove ch).trans (congrArg ChanCtx.hiAbove hchan :),
      (hacq.loBelow ch).trans (congrArg ChanCtx.loBelow hchan :), fun hcap ⟨y, hy, hfails⟩ => hcond hcap ⟨y, hy, ?_⟩⟩
    exact (s.outcome_senses ch _ rfl x.expect y).trans hfails
  · intro ch falling edge code s i hrun hmode hen hknown hwin hdue hfirm hstops
    have hdo := doTdcStop_takes rfl hrun hmode hen hknown hfirm hstops
    have hexec := exec_tdcStop ch falling ⟨edge, code⟩ s
    rw [hdo] at hexec
    refine ⟨fun hdead hfew => ?_, fun hlive hcls hfew => ?_⟩
    · obtain ⟨r, hr, hcount, hlast, hregs, hmem⟩ := State.stopWaits_dead hdue hwin hdead hfew
      rw [hr] at hexec
      exact ⟨_, hexec, hcount, hlast, hregs, .of_mem hmem⟩
    · obtain ⟨r, hr, hcount, hlast⟩ := State.stopWaits_accepts hdue hwin hlive hcls hfew
      rw [hr] at hexec
      exact ⟨_, hexec, hcount, hlast⟩

end Sys2Proof.Machine
end

section
/-! SUPPORT. What an operation on one channel may change, and the status bits, comparators, gate and levels of that channel
(06_pin_electronics.md R135 to R143, R150 to R154). -/

namespace Sys2Proof.Machine

variable {s₀ s t : State}

/-! ## Frames -/

theorem RegsSame.trans {p : Nat → Bool} (h : RegsSame p s₀ s) (k : RegsSame p s t) : RegsSame p s₀ t :=
  fun a ha => (k a ha).trans (h a ha)

theorem RegsSame.mono {p q : Nat → Bool} (h : RegsSame p s t) (hpq : ∀ a, p a = true → q a = true) : RegsSame q s t :=
  fun a ha => h a (Bool.eq_false_iff.2 fun e => by simp [hpq a e] at ha)

/-- An operation on pins: nothing changes but contexts of channels, the registers that `p` names, and the reading of free values. -/
structure PinsOnly (p : Nat → Bool) (s t : State) : Prop where
  same : { t with regs := s.regs, chans := s.chans, freeCtr := s.freeCtr } = s
  regs : RegsSame p s t

namespace PinsOnly

variable {p q : Nat → Bool}

theorem refl (s : State) : PinsOnly p s s := ⟨rfl, fun _ _ => rfl⟩

theorem trans (h : PinsOnly p s₀ s) (k : PinsOnly p s t) : PinsOnly p s₀ t :=
  ⟨(congrArg (fun x : State => ({ x with regs := s₀.regs, chans := s₀.chans, freeCtr := s₀.freeCtr } : State)) k.same).trans h.same,
    h.regs.trans k.regs⟩

theorem mono (h : PinsOnly p s t) (hpq : ∀ a, p a = true → q a = true) : PinsOnly q s t := ⟨h.same, h.regs.mono hpq⟩

theorem mem (h : PinsOnly p s t) : t.mem = s.mem := (congrArg State.mem h.same :)
theorem tiles (h : PinsOnly p s t) : t.tiles = s.tiles := (congrArg State.tiles h.same :)
theorem sysTime (h : PinsOnly p s t) : t.sysTime = s.sysTime := (congrArg State.sysTime h.same :)
theorem staged (h : PinsOnly p s t) : t.staged = s.staged := (congrArg State.staged h.same :)
theorem injHeld (h : PinsOnly p s t) : t.injHeld = s.injHeld := (congrArg State.injHeld h.same :)
theorem lvlClr (h : PinsOnly p s t) : t.lvlClr = s.lvlClr := (congrArg State.lvlClr h.same :)
theorem memSame (h : PinsOnly p s t) : MemSame s t := .of_mem h.mem

/-- One operation after another. -/
theorem foldl {α : Type} {l : List α} {f : State → α → State} (h : PinsOnly p s₀ s) (step : ∀ r, ∀ a ∈ l, PinsOnly p r (f r a)) :
    PinsOnly p s₀ (l.foldl f s) :=
  List.foldlRecOn l f h fun r hr a ha => hr.trans (step r a ha)

end PinsOnly

/-- An operation on the pin of channel `ch`, which leaves every other channel alone. -/
structure PinOnly (p : Nat → Bool) (ch : Nat) (s t : State) : Prop extends PinsOnly p s t where
  others : ∀ k, k ≠ ch → t.chan k = s.chan k

namespace PinOnly

variable {p q : Nat → Bool} {ch : Nat}

theorem refl (s : State) : PinOnly p ch s s := ⟨.refl s, fun _ _ => rfl⟩

theorem trans (h : PinOnly p ch s₀ s) (k : PinOnly p ch s t) : PinOnly p ch s₀ t :=
  ⟨h.toPinsOnly.trans k.toPinsOnly, fun n hn => (k.others n hn).trans (h.others n hn)⟩

theorem mono (h : PinOnly p ch s t) (hpq : ∀ a, p a = true → q a = true) : PinOnly q ch s t := ⟨h.toPinsOnly.mono hpq, h.others⟩

theorem rset (h : PinOnly p ch s₀ s) {a : Nat} (ha : p a = true) (v : Word) : PinOnly p ch s₀ (s.rset a v) :=
  h.trans ⟨⟨rfl, .rset s ha v⟩, fun _ _ => rfl⟩

theorem fset (h : PinOnly p ch s₀ s) {f : Fld} (hf : p f.addr = true) (v : Nat) : PinOnly p ch s₀ (s.fset f v) := h.rset hf _

theorem setFlag (h : PinOnly p ch s₀ s) {f : Fld} (hf : p f.addr = true) (b : Bool) : PinOnly p ch s₀ (s.setFlag f b) := h.fset hf _

theorem setChan (h : PinOnly p ch s₀ s) (c : ChanCtx) : PinOnly p ch s₀ (s.setChan ch c) :=
  h.trans ⟨⟨rfl, fun _ _ => rfl⟩, fun k hk => by rw [State.chan_setChan, if_neg hk]⟩

theorem modChan (h : PinOnly p ch s₀ s) (f : ChanCtx → ChanCtx) : PinOnly p ch s₀ (s.modChan ch f) := h.setChan _

theorem free (h : PinOnly p ch s₀ s) : PinOnly p ch s₀ s.free.2 := h.trans ⟨⟨rfl, fun _ _ => rfl⟩, fun _ _ => rfl⟩

theorem ite {c : Prop} [Decidable c] {a b : State} (ha : PinOnly p ch s a) (hb : PinOnly p ch s b) : PinOnly p ch s (if c then a else b) := by
  split
  · exact ha
  · exact hb

end PinOnly

/-- CH_STATUS and PMU_MEAS of a channel: what the operations on a pin show of its state. -/
def pinReg (ch a : Nat) : Bool := a == R.CH_STATUS ch || a == R.PMU_MEAS ch

theorem pinReg_status (ch : Nat) : pinReg ch (R.CH_STATUS ch) = true := by simp [pinReg]

theorem pinReg_meas (ch : Nat) : pinReg ch (R.PMU_MEAS ch) = true := by simp [pinReg]

/-- A register of a channel other than these two is none of them of any channel. -/
theorem pinReg_other {c ch o : Nat} (h : o < 0x400 ∧ o ≠ 0x44 ∧ o ≠ 0x5c) : pinReg c (0x500000 + ch * 0x400 + o) = false := by
  simp [pinReg, R.CH_STATUS, R.PMU_MEAS]
  omega

theorem inChan_offset {ch o : Nat} (h : o < 0x400) : inChan ch (0x500000 + ch * 0x400 + o) = true := decide_eq_true (by omega)

theorem inChan_of_pinReg {ch a : Nat} (h : pinReg ch a = true) : inChan ch a = true := by
  simp only [pinReg, R.CH_STATUS, R.PMU_MEAS, Bool.or_eq_true, beq_iff_eq] at h
  exact decide_eq_true (by omega)

theorem inChan_ge {ch a : Nat} (h : inChan ch a = true) : 0x500000 ≤ a :=
  Nat.le_trans (Nat.le_add_right ..) (of_decide_eq_true h).1

theorem PinOnly.inChan {ch : Nat} (h : PinOnly (pinReg ch) ch s t) : PinOnly (inChan ch) ch s t := h.mono fun _ => inChan_of_pinReg

/-! ## Status bits -/

@[simp] theorem State.chan_rset (s : State) (a : Nat) (v : Word) (ch : Nat) : (s.rset a v).chan ch = s.chan ch := rfl
@[simp] theorem State.chan_fset (s : State) (f : Fld) (v ch : Nat) : (s.fset f v).chan ch = s.chan ch := rfl
@[simp] theorem State.chan_setFlag (s : State) (f : Fld) (b : Bool) (ch : Nat) : (s.setFlag f b).chan ch = s.chan ch := rfl
@[simp] theorem State.flag_modChan (s : State) (ch : Nat) (f : ChanCtx → ChanCtx) (g : Fld) :
    (s.modChan ch f).flag g = s.flag g := State.flag_congr rfl
@[simp] theorem State.flag_setChan (s : State) (ch : Nat) (c : ChanCtx) (g : Fld) : (s.setChan ch c).flag g = s.flag g := State.flag_congr rfl

/-- One bit of a register read behind an update of one bit of it. -/
@[simp] theorem State.flag_setFlag_bit (s : State) (a m n : Nat) (b : Bool) (hm : m < 32) :
    (s.setFlag ⟨a, m, m⟩ b).flag ⟨a, n, n⟩ = if n = m then b else s.flag ⟨a, n, n⟩ := by
  split
  · next e => subst e; exact State.flag_setFlag_same _ _ (Nat.le_refl _) hm
  · next e => exact State.flag_setFlag_disjoint _ _ (by simpa using Nat.lt_or_gt_of_ne e) (Nat.le_refl _) (Nat.le_refl _)

/-- The KNOWN flags are set; CSTATE follows, and no other status bit changes (R150). -/
@[simp] theorem State.flag_setKnown (s : State) (ch : Nat) (hi lo : Bool) {n : Nat} (hn : 2 ≤ n) :
    (s.setKnown ch hi lo).flag ⟨R.CH_STATUS ch, n, n⟩ = if n = 5 then lo else if n = 4 then hi else s.flag ⟨R.CH_STATUS ch, n, n⟩ := by
  unfold State.setKnown State.syncCmp
  refine (congrArg (· != 0) (State.fget_fset_disjoint _ _ (.inr (show 1 < n by omega)) (Nat.zero_le 1) (Nat.le_refl n))).trans ?_
  exact (State.flag_setFlag_bit _ _ 5 n _ (by decide)).trans (if_congr Iff.rfl rfl (State.flag_setFlag_bit _ _ 4 n _ (by decide)))

@[simp] theorem State.chan_setKnown (s : State) (ch : Nat) (hi lo : Bool) (k : Nat) : (s.setKnown ch hi lo).chan k = s.chan k := rfl

theorem PinOnly.setKnown {ch : Nat} (h : PinOnly (pinReg ch) ch s₀ s) (hi lo : Bool) : PinOnly (pinReg ch) ch s₀ (s.setKnown ch hi lo) := by
  unfold State.setKnown State.syncCmp
  exact ((h.setFlag (pinReg_status ch) _).setFlag (pinReg_status ch) _).fset (pinReg_status ch) _

/-! ## Comparators, forced resets and the gate (R136, R137, R152, R154) -/

theorem PinOnly.clearKnown {ch : Nat} (h : PinOnly (pinReg ch) ch s₀ s) (hi lo : Bool) :
    PinOnly (pinReg ch) ch s₀ (s.clearKnown ch hi lo) :=
  .ite (h.modChan _) (h.setKnown _ _)

theorem PinOnly.forceReset {ch : Nat} (h : PinOnly (pinReg ch) ch s₀ s) : PinOnly (pinReg ch) ch s₀ (s.forceReset ch) :=
  ((h.modChan _).setFlag (pinReg_status ch) _).setKnown _ _

theorem PinOnly.openGate {ch : Nat} (h : PinOnly (pinReg ch) ch s₀ s) : PinOnly (pinReg ch) ch s₀ (s.openGate ch) := by
  unfold State.openGate
  extract_lets s₁ s₂ s₃
  have h₁ : PinOnly (pinReg ch) ch s₀ s₁ := h.modChan _
  have h₂ : PinOnly (pinReg ch) ch s₀ s₂ :=
    (((h₁.setFlag (pinReg_status ch) _).setFlag (pinReg_status ch) _).setFlag (pinReg_status ch) _).setKnown _ _
  have h₃ : PinOnly (pinReg ch) ch s₀ s₃ := h₂.setFlag (pinReg_meas ch) _
  exact .ite h₃ (h₃.setFlag (pinReg_status ch) _)

theorem PinOnly.reach {ch : Nat} (h : PinOnly (pinReg ch) ch s₀ s) : PinOnly (pinReg ch) ch s₀ (s.reach ch) := h.modChan _

theorem PinOnly.chSafe {ch : Nat} (h : PinOnly (pinReg ch) ch s₀ s) : PinOnly (pinReg ch) ch s₀ (s.chSafe ch) := (h.reach.modChan _).openGate

/-- Behind a clearing of KNOWN the channel's context differs in a deferred clearing at most (R152). -/
theorem State.chan_clearKnown (s : State) (ch : Nat) (hi lo : Bool) :
    ∃ b, (s.clearKnown ch hi lo).chan ch = { s.chan ch with clearDeferred := b } := by
  unfold State.clearKnown
  split
  · exact ⟨true, by simp⟩
  · exact ⟨_, rfl⟩

/-- A clearing of KNOWN changes no status bit but KNOWN and CSTATE. -/
theorem State.flag_clearKnown (s : State) (ch : Nat) (hi lo : Bool) {n : Nat} (hn : 5 < n) :
    (s.clearKnown ch hi lo).flag ⟨R.CH_STATUS ch, n, n⟩ = s.flag ⟨R.CH_STATUS ch, n, n⟩ := by
  unfold State.clearKnown
  split
  · rfl
  · simp [show 2 ≤ n by omega, show n ≠ 5 by omega, show n ≠ 4 by omega]

/-- A forced reset that begins clears KNOWN and sets RST_BUSY (R154). -/
@[simp] theorem State.flag_forceReset (s : State) (ch : Nat) {n : Nat} (hn : 2 ≤ n) : (s.forceReset ch).flag ⟨R.CH_STATUS ch, n, n⟩ =
    if n = 5 then false else if n = 4 then false else if n = 12 then true else s.flag ⟨R.CH_STATUS ch, n, n⟩ := by
  simp only [State.forceReset, R.CH_STATUS_RST_BUSY, State.flag_setKnown _ _ _ _ hn, State.flag_setFlag_bit _ _ _ _ _ (show 12 < 32 by decide),
    State.flag_modChan]

theorem State.forcing_forceReset (s : State) (ch : Nat) : ((s.forceReset ch).chan ch).forcing = true := by simp [State.forceReset]

/-- A channel in the pin safe state acts as one in OFF, its driver and its load are off. -/
theorem State.chan_openGate (s : State) (ch : Nat) : (s.openGate ch).chan ch =
    { s.chan ch with level := .vil, enable := .offLoadOff, carried := [], forcing := false, clearDeferred := false
                     resetQueued := false, gateMoving := s.flag (R.CH_STATUS_GATE ch), pmuRanging := false } := by
  unfold State.openGate
  dsimp only
  split <;> simp

end Sys2Proof.Machine
end

section
/-! SUPPORT. CH_MODE, the gate and the forced reset of a channel (06_pin_electronics.md R135, R136, R137, R154). -/

namespace Sys2Proof.Machine

variable {s t : State}

/-! ## Register writes of their own -/

theorem State.writeRow_refused (s : State) {r : Option (BitVec 8)} {st : BitVec 8} (h : r = some st) (act : State → State) :
    s.writeRow r act = s.answered st := by rw [h]; rfl

theorem State.writeRow_done (s : State) {r : Option (BitVec 8)} (h : r = none) (act : State → State) :
    s.writeRow r act = (act s).answered St.ok := by rw [h]; rfl

/-! ## CH_MODE (R135) -/

/-- Behind the store into CH_MODE the write changes the channel's context and what its pin shows. -/
theorem State.chMode_behind (s : State) (ch : Nat) (v : Word) :
    PinOnly (pinReg ch) ch ((s.reach ch).rset (R.CH_MODE ch) (v &&& 0x133)) (s.chMode ch v) := by
  unfold State.chMode
  extract_lets s₁ old new hyst s₂ s₃ s₄ s₅
  have h₂ : PinOnly (pinReg ch) ch s₂ s₂ := .refl s₂
  have h₄ : PinOnly (pinReg ch) ch s₂ s₄ := .ite (h₂.modChan _) ((h₂.modChan _).clearKnown _ _)
  have h₅ : PinOnly (pinReg ch) ch s₂ s₅ := .ite h₄ ((h₄.modChan _).setFlag (pinReg_status ch) _)
  refine .ite h₂ (.ite (.ite (h₄.setFlag (pinReg_status ch) _) h₄.openGate) (.ite ?_ (.ite (.ite h₅.forceReset (h₅.modChan _)) h₅)))
  exact ((h₄.modChan _).setFlag (pinReg_status ch) _).setFlag (pinReg_status ch) _

theorem State.chMode_pinOnly (s : State) (ch : Nat) (v : Word) : PinOnly (inChan ch) ch s (s.chMode ch v) :=
  (((PinOnly.refl s).modChan _).rset (inChan_offset (by decide)) _).trans (s.chMode_behind ch v).inChan

theorem State.chMode_stores (s : State) (ch : Nat) (v : Word) : (s.chMode ch v).rget (R.CH_MODE ch) = v &&& 0x133 :=
  ((s.chMode_behind ch v).regs _ (pinReg_other (o := 0x40) (by decide))).trans (State.rget_rset_same ..)

/-- A channel that leaves OFF begins to close its gate (R137). -/
theorem State.chMode_closes {ch : Nat} {v : Word} (hon : s.flag R.SF_STATUS_FE_OFF = false) (hoff : s.mode ch = 0) (hnew : field v 1 0 ≠ 0) :
    ((s.chMode ch v).chan ch).gateMoving = true ∧ (s.chMode ch v).flag (R.CH_STATUS_SAFE ch) = false ∧
      (s.chMode ch v).flag (R.CH_STATUS_GATE ch) = false := by
  have hoff' : (s.reach ch).mode ch = 0 := by
    rwa [State.mode, State.reach, State.chan_modChan, if_pos rfl]
  have hon' : (s.reach ch).flag R.SF_STATUS_FE_OFF = false := hon
  unfold State.chMode
  extract_lets s₁ old new hyst s₂ s₃ s₄ s₅
  clear_value s₄
  rw [if_neg (by simp [s₁, hon']), if_neg hnew, if_pos hoff']
  simp [R.CH_STATUS_SAFE, R.CH_STATUS_GATE]

/-! ## The gate (R137) -/

theorem State.gateDone_pinOnly (s : State) (ch : Nat) : PinOnly (pinReg ch) ch s (s.gateDone ch) := by
  unfold State.gateDone
  extract_lets q s₁
  have h₁ : PinOnly (pinReg ch) ch s s₁ := (((PinOnly.refl s).modChan _).setFlag (pinReg_status ch) _).setKnown _ _
  exact .ite (.refl s) (.ite h₁.forceReset h₁)

/-- A gate that has closed enables the comparators, neither of them KNOWN, and a queued forced reset begins. -/
theorem State.gateDone_spec {ch : Nat} (hmode : s.mode ch ≠ 0) (hgate : s.flag (R.CH_STATUS_GATE ch) = false) :
    (s.gateDone ch).flag (R.CH_STATUS_GATE ch) = true ∧ (s.gateDone ch).flag (R.CH_STATUS_KNOWN_HI ch) = false ∧
      (s.gateDone ch).flag (R.CH_STATUS_KNOWN_LO ch) = false ∧
      ((s.chan ch).resetQueued = true → ((s.gateDone ch).chan ch).forcing = true ∧ (s.gateDone ch).flag (R.CH_STATUS_RST_BUSY ch) = true) := by
  unfold State.gateDone
  rw [if_neg (by simp [hmode, hgate])]
  extract_lets q s₁
  have hshown : s₁.flag (R.CH_STATUS_GATE ch) = true :=
    (State.flag_setKnown _ ch _ _ (show 2 ≤ 13 by decide)).trans (State.flag_setFlag_same _ _ (Nat.le_refl 13) (show 13 < 32 by decide))
  have hhi : s₁.flag (R.CH_STATUS_KNOWN_HI ch) = false := State.flag_setKnown _ ch _ _ (show 2 ≤ 4 by decide)
  have hlo : s₁.flag (R.CH_STATUS_KNOWN_LO ch) = false := State.flag_setKnown _ ch _ _ (show 2 ≤ 5 by decide)
  clear_value s₁
  by_cases hq : q = true
  · rw [if_pos hq]
    refine ⟨(s₁.flag_forceReset ch (show 2 ≤ 13 by decide)).trans hshown, s₁.flag_forceReset ch (show 2 ≤ 4 by decide),
      s₁.flag_forceReset ch (show 2 ≤ 5 by decide), fun _ =>
        ⟨s₁.forcing_forceReset ch, s₁.flag_forceReset ch (show 2 ≤ 12 by decide)⟩⟩
  · rw [if_neg hq]
    exact ⟨hshown, hhi, hlo, fun h => absurd h hq⟩

theorem State.heldOverstress_eq_self {ch : Nat} (h : ∀ k < 2, (0x60000, k, ch) ∉ s.injHeld) : s.heldOverstress ch = s := by
  unfold State.heldOverstress
  simp [h 0 (by decide), h 1 (by decide)]

theorem State.gateOpen_spec {ch : Nat} (h : s.mode ch = 0) :
    (s.gateOpen ch).flag (R.CH_STATUS_GATE ch) = false ∧ (s.gateOpen ch).flag (R.CH_STATUS_SAFE ch) = true ∧
      PinOnly (pinReg ch) ch s (s.gateOpen ch) := by
  unfold State.gateOpen
  rw [if_pos h]
  refine ⟨by simp [R.CH_STATUS_GATE, R.CH_STATUS_SAFE], by simp [R.CH_STATUS_SAFE], ?_⟩
  exact (((PinOnly.refl s).modChan _).setFlag (pinReg_status ch) _).setFlag (pinReg_status ch) _

/-! ## The forced reset (R154) -/

theorem State.forcedEnd_pinOnly (s : State) (ch : Nat) (volt : Int) : PinOnly (pinReg ch) ch s (s.forcedEnd ch (some volt)) := by
  unfold State.forcedEnd State.resolve
  exact (((PinOnly.refl s).free.setChan _).setFlag (pinReg_status ch) _).setKnown _ _

/-- A forced reset that ends leaves each comparator on the side that is decided, and both KNOWN unless a clearing was deferred. -/
theorem State.forcedEnd_spec (s : State) (ch : Nat) (volt : Int) :
    let t := s.forcedEnd ch (some volt)
    t.flag (R.CH_STATUS_RST_BUSY ch) = false ∧ t.flag (R.CH_STATUS_KNOWN_HI ch) = !(s.chan ch).clearDeferred ∧
      t.flag (R.CH_STATUS_KNOWN_LO ch) = !(s.chan ch).clearDeferred ∧
      (∀ b, sideOfVt (s.threshold ch 3) volt = some b → (t.chan ch).hiAbove = b) ∧
      ∀ b, sideOfVt (s.threshold ch 4) volt = some b → (t.chan ch).loBelow = !b := by
  have hfree : s.free.2.chan ch = s.chan ch := rfl
  simp +contextual [State.forcedEnd, State.resolve, R.CH_STATUS_RST_BUSY, R.CH_STATUS_KNOWN_HI, R.CH_STATUS_KNOWN_LO, hfree]

/-- An update of a sentinel's context leaves every other's. -/
theorem State.snt_modSnt (s : State) (n k : Nat) (f : SntCtx → SntCtx) : (s.modSnt n f).snt k = if k = n then f (s.snt n) else s.snt k :=
  Store.get_put ..

theorem State.snt_sntSync (s : State) (n k : Nat) : (s.sntSync n).snt k = s.snt k := rfl

theorem State.mem_sntSync (s : State) (n : Nat) : (s.sntSync n).mem = s.mem := rfl

theorem State.mem_modSnt (s : State) (n : Nat) (f : SntCtx → SntCtx) : (s.modSnt n f).mem = s.mem := rfl

/-- A sentinel's forced reset that ends: its comparators are KNOWN unless a clearing was deferred, and `outside` follows them. -/
theorem doForcedResetEnd_snt {n : Fin 64} (volt : Int) (h : (s.snt n).forcing = true) :
    let t := doForcedResetEnd (.snt n) volt s
    (t.snt n).forcing = false ∧ (t.snt n).knownHi = !(s.snt n).clearDeferred ∧
      (∀ a b, sideOfVt (s.sntCodes n).1 volt = some a → sideOfVt (s.sntCodes n).2 volt = some b → (t.snt n).outside = (a || !b)) ∧
      t.mem = s.mem := by
  have hfree : s.free.2.snt n = s.snt n := rfl
  simp only [doForcedResetEnd, h, if_true, State.resolve]
  refine ⟨?_, ?_, fun a b ha hb => ?_, rfl⟩
  · simp [State.snt_sntSync, State.snt_modSnt, SntCtx.follow]
  · simp [State.snt_sntSync, State.snt_modSnt, SntCtx.follow]
  · simp [State.snt_sntSync, State.snt_modSnt, SntCtx.follow, ha, hb]

/-! ## The statement -/

/-- Settles O32: behind the checks each row is one operation on the channel's pin, whose status bits are read off one after another. -/
theorem channelModes : Obligations.ChannelModes := by
  unfold Obligations.ChannelModes
  refine ⟨?_, ?_, ?_, ?_, ?_, ?_⟩
  · intro ch v s st hrule
    have hexec : exec (.chModeWrite ch v) s = .next (s.answered st) := congrArg Host.Outcome.next (s.writeRow_refused hrule _)
    exact ⟨_, hexec, rfl, rfl, fun _ _ => rfl, .of_mem rfl⟩
  · intro ch v s hrule
    have hexec : exec (.chModeWrite ch v) s = .next ((s.chMode ch v).answered St.ok) := congrArg Host.Outcome.next (s.writeRow_done hrule _)
    have honly := s.chMode_pinOnly ch v
    exact ⟨_, hexec, rfl, s.chMode_stores ch v, fun hon hoff hnew => State.chMode_closes hon hoff hnew, honly.regs, honly.memSame⟩
  · intro ch s hmode hgate hinj
    have honly := s.gateDone_pinOnly ch
    have hself : doGateClosed ch s = s.gateDone ch :=
      State.heldOverstress_eq_self (by rwa [honly.injHeld])
    obtain ⟨hshown, hhi, hlo, hreset⟩ := State.gateDone_spec hmode hgate
    exact ⟨_, congrArg Host.Outcome.next hself, hshown, hhi, hlo, hreset, honly.inChan.regs, honly.memSame⟩
  · intro ch s hmode
    obtain ⟨hgate, hsafe, honly⟩ := State.gateOpen_spec hmode
    exact ⟨_, rfl, hgate, hsafe, honly.inChan.regs, honly.memSame⟩
  · intro ch volt s hforcing
    have hexec : exec (.forcedResetEnd (.chan ch) volt) s = .next (s.forcedEnd ch (some volt)) := congrArg Host.Outcome.next (if_pos hforcing)
    have honly := s.forcedEnd_pinOnly ch volt
    obtain ⟨hbusy, hhi, hlo, habove, hbelow⟩ := s.forcedEnd_spec ch volt
    exact ⟨_, hexec, hbusy, hhi, hlo, habove, hbelow, honly.inChan.regs, honly.memSame⟩
  · intro n volt s hforcing
    obtain ⟨hends, hknown, hside, hmem⟩ := doForcedResetEnd_snt volt hforcing
    exact ⟨_, rfl, hends, hknown, hside, .of_mem hmem⟩

end Sys2Proof.Machine
end

section
/-! SUPPORT. Levels: a code is applied, its hold and its settling end, and all converters are driven together
(06_pin_electronics.md R142, R143, R145). -/

namespace Sys2Proof.Machine

variable {s t : State}

/-! ## The application of a code (R142, R143) -/

/-- What an application makes of the channel's context, but for a deferred clearing of KNOWN. -/
def ChanCtx.take (c : ChanCtx) (k : Nat) (code : BitVec 16) : ChanCtx :=
  { c with applied := Store.put (fun _ => 0) c.applied k code
           holding := if code.toNat / 1024 != (Store.get (fun _ => 0) c.applied k : BitVec 16).toNat / 1024 then
             (k, c.output k) :: c.holding.filter (·.1 != k) else c.holding
           settling := k :: c.settling.filter (· != k) }

/-- A code is applied, and what a threshold's application does to KNOWN follows. -/
theorem State.applyLevel_cases (s : State) (ch k : Nat) (code : BitVec 16) :
    let r := (s.setChan ch ((s.chan ch).take k code)).setFlag (R.CH_STATUS_LVL_BUSY ch) true
    s.applyLevel ch k code = r ∨ ∃ hi lo, s.applyLevel ch k code = r.clearKnown ch hi lo := by
  intro r
  unfold State.applyLevel
  extract_lets c old jump s₁ s₂
  rw [show s₂ = r from rfl]
  split
  · exact .inr ⟨_, _, rfl⟩
  split
  · exact .inr ⟨_, _, rfl⟩
  · exact .inl rfl

theorem PinOnly.applyLevel {s₀ : State} {ch : Nat} (h : PinOnly (pinReg ch) ch s₀ s) (k : Nat) (code : BitVec 16) :
    PinOnly (pinReg ch) ch s₀ (s.applyLevel ch k code) := by
  have hr := (h.setChan ((s.chan ch).take k code)).setFlag (f := R.CH_STATUS_LVL_BUSY ch) (pinReg_status ch) true
  obtain e | ⟨hi, lo, e⟩ := s.applyLevel_cases ch k code
  · exact e ▸ hr
  · exact e ▸ hr.clearKnown hi lo

theorem State.chan_applyLevel (s : State) (ch k : Nat) (code : BitVec 16) :
    ∃ b, (s.applyLevel ch k code).chan ch = { (s.chan ch).take k code with clearDeferred := b } := by
  obtain e | ⟨hi, lo, e⟩ := s.applyLevel_cases ch k code
  · exact ⟨((s.chan ch).take k code).clearDeferred, by simp [e]⟩
  · rw [e]
    obtain ⟨b, hb⟩ := State.chan_clearKnown ((s.setChan ch ((s.chan ch).take k code)).setFlag (R.CH_STATUS_LVL_BUSY ch) true) ch hi lo
    exact ⟨b, by simp [hb]⟩

theorem State.busy_applyLevel (s : State) (ch k : Nat) (code : BitVec 16) :
    (s.applyLevel ch k code).flag (R.CH_STATUS_LVL_BUSY ch) = true := by
  have hbusy : ((s.setChan ch ((s.chan ch).take k code)).setFlag (R.CH_STATUS_LVL_BUSY ch) true).flag (R.CH_STATUS_LVL_BUSY ch) = true :=
    State.flag_setFlag_same _ _ (Nat.le_refl 11) (show 11 < 32 by decide)
  obtain e | ⟨hi, lo, e⟩ := s.applyLevel_cases ch k code
  · exact e ▸ hbusy
  · exact e ▸ (State.flag_clearKnown _ ch hi lo (show 5 < 11 by decide)).trans hbusy

/-- Level `k` stands at its new code, and no other level's code changes. -/
theorem State.applied_applyLevel (s : State) (ch k j : Nat) (code : BitVec 16) :
    Store.get (fun _ => 0) ((s.applyLevel ch k code).chan ch).applied j = if j = k then code else Store.get (fun _ => 0) (s.chan ch).applied j := by
  obtain ⟨b, hb⟩ := s.chan_applyLevel ch k code
  rw [hb]
  exact Store.get_put ..

/-! ## Holds (R143) -/

/-- Where a change of bits 15 to 10 begins a hold, the output stays where it was. -/
theorem State.output_applyLevel {ch k : Nat} {code : BitVec 16}
    (h : code.toNat / 1024 ≠ (Store.get (fun _ => 0) (s.chan ch).applied k : BitVec 16).toNat / 1024) :
    ((s.applyLevel ch k code).chan ch).output k = (s.chan ch).output k := by
  obtain ⟨b, hb⟩ := s.chan_applyLevel ch k code
  have hhold : ((s.chan ch).take k code).holding = (k, (s.chan ch).output k) :: (s.chan ch).holding.filter (·.1 != k) :=
    if_pos (bne_iff_ne.2 h)
  rw [hb]
  simp [ChanCtx.output, hhold]

/-- No hold of level `k` any more: its output stands at the code applied; every other level's output is unchanged. -/
theorem ChanCtx.output_release (c : ChanCtx) (k j : Nat) :
    ({ c with holding := c.holding.filter (·.1 != k) } : ChanCtx).output j =
      if j = k then Store.get (fun _ => 0) c.applied k else c.output j := by
  have hfind : (c.holding.filter (·.1 != k)).find? (·.1 == j) = if j = k then none else c.holding.find? (·.1 == j) := by
    rw [List.find?_filter]
    split
    · next e => exact List.find?_eq_none.2 fun x _ => by simp [e]
    · next e => exact congrArg (List.find? · c.holding) (funext fun x => by
        by_cases hx : x.1 = j
        · simp [hx, e]
        · simp [hx])
  simp only [ChanCtx.output, hfind]
  split
  · next e => rw [e]; rfl
  · rfl

/-! ## LVL_k (R142) -/

theorem LVL_inChan {ch k : Nat} (h : k < 11) : inChan ch (R.LVL ch k) = true := decide_eq_true (by unfold R.LVL; omega)

theorem pinReg_LVL {c ch k : Nat} (h : k < 11) : pinReg c (R.LVL ch k) = false := by
  simp [pinReg, R.CH_STATUS, R.PMU_MEAS, R.LVL]
  omega

theorem pinReg_LVL_SAFE {c ch k : Nat} (h : k < 11) : pinReg c (R.LVL_SAFE ch k) = false := by
  simp [pinReg, R.CH_STATUS, R.PMU_MEAS, R.LVL_SAFE]
  omega

theorem State.levelCode_behind (s : State) (ch k : Nat) (code : BitVec 16) :
    PinOnly (pinReg ch) ch (s.fset (R.LVL_CODE ch k) code.toNat) (s.levelCode ch k code) :=
  .ite (.refl _) ((PinOnly.refl _).applyLevel k code)

theorem State.levelCode_stores (s : State) (ch : Nat) {k : Nat} (hk : k < 11) (code : BitVec 16) :
    (s.levelCode ch k code).fget (R.LVL_CODE ch k) = code.toNat := by
  refine (State.fget_congr ((s.levelCode_behind ch k code).regs _ (pinReg_LVL hk))).trans ?_
  rw [State.fget_fset_same _ _ (Nat.zero_le 15) (show 15 < 32 by decide)]
  exact Nat.mod_eq_of_lt code.isLt

theorem State.levelCode_pinOnly (s : State) (ch : Nat) {k : Nat} (hk : k < 11) (code : BitVec 16) :
    PinOnly (inChan ch) ch s (s.levelCode ch k code) :=
  ((PinOnly.refl s).fset (f := R.LVL_CODE ch k) (LVL_inChan hk) _).trans (s.levelCode_behind ch k code).inChan

theorem State.levelCode_held {ch k : Nat} {code : BitVec 16} (h : s.lvlClr = true) :
    s.levelCode ch k code = s.fset (R.LVL_CODE ch k) code.toNat := if_pos h

theorem State.levelCode_applies {ch k : Nat} {code : BitVec 16} (h : s.lvlClr = false) :
    s.levelCode ch k code = (s.fset (R.LVL_CODE ch k) code.toNat).applyLevel ch k code :=
  if_neg (by rw [State.fset_lvlClr, h]; exact Bool.false_ne_true)

/-! ## The end of settling (R143, R144) -/

theorem State.busy_forceReset (s : State) (ch c : Nat) :
    (s.forceReset ch).flag (R.CH_STATUS_LVL_BUSY c) = s.flag (R.CH_STATUS_LVL_BUSY c) := by
  by_cases e : c = ch
  · subst e
    simp [State.forceReset, R.CH_STATUS_LVL_BUSY, R.CH_STATUS_RST_BUSY]
  · refine State.flag_congr (((PinOnly.refl s).forceReset (ch := ch)).regs _ ?_)
    simp [pinReg, R.CH_STATUS_LVL_BUSY, R.CH_STATUS, R.PMU_MEAS]
    omega

theorem State.settling_forceReset (s : State) (ch c : Nat) : ((s.forceReset ch).chan c).settling = (s.chan c).settling := by
  simp only [State.forceReset, State.chan_setKnown, State.chan_setFlag, State.chan_modChan]
  split
  · next e => rw [e]
  · rfl

/-- The forced resets of an arming change no level's settling, what shows it, and no byte of memory. -/
theorem State.armForce_settling (s : State) (c : Nat) :
    (s.armForce.chan c).settling = (s.chan c).settling ∧ s.armForce.flag (R.CH_STATUS_LVL_BUSY c) = s.flag (R.CH_STATUS_LVL_BUSY c) ∧
      s.armForce.mem = s.mem := by
  unfold State.armForce
  extract_lets due
  refine List.foldlRecOn (motive := fun r : State =>
    (r.chan c).settling = (s.chan c).settling ∧ r.flag (R.CH_STATUS_LVL_BUSY c) = s.flag (R.CH_STATUS_LVL_BUSY c) ∧ r.mem = s.mem)
    _ _ ⟨rfl, rfl, rfl⟩ ?_
  intro r ⟨hset, hbusy, hmem⟩ ch _
  exact ⟨(r.settling_forceReset ch c).trans hset, (r.busy_forceReset ch c).trans hbusy, hmem⟩

/-- With no STEP_ARM that settles no forced reset begins. -/
theorem State.armForce_regs (h : ∀ x ∈ s.splits, x.opcode = 0x30 → x.stage ≠ 1) : s.armForce.regs = s.regs := by
  unfold State.armForce
  extract_lets due
  have hnone : s.splits.filter due = [] := List.filter_eq_nil_iff.2 fun x hx hdue => by
    simp only [due, Bool.and_eq_true, beq_iff_eq] at hdue
    exact h x hx hdue.1.1 hdue.1.2
  rw [hnone]
  rfl

/-! ## All converters together (R145) -/

/-- An operation that drives the converter of level `k` to the code that register `A ch k` holds. -/
structure Drives (A : Nat → Nat → Nat) (ch k : Nat) (s t : State) : Prop where
  only : PinOnly (pinReg ch) ch s t
  applied : ∀ j, Store.get (fun _ => 0) (t.chan ch).applied j =
    if j = k then (s.rget (A ch k)).setWidth 16 else Store.get (fun _ => 0) (s.chan ch).applied j

theorem State.applyLevel_drives (s : State) (ch k : Nat) : Drives R.LVL ch k s (s.applyLevel ch k ((s.rget (R.LVL ch k)).setWidth 16)) :=
  ⟨(PinOnly.refl s).applyLevel .., fun j => s.applied_applyLevel ch k j _⟩

theorem State.applySafe_drives (s : State) (ch k : Nat) : Drives R.LVL_SAFE ch k s (s.applySafe ch k) :=
  ⟨((PinOnly.refl s).applyLevel k ((s.rget (R.LVL_SAFE ch k)).setWidth 16)).modChan fun c => { c with holding := c.holding.filter (·.1 != k) },
    fun j => by
      rw [State.applySafe, State.chan_modChan, if_pos rfl]
      exact s.applied_applyLevel ch k j _⟩

/-- The registers of all channels. -/
def chanReg (a : Nat) : Bool := decide (0x500000 ≤ a)

section

variable {A : Nat → Nat → Nat} {f : State → Nat → Nat → State}

/-- One channel: every level is driven to its code. -/
theorem foldl_drives (hA : ∀ c ch k, k < 11 → pinReg c (A ch k) = false) (hf : ∀ s ch k, Drives A ch k s (f s ch k)) (s : State) (ch : Nat) :
    let t := (List.range 11).foldl (fun s k => f s ch k) s
    PinOnly (pinReg ch) ch s t ∧ ∀ k, k < 11 → Store.get (fun _ => 0) (t.chan ch).applied k = (s.rget (A ch k)).setWidth 16 := by
  refine ⟨List.foldlRecOn _ _ (.refl s) fun r hr k _ => hr.trans (hf r ch k).only, fun k hk => ?_⟩
  refine foldl_establishes (I := PinOnly (pinReg ch) ch s)
    (P := fun k t => Store.get (fun _ => 0) (t.chan ch).applied k = (s.rget (A ch k)).setWidth 16)
    (.refl s) (fun r k _ hr => hr.trans (hf r ch k).only) (fun r j hj hr => ?_) (fun r i _ j _ hne _ hi => ?_) k (List.mem_range.2 hk)
  · rw [(hf r ch j).applied, if_pos rfl, hr.regs _ (hA ch ch j (List.mem_range.1 hj))]
  · exact ((hf r ch j).applied i).trans ((if_neg hne).trans hi)

/-- The channels of a list: every level of each is driven to its code. -/
theorem foldl_foldl_drives (hA : ∀ c ch k, k < 11 → pinReg c (A ch k) = false) (hf : ∀ s ch k, Drives A ch k s (f s ch k))
    (l : List Nat) (s : State) :
    let t := l.foldl (fun s ch => (List.range 11).foldl (fun s k => f s ch k) s) s
    PinsOnly chanReg s t ∧
      ∀ ch ∈ l, ∀ k, k < 11 → Store.get (fun _ => 0) (t.chan ch).applied k = (s.rget (A ch k)).setWidth 16 := by
  have hgoes (r : State) (ch : Nat) := foldl_drives hA hf r ch
  have hreg {ch a : Nat} (ha : pinReg ch a = true) : chanReg a = true := decide_eq_true (inChan_ge (inChan_of_pinReg ha))
  refine ⟨(PinsOnly.refl s).foldl fun r ch _ => (hgoes r ch).1.toPinsOnly.mono fun _ => hreg, ?_⟩
  refine foldl_establishes (I := fun r => ∀ ch k, k < 11 → r.rget (A ch k) = s.rget (A ch k))
    (P := fun ch t => ∀ k, k < 11 → Store.get (fun _ => 0) (t.chan ch).applied k = (s.rget (A ch k)).setWidth 16)
    (fun _ _ _ => rfl) (fun r n _ hr ch k hk => ?_) (fun r n _ hr k hk => ?_) fun r u _ n _ hne _ hu k hk => ?_
  · exact ((hgoes r n).1.regs _ (hA n ch k hk)).trans (hr ch k hk)
  · rw [(hgoes r n).2 k hk, hr n k hk]
  · rw [(hgoes r n).1.others u hne]
    exact hu k hk

end

end Sys2Proof.Machine
end

section
/-! SUPPORT. A fault source sets while the moraine has room and its action resets nothing: the bits, the record and the reaction
(15_safety_faults.md R371 to R376; 18_moraine_counters.md R419). -/

namespace Sys2Proof.Machine

variable {s₀ s t : State}

/-- What putting a fault on record does: of the registers only those that `p` names and the event counters change, and beside them records of
the moraine, marks, items that wait for the engine, and what counting an event changes. -/
structure Logs (p : Nat → Bool) (s t : State) : Prop where
  same : { t with regs := s.regs, evc := s.evc, items := s.items, freeCtr := s.freeCtr, maxLen := s.maxLen, maxClk := s.maxClk,
                  micro := s.micro, mrn := s.mrn, staged := s.staged, faultMarks := s.faultMarks } = s
  regs : RegsSame (fun a => p a || counting a) s t

namespace Logs

variable {p q : Nat → Bool}

theorem refl (s : State) : Logs p s s := ⟨rfl, fun _ _ => rfl⟩

theorem trans (h : Logs p s₀ s) (k : Logs p s t) : Logs p s₀ t := by
  refine ⟨?_, h.regs.trans k.regs⟩
  exact (congrArg (fun x : State =>
    ({ x with regs := s₀.regs, evc := s₀.evc, items := s₀.items, freeCtr := s₀.freeCtr, maxLen := s₀.maxLen, maxClk := s₀.maxClk,
              micro := s₀.micro, mrn := s₀.mrn, staged := s₀.staged, faultMarks := s₀.faultMarks } : State)) k.same).trans h.same

theorem mono (h : Logs p s t) (hpq : ∀ a, p a = true → q a = true) : Logs q s t :=
  ⟨h.same, h.regs.mono fun a ha => by
    rcases Bool.or_eq_true_iff.1 ha with e | e
    · simp [hpq a e]
    · simp [e]⟩

theorem mem (h : Logs p s t) : t.mem = s.mem := (congrArg State.mem h.same :)
theorem tiles (h : Logs p s t) : t.tiles = s.tiles := (congrArg State.tiles h.same :)
theorem chans (h : Logs p s t) : t.chans = s.chans := (congrArg State.chans h.same :)
theorem snts (h : Logs p s t) : t.snts = s.snts := (congrArg State.snts h.same :)
theorem fenceReq (h : Logs p s t) : t.fenceReq = s.fenceReq := (congrArg State.fenceReq h.same :)

/-- A register that `p` does not name and that counts no events is unchanged. -/
theorem rget (h : Logs p s t) {a : Nat} (hp : p a = false) (hc : counting a = false) : t.rget a = s.rget a := h.regs a (by simp [hp, hc])

theorem of_counts (h : Logs p s₀ s) (k : Counts s t) : Logs p s₀ t := by
  refine h.trans ⟨?_, fun a ha => k.regs a (by simp at ha; exact ha.2)⟩
  exact congrArg (fun x : State => ({ x with mrn := s.mrn, staged := s.staged, faultMarks := s.faultMarks } : State)) k.same

theorem rset (h : Logs p s₀ s) {a : Nat} (ha : p a = true) (v : Word) : Logs p s₀ (s.rset a v) :=
  h.trans ⟨rfl, RegsSame.rset s (by simp [ha]) v⟩

theorem fset (h : Logs p s₀ s) {f : Fld} (hf : p f.addr = true) (v : Nat) : Logs p s₀ (s.fset f v) := h.rset hf _

theorem chan (h : Logs p s t) (ch : Nat) : t.chan ch = s.chan ch := by rw [State.chan, h.chans]; rfl

theorem snt (h : Logs p s t) (n : Nat) : t.snt n = s.snt n := by rw [State.snt, h.snts]; rfl

end Logs

/-! ## Records of the moraine (18_moraine_counters.md R419) -/

/-- A record for which the staging RAM has room. -/
theorem State.stageOnly_logs (s : State) (hroom : s.staged.length < 128) (code : Nat) (data : List Byte) (real inj : Bool)
    (time : Option (BitVec 64)) :
    Logs recordReg s (s.stageOnly code data real inj time) ∧ (s.stageOnly code data real inj time).staged.length = s.staged.length + 1 := by
  unfold State.stageOnly State.oldest
  rw [if_pos hroom]
  extract_lets seq tv r mrn mrn' s₁
  have h₁ : Logs recordReg s s₁ := ⟨rfl, fun _ _ => rfl⟩
  have hlen : s₁.staged.length = s.staged.length + 1 := List.length_append
  clear_value s₁
  refine ⟨(((h₁.fset (by decide) _).fset (by decide) _).fset (by decide) _).of_counts (State.evCount_counts ..), ?_⟩
  rw [(State.evCount_counts ..).staged]
  exact hlen

/-- A register of a block from +0xF00 on shows no record and counts no events. -/
theorem faultReg_apart {b o : Nat} (hb : b % 0x1000 = 0) (ho : 0xf00 ≤ o ∧ o < 0x1000) :
    recordReg (b + o) = false ∧ counting (b + o) = false := by
  refine ⟨?_, decide_eq_false (by omega)⟩
  simp [recordReg, R.MRN_SEQ, R.MRN_STATUS, R.MRN_OLDEST]
  omega

theorem State.stage_logs (s : State) (hroom : s.staged.length < 128) (code : Nat) (data : List Byte) (real inj : Bool)
    (time : Option (BitVec 64)) :
    Logs recordReg s (s.stage code data real inj time) ∧ (s.stage code data real inj time).staged.length = s.staged.length + 1 := by
  have hstage := s.stageOnly_logs hroom code data real inj time
  unfold State.stage
  extract_lets r
  have hlost : r.faultSet 0x80000 1 false = s.faultSet 0x80000 1 false := by
    obtain ⟨hrec, hcnt⟩ := faultReg_apart (b := 0x80000) (o := 0xf00) (by decide) (by decide)
    exact congrArg (BitVec.getLsbD · 1) (hstage.1.rget hrec hcnt)
  rw [if_neg (by rw [hlost]; simp)]
  exact hstage

theorem State.faultRecord_logs (s : State) (hroom : s.staged.length < 128) (b src : Nat) (inj : Bool) :
    Logs recordReg s (s.faultRecord b src inj) ∧ (s.faultRecord b src inj).staged.length ≤ s.staged.length + 1 := by
  have hself : Logs recordReg s s ∧ s.staged.length ≤ s.staged.length + 1 := ⟨.refl s, by omega⟩
  unfold State.faultRecord
  split
  · split
    · split
      · exact ⟨⟨rfl, fun _ _ => rfl⟩, by dsimp only; omega⟩
      · exact hself
    · exact hself
  · extract_lets mark marks
    obtain ⟨hlogs, hlen⟩ := State.stageOnly_logs { s with faultMarks := marks ++ [mark] } hroom 0x10
      (wordBytes (BitVec.ofNat 32 (R.FLT_REAL b)) ++ [BitVec.ofNat 8 src]) (!inj) inj none
    exact ⟨(⟨rfl, fun _ _ => rfl⟩ : Logs recordReg s { s with faultMarks := marks ++ [mark] }).trans hlogs, by rw [hlen]⟩

/-! ## The bits of a source (R372, R373) -/

/-- FLT_REAL, FLT_INJ, FLT_COUNT and FLT_FIRST of the block at `b`. -/
def fltReg (b a : Nat) : Bool := decide (b + 0xf00 ≤ a ∧ a < b + 0xf10)

theorem State.faultBits_spec (s : State) (b src : Nat) :
    Logs (fltReg b) s (s.faultBits b src false) ∧ (s.faultBits b src false).staged = s.staged ∧
      (s.faultBits b src false).rget (R.FLT_REAL b) = s.rget (R.FLT_REAL b) ||| BitVec.ofNat 32 (2 ^ src) := by
  have hreal : fltReg b (R.FLT_REAL b) = true := decide_eq_true (by unfold R.FLT_REAL; omega)
  have hcount : fltReg b (R.FLT_COUNT b) = true := decide_eq_true (by unfold R.FLT_COUNT; omega)
  have hfirst : fltReg b (R.FLT_FIRST b) = true := decide_eq_true (by unfold R.FLT_FIRST; omega)
  unfold State.faultBits
  extract_lets a s₁
  have h₁ : Logs (fltReg b) s s₁ := ((Logs.refl s).rset hreal _).fset (f := R.FLT_COUNT_COUNT b) hcount _
  have hword : s₁.rget (R.FLT_REAL b) = s.rget (R.FLT_REAL b) ||| BitVec.ofNat 32 (2 ^ src) :=
    (State.rget_fset_other _ _ (show R.FLT_REAL b ≠ R.FLT_COUNT b by simp [R.FLT_REAL, R.FLT_COUNT])).trans (State.rget_rset_same ..)
  have hstaged : s₁.staged = s.staged := (State.fset_staged ..).trans (State.rset_staged ..)
  clear_value s₁
  split
  · exact ⟨h₁, hstaged, hword⟩
  · exact ⟨h₁.rset hfirst _, (State.rset_staged ..).trans hstaged,
      (State.rget_rset_other _ _ (by simp [R.FLT_REAL, R.FLT_FIRST])).trans hword⟩

theorem getLsbD_or_bit (w : Word) (n k : Nat) (hn : n < 32) :
    (w ||| BitVec.ofNat 32 (2 ^ n)).getLsbD k = (w.getLsbD k || decide (k = n)) := by
  have hk : (decide (k < 32) && (2 ^ n).testBit k) = decide (k = n) := by
    rw [Nat.testBit_two_pow, Bool.eq_iff_iff]
    simp
    omega
  rw [BitVec.getLsbD_or, BitVec.getLsbD_ofNat, hk]

/-! ## The reaction (R371, R372) -/

theorem State.mem_strongest {l : List (Nat × Nat)} {e : Nat × Nat} (h : e ∈ s.strongest l) : e ∈ l := by
  obtain ⟨b, -, hb⟩ := List.mem_filterMap.1 h
  dsimp only at hb
  split at hb
  · cases hb
  · exact (List.mem_filter.1 (List.mem_of_find?_eq_some hb)).1

/-- Where every action is INT or TRAP at most, the reaction is that items wait for the engine. -/
theorem State.faultActs_items {l : List (Nat × Nat)} (h : ∀ e ∈ l, s.actionOf e < 3) :
    ∃ m, s.faultActs l = { s with items := s.items ++ m } := by
  have hnone : ((s.strongest l).any fun e => s.actionOf e == 4) = false :=
    List.any_eq_false.2 fun e he => by have := h e (State.mem_strongest he); simp; omega
  unfold State.faultActs
  dsimp only
  rw [if_neg (by simp [hnone])]
  exact ⟨_, congrArg (fun m => ({ s with items := m } : State)) (List.append_assoc ..)⟩

/-- What a source of the block at `b` changes when it sets. -/
def raiseReg (b a : Nat) : Bool := fltReg b a || recordReg a

/-- FLT_REACT of a block is not among it. -/
theorem raiseReg_react {b src : Nat} (hb : b % 0x1000 = 0) (hsrc : src < 32) :
    raiseReg b (R.FLT_REACT b (src / 8)) = false ∧ counting (R.FLT_REACT b (src / 8)) = false := by
  obtain ⟨hrec, hcnt⟩ := faultReg_apart (o := 0xf10 + src / 8 * 4) hb (by omega)
  have hreact : R.FLT_REACT b (src / 8) = b + (0xf10 + src / 8 * 4) := Nat.add_assoc ..
  have hflt : fltReg b (b + (0xf10 + src / 8 * 4)) = false := decide_eq_false (by omega)
  rw [hreact]
  exact ⟨by rw [raiseReg, hflt, hrec]; rfl, hcnt⟩

/-- A source that sets, with room for its record: its bit is set, and its action is what it was. -/
theorem State.faultLog_spec {b src : Nat} (hb : b % 0x1000 = 0) (hsrc : src < 32) (hroom : s.staged.length < 128) :
    Logs (raiseReg b) s (s.faultLog b src) ∧ (s.faultLog b src).nibble b src = s.nibble b src ∧
      (s.faultLog b src).rget (R.FLT_REAL b) = s.rget (R.FLT_REAL b) ||| BitVec.ofNat 32 (2 ^ src) := by
  obtain ⟨hbits, hstaged, hword⟩ := s.faultBits_spec b src
  have hbits : Logs (raiseReg b) s (s.faultBits b src false) := hbits.mono fun a ha => by simp [raiseReg, ha]
  have hrecord : Logs recordReg (s.faultBits b src false) (s.faultLog b src) := by
    unfold State.faultLog
    dsimp only
    split
    · exact .refl _
    · exact (State.faultRecord_logs _ (by rwa [hstaged]) b src false).1
  have hlog : Logs (raiseReg b) s (s.faultLog b src) := hbits.trans (hrecord.mono fun a ha => by simp [raiseReg, ha])
  obtain ⟨hrec, hcnt⟩ := faultReg_apart (o := 0xf00) hb (by decide)
  obtain ⟨hreact, hreact'⟩ := raiseReg_react hb hsrc
  refine ⟨hlog, ?_, (hrecord.rget hrec hcnt).trans hword⟩
  rw [State.nibble, hlog.rget hreact hreact']
  rfl

/-- The one lost record that a source can bring about is that of the moraine's own source 1 when that source sets. -/
theorem State.faultLog_lost {b src : Nat} (hb : b % 0x1000 = 0) (hsrc : src < 32) (hroom : s.staged.length < 128)
    (h : s.faultSet 0x80000 1 false = false) (k : (s.faultLog b src).faultSet 0x80000 1 false = true) : (0x80000, 1) = (b, src) := by
  obtain ⟨hlog, -, hword⟩ := State.faultLog_spec hb hsrc hroom
  by_cases hne : b = 0x80000
  · subst hne
    have hbit : (s.faultLog 0x80000 src).faultSet 0x80000 1 false = (s.faultSet 0x80000 1 false || decide (1 = src)) :=
      (congrArg (BitVec.getLsbD · 1) hword).trans (getLsbD_or_bit _ src 1 hsrc)
    rw [h, k] at hbit
    simpa using hbit
  · obtain ⟨hrec, hcnt⟩ := faultReg_apart (b := 0x80000) (o := 0xf00) (by decide) (by decide)
    have hflt : fltReg b (0x80000 + 0xf00) = false := decide_eq_false (by omega)
    have hsame : (s.faultLog b src).faultSet 0x80000 1 false = s.faultSet 0x80000 1 false :=
      congrArg (BitVec.getLsbD · 1) (hlog.rget (a := 0x80000 + 0xf00) (by rw [raiseReg, hflt, hrec]; rfl) hcnt)
    rw [hsame, h] at k
    cases k

/-- What is new when one source sets: that source, and a record that the moraine has lost by it. -/
def State.raised (s : State) (b src : Nat) : List (Nat × Nat) :=
  [(b, src)].filter (s.faultNew false) ++
    if !s.faultSet 0x80000 1 false && (s.faultLog b src).faultSet 0x80000 1 false &&
        !([(b, src)].filter (s.faultNew false)).contains (0x80000, 1) then
      [(0x80000, 1)] else []

/-- One source: it is put on record, then what is new of it acts. -/
theorem State.faultRaise_eq (s : State) (b src : Nat) : s.faultRaise b src = (s.faultLog b src).faultActs (s.raised b src) := by
  have honce : [(b, src)].eraseDups = [(b, src)] := by simp [List.eraseDups_cons]
  unfold State.faultRaise State.faultRaises State.faultLog State.raised State.faultLog
  rw [honce]
  cases hset : s.faultSet b src false <;> simp [hset, sortBy, insertBy]

/-- With room for the record the source itself is all that is new. -/
theorem State.mem_raised {b src : Nat} (hb : b % 0x1000 = 0) (hsrc : src < 32) (hroom : s.staged.length < 128) {e : Nat × Nat}
    (he : e ∈ s.raised b src) : e = (b, src) := by
  rcases List.mem_append.1 he with he | he
  · exact List.mem_singleton.1 (List.mem_filter.1 he).1
  · split at he
    · next hc =>
      simp only [Bool.and_eq_true, Bool.not_eq_true'] at hc
      obtain ⟨⟨hbefore, hbehind⟩, -⟩ := hc
      exact (List.mem_singleton.1 he).trans (State.faultLog_lost hb hsrc hroom hbefore hbehind)
    · cases he

/-- A source that has room for its record and whose action resets nothing: its bit sets, the rest is the record and the reaction. -/
theorem State.faultRaise_spec {b src : Nat} (hb : b % 0x1000 = 0) (hsrc : src < 32) (hroom : s.staged.length < 128)
    (hact : s.nibble b src % 8 < 3) :
    Logs (raiseReg b) s (s.faultRaise b src) ∧ ((s.faultRaise b src).rget (R.FLT_REAL b)).getLsbD src = true := by
  obtain ⟨hlog, hnibble, hword⟩ := State.faultLog_spec hb hsrc hroom
  have hmild : ∀ e ∈ s.raised b src, (s.faultLog b src).actionOf e < 3 := fun e he => by
    rwa [State.mem_raised hb hsrc hroom he, State.actionOf, hnibble]
  obtain ⟨m, hm⟩ := State.faultActs_items hmild
  rw [s.faultRaise_eq b src, hm]
  refine ⟨hlog.trans ⟨rfl, fun _ _ => rfl⟩, ?_⟩
  have hbit := (congrArg (BitVec.getLsbD · src) hword).trans (getLsbD_or_bit _ src src hsrc)
  exact hbit.trans (by simp)

/-! ## Safety functions (R376) -/

/-- What a safety function that triggers shows in registers. -/
def safetyReg (a : Nat) : Bool := raiseReg 0x60000 a || a == R.SF_STATUS || a == R.SF_LAST

theorem State.safetyNote_logs (s : State) (f unit src : Nat) :
    Logs safetyReg s (s.safetyNote f unit src) ∧ (s.safetyNote f unit src).staged = s.staged ∧
      (s.safetyNote f unit src).rget R.SF_STATUS = s.rget R.SF_STATUS ||| BitVec.ofNat 32 (2 ^ (f - 1)) := by
  unfold State.safetyNote
  extract_lets s₁ s₂
  have h₂ : Logs safetyReg s s₂ := ((Logs.refl s).rset (by decide) _).rset (by decide) _
  have hword : s₂.rget R.SF_STATUS = s.rget R.SF_STATUS ||| BitVec.ofNat 32 (2 ^ (f - 1)) :=
    (State.rget_rset_other _ _ (by decide)).trans (State.rget_rset_same ..)
  have hstaged : s₂.staged = s.staged := rfl
  clear_value s₂
  have h₃ : Logs safetyReg s { s₂ with items := s₂.items ++ [Item.safety f unit src] } := h₂.trans ⟨rfl, fun _ _ => rfl⟩
  have hcounts := State.evCount_counts { s₂ with items := s₂.items ++ [Item.safety f unit src] } 83 1 none
  exact ⟨h₃.of_counts hcounts, hcounts.staged.trans hstaged, (hcounts.regs _ (by decide)).trans hword⟩

/-- A safety function triggers with a fault source that has room for its record and whose action resets nothing. -/
theorem State.safety_spec {f unit src : Nat} (hf : f - 1 < 32) (hsrc : src < 32) (hroom : s.staged.length < 128)
    (hact : s.nibble 0x60000 src % 8 < 3) :
    Logs safetyReg s (s.safety f unit src) ∧ ((s.safety f unit src).rget R.SF_STATUS).getLsbD (f - 1) = true ∧
      ((s.safety f unit src).rget (R.FLT_REAL 0x60000)).getLsbD src = true := by
  obtain ⟨hnote, hstaged, hstatus⟩ := s.safetyNote_logs f unit src
  have hreact : safetyReg (R.FLT_REACT 0x60000 (src / 8)) = false ∧ counting (R.FLT_REACT 0x60000 (src / 8)) = false := by
    refine ⟨?_, decide_eq_false (by unfold R.FLT_REACT; omega)⟩
    simp [safetyReg, raiseReg, fltReg, recordReg, R.FLT_REACT, R.MRN_SEQ, R.MRN_STATUS, R.MRN_OLDEST, R.SF_STATUS, R.SF_LAST]
    omega
  have hnibble : (s.safetyNote f unit src).nibble 0x60000 src = s.nibble 0x60000 src := by
    rw [State.nibble, hnote.rget hreact.1 hreact.2]
    rfl
  obtain ⟨hraise, hreal⟩ := State.faultRaise_spec (s := s.safetyNote f unit src) (b := 0x60000) (by decide) hsrc (by rwa [hstaged])
    (by rwa [hnibble])
  have heq : s.safety f unit src = (s.safetyNote f unit src).faultRaise 0x60000 src := by
    simp [State.safety, State.safetyTaint]
  rw [heq]
  refine ⟨hnote.trans (hraise.mono fun a ha => by simp [safetyReg, ha]), ?_, hreal⟩
  rw [hraise.rget (a := R.SF_STATUS) (by decide) (by decide), hstatus, getLsbD_or_bit _ _ _ hf]
  simp

end Sys2Proof.Machine
end

section
/-! SUPPORT. A fault of the whole system while no tile holds a step: what it makes of the steps that have just ended
(03_sequencer.md R31). -/

namespace Sys2Proof.Machine

variable {s₀ s t : State}

/-- The registers of all tiles. -/
def ofTiles (a : Nat) : Bool := decide (0x100000 ≤ a ∧ a < 0x500000)

/-- What a fault makes of steps that have just ended: contexts of tiles and their registers, and the results that wait to be reported; no tile
enters another state. -/
structure EndsLate (s t : State) : Prop where
  same : { t with regs := s.regs, tiles := s.tiles, freeCtr := s.freeCtr, steps := s.steps, merges := s.merges, items := s.items } = s
  regs : RegsSame ofTiles s t
  state : ∀ u, t.stepState u = s.stepState u

namespace EndsLate

theorem refl (s : State) : EndsLate s s := ⟨rfl, fun _ _ => rfl, fun _ => rfl⟩

theorem trans (h : EndsLate s₀ s) (k : EndsLate s t) : EndsLate s₀ t :=
  ⟨(congrArg (fun x : State => ({ x with regs := s₀.regs, tiles := s₀.tiles, freeCtr := s₀.freeCtr, steps := s₀.steps,
                                         merges := s₀.merges, items := s₀.items } : State)) k.same).trans h.same,
    h.regs.trans k.regs, fun u => (k.state u).trans (h.state u)⟩

theorem mem (h : EndsLate s t) : t.mem = s.mem := (congrArg State.mem h.same :)
theorem chans (h : EndsLate s t) : t.chans = s.chans := (congrArg State.chans h.same :)
theorem snts (h : EndsLate s t) : t.snts = s.snts := (congrArg State.snts h.same :)
theorem staged (h : EndsLate s t) : t.staged = s.staged := (congrArg State.staged h.same :)
theorem lvlClr (h : EndsLate s t) : t.lvlClr = s.lvlClr := (congrArg State.lvlClr h.same :)
theorem memSame (h : EndsLate s t) : MemSame s t := .of_mem h.mem
theorem chan (h : EndsLate s t) (ch : Nat) : t.chan ch = s.chan ch := by rw [State.chan, h.chans]; rfl
theorem snt (h : EndsLate s t) (n : Nat) : t.snt n = s.snt n := by rw [State.snt, h.snts]; rfl

/-- A register of the chip is not a tile's. -/
theorem rget (h : EndsLate s t) {a : Nat} (ha : a < 0x100000) : t.rget a = s.rget a := h.regs a (decide_eq_false (by omega))

end EndsLate

/-- The instants of a step are values that exist already or free ones. -/
theorem State.timeOr_free (s : State) (c : Bool) (i : Int) : ∃ n, (s.timeOr c i).2 = { s with freeCtr := n } := by
  unfold State.timeOr
  split
  · exact ⟨_, rfl⟩
  · exact ⟨s.freeCtr, rfl⟩

theorem State.mergeOf_free (s : State) (g : Nat) (tiles : List Nat) (gone : BitVec 256) (aborted : Bool) :
    ∃ n, (s.mergeOf g tiles gone aborted).2 = { s with freeCtr := n } := by
  unfold State.mergeOf State.stepTimes
  extract_lets _ _ _ _ _ _ _ _ began ran first last
  obtain ⟨m, hm⟩ := s.timeOr_free began.isEmpty first
  obtain ⟨n, hn⟩ := State.timeOr_free { s with freeCtr := m } ran.isEmpty last
  exact ⟨n, (congrArg (fun r : State => (r.timeOr ran.isEmpty last).2) hm).trans hn⟩

/-- Results formed again leave every register and every tile. -/
theorem State.mergeAgain_endsLate (s : State) (g : Nat) : EndsLate s (s.mergeAgain g) := by
  unfold State.mergeAgain
  split
  · exact .refl s
  · next r _ =>
    obtain ⟨n, hn⟩ := s.mergeOf_free g r.tiles r.gone r.aborted
    generalize s.mergeOf g r.tiles r.gone r.aborted = x at hn
    obtain ⟨m, r'⟩ := x
    obtain rfl : r' = { s with freeCtr := n } := hn
    exact ⟨rfl, fun _ _ => rfl, fun _ => rfl⟩

theorem State.endLate_endsLate (s : State) {u : Nat} (hu : u < 64) (st : BitVec 8) (cause : Nat) : EndsLate s (s.endLate u st cause) := by
  have hreg : ofTiles (R.SEQ_STATUS u) = true := decide_eq_true (by unfold R.SEQ_STATUS; omega)
  unfold State.endLate
  split
  · refine EndsLate.trans ?_ (State.mergeAgain_endsLate ..)
    refine ⟨rfl, .rset _ hreg _, fun v => ?_⟩
    by_cases e : v = u
    · subst e
      exact State.fget_fset_disjoint _ _ (.inl (show 2 < 8 by decide)) (show 8 ≤ 11 by decide) (Nat.zero_le 2)
    · have haddr : R.SEQ_STATUS v ≠ R.SEQ_STATUS u := by
        unfold R.SEQ_STATUS
        omega
      exact State.fget_fset_addr _ _ haddr
  · exact .refl s

/-- With no tile in a step a fault of the whole system ends none. -/
theorem State.endSteps_endsLate {s : State} (h : s.holdsStep = false) (st : BitVec 8) (cause : Nat) :
    EndsLate s (s.endSteps (List.range 64) st cause) := by
  unfold State.endSteps
  extract_lets s₁ l s₂ s₃
  have h₁ : EndsLate s s₁ := List.foldlRecOn _ _ (.refl s) fun r hr u hu => hr.trans (r.endLate_endsLate (List.mem_range.1 hu) st cause)
  have hl : l = [] := by
    simpa [l, State.holdsStep, State.tilesIn] using (State.holdsStep_congr h₁.state).trans h
  have hend : l.foldl (fun s t => s.groupCheck (s.tile t).group) s₃ = s₁ := by simp only [s₃, s₂, hl, List.foldl_nil]
  rw [hend]
  exact h₁

end Sys2Proof.Machine
end

section
/-! SUPPORT. Level codes, their holds and settling, and the clearing of all levels (06_pin_electronics.md R142, R143, R145). -/

namespace Sys2Proof.Machine

variable {s t : State}

/-- Behind the hold of level `k` its output stands at its code, every other level's is unchanged. -/
theorem output_doDeglitchHoldEnd (ch : Fin 1024) (k : Fin 11) (s : State) (j : Nat) :
    ((doDeglitchHoldEnd ch k s).chan ch).output j =
      if j = k then Store.get (fun _ => 0) (s.chan ch).applied k else (s.chan ch).output j := by
  rw [doDeglitchHoldEnd, State.chan_modChan, if_pos rfl]
  exact (s.chan ch).output_release k j

/-- LEVEL_SETTLED ends the settling of level `k` and shows whether another level of the channel still settles. -/
theorem doLevelSettled_spec (ch : Fin 1024) (k : Fin 11) (s : State) :
    ((doLevelSettled ch k s).chan ch).settling = (s.chan ch).settling.filter (· != k.val) ∧
      (doLevelSettled ch k s).flag (R.CH_STATUS_LVL_BUSY ch) = !((s.chan ch).settling.filter (· != k.val)).isEmpty ∧
      (doLevelSettled ch k s).mem = s.mem := by
  unfold doLevelSettled
  extract_lets s₁
  have hset : (s₁.chan ch).settling = (s.chan ch).settling.filter (· != k.val) := by simp [s₁]
  have hmem : s₁.mem = s.mem := rfl
  clear_value s₁
  obtain ⟨hkeep, hbusy, hmem'⟩ :=
    (s₁.setFlag (R.CH_STATUS_LVL_BUSY ch) (!(s₁.chan ch).settling.isEmpty)).armForce_settling ch
  refine ⟨hkeep.trans hset, hbusy.trans ?_, hmem'.trans hmem⟩
  exact (State.flag_setFlag_same _ _ (Nat.le_refl 11) (show 11 < 32 by decide)).trans (by rw [hset])

/-- With no STEP_ARM that settles, the end of a level's settling shows in its channel's registers only. -/
theorem doLevelSettled_regs {ch : Fin 1024} {k : Fin 11} (h : ∀ x ∈ s.splits, x.opcode = 0x30 → x.stage ≠ 1) :
    RegsSame (inChan ch) s (doLevelSettled ch k s) := by
  unfold doLevelSettled
  extract_lets s₁
  have h₁ : PinOnly (inChan ch) ch s (s₁.setFlag (R.CH_STATUS_LVL_BUSY ch) (!(s₁.chan ch).settling.isEmpty)) :=
    ((PinOnly.refl s).modChan _).setFlag (inChan_of_pinReg (pinReg_status ch)) _
  have hsplits : (s₁.setFlag (R.CH_STATUS_LVL_BUSY ch) (!(s₁.chan ch).settling.isEmpty)).splits = s.splits :=
    (congrArg State.splits h₁.same :)
  intro a ha
  exact (State.rget_congr (State.armForce_regs (by rwa [hsplits])) a).trans (h₁.regs a ha)

/-! ## All converters together (R145) -/

theorem mem_poweredChans {ch : Nat} (hch : ch < 1024) (h : s.power (ch / 16) ≠ 3) : ch ∈ s.poweredChans :=
  List.mem_filter.2 ⟨List.mem_range.2 hch, bne_iff_ne.2 h⟩

theorem TILE_PWR_ne (u : Nat) : R.TILE_PWR u ≠ R.LVL_CLR_STATUS := by
  unfold R.TILE_PWR R.LVL_CLR_STATUS
  omega

/-- Whether the chip holds a step is read in the states of its 64 tiles. -/
theorem State.holdsStep_congr_tiles (h : ∀ u, u < 64 → t.stepState u = s.stepState u) : t.holdsStep = s.holdsStep := by
  unfold State.holdsStep State.tilesIn
  rw [List.filter_congr fun u hu => by rw [h u (List.mem_range.1 hu)]]

/-- An operation on pins changes no tile's state of the step. -/
theorem PinsOnly.stepState {p : Nat → Bool} (h : PinsOnly p s t) (hp : ∀ a, p a = true → chanReg a = true) {u : Nat} (hu : u < 64) :
    t.stepState u = s.stepState u :=
  State.fget_congr ((h.mono hp).regs (R.SEQ_STATUS u) (decide_eq_false (by unfold R.SEQ_STATUS; omega)))

/-- LVL_CLR_ASSERT with no tile in a step: every converter of a powered channel stands at its safe code. -/
theorem doLvlClrAssert_spec (hclr : s.lvlClr = false) (hstep : s.holdsStep = false) :
    let t := doLvlClrAssert s
    t.lvlClr = true ∧ t.flag R.LVL_CLR_STATUS_ACTIVE = true ∧ t.flag R.LVL_CLR_STATUS_SEEN = true ∧ t.mem = s.mem ∧
      ∀ ch k, ch < 1024 → k < 11 → s.power (ch / 16) ≠ 3 →
        Store.get (fun _ => 0) (t.chan ch).applied k = (s.rget (R.LVL_SAFE ch k)).setWidth 16 := by
  unfold doLvlClrAssert
  rw [if_neg (by simp [hclr])]
  extract_lets s₁ s₂
  have hlvl : s₁.lvlClr = true := rfl
  have hmem : s₁.mem = s.mem := rfl
  have hreg {a : Nat} (ha : a ≠ R.LVL_CLR_STATUS) : s₁.rget a = s.rget a :=
    (State.rget_fset_other _ _ ha).trans (State.rget_fset_other _ _ ha)
  have hactive : s₁.flag R.LVL_CLR_STATUS_ACTIVE = true :=
    (State.flag_setFlag_disjoint _ _ (by decide) (by decide) (by decide)).trans (State.flag_setFlag_same _ _ (by decide) (by decide))
  have hseen : s₁.flag R.LVL_CLR_STATUS_SEEN = true := State.flag_setFlag_same _ _ (by decide) (by decide)
  clear_value s₁
  obtain ⟨honly, happly⟩ : PinsOnly chanReg s₁ s₂ ∧ _ :=
    foldl_foldl_drives (A := R.LVL_SAFE) (f := State.applySafe) (fun _ _ _ hk => pinReg_LVL_SAFE hk) State.applySafe_drives s₁.poweredChans s₁
  have hhold : s₂.holdsStep = false :=
    (State.holdsStep_congr_tiles fun u hu => (honly.stepState (fun _ h => h) hu).trans
      (State.fget_congr (hreg (chipReg_ne_status (by decide)).symm))).trans hstep
  have hend := State.endSteps_endsLate hhold St.hwFault 10
  have hstatus : (s₂.endSteps (List.range 64) St.hwFault 10).rget R.LVL_CLR_STATUS = s₁.rget R.LVL_CLR_STATUS :=
    (hend.rget (by decide)).trans (honly.regs _ (by decide))
  refine ⟨(hend.lvlClr.trans honly.lvlClr).trans hlvl, (State.flag_congr hstatus).trans hactive, (State.flag_congr hstatus).trans hseen,
    (hend.mem.trans honly.mem).trans hmem, fun ch k hch hk hpower => ?_⟩
  have hpower' : s₁.power (ch / 16) ≠ 3 := by rwa [State.power, State.fget_congr (hreg (TILE_PWR_ne _))]
  rw [hend.chan, happly ch (mem_poweredChans hch hpower') k hk, hreg (by unfold R.LVL_SAFE R.LVL_CLR_STATUS; omega)]

/-- LVL_CLR_DEASSERT: every converter of a powered channel stands at its code again. -/
theorem doLvlClrDeassert_spec (hclr : s.lvlClr = true) :
    let t := doLvlClrDeassert s
    t.lvlClr = false ∧ t.flag R.LVL_CLR_STATUS_ACTIVE = false ∧ t.mem = s.mem ∧
      ∀ ch k, ch < 1024 → k < 11 → s.power (ch / 16) ≠ 3 →
        Store.get (fun _ => 0) (t.chan ch).applied k = (s.rget (R.LVL ch k)).setWidth 16 := by
  unfold doLvlClrDeassert
  rw [if_neg (by simp [hclr])]
  extract_lets s₁
  have hlvl : s₁.lvlClr = false := rfl
  have hmem : s₁.mem = s.mem := rfl
  have hreg {a : Nat} (ha : a ≠ R.LVL_CLR_STATUS) : s₁.rget a = s.rget a := State.rget_fset_other _ _ ha
  have hactive : s₁.flag R.LVL_CLR_STATUS_ACTIVE = false := State.flag_setFlag_same _ _ (by decide) (by decide)
  clear_value s₁
  obtain ⟨honly, happly⟩ := foldl_foldl_drives (A := R.LVL)
    (f := fun s ch k => s.applyLevel ch k ((s.rget (R.LVL ch k)).setWidth 16)) (fun _ _ _ hk => pinReg_LVL hk)
    State.applyLevel_drives s₁.poweredChans s₁
  refine ⟨honly.lvlClr.trans hlvl, (State.flag_congr (honly.regs _ (by decide))).trans hactive, honly.mem.trans hmem,
    fun ch k hch hk hpower => ?_⟩
  have hpower' : s₁.power (ch / 16) ≠ 3 := by rwa [State.power, State.fget_congr (hreg (TILE_PWR_ne _))]
  rw [happly ch (mem_poweredChans hch hpower') k hk, hreg (by unfold R.LVL R.LVL_CLR_STATUS; omega)]

/-! ## The statement -/

/-- Settles O34: one application of a code is traced through its context, and both foldings over all converters are many of them. -/
theorem levels : Obligations.Levels := by
  unfold Obligations.Levels
  refine ⟨?_, ?_, ?_, ?_, ?_⟩
  · intro ch k code s hrule
    have hexec : exec (.lvlWrite ch k code) s = .next ((s.levelCode ch k code).answered St.ok) :=
      congrArg Host.Outcome.next (s.writeRow_done hrule _)
    have honly := s.levelCode_pinOnly ch k.isLt code
    refine ⟨_, hexec, rfl, s.levelCode_stores ch k.isLt code, fun hclr => ?_, fun hclr hjump => ?_, fun hclr => ?_, honly.regs, honly.memSame⟩
    · rw [State.levelCode_applies hclr]
      exact ⟨(State.applied_applyLevel _ _ _ _ _).trans (if_pos rfl), State.busy_applyLevel ..⟩
    · rw [State.levelCode_applies hclr]
      exact State.output_applyLevel hjump
    · rw [State.levelCode_held hclr]
      rfl
  · intro ch k s
    exact ⟨_, rfl, (output_doDeglitchHoldEnd ch k s k).trans (if_pos rfl), fun j hj => (output_doDeglitchHoldEnd ch k s j).trans (if_neg hj),
      fun _ _ => rfl, .of_mem rfl⟩
  · intro ch k s
    obtain ⟨hset, hbusy, hmem⟩ := doLevelSettled_spec ch k s
    refine ⟨_, rfl, by simp [hset], ?_, doLevelSettled_regs, .of_mem hmem⟩
    rw [hbusy]
    simp [List.filter_eq_nil_iff]
  · intro s hclr hstep
    obtain ⟨hlvl, hactive, hseen, hmem, happly⟩ := doLvlClrAssert_spec hclr hstep
    exact ⟨_, rfl, hlvl, hactive, hseen, .of_mem hmem, happly⟩
  · intro s hclr
    obtain ⟨hlvl, hactive, hmem, happly⟩ := doLvlClrDeassert_spec hclr
    exact ⟨_, rfl, hlvl, hactive, .of_mem hmem, happly⟩

end Sys2Proof.Machine
end

section
/-! SUPPORT. Comparators become KNOWN, and their checks and overstress react (06_pin_electronics.md R152, R155; 15_safety_faults.md R363,
R366). -/

namespace Sys2Proof.Machine

variable {s t : State}

/-! ## Safety functions of a channel -/

/-- What a safety function shows lies below the registers of tiles and channels. -/
theorem safetyReg_ge {a : Nat} (h : 0x100000 ≤ a) : safetyReg a = false := by
  simp [safetyReg, raiseReg, fltReg, recordReg, R.MRN_SEQ, R.MRN_STATUS, R.MRN_OLDEST, R.SF_STATUS, R.SF_LAST]
  omega

theorem Logs.rget_ge (h : Logs safetyReg s t) {a : Nat} (ha : 0x100000 ≤ a) : t.rget a = s.rget a := h.rget (safetyReg_ge ha) (counting_of_ge ha)

theorem Logs.stepState (h : Logs safetyReg s t) (u : Nat) : t.stepState u = s.stepState u :=
  State.fget_congr (h.rget_ge (a := R.SEQ_STATUS u) (by unfold R.SEQ_STATUS; omega))

/-- The room of the moraine and the action of a source are the same where these are. -/
theorem Mild.congr {b src : Nat} (h : Mild s b src) (hstaged : t.staged = s.staged)
    (hreact : t.rget (R.FLT_REACT b (src / 8)) = s.rget (R.FLT_REACT b (src / 8))) : Mild t b src := by
  obtain ⟨hroom, hact⟩ := h
  exact ⟨by rwa [hstaged], by rwa [State.nibble, hreact]⟩

/-- A safety function triggers behind an operation on a channel. -/
theorem State.safety_channel {f ch src : Nat} (hmild : Mild s 0x60000 src) (hf : f - 1 < 32) (hsrc : src < 32)
    (hstaged : t.staged = s.staged) (hregs : RegsSame (inChan ch) s t) :
    Logs safetyReg t (t.safety f ch src) ∧ ((t.safety f ch src).rget R.SF_STATUS).getLsbD (f - 1) = true ∧
      ((t.safety f ch src).rget (R.FLT_REAL 0x60000)).getLsbD src = true := by
  obtain ⟨hroom, hact⟩ := hmild.congr hstaged (hregs _ (decide_eq_false (by unfold R.FLT_REACT; omega)))
  exact State.safety_spec hf hsrc (by omega) hact

/-- A channel's registers hold no tile's state. -/
theorem RegsSame.stepState {ch u : Nat} (h : RegsSame (inChan ch) s t) (hu : u < 64) : t.stepState u = s.stepState u :=
  State.fget_congr (h (R.SEQ_STATUS u) (decide_eq_false (by unfold R.SEQ_STATUS; omega)))

/-- A tile that holds a step is at no step boundary (R29). -/
theorem State.boundary_of_inStep {u : Nat} (h : inStep (s.stepState u) = true) : s.boundary u = s := by
  have hst : s.stepState u = stArmed ∨ s.stepState u = stPending ∨ s.stepState u = stRunning := by
    simpa [inStep, or_assoc] using h
  have hended : s.stepState u ≠ stEnded := by rcases hst with e | e | e <;> rw [e] <;> decide
  have hidle : s.idle u = false := by unfold State.idle; rcases hst with e | e | e <;> rw [e] <;> decide
  unfold State.boundary
  rw [if_neg hended, if_neg (by simp [hidle])]

/-! ## Checks of comparators (R155, R366) -/

/-- A check that began at an instant has completed. -/
def ChanCtx.checked (c : ChanCtx) (i : Int) : ChanCtx := { c with due := i + slotTime + dueTime, checkedAt := i + slotTime, ran := 0 }

theorem TilesOnly.refl (s : State) : TilesOnly s s := ⟨rfl⟩

theorem TilesOnly.indChan {s₀ : State} (h : TilesOnly s₀ s) (ch : Nat) : TilesOnly s₀ (s.indChan ch) := ⟨h.same⟩

theorem TilesOnly.suspectFlag {s₀ : State} (h : TilesOnly s₀ s) (u n : Nat) : TilesOnly s₀ (s.suspectFlag u n) := ⟨h.same⟩

/-- What SF4 makes of the step that the tile holds (R366). -/
theorem State.indicates (s : State) (ch : Nat) :
    TilesOnly s (if inStep (s.stepState (ch / 16)) then (s.indChan ch).suspectFlag (ch / 16) Sf.chkFail else s) := by
  split
  · exact ((TilesOnly.refl s).indChan ch).suspectFlag _ _
  · exact .refl s

/-- A check that fails: the fault bit, every compare UNKNOWN, and SF4. -/
theorem State.checkBad_spec {ch n : Nat} (hch : ch < 1024) (hn : n < 32) (retest : Bool) (hmild : Mild s 0x60000 5) :
    let t := s.checkBad ⟨R.CH_FAULT ch, n, n⟩ ch retest
    t.flag ⟨R.CH_FAULT ch, n, n⟩ = true ∧ (t.chan ch).chkBad = true ∧ (t.rget R.SF_STATUS).getLsbD 3 = true ∧
      (t.rget (R.FLT_REAL 0x60000)).getLsbD 5 = true ∧ t.mem = s.mem ∧
      (inStep (s.stepState (ch / 16)) = true → t.boundary (ch / 16) = t) := by
  unfold State.checkBad
  extract_lets s₁ s₂ s₃
  have h₂ : PinOnly (inChan ch) ch s s₂ := ((PinOnly.refl s).setFlag (inChan_offset (show 0x48 < 0x400 by decide)) _).modChan _
  have hflag : s₂.flag ⟨R.CH_FAULT ch, n, n⟩ = true := (State.flag_modChan ..).trans (State.flag_setFlag_same _ _ (Nat.le_refl n) hn)
  have hbad : (s₂.chan ch).chkBad = true := by rw [State.chan_modChan, if_pos rfl]
  have h₃ : TilesOnly s₂ s₃ := s₂.indicates ch
  clear_value s₂ s₃
  have hchans : s₃.chans = s₂.chans := (congrArg State.chans h₃.same :)
  have hstaged : s₃.staged = s₂.staged := (congrArg State.staged h₃.same :)
  have hregs : RegsSame (inChan ch) s s₃ := fun a ha => (State.rget_congr h₃.regs a).trans (h₂.regs a ha)
  obtain ⟨hlogs, hsf, hreal⟩ := State.safety_channel (f := 4) hmild (by decide) (by decide) (hstaged.trans h₂.staged) hregs
  refine ⟨(State.flag_congr ((hlogs.rget_ge (a := R.CH_FAULT ch) ?_).trans (State.rget_congr h₃.regs _))).trans hflag, ?_, hsf, hreal,
    hlogs.mem.trans (h₃.mem.trans h₂.mem), fun h => State.boundary_of_inStep ?_⟩
  · unfold R.CH_FAULT
    omega
  · rw [hlogs.chan, State.chan, hchans]
    exact hbad
  · rwa [hlogs.stepState, hregs.stepState (by omega)]

/-! ## Overstress (R363) -/

/-- The pin safe state by a safety reaction. -/
theorem State.chan_chSafe (s : State) (ch : Nat) : ((s.chSafe ch).chan ch).safe = true ∧ ((s.chSafe ch).chan ch).enable = .offLoadOff := by
  unfold State.chSafe
  rw [State.chan_openGate]
  exact ⟨by simp, rfl⟩

/-- Overstress: the fault bit, the pin safe state, a retest, and SF1. -/
theorem State.pinReaction_spec {ch n src : Nat} (hch : ch < 1024) (hn : n < 32) (hsrc : src < 32) (hmild : Mild s 0x60000 src) :
    let t := s.pinReaction ⟨R.CH_FAULT ch, n, n⟩ 1 src ch
    t.flag ⟨R.CH_FAULT ch, n, n⟩ = true ∧ (t.chan ch).safe = true ∧ (t.chan ch).enable = .offLoadOff ∧ 1 ≤ (t.chan ch).retest ∧
      (t.rget R.SF_STATUS).getLsbD 0 = true ∧ t.mem = s.mem ∧
      (inStep (s.stepState (ch / 16)) = true → t.boundary (ch / 16) = t) := by
  unfold State.pinReaction
  extract_lets s₁
  have hsafe : PinOnly (pinReg ch) ch (s.setFlag ⟨R.CH_FAULT ch, n, n⟩ true) s₁ := (PinOnly.refl _).chSafe
  have h₁ : PinOnly (inChan ch) ch s s₁ :=
    ((PinOnly.refl s).setFlag (f := ⟨R.CH_FAULT ch, n, n⟩) (inChan_offset (show 0x48 < 0x400 by decide)) _).trans hsafe.inChan
  have hflag : s₁.flag ⟨R.CH_FAULT ch, n, n⟩ = true :=
    (State.flag_congr (hsafe.regs _ (pinReg_other (o := 0x48) (by decide)))).trans (State.flag_setFlag_same _ _ (Nat.le_refl n) hn)
  obtain ⟨hin, hoff⟩ : (s₁.chan ch).safe = true ∧ (s₁.chan ch).enable = .offLoadOff := State.chan_chSafe ..
  clear_value s₁
  have h₂ := h₁.modChan fun c => { c with retest := max c.retest 1, inj := false }
  obtain ⟨hlogs, hsf, -⟩ := State.safety_channel (f := 1) hmild (by decide) hsrc h₂.staged h₂.regs
  refine ⟨(State.flag_congr (hlogs.rget_ge (a := R.CH_FAULT ch) ?_)).trans hflag, ?_, ?_, ?_, hsf, hlogs.mem.trans h₂.mem,
    fun h => State.boundary_of_inStep ?_⟩
  · unfold R.CH_FAULT
    omega
  · rw [hlogs.chan, State.chan_modChan, if_pos rfl]
    exact hin
  · rw [hlogs.chan, State.chan_modChan, if_pos rfl]
    exact hoff
  · rw [hlogs.chan, State.chan_modChan, if_pos rfl]
    exact Nat.le_max_right ..
  · rwa [hlogs.stepState, h₂.regs.stepState (by omega)]

/-! ## COMPARATOR_KNOWN (R152) -/

/-- A comparator of a channel stands on a side of its threshold. -/
def ChanCtx.stands (c : ChanCtx) (low above : Bool) : ChanCtx := if low then { c with loBelow := !above } else { c with hiAbove := above }

/-- A comparator of a channel whose input lies outside its band becomes KNOWN on that side; the other one stays as it is. -/
theorem doComparatorKnown_chan {ch : Fin 1024} {low above : Bool} {volt : Int} (hon : s.cmpOn ch = true) (hforcing : (s.chan ch).forcing = false)
    (hband : outsideBand (s.threshold ch (if low then 4 else 3)) (s.fget (R.CH_MODE_HYST ch)) volt = some above) :
    doComparatorKnown (.chan ch) low volt s =
      (s.modChan ch fun c => c.stands low above).setKnown ch
        (s.flag (R.CH_STATUS_KNOWN_HI ch) || !low) (s.flag (R.CH_STATUS_KNOWN_LO ch) || low) := by
  unfold doComparatorKnown
  dsimp only
  rw [hband]
  dsimp only
  rw [if_neg (by simp [hon, hforcing])]
  simp only [R.CH_STATUS_KNOWN_HI, R.CH_STATUS_KNOWN_LO, State.flag_modChan]
  rfl

theorem doComparatorKnown_snt {n : Fin 64} {low above : Bool} {volt : Int} (hon : s.flag (R.SNT_CFG_EN n) = true)
    (hforcing : (s.snt n).forcing = false)
    (hband : outsideBand (if low then (s.sntCodes n).2 else (s.sntCodes n).1) (s.fget (R.SNT_CFG_HYST n)) volt = some above) :
    doComparatorKnown (.snt n) low volt s = (s.modSnt n fun c =>
      (if low then { c with loBelow := !above, knownLo := true } else { c with hiAbove := above, knownHi := true } : SntCtx).follow).sntSync n := by
  unfold doComparatorKnown
  dsimp only
  rw [hband]
  exact if_neg (by simp [hon, hforcing])

/-! ## The statement -/

/-- Settles O33: a check that passes touches its own times only, and every failing row ends in one safety function of the channel. -/
theorem comparators : Obligations.Comparators := by
  unfold Obligations.Comparators
  refine ⟨?_, ?_, ?_, ?_, ?_, ?_, ?_, ?_⟩
  · intro ch low above volt s hon hforcing hband
    have honly := (((PinOnly.refl s).modChan (ch := ch) fun c => c.stands low above).setKnown
      (s.flag (R.CH_STATUS_KNOWN_HI ch) || !low) (s.flag (R.CH_STATUS_KNOWN_LO ch) || low)).inChan
    refine ⟨_, congrArg Host.Outcome.next (doComparatorKnown_chan hon hforcing hband), fun hlow => ?_, fun hlow => ?_, honly.regs, honly.memSame⟩
    · subst hlow
      simp [R.CH_STATUS_KNOWN_HI, R.CH_STATUS_KNOWN_LO, ChanCtx.stands]
    · subst hlow
      simp [R.CH_STATUS_KNOWN_HI, R.CH_STATUS_KNOWN_LO, ChanCtx.stands]
  · intro ch low volt s hband
    refine congrArg Host.Outcome.next ?_
    unfold doComparatorKnown
    dsimp only
    rw [hband]
  · intro n low above volt s hon hforcing hband
    refine ⟨_, congrArg Host.Outcome.next (doComparatorKnown_snt hon hforcing hband), fun hlow => ?_, fun hlow => ?_, .of_mem rfl⟩
    · subst hlow
      simp [State.snt_sntSync, State.snt_modSnt, SntCtx.follow]
    · subst hlow
      simp [State.snt_sntSync, State.snt_modSnt, SntCtx.follow]
  · intro ch ok start s hslot
    exact congrArg Host.Outcome.next (if_pos (by simp [hslot]))
  · intro ch start s hslot hheld
    have hexec : doCmpSelfCheck ch true start s =
        s.modChan ch (·.checked (start * unitFs)) := by
      unfold doCmpSelfCheck
      dsimp only
      rw [if_neg (by simp [hslot])]
      exact if_pos (by simpa using hheld)
    refine ⟨_, congrArg Host.Outcome.next hexec, ?_, ?_, ?_, fun _ _ => rfl, .of_mem rfl⟩ <;> rw [State.chan_modChan, if_pos rfl] <;> rfl
  · intro ch start s hslot hmild hstep
    have hexec : doCmpSelfCheck ch false start s =
        ((s.modChan ch (·.checked (start * unitFs))).checkBad
          (R.CH_FAULT_CHK_FAIL ch) ch true).boundary (ch / 16) := if_neg (by simp [hslot])
    obtain ⟨hflag, hbad, hsf, hreal, hmem, hself⟩ := State.checkBad_spec (n := 2) ch.isLt (by decide) true
      (s := s.modChan ch (·.checked (start * unitFs))) hmild
    exact ⟨_, congrArg Host.Outcome.next (hexec.trans (hself hstep)), hflag, hbad, hsf, hreal, .of_mem hmem⟩
  · intro ch i s hon hmild hrun hlate
    have hexec : doChkLate ch i s = s.checkBad (R.CH_FAULT_CHK_LATE ch) ch false := if_pos (by simp [hon, hrun, hlate])
    obtain ⟨hflag, -, hsf, hreal, hmem, -⟩ := State.checkBad_spec (n := 3) ch.isLt (by decide) false hmild
    exact ⟨_, congrArg Host.Outcome.next hexec, hflag, hsf, hreal, .of_mem hmem⟩
  · intro ch v s hmode hmild hstep
    cases v
    case true =>
      obtain ⟨hflag, hsafe, hoff, hretest, hsf, hmem, hself⟩ := State.pinReaction_spec (n := 1) ch.isLt (by decide) (by decide) hmild
      have hexec : doPinOverstress ch true s = s.pinReaction (R.CH_FAULT_OVER_V ch) 1 1 ch :=
        (if_neg hmode).trans (hself hstep)
      exact ⟨_, congrArg Host.Outcome.next hexec, hflag, hsafe, hoff, hretest, hsf, .of_mem hmem⟩
    case false =>
      obtain ⟨hflag, hsafe, hoff, hretest, hsf, hmem, hself⟩ := State.pinReaction_spec (n := 0) ch.isLt (by decide) (by decide) hmild
      have hexec : doPinOverstress ch false s = s.pinReaction (R.CH_FAULT_OVER_I ch) 1 0 ch :=
        (if_neg hmode).trans (hself hstep)
      exact ⟨_, congrArg Host.Outcome.next hexec, hflag, hsafe, hoff, hretest, hsf, .of_mem hmem⟩

end Sys2Proof.Machine
end

section
/-! SUPPORT. PMU_CFG and the sentinels (06_pin_electronics.md R157, R159, R162, R163; 15_safety_faults.md R367). -/

namespace Sys2Proof.Machine

variable {s₀ s t : State}

/-! ## PMU_CFG (R157, R159) -/

/-- What a write to PMU_CFG changes behind the store: what the channel's pin shows, and the code of the force level. -/
def forceReg (ch a : Nat) : Bool := pinReg ch a || a == R.LVL ch 10

theorem forceReg_other {ch o : Nat} (h : o < 0x80 ∧ o ≠ 0x44 ∧ o ≠ 0x5c) : forceReg ch (0x500000 + ch * 0x400 + o) = false := by
  rw [forceReg, pinReg_other (by omega)]
  simp [R.LVL]
  omega

theorem forceReg_of_pinReg {ch a : Nat} (h : pinReg ch a = true) : forceReg ch a = true := by simp [forceReg, h]

theorem inChan_of_forceReg {ch a : Nat} (h : forceReg ch a = true) : inChan ch a = true := by
  rcases Bool.or_eq_true_iff.1 h with e | e
  · exact inChan_of_pinReg e
  · exact (beq_iff_eq.1 e) ▸ LVL_inChan (by decide)

theorem PinOnly.levelCode {ch : Nat} (h : PinOnly (forceReg ch) ch s₀ s) (code : BitVec 16) :
    PinOnly (forceReg ch) ch s₀ (s.levelCode ch 10 code) :=
  (h.fset (f := R.LVL_CODE ch 10) (by simp [forceReg, R.LVL_CODE]) _).trans ((s.levelCode_behind ch 10 code).mono fun _ => forceReg_of_pinReg)

/-- An application of a code changes no status bit but KNOWN, CSTATE and LVL_BUSY. -/
theorem State.flag_applyLevel (s : State) (ch k : Nat) (code : BitVec 16) {n : Nat} (hn : 5 < n) (hbusy : n ≠ 11) :
    (s.applyLevel ch k code).flag ⟨R.CH_STATUS ch, n, n⟩ = s.flag ⟨R.CH_STATUS ch, n, n⟩ := by
  have hr : ((s.setChan ch ((s.chan ch).take k code)).setFlag (R.CH_STATUS_LVL_BUSY ch) true).flag ⟨R.CH_STATUS ch, n, n⟩ =
      s.flag ⟨R.CH_STATUS ch, n, n⟩ := by
    simp [R.CH_STATUS_LVL_BUSY, hbusy]
  obtain e | ⟨hi, lo, e⟩ := s.applyLevel_cases ch k code
  · rw [e]
    exact hr
  · rw [e]
    exact (State.flag_clearKnown _ ch hi lo hn).trans hr

/-- A new force level leaves the averaged conversions and RANGING. -/
theorem State.levelCode_ranging (s : State) (ch : Nat) (code : BitVec 16) :
    ((s.levelCode ch 10 code).chan ch).pmuN = (s.chan ch).pmuN ∧
      (s.levelCode ch 10 code).flag (R.CH_STATUS_RANGING ch) = s.flag (R.CH_STATUS_RANGING ch) := by
  have hstore : (s.fset (R.LVL_CODE ch 10) code.toNat).flag (R.CH_STATUS_RANGING ch) = s.flag (R.CH_STATUS_RANGING ch) :=
    State.flag_congr (State.rget_fset_other _ _ (show R.CH_STATUS ch ≠ R.LVL ch 10 by unfold R.CH_STATUS R.LVL; omega))
  unfold State.levelCode
  dsimp only
  split
  · exact ⟨rfl, hstore⟩
  · obtain ⟨b, hb⟩ := (s.fset (R.LVL_CODE ch 10) code.toNat).chan_applyLevel ch 10 code
    exact ⟨by rw [hb]; rfl, (State.flag_applyLevel _ ch 10 code (show 5 < 9 by decide) (by decide)).trans hstore⟩

/-- Behind the store a write to PMU_CFG discards the averaged conversions, and in PMU mode a change of range or force sets RANGING. -/
theorem State.pmuCfg_behind (s : State) (ch : Nat) (v : Word) (m : BitVec 16) :
    PinOnly (forceReg ch) ch (s.rset (R.PMU_CFG ch) (v &&& 0x1FF7)) (s.pmuCfg ch v m) ∧ ((s.pmuCfg ch v m).chan ch).pmuN = 0 ∧
      (s.mode ch = 2 → ¬(s.fget (R.PMU_CFG_RANGE ch) = field v 2 0 ∧ s.fget (R.PMU_CFG_FORCE ch) = field v 5 4) →
        (s.pmuCfg ch v m).flag (R.CH_STATUS_RANGING ch) = true) := by
  have hstatus : forceReg ch (R.CH_STATUS ch) = true := forceReg_of_pinReg (pinReg_status ch)
  unfold State.pmuCfg
  extract_lets r f r' f' s₁ s₂ s₃ s₄
  change PinOnly (forceReg ch) ch s₁ _ ∧ _ ∧ _
  have h₂ : PinOnly (forceReg ch) ch s₁ s₂ := (PinOnly.refl s₁).modChan _
  have h₃ : PinOnly (forceReg ch) ch s₁ s₃ := .ite (h₂.setFlag (f := R.CH_STATUS_CLAMP ch) hstatus _) h₂
  obtain ⟨hn₂, hsafe₂⟩ : (s₂.chan ch).pmuN = 0 ∧ (s₂.chan ch).safe = (s.chan ch).safe := by
    rw [State.chan_modChan, if_pos rfl]
    exact ⟨rfl, rfl⟩
  have hchan : s₃.chan ch = s₂.chan ch := by
    unfold s₃
    split
    · exact State.chan_setFlag ..
    · rfl
  have hmode : s₃.mode ch = s.mode ch := by
    have hreg : s₃.rget (R.CH_MODE ch) = s.rget (R.CH_MODE ch) :=
      (h₃.regs _ (forceReg_other (o := 0x40) (by decide))).trans
        (State.rget_rset_other _ _ (show R.CH_MODE ch ≠ R.PMU_CFG ch by unfold R.CH_MODE R.PMU_CFG; omega))
    rw [State.mode, State.mode, hchan, hsafe₂, State.fget_congr hreg]
  have h₄ : PinOnly (forceReg ch) ch s₁ s₄ := (h₃.modChan _).setFlag (f := R.CH_STATUS_RANGING ch) hstatus _
  have hn₄ : (s₄.chan ch).pmuN = 0 := by
    rw [State.chan_setFlag, State.chan_modChan, if_pos rfl, hchan]
    exact hn₂
  have hranging : s₄.flag (R.CH_STATUS_RANGING ch) = true := State.flag_setFlag_same _ _ (Nat.le_refl 9) (show 9 < 32 by decide)
  clear_value s₁ s₄
  have hlevel (code : BitVec 16) : PinOnly (forceReg ch) ch s₁ (s₄.levelCode ch 10 code) ∧ ((s₄.levelCode ch 10 code).chan ch).pmuN = 0 ∧
      (s₄.levelCode ch 10 code).flag (R.CH_STATUS_RANGING ch) = true := by
    obtain ⟨hn, hflag⟩ := s₄.levelCode_ranging ch code
    exact ⟨h₄.levelCode code, hn.trans hn₄, hflag.trans hranging⟩
  split
  · next hsame =>
    refine ⟨h₃, by rw [hchan, hn₂], fun hpmu hne => ?_⟩
    rw [hmode, hpmu] at hsame
    exact absurd (by simpa using hsame) hne
  split
  · obtain ⟨honly, hn, hflag⟩ := hlevel (rescale (s₄.fget (R.LVL_CODE ch 10)) r r')
    exact ⟨honly, hn, fun _ _ => hflag⟩
  split
  · obtain ⟨honly, hn, hflag⟩ := hlevel m
    exact ⟨honly, hn, fun _ _ => hflag⟩
  · exact ⟨h₄, hn₄, fun _ _ => hranging⟩

/-! ## Sentinels and the outputs they map (R162 to R164) -/

/-- The registers of the sentinels and of the outputs. -/
def sntReg (a : Nat) : Bool := decide (0x61000 ≤ a ∧ a < 0x61800)

/-- An operation on sentinels. -/
structure SntOnly (s t : State) : Prop where
  same : { t with regs := s.regs, snts := s.snts, held := s.held } = s
  regs : RegsSame sntReg s t

namespace SntOnly

theorem refl (s : State) : SntOnly s s := ⟨rfl, fun _ _ => rfl⟩

theorem trans (h : SntOnly s₀ s) (k : SntOnly s t) : SntOnly s₀ t :=
  ⟨(congrArg (fun x : State => ({ x with regs := s₀.regs, snts := s₀.snts, held := s₀.held } : State)) k.same).trans h.same,
    h.regs.trans k.regs⟩

theorem mem (h : SntOnly s t) : t.mem = s.mem := (congrArg State.mem h.same :)
theorem staged (h : SntOnly s t) : t.staged = s.staged := (congrArg State.staged h.same :)
theorem fenceReq (h : SntOnly s t) : t.fenceReq = s.fenceReq := (congrArg State.fenceReq h.same :)

theorem rset (h : SntOnly s₀ s) {a : Nat} (ha : sntReg a = true) (v : Word) : SntOnly s₀ (s.rset a v) := h.trans ⟨rfl, .rset s ha v⟩

theorem setFlag (h : SntOnly s₀ s) {f : Fld} (hf : sntReg f.addr = true) (b : Bool) : SntOnly s₀ (s.setFlag f b) := h.rset hf _

theorem setPair (h : SntOnly s₀ s) {lo hi : Nat} (hl : sntReg lo = true) (hh : sntReg hi = true) (v : Nat) : SntOnly s₀ (s.setPair lo hi v) :=
  (h.rset hl _).rset hh _

theorem modSnt (h : SntOnly s₀ s) (n : Nat) (f : SntCtx → SntCtx) : SntOnly s₀ (s.modSnt n f) := h.trans ⟨rfl, fun _ _ => rfl⟩

theorem syncDse (h : SntOnly s₀ s) : SntOnly s₀ s.syncDse := h.setPair (by decide) (by decide) _

theorem dseDrop (h : SntOnly s₀ s) (m : Nat) : SntOnly s₀ (s.dseDrop m) := (h.setPair (by decide) (by decide) _).syncDse

end SntOnly

/-- DSE_OUT alone follows the sentinels (R164). -/
theorem State.rget_syncDse (s : State) {a : Nat} (h : a ≠ R.DSE_OUT 0 ∧ a ≠ R.DSE_OUT 1) : s.syncDse.rget a = s.rget a :=
  State.rget_setPair_other _ _ h.1 h.2

theorem State.rget_dseDrop (s : State) (m : Nat) {a : Nat} (h : a < 0x61408 ∨ 0x61410 ≤ a ∧ a < 0x61428) : (s.dseDrop m).rget a = s.rget a := by
  refine (State.rget_syncDse _ ?_).trans (State.rget_setPair_other _ _ ?_ ?_)
  · unfold R.DSE_OUT
    omega
  · unfold R.DSE_DROP
    omega
  · unfold R.DSE_DROP
    omega

/-- The drop latches of a mask of outputs are set. -/
theorem State.pair_dseDrop (s : State) (m : Nat) {k : Nat} (hk : k < 64) (h : m.testBit k = true) :
    ((s.dseDrop m).pair (R.DSE_DROP 0) (R.DSE_DROP 1)).testBit k = true := by
  have hpair : (s.dseDrop m).pair (R.DSE_DROP 0) (R.DSE_DROP 1) = (s.pair (R.DSE_DROP 0) (R.DSE_DROP 1) ||| m) % 2 ^ 64 :=
    (State.pair_congr (State.rget_syncDse _ (by decide)) (State.rget_syncDse _ (by decide))).trans (State.pair_setPair _ (by decide) _)
  rw [hpair, Nat.testBit_mod_two_pow]
  simp [hk, h]

theorem State.snt_dseDrop (s : State) (m n : Nat) : (s.dseDrop m).snt n = s.snt n := rfl

/-- One bit of a mask in two words: its word. -/
theorem bitFld_addr {b n : Nat} (h : n < 64) : b ≤ (bitFld b n).addr ∧ (bitFld b n).addr ≤ b + 4 := by
  unfold bitFld
  dsimp only
  omega

/-! ## SNT_CFG (R162) -/

theorem State.sntCfg_spec (s : State) {n : Nat} (hn : n < 64) (v : Word) :
    (s.sntCfg n v).rget (R.SNT_CFG n) = v &&& 0xFF1 ∧ (s.sntCfg n v).mem = s.mem ∧
      (s.flag (R.SNT_CFG_EN n) = false → v.getLsbD 0 = true →
        ((s.sntCfg n v).snt n).forcing = true ∧ ((s.sntCfg n v).snt n).knownHi = false) := by
  unfold State.sntCfg
  extract_lets was s₁ s₂
  have h₂ : s₂.rget (R.SNT_CFG n) = v &&& 0xFF1 ∧ s₂.mem = s.mem ∧
      (s.flag (R.SNT_CFG_EN n) = false → v.getLsbD 0 = true → (s₂.snt n).forcing = true ∧ (s₂.snt n).knownHi = false) := by
    unfold s₂
    split
    · next hsame => exact ⟨State.rget_rset_same .., rfl, fun hoff hon => absurd hsame (by rw [show was = false from hoff, hon]; decide)⟩
    · refine ⟨State.rget_rset_same .., rfl, fun _ hon => ?_⟩
      rw [State.snt_modSnt, if_pos rfl]
      exact ⟨hon, rfl⟩
  obtain ⟨hcfg, hmem, henable⟩ := h₂
  clear_value s₂
  have hknown := bitFld_addr (b := R.SNT_KNOWN 0) hn
  refine ⟨?_, (State.mem_sntSync ..).trans hmem, fun hoff hon => ?_⟩
  · refine ((State.rget_syncDse _ ?_).trans (State.rget_fset_other _ _ ?_)).trans hcfg
    · unfold R.SNT_CFG R.DSE_OUT
      omega
    · unfold R.SNT_KNOWN R.SNT_CFG at *
      omega
  · rw [State.snt_sntSync]
    exact henable hoff hon

/-! ## A violation (R163, R367) -/

/-- A sentinel's violation shows and is held. -/
def State.violated (s : State) (n : Nat) : State :=
  { (s.setFlag (bitFld (R.SNT_VIOL 0) n) true).modSnt n fun c => { c with viol := true } with
    held := if s.held.contains (0x60000, 7, n) then s.held else s.held ++ [(0x60000, 7, n)] }

theorem State.sntViolate_eq (s : State) (n : Nat) :
    s.sntViolate n = (((s.violated n).dseDrop ((s.violated n).sntMap n)).endSteps (List.range 64) St.hwFault 13).safety 5 n 7 := rfl

theorem sntReg_viol {n : Nat} (hn : n < 64) : sntReg (bitFld (R.SNT_VIOL 0) n).addr = true := by
  have haddr := bitFld_addr (b := R.SNT_VIOL 0) hn
  exact decide_eq_true (by unfold R.SNT_VIOL at *; omega)

theorem State.violated_spec (s : State) {n : Nat} (hn : n < 64) :
    SntOnly s (s.violated n) ∧ (s.violated n).flag (bitFld (R.SNT_VIOL 0) n) = true ∧ ((s.violated n).snt n).viol = true ∧
      (s.violated n).sntMap n = s.sntMap n := by
  have haddr := bitFld_addr (b := R.SNT_VIOL 0) hn
  have h₁ : SntOnly s (s.setFlag (bitFld (R.SNT_VIOL 0) n) true) := (SntOnly.refl s).setFlag (sntReg_viol hn) true
  refine ⟨h₁.trans ⟨rfl, fun _ _ => rfl⟩, ?_, ?_, ?_⟩
  · exact State.flag_setFlag_same _ _ (Nat.le_refl _) (show n % 32 < 32 from Nat.mod_lt _ (by decide))
  · have hctx := (s.setFlag (bitFld (R.SNT_VIOL 0) n) true).snt_modSnt n n fun c => { c with viol := true }
    exact congrArg SntCtx.viol (hctx.trans (if_pos rfl))
  · refine State.pair_congr (State.rget_fset_other _ _ ?_) (State.rget_fset_other _ _ ?_)
    · unfold R.SNT_VIOL R.SNT_MAP_LO at *
      omega
    · unfold R.SNT_VIOL R.SNT_MAP_HI at *
      omega

/-- A safety function shows in no register of the sentinels. -/
theorem safetyReg_sntReg {a : Nat} (h : sntReg a = true) : safetyReg a = false ∧ counting a = false := by
  have hrange := of_decide_eq_true h
  refine ⟨?_, decide_eq_false (by omega)⟩
  simp [safetyReg, raiseReg, fltReg, recordReg, R.MRN_SEQ, R.MRN_STATUS, R.MRN_OLDEST, R.SF_STATUS, R.SF_LAST]
  omega

theorem raiseReg_of_safetyReg {a : Nat} (h : safetyReg a = false) : raiseReg 0x60000 a = false := by
  simp only [safetyReg, Bool.or_eq_false_iff] at h
  exact h.1.1

/-- The violation of a sentinel with no tile in a step: SNT_VIOL, the drop latches of the outputs it maps, and SF5. -/
theorem State.sntViolate_spec {n : Nat} (hn : n < 64) (hstep : s.holdsStep = false) (hmild : Mild s 0x60000 7) :
    let t := s.sntViolate n
    t.flag (bitFld (R.SNT_VIOL 0) n) = true ∧ (t.snt n).viol = true ∧
      (∀ k < 64, (s.sntMap n).testBit k = true → (t.pair (R.DSE_DROP 0) (R.DSE_DROP 1)).testBit k = true) ∧
      (t.rget R.SF_STATUS).getLsbD 4 = true ∧ t.mem = s.mem := by
  obtain ⟨h₂, hflag, hctx, hmap⟩ := s.violated_spec hn
  rw [State.sntViolate_eq, hmap]
  generalize s.violated n = s₂ at h₂ hflag hctx
  have h₃ := h₂.dseDrop (s.sntMap n)
  have hhold : (s₂.dseDrop (s.sntMap n)).holdsStep = false := (State.holdsStep_congr_tiles fun u hu =>
    State.fget_congr (h₃.regs (R.SEQ_STATUS u) (decide_eq_false (by unfold R.SEQ_STATUS; omega)))).trans hstep
  have h₄ := State.endSteps_endsLate hhold St.hwFault 13
  obtain ⟨hroom, hact⟩ := hmild.congr (h₄.staged.trans h₃.staged) ((h₄.rget (by decide)).trans (h₃.regs _ (by decide)))
  generalize (s₂.dseDrop (s.sntMap n)).endSteps (List.range 64) St.hwFault 13 = s₄ at h₄ hroom hact
  obtain ⟨hlogs, hsf, -⟩ := State.safety_spec (f := 5) (unit := n) (src := 7) (by decide) (by decide) (by omega) hact
  have hkeep {a : Nat} (ha : sntReg a = true) : (s₄.safety 5 n 7).rget a = (s₂.dseDrop (s.sntMap n)).rget a :=
    (hlogs.rget (safetyReg_sntReg ha).1 (safetyReg_sntReg ha).2).trans (h₄.rget (Nat.lt_trans (of_decide_eq_true ha).2 (by decide)))
  refine ⟨(State.flag_congr ((hkeep (sntReg_viol hn)).trans (State.rget_dseDrop _ _ ?_))).trans hflag, ?_, fun k hk hbit => ?_, hsf,
    hlogs.mem.trans (h₄.mem.trans h₃.mem)⟩
  · have haddr := bitFld_addr (b := R.SNT_VIOL 0) hn
    unfold R.SNT_VIOL at *
    omega
  · rw [hlogs.snt, h₄.snt, State.snt_dseDrop]
    exact hctx
  · rw [State.pair_congr (hkeep (by decide)) (hkeep (by decide))]
    exact State.pair_dseDrop _ _ hk hbit

/-! ## A window crossing (R151, R163) -/

theorem doSentinelWindowCrossing_spec (n : Fin 64) (volt : Int) (s : State) :
    let f := s.fget (R.SNT_CFG_HYST n)
    let out := sideAt (s.sntCodes n).1 f volt (s.snt n).hiAbove || !sideAt (s.sntCodes n).2 f volt (!(s.snt n).loBelow)
    ((doSentinelWindowCrossing n volt s).snt n).outside = out ∧
      ((doSentinelWindowCrossing n volt s).snt n).viol = ((s.snt n).viol && out) ∧ (doSentinelWindowCrossing n volt s).mem = s.mem := by
  unfold doSentinelWindowCrossing
  extract_lets f out s₁ s₂ s₃
  have h₂ : (s₂.snt n).outside = out ∧ (s₂.snt n).viol = ((s.snt n).viol && out) ∧ s₂.mem = s.mem := by
    refine ⟨?_, ?_, rfl⟩
    · rw [State.snt_modSnt, if_pos rfl, State.snt_modSnt, if_pos rfl]
      rfl
    · rw [State.snt_modSnt, if_pos rfl, State.snt_modSnt, if_pos rfl]
      rfl
  clear_value s₂
  have h₃ : s₃.snt n = s₂.snt n ∧ s₃.mem = s₂.mem := by
    unfold s₃
    split
    · exact ⟨rfl, rfl⟩
    · exact ⟨rfl, rfl⟩
  clear_value s₃
  rw [State.snt_sntSync, State.mem_sntSync, h₃.1, h₃.2]
  exact h₂

/-! ## The fence of a sentinel (R367, R378) -/

/-- The registers between the fence masks and the moraine's, among them the sentinels' and the fault registers of the safety block. -/
def midReg (a : Nat) : Bool := decide (0x60200 ≤ a ∧ a < 0x80000)

theorem sessReg_midReg {a : Nat} (h : midReg a = true) : sessReg a = false := by
  have hrange := of_decide_eq_true h
  refine List.any_eq_false.2 fun n hn => ?_
  have := List.mem_range.1 hn
  simp [R.SESS_STAT, R.SESS_LOAD]
  omega

theorem counting_midReg {a : Nat} (h : midReg a = true) : counting a = false := by
  have hrange := of_decide_eq_true h
  exact decide_eq_false (by omega)

/-- A fence that is put on record with room for it. -/
theorem State.fenceNote_spec {kind unit cause : Nat} (hroom : s.staged.length < 128) :
    (s.fenceNote kind unit cause).mem = s.mem ∧ (s.fenceNote kind unit cause).fenceReq = s.fenceReq ∧
      (s.fenceNote kind unit cause).staged.length = s.staged.length + 1 ∧
      ∀ a, midReg a = true → (s.fenceNote kind unit cause).rget a = s.rget a := by
  unfold State.fenceNote
  extract_lets s₁ s₂ s₃ s₄ s₅
  have hmem₂ : s₂.mem = s.mem := rfl
  have hreq₂ : s₂.fenceReq = s.fenceReq := rfl
  have hstaged₂ : s₂.staged = s.staged := rfl
  have hregs₂ {a : Nat} (ha : midReg a = true) : s₂.rget a = s.rget a := by
    have hrange := of_decide_eq_true ha
    exact (State.rget_fset_other _ _ (show a ≠ R.SR_GEN by unfold R.SR_GEN; omega)).trans
      (State.rget_rset_other _ _ (show a ≠ R.FENCE_LAST by unfold R.FENCE_LAST; omega))
  clear_value s₂
  have h₃ : Reports (fun _ => false) s₂ s₃ := s₂.chipEvent_reports ..
  have hreq₃ : s₃.fenceReq = s₂.fenceReq := (congrArg State.fenceReq h₃.same :)
  have hstaged₃ : s₃.staged = s₂.staged := (congrArg State.staged h₃.same :)
  clear_value s₃
  obtain ⟨h₄, hlen⟩ : Logs recordReg s₃ s₄ ∧ s₄.staged.length = s₃.staged.length + 1 :=
    State.stage_logs s₃ (by rw [hstaged₃, hstaged₂]; exact hroom) ..
  clear_value s₄
  have h₅ : s₅.mem = s.mem ∧ s₅.fenceReq = s.fenceReq ∧ s₅.staged.length = s.staged.length + 1 ∧
      ∀ a, midReg a = true → s₅.rget a = s.rget a := by
    refine ⟨h₄.mem.trans (h₃.mem.trans hmem₂), h₄.fenceReq.trans (hreq₃.trans hreq₂), hlen.trans (by rw [hstaged₃, hstaged₂]),
      fun a ha => ?_⟩
    have hrange := of_decide_eq_true ha
    refine (h₄.rget ?_ (counting_midReg ha)).trans ((h₃.regs a (by simp [counting_midReg ha, sessReg_midReg ha])).trans (hregs₂ ha))
    simp [recordReg, R.MRN_SEQ, R.MRN_STATUS, R.MRN_OLDEST]
    omega
  clear_value s₅
  split
  · exact h₅
  · exact h₅

/-- A fence of a sentinel shows in SNT_FENCED. -/
theorem State.fenceSnt_spec {n : Nat} (hn : n < 64) (cause : Nat) (hroom : s.staged.length < 128) :
    (s.fenceSnt n cause).sntFenced n = true ∧ (s.fenceSnt n cause).mem = s.mem ∧ (s.fenceSnt n cause).fenceReq = s.fenceReq ∧
      (s.fenceSnt n cause).staged.length = s.staged.length + 1 ∧
      (s.fenceSnt n cause).rget (R.FLT_REACT 0x60000 1) = s.rget (R.FLT_REACT 0x60000 1) := by
  obtain ⟨hlo, hhi⟩ := bitFld_addr (b := R.SNT_FENCED 0) hn
  obtain ⟨hlo', hhi'⟩ := bitFld_addr (b := R.FENCE_SNT 0) hn
  unfold State.fenceSnt
  extract_lets s₁
  have hother {a : Nat} (ha : midReg a = true) : s₁.rget a = (s.setFlag (bitFld (R.SNT_FENCED 0) n) true).rget a := by
    have hrange := of_decide_eq_true ha
    exact State.rget_fset_other _ _ (by unfold R.FENCE_SNT at *; omega)
  have hreact : s₁.rget (R.FLT_REACT 0x60000 1) = s.rget (R.FLT_REACT 0x60000 1) :=
    (hother (by decide)).trans (State.rget_fset_other _ _ (by unfold R.FLT_REACT R.SNT_FENCED at *; omega))
  have hmid : midReg (bitFld (R.SNT_FENCED 0) n).addr = true := decide_eq_true (by unfold R.SNT_FENCED at *; omega)
  have hfenced : s₁.sntFenced n = true := (State.flag_congr (hother hmid)).trans
    (State.flag_setFlag_same _ _ (Nat.le_refl _) (show n % 32 < 32 from Nat.mod_lt _ (by decide)))
  have hsame : s₁.mem = s.mem ∧ s₁.fenceReq = s.fenceReq ∧ s₁.staged = s.staged := ⟨rfl, rfl, rfl⟩
  clear_value s₁
  obtain ⟨hmem, hreq, hstaged⟩ := hsame
  have hdrop := (SntOnly.refl s₁).dseDrop (s₁.sntMap n)
  obtain ⟨hmem', hreq', hlen, hregs⟩ := State.fenceNote_spec (s := s₁.dseDrop (s₁.sntMap n)) (kind := 3) (unit := n) (cause := cause)
    (by rw [hdrop.staged, hstaged]; exact hroom)
  refine ⟨?_, hmem'.trans (hdrop.mem.trans hmem), hreq'.trans (hdrop.fenceReq.trans hreq), hlen.trans (by rw [hdrop.staged, hstaged]),
    (hregs _ (by decide)).trans ((hdrop.regs _ (by decide)).trans hreact)⟩
  exact (State.flag_congr ((hregs _ hmid).trans (State.rget_dseDrop _ _ (by unfold R.SNT_FENCED at *; omega)))).trans hfenced

/-- With no fence requested nothing waits for one that is applied. -/
theorem State.fenceDone_of_no_requests {kind unit : Nat} (h : s.fenceReq = []) : s.fenceDone kind unit = s := by
  unfold State.fenceDone
  rw [h]
  exact congrArg (fun l => ({ s with fenceReq := l } : State)) h.symm

/-- A failed self-check of a sentinel that is not fenced, with no unfence requested and no fence waiting: it is fenced. -/
theorem doSentinelSelfCheck_failed {n : Fin 64} (hunfence : (3, n.val) ∉ s.unfenceReq) (hfenced : s.sntFenced n = false) (hreq : s.fenceReq = [])
    (hmild : Mild s 0x60000 8) : (doSentinelSelfCheck n false s).sntFenced n = true ∧ (doSentinelSelfCheck n false s).mem = s.mem := by
  obtain ⟨hroom, hact⟩ := hmild
  obtain ⟨hfence, hmem, hreq', hlen, hreact⟩ := State.fenceSnt_spec n.isLt 4 (show s.staged.length < 128 by omega)
  obtain ⟨hlogs, -⟩ := State.faultRaise_spec (s := s.fenceSnt n 4) (b := 0x60000) (src := 8) (by decide) (by decide) (by omega)
    (by rwa [State.nibble, show 8 / 8 = 1 from rfl, hreact])
  have hself : doSentinelSelfCheck n false s = (s.fenceSnt n 4).faultRaise 0x60000 8 := by
    unfold doSentinelSelfCheck
    simp only [List.contains_eq_mem, hunfence, hfenced, decide_false, Bool.or_self, Bool.false_eq_true, if_false]
    exact State.fenceDone_of_no_requests (hlogs.fenceReq.trans (hreq'.trans hreq))
  have haddr := bitFld_addr (b := R.SNT_FENCED 0) n.isLt
  obtain ⟨hsafety, hcounting⟩ := safetyReg_sntReg (a := (bitFld (R.SNT_FENCED 0) n).addr) (decide_eq_true (by unfold R.SNT_FENCED at *; omega))
  rw [hself]
  exact ⟨(State.flag_congr (hlogs.rget (raiseReg_of_safetyReg hsafety) hcounting)).trans hfence, hlogs.mem.trans hmem⟩

/-! ## The statement -/

/-- Settles O35; a write to PMU_CFG discards the averaged conversions by the model's choice (log entry 74). Each row is followed through the
operations it is made of, whose frames say what they leave. -/
theorem pmuAndSentinels : Obligations.PmuAndSentinels := by
  unfold Obligations.PmuAndSentinels
  refine ⟨?_, ?_, ?_, ?_, ?_, ?_, ?_⟩
  · intro ch v m s hrule
    have hexec : exec (.pmuCfgWrite ch v m) s = .next ((s.pmuCfg ch v m).answered St.ok) := congrArg Host.Outcome.next (s.writeRow_done hrule _)
    obtain ⟨hbehind, hn, hranging⟩ := s.pmuCfg_behind ch v m
    have honly : PinOnly (inChan ch) ch s (s.pmuCfg ch v m) :=
      ((PinOnly.refl s).rset (inChan_offset (show 0x58 < 0x400 by decide)) _).trans (hbehind.mono fun _ => inChan_of_forceReg)
    have hstores : (s.pmuCfg ch v m).rget (R.PMU_CFG ch) = v &&& 0x1FF7 :=
      (hbehind.regs _ (forceReg_other (o := 0x58) (by decide))).trans (State.rget_rset_same ..)
    exact ⟨_, hexec, rfl, hstores, hn, hranging, honly.regs, honly.memSame⟩
  · intro ch s
    exact ⟨_, rfl, State.flag_setFlag_same _ _ (Nat.le_refl 9) (show 9 < 32 by decide), .rset s (by simp [R.CH_STATUS_RANGING]) _, .of_mem rfl⟩
  · intro n v s hrule
    have hexec : exec (.sntCfgWrite n v) s = .next ((s.sntCfg n v).answered St.ok) := congrArg Host.Outcome.next (s.writeRow_done hrule _)
    obtain ⟨hstores, hmem, henable⟩ := s.sntCfg_spec n.isLt v
    exact ⟨_, hexec, rfl, hstores, henable, .of_mem hmem⟩
  · intro n s hon hhi hlo hout hviol hstep hmild
    have hexec : exec (.sentinelViolation n) s = .next (s.sntViolate n) :=
      congrArg Host.Outcome.next (if_pos (by simp [hon, hhi, hlo, hout, hviol]))
    obtain ⟨hflag, hctx, hdrop, hsf, hmem⟩ := State.sntViolate_spec n.isLt hstep hmild
    exact ⟨_, hexec, hflag, hctx, hdrop, hsf, .of_mem hmem⟩
  · intro n volt s f out
    obtain ⟨hout, hviol, hmem⟩ := doSentinelWindowCrossing_spec n volt s
    exact ⟨_, rfl, hout, by rw [hviol, Bool.and_eq_true], .of_mem hmem⟩
  · intro n s hunfence
    refine congrArg Host.Outcome.next ?_
    unfold doSentinelSelfCheck
    simp [hunfence]
  · intro n s hunfence hfenced hreq hmild
    obtain ⟨hfence, hmem⟩ := doSentinelSelfCheck_failed hunfence hfenced hreq hmild
    exact ⟨_, rfl, hfence, .of_mem hmem⟩

end Sys2Proof.Machine
end

section
/-! SUPPORT. What the routines of acquisition read and answer: bundles, the epoch of step data, and a reply behind a routine of the ROM
(08_acquisition.md R218 to R222; 07_time_measurement.md R184). -/

namespace Sys2Proof.Machine

variable {s t : State}

/-! ## What a bundle hides (13_security.md R331, R332) -/

/-- Which tiles are in a bundle, and what its policy hides, is read in the registers of the security block. -/
theorem State.bundleOf_congr (h : ∀ a, inBlock 0x50000 a = true → t.rget a = s.rget a) (u : Nat) : t.bundleOf u = s.bundleOf u := by
  refine List.find?_congr fun n hn => ?_
  have hn := List.mem_range.1 hn
  have hvalid : t.flag (R.BUNDLE_CTL_VALID n) = s.flag (R.BUNDLE_CTL_VALID n) :=
    State.flag_congr (h _ (decide_eq_true (by simp only [R.BUNDLE_CTL_VALID, R.BUNDLE_CTL]; omega)))
  rw [hvalid, h (R.BUNDLE_TILES_LO n) (decide_eq_true (by unfold R.BUNDLE_TILES_LO; omega)),
    h (R.BUNDLE_TILES_HI n) (decide_eq_true (by unfold R.BUNDLE_TILES_HI; omega))]

theorem State.bundleOf_lt {u n : Nat} (h : s.bundleOf u = some n) : n < 4 := List.mem_range.1 (List.mem_of_find?_eq_some h)

theorem State.hidden_congr (h : ∀ a, inBlock 0x50000 a = true → t.rget a = s.rget a) (u : Nat) (bits : List Nat) :
    t.hidden u bits = s.hidden u bits := by
  unfold State.hidden
  rw [State.bundleOf_congr h]
  split
  · next n hn =>
    have := State.bundleOf_lt hn
    rw [h (R.BUNDLE_POLICY n) (decide_eq_true (by unfold R.BUNDLE_POLICY; omega))]
  · rfl

theorem Counts.hidden (h : Counts s t) (u : Nat) (bits : List Nat) : t.hidden u bits = s.hidden u bits :=
  State.hidden_congr (fun a ha => h.regs a (decide_eq_false (by have := of_decide_eq_true ha; omega))) u bits

theorem Replies.hidden {n : Nat} (h : Replies n s t) (hn : n < 32) (u : Nat) (bits : List Nat) : t.hidden u bits = s.hidden u bits :=
  State.hidden_congr (fun a ha => h.regs a (by have := of_decide_eq_true ha; unfold R.SESS_STAT; omega)) u bits

/-! ## The state behind a routine of the ROM -/

/-- Counting leaves every register of a tile and of a channel. -/
theorem Counts.rget_ge (h : Counts s t) {a : Nat} (ha : 0x100000 ≤ a) : t.rget a = s.rget a := h.regs a (counting_of_ge ha)

theorem Counts.tileFenced (h : Counts s t) {u : Nat} (hu : u < 64) : t.tileFenced u = s.tileFenced u :=
  State.flag_congr (h.regs _ (decide_eq_false (by simp only [R.TILE_MAP_FENCED, R.TILE_MAP]; omega)))

theorem Counts.mread (h : Counts s t) (space u off n : Nat) : t.mread space u off n = s.mread space u off n := by
  simp only [State.mread, State.mget_congr h.mem]

/-- The epoch of step data is read in the tile's context and in one register of the tile (09_calibration.md R235). -/
theorem State.dataEpoch_congr {u : Nat} (htile : t.tile u = s.tile u) (hreg : t.rget (R.TILE_CAL_EPOCH u) = s.rget (R.TILE_CAL_EPOCH u)) :
    t.dataEpoch u = s.dataEpoch u := by
  rw [State.dataEpoch, htile, hreg, State.dataEpoch]

theorem Counts.dataEpoch (h : Counts s t) (u : Nat) : t.dataEpoch u = s.dataEpoch u :=
  State.dataEpoch_congr (State.tile_congr h.tiles u) (h.rget_ge (by unfold R.TILE_CAL_EPOCH; omega))

/-- A routine of the ROM that acts within a frame and then replies: the reply, the frame widened by the session's slot count and the event
counters, and the registers of tiles and channels as the routine left them. -/
theorem State.reply_spec {p : Nat → Bool} (hmem : t.mem = s.mem) (hregs : RegsSame (fun a => counting a || p a) s t) (op : BitVec 8)
    (q : Req) (st : BitVec 8) (ps : List Word) (pl : List Byte) :
    Answered (t.reply op q st ps pl) op q st ps pl ∧ MemSame s (t.reply op q st ps pl) ∧
      RegsSame (fun a => counting a || a == R.SESS_STAT q.session.toNat || p a) s (t.reply op q st ps pl) ∧
      ∀ a, 0x100000 ≤ a → (t.reply op q st ps pl).rget a = t.rget a := by
  have hreply := t.reply_replies op q st ps pl
  refine ⟨t.reply_answered op q st ps pl, .of_mem (hreply.mem.trans hmem), fun a ha => ?_,
    fun a ha => hreply.regs a (by unfold R.SESS_STAT; omega)⟩
  obtain ⟨⟨hcount, hsess⟩, hp⟩ : (counting a = false ∧ a ≠ R.SESS_STAT q.session.toNat) ∧ p a = false := by simpa using ha
  exact (hreply.regs a hsess).trans (hregs a (by simp [hcount, hp]))

/-- A routine of the ROM that only replies. -/
theorem State.routine_reply_spec (s : State) (op : BitVec 8) (q : Req) (st : BitVec 8) (ps : List Word) (pl : List Byte) :
    Answered (s.routine.reply op q st ps pl) op q st ps pl ∧ MemSame s (s.routine.reply op q st ps pl) ∧
      RegsSame (fun a => counting a || a == R.SESS_STAT q.session.toNat) s (s.routine.reply op q st ps pl) := by
  have hcounts := s.routine_counts
  obtain ⟨hanswer, hmem, hregs, -⟩ := State.reply_spec (p := fun _ => false) hcounts.mem
    (hcounts.regs.mono fun a ha => by simp [ha]) op q st ps pl
  exact ⟨hanswer, hmem, hregs.mono fun a ha => by simpa using ha⟩

/-! ## CAPTURE_READ (R219, R222) -/

/-- The ring behind the readout of its oldest `n` records. -/
def State.ringTaken (s : State) (u n : Nat) : State :=
  (s.fset (R.CAP_RD_PTR_VALUE u) ((s.fget (R.CAP_RD_PTR_VALUE u) + n) % max 1 (s.ringN u))).fset (R.CAP_USED_VALUE u) (s.ringU u - n)

theorem State.ringN_le (s : State) (u : Nat) : s.ringN u ≤ 0x8000 := by
  unfold State.ringN
  omega

theorem State.ringTaken_spec (s : State) (u n : Nat) :
    (s.ringTaken u n).ringU u = s.ringU u - n ∧
      (s.ringTaken u n).fget (R.CAP_RD_PTR_VALUE u) = (s.fget (R.CAP_RD_PTR_VALUE u) + n) % max 1 (s.ringN u) ∧
      RegsSame (fun a => a == R.CAP_RD_PTR u || a == R.CAP_USED u) s (s.ringTaken u n) ∧ (s.ringTaken u n).tiles = s.tiles ∧
      (s.ringTaken u n).mem = s.mem := by
  have hplace : R.CAP_RD_PTR u ≠ R.CAP_USED u := by unfold R.CAP_RD_PTR R.CAP_USED; omega
  have hused : s.ringU u < 2 ^ 16 := field_lt ..
  have hptr : (s.fget (R.CAP_RD_PTR_VALUE u) + n) % max 1 (s.ringN u) < 2 ^ 16 :=
    Nat.lt_of_lt_of_le (Nat.mod_lt _ (by omega)) (by have := s.ringN_le u; omega)
  unfold State.ringTaken
  refine ⟨?_, ?_, fun a ha => ?_, (State.fset_tiles ..).trans (State.fset_tiles ..), (State.fset_mem ..).trans (State.fset_mem ..)⟩
  · exact (State.fget_fset_same _ _ (Nat.zero_le 15) (show 15 < 32 by decide)).trans
      (Nat.mod_eq_of_lt (Nat.lt_of_le_of_lt (Nat.sub_le ..) hused))
  · exact (State.fget_fset_addr _ _ hplace).trans
      ((State.fget_fset_same _ _ (Nat.zero_le 15) (show 15 < 32 by decide)).trans (Nat.mod_eq_of_lt hptr))
  · obtain ⟨hrd, hus⟩ : a ≠ R.CAP_RD_PTR u ∧ a ≠ R.CAP_USED u := by simpa using ha
    exact (State.rget_fset_other _ _ hus).trans (State.rget_fset_other _ _ hrd)

/-- With no record bad a slot reads as the bytes it holds, and none is drawn from the free values. -/
theorem State.ringGet_good {u : Nat} (h : (s.tile u).cap.bad = []) (slot : Nat) (formed : Bool) :
    s.ringGet u slot formed = s.mread 5 u (slot * 16) 16 := by
  simp [State.ringGet, h]

theorem State.badRead_good {u : Nat} (h : (s.tile u).cap.bad = []) : s.badRead u = (0, s) := by
  simp [State.badRead, h]

/-- The state behind the readout of `n` records: the ring stands where the request peeks, and the records leave it where it does not. -/
def State.captured (s : State) (u n : Nat) (peek : Bool) : State := if peek then s else s.ringTaken u n

/-- A routine of the ROM leaves the ring of every tile. -/
theorem Counts.ring (h : Counts s t) (u : Nat) : t.ringU u = s.ringU u ∧ t.ringN u = s.ringN u ∧
    t.fget (R.CAP_RD_PTR_VALUE u) = s.fget (R.CAP_RD_PTR_VALUE u) := by
  have hmask : t.maskBytes u = s.maskBytes u := by
    rw [State.maskBytes, State.flag_congr (h.rget_ge (by simp only [R.MASK_CFG_EN, R.MASK_CFG]; omega)), State.maskBytes]
  have hpool : t.poolBytes u = s.poolBytes u := by
    rw [State.poolBytes, State.fget_congr (h.rget_ge (by simp only [R.FC_CFG_POOL, R.FC_CFG]; omega)), State.poolBytes]
  refine ⟨State.fget_congr (h.rget_ge ?_), by rw [State.ringN, hmask, hpool, State.ringN], State.fget_congr (h.rget_ge ?_)⟩
  · simp only [R.CAP_USED_VALUE, R.CAP_USED]
    omega
  · simp only [R.CAP_RD_PTR_VALUE, R.CAP_RD_PTR]
    omega

/-- The readout of records behind a routine of the ROM. -/
theorem Counts.captured (h : Counts s t) (u n : Nat) (peek : Bool) :
    (t.captured u n peek).ringU u = (if peek then s.ringU u else s.ringU u - n) ∧
      (t.captured u n peek).fget (R.CAP_RD_PTR_VALUE u) =
        (if peek then s.fget (R.CAP_RD_PTR_VALUE u) else (s.fget (R.CAP_RD_PTR_VALUE u) + n) % max 1 (s.ringN u)) ∧
      (t.captured u n peek).dataEpoch u = s.dataEpoch u ∧ (t.captured u n peek).mem = s.mem ∧
      RegsSame (fun a => counting a || (a == R.CAP_RD_PTR u || a == R.CAP_USED u)) s (t.captured u n peek) := by
  obtain ⟨hused, hsize, hptr⟩ := h.ring u
  have hcount : RegsSame (fun a => counting a || (a == R.CAP_RD_PTR u || a == R.CAP_USED u)) s t := h.regs.mono fun a ha => by simp [ha]
  cases peek with
  | true => exact ⟨hused, hptr, h.dataEpoch u, h.mem, hcount⟩
  | false =>
    obtain ⟨hleft, hmoved, hregs, htiles, hmem⟩ := t.ringTaken_spec u n
    have hepoch : (t.ringTaken u n).rget (R.TILE_CAL_EPOCH u) = t.rget (R.TILE_CAL_EPOCH u) :=
      hregs _ (by simp [R.TILE_CAL_EPOCH, R.CAP_RD_PTR, R.CAP_USED])
    exact ⟨hleft.trans (by rw [hused]; rfl), hmoved.trans (by rw [hptr, hsize]; rfl),
      (State.dataEpoch_congr (State.tile_congr htiles u) hepoch).trans (h.dataEpoch u), hmem.trans h.mem,
      hcount.trans (hregs.mono fun a ha => by simp [ha])⟩

/-- An accepted CAPTURE_READ whose checks pass and which meets no bad record. -/
theorem doCaptureRead_eq {q : Req} (hruns : s.runs 0x40 q = true) (hu : q.n 0 < 64) (hone : 1 ≤ q.n 1) (hmax : q.n 1 ≤ 4096)
    (hpeek : q.n 2 < 2) (hfenced : s.tileFenced (q.n 0) = false) (hhidden : s.hidden (q.n 0) [9, 10, 11, 12, 13] = false)
    (hbad : (s.tile (q.n 0)).cap.bad = []) :
    let n := min (q.n 1) (s.ringU (q.n 0))
    let t := s.routine.captured (q.n 0) n (q.n 2 == 1)
    doCaptureRead q s = t.reply 0x40 q St.ok [BitVec.ofNat 32 n, BitVec.ofNat 32 (t.ringU (q.n 0)), t.dataEpoch (q.n 0)]
      ((List.range n).flatMap fun k =>
        s.mread 5 (q.n 0) ((s.fget (R.CAP_RD_PTR_VALUE (q.n 0)) + k) % max 1 (s.ringN (q.n 0)) * 16) 16) := by
  have hcounts := s.routine_counts
  obtain ⟨hused, hsize, hptr⟩ := hcounts.ring (q.n 0)
  have hbad : (s.routine.tile (q.n 0)).cap.bad = [] := by rw [State.tile_congr hcounts.tiles, hbad]
  have hbit : (q.p 2).getLsbD 0 = (q.n 2 == 1) := by
    have hparity : (q.p 2).getLsbD 0 = decide (q.n 2 % 2 = 1) := Nat.testBit_zero (q.p 2).toNat
    rw [hparity, Nat.mod_eq_of_lt hpeek, beq_eq_decide]
  have hparams : ¬(64 ≤ q.n 0 ∨ q.n 1 = 0 ∨ 4096 < q.n 1 ∨ 2 ≤ q.n 2) := by omega
  rw [doCaptureRead, State.request_of_runs hruns rfl]
  simp only [hparams, if_false, hcounts.tileFenced hu, hfenced, hcounts.hidden, hhidden, Bool.false_eq_true, State.badRead_good hbad,
    State.ringGet_good hbad, hbit, ← hused, ← hsize, ← hptr, ← hcounts.mread]
  rfl

/-! ## PROFILE_READ and FAIL_READ (07_time_measurement.md R184; R220) -/

/-- An accepted PROFILE_READ whose checks pass. -/
theorem doProfileRead_eq {q : Req} (hruns : s.runs 0x42 q = true) (hu : q.n 0 < 64) (hlane : q.n 1 < 32) (hbin : q.n 2 < 512)
    (hone : 1 ≤ q.n 3) (hmax : q.n 3 ≤ 512) (hhidden : s.hidden (q.n 0) [14] = false) :
    let k := min (q.n 3) (512 - q.n 2)
    doProfileRead q s = s.routine.reply 0x42 q (if k = q.n 3 then St.ok else St.part)
      [BitVec.ofNat 32 k, s.rget (R.PROF_STATUS (q.n 0)), s.rget (R.PROF_EPOCH (q.n 0))]
      (s.mread 6 (q.n 0) (((q.n 1 % 16 * 2 + q.n 1 / 16) * 512 + q.n 2) * 4) (4 * k)) := by
  have hcounts := s.routine_counts
  have hstatus : s.routine.rget (R.PROF_STATUS (q.n 0)) = s.rget (R.PROF_STATUS (q.n 0)) := hcounts.rget_ge (by unfold R.PROF_STATUS; omega)
  have hepoch : s.routine.rget (R.PROF_EPOCH (q.n 0)) = s.rget (R.PROF_EPOCH (q.n 0)) := hcounts.rget_ge (by unfold R.PROF_EPOCH; omega)
  have hparams : ¬(64 ≤ q.n 0 ∨ 32 ≤ q.n 1 ∨ 512 ≤ q.n 2 ∨ q.n 3 = 0 ∨ 512 < q.n 3) := by omega
  rw [doProfileRead, State.request_of_runs hruns rfl]
  simp only [hparams, if_false, hcounts.hidden, hhidden, Bool.false_eq_true, hcounts.mread, hstatus, hepoch]

/-- The calibration epoch that the repair data of a site carry; before any merge that of the lowest tile's latest step (log entry 27). -/
def State.repEpoch (s : State) (site : Nat) : Word :=
  (Store.get (fun _ => {}) s.rep site : FcSite).epoch.getD (s.dataEpoch ((s.siteTiles site).headD 0))

/-- An accepted FAIL_READ whose checks pass: the summary of a site, or the entries of one of its lists. -/
theorem doFailRead_eq {q : Req} (hruns : s.runs 0x41 q = true) (hsite : q.n 0 < 256) (hkind : q.n 1 < 4)
    (hcount : q.n 1 ≠ 0 → 1 ≤ q.n 3 ∧ q.n 3 ≤ 4096) (hhidden : ∀ u ∈ s.routine.siteTiles (q.n 0), s.routine.hidden u [8] = false)
    (hstep : ∀ u ∈ s.routine.ownTiles (s.routine.siteTiles (q.n 0)) (q.n 0), inStep (s.routine.stepState u) = false)
    (harmed : q.n 0 ∉ s.armedSites) :
    let all := (Store.get (fun _ => {}) s.rep (q.n 0) : FcSite).entriesOf (q.n 1)
    let l := (all.drop (q.n 2)).take (q.n 3)
    doFailRead q s = if q.n 1 = 0 then
        s.routine.reply 0x41 q St.ok [8, 8, s.routine.repEpoch (q.n 0)] ((s.routine.repWords (q.n 0)).flatMap wordBytes)
      else s.routine.reply 0x41 q St.ok [BitVec.ofNat 32 l.length, BitVec.ofNat 32 all.length, s.routine.repEpoch (q.n 0)]
        (l.flatten.flatMap wordBytes) := by
  have hparams : ¬(256 ≤ q.n 0 ∨ 4 ≤ q.n 1 ∨ (q.n 1 ≠ 0 ∧ (q.n 3 = 0 ∨ 4096 < q.n 3))) := by omega
  have hseal : ((s.routine.siteTiles (q.n 0)).any fun u => s.routine.hidden u [8]) = false := by simpa using hhidden
  have hbusy : ((s.routine.ownTiles (s.routine.siteTiles (q.n 0)) (q.n 0)).any fun u => inStep (s.routine.stepState u)) = false := by
    simpa using hstep
  have harmed : s.routine.armedSites.contains (q.n 0) = false := by simpa [s.routine_counts.armedSites] using harmed
  rw [doFailRead, State.request_of_runs hruns rfl]
  simp only [hparams, if_false, hseal, hbusy, harmed, Bool.or_self, Bool.false_eq_true, ← s.routine_counts.rep]
  rfl

/-! ## The statement -/

/-- Settles O25; before any merge FAIL_READ answers with the epoch of the lowest tile's latest step by the model's choice (log entry 27). Each
routine reads behind its checks what the state held before it and ends in one reply. -/
theorem captureReads : Obligations.CaptureReads := by
  unfold Obligations.CaptureReads
  refine ⟨?_, ?_, ?_⟩
  · intro q s hruns hu hone hmax hpeek hfenced hhidden hbad u n size rd left
    have hexec : exec (.captureRead q) s = .next (doCaptureRead q s) := congrArg Host.Outcome.next (State.byTable_of_runs hruns _)
    obtain ⟨hleft, hmoved, hepoch, hmem, hregs⟩ := s.routine_counts.captured u n (q.n 2 == 1)
    simp only [beq_iff_eq] at hleft hmoved
    rw [doCaptureRead_eq hruns hu hone hmax hpeek hfenced hhidden hbad, hleft, hepoch] at hexec
    obtain ⟨hanswer, hframe, hrest, htile⟩ := State.reply_spec hmem hregs 0x40 q St.ok
      [BitVec.ofNat 32 n, BitVec.ofNat 32 left, s.dataEpoch u] ((List.range n).flatMap fun k => s.mread 5 u ((rd + k) % size * 16) 16)
    have hused : 0x100000 ≤ R.CAP_USED u := by unfold R.CAP_USED; omega
    have hptr : 0x100000 ≤ R.CAP_RD_PTR u := by unfold R.CAP_RD_PTR; omega
    exact ⟨_, hexec, hanswer, (State.fget_congr (htile _ hused)).trans hleft, (State.fget_congr (htile _ hptr)).trans hmoved, hframe,
      hrest.mono fun a ha => by simpa [or_assoc] using ha⟩
  · intro q s hruns hu hlane hbin hone hmax hhidden k
    have hexec : exec (.profileRead q) s = .next (doProfileRead q s) := congrArg Host.Outcome.next (State.byTable_of_runs hruns _)
    rw [doProfileRead_eq hruns hu hlane hbin hone hmax hhidden] at hexec
    exact ⟨_, hexec, s.routine_reply_spec ..⟩
  · intro q s hruns hsite hkind hcount r tiles hhidden hstep harmed all l epoch
    have hexec : exec (.failRead q) s = .next (doFailRead q s) := congrArg Host.Outcome.next (State.byTable_of_runs hruns _)
    have hepoch : r.repEpoch (q.n 0) = epoch := by rw [State.repEpoch, s.routine_counts.rep]
    rw [doFailRead_eq hruns hsite hkind hcount hhidden hstep harmed, hepoch] at hexec
    by_cases hzero : q.n 1 = 0
    · rw [if_pos hzero] at hexec
      obtain ⟨hanswer, hmem, hregs⟩ := s.routine_reply_spec 0x41 q St.ok [8, 8, epoch] ((r.repWords (q.n 0)).flatMap wordBytes)
      exact ⟨_, hexec, hmem, hregs, fun _ => hanswer, fun hlist => absurd hzero hlist⟩
    · rw [if_neg hzero] at hexec
      obtain ⟨hanswer, hmem, hregs⟩ := s.routine_reply_spec 0x41 q St.ok
        [BitVec.ofNat 32 l.length, BitVec.ofNat 32 all.length, epoch] (l.flatten.flatMap wordBytes)
      exact ⟨_, hexec, hmem, hregs, fun hsummary => absurd hsummary hzero, fun _ => hanswer⟩

end Sys2Proof.Machine
end

section
/-! SUPPORT. MEASURE, the replies to it, and the conversions that it waits for (08_acquisition.md R221; 06_pin_electronics.md R160, R161). -/

namespace Sys2Proof.Machine

variable {s t : State}

/-! ## MEASURE (R221, R222) -/

/-- An accepted MEASURE whose checks pass waits behind those that wait already. -/
theorem doMeasure_eq {q : Req} (hruns : s.runs 0x43 q = true) (hch : q.n 0 < 1024) (hhidden : s.hidden (q.n 0 / 16) [13] = false)
    (hmode : s.mode (q.n 0) ≠ 0) : doMeasure q s = { s.routine with measures := s.measures ++ [q] } := by
  have hcounts := s.routine_counts
  have hmode : s.routine.mode (q.n 0) ≠ 0 := by
    rwa [State.mode, State.chan, hcounts.chans, State.fget_congr (hcounts.rget_ge (by simp only [R.CH_MODE_MODE, R.CH_MODE]; omega))]
  rw [doMeasure, State.request_of_runs hruns rfl]
  simp only [Nat.not_le.2 hch, hmode, if_false, hcounts.hidden, hhidden, Bool.false_eq_true, hcounts.measures]

/-! ## MEASURE_REPLY (R221) -/

/-- The answer to one MEASURE whose update has come. -/
def State.measureAnswer (ch : Nat) (s : State) (m : Req × Word) : State :=
  if s.hidden (ch / 16) [13] then s.fail 0x43 m.1 St.isSealed else s.reply 0x43 m.1 St.ok [m.2]

theorem doMeasureReply_eq (ch : Fin 1024) (s : State) : doMeasureReply ch s =
    (s.measured.filter fun (m : Req × Word) => m.1.n 0 == ch.val).foldl (State.measureAnswer ch)
      { s with measured := s.measured.filter fun (m : Req × Word) => m.1.n 0 != ch.val } := rfl

/-- What answers to MEASURE leave alone: the MEASUREs that wait, memory, what bundles hide, and the packets queued before. -/
structure Answers (s t : State) : Prop where
  measured : t.measured = s.measured
  measures : t.measures = s.measures
  mem : t.mem = s.mem
  hidden : ∀ u bits, t.hidden u bits = s.hidden u bits
  queued : ∀ p ∈ s.txq, p ∈ t.txq

theorem Answers.refl (s : State) : Answers s s := ⟨rfl, rfl, rfl, fun _ _ => rfl, fun _ hp => hp⟩

theorem Answers.trans {s₀ : State} (h : Answers s₀ s) (k : Answers s t) : Answers s₀ t :=
  ⟨k.measured.trans h.measured, k.measures.trans h.measures, k.mem.trans h.mem, fun u bits => (k.hidden u bits).trans (h.hidden u bits),
    fun p hp => k.queued p (h.queued p hp)⟩

theorem Counts.answers (h : Counts s t) : Answers s t := ⟨h.measured, h.measures, h.mem, h.hidden, fun _ hp => h.txq ▸ hp⟩

theorem Replies.answers {n : Nat} (h : Replies n s t) (hn : n < 32) : Answers s t := by
  obtain ⟨l, hl⟩ := h.txq
  exact ⟨h.measured, h.measures, h.mem, h.hidden hn, fun p hp => hl ▸ List.mem_append_left l hp⟩

theorem State.reply_answers (s : State) (op : BitVec 8) (q : Req) (st : BitVec 8) (ps : List Word) (pl : List Byte) :
    Answers s (s.reply op q st ps pl) := (s.reply_replies op q st ps pl).answers q.session.isLt

/-- The reply to one MEASURE: the value of its update, or SEALED where a bundle hides its channel. -/
def State.MeasureAnswered (s t : State) (ch : Nat) (m : Req × Word) : Prop :=
  if s.hidden (ch / 16) [13] = true then Answered t 0x43 m.1 St.isSealed [0] [] else Answered t 0x43 m.1 St.ok [m.2] []

theorem State.measureAnswer_spec (s : State) (ch : Nat) (m : Req × Word) :
    Answers s (s.measureAnswer ch m) ∧ s.MeasureAnswered (s.measureAnswer ch m) ch m := by
  unfold State.measureAnswer State.MeasureAnswered
  split
  · exact ⟨(s.evCount_counts 9 1 none).answers.trans (State.reply_answers ..), State.reply_answered _ 0x43 m.1 St.isSealed [0] []⟩
  · exact ⟨State.reply_answers .., State.reply_answered _ 0x43 m.1 St.ok [m.2] []⟩

theorem State.MeasureAnswered.later {r : State} {ch : Nat} {m : Req × Word} (h : s.MeasureAnswered t ch m) (k : Answers t r) :
    s.MeasureAnswered r ch m := by
  unfold State.MeasureAnswered at *
  split
  · next hhidden => exact (by simpa [hhidden] using h : Answered ..).mono k.queued
  · next hhidden => exact (by simpa [hhidden] using h : Answered ..).mono k.queued

/-- Every MEASURE of a list is answered, each by what the bundles hide before the first. -/
theorem State.foldl_measureAnswer_spec (ch : Nat) (l : List (Req × Word)) (s : State) :
    Answers s (l.foldl (State.measureAnswer ch) s) ∧ ∀ m ∈ l, s.MeasureAnswered (l.foldl (State.measureAnswer ch) s) ch m := by
  induction l generalizing s with
  | nil => exact ⟨.refl s, fun m hm => absurd hm List.not_mem_nil⟩
  | cons x l ih =>
    obtain ⟨hfirst, hanswer⟩ := s.measureAnswer_spec ch x
    obtain ⟨hrest, hall⟩ := ih (s.measureAnswer ch x)
    refine ⟨hfirst.trans hrest, fun m hm => ?_⟩
    rcases List.mem_cons.1 hm with rfl | hm
    · exact hanswer.later hrest
    · simpa [State.MeasureAnswered, hfirst.hidden] using hall m hm

/-! ## A user conversion (06_pin_electronics.md R158, R160) -/

/-- Whether a limit or clamp acts on a channel, as CH_STATUS.CLAMP shows it behind a user conversion. -/
def State.clampActs (s : State) (ch : Nat) (code : Int) (clamped : Bool) : Bool :=
  (s.limited ch code).getD clamped && s.mode ch == 2 && s.fget (R.PMU_CFG_FORCE ch) != 0

/-- The average of a channel with one conversion more. -/
def ChanCtx.converted (c : ChanCtx) (code : Int) (time : Nat) (clamp ranging : Bool) : ChanCtx :=
  let v := max (-131071) (min 131071 code)
  { c with pmuSum := c.pmuSum + v, pmuN := c.pmuN + 1, pmuTimes := c.pmuTimes + time, pmuOvr := c.pmuOvr || v != code
           pmuClamp := c.pmuClamp || clamp, pmuRanging := c.pmuRanging || ranging }

/-- A user conversion up to the end of its average: the converter has moved on, CH_STATUS.CLAMP follows in PMU mode, and the code is in the sum. -/
def State.converted (s : State) (ch : Nat) (code : Int) (clamp : Bool) (k : Quad) (time : Nat) : State :=
  let s : State := { s with quads := Store.put (fun _ => {}) s.quads (ch / 4) k }
  let s := if s.mode ch = 2 ∧ s.power (ch / 16) < 2 then s.setFlag (R.CH_STATUS_CLAMP ch) clamp else s
  s.modChan ch fun c => c.converted code time clamp (s.flag (R.CH_STATUS_RANGING ch))

theorem State.converted_spec (s : State) (ch : Nat) (code : Int) (clamp : Bool) (k : Quad) (time : Nat) :
    let t := s.converted ch code clamp k time
    t.chan ch = (s.chan ch).converted code time clamp (s.flag (R.CH_STATUS_RANGING ch)) ∧
      (s.mode ch = 2 → s.power (ch / 16) < 2 → t.flag (R.CH_STATUS_CLAMP ch) = clamp) ∧
      RegsSame (fun a => a == R.CH_STATUS ch) s t ∧ t.mem = s.mem ∧ t.tiles = s.tiles ∧ t.measures = s.measures := by
  unfold State.converted
  extract_lets s₁ s₂
  have h₂ : s₂.chan ch = s.chan ch ∧ s₂.flag (R.CH_STATUS_RANGING ch) = s.flag (R.CH_STATUS_RANGING ch) ∧
      (s.mode ch = 2 → s.power (ch / 16) < 2 → s₂.flag (R.CH_STATUS_CLAMP ch) = clamp) ∧
      RegsSame (fun a => a == R.CH_STATUS ch) s s₂ ∧ s₂.mem = s.mem ∧ s₂.tiles = s.tiles ∧ s₂.measures = s.measures := by
    unfold s₂
    split
    · exact ⟨rfl, State.flag_setFlag_disjoint _ _ (.inl (show 9 < 10 by decide)) (Nat.le_refl _) (Nat.le_refl _),
        fun _ _ => State.flag_setFlag_same _ _ (Nat.le_refl 10) (show 10 < 32 by decide),
        fun a ha => State.rget_fset_other _ _ (beq_eq_false_iff_ne.1 ha), rfl, rfl, rfl⟩
    · next hout => exact ⟨rfl, rfl, fun hmode hpower => absurd ⟨hmode, hpower⟩ hout, fun _ _ => rfl, rfl, rfl, rfl⟩
  clear_value s₂
  obtain ⟨hchan, hranging, hclamp, hregs, hmem, htiles, hmeasures⟩ := h₂
  refine ⟨?_, fun hmode hpower => (State.flag_modChan ..).trans (hclamp hmode hpower), hregs, hmem, htiles, hmeasures⟩
  rw [State.chan_modChan, if_pos rfl, hchan, hranging]

/-- A user conversion that the converter takes: it is added up, the last one of an average ends it, and the WAVE records that no lane can precede
any more are written. -/
theorem doPmuConversion_eq {ch : Fin 1024} {i : Nat} {k : Quad} (h : s.converter ch i none = some k) (code : Int) (clamped : Bool) :
    ∃ time : Nat, doPmuConversion ch code clamped i none s =
      let r := s.converted ch code (s.clampActs ch code clamped) k time
      let t := if 2 ^ s.fget (R.PMU_CFG_AVG ch) ≤ (s.chan ch).pmuN + 1 then r.waveSample ch time else r
      t.putWaves (ch / 16) (t.waveBound (ch / 16) time) (time * unitFs) := by
  obtain ⟨time, heq⟩ : ∃ time : Nat, doPmuConversion ch code clamped i none s =
      let r := s.converted ch code (s.clampActs ch code clamped) k time
      let t := if 2 ^ r.fget (R.PMU_CFG_AVG ch) ≤ (r.chan ch).pmuN then r.waveSample ch time else r
      t.putWaves (ch / 16) (t.waveBound (ch / 16) time) (time * unitFs) := by
    unfold doPmuConversion
    simp only [Option.map_none, h]
    exact ⟨_, rfl⟩
  obtain ⟨hchan, -, hregs, -⟩ := s.converted_spec ch code (s.clampActs ch code clamped) k time
  have havg : (s.converted ch code (s.clampActs ch code clamped) k time).fget (R.PMU_CFG_AVG ch) = s.fget (R.PMU_CFG_AVG ch) :=
    State.fget_congr (hregs _ (by simp [R.PMU_CFG_AVG, R.PMU_CFG, R.CH_STATUS]))
  simp only [havg, hchan] at heq
  exact ⟨time, heq⟩

/-! ## The end of an average (06_pin_electronics.md R161) -/

/-- With no WAVE record waiting none is written. -/
theorem State.putWaves_none {u : Nat} (h : (s.tile u).cap.waves = []) (bound i : Int) : s.putWaves u bound i = s := by
  unfold State.putWaves
  rw [h]
  rfl

/-- PMU_MEAS as the average of a channel's conversions gives it. -/
def ChanCtx.meas (c : ChanCtx) : Word :=
  BitVec.ofNat 32 (2 ^ 31 + 2 ^ 30 * c.pmuOvr.toNat + 2 ^ 29 * c.pmuRanging.toNat + 2 ^ 28 * c.pmuClamp.toNat +
    unsigned 18 (roundDiv c.pmuSum (max 1 c.pmuN)))

/-- The update of PMU_MEAS: a new average begins, and every MEASURE of the channel has its value. -/
def State.averaged (s : State) (ch : Nat) : State :=
  let c := s.chan ch
  let due := s.measures.filter fun (m : Req) => m.n 0 == ch
  let r := s.setChan ch { c with pmuSum := 0, pmuN := 0, pmuTimes := 0, pmuOvr := false, pmuClamp := false, pmuRanging := false }
  { r with measures := s.measures.filter fun (m : Req) => m.n 0 != ch
           measured := s.measured ++ due.map fun (m : Req) => (m, c.meas) }.rset (R.PMU_MEAS ch) c.meas

/-- In a tile that is not RUNNING the end of an average is the update of PMU_MEAS alone. -/
theorem State.waveSample_not_running {ch : Nat} (h : s.stepState (ch / 16) ≠ stRunning) (last : Nat) : s.waveSample ch last = s.averaged ch := by
  unfold State.waveSample
  extract_lets u lane c v time s₁ flags meas due s₂ s₃
  have hstatus : s₃.rget (R.SEQ_STATUS u) = s.rget (R.SEQ_STATUS u) :=
    State.rget_rset_other _ _ (by unfold R.SEQ_STATUS R.PMU_MEAS; omega)
  have hidle : s₃.stepState u ≠ stRunning := by rwa [State.stepState, State.fget_congr hstatus]
  exact if_pos (by simp [hidle])

theorem State.averaged_spec (s : State) (ch : Nat) :
    let t := s.averaged ch
    (t.chan ch).pmuN = 0 ∧ t.rget (R.PMU_MEAS ch) = (s.chan ch).meas ∧ t.mem = s.mem ∧ t.tiles = s.tiles ∧
      ∀ m ∈ s.measures, m.n 0 = ch → m ∉ t.measures ∧ (m, (s.chan ch).meas) ∈ t.measured := by
  refine ⟨?_, State.rget_rset_same .., rfl, rfl, fun m hm hn => ⟨fun hwaits => ?_, ?_⟩⟩
  · exact congrArg ChanCtx.pmuN ((State.chan_setChan ..).trans (if_pos rfl))
  · exact absurd hn (by simpa using (List.mem_filter.1 hwaits).2)
  · exact List.mem_append_right _ (List.mem_map.2 ⟨m, List.mem_filter.2 ⟨hm, beq_iff_eq.2 hn⟩, rfl⟩)

/-! ## Conversions of a tile with no WAVE record waiting (06_pin_electronics.md R160, R161) -/

/-- A conversion that does not end its average. -/
theorem doPmuConversion_adds {ch : Fin 1024} {i : Nat} {k : Quad} (h : s.converter ch i none = some k)
    (hwaves : (s.tile (ch / 16)).cap.waves = []) (hfew : (s.chan ch).pmuN + 1 < 2 ^ s.fget (R.PMU_CFG_AVG ch)) (code : Int) (clamped : Bool) :
    ∃ time, doPmuConversion ch code clamped i none s = s.converted ch code (s.clampActs ch code clamped) k time := by
  obtain ⟨time, heq⟩ := doPmuConversion_eq h code clamped
  obtain ⟨-, -, -, -, htiles, -⟩ := s.converted_spec ch code (s.clampActs ch code clamped) k time
  simp only [if_neg (Nat.not_le.2 hfew)] at heq
  exact ⟨time, heq.trans (State.putWaves_none (by rw [State.tile_congr htiles, hwaves]) ..)⟩

/-- The last conversion of an average in a tile that is not RUNNING. -/
theorem doPmuConversion_updates {ch : Fin 1024} {i : Nat} {k : Quad} (h : s.converter ch i none = some k)
    (hwaves : (s.tile (ch / 16)).cap.waves = []) (hlast : 2 ^ s.fget (R.PMU_CFG_AVG ch) ≤ (s.chan ch).pmuN + 1)
    (hstep : s.stepState (ch / 16) ≠ stRunning) (code : Int) (clamped : Bool) :
    ∃ time, doPmuConversion ch code clamped i none s = (s.converted ch code (s.clampActs ch code clamped) k time).averaged ch := by
  obtain ⟨time, heq⟩ := doPmuConversion_eq h code clamped
  obtain ⟨-, -, hregs, -, htiles, -⟩ := s.converted_spec ch code (s.clampActs ch code clamped) k time
  obtain ⟨-, -, -, htiles', -⟩ := (s.converted ch code (s.clampActs ch code clamped) k time).averaged_spec ch
  have hstatus := hregs (R.SEQ_STATUS (ch / 16)) (by simp [R.SEQ_STATUS, R.CH_STATUS]; omega)
  have hidle : (s.converted ch code (s.clampActs ch code clamped) k time).stepState (ch / 16) ≠ stRunning := by
    rwa [State.stepState, State.fget_congr hstatus]
  simp only [if_pos hlast, State.waveSample_not_running hidle] at heq
  exact ⟨time, heq.trans (State.putWaves_none (by rw [State.tile_congr htiles', State.tile_congr htiles, hwaves]) ..)⟩

/-! ## The statement -/

/-- Settles O26: a MEASURE joins those that wait, a reply answers each whose update has come, and a conversion is followed to its sum and, where it
is the last of an average, to the update of PMU_MEAS. -/
theorem measures : Obligations.Measures := by
  unfold Obligations.Measures
  refine ⟨?_, ?_, ?_⟩
  · intro q s hruns hch hhidden hmode
    have hexec : exec (.measure q) s = .next (doMeasure q s) := congrArg Host.Outcome.next (State.byTable_of_runs hruns _)
    rw [doMeasure_eq hruns hch hhidden hmode] at hexec
    exact ⟨_, hexec, rfl, .of_mem s.routine_counts.mem, s.routine_counts.regs⟩
  · intro ch s
    obtain ⟨hleaves, hanswered⟩ := State.foldl_measureAnswer_spec ch (s.measured.filter fun (m : Req × Word) => m.1.n 0 == ch.val)
      { s with measured := s.measured.filter fun (m : Req × Word) => m.1.n 0 != ch.val }
    rw [← doMeasureReply_eq] at hleaves hanswered
    exact ⟨_, rfl, hleaves.measured, hleaves.measures, fun m hm hn => hanswered m (List.mem_filter.2 ⟨hm, beq_iff_eq.2 hn⟩),
      .of_mem hleaves.mem⟩
  · intro ch code clamped i s hserves hwaves v c cl
    obtain ⟨k, hk⟩ := Option.ne_none_iff_exists'.1 hserves
    refine ⟨fun hfew => ?_, fun hlast hstep => ?_⟩
    · obtain ⟨time, hconv⟩ := doPmuConversion_adds hk hwaves hfew code clamped
      obtain ⟨hchan, hclamp, hregs, hmem, -⟩ := s.converted_spec ch code cl k time
      exact ⟨_, congrArg Host.Outcome.next hconv, congrArg ChanCtx.pmuSum hchan, congrArg ChanCtx.pmuN hchan, hclamp,
        hregs _ (by simp [R.PMU_MEAS, R.CH_STATUS]), .of_mem hmem⟩
    · obtain ⟨time, hconv⟩ := doPmuConversion_updates hk hwaves hlast hstep code clamped
      obtain ⟨hchan, -, -, hmem, -, hmeasures⟩ := s.converted_spec ch code cl k time
      obtain ⟨hempty, hmeas, hmem', -, hupdate⟩ := (s.converted ch code cl k time).averaged_spec ch
      rw [hmeasures, ← hmeas] at hupdate
      exact ⟨_, congrArg Host.Outcome.next hconv, hempty, hmeas.trans (by rw [hchan]; rfl), hupdate, .of_mem (hmem'.trans hmem)⟩

end Sys2Proof.Machine
end

section
/-! SUPPORT. Measured items enter the pending set, and a commit brings them into force (09_calibration.md R227, R231 to R233). -/

namespace Sys2Proof.Machine

variable {s t : State}

/-! ## Items enter the pending set (R227, R231) -/

/-- CAL_PEND and CAL_STATUS, which follow the pending set. -/
def pendReg (a : Nat) : Bool := a == R.CAL_PEND || a == R.CAL_STATUS

theorem State.syncPending_regsOnly (s : State) : RegsOnly pendReg s s.syncPending :=
  ((RegsOnly.refl s).fset (f := R.CAL_PEND_COUNT) (by decide) _).fset (f := R.CAL_STATUS_PENDING) (by decide) _

theorem State.syncPending_flag (s : State) : s.syncPending.flag R.CAL_STATUS_PENDING = !s.calPend.isEmpty :=
  State.flag_setFlag_same _ _ (by decide) (by decide)

/-- A set that holds an item under some key is not empty. -/
theorem isEmpty_eq_false_of_get {l : Store (Option CalItem)} {k : Nat} {it : CalItem} (h : Store.get (fun _ => none) l k = some it) :
    l.isEmpty = false := by
  cases l with
  | nil => exact absurd h (by simp [Store.get])
  | cons e l => rfl

/-- A channel's item that is not rejected is the newest pending one of its key, marked in CH_CAL_STAT. -/
theorem State.calEnter_spec {m : CalMeas} (tj : Int) (hsubj : m.subj.val ≠ 5) (hgood : s.calRejected m = false) :
    ∃ it, Store.get (fun _ => none) (s.calEnter m tj).calPend (calKey m.chan m.subj) = some it ∧
      it.values = measResult m ∧ it.tj = tj ∧ it.hours = (s.rget R.MRN_HOURS).toNat ∧ it.measured = true ∧
      ((s.calEnter m tj).rget (R.CH_CAL_STAT m.chan)).getLsbD m.subj.val = true ∧
      (s.calEnter m tj).flag R.CAL_STATUS_PENDING = true ∧ (s.calEnter m tj).mem = s.mem ∧
      RegsSame (fun a => a == R.CH_CAL_STAT m.chan || a == R.CAL_PEND || a == R.CAL_STATUS) s (s.calEnter m tj) := by
  have hlt : m.subj.val < 5 := by omega
  unfold State.calEnter
  extract_lets ch subj it s₁ s₂
  rw [if_neg (by simp [hgood])]
  have hs₂ : s₂ = s₁.rset (R.CH_CAL_STAT ch) (s₁.rget (R.CH_CAL_STAT ch) ||| BitVec.ofNat 32 (2 ^ subj)) := if_pos hlt
  have hget : Store.get (fun _ => none) s₂.calPend (calKey ch subj) = some it := by
    rw [hs₂, State.rset_calPend, show calKey ch subj = calMeasKey m from (if_neg hsubj).symm]
    exact Store.get_put_same s.calPend _ (some it)
  have hsync := s₂.syncPending_regsOnly
  have hbit : s₂.rget (R.CH_CAL_STAT ch) = s₁.rget (R.CH_CAL_STAT ch) ||| BitVec.ofNat 32 (2 ^ subj) := by
    rw [hs₂, State.rget_rset_same]
  refine ⟨it, hget, rfl, rfl, rfl, rfl, ?_, ?_, hsync.mem.trans (by rw [hs₂]; rfl), ?_⟩
  · rw [hsync.regs _ (by simp only [pendReg, R.CH_CAL_STAT, R.CAL_PEND, R.CAL_STATUS]; simp; omega), hbit]
    rw [getLsbD_or_bit _ _ _ (by omega), decide_eq_true rfl, Bool.or_true]
  · rw [State.syncPending_flag, isEmpty_eq_false_of_get hget]
    rfl
  · have h₁ : RegsSame (fun a => a == R.CH_CAL_STAT ch || a == R.CAL_PEND || a == R.CAL_STATUS) s s₂ :=
      hs₂ ▸ RegsSame.rset s₁ (by simp) _
    exact h₁.trans (hsync.regs.mono fun a ha => by simp_all [pendReg, or_assoc])

/-- A measurement that background calibration has made undisturbed, as its conditions allow, is entered; tracking enters what it finds. -/
theorem doBackgroundMeasurement_eq {m : CalMeas} (hbg : s.calBackground m.subj.val = true) (hsubj : m.subj.val ≠ 5)
    (hquiet : s.undisturbed m = true) (hallowed : s.calAllowed m.chan.val m.subj.val = true ∨ s.calTracks m.chan.val m.subj.val = true) :
    doBackgroundMeasurement m s =
      s.calEnter (if s.calAllowed m.chan.val m.subj.val then m else s.tracked m) (s.rowTj m.chan) := by
  unfold doBackgroundMeasurement
  extract_lets ch enter
  rw [if_neg (by simp [hbg, hsubj, hquiet])]
  by_cases h : s.calAllowed m.chan.val m.subj.val = true
  · simp only [h, ch, enter, if_true]
  · simp only [ch, enter, h, hallowed.resolve_left h, if_true, if_false, Bool.false_eq_true]

/-! ## A commit (R232, R233) -/

/-- The newest items once those of a pending set have come into force. -/
def newestOf (m : Store CalItem) (l : Store (Option CalItem)) : Store CalItem :=
  l.foldl (fun m e => match e.2 with
    | some it => Store.put (fun _ => {}) m e.1 it
    | none => m) m

/-- Keys that the set does not hold keep their items. -/
theorem get_newestOf_other {m : Store CalItem} {l : Store (Option CalItem)} {k : Nat} (h : ∀ e ∈ l, e.1 ≠ k) :
    Store.get (fun _ => {}) (newestOf m l) k = Store.get (fun _ => {}) m k := by
  induction l generalizing m with
  | nil => rfl
  | cons e l ih =>
    obtain ⟨hk, hl⟩ := List.forall_mem_cons.1 h
    refine (ih hl).trans ?_
    rcases e with ⟨j, _ | it⟩
    · rfl
    · exact Store.get_put_other _ _ hk.symm

/-- The items of a pending set, which names each key once, are the newest of their keys. -/
theorem get_newestOf {m : Store CalItem} {l : Store (Option CalItem)} {k : Nat} {it : CalItem}
    (hwf : Store.wf (fun _ => none) l = true) (hk : Store.get (fun _ => none) l k = some it) :
    Store.get (fun _ => {}) (newestOf m l) k = it := by
  induction l generalizing m with
  | nil => exact absurd hk (by simp [Store.get])
  | cons e l ih =>
    obtain ⟨j, v⟩ := e
    obtain ⟨-, hrise, hrest⟩ := Store.wf_cons.1 hwf
    by_cases hj : j = k
    · obtain rfl : v = some it := by simpa [Store.get, hj] using hk
      subst hj
      exact (get_newestOf_other fun e he => (hrise e he).ne').trans (Store.get_put_same ..)
    · exact ih hrest (by simpa [Store.get, hj] using hk)

/-- The items of a pending set come into force one after another, and nothing else changes. -/
theorem foldl_newest_eq (l : Store (Option CalItem)) (s : State) :
    l.foldl (fun (s : State) e => match e.2 with
      | some it => { s with calNew := Store.put (fun _ => {}) s.calNew e.1 it }
      | none => s) s = { s with calNew := newestOf s.calNew l } := by
  induction l generalizing s with
  | nil => rfl
  | cons e l ih =>
    refine (ih _).trans ?_
    rcases e with ⟨j, _ | it⟩ <;> rfl

/-- The registers of a commit: those of the pending set, the epoch, the SYNC deskew, and CH_CAL_STAT of the channels. -/
def commitReg (a : Nat) : Bool :=
  pendReg a || a == R.CAL_EPOCH || a == R.SYNC_DESKEW || decide (0x500000 ≤ a)

theorem CH_CAL_STAT_ge (ch : Nat) : 0x500000 ≤ R.CH_CAL_STAT ch := by
  unfold R.CH_CAL_STAT; omega

theorem commitReg_SEQ_STATUS {u : Nat} (hu : u < 64) : commitReg (R.SEQ_STATUS u) = false := by
  simp [commitReg, pendReg, R.SEQ_STATUS, R.CAL_PEND, R.CAL_STATUS, R.CAL_EPOCH, R.SYNC_DESKEW]; omega

/-- A field that is the whole word takes the number and reads as it. -/
theorem setField_word (w : Word) (v : Nat) : setField w 31 0 v = BitVec.ofNat 32 v := by
  have hmask : BitVec.ofNat 32 ((2 ^ (31 - 0 + 1) - 1) * 2 ^ 0) = BitVec.allOnes 32 := by decide
  rw [setField, hmask, BitVec.not_allOnes, BitVec.and_zero, BitVec.zero_or, BitVec.and_allOnes, Nat.pow_zero, Nat.mul_one]

theorem field_word (w : Word) : field w 31 0 = w.toNat := by
  rw [field, Nat.pow_zero, Nat.div_one, Nat.mod_eq_of_lt w.isLt]

theorem State.rget_epoch_raised (s : State) :
    (s.fset R.CAL_EPOCH_EPOCH (s.fget R.CAL_EPOCH_EPOCH + 1)).rget R.CAL_EPOCH = s.rget R.CAL_EPOCH + 1 := by
  have hold : s.fget R.CAL_EPOCH_EPOCH = (s.rget R.CAL_EPOCH).toNat := field_word _
  refine (State.rget_rset_same ..).trans ((setField_word ..).trans ?_)
  rw [hold, BitVec.ofNat_add, BitVec.ofNat_toNat, BitVec.setWidth_eq]
  rfl

/-- What a commit with no tile IDLE does: the pending items are the newest, none is pending, and the epoch is raised by one. -/
structure Commits (s t : State) : Prop where
  same : { t with regs := s.regs, calPend := s.calPend, calNew := s.calNew, commitAt := s.commitAt } = s
  calPend : t.calPend = []
  calNew : t.calNew = newestOf s.calNew s.calPend
  epoch : t.rget R.CAL_EPOCH = s.rget R.CAL_EPOCH + 1

theorem Commits.mem (h : Commits s t) : t.mem = s.mem := (congrArg State.mem h.same :)

theorem Commits.calNewest (h : Commits s t) (hwf : Store.wf (fun _ => none) s.calPend = true) {k : Nat} {it : CalItem}
    (hk : Store.get (fun _ => none) s.calPend k = some it) : t.calNewest k = it := by
  rw [State.calNewest, h.calNew, get_newestOf hwf hk]

/-- Where no tile is IDLE, none applies the new state at once. -/
theorem State.foldl_boundary_not_idle (h : ∀ u, u < 64 → s.idle u = false) :
    (List.range 64).foldl (fun (s : State) t => if s.idle t then s.boundary t else s) s = s :=
  List.foldlRecOn (motive := (· = s)) _ _ rfl fun r hr u hu => by
    rw [hr, if_neg (by simp [h u (List.mem_range.1 hu)])]

theorem State.commit_commits (hpend : s.calPend ≠ []) (hidle : ∀ u, u < 64 → s.idle u = false) : Commits s s.commit := by
  unfold State.commit
  rw [if_neg (by simpa using hpend)]
  extract_lets items s₁ s₂ s₃ s₄
  have hs₁ : s₁ = { s with calPend := [], commitAt := s.now, calNew := newestOf s.calNew s.calPend } := foldl_newest_eq ..
  have h₂ : RegsOnly (fun a => decide (0x500000 ≤ a)) s₁ s₂ := List.foldlRecOn _ _ (.refl s₁) fun r hr e _ => by
    split
    · exact hr
    · exact hr.fset (f := R.CH_CAL_STAT_PEND (e.1 / 8)) (decide_eq_true (CH_CAL_STAT_ge _)) _
  have hcommit : RegsOnly commitReg s₁ s₂ := ⟨h₂.same, h₂.regs.mono fun a ha => by simp [commitReg, of_decide_eq_true ha]⟩
  have h₃ : RegsOnly commitReg s₁ s₃ := hcommit.fset (f := R.CAL_EPOCH_EPOCH) (by decide) _
  have hepoch : s₃.rget R.CAL_EPOCH = s.rget R.CAL_EPOCH + 1 := by
    have hold : s₂.rget R.CAL_EPOCH = s.rget R.CAL_EPOCH := (h₂.regs _ (by decide)).trans (by rw [hs₁]; rfl)
    exact s₂.rget_epoch_raised.trans (by rw [hold])
  have h₄ : RegsOnly commitReg s₁ s₄ ∧ s₄.rget R.CAL_EPOCH = s₃.rget R.CAL_EPOCH := by
    unfold s₄
    split
    · exact ⟨h₃.fset (f := R.SYNC_DESKEW_DESKEW) (by decide) _, State.rget_fset_other _ _ (by decide)⟩
    · exact ⟨h₃, rfl⟩
  have h₅ : RegsOnly commitReg s₁ s₄.syncPending :=
    (h₄.1.fset (f := R.CAL_PEND_COUNT) (by decide) _).fset (f := R.CAL_STATUS_PENDING) (by decide) _
  have hidle₅ : ∀ u, u < 64 → s₄.syncPending.idle u = false := fun u hu => by
    have hstate : s₄.syncPending.stepState u = s₁.stepState u := State.fget_congr (h₅.regs _ (commitReg_SEQ_STATUS hu))
    rw [State.idle, hstate, hs₁]
    exact hidle u hu
  rw [State.foldl_boundary_not_idle hidle₅]
  refine ⟨?_, ?_, ?_, ?_⟩
  · exact (congrArg (fun x : State => ({ x with
      regs := s.regs, calPend := s.calPend, calNew := s.calNew, commitAt := s.commitAt } : State)) h₅.same).trans (by rw [hs₁])
  · exact (congrArg State.calPend h₅.same :).trans (by rw [hs₁])
  · exact (congrArg State.calNew h₅.same :).trans (by rw [hs₁])
  · exact (s₄.syncPending_regsOnly.regs _ (by decide)).trans (h₄.2.trans hepoch)

/-- Behind a routine of the ROM throttle stage 1 and the tiles that are IDLE are as before it. -/
theorem Counts.stage1 (h : Counts s t) : t.stage1 = s.stage1 :=
  congrArg (· % 2 == 1) (State.fget_congr (f := R.THR_STATUS_STAGES) (h.regs _ (by decide)))

theorem Counts.idle (h : Counts s t) (u : Nat) : t.idle u = s.idle u :=
  congrArg (· == stIdle) (State.fget_congr (f := R.SEQ_STATUS_STATE u) (h.rget_ge (by simp only [R.SEQ_STATUS_STATE, R.SEQ_STATUS]; omega)))

theorem doCalCommit_eq {q : Req} (hruns : s.runs 0x51 q = true) (hstage : s.stage1 = false) :
    doCalCommit q s = s.routine.commit.reply 0x51 q St.ok [s.routine.commit.rget R.CAL_EPOCH] := by
  rw [doCalCommit, State.request_of_runs hruns rfl]
  simp only [s.routine_counts.stage1, hstage, Bool.false_eq_true, if_false]

/-! ## The statement -/

/-- Settles O28: a good item is entered as the newest pending one, and a commit with no tile IDLE is followed to the epoch it raises. -/
theorem calibrationItems : Obligations.CalibrationItems := by
  unfold Obligations.CalibrationItems
  refine ⟨?_, ?_⟩
  · intro m s hbg hsubj hquiet hallowed n hgood
    have hexec : exec (.backgroundMeasurement m) s = .next (s.calEnter n (s.rowTj m.chan)) :=
      congrArg Host.Outcome.next (doBackgroundMeasurement_eq hbg hsubj hquiet hallowed)
    have hn : n.chan = m.chan ∧ n.subj = m.subj := by
      unfold n
      split <;> exact ⟨rfl, rfl⟩
    obtain ⟨it, hget, hvalues, htj, hhours, hmeasured, hbit, hflag, hmem, hregs⟩ := State.calEnter_spec (s.rowTj m.chan) (by rwa [hn.2]) hgood
    rw [hn.1, hn.2] at hget hbit
    rw [hn.1] at hregs
    exact ⟨_, it, hexec, hget, hvalues, htj, hhours, hmeasured, hbit, hflag, .of_mem hmem, hregs⟩
  · intro s hpend hstage hidle hwf
    refine ⟨fun hauto hdue => ?_, fun q hruns => ?_⟩
    · have hcommits := State.commit_commits hpend hidle
      have hexec : exec .calAutoCommit s = .next s.commit := congrArg Host.Outcome.next (if_pos (by simp [hauto, hstage, hdue]))
      exact ⟨_, hexec, hcommits.calPend, .of_mem hcommits.mem, hcommits.epoch, fun k it => hcommits.calNewest hwf⟩
    · have hcounts := s.routine_counts
      have hcommits : Commits s.routine s.routine.commit :=
        State.commit_commits (by rwa [hcounts.calPend]) fun u hu => (hcounts.idle u).trans (hidle u hu)
      have hepoch : s.routine.commit.rget R.CAL_EPOCH = s.rget R.CAL_EPOCH + 1 :=
        hcommits.epoch.trans (congrArg (· + 1) (hcounts.regs _ (by decide)))
      have hreply := s.routine.commit.reply_replies 0x51 q St.ok [s.rget R.CAL_EPOCH + 1] []
      have hexec : exec (.calCommit q) s = .next (s.routine.commit.reply 0x51 q St.ok [s.rget R.CAL_EPOCH + 1]) :=
        congrArg Host.Outcome.next ((State.byTable_of_runs hruns _).trans (by rw [doCalCommit_eq hruns hstage, hepoch]))
      refine ⟨_, hexec, hreply.calPend.trans hcommits.calPend, .of_mem (hreply.mem.trans (hcommits.mem.trans hcounts.mem)),
        (hreply.regs _ ?_).trans hepoch, State.reply_answered _ 0x51 q St.ok _ [], fun k it hk => ?_⟩
      · simp only [R.CAL_EPOCH, R.SESS_STAT]
        omega
      · rw [State.calNewest, hreply.calNew]
        exact hcommits.calNewest (by rwa [hcounts.calPend]) (by rwa [hcounts.calPend])

end Sys2Proof.Machine
end

section
/-! SUPPORT. CAL_RUN_DONE with COMMIT: the commit takes the boundary actions of every IDLE tile, and a fence that waits there erases what a
bundle keeps in the tile's stores (01_architecture.md R29; 09_calibration.md R232, R239; 15_safety_faults.md R377; 13_security.md Table 13.14). -/

namespace Sys2Proof.Machine

/-- A run of subject 0 on tile 0 with COMMIT. -/
def committingRun : Split := { id := 5, opcode := 0x50, session := 0, tag := 7, params := [1, 1, 0, 2], aux := [0] }

/-- Tile 0 is IDLE and DORMANT and holds bundle 0, every other tile is ARMED. -/
def fenceWaitingFields : List (Fld × Nat) :=
  [(R.BUNDLE_CTL_VALID 0, 1), (⟨R.BUNDLE_TILES_LO 0, 0, 0⟩, 1), (R.TILE_PWR_STATE 0, 2)] ++
    (List.range 63).map fun u => (R.SEQ_STATUS_STATE (u + 1), stArmed)

/-- The run is in progress, and as tile 0 is DORMANT none of its channels is to be measured. An item is pending from before, the bundle keeps a
byte in a store of tile 0, and a fence of the tile waits. -/
def fenceWaiting : State :=
  { (fenceWaitingFields.foldl (fun (s : State) e => s.fset e.1 e.2) State.reset).mset 2 0 0 7 with
    splits := [committingRun]
    calPend := [(calKey 0 0, some { measured := true })]
    fenceReq := [{ kind := 1, unit := 0 }] }

theorem fenceWaiting_nothing_to_measure : ∀ j < 5, ∀ ch ∈ (tilesOf 1 0).flatMap chansOf, fenceWaiting.calFree ch j = false := by
  decide +kernel

/-- The byte that the bundle keeps in tile 0 is gone behind the commit of the run. -/
theorem doCalRunDone_erases : (doCalRunDone ⟨0, 7⟩ [] fenceWaiting).mget 2 0 0 = 0 := by decide +kernel

/-- Refutes O29: a run that completes with COMMIT does not leave every byte of memory, for the commit applies a fence that waits for an IDLE
tile, and a fenced tile loses its sealed contents. -/
theorem not_calibrationRuns : ¬ Obligations.CalibrationRuns := by
  unfold Obligations.CalibrationRuns
  rintro ⟨-, hdone, -⟩
  have hrun : fenceWaiting.split? 0x50 ⟨0, 7⟩ = some committingRun := rfl
  obtain ⟨hwhole, -⟩ := hdone ⟨0, 7⟩ [] fenceWaiting committingRun hrun (by decide) rfl (by decide +kernel)
  obtain ⟨t, hexec, -, -, hmem⟩ := hwhole (fun m hm => absurd hm List.not_mem_nil) fun j hj ch hch => by
    simp [fenceWaiting_nothing_to_measure j hj ch hch]
  obtain rfl : doCalRunDone ⟨0, 7⟩ [] fenceWaiting = t := Host.Outcome.next.inj hexec
  have hbyte : fenceWaiting.mget 2 0 0 = 7 := by decide +kernel
  have hkept := hmem 2 0 0
  rw [doCalRunDone_erases, hbyte] at hkept
  exact absurd hkept (by decide)

end Sys2Proof.Machine
end

section
/-! SUPPORT. The order of the checks on an arriving request (10_uhleus_protocol.md R254). -/

namespace Sys2Proof.Machine

/-- The status of the first of items 2 to 8 of R254 that fails; `a` to `g` say which fail. -/
def firstFailing (a b c d e f g : Prop) [Decidable a] [Decidable b] [Decidable c] [Decidable d] [Decidable e] [Decidable f] [Decidable g] :
    Option (BitVec 8) :=
  if a then some St.badOpcode else if b then some St.denied else if c then some St.badLength else if d then some St.exceedsWindow
  else if e then some St.denied else if f then some St.badParam else if g then some St.crcError else none

/-- The seven checks of `State.accept` as propositions. -/
theorem State.accept_eq (s : State) (op : BitVec 8) (q : Req) : s.accept op q =
    firstFailing (q.hver ≠ 1 ∨ q.kind ≠ 0 ∨ op.toNat ∉ opcodes) (op ≠ 0x01 ∧ s.sessOpen q.session.toNat = false)
      (lengthOk op q.params.length q.payload.length (q.n 1) = false)
      (q.noSlot = true ∨ q.overrun = true ∨
        (op ≠ 0x01 ∧ streaming op = false ∧ s.fget (R.SESS_STAT_WIN q.session.toNat) < cellsOf q.payload.length))
      (op ≠ 0x01 ∧ s.fget (R.SESS_STAT_PRIV q.session.toNat) < minPriv op) (2 ≤ q.flags.toNat)
      (trailerFirst op = true ∧ q.trailerOk = false) := by
  have hflags : q.flags.toNat / 2 ≠ 0 ↔ 2 ≤ q.flags.toNat := by omega
  simp only [State.accept, firstFailing, Bool.or_eq_true, Bool.and_eq_true, bne_iff_ne, Bool.not_eq_true', decide_eq_true_eq, or_assoc,
    and_assoc, hflags, List.contains_eq_mem, decide_eq_false_iff_not]

/-- A status answers exactly where its check fails and none before it does; DENIED answers for two checks. -/
theorem firstFailing_iff (a b c d e f g : Prop) [Decidable a] [Decidable b] [Decidable c] [Decidable d] [Decidable e] [Decidable f]
    [Decidable g] :
    (firstFailing a b c d e f g = some St.badOpcode ↔ a) ∧
    (firstFailing a b c d e f g = some St.badLength ↔ ¬a ∧ ¬b ∧ c) ∧
    (firstFailing a b c d e f g = some St.exceedsWindow ↔ ¬a ∧ ¬b ∧ ¬c ∧ d) ∧
    (firstFailing a b c d e f g = some St.denied ↔ ¬a ∧ (b ∨ (¬c ∧ ¬d ∧ e))) ∧
    (firstFailing a b c d e f g = some St.badParam ↔ ¬a ∧ ¬b ∧ ¬c ∧ ¬d ∧ ¬e ∧ f) ∧
    (firstFailing a b c d e f g = some St.crcError ↔ ¬a ∧ ¬b ∧ ¬c ∧ ¬d ∧ ¬e ∧ ¬f ∧ g) ∧
    (firstFailing a b c d e f g = none ↔ ¬a ∧ ¬b ∧ ¬c ∧ ¬d ∧ ¬e ∧ ¬f ∧ ¬g) := by
  simp only [firstFailing, St.badOpcode, St.denied, St.badLength, St.exceedsWindow, St.badParam, St.crcError]
  by_cases ha : a
  · simp [ha]
  by_cases hb : b
  · simp [ha, hb]
  by_cases hc : c
  · simp [ha, hb, hc]
  by_cases hd : d
  · simp [ha, hb, hc, hd]
  by_cases he : e
  · simp [ha, hb, hc, hd, he]
  by_cases hf : f
  · simp [ha, hb, hc, hd, he, hf]
  by_cases hg : g
  · simp [ha, hb, hc, hd, he, hf, hg]
  · simp [ha, hb, hc, hd, he, hf, hg]

/-- An accepted request has parameters and payload as Table 10.2 has them. -/
theorem State.lengthOk_of_runs {s : State} {op : BitVec 8} {q : Req} (h : s.runs op q = true) :
    lengthOk op q.params.length q.payload.length (q.n 1) = true := by
  have haccept : s.accept op q = none := by simpa using (Bool.and_eq_true_iff.1 h).2
  rw [s.accept_eq] at haccept
  obtain ⟨-, -, hlength, -⟩ := (firstFailing_iff ..).2.2.2.2.2.2.1 haccept
  simpa using hlength

/-- Settles O8: the checks are met in their order, and the first that fails names the status. -/
theorem acceptOrder : Obligations.AcceptOrder := by
  unfold Obligations.AcceptOrder
  intro s op q n badOp closed badLen tooMuch low badFlags badTrailer
  rw [s.accept_eq]
  exact firstFailing_iff ..

end Sys2Proof.Machine
end

section
/-! SUPPORT. A request that fails a check of R254 ends at the error exit of its routine (10_uhleus_protocol.md R243, R254). -/

namespace Sys2Proof.Machine

variable {s : State} {op : BitVec 8} {q : Req} {st : BitVec 8}

/-- Where a request's routine checks it first, the routine is the error exit with the failing check's status. -/
theorem State.request_of_accept (h : s.accept op q = some st) (act : State → State) : s.request op q act = s.routine.fail op q st := by
  simp [State.request, h]

theorem State.byTable_of_not_overridden (h : s.overridden op q = false) (rom : State → State) : s.byTable op q rom = rom s := by
  simp [State.byTable, h]

/-- Settles O7: each of the routines begins with the checks of R254. -/
theorem requestRefused : Obligations.RequestRefused := by
  unfold Obligations.RequestRefused
  intro q s op c st hcmd hstrm htable hacc
  obtain ⟨rom, act, hexec, hdo⟩ : ∃ (rom : State → State) (act : State → State),
      exec c s = .next (s.byTable op q rom) ∧ rom s = s.request op q act := by
    simp only [List.mem_cons, List.not_mem_nil, or_false, Prod.mk.injEq] at hcmd
    rcases hcmd with ⟨rfl, rfl⟩ | ⟨rfl, rfl⟩ | ⟨rfl, rfl⟩ | ⟨rfl, rfl⟩ | ⟨rfl, rfl⟩ | ⟨rfl, rfl⟩ | ⟨rfl, rfl⟩ | ⟨rfl, rfl⟩ | ⟨rfl, rfl⟩
    case inr.inr.inr.inl =>
      have hsession : segStrm q = false := hstrm rfl
      exact ⟨doSegCommit q, _, rfl, by rw [doSegCommit, hsession]; exact if_neg Bool.false_ne_true⟩
    all_goals exact ⟨_, _, rfl, rfl⟩
  rw [State.byTable_of_not_overridden htable, hdo, State.request_of_accept hacc] at hexec
  exact ⟨_, hexec, s.routine_fail_completes op q st 0⟩

end Sys2Proof.Machine
end

section
/-! SUPPORT. PING (10_uhleus_protocol.md Table 10.6, R255). -/

namespace Sys2Proof.Machine

/-- A reply that QUIET suppresses queues no packet. -/
theorem State.reply_txq_of_quiet {s : State} {op : BitVec 8} {q : Req} {st : BitVec 8} (hquiet : q.flags.getLsbD 0 = true)
    (hst : quietable st = true) (ps : List Word) (pl : List Byte) : (s.reply op q st ps pl).txq = s.txq := by
  unfold State.reply
  extract_lets n took back s₁
  rw [if_pos (by rw [hquiet, hst]; rfl)]
  show s₁.txq = s.txq
  unfold s₁
  split <;> rfl

/-- Settles O10: the routine reads the system time, which it leaves, and replies. -/
theorem pingEchoes : Obligations.PingEchoes := by
  unfold Obligations.PingEchoes
  intro q s hruns
  have hcounts := s.routine_counts
  have hexec : exec (.ping q) s = .next (doPing q s) := congrArg Host.Outcome.next (State.byTable_of_runs hruns _)
  rw [doPing, State.request_of_runs hruns rfl, hcounts.sysTime] at hexec
  obtain ⟨hanswer, hmem, hregs⟩ :=
    s.routine_reply_spec 0x03 q St.ok [s.sysTime.setWidth 32, (s.sysTime >>> 32).setWidth 32] q.payload
  exact ⟨_, hexec, hanswer, fun hquiet => (State.reply_txq_of_quiet hquiet rfl _ _).trans hcounts.txq,
    (State.reply_replies ..).sysTime.trans hcounts.sysTime, hmem, hregs⟩

end Sys2Proof.Machine
end

section
/-! SUPPORT. EVENT_WAIT and its completion, and ABORT of an operation and of steps (10_uhleus_protocol.md R257, R258, R266). -/

namespace Sys2Proof.Machine

variable {s t : State}

/-! ## EVENT_WAIT (R266) -/

/-- The start of an operation changes no byte of memory and of the registers the operations in progress, the session's slot count and the event
counters only. -/
theorem State.start_frame (s : State) (op : BitVec 8) (q : Req) :
    (s.start op q).mem = s.mem ∧ RegsSame (fun a => counting a || a == R.SESS_STAT q.session.toNat || a == R.ENG_STATUS) s (s.start op q) := by
  unfold State.start State.register
  extract_lets x s₁
  have hcount := State.evCount_counts (s₁.fset R.ENG_STATUS_SPLIT s₁.splits.length) 3 1 none
  have hreply := State.reply_replies ((s₁.fset R.ENG_STATUS_SPLIT s₁.splits.length).evCount 3) op q St.accepted [] []
  refine ⟨hreply.mem.trans hcount.mem, fun a ha => ?_⟩
  obtain ⟨⟨hcounting, hsess⟩, hstatus⟩ : (counting a = false ∧ a ≠ R.SESS_STAT q.session.toNat) ∧ a ≠ R.ENG_STATUS := by simpa using ha
  exact (hreply.regs a hsess).trans ((hcount.regs a hcounting).trans (State.rget_fset_other _ _ hstatus))

/-- An accepted EVENT_WAIT whose checks pass starts its operation. -/
theorem doEventWait_starts {q : Req} (hruns : s.runs 0x34 q = true) (hkind : q.n 0 < 3) (hevent : q.n 0 = 2 → q.n 1 < 65536)
    (hfew : (s.splits.filter fun (x : Split) => x.opcode == 0x34).length < 16) (hroom : s.splits.length < 256)
    (hhold : s.flag R.ENG_STATUS_HOLDING = false) : doEventWait q s = s.routine.start 0x34 q := by
  have hparams : ¬(3 ≤ q.n 0 ∨ (q.n 0 = 2 ∧ 65536 ≤ q.n 1)) := by omega
  rw [doEventWait, State.request_of_runs_free hruns hhold]
  simp only [s.routine_counts.splits]
  rw [if_neg hparams, if_neg (by omega)]

/-- The oldest operation of its session and tag that waits for an event is the oldest whose wait has ended, once its own has. -/
theorem doEventWaitDone_completes {o : OpRef} {timeout : Bool} {x : Split} (hx : s.split? 0x34 o = some x)
    (hended : s.waitMet x = true ∨ (timeout = true ∧ x.params.getD 3 0 ≠ 0)) :
    doEventWaitDone o timeout s = s.complete x St.ok [if s.waitMet x then 1 else 0] := by
  have hended : (s.waitMet x || (timeout && x.params.getD 3 0 != 0)) = true := by simpa using hended
  have hfind : s.splits.find? (fun (x : Split) => x.opcode == 0x34 && x.session == o.session && x.tag == o.tag &&
      (s.waitMet x || (timeout && x.params.getD 3 0 != 0))) = some x := by
    obtain ⟨hmatch, before, after, hsplits, hbefore⟩ := List.find?_eq_some_iff_append.1 hx
    refine List.find?_eq_some_iff_append.2 ⟨by rw [hmatch, hended]; rfl, before, after, hsplits, fun y hy => ?_⟩
    have hother := hbefore y hy
    rw [Bool.not_eq_true'] at hother ⊢
    rw [hother, Bool.false_and]
  rw [doEventWaitDone, hfind]

/-! ## ABORT (R257, R258) -/

/-- Counting adds no request to those that wait. -/
theorem Counts.waiting (h : Counts s t) (n : Nat) : t.waiting n = s.waiting n := by
  obtain ⟨l, hl, hoverflow⟩ := h.items
  rw [State.waiting, hl, List.filterMap_append]
  refine (congrArg (_ ++ ·) (List.filterMap_eq_nil_iff.2 fun i hi => ?_)).trans (List.append_nil _)
  obtain ⟨m, rfl⟩ := hoverflow i hi
  rfl

theorem Counts.targetOf (h : Counts s t) (n : Nat) (tag : BitVec 16) : t.targetOf n tag = s.targetOf n tag := by
  simp only [State.targetOf, h.splits, h.writes, h.measures, h.measured, h.waiting]

/-- An operation that waits for an event is before its commit point until it completes, and has prepared nothing. -/
theorem State.abortOp_eventWait {n : Nat} {tag : BitVec 16} {x : Split} (htarget : s.targetOf n tag = some (.split x))
    (hop : x.opcode = 0x34) : s.abortOp n tag = some (s.complete x St.aborted) := by
  have hcommit : s.beforeCommit x = true := by simp [State.beforeCommit, hop]
  have hcancel : s.abortSplit x = s.complete x St.aborted := by simp [State.abortSplit, State.cancelSplit, hop]
  rw [State.abortOp, htarget]
  simp only [hcommit, if_true, hcancel]

/-- A reply brings back no operation. -/
theorem Over.reply {x : Split} (h : Over s x) (op : BitVec 8) (q : Req) (st : BitVec 8) (ps : List Word) (pl : List Byte) :
    Over (s.reply op q st ps pl) x := by
  unfold Over
  rwa [(State.reply_replies ..).splits]

theorem Completed.reply {x : Split} {st' : BitVec 8} (h : Completed s x st') (op : BitVec 8) (q : Req) (st : BitVec 8) (ps : List Word)
    (pl : List Byte) : Completed (s.reply op q st ps pl) x st' := by
  unfold Completed
  rwa [(State.reply_replies ..).items]

/-- An accepted ABORT of an operation of the session itself, where the oldest with the tag waits for an event. -/
theorem doAbort_eventWait {q : Req} {x : Split} (hruns : s.runs 0x33 q = true) (hkind : q.n 0 = 0) (hp : q.n 1 < 2 ^ 21)
    (hown : nbits (q.n 1) 20 16 = q.session.toNat)
    (htarget : s.targetOf q.session.toNat ((q.p 1).setWidth 16) = some (.split x)) (hop : x.opcode = 0x34) :
    doAbort q s = (s.routine.complete x St.aborted).reply 0x33 q St.ok := by
  have hroutine := State.abortOp_eventWait ((s.routine_counts.targetOf ..).trans htarget) hop
  rw [doAbort, State.request_of_runs hruns rfl]
  simp only [hkind, hown, hroutine, if_neg (Nat.not_le.2 hp), ne_eq, not_true_eq_false, false_and, if_false]

/-- An accepted ABORT of tiles of which some hold a step. -/
theorem doAbort_steps {q : Req} (hruns : s.runs 0x33 q = true) (hkind : q.n 0 = 1)
    (hsome : ((q.tiles 1).filter fun u => inStep (s.stepState u)) ≠ []) :
    let l := (q.tiles 1).filter fun u => inStep (s.stepState u)
    doAbort q s = (l.foldl (fun s u => s.abortStep u) s.routine).reply 0x33 q St.ok [(tileMask l).1, (tileMask l).2] := by
  have hstep (u : Nat) : s.routine.stepState u = s.stepState u := (StepSame.of_counts s.routine_counts).stepState
  rw [doAbort, State.request_of_runs hruns rfl]
  simp only [hkind, hstep]
  exact if_neg (by simpa using hsome)

/-- Settles O24: EVENT_WAIT starts its operation, EVENT_WAIT_DONE and ABORT complete it, and an ABORT of steps replies behind them. -/
theorem abortAndWait : Obligations.AbortAndWait := by
  unfold Obligations.AbortAndWait
  refine ⟨?_, ?_, ?_, ?_⟩
  · intro q s hruns hkind hevent hfew hroom hhold
    have hexec : exec (.eventWait q) s = .next (doEventWait q s) := congrArg Host.Outcome.next (State.byTable_of_runs hruns _)
    rw [doEventWait_starts hruns hkind hevent hfew hroom hhold] at hexec
    obtain ⟨hmem, hregs⟩ := s.routine.start_frame 0x34 q
    exact ⟨_, hexec, State.start_begun .., .of_mem (hmem.trans s.routine_counts.mem),
      (s.routine_counts.regs.mono fun a ha => by simp [ha]).trans hregs⟩
  · intro o timeout s x hx hended
    have hexec : exec (.eventWaitDone o timeout) s = .next (doEventWaitDone o timeout s) := rfl
    rw [doEventWaitDone_completes hx hended] at hexec
    have hcompletes := s.complete_completes x St.ok [if s.waitMet x then 1 else 0] [] .none
    exact ⟨_, hexec, State.complete_over _ _ _ _ _ _, State.complete_completed _ _ _ _ _ _, .of_mem hcompletes.mem,
      fun a ha => hcompletes.regs a (by simpa using ha)⟩
  · intro q s x hruns hkind hp hown htarget hop
    have hexec : exec (.abort q) s = .next (doAbort q s) := congrArg Host.Outcome.next (State.byTable_of_runs hruns _)
    rw [doAbort_eventWait hruns hkind hp hown htarget hop] at hexec
    exact ⟨_, hexec, State.reply_answered _ _ _ _ _ _, (State.complete_over _ _ _ _ _ _).reply _ _ _ _ _,
      (State.complete_completed _ _ _ _ _ _).reply _ _ _ _ _⟩
  · intro q s hruns hkind l hsome
    have hexec : exec (.abort q) s = .next (doAbort q s) := congrArg Host.Outcome.next (State.byTable_of_runs hruns _)
    rw [doAbort_steps hruns hkind hsome] at hexec
    exact ⟨_, hexec, State.reply_answered _ _ _ _ _ _⟩

end Sys2Proof.Machine
end

section
/-! SUPPORT. MEM_READ (10_uhleus_protocol.md R265; 14_memories.md R345, R346). -/

namespace Sys2Proof.Machine

variable {s t : State}

/-- Which words have an uncorrectable error is on record beside the registers. -/
theorem Counts.eccMet (h : Counts s t) (space core off n : Nat) : t.eccMet space core off n = s.eccMet space core off n := by
  simp only [State.eccMet, h.eccReal, h.eccWords]

theorem Counts.coreOf (h : Counts s t) {u : Nat} (hu : u < 64) : t.coreOf u = s.coreOf u :=
  State.fget_congr (h.regs _ (counting_of_lt (by simp only [R.TILE_MAP_CORE, R.TILE_MAP]; omega)))

/-- The tile that a MEM_READ names: tile 0 stands for the chip. -/
def readTile (q : Req) : Nat := if q.n 0 % 256 = 0x10 then 0 else q.n 0 / 256

theorem readTile_lt {q : Req} (h : q.n 0 < 2 ^ 14) : readTile q < 64 := by
  unfold readTile
  split <;> omega

/-- An accepted MEM_READ that nothing refuses and that meets no bad word. -/
theorem doMemRead_eq {q : Req} {size : Nat} (hruns : s.runs 0x21 q = true) (hp : q.n 0 < 2 ^ 14) (hone : 1 ≤ q.n 2) (hmax : q.n 2 ≤ 65536)
    (hsize : spaceSize (q.n 0 % 256) = some size) (hvault : q.n 0 % 256 ≠ 0x11) (hoff : q.n 1 < size) :
    let n := min (q.n 2) (size - q.n 1)
    (if q.n 0 % 256 = 0x10 then s.routine.firnRefused (q.n 1) (q.n 1 + n)
      else s.routine.readRefused (q.n 0 % 256) (readTile q) (q.n 1) (q.n 1 + n)) = none →
    s.eccMet (q.n 0 % 256) (s.coreOf (readTile q)) (q.n 1) n = none →
    doMemRead q s = s.routine.reply 0x21 q (if n = q.n 2 then St.ok else St.part) [BitVec.ofNat 32 n]
      (s.mread (q.n 0 % 256) (readTile q) (q.n 1) n) := by
  intro n hfree hgood
  have hcounts := s.routine_counts
  have hchip : (if chipSpace (q.n 0 % 256) then 0 else q.n 0 / 256) = readTile q := by
    simp [chipSpace, readTile, hvault]
  have hgood : s.routine.eccMet (q.n 0 % 256) (s.routine.coreOf (readTile q)) (q.n 1) n = none := by
    rw [hcounts.eccMet, hcounts.coreOf (readTile_lt hp), hgood]
  have hparams : ¬(2 ^ 14 ≤ q.n 0 ∨ q.n 2 = 0 ∨ 65536 < q.n 2) := by omega
  rw [doMemRead, State.request_of_runs hruns rfl]
  simp only [hparams, if_false, hsize, hchip, hvault, if_neg (Nat.not_le.2 hoff), ← hcounts.mread]
  simp only [n] at hfree hgood
  rw [hfree]
  simp only [hgood, n]

/-- Settles O14: behind its checks the routine replies with the bytes that the state held before it. -/
theorem memoryReads : Obligations.MemoryReads := by
  unfold Obligations.MemoryReads
  intro q s size hruns hp hone hmax hsize hvault hoff n u hfree hgood
  have hexec : exec (.memRead q) s = .next (doMemRead q s) := congrArg Host.Outcome.next (State.byTable_of_runs hruns _)
  rw [doMemRead_eq hruns hp hone hmax hsize hvault hoff hfree hgood] at hexec
  exact ⟨_, hexec, s.routine_reply_spec 0x21 q _ _ _⟩

end Sys2Proof.Machine
end

section
/-! SUPPORT. MEM_WRITE (10_uhleus_protocol.md R265; 14_memories.md R345). -/

namespace Sys2Proof.Machine

variable {s t : State}

/-- Bytes are written in a space of each tile of a list, and words that they cover are good again (R347). -/
def State.writeSpace (s : State) (space off : Nat) (data : List Byte) (l : List Nat) : State :=
  l.foldl (fun s u => (s.mwrite space u off data).eccFresh space (if space < 0x10 then s.coreOf u else 0) off data.length) s

/-- A list of tiles written one after another: each holds the bytes in the end, and no other byte and no register has changed. -/
theorem State.writeSpace_spec (s : State) {space off : Nat} {data : List Byte} {l : List Nat} (hl : ∀ u ∈ l, u < 64)
    (hfit : off + data.length ≤ 2 ^ 23) :
    let t := s.writeSpace space off data l
    (∀ u ∈ l, ∀ i < data.length, t.mget space u (off + i) = data.getD i 0) ∧
      (∀ space' u o, u < 64 → o < 2 ^ 23 → ¬(space' = space ∧ u ∈ l ∧ off ≤ o ∧ o < off + data.length) →
        t.mget space' u o = s.mget space' u o) ∧
      t.regs = s.regs := by
  have hwrote (r : State) (u : Nat) : Wrote space u off data r
      ((r.mwrite space u off data).eccFresh space (if space < 0x10 then r.coreOf u else 0) off data.length) :=
    (r.mwrite_wrote space u off data).of_mem rfl rfl
  unfold State.writeSpace
  refine ⟨?_, fun space' u o hu ho hout => ?_, ?_⟩
  · refine foldl_establishes (I := fun _ => True) (P := fun u r => ∀ i < data.length, r.mget space u (off + i) = data.getD i 0) trivial
      (fun _ _ _ _ => trivial) (fun r u _ _ => (hwrote r u).same) fun r u hu n hn hne _ hheld i hi => ?_
    refine ((hwrote r n).other _ _ _ fun k hk e => hne ?_).trans (hheld i hi)
    exact (memKey_inj (hl u hu) (hl n hn) (by omega) (by omega) e).2.1
  · refine List.foldlRecOn (motive := fun r : State => r.mget space' u o = s.mget space' u o) _ _ rfl fun r hr n hn => ?_
    refine ((hwrote r n).other _ _ _ fun k hk e => hout ?_).trans hr
    obtain ⟨hspace, rfl, rfl⟩ := memKey_inj hu (hl n hn) ho (by omega) e
    exact ⟨hspace, hn, by omega, by omega⟩
  · exact List.foldlRecOn (motive := fun r : State => r.regs = s.regs) _ _ rfl fun r hr n _ => (State.mwrite_regs ..).trans hr

/-- Other operations that stream their payload are in progress. -/
def State.setWrites (s : State) (l : List Writing) : State := { s with writes := l }

/-- A MEM_WRITE that has arrived whole applies what fits of its payload, and is answered with how much that is. -/
theorem State.writeBegin_mem {w : Writing} {l : List Nat} (hop : w.op = 0x20) (hpart : w.q.part = none) (htrailer : w.q.trailerOk = true)
    (hl : w.targets.map Prod.fst = l) (hlimit : w.limit ≤ w.q.payload.length) (hpos : 0 < w.limit) (hdone : w.done = 0)
    (hlocked : w.locked = none) :
    ∃ ws, s.writeBegin w = ((s.writeSpace (w.q.n 0) (w.q.n 1) (w.q.payload.take w.limit) l).setWrites ws).reply 0x20 w.q
      (if w.limit = w.q.payload.length then St.ok else St.part) [BitVec.ofNat 32 w.limit] := by
  have hcells : s.writeCells w (w.q.payload.take w.limit) = s.writeSpace (w.q.n 0) (w.q.n 1) (w.q.payload.take w.limit) l := by
    rw [State.writeCells, if_neg (by rw [hop]; decide), hdone, State.writeSpace, ← hl, List.foldl_map]
    rfl
  generalize s.writeSpace (w.q.n 0) (w.q.n 1) (w.q.payload.take w.limit) l = r at hcells
  have hon : s.writeOn w w.q.payload true = r.setWriting w { w with done := w.limit } := by
    have hseg : w.op ≠ 0x22 := by rw [hop]; decide
    unfold State.writeOn
    simp only [if_true, Nat.min_eq_left hlimit, hdone, if_neg (Nat.not_le.2 hpos), if_neg hseg, List.drop_zero, hcells]
  unfold State.writeBegin
  rw [if_pos (by simp [hpart]), hon, htrailer]
  unfold State.setWriting State.writeEnd
  simp only [if_true, hop, hlocked, ne_eq, not_true_eq_false, and_false, if_false, show ¬((0x20 : BitVec 8) = 0x22) by decide]
  exact ⟨_, rfl⟩

/-- A MEM_WRITE carries a payload (Table 10.2). -/
theorem payload_pos_of_runs {q : Req} (h : s.runs 0x20 q = true) : 0 < q.payload.length := by
  have hlength : (q.params.length == 4 && decide (1 ≤ q.payload.length ∧ q.payload.length ≤ 65536)) = true := State.lengthOk_of_runs h
  simp only [Bool.and_eq_true, decide_eq_true_eq] at hlength
  omega

/-- Where an accepted MEM_WRITE stores its payload: in the firn, or in each named tile. -/
def writeTiles (q : Req) : List Nat := if q.n 0 = 0x10 then [0] else q.tiles 2

/-- Nothing refuses a MEM_WRITE of bytes `a` to `b - 1`: the firn is the chip's, and every other space that of a tile. -/
def State.writeFree (s : State) (q : Req) (a b : Nat) : Prop :=
  if q.n 0 = 0x10 then q.tiles 2 = [] ∧ s.firnRefused a b = none
  else q.tiles 2 ≠ [] ∧ s.writeRefused (q.n 0) a b (writeTiles q) = none

/-- An accepted MEM_WRITE that has arrived whole and that nothing refuses. -/
theorem doMemWrite_eq {q : Req} {size : Nat} (hruns : s.runs 0x20 q = true) (htrailer : q.trailerOk = true) (hpart : q.part = none)
    (hspace : q.n 0 < 256) (hsize : spaceSize (q.n 0) = some size) (hoff : q.n 1 < size) (hvault : q.n 0 ≠ 0x11) (hpattern : q.n 0 ≠ 1) :
    let n := min q.payload.length (size - q.n 1)
    s.routine.writeFree q (q.n 1) (q.n 1 + n) →
    ∃ ws, doMemWrite q s =
      ((s.routine.writeSpace (q.n 0) (q.n 1) (q.payload.take n) (writeTiles q)).setWrites ws).reply 0x20 q
        (if n = q.payload.length then St.ok else St.part) [BitVec.ofNat 32 n] := by
  intro n hfree
  have hpos : 0 < n := by
    have : 0 < q.payload.length := payload_pos_of_runs hruns
    omega
  have hin : ¬size ≤ q.n 1 := Nat.not_le.2 hoff
  have hbegin (targets : List (Nat × Nat)) (hl : targets.map Prod.fst = writeTiles q) :=
    State.writeBegin_mem (s := s.routine) (w := { op := 0x20, q := q, targets := targets, limit := n })
      rfl hpart htrailer hl (Nat.min_le_left ..) hpos rfl rfl
  rw [doMemWrite, State.request_of_runs hruns rfl]
  by_cases hfirn : q.n 0 = 0x10
  · have hl : writeTiles q = [0] := if_pos hfirn
    obtain ⟨hnone, hfree⟩ : q.tiles 2 = [] ∧ s.routine.firnRefused (q.n 1) (q.n 1 + n) = none := by
      simpa only [State.writeFree, if_pos hfirn] using hfree
    obtain ⟨ws, hdo⟩ := hbegin [(0, 0)] (by simp [hl])
    refine ⟨ws, Eq.trans ?_ hdo⟩
    have hchip : chipSpace (q.n 0) = true := by simp [chipSpace, hfirn]
    have hparams : ¬(256 ≤ q.n 0 ∨ (chipSpace (q.n 0) = true ∧ (!(q.tiles 2).isEmpty) = true)) := by
      rw [hnone]
      simpa using hspace
    simp only [if_neg hparams, hsize]
    simp only [if_neg hvault, hpattern, hin, or_self, if_false, if_pos hfirn, hchip, if_true]
    rw [hfree]
    rfl
  · have hl : writeTiles q = q.tiles 2 := if_neg hfirn
    obtain ⟨hsome, hfree⟩ : q.tiles 2 ≠ [] ∧ s.routine.writeRefused (q.n 0) (q.n 1) (q.n 1 + n) (q.tiles 2) = none := by
      simpa only [State.writeFree, hl, if_neg hfirn] using hfree
    obtain ⟨ws, hdo⟩ := hbegin ((q.tiles 2).map (·, 0)) (by simp [hl, Function.comp_def])
    refine ⟨ws, Eq.trans ?_ hdo⟩
    have hchip : chipSpace (q.n 0) = false := by simp [chipSpace, hfirn, hvault]
    have hparams : ¬(256 ≤ q.n 0 ∨ (chipSpace (q.n 0) = true ∧ (!(q.tiles 2).isEmpty) = true)) := by
      rw [hchip]
      simpa using hspace
    have hnonempty : ¬(q.tiles 2).isEmpty = true := by simpa using hsome
    simp only [if_neg hparams, hsize]
    simp only [if_neg hvault, hpattern, hin, or_self, if_false, if_neg hfirn, hchip, if_neg hnonempty,
      Bool.false_eq_true]
    rw [hfree]

/-- No space is larger than its share of the memory's keys. -/
theorem spaceSize_le {space size : Nat} (h : spaceSize space = some size) : size ≤ 2 ^ 23 := by
  unfold spaceSize at h
  split at h <;> cases h <;> decide

theorem writeTiles_lt {q : Req} : ∀ u ∈ writeTiles q, u < 64 := by
  unfold writeTiles
  split
  · simp
  · exact fun u => tilesOf_lt

/-- Settles O15: behind its checks the routine writes each named tile in turn, and replies. -/
theorem memoryWrites : Obligations.MemoryWrites := by
  unfold Obligations.MemoryWrites
  intro q s size hruns htrailer hpart hspace hsize hoff hvault hpattern n l hfree
  have hexec : exec (.memWrite q) s = .next (doMemWrite q s) := congrArg Host.Outcome.next (State.byTable_of_runs hruns _)
  obtain ⟨ws, hdo⟩ := doMemWrite_eq hruns htrailer hpart hspace hsize hoff hvault hpattern hfree
  rw [hdo] at hexec
  have hcounts := s.routine_counts
  have hlen : (q.payload.take n).length = n := by simp [n]
  have hfit : q.n 1 + (q.payload.take n).length ≤ 2 ^ 23 := by
    have := spaceSize_le hsize
    omega
  obtain ⟨hown, hother, hregs⟩ := s.routine.writeSpace_spec (space := q.n 0) (off := q.n 1) (data := q.payload.take n) writeTiles_lt hfit
  rw [hlen] at hown hother
  generalize s.routine.writeSpace (q.n 0) (q.n 1) (q.payload.take n) (writeTiles q) = r at *
  have hreply := (r.setWrites ws).reply_replies 0x20 q (if n = q.payload.length then St.ok else St.part) [BitVec.ofNat 32 n] []
  refine ⟨_, hexec, State.reply_answered _ _ _ _ _ _, fun u hu i hi => ?_, fun space u off hu hoff hout => ?_, fun a ha => ?_⟩
  · refine (State.mget_congr hreply.mem ..).trans ((hown u hu i hi).trans ?_)
    simp [List.getD_eq_getElem?_getD, List.getElem?_take_of_lt hi]
  · exact (State.mget_congr hreply.mem ..).trans ((hother space u off hu hoff hout).trans (State.mget_congr hcounts.mem ..))
  · obtain ⟨hcount, hsess⟩ : counting a = false ∧ a ≠ R.SESS_STAT q.session.toNat := by simpa using ha
    exact (hreply.regs a hsess).trans ((State.rget_congr hregs a).trans (hcounts.regs a hcount))

end Sys2Proof.Machine
end

section
/-! SUPPORT. The words of the blocks that hold neither a tile, a channel nor a counter (22_register_map.md Table 22.1, R260, R484 to R488). -/

namespace Sys2Proof.Machine

/-! ## Where the words of a block stand -/

/-- A row that covers words only and shows no frozen counter. -/
def RegDesc.regular (d : RegDesc) : Bool := d.off % 4 == 0 && d.stride % 4 == 0 && !d.cnt

/-- The blocks whose registers a read returns as they stand. -/
def plainBlks : List Blk := [.chip, .link, .sec, .safe, .pwr, .memc, .core]

theorem regs_regular : ∀ b ∈ plainBlks, ∀ d ∈ b.regs, d.regular = true := by decide

theorem RegDesc.mod_of_covers {d : RegDesc} {o : Nat} (hregular : d.regular = true) (hcovers : d.covers o = true) : o % 4 = 0 := by
  obtain ⟨⟨hoff, hstride⟩, -⟩ : (d.off % 4 = 0 ∧ d.stride % 4 = 0) ∧ _ := by simpa [RegDesc.regular] using hregular
  obtain ⟨⟨hle, hdvd⟩, -⟩ : (d.off ≤ o ∧ (o - d.off) % d.stride = 0) ∧ _ := by simpa [RegDesc.covers] using hcovers
  have : (o - d.off) % 4 = 0 := Nat.mod_eq_zero_of_dvd ((Nat.dvd_of_mod_eq_zero hstride).trans (Nat.dvd_of_mod_eq_zero hdvd))
  omega

/-- The register at an address is a row of its block that covers the offset. -/
theorem regAt_eq_some {a i k : Nat} {b : Blk} {d : RegDesc} (h : regAt a = some (b, i, k, d)) :
    ∃ o, blockOf a = some (b, i, o) ∧ d ∈ b.regs ∧ d.covers o = true := by
  unfold regAt at h
  split at h
  · cases h
  next b' i' o hblock =>
    split at h
    · cases h
    next d' hfind =>
      cases h
      exact ⟨o, hblock, List.mem_of_find?_eq_some hfind, by simpa using List.find?_some hfind⟩

/-- The addresses of a block of Table 22.1, up to its last register in the safety block. -/
def Blk.holds (b : Blk) (a : Nat) : Prop :=
  match b with
  | .chip => a < 0x10000 | .time => 0x10000 ≤ a ∧ a < 0x20000 | .link => 0x20000 ≤ a ∧ a < 0x2C000 | .eng => 0x40000 ≤ a ∧ a < 0x50000
  | .sec => 0x50000 ≤ a ∧ a < 0x60000 | .safe => 0x60000 ≤ a ∧ a < 0x61430 | .pwr => 0x70000 ≤ a ∧ a < 0x80000
  | .mor => 0x80000 ≤ a ∧ a < 0x90000 | .mgt => 0x90000 ≤ a ∧ a < 0xA0000 | .memc => 0xA0000 ≤ a ∧ a < 0xB0000
  | .tile => 0x100000 ≤ a ∧ a < 0x500000 | .chan => 0x500000 ≤ a ∧ a < 0x600000 | .core => 0x900000 ≤ a ∧ a < 0x944000

theorem blockOf_eq_some {a i o : Nat} {b : Blk} (h : blockOf a = some (b, i, o)) : b.holds a ∧ a % 4 = o % 4 ∧ o < b.last + 4 := by
  unfold blockOf at h
  extract_lets at1 got at h
  obtain ⟨hgot, hlast⟩ : got = some (b, i, o) ∧ o < b.last + 4 := by
    clear_value got
    split at h
    next => split at h <;> cases h; exact ⟨rfl, ‹_›⟩
    next => cases h
  unfold got at1 at hgot
  clear got at1 h
  simp only [ite_eq_iff, Option.some.injEq, Prod.mk.injEq, reduceCtorEq, and_false, false_or] at hgot
  refine ⟨?_, ?_, hlast⟩
  all_goals cases b <;> simp only [reduceCtorEq, false_and, and_false, true_and, false_or, or_false, Blk.last, Blk.holds] at hgot hlast ⊢ <;> omega

/-! ## What a routine sees of a plain word -/

section
variable {s t : State} {a i k : Nat} {b : Blk} {d : RegDesc}

theorem descAt_of_regAt (hreg : regAt a = some (b, i, k, d)) : descAt a = d := by simp only [descAt, hreg]

/-- Table 22.1 places no block at the aliases of the safety block (R486). -/
theorem aliasOf_of_regAt (hreg : regAt a = some (b, i, k, d)) : aliasOf a = (a, none) := by
  obtain ⟨o, hblock, -⟩ := regAt_eq_some hreg
  obtain ⟨hholds, -⟩ := blockOf_eq_some hblock
  have hplace : ¬(0x68000 ≤ a ∧ a < 0x70000) := by
    cases b <;> simp only [Blk.holds] at hholds <;> omega
  rw [aliasOf, if_neg (by omega), if_neg (by omega)]

theorem mod_of_plain (hreg : regAt a = some (b, i, k, d)) (hb : b ∈ plainBlks) : a % 4 = 0 := by
  obtain ⟨o, hblock, hrow, hcovers⟩ := regAt_eq_some hreg
  obtain ⟨-, hmod, -⟩ := blockOf_eq_some hblock
  exact hmod.trans (RegDesc.mod_of_covers (regs_regular b hb d hrow) hcovers)

theorem cnt_of_plain (hreg : regAt a = some (b, i, k, d)) (hb : b ∈ plainBlks) : d.cnt = false := by
  obtain ⟨o, -, hrow, -⟩ := regAt_eq_some hreg
  have := regs_regular b hb d hrow
  simp only [RegDesc.regular, Bool.and_eq_true, Bool.not_eq_true'] at this
  exact this.2

theorem wordsFrom_of_plain (hreg : regAt a = some (b, i, k, d)) (hb : b ∈ plainBlks) : ∃ room, wordsFrom a = some (room + 1) := by
  obtain ⟨o, hblock, -⟩ := regAt_eq_some hreg
  simp [wordsFrom, mod_of_plain hreg hb, aliasOf_of_regAt hreg, hblock]

/-! ### Sealing -/

theorem Counts.sitesOf (h : Counts s t) (c : Nat) : t.sitesOf c = s.sitesOf c := by
  have hseq : t.rget (R.CH_SEQ c) = s.rget (R.CH_SEQ c) := h.regs _ (counting_of_ge (by unfold R.CH_SEQ; omega))
  have hshare (w : Nat) (hw : w < 8) : t.rget (R.SHARE_MASK (s.fget (R.CH_SEQ_SHGRP c) * 8 + w)) =
      s.rget (R.SHARE_MASK (s.fget (R.CH_SEQ_SHGRP c) * 8 + w)) := by
    have : s.fget (R.CH_SEQ_SHGRP c) < 2 ^ 4 := field_lt ..
    exact h.regs _ (counting_of_lt (by unfold R.SHARE_MASK; omega))
  have hbytes : ((List.range 8).flatMap fun w => wordBytes (t.rget (R.SHARE_MASK (s.fget (R.CH_SEQ_SHGRP c) * 8 + w)))) =
      (List.range 8).flatMap fun w => wordBytes (s.rget (R.SHARE_MASK (s.fget (R.CH_SEQ_SHGRP c) * 8 + w))) :=
    List.flatMap_congr fun w hw => by rw [hshare w (List.mem_range.1 hw)]
  rw [State.sitesOf, State.flag_congr (f := R.CH_SEQ_SHARED c) hseq, State.fget_congr (f := R.CH_SEQ_SHGRP c) hseq,
    State.fget_congr (f := R.CH_SEQ_SITE c) hseq, hbytes, State.sitesOf]

theorem Counts.siteTiles (h : Counts s t) (site : Nat) : t.siteTiles site = s.siteTiles site := by
  simp only [State.siteTiles, h.sitesOf]

theorem Counts.sealedWrite (h : Counts s t) (a : Nat) : t.sealedWrite a = s.sealedWrite a := by
  have hvalid (n : Nat) (hn : n < 4) : t.flag (R.BUNDLE_CTL_VALID n) = s.flag (R.BUNDLE_CTL_VALID n) :=
    State.flag_congr (h.regs _ (counting_of_lt (by simp only [R.BUNDLE_CTL_VALID, R.BUNDLE_CTL]; omega)))
  have hshare : ((List.range 4).any fun n => t.flag (R.BUNDLE_CTL_VALID n) &&
        (Store.get (fun _ => {}) t.bundles n : Bundle).shareWords.contains a) =
      (List.range 4).any fun n => s.flag (R.BUNDLE_CTL_VALID n) &&
        (Store.get (fun _ => {}) s.bundles n : Bundle).shareWords.contains a := by
    rw [h.bundles]
    rw [Bool.eq_iff_iff, List.any_eq_true, List.any_eq_true]
    exact exists_congr fun n => and_congr_right fun hn => by rw [hvalid n (List.mem_range.1 hn)]
  unfold State.sealedWrite
  simp only [h.bundleOf, hshare]

theorem Counts.wordSealed_of_plain (h : Counts s t) (hreg : regAt a = some (b, i, k, d)) (hb : b ∈ plainBlks) :
    t.wordSealed a = s.wordSealed a := by
  simp only [State.wordSealed, h.sealedWrite, hreg, h.siteTiles, h.hidden]
  cases b with
  | mor => exact absurd hb (by decide)
  | _ => rfl

/-! ### Reads -/

/-- The bits of a word where a field is defined that a read shows. -/
def State.shownBits (s : State) (a : Nat) : Word := s.rget a &&& ((descAt a).rw ||| (descAt a).ro ||| (descAt a).w1c ||| (descAt a).w1s)

/-- A plain word is none of the registers that a read treats on its own. -/
theorem plain_apart (hreg : regAt a = some (b, i, k, d)) (hb : b ∈ plainBlks) :
    a ≠ R.SYSTIME_LO ∧ a ≠ R.SYSTIME_HI ∧ a ≠ R.PP_RXDATA ∧ a ≠ R.ENG_MAXLEN ∧ a ≠ R.ENG_MAXCLK ∧ ¬(0x80000 ≤ a ∧ a < 0x90000) := by
  obtain ⟨o, hblock, -⟩ := regAt_eq_some hreg
  obtain ⟨hholds, -⟩ := blockOf_eq_some hblock
  unfold R.SYSTIME_LO R.SYSTIME_HI R.PP_RXDATA R.ENG_MAXLEN R.ENG_MAXCLK
  cases b with
  | chip | link | sec | safe | pwr | memc | core => simp only [Blk.holds] at hholds; omega
  | _ => exact absurd hb (by decide)

theorem winWord_of_plain (hreg : regAt a = some (b, i, k, d)) (hb : b ∈ plainBlks) : winWord a = false := by
  obtain ⟨-, -, -, -, -, hmor⟩ := plain_apart hreg hb
  exact decide_eq_false (by unfold R.MRN_WIN; omega)

theorem State.readValue_of_plain (hreg : regAt a = some (b, i, k, d)) (hb : b ∈ plainBlks) (c : Nat) : s.readValue c a = s.shownBits a := by
  obtain ⟨hlo, hhi, hrx, hlen, hclk, -⟩ := plain_apart hreg hb
  obtain ⟨o, hblock, -⟩ := regAt_eq_some hreg
  rw [State.readValue, if_neg hlo, if_neg hhi, if_neg hrx, if_neg hlen, if_neg hclk, hblock]
  cases b with
  | tile | mor | chan => exact absurd hb (by decide)
  | _ => rfl

theorem State.readEffect_of_plain (hreg : regAt a = some (b, i, k, d)) (hb : b ∈ plainBlks) (c : Nat) : s.readEffect c a = s := by
  obtain ⟨hlo, -, hrx, -, -, hmor⟩ := plain_apart hreg hb
  rw [State.readEffect, if_neg hlo, if_neg (by omega), if_neg hrx, if_neg (by unfold R.MRN_WIN; omega)]

theorem State.current_of_plain (hreg : regAt a = some (b, i, k, d)) (hb : b ∈ plainBlks) : s.current a = s := by
  obtain ⟨o, hblock, -⟩ := regAt_eq_some hreg
  rw [State.current, hblock]
  cases b with
  | chan => exact absurd hb (by decide)
  | _ => rfl

theorem State.readWordRefused_of_plain (hreg : regAt a = some (b, i, k, d)) (hb : b ∈ plainBlks) (hsealed : s.wordSealed a = false)
    (r : State) (q : Req) : s.readWordRefused (r.whoOf q) a = none := by
  simp [State.readWordRefused, hsealed, descAt_of_regAt hreg, cnt_of_plain hreg hb, winWord_of_plain hreg hb, State.whoOf, Who.atLeast]

/-- A register of one of these blocks stands at the address. -/
def PlainAt (a : Nat) : Prop := ∃ b i k d, regAt a = some (b, i, k, d) ∧ b ∈ plainBlks

theorem plainAt_of_any (h : (regAt a).any (fun x => [Blk.chip, .link, .sec, .safe, .pwr, .memc, .core].contains x.1) = true) : PlainAt a := by
  cases hreg : regAt a with
  | none => simp [hreg] at h
  | some x =>
    obtain ⟨b, i, k, d⟩ := x
    exact ⟨b, i, k, d, hreg, by simpa [hreg, plainBlks] using h⟩

/-- One word of a read, as `State.readWords` takes it. -/
def readStep (c : Nat) (r : List Word × State) (a : Nat) : List Word × State :=
  (r.1 ++ [(r.2.current a).readValue c a], if winWord a then r.2.current a else (r.2.current a).readEffect c a)

theorem readStep_of_plain (ws : List Word) (c : Nat) (ha : PlainAt a) : readStep c (ws, s) a = (ws ++ [s.shownBits a], s) := by
  obtain ⟨b, i, k, d, hreg, hb⟩ := ha
  simp only [readStep, State.current_of_plain hreg hb, State.readValue_of_plain hreg hb, State.readEffect_of_plain hreg hb, ite_self]

theorem foldl_readStep_of_plain (c : Nat) : ∀ (l : List Nat) (ws : List Word), (∀ a ∈ l, PlainAt a) →
    l.foldl (readStep c) (ws, s) = (ws ++ l.map s.shownBits, s)
  | [], ws, _ => by simp
  | a :: l, ws, hl => by
    rw [List.foldl_cons, readStep_of_plain ws c (hl a List.mem_cons_self),
      foldl_readStep_of_plain c l _ fun a ha => hl a (List.mem_cons_of_mem _ ha)]
    simp

/-- Plain words read as they stand, and reading them changes nothing. -/
theorem State.readWords_of_plain {l : List Nat} (c : Nat) (hl : ∀ a ∈ l, PlainAt a) : s.readWords c l = (l.map s.shownBits, s) := by
  have hreal : l.map (fun a => (aliasOf a).1) = l := by
    refine (List.map_congr_left fun a ha => ?_).trans l.map_id
    obtain ⟨b, i, k, d, hreg, -⟩ := hl a ha
    rw [aliasOf_of_regAt hreg]; rfl
  have hwin : l.filter winWord = [] := List.filter_eq_nil_iff.2 fun a ha => by
    obtain ⟨b, i, k, d, hreg, hb⟩ := hl a ha
    simp [winWord_of_plain hreg hb]
  have hread : l.foldl (readStep c) ([], s) = (l.map s.shownBits, s) := foldl_readStep_of_plain c l [] hl
  rw [State.readWords, hreal, hwin]
  exact Prod.ext (congrArg Prod.fst hread) (congrArg Prod.snd hread)

theorem firstRefused_none {p : Nat → Option (BitVec 8)} : ∀ {l : List Nat} (n : Nat), (∀ a ∈ l, p a = none) → firstRefused p n l = none
  | [], _, _ => rfl
  | a :: l, n, h => by
    rw [firstRefused, h a List.mem_cons_self]
    exact firstRefused_none (n + 1) fun a ha => h a (List.mem_cons_of_mem _ ha)

end

/-! ## REG_READ and REG_GATHER -/

section
variable {q : Req} {s : State}

theorem doRegRead_eq {room : Nat} (hruns : s.runs 0x10 q = true) (hcount : countBad q = false) (hroom : wordsFrom (q.n 0) = some room)
    {l : List Nat} (hl : wordAddrs (q.n 0) (q.n 1) (q.n 2 == 1) room = l)
    (hfree : firstRefused (fun a => s.routine.readWordRefused (s.routine.whoOf q) (aliasOf a).1) 0 l = none) :
    doRegRead q s = (s.routine.readWords q.session.toNat l).2.reply 0x10 q (if l.length = q.n 1 then St.ok else St.part)
      [BitVec.ofNat 32 l.length] ((s.routine.readWords q.session.toNat l).1.flatMap wordBytes) := by
  rw [doRegRead, State.request_of_runs hruns rfl]
  simp only [hcount, hroom, hl, hfree]
  rfl

theorem doRegGather_eq (hruns : s.runs 0x14 q = true) (hfree : ∀ a ∈ q.params.map (·.toNat),
      (wordsFrom a).isSome = true ∧ s.routine.readWordRefused (s.routine.whoOf q) (aliasOf a).1 = none) :
    doRegGather q s = (s.routine.readWords q.session.toNat (q.params.map (·.toNat))).2.reply 0x14 q St.ok []
      ((s.routine.readWords q.session.toNat (q.params.map (·.toNat))).1.flatMap wordBytes) := by
  rw [doRegGather, State.request_of_runs hruns rfl]
  simp only [firstRefused_none 0 fun a ha => show (if (wordsFrom a).isNone = true then some St.badAddress else
    s.routine.readWordRefused (s.routine.whoOf q) (aliasOf a).1) = none by
      obtain ⟨hword, hopen⟩ := hfree a ha
      rw [if_neg (by simpa [Option.isNone_iff_eq_none, ← Option.isSome_iff_ne_none] using hword), hopen]]
  rfl

/-- The engine's counters apart, a routine sees the words as they stood at its dispatch. -/
theorem State.routine_shownBits {a : Nat} (ha : PlainAt a) : s.routine.shownBits a = s.shownBits a := by
  obtain ⟨b, i, k, d, hreg, hb⟩ := ha
  obtain ⟨-, -, -, -, -, hmor⟩ := plain_apart hreg hb
  rw [State.shownBits, s.routine_counts.regs a (decide_eq_false (by omega)), State.shownBits]

theorem State.routine_readWordRefused {a : Nat} (ha : PlainAt a) (hsealed : s.wordSealed a = false) :
    s.routine.readWordRefused (s.routine.whoOf q) (aliasOf a).1 = none := by
  obtain ⟨b, i, k, d, hreg, hb⟩ := ha
  rw [aliasOf_of_regAt hreg]
  exact State.readWordRefused_of_plain hreg hb ((s.routine_counts.wordSealed_of_plain hreg hb).trans hsealed) _ q

end

/-- Settles O12: the routine reads word by word; a plain word reads as it stands and its read changes nothing. -/
theorem registerReads : Obligations.RegisterReads := by
  unfold Obligations.RegisterReads
  refine ⟨?list, ?gather, fun q s => ⟨?plainList, ?plainGather⟩⟩
  case list =>
    intro q s room hruns hcount hroom r l hfree
    exact ⟨_, congrArg Host.Outcome.next ((State.byTable_of_runs hruns _).trans (doRegRead_eq hruns hcount hroom rfl hfree)),
      State.reply_answered _ _ _ _ _ _⟩
  case gather =>
    intro q s hruns r l hfree
    exact ⟨_, congrArg Host.Outcome.next ((State.byTable_of_runs hruns _).trans (doRegGather_eq hruns hfree)),
      State.reply_answered _ _ _ _ _ _⟩
  case plainList =>
    intro hruns hone hnoInc hword
    obtain ⟨hsealed, hany⟩ := Bool.and_eq_true_iff.1 hword
    have hplain : PlainAt (q.n 0) := plainAt_of_any hany
    have hopen := State.routine_readWordRefused (q := q) hplain (by simpa using hsealed)
    obtain ⟨b, i, k, d, hreg, hb⟩ := id hplain
    obtain ⟨room, hroom⟩ := wordsFrom_of_plain hreg hb
    have hlist : wordAddrs (q.n 0) (q.n 1) (q.n 2 == 1) (room + 1) = [q.n 0] := by
      rw [hone, wordAddrs]
      split
      · rfl
      · simp
    have hread := doRegRead_eq hruns (by simp [countBad, hone]; omega) hroom hlist (firstRefused_none 0 (by simpa using hopen))
    rw [State.readWords_of_plain _ (by simpa using hplain)] at hread
    simp only [List.map_cons, List.map_nil, State.routine_shownBits hplain, List.flatMap_singleton, List.length_singleton, hone,
      if_true] at hread
    exact ⟨_, congrArg Host.Outcome.next ((State.byTable_of_runs hruns _).trans hread), s.routine_reply_spec 0x10 q _ _ _⟩
  case plainGather =>
    intro hruns hwords
    have hplain : ∀ a ∈ q.params.map (·.toNat), PlainAt a := fun a ha => by
      obtain ⟨w, hw, rfl⟩ := List.mem_map.1 ha
      exact plainAt_of_any (Bool.and_eq_true_iff.1 (hwords w hw)).2
    have hread := doRegGather_eq hruns fun a ha => by
      obtain ⟨b, i, k, d, hreg, hb⟩ := id (hplain a ha)
      obtain ⟨w, hw, rfl⟩ := List.mem_map.1 ha
      obtain ⟨room, hroom⟩ := wordsFrom_of_plain hreg hb
      exact ⟨by rw [hroom]; rfl, State.routine_readWordRefused (hplain _ ha) (by simpa using (Bool.and_eq_true_iff.1 (hwords w hw)).1)⟩
    rw [State.readWords_of_plain _ hplain] at hread
    have hbits : (q.params.map (·.toNat)).map s.routine.shownBits = q.params.map fun w => s.shownBits w.toNat := by
      rw [List.map_congr_left fun a ha => State.routine_shownBits (hplain a ha), List.map_map]
      rfl
    rw [hbits, List.flatMap_map] at hread
    exact ⟨_, congrArg Host.Outcome.next ((State.byTable_of_runs hruns _).trans hread), s.routine_reply_spec 0x14 q _ _ _⟩

end Sys2Proof.Machine
end

section
/-! SUPPORT. Writes of one word of the chip global block (10_uhleus_protocol.md R244, R261, R263; 00_scope.md R6, R7). -/

namespace Sys2Proof.Machine

/-! ## A word that takes a value -/

/-- The word at an address becomes `x`; every other word and the memory stay. -/
structure WordSet (a : Nat) (x : Word) (s t : State) : Prop where
  word : t.rget a = x
  regs : ∀ b, b ≠ a → t.rget b = s.rget b
  mem : t.mem = s.mem

section
variable {s t : State} {a i k : Nat} {d : RegDesc} {q : Req}

theorem State.rset_wordSet (s : State) (a : Nat) (x : Word) : WordSet a x s (s.rset a x) :=
  ⟨s.rget_rset_same a x, fun _ hb => s.rget_rset_other x hb, rfl⟩

theorem WordSet.trans {x y : Word} {u : State} (h : WordSet a x s t) (h' : WordSet a y t u) : WordSet a y s u :=
  ⟨h'.word, fun b hb => (h'.regs b hb).trans (h.regs b hb), h'.mem.trans h.mem⟩

theorem chip_lt (hreg : regAt a = some (.chip, i, k, d)) : a < 0x10000 := by
  obtain ⟨o, hblock, -⟩ := regAt_eq_some hreg
  exact (blockOf_eq_some hblock).1

theorem State.writeWord_of_chip (hreg : regAt a = some (.chip, i, k, d)) (hown : a ∉ [R.LINKEV_SEND, R.SR_CFG, R.CAL_LIMIT]) (s : State)
    (c : Nat) (v : Word) : s.writeWord c a v = s.rset a (d.stored (s.rget a) v) := by
  obtain ⟨o, hblock, -⟩ := regAt_eq_some hreg
  have hflt : fltOffset a = none := by rw [fltOffset, hblock]; rfl
  obtain ⟨hlink, hsr, hcal⟩ : a ≠ R.LINKEV_SEND ∧ a ≠ R.SR_CFG ∧ a ≠ R.CAL_LIMIT := by simpa using hown
  rw [State.writeWord, hflt, hreg, hblock]
  show s.chipWrite a d v = _
  rw [State.chipWrite, if_neg hlink, if_neg hsr, if_neg hcal]

/-- W1C bits that the hardware sets in the clock of the write read 1 behind it (R7). -/
theorem State.coincident_wordSet (hreg : regAt a = some (.chip, i, k, d)) (s : State) (hw : Word) :
    WordSet a (s.rget a ||| (hw &&& d.w1c)) s (s.coincident [(a, hw)] a) := by
  have hlt := chip_lt hreg
  have hcnt : ((List.range 64).any fun m => a == R.PCNT_VAL m) = false := by
    simp only [List.any_eq_false, beq_iff_eq, R.PCNT_VAL]
    intros; omega
  have := s.rset_wordSet a (s.rget a ||| (hw &&& d.w1c))
  simpa [State.coincident, hcnt, descAt_of_regAt hreg] using this

theorem State.writeWord_wordSet (hreg : regAt a = some (.chip, i, k, d)) (hown : a ∉ [R.LINKEV_SEND, R.SR_CFG, R.CAL_LIMIT])
    (s : State) (c : Nat) (v : Word) : WordSet a (d.stored (s.rget a) v) s (s.writeWord c a v) := by
  rw [State.writeWord_of_chip hreg hown]
  exact s.rset_wordSet a _

/-- The write of one word, with what the hardware does to it in the same clock. -/
theorem State.writeWord_coincident_wordSet (hreg : regAt a = some (.chip, i, k, d)) (hown : a ∉ [R.LINKEV_SEND, R.SR_CFG, R.CAL_LIMIT])
    (s : State) (c : Nat) (v : Word) {l : List (Nat × Word)} {hw : Word} (hl : (l = [] ∧ hw = 0) ∨ l = [(a, hw)]) :
    WordSet a (d.stored (s.rget a) v ||| (hw &&& d.w1c)) s ((s.writeWord c a v).coincident l a) := by
  have hset := State.writeWord_wordSet hreg hown s c v
  rcases hl with ⟨rfl, rfl⟩ | rfl
  · simpa [State.coincident] using hset
  · have hcoincident := State.coincident_wordSet hreg (s.writeWord c a v) hw
    rw [hset.word] at hcoincident
    exact hset.trans hcoincident

/-! ## The reply under the old identity (R244) -/

theorem getLsbD_setField (w : Word) {hi lo : Nat} (v : Nat) (h : lo ≤ hi) {i : Nat} (hi32 : i < 32) :
    (setField w hi lo v).getLsbD i = if lo ≤ i ∧ i ≤ hi then v.testBit (i - lo) else w.getLsbD i := by
  have hwidth : i - lo < hi - lo + 1 ↔ i ≤ hi := by omega
  simp only [setField, BitVec.getLsbD_or, BitVec.getLsbD_and, BitVec.getLsbD_not, BitVec.getLsbD_ofNat, Nat.testBit_mul_two_pow,
    Nat.testBit_two_pow_sub_one, hi32, hwidth, decide_true, Bool.true_and]
  by_cases hlo : lo ≤ i <;> by_cases hhi : i ≤ hi <;> simp [hlo, hhi]

/-- A field that takes another value and then its own again leaves the word. -/
theorem setField_setField_field (w : Word) {hi lo : Nat} (v : Nat) (h : lo ≤ hi) :
    setField (setField w hi lo v) hi lo (field w hi lo) = w := by
  refine BitVec.eq_of_getLsbD_eq fun i hi32 => ?_
  rw [getLsbD_setField _ _ h hi32, getLsbD_setField _ _ h hi32]
  by_cases hin : lo ≤ i ∧ i ≤ hi
  · have hwidth : i - lo < hi - lo + 1 := by omega
    rw [if_pos hin, field, Nat.testBit_mod_two_pow, Nat.testBit_div_two_pow, Nat.sub_add_cancel hin.1, decide_eq_true hwidth, Bool.true_and]
    rfl
  · rw [if_neg hin, if_neg hin]

/-- The reply leaves the register as the write left it, whichever identity it carries. -/
theorem State.replyAs_spec (s : State) (id : Nat) (op : BitVec 8) (q : Req) (st : BitVec 8) (ps : List Word) :
    Answered (s.replyAs id op q st ps) op q st ps [] ∧ (s.replyAs id op q st ps).mem = s.mem ∧
      ∀ b, b ≠ R.SESS_STAT q.session.toNat → (s.replyAs id op q st ps).rget b = s.rget b := by
  unfold State.replyAs
  split
  · have hreply := s.reply_replies op q st ps []
    exact ⟨s.reply_answered op q st ps [], hreply.mem, hreply.regs⟩
  · have hreply := (s.fset R.CHIP_ID_ID id).reply_replies op q st ps []
    refine ⟨State.reply_answered (s.fset R.CHIP_ID_ID id) op q st ps [], hreply.mem, fun b hb => ?_⟩
    by_cases hid : b = R.CHIP_ID
    · have hid' : R.CHIP_ID ≠ R.SESS_STAT q.session.toNat := hid ▸ hb
      rw [hid]
      change _ = s.rget R.CHIP_ID_ID.addr
      refine (State.rget_rset_same _ R.CHIP_ID_ID.addr _).trans ?_
      rw [hreply.regs R.CHIP_ID_ID.addr hid', State.fset, State.rget_rset_same]
      exact setField_setField_field _ _ (by decide)
    · rw [State.rget_fset_other _ _ hid, hreply.regs b hb, State.rget_fset_other _ _ hid]

/-- A routine that writes one word of the chip block and replies. -/
theorem WordSet.replyAs {x : Word} {u : State} (h : WordSet a x s.routine u) (hsess : a ≠ R.SESS_STAT q.session.toNat)
    (id : Nat) (op : BitVec 8) (st : BitVec 8) (ps : List Word) :
    (u.replyAs id op q st ps).rget a = x ∧ Answered (u.replyAs id op q st ps) op q st ps [] ∧ MemSame s (u.replyAs id op q st ps) ∧
      RegsSame (fun b => counting b || b == a || b == R.SESS_STAT q.session.toNat) s (u.replyAs id op q st ps) := by
  obtain ⟨hanswer, hmem, hregs⟩ := u.replyAs_spec id op q st ps
  refine ⟨(hregs a hsess).trans h.word, hanswer, .of_mem (hmem.trans (h.mem.trans s.routine_counts.mem)), fun b hb => ?_⟩
  obtain ⟨⟨hcount, hne⟩, hstat⟩ : (counting b = false ∧ b ≠ a) ∧ b ≠ R.SESS_STAT q.session.toNat := by simpa using hb
  exact (hregs b hstat).trans ((h.regs b hne).trans (s.routine_counts.regs b hcount))

/-! ## REG_WRITE, REG_SET_BITS and REG_CLEAR_BITS -/

theorem wordsOf_of_length {l : List Byte} (h : l.length = 4) : wordsOf l = [BitVec.ofNat 32 (leNat l)] := by
  match l, h with
  | [a, b, c, e], _ => rfl

/-- A command of one word names its address alone, whether the address advances or not. -/
theorem wordAddrs_one (a : Nat) (noInc : Bool) (room : Nat) : wordAddrs a 1 noInc (room + 1) = [a] := by
  rw [wordAddrs]
  split
  · rfl
  · simp

section
variable {s : State} (hreg : regAt (q.n 0) = some (.chip, i, k, d))
include hreg

theorem State.sensed_of_chip (c : Nat) (v : Word) : s.sensed c (q.n 0) v = (q.n 0, v) := by
  rw [State.sensed, aliasOf_of_regAt hreg]

theorem State.bitRequest_eq {op : BitVec 8} (hruns : s.runs op q = true) (hone : splitPhase op = false) (hco : q.coincide = [])
    (sense : RegDesc → Word → Word → Word)
    (hfree : s.routine.writeWordRefused (s.routine.whoOf q) (q.n 0) (sense d (s.routine.readValue q.session.toNat (q.n 0)) (q.p 1)) 0 = none) :
    let u := s.routine.writeWord q.session.toNat (q.n 0) (sense d (s.routine.readValue q.session.toNat (q.n 0)) (q.p 1))
    s.bitRequest op q sense = u.replyAs (s.routine.fget R.CHIP_ID_ID) op q St.ok
      [s.routine.readValue q.session.toNat (q.n 0), u.readValue q.session.toNat (q.n 0)] := by
  obtain ⟨room, hroom⟩ := wordsFrom_of_plain hreg (by decide)
  have hctx : (s.routine.whoOf q).ctx = q.session.toNat := rfl
  rw [State.bitRequest, State.request_of_runs hruns hone]
  simp only [hroom, aliasOf_of_regAt hreg, descAt_of_regAt hreg, hctx, hfree, hco]
  rfl

theorem doRegWrite_eq (hruns : s.runs 0x11 q = true) (hone : q.n 1 = 1) (hnoInc : q.n 2 ≤ 1) (hres : q.resets = none)
    (hfree : s.routine.writeWordRefused (s.routine.whoOf q) (q.n 0) (BitVec.ofNat 32 (leNat q.payload)) 0 = none) :
    doRegWrite q s = ((s.routine.writeWord q.session.toNat (q.n 0) (BitVec.ofNat 32 (leNat q.payload))).coincident q.coincide
      (q.n 0)).replyAs (s.routine.fget R.CHIP_ID_ID) 0x11 q St.ok [1] := by
  obtain ⟨room, hroom⟩ := wordsFrom_of_plain hreg (by decide)
  have hctx : (s.routine.whoOf q).ctx = q.session.toNat := rfl
  have hlength : q.payload.length = 4 := by
    have := State.lengthOk_of_runs hruns
    simp [lengthOk, hone] at this
    omega
  have hcount : countBad q = false := by simp [countBad, hone]; omega
  have hchecks : s.routine.writesRefused (s.routine.whoOf q) [(q.n 0, BitVec.ofNat 32 (leNat q.payload))] = none := by
    simp [State.writesRefused, State.sensed_of_chip hreg, pushesBefore, hfree]
  rw [doRegWrite, State.request_of_runs hruns rfl]
  simp only [hcount, hroom, hone, wordAddrs_one, wordsOf_of_length hlength, List.zip_cons_cons, List.zip_nil_left, hchecks, hres, hctx,
    State.writeWords, List.foldl_cons, List.foldl_nil, State.sensed_of_chip hreg]
  rfl

end

end

/-- Settles O13: each routine writes the word, with what the hardware does to it, and replies under the old identity. -/
theorem registerWrites : Obligations.RegisterWrites := by
  unfold Obligations.RegisterWrites
  intro q s i k d a r n old hreg hapart hres
  obtain ⟨hown, hsess⟩ : a ∉ [R.LINKEV_SEND, R.SR_CFG, R.CAL_LIMIT] ∧ a ≠ R.SESS_STAT n := by simpa [and_assoc] using hapart
  have hword : r.rget a = s.rget a := s.routine_counts.regs a (counting_of_lt (by have := chip_lt hreg; omega))
  refine ⟨?write, ?set, ?clear⟩
  case write =>
    intro v hruns hone hnoInc hfree hw hco
    have hset := State.writeWord_coincident_wordSet hreg hown r n v hco
    rw [hword] at hset
    exact ⟨_, congrArg Host.Outcome.next ((State.byTable_of_runs hruns _).trans (doRegWrite_eq hreg hruns hone hnoInc hres hfree)),
      hset.replyAs hsess _ 0x11 St.ok [1]⟩
  case set =>
    intro v hruns hco hfree
    have hset := State.writeWord_wordSet hreg hown r n v
    rw [hword] at hset
    exact ⟨_, congrArg Host.Outcome.next ((State.byTable_of_runs hruns _).trans (State.bitRequest_eq hreg hruns rfl hco setSense hfree)),
      hset.replyAs hsess _ 0x12 St.ok _⟩
  case clear =>
    intro v hruns hco hfree
    have hset := State.writeWord_wordSet hreg hown r n v
    rw [hword] at hset
    exact ⟨_, congrArg Host.Outcome.next ((State.byTable_of_runs hruns _).trans (State.bitRequest_eq hreg hruns rfl hco clearSense hfree)),
      hset.replyAs hsess _ 0x13 St.ok _⟩

end Sys2Proof.Machine
end

section
/-! SUPPORT. Sessions open and close (10_uhleus_protocol.md R248 to R250, R253; 13_security.md R317). -/

namespace Sys2Proof.Machine

/-! ## What the checks of HELLO read -/

section
variable {s t : State}

theorem Counts.rget_lt (h : Counts s t) {a : Nat} (ha : a < 0x83000) : t.rget a = s.rget a := h.regs a (counting_of_lt ha)

theorem Counts.sessOpen (h : Counts s t) {n : Nat} (hn : n < 32) : t.sessOpen n = s.sessOpen n :=
  State.flag_congr (h.rget_lt (by simp only [R.SESS_STAT_OPEN, R.SESS_STAT]; omega))

theorem Counts.need (h : Counts s t) (priv : Nat) : t.need priv = s.need priv := by
  have hlc : t.rget R.LC_STATUS = s.rget R.LC_STATUS := h.rget_lt (by decide)
  rw [State.need, State.fget_congr (f := R.LC_STATUS_STATE) hlc, State.fget_congr (f := R.LC_STATUS_ACCESS) hlc, State.need]

theorem Counts.ownerKey (h : Counts s t) (key : List Byte) : t.ownerKey key = s.ownerKey key := by
  have hdigest : t.ownerDigest = s.ownerDigest := List.flatMap_congr fun k hk => by
    have := List.mem_range.1 hk
    rw [h.rget_lt (by unfold R.OWNER_DIGEST; omega)]
  rw [State.ownerKey, hdigest, State.ownerKey]

theorem Counts.deviceId (h : Counts s t) : t.deviceId = s.deviceId := List.flatMap_congr fun k hk => by
  have := List.mem_range.1 hk
  rw [h.rget_lt (by unfold R.DEVICE_ID; omega)]

theorem Counts.credentialOk (h : Counts s t) (n : Need) (priv : Nat) (c : List Byte) (v : Verdict) :
    t.credentialOk n priv c v = s.credentialOk n priv c v := by
  have hvalid : t.flag R.TIME_STATUS_VALID = s.flag R.TIME_STATUS_VALID := State.flag_congr (h.rget_lt (by decide))
  simp only [State.credentialOk, State.credentialKey, h.sysTime, h.deviceId, h.ownerKey, hvalid]

end

/-! ## A session opens -/

/-- SESS_STAT of a session that opens keeps its latched bits 31:30 and shows the grant. -/
theorem field_keepLatched (old w : Word) {hi lo : Nat} (hle : lo ≤ hi) (hlt : hi < 30) :
    field ((old &&& 0xC0000000) ||| w) hi lo = field w hi lo := by
  refine Nat.eq_of_testBit_eq fun i => ?_
  simp only [field, Nat.testBit_mod_two_pow, Nat.testBit_div_two_pow, ← BitVec.getLsbD.eq_1]
  by_cases hi' : i < hi - lo + 1
  · have hlow : (0xC0000000 : Word).getLsbD (i + lo) = false := by
      rw [show (0xC0000000 : Word) = BitVec.ofNat 32 (3 * 2 ^ 30) from rfl, BitVec.getLsbD_ofNat, Nat.testBit_mul_two_pow,
        decide_eq_false (by omega : ¬30 ≤ i + lo)]
      simp
    rw [BitVec.getLsbD_or, BitVec.getLsbD_and, hlow, Bool.and_false, Bool.false_or]
  · simp [hi']

theorem sessStat_fields (old : Word) {g l p : Nat} (hg : g ≤ 128) (hl : l < 12) (hp : p ≤ 4) :
    let w : Word := (old &&& 0xC0000000) ||| BitVec.ofNat 32 (8 * 65536 + g * 256 + l * 16 + p * 2 + 1)
    field w 0 0 = 1 ∧ field w 3 1 = p ∧ field w 7 4 = l ∧ field w 19 16 = 8 ∧ field w 15 8 = g := by
  intro w
  refine ⟨?_, ?_, ?_, ?_, ?_⟩ <;>
  · rw [field_keepLatched old _ (by decide) (by decide)]
    simp only [field, BitVec.toNat_ofNat]
    omega

/-- The session's registers and context behind HELLO, before its reply. -/
def State.granted (s : State) (q : Req) (n priv win : Nat) (ticket : List Byte) : State :=
  let g := min win (s.fget R.POOL_FREE_CELLS)
  let s := (s.fset R.POOL_FREE_CELLS (s.fget R.POOL_FREE_CELLS - g)).setCtx n { evchip := (q.p 0).getLsbD 22, ticket := ticket }
  let keep := s.rget (R.SESS_STAT n) &&& 0xC0000000
  (s.rset (R.SESS_STAT n) (keep ||| BitVec.ofNat 32 (8 * 65536 + g * 256 + q.link.val * 16 + priv * 2 + 1))).rset (R.SESS_LOAD n) 0

theorem State.openSession_eq (s : State) (q : Req) (n priv win : Nat) (ticket : List Byte) :
    s.openSession q n priv win ticket = (s.granted q n priv win ticket).reply 0x01 { q with session := BitVec.ofNat 5 n } St.ok
      [BitVec.ofNat 32 (min win (s.fget R.POOL_FREE_CELLS)), (s.granted q n priv win ticket).rget R.CHIP_ID] := rfl

/-- A packet to a session takes the credits that wait and nothing else of its context. -/
theorem State.send_ctx_evchip (s : State) (p : Packet) (n : Nat) : ((s.send p).ctx n).evchip = (s.ctx n).evchip := by
  change ((s.setCtx p.session.toNat _).ctx n).evchip = _
  rw [State.ctx_setCtx]
  split
  next h => rw [h]
  next => rfl

theorem State.reply_ctx_evchip (s : State) (op : BitVec 8) (q : Req) (st : BitVec 8) (ps : List Word) (pl : List Byte) (n : Nat) :
    ((s.reply op q st ps pl).ctx n).evchip = (s.ctx n).evchip := by
  unfold State.reply
  extract_lets m took back s₁
  have hctx : s₁.ctx n = s.ctx n := by unfold s₁; split <;> rfl
  split
  · rw [State.ctx_modCtx, ← hctx]
    split
    next h => rw [h]
    next => rfl
  · rw [State.send_ctx_evchip, hctx]

/-- HELLO takes no slot, so its reply gives none back. -/
theorem State.reply_hello_rget (s : State) (q : Req) (st : BitVec 8) (ps : List Word) (pl : List Byte) (a : Nat) :
    (s.reply 0x01 q st ps pl).rget a = s.rget a := by
  unfold State.reply
  extract_lets m took back s₁
  have hs : s₁ = s := if_neg (by simp [took])
  rw [← hs]
  split <;> rfl

section
variable (s : State) (q : Req) (n priv win : Nat) (ticket : List Byte)

theorem State.granted_mem : (s.granted q n priv win ticket).mem = s.mem := rfl

theorem State.granted_evchip : ((s.granted q n priv win ticket).ctx n).evchip = (q.p 0).getLsbD 22 := by
  change ((State.setCtx _ n _).ctx n).evchip = _
  rw [State.ctx_setCtx, if_pos rfl]

theorem State.granted_rget_other {a : Nat} (hstat : a ≠ R.SESS_STAT n) (hload : a ≠ R.SESS_LOAD n) (hpool : a ≠ R.POOL_FREE) :
    (s.granted q n priv win ticket).rget a = s.rget a := by
  rw [State.granted, State.rget_rset_other _ _ hload, State.rget_rset_other _ _ hstat]
  exact State.rget_fset_other s _ hpool

theorem State.granted_rget_stat (hn : n < 32) : (s.granted q n priv win ticket).rget (R.SESS_STAT n) =
    (s.rget (R.SESS_STAT n) &&& 0xC0000000) |||
      BitVec.ofNat 32 (8 * 65536 + min win (s.fget R.POOL_FREE_CELLS) * 256 + q.link.val * 16 + priv * 2 + 1) := by
  have hpool : R.SESS_STAT n ≠ R.POOL_FREE_CELLS.addr := by simp only [R.SESS_STAT, R.POOL_FREE_CELLS, R.POOL_FREE]; omega
  rw [State.granted, State.rget_rset_other _ _ (by unfold R.SESS_STAT R.SESS_LOAD; omega), State.rget_rset_same]
  rw [← State.rget_fset_other s _ hpool]
  rfl

/-- The granted window leaves the pool. -/
theorem State.granted_pool (hn : n < 32) : (s.granted q n priv win ticket).fget R.POOL_FREE_CELLS =
    s.fget R.POOL_FREE_CELLS - min win (s.fget R.POOL_FREE_CELLS) := by
  have hlt : s.fget R.POOL_FREE_CELLS < 2 ^ 12 := field_lt ..
  have hset := s.fget_fset_same (f := R.POOL_FREE_CELLS) (s.fget R.POOL_FREE_CELLS - min win (s.fget R.POOL_FREE_CELLS)) (by decide) (by decide)
  refine (State.fget_congr ?_).trans (hset.trans (Nat.mod_eq_of_lt (lt_of_le_of_lt (Nat.sub_le ..) hlt)))
  rw [State.granted, State.rget_rset_other _ _ (by simp only [R.SESS_LOAD, R.POOL_FREE_CELLS, R.POOL_FREE]; omega),
    State.rget_rset_other _ _ (by simp only [R.SESS_STAT, R.POOL_FREE_CELLS, R.POOL_FREE]; omega)]
  rfl

end

/-- A session that opens shows its privilege, its link, 8 slots and its grant, which the reply carries with CHIP_ID (R248, R250). -/
theorem State.openSession_spec (s : State) (q : Req) {n priv win : Nat} (ticket : List Byte) (hn : n < 32) (hpriv : priv ≤ 4)
    (hwin : win ≤ 128) :
    let g := min win (s.fget R.POOL_FREE_CELLS)
    let t := s.openSession q n priv win ticket
    t.sessOpen n = true ∧ t.fget (R.SESS_STAT_PRIV n) = priv ∧ t.fget (R.SESS_STAT_LINK n) = q.link.val ∧ t.fget (R.SESS_STAT_SLOTS n) = 8 ∧
      t.fget (R.SESS_STAT_WIN n) = g ∧ t.fget R.POOL_FREE_CELLS = s.fget R.POOL_FREE_CELLS - g ∧ (t.ctx n).evchip = (q.p 0).getLsbD 22 ∧
      Answered t 0x01 { q with session := BitVec.ofNat 5 n } St.ok [BitVec.ofNat 32 g, s.rget R.CHIP_ID] [] ∧
      (∀ a, a ≠ R.SESS_STAT n → a ≠ R.SESS_LOAD n → a ≠ R.POOL_FREE → t.rget a = s.rget a) ∧ t.mem = s.mem := by
  intro g t
  have hrget (a : Nat) : t.rget a = (s.granted q n priv win ticket).rget a := State.reply_hello_rget ..
  have hid : (s.granted q n priv win ticket).rget R.CHIP_ID = s.rget R.CHIP_ID := s.granted_rget_other q n priv win ticket
    (by unfold R.CHIP_ID R.SESS_STAT; omega) (by unfold R.CHIP_ID R.SESS_LOAD; omega) (by decide)
  have hstat := (hrget _).trans (s.granted_rget_stat q n priv win ticket hn)
  obtain ⟨hopen, hprivs, hlink, hslots, hcells⟩ := sessStat_fields (s.rget (R.SESS_STAT n)) (g := g) (by omega) q.link.isLt hpriv
  rw [← hstat] at hopen hprivs hlink hslots hcells
  refine ⟨by rw [State.sessOpen, State.flag, State.fget]; simp only [R.SESS_STAT_OPEN, hopen]; rfl, hprivs, hlink, hslots, hcells,
    (State.fget_congr (hrget _)).trans (s.granted_pool q n priv win ticket hn), (State.reply_ctx_evchip ..).trans (s.granted_evchip ..), ?_,
    fun a hs hl hp => (hrget a).trans (s.granted_rget_other q n priv win ticket hs hl hp),
    (State.reply_replies ..).mem.trans (s.granted_mem q n priv win ticket)⟩
  rw [← hid]
  exact State.reply_answered _ _ _ _ _ _

/-- HELLO whose fields are legal, which names a closed session, and whose credential Table 13.3 accepts opens the session. -/
theorem doHello_eq {q : Req} {s : State} {n : Nat} (hruns : s.runs 0x01 q = true) (hn : n < 32) (hclosed : s.sessOpen n = false)
    (hslot : ((q.p 0).getLsbD 21 = false ∧ n = nbits (q.n 0) 20 16) ∨ ((q.p 0).getLsbD 21 = true ∧ ∀ k < n, s.sessOpen k = true))
    (hfields : ¬(q.n 0 / 8 % 32 ≠ 0 ∨ 2 ^ 23 ≤ q.n 0 ∨ 4 < q.n 0 % 8 ∨ nbits (q.n 0) 15 8 < 8 ∨ 128 < nbits (q.n 0) 15 8))
    (hpool : 8 ≤ s.fget R.POOL_FREE_CELLS)
    (hcred : s.need (q.n 0 % 8) = .none ∨ (s.need (q.n 0 % 8) ≠ .refused ∧
      s.credentialOk (s.need (q.n 0 % 8)) (q.n 0 % 8) q.payload q.verdict = true)) :
    doHello q s = s.routine.openSession q n (q.n 0 % 8) (nbits (q.n 0) 15 8)
      (if s.routine.need (q.n 0 % 8) = .ticket then sub q.payload 40 136 else []) := by
  have hcounts := s.routine_counts
  have hfree : s.routine.fget R.POOL_FREE_CELLS = s.fget R.POOL_FREE_CELLS := State.fget_congr (hcounts.rget_lt (by decide))
  have hfind : (if (q.p 0).getLsbD 21 then (List.range 32).find? fun k => !s.routine.sessOpen k
      else if s.routine.sessOpen (nbits (q.n 0) 20 16) then none else some (nbits (q.n 0) 20 16)) = some n := by
    rcases hslot with ⟨hbit, rfl⟩ | ⟨hbit, hopen⟩
    · rw [hbit, hcounts.sessOpen hn, hclosed]; rfl
    · rw [if_pos hbit, List.find?_range_eq_some]
      refine ⟨by rw [hcounts.sessOpen hn, hclosed]; rfl, List.mem_range.2 hn, fun k hk => ?_⟩
      rw [hcounts.sessOpen (by omega), hopen k hk]; rfl
  have haccepted : ¬(s.routine.need (q.n 0 % 8) = .refused ∨ (s.routine.need (q.n 0 % 8) ≠ .none ∧
      (!s.routine.credentialOk (s.routine.need (q.n 0 % 8)) (q.n 0 % 8) q.payload q.verdict) = true)) := by
    rw [hcounts.need, hcounts.credentialOk]
    rcases hcred with hnone | ⟨hneed, hok⟩
    · simp [hnone]
    · simp [hneed, hok]
  rw [doHello, State.request_of_runs hruns rfl]
  simp only [if_neg hfields, hfind, if_neg (Nat.not_lt.2 (hfree.symm ▸ hpool)), if_neg haccepted]

/-! ## A session closes -/

/-- What of the closing of a session stands behind its SESS_STAT: no packet and no register below the engine's block changes. -/
def Aside (s t : State) : Prop := t.txq = s.txq ∧ ∀ a, a < 0x40000 → t.rget a = s.rget a

section
variable {s t u : State}

theorem Aside.of_eq (htxq : t.txq = s.txq) (hregs : t.regs = s.regs) : Aside s t := ⟨htxq, fun a _ => State.rget_congr hregs a⟩

theorem Aside.trans (h : Aside s t) (h' : Aside t u) : Aside s u :=
  ⟨h'.1.trans h.1, fun a ha => (h'.2 a ha).trans (h.2 a ha)⟩

theorem Aside.foldl {α : Type} {f : State → α → State} (hstep : ∀ s x, Aside s (f s x)) : ∀ (l : List α) (s : State), Aside s (l.foldl f s)
  | [], _ => .of_eq rfl rfl
  | x :: l, s => (hstep s x).trans (Aside.foldl hstep l (f s x))

theorem State.complete_aside (s : State) (x : Split) (st : BitVec 8) : Aside s (s.complete x st) := by
  have hcompletes := s.complete_completes x st [] [] .none
  exact ⟨hcompletes.txq, fun a ha => hcompletes.regs a (by unfold R.ENG_STATUS; omega)⟩

theorem State.stagingDrop_aside (s : State) (st : BitVec 8) : Aside s (s.stagingDrop st) := by
  have hflag : Aside s ({ s with staging := none }.setFlag R.LC_STATUS_STAGING false) :=
    ⟨rfl, fun a ha => State.rget_fset_other _ _ (by simp only [R.LC_STATUS_STAGING, R.LC_STATUS]; omega)⟩
  exact hflag.trans (Aside.foldl (fun s x => s.complete_aside x st) _ _)

/-- SESS_STAT of a session that closes: only its latched bits and its link stay. -/
def State.shut (s : State) (n : Nat) : State :=
  let s := s.fset R.POOL_FREE_CELLS (s.fget R.POOL_FREE_CELLS + s.fget (R.SESS_STAT_WIN n))
  s.rset (R.SESS_STAT n) (s.rget (R.SESS_STAT n) &&& 0xC00000F0)

theorem State.shut_sessOpen (s : State) (n : Nat) : (s.shut n).sessOpen n = false := by
  have hbit (w : Word) : field (w &&& 0xC00000F0) 0 0 = 0 := by
    rw [field, BitVec.toNat_and, Nat.pow_zero, Nat.div_one, Nat.and_mod_two_pow]
    exact Nat.and_zero _
  rw [State.sessOpen, State.flag, State.fget]
  simp only [R.SESS_STAT_OPEN, State.shut, State.rget_rset_same, hbit]
  rfl

/-- What the closing of a session leaves behind: no packet is lost, the session is not open, and its context is as after a reset (R253). -/
theorem State.closeSession_spec (s : State) {n : Nat} (hn : n < 32) :
    (s.closeSession n).txq = s.txq ∧ (s.closeSession n).sessOpen n = false ∧ (s.closeSession n).ctx n = {} := by
  unfold State.closeSession
  extract_lets s₁ s₂ s₃ me gone fresh s₄ s₅ s₆ s₇
  have hload : s₃.txq = s.txq ∧ s₃.rget (R.SESS_STAT n) = (s.shut n).rget (R.SESS_STAT n) := by
    have hne : R.SESS_STAT n ≠ R.SESS_LOAD n := by unfold R.SESS_STAT R.SESS_LOAD; omega
    exact ⟨rfl, (State.rget_fset_other _ _ hne).trans (State.rget_fset_other _ _ hne)⟩
  clear_value s₃ gone
  have hsplits : Aside s₃ s₄ := .of_eq rfl rfl
  clear_value s₄
  have hstaging : Aside s₄ s₅ := by
    unfold s₅
    split
    · exact s₄.stagingDrop_aside St.aborted
    · exact .of_eq rfl rfl
  clear_value s₅
  have htiles : Aside s₅ s₆ := .of_eq rfl rfl
  clear_value s₆
  have hstreams : Aside s₆ s₇ := Aside.foldl (fun s k => show Aside s (s.setStrm k _) from .of_eq rfl rfl) _ _
  clear_value s₇
  obtain ⟨htxq, hregs⟩ := ((hsplits.trans hstaging).trans htiles).trans hstreams
  refine ⟨htxq.trans hload.1, ?_, by rw [State.ctx_setCtx, if_pos rfl]⟩
  have hstat : (s₇.setCtx n {}).rget (R.SESS_STAT n) = (s.shut n).rget (R.SESS_STAT n) :=
    (hregs _ (by unfold R.SESS_STAT; omega)).trans hload.2
  exact (State.flag_congr (f := R.SESS_STAT_OPEN n) hstat).trans (s.shut_sessOpen n)

end

/-- Settles O9: the fields of the word that HELLO writes are its grant; what BYE and SESSION_TIMEOUT share closes the session. -/
theorem sessionsOpenClose : Obligations.SessionsOpenClose := by
  unfold Obligations.SessionsOpenClose
  refine ⟨?hello, ?bye, ?timeout⟩
  case hello =>
    intro q s n hruns hn hclosed hslot hbits hrsv hpriv hlow hhigh hpool hcred
    have hcounts := s.routine_counts
    have hfree : s.routine.fget R.POOL_FREE_CELLS = s.fget R.POOL_FREE_CELLS := State.fget_congr (hcounts.rget_lt (by decide))
    have hexec : exec (.hello q) s = .next (doHello q s) := congrArg Host.Outcome.next (State.byTable_of_runs hruns _)
    rw [doHello_eq hruns hn hclosed hslot (by omega) hpool hcred] at hexec
    obtain ⟨hopen, hprivs, hlink, hslots, hcells, hleft, hevchip, hanswer, hregs, hmem⟩ := s.routine.openSession_spec q
      (if s.routine.need (q.n 0 % 8) = .ticket then sub q.payload 40 136 else []) hn hpriv hhigh
    rw [hfree] at hcells hleft hanswer
    rw [hcounts.rget_lt (by decide)] at hanswer
    refine ⟨_, hexec, hopen, hprivs, hlink, hslots, hcells, hleft, hevchip, hanswer, fun a ha => ?_, .of_mem (hmem.trans hcounts.mem)⟩
    obtain ⟨⟨⟨hcount, hstat⟩, hload⟩, hpooled⟩ : ((counting a = false ∧ a ≠ R.SESS_STAT n) ∧ a ≠ R.SESS_LOAD n) ∧ a ≠ R.POOL_FREE := by
      simpa using ha
    exact (hregs a hstat hload hpooled).trans (hcounts.regs a hcount)
  case bye =>
    intro q s hruns
    obtain ⟨htxq, hopen, hctx⟩ := State.closeSession_spec ((s.routine.abortWaiting q.session.toNat (s.waiting q.session.toNat)).reply 0x02 q St.ok)
      q.session.isLt
    have hexec : exec (.bye q) s = .next (doBye q s) := congrArg Host.Outcome.next (State.byTable_of_runs hruns _)
    rw [doBye, State.bye, State.request_of_runs hruns rfl] at hexec
    refine ⟨_, hexec, hopen, ?_, hctx⟩
    exact (State.reply_answered _ 0x02 q St.ok [] []).mono fun p hp => htxq ▸ hp
  case timeout =>
    intro k s htimeout hopen
    obtain ⟨-, hclosed, hctx⟩ := State.closeSession_spec (s.abortWaiting k.toNat (s.waiting k.toNat)) k.isLt
    have hdo : doSessionTimeout k s = (s.abortWaiting k.toNat (s.waiting k.toNat)).closeSession k.toNat :=
      if_neg (by simp [htimeout, hopen])
    exact ⟨_, congrArg Host.Outcome.next hdo, hclosed, hctx⟩

end Sys2Proof.Machine
end

section
/-! SUPPORT. Which item the engine takes at a boundary, and the round robin where one request waits (01_architecture.md R33;
11_naljo_engine.md R277, R278). -/

namespace Sys2Proof.Machine

variable {s t : State}

/-! ## Classes 1 and 2 -/

/-- The first item is one of those that wait, and has a rank. -/
theorem mem_of_firstItem {l : List Item} {i : Item} (h : firstItem l = some i) : i ∈ l ∧ ∃ k, itemRank i = some k := by
  induction l with
  | nil => cases h
  | cons a l ih =>
    unfold firstItem at h
    split at h
    next => exact (ih h).imp_left (List.mem_cons_of_mem a)
    next k hk _ => cases h; exact ⟨List.mem_cons_self, k, hk⟩
    next k j hk hj =>
      split at h
      · cases h; exact ⟨List.mem_cons_self, k, hk⟩
      · cases h; exact (ih hj).imp_left (List.mem_cons_of_mem a)

theorem rank_of_firstItem_none {l : List Item} (h : firstItem l = none) : ∀ i ∈ l, itemRank i = none := by
  induction l with
  | nil => simp
  | cons a l ih =>
    unfold firstItem at h
    split at h
    next ha => exact List.forall_mem_cons.2 ⟨ha, ih h⟩
    next => cases h
    next => split at h <;> cases h

/-- An item whose rank is the least of all, and no other's, is the first. -/
theorem firstItem_eq_some {l : List Item} {i : Item} {k : Nat} (hmem : i ∈ l) (hrank : itemRank i = some k)
    (hleast : ∀ j ∈ l, ∀ m, itemRank j = some m → k ≤ m ∧ (m = k → j = i)) : firstItem l = some i := by
  induction l with
  | nil => cases hmem
  | cons a l ih =>
    obtain ⟨hhead, htail⟩ := List.forall_mem_cons.1 hleast
    unfold firstItem
    split
    next ha =>
      refine ih ((List.mem_cons.1 hmem).resolve_left ?_) htail
      rintro rfl
      simp [hrank] at ha
    next _ _ hnone =>
      refine congrArg some ((List.mem_cons.1 hmem).resolve_right fun hi => ?_).symm
      simp [rank_of_firstItem_none hnone i hi] at hrank
    next m j ha hj =>
      obtain ⟨hjl, n, hn⟩ := mem_of_firstItem hj
      obtain ⟨hkn, -⟩ := htail j hjl n hn
      obtain ⟨hkm, hsame⟩ := hhead m ha
      rw [hn, Option.getD_some]
      by_cases hi : i ∈ l
      · obtain rfl : j = i := Option.some.inj (hj.symm.trans (ih hi htail))
        obtain rfl : n = k := Option.some.inj (hn.symm.trans hrank)
        split
        · rw [hsame (by omega)]
        · rfl
      · obtain rfl := (List.mem_cons.1 hmem).resolve_right hi
        obtain rfl : k = m := Option.some.inj (hrank.symm.trans ha)
        rw [if_pos hkn]

/-- A trap of the engine itself, before which no other waits, is taken first. -/
theorem firstItem_trap {c : Nat} {l : List Item} (hc : c < 2 ^ 10) (hmem : .trap c ∈ l) (hleast : ∀ k, .trap k ∈ l → c ≤ k) :
    firstItem l = some (.trap c) := by
  refine firstItem_eq_some hmem rfl fun j hj m hm => ?_
  cases j with
  | trap k =>
    obtain rfl : k = m := Option.some.inj hm
    exact ⟨hleast k hj, fun h => h ▸ rfl⟩
  | completion => cases hm
  | request => cases hm
  | _ =>
    have hm := Option.some.inj hm
    constructor <;> intros <;> omega

/-! ## The round robin -/

/-- Where one value only can be found, and some element has it, it is found. -/
theorem findSome?_eq_some_of_unique {α β : Type} {f : α → Option β} {l : List α} {a : α} {b : β} (ha : a ∈ l) (hb : f a = some b)
    (hall : ∀ x ∈ l, ∀ c, f x = some c → c = b) : l.findSome? f = some b := by
  cases h : l.findSome? f with
  | none => simp [List.findSome?_eq_none_iff.1 h a ha] at hb
  | some c =>
    obtain ⟨x, hx, hc⟩ := List.exists_of_findSome?_eq_some h
    rw [hall x hx c hc]

/-- Each turn comes to every member of the round robin. -/
theorem mem_roundRobin (r : Nat) {n : Nat} (h : n < 33) : n ∈ (List.range 33).map fun k => (r + 1 + k) % 33 :=
  List.mem_map.2 ⟨(n + 33 - (r + 1) % 33) % 33, List.mem_range.2 (by omega), by omega⟩

/-- Where one member only has something to take, it is found whoever was served last. -/
theorem findSome?_roundRobin {β : Type} {f : Nat → Option β} {m : Nat} {b : β} (r : Nat) (hm : m < 33)
    (hf : ∀ n < 33, f n = if n = m then some b else none) : ((List.range 33).map fun k => (r + 1 + k) % 33).findSome? f = some b := by
  refine findSome?_eq_some_of_unique (mem_roundRobin r hm) ((hf m hm).trans (if_pos rfl)) fun n hn c hc => ?_
  obtain ⟨k, -, rfl⟩ := List.mem_map.1 hn
  rw [hf _ (Nat.mod_lt _ (by decide))] at hc
  split at hc
  · exact (Option.some.inj hc).symm
  · cases hc

theorem findSome?_roundRobin_none {β : Type} {f : Nat → Option β} (r : Nat) (hf : ∀ n < 33, f n = none) :
    ((List.range 33).map fun k => (r + 1 + k) % 33).findSome? f = none := by
  refine List.findSome?_eq_none_iff.2 fun n hn => ?_
  obtain ⟨k, -, rfl⟩ := List.mem_map.1 hn
  exact hf _ (Nat.mod_lt _ (by decide))

/-! ## Nothing waits -/

theorem doVeingBoundaryAccess_idle (h : s.veing.cmd = none) : doVeingBoundaryAccess s = s := by
  unfold doVeingBoundaryAccess
  simp only [h]

theorem State.nextOf_empty (h : s.items = []) (n : Nat) : s.nextOf n = none := by
  simp [State.nextOf, State.waiting, h]

theorem State.turn_empty (h : s.items = []) (n : Nat) : s.turn n = none := by
  rw [State.turn, State.nextOf_empty h]

theorem doRoutineDispatch_empty (h : s.items = []) (hveing : s.veing.cmd = none) : doRoutineDispatch s = s := by
  rw [doRoutineDispatch, doVeingBoundaryAccess_idle hveing, h]
  dsimp only [firstItem, List.find?, List.findSome?_nil]
  rw [findSome?_roundRobin_none s.rr fun n _ => State.turn_empty h n]
  rfl

theorem State.nextItem_empty (h : s.items = []) : s.nextItem = none := by
  rw [State.nextItem, h]
  dsimp only [firstItem, List.find?]
  rw [findSome?_roundRobin_none s.rr fun n _ => by rw [State.turn_empty h]; rfl]
  rfl

theorem State.abandon_empty (h : s.items = []) : s.abandon = s := by
  rw [State.abandon, State.nextItem_empty h]

/-! ## One completion event waits -/

/-- A completion event of an operation that a ROM routine has entered waits alone: a routine of the ROM sends it (R277). -/
theorem doRoutineDispatch_completion {p : Packet} {live quiet : Bool} (hitems : s.items = [.completion p live quiet .none])
    (hentry : p.entry = none) (hveing : s.veing.cmd = none) :
    doRoutineDispatch s = State.sendEvent (State.routine { s with items := [] }) p live quiet := by
  have hfind : List.find? isCompletion [Item.completion p live quiet .none] = some (.completion p live quiet .none) := rfl
  rw [doRoutineDispatch, doVeingBoundaryAccess_idle hveing, hitems]
  simp only [firstItem, itemRank, hfind, List.erase_cons_head, State.itemRoutine, hentry]
  rfl

/-! ## One request waits -/

/-- The member of the round robin that a request belongs to: its session, or the HELLO buffers. -/
def reqMember (op : BitVec 8) (q : Req) : Nat := if op = 0x01 then 32 else q.session.toNat

theorem reqMember_lt (op : BitVec 8) (q : Req) : reqMember op q < 33 := by
  have := q.session.isLt
  unfold reqMember
  split <;> omega

section
variable {op : BitVec 8} {q : Req}

theorem State.waiting_lone (h : s.items = [.request op q]) (n : Nat) :
    s.waiting n = if op ≠ 0x01 ∧ n = q.session.toNat then [(op, q)] else [] := by
  rw [State.waiting, h]
  simp only [List.filterMap_cons, List.filterMap_nil, Bool.and_eq_true, bne_iff_ne, beq_iff_eq, eq_comm (a := n)]
  split_ifs <;> rfl

/-- Only the member of the one request that waits has one. -/
theorem State.nextOf_lone (h : s.items = [.request op q]) (n : Nat) :
    s.nextOf n = if n = reqMember op q then some (op, q) else none := by
  have hsess := q.session.isLt
  unfold State.nextOf reqMember
  by_cases hop : op = 0x01
  · rw [if_pos hop]
    split_ifs with hn
    · rw [h]
      refine findSome?_eq_some_of_unique (a := q.link.val) (List.mem_range.2 q.link.isLt) ?_ fun l _ c hc => ?_
      · simp only [List.findSome?_cons, hop, true_and, if_true]
      · simp only [List.findSome?_cons, List.findSome?_nil] at hc
        split_ifs at hc
        exact (Option.some.inj hc).symm
    · rw [State.waiting_lone h, if_neg (fun e => e.1 hop)]
      rfl
  · rw [if_neg hop]
    by_cases hn : n = 32
    · rw [if_pos hn, if_neg (by omega), h]
      refine List.findSome?_eq_none_iff.2 fun l _ => ?_
      simp only [List.findSome?_cons, List.findSome?_nil, hop, false_and, if_false]
    · rw [if_neg hn, State.waiting_lone h]
      simp only [ne_eq, hop, not_false_eq_true, true_and]
      split_ifs <;> rfl

theorem State.copies_lone (h : s.items = [.request op q]) : s.copies op q = 1 := by
  simp [State.copies, h]

/-- The request that waits alone and that its routine does not hold is served in its member's turn, and only there. -/
theorem State.turn_lone (h : s.items = [.request op q]) (hrun : (s.runRequest op q).copies op q = 0) (n : Nat) :
    s.turn n = if n = reqMember op q then some { s.runRequest op q with rr := reqMember op q } else none := by
  rw [State.turn, State.nextOf_lone h]
  split_ifs with hn
  · dsimp only
    rw [if_neg (by rw [State.copies_lone h, hrun]; decide), hn]
  · rfl

/-- A request that waits alone gives its member the turn, unless it is an ABORT (R278). -/
theorem doRoutineDispatch_request (h : s.items = [.request op q]) (hveing : s.veing.cmd = none)
    (hrun : (s.runRequest op q).copies op q = 0) :
    doRoutineDispatch s = if op = 0x33 then s.runRequest op q else { s.runRequest op q with rr := reqMember op q } := by
  have hcompletion : List.find? isCompletion [Item.request op q] = none := rfl
  rw [doRoutineDispatch, doVeingBoundaryAccess_idle hveing]
  simp only [h, firstItem, itemRank, hcompletion, List.findSome?_cons, List.findSome?_nil]
  split_ifs with hop
  · dsimp only
    rw [hop]
  · rw [findSome?_roundRobin s.rr (reqMember_lt op q) fun n _ => State.turn_lone h hrun n]
    rfl

/-- The request that waits alone, unless its routine holds it, is taken next. -/
theorem State.nextItem_lone (h : s.items = [.request op q]) (hrun : (s.runRequest op q).copies op q = 0) :
    s.nextItem = some (.request op q) := by
  have htaken : ∀ n < 33, (if (s.turn n).isSome then s.nextOf n else none) = if n = reqMember op q then some (op, q) else none := by
    intro n _
    rw [State.turn_lone h hrun, State.nextOf_lone h]
    split_ifs <;> simp_all
  have hcompletion : List.find? isCompletion [Item.request op q] = none := rfl
  rw [State.nextItem, h]
  simp only [firstItem, itemRank, hcompletion]
  by_cases hop : op = 0x33
  · subst hop
    rfl
  · simp only [List.find?_cons, beq_eq_false_iff_ne.2 hop, List.find?_nil]
    rw [findSome?_roundRobin s.rr (reqMember_lt op q) htaken]
    rfl

end

end Sys2Proof.Machine
end

section
/-! SUPPORT. Traps and the routine bound: what the trap routine leaves alone, and a routine that is abandoned before its first effect
(11_naljo_engine.md R280; log entry 62). -/

namespace Sys2Proof.Machine

variable {s₀ s t : State}

/-! ## Items that counting adds -/

/-- The items that wait are the same, but for overflow interrupts. -/
def ItemsKept (s t : State) : Prop := ∀ i, (∀ m, i ≠ .overflow m) → (i ∈ t.items ↔ i ∈ s.items)

theorem ItemsKept.trans (h : ItemsKept s₀ s) (k : ItemsKept s t) : ItemsKept s₀ t := fun i hi => (k i hi).trans (h i hi)

theorem ItemsKept.of_items (h : t.items = s.items) : ItemsKept s t := fun i _ => by rw [h]

theorem Counts.itemsKept (h : Counts s t) : ItemsKept s t := by
  intro i hi
  obtain ⟨l, hl, hover⟩ := h.items
  rw [hl, List.mem_append, or_iff_left fun hil => ?_]
  obtain ⟨m, rfl⟩ := hover i hil
  exact hi m rfl

/-! ## The trap routine (R280) -/

/-- What counting and recording leave alone: memory, the packets and items that wait but for overflow interrupts, the moraine's dump, and every
register but those of counters and records. -/
structure Records (s t : State) : Prop where
  mem : t.mem = s.mem
  txq : t.txq = s.txq
  dumping : t.dumping = s.dumping
  items : ItemsKept s t
  regs : RegsSame (fun a => counting a || recordReg a) s t

theorem Records.trans (h : Records s₀ s) (k : Records s t) : Records s₀ t :=
  ⟨k.mem.trans h.mem, k.txq.trans h.txq, k.dumping.trans h.dumping, h.items.trans k.items, h.regs.trans k.regs⟩

theorem Counts.records (h : Counts s t) : Records s t :=
  ⟨h.mem, h.txq, h.dumping, h.itemsKept, h.regs.mono fun a ha => by simp [ha]⟩

/-- With room in the moraine a record is lost nowhere, so no fault sets. -/
theorem State.stage_eq_stageOnly (s : State) (hroom : s.staged.length < 128) (code : Nat) (data : List Byte) (real inj : Bool)
    (time : Option (BitVec 64)) : s.stage code data real inj time = s.stageOnly code data real inj time := by
  have hrecord := (s.stageOnly_logs hroom code data real inj time).1
  obtain ⟨hrec, hcnt⟩ := faultReg_apart (b := 0x80000) (o := 0xf00) (by decide) (by decide)
  have hlost : (s.stageOnly code data real inj time).faultSet 0x80000 1 false = s.faultSet 0x80000 1 false :=
    congrArg (BitVec.getLsbD · 1) (hrecord.rget hrec hcnt)
  unfold State.stage
  exact if_neg (by rw [hlost]; simp)

theorem Logs.txq {p : Nat → Bool} (h : Logs p s t) : t.txq = s.txq := (congrArg State.txq h.same :)
theorem Logs.dumping {p : Nat → Bool} (h : Logs p s t) : t.dumping = s.dumping := (congrArg State.dumping h.same :)

theorem State.stage_records (s : State) (hroom : s.staged.length < 128) (code : Nat) (data : List Byte) (real inj : Bool)
    (time : Option (BitVec 64)) : Records s (s.stage code data real inj time) := by
  have hlogs := (s.stage_logs hroom code data real inj time).1
  refine ⟨hlogs.mem, hlogs.txq, hlogs.dumping, ?_, hlogs.regs.mono fun a ha => by
    rwa [Bool.or_comm] at ha⟩
  rw [s.stage_eq_stageOnly hroom]
  unfold State.stageOnly
  rw [if_pos hroom]
  exact (ItemsKept.of_items rfl).trans (State.evCount_counts ..).itemsKept

/-- The trap routine of cause `c` has shown its cause and begun a dump, and has left memory, the packets and the other items that wait, and the
other registers alone. -/
structure Trapped (c : Nat) (s t : State) : Prop where
  cause : t.rget R.ENG_TRAP = BitVec.ofNat 32 (2 ^ 31 + c)
  dump : ∃ d, t.dumping = some d ∧ d.cause = c
  mem : t.mem = s.mem
  txq : t.txq = s.txq
  items : ItemsKept s t
  regs : RegsSame (fun a => counting a || recordReg a || a == R.ENG_TRAP) s t

theorem State.trapRoutine_trapped (s : State) (c : Nat) (inj : Bool) (hroom : s.staged.length < 128)
    (hheld : s.flag R.DUMP_STATUS_HELD = false) (hdump : s.dumping = none) : Trapped c s (s.trapRoutine c inj) := by
  unfold State.trapRoutine
  extract_lets s₁
  split
  rename_i w s₂ h₂
  split
  rename_i v s₃ h₃
  extract_lets seq doing s₄ s₅
  have hfirst := s.romRan_counts
  have hnext : Counts (s.romRan.rset R.ENG_TRAP (BitVec.ofNat 32 (2 ^ 31 + c))) s₃ :=
    ((State.evCount_counts ..).trans (State.free_counts h₂)).trans (State.free_counts h₃)
  have hroom₃ : s₃.staged.length < 128 := by rwa [hnext.staged, State.rset_staged, hfirst.staged]
  have hrest : Records (s.romRan.rset R.ENG_TRAP (BitVec.ofNat 32 (2 ^ 31 + c))) s₅ :=
    (hnext.records.trans (s₃.stage_records hroom₃ ..)).trans ⟨rfl, rfl, rfl, .of_items rfl, fun _ _ => rfl⟩
  clear_value s₅
  have hregs : RegsSame (fun a => counting a || recordReg a || a == R.ENG_TRAP) s s₅ :=
    ((hfirst.regs.mono fun a ha => by simp [ha]).trans (RegsSame.rset _ (by simp) _)).trans (hrest.regs.mono fun a ha => by
      rw [ha, Bool.true_or])
  have hheld₅ : s₅.flag R.DUMP_STATUS_HELD = false := (State.flag_congr (hregs _ (by decide))).trans hheld
  have hdump₅ : s₅.dumping = none := hrest.dumping.trans ((State.rset_dumping ..).trans (hfirst.dumping.trans hdump))
  rw [if_neg (by simp [hheld₅, hdump₅])]
  exact {
    cause := (hrest.regs _ (by decide)).trans (State.rget_rset_same ..)
    dump := ⟨_, rfl, rfl⟩
    mem := hrest.mem.trans hfirst.mem
    txq := hrest.txq.trans hfirst.txq
    items := (hfirst.itemsKept.trans (.of_items rfl)).trans hrest.items
    regs := hregs }

/-! ## A routine is abandoned (log entry 62) -/

theorem Reports.veing {p : Nat → Bool} (h : Reports p s t) : t.veing = s.veing := (congrArg State.veing h.same :)
theorem Reports.staged {p : Nat → Bool} (h : Reports p s t) : t.staged = s.staged := (congrArg State.staged h.same :)
theorem Reports.dumping {p : Nat → Bool} (h : Reports p s t) : t.dumping = s.dumping := (congrArg State.dumping h.same :)

/-- What a request that leaves the queue and an error reply leave alone: they change what an event to a session may, and add no item but overflow
interrupts. -/
structure Abandons (s t : State) : Prop where
  reports : Reports (fun _ => false) s t
  items : ItemsKept s t

theorem Abandons.trans (h : Abandons s₀ s) (k : Abandons s t) : Abandons s₀ t := ⟨h.reports.trans k.reports, h.items.trans k.items⟩

theorem Counts.abandons (h : Counts s t) : Abandons s t := ⟨.of_counts h, h.itemsKept⟩

theorem Replies.reports {n : Nat} {p : Nat → Bool} (hn : n < 32) (h : Replies n s t) : Reports p s t :=
  ⟨congrArg (fun x : State => ({ x with splits := s.splits, evc := s.evc, items := s.items, freeCtr := s.freeCtr, maxLen := s.maxLen,
                                        maxClk := s.maxClk, micro := s.micro } : State)) h.same,
    fun a ha => h.regs a (by rintro rfl; simp [sessReg_stat hn] at ha)⟩

theorem State.fset_abandons (s : State) {f : Fld} (h : sessReg f.addr = true) (v : Nat) : Abandons s (s.fset f v) :=
  ⟨(Reports.refl s).fset_sess h v, .of_items rfl⟩

theorem State.freeCells_abandons (s : State) (n k : Nat) : Abandons s (s.freeCells n k) := by
  unfold State.freeCells
  split <;> exact ⟨⟨rfl, fun _ _ => rfl⟩, .of_items rfl⟩

theorem State.taken_abandons (s : State) (op : BitVec 8) (q : Req) : Abandons s (s.taken op q) := by
  have hload := sessReg_load q.session.isLt
  unfold State.taken
  extract_lets n held s₁ s₂
  split
  · exact ⟨.refl s, .of_items rfl⟩
  · exact ((State.fset_abandons s (f := R.SESS_LOAD_PEND q.session.toNat) hload _).trans
      (State.fset_abandons _ (f := R.SESS_LOAD_CELLS q.session.toNat) hload _)).trans (State.freeCells_abandons ..)

theorem State.fail_abandons (s : State) (op : BitVec 8) (q : Req) (st : BitVec 8) (p0 : Word) : Abandons s (s.fail op q st p0) :=
  (State.evCount_counts ..).abandons.trans
    ⟨(State.reply_replies ..).reports q.session.isLt, .of_items (State.reply_replies (s.evCount 9) op q st [p0] []).items⟩

/-- The request that waits alone, unless its routine holds it, is taken from the queue and answered INTERNAL. -/
theorem State.abandon_lone {op : BitVec 8} {q : Req} (h : s.items = [.request op q]) (hrun : (s.runRequest op q).copies op q = 0) :
    Abandons { s with items := [] } s.abandon ∧ Answered s.abandon op q St.internal [0] [] := by
  rw [State.abandon, State.nextItem_lone h hrun, h]
  simp only [List.erase_cons_head]
  generalize hr : State.taken { s with items := [] } op q = r
  have htaken : Abandons { s with items := [] } r := hr ▸ State.taken_abandons ..
  have hat : Abandons (r.fail op q St.internal) ((r.fail op q St.internal).trapAt op q.session q.tag) :=
    ⟨⟨rfl, fun _ _ => rfl⟩, .of_items rfl⟩
  exact ⟨(htaken.trans (r.fail_abandons op q St.internal 0)).trans hat, State.reply_answered _ op q St.internal [0] []⟩

/-! ## The rows -/

/-- A trap of cause 1 to 4 that is taken first runs its routine. -/
theorem State.takeFirst_trap (s : State) (c : Fin 4) :
    s.takeFirst (.trap (c.val + 1)) = State.trapRoutine { s with items := s.items.erase (.trap (c.val + 1)) } (c.val + 1) := by
  have hinj : s.trapInjected (c.val + 1) = false := by
    have : (c.val + 1 == 16) = false := beq_eq_false_iff_ne.2 (by omega)
    rw [State.trapInjected, this, Bool.false_and]
  rw [State.takeFirst]
  simp only [hinj, State.itemRoutine]

/-- TRAP: of a trap that waits before every other. -/
theorem doTrap_waiting {c : Fin 4} (hmem : .trap (c.val + 1) ∈ s.items) (hleast : ∀ k, .trap k ∈ s.items → c.val + 1 ≤ k)
    (hveing : s.veing.cmd = none) :
    doTrap c s = State.trapRoutine { s with items := s.items.erase (.trap (c.val + 1)) } (c.val + 1) := by
  unfold doTrap
  extract_lets k r s₁ s₂
  have h₁ : s₁ = s := if_pos (List.contains_iff_mem.2 hmem)
  have h₂ : s₂ = s := (congrArg doVeingBoundaryAccess h₁).trans (doVeingBoundaryAccess_idle hveing)
  rw [h₂, firstItem_trap (by omega) hmem hleast]
  exact s.takeFirst_trap c

/-- TRAP: of a trap that is raised now, where no other waits. -/
theorem doTrap_raised {c : Fin 4} (hnone : ∀ k, .trap k ∉ s.items) (habandon : ∀ k, .trap k ∉ s.abandon.items)
    (hveing : s.abandon.veing.cmd = none) : doTrap c s = s.abandon.trapRoutine (c.val + 1) := by
  have hnew : ({ s.abandon with items := s.abandon.items ++ [.trap (c.val + 1)] } : State).items.erase (.trap (c.val + 1)) = s.abandon.items := by
    rw [List.erase_append_right _ (habandon _), List.erase_cons_head, List.append_nil]
  unfold doTrap
  extract_lets k r s₁ s₂
  have h₁ : s₁ = { s.abandon with items := s.abandon.items ++ [.trap (c.val + 1)] } := if_neg (by simpa using hnone (c.val + 1))
  have h₂ : s₂ = { s.abandon with items := s.abandon.items ++ [.trap (c.val + 1)] } :=
    (congrArg doVeingBoundaryAccess h₁).trans (doVeingBoundaryAccess_idle hveing)
  have hfirst : firstItem s₂.items = some (.trap (c.val + 1)) := by
    rw [h₂]
    refine firstItem_trap (by omega) (by simp) fun k hk => ?_
    obtain rfl : k = c.val + 1 := by simpa using (List.mem_append.1 hk).resolve_left (habandon k)
    exact le_rfl
  rw [hfirst]
  dsimp only
  rw [State.takeFirst_trap, h₂, hnew]

/-! ### The routine bound -/

theorem State.bumpPcnt_engine (s : State) (m k : Nat) (x : Option Word) (fuel : Nat) :
    (s.bumpPcnt m k x fuel).maxLen = s.maxLen ∧ (s.bumpPcnt m k x fuel).micro = s.micro := by
  induction fuel generalizing s m k with
  | zero => exact ⟨rfl, rfl⟩
  | succ fuel ih =>
    unfold State.bumpPcnt
    extract_lets v wraps s₁ ovf s₂
    have h₂ : s₂.maxLen = s.maxLen ∧ s₂.micro = s.micro := by
      unfold s₂
      split
      · cases x <;> exact ⟨rfl, rfl⟩
      · exact ⟨rfl, rfl⟩
    split_ifs
    · exact ⟨rfl, rfl⟩
    · obtain ⟨hlen, hmicro⟩ := ih s₂ (m + 1) wraps
      exact ⟨hlen.trans h₂.1, hmicro.trans h₂.2⟩
    · exact h₂

/-- Counting an event leaves the length of the engine's longest routine and the registers of the one that runs. -/
theorem State.evCount_engine (s : State) (n k : Nat) (x : Option Word) :
    (s.evCount n k x).maxLen = s.maxLen ∧ (s.evCount n k x).micro = s.micro := by
  unfold State.evCount
  extract_lets s₁
  split
  · exact ⟨rfl, rfl⟩
  · refine List.foldlRecOn (motive := fun t : State => t.maxLen = s.maxLen ∧ t.micro = s.micro) _ _ ⟨rfl, rfl⟩ fun t ht c _ => ?_
    obtain ⟨hlen, hmicro⟩ := ht
    split
    · obtain ⟨hlen', hmicro'⟩ := t.bumpPcnt_engine c.1 k x 64
      exact ⟨hlen'.trans hlen, hmicro'.trans hmicro⟩
    · exact ⟨hlen, hmicro⟩

theorem State.ran_engine (s : State) (n c : Nat) : (s.ran n c).maxLen = max s.maxLen n ∧ (s.ran n c).micro = s.micro := by
  unfold State.ran
  extract_lets s₁
  obtain ⟨hlen₀, hmicro₀⟩ := s.evCount_engine 0 1 none
  obtain ⟨hlen₁, hmicro₁⟩ := (s.evCount 0).evCount_engine 1 n none
  obtain ⟨hlen₂, hmicro₂⟩ := ((s.evCount 0).evCount 1 n).evCount_engine 2 c none
  exact ⟨congrArg (max · n) (hlen₂.trans (hlen₁.trans hlen₀)), hmicro₂.trans (hmicro₁.trans hmicro₀)⟩

/-- ROUTINE_BOUND counts behind the abandoned routine, and trap 2 waits. -/
theorem doRoutineBound_eq (s : State) : ∃ r, doRoutineBound s = { r with items := r.items ++ [.trap 2] } ∧
    Counts (s.abandon.count R.ENG_OVR_COUNT) r ∧ r.maxLen = max s.abandon.maxLen 4096 := by
  unfold doRoutineBound
  split
  rename_i v r h
  have hfree : Counts (s.abandon.count R.ENG_OVR_COUNT) (r.count R.ENG_OVR_COUNT) := by
    cases h
    exact ⟨rfl, fun _ _ => rfl, [], (List.append_nil _).symm, by simp⟩
  have hlen : r.maxLen = s.abandon.maxLen := by cases h; rfl
  exact ⟨_, rfl, hfree.trans (State.ran_counts ..), (State.ran_engine ..).1.trans (by rw [← hlen]; rfl)⟩

end Sys2Proof.Machine
end

section
/-! SUPPORT. What the engine dispatches, traps, bounds and shows (11_naljo_engine.md R277 to R281, R284; 10_uhleus_protocol.md R254). -/

namespace Sys2Proof.Machine

variable {s t : State}

/-! ## Completion events -/

/-- What sending a completion event behind a routine of the ROM does: the event goes to the link of its session. -/
theorem State.sendEvent_sends (p : Packet) (quiet : Bool) (hloud : (quiet && quietable p.status) = false) :
    ∃ x, (s.sendEvent p true quiet).txq = s.txq ++ [x] ∧ x.kind = p.kind ∧ x.opcode = p.opcode ∧ x.status = p.status ∧
      x.session = p.session ∧ x.tag = p.tag ∧ x.params = p.params ∧ x.payload = p.payload ∧
      x.link = s.fget (R.SESS_STAT_LINK p.session.toNat) := by
  rw [State.sendEvent, hloud]
  exact ⟨_, rfl, rfl, rfl, rfl, rfl, rfl, rfl, rfl, rfl⟩

theorem State.sendEvent_suppressed {p : Packet} {live quiet : Bool} (h : live = false ∨ (quiet && quietable p.status) = true) :
    s.sendEvent p live quiet = s := by
  rw [State.sendEvent]
  exact if_neg (by rcases h with h | h <;> simp [h])

/-- Sending a completion event, or suppressing it, leaves memory, the registers and the items that wait. -/
theorem State.sendEvent_frame (s : State) (p : Packet) (live quiet : Bool) :
    (s.sendEvent p live quiet).mem = s.mem ∧ (s.sendEvent p live quiet).regs = s.regs ∧ (s.sendEvent p live quiet).items = s.items := by
  unfold State.sendEvent
  split
  · have hsends := s.send_sends { p with link := s.fget (R.SESS_STAT_LINK p.session.toNat), entry := none }
    exact ⟨hsends.mem, hsends.regs, hsends.items⟩
  · exact ⟨rfl, rfl, rfl⟩

/-- The routine that takes the one completion event from the queue counts and sends, and the event waits no more. -/
theorem State.completionRoutine_frame (s : State) (p : Packet) (live quiet : Bool) :
    let t := State.sendEvent (State.routine { s with items := [] }) p live quiet
    (.completion p live quiet .none) ∉ t.items ∧ MemSame s t ∧ RegsSame counting s t := by
  intro t
  have hcounts := State.routine_counts { s with items := [] }
  obtain ⟨hmem, hregs, hitems⟩ := State.sendEvent_frame (State.routine { s with items := [] }) p live quiet
  refine ⟨?_, .of_mem (hmem.trans hcounts.mem), fun a ha => (State.rget_congr hregs a).trans (hcounts.regs a ha)⟩
  rw [hitems, hcounts.itemsKept _ (by simp)]
  exact List.not_mem_nil

/-! ## The control clock (R281) -/

/-- Waking the engine changes ENG_STATUS and the SUSP bits. -/
theorem State.syncSusp_regs (s : State) : RegsSame (fun a => a == R.BT_STATUS || a == R.CAL_STATUS) s s.syncSusp :=
  (RegsSame.rset s (by simp [R.CAL_STATUS_SUSP]) _).trans (RegsSame.rset _ (by simp [R.BT_STATUS_SUSP]) _)

theorem State.syncSusp_slow (s : State) : s.syncSusp.flag R.ENG_STATUS_SLOW_ACT = s.flag R.ENG_STATUS_SLOW_ACT :=
  State.flag_congr (s.syncSusp_regs _ (by decide))

/-- A change of the control clock sets SLOW_ACT, and the SUSP bits follow. -/
theorem State.slowAct_regs (s : State) (b : Bool) :
    RegsSame (fun a => a == R.ENG_STATUS || a == R.BT_STATUS || a == R.CAL_STATUS) s (s.setFlag R.ENG_STATUS_SLOW_ACT b).syncSusp :=
  (RegsSame.rset s (by simp [R.ENG_STATUS_SLOW_ACT]) _).trans ((State.syncSusp_regs _).mono fun a ha => by
    rcases Bool.or_eq_true_iff.1 ha with h | h <;> simp [h])

theorem State.slowAct_set (s : State) (b : Bool) : (s.setFlag R.ENG_STATUS_SLOW_ACT b).syncSusp.flag R.ENG_STATUS_SLOW_ACT = b :=
  (State.syncSusp_slow _).trans (State.flag_setFlag_same s b (by decide) (by decide))

/-- The slow clock suspends the background memory test. -/
theorem State.syncSusp_susp (h : s.flag R.ENG_STATUS_SLOW_ACT = true) : s.syncSusp.flag R.BT_STATUS_SUSP = true := by
  unfold State.syncSusp
  rw [State.flag_setFlag_same _ _ (by decide) (by decide), h, Bool.or_true]

theorem doClockModeChange_frame (s : State) : MemSame s (doClockModeChange s) ∧
    RegsSame (fun a => a == R.ENG_STATUS || a == R.BT_STATUS || a == R.CAL_STATUS) s (doClockModeChange s) := by
  unfold doClockModeChange
  split_ifs
  · exact ⟨.of_mem rfl, fun _ _ => rfl⟩
  · exact ⟨.of_mem rfl, s.slowAct_regs false⟩
  · exact ⟨.of_mem rfl, s.slowAct_regs true⟩
  · exact ⟨.of_mem rfl, fun _ _ => rfl⟩

/-! ## The obligation -/

/-- Settles O47; that an ABORT leaves the round robin, which routine a trap abandons, and that slow mode is left only once SLOW is 0 are the model's
choices (log entries 18, 21, 45 and 62). Each row takes the one item that waits, or none, and its routine is followed one step after another. -/
theorem engineWorks : Obligations.EngineWorks := by
  unfold Obligations.EngineWorks
  refine ⟨?empty, ?sent, ?suppressed, ?request, ?trap, ?trapAbandons, ?bound, ?boundAbandons, ?clock, ?clrstat, ?undefinedOpcode⟩
  case empty =>
    exact fun s hitems hveing => congrArg Host.Outcome.next (doRoutineDispatch_empty hitems hveing)
  case sent =>
    intro p quiet s hitems hentry hloud hveing
    have hcounts := State.routine_counts { s with items := [] }
    obtain ⟨x, htxq, hkind, hop, hst, hsess, htag, hparams, hpayload, hlink⟩ :=
      State.sendEvent_sends (s := State.routine { s with items := [] }) p quiet hloud
    have hstat : (State.routine { s with items := [] }).fget (R.SESS_STAT_LINK p.session.toNat) = s.fget (R.SESS_STAT_LINK p.session.toNat) :=
      State.fget_congr (hcounts.rget_lt (by have := p.session.isLt; simp only [R.SESS_STAT_LINK, R.SESS_STAT]; omega))
    exact ⟨_, x, congrArg Host.Outcome.next (doRoutineDispatch_completion hitems hentry hveing), by rw [htxq, hcounts.txq],
      hkind, hop, hst, hsess, htag, hparams, hpayload, hlink.trans hstat, s.completionRoutine_frame p true quiet⟩
  case suppressed =>
    intro p live quiet s hitems hentry hquiet hveing
    refine ⟨_, congrArg Host.Outcome.next (doRoutineDispatch_completion hitems hentry hveing), ?_, s.completionRoutine_frame p live quiet⟩
    rw [State.sendEvent_suppressed hquiet]
    exact (State.routine_counts _).txq
  case request =>
    intro op q s hitems hveing hrun
    have hdo : exec .routineDispatch s = .next (doRoutineDispatch s) := rfl
    rw [hdo, doRoutineDispatch_request hitems hveing hrun]
    refine ⟨fun habort hhello => ?_, fun hhello => ?_, fun habort => ?_⟩
    · rw [if_neg habort, reqMember, if_neg hhello]
    · rw [if_neg (by rw [hhello]; decide), reqMember, if_pos hhello]
    · rw [if_pos habort]
  case trap =>
    intro c s hwaits hveing hroom hheld hdump
    have htrapped : ∃ l, doTrap c s = State.trapRoutine { s with items := l } (c.val + 1) := by
      rcases hwaits with hempty | ⟨hmem, hleast⟩
      · refine ⟨[], ?_⟩
        have habandon := s.abandon_empty hempty
        rw [doTrap_raised (by simp [hempty]) (by simp [habandon, hempty]) (by rw [habandon]; exact hveing), habandon, ← hempty]
      · exact ⟨_, doTrap_waiting hmem hleast hveing⟩
    obtain ⟨l, hdo⟩ := htrapped
    have h := State.trapRoutine_trapped { s with items := l } (c.val + 1) false (Nat.lt_trans hroom (by decide)) hheld hdump
    obtain ⟨d, hd, hcause⟩ := h.dump
    exact ⟨_, d, congrArg Host.Outcome.next hdo, h.cause, hd, hcause, .of_mem h.mem, h.regs⟩
  case trapAbandons =>
    intro c op q s hitems hrun hveing hroom hheld hdump
    obtain ⟨habandons, hanswered⟩ := s.abandon_lone hitems hrun
    have hreports := habandons.reports
    have hnone (i : Item) (hi : ∀ m, i ≠ .overflow m) : i ∉ s.abandon.items := fun h => List.not_mem_nil ((habandons.items i hi).1 h)
    have hdo := doTrap_raised (c := c) (by simp [hitems]) (fun k => hnone (.trap k) (by simp)) (by rw [hreports.veing]; exact hveing)
    have h := s.abandon.trapRoutine_trapped (c.val + 1) false (by rw [hreports.staged]; exact Nat.lt_trans hroom (by decide))
      ((State.flag_congr (hreports.regs _ (by decide))).trans hheld) (hreports.dumping.trans hdump)
    exact ⟨_, congrArg Host.Outcome.next hdo, h.cause, hanswered.mono fun p hp => by rwa [h.txq],
      fun hi => hnone _ (by simp) ((h.items _ (by simp)).1 hi), .of_mem (h.mem.trans hreports.mem)⟩
  case bound =>
    intro s hitems hless
    obtain ⟨r, hdo, hcounts, hlen⟩ := doRoutineBound_eq s
    rw [s.abandon_empty hitems] at hcounts hlen
    obtain ⟨l, hl, hover⟩ := hcounts.items
    refine ⟨_, l, congrArg Host.Outcome.next hdo, ?_, hover, ?_, hlen, ?_, .of_mem hcounts.mem⟩
    · rw [hl, State.count, State.fset_items, hitems, List.nil_append]
    · have hcount : (s.count R.ENG_OVR_COUNT).fget R.ENG_OVR_COUNT = s.fget R.ENG_OVR_COUNT + 1 := by
        rw [State.count, State.fget_fset_same _ _ (by decide) (by decide), Nat.min_eq_left (by
          simp only [R.ENG_OVR_COUNT] at hless ⊢; omega), Nat.mod_eq_of_lt (by simp only [R.ENG_OVR_COUNT] at hless ⊢; omega)]
      exact (State.fget_congr (hcounts.regs _ (by decide))).trans hcount
    · exact (RegsSame.rset s (by simp [R.ENG_OVR_COUNT]) _).trans (hcounts.regs.mono fun a ha => by simp [ha])
  case boundAbandons =>
    intro op q s hitems hrun
    obtain ⟨habandons, hanswered⟩ := s.abandon_lone hitems hrun
    obtain ⟨r, hdo, hcounts, -⟩ := doRoutineBound_eq s
    refine ⟨_, congrArg Host.Outcome.next hdo, List.mem_append_right _ (List.mem_singleton_self _), ?_,
      hanswered.mono fun p hp => by rwa [hcounts.txq], .of_mem (hcounts.mem.trans habandons.reports.mem)⟩
    rw [List.mem_append, hcounts.itemsKept _ (by simp), State.count, State.fset_items, habandons.items _ (by simp)]
    simp
  case clock =>
    intro s
    obtain ⟨hmem, hregs⟩ := doClockModeChange_frame s
    refine ⟨doClockModeChange s, rfl, hmem, hregs, fun hact hoff => ?_, fun hact hon => ?_, fun hact hmay => ?_, fun hact hstays => ?_⟩ <;>
      rw [doClockModeChange]
    · rw [if_pos hact, if_neg (by simp [hoff])]
      exact s.slowAct_set false
    · rw [if_pos hact, if_pos hon]
    · rw [if_neg (by simp [hact]), if_pos hmay]
      exact ⟨s.slowAct_set true, State.syncSusp_susp (State.flag_setFlag_same s true (by decide) (by decide))⟩
    · rw [if_neg (by simp [hact]), if_neg (by simp [hstays])]
  case clrstat => exact fun s => ⟨_, rfl, rfl, rfl, rfl, fun _ _ => rfl, fun _ _ _ => rfl⟩
  case undefinedOpcode =>
    intro op q s hover
    have hdo : exec (.undefinedOpcode op q) s = .next (doUndefinedOpcode op q s) :=
      congrArg Host.Outcome.next (by rw [State.byTable, hover]; rfl)
    rw [hdo]
    refine ⟨fun hbad => ?_, fun hpass => congrArg Host.Outcome.next (if_neg hpass)⟩
    exact ⟨_, congrArg Host.Outcome.next (if_pos hbad), s.routine_fail_completes op q St.badOpcode 0⟩

end Sys2Proof.Machine
end

section
/-! SUPPORT. PATCH_LOAD, the activation of a patch, and the end of its operation (11_naljo_engine.md R282, R283). -/

namespace Sys2Proof.Machine

variable {s t : State}

/-! ## PATCH_LOAD -/

/-- The checks of a patch read MCODE_VERSION and PATCH_FLOOR only. -/
theorem State.patchRefused_congr (hversion : t.rget R.MCODE_VERSION = s.rget R.MCODE_VERSION)
    (hfloor : t.rget R.PATCH_FLOOR = s.rget R.PATCH_FLOOR) (b : List Byte) (sigOk : Bool) : t.patchRefused b sigOk = s.patchRefused b sigOk := by
  rw [State.patchRefused, State.fget_congr (f := R.MCODE_VERSION_ROM) hversion, State.fget_congr (f := R.PATCH_FLOOR_FLOOR) hfloor,
    State.patchRefused]

/-- The routine of an accepted PATCH_LOAD, outside recovery and SCRAPPED and with every tile idle, comes to items 3 to 7 of R283. -/
theorem patchLoad_checked {q : Req} (hrec : s.flag R.BOOT_STATUS_RECOVERY = false) (hlc : s.fget R.LC_STATUS_STATE ≠ 3)
    (hidle : ∀ u, u < 64 → s.idle u = true) :
    let r := s.wakeEngine.routine
    r.flag R.BOOT_STATUS_RECOVERY = false ∧ r.fget R.LC_STATUS_STATE ≠ 3 ∧ (r.tilesIn (· != stIdle)) = [] ∧
      r.patchRefused q.payload q.verdict.sigOk = s.patchRefused q.payload q.verdict.sigOk := by
  intro r
  have hregs (a : Nat) := s.wakeEngine_routine.2 a
  refine ⟨(State.flag_congr (hregs _ (by decide) (by decide) (by decide) (by decide))).trans hrec,
    (State.fget_congr (hregs R.LC_STATUS (by decide) (by decide) (by decide) (by decide))).trans_ne hlc,
    List.filter_eq_nil_iff.2 fun u hu => ?_,
    State.patchRefused_congr (hregs _ (by decide) (by decide) (by decide) (by decide)) (hregs _ (by decide) (by decide) (by decide) (by decide)) ..⟩
  have hstate : r.stepState u = s.stepState u := State.fget_congr (f := R.SEQ_STATUS_STATE u) (hregs _ (counting_of_ge (by
    simp only [R.SEQ_STATUS_STATE, R.SEQ_STATUS]; omega)) (chipReg_ne_status (by decide)).symm (chipReg_ne_status (by decide)).symm
    (chipReg_ne_status (by decide)).symm)
  have := hidle u (List.mem_range.1 hu)
  simpa [hstate, State.idle] using this

/-- The first of the items that fails is answered, with its number. -/
theorem doPatchLoad_refused {q : Req} {st : BitVec 8} {p : Nat} (hruns : s.wakeEngine.runs 0x64 q = true)
    (hrec : s.flag R.BOOT_STATUS_RECOVERY = false) (hlc : s.fget R.LC_STATUS_STATE ≠ 3) (hidle : ∀ u, u < 64 → s.idle u = true)
    (hrefused : s.patchRefused q.payload q.verdict.sigOk = some (st, p)) :
    doPatchLoad q s = s.wakeEngine.routine.fail 0x64 q st (BitVec.ofNat 32 p) := by
  obtain ⟨hrec', hlc', htiles, hpatch⟩ := patchLoad_checked (q := q) hrec hlc hidle
  rw [doPatchLoad]
  refine State.request_of_runs_of_fail hruns ?_
  rw [if_neg (by simp [hrec']), if_neg hlc', if_neg (by simp [htiles]), hpatch, hrefused]

/-- A patch that fails none of the items starts its operation and holds the requests behind it. -/
theorem doPatchLoad_accepted {q : Req} (hruns : s.wakeEngine.runs 0x64 q = true)
    (hrec : s.flag R.BOOT_STATUS_RECOVERY = false) (hlc : s.fget R.LC_STATUS_STATE ≠ 3) (hidle : ∀ u, u < 64 → s.idle u = true)
    (hpass : s.patchRefused q.payload q.verdict.sigOk = none) (hhold : s.flag R.ENG_STATUS_HOLDING = false) (hfew : s.splits.length < 256) :
    doPatchLoad q s = (s.wakeEngine.routine.setFlag R.ENG_STATUS_HOLDING true).start 0x64 q := by
  obtain ⟨hrec', hlc', htiles, hpatch⟩ := patchLoad_checked (q := q) hrec hlc hidle
  have hsplits : s.wakeEngine.routine.splits = s.splits := s.wakeEngine.routine_counts.splits
  rw [doPatchLoad, State.request_of_runs_free hruns (s.wakeEngine_holding.trans hhold), if_neg (by simp [hrec']), if_neg hlc',
    if_neg (by simp [htiles]), hpatch, hpass]
  exact if_neg (by rw [hsplits]; omega)

/-- The number of the operations in progress stands beside HOLDING. -/
theorem State.fset_split_holding (s : State) (n : Nat) : (s.fset R.ENG_STATUS_SPLIT n).flag R.ENG_STATUS_HOLDING = s.flag R.ENG_STATUS_HOLDING :=
  congrArg (· != 0) (s.fget_fset_disjoint n (.inr (by decide)) (by decide) (by decide))

theorem State.start_holding (s : State) (op : BitVec 8) (q : Req) :
    (s.start op q).flag R.ENG_STATUS_HOLDING = s.flag R.ENG_STATUS_HOLDING := by
  unfold State.start State.register
  extract_lets x s₁
  have hreply := State.reply_replies ((s₁.fset R.ENG_STATUS_SPLIT s₁.splits.length).evCount 3) op q St.accepted [] []
  refine (State.flag_congr (hreply.regs _ ?_)).trans ((State.flag_congr ((State.evCount_counts ..).regs _ (by decide))).trans
    (s₁.fset_split_holding _))
  have := q.session.isLt
  simp only [R.ENG_STATUS_HOLDING, R.ENG_STATUS, R.SESS_STAT]
  omega

theorem State.complete_holding (s : State) (x : Split) (st : BitVec 8) (ps : List Word) :
    (s.complete x st ps).flag R.ENG_STATUS_HOLDING = s.flag R.ENG_STATUS_HOLDING :=
  State.fset_split_holding { s with splits := s.splits.filter fun (y : Split) => y.id != x.id } _

/-! ## The operation of a patch ends -/

/-- A patch that is given up releases the requests held, and its operation completes. -/
theorem State.patchRelease_complete_spec (s : State) (x : Split) (st : BitVec 8) (ps : List Word) :
    let t := s.patchRelease.complete x st ps
    Over t x ∧ Completed t x st ∧ t.flag R.ENG_STATUS_HOLDING = false ∧ t.overrides = s.overrides ∧ t.mem = s.mem ∧
      RegsSame (fun a => a == R.ENG_STATUS) s t := by
  intro t
  have hcompletes := s.patchRelease.complete_completes x st ps [] .none
  refine ⟨s.patchRelease.complete_over x st ps [] .none, s.patchRelease.complete_completed x st ps [] .none, (State.complete_holding ..).trans
    (s.flag_setFlag_same false (by decide) (by decide)), hcompletes.overrides, hcompletes.mem, ?_⟩
  exact (RegsSame.rset s (by simp [R.ENG_STATUS_HOLDING]) _).trans fun a ha => hcompletes.regs a (by simpa using ha)

/-! ## Activation -/

/-- MCODE_VERSION and PATCH_DIGEST. -/
def patchReg (a : Nat) : Bool := a == R.MCODE_VERSION || decide (R.PATCH_DIGEST 0 ≤ a ∧ a < R.PATCH_DIGEST 12)

theorem patchReg_digest {k : Nat} (h : k < 12) : patchReg (R.PATCH_DIGEST k) = true :=
  Bool.or_eq_true_iff.2 (.inr (decide_eq_true (by unfold R.PATCH_DIGEST; omega)))

/-- What a patch changes as it replaces the one before it: its registers, the patch RAM and the overrides. -/
structure Patches (p : Patch) (s t : State) : Prop where
  same : { t with regs := s.regs, mem := s.mem, overrides := s.overrides } = s
  overrides : t.overrides = p.overrides
  body : ∀ i < p.body.length, t.mget 0x12 0 i = p.body.getD i 0
  version : t.fget R.MCODE_VERSION_PATCH = p.pver % 65536
  regs : RegsSame patchReg s t

theorem Patches.staged {p : Patch} (h : Patches p s t) : t.staged = s.staged := (congrArg State.staged h.same :)
theorem Logs.overrides {p : Nat → Bool} (h : Logs p s t) : t.overrides = s.overrides := (congrArg State.overrides h.same :)

theorem State.patchIn_patches (s : State) (p : Patch) : Patches p s (s.patchIn p) := by
  unfold State.patchIn
  extract_lets s₁ s₂ digest
  have hmem : ∀ i < p.body.length, s₂.mget 0x12 0 i = p.body.getD i 0 := fun i hi => by
    have hwrote := (s₁.mwrite_wrote 0x12 0 0 p.body).same i hi
    rw [Nat.zero_add] at hwrote
    exact hwrote
  have hsame : { s₂ with regs := s.regs, mem := s.mem, overrides := s.overrides } = s := by
    unfold s₂
    rw [← s₁.mwrite_eq 0x12 0 0 p.body]
    rfl
  have hversion : s₂.fget R.MCODE_VERSION_PATCH = p.pver % 65536 := State.fget_fset_same _ _ (by decide) (by decide)
  have hregs : RegsSame patchReg s s₂ := fun a ha =>
    (State.rget_fset_other _ _ (by rintro rfl; exact absurd ha (by decide))).trans (State.rget_congr (s₁.mwrite_regs ..) a)
  have hover : s₂.overrides = p.overrides := s₁.mwrite_overrides ..
  clear_value s₂
  have hdigest : Patches p s s₂ := ⟨hsame, hover, hmem, hversion, hregs⟩
  refine List.foldlRecOn (motive := Patches p s) _ _ hdigest fun t ht k hk => ?_
  have hk := List.mem_range.1 hk
  exact {
    same := ht.same
    overrides := ht.overrides
    body := ht.body
    version := (State.fget_congr (State.rget_rset_other _ _ (by
      simp only [R.MCODE_VERSION_PATCH, R.MCODE_VERSION, R.PATCH_DIGEST]; omega))).trans ht.version
    regs := ht.regs.trans (RegsSame.rset _ (patchReg_digest hk) _) }

/-- PATCH_FLOOR behind an activation that may raise it. -/
def State.floored (s : State) (rb : Nat) : State := if s.fget R.PATCH_FLOOR_FLOOR < rb then s.fset R.PATCH_FLOOR_FLOOR rb else s

theorem State.floored_fget (s : State) {rb : Nat} (h : rb < 64) :
    (s.floored rb).fget R.PATCH_FLOOR_FLOOR = max (s.fget R.PATCH_FLOOR_FLOOR) rb := by
  unfold State.floored
  split
  · rw [State.fget_fset_same _ _ (by decide) (by decide), Nat.mod_eq_of_lt (by simpa [R.PATCH_FLOOR_FLOOR] using h)]
    omega
  · omega

/-- PATCH_ACTIVATION with no other operation in progress, where OTP does not fail to raise the floor. -/
theorem doPatchActivation_activates {ok : Bool} {x : Split} (hx : s.patchSplit = some x) (hone : s.splits.length = 1)
    (hok : ok = true ∨ (patchOf x.payload).rb ≤ s.fget R.PATCH_FLOOR_FLOOR) :
    let r := (s.floored (patchOf x.payload).rb).patchActive (patchOf x.payload)
    doPatchActivation ok s = r.patchRelease.complete x St.ok [r.patchRelease.rget R.MCODE_VERSION] := by
  have hrise : ¬(decide (s.fget R.PATCH_FLOOR_FLOOR < (patchOf x.payload).rb) && !ok) = true := by
    rcases hok with h | h <;> simp [h]
  rw [doPatchActivation, hx]
  dsimp only
  rw [if_neg (by omega), if_neg hrise]
  simp only [decide_eq_true_eq]
  rfl

/-- PATCH_ACTIVATION with no other operation in progress, where OTP fails to raise the floor. -/
theorem doPatchActivation_fails {x : Split} (hx : s.patchSplit = some x) (hone : s.splits.length = 1)
    (hrise : s.fget R.PATCH_FLOOR_FLOOR < (patchOf x.payload).rb) : doPatchActivation false s = s.patchRelease.complete x St.hwFault := by
  rw [doPatchActivation, hx]
  dsimp only
  rw [if_neg (by omega), if_pos (by simp [hrise])]

/-- A patch that is activated with room in the moraine is in force. -/
theorem State.patchActive_spec (s : State) {p : Patch} (hrb : p.rb < 64) (hroom : s.staged.length < 128) :
    let t := (s.floored p.rb).patchActive p
    t.overrides = p.overrides ∧ t.fget R.MCODE_VERSION_PATCH = p.pver % 65536 ∧
      t.fget R.PATCH_FLOOR_FLOOR = max (s.fget R.PATCH_FLOOR_FLOOR) p.rb ∧ ∀ i < p.body.length, t.mget 0x12 0 i = p.body.getD i 0 := by
  intro t
  have hfloor := s.floored_fget hrb
  have hstaged : (s.floored p.rb).staged = s.staged := by unfold State.floored; split <;> rfl
  have hpatches := (s.floored p.rb).patchIn_patches p
  have hroom' : ((s.floored p.rb).patchIn p).staged.length < 128 := by
    rw [hpatches.staged, hstaged]
    exact hroom
  have hlogs : Logs recordReg ((s.floored p.rb).patchIn p) t := (State.stage_logs _ hroom' ..).1
  refine ⟨hlogs.overrides.trans hpatches.overrides, ?_, ?_, fun i hi => ?_⟩
  · exact (State.fget_congr (hlogs.rget (by decide) (by decide))).trans hpatches.version
  · exact (State.fget_congr ((hlogs.rget (by decide) (by decide)).trans (hpatches.regs _ (by decide)))).trans hfloor
  · exact (State.mget_congr hlogs.mem ..).trans (hpatches.body i hi)

end Sys2Proof.Machine
end

section
/-! SUPPORT. The routine of a patch that ends with its first microword (11_naljo_engine.md R270, R272, R274, R280). -/

namespace Sys2Proof.Machine

variable {s t : State}

/-! ## Which words the routine is made of -/

theorem State.microAt_congr (h : t.mem = s.mem) (pc : Nat) : t.microAt pc = s.microAt pc := by
  unfold State.microAt State.mword State.mread
  simp only [State.mget_congr h]

theorem State.microBad_congr (h : t.eccWords = s.eccWords) (pc : Nat) : t.microBad pc = s.microBad pc := by
  rw [State.microBad, h, State.microBad]

/-! ## One microword (R274) -/

/-- A microword has been fetched and issued. -/
def State.issue (s : State) (pc : Nat) : State :=
  s.modMicro fun m => { m with pc := pc, word := s.microAt pc, issued := m.issued + 1, clocks := m.clocks + (microOf (s.microAt pc)).clocks }

/-- An uncorrectable error in the word ends the routine in trap 1. -/
theorem State.microLoop_bad {op : BitVec 8} {q : Req} {n pc : Nat} (h : s.microBad pc = true) :
    s.microLoop op q (n + 1) pc = (s.issue pc, some 1) := by
  rw [State.microLoop]
  exact if_pos h

/-- A routine has answered at the error exit. -/
def State.errexit (s : State) (op : BitVec 8) (q : Req) (st : BitVec 8) : State := (s.fail op q st).modMicro fun m => { m with replied := true }

theorem State.errexit_answered (s : State) (op : BitVec 8) (q : Req) (st : BitVec 8) : Answered (s.errexit op q st) op q st [0] [] :=
  State.reply_answered (s.evCount 9) op q st [0] []

/-- The error exit answers its status and ends the routine. -/
theorem State.microRun_errexit {op : BitVec 8} {q : Req} {pc : Nat} {i : Microword} (h : i.op = 0x3E) :
    s.microRun op q pc i = (s.errexit op q i.status, .ends) := by
  have hflow : s.microFlow op q pc i = s.errexit op q i.status := by
    rw [State.microFlow, h]
    rfl
  have hnext : s.microNext pc i = .ends := by
    rw [State.microNext, h]
    rfl
  rw [State.microRun, if_neg (by omega), hflow, hnext]

theorem State.microLoop_errexit {op : BitVec 8} {q : Req} {n pc : Nat} (h : s.microBad pc = false) (hop : (microOf (s.microAt pc)).op = 0x3E) :
    s.microLoop op q (n + 1) pc = ((s.issue pc).errexit op q (microOf (s.microAt pc)).status, some 0) := by
  have hrun := (s.issue pc).microRun_errexit (op := op) (q := q) (pc := pc) hop
  rw [State.microLoop]
  refine (if_neg (by simp [h])).trans ?_
  simp only [State.issue] at hrun
  rw [hrun]
  rfl

/-! ## The routine of a request -/

/-- What a routine of a patch begins with: its scratch registers are undefined, and no completion event is its to send. -/
def State.microBegin (s : State) : State :=
  { s with freeCtr := s.freeCtr + 64, micro := { scratch := (List.range 64).map fun i => Config.freeWord (s.freeCtr + i) } }

/-- What stands behind a routine that has ended, or that a trap has ended. -/
theorem State.microRoutine_eq {op : BitVec 8} {q : Req} {pc e : Nat} {r : State} (h : s.microBegin.microLoop op q 4096 pc = (r, some e)) :
    s.microRoutine op q pc =
      if e = 0 then r.ran r.micro.issued r.micro.clocks else (r.ran r.micro.issued r.micro.clocks).microTrap op q e := by
  unfold State.microRoutine
  extract_lets k s₁
  rw [show s₁.microLoop op q 4096 pc = (r, some e) from h]
  cases e <;> rfl

theorem State.fail_ids (s : State) (op : BitVec 8) (q : Req) (st : BitVec 8) (p0 : Word) : (s.fail op q st p0).ids = s.ids :=
  (State.reply_replies ..).ids.trans (State.evCount_counts ..).ids

/-- A routine that begins with the error exit answers its status, and enters no operation. -/
theorem State.microRoutine_errexit {op : BitVec 8} {q : Req} {pc : Nat} (h : s.microBad pc = false)
    (hop : (microOf (s.microAt pc)).op = 0x3E) :
    Answered (s.microRoutine op q pc) op q (microOf (s.microAt pc)).status [0] [] ∧ (s.microRoutine op q pc).ids = s.ids := by
  have hloop := s.microBegin.microLoop_errexit (op := op) (q := q) (n := 4095) h hop
  rw [State.microRoutine_eq hloop, if_pos rfl]
  have hran (n c : Nat) := ((s.microBegin.issue pc).errexit op q (microOf (s.microAt pc)).status).ran_counts n c
  exact ⟨Answered.mono (State.errexit_answered _ op q _) fun p hp => (hran ..).txq.symm ▸ hp, (hran ..).ids.trans (State.fail_ids ..)⟩

/-- A trap of a routine that has not replied yet reports INTERNAL by the reply, and waits for the boundary. -/
theorem State.microTrap_unreplied {op : BitVec 8} {q : Req} (c : Nat) (hevent : s.micro.event = none) (hreplied : s.micro.replied = false) :
    Answered (s.microTrap op q c) op q St.internal [0] [] ∧ .trap c ∈ (s.microTrap op q c).items ∧ (s.microTrap op q c).ids = s.ids := by
  unfold State.microTrap
  extract_lets s₁ s₂
  have h₂ : s₂ = s₁.fail op q St.internal := by
    unfold s₂
    rw [show s₁.micro.event = none from hevent, show s₁.micro.replied = false from hreplied]
    rfl
  clear_value s₂
  subst h₂
  exact ⟨State.reply_answered _ op q St.internal [0] [], List.mem_append_right _ (List.mem_singleton_self _), State.fail_ids ..⟩

/-- A routine whose first microword has an uncorrectable error answers INTERNAL, and trap 1 waits. -/
theorem State.microRoutine_bad {op : BitVec 8} {q : Req} {pc : Nat} (h : s.microBad pc = true) :
    Answered (s.microRoutine op q pc) op q St.internal [0] [] ∧ .trap 1 ∈ (s.microRoutine op q pc).items ∧
      (s.microRoutine op q pc).ids = s.ids := by
  have hloop := s.microBegin.microLoop_bad (op := op) (q := q) (n := 4095) (pc := pc) h
  rw [State.microRoutine_eq hloop, if_neg (by decide)]
  have hmicro (n c : Nat) : ((s.microBegin.issue pc).ran n c).micro = (s.microBegin.issue pc).micro := (State.ran_engine ..).2
  obtain ⟨hans, htrap, hids⟩ := State.microTrap_unreplied (op := op) (q := q) 1 (congrArg Micro.event (hmicro _ _))
    (congrArg Micro.replied (hmicro _ _))
  exact ⟨hans, htrap, hids.trans (State.ran_counts ..).ids⟩

/-! ## The dispatch of an opcode that a patch overrides (R272) -/

/-- The state in which the routine of a patch runs: some opcodes wake the engine first (R281). -/
def State.woken (s : State) (op : BitVec 8) : State := if wakes op then s.wakeEngine else s

theorem State.woken_frame (s : State) (op : BitVec 8) : (s.woken op).mem = s.mem ∧ (s.woken op).eccWords = s.eccWords ∧
    (s.woken op).overrides = s.overrides := by
  unfold State.woken
  split <;> exact ⟨rfl, rfl, rfl⟩

/-- A routine that enters no operation is neither held nor refused. -/
theorem State.patched_eq {op : BitVec 8} {q : Req} {e : Nat × Nat} (he : s.overrides.find? (fun e => e.1 == op.toNat) = some e)
    (hids : ((s.woken op).microRoutine op q e.2).ids = (s.woken op).ids) : s.patched op q = (s.woken op).microRoutine op q e.2 := by
  have hentry : (s.woken op).dispatchEntry op = e.2 := by
    rw [State.dispatchEntry, (s.woken_frame op).2.2, he]
  rw [← hentry] at hids ⊢
  exact if_neg (by rw [State.woken] at hids; omega)

theorem State.byTable_of_overridden {op : BitVec 8} {q : Req} (h : s.overridden op q = true) (rom : State → State) :
    s.byTable op q rom = s.patched op q := if_pos h

/-- The row of each request dispatches it by the table. -/
theorem exec_byTable {op : BitVec 8} {q : Req} {c : Instr} (h : (op, c) ∈ [
      ((0x01 : BitVec 8), Instr.hello q), (0x02, .bye q), (0x03, .ping q), (0x10, .regRead q), (0x11, .regWrite q), (0x12, .regSetBits q),
      (0x13, .regClearBits q), (0x14, .regGather q), (0x20, .memWrite q), (0x21, .memRead q), (0x22, .segWrite q), (0x23, .segCommit q),
      (0x24, .streamOpen q), (0x25, .streamClose q), (0x30, .stepArm q), (0x31, .stepStart q), (0x32, .stepStatus q), (0x33, .abort q),
      (0x34, .eventWait q), (0x40, .captureRead q), (0x41, .failRead q), (0x42, .profileRead q), (0x43, .measure q), (0x50, .calRun q),
      (0x51, .calCommit q), (0x52, .calRead q), (0x60, .sealLoad q), (0x61, .attest q), (0x62, .lifecycle q), (0x63, .identity q),
      (0x64, .patchLoad q), (0x70, .selftest q), (0x71, .fence q), (0x72, .calve q), (0x74, .dumpRead q), (0x75, .frost q),
      (0x76, .powerState q), (0x7E, .inject q)]) : ∃ rom, ∀ s, exec c s = .next (s.byTable op q rom) := by
  generalize hx : (op, c) = x at h
  fin_cases h <;> cases hx <;> exact ⟨_, fun _ => rfl⟩

/-! ## The obligation -/

/-- Settles O48; that the row of an overridden opcode is its dispatch and runs the patch's routine is the model's choice (log entry 45).
PATCH_LOAD comes to its own checks, an activation to the patch in force, and an overridden opcode to a routine that one microword ends. -/
theorem patchesLoad : Obligations.PatchesLoad := by
  unfold Obligations.PatchesLoad
  refine ⟨?load, ?activation, ?drainTimeout, ?none, ?overridden⟩
  case load =>
    intro q s hruns hrec hlc hidle
    have hover : s.wakeEngine.overridden 0x64 q = false := State.overridden_of_runs hruns
    have hexec : exec (.patchLoad q) s = .next (doPatchLoad q s) :=
      congrArg Host.Outcome.next (if_neg (ne_true_of_eq_false hover))
    refine ⟨fun st p hrefused => ?_, fun hpass hhold hfew => ?_⟩
    · rw [doPatchLoad_refused hruns hrec hlc hidle hrefused] at hexec
      obtain ⟨hanswered, hmem, -⟩ := s.wakeEngine.routine_fail_completes 0x64 q st (BitVec.ofNat 32 p)
      exact ⟨_, hexec, hanswered, State.routine_fail_splits .., hmem⟩
    · rw [doPatchLoad_accepted hruns hrec hlc hidle hpass hhold hfew] at hexec
      refine ⟨_, hexec, State.start_begun .., (State.start_holding ..).trans (State.flag_setFlag_same _ _ (by decide) (by decide)), ?_⟩
      exact .of_mem ((State.start_frame ..).1.trans s.wakeEngine_routine.1)
  case activation =>
    intro ok s x hx hone p hrb
    refine ⟨fun hok hroom => ?_, fun hok hrise => ?_⟩
    · obtain ⟨hover, hversion, hfloor, hbody⟩ := s.patchActive_spec hrb (Nat.lt_trans hroom (by decide))
      have hdo := doPatchActivation_activates hx hone hok
      generalize (s.floored (patchOf x.payload).rb).patchActive (patchOf x.payload) = r at *
      obtain ⟨hended, hcompleted, hholding, hover', hmem, hregs⟩ := r.patchRelease_complete_spec x St.ok [r.patchRelease.rget R.MCODE_VERSION]
      exact ⟨_, congrArg Host.Outcome.next hdo, hended, hcompleted, hholding, hover'.trans hover,
        (State.fget_congr (hregs _ (by decide))).trans hversion, (State.fget_congr (hregs _ (by decide))).trans hfloor,
        fun i hi _ => (State.mget_congr hmem ..).trans (hbody i hi)⟩
    · subst hok
      obtain ⟨hended, hcompleted, hholding, hover, hmem, hregs⟩ := s.patchRelease_complete_spec x St.hwFault []
      exact ⟨_, congrArg Host.Outcome.next (doPatchActivation_fails hx hone hrise), hended, hcompleted, hholding, hover, .of_mem hmem, hregs⟩
  case drainTimeout =>
    intro s x hx hmany
    have hdo : doPatchDrainTimeout s = s.patchRelease.complete x St.busy := by
      rw [doPatchDrainTimeout, hx]
      exact if_pos hmany
    obtain ⟨hended, hcompleted, hholding, -, hmem, hregs⟩ := s.patchRelease_complete_spec x St.busy []
    exact ⟨_, congrArg Host.Outcome.next hdo, hended, hcompleted, hholding, .of_mem hmem, hregs⟩
  case none =>
    intro ok s hnone
    refine ⟨congrArg Host.Outcome.next ?_, congrArg Host.Outcome.next ?_⟩
    · rw [doPatchActivation, hnone]
    · rw [doPatchDrainTimeout, hnone]
  case overridden =>
    intro op q s e he hover
    obtain ⟨hmem, hecc, -⟩ := s.woken_frame op
    have hbad := State.microBad_congr hecc e.2
    have hat := State.microAt_congr hmem e.2
    refine ⟨fun c hc => ?_, congrArg Host.Outcome.next (State.byTable_of_overridden hover _), fun hgood hop => ?_, fun hword => ?_⟩
    · obtain ⟨rom, hexec⟩ := exec_byTable hc
      rw [hexec, State.byTable_of_overridden hover]
    · obtain ⟨hans, hids⟩ := State.microRoutine_errexit (op := op) (q := q) (hbad.trans hgood) (hat.symm ▸ hop)
      rw [State.patched_eq he hids, ← hat]
      exact hans
    · obtain ⟨hans, htrap, hids⟩ := State.microRoutine_bad (op := op) (q := q) (hbad.trans hword)
      rw [State.patched_eq he hids]
      exact ⟨hans, htrap⟩

end Sys2Proof.Machine
end

section
/-! SUPPORT. What every step keeps: each command answers a next state, leaves the queue as it is, and keeps memory and the register file in
canonical form (00_scope.md; 14_memories.md; 22_register_map.md). -/

namespace Sys2Proof.Machine

/-- One line for each row of the table: the row answers a next state, and its meaning keeps queue and canonical forms. -/
theorem exec_keeps (c : Instr) (s : State) : ∃ t, exec c s = .next t ∧ Keeps s t := by
  cases c with
  | hello => exact ⟨_, rfl, State.byTable_keeps (.refl s) doHello_keeps⟩
  | bye => exact ⟨_, rfl, State.byTable_keeps (.refl s) doBye_keeps⟩
  | ping => exact ⟨_, rfl, State.byTable_keeps (.refl s) doPing_keeps⟩
  | regRead => exact ⟨_, rfl, State.byTable_keeps (.refl s) doRegRead_keeps⟩
  | regWrite => exact ⟨_, rfl, State.byTable_keeps (.refl s) doRegWrite_keeps⟩
  | regSetBits => exact ⟨_, rfl, State.byTable_keeps (.refl s) doRegSetBits_keeps⟩
  | regClearBits => exact ⟨_, rfl, State.byTable_keeps (.refl s) doRegClearBits_keeps⟩
  | regGather => exact ⟨_, rfl, State.byTable_keeps (.refl s) doRegGather_keeps⟩
  | memWrite => exact ⟨_, rfl, State.byTable_keeps (.refl s) doMemWrite_keeps⟩
  | memRead => exact ⟨_, rfl, State.byTable_keeps (.refl s) doMemRead_keeps⟩
  | segWrite => exact ⟨_, rfl, State.byTable_keeps (.refl s) doSegWrite_keeps⟩
  | segCommit => exact ⟨_, rfl, State.byTable_keeps (.refl s) doSegCommit_keeps⟩
  | streamPacket => exact ⟨_, rfl, doStreamPacket_keeps (.refl s)⟩
  | streamOpen => exact ⟨_, rfl, State.byTable_keeps (.refl s) doStreamOpen_keeps⟩
  | streamClose => exact ⟨_, rfl, State.byTable_keeps (.refl s) doStreamClose_keeps⟩
  | stepArm => exact ⟨_, rfl, State.byTable_keeps (.refl s) doStepArm_keeps⟩
  | stepArmSettled => exact ⟨_, rfl, doStepArmSettled_keeps (.refl s)⟩
  | stepStart => exact ⟨_, rfl, State.byTable_keeps (.refl s) doStepStart_keeps⟩
  | stepStatus => exact ⟨_, rfl, State.byTable_keeps (.refl s) doStepStatus_keeps⟩
  | abort => exact ⟨_, rfl, State.byTable_keeps (.refl s) doAbort_keeps⟩
  | eventWait => exact ⟨_, rfl, State.byTable_keeps (.refl s) doEventWait_keeps⟩
  | eventWaitDone => exact ⟨_, rfl, doEventWaitDone_keeps (.refl s)⟩
  | captureRead => exact ⟨_, rfl, State.byTable_keeps (.refl s) doCaptureRead_keeps⟩
  | failRead => exact ⟨_, rfl, State.byTable_keeps (.refl s) doFailRead_keeps⟩
  | profileRead => exact ⟨_, rfl, State.byTable_keeps (.refl s) doProfileRead_keeps⟩
  | measure => exact ⟨_, rfl, State.byTable_keeps (.refl s) doMeasure_keeps⟩
  | measureReply => exact ⟨_, rfl, doMeasureReply_keeps (.refl s)⟩
  | calRun => exact ⟨_, rfl, State.byTable_keeps (.refl s) doCalRun_keeps⟩
  | calRunDone => exact ⟨_, rfl, doCalRunDone_keeps (.refl s)⟩
  | calCommit => exact ⟨_, rfl, State.byTable_keeps (.refl s) doCalCommit_keeps⟩
  | calRead => exact ⟨_, rfl, State.byTable_keeps (.refl s) doCalRead_keeps⟩
  | sealLoad => exact ⟨_, rfl, State.byTable_keeps (.refl s) doSealLoad_keeps⟩
  | sealPartStaged => exact ⟨_, rfl, doSealPartStaged_keeps (.refl s)⟩
  | stagingTimeout => exact ⟨_, rfl, doStagingTimeout_keeps (.refl s)⟩
  | attest => exact ⟨_, rfl, State.byTable_keeps (.refl s) doAttest_keeps⟩
  | attestationSigned => exact ⟨_, rfl, doAttestationSigned_keeps (.refl s)⟩
  | lifecycle => exact ⟨_, rfl, State.byTable_keeps (.refl s) doLifecycle_keeps⟩
  | lifecycleTransition => exact ⟨_, rfl, doLifecycleTransition_keeps (.refl s)⟩
  | identity => exact ⟨_, rfl, State.byTable_keeps (.refl s) doIdentity_keeps⟩
  | patchLoad => exact ⟨_, rfl, State.byTable_keeps (.refl s) doPatchLoad_keeps⟩
  | patchActivation => exact ⟨_, rfl, doPatchActivation_keeps (.refl s)⟩
  | patchDrainTimeout => exact ⟨_, rfl, doPatchDrainTimeout_keeps (.refl s)⟩
  | selftest => exact ⟨_, rfl, State.byTable_keeps (.refl s) doSelftest_keeps⟩
  | selftestDone => exact ⟨_, rfl, doSelftestDone_keeps (.refl s)⟩
  | fence => exact ⟨_, rfl, State.byTable_keeps (.refl s) doFence_keeps⟩
  | calve => exact ⟨_, rfl, State.byTable_keeps (.refl s) doCalve_keeps⟩
  | dumpRead => exact ⟨_, rfl, State.byTable_keeps (.refl s) doDumpRead_keeps⟩
  | frost => exact ⟨_, rfl, State.byTable_keeps (.refl s) doFrost_keeps⟩
  | frostSnapshot => exact ⟨_, rfl, doFrostSnapshot_keeps (.refl s)⟩
  | powerState => exact ⟨_, rfl, State.byTable_keeps (.refl s) doPowerState_keeps⟩
  | powerTransitionDone => exact ⟨_, rfl, doPowerTransitionDone_keeps (.refl s)⟩
  | scheduledThaw => exact ⟨_, rfl, doScheduledThaw_keeps (.refl s)⟩
  | inject => exact ⟨_, rfl, State.byTable_keeps (.refl s) doInject_keeps⟩
  | undefinedOpcode => exact ⟨_, rfl, State.byTable_keeps (.refl s) doUndefinedOpcode_keeps⟩
  | stepStartGridPoint => exact ⟨_, rfl, doStepStartGridPoint_keeps (.refl s)⟩
  | cycleBegin => exact ⟨_, rfl, doCycleBegin_keeps (.refl s)⟩
  | strobe => exact ⟨_, rfl, doStrobe_keeps (.refl s)⟩
  | nop => exact ⟨_, rfl, doNop_keeps (.refl s)⟩
  | vec => exact ⟨_, rfl, doVec_keeps (.refl s)⟩
  | rpt => exact ⟨_, rfl, doRpt_keeps (.refl s)⟩
  | hold => exact ⟨_, rfl, doHold_keeps (.refl s)⟩
  | loop => exact ⟨_, rfl, doLoop_keeps (.refl s)⟩
  | lend => exact ⟨_, rfl, doLend_keeps (.refl s)⟩
  | call => exact ⟨_, rfl, doCall_keeps (.refl s)⟩
  | ret => exact ⟨_, rfl, doRet_keeps (.refl s)⟩
  | jmp => exact ⟨_, rfl, doJmp_keeps (.refl s)⟩
  | br => exact ⟨_, rfl, doBr_keeps (.refl s)⟩
  | segsw => exact ⟨_, rfl, doSegsw_keeps (.refl s)⟩
  | mark => exact ⟨_, rfl, doMark_keeps (.refl s)⟩
  | period => exact ⟨_, rfl, doPeriod_keeps (.refl s)⟩
  | wait => exact ⟨_, rfl, doWait_keeps (.refl s)⟩
  | waitRelease => exact ⟨_, rfl, doWaitRelease_keeps (.refl s)⟩
  | endStep => exact ⟨_, rfl, doEndStep_keeps (.refl s)⟩
  | stallResume => exact ⟨_, rfl, doStallResume_keeps (.refl s)⟩
  | stallLimitExpiry => exact ⟨_, rfl, doStallLimitExpiry_keeps (.refl s)⟩
  | tdcStop => exact ⟨_, rfl, doTdcStop_keeps (.refl s)⟩
  | trigTimeReached => exact ⟨_, rfl, doTrigTimeReached_keeps (.refl s)⟩
  | trigInEdge => exact ⟨_, rfl, doTrigInEdge_keeps (.refl s)⟩
  | pmuConversion => exact ⟨_, rfl, doPmuConversion_keeps (.refl s)⟩
  | maskvFlag => exact ⟨_, rfl, doMaskvFlag_keeps (.refl s)⟩
  | chModeWrite => exact ⟨_, rfl, doChModeWrite_keeps (.refl s)⟩
  | gateClosed => exact ⟨_, rfl, doGateClosed_keeps (.refl s)⟩
  | forcedResetEnd => exact ⟨_, rfl, doForcedResetEnd_keeps (.refl s)⟩
  | comparatorKnown => exact ⟨_, rfl, doComparatorKnown_keeps (.refl s)⟩
  | cmpSelfCheck => exact ⟨_, rfl, doCmpSelfCheck_keeps (.refl s)⟩
  | chkLate => exact ⟨_, rfl, doChkLate_keeps (.refl s)⟩
  | lvlWrite => exact ⟨_, rfl, doLvlWrite_keeps (.refl s)⟩
  | deglitchHoldEnd => exact ⟨_, rfl, doDeglitchHoldEnd_keeps (.refl s)⟩
  | levelSettled => exact ⟨_, rfl, doLevelSettled_keeps (.refl s)⟩
  | pmuCfgWrite => exact ⟨_, rfl, doPmuCfgWrite_keeps (.refl s)⟩
  | rangingEnd => exact ⟨_, rfl, State.setFlag_keeps (.refl s)⟩
  | lvlClrAssert => exact ⟨_, rfl, doLvlClrAssert_keeps (.refl s)⟩
  | lvlClrDeassert => exact ⟨_, rfl, doLvlClrDeassert_keeps (.refl s)⟩
  | pinOverstress => exact ⟨_, rfl, doPinOverstress_keeps (.refl s)⟩
  | sntCfgWrite => exact ⟨_, rfl, doSntCfgWrite_keeps (.refl s)⟩
  | sentinelViolation => exact ⟨_, rfl, doSentinelViolation_keeps (.refl s)⟩
  | sentinelSelfCheck => exact ⟨_, rfl, doSentinelSelfCheck_keeps (.refl s)⟩
  | backgroundMeasurement => exact ⟨_, rfl, doBackgroundMeasurement_keeps (.refl s)⟩
  | calAutoCommit => exact ⟨_, rfl, doCalAutoCommit_keeps (.refl s)⟩
  | refvCheck => exact ⟨_, rfl, doRefvCheck_keeps (.refl s)⟩
  | syncEdge => exact ⟨_, rfl, doSyncEdge_keeps (.refl s)⟩
  | syncArmedLoad => exact ⟨_, rfl, doSyncArmedLoad_keeps (.refl s)⟩
  | systimeWrap => exact ⟨_, rfl, doSystimeWrap_keeps (.refl s)⟩
  | refCheck => exact ⟨_, rfl, doRefCheck_keeps (.refl s)⟩
  | refDriftCheck => exact ⟨_, rfl, doRefDriftCheck_keeps (.refl s)⟩
  | systimeLoRead => exact ⟨_, rfl, doSystimeLoRead_keeps (.refl s)⟩
  | timeMessageSend => exact ⟨_, rfl, doTimeMessageSend_keeps (.refl s)⟩
  | timeMessageReceive => exact ⟨_, rfl, doTimeMessageReceive_keeps (.refl s)⟩
  | frameReceive => exact ⟨_, rfl, doFrameReceive_keeps (.refl s)⟩
  | nakReceive => exact ⟨_, rfl, doNakReceive_keeps (.refl s)⟩
  | ackTimer => exact ⟨_, rfl, doAckTimer_keeps (.refl s)⟩
  | amReceive => exact ⟨_, rfl, doAmReceive_keeps (.refl s)⟩
  | laneLockLoss => exact ⟨_, rfl, doLaneLockLoss_keeps (.refl s)⟩
  | trainingSuccess => exact ⟨_, rfl, doTrainingSuccess_keeps (.refl s)⟩
  | trainingTimeout => exact ⟨_, rfl, doTrainingTimeout_keeps (.refl s)⟩
  | downWaitExpiry => exact ⟨_, rfl, doDownWaitExpiry_keeps (.refl s)⟩
  | retrainComplete => exact ⟨_, rfl, doRetrainComplete_keeps (.refl s)⟩
  | retrainTimeout => exact ⟨_, rfl, doRetrainTimeout_keeps (.refl s)⟩
  | linkEnable => exact ⟨_, rfl, doLinkEnable_keeps (.refl s)⟩
  | linkTest => exact ⟨_, rfl, doLinkTest_keeps (.refl s)⟩
  | linkRetrainRequest => exact ⟨_, rfl, doLinkRetrainRequest_keeps (.refl s)⟩
  | laneUnfence => exact ⟨_, rfl, doLaneUnfence_keeps (.refl s)⟩
  | laneEqWrite => exact ⟨_, rfl, doLaneEqWrite_keeps (.refl s)⟩
  | eventMessageReceive => exact ⟨_, rfl, doEventMessageReceive_keeps (.refl s)⟩
  | linkevSend => exact ⟨_, rfl, doLinkevSend_keeps (.refl s)⟩
  | chipIdWrite => exact ⟨_, rfl, doChipIdWrite_keeps (.refl s)⟩
  | creditEvent => exact ⟨_, rfl, doCreditEvent_keeps (.refl s)⟩
  | sessionTimeout => exact ⟨_, rfl, doSessionTimeout_keeps (.refl s)⟩
  | packetSendTimeout => exact ⟨_, rfl, doPacketSendTimeout_keeps (.refl s)⟩
  | routineDispatch => exact ⟨_, rfl, doRoutineDispatch_keeps (.refl s)⟩
  | routineBound => exact ⟨_, rfl, doRoutineBound_keeps (.refl s)⟩
  | trap => exact ⟨_, rfl, doTrap_keeps (.refl s)⟩
  | clockModeChange => exact ⟨_, rfl, doClockModeChange_keeps (.refl s)⟩
  | engClrstat => exact ⟨_, rfl, doEngClrstat_keeps (.refl s)⟩
  | faultInterrupt => exact ⟨_, rfl, doFaultInterrupt_keeps (.refl s)⟩
  | faultClear => exact ⟨_, rfl, doFaultClear_keeps (.refl s)⟩
  | sfLockSet => exact ⟨_, rfl, doSfLockSet_keeps (.refl s)⟩
  | fenceMaskWrite => exact ⟨_, rfl, doFenceMaskWrite_keeps (.refl s)⟩
  | channelRetestDone => exact ⟨_, rfl, doChannelRetestDone_keeps (.refl s)⟩
  | coreFault => exact ⟨_, rfl, doCoreFault_keeps (.refl s)⟩
  | coreRetestDone => exact ⟨_, rfl, doCoreRetestDone_keeps (.refl s)⟩
  | targetCheckDone => exact ⟨_, rfl, doTargetCheckDone_keeps (.refl s)⟩
  | migrationStart => exact ⟨_, rfl, doMigrationStart_keeps (.refl s)⟩
  | migrationComplete => exact ⟨_, rfl, doMigrationComplete_keeps (.refl s)⟩
  | calvingDeskewDone => exact ⟨_, rfl, doCalvingDeskewDone_keeps (.refl s)⟩
  | spareCoreCheck => exact ⟨_, rfl, doSpareCoreCheck_keeps (.refl s)⟩
  | repairLogWrite => exact ⟨_, rfl, doRepairLogWrite_keeps (.refl s)⟩
  | softRepairPersist => exact ⟨_, rfl, doSoftRepairPersist_keeps (.refl s)⟩
  | btRegionTest => exact ⟨_, rfl, doBtRegionTest_keeps (.refl s)⟩
  | thermalSample => exact ⟨_, rfl, doThermalSample_keeps (.refl s)⟩
  | throttleEvaluation => exact ⟨_, rfl, doThrottleEvaluation_keeps (.refl s)⟩
  | supplyExcursionBegin => exact ⟨_, rfl, doSupplyExcursionBegin_keeps (.refl s)⟩
  | supplyExcursionEnd => exact ⟨_, rfl, doSupplyExcursionEnd_keeps (.refl s)⟩
  | controlledStop => exact ⟨_, rfl, doControlledStop_keeps (.refl s)⟩
  | sf3Release => exact ⟨_, rfl, doSf3Release_keeps (.refl s)⟩
  | tamperDetect => exact ⟨_, rfl, doTamperDetect_keeps (.refl s)⟩
  | moraineFlush => exact ⟨_, rfl, doMoraineFlush_keeps (.refl s)⟩
  | mrnFlush => exact ⟨_, rfl, doMrnFlush_keeps (.refl s)⟩
  | mrnClear => exact ⟨_, rfl, doMrnClear_keeps (.refl s)⟩
  | mrnCursorWrite => exact ⟨_, rfl, doMrnCursorWrite_keeps (.refl s)⟩
  | mrnLoadDone => exact ⟨_, rfl, doMrnLoadDone_keeps (.refl s)⟩
  | mrnWin15Read => exact ⟨_, rfl, doMrnWin15Read_keeps (.refl s)⟩
  | evcLoRead => exact ⟨_, rfl, doEvcLoRead_keeps (.refl s)⟩
  | cntResume => exact ⟨_, rfl, doCntResume_keeps (.refl s)⟩
  | dumpFlashCopyDone => exact ⟨_, rfl, doDumpFlashCopyDone_keeps (.refl s)⟩
  | dumpRelease => exact ⟨_, rfl, doDumpRelease_keeps (.refl s)⟩
  | mselAssert => exact ⟨_, rfl, doMselAssert_keeps (.refl s)⟩
  | veingFrame => exact ⟨_, rfl, doVeingFrame_keeps (.refl s)⟩
  | veingNop => exact ⟨_, rfl, doVeingNop_keeps (.refl s)⟩
  | addrLo => exact ⟨_, rfl, doAddrLo_keeps (.refl s)⟩
  | addrHi => exact ⟨_, rfl, doAddrHi_keeps (.refl s)⟩
  | wdataLo => exact ⟨_, rfl, doWdataLo_keeps (.refl s)⟩
  | veingWrite => exact ⟨_, rfl, doVeingWrite_keeps (.refl s)⟩
  | veingRead => exact ⟨_, rfl, doVeingRead_keeps (.refl s)⟩
  | veingBoundaryAccess => exact ⟨_, rfl, doVeingBoundaryAccess_keeps (.refl s)⟩
  | rdhi => exact ⟨_, rfl, doRdhi_keeps (.refl s)⟩
  | setaddr => exact ⟨_, rfl, doSetaddr_keeps (.refl s)⟩
  | veingReset => exact ⟨_, rfl, doVeingReset_keeps (.refl s)⟩
  | veingUndefinedCmd => exact ⟨_, rfl, doVeingUndefinedCmd_keeps (.refl s)⟩
  | ppTxctlPush => exact ⟨_, rfl, doPpTxctlPush_keeps (.refl s)⟩
  | ppEntryExecute => exact ⟨_, rfl, doPpEntryExecute_keeps (.refl s)⟩
  | ppRxdataRead => exact ⟨_, rfl, doPpRxdataRead_keeps (.refl s)⟩
  | ppFlush => exact ⟨_, rfl, doPpFlush_keeps (.refl s)⟩
  | ppContTimeout => exact ⟨_, rfl, doPpContTimeout_keeps (.refl s)⟩
  | internalTransfer => exact ⟨_, rfl, doInternalTransfer_keeps (.refl s)⟩
  | powerOnReset => exact ⟨_, rfl, doPowerOnReset_keeps (.refl s)⟩
  | warmReset => exact ⟨_, rfl, doWarmReset_keeps (.refl s)⟩
  | supplyReset => exact ⟨_, rfl, doSupplyReset_keeps (.refl s)⟩
  | boot => exact ⟨_, rfl, doBoot_keeps (.refl s)⟩
  | tapInstructionUpdate => exact ⟨_, rfl, doTapInstructionUpdate_keeps (.refl s)⟩
  | ocxoReadyChange => exact ⟨_, rfl, doOcxoReadyChange_keeps (.refl s)⟩
  | linkctlReceive => exact ⟨_, rfl, doLinkctlReceive_keeps (.refl s)⟩
  | gateOpened => exact ⟨_, rfl, State.gateOpen_keeps (.refl s)⟩
  | sentinelWindowCrossing => exact ⟨_, rfl, doSentinelWindowCrossing_keeps (.refl s)⟩
  | dumpFirnWriteDone => exact ⟨_, rfl, doDumpFirnWriteDone_keeps (.refl s)⟩
  | drbgHealthTestFail => exact ⟨_, rfl, doDrbgHealthTestFail_keeps (.refl s)⟩
  | operatingTimeTick => exact ⟨_, rfl, doOperatingTimeTick_keeps (.refl s)⟩

/-- Settles O5: the queue is one of the things that every row keeps. -/
theorem execLeavesQueue : Obligations.ExecLeavesQueue := by
  unfold Obligations.ExecLeavesQueue
  intro c s
  obtain ⟨t, hexec, hkeeps⟩ := exec_keeps c s
  exact ⟨t, hexec, hkeeps.pending⟩

/-- Settles O4: the step takes the front command off the queue. -/
theorem stepRunsFront : Obligations.StepRunsFront := by
  unfold Obligations.StepRunsFront
  intro c rest s hqueue
  rw [step, hqueue]

/-- Settles O1; that an unwritten byte reads 0 is the model's choice (log entry 3). A step is an edge of REFCLK or the front command, and both keep
the canonical forms. -/
theorem keepsCanonicalForm : Obligations.KeepsCanonicalForm := by
  unfold Obligations.KeepsCanonicalForm
  intro s t hmem hregs hstep
  cases hqueue : s.pending with
  | nil =>
    rw [step, hqueue] at hstep
    cases hstep
    have hkeeps : Keeps s s.idleEdge := State.idleEdge_keeps (.refl s)
    exact ⟨hkeeps.mem hmem, hkeeps.regs hregs⟩
  | cons c rest =>
    rw [stepRunsFront c rest s hqueue] at hstep
    obtain ⟨u, hexec, hkeeps⟩ := exec_keeps c { s with pending := rest }
    cases hexec.symm.trans hstep
    exact ⟨hkeeps.mem hmem, hkeeps.regs hregs⟩

end Sys2Proof.Machine
end

section
/-! SUPPORT. The machine after reset, register by register (00_scope.md R10; 01_architecture.md R15). -/

namespace Sys2Proof.Machine

/-- A register reads its reset value while none is listed. -/
theorem State.rget_reset (a : Nat) : State.reset.rget a = regReset a := rfl

/-- Settles O2; what unwritten memory reads as is the model's choice (log entry 3). Nothing is listed after reset, so that every key reads as an
unlisted one. -/
theorem resetIsCanonical : Obligations.ResetIsCanonical :=
  ⟨rfl, rfl, rfl, State.rget_reset, fun _ _ _ => rfl⟩

/-- Where the channels' registers stand (22_register_map.md Table 22.1). -/
theorem blockOf_chan (c : Fin 1024) {o : Nat} (ho : o < 0x184) : blockOf (0x500000 + c * 0x400 + o) = some (.chan, c.val, o) := by
  have hc := c.isLt
  have hinst : (0x500000 + c.val * 0x400 + o - 0x500000) / 0x400 = c.val := by omega
  have hoff : (0x500000 + c.val * 0x400 + o - 0x500000) % 0x400 = o := by omega
  unfold blockOf
  extract_lets at1 got
  have hgot : got = some (.chan, c.val, o) := by
    unfold got
    rw [hinst, hoff]
    repeat rw [if_neg (by omega)]
    rw [if_pos (by omega)]
  rw [hgot]
  exact if_pos ho

/-- Where the tiles' registers stand (22_register_map.md Table 22.1). -/
theorem blockOf_tile (n : Fin 64) {o : Nat} (ho : o < 0x90C) : blockOf (0x100000 + n * 0x10000 + o) = some (.tile, n.val, o) := by
  have hn := n.isLt
  have hinst : (0x100000 + n.val * 0x10000 + o - 0x100000) / 0x10000 = n.val := by omega
  have hoff : (0x100000 + n.val * 0x10000 + o - 0x100000) % 0x10000 = o := by omega
  unfold blockOf
  extract_lets at1 got
  have hgot : got = some (.tile, n.val, o) := by
    unfold got
    rw [hinst, hoff]
    repeat rw [if_neg (by omega)]
    rw [if_pos (by omega)]
  rw [hgot]
  exact if_pos ho

/-- A register that resets to a constant. -/
theorem regReset_const {a i o : Nat} {b : Blk} {d : RegDesc} {w : Word} (hblock : blockOf a = some (b, i, o))
    (hrow : b.regs.find? (fun d => d.covers o) = some d) (hrst : d.rst = .const w) : regReset a = w := by
  simp only [regReset, regAt, hblock, hrow, hrst]

/-- Settles O3: TILE_MAP and SESS_STAT are the few registers of their kinds, the registers of a tile and of a channel are found by their row. -/
theorem resetValues : Obligations.ResetValues := by
  refine ⟨by decide +kernel, fun n => ?_, fun c => ⟨?_, ?_⟩, by decide +kernel, by decide +kernel, by decide +kernel⟩
  · exact regReset_const (blockOf_tile n (o := 0) (by decide)) rfl rfl
  · exact regReset_const (blockOf_chan c (o := 0x40) (by decide)) rfl rfl
  · exact regReset_const (blockOf_chan c (o := 0x44) (by decide)) rfl rfl

end Sys2Proof.Machine
end

section
/-! SUPPORT. STEP_STATUS (10_uhleus_protocol.md Table 10.6; 13_security.md Table 13.10). -/

namespace Sys2Proof.Machine

/-- The word that STEP_STATUS returns for a tile. -/
theorem State.seqStatus_eq (s : State) (u : Nat) : s.seqStatus u = if s.bundleOf u = none then s.rget (R.SEQ_STATUS u)
    else setField (setField (s.rget (R.SEQ_STATUS u)) 29 16 0) 15 12 0 := by
  unfold State.seqStatus
  cases s.bundleOf u <;> rfl

/-- A routine of the ROM changes neither the registers of a tile nor its bundle. -/
theorem Counts.seqStatus {s t : State} (h : Counts s t) (u : Nat) : t.seqStatus u = s.seqStatus u := by
  have hbundle : t.bundleOf u = s.bundleOf u :=
    State.bundleOf_congr (fun a ha => h.regs a (decide_eq_false (by have := of_decide_eq_true ha; omega))) u
  rw [State.seqStatus_eq, hbundle, h.rget_ge (by unfold R.SEQ_STATUS; omega), State.seqStatus_eq]

/-- Settles O23: the routine reads the registers of the named tiles, which it leaves, and replies. -/
theorem stepStatusReads : Obligations.StepStatusReads := by
  unfold Obligations.StepStatusReads
  intro q s hruns
  have hexec : exec (.stepStatus q) s = .next (doStepStatus q s) := congrArg Host.Outcome.next (State.byTable_of_runs hruns _)
  rw [doStepStatus, State.request_of_runs hruns rfl] at hexec
  simp only [s.routine_counts.seqStatus, State.seqStatus_eq] at hexec
  exact ⟨_, hexec, s.routine_reply_spec 0x32 q St.ok [] _⟩

end Sys2Proof.Machine
end

section
/-! SUPPORT. An edge of REFCLK with no command waiting: links and packets move, the count advances, and memory stays where no stream packet waits
and no trigger is still to register (02_epoch_grid.md R37, R38; 12_serial_links.md R290 to R295). -/

namespace Sys2Proof.Machine

variable {s₀ s t : State}

/-! ## What the links leave alone -/

/-- Memory, the count and the stream packets that wait are as before. -/
structure Carries (s t : State) : Prop where
  mem : t.mem = s.mem
  sysTime : t.sysTime = s.sysTime
  strmWait : t.strmWait = s.strmWait

namespace Carries

theorem refl (s : State) : Carries s s := ⟨rfl, rfl, rfl⟩

theorem trans (h : Carries s₀ s) (k : Carries s t) : Carries s₀ t :=
  ⟨k.mem.trans h.mem, k.sysTime.trans h.sysTime, k.strmWait.trans h.strmWait⟩

/-- An update of other fields. -/
theorem upd (h : Carries s₀ s) (hm : t.mem = s.mem) (hs : t.sysTime = s.sysTime) (hw : t.strmWait = s.strmWait) : Carries s₀ t :=
  h.trans ⟨hm, hs, hw⟩

theorem of_counts (h : Carries s₀ s) (k : Counts s t) : Carries s₀ t := h.trans ⟨k.mem, k.sysTime, k.strmWait⟩

theorem ite {c : Prop} [Decidable c] {a b : State} (ha : Carries s a) (hb : Carries s b) : Carries s (if c then a else b) := by
  split
  · exact ha
  · exact hb

theorem foldl {α : Type} {l : List α} {f : State → α → State} (h : Carries s₀ s) (step : ∀ s, ∀ a ∈ l, Carries s (f s a)) :
    Carries s₀ (l.foldl f s) :=
  List.foldlRecOn l f h fun _ hb a ha => hb.trans (step _ a ha)

theorem modLink (h : Carries s₀ s) (l : Nat) (f : LinkCtx → LinkCtx) : Carries s₀ (s.modLink l f) := h.upd rfl rfl rfl

theorem modCtx (h : Carries s₀ s) (n : Nat) (f : Ctx → Ctx) : Carries s₀ (s.modCtx n f) := h.upd rfl rfl rfl

theorem sendWire (h : Carries s₀ s) (l : Nat) (w : Wire) : Carries s₀ (s.sendWire l w) := by
  unfold State.sendWire
  exact h.modLink l _

theorem fset (h : Carries s₀ s) (f : Fld) (v : Nat) : Carries s₀ (s.fset f v) := h.upd rfl rfl rfl

theorem eventTo (h : Carries s₀ s) {n : Nat} (hn : n < 32) (code : Nat) (ps : List Word) : Carries s₀ (s.eventTo n code ps) := by
  have hreports := s.eventTo_reports (fun _ => false) hn code ps
  exact h.upd hreports.mem hreports.sysTime (congrArg State.strmWait hreports.same :)

/-! ## One edge of a link -/

theorem paceOn (h : Carries s₀ s) (l : Nat) : Carries s₀ (s.paceOn l) := .ite (h.modLink l _) h

theorem amEdge (h : Carries s₀ s) (l : Nat) : Carries s₀ (s.amEdge l) := by
  unfold State.amEdge
  extract_lets st limit n
  exact .ite h (.ite (h.modLink l _) (Carries.foldl (h.modLink l _) fun s _ _ => (refl s).sendWire l _))

theorem eventsEdge (h : Carries s₀ s) (l : Nat) : Carries s₀ (s.eventsEdge l) :=
  .ite h ((h.modLink l _).foldl fun s _ _ => (refl s).sendWire l _)

theorem prbsEdge (h : Carries s₀ s) (l : Nat) : Carries s₀ (s.prbsEdge l) :=
  .ite h (h.foldl fun s _ _ => (refl s).modLink l _)

theorem idleOut (h : Carries s₀ s) (l sent : Nat) : Carries s₀ (s.idleOut l sent) := .ite h (h.modLink l _)

theorem sendFrame (h : Carries s₀ s) (l : Nat) (f : Frame) : Carries s₀ (s.sendFrame l f) :=
  of_counts ((h.fset _ _).modLink l _ |>.sendWire l _) (State.evCount_counts ..)

theorem frameGone (h : Carries s₀ s) (e : OutFrame) : Carries s₀ (s.frameGone e) := by
  unfold State.frameGone
  split
  · exact h
  · exact .ite h (h.modLink _ _)

theorem eventsLost (h : Carries s₀ s) {n : Nat} (hn : n < 32) : Carries s₀ (s.eventsLost n) :=
  .ite h ((h.modCtx n _).eventTo hn 2 _)

theorem packetSent (h : Carries s₀ s) (p : Packet) : Carries s₀ (s.packetSent p) := by
  have hsent : Carries s₀ { s with sent := s.sent ++ [p] } := h.upd rfl rfl rfl
  replace hsent := hsent.of_counts (State.evCount_counts _ (if p.kind = 1 then 5 else 6) 1 none)
  exact .ite ((hsent.fset _ _).eventsLost p.session.isLt) hsent

theorem linkEdge (s : State) (l : Nat) : Carries s (s.linkEdge l) := by
  have hdue : Carries s ((((s.paceOn l).amEdge l).eventsEdge l).prbsEdge l) := ((((refl s).paceOn l).amEdge l).eventsEdge l).prbsEdge l
  unfold State.linkEdge
  extract_lets sent r
  split
  · exact hdue.idleOut l _
  · extract_lets hold r₁ r₂
    have hgone : Carries s r₂ := ((hdue.modLink l _).sendFrame l _).frameGone _
    split
    · exact hgone.packetSent _
    · exact hgone

/-! ## Packets of the device -/

theorem frameOut (h : Carries s₀ s) (outs : List Nat) (f : Frame) (pkt : Nat) (src : Option Nat) (own : Option Packet) :
    Carries s₀ (s.frameOut outs f pkt src own) :=
  Carries.foldl (h.upd (t := s.newId.2) rfl rfl rfl) fun s l _ => (refl s).modLink l _

theorem packetOut (h : Carries s₀ s) (p : Packet) : Carries s₀ (s.packetOut p) :=
  Carries.foldl (h.upd (t := s.newId.2) rfl rfl rfl) fun s f _ => (refl s).frameOut _ f _ _ _

theorem transmit (h : Carries s₀ s) : Carries s₀ s.transmit :=
  Carries.foldl (h.upd rfl rfl rfl) fun s _ _ => (refl s).packetOut _

theorem upMove (h : Carries s₀ s) : Carries s₀ s.upMove := .ite h ((h.modLink _ _).modLink _ _)

end Carries

theorem State.transmit_tiles (s : State) : s.transmit.tiles = s.tiles := by
  have hframe : ∀ (s : State) (outs : List Nat) (f : Frame) (pkt : Nat) (src : Option Nat) (own : Option Packet),
      (s.frameOut outs f pkt src own).tiles = s.tiles := fun s outs f pkt src own =>
    List.foldlRecOn (motive := fun t : State => t.tiles = s.tiles) _ _ rfl fun _ h _ _ => h
  have hout : ∀ (s : State) (p : Packet), (s.packetOut p).tiles = s.tiles := fun s p =>
    List.foldlRecOn (motive := fun t : State => t.tiles = s.tiles) _ _ rfl fun _ h _ _ => (hframe ..).trans h
  exact List.foldlRecOn (motive := fun t : State => t.tiles = s.tiles) _ _ rfl fun _ h _ _ => (hout ..).trans h

theorem State.upMove_tiles (s : State) : s.upMove.tiles = s.tiles := by
  unfold State.upMove
  extract_lets up q
  split <;> rfl

/-! ## The events that are to be registered (R203) -/

/-- No RUNNING tile has a trigger that is still to register. -/
def State.Untriggered (s : State) : Prop := ∀ u, s.stepState u = stRunning → (s.tile u).cap.due = []

/-- A source event outside the step is ignored (R203). -/
theorem State.trigEvent_eq_self {u : Nat} (h : s.stepState u ≠ stRunning) (i : Int) : s.trigEvent u i = s :=
  if_pos (by simp [h])

theorem State.stepState_modTile (s : State) (u v : Nat) (f : TileCtx → TileCtx) : (s.modTile u f).stepState v = s.stepState v := rfl

/-- A tile that has none left does not trigger, and one that is not RUNNING ignores them. -/
theorem State.settleTrigs_cases {u : Nat} (h : s.Untriggered) (i : Int) :
    s.settleTrigs u i = s ∨ ∃ f : TileCtx → TileCtx, s.settleTrigs u i = s.modTile u f ∧ s.stepState u ≠ stRunning := by
  unfold State.settleTrigs
  extract_lets c ready
  split
  next => exact .inl rfl
  next hdue =>
    have hidle : s.stepState u ≠ stRunning := fun hrun => hdue (by rw [show c.cap.due = [] from h u hrun]; rfl)
    refine .inr ⟨fun c => { c with cap := { c.cap with due := c.cap.due.filter fun x => !ready x } }, ?_, hidle⟩
    generalize hmod : s.modTile u _ = r
    have hr : r.stepState u ≠ stRunning := by rw [← hmod, State.stepState_modTile]; exact hidle
    exact List.foldlRecOn (motive := fun t : State => t = r) _ _ rfl fun t ht x _ => by rw [ht, State.trigEvent_eq_self hr]

theorem State.settleTrigs_untriggered {u : Nat} (h : s.Untriggered) (i : Int) :
    (s.settleTrigs u i).Untriggered ∧ Carries s (s.settleTrigs u i) := by
  obtain hsame | ⟨f, hmod, hidle⟩ := State.settleTrigs_cases h i (u := u)
  · rw [hsame]
    exact ⟨h, .refl s⟩
  · rw [hmod]
    refine ⟨fun v hrun => ?_, rfl, rfl, rfl⟩
    have hne : v ≠ u := fun e => hidle (e ▸ hrun)
    rw [State.tile_modTile, if_neg hne]
    exact h v hrun

theorem RegsOnly.carries {p : Nat → Bool} (h : RegsOnly p s t) : Carries s t :=
  ⟨h.mem, (congrArg State.sysTime h.same :), (congrArg State.strmWait h.same :)⟩

theorem State.syncConds_untriggered {u : Nat} (h : s.Untriggered) : (s.syncConds u).Untriggered ∧ Carries s (s.syncConds u) := by
  have hregs := State.syncConds_regsOnly s u
  refine ⟨fun v hrun => ?_, hregs.carries⟩
  rw [State.tile_congr hregs.tiles]
  exact h v ((hregs.stepSame (condReg_status u v)).stepState ▸ hrun)

theorem State.registerDue_carries (h : s.Untriggered) : Carries s s.registerDue :=
  (List.foldlRecOn (motive := fun t : State => t.Untriggered ∧ Carries s t) _ _ ⟨h, .refl s⟩ fun t ht e _ => by
    obtain ⟨hquiet, hcarries⟩ := ht
    obtain ⟨hquiet₁, hcarries₁⟩ := State.syncConds_untriggered hquiet (u := e.1)
    obtain ⟨hquiet₂, hcarries₂⟩ := State.settleTrigs_untriggered hquiet₁ (t.tileTime e.1 t.now) (u := e.1)
    exact ⟨hquiet₂, (hcarries.trans hcarries₁).trans hcarries₂⟩).2

/-! ## The count (R37, R38) -/

/-- Tile contexts changed in place or dropped: a tile that stays listed and keeps its triggers still has none. -/
theorem due_filterMap {m : Store TileCtx} {f : Nat × TileCtx → Option (Nat × TileCtx)} {u : Nat} (hkey : ∀ e e', f e = some e' → e'.1 = e.1)
    (hown : ∀ c, ∃ c', f (u, c) = some (u, c') ∧ c'.cap.due = c.cap.due)
    (h : (Store.get (fun _ => ({} : TileCtx)) m u).cap.due = []) : (Store.get (fun _ => ({} : TileCtx)) (m.filterMap f) u).cap.due = [] := by
  induction m with
  | nil => rfl
  | cons e m ih =>
    obtain ⟨n, c⟩ := e
    by_cases hn : n = u
    · subst hn
      obtain ⟨c', hf, hc'⟩ := hown c
      rw [List.filterMap_cons_some hf]
      simpa [Store.get, hc'] using h
    · have hm : (Store.get (fun _ => ({} : TileCtx)) m u).cap.due = [] := by simpa [Store.get, hn] using h
      cases hf : f (n, c) with
      | none => rw [List.filterMap_cons_none hf]; exact ih hm
      | some e' =>
        obtain ⟨n', c'⟩ := e'
        have hn' : n' = n := hkey _ _ hf
        rw [List.filterMap_cons_some hf]
        simpa [Store.get, hn', hn] using ih hm

/-- A wrap moves the instants on record, and leaves a RUNNING tile without triggers as it is. -/
theorem State.wrapTo_untriggered (h : ∀ u, (s.tile u).cap.due = []) (v : BitVec 64) : (s.wrapTo v).Untriggered := by
  unfold State.wrapTo
  extract_lets s₁ s₂ moved
  have hdue : ∀ u, (s₂.tile u).cap.due = [] := by
    refine List.foldlRecOn (motive := fun t : State => ∀ u, (t.tile u).cap.due = []) _ _ h fun t ht n _ u => ?_
    rw [State.suspectFlag, State.tile_modTile]
    split
    next hu => exact hu ▸ ht n
    next => exact ht u
  intro u hrun
  have hrun : s₂.stepState u = stRunning := hrun
  have hmoved : (Store.get (fun _ => ({} : TileCtx)) (s₂.tiles.filterMap moved) u).cap.due = [] := by
    refine due_filterMap (fun e e' he => ?_) (fun c => ⟨c.wrap (s₂.stepState u), ?_, ?_⟩) (hdue u)
    · simp only [moved] at he
      split at he <;> cases he
      rfl
    · exact if_neg fun hempty => absurd (congrArg TileCtx.wraps hempty) (by simp [TileCtx.wrap, hrun])
    · simp [TileCtx.wrap, hrun]
  show (Store.get (fun _ => ({} : TileCtx)) ((s₂.tiles.filterMap moved).map fun e =>
    (e.1, { e.2 with reached := e.2.reached.map (· + -epochLength) })) u).cap.due = []
  rw [← List.filterMap_eq_map']
  refine due_filterMap (fun e e' he => ?_) (fun c => ⟨_, rfl, rfl⟩) hmoved
  cases he
  rfl

theorem State.wrapTo_strmWait (s : State) (v : BitVec 64) : (s.wrapTo v).strmWait = s.strmWait := by
  unfold State.wrapTo
  extract_lets s₁ s₂ moved
  exact (congrArg State.strmWait (foldl_suspectFlag _ s₁ Sf.wrap).same :)

/-- Before the wrap the count advances by 10 ns; at it, memory still stays. -/
theorem State.tick_spec (h : ∀ u, (s.tile u).cap.due = []) : s.tick.mem = s.mem ∧ s.tick.strmWait = s.strmWait ∧
    (s.sysTime.toNat + 2560 < 2 ^ 64 → s.tick.sysTime = s.sysTime + 2560) := by
  have hwindow : ∀ r : State, r.Untriggered → r.syncWindow.Untriggered ∧ Carries r r.syncWindow := fun r hr => by
    unfold State.syncWindow
    extract_lets v
    split
    · exact ⟨hr, .refl r⟩
    · refine ⟨fun u hrun => hr u ?_, rfl, rfl, rfl⟩
      exact (((StepSame.refl r).setFlag (f := R.SUP_STATUS_WINDOW) (chipReg_ne_status (by decide)) v).stepState).symm.trans hrun
  have hregister : ∀ r : State, r.Untriggered → Carries r r.syncWindow.registerDue := fun r hr =>
    (hwindow r hr).2.trans (State.registerDue_carries (hwindow r hr).1)
  have hcount : ∀ v : BitVec 64, Carries { s with sysTime := v } { s with sysTime := v }.syncWindow.registerDue := fun v =>
    hregister _ fun u _ => h u
  unfold State.tick
  split
  next hroom =>
    obtain ⟨hmem, hsys, hwait⟩ := hcount (s.sysTime + 2560)
    exact ⟨hmem, hwait, fun _ => hsys⟩
  next hfull =>
    obtain ⟨hmem, hsys, hwait⟩ := hregister (s.wrapTo (s.sysTime + 2560)) (State.wrapTo_untriggered h _)
    refine ⟨hmem.trans (s.wrapTo_wraps _).2.2, hwait.trans (s.wrapTo_strmWait _), fun hroom => ?_⟩
    omega

/-- Settles O6; that a step on an empty queue passes an edge is the model's choice (log entry 1). -/
theorem idleEdge : Obligations.IdleEdge := by
  unfold Obligations.IdleEdge
  intro s hqueue
  have hstep : step s = .next s.idleEdge := by rw [step, hqueue]
  refine ⟨_, hstep, (State.idleEdge_keeps (.refl s)).pending.trans hqueue, fun hwait hdue => ?_⟩
  have hsent : Carries s s.upMove.transmit := (Carries.refl s).upMove.transmit
  obtain ⟨hmem, hstrm, hsys⟩ := State.tick_spec (s := s.upMove.transmit) fun u => by
    rw [State.tile_congr (s.upMove.transmit_tiles.trans s.upMove_tiles)]
    exact hdue u
  have hlinks : Carries s.upMove.transmit.tick s.linkEdges := (Carries.refl _).foldl fun r l _ => .linkEdge r l
  have hempty : s.linkEdges.strmWait = [] := hlinks.strmWait.trans (hstrm.trans (hsent.strmWait.trans hwait))
  have hidle : s.idleEdge = s.linkEdges := if_pos (by rw [hempty]; rfl)
  rw [hidle]
  refine ⟨.of_mem (hlinks.mem.trans (hmem.trans hsent.mem)), fun hroom => ?_⟩
  rw [hlinks.sysTime, hsys (by rw [hsent.sysTime]; exact hroom), hsent.sysTime]

end Sys2Proof.Machine
end

section
/-! SUPPORT. Any number of fault sources, real or injected, that set in one cycle while the moraine has room and no action resets: bits, records
and reactions (15_safety_faults.md R371 to R376, R383). -/

namespace Sys2Proof.Machine

variable {s₀ s t : State}

/-! ## The bits of a source, real or injected -/

/-- The register of a block that shows its real, or its injected, sources. -/
def shownReg (inj : Bool) (b : Nat) : Nat := if inj then R.FLT_INJ b else R.FLT_REAL b

/-- What a source of the block at `b` writes of the block's registers: the flags of its own kind, FLT_COUNT and FLT_FIRST. -/
def sourceReg (inj : Bool) (b a : Nat) : Bool := a == shownReg inj b || a == R.FLT_COUNT b || a == R.FLT_FIRST b

theorem sourceReg_fltReg {inj : Bool} {a b : Nat} (h : sourceReg inj b a = true) : fltReg b a = true := by
  simp only [sourceReg, Bool.or_eq_true, beq_iff_eq] at h
  refine decide_eq_true ?_
  rcases h with (rfl | rfl) | rfl
  · unfold shownReg
    split <;> simp [R.FLT_INJ, R.FLT_REAL]
  · simp [R.FLT_COUNT]
  · simp [R.FLT_FIRST]

/-- A block's base and the number of one of its sources. -/
def IsSource (e : Nat × Nat) : Prop := e.1 % 0x1000 = 0 ∧ e.2 < 32

theorem State.faultBits_logs (s : State) (b src : Nat) (inj : Bool) :
    Logs (sourceReg inj b) s (s.faultBits b src inj) ∧ (s.faultBits b src inj).staged = s.staged ∧
      (s.faultBits b src inj).rget (shownReg inj b) = s.rget (shownReg inj b) ||| BitVec.ofNat 32 (2 ^ src) := by
  have hshown : sourceReg inj b (shownReg inj b) = true := by simp [sourceReg]
  have hcount : sourceReg inj b (R.FLT_COUNT b) = true := by simp [sourceReg]
  have hfirst : sourceReg inj b (R.FLT_FIRST b) = true := by simp [sourceReg]
  have hne : shownReg inj b ≠ R.FLT_COUNT b ∧ shownReg inj b ≠ R.FLT_FIRST b := by
    cases inj <;> simp [shownReg, R.FLT_INJ, R.FLT_REAL, R.FLT_COUNT, R.FLT_FIRST]
  have h₁ : Logs (sourceReg inj b) s
      ((s.rset (shownReg inj b) (s.rget (shownReg inj b) ||| BitVec.ofNat 32 (2 ^ src))).count (R.FLT_COUNT_COUNT b)) :=
    ((Logs.refl s).rset hshown _).fset (f := R.FLT_COUNT_COUNT b) hcount _
  unfold State.faultBits
  extract_lets a s₁
  change Logs (sourceReg inj b) s s₁ at h₁
  have hword : s₁.rget (shownReg inj b) = s.rget (shownReg inj b) ||| BitVec.ofNat 32 (2 ^ src) :=
    (State.rget_fset_other _ _ hne.1).trans (State.rget_rset_same ..)
  have hstaged : s₁.staged = s.staged := (State.fset_staged ..).trans (State.rset_staged ..)
  clear_value s₁
  split
  · exact ⟨h₁, hstaged, hword⟩
  · exact ⟨h₁.rset hfirst _, (State.rset_staged ..).trans hstaged, (State.rget_rset_other _ _ hne.2).trans hword⟩

/-- The flags of one block are no register that a source of another, or of the other kind, writes. -/
theorem sourceReg_shownReg_other {inj inj' : Bool} {b c : Nat} (hb : b % 0x1000 = 0) (hc : c % 0x1000 = 0) (h : b ≠ c ∨ inj ≠ inj') :
    sourceReg inj' c (shownReg inj b) = false := by
  cases inj <;> cases inj' <;> simp [sourceReg, shownReg, R.FLT_INJ, R.FLT_REAL, R.FLT_COUNT, R.FLT_FIRST] at h ⊢ <;> omega

/-! ## Many sources -/

/-- What the sources of `l` write, records aside. -/
def sourceRegs (inj : Bool) (l : List (Nat × Nat)) (a : Nat) : Bool := l.any fun e => sourceReg inj e.1 a

/-- The sources of `l`, set one after another: every bit of a block's flags is set that was, or that a source of `l` names. -/
theorem State.faultBits_all {l : List (Nat × Nat)} {inj : Bool} (hl : ∀ e ∈ l, IsSource e) :
    Logs (sourceRegs inj l) s (l.foldl (fun t e => t.faultBits e.1 e.2 inj) s) ∧
      (l.foldl (fun t e => t.faultBits e.1 e.2 inj) s).staged = s.staged ∧
      ∀ b k, b % 0x1000 = 0 → ((l.foldl (fun t e => t.faultBits e.1 e.2 inj) s).rget (shownReg inj b)).getLsbD k =
        ((s.rget (shownReg inj b)).getLsbD k || l.contains (b, k)) := by
  induction l generalizing s with
  | nil => exact ⟨.refl s, rfl, fun b k _ => by simp⟩
  | cons e l ih =>
    obtain ⟨hbase, hsrc⟩ := hl e List.mem_cons_self
    obtain ⟨hlogs, hstaged, hword⟩ := s.faultBits_logs e.1 e.2 inj
    obtain ⟨hlogs', hstaged', hbits⟩ := ih (s := s.faultBits e.1 e.2 inj) fun x hx => hl x (List.mem_cons_of_mem _ hx)
    refine ⟨(hlogs.mono fun a ha => ?_).trans (hlogs'.mono fun a ha => ?_), hstaged'.trans hstaged, fun b k hb => ?_⟩
    · simp [sourceRegs, ha]
    · rw [sourceRegs] at ha
      simp [sourceRegs, ha]
    · rw [List.foldl_cons, hbits b k hb, List.contains_cons]
      by_cases he : b = e.1
      · subst he
        rw [hword, getLsbD_or_bit _ _ _ hsrc, Bool.or_assoc]
        congr 2
        rw [Bool.eq_iff_iff]
        simp [Prod.ext_iff]
      · have hcnt : counting (shownReg inj b) = false := by
          have := (faultReg_apart (b := b) (o := if inj then 0xf04 else 0xf00) hb (by cases inj <;> decide)).2
          cases inj <;> simpa [shownReg, R.FLT_INJ, R.FLT_REAL] using this
        have hne : ((b, k) == e) = false := beq_false_of_ne fun h => he (congrArg Prod.fst h)
        rw [hlogs.rget (sourceReg_shownReg_other hb hbase (.inl he)) hcnt, hne, Bool.false_or]

theorem State.faultRecord_all {l : List (Nat × Nat)} {inj : Bool} (hroom : s.staged.length + l.length ≤ 128) :
    Logs recordReg s (l.foldl (fun t e => t.faultRecord e.1 e.2 inj) s) := by
  induction l generalizing s with
  | nil => exact .refl s
  | cons e l ih =>
    rw [List.length_cons] at hroom
    obtain ⟨hlogs, hlen⟩ := s.faultRecord_logs (by omega) e.1 e.2 inj
    exact hlogs.trans (ih (by omega))

theorem length_insertBy {β : Type} (lt : β → β → Bool) (x : β) (l : List β) : (insertBy lt x l).length = l.length + 1 := by
  induction l with
  | nil => rfl
  | cons y l ih =>
    unfold insertBy
    split
    · rfl
    · simp [ih]

theorem length_sortBy {β : Type} (lt : β → β → Bool) (l : List β) : (sortBy lt l).length = l.length := by
  induction l with
  | nil => rfl
  | cons x l ih => exact (length_insertBy ..).trans (congrArg (· + 1) ih)

theorem length_eraseDups_le {l : List (Nat × Nat)} : l.eraseDups.length ≤ l.length := by
  generalize hn : l.length = n
  induction n using Nat.strongRecOn generalizing l with
  | _ n ih =>
    cases l with
    | nil => simp
    | cons x l =>
      have hlen := List.length_filter_le (fun b => !b == x) l
      rw [List.length_cons] at hn
      have := ih _ (by omega) (l := l.filter fun b => !b == x) rfl
      rw [List.eraseDups_cons, List.length_cons]
      omega

/-- The registers that sources of `l` may change when they set. -/
def raisesReg (inj : Bool) (l : List (Nat × Nat)) (a : Nat) : Bool := sourceRegs inj l a || recordReg a

theorem raisesReg_flt {inj : Bool} {l : List (Nat × Nat)} {a : Nat} (h : raisesReg inj l a = true) :
    (∃ e ∈ l, fltReg e.1 a = true) ∨ recordReg a = true := by
  rcases Bool.or_eq_true_iff.1 h with h | h
  · obtain ⟨e, he, ha⟩ := List.any_eq_true.1 h
    exact .inl ⟨e, he, sourceReg_fltReg ha⟩
  · exact .inr h

/-- The ACTION of a source is in no register that a source writes. -/
theorem raisesReg_react {inj : Bool} {l : List (Nat × Nat)} (hl : ∀ e ∈ l, IsSource e) {e : Nat × Nat} (he : IsSource e) :
    raisesReg inj l (R.FLT_REACT e.1 (e.2 / 8)) = false ∧ counting (R.FLT_REACT e.1 (e.2 / 8)) = false := by
  obtain ⟨hbase, hsrc⟩ := he
  obtain ⟨hrec, hcnt⟩ := faultReg_apart (o := 0xf10 + e.2 / 8 * 4) hbase (by omega)
  have hreact : R.FLT_REACT e.1 (e.2 / 8) = e.1 + (0xf10 + e.2 / 8 * 4) := Nat.add_assoc ..
  rw [hreact]
  refine ⟨Bool.eq_false_iff.2 fun h => ?_, hcnt⟩
  rcases raisesReg_flt h with ⟨x, hx, hflt⟩ | h
  · have := (hl x hx).1
    have := of_decide_eq_true hflt
    omega
  · rw [hrec] at h
    cases h

theorem Logs.actionOf {inj : Bool} {l : List (Nat × Nat)} (h : Logs (raisesReg inj l) s t) (hl : ∀ e ∈ l, IsSource e) {e : Nat × Nat}
    (he : IsSource e) : t.actionOf e = s.actionOf e := by
  obtain ⟨hreact, hcnt⟩ := raisesReg_react (inj := inj) hl he
  rw [State.actionOf, State.nibble, h.rget hreact hcnt]
  rfl

/-- Sources that have room for their records and whose actions reset nothing: their bits set, the rest is the records and the reaction. -/
theorem State.faultRaises_spec {l : List (Nat × Nat)} {inj : Bool} (hl : ∀ e ∈ l, IsSource e) (hroom : s.staged.length + l.length ≤ 128)
    (hact : ∀ e ∈ l, s.actionOf e < 3) :
    Logs (raisesReg inj l) s (s.faultRaises l inj) ∧ ∀ e ∈ l, ((s.faultRaises l inj).rget (shownReg inj e.1)).getLsbD e.2 = true := by
  obtain ⟨hbits, hstaged, hword⟩ := State.faultBits_all (s := s) (inj := inj) hl
  unfold State.faultRaises
  extract_lets new t₁ first t₂
  change Logs _ s t₁ at hbits
  change t₁.staged = _ at hstaged
  have hlen : first.length ≤ l.length :=
    (length_sortBy ..).trans_le ((List.length_filter_le ..).trans length_eraseDups_le)
  have hrecord : Logs recordReg t₁ t₂ := State.faultRecord_all (by rw [hstaged]; omega)
  have hlogs : Logs (raisesReg inj l) s t₂ :=
    (hbits.mono fun a ha => by simp [raisesReg, ha]).trans (hrecord.mono fun a ha => by simp [raisesReg, ha])
  have hshown : ∀ b, b % 0x1000 = 0 → recordReg (shownReg inj b) = false ∧ counting (shownReg inj b) = false := fun b hb => by
    have := faultReg_apart (b := b) (o := if inj then 0xf04 else 0xf00) hb (by cases inj <;> decide)
    cases inj <;> simpa [shownReg, R.FLT_INJ, R.FLT_REAL] using this
  have hword₂ : ∀ b k, b % 0x1000 = 0 →
      (t₂.rget (shownReg inj b)).getLsbD k = ((s.rget (shownReg inj b)).getLsbD k || l.contains (b, k)) := fun b k hb => by
    obtain ⟨hrec, hcnt⟩ := hshown b hb
    rw [hrecord.rget hrec hcnt]
    exact hword b k hb
  have hlost : s.faultSet 0x80000 1 false = false → t₂.faultSet 0x80000 1 false = true → (0x80000, 1) ∈ l := fun hno hyes => by
    cases inj with
    | false =>
      have hbit : t₂.faultSet 0x80000 1 false = (s.faultSet 0x80000 1 false || l.contains (0x80000, 1)) := hword₂ 0x80000 1 (by decide)
      rw [hno, hyes] at hbit
      simpa using hbit.symm
    | true =>
      have hother : raisesReg true l (R.FLT_REAL 0x80000) = false := by
        refine Bool.or_eq_false_iff.2 ⟨List.any_eq_false.2 fun e he => ?_, by decide⟩
        have := sourceReg_shownReg_other (inj := false) (inj' := true) (b := 0x80000) (by decide) (hl e he).1 (.inr (by decide))
        simpa [shownReg] using this
      have hbit : t₂.faultSet 0x80000 1 false = s.faultSet 0x80000 1 false :=
        congrArg (BitVec.getLsbD · 1) (hlogs.rget hother (by decide))
      rw [hno, hyes] at hbit
      cases hbit
  clear_value t₂
  have hmild : ∀ e ∈ new ++ (if !s.faultSet 0x80000 1 false && t₂.faultSet 0x80000 1 false && !new.contains (0x80000, 1) then
      [(0x80000, 1)] else []), t₂.actionOf e < 3 := fun e he => by
    have he : e ∈ l := by
      rcases List.mem_append.1 he with he | he
      · exact (List.mem_filter.1 he).1
      · split at he
        · next hc =>
          simp only [Bool.and_eq_true, Bool.not_eq_true'] at hc
          obtain ⟨⟨hbefore, hbehind⟩, -⟩ := hc
          exact (List.mem_singleton.1 he) ▸ hlost hbefore hbehind
        · cases he
    rw [hlogs.actionOf hl (hl e he)]
    exact hact e he
  obtain ⟨m, hm⟩ := State.faultActs_items hmild
  rw [hm]
  refine ⟨hlogs.trans ⟨rfl, fun _ _ => rfl⟩, fun e he => ?_⟩
  refine (hword₂ e.1 e.2 (hl e he).1).trans ?_
  simp [he]

/-- Without an action that resets a block, sources only set. -/
theorem State.raises_eq_faultRaises {l : List (Nat × Nat)} {inj : Bool} (hact : ∀ e ∈ l, s.actionOf e < 3) :
    s.raises l inj = s.faultRaises l inj := by
  have hacts : ∀ e ∈ s.strongest (l.filter (s.faultNew inj)), s.actionOf e < 3 := fun e he =>
    hact e (List.mem_filter.1 (State.mem_strongest he)).1
  have hresets : (s.strongest (l.filter (s.faultNew inj))).filter (fun e => s.actionOf e == 3) = [] :=
    List.filter_eq_nil_iff.2 fun e he => by have := hacts e he; simp; omega
  unfold State.raises
  extract_lets acts resets
  have : resets = [] := by
    change (if _ then _ else _) = _
    split
    · rfl
    · exact hresets
  rw [this, List.foldl_nil]

theorem State.raises_spec {l : List (Nat × Nat)} {inj : Bool} (hl : ∀ e ∈ l, IsSource e) (hroom : s.staged.length + l.length ≤ 128)
    (hact : ∀ e ∈ l, s.actionOf e < 3) :
    Logs (raisesReg inj l) s (s.raises l inj) ∧ ∀ e ∈ l, ((s.raises l inj).rget (shownReg inj e.1)).getLsbD e.2 = true := by
  rw [State.raises_eq_faultRaises hact]
  exact State.faultRaises_spec hl hroom hact

/-- One source, real or injected. -/
theorem State.raise_logs {b src : Nat} (hb : b % 0x1000 = 0) (hsrc : src < 32) (hroom : s.staged.length < 128)
    (hact : s.nibble b src % 8 < 3) (inj : Bool) :
    Logs (raisesReg inj [(b, src)]) s (s.raise b src inj) ∧ ((s.raise b src inj).rget (shownReg inj b)).getLsbD src = true := by
  have hone : ∀ {p : Nat × Nat → Prop}, p (b, src) → ∀ e ∈ [(b, src)], p e := fun hp e he => by rwa [List.mem_singleton.1 he]
  unfold State.raise
  obtain ⟨hlogs, hbits⟩ := State.raises_spec (s := s) (inj := inj) (l := [(b, src)]) (hone ⟨hb, hsrc⟩)
    (by rw [List.length_singleton]; omega) (hone hact)
  exact ⟨hlogs, hbits (b, src) List.mem_cons_self⟩

/-- A real one changes no more than the rules of a single source say. -/
theorem State.raise_spec {b src : Nat} (hb : b % 0x1000 = 0) (hsrc : src < 32) (hroom : s.staged.length < 128)
    (hact : s.nibble b src % 8 < 3) :
    Logs (raiseReg b) s (s.raise b src) ∧ ((s.raise b src).rget (R.FLT_REAL b)).getLsbD src = true := by
  obtain ⟨hlogs, hbit⟩ := State.raise_logs hb hsrc hroom hact false
  refine ⟨hlogs.mono fun a ha => ?_, hbit⟩
  rcases raisesReg_flt ha with ⟨e, he, hflt⟩ | hrec
  · rw [List.mem_singleton.1 he] at hflt
    simp [raiseReg, hflt]
  · simp [raiseReg, hrec]

theorem Mild.raise {b src : Nat} (h : Mild s b src) (hb : b % 0x1000 = 0) (hsrc : src < 32) :
    Logs (raiseReg b) s (s.raise b src) ∧ ((s.raise b src).rget (R.FLT_REAL b)).getLsbD src = true := by
  obtain ⟨hroom, hact⟩ := h
  exact State.raise_spec hb hsrc (by omega) hact

/-- What a source of a block changes, as the obligations frame it. -/
theorem raiseReg_inBlock {b a : Nat} (h : raiseReg b a = true) : inBlock b a = true ∨ recordReg a = true := by
  rcases Bool.or_eq_true_iff.1 h with h | h
  · refine .inl (decide_eq_true ?_)
    have := of_decide_eq_true h
    omega
  · exact .inr h

end Sys2Proof.Machine
end

section
/-! SUPPORT. The peripheral master port (19_management_ports.md R444 to R450). -/

namespace Sys2Proof.Machine

variable {s₀ s t : State}

theorem RegsOnly.pp {p : Nat → Bool} (h : RegsOnly p s t) : t.pp = s.pp := (congrArg State.pp h.same :)
theorem RegsOnly.memSame {p : Nat → Bool} (h : RegsOnly p s t) : MemSame s t := .of_mem h.mem

/-- PP_STAT follows the queue, the receive FIFO and the select. -/
theorem State.syncPp_regsOnly (s : State) : RegsOnly (fun a => a == R.PP_STAT) s s.syncPp :=
  (((RegsOnly.refl s).fset (f := R.PP_STAT_QCOUNT) rfl _).fset (f := R.PP_STAT_RXCOUNT) rfl _).fset (f := R.PP_STAT_ACTIVE) rfl _

theorem State.syncPp_qcount (s : State) : s.syncPp.fget R.PP_STAT_QCOUNT = s.pp.queue.length % 128 := by
  unfold State.syncPp State.setFlag
  rw [State.fget_fset_disjoint _ _ (by decide) (by decide) (by decide), State.fget_fset_disjoint _ _ (by decide) (by decide) (by decide)]
  exact State.fget_fset_same _ _ (by decide) (by decide)

theorem State.syncPp_rxcount (s : State) : s.syncPp.fget R.PP_STAT_RXCOUNT = s.pp.rx.length % 128 := by
  unfold State.syncPp State.setFlag
  rw [State.fget_fset_disjoint _ _ (by decide) (by decide) (by decide)]
  exact State.fget_fset_same _ _ (by decide) (by decide)

/-- The port's state changes, and PP_STAT follows. -/
def State.portSet (s : State) (p : Pp) : State := ({ s with pp := p } : State).syncPp

theorem State.portSet_regsOnly (s : State) (p : Pp) : RegsOnly (fun a => a == R.PP_STAT) { s with pp := p } (s.portSet p) :=
  State.syncPp_regsOnly { s with pp := p }

theorem State.portSet_pp (s : State) (p : Pp) : (s.portSet p).pp = p := (s.portSet_regsOnly p).pp
theorem State.portSet_regs (s : State) (p : Pp) : RegsSame (fun a => a == R.PP_STAT) s (s.portSet p) := (s.portSet_regsOnly p).regs
theorem State.portSet_mem (s : State) (p : Pp) : MemSame s (s.portSet p) := .of_mem (s.portSet_regsOnly p).mem
theorem State.portSet_qcount (s : State) (p : Pp) : (s.portSet p).fget R.PP_STAT_QCOUNT = p.queue.length % 128 := State.syncPp_qcount _
theorem State.portSet_rxcount (s : State) (p : Pp) : (s.portSet p).fget R.PP_STAT_RXCOUNT = p.rx.length % 128 := State.syncPp_rxcount _

/-- A push that the queue has room for. -/
theorem State.ppPush_room {v : Word} (h : s.pp.queue.length < 64) :
    ∃ p : Pp, s.ppPush v = s.portSet p ∧ p.queue = s.pp.queue ++ [(v, s.rget R.PP_TXDATA)] :=
  ⟨_, if_neg (by omega), rfl⟩

/-- A word that is popped. -/
theorem State.rxPop_cons {w : Word} {l : List Word} (h : s.pp.rx = w :: l) : ∃ p : Pp, s.rxPop = s.portSet p ∧ p.rx = l := by
  unfold State.rxPop
  rw [h]
  exact ⟨_, rfl, rfl⟩

theorem State.ppEmpty_portSet (s : State) : ∃ p : Pp, s.ppEmpty = s.portSet p ∧ p.queue = [] ∧ p.rx = [] ∧ p.held = none :=
  ⟨_, rfl, rfl, rfl, rfl⟩

theorem State.pushRefused_room {v : Word} (h : s.pushRefused v = none) : s.pp.queue.length < 64 := by
  unfold State.pushRefused at h
  split at h
  · cases h
  · omega

/-- An out entry that meets no held select leaves the queue. -/
theorem State.ppEntry_out {c d x : Word} (hheld : s.pp.held = none) (hdir : c.getLsbD 8 = false) :
    ∃ p : Pp, s.ppEntry c d x = s.portSet p ∧ p.queue = s.pp.queue.drop 1 ∧ p.rx = s.pp.rx ∧
      p.out = s.pp.out ++ [(field c 14 12, field c 5 0, d.toNat % 2 ^ field c 5 0)] := by
  simp only [State.ppEntry, hheld, hdir, Option.isSome_none, Bool.false_and, Bool.false_eq_true, if_false]
  exact ⟨_, rfl, rfl, rfl, rfl⟩

/-- An in entry, with its sampled bits. -/
theorem State.ppEntry_in {c d x : Word} (hheld : s.pp.held = none) (hdir : c.getLsbD 8 = true) :
    ∃ p : Pp, s.ppEntry c d x = s.portSet p ∧ p.queue = s.pp.queue.drop 1 ∧ p.out = s.pp.out ∧
      p.rx = s.pp.rx ++ [BitVec.ofNat 32 (x.toNat % 2 ^ field c 5 0)] := by
  simp only [State.ppEntry, hheld, hdir, Option.isSome_none, Bool.false_and, Bool.false_eq_true, if_false, if_true]
  exact ⟨_, rfl, rfl, rfl, rfl⟩

/-- A held select that is let go, with its fault record. -/
theorem State.contBreak_spec (h : Mild s 0x90000 2) :
    s.contBreak.pp.held = none ∧ s.contBreak.flag R.PP_STAT_CONTBRK = true ∧ (s.contBreak.rget (R.FLT_REAL 0x90000)).getLsbD 2 = true ∧
      MemSame s s.contBreak := by
  have heq : s.contBreak = ((s.portSet { s.pp with held := none }).setFlag R.PP_STAT_CONTBRK true).raise 0x90000 2 := rfl
  have hbrk := (s.portSet_regsOnly { s.pp with held := none }).fset (f := R.PP_STAT_CONTBRK) rfl 1
  have hflag := State.flag_setFlag_same (s.portSet { s.pp with held := none }) (f := R.PP_STAT_CONTBRK) true (by decide) (by decide)
  have hmild := h.congr (t := (s.portSet { s.pp with held := none }).setFlag R.PP_STAT_CONTBRK true)
    (congrArg State.staged hbrk.same :) (hbrk.regs _ (by decide))
  obtain ⟨hlogs, hbit⟩ := hmild.raise (by decide) (by decide)
  rw [heq]
  refine ⟨(congrArg (fun x : State => x.pp.held) hlogs.same :).trans (congrArg Pp.held hbrk.pp), ?_, hbit,
    .of_mem (hlogs.mem.trans hbrk.mem)⟩
  exact (State.flag_congr (hlogs.rget (a := 0x90104) (by decide) (by decide))).trans hflag

end Sys2Proof.Machine
end

section
/-! SUPPORT. The operations of the peripheral master port, and the port as a whole (19_management_ports.md R444 to R450). -/

namespace Sys2Proof.Machine

variable {s t : State}

/-- A transfer that may begin and ends well. -/
theorem doInternalTransfer_ok {op : FlashOp} {busy : Bool} (hheld : s.pp.held = none) (hscan : s.bscan = false)
    (hfree : flashWrites op = false ∨ busy = false) : doInternalTransfer op true busy s = s.flashRun op := by
  rcases hfree with h | h <;> simp [doInternalTransfer, hheld, hscan, h]

/-- One that fails raises source 3. -/
theorem doInternalTransfer_fail {op : FlashOp} {busy : Bool} (hheld : s.pp.held = none) (hscan : s.bscan = false)
    (hfree : flashWrites op = false ∨ busy = false) : doInternalTransfer op false busy s = (s.flashRun op).raise 0x90000 3 := by
  rcases hfree with h | h <;> simp [doInternalTransfer, hheld, hscan, h]

/-- Settles O59. -/
theorem peripheralPort : Obligations.PeripheralPort := by
  unfold Obligations.PeripheralPort
  refine ⟨fun v s => ⟨fun st href => ?_, fun hok => ?_⟩, fun x c d l s hq hscan hheld => ?_, fun x s hnone => ?_,
    fun s => ⟨fun hrx => ?_, fun w l hrx => ?_⟩, fun s => ?_, fun s => ⟨fun hheld hq hmild => ?_, fun h => ?_⟩,
    fun op busy s => ⟨fun ok h => ?_, fun ok hheld hscan hw hb => ?_, fun hheld hscan hfree => ?_, fun hheld hscan hfree hmild => ?_⟩⟩
  · exact ⟨s.answered st, congrArg Host.Outcome.next (s.writeRow_refused href _), rfl, rfl, fun _ _ => rfl, .of_mem rfl⟩
  · have heq : exec (.ppTxctlPush v) s = .next ((s.ppPush v).answered St.ok) := congrArg Host.Outcome.next (s.writeRow_done hok _)
    have hroom := State.pushRefused_room hok
    obtain ⟨p, hp, hqueue⟩ := State.ppPush_room (v := v) hroom
    rw [heq, hp]
    refine ⟨_, rfl, rfl, (congrArg Pp.queue (s.portSet_pp p)).trans hqueue, (s.portSet_qcount p).trans ?_, s.portSet_regs p, s.portSet_mem p⟩
    rw [hqueue, List.length_append, List.length_singleton]
    omega
  · have hdrop : s.pp.queue.drop 1 = l := by rw [hq]; rfl
    have hexec : (c.getLsbD 8 = true → s.pp.rx.length < 64) → exec (.ppEntryExecute x) s = .next (s.ppEntry c d x) := fun h => by
      refine congrArg Host.Outcome.next ?_
      unfold doPpEntryExecute
      rw [hq]
      refine if_neg ?_
      rw [hscan]
      simpa using h
    refine ⟨fun hdir => ?_, fun hdir hroom => ?_, fun hdir hfull => ?_⟩
    · obtain ⟨p, heq, hqueue, hrx, hout⟩ := State.ppEntry_out (d := d) (x := x) hheld hdir
      rw [hexec (by rw [hdir]; exact nofun), heq]
      exact ⟨_, rfl, by rw [s.portSet_pp, hqueue, hdrop], by rw [s.portSet_pp, hrx], by rw [s.portSet_pp, hout],
        s.portSet_regs p, s.portSet_mem p⟩
    · obtain ⟨p, heq, hqueue, hout, hrx⟩ := State.ppEntry_in (d := d) (x := x) hheld hdir
      rw [hexec fun _ => hroom, heq]
      exact ⟨_, rfl, by rw [s.portSet_pp, hqueue, hdrop], by rw [s.portSet_pp, hout], by rw [s.portSet_pp, hrx],
        s.portSet_regs p, s.portSet_mem p⟩
    · refine congrArg Host.Outcome.next ?_
      simp [doPpEntryExecute, hq, hdir, hfull]
  · refine congrArg Host.Outcome.next ?_
    unfold doPpEntryExecute
    split
    · rfl
    · next e l hq =>
      have hscan : s.bscan = true := hnone.resolve_left (by simp [hq])
      simp [hscan]
  · have heq : doPpRxdataRead s = s.setFlag R.PP_STAT_RXUNF true := by simp [doPpRxdataRead, State.rxPop, hrx]
    refine ⟨_, congrArg Host.Outcome.next heq, State.flag_setFlag_same _ _ (by decide) (by decide), rfl, ?_, .of_mem rfl⟩
    exact ((RegsOnly.refl s).fset (f := R.PP_STAT_RXUNF) (p := fun a => a == R.PP_STAT) rfl _).regs
  · obtain ⟨p, hp, hl⟩ := State.rxPop_cons hrx
    refine ⟨_, congrArg Host.Outcome.next hp, (congrArg Pp.rx (s.portSet_pp p)).trans hl, (s.portSet_rxcount p).trans ?_,
      s.portSet_regs p, s.portSet_mem p⟩
    rw [hl]
  · obtain ⟨p, hp, hqueue, hrx, hheld⟩ := s.ppEmpty_portSet
    have hexec : exec .ppFlush s = .next (s.ppEmpty.answered St.ok) := rfl
    rw [hexec, hp]
    refine ⟨_, rfl, rfl, (congrArg Pp.queue (s.portSet_pp p)).trans hqueue, (congrArg Pp.rx (s.portSet_pp p)).trans hrx,
      (congrArg Pp.held (s.portSet_pp p)).trans hheld, (s.portSet_qcount p).trans ?_, s.portSet_regs p, s.portSet_mem p⟩
    rw [hqueue]
    rfl
  · have heq : doPpContTimeout s = s.contBreak := by simp [doPpContTimeout, hq, Option.isSome_iff_ne_none.2 hheld]
    exact ⟨_, congrArg Host.Outcome.next heq, State.contBreak_spec hmild⟩
  · refine congrArg Host.Outcome.next ?_
    rcases h with h | h <;> simp [doPpContTimeout, h]
  · refine congrArg Host.Outcome.next ?_
    rcases h with h | h
    · simp [doInternalTransfer, Option.isSome_iff_ne_none.2 h]
    · simp [doInternalTransfer, h]
  · have heq : doInternalTransfer op ok busy s = { s with pp := { s.pp with flash := s.pp.flash ++ [{ opcode := 0x05, reads := 1 }] } } := by
      simp [doInternalTransfer, hheld, hscan, hw, hb]
    exact ⟨_, congrArg Host.Outcome.next heq, rfl, fun _ _ => rfl, .of_mem rfl⟩
  · exact ⟨_, congrArg Host.Outcome.next (doInternalTransfer_ok hheld hscan hfree), rfl, rfl, fun _ _ => rfl, .of_mem rfl⟩
  · obtain ⟨hlogs, hbit⟩ := Mild.raise (s := s.flashRun op) (b := 0x90000) (src := 3) (hmild.congr rfl rfl) (by decide) (by decide)
    refine ⟨_, congrArg Host.Outcome.next (doInternalTransfer_fail hheld hscan hfree), hbit, .of_mem hlogs.mem, hlogs.regs.mono fun a ha => ?_⟩
    rcases Bool.or_eq_true_iff.1 ha with ha | ha
    · rcases raiseReg_inBlock ha with h | h <;> simp [h]
    · simp [ha]

end Sys2Proof.Machine
end

section
/-! SUPPORT. A READ of the Veing port whose word changes with the read: TDC_TRUNC counts the stop windows that have opened by then
(07_time_measurement.md R175; 19_management_ports.md R441). -/

namespace Sys2Proof.Machine

/-- A READ of TDC_TRUNC waits for the routine boundary, and a stop window of channel 0 whose opening was moved is due and not yet opened. -/
def truncRead : State :=
  { State.reset.rset R.VG_VA (BitVec.ofNat 32 (R.TDC_TRUNC 0)) with
    veing := { cmd := some (5, 3, 0) }
    chans := [(0, { wins := [{ cyc := 0, r := 0, w := 0, opens := 0, closes := 10, moved := true }] })] }

/-- The access is not refused. -/
theorem truncRead_allowed : truncRead.portRefused { ctx := 32, priv := truncRead.portPriv } (truncRead.rget R.VG_VA).toNat none = none := by
  decide +kernel

/-- The response carries 1, the count behind the window that has opened, not the 0 that the register held before. -/
theorem truncRead_response : (doVeingBoundaryAccess truncRead).veing.resp ≠ truncRead.sealVeing (BitVec.ofNat 32
    (0 * 2 ^ 28 + (3 : BitVec 4).toNat * 2 ^ 24 +
      field (truncRead.readValue 32 (aliasOf (truncRead.rget R.VG_VA).toNat).1) 15 0 % 65536 * 256)) := by
  decide +kernel

/-- Refutes O58: its last clause gives a READ the word as it stood before the access, but a READ of TDC_TRUNC first opens the stop windows that are
due, and returns the count with them (R175). -/
theorem not_veingCommands : ¬ Obligations.VeingCommands := by
  unfold Obligations.VeingCommands
  intro h
  obtain ⟨-, -, -, -, -, -, -, -, -, -, -, -, -, -, -, hread⟩ := h truncRead
  obtain ⟨t, ht, ⟨-, -, hresp, -⟩, -⟩ := hread 3 0 rfl truncRead_allowed
  cases ht
  exact truncRead_response hresp

end Sys2Proof.Machine
end

section
/-! SUPPORT. What events, records and faults leave as it is, taken together. -/

namespace Sys2Proof.Machine

variable {p q : Nat → Bool} {s₀ s t : State}

/-- Registers that `p` names, and whatever an event to the sessions, a record of the moraine or a fault source changes besides. -/
structure Notes (p : Nat → Bool) (s t : State) : Prop where
  same : { t with regs := s.regs, splits := s.splits, ctxs := s.ctxs, txq := s.txq, evc := s.evc, items := s.items, freeCtr := s.freeCtr,
                  maxLen := s.maxLen, maxClk := s.maxClk, micro := s.micro, mrn := s.mrn, staged := s.staged,
                  faultMarks := s.faultMarks } = s
  regs : RegsSame (fun a => p a || counting a || sessReg a || recordReg a) s t

namespace Notes

theorem refl (s : State) : Notes p s s := ⟨rfl, fun _ _ => rfl⟩

theorem trans (h : Notes p s₀ s) (k : Notes p s t) : Notes p s₀ t := by
  refine ⟨?_, h.regs.trans k.regs⟩
  exact (congrArg (fun x : State =>
    ({ x with regs := s₀.regs, splits := s₀.splits, ctxs := s₀.ctxs, txq := s₀.txq, evc := s₀.evc, items := s₀.items,
              freeCtr := s₀.freeCtr, maxLen := s₀.maxLen, maxClk := s₀.maxClk, micro := s₀.micro, mrn := s₀.mrn, staged := s₀.staged,
              faultMarks := s₀.faultMarks } : State)) k.same).trans h.same

theorem mono (h : Notes p s t) (hpq : ∀ a, p a = true → q a = true) : Notes q s t :=
  ⟨h.same, h.regs.mono fun a ha => by
    simp only [Bool.or_eq_true] at ha ⊢
    exact ha.imp_left fun ha => ha.imp_left fun ha => ha.imp_left (hpq a)⟩

theorem of_logs (h : Logs q s t) (hq : ∀ a, q a = true → (p a || counting a || sessReg a || recordReg a) = true) : Notes p s t := by
  refine ⟨?_, h.regs.mono fun a ha => ?_⟩
  · have hsplits : t.splits = s.splits := (congrArg State.splits h.same :)
    have hctxs : t.ctxs = s.ctxs := (congrArg State.ctxs h.same :)
    have htxq : t.txq = s.txq := (congrArg State.txq h.same :)
    rw [← hsplits, ← hctxs, ← htxq]
    exact h.same
  · rcases Bool.or_eq_true_iff.1 ha with ha | ha
    · exact hq a ha
    · simp [ha]

theorem of_reports (h : Reports p s t) : Notes p s t := by
  refine ⟨?_, h.regs.mono fun a ha => by rw [ha]; rfl⟩
  have hmrn : t.mrn = s.mrn := (congrArg State.mrn h.same :)
  have hstaged : t.staged = s.staged := (congrArg State.staged h.same :)
  have hmarks : t.faultMarks = s.faultMarks := (congrArg State.faultMarks h.same :)
  rw [← hmrn, ← hstaged, ← hmarks]
  exact h.same

theorem of_regsOnly (h : RegsOnly p s t) : Notes p s t := .of_reports (.of_regsOnly h)
theorem of_counts (h : Counts s t) : Notes p s t := .of_reports (.of_counts h)

theorem rset (h : Notes p s₀ s) {a : Nat} (ha : p a = true) (v : Word) : Notes p s₀ (s.rset a v) :=
  h.trans (.of_regsOnly ⟨rfl, RegsSame.rset s ha v⟩)

theorem fset (h : Notes p s₀ s) {f : Fld} (hf : p f.addr = true) (v : Nat) : Notes p s₀ (s.fset f v) := h.rset hf _

theorem mem (h : Notes p s t) : t.mem = s.mem := (congrArg State.mem h.same :)
theorem tiles (h : Notes p s t) : t.tiles = s.tiles := (congrArg State.tiles h.same :)
theorem links (h : Notes p s t) : t.links = s.links := (congrArg State.links h.same :)

/-- A register that nothing here names is unchanged. -/
theorem rget (h : Notes p s t) {a : Nat} (ha : (p a || counting a || sessReg a || recordReg a) = false) : t.rget a = s.rget a := h.regs a ha

end Notes

/-- A source of a block, within what `p` names of the block. -/
theorem Notes.of_raise {b : Nat} (h : Logs (raiseReg b) s t) (hp : ∀ a, inBlock b a = true → p a = true) : Notes p s t :=
  .of_logs h fun a ha => by
    rcases raiseReg_inBlock ha with h | h
    · simp [hp a h]
    · simp [h]

end Sys2Proof.Machine
end

section
/-! SUPPORT. Supply excursions and what they make suspect (17_power_thermal.md R411 to R413). -/

namespace Sys2Proof.Machine

variable {s₀ s t : State}

/-- What marking something as suspect leaves: the registers of the chip, the excursions, the records that a tile has in reach, and, where there
are none, memory. -/
structure Suspects (s t : State) : Prop where
  excursions : t.excursions = s.excursions
  caps : ∀ u, (t.tile u).cap = (s.tile u).cap
  regs : RegsSame (fun a => decide (0x100000 ≤ a)) s t
  mem : (∀ u, u < 64 → (s.tile u).cap.recent = []) → t.mem = s.mem

namespace Suspects

theorem refl (s : State) : Suspects s s := ⟨rfl, fun _ => rfl, fun _ _ => rfl, fun _ => rfl⟩

theorem trans (h : Suspects s₀ s) (k : Suspects s t) : Suspects s₀ t :=
  ⟨k.excursions.trans h.excursions, fun u => (k.caps u).trans (h.caps u), h.regs.trans k.regs,
    fun he => (k.mem fun u hu => by rw [h.caps u]; exact he u hu).trans (h.mem he)⟩

theorem foldl {f : State → Nat → State} {l : List Nat} (hf : ∀ s, ∀ u ∈ l, Suspects s (f s u)) (s : State) : Suspects s (l.foldl f s) :=
  List.foldlRecOn (motive := Suspects s) _ _ (.refl s) fun _ hr u hu => hr.trans (hf _ u hu)

theorem setFlag (s : State) {f : Fld} (hf : 0x100000 ≤ f.addr) (b : Bool) : Suspects s (s.setFlag f b) :=
  ⟨rfl, fun _ => rfl, RegsSame.rset s (decide_eq_true hf) _, fun _ => rfl⟩

end Suspects

theorem State.suspectFlag_suspects (s : State) (u n : Nat) : Suspects s (s.suspectFlag u n) := by
  refine ⟨rfl, fun v => ?_, fun _ _ => rfl, fun _ => rfl⟩
  rw [State.suspectFlag, State.tile_modTile]
  split
  · next h => rw [h]
  · rfl

/-- Records in reach are marked in memory; with none in reach nothing is. -/
theorem State.suspectRing_suspects (s : State) {u : Nat} (hu : u < 64) (i : Int) : Suspects s (s.suspectRing u i) := by
  unfold State.suspectRing
  refine ⟨?_, fun v => congrArg TileCtx.cap (State.tile_congr ?_ v), fun a _ => State.rget_congr ?_ a, fun h => ?_⟩
  · exact List.foldlRecOn (motive := fun r : State => r.excursions = s.excursions) _ _ rfl fun r hr _ _ => (State.mwrite_excursions ..).trans hr
  · exact List.foldlRecOn (motive := fun r : State => r.tiles = s.tiles) _ _ rfl fun r hr _ _ => (State.mwrite_tiles ..).trans hr
  · exact List.foldlRecOn (motive := fun r : State => r.regs = s.regs) _ _ rfl fun r hr _ _ => (State.mwrite_regs ..).trans hr
  · rw [h u hu]
    rfl

theorem State.suspectSince_suspects (s : State) {u : Nat} (hu : u < 64) (i : Int) : Suspects s (s.suspectSince u i) := by
  unfold State.suspectSince
  extract_lets s₁
  refine (s.suspectRing_suspects hu _).trans (.foldl (fun r ch _ => ?_) s₁)
  extract_lets r₁
  have hstat : Suspects r r₁ := .setFlag r (by simp [R.TDC_STAT_SUSPECT, R.TDC_STAT]; omega) true
  split
  · exact hstat.trans (.setFlag _ (by simp [R.PROF_STATUS_SUSPECT, R.PROF_STATUS]; omega) true)
  · exact hstat

/-- SUP_STATUS.WINDOW follows the intervals. -/
theorem State.syncWindow_regsOnly (s : State) : RegsOnly (fun a => a == R.SUP_STATUS) s s.syncWindow := by
  unfold State.syncWindow
  extract_lets v
  split
  · exact .refl s
  · exact (RegsOnly.refl s).fset (f := R.SUP_STATUS_WINDOW) rfl _

/-- A bit of a field is a bit of its register. -/
theorem State.testBit_fget (s : State) (f : Fld) (i : Nat) :
    (s.fget f).testBit i = (decide (i < f.hi - f.lo + 1) && (s.rget f.addr).getLsbD (f.lo + i)) := by
  simp [State.fget, field, Nat.testBit_mod_two_pow, Nat.testBit_div_two_pow, BitVec.getLsbD, Nat.add_comm]

/-- The mask of two different bits. -/
theorem getLsbD_two_bits {r k : Nat} (hr : r < 8) : (BitVec.ofNat 32 (2 ^ r + 2 ^ (8 + r))).getLsbD k = decide (k = r ∨ k = 8 + r) := by
  by_cases hk : k < 32
  · interval_cases r <;> interval_cases k <;> decide
  · rw [BitVec.getLsbD_of_ge _ _ (by omega)]
    exact (decide_eq_false (by omega)).symm

/-- An excursion that begins. -/
theorem State.supplyBegin_spec {s : State} {r : Fin 8} (hnone : s.excursion r = none) (hmon : s.monitored r = true)
    (hcount : s.fget R.SUP_EXC_COUNT < 2 ^ 32 - 1) :
    let t := doSupplyExcursionBegin r s
    ((∀ u, u < 64 → (s.tile u).cap.recent = []) → MemSame s t) ∧ t.excursion r = some s.now ∧
      t.fget R.SUP_EXC_COUNT = s.fget R.SUP_EXC_COUNT + 1 ∧ (t.fget R.SUP_STATUS_OUT).testBit r = true ∧
      (t.fget R.SUP_STATUS_SEEN).testBit r = true := by
  dsimp only
  unfold doSupplyExcursionBegin
  extract_lets r' b s₁ s₂ late s₃ s₄
  rw [if_neg (by rw [hnone, hmon]; simp)]
  have h₁ : RegsOnly (fun a => a == R.SUP_STATUS) { s with excursions := Store.put (fun _ => none) s.excursions r' (some b) } s₁ :=
    State.syncWindow_regsOnly _
  have hexc₂ : s₂.excursion r = some s.now := by
    have : s₂.excursions = Store.put (fun _ => none) s.excursions r (some s.now) := (congrArg State.excursions h₁.same :)
    rw [State.excursion, this, Store.get_put_same]
  have hword : s₂.rget R.SUP_STATUS = s₁.rget R.SUP_STATUS ||| BitVec.ofNat 32 (2 ^ r.val + 2 ^ (8 + r.val)) := State.rget_rset_same ..
  have hcnt₂ : s₂.rget R.SUP_EXC = s.rget R.SUP_EXC := (State.rget_rset_other _ _ (by decide)).trans (h₁.regs _ (by decide))
  have hmem₂ : s₂.mem = s.mem := h₁.mem
  have htiles₂ : s₂.tiles = s.tiles := h₁.tiles
  clear_value s₂
  have h₃ : Suspects s₂ s₃ := .foldl (fun r u _ => r.suspectFlag_suspects u _) s₂
  have h₄ : Suspects s₂ s₄ := h₃.trans (.foldl (fun r u hu => r.suspectSince_suspects (List.mem_range.1 hu) _) s₃)
  clear_value s₃ s₄
  have h₅ : Suspects s₂ (s₄.suspectAll Sf.suspect) := h₄.trans (.foldl (fun r u _ => r.suspectFlag_suspects u _) s₄)
  generalize s₄.suspectAll Sf.suspect = s₅ at h₅
  have hev := State.evCount_counts (s₅.count R.SUP_EXC_COUNT) 82 1 none
  generalize (s₅.count R.SUP_EXC_COUNT).evCount 82 = t at hev
  have hstatus : t.rget R.SUP_STATUS = s₂.rget R.SUP_STATUS :=
    (hev.regs _ (by decide)).trans ((State.rget_fset_other _ _ (by decide)).trans (h₅.regs _ (by decide)))
  have hbits : ∀ k, k = r.val ∨ k = 8 + r.val → (t.rget R.SUP_STATUS).getLsbD k = true := fun k hk => by
    rw [hstatus, hword, BitVec.getLsbD_or, getLsbD_two_bits r.isLt, decide_eq_true hk, Bool.or_true]
  have hrail : r.val < 8 := r.isLt
  refine ⟨fun hrecent => ?_, ?_, ?_, ?_, ?_⟩
  · refine .of_mem (hev.mem.trans ((h₅.mem fun u hu => ?_).trans hmem₂))
    rw [State.tile_congr htiles₂]
    exact hrecent u hu
  · have : t.excursions = s₂.excursions := (congrArg State.excursions hev.same :).trans h₅.excursions
    rw [State.excursion, this]
    exact hexc₂
  · have hold : s₅.fget R.SUP_EXC_COUNT = s.fget R.SUP_EXC_COUNT := State.fget_congr ((h₅.regs _ (by decide)).trans hcnt₂)
    have hkeep : t.fget R.SUP_EXC_COUNT = (s₅.count R.SUP_EXC_COUNT).fget R.SUP_EXC_COUNT := State.fget_congr (hev.regs _ (by decide))
    rw [hkeep, State.count, State.fget_fset_same _ _ (by decide) (by decide), hold]
    show min _ (2 ^ 32 - 1) % 2 ^ 32 = _
    omega
  · rw [State.testBit_fget, show R.SUP_STATUS_OUT.lo + r.val = r.val from Nat.zero_add _]
    refine Bool.and_eq_true_iff.2 ⟨decide_eq_true ?_, hbits _ (.inl rfl)⟩
    exact hrail
  · rw [State.testBit_fget]
    refine Bool.and_eq_true_iff.2 ⟨decide_eq_true ?_, hbits _ (.inr rfl)⟩
    exact hrail

/-- What an excursion that ends shows, before its event and its fault. -/
def State.supplyEnded (s : State) (r : Nat) (b : Int) (ns : Word) : State :=
  let stop := s.supStop.contains r
  let s := { s with excursions := Store.put (fun _ => none) s.excursions r none
                    windows := s.windows ++ [(b - 1000 * nsFs, b + ns.toNat * nsFs + 10000 * nsFs)]
                    supStop := s.supStop.filter (· != r) }.syncWindow
  let s := s.rset R.SUP_STATUS (s.rget R.SUP_STATUS &&& ~~~(BitVec.ofNat 32 (2 ^ r)))
  let s := (s.setPair R.SUP_LAST_LO R.SUP_LAST_HI (sysOf b)).rset R.SUP_LAST_LEN ns
  s.rset R.SUP_LAST_INFO (BitVec.ofNat 32 (8 * stop.toNat + r))

theorem State.supplyEnded_spec (s : State) (r : Nat) (b : Int) (ns : Word) :
    let t := s.supplyEnded r b ns
    t.mem = s.mem ∧ t.staged = s.staged ∧ RegsSame (fun a => inBlock 0x70000 a && decide (a < 0x70100)) s t ∧ t.excursion r = none ∧
      (t.fget R.SUP_STATUS_OUT).testBit r = false ∧ t.rget R.SUP_LAST_LEN = ns := by
  dsimp only
  unfold State.supplyEnded
  extract_lets stop s₁ s₂ s₃
  have h₁ : RegsOnly (fun a => a == R.SUP_STATUS)
      { s with excursions := Store.put (fun _ => none) s.excursions r none
               windows := s.windows ++ [(b - 1000 * nsFs, b + ns.toNat * nsFs + 10000 * nsFs)]
               supStop := s.supStop.filter (· != r) } s₁ := State.syncWindow_regsOnly _
  have hmem : s₁.mem = s.mem := h₁.mem
  have hstaged : s₁.staged = s.staged := (congrArg State.staged h₁.same :)
  have hexc : s₁.excursions = Store.put (fun _ => none) s.excursions r none := (congrArg State.excursions h₁.same :)
  have hregs : RegsSame (fun a => a == R.SUP_STATUS) s s₁ := h₁.regs
  clear_value s₁
  have hword : s₂.rget R.SUP_STATUS = s₁.rget R.SUP_STATUS &&& ~~~(BitVec.ofNat 32 (2 ^ r)) := State.rget_rset_same ..
  have hregs₂ : RegsSame (fun a => inBlock 0x70000 a && decide (a < 0x70100)) s s₂ :=
    (hregs.mono fun a ha => by rw [beq_iff_eq.1 ha]; decide).trans (RegsSame.rset s₁ (by decide) _)
  have hmem₂ : s₂.mem = s.mem := hmem
  have hstaged₂ : s₂.staged = s.staged := hstaged
  have hexc₂ : s₂.excursions = Store.put (fun _ => none) s.excursions r none := hexc
  clear_value s₂
  refine ⟨hmem₂, hstaged₂, ?_, ?_, ?_, ?_⟩
  · exact ((((hregs₂.trans (RegsSame.rset s₂ (by decide) _)).trans (RegsSame.rset _ (by decide) _)).trans
      (RegsSame.rset _ (by decide) _)).trans (RegsSame.rset _ (by decide) _))
  · show Store.get _ s₂.excursions r = none
    rw [hexc₂, Store.get_put_same]
  · have hstatus : (s₃.rset R.SUP_LAST_INFO (BitVec.ofNat 32 (8 * stop.toNat + r))).rget R.SUP_STATUS = s₂.rget R.SUP_STATUS :=
      (State.rget_rset_other _ _ (by decide)).trans ((State.rget_rset_other _ _ (by decide)).trans
        ((State.rget_rset_other _ _ (by decide)).trans (State.rget_rset_other _ _ (by decide))))
    have hcleared : (s₂.rget R.SUP_STATUS).getLsbD r = false := by
      rw [hword, BitVec.getLsbD_and, BitVec.getLsbD_not, BitVec.getLsbD_ofNat, Nat.testBit_two_pow_self]
      simp
    rw [State.testBit_fget, show R.SUP_STATUS_OUT.addr = R.SUP_STATUS from rfl, hstatus,
      show R.SUP_STATUS_OUT.lo + r = r from Nat.zero_add _, hcleared, Bool.and_false]
  · exact (State.rget_rset_other _ _ (by decide)).trans (State.rget_rset_same ..)

/-- An excursion that ends: its registers, then its record, event and fault source. -/
theorem State.excursionEnd_spec {s : State} (r : Nat) (b : Int) (ns : Word) (hmild : Mild s 0x70000 3) :
    let t := s.excursionEnd r b ns
    t.excursion r = none ∧ (t.fget R.SUP_STATUS_OUT).testBit r = false ∧ t.rget R.SUP_LAST_LEN = ns ∧
      (t.rget (R.FLT_REAL 0x70000)).getLsbD 3 = true ∧ MemSame s t ∧
      RegsSame (fun a => inBlock 0x70000 a || counting a || sessReg a || recordReg a) s t := by
  obtain ⟨hroom, hact⟩ := hmild
  obtain ⟨hmem, hstaged, hregs, hexc, hout, hlen⟩ := s.supplyEnded_spec r b ns
  have heq : s.excursionEnd r b ns =
      (((s.supplyEnded r b ns).stage 0x31
        ([BitVec.ofNat 8 r, 0, 0, 0] ++ wordBytes ns ++ [BitVec.ofNat 8 (s.supStop.contains r).toNat]) true false
        (some (BitVec.ofNat 64 (sysOf b)))).chipEvent 0x204
          [BitVec.ofNat 32 r, ns, BitVec.ofNat 32 (s.supStop.contains r).toNat]).raise 0x70000 3 := rfl
  dsimp only
  rw [heq]
  generalize s.supplyEnded r b ns = u at hmem hstaged hregs hexc hout hlen
  obtain ⟨hstage, hlength⟩ := u.stage_logs (by rw [hstaged]; omega) 0x31
    ([BitVec.ofNat 8 r, 0, 0, 0] ++ wordBytes ns ++ [BitVec.ofNat 8 (s.supStop.contains r).toNat]) true false (some (BitVec.ofNat 64 (sysOf b)))
  generalize u.stage 0x31 _ true false _ = v at hstage hlength
  have hevent := State.chipEvent_reports (fun _ => false) v 0x204 [BitVec.ofNat 32 r, ns, BitVec.ofNat 32 (s.supStop.contains r).toNat]
  generalize v.chipEvent 0x204 _ = w at hevent
  have hnotes : Notes (fun _ => false) u w := (Notes.of_logs hstage fun a ha => by simp [ha]).trans (.of_reports hevent)
  have hreact : w.rget (R.FLT_REACT 0x70000 (3 / 8)) = s.rget (R.FLT_REACT 0x70000 (3 / 8)) :=
    (hnotes.rget (by decide)).trans (hregs _ (by decide))
  have hwstaged : w.staged = v.staged := (congrArg State.staged hevent.same :)
  obtain ⟨hraise, hbit⟩ := State.raise_spec (s := w) (b := 0x70000) (src := 3) (by decide) (by decide) (by rw [hwstaged, hlength, hstaged]; omega)
    (by rwa [State.nibble, hreact])
  generalize w.raise 0x70000 3 = t at hraise hbit
  have hall : Notes (inBlock 0x70000) u t := (hnotes.mono fun _ => nofun).trans (.of_raise hraise fun _ ha => ha)
  have hkeep : ∀ {a}, raiseReg 0x70000 a = false → (counting a || sessReg a || recordReg a) = false → t.rget a = u.rget a := fun hr ha =>
    (hraise.rget hr (by simp only [Bool.or_eq_false_iff] at ha; exact ha.1.1)).trans (hnotes.rget ha)
  refine ⟨?_, ?_, ?_, hbit, .of_mem (hall.mem.trans hmem), ?_⟩
  · have : t.excursions = u.excursions := (congrArg State.excursions hall.same :)
    rw [State.excursion, this]
    exact hexc
  · rwa [show t.fget R.SUP_STATUS_OUT = u.fget R.SUP_STATUS_OUT from State.fget_congr (hkeep (by decide) (by decide))]
  · exact (hkeep (by decide) (by decide)).trans hlen
  · refine (hregs.mono fun a ha => ?_).trans (hall.regs)
    rw [(Bool.and_eq_true_iff.1 ha).1]
    rfl

/-- A controlled stop with no step held raises source 4 and stops nothing. -/
theorem doControlledStop_spec {s : State} {r : Fin 8} {b : Int} (hexc : s.excursion r = some b) (hlong : s.longExcursion b = true)
    (hfirst : r.val ∉ s.supStop) (hstep : s.holdsStep = false) (hmild : Mild s 0x70000 4) :
    let t := doControlledStop r s
    r.val ∈ t.supStop ∧ (t.rget (R.FLT_REAL 0x70000)).getLsbD 4 = true ∧ MemSame s t ∧
      RegsSame (fun a => inBlock 0x70000 a || counting a || recordReg a) s t := by
  have hnone : ({ s with supStop := s.supStop ++ [r.val] } : State).tilesIn inStep = [] := by
    have : s.tilesIn inStep = [] := by simpa [State.holdsStep] using hstep
    exact this
  have heq : doControlledStop r s = ({ s with supStop := s.supStop ++ [r.val] } : State).raise 0x70000 4 := by
    unfold doControlledStop
    extract_lets r'
    rw [if_neg (by simp [r', hexc, hlong, hfirst])]
    unfold State.controlledStop
    rw [hnone]
    rfl
  obtain ⟨hraise, hbit⟩ := Mild.raise (s := { s with supStop := s.supStop ++ [r.val] }) (b := 0x70000) (src := 4)
    (hmild.congr rfl rfl) (by decide) (by decide)
  dsimp only
  rw [heq]
  refine ⟨?_, hbit, .of_mem hraise.mem, hraise.regs.mono fun a ha => ?_⟩
  · have : (({ s with supStop := s.supStop ++ [r.val] } : State).raise 0x70000 4).supStop = s.supStop ++ [r.val] :=
      (congrArg State.supStop hraise.same :)
    rw [this]
    exact List.mem_append_right _ (List.mem_singleton.2 rfl)
  · rcases Bool.or_eq_true_iff.1 ha with ha | ha
    · rcases raiseReg_inBlock ha with h | h <;> simp [h]
    · simp [ha]

/-- Settles O55. What is set when an excursion begins, and what when it ends, is the model's choice (log entry 40). -/
theorem suppliesWatched : Obligations.SuppliesWatched := by
  unfold Obligations.SuppliesWatched
  refine ⟨fun r s hnone hmon hcount => ⟨_, rfl, State.supplyBegin_spec hnone hmon hcount⟩, fun r s h => ?_, fun r ns s b hexc hmild => ?_,
    fun r b s hexc hshort => ?_, fun r b s hexc hlong hfirst hstep hmild => ⟨_, rfl, doControlledStop_spec hexc hlong hfirst hstep hmild⟩,
    fun r ns s hnone => ⟨?_, ?_⟩⟩
  · refine congrArg Host.Outcome.next (if_pos ?_)
    rcases h with h | h <;> simp [h]
  · have heq : doSupplyExcursionEnd r ns s = s.excursionEnd r b ns := by rw [doSupplyExcursionEnd, hexc]
    exact ⟨_, congrArg Host.Outcome.next heq, State.excursionEnd_spec r b ns hmild⟩
  · exact congrArg Host.Outcome.next (if_pos (by simp [hexc, hshort]))
  · exact congrArg Host.Outcome.next (by rw [doSupplyExcursionEnd, hnone])
  · exact congrArg Host.Outcome.next (if_pos (by simp [hnone]))

end Sys2Proof.Machine
end

section
/-! SUPPORT. Records enter the staging RAM, and the flags that the moraine shows beside their number stay (18_moraine_counters.md R419,
R420). -/

namespace Sys2Proof.Machine

variable {s₀ s t : State}

/-- Records have been added: what was staged still is, and of MRN_STATUS only STAGED follows. -/
structure Recorded (s t : State) : Prop where
  status : ∀ f : Fld, f.addr = R.MRN_STATUS → 7 < f.lo → f.lo ≤ f.hi → t.fget f = s.fget f
  staged : ∀ e ∈ s.staged, e ∈ t.staged

namespace Recorded

theorem refl (s : State) : Recorded s s := ⟨fun _ _ _ _ => rfl, fun _ => id⟩

theorem trans (h : Recorded s₀ s) (k : Recorded s t) : Recorded s₀ t :=
  ⟨fun f ha hlo hle => (k.status f ha hlo hle).trans (h.status f ha hlo hle), fun e he => k.staged e (h.staged e he)⟩

/-- Registers change, MRN_STATUS not among them. -/
theorem of_rget (hstatus : t.rget R.MRN_STATUS = s.rget R.MRN_STATUS) (hstaged : t.staged = s.staged) : Recorded s t :=
  ⟨fun f ha _ _ => State.fget_congr (by rw [ha]; exact hstatus), fun e he => hstaged ▸ he⟩

end Recorded

theorem State.stageOnly_recorded (s : State) (hroom : s.staged.length < 128) (code : Nat) (data : List Byte) (real inj : Bool)
    (time : Option (BitVec 64)) : Recorded s (s.stageOnly code data real inj time) := by
  unfold State.stageOnly State.oldest
  rw [if_pos hroom]
  extract_lets seq tv r mrn mrn' s₁
  have h₁ : Recorded s s₁ := ⟨fun _ _ _ _ => rfl, fun e he => List.mem_append_left _ he⟩
  clear_value s₁
  have h₂ : Recorded s₁ (s₁.fset R.MRN_SEQ_SEQ (seq + 1)) := .of_rget (State.rget_fset_other _ _ (by decide)) rfl
  have h₃ : ∀ r : State, Recorded r (r.fset R.MRN_STATUS_STAGED s₁.staged.length) := fun r =>
    ⟨fun f _ hlo hle => State.fget_fset_disjoint _ _ (.inr hlo) (by decide) hle, fun _ => id⟩
  have h₄ : ∀ (r : State) v, Recorded r (r.fset R.MRN_OLDEST_SEQ v) := fun r v => .of_rget (State.rget_fset_other _ _ (by decide)) rfl
  have h₅ : ∀ r : State, Recorded r (r.evCount 86) := fun r =>
    .of_rget ((State.evCount_counts r 86 1 none).regs _ (by decide)) (State.evCount_counts r 86 1 none).staged
  exact (((h₁.trans h₂).trans (h₃ _)).trans (h₄ _ _)).trans (h₅ _)

theorem State.faultRecord_recorded (s : State) (hroom : s.staged.length < 128) (b src : Nat) (inj : Bool) :
    Recorded s (s.faultRecord b src inj) := by
  unfold State.faultRecord
  split
  · split
    · split
      · exact ⟨fun _ _ _ _ => rfl, fun _ => id⟩
      · exact .refl s
    · exact .refl s
  · extract_lets mark marks
    have hmarks : Recorded s { s with faultMarks := marks ++ [mark] } := ⟨fun _ _ _ _ => rfl, fun _ => id⟩
    exact hmarks.trans (State.stageOnly_recorded { s with faultMarks := marks ++ [mark] } hroom ..)

/-- A fault source that sets adds its record. -/
theorem Mild.raise_recorded {b src : Nat} (h : Mild s b src) (hb : b % 0x1000 = 0) (hsrc : src < 32) : Recorded s (s.raise b src) := by
  obtain ⟨hroom, hact⟩ := h
  obtain ⟨hbits, hstaged, -⟩ := s.faultBits_logs b src false
  have hstatus : sourceReg false b R.MRN_STATUS = false := by
    simp [sourceReg, shownReg, R.FLT_REAL, R.FLT_COUNT, R.FLT_FIRST, R.MRN_STATUS]
    omega
  have hset : Recorded s (s.faultBits b src false) := .of_rget (hbits.rget hstatus (by decide)) hstaged
  have hlog : Recorded s (s.faultLog b src) := by
    unfold State.faultLog
    dsimp only
    split
    · exact hset
    · exact hset.trans (State.faultRecord_recorded _ (by rw [hstaged]; omega) ..)
  obtain ⟨-, hnibble, -⟩ := State.faultLog_spec (s := s) hb hsrc (by omega)
  obtain ⟨m, hm⟩ := State.faultActs_items (s := s.faultLog b src) (l := s.raised b src) fun e he => by
    rwa [State.mem_raised hb hsrc (by omega) he, State.actionOf, hnibble]
  have hone : ∀ e ∈ [(b, src)], s.actionOf e < 3 := fun e he => by rwa [List.mem_singleton.1 he]
  have heq : s.raise b src = { s.faultLog b src with items := (s.faultLog b src).items ++ m } := by
    rw [← hm, ← State.faultRaise_eq]
    exact State.raises_eq_faultRaises hone
  rw [heq]
  exact hlog.trans ⟨fun _ _ _ _ => rfl, fun _ => id⟩

theorem mem_insert_self {β : Type} (m : Store β) (k : Nat) (v : β) : (k, v) ∈ Store.insert m k v := by
  induction m with
  | nil => exact List.mem_singleton.2 rfl
  | cons x m ih =>
    unfold Store.insert
    split
    · exact List.mem_cons_self
    · exact List.mem_cons_of_mem _ ih

/-- The first number at 512 or above, where no other than `k` stands there. -/
theorem headD_numbers {m : Store (Option MrnRec)} {k : Nat} (hk : 512 ≤ k) (honly : ∀ e ∈ m, 512 ≤ e.1 → e.1 = k) (hin : ∃ e ∈ m, e.1 = k)
    (d : Nat) : ((m.filter fun e => decide (512 ≤ e.1)).map (·.1)).headD d = k := by
  obtain ⟨e, he, rfl⟩ := hin
  cases hl : m.filter fun e => decide (512 ≤ e.1) with
  | nil => exact absurd (List.filter_eq_nil_iff.1 hl e he) (by simpa using hk)
  | cons x l =>
    have hx : x ∈ m.filter fun e => decide (512 ≤ e.1) := by rw [hl]; exact List.mem_cons_self
    obtain ⟨hmem, hle⟩ := List.mem_filter.1 hx
    exact honly x hmem (of_decide_eq_true hle)

/-- A record takes the next number, and is the oldest that circulates where no other does. -/
theorem State.stageOnly_alone (s : State) (hroom : s.staged.length < 128) (hseq : 512 ≤ s.fget R.MRN_SEQ_SEQ)
    (hmax : s.fget R.MRN_SEQ_SEQ < 2 ^ 32 - 1) (hnone : ∀ e ∈ s.mrn, e.1 < 512) (code : Nat) (data : List Byte)
    (real inj : Bool) (time : Option (BitVec 64)) :
    (s.stageOnly code data real inj time).fget R.MRN_OLDEST_SEQ = s.fget R.MRN_SEQ_SEQ ∧
      (s.stageOnly code data real inj time).fget R.MRN_SEQ_SEQ = s.fget R.MRN_SEQ_SEQ + 1 := by
  unfold State.stageOnly State.oldest
  rw [if_pos hroom]
  extract_lets seq tv r mrn mrn' s₁
  have hput : ∀ e ∈ mrn, 512 ≤ e.1 → e.1 = seq := fun e he hle => by
    rcases Store.mem_insert he with rfl | he
    · rfl
    · exact absurd (hnone e (Store.mem_erase.1 he).1) (by omega)
  have hin : (seq, some r) ∈ mrn := mem_insert_self ..
  have hput' : ∀ e ∈ mrn', 512 ≤ e.1 → e.1 = seq := fun e he hle => by
    change e ∈ (if _ then _ else _) at he
    split at he
    · exact hput e (Store.mem_erase.1 he).1 hle
    · exact hput e he hle
  have hin' : ∃ e ∈ mrn', e.1 = seq := by
    refine ⟨(seq, some r), ?_, rfl⟩
    change _ ∈ (if _ then _ else _)
    split
    · exact Store.mem_erase.2 ⟨hin, by dsimp only; omega⟩
    · exact hin
  have hmrn : ((s₁.fset R.MRN_SEQ_SEQ (seq + 1)).fset R.MRN_STATUS_STAGED s₁.staged.length).mrn = mrn' := rfl
  have hseq₂ : ((s₁.fset R.MRN_SEQ_SEQ (seq + 1)).fset R.MRN_STATUS_STAGED s₁.staged.length).fget R.MRN_SEQ_SEQ = seq + 1 := by
    refine (State.fget_fset_addr _ _ (by decide)).trans ((State.fget_fset_same _ _ (by decide) (by decide)).trans (Nat.mod_eq_of_lt ?_))
    show seq + 1 < 2 ^ 32
    omega
  rw [hmrn, headD_numbers hseq hput' hin']
  generalize (s₁.fset R.MRN_SEQ_SEQ (seq + 1)).fset R.MRN_STATUS_STAGED s₁.staged.length = s₂ at hseq₂
  have hcount := State.evCount_counts (s₂.fset R.MRN_OLDEST_SEQ seq) 86 1 none
  refine ⟨(State.fget_congr (hcount.regs _ (by decide))).trans
    ((State.fget_fset_same _ _ (by decide) (by decide)).trans (Nat.mod_eq_of_lt ?_)), ?_⟩
  · show seq < 2 ^ 32
    omega
  · exact (State.fget_congr (hcount.regs _ (by decide))).trans ((State.fget_fset_addr _ _ (by decide)).trans hseq₂)

end Sys2Proof.Machine
end

section
/-! SUPPORT. The moraine is flushed, cleared and read, and operating time passes (18_moraine_counters.md R417, R420 to R422). -/

namespace Sys2Proof.Machine

variable {s t : State}

/-- A flag of MRN_STATUS beside the number of records, and its source. -/
theorem Mild.raise_flag {s : State} {src : Nat} {f : Fld} (h : Mild s 0x80000 src) (hsrc : src < 32) (ha : f.addr = R.MRN_STATUS) (hlo : 7 < f.lo)
    (hle : f.lo ≤ f.hi) (hhi : f.hi < 32) :
    let t := (s.setFlag f true).raise 0x80000 src
    t.flag f = true ∧ (t.rget (R.FLT_REAL 0x80000)).getLsbD src = true ∧ (∀ e ∈ s.staged, e ∈ t.staged) ∧ t.mem = s.mem ∧
      t.ctxs = s.ctxs := by
  have hmild : Mild (s.setFlag f true) 0x80000 src := h.congr rfl (State.rget_fset_other _ _ (by rw [ha]; simp [R.FLT_REACT, R.MRN_STATUS]; omega))
  obtain ⟨hlogs, hbit⟩ := hmild.raise (by decide) hsrc
  have hrec := hmild.raise_recorded (by decide) hsrc
  refine ⟨?_, hbit, hrec.staged, hlogs.mem, (congrArg State.ctxs hlogs.same :)⟩
  exact (congrArg (· != 0) (hrec.status f ha hlo hle)).trans (State.flag_setFlag_same s true hle hhi)

/-- A flush that succeeds with no lost record to note. -/
theorem State.flushed_spec (h : s.mrnLost = 0) :
    s.flushed.staged = [] ∧ s.flushed.mrn = s.mrn ∧ s.flushed.fget R.MRN_STATUS_STAGED = 0 ∧ s.flushed.flag R.MRN_STATUS_FLUSHING = false ∧
      RegsSame (fun a => a == R.MRN_STATUS) s s.flushed ∧ MemSame s s.flushed := by
  have hregs : RegsOnly (fun a => a == R.MRN_STATUS) { s with staged := [] }
      (({ s with staged := [] }.fset R.MRN_STATUS_STAGED 0).setFlag R.MRN_STATUS_FLUSHING false) :=
    ((RegsOnly.refl _).fset (f := R.MRN_STATUS_STAGED) rfl _).fset (f := R.MRN_STATUS_FLUSHING) rfl _
  unfold State.flushed
  extract_lets s₁ n
  rw [if_pos (show n = 0 from h)]
  refine ⟨rfl, rfl, ?_, State.flag_setFlag_same _ _ (by decide) (by decide), hregs.regs, .of_mem rfl⟩
  exact (State.fget_fset_disjoint _ _ (by decide) (by decide) (by decide)).trans (State.fget_fset_same _ _ (by decide) (by decide))

/-- A clear: the circulating records leave, and CLEARED is the one that remains. -/
theorem State.mrnCleared_spec {n : Nat} (hroom : s.staged.length < 120) (hseq : 512 ≤ s.fget R.MRN_SEQ_SEQ)
    (hmax : s.fget R.MRN_SEQ_SEQ < 2 ^ 32 - 1) :
    let t := s.mrnCleared n
    t.fget R.MRN_OLDEST_SEQ = s.fget R.MRN_SEQ_SEQ ∧ t.fget R.MRN_SEQ_SEQ = s.fget R.MRN_SEQ_SEQ + 1 ∧ t.mrnClear = s.fget R.MRN_SEQ_SEQ ∧
      MemSame s t ∧ RegsSame (fun a => counting a || sessReg a || recordReg a) s t := by
  dsimp only
  unfold State.mrnCleared
  extract_lets next first last s₁
  have h₁ : RegsOnly (fun a => a == R.MRN_OLDEST) { s with mrn := s.mrn.filter fun e => decide (e.1 < 512), mrnClear := next } s₁ :=
    (RegsOnly.refl _).fset (f := R.MRN_OLDEST_SEQ) rfl _
  have hmrn : ∀ e ∈ s₁.mrn, e.1 < 512 := fun e he => by
    have he : e ∈ s.mrn.filter fun e => decide (e.1 < 512) := he
    exact of_decide_eq_true (List.mem_filter.1 he).2
  have hnext : s₁.fget R.MRN_SEQ_SEQ = s.fget R.MRN_SEQ_SEQ := State.fget_congr (h₁.regs _ (by decide))
  have hclear : s₁.mrnClear = s.fget R.MRN_SEQ_SEQ := rfl
  have hstaged : s₁.staged = s.staged := rfl
  have hmem : s₁.mem = s.mem := rfl
  have hregs : RegsSame (fun a => a == R.MRN_OLDEST) s s₁ := h₁.regs
  clear_value s₁
  generalize leBytes 4 first ++ leBytes 4 last ++ [BitVec.ofNat 8 n] = data
  have hroom₁ : s₁.staged.length < 128 := by rw [hstaged]; omega
  rw [State.stage_eq_stageOnly s₁ hroom₁]
  obtain ⟨holdest, hafter⟩ := s₁.stageOnly_alone hroom₁ (by omega) (by omega) hmrn 0x03 data true false none
  obtain ⟨hlogs, -⟩ := s₁.stageOnly_logs hroom₁ 0x03 data true false none
  generalize s₁.stageOnly 0x03 data true false none = s₂ at holdest hafter hlogs
  have hevent := State.chipEvent_reports (fun _ => false) s₂ 0x503 [BitVec.ofNat 32 first, BitVec.ofNat 32 last]
  generalize s₂.chipEvent 0x503 [BitVec.ofNat 32 first, BitVec.ofNat 32 last] = t at hevent
  refine ⟨?_, ?_, ?_, .of_mem (hevent.mem.trans (hlogs.mem.trans hmem)), ?_⟩
  · rw [← hnext, ← holdest]
    exact State.fget_congr (hevent.regs _ (by decide))
  · rw [← hnext, ← hafter]
    exact State.fget_congr (hevent.regs _ (by decide))
  · exact (congrArg State.mrnClear hevent.same :).trans ((congrArg State.mrnClear hlogs.same :).trans hclear)
  · refine ((hregs.mono fun a ha => ?_).trans (hlogs.regs.mono fun a ha => ?_)).trans (hevent.regs.mono fun a ha => ?_)
    · rw [beq_iff_eq.1 ha]
      decide
    · rcases Bool.or_eq_true_iff.1 ha with h | h <;> simp [h]
    · simp only [Bool.false_or] at ha
      rw [ha]
      rfl

/-- What follows operating time lies in the registers of cores, tiles and channels. -/
theorem doOperatingTimeTick_spec (s : State) :
    (doOperatingTimeTick s).rget R.MRN_HOURS = s.rget R.MRN_HOURS + 1 ∧ (doOperatingTimeTick s).mem = s.mem := by
  have hstale : ∀ (r : State) (ch : Nat), (r.syncStale ch).rget R.MRN_HOURS = r.rget R.MRN_HOURS ∧ (r.syncStale ch).mem = r.mem := fun r ch => by
    have hne : ∀ {a}, 0x100000 ≤ a → R.MRN_HOURS ≠ a := fun h => by unfold R.MRN_HOURS; omega
    have hchan : 0x100000 ≤ (R.CH_CAL_STAT_STALE ch).addr := by unfold R.CH_CAL_STAT_STALE R.CH_CAL_STAT; dsimp only; omega
    have htile : 0x100000 ≤ (R.TILE_CAL_FLAGS_STALE (ch / 16)).addr := by unfold R.TILE_CAL_FLAGS_STALE R.TILE_CAL_FLAGS; dsimp only; omega
    unfold State.syncStale
    extract_lets bits r₁
    have h₁ : r₁.rget R.MRN_HOURS = r.rget R.MRN_HOURS :=
      State.rget_fset_other _ _ (hne hchan)
    have hmem : r₁.mem = r.mem := rfl
    clear_value r₁ bits
    split
    · have htag := State.rget_fset_other r₁ (f := R.TILE_CAL_FLAGS_STALE (ch / 16)) (Bool.toNat true) (hne htile)
      exact ⟨(State.rget_congr (State.modTile_regs ..) _).trans (htag.trans h₁), (State.modTile_mem ..).trans ((State.setFlag_mem ..).trans hmem)⟩
    · exact ⟨h₁, hmem⟩
  unfold doOperatingTimeTick
  extract_lets s₁ s₂
  have h₁ : s₁.rget R.MRN_HOURS = s.rget R.MRN_HOURS + 1 := State.rget_rset_same ..
  have h₂ : s₂.rget R.MRN_HOURS = s₁.rget R.MRN_HOURS ∧ s₂.mem = s.mem :=
    List.foldlRecOn (motive := fun r : State => r.rget R.MRN_HOURS = s₁.rget R.MRN_HOURS ∧ r.mem = s.mem) _ _ ⟨rfl, rfl⟩ fun r hr c _ =>
      ⟨(State.rget_fset_other _ _ (by simp [R.CORE_HEALTH_TRANS, R.CORE_HEALTH, R.MRN_HOURS]; omega)).trans hr.1, hr.2⟩
  generalize List.range 1024 = l
  have h₃ := List.foldlRecOn (motive := fun r : State => r.rget R.MRN_HOURS = s₂.rget R.MRN_HOURS ∧ r.mem = s₂.mem) l
    (fun s ch => if s.power (ch / 16) = 3 then s else s.syncStale ch) ⟨rfl, rfl⟩ fun r hr ch _ => by
      split
      · exact hr
      · exact ⟨(hstale r ch).1.trans hr.1, (hstale r ch).2.trans hr.2⟩
  exact ⟨h₃.1.trans (h₂.1.trans h₁), h₃.2.trans h₂.2⟩

/-- A load that starts concerns its own context. -/
theorem State.mrnLoad_spec (s : State) (c : Nat) (seq : Word) :
    ((s.mrnLoad c seq).ctx c).cursor = seq ∧ ((s.mrnLoad c seq).ctx c).rstat.getLsbD 3 = true ∧
      ∀ k, k ≠ c → (s.mrnLoad c seq).ctx k = s.ctx k := by
  have hown : (s.mrnLoad c seq).ctx c = { s.ctx c with cursor := seq, rstat := ((s.ctx c).rstat &&& 0x100) ||| 0x8 } := by simp [State.mrnLoad]
  refine ⟨by rw [hown], ?_, fun k hk => by simp [State.mrnLoad, hk]⟩
  rw [hown, BitVec.getLsbD_or]
  simp

/-- A load that finds no record. -/
theorem doMrnLoadDone_absent {c : Fin 33} {b : Bool} (hload : (s.ctx c).rstat.getLsbD 3 = true)
    (hnone : Store.get (fun _ => none) s.mrn (s.ctx c).cursor.toNat = none) :
    let t := doMrnLoadDone c b s
    (t.ctx c).rstat = ((s.ctx c).rstat &&& 0x100) ||| BitVec.ofNat 32 (16 * s.absence (s.ctx c).cursor.toNat) ∧
      (t.ctx c).win = List.replicate 16 0 ∧ RegsSame (fun _ => false) s t ∧ MemSame s t := by
  have heq : doMrnLoadDone c b s = s.setCtx c { s.ctx c with
      rstat := ((s.ctx c).rstat &&& 0x100) ||| BitVec.ofNat 32 (16 * s.absence (s.ctx c).cursor.toNat), win := List.replicate 16 0 } := by
    unfold doMrnLoadDone
    extract_lets c' x seq keep
    rw [if_neg (by rw [hload]; simp), hnone]
  dsimp only
  rw [heq]
  exact ⟨by rw [State.ctx_setCtx, if_pos rfl], by rw [State.ctx_setCtx, if_pos rfl], fun _ _ => rfl, .of_mem rfl⟩

/-- A load that finds one, whether or not its MAC is right. -/
theorem doMrnLoadDone_present {c : Fin 33} {b : Bool} {r : MrnRec} (hload : (s.ctx c).rstat.getLsbD 3 = true)
    (hrec : Store.get (fun _ => none) s.mrn (s.ctx c).cursor.toNat = some r) (hmild : b = false → Mild s 0x80000 0) :
    let x := s.ctx c
    let t := doMrnLoadDone c b s
    (t.ctx c).win = wordsOf (mrnBytes x.cursor.toNat r) ∧
      (t.ctx c).rstat = (x.rstat &&& 0x100) ||| BitVec.ofNat 32 (1 + 2 * b.toNat + 4 * (s.staged.contains x.cursor.toNat).toNat) ∧
      MemSame s t ∧ (b = true → RegsSame (fun _ => false) s t) ∧ (b = false → t.flag R.MRN_STATUS_AUTHFAIL = true) := by
  dsimp only
  unfold doMrnLoadDone
  extract_lets c' x seq keep
  rw [if_neg (by rw [hload]; simp), hrec]
  dsimp only
  generalize hu : s.setCtx c' { x with rstat := keep ||| BitVec.ofNat 32 (1 + 2 * b.toNat + 4 * (s.staged.contains seq).toNat),
                                       win := wordsOf (mrnBytes seq r) } = u
  have hctx : u.ctx c = { x with rstat := keep ||| BitVec.ofNat 32 (1 + 2 * b.toNat + 4 * (s.staged.contains seq).toNat),
                                 win := wordsOf (mrnBytes seq r) } := by
    rw [← hu, State.ctx_setCtx, if_pos rfl]
  have hregs : u.regs = s.regs := by rw [← hu]; rfl
  have hmem : u.mem = s.mem := by rw [← hu]; rfl
  have hstaged : u.staged = s.staged := by rw [← hu]; rfl
  clear hu
  cases b with
  | true => exact ⟨congrArg Ctx.win hctx, congrArg Ctx.rstat hctx, .of_mem hmem, fun _ _ _ => State.rget_congr hregs _, nofun⟩
  | false =>
    have hmild := (hmild rfl).congr hstaged (State.rget_congr hregs _)
    obtain ⟨hflag, -, -, hmem', hctxs⟩ := hmild.raise_flag (f := R.MRN_STATUS_AUTHFAIL) (by decide) rfl (by decide) (by decide) (by decide)
    have hctx' : ((u.setFlag R.MRN_STATUS_AUTHFAIL true).raise 0x80000 0).ctx c = u.ctx c := by
      rw [State.ctx, hctxs]
      rfl
    exact ⟨(congrArg Ctx.win hctx').trans (congrArg Ctx.win hctx), (congrArg Ctx.rstat hctx').trans (congrArg Ctx.rstat hctx),
      .of_mem (hmem'.trans hmem), nofun, fun _ => hflag⟩

/-- Settles O56. -/
theorem moraineKeeps : Obligations.MoraineKeeps := by
  unfold Obligations.MoraineKeeps
  refine ⟨fun b s => ⟨fun busy h => ?_, fun hscan hlost => ?_, fun hscan hmild => ?_⟩, fun s => ?_,
    fun k s => ⟨fun h => ?_, fun hopen hpriv hroom hseq hmax => ?_⟩, fun c v s => ?_, fun c b s => ?_,
    fun c s => ⟨fun hinc hidle => ?_, fun h => ?_⟩, fun s => ?_⟩
  · exact congrArg Host.Outcome.next (if_pos (by simpa using h))
  · have heq : doMoraineFlush true false s = s.flushed := by simp [doMoraineFlush, hscan]
    exact ⟨_, congrArg Host.Outcome.next heq, State.flushed_spec hlost⟩
  · have heq : doMoraineFlush false false s = (s.setFlag R.MRN_STATUS_FLASHERR true).raise 0x80000 2 := by simp [doMoraineFlush, hscan]
    obtain ⟨hflag, hbit, hstaged, hmem, -⟩ := hmild.raise_flag (f := R.MRN_STATUS_FLASHERR) (by decide) rfl (by decide) (by decide) (by decide)
    exact ⟨_, congrArg Host.Outcome.next heq, hflag, hbit, hstaged, .of_mem hmem⟩
  · exact ⟨_, rfl, State.flag_setFlag_same s _ (by decide) (by decide), rfl,
      ((RegsOnly.refl s).fset (f := R.MRN_STATUS_FLUSHING) (p := fun a => a == R.MRN_STATUS) rfl _).regs, .of_mem rfl⟩
  · have heq : doMrnClear k s = s.answered St.denied := if_pos (by simpa using h)
    exact ⟨_, congrArg Host.Outcome.next heq, rfl, rfl, fun _ _ => rfl, .of_mem rfl⟩
  · have heq : doMrnClear k s = (s.mrnCleared k.toNat).answered St.ok := if_neg (by simp [hopen]; omega)
    obtain ⟨holdest, hnext, hclear, hmem, hregs⟩ := State.mrnCleared_spec (n := k.toNat) hroom hseq hmax
    exact ⟨_, congrArg Host.Outcome.next heq, rfl, holdest, hnext, hclear, hmem, hregs⟩
  · obtain ⟨hcursor, hload, hothers⟩ := s.mrnLoad_spec c.val v
    exact ⟨(s.mrnLoad c.val v).answered St.ok, rfl, rfl, hcursor, hload, hothers, fun _ _ => rfl, .of_mem rfl⟩
  · exact ⟨fun hidle => congrArg Host.Outcome.next (if_pos (by rw [hidle]; rfl)), fun hload hnone => ⟨_, rfl, doMrnLoadDone_absent hload hnone⟩,
      fun r hload hrec hmild => ⟨_, rfl, doMrnLoadDone_present hload hrec hmild⟩⟩
  · obtain ⟨hcursor, hload, -⟩ := s.mrnLoad_spec c.val ((s.ctx c).cursor + 1)
    have heq : doMrnWin15Read c s = s.mrnLoad c ((s.ctx c).cursor + 1) := if_pos (by rw [hinc, hidle]; rfl)
    exact ⟨_, congrArg Host.Outcome.next heq, hcursor, hload, fun _ _ => rfl, .of_mem rfl⟩
  · exact congrArg Host.Outcome.next (if_neg (by rcases h with h | h <;> rw [h] <;> simp))
  · exact ⟨_, rfl, (doOperatingTimeTick_spec s).1, .of_mem (doOperatingTimeTick_spec s).2⟩

end Sys2Proof.Machine
end

section
/-! SUPPORT. What an accepted request leaves as it is when it starts an operation (10_uhleus_protocol.md R256; 11_naljo_engine.md R277). -/

namespace Sys2Proof.Machine

variable {s₀ s t : State}

/-- The registers that an operation of a session changes when it starts: its slots, the number of operations, the event counters. -/
def startReg (q : Req) (a : Nat) : Bool := counting a || a == R.SESS_STAT q.session.toNat || a == R.ENG_STATUS

/-- What running a routine and starting an operation change. -/
structure Enters (q : Req) (s t : State) : Prop where
  same : { t with regs := s.regs, splits := s.splits, ids := s.ids, ctxs := s.ctxs, txq := s.txq, evc := s.evc, items := s.items,
                  freeCtr := s.freeCtr, maxLen := s.maxLen, maxClk := s.maxClk, micro := s.micro } = s
  regs : RegsSame (startReg q) s t

namespace Enters

variable {q : Req}

theorem trans (h : Enters q s₀ s) (k : Enters q s t) : Enters q s₀ t := by
  refine ⟨?_, h.regs.trans k.regs⟩
  exact (congrArg (fun x : State =>
    ({ x with regs := s₀.regs, splits := s₀.splits, ids := s₀.ids, ctxs := s₀.ctxs, txq := s₀.txq, evc := s₀.evc, items := s₀.items,
              freeCtr := s₀.freeCtr, maxLen := s₀.maxLen, maxClk := s₀.maxClk, micro := s₀.micro } : State)) k.same).trans h.same

theorem of_counts (h : Counts s t) : Enters q s t := by
  refine ⟨?_, h.regs.mono fun a ha => by rw [startReg, ha]; rfl⟩
  have hsplits := h.splits
  have hids := h.ids
  have hctxs := h.ctxs
  have htxq := h.txq
  rw [← hsplits, ← hids, ← hctxs, ← htxq]
  exact h.same

theorem of_replies (h : Replies q.session.toNat s t) : Enters q s t := by
  refine ⟨?_, fun a ha => h.regs a fun e => by simp [startReg, e] at ha⟩
  have hsplits : t.splits = s.splits := h.splits
  have hids : t.ids = s.ids := h.ids
  have hevc : t.evc = s.evc := h.evc
  have hitems : t.items = s.items := (congrArg State.items h.same :)
  have hfree : t.freeCtr = s.freeCtr := (congrArg State.freeCtr h.same :)
  have hlen : t.maxLen = s.maxLen := (congrArg State.maxLen h.same :)
  have hclk : t.maxClk = s.maxClk := (congrArg State.maxClk h.same :)
  have hmicro : t.micro = s.micro := (congrArg State.micro h.same :)
  rw [← hsplits, ← hids, ← hevc, ← hitems, ← hfree, ← hlen, ← hclk, ← hmicro]
  exact h.same

theorem mem (h : Enters q s t) : t.mem = s.mem := (congrArg State.mem h.same :)
theorem tiles (h : Enters q s t) : t.tiles = s.tiles := (congrArg State.tiles h.same :)

end Enters

theorem State.start_enters (s : State) (op : BitVec 8) (q : Req) (aux : List Nat) (stage : Nat) : Enters q s (s.start op q aux stage) := by
  unfold State.start State.register
  extract_lets x s₁
  have hcount : Enters q s ((s₁.fset R.ENG_STATUS_SPLIT s₁.splits.length).evCount 3) := by
    have hentered : Enters q s (s₁.fset R.ENG_STATUS_SPLIT s₁.splits.length) :=
      ⟨rfl, RegsSame.rset s₁ (p := startReg q) (by simp [startReg, R.ENG_STATUS_SPLIT]) _⟩
    exact hentered.trans (.of_counts (State.evCount_counts ..))
  exact hcount.trans (.of_replies (State.reply_replies ..))

/-- The operation that starts. -/
theorem State.start_split (s : State) (op : BitVec 8) (q : Req) (aux : List Nat) (stage : Nat) :
    ∃ x : Split, (s.start op q aux stage).splits = s.splits ++ [x] ∧ x.id = s.ids ∧ x.aux = aux ∧ x.opcode = op ∧ x.stage = stage ∧
      x.params = q.params := by
  unfold State.start State.register
  extract_lets x s₁
  refine ⟨x, ?_, rfl, rfl, rfl, rfl, rfl⟩
  rw [(State.reply_replies ..).splits, (State.evCount_counts ..).splits]
  rfl

/-! ## The checks of a request read what its routine leaves -/

theorem State.ownerKey_congr (h : ∀ k < 12, t.rget (R.OWNER_DIGEST k) = s.rget (R.OWNER_DIGEST k)) (key : List Byte) :
    t.ownerKey key = s.ownerKey key := by
  have hdigest : t.ownerDigest = s.ownerDigest := List.flatMap_congr fun k hk => by rw [h k (List.mem_range.1 hk)]
  rw [State.ownerKey, hdigest, State.ownerKey]

theorem State.deviceId_congr (h : ∀ k < 4, t.rget (R.DEVICE_ID k) = s.rget (R.DEVICE_ID k)) : t.deviceId = s.deviceId :=
  List.flatMap_congr fun k hk => by rw [h k (List.mem_range.1 hk)]

theorem State.unwrap_congr (h : ∀ k < 4, t.rget (R.DEVICE_ID k) = s.rget (R.DEVICE_ID k)) (b : List Byte) : t.unwrap b = s.unwrap b := by
  have hrecipient : t.recipient b = s.recipient b := by rw [State.recipient, State.deviceId_congr h, State.recipient]
  have hkek : t.kek b = s.kek b := by rw [State.kek, State.deviceId_congr h, State.kek]
  rw [State.unwrap, hrecipient, hkek, State.unwrap]

theorem State.bundlesOutside_congr (h : ∀ n < 4, t.rget (R.BUNDLE_CTL n) = s.rget (R.BUNDLE_CTL n) ∧
    t.rget (R.BUNDLE_TILES_LO n) = s.rget (R.BUNDLE_TILES_LO n) ∧ t.rget (R.BUNDLE_TILES_HI n) = s.rget (R.BUNDLE_TILES_HI n)) (l : List Nat) :
    t.bundlesOutside l = s.bundlesOutside l := by
  refine List.filter_congr fun n hn => ?_
  obtain ⟨hctl, hlo, hhi⟩ := h n (List.mem_range.1 hn)
  rw [State.flag_congr (f := R.BUNDLE_CTL_VALID n) hctl, hlo, hhi]

end Sys2Proof.Machine
end

section
/-! SUPPORT. SEAL_LOAD, its staging, attestations and IDENTITY (13_security.md R315, R316, R326, R327, R339). -/

namespace Sys2Proof.Machine

variable {s t : State}

/-! ## SEAL_LOAD of part 0 (R326) -/

/-- What the first part of a bundle for this device meets: no staging, tiles that are idle, powered and not fenced, a layout and a signature that
hold, and a place for the bundle. -/
structure Stageable (s : State) (q : Req) : Prop where
  recovery : s.flag R.BOOT_STATUS_RECOVERY = false
  owned : s.fget R.LC_STATUS_STATE = 2
  sealBlk : s.flag R.LC_STATUS_SEALBLK = false
  puf : s.flag R.LC_STATUS_PUF_OK = true
  sealForever : s.sealForever = false
  staging : s.staging = none
  tiles : ∀ u ∈ q.tiles 0, s.tileFenced u = false ∧ s.idle u = true ∧ s.power u < 2
  layout : part0Ok q.payload (q.p 0) (q.p 1) = true
  owner : s.ownerKey (sub q.payload 64 160) = true
  sig : q.verdict.sigOk = true
  key : (s.unwrap q.payload).isSome = true
  slot : (s.bundlesOutside (q.tiles 0)).length ≠ 4
  few : s.splits.length < 256

/-- The checks read neither the event counters nor the engine's registers. -/
theorem Stageable.congr {q : Req} (h : Stageable s q) (hforever : t.sealForever = s.sealForever) (hstaging : t.staging = s.staging)
    (hsplits : t.splits = s.splits)
    (hreg : ∀ a, counting a = false → a ≠ R.ENG_STATUS → a ≠ R.CAL_STATUS → a ≠ R.BT_STATUS → t.rget a = s.rget a) : Stageable t q := by
  have hsec : ∀ {a}, 0x50000 ≤ a → a < 0x60000 → t.rget a = s.rget a := fun hlo hhi =>
    hreg _ (counting_of_lt (by omega)) (by unfold R.ENG_STATUS; omega) (by unfold R.CAL_STATUS; omega) (by unfold R.BT_STATUS; omega)
  have htile : ∀ {a}, 0x100000 ≤ a → t.rget a = s.rget a := fun ha =>
    hreg _ (counting_of_ge ha) (by unfold R.ENG_STATUS; omega) (by unfold R.CAL_STATUS; omega) (by unfold R.BT_STATUS; omega)
  have hmap : ∀ {u}, u < 64 → t.rget (R.TILE_MAP u) = s.rget (R.TILE_MAP u) := fun hu =>
    hreg _ (counting_of_lt (by unfold R.TILE_MAP; omega)) (by unfold R.TILE_MAP R.ENG_STATUS; omega)
      (by unfold R.TILE_MAP R.CAL_STATUS; omega) (by unfold R.TILE_MAP R.BT_STATUS; omega)
  have hid : ∀ k < 4, t.rget (R.DEVICE_ID k) = s.rget (R.DEVICE_ID k) := fun k hk =>
    hreg _ (counting_of_lt (by unfold R.DEVICE_ID; omega)) (by unfold R.DEVICE_ID R.ENG_STATUS; omega)
      (by unfold R.DEVICE_ID R.CAL_STATUS; omega) (by unfold R.DEVICE_ID R.BT_STATUS; omega)
  refine ⟨?_, ?_, ?_, ?_, hforever.trans h.sealForever, hstaging.trans h.staging, fun u hu => ?_, h.layout, ?_, h.sig, ?_, ?_, hsplits ▸ h.few⟩
  · exact (State.flag_congr (hreg _ (by decide) (by decide) (by decide) (by decide))).trans h.recovery
  · exact (State.fget_congr (hsec (by decide) (by decide))).trans h.owned
  · exact (State.flag_congr (hsec (by decide) (by decide))).trans h.sealBlk
  · exact (State.flag_congr (hsec (by decide) (by decide))).trans h.puf
  · obtain ⟨hfence, hidle, hpower⟩ := h.tiles u hu
    refine ⟨(State.flag_congr (f := R.TILE_MAP_FENCED u) (hmap (tilesOf_lt hu))).trans hfence, ?_, ?_⟩
    · rwa [State.idle, State.stepState, State.fget_congr (f := R.SEQ_STATUS_STATE u) (htile (by simp only [R.SEQ_STATUS_STATE, R.SEQ_STATUS]; omega))]
    · rwa [State.power, State.fget_congr (f := R.TILE_PWR_STATE u) (htile (by simp only [R.TILE_PWR_STATE, R.TILE_PWR]; omega))]
  · exact (State.ownerKey_congr (fun k hk => hsec (by unfold R.OWNER_DIGEST; omega) (by unfold R.OWNER_DIGEST; omega)) _).trans h.owner
  · rw [State.unwrap_congr hid]
    exact h.key
  · rw [State.bundlesOutside_congr fun n hn => ⟨hsec (by unfold R.BUNDLE_CTL; omega) (by unfold R.BUNDLE_CTL; omega),
      hsec (by unfold R.BUNDLE_TILES_LO; omega) (by unfold R.BUNDLE_TILES_LO; omega),
      hsec (by unfold R.BUNDLE_TILES_HI; omega) (by unfold R.BUNDLE_TILES_HI; omega)⟩]
    exact h.slot

/-- A first part that passes is staged and its operation starts. -/
theorem Stageable.sealPart0 {q : Req} (h : Stageable s q) :
    ∃ g : Staging, s.sealPart0 q = ({ s with staging := some g }.setFlag R.LC_STATUS_STAGING true).start 0x60 q ∧ g.session = q.session ∧
      g.tilesLo = q.p 0 ∧ g.tilesHi = q.p 1 ∧ g.nextPart = 0 ∧ some g.bundle.key = s.unwrap q.payload := by
  have hfenced : (q.tiles 0).any s.tileFenced = false := List.any_eq_false.2 fun u hu => by simp [(h.tiles u hu).1]
  have hbusy : (q.tiles 0).any (fun u => !s.idle u || decide (2 ≤ s.power u)) = false := List.any_eq_false.2 fun u hu => by
    obtain ⟨-, hidle, hpower⟩ := h.tiles u hu
    rw [hidle]
    simpa using hpower
  obtain ⟨key, hkey⟩ := Option.isSome_iff_exists.1 h.key
  have hfew := h.few
  unfold State.sealPart0
  extract_lets l b g
  rw [if_neg (by rw [hfenced]; simp), if_neg (by rw [h.staging, hbusy]; simp), if_neg (by rw [h.layout]; simp),
    if_neg (by rw [h.owner, h.sig, hkey]; simp), if_neg (by rw [not_or]; exact ⟨h.slot, by omega⟩)]
  refine ⟨g, rfl, rfl, rfl, rfl, rfl, ?_⟩
  rw [hkey]
  show some ((s.unwrap q.payload).getD []) = some key
  rw [hkey]
  rfl

theorem part0Ok_payload {b : List Byte} {lo hi : Word} (h : part0Ok b lo hi = true) : b.isEmpty = false := by
  simp only [part0Ok, Bool.and_eq_true, decide_eq_true_eq] at h
  have hlen : 416 ≤ b.length := h.1.1.1.1.1.1.1.1.1
  cases b with
  | nil => simp at hlen
  | cons => rfl

theorem doSealLoad_staged {q : Req} (hruns : s.wakeEngine.runs 0x60 q = true) (hpart : q.n 2 = 0) (hhold : s.flag R.ENG_STATUS_HOLDING = false)
    (h : Stageable s q) :
    ∃ g, Begun (doSealLoad q s) 0x60 q ∧ (doSealLoad q s).flag R.LC_STATUS_STAGING = true ∧ (doSealLoad q s).staging = some g ∧
        g.session = q.session ∧ g.tilesLo = q.p 0 ∧ g.tilesHi = q.p 1 ∧ g.nextPart = 0 ∧ some g.bundle.key = s.unwrap q.payload ∧
        MemSame s (doSealLoad q s) := by
  have hcounts := s.wakeEngine.routine_counts
  obtain ⟨hmem, hreg⟩ := s.wakeEngine_routine
  have hr : Stageable s.wakeEngine.routine q := h.congr hcounts.sealForever hcounts.staging hcounts.splits hreg
  have hunwrap : s.wakeEngine.routine.unwrap q.payload = s.unwrap q.payload := State.unwrap_congr (fun k hk =>
    hreg _ (counting_of_lt (by unfold R.DEVICE_ID; omega)) (by unfold R.DEVICE_ID R.ENG_STATUS; omega)
      (by unfold R.DEVICE_ID R.CAL_STATUS; omega) (by unfold R.DEVICE_ID R.BT_STATUS; omega)) _
  have hhold' : s.wakeEngine.routine.flag R.ENG_STATUS_HOLDING = false :=
    (State.flag_congr (hcounts.regs _ (by decide))).trans (s.wakeEngine_holding.trans hhold)
  rw [← hunwrap]
  unfold doSealLoad
  rw [State.request_of_runs_free hruns (s.wakeEngine_holding.trans hhold)]
  generalize s.wakeEngine.routine = r at *
  extract_lets part last
  have hpart0 : part = 0 := by show q.n 2 % 256 = 0; rw [hpart]
  rw [if_neg (by rw [hpart]; decide), if_neg (by rw [hr.recovery]; simp), if_neg (by rw [hr.owned, hr.sealBlk]; simp),
    if_neg (by rw [hr.puf, hr.sealForever]; simp), if_neg (by rw [hhold']; simp),
    if_neg (by rw [part0Ok_payload h.layout]; simp), if_pos hpart0]
  obtain ⟨g, heq, hsession, hlo, hhi, hnext, hkey⟩ := hr.sealPart0
  rw [heq]
  have henters := State.start_enters ({ r with staging := some g }.setFlag R.LC_STATUS_STAGING true) 0x60 q [] 0
  refine ⟨g, State.start_begun .., ?_, (congrArg State.staging henters.same :), hsession, hlo, hhi, hnext, hkey, .of_mem (henters.mem.trans hmem)⟩
  have hstat : startReg q R.LC_STATUS = false := by
    have := q.session.isLt
    simp [startReg, counting, R.LC_STATUS, R.SESS_STAT, R.ENG_STATUS]
    omega
  exact (State.flag_congr (henters.regs _ hstat)).trans (State.flag_setFlag_same _ _ (by decide) (by decide))

/-! ## The end of a part's staging, and its timeout (R327) -/

theorem doSealPartStaged_first {o : OpRef} {x : Split} {g : Staging} (hx : s.split? 0x60 o = some x) (hg : s.staging = some g)
    (hp : (x.params.getD 2 0).toNat = 0) :
    doSealPartStaged o s = ({ s with staging := some { g with nextPart := g.nextPart + 1, at_ := s.now } } : State).complete x St.ok := by
  have hlast : (x.params.getD 2 0).getLsbD 8 = false := by
    rw [BitVec.eq_of_toNat_eq (x := x.params.getD 2 0) (y := 0) hp]
    decide
  unfold doSealPartStaged
  rw [hx, hg]
  dsimp only
  rw [if_pos (by rw [hp]), hlast]
  rfl

theorem State.stagingDrop_alone (st : BitVec 8) (h : ∀ x ∈ s.splits, x.opcode ≠ 0x60) :
    s.stagingDrop st = ({ s with staging := none } : State).setFlag R.LC_STATUS_STAGING false := by
  have hnone : s.splits.filter (fun (x : Split) => x.opcode == 0x60) = [] := List.filter_eq_nil_iff.2 fun x hx => by simpa using h x hx
  unfold State.stagingDrop
  extract_lets s₁
  show List.foldl _ _ (s.splits.filter fun (x : Split) => x.opcode == 0x60) = _
  rw [hnone]
  rfl

/-! ## ATTEST (R339) -/

/-- An ATTEST of the tiles of a step on record, all idle. -/
theorem doAttest_begins {q : Req} {r : StepRec} (hruns : s.runs 0x61 q = true) (hhold : s.flag R.ENG_STATUS_HOLDING = false)
    (hlc : s.fget R.LC_STATUS_STATE ≠ 3) (hpuf : s.flag R.LC_STATUS_PUF_OK = true)
    (hrec : s.steps.find? (fun (r : StepRec) => r.tiles == q.tiles 0 && (q.tiles 0).all s.idle) = some r) (hfew : s.splits.length < 256) :
    ∃ l, doAttest q s = ({ s.routine with attests := (s.ids, r) :: l } : State).start 0x61 q := by
  have hcounts := s.routine_counts
  have hidle : ∀ u ∈ q.tiles 0, s.routine.idle u = s.idle u := fun u _ => by
    rw [State.idle, State.stepState, State.fget_congr (f := R.SEQ_STATUS_STATE u) (hcounts.regs _ (counting_of_ge (by
      simp only [R.SEQ_STATUS_STATE, R.SEQ_STATUS]; omega)))]
    rfl
  have hall : (q.tiles 0).all s.routine.idle = (q.tiles 0).all s.idle := by
    rw [Bool.eq_iff_iff, List.all_eq_true, List.all_eq_true]
    exact forall₂_congr fun u hu => by rw [hidle u hu]
  unfold doAttest
  rw [State.request_of_runs_free hruns hhold]
  extract_lets l
  rw [if_neg (by rwa [State.fget_congr (hcounts.regs R.LC_STATUS (by decide))]),
    if_neg (by rw [State.flag_congr (hcounts.regs R.LC_STATUS (by decide)), hpuf]; simp), hcounts.steps, hall, hrec]
  dsimp only
  rw [if_neg (by rw [hcounts.splits]; omega), hcounts.ids]
  exact ⟨_, rfl⟩

/-- While the noise source is good the device can sign. -/
theorem State.signable_of_good (h : s.drbgBad = false) : ∃ t, s.signable = (true, t) ∧ Counts s t := by
  have hfree := State.free_counts (s := s) rfl
  refine ⟨s.free.2, ?_, hfree⟩
  unfold State.signable
  exact if_neg (by rw [hfree.drbgBad, h]; simp)

theorem State.signable_mem (s : State) : s.signable.2.mem = s.mem := by
  unfold State.signable
  dsimp only
  split <;> rfl

theorem State.signable_regs (s : State) : RegsSame counting s s.signable.2 := by
  unfold State.signable
  dsimp only
  split <;> exact fun _ _ => rfl

/-- The signature of an ATTEST, while the noise source is good. -/
theorem doAttestationSigned_spec {o : OpRef} {x : Split} (hx : s.split? 0x61 o = some x) (hrec : ∃ e ∈ s.attests, e.1 = x.id)
    (hgood : s.drbgBad = false) (hcount : s.fget R.ATT_COUNT_COUNT < 2 ^ 32 - 1) :
    let t := doAttestationSigned (some o) s
    Over t x ∧ Completed t x St.ok ∧ t.fget R.ATT_COUNT_COUNT = s.fget R.ATT_COUNT_COUNT + 1 ∧ MemSame s t := by
  obtain ⟨e, he⟩ : ∃ e, (s.attests.find? fun e => e.1 == x.id) = some e := by
    refine Option.isSome_iff_exists.1 (List.find?_isSome.2 ?_)
    obtain ⟨e, hmem, hid⟩ := hrec
    exact ⟨e, hmem, beq_iff_eq.2 hid⟩
  obtain ⟨u, hsign, hu⟩ := State.signable_of_good hgood
  dsimp only
  unfold doAttestationSigned
  dsimp only
  rw [hx]
  dsimp only
  rw [he]
  dsimp only
  rw [hsign]
  dsimp only
  rw [if_pos rfl]
  generalize hv : ({ u with attests := u.attests.filter fun y => y.1 != x.id } : State) = v
  have hmem : v.mem = s.mem := by rw [← hv]; exact hu.mem
  have hcnt : v.fget R.ATT_COUNT_COUNT = s.fget R.ATT_COUNT_COUNT := by rw [← hv]; exact State.fget_congr (hu.regs _ (by decide))
  have hdone := State.complete_completes (v.count R.ATT_COUNT_COUNT) x St.ok []
    (u.attestation e.2 (fit 16 ((x.params.drop 2).flatMap wordBytes))) .none
  refine ⟨State.complete_over _ _ _ _ _ _, State.complete_completed _ _ _ _ _ _, ?_, .of_mem (hdone.mem.trans hmem)⟩
  rw [State.fget_congr (hdone.regs R.ATT_COUNT (by decide)), ← hcnt]
  exact State.fget_count_of_lt (f := R.ATT_COUNT_COUNT) (by decide) (by decide) (by rw [hcnt]; exact hcount)

/-! ## IDENTITY (R315, R316) -/

/-- The identity of the device as IDENTITY signs it. -/
def State.identityBody (s : State) : List Byte :=
  s.deviceId ++ idkPub ++ kakPub ++ [BitVec.ofNat 8 (s.fget R.LC_STATUS_STATE), BitVec.ofNat 8 (s.fget R.LC_STATUS_LC_COUNT)] ++
    (if s.fget R.LC_STATUS_STATE = 2 then s.ownerDigest else List.replicate 48 0) ++ List.replicate 4 0

theorem Counts.identityBody (h : Counts s t) : t.identityBody = s.identityBody := by
  have hlc : t.rget R.LC_STATUS = s.rget R.LC_STATUS := h.rget_lt (by decide)
  have hdigest : t.ownerDigest = s.ownerDigest := List.flatMap_congr fun k hk => by
    have := List.mem_range.1 hk
    rw [h.rget_lt (by unfold R.OWNER_DIGEST; omega)]
  rw [State.identityBody, h.deviceId, State.fget_congr (f := R.LC_STATUS_STATE) hlc, State.fget_congr (f := R.LC_STATUS_LC_COUNT) hlc, hdigest,
    State.identityBody]

/-- IDENTITY is one answer behind counted events. -/
theorem doIdentity_answers {q : Req} (hruns : s.runs 0x63 q = true) :
    ∃ r st ps pl, r.mem = s.mem ∧ RegsSame counting s r ∧ doIdentity q s = r.reply 0x63 q st ps pl ∧
      (3 ≤ q.n 0 → st = St.badParam ∧ ps = [0] ∧ pl = []) ∧
      (q.n 0 < 3 → s.flag R.LC_STATUS_PUF_OK = false → st = St.hwFault ∧ ps = [0] ∧ pl = []) ∧
      (q.n 0 = 0 → s.flag R.LC_STATUS_PUF_OK = true → s.certBad = false → s.fget R.LC_STATUS_STATE ≠ 0 →
        st = St.ok ∧ ps = [] ∧ pl = s.cert.getD Config.certificate) ∧
      (q.n 0 = 1 → s.flag R.LC_STATUS_PUF_OK = true → st = St.ok ∧ ps = [] ∧ pl = idkPub) ∧
      (q.n 0 = 2 → s.flag R.LC_STATUS_PUF_OK = true → s.drbgBad = false → ∃ n,
        st = St.ok ∧ ps = [] ∧ pl = s.identityBody ++ idkSigned n s.identityBody) := by
  have hcounts := s.routine_counts
  have hfail : ∀ (r : State) st, r.mem = s.mem → RegsSame counting s r →
      ∃ r', r'.mem = s.mem ∧ RegsSame counting s r' ∧ r.fail 0x63 q st = r'.reply 0x63 q st [0] [] := fun r st hmem hregs =>
    ⟨_, (State.evCount_counts r 9 1 none).mem.trans hmem, hregs.trans (State.evCount_counts r 9 1 none).regs, rfl⟩
  have hpuf : s.routine.flag R.LC_STATUS_PUF_OK = s.flag R.LC_STATUS_PUF_OK := State.flag_congr (hcounts.rget_lt (by decide))
  have hlc : s.routine.fget R.LC_STATUS_STATE = s.fget R.LC_STATUS_STATE := State.fget_congr (hcounts.rget_lt (by decide))
  rw [doIdentity, State.request_of_runs hruns rfl, hpuf]
  by_cases hitem : 3 ≤ q.n 0
  · rw [if_pos hitem]
    obtain ⟨r, hmem, hregs, heq⟩ := hfail _ St.badParam hcounts.mem hcounts.regs
    exact ⟨r, _, _, _, hmem, hregs, heq, fun _ => ⟨rfl, rfl, rfl⟩, fun h => by omega, fun h => by omega, fun h => by omega, fun h => by omega⟩
  rw [if_neg hitem]
  cases hok : s.flag R.LC_STATUS_PUF_OK with
  | false =>
    obtain ⟨r, hmem, hregs, heq⟩ := hfail _ St.hwFault hcounts.mem hcounts.regs
    exact ⟨r, _, _, _, hmem, hregs, heq, fun h => absurd h hitem, fun _ _ => ⟨rfl, rfl, rfl⟩, nofun, nofun, nofun⟩
  | true =>
    rw [if_neg (by simp)]
    have hcase : q.n 0 = 0 ∨ q.n 0 = 1 ∨ q.n 0 = 2 := by omega
    rcases hcase with h | h | h <;> rw [h]
    · dsimp only
      rw [hcounts.certBad, hlc, hcounts.cert]
      by_cases hcert : (s.certBad || s.fget R.LC_STATUS_STATE == 0) = true
      · rw [if_pos hcert]
        obtain ⟨r, hmem, hregs, heq⟩ := hfail _ St.hwFault hcounts.mem hcounts.regs
        refine ⟨r, _, _, _, hmem, hregs, heq, nofun, nofun, fun _ _ hbad hstate => ?_, nofun, nofun⟩
        simp [hbad, hstate] at hcert
      · rw [if_neg hcert]
        exact ⟨_, _, _, _, hcounts.mem, hcounts.regs, rfl, nofun, nofun, fun _ _ _ _ => ⟨rfl, rfl, rfl⟩, nofun, nofun⟩
    · exact ⟨_, _, _, _, hcounts.mem, hcounts.regs, rfl, nofun, nofun, nofun, fun _ _ => ⟨rfl, rfl, rfl⟩, nofun⟩
    · obtain ⟨hmem, hregs⟩ : s.routine.signable.2.mem = s.mem ∧ RegsSame counting s s.routine.signable.2 :=
        ⟨s.routine.signable_mem.trans hcounts.mem, hcounts.regs.trans s.routine.signable_regs⟩
      split
      next hzero => cases hzero
      next hone => cases hone
      dsimp only
      cases hgood : s.drbgBad with
      | true =>
        split
        · exact ⟨_, _, _, _, hmem, hregs, rfl, nofun, nofun, nofun, nofun, nofun⟩
        · obtain ⟨r, hmem, hregs, heq⟩ := hfail _ St.hwFault hmem hregs
          exact ⟨r, _, _, _, hmem, hregs, heq, nofun, nofun, nofun, nofun, nofun⟩
      | false =>
        obtain ⟨u, hsign, hu⟩ := State.signable_of_good (hcounts.drbgBad.trans hgood)
        have hall := hcounts.trans hu
        rw [hsign]
        refine ⟨u, _, _, _, hall.mem, hall.regs, if_pos rfl, nofun, nofun, nofun, nofun, fun _ _ _ => ⟨u.freeCtr, rfl, rfl, ?_⟩⟩
        rw [← hall.identityBody]
        rfl

/-- Settles O45. -/
theorem bundlesAndAttestations : Obligations.BundlesAndAttestations := by
  unfold Obligations.BundlesAndAttestations
  refine ⟨?_, ?_, ?_, ?_, ?_, ?_, ?_, ?_⟩
  · intro q s hruns hpart hrec howned hblk hpuf hforever hhold hstaging htiles hlayout howner hsig hkey hslot hfew
    have hexec : exec (.sealLoad q) s = .next (doSealLoad q s) :=
      congrArg Host.Outcome.next (if_neg (Bool.eq_false_iff.1 (State.overridden_of_runs hruns)))
    obtain ⟨g, hg⟩ := doSealLoad_staged hruns hpart hhold
      ⟨hrec, howned, hblk, hpuf, hforever, hstaging, htiles, hlayout, howner, hsig, hkey, hslot, hfew⟩
    exact ⟨_, g, hexec, hg⟩
  · intro o v s x g hx hg hp
    have hdone := State.complete_completes ({ s with staging := some { g with nextPart := g.nextPart + 1, at_ := s.now } } : State) x St.ok
    refine ⟨_, congrArg Host.Outcome.next (doSealPartStaged_first hx hg hp), (hdone [] [] .none).staging, State.complete_over _ _ _ _ _ _,
      State.complete_completed _ _ _ _ _ _, .of_mem (hdone [] [] .none).mem, fun a ha => (hdone [] [] .none).regs a (by simpa using ha)⟩
  · intro s hold hnone
    have heq : doStagingTimeout s = s.stagingDrop St.aborted := if_neg (by
      rw [hold, List.any_eq_false.2 fun x hx => by simpa using hnone x hx]
      simp)
    rw [State.stagingDrop_alone _ hnone] at heq
    exact ⟨_, congrArg Host.Outcome.next heq, rfl, State.flag_setFlag_same _ _ (by decide) (by decide), rfl,
      ((RegsOnly.refl s).fset (f := R.LC_STATUS_STAGING) (p := fun a => a == R.LC_STATUS) rfl _).regs, .of_mem rfl⟩
  · exact fun s hyoung => congrArg Host.Outcome.next (if_pos (by rw [hyoung]; rfl))
  · intro q s r hruns hhold hlc hpuf hrec hfew
    have hexec : exec (.attest q) s = .next (doAttest q s) := congrArg Host.Outcome.next (State.byTable_of_runs hruns _)
    obtain ⟨l, heq⟩ := doAttest_begins hruns hhold hlc hpuf hrec hfew
    have hcounts := s.routine_counts
    have henters := State.start_enters ({ s.routine with attests := (s.ids, r) :: l } : State) 0x61 q [] 0
    have hattests : (({ s.routine with attests := (s.ids, r) :: l } : State).start 0x61 q).attests = (s.ids, r) :: l :=
      (congrArg State.attests henters.same :)
    rw [hexec, heq]
    refine ⟨_, rfl, State.start_begun .., ?_, .of_mem (henters.mem.trans hcounts.mem), ?_⟩
    · rw [hattests]
      exact List.mem_cons_self
    · exact (hcounts.regs.mono fun a ha => by rw [ha]; rfl).trans henters.regs
  · exact fun o s x hx hrec hgood hcount => ⟨_, rfl, doAttestationSigned_spec hx hrec hgood hcount⟩
  · intro s hnone
    refine congrArg Host.Outcome.next ?_
    unfold doAttestationSigned
    rw [hnone]
  · intro q s hruns
    have hexec : exec (.identity q) s = .next (doIdentity q s) := congrArg Host.Outcome.next (State.byTable_of_runs hruns _)
    obtain ⟨r, st, ps, pl, hmem, hregs, heq, hbad, hfault, hcert, hkey, hrecord⟩ := doIdentity_answers hruns
    obtain ⟨hanswered, hmem', hregs', -⟩ := State.reply_spec (s := s) (t := r) (p := fun _ => false) hmem
      (hregs.mono fun a ha => by rw [ha]; rfl) 0x63 q st ps pl
    rw [hexec, heq]
    refine ⟨_, rfl, hmem', hregs'.mono fun a ha => by simpa using ha, fun h => ?_, fun h h' => ?_, fun h h' h'' h''' => ?_, fun h h' => ?_,
      fun h h' h'' => ?_⟩
    · obtain ⟨rfl, rfl, rfl⟩ := hbad h
      exact hanswered
    · obtain ⟨rfl, rfl, rfl⟩ := hfault h h'
      exact hanswered
    · obtain ⟨rfl, rfl, rfl⟩ := hcert h h' h'' h'''
      exact hanswered
    · obtain ⟨rfl, rfl, rfl⟩ := hkey h h'
      exact hanswered
    · obtain ⟨n, rfl, rfl, rfl⟩ := hrecord h h' h''
      exact ⟨n, hanswered⟩

end Sys2Proof.Machine
end

section
/-! SUPPORT. A register file that is not in canonical form. Removing a bundle rewrites the register file (13_security.md R319, R330), and an entry
that holds a reset value hides another one of the same register no longer. -/

namespace Sys2Proof.Machine

def lifecycleSplit : Split := { id := 1, opcode := 0x62, session := 0, tag := 0, params := [1] }

/-- LC_STATUS is listed twice, first with its reset value, then in OWNED; a bundle for tile 0 is installed, and a LIFECYCLE is in progress. -/
def twiceListed : State :=
  { regs := [(R.LC_STATUS, regReset R.LC_STATUS), (R.LC_STATUS, setField 0 R.LC_STATUS_STATE.hi R.LC_STATUS_STATE.lo 2),
      (R.BUNDLE_CTL 0, 0x80000000), (R.BUNDLE_TILES_LO 0, 1)]
    splits := [lifecycleSplit] }

theorem twiceListed_shareWords : ∀ n, n < 4 → (Store.get (fun _ => {}) twiceListed.bundles n).shareWords = [] := fun _ _ => rfl

theorem twiceListed_split : twiceListed.splits.find? (fun (x : Split) => x.opcode == 0x62) = some lifecycleSplit := by decide

theorem twiceListed_room : twiceListed.staged.length < 120 := by decide

/-- The vault wipe drops the first of the two entries, and the life cycle reads 2 behind it. -/
theorem twiceListed_state : (doLifecycleTransition false twiceListed).fget R.LC_STATUS_STATE ≠ twiceListed.fget R.LC_STATUS_STATE := by
  decide +kernel

/-- Refutes O46: where OTP fails the life cycle is to stay as it is, but the statement does not ask for a register file in canonical form, and on one
that lists LC_STATUS twice the vault wipe uncovers the second entry. -/
theorem not_lifeCycleAndTamper : ¬ Obligations.LifeCycleAndTamper := by
  unfold Obligations.LifeCycleAndTamper
  intro h
  obtain ⟨-, htransition, -⟩ := h
  obtain ⟨-, hfail⟩ := htransition twiceListed lifecycleSplit twiceListed_split twiceListed_room twiceListed_shareWords
  obtain ⟨t, ht, hstate, -⟩ := hfail
  have ht : doLifecycleTransition false twiceListed = t := Host.Outcome.next.inj ht
  exact twiceListed_state (ht ▸ hstate)

end Sys2Proof.Machine
end

section
/-! SUPPORT. Two items of one rank: the rank of a fault does not tell a source of a block from source 128 and above of the place before it
(11_naljo_engine.md R278). -/

namespace Sys2Proof.Machine

/-- Source 0 of the engine block waits behind an item that names source 128 of 0x3FFFF, where Table 22.1 has no block. -/
def tiedItems : List Item := [.fault 0x3FFFF 128, .fault 0x40000 0]

theorem tiedItems_ranks : ∀ i ∈ tiedItems, itemRank i = some (2 ^ 10 + 0x40000 * 128) := by
  intro i hi
  rcases List.mem_cons.1 hi with rfl | hi
  · rfl
  · rw [List.mem_singleton.1 hi]
    rfl

/-- The engine takes the one that entered first. -/
theorem firstItem_tiedItems : firstItem tiedItems = some (.fault 0x3FFFF 128) := by decide

/-- Refutes O49: no item of `tiedItems` ranks before the source of the engine block, and yet it is not the first, for the list may hold an item of
the same rank that names no source of any block. -/
theorem not_faultsReport : ¬ Obligations.FaultsReport := by
  unfold Obligations.FaultsReport
  intro h
  obtain ⟨-, -, hfirst, -⟩ := h
  have hleast : ∀ i ∈ tiedItems, ∀ k, itemRank i = some k → 2 ^ 10 + fltBase .engine * 128 + (0 : Fin 32).val ≤ k := fun i hi k hk => by
    rw [tiedItems_ranks i hi] at hk
    exact (Option.some.inj hk).le
  have hno : ∀ c, Item.trap c ∉ tiedItems := fun c hc => by simp [tiedItems] at hc
  have hwins := hfirst .engine 0 tiedItems (List.mem_cons_of_mem _ List.mem_cons_self) (by decide) hno hleast
  rw [firstItem_tiedItems] at hwins
  exact absurd hwins (by decide)

end Sys2Proof.Machine
end

section
/-! SUPPORT. A warm reset makes a core spare that was under retest (16_self_repair.md R387, log entry 65), so it does not keep SR_SPARE2, of which
Table 20.3 keeps every bit. -/

namespace Sys2Proof.Machine

/-- Cores 64 to 67 run no tile and are not spare yet, as they are while their retests last. -/
def retestingState : State := { regs := [(R.SR_SPARE2, 0)] }

/-- What a warm reset makes of it. -/
def retestingReset : State := retestingState.warmReset 2

theorem retestingReset_spares : retestingReset.rget R.SR_SPARE2 = 15 := by decide +kernel

/-- Refutes O60: a warm reset cuts the retests of cores 64 to 67 short and they become spare, which changes SR_SPARE2. -/
theorem not_resetsAndBoot : ¬ Obligations.ResetsAndBoot := by
  unfold Obligations.ResetsAndBoot
  intro h
  obtain ⟨-, hwarm, -⟩ := h
  obtain ⟨t, ht, -, -, -, -, -, hkept⟩ := hwarm retestingState
  have hreset : t = retestingReset := (Host.Outcome.next.inj ht).symm
  have hsame := hkept (by decide) R.SR_SPARE2 (by decide)
  rw [hreset, retestingReset_spares] at hsame
  exact absurd hsame (by decide)

end Sys2Proof.Machine
end

section
/-! SUPPORT. A migration away from a core that the chip does not have: TILE_MAP.CORE has 7 bits, so a state may show core 96, and the bit that
R387 would clear for it lies behind the three SR_SPARE words, in SR_MIG_LAST. -/

namespace Sys2Proof.Machine

/-- Tile 1 on core 96, migrating to core 0 behind a permanent fault. -/
def absentCoreState : State :=
  { regs := [(R.TILE_MAP 1, 96)]
    tiles := [(1, { calv := some { permanent := true, checked := true, moving := true } })] }

/-- What the end of the migration makes of it. -/
def absentCoreMigrated : State := doMigrationComplete 1 0 absentCoreState

/-- The spare bit of core 96 is bit 0 of SR_MIG_LAST, which names the tile. -/
theorem spareFld_absentCore : spareFld 96 = ⟨R.SR_MIG_LAST, 0, 0⟩ := by decide

theorem absentCoreMigrated_last : absentCoreMigrated.rget R.SR_MIG_LAST = 256 * 96 := by decide +kernel

/-- Refutes O52: fencing core 96 clears its spare bit, and with it the lowest bit of the tile's number in SR_MIG_LAST. -/
theorem not_calvingMoves : ¬ Obligations.CalvingMoves := by
  unfold Obligations.CalvingMoves
  intro h
  obtain ⟨-, -, -, -, -, hcomplete, -⟩ := h
  obtain ⟨t, ht, -, -, -, -, -, hlast, -⟩ := hcomplete 1 0 absentCoreState { permanent := true, checked := true, moving := true }
    (by decide) rfl rfl (by decide)
  have hmigrated : t = absentCoreMigrated := (Host.Outcome.next.inj ht).symm
  rw [hmigrated, absentCoreMigrated_last] at hlast
  exact absurd hlast (by decide)

end Sys2Proof.Machine
end

section
/-! SUPPORT. A power-state change that comes while an arming is settled waits for it (01_architecture.md R29; 17_power_thermal.md R402): the
STEP_ARM of an IDLE tile whose forced resets run is in progress, and the tile has no boundary action. -/

namespace Sys2Proof.Machine

/-- Tile 0 is IDLE, and a STEP_ARM of it has begun its forced resets; session 0 may ask for a power state. -/
def armingState : State :=
  { regs := [(R.SESS_STAT 0, 7)]
    ids := 1
    splits := [{ id := 0, opcode := 0x30, session := 0, tag := 1, stage := 2, params := [1, 0] }] }

/-- A POWER_STATE that brings tile 0 to STANDBY. -/
def standbyReq : Req := { tag := 2, params := [1, 0, 1, 0, 0] }

/-- What the request makes of it. -/
def armingAsked : State := doPowerState standbyReq armingState

theorem armingState_runs : armingState.runs 0x76 standbyReq = true := by decide

/-- Nothing is due at the boundary of tile 0: no STEP_ARM waits for it, and none waits for its levels to settle. -/
theorem armingState_calm : Calm armingState 0 := by
  refine ⟨rfl, rfl, rfl, rfl, by decide, rfl, by decide, ?_, by decide⟩
  intro x hx _
  rw [List.mem_singleton.1 hx]
  decide

theorem armingState_waits : armingAsked.flag (R.TILE_PWR_BUSY 0) = false := by decide +kernel

/-- Refutes O53: the transition of an IDLE tile to another state does not begin at once while its STEP_ARM is in progress. -/
theorem not_powerStates : ¬ Obligations.PowerStates := by
  unfold Obligations.PowerStates
  intro h
  obtain ⟨hask, -⟩ := h
  have hidle := (hask standbyReq armingState 0 armingState_runs (by decide) (by decide) (by decide) (by decide) (by decide) (by decide)
    armingState_calm).2
  obtain ⟨t, ht, -, -, hbusy, -⟩ := hidle (by decide) (by decide) rfl (by decide) (by decide)
  have hasked : t = armingAsked := (Host.Outcome.next.inj ht).symm
  rw [hasked, armingState_waits] at hbusy
  exact absurd hbusy (by decide)

end Sys2Proof.Machine
end

section
/-! SUPPORT. A sample of the thermal sensors (17_power_thermal.md R404 to R406). -/

namespace Sys2Proof.Machine

variable {s₀ s t : State}

/-- A sensor that has not failed and that its neighbours bear out contributes its reading. -/
theorem State.sense_agrees {r : List Int} {x : Int} {n : Nat} (hok : s.sensorFailed n = false) (hdis : (s.sense r x n).disagree = false)
    (hdecl : (s.sense r x n).declared = false) (y : Int) :
    (s.sense r y n).value = r.getD n 0 ∧ (s.sense r y n).subst = false ∧ (s.sense r y n).disagree = false ∧ (s.sense r y n).declared = false := by
  unfold State.sense at hdis hdecl ⊢
  dsimp only at hdis hdecl ⊢
  rw [if_neg (by simp [hok])] at hdis hdecl ⊢
  split
  · exact ⟨rfl, rfl, rfl, rfl⟩
  · next hmany =>
    rw [if_neg hmany] at hdis hdecl
    split
    · exact ⟨rfl, rfl, rfl, rfl⟩
    · next hfar =>
      rw [if_neg hfar] at hdis hdecl
      by_cases hlong : 12 ≤ Store.get (fun _ => 0) s.therm.dis n + 1
      · rw [if_pos hlong] at hdecl
        exact nomatch (show true = false from hdecl)
      · rw [if_neg hlong] at hdis
        exact nomatch (show true = false from hdis)

/-- What a sample changes before it triggers anything: registers of the power block and of tiles and channels, and the sensors' history; no step is
touched. -/
structure Sampled (s t : State) : Prop where
  same : { t with regs := s.regs, therm := s.therm, tiles := s.tiles, freeCtr := s.freeCtr } = s
  regs : RegsSame (fun a => inBlock 0x70000 a || decide (0x100000 ≤ a)) s t
  step : ∀ u, u < 64 → StepSame u s t
  wraps : ∀ u, (t.tile u).wraps = (s.tile u).wraps

namespace Sampled

theorem refl (s : State) : Sampled s s := ⟨rfl, fun _ _ => rfl, fun _ _ => .refl s, fun _ => rfl⟩

theorem trans (h : Sampled s₀ s) (k : Sampled s t) : Sampled s₀ t :=
  ⟨(congrArg (fun x : State => ({ x with regs := s₀.regs, therm := s₀.therm, tiles := s₀.tiles, freeCtr := s₀.freeCtr } : State))
      k.same).trans h.same,
    h.regs.trans k.regs, fun u hu => (h.step u hu).trans (k.step u hu), fun u => (k.wraps u).trans (h.wraps u)⟩

theorem mem (h : Sampled s t) : t.mem = s.mem := (congrArg State.mem h.same :)
theorem staged (h : Sampled s t) : t.staged = s.staged := (congrArg State.staged h.same :)
theorem held (h : Sampled s t) : t.held = s.held := (congrArg State.held h.same :)
theorem sysTime (h : Sampled s t) : t.sysTime = s.sysTime := (congrArg State.sysTime h.same :)

/-- A register of the power block. -/
theorem rset (h : Sampled s₀ s) {a : Nat} (ha : inBlock 0x70000 a = true) (v : Word) : Sampled s₀ (s.rset a v) :=
  h.trans ⟨rfl, RegsSame.rset s (by rw [ha]; rfl) v,
    fun u _ => (StepSame.refl s).rset (by rintro rfl; exact absurd ha (by simp [inBlock, R.SEQ_STATUS]; omega)) v, fun _ => rfl⟩

/-- A register of a tile or a channel that holds no step. -/
theorem rset_high (h : Sampled s₀ s) {a : Nat} (ha : 0x100000 ≤ a) (hne : ∀ u, u < 64 → a ≠ R.SEQ_STATUS u) (v : Word) : Sampled s₀ (s.rset a v) :=
  h.trans ⟨rfl, RegsSame.rset s (Bool.or_eq_true_iff.2 (.inr (decide_eq_true ha))) v, fun u hu => (StepSame.refl s).rset (hne u hu) v, fun _ => rfl⟩

theorem suspectFlag (h : Sampled s₀ s) (u n : Nat) : Sampled s₀ (s.suspectFlag u n) := by
  refine h.trans ⟨rfl, fun _ _ => rfl, fun v _ => (StepSame.refl s).suspectFlag u n, fun v => ?_⟩
  rw [State.suspectFlag, State.tile_modTile]
  split
  · next h => rw [h]
  · rfl

theorem setFlag (h : Sampled s₀ s) {f : Fld} (hf : inBlock 0x70000 f.addr = true) (b : Bool) : Sampled s₀ (s.setFlag f b) := h.rset hf _

theorem holdsStep (h : Sampled s t) : t.holdsStep = s.holdsStep := by
  have hin : t.tilesIn inStep = s.tilesIn inStep :=
    List.filter_congr fun u hu => by rw [(h.step u (List.mem_range.1 hu)).stepState]
  rw [State.holdsStep, hin, State.holdsStep]

theorem ending (h : Sampled s t) {u : Nat} (hu : u < 64) : t.ending u = s.ending u := by
  have hstep := h.step u hu
  rw [State.ending, State.ending, hstep.stepState, hstep.lastE, hstep.endE, State.tileTime, State.tileTime, h.wraps, State.now, State.now, h.sysTime]

end Sampled

theorem State.syncStale_sampled (s : State) (ch : Nat) : Sampled s (s.syncStale ch) := by
  unfold State.syncStale
  extract_lets bits s₁
  have h₁ : Sampled s s₁ := (Sampled.refl s).rset_high (by simp; omega) (fun u hu => chanReg_ne_status hu) _
  split
  · exact (h₁.rset_high (by simp; omega)
      (fun u _ => tileReg_ne_status (by decide) (by decide)) _).suspectFlag ..
  · exact h₁

/-! ## The readings -/

/-- The word of THS_READ that shows a sample of a sensor. -/
def Sense.word (x : Sense) : Word := BitVec.ofNat 32 (unsigned 16 x.value + 65536 * x.subst.toNat + 131072 * x.disagree.toNat)

theorem State.senseStore_sampled (s : State) {n : Nat} (hn : n < 152) (x : Sense) : Sampled s (s.senseStore n x) := by
  have hin : inBlock 0x70000 (R.THS_READ n) = true := decide_eq_true (by unfold R.THS_READ; omega)
  have hread : Sampled s (s.rset (R.THS_READ n) x.word) := (Sampled.refl s).rset hin _
  exact hread.trans ⟨rfl, fun _ _ => rfl, fun u _ => (StepSame.refl _).upd rfl rfl, fun _ => rfl⟩

/-- The samples of the first sensors enter their registers and histories. -/
def State.sampleTo (s : State) (x : Nat → Sense) (k : Nat) : State := (List.range k).foldl (fun s n => s.senseStore n (x n)) s

theorem State.sampleTo_succ (s : State) (x : Nat → Sense) (k : Nat) : s.sampleTo x (k + 1) = (s.sampleTo x k).senseStore k (x k) := by
  rw [State.sampleTo, List.range_succ, List.foldl_append]
  rfl

theorem State.sampleTo_sampled (s : State) (x : Nat → Sense) {k : Nat} (hk : k ≤ 152) : Sampled s (s.sampleTo x k) :=
  List.foldlRecOn (motive := Sampled s) _ _ (.refl s) fun r hr _ hn => hr.trans (r.senseStore_sampled ((List.mem_range.1 hn).trans_le hk) _)

theorem State.sampleTo_read (s : State) (x : Nat → Sense) (k : Nat) : ∀ n, n < k → (s.sampleTo x k).rget (R.THS_READ n) = (x n).word := by
  induction k with
  | zero => exact fun n hn => absurd hn (Nat.not_lt_zero n)
  | succ k ih =>
    intro n hn
    rw [State.sampleTo_succ]
    by_cases hnk : n = k
    · exact hnk ▸ State.rget_rset_same ..
    · exact (State.rget_rset_other _ _ (by unfold R.THS_READ; omega)).trans (ih n (by omega))

/-- Behind a first sample no sensor has more than one contribution on record. -/
theorem State.sampleTo_hist (s : State) (x : Nat → Sense) (hempty : s.therm.hist = []) (k n : Nat) :
    Store.get (fun _ => []) (s.sampleTo x k).therm.hist n = if n < k then [(x n).value] else [] := by
  induction k with
  | zero =>
    rw [if_neg (Nat.not_lt_zero n)]
    show Store.get (fun _ => []) s.therm.hist n = []
    rw [hempty]
    rfl
  | succ k ih =>
    have hput : (s.sampleTo x (k + 1)).therm.hist = Store.put (fun _ => []) (s.sampleTo x k).therm.hist k
        ((Store.get (fun _ => []) (s.sampleTo x k).therm.hist k ++ [(x k).value]).drop
          ((Store.get (fun _ => []) (s.sampleTo x k).therm.hist k).length - 7)) := by
      rw [State.sampleTo_succ]
      rfl
    rw [hput, Store.get_put]
    by_cases hnk : n = k
    · subst hnk
      rw [if_pos rfl, ih, if_neg (lt_irrefl n), if_pos (Nat.lt_succ_self n)]
      rfl
    · rw [if_neg hnk, ih]
      exact if_congr (by omega) rfl rfl

/-- The highest of a list of contributions. -/
theorem foldl_highest {l : List (Nat × Sense)} {v : Int} (hle : ∀ e ∈ l, e.2.value ≤ v) :
    ∀ m : Nat × Int, m.2 ≤ v → (m.2 = v ∨ ∃ e ∈ l, e.2.value = v) →
      (l.foldl (fun m e => if m.2 < e.2.value then (e.1, e.2.value) else m) m).2 = v := by
  induction l with
  | nil => exact fun m _ h => h.resolve_right fun ⟨_, he, _⟩ => absurd he List.not_mem_nil
  | cons a l ih =>
    intro m hm h
    have ha : a.2.value ≤ v := hle a List.mem_cons_self
    rw [List.foldl_cons]
    refine ih (fun e he => hle e (List.mem_cons_of_mem _ he)) _ (by split <;> assumption) ?_
    rcases h with h | ⟨e, he, h⟩
    · left
      rw [if_neg (by omega), h]
    · rcases List.mem_cons.1 he with rfl | he
      · left
        split
        · exact h
        · show m.2 = v
          omega
      · exact .inr ⟨e, he, h⟩

/-! ## The rate warning and SF3 -/

theorem steeper_of_short {h : List Int} (hh : h.length < 8) (rate : Int) : steeper h rate = false := by
  simp [steeper, slope, hh]

/-- With a short history no sensor sets the rate warning. -/
theorem State.rateWarn_short (hsteep : s.therm.steep = []) :
    Sampled s s.rateWarn.1 ∧ s.rateWarn.2 = none ∧ s.rateWarn.1.therm.hist = s.therm.hist ∧
      RegsSame (fun a => a == R.THR_STATUS) s s.rateWarn.1 := by
  unfold State.rateWarn
  extract_lets h now first calm was th s₁
  have hfirst : first = none := List.find?_eq_none.2 fun n _ => by simp [hsteep]
  rw [if_neg (by simp [hfirst])]
  have h₁ : Sampled s s₁ := ⟨rfl, fun _ _ => rfl, fun u _ => (StepSame.refl s).upd rfl rfl, fun _ => rfl⟩
  exact ⟨h₁.setFlag (by decide) _, rfl, rfl, RegsSame.rset s₁ (by decide) _⟩

/-- What of SF3 begins where no sensor's rate is too high: the temperature alone, and where it has not begun before. -/
theorem State.sf3Begin_temperature (hot : Bool) (hnew : hot = true → (0x60000, 3, 0xFFFF) ∉ s.held) :
    ∃ held, s.sf3Begin [(3, hot), (4, false)] = (if hot then [3] else [], { s with held := held }) := by
  cases hot
  · exact ⟨_, rfl⟩
  · refine ⟨_, Prod.ext ?_ rfl⟩
    simp [State.sf3Begin, hnew rfl]

/-- No source sets: nothing happens. -/
theorem State.raises_nil (s : State) (inj : Bool) : s.raises [] inj = s := by
  have hacts : s.faultRaises [] inj = s := by simp [State.faultRaises, sortBy, State.faultActs, State.strongest]
  simp [State.raises, State.strongest, hacts]

/-- A number that a field of 16 bits shows in two's complement. -/
theorem signed_unsigned {v : Int} (hlo : -32768 ≤ v) (hhi : v < 32768) : unsigned 16 v < 2 ^ 16 ∧ signed 16 (unsigned 16 v) = v := by
  unfold signed unsigned
  norm_num
  omega

/-- A temperature in the low half of a register. -/
theorem State.signed_low_half {a k : Nat} {v : Int} (hlo : -32768 ≤ v) (hhi : v < 32768)
    (hword : s.rget a = BitVec.ofNat 32 (65536 * k + unsigned 16 v)) : signed 16 (s.fget ⟨a, 15, 0⟩) = v := by
  obtain ⟨hlt, hsigned⟩ := signed_unsigned hlo hhi
  have hfield : s.fget ⟨a, 15, 0⟩ = unsigned 16 v := by
    show (s.rget a).toNat / 2 ^ 0 % 2 ^ 16 = _
    rw [hword, BitVec.toNat_ofNat]
    omega
  rw [hfield, hsigned]

/-- What a sample makes of the state before SF3 triggers or does not: its readings, the highest of them, and nothing of any step. -/
structure SampleShown (l : List Int) (v : Int) (s t : State) : Prop where
  sampled : Sampled s t
  read : ∀ n, n < 152 → signed 16 (t.fget (R.THS_READ_TEMP n)) = l.getD n 0
  top : signed 16 (t.fget R.TJ_MAX_TEMP) = v

/-- Nothing that a reading or the highest of them is shown in changes. -/
theorem SampleShown.trans {l : List Int} {v : Int} (h : SampleShown l v s₀ s) (k : Sampled s t)
    (hregs : RegsSame (fun a => a == R.THR_STATUS || decide (0x100000 ≤ a)) s t) : SampleShown l v s₀ t where
  sampled := h.sampled.trans k
  read n hn := by
    have hread : t.rget (R.THS_READ n) = s.rget (R.THS_READ n) := 
      hregs _ (Bool.or_eq_false_iff.2 ⟨beq_false_of_ne (by unfold R.THS_READ R.THR_STATUS; omega), decide_eq_false (by unfold R.THS_READ; omega)⟩)
    rw [State.fget_congr (f := R.THS_READ_TEMP n) hread]
    exact h.read n hn
  top := by
    rw [State.fget_congr (f := R.TJ_MAX_TEMP) (hregs _ (by decide))]
    exact h.top

theorem SampleShown.stale {l : List Int} {v : Int} (h : SampleShown l v s₀ s) :
    SampleShown l v s₀ ((List.range 1024).foldl (fun s ch => if s.power (ch / 16) = 3 then s else s.syncStale ch) s) := by
  generalize List.range 1024 = chs
  refine List.foldlRecOn (motive := SampleShown l v s₀) _ _ h fun r hr ch _ => ?_
  split
  · exact hr
  · refine hr.trans (r.syncStale_sampled ch) ?_
    unfold State.syncStale
    extract_lets bits r₁
    have h₁ : RegsSame (fun a => a == R.THR_STATUS || decide (0x100000 ≤ a)) r r₁ :=
      RegsSame.rset r (Bool.or_eq_true_iff.2 (.inr (decide_eq_true (show 0x100000 ≤ R.CH_CAL_STAT ch by unfold R.CH_CAL_STAT; omega)))) _
    split
    · have hflag : 0x100000 ≤ (R.TILE_CAL_FLAGS_STALE (ch / 16)).addr := show 0x100000 ≤ R.TILE_CAL_FLAGS (ch / 16) by unfold R.TILE_CAL_FLAGS; omega
      have h₂ := (Suspects.setFlag r₁ hflag true).trans (State.suspectFlag_suspects _ (ch / 16) Sf.calStale)
      exact h₁.trans (h₂.regs.mono fun a ha => by rw [ha, Bool.or_true])
    · exact h₁

theorem doThermalSample_shown {l : List Int} {v : Int} (hle : ∀ n, n < 152 → -32768 ≤ l.getD n 0 ∧ l.getD n 0 ≤ v ∧ v < 32768)
    (hex : ∃ n, n < 152 ∧ l.getD n 0 = v) (hhist : s.therm.hist = []) (hsteep : s.therm.steep = [])
    (hok : ∀ n, n < 152 → s.sensorFailed n = false ∧ (s.sense l 0 n).disagree = false ∧ (s.sense l 0 n).declared = false)
    (hnew : 920 < v → (0x60000, 3, 0xFFFF) ∉ s.held) :
    ∃ r held, SampleShown l v s r ∧
      doThermalSample l s = if 920 < v then State.sf3 { r with held := held } [3] [] else { r with held := held } := by
  unfold doThermalSample
  rcases hfree : s.free with ⟨w, s₁⟩
  have hs₁ : s₁ = { s with freeCtr := s.freeCtr + 1 } := (congrArg Prod.snd hfree).symm
  have h₁ : Sampled s s₁ := hs₁ ▸ ⟨rfl, fun _ _ => rfl, fun u _ => (StepSame.refl s).upd rfl rfl, fun _ => rfl⟩
  have hsense (n : Nat) (hn : n < 152) := State.sense_agrees (s := s₁) (x := 0) (by rw [hs₁]; exact (hok n hn).1) (by rw [hs₁]; exact (hok n hn).2.1)
    (by rw [hs₁]; exact (hok n hn).2.2) (w.setWidth 16).toInt
  dsimp -zeta only
  extract_lets m s₂ declared s₃ top s₄ hist s₅ s₆ s₇ also
  have hm : ∀ e ∈ m, e.2.value = l.getD e.1 0 ∧ e.1 < 152 ∧ e.2.declared = false := fun e he => by
    obtain ⟨n, hn, rfl⟩ := List.mem_map.1 he
    obtain ⟨hvalue, -, -, hdecl⟩ := hsense n (List.mem_range.1 hn)
    exact ⟨hvalue, List.mem_range.1 hn, hdecl⟩
  have hnone : declared = [] := List.filter_eq_nil_iff.2 fun e he => by simp [(hm e he).2.2]
  have hvalue (n : Nat) (hn : n < 152) : (n, s₁.sense l (w.setWidth 16).toInt n) ∈ m := List.mem_map.2 ⟨n, List.mem_range.2 hn, rfl⟩
  have hhead : (m.headD (0, { value := 0 })).2.value ≤ v := by
    obtain ⟨e, m', hcons⟩ := List.exists_cons_of_ne_nil (List.ne_nil_of_mem (hvalue 0 (by decide)))
    obtain ⟨he, hn, -⟩ := hm e (hcons ▸ List.mem_cons_self)
    rw [hcons]
    exact he.trans_le (hle _ hn).2.1
  have htop : top.2 = v := by
    refine foldl_highest (fun e he => ?_) _ ?_ ?_
    · obtain ⟨hvalue, hn, -⟩ := hm e he
      rw [hvalue]
      exact (hle _ hn).2.1
    · exact hhead
    · obtain ⟨n, hn, hv⟩ := hex
      exact .inr ⟨_, hvalue n hn, (hsense n hn).1.trans hv⟩
  have hs₂ : s₂ = s₁.sampleTo (fun n => s₁.sense l (w.setWidth 16).toInt n) 152 := List.foldl_map
  have hs₃ : s₃ = s₂ := by rw [show s₃ = List.foldl _ s₂ declared from rfl, hnone, List.foldl_nil]
  have hvrange : -32768 ≤ v ∧ v < 32768 := by
    obtain ⟨n, hn, hv⟩ := hex
    have := hle n hn
    omega
  have hhist₁ : s₁.therm.hist = [] := by rw [hs₁]; exact hhist
  have hshown : SampleShown l v s s₄ := by
    have h₃ : Sampled s s₃ := hs₃ ▸ hs₂ ▸ h₁.trans (State.sampleTo_sampled _ _ le_rfl)
    refine ⟨h₃.rset (by decide) _, fun n hn => ?_, State.signed_low_half hvrange.1 hvrange.2 (k := top.1) ?_⟩
    · obtain ⟨hvalue, hsubst, hdis, -⟩ := hsense n hn
      refine State.signed_low_half (a := R.THS_READ n) (k := 0) (hle n hn).1 ((hle n hn).2.1.trans_lt hvrange.2) ?_
      rw [State.rget_rset_other _ _ (by unfold R.THS_READ R.TJ_MAX; omega), hs₃, hs₂, State.sampleTo_read _ _ _ n hn, Sense.word, hvalue, hsubst,
        hdis]
      simp
    · rw [State.rget_rset_same, htop]
  have hsteep₄ : s₄.therm.steep = [] := by
    have hsteep₁ : s₁.therm.steep = [] := by rw [hs₁]; exact hsteep
    show s₃.therm.steep = []
    rw [hs₃, hs₂]
    exact List.foldlRecOn (motive := fun r : State => r.therm.steep = []) _ _ hsteep₁ fun r hr _ _ => hr
  obtain ⟨hwarn, hsilent, hkept, hwregs⟩ := State.rateWarn_short hsteep₄
  have hshort : ∀ n, (Store.get (fun _ => []) hist n).length < 8 := fun n => by
    have hsame : hist = s₂.therm.hist := hkept.trans (congrArg (fun r : State => r.therm.hist) hs₃ : s₃.therm.hist = _)
    rw [hsame, hs₂, State.sampleTo_hist _ _ hhist₁]
    split <;> simp
  have hcalm : ((List.range 152).any fun n => steeper (Store.get (fun _ => []) hist n) 25) = false :=
    List.any_eq_false.2 fun n _ => by simp [steeper_of_short (hshort n)]
  have hshown₅ : SampleShown l v s s₅ :=
    (hshown.trans hwarn (hwregs.mono fun a ha => by rw [ha]; rfl)).stale
  rw [hcalm, htop]
  have hheld : s₅.held = s.held := hshown₅.sampled.held
  obtain ⟨held, hbegin⟩ := State.sf3Begin_temperature (s := s₅) (decide (920 < v)) fun h => by
    rw [hheld]
    exact hnew (of_decide_eq_true h)
  have hs₆ : s₆ = { s₅ with held := held } := by
    rw [show s₆ = List.foldl _ _ declared from rfl, hnone, List.foldl_nil, hcalm, htop, hbegin]
  have hs₇ : s₇ = s₆ := by
    show (match s₄.rateWarn.2 with | none => s₆ | some n => _) = s₆
    rw [hsilent]
  have halso : also = [] := by
    show List.map _ declared ++ (if s₄.rateWarn.2.isSome = true then _ else []) = []
    rw [hnone, hsilent]
    rfl
  refine ⟨s₅, held, hshown₅, ?_⟩
  rw [hbegin, hs₇, hs₆, halso]
  by_cases hhot : 920 < v
  · rw [if_pos hhot, decide_eq_true hhot]
    rw [if_pos (rfl : true = true)]
    exact if_neg Bool.false_ne_true
  · rw [if_neg hhot, decide_eq_false hhot]
    exact State.raises_nil ..

end Sys2Proof.Machine
end

section
/-! SUPPORT. SF3 for the temperature while no step is held: the front ends lose their power (15_safety_faults.md R365). -/

namespace Sys2Proof.Machine

variable {s₀ s t : State}

/-- A bit of a register that a flag names. -/
theorem State.flag_eq_getLsbD (s : State) (a n : Nat) : s.flag ⟨a, n, n⟩ = (s.rget a).getLsbD n := by
  show ((s.rget a).toNat / 2 ^ n % 2 ^ (n - n + 1) != 0) = (s.rget a).toNat.testBit n
  rw [Nat.sub_self, Nat.testBit_eq_decide_div_mod_eq]
  rcases Nat.mod_two_eq_zero_or_one ((s.rget a).toNat / 2 ^ n) with h | h <;> simp [h]

/-- Every channel of a list in the pin safe state. -/
theorem foldl_chSafe (s : State) (l : List Nat) :
    PinsOnly (fun a => decide (0x100000 ≤ a)) s (l.foldl (fun s ch => s.chSafe ch) s) ∧
      ∀ ch ∈ l, ((l.foldl (fun s ch => s.chSafe ch) s).chan ch).safe = true := by
  have hone (r : State) (ch : Nat) : PinOnly (fun a => decide (0x100000 ≤ a)) ch r (r.chSafe ch) :=
    (PinOnly.refl r).chSafe.inChan.mono fun a ha => decide_eq_true ((show 0x100000 ≤ 0x500000 by decide).trans (inChan_ge ha))
  refine ⟨List.foldlRecOn (motive := PinsOnly _ s) _ _ (.refl s) fun r hr ch _ => hr.trans (hone r ch).toPinsOnly, ?_⟩
  refine foldl_establishes (I := fun _ => True) (P := fun ch r => (r.chan ch).safe = true) trivial (fun _ _ _ _ => trivial)
    (fun r ch _ _ => (State.chan_chSafe r ch).1) fun r ch _ k _ hne _ hsafe => ?_
  rw [(hone r k).others ch hne]
  exact hsafe

/-- Front ends are shut down: their channels are safe, the DSE outputs drop where SF_CFG selects it, and FE_OFF shows it. -/
def State.frontEndsOff (s : State) (chs : List Nat) : State :=
  let s := chs.foldl (fun s ch => s.chSafe ch) s
  (if s.flag R.SF_CFG_SF3_DSE then s.dseDrop (2 ^ 64 - 1) else s).setFlag R.SF_STATUS_FE_OFF true

/-- The registers that this may change. -/
def feOffReg (a : Nat) : Bool := decide (0x100000 ≤ a) || sntReg a || a == R.SF_STATUS

theorem State.frontEndsOff_spec (s : State) (chs : List Nat) :
    let t := s.frontEndsOff chs
    t.mem = s.mem ∧ t.staged = s.staged ∧ RegsSame feOffReg s t ∧ (t.rget R.SF_STATUS).getLsbD 8 = true ∧ ∀ ch ∈ chs, (t.chan ch).safe = true := by
  dsimp only
  unfold State.frontEndsOff
  obtain ⟨hpins, hsafe⟩ := foldl_chSafe s chs
  generalize chs.foldl (fun s ch => s.chSafe ch) s = r at hpins hsafe ⊢
  dsimp only
  have hregs : RegsSame feOffReg s r := hpins.regs.mono fun a ha => by simp [feOffReg, ha]
  have hdrop : SntOnly r (if r.flag R.SF_CFG_SF3_DSE then r.dseDrop (2 ^ 64 - 1) else r) := by
    split
    · exact (SntOnly.refl r).dseDrop _
    · exact .refl r
  generalize (if r.flag R.SF_CFG_SF3_DSE then r.dseDrop (2 ^ 64 - 1) else r) = u at hdrop ⊢
  have hregs₂ : RegsSame feOffReg s u := hregs.trans (hdrop.regs.mono fun a ha => by simp [feOffReg, ha])
  have hchans : u.chans = r.chans := (congrArg State.chans hdrop.same :)
  refine ⟨hdrop.mem.trans hpins.mem, hdrop.staged.trans (congrArg State.staged hpins.same :),
    hregs₂.trans (RegsSame.rset u (a := R.SF_STATUS) (p := feOffReg) (by decide) _), ?_, fun ch hch => ?_⟩
  · rw [← State.flag_eq_getLsbD]
    exact State.flag_setFlag_same u (f := R.SF_STATUS_FE_OFF) true (by decide) (by decide)
  · have hchan : ((u.setFlag R.SF_STATUS_FE_OFF true).chan ch) = r.chan ch := by
      show u.chan ch = r.chan ch
      rw [State.chan, hchans, State.chan]
    rw [hchan]
    exact hsafe ch hch

/-- SF3 touches no register of the power block. -/
theorem sf3Regs_power {a : Nat} (ha : 0x70000 ≤ a ∧ a < 0x71000) : (feOffReg a || safetyReg a || counting a) = false := by
  simp [feOffReg, sntReg, safetyReg, raiseReg, counting, fltReg, recordReg, R.SF_STATUS, R.SF_LAST, R.MRN_SEQ, R.MRN_STATUS, R.MRN_OLDEST]
  omega

theorem State.sf3_eq (hnone : s.endSteps (List.range 64) St.hwFault 12 = s) (l : List Nat) :
    s.sf3 l [] = (l.foldl (fun s k => s.safetyNote 3 0xFFFF k) (s.frontEndsOff (List.range 1024))).raises (l.map fun k => (0x60000, k)) := by
  unfold State.sf3
  rw [hnone, List.append_nil]
  rfl

/-- SF3 for the temperature. -/
theorem State.sf3_temperature (hstep : s.holdsStep = false) (hend : ∀ u, u < 64 → s.ending u = false) (hmild : Mild s 0x60000 3) :
    let t := s.sf3 [3] []
    t.mem = s.mem ∧ RegsSame (fun a => feOffReg a || safetyReg a || counting a) s t ∧ t.flag R.SF_STATUS_FE_OFF = true ∧
      (t.rget R.SF_STATUS).getLsbD 2 = true ∧ (t.rget (R.FLT_REAL 0x60000)).getLsbD 3 = true ∧ ∀ ch, ch < 1024 → (t.chan ch).safe = true := by
  have heq : s.sf3 [3] [] = ((s.frontEndsOff (List.range 1024)).safetyNote 3 0xFFFF 3).raise 0x60000 3 := by
    rw [State.sf3_eq (State.endSteps_eq_self hstep hend), List.foldl_cons, List.foldl_nil, List.map_cons, List.map_nil, State.raise]
  obtain ⟨hmem, hstaged, hregs, hoff, hsafe⟩ := s.frontEndsOff_spec (List.range 1024)
  dsimp only
  rw [heq]
  generalize s.frontEndsOff (List.range 1024) = u at hmem hstaged hregs hoff hsafe
  obtain ⟨hnote, hnstaged, hstatus⟩ := u.safetyNote_logs 3 0xFFFF 3
  generalize u.safetyNote 3 0xFFFF 3 = v at hnote hnstaged hstatus
  obtain ⟨hroom, hact⟩ := hmild
  have hreact : v.rget (R.FLT_REACT 0x60000 (3 / 8)) = s.rget (R.FLT_REACT 0x60000 (3 / 8)) :=
    (hnote.rget (by decide) (by decide)).trans (hregs _ (by decide))
  obtain ⟨hraise, hbit⟩ := State.raise_spec (s := v) (b := 0x60000) (src := 3) (by decide) (by decide) (by rw [hnstaged, hstaged]; omega)
    (by rwa [State.nibble, hreact])
  generalize v.raise 0x60000 3 = t at hraise hbit
  have hsf : t.rget R.SF_STATUS = u.rget R.SF_STATUS ||| BitVec.ofNat 32 (2 ^ (3 - 1)) := (hraise.rget (by decide) (by decide)).trans hstatus
  refine ⟨hraise.mem.trans (hnote.mem.trans hmem), ?_, ?_, ?_, hbit, fun ch hch => ?_⟩
  · refine (hregs.mono fun a ha => by simp [ha]).trans ((hnote.regs.mono fun a ha => ?_).trans (hraise.regs.mono fun a ha => ?_))
    · rcases Bool.or_eq_true_iff.1 ha with ha | ha <;> simp [ha]
    · rcases Bool.or_eq_true_iff.1 ha with ha | ha <;> simp [safetyReg, ha]
  · rw [R.SF_STATUS_FE_OFF, State.flag_eq_getLsbD, hsf, BitVec.getLsbD_or, hoff]
    rfl
  · rw [hsf, BitVec.getLsbD_or]
    exact Bool.or_true _
  · rw [State.chan, hraise.chans, hnote.chans]
    exact hsafe ch (List.mem_range.2 hch)

/-- A sample, whatever it triggers. -/
theorem doThermalSample_spec {l : List Int} {v : Int} (hle : ∀ n, n < 152 → -32768 ≤ l.getD n 0 ∧ l.getD n 0 ≤ v ∧ v < 32768)
    (hex : ∃ n, n < 152 ∧ l.getD n 0 = v) (hhist : s.therm.hist = []) (hsteep : s.therm.steep = [])
    (hok : ∀ n, n < 152 → s.sensorFailed n = false ∧ (s.sense l 0 n).disagree = false ∧ (s.sense l 0 n).declared = false) :
    let t := doThermalSample l s
    (v ≤ 920 → (∀ n, n < 152 → signed 16 (t.fget (R.THS_READ_TEMP n)) = l.getD n 0) ∧ signed 16 (t.fget R.TJ_MAX_TEMP) = v ∧
        t.flag R.SF_STATUS_FE_OFF = s.flag R.SF_STATUS_FE_OFF ∧ t.rget R.SF_STATUS = s.rget R.SF_STATUS ∧ MemSame s t) ∧
      (920 < v → s.holdsStep = false → (∀ u, u < 64 → s.ending u = false) → (0x60000, 3, 0xFFFF) ∉ s.held → Mild s 0x60000 3 →
        (∀ n, n < 152 → signed 16 (t.fget (R.THS_READ_TEMP n)) = l.getD n 0) ∧ signed 16 (t.fget R.TJ_MAX_TEMP) = v ∧
          t.flag R.SF_STATUS_FE_OFF = true ∧ (t.rget R.SF_STATUS).getLsbD 2 = true ∧ (t.rget (R.FLT_REAL 0x60000)).getLsbD 3 = true ∧
          (∀ ch, ch < 1024 → (t.chan ch).safe = true) ∧ MemSame s t) := by
  refine ⟨fun hcool => ?_, fun hhot hstep hend hnew hmild => ?_⟩
  · obtain ⟨r, held, hshown, heq⟩ := doThermalSample_shown hle hex hhist hsteep hok fun h => absurd h (by omega)
    rw [heq, if_neg (by omega)]
    obtain ⟨hsampled, hread, htop⟩ := hshown
    have hstatus : r.rget R.SF_STATUS = s.rget R.SF_STATUS := hsampled.regs _ (by decide)
    exact ⟨hread, htop, State.flag_congr (f := R.SF_STATUS_FE_OFF) hstatus, hstatus, .of_mem hsampled.mem⟩
  · obtain ⟨r, held, hshown, heq⟩ := doThermalSample_shown hle hex hhist hsteep hok fun _ => hnew
    rw [heq, if_pos hhot]
    obtain ⟨hsampled, hread, htop⟩ := hshown
    have hmild' : Mild { r with held := held } 0x60000 3 :=
      hmild.congr hsampled.staged (hsampled.regs _ (by decide))
    obtain ⟨hmem, hregs, hoff, hsf, hbit, hsafe⟩ := State.sf3_temperature (s := { r with held := held }) (hsampled.holdsStep.trans hstep)
      (fun u hu => (hsampled.ending hu).trans (hend u hu)) hmild'
    refine ⟨fun n hn => ?_, ?_, hoff, hsf, hbit, hsafe, .of_mem (hmem.trans hsampled.mem)⟩
    · rw [State.fget_congr (f := R.THS_READ_TEMP n) (hregs _ (sf3Regs_power (by unfold R.THS_READ_TEMP R.THS_READ; dsimp only; omega)))]
      exact hread n hn
    · rw [State.fget_congr (f := R.TJ_MAX_TEMP) (hregs _ (sf3Regs_power (by decide)))]
      exact htop

end Sys2Proof.Machine
end

section
/-! SUPPORT. Throttle evaluations (17_power_thermal.md R407 to R410). -/

namespace Sys2Proof.Machine

variable {s₀ s t : State}

/-- Whether the throttle's rise condition holds. -/
def State.risesAt (s : State) (mw : Nat) : Bool :=
  decide (8 * (s.fget R.THR_CFG_START : Int) ≤ signed 16 (s.fget R.TJ_MAX_TEMP)) || s.flag R.THR_STATUS_RATE_WARN ||
    s.overCap mw (s.fget R.THR_STATUS_LEVEL)

/-- The registers of the power block that an evaluation reads, the mean power apart, and the sensors' history. -/
structure SameHeat (s t : State) : Prop where
  regs : RegsSame (fun a => a == R.PWR_MEAS || counting a) s t
  therm : t.therm = s.therm

namespace SameHeat

theorem rget (h : SameHeat s t) {a : Nat} (ha : a ≠ R.PWR_MEAS) (hc : a < 0x83000) : t.rget a = s.rget a :=
  h.regs a (by simp [ha, counting_of_lt hc])

theorem sensorFailed (h : SameHeat s t) {n : Nat} (hn : n < 256) : t.sensorFailed n = s.sensorFailed n :=
  State.flag_congr (h.rget (by unfold R.THS_FAIL R.PWR_MEAS; dsimp only; omega) (by unfold R.THS_FAIL; dsimp only; omega))

theorem risesAt (h : SameHeat s t) (mw : Nat) : t.risesAt mw = s.risesAt mw := by
  unfold State.risesAt State.overCap
  rw [State.fget_congr (f := R.THR_CFG_START) (h.rget (by decide) (by decide)),
    State.fget_congr (f := R.TJ_MAX_TEMP) (h.rget (by decide) (by decide)),
    State.flag_congr (f := R.THR_STATUS_RATE_WARN) (h.rget (by decide) (by decide)),
    State.fget_congr (f := R.PWR_CFG_BUDGET) (h.rget (by decide) (by decide)),
    State.fget_congr (f := R.THR_STATUS_LEVEL) (h.rget (by decide) (by decide))]

theorem neighbours_lt {n k : Nat} (h : k ∈ neighbours n) : k < 256 :=
  (List.mem_range.1 (List.mem_filter.1 h).1).trans (by decide)

theorem releases (h : SameHeat s t) (mw : Nat) : t.releases mw = s.releases mw := by
  have hhot : t.fget R.THR_STATUS_HOT = s.fget R.THR_STATUS_HOT := State.fget_congr (h.rget (by decide) (by decide))
  have hregion : t.hotRegion.any t.sensorFailed = s.hotRegion.any s.sensorFailed := by
    have hsame : t.hotRegion = s.hotRegion := by rw [State.hotRegion, State.hotRegion, hhot, h.therm]
    rw [hsame, Bool.eq_iff_iff, List.any_eq_true, List.any_eq_true]
    refine exists_congr fun k => and_congr_right fun hk => ?_
    have hlt : k < 256 := by
      unfold State.hotRegion at hk
      split at hk
      · rcases List.mem_cons.1 hk with rfl | hk
        · exact field_lt _ 23 16
        · exact neighbours_lt hk
      · exact absurd hk List.not_mem_nil
    rw [h.sensorFailed hlt]
  have hcool : ((neighbours (s.fget R.THR_STATUS_HOT)).filter fun k =>
        !t.sensorFailed k && decide (signed 16 (t.fget (R.THS_READ_TEMP k)) < 8 * (s.fget R.THR_CFG_RELEASE : Int))) =
      (neighbours (s.fget R.THR_STATUS_HOT)).filter fun k =>
        !s.sensorFailed k && decide (signed 16 (s.fget (R.THS_READ_TEMP k)) < 8 * (s.fget R.THR_CFG_RELEASE : Int)) := by
    refine List.filter_congr fun k hk => ?_
    have hlt := neighbours_lt hk
    have hread : t.fget (R.THS_READ_TEMP k) = s.fget (R.THS_READ_TEMP k) :=
      State.fget_congr (h.rget (by unfold R.THS_READ_TEMP R.THS_READ R.PWR_MEAS; dsimp only; omega)
        (by unfold R.THS_READ_TEMP R.THS_READ; dsimp only; omega))
    rw [h.sensorFailed hlt, hread]
  unfold State.releases State.overCap
  rw [hregion, hhot, State.fget_congr (f := R.TJ_MAX_TEMP) (h.rget (by decide) (by decide)),
    State.flag_congr (f := R.THR_STATUS_RATE_WARN) (h.rget (by decide) (by decide)),
    State.fget_congr (f := R.PWR_CFG_BUDGET) (h.rget (by decide) (by decide)),
    State.fget_congr (f := R.THR_CFG_RELEASE) (h.rget (by decide) (by decide)),
    State.fget_congr (f := R.THR_STATUS_LEVEL) (h.rget (by decide) (by decide))]
  dsimp only
  rw [hcool]

end SameHeat

/-! ## An evaluation -/

/-- An evaluation before it acts: the mean power, the clocks under the throttle, and for how long the rise and the release condition have held. -/
structure Evaluated (w : Word) (s t : State) : Prop where
  regs : RegsSame (fun a => a == R.PWR_MEAS || counting a) s t
  meas : t.rget R.PWR_MEAS = w
  mem : t.mem = s.mem
  staged : t.staged = s.staged
  rise : t.therm.rise = if s.risesAt w.toNat then s.therm.rise + 1 else 0
  fall : t.therm.fall = if s.releases w.toNat then s.therm.fall + 1 else 0

/-- What an evaluation does then: it raises the level or aborts the steps, lowers it, or neither. -/
def State.throttleAct (s : State) (level : Nat) : State :=
  if s.fget R.THR_CFG_RISE < s.therm.rise then
    if level = 7 then if s.therm.aborted then s else State.throttleAbort { s with therm := { s.therm with aborted := true } }
    else (State.fset { s with therm := { s.therm with rise := 1, fall := 0, hot := true } } R.THR_STATUS_HOT (s.fget R.TJ_MAX_SENSOR)).throttleTo
      (level + 1)
  else if 10 * s.fget R.THR_CFG_FALL < s.therm.fall then
    State.throttleTo { s with therm := { s.therm with rise := 0, fall := 1 } } (level - 1)
  else s

theorem doThrottleEvaluation_eq (w : Word) (s : State) :
    ∃ r subst, Evaluated w s r ∧
      doThrottleEvaluation w s = (r.throttleAct (s.fget R.THR_STATUS_LEVEL)).setFlag R.THR_STATUS_SUBST_HOT subst := by
  unfold doThrottleEvaluation
  extract_lets mw level s₁ s₂ up rise fall th r
  have h₁ : RegsSame (fun a => a == R.PWR_MEAS || counting a) s s₁ := RegsSame.rset s (by simp) _
  have h₂ : Counts s₁ s₂ := by
    show Counts s₁ (if level = 0 then s₁ else s₁.evCount 80 250000)
    split
    · exact .refl s₁
    · exact State.evCount_counts ..
  have hregs := h₁.trans (h₂.regs.mono fun a ha => by simp [ha])
  have hheat : SameHeat s s₂ := ⟨hregs, (congrArg State.therm h₂.same :)⟩
  have hlevel : s₂.fget R.THR_STATUS_LEVEL = level := State.fget_congr (hheat.rget (by decide) (by decide))
  have hup : up = s.risesAt mw := by
    rw [← hheat.risesAt, State.risesAt, hlevel]
  refine ⟨r, _, ⟨hregs, ?_, h₂.mem, (congrArg State.staged h₂.same :), ?_, ?_⟩, rfl⟩
  · exact (h₂.regs _ (by decide)).trans (State.rget_rset_same ..)
  · show (if up = true then s₂.therm.rise + 1 else 0) = _
    rw [hup, hheat.therm]
  · show (if s₂.releases mw = true then s₂.therm.fall + 1 else 0) = _
    rw [hheat.releases, hheat.therm]

/-! ## A change of the level, and an abort -/

/-- The throttle has acted: PWR_MEAS and memory are as before. -/
structure Acted (level hot : Nat) (s t : State) : Prop where
  level : t.fget R.THR_STATUS_LEVEL = level
  hot : t.fget R.THR_STATUS_HOT = hot
  meas : t.rget R.PWR_MEAS = s.rget R.PWR_MEAS
  mem : t.mem = s.mem

theorem Acted.of_notes {level hot : Nat} {p : Nat → Bool} (h : Acted level hot s₀ s) (k : Notes p s t)
    (hmeas : (p R.PWR_MEAS || counting R.PWR_MEAS || sessReg R.PWR_MEAS || recordReg R.PWR_MEAS) = false)
    (hstatus : (p R.THR_STATUS || counting R.THR_STATUS || sessReg R.THR_STATUS || recordReg R.THR_STATUS) = false) : Acted level hot s₀ t where
  level := by
    rw [State.fget_congr (f := R.THR_STATUS_LEVEL) (k.rget hstatus)]
    exact h.level
  hot := by
    rw [State.fget_congr (f := R.THR_STATUS_HOT) (k.rget hstatus)]
    exact h.hot
  meas := (k.rget hmeas).trans h.meas
  mem := k.mem.trans h.mem

/-- The registers show the level, and the stages follow it. -/
def State.throttleShow (s : State) (new : Nat) : State :=
  ((s.fset R.THR_STATUS_LEVEL new).fset R.THR_STATUS_STAGES
    ((if 1 ≤ new then 1 else 0) + (if 3 ≤ new then 2 else 0) + (if 5 ≤ new then 4 else 0))).syncSusp

theorem State.throttleShow_acted (s : State) {new : Nat} (hnew : new < 8) : Acted new (s.fget R.THR_STATUS_HOT) s (s.throttleShow new) := by
  have hlevel : Acted new (s.fget R.THR_STATUS_HOT) s (s.fset R.THR_STATUS_LEVEL new) :=
    ⟨(s.fget_fset_same new (by decide) (by decide)).trans (Nat.mod_eq_of_lt hnew),
      s.fget_fset_disjoint new (.inr (by decide)) (by decide) (by decide), State.rget_fset_other _ _ (by decide), rfl⟩
  unfold State.throttleShow
  generalize (if 1 ≤ new then 1 else 0) + (if 3 ≤ new then 2 else 0) + (if 5 ≤ new then 4 else 0) = stages
  have hstages : Acted new (s.fget R.THR_STATUS_HOT) s ((s.fset R.THR_STATUS_LEVEL new).fset R.THR_STATUS_STAGES stages) :=
    ⟨(State.fget_fset_disjoint _ _ (.inl (by decide)) (by decide) (by decide)).trans hlevel.level,
      (State.fget_fset_disjoint _ _ (.inr (by decide)) (by decide) (by decide)).trans hlevel.hot,
      (State.rget_fset_other _ _ (by decide)).trans hlevel.meas, hlevel.mem⟩
  generalize (s.fset R.THR_STATUS_LEVEL new).fset R.THR_STATUS_STAGES stages = r at hstages ⊢
  have hsusp := r.syncSusp_regs
  have hmem : r.syncSusp.mem = r.mem := rfl
  generalize r.syncSusp = t at hsusp hmem ⊢
  have hstatus : t.rget R.THR_STATUS = r.rget R.THR_STATUS := hsusp _ (by decide)
  refine ⟨?_, ?_, (hsusp _ (by decide)).trans hstages.meas, hmem.trans hstages.mem⟩
  · rw [State.fget_congr (f := R.THR_STATUS_LEVEL) hstatus]
    exact hstages.level
  · rw [State.fget_congr (f := R.THR_STATUS_HOT) hstatus]
    exact hstages.hot

/-- Behind the registers come the count, the record and the event of the change. -/
theorem State.throttleTo_notes (s : State) (new : Nat) (hroom : s.staged.length < 128) :
    Notes (fun _ => false) (s.throttleShow new) (s.throttleTo new) := by
  have heq : s.throttleTo new = ((((s.throttleShow new).evCount 81).stage 0x30 [BitVec.ofNat 8 new, BitVec.ofNat 8 (s.fget R.THR_STATUS_LEVEL),
      BitVec.ofNat 8 ((s.throttleShow new).fget R.THR_STATUS_HOT), 0, BitVec.ofNat 8 ((s.throttleShow new).fget R.TJ_MAX_TEMP),
      BitVec.ofNat 8 ((s.throttleShow new).fget R.TJ_MAX_TEMP / 256)] true false).chipEvent 0x200 [BitVec.ofNat 32 new,
      BitVec.ofNat 32 (s.fget R.THR_STATUS_LEVEL), BitVec.ofNat 32 ((s.throttleShow new).fget R.THR_STATUS_HOT)]) := by
    unfold State.throttleTo
    rfl
  have hstaged : (s.throttleShow new).staged = s.staged := rfl
  rw [heq]
  generalize s.throttleShow new = r at hstaged ⊢
  have hcount : Counts r (r.evCount 81) := State.evCount_counts ..
  have hlen : (r.evCount 81).staged.length < 128 := by
    rwa [(congrArg State.staged hcount.same :), hstaged]
  refine (Notes.of_counts hcount).trans (.trans (.of_logs (State.stage_logs _ hlen ..).1 fun a ha => ?_) (.of_reports (State.chipEvent_reports ..)))
  rw [ha, Bool.or_true]

theorem State.throttleTo_acted (s : State) {new : Nat} (hnew : new < 8) (hroom : s.staged.length < 128) :
    Acted new (s.fget R.THR_STATUS_HOT) s (s.throttleTo new) :=
  (s.throttleShow_acted hnew).of_notes (s.throttleTo_notes new hroom) (by decide) (by decide)

/-- With no tile RUNNING an abort sets ABORTED and raises source 2 of the power block. -/
theorem State.throttleAbort_idle {s : State} (hstep : s.tilesIn (· == stRunning) = []) (hmild : Mild s 0x70000 2) :
    s.throttleAbort.rget R.PWR_MEAS = s.rget R.PWR_MEAS ∧ s.throttleAbort.mem = s.mem := by
  have heq : s.throttleAbort = ((s.setFlag R.THR_STATUS_ABORTED true).chipEvent 0x201 [0, 0]).raise 0x70000 2 := by
    unfold State.throttleAbort
    rw [hstep]
    rfl
  rw [heq]
  have hevent := State.chipEvent_reports (fun _ => false) (s.setFlag R.THR_STATUS_ABORTED true) 0x201 [0, 0]
  generalize (s.setFlag R.THR_STATUS_ABORTED true).chipEvent 0x201 [0, 0] = t at hevent ⊢
  have hrget {a : Nat} (ha : a ≠ R.THR_STATUS) (hevt : (false || counting a || sessReg a) = false) : t.rget a = s.rget a :=
    (hevent.regs a hevt).trans (State.rget_fset_other _ _ ha)
  have hmild' : Mild t 0x70000 2 := hmild.congr (congrArg State.staged hevent.same :) (hrget (by decide) (by decide))
  obtain ⟨hraise, -⟩ := hmild'.raise (by decide) (by decide)
  exact ⟨(hraise.rget (by decide) (by decide)).trans (hrget (by decide) (by decide)), hraise.mem.trans hevent.mem⟩

/-! ## What an evaluation leaves -/

theorem Acted.setFlag {level hot : Nat} (h : Acted level hot s t) (b : Bool) : Acted level hot s (t.setFlag R.THR_STATUS_SUBST_HOT b) where
  level := (State.fget_fset_disjoint _ _ (.inl (by decide)) (by decide) (by decide)).trans h.level
  hot := (State.fget_fset_disjoint _ _ (.inr (by decide)) (by decide) (by decide)).trans h.hot
  meas := (State.rget_fset_other _ _ (by decide)).trans h.meas
  mem := h.mem

theorem State.level_lt (s : State) : s.fget R.THR_STATUS_LEVEL < 8 := field_lt _ 2 0

namespace Evaluated

variable {w : Word} {r : State}

theorem rget (h : Evaluated w s r) {a : Nat} (ha : a ≠ R.PWR_MEAS) (hc : counting a = false) : r.rget a = s.rget a :=
  h.regs a (by simp [ha, hc])

theorem level (h : Evaluated w s r) : r.fget R.THR_STATUS_LEVEL = s.fget R.THR_STATUS_LEVEL := State.fget_congr (h.rget (by decide) (by decide))
theorem riseLimit (h : Evaluated w s r) : r.fget R.THR_CFG_RISE = s.fget R.THR_CFG_RISE := State.fget_congr (h.rget (by decide) (by decide))
theorem fallLimit (h : Evaluated w s r) : r.fget R.THR_CFG_FALL = s.fget R.THR_CFG_FALL := State.fget_congr (h.rget (by decide) (by decide))

theorem hottest (h : Evaluated w s r) : r.fget R.TJ_MAX_SENSOR = s.fget R.TJ_MAX_SENSOR := State.fget_congr (h.rget (by decide) (by decide))

theorem stepState (h : Evaluated w s r) (u : Nat) : r.stepState u = s.stepState u :=
  State.fget_congr (h.rget (by unfold R.SEQ_STATUS_STATE R.SEQ_STATUS R.PWR_MEAS; dsimp only; omega)
    (counting_of_ge (by unfold R.SEQ_STATUS_STATE R.SEQ_STATUS; dsimp only; omega)))

/-- A level below 7 is raised by one behind an evaluation that finds the rise condition held for long enough. -/
theorem raised (h : Evaluated w s r) (hup : s.risesAt w.toNat = true) (hrise : s.fget R.THR_CFG_RISE ≤ s.therm.rise)
    (hlevel : s.fget R.THR_STATUS_LEVEL < 7) (hroom : s.staged.length < 128) :
    Acted (s.fget R.THR_STATUS_LEVEL + 1) (s.fget R.TJ_MAX_SENSOR) r (r.throttleAct (s.fget R.THR_STATUS_LEVEL)) := by
  have hlong : r.fget R.THR_CFG_RISE < r.therm.rise := by
    rw [h.riseLimit, h.rise, if_pos hup]
    omega
  unfold State.throttleAct
  rw [if_pos hlong, if_neg (by omega)]
  generalize hr' : ({ r with therm := { r.therm with rise := 1, fall := 0, hot := true } } : State) = r'
  have hregs : r'.regs = r.regs := by rw [← hr']
  have hmem : r'.mem = r.mem := by rw [← hr']
  have hstaged : r'.staged = r.staged := by rw [← hr']
  have hact := State.throttleTo_acted (r'.fset R.THR_STATUS_HOT (r.fget R.TJ_MAX_SENSOR)) (new := s.fget R.THR_STATUS_LEVEL + 1) (by omega)
    (by show r'.staged.length < 128; rw [hstaged, h.staged]; exact hroom)
  refine ⟨hact.level, hact.hot.trans ?_, ?_, hact.mem.trans hmem⟩
  · rw [State.fget_fset_same _ _ (by decide) (by decide), ← h.hottest]
    exact Nat.mod_eq_of_lt (field_lt _ 23 16)
  · rw [hact.meas, State.rget_fset_other _ _ (by decide), State.rget, State.rget, hregs]

/-- A level is lowered by one behind an evaluation that finds the release condition held for long enough. -/
theorem lowered (h : Evaluated w s r) (hup : s.risesAt w.toNat = false) (hrel : s.releases w.toNat = true)
    (hfall : 10 * s.fget R.THR_CFG_FALL ≤ s.therm.fall) (hroom : s.staged.length < 128) :
    Acted (s.fget R.THR_STATUS_LEVEL - 1) (s.fget R.THR_STATUS_HOT) r (r.throttleAct (s.fget R.THR_STATUS_LEVEL)) := by
  have hshort : ¬r.fget R.THR_CFG_RISE < r.therm.rise := by
    rw [h.rise, if_neg (by rw [hup]; exact Bool.false_ne_true)]
    exact Nat.not_lt_zero _
  have hlong : 10 * r.fget R.THR_CFG_FALL < r.therm.fall := by
    rw [h.fallLimit, h.fall, if_pos hrel]
    omega
  have hlevel := s.level_lt
  unfold State.throttleAct
  rw [if_neg hshort, if_pos hlong]
  generalize hr' : ({ r with therm := { r.therm with rise := 0, fall := 1 } } : State) = r'
  have hregs : r'.regs = r.regs := by rw [← hr']
  have hmem : r'.mem = r.mem := by rw [← hr']
  have hstaged : r'.staged = r.staged := by rw [← hr']
  have hget (a : Nat) : r'.rget a = r.rget a := by rw [State.rget, State.rget, hregs]
  have hact := State.throttleTo_acted r' (new := s.fget R.THR_STATUS_LEVEL - 1) (by omega) (by rw [hstaged, h.staged]; exact hroom)
  exact ⟨hact.level, hact.hot.trans ((State.fget_congr (hget _)).trans (State.fget_congr (h.rget (by decide) (by decide)))),
    hact.meas.trans (hget _), hact.mem.trans hmem⟩

/-- Neither condition has held for long enough: the throttle does nothing. -/
theorem kept (h : Evaluated w s r) (hrise : s.risesAt w.toNat = true → s.therm.rise < s.fget R.THR_CFG_RISE) (hrel : s.releases w.toNat = false)
    (level : Nat) : r.throttleAct level = r := by
  have hshort : ¬r.fget R.THR_CFG_RISE < r.therm.rise := by
    rw [h.riseLimit, h.rise]
    split
    case isTrue hup =>
      have := hrise hup
      omega
    case isFalse => exact Nat.not_lt_zero _
  have hfall : ¬10 * r.fget R.THR_CFG_FALL < r.therm.fall := by
    rw [h.fall, if_neg (by rw [hrel]; exact Bool.false_ne_true)]
    exact Nat.not_lt_zero _
  unfold State.throttleAct
  rw [if_neg hshort, if_neg hfall]

/-- With no step held, whatever the throttle does leaves PWR_MEAS and memory. -/
theorem acts (h : Evaluated w s r) (hstep : s.holdsStep = false) (hmild : Mild s 0x70000 2) {level : Nat} (hlevel : level < 8) :
    (r.throttleAct level).rget R.PWR_MEAS = w ∧ (r.throttleAct level).mem = s.mem := by
  obtain ⟨hroom, -⟩ := id hmild
  have hlen : r.staged.length < 128 := by
    rw [h.staged]
    omega
  unfold State.throttleAct
  split_ifs with hrise h7 habort
  · exact ⟨h.meas, h.mem⟩
  · have hidle : r.tilesIn (· == stRunning) = [] := by
      refine List.filter_eq_nil_iff.2 fun u hu hrun => ?_
      rw [h.stepState] at hrun
      have hstepping : u ∈ s.tilesIn inStep := List.mem_filter.2 ⟨hu, Bool.or_eq_true_iff.2 (.inr hrun)⟩
      rw [State.holdsStep, Bool.not_eq_false', List.isEmpty_iff] at hstep
      rw [hstep] at hstepping
      exact List.not_mem_nil hstepping
    obtain ⟨hmeas, hmem⟩ := State.throttleAbort_idle (s := { r with therm := { r.therm with aborted := true } }) hidle
      (hmild.congr h.staged (h.rget (by decide) (by decide)))
    exact ⟨hmeas.trans h.meas, hmem.trans h.mem⟩
  · have hact := State.throttleTo_acted (State.fset { r with therm := { r.therm with rise := 1, fall := 0, hot := true } } R.THR_STATUS_HOT
      (r.fget R.TJ_MAX_SENSOR)) (new := level + 1) (by omega) hlen
    exact ⟨(hact.meas.trans (State.rget_fset_other _ _ (by decide))).trans h.meas, hact.mem.trans h.mem⟩
  · have hact := State.throttleTo_acted { r with therm := { r.therm with rise := 0, fall := 1 } } (new := level - 1) (by omega) hlen
    exact ⟨hact.meas.trans h.meas, hact.mem.trans h.mem⟩
  · exact ⟨h.meas, h.mem⟩

end Evaluated

/-! ## The release of SF3 -/

theorem doSf3Release_held {s : State} (h : (∃ n, n < 152 ∧ 800 ≤ signed 16 (s.fget (R.THS_READ_TEMP n))) ∨ (s.rget R.SF_STATUS).getLsbD 2 = true ∨
    (0x60000, 3, 0) ∈ s.injHeld) : doSf3Release s = s := by
  unfold doSf3Release
  refine if_neg fun hall => ?_
  simp only [Bool.and_eq_true, Bool.not_eq_true', List.all_eq_true, List.mem_range, decide_eq_true_eq] at hall
  obtain ⟨⟨hcool, hclear⟩, hinj⟩ := hall
  rcases h with ⟨n, hn, hwarm⟩ | hset | hheld
  · exact absurd (hcool n hn) (by omega)
  · rw [hset] at hclear
    cases hclear
  · rw [List.contains_iff_mem.2 hheld] at hinj
    cases hinj

theorem doSf3Release_released {s : State} (hcool : ∀ n, n < 152 → signed 16 (s.fget (R.THS_READ_TEMP n)) < 800)
    (hclear : (s.rget R.SF_STATUS).getLsbD 2 = false) (hinj : (0x60000, 3, 0) ∉ s.injHeld) :
    doSf3Release s = s.setFlag R.SF_STATUS_FE_OFF false := by
  unfold doSf3Release
  refine if_pos ?_
  simp only [Bool.and_eq_true, Bool.not_eq_true', List.all_eq_true, List.mem_range, decide_eq_true_eq]
  exact ⟨⟨hcool, hclear⟩, by rwa [← Bool.not_eq_true, List.contains_iff_mem]⟩

/-! ## The obligation -/

/-- Settles O54. That THR_CFG.RISE counts the intervals between evaluations (more than RISE evaluations raise the level) is the model's choice
(log entry 39). -/
theorem sensorsAndThrottle : Obligations.SensorsAndThrottle := by
  unfold Obligations.SensorsAndThrottle
  refine ⟨fun l v s hrange hmax hhist hsteep hgood => ?_, fun s hcool hclear hinj => ?_, fun s h => ?_, fun mw s hstep hmild => ?_, fun mw s => ?_⟩
  case refine_1 =>
    obtain ⟨hcool, hhot⟩ := doThermalSample_spec hrange hmax hhist hsteep hgood
    exact ⟨fun hv => ⟨_, rfl, hcool hv⟩, fun hv hstep hend hheld hmild => ⟨_, rfl, hhot hv hstep hend hheld hmild⟩⟩
  case refine_2 =>
    refine ⟨_, congrArg Host.Outcome.next (doSf3Release_released hcool hclear hinj), s.flag_setFlag_same false (by decide) (by decide), ?_,
      .of_mem rfl⟩
    exact RegsSame.rset s (by simp [R.SF_STATUS_FE_OFF]) _
  case refine_3 => exact congrArg Host.Outcome.next (doSf3Release_held h)
  case refine_4 =>
    obtain ⟨r, subst, hr, heq⟩ := doThrottleEvaluation_eq mw s
    obtain ⟨hmeas, hmem⟩ := hr.acts hstep hmild s.level_lt
    exact ⟨_, congrArg Host.Outcome.next heq, (State.rget_fset_other _ _ (by decide)).trans hmeas, .of_mem hmem⟩
  case refine_5 =>
    intro level up
    obtain ⟨r, subst, hr, heq⟩ := doThrottleEvaluation_eq mw s
    have hexec : exec (.throttleEvaluation mw) s = .next ((r.throttleAct level).setFlag R.THR_STATUS_SUBST_HOT subst) :=
      congrArg Host.Outcome.next heq
    have hup : s.risesAt mw.toNat = true ↔ up := by
      simp only [State.risesAt, Bool.or_eq_true, decide_eq_true_eq, or_assoc]
      rfl
    have hdown (h : ¬up) : s.risesAt mw.toNat = false := Bool.eq_false_iff.2 fun hr => h (hup.1 hr)
    have hregs : RegsSame (fun a => counting a || a == R.PWR_MEAS || a == R.THR_STATUS) s (r.setFlag R.THR_STATUS_SUBST_HOT subst) :=
      (hr.regs.mono fun a ha => by rw [Bool.or_comm (counting a), ha, Bool.true_or]).trans (RegsSame.rset r (by simp [R.THR_STATUS_SUBST_HOT]) _)
    have hactr : Acted level (r.fget R.THR_STATUS_HOT) r (r.setFlag R.THR_STATUS_SUBST_HOT subst) := .setFlag ⟨hr.level, rfl, rfl, rfl⟩ subst
    refine ⟨fun h hrise hlt hroom => ?_, fun h hrise hrel => ?_, fun h hrel => ?_, fun h hrel hfall hroom => ?_⟩
    · have hact := (hr.raised (hup.2 h) hrise hlt (by omega)).setFlag subst
      exact ⟨_, hexec, hact.meas.trans hr.meas, hact.level, hact.hot, .of_mem (hact.mem.trans hr.mem)⟩
    · rw [hr.kept (fun _ => hrise) hrel] at hexec
      refine ⟨_, hexec, hactr.meas.trans hr.meas, hactr.level, ?_, .of_mem (hactr.mem.trans hr.mem), hregs⟩
      exact hr.rise.trans (if_pos (hup.2 h))
    · have hno := hdown h
      rw [hr.kept (fun hyes => absurd hyes (by rw [hno]; exact Bool.false_ne_true)) hrel] at hexec
      refine ⟨_, hexec, hactr.meas.trans hr.meas, hactr.level, ?_, ?_, .of_mem (hactr.mem.trans hr.mem), hregs⟩
      · exact hr.rise.trans (if_neg (by rw [hno]; exact Bool.false_ne_true))
      · exact hr.fall.trans (if_neg (by rw [hrel]; exact Bool.false_ne_true))
    · have hact := (hr.lowered (hdown h) hrel hfall (by omega)).setFlag subst
      exact ⟨_, hexec, hact.level, .of_mem (hact.mem.trans hr.mem)⟩

end Sys2Proof.Machine
end

section
/-! SUPPORT. What an event leaves of the requests in progress, and the fences that are put on record (15_safety_faults.md R377 to R380). -/

namespace Sys2Proof.Machine

variable {s₀ s t : State}

/-- The operations in progress keep their identity, and the packets that wait to be sent stay in front of new ones. -/
structure Talks (s t : State) : Prop where
  begun : ∀ x ∈ s.splits, ∃ y ∈ t.splits, y.opcode = x.opcode ∧ y.session = x.session ∧ y.tag = x.tag ∧ y.params = x.params
  ids : t.splits.map Split.id = s.splits.map Split.id
  txq : ∃ l, t.txq = s.txq ++ l

namespace Talks

theorem refl (s : State) : Talks s s := ⟨fun x hx => ⟨x, hx, rfl, rfl, rfl, rfl⟩, rfl, [], (List.append_nil _).symm⟩

theorem trans (h : Talks s₀ s) (k : Talks s t) : Talks s₀ t := by
  obtain ⟨l, hl⟩ := h.txq
  obtain ⟨m, hm⟩ := k.txq
  refine ⟨fun x hx => ?_, k.ids.trans h.ids, l ++ m, by rw [hm, hl, List.append_assoc]⟩
  obtain ⟨y, hy, hop, hses, htag, hps⟩ := h.begun x hx
  obtain ⟨z, hz, hop', hses', htag', hps'⟩ := k.begun y hy
  exact ⟨z, hz, hop'.trans hop, hses'.trans hses, htag'.trans htag, hps'.trans hps⟩

theorem of_eq (hsplits : t.splits = s.splits) (htxq : t.txq = s.txq) : Talks s t :=
  ⟨fun x hx => ⟨x, hsplits ▸ hx, rfl, rfl, rfl, rfl⟩, by rw [hsplits], [], by rw [htxq, List.append_nil]⟩

theorem of_counts (h : Counts s t) : Talks s t := .of_eq h.splits h.txq

theorem of_logs {p : Nat → Bool} (h : Logs p s t) : Talks s t := .of_eq (congrArg State.splits h.same :) (congrArg State.txq h.same :)

theorem of_sends (h : Sends s t) : Talks s t := by
  have hsplits : t.splits = s.splits := (congrArg State.splits h.same :)
  exact ⟨fun x hx => ⟨x, hsplits ▸ hx, rfl, rfl, rfl, rfl⟩, by rw [hsplits], h.txq⟩

theorem fset (h : Talks s₀ s) (f : Fld) (v : Nat) : Talks s₀ (s.fset f v) := h.trans (.of_eq rfl rfl)

theorem modCtx (h : Talks s₀ s) (n : Nat) (f : Ctx → Ctx) : Talks s₀ (s.modCtx n f) := h.trans (.of_eq rfl rfl)

end Talks

theorem State.eventTo_talks (s : State) (n code : Nat) (ps : List Word) : Talks s (s.eventTo n code ps) := by
  unfold State.eventTo
  extract_lets s₁
  have h₁ : Talks s s₁ := by
    refine ⟨fun x hx => ⟨_, List.mem_map_of_mem hx, ?_⟩, ?_, [], (List.append_nil _).symm⟩
    · split <;> exact ⟨rfl, rfl, rfl, rfl⟩
    · show (s.splits.map _).map Split.id = _
      rw [List.map_map]
      refine List.map_congr_left fun x _ => ?_
      dsimp only [Function.comp]
      split <;> rfl
  split
  · exact (h₁.fset ..).trans (.of_sends (State.send_sends ..))
  · exact ((h₁.modCtx n fun c => { c with evLost := c.evLost + 1 }).fset (R.SESS_STAT_EVLOST n) _).trans (.of_counts (State.evCount_counts ..))

theorem State.chipEvent_talks (s : State) (code : Nat) (ps : List Word) : Talks s (s.chipEvent code ps) := by
  unfold State.chipEvent
  split
  · exact .of_counts (State.evCount_counts ..)
  · exact List.foldlRecOn (motive := Talks s) _ _ (.refl s) fun r hr n _ => hr.trans (r.eventTo_talks n code ps)

theorem Answered.of_talks {op : BitVec 8} {q : Req} {st : BitVec 8} {ps : List Word} {pl : List Byte} (h : Answered s op q st ps pl) (k : Talks s t) :
    Answered t op q st ps pl := by
  obtain ⟨l, hl⟩ := k.txq
  intro hquiet
  obtain ⟨p, hp, hrest⟩ := h hquiet
  exact ⟨p, by rw [hl]; exact List.mem_append_left _ hp, hrest⟩

theorem Begun.of_talks {op : BitVec 8} {q : Req} (h : Begun s op q) (k : Talks s t) : Begun t op q := by
  obtain ⟨⟨x, hx, hop, hses, htag, hps⟩, hans⟩ := h
  obtain ⟨y, hy, hop', hses', htag', hps'⟩ := k.begun x hx
  exact ⟨⟨y, hy, hop'.trans hop, hses'.trans hses, htag'.trans htag, hps'.trans hps⟩, hans.of_talks k⟩

/-! ## A fence on record -/

/-- A fence on record: FENCE_LAST, the repair generation, the event and the record; beside them what the self-repair remembers of it. -/
theorem State.fenceNote_shows {kind unit cause : Nat} (hroom : s.staged.length < 128) :
    ∃ r inj due, Notes (fun a => a == R.FENCE_LAST || a == R.SR_GEN) s r ∧ Talks s r ∧
      r.rget R.FENCE_LAST = BitVec.ofNat 32 (65536 * (unit % 1024) + 16 * cause + kind) ∧
      r.staged.length = s.staged.length + 1 ∧ s.fenceNote kind unit cause = { r with injFence := inj, logDue := due } := by
  unfold State.fenceNote
  extract_lets s₁ s₂ s₃ s₄ s₅
  have h₂ : Notes (fun a => a == R.FENCE_LAST || a == R.SR_GEN) s s₂ :=
    ((Notes.refl s).rset (a := R.FENCE_LAST) rfl _).fset (f := R.SR_GEN_COUNT) rfl _
  have hlast : s₂.rget R.FENCE_LAST = BitVec.ofNat 32 (65536 * (unit % 1024) + 16 * cause + kind) :=
    (State.rget_fset_other _ _ (by decide)).trans (State.rget_rset_same ..)
  have htalks₂ : Talks s s₂ := .of_eq rfl rfl
  have hstaged₂ : s₂.staged = s.staged := rfl
  clear_value s₂
  have h₃ : Reports (fun _ => false) s₂ s₃ := s₂.chipEvent_reports ..
  have htalks₃ : Talks s₂ s₃ := s₂.chipEvent_talks ..
  have hstaged₃ : s₃.staged = s₂.staged := (congrArg State.staged h₃.same :)
  clear_value s₃
  obtain ⟨h₄, hlen⟩ : Logs recordReg s₃ s₄ ∧ s₄.staged.length = s₃.staged.length + 1 :=
    State.stage_logs s₃ (by rw [hstaged₃, hstaged₂]; exact hroom) ..
  clear_value s₄
  have hbehind : Notes (fun _ => false) s₂ s₄ := (Notes.of_reports h₃).trans (.of_logs h₄ fun a ha => by rw [ha, Bool.or_true])
  have hlast₄ := (hbehind.rget (a := R.FENCE_LAST) (by decide)).trans hlast
  have htalks₄ := (htalks₂.trans htalks₃).trans (.of_logs h₄)
  have hnotes := h₂.trans (hbehind.mono fun _ h => absurd h Bool.false_ne_true)
  have hlen₄ : s₄.staged.length = s.staged.length + 1 := by rw [hlen, hstaged₃, hstaged₂]
  clear_value s₁
  split
  · exact ⟨s₄, _, _, hnotes, htalks₄, hlast₄, hlen₄, rfl⟩
  · exact ⟨s₄, s₅.injFence, s₄.logDue, hnotes, htalks₄, hlast₄, hlen₄, rfl⟩

end Sys2Proof.Machine
end

section
/-! SUPPORT. Fences by command and by mask, and retests of channels (15_safety_faults.md R377 to R380). -/

namespace Sys2Proof.Machine

variable {s₀ s t : State}

/-! ## A request whose operation starts -/

theorem State.routine_start_enters (s : State) (op : BitVec 8) (q : Req) : Enters q s (s.routine.start op q) :=
  (Enters.of_counts s.routine_counts).trans (State.start_enters ..)

theorem State.routine_start_split (s : State) (op : BitVec 8) (q : Req) :
    ∃ x : Split, (s.routine.start op q).splits = s.splits ++ [x] ∧ x.id = s.ids := by
  obtain ⟨x, hsplits, hid, -⟩ := s.routine.start_split op q [] 0
  exact ⟨x, by rw [hsplits, s.routine_counts.splits], by rw [hid, s.routine_counts.ids]⟩

namespace Enters

variable {q : Req}

theorem fenceReq (h : Enters q s t) : t.fenceReq = s.fenceReq := (congrArg State.fenceReq h.same :)
theorem staged (h : Enters q s t) : t.staged = s.staged := (congrArg State.staged h.same :)
theorem links (h : Enters q s t) : t.links = s.links := (congrArg State.links h.same :)

/-- A register outside the chip's own block, or one of it that no operation touches as it starts. -/
theorem rget (h : Enters q s t) {a : Nat} (ha : startReg q a = false) : t.rget a = s.rget a := h.regs a ha

theorem rget_of_ge (h : Enters q s t) {a : Nat} (ha : 0x100000 ≤ a) : t.rget a = s.rget a :=
  h.regs a (by
    have hses : a ≠ R.SESS_STAT q.session.toNat := by
      have := q.session.isLt
      unfold R.SESS_STAT
      omega
    have heng : a ≠ R.ENG_STATUS := by
      unfold R.ENG_STATUS
      omega
    simp [startReg, counting_of_ge ha, hses, heng])

theorem stepState (h : Enters q s t) (u : Nat) : t.stepState u = s.stepState u :=
  State.fget_congr (h.rget_of_ge (by unfold R.SEQ_STATUS_STATE R.SEQ_STATUS; dsimp only; omega))

end Enters

theorem startReg_of_lt {q : Req} {a : Nat} (ha : a < 0x83000) (hses : ∀ n, n < 32 → a ≠ R.SESS_STAT n) (heng : a ≠ R.ENG_STATUS) :
    startReg q a = false := by
  simp [startReg, counting_of_lt ha, hses _ q.session.isLt, heng]

/-! ## Units and their bits -/

theorem fenceBit_fits (kind unit : Nat) : (fenceBit kind unit).lo ≤ (fenceBit kind unit).hi ∧ (fenceBit kind unit).hi < 32 :=
  ⟨Nat.le_refl _, Nat.mod_lt _ (by decide)⟩

theorem fenceBit_addr_chan {ch : Nat} (h : ch < 1024) : 0x60100 ≤ (fenceBit 0 ch).addr ∧ (fenceBit 0 ch).addr < 0x60180 := by
  show 0x60100 + 4 * (ch / 32) ≥ 0x60100 ∧ 0x60100 + 4 * (ch / 32) < 0x60180
  omega

theorem fenceBit_addr_tile {u : Nat} (h : u < 64) : 0x60180 ≤ (fenceBit 1 u).addr ∧ (fenceBit 1 u).addr < 0x60188 := by
  show 0x60180 + 4 * (u / 32) ≥ 0x60180 ∧ 0x60180 + 4 * (u / 32) < 0x60188
  omega

/-- A fence is requested and shows in its mask. -/
def State.requestFence (s : State) (kind unit : Nat) (op : Option Nat) : State :=
  State.setFlag { s with fenceReq := s.fenceReq ++ [{ kind := kind, unit := unit, op := op }] } (fenceBit kind unit) true

theorem State.requestFence_flag (s : State) (kind unit : Nat) (op : Option Nat) :
    (s.requestFence kind unit op).flag (fenceBit kind unit) = true :=
  State.flag_setFlag_same _ _ (fenceBit_fits kind unit).1 (fenceBit_fits kind unit).2

theorem State.requestFence_other (s : State) {kind unit a : Nat} (op : Option Nat) (h : a ≠ (fenceBit kind unit).addr) :
    (s.requestFence kind unit op).rget a = s.rget a := State.rget_fset_other _ _ h

/-- A channel or a tile, and the tile that it belongs to. -/
def UnitOf (kind unit u : Nat) : Prop := kind = 0 ∧ unit < 1024 ∧ u = unit / 16 ∨ kind = 1 ∧ unit < 64 ∧ u = unit

theorem UnitOf.addr {kind unit u : Nat} (h : UnitOf kind unit u) : 0x60100 ≤ (fenceBit kind unit).addr ∧ (fenceBit kind unit).addr < 0x60188 := by
  rcases h with ⟨rfl, hlt, -⟩ | ⟨rfl, hlt, -⟩
  · have := fenceBit_addr_chan hlt
    omega
  · have := fenceBit_addr_tile hlt
    omega

/-- A unit whose tile is in a step waits for the step boundary (R377). -/
theorem State.askFence_busy {kind unit u : Nat} (op : Option Nat) (hunit : UnitOf kind unit u) (hbusy : Busy s u) :
    s.askFence kind unit op = s.requestFence kind unit op := by
  have hstep : inStep ((s.requestFence kind unit op).stepState u) = true := by
    have haddr := hunit.addr
    rw [State.stepState, State.fget_congr (s.requestFence_other op (by unfold R.SEQ_STATUS_STATE R.SEQ_STATUS; dsimp only; omega))]
    exact hbusy
  have hself := State.boundary_of_inStep hstep
  rcases hunit with ⟨rfl, -, rfl⟩ | ⟨rfl, -, rfl⟩
  · have heq : s.askFence 0 unit op = (s.requestFence 0 unit op).boundary (unit / 16) := rfl
    exact heq.trans hself
  · have heq : s.askFence 1 u op = (s.requestFence 1 u op).boundary u := rfl
    exact heq.trans hself

/-- Whether a channel or a tile is fenced is read outside the registers of sessions, links and fence masks. -/
theorem UnitOf.unitFenced_congr {kind unit u : Nat} (hunit : UnitOf kind unit u) (h : ∀ a, a < 0x1000 ∨ 0x500000 ≤ a → t.rget a = s.rget a) :
    t.unitFenced kind unit = s.unitFenced kind unit := by
  rcases hunit with ⟨rfl, -, -⟩ | ⟨rfl, hlt, -⟩
  · exact State.flag_congr (h _ (.inr (by unfold R.CH_STATUS_FENCED R.CH_STATUS; dsimp only; omega)))
  · exact State.flag_congr (h _ (.inl (by unfold R.TILE_MAP_FENCED R.TILE_MAP; dsimp only; omega)))

theorem startReg_of_apart {q : Req} {a : Nat} (ha : a < 0x1000 ∨ 0x500000 ≤ a) : startReg q a = false := by
  have hses : a ≠ R.SESS_STAT q.session.toNat := by
    have := q.session.isLt
    unfold R.SESS_STAT
    omega
  have heng : a ≠ R.ENG_STATUS := by
    unfold R.ENG_STATUS
    omega
  have hcount : counting a = false := decide_eq_false (by omega)
  simp [startReg, hses, heng, hcount]

/-! ## FENCE -/

theorem doFence_outside {q : Req} {s : State} (hruns : s.runs 0x71 q = true) (hbad : 4 ≤ q.n 0 ∨ kindRange (q.n 0) ≤ q.n 1) :
    doFence q s = s.routine.fail 0x71 q St.badParam :=
  State.request_of_runs_of_fail hruns (if_pos hbad)

/-- What a FENCE of a unit other than a lane does that is not refused. -/
theorem doFence_started {q : Req} {s : State} (hruns : s.runs 0x71 q = true) (hfree : s.flag R.ENG_STATUS_HOLDING = false)
    (hrange : ¬(4 ≤ q.n 0 ∨ kindRange (q.n 0) ≤ q.n 1)) (hroom : s.splits.length < 256) (hlane : q.n 0 ≠ 2)
    (hnew : (s.routine.start 0x71 q).unitFenced (q.n 0) (q.n 1) = false) :
    doFence q s = (s.routine.start 0x71 q).askFence (q.n 0) (q.n 1) (some s.ids) := by
  have hsplits : ¬256 ≤ s.routine.splits.length := by
    rw [s.routine_counts.splits]
    omega
  unfold doFence
  rw [State.request_of_runs_free hruns hfree]
  dsimp only
  rw [if_neg hrange, if_neg hsplits, if_neg hlane, if_neg (by rw [hnew]; exact Bool.false_ne_true), s.routine_counts.ids]

/-- FENCE of a channel or tile in a step. -/
theorem doFence_busy {q : Req} {s : State} {u : Nat} (hruns : s.runs 0x71 q = true)
    (hunit : UnitOf (q.n 0) (q.n 1) u) (hbusy : Busy s u)
    (hnew : s.unitFenced (q.n 0) (q.n 1) = false) (hfree : s.flag R.ENG_STATUS_HOLDING = false) (hroom : s.splits.length < 256) :
    let t := doFence q s
    Begun t 0x71 q ∧ t.flag (fenceBit (q.n 0) (q.n 1)) = true ∧ t.unitFenced (q.n 0) (q.n 1) = false ∧ MemSame s t ∧
      RegsSame (fun a => counting a || a == R.SESS_STAT q.session.toNat || a == R.ENG_STATUS || a == (fenceBit (q.n 0) (q.n 1)).addr) s t := by
  have hstart := s.routine_start_enters 0x71 q
  have hbegun := s.routine.start_begun 0x71 q [] 0
  have haddr := hunit.addr
  have hnew' : (s.routine.start 0x71 q).unitFenced (q.n 0) (q.n 1) = false :=
    (hunit.unitFenced_congr fun a ha => hstart.rget (startReg_of_apart ha)).trans hnew
  have hrange : ¬(4 ≤ q.n 0 ∨ kindRange (q.n 0) ≤ q.n 1) ∧ q.n 0 ≠ 2 := by
    rcases hunit with ⟨h, hn, -⟩ | ⟨h, hn, -⟩
    · rw [h]
      exact ⟨not_or.2 ⟨by decide, by show ¬1024 ≤ q.n 1; omega⟩, by decide⟩
    · rw [h]
      exact ⟨not_or.2 ⟨by decide, by show ¬64 ≤ q.n 1; omega⟩, by decide⟩
  have heq : doFence q s = (s.routine.start 0x71 q).requestFence (q.n 0) (q.n 1) (some s.ids) := by
    rw [doFence_started hruns hfree hrange.1 hroom hrange.2 hnew', State.askFence_busy _ hunit]
    unfold Busy
    rw [hstart.stepState]
    exact hbusy
  dsimp only
  rw [heq]
  generalize s.routine.start 0x71 q = r at *
  have hreq : RegsSame (fun a => a == (fenceBit (q.n 0) (q.n 1)).addr) r (r.requestFence (q.n 0) (q.n 1) (some s.ids)) :=
    fun a ha => r.requestFence_other _ (by simpa using ha)
  refine ⟨hbegun.of_talks (.of_eq rfl rfl), r.requestFence_flag .., ?_, .of_mem hstart.mem, ?_⟩
  · exact (hunit.unitFenced_congr fun a ha => r.requestFence_other _ (by omega)).trans hnew'
  · exact (hstart.regs.mono fun a ha => by rw [← startReg, ha, Bool.true_or]).trans (hreq.mono fun a ha => by rw [ha, Bool.or_true])

end Sys2Proof.Machine
end

section
/-! SUPPORT. Fences of sentinels, fence masks, and retests of channels (15_safety_faults.md R378 to R380). -/

namespace Sys2Proof.Machine

variable {s₀ s t : State}

/-! ## FENCE of a sentinel -/

/-- What a fence of a sentinel shows, beside SNT_FENCED. -/
theorem State.fenceSnt_shows {n : Nat} (hn : n < 64) (cause : Nat) (hroom : s.staged.length < 128) :
    Talks s (s.fenceSnt n cause) ∧ (s.fenceSnt n cause).rget R.FENCE_LAST = BitVec.ofNat 32 (65536 * n + 16 * cause + 3) := by
  unfold State.fenceSnt
  extract_lets s₁
  have htalks₁ : Talks s s₁ := .of_eq rfl rfl
  have hstaged₁ : s₁.staged = s.staged := rfl
  clear_value s₁
  have hdrop := (SntOnly.refl s₁).dseDrop (s₁.sntMap n)
  have htalks₂ : Talks s₁ (s₁.dseDrop (s₁.sntMap n)) := .of_eq (congrArg State.splits hdrop.same :) (congrArg State.txq hdrop.same :)
  obtain ⟨r, inj, due, -, htalks, hlast, -, heq⟩ := State.fenceNote_shows (s := s₁.dseDrop (s₁.sntMap n)) (kind := 3)
    (unit := n) (cause := cause) (by rw [hdrop.staged, hstaged₁]; exact hroom)
  rw [heq]
  refine ⟨((htalks₁.trans htalks₂).trans htalks).trans (.of_eq rfl rfl), hlast.trans ?_⟩
  rw [Nat.mod_eq_of_lt (by omega)]

/-- With one FENCE of the unit requested, it completes with the fence. -/
theorem State.fenceDone_one {kind unit o : Nat} {x : Split} (hreq : s.fenceReq = [{ kind := kind, unit := unit, op := some o }])
    (hx : s.splitOf o = some x) : s.fenceDone kind unit = State.complete { s with fenceReq := [] } x St.ok := by
  have hx' : State.splitOf { s with fenceReq := [] } o = some x := hx
  unfold State.fenceDone
  rw [hreq]
  simp [hx']

theorem State.splitOf_of_mem {o : Nat} (h : o ∈ s.splits.map Split.id) : ∃ x, s.splitOf o = some x ∧ x.id = o := by
  obtain ⟨y, hy, hid⟩ := List.mem_map.1 h
  cases hfind : s.splitOf o with
  | none => exact absurd (List.find?_eq_none.1 hfind y hy) (by simp [hid])
  | some x =>
    have hxid := List.find?_some hfind
    exact ⟨x, rfl, by simpa using hxid⟩

theorem doFence_sentinel {q : Req} {s : State} (hruns : s.runs 0x71 q = true) (hkind : q.n 0 = 3) (hfree : s.flag R.ENG_STATUS_HOLDING = false)
    (hlt : q.n 1 < 64) (hnew : s.sntFenced (q.n 1) = false) (hreq : s.fenceReq = []) (hstaged : s.staged.length < 120)
    (hroom : s.splits.length < 256) :
    let t := doFence q s
    Answered t 0x71 q St.accepted [] [] ∧ t.sntFenced (q.n 1) = true ∧ t.rget R.FENCE_LAST = BitVec.ofNat 32 (65536 * q.n 1 + 16 + 3) ∧
      (∀ y ∈ t.splits, y.id ≠ s.ids) ∧ MemSame s t := by
  have hstart := s.routine_start_enters 0x71 q
  obtain ⟨-, hans⟩ := s.routine.start_begun 0x71 q [] 0
  obtain ⟨x₀, hsplits, hid₀⟩ := s.routine_start_split 0x71 q
  have haddr := bitFld_addr (b := R.SNT_FENCED 0) hlt
  have hnew' : (s.routine.start 0x71 q).sntFenced (q.n 1) = false :=
    (State.flag_congr (hstart.rget (startReg_of_lt (by unfold R.SNT_FENCED at *; omega)
      (fun n hn => by unfold R.SNT_FENCED at *; unfold R.SESS_STAT; omega) (by unfold R.SNT_FENCED at *; unfold R.ENG_STATUS; omega)))).trans hnew
  have heq : doFence q s = ((s.routine.start 0x71 q).requestFence 3 (q.n 1) (some s.ids)).fenceApply 3 (q.n 1) 1 := by
    rw [doFence_started hruns hfree (by rw [hkind]; exact not_or.2 ⟨by decide, by show ¬64 ≤ q.n 1; omega⟩) hroom (by omega)
      (by rw [hkind]; exact hnew'), hkind]
    rfl
  dsimp only
  rw [heq]
  generalize s.routine.start 0x71 q = r at *
  have hreq' : (r.requestFence 3 (q.n 1) (some s.ids)).fenceReq = [{ kind := 3, unit := q.n 1, op := some s.ids }] := by
    show r.fenceReq ++ _ = _
    rw [hstart.fenceReq, hreq, List.nil_append]
  have htalks : Talks r (r.requestFence 3 (q.n 1) (some s.ids)) := .of_eq rfl rfl
  have hids : s.ids ∈ (r.requestFence 3 (q.n 1) (some s.ids)).splits.map Split.id := by
    show s.ids ∈ r.splits.map Split.id
    rw [hsplits]
    exact List.mem_map.2 ⟨x₀, List.mem_append_right _ (List.mem_singleton_self _), hid₀⟩
  have hlen : (r.requestFence 3 (q.n 1) (some s.ids)).staged.length < 128 := by
    show r.staged.length < 128
    rw [hstart.staged]
    omega
  have hmem : (r.requestFence 3 (q.n 1) (some s.ids)).mem = s.mem := hstart.mem
  have hapart : (r.requestFence 3 (q.n 1) (some s.ids)).unitFenced 3 (q.n 1) = false := by
    have hbit : (bitFld (R.SNT_FENCED 0) (q.n 1)).addr ≠ (fenceBit 3 (q.n 1)).addr := by
      obtain ⟨-, hhi⟩ := bitFld_addr (b := R.FENCE_SNT 0) hlt
      show _ ≠ (bitFld (R.FENCE_SNT 0) (q.n 1)).addr
      unfold R.SNT_FENCED at *
      unfold R.FENCE_SNT at *
      omega
    exact (State.flag_congr (r.requestFence_other _ hbit)).trans hnew'
  have hans' := hans.of_talks htalks
  generalize r.requestFence 3 (q.n 1) (some s.ids) = r' at *
  obtain ⟨hfenced, hmem', hreq'', -, -⟩ := State.fenceSnt_spec (s := r') hlt 1 hlen
  obtain ⟨htalks', hlast⟩ := State.fenceSnt_shows (s := r') hlt 1 hlen
  have happly : r'.fenceApply 3 (q.n 1) 1 = (r'.fenceSnt (q.n 1) 1).fenceDone 3 (q.n 1) := by
    unfold State.fenceApply
    rw [if_neg (by rw [hapart]; exact Bool.false_ne_true)]
    rfl
  rw [happly]
  generalize r'.fenceSnt (q.n 1) 1 = f at *
  obtain ⟨x, hx, hxid⟩ := State.splitOf_of_mem (s := f) (o := s.ids) (by rw [htalks'.ids]; exact hids)
  rw [State.fenceDone_one (hreq''.trans hreq') hx]
  have hdone := State.complete_completes { f with fenceReq := [] } x St.ok [] [] .none
  have hover := State.complete_over { f with fenceReq := [] } x St.ok [] [] .none
  generalize State.complete { f with fenceReq := [] } x St.ok [] [] .none = d at *
  have hget {a : Nat} (ha : a ≠ R.ENG_STATUS) : d.rget a = f.rget a := hdone.regs a ha
  refine ⟨fun hq => ?_, ?_, (hget (by decide)).trans hlast, fun y hy => hxid ▸ hover y hy, .of_mem (hdone.mem.trans (hmem'.trans hmem))⟩
  · obtain ⟨p, hp, hrest⟩ := (hans'.of_talks htalks') hq
    exact ⟨p, by rw [hdone.txq]; exact hp, hrest⟩
  · exact (State.flag_congr (hget (by unfold R.SNT_FENCED at haddr; unfold R.ENG_STATUS R.SNT_FENCED; omega))).trans hfenced

/-! ## Fence masks -/

theorem doFenceMaskWrite_same (w : FenceWord) (s : State) : doFenceMaskWrite w (s.rget (fenceWord w).2.2) s = s.answered St.ok := by
  unfold doFenceMaskWrite State.fenceMask
  dsimp only
  refine congrArg (State.answered · St.ok) ?_
  refine List.foldlRecOn (motive := (· = s)) _ _ rfl fun r hr b _ => ?_
  rw [if_pos (beq_self_eq_true _)]
  exact hr

/-- The bits of a FENCE_CH word below `n` have been taken. -/
structure MaskTaken (k : Nat) (v : Word) (n : Nat) (s t : State) : Prop where
  bits : ∀ b, b < 32 → (t.rget (R.FENCE_CH k)).getLsbD b = (decide (b < n) && v.getLsbD b)
  regs : RegsSame (fun a => a == R.FENCE_CH k) s t
  mem : t.mem = s.mem

theorem MaskTaken.busy {k n u : Nat} {v : Word} (h : MaskTaken k v n s t) (hbusy : Busy s u) (hk : k < 32) : Busy t u := by
  unfold Busy
  rw [State.stepState, State.fget_congr (h.regs _ (by unfold R.SEQ_STATUS_STATE R.SEQ_STATUS R.FENCE_CH; dsimp only; simp; omega))]
  exact hbusy

theorem MaskTaken.step {k n : Nat} {v : Word} (h : MaskTaken k v n s t) (hk : k < 32) (hn : n < 32) (hlo : Busy s (2 * k))
    (hhi : Busy s (2 * k + 1)) :
    MaskTaken k v (n + 1) s (if v.getLsbD n == false then t else if v.getLsbD n then t.askFence 0 (32 * k + n) none
      else t.clearFence 0 (32 * k + n)) := by
  cases hv : v.getLsbD n with
  | false =>
    rw [if_pos (beq_self_eq_true _)]
    refine ⟨fun b hb => ?_, h.regs, h.mem⟩
    rw [h.bits b hb]
    rcases Nat.lt_trichotomy b n with hlt | rfl | hgt
    · rw [decide_eq_true hlt, decide_eq_true (by omega)]
    · rw [hv, Bool.and_false, Bool.and_false]
    · rw [decide_eq_false (by omega), decide_eq_false (by omega)]
  | true =>
    have hfld : fenceBit 0 (32 * k + n) = ⟨R.FENCE_CH k, n, n⟩ := by
      have haddr : R.FENCE_CH 0 + 4 * ((32 * k + n) / 32) = R.FENCE_CH k := by
        unfold R.FENCE_CH
        omega
      have hmod : (32 * k + n) % 32 = n := by omega
      have hbit (u : Nat) : fenceBit 0 u = ⟨R.FENCE_CH 0 + 4 * (u / 32), u % 32, u % 32⟩ := rfl
      rw [hbit, haddr, hmod]
    have hbusy : Busy t ((32 * k + n) / 16) := by
      refine h.busy ?_ hk
      rcases Nat.lt_or_ge n 16 with hlt | hge
      · have hlow : (32 * k + n) / 16 = 2 * k := by omega
        exact hlow ▸ hlo
      · have hhigh : (32 * k + n) / 16 = 2 * k + 1 := by omega
        exact hhigh ▸ hhi
    rw [if_neg (by decide), if_pos rfl, State.askFence_busy none (.inl ⟨rfl, by omega, rfl⟩) hbusy]
    refine ⟨fun b hb => ?_, h.regs.trans fun a ha => t.requestFence_other _ (by rw [hfld]; simpa using ha), h.mem⟩
    have hget : (t.requestFence 0 (32 * k + n) none).rget (R.FENCE_CH k) = setField (t.rget (R.FENCE_CH k)) n n 1 := by
      unfold State.requestFence
      rw [hfld]
      exact State.rget_rset_same ..
    rw [hget, getLsbD_setField _ _ (Nat.le_refl n) hb]
    split
    case isTrue hin =>
      obtain rfl : b = n := by omega
      rw [Nat.sub_self, hv, decide_eq_true (Nat.lt_succ_self b)]
      rfl
    case isFalse hout =>
      rw [h.bits b hb, decide_eq_decide.2 (show b < n ↔ b < n + 1 by omega)]

theorem doFenceMaskWrite_chan (k : Fin 32) (v : Word) {s : State} (hzero : s.rget (R.FENCE_CH k) = 0) (hlo : Busy s (2 * k.val))
    (hhi : Busy s (2 * k.val + 1)) :
    let t := doFenceMaskWrite (.ch k) v s
    t.answer = St.ok.toNat ∧ t.rget (R.FENCE_CH k) = v ∧ RegsSame (fun a => a == R.FENCE_CH k) s t ∧ MemSame s t := by
  have htaken : MaskTaken k v 32 s (s.fenceMask (.ch k) v) := by
    have hfold : s.fenceMask (.ch k) v = (List.range 32).foldl (fun s b =>
        if v.getLsbD b == false then s else if v.getLsbD b then s.askFence 0 (32 * k.val + b) none
        else s.clearFence 0 (32 * k.val + b)) s := by
      show (List.range 32).foldl (fun s' b => if v.getLsbD b == (s.rget (R.FENCE_CH k)).getLsbD b then s'
        else if v.getLsbD b then s'.askFence 0 (32 * k.val + b) none else s'.clearFence 0 (32 * k.val + b)) s = _
      rw [hzero]
      congr 1
      funext s' b
      rw [show (0 : Word).getLsbD b = false from BitVec.getLsbD_zero]
    rw [hfold]
    have hall (n : Nat) (hn : n ≤ 32) : MaskTaken k v n s ((List.range n).foldl (fun s b =>
        if v.getLsbD b == false then s else if v.getLsbD b then s.askFence 0 (32 * k.val + b) none
        else s.clearFence 0 (32 * k.val + b)) s) := by
      induction n with
      | zero => exact ⟨fun b _ => by simp [hzero], fun _ _ => rfl, rfl⟩
      | succ n ih =>
        rw [List.range_succ, List.foldl_append]
        exact (ih (by omega)).step k.isLt (by omega) hlo hhi
    exact hall 32 (Nat.le_refl _)
  refine ⟨rfl, ?_, htaken.regs, .of_mem htaken.mem⟩
  refine BitVec.eq_of_getLsbD_eq fun b hb => ?_
  show ((s.fenceMask (.ch k) v).rget (R.FENCE_CH k)).getLsbD b = _
  rw [htaken.bits b hb, decide_eq_true hb, Bool.true_and]

/-! ## Retests of channels -/

theorem State.retestEvent_reports (s : State) (kind unit : Nat) (failed : Bool) : Reports (fun _ => false) s (s.retestEvent kind unit failed) :=
  State.chipEvent_reports ..

/-- The end of a retest of a channel, before its outcome. -/
def State.retestOver (s : State) (ch : Nat) (failed : Bool) : State := (s.modChan ch fun c => { c with retest := 0 }).retestEvent 0 ch failed

theorem State.retestOver_spec (s : State) (ch : Nat) (failed : Bool) :
    let r := s.retestOver ch failed
    (r.chan ch).retest = 0 ∧ (r.chan ch).inj = (s.chan ch).inj ∧
      r.unfenceReq = s.unfenceReq ∧ r.staged = s.staged ∧ r.mem = s.mem ∧ RegsSame (fun a => counting a || sessReg a) s r := by
  have h := State.retestEvent_reports (s.modChan ch fun c => { c with retest := 0 }) 0 ch failed
  have hchan : (s.retestOver ch failed).chan ch = (s.modChan ch fun c => { c with retest := 0 }).chan ch := by
    unfold State.chan State.retestOver
    rw [h.chans]
  dsimp only
  rw [hchan, State.chan_modChan, if_pos rfl]
  refine ⟨rfl, rfl, (congrArg State.unfenceReq h.same :), (congrArg State.staged h.same :), h.mem, ?_⟩
  exact fun a ha => h.regs a ha

theorem doChannelRetestDone_eq {ch : Fin 1024} {passed : Bool} {s : State} (hretest : (s.chan ch).retest = 2) :
    doChannelRetestDone ch passed s = ((if !passed then (s.retestOver ch !passed).retestFailed ch
      else if (s.retestOver ch !passed).unfenceReq.contains (0, ch.val) then (s.retestOver ch !passed).unfence 0 ch
      else s.retestOver ch !passed).modChan ch fun c => { c with inj := false }).boundary (ch / 16) := by
  unfold doChannelRetestDone
  rw [if_neg (not_not.2 hretest)]
  rfl

theorem busy_of_regs {u : Nat} {p : Nat → Bool} (h : RegsSame p s t) (hp : p (R.SEQ_STATUS u) = false) (hbusy : Busy s u) :
    inStep (t.stepState u) = true := by
  rw [State.stepState, State.fget_congr (f := R.SEQ_STATUS_STATE u) (h _ hp)]
  exact hbusy

theorem State.boundary_modChan {u ch : Nat} (f : ChanCtx → ChanCtx) (h : inStep (s.stepState u) = true) :
    (s.modChan ch f).boundary u = s.modChan ch f := State.boundary_of_inStep h

theorem doChannelRetestDone_passed {ch : Fin 1024} {s : State} (hretest : (s.chan ch).retest = 2) (hbusy : Busy s (ch / 16))
    (hunfence : (0, ch.val) ∉ s.unfenceReq) :
    let t := doChannelRetestDone ch true s
    (t.chan ch).retest = 0 ∧ (t.chan ch).inj = false ∧ RegsSame (fun a => counting a || sessReg a) s t ∧ MemSame s t := by
  obtain ⟨hdone, -, hunf, -, hmem, hregs⟩ := s.retestOver_spec ch (!true)
  dsimp only
  rw [doChannelRetestDone_eq hretest, if_neg (show ¬(!true) = true by decide)]
  generalize s.retestOver ch (!true) = r at *
  have haddr : 0x100000 ≤ R.SEQ_STATUS (ch / 16) := by
    unfold R.SEQ_STATUS
    omega
  rw [if_neg (by rw [hunf]; simpa using hunfence),
    State.boundary_modChan _ (busy_of_regs hregs (by rw [counting_of_ge haddr, sessReg_of_ge haddr]; rfl) hbusy), State.chan_modChan, if_pos rfl]
  exact ⟨hdone, rfl, hregs, .of_mem hmem⟩

/-- The pin safe state leaves the FENCED flag of the channel. -/
theorem State.chanFenced_chSafe (s : State) (ch : Nat) : (s.chSafe ch).chanFenced ch = s.chanFenced ch := by
  have hgate (r : State) : (r.openGate ch).flag ⟨R.CH_STATUS ch, 15, 15⟩ = r.flag ⟨R.CH_STATUS ch, 15, 15⟩ := by
    unfold State.openGate
    extract_lets r₁ r₂ r₃
    have h₁ : r₁.flag ⟨R.CH_STATUS ch, 15, 15⟩ = r.flag ⟨R.CH_STATUS ch, 15, 15⟩ := rfl
    have h₂ : r₂.flag ⟨R.CH_STATUS ch, 15, 15⟩ = r₁.flag ⟨R.CH_STATUS ch, 15, 15⟩ := by
      unfold r₂ R.CH_STATUS_RST_BUSY R.CH_STATUS_RANGING R.CH_STATUS_CLAMP
      rw [State.flag_setKnown _ _ _ _ (by decide), if_neg (by decide), if_neg (by decide), State.flag_setFlag_bit _ _ _ _ _ (by decide),
        if_neg (by decide), State.flag_setFlag_bit _ _ _ _ _ (by decide), if_neg (by decide), State.flag_setFlag_bit _ _ _ _ _ (by decide),
        if_neg (by decide)]
    have h₃ : r₃.flag ⟨R.CH_STATUS ch, 15, 15⟩ = r₂.flag ⟨R.CH_STATUS ch, 15, 15⟩ :=
      State.flag_setFlag_addr _ _ (by unfold R.PMU_MEAS_VALID R.PMU_MEAS R.CH_STATUS; dsimp only; omega)
    split
    · exact h₃.trans (h₂.trans h₁)
    · exact (State.flag_setFlag_bit _ _ 14 15 _ (by decide)).trans ((if_neg (by decide)).trans (h₃.trans (h₂.trans h₁)))
  exact hgate _

/-- A fence of a channel: its status, the pin safe state and the record. -/
theorem State.fenceChan_shows {ch cause : Nat} (hch : ch < 1024) (hroom : s.staged.length < 128) :
    let t := s.fenceChan ch cause
    t.chanFenced ch = true ∧ (t.chan ch).safe = true ∧ (t.chan ch).retest = (s.chan ch).retest ∧
      t.rget R.FENCE_LAST = BitVec.ofNat 32 (65536 * ch + 16 * cause) ∧ t.mem = s.mem ∧ (∀ u, u < 64 → t.stepState u = s.stepState u) := by
  unfold State.fenceChan
  obtain ⟨hlo, hhi⟩ : 0x60100 ≤ (bitFld (R.FENCE_CH 0) ch).addr ∧ (bitFld (R.FENCE_CH 0) ch).addr < 0x60180 := fenceBit_addr_chan hch
  have hfenced : ((s.setFlag (R.CH_STATUS_FENCED ch) true).setFlag (bitFld (R.FENCE_CH 0) ch) true).chanFenced ch = true := by
    have haddr : (R.CH_STATUS_FENCED ch).addr ≠ (bitFld (R.FENCE_CH 0) ch).addr := by
      unfold R.CH_STATUS_FENCED R.CH_STATUS
      dsimp only
      omega
    exact (State.flag_setFlag_addr _ _ haddr).trans (State.flag_setFlag_same _ _ (Nat.le_refl 15) (show 15 < 32 by decide))
  have hstep {u : Nat} (hu : u < 64) : ((s.setFlag (R.CH_STATUS_FENCED ch) true).setFlag (bitFld (R.FENCE_CH 0) ch) true).stepState u =
      s.stepState u :=
    State.fget_congr ((State.rget_fset_other _ _ (chipReg_ne_status (by omega)).symm).trans
      (State.rget_fset_other _ _ (by unfold R.CH_STATUS_FENCED R.CH_STATUS R.SEQ_STATUS; dsimp only; omega)))
  have hchan : ((s.setFlag (R.CH_STATUS_FENCED ch) true).setFlag (bitFld (R.FENCE_CH 0) ch) true).chan ch = s.chan ch := rfl
  have hmem : ((s.setFlag (R.CH_STATUS_FENCED ch) true).setFlag (bitFld (R.FENCE_CH 0) ch) true).mem = s.mem := rfl
  have hstaged : ((s.setFlag (R.CH_STATUS_FENCED ch) true).setFlag (bitFld (R.FENCE_CH 0) ch) true).staged = s.staged := rfl
  generalize (s.setFlag (R.CH_STATUS_FENCED ch) true).setFlag (bitFld (R.FENCE_CH 0) ch) true = r at *
  have hpins : PinOnly (pinReg ch) ch r (r.chSafe ch) := (PinOnly.refl r).chSafe
  obtain ⟨hsafe, -⟩ := r.chan_chSafe ch
  have hretest : ((r.chSafe ch).chan ch).retest = (r.chan ch).retest := by
    unfold State.chSafe
    rw [State.chan_openGate]
    simp [State.reach]
  have hfenced' := (r.chanFenced_chSafe ch).trans hfenced
  have hstep' {u : Nat} (hu : u < 64) : (r.chSafe ch).stepState u = r.stepState u := by
    refine hpins.stepState (fun a ha => ?_) hu
    refine decide_eq_true ?_
    rcases Bool.or_eq_true_iff.1 ha with e | e
    · rw [beq_iff_eq.1 e]
      unfold R.CH_STATUS
      omega
    · rw [beq_iff_eq.1 e]
      unfold R.PMU_MEAS
      omega
  have hlen : (r.chSafe ch).staged.length < 128 := by
    have hsame : (r.chSafe ch).staged = r.staged := (congrArg State.staged hpins.same :)
    rw [hsame, hstaged]
    exact hroom
  have hmem' : (r.chSafe ch).mem = s.mem := hpins.mem.trans hmem
  clear hpins
  generalize r.chSafe ch = f at *
  obtain ⟨n, inj, due, hnotes, -, hlast, -, heq⟩ := State.fenceNote_shows (s := f) (kind := 0) (unit := ch) (cause := cause) hlen
  have hhigh {a : Nat} (ha : 0x100000 ≤ a) : n.rget a = f.rget a := hnotes.rget (by
    rw [counting_of_ge ha, sessReg_of_ge ha]
    simp [recordReg, R.FENCE_LAST, R.SR_GEN, R.MRN_SEQ, R.MRN_STATUS, R.MRN_OLDEST]
    omega)
  have hchan' : n.chan ch = f.chan ch := by
    have hsame : n.chans = f.chans := (congrArg State.chans hnotes.same :)
    unfold State.chan
    rw [hsame]
  dsimp only
  rw [heq]
  refine ⟨?_, ?_, ?_, ?_, hnotes.mem.trans hmem', fun u hu => ?_⟩
  · exact (State.flag_congr (hhigh (by unfold R.CH_STATUS_FENCED R.CH_STATUS; dsimp only; omega))).trans hfenced'
  · exact (congrArg ChanCtx.safe hchan').trans hsafe
  · exact (congrArg ChanCtx.retest hchan').trans (hretest.trans (congrArg ChanCtx.retest hchan))
  · refine hlast.trans ?_
    rw [Nat.mod_eq_of_lt hch, Nat.add_zero]
  · exact (State.fget_congr (hhigh (by unfold R.SEQ_STATUS_STATE R.SEQ_STATUS; dsimp only; omega))).trans ((hstep' hu).trans (hstep hu))

theorem doChannelRetestDone_failed {ch : Fin 1024} {s : State} (hretest : (s.chan ch).retest = 2) (hbusy : Busy s (ch / 16))
    (hnew : s.chanFenced ch = false) (hroom : s.staged.length < 120) :
    let t := doChannelRetestDone ch false s
    (t.chan ch).retest = 0 ∧ t.chanFenced ch = true ∧ (t.chan ch).safe = true ∧
      t.rget R.FENCE_LAST = BitVec.ofNat 32 (65536 * ch.val + 16 * (if (s.chan ch).inj then 5 else 2)) ∧ MemSame s t := by
  obtain ⟨hdone, hinj, -, hstaged, hmem, hregs⟩ := s.retestOver_spec ch (!false)
  dsimp only
  rw [doChannelRetestDone_eq hretest, if_pos (show (!false) = true by decide)]
  generalize s.retestOver ch (!false) = r at *
  have hhigh {a : Nat} (ha : 0x100000 ≤ a) : r.rget a = s.rget a := hregs a (by simp [counting_of_ge ha, sessReg_of_ge ha])
  have hfail : r.retestFailed ch = State.fenceChan { r with unfenceReq := r.unfenceReq.filter (· != (0, ch.val)) } ch
      (if (s.chan ch).inj then 5 else 2) := by
    have hnew' : State.chanFenced { r with unfenceReq := r.unfenceReq.filter (· != (0, ch.val)) } ch = false :=
      (State.flag_congr (hhigh (by unfold R.CH_STATUS_FENCED R.CH_STATUS; dsimp only; omega))).trans hnew
    unfold State.retestFailed
    dsimp only
    rw [if_pos (by rw [hnew']; rfl), ← hinj]
    rfl
  have hlen : r.staged.length < 128 := by
    rw [hstaged]
    omega
  rw [hfail]
  obtain ⟨hfenced, hsafe, hretest', hlast, hmem', hstep⟩ := State.fenceChan_shows
    (s := { r with unfenceReq := r.unfenceReq.filter (· != (0, ch.val)) }) (cause := if (s.chan ch).inj then 5 else 2) ch.isLt hlen
  generalize State.fenceChan { r with unfenceReq := r.unfenceReq.filter (· != (0, ch.val)) } ch (if (s.chan ch).inj then 5 else 2) = f at *
  have hbusy' : inStep (f.stepState (ch / 16)) = true := by
    rw [hstep _ (by omega)]
    have hsame : State.stepState { r with unfenceReq := r.unfenceReq.filter (· != (0, ch.val)) } (ch / 16) = s.stepState (ch / 16) :=
      State.fget_congr (hhigh (by unfold R.SEQ_STATUS_STATE R.SEQ_STATUS; dsimp only; omega))
    rw [hsame]
    exact hbusy
  rw [State.boundary_modChan _ hbusy', State.chan_modChan, if_pos rfl]
  exact ⟨hretest'.trans hdone, hfenced, hsafe, hlast, .of_mem (hmem'.trans hmem)⟩

end Sys2Proof.Machine
end

section
/-! SUPPORT. What a link sends, and the operations on one link (12_serial_links.md R285 to R287, R299). -/

namespace Sys2Proof.Machine

/-! ## The lanes of a link carry what it sends -/

/-- Blocks laid on lanes change the transmitters, the line and the lane that comes next. -/
structure Lays (c d : LinkCtx) : Prop where
  same : { d with tx := c.tx, line := c.line, next := c.next } = c

namespace Lays

variable {b c d : LinkCtx}

theorem refl (c : LinkCtx) : Lays c c := ⟨rfl⟩

theorem trans (h : Lays b c) (k : Lays c d) : Lays b d :=
  ⟨(congrArg (fun x : LinkCtx => ({ x with tx := b.tx, line := b.line, next := b.next } : LinkCtx)) k.same).trans h.same⟩

theorem lay (h : Lays b c) (j : Nat) (control : Bool) (x : BitVec 64) : Lays b (c.lay j control x) := h.trans ⟨rfl⟩

theorem setNext (h : Lays b c) (n : Nat) : Lays b { c with next := n } := h.trans ⟨rfl⟩

theorem setTx (h : Lays b c) (x : Store LaneTx) : Lays b { c with tx := x } := h.trans ⟨rfl⟩

theorem stripe (h : Lays b c) (lanes : List Nat) (x : Bool × BitVec 64) : Lays b (c.stripe lanes x) := by
  unfold LinkCtx.stripe
  split
  · exact h
  · exact (h.lay ..).setNext _

theorem emit (c : LinkCtx) (lanes : List Nat) (w : Wire) : Lays c (c.emit lanes w) := by
  unfold LinkCtx.emit
  split
  case h_1 f => exact List.foldlRecOn (motive := Lays c) _ _ (.refl c) fun d hd x _ => hd.stripe lanes x
  case h_2 r => exact (refl c).stripe ..
  case h_3 ev origin => exact List.foldlRecOn (motive := Lays c) _ _ (.refl c) fun d hd j _ => hd.lay ..
  case h_4 t chip =>
    split
    · exact .refl c
    · exact ((refl c).lay ..).lay ..
  case h_5 j l => exact ((refl c).lay ..).setTx _
  case h_6 l => exact .refl c

end Lays

variable {s₀ s t : State}

/-- The context of a link behind something that it has sent. -/
theorem State.link_sendWire (s : State) (l : Nat) (w : Wire) :
    ∃ d, Lays (s.link l) d ∧ (s.sendWire l w).link l = { d with wire := (s.link l).wire ++ [w] } :=
  ⟨_, Lays.emit _ (s.lanesOf l) w, s.link_modLink_same l _⟩

theorem State.link_modLink_other (s : State) {l k : Nat} (h : k ≠ l) (f : LinkCtx → LinkCtx) : (s.modLink l f).link k = s.link k :=
  (Store.get_put ..).trans (if_neg h)

/-! ## An operation on one link -/

/-- An operation on a link: registers that `p` names, and the context of link `l`. -/
structure LinkOnly (p : Nat → Bool) (l : Nat) (s t : State) : Prop where
  same : { t with regs := s.regs, links := s.links } = s
  regs : RegsSame p s t
  others : ∀ k, k ≠ l → t.link k = s.link k

namespace LinkOnly

variable {p q : Nat → Bool} {l : Nat}

theorem refl (s : State) : LinkOnly p l s s := ⟨rfl, fun _ _ => rfl, fun _ _ => rfl⟩

theorem trans (h : LinkOnly p l s₀ s) (k : LinkOnly p l s t) : LinkOnly p l s₀ t :=
  ⟨(congrArg (fun x : State => ({ x with regs := s₀.regs, links := s₀.links } : State)) k.same).trans h.same, h.regs.trans k.regs,
    fun m hm => (k.others m hm).trans (h.others m hm)⟩

theorem mono (h : LinkOnly p l s t) (hpq : ∀ a, p a = true → q a = true) : LinkOnly q l s t := ⟨h.same, h.regs.mono hpq, h.others⟩

theorem rset (h : LinkOnly p l s₀ s) {a : Nat} (ha : p a = true) (v : Word) : LinkOnly p l s₀ (s.rset a v) :=
  h.trans ⟨rfl, RegsSame.rset s ha v, fun _ _ => rfl⟩

theorem fset (h : LinkOnly p l s₀ s) {f : Fld} (hf : p f.addr = true) (v : Nat) : LinkOnly p l s₀ (s.fset f v) := h.rset hf _

theorem setFlag (h : LinkOnly p l s₀ s) {f : Fld} (hf : p f.addr = true) (b : Bool) : LinkOnly p l s₀ (s.setFlag f b) := h.rset hf _

theorem count (h : LinkOnly p l s₀ s) {f : Fld} (hf : p f.addr = true) (k : Nat) : LinkOnly p l s₀ (s.count f k) := h.rset hf _

theorem modLink (h : LinkOnly p l s₀ s) (f : LinkCtx → LinkCtx) : LinkOnly p l s₀ (s.modLink l f) :=
  h.trans ⟨rfl, fun _ _ => rfl, fun _ hm => s.link_modLink_other hm f⟩

theorem sendWire (h : LinkOnly p l s₀ s) (w : Wire) : LinkOnly p l s₀ (s.sendWire l w) :=
  h.modLink fun c => { c.emit (s.lanesOf l) w with wire := c.wire ++ [w] }

theorem mem (h : LinkOnly p l s t) : t.mem = s.mem := (congrArg State.mem h.same :)
theorem staged (h : LinkOnly p l s t) : t.staged = s.staged := (congrArg State.staged h.same :)
theorem splits (h : LinkOnly p l s t) : t.splits = s.splits := (congrArg State.splits h.same :)
theorem txq (h : LinkOnly p l s t) : t.txq = s.txq := (congrArg State.txq h.same :)

end LinkOnly

/-! ## RETRAIN begins -/

/-- The registers that say in which state a link is. -/
def retrainReg (l a : Nat) : Bool := a == R.LINK_STATUS l || a == R.LINK_RETRAIN l

theorem State.link_fset (s : State) (f : Fld) (v l : Nat) : (s.fset f v).link l = s.link l := rfl

theorem State.linkState_fset_same (s : State) (l : Nat) {st : Nat} (h : st < 8) : (s.fset (R.LINK_STATUS_STATE l) st).linkState l = st :=
  (s.fget_fset_same (f := R.LINK_STATUS_STATE l) st (show 0 ≤ 2 by decide) (show 2 < 32 by decide)).trans (Nat.mod_eq_of_lt h)

/-- An ACTIVE link that begins RETRAIN asks its partner for it. -/
theorem State.enterRetrain_active {l : Nat} (h : s.linkState l = lkActive) :
    let t := s.enterRetrain l
    LinkOnly (retrainReg l) l s t ∧ t.linkState l = lkRetrain ∧
      ∃ d, Lays (s.link l) d ∧ t.link l = { d with entered := some s.now, amTick := 0, wire := (s.link l).wire ++ [.linkctl .retrain] } := by
  unfold State.enterRetrain
  rw [if_pos h]
  extract_lets r
  have hr : LinkOnly (retrainReg l) l s r := ((LinkOnly.refl s).modLink _).sendWire _
  obtain ⟨d, hd, hlink⟩ := State.link_sendWire (s.modLink l fun c => { c with entered := some s.now, amTick := 0 }) l (.linkctl .retrain)
  rw [State.link_modLink_same] at hd hlink
  have hstatus : retrainReg l (R.LINK_STATUS l) = true := by simp [retrainReg]
  have hretrain : retrainReg l (R.LINK_RETRAIN l) = true := by simp [retrainReg]
  refine ⟨(hr.fset (f := R.LINK_STATUS_STATE l) hstatus _).count (f := R.LINK_RETRAIN_COUNT l) hretrain 1, ?_,
    { d with entered := (s.link l).entered, amTick := (s.link l).amTick }, ⟨?_⟩, ?_⟩
  · refine (State.fget_fset_addr _ _ ?_).trans (r.linkState_fset_same l (by decide))
    unfold R.LINK_RETRAIN_COUNT R.LINK_RETRAIN R.LINK_STATUS_STATE R.LINK_STATUS
    dsimp only
    omega
  · exact (congrArg (fun c : LinkCtx => ({ c with entered := (s.link l).entered, amTick := (s.link l).amTick } : LinkCtx)) hd.same :)
  · have hent : d.entered = some s.now := (congrArg LinkCtx.entered hd.same :)
    have ham : d.amTick = 0 := (congrArg LinkCtx.amTick hd.same :)
    refine hlink.trans ?_
    rw [← hent, ← ham]

end Sys2Proof.Machine
end

section
/-! SUPPORT. Fenced lanes of a link (12_serial_links.md R299), and the statement about fences. -/

namespace Sys2Proof.Machine

variable {s₀ s t : State}

/-- The registers of links are apart from those of sessions, event counters and the moraine. -/
theorem linkReg_apart {a : Nat} (h : 0x20000 ≤ a ∧ a < 0x40000) : counting a = false ∧ sessReg a = false ∧ recordReg a = false := by
  refine ⟨counting_of_lt (by omega), List.any_eq_false.2 fun n hn => ?_, ?_⟩
  · have := List.mem_range.1 hn
    simp [R.SESS_STAT, R.SESS_LOAD]
    omega
  · simp [recordReg, R.MRN_SEQ, R.MRN_STATUS, R.MRN_OLDEST]
    omega

/-! ## A fenced lane -/

/-- What a fenced lane shows of its own. -/
def laneReg (l j a : Nat) : Bool := a == R.LINK_LANEFENCE l || a == R.LANE_STAT l j || a == R.SR_GEN

theorem State.laneFenced_spec (s : State) {l j : Nat} (cause : Nat) (inj : Bool) (hl : l < 12) (hj : j < 8) (hroom : s.staged.length < 128) :
    let t := s.laneFenced l j cause inj
    Notes (laneReg l j) s t ∧ Talks s t ∧ t.fencedLanes l = s.fencedLanes l ||| 2 ^ j ∧ t.staged.length = s.staged.length + 1 := by
  intro t
  have ht : t = s.laneFenced l j cause inj := rfl
  clear_value t
  unfold State.laneFenced at ht
  extract_lets s₁ s₂ at ht
  have h₂ : Notes (laneReg l j) s s₂ :=
    (((Notes.refl s).fset (f := R.LINK_LANEFENCE_FENCE l) (by simp [laneReg, R.LINK_LANEFENCE_FENCE]) _).rset (a := R.LANE_STAT l j)
      (by simp [laneReg]) 0).fset (f := R.SR_GEN_COUNT) (by simp [laneReg, R.SR_GEN_COUNT]) _
  have htalks₂ : Talks s s₂ := .of_eq rfl rfl
  have hlanes₂ : s₂.fencedLanes l = s.fencedLanes l ||| 2 ^ j := by
    have hgen : R.LINK_LANEFENCE l ≠ R.SR_GEN := by
      unfold R.LINK_LANEFENCE R.SR_GEN
      omega
    have hstat : R.LINK_LANEFENCE l ≠ R.LANE_STAT l j := by
      unfold R.LINK_LANEFENCE R.LANE_STAT
      omega
    have hmask : s.fencedLanes l ||| 2 ^ j < 2 ^ 8 :=
      Nat.or_lt_two_pow (field_lt _ 7 0) (Nat.pow_lt_pow_right (by decide) hj)
    refine (State.fget_fset_addr _ _ hgen).trans ((State.fget_congr (State.rget_rset_other _ _ hstat)).trans ?_)
    exact (State.fget_fset_same _ _ (show 0 ≤ 7 by decide) (show 7 < 32 by decide)).trans (Nat.mod_eq_of_lt hmask)
  have hstaged₂ : s₂.staged = s.staged := rfl
  clear_value s₂
  rcases hfree : s₂.free with ⟨w, s₃⟩
  rw [hfree] at ht
  dsimp only at ht
  have hfree : Counts s₂ s₃ := State.free_counts hfree
  have hstaged₃ : s₃.staged = s₂.staged := (congrArg State.staged hfree.same :)
  generalize (if inj = true then (5 : Byte) else if cause = 4 then 1 else w.setWidth 8) = c at ht
  rw [ht]
  obtain ⟨hstage, hlen⟩ := State.stage_logs s₃ (by rw [hstaged₃, hstaged₂]; exact hroom) 0x41
    [2, 0, BitVec.ofNat 8 (8 * l + j), 0, c] (!inj) inj none
  generalize s₃.stage 0x41 [2, 0, BitVec.ofNat 8 (8 * l + j), 0, c] (!inj) inj none = s₄ at *
  have hevent := State.chipEvent_reports (fun _ => false) s₄ 0x302 [BitVec.ofNat 32 (8 * l + j), BitVec.ofNat 32 cause]
  have htalks := State.chipEvent_talks s₄ 0x302 [BitVec.ofNat 32 (8 * l + j), BitVec.ofNat 32 cause]
  have hbehind : Notes (fun _ => false) s₂ (s₄.chipEvent 0x302 [BitVec.ofNat 32 (8 * l + j), BitVec.ofNat 32 cause]) :=
    ((Notes.of_counts hfree).trans (.of_logs hstage fun a ha => by rw [ha, Bool.or_true])).trans (.of_reports hevent)
  refine ⟨h₂.trans (hbehind.mono fun _ h => absurd h Bool.false_ne_true),
    ((htalks₂.trans (.of_counts hfree)).trans (.of_logs hstage)).trans htalks, ?_, ?_⟩
  · refine (State.fget_congr (hbehind.rget ?_)).trans hlanes₂
    obtain ⟨hcnt, hses, hrec⟩ := linkReg_apart (a := R.LINK_LANEFENCE l) (by unfold R.LINK_LANEFENCE; omega)
    show (false || counting (R.LINK_LANEFENCE l) || sessReg (R.LINK_LANEFENCE l) || recordReg (R.LINK_LANEFENCE l)) = false
    rw [hcnt, hses, hrec]
    rfl
  · have hstaged₅ : (s₄.chipEvent 0x302 [BitVec.ofNat 32 (8 * l + j), BitVec.ofNat 32 cause]).staged = s₄.staged :=
      (congrArg State.staged hevent.same :)
    rw [hstaged₅, hlen, hstaged₃, hstaged₂]

/-- The fault registers of a link's block are behind the others. -/
theorem fltReg_of_low {l a : Nat} (h : a < R.LINK_STATUS l + 0xef0) : fltReg (linkBase l) a = false := by
  refine decide_eq_false ?_
  unfold R.LINK_STATUS at h
  unfold linkBase
  omega

/-- LANELOSS in LINK_EVT, and the link block's source (Table 12.4). -/
theorem State.linkEvts_loss {l : Nat} (hroom : s.staged.length < 128) (hact : s.nibble (linkBase l) 2 % 8 < 3) :
    Logs (fun a => a == R.LINK_EVT l || raiseReg (linkBase l) a) s (s.linkEvts l [2]) := by
  have hact' : (s.rset (R.LINK_EVT l) (s.rget (R.LINK_EVT l) ||| BitVec.ofNat 32 (2 ^ 2))).nibble (linkBase l) 2 % 8 < 3 := by
    rwa [State.nibble, State.rget_rset_other _ _ (by unfold R.FLT_REACT R.LINK_EVT linkBase; omega)]
  obtain ⟨hraise, -⟩ := State.raise_spec (s := s.rset (R.LINK_EVT l) (s.rget (R.LINK_EVT l) ||| BitVec.ofNat 32 (2 ^ 2))) (b := linkBase l)
    (src := 2) (by unfold linkBase; omega) (by decide) hroom hact'
  exact ((Logs.refl s).rset (by simp) _).trans (hraise.mono fun a ha => by rw [ha, Bool.or_true])

/-- A register of a link's block below its flags is apart from what LANELOSS sets. -/
theorem lossReg_of_low {l a : Nat} (hl : l < 12) (hlo : 0x20000 + l * 0x1000 ≤ a) (hhi : a < 0x20000 + l * 0x1000 + 0x14) :
    (a == R.LINK_EVT l || raiseReg (linkBase l) a) = false := by
  obtain ⟨-, -, hrec⟩ := linkReg_apart (a := a) (by omega)
  have hevt : a ≠ R.LINK_EVT l := by
    unfold R.LINK_EVT
    omega
  have hflt : fltReg (linkBase l) a = false := decide_eq_false (by unfold linkBase; omega)
  simp [raiseReg, hevt, hflt, hrec]

theorem nibble_congr {b src : Nat} (h : t.rget (R.FLT_REACT b (src / 8)) = s.rget (R.FLT_REACT b (src / 8))) : t.nibble b src = s.nibble b src := by
  rw [State.nibble, State.nibble, h]

/-- FENCE of a lane, before the retrain. -/
theorem State.fenceLane_spec (s : State) {l j : Nat} (hl : l < 12) (hj : j < 8) (hmild : Mild s (linkBase l) 2) :
    let t := s.fenceLane l j 4
    Talks s t ∧ t.mem = s.mem ∧ t.links = s.links ∧ t.fencedLanes l = s.fencedLanes l ||| 2 ^ j ∧ t.linkState l = s.linkState l := by
  obtain ⟨hroom, hact⟩ := id hmild
  obtain ⟨hnotes, htalks, hlanes, hlen⟩ := s.laneFenced_spec (l := l) (j := j) 4 false hl hj (by omega)
  have heq : s.fenceLane l j 4 = (s.laneFenced l j 4).linkEvts l [2] := rfl
  rw [heq]
  generalize s.laneFenced l j 4 = r at *
  have hreact : r.nibble (linkBase l) 2 = s.nibble (linkBase l) 2 := by
    refine nibble_congr (hnotes.rget ?_)
    obtain ⟨hcnt, hses, hrec⟩ := linkReg_apart (a := R.FLT_REACT (linkBase l) (2 / 8)) (by unfold R.FLT_REACT linkBase; omega)
    have hlane : laneReg l j (R.FLT_REACT (linkBase l) (2 / 8)) = false := by
      simp [laneReg, R.FLT_REACT, linkBase, R.LINK_LANEFENCE, R.LANE_STAT, R.SR_GEN]
      omega
    rw [hcnt, hses, hrec, hlane]
    rfl
  have hevt := State.linkEvts_loss (s := r) (l := l) (by omega) (by rwa [hreact])
  have hlinks : r.links = s.links := hnotes.links
  have hlow {a : Nat} (hlo : 0x20000 + l * 0x1000 ≤ a) (hhi : a < 0x20000 + l * 0x1000 + 0x14) : (r.linkEvts l [2]).rget a = r.rget a :=
    hevt.rget (lossReg_of_low hl hlo hhi) (linkReg_apart (by omega)).1
  refine ⟨htalks.trans (.of_logs hevt), hevt.mem.trans hnotes.mem, (congrArg State.links hevt.same :).trans hlinks, ?_, ?_⟩
  · exact (State.fget_congr (f := R.LINK_LANEFENCE_FENCE l) (hlow (by unfold R.LINK_LANEFENCE_FENCE R.LINK_LANEFENCE; dsimp only; omega)
      (by unfold R.LINK_LANEFENCE_FENCE R.LINK_LANEFENCE; dsimp only; omega))).trans hlanes
  · refine State.fget_congr (f := R.LINK_STATUS_STATE l) ((hlow (by unfold R.LINK_STATUS_STATE R.LINK_STATUS; dsimp only; omega)
      (by unfold R.LINK_STATUS_STATE R.LINK_STATUS; dsimp only; omega)).trans (hnotes.rget ?_))
    obtain ⟨hcnt, hses, hrec⟩ := linkReg_apart (a := R.LINK_STATUS l) (by unfold R.LINK_STATUS; omega)
    have hlane : laneReg l j (R.LINK_STATUS l) = false := by
      simp [laneReg, R.LINK_STATUS, R.LINK_LANEFENCE, R.LANE_STAT, R.SR_GEN]
      omega
    show (laneReg l j (R.LINK_STATUS l) || counting (R.LINK_STATUS l) || sessReg (R.LINK_STATUS l) || recordReg (R.LINK_STATUS l)) = false
    rw [hcnt, hses, hrec, hlane]
    rfl

/-! ## FENCE of a lane -/

section

variable {q : Req} {l : Fin 12} {j : Fin 8}

/-- FENCE of a lane that passes the checks is asked of its link. -/
theorem doFence_lane (hruns : s.runs 0x71 q = true) (hfree : s.flag R.ENG_STATUS_HOLDING = false) (hkind : q.n 0 = 2)
    (hunit : q.n 1 = 8 * l.val + j.val) (hroom : s.splits.length < 256) : doFence q s = s.routine.askLane q (8 * l.val + j.val) := by
  have hrange : ¬(4 ≤ q.n 0 ∨ kindRange (q.n 0) ≤ q.n 1) := by
    rw [hkind]
    refine not_or.2 ⟨by decide, ?_⟩
    show ¬96 ≤ q.n 1
    omega
  unfold doFence
  rw [State.request_of_runs_free hruns hfree]
  dsimp only
  rw [if_neg hrange, if_neg (by rw [s.routine_counts.splits]; omega), if_pos hkind, hunit]

theorem State.lastGood_congr (hstate : t.linkState l = s.linkState l) (hlink : t.link l = s.link l) (hlanes : t.fencedLanes l = s.fencedLanes l) :
    t.lastGood l j = s.lastGood l j := by
  unfold State.lastGood State.trained
  rw [hstate, hlink, hlanes]

theorem Enters.link (h : Enters q s t) (k : Nat) : t.link k = s.link k := by
  unfold State.link
  rw [h.links]

theorem Enters.linkReg (h : Enters q s t) {a : Nat} (ha : 0x20000 ≤ a ∧ a < 0x40000) : t.rget a = s.rget a :=
  h.rget (startReg_of_lt (by omega) (fun n hn => by unfold R.SESS_STAT; omega) (by unfold R.ENG_STATUS; omega))

theorem Enters.linkState (h : Enters q s t) (l : Fin 12) : t.linkState l = s.linkState l :=
  State.fget_congr (h.linkReg (by unfold R.LINK_STATUS_STATE R.LINK_STATUS; dsimp only; omega))

theorem Enters.fencedLanes (h : Enters q s t) (l : Fin 12) : t.fencedLanes l = s.fencedLanes l :=
  State.fget_congr (h.linkReg (by unfold R.LINK_LANEFENCE_FENCE R.LINK_LANEFENCE; dsimp only; omega))

/-- A good lane beside one that is to be fenced. -/
theorem State.lastGood_active (hactive : s.linkState l = lkActive) :
    s.lastGood l j = true ↔ ∀ k ∈ (s.link l).good, k = j.val ∨ (s.fencedLanes l).testBit k = true := by
  have htrained : s.trained l = true := by
    unfold State.trained
    rw [hactive]
    rfl
  unfold State.lastGood
  rw [if_pos htrained]
  simp only [List.all_eq_true, Bool.or_eq_true, beq_iff_eq]

theorem askLane_last (hnew : (s.fencedLanes l).testBit j = false) (hlast : s.lastGood l j = true) :
    s.askLane q (8 * l.val + j.val) = s.fail 0x71 q St.busy := by
  have hl : (8 * l.val + j.val) / 8 = l := by omega
  have hj : (8 * l.val + j.val) % 8 = j := by omega
  unfold State.askLane
  rw [hl, hj]
  dsimp only
  rw [if_neg (by rw [hnew]; exact Bool.false_ne_true), if_pos hlast]

theorem askLane_fences (hnew : (s.fencedLanes l).testBit j = false) (hlast : s.lastGood l j = false) (hactive : s.linkState l = lkActive) :
    s.askLane q (8 * l.val + j.val) =
      (((s.start 0x71 q).fenceLane l j 4).modLink l fun c => { c with pendFence := c.pendFence ++ [s.ids] }).enterRetrain l := by
  have hl : (8 * l.val + j.val) / 8 = l := by omega
  have hj : (8 * l.val + j.val) % 8 = j := by omega
  unfold State.askLane
  rw [hl, hj]
  dsimp only
  rw [if_neg (by rw [hnew]; exact Bool.false_ne_true), if_neg (by rw [hlast]; exact Bool.false_ne_true), if_pos (.inl hactive)]

/-- FENCE of a lane of an ACTIVE link. -/
theorem doFence_lane_active (hruns : s.runs 0x71 q = true) (hkind : q.n 0 = 2) (hunit : q.n 1 = 8 * l.val + j.val)
    (hfree : s.flag R.ENG_STATUS_HOLDING = false) (hroom : s.splits.length < 256) (hnew : (s.fencedLanes l).testBit j = false)
    (hactive : s.linkState l = lkActive) (hgood : ∃ k ∈ (s.link l).good, k ≠ j.val ∧ (s.fencedLanes l).testBit k = false)
    (hmild : Mild s (linkBase l) 2) :
    let t := doFence q s
    Begun t 0x71 q ∧ t.fencedLanes l = s.fencedLanes l ||| 2 ^ j.val ∧ t.linkState l = lkRetrain ∧ s.ids ∈ (t.link l).pendFence ∧
      MemSame s t := by
  have hcounts : Enters q s s.routine := .of_counts s.routine_counts
  have hstart := s.routine_start_enters 0x71 q
  have hbegun := s.routine.start_begun 0x71 q [] 0
  have hlast : s.routine.lastGood l j = false := by
    rw [State.lastGood_congr (hcounts.linkState l) (hcounts.link l) (hcounts.fencedLanes l), ← Bool.not_eq_true, State.lastGood_active hactive]
    intro hall
    obtain ⟨k, hk, hne, hbit⟩ := hgood
    rcases hall k hk with h | h
    · exact hne h
    · rw [hbit] at h
      exact Bool.false_ne_true h
  dsimp only
  rw [doFence_lane hruns hfree hkind hunit hroom,
    askLane_fences (by rw [hcounts.fencedLanes l]; exact hnew) hlast ((hcounts.linkState l).trans hactive), s.routine_counts.ids]
  generalize s.routine.start 0x71 q = r at *
  have hmild' : Mild r (linkBase l) 2 := hmild.congr hstart.staged (hstart.linkReg (by unfold R.FLT_REACT linkBase; omega))
  obtain ⟨htalks, hmem, hlinks, hlanes, hstate⟩ := r.fenceLane_spec l.isLt j.isLt hmild'
  generalize r.fenceLane l j 4 = f at *
  have hfl : LinkOnly (retrainReg l) l f (f.modLink l fun c => { c with pendFence := c.pendFence ++ [s.ids] }) := (LinkOnly.refl f).modLink _
  have hpend : s.ids ∈ ((f.modLink l fun c => { c with pendFence := c.pendFence ++ [s.ids] }).link l).pendFence := by
    rw [State.link_modLink_same]
    exact List.mem_append_right _ (List.mem_singleton_self _)
  have hstate' : (f.modLink l fun c => { c with pendFence := c.pendFence ++ [s.ids] }).linkState l = lkActive :=
    hstate.trans ((hstart.linkState l).trans hactive)
  generalize f.modLink l (fun c => { c with pendFence := c.pendFence ++ [s.ids] }) = m at *
  obtain ⟨honly, hretrain, d, hd, hlink⟩ := State.enterRetrain_active hstate'
  have hall := hfl.trans honly
  refine ⟨(hbegun.of_talks htalks).of_talks (.of_eq hall.splits hall.txq), ?_, hretrain, ?_, .of_mem (hall.mem.trans (hmem.trans hstart.mem))⟩
  · have hapart : retrainReg l (R.LINK_LANEFENCE l) = false := by
      simp [retrainReg, R.LINK_LANEFENCE, R.LINK_STATUS, R.LINK_RETRAIN]
    refine (State.fget_congr (f := R.LINK_LANEFENCE_FENCE l) (hall.regs _ hapart)).trans (hlanes.trans ?_)
    rw [hstart.fencedLanes l]
  · have hsame : d.pendFence = (m.link l).pendFence := (congrArg LinkCtx.pendFence hd.same :)
    rw [hlink]
    exact hsame ▸ hpend

theorem doFence_lane_last (hruns : s.runs 0x71 q = true) (hkind : q.n 0 = 2) (hunit : q.n 1 = 8 * l.val + j.val)
    (hfree : s.flag R.ENG_STATUS_HOLDING = false) (hroom : s.splits.length < 256) (hnew : (s.fencedLanes l).testBit j = false)
    (hactive : s.linkState l = lkActive) (hnone : ∀ k ∈ (s.link l).good, k = j.val ∨ (s.fencedLanes l).testBit k = true) :
    doFence q s = s.routine.fail 0x71 q St.busy := by
  have hcounts : Enters q s s.routine := .of_counts s.routine_counts
  rw [doFence_lane hruns hfree hkind hunit hroom]
  refine askLane_last (by rw [hcounts.fencedLanes l]; exact hnew) ?_
  rw [State.lastGood_congr (hcounts.linkState l) (hcounts.link l) (hcounts.fencedLanes l)]
  exact (State.lastGood_active hactive).2 hnone

end

/-! ## The obligation -/

/-- Settles O50, clause by clause: a unit whose tile is in a step waits for its boundary, a sentinel is fenced at once, a lane with the retrain. -/
theorem unitsFence : Obligations.UnitsFence := by
  unfold Obligations.UnitsFence
  refine ⟨fun q s hruns => ⟨fun hbad => ?_, fun u hunit hbusy hnew hfree hroom => ?_, fun hkind hfree hlt hnew hreq hstaged hroom => ?_⟩,
    fun q s l j hruns hkind hunit hfree hroom hnew hactive => ⟨fun hnone => ?_, fun hgood hmild => ?_⟩, fun w s => ?_,
    fun k v s hzero hlo hhi => ?_, fun ch b s hretest => ?_,
    fun ch s hretest hbusy hunfence => ⟨?_, fun hnew hroom => ?_⟩⟩
  case refine_1 =>
    have hexec : exec (.fence q) s = .next (doFence q s) := congrArg Host.Outcome.next (State.byTable_of_runs hruns _)
    rw [doFence_outside hruns hbad] at hexec
    exact ⟨_, hexec, s.routine_fail_completes 0x71 q St.badParam 0⟩
  case refine_2 =>
    exact ⟨_, congrArg Host.Outcome.next (State.byTable_of_runs hruns _), doFence_busy hruns hunit hbusy hnew hfree hroom⟩
  case refine_3 =>
    exact ⟨_, congrArg Host.Outcome.next (State.byTable_of_runs hruns _), doFence_sentinel hruns hkind hfree hlt hnew hreq hstaged hroom⟩
  case refine_4 =>
    have hexec : exec (.fence q) s = .next (doFence q s) := congrArg Host.Outcome.next (State.byTable_of_runs hruns _)
    rw [doFence_lane_last hruns hkind hunit hfree hroom hnew hactive hnone] at hexec
    obtain ⟨hans, hmem, hregs⟩ := s.routine_fail_completes 0x71 q St.busy 0
    exact ⟨_, hexec, hans, s.routine_fail_splits 0x71 q St.busy 0, hmem, hregs⟩
  case refine_5 =>
    exact ⟨_, congrArg Host.Outcome.next (State.byTable_of_runs hruns _),
      doFence_lane_active hruns hkind hunit hfree hroom hnew hactive hgood hmild⟩
  case refine_6 =>
    exact ⟨_, congrArg Host.Outcome.next (doFenceMaskWrite_same w s), rfl, fun _ _ => rfl, .of_mem rfl⟩
  case refine_7 => exact ⟨_, rfl, doFenceMaskWrite_chan k v hzero hlo hhi⟩
  case refine_8 => exact congrArg Host.Outcome.next (if_pos hretest)
  case refine_9 => exact ⟨_, rfl, doChannelRetestDone_passed hretest hbusy hunfence⟩
  case refine_10 => exact ⟨_, rfl, doChannelRetestDone_failed hretest hbusy hnew hroom⟩

end Sys2Proof.Machine
end

section
/-! SUPPORT. Acknowledgements, replay and credits of an ACTIVE link (12_serial_links.md R291 to R295). -/

namespace Sys2Proof.Machine

variable {s₀ s t : State} {l : Nat}

/-! ## Sequences of things that a link sends -/

/-- What a link has sent in a row follows what it had sent. -/
theorem State.link_sendWires {α : Type} (s : State) (l : Nat) (f : α → Wire) (ws : List α) :
    LinkOnly (fun _ => false) l s (ws.foldl (fun s w => s.sendWire l (f w)) s) ∧
      ∃ d, Lays (s.link l) d ∧ (ws.foldl (fun s w => s.sendWire l (f w)) s).link l = { d with wire := (s.link l).wire ++ ws.map f } := by
  induction ws generalizing s with
  | nil =>
    refine ⟨.refl s, s.link l, .refl _, ?_⟩
    show s.link l = { s.link l with wire := (s.link l).wire ++ [] }
    rw [List.append_nil]
  | cons w ws ih =>
    obtain ⟨honly, d, hd, hlink⟩ := ih (s.sendWire l (f w))
    obtain ⟨b, hb, hsent⟩ := s.link_sendWire l (f w)
    refine ⟨((LinkOnly.refl s).sendWire (f w)).trans honly, { d with wire := (s.link l).wire }, ⟨?_⟩, ?_⟩
    · rw [hsent] at hd
      have hwire : b.wire = (s.link l).wire := (congrArg LinkCtx.wire hb.same :)
      have hback : ({ d with tx := b.tx, line := b.line, next := b.next, wire := (s.link l).wire } : LinkCtx) = b := by
        refine (congrArg (fun c : LinkCtx => ({ c with wire := (s.link l).wire } : LinkCtx)) hd.same).trans ?_
        rw [← hwire]
      exact (congrArg (fun c : LinkCtx => ({ c with tx := (s.link l).tx, line := (s.link l).line, next := (s.link l).next } : LinkCtx))
        hback).trans hb.same
    · have hwire : ((s.sendWire l (f w)).link l).wire = (s.link l).wire ++ [f w] := by rw [hsent]
      rw [List.foldl_cons, hlink, hwire, List.append_assoc]
      rfl

/-! ## Event messages that are due, and a CLASS 0 frame -/

/-- The event messages that are due leave ahead of frames (R295). -/
theorem State.eventsEdge_spec (h : s.linkState l = lkActive) :
    LinkOnly (fun _ => false) l s (s.eventsEdge l) ∧ ∃ d, Lays (s.link l) d ∧
      (s.eventsEdge l).link l = { d with events := [], wire := (s.link l).wire ++ (s.link l).events.map fun e => .event e.1 e.2 } := by
  unfold State.eventsEdge
  split
  case isTrue hnone =>
    have hempty : (s.link l).events = [] := by
      rcases Bool.or_eq_true_iff.1 hnone with hne | hnil
      · rw [h] at hne
        exact absurd hne (by decide)
      · exact List.isEmpty_iff.1 hnil
    refine ⟨.refl s, s.link l, .refl _, ?_⟩
    rw [hempty, List.map_nil, List.append_nil, ← hempty]
  case isFalse =>
    have hclear : LinkOnly (fun _ => false) l s (s.modLink l fun c => { c with events := [] }) := (LinkOnly.refl s).modLink _
    obtain ⟨honly, d, hd, hlink⟩ := (s.modLink l fun c => { c with events := [] }).link_sendWires l (fun e : Nat × Nat => .event e.1 e.2)
      (s.link l).events
    rw [State.link_modLink_same] at hd hlink
    refine ⟨hclear.trans honly, { d with events := (s.link l).events }, ⟨?_⟩, ?_⟩
    · exact (congrArg (fun c : LinkCtx => ({ c with events := (s.link l).events } : LinkCtx)) hd.same :)
    · have hnil : d.events = [] := (congrArg LinkCtx.events hd.same :)
      rw [hlink, ← hnil]

/-- A CLASS 0 frame has left on a link, behind the event messages that were due. -/
structure Acked (l : Nat) (s t : State) : Prop where
  frame : ∃ g : Frame, (t.link l).wire = (s.link l).wire ++ (s.link l).events.map (fun e => .event e.1 e.2) ++ [.frame g] ∧ g.cls = 0 ∧
    g.ack = BitVec.ofNat 12 (s.link l).rxAck ∧ g.nak = (s.link l).nak
  events : (t.link l).events = []
  rxAck : (t.link l).rxAck = (s.link l).rxAck
  nak : (t.link l).nak = (s.link l).nak
  outst : (t.link l).outst = (s.link l).outst
  regs : RegsSame counting s t
  mem : t.mem = s.mem

theorem State.sendAck_acked (h : s.linkState l = lkActive) : Acked l s (s.sendAck l) := by
  obtain ⟨hedge, d, hd, hlink⟩ := State.eventsEdge_spec h
  unfold State.sendAck
  extract_lets r f
  have hack : d.rxAck = (s.link l).rxAck := (congrArg LinkCtx.rxAck hd.same :)
  have hnak : d.nak = (s.link l).nak := (congrArg LinkCtx.nak hd.same :)
  have hf : f.cls = 0 ∧ f.ack = BitVec.ofNat 12 (r.link l).rxAck ∧ f.nak = (r.link l).nak := ⟨rfl, rfl, rfl⟩
  clear_value f
  have hlink : r.link l = { d with events := [], wire := (s.link l).wire ++ (s.link l).events.map fun e => .event e.1 e.2 } := hlink
  have honly : LinkOnly (fun _ => false) l s ((r.modLink l fun c => c.returned f).sendWire l (.frame f)) := (hedge.modLink _).sendWire _
  clear_value r
  obtain ⟨b, hb, hsent⟩ := State.link_sendWire (r.modLink l fun c => c.returned f) l (.frame f)
  rw [State.link_modLink_same, hlink] at hb hsent
  have hcount := State.evCount_counts ((r.modLink l fun c => c.returned f).sendWire l (.frame f)) (16 + 4 * l) 1 none
  generalize (r.modLink l fun c => c.returned f).sendWire l (.frame f) = w at *
  have hlast : (w.evCount (16 + 4 * l)).link l =
      { b with wire := (s.link l).wire ++ ((s.link l).events.map fun e => Wire.event e.1 e.2) ++ [.frame f] } := by
    refine Eq.trans ?_ hsent
    unfold State.link
    rw [hcount.links]
  obtain ⟨hcls, hfack, hfnak⟩ := hf
  rw [hlink] at hfack hfnak
  refine ⟨⟨f, by rw [hlast], hcls, hfack.trans (congrArg _ hack), hfnak.trans hnak⟩, ?_, ?_, ?_, ?_, ?_, hcount.mem.trans honly.mem⟩
  · rw [hlast]
    exact (congrArg LinkCtx.events hb.same :)
  · rw [hlast]
    exact (congrArg LinkCtx.rxAck hb.same :).trans hack
  · rw [hlast]
    exact (congrArg LinkCtx.nak hb.same :).trans hnak
  · rw [hlast]
    exact (congrArg LinkCtx.outst hb.same :).trans (congrArg LinkCtx.outst hd.same :)
  · exact (honly.regs.mono fun _ h => absurd h Bool.false_ne_true).trans hcount.regs

/-! ## Replay -/

/-- An ACK changes the replay buffer of the link alone. -/
theorem State.ackIn_spec (s : State) (l : Nat) (ack : BitVec 12) :
    LinkOnly (fun _ => false) l s (s.ackIn l ack) ∧ ∃ o, (s.ackIn l ack).link l = { s.link l with outst := o } := by
  unfold State.ackIn
  extract_lets c
  split
  case h_1 i hi =>
    exact ⟨(LinkOnly.refl s).modLink fun _ => { c with outst := c.outst.drop (i + 1) }, _, s.link_modLink_same l fun _ => _⟩
  case h_2 => exact ⟨.refl s, (s.link l).outst, rfl⟩

/-- A frame as it is sent again: it carries the acknowledgement of its time. -/
def LinkCtx.resent (c : LinkCtx) (e : Frame × Nat) : Wire := .frame { e.1 with ack := BitVec.ofNat 12 c.rxAck, nak := c.nak }

/-- The outstanding frames are sent again, none of them too often. -/
theorem State.replay_spec (hfew : ∀ e ∈ (s.link l).outst, e.2 < 7) :
    (s.replay l).mem = s.mem ∧ RegsSame (fun a => counting a || a == R.LINK_REPLAY l) s (s.replay l) ∧
      ((s.replay l).link l).outst = (s.link l).outst.map (fun e => (e.1, e.2 + 1)) ∧
      ((s.replay l).link l).wire.length = (s.link l).wire.length + (s.link l).outst.length := by
  have hlimit : (((s.link l).outst.map fun e => (e.1, e.2 + 1)).any fun e => decide (8 ≤ e.2)) = false := by
    rw [List.any_map]
    refine List.any_eq_false.2 fun e he => ?_
    have := hfew e he
    simp only [Function.comp, decide_eq_true_eq]
    omega
  unfold State.replay
  extract_lets c again n r q
  have hagain : (again.any fun e => decide (8 ≤ e.2)) = false := hlimit
  rw [if_neg (by rw [hagain]; exact Bool.false_ne_true)]
  have hset : LinkOnly (fun _ => false) l s (s.setLink l { c with outst := again }) := (LinkOnly.refl s).modLink fun _ => { c with outst := again }
  have hlink : (s.setLink l { c with outst := again }).link l = { c with outst := again } := s.link_modLink_same l fun _ => _
  obtain ⟨honly, d, hd, hsent⟩ := (s.setLink l { c with outst := again }).link_sendWires l c.resent again
  have honly : LinkOnly (fun _ => false) l s r := hset.trans honly
  have hsent : r.link l = { d with wire := ((s.setLink l { c with outst := again }).link l).wire ++ again.map c.resent } := hsent
  rw [hlink] at hd hsent
  have hr : (r.link l).outst = again ∧ (r.link l).wire.length = (s.link l).wire.length + (s.link l).outst.length := by
    rw [hsent]
    refine ⟨(congrArg LinkCtx.outst hd.same :), ?_⟩
    show ((s.link l).wire ++ _).length = _
    rw [List.length_append, List.length_map, List.length_map]
  have hq : q.mem = r.mem ∧ RegsSame (fun a => counting a || a == R.LINK_REPLAY l) r q ∧ q.links = r.links := by
    unfold q
    split
    case isTrue => exact ⟨rfl, fun _ _ => rfl, rfl⟩
    case isFalse =>
      clear_value r
      have hc₁ := State.evCount_counts (r.count (R.LINK_REPLAY_COUNT l) n) (16 + 4 * l) n none
      have hc₂ := State.evCount_counts ((r.count (R.LINK_REPLAY_COUNT l) n).evCount (16 + 4 * l) n) (18 + 4 * l) n none
      have hset : RegsSame (fun a => counting a || a == R.LINK_REPLAY l) r (r.count (R.LINK_REPLAY_COUNT l) n) :=
        RegsSame.rset r (by simp [R.LINK_REPLAY_COUNT]) _
      refine ⟨hc₂.mem.trans hc₁.mem, (hset.trans (hc₁.regs.mono fun a ha => by rw [ha, Bool.true_or])).trans
        (hc₂.regs.mono fun a ha => by rw [ha, Bool.true_or]), hc₂.links.trans hc₁.links⟩
  obtain ⟨hmem, hregs, hlinks⟩ := hq
  have hlinkq : q.link l = r.link l := by
    unfold State.link
    rw [hlinks]
  rw [hlinkq]
  exact ⟨hmem.trans honly.mem, (honly.regs.mono fun _ h => absurd h Bool.false_ne_true).trans hregs, hr⟩

/-! ## Credits -/

/-- Credits of one class return, up to 1,023. -/
def State.credited (s : State) (f : Fld) (n : Nat) : State := s.fset f (min 1023 (s.fget f + n))

theorem State.credited_same (s : State) {f : Fld} (n : Nat) (hlo : f.lo ≤ f.hi) (hhi : f.hi < 32) (hw : f.hi - f.lo + 1 = 10) :
    (s.credited f n).fget f = min 1023 (s.fget f + n) := by
  rw [State.credited, State.fget_fset_same _ _ hlo hhi, hw]
  exact Nat.mod_eq_of_lt (by omega)

theorem State.creditIn_eq (s : State) (l : Nat) (f : Frame) : s.creditIn l f =
    ((s.credited (R.LINK_CREDIT_CMD l) f.crCmd.toNat).credited (R.LINK_CREDIT_RSP l) f.crRsp.toNat).credited (R.LINK_CREDIT_STRM l)
      f.crStrm.toNat := rfl

theorem State.creditIn_spec (s : State) (l : Nat) (f : Frame) :
    LinkOnly (fun a => a == R.LINK_CREDIT l) l s (s.creditIn l f) ∧ (s.creditIn l f).links = s.links ∧
      (s.creditIn l f).fget (R.LINK_CREDIT_CMD l) = min 1023 (s.fget (R.LINK_CREDIT_CMD l) + f.crCmd.toNat) ∧
      (s.creditIn l f).fget (R.LINK_CREDIT_RSP l) = min 1023 (s.fget (R.LINK_CREDIT_RSP l) + f.crRsp.toNat) ∧
      (s.creditIn l f).fget (R.LINK_CREDIT_STRM l) = min 1023 (s.fget (R.LINK_CREDIT_STRM l) + f.crStrm.toNat) := by
  have hcmd : (R.LINK_CREDIT_CMD l).lo = 0 ∧ (R.LINK_CREDIT_CMD l).hi = 9 ∧ (R.LINK_CREDIT_CMD l).addr = R.LINK_CREDIT l := ⟨rfl, rfl, rfl⟩
  have hrsp : (R.LINK_CREDIT_RSP l).lo = 10 ∧ (R.LINK_CREDIT_RSP l).hi = 19 ∧ (R.LINK_CREDIT_RSP l).addr = R.LINK_CREDIT l := ⟨rfl, rfl, rfl⟩
  have hstrm : (R.LINK_CREDIT_STRM l).lo = 20 ∧ (R.LINK_CREDIT_STRM l).hi = 29 ∧ (R.LINK_CREDIT_STRM l).addr = R.LINK_CREDIT l := ⟨rfl, rfl, rfl⟩
  rw [State.creditIn_eq]
  generalize R.LINK_CREDIT_CMD l = cmd at *
  generalize R.LINK_CREDIT_RSP l = rsp at *
  generalize R.LINK_CREDIT_STRM l = strm at *
  obtain ⟨hclo, hchi, hca⟩ := hcmd
  obtain ⟨hrlo, hrhi, hra⟩ := hrsp
  obtain ⟨hslo, hshi, hsa⟩ := hstrm
  have hother (r : State) {g h : Fld} (n : Nat) (hd : h.hi < g.lo ∨ g.hi < h.lo) (hg : g.lo ≤ g.hi) (hh : h.lo ≤ h.hi) :
      (r.credited g n).fget h = r.fget h := State.fget_fset_disjoint _ _ hd hg hh
  refine ⟨(((LinkOnly.refl s).fset (by simp [hca]) _).fset (by simp [hra]) _).fset (by simp [hsa]) _, rfl, ?_, ?_, ?_⟩
  · rw [hother _ _ (by omega) (by omega) (by omega), hother _ _ (by omega) (by omega) (by omega),
      State.credited_same _ _ (by omega) (by omega) (by omega)]
  · rw [hother _ _ (by omega) (by omega) (by omega), State.credited_same _ _ (by omega) (by omega) (by omega),
      hother _ _ (by omega) (by omega) (by omega)]
  · rw [State.credited_same _ _ (by omega) (by omega) (by omega), hother _ _ (by omega) (by omega) (by omega),
      hother _ _ (by omega) (by omega) (by omega)]

end Sys2Proof.Machine
end

section
/-! SUPPORT. A frame in order is taken into the device (12_serial_links.md R291, R294). -/

namespace Sys2Proof.Machine

variable {s₀ s t : State} {k : Fin 12}

/-- What taking a frame in leaves as it is with no streaming operation running: memory, and of link `k` the acknowledged sequence number, NAK and
the credits. -/
structure Passes (k : Fin 12) (s t : State) : Prop where
  mem : t.mem = s.mem
  writes : t.writes = s.writes
  rxAck : (t.link k).rxAck = (s.link k).rxAck
  nak : (t.link k).nak = (s.link k).nak
  credit : t.rget (R.LINK_CREDIT k) = s.rget (R.LINK_CREDIT k)

namespace Passes

theorem refl (s : State) : Passes k s s := ⟨rfl, rfl, rfl, rfl, rfl⟩

theorem trans (h : Passes k s₀ s) (g : Passes k s t) : Passes k s₀ t :=
  ⟨g.mem.trans h.mem, g.writes.trans h.writes, g.rxAck.trans h.rxAck, g.nak.trans h.nak, g.credit.trans h.credit⟩

/-- An update of other fields. -/
theorem upd (h : Passes k s₀ s) (hmem : t.mem = s.mem) (hwrites : t.writes = s.writes) (hlinks : t.links = s.links) (hregs : t.regs = s.regs) :
    Passes k s₀ t := by
  have hlink : t.link k = s.link k := by
    unfold State.link
    rw [hlinks]
  exact h.trans ⟨hmem, hwrites, by rw [hlink], by rw [hlink], State.rget_congr hregs _⟩

theorem of_counts (h : Passes k s₀ s) (g : Counts s t) : Passes k s₀ t := by
  have hlink : t.link k = s.link k := by
    unfold State.link
    rw [g.links]
  refine h.trans ⟨g.mem, g.writes, by rw [hlink], by rw [hlink], g.regs _ ?_⟩
  refine decide_eq_false ?_
  unfold R.LINK_CREDIT
  omega

theorem fset (h : Passes k s₀ s) {f : Fld} (hf : f.addr < 0x20000) (v : Nat) : Passes k s₀ (s.fset f v) :=
  h.trans ⟨rfl, rfl, rfl, rfl, State.rget_fset_other _ _ (by unfold R.LINK_CREDIT; omega)⟩

theorem modCtx (h : Passes k s₀ s) (n : Nat) (f : Ctx → Ctx) : Passes k s₀ (s.modCtx n f) := h.upd rfl rfl rfl rfl

/-- The context of a link changes in what it receives, owes or is to send. -/
theorem modLink (h : Passes k s₀ s) (l : Nat) {f : LinkCtx → LinkCtx} (hack : ∀ c, (f c).rxAck = c.rxAck) (hnak : ∀ c, (f c).nak = c.nak) :
    Passes k s₀ (s.modLink l f) := by
  refine h.trans ⟨rfl, rfl, ?_, ?_, rfl⟩
  · by_cases hk : k.val = l
    · rw [hk, State.link_modLink_same, hack]
    · rw [State.link_modLink_other s hk]
  · by_cases hk : k.val = l
    · rw [hk, State.link_modLink_same, hnak]
    · rw [State.link_modLink_other s hk]

theorem ite {c : Prop} [Decidable c] {a b : State} (ha : Passes k s a) (hb : Passes k s b) : Passes k s (if c then a else b) := by
  split
  · exact ha
  · exact hb

theorem foldl {α : Type} {l : List α} {f : State → α → State} (h : Passes k s₀ s) (step : ∀ s, ∀ a ∈ l, Passes k s (f s a)) :
    Passes k s₀ (l.foldl f s) :=
  List.foldlRecOn l f h fun _ hb a ha => hb.trans (step _ a ha)

/-! ## Sessions and packets -/

theorem sessAddr {n : Nat} (hn : n < 32) : (R.SESS_LOAD_CELLS n).addr < 0x20000 ∧ (R.SESS_STAT_SLOTS n).addr < 0x20000 := by
  unfold R.SESS_LOAD_CELLS R.SESS_LOAD R.SESS_STAT_SLOTS R.SESS_STAT
  dsimp only
  omega

theorem send (h : Passes k s₀ s) (p : Packet) : Passes k s₀ (s.send p) := h.upd rfl rfl rfl rfl

theorem oweTo (h : Passes k s₀ s) (l cls n : Nat) : Passes k s₀ (s.oweTo l cls n) := h.modLink l (fun _ => rfl) fun _ => rfl

theorem freeCells (h : Passes k s₀ s) (n m : Nat) : Passes k s₀ (s.freeCells n m) := .ite h (h.modCtx n _)

theorem discard (h : Passes k s₀ s) : Passes k s₀ s.discard := h.fset (by decide) _

theorem frameOut (h : Passes k s₀ s) (outs : List Nat) (f : Frame) (pkt : Nat) (src : Option Nat) (own : Option Packet) :
    Passes k s₀ (s.frameOut outs f pkt src own) :=
  Passes.foldl (h.upd (t := s.newId.2) rfl rfl rfl rfl) fun s l _ => (refl s).modLink l (fun _ => rfl) fun _ => rfl

theorem deliver (h : Passes k s₀ s) (op : BitVec 8) (q : Req) : Passes k s₀ (s.deliver op q) := by
  have hid : Passes k s₀ ((s.evCount 4).newId).2 := (h.of_counts (State.evCount_counts s 4 1 none)).upd rfl rfl rfl rfl
  obtain ⟨hcells, hslots⟩ := sessAddr q.session.isLt
  unfold State.deliver
  generalize (s.evCount 4).newId = x at *
  obtain ⟨id, r⟩ := x
  dsimp -zeta only at hid ⊢
  extract_lets n q₁ r₁ cells used win noSlot whole excess q₂ r₂ r₃ r₄ r₅
  split
  case isTrue =>
    split
    · exact hid.discard
    · exact hid.upd rfl rfl rfl rfl
  case isFalse =>
    have h₁ : Passes k s₀ r₁ := hid.fset (f := R.SESS_STAT_LINK n) hslots _
    split
    case isTrue => exact h₁.upd rfl rfl rfl rfl
    case isFalse =>
      have h₂ : Passes k s₀ r₂ := h₁.trans (.ite ((refl r₁).fset (f := R.SESS_STAT_OVERRUN n) hslots _) (refl r₁))
      have h₃ : Passes k s₀ r₃ := h₂.trans (.ite (refl r₂) ((refl r₂).fset (f := R.SESS_STAT_SLOTS n) hslots _))
      have h₄ : Passes k s₀ r₄ := h₃.trans (.ite ((refl r₃).freeCells ..) (.ite ((refl r₃).freeCells ..) (refl r₃)))
      have h₅ : Passes k s₀ r₅ := h₄.fset (f := R.SESS_LOAD_CELLS n) hcells _
      have hitem : Passes k s₀ { r₅ with items := r₅.items ++ [Item.request op q₂] } := h₅.upd rfl rfl rfl rfl
      exact hitem.fset (f := R.SESS_LOAD_PEND n) hcells _

theorem uncount (h : Passes k s₀ s) (p : RxPkt) : Passes k s₀ (s.uncount p) :=
  h.fset (f := R.SESS_LOAD_CELLS p.session) (sessAddr (Nat.mod_lt _ (by decide))).1 _

theorem cellsBack (h : Passes k s₀ s) (p : RxPkt) : Passes k s₀ (s.cellsBack p) := .ite h ((h.uncount p).freeCells ..)

theorem taken (h : Passes k s₀ s) (op : BitVec 8) (q : Req) : Passes k s₀ (s.taken op q) := by
  obtain ⟨hcells, -⟩ := sessAddr q.session.isLt
  unfold State.taken
  extract_lets n held r₁ r₂
  have h₁ : Passes k s₀ r₁ := h.fset (f := R.SESS_LOAD_PEND n) hcells _
  have h₂ : Passes k s₀ r₂ := h₁.fset (f := R.SESS_LOAD_CELLS n) hcells _
  exact .ite h (h₂.freeCells ..)

theorem writeLost (h : Passes k s₀ s) (hnone : s.writes = []) (l : Nat) : Passes k s₀ (s.writeLost l) := by
  unfold State.writeLost
  rw [hnone]
  extract_lets r lost gone
  have hr : Passes k s₀ r := h
  have hitems : Passes k s₀ { r with items := r.items.filter fun i => !lost i } := hr.upd rfl rfl rfl rfl
  refine hitems.foldl fun s i _ => ?_
  split
  case h_1 op q hi =>
    have h₁ : Passes k s (s.taken op q) := (refl s).taken op q
    exact .ite h₁ ((h₁.fset (f := R.SESS_STAT_SLOTS q.session.toNat) (sessAddr q.session.isLt).2 _).modCtx ..)
  case h_2 => exact refl s

theorem noRoute (h : Passes k s₀ s) (q : Req) (op : BitVec 8) (dest : Nat) : Passes k s₀ (s.noRoute q op dest) := by
  unfold State.noRoute
  extract_lets r
  have hr : Passes k s₀ r := (h.fset (f := R.PROTO_NOROUTE_COUNT) (by decide) _).fset (f := R.SESS_STAT_LINK q.session.toNat)
    (sessAddr q.session.isLt).2 _
  exact hr.send _

theorem countCells (s : State) (p : RxPkt) (cls : Nat) : Passes k s (s.countCells p cls).1 := by
  unfold State.countCells
  split
  · exact refl s
  · exact (refl s).fset (f := R.SESS_LOAD_CELLS p.session) (sessAddr (Nat.mod_lt _ (by decide))).1 _

/-! ## A packet begins, goes on and ends -/

theorem beginStrm (s : State) (l : Nat) (b : List Byte) (p : RxPkt) : Passes k s (s.beginStrm l b p).1 := by
  unfold State.beginStrm
  extract_lets g pc q x
  split
  · exact refl s
  split
  case h_1 => exact refl s
  case h_2 n _ =>
    extract_lets outs
    split
    · exact refl s
    · exact (refl s).of_counts (State.evCount_counts ..)

theorem beginPkt (s : State) (l cls : Nat) (b : List Byte) : Passes k s (s.beginPkt l cls b).1 := by
  unfold State.beginPkt
  have hid : Passes k s s.newId.2 := (refl s).upd rfl rfl rfl rfl
  generalize s.newId = x at *
  obtain ⟨id, r⟩ := x
  dsimp -zeta only at hid ⊢
  extract_lets p up rt
  split
  · exact hid.trans (beginStrm ..)
  split
  · exact hid.fset (f := R.PROTO_HDRERR_COUNT) (by decide) _
  split
  · split
    · exact hid
    · exact hid.discard
  split
  · exact hid.discard
  · exact hid

theorem packetAt (s : State) (l cls : Nat) (f : Frame) (old : RxPkt) : Passes k s (s.packetAt l cls f old).1 := by
  unfold State.packetAt
  split
  · exact beginPkt ..
  · exact refl s

theorem cellsWait (h : Passes k s₀ s) (q : Req) (before new : Nat) : Passes k s₀ (s.cellsWait q before new) := by
  obtain ⟨hcells, hslots⟩ := sessAddr q.session.isLt
  unfold State.cellsWait
  extract_lets n used r
  refine h.trans (.ite ((refl s).freeCells ..) (.ite (refl s) (.ite ((refl s).fset (f := R.SESS_LOAD_CELLS n) hcells _) ?_)))
  exact (((refl s).fset (f := R.SESS_STAT_OVERRUN n) hslots _).fset (f := R.SESS_LOAD_CELLS n) hcells _).freeCells n before |>.trans
    ⟨rfl, rfl, rfl, rfl, rfl⟩

theorem cellsIn (h : Passes k s₀ s) (hnone : s.writes = []) (q : Req) (got : List Byte) (before : Nat) (final : Bool) :
    Passes k s₀ (s.cellsIn q got before final) := by
  unfold State.cellsIn
  extract_lets n new
  split
  case h_1 w hw =>
    rw [hnone] at hw
    cases hw
  case h_2 =>
    split
    · exact .trans h (.ite (refl s) ((refl s).cellsWait ..))
    · exact h.freeCells ..

theorem cellsEnd (h : Passes k s₀ s) (hnone : s.writes = []) (q : Req) : Passes k s₀ (s.cellsEnd q) := by
  unfold State.cellsEnd
  split
  case h_1 w hw =>
    rw [hnone] at hw
    cases hw
  case h_2 => exact h.upd rfl rfl rfl rfl

theorem streamOn (h : Passes k s₀ s) (hnone : s.writes = []) (l : Fin 12) (cls : Nat) (old p : RxPkt) (f : Frame) :
    Passes k s₀ (s.streamOn l cls old p f) := by
  unfold State.streamOn
  extract_lets q l' from_ got begun whole r
  split
  case isTrue =>
    split
    · exact h
    · have hmod : Passes k s begun := (refl s).modLink l' (fun _ => rfl) fun _ => rfl
      exact h.trans (hmod.deliver ..)
  split
  · exact h.writeLost hnone _
  · have hr : Passes k s r := (refl s).cellsIn hnone ..
    exact h.trans (.ite (hr.cellsEnd (hr.writes.trans hnone) _) hr)

theorem endPkt (h : Passes k s₀ s) (l : Fin 12) {cls : Nat} (hcls : cls ≠ 3) (p : RxPkt) (v : Verdict) : Passes k s₀ (s.endPkt l cls p v) := by
  unfold State.endPkt
  extract_lets b q
  rw [if_neg hcls]
  exact h.trans (.ite ((refl s).deliver ..) ((refl s).noRoute ..))

/-- A frame in order, but not the last of a stream packet, with no streaming operation running. -/
theorem acceptFrame (h : Passes k s₀ s) (hnone : s.writes = []) (l : Fin 12) (f : Frame) (hlast : f.cls ≠ 3 ∨ f.eop = false) :
    Passes k s₀ (s.acceptFrame l f) := by
  unfold State.acceptFrame
  extract_lets cls k' old drop
  refine h.trans ?_
  split
  · exact (refl s).oweTo ..
  have hat : Passes k s (s.packetAt k' cls f old).1 := packetAt ..
  generalize s.packetAt k' cls f old = x at *
  obtain ⟨r₁, p₁⟩ := x
  dsimp -zeta only at hat ⊢
  have hcount : Passes k s (r₁.countCells { p₁ with bytes := p₁.bytes ++ f.bytes, frames := p₁.frames + 1 } cls).1 := hat.trans (countCells ..)
  generalize r₁.countCells { p₁ with bytes := p₁.bytes ++ f.bytes, frames := p₁.frames + 1 } cls = x at *
  obtain ⟨r₂, p⟩ := x
  dsimp -zeta only at hcount ⊢
  extract_lets r₃ r₄ r₅ r₆
  have h₃ : Passes k s r₃ := hcount.modLink k' (fun _ => rfl) fun _ => rfl
  have h₄ : Passes k s r₄ := h₃.trans (.ite (.ite (refl r₃) ((refl r₃).oweTo ..)) ((refl r₃).frameOut ..))
  have h₅ : Passes k s r₅ := h₄.streamOn (h₄.writes.trans hnone) ..
  clear_value r₅
  split
  case isTrue => exact h₅
  case isFalse heop =>
    have hcls : cls ≠ 3 := by
      rcases hlast with hne | hend
      · intro heq
        exact hne (BitVec.eq_of_toNat_eq heq)
      · rw [hend] at heop
        exact absurd rfl heop
    have h₆ : Passes k s r₆ := h₅.modLink k' (fun _ => rfl) fun _ => rfl
    clear_value r₆
    rw [if_neg hcls]
    refine h₆.trans (.ite ((refl r₆).cellsBack p) (.ite (Passes.endPkt ?_ l hcls p f.verdict) (refl r₆)))
    exact .ite (refl r₆) ((refl r₆).uncount p)

end Passes

end Sys2Proof.Machine
end

section
/-! SUPPORT. Frames that an ACTIVE link receives (12_serial_links.md R291 to R293). -/

namespace Sys2Proof.Machine

variable {s t : State} {l : Fin 12} {f : Frame}

theorem LinkOnly.writes {p : Nat → Bool} {l : Nat} (h : LinkOnly p l s t) : t.writes = s.writes := (congrArg State.writes h.same :)

/-- A frame that is in order behind the acknowledged one. -/
def State.inOrder (s : State) (l : Fin 12) (f : Frame) : Bool := f.seq.toNat == ((s.link l).rxAck + 1) % 4096

/-- An intact frame is counted, its ACK releases frames of the replay buffer. -/
def State.received (s : State) (l : Fin 12) (f : Frame) : State :=
  ((s.evCount (17 + 4 * l.val)).ackIn l f.ack).modLink l fun c => { c with since := c.since + 1 }

theorem State.received_spec (s : State) (l : Fin 12) (f : Frame) :
    let r := s.received l f
    r.mem = s.mem ∧ r.writes = s.writes ∧ RegsSame counting s r ∧ (r.link l).rxAck = (s.link l).rxAck ∧ (r.link l).nak = (s.link l).nak ∧
      (r.link l).since = (s.link l).since + 1 := by
  intro r
  have hcount := State.evCount_counts s (17 + 4 * l.val) 1 none
  obtain ⟨hack, o, hlink⟩ := (s.evCount (17 + 4 * l.val)).ackIn_spec l f.ack
  have hsince : LinkOnly (fun _ => false) l ((s.evCount (17 + 4 * l.val)).ackIn l f.ack) r := (LinkOnly.refl _).modLink _
  have hbase : (s.evCount (17 + 4 * l.val)).link l = s.link l := by
    unfold State.link
    rw [hcount.links]
  have hr : r.link l = { s.link l with outst := o, since := (s.link l).since + 1 } := by
    unfold r State.received
    rw [State.link_modLink_same, hlink, hbase]
  have hall := hack.trans hsince
  have hwrites : r.writes = (s.evCount (17 + 4 * l.val)).writes := (congrArg State.writes hall.same :)
  rw [hr]
  exact ⟨hall.mem.trans hcount.mem, hwrites.trans hcount.writes, hcount.regs.trans (hall.regs.mono fun _ h => absurd h Bool.false_ne_true),
    rfl, rfl, rfl⟩

/-- What follows behind an intact frame that is not a NAK. -/
def State.takenIn (r : State) (l : Fin 12) (f : Frame) : State :=
  let c := if f.cls = 0 || r.inOrder l f then r.creditIn l f else r
  if f.cls = 0 || !r.inOrder l f then c else (c.modLink l fun c => { c with rxAck := f.seq.toNat, nak := false }).acceptFrame l f

theorem doFrameReceive_intact (hactive : s.linkState l = lkActive) (hloop : (s.link l).loop = false) (hcrc : f.crc = none ∨ f.crc = some f.crc32)
    (hecc : s.eccFrame = false) (hnak : f.nak = false) :
    let t := (s.received l f).takenIn l f
    doFrameReceive l f s = if 32 ≤ (t.link l).since ∧ t.linkState l = lkActive then t.sendAck l else t := by
  have hintact : f.intact = true := by
    unfold Frame.intact
    rcases hcrc with h | h <;> rw [h] <;> simp
  intro t
  unfold doFrameReceive
  extract_lets k bad r₁ r₂ inOrder r₃ r₄ r₅
  have hk : k = l.val := rfl
  have hr₅ : r₅ = t := if_neg (by rw [hnak]; exact Bool.false_ne_true)
  rw [if_neg (by rw [hk, hactive]; decide), if_neg (by rw [hk, hloop]; exact Bool.false_ne_true), if_neg (by rw [hintact, hecc]; decide), hr₅]

theorem Acked.linkState {s t : State} {l : Nat} (h : Acked l s t) (hl : l < 12) : t.linkState l = s.linkState l :=
  State.fget_congr (h.regs _ (counting_of_lt (by unfold R.LINK_STATUS_STATE R.LINK_STATUS; dsimp only; omega)))

theorem creditReg_apart (l : Fin 12) : counting (R.LINK_CREDIT l) = false := counting_of_lt (by unfold R.LINK_CREDIT; omega)

/-- A frame that comes before 31 others have gone unanswered is not answered at once. -/
theorem doFrameReceive_unanswered (hactive : s.linkState l = lkActive) (hloop : (s.link l).loop = false)
    (hcrc : f.crc = none ∨ f.crc = some f.crc32) (hecc : s.eccFrame = false) (hnak : f.nak = false) (hsince : (s.link l).since + 1 < 32)
    (hlink : (((s.received l f).takenIn l f).link l).since = ((s.received l f).link l).since) :
    doFrameReceive l f s = (s.received l f).takenIn l f := by
  obtain ⟨-, -, -, -, -, hcount⟩ := s.received_spec l f
  rw [doFrameReceive_intact hactive hloop hcrc hecc hnak]
  refine if_neg fun h => ?_
  obtain ⟨hmany, -⟩ := h
  rw [hlink, hcount] at hmany
  omega

/-- A frame of CLASS 0 returns its credits. -/
theorem doFrameReceive_class0 (hactive : s.linkState l = lkActive) (hloop : (s.link l).loop = false)
    (hcrc : f.crc = none ∨ f.crc = some f.crc32) (hecc : s.eccFrame = false) (hnak : f.nak = false) (hsince : (s.link l).since + 1 < 32)
    (hcls : f.cls = 0) :
    let t := doFrameReceive l f s
    (t.link l).rxAck = (s.link l).rxAck ∧ t.fget (R.LINK_CREDIT_CMD l) = min 1023 (s.fget (R.LINK_CREDIT_CMD l) + f.crCmd.toNat) ∧
      t.fget (R.LINK_CREDIT_RSP l) = min 1023 (s.fget (R.LINK_CREDIT_RSP l) + f.crRsp.toNat) ∧
      t.fget (R.LINK_CREDIT_STRM l) = min 1023 (s.fget (R.LINK_CREDIT_STRM l) + f.crStrm.toNat) ∧
      RegsSame (fun a => counting a || a == R.LINK_CREDIT l) s t ∧ MemSame s t := by
  have htaken : (s.received l f).takenIn l f = (s.received l f).creditIn l f := by
    unfold State.takenIn
    extract_lets c
    rw [if_pos (by rw [hcls]; rfl)]
    exact if_pos (by rw [hcls]; rfl)
  obtain ⟨hmem, -, hregs, hack, -, -⟩ := s.received_spec l f
  obtain ⟨honly, hlinks, hcmd, hrsp, hstrm⟩ := (s.received l f).creditIn_spec l f
  have hlink : ((s.received l f).creditIn l f).link l = (s.received l f).link l := by
    unfold State.link
    rw [hlinks]
  dsimp only
  rw [doFrameReceive_unanswered hactive hloop hcrc hecc hnak hsince (by rw [htaken, hlink]), htaken, hlink]
  have hold {g : Fld} (hg : g.addr = R.LINK_CREDIT l) : (s.received l f).fget g = s.fget g :=
    State.fget_congr (hregs _ (by rw [hg]; exact creditReg_apart l))
  rw [hold rfl] at hcmd hrsp hstrm
  exact ⟨hack, hcmd, hrsp, hstrm, (hregs.mono fun a ha => by rw [ha, Bool.true_or]).trans (honly.regs.mono fun a ha => by rw [ha, Bool.or_true]),
    .of_mem (honly.mem.trans hmem)⟩

/-- A frame of CLASS 1 to 3 out of order changes neither. -/
theorem doFrameReceive_outOfOrder (hactive : s.linkState l = lkActive) (hloop : (s.link l).loop = false)
    (hcrc : f.crc = none ∨ f.crc = some f.crc32) (hecc : s.eccFrame = false) (hnak : f.nak = false) (hsince : (s.link l).since + 1 < 32)
    (hcls : f.cls ≠ 0) (hout : ¬f.seq.toNat = ((s.link l).rxAck + 1) % 4096) :
    let t := doFrameReceive l f s
    (t.link l).rxAck = (s.link l).rxAck ∧ (t.link l).nak = (s.link l).nak ∧ RegsSame counting s t ∧ MemSame s t := by
  obtain ⟨hmem, -, hregs, hack, hnak', -⟩ := s.received_spec l f
  have horder : (s.received l f).inOrder l f = false := by
    unfold State.inOrder
    rw [hack]
    exact beq_false_of_ne hout
  have htaken : (s.received l f).takenIn l f = s.received l f := by
    have hno : ¬(f.cls = 0 || (s.received l f).inOrder l f) = true := by
      rw [horder, Bool.or_false]
      simpa using hcls
    unfold State.takenIn
    extract_lets c
    rw [if_pos (by rw [horder, Bool.not_false, Bool.or_true])]
    exact if_neg hno
  dsimp only
  rw [doFrameReceive_unanswered hactive hloop hcrc hecc hnak hsince (by rw [htaken]), htaken]
  exact ⟨hack, hnak', hregs, .of_mem hmem⟩

/-- A frame of CLASS 1 to 3 in order becomes the acknowledged one. -/
theorem doFrameReceive_inOrder (hactive : s.linkState l = lkActive) (hloop : (s.link l).loop = false)
    (hcrc : f.crc = none ∨ f.crc = some f.crc32) (hecc : s.eccFrame = false) (hnak : f.nak = false)
    (hcls : f.cls ≠ 0) (hin : f.seq.toNat = ((s.link l).rxAck + 1) % 4096) (hlast : f.cls ≠ 3 ∨ f.eop = false) (hnone : s.writes = []) :
    let t := doFrameReceive l f s
    (t.link l).rxAck = f.seq.toNat ∧ (t.link l).nak = false ∧
      t.fget (R.LINK_CREDIT_CMD l) = min 1023 (s.fget (R.LINK_CREDIT_CMD l) + f.crCmd.toNat) ∧ MemSame s t := by
  obtain ⟨hmem, hwrites, hregs, hack, -, -⟩ := s.received_spec l f
  obtain ⟨honly, -, hcmd, -, -⟩ := (s.received l f).creditIn_spec l f
  have horder : (s.received l f).inOrder l f = true := by
    unfold State.inOrder
    rw [hack]
    exact beq_iff_eq.2 hin
  have htaken : (s.received l f).takenIn l f =
      (((s.received l f).creditIn l f).modLink l fun c => { c with rxAck := f.seq.toNat, nak := false }).acceptFrame l f := by
    have hno : ¬(f.cls = 0 || !(s.received l f).inOrder l f) = true := by
      rw [horder, Bool.not_true, Bool.or_false]
      simpa using hcls
    unfold State.takenIn
    extract_lets c
    have hc : c = (s.received l f).creditIn l f := if_pos (by rw [horder, Bool.or_true])
    rw [if_neg hno, hc]
  have hold : (s.received l f).fget (R.LINK_CREDIT_CMD l) = s.fget (R.LINK_CREDIT_CMD l) := State.fget_congr (hregs _ (creditReg_apart l))
  dsimp only
  rw [doFrameReceive_intact hactive hloop hcrc hecc hnak, htaken]
  rw [hold] at hcmd
  have hmem' := honly.mem.trans hmem
  have hnone' := honly.writes.trans (hwrites.trans hnone)
  generalize (s.received l f).creditIn l f = r₀ at *
  have hnew : (r₀.modLink l fun c => { c with rxAck := f.seq.toNat, nak := false }).link l = { r₀.link l with rxAck := f.seq.toNat, nak := false } :=
    State.link_modLink_same ..
  have hset : LinkOnly (fun _ => false) l r₀ (r₀.modLink l fun c => { c with rxAck := f.seq.toNat, nak := false }) := (LinkOnly.refl _).modLink _
  generalize r₀.modLink l (fun c => { c with rxAck := f.seq.toNat, nak := false }) = r at *
  have hack' : (r.link l).rxAck = f.seq.toNat := by rw [hnew]
  have hnak' : (r.link l).nak = false := by rw [hnew]
  have hpass := (Passes.refl (k := l) r).acceptFrame (hset.writes.trans hnone') l f hlast
  have hcmd' : r.fget (R.LINK_CREDIT_CMD l) = min 1023 (s.fget (R.LINK_CREDIT_CMD l) + f.crCmd.toNat) :=
    (State.fget_congr (hset.regs _ rfl)).trans hcmd
  have hmem' : r.mem = s.mem := hset.mem.trans hmem'
  generalize r.acceptFrame l f = a at *
  split
  case isTrue h =>
    have hsent := State.sendAck_acked h.2
    refine ⟨hsent.rxAck.trans (hpass.rxAck.trans hack'), hsent.nak.trans (hpass.nak.trans hnak'), ?_,
      .of_mem (hsent.mem.trans (hpass.mem.trans hmem'))⟩
    exact (State.fget_congr (hsent.regs _ (creditReg_apart l))).trans ((State.fget_congr hpass.credit).trans hcmd')
  case isFalse =>
    exact ⟨hpass.rxAck.trans hack', hpass.nak.trans hnak', (State.fget_congr hpass.credit).trans hcmd', .of_mem (hpass.mem.trans hmem')⟩

/-- A frame that fails its CRC, or meets an uncorrectable error, is counted and answered with a NAK. -/
theorem doFrameReceive_bad (hactive : s.linkState l = lkActive) (hloop : (s.link l).loop = false)
    (hbad : (∃ c, f.crc = some c ∧ c ≠ f.crc32) ∨ s.eccFrame = true) (hroom : s.fget (R.LINK_CRCERR_COUNT l) < 2 ^ 32 - 1) :
    ∃ g : Frame, (doFrameReceive l f s).fget (R.LINK_CRCERR_COUNT l) = s.fget (R.LINK_CRCERR_COUNT l) + 1 ∧
      ((doFrameReceive l f s).link l).nak = true ∧
      ((doFrameReceive l f s).link l).wire = (s.link l).wire ++ (s.link l).events.map (fun e => .event e.1 e.2) ++ [.frame g] ∧
      ((doFrameReceive l f s).link l).events = [] ∧ g.cls = 0 ∧ g.nak = true ∧ ((doFrameReceive l f s).link l).rxAck = (s.link l).rxAck ∧
      RegsSame (fun a => counting a || a == R.LINK_CRCERR l) s (doFrameReceive l f s) ∧ MemSame s (doFrameReceive l f s) := by
  have hcond : (!f.intact || s.eccFrame) = true := by
    rcases hbad with ⟨c, hc, hne⟩ | hecc
    · have hnot : f.intact = false := by
        unfold Frame.intact
        rw [hc]
        exact beq_false_of_ne hne
      rw [hnot]
      rfl
    · rw [hecc, Bool.or_true]
  have heq : doFrameReceive l f s =
      ((((({ s with eccFrame := false } : State).count (R.LINK_CRCERR_COUNT l)).evCount (19 + 4 * l.val)).modLink l
        fun c => { c with nak := true }).sendAck l) := by
    unfold doFrameReceive
    extract_lets k
    have hk : k = l.val := rfl
    rw [if_neg (by rw [hk, hactive]; decide), if_neg (by rw [hk, hloop]; exact Bool.false_ne_true), if_pos hcond]
  rw [heq]
  have hset : RegsSame (fun a => counting a || a == R.LINK_CRCERR l) s (({ s with eccFrame := false } : State).count (R.LINK_CRCERR_COUNT l)) := by
    intro a ha
    refine (State.rget_fset_other _ _ ?_).trans rfl
    rintro rfl
    simp [R.LINK_CRCERR_COUNT] at ha
  have hone : (({ s with eccFrame := false } : State).count (R.LINK_CRCERR_COUNT l)).fget (R.LINK_CRCERR_COUNT l) =
      s.fget (R.LINK_CRCERR_COUNT l) + 1 :=
    State.fget_count_of_lt (s := { s with eccFrame := false }) (f := R.LINK_CRCERR_COUNT l) (show 0 ≤ 31 by decide) (show 31 < 32 by decide) hroom
  have hlinks : (({ s with eccFrame := false } : State).count (R.LINK_CRCERR_COUNT l)).links = s.links := rfl
  have hmem : (({ s with eccFrame := false } : State).count (R.LINK_CRCERR_COUNT l)).mem = s.mem := rfl
  generalize ({ s with eccFrame := false } : State).count (R.LINK_CRCERR_COUNT l) = r at *
  have hcount := State.evCount_counts r (19 + 4 * l.val) 1 none
  generalize r.evCount (19 + 4 * l.val) = c at *
  have hlink : c.link l = s.link l := by
    unfold State.link
    rw [hcount.links, hlinks]
  have hmod : LinkOnly (fun _ => false) l c (c.modLink l fun c => { c with nak := true }) := (LinkOnly.refl _).modLink _
  have hnak : (c.modLink l fun c => { c with nak := true }).link l = { s.link l with nak := true } := by
    rw [State.link_modLink_same, hlink]
  have hcrc : counting (R.LINK_CRCERR l) = false := counting_of_lt (by unfold R.LINK_CRCERR; omega)
  have hstate : (c.modLink l fun c => { c with nak := true }).linkState l = lkActive := by
    refine (State.fget_congr (f := R.LINK_STATUS_STATE l) ((hmod.regs _ rfl).trans ((hcount.regs _ ?_).trans (hset _ ?_)))).trans hactive
    · exact counting_of_lt (by unfold R.LINK_STATUS_STATE R.LINK_STATUS; dsimp only; omega)
    · have hstat : counting (R.LINK_STATUS l) = false := counting_of_lt (by unfold R.LINK_STATUS; omega)
      have hne : R.LINK_STATUS l ≠ R.LINK_CRCERR l := by
        unfold R.LINK_STATUS R.LINK_CRCERR
        omega
      simp [R.LINK_STATUS_STATE, hstat, hne]
  generalize c.modLink l (fun c => { c with nak := true }) = m at *
  have hsent := State.sendAck_acked hstate
  obtain ⟨g, hwire, hcls, -, hgnak⟩ := hsent.frame
  rw [hnak] at hwire hgnak
  refine ⟨g, ?_, hsent.nak.trans (by rw [hnak]), hwire, hsent.events, hcls, hgnak, hsent.rxAck.trans (by rw [hnak]), ?_,
    .of_mem (hsent.mem.trans (hmod.mem.trans (hcount.mem.trans hmem)))⟩
  · exact (State.fget_congr ((hsent.regs _ hcrc).trans ((hmod.regs _ rfl).trans (hcount.regs _ hcrc)))).trans hone
  · have hweak {p : State} {q : State} (h : RegsSame counting p q) : RegsSame (fun a => counting a || a == R.LINK_CRCERR l) p q :=
      h.mono fun a ha => by rw [ha, Bool.true_or]
    exact ((hset.trans (hweak hcount.regs)).trans (hmod.regs.mono fun _ h => absurd h Bool.false_ne_true)).trans (hweak hsent.regs)

/-! ## The obligation -/

/-- Settles O43, clause by clause. That credits of a frame of CLASS 1 to 3 count in order only, and that a failed CRC alone is answered by a NAK, is
the model's choice (log entry 29). -/
theorem linksCarryFrames : Obligations.LinksCarryFrames := by
  unfold Obligations.LinksCarryFrames
  refine ⟨fun l f s hactive hloop => ?_, fun l f s hactive hloop hbad hroom => ?_, fun l f s hactive hloop hcrc hecc hnak hsince => ?_,
    fun l ack s hactive => ?_, fun l s hactive => ?_, fun l f ack s hdown => ⟨?_, ?_, ?_⟩⟩
  case refine_1 =>
    have heq : doFrameReceive l f s = s.sendWire l (.frame f) := by
      unfold doFrameReceive
      extract_lets k
      have hk : k = l.val := rfl
      rw [if_neg (by rw [hk, hactive]; decide), if_pos (by rw [hk, hloop])]
    have honly : LinkOnly (fun _ => false) l s (s.sendWire l (.frame f)) := (LinkOnly.refl s).sendWire _
    exact ⟨_, congrArg Host.Outcome.next heq, s.wire_sendWire l _, honly.regs, .of_mem honly.mem⟩
  case refine_2 =>
    obtain ⟨g, hall⟩ := doFrameReceive_bad hactive hloop hbad hroom
    exact ⟨_, g, rfl, hall⟩
  case refine_3 =>
    intro inOrder
    refine ⟨fun hcls => ⟨_, rfl, doFrameReceive_class0 hactive hloop hcrc hecc hnak hsince hcls⟩,
      fun hcls hout => ⟨_, rfl, doFrameReceive_outOfOrder hactive hloop hcrc hecc hnak hsince hcls hout⟩,
      fun hcls hin hlast hnone => ⟨_, rfl, doFrameReceive_inOrder hactive hloop hcrc hecc hnak hcls hin hlast hnone⟩⟩
  case refine_4 =>
    intro r hfew
    obtain ⟨honly, o, hlink⟩ := s.ackIn_spec l ack
    obtain ⟨hmem, hregs, houtst, hwire⟩ := State.replay_spec (s := s.ackIn l ack) (l := l) hfew
    have heq : doNakReceive l ack s = (s.ackIn l ack).replay l := if_pos hactive
    have hall : RegsSame (fun a => counting a || a == R.LINK_REPLAY l) s ((s.ackIn l ack).replay l) :=
      (honly.regs.mono fun _ h => absurd h Bool.false_ne_true).trans hregs
    refine ⟨_, congrArg Host.Outcome.next heq, houtst, ?_, (State.fget_congr (hall _ ?_)).trans hactive, hall,
      .of_mem (hmem.trans honly.mem)⟩
    · have hsame : ((s.ackIn l ack).link l).wire = (s.link l).wire := by rw [hlink]
      rw [hwire, hsame]
    have hstat : counting (R.LINK_STATUS l) = false := counting_of_lt (by unfold R.LINK_STATUS; omega)
    have hne : R.LINK_STATUS l ≠ R.LINK_REPLAY l := by
      unfold R.LINK_STATUS R.LINK_REPLAY
      omega
    simp [R.LINK_STATUS_STATE, hstat, hne]
  case refine_5 =>
    have heq : doAckTimer l s = s.sendAck l := if_pos hactive
    have hsent := State.sendAck_acked hactive
    obtain ⟨g, hwire, hcls, hack, hnak⟩ := hsent.frame
    exact ⟨_, g, congrArg Host.Outcome.next heq, hwire, hsent.events, hcls, hack, hnak, hsent.regs, .of_mem hsent.mem⟩
  case refine_6 =>
    refine congrArg Host.Outcome.next (if_pos ?_)
    exact bne_iff_ne.2 hdown
  case refine_7 => exact congrArg Host.Outcome.next (if_neg hdown)
  case refine_8 => exact congrArg Host.Outcome.next (if_neg hdown)

end Sys2Proof.Machine
end

section
/-! SUPPORT. What a link leaves as it is when it stops carrying frames (12_serial_links.md R294, R299, R304). -/

namespace Sys2Proof.Machine

variable {s₀ s t : State} {l : Nat}

/-- The registers of sessions, packets and operations, and the event counters. -/
def hostReg (a : Nat) : Bool := decide (a < 0x20000) || counting a || a == R.ENG_STATUS

/-- The buffers of a link are emptied: what its packets have to do with sessions and operations, and contexts of links. -/
structure Empties (l : Nat) (s t : State) : Prop where
  mem : t.mem = s.mem
  staged : t.staged = s.staged
  regs : RegsSame hostReg s t
  fails : (t.link l).fails = (s.link l).fails

namespace Empties

theorem refl (s : State) : Empties l s s := ⟨rfl, rfl, fun _ _ => rfl, rfl⟩

theorem trans (h : Empties l s₀ s) (k : Empties l s t) : Empties l s₀ t :=
  ⟨k.mem.trans h.mem, k.staged.trans h.staged, h.regs.trans k.regs, k.fails.trans h.fails⟩

/-- An update of other fields. -/
theorem upd (h : Empties l s₀ s) (hmem : t.mem = s.mem) (hstaged : t.staged = s.staged) (hlinks : t.links = s.links) (hregs : t.regs = s.regs) :
    Empties l s₀ t := by
  refine h.trans ⟨hmem, hstaged, fun a _ => State.rget_congr hregs a, ?_⟩
  unfold State.link
  rw [hlinks]

theorem of_regs (h : Empties l s₀ s) (hmem : t.mem = s.mem) (hstaged : t.staged = s.staged) (hlinks : t.links = s.links)
    (hregs : RegsSame hostReg s t) : Empties l s₀ t := by
  refine h.trans ⟨hmem, hstaged, hregs, ?_⟩
  unfold State.link
  rw [hlinks]

theorem of_counts (h : Empties l s₀ s) (k : Counts s t) : Empties l s₀ t :=
  h.of_regs k.mem (congrArg State.staged k.same :) k.links (k.regs.mono fun a ha => by rw [hostReg, ha, Bool.or_true, Bool.true_or])

theorem of_replies {n : Nat} (hn : n < 32) (h : Empties l s₀ s) (k : Replies n s t) : Empties l s₀ t :=
  h.of_regs k.mem k.staged k.links fun a ha => k.regs a (by
    rintro rfl
    have hlt : R.SESS_STAT n < 0x20000 := by
      unfold R.SESS_STAT
      omega
    rw [hostReg, decide_eq_true hlt] at ha
    exact absurd ha (by simp))

theorem of_completes (h : Empties l s₀ s) (k : Completes s t) : Empties l s₀ t :=
  h.of_regs k.mem k.staged k.links fun a ha => k.regs a (by
    rintro rfl
    exact absurd ha (by decide))

theorem fset (h : Empties l s₀ s) {f : Fld} (hf : f.addr < 0x20000) (v : Nat) : Empties l s₀ (s.fset f v) :=
  h.trans ⟨rfl, rfl, RegsSame.rset s (by rw [hostReg, decide_eq_true hf]; rfl) _, rfl⟩

theorem count (h : Empties l s₀ s) {f : Fld} (hf : f.addr < 0x20000) (k : Nat) : Empties l s₀ (s.count f k) := h.fset hf _

theorem modCtx (h : Empties l s₀ s) (n : Nat) (f : Ctx → Ctx) : Empties l s₀ (s.modCtx n f) := h.upd rfl rfl rfl rfl

theorem modLink (h : Empties l s₀ s) (k : Nat) {f : LinkCtx → LinkCtx} (hf : ∀ c, (f c).fails = c.fails) : Empties l s₀ (s.modLink k f) := by
  refine h.trans ⟨rfl, rfl, fun _ _ => rfl, ?_⟩
  by_cases hk : l = k
  · rw [hk, State.link_modLink_same, hf]
  · rw [State.link_modLink_other s hk]

theorem ite {c : Prop} [Decidable c] {a b : State} (ha : Empties l s a) (hb : Empties l s b) : Empties l s (if c then a else b) := by
  split
  · exact ha
  · exact hb

theorem foldl {α : Type} {m : List α} {f : State → α → State} (h : Empties l s₀ s) (step : ∀ s, ∀ a ∈ m, Empties l s (f s a)) :
    Empties l s₀ (m.foldl f s) :=
  List.foldlRecOn m f h fun _ hb a ha => hb.trans (step _ a ha)

/-! ## Sessions and packets -/

theorem freeCells (h : Empties l s₀ s) (n m : Nat) : Empties l s₀ (s.freeCells n m) := .trans h (.ite (refl s) ((refl s).modCtx n _))

theorem frameOut (h : Empties l s₀ s) (outs : List Nat) (f : Frame) (pkt : Nat) (src : Option Nat) (own : Option Packet) :
    Empties l s₀ (s.frameOut outs f pkt src own) :=
  Empties.foldl (h.upd (t := s.newId.2) rfl rfl rfl rfl) fun s k _ => (refl s).modLink k fun _ => rfl

theorem taken (h : Empties l s₀ s) (op : BitVec 8) (q : Req) : Empties l s₀ (s.taken op q) := by
  obtain ⟨hcells, -⟩ := Passes.sessAddr q.session.isLt
  unfold State.taken
  extract_lets n held r₁ r₂
  have h₁ : Empties l s r₁ := (refl s).fset (f := R.SESS_LOAD_PEND n) hcells _
  have h₂ : Empties l s r₂ := h₁.fset (f := R.SESS_LOAD_CELLS n) hcells _
  exact h.trans (.ite (refl s) (h₂.freeCells ..))

theorem fail (h : Empties l s₀ s) (op : BitVec 8) (q : Req) (st : BitVec 8) (p0 : Word) : Empties l s₀ (s.fail op q st p0) :=
  (h.of_counts (State.evCount_counts ..)).of_replies (BitVec.isLt _) (State.reply_replies ..)

theorem writeEnd (h : Empties l s₀ s) (w : Writing) : Empties l s₀ (s.writeEnd w St.crcError) := by
  unfold State.writeEnd
  extract_lets r₁ r₂ n
  have h₁ : Empties l s r₁ := (refl s).upd rfl rfl rfl rfl
  have h₂ : Empties l s r₂ := h₁.trans (.ite ((refl r₁).foldl fun s e _ => (refl s).upd rfl rfl rfl rfl) (refl r₁))
  clear_value r₂
  have hbad : ¬St.crcError = St.ok := by decide
  rw [if_neg fun e => hbad e.1, if_neg hbad]
  exact h.trans (h₂.fail ..)

theorem writeLost (h : Empties l s₀ s) (k : Nat) : Empties l s₀ (s.writeLost k) := by
  unfold State.writeLost
  extract_lets r lost gone
  have hr : Empties l s₀ r := h.foldl fun s w _ => (refl s).writeEnd w
  have hitems : Empties l s₀ { r with items := r.items.filter fun i => !lost i } := hr.upd rfl rfl rfl rfl
  refine hitems.foldl fun s i _ => ?_
  split
  case h_1 op q hi =>
    have h₁ : Empties l s (s.taken op q) := (refl s).taken op q
    exact .ite h₁ ((h₁.fset (f := R.SESS_STAT_SLOTS q.session.toNat) (Passes.sessAddr q.session.isLt).2 _).modCtx ..)
  case h_2 => exact refl s

theorem cellsBack (h : Empties l s₀ s) (p : RxPkt) : Empties l s₀ (s.cellsBack p) := by
  have huncount : Empties l s (s.uncount p) :=
    (refl s).fset (f := R.SESS_LOAD_CELLS p.session) (Passes.sessAddr (Nat.mod_lt _ (by decide))).1 _
  exact h.trans (.ite (refl s) (huncount.freeCells ..))

/-! ## The buffers of a link -/

theorem stompRx (h : Empties l s₀ s) (k : Nat) : Empties l s₀ (s.stompRx k) := by
  unfold State.stompRx
  extract_lets cut r r'
  have hr : Empties l s₀ r := h.upd rfl rfl rfl rfl
  have hr' : Empties l s₀ r' := hr.foldl fun s e _ => ((refl s).cellsBack e.2).frameOut ..
  exact hr'.modLink k fun _ => rfl

theorem dropHeld (h : Empties l s₀ s) (k : Nat) : Empties l s₀ (s.dropHeld k) := by
  unfold State.dropHeld
  extract_lets c
  exact (h.count (f := R.LINKEV_LOST_COUNT) (by decide) _).modLink k fun _ => rfl

theorem fenceLaneDone (h : Empties l s₀ s) (k : Nat) : Empties l s₀ (s.fenceLaneDone k) := by
  have hclear : Empties l s (s.modLink k fun c => { c with pendFence := [] }) := (refl s).modLink k fun _ => rfl
  unfold State.fenceLaneDone
  refine h.trans (hclear.foldl fun s o _ => ?_)
  split
  · exact (refl s).of_completes (State.complete_completes ..)
  · exact refl s

theorem oweTo (h : Empties l s₀ s) (k cls n : Nat) : Empties l s₀ (s.oweTo k cls n) := h.modLink k fun _ => rfl

theorem frameGone (h : Empties l s₀ s) (e : OutFrame) : Empties l s₀ (s.frameGone e) := by
  unfold State.frameGone
  split
  · exact h
  · exact h.trans (.ite (refl s) ((refl s).oweTo ..))

theorem dropFrames (h : Empties l s₀ s) (k : Nat) (p : OutFrame → Bool) : Empties l s₀ (s.dropFrames k p) := by
  unfold State.dropFrames
  extract_lets gone named r r'
  have hr : Empties l s₀ r := h.modLink k fun _ => rfl
  have hr' : Empties l s₀ r' := hr.foldl fun s m _ => (refl s).modLink m fun _ => rfl
  exact hr'.foldl fun s e _ => (refl s).frameGone e

theorem emptyBuffers (h : Empties l s₀ s) (k : Nat) : Empties l s₀ (s.emptyBuffers k) := by
  unfold State.emptyBuffers
  extract_lets purge r
  have hpurge (c : LinkCtx) : (purge c).fails = c.fails := rfl
  clear_value purge
  have hr : Empties l s₀ r := h.foldl fun s m _ => (refl s).modLink m hpurge
  exact hr.upd rfl rfl rfl rfl

theorem cutPackets (h : Empties l s₀ s) (k : Nat) : Empties l s₀ (s.cutPackets k) := by
  unfold State.cutPackets
  extract_lets c cut own mine r r' r''
  clear_value cut own mine
  have hr : Empties l s₀ r := by
    refine h.foldl fun s m _ => ?_
    exact (refl s).modLink m fun _ => rfl
  have hr' : Empties l s₀ r' := (hr.dropFrames k _).modLink k fun _ => rfl
  have hr'' : Empties l s₀ r'' := hr'.count (f := R.PROTO_DISCARD_COUNT) (by decide) _
  clear_value r''
  exact hr''.upd rfl rfl rfl rfl

end Empties

/-! ## A link stops -/

/-- The lanes of a link show a word. -/
theorem State.laneStats_only (s : State) (l : Nat) (v : Word) :
    LinkOnly (fun a => (List.range 8).any fun j => a == R.LANE_STAT l j) l s ((List.range 8).foldl (fun s j => s.rset (R.LANE_STAT l j) v) s) :=
  List.foldlRecOn (motive := LinkOnly _ l s) _ _ (.refl s) fun _ hr j hj => hr.rset (List.any_eq_true.2 ⟨j, hj, beq_self_eq_true _⟩) v

/-- What a link that stops changes of registers. -/
def stopReg (l a : Nat) : Bool := hostReg a || a == R.LINK_STATUS l || (List.range 8).any fun j => a == R.LANE_STAT l j

theorem State.linkStop_spec (s : State) (l : Nat) {st : Nat} (hst : st < 8) :
    let t := s.linkStop l st
    t.mem = s.mem ∧ t.staged = s.staged ∧ RegsSame (stopReg l) s t ∧ (t.link l).fails = (s.link l).fails ∧ t.linkState l = st ∧
      t.fget (R.LINK_STATUS_WIDTH l) = 0 := by
  intro t
  have ht : t = s.linkStop l st := rfl
  clear_value t
  unfold State.linkStop at ht
  extract_lets r₁ r₂ r₃ at ht
  have h₁ : Empties l s r₁ := ((((((Empties.refl s).writeLost l).stompRx l).dropHeld l).fenceLaneDone l).emptyBuffers l).cutPackets l
  have h₂ : Empties l s r₂ := h₁.modLink l fun _ => rfl
  clear_value r₂
  have hstatus : LinkOnly (fun a => a == R.LINK_STATUS l) l r₂ r₃ :=
    (((LinkOnly.refl r₂).fset (f := R.LINK_STATUS_STATE l) (by simp [R.LINK_STATUS_STATE]) st).fset (f := R.LINK_STATUS_WIDTH l)
      (by simp [R.LINK_STATUS_WIDTH]) 0).fset (f := R.LINK_STATUS_USED l) (by simp [R.LINK_STATUS_USED]) 0
  have hstate : r₃.linkState l = st := by
    refine (State.fget_fset_disjoint _ _ (.inl (show 2 < 16 by decide)) (show 16 ≤ 23 by decide) (show 0 ≤ 2 by decide)).trans ?_
    exact (State.fget_fset_disjoint _ _ (.inl (show 2 < 8 by decide)) (show 8 ≤ 11 by decide) (show 0 ≤ 2 by decide)).trans
      (r₂.linkState_fset_same l hst)
  have hwidth : r₃.fget (R.LINK_STATUS_WIDTH l) = 0 :=
    (State.fget_fset_disjoint _ _ (.inl (show 11 < 16 by decide)) (show 16 ≤ 23 by decide) (show 8 ≤ 11 by decide)).trans
      ((State.fget_fset_same _ _ (show 8 ≤ 11 by decide) (show 11 < 32 by decide)).trans (Nat.zero_mod _))
  have hlinks : r₃.link l = r₂.link l := (State.link_fset ..).trans ((State.link_fset ..).trans (State.link_fset ..))
  clear_value r₃
  have hlanes := r₃.laneStats_only l (if st = lkOff then 0 else 4)
  have hlanelinks : ((List.range 8).foldl (fun s j => s.rset (R.LANE_STAT l j) (if st = lkOff then 0 else 4)) r₃).links = r₃.links :=
    List.foldlRecOn (motive := fun r : State => r.links = r₃.links) _ _ rfl fun r hr j _ => hr
  generalize (List.range 8).foldl (fun s j => s.rset (R.LANE_STAT l j) (if st = lkOff then 0 else 4)) r₃ = t' at *
  subst ht
  have hlow : t.rget (R.LINK_STATUS l) = r₃.rget (R.LINK_STATUS l) := hlanes.regs _ (by
    refine List.any_eq_false.2 fun j _ => ?_
    unfold R.LINK_STATUS R.LANE_STAT
    simp
    omega)
  refine ⟨hlanes.mem.trans (hstatus.mem.trans h₂.mem), hlanes.staged.trans (hstatus.staged.trans h₂.staged), ?_, ?_,
    (State.fget_congr hlow).trans hstate, (State.fget_congr hlow).trans hwidth⟩
  · refine ((h₂.regs.mono fun a ha => ?_).trans (hstatus.regs.mono fun a ha => ?_)).trans (hlanes.regs.mono fun a ha => ?_)
    · rw [stopReg, ha]
      rfl
    · rw [stopReg, ha, Bool.or_true, Bool.true_or]
    · rw [stopReg, ha, Bool.or_true]
  · have hlink : t.link l = r₃.link l := by
      unfold State.link
      rw [hlanelinks]
    rw [hlink, hlinks]
    exact h₂.fails

end Sys2Proof.Machine
end

section
/-! SUPPORT. Training, retrain and lost lanes of a link (12_serial_links.md R287 to R289, R297 to R299). -/

namespace Sys2Proof.Machine

variable {s₀ s t : State} {l : Nat}

/-! ## The flags of LINK_EVT -/

/-- Bits set in a word one behind the other. -/
theorem getLsbD_setBits (bits : List Nat) (w : Word) (k : Nat) (hk : k < 32) :
    (bits.foldl (fun (w : Word) b => w ||| BitVec.ofNat 32 (2 ^ b)) w).getLsbD k = (w.getLsbD k || decide (k ∈ bits)) := by
  induction bits generalizing w with
  | nil => simp
  | cons b bits ih =>
    rw [List.foldl_cons, ih, BitVec.getLsbD_or, BitVec.getLsbD_ofNat, Nat.testBit_two_pow, decide_eq_true hk, Bool.true_and, Bool.or_assoc]
    refine congrArg (w.getLsbD k || ·) ?_
    rw [Bool.eq_iff_iff]
    simp only [Bool.or_eq_true, decide_eq_true_eq, List.mem_cons, eq_comm (a := b)]

theorem linkBase_page (l : Nat) : linkBase l % 0x1000 = 0 := by
  unfold linkBase
  omega

/-- What flags of LINK_EVT change when they are set. -/
def evtReg (l a : Nat) : Bool := a == R.LINK_EVT l || raiseReg (linkBase l) a

/-- Flags of LINK_EVT set together, with the link block's sources (Table 12.4). -/
theorem State.linkEvts_spec {bits : List Nat} (hl : l < 12) (hroom : s.staged.length + bits.length ≤ 128)
    (hmild : ∀ k ∈ bits, k < 32 ∧ s.nibble (linkBase l) k % 8 < 3) :
    Logs (evtReg l) s (s.linkEvts l bits) ∧ ∀ k ∈ bits, (s.linkEvts l bits).flag ⟨R.LINK_EVT l, k, k⟩ = true := by
  unfold State.linkEvts
  have hword : (s.rset (R.LINK_EVT l) (bits.foldl (fun (w : Word) b => w ||| BitVec.ofNat 32 (2 ^ b)) (s.rget (R.LINK_EVT l)))).rget
      (R.LINK_EVT l) = bits.foldl (fun (w : Word) b => w ||| BitVec.ofNat 32 (2 ^ b)) (s.rget (R.LINK_EVT l)) := State.rget_rset_same ..
  have hset : Logs (evtReg l) s
      (s.rset (R.LINK_EVT l) (bits.foldl (fun (w : Word) b => w ||| BitVec.ofNat 32 (2 ^ b)) (s.rget (R.LINK_EVT l)))) :=
    (Logs.refl s).rset (by simp [evtReg]) _
  have hstaged : (s.rset (R.LINK_EVT l) (bits.foldl (fun (w : Word) b => w ||| BitVec.ofNat 32 (2 ^ b)) (s.rget (R.LINK_EVT l)))).staged =
    s.staged := rfl
  have hreact : ∀ k, (s.rset (R.LINK_EVT l) (bits.foldl (fun (w : Word) b => w ||| BitVec.ofNat 32 (2 ^ b)) (s.rget (R.LINK_EVT l)))).nibble
      (linkBase l) k = s.nibble (linkBase l) k := fun k =>
    nibble_congr (State.rget_rset_other _ _ (by unfold R.FLT_REACT R.LINK_EVT linkBase; omega))
  generalize s.rset (R.LINK_EVT l) (bits.foldl (fun (w : Word) b => w ||| BitVec.ofNat 32 (2 ^ b)) (s.rget (R.LINK_EVT l))) = r at *
  have hsources : ∀ e ∈ bits.map fun b => (0x20000 + l * 0x1000, b), e.1 = linkBase l ∧ e.2 ∈ bits := fun e he => by
    obtain ⟨k, hk, rfl⟩ := List.mem_map.1 he
    exact ⟨rfl, hk⟩
  obtain ⟨hlogs, -⟩ := State.raises_spec (s := r) (l := bits.map fun b => (0x20000 + l * 0x1000, b)) (inj := false)
    (fun e he => by
      obtain ⟨hbase, hk⟩ := hsources e he
      exact ⟨hbase ▸ linkBase_page l, (hmild _ hk).1⟩)
    (by rw [List.length_map, hstaged]; exact hroom)
    (fun e he => by
      obtain ⟨hbase, hk⟩ := hsources e he
      show r.nibble e.1 e.2 % 8 < 3
      rw [hbase, hreact]
      exact (hmild _ hk).2)
  have hraise : Logs (raiseReg (linkBase l)) r (r.raises (bits.map fun b => (0x20000 + l * 0x1000, b)) false) := by
    refine hlogs.mono fun a ha => ?_
    rcases raisesReg_flt ha with ⟨e, he, hflt⟩ | hrec
    · rw [(hsources e he).1] at hflt
      rw [raiseReg, hflt, Bool.true_or]
    · rw [raiseReg, hrec, Bool.or_true]
  have hevt : (r.raises (bits.map fun b => (0x20000 + l * 0x1000, b)) false).rget (R.LINK_EVT l) = r.rget (R.LINK_EVT l) := by
    obtain ⟨hcnt, -, hrec⟩ := linkReg_apart (a := R.LINK_EVT l) (by unfold R.LINK_EVT; omega)
    have hflt : fltReg (linkBase l) (R.LINK_EVT l) = false := decide_eq_false (by unfold linkBase R.LINK_EVT; omega)
    exact hraise.rget (by rw [raiseReg, hflt, hrec]; rfl) hcnt
  refine ⟨hset.trans (hraise.mono fun a ha => by rw [evtReg, ha, Bool.or_true]), fun k hk => ?_⟩
  rw [State.flag_eq_getLsbD, hevt, hword, getLsbD_setBits _ _ _ (hmild k hk).1, decide_eq_true hk, Bool.or_true]

/-- The registers of a link's block below LINK_EVT, and its lanes', are apart from those that flags change. -/
theorem evtReg_of_block {a : Nat} (hl : l < 12) (hlo : linkBase l ≤ a) (hhi : a < linkBase l + 0xf00) (hne : a ≠ R.LINK_EVT l) :
    evtReg l a = false := by
  unfold linkBase at hlo hhi
  obtain ⟨-, -, hrec⟩ := linkReg_apart (a := a) (by omega)
  have hflt : fltReg (linkBase l) a = false := decide_eq_false (by unfold linkBase; omega)
  simp [evtReg, raiseReg, hne, hflt, hrec]

/-- FLT_REACT of a link's block, as nothing that a link does of its own changes it. -/
theorem reactReg_link (l k : Nat) (hk : k < 32) : linkBase l + 0xf10 ≤ R.FLT_REACT (linkBase l) (k / 8) ∧
    R.FLT_REACT (linkBase l) (k / 8) < linkBase l + 0xf20 := by
  unfold R.FLT_REACT
  omega

/-! ## TRAINING begins and ends -/

/-- The lanes of a link show what the link agrees on. -/
def lanesReg (l a : Nat) : Bool := (List.range 8).any fun j => a == R.LANE_STAT l j

theorem lanesReg_iff {a : Nat} : lanesReg l a = true ↔ ∃ j < 8, a = R.LANE_STAT l j := by
  simp [lanesReg]

theorem State.lanesSet_only (s : State) (l : Nat) (v : Nat → Word) :
    LinkOnly (lanesReg l) l s ((List.range 8).foldl (fun s j => s.rset (R.LANE_STAT l j) (v j)) s) ∧
      ((List.range 8).foldl (fun s j => s.rset (R.LANE_STAT l j) (v j)) s).links = s.links :=
  ⟨List.foldlRecOn (motive := LinkOnly _ l s) _ _ (.refl s) fun _ hr j hj => hr.rset (List.any_eq_true.2 ⟨j, hj, beq_self_eq_true _⟩) (v j),
    List.foldlRecOn (motive := fun r : State => r.links = s.links) _ _ rfl fun _ hr _ _ => hr⟩

/-- The registers of a link that training and retrain change. -/
def agreeReg (l a : Nat) : Bool := a == R.LINK_STATUS l || a == R.LINK_PARTNER l || a == R.LINK_RTT l || lanesReg l a

theorem agreeReg_block {a : Nat} (h : agreeReg l a = true) : linkBase l ≤ a ∧ a < linkBase l + 0x200 ∧ a ≠ R.LINK_CTRL l := by
  simp only [agreeReg, Bool.or_eq_true, beq_iff_eq, lanesReg_iff] at h
  unfold linkBase R.LINK_CTRL
  rcases h with ((rfl | rfl) | rfl) | ⟨j, hj, rfl⟩ <;>
    simp only [R.LINK_STATUS, R.LINK_PARTNER, R.LINK_RTT, R.LANE_STAT] <;> omega

theorem State.width_lt (s : State) (l n : Nat) : s.width l n < 16 := by
  unfold State.width
  extract_lets m
  split
  · decide
  split
  · decide
  split
  · decide
  split <;> omega

/-- What an attempt that succeeds agrees on. -/
theorem State.agree_spec (s : State) (l : Nat) (r : TrainReport) (good : List Nat) :
    let t := s.agree l r good
    LinkOnly (agreeReg l) l s t ∧ t.fget (R.LINK_STATUS_WIDTH l) = s.width l good.length ∧ (t.link l).rxAck = (s.link l).rxAck ∧
      (t.link l).outst = (s.link l).outst ∧ (t.link l).wire = (s.link l).wire ++ [.linkctl (.probe 0)] := by
  intro t
  have ht : t = s.agree l r good := rfl
  clear_value t
  unfold State.agree at ht
  extract_lets w used r₁ r₂ r₃ rtt at ht
  have hstatus : agreeReg l (R.LINK_STATUS l) = true := by simp [agreeReg]
  have h₁ : LinkOnly (agreeReg l) l s r₁ := ((LinkOnly.refl s).fset (f := R.LINK_STATUS_WIDTH l) hstatus _).fset (f := R.LINK_STATUS_USED l) hstatus _
  have hwidth₁ : r₁.fget (R.LINK_STATUS_WIDTH l) = w := by
    refine (State.fget_fset_disjoint _ _ (.inl (show 11 < 16 by decide)) (show 16 ≤ 23 by decide) (show 8 ≤ 11 by decide)).trans ?_
    exact (State.fget_fset_same _ _ (show 8 ≤ 11 by decide) (show 11 < 32 by decide)).trans (Nat.mod_eq_of_lt (s.width_lt l _))
  have hlinks₁ : r₁.links = s.links := rfl
  clear_value r₁
  obtain ⟨h₂, hlinks₂⟩ := r₁.lanesSet_only l fun j => if used.contains j then 3 else 4
  change LinkOnly _ l r₁ r₂ at h₂
  change r₂.links = _ at hlinks₂
  clear_value r₂
  have h₃ : LinkOnly (agreeReg l) l r₂ (r₃.rset (R.LINK_RTT l) (BitVec.ofNat 32 rtt)) :=
    ((LinkOnly.refl r₂).rset (by simp [agreeReg]) _).rset (by simp [agreeReg]) _
  have hlinks₃ : (r₃.rset (R.LINK_RTT l) (BitVec.ofNat 32 rtt)).links = r₂.links := rfl
  have hword : (r₃.rset (R.LINK_RTT l) (BitVec.ofNat 32 rtt)).rget (R.LINK_STATUS l) = r₁.rget (R.LINK_STATUS l) := by
    refine (State.rget_rset_other _ _ (by unfold R.LINK_STATUS R.LINK_RTT; omega)).trans ?_
    refine (State.rget_rset_other _ _ (by unfold R.LINK_STATUS R.LINK_PARTNER; omega)).trans (h₂.regs _ ?_)
    refine Bool.eq_false_iff.2 fun h => ?_
    obtain ⟨j, -, hj⟩ := lanesReg_iff.1 h
    unfold R.LINK_STATUS R.LANE_STAT at hj
    omega
  generalize r₃.rset (R.LINK_RTT l) (BitVec.ofNat 32 rtt) = r₄ at *
  have hlink₄ : r₄.link l = s.link l := by
    unfold State.link
    rw [hlinks₃, hlinks₂, hlinks₁]
  have hall : LinkOnly (agreeReg l) l s r₄ := (h₁.trans (h₂.mono fun a ha => by rw [agreeReg, ha, Bool.or_true])).trans h₃
  obtain ⟨d, hd, hlink⟩ := State.link_sendWire (r₄.modLink l fun c =>
    { c with fails := 0, amBad := [], bips := [], reversed := amsReversed r.ams, good := good, next := 0
             lanes := c.lanes.filter fun e => !good.contains e.1 }) l (.linkctl (.probe 0))
  rw [State.link_modLink_same, hlink₄] at hd hlink
  rw [← ht] at hlink
  refine ⟨ht ▸ (hall.modLink _).sendWire _, ?_, ?_, ?_, ?_⟩
  · refine (State.fget_congr ?_).trans hwidth₁
    rw [ht]
    exact hword
  · rw [hlink]
    exact (congrArg LinkCtx.rxAck hd.same :)
  · rw [hlink]
    exact (congrArg LinkCtx.outst hd.same :)
  · rw [hlink]

/-- The link is ACTIVE, and keeps what it has agreed on. -/
theorem State.activate_spec (s : State) (l : Nat) :
    let t := s.activate l
    LinkOnly (fun a => a == R.LINK_STATUS l) l s t ∧ t.linkState l = lkActive ∧ t.fget (R.LINK_STATUS_WIDTH l) = s.fget (R.LINK_STATUS_WIDTH l) ∧
      t.link l = { s.link l with
        events := (s.link l).events ++ (s.link l).held, held := [], limit := false, entered := some s.now, amTick := 0, lastTime := none } := by
  unfold State.activate
  extract_lets r t
  have hset : LinkOnly (fun a => a == R.LINK_STATUS l) l s r := (LinkOnly.refl s).fset (by simp [R.LINK_STATUS_STATE]) _
  refine ⟨hset.modLink _, ?_, ?_, ?_⟩
  · exact s.linkState_fset_same l (by decide)
  · exact State.fget_fset_disjoint _ _ (.inr (show 2 < 8 by decide)) (show 0 ≤ 2 by decide) (show 8 ≤ 11 by decide)
  · exact State.link_modLink_same ..

/-- TRAINING begins with the link in that state. -/
theorem State.train_spec (s : State) (l : Nat) : LinkOnly (fun a => a == R.LINK_STATUS l || lanesReg l a) l s (s.train l) ∧
    (s.train l).linkState l = lkTraining := by
  unfold State.train
  extract_lets r
  have hr : LinkOnly (fun a => a == R.LINK_STATUS l || lanesReg l a) l s (r.fset (R.LINK_STATUS_STATE l) lkTraining) :=
    ((LinkOnly.refl s).modLink _).fset (f := R.LINK_STATUS_STATE l) (by simp [R.LINK_STATUS_STATE]) _
  have hstate : (r.fset (R.LINK_STATUS_STATE l) lkTraining).linkState l = lkTraining := r.linkState_fset_same l (by decide)
  generalize r.fset (R.LINK_STATUS_STATE l) lkTraining = q at *
  obtain ⟨hlanes, -⟩ := q.lanesSet_only l fun _ => 0
  refine ⟨hr.trans (hlanes.mono fun a ha => by rw [ha, Bool.or_true]), (State.fget_congr (hlanes.regs _ ?_)).trans hstate⟩
  refine Bool.eq_false_iff.2 fun h => ?_
  obtain ⟨j, -, hj⟩ := lanesReg_iff.1 h
  unfold R.LINK_STATUS_STATE R.LINK_STATUS R.LANE_STAT at hj
  dsimp only at hj
  omega

/-- A link that is not asked to test does not. -/
theorem State.testIfAsked_not (h : s.flag (R.LINK_CTRL_TEST l) = false) : s.testIfAsked l = s := by
  unfold State.testIfAsked
  rw [if_neg (by rw [h]; exact Bool.false_ne_true)]

/-! ## A lost lane -/

theorem Mild.nibble_lt {b src : Nat} (h : Mild s b src) : s.nibble b src % 8 < 3 := h.2

theorem State.bits_of_loss {cause k : Nat} (h : k ∈ laneBits cause) : k = 2 ∨ k = 5 ∧ cause = 3 := by
  unfold laneBits at h
  split at h
  · simp only [List.mem_cons, List.not_mem_nil, or_false] at h
    tauto
  · simp only [List.mem_cons, List.not_mem_nil, or_false] at h
    exact .inl h

/-- A lane that an ACTIVE link uses is lost, not its last. -/
theorem State.loseLane_active {j cause : Nat} (hl : l < 12) (hj : j < 8) (hactive : s.linkState l = lkActive)
    (huses : (s.fget (R.LINK_STATUS_USED l)).testBit j = true) (hlast : s.fencedLanes l ||| 2 ^ j ≠ 0xFF) (hmild : Mild s (linkBase l) 2)
    (hthird : cause = 3 → Mild s (linkBase l) 5) :
    let t := s.loseLane l j cause
    t.linkState l = lkRetrain ∧ t.fencedLanes l = s.fencedLanes l ||| 2 ^ j ∧ t.flag (R.LINK_EVT_LANELOSS l) = true ∧
      (t.link l).wire = (s.link l).wire ++ [.linkctl .retrain] ∧ t.mem = s.mem := by
  obtain ⟨hnotes, -, hlanes, hlen⟩ := s.laneFenced_spec (l := l) (j := j) cause false hl hj (by have := hmild.1; omega)
  have hne : ¬lkActive = lkRetrain := by decide
  dsimp only
  unfold State.loseLane
  rw [hactive]
  dsimp only
  rw [if_pos (.inl ⟨rfl, huses⟩), if_neg hne]
  generalize s.laneFenced l j cause = r at *
  have hreg {a : Nat} (hlo : linkBase l ≤ a) (hhi : a < linkBase l + 0x1000) (hlane : laneReg l j a = false) : r.rget a = s.rget a := by
    unfold linkBase at hlo hhi
    obtain ⟨hcnt, hses, hrec⟩ := linkReg_apart (a := a) (by omega)
    exact hnotes.rget (by rw [hlane, hcnt, hses, hrec]; rfl)
  have hstate : r.linkState l = lkActive := by
    refine (State.fget_congr (hreg ?_ ?_ ?_)).trans hactive
    · unfold linkBase R.LINK_STATUS_STATE R.LINK_STATUS; dsimp only; omega
    · unfold linkBase R.LINK_STATUS_STATE R.LINK_STATUS; dsimp only; omega
    · simp [laneReg, R.LINK_STATUS_STATE, R.LINK_STATUS, R.LINK_LANEFENCE, R.LANE_STAT, R.SR_GEN]
      omega
  rw [if_neg (by rw [hlanes]; exact hlast)]
  obtain ⟨honly, hretrain, d, hd, hlink⟩ := State.enterRetrain_active hstate
  generalize r.enterRetrain l = e at *
  have hnibble : ∀ k, k < 32 → e.nibble (linkBase l) k = s.nibble (linkBase l) k := fun k hk => by
    obtain ⟨hlo, hhi⟩ := reactReg_link l k hk
    refine nibble_congr ((honly.regs _ ?_).trans (hreg (by omega) (by omega) ?_))
    · generalize R.FLT_REACT (linkBase l) (k / 8) = a at *
      unfold linkBase at hlo hhi
      simp [retrainReg, R.LINK_STATUS, R.LINK_RETRAIN]
      omega
    · generalize R.FLT_REACT (linkBase l) (k / 8) = a at *
      unfold linkBase at hlo hhi
      simp [laneReg, R.LINK_LANEFENCE, R.LANE_STAT, R.SR_GEN]
      omega
  have hbits : ∀ k ∈ laneBits cause, k < 32 ∧ e.nibble (linkBase l) k % 8 < 3 := fun k hk => by
    rcases State.bits_of_loss hk with rfl | ⟨rfl, hc⟩
    · rw [hnibble 2 (by decide)]
      exact ⟨by decide, hmild.2⟩
    · rw [hnibble 5 (by decide)]
      exact ⟨by decide, (hthird hc).2⟩
  have htwo : 2 ∈ laneBits cause := by
    unfold laneBits
    split <;> exact List.mem_cons_self
  have hshort : (laneBits cause).length ≤ 2 := by
    unfold laneBits
    split <;> decide
  obtain ⟨hevt, hflags⟩ := State.linkEvts_spec (s := e) hl (by rw [honly.staged]; have := hmild.1; omega) hbits
  generalize e.linkEvts l (laneBits cause) = t at *
  have hlow {a : Nat} (hlo : linkBase l ≤ a) (hhi : a < linkBase l + 0x14) : t.rget a = e.rget a := by
    refine hevt.rget (evtReg_of_block hl hlo (by omega) ?_) ?_
    · unfold linkBase at hhi
      unfold R.LINK_EVT
      omega
    · unfold linkBase at hlo hhi
      exact (linkReg_apart (by omega)).1
  refine ⟨(State.fget_congr (hlow ?_ ?_)).trans hretrain, (State.fget_congr ((hlow ?_ ?_).trans (honly.regs _ ?_))).trans hlanes, hflags 2 htwo, ?_,
    hevt.mem.trans (honly.mem.trans hnotes.mem)⟩
  · unfold linkBase R.LINK_STATUS_STATE R.LINK_STATUS; dsimp only; omega
  · unfold linkBase R.LINK_STATUS_STATE R.LINK_STATUS; dsimp only; omega
  · unfold linkBase R.LINK_LANEFENCE_FENCE R.LINK_LANEFENCE; dsimp only; omega
  · unfold linkBase R.LINK_LANEFENCE_FENCE R.LINK_LANEFENCE; dsimp only; omega
  · simp [retrainReg, R.LINK_LANEFENCE_FENCE, R.LINK_LANEFENCE, R.LINK_STATUS, R.LINK_RETRAIN]
  · have hlinks : t.link l = e.link l := by
      unfold State.link
      rw [(congrArg State.links hevt.same :)]
    have hwire : (r.link l).wire = (s.link l).wire := by
      unfold State.link
      rw [hnotes.links]
    rw [hlinks, hlink, ← hwire]

end Sys2Proof.Machine
end

section
/-! SUPPORT. The statement about training, retrain and the lanes of a link (12_serial_links.md R287, R288, R297 to R299). -/

namespace Sys2Proof.Machine

variable {s₀ s t : State} {l : Fin 12} {r : TrainReport}

/-! ## TRAINING -/

theorem creditFld_initial (l k : Nat) (h : s.rget (R.LINK_CREDIT l) = BitVec.ofNat 32 (384 * (1 + 1024 + 1048576))) :
    s.fget (creditFld l k) = 384 := by
  have hfld (f : Fld) (hf : f.addr = R.LINK_CREDIT l)
      (hv : field (BitVec.ofNat 32 (384 * (1 + 1024 + 1048576))) f.hi f.lo = 384) : s.fget f = 384 := by
    rw [State.fget, hf, h]
    exact hv
  unfold creditFld
  split
  · exact hfld _ rfl (show field _ 9 0 = 384 by decide)
  · exact hfld _ rfl (show field _ 19 10 = 384 by decide)
  · exact hfld _ rfl (show field _ 29 20 = 384 by decide)

/-- The registers of a link that training changes. -/
def trainReg (l a : Nat) : Bool := agreeReg l a || a == R.LINK_CREDIT l

theorem trainReg_block {l a : Nat} (h : trainReg l a = true) : linkBase l < a ∧ a < linkBase l + 0x200 := by
  rcases Bool.or_eq_true_iff.1 h with h | h
  · have := agreeReg_block h
    unfold R.LINK_CTRL linkBase at *
    omega
  · rw [beq_iff_eq.1 h]
    unfold R.LINK_CREDIT linkBase
    omega

/-- Where a link block's reaction to its sources stands, no change that training makes reaches. -/
theorem nibble_of_agree {k : Nat} (hk : k < 32) {p : Nat → Bool} (h : RegsSame p s t)
    (hp : ∀ a, linkBase l + 0xf10 ≤ a → a < linkBase l + 0xf20 → p a = false) : t.nibble (linkBase l) k = s.nibble (linkBase l) k := by
  obtain ⟨hlo, hhi⟩ := reactReg_link l k hk
  exact nibble_congr (h _ (hp _ hlo hhi))

/-- What a link that goes ACTIVE from TRAINING reports. -/
def upReg (l a : Nat) : Bool := a == R.LINK_STATUS l || evtReg l a || counting a || sessReg a || recordReg a

/-- The registers of a link that reports neither are as they were. -/
theorem upReg_of_block {a : Nat} (hlo : linkBase l ≤ a) (hhi : a < linkBase l + 0xf00) (hstatus : a ≠ R.LINK_STATUS l)
    (hevt : a ≠ R.LINK_EVT l) : upReg l a = false := by
  have hflags := evtReg_of_block l.isLt hlo hhi hevt
  unfold linkBase at hlo hhi
  obtain ⟨hcnt, hses, hrec⟩ := linkReg_apart (a := a) (by omega)
  rw [upReg, hflags, hcnt, hses, hrec, beq_false_of_ne hstatus]
  rfl

theorem upReg_block {a : Nat} (h : upReg l a = true) : (inBlock (linkBase l) a || counting a || sessReg a || recordReg a) = true := by
  simp only [upReg, Bool.or_eq_true, beq_iff_eq] at h ⊢
  rcases h with (((rfl | h) | h) | h) | h
  · refine .inl (.inl (.inl (decide_eq_true ?_)))
    unfold linkBase R.LINK_STATUS
    omega
  · rcases Bool.or_eq_true_iff.1 h with h | h
    · refine .inl (.inl (.inl (decide_eq_true ?_)))
      rw [beq_iff_eq.1 h]
      unfold linkBase R.LINK_EVT
      omega
    · exact (raiseReg_inBlock h).imp (fun h => .inl (.inl h)) id
  · exact .inl (.inl (.inr h))
  · exact .inl (.inr h)
  · exact .inr h

/-- A link that goes ACTIVE reports UP. -/
theorem State.activate_up (hmild : Mild s (linkBase l) 0) (code : Nat) (ps : List Word) :
    let t := ((s.activate l).chipEvent code ps).linkEvt l 0
    t.linkState l = lkActive ∧ t.fget (R.LINK_STATUS_WIDTH l) = s.fget (R.LINK_STATUS_WIDTH l) ∧ t.link l = (s.activate l).link l ∧
      t.flag (R.LINK_EVT_UP l) = true ∧ t.mem = s.mem ∧ RegsSame (upReg l) s t := by
  obtain ⟨hact, hstate, hwidth, -⟩ := s.activate_spec l
  have hreport := State.chipEvent_reports (fun _ => false) (s.activate l) code ps
  generalize s.activate l = a at *
  generalize a.chipEvent code ps = b at *
  have hregs : RegsSame (upReg l) s b :=
    (hact.regs.mono fun a ha => by rw [upReg, ha]; simp).trans (hreport.regs.mono fun a ha => by
      simp only [upReg, Bool.or_eq_true] at ha ⊢
      tauto)
  have hnibble : b.nibble (linkBase l) 0 = s.nibble (linkBase l) 0 :=
    nibble_of_agree (by decide) hregs fun a hlo hhi => by
      have hflags : evtReg l a = false := by
        have hrec : recordReg a = false := by
          unfold linkBase at hlo hhi
          exact (linkReg_apart (by omega)).2.2
        have hflt : fltReg (linkBase l) a = false := decide_eq_false (by omega)
        have hne : a ≠ R.LINK_EVT l := by
          unfold linkBase R.LINK_EVT at *
          omega
        rw [evtReg, raiseReg, hflt, hrec, beq_false_of_ne hne]
        rfl
      have hne : a ≠ R.LINK_STATUS l := by
        unfold linkBase R.LINK_STATUS at *
        omega
      unfold linkBase at hlo hhi
      obtain ⟨hcnt, hses, hrec⟩ := linkReg_apart (a := a) (by omega)
      rw [upReg, hflags, hcnt, hses, hrec, beq_false_of_ne hne]
      rfl
  have hstaged : b.staged = s.staged := (congrArg State.staged hreport.same :).trans hact.staged
  obtain ⟨hevt, hflags⟩ := State.linkEvts_spec (s := b) (l := l) (bits := [0]) l.isLt
    (by rw [hstaged]; have := hmild.1; simp only [List.length_singleton]; omega) fun k hk => by
      rw [List.mem_singleton.1 hk, hnibble]
      exact ⟨by decide, hmild.2⟩
  dsimp only
  rw [State.linkEvt]
  generalize b.linkEvts l [0] = t at *
  have hstatus : t.rget (R.LINK_STATUS l) = a.rget (R.LINK_STATUS l) := by
    obtain ⟨hcnt, hses, -⟩ := linkReg_apart (a := R.LINK_STATUS l) (by unfold R.LINK_STATUS; omega)
    have hflags : evtReg l (R.LINK_STATUS l) = false := by
      refine evtReg_of_block l.isLt ?_ ?_ ?_ <;> unfold R.LINK_STATUS
      · unfold linkBase
        omega
      · unfold linkBase
        omega
      · unfold R.LINK_EVT
        omega
    exact (hevt.rget hflags hcnt).trans (hreport.regs _ (by simp only [hcnt, hses, Bool.or_false]))
  refine ⟨(State.fget_congr hstatus).trans hstate, (State.fget_congr hstatus).trans hwidth, ?_, hflags 0 (List.mem_singleton_self 0),
    hevt.mem.trans (hreport.mem.trans hact.mem), hregs.trans (hevt.regs.mono fun a ha => ?_)⟩
  · unfold State.link
    rw [(congrArg State.links hevt.same :), (congrArg State.links hreport.same :)]
  · simp only [upReg, Bool.or_eq_true] at ha ⊢
    tauto

theorem doTrainingSuccess_active (hstate : s.linkState l = lkTraining) (hgood : s.goodLanes l r ≠ [])
    (htest : s.flag (R.LINK_CTRL_TEST l) = false) (hmild : Mild s (linkBase l) 0) :
    let t := doTrainingSuccess l r s
    t.linkState l = lkActive ∧ t.fget (R.LINK_STATUS_WIDTH l) = s.width l (s.goodLanes l r).length ∧ (∀ k, t.fget (creditFld l k) = 384) ∧
      (t.link l).txNext = 0 ∧ (t.link l).rxAck = 4095 ∧ t.flag (R.LINK_EVT_UP l) = true ∧ MemSame s t ∧
      RegsSame (fun a => inBlock (linkBase l) a || counting a || sessReg a || recordReg a) s t := by
  have hgo : ¬(s.linkState l != lkTraining || (s.goodLanes l r).isEmpty) = true := by
    rw [hstate, List.isEmpty_eq_false_iff.2 hgood]
    decide
  obtain ⟨hagree, hwidth, -⟩ := s.agree_spec l r (s.goodLanes l r)
  dsimp only
  unfold doTrainingSuccess
  dsimp only
  rw [if_neg hgo]
  have hagree : LinkOnly (trainReg l) l s (s.agree l r (s.goodLanes l r)) := hagree.mono fun a ha => by rw [trainReg, ha, Bool.true_or]
  generalize s.agree l r (s.goodLanes l r) = q at *
  have hset : LinkOnly (trainReg l) l s (q.rset (R.LINK_CREDIT l) (BitVec.ofNat 32 (384 * (1 + 1024 + 1048576)))) :=
    hagree.rset (by simp [trainReg]) _
  have hcredit : (q.rset (R.LINK_CREDIT l) (BitVec.ofNat 32 (384 * (1 + 1024 + 1048576)))).rget (R.LINK_CREDIT l) = _ := State.rget_rset_same ..
  have hwidth : (q.rset (R.LINK_CREDIT l) (BitVec.ofNat 32 (384 * (1 + 1024 + 1048576)))).fget (R.LINK_STATUS_WIDTH l) =
      s.width l (s.goodLanes l r).length := 
    (State.fget_congr (State.rget_rset_other _ _ (by unfold R.LINK_STATUS_WIDTH R.LINK_STATUS R.LINK_CREDIT; dsimp only; omega))).trans hwidth
  generalize q.rset (R.LINK_CREDIT l) (BitVec.ofNat 32 (384 * (1 + 1024 + 1048576))) = q' at *
  have hprep := hset.modLink fun c => { c with txNext := 0, rxAck := 4095, nak := false }
  have hlink : (q'.modLink l fun c => { c with txNext := 0, rxAck := 4095, nak := false }).link l = _ := State.link_modLink_same ..
  have hsame : (q'.modLink l fun c => { c with txNext := 0, rxAck := 4095, nak := false }).regs = q'.regs := rfl
  generalize q'.modLink l (fun c => { c with txNext := 0, rxAck := 4095, nak := false }) = p at *
  have hcredit' : p.rget (R.LINK_CREDIT l) = _ := (State.rget_congr hsame _).trans hcredit
  have hwidth' : p.fget (R.LINK_STATUS_WIDTH l) = _ := (State.fget_congr (State.rget_congr hsame _)).trans hwidth
  have hblock : ∀ a, trainReg l a = true → (inBlock (linkBase l) a || counting a || sessReg a || recordReg a) = true := fun a ha => by
    have := trainReg_block ha
    rw [inBlock, decide_eq_true (by omega)]
    rfl
  have hmild' : Mild p (linkBase l) 0 := hmild.congr hprep.staged (hprep.regs _ (Bool.eq_false_iff.2 fun h => by
    have := trainReg_block h
    have := reactReg_link l 0 (by decide)
    omega))
  obtain ⟨hstate', hwidth'', hlink', hup, hmem, hregs⟩ :=
    State.activate_up hmild' 0x300 [lnk l, BitVec.ofNat 32 (p.fget (R.LINK_STATUS_WIDTH l)), r.partnerChip.setWidth 32]
  obtain ⟨-, -, -, hact⟩ := p.activate_spec l
  rw [hact, hlink] at hlink'
  generalize ((p.activate l).chipEvent 0x300
    [lnk l, BitVec.ofNat 32 (p.fget (R.LINK_STATUS_WIDTH l)), r.partnerChip.setWidth 32]).linkEvt l 0 = t at *
  have htest' : t.flag (R.LINK_CTRL_TEST l) = false := by
    refine (State.flag_congr ((hregs _ (upReg_of_block ?_ ?_ ?_ ?_)).trans (hprep.regs _ (Bool.eq_false_iff.2 fun h => ?_)))).trans htest
    · unfold linkBase R.LINK_CTRL_TEST R.LINK_CTRL; dsimp only; omega
    · unfold linkBase R.LINK_CTRL_TEST R.LINK_CTRL; dsimp only; omega
    · unfold R.LINK_STATUS R.LINK_CTRL_TEST R.LINK_CTRL; dsimp only; omega
    · unfold R.LINK_EVT R.LINK_CTRL_TEST R.LINK_CTRL; dsimp only; omega
    · have := trainReg_block h
      unfold linkBase R.LINK_CTRL_TEST R.LINK_CTRL at this
      dsimp only at this
      omega
  rw [State.testIfAsked_not htest']
  refine ⟨hstate', hwidth''.trans hwidth', fun k => creditFld_initial l k ((hregs _ (upReg_of_block ?_ ?_ ?_ ?_)).trans hcredit'), ?_, ?_, hup,
    .of_mem (hmem.trans hprep.mem), (hprep.regs.mono hblock).trans (hregs.mono fun _ h => upReg_block h)⟩
  · unfold linkBase R.LINK_CREDIT; omega
  · unfold linkBase R.LINK_CREDIT; omega
  · unfold R.LINK_STATUS R.LINK_CREDIT; omega
  · unfold R.LINK_EVT R.LINK_CREDIT; omega
  · rw [hlink']
  · rw [hlink']

/-- A register of a link's block but LINK_STATUS and the lanes' is as it was when the link stops. -/
theorem stopReg_of_block {a : Nat} (hlo : linkBase l ≤ a) (hhi : a < linkBase l + 0x1000) (hstatus : a ≠ R.LINK_STATUS l)
    (hlanes : a < linkBase l + 0x100 ∨ linkBase l + 0x200 ≤ a) : stopReg l a = false := by
  unfold linkBase at hlo hhi hlanes
  have hcnt := (linkReg_apart (a := a) (by omega)).1
  have hlow : decide (a < 0x20000) = false := decide_eq_false (by omega)
  have heng : (a == R.ENG_STATUS) = false := beq_false_of_ne (by unfold R.ENG_STATUS; omega)
  have hlane : (List.range 8).any (fun j => a == R.LANE_STAT l j) = false := List.any_eq_false.2 fun j hj => by
    have := List.mem_range.1 hj
    simp only [R.LANE_STAT, beq_iff_eq]
    omega
  rw [stopReg, hostReg, hlow, hcnt, heng, hlane, beq_false_of_ne hstatus]
  rfl

theorem Mild.of_stop {k : Nat} (hmild : Mild s (linkBase l) k) (hk : k < 32) (hstaged : t.staged = s.staged) (hregs : RegsSame (stopReg l) s t) :
    Mild t (linkBase l) k := by
  obtain ⟨hlo, hhi⟩ := reactReg_link l k hk
  exact hmild.congr hstaged (hregs _ (stopReg_of_block (by omega) (by omega) (by unfold linkBase R.LINK_STATUS at *; omega) (.inr (by omega))))

/-- An attempt that has failed is counted. -/
theorem State.trainFailed_spec (h : s.fget (R.LINK_TRAINFAIL_COUNT l) < 2 ^ 32 - 1) :
    let t := (s.count (R.LINK_TRAINFAIL_COUNT l)).modLink l fun c => { c with fails := min 8 (c.fails + 1) }
    LinkOnly (fun a => a == R.LINK_TRAINFAIL l) l s t ∧ t.fget (R.LINK_TRAINFAIL_COUNT l) = s.fget (R.LINK_TRAINFAIL_COUNT l) + 1 ∧
      (t.link l).fails = min 8 ((s.link l).fails + 1) := by
  have hone : LinkOnly (fun a => a == R.LINK_TRAINFAIL l) l s (s.count (R.LINK_TRAINFAIL_COUNT l)) :=
    (LinkOnly.refl s).count (by simp [R.LINK_TRAINFAIL_COUNT]) 1
  have hcounted : (s.count (R.LINK_TRAINFAIL_COUNT l)).fget (R.LINK_TRAINFAIL_COUNT l) = s.fget (R.LINK_TRAINFAIL_COUNT l) + 1 :=
    State.fget_count_of_lt (show 0 ≤ 31 by decide) (show 31 < 32 by decide) h
  have hlinks : (s.count (R.LINK_TRAINFAIL_COUNT l)).links = s.links := rfl
  generalize s.count (R.LINK_TRAINFAIL_COUNT l) = c at hone hcounted hlinks
  refine ⟨hone.modLink _, (State.fget_congr rfl).trans hcounted, ?_⟩
  rw [State.link_modLink_same]
  unfold State.link
  rw [hlinks]

theorem doTrainingTimeout_fails (hstate : s.linkState l = lkTraining) (hwait : s.linkWaited l 20000 = true) (hmild : Mild s (linkBase l) 3)
    (hcount : s.fget (R.LINK_TRAINFAIL_COUNT l) < 2 ^ 32 - 1) :
    let t := doTrainingTimeout l s
    t.linkState l = lkDown ∧ t.fget (R.LINK_TRAINFAIL_COUNT l) = s.fget (R.LINK_TRAINFAIL_COUNT l) + 1 ∧
      t.flag (R.LINK_EVT_TRAINFAIL l) = true ∧ (t.link l).fails = min 8 ((s.link l).fails + 1) ∧ t.fget (R.LINK_STATUS_WIDTH l) = 0 ∧
      MemSame s t := by
  have hgo : ¬(s.linkState l != lkTraining || !s.linkWaited l 20000) = true := by
    rw [hstate, hwait]
    decide
  obtain ⟨hmem, hstaged, hregs, hfails, hdown, hwidth⟩ := s.linkStop_spec l (st := lkDown) (by decide)
  dsimp only
  unfold doTrainingTimeout
  dsimp only
  rw [if_neg hgo]
  generalize s.linkStop l lkDown = r at *
  have hmild' : Mild r (linkBase l) 3 := hmild.of_stop (by decide) hstaged hregs
  have hold : r.fget (R.LINK_TRAINFAIL_COUNT l) = s.fget (R.LINK_TRAINFAIL_COUNT l) := State.fget_congr (hregs _ (stopReg_of_block
    (by unfold linkBase R.LINK_TRAINFAIL_COUNT R.LINK_TRAINFAIL; dsimp only; omega)
    (by unfold linkBase R.LINK_TRAINFAIL_COUNT R.LINK_TRAINFAIL; dsimp only; omega)
    (by unfold R.LINK_STATUS R.LINK_TRAINFAIL_COUNT R.LINK_TRAINFAIL; dsimp only; omega)
    (.inl (by unfold linkBase R.LINK_TRAINFAIL_COUNT R.LINK_TRAINFAIL; dsimp only; omega))))
  have hone : LinkOnly (fun a => a == R.LINK_TRAINFAIL l) l r (r.count (R.LINK_TRAINFAIL_COUNT l)) :=
    (LinkOnly.refl r).count (by simp [R.LINK_TRAINFAIL_COUNT]) 1
  obtain ⟨honly, hcounted', hfailed⟩ := State.trainFailed_spec (s := r) (l := l) (by rw [hold]; exact hcount)
  generalize (r.count (R.LINK_TRAINFAIL_COUNT l)).modLink l (fun c => { c with fails := min 8 (c.fails + 1) }) = d at *
  obtain ⟨hlo, hhi⟩ := reactReg_link l 3 (by decide)
  have hmild'' : Mild d (linkBase l) 3 := hmild'.congr honly.staged (honly.regs _ (beq_false_of_ne (by
    unfold linkBase R.LINK_TRAINFAIL at *
    omega)))
  obtain ⟨hevt, hflags⟩ := State.linkEvts_spec (s := d) (l := l) (bits := [3]) l.isLt
    (by have := hmild''.1; simp only [List.length_singleton]; omega) fun k hk => by
      rw [List.mem_singleton.1 hk]
      exact ⟨by decide, hmild''.2⟩
  rw [State.linkEvt]
  generalize d.linkEvts l [3] = t at *
  have hlow {a : Nat} (hlo : linkBase l ≤ a) (hhi : a < linkBase l + 0x100) (hne : a ≠ R.LINK_EVT l) : t.rget a = d.rget a :=
    hevt.rget (evtReg_of_block l.isLt hlo (by omega) hne) (by unfold linkBase at *; exact (linkReg_apart (by omega)).1)
  have hstatus : t.rget (R.LINK_STATUS l) = r.rget (R.LINK_STATUS l) := by
    refine (hlow ?_ ?_ ?_).trans (honly.regs _ (beq_false_of_ne ?_))
    · unfold linkBase R.LINK_STATUS; omega
    · unfold linkBase R.LINK_STATUS; omega
    · unfold R.LINK_STATUS R.LINK_EVT; omega
    · unfold R.LINK_STATUS R.LINK_TRAINFAIL; omega
  refine ⟨(State.fget_congr hstatus).trans hdown, (State.fget_congr (hlow ?_ ?_ ?_)).trans (hcounted'.trans (congrArg (· + 1) hold)),
    hflags 3 (List.mem_singleton_self 3), ?_,
    (State.fget_congr hstatus).trans hwidth, .of_mem (hevt.mem.trans (honly.mem.trans hmem))⟩
  · unfold linkBase R.LINK_TRAINFAIL_COUNT R.LINK_TRAINFAIL; dsimp only; omega
  · unfold linkBase R.LINK_TRAINFAIL_COUNT R.LINK_TRAINFAIL; dsimp only; omega
  · unfold R.LINK_EVT R.LINK_TRAINFAIL_COUNT R.LINK_TRAINFAIL; dsimp only; omega
  · have hlink : t.link l = d.link l := by
      unfold State.link
      rw [(congrArg State.links hevt.same :)]
    rw [hlink, hfailed, hfails]

/-! ## DOWN -/

/-- The waits of R298, as the model computes them. -/
theorem downWait_eq (n : Nat) : downWait n =
    match n with
    | 0 | 1 => 10000
    | 2 => 20000
    | 3 => 40000
    | 4 => 80000
    | 5 => 160000
    | 6 => 320000
    | 7 => 640000
    | _ => 1000000 := by
  unfold downWait
  rcases Nat.lt_or_ge n 8 with h | h
  · rw [if_neg (by omega)]
    interval_cases n <;> rfl
  · rw [if_pos h]
    split <;> omega

theorem doDownWaitExpiry_trains {beacon : Bool} (hstate : s.linkState l = lkDown)
    (hwait : (beacon || s.linkWaited l (downWait (s.link l).fails)) = true) : doDownWaitExpiry l beacon s = s.train l := by
  unfold doDownWaitExpiry
  exact if_pos ⟨hstate, hwait⟩

/-- A link that goes DOWN with its fault report. -/
theorem State.goDown_spec (hmild : Mild s (linkBase l) 1) (cause : Nat) :
    let t := s.goDown l cause
    t.linkState l = lkDown ∧ t.flag (R.LINK_EVT_DOWN l) = true ∧ (t.link l).fails = 1 ∧ t.mem = s.mem := by
  obtain ⟨hmem, hstaged, hregs, -, hdown, -⟩ := s.linkStop_spec l (st := lkDown) (by decide)
  dsimp only
  unfold State.goDown State.linkDown
  dsimp only
  generalize s.linkStop l lkDown = r at *
  have hmild' : Mild r (linkBase l) 1 := hmild.of_stop (by decide) hstaged hregs
  have honly : LinkOnly (fun a => a == R.LINK_EVT l) l r ((r.modLink l fun c => { c with fails := 1 }).setFlag (R.LINK_EVT_DOWN l) true) :=
    ((LinkOnly.refl r).modLink _).setFlag (by simp [R.LINK_EVT_DOWN]) _
  have hfails : (((r.modLink l fun c => { c with fails := 1 }).setFlag (R.LINK_EVT_DOWN l) true).link l).fails = 1 :=
    congrArg LinkCtx.fails ((State.link_fset ..).trans (State.link_modLink_same ..))
  have hflag : ((r.modLink l fun c => { c with fails := 1 }).setFlag (R.LINK_EVT_DOWN l) true).flag (R.LINK_EVT_DOWN l) = true :=
    State.flag_setFlag_same _ true (show 1 ≤ 1 by decide) (show 1 < 32 by decide)
  generalize (r.modLink l fun c => { c with fails := 1 }).setFlag (R.LINK_EVT_DOWN l) true = q at *
  have hreport := State.chipEvent_reports (fun _ => false) q 0x301 [BitVec.ofNat 32 l, BitVec.ofNat 32 cause]
  generalize q.chipEvent 0x301 [BitVec.ofNat 32 l, BitVec.ofNat 32 cause] = e at *
  have hkeeps {a : Nat} (ha : linkBase l ≤ a ∧ a < linkBase l + 0x1000) : e.rget a = q.rget a := by
    obtain ⟨hlo, hhi⟩ := ha
    unfold linkBase at hlo hhi
    obtain ⟨hcnt, hses, -⟩ := linkReg_apart (a := a) (by omega)
    exact hreport.regs _ (by simp only [hcnt, hses, Bool.or_false])
  have hmild'' : Mild e (linkBase l) 1 := by
    obtain ⟨hlo, hhi⟩ := reactReg_link l 1 (by decide)
    refine hmild'.congr ((congrArg State.staged hreport.same :).trans honly.staged)
      ((hkeeps ⟨by omega, by omega⟩).trans (honly.regs _ (beq_false_of_ne ?_)))
    unfold linkBase R.LINK_EVT at *
    omega
  obtain ⟨hraise, -⟩ := hmild''.raise (linkBase_page l) (by decide)
  generalize e.raise (linkBase l) 1 = t at *
  have hlow {a : Nat} (hlo : linkBase l ≤ a) (hhi : a < linkBase l + 0x100) : t.rget a = q.rget a := by
    have hflt : fltReg (linkBase l) a = false := decide_eq_false (by omega)
    refine (hraise.rget ?_ ?_).trans (hkeeps ⟨hlo, by omega⟩) <;> unfold linkBase at hlo hhi <;>
      obtain ⟨hcnt, -, hrec⟩ := linkReg_apart (a := a) (by omega)
    · rw [raiseReg, hflt, hrec]
      rfl
    · exact hcnt
  refine ⟨(State.fget_congr ((hlow ?_ ?_).trans (honly.regs _ (beq_false_of_ne ?_)))).trans hdown, (State.flag_congr (hlow ?_ ?_)).trans hflag, ?_,
    hraise.mem.trans (hreport.mem.trans (honly.mem.trans hmem))⟩
  · unfold linkBase R.LINK_STATUS_STATE R.LINK_STATUS; dsimp only; omega
  · unfold linkBase R.LINK_STATUS_STATE R.LINK_STATUS; dsimp only; omega
  · unfold R.LINK_EVT R.LINK_STATUS_STATE R.LINK_STATUS; dsimp only; omega
  · unfold linkBase R.LINK_EVT_DOWN R.LINK_EVT; dsimp only; omega
  · unfold linkBase R.LINK_EVT_DOWN R.LINK_EVT; dsimp only; omega
  · have hlink : t.link l = q.link l := by
      unfold State.link
      rw [(congrArg State.links hraise.same :), (congrArg State.links hreport.same :)]
    rw [hlink, hfails]

theorem doRetrainTimeout_down {b : Bool} (hstate : s.linkState l = lkRetrain) (hwait : b = true ∨ s.linkWaited l 50 = true) :
    ∃ cause, doRetrainTimeout l b s = s.goDown l cause := by
  have hgo : ¬(s.linkState l != lkRetrain || !(b || s.linkWaited l 50)) = true := by
    rw [hstate, Bool.or_eq_true_iff.2 hwait]
    decide
  unfold doRetrainTimeout
  dsimp only
  rw [if_neg hgo]
  exact ⟨_, rfl⟩

end Sys2Proof.Machine
end

section
/-! SUPPORT. RETRAIN_COMPLETE, alignment markers and block lock, and the statement about training (12_serial_links.md R285 to R288, R299). -/

namespace Sys2Proof.Machine

variable {s₀ s t : State} {l : Fin 12} {r : TrainReport}

/-! ## RETRAIN ends -/

/-- FENCE operations whose lane the link has given up complete: beside them the link keeps its context, but for the list of them. -/
theorem State.fenceLaneDone_spec (s : State) (l : Nat) :
    let t := s.fenceLaneDone l
    t.mem = s.mem ∧ RegsSame (fun a => a == R.ENG_STATUS) s t ∧ t.link l = { s.link l with pendFence := [] } := by
  have hclear : (s.modLink l fun c => { c with pendFence := [] }).link l = { s.link l with pendFence := [] } := State.link_modLink_same ..
  unfold State.fenceLaneDone
  rw [← hclear]
  generalize hm : s.modLink l (fun c => { c with pendFence := [] }) = m
  have hmem : m.mem = s.mem := by rw [← hm]; rfl
  have hregs : RegsSame (fun a => a == R.ENG_STATUS) s m := fun a _ => by rw [← hm]; rfl
  clear hm hclear
  refine List.foldlRecOn (motive := fun t : State => t.mem = s.mem ∧ RegsSame (fun a => a == R.ENG_STATUS) s t ∧ t.link l = m.link l) _ _
    ⟨hmem, hregs, rfl⟩ fun q ⟨hqmem, hqregs, hqlink⟩ o _ => ?_
  split
  case h_1 x _ =>
    have hdone := State.complete_completes q x St.ok [] [] .none
    refine ⟨hdone.mem.trans hqmem, hqregs.trans fun a ha => hdone.regs a (ne_of_beq_false ha), ?_⟩
    unfold State.link
    rw [hdone.links]
    exact hqlink
  case h_2 => exact ⟨hqmem, hqregs, hqlink⟩

theorem State.ackIn_nil {l : Nat} (h : (s.link l).outst = []) (ack : BitVec 12) : s.ackIn l ack = s := by
  unfold State.ackIn
  dsimp only
  rw [h]
  rfl

/-- With nothing outstanding nothing is sent again. -/
theorem State.replay_nil {l : Nat} (h : (s.link l).outst = []) : s.replay l = s.setLink l { s.link l with outst := [] } := by
  unfold State.replay
  dsimp only
  rw [h]
  rfl

theorem doRetrainComplete_active (hstate : s.linkState l = lkRetrain) (hgood : s.goodLanes l r ≠ [])
    (htest : s.flag (R.LINK_CTRL_TEST l) = false) (hout : (s.link l).outst = []) :
    let t := doRetrainComplete l r s
    t.linkState l = lkActive ∧ t.fget (R.LINK_STATUS_WIDTH l) = s.width l (s.goodLanes l r).length ∧ MemSame s t ∧
      ∃ g, Wire.frame g ∈ (t.link l).wire.drop (s.link l).wire.length ∧ g.cls = 0 ∧ g.ack = BitVec.ofNat 12 (s.link l).rxAck := by
  obtain ⟨hagree, hwidth, hack, hnone, hwire⟩ := s.agree_spec l r (s.goodLanes l r)
  dsimp only
  unfold doRetrainComplete
  dsimp only
  rw [if_neg (by rw [hstate]; decide), if_neg (by rw [List.isEmpty_eq_false_iff.2 hgood]; exact Bool.false_ne_true)]
  generalize s.agree l r (s.goodLanes l r) = a at *
  obtain ⟨hact, hactive, hwidth', hlink⟩ := a.activate_spec l
  have hack : ((a.activate l).link l).rxAck = (s.link l).rxAck := by rw [hlink]; exact hack
  have hnone : ((a.activate l).link l).outst = [] := by rw [hlink]; exact hnone.trans hout
  have hwire : ((a.activate l).link l).wire = (s.link l).wire ++ [.linkctl (.probe 0)] := by rw [hlink]; exact hwire
  generalize a.activate l = b at *
  obtain ⟨⟨g, hg, hcls, hgack, -⟩, -, -, -, hout', hregs, hmem⟩ := State.sendAck_acked hactive
  generalize b.sendAck l = c at *
  have hempty : (c.link l).outst = [] := hout'.trans hnone
  rw [State.ackIn_nil hempty, State.replay_nil hempty]
  have hset : (c.setLink l { c.link l with outst := [] }).link l = _ := State.link_modLink_same c l fun _ => { c.link l with outst := [] }
  have hsetmem : (c.setLink l { c.link l with outst := [] }).mem = c.mem := rfl
  have hsetregs : (c.setLink l { c.link l with outst := [] }).regs = c.regs := rfl
  generalize c.setLink l { c.link l with outst := [] } = d at *
  generalize hq : (if a.fget (R.LINK_STATUS_WIDTH l) = s.fget (R.LINK_STATUS_WIDTH l) then d
    else d.chipEvent 0x303 [lnk l, BitVec.ofNat 32 (s.fget (R.LINK_STATUS_WIDTH l)), BitVec.ofNat 32 (a.fget (R.LINK_STATUS_WIDTH l))]) = q
  have hreport : Reports (fun _ => false) d q := by
    rw [← hq]
    split
    · exact .refl d
    · exact State.chipEvent_reports ..
  obtain ⟨hfmem, hfregs, hflink⟩ := q.fenceLaneDone_spec l
  generalize q.fenceLaneDone l = t at *
  have hlow {x : Nat} (hlo : linkBase l ≤ x) (hhi : x < linkBase l + 0x1000) : t.rget x = b.rget x := by
    unfold linkBase at hlo hhi
    obtain ⟨hcnt, hses, -⟩ := linkReg_apart (a := x) (by omega)
    refine (hfregs x (beq_false_of_ne ?_)).trans ((hreport.regs x ?_).trans ((State.rget_congr hsetregs x).trans (hregs x hcnt)))
    · unfold R.ENG_STATUS
      omega
    · simp only [hcnt, hses, Bool.or_false]
  have htest' : t.flag (R.LINK_CTRL_TEST l) = false := by
    refine (State.flag_congr ((hlow ?_ ?_).trans ((hact.regs _ (beq_false_of_ne ?_)).trans
      (hagree.regs _ (Bool.eq_false_iff.2 fun h => ?_))))).trans htest
    · unfold linkBase R.LINK_CTRL_TEST R.LINK_CTRL; dsimp only; omega
    · unfold linkBase R.LINK_CTRL_TEST R.LINK_CTRL; dsimp only; omega
    · unfold R.LINK_STATUS R.LINK_CTRL_TEST R.LINK_CTRL; dsimp only; omega
    · exact (agreeReg_block h).2.2 rfl
  rw [State.testIfAsked_not htest']
  have hstatus : t.rget (R.LINK_STATUS l) = b.rget (R.LINK_STATUS l) :=
    hlow (by unfold linkBase R.LINK_STATUS; omega) (by unfold linkBase R.LINK_STATUS; omega)
  refine ⟨(State.fget_congr hstatus).trans hactive, (State.fget_congr hstatus).trans (hwidth'.trans hwidth),
    .of_mem (hfmem.trans (hreport.mem.trans (hsetmem.trans (hmem.trans (hact.mem.trans hagree.mem))))), g, ?_, hcls, hgack.trans (congrArg _ hack)⟩
  have hlinks : q.link l = d.link l := by
    unfold State.link
    rw [(congrArg State.links hreport.same :)]
  rw [hflink, hlinks, hset]
  dsimp only
  rw [hg, hwire, List.append_assoc, List.append_assoc, List.drop_left]
  exact List.mem_append_right _ (List.mem_append_right _ (List.mem_singleton_self _))

/-! ## Block lock and alignment markers -/

/-- Blocks that keep block lock lose no lane. -/
theorem doLaneLockLoss_kept {j : Fin 8} {blocks : List (BitVec 66)}
    (hlock : (blocks.scanl LaneRx.block (Store.get (fun _ => {}) (s.link l).lanes j)).all (·.lock) = true) :
    LinkOnly (fun _ => false) l s (doLaneLockLoss l j 0 blocks s) := by
  unfold doLaneLockLoss
  dsimp only
  rw [if_pos rfl, if_pos (by rw [hlock, Bool.or_true])]
  exact (LinkOnly.refl s).modLink _

theorem doLaneLockLoss_loses {j : Fin 8} {c : Fin 4} {blocks : List (BitVec 66)}
    (hlock : c = 0 → (Store.get (fun _ => {}) (s.link l).lanes j : LaneRx).lock = true ∧
      (blocks.scanl LaneRx.block (Store.get (fun _ => {}) (s.link l).lanes j)).all (·.lock) = false)
    (hthr : c = 3 → s.fget (R.LINK_BIPTHR_THR l) ≠ 0) :
    ∃ r cause, LinkOnly (fun _ => false) l s r ∧ (r.link l).wire = (s.link l).wire ∧ doLaneLockLoss l j c blocks s = r.loseLane l j cause := by
  unfold doLaneLockLoss
  extract_lets k had locks r
  have hr : LinkOnly (fun _ => false) l s r := (LinkOnly.refl s).modLink _
  have hrwire : (r.link l).wire = (s.link l).wire := by
    have : r.link l = _ := State.link_modLink_same ..
    rw [this]
  clear_value r
  by_cases hzero : c = 0
  · obtain ⟨hhad, hlost⟩ := hlock hzero
    have hkeep : ¬(!had.lock || locks.all (·.lock)) = true := by
      show ¬(!(Store.get (fun _ => {}) (s.link l).lanes j : LaneRx).lock || (blocks.scanl LaneRx.block _).all (·.lock)) = true
      rw [hhad, hlost]
      decide
    rw [if_pos hzero, if_neg hkeep]
    exact ⟨r, 1, hr, hrwire, rfl⟩
  · rw [if_neg hzero, if_neg fun h => hthr h.1 h.2]
    exact ⟨s, _, .refl s, rfl, rfl⟩

/-- An alignment marker counts for a link that is ACTIVE or retrains, on a lane that it sends on. -/
theorem amCounts {j : Nat} (hstate : s.linkState l = lkActive ∨ s.linkState l = lkRetrain) (hlane : j ∈ s.lanesOf l) :
    ¬((s.linkState l != lkActive && s.linkState l != lkRetrain) || !(s.lanesOf l).contains j) = true := by
  have hin : (s.lanesOf l).contains j = true := List.contains_iff_mem.2 hlane
  rw [hin]
  rcases hstate with h | h <;> rw [h] <;> decide

/-- A BIP error while no number of them loses a lane is counted. -/
theorem State.bipError_counts {j : Nat} (hthr : s.fget (R.LINK_BIPTHR_THR l) = 0) (hroom : s.fget (R.LANE_ERR_COUNT l j) < 2 ^ 32 - 1) :
    LinkOnly (fun a => a == R.LANE_ERR l j) l s (s.bipError l j) ∧
      (s.bipError l j).fget (R.LANE_ERR_COUNT l j) = s.fget (R.LANE_ERR_COUNT l j) + 1 := by
  have hone : LinkOnly (fun a => a == R.LANE_ERR l j) l s (s.count (R.LANE_ERR_COUNT l j)) :=
    (LinkOnly.refl s).count (by simp [R.LANE_ERR_COUNT]) 1
  have hcounted : (s.count (R.LANE_ERR_COUNT l j)).fget (R.LANE_ERR_COUNT l j) = s.fget (R.LANE_ERR_COUNT l j) + 1 :=
    State.fget_count_of_lt (show 0 ≤ 31 by decide) (show 31 < 32 by decide) hroom
  have hthr' : (s.count (R.LANE_ERR_COUNT l j)).fget (R.LINK_BIPTHR_THR l) = 0 :=
    (State.fget_fset_addr _ _ (by
      unfold R.LINK_BIPTHR_THR R.LINK_BIPTHR R.LANE_ERR_COUNT R.LANE_ERR
      dsimp only
      omega)).trans hthr
  unfold State.bipError
  dsimp only
  generalize s.count (R.LANE_ERR_COUNT l j) = c at hone hcounted hthr' ⊢
  generalize ((c.link l).bips.filter fun e => decide (c.now - oneSecond < e.2)) ++ [(j, c.now)] = recent
  have hmod : (c.modLink l fun c => { c with bips := recent }).fget (R.LINK_BIPTHR_THR l) = 0 := (State.fget_congr rfl).trans hthr'
  rw [if_neg fun h => h.1 hmod]
  exact ⟨hone.modLink _, (State.fget_congr rfl).trans hcounted⟩

theorem doAmReceive_good {j : Fin 8} {w : BitVec 64} {since : List (BitVec 64)} (hstate : s.linkState l = lkActive ∨ s.linkState l = lkRetrain)
    (hlane : j.val ∈ s.lanesOf l) (hown : s.amLane l j w = true)
    (hbip : (w.extractLsb' 16 8 == bip8 since) = true ∨ s.fget (R.LINK_BIPTHR_THR l) = 0)
    (hroom : s.fget (R.LANE_ERR_COUNT l j) < 2 ^ 32 - 1) :
    let t := doAmReceive l j (some w) since s
    j.val ∉ (t.link l).amBad ∧ t.fget (R.LANE_ERR_COUNT l j) = s.fget (R.LANE_ERR_COUNT l j) + (!(w.extractLsb' 16 8 == bip8 since)).toNat ∧
      RegsSame (fun a => a == R.LANE_ERR l j) s t ∧ MemSame s t := by
  dsimp only
  unfold doAmReceive
  extract_lets k i laneOk bipOk q
  have hok : laneOk = true := hown
  have hq : LinkOnly (fun a => a == R.LANE_ERR l j) l s q ∧
      q.fget (R.LANE_ERR_COUNT l j) = s.fget (R.LANE_ERR_COUNT l j) + (!(w.extractLsb' 16 8 == bip8 since)).toNat := by
    show LinkOnly _ l s (if (w.extractLsb' 16 8 == bip8 since) = true then s else s.bipError k i) ∧
      State.fget (if (w.extractLsb' 16 8 == bip8 since) = true then s else s.bipError k i) _ = _
    cases hc : w.extractLsb' 16 8 == bip8 since with
    | true => exact ⟨.refl s, rfl⟩
    | false =>
      rw [hc] at hbip
      exact State.bipError_counts (hbip.resolve_left Bool.false_ne_true) hroom
  obtain ⟨honly, hcount⟩ := hq
  clear_value q
  rw [if_neg (amCounts hstate hlane), if_pos hok]
  have hlink : (q.modLink k fun c => { c with amBad := c.amBad.filter (· != i) }).link k = _ := State.link_modLink_same ..
  have hall := honly.modLink fun c => { c with amBad := c.amBad.filter (· != i) }
  refine ⟨?_, (State.fget_congr rfl).trans hcount, hall.regs, .of_mem hall.mem⟩
  show i ∉ ((q.modLink k fun c => { c with amBad := c.amBad.filter (· != i) }).link k).amBad
  rw [hlink]
  simp

theorem doAmReceive_bad {j : Fin 8} {am : Option (BitVec 64)} {since : List (BitVec 64)}
    (hstate : s.linkState l = lkActive ∨ s.linkState l = lkRetrain) (hlane : j.val ∈ s.lanesOf l) (hown : am.any (s.amLane l j) = false)
    (hbip : am.all (fun w => w.extractLsb' 16 8 == bip8 since) = true) :
    doAmReceive l j am since s =
      if (s.link l).amBad.contains j.val then (s.modLink l fun c => { c with amBad := c.amBad.filter (· != j.val) }).loseLane l j 2
      else s.modLink l fun c => { c with amBad := j.val :: c.amBad } := by
  unfold doAmReceive
  dsimp only
  rw [if_neg (amCounts hstate hlane), hown, hbip]
  rfl

/-- A lane that an ACTIVE link uses is one that it sends on. -/
theorem State.mem_lanesOf {j : Fin 8} (hstate : s.linkState l = lkActive) (huses : (s.fget (R.LINK_STATUS_USED l)).testBit j = true) :
    j.val ∈ s.lanesOf l := by
  refine List.mem_filter.2 ⟨List.mem_range.2 j.isLt, ?_⟩
  rw [if_pos hstate]
  exact huses

/-- Settles O42, clause by clause; that numbering begins at 0 with 4,095 as the one acknowledged is the model's choice (log entry 30). -/
theorem linksTrain : Obligations.LinksTrain := by
  unfold Obligations.LinksTrain
  refine ⟨fun l r s hstate hgood htest hmild => ⟨_, rfl, doTrainingSuccess_active hstate hgood htest hmild⟩,
    fun l s hstate hwait hmild hroom => ⟨_, rfl, doTrainingTimeout_fails hstate hwait hmild hroom⟩, fun l beacon s hstate hwait => ?_,
    fun l beacon s => ⟨fun hstate => ?_, fun hbeacon hwait => ?_, fun hwait => ?_, fun hwait => ?_⟩,
    fun l r s hstate hgood htest hout => ⟨_, rfl, doRetrainComplete_active hstate hgood htest hout⟩, fun l b s hstate hwait hmild => ?_,
    fun l j c blocks s => ⟨fun hzero hlock => ?_, fun hstate huses hlast hlock hthr hmild hmild' => ?_⟩,
    fun l j w since s hstate hlane hown hbip hroom => ⟨_, rfl, doAmReceive_good hstate hlane hown hbip hroom⟩,
    fun l j am since s hstate hlane hown hbip hnew => ?_, fun l j since s hstate huses hold hlast hmild => ?_⟩
  case refine_1 =>
    obtain ⟨honly, htrains⟩ := s.train_spec l
    have hgo : (beacon || s.linkWaited l (downWait (s.link l).fails)) = true := by
      rw [downWait_eq]
      exact Bool.or_eq_true_iff.2 hwait
    refine ⟨_, congrArg Host.Outcome.next (doDownWaitExpiry_trains hstate hgo), htrains, .of_mem honly.mem, honly.regs.mono fun a ha => ?_⟩
    refine decide_eq_true ?_
    rcases Bool.or_eq_true_iff.1 ha with h | h
    · rw [beq_iff_eq.1 h]
      unfold linkBase R.LINK_STATUS
      omega
    · obtain ⟨j, hj, rfl⟩ := lanesReg_iff.1 h
      unfold linkBase R.LANE_STAT
      omega
  case refine_2 => exact congrArg Host.Outcome.next (if_neg fun h => hstate h.1)
  case refine_3 =>
    refine congrArg Host.Outcome.next (if_neg fun h => ?_)
    rw [hbeacon, hwait] at h
    exact Bool.false_ne_true h.2
  case refine_4 => exact congrArg Host.Outcome.next (if_pos (by rw [hwait]; simp))
  case refine_5 => exact congrArg Host.Outcome.next (if_pos (by rw [hwait]; simp))
  case refine_6 =>
    obtain ⟨cause, heq⟩ := doRetrainTimeout_down hstate hwait
    obtain ⟨hdown, hflag, hfails, hmem⟩ := State.goDown_spec hmild cause
    exact ⟨_, congrArg Host.Outcome.next heq, hdown, hflag, hfails, .of_mem hmem⟩
  case refine_7 =>
    subst hzero
    have honly := doLaneLockLoss_kept hlock
    exact ⟨_, rfl, State.fget_congr (honly.regs _ rfl), honly.regs, .of_mem honly.mem⟩
  case refine_8 =>
    obtain ⟨r, cause, honly, hwire, heq⟩ := doLaneLockLoss_loses (s := s) (l := l) (j := j) (c := c) (blocks := blocks) hlock hthr
    have hkept (k : Nat) (hk : Mild s (linkBase l) k) : Mild r (linkBase l) k := hk.congr honly.staged (honly.regs _ rfl)
    have hlanes : r.fencedLanes l = s.fencedLanes l := State.fget_congr (honly.regs _ rfl)
    obtain ⟨hretrain, hfenced, hflag, hsent, hmem⟩ := State.loseLane_active (s := r) (cause := cause) l.isLt j.isLt
      ((State.fget_congr (honly.regs _ rfl)).trans hstate) (by rw [State.fget_congr (honly.regs _ rfl)]; exact huses)
      (by rw [hlanes]; exact hlast) (hkept 2 hmild) fun _ => hkept 5 hmild'
    refine ⟨_, congrArg Host.Outcome.next heq, hretrain, hfenced.trans (by rw [hlanes]), hflag, ?_, .of_mem (hmem.trans honly.mem)⟩
    rw [hsent, hwire, List.drop_left]
    exact List.mem_singleton_self _
  case refine_9 =>
    refine ⟨_, congrArg Host.Outcome.next ((doAmReceive_bad hstate hlane hown hbip).trans (if_neg ?_)), ?_, State.fget_congr rfl, fun _ _ => rfl,
      .of_mem rfl⟩
    · rw [List.contains_iff_mem]
      exact hnew
    · rw [State.link_modLink_same]
      exact List.mem_cons_self
  case refine_10 =>
    have heq := doAmReceive_bad (am := none) (since := since) (.inl hstate) (State.mem_lanesOf hstate huses) rfl rfl
    rw [if_pos (List.contains_iff_mem.2 hold)] at heq
    obtain ⟨hretrain, hlanes, hflag, -, hmem⟩ := State.loseLane_active (s := s.modLink l fun c => { c with amBad := c.amBad.filter (· != j.val) })
      (cause := 2) l.isLt j.isLt hstate huses hlast (hmild.congr rfl rfl) fun h => absurd h (by decide)
    exact ⟨_, congrArg Host.Outcome.next heq, hretrain, hlanes, hflag, .of_mem hmem⟩

end Sys2Proof.Machine
end

section
/-! SUPPORT. Writes to the registers of a link and its control messages (12_serial_links.md R289, R299, R301, R306, Table 12.3). -/

namespace Sys2Proof.Machine

variable {s₀ s t : State} {l : Fin 12}

theorem inBlock_of_link {l a : Nat} (h : linkBase l ≤ a ∧ a < linkBase l + 0x1000) : inBlock (linkBase l) a = true := decide_eq_true h

theorem ctrl_inBlock (l : Nat) : inBlock (linkBase l) (R.LINK_CTRL l) = true := inBlock_of_link (by unfold linkBase R.LINK_CTRL; omega)

theorem status_inBlock (l : Nat) : inBlock (linkBase l) (R.LINK_STATUS l) = true := inBlock_of_link (by unfold linkBase R.LINK_STATUS; omega)

theorem lanes_inBlock {l a : Nat} (h : lanesReg l a = true) : inBlock (linkBase l) a = true := by
  obtain ⟨j, hj, rfl⟩ := lanesReg_iff.1 h
  exact inBlock_of_link (by unfold linkBase R.LANE_STAT; omega)

theorem retrain_inBlock {l a : Nat} (h : retrainReg l a = true) : inBlock (linkBase l) a = true := by
  refine inBlock_of_link ?_
  rcases Bool.or_eq_true_iff.1 h with h | h <;> rw [beq_iff_eq.1 h]
  · unfold linkBase R.LINK_STATUS; omega
  · unfold linkBase R.LINK_RETRAIN; omega

/-- LINK_CTRL is apart from what a link changes when it stops. -/
theorem ctrl_of_stop (h : RegsSame (stopReg l) s t) : t.rget (R.LINK_CTRL l) = s.rget (R.LINK_CTRL l) :=
  h _ (stopReg_of_block (by unfold linkBase R.LINK_CTRL; omega) (by unfold linkBase R.LINK_CTRL; omega)
    (by unfold R.LINK_STATUS R.LINK_CTRL; omega) (.inl (by unfold linkBase R.LINK_CTRL; omega)))

/-- LINK_CTRL is apart from what training changes at its beginning. -/
theorem ctrl_not_train (l : Nat) : (R.LINK_CTRL l == R.LINK_STATUS l || lanesReg l (R.LINK_CTRL l)) = false := by
  refine Bool.eq_false_iff.2 fun h => ?_
  rcases Bool.or_eq_true_iff.1 h with h | h
  · have := beq_iff_eq.1 h
    unfold R.LINK_CTRL R.LINK_STATUS at this
    omega
  · obtain ⟨j, -, hj⟩ := lanesReg_iff.1 h
    unfold R.LINK_CTRL R.LANE_STAT at hj
    omega

/-! ## EN -/

theorem State.linkEn_up (hoff : s.linkState l = lkOff) :
    (s.linkEn l true).linkState l = lkTraining ∧ (s.linkEn l true).flag (R.LINK_CTRL_EN l) = true ∧
      RegsSame (inBlock (linkBase l)) s (s.linkEn l true) ∧ (s.linkEn l true).mem = s.mem := by
  have hset : RegsSame (inBlock (linkBase l)) s (s.setFlag (R.LINK_CTRL_EN l) true) := RegsSame.rset s (ctrl_inBlock l) _
  have hen : (s.setFlag (R.LINK_CTRL_EN l) true).flag (R.LINK_CTRL_EN l) = true :=
    State.flag_setFlag_same _ true (show 0 ≤ 0 by decide) (show 0 < 32 by decide)
  have hmem : (s.setFlag (R.LINK_CTRL_EN l) true).mem = s.mem := rfl
  unfold State.linkEn
  dsimp only
  rw [if_pos rfl, if_pos hoff]
  generalize s.setFlag (R.LINK_CTRL_EN l) true = r at *
  obtain ⟨honly, htrains⟩ := r.train_spec l
  refine ⟨htrains, (State.flag_congr (honly.regs _ (ctrl_not_train l))).trans hen, hset.trans (honly.regs.mono fun a ha => ?_),
    honly.mem.trans hmem⟩
  rcases Bool.or_eq_true_iff.1 ha with h | h
  · rw [beq_iff_eq.1 h]
    exact status_inBlock l
  · exact lanes_inBlock h

theorem State.linkEn_down (s : State) (l : Fin 12) :
    (s.linkState l ≠ lkOff → (s.linkEn l false).linkState l = lkOff) ∧ (s.linkEn l false).flag (R.LINK_CTRL_EN l) = false ∧
      (s.linkEn l false).mem = s.mem := by
  have hen : (s.setFlag (R.LINK_CTRL_EN l) false).flag (R.LINK_CTRL_EN l) = false :=
    State.flag_setFlag_same _ false (show 0 ≤ 0 by decide) (show 0 < 32 by decide)
  have hmem : (s.setFlag (R.LINK_CTRL_EN l) false).mem = s.mem := rfl
  unfold State.linkEn
  dsimp only
  rw [if_neg Bool.false_ne_true]
  generalize s.setFlag (R.LINK_CTRL_EN l) false = r at *
  by_cases hoff : s.linkState l = lkOff
  · rw [if_pos hoff]
    exact ⟨fun h => absurd hoff h, hen, hmem⟩
  · obtain ⟨hstop, -, hregs, -, hstate, -⟩ := r.linkStop_spec l (st := lkOff) (by decide)
    rw [if_neg hoff]
    generalize r.linkStop l lkOff = q at *
    have hflag : q.flag (R.LINK_CTRL_EN l) = false := (State.flag_congr (ctrl_of_stop hregs)).trans hen
    split
    · have hreport := State.chipEvent_reports (fun _ => false) q 0x301 [lnk l, 2]
      have hkeeps {a : Nat} (ha : linkBase l ≤ a ∧ a < linkBase l + 0x1000) : (q.chipEvent 0x301 [lnk l, 2]).rget a = q.rget a := by
        obtain ⟨hlo, hhi⟩ := ha
        unfold linkBase at hlo hhi
        obtain ⟨hcnt, hses, -⟩ := linkReg_apart (a := a) (by omega)
        exact hreport.regs _ (by simp only [hcnt, hses, Bool.or_false])
      refine ⟨fun _ => (State.fget_congr (hkeeps ?_)).trans hstate, (State.flag_congr (hkeeps ?_)).trans hflag, hreport.mem.trans (hstop.trans hmem)⟩
      · unfold linkBase R.LINK_STATUS_STATE R.LINK_STATUS; dsimp only; omega
      · unfold linkBase R.LINK_CTRL_EN R.LINK_CTRL; dsimp only; omega
    · exact ⟨fun _ => hstate, hflag, hstop.trans hmem⟩

/-! ## RETRAIN, WMAX and fenced lanes -/

/-- A link that is not ACTIVE begins no RETRAIN; one that is enters it, with its own registers alone. -/
theorem State.enterRetrain_only (s : State) (l : Nat) : LinkOnly (retrainReg l) l s (s.enterRetrain l) ∧
    (s.linkState l = lkActive → (s.enterRetrain l).linkState l = lkRetrain) := by
  by_cases h : s.linkState l = lkActive
  · obtain ⟨honly, hstate, -⟩ := State.enterRetrain_active h
    exact ⟨honly, fun _ => hstate⟩
  · have heq : s.enterRetrain l = s := if_neg h
    rw [heq]
    exact ⟨.refl s, fun k => absurd k h⟩

/-- A retrain that begins is counted. -/
theorem State.enterRetrain_count {l : Nat} (h : s.linkState l = lkActive) (hroom : s.fget (R.LINK_RETRAIN_COUNT l) < 2 ^ 32 - 1) :
    (s.enterRetrain l).fget (R.LINK_RETRAIN_COUNT l) = s.fget (R.LINK_RETRAIN_COUNT l) + 1 := by
  unfold State.enterRetrain
  rw [if_pos h]
  extract_lets r
  have hr : r.fget (R.LINK_RETRAIN_COUNT l) = s.fget (R.LINK_RETRAIN_COUNT l) := State.fget_congr rfl
  clear_value r
  have hset : (r.fset (R.LINK_STATUS_STATE l) lkRetrain).fget (R.LINK_RETRAIN_COUNT l) = r.fget (R.LINK_RETRAIN_COUNT l) :=
    State.fget_fset_addr _ _ (by unfold R.LINK_RETRAIN_COUNT R.LINK_RETRAIN R.LINK_STATUS_STATE R.LINK_STATUS; dsimp only; omega)
  generalize r.fset (R.LINK_STATUS_STATE l) lkRetrain = q at *
  have hq := hset.trans hr
  refine (State.fget_count_of_lt (f := R.LINK_RETRAIN_COUNT l) (show 0 ≤ 31 by decide) (show 31 < 32 by decide) ?_).trans (congrArg (· + 1) hq)
  rw [hq]
  exact hroom

theorem ctrl_not_retrain (l : Nat) : retrainReg l (R.LINK_CTRL l) = false := by
  simp [retrainReg, R.LINK_CTRL, R.LINK_STATUS, R.LINK_RETRAIN]

theorem State.linkWmax_spec (s : State) (l : Nat) {w : Nat} (hw : w ≤ 4) :
    (s.linkWmax l w).fget (R.LINK_CTRL_WMAX l) = w ∧ (s.linkWmax l w).mem = s.mem ∧
      (s.linkState l = lkActive → s.fget (R.LINK_CTRL_WMAX l) ≠ w → (s.linkWmax l w).linkState l = lkRetrain) := by
  unfold State.linkWmax
  by_cases h : s.fget (R.LINK_CTRL_WMAX l) = w
  · rw [if_pos h]
    exact ⟨h, rfl, fun _ k => absurd h k⟩
  · rw [if_neg h]
    have hlt : w < 2 ^ (6 - 4 + 1) := Nat.lt_of_le_of_lt hw (by decide)
    have hset : (s.fset (R.LINK_CTRL_WMAX l) w).fget (R.LINK_CTRL_WMAX l) = w :=
      (State.fget_fset_same _ _ (show 4 ≤ 6 by decide) (show 6 < 32 by decide)).trans (Nat.mod_eq_of_lt hlt)
    have hstate : (s.fset (R.LINK_CTRL_WMAX l) w).linkState l = s.linkState l :=
      State.fget_fset_addr _ _ (by unfold R.LINK_STATUS_STATE R.LINK_STATUS R.LINK_CTRL_WMAX R.LINK_CTRL; dsimp only; omega)
    have hmem : (s.fset (R.LINK_CTRL_WMAX l) w).mem = s.mem := rfl
    generalize s.fset (R.LINK_CTRL_WMAX l) w = r at *
    obtain ⟨honly, hretrain⟩ := r.enterRetrain_only l
    exact ⟨(State.fget_congr (honly.regs _ (ctrl_not_retrain l))).trans hset, honly.mem.trans hmem, fun k _ => hretrain (hstate.trans k)⟩

/-- Bits taken out of a mask. -/
theorem toNat_sub_and {n : Nat} (x m : BitVec n) : x.toNat - (x.toNat &&& m.toNat) = (x &&& ~~~m).toNat := by
  have hdisjoint : (x &&& ~~~m) &&& (x &&& m) = 0#n := by
    ext i
    simp only [BitVec.getElem_and, BitVec.getElem_not, BitVec.getElem_zero]
    cases x[i] <;> cases m[i] <;> rfl
  have hcover : (x &&& ~~~m) ||| (x &&& m) = x := by
    ext i
    simp only [BitVec.getElem_and, BitVec.getElem_not, BitVec.getElem_or]
    cases x[i] <;> cases m[i] <;> rfl
  have hsum := BitVec.toNat_add_of_and_eq_zero hdisjoint
  rw [BitVec.add_eq_or_of_and_eq_zero _ _ hdisjoint, hcover, BitVec.toNat_and x m] at hsum
  omega

theorem State.unfenceLanes_spec (s : State) (l : Nat) (m : BitVec 8) :
    let t := s.unfenceLanes l m.toNat
    (∀ j, j < 8 → (t.fencedLanes l).testBit j = ((s.fencedLanes l).testBit j && !m.getLsbD j)) ∧ RegsSame (inBlock (linkBase l)) s t ∧
      t.mem = s.mem := by
  have hlt : s.fencedLanes l < 2 ^ 8 := field_lt _ 7 0
  dsimp only
  unfold State.unfenceLanes
  dsimp only
  by_cases h : s.fencedLanes l &&& m.toNat = 0
  · rw [if_pos h]
    refine ⟨fun j _ => ?_, fun _ _ => rfl, rfl⟩
    have hbit : ((s.fencedLanes l).testBit j && m.getLsbD j) = false := by
      rw [← BitVec.testBit_toNat, ← Nat.testBit_and, h, Nat.zero_testBit]
    cases hm : m.getLsbD j with
    | false => rw [Bool.not_false, Bool.and_true]
    | true =>
      rw [hm, Bool.and_true] at hbit
      rw [hbit]
      rfl
  · rw [if_neg h]
    have hmask : s.fencedLanes l - (s.fencedLanes l &&& m.toNat) = (BitVec.ofNat 8 (s.fencedLanes l) &&& ~~~m).toNat := by
      rw [← toNat_sub_and, BitVec.toNat_ofNat, Nat.mod_eq_of_lt hlt]
    have hset : (s.fset (R.LINK_LANEFENCE_FENCE l) (s.fencedLanes l - (s.fencedLanes l &&& m.toNat))).fencedLanes l =
        (BitVec.ofNat 8 (s.fencedLanes l) &&& ~~~m).toNat := by
      rw [hmask]
      exact (State.fget_fset_same _ _ (show 0 ≤ 7 by decide) (show 7 < 32 by decide)).trans (Nat.mod_eq_of_lt (BitVec.isLt _))
    have hregs : RegsSame (inBlock (linkBase l)) s (s.fset (R.LINK_LANEFENCE_FENCE l) (s.fencedLanes l - (s.fencedLanes l &&& m.toNat))) :=
      RegsSame.rset s (inBlock_of_link (by unfold linkBase R.LINK_LANEFENCE_FENCE R.LINK_LANEFENCE; dsimp only; omega)) _
    have hmem : (s.fset (R.LINK_LANEFENCE_FENCE l) (s.fencedLanes l - (s.fencedLanes l &&& m.toNat))).mem = s.mem := rfl
    generalize s.fset (R.LINK_LANEFENCE_FENCE l) (s.fencedLanes l - (s.fencedLanes l &&& m.toNat)) = r at *
    obtain ⟨honly, -⟩ := r.enterRetrain_only l
    refine ⟨fun j hj => ?_, hregs.trans (honly.regs.mono fun _ ha => retrain_inBlock ha), honly.mem.trans hmem⟩
    have hkeep : (r.enterRetrain l).fencedLanes l = r.fencedLanes l := State.fget_congr (honly.regs _ (by
      simp [retrainReg, R.LINK_LANEFENCE_FENCE, R.LINK_LANEFENCE, R.LINK_STATUS, R.LINK_RETRAIN]))
    rw [hkeep, hset, BitVec.testBit_toNat, BitVec.getLsbD_and, BitVec.getLsbD_ofNat, BitVec.getLsbD_not, decide_eq_true hj]
    rfl

/-! ## Control messages -/

theorem State.sendWire_sent (s : State) (l : Nat) (w : Wire) :
    ((s.sendWire l w).link l).wire = (s.link l).wire ++ [w] ∧ ((s.sendWire l w).link l).loop = (s.link l).loop := by
  obtain ⟨d, hd, hlink⟩ := s.link_sendWire l w
  rw [hlink]
  exact ⟨rfl, (congrArg LinkCtx.loop hd.same :)⟩

theorem doLinkctlReceive_loop (s : State) (l : Fin 12) :
    (s.flag (R.LINK_CTRL_ALLOW_FELB l) = true → s.carriesHost l = false →
      doLinkctlReceive l .farEndLoop s = s.modLink l fun c => { c with loop := true }) ∧
    (s.flag (R.LINK_CTRL_ALLOW_FELB l) = false ∨ s.carriesHost l = true →
      doLinkctlReceive l .farEndLoop s = s.sendWire l (.linkctl .loopRefused)) := by
  unfold doLinkctlReceive
  refine ⟨fun hallow hhost => if_pos ?_, fun h => if_neg ?_⟩
  · rw [hallow, hhost]
    rfl
  · rcases h with h | h <;> rw [h] <;> simp

end Sys2Proof.Machine
end

section
/-! SUPPORT. TEST, its raw bits and the PRBS31 checker (12_serial_links.md R306). -/

namespace Sys2Proof.Machine

variable {s₀ s t : State} {l : Fin 12}

/-! ## The PRBS31 checker -/

/-- The checker behind bits that it has received: it holds the last 31 of them, and has counted no error. -/
structure PrbsChecks (seen : List Bool) (c : (Nat × BitVec 31) × Nat) : Prop where
  count : c.1.1 = min 31 seen.length
  errors : c.2 = 0
  bits : ∀ i, i < 31 → i < seen.length → c.1.2.getLsbD i = seen.getD (seen.length - 1 - i) false

/-- A bit enters the register of the checker. -/
theorem getLsbD_shiftIn (w : BitVec 31) (b : Bool) (i : Nat) (hi : i < 31) :
    ((w <<< 1) ||| BitVec.ofNat 31 b.toNat).getLsbD i = if i = 0 then b else w.getLsbD (i - 1) := by
  rw [BitVec.getLsbD_or, BitVec.getLsbD_shiftLeft, BitVec.getLsbD_ofNat, decide_eq_true hi]
  by_cases h : i = 0
  · subst h
    cases b <;> rfl
  · have hb : b.toNat.testBit i = false := Nat.testBit_eq_false_of_lt (by
      have : 2 ≤ 2 ^ i := by
        calc 2 = 2 ^ 1 := rfl
          _ ≤ 2 ^ i := Nat.pow_le_pow_right (by decide) (by omega)
      have := Bool.toNat_lt b
      omega)
    rw [hb, if_neg h, decide_eq_false (by omega)]
    simp

theorem PrbsChecks.nil : PrbsChecks [] ((0, 0), 0) := ⟨rfl, rfl, fun i _ h => absurd h (Nat.not_lt_zero i)⟩

/-- Behind 31 bits each next one is the one that PRBS31 expects. -/
theorem PrbsChecks.push {seen : List Bool} {c : (Nat × BitVec 31) × Nat} (h : PrbsChecks seen c) {b : Bool}
    (hb : 31 ≤ seen.length → b = (seen.getD (seen.length - 31) false ^^ seen.getD (seen.length - 28) false)) :
    PrbsChecks (seen ++ [b]) (prbsBit c b) := by
  obtain ⟨⟨n, w⟩, k⟩ := c
  obtain ⟨hcount, herr, hbits⟩ := h
  dsimp only at hcount herr hbits
  have hshift (b' : Bool) (hb' : b' = b) : ∀ i, i < 31 → i < (seen ++ [b]).length →
      ((w <<< 1) ||| BitVec.ofNat 31 b'.toNat).getLsbD i = (seen ++ [b]).getD ((seen ++ [b]).length - 1 - i) false := fun i hi hlt => by
    rw [getLsbD_shiftIn _ _ _ hi, List.length_append, List.length_singleton]
    rw [List.length_append, List.length_singleton] at hlt
    by_cases h0 : i = 0
    · rw [if_pos h0, h0, hb', List.getD_append_right _ _ _ _ (by omega)]
      simp
    · rw [if_neg h0, hbits (i - 1) (by omega) (by omega), List.getD_append _ _ _ _ (by omega)]
      congr 1
      omega
  unfold prbsBit
  dsimp only
  by_cases hfew : n < 31
  · rw [if_pos hfew]
    refine ⟨?_, herr, hshift b rfl⟩
    rw [List.length_append, List.length_singleton]
    dsimp only
    omega
  · have hlong : 31 ≤ seen.length := by omega
    have hnext : prbsNext w = b := by
      rw [prbsNext, hbits 30 (by decide) (by omega), hbits 27 (by decide) (by omega), hb hlong]
      congr 2
    rw [if_neg hfew, hnext]
    refine ⟨?_, ?_, hshift (prbsNext w) hnext⟩
    · rw [List.length_append, List.length_singleton]
      dsimp only
      omega
    · simp [herr]

theorem PrbsChecks.foldl {bits seen : List Bool} {c : (Nat × BitVec 31) × Nat} (h : PrbsChecks seen c)
    (hseq : ∀ i, i + 31 < (seen ++ bits).length →
      (seen ++ bits).getD (i + 31) false = ((seen ++ bits).getD i false ^^ (seen ++ bits).getD (i + 3) false)) :
    PrbsChecks (seen ++ bits) (bits.foldl prbsBit c) := by
  induction bits generalizing seen c with
  | nil => rwa [List.append_nil]
  | cons b bits ih =>
    have hassoc : seen ++ b :: bits = (seen ++ [b]) ++ bits := by rw [List.append_assoc]; rfl
    have hold (i : Nat) (hi : i < seen.length) : (seen ++ b :: bits).getD i false = seen.getD i false := List.getD_append _ _ _ _ hi
    have hnew : (seen ++ b :: bits).getD seen.length false = b := by
      rw [List.getD_append_right _ _ _ _ (Nat.le_refl _), Nat.sub_self]
      rfl
    have hstep : 31 ≤ seen.length → b = (seen.getD (seen.length - 31) false ^^ seen.getD (seen.length - 28) false) := fun hlong => by
      have hone := hseq (seen.length - 31) (by simp only [List.length_append, List.length_cons]; omega)
      have hlast : seen.length - 31 + 31 = seen.length := by omega
      have hnear : seen.length - 31 + 3 = seen.length - 28 := by omega
      rwa [hlast, hnear, hnew, hold _ (by omega), hold _ (by omega)] at hone
    rw [List.foldl_cons, hassoc]
    exact ih (h.push hstep) (hassoc ▸ hseq)

/-- PRBS31 itself counts no error at a checker that has received nothing before. -/
theorem prbs_errors {bits : List Bool}
    (hseq : ∀ i, i + 31 < bits.length → bits.getD (i + 31) false = (bits.getD i false ^^ bits.getD (i + 3) false)) :
    (bits.foldl prbsBit ((0, 0), 0)).2 = 0 :=
  (PrbsChecks.nil.foldl hseq).errors

/-! ## Raw bits -/

/-- The error counters of a link's lanes. -/
def errReg (l a : Nat) : Bool := (List.range 8).any fun j => a == R.LANE_ERR l j

theorem errReg_lane {l j : Nat} (hj : j < 8) : errReg l (R.LANE_ERR l j) = true :=
  List.any_eq_true.2 ⟨j, List.mem_range.2 hj, beq_self_eq_true _⟩

theorem errReg_iff {l a : Nat} : errReg l a = true ↔ ∃ j < 8, a = R.LANE_ERR l j := by
  simp [errReg]

theorem errReg_of_low {l a : Nat} (h : a < linkBase l + 0x100) : errReg l a = false := by
  refine Bool.eq_false_iff.2 fun k => ?_
  obtain ⟨j, -, rfl⟩ := errReg_iff.1 k
  unfold linkBase R.LANE_ERR at h
  omega

/-- A counter with room for what it counts. -/
theorem State.fget_count_add {f : Fld} {k : Nat} (hle : f.lo ≤ f.hi) (hhi : f.hi < 32) (h : s.fget f + k < 2 ^ (f.hi - f.lo + 1)) :
    (s.count f k).fget f = s.fget f + k := by
  rw [State.count, State.fget_fset_same _ _ hle hhi, Nat.min_eq_left (by omega)]
  exact Nat.mod_eq_of_lt h

/-- The checker of a lane takes the bits that the lane receives. -/
def State.checkBits (s : State) (l : Nat) (e : Fin 8 × List Bool) : State :=
  if !(s.lanesOf l).contains e.1.val then s
  else
    let r := e.2.foldl prbsBit (Store.get (fun _ => (0, 0)) (s.link l).check e.1.val, 0)
    (s.modLink l fun c => { c with check := Store.put (fun _ => (0, 0)) c.check e.1.val r.1 }).count (R.LANE_ERR_COUNT l e.1.val) r.2

theorem State.checkBits_only (s : State) (l : Nat) (e : Fin 8 × List Bool) : LinkOnly (errReg l) l s (s.checkBits l e) := by
  unfold State.checkBits
  split
  · exact .refl s
  · extract_lets r
    exact ((LinkOnly.refl s).modLink _).count (f := R.LANE_ERR_COUNT l e.1) (errReg_lane e.1.isLt) r.2

theorem State.rawBits_only (s : State) (l : Nat) (bits : List (Fin 8 × List Bool)) :
    LinkOnly (fun a => s.linkState l == lkTest && errReg l a) l s (s.rawBits l bits) := by
  unfold State.rawBits
  extract_lets mode
  split
  · exact (LinkOnly.refl s).sendWire _
  split
  · exact .refl s
  · next h =>
    have htest : s.linkState l = lkTest := by
      simp only [Bool.or_eq_true, bne_iff_ne, not_or] at h
      exact Decidable.not_not.1 h.1.1.1
    refine LinkOnly.mono (p := errReg l) ?_ fun a ha => by rw [htest, ha]; rfl
    exact List.foldlRecOn (motive := LinkOnly (errReg l) l s) _ _ (.refl s) fun r hr e _ => hr.trans (r.checkBits_only l e)

/-- A lane of a link in TEST that is not fenced counts the bit errors of what it receives. -/
theorem State.rawBits_counts {j : Fin 8} {bits : List Bool} (htest : s.linkState l = lkTest) (hprbs : s.flag (R.LINK_CTRL_PRBS l) = true)
    (hloop : (s.link l).loop = false) (hmode : s.fget (R.LINK_CTRL_LOOP l) ∉ [1, 2]) (hlane : (s.fencedLanes l).testBit j = false)
    (hroom : s.fget (R.LANE_ERR_COUNT l j) + (bits.foldl prbsBit (Store.get (fun _ => (0, 0)) (s.link l).check j, 0)).2 < 2 ^ 32) :
    (s.rawBits l [(j, bits)]).fget (R.LANE_ERR_COUNT l j) =
      s.fget (R.LANE_ERR_COUNT l j) + (bits.foldl prbsBit (Store.get (fun _ => (0, 0)) (s.link l).check j, 0)).2 := by
  have hmode : (s.fget (R.LINK_CTRL_LOOP l) == 1) = false ∧ (s.fget (R.LINK_CTRL_LOOP l) == 2) = false := by
    simpa using hmode
  have hin : (s.lanesOf l).contains j.val = true := by
    refine List.contains_iff_mem.2 (List.mem_filter.2 ⟨List.mem_range.2 j.isLt, ?_⟩)
    rw [if_neg (by rw [htest]; decide)]
    show (!(s.fencedLanes l).testBit j) = true
    rw [hlane]
    rfl
  have hraw : s.rawBits l [(j, bits)] = s.checkBits l (j, bits) := by
    unfold State.rawBits
    dsimp only
    rw [hloop, htest, hprbs, hmode.1, hmode.2]
    rfl
  rw [hraw]
  unfold State.checkBits
  dsimp only
  rw [hin, Bool.not_true, if_neg Bool.false_ne_true]
  generalize bits.foldl prbsBit (Store.get (fun _ => (0, 0)) (s.link l).check j, 0) = r at *
  have hmod : (s.modLink l fun c => { c with check := Store.put (fun _ => (0, 0)) c.check j.val r.1 }).fget (R.LANE_ERR_COUNT l j) =
    s.fget (R.LANE_ERR_COUNT l j) := State.fget_congr rfl
  generalize s.modLink l (fun c => { c with check := Store.put (fun _ => (0, 0)) c.check j.val r.1 }) = q at *
  rw [← hmod] at hroom ⊢
  exact State.fget_count_add (show 0 ≤ 31 by decide) (show 31 < 32 by decide) hroom

/-- A near-end loop counts none. -/
theorem State.rawBits_loops {bits : List (Fin 8 × List Bool)} (hloop : (s.link l).loop = false) (hmode : s.fget (R.LINK_CTRL_LOOP l) ∈ [1, 2]) :
    s.rawBits l bits = s := by
  unfold State.rawBits
  dsimp only
  rw [hloop, Bool.false_and, if_neg Bool.false_ne_true, if_pos]
  rcases List.mem_cons.1 hmode with h | h
  · rw [h]
    simp
  · rw [List.mem_singleton.1 h]
    simp

/-! ## TEST, PRBS and LOOP -/

/-- TEST begins: the lanes' error counters are 0. -/
theorem State.enterTest_spec (s : State) (l : Fin 12) :
    let t := s.enterTest l
    t.mem = s.mem ∧ t.linkState l = lkTest ∧ (∀ j, j < 8 → t.rget (R.LANE_ERR l j) = 0) ∧ t.rget (R.LINK_CTRL l) = s.rget (R.LINK_CTRL l) := by
  obtain ⟨hmem, -, hregs, -, hstate, -⟩ := s.linkStop_spec l (st := lkTest) (by decide)
  have hctrl := ctrl_of_stop hregs
  dsimp only
  unfold State.enterTest
  generalize s.linkStop l lkTest = r at *
  have hclear : LinkOnly (fun _ => false) l r (r.modLink l fun c => { c with prbs := [], check := [] }) := (LinkOnly.refl r).modLink _
  generalize r.modLink l (fun c => { c with prbs := [], check := [] }) = q at *
  have honly : LinkOnly (fun a => errReg l a || lanesReg l a) l q
      ((List.range 8).foldl (fun s j => (s.rset (R.LANE_ERR l j) 0).rset (R.LANE_STAT l j) 0) q) :=
    List.foldlRecOn (motive := LinkOnly _ l q) _ _ (.refl q) fun x hx j hj => by
      have hj := List.mem_range.1 hj
      refine (hx.rset (a := R.LANE_ERR l j) ?_ 0).rset (a := R.LANE_STAT l j) ?_ 0
      · rw [errReg_lane hj, Bool.true_or]
      · rw [lanesReg_iff.2 ⟨j, hj, rfl⟩, Bool.or_true]
  have hlow {a : Nat} (ha : a < linkBase l + 0x100) :
      ((List.range 8).foldl (fun s j => (s.rset (R.LANE_ERR l j) 0).rset (R.LANE_STAT l j) 0) q).rget a = r.rget a := by
    refine (honly.regs a ?_).trans (hclear.regs a rfl)
    rw [errReg_of_low ha, Bool.false_or]
    refine Bool.eq_false_iff.2 fun k => ?_
    obtain ⟨j, -, rfl⟩ := lanesReg_iff.1 k
    unfold linkBase R.LANE_STAT at ha
    omega
  refine ⟨honly.mem.trans (hclear.mem.trans hmem), (State.fget_congr (hlow ?_)).trans hstate, fun j hj => ?_, (hlow ?_).trans hctrl⟩
  · unfold linkBase R.LINK_STATUS_STATE R.LINK_STATUS; dsimp only; omega
  · refine foldl_establishes (I := fun _ => True) (P := fun j r => r.rget (R.LANE_ERR l j) = 0) trivial (fun _ _ _ _ => trivial) (fun x u _ _ => ?_)
      (fun x u _ v _ huv _ hx => ?_) j (List.mem_range.2 hj)
    · exact (State.rget_rset_other _ _ (by unfold R.LANE_ERR R.LANE_STAT; omega)).trans (State.rget_rset_same ..)
    · exact (State.rget_rset_other _ _ (by unfold R.LANE_ERR R.LANE_STAT; omega)).trans
        ((State.rget_rset_other _ _ (by unfold R.LANE_ERR; omega)).trans hx)
  · unfold linkBase R.LINK_CTRL; omega

/-- The fields of LINK_CTRL that a write of TEST, PRBS and LOOP sets. -/
def State.ctrlSet (s : State) (l : Nat) (test prbs : Bool) (loopMode : Nat) : State :=
  ((s.setFlag (R.LINK_CTRL_TEST l) test).setFlag (R.LINK_CTRL_PRBS l) (test && prbs)).fset (R.LINK_CTRL_LOOP l) (if test then loopMode else 0)

theorem State.ctrlSet_spec (s : State) (l : Nat) (test prbs : Bool) (loopMode : Nat) :
    LinkOnly (fun a => a == R.LINK_CTRL l) l s (s.ctrlSet l test prbs loopMode) ∧
      (s.ctrlSet l test prbs loopMode).flag (R.LINK_CTRL_TEST l) = test := by
  refine ⟨(((LinkOnly.refl s).setFlag (f := R.LINK_CTRL_TEST l) (by simp [R.LINK_CTRL_TEST]) _).setFlag (f := R.LINK_CTRL_PRBS l)
    (by simp [R.LINK_CTRL_PRBS]) _).fset (f := R.LINK_CTRL_LOOP l) (by simp [R.LINK_CTRL_LOOP]) _, ?_⟩
  refine (congrArg (· != 0) (State.fget_fset_disjoint _ _ (.inl (show 7 < 9 by decide)) (show 9 ≤ 11 by decide) (show 7 ≤ 7 by decide))).trans ?_
  refine (State.flag_setFlag_disjoint _ _ (.inl (show 7 < 8 by decide)) (show 8 ≤ 8 by decide) (show 7 ≤ 7 by decide)).trans ?_
  exact State.flag_setFlag_same _ _ (show 7 ≤ 7 by decide) (show 7 < 32 by decide)

theorem State.linkTestSet_spec (s : State) (l : Fin 12) (test prbs : Bool) (loopMode : Nat) :
    let t := s.linkTestSet l test prbs loopMode
    t.flag (R.LINK_CTRL_TEST l) = test ∧ t.mem = s.mem ∧
      (test = true → s.linkState l = lkActive → t.linkState l = lkTest ∧ ∀ j, j < 8 → t.rget (R.LANE_ERR l j) = 0) ∧
      (s.linkState l = lkTest → ∀ j, j < 8 → t.rget (R.LANE_ERR l j) = s.rget (R.LANE_ERR l j)) ∧
      (test = false → s.linkState l = lkTest → s.flag (R.LINK_CTRL_TEST l) = true → t.linkState l = lkTraining) := by
  obtain ⟨hset, hflag⟩ := s.ctrlSet_spec l test prbs loopMode
  intro t
  have ht : t = s.linkTestSet l test prbs loopMode := rfl
  clear_value t
  unfold State.linkTestSet at ht
  extract_lets was r₁ r₂ r₃ at ht
  have h₂ : LinkOnly (fun a => a == R.LINK_CTRL l) l s r₂ := hset
  have hflag : r₂.flag (R.LINK_CTRL_TEST l) = test := hflag
  clear_value r₂
  have h₃ : LinkOnly (fun a => a == R.LINK_CTRL l) l s r₃ ∧ r₃.flag (R.LINK_CTRL_TEST l) = test := by
    unfold r₃
    split
    · have hsend : LinkOnly (fun _ => false) l r₂ (r₂.sendWire l (.linkctl .farEndLoop)) := (LinkOnly.refl r₂).sendWire _
      exact ⟨h₂.sendWire _, (State.flag_congr (hsend.regs _ rfl)).trans hflag⟩
    · exact ⟨h₂, hflag⟩
  clear_value r₃
  obtain ⟨honly, hflag⟩ := h₃
  have hstate : r₃.linkState l = s.linkState l :=
    State.fget_congr (honly.regs _ (beq_false_of_ne (by unfold R.LINK_STATUS_STATE R.LINK_STATUS R.LINK_CTRL; dsimp only; omega)))
  have herr : ∀ j, r₃.rget (R.LANE_ERR l j) = s.rget (R.LANE_ERR l j) := fun j =>
    honly.regs _ (beq_false_of_ne (by unfold R.LANE_ERR R.LINK_CTRL; omega))
  cases test with
  | true =>
    rw [if_pos rfl] at ht
    unfold State.testIfAsked at ht
    rw [hflag, hstate, Bool.true_and] at ht
    by_cases hact : s.linkState l = lkActive
    · obtain ⟨hmem, htest, hzero, hctrl⟩ := r₃.enterTest_spec l
      rw [hact, if_pos (by decide)] at ht
      subst ht
      exact ⟨(State.flag_congr hctrl).trans hflag, hmem.trans honly.mem, fun _ _ => ⟨htest, hzero⟩, fun h => absurd (hact.symm.trans h) (by decide),
        fun h => absurd h (by decide)⟩
    · rw [if_neg (by simpa using hact)] at ht
      subst ht
      exact ⟨hflag, honly.mem, fun _ h => absurd h hact, fun _ j _ => herr j, fun h => absurd h (by decide)⟩
  | false =>
    rw [if_neg Bool.false_ne_true] at ht
    obtain ⟨htrain, htraining⟩ := r₃.train_spec l
    by_cases hgo : (was && r₃.linkState l == lkTest) = true
    · rw [if_pos hgo] at ht
      subst ht
      refine ⟨(State.flag_congr (htrain.regs _ (ctrl_not_train l))).trans hflag, htrain.mem.trans honly.mem, fun h => absurd h (by decide),
        fun _ j hj => (htrain.regs _ ?_).trans (herr j), fun _ _ _ => htraining⟩
      refine Bool.eq_false_iff.2 fun h => ?_
      rcases Bool.or_eq_true_iff.1 h with h | h
      · have := beq_iff_eq.1 h
        unfold R.LANE_ERR R.LINK_STATUS at this
        omega
      · obtain ⟨k, -, hk⟩ := lanesReg_iff.1 h
        unfold R.LANE_ERR R.LANE_STAT at hk
        omega
    · rw [if_neg hgo] at ht
      subst ht
      refine ⟨hflag, honly.mem, fun h => absurd h (by decide), fun _ j _ => herr j, fun _ htest hwas => absurd ?_ hgo⟩
      rw [hstate, htest]
      show (s.flag (R.LINK_CTRL_TEST l) && _) = true
      rw [hwas]
      rfl

end Sys2Proof.Machine
end

section
/-! SUPPORT. What capture, triggers, masks, stops and the end of issue leave alone: the links, the records that wait for flash, and the words
of the fault blocks (05_timing.md R130; 08_acquisition.md R192 to R213; 15_safety_faults.md R372). -/

namespace Sys2Proof.Machine

variable {s₀ s t : State}

/-- An address that lies outside the fault words, which stand at the end of their block. -/
def OffFault (a : Nat) : Prop := a % 0x1000 < 0xf00

theorem OffFault.tile {t o : Nat} (h : o < 0xf00) : OffFault (0x100000 + t * 0x10000 + o) := by unfold OffFault; omega

theorem OffFault.chan {ch o : Nat} (h : o < 0x300) : OffFault (0x500000 + ch * 0x400 + o) := by unfold OffFault; omega

theorem OffFault.seg {t i : Nat} (h : i < 16) : OffFault (R.SEG_STATE t (i / 8)) := by unfold OffFault R.SEG_STATE; omega

theorem OffFault.of_counting {a : Nat} (h : counting a = true) : OffFault a := by
  have := of_decide_eq_true h
  unfold OffFault
  omega

theorem OffFault.of_session {a : Nat} (h : sessReg a = true) : OffFault a := by
  obtain ⟨n, hn, ha⟩ := List.any_eq_true.1 h
  have := List.mem_range.1 hn
  simp only [Bool.or_eq_true, beq_iff_eq, R.SESS_STAT, R.SESS_LOAD] at ha
  unfold OffFault
  omega

/-- The links keep their contexts, no record is staged, and no fault word changes. -/
structure Bystand (s t : State) : Prop where
  links : t.links = s.links
  staged : t.staged = s.staged
  words : ∀ a, ¬ OffFault a → t.rget a = s.rget a

namespace Bystand

theorem refl (s : State) : Bystand s s := ⟨rfl, rfl, fun _ _ => rfl⟩

theorem trans (h : Bystand s₀ s) (k : Bystand s t) : Bystand s₀ t :=
  ⟨k.links.trans h.links, k.staged.trans h.staged, fun a ha => (k.words a ha).trans (h.words a ha)⟩

theorem link (h : Bystand s t) (l : Nat) : t.link l = s.link l := by
  unfold State.link
  rw [h.links]

/-- An update of other fields. -/
theorem upd (h : Bystand s₀ s) (hl : t.links = s.links) (hs : t.staged = s.staged) (hr : t.regs = s.regs) : Bystand s₀ t :=
  h.trans ⟨hl, hs, fun a _ => State.rget_congr hr a⟩

theorem of_regsOnly {p : Nat → Bool} (h : Bystand s₀ s) (k : RegsOnly p s t) (hp : ∀ a, p a = true → OffFault a) : Bystand s₀ t :=
  h.trans ⟨(congrArg State.links k.same :), (congrArg State.staged k.same :),
    fun a ha => k.regs a (Bool.eq_false_iff.2 fun e => ha (hp a e))⟩

theorem of_counts (h : Bystand s₀ s) (k : Counts s t) : Bystand s₀ t :=
  h.trans ⟨(congrArg State.links k.same :), (congrArg State.staged k.same :),
    fun a ha => k.regs a (Bool.eq_false_iff.2 fun e => ha (.of_counting e))⟩

theorem of_reports {p : Nat → Bool} (h : Bystand s₀ s) (k : Reports p s t) (hp : ∀ a, p a = true → OffFault a) : Bystand s₀ t := by
  refine h.trans ⟨(congrArg State.links k.same :), (congrArg State.staged k.same :), fun a ha => k.regs a ?_⟩
  have hpa : p a = false := Bool.eq_false_iff.2 fun e => ha (hp a e)
  have hcnt : counting a = false := Bool.eq_false_iff.2 fun e => ha (.of_counting e)
  have hsess : sessReg a = false := Bool.eq_false_iff.2 fun e => ha (.of_session e)
  simp [hpa, hcnt, hsess]

theorem ite {c : Prop} [Decidable c] {a b : State} (ha : Bystand s a) (hb : Bystand s b) : Bystand s (if c then a else b) := by
  split
  · exact ha
  · exact hb

/-- What is done only on a condition. -/
theorem when {c : Prop} [Decidable c] (h : Bystand s₀ s) (step : Bystand s₀ s → Bystand s₀ t) : Bystand s₀ (if c then t else s) :=
  .ite (step h) h

theorem foldl {α : Type} {l : List α} {f : State → α → State} (h : Bystand s₀ s)
    (step : ∀ {s}, ∀ a ∈ l, Bystand s₀ s → Bystand s₀ (f s a)) : Bystand s₀ (l.foldl f s) :=
  List.foldlRecOn l f h fun _ hb a ha => step a ha hb
theorem rset (h : Bystand s₀ s) {a : Nat} (ha : OffFault a) (v : Word) : Bystand s₀ (s.rset a v) :=
  h.trans ⟨rfl, rfl, fun _ hb => State.rget_rset_other _ _ fun e => hb (e ▸ ha)⟩

theorem fset (h : Bystand s₀ s) {f : Fld} (hf : OffFault f.addr) (v : Nat) : Bystand s₀ (s.fset f v) := h.rset hf _

theorem setFlag (h : Bystand s₀ s) {f : Fld} (hf : OffFault f.addr) (b : Bool) : Bystand s₀ (s.setFlag f b) := h.fset hf _

theorem count (h : Bystand s₀ s) {f : Fld} (hf : OffFault f.addr) (k : Nat) : Bystand s₀ (s.count f k) := h.fset hf _

theorem setPair (h : Bystand s₀ s) {lo hi : Nat} (hl : OffFault lo) (hh : OffFault hi) (v : Nat) : Bystand s₀ (s.setPair lo hi v) :=
  (h.rset hl _).rset hh _

theorem modTile (h : Bystand s₀ s) (n : Nat) (f : TileCtx → TileCtx) : Bystand s₀ (s.modTile n f) := h.upd rfl rfl rfl

theorem modChan (h : Bystand s₀ s) (n : Nat) (f : ChanCtx → ChanCtx) : Bystand s₀ (s.modChan n f) := h.upd rfl rfl rfl

theorem mwrite (h : Bystand s₀ s) (p n o : Nat) (l : List Byte) : Bystand s₀ (s.mwrite p n o l) :=
  h.upd (by simp) (by simp) (by simp)

theorem suspectFlag (h : Bystand s₀ s) (n k : Nat) : Bystand s₀ (s.suspectFlag n k) := h.modTile n _

theorem indChan (h : Bystand s₀ s) (ch : Nat) : Bystand s₀ (s.indChan ch) := by
  unfold State.indChan
  exact h.modTile (ch / 16) _

/-! ## Records (R192 to R201, R211 to R213) -/

theorem recStamp (h : Bystand s₀ s) (n time : Nat) : Bystand s₀ (s.recStamp n time) := by
  unfold State.recStamp
  exact h.modTile n _

theorem ringPut (h : Bystand s₀ s) (n : Nat) (w0 w1 w2 w3 : Word) : Bystand s₀ (s.ringPut n w0 w1 w2 w3) := by
  unfold State.ringPut
  exact (((h.mwrite ..).modTile n _).fset (.tile (by decide)) _).fset (.tile (by decide)) _

theorem putAnchor (h : Bystand s₀ s) (n cyc time : Nat) (step : Bool) : Bystand s₀ (s.putAnchor n cyc time step) := by
  unfold State.putAnchor
  exact ((h.recStamp n time).ringPut n _ _ _ _).modTile n _

theorem putCrevasse (h : Bystand s₀ s) (n : Nat) (g : Gap) : Bystand s₀ (s.putCrevasse n g) := by
  unfold State.putCrevasse
  exact ((((h.recStamp n g.start).ringPut n _ _ _ _).modTile n _).setFlag (.tile (by decide)) _).count (.tile (by decide)) _

theorem lose (h : Bystand s₀ s) (n : Nat) (r : CapRec) (cause : Nat) : Bystand s₀ (s.lose n r cause) := by
  unfold State.lose
  exact (((h.modTile n _).setFlag (.tile (by decide)) _).count (.tile (by decide)) _).suspectFlag n _

theorem putRecord (h : Bystand s₀ s) (n : Nat) (r : CapRec) : Bystand s₀ (s.putRecord n r) := by
  have put {x : State} (k : Bystand s₀ x) (w : Word × Word × Word × Word) :
      Bystand s₀ ((x.recStamp n r.time).ringPut n w.1 w.2.1 w.2.2.1 w.2.2.2) := (k.recStamp n r.time).ringPut n _ _ _ _
  unfold State.putRecord
  refine .ite h (.ite ((h.modTile n _).lose n r 3) ?_)
  dsimp only
  split
  · exact .ite (put ((h.putCrevasse n _).putAnchor n _ _ _) _) (h.lose n r 1)
  · exact .ite (.ite (put (h.putAnchor n _ _ _) _) (h.lose n r 1)) (.ite (put h _) (h.lose n r 1))

theorem beginHold (h : Bystand s₀ s) (n : Nat) (i : Int) : Bystand s₀ (s.beginHold n i) := by
  unfold State.beginHold
  exact h.modTile n _

theorem endFrame (h : Bystand s₀ s) (n : Nat) (i : Int) : Bystand s₀ (s.endFrame n i) := by
  unfold State.endFrame
  extract_lets s₁ s₂ lim
  have h₂ : Bystand s₀ s₂ := ((h.modTile n _).setFlag (.tile (by decide)) _).beginHold n i
  exact .ite (h₂.setFlag (.tile (by decide)) _) h₂

theorem frameRecord (h : Bystand s₀ s) (n : Nat) (f : FrameCtx) (r : CapRec) : Bystand s₀ (s.frameRecord n f r) := by
  unfold State.frameRecord
  have hput := (h.putRecord n r).modTile n fun c => { c with cap := { c.cap with frame := some { f with postLeft := f.postLeft - 1 } } }
  exact .ite (.ite (h.lose n r 2) h) (.ite (.ite h (.ite (hput.endFrame n _) hput)) (.ite ((h.putRecord n r).modTile n _) h))

theorem lateRecord (h : Bystand s₀ s) (n : Nat) (f : FrameCtx) (r : CapRec) : Bystand s₀ (s.lateRecord n f r) :=
  .ite ((h.putRecord n r).modTile n _) h

theorem pendRecord (h : Bystand s₀ s) (n : Nat) (r : CapRec) : Bystand s₀ (s.pendRecord n r) := by
  unfold State.pendRecord
  exact h.modTile n _

theorem stageSlot (h : Bystand s₀ s) (n : Nat) (i : Int) : Bystand s₀ (s.stageSlot n i).1 := by
  unfold State.stageSlot
  dsimp only
  exact h.modTile n _

theorem record (h : Bystand s₀ s) (n : Nat) (r : CapRec) (i : Int) : Bystand s₀ (s.record n r i) := by
  unfold State.record
  refine .ite h ?_
  split
  · exact h
  · next r _ =>
    extract_lets s₁
    have h₁ : Bystand s₀ s₁ := .ite (h.modTile n _) h
    have h₂ := h₁.stageSlot n i
    refine .ite (.ite (h₂.putRecord n r) (.ite h₂ (h₂.lose n r 2))) (.ite h₂ ?_)
    split
    · exact .ite (h₂.frameRecord n _ r) (.ite (h₂.lose n r 2) h₂)
    · exact .ite (.ite (h₂.lateRecord n _ r) (.ite (h₂.lose n r 2) h₂)) (.ite h₂ (.ite (h₂.pendRecord n _) h₂))
    · exact .ite h₂ (h₂.pendRecord n _)

/-! ## Frames and triggers (R203 to R210) -/

theorem headAnchor (h : Bystand s₀ s) (n : Nat) (g : Gap) : Bystand s₀ (s.headAnchor n g) := .ite h (h.putAnchor n _ _ _)

theorem putPre (h : Bystand s₀ s) (n : Nat) (first : Bool) (gap : Option Gap) (l : List CapRec) : Bystand s₀ (s.putPre n first gap l) := by
  induction l generalizing s first gap with
  | nil => exact h
  | cons r l ih =>
    unfold State.putPre
    refine .ite ?_ (ih (h.putRecord n r) _ _)
    split
    · exact ih (((h.headAnchor n _).putCrevasse n _).fset (.tile (by decide)) _) _ _
    · exact ih h _ _

theorem putTrig (h : Bystand s₀ s) (n : Nat) (i : Int) (pre : Nat) : Bystand s₀ (s.putTrig n i pre) := by
  unfold State.putTrig
  split
  · exact h
  · have h₁ := h.stageSlot n i
    exact .ite (h₁.putRecord n _) (.ite h₁ (h₁.lose n _ 2))

theorem frameHead (h : Bystand s₀ s) (n : Nat) (i : Int) (before : List CapRec) : Bystand s₀ (s.frameHead n i before) := by
  unfold State.frameHead
  extract_lets _ s₁ kept blank lost s₂ m s₃ post s₄
  have h₁ : Bystand s₀ s₁ := h.modTile n _
  have h₂ : Bystand s₀ s₂ := h₁.putPre n true _ kept
  have h₃ : Bystand s₀ s₃ := h₂.putTrig n i m
  have h₄ : Bystand s₀ s₄ := h₃.modTile n _
  exact .ite (h₄.endFrame n i) (h₄.setFlag (.tile (by decide)) _)

theorem pulseOut (h : Bystand s₀ s) (n : Nat) (i : Int) : Bystand s₀ (s.pulseOut n i) :=
  h.foldl fun _ _ k => .ite (k.upd rfl rfl rfl) k

theorem maskMeet (h : Bystand s₀ s) (n : Nat) (v : Int) (time : Nat) (last : Int) : Bystand s₀ (s.maskMeet n v time last) := by
  unfold State.maskMeet
  split
  · exact h
  · refine .ite h ?_
    extract_lets s₁ w0 upper lower side s₂ s₃ s₄ s₅
    have h₁ : Bystand s₀ s₁ := h.modTile n _
    have h₂ : Bystand s₀ s₂ := h₁.record n _ _
    have h₃ : Bystand s₀ s₃ := ((h₂.setFlag (.tile (by decide)) _).setFlag (.tile (by decide)) _).fset (.tile (by decide)) _
    have h₄ : Bystand s₀ s₄ := h₃.setFlag (.tile (by decide)) _
    have h₅ : Bystand s₀ s₅ := .ite (.ite (h₄.endFrame n _) h₄) h₃
    exact .ite h₁ (.ite (h₁.count (.tile (by decide)) _) (.ite (h₅.modTile n _) h₅))

theorem maskDecide (h : Bystand s₀ s) (n : Nat) (time : Int) : Bystand s₀ (s.maskDecide n time) :=
  .ite h ((h.modTile n _).foldl fun x _ k => k.maskMeet n x.1 x.2.1 x.2.2)

theorem maskStart (h : Bystand s₀ s) (n kind : Nat) (i : Int) : Bystand s₀ (s.maskStart n kind i) := .ite (h.modTile n _) h

theorem writeFrame (h : Bystand s₀ s) (n : Nat) (i : Int) : Bystand s₀ (s.writeFrame n i) := by
  unfold State.writeFrame
  refine ((h.frameHead n i _).maskStart n 0 i).foldl fun r _ k => ?_
  have k := k.maskDecide n r.time
  refine .ite k ?_
  split
  · exact k.frameRecord n _ r
  · exact .ite k (k.pendRecord n r)

theorem takeTrigger (h : Bystand s₀ s) (n : Nat) (i : Int) : Bystand s₀ (s.takeTrigger n i) := by
  unfold State.takeTrigger
  have hcount := ((h.modTile n fun c => { c with cap := { c.cap with trigs := c.cap.trigs + 1 } }).count
    (f := R.CAP_STATUS_FRAMES n) (.tile (by decide)) 1).pulseOut n i
  exact .ite ((hcount.beginHold n i).maskStart n 0 i) (.ite (((hcount.putTrig n i 0).beginHold n i).maskStart n 0 i) (hcount.writeFrame n i))

theorem trigEvent (h : Bystand s₀ s) (n : Nat) (i : Int) : Bystand s₀ (s.trigEvent n i) := by
  unfold State.trigEvent
  exact .ite h (.ite h (.ite (h.count (.tile (by decide)) _) (.ite (h.takeTrigger n i) ((h.modTile n _).count (.tile (by decide)) _))))

theorem settleTrigs (h : Bystand s₀ s) (n : Nat) (i : Int) : Bystand s₀ (s.settleTrigs n i) :=
  .ite h ((h.modTile n _).foldl fun x _ k => k.trigEvent n x)

theorem putWaves (h : Bystand s₀ s) (n : Nat) (bound i : Int) : Bystand s₀ (s.putWaves n bound i) :=
  .ite h ((h.modTile n _).foldl fun r _ k => k.record n r i)

theorem endCapture (h : Bystand s₀ s) (n : Nat) (i : Int) : Bystand s₀ (s.endCapture n i) := by
  unfold State.endCapture
  extract_lets s₁ s₂ s₃
  have h₁ : Bystand s₀ s₁ := ((h.settleTrigs n _).putWaves n _ i).maskDecide n _
  have h₂ : Bystand s₀ s₂ := .ite (h₁.endFrame n i) h₁
  have h₃ : Bystand s₀ s₃ := h₂.modTile n _
  split
  · exact .ite (h₃.putCrevasse n _) h₃
  · exact h₃

/-! ## Contributions to conditions (03_sequencer.md R70; 12_serial_links.md R304) -/

theorem addCond (h : Bystand s₀ s) (n : Nat) (k : CondKey) (i : Int) : Bystand s₀ (s.addCond n k i) :=
  (h.modTile n _).of_regsOnly (s.addCond_regsOnly n k i) fun a ha => by
    have := of_decide_eq_true ha
    unfold OffFault
    omega

theorem registerEvent (h : Bystand s₀ s) (n : Nat) (k : CondKey) (i : Int) (trig : Bool) : Bystand s₀ (s.registerEvent n k i trig) := by
  unfold State.registerEvent
  exact .ite (((h.addCond n k i).modTile n _).settleTrigs n _) (h.addCond n k i)

theorem linkEvent (h : Bystand s₀ s) (ev : Nat) (i : Int) : Bystand s₀ (s.linkEvent ev i) := by
  unfold State.linkEvent
  exact h.foldl fun u _ k => k.registerEvent u _ _ _

end Bystand

end Sys2Proof.Machine
end

section
/-! SUPPORT. Event messages of links (12_serial_links.md R304). -/

namespace Sys2Proof.Machine

variable {s₀ s t : State}

/-! ## Event messages are sent -/

/-- What sending an event message leaves: memory, the tiles, and every register but the count of lost messages. -/
structure Emits (s t : State) : Prop where
  mem : t.mem = s.mem
  tiles : t.tiles = s.tiles
  regs : RegsSame (fun a => a == R.LINKEV_LOST) s t

namespace Emits

theorem refl (s : State) : Emits s s := ⟨rfl, rfl, fun _ _ => rfl⟩

theorem trans (h : Emits s₀ s) (k : Emits s t) : Emits s₀ t := ⟨k.mem.trans h.mem, k.tiles.trans h.tiles, h.regs.trans k.regs⟩

theorem fget (h : Emits s t) {f : Fld} (hf : f.addr ≠ R.LINKEV_LOST) : t.fget f = s.fget f :=
  State.fget_congr (h.regs _ (beq_false_of_ne hf))

end Emits

theorem State.linkState_congr {l : Nat} (h : t.rget (R.LINK_STATUS l) = s.rget (R.LINK_STATUS l)) : t.linkState l = s.linkState l :=
  State.fget_congr (f := R.LINK_STATUS_STATE l) h

/-- A link takes an event message, holds it or counts it as lost. -/
theorem State.eventOut_spec (s : State) (l ev origin : Nat) :
    Emits s (s.eventOut l ev origin) ∧ (∀ k, k ≠ l → (s.eventOut l ev origin).link k = s.link k) ∧
      (s.linkState l = lkActive → ((s.eventOut l ev origin).link l).events = (s.link l).events ++ [(ev, origin)]) := by
  have hmod (f : LinkCtx → LinkCtx) : Emits s (s.modLink l f) := ⟨rfl, rfl, fun _ _ => rfl⟩
  unfold State.eventOut
  extract_lets st
  by_cases hact : st = lkActive
  · rw [if_pos hact]
    refine ⟨hmod _, fun k hk => s.link_modLink_other hk _, fun _ => ?_⟩
    rw [State.link_modLink_same]
  · rw [if_neg hact]
    split
    · exact ⟨hmod _, fun k hk => s.link_modLink_other hk _, fun h => absurd h hact⟩
    · exact ⟨⟨rfl, rfl, RegsSame.rset s (by decide) _⟩, fun k _ => State.link_fset .., fun h => absurd h hact⟩

/-- An event message is sent on several links, from the chip that `origin` reads. -/
theorem State.eventOuts_spec {ls : List Nat} (hls : ls.Nodup) (hlt : ∀ k ∈ ls, k < 12) (ev : Nat) {origin : State → Nat}
    (horigin : ∀ s t, Emits s t → origin t = origin s) :
    let t := ls.foldl (fun s k => s.eventOut k ev (origin s)) s
    Emits s t ∧ (∀ k, k ∉ ls → t.link k = s.link k) ∧
      (∀ k ∈ ls, s.linkState k = lkActive → (t.link k).events = (s.link k).events ++ [(ev, origin s)]) := by
  induction ls generalizing s with
  | nil => exact ⟨.refl s, fun _ _ => rfl, fun k hk => absurd hk List.not_mem_nil⟩
  | cons l ls ih =>
    obtain ⟨hnew, hrest⟩ := List.nodup_cons.1 hls
    obtain ⟨hfirst, hothers, hown⟩ := s.eventOut_spec l ev (origin s)
    have hstate : ∀ k ∈ ls, (s.eventOut l ev (origin s)).linkState k = s.linkState k := fun k hk =>
      State.linkState_congr (hfirst.regs _ (beq_false_of_ne (by
        have := hlt k (List.mem_cons_of_mem _ hk)
        unfold R.LINK_STATUS R.LINKEV_LOST
        omega)))
    have hsame := horigin _ _ hfirst
    rw [List.foldl_cons]
    generalize s.eventOut l ev (origin s) = r at hfirst hothers hown hstate hsame ⊢
    obtain ⟨hall, hkept, hsent⟩ := ih (s := r) hrest fun k hk => hlt k (List.mem_cons_of_mem _ hk)
    refine ⟨hfirst.trans hall, fun k hk => ?_, fun k hk hact => ?_⟩
    · obtain ⟨hne, hout⟩ := not_or.1 (List.mem_cons.not.1 hk)
      exact (hkept k hout).trans (hothers k hne)
    · rcases List.mem_cons.1 hk with rfl | hin
      · rw [hkept k hnew]
        exact hown hact
      · rw [hsent k hin ((hstate k hin).trans hact), hothers k (fun e => hnew (e ▸ hin)), hsame]

/-! ## Event messages register in tiles -/

/-- An event is registered in tiles, none of which takes it as its trigger. -/
structure Flagged (s t : State) : Prop where
  gathers : Gathers s t
  mem : t.mem = s.mem
  low : ∀ a, a < 0x100000 → t.rget a = s.rget a

namespace Flagged

theorem refl (s : State) : Flagged s s := ⟨.refl s, rfl, fun _ _ => rfl⟩

theorem addCond (h : Flagged s₀ s) (n : Nat) (k : CondKey) (i : Int) : Flagged s₀ (s.addCond n k i) := by
  have honly := s.addCond_regsOnly n k i
  refine ⟨h.gathers.addCond n k i, honly.mem.trans h.mem, fun a ha => (honly.regs a ?_).trans (h.low a ha)⟩
  exact decide_eq_false (by omega)

end Flagged

/-- An event registers in every tile that is not OFF. -/
theorem State.linkEvent_registers (s : State) (ev : Nat) (i : Int) (hsrc : ∀ u, u < 64 → s.fget (R.TRIG_CFG_SRC u) ≠ 4) :
    Flagged s (s.linkEvent ev i) ∧
      ∀ u, u < 64 → s.power u ≠ 3 → (CondKey.linkev ev, s.tileTime u i) ∈ ((s.linkEvent ev i).tile u).conds := by
  have hin : ∀ u ∈ (List.range 64).filter fun t => s.power t != 3, u < 64 := fun u hu => List.mem_range.1 (List.mem_filter.1 hu).1
  have hstep {r : State} (hr : Flagged s r) {u : Nat} (hu : u < 64) :
      r.registerEvent u (.linkev ev) (r.tileTime u i) (r.fget (R.TRIG_CFG_SRC u) == 4 && r.fget (R.TRIG_CFG_ARG u) == ev) =
        r.addCond u (.linkev ev) (s.tileTime u i) := by
    have hno : (r.fget (R.TRIG_CFG_SRC u) == 4) = false := beq_false_of_ne (by rw [hr.gathers.source]; exact hsrc u hu)
    have htime : r.tileTime u i = s.tileTime u i := by rw [State.tileTime, hr.gathers.wraps, State.tileTime]
    rw [hno, htime]
    rfl
  have hall : Flagged s (s.linkEvent ev i) := by
    refine List.foldlRecOn (motive := Flagged s) _ _ (.refl s) fun r hr u hu => ?_
    rw [hstep hr (hin u hu)]
    exact hr.addCond ..
  refine ⟨hall, fun u hu hp => ?_⟩
  refine foldl_establishes (I := Flagged s) (P := fun u r => (CondKey.linkev ev, s.tileTime u i) ∈ (r.tile u).conds) (.refl s)
    (fun r v hv hr => ?_) (fun r v hv hr => ?_) (fun r v _ w hw _ hr hmem => ?_) u (List.mem_filter.2 ⟨List.mem_range.2 hu, by simpa using hp⟩)
  · rw [hstep hr (hin v hv)]
    exact hr.addCond ..
  · rw [hstep hr (hin v hv), State.tile_addCond, if_pos rfl]
    exact List.mem_append_right _ (List.mem_singleton.2 rfl)
  · rw [hstep hr (hin w hw)]
    exact ((Flagged.refl r).addCond ..).gathers.conds v hmem

theorem linkRange_nodup (p : Nat → Bool) : ((List.range 12).filter p).Nodup ∧ ∀ k ∈ (List.range 12).filter p, k < 12 :=
  ⟨List.nodup_range.filter _, fun _ hk => List.mem_range.1 (List.mem_filter.1 hk).1⟩

theorem doEventMessageReceive_registers {l : Fin 12} {copies : List (BitVec 64)} {b : BitVec 64} {arrival : Nat} (hact : s.linkState l = lkActive)
    (hb : copies.find? eventBlock = some b) (hroom : s.fget R.LINKEV_RX_COUNT < 2 ^ 32 - 1) (hsrc : ∀ u, u < 64 → s.fget (R.TRIG_CFG_SRC u) ≠ 4) :
    let t := doEventMessageReceive l copies arrival s
    t.fget R.LINKEV_RX_COUNT = s.fget R.LINKEV_RX_COUNT + 1 ∧ MemSame s t ∧
      ∀ u, u < 64 → s.power u ≠ 3 →
        (CondKey.linkev (b.extractLsb' 8 8).toNat, s.tileTime u (tileEdge ((arrival : Int) * unitFs + 20 * 65536000))) ∈ (t.tile u).conds := by
  have hcount : (s.count R.LINKEV_RX_COUNT).fget R.LINKEV_RX_COUNT = s.fget R.LINKEV_RX_COUNT + 1 :=
    State.fget_count_of_lt (by decide) (by decide) hroom
  have hset : RegsSame (fun a => a == R.LINKEV_RX) s (s.count R.LINKEV_RX_COUNT) := RegsSame.rset s (by decide) _
  have hmem : (s.count R.LINKEV_RX_COUNT).mem = s.mem := rfl
  have htiles : (s.count R.LINKEV_RX_COUNT).tiles = s.tiles := rfl
  dsimp only
  unfold doEventMessageReceive
  rw [hb]
  dsimp only
  rw [hact, if_neg (by decide)]
  generalize s.count R.LINKEV_RX_COUNT = c at hcount hset hmem htiles ⊢
  have hreg {a : Nat} (ha : 0x100000 ≤ a) : c.rget a = s.rget a := hset a (beq_false_of_ne (by unfold R.LINKEV_RX; omega))
  obtain ⟨hflags, hconds⟩ := c.linkEvent_registers (b.extractLsb' 8 8).toNat (tileEdge ((arrival : Int) * unitFs + 20 * 65536000)) fun u hu => by
    rw [State.fget_congr (hreg (by unfold R.TRIG_CFG_SRC R.TRIG_CFG; dsimp only; omega))]
    exact hsrc u hu
  generalize c.linkEvent (b.extractLsb' 8 8).toNat (tileEdge ((arrival : Int) * unitFs + 20 * 65536000)) = r at hflags hconds ⊢
  obtain ⟨hnodup, hlt⟩ := linkRange_nodup fun k => k != l.val && (r.fget R.LINKEV_FWD_LINKS).testBit k
  obtain ⟨hemits, -⟩ := State.eventOuts_spec (s := r) hnodup hlt (b.extractLsb' 8 8).toNat (origin := fun _ => (b.extractLsb' 16 14).toNat)
    fun _ _ _ => rfl
  refine ⟨?_, .of_mem (hemits.mem.trans (hflags.mem.trans hmem)), fun u hu hp => ?_⟩
  · exact ((hemits.fget (by decide)).trans (State.fget_congr (hflags.low _ (by decide)))).trans hcount
  · have hpower : c.power u = s.power u :=
      State.fget_congr (f := R.TILE_PWR_STATE u) (hreg (by unfold R.TILE_PWR_STATE R.TILE_PWR; dsimp only; omega))
    have htime : c.tileTime u (tileEdge ((arrival : Int) * unitFs + 20 * 65536000)) =
        s.tileTime u (tileEdge ((arrival : Int) * unitFs + 20 * 65536000)) := by
      rw [State.tileTime, State.tile_congr htiles u, State.tileTime]
    rw [State.tile_congr hemits.tiles u, ← htime]
    exact hconds u hu (by rw [hpower]; exact hp)

/-- LINKEV_SEND sends on the ACTIVE links that it names, and registers in the chip's own tiles where it says so. -/
theorem State.linkevSend_spec (s : State) (v : Word) :
    let t := s.linkevSend v
    ((∀ u, u < 64 → s.fget (R.TRIG_CFG_SRC u) ≠ 4) → t.mem = s.mem) ∧
      ∀ k, k < 12 → (field v 19 8).testBit k = true → s.linkState k = lkActive →
        (t.link k).events = (s.link k).events ++ [(field v 7 0, s.fget R.CHIP_ID_ID)] := by
  obtain ⟨hnodup, hlt⟩ := linkRange_nodup fun k => (field v 19 8).testBit k
  obtain ⟨hemits, -, hsent⟩ := State.eventOuts_spec (s := s) hnodup hlt (field v 7 0) (origin := fun s => s.fget R.CHIP_ID_ID)
    fun _ _ h => h.fget (by decide)
  dsimp only
  unfold State.linkevSend
  dsimp only
  generalize ((List.range 12).filter fun k => (field v 19 8).testBit k).foldl (fun s k => s.eventOut k (field v 7 0) (s.fget R.CHIP_ID_ID)) s = r
    at hemits hsent ⊢
  have hkept : Bystand r (if v.getLsbD 20 then r.linkEvent (field v 7 0) (tileEdge (r.now + 20 * 65536000)) else r) :=
    .ite ((Bystand.refl r).linkEvent ..) (.refl r)
  refine ⟨fun hsrc => ?_, fun k hk hbit hact => ?_⟩
  · split
    · obtain ⟨hflags, -⟩ := r.linkEvent_registers (field v 7 0) (tileEdge (r.now + 20 * 65536000)) fun u hu => by
        rw [hemits.fget (by unfold R.TRIG_CFG_SRC R.TRIG_CFG R.LINKEV_LOST; dsimp only; omega)]
        exact hsrc u hu
      exact hflags.mem.trans hemits.mem
    · exact hemits.mem
  · rw [hkept.link k]
    exact hsent k (List.mem_filter.2 ⟨List.mem_range.2 hk, hbit⟩) hact

end Sys2Proof.Machine
end

section
/-! SUPPORT. Credits and packets that wait (10_uhleus_protocol.md R246, R250), and the statement about the registers of links. -/

namespace Sys2Proof.Machine

variable {s₀ s t : State}

/-! ## An event to a session that has room for it -/

/-- The event that a session is sent joins the queue, with the credits that wait for the session. -/
theorem State.eventTo_room (s : State) {n : Nat} (hn : n < 32) (hroom : s.fget (R.SESS_LOAD_EVQ n) < 64) (code : Nat) (ps : List Word) :
    let t := s.eventTo n code ps
    (∃ p, t.txq = s.txq ++ [p] ∧ p.kind = 3 ∧ p.session = BitVec.ofNat 5 n ∧ p.params = BitVec.ofNat 32 code :: ps ∧
        p.cells = (s.ctx n).retCells ∧ p.slots = (s.ctx n).retSlots) ∧
      (t.ctx n).retCells = 0 ∧ t.mem = s.mem ∧ t.links = s.links ∧ RegsSame sessReg s t := by
  have hload : sessReg (R.SESS_LOAD_EVQ n).addr = true := List.any_eq_true.2 ⟨n, List.mem_range.2 hn, by simp [R.SESS_LOAD_EVQ]⟩
  have hid : (BitVec.ofNat 5 n).toNat = n := by
    rw [BitVec.toNat_ofNat]
    exact Nat.mod_eq_of_lt hn
  intro t
  have ht : t = s.eventTo n code ps := rfl
  clear_value t
  unfold State.eventTo at ht
  extract_lets r at ht
  have hr : r.regs = s.regs := rfl
  have hc : (r.count (R.SESS_LOAD_EVQ n)).txq = s.txq ∧ (∀ k, (r.count (R.SESS_LOAD_EVQ n)).ctx k = s.ctx k) ∧
      (r.count (R.SESS_LOAD_EVQ n)).mem = s.mem ∧ (r.count (R.SESS_LOAD_EVQ n)).links = s.links := ⟨rfl, fun _ => rfl, rfl, rfl⟩
  have hset : RegsSame sessReg r (r.count (R.SESS_LOAD_EVQ n)) := RegsSame.rset r hload _
  rw [if_pos (by rw [State.fget_congr (State.rget_congr hr _)]; exact hroom)] at ht
  generalize r.count (R.SESS_LOAD_EVQ n) = c at hc hset ht
  obtain ⟨htxq, hctx, hmem, hlinks⟩ := hc
  unfold State.send at ht
  dsimp only at ht
  rw [hid] at ht
  subst ht
  refine ⟨⟨_, by rw [htxq], rfl, rfl, rfl, ?_, ?_⟩, ?_, hmem, hlinks, fun a ha => (hset a ha).trans (State.rget_congr hr a)⟩
  · show 0 + (c.ctx n).retCells = _
    rw [Nat.zero_add, hctx]
  · show 0 + (c.ctx n).retSlots = _
    rw [Nat.zero_add, hctx]
  · show ((c.setCtx n _).ctx n).retCells = 0
    rw [State.ctx_setCtx, if_pos rfl]

theorem doCreditEvent_sends {k : BitVec 5} (hopen : s.sessOpen k.toNat = true) (hcells : (s.ctx k.toNat).retCells ≠ 0)
    (hroom : s.fget (R.SESS_LOAD_EVQ k.toNat) < 64) :
    let t := doCreditEvent k s
    ∃ p, t.txq = s.txq ++ [p] ∧ p.kind = 3 ∧ p.session = k ∧ p.params = [1] ∧ p.cells = (s.ctx k.toNat).retCells ∧
      p.slots = (s.ctx k.toNat).retSlots ∧ (t.ctx k.toNat).retCells = 0 ∧ MemSame s t ∧ RegsSame sessReg s t := by
  obtain ⟨⟨p, htxq, hkind, hsess, hparams, hcell, hslots⟩, hback, hmem, -, hregs⟩ := s.eventTo_room k.isLt hroom 1 []
  have heq : doCreditEvent k s = s.eventTo k.toNat 1 [] := by
    unfold doCreditEvent
    dsimp only
    rw [hopen, Bool.true_and, if_pos]
    rw [bne_iff_ne.2 hcells, Bool.true_or]
  rw [heq]
  exact ⟨p, htxq, hkind, hsess.trans (by rw [BitVec.ofNat_toNat, BitVec.setWidth_eq]), hparams, hcell, hslots, hback, .of_mem hmem, hregs⟩

/-! ## Packets are dropped -/

/-- The registers of sessions, and the count of discarded packets. -/
def dropReg (a : Nat) : Bool := sessReg a || a == R.PROTO_DISCARD

/-- Packets have been dropped: only EVENTS_LOST joins the queue. -/
structure Drops (s t : State) : Prop where
  mem : t.mem = s.mem
  links : t.links = s.links
  regs : RegsSame dropReg s t
  txq : ∃ extra, t.txq = s.txq ++ extra ∧ ∀ p ∈ extra, p.kind = 3 ∧ p.params.headD 0 = 2

namespace Drops

theorem refl (s : State) : Drops s s := ⟨rfl, rfl, fun _ _ => rfl, [], (List.append_nil _).symm, fun _ h => absurd h List.not_mem_nil⟩

theorem trans (h : Drops s₀ s) (k : Drops s t) : Drops s₀ t := by
  obtain ⟨a, ha, hpa⟩ := h.txq
  obtain ⟨b, hb, hpb⟩ := k.txq
  refine ⟨k.mem.trans h.mem, k.links.trans h.links, h.regs.trans k.regs, a ++ b, by rw [hb, ha, List.append_assoc], fun p hp => ?_⟩
  rcases List.mem_append.1 hp with hp | hp
  · exact hpa p hp
  · exact hpb p hp

theorem rset (h : Drops s₀ s) {a : Nat} (ha : dropReg a = true) (v : Word) : Drops s₀ (s.rset a v) :=
  h.trans ⟨rfl, rfl, RegsSame.rset s ha v, [], (List.append_nil _).symm, fun _ h => absurd h List.not_mem_nil⟩

theorem fset (h : Drops s₀ s) {f : Fld} (hf : dropReg f.addr = true) (v : Nat) : Drops s₀ (s.fset f v) := h.rset hf _

theorem count (h : Drops s₀ s) {f : Fld} (hf : dropReg f.addr = true) (k : Nat) : Drops s₀ (s.count f k) := h.rset hf _

theorem discard (h : Drops s₀ s) : Drops s₀ s.discard := h.count (f := R.PROTO_DISCARD_COUNT) (by decide) 1

theorem modCtx (h : Drops s₀ s) (n : Nat) (f : Ctx → Ctx) : Drops s₀ (s.modCtx n f) :=
  h.trans ⟨rfl, rfl, fun _ _ => rfl, [], (List.append_nil _).symm, fun _ h => absurd h List.not_mem_nil⟩

theorem ite {c : Prop} [Decidable c] {a b : State} (ha : Drops s a) (hb : Drops s b) : Drops s (if c then a else b) := by
  split
  · exact ha
  · exact hb

theorem foldl {α : Type} {l : List α} {f : State → α → State} (h : Drops s₀ s) (step : ∀ s, ∀ a ∈ l, Drops s (f s a)) :
    Drops s₀ (l.foldl f s) :=
  List.foldlRecOn l f h fun _ hb a ha => hb.trans (step _ a ha)

theorem eventsLost (h : Drops s₀ s) {n : Nat} (hn : n < 32) : Drops s₀ (s.eventsLost n) := by
  refine h.trans ?_
  unfold State.eventsLost
  extract_lets c
  split
  · exact refl s
  · next hgo =>
    have hmod : Drops s (s.modCtx n fun c => { c with evLost := 0 }) := (refl s).modCtx n _
    have hroom : (s.modCtx n fun c => { c with evLost := 0 }).fget (R.SESS_LOAD_EVQ n) < 64 :=
      Nat.not_le.1 fun hle => hgo (.inr hle)
    generalize s.modCtx n (fun c => { c with evLost := 0 }) = r at hmod hroom ⊢
    obtain ⟨⟨p, htxq, hkind, -, hparams, -, -⟩, -, hmem, hlinks, hregs⟩ := r.eventTo_room hn hroom 2 [BitVec.ofNat 32 c.evLost]
    refine hmod.trans ⟨hmem, hlinks, hregs.mono fun a ha => by rw [dropReg, ha, Bool.true_or], [p], htxq, fun x hx => ?_⟩
    rw [List.mem_singleton.1 hx, hparams]
    exact ⟨hkind, rfl⟩

end Drops

/-! ## Frames are dropped -/

/-- Frames have been dropped: no more frames wait on a link. -/
structure Frees (s t : State) : Prop where
  same : { t with links := s.links } = s
  queue : ∀ k, (t.link k).queue = (s.link k).queue

namespace Frees

theorem refl (s : State) : Frees s s := ⟨rfl, fun _ => rfl⟩

theorem trans (h : Frees s₀ s) (k : Frees s t) : Frees s₀ t :=
  ⟨(congrArg (fun x : State => ({ x with links := s₀.links } : State)) k.same).trans h.same, fun m => (k.queue m).trans (h.queue m)⟩

theorem modLink (h : Frees s₀ s) (n : Nat) {f : LinkCtx → LinkCtx} (hf : ∀ c, (f c).queue = c.queue) : Frees s₀ (s.modLink n f) := by
  refine h.trans ⟨rfl, fun k => ?_⟩
  by_cases hk : k = n
  · rw [hk, State.link_modLink_same, hf]
  · rw [State.link_modLink_other s hk]

theorem foldl {α : Type} {l : List α} {f : State → α → State} (h : Frees s₀ s) (step : ∀ s, ∀ a ∈ l, Frees s (f s a)) :
    Frees s₀ (l.foldl f s) :=
  List.foldlRecOn l f h fun _ hb a ha => hb.trans (step _ a ha)

theorem frameGone (h : Frees s₀ s) (e : OutFrame) : Frees s₀ (s.frameGone e) := by
  unfold State.frameGone
  split
  · exact h
  · split
    · exact h
    · exact h.modLink _ fun _ => rfl

end Frees

/-- No frame waits on a link whose frames have been discarded. -/
theorem State.flushQueue_spec (s : State) (l : Nat) :
    { s.flushQueue l with links := s.links } = s ∧ ((s.flushQueue l).link l).queue = [] := by
  unfold State.flushQueue State.dropFrames
  extract_lets gone named r r'
  have hr : { r with links := s.links } = s := rfl
  have hqueue : (r.link l).queue = [] := by
    have hlink : r.link l = _ := State.link_modLink_same ..
    rw [hlink]
    simp
  clear_value r
  have hr' : Frees r r' := (Frees.refl r).foldl fun s k _ => (Frees.refl s).modLink k fun _ => rfl
  have hall : Frees r ((gone.foldl (fun s e => s.frameGone e) r').modLink l fun c => { c with busy := [] }) :=
    (hr'.foldl fun s e _ => (Frees.refl s).frameGone e).modLink l fun _ => rfl
  exact ⟨(congrArg (fun x : State => ({ x with links := s.links } : State)) hall.same).trans hr, (hall.queue l).trans hqueue⟩

theorem State.sendTimeout_spec (s : State) (l : Nat) :
    ∃ extra, (s.sendTimeout l).txq = s.txq.filter (fun p => s.linkOf p != l) ++ extra ∧ (∀ p ∈ extra, p.kind = 3 ∧ p.params.headD 0 = 2) ∧
      ((s.sendTimeout l).link l).queue = [] ∧ (s.sendTimeout l).mem = s.mem ∧
      RegsSame (fun a => sessReg a || a == R.PROTO_DISCARD) s (s.sendTimeout l) := by
  unfold State.sendTimeout
  extract_lets mine own r r₁ r₂ waits
  have hr : r.txq = s.txq.filter (fun p => s.linkOf p != l) ∧ r.mem = s.mem ∧ r.regs = s.regs := ⟨rfl, rfl, rfl⟩
  clear_value r own
  obtain ⟨htxq, hmem, hregs⟩ := hr
  have h₁ : Drops r r₁ := (Drops.refl r).foldl fun s p _ => by
    extract_lets n q q'
    have hq : Drops s q := (Drops.refl s).discard
    have hq' : Drops s q' := hq.trans (.ite ((Drops.refl q).modCtx n _) (.refl q))
    refine hq'.trans (.ite ((Drops.refl q').fset ?_ _) (.refl q'))
    rw [dropReg, Bool.or_eq_true]
    exact .inl (List.any_eq_true.2 ⟨n, List.mem_range.2 p.session.isLt, by simp [R.SESS_LOAD_EVQ]⟩)
  have h₂ : Drops r r₂ := h₁.foldl fun s p _ => .ite ((Drops.refl s).eventsLost p.session.isLt) (.refl s)
  have h₃ : Drops r (r₂.count R.PROTO_DISCARD_COUNT waits) := h₂.count (by decide) waits
  clear_value r₂
  generalize r₂.count R.PROTO_DISCARD_COUNT waits = q at h₃ ⊢
  obtain ⟨hsame, hqueue⟩ := q.flushQueue_spec l
  obtain ⟨extra, hextra, hlost⟩ := h₃.txq
  generalize q.flushQueue l = t at hsame hqueue ⊢
  have htregs : t.regs = q.regs := (congrArg State.regs hsame :)
  have httxq : t.txq = q.txq := (congrArg State.txq hsame :)
  have htmem : t.mem = q.mem := (congrArg State.mem hsame :)
  refine ⟨extra, by rw [httxq, hextra, htxq], hlost, hqueue, htmem.trans (h₃.mem.trans hmem), fun a ha => ?_⟩
  exact (State.rget_congr htregs a).trans ((h₃.regs a ha).trans (State.rget_congr hregs a))

end Sys2Proof.Machine
end

section
/-! SUPPORT. The statement about the registers of links, its messages and waiting packets, clause by clause. -/

namespace Sys2Proof.Machine

variable {s t : State} {l : Fin 12}

/-- The status of a register write leaves everything else. -/
theorem State.answered_regs (s : State) (st : BitVec 8) : (s.answered st).regs = s.regs := rfl

theorem State.answered_rget (s : State) (st : BitVec 8) (a : Nat) : (s.answered st).rget a = s.rget a := rfl

theorem State.answered_mem (s : State) (st : BitVec 8) : (s.answered st).mem = s.mem := rfl

theorem State.answered_fget (s : State) (st : BitVec 8) (f : Fld) : (s.answered st).fget f = s.fget f :=
  State.fget_congr (s.answered_rget st _)

theorem State.answered_flag (s : State) (st : BitVec 8) (f : Fld) : (s.answered st).flag f = s.flag f :=
  State.flag_congr (s.answered_rget st _)

theorem State.answered_linkState (s : State) (st : BitVec 8) (l : Nat) : (s.answered st).linkState l = s.linkState l :=
  s.answered_fget st _

theorem State.answered_link (s : State) (st : BitVec 8) (l : Nat) : (s.answered st).link l = s.link l := rfl

theorem State.answered_answer (s : State) (st : BitVec 8) : (s.answered st).answer = st.toNat := rfl

/-- EN (Table 12.3). -/
theorem doLinkEnable_spec (s : State) (l : Fin 12) :
    (s.linkState l = lkOff → ∃ t, exec (.linkEnable l true) s = .next t ∧ t.answer = St.ok.toNat ∧ t.linkState l = lkTraining ∧
      t.flag (R.LINK_CTRL_EN l) = true ∧ RegsSame (inBlock (linkBase l)) s t ∧ MemSame s t) ∧
    (∃ t, exec (.linkEnable l false) s = .next t ∧ t.answer = St.ok.toNat ∧ (s.linkState l ≠ lkOff → t.linkState l = lkOff) ∧
      t.flag (R.LINK_CTRL_EN l) = false ∧ MemSame s t) := by
  refine ⟨fun hoff => ?_, ?_⟩
  · obtain ⟨htrains, hen, hregs, hmem⟩ := State.linkEn_up hoff
    exact ⟨_, rfl, rfl, (State.answered_linkState ..).trans htrains, (State.answered_flag ..).trans hen,
      fun a ha => (State.answered_rget ..).trans (hregs a ha), .of_mem ((State.answered_mem ..).trans hmem)⟩
  · obtain ⟨hstate, hen, hmem⟩ := s.linkEn_down l
    exact ⟨_, rfl, rfl, fun h => (State.answered_linkState ..).trans (hstate h), (State.answered_flag ..).trans hen,
      .of_mem ((State.answered_mem ..).trans hmem)⟩

/-- Raw bits leave LINK_CTRL and the state of the link. -/
theorem rawBits_low {bits : List (Fin 8 × List Bool)} {a : Nat} (ha : a < linkBase l + 0x100) : (s.rawBits l bits).rget a = s.rget a :=
  (s.rawBits_only l bits).regs a (by rw [errReg_of_low ha, Bool.and_false])

theorem testRefused_rawBits (s : State) (l : Fin 12) (bits : List (Fin 8 × List Bool)) (test prbs : Bool) (n : Nat) (a : Option Nat) :
    (s.rawBits l bits).testRefused l test prbs n a = s.testRefused l test prbs n a := by
  have hflag : (s.rawBits l bits).flag (R.LINK_CTRL_TEST l) = s.flag (R.LINK_CTRL_TEST l) :=
    State.flag_congr (rawBits_low (by unfold linkBase R.LINK_CTRL_TEST R.LINK_CTRL; dsimp only; omega))
  unfold State.testRefused
  rw [hflag]

theorem doLinkTest_refused {test prbs : Bool} {loop : BitVec 3} {arrival : Option (Fin 12)} {rx : List (Fin 8 × List Bool)} {st : BitVec 8}
    (h : s.testRefused l test prbs loop.toNat (arrival.map (·.val)) = some st) :
    doLinkTest l test prbs loop arrival rx s = (s.rawBits l rx).answered st := by
  unfold doLinkTest
  dsimp only
  rw [testRefused_rawBits, h]

theorem doLinkTest_taken {test prbs : Bool} {loop : BitVec 3} {arrival : Option (Fin 12)} {rx : List (Fin 8 × List Bool)}
    (h : s.testRefused l test prbs loop.toNat (arrival.map (·.val)) = none) :
    doLinkTest l test prbs loop arrival rx s = ((s.rawBits l rx).linkTestSet l test prbs loop.toNat).answered St.ok := by
  unfold doLinkTest
  dsimp only
  rw [testRefused_rawBits, h]

/-- A write of TEST, PRBS and LOOP that is taken, behind the raw bits of the lanes. -/
theorem doLinkTest_spec {test prbs : Bool} {loop : BitVec 3} {arrival : Option (Fin 12)} {rx : List (Fin 8 × List Bool)}
    (h : s.testRefused l test prbs loop.toNat (arrival.map (·.val)) = none) :
    let t := doLinkTest l test prbs loop arrival rx s
    t.answer = St.ok.toNat ∧ t.flag (R.LINK_CTRL_TEST l) = test ∧ MemSame s t ∧
      (test = true → s.linkState l = lkActive → t.linkState l = lkTest ∧ ∀ j, j < 8 → t.rget (R.LANE_ERR l j) = 0) ∧
      (s.linkState l = lkTest → ∀ j, j < 8 → t.rget (R.LANE_ERR l j) = (s.rawBits l rx).rget (R.LANE_ERR l j)) ∧
      (test = false → s.linkState l = lkTest → s.flag (R.LINK_CTRL_TEST l) = true → t.linkState l = lkTraining) := by
  have hmem : (s.rawBits l rx).mem = s.mem := (s.rawBits_only l rx).mem
  have hstate : (s.rawBits l rx).linkState l = s.linkState l := State.fget_congr (rawBits_low (by
    unfold linkBase R.LINK_STATUS_STATE R.LINK_STATUS; dsimp only; omega))
  have htest : (s.rawBits l rx).flag (R.LINK_CTRL_TEST l) = s.flag (R.LINK_CTRL_TEST l) := State.flag_congr (rawBits_low (by
    unfold linkBase R.LINK_CTRL_TEST R.LINK_CTRL; dsimp only; omega))
  dsimp only
  rw [doLinkTest_taken h]
  generalize s.rawBits l rx = r at hmem hstate htest ⊢
  obtain ⟨hflag, htmem, henter, herr, hleave⟩ := r.linkTestSet_spec l test prbs loop.toNat
  generalize r.linkTestSet l test prbs loop.toNat = t at hflag htmem henter herr hleave ⊢
  refine ⟨rfl, (State.answered_flag ..).trans hflag, .of_mem ((State.answered_mem ..).trans (htmem.trans hmem)), fun hset hact => ?_,
    fun hin j hj => (State.answered_rget ..).trans (herr (hstate.trans hin) j hj),
    fun hclear hin hwas => (State.answered_linkState ..).trans (hleave hclear (hstate.trans hin) (htest.trans hwas))⟩
  obtain ⟨hentered, hzero⟩ := henter hset (hstate.trans hact)
  exact ⟨(State.answered_linkState ..).trans hentered, fun j hj => (State.answered_rget ..).trans (hzero j hj)⟩

/-- A retrain that is written. -/
theorem doLinkRetrainRequest_active (hact : s.linkState l = lkActive) (hroom : s.fget (R.LINK_RETRAIN_COUNT l) < 2 ^ 32 - 1) :
    let t := doLinkRetrainRequest l none s
    t.answer = St.ok.toNat ∧ t.linkState l = lkRetrain ∧ t.fget (R.LINK_RETRAIN_COUNT l) = s.fget (R.LINK_RETRAIN_COUNT l) + 1 ∧
      (t.link l).wire = (s.link l).wire ++ [.linkctl .retrain] ∧ RegsSame (inBlock (linkBase l)) s t ∧ MemSame s t := by
  obtain ⟨honly, hretrain, d, -, hlink⟩ := State.enterRetrain_active hact
  refine ⟨rfl, (State.answered_linkState ..).trans hretrain, (State.answered_fget ..).trans (State.enterRetrain_count hact hroom), ?_,
    fun a ha => (State.answered_rget ..).trans (honly.regs.mono (fun _ h => retrain_inBlock h) a ha),
    .of_mem ((State.answered_mem ..).trans honly.mem)⟩
  refine (congrArg LinkCtx.wire (State.answered_link ..)).trans ?_
  rw [hlink]

/-- WMAX that is written. -/
theorem doLinkRetrainRequest_wmax (s : State) (l : Fin 12) (w : BitVec 3) :
    let t := doLinkRetrainRequest l (some w) s
    MemSame s t ∧ (4 < w.toNat → t.answer = St.badParam.toNat ∧ RegsSame (fun _ => false) s t) ∧
      (w.toNat ≤ 4 → t.answer = St.ok.toNat ∧ t.fget (R.LINK_CTRL_WMAX l) = w.toNat ∧
        (s.linkState l = lkActive → s.fget (R.LINK_CTRL_WMAX l) ≠ w.toNat → t.linkState l = lkRetrain)) := by
  dsimp only
  unfold doLinkRetrainRequest
  dsimp only
  by_cases hbad : 4 < w.toNat
  · rw [if_pos hbad]
    exact ⟨.of_mem rfl, fun _ => ⟨rfl, fun a _ => State.answered_rget ..⟩, fun h => absurd hbad (Nat.not_lt.2 h)⟩
  · rw [if_neg hbad]
    obtain ⟨hw, hmem, hstate⟩ := s.linkWmax_spec l (Nat.not_lt.1 hbad)
    exact ⟨.of_mem ((State.answered_mem ..).trans hmem), fun h => absurd h hbad, fun _ => ⟨rfl, (State.answered_fget ..).trans hw,
      fun hact hne => (State.answered_linkState ..).trans (hstate hact hne)⟩⟩

/-- A write to an equalisation register. -/
theorem doLaneEqWrite_spec (s : State) (l : Fin 12) (j : Fin 8) (hi : Bool) (v : Word) :
    let t := doLaneEqWrite l j hi v s
    MemSame s t ∧
      (s.laneEqRefused l j hi v = none → t.answer = St.ok.toNat ∧ t.rget (if hi then R.LANE_EQ_HI l j else R.LANE_EQ_LO l j) = v ∧
        RegsSame (fun a => a == if hi then R.LANE_EQ_HI l j else R.LANE_EQ_LO l j) s t) ∧
      ∀ st, s.laneEqRefused l j hi v = some st → t.answer = st.toNat ∧ RegsSame (fun _ => false) s t := by
  dsimp only
  unfold doLaneEqWrite
  generalize (if hi then R.LANE_EQ_HI l j else R.LANE_EQ_LO l j) = a
  cases href : s.laneEqRefused l j hi v with
  | none =>
    refine ⟨.of_mem rfl, fun _ => ⟨rfl, (State.answered_rget ..).trans (State.rget_rset_same ..), fun x hx => ?_⟩, fun st h => (nomatch h)⟩
    exact (State.answered_rget ..).trans (State.rget_rset_other _ _ (ne_of_beq_false hx))
  | some st =>
    refine ⟨.of_mem rfl, (nomatch ·), fun st' h => ?_⟩
    obtain rfl := Option.some.inj h
    exact ⟨rfl, fun a _ => State.answered_rget ..⟩

/-- The packets of a link that is not trained, or of UPLINK while it names none. -/
theorem doPacketSendTimeout_eq {o : Option (Fin 12)} (h : ∀ k, o = some k → s.linkState k ≠ lkActive ∧ s.linkState k ≠ lkRetrain) :
    doPacketSendTimeout o s = s.sendTimeout (o.elim noUplink (·.val)) := by
  cases o with
  | none => rfl
  | some k =>
    obtain ⟨hact, hretrain⟩ := h k rfl
    refine if_neg ?_
    unfold State.trained
    rw [beq_false_of_ne hact, beq_false_of_ne hretrain]
    exact Bool.false_ne_true

/-- Settles O44, clause by clause. -/
theorem linkRegisters : Obligations.LinkRegisters := by
  unfold Obligations.LinkRegisters
  refine ⟨fun l s => doLinkEnable_spec s l, fun l test prbs loop arrival rx s => ⟨fun st href => ?_, fun href => ?_⟩,
    fun l s hact hroom => ⟨_, rfl, doLinkRetrainRequest_active hact hroom⟩, fun l w s => ⟨_, rfl, doLinkRetrainRequest_wmax s l w⟩,
    fun l m s => ?_, fun l j hi v s => ⟨_, rfl, doLaneEqWrite_spec s l j hi v⟩,
    fun l s => ⟨fun hact => ?_, fun hallow hhost => ?_, fun hno => ?_, fun hloop => ?_, fun n hstate => ?_, fun n => rfl, fun typ htyp => ?_,
      fun typ htyp hroom => ?_⟩,
    fun l first b others arrival skew s hact hb hroom hsrc => ⟨_, rfl, doEventMessageReceive_registers hact hb hroom hsrc⟩,
    fun l first others arrival skew s hnone => ?_, fun v s => ?_,
    fun id s => ?_, fun k s hopen hcells hroom => ?_, fun l s htrained => ?_, fun l s htrained => ?_⟩
  case refine_1 =>
    have honly := s.rawBits_only l rx
    exact ⟨_, congrArg Host.Outcome.next (doLinkTest_refused href), rfl, .of_mem ((State.answered_mem ..).trans honly.mem),
      fun a ha => (State.answered_rget ..).trans (honly.regs a ha)⟩
  case refine_2 =>
    obtain ⟨hans, hflag, hmem, henter, herr, hleave⟩ := doLinkTest_spec (rx := rx) href
    refine ⟨_, rfl, hans, hflag, hmem, henter,
      fun j bits hrx htest hprbs hloop => ⟨fun hmode hlane hroom => ?_, fun hnone hseq => ?_, fun hmode => ?_⟩, hleave⟩
    · refine (State.fget_congr (f := R.LANE_ERR_COUNT l j) (herr htest j j.isLt)).trans ?_
      rw [hrx]
      exact State.rawBits_counts htest hprbs hloop hmode hlane hroom
    · rw [hnone]
      exact prbs_errors hseq
    · refine (State.fget_congr (f := R.LANE_ERR_COUNT l j) (herr htest j j.isLt)).trans ?_
      rw [State.rawBits_loops hloop hmode]
  case refine_3 =>
    obtain ⟨hbits, hregs, hmem⟩ := s.unfenceLanes_spec l m
    exact ⟨_, rfl, rfl, .of_mem ((State.answered_mem ..).trans hmem),
      fun j hj => (congrArg (Nat.testBit · j) (State.answered_fget ..)).trans (hbits j hj), fun a ha => (State.answered_rget ..).trans (hregs a ha)⟩
  case refine_4 =>
    obtain ⟨honly, hretrain⟩ := s.enterRetrain_only l
    exact ⟨_, rfl, hretrain hact, honly.regs.mono fun _ h => retrain_inBlock h, .of_mem honly.mem⟩
  case refine_5 =>
    have honly : LinkOnly (fun _ => false) l s (s.modLink l fun c => { c with loop := true }) := (LinkOnly.refl s).modLink _
    exact ⟨_, congrArg Host.Outcome.next ((doLinkctlReceive_loop s l).1 hallow hhost), by rw [State.link_modLink_same], honly.regs,
      .of_mem honly.mem⟩
  case refine_6 =>
    have honly : LinkOnly (fun _ => false) l s (s.sendWire l (.linkctl .loopRefused)) := (LinkOnly.refl s).sendWire _
    obtain ⟨hwire, hsame⟩ := s.sendWire_sent l (.linkctl .loopRefused)
    exact ⟨_, congrArg Host.Outcome.next ((doLinkctlReceive_loop s l).2 hno), hsame, hwire, honly.regs, .of_mem honly.mem⟩
  case refine_7 =>
    refine ⟨_, congrArg Host.Outcome.next (if_pos hloop), State.flag_setFlag_same _ true (show 3 ≤ 3 by decide) (show 3 < 32 by decide),
      RegsSame.rset s (by simp [R.LINK_STATUS_FELB_REF]) _, .of_mem rfl⟩
  case refine_8 =>
    have honly : LinkOnly (fun _ => false) l s (s.sendWire l (.linkctl (.echo n))) := (LinkOnly.refl s).sendWire _
    exact ⟨_, congrArg Host.Outcome.next (if_pos (by tauto)), (s.sendWire_sent l _).1, honly.regs, .of_mem honly.mem⟩
  case refine_9 => exact congrArg Host.Outcome.next (if_pos (List.contains_iff_mem.2 htyp))
  case refine_10 =>
    refine ⟨_, congrArg Host.Outcome.next (if_neg (mt List.contains_iff_mem.1 htyp)),
      State.fget_count_of_lt (show 0 ≤ 31 by decide) (show 31 < 32 by decide) hroom, RegsSame.rset s (by simp [R.LINK_CRCERR_COUNT]) _, .of_mem rfl⟩
  case refine_11 =>
    refine congrArg Host.Outcome.next ?_
    unfold doEventMessageReceive
    rw [hnone]
  case refine_12 =>
    obtain ⟨hmem, hsent⟩ := s.linkevSend_spec v
    exact ⟨_, rfl, rfl, fun hsrc => .of_mem ((State.answered_mem ..).trans (hmem hsrc)),
      fun k hk hbit hact => (congrArg LinkCtx.events (State.answered_link ..)).trans (hsent k hk hbit hact)⟩
  case refine_13 =>
    have hset : (s.fset R.CHIP_ID_ID id.toNat).fget R.CHIP_ID_ID = id.toNat :=
      (State.fget_fset_same _ _ (by decide) (by decide)).trans (Nat.mod_eq_of_lt id.isLt)
    have hregs : RegsSame (fun a => a == R.CHIP_ID) s (s.fset R.CHIP_ID_ID id.toNat) := RegsSame.rset s (by decide) _
    exact ⟨_, rfl, rfl, (State.answered_fget ..).trans hset, fun a ha => (State.answered_rget ..).trans (hregs a ha), .of_mem rfl⟩
  case refine_14 =>
    obtain ⟨p, hp⟩ := doCreditEvent_sends hopen hcells hroom
    exact ⟨_, p, rfl, hp⟩
  case refine_15 =>
    obtain ⟨extra, htxq, hlost, hqueue, hmem, hregs⟩ := s.sendTimeout_spec (l.elim noUplink (·.val))
    exact ⟨_, extra, congrArg Host.Outcome.next (doPacketSendTimeout_eq htrained), htxq, hlost, hqueue, .of_mem hmem, hregs⟩
  case refine_16 =>
    refine congrArg Host.Outcome.next (if_pos ?_)
    unfold State.trained
    rcases htrained with h | h <;> rw [h] <;> rfl

end Sys2Proof.Machine
end

section
/-! SUPPORT. The end of issue leaves the fault words alone: drops, stop windows, stops and their attributions (05_timing.md R128 to R131;
07_time_measurement.md R172 to R187). -/

namespace Sys2Proof.Machine.Bystand

variable {s₀ s t : State}

/-! ## Events (18_moraine_counters.md R425, R428) -/

theorem bumpSnap (h : Bystand s₀ s) {m : Nat} (hm : m < 64) (k fuel : Nat) : Bystand s₀ (s.bumpSnap m k fuel) := by
  induction fuel generalizing s m k with
  | zero => exact h
  | succ fuel ih =>
    unfold State.bumpSnap
    have hset := h.rset (a := R.PCNT_SNAP m) (by unfold OffFault R.PCNT_SNAP; omega) (BitVec.ofNat 32 ((s.rget (R.PCNT_SNAP m)).toNat + k))
    dsimp only
    split
    · next hc => exact ih hset hc.2.1 _
    · exact hset

theorem lateEv (h : Bystand s₀ s) (n k : Nat) : Bystand s₀ (s.lateEv n k) := by
  unfold State.lateEv
  refine .ite h ?_
  extract_lets s₁
  have h₁ : Bystand s₀ s₁ := h.upd rfl rfl rfl
  refine h₁.foldl fun c hc k => ?_
  exact .when k fun k => k.bumpSnap (State.pcntConfigured_lt hc) _ _

theorem tileEv (h : Bystand s₀ s) (n k : Nat) (i : Int) (m : Nat) : Bystand s₀ (s.tileEv n k i m) := by
  unfold State.tileEv
  exact .ite h ((h.of_counts (State.evCount_counts ..)).lateEv _ _)

/-! ## Drops (05_timing.md R128 to R131) -/

theorem drop (h : Bystand s₀ s) (ch edge cyc : Nat) (cause : DropCause) (window : Bool) : Bystand s₀ (s.drop ch edge cyc cause window) := by
  unfold State.drop
  extract_lets n c s₁ s₂ s₃
  have h₁ : Bystand s₀ s₁ := .ite ((h.rset (.tile (by decide)) _).setPair (.tile (by decide)) (.tile (by decide)) _) h
  have h₂ : Bystand s₀ s₂ := (h₁.count (.tile (by decide)) 1).rset (.tile (by decide)) _
  have h₃ : Bystand s₀ s₃ := h₂.suspectFlag n _
  exact .ite h₃ (h₃.indChan ch)

theorem cycRecords (h : Bystand s₀ s) (n : Nat) (i : Int) : Bystand s₀ (s.cycRecords n i) := by
  unfold State.cycRecords
  exact (h.modTile n _).foldl fun r _ k => .when (.when k fun k => k.record n _ i) fun k => k.record n _ i

theorem dropStrobe (h : Bystand s₀ s) (ch : Nat) (x : Strobe) (edge : Nat) (cause : DropCause) : Bystand s₀ (s.dropStrobe ch x edge cause) := by
  unfold State.dropStrobe
  have hdrop := (h.drop ch edge x.cyc cause (x.expect == .profile || x.expect == .capture)).modChan ch
    fun c => { c with wins := c.wins.filter fun w => !(w.ofStrobe && w.cyc == x.cyc) }
  exact .ite hdrop ((hdrop.modTile (ch / 16) _).cycRecords _ _)

/-! ## Stop windows (07_time_measurement.md R173 to R175) -/

theorem openWindow (h : Bystand s₀ s) (ch : Nat) (w : Win) : Bystand s₀ (s.openWindow ch w) := by
  unfold State.openWindow
  extract_lets rest live third rest' s₁ s₂
  have h₁ : Bystand s₀ s₁ := h.modChan ch _
  have h₂ : Bystand s₀ s₂ := .ite (h₁.count (.chan (by decide)) 1) h₁
  exact .ite (h₂.count (.chan (by decide)) 1) h₂

theorem openDue (h : Bystand s₀ s) (ch : Nat) (i : Int) : Bystand s₀ (s.openDue ch i) := h.foldl fun w _ k => k.openWindow ch w

theorem closeWindows (h : Bystand s₀ s) (ch : Nat) (e : Int) : Bystand s₀ (s.closeWindows ch e) := by
  unfold State.closeWindows
  exact ((h.openDue ch _).modChan ch _).foldl fun _ _ k => k.count (.chan (by decide)) 1

/-! ## Attributions and stops (07_time_measurement.md R172, R176, R181 to R187) -/

theorem histogram (h : Bystand s₀ s) (ch cls : Nat) (x i : Int) : Bystand s₀ (s.histogram ch cls x i) := by
  unfold State.histogram
  extract_lets n lane b off m s₁ s₂
  have h₁ : Bystand s₀ s₁ := .ite ((h.setFlag (.tile (by decide)) _).setFlag (.chan (by decide)) _) (h.mwrite ..)
  have h₂ : Bystand s₀ s₂ := .ite (h₁.setFlag (.tile (by decide)) _) h₁
  exact .ite (h₂.setFlag (.tile (by decide)) _) h₂

theorem derive (h : Bystand s₀ s) (ch : Nat) {a : Nat} (ha : OffFault a) (v : Int) (better : Int → Int → Bool) :
    Bystand s₀ (s.derive ch a v better) := by
  unfold State.derive
  extract_lets v w s₁
  have h₁ : Bystand s₀ s₁ := .ite h (h.setFlag (.chan (by decide)) _)
  exact .ite (h₁.rset ha _) h₁

theorem derived (h : Bystand s₀ s) (ch cls : Nat) (x w : Int) : Bystand s₀ (s.derived ch cls x w) := by
  have pick {o o' : Nat} (ho : o < 0x300) (ho' : o' < 0x300) :
      OffFault (if cls = 0 then 0x500000 + ch * 0x400 + o else 0x500000 + ch * 0x400 + o') := by
    split
    · exact .chan ho
    · exact .chan ho'
  unfold State.derived
  extract_lets less more s₁ s₂ s₃ s₄
  have h₁ : Bystand s₀ s₁ := h.derive ch (pick (by decide) (by decide)) x less
  have h₂ : Bystand s₀ s₂ := h₁.derive ch (pick (by decide) (by decide)) x more
  have h₃ : Bystand s₀ s₃ := .ite (h₂.derive ch (.chan (by decide)) _ less) h₂
  have h₄ : Bystand s₀ s₄ := .ite (h₃.derive ch (.chan (by decide)) _ less) h₃
  exact .ite (h₄.count (.chan (by decide)) 1) h₄

theorem stopStarts (h : Bystand s₀ s) (ch : Nat) (i : Int) : Bystand s₀ (s.stopStarts ch i) :=
  h.foldl fun c _ k => .ite ((k.modChan c _).openDue c _) k

theorem takeStop (h : Bystand s₀ s) (ch : Nat) (falling : Bool) (u : Int) : Bystand s₀ (s.takeStop ch falling u) := by
  unfold State.takeStop
  extract_lets i s₁ c wins dead s₂ s₃
  have h₁ : Bystand s₀ s₁ := h.openDue ch i
  have h₂ : Bystand s₀ s₂ := ((h₁.modChan ch _).count (.chan (by decide)) 1).tileEv _ 3 i 1
  have h₃ : Bystand s₀ s₃ := h₂.foldl fun w _ k =>
    .when (.when (.when (.when (.when k fun k => k.setFlag (.chan (by decide)) _) fun k => k.setFlag (.chan (by decide)) _)
      fun k => k.histogram ch _ _ i) fun k => k.derived ch _ _ _) fun k => k.record _ _ i
  exact .ite h₁ (.ite (h₁.count (.chan (by decide)) 1) (.ite h₁ (h₃.stopStarts ch i)))

theorem takeStops (h : Bystand s₀ s) (n : Nat) (all : Bool) (l : List (Nat × Bool × Int)) : Bystand s₀ (State.takeStops n all l s) := by
  induction l generalizing s with
  | nil => exact h.modTile n _
  | cons x l ih => exact .ite (ih (h.takeStop x.1 x.2.1 x.2.2)) (h.modTile n _)

theorem settleStops (h : Bystand s₀ s) (n : Nat) (all : Bool) : Bystand s₀ (s.settleStops n all) := .ite h (h.takeStops n all _)

theorem stopIssue (h : Bystand s₀ s) (n : Nat) (e : Int) : Bystand s₀ (s.stopIssue n e) := by
  unfold State.stopIssue
  refine ((h.foldl fun ch _ k => ?_).settleStops n true).foldl fun ch _ k => k.closeWindows ch e
  extract_lets l s₁ s₂
  have h₁ : Bystand s₀ s₁ := k.foldl fun x _ k => k.drop ch x.idx x.cyc .hold false
  have h₂ : Bystand s₀ s₂ := h₁.modChan ch _
  refine h₂.foldl fun x _ k => ?_
  split
  · exact (k.modChan ch _).dropStrobe ch x _ .hold
  · exact k

/-! ## The end of a tile's step (01_architecture.md R24; 06_pin_electronics.md R136; 15_safety_faults.md R379) -/

theorem showApg (h : Bystand s₀ s) (n : Nat) (x : Apg) : Bystand s₀ (s.showApg n x) := by
  unfold State.showApg
  exact (((h.fset (.tile (by decide)) _).fset (.tile (by decide)) _).rset (.tile (by decide)) _).setFlag (.tile (by decide)) _

theorem segSync (h : Bystand s₀ s) (n : Nat) : Bystand s₀ (s.segSync n) := by
  refine h.of_reports (s.segSync_reports n) fun a ha => ?_
  simp only [segReg, R.SEG_STATE, R.STRM_STATUS, Bool.or_eq_true, beq_iff_eq] at ha
  unfold OffFault
  omega

theorem segEnd (h : Bystand s₀ s) (n : Nat) : Bystand s₀ (s.segEnd n) := by
  unfold State.segEnd
  refine Bystand.modTile (h.foldl fun i hi k => ?_) n _
  have hoff : OffFault (segFld n i).addr := .seg (List.mem_range.1 hi)
  exact .ite (.ite ((k.fset hoff _).upd rfl rfl rfl) (k.fset hoff _)) k

theorem strmLeave (h : Bystand s₀ s) (n : Nat) : Bystand s₀ (s.strmLeave n) := h.foldl fun _ _ k => k.upd rfl rfl rfl

theorem setKnown (h : Bystand s₀ s) (ch : Nat) (hi lo : Bool) : Bystand s₀ (s.setKnown ch hi lo) := by
  unfold State.setKnown State.syncCmp
  exact ((h.setFlag (.chan (by decide)) _).setFlag (.chan (by decide)) _).fset (.chan (by decide)) _

theorem chSafe (h : Bystand s₀ s) (ch : Nat) : Bystand s₀ (s.chSafe ch) := by
  unfold State.chSafe State.reach State.openGate
  extract_lets s₁ s₂ s₃
  have h₁ : Bystand s₀ s₁ := ((h.modChan ch _).modChan ch _).modChan ch _
  have h₂ : Bystand s₀ s₂ := (((h₁.setFlag (.chan (by decide)) _).setFlag (.chan (by decide)) _).setFlag (.chan (by decide)) _).setKnown ch _ _
  have h₃ : Bystand s₀ s₃ := h₂.setFlag (.chan (by decide)) _
  exact .ite h₃ (h₃.setFlag (.chan (by decide)) _)

theorem endTile (h : Bystand s₀ s) (n : Nat) (st : BitVec 8) (cause : Nat) : Bystand s₀ (s.endTile n st cause) := by
  unfold State.endTile
  extract_lets c e s₁ ind s₂ s₃ s₄ s₅ s₆
  have h₁ : Bystand s₀ s₁ := .when h fun k => (k.stopIssue n e).endCapture n e
  have h₂ : Bystand s₀ s₂ := h₁.foldl fun ch _ k => .when k fun k => k.modChan ch _
  have h₃ : Bystand s₀ s₃ := .when h₂ fun k => k.foldl fun ch _ k => .when k fun k => k.modChan ch _
  have h₄ : Bystand s₀ s₄ := .when h₃ fun k => k.showApg n _
  have h₅ : Bystand s₀ s₅ := ((h₄.segEnd n).strmLeave n).modTile n _
  have h₆ : Bystand s₀ s₆ := (h₅.fset (.tile (by decide)) _).setFlag (.tile (by decide)) _
  exact ((h₆.setFlag (.tile (by decide)) _).fset (.tile (by decide)) _).segSync n

end Sys2Proof.Machine.Bystand
end

section
/-! SUPPORT. A fault in a core ends the step of its tile while another tile of the group runs, with a retest of the core due or not
(01_architecture.md R25, R29; 16_self_repair.md R385). -/

namespace Sys2Proof.Machine

variable {s₀ s t : State}

namespace Bystand

/-- A fault source sees the room and the action that it would have seen before. -/
theorem mild (h : Bystand s t) {b src : Nat} (hb : b % 0x1000 = 0) (hsrc : src < 32) (k : Mild s b src) : Mild t b src :=
  k.congr h.staged (h.words _ (by unfold OffFault R.FLT_REACT; omega))

end Bystand

/-! ## The boundary behind the step -/

/-- No repair waits to be persisted, and no fence to be applied or removed. -/
def State.unfenced (s : State) : Prop := s.soft = [] ∧ s.fenceReq = [] ∧ s.unfenceReq = []

theorem State.unfenced_congr (h : t.awaited = s.awaited) (k : s.unfenced) : t.unfenced := by
  obtain ⟨hsoft, hfence, hunfence⟩ := k
  have hfst : t.soft = s.soft := congrArg (·.1) h
  have hsnd : t.fenceReq = s.fenceReq := congrArg (·.2.1) h
  have htrd : t.unfenceReq = s.unfenceReq := congrArg (·.2.2.1) h
  exact ⟨hfst.trans hsoft, hsnd.trans hfence, htrd.trans hunfence⟩

theorem OffStatus.core {c o : Nat} : OffStatus (0x900000 + c * 0x1000 + o) := fun u hu => by unfold R.SEQ_STATUS; omega

theorem OffFault.core {c o : Nat} (h : o < 0xf00) : OffFault (0x900000 + c * 0x1000 + o) := by unfold OffFault; omega

/-- Only retests begin at the boundary, of channels and of the core. -/
theorem State.boundaryFence_retests (u : Nat) (h : s.unfenced) : PlaysOn s (s.boundaryFence u) ∧ Bystand s (s.boundaryFence u) := by
  obtain ⟨-, hfence, -⟩ := h
  unfold State.boundaryFence
  split
  · exact ⟨.refl s, .refl s⟩
  extract_lets mine s₁ s₂ core
  have h₁ : s₁ = s := by simp [s₁, hfence]
  have h₂ : PlaysOn s s₂ ∧ Bystand s s₂ := by
    rw [← h₁]
    refine List.foldlRecOn (motive := fun r => PlaysOn s₁ r ∧ Bystand s₁ r) _ _ ⟨.refl s₁, .refl s₁⟩ fun r ⟨hp, hb⟩ ch _ => ?_
    have hretest : PlaysOn s₁ (r.retestBegin ch) ∧ Bystand s₁ (r.retestBegin ch) :=
      ⟨(hp.chSafe ch).modChan ch fun _ => by rfl, (hb.chSafe ch).modChan ch _⟩
    extract_lets asked
    split
    · exact hretest
    split
    · split
      · exact hretest
      · exact ⟨hp.modChan ch fun _ => by rfl, hb.modChan ch _⟩
    · exact ⟨hp, hb⟩
  exact ⟨.when h₂.1 fun k => k.setFlag .core true, .when h₂.2 fun k => k.setFlag (.core (by decide)) true⟩

theorem State.boundary_retests {u : Nat} (hend : s.stepState u = stEnded) (h : s.unfenced) :
    PlaysOn s (s.boundary u) ∧ Bystand s (s.boundary u) := by
  have hpersist (p : Option Nat → Bool) : s.persistRepairs p = s := by simp [State.persistRepairs, h.1]
  unfold State.boundary
  dsimp only
  rw [if_pos hend, hpersist]
  exact s.boundaryFence_retests u h

/-! ## The step of the tile -/

/-- The step of a tile ends while another tile of its group runs, in whatever state of a step the tile is. -/
theorem State.endStep_retests {u v : Nat} (hu : u < 64) (hv : v < 64) (hne : v ≠ u) (hbusy : Busy s u) (hother : s.stepState v = stRunning)
    (hgroup : (s.tile v).group = (s.tile u).group) (h : s.unfenced) (st : BitVec 8) {cause : Nat} (hc : cause < 16) :
    Ended u st cause s (s.endStep u st cause) ∧ Bystand s (s.endStep u st cause) := by
  have htile := s.endTile_ended hu st hc
  obtain ⟨hplays, hstand⟩ := State.boundary_retests htile.state (State.unfenced_congr htile.awaited h)
  have hend := htile.of_playsOn hu hplays
  have hstep := hend.other v hv hne
  have hmerge := State.groupCheck_runs hv (hstep.group.trans (hgroup.trans hend.group.symm)) (hstep.stepState.trans hother)
  unfold State.endStep
  rw [if_pos (show inStep (s.stepState u) = true from hbusy)]
  dsimp only
  rw [hmerge]
  exact ⟨hend, ((Bystand.refl s).endTile u st cause).trans hstand⟩

theorem State.coreEnds_ends {c u v : Nat} (hcore : s.tileOfCore c = some u) (hu : u < 64) (hv : v < 64) (hne : v ≠ u) (hbusy : Busy s u)
    (hother : s.stepState v = stRunning) (hgroup : (s.tile v).group = (s.tile u).group) (h : s.unfenced) :
    Ended u St.hwFault 5 s (s.coreEnds c false) ∧ Bystand s (s.coreEnds c false) := by
  have heq : s.coreEnds c false = s.endStep u St.hwFault 5 := by
    unfold State.coreEnds
    rw [hcore]
    rfl
  rw [heq]
  exact State.endStep_retests hu hv hne hbusy hother hgroup h St.hwFault (by decide)

/-! ## What is put on record behind it -/

theorem PlaysOn.of_logs {p : Nat → Bool} (h : PlaysOn s₀ s) (k : Logs p s t) (hp : ∀ u, p (R.SEQ_STATUS u) = false) : PlaysOn s₀ t :=
  h.upd k.tiles k.chans (congrArg State.awaited k.same :) fun u _ =>
    k.rget (hp u) (counting_of_ge (by unfold R.SEQ_STATUS; omega))

theorem raisesReg_status {inj : Bool} {l : List (Nat × Nat)} (hl : ∀ e ∈ l, IsSource e) (u : Nat) :
    raisesReg inj l (R.SEQ_STATUS u) = false := by
  refine Bool.eq_false_iff.2 fun h => ?_
  rcases raisesReg_flt h with ⟨e, he, hflt⟩ | hrec
  · obtain ⟨hb, -⟩ := hl e he
    have := of_decide_eq_true hflt
    unfold R.SEQ_STATUS at this
    omega
  · revert hrec
    simp [recordReg, R.SEQ_STATUS, R.MRN_SEQ, R.MRN_STATUS, R.MRN_OLDEST]
    omega

end Sys2Proof.Machine
end

section
/-! SUPPORT. The sources of a core: the word that playback meets, and what sets in a core with and without a tile (16_self_repair.md R385;
14_memories.md R347; 15_safety_faults.md R366). -/

namespace Sys2Proof.Machine

variable {s₀ s t : State}

/-! ## Uncorrectable errors are noted (14_memories.md R347) -/

/-- What noting an uncorrectable error writes: MEM_ECC_UNC, MEM_ECC_LAST and MEM_ECC_LADDR. -/
def eccReg (a : Nat) : Bool := decide (0xA0004 ≤ a ∧ a < 0xA0010)

theorem eccAlign_of_wide {space : Nat} (h : space ≠ 0x11) (h' : space ≠ 0xF1) (off : Nat) : eccAlign space off = off / 8 * 8 :=
  if_neg fun e => e.elim h h'

theorem State.eccNote_spec (s : State) (w : Nat × Nat) :
    Logs eccReg s (s.eccNote w) ∧ (s.eccNote w).staged = s.staged ∧
      (s.fget R.MEM_ECC_UNC_COUNT < 2 ^ 32 - 1 → (s.eccNote w).fget R.MEM_ECC_UNC_COUNT = s.fget R.MEM_ECC_UNC_COUNT + 1) ∧
      (s.eccNote w).rget R.MEM_ECC_LAST =
        BitVec.ofNat 32 (2 ^ 31 + (if w.1 % 256 < 0x10 then w.1 / 256 % 64 * 256 else 0) + w.1 % 256) ∧
      (s.eccNote w).rget R.MEM_ECC_LADDR = BitVec.ofNat 32 (eccAlign (w.1 % 256) w.2) := by
  unfold State.eccNote
  extract_lets s₁ s₂
  have hcounts := State.evCount_counts (s.count R.MEM_ECC_UNC_COUNT) 65 1 none
  have h₁ : Logs eccReg s s₁ := ((Logs.refl s).fset (f := R.MEM_ECC_UNC_COUNT) (by decide) _).of_counts hcounts
  have hcount (hfew : s.fget R.MEM_ECC_UNC_COUNT < 2 ^ 32 - 1) :
      s₁.fget R.MEM_ECC_UNC_COUNT = s.fget R.MEM_ECC_UNC_COUNT + 1 :=
    (State.fget_congr (f := R.MEM_ECC_UNC_COUNT) (hcounts.regs _ (by decide))).trans (State.fget_count_of_lt (by decide) (by decide) hfew)
  have hstaged : s₁.staged = s.staged := hcounts.staged
  clear_value s₁
  refine ⟨(h₁.rset (by decide) _).rset (by decide) _, hstaged, fun hfew => ?_, ?_, State.rget_rset_same ..⟩
  · refine (State.fget_congr (f := R.MEM_ECC_UNC_COUNT) ?_).trans (hcount hfew)
    exact (State.rget_rset_other _ _ (by decide)).trans (State.rget_rset_other _ _ (by decide))
  · exact (State.rget_rset_other _ _ (by decide)).trans (State.rget_rset_same ..)

/-- The word that a core's source 0 names. -/
def metAt (c : Nat) (x : CoreSource) : Nat × Nat := (c * 256 + x.space % 256, eccAlign (x.space % 256) x.off)

/-- The word that playback has met is shown and kept. -/
def State.metWord (s : State) (c : Nat) (x : CoreSource) : State :=
  if x.src = 0 then
    { s with eccReal := if s.eccReal.contains (metAt c x) then s.eccReal else s.eccReal ++ [metAt c x] }.eccNote (metAt c x)
  else s

/-- The sources of other blocks that set with a core's source. -/
def metWith (x : CoreSource) : List (Nat × Nat) := if x.src = 0 then [(0xA0000, 0)] else []

theorem doCoreFault_source {c : Fin 68} {x : CoreSource} (hf : s.coreFenced c = false) (hm : x.src = 1 → x.merge = false) :
    doCoreFault c x false s = (s.metWord c x).coreSource c x.src false (metWith x) := by
  unfold doCoreFault State.metWord metWith
  rw [if_neg (by simp [hf])]
  by_cases h0 : x.src = 0
  · rw [if_pos h0, if_pos h0, if_pos h0, h0]
    rfl
  · rw [if_neg h0, if_neg h0, if_neg h0, if_neg (fun h => by simp [hm h.1] at h)]

theorem State.metWord_logs (s : State) (c : Nat) (x : CoreSource) :
    ∃ l, Logs eccReg { s with eccReal := l } (s.metWord c x) ∧ (s.metWord c x).staged = s.staged := by
  unfold State.metWord
  split
  · obtain ⟨hlogs, hstaged, -⟩ := State.eccNote_spec
      { s with eccReal := if s.eccReal.contains (metAt c x) then s.eccReal else s.eccReal ++ [metAt c x] } (metAt c x)
    exact ⟨_, hlogs, hstaged⟩
  · exact ⟨s.eccReal, .refl s, rfl⟩

theorem State.metWord_rget (s : State) (c : Nat) (x : CoreSource) {a : Nat} (ha : eccReg a = false) (hc : counting a = false) :
    (s.metWord c x).rget a = s.rget a := by
  obtain ⟨l, hlogs, -⟩ := s.metWord_logs c x
  exact (hlogs.rget ha hc).trans (State.rget_congr (s := s) rfl a)

/-- What a core's source rests on is as before: fences, tiles and retests. -/
theorem State.metWord_coreDue (s : State) (c : Nat) (x : CoreSource) : (s.metWord c x).coreDue = s.coreDue := by
  obtain ⟨l, hlogs, -⟩ := s.metWord_logs c x
  exact (congrArg State.coreDue hlogs.same :)

theorem State.tileOfCore_congr (h : ∀ u, u < 64 → t.rget (R.TILE_MAP u) = s.rget (R.TILE_MAP u)) (c : Nat) : t.tileOfCore c = s.tileOfCore c := by
  refine List.find?_congr fun u hu => ?_
  have hreg := h u (List.mem_range.1 hu)
  rw [State.tileFenced, State.coreOf, State.flag_congr (f := R.TILE_MAP_FENCED u) hreg, State.fget_congr (f := R.TILE_MAP_CORE u) hreg]
  rfl

theorem State.metWord_tileOfCore (s : State) (c : Nat) (x : CoreSource) (d : Nat) : (s.metWord c x).tileOfCore d = s.tileOfCore d :=
  State.tileOfCore_congr (fun u hu => s.metWord_rget c x (decide_eq_false (by unfold R.TILE_MAP; omega))
    (decide_eq_false (by unfold R.TILE_MAP; omega))) d

theorem State.metWord_coreFenced (s : State) (c : Nat) (x : CoreSource) (d : Fin 68) : (s.metWord c x).coreFenced d = s.coreFenced d := by
  have hd := d.isLt
  exact State.flag_congr (f := coreFenceFld d) (s.metWord_rget c x (decide_eq_false (by simp only [coreFenceFld, bitFld, R.FENCE_CORE]; omega))
    (decide_eq_false (by simp only [coreFenceFld, bitFld, R.FENCE_CORE]; omega)))

theorem State.metWord_perm (s : State) (c : Nat) (x : CoreSource) (d : Nat) :
    (s.metWord c x).flag (R.CORE_HEALTH_PERM d) = s.flag (R.CORE_HEALTH_PERM d) :=
  State.flag_congr (f := R.CORE_HEALTH_PERM d) (s.metWord_rget c x (decide_eq_false (by simp only [R.CORE_HEALTH_PERM, R.CORE_HEALTH]; omega))
    (decide_eq_false (by simp only [R.CORE_HEALTH_PERM, R.CORE_HEALTH]; omega)))

theorem State.metWord_bystand (s : State) (c : Nat) (x : CoreSource) : Bystand s (s.metWord c x) := by
  obtain ⟨l, hlogs, hstaged⟩ := s.metWord_logs c x
  refine ⟨(congrArg State.links hlogs.same :), hstaged, fun a ha => s.metWord_rget c x ?_ ?_⟩
  · exact Bool.eq_false_iff.2 fun h => ha (by have := of_decide_eq_true h; unfold OffFault; omega)
  · exact Bool.eq_false_iff.2 fun h => ha (.of_counting h)

theorem State.metWord_playsOn (s : State) (c : Nat) (x : CoreSource) : PlaysOn s (s.metWord c x) := by
  obtain ⟨l, hlogs, -⟩ := s.metWord_logs c x
  exact ((PlaysOn.refl s).upd (t := { s with eccReal := l }) rfl rfl rfl fun _ _ => rfl).of_logs hlogs fun u =>
    decide_eq_false (by unfold R.SEQ_STATUS; omega)

/-! ## The sources of sub-block 0 to 2 (16_self_repair.md R385) -/

theorem coreBase_isSource (c src : Nat) (h : src < 32) : IsSource (coreBase c, src) := ⟨by unfold coreBase; omega, h⟩

/-- A retest of a core is due. -/
def State.dueRetest (s : State) (c : Nat) : State := { s with coreDue := [(c, false)] }

theorem State.coreSource_spare {c src : Nat} {also : List (Nat × Nat)} (hf : s.coreFenced c = false) (hsrc : src < 3)
    (hperm : s.flag (R.CORE_HEALTH_PERM c) = false) (hdue : s.coreDue = []) (hcore : s.tileOfCore c = none) :
    s.coreSource c src false also =
      ((s.dueRetest c).setFlag (R.CORE_HEALTH_RETEST c) true).raises ((coreBase c, src) :: also) := by
  have hcore' : (s.dueRetest c).tileOfCore c = none := hcore
  have hpath : ¬ (src = 1 ∧ s.resultPath c = true) := by simp [State.resultPath, hcore]
  unfold State.coreSource
  rw [if_neg (by simp [hf]), if_neg (by omega)]
  extract_lets path due s₁ s₂ s₃
  have hdue' : due = true := by simp [due, hperm, hdue]
  have h₁ : s₁ = s.dueRetest c := by
    change (if due = true then { s with coreDue := s.coreDue ++ [(c, false)] } else s) = _
    rw [if_pos hdue', hdue]
    rfl
  have h₂ : s₂ = (s.dueRetest c).setFlag (R.CORE_HEALTH_RETEST c) true := by
    change (match s₁.tileOfCore c with
      | some t => (s₁.coreEnds c false).boundary t
      | none => if due = true then s₁.setFlag (R.CORE_HEALTH_RETEST c) true else s₁) = _
    rw [h₁, hcore']
    exact if_pos hdue'
  have h₃ : s₃ = s₂ := if_neg hpath
  rw [h₃, h₂, List.filter_eq_nil_iff.2 fun _ _ h => hpath (of_decide_eq_true h)]
  rfl

/-- The sources that set with a source of a core that has a step. -/
def pathSources (c src : Nat) (also : List (Nat × Nat)) : List (Nat × Nat) :=
  (if src = 1 then [(0x60000, 6)] else []) ++ (coreBase c, src) :: also

theorem State.coreSource_step {c src u : Nat} {also : List (Nat × Nat)} (hf : s.coreFenced c = false) (hsrc : src < 3)
    (hperm : s.flag (R.CORE_HEALTH_PERM c) = false) (hdue : s.coreDue = []) (hcore : s.tileOfCore c = some u) (hbusy : Busy s u) :
    s.coreSource c src false also =
      (let r := ((s.dueRetest c).coreEnds c false).boundary u
       (if src = 1 then r.safetyNote 4 0xFFFF 6 else r).raises (pathSources c src also)) := by
  have hcore' : (s.dueRetest c).tileOfCore c = some u := hcore
  have hpath : s.resultPath c = true := by
    have hstep : inStep (s.stepState u) = true := hbusy
    simp [State.resultPath, hcore, State.faultable, hstep]
  unfold State.coreSource
  rw [if_neg (by simp [hf]), if_neg (by omega)]
  extract_lets path due s₁ s₂ s₃ r
  have hdue' : due = true := by simp [due, hperm, hdue]
  have h₁ : s₁ = s.dueRetest c := by
    change (if due = true then { s with coreDue := s.coreDue ++ [(c, false)] } else s) = _
    rw [if_pos hdue', hdue]
    rfl
  have h₂ : s₂ = r := by
    change (match s₁.tileOfCore c with
      | some t => (s₁.coreEnds c false).boundary t
      | none => if due = true then s₁.setFlag (R.CORE_HEALTH_RETEST c) true else s₁) = _
    rw [h₁, hcore']
  clear_value r
  change State.raises (if src = 1 ∧ s.resultPath c = true then s₂.safetyNote 4 0xFFFF 6 else s₂)
    (([(0x60000, 6)].filter fun _ => decide (src = 1 ∧ s.resultPath c = true)) ++ [(coreBase c, src)] ++ also) false = _
  rw [hpath, h₂]
  unfold pathSources
  by_cases h1 : src = 1
  · rw [if_pos ⟨h1, rfl⟩, if_pos h1, if_pos h1, List.filter_eq_self.2 fun _ _ => by simp [h1]]
    rfl
  · rw [if_neg fun h => h1 h.1, if_neg h1, if_neg h1, List.filter_eq_nil_iff.2 fun _ _ => by simp [h1]]
    rfl

end Sys2Proof.Machine
end

section
/-! SUPPORT. What becomes of a core's sources when the moraine has room and no action resets (16_self_repair.md R385; 15_safety_faults.md R362,
R366). -/

namespace Sys2Proof.Machine

variable {s₀ s t : State}

/-! ## Sources that set together -/

/-- A register outside the fault words, which no record and no counted event shows, is as before when sources set. -/
theorem Logs.keeps {inj : Bool} {l : List (Nat × Nat)} (h : Logs (raisesReg inj l) s t) (hl : ∀ e ∈ l, IsSource e) {a : Nat} (ha : OffFault a)
    (hr : recordReg a = false) (hc : counting a = false) : t.rget a = s.rget a := by
  refine h.rget (Bool.eq_false_iff.2 fun e => ?_) hc
  rcases raisesReg_flt e with ⟨e, he, hflt⟩ | hrec
  · obtain ⟨hb, -⟩ := hl e he
    have := of_decide_eq_true hflt
    unfold OffFault at ha
    omega
  · rw [hr] at hrec
    cases hrec

theorem State.raises_mild {l : List (Nat × Nat)} (hl : ∀ e ∈ l, IsSource e) (hroom : s.staged.length < 120) (hlen : l.length ≤ 8)
    (hm : ∀ e ∈ l, Mild s e.1 e.2) :
    Logs (raisesReg false l) s (s.raises l) ∧ ∀ e ∈ l, ((s.raises l).rget (R.FLT_REAL e.1)).getLsbD e.2 = true :=
  State.raises_spec hl (by omega) fun e he => (hm e he).2

theorem safetyReg_react {e : Nat × Nat} (he : IsSource e) :
    safetyReg (R.FLT_REACT e.1 (e.2 / 8)) = false ∧ counting (R.FLT_REACT e.1 (e.2 / 8)) = false := by
  obtain ⟨hb, hsrc⟩ := he
  have hplace : R.FLT_REACT e.1 (e.2 / 8) % 0x1000 = 0xf10 + e.2 / 8 * 4 := by unfold R.FLT_REACT; omega
  generalize R.FLT_REACT e.1 (e.2 / 8) = a at hplace ⊢
  refine ⟨?_, decide_eq_false (by omega)⟩
  simp [safetyReg, raiseReg, fltReg, recordReg, R.MRN_SEQ, R.MRN_STATUS, R.MRN_OLDEST, R.SF_STATUS, R.SF_LAST]
  omega

theorem Ended.of_logs {u : Nat} (hu : u < 64) {st : BitVec 8} {cause : Nat} {p : Nat → Bool} (h : Ended u st cause s₀ s) (k : Logs p s t)
    (hp : ∀ u, p (R.SEQ_STATUS u) = false) : Ended u st cause s₀ t :=
  h.of_playsOn hu ((PlaysOn.refl s).of_logs k hp)

theorem safetyReg_status (u : Nat) : safetyReg (R.SEQ_STATUS u) = false := safetyReg_ge (by unfold R.SEQ_STATUS; omega)

/-- SF4 is noted for an error on a path that carries results. -/
def State.notePath (s : State) (src : Nat) : State := if src = 1 then s.safetyNote 4 0xFFFF 6 else s

theorem State.notePath_spec (s : State) (src : Nat) :
    Logs safetyReg s (s.notePath src) ∧ (s.notePath src).staged = s.staged ∧
      (src = 1 → ((s.notePath src).rget R.SF_STATUS).getLsbD 3 = true) := by
  unfold State.notePath
  split
  · obtain ⟨hlogs, hstaged, hword⟩ := s.safetyNote_logs 4 0xFFFF 6
    refine ⟨hlogs, hstaged, fun _ => ?_⟩
    rw [hword, getLsbD_or_bit _ _ _ (by decide)]
    simp
  · next h => exact ⟨.refl s, rfl, fun k => absurd k h⟩

theorem pathSources_spec {c src : Nat} {also : List (Nat × Nat)} (hsrc : src < 3) (halso : ∀ e ∈ also, IsSource e ∧ Mild s e.1 e.2)
    (hmild : Mild s (coreBase c) src) (hpath : src = 1 → Mild s 0x60000 6) :
    ∀ e ∈ pathSources c src also, IsSource e ∧ Mild s e.1 e.2 := by
  intro e he
  unfold pathSources at he
  rcases List.mem_append.1 he with he | he
  · split at he
    · next h => exact (List.mem_singleton.1 he) ▸ ⟨⟨by decide, by decide⟩, hpath h⟩
    · cases he
  · rcases List.mem_cons.1 he with he | he
    · exact he ▸ ⟨coreBase_isSource c src (by omega), hmild⟩
    · exact halso e he

/-! ## A core with a step -/

/-- The step of the core's tile ends, and the sources set. -/
theorem State.coreSource_ends {c src u v : Nat} {also : List (Nat × Nat)} (hf : s.coreFenced c = false) (hsrc : src < 3)
    (hperm : s.flag (R.CORE_HEALTH_PERM c) = false) (hdue : s.coreDue = []) (hcore : s.tileOfCore c = some u) (hu : u < 64) (hv : v < 64)
    (hne : v ≠ u) (hbusy : Busy s u) (hother : s.stepState v = stRunning) (hgroup : (s.tile v).group = (s.tile u).group) (h : s.unfenced)
    (halso : ∀ e ∈ also, IsSource e ∧ Mild s e.1 e.2) (hlen : also.length ≤ 4) (hmild : Mild s (coreBase c) src)
    (hpath : src = 1 → Mild s 0x60000 6) :
    ∃ s₁, Ended u St.hwFault 5 s₁ (s.coreSource c src false also) ∧
      (src = 1 → ((s.coreSource c src false also).rget R.SF_STATUS).getLsbD 3 = true ∧
        ((s.coreSource c src false also).rget (R.FLT_REAL 0x60000)).getLsbD 6 = true) := by
  have hsources := pathSources_spec hsrc halso hmild hpath
  have hcount : (pathSources c src also).length ≤ 8 := by
    unfold pathSources
    split <;> simp <;> omega
  rw [State.coreSource_step hf hsrc hperm hdue hcore hbusy]
  dsimp only
  have hd : Bystand s (s.dueRetest c) := (Bystand.refl s).upd rfl rfl rfl
  obtain ⟨hend, hstand⟩ := State.coreEnds_ends (s := s.dueRetest c) (c := c) hcore hu hv hne hbusy hother hgroup h
  have hquiet : (s.dueRetest c).unfenced := h
  refine ⟨s.dueRetest c, ?_⟩
  generalize s.dueRetest c = d at hend hstand hd hquiet
  obtain ⟨hplays, hbound⟩ := State.boundary_retests hend.state (State.unfenced_congr hend.awaited hquiet)
  have hended := hend.of_playsOn hu hplays
  have hall := (hd.trans hstand).trans hbound
  generalize (d.coreEnds c false).boundary u = r at hended hall
  rw [show (if src = 1 then r.safetyNote 4 0xFFFF 6 else r) = r.notePath src from rfl]
  obtain ⟨hnote, hstaged, hsf⟩ := r.notePath_spec src
  have hended := hended.of_logs hu hnote safetyReg_status
  generalize r.notePath src = k at hnote hstaged hsf hended
  have hmilds : ∀ e ∈ pathSources c src also, Mild k e.1 e.2 := fun e he => by
    obtain ⟨hsrc, hm⟩ := hsources e he
    exact (hall.mild hsrc.1 hsrc.2 hm).congr hstaged (hnote.rget (safetyReg_react hsrc).1 (safetyReg_react hsrc).2)
  have hroom : k.staged.length < 120 := by rw [hstaged, hall.staged]; exact hmild.1
  obtain ⟨hlogs, hbits⟩ := State.raises_mild (fun e he => (hsources e he).1) hroom hcount hmilds
  refine ⟨hended.of_logs hu hlogs (raisesReg_status fun e he => (hsources e he).1), fun h1 => ⟨?_, ?_⟩⟩
  · rw [hlogs.keeps (a := R.SF_STATUS) (fun e he => (hsources e he).1) (by unfold OffFault; decide) (by decide) (by decide)]
    exact hsf h1
  · exact hbits (0x60000, 6) (by simp [pathSources, h1])

/-- An uncorrectable error in the site merge of a core with a step. -/
theorem State.mergeError_ends {c u v : Nat} (hf : s.coreFenced c = false) (hcore : s.tileOfCore c = some u) (hu : u < 64) (hv : v < 64)
    (hne : v ≠ u) (hbusy : Busy s u) (hother : s.stepState v = stRunning) (hgroup : (s.tile v).group = (s.tile u).group) (h : s.unfenced)
    (hmild : Mild s 0x60000 6) :
    Ended u St.hwFault 5 s (s.mergeError c false) ∧ ((s.mergeError c false).rget R.SF_STATUS).getLsbD 3 = true ∧
      ((s.mergeError c false).rget (R.FLT_REAL 0x60000)).getLsbD 6 = true := by
  have hpath : s.resultPath c = true := by
    have hstep : inStep (s.stepState u) = true := hbusy
    simp [State.resultPath, hcore, State.faultable, hstep]
  unfold State.mergeError
  rw [if_neg (by simp [hf, hpath])]
  obtain ⟨hend, hstand⟩ := State.coreEnds_ends hcore hu hv hne hbusy hother hgroup h
  generalize s.coreEnds c false = r at hend hstand
  obtain ⟨hroom, hact⟩ := hstand.mild (by decide) (by decide) hmild
  obtain ⟨hlogs, hstatus, hreal⟩ := State.safety_spec (s := r) (f := 4) (unit := 0xFFFF) (src := 6) (by decide) (by decide) (by omega) hact
  exact ⟨hend.of_logs hu hlogs safetyReg_status, hstatus, hreal⟩

/-! ## A core without a tile -/

/-- A retest is due, and the sources set. -/
theorem State.coreSource_due {c src : Nat} {also : List (Nat × Nat)} (hf : s.coreFenced c = false) (hsrc : src < 3)
    (hperm : s.flag (R.CORE_HEALTH_PERM c) = false) (hdue : s.coreDue = []) (hcore : s.tileOfCore c = none)
    (halso : ∀ e ∈ also, IsSource e ∧ Mild s e.1 e.2) (hlen : also.length ≤ 4) (hmild : Mild s (coreBase c) src) :
    let t := s.coreSource c src false also
    t.flag (R.CORE_HEALTH_RETEST c) = true ∧ (c, false) ∈ t.coreDue ∧
      (∀ e ∈ (coreBase c, src) :: also, (t.rget (R.FLT_REAL e.1)).getLsbD e.2 = true) ∧
      t.mem = s.mem ∧
      ∀ a, (∀ e ∈ (coreBase c, src) :: also, fltReg e.1 a = false) → a ≠ R.CORE_HEALTH c → counting a = false → recordReg a = false →
        t.rget a = s.rget a := by
  rw [State.coreSource_spare hf hsrc hperm hdue hcore]
  have hsources : ∀ e ∈ (coreBase c, src) :: also, IsSource e ∧ Mild s e.1 e.2 := fun e he => by
    rcases List.mem_cons.1 he with he | he
    · exact he ▸ ⟨coreBase_isSource c src (by omega), hmild⟩
    · exact halso e he
  have hstand : Bystand s ((s.dueRetest c).setFlag (R.CORE_HEALTH_RETEST c) true) :=
    Bystand.setFlag (f := R.CORE_HEALTH_RETEST c) (.upd (t := s.dueRetest c) (.refl s) rfl rfl rfl) (.core (by decide)) true
  have hflag : ((s.dueRetest c).setFlag (R.CORE_HEALTH_RETEST c) true).flag (R.CORE_HEALTH_RETEST c) = true :=
    State.flag_setFlag_same _ _ (Nat.le_refl 9) (show 9 < 32 by decide)
  have hdue : ((s.dueRetest c).setFlag (R.CORE_HEALTH_RETEST c) true).coreDue = [(c, false)] := rfl
  have hmem : ((s.dueRetest c).setFlag (R.CORE_HEALTH_RETEST c) true).mem = s.mem := rfl
  have hother {a : Nat} (ha : a ≠ R.CORE_HEALTH c) : ((s.dueRetest c).setFlag (R.CORE_HEALTH_RETEST c) true).rget a = s.rget a :=
    ((s.dueRetest c).rget_fset_other _ ha).trans (State.rget_congr (s := s) rfl a)
  generalize (s.dueRetest c).setFlag (R.CORE_HEALTH_RETEST c) true = r at hstand hflag hdue hmem hother ⊢
  have hmilds : ∀ e ∈ (coreBase c, src) :: also, Mild r e.1 e.2 := fun e he => by
    obtain ⟨hsrc, hm⟩ := hsources e he
    exact hstand.mild hsrc.1 hsrc.2 hm
  obtain ⟨hlogs, hbits⟩ := State.raises_mild (fun e he => (hsources e he).1) (hmilds _ List.mem_cons_self).1
    (by rw [List.length_cons]; omega) hmilds
  refine ⟨?_, ?_, hbits, hlogs.mem.trans hmem, fun a hflt ha hc hr => ?_⟩
  · rw [State.flag_congr (f := R.CORE_HEALTH_RETEST c) (hlogs.keeps (fun e he => (hsources e he).1) (.core (by decide)) ?_ ?_), hflag]
    · simp [R.CORE_HEALTH_RETEST, R.CORE_HEALTH, recordReg, R.MRN_SEQ, R.MRN_STATUS, R.MRN_OLDEST]
      omega
    · exact counting_of_ge (by simp only [R.CORE_HEALTH_RETEST, R.CORE_HEALTH]; omega)
  · have : (State.raises r ((coreBase c, src) :: also)).coreDue = r.coreDue := (congrArg State.coreDue hlogs.same :)
    rw [this, hdue]
    exact List.mem_singleton.2 rfl
  · refine (hlogs.rget (Bool.eq_false_iff.2 fun e => ?_) hc).trans (hother ha)
    rcases raisesReg_flt e with ⟨e, he, hf⟩ | hrec
    · rw [hflt e he] at hf
      cases hf
    · rw [hr] at hrec
      cases hrec

end Sys2Proof.Machine
end

section
/-! SUPPORT. CORE_FAULT as it is reported (16_self_repair.md R385; 15_safety_faults.md R366; 14_memories.md R347). -/

namespace Sys2Proof.Machine

variable {s₀ s t : State}

/-- A fenced core's source does nothing. -/
theorem doCoreFault_fenced {c : Fin 68} {x : CoreSource} {inj : Bool} (h : s.coreFenced c = true) : doCoreFault c x inj s = s := if_pos h

theorem doCoreFault_merge {c : Fin 68} {x : CoreSource} {inj : Bool} (hf : s.coreFenced c = false) (hsrc : x.src = 1) (hm : x.merge = true) :
    doCoreFault c x inj s = s.mergeError c inj := by
  unfold doCoreFault
  rw [if_neg (by simp [hf]), if_neg (by simp [hsrc]), if_pos ⟨hsrc, hm⟩]

/-- An error in the site merge of a core that runs no tile touches no results. -/
theorem doCoreFault_merge_none {c : Fin 68} {x : CoreSource} {inj : Bool} (hsrc : x.src = 1) (hm : x.merge = true) (hcore : s.tileOfCore c = none) :
    doCoreFault c x inj s = s := by
  cases hf : s.coreFenced c with
  | true => exact doCoreFault_fenced hf
  | false =>
    rw [doCoreFault_merge hf hsrc hm]
    exact if_pos (by simp [State.resultPath, hcore])

theorem metWith_mild {x : CoreSource} (hmem : x.src = 0 → Mild s 0xA0000 0) : ∀ e ∈ metWith x, IsSource e ∧ Mild s e.1 e.2 := by
  intro e he
  unfold metWith at he
  split at he
  · next h => exact (List.mem_singleton.1 he) ▸ ⟨⟨by decide, by decide⟩, hmem h⟩
  · cases he

theorem metWith_length (x : CoreSource) : (metWith x).length ≤ 4 := by
  unfold metWith
  split <;> decide

/-- The word that playback has met, as registers show it. -/
theorem State.metWord_shows {c : Nat} {x : CoreSource} (h0 : x.src = 0) (hfew : s.fget R.MEM_ECC_UNC_COUNT < 2 ^ 32 - 1)
    (h11 : x.space % 256 ≠ 0x11) (hF1 : x.space % 256 ≠ 0xF1) (hoff : x.off < 2 ^ 32) :
    (s.metWord c x).fget R.MEM_ECC_UNC_COUNT = s.fget R.MEM_ECC_UNC_COUNT + 1 ∧
      ((s.metWord c x).rget R.MEM_ECC_LADDR).toNat = x.off / 8 * 8 := by
  have hspace : (metAt c x).1 % 256 = x.space % 256 := by unfold metAt; omega
  unfold State.metWord
  rw [if_pos h0]
  have hcount : ({ s with eccReal := if s.eccReal.contains (metAt c x) then s.eccReal else s.eccReal ++ [metAt c x] } : State).fget
      R.MEM_ECC_UNC_COUNT = s.fget R.MEM_ECC_UNC_COUNT := rfl
  generalize ({ s with eccReal := if s.eccReal.contains (metAt c x) then s.eccReal else s.eccReal ++ [metAt c x] } : State) = r at hcount ⊢
  obtain ⟨-, -, hunc, -, haddr⟩ := r.eccNote_spec (metAt c x)
  refine ⟨(hunc (hcount ▸ hfew)).trans (congrArg (· + 1) hcount), ?_⟩
  rw [haddr, hspace, metAt, eccAlign_of_wide h11 hF1, eccAlign_of_wide h11 hF1, BitVec.toNat_ofNat, Nat.mod_eq_of_lt (by omega)]
  omega

theorem inBlock_of_fltReg {b a : Nat} (h : fltReg b a = true) : inBlock b a = true := by
  have := of_decide_eq_true h
  exact decide_eq_true (by omega)

/-- What a source of a core that runs no tile changes. -/
def spareFaultReg (c : Fin 68) (x : CoreSource) (a : Nat) : Bool :=
  inBlock (coreBase c) a || (x.src.val == 0 && inBlock 0xA0000 a) || counting a || recordReg a

/-- A source of a core that runs no tile. -/
theorem doCoreFault_spare {c : Fin 68} {x : CoreSource} (hf : s.coreFenced c = false) (hsrc : x.src.val < 3)
    (hperm : s.flag (R.CORE_HEALTH_PERM c) = false) (hdue : s.coreDue = []) (hm : x.src = 1 → x.merge = false)
    (hmild : Mild s (coreBase c) x.src) (hmem : x.src = 0 → Mild s 0xA0000 0) (hcore : s.tileOfCore c = none) :
    let t := doCoreFault c x false s
    t.flag (R.CORE_HEALTH_RETEST c) = true ∧ (c.val, false) ∈ t.coreDue ∧ (t.rget (R.FLT_REAL (coreBase c))).getLsbD x.src = true ∧ MemSame s t ∧
      (x.src = 0 → s.fget R.MEM_ECC_UNC_COUNT < 2 ^ 32 - 1 → x.space % 256 ≠ 0x11 → x.space % 256 ≠ 0xF1 → x.off < 2 ^ 32 →
        t.fget R.MEM_ECC_UNC_COUNT = s.fget R.MEM_ECC_UNC_COUNT + 1 ∧ (t.rget R.MEM_ECC_LADDR).toNat = x.off / 8 * 8 ∧
        (t.rget (R.FLT_REAL 0xA0000)).getLsbD 0 = true) ∧
      RegsSame (spareFaultReg c x) s t := by
  have hstand := s.metWord_bystand c x
  obtain ⟨l, hlogs, -⟩ := s.metWord_logs c x
  have hmet : (s.metWord c x).mem = s.mem := hlogs.mem
  obtain ⟨hflag, hmemb, hbits, hsame, hother⟩ := State.coreSource_due (s := s.metWord c x) (c := c) (src := x.src) (also := metWith x)
    ((s.metWord_coreFenced c x c).trans hf) hsrc ((s.metWord_perm c x c).trans hperm) ((s.metWord_coreDue c x).trans hdue)
    ((s.metWord_tileOfCore c x c).trans hcore)
    (fun e he => by
      obtain ⟨hs, hm⟩ := metWith_mild hmem e he
      exact ⟨hs, hstand.mild hs.1 hs.2 hm⟩)
    (metWith_length x) (hstand.mild (by unfold coreBase; omega) (by omega) hmild)
  rw [doCoreFault_source hf hm]
  have hkeep {a : Nat} (ha : 0xA0004 ≤ a ∧ a < 0xA0010) :
      ((s.metWord c x).coreSource c x.src false (metWith x)).rget a = (s.metWord c x).rget a := by
    refine hother a (fun e he => decide_eq_false ?_) (by unfold R.CORE_HEALTH; omega) (decide_eq_false (by omega)) ?_
    · unfold metWith at he
      split at he
      · rcases List.mem_cons.1 he with he | he
        · rw [he]
          simp only [coreBase]
          omega
        · rw [List.mem_singleton.1 he]
          omega
      · rw [List.mem_singleton.1 he]
        simp only [coreBase]
        omega
    · simp [recordReg, R.MRN_SEQ, R.MRN_STATUS, R.MRN_OLDEST]
      omega
  refine ⟨hflag, hmemb, hbits (coreBase c, x.src) List.mem_cons_self, .of_mem (hsame.trans hmet), fun h0 hfew h11 hF1 hoff => ?_,
    fun a ha => ?_⟩
  · obtain ⟨hcount, haddr⟩ := State.metWord_shows (c := c) h0 hfew h11 hF1 hoff
    refine ⟨(State.fget_congr (f := R.MEM_ECC_UNC_COUNT) (hkeep (by decide))).trans hcount, ?_, hbits (0xA0000, 0) (by simp [metWith, h0])⟩
    rw [hkeep (by decide)]
    exact haddr
  · obtain ⟨⟨⟨hblock, hecc⟩, hcnt⟩, hrec⟩ :
        ((inBlock (coreBase c) a = false ∧ (x.src.val == 0 && inBlock 0xA0000 a) = false) ∧ counting a = false) ∧ recordReg a = false := by
      simpa only [spareFaultReg, Bool.or_eq_false_iff] using ha
    have hmemctl (h0 : x.src = 0) : inBlock 0xA0000 a = false := by simpa [h0] using hecc
    refine (hother a (fun e he => ?_) ?_ hcnt hrec).trans ?_
    · rcases List.mem_cons.1 he with he | he
      · exact he ▸ Bool.eq_false_iff.2 fun h => absurd (inBlock_of_fltReg h) (by simp [hblock])
      · unfold metWith at he
        split at he
        · next h0 => exact (List.mem_singleton.1 he) ▸ Bool.eq_false_iff.2 fun h => absurd (inBlock_of_fltReg h) (by simp [hmemctl h0])
        · cases he
    · intro h
      have := of_decide_eq_false hblock
      unfold coreBase at this
      unfold R.CORE_HEALTH at h
      omega
    · by_cases h0 : x.src = 0
      · refine s.metWord_rget c x (Bool.eq_false_iff.2 fun h => ?_) hcnt
        have := of_decide_eq_true h
        have := of_decide_eq_false (hmemctl h0)
        omega
      · rw [State.metWord, if_neg h0]

/-- A source of a core whose tile is in a step. -/
theorem doCoreFault_step {c : Fin 68} {x : CoreSource} {u v : Fin 64} (hf : s.coreFenced c = false) (hsrc : x.src.val < 3)
    (hperm : s.flag (R.CORE_HEALTH_PERM c) = false) (hdue : s.coreDue = []) (hm : x.src = 1 → x.merge = false)
    (hmild : Mild s (coreBase c) x.src) (hmem : x.src = 0 → Mild s 0xA0000 0) (hpath : x.src = 1 → Mild s 0x60000 6)
    (hcore : s.tileOfCore c = some u.val) (hne : u ≠ v) (hbusy : Busy s u) (hgroup : (s.tile v).group = (s.tile u).group)
    (hother : s.stepState v = stRunning) (h : s.unfenced) :
    let t := doCoreFault c x false s
    t.stepState u = stEnded ∧ (t.tile u).endStatus = St.hwFault ∧ t.fget (R.SEQ_STATUS_CAUSE u) = 5 ∧
      (x.src = 1 → (t.rget R.SF_STATUS).getLsbD 3 = true ∧ (t.rget (R.FLT_REAL 0x60000)).getLsbD 6 = true) := by
  have hstand := s.metWord_bystand c x
  have hplays := s.metWord_playsOn c x
  have hu := hplays.step u u.isLt
  have hv := hplays.step v v.isLt
  have hone : x.src.val = 1 → x.src = 1 := fun h => Fin.ext h
  rw [doCoreFault_source hf hm]
  obtain ⟨r, hend, hsf⟩ := State.coreSource_ends (s := s.metWord c x) (c := c) (src := x.src) (u := u) (v := v) (also := metWith x)
    ((s.metWord_coreFenced c x c).trans hf) hsrc ((s.metWord_perm c x c).trans hperm) ((s.metWord_coreDue c x).trans hdue)
    ((s.metWord_tileOfCore c x c).trans hcore) u.isLt v.isLt (fun k => hne (Fin.ext k.symm))
    (by unfold Busy; rw [hu.stepState]; exact hbusy) (hv.stepState.trans hother) (hv.group.trans (hgroup.trans hu.group.symm))
    (State.unfenced_congr hplays.awaited h)
    (fun e he => by
      obtain ⟨hs, hm⟩ := metWith_mild hmem e he
      exact ⟨hs, hstand.mild hs.1 hs.2 hm⟩)
    (metWith_length x) (hstand.mild (by unfold coreBase; omega) (by omega) hmild)
    (fun h => hstand.mild (by decide) (by decide) (hpath (hone h)))
  exact ⟨hend.state, hend.endStatus, hend.cause, fun h => hsf (congrArg Fin.val h)⟩

end Sys2Proof.Machine
end

section
/-! SUPPORT. Retests of cores and checks of spare cores (16_self_repair.md R386, R387). -/

namespace Sys2Proof.Machine

variable {s₀ s t : State}

/-! ## Spare cores -/

theorem State.flag_fset_other {f g : Fld} (v : Nat) (h : g.addr ≠ f.addr) : (s.fset f v).flag g = s.flag g :=
  State.flag_congr (s.rget_fset_other v h)

/-- The registers that say which cores are spare. -/
def spareReg (a : Nat) : Bool := decide (a = R.SR_STATUS ∨ (0x600c ≤ a ∧ a < 0x6018))

theorem spareFld_spareReg (c : Fin 68) : spareReg (spareFld c).addr = true := by
  have := c.isLt
  refine decide_eq_true (.inr ?_)
  simp only [spareFld, bitFld, R.SR_SPARE0]
  omega

theorem State.setSpare_spec (s : State) (c : Fin 68) (b : Bool) : (s.setSpare c b).isSpare c = b ∧ RegsOnly spareReg s (s.setSpare c b) := by
  have hbit : c.val % 32 < 32 := Nat.mod_lt _ (by decide)
  unfold State.setSpare
  extract_lets s₁
  have hset : s₁.isSpare c = b := s.flag_setFlag_same (f := spareFld c) b (Nat.le_refl _) hbit
  have h₁ : RegsOnly spareReg s s₁ := (RegsOnly.refl s).fset (f := spareFld c) (spareFld_spareReg c) _
  clear_value s₁
  refine ⟨(State.flag_fset_other (g := spareFld c) _ ?_).trans hset, h₁.fset (f := R.SR_STATUS_SPARES) (by decide) _⟩
  simp only [spareFld, bitFld, R.SR_SPARE0, R.SR_STATUS_SPARES, R.SR_STATUS]
  omega

/-- A check of a spare core is on record with the hour of its end. -/
theorem State.spareDue_spareChecked (s : State) (c : Nat) : (s.spareChecked [c]).spareDue c = false := by
  have hget : Store.get (fun _ => 0) (s.spareChecked [c]).spareAt c = (s.rget R.MRN_HOURS).toNat := Store.get_put_same ..
  have hhours : (s.spareChecked [c]).rget R.MRN_HOURS = s.rget R.MRN_HOURS := rfl
  unfold State.spareDue
  rw [hget, hhours]
  exact decide_eq_false (by omega)

theorem State.spareChecked_rget (s : State) (l : List Nat) (a : Nat) : (s.spareChecked l).rget a = s.rget a := rfl

theorem State.spareChecked_mem (s : State) (l : List Nat) : (s.spareChecked l).mem = s.mem := rfl

theorem State.mem_fset (s : State) (f : Fld) (v : Nat) : (s.fset f v).mem = s.mem := rfl

theorem State.staged_fset (s : State) (f : Fld) (v : Nat) : (s.fset f v).staged = s.staged := rfl

theorem State.spareChecked_staged (s : State) (l : List Nat) : (s.spareChecked l).staged = s.staged := rfl

/-- A spare core that fails its check is fenced with cause 2. -/
theorem State.fenceCore_spec (c : Fin 68) {cause : Nat} (hroom : s.staged.length < 128) :
    (s.fenceCore c cause).coreFenced c = true ∧ (s.fenceCore c cause).isSpare c = false ∧
      (s.fenceCore c cause).rget R.FENCE_LAST = BitVec.ofNat 32 (65536 * c + 16 * cause + 4) ∧ (s.fenceCore c cause).mem = s.mem := by
  have hc := c.isLt
  unfold State.fenceCore
  extract_lets s₁
  obtain ⟨hspare, hregs⟩ := (s.setFlag (coreFenceFld c) true).setSpare_spec c false
  have hfence : s₁.coreFenced c = true := by
    refine (State.flag_congr (f := coreFenceFld c) (hregs.regs _ (decide_eq_false ?_))).trans
      (State.flag_setFlag_same _ _ (Nat.le_refl _) (Nat.mod_lt _ (by decide)))
    simp only [coreFenceFld, bitFld, R.FENCE_CORE, R.SR_STATUS]
    omega
  have hmem : s₁.mem = s.mem := hregs.mem
  have hstaged : s₁.staged = s.staged := (congrArg State.staged hregs.same :)
  change s₁.isSpare c = false at hspare
  clear_value s₁
  obtain ⟨r, inj, due, hnotes, -, hlast, -, heq⟩ := State.fenceNote_shows (s := s₁.fset (R.CORE_TILE_TILE c) 0x7F) (kind := 4) (unit := c)
    (cause := cause) (by rw [State.staged_fset, hstaged]; exact hroom)
  have hkeep {a : Nat} (ha : (a == R.FENCE_LAST || a == R.SR_GEN || counting a || sessReg a || recordReg a) = false)
      (hne : a ≠ R.CORE_TILE c) : ({ r with injFence := inj, logDue := due } : State).rget a = s₁.rget a :=
    (hnotes.rget ha).trans (s₁.rget_fset_other _ hne)
  have hoff {a : Nat} (ha : (0x600c ≤ a ∧ a < 0x6018) ∨ (0x60188 ≤ a ∧ a < 0x60194)) :
      (a == R.FENCE_LAST || a == R.SR_GEN || counting a || sessReg a || recordReg a) = false ∧ a ≠ R.CORE_TILE c := by
    have hsess : sessReg a = false := Bool.eq_false_iff.2 fun h => by
      obtain ⟨n, hn, h⟩ := List.any_eq_true.1 h
      have := List.mem_range.1 hn
      simp only [Bool.or_eq_true, beq_iff_eq, R.SESS_STAT, R.SESS_LOAD] at h
      omega
    have hcnt : counting a = false := decide_eq_false (by omega)
    refine ⟨?_, by unfold R.CORE_TILE; omega⟩
    simp [hsess, hcnt, recordReg, R.FENCE_LAST, R.SR_GEN, R.MRN_SEQ, R.MRN_STATUS, R.MRN_OLDEST]
    omega
  rw [heq]
  refine ⟨?_, ?_, ?_, ?_⟩
  · have hplace := hoff (a := (coreFenceFld c).addr) (.inr (by simp only [coreFenceFld, bitFld, R.FENCE_CORE]; omega))
    exact (State.flag_congr (f := coreFenceFld c) (hkeep hplace.1 hplace.2)).trans hfence
  · have hplace := hoff (a := (spareFld c).addr) (.inl (by simp only [spareFld, bitFld, R.SR_SPARE0]; omega))
    exact (State.flag_congr (f := spareFld c) (hkeep hplace.1 hplace.2)).trans hspare
  · rw [Nat.mod_eq_of_lt (show c.val < 1024 by omega)] at hlast
    exact hlast
  · exact (hnotes.mem.trans (State.mem_fset ..)).trans hmem

theorem doSpareCoreCheck_skips {c : Fin 68} {b : Bool} (h : s.isSpare c = false ∨ s.stage1 = true ∨ s.spareDue c = false) :
    doSpareCoreCheck c b s = s :=
  if_pos (by rcases h with h | h | h <;> simp [h])

theorem doSpareCoreCheck_runs {c : Fin 68} {b : Bool} (hspare : s.isSpare c = true) (hstage : s.stage1 = false) (hdue : s.spareDue c = true) :
    doSpareCoreCheck c b s = if b then s.spareChecked [c.val] else (s.spareChecked [c.val]).fenceCore c 2 :=
  if_neg (by simp [hspare, hstage, hdue])

/-! ## The end of a retest -/

/-- No retest of a core is due any more. -/
def State.dropDue (s : State) (c : Nat) : State := { s with coreDue := s.coreDue.filter fun e => e.1 != c }

/-- CORE_HEALTH shows that a retest has passed. -/
def State.showPassed (s : State) (c : Nat) : State := (s.setFlag (R.CORE_HEALTH_RETEST c) false).fset (R.CORE_HEALTH_RESULT c) 1

theorem State.rget_dropDue (s : State) (c a : Nat) : (s.dropDue c).rget a = s.rget a := rfl

theorem State.rget_showPassed (s : State) (c : Nat) {a : Nat} (ha : a ≠ R.CORE_HEALTH c) : (s.showPassed c).rget a = s.rget a :=
  (State.rget_fset_other (f := R.CORE_HEALTH_RESULT c) _ _ ha).trans (s.rget_fset_other (f := R.CORE_HEALTH_RETEST c) _ ha)

theorem State.flag_showPassed (s : State) (c : Nat) : (s.showPassed c).flag (R.CORE_HEALTH_RETEST c) = false :=
  (congrArg (· != 0) (State.fget_fset_disjoint _ _ (.inl (show 9 < 10 by decide)) (show 10 ≤ 11 by decide) (Nat.le_refl 9))).trans
    (State.flag_setFlag_same _ _ (Nat.le_refl 9) (show 9 < 32 by decide))

theorem State.result_showPassed (s : State) (c : Nat) : (s.showPassed c).fget (R.CORE_HEALTH_RESULT c) = 1 :=
  State.fget_fset_same _ _ (show 10 ≤ 11 by decide) (show 11 < 32 by decide)

/-- A core's retest has passed: CORE_HEALTH shows it, the event reports it, and the pass counts. -/
def State.coreRetested (s : State) (c : Nat) : State :=
  let r := ((s.showPassed c).dropDue c).retestEvent 4 c false
  let past : List Nat := Store.get (fun _ => []) r.corePass c
  { r with corePass := Store.put (fun _ => []) r.corePass c (past ++ [(r.rget R.MRN_HOURS).toNat]) }.syncTrans c

/-- What a core's retest that ends leaves. -/
structure Retested (c : Nat) (s t : State) : Prop where
  flag : t.flag (R.CORE_HEALTH_RETEST c) = false
  result : t.fget (R.CORE_HEALTH_RESULT c) = 1
  coreDue : t.coreDue = s.coreDue.filter fun e => e.1 != c
  mem : t.mem = s.mem
  tiles : t.tiles = s.tiles
  unfenceReq : t.unfenceReq = s.unfenceReq
  regs : ∀ a, a ≠ R.CORE_HEALTH c → counting a = false → sessReg a = false → t.rget a = s.rget a

theorem State.coreRetested_spec (s : State) (c : Nat) : Retested c s (s.coreRetested c) := by
  have hplace : R.CORE_HEALTH c ≥ 0x100000 := by unfold R.CORE_HEALTH; omega
  unfold State.coreRetested State.syncTrans
  extract_lets r past
  have hevent : Reports (fun _ => false) ((s.showPassed c).dropDue c) r := State.retestEvent_reports ..
  have hhealth : r.rget (R.CORE_HEALTH c) = (s.showPassed c).rget (R.CORE_HEALTH c) :=
    (hevent.rget hplace rfl).trans (State.rget_dropDue ..)
  have hflag : r.flag (R.CORE_HEALTH_RETEST c) = false :=
    (State.flag_congr (f := R.CORE_HEALTH_RETEST c) hhealth).trans (s.flag_showPassed c)
  have hresult : r.fget (R.CORE_HEALTH_RESULT c) = 1 :=
    (State.fget_congr (f := R.CORE_HEALTH_RESULT c) hhealth).trans (s.result_showPassed c)
  have hdue : r.coreDue = s.coreDue.filter fun e => e.1 != c := (congrArg State.coreDue hevent.same :)
  have hunfence : r.unfenceReq = s.unfenceReq := (congrArg State.unfenceReq hevent.same :)
  have hother {a : Nat} (ha : a ≠ R.CORE_HEALTH c) (hc : counting a = false) (hs : sessReg a = false) : r.rget a = s.rget a := by
    exact (hevent.regs a (by simp [hc, hs])).trans ((State.rget_dropDue ..).trans (s.rget_showPassed c ha))
  have hmem : r.mem = s.mem := hevent.mem
  have htiles : r.tiles = s.tiles := hevent.tiles
  clear_value r
  refine ⟨?_, ?_, hdue, hmem, htiles, hunfence, fun a ha hc hs => (State.rget_fset_other _ _ ha).trans (hother ha hc hs)⟩
  · exact (congrArg (· != 0) (State.fget_fset_disjoint _ _ (.inr (show 7 < 9 by decide)) (Nat.zero_le 7) (Nat.le_refl 9))).trans hflag
  · exact (State.fget_fset_disjoint _ _ (.inr (show 7 < 10 by decide)) (Nat.zero_le 7) (show 10 ≤ 11 by decide)).trans hresult

end Sys2Proof.Machine
end

section
/-! SUPPORT. A core whose retest has passed goes back to its tile, or becomes spare (16_self_repair.md R386, R387). -/

namespace Sys2Proof.Machine

variable {s₀ s t : State}

/-! ## What the crossbar says of a core -/

theorem tileMap_plain {u : Nat} (h : u < 64) : counting (R.TILE_MAP u) = false ∧ sessReg (R.TILE_MAP u) = false := by
  refine ⟨decide_eq_false (by unfold R.TILE_MAP; omega), Bool.eq_false_iff.2 fun k => ?_⟩
  obtain ⟨n, hn, k⟩ := List.any_eq_true.1 k
  have := List.mem_range.1 hn
  simp only [Bool.or_eq_true, beq_iff_eq, R.SESS_STAT, R.SESS_LOAD, R.TILE_MAP] at k
  omega

namespace Retested

variable {c : Nat}

theorem tileMap (h : Retested c s t) {u : Nat} (hu : u < 64) : t.rget (R.TILE_MAP u) = s.rget (R.TILE_MAP u) := by
  obtain ⟨hcnt, hsess⟩ := tileMap_plain hu
  exact h.regs _ (by unfold R.TILE_MAP R.CORE_HEALTH; omega) hcnt hsess

theorem tileOfCore (h : Retested c s t) (d : Nat) : t.tileOfCore d = s.tileOfCore d := State.tileOfCore_congr (fun _ hu => h.tileMap hu) d

theorem connected (h : Retested c s t) (d : Nat) : t.connected d = s.connected d := by
  unfold State.connected
  refine Bool.eq_iff_iff.2 ?_
  have hcore {u : Nat} (hu : u ∈ List.range 64) : t.coreOf u = s.coreOf u :=
    State.fget_congr (f := R.TILE_MAP_CORE u) (h.tileMap (List.mem_range.1 hu))
  simp only [List.any_eq_true]
  exact ⟨fun ⟨u, hu, e⟩ => ⟨u, hu, hcore hu ▸ e⟩, fun ⟨u, hu, e⟩ => ⟨u, hu, (hcore hu).symm ▸ e⟩⟩

theorem reservedBy (h : Retested c s t) (d : Nat) : t.reservedBy d = s.reservedBy d := by
  refine List.find?_congr fun u hu => ?_
  rw [State.tile_congr h.tiles u, State.fget_congr (f := R.TILE_MAP_TARGET u) (h.tileMap (List.mem_range.1 hu))]

theorem unfencing (h : Retested c s t) (d : Nat) : t.unfencing d = s.unfencing d := by
  refine List.find?_congr fun u hu => ?_
  rw [h.unfenceReq, State.coreOf, State.fget_congr (f := R.TILE_MAP_CORE u) (h.tileMap (List.mem_range.1 hu))]
  rfl

theorem coreFenced (h : Retested c s t) (d : Fin 68) : t.coreFenced d = s.coreFenced d := by
  have hd := d.isLt
  have hplace : 0x60188 ≤ (coreFenceFld d).addr ∧ (coreFenceFld d).addr < 0x60194 := by
    simp only [coreFenceFld, bitFld, R.FENCE_CORE]
    omega
  refine State.flag_congr (f := coreFenceFld d) (h.regs _ (by unfold R.CORE_HEALTH; omega) (decide_eq_false (by omega)) ?_)
  refine Bool.eq_false_iff.2 fun k => ?_
  obtain ⟨n, hn, k⟩ := List.any_eq_true.1 k
  have := List.mem_range.1 hn
  simp only [Bool.or_eq_true, beq_iff_eq, R.SESS_STAT, R.SESS_LOAD] at k
  omega

theorem busy (h : Retested c s t) {u : Nat} (hu : u < 64) (k : Busy s u) : Busy t u := by
  have hstatus : t.stepState u = s.stepState u :=
    State.fget_congr (f := R.SEQ_STATUS_STATE u) (h.regs _ (by simp only [R.SEQ_STATUS_STATE, R.SEQ_STATUS, R.CORE_HEALTH]; omega)
      (counting_of_ge (by simp only [R.SEQ_STATUS_STATE, R.SEQ_STATUS]; omega))
      (sessReg_of_ge (by simp only [R.SEQ_STATUS_STATE, R.SEQ_STATUS]; omega)))
  unfold Busy
  rw [hstatus]
  exact k

end Retested

theorem State.tileOfCore_lt {c u : Nat} (h : s.tileOfCore c = some u) : u < 64 := List.mem_range.1 (List.mem_of_find?_eq_some h)

/-! ## CORE_RETEST_DONE -/

theorem State.spareChecked_coreDue (s : State) (l : List Nat) : (s.spareChecked l).coreDue = s.coreDue := rfl

/-- A core that no tile needs becomes spare. -/
def State.releaseCore (s : State) (c : Nat) : State :=
  match s.tileOfCore c with
  | some t => s.boundary t
  | none => if s.coreFenced c || s.isSpare c || s.connected c || (s.reservedBy c).isSome then s else (s.setSpare c true).spareChecked [c]

/-- Whether or not the core becomes spare, CORE_HEALTH shows the retest. -/
theorem State.releaseCore_spec (c : Fin 68) (hbusy : ∀ u, s.tileOfCore c = some u → Busy s u) :
    (s.releaseCore c).rget (R.CORE_HEALTH c) = s.rget (R.CORE_HEALTH c) ∧ (s.releaseCore c).coreDue = s.coreDue ∧ (s.releaseCore c).mem = s.mem ∧
      (s.tileOfCore c = none → s.coreFenced c = false →
        (s.releaseCore c).isSpare c = true ∨ (s.reservedBy c).isSome = true ∨ s.connected c = true) := by
  unfold State.releaseCore
  cases hcore : s.tileOfCore c with
  | some u =>
    dsimp only
    rw [State.boundary_of_inStep (hbusy u hcore)]
    exact ⟨rfl, rfl, rfl, fun h => nomatch h⟩
  | none =>
    dsimp only
    split
    · next h =>
      refine ⟨rfl, rfl, rfl, fun _ hf => ?_⟩
      simp only [hf, Bool.false_or, Bool.or_eq_true] at h
      rcases h with (h | h) | h
      · exact .inl h
      · exact .inr (.inr h)
      · exact .inr (.inl h)
    · obtain ⟨hspare, hregs⟩ := s.setSpare_spec c true
      have hdue : (s.setSpare c true).coreDue = s.coreDue := (congrArg State.coreDue hregs.same :)
      refine ⟨(State.spareChecked_rget ..).trans (hregs.regs _ (decide_eq_false (by unfold R.CORE_HEALTH R.SR_STATUS; omega))),
        (State.spareChecked_coreDue ..).trans hdue, (State.spareChecked_mem ..).trans hregs.mem, fun _ _ => .inl ?_⟩
      exact (State.flag_congr (f := spareFld c) (State.spareChecked_rget ..)).trans hspare

theorem doCoreRetestDone_passed {c : Fin 68} (hflag : s.flag (R.CORE_HEALTH_RETEST c) = true) (hunf : s.unfencing c = none)
    (hlim : s.fget R.SR_CFG_TRANS_LIMIT = 0) : doCoreRetestDone c true s = (s.coreRetested c).releaseCore c := by
  have hspec := s.coreRetested_spec c
  have hlim' : (s.coreRetested c).fget R.SR_CFG_TRANS_LIMIT = 0 :=
    (State.fget_congr (f := R.SR_CFG_TRANS_LIMIT) (hspec.regs _ (by simp only [R.SR_CFG_TRANS_LIMIT, R.SR_CFG, R.CORE_HEALTH]; omega)
      (by decide) (by decide))).trans hlim
  have hunf' : (s.coreRetested c).unfencing c = none := (hspec.unfencing c).trans hunf
  have hdo : doCoreRetestDone c true s = (
      let limit := (s.coreRetested c).fget R.SR_CFG_TRANS_LIMIT
      let bad := !true || (limit != 0 && decide (limit ≤ (s.coreRetested c).passes c))
      match (s.coreRetested c).unfencing c with
      | some t => ((s.coreRetested c).tileRetested t c bad).boundary t
      | none =>
        if bad then ((s.coreRetested c).permanent c (s.coreDue.contains (c.val, true))).raise (coreBase c) 3 (s.coreDue.contains (c.val, true))
        else (s.coreRetested c).releaseCore c) := by
    unfold doCoreRetestDone
    exact if_neg (by simp [hflag])
  rw [hdo, hlim', hunf']
  rfl

/-- A retest that passes with nothing to unfence and no limit of passes. -/
theorem doCoreRetestDone_spec {c : Fin 68} (hflag : s.flag (R.CORE_HEALTH_RETEST c) = true) (hunf : s.unfencing c = none)
    (hlim : s.fget R.SR_CFG_TRANS_LIMIT = 0) (hbusy : ∀ u, s.tileOfCore c = some u → Busy s u) :
    let t := doCoreRetestDone c true s
    t.flag (R.CORE_HEALTH_RETEST c) = false ∧ t.fget (R.CORE_HEALTH_RESULT c) = 1 ∧ (∀ e ∈ t.coreDue, e.1 ≠ c.val) ∧ MemSame s t ∧
      (s.tileOfCore c = none → s.coreFenced c = false → t.isSpare c = true ∨ (s.reservedBy c).isSome = true ∨ s.connected c = true) := by
  have hspec := s.coreRetested_spec c
  rw [doCoreRetestDone_passed hflag hunf hlim]
  obtain ⟨hhealth, hdue, hmem, hfree⟩ := (s.coreRetested c).releaseCore_spec c fun u hu =>
    hspec.busy (State.tileOfCore_lt hu) (hbusy u ((hspec.tileOfCore c).symm.trans hu))
  rw [hspec.tileOfCore, hspec.coreFenced, hspec.reservedBy, hspec.connected] at hfree
  refine ⟨(State.flag_congr (f := R.CORE_HEALTH_RETEST c) hhealth).trans hspec.flag,
    (State.fget_congr (f := R.CORE_HEALTH_RESULT c) hhealth).trans hspec.result, fun e he => ?_, .of_mem (hmem.trans hspec.mem), hfree⟩
  rw [hdue, hspec.coreDue] at he
  simpa using (List.mem_filter.1 he).2

end Sys2Proof.Machine
end

section
/-! SUPPORT. The repair log, and repairs that are made permanent (16_self_repair.md R395; 14_memories.md R358). -/

namespace Sys2Proof.Machine

variable {s₀ s t : State}

/-! ## The repair log -/

/-- The words of entry `n` of the repair log, and its count. -/
def logReg (n a : Nat) : Bool := a == R.SR_OTP_COUNT || a == R.SR_OTP_W0 n || a == R.SR_OTP_W1 n

theorem State.logEntry_spec {kind unit n : Nat} (hn : s.fget R.SR_OTP_COUNT_USED = n) (hroom : n < 63) (hkind : kind = 0 ∨ kind = 4) :
    (s.logEntry kind unit).fget R.SR_OTP_COUNT_USED = n + 1 ∧
      (s.logEntry kind unit).rget (R.SR_OTP_W0 n) = BitVec.ofNat 32 (65536 * unit + kind + 1) ∧
      (s.logEntry kind unit).rget (R.SR_OTP_W1 n) = s.rget R.MRN_HOURS ∧ RegsOnly (logReg n) s (s.logEntry kind unit) := by
  have hw0 : R.SR_OTP_W0 n ≠ R.SR_OTP_W1 n ∧ R.SR_OTP_W0 n ≠ R.SR_OTP_COUNT ∧ R.SR_OTP_W0 n ≠ R.MRN_HOURS := by
    unfold R.SR_OTP_W0 R.SR_OTP_W1 R.SR_OTP_COUNT R.MRN_HOURS
    omega
  have hw1 : R.SR_OTP_W1 n ≠ R.SR_OTP_COUNT := by unfold R.SR_OTP_W1 R.SR_OTP_COUNT; omega
  have hword : 65536 * unit + 4 * (if kind = 4 then 1 else 0) + 1 = 65536 * unit + kind + 1 := by
    rcases hkind with h | h <;> simp [h]
  unfold State.logEntry
  extract_lets m s₁ s₂
  have hm : m = n := hn
  clear_value m
  subst hm
  rw [if_neg (by omega), if_neg (by omega)]
  have h₁ : RegsOnly (logReg m) s s₁ := (RegsOnly.refl s).rset (by simp [logReg]) _
  have hentry : s₁.rget (R.SR_OTP_W0 m) = BitVec.ofNat 32 (65536 * unit + kind + 1) := (State.rget_rset_same ..).trans (by rw [hword])
  have hhours : s₁.rget R.MRN_HOURS = s.rget R.MRN_HOURS := State.rget_rset_other _ _ hw0.2.2.symm
  clear_value s₁
  have h₂ : RegsOnly (logReg m) s s₂ := (h₁.rset (a := R.SR_OTP_W1 m) (by simp [logReg]) _).fset (f := R.SR_OTP_COUNT_USED)
    (by simp [logReg, R.SR_OTP_COUNT_USED]) _
  refine ⟨?_, ?_, ?_, h₂⟩
  · exact (State.fget_fset_same _ _ (show 0 ≤ 6 by decide) (show 6 < 32 by decide)).trans (Nat.mod_eq_of_lt (show m + 1 < 128 by omega))
  · exact ((State.rget_fset_other _ _ hw0.2.1).trans (State.rget_rset_other _ _ hw0.1)).trans hentry
  · exact ((State.rget_fset_other _ _ hw1).trans (State.rget_rset_same ..)).trans hhours

theorem doRepairLogWrite_one {kind unit : Nat} (hidle : s.chipIdle = true) (hdue : s.logDue = [(kind, unit)]) :
    doRepairLogWrite s = { s with logDue := [] }.logEntry kind unit := by
  unfold doRepairLogWrite
  rw [if_pos hidle, hdue]
  rfl

/-- In an idle period the entry that waits takes the next place. -/
theorem doRepairLogWrite_spec {kind unit n : Nat} (hidle : s.chipIdle = true) (hdue : s.logDue = [(kind, unit)]) (hkind : kind = 0 ∨ kind = 4)
    (hn : s.fget R.SR_OTP_COUNT_USED = n) (hroom : n < 63) :
    let t := doRepairLogWrite s
    t.logDue = [] ∧ t.fget R.SR_OTP_COUNT_USED = n + 1 ∧ t.rget (R.SR_OTP_W0 n) = BitVec.ofNat 32 (65536 * unit + kind + 1) ∧
      t.rget (R.SR_OTP_W1 n) = s.rget R.MRN_HOURS ∧ MemSame s t ∧ RegsSame (logReg n) s t := by
  rw [doRepairLogWrite_one hidle hdue]
  have hread (a : Nat) : ({ s with logDue := [] } : State).rget a = s.rget a := rfl
  have hlog : ({ s with logDue := [] } : State).logDue = [] := rfl
  have hmem : ({ s with logDue := [] } : State).mem = s.mem := rfl
  generalize ({ s with logDue := [] } : State) = r at hread hlog hmem ⊢
  obtain ⟨hcount, hw0, hw1, hregs⟩ := State.logEntry_spec (s := r) (unit := unit)
    ((State.fget_congr (f := R.SR_OTP_COUNT_USED) (hread _)).trans hn) hroom hkind
  have hdue' : (r.logEntry kind unit).logDue = r.logDue := (congrArg State.logDue hregs.same :)
  exact ⟨hdue'.trans hlog, hcount, hw0, hw1.trans (hread _), .of_mem (hregs.mem.trans hmem), fun a ha => (hregs.regs a ha).trans (hread a)⟩

/-! ## Permanent repairs -/

/-- No repair that may be made permanent waits. -/
theorem State.persistRepairs_none {p : Option Nat → Bool} (h : ∀ e ∈ s.soft, p e.core = true → e.injected = true) : s.persistRepairs p = s := by
  have hgo : (s.soft.filter fun e => p e.core && !e.injected) = [] := List.filter_eq_nil_iff.2 fun e he hp => by
    obtain ⟨hcore, hinj⟩ : p e.core = true ∧ e.injected = false := by simpa using hp
    rw [h e he hcore] at hinj
    cases hinj
  unfold State.persistRepairs
  rw [hgo]
  exact if_pos (Nat.zero_min _)

/-- One repair takes the next field entry of OTP. -/
def State.persisted (s : State) (e : SoftRepair) : State :=
  ({ s with soft := [], repairs := s.repairs ++ [e.rep] }.fset R.REP_OTP_FIELD (s.fget R.REP_OTP_FIELD + 1)).fset R.REP_STATUS_PEND 0

theorem State.persistRepairs_one {p : Option Nat → Bool} {e : SoftRepair} (hsoft : s.soft = [e]) (hp : p e.core = true)
    (hinj : e.injected = false) (hroom : s.fget R.REP_OTP_FIELD < 255) : s.persistRepairs p = s.persisted e := by
  unfold State.persistRepairs
  extract_lets go used n s₁ s₂
  have hgo : go = [e] := by
    change s.soft.filter _ = _
    rw [hsoft, List.filter_cons_of_pos (by simp [hp, hinj]), List.filter_nil]
  have hused : used = s.fget R.REP_OTP_FIELD := rfl
  have hn : n = 1 := by
    change min go.length (256 - used) = 1
    rw [hgo, List.length_singleton]
    omega
  rw [if_neg (by omega), if_neg (by omega)]
  have h₁ : s₁ = { s with soft := [], repairs := s.repairs ++ [e.rep] } := by
    simp [s₁, hgo, hn, hsoft]
  change (s₁.fset R.REP_OTP_FIELD (used + n)).fset R.REP_STATUS_PEND s₁.soft.length = _
  rw [h₁, hn]
  rfl

theorem State.persisted_spec (s : State) (e : SoftRepair) (hroom : s.fget R.REP_OTP_FIELD < 255) :
    (s.persisted e).soft = [] ∧ (s.persisted e).repairs = s.repairs ++ [e.rep] ∧
      (s.persisted e).fget R.REP_OTP_FIELD = s.fget R.REP_OTP_FIELD + 1 ∧ (s.persisted e).fget R.REP_STATUS_PEND = 0 ∧
      (s.persisted e).mem = s.mem ∧ RegsSame (fun a => a == R.REP_OTP || a == R.REP_STATUS) s (s.persisted e) := by
  refine ⟨rfl, rfl, ?_, State.fget_fset_same _ _ (by decide) (by decide), rfl, fun a ha => ?_⟩
  · refine (State.fget_fset_addr _ _ (show R.REP_OTP ≠ R.REP_STATUS by decide)).trans ?_
    exact (State.fget_fset_same _ _ (by decide) (by decide)).trans (Nat.mod_eq_of_lt (show s.fget R.REP_OTP_FIELD + 1 < 2 ^ 9 by omega))
  · obtain ⟨hotp, hstatus⟩ : a ≠ R.REP_OTP ∧ a ≠ R.REP_STATUS := by simpa using ha
    exact (State.rget_fset_other _ _ hstatus).trans (State.rget_fset_other _ _ hotp)

end Sys2Proof.Machine
end

section
/-! SUPPORT. The background memory test and the errors that users of memories meet (14_memories.md R347, R353 to R357). -/

namespace Sys2Proof.Machine

variable {s₀ s t : State}

/-! ## Whether the test runs -/

theorem State.btRuns_congr (hcfg : t.rget R.BT_CFG = s.rget R.BT_CFG) (hthr : t.rget R.THR_STATUS = s.rget R.THR_STATUS)
    (heng : t.rget R.ENG_STATUS = s.rget R.ENG_STATUS) : t.btRuns = s.btRuns := by
  unfold State.btRuns State.stage1
  rw [State.flag_congr (f := R.BT_CFG_EN) hcfg, State.fget_congr (f := R.THR_STATUS_STAGES) hthr, State.flag_congr (f := R.ENG_STATUS_SLOW_ACT) heng]

/-- Behind the errors, the test of a region does nothing while it does not run or is not due. -/
theorem doBtRegionTest_rests {found : List Defect} {corrected bad : List (Nat × Nat)}
    (h : (bad.foldl (fun s e => s.eccError e.1 e.2 false) (s.correct corrected)).btRuns = false ∨
      (bad.foldl (fun s e => s.eccError e.1 e.2 false) (s.correct corrected)).btDue = false) :
    doBtRegionTest found corrected bad s = bad.foldl (fun s e => s.eccError e.1 e.2 false) (s.correct corrected) :=
  if_pos (by rcases h with h | h <;> simp [h])

/-! ## Errors of the firn (R347) -/

/-- A word that holds an uncorrectable error until it is written. -/
def State.holdWord (s : State) (w : Nat × Nat) : State := if s.eccReal.contains w then s else { s with eccReal := s.eccReal ++ [w] }

theorem State.holdWord_spec (s : State) (w : Nat × Nat) :
    w ∈ (s.holdWord w).eccReal ∧ (s.holdWord w).regs = s.regs ∧ (s.holdWord w).mem = s.mem ∧ (s.holdWord w).staged = s.staged := by
  unfold State.holdWord
  split
  · next h => exact ⟨by simpa using h, rfl, rfl, rfl⟩
  · exact ⟨List.mem_append_right _ (List.mem_singleton.2 rfl), rfl, rfl, rfl⟩

theorem State.eccEffect_firn {core off : Nat} {inj : Bool} (h : off < 0x400000) : s.eccEffect 0x10 core off inj = s := by
  change (if 0x400000 ≤ off ∧ off < 0x600000 ∧ s.staging.isSome = true then s.stagingDrop St.hwFault
    else if 0x600000 ≤ off ∧ off < 0x800000 then _ else s) = s
  rw [if_neg (by omega), if_neg (by omega)]

theorem State.eccError_firn {off : Nat} (h : off < 0x400000) :
    s.eccError 0x10 off false = ((s.holdWord (0x10, off / 8 * 8)).eccNote (0x10, off / 8 * 8)).raise 0xA0000 0 := by
  have heq : s.eccError 0x10 off false =
      (((s.holdWord (0x10, off / 8 * 8)).eccNote (0x10, off / 8 * 8)).eccEffect 0x10 0 off false).raise 0xA0000 0 := by
    unfold State.eccError State.holdWord
    rw [show eccAlign (0x10 % 256) off = off / 8 * 8 from eccAlign_of_wide (by decide) (by decide) off]
    simp
  rw [heq, State.eccEffect_firn h]

/-- An uncorrectable error of the firn is counted, shown and kept. -/
theorem State.eccError_shows {off : Nat} (hoff : off < 0x200000) (hfew : s.fget R.MEM_ECC_UNC_COUNT < 2 ^ 32 - 1) (hmild : Mild s 0xA0000 0) :
    let t := s.eccError 0x10 off false
    t.fget R.MEM_ECC_UNC_COUNT = s.fget R.MEM_ECC_UNC_COUNT + 1 ∧ t.rget R.MEM_ECC_LAST = 0x80000010 ∧
      (t.rget R.MEM_ECC_LADDR).toNat = off / 8 * 8 ∧ (0x10, off / 8 * 8) ∈ t.eccReal ∧ (t.rget (R.FLT_REAL 0xA0000)).getLsbD 0 = true ∧ MemSame s t ∧
      ∀ a, eccReg a = false → raiseReg 0xA0000 a = false → counting a = false → t.rget a = s.rget a := by
  rw [State.eccError_firn (by omega)]
  obtain ⟨hheld, hregs, hmem, hstaged⟩ := s.holdWord_spec (0x10, off / 8 * 8)
  generalize s.holdWord (0x10, off / 8 * 8) = r at hheld hregs hmem hstaged ⊢
  have hread (a : Nat) : r.rget a = s.rget a := State.rget_congr hregs a
  obtain ⟨hnote, hroom, hcount, hlast, haddr⟩ := r.eccNote_spec (0x10, off / 8 * 8)
  have hreal : (r.eccNote (0x10, off / 8 * 8)).eccReal = r.eccReal := (congrArg State.eccReal hnote.same :)
  have hfew' : r.fget R.MEM_ECC_UNC_COUNT = s.fget R.MEM_ECC_UNC_COUNT := State.fget_congr (f := R.MEM_ECC_UNC_COUNT) (hread _)
  generalize r.eccNote (0x10, off / 8 * 8) = k at hnote hroom hcount hlast haddr hreal ⊢
  have hmild' : Mild k 0xA0000 0 := hmild.congr (hroom.trans hstaged) ((hnote.rget (by decide) (by decide)).trans (hread _))
  obtain ⟨hlogs, hbit⟩ := hmild'.raise (by decide) (by decide)
  have hreal' : (k.raise 0xA0000 0).eccReal = k.eccReal := (congrArg State.eccReal hlogs.same :)
  refine ⟨?_, ?_, ?_, ?_, hbit, .of_mem (hlogs.mem.trans (hnote.mem.trans hmem)), fun a hecc hraise hcnt => ?_⟩
  · exact (State.fget_congr (f := R.MEM_ECC_UNC_COUNT) (hlogs.rget (by decide) (by decide))).trans
      ((hcount (hfew' ▸ hfew)).trans (congrArg (· + 1) hfew'))
  · exact (hlogs.rget (by decide) (by decide)).trans (hlast.trans rfl)
  · rw [hlogs.rget (a := R.MEM_ECC_LADDR) (by decide) (by decide), haddr,
      eccAlign_of_wide (show 0x10 % 256 ≠ 0x11 by decide) (show 0x10 % 256 ≠ 0xF1 by decide), BitVec.toNat_ofNat,
      Nat.mod_eq_of_lt (by dsimp only; omega)]
    dsimp only
    omega
  · rw [hreal', hreal]
    exact hheld
  · exact (hlogs.rget hraise hcnt).trans ((hnote.rget hecc hcnt).trans (hread a))

/-! ## Corrected errors (R347) -/

/-- A corrected error is remembered; one that comes again within 1 s places its region at the head. -/
def State.remember (s : State) (e : Nat × Nat) : State :=
  let recent := s.corrections.filter fun c => decide (s.now ≤ c.2 + 256000000000 * unitFs)
  let again := (recent.any fun c => c.1 == e) && !s.btHead.contains e.1
  { s with corrections := (e, s.now) :: recent.filter fun c => c.1 != e, btHead := (if again then [e.1] else []) ++ s.btHead }

theorem State.correct_one (s : State) (e : Nat × Nat) : s.correct [e] = ((s.count R.MEM_ECC_CORR_COUNT).evCount 64).remember e := rfl

theorem State.remember_spec (s : State) (e : Nat × Nat) :
    (e, s.now) ∈ (s.remember e).corrections ∧
      ((∃ c ∈ s.corrections, c.1 = e ∧ s.now ≤ c.2 + 256000000000 * unitFs) → e.1 ∈ (s.remember e).btHead) ∧
      (s.remember e).regs = s.regs ∧ (s.remember e).mem = s.mem := by
  refine ⟨List.mem_cons_self, fun ⟨c, hc, he, hnow⟩ => ?_, rfl, rfl⟩
  have hany : ((s.corrections.filter fun c => decide (s.now ≤ c.2 + 256000000000 * unitFs)).any fun c => c.1 == e) = true :=
    List.any_eq_true.2 ⟨c, List.mem_filter.2 ⟨hc, decide_eq_true hnow⟩, by simp [he]⟩
  unfold State.remember
  dsimp only
  rw [hany]
  by_cases hhead : e.1 ∈ s.btHead
  · exact List.mem_append_right _ hhead
  · exact List.mem_append_left _ (by simp [hhead])

theorem State.correct_spec (s : State) (e : Nat × Nat) (hfew : s.fget R.MEM_ECC_CORR_COUNT < 2 ^ 32 - 1) :
    let t := s.correct [e]
    t.fget R.MEM_ECC_CORR_COUNT = s.fget R.MEM_ECC_CORR_COUNT + 1 ∧ (e, s.now) ∈ t.corrections ∧
      ((∃ c ∈ s.corrections, c.1 = e ∧ s.now ≤ c.2 + 256000000000 * unitFs) → e.1 ∈ t.btHead) ∧
      RegsSame (fun a => counting a || a == R.MEM_ECC_CORR) s t ∧ MemSame s t := by
  have hcounts := State.evCount_counts (s.count R.MEM_ECC_CORR_COUNT) 64 1 none
  have hbehind : (s.count R.MEM_ECC_CORR_COUNT).fget R.MEM_ECC_CORR_COUNT = s.fget R.MEM_ECC_CORR_COUNT + 1 :=
    State.fget_count_of_lt (by decide) (by decide) hfew
  have hother {a : Nat} (ha : a ≠ R.MEM_ECC_CORR) : (s.count R.MEM_ECC_CORR_COUNT).rget a = s.rget a := State.rget_fset_other _ _ ha
  have hfields : (s.count R.MEM_ECC_CORR_COUNT).now = s.now ∧ (s.count R.MEM_ECC_CORR_COUNT).corrections = s.corrections ∧
      (s.count R.MEM_ECC_CORR_COUNT).mem = s.mem := ⟨rfl, rfl, rfl⟩
  rw [State.correct_one]
  generalize s.count R.MEM_ECC_CORR_COUNT = q at hcounts hbehind hother hfields ⊢
  obtain ⟨hqnow, hqcorr, hqmem⟩ := hfields
  have hnow : (q.evCount 64).now = s.now := by
    rw [← hqnow, State.now, hcounts.sysTime]
    rfl
  have hcorr : (q.evCount 64).corrections = s.corrections := (congrArg State.corrections hcounts.same :).trans hqcorr
  generalize q.evCount 64 = r at hcounts hnow hcorr ⊢
  obtain ⟨hmemb, hagain, hregs, hmem⟩ := r.remember_spec e
  refine ⟨?_, hnow ▸ hmemb, fun h => hagain ?_, fun a ha => ?_, .of_mem (hmem.trans (hcounts.mem.trans hqmem))⟩
  · exact (State.fget_congr (f := R.MEM_ECC_CORR_COUNT) ((State.rget_congr hregs _).trans (hcounts.regs _ (by decide)))).trans hbehind
  · rw [hcorr, hnow]
    exact h
  · obtain ⟨hcnt, hne⟩ : counting a = false ∧ a ≠ R.MEM_ECC_CORR := by simpa using ha
    exact (State.rget_congr hregs a).trans ((hcounts.regs a hcnt).trans (hother hne))

end Sys2Proof.Machine
end

section
/-! SUPPORT. The test of a region and the repair of a defect (14_memories.md R353 to R357). -/

namespace Sys2Proof.Machine

variable {s₀ s t : State}

/-! ## The test passes to the next region -/

/-- The instant of a region's test. -/
def State.stampTest (s : State) : State := { s with btAt := some s.now }

theorem State.stampTest_rget (s : State) (a : Nat) : s.stampTest.rget a = s.rget a := rfl

theorem State.stampTest_fields (s : State) : s.stampTest.btAt = some s.now ∧ s.stampTest.btHead = s.btHead ∧ s.stampTest.soft = s.soft ∧
    s.stampTest.repairs = s.repairs ∧ s.stampTest.mem = s.mem := ⟨rfl, rfl, rfl, rfl, rfl⟩

theorem doBtRegionTest_runs {found : List Defect} (hruns : s.btRuns = true) (hdue : s.btDue = true) :
    doBtRegionTest found [] [] s =
      let p := btPlace s.btRegion btMemories
      let q := s.stampTest.btAdvance
      if !q.btReaches p.1 then q
      else (found.filter fun d => d.place = p.1 ∧ d.unit = p.2).foldl (fun s d => s.defect d) (q.evCount 66) :=
  if_neg (by
    change ¬ (!s.btRuns || !s.btDue) = true
    simp [hruns, hdue])

/-- The registers of the pass. -/
def passReg (a : Nat) : Bool := a == R.BT_STATUS || a == R.BT_PASSES

theorem State.btAdvance_spec (hhead : s.btHead = []) (hregion : s.fget R.BT_STATUS_REGION < btRegions) :
    s.btAdvance.fget R.BT_STATUS_REGION = (if s.fget R.BT_STATUS_REGION + 1 = btRegions then 0 else s.fget R.BT_STATUS_REGION + 1) ∧
      (s.fget R.BT_STATUS_REGION + 1 = btRegions → s.fget R.BT_PASSES_COUNT < 2 ^ 32 - 1 →
        s.btAdvance.fget R.BT_PASSES_COUNT = s.fget R.BT_PASSES_COUNT + 1) ∧
      RegsOnly passReg s s.btAdvance := by
  have hbound : s.fget R.BT_STATUS_REGION + 1 < 2 ^ 20 := Nat.lt_of_le_of_lt hregion (by decide)
  unfold State.btAdvance
  rw [hhead]
  dsimp only
  split
  · refine ⟨?_, fun _ hfew => ?_, ((RegsOnly.refl s).fset (f := R.BT_STATUS_REGION) (by decide) _).fset (f := R.BT_PASSES_COUNT) (by decide) _⟩
    · exact (State.fget_fset_addr _ _ (by decide)).trans (State.fget_fset_same _ _ (by decide) (by decide))
    · have hkeep : (s.fset R.BT_STATUS_REGION 0).fget R.BT_PASSES_COUNT = s.fget R.BT_PASSES_COUNT := State.fget_fset_addr _ _ (by decide)
      exact (State.fget_count_of_lt (by decide) (by decide) (hkeep ▸ hfew)).trans (congrArg (· + 1) hkeep)
  · next h =>
    refine ⟨?_, fun k => absurd k h, (RegsOnly.refl s).fset (f := R.BT_STATUS_REGION) (by decide) _⟩
    exact (State.fget_fset_same _ _ (by decide) (by decide)).trans (Nat.mod_eq_of_lt hbound)

/-- What the test of a region leaves behind, but for the defects that it finds. -/
structure Passed (s t : State) : Prop where
  btAt : t.btAt = some s.now
  region : t.fget R.BT_STATUS_REGION = (if s.fget R.BT_STATUS_REGION + 1 = btRegions then 0 else s.fget R.BT_STATUS_REGION + 1)
  passes : s.fget R.BT_STATUS_REGION + 1 = btRegions → s.fget R.BT_PASSES_COUNT < 2 ^ 32 - 1 →
    t.fget R.BT_PASSES_COUNT = s.fget R.BT_PASSES_COUNT + 1
  soft : t.soft = s.soft
  repairs : t.repairs = s.repairs
  mem : t.mem = s.mem
  regs : RegsSame (fun a => counting a || passReg a) s t

theorem State.stampTest_passed (hhead : s.btHead = []) (hregion : s.fget R.BT_STATUS_REGION < btRegions) : Passed s s.stampTest.btAdvance := by
  obtain ⟨hat, hhead', hsoft, hrepairs, hmem⟩ := s.stampTest_fields
  have hread := s.stampTest_rget
  generalize s.stampTest = r at hat hhead' hsoft hrepairs hmem hread ⊢
  have hr : r.fget R.BT_STATUS_REGION = s.fget R.BT_STATUS_REGION := State.fget_congr (f := R.BT_STATUS_REGION) (hread _)
  have hp : r.fget R.BT_PASSES_COUNT = s.fget R.BT_PASSES_COUNT := State.fget_congr (f := R.BT_PASSES_COUNT) (hread _)
  obtain ⟨hreg, hpass, honly⟩ := State.btAdvance_spec (hhead'.trans hhead) (hr ▸ hregion)
  rw [hr] at hreg
  rw [hr, hp] at hpass
  exact ⟨(congrArg State.btAt honly.same :).trans hat, hreg, hpass, (congrArg State.soft honly.same :).trans hsoft,
    (congrArg State.repairs honly.same :).trans hrepairs, honly.mem.trans hmem,
    fun a ha => (honly.regs a (by simp at ha; exact ha.2)).trans (hread a)⟩

theorem Passed.of_counts (h : Passed s₀ s) (k : Counts s t) : Passed s₀ t where
  btAt := (congrArg State.btAt k.same :).trans h.btAt
  region := (State.fget_congr (f := R.BT_STATUS_REGION) (k.regs _ (by decide))).trans h.region
  passes e hfew := (State.fget_congr (f := R.BT_PASSES_COUNT) (k.regs _ (by decide))).trans (h.passes e hfew)
  soft := (congrArg State.soft k.same :).trans h.soft
  repairs := (congrArg State.repairs k.same :).trans h.repairs
  mem := k.mem.trans h.mem
  regs a ha := (k.regs a (by simp at ha; exact ha.1)).trans (h.regs a ha)

/-- A test that finds nothing. -/
theorem doBtRegionTest_passed (hruns : s.btRuns = true) (hdue : s.btDue = true) (hhead : s.btHead = [])
    (hregion : s.fget R.BT_STATUS_REGION < btRegions) : Passed s (doBtRegionTest [] [] [] s) := by
  have hpassed := State.stampTest_passed hhead hregion
  rw [doBtRegionTest_runs hruns hdue]
  dsimp only
  split
  · exact hpassed
  · exact hpassed.of_counts (State.evCount_counts ..)

/-! ## A defect with a free spare (R357) -/

theorem State.freeSpare_congr (hsoft : t.soft = s.soft) (hrep : t.repairs = s.repairs) (d : Defect) : t.freeSpare d = s.freeSpare d := by
  unfold State.freeSpare State.sparesUsed State.repairsNow
  rw [hsoft, hrep]

theorem State.freeSpare_spec {d : Defect} {n : Nat} (h : s.freeSpare d = some n) :
    n < spareCount d.place d.unit d.column ∧ n ∉ s.sparesUsed (macroOf d.place d.unit) d.column :=
  ⟨List.mem_range.1 (List.mem_of_find?_eq_some h), by simpa using List.find?_some h⟩

/-- The soft repair that puts spare `n` in the place of a defect. -/
def softRepair (d : Defect) (n : Nat) : SoftRepair :=
  ⟨coreAt d.place, d.injected, ⟨macroOf d.place d.unit, d.column, d.line, n⟩⟩

/-- A soft repair waits to be made permanent. -/
def State.repaired (s : State) (d : Defect) (n : Nat) : State := { s with soft := s.soft ++ [softRepair d n] }

theorem State.takeSpare_free {d : Defect} {n : Nat} (h : s.freeSpare d = some n) : s.takeSpare d = s.repaired d n := by
  unfold State.takeSpare
  rw [h]
  rfl

theorem State.repaired_fields (s : State) (d : Defect) (n : Nat) : (s.repaired d n).soft = s.soft ++ [softRepair d n] ∧
    (s.repaired d n).regs = s.regs ∧ (s.repaired d n).mem = s.mem := ⟨rfl, rfl, rfl⟩

theorem State.soft_fset (s : State) (f : Fld) (v : Nat) : (s.fset f v).soft = s.soft := rfl

/-- A defect outside the cores takes a spare and is counted. -/
theorem State.defect_spec {d : Defect} {n : Nat} (hcore : coreAt d.place = none) (hfree : s.freeSpare d = some n)
    (hfew : s.fget R.BT_FAILS_COUNT < 2 ^ 32 - 1) :
    (s.defect d).soft = s.soft ++ [softRepair d n] ∧ (s.defect d).fget R.BT_FAILS_COUNT = s.fget R.BT_FAILS_COUNT + 1 ∧
      (s.defect d).fget R.REP_STATUS_PEND = min 511 (s.soft.length + 1) ∧ (s.defect d).mem = s.mem := by
  have hcounts := State.evCount_counts (s.count R.BT_FAILS_COUNT) 67 1 none
  have hcount : (s.count R.BT_FAILS_COUNT).fget R.BT_FAILS_COUNT = s.fget R.BT_FAILS_COUNT + 1 :=
    State.fget_count_of_lt (by decide) (by decide) hfew
  have hfields : (s.count R.BT_FAILS_COUNT).soft = s.soft ∧ (s.count R.BT_FAILS_COUNT).repairs = s.repairs ∧
      (s.count R.BT_FAILS_COUNT).mem = s.mem := ⟨rfl, rfl, rfl⟩
  unfold State.defect
  extract_lets r k p
  change Counts _ r at hcounts
  generalize s.count R.BT_FAILS_COUNT = q at hcounts hcount hfields
  obtain ⟨hqsoft, hqrep, hqmem⟩ := hfields
  have hsoft : r.soft = s.soft := (congrArg State.soft hcounts.same :).trans hqsoft
  have hfree' : r.freeSpare d = some n :=
    (State.freeSpare_congr hsoft ((congrArg State.repairs hcounts.same :).trans hqrep) d).trans hfree
  have hfails : r.fget R.BT_FAILS_COUNT = s.fget R.BT_FAILS_COUNT + 1 :=
    (State.fget_congr (f := R.BT_FAILS_COUNT) (hcounts.regs _ (by decide))).trans hcount
  have hmem : r.mem = s.mem := hcounts.mem.trans hqmem
  have hk : k = r.repaired d n := State.takeSpare_free hfree'
  clear_value k r
  obtain ⟨hsoft', hregs, hmem'⟩ := r.repaired_fields d n
  rw [← hk] at hsoft' hregs hmem'
  rw [if_neg (by simp [State.spareFree, hfree']), hcore]
  change p.soft = _ ∧ p.fget R.BT_FAILS_COUNT = _ ∧ p.fget R.REP_STATUS_PEND = _ ∧ p.mem = _
  have hlen : k.soft.length = s.soft.length + 1 := by rw [hsoft', hsoft, List.length_append, List.length_singleton]
  refine ⟨?_, ?_, ?_, (State.mem_fset ..).trans (hmem'.trans hmem)⟩
  · exact (State.soft_fset ..).trans (hsoft'.trans (by rw [hsoft]))
  · exact (State.fget_fset_addr _ _ (by decide)).trans ((State.fget_congr (f := R.BT_FAILS_COUNT) (State.rget_congr hregs _)).trans hfails)
  · refine (State.fget_fset_same _ _ (by decide) (by decide)).trans ?_
    rw [hlen]
    exact Nat.mod_eq_of_lt (show min 511 (s.soft.length + 1) < 2 ^ 9 by omega)

theorem State.btReaches_congr {p : DefectAt} (hcore : ∀ c, p ≠ .core c) (hret : t.rget R.FIRN_RETIRED = s.rget R.FIRN_RETIRED) :
    t.btReaches p = s.btReaches p := by
  cases p with
  | core c => exact absurd rfl (hcore c)
  | firn b =>
    have haddr : (bitFld R.FIRN_RETIRED b).addr = R.FIRN_RETIRED := by
      have hb : b.val / 32 = 0 := Nat.div_eq_of_lt (by omega)
      simp [bitFld, hb]
    exact congrArg (!·) (State.flag_congr (f := bitFld R.FIRN_RETIRED b) (by rw [haddr]; exact hret))
  | vault => rfl
  | shared => rfl

/-- A test that finds one defect in its own region, outside the cores and with a free spare. -/
theorem doBtRegionTest_repairs {d : Defect} (hruns : s.btRuns = true) (hdue : s.btDue = true) (hhead : s.btHead = [])
    (hregion : s.fget R.BT_STATUS_REGION < btRegions) (hplace : btPlace s.btRegion btMemories = (d.place, d.unit))
    (hreach : s.btReaches d.place = true) (hcore : ∀ c, d.place ≠ .core c) (hfree : s.spareFree d = true)
    (hfew : s.fget R.BT_FAILS_COUNT < 2 ^ 32 - 1) :
    let t := doBtRegionTest [d] [] [] s
    ∃ n, n < spareCount d.place d.unit d.column ∧ n ∉ s.sparesUsed (macroOf d.place d.unit) d.column ∧
      t.soft = s.soft ++ [⟨none, d.injected, ⟨macroOf d.place d.unit, d.column, d.line, n⟩⟩] ∧
      t.fget R.BT_FAILS_COUNT = s.fget R.BT_FAILS_COUNT + 1 ∧ t.fget R.REP_STATUS_PEND = min 511 (s.soft.length + 1) ∧ MemSame s t := by
  obtain ⟨n, hn⟩ := Option.isSome_iff_exists.1 hfree
  obtain ⟨hbound, hunused⟩ := State.freeSpare_spec hn
  have hnone : coreAt d.place = none := by
    cases hp : d.place with
    | core c => exact absurd hp (hcore c)
    | firn b => rfl
    | vault => rfl
    | shared => rfl
  have hpassed := State.stampTest_passed hhead hregion
  rw [doBtRegionTest_runs hruns hdue, hplace]
  dsimp only
  generalize s.stampTest.btAdvance = q at hpassed ⊢
  have hreach' : q.btReaches d.place = true := (State.btReaches_congr hcore (hpassed.regs _ (by decide))).trans hreach
  have hfound : ([d].filter fun x => x.place = d.place ∧ x.unit = d.unit) = [d] := by simp
  rw [if_neg (by simp [hreach']), hfound]
  change ∃ n, _ ∧ _ ∧ ((q.evCount 66).defect d).soft = _ ∧ ((q.evCount 66).defect d).fget R.BT_FAILS_COUNT = _ ∧
    ((q.evCount 66).defect d).fget R.REP_STATUS_PEND = _ ∧ MemSame s ((q.evCount 66).defect d)
  have hbehind := hpassed.of_counts (State.evCount_counts q 66 1 none)
  generalize q.evCount 66 = r at hbehind ⊢
  have hfails : r.fget R.BT_FAILS_COUNT = s.fget R.BT_FAILS_COUNT := State.fget_congr (f := R.BT_FAILS_COUNT) (hbehind.regs _ (by decide))
  obtain ⟨hsoft, hcount, hpend, hmem⟩ := State.defect_spec (s := r) hnone ((State.freeSpare_congr hbehind.soft hbehind.repairs d).trans hn)
    (hfails ▸ hfew)
  rw [hbehind.soft] at hsoft hpend
  rw [hfails] at hcount
  rw [softRepair, hnone] at hsoft
  exact ⟨n, hbound, hunused, hsoft, hcount, hpend, .of_mem (hmem.trans hbehind.mem)⟩

end Sys2Proof.Machine
end

section
/-! PROOF. Core faults and retests, spare cores, the repair log and the background memory test (16_self_repair.md R385 to R395;
14_memories.md R353 to R358). -/

namespace Sys2Proof.Machine

variable {s t : State}

/-- The check of a spare core that is due. -/
theorem doSpareCoreCheck_spec {c : Fin 68} (hspare : s.isSpare c = true) (hstage : s.stage1 = false) (hdue : s.spareDue c = true) :
    ((doSpareCoreCheck c true s).spareDue c = false ∧ RegsSame (fun _ => false) s (doSpareCoreCheck c true s) ∧
      MemSame s (doSpareCoreCheck c true s)) ∧
    (s.staged.length < 120 → (doSpareCoreCheck c false s).coreFenced c = true ∧ (doSpareCoreCheck c false s).isSpare c = false ∧
      (doSpareCoreCheck c false s).rget R.FENCE_LAST = BitVec.ofNat 32 (65536 * c.val + 16 * 2 + 4) ∧ MemSame s (doSpareCoreCheck c false s)) := by
  rw [doSpareCoreCheck_runs hspare hstage hdue, doSpareCoreCheck_runs hspare hstage hdue]
  refine ⟨⟨s.spareDue_spareChecked c, fun a _ => s.spareChecked_rget _ a, .of_mem (s.spareChecked_mem _)⟩, fun hroom => ?_⟩
  obtain ⟨hfence, hnot, hlast, hmem⟩ := State.fenceCore_spec (s := s.spareChecked [c.val]) c (cause := 2)
    (by rw [State.spareChecked_staged]; omega)
  exact ⟨hfence, hnot, hlast, .of_mem (hmem.trans (s.spareChecked_mem _))⟩

/-- Repairs of shared memories are made permanent in an idle period, but for injected ones. -/
theorem doSoftRepairPersist_spec {e : SoftRepair} (hidle : s.chipIdle = true) (hcore : e.core = none) (hsoft : s.soft = [e])
    (hroom : s.fget R.REP_OTP_FIELD < 255) :
    let t := doSoftRepairPersist s
    MemSame s t ∧ RegsSame (fun a => a == R.REP_OTP || a == R.REP_STATUS) s t ∧
      (e.injected = true → t.soft = s.soft ∧ t.repairs = s.repairs ∧ t.fget R.REP_OTP_FIELD = s.fget R.REP_OTP_FIELD) ∧
      (e.injected = false → t.soft = [] ∧ t.repairs = s.repairs ++ [e.rep] ∧ t.fget R.REP_OTP_FIELD = s.fget R.REP_OTP_FIELD + 1 ∧
        t.fget R.REP_STATUS_PEND = 0) := by
  have hdo : doSoftRepairPersist s = s.persistRepairs (· == none) := if_pos hidle
  rw [hdo]
  cases hinj : e.injected with
  | true =>
    rw [State.persistRepairs_none fun x hx _ => by
      rw [hsoft, List.mem_singleton] at hx
      exact hx ▸ hinj]
    exact ⟨.of_mem rfl, fun _ _ => rfl, fun _ => ⟨rfl, rfl, rfl⟩, fun h => nomatch h⟩
  | false =>
    rw [State.persistRepairs_one hsoft (by simp [hcore]) hinj hroom]
    obtain ⟨hnone, hrepairs, hfield, hpend, hmem, hregs⟩ := s.persisted_spec e hroom
    exact ⟨.of_mem hmem, hregs, (nomatch ·), fun _ => ⟨hnone, hrepairs, hfield, hpend⟩⟩

/-- An error of the firn that a user has met while the test does not run. -/
theorem doBtRegionTest_firn {off : Nat} (hruns : s.btRuns = false) (hoff : off < 0x200000) (hfew : s.fget R.MEM_ECC_UNC_COUNT < 2 ^ 32 - 1)
    (hmild : Mild s 0xA0000 0) : doBtRegionTest [] [] [(0x10, off)] s = s.eccError 0x10 off false := by
  obtain ⟨-, -, -, -, -, -, hregs⟩ := State.eccError_shows hoff hfew hmild
  exact doBtRegionTest_rests (.inl ((State.btRuns_congr (hregs _ (by decide) (by decide) (by decide)) (hregs _ (by decide) (by decide) (by decide))
    (hregs _ (by decide) (by decide) (by decide))).trans hruns))

theorem doBtRegionTest_corrected {e : Nat × Nat} (hruns : s.btRuns = false) (hfew : s.fget R.MEM_ECC_CORR_COUNT < 2 ^ 32 - 1) :
    doBtRegionTest [] [e] [] s = s.correct [e] := by
  obtain ⟨-, -, -, hregs, -⟩ := s.correct_spec e hfew
  exact doBtRegionTest_rests (.inl ((State.btRuns_congr (hregs _ (by decide)) (hregs _ (by decide)) (hregs _ (by decide))).trans hruns))

/-- Settles O51: the step of a core's tile ends beside another tile of its group and leaves alone what the fault's record rests on; each other
command is followed through its own branch. -/
theorem coresRepair : Obligations.CoresRepair := by
  unfold Obligations.CoresRepair
  refine ⟨?_, ?_, ?_, ?_, ?_, ?_, ?_, ?_, ?_, ?_, ?_, ?_, ?_, ?_, ?_⟩
  · intro c x inj s hf
    exact congrArg Host.Outcome.next (doCoreFault_fenced hf)
  · intro c x s hf hsrc hperm hdue hm hmild hmem hpath
    refine ⟨fun hcore => ?_, fun u v hcore hne hbusy _ hgroup hother hsoft hfence hunfence => ?_⟩
    · exact ⟨_, rfl, doCoreFault_spare hf hsrc hperm hdue hm hmild hmem hcore⟩
    · exact ⟨_, rfl, doCoreFault_step hf hsrc hperm hdue hm hmild hmem hpath hcore hne hbusy hgroup hother ⟨hsoft, hfence, hunfence⟩⟩
  · intro c u v x s hf hsrc hm hmild hcore hne hbusy _ hgroup hother hsoft hfence hunfence _
    obtain ⟨hend, hstatus, hreal⟩ := State.mergeError_ends hf hcore u.isLt v.isLt (fun k => hne (Fin.ext k.symm)) hbusy hother hgroup
      ⟨hsoft, hfence, hunfence⟩ hmild
    rw [← doCoreFault_merge hf hsrc hm] at hend hstatus hreal
    exact ⟨_, rfl, hend.state, hend.endStatus, hend.cause, hstatus, hreal⟩
  · intro c x inj s hsrc hm hcore
    exact congrArg Host.Outcome.next (doCoreFault_merge_none hsrc hm hcore)
  · intro c b s hflag
    exact congrArg Host.Outcome.next (if_pos (by simp [hflag]))
  · intro c s hflag hunf hlim hbusy
    exact ⟨_, rfl, doCoreRetestDone_spec hflag hunf hlim hbusy⟩
  · intro c b s h
    exact congrArg Host.Outcome.next (doSpareCoreCheck_skips h)
  · intro c s hspare hstage hdue
    obtain ⟨hpass, hfail⟩ := doSpareCoreCheck_spec hspare hstage hdue
    exact ⟨⟨_, rfl, hpass⟩, fun hroom => ⟨_, rfl, hfail hroom⟩⟩
  · intro k u s hidle hdue hkind _ n hroom
    exact ⟨_, rfl, doRepairLogWrite_spec hidle hdue hkind rfl hroom⟩
  · intro s hidle
    have hno : ¬ s.chipIdle = true := by simp [hidle]
    exact ⟨congrArg Host.Outcome.next (if_neg hno), congrArg Host.Outcome.next (if_neg hno)⟩
  · intro e s hidle hcore hsoft hroom
    exact ⟨_, rfl, doSoftRepairPersist_spec hidle hcore hsoft hroom⟩
  · intro l s h
    exact congrArg Host.Outcome.next (doBtRegionTest_rests h)
  · intro off s hruns hoff hfew hmild
    obtain ⟨hcount, hlast, haddr, hkept, hbit, hmem, hregs⟩ := State.eccError_shows hoff hfew hmild
    rw [← doBtRegionTest_firn hruns hoff hfew hmild] at hcount hlast haddr hkept hbit hmem hregs
    refine ⟨_, rfl, hcount, hlast, haddr, hkept, hbit, hmem, fun a ha => ?_⟩
    obtain ⟨⟨hblock, hcnt⟩, hrec⟩ : (inBlock 0xA0000 a = false ∧ counting a = false) ∧ recordReg a = false := by
      simpa only [Bool.or_eq_false_iff] using ha
    refine hregs a (Bool.eq_false_iff.2 fun h => ?_) (Bool.eq_false_iff.2 fun h => ?_) hcnt
    · have := of_decide_eq_true h
      have := of_decide_eq_false hblock
      omega
    · rcases raiseReg_inBlock h with h | h
      · rw [hblock] at h
        cases h
      · rw [hrec] at h
        cases h
  · intro e s hruns hfew
    obtain ⟨hcount, hmemb, hagain, hregs, hmem⟩ := s.correct_spec e hfew
    rw [← doBtRegionTest_corrected hruns hfew] at hcount hmemb hagain hregs hmem
    exact ⟨_, rfl, hcount, hmemb, hagain, hregs, hmem⟩
  · intro s hruns hdue hhead hregion
    refine ⟨?_, fun d hplace hreach hcore hfree hfew => ?_⟩
    · have hpassed := doBtRegionTest_passed hruns hdue hhead hregion
      refine ⟨_, rfl, hpassed.btAt, hpassed.region, hpassed.passes, .of_mem hpassed.mem, fun a ha => hpassed.regs a ?_⟩
      simpa only [passReg, Bool.or_assoc] using ha
    · obtain ⟨n, hbound, hunused, hrest⟩ := doBtRegionTest_repairs hruns hdue hhead hregion hplace hreach hcore hfree hfew
      refine ⟨_, n, rfl, hbound, fun r hr hplace hcolumn hspare => hunused ?_, hrest⟩
      exact List.mem_map.2 ⟨r, List.mem_filter.2 ⟨hr, by simp [hplace, hcolumn]⟩, hspare⟩

end Sys2Proof.Machine
end
